-- ==== Sys2Proof/Word.lean ====
section
/-! DEFINITION. Words, instants and addresses of the block, and their plainest arithmetic (R8, R10–R12). -/

namespace Sys2Proof

/-- One byte. -/
abbrev Byte := BitVec 8

/-- Linear time: a 64-bit count of tu, 2^-16 ns (R10). -/
abbrev LT := BitVec 64

/-- An owner tag (R8): 0 platform, 1–64 instances, 0xF0 metrology transit. Eight bits wide; it is only ever compared. -/
abbrev Tag := Nat

/-- A MAC address. -/
abbrev Mac := BitVec 48

/-- The quality word of a point or of a sample (R392). -/
abbrev Quality := BitVec 16

/-- A map held as an association list with at most one entry per key. -/
abbrev Tab (κ ν : Type) := List (κ × ν)

/-- An addressed RAM: bytes by address, in the canonical form of `Memory.wf`. -/
abbrev Memory := List (Nat × BitVec 8)

/-- tu in `n` nanoseconds (R10). -/
def nsTu (n : Nat) : Nat := n * 65536

/-- tu in `n` microseconds. -/
def usTu (n : Nat) : Nat := n * 65536000

/-- tu in `n` milliseconds. -/
def msTu (n : Nat) : Nat := n * 65536000000

/-- tu in `n` seconds. -/
def secTu (n : Nat) : Nat := n * 65536000000000

/-- `lt` advanced by `n` tu, modulo 2^64 (R10). -/
def ltAdd (lt : LT) (n : Nat) : LT := lt + BitVec.ofNat 64 n

/-- `lt` moved back by `n` tu, modulo 2^64 (R10). -/
def ltSub (lt : LT) (n : Nat) : LT := lt - BitVec.ofNat 64 n

/-- The signed 64-bit difference `a - b` of R11. -/
def ltDiff (a b : LT) : Int := (a - b).toInt

/-- R11: a target is reached when the signed difference is zero or greater. -/
def ltReached (now target : LT) : Bool := decide (0 ≤ ltDiff now target)

/-- `a` lies at or before `b` by the signed difference of R11. -/
def ltLe (a b : LT) : Bool := decide (0 ≤ ltDiff b a)

/-- A count one higher, which stays at its greatest value (a saturating counter). -/
def satInc {w : Nat} (x : BitVec w) : BitVec w := if x = BitVec.allOnes w then x else x + 1

/-- The low `n` bytes of `x`, least significant first (R12). -/
def bytesLE : Nat → Nat → List Byte
  | 0, _ => []
  | n + 1, x => BitVec.ofNat 8 x :: bytesLE n (x / 256)

/-- The number whose bytes, least significant first, are given (R12). -/
def ofBytesLE : List Byte → Nat
  | [] => 0
  | b :: bs => b.toNat + 256 * ofBytesLE bs

/-- The number whose bytes, most significant first, are given (R12, frames on the wire). -/
def ofBytesBE (bs : List Byte) : Nat := bs.foldl (fun a b => a * 256 + b.toNat) 0

/-- The low `n` bytes of `x`, most significant first. -/
def bytesBE (n x : Nat) : List Byte := (bytesLE n x).reverse

/-- One bit as a number. -/
def bitN (b : Bool) : Nat := if b then 1 else 0

/-- Ceiling division. -/
def ceilDiv (a b : Nat) : Nat := (a + b - 1) / b

end Sys2Proof
end

