-- ==== Sys2Proof/Syntax.lean ====
section
/-! DEFINITION. The commands of the block (one constructor of `Instr` per row of spec/opcode_table.json) and the
operands they carry: the staged settings of every subsystem, frames, messages, and the header of a command entry. -/

namespace Sys2Proof

set_option autoImplicit false

/-- The width of a host access (R13). -/
inductive AccessWidth where
  | b8
  | b16
  | b32
  | b64
  deriving DecidableEq, Repr

/-- Servo states (R35, R56). -/
inductive Servo where
  | freerun
  | acquiring
  | locked
  | holdover
  deriving DecidableEq, Repr

/-- Time sources (R34, R56). -/
inductive Source where
  | none
  | ptp
  | irig
  deriving DecidableEq, Repr

/-- Active edge of a capture or edge input. -/
inductive EdgeSel where
  | rising
  | falling
  | both
  deriving DecidableEq, Repr

/-- PTP port states of the state machines SU runs (R31; IEEE 1588-2019 names). -/
inductive PtpState where
  | disabled
  | listening
  | master
  | slave
  | passive
  | faulty
  deriving DecidableEq, Repr

/-- Clock types (R31). -/
inductive PtpClock where
  | ordinarySlaveOnly
  | ordinaryMaster
  | boundary
  | transparentE2E
  | transparentP2P
  | boundaryAndTransparent
  deriving DecidableEq, Repr

/-- Profiles (R31). -/
inductive PtpProfile where
  | p61850_9_3
  | c37_238
  | default1588
  deriving DecidableEq, Repr

/-- Transports (R31). -/
inductive PtpTransport where
  | ethernet
  | udpIPv4
  | udpIPv6
  deriving DecidableEq, Repr

/-- Delay mechanisms (R31). -/
inductive PtpDelay where
  | p2p
  | e2e
  deriving DecidableEq, Repr

/-- PTP messages. -/
inductive PtpMsgType where
  | sync
  | followUp
  | delayReq
  | delayResp
  | pdelayReq
  | pdelayResp
  | pdelayRespFollowUp
  | announce
  | other
  deriving DecidableEq, Repr

/-- Staged settings of one PTP port (R31). -/
structure PtpPortCfg where
  /-- port P0–P13 (R31). -/
  port : Fin 14 := 0
  /-- the port belongs to the transparent clock's set, not the boundary clock's (R31). -/
  transparent : Bool := false
  /-- one-step Sync (R31). -/
  oneStepSync : Bool := true
  /-- one-step Pdelay_Resp (R31). -/
  oneStepPdelay : Bool := true
  /-- logSyncInterval (R31). -/
  logSync : Int := 0
  /-- logAnnounceInterval (R31). -/
  logAnnounce : Int := 0
  /-- logMinPdelayReqInterval (R31). -/
  logPdelay : Int := 0
  /-- 802.1Q tag, or untagged (R31). -/
  vlan : Option (BitVec 12) := none
  deriving DecidableEq, Repr

/-- TB_STAGE_PTP: clock type, profile, ports, intervals, thresholds (R58). -/
structure PtpCfg where
  /-- a PTP clock is configured (R58). -/
  enabled : Bool := false
  /-- clock type (R31). -/
  clock : PtpClock := .ordinarySlaveOnly
  /-- profile (R31). -/
  profile : PtpProfile := .p61850_9_3
  /-- transport (R31). -/
  transport : PtpTransport := .ethernet
  /-- delay mechanism (R31). -/
  delay : PtpDelay := .p2p
  /-- domainNumber (R31). -/
  domain : Nat := 0
  /-- PTP ports (R31). -/
  ports : List PtpPortCfg := []
  /-- the request names C0 or C1 as a PTP port, which R31 does not support. -/
  cabinetPort : Bool := false
  /-- priority1 of this clock (R31). -/
  priority1 : BitVec 8 := 128
  /-- priority2 of this clock (R31). -/
  priority2 : BitVec 8 := 128
  /-- step threshold in ns, default 100 µs (R24). -/
  stepThr : Nat := 100000
  /-- lock threshold in ns, default 1 µs (R35). -/
  lockThr : Nat := 1000
  /-- loss timeout in ms, default 3 s (R35). -/
  lossMs : Nat := 3000
  /-- holdover limit in ns for clockClass 7, default 1 µs (R37). -/
  holdLimit : Nat := 1000
  /-- grandmasterID of the IEEE_C37_238 TLV; no default given: DESIGN CHOICE 0 (log 4) (R31). -/
  gmShortId : BitVec 16 := 0
  /-- content of an ALTERNATE_TIME_OFFSET_INDICATOR TLV that Announce carries (R31). -/
  altOffset : Option (List Byte) := none
  /-- Announce carries a PATH_TRACE TLV (R31). -/
  pathTrace : Bool := false
  /-- staged fabric class of PTP messages; no default given: DESIGN CHOICE 0 (log 4) (R629). -/
  cls : Fin 8 := 0
  deriving DecidableEq, Repr

/-- TB_STAGE_SOURCES: source enables, IRIG options, drift bounds, initial currentUtcOffset (R58). -/
structure SourcesCfg where
  /-- PTP may be selected (R34). -/
  ptpEn : Bool := true
  /-- IRIG with PPS may be selected (R34). -/
  irigEn : Bool := true
  /-- year staged by the host for codings without it (R48). -/
  irigYear : Option Nat := none
  /-- leap information staged by the host: bit 0 leap61, bit 1 leap59 (R48). -/
  irigLeap : BitVec 2 := 0
  /-- D in ns/s, default 500 (R36). -/
  drift : Nat := 500
  /-- D_rtc in tenths of a ppm, default 5 ppm (R54). -/
  rtcDrift : Nat := 50
  /-- REFCLK tolerance staged for holdover, in tenths of a ppm; no default given: DESIGN CHOICE 50 ppm (log 4) (R54). -/
  refTol : Nat := 500
  /-- initial currentUtcOffset (R631). -/
  utcOffset : Option (BitVec 16) := none
  deriving DecidableEq, Repr

/-- TB_STAGE_PORT_LAT: one port (R28). -/
structure PortLatCfg where
  /-- port (R28). -/
  port : Fin 14 := 0
  /-- ingress board correction in tu, signed (R28). -/
  ingress : BitVec 32 := 0
  /-- egress board correction in tu, signed (R28). -/
  egress : BitVec 32 := 0
  /-- delayAsymmetry in tu, signed (R28). -/
  asym : BitVec 32 := 0
  /-- external PHY uncertainty in ns, 0–1,000, SGMII ports only (R28). -/
  phyUnc : BitVec 32 := 0
  deriving DecidableEq, Repr

/-- Settings of one PPS_OUT or TB_OUT pin (R44). -/
structure OutPinCfg where
  /-- the pin is used (R44). -/
  en : Bool := false
  /-- TB_OUT period in tu; PPS_OUT has one second (R44). -/
  period : Nat := 0
  /-- signed offset or phase from the TAI second in tu (R44). -/
  offset : Int := 0
  /-- pulse width in tu, 1 µs–500 ms, default 1 ms (R44). -/
  width : Nat := 65536000000
  /-- free-running output enabled (R44). -/
  freeRun : Bool := false
  deriving DecidableEq, Repr

/-- TB_STAGE_PINS: PPS_OUT, TB_OUT and capture-edge settings (R58). -/
structure PinCfg where
  /-- PPS_OUT0–3 (0–3), TB_OUT0–7 (4–11) (R44). -/
  out : Vector OutPinCfg 12 := .replicate 12 {}
  /-- active edges of TCC0–TCC15 (R45). -/
  edges : Vector EdgeSel 16 := .replicate 16 .rising
  /-- TB_OUT looped back to TCC15 (R46). -/
  loopback : Fin 8 := 0
  deriving DecidableEq, Repr

/-- TB_STAGE_TCU_ASSIGN: one general unit (R58). -/
structure TcuAssign where
  /-- unit TCU20 + unit (R42). -/
  unit : Fin 12 := 0
  /-- destination code of R627. -/
  dest : BitVec 8 := 0
  /-- owner (R57). -/
  owner : Tag := 0
  /-- phase of a CNV_CLK alignment from the TAI second in tu (R44). -/
  cnvPhase : Nat := 0
  /-- alignment period in tu (R44). -/
  cnvPeriod : Nat := 0
  deriving DecidableEq, Repr

/-- What SU keeps of a received Announce message (R31, R631). -/
structure Announce where
  /-- grandmaster priority1 (R31). -/
  priority1 : BitVec 8 := 128
  /-- grandmaster clockClass (R31). -/
  clockClass : BitVec 8 := 248
  /-- grandmaster clockAccuracy (R31). -/
  accuracy : BitVec 8 := 0xFE
  /-- grandmaster offsetScaledLogVariance (R31). -/
  variance : BitVec 16 := 0xFFFF
  /-- grandmaster priority2 (R31). -/
  priority2 : BitVec 8 := 128
  /-- grandmasterIdentity (R31). -/
  gmId : BitVec 64 := 0
  /-- stepsRemoved (R31). -/
  steps : BitVec 16 := 0
  /-- sourcePortIdentity (R31). -/
  source : BitVec 80 := 0
  /-- currentUtcOffsetValid (R631). -/
  utcValid : Bool := false
  /-- currentUtcOffset (R631). -/
  utcOffset : BitVec 16 := 0
  /-- leap61 (R631). -/
  leap61 : Bool := false
  /-- leap59 (R631). -/
  leap59 : Bool := false
  /-- timeTraceable (R37). -/
  timeTraceable : Bool := false
  /-- the clock identities of a PATH_TRACE TLV (R31). -/
  path : List (BitVec 64) := []
  deriving DecidableEq, Repr

/-- One PTP message as SU receives it (R31). -/
structure PtpMsg where
  /-- messageType (R51). -/
  type : PtpMsgType := .other
  /-- domainNumber (R31). -/
  domain : Nat := 0
  /-- sequenceId (R51). -/
  seq : BitVec 16 := 0
  /-- twoStepFlag (R33). -/
  twoStep : Bool := false
  /-- correctionField in tu (R25). -/
  correction : Int := 0
  /-- originTimestamp, receiveTimestamp or precise timestamp, as TAI in tu (R25). -/
  ts : Int := 0
  /-- body of an Announce (R31). -/
  ann : Option Announce := none
  /-- sourcePortIdentity (R31). -/
  source : BitVec 80 := 0
  /-- requestingPortIdentity of a response (R31). -/
  requester : BitVec 80 := 0
  deriving DecidableEq, Repr

/-- The control-function extension of IEEE 1344 / C37.118 in an IRIG frame (R48). -/
structure IrigExt where
  /-- year, two digits (R48). -/
  year : Nat := 0
  /-- a leap second is pending (R48). -/
  leapPending : Bool := false
  /-- its sign: a deletion (R48). -/
  leapNeg : Bool := false
  /-- daylight saving pending (R48). -/
  dstPending : Bool := false
  /-- daylight saving in force (R48). -/
  dst : Bool := false
  /-- local time less UTC in half hours, signed (R48). -/
  offset : Int := 0
  /-- time quality code (R48). -/
  quality : BitVec 4 := 0
  /-- currentUtcOffset that the extension carries, where it does (R631). -/
  utcOffset : Option (BitVec 16) := none
  deriving DecidableEq, Repr

/-- One IRIG frame as its bits give it (R48, R49). -/
structure IrigFrame where
  /-- markers and parity are right, so that it can be decoded (R49). -/
  ok : Bool := false
  /-- coded expression B000 to B007 (R48). -/
  coding : Fin 8 := 0
  /-- BCD seconds: units and tens (R48). -/
  sec : Nat × Nat := (0, 0)
  /-- BCD minutes (R48). -/
  min : Nat × Nat := (0, 0)
  /-- BCD hours (R48). -/
  hour : Nat × Nat := (0, 0)
  /-- BCD day of the year: units, tens and hundreds (R48). -/
  day : Nat × Nat × Nat := (1, 0, 0)
  /-- BCD year, in B004 to B007 (R48). -/
  year : Nat × Nat := (0, 0)
  /-- straight binary seconds, in B000, B003, B004 and B007 (R48). -/
  sbs : Nat := 0
  /-- the control functions, in B000, B001, B004 and B005 (R48). -/
  ext : IrigExt := {}
  /-- on-time edge (R49). -/
  edge : LT := 0
  /-- PPS_IN edge, or none if it is missing (R49). -/
  pps : Option LT := none
  deriving DecidableEq, Repr

/-- A ring pair: manager ring k, or ring r of instance i (R60). -/
inductive RingId where
  | m (k : Fin 4)
  | inst (i : Nat) (r : Nat)
  deriving DecidableEq, Repr

/-- A fault of SU's firmware in executing a command: before the operation, or after it (R73). -/
inductive FwFault where
  | none
  | before
  | after
  deriving DecidableEq, Repr

/-- What a command entry holds beside its parameters, and where it stands (R67). -/
structure Cmd where
  /-- ring pair it was fetched from (R67). -/
  ring : RingId := .m 0
  /-- command index (R63). -/
  idx : BitVec 16 := 0
  /-- FLAGS.NOTIFY (R67). -/
  notify : Bool := false
  /-- FLAGS.FENCE (R67). -/
  fence : Bool := false
  /-- FLAGS.INDIRECT (R67). -/
  indirect : Bool := false
  /-- FLAGS.ASYNC (R67). -/
  async : Bool := false
  /-- the reserved bits of the entry: FLAGS bits 15:4 below the RSV word (R67). -/
  rsv : BitVec 44 := 0
  /-- SEQ (R67). -/
  seq : BitVec 32 := 0
  /-- SESSION (R67). -/
  session : BitVec 16 := 0
  /-- PLEN (R67). -/
  plen : Nat := 0
  /-- IND_LEN (R67). -/
  indLen : Nat := 0
  /-- BUF_ADDR (R67). -/
  bufAddr : BitVec 64 := 0
  /-- BUF_LEN (R67). -/
  bufLen : Nat := 0
  /-- the DMA of its indirect buffer does not fail (R68). -/
  dmaOk : Bool := true
  /-- whether SU's firmware fails in executing it (R72, R73). -/
  fault : FwFault := .none
  deriving DecidableEq, Repr

/-- Status codes (R72). -/
inductive Status where
  | ok
  | partialDone
  | pending
  | busy
  | quota
  | domainOff
  | badOpcode
  | badParam
  | checkFailed
  | denied
  | keyRevoked
  | sealed
  | logFull
  | notReady
  | stale
  | internalFault
  deriving DecidableEq, Repr

/-- An uncorrectable guard-code error as its reader finds it (R573). -/
structure GuardHit where
  /-- guard-word index within the region (R573). -/
  addr : BitVec 64 := 0
  /-- SYNDROME S0 (R573). -/
  s0 : BitVec 8 := 0
  /-- SYNDROME S1 (R573). -/
  s1 : BitVec 8 := 0
  /-- SYNDROME S2 (R573). -/
  s2 : BitVec 8 := 0
  deriving DecidableEq, Repr

/-- What the guard code finds in a word read or transferred: an error it corrects, or one it cannot (R566). -/
inductive GuardFind where
  | corrected
  | uncorrectable (h : GuardHit)
  deriving DecidableEq, Repr

/-- Fault sequences of the IEEE 802.3 reconciliation sublayer (R98). -/
inductive RsFault where
  | none
  | localFault
  | remoteFault
  deriving DecidableEq, Repr

/-- PHY types (R97, R131). -/
inductive PhyType where
  | disabled
  | base25
  | base10
  | base1000
  | sgmii
  deriving DecidableEq, Repr

/-- FEC modes (R97, R131). -/
inductive Fec where
  | none
  | baseR
  | rs
  deriving DecidableEq, Repr

/-- Actions of an address entry (R110, R112). -/
inductive PxAction where
  | forward
  | core
  | ingest
  | drop
  deriving DecidableEq, Repr

/-- Modes of a redundancy pair (R120). -/
inductive RedMode where
  | independent
  | prp
  | hsr
  deriving DecidableEq, Repr

/-- Cipher suites (R126). -/
inductive MacsecSuite where
  | gcm128
  | gcm256
  | xpn128
  | xpn256
  deriving DecidableEq, Repr

/-- validateFrames (R126). -/
inductive Validate where
  | disabled
  | check
  | strict
  deriving DecidableEq, Repr

/-- PX_STAGE_PORT: settings of one port (R131, R132). -/
structure PortCfg where
  /-- PHY_TYPE (R131). -/
  phy : PhyType := .disabled
  /-- FEC; where it is not staged, the PHY type's default (R97, R131). -/
  fec : Option Fec := none
  /-- AN_EN (R131). -/
  anEn : Bool := true
  /-- PAUSE_OBEY (R131). -/
  pauseObey : Bool := false
  /-- DELIVER_BAD (R131). -/
  deliverBad : Bool := false
  /-- BAD_QUEUE (R131). -/
  badQueue : Fin 8 := 0
  /-- DEFAULT_DROP (R131). -/
  defaultDrop : Bool := false
  /-- PVID (R131). -/
  pvid : BitVec 12 := 1
  /-- PPRIO (R131). -/
  pprio : Fin 8 := 0
  /-- M in bytes (R131). -/
  maxf : Nat := 1536
  /-- queue for each PCP; identity at reset (R111). -/
  pcpMap : Vector (Fin 8) 8 := #v[0, 1, 2, 3, 4, 5, 6, 7]
  deriving DecidableEq, Repr

/-- One address entry (R110). -/
structure AddrEntry where
  /-- MAC (R110). -/
  mac : Mac := 0
  /-- ETYPE (R110). -/
  etype : BitVec 16 := 0
  /-- VID (R110). -/
  vid : BitVec 12 := 0
  /-- VLAN_EN (R110). -/
  vlanEn : Bool := false
  /-- ETYPE_EN (R110). -/
  etypeEn : Bool := false
  /-- VALID (R110). -/
  valid : Bool := false
  /-- QUEUE (R110). -/
  queue : Fin 8 := 0
  /-- ACTION (R110). -/
  action : PxAction := .forward
  deriving DecidableEq, Repr

/-- PX_STAGE_REDUNDANCY: one pair (R120, R123, R125). -/
structure RedCfg where
  /-- mode (R120). -/
  mode : RedMode := .independent
  /-- role RedBox, else DAN (R120). -/
  redBox : Bool := false
  /-- forget time in ms, 10–1,000 (R123). -/
  forgetMs : Nat := 400
  /-- LifeCheckInterval in ms, 1,000–10,000 (R125). -/
  lifeMs : Nat := 2000
  /-- this node's own address; the spec names no place that stages it: DESIGN CHOICE here (log 12) (R122). -/
  node : Mac := 0
  /-- fabric class of its supervision frames (R629). -/
  cls : Fin 8 := 0
  /-- a reserved bit is set (an option without an encoding) (R120). -/
  rsv : Bool := false
  deriving DecidableEq, Repr

/-- One MACsec bypass entry (R128). -/
structure Bypass where
  /-- enabled (R128). -/
  en : Bool := false
  /-- EtherType (R128). -/
  etype : BitVec 16 := 0
  /-- destination address, where qualified (R128). -/
  dst : Option Mac := none
  deriving DecidableEq, Repr

/-- PX_STAGE_MACSEC: one port (R126–R129, R132). -/
structure MacsecCfg where
  /-- MACsec enabled on the port (R126). -/
  en : Bool := false
  /-- cipher suite (R126). -/
  suite : MacsecSuite := .gcm128
  /-- SecTAG with SCI; no default given: DESIGN CHOICE with SCI (log 4) (R126). -/
  sci : Bool := true
  /-- SCI of the transmit channel (PRESUMED part of the staged SCI setting, log 126) (R126, R132). -/
  txSci : BitVec 64 := 0
  /-- confidentiality offset 0, 30 or 50 (none: integrity only); no default given: DESIGN CHOICE 0 (log 4) (R126). -/
  confOffset : Option (Fin 3) := some 0
  /-- validateFrames; no default given: DESIGN CHOICE Strict (log 4) (R126). -/
  validate : Validate := .strict
  /-- replay window, or no replay protection; no default given: DESIGN CHOICE 0 (log 4) (R126). -/
  replay : Option Nat := some 0
  /-- SCIs of the receive channels, 8 maximum (R127). -/
  rxSc : List (BitVec 64) := []
  /-- bypass entries; entry 0 is reset to 0x88F7, enabled (R128). -/
  bypass : Vector Bypass 4 := #v[{ en := true, etype := 0x88F7 }, {}, {}, {}]
  /-- PN threshold; none: the default for the suite (R129). -/
  pnThr : Option (BitVec 64) := none
  deriving DecidableEq, Repr

/-- PX_MACSEC_SA_SET: one SA to install (R127, R132). -/
structure MacsecSa where
  /-- KV key slot of the SAK, and for XPN of SSCI and salt (R127). -/
  slot : BitVec 16 := 0
  /-- initial PN (transmit) or lowest PN (receive) (R132). -/
  pn : Nat := 1
  deriving DecidableEq, Repr

/-- One tap selection PX_TAP_SELk (R130). -/
structure TapSel where
  /-- the selection is in use (R130). -/
  valid : Bool := false
  /-- destination address (R130). -/
  dst : Mac := 0
  /-- APPID (R130). -/
  appid : BitVec 16 := 0
  deriving DecidableEq, Repr

/-- One Ethernet frame on P0–P13 or in the fabric (R100). -/
structure Frame where
  /-- destination address to the last byte before the FCS, as far as it is stored (R100). -/
  bytes : List Byte := []
  /-- length on the wire, FCS included (R100). -/
  len : Nat := 64
  /-- the FCS is correct (R103). -/
  fcsOk : Bool := true
  /-- it contains a PCS code error (R103). -/
  codeErr : Bool := false
  deriving DecidableEq, Repr

/-- SW_STAGE_LIMITS: one queue (R166, R170, R172). -/
structure LimitsCfg where
  /-- RESERVE in cells (R166). -/
  reserve : Nat := 256
  /-- LIMIT in cells (R166). -/
  limit : Nat := 8192
  /-- ECN_DEPTH in cells, 0 disables (R170). -/
  ecnDepth : Nat := 0
  /-- MAX_AGE in steps of 10 µs, 0 no limit (R172). -/
  maxAge : Nat := 0
  deriving DecidableEq, Repr

/-- SW_STAGE_FDB: one static entry (R158). -/
structure FdbStatic where
  /-- address (R158). -/
  mac : Mac := 0
  /-- VLAN ID (R158). -/
  vid : BitVec 12 := 0
  /-- destination mask (R158). -/
  mask : BitVec 16 := 0
  deriving DecidableEq, Repr

/-- SW_STAGE_VLAN: the masks of one VLAN ID (R159). -/
structure VlanCfg where
  /-- MEMBER (R159). -/
  member : BitVec 16 := 0xFFFF
  /-- UNK_UC (R159). -/
  unkUc : BitVec 16 := 0xBFFF
  /-- UNK_MC (R159). -/
  unkMc : BitVec 16 := 0xBFFF
  deriving DecidableEq, Repr

/-- SW_STAGE_PORTS: hold time and learning per port, ageing time, SEED (R181). -/
structure SwPortsCfg where
  /-- hold time of P0–P13 in steps of 100 µs, 0–1,000, default 10 ms (R171). -/
  hold : Vector Nat 14 := .replicate 14 100
  /-- learning enabled; no default given: DESIGN CHOICE off (log 4) (R158). -/
  learn : Vector Bool 14 := .replicate 14 false
  /-- ageing time in s, 10–3,600 (R158). -/
  ageing : Nat := 300
  /-- SEED (R163). -/
  seed : BitVec 4 := 0
  deriving DecidableEq, Repr

/-- SW_STAGE_MIRROR: the mirror selection (R176). -/
structure MirrorCfg where
  /-- ingress mask, for RX entries (R176). -/
  inMask : BitVec 16 := 0
  /-- egress mask, for TX entries (R176). -/
  egMask : BitVec 16 := 0
  /-- class mask (R176). -/
  classMask : BitVec 8 := 0
  /-- DROP enabled (R176). -/
  drop : Bool := false
  /-- AGED enabled (R176). -/
  aged : Bool := false
  /-- FLUSH enabled (R176). -/
  flush : Bool := false
  /-- GUARD enabled (R176). -/
  guardEv : Bool := false
  deriving DecidableEq, Repr

/-- SW_PORTn_STATUS.LINK_STATE (R179). -/
inductive LinkState where
  | up
  | hold
  | down
  | disabled
  deriving DecidableEq, Repr

/-- QM_STAGE_QUEUES: one queue (R185). -/
structure QueueCfg where
  /-- CAP in words (R185). -/
  cap : Nat := 0
  /-- direction: some true fabric to host, some false host to fabric (R185). -/
  toHost : Option Bool := none
  deriving DecidableEq, Repr

/-- QM_STAGE_STEER: one CORE steering entry (R183). -/
structure SteerEntry where
  /-- the entry is valid (R183). -/
  valid : Bool := false
  /-- port mask (R183). -/
  ports : BitVec 16 := 0
  /-- class mask (R183). -/
  classes : BitVec 8 := 0
  /-- ETYPE_EN (R183). -/
  etypeEn : Bool := false
  /-- ETYPE (R183). -/
  etype : BitVec 16 := 0
  /-- queue named (R183). -/
  queue : Nat := 0x40
  deriving DecidableEq, Repr

/-- Producers of QM packets (R182). -/
inductive Producer where
  | fabric (port : Fin 16)
  | px (seg : Fin 2)
  | se
  | su
  | cabinet (seg : Fin 2)
  | ps
  | tahr (cluster : Fin 6) (owner : Tag)
  | host
  deriving DecidableEq, Repr

/-- SE_SVs_STATUS.STATE (R209). -/
inductive SvState where
  | idle
  | acquire
  | locked
  | lost
  deriving DecidableEq, Repr

/-- SE_GOSUBg_STATUS.STATE (R221). -/
inductive GoSubState where
  | idle
  | ok
  | talExpired
  deriving DecidableEq, Repr

/-- Required synchronisation of a group (R205). -/
inductive SyncReq where
  | none
  | local_
  | global
  deriving DecidableEq, Repr

/-- SE_STAGE_GROUPS: one alignment group (R205, R222). -/
structure GroupCfg where
  /-- N in samples/s (R205). -/
  rate : Nat := 4800
  /-- W in µs (R205). -/
  tolUs : Nat := 500
  /-- required synchronisation (R205). -/
  sync : SyncReq := .global
  /-- substitution policy ZERO, else HOLD (R205). -/
  zero : Bool := false
  /-- M_sub (R205). -/
  mSub : Nat := 2
  /-- K (R205). -/
  lockK : Nat := 8
  /-- streams marked mandatory (R212). -/
  mandatory : List Nat := []
  deriving DecidableEq, Repr

/-- What names a stream besides svID or gocbRef (R201). -/
inductive SeKey where
  | l2 (dst : Mac) (appid : BitVec 16) (vid : Option (BitVec 12))
  | ip (dst src : BitVec 128)
  deriving DecidableEq, Repr

/-- One channel of an SV stream (R222). -/
structure SvChan where
  /-- point it writes (R222). -/
  point : Option Nat := none
  /-- analogue channel number 0–8,191 by which FR lanes take it (log 29) (R224). -/
  num : Option Nat := none
  deriving DecidableEq, Repr

/-- SE_STAGE_SV: one subscription (R200–R204, R222). -/
structure SvCfg where
  /-- the subscription is used (R222). -/
  en : Bool := true
  /-- owner (R200). -/
  owner : Tag := 0
  /-- key; vid where the subscription enables it (R201). -/
  key : SeKey := .l2 0 0 none
  /-- svID (R201). -/
  svId : List Byte := []
  /-- datSet; empty: not in the frame (R202). -/
  datSet : List Byte := []
  /-- confRev (R202). -/
  confRev : BitVec 32 := 0
  /-- alignment group (R205). -/
  group : Fin 16 := 0
  /-- sample rate of the stream (R205). -/
  rate : Nat := 4800
  /-- 1–24 channels (R199). -/
  chans : List SvChan := []
  /-- authentication required (R203). -/
  authReq : Bool := false
  /-- current key slot (R203). -/
  keyCur : Option Nat := none
  /-- next key slot (R203). -/
  keyNext : Option Nat := none
  /-- SIM_ACCEPT (R204). -/
  simAccept : Bool := false
  deriving DecidableEq, Repr

/-- Member types (R213). -/
inductive GoType where
  | boolean
  | dbpos
  | int32
  | int32u
  | float32
  | quality
  | timestamp
  deriving DecidableEq, Repr

/-- One member of a subscribed dataset (R213). -/
structure GoMember where
  /-- staged type (R213). -/
  type : GoType := .boolean
  /-- point it maps to (R213). -/
  point : Option Nat := none
  deriving DecidableEq, Repr

/-- SE_STAGE_GOOSE_SUB: one subscription (R213, R222). -/
structure GoSubCfg where
  /-- the subscription is used (R222). -/
  en : Bool := true
  /-- owner (R200). -/
  owner : Tag := 0
  /-- key (R201). -/
  key : SeKey := .l2 0 0 none
  /-- gocbRef (R201). -/
  gocbRef : List Byte := []
  /-- datSet (R202). -/
  datSet : List Byte := []
  /-- confRev (R202). -/
  confRev : BitVec 32 := 0
  /-- 1–256 members (R213). -/
  members : List GoMember := []
  /-- authentication required (R203). -/
  authReq : Bool := false
  /-- current key slot (R203). -/
  keyCur : Option Nat := none
  /-- next key slot (R203). -/
  keyNext : Option Nat := none
  /-- SIM_ACCEPT (R204). -/
  simAccept : Bool := false
  /-- TEST_ACCEPT (R213). -/
  testAccept : Bool := false
  deriving DecidableEq, Repr

/-- SE_STAGE_GOOSE_PUB: one control block (R215, R216). -/
structure GoPubCfg where
  /-- the block is published (R222). -/
  en : Bool := true
  /-- owner (R215). -/
  owner : Tag := 0
  /-- gocbRef (R215). -/
  gocbRef : List Byte := []
  /-- datSet (R215). -/
  datSet : List Byte := []
  /-- goID (R215). -/
  goId : List Byte := []
  /-- confRev (R215). -/
  confRev : BitVec 32 := 0
  /-- APPID (R215). -/
  appid : BitVec 16 := 0
  /-- destination address (R215). -/
  dst : Mac := 0
  /-- source address (R436). -/
  src : Mac := 0
  /-- VLAN tag control word (R215). -/
  vlan : Option (BitVec 16) := none
  /-- output queue 0x08 + queue (R215). -/
  queue : Fin 4 := 0
  /-- fabric class; no default given: DESIGN CHOICE 7 (log 4) (R215). -/
  cls : Fin 8 := 7
  /-- 1–256 member points (R215). -/
  members : List Nat := []
  /-- T1 in ms (R216). -/
  t1 : Nat := 1
  /-- F (R216). -/
  f : Nat := 2
  /-- T0 in ms (R216). -/
  t0 : Nat := 1000
  deriving DecidableEq, Repr

/-- The authentication value of a frame (R203). -/
structure SeAuth where
  /-- key identifier (R203). -/
  keyId : BitVec 32 := 0
  /-- HMAC-SHA256, else AES-GMAC (R199, R203). -/
  hmac : Bool := false
  /-- IV of a GMAC (R203). -/
  iv : BitVec 96 := 0
  /-- the bytes of the frame that the value covers (R203; log 52). -/
  covered : List Byte := []
  /-- the value itself (R203). -/
  value : List Byte := []
  deriving DecidableEq, Repr

/-- One ASDU of an SV frame (R199). -/
structure SvAsdu where
  /-- svID (R201). -/
  svId : List Byte := []
  /-- datSet, empty where absent (R202). -/
  datSet : List Byte := []
  /-- smpCnt (R202). -/
  smpCnt : Nat := 0
  /-- confRev (R202). -/
  confRev : BitVec 32 := 0
  /-- smpSynch (R205). -/
  smpSynch : BitVec 8 := 0
  /-- seqData (R199). -/
  seqData : List Byte := []
  deriving DecidableEq, Repr

/-- An SV frame as SE reads it; its BER coding is IEC 61850-9-2's and not the spec's (R199). -/
structure SvFrame where
  /-- receive timestamp (R201). -/
  rxLt : LT := 0
  /-- addresses; vid where the frame is tagged (R201). -/
  key : SeKey := .l2 0 0 none
  /-- well formed, with an APDU length that agrees with the frame (R202). -/
  formOk : Bool := true
  /-- authentication value (R203). -/
  auth : Option SeAuth := none
  /-- simulation bit (R204). -/
  sim : Bool := false
  /-- ASDUs (R199). -/
  asdus : List SvAsdu := []
  deriving DecidableEq, Repr

/-- One member value of a GOOSE frame (R213). -/
inductive GoValue where
  | boolean (b : Bool)
  | dbpos (v : BitVec 2)
  | int32 (v : BitVec 32)
  | int32u (v : BitVec 32)
  | float32 (v : BitVec 32)
  | quality (q : Quality)
  | timestamp (v : BitVec 64)
  deriving DecidableEq, Repr

/-- A GOOSE frame as SE reads it; its BER coding is IEC 61850-8-1's and not the spec's (R199). -/
structure GoFrame where
  /-- receive timestamp (R213). -/
  rxLt : LT := 0
  /-- addresses; vid where the frame is tagged (R201). -/
  key : SeKey := .l2 0 0 none
  /-- well formed (R202). -/
  formOk : Bool := true
  /-- authentication value (R203). -/
  auth : Option SeAuth := none
  /-- simulation bit (R204). -/
  sim : Bool := false
  /-- gocbRef (R201). -/
  gocbRef : List Byte := []
  /-- datSet (R202). -/
  datSet : List Byte := []
  /-- confRev (R202). -/
  confRev : BitVec 32 := 0
  /-- stNum (R213). -/
  stNum : BitVec 32 := 0
  /-- sqNum (R213). -/
  sqNum : BitVec 32 := 0
  /-- test (R213). -/
  test : Bool := false
  /-- ndsCom (R202). -/
  ndsCom : Bool := false
  /-- timeAllowedToLive in ms (R214). -/
  tal : Option Nat := none
  /-- allData (R213). -/
  data : List GoValue := []
  deriving DecidableEq, Repr

/-- Resampler modes (R232). -/
inductive ResMode where
  | off
  | fixed
  | track
  deriving DecidableEq, Repr

/-- FR_LANEl_STATUS.STATE (R246). -/
inductive LaneState where
  | disabled
  | settling
  | running
  deriving DecidableEq, Repr

/-- FR_TRKg_STATUS.STATE (R245). -/
inductive TrkState where
  | disabled
  | tracking
  | hold
  | nominal
  deriving DecidableEq, Repr

/-- The source of a lane (R224): an analogue channel 0–8,191 of an SV subscription, or a channel of a wideband link. -/
inductive LaneSrc where
  | sv (ch : Nat)
  | wsl (link : Fin 8) (ch : Fin 3)
  deriving DecidableEq, Repr

/-- FR_STAGE_LANES: one lane (R232, R242, R243). -/
structure LaneCfg where
  /-- the lane is enabled; false removes it (R247). -/
  en : Bool := true
  /-- source (R224). -/
  src : LaneSrc := .sv 0
  /-- preset 0x01–0x09, which fixes N, D, M, tables and resampler mode (R243). -/
  preset : Option Nat := none
  /-- N, CIC order (R232). -/
  n : Nat := 3
  /-- D, CIC decimation (R232). -/
  d : Nat := 1
  /-- M, differential delay (R232). -/
  m : Nat := 1
  /-- FIR table (R232). -/
  fir : Nat := 0
  /-- resampler mode (R232). -/
  mode : ResMode := .off
  /-- prototype table (R232). -/
  proto : Nat := 0
  /-- f_out in FIXED (R232). -/
  fOut : Nat := 0
  /-- tracking group in TRACK (R232). -/
  group : Nat := 0
  /-- P in TRACK (R232). -/
  p : Nat := 128
  /-- SCALE, binary32 (R232). -/
  scale : BitVec 32 := 0x3F800000
  /-- floating-point point it writes (R242). -/
  point : Option Nat := none
  /-- point update divisor (R232). -/
  div : Nat := 1
  /-- PE channel it feeds (R242). -/
  pe : Option Nat := none
  /-- recorder it feeds (R242). -/
  recorder : Option (Fin 8) := none
  deriving DecidableEq, Repr

/-- FR_STAGE_TRACK: one tracking group (R234). -/
structure TrackCfg where
  /-- the group is used; false removes it (R247). -/
  en : Bool := true
  /-- f0 = 60 Hz, else 50 Hz (R234). -/
  sixty : Bool := false
  /-- frequency reference: a PE channel (R234). -/
  ref : Option Nat := none
  /-- hold timeout in ms, 100–10,000 in steps of 100 (R234). -/
  holdMs : Nat := 1000
  deriving DecidableEq, Repr

/-- FR_STAGE_COEF: one table of signed 24-bit coefficients with 22 fraction bits (R228, R229, R231). -/
structure CoefTable where
  /-- coefficients (R228). -/
  coefs : List Int := []
  deriving DecidableEq, Repr

/-- What the guard code finds as a lane releases an output (R241, R242). -/
inductive LaneFinding where
  | clean
  | corrected
  | state (h : GuardHit)
  | fir (h : GuardHit)
  | proto (h : GuardHit)
  deriving DecidableEq, Repr

/-- PE_CHc_STATUS.STATE (R270). -/
inductive ChanState where
  | disabled
  | settling
  | running
  deriving DecidableEq, Repr

/-- Classes (R252). -/
inductive PhClass where
  | none
  | p
  | m
  deriving DecidableEq, Repr

/-- Windows (R252). -/
inductive PhWindow where
  | rect
  | triangle
  | hann
  deriving DecidableEq, Repr

/-- PE_STAGE_CHANNELS: one channel (R248–R261). -/
structure ChanCfg where
  /-- the channel is enabled; false removes it (R272). -/
  en : Bool := true
  /-- FR lane (R248). -/
  lane : Nat := 0
  /-- class (R252). -/
  cls : PhClass := .none
  /-- window (R252). -/
  win : PhWindow := .hann
  /-- W in cycles (R252). -/
  w : Nat := 2
  /-- B, windows averaged (R252). -/
  b : Nat := 1
  /-- estimation rate Fe (R250). -/
  fe : Nat := 50
  /-- frequency source SET, else OWN (R256). -/
  set_ : Bool := false
  /-- K, binary32 (R255). -/
  k : BitVec 32 := 0x3F800000
  /-- β in µrad, signed (R255). -/
  beta : BitVec 32 := 0
  /-- minimum magnitude, binary32; none: 0.1 % of full scale (R257). -/
  minMag : Option (BitVec 32) := none
  /-- phasor point (R261). -/
  ptPhasor : Option Nat := none
  /-- frequency point (R261). -/
  ptFreq : Option Nat := none
  /-- ROCOF point (R261). -/
  ptRocof : Option Nat := none
  /-- divisor d of the point writes (R261). -/
  div : Nat := 1
  deriving DecidableEq, Repr

/-- PE_STAGE_SETS: one set (R249, R261). -/
structure SetCfg where
  /-- the set is used; false removes it (R272). -/
  en : Bool := true
  /-- channel of phase A (R249). -/
  a : Nat := 0
  /-- channel of phase B (R249). -/
  b : Nat := 0
  /-- channel of phase C (R249). -/
  c : Nat := 0
  /-- point of X1 (R261). -/
  x1 : Option Nat := none
  /-- point of X2 (R261). -/
  x2 : Option Nat := none
  /-- point of X0 (R261). -/
  x0 : Option Nat := none
  /-- divisor d of the point writes (R261). -/
  div : Nat := 1
  deriving DecidableEq, Repr

/-- A phasor of a frame: a channel, or sequence 1, 2 or 0 of a set (R263). -/
inductive PhasorSrc where
  | chan (c : Nat)
  | seq (set_ : Nat) (k : Fin 3)
  deriving DecidableEq, Repr

/-- One PHASORS entry (R263, R267). -/
structure PmuPhasor where
  /-- source (R263). -/
  src : PhasorSrc := .chan 0
  /-- PHUNIT, 1–16,777,215 (R267). -/
  unit : Nat := 1
  /-- a current, else a voltage (R267). -/
  current : Bool := false
  /-- channel name (R263). -/
  name : List Byte := []
  deriving DecidableEq, Repr

/-- One ANALOG entry (R263, R267). -/
structure PmuAnalog where
  /-- point (R263). -/
  point : Nat := 0
  /-- analog factor, binary32 (R267). -/
  factor : BitVec 32 := 0x3F800000
  /-- channel name (R263). -/
  name : List Byte := []
  deriving DecidableEq, Repr

/-- One PMU block (R263). -/
structure PmuCfg where
  /-- STN (R263). -/
  stn : List Byte := []
  /-- IDCODE (R263). -/
  idcode : BitVec 16 := 0
  /-- FORMAT (R267). -/
  format : BitVec 16 := 0
  /-- phasors (R263). -/
  phasors : List PmuPhasor := []
  /-- frequency source channel (R263). -/
  freq : Nat := 0
  /-- ANALOG values, 16 maximum (R263). -/
  analogs : List PmuAnalog := []
  /-- DIGITAL words: points, 8 maximum (R263). -/
  digitals : List Nat := []
  deriving DecidableEq, Repr

/-- The destination of a stream (R263, R268). The spec gives no place for the MAC addresses: DESIGN CHOICE here (log 30). -/
structure StreamNet where
  /-- IPv6, else IPv4 (R263). -/
  v6 : Bool := false
  /-- destination address (R263). -/
  dstIp : BitVec 128 := 0
  /-- source address (R263). -/
  srcIp : BitVec 128 := 0
  /-- destination MAC address (R263). -/
  dstMac : Mac := 0
  /-- source MAC address (R263). -/
  srcMac : Mac := 0
  /-- UDP destination port (R263). -/
  dstPort : BitVec 16 := 4713
  /-- UDP source port; no default given: DESIGN CHOICE 4713 (log 4) (R263). -/
  srcPort : BitVec 16 := 4713
  /-- command UDP port (R268). -/
  cmdPort : BitVec 16 := 4712
  /-- DSCP (R263). -/
  dscp : BitVec 6 := 0
  /-- VLAN tag control word (R263). -/
  vlan : Option (BitVec 16) := none
  /-- output queue 0x08 + queue (R263). -/
  queue : Fin 4 := 0
  /-- fabric class; no default given: DESIGN CHOICE 7 (log 4) (R263). -/
  cls : Fin 8 := 7
  deriving DecidableEq, Repr

/-- PE_STAGE_STREAMS: one stream (R263–R268). -/
structure StreamCfg where
  /-- the stream is used; false removes it (R272). -/
  en : Bool := true
  /-- IDCODE (R263). -/
  idcode : BitVec 16 := 0
  /-- Fs (R263). -/
  fs : Nat := 50
  /-- 1–32 PMU blocks (R263). -/
  pmus : List PmuCfg := []
  /-- destination (R263). -/
  net : StreamNet := {}
  /-- Lmax in ms, 10–1,000; none: the default (R259). -/
  lmaxMs : Option Nat := none
  /-- TIME_BASE, 1–16,777,215 (R265). -/
  timeBase : Nat := 1000000
  /-- header text (R268). -/
  header : List Byte := []
  /-- initial transmission state; no default given: DESIGN CHOICE on (log 4) (R268). -/
  tx : Bool := true
  deriving DecidableEq, Repr

/-- Where a command frame came from, so that SU can answer it (R268). -/
structure C37Sender where
  /-- IPv6 (R268). -/
  v6 : Bool := false
  /-- source address (R268). -/
  ip : BitVec 128 := 0
  /-- source MAC address (R268). -/
  mac : Mac := 0
  /-- source UDP port (R268). -/
  port : BitVec 16 := 0
  deriving DecidableEq, Repr

/-- AR_WSLk_STATUS.STATE (R305). -/
inductive WslState where
  | down
  | aligning
  | locked
  deriving DecidableEq, Repr

/-- AR_RECr_STATUS.STATE (R304). -/
inductive RecState where
  | disabled
  | armed
  | recording
  | full
  | stopped
  deriving DecidableEq, Repr

/-- AR_STAGE_WSL: one link (R273–R276, R307). -/
structure WslCfg where
  /-- link enabled (R307). -/
  en : Bool := false
  /-- K of its convert clock (R274). -/
  k : Nat := 1
  /-- CNV_DELAY in tu (R276). -/
  delay : Int := 0
  /-- LAT_MAX in periods, 1–200 (R276). -/
  latMax : Nat := 32
  /-- owner (R307). -/
  owner : Tag := 0
  deriving DecidableEq, Repr

/-- AR_STAGE_EDGES: one FAST_EDGE input (R279–R282). -/
structure EdgeCfg where
  /-- rising edges are recorded; no default given: DESIGN CHOICE (log 4) (R279). -/
  rising : Bool := true
  /-- falling edges are recorded (R279). -/
  falling : Bool := false
  /-- L_board in tu (R280). -/
  board : Int := 0
  /-- point its level is written to (R282). -/
  point : Option Nat := none
  /-- owner (R307). -/
  owner : Tag := 0
  deriving DecidableEq, Repr

/-- Comparator modes (R283). -/
inductive CompMode where
  | levelHi
  | levelLo
  | abs
  | delta
  deriving DecidableEq, Repr

/-- An analogue source: a WSL channel 0–23 or an FR lane (R283, R286). -/
inductive AnSrc where
  | wsl (ch : Fin 24)
  | lane (l : Nat)
  deriving DecidableEq, Repr

/-- AR_STAGE_COMPARATORS: one comparator (R283). -/
structure CompCfg where
  /-- the comparator is used; false removes it (R307). -/
  en : Bool := true
  /-- source (R283). -/
  src : AnSrc := .wsl 0
  /-- mode (R283). -/
  mode : CompMode := .levelHi
  /-- h_on, binary32 (R283). -/
  hOn : BitVec 32 := 0
  /-- h_off, binary32 (R283). -/
  hOff : BitVec 32 := 0
  /-- lag, 1–16 (R283). -/
  lag : Nat := 1
  deriving DecidableEq, Repr

/-- EDGE of a pattern term (R288). -/
inductive EdgeTerm where
  | level
  | rising
  | falling
  | either
  deriving DecidableEq, Repr

/-- One binary channel of a recorder with its term (R287, R288). -/
structure BinCh where
  /-- source code (R287). -/
  src : BitVec 32 := 0
  /-- MASK (R288). -/
  mask : Bool := false
  /-- VALUE (R288). -/
  value : Bool := false
  /-- EDGE (R288). -/
  edge : EdgeTerm := .level
  deriving DecidableEq, Repr

/-- Hold-off (R291). -/
inductive HoldOff where
  | none
  | time (h : Nat)
  | count (n : Nat)
  deriving DecidableEq, Repr

/-- AR_STAGE_RECORDERS: one recorder; hold-off time and EVAL_DELAY in µs (R285–R297). -/
structure RecCfg where
  /-- the recorder is used; false removes it (R307). -/
  en : Bool := true
  /-- partition in MiB, 1–4,096 (R285). -/
  mib : Nat := 1
  /-- analogue channels, 64 maximum (R286). -/
  analog : List AnSrc := []
  /-- binary channels (R286). -/
  bins : List BinCh := []
  /-- COMBINE = ALL, else ANY (R288). -/
  all : Bool := false
  /-- EVAL_DELAY in µs, 1–10,000 (R290). -/
  evalUs : Nat := 100
  /-- hold-off (R291). -/
  holdOff : HoldOff := .none
  /-- PRE (R294). -/
  pre : Nat := 0
  /-- POST (R294). -/
  post : Nat := 1
  /-- MAX_ROWS; no default given: DESIGN CHOICE the largest (log 4) (R295). -/
  maxRows : Nat := 4294967295
  /-- FULL_ROWS (R296). -/
  fullRows : Nat := 0
  /-- STEP_ROWS (R296). -/
  stepRows : Nat := 1
  /-- Z_MAX (R296). -/
  zMax : Nat := 1
  /-- full policy STOP, else OVERWRITE; no default given: DESIGN CHOICE STOP (log 4) (R297). -/
  stop : Bool := true
  deriving DecidableEq, Repr

/-- A wideband frame as it arrives (R275). -/
structure WslFrame where
  /-- characters 1–8, behind the K28.5: SEQ, the three channels, the CRC-8 (R275). -/
  chars : Vector (BitVec 8) 8 := .replicate 8 0
  deriving DecidableEq, Repr

/-- Point types (R390). -/
inductive PtType where
  | undefined
  | boolean
  | dbpos
  | int32
  | int32u
  | int64
  | float32
  | float64
  | complex
  | timestamp
  deriving DecidableEq, Repr

/-- One point record (R389). -/
structure PointRec where
  /-- VALUE (R389). -/
  value : BitVec 64 := 0
  /-- LT (R389). -/
  lt : LT := 0
  /-- QUALITY (R392). -/
  quality : Quality := 0
  /-- FLAGS (R393). -/
  flags : BitVec 16 := 0
  /-- OWNER; 0xFF undefined (R389). -/
  owner : Tag := 0xFF
  /-- TYPE (R390). -/
  type : PtType := .undefined
  /-- SEQ (R394). -/
  seq : BitVec 32 := 0
  /-- the guard word has an uncorrectable error (R405). -/
  bad : Bool := false
  deriving DecidableEq, Repr

/-- One force-table entry in MRAM (R400). -/
structure Force where
  /-- value, normalised (R400). -/
  value : BitVec 64 := 0
  /-- quality (R400). -/
  quality : Quality := 0
  /-- tag of the setter (R400). -/
  setter : Tag := 0
  /-- LT at which it became visible (R400). -/
  lt : LT := 0
  /-- type recorded with the force (R403). -/
  type : PtType := .undefined
  /-- ORPHAN (R401). -/
  orphan : Bool := false
  deriving DecidableEq, Repr

/-- The one writer of a point (R395). -/
inductive PtWriter where
  | none
  | task (o : Nat) (t : Nat) (slot : Nat)
  | sv (sub : Nat) (ch : Nat)
  | goose (sub : Nat) (member : Nat)
  | lane (n : Nat)
  | chan (n : Nat)
  | pset (n : Nat)
  | edge (n : Nat)
  | cab (seg : Nat) (node : Nat)
  | host
  deriving DecidableEq, Repr

/-- PS_STAGE_POINTS: one point definition (R395, R399). -/
structure PointDef where
  /-- TYPE; undefined removes the point (R390). -/
  type : PtType := .undefined
  /-- the writer (R395). -/
  writer : PtWriter := .none
  /-- initial value (R403). -/
  init : BitVec 64 := 0
  /-- STALE_AGE in ms, 0 none (R399). -/
  staleAge : Nat := 0
  deriving DecidableEq, Repr

/-- PS_STAGE_POINTS: one publication entry (R396). -/
structure PubCfg where
  /-- first point index (R396). -/
  first : Nat := 0
  /-- count, 1–1,048,576 (R396). -/
  count : Nat := 1
  /-- reader mask: bit n − 1 for instance n (R396). -/
  readers : BitVec 64 := 0
  /-- owner that publishes (R396). -/
  owner : Tag := 0
  deriving DecidableEq, Repr

/-- One point write of a batch (R398). -/
structure PtWrite where
  /-- point index (R389). -/
  index : Nat := 0
  /-- value (R389). -/
  value : BitVec 64 := 0
  /-- quality (R392). -/
  quality : Quality := 0
  /-- LT of the value (R389). -/
  lt : LT := 0
  /-- who writes (R395). -/
  writer : PtWriter := .host
  deriving DecidableEq, Repr

/-- Batch sources (R398). -/
inductive BatchSrc where
  | engine (n : Nat)
  | group (n : Nat)
  | goose
  | cab (n : Nat)
  | fr
  | pe
  | ar
  | su
  deriving DecidableEq, Repr

/-- One task entry of a code image (R351). -/
structure TaskEntry where
  /-- TASK (R351). -/
  task : Nat := 0
  /-- ENTRY (R351). -/
  entry : Nat := 0
  /-- V62_INIT (R351). -/
  v62 : BitVec 32 := 0
  /-- import table: point indices, N_IMP of them (R330). -/
  imports : List Nat := []
  /-- export table: point indices, N_EXP of them (R330). -/
  exports : List Nat := []
  /-- RX_COUNT (R351). -/
  rxCount : Nat := 0
  /-- RX_SIZE (R351). -/
  rxSize : Nat := 0
  /-- RX_ADDR (R351). -/
  rxAddr : Nat := 0
  /-- WCET (R351). -/
  wcet : Nat := 0
  deriving DecidableEq, Repr

/-- One engine entry of a code image, with what its offsets lead to (R350). -/
structure EngineEntry where
  /-- ENGINE (R350). -/
  engine : Fin 48 := 0
  /-- CODE_BASE (R350). -/
  codeBase : Nat := 0
  /-- code words, CODE_LEN of them (R350). -/
  code : List (BitVec 64) := []
  /-- DATA_BASE (R350). -/
  dataBase : Nat := 0
  /-- initial instance data, DATA_LEN bytes (R350). -/
  data : List Byte := []
  /-- task entries, N_TASK of them (R351). -/
  tasks : List TaskEntry := []
  deriving DecidableEq, Repr

/-- A code image as SU reads it (R349). -/
structure CodeImage where
  /-- OWNER (R349). -/
  owner : Tag := 0
  /-- engine entries (R350). -/
  engines : List EngineEntry := []
  deriving DecidableEq, Repr

/-- One dispatch entry of a cluster (R341). -/
structure RxEntry where
  /-- the entry is in use (R341). -/
  valid : Bool := false
  /-- inbound queue 0x21 + 2k, else 0x20 + 2k (R341). -/
  odd : Bool := false
  /-- EtherType (R341). -/
  etype : BitVec 16 := 0
  /-- destination address, where qualified (R341). -/
  dst : Option Mac := none
  /-- engine of the cluster (R341). -/
  engine : Fin 8 := 0
  /-- task number (R341). -/
  task : Nat := 0
  deriving DecidableEq, Repr

/-- One window of an engine (R359). -/
structure Window where
  /-- owner (R359). -/
  owner : Tag := 0
  /-- first base tick (R359). -/
  start : Nat := 0
  /-- length in base ticks (R359). -/
  len : Nat := 1
  deriving DecidableEq, Repr

/-- Kinds of task (R362). -/
inductive TaskKind where
  | periodic (p : Nat) (phase : Nat)
  | sample (g : Nat) (m : Nat) (k0 : Nat)
  | timed (u : Nat)
  deriving DecidableEq, Repr

/-- FAULT_ACTION (R362, R371). -/
inductive FaultAction where
  | continue_
  | stopTask
  | stopOwner
  deriving DecidableEq, Repr

/-- FB_STAGE_TASKS: the settings of one task; period and phase in µs (R362). -/
structure TaskCfg where
  /-- KIND with P and phase, group, divisor and first count, or unit; P has no default: DESIGN CHOICE 1 ms, the value of no task that runs (log 4) (R362). -/
  kind : TaskKind := .periodic 1000 0
  /-- PRIO (R362). -/
  prio : Nat := 0
  /-- FAULT_LIMIT (R362). -/
  faultLimit : Nat := 3
  /-- FAULT_ACTION (R362). -/
  action : FaultAction := .continue_
  /-- START_GATE: an alignment group (R362). -/
  gate : Option Nat := none
  /-- DIAG where staged; its default is 1 for platform tasks and 0 for instance tasks (R362). -/
  diag : Option Bool := none
  deriving DecidableEq, Repr

/-- FB_STAGE_TASKS: initial state and STOP policy of one owner (R374, R376). -/
structure OwnerCfg where
  /-- initial state RUN, else STOP (R376). -/
  initRun : Bool := true
  /-- STOP policy INVALIDATE, else KEEP (R374). -/
  invalidate : Bool := true
  deriving DecidableEq, Repr

/-- One retained range, relative to the region start (R379). -/
structure RetainRange where
  /-- old offset (R379). -/
  oldOfs : Nat := 0
  /-- new offset (R379). -/
  newOfs : Nat := 0
  /-- length (R379). -/
  len : Nat := 0
  deriving DecidableEq, Repr

/-- Where an instruction's guard finding lies (R346, R572). -/
inductive TahrRegion where
  | code
  | instMem
  | pointCache
  deriving DecidableEq, Repr

/-- What the guard code finds in the words an instruction reads (R346, R348). -/
inductive GuardFinding where
  | clean
  | corrected (r : TahrRegion)
  | uncorrectable (r : TahrRegion) (h : GuardHit)
  deriving DecidableEq, Repr

/-- The engine that executes an instruction and what the guard code finds in the words it reads (R308, R346). -/
structure TahrOp where
  /-- engine (R308). -/
  e : Fin 48 := 0
  /-- finding of the guard code (R346). -/
  finding : GuardFinding := .clean
  deriving DecidableEq, Repr

/-- FB_RUN_CTRL byte 1, and FB_STEP (R375, R388). -/
inductive RunCmd where
  | runWarm
  | runCold
  | stop
  | hold
  | step (task : Nat) (c : Nat)
  | limitStop
  deriving DecidableEq, Repr

/-- States of the Fail-over Unit (R408). -/
inductive FoRole where
  | start
  | active
  | standby
  | relinquished
  deriving DecidableEq, Repr

/-- FO_STATUS.PARTNER (R439). -/
inductive Partner where
  | unknown
  | present
  | lost
  deriving DecidableEq, Repr

/-- FO_STAGE_PAIR (R441). -/
structure PairCfg where
  /-- PRIO; no default given: DESIGN CHOICE 1 (log 4) (R410). -/
  prio : BitVec 8 := 1
  /-- CONFIG_TAG; no default given: DESIGN CHOICE 0 (log 4) (R409). -/
  configTag : BitVec 64 := 0
  /-- discovery time in ms, 100–10,000 (R423). -/
  discoverMs : Nat := 1000
  /-- WIT in µs, 0–100,000 (R433). -/
  witUs : Nat := 3000
  /-- T_HANDOVER in µs, 0–1,000 (R434). -/
  handoverUs : Nat := 200
  /-- BRX_ASYM in tu; no default given: DESIGN CHOICE 0 (log 4) (R421). -/
  asym : Int := 0
  /-- trigger GUARD enabled (R430). -/
  guardEn : Bool := true
  /-- trigger OVERRUN enabled (R430). -/
  overrunEn : Bool := true
  /-- trigger TIME_SV enabled (R430). -/
  timeSvEn : Bool := true
  /-- N_guard, 1–255 (R430). -/
  nGuard : Nat := 1
  /-- T_diag in ms, 10–10,000 (R430). -/
  tDiagMs : Nat := 100
  /-- watchdog period in ms, 10–1,000 (R430). -/
  wdogMs : Nat := 100
  deriving DecidableEq, Repr

/-- One replicated range, in bytes from the start of the owner's data region's engine memory (R425). -/
structure ReplRange where
  /-- engine (R425). -/
  engine : Fin 48 := 0
  /-- byte offset in instance memory, multiple of 32 (R425). -/
  ofs : Nat := 0
  /-- length, multiple of 32 (R425). -/
  len : Nat := 0
  deriving DecidableEq, Repr

/-- The header of a Brixig message, and for a HEARTBEAT its payload (R418, R420). -/
structure BrxMsg where
  /-- FLAGS.ACTIVE (R418). -/
  active : Bool := false
  /-- FLAGS.ELIGIBLE (R418). -/
  eligible : Bool := false
  /-- FLAGS.START (R418). -/
  start : Bool := false
  /-- FLAGS.GATE_OPEN (R418). -/
  gateOpen : Bool := false
  /-- FLAGS.EPOCH_RST (R418). -/
  epochRst : Bool := false
  /-- SEQ (R418). -/
  seq : BitVec 32 := 0
  /-- TX_LT (R418). -/
  txLt : LT := 0
  /-- CLAIM (R418). -/
  claim : BitVec 32 := 0
  /-- ECHO_TX_LT (R420). -/
  echoTx : LT := 0
  /-- ECHO_RX_LT (R420). -/
  echoRx : LT := 0
  /-- CONFIG_TAG (R420). -/
  configTag : BitVec 64 := 0
  /-- DIAG (R420). -/
  diag : BitVec 4 := 0
  deriving DecidableEq, Repr

/-- A Brixig message on the link: its guard words of 36 symbols, the header first (R417, R418). -/
abbrev BrxWords := List (Vector Byte 36)

/-- Reasons of slotted mode (R143). -/
inductive CabReason where
  | none
  | startup
  | test
  | recovery
  deriving DecidableEq, Repr

/-- FO_CABs_STNk.STATE (R152). -/
inductive StnState where
  | unassigned
  | present
  | absent
  | resyncPending
  deriving DecidableEq, Repr

/-- One point mapped to output or input bytes of a station (R144). -/
structure StnMap where
  /-- point index (R144). -/
  point : Nat := 0
  /-- first byte (R144). -/
  ofs : Nat := 0
  /-- bytes, 1–8; the spec gives no layout of the mapping: DESIGN CHOICE the low bytes of the value in network order (log 24) (R144). -/
  len : Nat := 1
  deriving DecidableEq, Repr

/-- One staged station (R153). -/
structure StnCfg where
  /-- PLCA node 2–31 (R133). -/
  node : Nat := 2
  /-- VENDOR (R144). -/
  vendor : BitVec 32 := 0
  /-- MODEL (R144). -/
  model : BitVec 32 := 0
  /-- assigned ILEN, 0–256 (R143). -/
  ilen : Nat := 0
  /-- assigned OLEN, 0–64 (R143). -/
  olen : Nat := 0
  /-- SAFE_CYCLES, 1–15; no default given: DESIGN CHOICE 3 (log 4) (R143). -/
  safeCycles : Nat := 3
  /-- input mapping (R144). -/
  inputs : List StnMap := []
  /-- output mapping (R144). -/
  outputs : List StnMap := []
  deriving DecidableEq, Repr

/-- Settings of one segment (R153). -/
structure SegCfg where
  /-- segment enabled (R153). -/
  en : Bool := false
  /-- EtherType (R134). -/
  etype : BitVec 16 := 0x88B6
  /-- group address A (R143). -/
  grpA : Mac := 0x03504C440000
  /-- group address B (R143). -/
  grpB : Mac := 0x03504C440001
  /-- k, 1–16 (R140). -/
  k : Nat := 4
  /-- N, 1–15 (R147). -/
  n : Nat := 3
  /-- J in µs, 70–500 (R138). -/
  joinUs : Nat := 100
  /-- claim acceptance window in ms, 10–1,000 (R145). -/
  acceptMs : Nat := 100
  /-- source address of the controller; the spec names no place that stages it: DESIGN CHOICE here (log 24) (R143). -/
  mac : Mac := 0
  /-- station table (R153). -/
  stations : List StnCfg := []
  deriving DecidableEq, Repr

/-- FO_STAGE_CABINET (R153). -/
structure CabCfg where
  /-- cabinet cycle period in µs, 250–10,000 in steps of 10 (R136). -/
  periodUs : Nat := 1000
  /-- segments C0 and C1 (R153). -/
  seg : Vector SegCfg 2 := .replicate 2 {}
  deriving DecidableEq, Repr

/-- Message types of the station protocol (R143). -/
inductive CabType where
  | image
  | report
  | discover
  | announce
  | assign
  | reserved
  deriving DecidableEq, Repr

/-- One entry of an IMAGE (R143). -/
structure CabEntry where
  /-- NODE (R143). -/
  node : Nat := 0
  /-- OFLAGS.RESYNC (R143). -/
  resync : Bool := false
  /-- OFLAGS.SAFE (R143). -/
  safe : Bool := false
  /-- output data, OLEN bytes (R143). -/
  data : List Byte := []
  deriving DecidableEq, Repr

/-- The payload of an ASSIGN (R143). -/
structure AssignMsg where
  /-- NODE (R143). -/
  node : Nat := 0
  /-- SAFE_CYCLES (R143). -/
  safeCycles : Nat := 0
  /-- SLOT_K (R143). -/
  slotK : Nat := 0
  /-- PERIOD in ns (R143). -/
  periodNs : Nat := 0
  /-- OFFSET in ns (R143). -/
  offsetNs : Nat := 0
  /-- ILEN (R143). -/
  ilen : Nat := 0
  /-- OLEN (R143). -/
  olen : Nat := 0
  deriving DecidableEq, Repr

/-- A station-protocol frame (R143). -/
structure CabFrame where
  /-- message type (R143). -/
  type : CabType := .image
  /-- MODE bit 0 (R143). -/
  seg : Fin 2 := 0
  /-- MODE bits 2:1 (R143). -/
  slotted : Bool := false
  /-- MODE bits 4:3 (R143). -/
  reason : CabReason := .none
  /-- NODE (R143). -/
  node : Nat := 0
  /-- CYCLE (R143). -/
  cycle : BitVec 32 := 0
  /-- CLAIM (R143). -/
  claim : BitVec 32 := 0
  /-- CYCLE_LT (R143). -/
  cycleLt : LT := 0
  /-- source address (R143). -/
  src : Mac := 0
  /-- destination address (R143). -/
  dst : Mac := 0
  /-- EtherType (R134). -/
  etype : BitVec 16 := 0x88B6
  /-- IMAGE: entries (R143). -/
  entries : List CabEntry := []
  /-- REPORT: STATUS bit 0 (R143). -/
  safeState : Bool := false
  /-- REPORT: STATUS bit 1 (R143). -/
  outFault : Bool := false
  /-- REPORT: STATUS bit 2 (R143). -/
  inFault : Bool := false
  /-- REPORT: ECHO_CYCLE (R143). -/
  echo : BitVec 32 := 0
  /-- REPORT: INPUT_AGE in ns (R143). -/
  inputAge : BitVec 32 := 0
  /-- REPORT: input data, ILEN bytes (R143). -/
  data : List Byte := []
  /-- ANNOUNCE: VENDOR (R143). -/
  vendor : BitVec 32 := 0
  /-- ANNOUNCE: MODEL (R143). -/
  model : BitVec 32 := 0
  /-- ANNOUNCE: SERIAL (R143). -/
  serial : BitVec 64 := 0
  /-- ANNOUNCE: ILEN_MAX (R143). -/
  ilenMax : Nat := 0
  /-- ANNOUNCE: OLEN_MAX (R143). -/
  olenMax : Nat := 0
  /-- ANNOUNCE: PROTO_VER (R143). -/
  protoVer : BitVec 16 := 0
  /-- ASSIGN: payload (R143). -/
  assign : Option AssignMsg := none
  deriving DecidableEq, Repr

/-- Seal states, coded as MI_STATUS.SEAL_STATE (R449, R475). -/
inductive SealState where
  | blank
  | unsealed
  | sealed
  | fault
  deriving DecidableEq, Repr

/-- The time record that TB places on the tap link once per TAI second (R446). -/
structure TimeRec where
  /-- LT of the TCU3 firing that opened the second (R446). -/
  lt : LT := 0
  /-- TAI seconds (R446). -/
  taiS : BitVec 48 := 0
  /-- currentUtcOffset (R446). -/
  utcOffset : BitVec 16 := 0
  /-- TAI_VALID (R446). -/
  taiValid : Bool := false
  /-- servo state (R446). -/
  servo : Servo := .freerun
  /-- LT_UNCERTAIN (R446). -/
  ltUncertain : Bool := false
  /-- TB_TIME_ERR_BOUND (R446). -/
  errBound : BitVec 32 := 0
  deriving DecidableEq, Repr

/-- Key types (R483). -/
inductive KeyType where
  | empty
  | aes128
  | aes256
  | hmac
  | kdk
  | p256Priv
  | p384Priv
  | p256Pub
  | p384Pub
  deriving DecidableEq, Repr

/-- States of a key slot (R507). -/
inductive SlotState where
  | empty
  | valid
  | revoked
  | corrupt
  deriving DecidableEq, Repr

/-- What a command that creates a key asks for (R482, R486). -/
structure KvNew where
  /-- slot number (R482). -/
  slot : Nat := 0
  /-- TYPE; none a reserved code (R483). -/
  type : Option KeyType := none
  /-- PARENT, 0x400 the root (R482). -/
  parent : BitVec 11 := 0x400
  /-- DEST requested (R489). -/
  dest : BitVec 32 := 0
  /-- EXPORTABLE (R482). -/
  exportable : Bool := false
  /-- KEY_ID (R482). -/
  keyId : BitVec 32 := 0
  /-- REPLACE (R493). -/
  replace : Bool := false
  /-- COMPAT (R492). -/
  compat : Bool := false
  /-- USE, with COMPAT (R492). -/
  use : BitVec 4 := 0
  /-- LEN of a key whose type allows several (R483). -/
  len : Nat := 0
  deriving DecidableEq, Repr

/-- Label and context of a derivation (R487). -/
structure KvKdf where
  /-- label, 0–64 bytes (R487). -/
  label : List Byte := []
  /-- context, 0–64 bytes (R487). -/
  context : List Byte := []
  deriving DecidableEq, Repr

/-- KV_GCM (R500). -/
structure KvGcm where
  /-- key slot (R500). -/
  slot : Nat := 0
  /-- seal; false: open (R500). -/
  seals : Bool := true
  /-- IV (R500). -/
  iv : BitVec 96 := 0
  /-- additional data (R500). -/
  aad : List Byte := []
  /-- text: plain to seal, cipher to open (R500). -/
  text : List Byte := []
  /-- tag of an open (R500). -/
  tag : BitVec 128 := 0
  deriving DecidableEq, Repr

/-- A wrapped-key blob as its fields (R488). -/
structure KvBlob where
  /-- VERSION (R488). -/
  version : Byte := 1
  /-- TYPE (R488). -/
  type : Byte := 0
  /-- LEN (R488). -/
  len : BitVec 16 := 0
  /-- DEST_LIMIT (R488). -/
  destLimit : BitVec 32 := 0
  /-- KEY_ID (R488). -/
  keyId : BitVec 32 := 0
  /-- 20 bytes of 0 (R488). -/
  rsv : BitVec 160 := 0
  /-- IV (R488). -/
  iv : BitVec 96 := 0
  /-- ciphertext (R488). -/
  text : List Byte := []
  /-- tag (R488). -/
  tag : BitVec 128 := 0
  deriving DecidableEq, Repr

/-- What a request in the shared engines computes (R498–R500). -/
inductive KvOp where
  | gcm (q : KvGcm)
  | hmac (slot : Nat) (sha384 : Bool) (verify : Option (List Byte)) (msg : List Byte)
  | hash (sha384 : Bool) (msg : List Byte)
  | sign (slot : Nat) (hashed : Bool) (data : List Byte)
  | verify (slot : Nat) (hashed : Bool) (data : List Byte) (sig : List Byte)
  | pub (slot : Nat)
  | agree (k : KvNew) (peer : List Byte) (kdf : KvKdf)
  | generate (k : KvNew) (material : List Byte)
  deriving DecidableEq, Repr

/-- Run states of an owner (R373, R386). -/
inductive RunState where
  | stop
  | run
  | hold
  | step
  deriving DecidableEq, Repr

/-- FB_OWNo_STATE.REASON (R386). -/
inductive StopReason where
  | startup
  | command
  | faultLimit
  | instanceReset
  deriving DecidableEq, Repr

/-- States of an instance (R514). -/
inductive InstState where
  | absent
  | active
  | resetting
  | frozen
  deriving DecidableEq, Repr

/-- The shared crypto engines (R498). -/
inductive KvEngine where
  | gcm (k : Fin 4)
  | hmac
  | ecc
  deriving DecidableEq, Repr

/-- Resources that a share gives by index range (R518). -/
inductive ItemKind where
  | svSub
  | goSub
  | goPub
  | lane
  | trk
  | fir
  | proto
  | chan
  | set_
  | stream
  | comp
  | rec_
  | point
  | keySlot
  deriving DecidableEq, Repr

/-- IM_STAGE_SHARES: the shares of one instance (R518). -/
structure SharesCfg where
  /-- false: the commit removes the instance (R514). -/
  present : Bool := true
  /-- PASID (R511). -/
  pasid : BitVec 20 := 0
  /-- apertures: base and length, multiples of 4 KiB, 8 maximum (R511). -/
  apertures : List (Nat × Nat) := []
  /-- 1 MiB DRAM granules (R518). -/
  dram : List Nat := []
  /-- bytes of the staging area (R79). -/
  staging : Nat := 0
  /-- Tahr engines with code limit (instructions) and data limit (bytes) (R518). -/
  engines : List (Nat × Nat × Nat) := []
  /-- QM queues 0x50–0xFF, exclusive (R518). -/
  queues : List Nat := []
  /-- SHARE words in shared queues (R185). -/
  qShare : Tab Nat Nat := []
  /-- host queues, 16 maximum (R518). -/
  hostQueues : Nat := 0
  /-- fabric destinations and counter reads (R518). -/
  ports : BitVec 16 := 0
  /-- first index and count of each kind of item (R518). -/
  ranges : List (ItemKind × Nat × Nat) := []
  /-- publication entries (R396). -/
  pubEntries : Nat := 0
  /-- force entries (R400). -/
  forceEntries : Nat := 0
  /-- crypto engine share slots (R498). -/
  kvSlots : List (KvEngine × Nat) := []
  /-- compare units 20–31 (R44). -/
  tcus : List Nat := []
  /-- DMA slots 8–63 (R519). -/
  dmaSlots : List Nat := []
  /-- ring pairs, 0–2 (R518). -/
  rings : Nat := 0
  /-- read access to metering points 0–7 (R471). -/
  meters : BitVec 8 := 0
  deriving DecidableEq, Repr

/-- IM_STAGE_EVENTS: the routing of one source (R534). -/
structure EvRoute where
  /-- MODE (R534). -/
  mode : Bool := false
  /-- MVEC (R534). -/
  mvec : BitVec 6 := 0
  /-- IVEC (R534). -/
  ivec : BitVec 4 := 0
  deriving DecidableEq, Repr

/-- IM_HOSTQ_SET: one host queue (R517). -/
structure HostqCfg where
  /-- QM queue (R517). -/
  qnum : Nat := 0x50
  /-- direction: fabric to host (R517). -/
  toHost : Bool := false
  /-- ring base (R517). -/
  base : BitVec 64 := 0
  /-- s: log2 of the entries (R517). -/
  size : Nat := 4
  /-- vector (R517). -/
  vector : BitVec 4 := 0
  deriving DecidableEq, Repr

/-- A verified saved-state blob waiting for the boundary (R527–R530). -/
structure SavedState where
  /-- instance (R528). -/
  inst : Nat := 0
  /-- type 0x0001: engine, region content (R529). -/
  regions : List (Nat × List Byte) := []
  /-- type 0x0002 (R529). -/
  tasks : List (Nat × Nat × BitVec 8 × Bool × BitVec 64) := []
  /-- type 0x0003 (R529). -/
  points : List (Nat × PointRec) := []
  /-- type 0x0004 (R529). -/
  forces : List (Nat × Force) := []
  /-- type 0x0005 (R529). -/
  pubs : List (Nat × BitVec 32 × BitVec 32) := []
  /-- type 0x0006 (R529). -/
  units : List (Nat × Bool × LT × BitVec 63) := []
  /-- type 0x0007: run state before the freeze (R529). -/
  run : RunState := .stop
  /-- type 0x0007: initial state (R529). -/
  initRun : Bool := true
  /-- type 0x0007: STOP policy (R529). -/
  invalidate : Bool := true
  /-- FREEZE_LT (R528). -/
  freezeLt : LT := 0
  /-- FREEZE_TAI_S (R528). -/
  freezeTai : BitVec 48 := 0
  /-- CONFIG_HASH (R528). -/
  configHash : BitVec 256 := 0
  deriving DecidableEq, Repr

/-- PA_PDn_STATE.STATE (R561). -/
inductive PdSt where
  | off
  | waking
  | on
  | locked
  deriving DecidableEq, Repr

/-- Domain modes (R536). -/
inductive PdMode where
  | on
  | auto
  | locked
  deriving DecidableEq, Repr

/-- Whether the module runs, sleeps or is held up by VBAT alone (R549). -/
inductive PowerMode where
  | running
  | asleep
  | standby
  deriving DecidableEq, Repr

/-- Tamper input modes (R553). -/
inductive TamperMode where
  | off
  | sampled
  | static_
  deriving DecidableEq, Repr

/-- The data memory an access addresses, PD2–PD8 (R538–R541); R541 tells reads from writes and from commands. -/
inductive PdNeed where
  | read
  | write
  | command
  deriving DecidableEq, Repr

/-- PA_STAGE_DOMAINS: one domain (R536, R538). -/
structure DomainCfg where
  /-- mode (R536). -/
  mode : PdMode := .on
  /-- idle time in ms (R538). -/
  idleMs : Nat := 100
  deriving DecidableEq, Repr

/-- PA_STAGE_DUIKER (R543, R553). -/
structure DuikerCfg where
  /-- tamper modes; no default given: DESIGN CHOICE off (log 4) (R553). -/
  tamper : Vector TamperMode 4 := .replicate 4 .off
  /-- WAKE_N internal pull-up enabled; no default given: DESIGN CHOICE off (log 4) (R543). -/
  pullup : Bool := false
  deriving DecidableEq, Repr

/-- Causes of a brown-out by code (R545). -/
inductive SupplyCause where
  | vbat
  | currentLimit
  | core
  | sram
  | serdes
  | io
  | pwrOk
  deriving DecidableEq, Repr

/-- What a guard word that a scrubber reads holds: nothing that belongs to an owner, something of an owner, the record of a point, or the force
entry of a point (R405, R571); where the DRAM and MRAM hold these is SU's. -/
inductive WordUse where
  | free
  | owned (o : Tag)
  | point (i : Nat)
  | force (i : Nat)
  deriving DecidableEq, Repr

/-- A guard word as the medium of a scrubbed memory carries it: two beats of 18 byte lanes in the DRAM, 36 symbols side by side elsewhere
(R568). -/
inductive ScrubWord where
  | beats (x : Vector (Vector Byte 18) 2)
  | symbols (w : Vector Byte 36)
  deriving DecidableEq, Repr

/-- What a reader finds in a guard word (R566): no error; an error of a value in one symbol, which is corrected; or an uncorrectable
error. -/
inductive WordFinding where
  | none
  | corrected (symbol : Nat) (error : BitVec 8)
  | uncorrectable (h : GuardHit)
  deriving DecidableEq, Repr

/-- One staged item, with what names it within its opcode (R634). -/
inductive Item where
  | ptp (c : PtpCfg)
  | sources (c : SourcesCfg)
  | portLat (c : PortLatCfg)
  | pins (c : PinCfg)
  | tcuAssign (c : TcuAssign)
  | port (p : Fin 14) (c : PortCfg)
  | filter (p : Fin 14) (e : Nat) (c : AddrEntry)
  | red (pair : Nat) (c : RedCfg)
  | macsec (p : Nat) (c : MacsecCfg)
  | limits (p : Fin 16) (q : Fin 8) (c : LimitsCfg)
  | fdb (i : Nat) (c : FdbStatic)
  | vlan (vid : BitVec 12) (c : VlanCfg)
  | swPorts (c : SwPortsCfg)
  | mirror (c : MirrorCfg)
  | queue (q : Nat) (c : QueueCfg)
  | steer (i : Fin 64) (c : SteerEntry)
  | group (g : Fin 16) (c : GroupCfg)
  | lockTimeout (ms : Nat)
  | svSub (n : Nat) (c : SvCfg)
  | goSub (n : Nat) (c : GoSubCfg)
  | goPub (n : Nat) (c : GoPubCfg)
  | code (o : Tag) (c : CodeImage)
  | rxmap (k : Fin 6) (i : Fin 64) (c : RxEntry)
  | frame (ticks : Nat)
  | windows (e : Fin 48) (l : List Window)
  | task (o : Tag) (t : Nat) (c : TaskCfg)
  | ownerCfg (o : Tag) (c : OwnerCfg)
  | retain (o : Tag) (e : Fin 48) (l : List RetainRange)
  | pair (c : PairCfg)
  | repl (o : Tag) (l : List ReplRange)
  | cabinet (c : CabCfg)
  | shares (i : Nat) (c : SharesCfg)
  | route (n : Fin 128) (c : EvRoute)
  | point (n : Nat) (c : PointDef)
  | pub (c : PubCfg)
  | tPsw (us : Nat)
  | lane (l : Nat) (c : LaneCfg)
  | track (g : Nat) (c : TrackCfg)
  | coef (proto : Bool) (n : Nat) (c : CoefTable)
  | chan (n : Nat) (c : ChanCfg)
  | pset (n : Nat) (c : SetCfg)
  | stream (n : Nat) (c : StreamCfg)
  | wsl (k : Fin 8) (c : WslCfg)
  | edge (e : Fin 24) (c : EdgeCfg)
  | comp (n : Nat) (c : CompCfg)
  | recorder (r : Fin 8) (c : RecCfg)
  | domain (n : Fin 9) (c : DomainCfg)
  | duiker (c : DuikerCfg)
  deriving DecidableEq, Repr

/-- Session states (R80). -/
inductive SessState where
  | closed
  | opened
  | checked
  | armed
  deriving DecidableEq, Repr

/-- One failing consistency check (R82, R83, R633). -/
structure CheckFail where
  /-- subsystem (R83). -/
  subsys : Nat := 0
  /-- check code (R83). -/
  code : BitVec 16 := 0
  /-- index of the offending item (R82). -/
  index : Nat := 0
  /-- for 0x0002, the staged opcode whose condition fails (R630). -/
  opcode : BitVec 16 := 0
  deriving DecidableEq, Repr

/-- One entry of a package's section table (R91). -/
structure PkgSection where
  /-- TYPE (R91). -/
  type : BitVec 16 := 0
  /-- OWNER (R91). -/
  owner : Tag := 0
  /-- its reserved bytes, gathered (R91). -/
  rsv : Nat := 0
  /-- VERSION (R91). -/
  version : BitVec 32 := 0
  /-- OFFSET (R91). -/
  offset : Nat := 0
  /-- LENGTH (R91). -/
  length : Nat := 0
  deriving DecidableEq, Repr

/-- A configuration package in SU's DRAM area or a flash slot (R90). -/
structure Package where
  /-- its bytes: header, section table, sections, trailer (R90). -/
  raw : List Byte := []
  /-- what the bytes of each settings, point or shares section say, as staged items in the order of the section table: their encoding is
  Tsuhehan's (log 7); a code section is read from its bytes (R92). -/
  content : List (List Item) := []
  deriving DecidableEq, Repr

/-- What runs for a package (R93). -/
inductive PkgJob where
  | verifying
  | writing
  deriving DecidableEq, Repr

/-- What a command writes to its result buffer: bytes where the spec lays them out, items in their staged form, records of a kind the spec names without a layout. -/
inductive Buf where
  | none
  | bytes (l : List Byte)
  | items (l : List Item)
  | recs (l : List (List Nat))
  deriving DecidableEq, Repr

/-- What a command answers (R69). -/
structure ReplyBody where
  /-- STATUS (R72). -/
  status : Status := .ok
  /-- RESULT0 (R69). -/
  r0 : BitVec 64 := 0
  /-- RESULT1 (R69). -/
  r1 : BitVec 64 := 0
  /-- DETAIL (R69). -/
  detail : BitVec 16 := 0
  /-- SUBSYS where it is not the subsystem of the opcode (R69). -/
  subsys : Option (Fin 16) := none
  /-- result buffer (R67). -/
  buf : Buf := .none
  deriving DecidableEq, Repr

/-- The commands: one constructor for each row of the opcode table, with the operands its rule gives it. -/
inductive Instr where
  /-- COMPARE_FIRE (R39): A general compare unit TCU20–TCU31 reaches its LT target, fires into its assigned destination and, if periodic, advances its target. -/
  | compareFire (n : Fin 12)
  /-- PIN_OUTPUT_FIRE (R39): A pin compare unit TCU8–TCU19 fires and places the rising edge of PPS_OUT or TB_OUT at its target. -/
  | pinOutputFire (k : Fin 12)
  /-- PULSE_END (R44): The staged pulse width of a PPS_OUT or TB_OUT pulse expires and the pin falls. -/
  | pulseEnd (k : Fin 12)
  /-- ANCHOR_ADVANCE (R23): At each TAI second boundary TB moves the LT-to-TAI anchor forward. -/
  | anchorAdvance
  /-- SERVO_UPDATE (R35): A new offset measurement from the selected source updates the servo's increment and its state. -/
  | servoUpdate
  /-- SOURCE_LOST (R35): The selected time source is lost and the loss timeout starts. -/
  | sourceLost
  /-- LOSS_TIMEOUT (R35): The loss timeout expires and the servo enters FREERUN or HOLDOVER, or ACQUIRING on another qualified source. -/
  | lossTimeout
  /-- PTP_MESSAGE_RX (R31): A PTP message reaches SU, which runs the BMCA, the port state machines and the offset measurement. -/
  | ptpMessageRx (p : Fin 14) (m : PtpMsg) (rxLt : LT)
  /-- PTP_MESSAGE_TX (R33): A message interval expires and SU generates a PTP message, with one-step or two-step timestamping. -/
  | ptpMessageTx (p : Fin 14) (t : PtpMsgType)
  /-- CAPTURE_EDGE (R45): A selected edge on a capture input is recorded with its LT in the unit's four-entry FIFO, or lost if the FIFO is full. -/
  | captureEdge (n : Fin 16) (t : LT) (rising : Bool) (pulse : Nat)
  /-- IRIG_FRAME (R49): An IRIG frame has been decoded and is checked against PPS_IN for qualification. -/
  | irigFrame (f : IrigFrame)
  /-- CAPTURE_POP (R47): A read of the lower word of TB_TCCn_LT pops and latches the oldest capture entry. -/
  | capturePop (rq : Nat) (n : Fin 16) (wide : Bool)
  /-- TXTS_POP (R51): A read of TB_TXTS_Pn_W3 pops the port's oldest transmit timestamp entry. -/
  | txtsPop (rq : Nat) (p : Fin 14) (wide : Bool)
  /-- LT_NOW_READ (R22): A read of the lower word of TB_LT_NOW latches the whole of LT for the requester. -/
  | ltNowRead (rq : Nat) (wide : Bool)
  /-- RTC_READ (R562): A read of PA_RTC_LO latches the 48-bit RTC count for the requester. -/
  | rtcRead (rq : Nat) (rtc : BitVec 48) (wide : Bool)
  /-- RS_UPPER_READ (R18): A read of the upper word of an RS register or 64-bit RC counter returns the half that the requester latched. -/
  | rsUpperRead (rq off : Nat)
  /-- COUNTER_READ (R118): A read of an RC counter returns its value and clears it, keeping any same-cycle increment; a host read of any other
  register is this row too (R13–R15). -/
  | counterRead (rq : Nat) (window : Fin 66) (o : Nat) (w : AccessWidth)
  /-- REGISTER_WRITE (R614): A host write to a register that has no row of its own, such as a W1C clear or an RW field, or a write that is ignored. -/
  | registerWrite (window : Fin 66) (o : Nat) (v : BitVec 64) (w : AccessWidth)
  /-- TB_STAGE_PTP (R58): Stages clock type, profile, ports, intervals and thresholds. -/
  | tbStagePtp (c : Cmd) (x : PtpCfg)
  /-- TB_STAGE_SOURCES (R58): Stages source enables, IRIG options, drift bounds and the initial currentUtcOffset. -/
  | tbStageSources (c : Cmd) (x : SourcesCfg)
  /-- TB_STAGE_PORT_LAT (R28): Stages the board corrections, asymmetry and external PHY uncertainty of each port. -/
  | tbStagePortLat (c : Cmd) (l : List PortLatCfg)
  /-- TB_STAGE_PINS (R58): Stages the PPS_OUT, TB_OUT and capture-edge settings. -/
  | tbStagePins (c : Cmd) (x : PinCfg)
  /-- TB_STAGE_TCU_ASSIGN (R58): Stages the destinations and owners of TCU20–TCU31. -/
  | tbStageTcuAssign (c : Cmd) (l : List TcuAssign)
  /-- TB_TCU_ARM (R58): Arms one general compare unit with a target, a period and a mode. -/
  | tbTcuArm (c : Cmd) (n : Fin 32) (target : Option LT) (periodic : Bool) (period : BitVec 64)
  /-- TB_TCU_DISARM (R58): Disarms one general compare unit. -/
  | tbTcuDisarm (c : Cmd) (n : Fin 32)
  /-- TB_READ_TIME (R635): Returns LT, TAI, servo state and error bound taken on one tick. -/
  | tbReadTime (c : Cmd)
  /-- RING_TAIL_WRITE (R63): A host write of TAIL to a manager or instance ring submits commands up to the new index. -/
  | ringTailWrite (ring : RingId) (v : BitVec 16)
  /-- RING_RELEASE_WRITE (R63): A host write of RELEASE releases the replies below the new index. -/
  | ringReleaseWrite (ring : RingId) (v : BitVec 16)
  /-- RING_ENABLE (R62): A write of SU_MRINGk_CTRL.EN enables or disables a manager ring pair and zeroes its indices. -/
  | ringEnable (k : Fin 4) (v : BitVec 32)
  /-- COMMAND_FETCH (R626): SU fetches the next command of a ring in its service order and makes the checks before dispatch. -/
  | commandFetch (ring : RingId) (entry : List Byte) (dmaOk : Bool) (fault : FwFault)
  /-- SU_SESSION_OPEN (R79): Opens the issuer's session. -/
  | suSessionOpen (c : Cmd)
  /-- SU_STAGE_CHECK (R82): Runs every consistency check over the configuration that would be in force after the commit. -/
  | suStageCheck (c : Cmd) (drop : Bool)
  /-- SU_COMMIT (R84): Arms the commit at instant T and distributes the staged items into the shadow banks. -/
  | suCommit (c : Cmd) (t : LT) (flags : BitVec 32)
  /-- SU_SESSION_ABORT (R86): Discards the session and, if it is ARMED before the guard, disarms TCU0. -/
  | suSessionAbort (c : Cmd)
  /-- SU_SESSION_STATUS (R633): Returns the session state, the armed instant and the bytes staged. -/
  | suSessionStatus (c : Cmd)
  /-- SU_CHECK_REPORT (R633): Writes every failing check of the last SU_STAGE_CHECK to the result buffer. -/
  | suCheckReport (c : Cmd)
  /-- SU_PKG_LOAD (R93): Copies a configuration package into SU's area and starts its verification, and with STORE its flash write. -/
  | suPkgLoad (c : Cmd) (extents : List (BitVec 64 × BitVec 64)) (p : Package) (store : Bool)
  /-- SU_PKG_STAGE (R94): Stages the held package into the manager's session. -/
  | suPkgStage (c : Cmd)
  /-- SU_PKG_STATUS (R77): Returns the identifiers of the held package and of the boot package. -/
  | suPkgStatus (c : Cmd)
  /-- SU_RING_CREATE (R633): Creates a ring pair for an instance. -/
  | suRingCreate (c : Cmd) (i : Nat) (r : Fin 2) (cbase rbase : BitVec 64) (size : BitVec 4) (vector : BitVec 4)
  /-- SU_RING_DESTROY (R77): Stops an instance ring pair after its fetched commands have been replied. -/
  | suRingDestroy (c : Cmd) (i : Nat) (r : Fin 2)
  /-- SU_NOP (R77): Returns OK. -/
  | suNop (c : Cmd)
  /-- GET_INFO (R634): Returns the version, stepping and capability bits of a subsystem. -/
  | getInfo (c : Cmd) (n : Fin 16)
  /-- GET_STATUS (R76): Writes a one-cycle snapshot of the subsystem's status registers, or the MI mailbox, to the result buffer. -/
  | getStatus (c : Cmd) (n : Fin 16)
  /-- READ_ACTIVE (R634): Returns one item of the active bank. -/
  | readActive (c : Cmd) (n : Fin 16) (op : BitVec 16) (idx sub : Nat)
  /-- READ_STAGED (R634): Returns one item as staged in the issuer's session, or its active value. -/
  | readStaged (c : Cmd) (n : Fin 16) (op : BitVec 16) (idx sub : Nat)
  /-- COMMIT_PREP_DEADLINE (R85): At T − 100 µs SU checks readiness and disarms TCU0 if any subsystem's shadow bank is not complete. -/
  | commitPrepDeadline (complete : Bool)
  /-- COMMIT_STROBE (R87): TCU0 fires at T and every subsystem switches its active and shadow banks on the same tick. -/
  | commitStrobe
  /-- BANK_RESYNC_END (R87): SU finishes copying the new active banks into the shadow banks. -/
  | bankResyncEnd
  /-- BOOT_SELECTOR_WRITE (R96): After a PERSIST commit SU writes the boot selector, raises the generation minimum and logs the applied record. -/
  | bootSelectorWrite
  /-- PKG_VERIFY_DONE (R93): Verification of a loaded package completes with success or failure. -/
  | pkgVerifyDone
  /-- PKG_FLASH_WRITE_DONE (R93): The flash write of a stored package completes. -/
  | pkgFlashWriteDone
  /-- FRAME_RECEIVE (R108): A whole frame received on a port is classified, filtered and given its action and destinations. -/
  | frameReceive (p : Fin 14) (f : Frame) (rxLt : LT) (tie : Bool)
  /-- PAUSE_TIMER_EXPIRY (R115): The pause timer reaches zero and transmission may resume. -/
  | pauseTimerExpiry (p : Fin 14)
  /-- TRANSMIT_START (R113): At the end of the inter-frame gap PX chooses the next frame by queue priority and starts it. -/
  | transmitStart (p : Fin 16) (guard : Option GuardFind)
  /-- TRANSMIT_END (R167): The last bit of a frame leaves the port and its cells are returned to the queue's account. -/
  | transmitEnd (p : Fin 16) (guard : Option GuardFind)
  /-- LINK_STATE_CHANGE (R98): A port's link goes up or down, or its PHY reports an unsupported mode. -/
  | linkStateChange (p : Fin 14) (pcs fec : Bool) (fault : RsFault) (unsupported : Bool)
  /-- SUPERVISION_TX (R125): Every LifeCheckInterval SU sends the supervision frames of the node and its proxied nodes. -/
  | supervisionTx (k : Fin 2)
  /-- SUPERVISION_RX (R125): A received supervision frame updates SU's node table. -/
  | supervisionRx (k : Fin 2) (node : Mac)
  /-- DDT_FORGET (R123): A duplicate-table entry reaches its forget time and is removed. -/
  | ddtForget (k : Fin 2)
  /-- PROXY_AGEING (R124): A RedBox proxy entry reaches its ageing time and is removed. -/
  | proxyAgeing (k : Fin 2)
  /-- PX_STAGE_PORT (R132): Stages PHY type, FEC and the other port settings. -/
  | pxStagePort (c : Cmd) (p : Fin 14) (x : PortCfg)
  /-- PX_STAGE_FILTER (R132): Stages the address entries of one port. -/
  | pxStageFilter (c : Cmd) (p : Fin 14) (l : List (Nat × AddrEntry))
  /-- PX_STAGE_REDUNDANCY (R120): Stages the mode, role, forget time and LifeCheckInterval of a pair. -/
  | pxStageRedundancy (c : Cmd) (pair : Nat) (x : RedCfg)
  /-- PX_STAGE_MACSEC (R132): Stages the MACsec settings of a port. -/
  | pxStageMacsec (c : Cmd) (p : Nat) (x : MacsecCfg)
  /-- PX_MACSEC_SA_SET (R127): Installs or removes one MACsec SA. -/
  | pxMacsecSaSet (c : Cmd) (p : Fin 6) (rxChan : Option (Fin 8)) (an : Fin 4) (sa : Option MacsecSa)
  /-- PX_MACSEC_TX_AN (R127): Selects the transmit AN of one port from the next frame. -/
  | pxMacsecTxAn (c : Cmd) (p : Fin 6) (an : Fin 4)
  /-- PX_PORT_RESTART (R132): Retrains the ports in the part mask. -/
  | pxPortRestart (c : Cmd) (mask : BitVec 64)
  /-- PX_READ_COUNTERS (R118): Reads and clears all counters of the named ports on one clock cycle. -/
  | pxReadCounters (c : Cmd) (mask : BitVec 64)
  /-- TRANSMIT_QUEUE_ENTRY (R162): A frame enters its egress transmit queue when its last cell has crossed stage 2. -/
  | transmitQueueEntry (p : Fin 16) (cls : Fin 8) (guard : Option GuardFind)
  /-- HOLD_EXPIRY (R171): A port's link-down hold time expires; it enters DOWN and flushes its queues. -/
  | holdExpiry (p : Fin 14) (back : Bool)
  /-- MAX_AGE_EXPIRY (R172): A queue's head frame exceeds MAX_AGE and is discarded. -/
  | maxAgeExpiry (p : Fin 14) (cls : Fin 8)
  /-- FDB_AGEING (R158): A dynamic forwarding entry reaches its ageing time and is removed. -/
  | fdbAgeing
  /-- MIRROR_ENABLE (R174): A write of SW_MIRROR_CTRL.EN enables or disables the mirror ring and zeroes HEAD and RELEASE. -/
  | mirrorEnable (v : BitVec 32)
  /-- SW_STAGE_LIMITS (R166): Stages RESERVE, LIMIT, ECN_DEPTH and MAX_AGE of each queue. -/
  | swStageLimits (c : Cmd) (l : List (Fin 16 × Fin 8 × LimitsCfg))
  /-- SW_STAGE_FDB (R158): Stages static forwarding entries. -/
  | swStageFdb (c : Cmd) (l : List (Nat × FdbStatic))
  /-- SW_STAGE_VLAN (R159): Stages the VLAN table masks. -/
  | swStageVlan (c : Cmd) (l : List (BitVec 12 × VlanCfg))
  /-- SW_STAGE_PORTS (R181): Stages hold time, learning, ageing time and SEED. -/
  | swStagePorts (c : Cmd) (x : SwPortsCfg)
  /-- SW_STAGE_MIRROR (R176): Stages the mirror selection. -/
  | swStageMirror (c : Cmd) (x : MirrorCfg)
  /-- SW_READ_COUNTERS (R180): Reads and clears the counters of the named fabric ports. -/
  | swReadCounters (c : Cmd) (mask : BitVec 64)
  /-- SW_FDB_FLUSH (R181): Removes the dynamic entries learned on the named ports. -/
  | swFdbFlush (c : Cmd) (mask : BitVec 64)
  /-- SW_FDB_READ (R181): Writes the forwarding database into the result buffer. -/
  | swFdbRead (c : Cmd)
  /-- PACKET_OPEN (R186): A producer's first word opens a packet, or the opening is refused with QUOTA. -/
  | packetOpen (p : Producer) (q : Fin 256) (header : List Byte) (rxLt : LT) (rxStatus : BitVec 16) (guard : Option GuardFind)
  /-- NARROW_UNIT_WRITE (R188): A producer writes one 8-byte unit of an open packet. -/
  | narrowUnitWrite (q : Fin 256) (bytes : List Byte) (guard : Option GuardFind)
  /-- END_MARK_WRITE (R189): The producer's last unit carries the end mark and the packet becomes visible. -/
  | endMarkWrite (q : Fin 256) (bytes : List Byte) (guard : Option GuardFind)
  /-- PRODUCER_REWIND (R190): A producer requests a rewind of its open packet, freeing its words. -/
  | producerRewind (q : Fin 256)
  /-- QUEUE_READ (R193): The consumer reads the word at the read position, or the idle item. -/
  | queueRead (q : Fin 256) (rq : Tag) (guard : Option GuardFind)
  /-- QUEUE_MARK (R193): Sets the mark to the read position. -/
  | queueMark (q : Fin 256)
  /-- QUEUE_REWIND (R193): Returns the read position to the mark. -/
  | queueRewind (q : Fin 256)
  /-- QUEUE_RELEASE (R193): Frees every whole packet before the read position. -/
  | queueRelease (q : Fin 256)
  /-- FABRIC_TAKE (R628): The fabric starts taking a visible packet from a queue feeding INGEST or CORE in round robin. -/
  | fabricTake (core : Bool) (guard : Option GuardFind)
  /-- QM_STAGE_QUEUES (R185): Stages capacities and directions of queues. -/
  | qmStageQueues (c : Cmd) (l : List (Nat × QueueCfg))
  /-- QM_STAGE_STEER (R183): Stages CORE steering entries. -/
  | qmStageSteer (c : Cmd) (l : List (Fin 64 × SteerEntry))
  /-- QM_READ_COUNTERS (R198): Reads and clears the counters of the named queues. -/
  | qmReadCounters (c : Cmd) (base : Nat) (mask : BitVec 64)
  /-- QM_QUEUE_FLUSH (R198): Frees every visible word of the named queues and rewinds their open packets. -/
  | qmQueueFlush (c : Cmd) (base : Nat) (mask : BitVec 64)
  /-- CABINET_CYCLE_START (R137): TCU4 fires; the controller takes the output values, counts missed reports and builds the output image. -/
  | cabinetCycleStart
  /-- IMAGE_TRANSMIT (R137): The output image frame starts at t0 + 10 µs, when the bus becomes idle, or in node 0's transmit opportunity. -/
  | imageTransmit (g : Fin 2)
  /-- REPORT_RECEIVE (R147): A station REPORT is received and its inputs are written to their points. -/
  | reportReceive (g : Fin 2) (f : Frame) (rxLt : LT)
  /-- ANNOUNCE_RECEIVE (R144): A station ANNOUNCE is matched against its staged identity and the station is sent ASSIGN or marked MISMATCH. -/
  | announceReceive (g : Fin 2) (f : Frame) (rxLt : LT)
  /-- IMAGE_RECEIVE (R135): A unit hears an IMAGE on a segment and the standby adopts the active unit's cycle number. -/
  | imageReceive (g : Fin 2) (f : Frame) (rxLt : LT)
  /-- STATION_ABSENT (R147): At the end of its slot a station with N consecutive missed reports is declared absent. -/
  | stationAbsent (g : Fin 2) (k : Fin 32)
  /-- COLLISION (R141): A collision on a segment in normal mode is counted toward recovery mode. -/
  | collision (g : Fin 2)
  /-- SLOTTED_STARTUP_END (R141): Start-up slotted mode ends when all stations have reported or 200 ms have passed. -/
  | slottedStartupEnd (g : Fin 2)
  /-- FO_STAGE_CABINET (R153): Stages the cabinet segment settings and station table. -/
  | foStageCabinet (c : Cmd) (x : CabCfg)
  /-- FO_CAB_MODE_TEST (R153): Requests slotted test mode on one segment at the next cycle start. -/
  | foCabModeTest (c : Cmd) (g : Fin 2)
  /-- FO_CAB_MODE_NORMAL (R153): Requests the return of one segment to normal mode at the next cycle start. -/
  | foCabModeNormal (c : Cmd) (g : Fin 2)
  /-- FO_CAB_REDISCOVER (R153): Sets the named stations unassigned for a fresh ASSIGN. -/
  | foCabRediscover (c : Cmd) (mask : BitVec 64)
  /-- SV_FRAME_RECEIVE (R202): SE matches and validates an SV frame and places its samples on the grid. -/
  | svFrameReceive (q : Fin 8) (f : SvFrame) (guard : Option GuardFind)
  /-- GOOSE_FRAME_RECEIVE (R213): SE validates a GOOSE frame, writes its points for a new state and restarts the supervision timer. -/
  | gooseFrameReceive (q : Fin 8) (f : GoFrame) (guard : Option GuardFind)
  /-- INSTANT_RELEASE (R208): A grid instant is released when complete or at t_first + W, and its samples go to lanes, points and tasks. -/
  | instantRelease (g : Fin 16)
  /-- GRID_SECOND (R206): TCU3 fires and opens a new grid second for SE, FR, PE and FB. -/
  | gridSecond
  /-- TAL_EXPIRY (R214): A GOOSE subscription's timeAllowedToLive expires and its points go invalid. -/
  | talExpiry (n : Fin 1024)
  /-- GOOSE_PUBLISH (R216): After a state change SE sends the block's frame with stNum + 1 and sqNum 0. -/
  | goosePublish (p : Fin 256)
  /-- GOOSE_RETRANSMIT (R216): A retransmission interval expires and the unchanged state is sent with sqNum + 1. -/
  | gooseRetransmit (p : Fin 256)
  /-- SE_STAGE_GROUPS (R205): Stages the alignment groups, mandatory marks and lock timeout. -/
  | seStageGroups (c : Cmd) (l : List (Fin 16 × GroupCfg)) (lockMs : Option Nat)
  /-- SE_STAGE_SV (R222): Stages SV subscriptions. -/
  | seStageSv (c : Cmd) (l : List (Nat × SvCfg))
  /-- SE_STAGE_GOOSE_SUB (R222): Stages GOOSE subscriptions. -/
  | seStageGooseSub (c : Cmd) (l : List (Nat × GoSubCfg))
  /-- SE_STAGE_GOOSE_PUB (R215): Stages GOOSE publication blocks. -/
  | seStageGoosePub (c : Cmd) (l : List (Nat × GoPubCfg))
  /-- SE_READ_COUNTERS (R222): Reads and clears the SV counters of the named streams. -/
  | seReadCounters (c : Cmd) (base : Nat) (mask : BitVec 64)
  /-- SE_STREAM_RELOCK (R222): Returns the named streams to ACQUIRE. -/
  | seStreamRelock (c : Cmd) (base : Nat) (mask : BitVec 64)
  /-- LANE_OUTPUT_RELEASE (R239): A lane releases an output sample once its inputs are delivered. -/
  | laneOutputRelease (l : Fin 1024) (f : LaneFinding)
  /-- GRID_CYCLE_START (R235): A tracking group starts a new grid cycle with the frequency in force. -/
  | gridCycleStart (g : Fin 64)
  /-- TRACKING_HOLD (R236): No valid estimate for 2 × T_c puts the tracking group in HOLD. -/
  | trackingHold (g : Fin 64)
  /-- TRACKING_NOMINAL (R236): HOLD lasts the hold timeout and the group enters NOMINAL. -/
  | trackingNominal (g : Fin 64)
  /-- COEF_RELOAD_DONE (R242): A coefficient table reloaded after a guard error is complete and its lanes restart. -/
  | coefReloadDone (proto : Bool) (n : Fin 256)
  /-- FR_STAGE_LANES (R247): Stages the settings of lanes. -/
  | frStageLanes (c : Cmd) (l : List (Nat × LaneCfg))
  /-- FR_STAGE_TRACK (R234): Stages tracking groups. -/
  | frStageTrack (c : Cmd) (l : List (Nat × TrackCfg))
  /-- FR_STAGE_COEF (R231): Stages FIR and prototype coefficient tables. -/
  | frStageCoef (c : Cmd) (l : List (Bool × Nat × CoefTable))
  /-- FR_LANE_RESTART (R241): Restarts the named lanes. -/
  | frLaneRestart (c : Cmd) (base : Nat) (mask : BitVec 64)
  /-- ESTIMATE_RELEASE (R258): PE releases an estimate: the result record, the points and the offer to groups and streams. -/
  | estimateRelease (c : Fin 1024) (guard : Option GuardFind)
  /-- STREAM_DEADLINE (R259): At t_r + Lmax PE completes the stream's waiting estimates and sets LATE. -/
  | streamDeadline (k : Fin 64)
  /-- DATA_FRAME_HANDOVER (R264): PE hands a C37.118.2 data frame to SE's output stage. -/
  | dataFrameHandover (k : Fin 64)
  /-- CFG_CHANGE_TIMEOUT (R266): STAT bit 10 clears after 60 s without a CFG-2 request. -/
  | cfgChangeTimeout (k : Fin 64)
  /-- C37_CMD_DATA_OFF (R268): Command 0x0001 turns off data frames from the next t_r. -/
  | c37CmdDataOff (k : Fin 64)
  /-- C37_CMD_DATA_ON (R268): Command 0x0002 turns on data frames from the next t_r. -/
  | c37CmdDataOn (k : Fin 64)
  /-- C37_CMD_HEADER (R268): Command 0x0003 sends the header frame. -/
  | c37CmdHeader (k : Fin 64) (to_ : C37Sender)
  /-- C37_CMD_CFG1 (R268): Command 0x0004 sends CFG-1. -/
  | c37CmdCfg1 (k : Fin 64) (to_ : C37Sender)
  /-- C37_CMD_CFG2 (R268): Command 0x0005 sends CFG-2 and clears STAT bit 10. -/
  | c37CmdCfg2 (k : Fin 64) (to_ : C37Sender)
  /-- C37_CMD_UNSUPPORTED (R268): Command 0x0006 is counted and ignored. -/
  | c37CmdUnsupported (k : Fin 64)
  /-- C37_CMD_EXTENDED (R268): Command 0x0008 is counted and ignored. -/
  | c37CmdExtended (k : Fin 64)
  /-- PE_STAGE_CHANNELS (R272): Stages phasor channels. -/
  | peStageChannels (c : Cmd) (l : List (Nat × ChanCfg))
  /-- PE_STAGE_SETS (R249): Stages sets of three channels. -/
  | peStageSets (c : Cmd) (l : List (Nat × SetCfg))
  /-- PE_STAGE_STREAMS (R263): Stages C37.118.2 streams. -/
  | peStageStreams (c : Cmd) (l : List (Nat × StreamCfg))
  /-- PE_READ_RESULTS (R262): Writes the result records of the named channels, taken on one clock cycle. -/
  | peReadResults (c : Cmd) (base : Nat) (mask : BitVec 64)
  /-- PE_STREAM_TX_ON (R272): Turns transmission of the named streams on from the next t_r. -/
  | peStreamTxOn (c : Cmd) (base : Nat) (mask : BitVec 64)
  /-- PE_STREAM_TX_OFF (R272): Turns transmission of the named streams off from the next t_r. -/
  | peStreamTxOff (c : Cmd) (base : Nat) (mask : BitVec 64)
  /-- PE_READ_COUNTERS (R272): Reads and clears the counters of the named streams. -/
  | peReadCounters (c : Cmd) (base : Nat) (mask : BitVec 64)
  /-- WSL_FRAME_RECEIVE (R276): A wideband link frame is matched to its convert edge and its samples are delivered. -/
  | wslFrameReceive (k : Fin 8) (f : WslFrame)
  /-- WSL_FRAME_DEADLINE (R277): No frame arrives for a convert edge by LAT_MAX and a missing sample is delivered. -/
  | wslFrameDeadline (k : Fin 8)
  /-- WSL_RETRAIN_DONE (R278): Link retraining after a PD6 wake or a change of K completes. -/
  | wslRetrainDone (k : Fin 8)
  /-- FAST_EDGE_ARRIVAL (R280): A FAST_EDGE input records an edge with its TDC instant. -/
  | fastEdgeArrival (e : Fin 24) (rising : Bool) (bin : Fin 128) (pulse : Nat)
  /-- TDC_CALIBRATION_DONE (R280): The first code-density calibration after a PD6 wake completes and UNCAL ends. -/
  | tdcCalibrationDone (e : Fin 24) (bins : Vector Nat 128)
  /-- EDGE_POP (R281): A read of the lower word of AR_EDGEe_LT pops and latches the oldest entry. -/
  | edgePop (rq : Nat) (e : Fin 24) (wide : Bool)
  /-- PATTERN_TICK_EVAL (R290): A recorder evaluates its pattern for a tick at its end plus EVAL_DELAY. -/
  | patternTickEval (r : Fin 8)
  /-- ROW_WRITE (R294): A recorder writes the row of a base-grid instant into its partition. -/
  | rowWrite (r : Fin 8)
  /-- RECORD_COMPLETE (R295): A record is closed and its header written. -/
  | recordComplete (r : Fin 8)
  /-- AR_STAGE_WSL (R307): Stages the wideband links. -/
  | arStageWsl (c : Cmd) (l : List (Fin 8 × WslCfg))
  /-- AR_STAGE_EDGES (R307): Stages the FAST_EDGE inputs. -/
  | arStageEdges (c : Cmd) (l : List (Fin 24 × EdgeCfg))
  /-- AR_STAGE_COMPARATORS (R283): Stages comparators. -/
  | arStageComparators (c : Cmd) (l : List (Nat × CompCfg))
  /-- AR_STAGE_RECORDERS (R286): Stages recorders. -/
  | arStageRecorders (c : Cmd) (l : List (Fin 8 × RecCfg))
  /-- AR_TRIGGER (R287): Sets the manual source of the named recorders. -/
  | arTrigger (c : Cmd) (mask : BitVec 64)
  /-- AR_RECORDER_ARM (R307): Arms the named recorders. -/
  | arRecorderArm (c : Cmd) (mask : BitVec 64)
  /-- AR_RECORDER_STOP (R307): Stops the named recorders, closing an open record with TRUNC. -/
  | arRecorderStop (c : Cmd) (mask : BitVec 64)
  /-- AR_RECORD_LIST (R301): Writes the directory of held records. -/
  | arRecordList (c : Cmd) (r : Fin 8)
  /-- AR_RECORD_READ (R301): Copies a byte range of one held record. -/
  | arRecordRead (c : Cmd) (r : Fin 8) (no : BitVec 32) (off len : Nat) (guard : List (Nat × GuardFind))
  /-- AR_RECORD_RELEASE (R301): Frees the named records. -/
  | arRecordRelease (c : Cmd) (r : Fin 8) (nos : List (BitVec 32))
  /-- AR_READ_COUNTERS (R307): Reads and clears the counters of the named recorders. -/
  | arReadCounters (c : Cmd) (mask : BitVec 64)
  /-- BASE_TICK (R357): TCU1 fires a 10 µs base tick on which windows open and periodic tasks are released. -/
  | baseTick
  /-- WINDOW_END (R360): A window ends on its base tick and any running cycle is abandoned. -/
  | windowEnd (e : Fin 48)
  /-- MAJOR_FRAME_START (R357): TCU2 fires a major-frame boundary. -/
  | majorFrameStart
  /-- CYCLE_START (R366): A released cycle starts when its window is open and the engine is free, and its snapshot begins. -/
  | cycleStart (e : Fin 48)
  /-- SNAPSHOT_DONE (R367): After T_snap the snapshot and receive area are complete, registers are reset and execution begins. -/
  | snapshotDone (e : Fin 48)
  /-- OUTPUT_WRITE (R368): At W the cycle's exports become visible together and its QSEND packets are opened. -/
  | outputWrite (e : Fin 48)
  /-- RUN_STATE_CHANGE (R375): A requested run-state change takes effect at a frame boundary and the reply is written. -/
  | runStateChange (o : Nat)
  /-- INBOX_DISPATCH (R341): The cluster dispatcher copies an inbound packet to its task's inbox or drops it. -/
  | inboxDispatch (k : Fin 6) (odd : Bool) (guard : Option GuardFind)
  /-- ENGINE_RELOAD_DONE (R315): A cluster finishes reloading code and instance data after its domain wakes. -/
  | engineReloadDone (k : Fin 6)
  /-- ADD (R324): D = A + B. -/
  | tahrAdd (x : TahrOp)
  /-- SUB (R324): D = A − B. -/
  | tahrSub (x : TahrOp)
  /-- ADDI (R324): D = A + sext(IMM). -/
  | tahrAddi (x : TahrOp)
  /-- MUL (R324): D = low 64 bits of A × B. -/
  | tahrMul (x : TahrOp)
  /-- DIV (R324): Signed division truncated toward zero. -/
  | tahrDiv (x : TahrOp)
  /-- REM (R324): Signed remainder. -/
  | tahrRem (x : TahrOp)
  /-- AND (R324): Bitwise AND. -/
  | tahrAnd (x : TahrOp)
  /-- OR (R324): Bitwise OR. -/
  | tahrOr (x : TahrOp)
  /-- XOR (R324): Bitwise XOR. -/
  | tahrXor (x : TahrOp)
  /-- ANDI (R324): Bitwise AND with sext(IMM). -/
  | tahrAndi (x : TahrOp)
  /-- ORI (R324): Bitwise OR with sext(IMM). -/
  | tahrOri (x : TahrOp)
  /-- XORI (R324): Bitwise XOR with sext(IMM). -/
  | tahrXori (x : TahrOp)
  /-- SHL (R324): Shift left by B[5:0]. -/
  | tahrShl (x : TahrOp)
  /-- SHR (R324): Logical shift right by B[5:0]. -/
  | tahrShr (x : TahrOp)
  /-- SAR (R324): Arithmetic shift right by B[5:0]. -/
  | tahrSar (x : TahrOp)
  /-- SHLI (R324): Shift left by IMM[5:0]. -/
  | tahrShli (x : TahrOp)
  /-- SHRI (R324): Logical shift right by IMM[5:0]. -/
  | tahrShri (x : TahrOp)
  /-- SARI (R324): Arithmetic shift right by IMM[5:0]. -/
  | tahrSari (x : TahrOp)
  /-- LDI (R324): D = sext(IMM). -/
  | tahrLdi (x : TahrOp)
  /-- LDIH (R324): D = IMM × 2^32 + A[31:0]. -/
  | tahrLdih (x : TahrOp)
  /-- MIN (R324): Signed minimum. -/
  | tahrMin (x : TahrOp)
  /-- MAX (R324): Signed maximum. -/
  | tahrMax (x : TahrOp)
  /-- CMPEQ (R324): D = 1 if A = B. -/
  | tahrCmpeq (x : TahrOp)
  /-- CMPLT (R324): D = 1 if A < B signed. -/
  | tahrCmplt (x : TahrOp)
  /-- CMPLTU (R324): D = 1 if A < B unsigned. -/
  | tahrCmpltu (x : TahrOp)
  /-- CMPLE (R324): D = 1 if A ≤ B signed. -/
  | tahrCmple (x : TahrOp)
  /-- SEL (R324): D = A if C ≠ 0, else B. -/
  | tahrSel (x : TahrOp)
  /-- ABS (R324): D = |A|. -/
  | tahrAbs (x : TahrOp)
  /-- FADD (R325): binary64 addition. -/
  | tahrFadd (x : TahrOp)
  /-- FSUB (R325): binary64 subtraction. -/
  | tahrFsub (x : TahrOp)
  /-- FMUL (R325): binary64 multiplication. -/
  | tahrFmul (x : TahrOp)
  /-- FDIV (R325): binary64 division. -/
  | tahrFdiv (x : TahrOp)
  /-- FSQRT (R325): binary64 square root. -/
  | tahrFsqrt (x : TahrOp)
  /-- FMADD (R325): Fused multiply-add rounded once. -/
  | tahrFmadd (x : TahrOp)
  /-- FNEG (R325): Sign inverted. -/
  | tahrFneg (x : TahrOp)
  /-- FABS (R325): Sign cleared. -/
  | tahrFabs (x : TahrOp)
  /-- FMIN (R325): IEEE 754-2019 minimum. -/
  | tahrFmin (x : TahrOp)
  /-- FMAX (R325): IEEE 754-2019 maximum. -/
  | tahrFmax (x : TahrOp)
  /-- FCMPEQ (R325): D = 1 if A = B. -/
  | tahrFcmpeq (x : TahrOp)
  /-- FCMPLT (R325): D = 1 if A < B. -/
  | tahrFcmplt (x : TahrOp)
  /-- FCMPLE (R325): D = 1 if A ≤ B. -/
  | tahrFcmple (x : TahrOp)
  /-- CVTIF (R325): INT64 to binary64. -/
  | tahrCvtif (x : TahrOp)
  /-- CVTFI (R325): binary64 to INT64, rounded and saturated. -/
  | tahrCvtfi (x : TahrOp)
  /-- CVTSD (R325): binary32 to binary64. -/
  | tahrCvtsd (x : TahrOp)
  /-- CVTDS (R325): binary64 to binary32. -/
  | tahrCvtds (x : TahrOp)
  /-- FSIN (R325): D = sin A. -/
  | tahrFsin (x : TahrOp)
  /-- FCOS (R325): D = cos A. -/
  | tahrFcos (x : TahrOp)
  /-- FATAN2 (R325): D = atan2(A, B). -/
  | tahrFatan2 (x : TahrOp)
  /-- FLDI (R325): D = binary32 IMM as binary64. -/
  | tahrFldi (x : TahrOp)
  /-- CADD (R326): Complex addition. -/
  | tahrCadd (x : TahrOp)
  /-- CSUB (R326): Complex subtraction. -/
  | tahrCsub (x : TahrOp)
  /-- CMUL (R326): Complex multiplication. -/
  | tahrCmul (x : TahrOp)
  /-- CDIV (R326): Complex division. -/
  | tahrCdiv (x : TahrOp)
  /-- CCONJ (R326): Complex conjugate. -/
  | tahrCconj (x : TahrOp)
  /-- CMAG (R326): Complex magnitude. -/
  | tahrCmag (x : TahrOp)
  /-- CARG (R326): Complex argument. -/
  | tahrCarg (x : TahrOp)
  /-- CMK (R326): Builds A + jB from two F64. -/
  | tahrCmk (x : TahrOp)
  /-- CRE (R326): Real part. -/
  | tahrCre (x : TahrOp)
  /-- CIM (R326): Imaginary part. -/
  | tahrCim (x : TahrOp)
  /-- CSCL (R326): Complex scaled by an F64. -/
  | tahrCscl (x : TahrOp)
  /-- CPOL (R326): D = A × e^(jB) from two F64. -/
  | tahrCpol (x : TahrOp)
  /-- CROT (R326): Complex rotated by an angle. -/
  | tahrCrot (x : TahrOp)
  /-- LD (R327): Loads a 64-bit word from instance memory. -/
  | tahrLd (x : TahrOp)
  /-- LDW (R327): Loads a sign-extended 32-bit word. -/
  | tahrLdw (x : TahrOp)
  /-- LDWU (R327): Loads a zero-extended 32-bit word. -/
  | tahrLdwu (x : TahrOp)
  /-- LDB (R327): Loads a zero-extended byte. -/
  | tahrLdb (x : TahrOp)
  /-- ST (R327): Stores 64 bits. -/
  | tahrSt (x : TahrOp)
  /-- STW (R327): Stores 32 bits. -/
  | tahrStw (x : TahrOp)
  /-- STB (R327): Stores a byte. -/
  | tahrStb (x : TahrOp)
  /-- BR (R328): Unconditional branch. -/
  | tahrBr (x : TahrOp)
  /-- BEQ (R328): Branch if A = B. -/
  | tahrBeq (x : TahrOp)
  /-- BNE (R328): Branch if A ≠ B. -/
  | tahrBne (x : TahrOp)
  /-- BLT (R328): Branch if A < B signed. -/
  | tahrBlt (x : TahrOp)
  /-- BGE (R328): Branch if A ≥ B signed. -/
  | tahrBge (x : TahrOp)
  /-- BLTU (R328): Branch if A < B unsigned. -/
  | tahrBltu (x : TahrOp)
  /-- LOOP (R328): Decrements A and branches while it is not zero. -/
  | tahrLoop (x : TahrOp)
  /-- FBCALL (R340): Calls a function block, pushing the return pair and setting V62. -/
  | tahrFbcall (x : TahrOp)
  /-- RET (R340): Returns from a function block, restoring V62. -/
  | tahrRet (x : TahrOp)
  /-- END (R328): Ends the task cycle. -/
  | tahrEnd (x : TahrOp)
  /-- NOP (R328): Does nothing. -/
  | tahrNop (x : TahrOp)
  /-- LDP (R332): Loads a point's value from the snapshot. -/
  | tahrLdp (x : TahrOp)
  /-- LDPQ (R332): Loads a point's quality, flags, type and owner. -/
  | tahrLdpq (x : TahrOp)
  /-- LDPT (R332): Loads a point's LT. -/
  | tahrLdpt (x : TahrOp)
  /-- STP (R333): Stores a value and quality into an export slot. -/
  | tahrStp (x : TahrOp)
  /-- STPT (R333): Stores a value, quality and LT into an export slot. -/
  | tahrStpt (x : TahrOp)
  /-- RDSR (R318): Reads a special register. -/
  | tahrRdsr (x : TahrOp)
  /-- TON (R336): On-delay timer. -/
  | tahrTon (x : TahrOp)
  /-- TOF (R336): Off-delay timer. -/
  | tahrTof (x : TahrOp)
  /-- TP (R336): Pulse timer. -/
  | tahrTp (x : TahrOp)
  /-- RTRIG (R337): Rising-edge detector. -/
  | tahrRtrig (x : TahrOp)
  /-- FTRIG (R337): Falling-edge detector. -/
  | tahrFtrig (x : TahrOp)
  /-- CTU (R338): Up counter. -/
  | tahrCtu (x : TahrOp)
  /-- CTD (R338): Down counter. -/
  | tahrCtd (x : TahrOp)
  /-- CTUD (R338): Up-down counter. -/
  | tahrCtud (x : TahrOp)
  /-- QSEND (R344): Copies a packet into the engine's send-buffer slice. -/
  | tahrQsend (x : TahrOp)
  /-- RAISE (R346): Raises the fault USER with a code. -/
  | tahrRaise (x : TahrOp)
  /-- FB_STAGE_CODE (R352): Stages the code image of one owner. -/
  | fbStageCode (c : Cmd) (img : List Byte)
  /-- FB_STAGE_RXMAP (R341): Stages the cluster dispatch tables. -/
  | fbStageRxmap (c : Cmd) (l : List (Fin 6 × Fin 64 × RxEntry))
  /-- FB_READ_INST (R356): Copies a byte range of instance memory when no cycle of that owner runs. -/
  | fbReadInst (c : Cmd) (e : Fin 48) (a n : Nat)
  /-- FB_READ_FAULT (R356): Writes the last fault record of each of the owner's tasks. -/
  | fbReadFault (c : Cmd) (o : Tag) (e : Fin 48)
  /-- FB_READ_COUNTERS (R356): Reads and clears the counters of the named engines. -/
  | fbReadCounters (c : Cmd) (mask : BitVec 64)
  /-- FB_STAGE_SCHEDULE (R357): Stages the major frame and the windows. -/
  | fbStageSchedule (c : Cmd) (f : Option Nat) (l : List (Fin 48 × List Window))
  /-- FB_STAGE_TASKS (R362): Stages task settings, initial state and STOP policy. -/
  | fbStageTasks (c : Cmd) (o : Tag) (l : List (Nat × TaskCfg)) (own : Option OwnerCfg)
  /-- FB_STAGE_RETAIN (R379): Stages retained ranges. -/
  | fbStageRetain (c : Cmd) (o : Tag) (l : List (Fin 48 × List RetainRange))
  /-- RUN_WARM (R375): FB_RUN_CTRL requests RUN with instance memory kept. -/
  | runWarm (c : Cmd) (o : Tag)
  /-- RUN_COLD (R375): FB_RUN_CTRL requests RUN with instance data reloaded. -/
  | runCold (c : Cmd) (o : Tag)
  /-- FB_RUN_CTRL_STOP (R375): FB_RUN_CTRL requests STOP. -/
  | fbRunCtrlStop (c : Cmd) (o : Tag)
  /-- FB_RUN_CTRL_HOLD (R375): FB_RUN_CTRL requests HOLD. -/
  | fbRunCtrlHold (c : Cmd) (o : Tag)
  /-- FB_STEP (R375): Requests c stepped releases of one task from HOLD. -/
  | fbStep (c : Cmd) (o : Tag) (t n : Nat)
  /-- FB_READ_TASKS (R388): Writes the owner's task records taken on one clock cycle. -/
  | fbReadTasks (c : Cmd) (o : Tag)
  /-- BATCH_APPLY (R398): The store applies the next waiting batch of point writes. -/
  | batchApply
  /-- STALE_MARK (R399): A point that exceeds its maximum age is marked stale. -/
  | staleMark (i : Nat)
  /-- PS_STAGE_POINTS (R407): Stages point definitions, publications and T_PSW. -/
  | psStagePoints (c : Cmd) (defs : List (Nat × PointDef)) (pubs : List PubCfg) (tPsw : Option Nat)
  /-- PS_READ_POINTS (R407): Returns up to 1,024 point records as presented. -/
  | psReadPoints (c : Cmd) (l : List Nat) (guard : List (Nat × GuardFind)) (forces : List (Nat × GuardFind))
  /-- PS_WRITE (R407): Writes host-written points as one batch. -/
  | psWrite (c : Cmd) (l : List (Nat × BitVec 64 × Quality)) (mask : BitVec 64)
  /-- PS_FORCE_SET (R400): Sets forces on the named points. -/
  | psForceSet (c : Cmd) (l : List (Nat × BitVec 64 × Quality)) (mask : BitVec 64)
  /-- PS_FORCE_CLEAR (R407): Removes the forces of the named points. -/
  | psForceClear (c : Cmd) (l : List Nat) (mask : BitVec 64)
  /-- PS_FORCE_LIST_CURRENT (R407): PS_FORCE_LIST with byte 0 = 0 lists the current forces. -/
  | psForceListCurrent (c : Cmd)
  /-- PS_FORCE_LIST_DROPPED (R402): PS_FORCE_LIST with byte 0 = 1 lists the dropped forces. -/
  | psForceListDropped (c : Cmd)
  /-- HEARTBEAT_TX (R420): Every 10 µs FO sends a HEARTBEAT to the partner. -/
  | heartbeatTx
  /-- HEARTBEAT_RX (R421): A good partner heartbeat updates the offset, link delay, partner state and held diagnoses. -/
  | heartbeatRx (w : BrxWords)
  /-- PARTNER_LOST (R422): No good heartbeat for 45 µs declares the partner lost. -/
  | partnerLost
  /-- BRIXIG_LINK_STATE (R416): The Brixig link goes up or down; a down link loses the partner at once. -/
  | brixigLinkState (up : Bool)
  /-- RELINQUISH_RX (R433): A RELINQUISH message reaches the standby, which forms a claim if eligible. -/
  | relinquishRx (w : BrxWords)
  /-- GOOSE_ST_RX (R429): The standby records the stNum values of a GOOSE_ST message. -/
  | gooseStRx (w : BrxWords)
  /-- REPL_RX (R426): The standby receives a REPL message with range words. -/
  | replRx (w : BrxWords)
  /-- TASKS_RX (R419): The standby receives a TASKS message with task clock offsets. -/
  | tasksRx (w : BrxWords)
  /-- REPL_END_RX (R426): The standby receives REPL_END and the replication may be complete. -/
  | replEndRx (w : BrxWords)
  /-- REPL_TRANSMIT (R426): Within the frame the active unit sends REPL, TASKS and REPL_END for its capture. -/
  | replTransmit
  /-- REPL_APPLY (R428): At the next frame boundary the standby writes differing words and aligns task clocks. -/
  | replApply
  /-- DISCOVERY_TIMEOUT (R423): No partner within the discovery time: the unit becomes ACTIVE alone. -/
  | discoveryTimeout
  /-- WITNESS_CLEAR (R433): No IMAGE with the partner's claim heard for WIT: a held takeover proceeds. -/
  | witnessClear
  /-- HANDOVER_END (R434): T_HANDOVER ends and the new active unit opens the first frame of every GOOSE block. -/
  | handoverEnd
  /-- WATCHDOG_EXPIRY (R430): SU has not written FO_WDOG within the watchdog period. -/
  | watchdogExpiry
  /-- TIME_SV_TRIGGER (R430): Time loss with a group not READY persists for T_diag and the trigger is present. -/
  | timeSvTrigger
  /-- EPOCH_RESET_WINDOW (R415): The longest claim acceptance window since the last IMAGE passes and EPOCH_RST may clear. -/
  | epochResetWindow
  /-- SWAP_BOUNDARY (R438): At the frame boundary after FO_SWAP the active unit shuts its gates and hands over. -/
  | swapBoundary
  /-- FO_WDOG_WRITE (R440): A write by SU to FO_WDOG restarts the watchdog. -/
  | foWdogWrite
  /-- FO_STAGE_PAIR (R441): Stages PRIO, CONFIG_TAG and the pair settings. -/
  | foStagePair (c : Cmd) (p : PairCfg)
  /-- FO_STAGE_REPL (R425): Stages replicated ranges. -/
  | foStageRepl (c : Cmd) (o : Tag) (l : List ReplRange)
  /-- FO_RELINQUISH (R441): An ACTIVE unit relinquishes with reason 0x5. -/
  | foRelinquish (c : Cmd)
  /-- FO_SWAP (R438): Requests a planned role swap. -/
  | foSwap (c : Cmd)
  /-- FO_REARM (R441): Returns a RELINQUISHED unit to STANDBY. -/
  | foRearm (c : Cmd)
  /-- FO_EPOCH_RESET (R415): Sets E_mem to 0 and EPOCH_RST on this unit. -/
  | foEpochReset (c : Cmd)
  /-- FO_READ_PAIR (R441): Writes this unit's FO state and the partner's last heartbeat. -/
  | foReadPair (c : Cmd)
  /-- MI_TAP_FRAME (R447): The metrology die parses a tapped SV frame and takes its samples. -/
  | miTapFrame (f : SvFrame) (bad : Nat)
  /-- MI_TIME_RECORD (R446): The die receives a time record and sets TIME_OK. -/
  | miTimeRecord (bad : Bool)
  /-- MI_INSTANT_CLOSE (R448): W_mi after its first sample, an instant is processed with substitutes for missing channels. -/
  | miInstantClose (p : Fin 8)
  /-- ZC_TIMEOUT (R458): No zero crossing for T_ZC closes the period and enters NO_ZC. -/
  | zcTimeout (p : Fin 8)
  /-- TAP_LOST (R448): A point receives no sample for 1 s. -/
  | tapLost (p : Fin 8)
  /-- TIME_OK_TIMEOUT (R446): No valid time record within 2 s clears TIME_OK. -/
  | timeOkTimeout
  /-- REGISTER_SAVE (R463): Once per second the die writes its registers to the older MRAM copy. -/
  | registerSave
  /-- POWER_FAIL_SAVE (R463): VDD_MI falling below 0.76 V triggers a register save. -/
  | powerFailSave (done : Bool)
  /-- MI_POWER_UP (R463): The die powers up, restores the newest complete copy and logs it. -/
  | miPowerUp (bad : List (Fin 4)) (closed : Bool)
  /-- SEAL_OPEN (R450): A debounced opening of the seal in SEALED moves the die to UNSEALED. -/
  | sealOpen
  /-- READ_ID (R453): Service command returning versions, hashes and counts. -/
  | readId (frame : List Byte)
  /-- READ_PARAM (R453): Service command returning a range of the parameter set. -/
  | readParam (frame : List Byte)
  /-- WRITE_PARAM (R455): Service command writing one part of the parameter set. -/
  | writeParam (frame : List Byte)
  /-- SEAL (R453): Service command moving UNSEALED to SEALED. -/
  | seal_ (frame : List Byte)
  /-- RESET_REGISTERS (R453): Service command zeroing the named points' registers. -/
  | resetRegisters (frame : List Byte)
  /-- CLEAR_LOG (R474): Service command emptying the metrology log. -/
  | clearLog (frame : List Byte)
  /-- READ_LOG (R453): Service command returning log records. -/
  | readLog (frame : List Byte)
  /-- MI_UNKNOWN_COMMAND (R452): A well-framed request with an unknown CMD is answered with FRAME_ERR. -/
  | miUnknownCommand (frame : List Byte)
  /-- SERVICE_BYTE_TIMEOUT (R452): Bytes of a service frame more than 10 ms apart discard the frame. -/
  | serviceByteTimeout (bytes : List Byte)
  /-- WRITE_PARAM_TIMEOUT (R453): A part 0 not followed by part 1 within 10 s is discarded. -/
  | writeParamTimeout
  /-- MAILBOX_UPDATE (R466): The main die stores a mailbox update from the die and sets ALIVE. -/
  | mailboxUpdate (bad : List Nat)
  /-- MAILBOX_SILENT (R466): No mailbox update within 1 s clears ALIVE. -/
  | mailboxSilent
  /-- KV_KEY_LOAD (R486): Loads a key in plain form into a slot. -/
  | kvKeyLoad (c : Cmd) (k : KvNew) (material aux : List Byte) (vouch : Option (Nat × List Byte))
  /-- KV_KEY_GENERATE (R486): Generates a key from the entropy source. -/
  | kvKeyGenerate (c : Cmd) (k : KvNew)
  /-- KV_KEY_DERIVE (R487): Derives a child key with the KDF. -/
  | kvKeyDerive (c : Cmd) (k : KvNew) (q : KvKdf)
  /-- KV_KEY_UNWRAP (R488): Unwraps a key blob under its parent. -/
  | kvKeyUnwrap (c : Cmd) (k : KvNew) (b : KvBlob)
  /-- KV_KEY_AGREE (R486): Derives a key from an ECDH agreement. -/
  | kvKeyAgree (c : Cmd) (k : KvNew) (peer : List Byte) (q : KvKdf)
  /-- KV_KEY_WRAP (R488): Wraps an exportable key into a blob. -/
  | kvKeyWrap (c : Cmd) (slot parent : Nat)
  /-- KV_KEY_PUBLIC (R508): Returns the public point of a slot. -/
  | kvKeyPublic (c : Cmd) (slot : Nat)
  /-- KV_KEY_RESTRICT (R491): Clears DEST bits of a key. -/
  | kvKeyRestrict (c : Cmd) (slot : Nat) (clear : BitVec 32)
  /-- KV_KEY_REVOKE (R495): Revokes the named slots and their descendants. -/
  | kvKeyRevoke (c : Cmd) (base : Nat) (mask : BitVec 64)
  /-- KV_KEY_ERASE (R497): Revokes and empties the named slots and descendants. -/
  | kvKeyErase (c : Cmd) (base : Nat) (mask : BitVec 64)
  /-- KV_KEY_INFO (R508): Returns the slot's fields except material and tag. -/
  | kvKeyInfo (c : Cmd) (slot : Nat)
  /-- KV_GCM (R500): Seals or opens with AES-GCM or GMAC. -/
  | kvGcm (c : Cmd) (q : KvGcm)
  /-- KV_HMAC (R508): Generates or verifies an HMAC. -/
  | kvHmac (c : Cmd) (slot : Nat) (sha384 : Bool) (verify : Option (List Byte)) (msg : List Byte)
  /-- KV_HASH (R508): Computes SHA-256 or SHA-384. -/
  | kvHash (c : Cmd) (sha384 : Bool) (msg : List Byte)
  /-- KV_SIGN (R499): Computes an ECDSA signature. -/
  | kvSign (c : Cmd) (slot : Nat) (hashed : Bool) (data : List Byte)
  /-- KV_VERIFY (R499): Verifies an ECDSA signature. -/
  | kvVerify (c : Cmd) (slot : Nat) (hashed : Bool) (data sig : List Byte)
  /-- KV_RANDOM (R501): Returns random bytes. -/
  | kvRandom (c : Cmd) (n : Nat)
  /-- KV_LC_ADVANCE (R480): Moves the life-cycle state forward, erases all slots and resets the device. -/
  | kvLcAdvance (c : Cmd) (target : Nat) (auth : List Byte)
  /-- KV_FW_SVN_RAISE (R504): Blows FW_SVN bits up to the running firmware's SVN. -/
  | kvFwSvnRaise (c : Cmd)
  /-- ENTROPY_HEALTH_FAIL (R501): An entropy health test fails and random output is refused. -/
  | entropyHealthFail
  /-- ENTROPY_RECOVERED (R501): 1,024 consecutive samples pass and random output resumes. -/
  | entropyRecovered
  /-- IM_STAGE_SHARES (R518): Stages PASID, apertures and shares per instance. -/
  | imStageShares (c : Cmd) (l : List (Nat × SharesCfg))
  /-- IM_STAGE_EVENTS (R534): Stages event routing. -/
  | imStageEvents (c : Cmd) (l : List (Fin 128 × EvRoute))
  /-- IM_INSTANCE_RESET (R525): Starts the reset of the named instances. -/
  | imInstanceReset (c : Cmd) (mask : BitVec 64)
  /-- IM_HOSTQ_SET (R517): Creates or removes one host queue. -/
  | imHostqSet (c : Cmd) (i : Nat) (j : Fin 16) (x : Option HostqCfg)
  /-- IM_INSTANCE_FREEZE (R526): Requests the freeze of an instance at the next frame boundary. -/
  | imInstanceFreeze (c : Cmd) (i : Nat)
  /-- IM_INSTANCE_SAVE (R527): Writes the sealed saved-state blob of a frozen instance. -/
  | imInstanceSave (c : Cmd) (i slot : Nat)
  /-- IM_INSTANCE_RESTORE (R530): Verifies a saved-state blob for a frozen instance. -/
  | imInstanceRestore (c : Cmd) (i : Nat) (blob : List Byte)
  /-- IM_INSTANCE_THAW (R531): Requests the return of a frozen instance to ACTIVE. -/
  | imInstanceThaw (c : Cmd) (i : Nat)
  /-- IM_INSTANCE_INFO (R535): Writes the instance's state, epoch, PASID, hash and shares. -/
  | imInstanceInfo (c : Cmd) (i : Nat)
  /-- RESET_END (R525): All work of a resetting instance has ended; the reply and reset-done event are written. -/
  | resetEnd (i : Nat)
  /-- FREEZE_BOUNDARY (R526): The freeze takes effect at the frame boundary and the reply is written. -/
  | freezeBoundary (i : Nat)
  /-- RESTORE_APPLY (R530): A verified blob is applied at the next frame boundary. -/
  | restoreApply (i : Nat)
  /-- THAW_BOUNDARY (R531): The instance returns to ACTIVE at the frame boundary with its saved run state. -/
  | thawBoundary (i : Nat)
  /-- HOSTQ_TAIL_WRITE (R517): An instance write of a host queue's TAIL posts descriptors. -/
  | hostqTailWrite (i : Nat) (j : Fin 16) (v : BitVec 16)
  /-- HOSTQ_DESCRIPTOR (R517): The DMA engine takes a descriptor, moves a packet and completes the descriptor. -/
  | hostqDescriptor (i : Nat) (j : Fin 16) (desc data : List Byte) (guard : Option GuardFind)
  /-- RESET_REQUEST_WRITE (R515): An instance writes IM_WIN_RESET_REQ and the manager is informed. -/
  | resetRequestWrite (i : Nat) (v : BitVec 32)
  /-- EVENT_MASK_WRITE (R583): A write to an event mask register; clearing a mask over a set bit sends one message. -/
  | eventMaskWrite (o : Nat) (k : Fin 4) (v : BitVec 32)
  /-- FUNCTION_LEVEL_RESET (R513): A function-level reset resets instances and destroys rings and host queues. -/
  | functionLevelReset
  /-- PERST_ASSERT (R598): PERST_N low takes the link down and acts as a function-level reset. -/
  | perstAssert
  /-- PA_STAGE_DOMAINS (R536): Stages mode and idle time of PD2–PD8. -/
  | paStageDomains (c : Cmd) (l : List (Fin 9 × DomainCfg))
  /-- PA_STAGE_DUIKER (R543): Stages tamper modes and WAKE_N pull-up within the current budget. -/
  | paStageDuiker (c : Cmd) (x : DuikerCfg)
  /-- PA_DOMAIN_WAKE (R563): PA_DOMAIN_CTRL wakes the named domains. -/
  | paDomainWake (c : Cmd) (mask : BitVec 64)
  /-- PA_DOMAIN_OFF (R563): PA_DOMAIN_CTRL switches the named domains off. -/
  | paDomainOff (c : Cmd) (mask : BitVec 64)
  /-- PA_DOMAIN_LOCK (R563): PA_DOMAIN_CTRL locks the named domains. -/
  | paDomainLock (c : Cmd) (mask : BitVec 64)
  /-- PA_DOMAIN_UNLOCK (R563): PA_DOMAIN_CTRL returns the named domains to their staged mode. -/
  | paDomainUnlock (c : Cmd) (mask : BitVec 64)
  /-- PA_SLEEP (R549): Requests sleep with a wake mask and an optional RTC alarm. -/
  | paSleep (c : Cmd) (mask : BitVec 16) (alarm : BitVec 48)
  /-- PA_RETAIN_READ (R563): Copies a range of the retained manager area. -/
  | paRetainRead (c : Cmd) (ofs len : Nat)
  /-- PA_RETAIN_WRITE (R547): Writes whole words of the retained manager area. -/
  | paRetainWrite (c : Cmd) (ofs : Nat) (data : List Byte)
  /-- PA_STARTUP_REPORT (R563): Writes the start-up status taken on one clock cycle. -/
  | paStartupReport (c : Cmd)
  /-- PA_TAMPER_CLEAR (R553): Clears the named latched tamper inputs. -/
  | paTamperClear (c : Cmd) (mask : BitVec 4)
  /-- SLEEP_STOP_BOUNDARY (R550): At the frame boundary after acceptance every owner enters STOP and RTC calibration starts. -/
  | sleepStopBoundary (rtc : BitVec 48)
  /-- RTC_CALIBRATION_DONE (R53): The 32,768-tick calibration ends; records, retention and reply are written and the domains go off. -/
  | rtcCalibrationDone (rtc : BitVec 48)
  /-- DOMAIN_IDLE_OFF (R538): An AUTO domain not in use reaches its idle time and is switched off. -/
  | domainIdleOff (n : Fin 9)
  /-- DOMAIN_DATA_ACCESS (R539): An access to the data memory of a domain that is off wakes it and stalls. -/
  | domainDataAccess (n : Fin 9) (need : PdNeed) (rq : Nat)
  /-- DOMAIN_ON (R539): A waking domain is on and its stalled accesses proceed. -/
  | domainOn (n : Fin 9)
  /-- PD2_WAKE_DONE (R540): PD2 is on and the fabric becomes READY. -/
  | pd2WakeDone
  /-- IO_SUPPLY_LOW (R542): The I/O supply falls below 1.62 V and the Duiker regulator enters low-power mode. -/
  | ioSupplyLow
  /-- IO_SUPPLY_HIGH (R542): The I/O supply rises above 1.70 V and the regulator enters normal mode. -/
  | ioSupplyHigh
  /-- DUIKER_BROWNOUT (R544): The Duiker domain browns out; the RTC restarts and retention is invalid. -/
  | duikerBrownout (c : SupplyCause)
  /-- BROWNOUT_RESET (R545): A monitored supply below threshold, or PWR_OK falling, resets the device and latches the cause. -/
  | brownoutReset (c : SupplyCause)
  /-- OPSECS_COPY (R548): Every 60 s PA copies the operating-time counter to MRAM. -/
  | opsecsCopy (rtc : BitVec 48)
  /-- WAKE_N_FALL (R551): WAKE_N falls and wakes the device or asserts PWR_REQ. -/
  | wakeNFall (rtc : BitVec 48)
  /-- RTC_ALARM (R551): The RTC alarm is reached and wakes the device or asserts PWR_REQ. -/
  | rtcAlarm (rtc : BitVec 48)
  /-- TAMPER_SAMPLE (R553): Every 125 ms a SAMPLED tamper input is sampled and latches if open. -/
  | tamperSample (k : Fin 4) (level : Bool) (rtc : BitVec 48)
  /-- TAMPER_LATCH (R553): A STATIC tamper input high for 100 µs latches. -/
  | tamperLatch (k : Fin 4) (rtc : BitVec 48)
  /-- POWER_GOOD (R554): PWR_OK rises and start-up begins. -/
  | powerGood (rtc : BitVec 48)
  /-- SECURE_BOOT_DONE (R502): Secure boot ends with SU firmware started or a recorded failure. -/
  | secureBootDone (a b : Option (List Byte))
  /-- DUIKER_RESTORE_DONE (R554): Phase 2 ends with retention checked, LT rebuilt or cold and counts updated. -/
  | duikerRestoreDone (rtc : BitVec 48)
  /-- DRAM_TRAINING_DONE (R554): Phase 3 ends with PD8 trained and scrubbing started. -/
  | dramTrainingDone (ok : Bool)
  /-- SU_READY (R554): Phase 4 ends with KV slots restored, the log open and the endpoint serving. -/
  | suReady (bad : List (Fin 1024 × Fin 13))
  /-- PACKAGE_LOADED (R555): Phase 5 ends when the boot package passes its checks, or both slots fail. -/
  | packageLoaded (heldOk : Bool)
  /-- POINT_STORE_BUILT (R403): Phase 6 ends with the store built, forces applied and PS READY. -/
  | pointStoreBuilt
  /-- PORTS_UP (R554): Phase 7 ends with the boot bank applied, domains in their modes and the fabric READY. -/
  | portsUp
  /-- LOCK_TIMEOUT (R554): The phase 10 lock timeout expires and start gates open. -/
  | lockTimeout
  /-- INSTANCES_START (R376): At the first frame boundary of phase 11 every owner enters its initial state. -/
  | instancesStart
  /-- THERM_TRIP (R609): The junction reaches 125 °C and THERM_TRIP_N goes low. -/
  | thermTrip
  /-- PMBUS_WRITE (R606): A write of GO with READ = 0 starts a PMBus write transaction. -/
  | pmbusWrite (addr : BitVec 7) (cmd : BitVec 8) (len : BitVec 3) (pec fast : Bool)
  /-- PMBUS_READ (R606): A write of GO with READ = 1 starts a PMBus read transaction. -/
  | pmbusRead (addr : BitVec 7) (cmd : BitVec 8) (len : BitVec 3) (pec fast : Bool)
  /-- PMBUS_DONE (R606): A PMBus transaction ends with DONE, NACK or PEC_ERR. -/
  | pmbusDone (nack : Bool) (data : List Byte)
  /-- PMBUS_TIMEOUT (R606): Clock stretching beyond 25 ms ends the transaction with TIMEOUT. -/
  | pmbusTimeout
  /-- BOR_CLEAR_WRITE (R562): A write of PA_BOR_CAUSE.CLEAR clears the brown-out latch. -/
  | borClearWrite
  /-- LOG_CLEAR_WRITE (R579): A write to SU_LOG_CLEAR starts a clear or is refused. -/
  | logClearWrite (v : BitVec 32)
  /-- LOG_CLEAR_DONE (R579): The log clear completes and CLEARING ends. -/
  | logClearDone
  /-- LOG_RECORD_WRITE (R577): SU writes a platform event log record after its occurrence. -/
  | logRecordWrite
  /-- SCRUB_READ (R570): A scrubber reads the next guard word of its memory and counts its finding. -/
  | scrubRead (r : Fin 16) (d : Fin 9) (words : Nat) (word : ScrubWord) (use : WordUse)
  /-- GERR_RECORD_POP (R573): A read of SU_GERR_RECW7 pops the oldest guard error record. -/
  | gerrRecordPop (rq : Nat) (wide : Bool)
  /-- PERST_N_RISE (R551): PERST_N rises: a device in sleep wakes with wake source 0x5, and PCIe link training starts once phase 1 has ended. -/
  | perstNRise (rtc : BitVec 48)
  /-- SEAL_CLOSE (R450): MI_SEAL_N is debounced low and the die sets SEAL_CLOSED, which SEAL needs to be accepted. -/
  | sealClose
  /-- ENGINE_SLOT (R498): A shared crypto engine enters its next fixed engine slot, runs the slot owner's request for that slot and completes the request when its last slot ends. -/
  | engineSlot (e : KvEngine)
  /-- DMA_READ_COMPLETION (R524): A PCIe completion for a DMA read arrives; a completion of an old tag epoch is discarded and counted in EPOCH_DISCARDS. -/
  | dmaReadCompletion (i : Nat) (epoch : BitVec 16)
  /-- ILLEGAL (R323): The engine reaches an instruction word with a reserved opcode, opcode 0x00 or a non-zero field that its format requires to be 0, and raises ILLEGAL. -/
  | illegal (x : TahrOp)
  /-- ACCESS_AT_FETCH (R328): The engine runs off the end of its owner's code region, or fetches a code word with an uncorrectable guard error, and raises the fault at the fetch. -/
  | accessAtFetch (x : TahrOp)
  /-- THERM_TRIP_N_HIGH (R609): The junction temperature falls below 125 °C and THERM_TRIP_N returns high. -/
  | thermTripNHigh
  deriving DecidableEq, Repr

end Sys2Proof
end

