-- ==== Sys2Proof/Config.lean ====
section
/-! DEFINITION. What the spec leaves open: free values without a body, so that no proof can see what they are, and the
constants an implementation fixes. -/

namespace Sys2Proof.Config

/-- The k-th free number drawn (log 2). -/
opaque freeNat : Nat → Nat

/-- The k-th free signed number drawn (log 2). -/
opaque freeInt : Nat → Int

/-- The length in bytes of an item in the parameter form of its staged opcode, which the spec does not lay out (log 7). -/
opaque itemLen : Item → Nat

/-- SHA-256 over the canonical sections of an owner's shares, code and points (R632): Tsuhehan's encoding is not in the
spec, so the hash is an unknown function of the items (log 8). -/
opaque configHash : List Item → BitVec 256

/-- The internal ingress and egress latency of a port in tu, fused per port, PHY type (which gives the speed) and FEC mode: the spec names
the fuses without values (R27, R99; log 114). -/
opaque ingressLatency : Nat → PhyType → Fec → Nat
opaque egressLatency : Nat → PhyType → Fec → Nat

/-- This clock's identity, source address, IP addresses and PCP in PTP messages, of which the spec says nothing (log 115). -/
opaque clockIdentity : BitVec 64
opaque ptpMac : Nat → BitVec 48
opaque ptpIp : BitVec 128
opaque ptpPcp : BitVec 3

/-- The clockClass advertised while LOCKED to a source that is not traceable, and in ACQUIRING after LOCKED has been reached and before: R37
states none (log 116). -/
opaque untracedClass : Nat
opaque acquiringClass : Bool → Nat

/-- Whether underflow judges a result tiny after rounding, which IEEE 754 leaves to the implementation (log 16). -/
opaque tininessAfter : Bool

/-- Whether 0 × ∞ + NaN raises invalid, which IEEE 754 leaves to the implementation (log 16). -/
opaque fmaInvalidNan : Bool

/-- Whether FCMPLT and FCMPLE raise invalid on a quiet NaN (log 16). -/
opaque compareSignals : Bool

/-- The engines' sine, cosine and arctangent of two operands: the spec gives bounds on their error, not their values (log 17). -/
opaque sin64 : BitVec 64 → BitVec 64
opaque cos64 : BitVec 64 → BitVec 64
opaque atan264 : BitVec 64 → BitVec 64 → BitVec 64

/-- Whether a division to nearest that lies halfway above this quotient is rounded up: the spec says no tie rule (log 31). -/
opaque tieUp : Int → Bool

/-- The error of the CIC's division by G, in units of 2^−60 of the gain, for N and D × M; R227 bounds it to 2^−40 (log 32). -/
opaque cicErr : Nat → Nat → Int

/-- Coefficients of the preset FIR tables and prototypes, of which R231 gives the length, the purpose and limits of the response
only (log 33). -/
opaque firPreset : Nat → Nat → Int
opaque protoPreset : Nat → Nat → Int

/-- What a 64-bit accumulator of FR yields where a sum does not fit it, of which R226 states no result (log 136). -/
opaque firOverflow : Int → Int

/-- 0.1 % of full scale of a PE channel, whose full scale the spec does not give (log 34). -/
opaque peMinMag : Nat → BitVec 64

/-- The code of the time since the servo last left LOCKED, where it has not been LOCKED yet (log 137). -/
opaque neverLocked : BitVec 2

/-- The fused internal latency L_int of a FAST_EDGE input in tu, and its fused nominal bin widths in 2^−6 tu: the spec names them without
values (log 40). -/
opaque tdcLatency : Nat → Nat
opaque tdcNominal : Nat → Nat → Nat

/-- Fields of the IP and UDP headers that the spec leaves to their standards: identification, flags and TTL in one, and the UDP checksum of
a datagram (log 30). -/
opaque ipFields : BitVec 40
opaque udpChecksum : List (BitVec 8) → BitVec 16

/-- Fields of a CFG frame that the spec leaves to C37.118.2: names and masks of digital words, and the configuration change count (log 37). -/
opaque c37Digital : Nat → Nat → BitVec 128
opaque c37CfgCount : Nat → BitVec 16

/-- SHA-256 (R454, R487); what it computes is FIPS 180-4's and not the spec's (log 56). -/
opaque sha256 : List (BitVec 8) → BitVec 256

/-- SHA-384, HMAC-SHA-256 and HMAC-SHA-384 of a key and a message (log 56). -/
opaque sha384 : List (BitVec 8) → BitVec 384
opaque hmac256 : List (BitVec 8) → List (BitVec 8) → BitVec 256
opaque hmac384 : List (BitVec 8) → List (BitVec 8) → BitVec 384

/-- AES-GCM: byte n of the key stream of a key and IV, and the tag over additional data and ciphertext (log 56). -/
opaque gcmStream : List (BitVec 8) → BitVec 96 → Nat → BitVec 8
opaque gcmTag : List (BitVec 8) → BitVec 96 → List (BitVec 8) → List (BitVec 8) → BitVec 128

/-- ECDSA over P-256, or with true P-384: r ‖ s of a private key, a hash and a nonce; whether a public key verifies a hash and a signature
(log 56). -/
opaque ecdsaSign : Bool → List (BitVec 8) → List (BitVec 8) → Nat → BitVec 768
opaque ecdsaVerify : Bool → List (BitVec 8) → List (BitVec 8) → List (BitVec 8) → Bool

/-- The public point x ‖ y of a private key, and the x-coordinate ECDH gives with a peer's point (log 56). -/
opaque publicPoint : Bool → List (BitVec 8) → BitVec 768
opaque ecdhX : Bool → List (BitVec 8) → List (BitVec 8) → BitVec 384

/-- The fused device-unique secret, which no register, opcode or output returns, and the four firmware-signing public keys whose SHA-384 the fuses
hold as FWKEY_HASH0–3 (R476; log 148). -/
opaque dus : BitVec 256
opaque fwKey : Nat → BitVec 768

/-- JTAG (R607; log 158): the length of the instruction register and what its codes select, 1 BYPASS, 2 IDCODE, 3 boundary scan, 4 and above debug;
the lengths of the boundary-scan and debug chains; the manufacturer's identity and the version number of a stepping in IDCODE. -/
opaque jtagIrLen : Nat
opaque jtagCode : List Bool → Nat
opaque jtagChain : Nat → Nat
opaque jtagMaker : BitVec 11
opaque jtagVersion : BitVec 16 → BitVec 4

/-- The boot flash as its JESD216 table declares it (R604; log 159): the highest XSPI_CLK frequency in 8D-8D-8D in MHz, and the size of the device
on XSPI_CS_N[0] in bytes. -/
opaque flashMhz : Nat
opaque flashSize : Nat

/-- MI_FW_VERSION, FW_HASH, and the PARAM_HASH shown while no set is in force (R454, R468; log 57). -/
opaque miFwVersion : BitVec 32
opaque miFwHash : BitVec 256
opaque miNoHash : BitVec 256

end Sys2Proof.Config
end

