-- ==== Sys2Proof/Machine/State.lean ====
section
/-! DEFINITION. The state of the block: every register, queue, buffer, counter, mode and pin the spec gives it, as plain
data, with the queue of waiting commands. Every field's default is its value right after reset. -/

namespace Sys2Proof.Machine

set_option autoImplicit false

/-- The nominal increment of R19: 131,072 tu per tick, fraction 0. -/
def nominalRate : BitVec 64 := 131072 * 4294967296

/-- The destination code a compare unit has at reset (R42, R627). -/
def tcuDest (n : Nat) : BitVec 8 :=
  if n ≤ 4 then BitVec.ofNat 8 (n + 1)
  else if n ≤ 7 then 0
  else if n ≤ 11 then BitVec.ofNat 8 (0x10 + (n - 8))
  else if n ≤ 19 then BitVec.ofNat 8 (0x18 + (n - 12))
  else 0

/-- One compare unit TCU0–TCU31 (R39–R44, R57). -/
structure Tcu where
  /-- EN, unit armed, 1 bit (R57). -/
  en : Bool := false
  /-- MODE: one-shot or periodic, 1 bit (R57). -/
  periodic : Bool := false
  /-- LATE, W1C (R57). -/
  late : Bool := false
  /-- FIRED, W1C (R57). -/
  fired : Bool := false
  /-- DEST code of R627, fixed for TCU0–TCU19 (tcuDest) (R57). -/
  dest : BitVec 8 := 0
  /-- OWNER tag of the unit (R57). -/
  owner : Tag := 0
  /-- TB_TCUn_TARGET, 64 bits; the spec gives no reset value: DESIGN CHOICE 0 (log 4) (R57). -/
  target : LT := 0
  /-- TB_TCUn_PERIOD bits 62:0; no reset value given: DESIGN CHOICE 0 (log 4) (R40). -/
  period : BitVec 63 := 0
  /-- LT of the arming, where the target was already reached then: the unit fires from the next tick on (R41). -/
  heldAt : Option LT := none
  deriving DecidableEq, Repr

/-- One capture unit TCC0–TCC15 (R45–R47). -/
structure Tcc where
  /-- four-entry FIFO, oldest first (R45). -/
  fifo : List LT := []
  /-- TB_TCCn_STAT.OVF, W1C (R47). -/
  ovf : Bool := false
  /-- active edge in force; no default given: DESIGN CHOICE rising (log 4) (R45). -/
  edge : EdgeSel := .rising
  /-- the edge last recorded, as a count of tu that does not wrap (log 112) (R45). -/
  lastEdge : Option Int := none
  deriving DecidableEq, Repr

/-- One transmit timestamp entry (R51). -/
structure TxtsEntry where
  /-- W0, W1 (R51). -/
  lt : LT := 0
  /-- W2.ID (R51). -/
  id : BitVec 12 := 0
  /-- W2.GAP (R51). -/
  gap : Bool := false
  /-- W3.SEQ_ID (R51). -/
  seqId : BitVec 16 := 0
  /-- W3.MSG_TYPE (R51). -/
  msgType : BitVec 4 := 0
  /-- W3.IS_PTP (R51). -/
  isPtp : Bool := false
  deriving DecidableEq, Repr

/-- The transmit timestamp queue of one port (R50–R52). -/
structure Txts where
  /-- sixteen-entry queue, oldest first (R50). -/
  fifo : List TxtsEntry := []
  /-- the next accepted entry carries GAP (R52). -/
  gapNext : Bool := false
  /-- TB_TXTS_LOST_Pn, RC (R52). -/
  lost : BitVec 32 := 0
  deriving DecidableEq, Repr

/-- One PPS_OUT or TB_OUT pin (R44). -/
structure PinOut where
  /-- pin level; pins stay low in FREERUN without TAI (R44). -/
  level : Bool := false
  /-- instant at which the staged pulse width expires (R44). -/
  fallAt : Option LT := none
  deriving DecidableEq, Repr

/-- A Delay_Req or Pdelay_Req that SU answers (R31). -/
structure PtpRequest where
  /-- sequenceId (R31). -/
  seq : BitVec 16 := 0
  /-- sourcePortIdentity of the requester (R31). -/
  source : BitVec 80 := 0
  /-- receive time as TAI in tu (R31). -/
  rx : Int := 0
  /-- correctionField (R25). -/
  correction : Int := 0
  /-- a Pdelay_Req (R31). -/
  peer : Bool := false
  deriving DecidableEq, Repr

/-- The residence time of an event message that went through a two-step port of the transparent clock (R33). -/
structure Residence where
  /-- sourcePortIdentity of the message (R33). -/
  source : BitVec 80 := 0
  /-- sequenceId (R33). -/
  seq : BitVec 16 := 0
  /-- messageType of the follow-up it is for (R33). -/
  type : Nat := 0
  /-- residence time in tu (R33). -/
  tu : Nat := 0
  deriving DecidableEq, Repr

/-- What SU holds for one PTP port (R31). -/
structure PtpPort where
  /-- port state of the state machine SU runs (R31). -/
  state : PtpState := .disabled
  /-- the best Announce data set last received on the port (R31). -/
  announce : Option Announce := none
  /-- reported PTP-disabled because event messages are MACsec-protected (R30). -/
  disabledMacsec : Bool := false
  /-- sequenceId of the next Sync, Delay_Req, Pdelay_Req and Announce; DESIGN CHOICE 0 (log 4) (R33). -/
  txSeq : Vector (BitVec 16) 4 := .replicate 4 0
  /-- requests received and not yet answered, oldest first (R31). -/
  requests : List PtpRequest := []
  /-- peer requests answered, until the response has left, or in two-step mode its follow-up (R33). -/
  answered : List PtpRequest := []
  /-- residence times waiting for the follow-up of their message (R33). -/
  residence : List Residence := []
  /-- SU's own timestamp queue, for frames SU generates for PTP (R50). -/
  suTxts : List TxtsEntry := []
  /-- two-step Sync waiting for its Follow_Up: sequenceId, receive time as TAI in tu, correctionField (R33). -/
  syncRx : Option (BitVec 16 × Int × Int) := none
  /-- own Delay_Req or Pdelay_Req in flight: sequenceId and transmit time as TAI in tu (R31). -/
  delayTx : Option (BitVec 16 × Int) := none
  /-- two-step Pdelay_Resp waiting for its follow-up: sequenceId, t2, t4, correctionField (R31). -/
  pdelayRx : Option (BitVec 16 × Int × Int × Int) := none
  /-- meanPathDelay or mean link delay in tu; DESIGN CHOICE 0 until measured (log 4) (R31). -/
  meanDelay : Int := 0
  /-- receive time less origin and correction of the last Sync, in tu (R31). -/
  syncDiff : Int := 0
  /-- the offset measurement not yet taken by the servo, in tu (R31). -/
  measured : Option Int := none
  deriving DecidableEq, Repr

/-- IRIG and PPS qualification (R48, R49). -/
structure Irig where
  /-- successive good frames that agree (R49). -/
  good : Nat := 0
  /-- successive faults (R49). -/
  faults : Nat := 0
  /-- IRIG with PPS qualifies as a source (R49). -/
  qualified : Bool := false
  /-- time of the last decoded frame, in seconds, for agreement (R49). -/
  lastTime : Option Int := none
  /-- the offset measurement of the last good frame not yet taken by the servo, in tu (R49). -/
  measured : Option Int := none
  /-- the control functions last decoded (R48). -/
  ext : IrigExt := {}
  deriving DecidableEq, Repr

/-- TB_PORT_LAT_Pn (R28, R621). -/
structure PortLat where
  /-- ingress latency in tu, signed (R28). -/
  ingress : BitVec 32 := 0
  /-- egress latency in tu, signed (R28). -/
  egress : BitVec 32 := 0
  /-- delayAsymmetry in tu, signed (R28). -/
  asym : BitVec 32 := 0
  /-- external PHY uncertainty in ns (R28). -/
  phyUnc : BitVec 32 := 0
  deriving DecidableEq, Repr

/-- Time Base (chapter 01). -/
structure TbState where
  /-- linear-time accumulator: LT in bits 95:32, fraction of a tu in 31:0; 0 at cold power-up (R21). -/
  acc : BitVec 96 := 0
  /-- how often LT has wrapped: with LT a count of tu that does not wrap, the model's own (log 112) (R10). -/
  wraps : Nat := 0
  /-- TB_LT_RATE; nominal increment 131,072 tu, fraction 0 (R19). -/
  rate : BitVec 64 := nominalRate
  /-- anchor LT_A (R23). -/
  ltA : LT := 0
  /-- anchor TAI_A seconds; no value before the first mapping: DESIGN CHOICE 0 (log 4) (R23). -/
  taiS : BitVec 48 := 0
  /-- anchor TAI_A nanoseconds (R23). -/
  taiNs : BitVec 32 := 0
  /-- anchor TAI_A fraction in tu (R23). -/
  taiFr : BitVec 16 := 0
  /-- TB_STATUS.SERVO_STATE 3:0 (R56). -/
  servo : Servo := .freerun
  /-- TB_STATUS.SOURCE 7:4 (R56). -/
  source : Source := .none
  /-- TB_STATUS.TAI_VALID (R21). -/
  taiValid : Bool := false
  /-- TB_STATUS.LT_UNCERTAIN (R54). -/
  ltUncertain : Bool := false
  /-- TB_STATUS.LEAP61 (R631). -/
  leap61 : Bool := false
  /-- TB_STATUS.LEAP59 (R631). -/
  leap59 : Bool := false
  /-- TB_STATUS.TIME_STEP, W1C (R24). -/
  timeStep : Bool := false
  /-- TB_STATUS.TXTS_OVF, W1C (R52). -/
  txtsOvf : Bool := false
  /-- TB_STATUS.TCU_LATE, W1C (R56). -/
  tcuLate : Bool := false
  /-- TB_STATUS.TCC_OVF, W1C (R47). -/
  tccOvf : Bool := false
  /-- TB_STATUS.IRIG_ERR, W1C (R49). -/
  irigErr : Bool := false
  /-- TB_STATUS.PPS_MISSING, W1C (R49). -/
  ppsMissing : Bool := false
  /-- TB_STATUS.SLAVE_PORT, 0xF if none (R56). -/
  slavePort : BitVec 4 := 0xF
  /-- TB_TXTS_OVF_PORTS, W1C (R52). -/
  txtsOvfPorts : BitVec 14 := 0
  /-- filtered offset in tu (R35). -/
  offset : Int := 0
  /-- successive servo updates within the lock threshold (R35). -/
  within : Nat := 0
  /-- LOCKED reached since the last start-up (R35). -/
  everLocked : Bool := false
  /-- LT at which the running loss timeout expires (R35). -/
  lossAt : Option LT := none
  /-- E_lock: filtered offset magnitude at the loss, ns (R36). -/
  eLock : Nat := 0
  /-- TAI in tu of the entry to HOLDOVER (TB_HOLDOVER_SECS counts from it) (R36). -/
  holdTai : Int := 0
  /-- spans of tu spent LOCKED with the increment of each, newest first, of which the last 64 s give the mean (R35). -/
  lockedRates : List (Nat × BitVec 64) := []
  /-- LT from which the present increment is in force (R35). -/
  rateSince : LT := 0
  /-- when TIME_STEP last occurred, in tu since LT 0 (R298). -/
  lastStep : Option Nat := none
  /-- when the servo last left LOCKED, in tu since LT 0 (for STAT bits 5:4 of R266); none: it has not been LOCKED. -/
  leftLockedAt : Option Nat := none
  /-- currentUtcOffset in use, signed (R631). -/
  utcOffset : BitVec 16 := 0
  /-- LT of the last servo update (R35). -/
  measuredAt : LT := 0
  /-- when currentUtcOffset last changed by one second, and whether by a deletion (R266). -/
  leapAt : Option (LT × Bool) := none
  /-- a received currentUtcOffset is in use (R631). -/
  utcReceived : Bool := false
  /-- the value in use was carried across a sleep (R631). -/
  utcCarried : Bool := false
  /-- currentUtcOffset is known (R631). -/
  utcKnown : Bool := false
  /-- TB_LT_UNCERT in ns (R54). -/
  ltUncert : BitVec 32 := 0
  /-- compare units (R42). -/
  tcu : Vector Tcu 32 := .ofFn fun n => { dest := tcuDest n.val }
  /-- capture units (R46). -/
  tcc : Vector Tcc 16 := .replicate 16 {}
  /-- transmit timestamp queues of P0–P13 (R50). -/
  txts : Vector Txts 14 := .replicate 14 {}
  /-- PPS_OUT0–3 (0–3) and TB_OUT0–7 (4–11) (R44). -/
  pins : Vector PinOut 12 := .replicate 12 {}
  /-- last phase-alignment edge of CNV_CLK0–3 (R274). -/
  cnvAlign : Vector LT 4 := .replicate 4 0
  /-- PTP ports (R31). -/
  ptp : Vector PtpPort 14 := .replicate 14 {}
  /-- IRIG and PPS qualification (R49). -/
  irig : Irig := {}
  /-- PTP settings in force (R58). -/
  cfg : PtpCfg := {}
  /-- source settings in force (R58). -/
  src : SourcesCfg := {}
  /-- TB_PORT_LAT_P0–P13 in force (R28). -/
  lat : Vector PortLat 14 := .replicate 14 {}
  /-- pin and capture-edge settings in force (R44). -/
  pinCfg : PinCfg := {}
  /-- assignments of TCU20–TCU31 in force (R42). -/
  assign : Vector TcuAssign 12 := .replicate 12 {}
  /-- the PTP slave port qualifies as a source (R34). -/
  ptpQualified : Bool := false
  /-- the best master selected by SU (R31). -/
  gm : Option Announce := none
  deriving DecidableEq, Repr

/-- A command accepted whose reply comes later (R65). -/
structure Waiting where
  /-- the command (R65). -/
  cmd : Cmd := {}
  /-- its opcode (R69). -/
  opcode : BitVec 16 := 0
  deriving DecidableEq, Repr

/-- One reply entry as SU writes it (R69, R70). -/
structure ReplyRec where
  /-- ring pair (R69). -/
  ring : RingId := .m 0
  /-- command index; RING_IDX is its low byte (R69). -/
  idx : BitVec 16 := 0
  /-- OPCODE (R69). -/
  opcode : BitVec 16 := 0
  /-- SEQ (R69). -/
  seq : BitVec 32 := 0
  /-- STATUS, RESULT0, RESULT1, DETAIL, SUBSYS, result buffer (R69). -/
  body : ReplyBody := {}
  /-- PHASE (R70). -/
  phase : Bool := false
  deriving DecidableEq, Repr

/-- One command and reply ring pair (R59–R64). -/
structure Ring where
  /-- EN; for an instance ring, it exists (R62). -/
  en : Bool := false
  /-- ERR, W1C (R62). -/
  err : Bool := false
  /-- VECTOR (R62). -/
  vector : BitVec 11 := 0
  /-- command ring base, bits 11:0 read 0 (R61). -/
  cbase : BitVec 64 := 0
  /-- reply ring base, bits 11:0 read 0 (R61). -/
  rbase : BitVec 64 := 0
  /-- log2 of the number of entries (R61). -/
  size : BitVec 4 := 0
  /-- TAIL (R61). -/
  tail : BitVec 16 := 0
  /-- HEAD (R61). -/
  head : BitVec 16 := 0
  /-- RELEASE (R61). -/
  release : BitVec 16 := 0
  /-- fetching stopped by an index error, a destroy or a failed enable (R64). -/
  stopped : Bool := false
  /-- indices fetched but unreplied, oldest first; IDLE is its emptiness (R62). -/
  inflight : List (BitVec 16) := []
  /-- those of them that are accepted SU_COMMITs without ASYNC, which hold no later command (R65). -/
  commits : List (BitVec 16) := []
  /-- commands handed on and not yet started, each with its opcode, oldest first (R65). -/
  dispatch : List (Cmd × BitVec 16) := []
  /-- SU_RING_DESTROY commands that wait for the fetched commands (R77). -/
  destroy : List Waiting := []
  deriving DecidableEq, Repr

/-- One owner's session (R79–R81). -/
structure Session where
  /-- CLOSED, OPEN, CHECKED or ARMED (R80). -/
  state : SessState := .closed
  /-- session identifier (R79). -/
  id : BitVec 16 := 0
  /-- staged items, at most one per key (R81). -/
  staged : List Item := []
  /-- bytes staged (R633). -/
  bytes : Nat := 0
  /-- an SU_STAGE_CHECK has run in this session (R633). -/
  checkRun : Bool := false
  /-- failing checks of the last SU_STAGE_CHECK (R633). -/
  failing : List CheckFail := []
  /-- DROP_FORCES recorded in the checked state (R83). -/
  dropForces : Bool := false
  /-- (subsystem, section kind, owner) whose items the staged package replaces (R94). -/
  replace : List (Nat × Nat × Tag) := []
  /-- the session holds exactly the staged package of this identifier (R94). -/
  package : Option (BitVec 64) := none
  deriving DecidableEq, Repr

/-- The ARMED commit (R84–R87). -/
structure ArmedCommit where
  /-- owner of the committing session (R84). -/
  owner : Tag := 0
  /-- commit instant T (R84). -/
  t : LT := 0
  /-- the SU_COMMIT (R87). -/
  cmd : Cmd := {}
  /-- PERSIST (R94). -/
  persist : Bool := false
  /-- with PERSIST, the package that the session holds exactly (R94, R96). -/
  package : Option Package := none
  /-- items distributed into the shadow banks (R85). -/
  items : List Item := []
  /-- active items that a staged package no longer holds, and which return to reset (R94). -/
  removed : List Item := []
  /-- session identifier (R576). -/
  sid : BitVec 16 := 0
  /-- its instance has been reset since: no reply and no event (R525). -/
  silent : Bool := false
  deriving DecidableEq, Repr

/-- Configuration packages (R90–R96). -/
structure PkgState where
  /-- the verified package SU holds (R93). -/
  held : Option Package := none
  /-- a package under verification or flash write (R93). -/
  loading : Option (Package × PkgJob × Waiting) := none
  /-- STORE of the load in progress (R93). -/
  loadStore : Bool := false
  /-- xSPI flash slots A and B; content is not given at reset: DESIGN CHOICE empty (log 4) (R90). -/
  flash : Vector (Option Package) 2 := .replicate 2 none
  /-- the held package was stored with STORE and its write has completed (R94). -/
  stored : Bool := false
  /-- boot selector in MRAM: false slot A, true slot B; no first value given: DESIGN CHOICE A (log 4) (R96). -/
  bootSel : Bool := false
  /-- minimum generation in MRAM; no first value given: DESIGN CHOICE 0 (log 4) (R93). -/
  genMin : BitVec 32 := 0
  /-- the package that booted (R96). -/
  booted : Option Package := none
  /-- intent record without an applied record, in the platform log in MRAM (R96). -/
  intent : Option (BitVec 64) := none
  /-- PERSIST commit applied, boot selector not yet written: package, T, session identifier, items (R96). -/
  persistDue : Option (Package × LT × BitVec 16 × Nat) := none
  deriving DecidableEq, Repr

/-- Supervisor: rings, sessions, commit, packages (chapter 02). -/
structure SuState where
  /-- MRING0–MRING3 (R60). -/
  mring : Vector Ring 4 := .replicate 4 {}
  /-- instance ring pairs that exist, by (instance, 0–1) (R60). -/
  iring : Tab (Nat × Nat) Ring := []
  /-- commands whose reply is outstanding, and replies held until those of earlier commands of their ring to their subsystem are written, oldest first (R65). -/
  order : List (Waiting × Option ReplyBody) := []
  /-- ring other than MRING0 last served in round robin (R66). -/
  rrLast : Option RingId := none
  /-- MRING0 was started last, so another ring is due (R66). -/
  m0Turn : Bool := false
  /-- sessions by owner (0 manager, 1–64 instances); an owner not listed is CLOSED (R79). -/
  sessions : Tab Nat Session := []
  /-- next session identifier; the first value is not given: DESIGN CHOICE 1 (log 4) (R79). -/
  sessNext : BitVec 16 := 1
  /-- the one ARMED commit (R84). -/
  armed : Option ArmedCommit := none
  /-- bank resynchronisation runs (R87). -/
  resync : Bool := false
  /-- items whose subsystems the resynchronisation affects (R81). -/
  resyncItems : List Item := []
  /-- active bank: every item in force that differs from reset, at most one per key (R82). -/
  active : List Item := []
  /-- configuration packages (R93). -/
  pkg : PkgState := {}
  /-- replies written and not yet released, newest first (R69). -/
  replies : List ReplyRec := []
  deriving DecidableEq, Repr

/-- A frame in transmission on a port (R113). -/
structure TxFrame where
  /-- the frame as it leaves the port (R113). -/
  frame : Frame := {}
  /-- its descriptor requested a timestamp (R119). -/
  tsReq : Bool := false
  /-- LT of its start (R113). -/
  started : LT := 0
  /-- protected by MACsec (R119). -/
  secTx : Bool := false
  /-- key slot of the SA that protects it (R127). -/
  slot : BitVec 16 := 0
  deriving DecidableEq, Repr

/-- One installed MACsec SA with the core's copy of its key (R127). -/
structure SaState where
  /-- KV key slot of the SAK (R127). -/
  slot : BitVec 16 := 0
  /-- the SAK (R127). -/
  key : List Byte := []
  /-- SSCI, for XPN (R127). -/
  ssci : BitVec 32 := 0
  /-- salt, for XPN (R127). -/
  salt : BitVec 96 := 0
  /-- the next PN to send, or one above the highest PN received (R126, R129). -/
  pn : Nat := 1
  /-- the lowest PN that replay protection accepts, as installed or moved up by the window (R126, R132). -/
  low : Nat := 1
  /-- its PN has reached the threshold (R129). -/
  thrHit : Bool := false
  /-- LT at which its key was revoked or erased: the copy is purged at the end of the frame then in progress (R127). -/
  purgeAt : Option LT := none
  /-- LT at which its slot's key was replaced, and the key, SSCI and salt before (R494). -/
  was : Option (LT × List Byte × BitVec 32 × BitVec 96) := none
  deriving DecidableEq, Repr

/-- One Ethernet port P0–P13 (R97–R131). -/
structure PxPort where
  /-- PX_PORTn_CFG, MAXF, PCPMAP as in force (R131). -/
  cfg : PortCfg := {}
  /-- address entries (R109). -/
  entries : Vector AddrEntry 32 := .replicate 32 {}
  /-- HITS, RC, saturating (R110). -/
  hits : Vector (BitVec 32) 32 := .replicate 32 0
  /-- LINK_UP (R131). -/
  linkUp : Bool := false
  /-- PCS_LOCK (R131). -/
  pcsLock : Bool := false
  /-- FEC_LOCK (R131). -/
  fecLock : Bool := false
  /-- LINK_CHG, W1C (R131). -/
  linkChg : Bool := false
  /-- RX_BAD, W1C (R131). -/
  rxBad : Bool := false
  /-- TX_OVERSIZE, W1C (R131). -/
  txOversize : Bool := false
  /-- PN_THRESH, W1C (R131). -/
  pnThresh : Bool := false
  /-- LT at which the pause timer reaches zero; PAUSED is its presence (R115). -/
  pauseEnd : Option LT := none
  /-- LT up to which the present pause is counted in TX_PAUSED_QUANTA (R119). -/
  pauseFrom : LT := 0
  /-- the part of a quantum spent paused and not yet counted, in units of 2^-16 bit times (R119). -/
  pausedRem : Nat := 0
  /-- the fault sequence being received (R98). -/
  rxFault : RsFault := .none
  /-- the 48 statistics counters, RC (R118). -/
  ctr : Vector (BitVec 64) 48 := .replicate 48 0
  /-- the frame in transmission (R113). -/
  txBusy : Option TxFrame := none
  /-- MACsec settings in force (R126). -/
  macsec : MacsecCfg := {}
  /-- transmit SAs by AN (R127). -/
  txSa : Tab Nat SaState := []
  /-- receive SAs by (channel, AN) (R127). -/
  rxSa : Tab (Nat × Nat) SaState := []
  /-- transmit AN; no reset given: DESIGN CHOICE 0 (log 4) (R127). -/
  txAn : BitVec 2 := 0
  deriving DecidableEq, Repr

/-- One duplicate-discard entry (R123). -/
structure DdtEntry where
  /-- source address (R123). -/
  src : Mac := 0
  /-- sequence number (R123). -/
  seq : BitVec 16 := 0
  /-- path identifier, in HSR (R123). -/
  path : BitVec 4 := 0
  /-- forget time (R123). -/
  forgetAt : LT := 0
  deriving DecidableEq, Repr

/-- One RedBox proxy entry (R124). -/
structure ProxyEntry where
  /-- learned address (R124). -/
  mac : Mac := 0
  /-- ageing instant (R124). -/
  expires : LT := 0
  deriving DecidableEq, Repr

/-- One redundancy pair: A P2/P3, B P4/P5 (R120–R125). -/
structure PairState where
  /-- mode, role, forget time, LifeCheckInterval in force (R120). -/
  cfg : RedCfg := {}
  /-- sequence counter shared by both copies; no first value given: DESIGN CHOICE 0 (log 4) (R121). -/
  seqNo : BitVec 16 := 0
  /-- sequence of supervision frames; no first value given: DESIGN CHOICE 0 (log 4) (R125). -/
  supSeq : BitVec 16 := 0
  /-- LT of the last supervision transmission (R125). -/
  supAt : LT := 0
  /-- duplicate-discard table, oldest first, 4,096 entries maximum (R123). -/
  ddt : List DdtEntry := []
  /-- frames whose LAN B copy came first on the clock cycle of their LAN A copy, which is still to be taken (R125). -/
  tied : List (Mac × BitVec 16 × BitVec 4) := []
  /-- HSR copies already forwarded, by outgoing port, oldest first (R122). -/
  ringSeen : List (Nat × DdtEntry) := []
  /-- frames waiting for ring forwarding, by outgoing port, oldest first, with their receive timestamps (R122). -/
  ringQ : List (Nat × Frame × LT) := []
  /-- proxy table, 512 entries maximum (R124). -/
  proxy : List ProxyEntry := []
  /-- SU's node table: last supervision frame of each node (R125). -/
  nodes : Tab Mac LT := []
  deriving DecidableEq, Repr

/-- One forwarding-database entry (R158). -/
structure FdbEntry where
  /-- address (R158). -/
  mac : Mac := 0
  /-- VLAN ID (R158). -/
  vid : BitVec 12 := 0
  /-- destination mask (R158). -/
  mask : BitVec 16 := 0
  /-- STATIC (R158). -/
  static : Bool := false
  /-- ageing instant of a dynamic entry (R158). -/
  expires : LT := 0
  deriving DecidableEq, Repr

/-- The settings of PX and SW before the last commit, for frames whose first byte came before it (R88, R112, R181). -/
structure NetBank where
  /-- T of that commit (R88). -/
  t : LT := 0
  /-- PX_STAGE_PORT settings (R131). -/
  cfg : Vector PortCfg 14 := .replicate 14 {}
  /-- address entries (R109). -/
  entries : Vector (Vector AddrEntry 32) 14 := .replicate 14 (.replicate 32 {})
  /-- MACsec settings (R126). -/
  macsec : Vector MacsecCfg 14 := .replicate 14 {}
  /-- receive SAs (R127). -/
  rxSa : Vector (Tab (Nat × Nat) SaState) 14 := .replicate 14 []
  /-- pair settings (R120). -/
  red : Vector RedCfg 2 := .replicate 2 {}
  /-- queue limits (R166). -/
  limits : Tab (Nat × Nat) LimitsCfg := []
  /-- VLAN masks (R159). -/
  vlan : Tab Nat VlanCfg := []
  /-- hold times, learning, ageing, SEED (R181). -/
  ports : SwPortsCfg := {}
  /-- mirror selection (R176). -/
  mirror : MirrorCfg := {}
  /-- static forwarding entries (R158). -/
  static : List FdbEntry := []
  deriving DecidableEq, Repr

/-- Port Complex (chapter 03, R619). -/
structure PxState where
  /-- PX_STATUS.READY (R619). -/
  ready : Bool := false
  /-- PX_STATUS.LINK_CHG, W1C (R619). -/
  linkChg : Bool := false
  /-- PX_STATUS.RX_BAD, W1C (R619). -/
  rxBad : Bool := false
  /-- PX_STATUS.TX_OVERSIZE, W1C (R619). -/
  txOversize : Bool := false
  /-- PX_STATUS.PN_THRESH, W1C (R619). -/
  pnThresh : Bool := false
  /-- PX_STATUS.PROXY_FULL, W1C (R619). -/
  proxyFull : Bool := false
  /-- P0–P13 (R97). -/
  port : Vector PxPort 14 := .replicate 14 {}
  /-- pairs A and B (R120). -/
  pair : Vector PairState 2 := .replicate 2 {}
  /-- PX_TAP_SELk, written only by the metrology die; no reset given: DESIGN CHOICE unused (log 4) (R130). -/
  tapSel : Vector TapSel 16 := .replicate 16 {}
  /-- copies on the one-way path towards the metrology die, oldest first, with receive timestamp and tag (R130). -/
  tapLink : List (Frame × LT × Tag) := []
  /-- the settings before the last commit (R88). -/
  old : Option NetBank := none
  deriving DecidableEq, Repr

/-- One frame copy admitted to a fabric queue (R162–R173). -/
structure Copy where
  /-- the frame as it crosses the fabric, ECN mark included (R160). -/
  frame : Frame := {}
  /-- which received frame it is a copy of (R168). -/
  fid : Nat := 0
  /-- ingress fabric port (R157). -/
  inPort : Nat := 0
  /-- receive status word (R107). -/
  rxStatus : BitVec 16 := 0
  /-- class (R112). -/
  cls : Nat := 0
  /-- cells held (R160). -/
  cells : Nat := 0
  /-- admission instant (R172). -/
  admitted : LT := 0
  /-- receive timestamp (R26). -/
  rxLt : LT := 0
  /-- intermediate m (R163). -/
  mid : Nat := 0
  /-- the mask had two or more bits (R177). -/
  multicast : Bool := false
  /-- ECN_MARKED (R170). -/
  ecn : Bool := false
  /-- LT at which its last cell crosses stage 1 (R161, R169). -/
  cross1 : LT := 0
  /-- QM has opened its packet (R186). -/
  opened : Bool := false
  /-- its last cell has crossed stage 2 and it is in the transmit queue (R162). -/
  queued : Bool := false
  /-- TS_REQ of the descriptor (R191). -/
  tsReq : Bool := false
  /-- TS_ID of the descriptor (R191). -/
  tsId : BitVec 12 := 0
  /-- owner of the packet it came from (R184). -/
  owner : Tag := 0
  deriving DecidableEq, Repr

/-- One fabric port 0–15 (R171, R179, R180). -/
structure SwPort where
  /-- LINK_STATE (R179). -/
  link : LinkState := .disabled
  /-- HOLD_EXPIRED, W1C (R179). -/
  holdExp : Bool := false
  /-- LT at which the hold time expires (R171). -/
  holdAt : Option LT := none
  /-- copies admitted for each class, oldest first (R166). -/
  queues : Vector (List Copy) 8 := .replicate 8 []
  /-- the copy in transmission: its cells stay in the account until its last bit has left (R167). -/
  sending : Option Copy := none
  /-- the eight fabric counters, RC (R180). -/
  ctr : Vector (BitVec 64) 8 := .replicate 8 0
  deriving DecidableEq, Repr

/-- Switch Core, the Chamois fabric (chapter 05). -/
structure SwState where
  /-- SW_STATUS.READY (R178). -/
  ready : Bool := false
  /-- POOL_EMPTY, W1C (R178). -/
  poolEmpty : Bool := false
  /-- GUARD_ERR, W1C (R178). -/
  guardErr : Bool := false
  /-- MIRROR_LOST, W1C (R178). -/
  mirrorLost : Bool := false
  /-- FDB_FULL, W1C (R178). -/
  fdbFull : Bool := false
  /-- HOLD_EXP, W1C (R178). -/
  holdExp : Bool := false
  /-- fabric ports (R154). -/
  port : Vector SwPort 16 := .replicate 16 {}
  /-- forwarding database, 16,384 entries maximum (R158). -/
  fdb : List FdbEntry := []
  /-- VLAN table entries that a commit has staged; the others hold the reset masks 0xFFFF, 0xBFFF, 0xBFFF (R159). -/
  vlan : Tab Nat VlanCfg := []
  /-- RESERVE, LIMIT, ECN_DEPTH, MAX_AGE in force by (port, class); others 256, 8,192, 0, 0 (R166). -/
  limits : Tab (Nat × Nat) LimitsCfg := []
  /-- hold times, learning, ageing time, SEED in force (R181). -/
  ports : SwPortsCfg := {}
  /-- mirror selection in force (R176). -/
  mirror : MirrorCfg := {}
  /-- LT up to which the stage-1 slots of (input, intermediate) are taken (R161). -/
  stage1 : Tab (Nat × Nat) LT := []
  /-- number of the next received frame (the model's own) (R168). -/
  nextFid : Nat := 0
  /-- SW_IMm_PEAK, RC (R179). -/
  peak : Vector (BitVec 18) 16 := .replicate 16 0
  /-- SW_MIRROR_BASE, bits 11:0 read 0 (R174). -/
  mirBase : BitVec 64 := 0
  /-- SW_MIRROR_SIZE (R174). -/
  mirSize : BitVec 5 := 0
  /-- SW_MIRROR_HEAD (R174). -/
  mirHead : BitVec 17 := 0
  /-- SW_MIRROR_RELEASE (R174). -/
  mirRelease : BitVec 17 := 0
  /-- SW_MIRROR_CTRL.EN (R174). -/
  mirEn : Bool := false
  /-- SW_MIRROR_LOST, RC, saturating (R174). -/
  mirLost : BitVec 32 := 0
  /-- the next mirror entry carries GAP (R175). -/
  mirGap : Bool := false
  deriving DecidableEq, Repr

/-- One 32-byte queue word with its side byte (R184). -/
structure QWord where
  /-- the valid bytes; VALID_BYTES is their number (R184). -/
  data : List Byte := []
  /-- END (R184). -/
  last : Bool := false
  /-- owner tag (R184). -/
  tag : Tag := 0
  /-- tag epoch of the owner when the packet was opened (R195). -/
  epoch : Nat := 0
  deriving DecidableEq, Repr

/-- The open packet of a queue (R186–R190). -/
structure OpenPkt where
  /-- owner (R184). -/
  owner : Tag := 0
  /-- tag epoch of the owner (R195). -/
  epoch : Nat := 0
  /-- the header word (R188). -/
  header : List Byte := []
  /-- payload bytes written so far (R188). -/
  payload : List Byte := []
  deriving DecidableEq, Repr

/-- One QM queue 0x00–0xFF (R182–R197). -/
structure Queue where
  /-- visible, unreleased words, from the release position (R189). -/
  words : List QWord := []
  /-- mark, counted from the release position (R193). -/
  mark : Nat := 0
  /-- read position, counted from the release position (R193). -/
  rd : Nat := 0
  /-- the open packet (R189). -/
  openPkt : Option OpenPkt := none
  /-- QUOTA_HIT, W1C (R197). -/
  quotaHit : Bool := false
  /-- HW_REWIND, W1C (R197). -/
  hwRewind : Bool := false
  /-- COMMITTED, RELEASED, REWOUND, REFUSED, RC (R197). -/
  ctr : Vector (BitVec 64) 4 := .replicate 4 0
  /-- per-queue count of packets offered; no first value given: DESIGN CHOICE 0 (log 4) (R192). -/
  seq : BitVec 32 := 0
  /-- the next receive notice carries GAP (R192). -/
  gapNext : Bool := false
  deriving DecidableEq, Repr

/-- Queue Manager (chapter 06). -/
structure QmState where
  /-- QM_STATUS.READY (R196). -/
  ready : Bool := false
  /-- GUARD_ERR, W1C (R196). -/
  guardErr : Bool := false
  /-- QUOTA, W1C (R196). -/
  quota : Bool := false
  /-- BAD_PKT, W1C (R196). -/
  badPkt : Bool := false
  /-- the queues that have been used; the others are empty and have counted nothing (R182). -/
  q : Tab Nat Queue := []
  /-- capacities and directions in force; others default (R185). -/
  cap : Tab Nat QueueCfg := []
  /-- CORE steering entries in force (R183). -/
  steer : Tab Nat SteerEntry := []
  /-- queue served last for INGEST; no first value given: DESIGN CHOICE (log 4) (R628). -/
  rrIngest : Nat := 0x0B
  /-- queue served last for CORE; no first value given: DESIGN CHOICE (log 4) (R628). -/
  rrCore : Nat := 0xFF
  deriving DecidableEq, Repr

/-- What the controller holds for one station (R144–R152). -/
structure Station where
  /-- W0.STATE (R152). -/
  state : StnState := .unassigned
  /-- W0.MISSED (R152). -/
  missed : Nat := 0
  /-- W0.SAFE (R152). -/
  safe : Bool := false
  /-- W0.MISMATCH, W1C (R152). -/
  mismatch : Bool := false
  /-- W0.CLAIM_DIFF, W1C (R152). -/
  claimDiff : Bool := false
  /-- W1, RC (R152). -/
  undelivered : BitVec 32 := 0
  /-- W2 (R152). -/
  lastEcho : BitVec 32 := 0
  /-- W3, RC (R152). -/
  missedTotal : BitVec 32 := 0
  /-- a good report has arrived in this cycle (R147). -/
  reported : Bool := false
  /-- it has reported once after ASSIGN (R141). -/
  reportedOnce : Bool := false
  /-- t_fresh, once the returned station's inputs are written (R149). -/
  freshAt : Option LT := none
  /-- cycle of the report that returned it (R149). -/
  returnCycle : BitVec 32 := 0
  /-- cycle number of the first RESYNC entry (R149). -/
  resyncFirst : Option (BitVec 32) := none
  /-- this cycle's miss has been counted at the end of the slot (R147). -/
  missCounted : Bool := false
  /-- source address from its ANNOUNCE (R143). -/
  mac : Mac := 0
  deriving DecidableEq, Repr

/-- PLCA settings of a segment's PHY (R133, R140). -/
structure PlcaCfg where
  /-- PLCA runs with this unit as a node: slotted mode (R140). -/
  en : Bool := false
  /-- node ID: 0 sends the BEACON in slotted mode (R133). -/
  node : Nat := 1
  /-- node count: the highest staged station node and 1 (R140). -/
  count : Nat := 0
  /-- to_timer in bit times (R140). -/
  toTimer : Nat := 32
  /-- maximum burst count (R140). -/
  burst : Nat := 0
  deriving DecidableEq, Repr

/-- One cabinet-bus segment C0 or C1 (R133–R152). -/
structure Segment where
  /-- settings in force (R153). -/
  cfg : SegCfg := {}
  /-- MODE (R151). -/
  slotted : Bool := false
  /-- COORD: this unit is PLCA node 0 (R151). -/
  coord : Bool := false
  /-- the earliest cabinet cycle start at which the PLCA role follows the unit's state (R434). -/
  roleFrom : LT := 0
  /-- a takeover asks for slotted recovery from that cycle start (R434). -/
  recover : Bool := false
  /-- REASON (R151). -/
  reason : CabReason := .none
  /-- mode change pending for the next cycle start (R142). -/
  nextMode : Option (Bool × CabReason) := none
  /-- this is the first cycle after a mode change (R142). -/
  modeChanged : Bool := false
  /-- FO_CABs_CYCLE; DESIGN CHOICE 0 (log 4) (R136). -/
  cycle : BitVec 32 := 0
  /-- t0 of the present cycle (R137). -/
  t0 : LT := 0
  /-- LT at which this unit's start-up discovery began: the end of phase 8, or the cycle at which a commit's start-up mode is entered (R141, R142,
  R554). -/
  startedAt : Option LT := none
  /-- the PLCA settings its PHY runs (R133, R140). -/
  plca : PlcaCfg := {}
  /-- TCU4 firings since the slotted cycle started (of k) (R140). -/
  slotPhase : Nat := 0
  /-- consecutive slotted cycles in which every present station reported (R141). -/
  goodSlotted : Nat := 0
  /-- cycle numbers of collisions in the last 16 normal cycles (R141). -/
  collisions : List (BitVec 32) := []
  /-- ABSENT_CHG, W1C (R151). -/
  absentChg : Bool := false
  /-- MISMATCH, W1C (R151). -/
  mismatch : Bool := false
  /-- COLL_RECOVERY, W1C (R151). -/
  collRecovery : Bool := false
  /-- LATE_REPORT, W1C (R151). -/
  lateReport : Bool := false
  /-- LATE_IMAGE, W1C (R151). -/
  lateImage : Bool := false
  /-- CLAIM_DIFF, W1C (R151). -/
  claimDiff : Bool := false
  /-- FRAMES_DISCARDED, RC, saturating (R152). -/
  discarded : BitVec 32 := 0
  /-- COLLISIONS, RC, saturating (R152). -/
  collCtr : BitVec 32 := 0
  /-- REPORTS_DUP, RC, saturating (R152). -/
  dupCtr : BitVec 32 := 0
  /-- stations by node (2–31 used) (R152). -/
  stn : Vector Station 32 := .replicate 32 {}
  /-- the output image built and not yet sent (R137). -/
  image : Option CabFrame := none
  /-- instant of the last IMAGE heard, by its claim, in tu without a wrap (R135, R433). -/
  heard : Tab (BitVec 32) Nat := []
  /-- the instant at which the present cycle's image has left the bus (R138). -/
  imageEnd : Option LT := none
  deriving DecidableEq, Repr

/-- One SV subscription's running state (R209–R220). -/
structure SvStream where
  /-- STATE 2:0 (R220). -/
  state : SvState := .idle
  /-- SYNC_OK (R220). -/
  syncOk : Bool := false
  /-- SIM: switched to simulation (R220). -/
  sim : Bool := false
  /-- CONF_REV_ERR, W1C (R220). -/
  confRevErr : Bool := false
  /-- AUTH_ERR, W1C (R220). -/
  authErr : Bool := false
  /-- GAP, W1C (R220). -/
  gap : Bool := false
  /-- SMP_SYNCH (R220). -/
  smpSynch : BitVec 8 := 0
  /-- LAST_SMPCNT (R220). -/
  lastSmpCnt : BitVec 16 := 0
  /-- SE_SVs_LAG in ns, signed; no reset given: DESIGN CHOICE 0 (log 4) (R220). -/
  lag : BitVec 32 := 0
  /-- the second S the stream counts in, relative to the TCU3 firing count (R207). -/
  sec : Option Int := none
  /-- consecutive good samples in ACQUIRE (R209). -/
  good : Nat := 0
  /-- consecutive substitutions while LOCKED (R209). -/
  subRun : Nat := 0
  /-- last good value of each channel (R210). -/
  lastGood : List (BitVec 32) := []
  /-- FRAMES_OK, INVALID, AUTH_FAIL, LATE, DUPLICATE, SUBSTITUTED, RC (R220). -/
  ctr : Vector (BitVec 64) 6 := .replicate 6 0
  /-- a valid sample has come since the stream was IDLE (R210). -/
  seen : Bool := false
  deriving DecidableEq, Repr

/-- One aligned sample of one stream (R207–R211). -/
structure SvSample where
  /-- subscription (R208). -/
  sub : Nat := 0
  /-- channel values (R199). -/
  values : List (BitVec 32) := []
  /-- channel qualities (R211). -/
  quality : List Quality := []
  /-- formed by substitution (R210). -/
  substituted : Bool := false
  deriving DecidableEq, Repr

/-- One open grid instant of a group (R208). -/
structure Instant where
  /-- second S (R206). -/
  sec : Int := 0
  /-- index k (R206). -/
  k : Nat := 0
  /-- rate N of its grid (R206). -/
  rate : Nat := 4800
  /-- t_first (R208). -/
  tFirst : LT := 0
  /-- samples delivered so far (R208). -/
  samples : List SvSample := []
  deriving DecidableEq, Repr

/-- One alignment group (R205–R212). -/
structure Group where
  /-- settings in force (R205). -/
  cfg : GroupCfg := {}
  /-- READY (R212). -/
  ready : Bool := false
  /-- open instants in (S, k) order (R208). -/
  instants : List Instant := []
  /-- last released instant: S, k and N (R208). -/
  lastRel : Option (Int × Nat × Nat) := none
  /-- release instant of the last released instant minus its tag, tu (R207). -/
  lag : Int := 0
  /-- release instants of the instants released in the last seconds (R207). -/
  recent : List (Int × Nat × LT) := []
  /-- the last commit instant that changed the settings, and the settings of the grid instants before it (R88). -/
  old : Option (LT × GroupCfg) := none
  deriving DecidableEq, Repr

/-- A subscription that a commit has changed, for the grid instants before the commit instant (R88). -/
structure SvDrain where
  /-- subscription (R88). -/
  sub : Nat := 0
  /-- the commit instant (R88). -/
  upTo : LT := 0
  /-- settings before it (R88). -/
  cfg : SvCfg := {}
  /-- stream state under them (R88). -/
  st : SvStream := {}
  deriving DecidableEq, Repr

/-- One GOOSE subscription's running state (R213, R214, R221). -/
structure GoSub where
  /-- STATE 1:0 (R221). -/
  state : GoSubState := .idle
  /-- CONF_REV_ERR, W1C (R221). -/
  confRevErr : Bool := false
  /-- AUTH_ERR, W1C (R221). -/
  authErr : Bool := false
  /-- last stNum (R221). -/
  stNum : BitVec 32 := 0
  /-- last sqNum (R221). -/
  sqNum : BitVec 32 := 0
  /-- a valid frame has been received (R213). -/
  seen : Bool := false
  /-- switched to simulation (R204). -/
  sim : Bool := false
  /-- when timeAllowedToLive expires, as a count of tu that does not wrap (R214; log 112). -/
  talAt : Option Nat := none
  /-- FRAMES_OK, RC (R221). -/
  ok : BitVec 64 := 0
  /-- INVALID, RC (R221). -/
  invalid : BitVec 64 := 0
  deriving DecidableEq, Repr

/-- One GOOSE publication's running state (R215–R221). -/
structure GoPub where
  /-- last stNum (R221). -/
  stNum : BitVec 32 := 0
  /-- last sqNum (R221). -/
  sqNum : BitVec 32 := 0
  /-- FRAMES_SENT, RC (R221). -/
  sent : BitVec 64 := 0
  /-- GATED, RC (R221). -/
  gated : BitVec 64 := 0
  /-- LT of the output write whose state change is not yet sent (R216). -/
  pendingAt : Option LT := none
  /-- present retransmission interval in ms (R216). -/
  interval : Nat := 0
  /-- LT of the next retransmission (R216). -/
  nextAt : Option LT := none
  /-- the field t of the present state with its time quality (R216, R217). -/
  t : List Byte := []
  /-- member values and qualities of the state last sent (R216). -/
  lastVals : List (BitVec 64 × Quality) := []
  deriving DecidableEq, Repr

/-- Stream Engine (chapter 07). -/
structure SeState where
  /-- SE_STATUS.READY (R219). -/
  ready : Bool := false
  /-- AUTH_ERR, W1C (R219). -/
  authErr : Bool := false
  /-- TAL_EXP, W1C (R219). -/
  talExp : Bool := false
  /-- STATE_CHG, W1C (R219). -/
  stateChg : Bool := false
  /-- QUOTA, W1C (R219). -/
  quota : Bool := false
  /-- SE_UNMATCHED, RC (R219). -/
  unmatched : BitVec 64 := 0
  /-- alignment groups (R205). -/
  group : Vector Group 16 := .replicate 16 {}
  /-- SV subscriptions in force (R200). -/
  svCfg : Tab Nat SvCfg := []
  /-- SV stream states (R209). -/
  sv : Tab Nat SvStream := []
  /-- changed subscriptions that still serve the grid instants before their commit (R88). -/
  svDrain : List SvDrain := []
  /-- GOOSE subscriptions in force (R200). -/
  gsCfg : Tab Nat GoSubCfg := []
  /-- GOOSE subscription states (R213). -/
  gs : Tab Nat GoSub := []
  /-- GOOSE publication blocks in force (R215). -/
  gpCfg : Tab Nat GoPubCfg := []
  /-- GOOSE publication states (R216). -/
  gp : Tab Nat GoPub := []
  /-- LT_S: the last TCU3 firing, which opened the present grid second (R206). -/
  ltS : LT := 0
  /-- LT_S of the seconds before the present one, newest first (R206). -/
  hist : List (Int × LT) := []
  /-- number of TCU3 firings, which counts the grid seconds (R206). -/
  secNo : Int := 0
  /-- LT at which the phase 10 lock timeout expires (R554). -/
  lockTimeoutAt : Option LT := none
  deriving DecidableEq, Repr

/-- One output sample of a lane (R240). -/
structure LaneSample where
  /-- binary32 value (R240). -/
  value : BitVec 32 := 0
  /-- tag (R238). -/
  tag : LT := 0
  /-- quality (R240). -/
  q : Quality := 0
  /-- GRID_STEP (R240). -/
  gridStep : Bool := false
  /-- TRK_DEGRADED (R240). -/
  degraded : Bool := false
  /-- SETTLING (R240). -/
  settling : Bool := false
  /-- SAT (R240). -/
  sat : Bool := false
  /-- formed from a substituted input (R266). -/
  substituted : Bool := false
  /-- cycle count (TRACK) (R240). -/
  cycle : BitVec 32 := 0
  /-- index i (TRACK) or k (FIXED) (R240). -/
  idx : Nat := 0
  /-- t_c of its grid cycle, LT with 32 fraction bits (TRACK) (R235). -/
  tc : BitVec 96 := 0
  /-- T_c of its grid cycle, tu × 2^32 (TRACK) (R235). -/
  tlen : Nat := 1
  /-- LT_S of its second S (FIXED) (R240). -/
  ltS : LT := 0
  deriving DecidableEq, Repr

/-- One input sample held in a lane's support (R224, R226). -/
structure LaneIn where
  /-- value in input LSB (R226). -/
  x : Int := 0
  /-- tag (R238). -/
  tag : LT := 0
  /-- quality (R240). -/
  q : Quality := 0
  /-- SE substitute (R240). -/
  substituted : Bool := false
  deriving DecidableEq, Repr

/-- One grid cycle of a tracking group (R235). -/
structure TrkCycle where
  /-- cycle count (R235). -/
  no : BitVec 32 := 0
  /-- t_c: LT with 32 fraction bits (R235). -/
  tc : BitVec 96 := 0
  /-- T_c in tu × 2^32 (R235). -/
  len : Nat := 1
  deriving DecidableEq, Repr

/-- One FR lane (R223–R246). The CIC, the FIR and the resampler are linear-phase filters over the support, which the input samples kept here cover. -/
structure Lane where
  /-- settings in force, a preset's filled in (R232). -/
  cfg : LaneCfg := {}
  /-- f_in (R225). -/
  fIn : Nat := 4800
  /-- STATE 1:0 (R246). -/
  state : LaneState := .disabled
  /-- OWNER (R246). -/
  owner : Tag := 0
  /-- IN_BAD, W1C (R246). -/
  inBad : Bool := false
  /-- RESTART, W1C (R246). -/
  restart : Bool := false
  /-- GRID_STEP, W1C (R246). -/
  gridStep : Bool := false
  /-- SAT, W1C (R246). -/
  sat : Bool := false
  /-- FR_LANEl_SETTLE_LEFT (R246). -/
  settleLeft : BitVec 16 := 0
  /-- GD_tu of the settings in force (R246). -/
  gd : BitVec 48 := 0
  /-- FR_LANEl_OUTPUTS, RC (R246). -/
  outputs : BitVec 64 := 0
  /-- input samples since the restart that outputs still to come depend on, newest first (R237). -/
  inputs : List LaneIn := []
  /-- input samples since the restart (R227). -/
  inCount : Nat := 0
  /-- index of the next output: of the CIC output (OFF), k (FIXED), i (TRACK) (R233). -/
  nextK : Nat := 0
  /-- seconds still to be emitted: LT_S, and whether a TIME_STEP moved it; the one being emitted first (R233). -/
  secs : List (LT × Bool) := []
  /-- grid cycles still to be emitted, the one being emitted first (R235). -/
  cycs : List TrkCycle := []
  /-- resampler position × 2^32 set from the exact instant of an output, and the index of that output (R230). -/
  pos0 : Option (Int × Nat) := none
  /-- outputs since the last point write (R242). -/
  ptCount : Nat := 0
  /-- outputs stopped until the coefficient reload completes (R242). -/
  waitCoef : Bool := false
  deriving DecidableEq, Repr

/-- One tracking group (R234–R236, R245). -/
structure TrkGroup where
  /-- settings in force (R234). -/
  cfg : TrackCfg := {}
  /-- STATE 1:0 (R245). -/
  state : TrkState := .disabled
  /-- HOLD_SEEN, W1C (R245). -/
  holdSeen : Bool := false
  /-- NOMINAL_SEEN, W1C (R245). -/
  nominalSeen : Bool := false
  /-- FR_TRKg_FREQ: f_trk in force, µHz (R245). -/
  freq : BitVec 32 := 0
  /-- the present grid cycle, once cycle 0 has started (R235). -/
  cyc : Option TrkCycle := none
  /-- the commit instant that started the group (R235). -/
  startAt : LT := 0
  /-- latest valid estimate in µHz and its release instant (R236). -/
  est : Option (Nat × LT) := none
  /-- the frequency in µHz that applied before that estimate (R236). -/
  prevF : Nat := 0
  /-- LT of the entry to HOLD (R236). -/
  holdSince : LT := 0
  deriving DecidableEq, Repr

/-- Filter & Resampler (chapter 08). -/
structure FrState where
  /-- FR_STATUS.READY (R244). -/
  ready : Bool := false
  /-- TRK_CHG, W1C (R244). -/
  trkChg : Bool := false
  /-- GUARD_ERR, W1C (R244). -/
  guardErr : Bool := false
  /-- SAT, W1C (R244). -/
  sat : Bool := false
  /-- lane states (R246). -/
  lane : Tab Nat Lane := []
  /-- tracking groups (R234). -/
  trk : Tab Nat TrkGroup := []
  /-- staged FIR tables 0x06–0xFF (R231). -/
  firTab : Tab Nat CoefTable := []
  /-- staged prototype tables 0x4–0xF (R231). -/
  protoTab : Tab Nat CoefTable := []
  /-- FIR tables before the last commit, which `drain` uses (R88). -/
  firOld : Tab Nat CoefTable := []
  /-- prototype tables before the last commit (R88). -/
  protoOld : Tab Nat CoefTable := []
  /-- coefficient tables being reloaded (true: prototype) (R242). -/
  reload : List (Bool × Nat) := []
  /-- lanes that a commit changed, which still release the outputs of grid instants before it: lane, commit instant, lane as it was (R88). -/
  drain : List (Nat × LT × Lane) := []
  deriving DecidableEq, Repr

/-- One result record (R262, R270). -/
structure PeRes where
  /-- PE_CHc_RES_SEQ (R262). -/
  seq : BitVec 32 := 0
  /-- t_r (R270). -/
  tr : LT := 0
  /-- real part of X (R270). -/
  re : BitVec 32 := 0
  /-- imaginary part of X (R270). -/
  im : BitVec 32 := 0
  /-- f̂ in Hz, binary32 (R270). -/
  freq : BitVec 32 := 0
  /-- R̂ in Hz/s, binary32 (R270). -/
  rocof : BitVec 32 := 0
  /-- quality 15:0 (R270). -/
  q : Quality := 0
  /-- DEGRADED, SETTLING, SUBSTITUTED, LATE (R270). -/
  flags : BitVec 8 := 0
  deriving DecidableEq, Repr

/-- One released estimate, kept for the frames and sequence phasors still to be formed from it (R249, R263). -/
structure PeEst where
  /-- t_r (R250). -/
  tr : LT := 0
  /-- real part of X, binary64 (R255). -/
  re : BitVec 64 := 0
  /-- imaginary part of X, binary64 (R255). -/
  im : BitVec 64 := 0
  /-- f̂, binary64 (R254). -/
  freq : BitVec 64 := 0
  /-- R̂, binary64 (R254). -/
  rocof : BitVec 64 := 0
  /-- quality of the phasor (R257). -/
  q : Quality := 0
  /-- quality of f̂ and R̂ (R257). -/
  fq : Quality := 0
  /-- DEGRADED (R257). -/
  degraded : Bool := false
  /-- SETTLING (R257). -/
  settling : Bool := false
  /-- SUBSTITUTED (R270). -/
  substituted : Bool := false
  /-- LATE (R257). -/
  late : Bool := false
  /-- f0 of the channel was 60 Hz (R254). -/
  sixty : Bool := false
  deriving DecidableEq, Repr

/-- One phasor channel (R248–R270). -/
structure PeChan where
  /-- settings in force (R272). -/
  cfg : ChanCfg := {}
  /-- settings of its lane at the last commit, with a preset's filled in (R248, R255). -/
  src : LaneCfg := {}
  /-- f_in of its lane at the last commit (R255). -/
  fIn : Nat := 4800
  /-- f0 of its tracking group at the last commit is 60 Hz (R254). -/
  sixty : Bool := false
  /-- it finishes what lies before a commit, under the coefficient tables of that time (R88). -/
  before : Bool := false
  /-- OWNER (R270). -/
  owner : Tag := 0
  /-- STATE 1:0 (R270). -/
  state : ChanState := .disabled
  /-- DEGRADED, W1C (R270). -/
  degraded : Bool := false
  /-- RESTART, W1C (R270). -/
  restart : Bool := false
  /-- LATE, W1C (R270). -/
  late : Bool := false
  /-- RANGE, W1C (R270). -/
  range : Bool := false
  /-- result record; no reset given: DESIGN CHOICE 0 (log 4) (R262). -/
  res : PeRes := {}
  /-- PE_CHc_ESTIMATES, RC (R270). -/
  estimates : BitVec 64 := 0
  /-- grid samples that estimates still to come depend on, newest first (R253). -/
  line : List LaneSample := []
  /-- LT_S of the seconds still to be reported, the present one first (R250). -/
  secs : List LT := []
  /-- k of the next reporting instant (R250). -/
  nextK : Nat := 0
  /-- estimates since the last point write (R261). -/
  ptCount : Nat := 0
  /-- estimates released, newest first (R263). -/
  hist : List PeEst := []
  deriving DecidableEq, Repr

/-- One C37.118.2 stream (R263–R271). -/
structure PeStream where
  /-- settings in force (R263). -/
  cfg : StreamCfg := {}
  /-- owner (R263). -/
  owner : Tag := 0
  /-- the stream is enabled: STATE is not disabled (R271). -/
  used : Bool := false
  /-- transmission is on (R268). -/
  on : Bool := false
  /-- LT_S of the seconds still to be sent, the present one first (R265). -/
  secs : List LT := []
  /-- k of the next frame's reporting instant (R265). -/
  nextK : Nat := 0
  /-- CFG_CHG: STAT bit 10 is being sent (R271). -/
  cfgChg : Bool := false
  /-- commit instant that changed the configuration (R266). -/
  cfgChgAt : LT := 0
  /-- LATE, W1C (R271). -/
  late : Bool := false
  /-- QUOTA, W1C (R271). -/
  quota : Bool := false
  /-- FRAMES_SENT, RC (R271). -/
  sent : BitVec 64 := 0
  /-- GATED, RC (R271). -/
  gated : BitVec 64 := 0
  /-- LATE_FRAMES, RC (R271). -/
  lateFrames : BitVec 64 := 0
  /-- CMDS, RC (R271). -/
  cmds : BitVec 64 := 0
  /-- transmission state asked for, and when (R268). -/
  txNext : Option (Bool × LT) := none
  /-- the next frame was completed at its deadline (R259). -/
  frameLate : Bool := false
  deriving DecidableEq, Repr

/-- One set (R249). -/
structure PeSet where
  /-- settings in force (R249). -/
  cfg : SetCfg := {}
  /-- estimates since the last point write (R261). -/
  ptCount : Nat := 0
  deriving DecidableEq, Repr

/-- Phasor Engine (chapter 09). -/
structure PeState where
  /-- PE_STATUS.READY (R269). -/
  ready : Bool := false
  /-- GUARD_ERR, W1C (R269). -/
  guardErr : Bool := false
  /-- LATE, W1C (R269). -/
  late : Bool := false
  /-- RANGE, W1C (R269). -/
  range : Bool := false
  /-- QUOTA, W1C (R269). -/
  quota : Bool := false
  /-- channels 0–1,023 (R248). -/
  ch : Tab Nat PeChan := []
  /-- sets in force (R249). -/
  sets : Tab Nat PeSet := []
  /-- the last commit and the sets before it, which estimates before it still use (R88). -/
  setsOld : Option (LT × Tab Nat PeSet) := none
  /-- streams 0–63 (R263). -/
  str : Tab Nat PeStream := []
  /-- channels that a commit changed, which still release the estimates before it: channel, commit instant, channel as it was (R88). -/
  drain : List (Nat × LT × PeChan) := []
  /-- streams that a commit changed, which still send the frames before it (R88). -/
  strDrain : List (Nat × LT × PeStream) := []
  deriving DecidableEq, Repr

/-- One wideband sample link WSL0–WSL7 (R273–R278, R305). -/
structure WslLink where
  /-- settings in force (R307). -/
  cfg : WslCfg := {}
  /-- STATE 1:0 (R305). -/
  state : WslState := .down
  /-- LOCK_LOST, W1C (R305). -/
  lockLost : Bool := false
  /-- SEQ_ERR, W1C (R305). -/
  seqErr : Bool := false
  /-- FRAMES, RC (R305). -/
  frames : BitVec 64 := 0
  /-- CRC_ERR, RC (R305). -/
  crcErr : BitVec 64 := 0
  /-- MISSING, RC (R305). -/
  missing : BitVec 64 := 0
  /-- numbers of convert edges with their LT, from which the later edges follow, newest first; edge 0 is the first at or after the commit that starts the link (R276). -/
  bases : List (Nat × LT) := []
  /-- next convert edge whose sample is to be delivered (R277). -/
  nextEdge : Nat := 0
  /-- convert edge of the last frame (R277). -/
  lastEdge : Option Nat := none
  /-- good frames that wait behind an edge without one: edge and values (R277). -/
  got : List (Nat × Option (List (BitVec 16))) := []
  /-- consecutive frames with correct CRC and consecutive SEQ (R277). -/
  goodRun : Nat := 0
  /-- outcome of the last 64 frames, true for a failed one (R277). -/
  window : List Bool := []
  /-- last good values of the three channels (R277). -/
  lastGood : Option (List (BitVec 16)) := none
  /-- retraining after a PD6 wake or a change of K (R278). -/
  retraining : Bool := false
  deriving DecidableEq, Repr

/-- One FAST_EDGE input and its TDC (R279–R282, R306). -/
structure EdgeUnit where
  /-- settings in force (R307). -/
  cfg : EdgeCfg := {}
  /-- 64-entry FIFO, oldest first, flags in bits 2:0 (R281). -/
  fifo : List (BitVec 64) := []
  /-- OVF, W1C (R306). -/
  ovf : Bool := false
  /-- the next accepted entry carries GAP (R281). -/
  gapNext : Bool := false
  /-- the fused nominal table is in use (R280). -/
  uncal : Bool := true
  /-- input level as recorded (R287). -/
  level : Bool := false
  /-- calibrated bin widths w_0–w_127 in 2^−6 tu ([]: the fused nominal table) (R280). -/
  bins : List Nat := []
  /-- when the last calibration ended, in tu since LT 0; none: there has been none (R303). -/
  calAt : Option Nat := none
  /-- when the last edge was recorded, in tu since LT 0 (R279). -/
  lastEdge : Option Int := none
  deriving DecidableEq, Repr

/-- One comparator (R283, R284). -/
structure Comp where
  /-- settings in force (R283). -/
  cfg : Option CompCfg := none
  /-- level; DESIGN CHOICE 0 (log 4) (R283). -/
  level : Bool := false
  /-- last samples and tags, newest first (16 maximum) (R283). -/
  hist : List (BitVec 32 × LT) := []
  deriving DecidableEq, Repr

/-- One change of a binary source, with its true instant (R287–R290). -/
structure BinChange where
  /-- source code (R287). -/
  src : BitVec 32 := 0
  /-- instant of the change (R289). -/
  at_ : LT := 0
  /-- new level (R287). -/
  level : Bool := false
  /-- a one-tick source: the level returns to 0 after the tick (R287). -/
  pulse : Bool := false
  deriving DecidableEq, Repr

/-- One row, stored or still a base row (R293). -/
structure RecRow where
  /-- TAG (R293). -/
  tag : LT := 0
  /-- QBAD (R293). -/
  qbad : BitVec 64 := 0
  /-- ANALOG (R293). -/
  analog : List (BitVec 32) := []
  /-- BINARY (R293). -/
  binary : List Bool := []
  /-- changes of binary channels since the row before: instant, channel, new level (R297). -/
  evs : List (LT × Nat × Bool) := []
  deriving DecidableEq, Repr

/-- One record, open or held (R294–R299). -/
structure Record where
  /-- REC_NO (R298). -/
  no : BitVec 32 := 0
  /-- the settings it began with (R88). -/
  cfg : RecCfg := {}
  /-- T_base in tu, numerator (R286). -/
  baseNum : Nat := 1
  /-- T_base in tu, denominator (R286). -/
  baseDen : Nat := 1
  /-- analogue channel table (R299). -/
  chans : List Byte := []
  /-- FLAGS.PRE_SHORT (R298). -/
  preShort : Bool := false
  /-- FLAGS.TRUNC (R298). -/
  trunc : Bool := false
  /-- FLAGS.RATE_FROZEN (R298). -/
  rateFrozen : Bool := false
  /-- FLAGS.LATE_INPUT (R298). -/
  late : Bool := false
  /-- FLAGS.LT_UNCERTAIN (R298). -/
  uncertain : Bool := false
  /-- FLAGS.UNCAL (R298). -/
  uncal : Bool := false
  /-- FLAGS.TIME_STEP (R298). -/
  step : Bool := false
  /-- stored rows, newest first (R294). -/
  rows : List RecRow := []
  /-- TRIG_ROW (R298). -/
  trigRow : Nat := 0
  /-- the trigger row has been stored (R294). -/
  seen : Bool := false
  /-- trigger list: instant, row, deciding channel (R299). -/
  trigs : List (LT × Nat × Nat) := []
  /-- accepted triggers whose trigger row is still to come: instant, deciding channel (R294). -/
  waiting : List (LT × Nat) := []
  /-- rate table: first row, factor (R297). -/
  rates : List (Nat × Nat) := [(0, 1)]
  /-- TRIG_LT (R298). -/
  trigLt : LT := 0
  /-- TAI of TRIG_LT in tu (R298). -/
  trigTai : Int := 0
  /-- TRIG_CH (R298). -/
  trigCh : Nat := 0
  /-- UTC_OFFSET (R298). -/
  utcOffset : BitVec 16 := 0
  /-- TIME_BOUND (R298). -/
  timeBound : BitVec 32 := 0
  /-- TQ (R298). -/
  tq : BitVec 8 := 0
  /-- stored rows still to follow the last accepted trigger row (R295). -/
  postLeft : Nat := 0
  /-- stored rows after the latest accepted trigger row (R296). -/
  sinceTrig : Nat := 0
  /-- factor in force (R296). -/
  factor : Nat := 1
  /-- base rows of the reduced span being gathered, newest first (R296). -/
  span : List RecRow := []
  /-- closed, header not yet written (R295). -/
  closed : Bool := false
  /-- offset in the partition (R301). -/
  offset : Nat := 0
  deriving DecidableEq, Repr

/-- What a recorder does under one configuration (R288–R297). -/
structure RecRun where
  /-- settings in force (R307). -/
  cfg : RecCfg := {}
  /-- levels of the binary channels at the end of the last evaluated tick (R288). -/
  levels : List Bool := []
  /-- levels of the binary channels at the last row (R293). -/
  rowLevels : List Bool := []
  /-- the condition in the tick before (R288). -/
  condBefore : Bool := false
  /-- changes not yet evaluated (R290). -/
  changes : List BinChange := []
  /-- evaluated changes not yet in a row (R293). -/
  applied : List (LT × Nat × Bool) := []
  /-- start of the next tick to evaluate (R290). -/
  nextTick : LT := 0
  /-- instant of the next row of a recorder without analogue channels (R286). -/
  nextRow : LT := 0
  /-- samples not yet in a row: channel, tag, value, validity good (R293). -/
  samples : List (Nat × LT × BitVec 32 × Bool) := []
  /-- rows since the end of the previous record, newest first (R294). -/
  pre : List RecRow := []
  /-- the record in progress (R294). -/
  open_ : Option Record := none
  deriving DecidableEq, Repr

/-- One recorder 0–7 (R285–R304). -/
structure Recorder where
  /-- its work under the settings in force (R307). -/
  run : Option RecRun := none
  /-- its work under the settings before the last commit that changed them, with the commit instant (R88). -/
  old : Option (LT × RecRun) := none
  /-- STATE 2:0 (R304). -/
  state : RecState := .disabled
  /-- OWNER (R304). -/
  owner : Tag := 0
  /-- LATE_INPUT, W1C (R304). -/
  lateInput : Bool := false
  /-- TRUNC, W1C (R304). -/
  trunc : Bool := false
  /-- LOST, W1C (R304). -/
  lost : Bool := false
  /-- AR_RECr_LAST (R304). -/
  last : BitVec 32 := 0
  /-- TRIGGERS, SUPPRESSED, EXTENDED, RECORDS, LOST, OVERWRITTEN, RC (R304). -/
  ctr : Vector (BitVec 64) 6 := .replicate 6 0
  /-- LATE_INPUTS, RC, saturating (R304). -/
  lateInputs : BitVec 32 := 0
  /-- instant of the last accepted trigger, until its hold-off time is over (R291). -/
  lastAccept : Option LT := none
  /-- triggers still to be suppressed (COUNT) (R291). -/
  suppressLeft : Nat := 0
  /-- held records, oldest first (R295). -/
  held : List Record := []
  /-- next record number (R298). -/
  nextNo : BitVec 32 := 1
  /-- write position in the partition, bytes (R294). -/
  writePos : Nat := 0
  deriving DecidableEq, Repr

/-- Acquisition & Recorder (chapter 10). -/
structure ArState where
  /-- AR_STATUS.READY (R303). -/
  ready : Bool := false
  /-- GUARD_ERR, W1C (R303). -/
  guardErr : Bool := false
  /-- WSL_ERR, W1C (R303). -/
  wslErr : Bool := false
  /-- EDGE_OVF, W1C (R303). -/
  edgeOvf : Bool := false
  /-- FULL, W1C (R303). -/
  full : Bool := false
  /-- wideband links (R273). -/
  wsl : Vector WslLink 8 := .replicate 8 {}
  /-- FAST_EDGE inputs (R279). -/
  edge : Vector EdgeUnit 24 := .replicate 24 {}
  /-- comparators 0–127 (R283). -/
  comp : Tab Nat Comp := []
  /-- recorders (R285). -/
  recorder : Vector Recorder 8 := .replicate 8 {}
  deriving DecidableEq, Repr

/-- What an engine's domain does (R315, R355). -/
inductive EngDomain where
  | on
  | off
  | reloading
  deriving DecidableEq, Repr

/-- FB_TSKj_STATUS.STATE (R387). -/
inductive TaskState where
  | unused
  | active
  | stopped
  | gated
  deriving DecidableEq, Repr

/-- One entry of the output buffer (R333). -/
structure ExportVal where
  /-- the value stored (R333). -/
  value : BitVec 64 := 0
  /-- the quality stored (R333). -/
  quality : Quality := 0
  /-- the LT stored by STPT (R333). -/
  lt : Option LT := none
  deriving DecidableEq, Repr

/-- One owner region of one engine (R313). -/
structure Region where
  /-- engine (R350). -/
  engine : Nat := 0
  /-- owner tag (R313). -/
  owner : Tag := 0
  /-- first instruction index (R350). -/
  codeBase : Nat := 0
  /-- instructions (R350). -/
  codeLen : Nat := 0
  /-- first byte of the data region (R350). -/
  dataBase : Nat := 0
  /-- bytes of the data region (R350). -/
  dataLen : Nat := 0
  deriving DecidableEq, Repr

/-- The last fault record of one task, in the field order of R355 (R347, R356). -/
structure TaskFault where
  /-- fault code (R355). -/
  code : BitVec 8 := 0
  /-- task (R355). -/
  task : BitVec 8 := 0
  /-- owner tag (R355). -/
  owner : Tag := 0
  /-- faulting instruction index (R355). -/
  pc : BitVec 13 := 0
  /-- instruction word (R355). -/
  instr : BitVec 64 := 0
  /-- CYC_LT of the faulting cycle (R355). -/
  lt : LT := 0
  /-- ELAPSED at the fault (R355). -/
  elapsed : BitVec 32 := 0
  /-- byte address, slot or RAISE code (R355). -/
  addr : BitVec 32 := 0
  deriving DecidableEq, Repr

/-- One task: settings in force and running state (R362–R387). -/
structure Task where
  /-- its entry in the owner's code image (R351). -/
  entry : TaskEntry := {}
  /-- engine whose entry holds it (R362). -/
  engine : Nat := 0
  /-- owner tag (R387). -/
  owner : Tag := 0
  /-- release settings of R362. -/
  cfg : TaskCfg := {}
  /-- STATE 1:0 of FB_TSKj_STATUS (R387). -/
  state : TaskState := .unused
  /-- SKIP, W1C (R387). -/
  skip : Bool := false
  /-- LIMIT, W1C (R387). -/
  limit : Bool := false
  /-- CONSEC, saturating (R387). -/
  consec : BitVec 8 := 0
  /-- FAULT_LIMIT has been reached and its action applied since the task last ended with END or was released again (R371). -/
  limitHit : Bool := false
  /-- every fault of the present run of consecutive faults was OVERRUN (R372). -/
  overrunOnly : Bool := true
  /-- FB_TSKj_LAST_START (R387). -/
  lastStart : LT := 0
  /-- FB_TSKj_LAST_DUR (R387). -/
  lastDur : BitVec 32 := 0
  /-- FB_TSKj_MAX_DUR, RC (R387). -/
  maxDur : BitVec 32 := 0
  /-- FB_TSKj_TCLK_OFS: TCLK − CYC_LT of the last cycle (R387). -/
  tclkOfs : BitVec 64 := 0
  /-- CYCLES, RC (R387). -/
  cycles : BitVec 64 := 0
  /-- SKIPPED, RC (R387). -/
  skipped : BitVec 64 := 0
  /-- OVERRUNS, RC (R387). -/
  overruns : BitVec 64 := 0
  /-- FAULTS, RC (R387). -/
  faults : BitVec 64 := 0
  /-- CYC_NO of the next cycle; the first value is not given: DESIGN CHOICE 0 (log 4) (R318). -/
  cycNo : BitVec 64 := 0
  /-- CYC_LT of the last executed cycle (R377). -/
  lastCycLt : LT := 0
  /-- TCLK of the last executed cycle (R377). -/
  lastTclk : LT := 0
  /-- the next cycle is a first cycle (R377). -/
  firstCycle : Bool := true
  /-- the owner has been in HOLD or STOP since the last executed cycle (R377). -/
  paused : Bool := false
  /-- a release not yet started: release instant and CYC_LT (R366). -/
  released : Option (LT × LT) := none
  /-- that release is a stepped one (R375). -/
  releasedStep : Bool := false
  /-- that release is the last stepped one (R375). -/
  releasedLast : Bool := false
  /-- its own previous cycle's output write has not taken place (R366). -/
  pendingW : Bool := false
  /-- packets sent by the previous cycle (QSTAT) (R318). -/
  qsent : BitVec 16 := 0
  /-- packets refused by the previous cycle (QSTAT) (R318). -/
  qrefused : BitVec 16 := 0
  /-- its START_GATE has opened (R382). -/
  gateOpened : Bool := false
  /-- last fault record (R347). -/
  fault : Option TaskFault := none
  /-- inbox entries in the owner's DRAM share, oldest first, 2 × RX_COUNT maximum (R341). -/
  inbox : List (List Byte) := []
  deriving DecidableEq, Repr

/-- The task cycle running or taking its snapshot on an engine (R366–R368). -/
structure Cycle where
  /-- task number (R366). -/
  task : Nat := 0
  /-- owner tag (R366). -/
  owner : Tag := 0
  /-- END has completed (R368). -/
  ended : Bool := false
  /-- its export table (R330). -/
  expTab : List Nat := []
  /-- entries of its export table (R330). -/
  nExp : Nat := 0
  /-- taking its snapshot (R367). -/
  snap : Bool := true
  /-- t_s (R367). -/
  ts : LT := 0
  /-- CYC_LT (R318). -/
  cycLt : LT := 0
  /-- TCLK (R318). -/
  tclk : LT := 0
  /-- CYC_DT (R318). -/
  cycDt : BitVec 64 := 0
  /-- CYC_NO (R318). -/
  cycNo : BitVec 64 := 0
  /-- QSTAT (R318). -/
  qstat : BitVec 64 := 0
  /-- RXCOUNT (R318). -/
  rxCount : BitVec 64 := 0
  /-- TIMEQ (R318). -/
  timeq : BitVec 64 := 0
  /-- FLAGS, bits 4:0 (R318). -/
  flags : BitVec 64 := 0
  /-- engine cycles since the task cycle started (R318). -/
  elapsed : Nat := 0
  /-- instruction index of the next instruction (R312). -/
  pc : Nat := 0
  /-- a stepped cycle (R375). -/
  stepped : Bool := false
  /-- point-cache entries of the import table (R331). -/
  imports : List PointRec := []
  /-- inbox entries taken at the snapshot, oldest first (R343). -/
  rx : List (List Byte) := []
  /-- the last stepped cycle (R375). -/
  lastStep : Bool := false
  /-- output buffer: export slot and its last store (R333). -/
  exports : List (Nat × ExportVal) := []
  /-- send-buffer slice: queue select and packet, in QSEND order (R344). -/
  sends : List (Bool × List Byte) := []
  /-- QSENDs of this cycle counted as refused (R344). -/
  qref : BitVec 16 := 0
  /-- QSENDs of this cycle placed in the slice (R344). -/
  qsn : BitVec 16 := 0
  deriving DecidableEq, Repr

/-- A cycle that has ended with END and waits for its output write (R368). -/
structure PendingW where
  /-- task number (R368). -/
  task : Nat := 0
  /-- owner tag (R368). -/
  owner : Tag := 0
  /-- W (R368). -/
  w : LT := 0
  /-- t_s (R383). -/
  ts : LT := 0
  /-- send-buffer slice (R344). -/
  sends : List (Bool × List Byte) := []
  /-- a stepped cycle (R375). -/
  stepped : Bool := false
  /-- the last stepped cycle (R375). -/
  lastStep : Bool := false
  /-- QSENDs already counted as refused (R345). -/
  qref : BitVec 16 := 0
  deriving DecidableEq, Repr

/-- One Tahr engine e (R308–R321, R355). -/
structure Engine where
  /-- V0–V63; V0 reads 0; the spec gives no value before the first cycle: DESIGN CHOICE 0 (log 4) (R316). -/
  v : Vector (BitVec 64) 64 := .replicate 64 0
  /-- call stack, 16 entries, top first (R309). -/
  stack : List (Nat × BitVec 64) := []
  /-- the running cycle (R366). -/
  cycle : Option Cycle := none
  /-- cycles that wait for their output write (R368). -/
  pendingW : List PendingW := []
  /-- STATE where no cycle runs: idle, domain off, reloading (R355). -/
  domain : EngDomain := .off
  /-- FAULTED, W1C (R355). -/
  faulted : Bool := false
  /-- GUARD_CORR, W1C (R355). -/
  guardCorr : Bool := false
  /-- OWNER of the running or last task (R355). -/
  lastOwner : Tag := 0
  /-- TASK of the running or last task (R355). -/
  lastTask : BitVec 8 := 0
  /-- FB_ENGe_FAULT_*: first fault since FAULTED was cleared; no reset given: DESIGN CHOICE 0 (log 4) (R355). -/
  fault : TaskFault := {}
  /-- TASK_CYCLES, RC (R355). -/
  taskCycles : BitVec 64 := 0
  /-- FAULTS, RC (R355). -/
  faults : BitVec 64 := 0
  /-- GUARD_CORRECTED, RC (R355). -/
  guardCorrected : BitVec 64 := 0
  /-- BUSY_CYCLES, RC (R355). -/
  busyCycles : BitVec 64 := 0
  /-- owner regions in force (R313). -/
  regions : List Region := []
  /-- code memory by instruction index; words outside every region are not readable (tag 0xFF) (R312). -/
  code : Tab Nat (BitVec 64) := []
  /-- instance memory, 128 KiB by byte; unlisted bytes read 0: DESIGN CHOICE (log 6) (R312). -/
  mem : Memory := []
  /-- owners whose data region is being formed or corrected, so that no cycle starts before the instant given (R379). -/
  copying : List (Tag × LT) := []
  /-- the open window (R359). -/
  win : Option Window := none
  /-- the instant at which the open window ends (R360). -/
  winEnd : LT := 0
  /-- t_end of the last cycle: the engine is free from it (R368). -/
  freeAt : LT := 0
  deriving DecidableEq, Repr

/-- One cluster TC0–TC5 (R354). -/
structure Cluster where
  /-- RELOAD (R354). -/
  reload : Bool := false
  /-- RX_PACKETS, RC (R354). -/
  rxPackets : BitVec 64 := 0
  /-- RX_NOMATCH, RC (R354). -/
  rxNomatch : BitVec 64 := 0
  /-- RX_DROP, RC (R354). -/
  rxDrop : BitVec 64 := 0
  /-- TX_SENT, RC (R354). -/
  txSent : BitVec 64 := 0
  /-- TX_REFUSED, RC (R354). -/
  txRefused : BitVec 64 := 0
  /-- dispatch table in force, 64 entries (R341). -/
  rxmap : List RxEntry := []
  deriving DecidableEq, Repr

/-- A run-state change waiting for a frame boundary (R375). -/
structure RunReq where
  /-- the change (R375). -/
  cmd : RunCmd := .stop
  /-- LT at which SU executed the command, or the fault limit was reached (R375). -/
  at_ : LT := 0
  /-- the command to be replied to (R375). -/
  reply : Option Waiting := none
  deriving DecidableEq, Repr

/-- Run state of one owner (R373–R376, R386). -/
structure OwnerRun where
  /-- STATE (R386). -/
  state : RunState := .stop
  /-- REASON (R386). -/
  reason : StopReason := .startup
  /-- STOP_POLICY (R386). -/
  invalidate : Bool := true
  /-- CHG, W1C (R386). -/
  chg : Bool := false
  /-- STEP_LEFT (R386). -/
  stepLeft : BitVec 8 := 0
  /-- task named by FB_STEP (R375). -/
  stepTask : Nat := 0
  /-- FB_OWNo_CHG_LT; no reset given: DESIGN CHOICE 0 (log 4) (R386). -/
  chgLt : LT := 0
  /-- run-state changes waiting for a frame boundary, oldest first (R375). -/
  pending : List RunReq := []
  /-- frozen or resetting owner: no releases (R526). -/
  frozen : Bool := false
  deriving DecidableEq, Repr

/-- An FB_READ_INST that waits for the end of a cycle (R356). -/
structure ReadWait where
  /-- engine (R356). -/
  engine : Nat := 0
  /-- owners of the regions that the range touches (R356). -/
  owners : List Tag := []
  /-- first byte (R356). -/
  first : Nat := 0
  /-- length (R356). -/
  len : Nat := 0
  /-- the command (R65). -/
  wait : Waiting := {}
  deriving DecidableEq, Repr

/-- Function-Block Engines (chapters 11, 12). -/
structure FbState where
  /-- GUARD_ERR, W1C (R353). -/
  guardErr : Bool := false
  /-- FAULT, W1C (R353). -/
  fault : Bool := false
  /-- RX_DROP, W1C (R353). -/
  rxDrop : Bool := false
  /-- TX_REFUSED, W1C (R353). -/
  txRefused : Bool := false
  /-- engines 0–47; an engine not listed is in its reset state (R308). -/
  eng : Tab Nat Engine := []
  /-- clusters (R308). -/
  cl : Vector Cluster 6 := .replicate 6 {}
  /-- tasks by (owner, task number) (R362). -/
  tasks : Tab (Nat × Nat) Task := []
  /-- run states by owner tag (R373). -/
  own : Tab Nat OwnerRun := []
  /-- FB_FRAME.CUT, W1C (R385). -/
  cut : Bool := false
  /-- FB_FRAME_NO (R385). -/
  frameNo : BitVec 32 := 0
  /-- a frame has started since start-up (R357). -/
  framed : Bool := false
  /-- LT of the last frame boundary (R357). -/
  frameLt : LT := 0
  /-- FB_FRAME.TICKS: F in force in base ticks (R385). -/
  ticks : Nat := 0
  /-- windows in force by engine (R359). -/
  windows : Tab Nat (List Window) := []
  /-- some cluster has finished a reload since start-up (R353). -/
  up : Bool := false
  /-- base ticks and frames run, from the end of phase 7 (R376). -/
  running : Bool := false
  /-- staged initial states and STOP policies in force (R376). -/
  ownCfg : Tab Nat OwnerCfg := []
  /-- committed code images by owner (R349). -/
  images : Tab Nat CodeImage := []
  /-- FB_READ_INST commands that wait for the end of a cycle (R356). -/
  readWaits : List ReadWait := []
  deriving DecidableEq, Repr

/-- One waiting batch of point writes (R398). -/
structure Batch where
  /-- batch source (R398). -/
  src : BatchSrc := .su
  /-- writes (R398). -/
  writes : List PtWrite := []
  /-- arrival instant (R398). -/
  arrived : LT := 0
  /-- for the samples of a released grid instant: group, k and tag of the SAMPLE tasks it releases (R363). -/
  release : Option (Nat × Nat × LT) := none
  /-- for an output write, W: the instant at which its points become visible (R398). -/
  visible : Option LT := none
  deriving DecidableEq, Repr

/-- Point Store (chapter 13). -/
structure PsState where
  /-- READY (R406). -/
  ready : Bool := false
  /-- GUARD_ERR, W1C (R406). -/
  guardErr : Bool := false
  /-- ORPHAN_NEW, W1C (R406). -/
  orphanNew : Bool := false
  /-- FORCE_FULL, W1C (R406). -/
  forceFull : Bool := false
  /-- STALE_MARK, W1C (R406). -/
  staleMark : Bool := false
  /-- DENIED, W1C (R406). -/
  denied : Bool := false
  /-- FORCES_DROPPED, W1C (R406). -/
  forcesDropped : Bool := false
  /-- PS_MAX_WAIT, RC (R406). -/
  maxWait : BitVec 32 := 0
  /-- UPDATES, RC (R406). -/
  updates : BitVec 64 := 0
  /-- STALE_MARKS, RC (R406). -/
  staleMarks : BitVec 64 := 0
  /-- DENIED, RC (R406). -/
  deniedCtr : BitVec 64 := 0
  /-- GUARD_ERRORS, RC (R406). -/
  guardErrors : BitVec 64 := 0
  /-- records of defined points; every other index is UNDEFINED with owner 0xFF (R403). -/
  recs : Tab Nat PointRec := []
  /-- point definitions in force (R395). -/
  defs : Tab Nat PointDef := []
  /-- publication entries in force (R396). -/
  pubs : List PubCfg := []
  /-- T_PSW in µs (R398). -/
  tPsw : Nat := 16
  /-- force table in MRAM, 16,384 entries; content at first power-up DESIGN CHOICE empty (log 4) (R400). -/
  force : Tab Nat Force := []
  /-- dropped list (R402). -/
  dropped : List (Nat × Force) := []
  /-- batches waiting at the store, oldest first, at most one of a source (R398). -/
  waiting : List Batch := []
  /-- batches that their sources hold back until the one waiting has been applied, oldest first (R398). -/
  heldBack : List Batch := []
  /-- output writes applied and held invisible until W (R398). -/
  held : List Batch := []
  deriving DecidableEq, Repr

/-- Consecutive guard words of one replicated range (R425, R426). -/
structure ReplChunk where
  /-- engine (R425). -/
  engine : Nat := 0
  /-- first byte in instance memory (R425). -/
  ofs : Nat := 0
  /-- owner tag (R419). -/
  tag : Tag := 0
  /-- content (R426). -/
  data : List Byte := []
  deriving DecidableEq, Repr

/-- A replication being received (R426). -/
structure ReplRx where
  /-- range words received (R426). -/
  chunks : List ReplChunk := []
  /-- task clock offsets received (R419). -/
  tasks : List (Nat × BitVec 64) := []
  /-- payload words received (R426). -/
  count : Nat := 0
  /-- LT at which it became complete (R426). -/
  completeAt : Option LT := none
  deriving DecidableEq, Repr

/-- Replication (R425–R428). -/
structure ReplState where
  /-- replicated ranges in force, with their owner tags (R425). -/
  ranges : List (Nat × ReplRange) := []
  /-- this unit's captures at its last three frame boundaries, newest first (R426). -/
  captures : List (LT × List ReplChunk) := []
  /-- replications being received, by capture boundary (R426). -/
  rx : Tab (BitVec 64) ReplRx := []
  /-- one complete replication has been applied since STANDBY was entered (R409). -/
  applied : Bool := false
  /-- this frame's replication has been sent (R426). -/
  sent : Bool := true
  deriving DecidableEq, Repr

/-- Fail-over Unit and cabinet bus controller (chapters 04, 14). -/
structure FoState where
  /-- STATE (R439). -/
  state : FoRole := .start
  /-- PARTNER (R439). -/
  partner : Partner := .unknown
  /-- eligibility frozen at the loss of the partner (R409). -/
  frozenElig : Bool := false
  /-- the partner's last good heartbeat (R441). -/
  hb : BrxMsg := {}
  /-- LT of its arrival (R420). -/
  hbAt : LT := 0
  /-- LT of the last heartbeat sent (R420). -/
  hbTxAt : LT := 0
  /-- the Brixig link is up (R416). -/
  linkUp : Bool := false
  /-- GATE_OPEN (R439). -/
  gateOpen : Bool := false
  /-- WITNESS_HELD (R439). -/
  witnessHeld : Bool := false
  /-- CLAIM_CHG, W1C (R439). -/
  claimChg : Bool := false
  /-- PARTNER_LOST, W1C (R439). -/
  partnerLost : Bool := false
  /-- DIAG_TRIG, W1C (R439). -/
  diagTrig : Bool := false
  /-- SPLIT, W1C (R439). -/
  split : Bool := false
  /-- REPL_LATE, W1C (R439). -/
  replLate : Bool := false
  /-- EPOCH_LOW, W1C (R439). -/
  epochLow : Bool := false
  /-- claim in force while ACTIVE (R440). -/
  claim : BitVec 32 := 0
  /-- E_mem in MRAM; content at first power-up DESIGN CHOICE 0 (log 4) (R411). -/
  eMem : BitVec 24 := 0
  /-- EPOCH_RST (R415). -/
  epochRst : Bool := false
  /-- the unit waits to form its claim after an epoch reset (R414). -/
  epochClaimDue : Bool := false
  /-- FO_DIAG bits 3:0 (R440). -/
  diag : BitVec 4 := 0
  /-- FO_DIAG.LAST_REASON (R440). -/
  lastReason : BitVec 4 := 0
  /-- FO_DIAG.HELD (R440). -/
  held : Bool := false
  /-- FO_LT_OFFSET; no reset given: DESIGN CHOICE 0 (log 4) (R440). -/
  ltOffset : BitVec 64 := 0
  /-- Δ of the last 64 heartbeats, newest first (R421). -/
  offsets : List Int := []
  /-- FO_LINK_DELAY; no reset given: DESIGN CHOICE 0 (log 4) (R440). -/
  linkDelay : BitVec 32 := 0
  /-- LT of the last FO_WDOG write (R430). -/
  wdogAt : LT := 0
  /-- HB_RX, HB_MISSED, BRX_GUARD_ERR, REPL_APPLIED, REPL_WORDS_CORRECTED, REPL_INCOMPLETE, CLAIMS, GATED_QSEND, RC (R440). -/
  ctr : Vector (BitVec 64) 8 := .replicate 8 0
  /-- pair settings in force (R441). -/
  cfg : PairCfg := {}
  /-- SEQ of the next message; DESIGN CHOICE 0 (log 4) (R418). -/
  txSeq : BitVec 32 := 0
  /-- uncorrectable guard errors in live data of the last second (R430). -/
  guardErrs : List Nat := []
  /-- LT at which T_HANDOVER ends (R434). -/
  handoverAt : Option LT := none
  /-- end of the last T_HANDOVER: phasor frames leave from the first t_r after it (R434). -/
  streamFrom : Option LT := none
  /-- claim instant (R436). -/
  claimAt : LT := 0
  /-- FO_SWAP accepted: earliest boundary and the command to reply to (R438). -/
  swapAt : List (LT × Waiting) := []
  /-- swaps done whose partner claim is not yet seen, with this unit's last claim (R438). -/
  swapWait : List (BitVec 32 × Waiting) := []
  /-- last stNum of every block received from the active unit (R429). -/
  goStRx : Tab Nat (BitVec 32) := []
  /-- LT at which the discovery time ends (R423). -/
  discoverAt : Option LT := none
  /-- instant of the last IMAGE heard on any segment, in tu without a wrap (R414). -/
  lastImageAt : Option Nat := none
  /-- since when both conditions of the TIME_SV trigger have held, in tu without a wrap (R430). -/
  timeSvSince : Option Nat := none
  /-- cabinet cycle period in force, in µs (R136). -/
  cabPeriodUs : Nat := 1000
  /-- for queues 0x08–0x0B, whose frames they hold, oldest first: GOOSE block (false) or phasor stream (true) (R413). -/
  gateFifo : Tab Nat (List (Bool × Nat)) := []
  /-- snapshot instant of the task cycle that last wrote an output point (R149). -/
  outTs : Tab Nat LT := []
  /-- cabinet-bus segments C0 and C1 (R151). -/
  seg : Vector Segment 2 := .replicate 2 {}
  /-- replication (R425). -/
  repl : ReplState := {}
  deriving DecidableEq, Repr

/-- One energy register of a point with its residue (R462). -/
structure MiReg where
  /-- register in mWh, mvarh or mVAh (R462). -/
  value : BitVec 64 := 0
  /-- hidden residue below one unit, in 2^−40 of it (R462). -/
  residue : Int := 0
  /-- wrap counter of the register (R462). -/
  wrap : BitVec 16 := 0
  /-- wrap counter of the short view (R462). -/
  shortWrap : BitVec 16 := 0
  deriving DecidableEq, Repr

/-- One interval record (R470). -/
structure MiInterval where
  /-- START_TAI (R470). -/
  startTai : BitVec 48 := 0
  /-- LEN_S (R470). -/
  lenS : BitVec 32 := 0
  /-- FLAGS (R470). -/
  flags : BitVec 32 := 0
  /-- increases in the order of REG (R470). -/
  delta : List (BitVec 64) := []
  /-- INT_NO (R470). -/
  intNo : BitVec 32 := 0
  deriving DecidableEq, Repr

/-- One instant of a point that waits for its six samples (R448). -/
structure MiInst where
  /-- LT_S of second S (R448). -/
  sec : LT := 0
  /-- smpCnt (R448). -/
  k : Nat := 0
  /-- when its first sample arrived (R448). -/
  tFirst : LT := 0
  /-- channel 0–5 and value in LSB, for the good samples (R448). -/
  vals : List (Nat × Int) := []
  deriving DecidableEq, Repr

/-- One instant with its weighted samples, before correction (R447, R456). -/
structure MiRaw where
  /-- tag (R448). -/
  tag : LT := 0
  /-- UA, UB, UC, IA, IB, IC in primary units, binary64 (R447). -/
  v : List (BitVec 64) := []
  /-- channels that took their previous sample (R448). -/
  missing : List Bool := []
  deriving DecidableEq, Repr

/-- One corrected instant (R456, R459). -/
structure MiCorr where
  /-- tag (R448). -/
  tag : LT := 0
  /-- corrected voltages (R456). -/
  u : List (BitVec 64) := []
  /-- corrected currents (R456). -/
  i : List (BitVec 64) := []
  /-- voltages a quarter of T_m earlier (R459). -/
  uq : List (BitVec 64) := []
  /-- voltage that is the zero-crossing reference (R458). -/
  ref : Nat := 0
  deriving DecidableEq, Repr

/-- One metering point (R447–R470). -/
structure MiPoint where
  /-- NO_ZC (R469). -/
  noZc : Bool := false
  /-- FREQ_INVALID; DESIGN CHOICE set until the first period (log 4) (R469). -/
  freqInvalid : Bool := true
  /-- GAP of the measurement period in progress (R469). -/
  gap : Bool := false
  /-- TIME_UNCERTAIN (R469). -/
  timeUncertain : Bool := false
  /-- CREEP (R469). -/
  creep : Bool := false
  /-- SEG_CHANGE of the measurement period in progress (R469). -/
  segChange : Bool := false
  /-- TAP_LOST (R469). -/
  tapLost : Bool := false
  /-- PT_STATUS of the last period (R469). -/
  ptStatus : BitVec 32 := 0
  /-- PT_OK (R475). -/
  ok : Bool := false
  /-- segments in force of IA, IB, IC (R457). -/
  seg : Vector Nat 3 := .replicate 3 0
  /-- instants waiting for their samples, oldest first (R448). -/
  waiting : List MiInst := []
  /-- the last instant processed: LT_S and k (R448). -/
  lastInst : Option (LT × Nat) := none
  /-- when the last sample was received, as a count of tu that does not wrap (R448). -/
  lastRx : Nat := 0
  /-- previous sample of each channel; DESIGN CHOICE 0 before the first (log 4) (R448). -/
  prev : List Int := [0, 0, 0, 0, 0, 0]
  /-- consecutive substituted instants of each channel (R448). -/
  missRun : Vector Nat 6 := .replicate 6 0
  /-- metering gap in progress: its start as LT and as a count of tu that does not wrap (R448). -/
  gapFrom : Option (LT × Nat) := none
  /-- instants received since the point started (R456). -/
  rawN : Nat := 0
  /-- instants that corrections still to come depend on, newest first (R456). -/
  raw : List MiRaw := []
  /-- instants corrected since the point started (R456). -/
  corrN : Nat := 0
  /-- corrected instants of the W-instant window and the quarter-period delay, newest first (R461). -/
  corr : List MiCorr := []
  /-- corrected instants of the measurement period in progress, newest first (R459). -/
  period : List MiCorr := []
  /-- an armed zero crossing of UA, UB, UC (R458). -/
  armed : Vector Bool 3 := .replicate 3 false
  /-- last crossing of UA, UB, UC in the period (R459). -/
  zc : Vector (Option LT) 3 := .replicate 3 none
  /-- positive crossings of the reference since the period began (R458). -/
  zcCount : Nat := 0
  /-- crossing that began the period (R458). -/
  zcFirst : Option LT := none
  /-- last crossing, or the start of the fixed period in progress (R458). -/
  zcLast : LT := 0
  /-- measured frequency f_m, binary64; f0 is used while it is invalid (R456). -/
  fm : BitVec 64 := 0
  /-- quantities of the last period, U_A to FREQ in the order of R469. -/
  quant : List (BitVec 32) := []
  /-- RMS currents of the previous period; DESIGN CHOICE 0 before the first (log 4) (R457). -/
  iPrev : List (BitVec 64) := [0, 0, 0]
  /-- MEAS_END_LT (R469). -/
  measEnd : LT := 0
  /-- A_PLUS, A_MINUS, RQ1–RQ4, S_PLUS, S_MINUS, A_NET, R_NET (R462). -/
  reg : Vector MiReg 10 := .replicate 10 {}
  /-- registers at the start of the interval (R465). -/
  intStart : Vector (BitVec 64) 10 := .replicate 10 0
  /-- flags gathered in the interval (R465). -/
  intFlags : BitVec 32 := 0
  /-- TAI in tu at which the interval in progress started (R465). -/
  intTai : Option Int := none
  /-- when the interval in progress started, as a count of tu that does not wrap (R465). -/
  intAt : Int := 0
  /-- number of the next interval; no first value given: DESIGN CHOICE 0 (log 4) (R470). -/
  intNo : BitVec 32 := 0
  /-- last four interval records, newest first (R470). -/
  intervals : List MiInterval := []
  /-- sequence word of the point's block, even; first value DESIGN CHOICE 0 (log 4) (R466). -/
  seq : BitVec 32 := 0
  deriving DecidableEq, Repr

/-- One metrology log record (R473). -/
structure MiLogRec where
  /-- SEQ (R473). -/
  seq : BitVec 32 := 0
  /-- TYPE (R473). -/
  type : BitVec 16 := 0
  /-- POINT (R473). -/
  point : BitVec 8 := 0xFF
  /-- STATE (R473). -/
  state : SealState := .blank
  /-- TAI_S (R473). -/
  taiS : BitVec 48 := 0
  /-- PCC (R473). -/
  pcc : BitVec 32 := 0
  /-- ARG0 (R473). -/
  arg0 : BitVec 32 := 0
  /-- ARG1 (R473). -/
  arg1 : BitVec 64 := 0
  deriving DecidableEq, Repr

/-- One MRAM copy of registers, residues, wrap counters and segments (R463). -/
structure MiSave where
  /-- generation count (R463). -/
  gen : Nat := 0
  /-- commit guard word written (R463). -/
  complete : Bool := false
  /-- registers of the eight points (R463). -/
  regs : List (List MiReg) := []
  /-- segments of the eight points (R463). -/
  segs : List (List Nat) := []
  /-- when it was saved, as a count of tu that does not wrap (R463). -/
  at_ : Nat := 0
  /-- the metering gaps in progress: point, start LT and start as a count of tu that does not wrap (R448). -/
  gaps : List (Nat × LT × Nat) := []
  /-- a save made as VDD_MI fell (R463). -/
  powerFail : Bool := false
  deriving DecidableEq, Repr

/-- One update on the mailbox link, as the bytes of its words (R443, R466): the status page, a point block, a log record with its place in the
log, or that the log is empty. -/
inductive MailUpd where
  | page (l : List Byte)
  | block (n : Fin 8) (l : List Byte)
  | rec_ (n : Nat) (l : List Byte)
  | cleared
  deriving DecidableEq, Repr

/-- What the main die stores of the mailbox (R466–R470, R475). -/
structure Mailbox where
  /-- status page as last received (R468). -/
  page : List Byte := []
  /-- ALIVE, set by the main die (R466). -/
  alive : Bool := false
  /-- MI_ALIVE_LT (R468). -/
  aliveLt : LT := 0
  /-- the same instant as a count of tu that does not wrap (R466). -/
  aliveAt : Nat := 0
  /-- point blocks as last received (R469). -/
  blocks : Vector (List Byte) 8 := .replicate 8 []
  /-- mirrored log records, oldest first (R468). -/
  log : List (List Byte) := []
  /-- words with an uncorrectable error discarded at the main die (R443). -/
  discard : BitVec 32 := 0
  deriving DecidableEq, Repr

/-- The metrology die and the mailbox (chapter 15). -/
structure MiState where
  /-- the die's own supplies are up; DESIGN CHOICE true (log 4) (R442). -/
  powered : Bool := true
  /-- seal state in force (R449). -/
  sealSt : SealState := .blank
  /-- seal state that takes effect with the next measurement period (R449). -/
  sealNext : Option SealState := none
  /-- MI_SEAL_N debounced low (R450). -/
  sealClosed : Bool := false
  /-- parameter set in force, 4,256 bytes (R454). -/
  params : Option (List Byte) := none
  /-- written set, applied from the next measurement period (R453). -/
  paramsNext : Option (List Byte) := none
  /-- two MRAM copies of the parameter set; none: never written, or uncorrectable (R455). -/
  mram : Vector (Option (List Byte)) 2 := .replicate 2 none
  /-- a parameter set has been written to MRAM at some time (R449). -/
  mramSeen : Bool := false
  /-- seal state kept over a power-down (R450). -/
  mramSeal : SealState := .blank
  /-- part 0 of WRITE_PARAM and when it arrived, as a count of tu that does not wrap (R453). -/
  part0 : Option (List Byte × Nat) := none
  /-- PCC, in MRAM, never reset; first value DESIGN CHOICE 0 (log 4) (R453). -/
  pcc : BitVec 32 := 0
  /-- UNSEAL_COUNT, in MRAM, saturating; first value DESIGN CHOICE 0 (log 4) (R450). -/
  unsealCount : BitVec 32 := 0
  /-- metrology log, oldest first, 4,096 records (R472). -/
  log : List MiLogRec := []
  /-- SEQ of the next record (R473). -/
  logSeq : BitVec 32 := 1
  /-- MI_LOG_LOST, saturating (R474). -/
  logLost : BitVec 32 := 0
  /-- ZC_EVENTS (R458). -/
  zcEvents : BitVec 32 := 0
  /-- NO_ZC records of the last hour (R458). -/
  zcLogs : List Nat := []
  /-- TIME_OK (R446). -/
  timeOk : Bool := false
  /-- when the last valid time record arrived, as a count of tu that does not wrap (R446). -/
  timeAt : Nat := 0
  /-- last time record (R446). -/
  timeRec : Option TimeRec := none
  /-- the LT of the last time record, as a count of tu that does not wrap (R465). -/
  recAt : Int := 0
  /-- time records on the tap link with the tag of their words, oldest first (R443, R446). -/
  timeLink : List (TimeRec × Tag) := []
  /-- PF_SAVE (R463). -/
  pfSave : Bool := false
  /-- when the die last lost its power, as a count of tu that does not wrap (R463). -/
  downAt : Nat := 0
  /-- MI_PAGE_SEQ, even; first value DESIGN CHOICE 0 (log 4) (R466). -/
  pageSeq : BitVec 32 := 0
  /-- two MRAM copies of the registers (R463). -/
  saves : Vector MiSave 2 := .replicate 2 {}
  /-- metering points (R447). -/
  point : Vector MiPoint 8 := .replicate 8 {}
  /-- words with an uncorrectable error discarded at the die (R443). -/
  tapDiscard : BitVec 32 := 0
  /-- mailbox store in PD1 (R466). -/
  mail : Mailbox := {}
  /-- updates on the one-way mailbox link with the tag of their words, oldest first (R443). -/
  mailLink : List (MailUpd × Tag) := []
  deriving DecidableEq, Repr

/-- One key slot (R482, R507). -/
structure KeySlot where
  /-- TYPE (R482). -/
  type : KeyType := .empty
  /-- LEVEL (R482). -/
  level : BitVec 3 := 0
  /-- PARENT, 0x400 the root (R482). -/
  parent : BitVec 11 := 0
  /-- OWNER (R482). -/
  owner : Tag := 0
  /-- FLAGS.EXPORTABLE (R482). -/
  exportable : Bool := false
  /-- FLAGS.COMPAT (R482). -/
  compat : Bool := false
  /-- FLAGS.PLAIN (R482). -/
  plain : Bool := false
  /-- USE (R482). -/
  use : BitVec 8 := 0
  /-- DEST (R482). -/
  dest : BitVec 32 := 0
  /-- KEY_ID (R482). -/
  keyId : BitVec 32 := 0
  /-- key material (never readable by the host) (R482). -/
  material : List Byte := []
  /-- auxiliary data: XPN SSCI and salt (R482). -/
  aux : List Byte := []
  /-- GEN (R482). -/
  gen : BitVec 32 := 0
  /-- the commit word names copy B (R482). -/
  curB : Bool := false
  /-- STATE (R507). -/
  state : SlotState := .empty
  deriving DecidableEq, Repr

/-- The guard words of a key slot in MRAM: copy A, copy B and the commit word, all with the owner's tag (R482). -/
structure SlotMram where
  /-- owner tag of the words (R482). -/
  tag : Tag := 0
  /-- copy A, 192 bytes (R482). -/
  copyA : List Byte := []
  /-- copy B, 192 bytes (R482). -/
  copyB : List Byte := []
  /-- the commit word, 32 bytes (R482). -/
  commit : List Byte := []
  deriving DecidableEq, Repr

/-- One request queued or running in the shared engines (R498, R499). -/
structure KvReq where
  /-- engines it passes in order, with the engine slots still needed in each (R499). -/
  stages : List (KvEngine × Nat) := []
  /-- owner (R498). -/
  owner : Tag := 0
  /-- tag epoch at the start (R498). -/
  epoch : BitVec 16 := 0
  /-- key slots it names; once started it holds their copies (R496). -/
  slots : List Nat := []
  /-- its first engine slot has started (R496). -/
  started : Bool := false
  /-- command to reply to (R500). -/
  w : Waiting := {}
  /-- what it computes (R500). -/
  op : KvOp := .hash false []
  /-- the engine copies it holds, taken as its first engine slot starts (R493). -/
  keys : List KeySlot := []
  deriving DecidableEq, Repr

/-- Key Vault & Crypto (chapter 16). -/
structure KvState where
  /-- READY (R505). -/
  ready : Bool := false
  /-- GUARD_ERR, W1C (R505). -/
  guardErr : Bool := false
  /-- REVOKED, W1C (R505). -/
  revoked : Bool := false
  /-- TRNG_FAIL (R505). -/
  trngFail : Bool := false
  /-- TRNG_EVT, W1C (R505). -/
  trngEvt : Bool := false
  /-- DENIED, W1C (R505). -/
  denied : Bool := false
  /-- K_root, in KV's internal registers from secure boot on; empty before (R477). -/
  root : List Byte := []
  /-- key slots 0x000–0x3FF in MRAM; others empty (R482). -/
  mram : Tab Nat SlotMram := []
  /-- KV's slot table, with the keys as its engines take them: built from MRAM at power-up; others empty (R494, R495). -/
  slot : Tab Nat KeySlot := []
  /-- revocation journal (R495). -/
  journal : Option Nat := none
  /-- LC fuse field; fused: DESIGN CHOICE FIELD (log 4) (R476). -/
  lcPairs : BitVec 6 := 0b000011
  /-- LC_SEEN in MRAM; DESIGN CHOICE FIELD (log 4) (R480). -/
  lcSeen : BitVec 8 := 2
  /-- KV_LC.ERASED (R506). -/
  erased : Bool := false
  /-- FW_SVN: blown bits; fused: DESIGN CHOICE 0 (log 4) (R476). -/
  fwSvn : Nat := 0
  /-- FWKEY_REVOKE; fused: DESIGN CHOICE 0 (log 4) (R476). -/
  fwRevoke : BitVec 4 := 0
  /-- FW_SEL; DESIGN CHOICE FW-A (log 4) (R502). -/
  fwSelB : Bool := false
  /-- KV_BOOT_STATUS.SLOT (R506). -/
  bootSlot : BitVec 2 := 0
  /-- FAIL_A (R506). -/
  failA : BitVec 4 := 0
  /-- FAIL_B (R506). -/
  failB : BitVec 4 := 0
  /-- SVN of the running firmware (R506). -/
  svn : BitVec 7 := 0
  /-- SVN of the firmware in the other flash slot; DESIGN CHOICE 0 (log 4) (R504). -/
  otherSvn : Nat := 0
  /-- requests queued or running in the shared engines, oldest first (R498). -/
  reqs : List KvReq := []
  /-- next engine slot of each engine in its cycle; 0 where not listed; DESIGN CHOICE 0 at reset (log 4) (R498). -/
  enginePos : Tab KvEngine Nat := []
  /-- consecutive passing samples since a health failure (R501). -/
  trngGood : Nat := 0
  /-- both firmware slots failed: no firmware runs (R503). -/
  halted : Bool := false
  deriving DecidableEq, Repr

/-- One host queue of an instance (R517). -/
structure HostQ where
  /-- QM queue number (R517). -/
  qnum : Nat := 0
  /-- direction: fabric to host (R517). -/
  toHost : Bool := false
  /-- ring base (R517). -/
  base : BitVec 64 := 0
  /-- s: log2 of the entries (R517). -/
  size : Nat := 4
  /-- vector (R517). -/
  vector : Nat := 0
  /-- TAIL (R515). -/
  tail : BitVec 16 := 0
  /-- HEAD (R515). -/
  head : BitVec 16 := 0
  /-- stopped (freeze, function-level reset) (R526). -/
  stopped : Bool := false
  deriving DecidableEq, Repr

/-- One instance 1–64 (R514–R533). -/
structure Inst where
  /-- STATE (R514). -/
  state : InstState := .absent
  /-- tag epoch (R524). -/
  epoch : BitVec 16 := 0
  /-- RESET_REQ, W1C (R533). -/
  resetReq : Bool := false
  /-- APERTURE, W1C (R533). -/
  aperture : Bool := false
  /-- EPOCH_DISCARDS, RC (R533). -/
  epochDiscards : BitVec 64 := 0
  /-- DMA_DENIED, RC (R533). -/
  dmaDenied : BitVec 64 := 0
  /-- shares in force (R518). -/
  shares : SharesCfg := {}
  /-- CONFIG_HASH in force (R632). -/
  configHash : BitVec 256 := 0
  /-- host queues 0–15 (R517). -/
  hq : Tab Nat HostQ := []
  /-- reset by a removal commit (R514). -/
  removing : Bool := false
  /-- freeze requested: earliest boundary and the command (R526). -/
  freezeAt : Option (LT × Waiting) := none
  /-- thaw requested: when, and the command (R531). -/
  thawAt : Option (LT × Waiting) := none
  /-- verified blob to be applied at the next boundary, and when it was verified (R530). -/
  restore : Option (LT × SavedState) := none
  /-- run state that the owner takes at the thaw (R531). -/
  resume : RunState := .hold
  /-- the sections as they stood at the freeze boundary (R527). -/
  saved : Option SavedState := none
  /-- a restore has been applied since the freeze (R531). -/
  restored : Bool := false
  /-- DMA reads issued and not completed (R525). -/
  dmaOut : Nat := 0
  /-- DMA reads of an older epoch still in flight (R524). -/
  dmaOld : Nat := 0
  /-- start of the last reset, as a count of tu that does not wrap (R525). -/
  resetAt : Nat := 0
  deriving DecidableEq, Repr

/-- One entry of the MSI-X table in BAR4 (R510, R583); reset values are PCIe's, PRESUMED (log 77). -/
structure MsixEntry where
  /-- message address (R510). -/
  addr : BitVec 64 := 0
  /-- message data (R510). -/
  data : BitVec 32 := 0
  /-- per-vector mask (R583). -/
  mask : Bool := true
  deriving DecidableEq, Repr

/-- Instance Manager & Host Interface (chapter 17). -/
structure ImState where
  /-- READY (R532). -/
  ready : Bool := false
  /-- PCIe link up (R509). -/
  linkUp : Bool := false
  /-- LINK_X8_16 (R532). -/
  linkX8 : Bool := false
  /-- RESET_REQ, W1C (R532). -/
  resetReq : Bool := false
  /-- APERTURE, W1C (R532). -/
  aperture : Bool := false
  /-- EPOCH_DISC, W1C (R532). -/
  epochDisc : Bool := false
  /-- FLR, W1C (R532). -/
  flr : Bool := false
  /-- instances 1–64; one not listed is ABSENT with every register 0 (R514). -/
  inst : Tab Nat Inst := []
  /-- event routing in force; others 0 (R534). -/
  route : Tab Nat EvRoute := []
  /-- IM_INSTANCE_RESET commands with the instances whose reset they still wait for, and their reply (R525). -/
  resets : List (Waiting × List Nat × ReplyBody) := []
  /-- upper halves latched under R18, by (requester, register offset). -/
  latches : Tab (Nat × Nat) (BitVec 32) := []
  /-- MSI-X table, 1,088 vectors; one not listed is in its reset state (R510). -/
  msix : Tab Nat MsixEntry := []
  /-- vectors whose pending bit is set (R583). -/
  msixPend : List Nat := []
  deriving DecidableEq, Repr

/-- One power domain PD1–PD8 (R536–R541, R561). -/
structure PdState where
  /-- STATE (R561). -/
  state : PdSt := .on
  /-- MODE (R536). -/
  mode : PdMode := .on
  /-- PA_PDn_IDLE: staged idle time in ms (R538). -/
  idleMs : Nat := 100
  /-- IN_USE (R537). -/
  inUse : Bool := false
  /-- WOKEN, W1C (R561). -/
  woken : Bool := false
  /-- LOCK_HIT, W1C (R561). -/
  lockHit : Bool := false
  /-- PA_PDn_WAKES, RC (R561). -/
  wakes : BitVec 32 := 0
  /-- PA_PDn_MAX_STALL in ns, RC (R561). -/
  maxStall : BitVec 32 := 0
  /-- LOCK_HITS, RC, saturating (R561). -/
  lockHits : BitVec 32 := 0
  /-- the mode staged by PA_STAGE_DOMAINS that is in force, to which PA_DOMAIN_CTRL's unlock returns (R563). -/
  staged : PdMode := .on
  /-- unwrapped LT of the last access to its data memory, or of the instant from which its idle time counts (R538, R541). -/
  lastUse : Nat := 0
  /-- unwrapped LT at which the present wake started (R539). -/
  wakeAt : Nat := 0
  /-- WOKEN and WAKES before the present wake, for a lock on the same clock cycle (R541). -/
  wakeWas : Bool × BitVec 32 := (false, 0)
  /-- a switch-off or lock that waits for the accesses in progress (R538, R541). -/
  after : Option PdSt := none
  /-- accesses stalled for the wake, by unwrapped LT of arrival (R539). -/
  stalled : List Nat := []
  deriving DecidableEq, Repr

/-- The Duiker retention SRAM (R546, R547). -/
structure Retention where
  /-- the manager area, bytes 0x100–0xFFF; content at first power-up DESIGN CHOICE 0 (log 4) (R546). -/
  mem : Memory := []
  /-- guard words (0–127) whose valid bit is set: 0 header, 1 and 2 time calibration, 3 sleep record, 4 last wake source, 5 refused-entry counters, 8–127 manager area (R547). -/
  valid : List Nat := []
  /-- guard words with an uncorrectable error (R547). -/
  err : List Nat := []
  /-- C: 48-bit integer and 16-bit fraction of a tu (R53). -/
  calC : BitVec 64 := 0
  /-- LT_sleep (R53). -/
  calLt : LT := 0
  /-- RTC count at LT_sleep (R53). -/
  calRtc : BitVec 48 := 0
  /-- the calibration is unreferenced (R53). -/
  calUnref : Bool := true
  /-- TAI anchor: LT_A (R546). -/
  anchorLt : LT := 0
  /-- TAI anchor: seconds (R546). -/
  anchorS : BitVec 48 := 0
  /-- TAI anchor: nanoseconds (R546). -/
  anchorNs : BitVec 32 := 0
  /-- TAI anchor: fraction (R546). -/
  anchorFr : BitVec 16 := 0
  /-- currentUtcOffset (R546). -/
  utcOffset : BitVec 16 := 0
  /-- currentUtcOffset is known (R631). -/
  utcKnown : Bool := false
  /-- TAI_VALID at entry (R546). -/
  taiValid : Bool := false
  /-- servo state at entry (R546). -/
  servo : Servo := .freerun
  /-- wake mask (R546). -/
  sleepMask : BitVec 16 := 0
  /-- alarm target (R546). -/
  sleepAlarm : BitVec 48 := 0
  /-- sleep record: domain modes at entry, PD2–PD8 by number (R546). -/
  sleepModes : Vector PdMode 9 := .replicate 9 .on
  /-- header: generation; one higher at each sleep entry, DESIGN CHOICE (log 4) (R546). -/
  generation : BitVec 32 := 0
  /-- refused-entry counters, saturating (R551). -/
  refused : Vector (BitVec 16) 6 := .replicate 6 0
  deriving DecidableEq, Repr

/-- Power & Always-On (chapter 18). -/
structure PaState where
  /-- PA_STATUS.PHASE (R560). -/
  phase : BitVec 4 := 1
  /-- PROT_READY (R560). -/
  protReady : Bool := false
  /-- FULL_READY (R560). -/
  fullReady : Bool := false
  /-- NO_PACKAGE (R560). -/
  noPackage : Bool := false
  /-- WARM (R560). -/
  warm : Bool := false
  /-- LOCKED_ACCESS, W1C (R560). -/
  lockedAccess : Bool := false
  /-- BROWNOUT, W1C (R560). -/
  brownout : Bool := false
  /-- TAMPER, W1C (R560). -/
  tamper : Bool := false
  /-- SLEEP_REFUSED, W1C (R560). -/
  sleepRefused : Bool := false
  /-- OPSECS_UNCERTAIN (R560). -/
  opsecsUncertain : Bool := false
  /-- RETAIN_LOST (R560). -/
  retainLost : Bool := false
  /-- PD1–PD8 by number (entry 0 unused) (R561). -/
  pd : Vector PdState 9 := .replicate 9 {}
  /-- PA_WAKE_SRC 3:0 (R562). -/
  wakeSrc : BitVec 4 := 0
  /-- PA_WAKE_SRC 8:4 (R562). -/
  wakeSeen : BitVec 5 := 0
  /-- RTC count of the wake (R546). -/
  wakeRtc : BitVec 48 := 0
  /-- PA_BOR_CAUSE.CAUSE (R562). -/
  borCause : BitVec 4 := 0
  /-- PA_BOR_CAUSE.LATER (R562). -/
  borLater : BitVec 4 := 0
  /-- PA_OPSECS; DESIGN CHOICE 0 at first power-up (log 4) (R548). -/
  opsecs : BitVec 32 := 0
  /-- MRAM copy of the operating time (R548). -/
  opsecsMram : BitVec 32 := 0
  /-- a Duiker brown-out has occurred since the last start-up (R548). -/
  duikerBor : Bool := false
  /-- PA_PWR_CYCLES, MRAM; DESIGN CHOICE 0 (log 4) (R548). -/
  pwrCycles : BitVec 32 := 0
  /-- RTC count; DESIGN CHOICE 0 (log 4) (R546). -/
  rtc : BitVec 48 := 0
  /-- the RTC oscillator runs; DESIGN CHOICE true (log 4) (R549). -/
  rtcRunning : Bool := true
  /-- retention SRAM (R546). -/
  ret : Retention := {}
  /-- PA_TAMPER 3:0, W1C (R562). -/
  tamperLatched : BitVec 4 := 0
  /-- PA_TAMPER 7:4: present levels (R562). -/
  tamperLevel : BitVec 4 := 0
  /-- RTC count of the last latch (R553). -/
  tamperRtc : BitVec 48 := 0
  /-- an input has latched, and its flag and event wait for PD1 (R553). -/
  tamperDue : Bool := false
  /-- tamper modes and pull-up in force (R543). -/
  duiker : DuikerCfg := {}
  /-- the Duiker regulator is in low-power mode (R542). -/
  regLow : Bool := false
  /-- running, asleep or in VBAT standby (R549). -/
  power : PowerMode := .running
  /-- accepted PA_SLEEP (R550). -/
  sleepReq : Option (Waiting × BitVec 16 × BitVec 48) := none
  /-- entry steps taken (0 none, 1 owners stopped and calibrating) (R550). -/
  sleepStep : Nat := 0
  /-- LT at which PA_SLEEP was accepted (R550). -/
  sleepAt : LT := 0
  /-- a sleep has been entered, and no start-up has taken up its time calibration since (R547). -/
  slept : Bool := false
  /-- LT at which the last phase that ended did so (R554). -/
  lastEnd : LT := 0
  /-- RTC count at which the calibration started (R53). -/
  calRtc0 : BitVec 48 := 0
  /-- LT at which the calibration started (R53). -/
  calLt0 : LT := 0
  /-- PWR_REQ asserted (R551). -/
  pwrReq : Bool := false
  /-- unwrapped LT that stands for power-good, from which PA_PHASE_ENDp counts; PD1 leaves reset 1.0 ms after it: DESIGN CHOICE (log 4) (R562). -/
  goodLt : Int := -65536000000
  /-- PA_PHASE_ENDp, p = 1–11 (R562). -/
  phaseEnd : Vector (BitVec 32) 12 := .replicate 12 0
  /-- bit p: start-up phase p has ended or is skipped (R554). -/
  ended : BitVec 12 := 0
  /-- PWR_OK level (R545). -/
  pwrOk : Bool := true
  /-- this start-up follows power-good or a reset under R545 (R548). -/
  coldStart : Bool := true
  deriving DecidableEq, Repr

/-- States of the TAP controller of IEEE 1149.1 (R607). -/
inductive TapState where
  | reset | idle
  | drSelect | drCapture | drShift | drExit1 | drPause | drExit2 | drUpdate
  | irSelect | irCapture | irShift | irExit1 | irPause | irExit2 | irUpdate
  deriving DecidableEq, Repr

/-- What a JTAG instruction selects (R478). -/
inductive JtagInstr where
  | bypass
  | idcode
  | boundary
  | debug (n : Nat)
  deriving DecidableEq, Repr

/-- The JTAG pins at a rising edge of TCK (R591, R607). -/
structure TapPins where
  /-- TMS (R607). -/
  tms : Bool := true
  /-- TDI (R607). -/
  tdi : Bool := true
  deriving DecidableEq, Repr

/-- The test access port (R607). -/
structure Jtag where
  /-- state of the TAP controller (R607). -/
  tap : TapState := .reset
  /-- the instruction in force (R478). -/
  instr : JtagInstr := .idcode
  /-- instruction shift register, the bit next to TDO first (R607). -/
  ir : List Bool := []
  /-- data shift register that the instruction selects, the bit next to TDO first (R607). -/
  dr : List Bool := []
  /-- the boundary-scan cells as last updated (R607). -/
  cells : List Bool := []
  /-- TRST_N level; its pull-down holds it low where it is left open (R599, R607). -/
  trstN : Bool := false
  /-- the model's own: edges of TCK that the JTAG host has yet to apply, first in, first out (R607; log 158). -/
  drive : List TapPins := []
  /-- unwrapped LT of the last rising edge of TCK (R607). -/
  edgeAt : Nat := 0
  deriving DecidableEq, Repr

/-- What the boot ROM does on the boot flash's bus (R604). -/
inductive XspiOp where
  /-- XSPI_RESET_N low for 10 µs, then a wait of 100 µs -/
  | resetPulse
  /-- the JESD216 table of the device on XSPI_CS_N[0], in 1S-1S-1S mode at 25 MHz -/
  | readSfdp
  /-- 8D-8D-8D mode at a frequency -/
  | mode8d (mhz : Nat)
  /-- a read of a device from one of its addresses -/
  | read (cs : Nat) (addr len : Nat)
  deriving DecidableEq, Repr

/-- The PMBus bridge (R605, R606). -/
structure Pmbus where
  /-- PA_PMB_CTRL.ADDR (R606). -/
  addr : BitVec 7 := 0
  /-- CMD (R606). -/
  cmd : BitVec 8 := 0
  /-- READ (R606). -/
  read : Bool := false
  /-- LEN (R606). -/
  len : BitVec 3 := 0
  /-- PEC (R606). -/
  pec : Bool := false
  /-- FAST (R606). -/
  fast : Bool := false
  /-- PA_PMB_DATA (R606). -/
  data : BitVec 32 := 0
  /-- BUSY: a transaction is in progress (R606). -/
  busy : Bool := false
  /-- DONE, W1C (R606). -/
  done : Bool := false
  /-- NACK, W1C (R606). -/
  nack : Bool := false
  /-- PEC_ERR, W1C (R606). -/
  pecErr : Bool := false
  /-- TIMEOUT, W1C (R606). -/
  timeout : Bool := false
  /-- ALERT: PMB_ALERT_N is low (R606). -/
  alert : Bool := false
  deriving DecidableEq, Repr

/-- Guard counters of one region (R572). -/
structure GuardRegion where
  /-- CORRECTED, RC (R572). -/
  corrected : BitVec 64 := 0
  /-- UNCORRECTABLE, RC (R572). -/
  uncorr : BitVec 64 := 0
  /-- TAG_REFUSED, RC (R572). -/
  tagRefused : BitVec 64 := 0
  /-- corrected errors of the last second (rate limit of 64) (R574). -/
  corrAt : List Nat := []
  deriving DecidableEq, Repr

/-- One error record (R573). -/
structure ErrRec where
  /-- LT of detection (R573). -/
  lt : LT := 0
  /-- guard-word index within the region (R573). -/
  addr : BitVec 64 := 0
  /-- REGION (R573). -/
  region : BitVec 8 := 0
  /-- SOURCE (R573). -/
  source : BitVec 8 := 0
  /-- REQ_TAG (R573). -/
  reqTag : Tag := 0
  /-- SYNDROME S0 (R573). -/
  s0 : BitVec 8 := 0
  /-- SYNDROME S1 (R573). -/
  s1 : BitVec 8 := 0
  /-- SYNDROME S2 (R573). -/
  s2 : BitVec 8 := 0
  deriving DecidableEq, Repr

/-- The guard code's findings kept by SU (R570–R574). -/
structure GuardState where
  /-- regions 0x0–0xF (R572). -/
  region : Vector GuardRegion 16 := .replicate 16 {}
  /-- SU_GERR_STATUS.UNCORR, W1C (R574). -/
  uncorr : Bool := false
  /-- SU_GERR_STATUS.CORR_RATE, W1C (R574). -/
  corrRate : Bool := false
  /-- SU_GERR_STATUS.REC_OVF, W1C (R573). -/
  recOvf : Bool := false
  /-- error-record FIFO, oldest first, 16 maximum (R573). -/
  recs : List ErrRec := []
  /-- next guard word to be scrubbed, by region and domain (R570). -/
  scrubPos : Tab (Nat × Nat) Nat := []
  deriving DecidableEq, Repr

/-- One platform log record (R575). -/
structure LogRec where
  /-- SEQ (R575). -/
  seq : BitVec 32 := 0
  /-- TYPE (R576). -/
  type : BitVec 16 := 0
  /-- SOURCE (R575). -/
  source : BitVec 8 := 0xFF
  /-- OWNER (R575). -/
  owner : Tag := 0
  /-- LT of the occurrence (R575). -/
  lt : LT := 0
  /-- OPSECS (R575). -/
  opsecs : BitVec 32 := 0
  /-- PWR_CYCLES (R575). -/
  pwrCycles : BitVec 32 := 0
  /-- ARG0 (R576). -/
  arg0 : BitVec 32 := 0
  /-- ARG1 (R576). -/
  arg1 : BitVec 32 := 0
  deriving DecidableEq, Repr

/-- The platform event log (R575–R580), in MRAM. -/
structure LogState where
  /-- records held, oldest first; content at first power-up DESIGN CHOICE empty (log 4) (R575). -/
  recs : List LogRec := []
  /-- SU_LOG_FIRST; first value DESIGN CHOICE 0 (log 4) (R580). -/
  first : BitVec 32 := 0
  /-- SU_LOG_LOST, RC, saturating (R578). -/
  lost : BitVec 32 := 0
  /-- SU_LOG_WBASE bits 1:0 (R580). -/
  wbase : BitVec 2 := 0
  /-- WARN (R578). -/
  warn : Bool := false
  /-- FULL (R578). -/
  full : Bool := false
  /-- CLEAR_REFUSED, W1C (R579). -/
  clearRefused : Bool := false
  /-- CLEARING (R579). -/
  clearing : Bool := false
  /-- the log-warning event has been raised since the last clear (R578). -/
  warnRaised : Bool := false
  /-- the log-full event has been raised since the last clear (R578). -/
  fullRaised : Bool := false
  /-- records whose occurrence has happened and that SU has not yet written, oldest first (R577). -/
  pendingRecs : List LogRec := []
  deriving DecidableEq, Repr

/-- Event delivery of IM (R581–R585, R620). -/
structure EvState where
  /-- IM_MEVT0–3, W1C (R582). -/
  mevt : BitVec 128 := 0
  /-- IM_MEMASK0–3 (R582). -/
  memask : BitVec 128 := 0
  /-- IM_WIN_EVT0–3 of instances 1–64, W1C; 0 where not listed (R515). -/
  winEvt : Tab Nat (BitVec 128) := []
  /-- IM_WIN_EMASK0–3 of instances 1–64; 0 where not listed (R515). -/
  winMask : Tab Nat (BitVec 128) := []
  /-- IM_EVTn_COUNT, RC, saturating (R582). -/
  count : Vector (BitVec 32) 128 := .replicate 128 0
  /-- sources that occurred before the end of phase 4, set for the manager as it ends (R585). -/
  early : BitVec 128 := 0
  /-- the clock cycle, as an unwrapped LT, that the next three lists are of (R583). -/
  cycle : Nat := 0
  /-- occurrences that set a bit on that cycle, by owner and source (R583). -/
  occurred : List (Tag × Nat) := []
  /-- set bits that the host cleared on that cycle (R583). -/
  cleared : List (Tag × Nat) := []
  /-- vectors on which a message for an occurrence went out on that cycle (R583). -/
  sent : List Nat := []
  /-- occurrences raised within the interval of a rate limit, by (source, key) (R625). -/
  limits : Tab (Nat × Nat) (List Nat) := []
  deriving DecidableEq, Repr

/-- Global registers and pins (R591, R598, R609, R615–R617). -/
structure Glob where
  /-- SU_STATUS.READY (R616). -/
  ready : Bool := false
  /-- SU_STATUS.BOOT_PKG (R616). -/
  bootPkg : BitVec 2 := 0
  /-- INTERNAL, W1C (R616). -/
  internal : Bool := false
  /-- RING_ERR, W1C (R616). -/
  ringErr : Bool := false
  /-- CHECK_FAIL, W1C (R616). -/
  checkFail : Bool := false
  /-- COMMIT_FAIL, W1C (R616). -/
  commitFail : Bool := false
  /-- INTENT_ORPHAN, W1C (R616). -/
  intentOrphan : Bool := false
  /-- SU_FW_VERSION; no value given: DESIGN CHOICE 0 (log 4) (R615). -/
  fwVersion : BitVec 32 := 0
  /-- SU_ID stepping, fused; DESIGN CHOICE A0 (log 4) (R617). -/
  stepping : BitVec 16 := 0x4130
  /-- fused SERIAL; DESIGN CHOICE 0 (log 4) (R615). -/
  serial : BitVec 64 := 0
  /-- SU_PKG_ID (R615). -/
  pkgId : BitVec 64 := 0
  /-- THERM_TRIP_N level (R609). -/
  thermTripN : Bool := true
  /-- PERST_N level; DESIGN CHOICE low at reset (log 4) (R598). -/
  perstN : Bool := false
  deriving DecidableEq, Repr

/-- What the block sends out of itself. -/
inductive Out where
  | post (addr : BitVec 64) (data : List Byte)
  | result (addr : BitVec 64) (b : Buf)
  | msix (vector : Nat)
  | read (requester : Nat) (value : BitVec 64)
  | frame (port : Nat) (f : Frame)
  | pin (n : Nat) (level : Bool) (t : LT)
  | cnvAlign (k : Nat) (t : LT)
  | fault (port : Nat) (seq : RsFault)
  | advert (port : Nat) (fullDuplex ps1 ps2 : Bool)
  | mirror (addr : BitVec 64) (head tail : List Byte)
  | qword (q : Nat) (data : List Byte) (side : BitVec 8)
  | brixig (w : BrxWords)
  | cab (seg : Nat) (bytes : List Byte)
  | svc (frame : List Byte)
  | pmbus (fast : Bool) (bytes : List Byte) (again : Option (Byte × Nat))
  | tdo (b : Bool)
  | xspi (op : XspiOp)
  deriving DecidableEq, Repr

/-- The state of the block. -/
structure State where
  tb : TbState := {}
  su : SuState := {}
  px : PxState := {}
  sw : SwState := {}
  qm : QmState := {}
  se : SeState := {}
  fr : FrState := {}
  pe : PeState := {}
  ar : ArState := {}
  fb : FbState := {}
  ps : PsState := {}
  fo : FoState := {}
  mi : MiState := {}
  kv : KvState := {}
  im : ImState := {}
  pa : PaState := {}
  pmb : Pmbus := {}
  jtag : Jtag := {}
  grd : GuardState := {}
  log : LogState := {}
  ev : EvState := {}
  glob : Glob := {}
  /-- commands that wait, first in, first out -/
  pending : List Instr := []
  /-- the model's own: how many free values have been drawn (log 2) -/
  free : Nat := 0
  /-- the model's own: what the block has sent out, newest first (log 3) -/
  out : List Out := []
  deriving DecidableEq, Repr

/-- Why a step may stop with a fault. -/
inductive Fault where
  /-- Raised by nobody: every command of the table has an effect in every state. It stands for an operand the table's row
  does not admit, which the types of `Instr` rule out. Safe. -/
  | illFormed (what : String)
  deriving DecidableEq, Repr

/-- Why a command may be refused. -/
inductive Refusal where
  /-- A row of the table without a meaning yet; raised by `exec` alone. Safe. -/
  | notModelled (mnemonic : String)
  deriving DecidableEq, Repr

/-- What a command or a step answers. -/
abbrev Res := Host.Outcome State Fault Refusal

/-- The block right after reset: every field at its default. -/
def State.reset : State := {}

end Sys2Proof.Machine
end

