-- ==== Sys2Proof/Machine/Ops.lean ====
section
/-! DEFINITION. Named operations over the block's state: tables, memory, time, free values, rate limits, event occurrences
and platform log records. -/

namespace Sys2Proof

section tables
variable {κ ν : Type} [DecidableEq κ]

/-- The entry of a key, if there is one. -/
def Tab.get? (t : Tab κ ν) (k : κ) : Option ν := (t.find? (fun e => decide (e.1 = k))).map (·.2)

/-- The entry of a key, or the value an unlisted key has. -/
def Tab.getD (t : Tab κ ν) (k : κ) (d : ν) : ν := (t.get? k).getD d

/-- `t` without the key. -/
def Tab.del (t : Tab κ ν) (k : κ) : Tab κ ν := t.filter (fun e => !decide (e.1 = k))

/-- `t` with the key set. -/
def Tab.put (t : Tab κ ν) (k : κ) (v : ν) : Tab κ ν := (k, v) :: t.del k

/-- `t` with the entry of the key changed by `f` (from `d` where it has none). -/
def Tab.upd (t : Tab κ ν) (k : κ) (d : ν) (f : ν → ν) : Tab κ ν := t.put k (f (t.getD k d))
end tables

/-- Element `i`, or `d` out of range. -/
def vget {α : Type} {n : Nat} (v : Vector α n) (i : Nat) (d : α) : α := v[i]?.getD d

/-- `v` with element `i` changed by `f`; out of range unchanged. -/
def vmod {α : Type} {n : Nat} (v : Vector α n) (i : Nat) (f : α → α) : Vector α n :=
  match v[i]? with
  | some x => v.setIfInBounds i (f x)
  | none => v

/-- Counter `i` of a bank raised by `k`. -/
def vadd {n : Nat} (v : Vector (BitVec 64) n) (i k : Nat) : Vector (BitVec 64) n := vmod v i (· + BitVec.ofNat 64 k)

/-- An entry put into a list sorted by a number. -/
def insertBy {α : Type} (f : α → Nat) (x : α) : List α → List α
  | [] => [x]
  | y :: l => if f x ≤ f y then x :: y :: l else y :: insertBy f x l

/-- A list sorted by a number. -/
def sortBy {α : Type} (f : α → Nat) : List α → List α
  | [] => []
  | x :: l => insertBy f x (sortBy f l)

/-! ## Addressed memory in canonical form -/

/-- What an unlisted address reads as (log 6). -/
def memDefault : Byte := 0

/-- The canonical form: addresses strictly rising and no entry equal to what an unlisted address reads as. -/
def Memory.wf : Memory → Bool
  | [] => true
  | [e] => decide (e.2 ≠ memDefault)
  | e :: f :: m => decide (e.2 ≠ memDefault) && decide (e.1 < f.1) && Memory.wf (f :: m)

/-- The byte at an address. -/
def Memory.read : Memory → Nat → Byte
  | [], _ => memDefault
  | e :: m, a => if e.1 = a then e.2 else if a < e.1 then memDefault else Memory.read m a

/-- The memory with one byte written, in canonical form again. -/
def Memory.write : Memory → Nat → Byte → Memory
  | [], a, b => if b = memDefault then [] else [(a, b)]
  | e :: m, a, b =>
    if e.1 = a then (if b = memDefault then m else (a, b) :: m)
    else if a < e.1 then (if b = memDefault then e :: m else (a, b) :: e :: m)
    else e :: Memory.write m a b

/-- `n` bytes from an address, ascending. -/
def Memory.readN (m : Memory) (a : Nat) : Nat → List Byte
  | 0 => []
  | n + 1 => m.read a :: m.readN (a + 1) n

/-- Bytes written from an address, ascending. -/
def Memory.writeN (m : Memory) (a : Nat) : List Byte → Memory
  | [] => m
  | b :: bs => (m.write a b).writeN (a + 1) bs

namespace Machine

/-! ## Parts of the state -/

/-- `tb` changed. -/
def onTb (f : TbState → TbState) (s : State) : State := { s with tb := f s.tb }

/-- `su` changed. -/
def onSu (f : SuState → SuState) (s : State) : State := { s with su := f s.su }

/-- `px` changed. -/
def onPx (f : PxState → PxState) (s : State) : State := { s with px := f s.px }

/-- `sw` changed. -/
def onSw (f : SwState → SwState) (s : State) : State := { s with sw := f s.sw }

/-- `qm` changed. -/
def onQm (f : QmState → QmState) (s : State) : State := { s with qm := f s.qm }

/-- `ps` changed. -/
def onPs (f : PsState → PsState) (s : State) : State := { s with ps := f s.ps }

/-- `kv` changed. -/
def onKv (f : KvState → KvState) (s : State) : State := { s with kv := f s.kv }

/-- `im` changed. -/
def onIm (f : ImState → ImState) (s : State) : State := { s with im := f s.im }

/-- `fb` changed. -/
def onFb (f : FbState → FbState) (s : State) : State := { s with fb := f s.fb }

/-- `se` changed. -/
def onSe (f : SeState → SeState) (s : State) : State := { s with se := f s.se }

/-- `fo` changed. -/
def onFo (f : FoState → FoState) (s : State) : State := { s with fo := f s.fo }

/-- `fr` changed. -/
def onFr (f : FrState → FrState) (s : State) : State := { s with fr := f s.fr }

/-- `pe` changed. -/
def onPe (f : PeState → PeState) (s : State) : State := { s with pe := f s.pe }

/-- `ar` changed. -/
def onAr (f : ArState → ArState) (s : State) : State := { s with ar := f s.ar }

/-- `mi` changed. -/
def onMi (f : MiState → MiState) (s : State) : State := { s with mi := f s.mi }

/-- `pa` changed. -/
def onPa (f : PaState → PaState) (s : State) : State := { s with pa := f s.pa }

/-- `pmb` changed. -/
def onPmb (f : Pmbus → Pmbus) (s : State) : State := { s with pmb := f s.pmb }

/-- `grd` changed. -/
def onGrd (f : GuardState → GuardState) (s : State) : State := { s with grd := f s.grd }

/-- `log` changed. -/
def onLog (f : LogState → LogState) (s : State) : State := { s with log := f s.log }

/-- `ev` changed. -/
def onEv (f : EvState → EvState) (s : State) : State := { s with ev := f s.ev }

/-- `glob` changed. -/
def onGlob (f : Glob → Glob) (s : State) : State := { s with glob := f s.glob }

/-! ## Time -/

/-- The present LT: the upper 64 bits of the accumulator (R21). -/
def State.now (s : State) : LT := s.tb.acc.extractLsb' 32 64

/-- The present instant as a count of tu that does not wrap (log 112). -/
def State.abs (s : State) : Nat := s.tb.wraps * 2 ^ 64 + s.now.toNat

/-- An LT near the present as a count of tu that does not wrap. -/
def State.absOf (s : State) (t : LT) : Int := (s.abs : Int) - ltDiff s.now t

/-- Bytes filled with 0 to a length. -/
def padTo (n : Nat) (l : List Byte) : List Byte := l.take n ++ .replicate (n - l.length) 0

/-- Those of the instants kept that lie within the span of an interval that ends now (R625). -/
def State.within (s : State) (interval : Nat) (l : List Nat) : List Nat := l.filter (fun t => decide (t ≤ s.abs ∧ s.abs < t + interval))

/-- The anchor's TAI as a count of tu (R23). -/
def anchorTai (t : TbState) : Int :=
  ((t.taiS.toNat * 1000000000 + t.taiNs.toNat) * 65536 + t.taiFr.toNat : Nat)

/-- The TAI of an LT value, as a count of tu: TAI_A + (LT − LT_A) (R23). -/
def taiOf (t : TbState) (lt : LT) : Int := anchorTai t + ltDiff lt t.ltA

/-- The LT of a TAI given as a count of tu, under the mapping in force (R23). -/
def ltOfTai (t : TbState) (tai : Int) : LT := t.ltA + BitVec.ofInt 64 (tai - anchorTai t)

/-- TAI seconds of a count of tu. -/
def taiSec (tai : Int) : BitVec 48 := BitVec.ofInt 48 (tai.ediv (secTu 1))

/-- TAI nanoseconds of a count of tu. -/
def taiNsOf (tai : Int) : BitVec 32 := BitVec.ofInt 32 ((tai.emod (secTu 1)).ediv 65536)

/-- The fraction of a nanosecond of a count of tu. -/
def taiFrOf (tai : Int) : BitVec 16 := BitVec.ofInt 16 (tai.emod 65536)

/-- The anchor set to a pair of LT and TAI (R23). -/
def setAnchor (t : TbState) (lt : LT) (tai : Int) : TbState :=
  { t with ltA := lt, taiS := taiSec tai, taiNs := taiNsOf tai, taiFr := taiFrOf tai }

/-! ## Free values -/

/-- One free number (log 2). -/
def draw (s : State) : Nat × State := (Config.freeNat s.free, { s with free := s.free + 1 })

/-- One free signed number (log 2). -/
def drawInt (s : State) : Int × State := (Config.freeInt s.free, { s with free := s.free + 1 })

/-- Something sent out of the block. -/
def emit (o : Out) (s : State) : State := { s with out := o :: s.out }

/-! ## Rate limits (R625) -/

/-- R625: whether an occurrence of a kind and key is raised, when fewer than `n` have been raised within the interval of LT
that ends at it; and the state that remembers it. -/
def limited (kind key interval n : Nat) (s : State) : Bool × State :=
  let recent := s.within interval (s.ev.limits.getD (kind, key) [])
  if recent.length < n then
    (true, { s with ev := { s.ev with limits := s.ev.limits.put (kind, key) (s.abs :: recent) } })
  else (false, { s with ev := { s.ev with limits := s.ev.limits.put (kind, key) recent } })

/-! ## Platform log (R575–R578) -/

/-- A record whose occurrence is now; SU writes it with LOG_RECORD_WRITE (R577). -/
def logRec (type : BitVec 16) (source : BitVec 8) (owner : Tag) (lt : LT) (arg0 arg1 : BitVec 32) (s : State) : State :=
  { s with log := { s.log with pendingRecs := s.log.pendingRecs ++
      [{ type := type, source := source, owner := owner, lt := lt, arg0 := arg0, arg1 := arg1 }] } }

/-! ## Event occurrences (R581–R585) -/

/-- R585: the sources that are named. -/
def evNamed (n : Nat) : Bool :=
  n ≤ 0x0D || (0x10 ≤ n && n ≤ 0x12) || (0x18 ≤ n && n ≤ 0x1C) || n == 0x20 || (0x28 ≤ n && n ≤ 0x2B) ||
  n == 0x30 || n == 0x31 || n == 0x38 || n == 0x39 || (0x40 ≤ n && n ≤ 0x44) || (0x48 ≤ n && n ≤ 0x4D) ||
  n == 0x50 || n == 0x51 || (0x58 ≤ n && n ≤ 0x5A) || (0x60 ≤ n && n ≤ 0x62) || (0x68 ≤ n && n ≤ 0x6B) ||
  (0x70 ≤ n && n ≤ 0x76) || (0x78 ≤ n && n ≤ 0x7C)

/-- R585: the sources marked I. -/
def evInst (n : Nat) : Bool :=
  n ≤ 2 || n == 0x0D || n == 0x28 || n == 0x2A || n == 0x2B || n == 0x38 || n == 0x39 ||
  (0x42 ≤ n && n ≤ 0x44) || (0x48 ≤ n && n ≤ 0x4D) || n == 0x50 || n == 0x61

/-- R585: the sources marked L. -/
def evLogged (n : Nat) : Bool :=
  n == 3 || n == 7 || n == 9 || n == 0x59 || n == 0x60 || n == 0x70 || n == 0x71 || n == 0x73 || n == 0x74 || n == 0x7B

/-- Bit `n` of a word of event bits set. -/
def setBit128 (v : BitVec 128) (n : Nat) : BitVec 128 := v ||| (1#128 <<< n)

/-- Vector v of an owner: 0–63 for the manager, 64 + 16 × (i − 1) + v for instance i (R512). -/
def vectorOf (owner : Tag) (v : Nat) : Nat := if owner = 0 then v else 64 + 16 * (owner - 1) + v

/-- The state of an instance; one not listed is ABSENT (R514). -/
def instState (s : State) (i : Nat) : InstState := (s.im.inst.getD i {}).state

/-- A message on a vector: sent, or while the vector is masked left pending (R583; PCIe's rule, log 77). -/
def sendMsix (v : Nat) (s : State) : State :=
  if (s.im.msix.getD v {}).mask then onIm (fun m => { m with msixPend := m.msixPend.filter (· != v) ++ [v] }) s else emit (.msix v) s

/-- What is known of the events of this clock cycle; nothing yet on a new one. -/
def freshCycle (s : State) : State :=
  if s.ev.cycle = s.abs then s else { s with ev := { s.ev with cycle := s.abs, occurred := [], cleared := [], sent := [] } }

/-- The message for an occurrence: one where several sources of a vector become set on one clock cycle (R583). -/
def eventMsix (v : Nat) (s : State) : State :=
  if s.ev.sent.contains v then s else sendMsix v { s with ev := { s.ev with sent := v :: s.ev.sent } }

/-- Whether the rise of the bit of source n of an owner, whose bits and mask are given, sends a message: not on the clock cycle on which the host
clears the bit (R583). -/
def eventRises (o : Tag) (n : Nat) (bits mask : BitVec 128) (s : State) : Bool :=
  !bits.getLsbD n && !mask.getLsbD n && !s.ev.cleared.contains (o, n)

/-- R582, R583: the manager's bit of source n is set; a bit that rises with its mask clear sends one message. -/
def setMgrBit (n : Nat) (s : State) : State :=
  let s := freshCycle s
  let rising := eventRises 0 n s.ev.mevt s.ev.memask s
  let s := { s with ev := { s.ev with mevt := setBit128 s.ev.mevt n, occurred := (0, n) :: s.ev.occurred } }
  if rising then eventMsix (s.im.route.getD n {}).mvec.toNat s else s

/-- R582, R583: the bit of source n of instance i is set; a bit that rises with its mask clear sends one message. An
instance that is ABSENT or RESETTING gets no bit. -/
def setInstBit (n i : Nat) (s : State) : State :=
  if instState s i = .absent ∨ instState s i = .resetting then s else
  let s := freshCycle s
  let old := s.ev.winEvt.getD i 0
  let rising := eventRises i n old (s.ev.winMask.getD i 0) s
  let s := { s with ev := { s.ev with winEvt := s.ev.winEvt.put i (setBit128 old n), occurred := (i, n) :: s.ev.occurred } }
  if rising then eventMsix (vectorOf i (s.im.route.getD n {}).ivec.toNat) s else s

/-- The host writes 1 to event bits of an owner: they clear, but for those that an occurrence sets on this clock cycle (R16, R583). -/
def clearEvents (o : Tag) (m : BitVec 128) (s : State) : State :=
  let s := freshCycle s
  let old := if o = 0 then s.ev.mevt else s.ev.winEvt.getD o 0
  let hit := (List.range 128).filter (fun n => m.getLsbD n && old.getLsbD n)
  let new := (hit.filter (fun n => !s.ev.occurred.contains (o, n))).foldl (fun v n => v &&& ~~~(1#128 <<< n)) old
  let ev := { s.ev with cleared := hit.map (fun n => (o, n)) ++ s.ev.cleared }
  { s with ev := if o = 0 then { ev with mevt := new } else { ev with winEvt := ev.winEvt.put o new } }

/-- The count of source n, and where the occurrence goes (R582; before the end of phase 4, R585). -/
def routeEvent (n : Nat) (tag : Tag) (s : State) : State :=
  let s := { s with ev := { s.ev with count := vmod s.ev.count n satInc } }
  if !s.glob.ready then { s with ev := { s.ev with early := setBit128 s.ev.early n } }
  else if (s.im.route.getD n {}).mode && evInst n && decide (1 ≤ tag ∧ tag ≤ 64) then setInstBit n tag s
  else setMgrBit n s

end Machine
end Sys2Proof
end

