-- ==== Sys2Proof/Machine/Flags.lean ====
section
/-! DEFINITION. The status register at offset 0x0_0000 of each subsystem, and the raising of event occurrences, whose log
records carry it (R576, R582). -/

namespace Sys2Proof.Machine

/-- A 32-bit word from fields given as (value, lowest bit). -/
def pack (l : List (Nat × Nat)) : BitVec 32 := BitVec.ofNat 32 (l.foldl (fun a f => a + f.1 * 2 ^ f.2) 0)

/-- SERVO_STATE codes (R56). -/
def servoCode : Servo → Nat
  | .freerun => 0 | .acquiring => 1 | .locked => 2 | .holdover => 3

/-- SOURCE codes (R56). -/
def sourceCode : Source → Nat
  | .none => 0 | .ptp => 1 | .irig => 2

/-- SU_STATUS (R616). -/
def suStatus (s : State) : BitVec 32 :=
  pack [(bitN s.glob.ready, 0), (bitN s.su.armed.isSome, 1), (bitN s.su.resync, 2), (bitN s.su.pkg.loading.isSome, 3),
    (s.glob.bootPkg.toNat, 4), (bitN s.glob.internal, 8), (bitN s.glob.ringErr, 9), (bitN s.glob.checkFail, 10),
    (bitN s.glob.commitFail, 11), (bitN s.glob.intentOrphan, 12)]

/-- TB_STATUS (R56). -/
def tbStatus (s : State) : BitVec 32 :=
  let t := s.tb
  pack [(servoCode t.servo, 0), (sourceCode t.source, 4), (bitN t.taiValid, 8), (bitN t.ltUncertain, 9), (bitN t.leap61, 10),
    (bitN t.leap59, 11), (bitN t.timeStep, 12), (bitN t.txtsOvf, 13), (bitN t.tcuLate, 14), (bitN t.tccOvf, 15),
    (bitN t.irigErr, 16), (bitN t.ppsMissing, 17), (t.slavePort.toNat, 24)]

/-- PX_STATUS (R619). -/
def pxStatus (s : State) : BitVec 32 :=
  pack [(bitN s.px.ready, 0), (bitN s.px.linkChg, 1), (bitN s.px.rxBad, 2), (bitN s.px.txOversize, 3),
    (bitN s.px.pnThresh, 4), (bitN s.px.proxyFull, 5),
    ((List.range 14).foldl (fun a p => a + bitN (vget s.px.port p {}).linkUp * 2 ^ p) 0, 16)]

/-- SW_STATUS (R178). -/
def swStatus (s : State) : BitVec 32 :=
  pack [(bitN s.sw.ready, 0), (bitN s.sw.poolEmpty, 1), (bitN s.sw.guardErr, 2), (bitN s.sw.mirrorLost, 3),
    (bitN s.sw.fdbFull, 4), (bitN s.sw.holdExp, 5)]

/-- QM_STATUS (R196). -/
def qmStatus (s : State) : BitVec 32 :=
  pack [(bitN s.qm.ready, 0), (bitN s.qm.guardErr, 1), (bitN s.qm.quota, 2), (bitN s.qm.badPkt, 3)]

/-- SE_STATUS (R219). -/
def seStatus (s : State) : BitVec 32 :=
  pack [(bitN s.se.ready, 0), (bitN s.se.authErr, 1), (bitN s.se.talExp, 2), (bitN s.se.stateChg, 3), (bitN s.se.quota, 4)]

/-- READY of FB: every cluster whose domain is on has finished its reload (R353). -/
def fbReady (s : State) : Bool := s.fb.up && !(List.range 6).any (fun k => (vget s.fb.cl k {}).reload)

/-- The domain of a subsystem is on, so that its READY may read 1 (R611). -/
def domainOn (n : Nat) (s : State) : Bool := (vget s.pa.pd n {}).state == .on

/-- FB_STATUS (R353, R611). -/
def fbStatus (s : State) : BitVec 32 :=
  pack [(bitN (fbReady s && (domainOn 3 s || domainOn 4 s)), 0), (bitN s.fb.guardErr, 1), (bitN s.fb.fault, 2), (bitN s.fb.rxDrop, 3),
    (bitN s.fb.txRefused, 4), (bitN ((List.range 6).any (fun k => (vget s.fb.cl k {}).reload)), 5)]

/-- FO_STATUS.STATE codes (R439). -/
def roleCode : FoRole → Nat
  | .start => 0 | .active => 1 | .standby => 2 | .relinquished => 3

/-- FO_STATUS.PARTNER codes (R439). -/
def partnerCode : Partner → Nat
  | .unknown => 0 | .present => 1 | .lost => 2

/-- R29: the timestamp uncertainty of a port in ns, with the external PHY's on SGMII (R28). -/
def portUncert (s : State) (p : Nat) : Nat :=
  let phy := (vget s.px.port p {}).cfg.phy
  (match phy with
   | .base25 => 2 | .base10 => 2 | _ => 4) +
  (if phy = .sgmii then (vget s.tb.lat p {}).phyUnc.toNat else 0)

/-- TB_TIME_ERR_BOUND in ns (R36). The spec names no rounding: E_lock and D × t are each rounded up (DESIGN CHOICE, log 120). While a lost PTP
source is still shown but no port is the slave port, no uncertainty of a port is added (DESIGN CHOICE, log 120). -/
def timeErrBound (s : State) : BitVec 32 :=
  let t := s.tb
  let sat (n : Nat) : BitVec 32 := if n ≥ 0xFFFFFFFF then 0xFFFFFFFF else BitVec.ofNat 32 n
  match t.servo with
  | .freerun => 0xFFFFFFFF
  | .holdover => sat (t.eLock + ceilDiv (t.src.drift * (taiOf t s.now - t.holdTai).toNat) (secTu 1))
  | _ =>
    match t.source with
    | .irig => sat (ceilDiv (2 * t.offset.natAbs + 3 * 65536) (2 * 65536))
    | _ => sat (ceilDiv t.offset.natAbs 65536 + (if t.slavePort.toNat < 14 then portUncert s t.slavePort.toNat else 0))

/-- The bound that applies to a time tag: TB_LT_UNCERT while LT_UNCERTAIN is set (R260). -/
def timeBound (s : State) : Nat := if s.tb.ltUncertain then s.tb.ltUncert.toNat else (timeErrBound s).toNat

/-- The message time quality code (R266). -/
def timeQuality (s : State) : Nat :=
  if s.tb.servo = .locked ∧ !s.tb.ltUncertain then 0
  else if !s.tb.taiValid then 0xF
  else (((List.range 11).map (· + 1)).find? (fun c => decide (timeBound s ≤ 10 ^ (c - 1)))).getD 0xB

/-- The source is traceable: the grandmaster says so, or IRIG's last time quality code is 0 (PRESUMED, log 116). -/
def traceable (s : State) : Bool :=
  match s.tb.source with
  | .ptp => (s.tb.gm.map (·.timeTraceable)).getD false
  | .irig => s.tb.irig.ext.quality == 0
  | .none => false

/-- R37: the clockClass SU advertises. The rule states none while LOCKED to a source that is not traceable, nor in ACQUIRING: unknown
constants (log 116). -/
def clockClass (s : State) : Nat :=
  match s.tb.servo with
  | .locked => if traceable s then 6 else Config.untracedClass
  | .holdover => if (timeErrBound s).toNat ≤ s.tb.cfg.holdLimit then 7 else 52
  | .freerun => 248
  | .acquiring => Config.acquiringClass s.tb.everLocked

/-- The GUARD trigger: N_guard uncorrectable errors in live data within the last second (R430). -/
def guardTrig (s : State) : Bool :=
  s.fo.cfg.guardEn && decide (s.fo.cfg.nGuard ≤ (s.within (secTu 1) s.fo.guardErrs).length)

/-- Some alignment group that holds a mandatory stream is not READY (R212). -/
def mandatoryUnready (s : State) : Bool :=
  (List.range 16).any fun g => let x := vget s.se.group g {}; !x.cfg.mandatory.isEmpty && !x.ready

/-- Both conditions of the TIME_SV trigger (R430). -/
def timeSvCond (s : State) : Bool := (clockClass s == 52 || clockClass s == 248) && mandatoryUnready s

/-- FO_DIAG bits 3:0, the triggers present (R430, R440): GUARD and TIME_SV while their condition holds, OVERRUN until FO_REARM
or a restart, WATCHDOG until SU writes FO_WDOG again (log 21). -/
def diagBits (s : State) : BitVec 4 :=
  BitVec.ofNat 4 (bitN (guardTrig s) + 2 * bitN (s.fo.diag.getLsbD 1) + 4 * bitN (s.fo.diag.getLsbD 2 && timeSvCond s) +
    8 * bitN (s.fo.diag.getLsbD 3))

/-- CONFIG_TAG differs from the partner's (R439). -/
def configMismatch (s : State) : Bool := s.fo.partner == .present && s.fo.hb.configTag != s.fo.cfg.configTag

/-- R409: a STANDBY unit is eligible; frozen while the partner is lost. -/
def eligible (s : State) : Bool :=
  s.fo.state == .standby &&
  (match s.fo.partner with
   | .lost => s.fo.frozenElig
   | .unknown => false
   | .present => !configMismatch s && s.fo.repl.applied && diagBits s == 0 && fbReady s && s.se.ready && s.ps.ready)

/-- FO_STATUS (R439). -/
def foStatus (s : State) : BitVec 32 :=
  let f := s.fo
  pack [(roleCode f.state, 0), (partnerCode f.partner, 3), (bitN (eligible s), 5), (bitN f.hb.eligible, 6), (bitN f.gateOpen, 7),
    (bitN f.witnessHeld, 8), (bitN (configMismatch s), 9), (bitN f.claimChg, 10), (bitN f.partnerLost, 11), (bitN f.diagTrig, 12),
    (bitN f.split, 13), (bitN f.replLate, 14), (bitN f.epochLow, 15)]

/-- PS_STATUS (R406). -/
def psStatus (s : State) : BitVec 32 :=
  pack [(bitN s.ps.ready, 0), (bitN s.ps.guardErr, 1), (bitN (s.ps.force.any (fun e => e.2.orphan)), 2), (bitN s.ps.orphanNew, 3),
    (bitN s.ps.forceFull, 4), (bitN s.ps.staleMark, 5), (bitN s.ps.denied, 6), (bitN s.ps.forcesDropped, 7)]

/-- FR_STATUS (R244). -/
def frStatus (s : State) : BitVec 32 :=
  pack [(bitN s.fr.ready, 0), (bitN (s.fr.lane.any (fun e => e.2.state == .settling)), 1), (bitN s.fr.trkChg, 2), (bitN s.fr.guardErr, 3),
    (bitN s.fr.sat, 4)]

/-- PE_STATUS (R269). -/
def peStatus (s : State) : BitVec 32 :=
  pack [(bitN s.pe.ready, 0), (bitN s.pe.guardErr, 1), (bitN s.pe.late, 2), (bitN s.pe.range, 3), (bitN s.pe.quota, 4)]

/-- AR_STATUS (R303). -/
def arStatus (s : State) : BitVec 32 :=
  pack [(bitN s.ar.ready, 0), (bitN s.ar.guardErr, 1), (bitN s.ar.wslErr, 2), (bitN s.ar.edgeOvf, 3), (bitN s.ar.full, 4),
    (bitN ((List.range 24).any (fun e => (vget s.ar.edge e {}).uncal)), 5)]

/-- MI_STATUS (R475): as the die last sent it, with ALIVE. -/
def miStatus (s : State) : BitVec 32 := BitVec.ofNat 32 (ofBytesLE (s.mi.mail.page.take 4)) ||| BitVec.ofNat 32 (64 * bitN s.mi.mail.alive)

/-- PA_STATUS (R560). -/
def paStatus (s : State) : BitVec 32 :=
  let p := s.pa
  pack [(p.phase.toNat, 0), (bitN p.protReady, 4), (bitN p.fullReady, 5), (bitN p.noPackage, 6), (bitN p.warm, 7),
    (bitN p.lockedAccess, 8), (bitN p.brownout, 9), (bitN p.tamper, 10), (bitN p.sleepRefused, 11), (bitN p.opsecsUncertain, 12),
    (bitN p.retainLost, 13)]

/-- IM_STATUS (R532). -/
def imStatus (s : State) : BitVec 32 :=
  pack [(bitN s.im.ready, 0), (bitN s.im.linkX8, 1), (bitN s.im.resetReq, 2), (bitN s.im.aperture, 3),
    (bitN s.im.epochDisc, 4), (bitN s.im.flr, 5)]

/-- The life-cycle state of the LC pairs: a pair counts as blown when either of its bits is (R478). -/
def lifeCode (s : State) : Nat :=
  let p := s.kv.lcPairs
  if p.extractLsb' 4 2 ≠ 0 then 4 else if p.extractLsb' 2 2 ≠ 0 then 3 else if p.extractLsb' 0 2 ≠ 0 then 2 else 1

/-- KV_STATUS (R505, R611). -/
def kvStatus (s : State) : BitVec 32 :=
  let k := s.kv
  pack [(bitN (k.ready && domainOn 7 s), 0), (bitN k.guardErr, 1), (bitN k.revoked, 2), (bitN k.trngFail, 3), (bitN k.trngEvt, 4), (bitN k.denied, 5),
    ((k.slot.filter (fun e => e.2.state != .empty)).length, 16)]

/-- The status register of subsystem n at offset 0x0_0000 of its window (R610). -/
def statusReg (n : Nat) (s : State) : BitVec 32 :=
  match n with
  | 0x0 => suStatus s
  | 0x1 => tbStatus s
  | 0x2 => pxStatus s
  | 0x3 => swStatus s
  | 0x4 => qmStatus s
  | 0x5 => seStatus s
  | 0x6 => frStatus s
  | 0x7 => peStatus s
  | 0x8 => arStatus s
  | 0x9 => fbStatus s
  | 0xA => psStatus s
  | 0xB => miStatus s
  | 0xC => kvStatus s
  | 0xD => imStatus s
  | 0xE => foStatus s
  | 0xF => paStatus s
  | _ => 0

/-- One occurrence of source n with an owner tag and the number it concerns: counted and routed (R582), and for a source
marked L a log record, at most one per source per second but for 0x59 and 0x70 (R577). -/
def raiseArg (n : Nat) (tag : Tag) (arg1 : BitVec 32) (s : State) : State :=
  let s := routeEvent n tag s
  if !evLogged n then s else
  let rec_ := logRec 0x000A (BitVec.ofNat 8 n) tag s.now (statusReg (n / 8) s) arg1
  if n == 0x59 || n == 0x70 then rec_ s
  else
    let (ok, s) := limited (0x10000 + n) 0 (secTu 1) 1 s
    if ok then rec_ s else s

/-- One occurrence of source n that concerns no number. -/
def raise (n : Nat) (tag : Tag) (s : State) : State := raiseArg n tag 0 s

end Sys2Proof.Machine
end

