-- ==== Sys2Proof/Machine/DomainOps.lean ====
section
/-! DEFINITION. Accesses to the data memory of a power domain (R536–R541). -/

namespace Sys2Proof.Machine

/-- Domain n changed. -/
def modPd (n : Nat) (f : PdState → PdState) (s : State) : State := onPa (fun p => { p with pd := vmod p.pd n f }) s

/-- The state of domain n. -/
def pdState (s : State) (n : Nat) : PdSt := (vget s.pa.pd n {}).state

/-- R541: an access to the data memory of a LOCKED domain is refused, counted and reported, at most once per domain per second. -/
def lockRefused (n : Nat) (s : State) : State :=
  let s := onPa (fun p => { p with lockedAccess := true }) (modPd n (fun d => { d with lockHit := true, lockHits := satInc d.lockHits }) s)
  let (ok, s) := limited 0x78 n (secTu 1) 1 s
  if ok then raiseArg 0x78 0 (BitVec.ofNat 32 n) s else s

/-- A domain that is off starts to wake, by an access or by command (R539, R561). -/
def wakeOne (access : Bool) (n : Nat) (s : State) : State :=
  if pdState s n = .off then
    modPd n (fun d => { d with
      state := .waking, woken := d.woken || access, wakes := satInc d.wakes, wakeAt := s.abs, wakeWas := (d.woken, d.wakes) }) s
  else s

/-- A domain wakes together with the domain it depends on (R539). -/
def wakeDomain (access : Bool) (n : Nat) (s : State) : State :=
  let s := wakeOne access n s
  if 3 ≤ n ∧ n ≤ 6 then wakeOne access 8 s else s

/-- The domain whose data memory an immediate command needs; staged commands write the staging area in the DRAM (R79, R539). -/
def opDomain (op : Nat) : Option Nat :=
  if 1 ≤ op % 256 ∧ op % 256 ≤ 15 then some 8
  else if op ∈ [0x0210, 0x0211, 0x0212, 0x0311, 0x0312] then some 2
  else if op ∈ [0x0511, 0x0610, 0x0710, 0x0711] then some 5
  else if op ∈ [0x0810, 0x0811] then some 6
  else if op ∈ [0x0C10, 0x0C11, 0x0C12, 0x0C13, 0x0C14, 0x0C15, 0x0C16, 0x0C20, 0x0C21, 0x0C22, 0x0C23, 0x0C24, 0x0C25, 0x0D13, 0x0D14] then some 7
  else if op ∈ [0x0812, 0x0813, 0x0814, 0x0A10, 0x0A11, 0x0A12, 0x0A13] then some 8
  else none

/-- A command reaches the data memory of domain n: refused where the domain is LOCKED (R541); an off domain is woken, and the command waits for
it within its own completion time (R539; log 64), but for PD2, where it is answered at once (R540). -/
def commandAccess (n : Nat) (s : State) : State × Option ReplyBody :=
  match pdState s n with
  | .locked => (lockRefused n s, some { status := .domainOff })
  | .on => (modPd n (fun d => { d with lastUse := s.abs }) s, none)
  | _ =>
    let s := wakeDomain true n s
    if n = 2 then (s, some { status := .notReady, detail := 0x0F02 })
    else (modPd n (fun d => { d with lastUse := s.abs, stalled := d.stalled ++ [s.abs] }) s, none)

/-- What an opcode's own access to a domain answers, if it has one. -/
def opAccess (op : Nat) (s : State) : State × Option ReplyBody :=
  match opDomain op with
  | some n => commandAccess n s
  | none => (s, none)

end Sys2Proof.Machine
end

