-- ==== Sys2Proof/Machine/Operands.lean ====
section
/-! DEFINITION. What the operands of the commands name: status codes, the staged opcode and the key of an item, its bytes. -/

namespace Sys2Proof

/-- The values of the status codes (R72). -/
def statusCode : Status → BitVec 16
  | .ok => 0x0000
  | .partialDone => 0x0001
  | .pending => 0x0002
  | .busy => 0x0010
  | .quota => 0x0011
  | .domainOff => 0x0012
  | .badOpcode => 0x0020
  | .badParam => 0x0021
  | .checkFailed => 0x0022
  | .denied => 0x0030
  | .keyRevoked => 0x0031
  | .sealed => 0x0032
  | .logFull => 0x0033
  | .notReady => 0x0040
  | .stale => 0x0041
  | .internalFault => 0x00FF

/-- What names an item: its staged opcode, its index, and its sub-index where the opcode's item has one (R634). -/
def Item.key : Item → BitVec 16 × Nat × Nat
  | .ptp _ => (0x0101, 0, 0)
  | .sources _ => (0x0102, 0, 0)
  | .portLat c => (0x0103, c.port.val, 0)
  | .pins _ => (0x0104, 0, 0)
  | .tcuAssign c => (0x0105, 20 + c.unit.val, 0)
  | .port p _ => (0x0201, p.val, 0)
  | .filter p e _ => (0x0202, p.val, e)
  | .red p _ => (0x0203, p, 0)
  | .macsec p _ => (0x0204, p, 0)
  | .limits p q _ => (0x0301, p.val, q.val)
  | .fdb i _ => (0x0302, i, 0)
  | .vlan v _ => (0x0303, v.toNat, 0)
  | .swPorts _ => (0x0304, 0, 0)
  | .mirror _ => (0x0305, 0, 0)
  | .queue q _ => (0x0401, q, 0)
  | .steer i _ => (0x0402, i.val, 0)
  | .group g _ => (0x0501, g.val, 0)
  | .lockTimeout _ => (0x0501, 0, 1)
  | .svSub n _ => (0x0502, n, 0)
  | .goSub n _ => (0x0503, n, 0)
  | .goPub n _ => (0x0504, n, 0)
  | .code o _ => (0x0901, o, 0)
  | .rxmap k i _ => (0x0902, 64 * k.val + i.val, 0)
  | .frame _ => (0x0903, 0, 1)
  | .windows e _ => (0x0903, e.val, 0)
  | .task o t _ => (0x0904, t, 1 + o)
  | .ownerCfg o _ => (0x0904, o, 0)
  | .retain o e _ => (0x0905, e.val, o)
  | .pair _ => (0x0E01, 0, 0)
  | .repl o _ => (0x0E02, o, 0)
  | .cabinet _ => (0x0E08, 0, 0)
  | .shares i _ => (0x0D01, i, 0)
  | .route n _ => (0x0D02, n.val, 0)
  | .point n _ => (0x0A01, n, 0)
  | .pub c => (0x0A01, c.first, 1 + c.owner)
  | .tPsw _ => (0x0A01, 0, 0x100)
  | .lane l _ => (0x0601, l, 0)
  | .track g _ => (0x0602, g, 0)
  | .coef p n _ => (0x0603, n, bitN p)
  | .chan n _ => (0x0701, n, 0)
  | .pset n _ => (0x0702, n, 0)
  | .stream n _ => (0x0703, n, 0)
  | .wsl k _ => (0x0801, k.val, 0)
  | .edge e _ => (0x0802, e.val, 0)
  | .comp n _ => (0x0803, n, 0)
  | .recorder r _ => (0x0804, r.val, 0)
  | .domain n _ => (0x0F01, n.val, 0)
  | .duiker _ => (0x0F02, 0, 0)

/-- The staged opcode of an item. -/
def Item.opcode (i : Item) : BitVec 16 := i.key.1

/-- The index of an item. -/
def Item.index (i : Item) : Nat := i.key.2.1

/-- The destination codes that a general unit admits: none, or 0x20–0x26; every other code is reserved (R627). -/
def tcuDestOk (d : BitVec 8) : Bool := d == 0 || decide (0x20 ≤ d.toNat ∧ d.toNat ≤ 0x26)

/-- Two spans that meet. -/
def overlaps (a n b m : Nat) : Bool := decide (a < b + m ∧ b < a + n)

/-- The FEC in use on a port: as staged, else the default of the PHY type (R97). -/
def portFec (c : PortCfg) : Fec := c.fec.getD (if c.phy = .base25 then .rs else .none)

end Sys2Proof
end

