-- ==== Sys2Proof/Machine/Command.lean ====
section
/-! DEFINITION. What every Finpel command shares: the issuer, the checks SU makes before dispatch, sessions and staging, and
the reply (R59–R89, R626, R630). -/

namespace Sys2Proof.Machine

/-- Who issues the commands of a ring (R60): 0 the manager, i instance i. -/
def issuer (c : Cmd) : Tag :=
  match c.ring with
  | .m _ => 0
  | .inst i _ => i

/-- The ring pair of a name, if it exists. -/
def getRing (s : State) (r : RingId) : Option Ring :=
  match r with
  | .m k => some (vget s.su.mring k.val {})
  | .inst i k => s.su.iring.get? (i, k)

/-- A ring pair replaced. -/
def putRing (s : State) (r : RingId) (x : Ring) : State :=
  match r with
  | .m k => { s with su := { s.su with mring := vmod s.su.mring k.val (fun _ => x) } }
  | .inst i k => { s with su := { s.su with iring := s.su.iring.put (i, k) x } }

/-- R70: the phase of the reply to index i on a ring of 2^s entries. -/
def replyPhase (i : BitVec 16) (size : BitVec 4) : Bool := !(i.getLsbD size.toNat)

/-- The answer of a refusal or of a result without values. -/
def st (x : Status) : ReplyBody := { status := x }

/-- A result of bytes in a result buffer of a length: the bytes that fit (log 15). -/
def fitBuf (n : Nat) : Buf → Buf
  | .bytes l => if n = 0 then .none else .bytes (l.take n)
  | b => b

/-- The 32 bytes of a reply entry (R69). -/
def replyBytes (r : ReplyRec) : List Byte :=
  let b := r.body
  bytesLE 2 (statusCode b.status).toNat ++ bytesLE 2 r.opcode.toNat ++ bytesLE 4 r.seq.toNat ++ bytesLE 8 b.r0.toNat ++ bytesLE 8 b.r1.toNat ++
  bytesLE 2 b.detail.toNat ++ [BitVec.ofNat 8 ((b.subsys.map (·.val)).getD 0)] ++ [0, 0, 0] ++ bytesLE 1 r.idx.toNat ++ [BitVec.ofNat 8 (bitN r.phase)]

/-- The device may address `len` bytes at `addr` for an owner: an instance within its apertures, the manager anywhere (R511). -/
def inAperture (s : State) (o : Tag) (addr len : Nat) : Bool :=
  o == 0 || (s.im.inst.getD o {}).shares.apertures.any (fun a => decide (a.1 ≤ addr ∧ addr + len ≤ a.1 + a.2))

/-- An owner's DMA is issued: in DMA slots of its own, of which the manager always has some (R519). -/
def hasDma (s : State) (o : Tag) : Bool := o == 0 || (s.im.inst.getD o {}).shares.dmaSlots != []

/-- R511: an address of an instance outside its apertures is flagged and reported. -/
def apertureHit (i : Tag) (s : State) : State :=
  if i = 0 then s else
  raiseArg 0x6B i (BitVec.ofNat 32 i)
    { s with im := { s.im with aperture := true, inst := s.im.inst.upd i {} (fun x => { x with aperture := true, dmaDenied := x.dmaDenied + 1 }) } }

/-- The address of slot i of a ring of entries of `n` bytes at a base (R59, R63). -/
def slotAddr (base : BitVec 64) (size : BitVec 4) (n : Nat) (i : BitVec 16) : BitVec 64 :=
  base + BitVec.ofNat 64 (n * (i.toNat % 2 ^ size.toNat))

/-- The writes that a reply makes: the result buffer, bytes 0x00–0x1E of its slot, then byte 0x1F (R68, R70). An instance's ring outside its
apertures is not written (R511). -/
def postReply (w : Waiting) (r : Ring) (e : ReplyRec) (s : State) : State :=
  let at_ := slotAddr r.rbase r.size 32 e.idx
  let s := if e.body.buf = .none then s else emit (.result w.cmd.bufAddr e.body.buf) s
  if inAperture s (issuer w.cmd) at_.toNat 32 then
    emit (.post (at_ + 31) ((replyBytes e).drop 31)) (emit (.post at_ ((replyBytes e).take 31)) s)
  else apertureHit (issuer w.cmd) s

/-- The reply entry of a command (R69, R70). -/
def replyRec (w : Waiting) (r : Ring) (b : ReplyBody) : ReplyRec :=
  { ring := w.cmd.ring, idx := w.cmd.idx, opcode := w.opcode, seq := w.cmd.seq
    body := { b with buf := fitBuf w.cmd.bufLen b.buf, subsys := some (b.subsys.getD (Fin.ofNat 16 (w.opcode.toNat / 256))) }
    phase := replyPhase w.cmd.idx r.size }

/-- SU writes a reply: the entry, then its phase, then the MSI-X message if NOTIFY is set (R69, R70). A ring that no longer
exists receives none. The command is then fetched and replied. -/
def writeReply (w : Waiting) (b : ReplyBody) (s : State) : State :=
  match getRing s w.cmd.ring with
  | none => s
  | some r =>
    let e := replyRec w r b
    let s := putRing s w.cmd.ring { r with inflight := r.inflight.filter (· != w.cmd.idx), commits := r.commits.filter (· != w.cmd.idx) }
    let s := postReply w r e { s with su := { s.su with replies := e :: s.su.replies } }
    if w.cmd.notify then sendMsix (vectorOf (issuer w.cmd) r.vector.toNat) s else s

/-- SU_RING_DESTROY completes once every fetched command of the ring has its reply (R77). -/
def finishDestroy (ring : RingId) (s : State) : State :=
  match ring, getRing s ring with
  | .inst i k, some r =>
    if !r.destroy.isEmpty && r.inflight.isEmpty then
      onSu (fun u => { u with iring := u.iring.del (i, k), order := u.order.map (fun e => if r.destroy.contains e.1 then (e.1, some (st .ok)) else e) }) s
    else s
  | _, _ => s

/-- One reply written now, and what it ends. -/
def sendReply (w : Waiting) (b : ReplyBody) (s : State) : State := finishDestroy w.cmd.ring (writeReply w b s)

/-- Two commands of one ring to one subsystem, whose replies keep index order (R65). -/
def sameStream (v w : Waiting) : Bool := v.cmd.ring == w.cmd.ring && v.opcode.toNat / 256 == w.opcode.toNat / 256

/-- The oldest reply that is known and that no earlier command of its ring to its subsystem holds up (R65). -/
def nextReply (l : List (Waiting × Option ReplyBody)) : Option (Waiting × ReplyBody) :=
  l.findSome? (fun e => match e.2 with
    | some b => if (l.find? (fun x => sameStream x.1 e.1)) == some e then some (e.1, b) else none
    | none => none)

/-- Known replies are written in the order of R65, at most n of them. -/
def releaseReplies : Nat → State → State
  | 0, s => s
  | n + 1, s =>
    match nextReply s.su.order with
    | some (w, b) => releaseReplies n (sendReply w b (onSu (fun u => { u with order := u.order.filter (fun e => e.1 != w) }) s))
    | none => s

/-- The session of an owner; one not listed is CLOSED (R79). -/
def getSession (s : State) (o : Tag) : Session := s.su.sessions.getD o {}

/-- The session of an owner replaced. -/
def putSession (s : State) (o : Tag) (x : Session) : State :=
  { s with su := { s.su with sessions := s.su.sessions.put o x } }

/-- A fault of SU's firmware: flag, event, and the issuer's OPEN or CHECKED session discarded; an ARMED one stays, as R80 names no such exit
from ARMED (DESIGN CHOICE, log 124) (R72, R73, R585). -/
def firmwareFault (o : Tag) (s : State) : State :=
  let x := (getSession s o).state
  let s := if x = .opened ∨ x = .checked then onSu (fun u => { u with sessions := u.sessions.del o }) s else s
  raise 0x03 0 (onGlob (fun g => { g with internal := true }) s)

/-- A reply that is known takes its place: commands of a ring to one subsystem complete in index order (R65), but for SU_COMMIT, which holds no
later command. -/
def placeReply (w : Waiting) (b : ReplyBody) (s : State) : State :=
  if w.opcode = 0x0012 then sendReply w b s
  else if s.su.order.any (fun e => e.1 == w) then
    onSu (fun u => { u with order := u.order.map (fun e => if e.1 = w then (w, some b) else e) }) s
  else if s.su.order.any (fun e => sameStream e.1 w) then onSu (fun u => { u with order := u.order ++ [(w, some b)] }) s
  else sendReply w b s

/-- A reply, and those that it lets out. Where the firmware has failed after the operation the reply is INTERNAL (R73). -/
def reply (w : Waiting) (b : ReplyBody) (s : State) : State :=
  let s := if w.cmd.fault = .none then s else firmwareFault (issuer w.cmd) s
  let b := if w.cmd.fault = .none then b else { status := .internalFault, subsys := b.subsys }
  let s := placeReply w b s
  releaseReplies s.su.order.length s

/-- A command accepted whose reply comes later (R65); a device that has reset answers none. -/
def outstanding (w : Waiting) (s : State) : State :=
  if w.opcode = 0x0012 ∨ s.glob.ready = false then s else onSu (fun u => { u with order := u.order ++ [(w, none)] }) s

/-- Little-endian field of `n` bytes at an offset (R12). -/
def fieldLE (l : List Byte) (off n : Nat) : Nat := ofBytesLE ((l.drop off).take n)

/-- A command entry read (R67): the command at index `i` of a ring, and its opcode. -/
def decodeEntry (ring : RingId) (i : BitVec 16) (l : List Byte) (dmaOk : Bool) (fault : FwFault) : Cmd × BitVec 16 :=
  let flags := fieldLE l 0x02 2
  ({ ring := ring, idx := i
     notify := flags.testBit 0, fence := flags.testBit 1, indirect := flags.testBit 2, async := flags.testBit 3
     rsv := BitVec.ofNat 44 (flags / 16 + fieldLE l 0x1C 4 * 2 ^ 12)
     seq := BitVec.ofNat 32 (fieldLE l 0x04 4), session := BitVec.ofNat 16 (fieldLE l 0x08 2)
     plen := fieldLE l 0x0A 2, indLen := fieldLE l 0x0C 4
     bufAddr := BitVec.ofNat 64 (fieldLE l 0x10 8), bufLen := fieldLE l 0x18 4, dmaOk := dmaOk, fault := fault },
   BitVec.ofNat 16 (fieldLE l 0x00 2))

/-- An indirect buffer of an instance lies outside its apertures (R68, R511). -/
def bufOutside (s : State) (c : Cmd) : Bool := c.indirect && !inAperture s (issuer c) c.bufAddr.toNat (max c.indLen c.bufLen)

/-- R68: the form of a command entry is bad. -/
def formBad (s : State) (c : Cmd) : Bool :=
  c.rsv != 0 || decide (c.plen > 32) || decide (c.indLen > 16777216) || (c.indirect && c.plen != 0) ||
  (!c.indirect && c.indLen != 0) || !c.dmaOk || bufOutside s c

/-- A refusal that SU makes before it hands the command to a subsystem carries SUBSYS 0 (R69). -/
def suSt (x : Status) : ReplyBody := { status := x, subsys := some 0 }

/-- A fetched command of an instance that is resetting or absent is dropped without a reply (R525). -/
def dropped (c : Cmd) (s : State) : Bool :=
  decide (issuer c ≠ 0) && (instState s (issuer c) == .resetting || instState s (issuer c) == .absent)

/-- SU starts a command next in its ring: it has been fetched, has passed steps 1–3 of R626, and every earlier command of its ring has
started (R65). -/
def due (op : BitVec 16) (c : Cmd) (s : State) : Bool :=
  match getRing s c.ring with
  | some r => r.dispatch.head? == some (c, op)
  | none => false

/-- The state in which a command has started (R65). -/
def begun (c : Cmd) (s : State) : State :=
  match getRing s c.ring with
  | some r => putRing s c.ring { r with dispatch := r.dispatch.drop 1 }
  | none => s

/-- One command as SU executes it: the checks `pre` of step 4 of R626, the access to its power domain, then the opcode's own body, which
answers or leaves its reply to a later event. Nothing is served before start-up phase 4 has ended (R616). -/
def commandWith (op : BitVec 16) (openTo : Bool) (c : Cmd) (s : State) (pre : State → Option ReplyBody)
    (body : State → State × Option ReplyBody) : Res :=
  if !s.glob.ready || !due op c s then .next s
  else
    let s := begun c s
    let w : Waiting := { cmd := c, opcode := op }
    if dropped c s then .next s
    else if issuer c ≠ 0 && !openTo then .next (reply w (suSt .denied) s)
    else match pre s with
    | some b => .next (reply w b s)
    | none =>
      match opAccess op.toNat s with
      | (s, some b) => .next (reply w b s)
      | (s, none) =>
        match body s with
        | (s, some b) => .next (reply w b s)
        | (s, none) => .next (outstanding w s)

/-- A command without checks of its session. -/
def command (op : BitVec 16) (openTo : Bool) (c : Cmd) (s : State) (body : State → State × Option ReplyBody) : Res :=
  commandWith op openTo c s (fun _ => none) body

/-- A command that only answers. -/
def answer (op : BitVec 16) (openTo : Bool) (c : Cmd) (s : State) (b : ReplyBody) : Res :=
  command op openTo c s (fun s => (s, some b))

/-! ## Sessions and staging -/

/-- The subsystem of an item. -/
def itemSubsys (i : Item) : Nat := (Item.opcode i).toNat / 256

/-- Two items with one key. -/
def sameKey (a b : Item) : Bool := Item.key a == Item.key b

/-- `top` laid over `base`: an item of `base` with the key of one of `top` is replaced (R81, R82). -/
def overlay (top base : List Item) : List Item := top ++ base.filter (fun b => !top.any (sameKey b))

/-- The section kind of an item (R92): shares, code, points, or settings. -/
def itemSectionKind (i : Item) : Nat :=
  if Item.opcode i = 0x0D01 then 4 else if Item.opcode i = 0x0901 then 2 else if Item.opcode i = 0x0A01 then 3 else 1

/-- The owner of item n of a kind: the instance whose share holds it, else the platform (R518). -/
def shareOwner (s : State) (k : ItemKind) (n : Nat) : Tag :=
  ((s.im.inst.find? (fun e => e.2.shares.ranges.any (fun r => r.1 == k && decide (r.2.1 ≤ n ∧ n < r.2.1 + r.2.2)))).map (·.1)).getD 0

/-- The owner of the code and point sections an item belongs to (R92); settings and shares are the platform's. -/
def itemOwner (s : State) : Item → Tag
  | .code o _ => o
  | .point n _ => shareOwner s .point n
  | .pub c => c.owner
  | _ => 0

/-- The section of a package that an item belongs to: subsystem, kind, owner (R91, R92). -/
def itemSection (s : State) (i : Item) : Nat × Nat × Tag := (itemSubsys i, itemSectionKind i, itemOwner s i)

/-- The configuration a session's staged items would give: the active items overlaid with them (R82, R630). -/
def sessionView (s : State) (o : Tag) : List Item :=
  overlay (getSession s o).staged (s.su.active.filter (fun i => !(getSession s o).replace.contains (itemSection s i)))

/-- A staged command that addresses a subsystem which an ARMED commit of another session or a running bank resynchronisation
affects returns BUSY (R81). -/
def stageBusy (s : State) (o : Tag) (sub : Nat) : Bool :=
  (match s.su.armed with
   | some a => a.owner != o && (a.items ++ a.removed).any (fun i => itemSubsys i == sub)
   | none => false) ||
  (s.su.resync && s.su.resyncItems.any (fun i => itemSubsys i == sub))

/-- The session checks of step 4 of R626 for a staged command (R79–R81). -/
def sessionRefusal (s : State) (c : Cmd) (sub : Nat) : Option Status :=
  let x := getSession s (issuer c)
  if x.state = .closed then some .notReady
  else if x.id ≠ c.session then some .stale
  else if x.state = .armed then some .notReady
  else if stageBusy s (issuer c) sub then some .busy
  else none

/-- The bytes of the 1 GiB staging area an owner may use (R79). -/
def stagingShare (s : State) (o : Tag) : Nat :=
  if o = 0 then 1073741824 - (s.im.inst.map (fun e => e.2.shares.staging)).sum
  else (s.im.inst.getD o {}).shares.staging

/-- Whether an owner's share holds item n of a kind given by index ranges (R518). -/
def shareHas (s : State) (o : Tag) (k : ItemKind) (n : Nat) : Bool :=
  (s.im.inst.getD o {}).shares.ranges.any (fun r => r.1 == k && decide (r.2.1 ≤ n ∧ n < r.2.1 + r.2.2))

/-- A command of an instance names an item outside its share (R626 step 5). -/
def outsideShare (c : Cmd) (k : ItemKind) (n : Nat) (s : State) : Bool := issuer c != 0 && !shareHas s (issuer c) k n

/-- One staged command (R79–R81, R626, R630): after the session checks the opcode's own check, which sees the session's view
with the command's items laid over it; then the items join the session, whose state becomes OPEN. -/
def stage (op : BitVec 16) (openTo : Bool) (c : Cmd) (items : List Item) (check : List Item → State → Option Status)
    (s : State) : Res :=
  commandWith op openTo c s (fun s => (sessionRefusal s c (op.toNat / 256)).map suSt) fun s =>
    let o := issuer c
    let x := getSession s o
    match check (overlay items (sessionView s o)) s with
    | some e => (s, some (st e))
    | none =>
      let n := c.plen + c.indLen
      if x.bytes + n > stagingShare s o then (s, some (st .quota))
      else
        (putSession s o { x with staged := overlay items x.staged, bytes := x.bytes + n, state := .opened, package := none },
         some (st .ok))

/-- The part numbers that a 64-bit part mask names, ascending (R89). -/
def maskParts (mask : BitVec 64) : List Nat := (List.range 64).filter (fun n => mask.getLsbD n)

/-- The mask of a list of part numbers. -/
def partsMask (l : List Nat) : BitVec 64 := BitVec.ofNat 64 (l.foldl (fun a n => a + 2 ^ n) 0)

/-- A multi-part immediate command (R89): the parts in ascending order, each done or failing with a status; the bytes the
parts write to the result buffer follow one another. -/
def multipart (mask : BitVec 64) (part : Nat → State → State × Status × List Byte) (s : State) : State × ReplyBody :=
  if mask = 0 then (s, st .badParam)
  else
    let r := (maskParts mask).foldl
      (fun (a : State × List Nat × Option Status × List Byte) n =>
        match part n a.1 with
        | (s', .ok, bs) => (s', a.2.1 ++ [n], a.2.2.1, a.2.2.2 ++ bs)
        | (s', e, _) => (s', a.2.1, some (a.2.2.1.getD e), a.2.2.2))
      (s, [], none, [])
    let buf := if r.2.2.2 = [] then Buf.none else .bytes r.2.2.2
    match r.2.1, r.2.2.1 with
    | _, none => (r.1, { status := .ok, buf := buf })
    | [], some e => (r.1, { status := e })
    | done, some e => (r.1, { status := .partialDone, r0 := partsMask done, r1 := mask, detail := statusCode e, buf := buf })

/-- The bytes of a bank of 64-bit counters in counter order. -/
def counterBytes {n : Nat} (v : Vector (BitVec 64) n) : List Byte := v.toList.flatMap (fun x => bytesLE 8 x.toNat)

/-- A multi-part immediate command as SU executes it. -/
def multi (op : BitVec 16) (openTo : Bool) (c : Cmd) (mask : BitVec 64)
    (part : Nat → State → State × Status × List Byte) (s : State) : Res :=
  command op openTo c s fun s => let r := multipart mask part s; (r.1, some r.2)

end Sys2Proof.Machine
end

