-- ==== Sys2Proof/Machine/TimeOps.lean ====
section
/-! DEFINITION. Shared operations of the Time Base (chapter 01): compare units, TAI alignment, sources and the servo. -/

namespace Sys2Proof.Machine

/-- The general or fixed compare unit n (R42). -/
def getTcu (s : State) (n : Nat) : Tcu := vget s.tb.tcu n {}

/-- Compare unit n changed. -/
def modTcu (n : Nat) (f : Tcu → Tcu) (s : State) : State := { s with tb := { s.tb with tcu := vmod s.tb.tcu n f } }

/-- LT at the time-clock tick before the present one. -/
def State.lastTick (s : State) : LT := (s.tb.acc - s.tb.rate.zeroExtend 96).extractLsb' 32 64

/-- R41: the target of a periodic unit after a firing: advanced by as many whole periods as put it ahead of LT. -/
def nextTarget (now target : LT) (period : Nat) : LT :=
  ltAdd target (((ltDiff now target).toNat / period + 1) * period)

/-- A unit armed at a target: one already reached is held until the next tick (R41). -/
def Tcu.armAt (u : Tcu) (now target : LT) : Tcu :=
  { u with en := true, target := target, heldAt := if ltReached now target then some now else none }

/-- Whether a firing of unit n now is late: the target was reached when the unit was armed, or on an earlier tick (R41). -/
def firesLate (s : State) (n : Nat) : Bool := (getTcu s n).heldAt.isSome || ltReached s.lastTick (getTcu s n).target

/-- The instant of a firing of unit n now: its target, or the present tick where the unit fires late (R39, R41). -/
def fireInstant (s : State) (n : Nat) : LT := if firesLate s n then s.now else (getTcu s n).target

/-- A compare unit that is due fires (R39–R41): it sets FIRED, and LATE where its target had already passed on the tick
before; a periodic unit takes its next target and a one-shot unit is done. -/
def fireTcu (n : Nat) (s : State) : State :=
  let u := getTcu s n
  let late := firesLate s n
  let u' := { u with fired := true, late := u.late || late, en := u.periodic, heldAt := none,
                     target := if u.periodic then nextTarget s.now u.target u.period.toNat else u.target }
  let s := modTcu n (fun _ => u') s
  { s with tb := { s.tb with tcuLate := s.tb.tcuLate || late } }

/-- Compare unit n is armed and its target is reached (R11, R39), not on the tick of an arming in the past (R41). -/
def tcuDue (s : State) (n : Nat) : Bool :=
  (getTcu s n).en && ltReached s.now (getTcu s n).target && (getTcu s n).heldAt != some s.now

/-- The first LT after the present whose TAI is a whole number of periods plus an offset, under the mapping in force (R44). -/
def alignedTarget (s : State) (period offset : Int) : LT :=
  let now := taiOf s.tb s.now
  ltOfTai s.tb (((now - offset).ediv period + 1) * period + offset)

/-- Whether a pin unit runs: it is staged, and TAI is mapped or free-running output is enabled (R44). -/
def pinRuns (s : State) (k : Nat) : Bool :=
  let c := vget s.tb.pinCfg.out k {}
  c.en && (s.tb.taiValid || c.freeRun)

/-- The period of pin k in tu: one TAI second for PPS_OUT (0–3), the staged period for TB_OUT (4–11) (R44). -/
def pinPeriod (s : State) (k : Nat) : Nat :=
  if k < 4 then secTu 1 else (vget s.tb.pinCfg.out k {}).period

/-- Pin unit TCU8 + k armed at the first target of its TAI alignment, or left unarmed (R42, R44). -/
def armPin (k : Nat) (s : State) : State :=
  if pinRuns s k && decide (0 < pinPeriod s k) then
    modTcu (8 + k) (fun u => { u.armAt s.now (alignedTarget s (pinPeriod s k) (vget s.tb.pinCfg.out k {}).offset) with
      periodic := true, period := BitVec.ofNat 63 (pinPeriod s k) }) s
  else modTcu (8 + k) (fun u => { u with en := false }) s

/-- A general unit assigned to CNV_CLK phase alignment armed at the first target of its alignment (R44, R627). -/
def armCnv (k : Nat) (s : State) : State :=
  let a := vget s.tb.assign k {}
  if 0x22 ≤ a.dest.toNat ∧ a.dest.toNat ≤ 0x25 ∧ 0 < a.cnvPeriod ∧ s.tb.taiValid then
    modTcu (20 + k) (fun u => { u.armAt s.now (alignedTarget s a.cnvPeriod a.cnvPhase) with
      periodic := true, period := BitVec.ofNat 63 a.cnvPeriod }) s
  else s

/-- TCU3 armed at the next TAI second boundary, or while TAI is not mapped at the next LT multiple of 1 s (R44, R206). -/
def armGrid (s : State) : State :=
  let t := if s.tb.taiValid then alignedTarget s (secTu 1) 0 else BitVec.ofNat 64 ((s.now.toNat / secTu 1 + 1) * secTu 1)
  modTcu 3 (fun u => { u.armAt s.now t with periodic := true, period := BitVec.ofNat 63 (secTu 1) }) s

/-- Every unit with a TAI-derived target takes the first target of its alignment under the mapping in force: TCU3, TCU8–TCU19
and the units assigned to CNV_CLK (R24, R44). -/
def armTai (s : State) : State :=
  let s := armGrid s
  let s := (List.range 12).foldl (fun s k => armPin k s) s
  (List.range 12).foldl (fun s k => armCnv k s) s

/-! ## PTP ports under MACsec (R30) -/

/-- The EtherType of PTP event messages and the group addresses they go to (R31; addresses of IEEE 1588, log 10). -/
def ptpEtype : PtpTransport → BitVec 16
  | .ethernet => 0x88F7
  | .udpIPv4 => 0x0800
  | .udpIPv6 => 0x86DD

/-- The destinations of event messages: Sync and Delay_Req, and the peer messages. -/
def ptpDests (c : PtpCfg) : List Mac :=
  match c.transport, c.delay with
  | .ethernet, .p2p => [0x011B19000000, 0x0180C200000E]
  | .ethernet, .e2e => [0x011B19000000]
  | .udpIPv4, .p2p => [0x01005E000181, 0x01005E00006B]
  | .udpIPv4, .e2e => [0x01005E000181]
  | .udpIPv6, .p2p => [0x333300000181, 0x33330000006B]
  | .udpIPv6, .e2e => [0x333300000181]

/-- PTP event messages would be MACsec-protected under a port's settings: MACsec runs and some of them meet no enabled bypass entry
(R30, R128). -/
def ptpProtected (c : PtpCfg) (m : MacsecCfg) : Bool :=
  m.en && !(ptpDests c).all (fun d => m.bypass.toList.any (fun b => b.en && b.etype == ptpEtype c.transport && (match b.dst with
    | some x => x == d
    | none => true)))

/-! ## Sources and servo (R34–R37) -/

/-- Whether a source is qualified and not excluded (R34). -/
def srcQualified (t : TbState) : Source → Bool
  | .none => false
  | .ptp => t.ptpQualified && t.src.ptpEn
  | .irig => t.irig.qualified && t.src.irigEn

/-- The preferred qualified source (R34). -/
def bestSource (t : TbState) : Source :=
  if srcQualified t .ptp then .ptp else if srcQualified t .irig then .irig else .none

/-- The increment held in LOCKED joined with those of earlier spans, of which the last 64 s are kept (R35). -/
def lockedSpans (t : TbState) (now : LT) : List (Nat × BitVec 64) :=
  let l := if t.servo = .locked then ((ltDiff now t.rateSince).toNat, t.rate) :: t.lockedRates else t.lockedRates
  (l.foldl (fun (a : Nat × List (Nat × BitVec 64)) e =>
      let room := secTu 64 - a.1
      if room = 0 then a else (a.1 + min e.1 room, (min e.1 room, e.2) :: a.2)) (0, [])).2.reverse

/-- The spans spent LOCKED accounted up to the present (R35). -/
def accountLocked (s : State) : State := onTb (fun t => { t with lockedRates := lockedSpans t s.now, rateSince := s.now }) s

/-- The servo in a new state; a change raises the servo-state event (R35), and where LOCKED is left its last span and the instant are
kept. -/
def setServo (x : Servo) (s : State) : State :=
  if s.tb.servo = x then s else
  let s := if s.tb.servo = .locked then onTb (fun t => { t with leftLockedAt := some s.abs }) (accountLocked s) else s
  raise 0x08 0 (onTb (fun t => { t with servo := x }) s)

/-- A source selected: the servo enters ACQUIRING (R34, R35). -/
def selectSource (x : Source) (s : State) : State :=
  setServo .acquiring { s with tb := { s.tb with source := x, within := 0, lossAt := none } }

/-- A source has just become qualified: the selected source continues within its loss timeout; FREERUN and HOLDOVER select it;
a preferred source replaces the one in use (R34, R35). -/
def sourceQualified (s : State) : State :=
  let b := bestSource s.tb
  if b = .none then s
  else if s.tb.lossAt.isSome then
    (if srcQualified s.tb s.tb.source then { s with tb := { s.tb with lossAt := none } } else s)
  else if s.tb.source = b then s
  else selectSource b s

/-- The selected source is lost: the loss timeout starts, and E_lock is the filtered offset magnitude (R35, R36). -/
def sourceLost (s : State) : State :=
  if s.tb.source = .none ∨ s.tb.lossAt.isSome then s
  else { s with tb := { s.tb with lossAt := some (ltAdd s.now (msTu s.tb.cfg.lossMs)),
                                  eLock := ceilDiv s.tb.offset.natAbs 65536,
                                  ptpQualified := s.tb.ptpQualified && s.tb.source != .ptp,
                                  irig := if s.tb.source = .irig then { s.tb.irig with qualified := false } else s.tb.irig } }

/-- The mean increment of the spans, weighted by their length. The spec names no rounding and no mean of no span: rounded down to the
unit of TB_LT_RATE, and the nominal increment where no span is held (DESIGN CHOICE, log 113) (R35). -/
def meanRate (l : List (Nat × BitVec 64)) : BitVec 64 :=
  let total := (l.map (·.1)).sum
  if total = 0 then nominalRate else BitVec.ofNat 64 ((l.map (fun e => e.1 * e.2.toNat)).sum / total)

/-- ±200 ppm of nominal, in the unit of TB_LT_RATE: 26.2144 tu (R19). -/
def rateSpan : Nat := 112589990684

/-- A number brought into the range of R19. -/
def clampRate (n : Nat) : BitVec 64 :=
  BitVec.ofNat 64 (max (nominalRate.toNat - rateSpan) (min n (nominalRate.toNat + rateSpan)))

/-- TB_HOLDOVER_SECS (R36). -/
def holdoverSecs (s : State) : BitVec 32 :=
  if s.tb.servo = .holdover then BitVec.ofNat 32 ((taiOf s.tb s.now - s.tb.holdTai).toNat / secTu 1) else 0

end Sys2Proof.Machine
end

