-- ==== Sys2Proof/Machine/TimeBase.lean ====
section
/-! DEFINITION. Meanings of the Time Base commands (chapter 01), but for the general compare units, which reach into AR and FB, and the PTP
messages, which pass QM and PX. -/

namespace Sys2Proof.Machine

/-! ## Captures and pins (R39–R47) -/

/-- Whether an edge is one the unit records (R45). -/
def edgeActive (e : EdgeSel) (rising : Bool) : Bool :=
  match e with
  | .rising => rising
  | .falling => !rising
  | .both => true

/-- An instant with 1 ns resolution, rounded down (log 117). -/
def wholeNs (t : LT) : LT := t &&& ~~~0xFFFF#64

/-- An edge of capture unit n: one less than 8 ns after the edge last recorded is not recorded separately; else it is recorded with 1 ns
resolution (rounded down, since R45 names no rounding: DESIGN CHOICE, log 117), or at a full FIFO lost (R45, R47). -/
def recordEdge (n : Nat) (t : LT) (s : State) : State :=
  let u := vget s.tb.tcc n {}
  if (match u.lastEdge with
      | some l => decide (s.absOf t - l < nsTu 8)
      | none => false) then s
  else if u.fifo.length < 4 then
    onTb (fun b => { b with tcc := vmod b.tcc n (fun u => { u with fifo := u.fifo ++ [wholeNs t], lastEdge := some (s.absOf t) }) }) s
  else
    raise 0x0B 0 (onTb (fun b => { b with tcc := vmod b.tcc n (fun u => { u with ovf := true }), tccOvf := true }) s)

/-- An edge on the input of unit n, recorded if its direction is the active one (R45). -/
def captureEdge (n : Nat) (t : LT) (rising : Bool) (s : State) : State :=
  if edgeActive (vget s.tb.tcc n {}).edge rising then recordEdge n t s else s

/-- The level of pin k with the edge sent out (R39, R44); the TB_OUT that the staged setting loops back reaches TCC15 (R46). -/
def setPin (k : Nat) (level : Bool) (t : LT) (fall : Option LT) (s : State) : State :=
  let was := (vget s.tb.pins k {}).level
  let s := emit (.pin k level t) (onTb (fun b => { b with pins := vmod b.pins k (fun _ => { level := level, fallAt := fall }) }) s)
  if k = 4 + s.tb.pinCfg.loopback.val ∧ was ≠ level then captureEdge 15 t level s else s

/-- PIN_OUTPUT_FIRE (R39, R42): TCU8 + k is due; the pin rises at the target, or on the present tick where the unit fires late (R41), unless
the servo is in FREERUN without TAI and free-running output is not enabled, when it stays low (R44). -/
def execPinOutputFire (k : Fin 12) (s : State) : Res :=
  if !tcuDue s (8 + k.val) then .next s else
  let t := fireInstant s (8 + k.val)
  let c := vget s.tb.pinCfg.out k.val {}
  let s := fireTcu (8 + k.val) s
  .next (if pinRuns s k.val then setPin k.val true t (some (ltAdd t c.width)) s else s)

/-- PULSE_END (R44): the staged width has expired and the pin falls. -/
def execPulseEnd (k : Fin 12) (s : State) : Res :=
  match (vget s.tb.pins k.val {}).fallAt with
  | some t => .next (if ltReached s.now t then setPin k.val false t none s else s)
  | none => .next s

/-! ## Anchor and servo (R23, R24, R35) -/

/-- Once a second, what is too old to matter is made to stay so while LT wraps: a leap second more than 24 h ago, and a loss of LOCKED more
than 1,000 s ago (R266). -/
def ageMarks (now : LT) (t : TbState) : TbState :=
  { t with
    leapAt := match t.leapAt with
      | some (l, d) => if ltDiff now l < secTu 86400 then some (l, d) else none
      | none => none }

/-- ANCHOR_ADVANCE (R23): at a TAI second boundary the anchor moves to it, and TB places a time record on the tap link (R446). -/
def execAnchorAdvance (s : State) : Res :=
  let t := s.tb
  let sec := (taiOf t s.now).ediv (secTu 1)
  if !t.taiValid || decide (sec ≤ (t.taiS.toNat : Int)) then .next s else
  let tai := sec * secTu 1
  let lt := ltOfTai t tai
  let s := { s with tb := ageMarks s.now (setAnchor t lt tai) }
  let r : TimeRec := { lt := lt, taiS := taiSec tai, utcOffset := t.utcOffset, taiValid := t.taiValid, servo := t.servo, ltUncertain := t.ltUncertain,
                       errBound := timeErrBound s }
  .next (onMi (fun m => { m with timeLink := m.timeLink ++ [(r, 0xF0)] }) s)

/-- What SU holds of a PTP port in TAI follows a change of the mapping by `d`. -/
def remapPort (d : Int) (x : PtpPort) : PtpPort :=
  { x with
    syncRx := x.syncRx.map (fun e => (e.1, e.2.1 + d, e.2.2))
    delayTx := x.delayTx.map (fun e => (e.1, e.2 + d))
    pdelayRx := x.pdelayRx.map (fun e => (e.1, e.2.1, e.2.2.1 + d, e.2.2.2))
    requests := x.requests.map (fun r => { r with rx := r.rx + d })
    answered := x.answered.map (fun r => { r with rx := r.rx + d })
    syncDiff := x.syncDiff + d, measured := none }

/-- The mapping set so that the present TAI is `srcTai`; the filtered offset restarts (R24). -/
def setMapping (srcTai : Int) (s : State) : State :=
  let d := srcTai - taiOf s.tb s.now
  onTb (fun t => { setAnchor t s.now srcTai with
    offset := 0, within := 0, ptp := t.ptp.map (remapPort d), irig := { t.irig with measured := none } }) s

/-- A correction above the step threshold (R24): TAI_A changes on one tick, LT does not; TIME_STEP and its event; the filtered
offset and the lock count restart; the units with TAI-derived targets are re-armed. -/
def timeStep (srcTai : Int) (s : State) : State :=
  armTai (raise 0x09 0 (onTb (fun t => { t with timeStep := true, lastStep := some s.abs }) (setMapping srcTai s)))

/-- The first mapping (R24): neither a step nor an event; the units with TAI-derived targets are armed. -/
def firstMapping (srcTai : Int) (s : State) : State := armTai (onTb (fun t => { t with taiValid := true }) (setMapping srcTai s))

/-- LOCKED is reached (R35, R55): LT_UNCERTAIN clears. -/
def reachLocked (s : State) : State :=
  setServo .locked (onTb (fun t => { t with everLocked := true, ltUncertain := false, ltUncert := 0, rateSince := s.now }) s)

/-- The servo's state after an update whose judged offset is `f` (R35): LOCKED after four updates within the threshold, left
for ACQUIRING beyond four times the threshold. -/
def servoJudge (f : Int) (s : State) : State :=
  let thr := nsTu s.tb.cfg.lockThr
  let n := if f.natAbs ≤ thr then s.tb.within + 1 else 0
  let s := onTb (fun t => { t with within := n }) s
  match s.tb.servo with
  | .acquiring => if 4 ≤ n then reachLocked s else s
  | .locked => if f.natAbs > 4 * thr then setServo .acquiring s else s
  | _ => s

/-- The offset from the selected source that the servo has not yet taken, in tu: the slave port's, or that of the last good IRIG frame
(R28, R31, R49). -/
def measuredOffset (t : TbState) : Option Int :=
  match t.source with
  | .ptp => (vget t.ptp t.slavePort.toNat {}).measured
  | .irig => t.irig.measured
  | .none => none

/-- The measurement taken: none is waiting any more. -/
def takeMeasured (s : State) : State :=
  onTb (fun t => { t with ptp := vmod t.ptp t.slavePort.toNat (fun x => { x with measured := none }), irig := { t.irig with measured := none } }) s

/-- SERVO_UPDATE (R35): the servo takes the offset measured from the selected source. The first update sets the mapping; an offset above the
step threshold is judged and then stepped away (R24); otherwise the filtered offset and the new increment, within ±200 ppm, are free
values, since the spec does not give the filter (log 9). -/
def execServoUpdate (s : State) : Res :=
  match measuredOffset s.tb with
  | none => .next s
  | some m =>
    if s.tb.lossAt.isSome ∨ ¬(s.tb.servo = .acquiring ∨ s.tb.servo = .locked) then .next s else
    let srcTai := taiOf s.tb s.now - m
    if !s.tb.taiValid then .next (firstMapping srcTai s)
    else if m.natAbs > nsTu s.tb.cfg.stepThr then .next (timeStep srcTai (servoJudge m s))
    else
      let (f, s) := drawInt (accountLocked (takeMeasured s))
      let (r, s) := draw s
      .next (servoJudge f (onTb (fun t => { t with offset := f, rate := clampRate r, measuredAt := s.now }) s))

/-- LOSS_TIMEOUT (R35): another qualified source is selected; else HOLDOVER at the mean increment of the last 64 s LOCKED, or
FREERUN at the nominal increment where LOCKED has not been reached since the last start-up. -/
def execLossTimeout (s : State) : Res :=
  match s.tb.lossAt with
  | none => .next s
  | some t =>
    if !ltReached s.now t then .next s else
    let s := onTb (fun t => { t with lossAt := none }) s
    if bestSource s.tb ≠ .none then .next (selectSource (bestSource s.tb) s)
    else if s.tb.servo = .locked ∨ (s.tb.servo = .acquiring ∧ s.tb.everLocked) then
      let s := setServo .holdover s
      .next (onTb (fun t => { t with source := .none, rate := meanRate t.lockedRates, rateSince := s.now, holdTai := taiOf t s.now }) s)
    else .next (onTb (fun t => { t with source := .none, rate := nominalRate }) (setServo .freerun s))

/-! ## PTP (R31–R33, R631): the best master clock algorithm is IEEE 1588-2019's (PRESUMED, log 10) -/

/-- The data set of an Announce in the order the best master clock algorithm compares it. -/
def annKey (a : Announce) : List Nat :=
  [a.priority1.toNat, a.clockClass.toNat, a.accuracy.toNat, a.variance.toNat, a.priority2.toNat, a.gmId.toNat,
   a.steps.toNat, a.source.toNat]

/-- Lexicographic order of two data sets. -/
def keyLt : List Nat → List Nat → Bool
  | a :: as, b :: bs => decide (a < b) || (a == b && keyLt as bs)
  | _, _ => false

/-- The staged settings of PTP port p, if it is one and is not PTP-disabled (R30, R31). -/
def ptpPortCfg (t : TbState) (p : Nat) : Option PtpPortCfg :=
  if t.cfg.enabled ∧ ¬(vget t.ptp p {}).disabledMacsec then t.cfg.ports.find? (fun c => c.port.val == p) else none

/-- Whether this clock may be a master (R31). -/
def masterCapable (c : PtpClock) : Bool :=
  match c with
  | .ordinaryMaster => true
  | .boundary => true
  | .boundaryAndTransparent => true
  | _ => false

/-- The port with the best Announce, over the ports that are not the transparent clock's. -/
def bestPort (t : TbState) : Option (Nat × Announce) :=
  (List.range 14).foldl (fun a p =>
    match ptpPortCfg t p, (vget t.ptp p {}).announce with
    | some c, some x =>
      if c.transparent then a else
      match a with
      | none => some (p, x)
      | some (_, y) => if keyLt (annKey x) (annKey y) then some (p, x) else a
    | _, _ => a) none

/-- This clock's own data set: priorities and class as staged and as R37 says; the spec gives no identity, accuracy or variance of this
clock: the identity is an unknown constant, the others IEEE 1588's values for unknown (DESIGN CHOICE, log 115). -/
def ownKey (s : State) : List Nat :=
  [s.tb.cfg.priority1.toNat, clockClass s, 0xFE, 0xFFFF, s.tb.cfg.priority2.toNat, Config.clockIdentity.toNat, 0, 0]

/-- SU runs the best master clock algorithm and the port state machines (R31); the slave port it selects qualifies PTP as a
source (R34). -/
def runBmca (s : State) : State :=
  let best := bestPort s.tb
  let own := masterCapable s.tb.cfg.clock
  let slave := match best with
    | some (p, x) => if own && keyLt (ownKey s) (annKey x) then none else some (p, x)
    | none => none
  let portState (p : Nat) : PtpState :=
    match ptpPortCfg s.tb p with
    | none => .disabled
    | some c =>
      if c.transparent then .passive
      else match slave with
        | some (q, _) => if p = q then .slave else if own then .master else .listening
        | none => if own then .master else .listening
  let t := { s.tb with
    ptp := Vector.ofFn (fun p : Fin 14 => { vget s.tb.ptp p.val {} with state := portState p.val }),
    gm := slave.map (·.2), ptpQualified := slave.isSome,
    slavePort := match slave with
      | some (p, _) => BitVec.ofNat 4 p
      | none => 0xF }
  let s := { s with tb := t }
  if slave.isSome then sourceQualified s else if s.tb.source = .ptp then sourceLost s else s

/-- A received currentUtcOffset with its leap flags replaces the one in use; a change of one second is a leap second that has
happened (R266, R631; log 36). -/
def setUtc (off : BitVec 16) (leap61 leap59 : Bool) (s : State) : State :=
  let b := s.tb
  let leap : Option (LT × Bool) :=
    if b.utcReceived ∧ off = b.utcOffset + 1 then some (s.now, false)
    else if b.utcReceived ∧ off + 1 = b.utcOffset then some (s.now, true) else b.leapAt
  { s with tb := { b with utcOffset := off, utcReceived := true, utcKnown := true, leap61 := leap61, leap59 := leap59, leapAt := leap } }

/-- The offset of an Announce that carries a valid one (R631). -/
def takeUtc (a : Announce) (s : State) : State := if a.utcValid then setUtc a.utcOffset a.leap61 a.leap59 s else s

/-- SOURCE_LOST (R34, R35): the master of the slave port is heard no more, and the best master is judged anew; or IRIG is lost. With no other
PTP port to take over, the loss timeout starts, in every state of the servo. -/
def execSourceLost (s : State) : Res :=
  .next (if s.tb.source = .ptp then runBmca (onTb (fun t => { t with ptp := vmod t.ptp t.slavePort.toNat (fun x => { x with announce := none }) }) s)
    else sourceLost s)

/-! ## Captures, IRIG and reads (R18, R22, R45–R52) -/

/-- CAPTURE_EDGE (R45–R47): an edge on an input pin of TCC0–TCC13, which begins a pulse of `pulse` tu; a pulse shorter than 4 ns is not
captured. TCC14 and TCC15 have no pin: the heartbeat and the loop-back reach them (R46). -/
def execCaptureEdge (n : Fin 16) (t : LT) (rising : Bool) (pulse : Nat) (s : State) : Res :=
  .next (if n.val < 14 ∧ nsTu 4 ≤ pulse then captureEdge n.val t rising s else s)

/-- R49: the IRIG source is disqualified after two successive faults. -/
def irigFault (missing : Bool) (s : State) : State :=
  let n := s.tb.irig.faults + 1
  let s := raise 0x0C 0 { s with tb := { s.tb with
    irigErr := s.tb.irigErr || !missing, ppsMissing := s.tb.ppsMissing || missing,
    irig := { s.tb.irig with faults := n, good := 0, lastTime := none } } }
  if 2 ≤ n then
    if s.tb.source = .irig then sourceLost { s with tb := { s.tb with irig := { s.tb.irig with qualified := false } } }
    else { s with tb := { s.tb with irig := { s.tb.irig with qualified := false } } }
  else s

/-- The coded expressions that carry the control functions, the BCD year and the straight binary seconds (R48; IRIG Standard 200, log 118). -/
def irigHasExt (c : Fin 8) : Bool := [0, 1, 4, 5].contains c.val
def irigHasYear (c : Fin 8) : Bool := decide (4 ≤ c.val)
def irigHasSbs (c : Fin 8) : Bool := [0, 3, 4, 7].contains c.val

/-- Two BCD digits, units first. -/
def bcd2 (d : Nat × Nat) : Nat := d.1 + 10 * d.2

/-- Day of the year and seconds of the day of a frame (R48). -/
def irigDay (f : IrigFrame) : Nat := f.day.1 + 10 * f.day.2.1 + 100 * f.day.2.2
def irigSecs (f : IrigFrame) : Nat := 3600 * bcd2 f.hour + 60 * bcd2 f.min + bcd2 f.sec

/-- A frame decodes without error (R48, R49): markers right, every digit and number in range, and straight binary seconds that fit. -/
def irigDecodes (f : IrigFrame) : Bool :=
  f.ok && [f.sec.1, f.sec.2, f.min.1, f.min.2, f.hour.1, f.hour.2, f.day.1, f.day.2.1, f.day.2.2, f.year.1, f.year.2].all (fun d => decide (d ≤ 9)) &&
  decide (bcd2 f.sec ≤ 60 ∧ bcd2 f.min ≤ 59 ∧ bcd2 f.hour ≤ 23 ∧ 1 ≤ irigDay f ∧ irigDay f ≤ 366) &&
  (!irigHasSbs f.coding || f.sbs == irigSecs f)

/-- The year of a frame: its BCD year, that of its control functions, or the staged one (R48); two digits count from 2000 (log 118). -/
def irigYear (t : TbState) (f : IrigFrame) : Option Nat :=
  (if irigHasYear f.coding then some (bcd2 f.year) else if irigHasExt f.coding then some f.ext.year else t.src.irigYear).map
    (fun y => if y < 100 then 2000 + y else y)

/-- Seconds of a frame's time of year, which successive frames count up (R49). -/
def irigCount (f : IrigFrame) : Int := ((irigDay f * 86400 + irigSecs f : Nat) : Int)

/-- Two successive frames agree (R49): one second on; over a pending deleted second two; and from the end of the year to its first day. -/
def irigAgrees (t : TbState) (f : IrigFrame) : Bool :=
  match t.irig.lastTime with
  | none => true
  | some l =>
    irigCount f == l + 1 || (irigHasExt f.coding && f.ext.leapPending && f.ext.leapNeg && irigCount f == l + 2) ||
    (irigCount f == 86400 && decide (365 * 86400 + 86399 ≤ l))

/-- Days from 1 January 1970 to the first day of a year. -/
def daysTo (y : Nat) : Nat := (y - 1970) * 365 + ((y - 1969) / 4 - (y - 1901) / 100 + (y - 1601) / 400)

/-- The TAI in seconds that a frame gives (R48, R49): its local time less the decoded offset, which is 0 where the coding has none, is UTC, and
UTC plus currentUtcOffset is TAI. -/
def irigTai (t : TbState) (f : IrigFrame) : Option Int :=
  (irigYear t f).map (fun y =>
    (((daysTo y + irigDay f - 1) * 86400 + irigSecs f : Nat) : Int) - (if irigHasExt f.coding then f.ext.offset * 1800 else 0) + t.utcOffset.toInt)

/-- The leap flags, and the offset where it is carried, that IRIG as the source gives: decoded, or as staged by the host where the coding has
no control functions (R48, R631). -/
def irigUtc (f : IrigFrame) (s : State) : State :=
  if s.tb.source ≠ .irig then s
  else if irigHasExt f.coding then
    let l61 := f.ext.leapPending && !f.ext.leapNeg
    let l59 := f.ext.leapPending && f.ext.leapNeg
    match f.ext.utcOffset with
    | some u => setUtc u l61 l59 s
    | none => onTb (fun t => { t with leap61 := l61, leap59 := l59 }) s
  else onTb (fun t => { t with leap61 := t.src.irigLeap.getLsbD 0, leap59 := t.src.irigLeap.getLsbD 1 }) s

/-- IRIG_FRAME (R48, R49): three successive good frames that agree with each other and with PPS_IN to within 10 µs qualify
the source; a decode error, a disagreement or a missing PPS edge is a fault. The phase reference is PPS_IN: a good frame gives the offset of
the present mapping from its TAI at that edge. -/
def execIrigFrame (f : IrigFrame) (s : State) : Res :=
  match f.pps with
  | none => .next (irigFault true s)
  | some pps =>
    if !irigDecodes f || !irigAgrees s.tb f || decide ((ltDiff f.edge pps).natAbs > usTu 10) then .next (irigFault false s)
    else
      let n := s.tb.irig.good + 1
      let s := onTb (fun t => { t with irig := { t.irig with
        good := n, faults := 0, lastTime := some (if bcd2 f.sec = 60 then irigCount f - 1 else irigCount f)
        ext := if irigHasExt f.coding then f.ext else {}
        qualified := t.irig.qualified || decide (3 ≤ n) } }) s
      let s := irigUtc f (if 3 ≤ n then sourceQualified s else s)
      .next (onTb (fun t => { t with irig := { t.irig with
        measured := (irigTai t f).map (fun sec => taiOf t pps - sec * (secTu 1 : Nat)) } }) s)

/-- A host read answers a value (R13, R14). -/
def answerRead (rq : Nat) (v : BitVec 64) (s : State) : State := emit (.read rq v) s

/-- A read of the lower word of an RS register latches the upper half for the requester (R18); a 64-bit read returns the
whole value, and latches it too: R18 speaks of the lower word alone (DESIGN CHOICE, log 119). -/
def readRs (rq off : Nat) (v : BitVec 64) (wide : Bool) (s : State) : State :=
  answerRead rq (if wide then v else (v.truncate 32).zeroExtend 64)
    { s with im := { s.im with latches := s.im.latches.put (rq, off) (v.extractLsb' 32 32) } }

/-- A host read reaches BAR0 (R503, R612): once the firmware serves it; after a failure of both firmware slots every register but two reads 0;
else there is no access. -/
def hostRead (rq : Nat) (f : State → State) (s : State) : Res :=
  .next (if s.glob.ready then f s else if s.kv.halted then answerRead rq 0 s else s)

/-- The oldest entry of capture FIFO n, or 0, and the state after it is popped (R47). -/
def captureTake (n : Nat) (s : State) : LT × State :=
  (((vget s.tb.tcc n {}).fifo.head?).getD 0, onTb (fun t => { t with tcc := vmod t.tcc n (fun u => { u with fifo := u.fifo.drop 1 }) }) s)

/-- CAPTURE_POP (R47): the oldest entry is popped and latched; an empty FIFO reads 0. -/
def execCapturePop (rq : Nat) (n : Fin 16) (wide : Bool) (s : State) : Res :=
  hostRead rq (fun s => readRs rq (0x102000 + 0x10 * n.val) (captureTake n.val s).1 wide (captureTake n.val s).2) s

/-- W3 of a transmit timestamp entry (R51). -/
def txtsW3 (e : TxtsEntry) : BitVec 32 := pack [(e.seqId.toNat, 0), (e.msgType.toNat, 16), (bitN e.isPtp, 20)]

/-- W2 of a transmit timestamp entry of port p, or of an empty queue (R51). -/
def txtsW2 (p : Nat) (e : Option TxtsEntry) : BitVec 32 :=
  match e with
  | some e => pack [(e.id.toNat, 0), (p, 16), (1, 24), (bitN e.gap, 25)]
  | none => pack [(p, 16)]

/-- The four words of the oldest entry of port p's queue; an empty queue shows VALID = 0 (R51). -/
def txtsWords (s : State) (p : Nat) : List (BitVec 32) :=
  match (vget s.tb.txts p {}).fifo.head? with
  | some e => [e.lt.truncate 32, e.lt.extractLsb' 32 32, txtsW2 p (some e), txtsW3 e]
  | none => [0, 0, txtsW2 p none, 0]

/-- The oldest transmit timestamp of port p popped (R51). -/
def txtsDrop (p : Nat) (s : State) : State := onTb (fun t => { t with txts := vmod t.txts p (fun q => { q with fifo := q.fifo.drop 1 }) }) s

/-- TXTS_POP (R51): the read of W3, alone or with W2 as an aligned pair, returns it and pops the entry. -/
def execTxtsPop (rq : Nat) (p : Fin 14) (wide : Bool) (s : State) : Res :=
  hostRead rq (fun s =>
    let w := txtsWords s p.val
    answerRead rq (if wide then w.getD 3 0 ++ w.getD 2 0 else (w.getD 3 0).zeroExtend 64) (txtsDrop p.val s)) s

/-- A transmit timestamp of port p (R50–R52): entered, with GAP where entries were lost before it, or lost at a full queue. -/
def txtsEnter (p : Nat) (e : TxtsEntry) (s : State) : State :=
  let q := vget s.tb.txts p {}
  if q.fifo.length < 16 then
    { s with tb := { s.tb with txts := vmod s.tb.txts p (fun q => { q with fifo := q.fifo ++ [{ e with gap := q.gapNext }], gapNext := false }) } }
  else
    raise 0x0A 0 { s with tb := { s.tb with
      txts := vmod s.tb.txts p (fun q => { q with gapNext := true, lost := q.lost + 1 }),
      txtsOvf := true, txtsOvfPorts := s.tb.txtsOvfPorts ||| (1#14 <<< p) } }

/-- LT_NOW_READ (R22): the whole of LT at the instant of the read is latched for the requester. -/
def execLtNowRead (rq : Nat) (wide : Bool) (s : State) : Res :=
  hostRead rq (fun s => readRs rq 0x100010 s.now wide s) s

/-- The upper half that a requester has latched of the register at an offset, or 0 (R18). -/
def latchedHalf (rq off : Nat) (s : State) : BitVec 32 := s.im.latches.getD (rq, off) 0

/-- RS_UPPER_READ (R18): the half the requester latched with its last read of the lower word, or 0; nothing changes. -/
def execRsUpperRead (rq off : Nat) (s : State) : Res :=
  hostRead rq (fun s => answerRead rq ((latchedHalf rq off s).zeroExtend 64) s) s

/-! ## Opcodes (R58) -/

/-- TB_STAGE_PTP (R31, R58). -/
def execTbStagePtp (c : Cmd) (x : PtpCfg) (s : State) : Res := stage 0x0101 false c [.ptp x] (fun _ _ => none) s

/-- TB_STAGE_SOURCES (R58). -/
def execTbStageSources (c : Cmd) (x : SourcesCfg) (s : State) : Res := stage 0x0102 false c [.sources x] (fun _ _ => none) s

/-- What TbStagePortLat refuses, over the session's view with its items laid in (R626, R630). -/
def checkTbStagePortLat (l : List PortLatCfg) (_view : List Item) (_s : State) : Option Status :=
  if l.any (fun x => decide (x.phyUnc.toNat > 1000)) then some .badParam else none

/-- TB_STAGE_PORT_LAT (R28). -/
def execTbStagePortLat (c : Cmd) (l : List PortLatCfg) (s : State) : Res :=
  stage 0x0103 false c (l.map .portLat) (checkTbStagePortLat l) s

/-- What TbStagePins refuses, over the session's view with its items laid in (R626, R630): the width of a PPS_OUT pulse lies from 1 µs to
500 ms; TB_OUT has a free width (R44). -/
def checkTbStagePins (x : PinCfg) (_view : List Item) (_s : State) : Option Status :=
  if (x.out.toList.take 4).any (fun o => o.en && (decide (o.width < usTu 1) || decide (o.width > msTu 500)))
  then some .badParam else none

/-- TB_STAGE_PINS (R44, R45). -/
def execTbStagePins (c : Cmd) (x : PinCfg) (s : State) : Res :=
  stage 0x0104 false c [.pins x]
    (checkTbStagePins x) s

/-- What TbStageTcuAssign refuses, over the session's view with its items laid in (R626, R630). -/
def checkTbStageTcuAssign (l : List TcuAssign) (_view : List Item) (_s : State) : Option Status :=
  if l.any (fun x => !tcuDestOk x.dest || decide (x.owner > 64)) then some .badParam else none

/-- TB_STAGE_TCU_ASSIGN (R42, R58). -/
def execTbStageTcuAssign (c : Cmd) (l : List TcuAssign) (s : State) : Res :=
  stage 0x0105 false c (l.map .tcuAssign)
    (checkTbStageTcuAssign l) s

/-- R44, R58: TB_TCU_ARM and TB_TCU_DISARM address TCU20–TCU31 alone; an instance addresses only units of its own. -/
def tcuDenied (c : Cmd) (n : Nat) (s : State) : Bool :=
  decide (n < 20) || (issuer c != 0 && (getTcu s n).owner != issuer c)

/-- The record of TB_READ_TIME (R635). -/
def timeRecordBytes (s : State) : List Byte :=
  let tai := taiOf s.tb s.now
  bytesLE 8 s.now.toNat ++ bytesLE 8 (taiSec tai).toNat ++ bytesLE 4 (taiNsOf tai).toNat ++ bytesLE 2 (taiFrOf tai).toNat ++
  [BitVec.ofNat 8 (servoCode s.tb.servo),
   BitVec.ofNat 8 (bitN s.tb.taiValid + 2 * bitN s.tb.ltUncertain + 4 * bitN s.tb.utcKnown)] ++
  bytesLE 4 (timeErrBound s).toNat ++ bytesLE 2 s.tb.utcOffset.toNat ++ bytesLE 2 0

/-- TB_READ_TIME (R635): LT and the TAI of that LT, taken on one tick. -/
def execTbReadTime (c : Cmd) (s : State) : Res :=
  answer 0x0120 true c s
    (if 0 < c.bufLen ∧ c.bufLen < 32 then st .badParam
     else { status := .ok, r0 := s.now, r1 := (taiSec (taiOf s.tb s.now)).zeroExtend 64,
            buf := if c.bufLen = 0 then .none else .bytes (timeRecordBytes s) })

end Sys2Proof.Machine
end

