-- ==== Sys2Proof/Machine/Board.lean ====
section
/-! DEFINITION. Meanings of the board's events: THERM_TRIP_N, the PMBus bridge, the brown-out latch's clear (R562, R605, R606, R609). -/

namespace Sys2Proof.Machine

/-- THERM_TRIP (R609): the pin goes low, and the device takes no other action. -/
def execThermTrip (s : State) : Res := .next (onGlob (fun g => { g with thermTripN := false }) s)

/-- THERM_TRIP_N_HIGH (R609). -/
def execThermTripNHigh (s : State) : Res := .next (onGlob (fun g => { g with thermTripN := true }) s)

/-- A write of PA_PMB_CTRL is taken: PD1 serves registers and no transaction runs (R606). -/
def pmbFree (s : State) : Bool := s.glob.ready && !s.pmb.busy

/-- The settings of PA_PMB_CTRL (R606). -/
def pmbSettings (addr : BitVec 7) (cmd : BitVec 8) (read : Bool) (len : BitVec 3) (pec fast : Bool) (s : State) : State :=
  onPmb (fun p => { p with addr := addr, cmd := cmd, read := read, len := len, pec := pec, fast := fast }) s

/-- One byte more in SMBus's packet error code: CRC-8 over x^8 + x^2 + x + 1 (PRESUMED, log 159). -/
def pecStep (c b : Byte) : Byte :=
  (List.range 8).foldl (fun (x : Byte) _ => (x <<< 1) ^^^ (if x.getLsbD 7 then 0x07 else 0)) (c ^^^ b)

/-- The packet error code of the bytes of a transaction (R606). -/
def pecOf (l : List Byte) : Byte := l.foldl pecStep 0

/-- Data bytes of the transaction; LEN beyond 4 moves the four bytes there are (log 78). -/
def pmbLen (p : Pmbus) : Nat := min p.len.toNat 4

/-- The bytes the bridge sends before a repeated start: address and command, and in a write LEN bytes of PA_PMB_DATA, low byte first (R606). -/
def pmbHead (p : Pmbus) : List Byte :=
  (p.addr ++ 0#1) :: p.cmd :: (if p.read then [] else bytesLE (pmbLen p) p.data.toNat)

/-- The address byte that follows the repeated start of a read (R606). -/
def pmbAgain (p : Pmbus) : Byte := p.addr ++ 1#1

/-- The transaction that GO starts (R606): a write with its packet error code if PEC is set; a read sends ADDR and CMD, repeats the start and reads
LEN bytes, and with PEC the code. -/
def pmbStart (s : State) : State :=
  let p := s.pmb
  let o : Out :=
    if p.read then .pmbus p.fast (pmbHead p) (some (pmbAgain p, pmbLen p + bitN p.pec))
    else .pmbus p.fast (pmbHead p ++ (if p.pec then [pecOf (pmbHead p)] else [])) none
  emit o (onPmb (fun p => { p with busy := true }) s)

/-- What a read received fits its packet error code, where one is checked (R606). -/
def pecGood (p : Pmbus) (data : List Byte) : Bool :=
  !(p.read && p.pec) || data.getD (pmbLen p) 0 == pecOf (pmbHead p ++ [pmbAgain p] ++ data.take (pmbLen p))

/-- PMBUS_WRITE (R606): a write of PA_PMB_CTRL with GO = 1 and READ = 0. -/
def execPmbusWrite (addr : BitVec 7) (cmd : BitVec 8) (len : BitVec 3) (pec fast : Bool) (s : State) : Res :=
  .next (if pmbFree s then pmbStart (pmbSettings addr cmd false len pec fast s) else s)

/-- PMBUS_READ (R606): a write of PA_PMB_CTRL with GO = 1 and READ = 1. -/
def execPmbusRead (addr : BitVec 7) (cmd : BitVec 8) (len : BitVec 3) (pec fast : Bool) (s : State) : Res :=
  .next (if pmbFree s then pmbStart (pmbSettings addr cmd true len pec fast s) else s)

/-- The first bytes of a word replaced by bytes read, low byte first. -/
def putBytes (v : BitVec 32) (l : List Byte) : BitVec 32 :=
  BitVec.ofNat 32 (ofBytesLE ((List.range 4).map (fun (k : Nat) => l.getD k (v.extractLsb' (8 * k) 8))))

/-- PMBUS_DONE (R606): the transaction ends; `data` is what a read that was acknowledged received, with PEC the code after it. -/
def execPmbusDone (nack : Bool) (data : List Byte) (s : State) : Res :=
  .next (if s.pmb.busy then onPmb (fun p => { p with
    busy := false, done := true, nack := p.nack || nack, pecErr := p.pecErr || (!nack && !pecGood p data)
    data := if p.read && !nack then putBytes p.data (data.take (pmbLen p)) else p.data }) s else s)

/-- PMBUS_TIMEOUT (R606): a transaction held longer than 25 ms by clock stretching ends. -/
def execPmbusTimeout (s : State) : Res :=
  .next (if s.pmb.busy then onPmb (fun p => { p with busy := false, done := true, timeout := true }) s else s)

/-- BOR_CLEAR_WRITE (R545, R562): CLEAR = 1 clears the latch. -/
def execBorClearWrite (s : State) : Res :=
  .next (if s.glob.ready then onPa (fun p => { p with borCause := 0, borLater := 0 }) s else s)

end Sys2Proof.Machine
end

