-- ==== Sys2Proof/Machine/CodeImage.lean ====
section
/-! DEFINITION. Code images (R349–R352): their bytes read, and the conditions that an image meets by itself. -/

namespace Sys2Proof.Machine

/-! ## The bytes of an image (R349–R351; log 139) -/

/-- Every element, where none is missing. -/
def allSome {α : Type} : List (Option α) → Option (List α)
  | [] => some []
  | x :: l => match x, allSome l with
    | some a, some r => some (a :: r)
    | _, _ => none

/-- n things of `size` bytes from an offset lie in the image. -/
def within (raw : List Byte) (off n size : Nat) : Bool := decide (off + n * size ≤ raw.length)

/-- An import or export table of n entries: point indices, bits 31:23 being 0. -/
def decodePoints (raw : List Byte) (off n : Nat) : Option (List Nat) :=
  let l := (List.range n).map (fun i => fieldLE raw (off + 4 * i) 4)
  if within raw off n 4 && l.all (· < 8388608) then some l else none

/-- The task entry at an offset (R351). -/
def decodeTask (raw : List Byte) (at_ : Nat) : Option TaskEntry :=
  let f (o n : Nat) : Nat := fieldLE raw (at_ + o) n
  if f 0x01 1 ≠ 0 ∨ f 0x0D 1 ≠ 0 ∨ f 0x28 24 ≠ 0 then none else
  match decodePoints raw (f 0x18 8) (f 0x08 2), decodePoints raw (f 0x20 8) (f 0x0A 2) with
  | some imp, some exp =>
    some { task := f 0x00 1, entry := f 0x02 2, v62 := BitVec.ofNat 32 (f 0x04 4), imports := imp, exports := exp,
           rxCount := f 0x0C 1, rxSize := f 0x0E 2, rxAddr := f 0x10 4, wcet := f 0x14 4 }
  | _, _ => none

/-- The engine entry at an offset, with the code, data and task entries that its offsets lead to (R350). -/
def decodeEngine (raw : List Byte) (at_ : Nat) : Option EngineEntry :=
  let f (o n : Nat) : Nat := fieldLE raw (at_ + o) n
  let codeOff := f 0x10 8
  let dataOff := f 0x18 8
  let taskOff := f 0x20 8
  if h : f 0x00 1 < 48 then
    if f 0x06 2 ≠ 0 ∨ f 0x28 24 ≠ 0 ∨ !within raw codeOff (f 0x04 2) 8 ∨ !within raw dataOff (f 0x0C 4) 1 ∨ !within raw taskOff (f 0x01 1) 64 then none
    else (allSome ((List.range (f 0x01 1)).map (fun i => decodeTask raw (taskOff + 64 * i)))).map fun tasks =>
      { engine := ⟨f 0x00 1, h⟩, codeBase := f 0x02 2
        code := (List.range (f 0x04 2)).map (fun i => BitVec.ofNat 64 (fieldLE raw (codeOff + 8 * i) 8))
        dataBase := f 0x08 4, data := (raw.drop dataOff).take (f 0x0C 4), tasks := tasks }
  else none

/-- A code image read from its bytes; none where the header, an offset or a field that must be 0 is malformed (R349, R352). -/
def decodeImage (raw : List Byte) : Option CodeImage :=
  let f (o n : Nat) : Nat := fieldLE raw o n
  if f 0x00 4 ≠ 0x52484154 ∨ f 0x04 2 ≠ 1 ∨ f 0x09 55 ≠ 0 ∨ !within raw 64 (f 0x06 2) 64 then none
  else (allSome ((List.range (f 0x06 2)).map (fun i => decodeEngine raw (64 + 64 * i)))).map fun l => { owner := f 0x08 1, engines := l }

/-! ## The conditions on an image by itself (R352) -/

/-- The code images of a configuration by owner. -/
def viewCode (view : List Item) : Tab Nat CodeImage :=
  view.filterMap (fun i => match i with
    | .code o c => some (o, c)
    | _ => none)

/-- The receive area of a task lies in its region and keeps R351's sizes. -/
def rxOk (x : EngineEntry) (t : TaskEntry) : Bool :=
  if t.rxCount = 0 then t.rxSize == 0
  else decide (t.rxCount ≤ 64 ∧ 64 ≤ t.rxSize ∧ t.rxSize ≤ 10272 ∧ t.rxSize % 32 = 0 ∧ t.rxAddr % 32 = 0 ∧
    x.dataBase ≤ t.rxAddr ∧ t.rxAddr + t.rxCount * t.rxSize ≤ x.dataBase + x.data.length)

/-- One task entry of an image (R351, R352); without a data region every V62_INIT lies outside it (log 101). -/
def taskEntryOk (x : EngineEntry) (t : TaskEntry) : Bool :=
  decide (t.task ≤ 255 ∧ x.codeBase ≤ t.entry ∧ t.entry < x.codeBase + x.code.length ∧ t.imports.length ≤ 8192 ∧ t.exports.length ≤ 8192) &&
  decide (x.dataBase ≤ t.v62.toNat ∧ t.v62.toNat < x.dataBase + x.data.length) && rxOk x t

/-- One engine entry of an image (R313, R350, R352). -/
def engineEntryOk (x : EngineEntry) : Bool :=
  decide (x.codeBase % 128 = 0 ∧ 4 ≤ x.code.length ∧ x.code.length ≤ 8192 ∧ x.code.length % 4 = 0 ∧ x.dataBase % 1024 = 0 ∧
    x.data.length % 32 = 0 ∧ x.data.length ≤ 131072 ∧ x.tasks.length ≤ 32) && x.tasks.all (taskEntryOk x)

/-- No number twice in a list. -/
def nodupNat (l : List Nat) : Bool := decide l.Nodup

/-- A code image by itself (R349–R352, R362). -/
def imageOk (c : CodeImage) : Bool :=
  decide (c.owner ≤ 64 ∧ 1 ≤ c.engines.length ∧ c.engines.length ≤ 48) && nodupNat (c.engines.map (·.engine.val)) &&
  c.engines.all engineEntryOk && nodupNat (c.engines.flatMap (fun x => x.tasks.map (·.task)))

/-- An image that staging takes as far as the image itself goes (R352). -/
def goodImage (raw : List Byte) : Option CodeImage :=
  match decodeImage raw with
  | some c => if imageOk c then some c else none
  | none => none

end Sys2Proof.Machine
end

