-- ==== Sys2Proof/Machine/GuardOps.lean ====
section
/-! DEFINITION. What every finding of the guard code does, whoever makes it (R572–R574). -/

namespace Sys2Proof.Machine

/-- A guard-word region's counters changed (R572). -/
def modRegion (r : Nat) (f : GuardRegion → GuardRegion) (s : State) : State :=
  onGrd (fun g => { g with region := vmod g.region r f }) s

/-- The error record of an uncorrectable word; at a full FIFO the newest record is dropped (R573). -/
def errorRecord (e : ErrRec) (s : State) : State :=
  onGrd (fun g => if g.recs.length < 16 then { g with recs := g.recs ++ [e] } else { g with recOvf := true }) s

/-- The memory-guard event, at most once per second (R574). -/
def memoryGuardEvent (s : State) : State :=
  let (ok, s) := limited 0x07 0 (secTu 1) 1 s
  if ok then raise 0x07 0 s else s

/-- An uncorrectable error in region r, read by subsystem `source` (0x10 a scrubber) under a tag (R572–R574). -/
def guardUncorrectable (r source : Nat) (reqTag : Tag) (h : GuardHit) (s : State) : State :=
  let s := modRegion r (fun x => { x with uncorr := x.uncorr + 1 }) s
  let s := errorRecord { lt := s.now, addr := h.addr, region := BitVec.ofNat 8 r, source := BitVec.ofNat 8 source, reqTag := reqTag,
                         s0 := h.s0, s1 := h.s1, s2 := h.s2 } s
  memoryGuardEvent (onGrd (fun g => { g with uncorr := true }) s)

/-- A corrected error in region r: counted, and past 64 within a second the corrected-rate flag and the memory-guard event
(R572, R574). -/
def guardCorrected (r : Nat) (s : State) : State :=
  let recent := (s.within (secTu 1) (vget s.grd.region r {}).corrAt).take 65
  let s := modRegion r (fun x => { x with corrected := x.corrected + 1, corrAt := s.abs :: recent }) s
  if 64 ≤ recent.length then
    let s := onGrd (fun g => { g with corrRate := true }) s
    let (ok, s) := limited 0x20007 r (secTu 1) 1 s
    if ok then raise 0x07 0 s else s
  else s

/-- What a reader in region r finds: a corrected error is counted and the word goes on (R569, R572); an uncorrectable one is left to the reader. -/
def guardRead (r : Nat) (g : Option GuardFind) (s : State) : Option GuardHit × State :=
  match g with
  | none => (none, s)
  | some .corrected => (none, guardCorrected r s)
  | some (.uncorrectable h) => (some h, s)

/-- What a reader of several words finds: the corrected errors are counted, the uncorrectable ones are left to it. -/
def guardReads (r : Nat) (l : List (Nat × GuardFind)) (s : State) : List (Nat × GuardHit) × State :=
  l.foldl (fun (a : List (Nat × GuardHit) × State) e => match guardRead r (some e.2) a.2 with
    | (some h, s) => (a.1 ++ [(e.1, h)], s)
    | (none, s) => (a.1, s)) ([], s)

/-- An access refused because its tag does not match (R9, R572). -/
def tagRefused (r : Nat) (s : State) : State := modRegion r (fun x => { x with tagRefused := x.tagRefused + 1 }) s

end Sys2Proof.Machine
end

