-- ==== Sys2Proof/Machine/GuardCode.lean ====
section
/-! DEFINITION. The guard code: the field GF(2^8), the check symbols of a guard word, and what a reader finds in one (R564–R567). -/

namespace Sys2Proof.Machine

/-- A symbol times α in GF(2^8) over x^8 + x^4 + x^3 + x^2 + 1 (R564). -/
def gfDouble (x : Byte) : Byte := (x <<< 1) ^^^ (if x.getLsbD 7 then 0x1D else 0)

/-- The product of two symbols (R564). -/
def gfMul (x y : Byte) : Byte := (List.range 8).foldr (fun i a => gfDouble a ^^^ (if y.getLsbD i then x else 0)) 0

/-- α^p, with α = 0x02 (R564). -/
def gfAlpha : Nat → Byte
  | 0 => 1
  | p + 1 => gfDouble (gfAlpha p)

/-- One step of the division by g(x) = x^3 + 0x07 x^2 + 0x0E x + 0x08: the remainder so far, its coefficient of x^2 first, takes the next
coefficient of m(x) (R565). -/
def guardDivide (r : Byte × Byte × Byte) (x : Byte) : Byte × Byte × Byte :=
  let q := r.1 ^^^ x
  (r.2.1 ^^^ gfMul q 0x07, r.2.2 ^^^ gfMul q 0x0E, gfMul q 0x08)

/-- The guard word of 32 data bytes and a tag: s0–s31 the data, s32 the tag, s33–s35 the remainder of m(x) x^3 by g(x) (R564, R565). -/
def guardEncode (data : Vector Byte 32) (tag : Byte) : Vector Byte 36 :=
  let r := (data.toList ++ [tag]).foldl guardDivide (0, 0, 0)
  (data ++ #v[tag]) ++ #v[r.1, r.2.1, r.2.2]

/-- Syndrome S_j: the received word as a polynomial, s0 its coefficient of x^35, at α^j (R566). -/
def guardSyndrome (j : Nat) (w : Vector Byte 36) : Byte := w.toList.foldl (fun a x => gfMul a (gfAlpha j) ^^^ x) 0

/-- The outcome of reading a guard word (R566): no error, an erroneous symbol and its error, or uncorrectable. The hit holds the
syndromes; the reader adds the address. -/
def guardJudge (w : Vector Byte 36) : WordFinding :=
  let s0 := guardSyndrome 0 w
  let s1 := guardSyndrome 1 w
  let s2 := guardSyndrome 2 w
  if s0 = 0 ∧ s1 = 0 ∧ s2 = 0 then .none
  else if s0 ≠ 0 ∧ s1 ≠ 0 ∧ s2 ≠ 0 ∧ gfMul s1 s1 = gfMul s0 s2 then
    match (List.range 36).find? (fun p => gfMul s0 (gfAlpha p) == s1) with
    | some p => .corrected (35 - p) s0
    | none => .uncorrectable { s0, s1, s2 }
  else .uncorrectable { s0, s1, s2 }

/-- The word that is delivered: the word as received, or with its erroneous symbol corrected; an uncorrectable one is not delivered
(R566). -/
def guardDeliver (w : Vector Byte 36) : Option (Vector Byte 36) :=
  match guardJudge w with
  | .none => some w
  | .corrected i e => some (w.setIfInBounds i (w.getD i 0 ^^^ e))
  | .uncorrectable _ => none

/-- The owner tag of a delivered word, s32 after correction (R564, R567). -/
def guardTag (w : Vector Byte 36) : Option Byte := (guardDeliver w).map (fun x => x[32])

end Sys2Proof.Machine
end

