-- ==== Sys2Proof/Machine/Brixig.lean ====
section
/-! DEFINITION. Brixig messages as guard words: header and payload laid out and read (R12, R417–R420; log 142). -/

namespace Sys2Proof.Machine

/-- A guard word of a message: 32 data bytes under a tag (R417, R418). -/
def brxWord (tag : Tag) (b : List Byte) : Vector Byte 36 := guardEncode (Vector.ofFn (fun i : Fin 32 => b.getD i.val 0)) (BitVec.ofNat 8 tag)

/-- A payload cut into words of 32 bytes, the last filled with zeros. -/
def brxSplit (b : List Byte) : List (List Byte) := (List.range (ceilDiv b.length 32)).map (fun i => (b.drop (32 * i)).take 32)

/-- The 32 bytes of a header, in network order (R418). -/
def brxHead (type len : Nat) (m : BrxMsg) (args : List Byte) : List Byte :=
  [BitVec.ofNat 8 type,
   BitVec.ofNat 8 (bitN m.active + 2 * bitN m.eligible + 4 * bitN m.start + 8 * bitN m.gateOpen + 16 * bitN m.epochRst)] ++
  bytesBE 2 len ++ bytesBE 4 m.seq.toNat ++ bytesBE 8 m.txLt.toNat ++ bytesBE 4 m.claim.toNat ++ args ++ List.replicate (12 - args.length) 0

/-- A message of a type: its header tagged 0x00, and its payload under a tag (R418, R419). -/
def brxMessage (type : Nat) (m : BrxMsg) (args : List Byte) (tag : Tag) (payload : List Byte) : BrxWords :=
  let l := brxSplit payload
  brxWord 0 (brxHead type l.length m args) :: l.map (brxWord tag)

/-- HEARTBEAT: its payload is little-endian (R420). -/
def brxHeartbeat (m : BrxMsg) : BrxWords :=
  brxMessage 0x01 m [] 0 (bytesLE 8 m.echoTx.toNat ++ bytesLE 8 m.echoRx.toNat ++ bytesLE 8 m.configTag.toNat ++ [m.diag.zeroExtend 8] ++
    List.replicate 7 0)

/-- RELINQUISH. -/
def brxRelinquish (reason : Nat) (m : BrxMsg) : BrxWords := brxMessage 0x02 m (bytesBE 4 reason) 0 []

/-- GOOSE_ST. -/
def brxGooseSt (l : List (Nat × BitVec 32)) (m : BrxMsg) : BrxWords :=
  brxMessage 0x03 m (bytesBE 4 l.length) 0 (l.flatMap (fun e => bytesBE 2 e.1 ++ [0, 0] ++ bytesBE 4 e.2.toNat))

/-- REPL: a range from a byte of an engine on, its words under their owner's tag. -/
def brxRepl (t : LT) (engine ofs : Nat) (tag : Tag) (data : List Byte) (m : BrxMsg) : BrxWords :=
  brxMessage 0x04 m (bytesBE 8 t.toNat ++ bytesBE 4 (ofs % 131072 + engine * 131072)) tag data

/-- TASKS. -/
def brxTasks (t : LT) (l : List (Nat × BitVec 64)) (m : BrxMsg) : BrxWords :=
  brxMessage 0x05 m (bytesBE 8 t.toNat) 0 (l.flatMap (fun e => bytesBE 2 e.1 ++ List.replicate 6 0 ++ bytesBE 8 e.2.toNat))

/-- REPL_END. -/
def brxReplEnd (t : LT) (words : Nat) (m : BrxMsg) : BrxWords := brxMessage 0x06 m (bytesBE 8 t.toNat ++ bytesBE 4 words) 0 []

/-! ## Reading -/

/-- The 32 data bytes of a delivered word. -/
def brxData (w : Vector Byte 36) : List Byte := w.toList.take 32

/-- A field in network order. -/
def fieldBE (l : List Byte) (off n : Nat) : Nat := ofBytesBE ((l.drop off).take n)

/-- The header fields of a message (R418). -/
def brxReadHead (h : List Byte) : BrxMsg :=
  let flags : Byte := h.getD 1 0
  { active := flags.getLsbD 0, eligible := flags.getLsbD 1, start := flags.getLsbD 2, gateOpen := flags.getLsbD 3, epochRst := flags.getLsbD 4
    seq := BitVec.ofNat 32 (fieldBE h 0x04 4), txLt := BitVec.ofNat 64 (fieldBE h 0x08 8), claim := BitVec.ofNat 32 (fieldBE h 0x10 4) }

/-- The header with a HEARTBEAT's payload (R420). -/
def brxReadBeat (h p : List Byte) : BrxMsg :=
  { brxReadHead h with
    echoTx := BitVec.ofNat 64 (fieldLE p 0 8), echoRx := BitVec.ofNat 64 (fieldLE p 8 8), configTag := BitVec.ofNat 64 (fieldLE p 16 8)
    diag := BitVec.ofNat 4 (fieldLE p 24 1) }

/-- ARG0:ARG1, the capture boundary in the sender's LT (R419). -/
def brxBoundary (h : List Byte) : LT := BitVec.ofNat 64 (fieldBE h 0x14 8)

/-- Argument n. -/
def brxArg (h : List Byte) (n : Nat) : Nat := fieldBE h (0x14 + 4 * n) 4

end Sys2Proof.Machine
end

