-- ==== Sys2Proof/Machine/ReadyOps.lean ====
section
/-! DEFINITION. Protection ready and full platform ready (R557, R558), judged wherever one of their conditions may come true. -/

namespace Sys2Proof.Machine

/-- Whether domain n is on (R561). -/
def pdOn (s : State) (n : Nat) : Bool := (vget s.pa.pd n {}).state == .on

/-- Start-up phase p has ended or is skipped; a phase that ended shows its time in µs after power-good, saturating at the register's width
(DESIGN CHOICE, log 155), and PHASE names the earliest phase still in progress (R554, R560, R562; log 51). -/
def markPhase (p : Nat) (stamp : Bool) (s : State) : State :=
  if s.pa.ended.getLsbD p then s else
  let e := s.pa.ended ||| (1#12 <<< p)
  let us := ((s.abs : Int) - s.pa.goodLt).toNat / usTu 1
  onPa (fun x => { x with
    ended := e, lastEnd := s.now, phaseEnd := if stamp then vmod x.phaseEnd p (fun _ => BitVec.ofNat 32 (min us 0xFFFFFFFF)) else x.phaseEnd
    phase := BitVec.ofNat 4 ((((List.range 11).map (· + 1)).find? (fun n => !e.getLsbD n)).getD 12) }) s

/-- Phase 10 ends once every alignment group that holds a mandatory stream is READY (R212, R554). -/
def phaseTen (s : State) : State := if s.pa.ended.getLsbD 7 && !mandatoryUnready s then markPhase 10 true s else s

/-- The conditions of protection ready (R557). -/
def protNow (s : State) : Bool := s.pa.phase == 0xC && s.fo.state != .start && !mandatoryUnready s

/-- The conditions of full platform ready (R558): every phase ended, every subsystem in a domain that is on READY, no FAST_EDGE input
on the nominal table. -/
def fullNow (s : State) : Bool :=
  s.pa.phase == 0xC && s.glob.ready && s.qm.ready && s.im.ready && s.ps.ready &&
  (!pdOn s 2 || (s.px.ready && s.sw.ready)) && (!(pdOn s 3 || pdOn s 4) || fbReady s) && (!pdOn s 5 || (s.se.ready && s.fr.ready && s.pe.ready)) &&
  (!pdOn s 6 || s.ar.ready) && (!pdOn s 7 || s.kv.ready) && !(List.range 24).any (fun e => (vget s.ar.edge e {}).uncal)

/-- PROT_READY and FULL_READY set with their event where their conditions hold for the first time (R557, R558). -/
def readiness (s : State) : State :=
  let s := if protNow s && !s.pa.protReady then raise 0x7C 0 (onPa (fun p => { p with protReady := true }) s) else s
  if fullNow s && !s.pa.fullReady then raise 0x7C 0 (onPa (fun p => { p with fullReady := true }) s) else s

end Sys2Proof.Machine
end

