-- ==== Sys2Proof/Machine/FailoverOps.lean ====
section
/-! DEFINITION. Shared operations of the Fail-over Unit (chapter 14): claims, gates, self-diagnosis, messages to the partner. -/

namespace Sys2Proof.Machine

/-- FO_CLAIM: this unit's claim while ACTIVE, else (E_mem × 2^8) + PRIO (R418, R440). -/
def claimReg (s : State) : BitVec 32 :=
  if s.fo.state = .active then s.fo.claim else s.fo.eMem.zeroExtend 32 <<< 8 ||| s.fo.cfg.prio.zeroExtend 32

/-- FO_DIAG (R440). -/
def foDiag (s : State) : BitVec 32 :=
  pack [((diagBits s).toNat, 0), (s.fo.lastReason.toNat, 8), (bitN s.fo.held, 12)]

/-- The header of the next message (R418). -/
def brxHeader (s : State) : BrxMsg :=
  { active := s.fo.state == .active, eligible := eligible s, start := s.fo.state == .start, gateOpen := s.fo.gateOpen,
    epochRst := s.fo.epochRst, seq := s.fo.txSeq, claim := claimReg s }

/-- A message sent to the partner; SEQ counts every message (R418). -/
def sendBrx (mk : BrxMsg → BrxWords) (s : State) : State :=
  emit (.brixig (mk (brxHeader s))) (onFo (fun f => { f with txSeq := f.txSeq + 1 }) s)

/-- The condition under which the output gates are open (R413). -/
def gateCond (s : State) : Bool :=
  s.fo.state == .active && (s.fo.partner != .present || !s.fo.hb.active || decide (s.fo.hb.claim.toNat < s.fo.claim.toNat))

/-- The gates follow their condition (R413). -/
def setGates (s : State) : State := onFo (fun f => { f with gateOpen := gateCond s }) s

/-- Phase 8 of start-up ends with the first outcome of R423, and phase 9 begins; it is skipped by a unit that is not ACTIVE, and has nothing to wait for where
no segment is enabled (R554). -/
def phaseEight (s : State) : State :=
  if !s.pa.ended.getLsbD 7 || s.pa.ended.getLsbD 8 || s.fo.state == .start then s else
  let s := markPhase 8 true s
  if s.fo.state ≠ .active then markPhase 9 false s
  else if s.fo.seg.any (fun g => g.cfg.en) then
    onFo (fun f => { f with seg := f.seg.map (fun g => if g.cfg.en then { g with startedAt := some s.now } else g) }) s
  else markPhase 9 true s

/-- A change of state: the role-change event, its log record, and the gates; entering STANDBY, no replication has been applied
yet (R408, R409). -/
def setRole (r : FoRole) (s : State) : State :=
  if s.fo.state = r then setGates s else
  let s := onFo (fun f => { f with state := r, repl := if r = .standby then { f.repl with applied := false } else f.repl }) s
  readiness (phaseEight (setGates (raise 0x70 0 s)))

/-- E_mem raised to an epoch, and EPOCH_LOW where it reaches 0xFF_FF00 (R411, R414). -/
def raiseEMem (e : BitVec 24) (s : State) : State :=
  if e.toNat ≤ s.fo.eMem.toNat then s else
  let low := decide (s.fo.eMem.toNat < 0xFFFF00 ∧ 0xFFFF00 ≤ e.toNat)
  let s := onFo (fun f => { f with eMem := e, epochLow := f.epochLow || low }) s
  if low then raise 0x72 0 s else s

/-- A claim seen in a partner message or a station report; not taken while EPOCH_RST is set (R411, R415). -/
def seeClaim (c : BitVec 32) (s : State) : State :=
  if s.fo.epochRst then s else raiseEMem (c.extractLsb' 8 24) s

/-- FO forms a claim (R412, R434): E_mem + 1 is written, the claim is C, the gates open; after a takeover the handover time
starts and the cabinet takes its role from the first cycle at least 20 µs later. At E_mem = 0xFF_FFFF none can be formed (R414). -/
def formClaim (takeover : Bool) (s : State) : State :=
  if s.fo.eMem = 0xFFFFFF then s else
  let s := raiseEMem (s.fo.eMem + 1) s
  let t := s.now
  let first := s.fo.state != .active
  let s := onFo (fun f => { f with
    claim := f.eMem.zeroExtend 32 <<< 8 ||| f.cfg.prio.zeroExtend 32, claimChg := true, ctr := vadd f.ctr 6 1, claimAt := t,
    witnessHeld := false, epochClaimDue := false,
    handoverAt := if takeover then some (ltAdd t (usTu f.cfg.handoverUs)) else f.handoverAt,
    seg := if first then f.seg.map (fun g => { g with roleFrom := if takeover then ltAdd t (usTu 20) else t, recover := takeover && g.cfg.en })
      else f.seg }) s
  setRole .active s

/-- FO gives up control: it shuts its gates, sends RELINQUISH with the reason, and enters a state, in this order (R432, R438). -/
def relinquish (reason : Nat) (r : FoRole) (s : State) : State :=
  let s := onFo (fun f => { f with
    gateOpen := false, held := false, lastReason := BitVec.ofNat 4 reason, claimChg := true,
    handoverAt := none, seg := f.seg.map (fun g => { g with roleFrom := s.now, recover := false }) }) s
  setRole r (sendBrx (brxRelinquish reason) s)

/-- FO loses control to a higher claim of an active partner (R408, reason 0x7). -/
def yieldClaim (s : State) : State :=
  setRole .standby (onFo (fun f => { f with
    lastReason := 7, held := false, claimChg := true, handoverAt := none,
    seg := f.seg.map (fun g => { g with roleFrom := s.now, recover := false }) }) s)

/-- The lowest trigger present, as a reason of FO_DIAG.LAST_REASON (R440). -/
def lowestTrig (d : BitVec 4) : Nat := if d.getLsbD 0 then 1 else if d.getLsbD 1 then 2 else if d.getLsbD 2 then 3 else 4

/-- R431: an ACTIVE unit with a trigger present relinquishes, or holds; WATCHDOG whatever the partner's state. -/
def actOnTrigger (s : State) : State :=
  let d := diagBits s
  if s.fo.state ≠ .active then onFo (fun f => { f with held := false }) s
  else if d = 0 then onFo (fun f => { f with held := false }) s
  else if d.getLsbD 3 then relinquish 4 .relinquished s
  else if s.fo.partner = .present ∧ s.fo.hb.eligible ∧ s.fo.hb.diag = 0 then relinquish (lowestTrig d) .relinquished s
  else onFo (fun f => { f with held := true }) s

/-- A trigger has become present: DIAG_TRIG, the diagnosis event, and R431 (R430). -/
def triggerPresent (n : Nat) (s : State) : State :=
  actOnTrigger (raiseArg 0x73 0 (BitVec.ofNat 32 n) (onFo (fun f => { f with diagTrig := true }) s))

/-- A latched trigger set, unless disabled or already present (R430): bit 1 OVERRUN, bit 2 TIME_SV, bit 3 WATCHDOG. -/
def setTrigger (b : Nat) (enabled : Bool) (s : State) : State :=
  if !enabled then s else
  let was := (diagBits s).getLsbD b
  let s := onFo (fun f => { f with diag := f.diag ||| (1#4 <<< b) }) s
  if !was && (diagBits s).getLsbD b then triggerPresent (b + 1) s else s

/-- An uncorrectable guard-code error in live data, as FO takes it (R430). -/
def foGuardError (s : State) : State :=
  let was := guardTrig s
  let s := onFo (fun f => { f with guardErrs := (s.abs :: s.within (secTu 1) f.guardErrs).take 256 }) s
  if !was && guardTrig s then triggerPresent 1 s else s

/-- A DIAG task reached FAULT_LIMIT through OVERRUN alone (R372, R430). -/
def foOverrun (s : State) : State := setTrigger 1 s.fo.cfg.overrunEn s

/-- A frame placed in a gated queue 0x08–0x0B by a GOOSE block or a phasor stream (R413). -/
def gatePush (q : Nat) (stream : Bool) (n : Nat) (s : State) : State :=
  onFo (fun f => { f with gateFifo := f.gateFifo.upd q [] (fun l => l ++ [(stream, n)]) }) s

/-- A frame taken from a gated queue: whether it passes to the fabric, and whose it is (R413). -/
def gatePop (q : Nat) (s : State) : Option (Bool × Nat) × State :=
  match s.fo.gateFifo.getD q [] with
  | [] => (none, s)
  | x :: l => (some x, onFo (fun f => { f with gateFifo := f.gateFifo.put q l }) s)

end Sys2Proof.Machine
end

