-- ==== Sys2Proof/Machine/PointOps.lean ====
section
/-! DEFINITION. Shared operations of the Point Store (chapter 13): normalisation, presentation, reading, writing, forces. -/

namespace Sys2Proof.Machine

/-- The code of a point type (R390). -/
def ptCode : PtType → Nat
  | .undefined => 0
  | .boolean => 1
  | .dbpos => 2
  | .int32 => 3
  | .int32u => 4
  | .int64 => 5
  | .float32 => 6
  | .float64 => 7
  | .complex => 8
  | .timestamp => 9

/-- A value normalised to its type (R391). -/
def normalise (t : PtType) (v : BitVec 64) : BitVec 64 :=
  match t with
  | .undefined => 0
  | .boolean => if v = 0 then 0 else 1
  | .dbpos => v &&& 3
  | .int32 => (v.truncate 32).signExtend 64
  | .int32u => (v.truncate 32).zeroExtend 64
  | .float32 => (v.truncate 32).zeroExtend 64
  | _ => v

/-- A quality as stored: bits 15:14 are 0 (R392). -/
def storeQuality (q : Quality) : Quality := q &&& 0x3FFF

/-- A quality as read: validity 0b10 reads as invalid (R392). -/
def readQuality (q : Quality) : Quality := if q &&& 3 = 2 then (q &&& ~~~3) ||| 1 else q

/-- The worse of a stored validity and questionable (R399). -/
def worseQuestionable (q : Quality) : Quality := if q &&& 3 = 0 then q ||| 3 else q

/-- Quality bits of R392. -/
def qInvalid : Quality := 1
/-- detailQual failure. -/
def qFailure : Quality := 0x40
/-- detailQual oldData. -/
def qOldData : Quality := 0x80

/-- The SOURCE code of a writer (R393). -/
def writerCode : PtWriter → Nat
  | .none => 0
  | .task _ _ _ => 1
  | .sv _ _ => 2
  | .goose _ _ => 3
  | .lane _ => 4
  | .chan _ => 5
  | .pset _ => 5
  | .edge _ => 6
  | .cab _ _ => 7
  | .host => 8

/-- FLAGS with STALE, SOURCE and INIT as they stand (R393). -/
def ptFlags (source : Nat) (stale init : Bool) : BitVec 16 := BitVec.ofNat 16 (2 * source + 32 * bitN stale + 64 * bitN init)

/-- The record of a defined point (R403). -/
def getPoint (s : State) (i : Nat) : Option PointRec :=
  match s.ps.recs.get? i with
  | some r => if r.type = .undefined then none else some r
  | none => none

/-- A point as every reader is presented with it (R392, R400, R405). -/
def presented (s : State) (i : Nat) : Option PointRec :=
  (getPoint s i).map fun r =>
    match s.ps.force.get? i with
    | some f => { r with value := f.value, quality := readQuality f.quality, lt := f.lt, flags := r.flags ||| 1 }
    | none => if r.bad then { r with value := 0, quality := qInvalid ||| qFailure } else { r with quality := readQuality r.quality }

/-- A change of a binary source, where the run has a channel of it (R287, R290). -/
def runNote (src : BitVec 32) (at_ : LT) (level pulse : Bool) (x : RecRun) : RecRun :=
  if x.cfg.bins.any (fun b => b.src == src) then
    { x with changes := x.changes ++ [({ src := src, at_ := at_, level := level, pulse := pulse } : BinChange)] } else x

/-- A change noted by one recorder, if it runs. -/
def recNote (src : BitVec 32) (at_ : LT) (level pulse : Bool) (r : Recorder) : Recorder :=
  if r.state = .armed ∨ r.state = .recording ∨ r.state = .full then
    { r with run := r.run.map (runNote src at_ level pulse), old := r.old.map (fun e => (e.1, runNote src at_ level pulse e.2)) } else r

/-- A change of a binary source goes to every running recorder with a channel of it (R287, R290). -/
def noteBinary (src : BitVec 32) (at_ : LT) (level pulse : Bool) (s : State) : State :=
  onAr (fun a => { a with recorder := a.recorder.map (recNote src at_ level pulse) }) s

/-- The level of a point as a binary source (R287). -/
def pointLevel (s : State) (i : Nat) : Bool :=
  match presented s i with
  | some r => if r.type = .dbpos then r.value == 2 else r.value != 0
  | none => false

/-- The source code of a point. -/
def pointSource (i : Nat) : BitVec 32 := BitVec.ofNat 32 (0x03000000 + i)

/-- A point that is a binary channel has its level noted, with the point's LT (R287). -/
def notePoint (i : Nat) (s : State) : State :=
  match presented s i with
  | some r => noteBinary (pointSource i) r.lt (pointLevel s i) false s
  | none => s

/-- R397: a point is read by its owner, by an instance to which it is published, and by the manager; an undefined one by nobody. -/
def pointReadable (s : State) (reader : Tag) (i : Nat) : Bool :=
  match getPoint s i with
  | none => false
  | some r =>
    reader == 0 || r.owner == reader ||
    s.ps.pubs.any (fun p => p.owner == r.owner && decide (p.first ≤ i ∧ i < p.first + p.count) && p.readers.getLsbD (reader - 1))

/-- A refused read or write is counted (R395, R397). -/
def pointDenied (s : State) : State := onPs (fun x => { x with denied := true, deniedCtr := x.deniedCtr + 1 }) s

/-- A refused read is also an access to a DRAM word whose tag does not match (R9, R397; log 141). -/
def readDenied (s : State) : State := tagRefused 0x0 (pointDenied s)

/-- The bytes of a point record (R389). -/
def pointBytes (r : PointRec) : List Byte :=
  bytesLE 8 r.value.toNat ++ bytesLE 8 r.lt.toNat ++ bytesLE 2 r.quality.toNat ++ bytesLE 2 r.flags.toNat ++
  [BitVec.ofNat 8 r.owner, BitVec.ofNat 8 (ptCode r.type)] ++ bytesLE 4 r.seq.toNat ++ List.replicate 6 0

/-- Whether a write comes from the point's one writer (R395). -/
def writerOk (s : State) (i : Nat) (w : PtWriter) : Bool :=
  match s.ps.defs.get? i with
  | some d => d.writer == w && w != .none && (getPoint s i).isSome
  | none => false

/-- A state change of member point i, made visible at an instant, is noted for every GOOSE block that carries it (R216). -/
def gooseNote (i : Nat) (t : LT) (s : State) : State :=
  (s.se.gpCfg.filter (fun e => e.2.en && e.2.members.contains i)).foldl
    (fun s e => onSe (fun x => { x with gp := x.gp.upd e.1 {} (fun g => { g with pendingAt := some t }) }) s) s

/-- A change made to a point by an output write, by the STOP policy or by a stale mark is a state change where the value or
quality that readers are presented with changes (R216, R374, R378, R399). -/
def gooseDetect (i : Nat) (t : LT) (before after : State) : State :=
  let v (s : State) := (presented s i).map (fun r => (r.value, r.quality))
  if v before = v after then after else gooseNote i t after

/-- A write made visible: value, quality, LT, SOURCE, and one more in SEQ; STALE and INIT clear (R391–R394). -/
def showWrite (w : PtWrite) (s : State) : State :=
  match getPoint s w.index with
  | none => s
  | some r =>
    let r' : PointRec := { r with
      value := normalise r.type w.value, lt := w.lt, quality := storeQuality w.quality,
      flags := ptFlags (writerCode w.writer) false false, seq := r.seq + 1, bad := false }
    let s' := onPs (fun x => { x with recs := x.recs.put w.index r', updates := x.updates + 1 }) s
    notePoint w.index (match w.writer with
    | .task _ _ _ => gooseDetect w.index s.now s s'
    | _ => s')

/-- One write by the point's one writer; any other is refused (R395). -/
def writePoint (w : PtWrite) (s : State) : State := if writerOk s w.index w.writer then showWrite w s else pointDenied s

/-- A batch made visible, every point on one clock cycle (R398). -/
def applyBatch (b : Batch) (s : State) : State := b.writes.foldl (fun s w => writePoint w s) s

/-- The inputs of a returned station have been written: t_fresh (R149). -/
def cabFresh (b : Batch) (s : State) : State :=
  b.writes.foldl (fun s w => match w.writer with
    | .cab g n => onFo (fun f => { f with seg := vmod f.seg g (fun x => { x with stn := vmod x.stn n (fun y =>
        if y.state = .resyncPending ∧ y.freshAt.isNone then { y with freshAt := some s.now } else y) }) }) s
    | _ => s) s

/-- A batch arrives at the store; its source holds it back while another of its batches waits there (R398). -/
def offerBatch (b : Batch) (s : State) : State :=
  onPs (fun x => if x.waiting.any (·.src == b.src) then { x with heldBack := x.heldBack ++ [b] }
    else { x with waiting := x.waiting ++ [{ b with arrived := s.now }] }) s

/-- The writes of a source as a batch; an empty one does not arrive (R398). -/
def sendBatch (src : BatchSrc) (l : List PtWrite) (s : State) : State :=
  if l.isEmpty then s else offerBatch { src := src, writes := l } s

/-- Batches held back whose sources have none waiting any longer arrive (R398). -/
def offerHeld (s : State) : State :=
  s.ps.heldBack.foldl (fun s b => offerBatch b s) (onPs (fun x => { x with heldBack := [] }) s)

/-- Every batch that has not become visible. -/
def allBatches (s : State) : List Batch := s.ps.held ++ s.ps.waiting ++ s.ps.heldBack

/-- Batches taken out of the store and from their sources. -/
def dropBatches (p : Batch → Bool) (s : State) : State :=
  offerHeld (onPs (fun x => { x with
    held := x.held.filter (fun b => !p b), waiting := x.waiting.filter (fun b => !p b), heldBack := x.heldBack.filter (fun b => !p b) }) s)

/-- An output write: its points become visible together, whatever configuration has come into force since the cycle started
(R368, R380). -/
def applyOutput (l : List PtWrite) (s : State) : State := l.foldl (fun s w => showWrite w s) s

/-- The initial state of a point (R403). -/
def initialPoint (d : PointDef) (owner : Tag) (lt : LT) : PointRec :=
  { value := normalise d.type d.init, lt := lt, quality := qInvalid ||| qOldData, flags := ptFlags 0 false true, owner := owner,
    type := d.type, seq := 0 }

/-- A removed force is entered in the dropped list, which holds 16,384 entries (R402). -/
def dropForce (i : Nat) (s : State) : State :=
  match s.ps.force.get? i with
  | none => s
  | some f =>
    onPs (fun x => { x with
      force := x.force.del i, forcesDropped := true,
      dropped := if x.dropped.length < 16384 then x.dropped ++ [(i, f)] else x.dropped }) s

/-- SEQ of a point raised (R394). -/
def bumpSeq (i : Nat) (s : State) : State :=
  match s.ps.recs.get? i with
  | some r => onPs (fun x => { x with recs := x.recs.put i { r with seq := r.seq + 1 } }) s
  | none => s

/-- An uncorrectable guard error that the store meets (R405, R430). -/
def storeGuard (o : Tag) (s : State) : State :=
  foGuardError (raise 0x51 o (onPs (fun x => { x with guardErr := true, guardErrors := x.guardErrors + 1 }) s))

/-- The record of a point cannot be read: it is presented so until its writer's next write (R405). -/
def pointBad (i : Nat) (s : State) : State :=
  match getPoint s i with
  | none => s
  | some r => storeGuard r.owner (onPs (fun x => { x with recs := x.recs.put i { r with bad := true } }) s)

/-- A force entry cannot be read: the force is removed and listed as dropped (R402, R405). -/
def forceBad (i : Nat) (s : State) : State :=
  match s.ps.force.get? i with
  | none => s
  | some _ => storeGuard (((getPoint s i).map (·.owner)).getD 0)
      (notePoint i (logRec 0x0008 0xFF 0 s.now 1 (BitVec.ofNat 32 i) (bumpSeq i (dropForce i s))))

/-- What a reader finds in point records and in force entries (R405, R573). -/
def pointGuards (o : Tag) (l forces : List (Nat × GuardFind)) (s : State) : State :=
  let (hits, s) := guardReads 0x0 l s
  let s := hits.foldl (fun s e => pointBad e.1 (guardUncorrectable 0x0 0xA o e.2 s)) s
  let (fhits, s) := guardReads 0x1 forces s
  fhits.foldl (fun s e => forceBad e.1 (guardUncorrectable 0x1 0xA o e.2 s)) s

end Sys2Proof.Machine
end

