-- ==== Sys2Proof/Machine/TahrOps.lean ====
section
/-! DEFINITION. Shared operations of the Tahr engines (chapter 11): the fetch of an instruction, its fields, the fields that must
be 0, the faults, and the end of a task cycle by fault. An instruction's command acts on the engine only where that engine has
reached an instruction of that opcode. -/

namespace Sys2Proof.Machine

/-- Engine e; one not listed is in its reset state (R308). -/
def getEng (s : State) (e : Nat) : Engine := s.fb.eng.getD e {}

/-- Engine e changed. -/
def modEng (e : Nat) (f : Engine → Engine) (s : State) : State := onFb (fun x => { x with eng := x.eng.upd e {} f }) s

/-- A task by owner and number. -/
def getTask (s : State) (o t : Nat) : Task := s.fb.tasks.getD (o, t) {}

/-- A task changed; one that a commit has removed has nothing left to change (R380). -/
def modTask (o t : Nat) (f : Task → Task) (s : State) : State :=
  onFb (fun x => { x with tasks := x.tasks.map (fun e => if e.1 = (o, t) then (e.1, f e.2) else e) }) s

/-- Cluster k changed. -/
def modCl (k : Nat) (f : Cluster → Cluster) (s : State) : State := onFb (fun x => { x with cl := vmod x.cl k f }) s

/-- The region of an owner on an engine (R313). -/
def regionOf (eng : Engine) (o : Tag) : Option Region := eng.regions.find? (fun r => r.owner == o)

/-- A code index lies in an owner's code region (R314, R328). -/
def inCode (r : Region) (pc : Nat) : Bool := decide (r.codeBase ≤ pc ∧ pc < r.codeBase + r.codeLen)

/-- A byte range lies in an owner's data region (R314, R327). -/
def inData (r : Region) (a n : Nat) : Bool := decide (r.dataBase ≤ a ∧ a + n ≤ r.dataBase + r.dataLen)

/-- T_snap in tu (R367). -/
def snapTime (nImp : Nat) : Nat := nsTu (2000 + 8 * nImp)

/-- T_out in tu (R368). -/
def outTime (nExp tPswUs : Nat) : Nat := nsTu (1000 + 4 * nExp + 1000 * tPswUs)

/-! ## Fields of an instruction word (R322) -/

/-- The opcode. -/
def wOp (w : BitVec 64) : Nat := (w.extractLsb' 56 8).toNat
/-- Register field D. -/
def wD (w : BitVec 64) : Nat := (w.extractLsb' 50 6).toNat
/-- Register field A. -/
def wA (w : BitVec 64) : Nat := (w.extractLsb' 44 6).toNat
/-- Register field B. -/
def wB (w : BitVec 64) : Nat := (w.extractLsb' 38 6).toNat
/-- Register field C. -/
def wC (w : BitVec 64) : Nat := (w.extractLsb' 32 6).toNat
/-- The immediate. -/
def wImm (w : BitVec 64) : BitVec 32 := w.extractLsb' 0 32
/-- sext(IMM). -/
def wSext (w : BitVec 64) : BitVec 64 := (wImm w).signExtend 64

/-- Opcode 0x00 and the reserved opcodes (R323). -/
def opReserved (op : Nat) : Bool :=
  op == 0 || (0x1D ≤ op && op ≤ 0x1F) || (0x35 ≤ op && op ≤ 0x3F) || (0x4D ≤ op && op ≤ 0x4F) || (0x57 ≤ op && op ≤ 0x5F) ||
  (0x65 ≤ op && op ≤ 0x6F) || (0x7B ≤ op && op ≤ 0x7F) || 0x8B ≤ op

/-- The bits of the fields that a format requires to be 0 (R322). -/
def zD : BitVec 64 := 0x3F#64 <<< 50
/-- Field A. -/
def zA : BitVec 64 := 0x3F#64 <<< 44
/-- Field B. -/
def zB : BitVec 64 := 0x3F#64 <<< 38
/-- Field C. -/
def zC : BitVec 64 := 0x3F#64 <<< 32
/-- The immediate. -/
def zI : BitVec 64 := 0xFFFFFFFF#64

/-- Register i; V0 reads 0 (R316). -/
def rdV (eng : Engine) (i : Nat) : BitVec 64 := if i = 0 then 0 else vget eng.v i 0

/-- Register i written; writes to V0 are discarded (R316). -/
def wrV (eng : Engine) (i : Nat) (x : BitVec 64) : Engine := if i = 0 then eng else { eng with v := eng.v.setIfInBounds i x }

/-! ## Faults (R346–R348, R370–R372) -/

/-- What an instruction does: it completes in a number of engine cycles, or raises a fault with its address. -/
inductive TahrRes where
  | fault (code addr : Nat)
  | done (cycles : Nat) (eng : Engine) (cyc : Cycle)

/-- Fault codes (R346). -/
def fIllegal : Nat := 1
/-- ACCESS. -/
def fAccess : Nat := 2
/-- ALIGN. -/
def fAlign : Nat := 3
/-- STACK. -/
def fStack : Nat := 4
/-- SLOT. -/
def fSlot : Nat := 5
/-- GUARD. -/
def fGuard : Nat := 6
/-- OVERRUN. -/
def fOverrun : Nat := 7
/-- USER. -/
def fUser : Nat := 8

/-- The instant at which the instruction after `elapsed` engine cycles of a task cycle starts (R319, R367). -/
def cycInstant (cyc : Cycle) (elapsed : Nat) : LT := ltAdd cyc.ts (snapTime cyc.imports.length + nsTu elapsed)

/-- DIAG of a task: as staged, else 1 for the platform's and 0 for an instance's (R362). -/
def taskDiag (t : Task) : Bool := t.cfg.diag.getD (t.owner == 0)

/-- The counters of a task cycle that has ended, by END or by fault (R355, R387). -/
def countCycle (e : Nat) (cyc : Cycle) (elapsed : Nat) (s : State) : State :=
  let d := BitVec.ofNat 32 elapsed
  modEng e (fun g => { g with taskCycles := g.taskCycles + 1, busyCycles := g.busyCycles + BitVec.ofNat 64 elapsed })
    (modTask cyc.owner cyc.task (fun t => { t with
      cycles := t.cycles + 1, lastDur := d, maxDur := if t.maxDur.toNat < d.toNat then d else t.maxDur }) s)

/-- A stepped cycle that ends without an output write was the last one: its owner returns to HOLD (R375; log 22). -/
def stepDone (o : Tag) (s : State) : State :=
  let r := s.fb.own.getD o {}
  if r.state ≠ .step then s else
  raise 0x4D o (onFb (fun x => { x with own := x.own.put o { r with state := .hold, reason := .command, chg := true, chgLt := s.now, stepLeft := 0 } }) s)

/-- What reaching FAULT_LIMIT does (R371, R372). -/
def faultLimit (o t : Nat) (s : State) : State :=
  let k := getTask s o t
  let s := raiseArg 0x4C o (BitVec.ofNat 32 t) (modTask o t (fun k => { k with limit := true, limitHit := true }) s)
  let s := if taskDiag k && k.overrunOnly then foOverrun s else s
  match k.cfg.action with
  | .continue_ => s
  | .stopTask => modTask o t (fun k => { k with state := .stopped, released := none }) s
  | .stopOwner =>
    onFb (fun x => { x with own := x.own.upd o {} (fun r => { r with
      pending := r.pending ++ [{ cmd := .limitStop, at_ := s.now, reply := none }] }) }) s

/-- A task cycle of an owner that an FB_READ_INST reads runs on its engine (R356). -/
def readBlocked (s : State) (w : ReadWait) : Bool := (getEng s w.engine).cycle.any (fun c => w.owners.contains c.owner)

/-- The FB_READ_INST commands that waited for the end of a cycle are answered where none of their owners runs on the engine any
longer (R356). -/
def serveReads (s : State) : State :=
  let due := s.fb.readWaits.filter (fun w => !readBlocked s w)
  due.foldl (fun s w => reply w.wait { status := .ok, buf := .bytes ((getEng s w.engine).mem.readN w.first w.len) } s)
    (onFb (fun x => { x with readWaits := x.readWaits.filter (readBlocked s) }) s)

/-- QSENDs of a cluster that were not sent (R344, R345). -/
def countUnsent (k n : Nat) (s : State) : State :=
  if n = 0 then s else
  onFb (fun x => { x with txRefused := true }) (modCl k (fun c => { c with txRefused := c.txRefused + BitVec.ofNat 64 n }) s)

/-- A fault ends the running cycle of engine e (R347): no exports, no QSENDs; the fault records, counters, flags and event; the
task's consecutive count (R371; log 140); a GUARD fault's own flag, event and report to FO (R348). What the cycle's QSENDs had refused stays
counted (R344). -/
def taskFault (e : Nat) (cyc : Cycle) (code addr pc : Nat) (instr : BitVec 64) (elapsed : Nat) (s : State) : State :=
  let rec_ : TaskFault :=
    { code := BitVec.ofNat 8 code, task := BitVec.ofNat 8 cyc.task, owner := cyc.owner, pc := BitVec.ofNat 13 pc, instr := instr,
      lt := cyc.cycLt, elapsed := BitVec.ofNat 32 elapsed, addr := BitVec.ofNat 32 addr }
  let s := countCycle e cyc elapsed s
  let s := modEng e (fun g => { g with
    cycle := none, freeAt := if code = fOverrun then s.now else cycInstant cyc elapsed, faults := g.faults + 1, fault := if g.faulted then g.fault else rec_, faulted := true }) s
  let s := countUnsent (e / 8) cyc.qref.toNat s
  let s := modTask cyc.owner cyc.task (fun t => { t with
    fault := some rec_, faults := t.faults + 1, overruns := if code = fOverrun then t.overruns + 1 else t.overruns,
    consec := satInc t.consec, overrunOnly := t.overrunOnly && code == fOverrun, qsent := 0, qrefused := cyc.qref }) s
  let s := raiseArg 0x48 cyc.owner (BitVec.ofNat 32 cyc.task) (onFb (fun x => { x with fault := true }) s)
  let s := if code = fGuard then foGuardError (raiseArg 0x49 cyc.owner (BitVec.ofNat 32 e) (onFb (fun x => { x with guardErr := true }) s)) else s
  let t := getTask s cyc.owner cyc.task
  let s := if t.cfg.faultLimit ≤ t.consec.toNat ∧ !t.limitHit then faultLimit cyc.owner cyc.task s else s
  serveReads (if cyc.lastStep then stepDone cyc.owner s else s)

/-! ## The execution of one instruction -/

/-- A corrected error in a word read: counted; it adds no cycle (R348). -/
def tahrCorrected (e : Nat) (r : TahrRegion) (s : State) : State :=
  guardCorrected (if r = .pointCache then 5 else 4)
    (modEng e (fun g => { g with guardCorr := true, guardCorrected := g.guardCorrected + 1 }) s)

/-- One instruction of opcode `op` on engine x.e. Where the engine executes no task cycle, or has reached an instruction of
another opcode, or could not complete this one before its window ends (R360), nothing happens. A fetch outside the owner's
region, an uncorrectable code word, a reserved opcode or a field that must be 0 and is not is a fault (R314, R323, R328, R346).
Otherwise the instruction runs: `sem` says what it does. -/
def tahr (op : Nat) (zero : BitVec 64) (x : TahrOp) (sem : State → TahrOp → Engine → Region → Cycle → BitVec 64 → TahrRes)
    (s : State) : Res :=
  let e := x.e.val
  let eng := getEng s e
  match eng.cycle with
  | none => .next s
  | some cyc =>
    if cyc.snap then .next s
    else if ltReached (cycInstant cyc cyc.elapsed) eng.winEnd then .next s
    else
      let fault (code addr : Nat) (w : BitVec 64) (s : State) : Res :=
        let s := match x.finding with
          | .uncorrectable r h => if code = fGuard then guardUncorrectable (if r = .pointCache then 5 else 4) 9 cyc.owner h s else s
          | .corrected r => tahrCorrected e r s
          | .clean => s
        .next (taskFault e cyc code addr cyc.pc w cyc.elapsed s)
      match regionOf eng cyc.owner with
      | none => fault fAccess 0 0 s
      | some r =>
        if !inCode r cyc.pc then fault fAccess 0 0 s
        else
          let w := eng.code.getD cyc.pc 0
          match x.finding with
          | .uncorrectable .code _ => fault fGuard 0 w s
          | _ =>
            if opReserved (wOp w) then fault fIllegal 0 w s
            else if wOp w ≠ op then .next s
            else if w &&& zero ≠ 0 then fault fIllegal 0 w s
            else
              match sem s x eng r cyc w with
              | .fault code addr => fault code addr w s
              | .done n eng' cyc' =>
                if !ltReached eng.winEnd (cycInstant cyc (cyc.elapsed + n)) then .next s
                else
                  let s := modEng e (fun _ => { eng' with cycle := some { cyc' with elapsed := cyc.elapsed + n } }) s
                  match x.finding with
                  | .corrected rg => .next (tahrCorrected e rg s)
                  | _ => .next s

/-- An instruction that writes D and sets FLAGS bits, then goes on to the next (R318, R319). -/
def tahrSet (op : Nat) (zero : BitVec 64) (n : Nat) (x : TahrOp)
    (f : Engine → Cycle → BitVec 64 → BitVec 64 × BitVec 64) (s : State) : Res :=
  tahr op zero x (fun _ _ eng _ cyc w =>
    let y := f eng cyc w
    .done n (wrV eng (wD w) y.1) { cyc with pc := cyc.pc + 1, flags := cyc.flags ||| y.2 }) s

/-- An instruction of two sources. -/
def tahrBin (op : Nat) (zero : BitVec 64) (n : Nat) (x : TahrOp) (f : BitVec 64 → BitVec 64 → BitVec 64 × BitVec 64) (s : State) : Res :=
  tahrSet op zero n x (fun eng _ w => f (rdV eng (wA w)) (rdV eng (wB w))) s

/-- An instruction of one source and the immediate (R324). -/
def tahrImm (op : Nat) (zero : BitVec 64) (x : TahrOp) (f : BitVec 64 → BitVec 64 → BitVec 64) (s : State) : Res :=
  tahrSet op zero 1 x (fun eng _ w => (f (rdV eng (wA w)) (wSext w), 0)) s

end Sys2Proof.Machine
end

