-- ==== Sys2Proof/Machine/TahrInteger.lean ====
section
/-! DEFINITION. The integer instructions of the Tahr engines (R324). -/

namespace Sys2Proof.Machine

/-- ADD. -/
def execTahrAdd (x : TahrOp) (s : State) : Res := tahrBin 0x01 (zC ||| zI) 1 x (fun a b => (a + b, 0)) s

/-- SUB. -/
def execTahrSub (x : TahrOp) (s : State) : Res := tahrBin 0x02 (zC ||| zI) 1 x (fun a b => (a - b, 0)) s

/-- ADDI. -/
def execTahrAddi (x : TahrOp) (s : State) : Res := tahrImm 0x03 (zB ||| zC) x (fun a i => a + i) s

/-- MUL. -/
def execTahrMul (x : TahrOp) (s : State) : Res := tahrBin 0x04 (zC ||| zI) 3 x (fun a b => (a * b, 0)) s

/-- The quotient, truncated toward zero, of DIV; −2^63 / −1 gives −2^63. -/
def tahrQuot (a b : BitVec 64) : BitVec 64 := BitVec.ofInt 64 (a.toInt.tdiv b.toInt)

/-- DIV: B = 0 gives 0 and sets FLAGS bit 0. -/
def execTahrDiv (x : TahrOp) (s : State) : Res :=
  tahrBin 0x05 (zC ||| zI) 20 x (fun a b => if b = 0 then (0, 1) else (tahrQuot a b, 0)) s

/-- REM: B = 0 gives A and sets FLAGS bit 0. -/
def execTahrRem (x : TahrOp) (s : State) : Res :=
  tahrBin 0x06 (zC ||| zI) 20 x (fun a b => if b = 0 then (a, 1) else (a - b * tahrQuot a b, 0)) s

/-- AND. -/
def execTahrAnd (x : TahrOp) (s : State) : Res := tahrBin 0x07 (zC ||| zI) 1 x (fun a b => (a &&& b, 0)) s

/-- OR. -/
def execTahrOr (x : TahrOp) (s : State) : Res := tahrBin 0x08 (zC ||| zI) 1 x (fun a b => (a ||| b, 0)) s

/-- XOR. -/
def execTahrXor (x : TahrOp) (s : State) : Res := tahrBin 0x09 (zC ||| zI) 1 x (fun a b => (a ^^^ b, 0)) s

/-- ANDI. -/
def execTahrAndi (x : TahrOp) (s : State) : Res := tahrImm 0x0A (zB ||| zC) x (fun a i => a &&& i) s

/-- ORI. -/
def execTahrOri (x : TahrOp) (s : State) : Res := tahrImm 0x0B (zB ||| zC) x (fun a i => a ||| i) s

/-- XORI. -/
def execTahrXori (x : TahrOp) (s : State) : Res := tahrImm 0x0C (zB ||| zC) x (fun a i => a ^^^ i) s

/-- The count of a shift: bits 5:0. -/
def shiftCount (b : BitVec 64) : Nat := (b.extractLsb' 0 6).toNat

/-- SHL. -/
def execTahrShl (x : TahrOp) (s : State) : Res := tahrBin 0x0D (zC ||| zI) 1 x (fun a b => (a <<< shiftCount b, 0)) s

/-- SHR. -/
def execTahrShr (x : TahrOp) (s : State) : Res := tahrBin 0x0E (zC ||| zI) 1 x (fun a b => (a >>> shiftCount b, 0)) s

/-- SAR. -/
def execTahrSar (x : TahrOp) (s : State) : Res := tahrBin 0x0F (zC ||| zI) 1 x (fun a b => (a.sshiftRight (shiftCount b), 0)) s

/-- SHLI; IMM[31:6] is 0. -/
def execTahrShli (x : TahrOp) (s : State) : Res :=
  tahrImm 0x10 (zB ||| zC ||| 0xFFFFFFC0) x (fun a i => a <<< shiftCount i) s

/-- SHRI; IMM[31:6] is 0. -/
def execTahrShri (x : TahrOp) (s : State) : Res :=
  tahrImm 0x11 (zB ||| zC ||| 0xFFFFFFC0) x (fun a i => a >>> shiftCount i) s

/-- SARI; IMM[31:6] is 0. -/
def execTahrSari (x : TahrOp) (s : State) : Res :=
  tahrImm 0x12 (zB ||| zC ||| 0xFFFFFFC0) x (fun a i => a.sshiftRight (shiftCount i)) s

/-- LDI; A is 0. -/
def execTahrLdi (x : TahrOp) (s : State) : Res := tahrImm 0x13 (zA ||| zB ||| zC) x (fun _ i => i) s

/-- LDIH: IMM × 2^32 + A[31:0]. -/
def execTahrLdih (x : TahrOp) (s : State) : Res :=
  tahrImm 0x14 (zB ||| zC) x (fun a i => i <<< 32 ||| a &&& 0xFFFFFFFF) s

/-- MIN. -/
def execTahrMin (x : TahrOp) (s : State) : Res := tahrBin 0x15 (zC ||| zI) 1 x (fun a b => (if a.slt b then a else b, 0)) s

/-- MAX. -/
def execTahrMax (x : TahrOp) (s : State) : Res := tahrBin 0x16 (zC ||| zI) 1 x (fun a b => (if a.slt b then b else a, 0)) s

/-- A BOOL result: 0 or 1 (R317). -/
def boolV (b : Bool) : BitVec 64 := if b then 1 else 0

/-- CMPEQ. -/
def execTahrCmpeq (x : TahrOp) (s : State) : Res := tahrBin 0x17 (zC ||| zI) 1 x (fun a b => (boolV (a == b), 0)) s

/-- CMPLT. -/
def execTahrCmplt (x : TahrOp) (s : State) : Res := tahrBin 0x18 (zC ||| zI) 1 x (fun a b => (boolV (a.slt b), 0)) s

/-- CMPLTU. -/
def execTahrCmpltu (x : TahrOp) (s : State) : Res := tahrBin 0x19 (zC ||| zI) 1 x (fun a b => (boolV (a.ult b), 0)) s

/-- CMPLE. -/
def execTahrCmple (x : TahrOp) (s : State) : Res := tahrBin 0x1A (zC ||| zI) 1 x (fun a b => (boolV (a.sle b), 0)) s

/-- SEL: A where C is not 0, else B. -/
def execTahrSel (x : TahrOp) (s : State) : Res :=
  tahrSet 0x1B zI 1 x (fun eng _ w => (if rdV eng (wC w) ≠ 0 then rdV eng (wA w) else rdV eng (wB w), 0)) s

/-- ABS; B is 0; −2^63 stays −2^63. -/
def execTahrAbs (x : TahrOp) (s : State) : Res := tahrBin 0x1C (zB ||| zC ||| zI) 1 x (fun a _ => (if a.slt 0 then -a else a, 0)) s

end Sys2Proof.Machine
end

