-- ==== Sys2Proof/Machine/TahrMemory.lean ====
section
/-! DEFINITION. The memory, control, point, timer, edge, counter and packet instructions of the Tahr engines (R327–R346). -/

namespace Sys2Proof.Machine

/-! ## Instance memory (R314, R327) -/

/-- Whether the words an instruction reads of a memory hold an uncorrectable error (R346). -/
def badWord (x : TahrOp) (r : TahrRegion) : Bool :=
  match x.finding with
  | .uncorrectable r' _ => r == r'
  | _ => false

/-- An access of n bytes at a byte address, aligned to `al`: the fault it raises, if any. ALIGN is judged before ACCESS. -/
def dataFault (x : TahrOp) (r : Region) (a n al : Nat) : Option (Nat × Nat) :=
  if a % al ≠ 0 then some (fAlign, a % 4294967296)
  else if !inData r a n then some (fAccess, a % 4294967296)
  else if badWord x .instMem then some (fGuard, a % 4294967296)
  else none

/-- n bytes of instance memory as a number (R12). -/
def ldMem (eng : Engine) (a n : Nat) : BitVec 64 := BitVec.ofNat 64 (ofBytesLE (eng.mem.readN a n))

/-- n bytes stored to instance memory (R12). -/
def stMem (eng : Engine) (a n : Nat) (v : BitVec 64) : Engine := { eng with mem := eng.mem.writeN a (bytesLE n v.toNat) }

/-- The address of a memory instruction: A + sext(IMM) (R327). -/
def memAddr (eng : Engine) (w : BitVec 64) : Nat := (rdV eng (wA w) + wSext w).toNat

/-- The cycle at the next instruction. -/
def nextPc (cyc : Cycle) : Cycle := { cyc with pc := cyc.pc + 1 }

/-- A load of n bytes (R327). -/
def tahrLoad (op n : Nat) (x : TahrOp) (f : BitVec 64 → BitVec 64) (s : State) : Res :=
  tahr op (zB ||| zC) x (fun _ x eng r cyc w =>
    let a := memAddr eng w
    match dataFault x r a n n with
    | some (c, ad) => .fault c ad
    | none => .done 2 (wrV eng (wD w) (f (ldMem eng a n))) (nextPc cyc)) s

/-- A store of n bytes (R327). -/
def tahrStore (op n : Nat) (x : TahrOp) (s : State) : Res :=
  tahr op (zB ||| zC) x (fun _ x eng r cyc w =>
    let a := memAddr eng w
    match dataFault x r a n n with
    | some (c, ad) => .fault c ad
    | none => .done 1 (stMem eng a n (rdV eng (wD w))) (nextPc cyc)) s

/-- LD. -/
def execTahrLd (x : TahrOp) (s : State) : Res := tahrLoad 0x50 8 x id s

/-- LDW. -/
def execTahrLdw (x : TahrOp) (s : State) : Res := tahrLoad 0x51 4 x (fun v => (v.truncate 32).signExtend 64) s

/-- LDWU. -/
def execTahrLdwu (x : TahrOp) (s : State) : Res := tahrLoad 0x52 4 x id s

/-- LDB. -/
def execTahrLdb (x : TahrOp) (s : State) : Res := tahrLoad 0x53 1 x id s

/-- ST. -/
def execTahrSt (x : TahrOp) (s : State) : Res := tahrStore 0x54 8 x s

/-- STW. -/
def execTahrStw (x : TahrOp) (s : State) : Res := tahrStore 0x55 4 x s

/-- STB. -/
def execTahrStb (x : TahrOp) (s : State) : Res := tahrStore 0x56 1 x s

/-! ## Control (R328, R340) -/

/-- The target of a branch: the branch's own index plus the signed offset (R322). -/
def branchTarget (cyc : Cycle) (w : BitVec 64) : Int := cyc.pc + (wImm w).toInt

/-- A branch taken or not; a taken target outside the owner's code region raises ACCESS (R328). -/
def tahrBranch (r : Region) (cyc : Cycle) (w : BitVec 64) (taken : Bool) (eng eng' : Engine) : TahrRes :=
  if !taken then .done 1 eng (nextPc cyc) else
  let t := branchTarget cyc w
  if t < 0 ∨ !inCode r t.toNat then .fault fAccess 0 else .done 2 eng' { cyc with pc := t.toNat }

/-- A conditional branch on two registers. -/
def tahrCond (op : Nat) (x : TahrOp) (p : BitVec 64 → BitVec 64 → Bool) (s : State) : Res :=
  tahr op (zD ||| zC) x (fun _ _ eng r cyc w => tahrBranch r cyc w (p (rdV eng (wA w)) (rdV eng (wB w))) eng eng) s

/-- BR. -/
def execTahrBr (x : TahrOp) (s : State) : Res :=
  tahr 0x80 (zD ||| zA ||| zB ||| zC) x (fun _ _ eng r cyc w => tahrBranch r cyc w true eng eng) s

/-- BEQ. -/
def execTahrBeq (x : TahrOp) (s : State) : Res := tahrCond 0x81 x (fun a b => a == b) s

/-- BNE. -/
def execTahrBne (x : TahrOp) (s : State) : Res := tahrCond 0x82 x (fun a b => a != b) s

/-- BLT. -/
def execTahrBlt (x : TahrOp) (s : State) : Res := tahrCond 0x83 x (fun a b => a.slt b) s

/-- BGE. -/
def execTahrBge (x : TahrOp) (s : State) : Res := tahrCond 0x84 x (fun a b => b.sle a) s

/-- BLTU. -/
def execTahrBltu (x : TahrOp) (s : State) : Res := tahrCond 0x85 x (fun a b => a.ult b) s

/-- LOOP: A = A − 1; branch if A ≠ 0. -/
def execTahrLoop (x : TahrOp) (s : State) : Res :=
  tahr 0x86 (zD ||| zB ||| zC) x (fun _ _ eng r cyc w =>
    let eng' := wrV eng (wA w) (rdV eng (wA w) - 1)
    tahrBranch r cyc w (rdV eng' (wA w) != 0) eng' eng') s

/-- FBCALL (R340). -/
def execTahrFbcall (x : TahrOp) (s : State) : Res :=
  tahr 0x87 (zD ||| zB ||| zC ||| 0xFFFFE000) x (fun _ _ eng r cyc w =>
    let t := (w.extractLsb' 0 13).toNat
    if !inCode r t then .fault fAccess 0
    else if 16 ≤ eng.stack.length then .fault fStack 0
    else .done 3 (wrV { eng with stack := (cyc.pc + 1, rdV eng 62) :: eng.stack } 62 (rdV eng (wA w))) { cyc with pc := t }) s

/-- RET (R340). -/
def execTahrRet (x : TahrOp) (s : State) : Res :=
  tahr 0x88 (zD ||| zA ||| zB ||| zC ||| zI) x (fun _ _ eng _ cyc _ =>
    match eng.stack with
    | [] => .fault fStack 0
    | p :: l => .done 3 (wrV { eng with stack := l } 62 p.2) { cyc with pc := p.1 }) s

/-- NOP. -/
def execTahrNop (x : TahrOp) (s : State) : Res :=
  tahr 0x8A (zD ||| zA ||| zB ||| zC ||| zI) x (fun _ _ eng _ cyc _ => .done 1 eng (nextPc cyc)) s

/-- END ends the task cycle at t_end (R328, R368): its exports and packets wait for W, and the consecutive fault count returns
to 0 (R371). -/
def tahrEnd (e : Nat) (s : State) : State :=
  let eng := getEng s e
  match eng.cycle with
  | none => s
  | some cyc =>
    let tend := cycInstant cyc cyc.elapsed
    let w := ltAdd tend (outTime cyc.nExp s.ps.tPsw)
    let p : PendingW :=
      { task := cyc.task, owner := cyc.owner, w := w, ts := cyc.ts, sends := cyc.sends, stepped := cyc.stepped,
        lastStep := cyc.lastStep, qref := cyc.qref }
    let ws : List PtWrite := cyc.exports.filterMap (fun x => (cyc.expTab[x.1]?).map (fun i =>
      { index := i, value := x.2.value, quality := x.2.quality, lt := x.2.lt.getD w, writer := .task cyc.owner cyc.task x.1 }))
    let (good, bad) := ws.partition (fun x => writerOk s x.index x.writer)
    let s := bad.foldl (fun s _ => pointDenied s) s
    let s := if good.isEmpty then s else offerBatch { src := .engine e, writes := good, visible := some w } s
    let s := countCycle e cyc cyc.elapsed s
    let s := modEng e (fun g => { g with cycle := none, freeAt := tend, pendingW := g.pendingW ++ [p] }) s
    serveReads (modTask cyc.owner cyc.task (fun t => { t with consec := 0, limitHit := false, overrunOnly := true, pendingW := true }) s)

/-- END. -/
def execTahrEnd (x : TahrOp) (s : State) : Res :=
  match tahr 0x89 (zD ||| zA ||| zB ||| zC ||| zI) x (fun _ _ eng _ cyc _ => .done 1 eng { cyc with ended := true }) s with
  | .next s' =>
    match (getEng s' x.e.val).cycle with
    | some cyc => if cyc.ended then .next (tahrEnd x.e.val s') else .next s'
    | none => .next s'
  | o => o

/-! ## Points (R330–R333) -/

/-- A point load from import slot IMM[15:0] of the snapshot (R332). -/
def tahrLdp (op : Nat) (x : TahrOp) (f : PointRec → BitVec 64) (s : State) : Res :=
  tahr op (zA ||| zB ||| zC ||| 0xFFFF0000) x (fun _ x eng _ cyc w =>
    let slot := (w.extractLsb' 0 16).toNat
    match cyc.imports[slot]? with
    | none => .fault fSlot slot
    | some p => if badWord x .pointCache then .fault fGuard slot else .done 2 (wrV eng (wD w) (f p)) (nextPc cyc)) s

/-- LDP. -/
def execTahrLdp (x : TahrOp) (s : State) : Res := tahrLdp 0x60 x (·.value) s

/-- The status word of LDPQ (R332). -/
def ldpqWord (p : PointRec) : BitVec 64 :=
  BitVec.ofNat 64 (p.quality.toNat + p.flags.toNat * 2 ^ 16 + ptCode p.type * 2 ^ 32 + (p.owner % 256) * 2 ^ 40)

/-- LDPQ. -/
def execTahrLdpq (x : TahrOp) (s : State) : Res := tahrLdp 0x61 x ldpqWord s

/-- LDPT. -/
def execTahrLdpt (x : TahrOp) (s : State) : Res := tahrLdp 0x62 x (·.lt) s

/-- A point store into export slot IMM[15:0] of the output buffer; the last store to a slot wins (R333). -/
def tahrStp (op : Nat) (zero : BitVec 64) (x : TahrOp) (lt : Engine → BitVec 64 → Option LT) (s : State) : Res :=
  tahr op (zero ||| 0xFFFF0000) x (fun _ _ eng _ cyc w =>
    let slot := (w.extractLsb' 0 16).toNat
    if cyc.nExp ≤ slot then .fault fSlot slot
    else
      let v : ExportVal := { value := rdV eng (wD w), quality := (rdV eng (wC w)).truncate 16, lt := lt eng w }
      .done 1 eng { nextPc cyc with exports := cyc.exports.filter (fun e => e.1 != slot) ++ [(slot, v)] }) s

/-- STP. -/
def execTahrStp (x : TahrOp) (s : State) : Res := tahrStp 0x63 (zA ||| zB) x (fun _ _ => none) s

/-- STPT. -/
def execTahrStpt (x : TahrOp) (s : State) : Res := tahrStp 0x64 zA x (fun eng w => some (rdV eng (wB w))) s

/-! ## Special registers (R318) -/

/-- A special register, or none for a reserved number. -/
def specialReg (e : Nat) (cyc : Cycle) (n : Nat) : Option (BitVec 64) :=
  match n with
  | 0x00 => some cyc.cycLt
  | 0x01 => some cyc.tclk
  | 0x02 => some cyc.cycDt
  | 0x03 => some cyc.cycNo
  | 0x04 => some (BitVec.ofNat 64 cyc.elapsed)
  | 0x05 => some (BitVec.ofNat 64 (cyc.task % 256 + (cyc.owner % 256) * 2 ^ 8 + e * 2 ^ 16))
  | 0x06 => some cyc.qstat
  | 0x07 => some cyc.rxCount
  | 0x08 => some cyc.timeq
  | 0x09 => some cyc.flags
  | _ => none

/-- RDSR; A is 0. -/
def execTahrRdsr (x : TahrOp) (s : State) : Res :=
  tahr 0x70 (zA ||| zB ||| zC) x (fun _ x eng _ cyc w =>
    match specialReg x.e.val cyc (w.extractLsb' 0 8).toNat with
    | none => .fault fIllegal 0
    | some v => .done 1 (wrV eng (wD w) v) (nextPc cyc)) s

/-! ## Timers, edges and counters (R335–R338) -/

/-- A block instruction: the block of `n` bytes lies at C + sext(IMM), 8-byte aligned (R335). -/
def tahrBlock (op : Nat) (zero : BitVec 64) (n cycles : Nat) (x : TahrOp)
    (f : Engine → Cycle → Nat → BitVec 64 → BitVec 64 → Engine × BitVec 64) (s : State) : Res :=
  tahr op zero x (fun _ x eng r cyc w =>
    let a := (rdV eng (wC w) + wSext w).toNat
    match dataFault x r a n 8 with
    | some (c, ad) => .fault c ad
    | none =>
      let y := f eng cyc a (rdV eng (wA w)) (rdV eng (wB w))
      .done cycles (wrV y.1 (wD w) y.2) (nextPc cyc)) s

/-- A timer block (R336). -/
structure TimerBlk where
  start : BitVec 64
  et : BitVec 64
  inPrev : Bool
  q : Bool
  run : Bool
  deriving DecidableEq, Repr

/-- The timer block at an address. -/
def rdTimer (eng : Engine) (a : Nat) : TimerBlk :=
  let st := ldMem eng (a + 16) 8
  { start := ldMem eng a 8, et := ldMem eng (a + 8) 8, inPrev := st.getLsbD 0, q := st.getLsbD 1, run := st.getLsbD 2 }

/-- The timer block written back; STATE bits 63:3 are 0 (R336). -/
def wrTimer (eng : Engine) (a : Nat) (b : TimerBlk) : Engine :=
  stMem (stMem (stMem eng a 8 b.start) (a + 8) 8 b.et) (a + 16) 8 (BitVec.ofNat 64 (bitN b.inPrev + 2 * bitN b.q + 4 * bitN b.run))

/-- While RUN: ET = min(d, PT), and at ET = PT the timer stops with a new Q (R336). -/
def timerRun (b : TimerBlk) (tclk pt : BitVec 64) (q : Bool) : TimerBlk :=
  let d := ltDiff tclk b.start
  let b := { b with et := BitVec.ofInt 64 (min d pt.toInt) }
  if b.et = pt then { b with q := q, run := false } else b

/-- TON (R336). -/
def tonStep (b : TimerBlk) (tclk pt : BitVec 64) (i : Bool) : TimerBlk :=
  if i && !b.inPrev then { b with start := tclk, et := 0, run := true, q := pt == 0 }
  else if i then (if b.run then timerRun b tclk pt true else b)
  else { b with et := 0, q := false, run := false }

/-- TOF (R336). -/
def tofStep (b : TimerBlk) (tclk pt : BitVec 64) (i : Bool) : TimerBlk :=
  if i then { b with et := 0, q := true, run := false }
  else if b.inPrev then { b with start := tclk, et := 0, run := true, q := (0#64).slt pt }
  else if b.run then timerRun b tclk pt false else b

/-- TP (R336). -/
def tpStep (b : TimerBlk) (tclk pt : BitVec 64) (i : Bool) : TimerBlk :=
  if i && !b.inPrev then
    (if !b.run && !b.q then { b with start := tclk, et := 0, run := true, q := (0#64).slt pt } else b)
  else if b.run then timerRun b tclk pt false
  else if i then b else { b with et := 0 }

/-- A timer instruction: the input is A, the preset B, and a negative preset counts as 0; it ends by setting IN_PREV, and D to Q
(R336). -/
def tahrTimer (op : Nat) (x : TahrOp) (f : TimerBlk → BitVec 64 → BitVec 64 → Bool → TimerBlk) (s : State) : Res :=
  tahrBlock op 0 24 6 x (fun eng cyc a i pt =>
    let b := f (rdTimer eng a) cyc.tclk (if pt.slt 0 then 0 else pt) (i != 0)
    (wrTimer eng a { b with inPrev := i != 0 }, boolV b.q)) s

/-- TON. -/
def execTahrTon (x : TahrOp) (s : State) : Res := tahrTimer 0x71 x tonStep s

/-- TOF. -/
def execTahrTof (x : TahrOp) (s : State) : Res := tahrTimer 0x72 x tofStep s

/-- TP. -/
def execTahrTp (x : TahrOp) (s : State) : Res := tahrTimer 0x73 x tpStep s

/-- RTRIG; B is 0 (R337). -/
def execTahrRtrig (x : TahrOp) (s : State) : Res :=
  tahrBlock 0x74 zB 8 4 x (fun eng _ a i _ =>
    (stMem eng a 8 (boolV (i != 0)), boolV (i != 0 && !(ldMem eng a 8).getLsbD 0))) s

/-- FTRIG; B is 0 (R337). -/
def execTahrFtrig (x : TahrOp) (s : State) : Res :=
  tahrBlock 0x75 zB 8 4 x (fun eng _ a i _ =>
    (stMem eng a 8 (boolV (i != 0)), boolV (i == 0 && (ldMem eng a 8).getLsbD 0))) s

/-- A counter instruction: the step of CV from the control word, the rising edges of CU and CD, and PV; CU_PREV and CD_PREV take
CU and CD at every execution (R338). -/
def tahrCounter (op : Nat) (x : TahrOp) (f : BitVec 64 → Bool → Bool → BitVec 64 → BitVec 64 → BitVec 64)
    (d : BitVec 64 → BitVec 64 → BitVec 64) (s : State) : Res :=
  tahrBlock op 0 16 5 x (fun eng _ a ctl pv =>
    let st := ldMem eng (a + 8) 8
    let cu := ctl.getLsbD 0
    let cd := ctl.getLsbD 1
    let cv := f ctl (cu && !st.getLsbD 0) (cd && !st.getLsbD 1) (ldMem eng a 8) pv
    (stMem (stMem eng a 8 cv) (a + 8) 8 (BitVec.ofNat 64 (bitN cu + 2 * bitN cd)), d cv pv)) s

/-- One more, up to 2^63 − 1. -/
def countUp (cv : BitVec 64) : BitVec 64 := if cv = 0x7FFFFFFFFFFFFFFF then cv else cv + 1

/-- One less, down to −2^63. -/
def countDown (cv : BitVec 64) : BitVec 64 := if cv = 0x8000000000000000 then cv else cv - 1

/-- CTU (R338). -/
def execTahrCtu (x : TahrOp) (s : State) : Res :=
  tahrCounter 0x76 x (fun ctl up _ cv _ => if ctl.getLsbD 2 then 0 else if up then countUp cv else cv)
    (fun cv pv => boolV (pv.sle cv)) s

/-- CTD (R338). -/
def execTahrCtd (x : TahrOp) (s : State) : Res :=
  tahrCounter 0x77 x (fun ctl _ down cv pv => if ctl.getLsbD 3 then pv else if down then countDown cv else cv)
    (fun cv _ => boolV (cv.sle 0)) s

/-- CTUD (R338): R, else LD, else the edges; both together leave CV unchanged. -/
def execTahrCtud (x : TahrOp) (s : State) : Res :=
  tahrCounter 0x78 x (fun ctl up down cv pv =>
      if ctl.getLsbD 2 then 0 else if ctl.getLsbD 3 then pv
      else if up && !down then countUp cv else if down && !up then countDown cv else cv)
    (fun cv pv => boolV (pv.sle cv) ||| (boolV (cv.sle 0) <<< 1)) s

/-! ## Packets and RAISE (R344, R346) -/

/-- Bytes a packet takes of the send-buffer slice: its descriptor and payload in 32-byte words. -/
def sliceBytes (p : List Byte) : Nat := 32 * ceilDiv p.length 32

/-- Bytes of the slice in use: the running cycle's packets and those that wait for their output write (R344). -/
def sliceUsed (eng : Engine) (cyc : Cycle) : Nat :=
  (cyc.sends.map (fun p => sliceBytes p.2)).sum + (eng.pendingW.flatMap (fun p => p.sends.map (fun q => sliceBytes q.2))).sum

/-- QSEND (R344). -/
def execTahrQsend (x : TahrOp) (s : State) : Res :=
  tahr 0x79 (zD ||| zB ||| zC ||| 0xFFFFFFFE) x (fun _ x eng r cyc w =>
    let a := (rdV eng (wA w)).toNat
    match dataFault x r a 32 1 with
    | some (c, ad) => .fault c ad
    | none =>
      let len := ofBytesLE (eng.mem.readN (a + 8) 2)
      if len < 14 ∨ 8160 < len ∨ 8192 < sliceUsed eng cyc + 32 * ceilDiv (32 + len) 32 then
        .done 4 eng { nextPc cyc with qref := cyc.qref + 1 }
      else
        match dataFault x r (a + 32) len 1 with
        | some (c, ad) => .fault c ad
        | none =>
          .done (4 + ceilDiv (32 + len) 32) eng
            { nextPc cyc with sends := cyc.sends ++ [(w.getLsbD 0, eng.mem.readN a (32 + len))], qsn := cyc.qsn + 1 }) s

/-- RAISE: the fault USER with code IMM[15:0]. -/
def execTahrRaise (x : TahrOp) (s : State) : Res :=
  tahr 0x7A (zD ||| zA ||| zB ||| zC ||| 0xFFFF0000) x (fun _ _ _ _ _ w => .fault fUser (w.extractLsb' 0 16).toNat) s

end Sys2Proof.Machine
end

