-- ==== Sys2Proof/Machine/CycleOps.lean ====
section
/-! DEFINITION. Shared operations of cyclic execution (chapter 12): releases and skips, windows, frames, engine loading. -/

namespace Sys2Proof.Machine

/-- One base tick in tu (R357). -/
def tickTu : Nat := usTu 10

/-- LT_S: the TCU3 firing that opened the present second; before the first, one second before the one to come (R206, R357). -/
def gridStart (s : State) : LT := if s.se.secNo = 0 then ltSub (getTcu s 3).target (secTu 1) else s.se.ltS

/-- The engine entries of the committed images for engine e, in ascending owner tag (R350, R387). -/
def engineEntries (s : State) (e : Nat) : List (Tag × EngineEntry) :=
  (sortBy (·.1) s.fb.images).flatMap (fun i => (i.2.engines.filter (fun x => x.engine.val == e)).map (fun x => (i.1, x)))

/-- The task entries of engine e by position: FB_TSKj_STATUS with j = 32 × e + position (R387). -/
def taskEntries (s : State) (e : Nat) : List (Tag × TaskEntry) :=
  (engineEntries s e).flatMap (fun x => x.2.tasks.map (fun t => (x.1, t)))

/-- A skipped release: counted, flagged and reported at most once per task per second (R369); a stepped one still counts as one
of the c (R375). -/
def skipTask (o t : Nat) (s : State) : State :=
  let k := getTask s o t
  let s := modTask o t (fun k => { k with skipped := k.skipped + 1, skip := true, released := none, releasedStep := false, releasedLast := false }) s
  let (ok, s) := limited 0x1004B (o * 256 + t) (secTu 1) 1 s
  let s := if ok then raiseArg 0x4B o (BitVec.ofNat 32 t) s else s
  if k.releasedLast then stepDone o s else s

/-- A release of a task (R363, R373, R382): only an active task of an owner in RUN, or the named task in STEP; a release still
waiting is skipped, for releases are never queued (R369). -/
def releaseTask (o t : Nat) (inst cycLt : LT) (s : State) : State :=
  let r := s.fb.own.getD o {}
  let k := getTask s o t
  let step := r.state == .step && r.stepTask == t && r.stepLeft != 0
  if k.state ≠ .active ∨ r.frozen ∨ !(r.state == .run || step) then s else
  let s := if k.released.isSome then skipTask o t s else s
  let s := if step then onFb (fun x => { x with own := x.own.put o { r with stepLeft := r.stepLeft - 1 } }) s else s
  modTask o t (fun k => { k with released := some (inst, cycLt), releasedStep := step, releasedLast := step && r.stepLeft == 1 }) s

/-- The tasks of a kind, by owner and number. -/
def tasksWhere (s : State) (p : Task → Bool) : List (Nat × Nat) := (s.fb.tasks.filter (fun e => p e.2)).map (·.1)

/-- A PERIODIC task has a release point at an instant, reckoned from the start g of a second (R363). -/
def periodicDue (g t : LT) (k : Task) : Bool :=
  match k.cfg.kind with
  | .periodic p φ =>
    let d := ltDiff t g
    decide (10 ≤ p ∧ d.emod tickTu = 0 ∧ (d.ediv tickTu - (φ / 10 : Nat)).emod (p / 10 : Nat) = 0)
  | _ => false

/-- The PERIODIC releases of a base tick (R363, R364). -/
def releasePeriodic (t : LT) (s : State) : State :=
  (tasksWhere s (periodicDue (gridStart s) t)).foldl (fun s k => releaseTask k.1 k.2 t t s) s

/-- SE's release of grid instant (S, k) of group g releases its SAMPLE tasks (R363). -/
def releaseSample (g k : Nat) (tag : LT) (s : State) : State :=
  (tasksWhere s (fun t => match t.cfg.kind with
    | .sample g' m k0 => g' == g && decide (0 < m ∧ k % m = k0)
    | _ => false)).foldl (fun s e => releaseTask e.1 e.2 s.now tag s) s

/-- A firing of unit u releases the TIMED tasks of its owner (R363, R364). -/
def releaseTimed (u : Nat) (o : Tag) (target : LT) (s : State) : State :=
  (tasksWhere s (fun t => t.owner == o && t.cfg.kind == .timed u)).foldl (fun s e => releaseTask e.1 e.2 s.now target s) s

/-- The end of the open window of engine e (R360, R369): a cycle still running ends with OVERRUN; releases of the owner that
waited for this window are skipped. -/
def closeWindow (e : Nat) (s : State) : State :=
  let eng := getEng s e
  match eng.win with
  | none => s
  | some w =>
    let s := match eng.cycle with
      | none => s
      | some cyc =>
        let el := if cyc.snap then 0 else (ltDiff eng.winEnd (cycInstant cyc 0)).toNat / 65536
        taskFault e cyc fOverrun 0 cyc.pc (eng.code.getD cyc.pc 0) el s
    let s := modEng e (fun g => { g with win := none }) s
    (tasksWhere s (fun t => t.owner == w.owner && t.engine == e && t.released.isSome)).foldl (fun s k => skipTask k.1 k.2 s) s

/-- The open windows whose end has come are closed (R360). -/
def closeDue (s : State) : State :=
  (List.range 48).foldl (fun s e => if (getEng s e).win.isSome && ltReached s.now (getEng s e).winEnd then closeWindow e s else s) s

/-- The windows that start on base tick n of the frame open (R359). -/
def openWindows (n : Nat) (s : State) : State :=
  (List.range 48).foldl (fun s e =>
    match (s.fb.windows.getD e []).find? (fun w => w.start == n) with
    | none => s
    | some w => modEng e (fun g => { g with win := some w, winEnd := ltAdd s.fb.frameLt ((w.start + w.len) * tickTu) }) s) s

/-- The capture of every replicated range as it stands (R426). -/
def captureRanges (s : State) : List ReplChunk :=
  s.fo.repl.ranges.map (fun r => {
    engine := r.2.engine.val, ofs := r.2.ofs, tag := r.1, data := (getEng s r.2.engine.val).mem.readN r.2.ofs r.2.len })

/-- The own capture nearest an active unit's capture boundary B_a − Δ (R427). -/
def matchCapture (s : State) (t : LT) : Option (LT × List ReplChunk) :=
  (sortBy (fun c => (ltDiff c.1 (t - s.fo.ltOffset)).natAbs) s.fo.repl.captures).head?

/-- A replication that is not complete by the boundary one frame after the one that follows its matched boundary is dropped
(R426; log 26). -/
def dropLate (b : LT) (s : State) : State :=
  let late (e : BitVec 64 × ReplRx) : Bool :=
    e.2.completeAt.isNone &&
    (match matchCapture s e.1 with
     | some c => ltReached b (ltAdd c.1 (2 * (s.fb.ticks * tickTu)))
     | none => true)
  let n := (s.fo.repl.rx.filter late).length
  if n = 0 then s else
  onFo (fun f => { f with replLate := true, ctr := vadd f.ctr 5 n, repl := { f.repl with rx := f.repl.rx.filter (fun e => !late e) } }) s

/-- A frame starts at an instant (R357, R385); the replicated ranges are captured there (R426). -/
def startFrame (b : LT) (s : State) : State :=
  let s := onFb (fun x => { x with frameLt := b, frameNo := x.frameNo + 1, framed := true }) (closeDue s)
  let cap := captureRanges s
  dropLate b (onFo (fun f => { f with repl := { f.repl with captures := ((b, cap) :: f.repl.captures).take 3, sent := false } }) s)

/-- A release in the lost part of a cut frame is skipped as it occurs (R358, R369, R375). -/
def loseRelease (o t : Nat) (inst : LT) (s : State) : State :=
  let s := releaseTask o t inst inst s
  if (getTask s o t).released.isSome then skipTask o t s else s

/-- The cut of the frame at a TCU3 firing off its boundary (R358): a window the firing crosses ends; releases of the lost part, reckoned from
the start g of the second it belongs to, are skipped; the next frame and its base tick 0 lie at the firing. -/
def cutFrame (g t : LT) (s : State) : State :=
  let last := ltAdd s.fb.frameLt (s.fb.ticks * tickTu)
  let lost := (List.range s.fb.ticks).filter (fun n => let x := ltAdd s.fb.frameLt (n * tickTu); !ltReached t x && !ltReached x last)
  let s := (List.range 48).foldl (fun s e => modEng e (fun g => if g.win.isSome && !ltReached t g.winEnd then { g with winEnd := t } else g) s) s
  let s := closeDue s
  let s := lost.foldl (fun s n =>
    let x := ltAdd s.fb.frameLt (n * tickTu)
    (tasksWhere s (periodicDue g x)).foldl (fun s k => loseRelease k.1 k.2 x s) s) s
  let s := modTcu 2 (fun u => { u with target := ltAdd t (s.fb.ticks * tickTu) }) (modTcu 1 (fun u => { u with target := t }) s)
  startFrame t (onFb (fun x => { x with cut := true }) s)

/-- TCU1 and TCU2 armed so that a frame boundary and a base tick fall on every TCU3 firing (R357); TCU3 armed first where it does
not run. -/
def armFrames (s : State) : State :=
  let s := if (getTcu s 3).en then s else armGrid s
  let f := s.fb.ticks * tickTu
  let ahead (per : Nat) : LT := let d := (ltDiff (getTcu s 3).target s.now).toNat; ltSub (getTcu s 3).target (((d - 1) / per) * per)
  let s' := modTcu 1 (fun u => { u with en := true, periodic := true, period := BitVec.ofNat 63 tickTu, target := ahead tickTu }) s
  modTcu 2 (fun u => { u with en := true, periodic := true, period := BitVec.ofNat 63 f, target := ahead f }) s'

/-- Code and initial instance data of one region loaded from its image (R315, R375). -/
def loadData (x : EngineEntry) (eng : Engine) : Engine := { eng with mem := eng.mem.writeN x.dataBase x.data }

/-- The code words of one region loaded (R312). -/
def loadCode (x : EngineEntry) (eng : Engine) : Engine :=
  { eng with code := ((List.range x.code.length).zip x.code).foldl (fun c e => c.put (x.codeBase + e.1) e.2) eng.code }

/-- The regions of an engine under the committed images (R313). -/
def regionsOf (s : State) (e : Nat) : List Region :=
  (engineEntries s e).map (fun x =>
    { engine := e, owner := x.1, codeBase := x.2.codeBase, codeLen := x.2.code.length, dataBase := x.2.dataBase, dataLen := x.2.data.length })

/-- Engine e loaded whole from the committed images (R315). -/
def loadEngine (e : Nat) (s : State) : State :=
  modEng e (fun g =>
    { (engineEntries s e).foldl (fun g x => loadCode x.2 (loadData x.2 g)) { g with code := [], mem := [] } with regions := regionsOf s e }) s

/-- The instance data of an owner's regions reloaded from the committed images (R375 RUN_COLD). -/
def reloadOwner (o : Tag) (s : State) : State :=
  (List.range 48).foldl (fun s e =>
    ((engineEntries s e).filter (fun x => x.1 == o)).foldl (fun s x => modEng e (loadData x.2) s) s) s

/-- The tasks of an owner changed. -/
def modOwnerTasks (o : Tag) (f : Task → Task) (s : State) : State :=
  onFb (fun x => { x with tasks := x.tasks.map (fun e => if e.1.1 = o then (e.1, f e.2) else e) }) s

/-- The STOP policy INVALIDATE: every export point of the owner written once, value kept, invalid with oldData, at an instant
(R374). -/
def stopInvalidate (o : Tag) (t : LT) (s : State) : State :=
  applyOutput (s.ps.defs.filterMap (fun e => match e.2.writer, getPoint s e.1 with
    | .task o' _ _, some r =>
      if o' = o then some { index := e.1, value := r.value, quality := (r.quality &&& ~~~3) ||| qInvalid ||| qOldData, lt := t, writer := e.2.writer }
      else none
    | _, _ => none)) s

/-- An owner enters a run state at an instant (R373, R386). -/
def setRun (o : Tag) (st' : RunState) (reason : Option StopReason) (t : LT) (s : State) : State :=
  let s := onFb (fun x => { x with own := x.own.upd o {} (fun r => { r with
    state := st', reason := reason.getD r.reason, chg := true, chgLt := t, stepLeft := if st' = .step then r.stepLeft else 0 }) }) s
  let s := if st' = .stop ∨ st' = .hold then
      modOwnerTasks o (fun k => { k with paused := true, released := none, releasedStep := false, releasedLast := false }) s
    else s
  raise 0x4D o s

/-- Whether START_GATE holds a task (R382): its group has not become READY and the lock timeout still runs. -/
def gateHolds (s : State) (k : Task) : Bool :=
  match k.cfg.gate with
  | none => false
  | some g => !k.gateOpened && !(vget s.se.group g {}).ready && s.se.lockTimeoutAt.isSome

/-- RUN_COLD (R375, R376): the instance data reloaded, the fault counts cleared, every next cycle a first one. -/
def runCold (o : Tag) (reason : Option StopReason) (t : LT) (s : State) : State :=
  let s := reloadOwner o s
  let s := modOwnerTasks o (fun k => { k with
    consec := 0, limitHit := false, overrunOnly := true, firstCycle := true, state := if k.state = .stopped then .active else k.state }) s
  setRun o .run reason t s

end Sys2Proof.Machine
end

