-- ==== Sys2Proof/Machine/Frames.lean ====
section
/-! DEFINITION. What PX and the fabric read and change in the bytes of a frame: tags, EtherType, IP header, trailers, flow key
and its CRC (R100–R102, R109, R121, R122, R163, R170). -/

namespace Sys2Proof

/-- The 16-bit number in network order at an offset. -/
def be16 (l : List Byte) (o : Nat) : Nat := ofBytesBE ((l.drop o).take 2)

/-- `l` with `new` written over it from an offset. -/
def splice (l : List Byte) (o : Nat) (new : List Byte) : List Byte := l.take o ++ new ++ l.drop (o + new.length)

/-- Destination address. -/
def Frame.dst (f : Frame) : Mac := BitVec.ofNat 48 (ofBytesBE (f.bytes.take 6))

/-- Source address. -/
def Frame.src (f : Frame) : Mac := BitVec.ofNat 48 (ofBytesBE ((f.bytes.drop 6).take 6))

/-- The group bit of an address: the least significant bit of its first octet. -/
def isGroup (m : Mac) : Bool := m.getLsbD 40

/-- Whether a TPID is one PX recognises (R102). -/
def isTpid (x : Nat) : Bool := x == 0x8100 || x == 0x88A8

/-- The number of recognised VLAN tags, at most two in consecutive positions (R102). -/
def Frame.tags (f : Frame) : Nat :=
  if isTpid (be16 f.bytes 12) then (if isTpid (be16 f.bytes 16) then 2 else 1) else 0

/-- Where the EtherType after the VLAN tags stands. -/
def Frame.etOff (f : Frame) : Nat := 12 + 4 * f.tags

/-- Whether an HSR tag follows the VLAN tags (R102). -/
def Frame.hasHsr (f : Frame) : Bool := be16 f.bytes f.etOff == 0x892F

/-- Where the EtherType after the VLAN tags and any HSR tag stands (R109). -/
def Frame.inOff (f : Frame) : Nat := if f.hasHsr then f.etOff + 6 else f.etOff

/-- The EtherType after all recognised VLAN tags and any HSR tag (R109). -/
def Frame.etype (f : Frame) : BitVec 16 := BitVec.ofNat 16 (be16 f.bytes f.inOff)

/-- The VID of the outermost tag, if there is one. -/
def Frame.outerVid (f : Frame) : Option (BitVec 12) :=
  if f.tags = 0 then none else some (BitVec.ofNat 12 (be16 f.bytes 14))

/-- The frame's VLAN ID (R109): the outermost tag's, or a default for an untagged frame or VID 0. -/
def Frame.vid (f : Frame) (dflt : BitVec 12) : BitVec 12 :=
  match f.outerVid with
  | some v => if v = 0 then dflt else v
  | none => dflt

/-- The PCP of the outermost tag. -/
def Frame.pcp (f : Frame) : Nat := be16 f.bytes 14 / 8192

/-- Path identifier and sequence number of an HSR tag (R122). -/
def Frame.hsr (f : Frame) : Option (BitVec 4 × BitVec 16) :=
  if f.hasHsr then some (BitVec.ofNat 4 (be16 f.bytes (f.etOff + 2) / 4096), BitVec.ofNat 16 (be16 f.bytes (f.etOff + 4))) else none

/-- The LSDU size of a frame of `n` bytes whose EtherType stands at `o`: the bytes after that EtherType (PRESUMED from
IEC 62439-3, log 11). -/
def lsduSize (n o : Nat) : Nat := n - (o + 2)

/-- A recognised PRP trailer: LAN identifier and sequence number (R102, R121). -/
def Frame.prp (f : Frame) : Option (BitVec 4 × BitVec 16) :=
  let n := f.bytes.length
  if n ≥ 20 ∧ be16 f.bytes (n - 2) = 0x88FB ∧ be16 f.bytes (n - 4) % 4096 = lsduSize n f.etOff % 4096 then
    some (BitVec.ofNat 4 (be16 f.bytes (n - 4) / 4096), BitVec.ofNat 16 (be16 f.bytes (n - 6)))
  else none

/-- The frame with other bytes, its length on the wire following them (R100). -/
def Frame.withBytes (f : Frame) (b : List Byte) : Frame := { f with bytes := b, len := b.length + 4 }

/-- Zero padding up to 64 bytes before the FCS (R105). -/
def padBytes (b : List Byte) : List Byte := b ++ List.replicate (60 - b.length) 0

/-- A PRP trailer appended (R121). -/
def addPrp (b : List Byte) (o : Nat) (lan : Nat) (seq : BitVec 16) : List Byte :=
  b ++ bytesBE 2 seq.toNat ++ bytesBE 2 (lan * 4096 + lsduSize (b.length + 6) o % 4096) ++ bytesBE 2 0x88FB

/-- An HSR tag inserted after the VLAN tags (R122). -/
def addHsr (b : List Byte) (o : Nat) (path : Nat) (seq : BitVec 16) : List Byte :=
  b.take o ++ bytesBE 2 0x892F ++ bytesBE 2 (path * 4096 + lsduSize (b.length + 6) o % 4096) ++ bytesBE 2 seq.toNat ++ b.drop o

/-- An HSR tag removed. -/
def dropHsr (f : Frame) : List Byte := f.bytes.take f.etOff ++ f.bytes.drop (f.etOff + 6)

/-! ## IP header and ECN (R163, R170) -/

/-- Where an IPv4 header starts directly after the EtherType, if one does. -/
def Frame.ip4 (f : Frame) : Option Nat := if be16 f.bytes f.etOff = 0x0800 then some (f.etOff + 2) else none

/-- Where an IPv6 header starts directly after the EtherType, if one does. -/
def Frame.ip6 (f : Frame) : Option Nat := if be16 f.bytes f.etOff = 0x86DD then some (f.etOff + 2) else none

/-- The byte at an offset, 0 past the end. -/
def byteAt (l : List Byte) (o : Nat) : Byte := (l.drop o).headD 0

/-- The incremental checksum update of RFC 1624: HC' = ~(~HC + ~m + m'), in ones' complement arithmetic. -/
def csumUpdate (hc m m' : Nat) : Nat :=
  let t := (0xFFFF - hc) + (0xFFFF - m) + m'
  let t := t % 65536 + t / 65536
  let t := t % 65536 + t / 65536
  0xFFFF - t

/-- R170: the frame marked, where its ECN field is 0b01 or 0b10. -/
def Frame.ecnMark (f : Frame) : Option Frame :=
  match f.ip4, f.ip6 with
  | some o, _ =>
    let b := byteAt f.bytes (o + 1)
    if b.toNat % 4 = 1 ∨ b.toNat % 4 = 2 then
      let old := be16 f.bytes o
      let b' := b ||| 3
      let new := old / 256 * 256 + b'.toNat
      let hc := csumUpdate (be16 f.bytes (o + 10)) old new
      some { f with bytes := splice (splice f.bytes (o + 1) [b']) (o + 10) (bytesBE 2 hc) }
    else none
  | none, some o =>
    let b := byteAt f.bytes (o + 1)
    if b.toNat / 16 % 4 = 1 ∨ b.toNat / 16 % 4 = 2 then some { f with bytes := splice f.bytes (o + 1) [b ||| 0x30] } else none
  | none, none => none

/-- `n` bytes from an offset, zero past the end. -/
def bytesFrom (l : List Byte) (o n : Nat) : List Byte := (List.range n).map (fun k => byteAt l (o + k))

/-- Source and destination port of TCP or UDP, else zeros (R163). -/
def portBytes (l : List Byte) (proto o : Nat) (fragment : Bool) : List Byte :=
  if (proto = 6 ∨ proto = 17) ∧ !fragment then bytesFrom l o 4 else List.replicate 4 0

/-- Bytes 18–54 of the flow key (R163): addresses, protocol, ports. -/
def ipKey (f : Frame) : List Byte :=
  match f.ip4, f.ip6 with
  | some o, _ =>
    let ihl := (byteAt f.bytes o).toNat % 16 * 4
    let frag := decide (be16 f.bytes (o + 6) % 16384 ≠ 0)
    let proto := byteAt f.bytes (o + 9)
    bytesFrom f.bytes (o + 12) 4 ++ List.replicate 12 0 ++ bytesFrom f.bytes (o + 16) 4 ++ List.replicate 12 0 ++ [proto] ++
      portBytes f.bytes proto.toNat (o + ihl) frag
  | none, some o =>
    let nh := byteAt f.bytes (o + 6)
    bytesFrom f.bytes (o + 8) 16 ++ bytesFrom f.bytes (o + 24) 16 ++ [nh] ++ portBytes f.bytes nh.toNat (o + 40) false
  | none, none => List.replicate 37 0

/-- The 56-byte flow key of a copy (R163). -/
def flowKey (f : Frame) (inPort cls egress : Nat) (vid : BitVec 12) : List Byte :=
  [BitVec.ofNat 8 (inPort % 16 + 16 * (cls % 8)), BitVec.ofNat 8 (egress % 16)] ++ bytesFrom f.bytes 0 12 ++
  bytesBE 2 vid.toNat ++ bytesBE 2 (be16 f.bytes f.etOff) ++ ipKey f ++ [0]

/-- One byte through the reflected CRC-32 register (polynomial 0x04C1_1DB7, reflected 0xEDB8_8320). -/
def crc32Byte (crc : BitVec 32) (b : Byte) : BitVec 32 :=
  (List.range 8).foldl (fun c _ => if c.getLsbD 0 then (c >>> 1) ^^^ 0xEDB88320#32 else c >>> 1) (crc ^^^ b.zeroExtend 32)

/-- CRC-32 with initial value and final XOR 0xFFFF_FFFF (R163). -/
def crc32 (l : List Byte) : BitVec 32 := (l.foldl crc32Byte 0xFFFFFFFF#32) ^^^ 0xFFFFFFFF#32

/-- R163: the intermediate of a copy. -/
def flowMid (key : List Byte) (seed : BitVec 4) : Nat :=
  let h := crc32 key
  ((List.range 8).foldl (fun (a : BitVec 4) k => a ^^^ h.extractLsb' (4 * k) 4) seed).toNat

/-- R160: the cells a frame of L bytes occupies. -/
def cellsOf (len : Nat) : Nat := ceilDiv (len + 12) 128

/-! ## PTP fields in a frame (R33) -/

/-- Where the PTP header starts: after EtherType 0x88F7, or in UDP to port 319 or 320 over IPv4 or IPv6. -/
def Frame.ptpOff (f : Frame) : Option Nat :=
  if f.etype = 0x88F7 then some (f.inOff + 2)
  else
    match f.ip4, f.ip6 with
    | some o, _ =>
      let u := o + (byteAt f.bytes o).toNat % 16 * 4
      if byteAt f.bytes (o + 9) = 17 ∧ (be16 f.bytes (u + 2) = 319 ∨ be16 f.bytes (u + 2) = 320) then some (u + 8) else none
    | none, some o =>
      if byteAt f.bytes (o + 6) = 17 ∧ (be16 f.bytes (o + 42) = 319 ∨ be16 f.bytes (o + 42) = 320) then some (o + 48) else none
    | none, none => none

/-- messageType of a PTP frame. -/
def Frame.ptpType (f : Frame) : Option Nat := f.ptpOff.map (fun o => (byteAt f.bytes o).toNat % 16)

/-- A PTP event message: messageType 0 to 3. -/
def Frame.ptpEvent (f : Frame) : Bool :=
  match f.ptpType with
  | some t => decide (t ≤ 3)
  | none => false

/-- sequenceId of a PTP frame. -/
def Frame.ptpSeq (f : Frame) : BitVec 16 :=
  match f.ptpOff with
  | some o => BitVec.ofNat 16 (be16 f.bytes (o + 30))
  | none => 0

/-- R33: the residence time in tu added to the correctionField, whose unit is the tu (R25), with the UDP checksum of IPv6
updated. -/
def Frame.addCorrection (f : Frame) (tu : Nat) : Frame :=
  match f.ptpOff with
  | none => f
  | some o =>
    let old := bytesFrom f.bytes (o + 8) 8
    let new := bytesBE 8 (ofBytesBE old + tu)
    let b := splice f.bytes (o + 8) new
    match f.ip6 with
    | some i =>
      let c := (List.range 4).foldl (fun c k => csumUpdate c (be16 old (2 * k)) (be16 new (2 * k))) (be16 f.bytes (i + 46))
      { f with bytes := splice b (i + 46) (bytesBE 2 c) }
    | none => { f with bytes := b }

end Sys2Proof

namespace Sys2Proof.Machine

/-! ## Classes of received frames (R103, R107) -/

/-- Length and FCS classes of a received frame (R103). -/
inductive RxClass where
  | good
  | fcsError
  | runt
  | fragment
  | oversize
  | jabber
  deriving DecidableEq, Repr

/-- The class of a frame on a port (R103). -/
def rxClass (len max : Nat) (fcsOk : Bool) : RxClass :=
  if len < 64 then (if fcsOk then .runt else .fragment)
  else if len > max then (if fcsOk then .oversize else .jabber)
  else if fcsOk then .good else .fcsError

/-- The receive status word (R107). -/
def rxStatusWord (bits rxq : Nat) (codeErr tagged bad : Bool) : BitVec 16 :=
  BitVec.ofNat 16 (bits + 32 * bitN codeErr + 2048 * rxq + 16384 * bitN tagged + 32768 * bitN bad)

end Sys2Proof.Machine
end

