-- ==== Sys2Proof/Machine/QueueOps.lean ====
section
/-! DEFINITION. Shared operations over the packet queues of QM (chapter 06). -/

namespace Sys2Proof.Machine

/-! ## The fabric ports of a pair (R120, R155) -/

/-- The redundancy pair of a port of P2–P5 (R120). -/
def pairOf (p : Nat) : Option Nat := if p = 2 ∨ p = 3 then some 0 else if p = 4 ∨ p = 5 then some 1 else none

/-- The mode of a pair. -/
def pairMode (s : State) (k : Nat) : RedMode := (vget s.px.pair k {}).cfg.mode

/-- The enabled pair a port belongs to (R155). -/
def enabledPair (s : State) (p : Nat) : Option Nat :=
  match pairOf p with
  | some k => if pairMode s k = .independent then none else some k
  | none => none

/-- The fabric port a port's frames enter and leave as: the lower port of an enabled pair (R155). -/
def fabricPort (s : State) (p : Nat) : Nat :=
  match enabledPair s p with
  | some k => 2 + 2 * k
  | none => p

/-- R155: mask bits 3 and 5 are ignored while pair A or pair B is enabled. -/
def effMask (s : State) (m : BitVec 16) : BitVec 16 :=
  let m := if pairMode s 0 = .independent then m else m &&& ~~~(1#16 <<< 3)
  if pairMode s 1 = .independent then m else m &&& ~~~(1#16 <<< 5)

/-! ## Queues -/

/-- Queues marked reserved (R182). -/
def qReserved (q : Nat) : Bool :=
  decide (0x0C ≤ q ∧ q ≤ 0x0F) || decide (0x1C ≤ q ∧ q ≤ 0x1F) || decide (0x38 ≤ q ∧ q ≤ 0x3F) || decide (0xFF < q)

/-- Default capacity in words (R185). -/
def qDefaultCap (q : Nat) : Nat :=
  if qReserved q then 0 else if q ≤ 0x07 then 4096 else if q ≤ 0x0B then 2048 else if q ≤ 0x1B then 1024
  else if q ≤ 0x37 then 2048 else if q = 0x40 then 1024 else 0

/-- The capacity and direction of a queue under a table of staged ones (R185). -/
def qCfg (t : Tab Nat QueueCfg) (q : Nat) : QueueCfg :=
  (t.get? q).getD { cap := qDefaultCap q, toHost := if q = 0x40 then some true else none }

/-- A queue of 0x41–0xFF with capacity 0 or without a direction is unused; a reserved queue holds nothing (R182, R185). -/
def qUnused (t : Tab Nat QueueCfg) (q : Nat) : Bool :=
  qReserved q || (decide (0x41 ≤ q) && ((qCfg t q).cap == 0 || (qCfg t q).toHost.isNone))

/-- The queue, or an empty one. -/
def getQ (s : State) (q : Nat) : Queue := s.qm.q.getD q {}

/-- The queue changed. -/
def modQ (q : Nat) (f : Queue → Queue) (s : State) : State := { s with qm := { s.qm with q := s.qm.q.upd q {} f } }

/-- The owner of a queue of 0x50–0xFF: the instance whose share it is in; otherwise the platform (R184). -/
def qOwner (s : State) (q : Nat) : Tag :=
  if 0x50 ≤ q then ((s.im.inst.find? (fun e => e.2.shares.queues.contains q)).map (·.1)).getD 0 else 0

/-- The tag epoch of an owner (R524). -/
def epochOf (s : State) (o : Tag) : Nat := (s.im.inst.getD o {}).epoch.toNat

/-- Words an open packet occupies: its header word and its payload (R186, R188). -/
def openWords (p : OpenPkt) : Nat := 1 + ceilDiv p.payload.length 32

/-- Words of a queue, open and unreleased ones included (R186, R197). -/
def qOcc (x : Queue) : Nat := x.words.length + (x.openPkt.map openWords).getD 0

/-- Words of one owner in a queue (R186). -/
def qOccOf (x : Queue) (o : Tag) : Nat :=
  (x.words.filter (fun w => w.tag == o)).length +
    (match x.openPkt with
     | some p => if p.owner = o then openWords p else 0
     | none => 0)

/-- The words an owner may hold in a queue: SHARE for an instance in a shared queue, what remains for the platform, all of it
in a queue with one owner (R185). -/
def qShareOf (s : State) (q : Nat) (o : Tag) : Nat :=
  let cap := (qCfg s.qm.cap q).cap
  if 0x50 ≤ q then cap
  else if o = 0 then cap - (s.im.inst.map (fun e => e.2.shares.qShare.getD q 0)).sum
  else (s.im.inst.getD o {}).shares.qShare.getD q 0

/-- R186: whether an opening is refused with QUOTA: the owner is at its share, the queue at its capacity, the queue is unused,
or the owner is being reset (R525). -/
def openRefused (s : State) (q : Nat) (o : Tag) : Bool :=
  qUnused s.qm.cap q || decide (qShareOf s q o ≤ qOccOf (getQ s q) o) || decide ((qCfg s.qm.cap q).cap ≤ qOcc (getQ s q)) ||
  (o != 0 && instState s o == .resetting)

/-- A producer opens a packet with its header word, or the opening is refused (R186). Every packet offered counts in SEQ. -/
def openPacket (q : Nat) (o : Tag) (header : List Byte) (s : State) : State × Bool :=
  if openRefused s q o then
    let s := modQ q (fun x => { x with quotaHit := true, gapNext := true, seq := x.seq + 1, ctr := vadd x.ctr 3 1 }) s
    ({ s with qm := { s.qm with quota := true } }, false)
  else
    (modQ q (fun x => { x with openPkt := some { owner := o, epoch := epochOf s o, header := header }, seq := x.seq + 1 }) s, true)

/-- Whether packets of an owner pass: the tag of a requester is the word's own, and that is no reserved tag (R9). -/
def tagAdmits (rq w : Tag) : Bool := rq == w && decide (w ≤ 64)

/-- The receive notice but for COMMIT_LT and LENGTH, which are written as the packet becomes visible (R192). -/
def noticeBytes (s : State) (q : Nat) (rxLt : LT) (rxStatus : BitVec 16) (inPort cls : Nat) (owner : Tag) (ecn : Bool) :
    List Byte :=
  bytesLE 8 rxLt.toNat ++ bytesLE 2 0 ++ bytesLE 2 rxStatus.toNat ++
  [BitVec.ofNat 8 inPort, BitVec.ofNat 8 cls, BitVec.ofNat 8 owner,
   BitVec.ofNat 8 (bitN ecn + 2 * bitN (getQ s q).gapNext)] ++
  bytesLE 4 (getQ s q).seq.toNat ++ bytesLE 8 0 ++ bytesLE 4 0

/-- Whether the header word of a queue's packets is a receive notice: the fabric or PX produces them (R188, R192). -/
def qIsRx (t : Tab Nat QueueCfg) (q : Nat) : Bool :=
  decide (q ≤ 0x07) || decide (0x10 ≤ q ∧ q ≤ 0x13) || q == 0x16 || q == 0x17 || q == 0x1A || decide (0x20 ≤ q ∧ q ≤ 0x2B) ||
  q == 0x40 || (decide (0x41 ≤ q) && (qCfg t q).toHost == some true)

/-- R190: a rewind frees the open packet's words; one by QM itself also sets HW_REWIND. -/
def rewindOpen (q : Nat) (hw : Bool) (s : State) : State :=
  if (getQ s q).openPkt.isNone then s else
  let s := modQ q (fun x => { x with openPkt := none, gapNext := true, hwRewind := x.hwRewind || hw, ctr := vadd x.ctr 2 1 }) s
  { s with qm := { s.qm with badPkt := s.qm.badPkt || hw } }

/-- A producer's unit added to the open packet (R188); more than 10,240 payload bytes rewind it (R190). -/
def writeUnit (q : Nat) (bytes : List Byte) (s : State) : State :=
  match (getQ s q).openPkt with
  | none => s
  | some p =>
    if p.payload.length + bytes.length > 10240 then rewindOpen q true s
    else modQ q (fun x => { x with openPkt := some { p with payload := p.payload ++ bytes } }) s

/-- Payload bytes in 32-byte words, the last one marked (R188). -/
def payloadWords (tag : Tag) (epoch : Nat) : Nat → List Byte → List QWord
  | 0, _ => []
  | _ + 1, [] => []
  | n + 1, bs =>
    { data := bs.take 32, last := decide (bs.length ≤ 32), tag := tag, epoch := epoch } :: payloadWords tag epoch n (bs.drop 32)

/-- The fields of a transmit descriptor (R191). -/
structure Desc where
  dest : BitVec 16 := 0
  maskEn : Bool := false
  tsReq : Bool := false
  tsId : BitVec 12 := 0
  cls : Nat := 0
  length : Nat := 0
  deriving DecidableEq, Repr

/-- A transmit descriptor read from a header word (R191). -/
def readDesc (h : List Byte) : Desc :=
  let w (o n : Nat) := ofBytesLE ((h.drop o).take n)
  { dest := BitVec.ofNat 16 (w 0 2), maskEn := w 2 2 % 2 == 1, tsReq := w 2 2 / 2 % 2 == 1, tsId := BitVec.ofNat 12 (w 4 2),
    cls := w 6 1 % 8, length := w 8 2 }

/-- A transmit descriptor as a header word (R191). -/
def descBytes (d : Desc) : List Byte :=
  bytesLE 2 d.dest.toNat ++ bytesLE 2 (bitN d.maskEn + 2 * bitN d.tsReq) ++ bytesLE 2 d.tsId.toNat ++
  [BitVec.ofNat 8 d.cls, 0] ++ bytesLE 2 d.length ++ List.replicate 22 0

/-- Why QM rewinds a packet at its end (R190): LENGTH differs from the payload, or a destination lies outside the owner's
share; the second is the DENIED a host producer receives. -/
def endRefusal (s : State) (q : Nat) (p : OpenPkt) : Option Status :=
  if qIsRx s.qm.cap q then none
  else
    let d := readDesc p.header
    if d.length ≠ p.payload.length then some .badParam
    else if p.owner ≠ 0 ∧ d.maskEn ∧ effMask s d.dest &&& ~~~(s.im.inst.getD p.owner {}).shares.ports ≠ 0 then some .denied
    else none

/-- The producer's end mark (R189): the packet becomes visible, or QM rewinds it (R190); one committed to a fabric-bound
queue wakes PD2 (R540). -/
def endPacket (q : Nat) (s : State) : State × Status :=
  match (getQ s q).openPkt with
  | none => (s, .badParam)
  | some p =>
    match endRefusal s q p with
    | some e => (rewindOpen q true s, e)
    | none =>
      let header := if qIsRx s.qm.cap q then splice (splice p.header 0x14 (bytesLE 8 s.now.toNat)) 0x08 (bytesLE 2 p.payload.length) else p.header
      let ws : List QWord :=
        { data := header, last := p.payload.isEmpty, tag := p.owner, epoch := p.epoch } :: payloadWords p.owner p.epoch 321 p.payload
      let s := if qIsRx s.qm.cap q then s else wakeDomain true 2 s
      (modQ q (fun x => { x with openPkt := none, words := x.words ++ ws, ctr := vadd x.ctr 0 1,
                                 gapNext := if qIsRx s.qm.cap q then false else x.gapNext }) s, .ok)

/-- A whole packet written at once: opened, filled and ended. -/
def sendPacket (q : Nat) (o : Tag) (header payload : List Byte) (s : State) : State × Status :=
  match openPacket q o header s with
  | (s, false) => (s, .quota)
  | (s, true) =>
    let s := writeUnit q payload s
    if (getQ s q).openPkt.isNone then (s, .badParam) else endPacket q s

/-- The words of the first packet from a position. -/
def packetAt : List QWord → List QWord
  | [] => []
  | w :: ws => if w.last then [w] else w :: packetAt ws

/-- How many of the first `rd` words belong to whole packets, and how many packets they are (R193). -/
def wholeBefore (ws : List QWord) (rd : Nat) : Nat × Nat :=
  (ws.take rd).foldl
    (fun (a : Nat × Nat × Nat) w => if w.last then (a.2.2 + 1, a.2.1 + 1, a.2.2 + 1) else (a.1, a.2.1, a.2.2 + 1))
    (0, 0, 0) |> fun a => (a.1, a.2.1)

/-- R193 RELEASE: every whole packet before the read position is freed; the mark stays or moves up to the release position. -/
def releaseQ (q : Nat) (s : State) : State :=
  modQ q (fun x =>
    let (n, pkts) := wholeBefore x.words x.rd
    { x with words := x.words.drop n, rd := x.rd - n, mark := x.mark - n, ctr := vadd x.ctr 1 pkts }) s

/-- Every visible word freed and the open packet rewound, and with the packets of an output queue whose frames they are (R195, R198, R221, R525). -/
def flushQ (q : Nat) (s : State) : State :=
  onFo (fun f => { f with gateFifo := f.gateFifo.del q }) (modQ q (fun x => { x with words := [], rd := 0, mark := 0 }) (rewindOpen q false s))

/-- The consumer takes the first whole packet: its words are read and released (R193). -/
def takePacket (q : Nat) (s : State) : List QWord × State :=
  let ws := packetAt (getQ s q).words
  (ws, releaseQ q (modQ q (fun x => { x with rd := ws.length }) s))

/-- The bytes of a packet's payload. -/
def payloadOf (ws : List QWord) : List Byte := (ws.drop 1).flatMap (·.data)

/-- The header word of a packet. -/
def headerOf (ws : List QWord) : List Byte := ((ws.head?).map (·.data)).getD []

/-- What an uncorrectable guard error in a queue word does in QM (R190, R195). -/
def queueGuard (tag : Tag) (h : GuardHit) (s : State) : State :=
  foGuardError <| raise 0x20 tag (onQm (fun x => { x with guardErr := true }) (guardUncorrectable 0x3 0x4 tag h s))

/-- A word of an older tag epoch than its owner's: the consumer discards its packet and counts it (R195, R524). -/
def epochStale (s : State) (w : QWord) : Bool := w.tag != 0 && w.epoch != epochOf s w.tag

/-- A discard by epoch mismatch (R524). -/
def epochDiscard (o : Tag) (s : State) : State :=
  onIm (fun x => { x with epochDisc := true, inst := x.inst.upd o {} (fun i => { i with epochDiscards := i.epochDiscards + 1 }) }) s

end Sys2Proof.Machine
end

