-- ==== Sys2Proof/Machine/Cyclic.lean ====
section
/-! DEFINITION. Meanings of the events of cyclic execution (chapters 11, 12): base ticks, windows, frames, cycles, run states,
the dispatcher and the reload of a cluster. -/

namespace Sys2Proof.Machine

/-- The major-frame boundary: TCU2 fires and a frame starts at its target (R357). -/
def majorFrame (s : State) : State :=
  let b := ltSub (nextTarget s.now (getTcu s 2).target (getTcu s 2).period.toNat) (getTcu s 2).period.toNat
  startFrame b (fireTcu 2 s)

/-- MAJOR_FRAME_START (R357, R361). -/
def execMajorFrameStart (s : State) : Res := if tcuDue s 2 then .next (majorFrame s) else .next s

/-- BASE_TICK (R357): windows whose end has come close, those that start on the tick open, and the PERIODIC tasks whose release
point it is are released. At a frame boundary the frame starts first; before the first frame there is nothing to open or release. -/
def execBaseTick (s : State) : Res :=
  if !tcuDue s 1 then .next s else
  let t := ltSub (nextTarget s.now (getTcu s 1).target (getTcu s 1).period.toNat) (getTcu s 1).period.toNat
  let s := fireTcu 1 s
  let s := if tcuDue s 2 then majorFrame s else s
  if !s.fb.framed then .next s else
  .next (releasePeriodic t (openWindows ((ltDiff t s.fb.frameLt).toNat / tickTu) (closeDue s)))

/-- WINDOW_END (R360). -/
def execWindowEnd (e : Fin 48) (s : State) : Res :=
  if (getEng s e.val).win.isSome && ltReached s.now (getEng s e.val).winEnd then .next (closeWindow e.val s) else .next s

/-! ## A cycle (R366–R368) -/

/-- The order of released cycles of one owner on an engine: PRIO, task number, release (R366). -/
def cycleFirst (l : List (Nat × Task)) : Option (Nat × Task) := (sortBy (fun e => e.2.cfg.prio * 256 + e.1) l).head?

/-- CYC_DT (R364). -/
def cycleDt (s : State) (k : Task) : BitVec 64 :=
  match k.cfg.kind with
  | .periodic p _ => BitVec.ofNat 64 (usTu p)
  | .sample g m _ => BitVec.ofNat 64 (m * secTu 1 / (vget s.se.group g {}).cfg.rate)
  | .timed u => if (getTcu s u).periodic then (getTcu s u).period.zeroExtend 64 else 0

/-- TCLK of the cycle to come (R377). -/
def cycleTclk (k : Task) (cycLt : LT) (dt : BitVec 64) : LT :=
  if k.firstCycle then cycLt
  else if k.releasedStep ∨ k.paused then k.lastTclk + dt
  else k.lastTclk + (cycLt - k.lastCycLt)

/-- TIMEQ (R318). -/
def timeQ (s : State) : BitVec 64 :=
  BitVec.ofNat 64 (bitN s.tb.taiValid + 2 * bitN (s.tb.servo == .locked) + 4 * bitN s.tb.ltUncertain + (timeErrBound s).toNat * 2 ^ 32)

/-- The snapshot of one import point (R331, R367, R397): as presented; a refused read is counted and returns no data, so that what
the slot holds is open (log 23). -/
def importPoint (o : Tag) (i : Nat) (s : State) : PointRec × State :=
  match pointReadable s o i, presented s i with
  | true, some r => (r, s)
  | _, _ =>
    let (n, s) := draw (readDenied s)
    ({ value := BitVec.ofNat 64 n, lt := BitVec.ofNat 64 (n / 2 ^ 64), quality := BitVec.ofNat 16 (n / 2 ^ 128),
       flags := BitVec.ofNat 16 (n / 2 ^ 144), owner := n / 2 ^ 160 % 256 }, s)

/-- The snapshot of an import table. -/
def importAll (o : Tag) : List Nat → State → List PointRec × State
  | [], s => ([], s)
  | i :: l, s =>
    let (r, s) := importPoint o i s
    let (rs, s) := importAll o l s
    (r :: rs, s)

/-- A released cycle of a task starts on engine e, and its snapshot begins (R366, R367). -/
def startCycle (e : Nat) (o t : Nat) (s : State) : State :=
  let k := getTask s o t
  let cycLt := ((k.released.map (·.2)).getD 0)
  let dt := cycleDt s k
  let tclk := cycleTclk k cycLt dt
  let (imports, s) := importAll o k.entry.imports s
  let rx := k.inbox.take k.entry.rxCount
  let cyc : Cycle :=
    { task := t, owner := o, snap := true, ts := s.now, cycLt := cycLt, tclk := tclk, cycDt := dt, cycNo := k.cycNo,
      qstat := BitVec.ofNat 64 (k.qsent.toNat + k.qrefused.toNat * 2 ^ 16), rxCount := BitVec.ofNat 64 rx.length, timeq := timeQ s,
      pc := k.entry.entry, stepped := k.releasedStep, lastStep := k.releasedLast, imports := imports, expTab := k.entry.exports,
      nExp := k.entry.exports.length, rx := rx }
  let s := modEng e (fun g => { g with cycle := some cyc, lastOwner := o, lastTask := BitVec.ofNat 8 t }) s
  modTask o t (fun k => { k with
    released := none, releasedStep := false, releasedLast := false, lastStart := s.now, lastCycLt := cycLt, lastTclk := tclk,
    tclkOfs := tclk - cycLt, firstCycle := false, paused := false, cycNo := k.cycNo + 1, inbox := k.inbox.drop rx.length }) s

/-- CYCLE_START (R366): on engine e, of the owner whose window is open, once the engine is free and no data region of that owner is
being formed, the first released cycle in order starts, unless its task's own previous output write is still to come. -/
def execCycleStart (e : Fin 48) (s : State) : Res :=
  let eng := getEng s e.val
  match eng.win with
  | none => .next s
  | some w =>
    if eng.cycle.isSome ∨ eng.domain ≠ .on ∨ (vget s.fb.cl (e.val / 8) {}).reload ∨ ltReached s.now eng.winEnd ∨ !ltReached s.now eng.freeAt ∨
        eng.copying.any (fun c => c.1 == w.owner && !ltReached s.now c.2) then .next s
    else
      let l := (s.fb.tasks.filter (fun x => x.1.1 == w.owner && x.2.engine == e.val && x.2.released.isSome && x.2.state == .active)).map
        (fun x => (x.1.2, x.2))
      match cycleFirst l with
      | none => .next s
      | some (t, k) => if k.pendingW then .next s else .next (startCycle e.val w.owner t s)

/-- The receive entries written into the receive area, each at its place; bytes beyond a packet keep their content (R343, log 23). -/
def writeRx (r : TaskEntry) : Nat → List (List Byte) → Memory → Memory
  | _, [], m => m
  | n, p :: l, m => writeRx r (n + 1) l (m.writeN (r.rxAddr + n * r.rxSize) p)

/-- SNAPSHOT_DONE (R316, R343, R367): after T_snap the receive area is filled, the registers are set and execution begins. -/
def execSnapshotDone (e : Fin 48) (s : State) : Res :=
  match (getEng s e.val).cycle with
  | none => .next s
  | some cyc =>
    if !cyc.snap ∨ !ltReached s.now (cycInstant cyc 0) then .next s
    else
      let k := (getTask s cyc.owner cyc.task).entry
      .next (modEng e.val (fun g => { g with
        cycle := some { cyc with snap := false, elapsed := 32, flags := 0 }, stack := [],
        v := (Vector.replicate 64 0).setIfInBounds 62 (k.v62.zeroExtend 64), mem := writeRx k 0 cyc.rx g.mem }) s)

/-- The packets of a slice opened in QSEND order; each is sent, or refused under R186 or R190 and discarded (R344, R345). -/
def openSends (k : Nat) (o : Tag) : List (Bool × List Byte) → State → Nat × Nat × State
  | [], s => (0, 0, s)
  | p :: l, s =>
    let (s, x) := sendPacket (0x2C + 2 * k + bitN p.1) o (p.2.take 32) (p.2.drop 32) s
    let (a, b, s) := openSends k o l s
    if x = .ok then (a + 1, b, s) else (a, b + 1, s)

/-- OUTPUT_WRITE (R344, R345, R368, R375): the exports become visible together, the packets are opened, and the last stepped cycle
returns its owner to HOLD. -/
def execOutputWrite (e : Fin 48) (s : State) : Res :=
  match (getEng s e.val).pendingW.find? (fun p => ltReached s.now p.w) with
  | none => .next s
  | some p =>
    let mine (b : Batch) : Bool := b.src == .engine e.val && b.visible == some p.w
    let ws := ((allBatches s).filter mine).flatMap (·.writes)
    let s := applyOutput ws (dropBatches mine s)
    let s := onFo (fun f => { f with outTs := ws.foldl (fun t w => t.put w.index p.ts) f.outTs }) s
    let (sent, ref, s) := openSends (e.val / 8) p.owner p.sends s
    let refused := ref + p.qref.toNat
    let s := countUnsent (e.val / 8) refused (modCl (e.val / 8) (fun c => { c with txSent := c.txSent + BitVec.ofNat 64 sent }) s)
    let s := modEng e.val (fun g => { g with pendingW := g.pendingW.erase p }) s
    let s := modTask p.owner p.task (fun t => { t with pendingW := false, qsent := BitVec.ofNat 16 sent, qrefused := BitVec.ofNat 16 refused }) s
    .next (if p.lastStep then stepDone p.owner s else s)

/-! ## Run states (R373–R376) -/

/-- Whether a requested change is one of the table from a state (R375). -/
def runAllowed (c : RunCmd) (st' : RunState) : Option Status :=
  match c, st' with
  | .runWarm, .stop => none
  | .runWarm, .hold => none
  | .runWarm, .step => some .busy
  | .runCold, .stop => none
  | .runCold, .hold => none
  | .runCold, .step => some .busy
  | .hold, .run => none
  | .hold, .step => some .busy
  | .stop, .run => none
  | .stop, .hold => none
  | .stop, .step => none
  | .step _ _, .hold => none
  | .limitStop, .run => none
  | .limitStop, .step => none
  | _, _ => some .notReady

/-- A change of run state made at a boundary (R374, R375). -/
def applyRun (o : Tag) (c : RunCmd) (t : LT) (s : State) : State :=
  let policy (s : State) : State := if (s.fb.own.getD o {}).invalidate then stopInvalidate o t s else s
  match c with
  | .runCold => runCold o none t s
  | .runWarm => setRun o .run none t (modOwnerTasks o (fun k => { k with limitHit := false, state := if k.state = .stopped then .active else k.state }) s)
  | .hold => setRun o .hold (some .command) t s
  | .stop => policy (setRun o .stop (some .command) t s)
  | .step k n => setRun o .step none t (onFb (fun x => { x with own := x.own.upd o {} (fun r => { r with stepTask := k, stepLeft := BitVec.ofNat 8 n }) }) s)
  | .limitStop => policy (setRun o .stop (some .faultLimit) t s)

/-- A requested change takes effect at the boundary that opened the present frame, or should have at an earlier one: the first at least 10 µs
after SU executed the command, for a stop by fault limit the next (R375). -/
def runDue (s : State) (r : RunReq) : Bool :=
  decide ((if r.cmd = .limitStop then 1 else (usTu 10 : Int)) ≤ ltDiff s.fb.frameLt r.at_)

/-- RUN_STATE_CHANGE (R375): the oldest request of the owner that is due takes effect; the reply is written. -/
def execRunStateChange (o : Nat) (s : State) : Res :=
  match (s.fb.own.getD o {}).pending.find? (runDue s) with
  | none => .next s
  | some r =>
    if !s.fb.running then .next s
    else
      let s := onFb (fun x => { x with own := x.own.upd o {} (fun y => { y with pending := y.pending.erase r }) }) s
      let ans (b : ReplyBody) (s : State) : State := match r.reply with
        | some w => reply w b s
        | none => s
      match runAllowed r.cmd (s.fb.own.getD o {}).state with
      | some x => .next (ans (st x) s)
      | none => .next (ans (st .ok) (applyRun o r.cmd s.fb.frameLt s))

/-! ## Dispatcher and reload -/

/-- A packet that is dropped at an inbox (R341). -/
def rxDrop (k : Nat) (o : Tag) (s : State) : State :=
  raise 0x4A o (onFb (fun x => { x with rxDrop := true }) (modCl k (fun c => { c with rxDrop := c.rxDrop + 1 }) s))

/-- The task of a number on an engine, in the order of R387. -/
def taskOn (s : State) (e t : Nat) : Option (Tag × TaskEntry) := (taskEntries s e).find? (fun x => x.2.task == t)

/-- INBOX_DISPATCH (R341, R342): the dispatcher of cluster k takes the oldest packet of an inbound queue and copies it, with its
notice, into the inbox of the task that the lowest matching entry names. A packet with a word in error, or of an older tag epoch, is
discarded (R195, R524). -/
def execInboxDispatch (k : Fin 6) (odd : Bool) (guard : Option GuardFind) (s : State) : Res :=
  let q := 0x20 + 2 * k.val + bitN odd
  if (getQ s q).words.isEmpty ∨ (getEng s (8 * k.val)).domain ≠ .on then .next s else
  let (ws, s) := takePacket q s
  let tag := ((ws.head?).map (·.tag)).getD 0
  let (guard, s) := guardRead 0x3 guard s
  match guard with
  | some h => .next (queueGuard tag h s)
  | none =>
    if ws.any (epochStale s) then .next (epochDiscard tag s)
    else
      let f : Frame := { bytes := payloadOf ws }
      match (vget s.fb.cl k.val {}).rxmap.find? (fun r => r.valid && r.odd == odd && r.etype == f.etype &&
          (match r.dst with
           | some m => m == f.dst
           | none => true)) with
      | none => .next (modCl k.val (fun c => { c with rxNomatch := c.rxNomatch + 1 }) s)
      | some r =>
        match taskOn s (8 * k.val + r.engine.val) r.task with
        | none => .next (modCl k.val (fun c => { c with rxNomatch := c.rxNomatch + 1 }) s)
        | some (o, t) =>
          let pkt := headerOf ws ++ payloadOf ws
          if t.rxSize < pkt.length ∨ 2 * t.rxCount ≤ (getTask s o t.task).inbox.length then .next (rxDrop k.val o s)
          else .next (modCl k.val (fun c => { c with rxPackets := c.rxPackets + 1 })
            (modTask o t.task (fun x => { x with inbox := x.inbox ++ [pkt] }) s))

/-- ENGINE_RELOAD_DONE (R315, R376): cluster k has reloaded; its engines start cycles again, and every task on them takes its next
cycle as a first one. -/
def execEngineReloadDone (k : Fin 6) (s : State) : Res :=
  if !(vget s.fb.cl k.val {}).reload then .next s else
  let es := (List.range 8).map (8 * k.val + ·)
  let s := es.foldl (fun s e => modEng e (fun g => { g with domain := .on }) (loadEngine e s)) s
  let s := modCl k.val (fun c => { c with reload := false }) s
  .next (readiness (onFb (fun x => { x with up := true, tasks := x.tasks.map (fun e =>
    if es.contains e.2.engine then (e.1, { e.2 with firstCycle := true }) else e) }) s))

end Sys2Proof.Machine
end

