-- ==== Sys2Proof/Machine/FbCommands.lean ====
section
/-! DEFINITION. Meanings of the FB opcodes (R356, R388), and what a commit does to the engines and tasks (R361, R379, R380). -/

namespace Sys2Proof.Machine

/-! ## Code images in a configuration (R352) -/

/-- The engine entries of a configuration on engine e, with their owners. -/
def viewEngine (view : List Item) (e : Nat) : List (Tag × EngineEntry) :=
  (viewCode view).flatMap (fun i => (i.2.engines.filter (fun x => x.engine.val == e)).map (fun x => (i.1, x)))

/-- The owner of a region that overlaps another owner's on one engine, or of one of more than 32 task entries (R313, R352). -/
def engineClash (l : List (Tag × EngineEntry)) : Option Nat :=
  if 32 < (l.map (fun x => x.2.tasks.length)).sum then (l.head?).map (·.1) else
  (l.find? (fun x => l.any (fun y => x.1 != y.1 &&
    (overlaps x.2.codeBase x.2.code.length y.2.codeBase y.2.code.length ||
     overlaps x.2.dataBase x.2.data.length y.2.dataBase y.2.data.length)))).map (·.1)

/-- Point-cache entries of cluster k (R352, R354). -/
def clusterEntries (view : List Item) (k : Nat) : Nat :=
  (((List.range 8).flatMap (fun j => viewEngine view (8 * k + j))).flatMap (fun x => x.2.tasks.map (fun t => t.imports.length + t.exports.length))).sum

/-- R352, R630: the conditions of FB_STAGE_CODE that involve other owners' images; the offending owner. -/
def codeCond (view : List Item) : Option Nat :=
  match (List.range 48).findSome? (fun e => engineClash (viewEngine view e)) with
  | some o => some o
  | none => if (List.range 6).any (fun k => 8192 < clusterEntries view k) then ((viewCode view).head?).map (·.1) else none

/-- The code and data limits an owner has on an engine, if the engine is in its share (R518). -/
def engineShare (s : State) (o : Tag) (e : Nat) : Option (Nat × Nat) :=
  if o = 0 then some (8192, 131072)
  else ((s.im.inst.getD o {}).shares.engines.find? (fun x => x.1 == e)).map (·.2)

/-- What FbStageCode refuses, over the session's view with its items laid in (R626, R630). -/
def checkFbStageCode (c : Cmd) (img : CodeImage) (view : List Item) (s : State) : Option Status :=
  if issuer c ≠ 0 ∧ (img.owner ≠ issuer c ∨ img.engines.any (fun x => (engineShare s (issuer c) x.engine.val).isNone)) then some .denied
  else if !imageOk img || (codeCond view).isSome then some .badParam
  else if img.engines.any (fun x => match engineShare s img.owner x.engine.val with
      | some (a, b) => decide (a < x.code.length ∨ b < x.data.length)
      | none => false) then some .quota
  else none

/-- FB_STAGE_CODE (R349, R352, R356): the image of its parameter buffer; of a malformed one nothing else is judged (log 139). -/
def execFbStageCode (c : Cmd) (raw : List Byte) (s : State) : Res :=
  match decodeImage raw with
  | some img => stage 0x0901 true c [.code img.owner img] (checkFbStageCode c img) s
  | none => stage 0x0901 true c [] (fun _ _ => some .badParam) s

/-- FB_STAGE_RXMAP (R341). -/
def execFbStageRxmap (c : Cmd) (l : List (Fin 6 × Fin 64 × RxEntry)) (s : State) : Res :=
  stage 0x0902 false c (l.map (fun e => .rxmap e.1 e.2.1 e.2.2)) (fun _ _ => none) s

/-! ## Schedule, tasks, retained ranges -/

/-- The major frame of a configuration in base ticks; 10 ms by default (R357). -/
def viewTicks (view : List Item) : Nat :=
  (view.findSome? (fun i => match i with
    | .frame n => some n
    | _ => none)).getD 1000

/-- What FbStageSchedule refuses, over the session's view with its items laid in (R626, R630). -/
def checkFbStageSchedule (f : Option Nat) (l : List (Fin 48 × List Window)) (_view : List Item) (_s : State) : Option Status :=
  if (match f with
      | some us => decide (us < 1000 ∨ 100000 < us ∨ us % 10 ≠ 0 ∨ 1000000 % us ≠ 0)
      | none => false) || l.any (fun e => decide (256 < e.2.length) || e.2.any (fun w => decide (w.len < 1)))
  then some .badParam else none

/-- FB_STAGE_SCHEDULE (R357, R359): F in µs, and the windows of the engines named. -/
def execFbStageSchedule (c : Cmd) (f : Option Nat) (l : List (Fin 48 × List Window)) (s : State) : Res :=
  let items := (match f with
    | some us => [Item.frame (us / 10)]
    | none => []) ++ l.map (fun e => Item.windows e.1 e.2)
  stage 0x0903 false c items (checkFbStageSchedule f l) s

/-- One task's settings against the table of R362, but for what check 0x9002 judges. -/
def taskCfgOk (view : List Item) (o : Tag) (x : TaskCfg) : Bool :=
  decide (x.prio ≤ 31 ∧ 1 ≤ x.faultLimit ∧ x.faultLimit ≤ 255) &&
  (match x.gate with
   | some g => decide (g ≤ 15)
   | none => true) &&
  (match x.kind with
   | .periodic p φ => decide (φ % 10 = 0 ∧ φ + 10 ≤ max 10 (min p (10 * viewTicks view)))
   | .sample g m k0 => decide (g ≤ 15 ∧ 1 ≤ m ∧ k0 < m)
   | .timed u => view.any (fun i => match i with
      | .tcuAssign a => decide (20 + a.unit.val = u) && a.owner == o && a.dest == 0x26
      | _ => false))

/-- R362, R630: a task whose settings another item has made wrong. -/
def tasksCond (view : List Item) : Option Nat :=
  view.findSome? (fun i => match i with
    | .task o t x => if taskCfgOk view o x then none else some t
    | _ => none)

/-- What FbStageTasks refuses, over the session's view with its items laid in (R626, R630). -/
def checkFbStageTasks (c : Cmd) (o : Tag) (l : List (Nat × TaskCfg)) (view : List Item) (_s : State) : Option Status :=
  if issuer c ≠ 0 ∧ (o ≠ issuer c ∨ l.any (fun e => e.2.diag.isSome)) then some .denied
  else if decide (64 < o) || l.any (fun e => decide (255 < e.1) || !taskCfgOk view o e.2) then some .badParam
  else none

/-- FB_STAGE_TASKS (R362, R374, R376, R388). -/
def execFbStageTasks (c : Cmd) (o : Tag) (l : List (Nat × TaskCfg)) (own : Option OwnerCfg) (s : State) : Res :=
  let items := l.map (fun e => Item.task o e.1 e.2) ++ (match own with
    | some x => [Item.ownerCfg o x]
    | none => [])
  stage 0x0904 true c items (checkFbStageTasks c o l) s

/-- The length of an owner's data region on an engine under a configuration (R379). -/
def viewDataLen (view : List Item) (o : Tag) (e : Nat) : Option Nat :=
  ((viewEngine view e).find? (fun x => x.1 == o)).map (fun x => x.2.data.length)

/-- Retained ranges against the old and the new region (R379). -/
def retainOk (old new : Nat) (l : List RetainRange) : Bool :=
  decide (l.length ≤ 256) && l.all (fun r => decide (r.oldOfs % 8 = 0 ∧ r.newOfs % 8 = 0 ∧ r.len % 8 = 0 ∧ r.oldOfs + r.len ≤ old ∧
    r.newOfs + r.len ≤ new))

/-- R379, R630: retained ranges that lie outside the old or the new region; the offending engine. -/
def retainCond (s : State) (staged view : List Item) : Option Nat :=
  staged.findSome? (fun i => match i with
    | .retain o e l =>
      if retainOk (((regionOf (getEng s e.val) o).map (·.dataLen)).getD 0) ((viewDataLen view o e.val).getD 0) l then none else some e.val
    | _ => none)

/-- What FbStageRetain refuses, over the session's view with its items laid in (R626, R630). -/
def checkFbStageRetain (c : Cmd) (o : Tag) (l : List (Fin 48 × List RetainRange)) (view : List Item) (s : State) : Option Status :=
  let items := l.map (fun e => Item.retain o e.1 e.2)
  if issuer c ≠ 0 ∧ (o ≠ issuer c ∨ l.any (fun e => (engineShare s (issuer c) e.1.val).isNone)) then some .denied
  else if (retainCond s items view).isSome then some .badParam else none

/-- FB_STAGE_RETAIN (R379, R388). -/
def execFbStageRetain (c : Cmd) (o : Tag) (l : List (Fin 48 × List RetainRange)) (s : State) : Res :=
  let items := l.map (fun e => Item.retain o e.1 e.2)
  stage 0x0905 true c items (checkFbStageRetain c o l) s

/-! ## Immediate opcodes -/

/-- How many of the bytes a … a + n − 1 lie in a data region. -/
def overlapLen (r : Region) (a n : Nat) : Nat := min (a + n) (r.dataBase + r.dataLen) - max a r.dataBase

/-- The regions that a byte range of an engine's instance memory touches (R313). -/
def touched (eng : Engine) (a n : Nat) : List Region := eng.regions.filter (fun r => overlapLen r a n != 0)

/-- Every guard word of a byte range carries a tag that admits the requester (R9, R313): to an instance its own, to the manager, for which the
command is the manager path, every owner's; a word outside every region carries 0xFF and admits nobody. -/
def instAdmits (o : Tag) (eng : Engine) (a n : Nat) : Bool :=
  (touched eng a n).all (fun r => o == 0 || r.owner == o) && ((touched eng a n).map (fun r => overlapLen r a n)).sum == n

/-- FB_READ_INST (R9, R314, R315, R356): a byte range of one engine's instance memory, taken when no task cycle of an owner of it runs there. -/
def execFbReadInst (c : Cmd) (e : Fin 48) (a n : Nat) (s : State) : Res :=
  command 0x0910 true c s fun s =>
    let eng := getEng s e.val
    if 131072 < a + n then (s, some (st (if issuer c = 0 then .badParam else .denied)))
    else if !instAdmits (issuer c) eng a n then (tagRefused 4 s, some (st .denied))
    else if eng.domain ≠ .on then (s, some (st .notReady))
    else
      let w : ReadWait := { engine := e.val, owners := (touched eng a n).map (·.owner), first := a, len := n, wait := { cmd := c, opcode := 0x0910 } }
      if readBlocked s w then (onFb (fun x => { x with readWaits := x.readWaits ++ [w] }) s, none)
      else (s, some { status := .ok, buf := .bytes (eng.mem.readN a n) })

/-- A fault record in the field order of R355. -/
def faultBytes (f : TaskFault) : List Byte :=
  [BitVec.ofNat 8 f.code.toNat, f.task, BitVec.ofNat 8 f.owner, 0] ++ bytesLE 4 f.pc.toNat ++ bytesLE 8 f.instr.toNat ++
  bytesLE 8 f.lt.toNat ++ bytesLE 4 f.elapsed.toNat ++ bytesLE 4 f.addr.toNat

/-- FB_READ_FAULT (R356): the last fault record of each of an owner's tasks on an engine; zeros for a task without one. -/
def execFbReadFault (c : Cmd) (o : Tag) (e : Fin 48) (s : State) : Res :=
  command 0x0911 true c s fun s =>
    if issuer c ≠ 0 ∧ o ≠ issuer c then (s, some (st .denied)) else
    let l := (taskEntries s e.val).filter (fun x => x.1 == o)
    (s, some { status := .ok, buf := .bytes (l.flatMap (fun x => faultBytes (((getTask s o x.2.task).fault).getD {}))) })

/-- Part n of FbReadCounters (R89). -/
def partFbReadCounters (n : Nat) (s : State) : State × Status × List Byte :=
  if 48 ≤ n then (s, .badParam, []) else
  let g := getEng s n
  (modEng n (fun g => { g with taskCycles := 0, faults := 0, guardCorrected := 0, busyCycles := 0 }) s, .ok,
    bytesLE 8 g.taskCycles.toNat ++ bytesLE 8 g.faults.toNat ++ bytesLE 8 g.guardCorrected.toNat ++ bytesLE 8 g.busyCycles.toNat)

/-- FB_READ_COUNTERS (R356). -/
def execFbReadCounters (c : Cmd) (mask : BitVec 64) (s : State) : Res :=
  multi 0x0912 false c mask partFbReadCounters s

/-- A run-state command (R375): judged against the owner's present state, and again at the boundary, where its reply is written (log 140). -/
def requestRun (op : BitVec 16) (c : Cmd) (o : Tag) (r : RunCmd) (s : State) : State × Option ReplyBody :=
  if issuer c ≠ 0 ∧ o ≠ issuer c then (s, some (st .denied))
  else if 64 < o then (s, some (st .badParam))
  else
    let x := s.fb.own.getD o {}
    match runAllowed r x.state with
    | some e => (s, some (st e))
    | none =>
      (onFb (fun f => { f with own := f.own.put o { x with
        pending := x.pending ++ [{ cmd := r, at_ := s.now, reply := some { cmd := c, opcode := op } }] } }) s, none)

/-- FB_RUN_CTRL with RUN_WARM (R375). -/
def execRunWarm (c : Cmd) (o : Tag) (s : State) : Res := command 0x0913 true c s (requestRun 0x0913 c o .runWarm)

/-- FB_RUN_CTRL with RUN_COLD (R375). -/
def execRunCold (c : Cmd) (o : Tag) (s : State) : Res := command 0x0913 true c s (requestRun 0x0913 c o .runCold)

/-- FB_RUN_CTRL with STOP (R375). -/
def execFbRunCtrlStop (c : Cmd) (o : Tag) (s : State) : Res := command 0x0913 true c s (requestRun 0x0913 c o .stop)

/-- FB_RUN_CTRL with HOLD (R375). -/
def execFbRunCtrlHold (c : Cmd) (o : Tag) (s : State) : Res := command 0x0913 true c s (requestRun 0x0913 c o .hold)

/-- FB_STEP (R375): c releases of one task, 1–255. -/
def execFbStep (c : Cmd) (o : Tag) (t n : Nat) (s : State) : Res :=
  command 0x0914 true c s fun s =>
    if (issuer c = 0 ∨ o = issuer c) ∧ (n < 1 ∨ 255 < n ∨ (s.fb.tasks.get? (o, t)).isNone) then (s, some (st .badParam))
    else requestRun 0x0914 c o (.step t n) s

/-- KIND codes (R387). -/
def kindCode : TaskKind → Nat
  | .periodic _ _ => 0
  | .sample _ _ _ => 1
  | .timed _ => 2

/-- STATE codes (R387). -/
def taskStateCode : TaskState → Nat
  | .unused => 0 | .active => 1 | .stopped => 2 | .gated => 3

/-- FB_TSKj_STATUS (R387). -/
def tskStatus (t : Nat) (k : Task) : BitVec 32 :=
  pack [(taskStateCode k.state, 0), (kindCode k.cfg.kind, 2), (bitN k.skip, 4), (bitN k.limit, 5), (bitN (taskDiag k), 6), (t % 256, 8),
    (k.owner % 256, 16), (k.consec.toNat, 24)]

/-- The 64-byte record of a task in the layout of R387. -/
def taskBytes (t : Nat) (k : Task) : List Byte :=
  bytesLE 4 (tskStatus t k).toNat ++ bytesLE 4 0 ++ bytesLE 8 k.lastStart.toNat ++ bytesLE 4 k.lastDur.toNat ++ bytesLE 4 k.maxDur.toNat ++
  bytesLE 8 k.tclkOfs.toNat ++ bytesLE 8 k.cycles.toNat ++ bytesLE 8 k.skipped.toNat ++ bytesLE 8 k.overruns.toNat ++ bytesLE 8 k.faults.toNat

/-- FB_READ_TASKS (R388): the records of an owner's tasks, by engine and position; counters are read without clearing. -/
def execFbReadTasks (c : Cmd) (o : Tag) (s : State) : Res :=
  command 0x0915 true c s fun s =>
    if issuer c ≠ 0 ∧ o ≠ issuer c then (s, some (st .denied)) else
    let l := (List.range 48).flatMap (fun e => (taskEntries s e).filter (fun x => x.1 == o))
    (s, some { status := .ok, buf := .bytes (l.flatMap (fun x => taskBytes x.2.task (getTask s o x.2.task))) })

/-! ## Commit (R361, R379, R380) -/

/-- A new data region: initial data, with the retained ranges of the old content laid over it (R379). -/
def formRegion (old : Engine) (oldBase : Nat) (x : EngineEntry) (l : List RetainRange) (m : Memory) : Memory :=
  l.foldl (fun m r => m.writeN (x.dataBase + r.newOfs) (old.mem.readN (oldBase + r.oldOfs) r.len)) (m.writeN x.dataBase x.data)

/-- The regions of one owner whose image is staged are formed on engine e at T (R379). -/
def commitRegion (t : LT) (changed : List Item) (old : Engine) (x : Tag × EngineEntry) (s : State) : State :=
  let e := x.2.engine.val
  let l := (changed.findSome? (fun i => match i with
    | .retain o e' l => if o = x.1 ∧ e'.val = e then some l else none
    | _ => none)).getD []
  let oldBase := ((regionOf old x.1).map (·.dataBase)).getD 0
  modEng e (fun g => loadCode x.2 { g with
    mem := formRegion old oldBase x.2 l g.mem, copying := (x.1, ltAdd t (usTu 2 + nsTu (x.2.data.length / 8))) :: g.copying.filter (fun c => c.1 != x.1) }) s

/-- The code words of a region that is given up or replaced are readable no more (R313). -/
def dropCode (r : Region) (eng : Engine) : Engine := { eng with code := eng.code.filter (fun c => !inCode r c.1) }

/-- The tasks of the images in force, carried across T (R380). -/
def carryTasks (s : State) (changed : List Item) (settings : List Item) : Tab (Nat × Nat) Task :=
  (List.range 48).flatMap fun e => (taskEntries s e).map fun x =>
    let (o, te) := x
    let cfg := (settings.findSome? (fun i => match i with
      | .task o' t c => if o' = o ∧ t = te.task then some c else none
      | _ => none)).getD {}
    let staged := changed.any (fun i => match i with
      | .task o' t _ => o' == o && t == te.task
      | .code o' _ => o' == o
      | _ => false)
    let k : Task := { (s.fb.tasks.getD (o, te.task) {}) with entry := te, engine := e, owner := o, cfg := cfg }
    let fresh := (s.fb.tasks.get? (o, te.task)).isNone
    let state := if fresh ∨ staged then (if gateHolds s k then .gated else .active) else k.state
    ((o, te.task), { k with state := state, limitHit := k.limitHit && !staged })

/-- FB at the commit instant: images, windows, frame, dispatch tables, tasks and owners under the new bank; an owner that is new
takes its staged initial state (R361, R376, R379, R380; log 22). -/
def fbCommit (t : LT) (changed active : List Item) (s : State) : State :=
  let staged (o : Tag) : Bool := changed.any (fun i => match i with
    | .code o' _ => o' == o
    | _ => false)
  let s := closeDue s
  let before := s
  let s := onFb (fun x => { x with images := viewCode active }) s
  let s := (List.range 48).foldl (fun s e =>
    let old := getEng before e
    let s := modEng e (fun g => (old.regions.filter (fun r => staged r.owner)).foldl (fun g r => dropCode r g) g) s
    let s := ((engineEntries s e).filter (fun x => staged x.1)).foldl (fun s x => commitRegion t changed old x s) s
    modEng e (fun g => { g with regions := regionsOf s e }) s) s
  let f := viewTicks active
  let s := if s.fb.running ∧ f ≠ s.fb.ticks then
      modTcu 2 (fun u => { u with period := BitVec.ofNat 63 (f * tickTu), target := if u.target = t then t else ltAdd t (f * tickTu) }) s
    else s
  let s := onFb (fun x => { x with
    ticks := if x.running then f else x.ticks
    windows := active.filterMap (fun i => match i with
      | .windows e l => some (e.val, l)
      | _ => none)
    cl := Vector.ofFn (fun k => { (vget x.cl k.val {}) with
      rxmap := (sortBy (·.1) (active.filterMap (fun i => match i with
        | .rxmap k' n c => if k' = k then some (n.val, c) else none
        | _ => none))).map (·.2) })
    ownCfg := active.filterMap (fun i => match i with
      | .ownerCfg o c => some (o, c)
      | _ => none) }) s
  let s := onFb (fun x => { x with tasks := carryTasks s changed active }) s
  let owners := (0 :: (s.im.inst.filter (fun e => e.2.state != .absent)).map (·.1) ++ s.fb.images.map (·.1)).eraseDups
  owners.foldl (fun s o =>
    let c := s.fb.ownCfg.getD o {}
    let fresh := (s.fb.own.get? o).isNone
    let s := onFb (fun x => { x with own := x.own.upd o {} (fun r => { r with invalidate := c.invalidate }) }) s
    if fresh ∧ s.pa.ended.getLsbD 11 ∧ c.initRun then runCold o (some .startup) t s else s) s

end Sys2Proof.Machine
end

