-- ==== Sys2Proof/Machine/Float.lean ====
section
/-! DEFINITION. IEEE 754 arithmetic of the Tahr engines (R325, R326): exact values rounded once, to nearest even, with the
exceptions of FLAGS. Every NaN result is the one of R325. -/

namespace Sys2Proof

/-- What a floating-point operation raises: invalid, division by zero, overflow, underflow (FLAGS bits 1–4, R318). -/
structure FpEx where
  invalid : Bool := false
  divZero : Bool := false
  overflow : Bool := false
  underflow : Bool := false
  deriving DecidableEq, Repr

/-- The exceptions of two operations together. -/
def FpEx.or (a b : FpEx) : FpEx :=
  { invalid := a.invalid || b.invalid, divZero := a.divZero || b.divZero, overflow := a.overflow || b.overflow,
    underflow := a.underflow || b.underflow }

/-- The exceptions as FLAGS bits. -/
def FpEx.bits (x : FpEx) : BitVec 64 :=
  BitVec.ofNat 64 (2 * bitN x.invalid + 4 * bitN x.divZero + 8 * bitN x.overflow + 16 * bitN x.underflow)

/-- A number: a NaN (signalling or not), an infinity, or a finite value (−1)^neg × m × 2^e. -/
inductive Fp where
  | nan (signalling : Bool)
  | inf (neg : Bool)
  | fin (neg : Bool) (m : Nat) (e : Int)
  deriving DecidableEq, Repr

/-- The NaN of R325. -/
def nan64 : BitVec 64 := 0x7FF8000000000000

/-- A binary format: precision with the hidden bit, and the greatest exponent. -/
structure FpFmt where
  prec : Nat
  emax : Nat
  deriving DecidableEq, Repr

/-- binary64. -/
def fmt64 : FpFmt := { prec := 53, emax := 1023 }

/-- binary32. -/
def fmt32 : FpFmt := { prec := 24, emax := 127 }

/-- The exponent of the unit in the last place of the smallest numbers. -/
def FpFmt.eMin (f : FpFmt) : Int := 2 - (f.emax : Int) - f.prec

/-- The number a bit pattern of a format stands for. -/
def Fp.decode (f : FpFmt) (x : Nat) : Fp :=
  let fb := f.prec - 1
  let frac := x % 2 ^ fb
  let ex := x / 2 ^ fb % (2 * (f.emax + 1))
  let neg := x / (2 ^ fb * (2 * (f.emax + 1))) % 2 == 1
  if ex = 2 * f.emax + 1 then (if frac = 0 then .inf neg else .nan (decide (frac < 2 ^ (fb - 1))))
  else if ex = 0 then .fin neg frac f.eMin
  else .fin neg (frac + 2 ^ fb) (f.eMin + (ex - 1 : Nat))

/-- `m × 2^e` divided by 2^k with rounding to nearest even; `sticky` says that the exact value lies above `m × 2^e`, by less than
one unit. The second component says whether the result is inexact. -/
def roundShift (m k : Nat) (sticky : Bool) : Nat × Bool :=
  let q := m / 2 ^ k
  let r := m % 2 ^ k
  let half := 2 ^ k / 2
  let inexact := r != 0 || sticky
  if k = 0 then (m, sticky)
  else if r > half ∨ (r = half ∧ (sticky ∨ q % 2 = 1)) then (q + 1, inexact) else (q, inexact)

/-- The bit pattern of a format for a sign, biased exponent and fraction. -/
def packBits (f : FpFmt) (neg : Bool) (ex frac : Nat) : Nat :=
  (bitN neg * (2 * (f.emax + 1)) + ex) * 2 ^ (f.prec - 1) + frac

/-- A value (−1)^neg × (m, sticky) × 2^e rounded once to a format, with overflow and underflow. `m` has at least two bits more than
the precision where `sticky` is set. -/
def roundTo (f : FpFmt) (neg : Bool) (m : Nat) (e : Int) (sticky : Bool) : Nat × FpEx :=
  if m = 0 then (packBits f neg 0 0, {}) else
  let len := m.log2 + 1
  let top : Int := e + len - 1
  let emin : Int := 1 - (f.emax : Int)
  let ulp : Int := max (top - (f.prec - 1 : Nat)) f.eMin
  let k := (ulp - e).toNat
  let lift := (e - ulp).toNat
  let (q, inexact) := if lift = 0 then roundShift m k sticky else (m * 2 ^ lift, sticky)
  let (q, ulp) := if q = 2 ^ f.prec then (q / 2, ulp + 1) else (q, ulp)
  let free := roundShift m ((top - (f.prec - 1 : Nat)) - e).toNat sticky
  let tinyAfter := decide (top < emin) && !(decide (top + 1 = emin) && free.1 == 2 ^ f.prec)
  let tiny := decide (top < emin) && (tinyAfter || !Config.tininessAfter)
  let under : FpEx := { underflow := inexact && tiny }
  if q < 2 ^ (f.prec - 1) then (packBits f neg 0 q, under)
  else
    let ex := ulp - f.eMin + 1
    if ex ≥ 2 * f.emax + 1 then (packBits f neg (2 * f.emax + 1) 0, { overflow := true })
    else (packBits f neg ex.toNat (q - 2 ^ (f.prec - 1)), under)

/-- A binary64 result with its exceptions. -/
abbrev F64R := BitVec 64 × FpEx

/-- A rounded binary64 value. -/
def round64 (neg : Bool) (m : Nat) (e : Int) (sticky : Bool) : F64R :=
  let r := roundTo fmt64 neg m e sticky
  (BitVec.ofNat 64 r.1, r.2)

/-- A binary64 number of a register. -/
def f64 (x : BitVec 64) : Fp := Fp.decode fmt64 x.toNat

/-- The binary32 number in bits 31:0. -/
def f32 (x : BitVec 32) : Fp := Fp.decode fmt32 x.toNat

/-- An infinity of binary64. -/
def inf64 (neg : Bool) : BitVec 64 := if neg then 0xFFF0000000000000 else 0x7FF0000000000000

/-- A zero of binary64. -/
def zero64 (neg : Bool) : BitVec 64 := if neg then 0x8000000000000000 else 0

/-- The NaN result, invalid where an operand is signalling or the operation itself is. -/
def nanR (invalid : Bool) : F64R := (nan64, { invalid := invalid })

/-- Whether a number is a signalling NaN. -/
def Fp.isS : Fp → Bool
  | .nan s => s
  | _ => false

/-- Whether a number is a NaN. -/
def Fp.isNan : Fp → Bool
  | .nan _ => true
  | _ => false

/-- A signed integer times 2^e rounded; a zero keeps the sign given. -/
def roundInt (zeroNeg : Bool) (n e : Int) : F64R := if n = 0 then (zero64 zeroNeg, {}) else round64 (decide (n < 0)) n.natAbs e false

/-- The signed mantissa of a finite number. -/
def signed (neg : Bool) (m : Nat) : Int := if neg then -(m : Int) else m

/-- Exact sum of two finite numbers as an integer and an exponent. -/
def sumExact (na : Bool) (ma : Nat) (ea : Int) (nb : Bool) (mb : Nat) (eb : Int) : Int × Int :=
  let e := min ea eb
  (signed na ma * 2 ^ (ea - e).toNat + signed nb mb * 2 ^ (eb - e).toNat, e)

/-- Addition of two numbers. -/
def Fp.addR (a b : Fp) : F64R :=
  match a, b with
  | .nan x, y => nanR (x || y.isS)
  | x, .nan y => nanR (x.isS || y)
  | .inf x, .inf y => if x = y then (inf64 x, {}) else nanR true
  | .inf x, _ => (inf64 x, {})
  | _, .inf y => (inf64 y, {})
  | .fin na ma ea, .fin nb mb eb =>
    let s := sumExact na ma ea nb mb eb
    roundInt (na && nb) s.1 s.2

/-- A number with its sign inverted. -/
def Fp.negate : Fp → Fp
  | .nan s => .nan s
  | .inf n => .inf (!n)
  | .fin n m e => .fin (!n) m e

/-- Multiplication of two numbers. -/
def Fp.mulR (a b : Fp) : F64R :=
  match a, b with
  | .nan x, y => nanR (x || y.isS)
  | x, .nan y => nanR (x.isS || y)
  | .inf x, .inf y => (inf64 (x != y), {})
  | .inf x, .fin y m _ => if m = 0 then nanR true else (inf64 (x != y), {})
  | .fin x m _, .inf y => if m = 0 then nanR true else (inf64 (x != y), {})
  | .fin na ma ea, .fin nb mb eb =>
    if ma = 0 ∨ mb = 0 then (zero64 (na != nb), {}) else round64 (na != nb) (ma * mb) (ea + eb) false

/-- Division of two numbers. -/
def Fp.divR (a b : Fp) : F64R :=
  match a, b with
  | .nan x, y => nanR (x || y.isS)
  | x, .nan y => nanR (x.isS || y)
  | .inf _, .inf _ => nanR true
  | .inf x, .fin y _ _ => (inf64 (x != y), {})
  | .fin x _ _, .inf y => (zero64 (x != y), {})
  | .fin na ma ea, .fin nb mb eb =>
    if mb = 0 then (if ma = 0 then nanR true else (inf64 (na != nb), { divZero := true }))
    else if ma = 0 then (zero64 (na != nb), {})
    else
      let n := ma * 2 ^ 128
      round64 (na != nb) (n / mb) (ea - eb - 128) (n % mb != 0)

/-- The integer square root of a number below 2^256. -/
def isqrt (n : Nat) : Nat :=
  (List.range 128).foldl (fun r k => let t := r + 2 ^ (127 - k); if t * t ≤ n then t else r) 0

/-- Square root of a number. -/
def Fp.sqrtR (a : Fp) : F64R :=
  match a with
  | .nan s => nanR s
  | .inf n => if n then nanR true else (inf64 false, {})
  | .fin n m e =>
    if m = 0 then (zero64 n, {}) else if n then nanR true
    else
      let (m, e) := if e % 2 = 0 then (m, e) else (m * 2, e - 1)
      let x := m * 2 ^ 160
      let r := isqrt x
      round64 false r (e / 2 - 80) (r * r != x)

/-- A × B + C rounded once. -/
def Fp.fmaR (a b c : Fp) : F64R :=
  match a, b with
  | .fin na ma ea, .fin nb mb eb =>
    match c with
    | .nan s => nanR s
    | .inf n => (inf64 n, {})
    | .fin nc mc ec =>
      let s := sumExact (na != nb) (ma * mb) (ea + eb) nc mc ec
      roundInt ((na != nb) && nc) s.1 s.2
  | _, _ =>
    let p := a.mulR b
    let snan := a.isS || b.isS || c.isS
    if a.isNan || b.isNan || c.isNan then
      nanR (snan || (p.2.invalid && (!c.isNan || Config.fmaInvalidNan)))
    else
      match f64 p.1, c with
      | .nan _, _ => nanR true
      | .inf x, .inf y => if x = y then (inf64 x, {}) else nanR true
      | .inf x, _ => (inf64 x, {})
      | _, _ => nanR true

/-- The order of two numbers that are not NaN: −1, 0 or 1. -/
def Fp.order (a b : Fp) : Int :=
  match a, b with
  | .inf x, .inf y => if x = y then 0 else if x then -1 else 1
  | .inf x, _ => if x then -1 else 1
  | _, .inf y => if y then 1 else -1
  | .fin na ma ea, .fin nb mb eb => (sumExact na ma ea (!nb) mb eb).1.sign
  | _, _ => 0

/-- The sign of a number. -/
def Fp.neg : Fp → Bool
  | .nan _ => false
  | .inf n => n
  | .fin n _ _ => n

/-- IEEE 754-2019 minimum (less := true) or maximum of two registers: −0 lies below +0, and a NaN operand gives NaN (R325). -/
def minMax (less : Bool) (x y : BitVec 64) : F64R :=
  let a := f64 x
  let b := f64 y
  if a.isNan || b.isNan then nanR (a.isS || b.isS)
  else
    let o := a.order b
    let first := if o = 0 then (if less then a.neg else !a.neg) else (if less then decide (o < 0) else decide (0 < o))
    (if first then x else y, {})

/-- The relations of FCMPEQ, FCMPLT and FCMPLE. -/
inductive FpRel where
  | eq
  | lt
  | le
  deriving DecidableEq, Repr

/-- A comparison (R325): 0 with a NaN. A signalling NaN is invalid; whether a quiet one is, for LT and LE, is not stated (log 16). -/
def fpCompare (r : FpRel) (x y : BitVec 64) : F64R :=
  let a := f64 x
  let b := f64 y
  if a.isNan || b.isNan then (0, { invalid := a.isS || b.isS || (r != .eq && Config.compareSignals) })
  else
    let o := a.order b
    (BitVec.ofNat 64 (bitN (match r with
      | .eq => decide (o = 0)
      | .lt => decide (o < 0)
      | .le => decide (o ≤ 0))), {})

/-- INT64 to binary64. -/
def intToF64 (x : BitVec 64) : F64R := roundInt false x.toInt 0

/-- binary64 to INT64: nearest even, saturated; a NaN gives 0. A NaN or a value out of range is invalid (R325). -/
def f64ToInt (x : BitVec 64) : F64R :=
  match f64 x with
  | .nan _ => (0, { invalid := true })
  | .inf n => (if n then 0x8000000000000000 else 0x7FFFFFFFFFFFFFFF, { invalid := true })
  | .fin n m e =>
    let q := if e ≥ 0 then m * 2 ^ e.toNat else (roundShift m (-e).toNat false).1
    let v := signed n q
    if v > 9223372036854775807 then (0x7FFFFFFFFFFFFFFF, { invalid := true })
    else if v < -9223372036854775808 then (0x8000000000000000, { invalid := true })
    else (BitVec.ofInt 64 v, {})

/-- binary32 to binary64. -/
def f32ToF64 (x : BitVec 32) : F64R :=
  match f32 x with
  | .nan s => nanR s
  | .inf n => (inf64 n, {})
  | .fin n m e => if m = 0 then (zero64 n, {}) else round64 n m e false

/-- binary64 to binary32 in bits 31:0; a NaN gives the quiet NaN of binary32 (log 16). -/
def f64ToF32 (x : BitVec 64) : BitVec 32 × FpEx :=
  match f64 x with
  | .nan s => (0x7FC00000, { invalid := s })
  | .inf n => (if n then 0xFF800000 else 0x7F800000, {})
  | .fin n m e => let r := roundTo fmt32 n m e false; (BitVec.ofNat 32 r.1, r.2)

/-- Binary operations on registers. -/
def fadd (x y : BitVec 64) : F64R := (f64 x).addR (f64 y)
def fsub (x y : BitVec 64) : F64R := (f64 x).addR (f64 y).negate
def fmul (x y : BitVec 64) : F64R := (f64 x).mulR (f64 y)
def fdiv (x y : BitVec 64) : F64R := (f64 x).divR (f64 y)
def fsqrt (x : BitVec 64) : F64R := (f64 x).sqrtR
def fmadd (x y z : BitVec 64) : F64R := (f64 x).fmaR (f64 y) (f64 z)

/-- FNEG and FABS; a NaN gives the NaN of R325. -/
def fneg (x : BitVec 64) : BitVec 64 := if (f64 x).isNan then nan64 else x ^^^ 0x8000000000000000
def fabs (x : BitVec 64) : BitVec 64 := if (f64 x).isNan then nan64 else x &&& 0x7FFFFFFFFFFFFFFF

/-- A result whose magnitude is held to a bound given as a positive bit pattern. -/
def holdTo (bound x : BitVec 64) : BitVec 64 :=
  if (f64 x).isNan || (x &&& 0x7FFFFFFFFFFFFFFF).ult bound then (if (f64 x).isNan then 0 else x)
  else (x &&& 0x8000000000000000) ||| bound

/-- Sine: a zero keeps its sign, an infinity is invalid; other results are the implementation's, within [−1, 1] (log 17). -/
def fsin (x : BitVec 64) : F64R :=
  match f64 x with
  | .nan s => nanR s
  | .inf _ => nanR true
  | .fin _ m _ => if m = 0 then (x, {}) else (holdTo 0x3FF0000000000000 (Config.sin64 x), {})

/-- Cosine: of zero it is 1, of an infinity invalid; other results are the implementation's, within [−1, 1] (log 17). -/
def fcos (x : BitVec 64) : F64R :=
  match f64 x with
  | .nan s => nanR s
  | .inf _ => nanR true
  | .fin _ m _ => if m = 0 then (0x3FF0000000000000, {}) else (holdTo 0x3FF0000000000000 (Config.cos64 x), {})

/-- atan2 in (−π, π]: a NaN operand gives NaN; other results are the implementation's, within ±π (log 17). -/
def fatan2 (x y : BitVec 64) : F64R :=
  if (f64 x).isNan || (f64 y).isNan then nanR ((f64 x).isS || (f64 y).isS)
  else (holdTo 0x400921FB54442D18 (Config.atan264 x y), {})

/-- A finite number as a rational. -/
def Fp.rat : Fp → ℚ
  | .fin neg m e => (if neg then -1 else 1) * m * (2 : ℚ) ^ e
  | _ => 0

/-- The unit in the last place of a finite number. -/
def Fp.ulp : Fp → ℚ
  | .fin _ _ e => (2 : ℚ) ^ e
  | _ => 0

/-- A finite number. -/
def Fp.finite : Fp → Prop
  | .fin .. => True
  | _ => False

/-- The accuracy that R325 gives FSIN, FCOS and FATAN2, whose values in `Config` are unknown: within 1 ulp, and for an angle beyond 1,048,576
rad within 2^−40. What a claim needs of it, it takes as this hypothesis (log 17). -/
def trigLimits : Prop :=
  (∀ x, (f64 x).finite →
    let v := ((f64 x).rat : ℝ)
    let lim (r : F64R) : ℝ := if |v| ≤ 1048576 then ((f64 r.1).ulp : ℝ) else 2 ^ (-40 : ℤ)
    |((f64 (fsin x).1).rat : ℝ) - Real.sin v| ≤ lim (fsin x) ∧ |((f64 (fcos x).1).rat : ℝ) - Real.cos v| ≤ lim (fcos x)) ∧
  (∀ x y, (f64 x).finite → (f64 y).finite →
    |((f64 (fatan2 x y).1).rat : ℝ) - Complex.arg ⟨(f64 y).rat, (f64 x).rat⟩| ≤ ((f64 (fatan2 x y).1).ulp : ℝ))

/-! ## Complex numbers (R317, R326) -/

/-- The real part as binary64. -/
def cre (x : BitVec 64) : F64R := f32ToF64 (x.truncate 32)

/-- The imaginary part as binary64. -/
def cim (x : BitVec 64) : F64R := f32ToF64 (x.extractLsb' 32 32)

/-- A complex register from two binary64 components, each rounded once to binary32. -/
def cpack (re im : F64R) : F64R :=
  let a := f64ToF32 re.1
  let b := f64ToF32 im.1
  ((b.1.zeroExtend 64 <<< 32) ||| a.1.zeroExtend 64, ((re.2.or im.2).or a.2).or b.2)

/-- An operation on values that carry exceptions. -/
def lift2 (f : BitVec 64 → BitVec 64 → F64R) (x y : F64R) : F64R :=
  let r := f x.1 y.1
  (r.1, (x.2.or y.2).or r.2)

def cadd (x y : BitVec 64) : F64R := cpack (lift2 fadd (cre x) (cre y)) (lift2 fadd (cim x) (cim y))
def csub (x y : BitVec 64) : F64R := cpack (lift2 fsub (cre x) (cre y)) (lift2 fsub (cim x) (cim y))

def cmul (x y : BitVec 64) : F64R :=
  cpack (lift2 fsub (lift2 fmul (cre x) (cre y)) (lift2 fmul (cim x) (cim y)))
        (lift2 fadd (lift2 fmul (cre x) (cim y)) (lift2 fmul (cim x) (cre y)))

/-- The squared magnitude in binary64. -/
def cnorm (x : BitVec 64) : F64R := lift2 fadd (lift2 fmul (cre x) (cre x)) (lift2 fmul (cim x) (cim x))

/-- Division by the conjugate formula; B = 0 gives each component as a division by zero (R326, log 16). -/
def cdiv (x y : BitVec 64) : F64R :=
  if (cnorm y).1 = 0 then cpack (lift2 fdiv (cre x) (cnorm y)) (lift2 fdiv (cim x) (cnorm y))
  else
    cpack (lift2 fdiv (lift2 fadd (lift2 fmul (cre x) (cre y)) (lift2 fmul (cim x) (cim y))) (cnorm y))
          (lift2 fdiv (lift2 fsub (lift2 fmul (cim x) (cre y)) (lift2 fmul (cre x) (cim y))) (cnorm y))

/-- The conjugate: the sign of the imaginary part inverted. -/
def cconj (x : BitVec 64) : BitVec 64 := x ^^^ 0x8000000000000000

def cmag (x : BitVec 64) : F64R := let n := cnorm x; let r := fsqrt n.1; (r.1, n.2.or r.2)

/-- The argument; of 0 it is 0 (R326). -/
def carg (x : BitVec 64) : F64R := if x &&& 0x7FFFFFFF7FFFFFFF = 0 then (0, {}) else lift2 fatan2 (cim x) (cre x)

def cscl (x y : BitVec 64) : F64R := cpack (lift2 fmul (cre x) (y, {})) (lift2 fmul (cim x) (y, {}))

def cpol (x y : BitVec 64) : F64R := cpack (lift2 fmul (x, {}) (fcos y)) (lift2 fmul (x, {}) (fsin y))

def crot (x y : BitVec 64) : F64R :=
  cpack (lift2 fsub (lift2 fmul (cre x) (fcos y)) (lift2 fmul (cim x) (fsin y)))
        (lift2 fadd (lift2 fmul (cre x) (fsin y)) (lift2 fmul (cim x) (fcos y)))

end Sys2Proof
end

