-- ==== Sys2Proof/Machine/RealOps.lean ====
section
/-! DEFINITION. Arithmetic that FR, PE, AR and MI share: rounded division, binary64 values without their flags, and the merging of
qualities (R211). -/

namespace Sys2Proof.Machine

/-- Division to the nearest integer; how a tie is resolved the spec does not say (log 31). -/
def roundDiv (n : Int) (d : Nat) : Int :=
  let q := n.ediv d
  let r := 2 * (n.emod d)
  if r > d ∨ (r = d ∧ Config.tieUp q) then q + 1 else q

/-- A binary64 number. -/
abbrev F := BitVec 64

/-- Sum. -/
def dadd (x y : F) : F := (fadd x y).1
/-- Difference. -/
def dsub (x y : F) : F := (fsub x y).1
/-- Product. -/
def dmul (x y : F) : F := (fmul x y).1
/-- Quotient. -/
def ddiv (x y : F) : F := (fdiv x y).1
/-- Square root. -/
def dsqrt (x : F) : F := (fsqrt x).1
/-- Sine. -/
def dsin (x : F) : F := (fsin x).1
/-- Cosine. -/
def dcos (x : F) : F := (fcos x).1
/-- Argument of (y, x). -/
def datan2 (y x : F) : F := (fatan2 y x).1
/-- The sum of a list in order. -/
def dsum (l : List F) : F := l.foldl dadd 0
/-- Whether x < y. -/
def dlt (x y : F) : Bool := !(f64 x).isNan && !(f64 y).isNan && decide ((f64 x).order (f64 y) < 0)

/-- A fraction of integers rounded once to binary64. -/
def drat (n : Int) (d : Nat) : F :=
  if n = 0 ∨ d = 0 then 0 else
  let k := 70 + d.log2
  let a := n.natAbs * 2 ^ k
  (round64 (decide (n < 0)) (a / d) (-(k : Int)) (a % d != 0)).1

/-- An integer as binary64. -/
def dint (n : Int) : F := drat n 1

/-- binary32 to binary64. -/
def dsingle (x : BitVec 32) : F := (f32ToF64 x).1
/-- binary64 to binary32. -/
def tosingle (x : F) : BitVec 32 := (f64ToF32 x).1

/-- 2π in binary64. -/
def twoPi : F := 0x401921FB54442D18
/-- π in binary64. -/
def dpi : F := 0x400921FB54442D18

/-- An integer times 2^−fracBits times a binary32 number, as binary32 rounded once to nearest even (R226). -/
def scaleToSingle (v : Int) (fracBits : Nat) (scale : BitVec 32) : BitVec 32 :=
  match f32 scale with
  | .fin n m e => BitVec.ofNat 32 (roundTo fmt32 (n != decide (v < 0)) (v.natAbs * m) (e - fracBits) false).1
  | _ => 0x7FC00000

/-- A finite binary64 number times a power of ten or another integer, rounded to the nearest integer, ties to even. -/
def dround (x : F) : Int :=
  match f64 x with
  | .fin n m e =>
    let v : Nat := if e ≥ 0 then m * 2 ^ e.toNat else (roundShift m (-e).toNat false).1
    signed n v
  | _ => 0

/-- The order of validities good, questionable, invalid (R211). -/
def validityRank (q : Quality) : Nat := if q &&& 3 = 0 then 0 else if q &&& 3 = 3 then 1 else 2

/-- Two qualities merged (R211): the worse validity, and the other bits of either. -/
def mergeQ (a b : Quality) : Quality :=
  let v : Quality := if validityRank a < validityRank b then b &&& 3 else a &&& 3
  ((a ||| b) &&& 0x3FFC) ||| (if v = 2 then 1 else v)

/-- Questionable with inaccurate (R240, R257). -/
def qInaccurate : Quality := 0x203
/-- Questionable with overflow (R240). -/
def qOverflow : Quality := 0x007
/-- Source: substituted (R392). -/
def qSubstituted : Quality := 0x400
/-- Test (R392). -/
def qTest : Quality := 0x800

end Sys2Proof.Machine
end

