-- ==== Sys2Proof/Machine/FilterOps.lean ====
section
/-! DEFINITION. Shared operations of the Filter & Resampler (chapter 08): the stages of a lane, its grids, restarts and the
frequency of a tracking group. -/

namespace Sys2Proof.Machine

/-- A second in tu. -/
def oneSec : Nat := secTu 1

/-- Lane l. -/
def getLane (s : State) (l : Nat) : Lane := s.fr.lane.getD l {}

/-- Lane l changed, where it is listed. -/
def modLane (l : Nat) (f : Lane → Lane) (s : State) : State := onFr (fun x => { x with lane := x.lane.upd l {} f }) s

/-- Tracking group g. -/
def getTrk (s : State) (g : Nat) : TrkGroup := s.fr.trk.getD g {}

/-- Tracking group g changed. -/
def modTrk (g : Nat) (f : TrkGroup → TrkGroup) (s : State) : State := onFr (fun x => { x with trk := x.trk.upd g {} f }) s

/-! ## Presets and tables (R231, R243) -/

/-- A lane's settings with those of its preset filled in (R243). -/
def fillPreset (c : LaneCfg) : LaneCfg :=
  let f (n d m fir proto : Nat) (mode : ResMode) : LaneCfg := { c with n := n, d := d, m := m, fir := fir, proto := proto, mode := mode }
  match c.preset with
  | some 1 => f 3 1 1 0 0 .track
  | some 2 => f 3 1 1 5 0 .track
  | some 3 => f 3 1 1 0 2 .track
  | some 4 => f 3 2 1 1 1 .track
  | some 5 => f 4 8 1 2 2 .track
  | some 6 => f 3 4 2 1 3 .track
  | some 7 => f 3 1 1 0 0 .off
  | some 8 => f 5 20 1 4 0 .off
  | some 9 => f 5 50 2 3 0 .off
  | _ => c

/-- f_in of a preset (R243). -/
def presetRate (n : Nat) : Nat :=
  match n with
  | 1 => 4800 | 2 => 4800 | 3 => 14400 | 4 => 14400 | 5 => 96000 | 6 => 96000 | 7 => 20000000 | 8 => 20000000 | 9 => 10000000 | _ => 0

/-- L of a preset FIR table (R231). -/
def firPresetLen (n : Nat) : Nat :=
  match n with
  | 0 => 1 | 1 => 15 | 2 => 31 | 3 => 31 | 4 => 63 | 5 => 31 | _ => 0

/-- A coefficient held to 24 signed bits (R228). -/
def coef24 (x : Int) : Int := max (-8388608) (min x 8388607)

/-- The coefficients of a FIR table of a configuration (R228, R231): table 0x00 is the identity; those of the other presets are the
implementation's and symmetric (log 33). -/
def firTable (staged : Nat → Option CoefTable) (n : Nat) : List Int :=
  if n = 0 then [4194304]
  else if n ≤ 5 then
    let l := firPresetLen n
    (List.range l).map (fun i => coef24 (Config.firPreset n (min i (l - 1 - i))))
  else ((staged n).map (·.coefs)).getD []

/-- Coefficient m of a prototype of a configuration (R229, R231): h[0] = h[8,192] = 0. -/
def protoCoef (staged : Nat → Option CoefTable) (n m : Nat) : Int :=
  if m = 0 ∨ 8192 ≤ m then 0
  else if n ≤ 3 then coef24 (Config.protoPreset n (min m (8192 - m)))
  else ((staged n).map (fun t => t.coefs.getD m 0)).getD 0

/-- The passband edge of a preset FIR table and the passband and stopband edges of a preset prototype, in 1/100 of f_cic (R231). -/
def firPassEdge (n : Nat) : Nat := if n = 0 then 50 else if n = 4 then 25 else 20
def protoPassEdge (n : Nat) : Nat := [40, 20, 10, 5].getD n 0
def protoStopEdge (n : Nat) : Nat := [55, 35, 25, 20].getD n 0

/-- The limits that R231 sets on the response of the preset prototypes, of which the coefficients in `Config` are unknown: a passband ripple
of ±0.02 dB and a stopband attenuation of 70 dB, at frequencies x × f_cic, with 256 coefficients to a sample. What a claim needs of them it
takes as this hypothesis (log 33). -/
def protoLimits : Prop :=
  ∀ n < 4, ∀ x : ℝ, 0 ≤ x → x ≤ 128 →
    let h := fun m => ((protoCoef (fun _ => none) n m : Int) : ℝ)
    let gain := |∑ m ∈ Finset.range 8192, h m * Real.cos (2 * Real.pi * x * ((m : ℝ) - 4096) / 256)| / (256 * 4194304)
    (100 * x ≤ protoPassEdge n → (10 : ℝ) ^ (-(1 : ℝ) / 1000) ≤ gain ∧ gain ≤ (10 : ℝ) ^ ((1 : ℝ) / 1000)) ∧
    ((protoStopEdge n : ℝ) ≤ 100 * x → gain ≤ (10 : ℝ) ^ (-(7 : ℝ) / 2))

/-- The purpose of the preset FIR tables 0x01–0x04 (R231): within its passband the table raises what a CIC of order N has let droop, so that
the response of the two stages lies nearer to 1 than the CIC's alone. The rule gives no figure; D × M = 1 has no droop (log 33). -/
def firDroop (d m : Nat) : Prop :=
  2 ≤ d * m → ∀ e ∈ [(1, 3), (2, 4), (3, 5), (4, 5)], ∀ x : ℝ, 0 < x → 100 * x ≤ firPassEdge e.1 →
    let l := firPresetLen e.1
    let h := fun i => (((firTable (fun _ => none) e.1).getD i 0 : Int) : ℝ)
    let fir := (∑ i ∈ Finset.range l, h i * Real.cos (2 * Real.pi * x * ((i : ℝ) - ((l : ℝ) - 1) / 2))) / 4194304
    let cic := (Real.sin (Real.pi * x * m) / (d * m * Real.sin (Real.pi * x / d))) ^ e.2
    |fir * cic - 1| ≤ |cic - 1|

/-- The tables in force. -/
def firOf (s : State) (n : Nat) : List Int := firTable (fun k => s.fr.firTab.get? k) n
def protoOf (s : State) (n m : Nat) : Int := protoCoef (fun k => s.fr.protoTab.get? k) n m

/-! ## Delays (R237) -/

/-- 2 × G_in without the resampler: N(DM − 1) + D(L − 1). -/
def delay2 (c : LaneCfg) (l : Nat) : Nat := c.n * (c.d * c.m - 1) + c.d * (l - 1)

/-- 2 × G_in. -/
def gin2 (c : LaneCfg) (l : Nat) : Nat := delay2 c l + (if c.mode = .off then 0 else 32 * c.d)

/-- GD_tu. -/
def gdTu (c : LaneCfg) (l fIn : Nat) : Nat := (roundDiv ((gin2 c l * oneSec : Nat)) (2 * fIn)).toNat

/-! ## Stages (R226–R230) -/

/-- A stage result held to ±2^39 input LSB, with 8 fraction bits (R226); whether it saturated. -/
def clampStage (v : Int) : Int × Bool :=
  let b : Int := 2 ^ 47
  if v > b then (b, true) else if v < -b then (-b, true) else (v, false)

/-- A sum in a 64-bit accumulator with the fraction bits of the products, `n` of which lie below the 30 that FR's formats give (R226): one
that does not fit is the unknown value of the configuration, unless the stage result lies beyond the saturation limit anyway (log 136). -/
def accumulate (n : Nat) (v : Int) : Int :=
  if -2 ^ 63 ≤ v.ediv (2 ^ n) ∧ v.ediv (2 ^ n) < 2 ^ 63 then v
  else if v < -2 ^ (69 + n) ∨ 2 ^ (69 + n) < v then v
  else Config.firOverflow v

/-- A polynomial times 1 + z + … + z^(k−1). -/
def convOnes (k : Nat) (l : List Nat) : List Nat :=
  (List.range (l.length + k - 1)).map (fun i => ((List.range k).map (fun j => if i < j then 0 else l.getD (i - j) 0)).sum)

/-- The coefficients of [(1 − z^(−DM)) / (1 − z^(−1))]^N (R227). -/
def cicCoefs : Nat → Nat → List Nat
  | 0, _ => [1]
  | n + 1, k => convOnes k (cicCoefs n k)

/-- The input sample of an index since the restart; before it the stages are cleared. -/
def laneIn (x : Lane) (i : Int) : Option LaneIn :=
  if i < 0 ∨ (x.inCount : Int) ≤ i then none else x.inputs[x.inCount - 1 - i.toNat]?

/-- Its value. -/
def laneX (x : Lane) (i : Int) : Int := ((laneIn x i).map (·.x)).getD 0

/-- CIC output m, with 8 fraction bits (R226, R227); the gain is 1 within 2^−40 (log 32). -/
def cicOut (x : Lane) (m : Int) : Int × Bool :=
  let c := x.cfg
  let k := c.d * c.m
  if k ≤ 1 then clampStage (256 * laneX x (m * c.d))
  else
    let l := cicCoefs c.n k
    let sum := (((List.range l.length).zip l).map (fun e => (e.2 : Int) * laneX x (m * c.d - e.1))).sum
    let err := max (-1048576) (min (Config.cicErr c.n k) 1048576)
    clampStage (roundDiv (sum * 256 * (2 ^ 60 + err)) (k ^ c.n * 2 ^ 60))

/-- FIR output m, with 8 fraction bits (R226, R228). -/
def firOut (x : Lane) (h : List Int) (m : Int) : Int × Bool :=
  let l := ((List.range h.length).zip h).map (fun e => let y := cicOut x (m - e.1); (e.2 * y.1, y.2))
  let r := clampStage (roundDiv (accumulate 0 (l.map (·.1)).sum) 4194304)
  (r.1, r.2 || l.any (·.2))

/-- The resampler's output at position n + φ (R229): linear interpolation between the coefficients of two phases. -/
def resOut (x : Lane) (h : List Int) (g : Nat → Int) (pos : Int) : Int × Bool :=
  let n := pos.ediv 4294967296
  let φ := (pos.emod 4294967296).toNat
  let j := φ / 16777216
  let w := φ % 16777216
  let l := (List.range 32).map (fun (k : Nat) =>
    let y := firOut x h (n - (k : Int))
    ((g (256 * k + j) * (16777216 - w : Nat) + g (256 * k + j + 1) * w) * y.1, y.2))
  let r := clampStage (roundDiv (accumulate 24 (l.map (·.1)).sum) (4194304 * 16777216))
  (r.1, r.2 || l.any (·.2))

/-! ## Instants and positions (R230, R233, R235, R238) -/

/-- An LT with 32 fraction bits. -/
def lt96 (t : LT) : BitVec 96 := t.zeroExtend 96 <<< 32

/-- An instant with 32 fraction bits rounded to the nearest tu. -/
def toLt (t : BitVec 96) : LT := BitVec.ofInt 64 (roundDiv t.toNat 4294967296)

/-- The signed difference of two instants with 32 fraction bits. -/
def diff96 (a b : BitVec 96) : Int := (a - b).toInt

/-- The grid instant (S, k) of a rate (R206, R233, R250). -/
def gridTag (ltS : LT) (k rate : Nat) : LT := ltAdd ltS (k * oneSec / rate)

/-- The instant that FIR output m represents: the tag of its input less the delay of CIC and FIR (R237, R238). -/
def firInstant (x : Lane) (l m : Nat) : Option (BitVec 96) :=
  (laneIn x (m * x.cfg.d : Nat)).map (fun i => lt96 i.tag - BitVec.ofNat 96 (delay2 x.cfg l * oneSec * 2 ^ 32 / (2 * x.fIn)))

/-- The newest CIC output index for which there is an input. -/
def lastCic (x : Lane) : Nat := (x.inCount - 1) / x.cfg.d

/-- The FIR output at or before an instant, else the oldest one held: its index and its instant. -/
def anchorFir (x : Lane) (l : Nat) (t : BitVec 96) : Option (Nat × BitVec 96) :=
  let ms := (List.range (lastCic x + 1)).filterMap (fun m => (firInstant x l m).map (fun r => (m, r)))
  match (ms.filter (fun e => decide (0 ≤ diff96 t e.2))).getLast? with
  | some e => some e
  | none => ms.head?

/-- The resampler position × 2^32 whose output represents an instant (R229, R230, R238). -/
def exactPos (x : Lane) (l : Nat) (t : BitVec 96) : Int :=
  match anchorFir x l t with
  | none => 0
  | some (m, r) => ((m : Int) + 16) * 4294967296 + roundDiv (diff96 t r * x.fIn) (x.cfg.d * oneSec)

/-- A tracking sample's instant (R235). -/
def trackInstant (c : TrkCycle) (p i : Nat) : BitVec 96 := c.tc + BitVec.ofNat 96 (i * c.len / p)

/-- The lane with the seconds behind it dropped: the present one ends after f_out samples, or where the next one starts (R233). -/
def advanceSec (x : Lane) : Lane :=
  match x.secs with
  | (a, _) :: (b, m) :: rest =>
    if x.cfg.fOut ≤ x.nextK ∨ ltReached (gridTag a x.nextK x.cfg.fOut) b then { x with secs := (b, m) :: rest, nextK := 0, pos0 := none } else x
  | _ => x

/-- The lane with the grid cycle behind it dropped (R235). -/
def advanceCyc (x : Lane) : Lane :=
  match x.cycs with
  | _ :: b :: rest => if x.cfg.p ≤ x.nextK then { x with cycs := b :: rest, nextK := 0, pos0 := none } else x
  | _ => x

/-- The next output of a lane: the instant it represents, and its tag (R233, R235, R238). -/
def nextInstant (x : Lane) : Option (BitVec 96 × LT) :=
  match x.cfg.mode with
  | .off => (laneIn x (x.nextK * x.cfg.d : Nat)).map (fun i => let t := ltSub i.tag x.gd.toNat; (lt96 t, t))
  | .fixed =>
    match x.secs with
    | (a, _) :: _ => if x.nextK < x.cfg.fOut then (let t := gridTag a x.nextK x.cfg.fOut; some (lt96 t, t)) else none
    | [] => none
  | .track =>
    match x.cycs with
    | c :: _ => if x.nextK < x.cfg.p then (let t := trackInstant c x.cfg.p x.nextK; some (t, toLt t)) else none
    | [] => none

/-- Every input sample tagged at or before τ + GD + D / f_in has been delivered (R239). -/
def inputsDelivered (x : Lane) (tag : LT) : Bool :=
  match x.inputs with
  | [] => false
  | i :: _ =>
    let next := ltAdd i.tag (oneSec / x.fIn)
    decide (2 < ltDiff next (ltAdd tag (x.gd.toNat + x.cfg.d * oneSec / x.fIn)))

/-- Δ × 2^32, held with 8 integer bits and 32 fraction bits (R230; log 103). -/
def stepDelta (num den : Nat) : Int := (roundDiv (num * 4294967296 : Nat) den).emod (2 ^ 40)

/-- Δ of a lane: f_cic over f_out, which in TRACK is P samples in T_c (R230, R235). -/
def laneDelta (x : Lane) : Int :=
  match x.cfg.mode, x.cycs with
  | .track, c :: _ => (roundDiv (x.fIn * c.len : Nat) (x.cfg.d * x.cfg.p * oneSec)).emod (2 ^ 40)
  | _, _ => stepDelta x.fIn (x.cfg.d * x.cfg.fOut)

/-- The position of an output: from the exact instant for the first one of a second or a cycle, then in steps of Δ (R230). -/
def outPos (x : Lane) (l : Nat) (t : BitVec 96) : Int × Lane :=
  match x.pos0 with
  | none => let p := exactPos x l t; (p, { x with pos0 := some (p, x.nextK) })
  | some (p, k) => (p + (x.nextK - k : Nat) * laneDelta x, x)

/-- S, the support in input samples (R237). -/
def laneSupport (x : Lane) (l : Nat) : Nat := gin2 x.cfg l + 1

/-- The input samples of an output's support: the S samples up to the newest at or before τ + GD; for a lane without resampler, up to
its own input (R237, R240). -/
def supportOf (x : Lane) (l : Nat) (tag : LT) : List LaneIn :=
  let till := ltAdd tag x.gd.toNat
  let newer := match x.cfg.mode with
    | .off => x.inCount - 1 - x.nextK * x.cfg.d
    | _ => (x.inputs.takeWhile (fun i => decide (0 < ltDiff i.tag till))).length
  (x.inputs.drop newer).take (laneSupport x l)

/-- The inputs that later outputs may still need. -/
def pruneInputs (x : Lane) (l : Nat) (tag : LT) : List LaneIn :=
  let newer := (x.inputs.takeWhile (fun i => decide (0 < ltDiff i.tag (ltAdd tag x.gd.toNat)))).length
  x.inputs.take (newer + laneSupport x l + 2 * x.cfg.d + 2)

/-- The next output sample of a lane, and the lane after it (R226, R233–R240); none where it is not due (R239). -/
def laneStep (h : List Int) (g : Nat → Int) (degraded : Bool) (x0 : Lane) : Option (LaneSample × Lane) :=
  let x := match x0.cfg.mode with
    | .off => x0
    | .fixed => advanceSec x0
    | .track => advanceCyc x0
  let l := h.length
  match nextInstant x with
  | none => none
  | some (t, tag) =>
    if x.state = .disabled ∨ x.waitCoef ∨ !inputsDelivered x tag then none
    else
      let (v, x) := match x.cfg.mode with
        | .off => (firOut x h x.nextK, x)
        | _ => let p := outPos x l t; (resOut x h g p.1, p.2)
      let sup := supportOf x l tag
      let q := sup.foldl (fun a i => mergeQ a i.q) 0
      let q := if x.state = .settling then mergeQ q qInaccurate else q
      let q := if v.2 then mergeQ q qOverflow else q
      let step := x.cfg.mode == .fixed && x.nextK == 0 && ((x.secs.head?).map (·.2)).getD false
      let cyc := (x.cycs.head?).getD {}
      let smp : LaneSample := {
        value := scaleToSingle v.1 8 x.cfg.scale, tag := tag, q := q, gridStep := step, degraded := degraded,
        settling := x.state == .settling, sat := v.2, substituted := sup.any (·.substituted), cycle := cyc.no, idx := x.nextK,
        tc := cyc.tc, tlen := cyc.len, ltS := ((x.secs.head?).map (·.1)).getD 0 }
      some (smp, { x with
        nextK := x.nextK + 1, outputs := x.outputs + 1, sat := x.sat || v.2, gridStep := x.gridStep || step, inputs := pruneInputs x l tag })

/-- An input sample enters a lane (R224, R241). -/
def laneFeed (i : LaneIn) (x : Lane) : Lane :=
  let left := x.settleLeft - (if x.settleLeft = 0 then 0 else 1)
  { x with inputs := i :: x.inputs, inCount := x.inCount + 1, inBad := x.inBad || i.q &&& 3 != 0, settleLeft := left,
           state := if x.state = .settling ∧ left = 0 then .running else x.state }

/-- An input sample of a source goes to every lane it feeds, and to the lanes that still finish under an old bank (R88, R224). -/
def feedLanes (src : LaneSrc) (i : LaneIn) (s : State) : State :=
  let on (x : Lane) : Bool := x.state != .disabled && x.cfg.src == src
  onFr (fun f => { f with
    lane := f.lane.map (fun e => if on e.2 then (e.1, laneFeed i e.2) else e)
    drain := f.drain.map (fun e => if on e.2.2 then (e.1, e.2.1, laneFeed i e.2.2) else e) }) s

/-! ## Restarts (R241, R257) -/

/-- The first index k of a second's grid that lies at or after an instant. -/
def firstIndex (ltS : LT) (rate : Nat) (t : LT) : Nat :=
  let d := (ltDiff t ltS).toNat
  let k := d * rate / oneSec
  if ltReached (gridTag ltS k rate) t then k else k + 1

/-- The grid that a lane starts on: the rest of the present second or cycle, or what comes next (log 35). -/
def startGrid (s : State) (t : LT) (x : Lane) : Lane :=
  match x.cfg.mode with
  | .off => { x with secs := [], cycs := [], nextK := 0, pos0 := none }
  | .fixed => { x with secs := [(gridStart s, false)], cycs := [], nextK := firstIndex (gridStart s) x.cfg.fOut t, pos0 := none }
  | .track =>
    match (getTrk s x.cfg.group).cyc with
    | none => { x with secs := [], cycs := [], nextK := 0, pos0 := none }
    | some c =>
      let d := diff96 (lt96 t) c.tc
      let k := if d ≤ 0 then 0 else ceilDiv (d.toNat * x.cfg.p) c.len
      { x with secs := [], cycs := [c], nextK := k, pos0 := none }

/-- A phasor channel restarts (R257): its span is empty again. -/
def restartChan (c : Nat) (s : State) : State :=
  onPe (fun p => { p with ch := match p.ch.get? c with
    | some x => if x.state = .disabled then p.ch else p.ch.put c { x with state := .settling, restart := true, line := [] }
    | none => p.ch }) s

/-- Whether a lane uses a coefficient table (R242). -/
def usesTable (proto : Bool) (n : Nat) (x : Lane) : Bool :=
  x.state != .disabled && (if proto then x.cfg.mode != .off && x.cfg.proto == n else x.cfg.fir == n)

/-- Whether a table that a lane uses is being reloaded: its outputs stop until then (R242). -/
def tablesMissing (s : State) (x : Lane) : Bool := s.fr.reload.any (fun r => usesTable r.1 r.2 x)

/-- A lane restarts at an instant, with all its stage state cleared; the channel it feeds restarts with it (R241, R257). -/
def restartLane (l : Nat) (t : LT) (s : State) : State :=
  let x := getLane s l
  if x.state = .disabled then s else
  let h := (firOf s x.cfg.fir).length
  let x := startGrid s t { x with
    state := .settling, restart := true, settleLeft := BitVec.ofNat 16 (gin2 x.cfg h + 1), inputs := [], inCount := 0, waitCoef := tablesMissing s x
    gd := BitVec.ofNat 48 (gdTu x.cfg h x.fIn) }
  let s := onFr (fun f => { f with lane := f.lane.put l x }) s
  match x.cfg.pe with
  | some c => restartChan c s
  | none => s

/-- The lanes for which a property holds restart. -/
def restartLanes (p : Nat → Lane → Bool) (t : LT) (s : State) : State :=
  (s.fr.lane.filter (fun e => p e.1 e.2)).foldl (fun s e => restartLane e.1 t s) s

/-! ## Tracking groups (R234–R236) -/

/-- f0 in µHz. -/
def f0Micro (c : TrackCfg) : Nat := if c.sixty then 60000000 else 50000000

/-- The clamp range of R234. -/
def inClamp (c : TrackCfg) (f : Nat) : Bool := decide (4 * f0Micro c ≤ 5 * f ∧ 5 * f ≤ 6 * f0Micro c)

/-- The frequency that applies now (R236). -/
def trkFreq (g : TrkGroup) : Nat :=
  match g.state, g.est with
  | .tracking, some (f, _) => f
  | .hold, some (f, _) => f
  | _, _ => f0Micro g.cfg

/-- The frequency in force for a cycle that starts at t_c: an estimate released on that tick is not used yet (R236). -/
def freqAt (g : TrkGroup) (tc : LT) : Nat :=
  match g.state, g.est with
  | .tracking, some (f, t) => if ltDiff t tc < 0 then f else g.prevF
  | _, _ => trkFreq g

/-- T_c in tu × 2^32 for a frequency in µHz (R235). -/
def cycleLen (f : Nat) : Nat := oneSec * 1000000 * 4294967296 / f

/-- A group in a new state, with its flag and event (R236, R245). -/
def setTrk (g : Nat) (st' : TrkState) (s : State) : State :=
  let x := getTrk s g
  if x.state = st' then s else
  let s := modTrk g (fun x => { x with
    state := st', holdSeen := x.holdSeen || st' == .hold, nominalSeen := x.nominalSeen || (st' == .nominal && x.state == .hold),
    holdSince := if st' = .hold then s.now else x.holdSince }) s
  raiseArg 0x30 0 (BitVec.ofNat 32 g) (onFr (fun f => { f with trkChg := true }) s)

/-- A cycle starts in a group, and its lanes take it as one still to be emitted (R235). -/
def startTrkCycle (g : Nat) (c : TrkCycle) (f : Nat) (s : State) : State :=
  let add (x : Lane) : Lane := if x.cfg.mode = .track ∧ x.cfg.group = g ∧ x.state ≠ .disabled then { x with cycs := x.cycs ++ [c] } else x
  onFr (fun y => { y with
    lane := y.lane.map (fun e => (e.1, add e.2)), drain := y.drain.map (fun e => (e.1, e.2.1, add e.2.2)) })
    (modTrk g (fun x => { x with cyc := some c, freq := BitVec.ofNat 32 f }) s)

/-- Cycle 0 of a group starts at a TCU3 firing (R235). -/
def startCycles (g : Nat) (ltS : LT) (s : State) : State :=
  let f := freqAt (getTrk s g) ltS
  startTrkCycle g { no := 0, tc := lt96 ltS, len := cycleLen f } f s

/-- Cycle 0 of the groups that wait for it starts at the first TCU3 firing at or after the instant that started them (R235). -/
def startGroups (ltS : LT) (s : State) : State :=
  (s.fr.trk.filter (fun e => e.2.state != .disabled && e.2.cyc.isNone && ltReached ltS e.2.startAt)).foldl (fun s e => startCycles e.1 ltS s) s

/-- A group starts anew under its settings at an instant (R235, R236, R241): in NOMINAL, with the flags that the host has not cleared (R245).
A firing of the same tick that has run before is its cycle 0. -/
def startTrk (g : Nat) (c : TrackCfg) (t : LT) (s : State) : State :=
  let s := onFr (fun f => { f with trk := f.trk.put g { (getTrk s g) with
    cfg := c, cyc := none, est := none, prevF := 0, startAt := t, freq := BitVec.ofNat 32 (f0Micro c) } }) s
  let s := setTrk g .nominal s
  if s.fr.ready ∧ s.se.secNo ≠ 0 ∧ ltReached s.se.ltS t then startCycles g s.se.ltS s else s

/-- A group leaves the configuration (R236): it is disabled, and keeps the flags that the host has not cleared (R245). -/
def stopTrk (g : Nat) (s : State) : State :=
  let s := setTrk g .disabled s
  let x := getTrk s g
  onFr (fun f => { f with trk := f.trk.put g { holdSeen := x.holdSeen, nominalSeen := x.nominalSeen } }) s

/-- An estimate offered to the groups whose reference is channel c: the frequency in µHz, and whether it is valid (R236). -/
def offerEstimate (c : Nat) (f : Nat) (good : Bool) (s : State) : State :=
  (s.fr.trk.filter (fun e => e.2.state != .disabled && e.2.cfg.ref == some c)).foldl (fun s e =>
    if good && inClamp e.2.cfg f then
      setTrk e.1 .tracking (modTrk e.1 (fun x => { x with prevF := trkFreq x, est := some (f, s.now) }) s)
    else if e.2.state = .tracking then setTrk e.1 .hold s else s) s

/-- FR_INPUT_RATE (R225, R244): the aggregate f_in of the enabled lanes in ksamples/s, rounded up. -/
def frInputRate (s : State) : BitVec 32 :=
  BitVec.ofNat 32 (ceilDiv (((s.fr.lane.filter (fun e => e.2.state != .disabled)).map (·.2.fIn)).sum) 1000 % 1048576)

/-- FR at a TCU3 firing: every FIXED lane has a further second to emit, and waiting groups start (R233, R235). -/
def frSecond (ltS : LT) (moved : Bool) (s : State) : State :=
  let add (x : Lane) : Lane := if x.cfg.mode = .fixed ∧ x.state ≠ .disabled then { x with secs := x.secs ++ [(ltS, moved)] } else x
  startGroups ltS (onFr (fun y => { y with
    lane := y.lane.map (fun e => (e.1, add e.2)), drain := y.drain.map (fun e => (e.1, e.2.1, add e.2.2)) }) s)

end Sys2Proof.Machine
end

