-- ==== Sys2Proof/Machine/StreamOps.lean ====
section
/-! DEFINITION. Shared operations of the Stream Engine (chapter 07): streams, the sample grid, instants, GOOSE frames. -/

namespace Sys2Proof.Machine

/-! ## Streams and groups -/

/-- Alignment group g. -/
def getGroup (s : State) (g : Nat) : Group := vget s.se.group g {}

/-- Group g changed. -/
def modGroup (g : Nat) (f : Group → Group) (s : State) : State := onSe (fun x => { x with group := vmod x.group g f }) s

/-- SV stream n. -/
def getSv (s : State) (n : Nat) : SvStream := s.se.sv.getD n {}

/-- SV stream n changed. -/
def modSv (n : Nat) (f : SvStream → SvStream) (s : State) : State := onSe (fun x => { x with sv := x.sv.upd n {} f }) s

/-- Counter k of a stream raised (R220). -/
def svCount (n k : Nat) (s : State) : State := modSv n (fun x => { x with ctr := vadd x.ctr k 1 }) s

/-- The settings of subscription n in force; of the bank before the last commit where `old` is set (R88). -/
def svCfgOf (s : State) (old : Bool) (n : Nat) : SvCfg :=
  if old then ((s.se.svDrain.find? (fun d => d.sub == n)).map (·.cfg)).getD { en := false } else s.se.svCfg.getD n { en := false }

/-- The stream of subscription n, under the bank before the last commit where `old` is set (R88). -/
def svOf (s : State) (old : Bool) (n : Nat) : SvStream :=
  if old then ((s.se.svDrain.find? (fun d => d.sub == n)).map (·.st)).getD {} else getSv s n

/-- That stream changed. -/
def modSvOf (old : Bool) (n : Nat) (f : SvStream → SvStream) (s : State) : State :=
  if old then onSe (fun x => { x with svDrain := x.svDrain.map (fun d => if d.sub = n then { d with st := f d.st } else d) }) s
  else modSv n f s

/-- The owner of subscription n. -/
def svOwner (s : State) (n : Nat) : Tag := ((s.se.svCfg.get? n).map (·.owner)).getD 0

/-- A stream in a new state, with its flag and event (R209). -/
def setSvState (old : Bool) (n : Nat) (st' : SvState) (s : State) : State :=
  if (svOf s old n).state = st' then s else
  let s := modSvOf old n (fun x => { x with state := st' }) s
  if old then s else raiseArg 0x28 (svOwner s n) (BitVec.ofNat 32 n) (onSe (fun x => { x with stateChg := true }) s)

/-- The gates of the tasks for which a property holds open, once and for good (R382). -/
def openGates (p : Task → Bool) (s : State) : State :=
  onFb (fun x => { x with tasks := x.tasks.map (fun e => if p e.2 then
    (e.1, { e.2 with gateOpened := true, state := if e.2.state = .gated then .active else e.2.state }) else e) }) s

/-- R212: every mandatory stream of the group LOCKED with SYNC_OK; a group without one is READY from the start of phase 10. -/
def readyNow (s : State) (g : Nat) : Bool :=
  let l := (getGroup s g).cfg.mandatory
  if l.isEmpty then s.pa.ended.getLsbD 7 else l.all (fun n => (getSv s n).state == .locked && (getSv s n).syncOk)

/-- READY of a group follows its condition, with the event, the gates it opens and what start-up waits for (R212, R382, R557). -/
def judgeReady (g : Nat) (s : State) : State :=
  let r := readyNow s g
  if r = (getGroup s g).ready then s else
  let s := raiseArg 0x29 0 (BitVec.ofNat 32 g) (modGroup g (fun x => { x with ready := r }) s)
  let s := if r then openGates (fun k => k.cfg.gate == some g) s else s
  readiness (phaseTen s)

/-! ## The grid (R206, R207) -/

/-- LT_S of second S (R206): a second to come counts from the armed target of TCU3. -/
def secondLt (s : State) (sec : Int) : LT :=
  if s.se.secNo < sec then (getTcu s 3).target + BitVec.ofInt 64 ((sec - s.se.secNo - 1) * secTu 1)
  else if sec = s.se.secNo then gridStart s
  else match s.se.hist.find? (fun e => e.1 == sec) with
    | some e => e.2
    | none => gridStart s + BitVec.ofInt 64 ((sec - s.se.secNo) * secTu 1)

/-- LT(S, k) (R206). -/
def instantLt (s : State) (sec : Int) (k rate : Nat) : LT := gridTag (secondLt s sec) k rate

/-- The second of those around the present whose distance is least (R207). -/
def nearestSec (s : State) (dist : Int → Int) : Int :=
  ((sortBy (fun d => (dist d).natAbs) ([-2, -1, 0, 1, 2].map (fun (d : Int) => s.se.secNo + d))).head?).getD s.se.secNo

/-- R207 for the first stream of a group to lock. -/
def firstSecond (s : State) (k rate : Nat) (rx : LT) : Int := nearestSec s (fun d => ltDiff rx (instantLt s d k rate))

/-- R207 for a later stream: by the release of an instant already released, else by its tag plus the group's release lag. -/
def laterSecond (s : State) (g k rate : Nat) (rx : LT) : Int :=
  let x := getGroup s g
  nearestSec s (fun d => ltDiff rx
    (match x.recent.find? (fun e => e.1 == d && e.2.1 == k) with
     | some e => e.2.2
     | none => instantLt s d k rate + BitVec.ofInt 64 x.lag))

/-- Instants in (S, k) order; two grids compare by their place in the second. -/
def instantLe (a b : Int × Nat × Nat) : Bool := decide (a.1 < b.1 ∨ (a.1 = b.1 ∧ a.2.1 * b.2.2 ≤ b.2.1 * a.2.2))

/-- An instant put into the open instants, in (S, k) order. -/
def insertInstant (x : Instant) : List Instant → List Instant
  | [] => [x]
  | y :: l => if instantLe (x.sec, x.k, x.rate) (y.sec, y.k, y.rate) then x :: y :: l else y :: insertInstant x l

/-- The group settings that apply to an instant (R88). -/
def groupCfgAt (s : State) (g : Nat) (tag : LT) : GroupCfg :=
  match (getGroup s g).old with
  | some (t, c) => if ltDiff tag t < 0 then c else (getGroup s g).cfg
  | none => (getGroup s g).cfg

/-! ## Qualities (R211) -/

/-- smpSynch against the group's requirement (R205). -/
def syncMeets (r : SyncReq) (v : BitVec 8) : Bool :=
  match r with
  | .none => true
  | .local_ => decide (1 ≤ v.toNat)
  | .global => v == 2

/-- SE's own quality of a sample whose stream does not meet the requirement (R211). -/
def unsynced (ok : Bool) (q : Quality) : Quality := if ok then q else mergeQ q 0x203

/-- The value and the received quality of channel i (R199, R211). -/
def seqChan (l : List Byte) (i : Nat) : BitVec 32 × Quality :=
  (BitVec.ofNat 32 (ofBytesBE ((l.drop (8 * i)).take 4)), BitVec.ofNat 16 (ofBytesBE ((l.drop (8 * i + 4)).take 4)) &&& 0x3FFF)

/-! ## Keys and validation (R201–R204) -/

/-- A frame's addresses against a subscription's (R201). -/
def keyMatches (sub frame : SeKey) : Bool :=
  match sub, frame with
  | .l2 d a v, .l2 d' a' v' => d == d' && a == a' && (v.isNone || v == v')
  | .ip d f, .ip d' f' => d == d' && f == f'
  | _, _ => false

/-- Why a frame fails (R202). -/
inductive FrameFail where
  | auth
  | confRev
  | other
  deriving DecidableEq, Repr

/-- The forms of authentication SE accepts: HMAC-SHA256 for routed frames, AES-GMAC for SV, either for GOOSE (R199, R203). -/
def authForm (goose : Bool) (key : SeKey) (a : SeAuth) : Bool :=
  match key with
  | .ip _ _ => a.hmac
  | .l2 _ _ _ => goose || !a.hmac

/-- Whether a value is the one that a key gives over the bytes it covers: a 128-bit GMAC, or HMAC-SHA256 truncated to 128 bits, in full in a routed
frame (R199, R203; log 52). -/
def authValue (material : List Byte) (key : SeKey) (a : SeAuth) : Bool :=
  if a.hmac then
    a.value == (bytesBE 32 (Config.hmac256 material a.covered).toNat).take (match key with
      | .ip _ _ => 32
      | .l2 _ _ _ => 16)
  else a.value == bytesBE 16 (Config.gcmTag material a.iv a.covered []).toNat

/-- R203: whether a frame is authentic, and whether an engine refused the key for its DEST (R489; log 52). -/
def authCheck (s : State) (required goose : Bool) (key : SeKey) (cur next : Option Nat) (a : Option SeAuth) : Bool × Bool :=
  if !required then (true, false) else
  match a with
  | none => (false, false)
  | some a =>
    match [cur, next].findSome? (fun k => match k with
      | some n => match s.kv.slot.get? n with
        | some x => if x.keyId = a.keyId ∧ x.type ≠ .empty then some x else none
        | none => none
      | none => none) with
    | none => (false, false)
    | some x =>
      if x.state ≠ .valid then (false, false)
      else if !x.dest.getLsbD (if a.hmac then 3 else 2) then (false, true)
      else (authForm goose key a && authValue x.material key a, false)

/-- An authentication failure of a subscription, reported at most once per second for it (R203). -/
def authFailed (owner : Tag) (kind n : Nat) (denied : Bool) (s : State) : State :=
  let s := onSe (fun x => { x with authErr := true }) (if denied then onKv (fun k => { k with denied := true }) s else s)
  let (ok, s) := limited (0x2002A + kind) n (secTu 1) 1 s
  if ok then raiseArg 0x2A owner (BitVec.ofNat 32 n) s else s

/-- The first check of R202 that an SV frame fails under a subscription. -/
def svFailure (s : State) (c : SvCfg) (x : SvStream) (f : SvFrame) : Option FrameFail :=
  if !f.formOk || f.asdus.isEmpty || decide (8 < f.asdus.length) then some .other
  else if !(authCheck s c.authReq false f.key c.keyCur c.keyNext f.auth).1 then some .auth
  else if (f.sim && !c.simAccept) || (!f.sim && x.sim) then some .other
  else if f.asdus.any (fun a => a.confRev != c.confRev) then some .confRev
  else if f.asdus.any (fun a => a.svId != c.svId || (!a.datSet.isEmpty && a.datSet != c.datSet)) then some .other
  else if f.asdus.any (fun a => decide (a.seqData.length ≠ 8 * c.chans.length)) then some .other
  else if f.asdus.any (fun a => decide (c.rate ≤ a.smpCnt)) then some .other
  else none

/-! ## Samples (R207–R210) -/

/-- A sample placed on its instant: late, second for it, or delivered; the first sample opens the instant (R208, R210). -/
def placeSample (old : Bool) (n : Nat) (sec : Int) (a : SvAsdu) (rx : LT) (s : State) : State :=
  let c := svCfgOf s old n
  let g := c.group.val
  let x := getGroup s g
  let tag := instantLt s sec a.smpCnt c.rate
  let s := modSvOf old n (fun y => { y with lag := BitVec.ofInt 32 ((ltDiff rx tag).ediv 65536) }) s
  let here : Int × Nat × Nat := (sec, a.smpCnt, c.rate)
  let late := match x.lastRel with
    | some l => instantLe here l
    | none => false
  if late then svCount n 3 s else
  let ok := (svOf s old n).syncOk
  let m : SvSample := { sub := n, values := (List.range c.chans.length).map (fun i => (seqChan a.seqData i).1)
                        quality := (List.range c.chans.length).map (fun i => unsynced ok (seqChan a.seqData i).2) }
  let same (i : Instant) : Bool := i.sec == sec && i.k == a.smpCnt && i.rate == c.rate
  match x.instants.find? same with
  | some i =>
    if i.samples.any (fun y => y.sub == n) then svCount n 4 s
    else modGroup g (fun x => { x with instants := x.instants.map (fun i => if same i then { i with samples := i.samples ++ [m] } else i) }) s
  | none => modGroup g (fun x => { x with
      instants := insertInstant { sec := sec, k := a.smpCnt, rate := c.rate, tFirst := rx, samples := [m] } x.instants }) s

/-- The second of a LOCKED stream's next sample, and whether smpCnt jumped (R207, R210). -/
def nextSecond (s : State) (c : SvCfg) (x : SvStream) (k : Nat) (rx : LT) : Int × Bool :=
  let last := x.lastSmpCnt.toNat
  let sec := x.sec.getD s.se.secNo
  if last + 1 = c.rate ∧ k = 0 then (sec + 1, false)
  else if last ≤ k then (sec, decide (last + 1 < k))
  else (laterSecond s c.group.val k c.rate rx, true)

/-- One ASDU of a valid frame (R207, R209); a jump in smpCnt since the sample before it sets GAP in every state (R210, R220). -/
def takeAsdu (old : Bool) (n : Nat) (rx : LT) (a : SvAsdu) (s : State) : State :=
  let c := svCfgOf s old n
  let g := c.group.val
  let x := svOf s old n
  let gc := if old then ((getGroup s g).old.map (·.2)).getD (getGroup s g).cfg else (getGroup s g).cfg
  let jump := x.state != .locked && x.seen && a.smpCnt != x.lastSmpCnt.toNat && a.smpCnt != (x.lastSmpCnt.toNat + 1) % c.rate
  let s := modSvOf old n (fun y => { y with
    smpSynch := a.smpSynch, syncOk := syncMeets gc.sync a.smpSynch, lastSmpCnt := BitVec.ofNat 16 a.smpCnt, seen := true, gap := y.gap || jump }) s
  if x.state = .locked then
    let d := nextSecond s c x a.smpCnt rx
    placeSample old n d.1 a rx (modSvOf old n (fun y => { y with sec := some d.1, gap := y.gap || d.2 }) s)
  else
    let good := if x.good ≠ 0 ∧ a.smpCnt = (x.lastSmpCnt.toNat + 1) % c.rate then x.good + 1 else 1
    if good < gc.lockK then modSvOf old n (fun y => { y with good := good }) s
    else
      let others := s.se.svCfg.any (fun e => e.1 != n && e.2.group.val == g && (getSv s e.1).state == .locked)
      let sec := if others then laterSecond s g a.smpCnt c.rate rx else firstSecond s a.smpCnt c.rate rx
      placeSample old n sec a rx (setSvState old n .locked (modSvOf old n (fun y => { y with
        good := good, sec := some sec, subRun := 0
        lastGood := if y.lastGood.isEmpty then (List.range c.chans.length).map (fun i => (seqChan a.seqData i).1) else y.lastGood }) s))

/-- A frame that matched a subscription (R202–R209). -/
def takeSvFrame (old : Bool) (n : Nat) (rx : LT) (f : SvFrame) (s : State) : State :=
  let c := svCfgOf s old n
  match svFailure s c (svOf s old n) f with
  | some .auth =>
    authFailed c.owner 0 n (authCheck s c.authReq false f.key c.keyCur c.keyNext f.auth).2
      (svCount n 2 (modSv n (fun x => { x with authErr := true }) s))
  | some .confRev => svCount n 1 (modSv n (fun x => { x with confRevErr := true }) s)
  | some .other => svCount n 1 s
  | none =>
    let s := svCount n 0 (modSvOf old n (fun x => { x with sim := x.sim || f.sim }) s)
    let fresh := (svOf s old n).state == .idle || (svOf s old n).state == .lost
    let s := if fresh then setSvState old n .acquire (modSvOf old n (fun x => { x with good := 0 }) s) else s
    judgeReady c.group.val (f.asdus.foldl (fun s a => takeAsdu old n rx a s) s)

/-- The subscription a frame matches: the lowest whose key it carries (R201). -/
def svMatch (l : List (Nat × SvCfg)) (f : SvFrame) : Option Nat :=
  match f.asdus with
  | [] => none
  | a :: _ => ((sortBy (·.1) l).find? (fun e => e.2.en && e.2.svId == a.svId && keyMatches e.2.key f.key)).map (·.1)

/-- The changed subscription whose grid instants before the commit a frame's first sample belongs to (R88; log 53). -/
def drainMatch (s : State) (rx : LT) (f : SvFrame) : Option Nat :=
  match svMatch (s.se.svDrain.map (fun d => (d.sub, d.cfg))) f, f.asdus with
  | some n, a :: _ =>
    match s.se.svDrain.find? (fun d => d.sub == n) with
    | some d =>
      if d.st.state = .locked ∧ ltDiff (instantLt s (nextSecond s d.cfg d.st a.smpCnt rx).1 a.smpCnt d.cfg.rate) d.upTo < 0 then some n else none
    | none => none
  | _, _ => none

/-! ## Releasing an instant (R208–R212) -/

/-- The streams of a group that an instant concerns, ascending: those of the bank that serves it (R88). -/
def instantStreams (s : State) (g : Nat) (tag : LT) : List (Bool × Nat) :=
  let before (n : Nat) : Bool := s.se.svDrain.any (fun d => d.sub == n && decide (ltDiff tag d.upTo < 0))
  sortBy (·.2) (((s.se.svDrain.filter (fun d => d.cfg.en && d.cfg.group.val == g && decide (ltDiff tag d.upTo < 0))).map (fun d => (true, d.sub))) ++
    ((s.se.svCfg.filter (fun e => e.2.en && e.2.group.val == g && !before e.1)).map (fun e => (false, e.1))))

/-- Whether every LOCKED stream has delivered its sample for an instant (R208). -/
def instantComplete (s : State) (i : Instant) (l : List (Bool × Nat)) : Bool :=
  l.all (fun e => (svOf s e.1 e.2).state != .locked || i.samples.any (fun m => m.sub == e.2))

/-- What a stream contributes to a released instant: its own sample, or a substitute (R209, R210). -/
def contribute (gc : GroupCfg) (i : Instant) (e : Bool × Nat) (s : State) : Option SvSample × State :=
  let x := svOf s e.1 e.2
  let c := svCfgOf s e.1 e.2
  let sub (v : List (BitVec 32)) (q : Quality) : SvSample :=
    { sub := e.2, values := v, quality := List.replicate c.chans.length (unsynced x.syncOk q), substituted := true }
  match x.state, i.samples.find? (fun m => m.sub == e.2) with
  | .locked, some m => (some m, modSvOf e.1 e.2 (fun y => { y with lastGood := m.values, subRun := 0 }) s)
  | .locked, none =>
    let s := modSvOf e.1 e.2 (fun y => { y with subRun := y.subRun + 1 }) (svCount e.2 5 s)
    (some (sub (if gc.zero then List.replicate c.chans.length 0 else x.lastGood) 0x483),
     if gc.mSub ≤ x.subRun + 1 then setSvState e.1 e.2 .lost s else s)
  | .lost, _ => (some (sub x.lastGood 0x81), svCount e.2 5 s)
  | _, _ => (none, s)

/-- The samples of one stream go to the lanes that take its channels (R208, R224). -/
def feedStream (tag : LT) (c : SvCfg) (m : SvSample) (s : State) : State :=
  (c.chans.zip (m.values.zip m.quality)).foldl (fun s e => match e.1.num with
    | some ch => feedLanes (.sv ch) { x := e.2.1.toInt, tag := tag, q := e.2.2, substituted := m.substituted } s
    | none => s) s

/-- The point writes of one stream's samples (R208). -/
def streamWrites (tag : LT) (c : SvCfg) (m : SvSample) : List PtWrite :=
  ((List.range c.chans.length).zip (c.chans.zip (m.values.zip m.quality))).filterMap (fun e => match e.2.1.point with
    | some p => some { index := p, value := e.2.2.1.signExtend 64, quality := e.2.2.2, lt := tag, writer := .sv m.sub e.1 }
    | none => none)

/-- The samples of a released instant go to the Point Store in one batch, and release the group's SAMPLE tasks once they are visible
(R208, R363, R398). -/
def sendInstant (g k : Nat) (tag : LT) (l : List PtWrite) (s : State) : State :=
  if l.isEmpty then releaseSample g k tag s
  else offerBatch { src := .group g, writes := l, release := some (g, k, tag) } s

/-- One released instant (R208–R212). -/
def releaseInstant (g : Nat) (i : Instant) (tag : LT) (l : List (Bool × Nat)) (s : State) : State :=
  let gc := groupCfgAt s g tag
  let r := l.foldl (fun (a : List (SvCfg × SvSample) × State) e =>
    match contribute gc i e a.2 with
    | (some m, s) => (a.1 ++ [(svCfgOf s e.1 e.2, m)], s)
    | (none, s) => (a.1, s)) ([], s)
  let s := modGroup g (fun x => { x with
    instants := x.instants.drop 1, lastRel := some (i.sec, i.k, i.rate), lag := ltDiff s.now tag
    recent := (i.sec, i.k, s.now) :: x.recent.filter (fun e => decide (s.se.secNo - 2 ≤ e.1))
    old := x.old.filter (fun o => decide (ltDiff tag o.1 < 0)) }) r.2
  let s := onSe (fun x => { x with svDrain := x.svDrain.filter (fun d => d.cfg.group.val != g || decide (ltDiff tag d.upTo < 0)) }) s
  let s := r.1.foldl (fun s e => feedStream tag e.1 e.2 s) s
  judgeReady g (sendInstant g i.k tag (r.1.flatMap (fun e => streamWrites tag e.1 e.2)) s)

/-! ## GOOSE subscription (R213, R214) -/

/-- GOOSE subscription n. -/
def getGs (s : State) (n : Nat) : GoSub := s.se.gs.getD n {}

/-- GOOSE subscription n changed. -/
def modGs (n : Nat) (f : GoSub → GoSub) (s : State) : State := onSe (fun x => { x with gs := x.gs.upd n {} f }) s

/-- Whether a member's value has the staged type (R202, R213). -/
def goTyped (t : GoType) (v : GoValue) : Bool :=
  match t, v with
  | .boolean, .boolean _ => true
  | .dbpos, .dbpos _ => true
  | .int32, .int32 _ => true
  | .int32u, .int32u _ => true
  | .float32, .float32 _ => true
  | .quality, .quality _ => true
  | .timestamp, .timestamp _ => true
  | _, _ => false

/-- A member's value as a point holds it (R390). -/
def goBits : GoValue → BitVec 64
  | .boolean b => BitVec.ofNat 64 (bitN b)
  | .dbpos v => v.zeroExtend 64
  | .int32 v => v.signExtend 64
  | .int32u v => v.zeroExtend 64
  | .float32 v => v.zeroExtend 64
  | .quality q => q.zeroExtend 64
  | .timestamp v => v

/-- The first check of R202 and R214 that a GOOSE frame fails under a subscription. -/
def goFailure (s : State) (c : GoSubCfg) (x : GoSub) (f : GoFrame) : Option FrameFail :=
  if !f.formOk || f.tal.isNone then some .other
  else if !(authCheck s c.authReq true f.key c.keyCur c.keyNext f.auth).1 then some .auth
  else if (f.sim && !c.simAccept) || (!f.sim && x.sim) then some .other
  else if f.confRev != c.confRev then some .confRev
  else if f.datSet != c.datSet then some .other
  else if decide (f.data.length ≠ c.members.length) || !((c.members.zip f.data).all (fun e => goTyped e.1.type e.2)) then some .other
  else if f.ndsCom then some .other
  else none

/-- The quality a member takes: that of the Quality member after it, with the test bit (R213). -/
def goQuality (f : GoFrame) (i : Nat) : Quality :=
  (match f.data[i + 1]? with
   | some (.quality q) => q
   | _ => 0) ||| (if f.test then 0x800 else 0)

/-- The writes of a frame that carries a new state (R213). -/
def goWrites (n : Nat) (c : GoSubCfg) (rx : LT) (f : GoFrame) : List PtWrite :=
  ((List.range c.members.length).zip (c.members.zip f.data)).filterMap (fun e =>
    match e.2.1.type, e.2.1.point with
    | .quality, _ => none
    | _, some p => some { index := p, value := goBits e.2.2, quality := goQuality f e.1, lt := rx, writer := .goose n e.1 }
    | _, none => none)

/-- sqNum higher than the last; a wrap from 0xFFFF_FFFF to 1 counts as higher (R213). -/
def sqHigher (last sq : BitVec 32) : Bool := decide (last.toNat < sq.toNat) || (last == 0xFFFFFFFF && sq == 1)

/-- A frame that passed R202 (R213, R214; log 54). -/
def takeGoose (n : Nat) (rx : LT) (f : GoFrame) (s : State) : State :=
  let c := s.se.gsCfg.getD n {}
  let x := getGs s n
  let s := modGs n (fun y => { y with sim := y.sim || f.sim, talAt := some (s.abs + msTu (f.tal.getD 0)) }) s
  if f.test ∧ !c.testAccept then modGs n (fun y => { y with ok := y.ok + 1 }) s
  else if x.state ≠ .ok ∨ f.stNum ≠ x.stNum then
    sendBatch .goose (goWrites n c rx f)
      (modGs n (fun y => { y with state := .ok, stNum := f.stNum, sqNum := f.sqNum, ok := y.ok + 1, seen := true }) s)
  else if sqHigher x.sqNum f.sqNum then modGs n (fun y => { y with sqNum := f.sqNum, ok := y.ok + 1 }) s
  else modGs n (fun y => { y with invalid := y.invalid + 1 }) s

/-! ## GOOSE publishing (R215–R218) -/

/-- Publication block p. -/
def getGp (s : State) (p : Nat) : GoPub := s.se.gp.getD p {}

/-- Publication block p changed. -/
def modGp (p : Nat) (f : GoPub → GoPub) (s : State) : State := onSe (fun x => { x with gp := x.gp.upd p {} f }) s

/-- STATE of SE_GOPUBp_STATUS (R221): disabled, publishing, gated. -/
def goPubState (s : State) (p : Nat) : Nat :=
  match s.se.gpCfg.get? p with
  | some c => if !c.en then 0 else if s.fo.gateOpen then 1 else 2
  | none => 0

/-- A length in BER (log 55). -/
def berLen (n : Nat) : List Byte :=
  if n < 128 then [BitVec.ofNat 8 n] else if n < 256 then [0x81, BitVec.ofNat 8 n] else 0x82 :: bytesBE 2 n

/-- A tagged item in BER. -/
def ber (tag : Byte) (l : List Byte) : List Byte := tag :: berLen l.length ++ l

/-- A two's complement number of `n` bytes in its shortest form. -/
def berInt (n : Nat) (v : Int) : List Byte :=
  let l := bytesBE n (v.emod (2 ^ (8 * n) : Nat)).toNat
  let rec trim : Nat → List Byte → List Byte
    | k + 1, a :: b :: t => if (a = 0 ∧ !b.getLsbD 7) ∨ (a = 0xFF ∧ b.getLsbD 7) then trim k (b :: t) else a :: b :: t
    | _, t => t
  trim n l

/-- The IEC 61850 quality as a 13-bit BIT STRING: bits in the order of R392, first bit first. -/
def berQuality (q : Quality) : List Byte :=
  let bit (i k : Nat) : Nat := if q.getLsbD i then 2 ^ k else 0
  ber 0x84 [3, BitVec.ofNat 8 (bit 1 7 + bit 0 6 + bit 2 5 + bit 3 4 + bit 4 3 + bit 5 2 + bit 6 1 + bit 7 0),
    BitVec.ofNat 8 (bit 8 7 + bit 9 6 + bit 10 5 + bit 11 4 + bit 12 3)]

/-- A member's value by the type of its point (log 55). -/
def berValue (t : PtType) (v : BitVec 64) : List Byte :=
  match t with
  | .undefined => ber 0x83 [v.truncate 8]
  | .boolean => ber 0x83 [v.truncate 8]
  | .dbpos => ber 0x84 [6, BitVec.ofNat 8 (64 * (v.toNat % 4))]
  | .int32 => ber 0x85 (berInt 5 v.toInt)
  | .int32u => ber 0x86 (berInt 5 v.toNat)
  | .int64 => ber 0x85 (berInt 9 v.toInt)
  | .float32 => ber 0x87 (8 :: bytesBE 4 v.toNat)
  | .float64 => ber 0x87 (11 :: bytesBE 8 v.toNat)
  | .complex => ber 0xA2 (ber 0x87 (8 :: bytesBE 4 v.toNat) ++ ber 0x87 (8 :: bytesBE 4 (v.toNat / 2 ^ 32)))
  | .timestamp => ber 0x91 (bytesBE 8 v.toNat)

/-- timeAccuracy of R217, of the bound of R54 while LT_UNCERTAIN is set (R55); 0xFFFF_FFFF is the largest error that the field can express, 1 s
(R36), and another bound above 1 s has no n that the rule gives (log 55). -/
def timeAccuracy (s : State) : Nat × State :=
  if !s.tb.taiValid then (31, s) else
  if timeBound s = 0xFFFFFFFF then (0, s) else
  match ((List.range 25).reverse).find? (fun n => decide (timeBound s * 2 ^ n ≤ 1000000000)) with
  | some n => (n, s)
  | none => let d := draw s; (d.1 % 32, d.2)

/-- The t field with its time quality (R217). -/
def goTime (s : State) (t : LT) : List Byte × State :=
  let (acc, s) := timeAccuracy s
  let tai := taiOf s.tb t
  let q := 128 * bitN (s.tb.taiValid && s.tb.utcKnown) + 64 * bitN (!s.tb.taiValid) + 32 * bitN (s.tb.servo != .locked) + acc
  (bytesBE 4 ((tai.ediv oneSec - s.tb.utcOffset.toInt).emod 4294967296).toNat ++
    bytesBE 3 ((tai.emod oneSec).toNat * 16777216 / oneSec) ++ [BitVec.ofNat 8 q], s)

/-- The frame of a block's present state (R215–R217; log 55), `tal` in ms. -/
def gooseFrame (s : State) (c : GoPubCfg) (g : GoPub) (tal : Nat) : List Byte :=
  let items := (c.members.zip g.lastVals).flatMap (fun e =>
    berValue (((getPoint s e.1).map (·.type)).getD .undefined) e.2.1 ++ berQuality e.2.2)
  let pdu := ber 0x61 (ber 0x80 c.gocbRef ++ ber 0x81 (berInt 5 tal) ++ ber 0x82 c.datSet ++ ber 0x83 c.goId ++ ber 0x84 g.t ++
    ber 0x85 (berInt 5 g.stNum.toNat) ++ ber 0x86 (berInt 5 g.sqNum.toNat) ++ ber 0x87 [0] ++ ber 0x88 (berInt 5 c.confRev.toNat) ++
    ber 0x89 [0] ++ ber 0x8A (berInt 5 (2 * g.lastVals.length : Nat)) ++ ber 0xAB items)
  bytesBE 6 c.dst.toNat ++ bytesBE 6 c.src.toNat ++ (match c.vlan with
    | some v => bytesBE 2 0x8100 ++ bytesBE 2 v.toNat
    | none => []) ++ bytesBE 2 0x88B8 ++ bytesBE 2 c.appid.toNat ++ bytesBE 2 (8 + pdu.length) ++ bytesBE 4 0 ++ pdu

/-- The member values and qualities as presented now; those of a point that is not there are free (log 55). -/
def goSnapshot (c : GoPubCfg) (s : State) : List (BitVec 64 × Quality) × State :=
  c.members.foldl (fun (a : List (BitVec 64 × Quality) × State) i => match presented a.2 i with
    | some r => (a.1 ++ [(r.value, r.quality)], a.2)
    | none => let d := draw a.2; (a.1 ++ [(BitVec.ofNat 64 d.1, BitVec.ofNat 16 (d.1 / 2 ^ 64))], d.2)) ([], s)

/-- A block's frame goes to its output queue; a refused opening sets QUOTA and counts the frame in GATED (R215, R219). -/
def sendGoose (p : Nat) (tal : Nat) (s : State) : State :=
  let c := s.se.gpCfg.getD p {}
  let bytes := gooseFrame s c (getGp s p) tal
  let q := 8 + c.queue.val
  match sendPacket q 0 (descBytes { cls := c.cls.val, length := bytes.length }) bytes s with
  | (s, .ok) => gatePush q false p s
  | (s, _) => onSe (fun x => { x with quota := true }) (modGp p (fun g => { g with gated := g.gated + 1 }) s)

/-- The number after stNum or sqNum: 0xFFFF_FFFF is followed by 1 (R216). -/
def goNext (n : BitVec 32) : BitVec 32 := if n = 0xFFFFFFFF then 1 else n + 1

/-- stNum of a new state: after the last one received where the block takes over, the active unit's on a unit behind shut gates, else one
more (R216, R218, R436). -/
def newStNum (s : State) (p : Nat) (takeover : Bool) : BitVec 32 :=
  match s.fo.goStRx.get? p with
  | some n => if takeover then goNext n else if s.fo.gateOpen then goNext (getGp s p).stNum else n
  | none => goNext (getGp s p).stNum

/-- A unit behind shut gates takes the stNum of a block that the active unit has sent: the block's sequence runs on from its first frame, so that sqNum
follows as well (R218, R429). -/
def followGoose (p : Nat) (n : BitVec 32) (s : State) : State :=
  match s.se.gpCfg.get? p with
  | none => s
  | some c =>
    if !s.se.ready || (getGp s p).stNum == n then s
    else modGp p (fun g => { g with stNum := n, sqNum := 0, interval := c.t1, nextAt := some (ltAdd s.now (msTu c.t1)) }) s

/-- The first frame of a new state (R216, R429, R436): its t is set once; the partner is sent its stNum before the frame. -/
def newGoState (p : Nat) (t : LT) (takeover : Bool) (s : State) : State :=
  let c := s.se.gpCfg.getD p {}
  let n := newStNum s p takeover
  let (vals, s) := goSnapshot c s
  let (time, s) := goTime s t
  let s := modGp p (fun g => { g with
    stNum := n, sqNum := 0, pendingAt := none, interval := c.t1, nextAt := some (ltAdd s.now (msTu c.t1)), t := time, lastVals := vals }) s
  let s := if s.fo.gateOpen then sendBrx (brxGooseSt [(p, n)]) s else s
  sendGoose p (2 * c.t1) s

end Sys2Proof.Machine
end

