-- ==== Sys2Proof/Machine/Failover.lean ====
section
/-! DEFINITION. Meanings of the events and opcodes of the Fail-over Unit (chapter 14). -/

namespace Sys2Proof.Machine

/-! ## Messages (R416–R422) -/

/-- HEARTBEAT_TX (R420): 10 µs ± 10 ns after the last one. -/
def execHeartbeatTx (s : State) : Res :=
  if ltDiff s.now s.fo.hbTxAt < nsTu 9990 then .next s else
  let f := s.fo
  .next (sendBrx (fun h => brxHeartbeat { h with
      txLt := s.now, echoTx := f.hb.txLt, echoRx := f.hbAt, configTag := f.cfg.configTag, diag := diagBits s })
    (onFo (fun f => { f with hbTxAt := s.now }) s))

/-- What the guard code finds in the words of a message: corrected ones are counted, uncorrectable ones discarded, counted and recorded (R417,
R572). -/
def brxGuard (w : BrxWords) (s : State) : State :=
  w.foldl (fun s x => match guardJudge x with
    | .none => s
    | .corrected _ _ => guardCorrected 8 s
    | .uncorrectable h => onFo (fun f => { f with ctr := vadd f.ctr 2 1 }) (guardUncorrectable 8 0xE 0 h s)) s

/-- A message of a type received on Brixig (R411, R417–R419): one that has lost its header is discarded whole; of one with its header FO sees the
CLAIM; one that has lost a payload word is incomplete, and only a complete one has the effect `k` of its type. -/
def brxRx (type : Nat) (w : BrxWords) (k : List Byte → List (Vector Byte 36) → State → State) (s : State) : Res :=
  if !s.fo.linkUp then .next s else
  match w with
  | [] => .next s
  | head :: rest =>
    match guardDeliver head with
    | none => .next (brxGuard w s)
    | some h =>
      let hb := brxData h
      if h[32] ≠ 0 ∨ fieldBE hb 0 1 ≠ type then .next s
      else
        let s := seeClaim (brxReadHead hb).claim (brxGuard w s)
        match allSome (rest.map guardDeliver) with
        | some l => if l.length = fieldBE hb 2 2 then .next (k hb l s) else .next s
        | none => .next s

/-- The mean of the measured offsets, rounded down (R421, log 27). -/
def meanInt (l : List Int) : Int := if l.isEmpty then 0 else l.sum.ediv l.length

/-- Δ and d of a heartbeat (R421); before the partner has echoed one there is nothing to compute. -/
def measureOffset (m : BrxMsg) (t4 : LT) (s : State) : State :=
  if m.echoTx = 0 ∧ m.echoRx = 0 then s else
  let d := (ltDiff m.echoRx m.echoTx + ltDiff m.txLt t4).ediv 2 - s.fo.cfg.asym
  let delay := (ltDiff t4 m.echoTx - ltDiff m.txLt m.echoRx).ediv 2
  onFo (fun f =>
    let l := (d :: f.offsets).take 64
    { f with offsets := l, ltOffset := BitVec.ofInt 64 (meanInt l), linkDelay := BitVec.ofInt 32 delay }) s

/-- The discovery of the partner ends (R423). -/
def endArbitration (s : State) : State := onFo (fun f => { f with discoverAt := none }) s

/-- The PRIO of the partner, in the low byte of its CLAIM (R410, R418). -/
def partnerPrio (s : State) : BitVec 8 := s.fo.hb.claim.truncate 8

/-- Start-up arbitration at a heartbeat (R423): STANDBY under an ACTIVE partner; else the higher PRIO becomes ACTIVE, and on equal
PRIO the higher serial, which no heartbeat carries (log 28). -/
def arbitrate (m : BrxMsg) (s : State) : State :=
  if s.fo.state ≠ .start ∨ s.fo.discoverAt.isNone then s
  else if m.active then setRole .standby (endArbitration s)
  else
    let (n, s) := if partnerPrio s = s.fo.cfg.prio then draw s else (0, s)
    let win := (partnerPrio s).toNat < s.fo.cfg.prio.toNat || (partnerPrio s == s.fo.cfg.prio && n % 2 == 1)
    if win then (if s.fo.eMem = 0xFFFFFF then s else formClaim false (endArbitration s))
    else setRole .standby (endArbitration s)

/-- Both units ACTIVE (R413, R408): SPLIT, and the lower claim enters STANDBY. -/
def resolveSplit (fresh : Bool) (m : BrxMsg) (s : State) : State :=
  if s.fo.state ≠ .active ∨ !m.active then s else
  let s := if fresh then raise 0x74 0 (onFo (fun f => { f with split := true }) s) else s
  if s.fo.claim.toNat < m.claim.toNat then yieldClaim s else s

/-- The longest staged claim acceptance window has passed since the last IMAGE was heard (R415). -/
def claimsForgotten (s : State) : Bool :=
  let w := ((List.range 2).map (fun g => (vget s.fo.seg g {}).cfg.acceptMs)).foldl max 0
  match s.fo.lastImageAt with
  | some t => decide (t + msTu w ≤ s.abs)
  | none => true

/-- The partner's side of R415. -/
def partnerReset (s : State) : Bool :=
  s.fo.partner != .present || s.fo.hb.epochRst || s.fo.hb.claim.extractLsb' 8 24 == 0

/-- EPOCH_RST clears where R415 lets it, and then the unit of the higher PRIO forms its claim (R414). -/
def epochTry (s : State) : State :=
  let s := if s.fo.epochRst && partnerReset s && claimsForgotten s then onFo (fun f => { f with epochRst := false }) s else s
  if !s.fo.epochClaimDue ∨ s.fo.epochRst ∨ !claimsForgotten s ∨ s.fo.state ≠ .standby ∨ (s.fo.partner = .present ∧ s.fo.hb.active) then s
  else if s.fo.partner = .present ∧ ¬((partnerPrio s).toNat < s.fo.cfg.prio.toNat) then s
  else formClaim true s

/-- The replies to swaps whose new claim the partner has shown (R438). -/
def swapReplies (m : BrxMsg) (s : State) : State :=
  let done (e : BitVec 32 × Waiting) : Bool := m.active && decide (e.1.toNat < m.claim.toNat)
  let l := s.fo.swapWait.filter done
  l.foldl (fun s e => reply e.2 { status := .ok, r0 := m.claim.zeroExtend 64 } s)
    (onFo (fun f => { f with swapWait := f.swapWait.filter (fun e => !done e) }) s)

/-- HEARTBEAT_RX (R411, R413–R415, R420–R423, R431, R438): TCC14 captures the arrival, with its resolution of 1 ns (R45); how many heartbeats were missed before it the
spec gives no rule to count (log 28). -/
def execHeartbeatRx (w : BrxWords) (s : State) : Res :=
  brxRx 0x01 w (fun h p s =>
    let m := brxReadBeat h (p.flatMap brxData)
    let at_ := wholeNs s.now
    let fresh := s.fo.partner != .present || !s.fo.hb.active
    let (missed, s) := draw (recordEdge 14 s.now s)
    let s := measureOffset m at_ s
    let s := onFo (fun f => { f with
      ctr := vadd (vadd f.ctr 0 1) 1 missed, hb := m, hbAt := at_, partner := .present, witnessHeld := false }) s
    swapReplies m (actOnTrigger (setGates (epochTry (resolveSplit fresh m (arbitrate m s)))))) s

/-- WIT: no IMAGE with the partner's last claim has been heard on an enabled segment for it (R433). -/
def witnessClear (s : State) : Bool :=
  let segs := (List.range 2).filter (fun g => (vget s.fo.seg g {}).cfg.en)
  s.fo.cfg.witUs == 0 || segs.all (fun g =>
    match (vget s.fo.seg g {}).heard.get? s.fo.hb.claim with
    | none => true
    | some t => decide (t + usTu s.fo.cfg.witUs ≤ s.abs))

/-- A takeover after the partner's loss, held while the witness is not clear (R433). -/
def witnessTakeover (s : State) : State :=
  if s.fo.state ≠ .standby ∨ s.fo.partner ≠ .lost ∨ !eligible s then onFo (fun f => { f with witnessHeld := false }) s
  else if witnessClear s then formClaim true s
  else onFo (fun f => { f with witnessHeld := true }) s

/-- FO declares the partner lost: eligibility is frozen, PARTNER_LOST, the event, and a takeover where R433 gives one (R409, R422). -/
def losePartner (s : State) : State :=
  if s.fo.partner ≠ .present then s else
  let e := eligible s
  let s := raise 0x71 0 (onFo (fun f => { f with partner := .lost, frozenElig := e, partnerLost := true }) s)
  witnessTakeover (setGates s)

/-- PARTNER_LOST (R422). -/
def execPartnerLost (s : State) : Res :=
  if ltDiff s.now s.fo.hbAt < usTu 45 then .next s else .next (losePartner s)

/-- BRIXIG_LINK_STATE (R416, R422). -/
def execBrixigLinkState (up : Bool) (s : State) : Res :=
  let s := onFo (fun f => { f with linkUp := up }) s
  .next (if up then s else losePartner s)

/-- WITNESS_CLEAR (R433). -/
def execWitnessClear (s : State) : Res := if s.fo.witnessHeld then .next (witnessTakeover s) else .next s

/-- RELINQUISH_RX (R411, R433): an eligible STANDBY unit takes over; the witness does not apply. -/
def execRelinquishRx (w : BrxWords) (s : State) : Res :=
  brxRx 0x02 w (fun _ _ s => if s.fo.state = .standby ∧ eligible s then formClaim true s else s) s

/-- The entries of a GOOSE_ST: ARG0 of them, up to 4 (R419). -/
def gooseEntries (h : List Byte) (p : List Byte) : List (Nat × BitVec 32) :=
  (List.range (min (brxArg h 0) 4)).map (fun i => (fieldBE p (8 * i) 2, BitVec.ofNat 32 (fieldBE p (8 * i + 4) 4)))

/-- GOOSE_ST_RX (R411, R429): a unit that is not ACTIVE records the last stNum of every block, and its blocks follow it (R218). -/
def execGooseStRx (w : BrxWords) (s : State) : Res :=
  brxRx 0x03 w (fun h p s =>
    let l := gooseEntries h (p.flatMap brxData)
    if s.fo.state = .active then s
    else l.foldl (fun s e => followGoose e.1 e.2 s) (onFo (fun f => { f with goStRx := l.foldl (fun t e => t.put e.1 e.2) f.goStRx }) s)) s

/-! ## Replication (R426–R428) -/

/-- A unit that receives replications (R426, R432). -/
def receivesRepl (s : State) : Bool := s.fo.state == .standby || s.fo.state == .relinquished

/-- The replication of a capture boundary changed. -/
def modRx (t : LT) (f : ReplRx → ReplRx) (s : State) : State :=
  if receivesRepl s then onFo (fun x => { x with repl := { x.repl with rx := x.repl.rx.upd t {} f } }) s else s

/-- The words of a REPL from byte `ofs` of an engine on, each under its own tag (R419). -/
def replWords (engine : Nat) : Nat → List (Vector Byte 36) → List ReplChunk
  | _, [] => []
  | ofs, w :: l => { engine := engine, ofs := ofs, tag := (w[32]).toNat, data := brxData w } :: replWords engine (ofs + 32) l

/-- REPL_RX (R411, R419, R426). -/
def execReplRx (w : BrxWords) (s : State) : Res :=
  brxRx 0x04 w (fun h p => modRx (brxBoundary h) (fun r => { r with
    chunks := r.chunks ++ replWords (brxArg h 2 / 131072 % 64) (brxArg h 2 % 131072) p, count := r.count + p.length })) s

/-- The entries of a TASKS payload: task record index and TCLK − CYC_LT, 16 bytes each (R419). -/
def taskEntriesRx (p : List Byte) : List (Nat × BitVec 64) :=
  (List.range (p.length / 16)).map (fun i => (fieldBE p (16 * i) 2, BitVec.ofNat 64 (fieldBE p (16 * i + 8) 8)))

/-- TASKS_RX (R411, R419). -/
def execTasksRx (w : BrxWords) (s : State) : Res :=
  brxRx 0x05 w (fun h p => modRx (brxBoundary h) (fun r => { r with
    tasks := r.tasks ++ taskEntriesRx (p.flatMap brxData), count := r.count + p.length })) s

/-- REPL_END_RX (R411, R426): the replication is complete once every word it counts has been received. -/
def execReplEndRx (w : BrxWords) (s : State) : Res :=
  brxRx 0x06 w (fun h _ s =>
    modRx (brxBoundary h) (fun r => if r.count = brxArg h 2 then { r with completeAt := some s.now } else r) s) s

/-- TASKS of this unit: every task record's j and TCLK − CYC_LT (R387, R419). -/
def taskOffsets (s : State) : List (Nat × BitVec 64) :=
  (List.range 48).flatMap (fun e =>
    let l := taskEntries s e
    ((List.range l.length).zip l).map (fun x => (32 * e + x.1, (getTask s x.2.1 x.2.2.task).tclkOfs)))

/-- REPL_TRANSMIT (R426): within the frame the ACTIVE unit sends REPL for every range, TASKS for every task, and REPL_END. -/
def execReplTransmit (s : State) : Res :=
  match s.fo.repl.captures with
  | [] => .next s
  | (b, cap) :: _ =>
    if s.fo.state ≠ .active ∨ s.fo.repl.sent ∨ !s.fo.linkUp then .next s else
    let s := cap.foldl (fun s c => sendBrx (brxRepl b c.engine c.ofs c.tag c.data) s) s
    let l := taskOffsets s
    let s := if l.isEmpty then s else sendBrx (brxTasks b l) s
    let n := (cap.map (fun c => ceilDiv c.data.length 32)).sum + ceilDiv l.length 2
    .next (onFo (fun f => { f with repl := { f.repl with sent := true } }) (sendBrx (brxReplEnd b n) s))

/-- The own captured word at a byte of an engine, if it was captured. -/
def capturedWord (cap : List ReplChunk) (e a : Nat) : Option (List Byte) :=
  (cap.find? (fun c => c.engine == e && decide (c.ofs ≤ a ∧ a + 32 ≤ c.ofs + c.data.length))).map (fun c => (c.data.drop (a - c.ofs)).take 32)

/-- A received word that differs from the own capture of the matched boundary (R428). -/
def differs (cap : List ReplChunk) (c : ReplChunk) : Bool :=
  match capturedWord cap c.engine c.ofs with
  | some own => own != c.data
  | none => false

/-- The word's owner has its region there, so that the tag matches (R9, R419). -/
def replAdmits (s : State) (c : ReplChunk) : Bool :=
  match regionOf (getEng s c.engine) c.tag with
  | some r => inData r c.ofs 32
  | none => false

/-- The active unit's words written into the live instance memory of an engine, for one owner (R428): no cycle of that owner starts there for 2 µs
and 4 ns per word. -/
def writeWords (e : Nat) (o : Tag) (l : List ReplChunk) (s : State) : State :=
  if l.isEmpty then s else
  let s := modEng e (fun g => { g with
    mem := l.foldl (fun m c => m.writeN c.ofs c.data) g.mem
    copying := (o, ltAdd s.now (usTu 2 + nsTu (4 * l.length))) :: g.copying.filter (fun x => x.1 != o || !ltReached s.now x.2) }) s
  onFo (fun f => { f with ctr := vadd f.ctr 4 l.length }) s

/-- The words of a replication that differ are written; one whose tag does not match is refused; an engine without power takes none (R9, R428). -/
def writeChunks (l : List ReplChunk) (s : State) : State :=
  let bad := l.filter (fun c => !replAdmits s c)
  let good := l.filter (replAdmits s)
  let s := bad.foldl (fun s _ => tagRefused 4 s) s
  ((good.map (fun c => (c.engine, c.tag))).eraseDups).foldl (fun s k =>
    writeWords k.1 k.2 (good.filter (fun c => c.engine == k.1 && c.tag == k.2)) s) s

/-- A task's TCLK − CYC_LT set to the active unit's value plus Δ (R428). -/
def alignTask (x : Nat × BitVec 64) (s : State) : State :=
  match (taskEntries s (x.1 / 32))[x.1 % 32]? with
  | none => s
  | some (o, te) =>
    let v := x.2 + s.fo.ltOffset
    modTask o te.task (fun k => { k with tclkOfs := v, lastTclk := k.lastCycLt + v }) s

/-- One complete replication applied (R428). -/
def applyRepl (e : BitVec 64 × ReplRx) (s : State) : State :=
  let cap := ((matchCapture s e.1).map (·.2)).getD []
  let s := writeChunks (e.2.chunks.filter (fun c => (getEng s c.engine).domain == .on && differs cap c)) s
  let s := e.2.tasks.foldl (fun s x => alignTask x s) s
  onFo (fun f => { f with ctr := vadd f.ctr 3 1, repl := { f.repl with applied := true, rx := f.repl.rx.del e.1 } }) s

/-- REPL_APPLY (R428): at the first frame boundary after it became complete. -/
def execReplApply (s : State) : Res :=
  if !receivesRepl s then .next s else
  let due (e : BitVec 64 × ReplRx) : Bool := match e.2.completeAt with
    | some t => decide (0 < ltDiff s.fb.frameLt t)
    | none => false
  .next ((s.fo.repl.rx.filter due).reverse.foldl (fun s e => applyRepl e s) s)

/-! ## Timers (R415, R423, R430, R438) -/

/-- DISCOVERY_TIMEOUT (R423): no partner within the discovery time. -/
def execDiscoveryTimeout (s : State) : Res :=
  match s.fo.discoverAt with
  | none => .next s
  | some t =>
    if s.fo.state ≠ .start ∨ s.fo.partner = .present ∨ !ltReached s.now t ∨ s.fo.eMem = 0xFFFFFF then .next s
    else .next (formClaim false (endArbitration s))

/-- WATCHDOG_EXPIRY (R430): it cannot be disabled. -/
def execWatchdogExpiry (s : State) : Res :=
  if ltDiff s.now s.fo.wdogAt < msTu s.fo.cfg.wdogMs then .next s else .next (setTrigger 3 true s)

/-- TIME_SV_TRIGGER (R430): both conditions have held continuously for T_diag. -/
def execTimeSvTrigger (s : State) : Res :=
  match s.fo.timeSvSince with
  | some t => if timeSvCond s && decide (t + msTu s.fo.cfg.tDiagMs ≤ s.abs) then .next (setTrigger 2 s.fo.cfg.timeSvEn s) else .next s
  | none => .next s

/-- EPOCH_RESET_WINDOW (R414, R415). -/
def execEpochResetWindow (s : State) : Res := .next (epochTry s)

/-- One swap due at a frame boundary (R438); a unit no longer ACTIVE has nothing to hand over. -/
def doSwap (w : Waiting) (s : State) : State :=
  if s.fo.state ≠ .active then reply w (st .notReady) s
  else
    let c := s.fo.claim
    relinquish 6 .standby (onFo (fun f => { f with swapWait := f.swapWait ++ [(c, w)] }) s)

/-- SWAP_BOUNDARY (R438): the first frame boundary at least 1 ms after FO_SWAP. -/
def execSwapBoundary (s : State) : Res :=
  let due (e : LT × Waiting) : Bool := ltReached s.fb.frameLt e.1
  let l := s.fo.swapAt.filter due
  .next (l.foldl (fun s e => doSwap e.2 s) (onFo (fun f => { f with swapAt := f.swapAt.filter (fun e => !due e) }) s))

/-- FO_WDOG_WRITE (R430, R440): a write by SU restarts the watchdog, whose trigger ends (log 21). -/
def execFoWdogWrite (s : State) : Res :=
  .next (onFo (fun f => { f with wdogAt := s.now, diag := f.diag &&& 7 }) s)

/-! ## Opcodes (R425, R438, R441) -/

/-- The ranges of the pair settings (R410, R423, R430, R433, R434). -/
def pairOk (c : PairCfg) : Bool :=
  decide (100 ≤ c.discoverMs ∧ c.discoverMs ≤ 10000 ∧ c.witUs ≤ 100000 ∧ c.handoverUs ≤ 1000 ∧ 1 ≤ c.nGuard ∧ c.nGuard ≤ 255 ∧
    10 ≤ c.tDiagMs ∧ c.tDiagMs ≤ 10000 ∧ 10 ≤ c.wdogMs ∧ c.wdogMs ≤ 1000)

/-- What FoStagePair refuses, over the session's view with its items laid in (R626, R630). -/
def checkFoStagePair (p : PairCfg) (_view : List Item) (_s : State) : Option Status :=
  if pairOk p then none else some .badParam

/-- FO_STAGE_PAIR (R441). -/
def execFoStagePair (c : Cmd) (p : PairCfg) (s : State) : Res :=
  stage 0x0E01 false c [.pair p] (checkFoStagePair p) s

/-- The replicated ranges of a configuration with their owners. -/
def viewRepl (view : List Item) : List (Nat × ReplRange) :=
  view.flatMap (fun i => match i with
    | .repl o l => l.map (fun r => (o, r))
    | _ => [])

/-- A replicated range lies in its owner's data region on its engine (R425). -/
def replIn (view : List Item) (x : Nat × ReplRange) : Bool :=
  decide (x.2.ofs % 32 = 0 ∧ x.2.len % 32 = 0 ∧ 0 < x.2.len) &&
  (viewEngine view x.2.engine.val).any (fun e => e.1 == x.1 && decide (e.2.dataBase ≤ x.2.ofs ∧ x.2.ofs + x.2.len ≤ e.2.dataBase + e.2.data.length))

/-- R425, R630: the conditions on the replicated ranges; the offending owner. -/
def replCond (view : List Item) : Option Nat :=
  match (viewRepl view).find? (fun x => !replIn view x) with
  | some x => some x.1
  | none => if 2097152 < ((viewRepl view).map (fun x => x.2.len)).sum then ((viewRepl view).head?).map (·.1) else none

/-- What FoStageRepl refuses, over the session's view with its items laid in (R626, R630). -/
def checkFoStageRepl (c : Cmd) (o : Tag) (view : List Item) (_s : State) : Option Status :=
  if issuer c ≠ 0 ∧ o ≠ issuer c then some .denied else if (replCond view).isSome then some .badParam else none

/-- FO_STAGE_REPL (R425, R441). -/
def execFoStageRepl (c : Cmd) (o : Tag) (l : List ReplRange) (s : State) : Res :=
  stage 0x0E02 true c [.repl o l] (checkFoStageRepl c o) s

/-- FO_RELINQUISH (R432, R441). -/
def execFoRelinquish (c : Cmd) (s : State) : Res :=
  command 0x0E10 false c s fun s =>
    if s.fo.state ≠ .active then (s, some (st .notReady)) else (relinquish 5 .relinquished s, some (st .ok))

/-- Some segment is in start-up or recovery mode (R141, R438). -/
def segBusy (s : State) : Bool :=
  (List.range 2).any (fun g => let x := vget s.fo.seg g {}
    x.cfg.en && x.slotted && (x.reason == .startup || x.reason == .recovery))

/-- FO_SWAP (R438). -/
def execFoSwap (c : Cmd) (s : State) : Res :=
  command 0x0E11 false c s fun s =>
    if s.fo.state ≠ .active ∨ s.fo.partner ≠ .present ∨ !s.fo.hb.eligible ∨ s.fo.hb.diag ≠ 0 then (s, some (st .notReady))
    else if segBusy s then (s, some (st .busy))
    else (onFo (fun f => { f with swapAt := f.swapAt ++ [(ltAdd s.now (msTu 1), { cmd := c, opcode := 0x0E11 })] }) s, none)

/-- FO_REARM (R408, R441): OVERRUN ends with it (log 21). -/
def execFoRearm (c : Cmd) (s : State) : Res :=
  command 0x0E12 false c s fun s =>
    if s.fo.state ≠ .relinquished then (s, some (st .notReady))
    else (setRole .standby (onFo (fun f => { f with diag := f.diag &&& ~~~2 }) s), some (st .ok))

/-- FO_EPOCH_RESET (R414, R415). -/
def execFoEpochReset (c : Cmd) (s : State) : Res :=
  command 0x0E13 false c s fun s =>
    if s.fo.state = .active ∨ (s.fo.partner = .present ∧ s.fo.hb.active) then (s, some (st .busy))
    else (onFo (fun f => { f with eMem := 0, epochRst := true, epochClaimDue := true }) s, some (st .ok))

/-- What FO_READ_PAIR gives of a heartbeat (R418, R420). -/
def heartbeatRec (m : BrxMsg) : List Nat :=
  [bitN m.active + 2 * bitN m.eligible + 4 * bitN m.start + 8 * bitN m.gateOpen + 16 * bitN m.epochRst, m.seq.toNat, m.txLt.toNat,
   m.claim.toNat, m.echoTx.toNat, m.echoRx.toNat, m.configTag.toNat, m.diag.toNat]

/-- FO_READ_PAIR (R441). -/
def execFoReadPair (c : Cmd) (s : State) : Res :=
  answer 0x0E14 true c s { status := .ok, buf := .recs [
    [(foStatus s).toNat, (claimReg s).toNat, s.fo.hb.claim.toNat, (foDiag s).toNat, s.fo.ltOffset.toNat], heartbeatRec s.fo.hb] }

/-- FO at the commit instant (R412, R441). -/
def foCommit (active : List Item) (s : State) : State :=
  onFo (fun f => { f with
    cfg := (active.findSome? (fun i => match i with
      | .pair c => some c
      | _ => none)).getD {}
    repl := { f.repl with ranges := viewRepl active } }) s

end Sys2Proof.Machine
end

