-- ==== Sys2Proof/Machine/Cabinet.lean ====
section
/-! DEFINITION. Meanings of the cabinet-bus events and opcodes (chapter 04), which belong to the Fail-over Unit. -/

namespace Sys2Proof.Machine

/-! ## Parts -/

/-- Segment g. -/
def getSeg (s : State) (g : Nat) : Segment := vget s.fo.seg g {}

/-- Segment g changed. -/
def modSeg (g : Nat) (f : Segment → Segment) (s : State) : State := onFo (fun x => { x with seg := vmod x.seg g f }) s

/-- Station k of segment g changed. -/
def modStn (g k : Nat) (f : Station → Station) (s : State) : State := modSeg g (fun x => { x with stn := vmod x.stn k f }) s

/-- The staged station of a node. -/
def stnCfg (s : State) (g k : Nat) : Option StnCfg := (getSeg s g).cfg.stations.find? (fun c => c.node == k)

/-- The staged stations in ascending node order. -/
def stnOrder (c : SegCfg) : List StnCfg := sortBy (·.node) c.stations

/-- The time a frame of L bytes occupies the bus, in tu (R138). -/
def busTime (l : Nat) : Nat := nsTu ((l + 20) * 800)

/-- The length of a station-protocol frame with n bytes of payload: header, 24 bytes, payload and FCS, 64 at least (R134, R138). -/
def cabLen (n : Nat) : Nat := max 64 (42 + n)

/-- The length of a station's report (R138, R143). -/
def reportLen (c : StnCfg) : Nat := cabLen (16 + c.ilen)

/-- The slot offsets O_i of the stations, in tu, cumulative from O_0 = 4 µs (R138). -/
def slotOffsets : Nat → List StnCfg → List (Nat × Nat)
  | _, [] => []
  | o, c :: l => (c.node, o) :: slotOffsets (o + busTime (reportLen c) + usTu 4) l

/-- O_i of the stations of a list, by node. -/
def offsetIn (l : List StnCfg) (k : Nat) : Nat := (((slotOffsets (usTu 4) l).find? (fun x => x.1 == k)).map (·.2)).getD 0

/-- The assigned stations in ascending node order (R138). -/
def assigned (x : Segment) : List StnCfg := (stnOrder x.cfg).filter (fun c => (vget x.stn c.node {}).state != .unassigned)

/-- O_i of a node among the assigned stations (R138). -/
def slotOffset (x : Segment) (k : Nat) : Nat := offsetIn (assigned x) k

/-- The end of a station's slot, where this cycle's image has been sent or heard (R138). -/
def slotEnd (s : State) (g : Nat) (c : StnCfg) : Option LT :=
  (getSeg s g).imageEnd.map (fun t => ltAdd t (slotOffset (getSeg s g) c.node + busTime (reportLen c)))

/-- The event of a station that became absent or PRESENT (R147, R149). -/
def stnEvent (g k : Nat) (s : State) : State :=
  raiseArg 0x75 0 (BitVec.ofNat 32 (256 * g + k)) (modSeg g (fun x => { x with absentChg := true }) s)

/-! ## Frames (R143) -/

/-- Message type codes. -/
def cabCode : CabType → Nat
  | .image => 1 | .report => 2 | .discover => 3 | .announce => 4 | .assign => 5 | .reserved => 0

/-- Reason codes. -/
def cabReasonCode : CabReason → Nat
  | .none => 0 | .startup => 1 | .test => 2 | .recovery => 3

/-- The payload of a frame (R143). -/
def cabPayload (f : CabFrame) : List Byte :=
  match f.type with
  | .image => f.entries.flatMap (fun e =>
      bytesBE 1 e.node ++ bytesBE 1 (bitN e.resync + 2 * bitN e.safe) ++ bytesBE 2 e.data.length ++ e.data)
  | .report => bytesBE 2 (bitN f.safeState + 2 * bitN f.outFault + 4 * bitN f.inFault) ++ bytesBE 2 f.data.length ++
      bytesBE 4 f.echo.toNat ++ bytesBE 4 f.inputAge.toNat ++ bytesBE 4 0 ++ f.data
  | .announce => bytesBE 4 f.vendor.toNat ++ bytesBE 4 f.model.toNat ++ bytesBE 8 f.serial.toNat ++ bytesBE 2 f.ilenMax ++
      bytesBE 2 f.olenMax ++ bytesBE 2 f.protoVer.toNat ++ bytesBE 2 0
  | .assign =>
    match f.assign with
    | none => []
    | some a => bytesBE 1 a.node ++ bytesBE 1 a.safeCycles ++ bytesBE 1 a.slotK ++ bytesBE 1 0 ++ bytesBE 4 a.periodNs ++
        bytesBE 4 a.offsetNs ++ bytesBE 2 a.ilen ++ bytesBE 2 a.olen ++ bytesBE 4 0
  | _ => []

/-- A frame without its FCS, padded (R143, R105). -/
def cabBytes (f : CabFrame) : List Byte :=
  let p := cabPayload f
  padBytes (bytesBE 6 f.dst.toNat ++ bytesBE 6 f.src.toNat ++ bytesBE 2 f.etype.toNat ++ bytesBE 1 (16 + cabCode f.type) ++
    bytesBE 1 (bitN (f.seg == 1) + 2 * bitN f.slotted + 8 * cabReasonCode f.reason) ++ bytesBE 1 f.node ++ bytesBE 1 0 ++
    bytesBE 4 f.cycle.toNat ++ bytesBE 4 f.claim.toNat ++ bytesBE 8 f.cycleLt.toNat ++ bytesBE 2 p.length ++ bytesBE 2 0 ++ p)

/-- The entries of an IMAGE's payload (R143). -/
def readEntries : Nat → List Byte → List CabEntry
  | 0, _ => []
  | n + 1, b =>
    if b.length < 4 then [] else
    let flags := (byteAt b 1).toNat
    { node := (byteAt b 0).toNat, resync := flags.testBit 0, safe := flags.testBit 1, data := (b.drop 4).take (be16 b 2) } ::
      readEntries n (b.drop (4 + be16 b 2))

/-- The frame that the bytes of an untagged frame spell (R143). Another version than 0x1 reads as a reserved message type (log 135). -/
def readCab (b : List Byte) : CabFrame :=
  let h := b.drop 14
  let p := (h.drop 24).take (be16 h 0x14)
  let w (o n : Nat) := ofBytesBE ((p.drop o).take n)
  let mode := (byteAt h 1).toNat
  { type := match (byteAt h 0).toNat with
      | 0x11 => .image
      | 0x12 => .report
      | 0x13 => .discover
      | 0x14 => .announce
      | 0x15 => .assign
      | _ => .reserved
    seg := if mode.testBit 0 then 1 else 0
    slotted := mode / 2 % 4 == 1
    reason := match mode / 8 % 4 with
      | 1 => .startup
      | 2 => .test
      | 3 => .recovery
      | _ => .none
    node := (byteAt h 2).toNat, cycle := BitVec.ofNat 32 (ofBytesBE ((h.drop 4).take 4)), claim := BitVec.ofNat 32 (ofBytesBE ((h.drop 8).take 4))
    cycleLt := BitVec.ofNat 64 (ofBytesBE ((h.drop 12).take 8))
    src := BitVec.ofNat 48 (ofBytesBE ((b.drop 6).take 6)), dst := BitVec.ofNat 48 (ofBytesBE (b.take 6)), etype := BitVec.ofNat 16 (be16 b 12)
    entries := readEntries 32 p
    safeState := (w 0 2).testBit 0, outFault := (w 0 2).testBit 1, inFault := (w 0 2).testBit 2
    echo := BitVec.ofNat 32 (w 4 4), inputAge := BitVec.ofNat 32 (w 8 4), data := (p.drop 16).take (w 2 2)
    vendor := BitVec.ofNat 32 (w 0 4), model := BitVec.ofNat 32 (w 4 4), serial := BitVec.ofNat 64 (w 8 8)
    ilenMax := w 16 2, olenMax := w 18 2, protoVer := BitVec.ofNat 16 (w 20 2) }

/-- A frame passes through its queue of QM, one consumer after one producer (R182); a packet refused is discarded. -/
def viaQueue (q : Nat) (header bytes : List Byte) (s : State) : Bool × State :=
  match sendPacket q 0 header bytes s with
  | (s, .ok) => (true, (takePacket q s).2)
  | (s, _) => (false, s)

/-- A frame of the controller sent on its segment through queue 0x18 + g, while the gate is open and the unit is node 0 (R133,
R413). -/
def sendCab (g : Fin 2) (f : CabFrame) (s : State) : State :=
  if !s.fo.gateOpen || !(getSeg s g.val).coord then s else
  let b := cabBytes f
  match viaQueue (0x18 + g.val) (descBytes { length := b.length }) b s with
  | (true, s) => emit (.cab g.val b) s
  | (false, s) => s

/-- A unit frame of the present cycle (R143). -/
def unitFrame (s : State) (g : Fin 2) (type : CabType) : CabFrame :=
  let x := getSeg s g.val
  { type := type, seg := g, slotted := x.slotted, reason := x.reason, node := if x.coord then 0 else 1, cycle := x.cycle,
    claim := claimReg s, cycleLt := x.t0, src := x.cfg.mac, dst := x.cfg.grpA, etype := x.cfg.etype }

/-- A frame discarded on a segment (R134, R152). -/
def cabDiscard (g : Nat) (s : State) : State := modSeg g (fun x => { x with discarded := satInc x.discarded }) s

/-- A frame heard on a segment (R134): one that is not good by R103 with L_max = 1,536 is discarded; a good one passes through queue 0x16 + g, and one of
another EtherType or of a reserved type is then discarded. Every discard is counted. A row that names another message type than the frame carries
is no occurrence. -/
def hearCab (g : Fin 2) (type : CabType) (rxLt : LT) (f : Frame) (k : CabFrame → State → State) (s : State) : Res :=
  let x := getSeg s g.val
  if !x.cfg.en then .next s
  else if rxClass f.len 1536 f.fcsOk ≠ .good then .next (cabDiscard g.val s)
  else
    let c := readCab f.bytes
    let known := c.etype == x.cfg.etype && c.type != .reserved
    if known && c.type != type then .next s else
    match viaQueue (0x16 + g.val) (noticeBytes s (0x16 + g.val) rxLt (rxStatusWord 0 0 f.codeErr false false) (0x10 + g.val) 0 0 false) f.bytes s with
    | (true, s) => .next (if known then k c s else cabDiscard g.val s)
    | (false, s) => .next s

/-! ## Absence (R147) -/

/-- The input points of a station take invalid with oldData and keep their value and LT, at once (R147). -/
def stnInvalid (g k : Nat) (s : State) : State :=
  match stnCfg s g k with
  | none => s
  | some c =>
    applyOutput (c.inputs.filterMap (fun m => match s.ps.defs.get? m.point, getPoint s m.point with
      | some d, some r =>
        if d.writer = .cab g k then
          some { index := m.point, value := r.value, quality := (r.quality &&& ~~~3) ||| qInvalid ||| qOldData, lt := r.lt, writer := .cab g k }
        else none
      | _, _ => none)) s

/-- A station is absent from this instant: its inputs, the flag and the event (R147). -/
def nowAbsent (g k : Nat) (s : State) : State := stnEvent g k (stnInvalid g k s)

/-- A missed report counted; the N-th in a row declares the station absent (R147). -/
def countMiss (g k : Nat) (s : State) : State :=
  let s := modStn g k (fun y => { y with
    missed := min 15 (y.missed + 1), missedTotal := y.missedTotal + 1, missCounted := true }) s
  let y := vget (getSeg s g).stn k {}
  if (y.state = .present ∨ y.state = .resyncPending) ∧ (getSeg s g).cfg.n ≤ y.missed then
    nowAbsent g k (modStn g k (fun y => { y with state := .absent, freshAt := none, resyncFirst := none }) s)
  else s

/-- STATION_ABSENT (R147): in normal mode, at the end of its slot. -/
def execStationAbsent (g : Fin 2) (k : Fin 32) (s : State) : Res :=
  let x := getSeg s g.val
  let y := vget x.stn k.val {}
  match stnCfg s g.val k.val with
  | none => .next s
  | some c =>
    let passed := match slotEnd s g.val c with
      | some t => ltReached s.now t
      | none => false
    if !x.cfg.en ∨ x.slotted ∨ x.modeChanged ∨ y.reported ∨ y.missCounted ∨ !(y.state == .present || y.state == .resyncPending) ∨
        y.missed + 1 < x.cfg.n ∨ !passed then .next s
    else .next (countMiss g.val k.val s)

/-! ## The cabinet cycle (R136–R142) -/

/-- The PLCA settings of the segment's PHY follow its mode and role (R133, R140). -/
def setPlca (g : Nat) (s : State) : State :=
  modSeg g (fun x => { x with plca := {
    en := x.cfg.en && x.slotted, node := if x.coord then 0 else 1
    count := ((x.cfg.stations.map (·.node)).foldl max 1) + 1 } }) s

/-- The end of the past cycle: missed reports, and the run of slotted cycles in which every present station reported (R141, R142,
R147). -/
def closeCycle (g : Nat) (s : State) : State :=
  let x := getSeg s g
  let all := (stnOrder x.cfg).all (fun c => let y := vget x.stn c.node {}
    !(y.state == .present || y.state == .resyncPending) || y.reported)
  let s := (stnOrder x.cfg).foldl (fun s c =>
    let y := vget x.stn c.node {}
    if y.state = .unassigned ∨ y.reported ∨ y.missCounted ∨ x.modeChanged then s else countMiss g c.node s) s
  modSeg g (fun x =>
    let n := if x.slotted && x.reason == .recovery && all then x.goodSlotted + 1 else 0
    { x with goodSlotted := n, nextMode := if 16 ≤ n ∧ x.nextMode.isNone then some (false, .none) else x.nextMode }) s

/-- A mode entered at a cycle start (R142); what was the start-up mode's end leaves unassigned stations absent. -/
def enterMode (slotted : Bool) (reason : CabReason) (g : Nat) (s : State) : State :=
  let x := getSeg s g
  if x.slotted = slotted ∧ x.reason = reason then modSeg g (fun x => { x with nextMode := none, modeChanged := false }) s else
  let ended := x.slotted && x.reason == .startup
  let s := modSeg g (fun x => { x with
    slotted := slotted, reason := reason, nextMode := none, modeChanged := true, goodSlotted := 0, collisions := [],
    collRecovery := x.collRecovery || (x.nextMode == some (true, .recovery) && reason == .recovery) }) s
  if !ended then s else
  (stnOrder x.cfg).foldl (fun s c => if (vget x.stn c.node {}).state = .unassigned then nowAbsent g c.node s else s) s

/-- Start-up discovery runs from phase 9 of the start-up on, at the unit that is ACTIVE after claim arbitration (R142, R554). -/
def startDiscovery (t0 : LT) (g : Nat) (s : State) : State :=
  if s.pa.ended.getLsbD 8 && s.fo.state == .active then
    modSeg g (fun x => { x with startedAt := if x.slotted && x.reason == .startup then some (x.startedAt.getD t0) else none }) s
  else s

/-- The PLCA role and the mode of the cycle that starts (R133, R141, R434). -/
def cycleMode (t0 : LT) (g : Nat) (s : State) : State :=
  let x := getSeg s g
  let due := ltReached t0 x.roleFrom
  let s := if due then modSeg g (fun x => { x with coord := s.fo.state == .active, recover := false }) s else s
  if due && x.recover && s.fo.state == .active then enterMode true .recovery g (modSeg g (fun x => { x with nextMode := none }) s)
  else
    match x.nextMode with
    | some (sl, r) => enterMode sl r g s
    | none => modSeg g (fun x => { x with modeChanged := false }) s

/-- The output data of a station: the low bytes of each mapped point's value in network order (R137, R144; log 24). -/
def stnData (s : State) (c : StnCfg) : List Byte :=
  c.outputs.foldl (fun d m =>
    match presented s m.point with
    | some r => splice d m.ofs (bytesBE m.len r.value.toNat)
    | none => d) (List.replicate c.olen 0)

/-- Every output point that a task writes has been written by a task cycle whose snapshot was taken at or after t_fresh (R149). -/
def stnFresh (s : State) (c : StnCfg) (t : LT) : Bool :=
  c.outputs.all (fun m => match s.ps.defs.get? m.point with
    | some d =>
      (match d.writer with
       | .task _ _ _ => (match s.fo.outTs.get? m.point with
          | some u => ltReached u t
          | none => false)
       | _ => true)
    | none => true)

/-- The image entry of a station, and the station after it (R143, R147–R149). -/
def stnEntry (s : State) (g : Nat) (c : StnCfg) : Option (CabEntry × Station) :=
  let x := getSeg s g
  let y := vget x.stn c.node {}
  let safe : CabEntry := { node := c.node, safe := true }
  let data (r : Bool) : CabEntry := { node := c.node, resync := r, data := stnData s c }
  match y.state with
  | .unassigned => none
  | .absent => some (safe, { y with undelivered := y.undelivered + 1 })
  | .present => some (data false, y)
  | .resyncPending =>
    match y.resyncFirst, y.freshAt with
    | some _, _ => some (data true, y)
    | none, some t =>
      if x.cycle ≠ y.returnCycle ∧ stnFresh s c t then some (data true, { y with resyncFirst := some x.cycle }) else some (safe, y)
    | none, none => some (safe, y)

/-- The output image built from the output points as they stand (R137). -/
def buildImage (g : Fin 2) (s : State) : State :=
  let l := (stnOrder (getSeg s g.val).cfg).filterMap (fun c => (stnEntry s g.val c).map (fun e => (c.node, e)))
  let f : CabFrame := { unitFrame s g .image with entries := l.map (fun e => e.2.1) }
  modSeg g.val (fun x => { x with image := some f, imageEnd := none })
    (l.foldl (fun s e => modStn g.val e.1 (fun _ => e.2.2) s) s)

/-- A firing of TCU4 on a segment: a cycle starts, unless a slotted cycle of k periods is under way (R140). -/
def segTick (t0 : LT) (g : Fin 2) (s : State) : State :=
  let x := getSeg s g.val
  if !x.cfg.en then s
  else if x.slotted ∧ 0 < x.slotPhase ∧ x.slotPhase < x.cfg.k then modSeg g.val (fun x => { x with slotPhase := x.slotPhase + 1 }) s
  else
    let s := setPlca g.val (startDiscovery t0 g.val (cycleMode t0 g.val (closeCycle g.val s)))
    let s := modSeg g.val (fun x => { x with
      slotPhase := 1, cycle := x.cycle + 1, t0 := t0, stn := x.stn.map (fun y => { y with reported := false, missCounted := false }) }) s
    buildImage g s

/-- CABINET_CYCLE_START (R136, R137, R140, R142): TCU4 fires. -/
def execCabinetCycleStart (s : State) : Res :=
  if !tcuDue s 4 then .next s else
  let t0 := ltSub (nextTarget s.now (getTcu s 4).target (getTcu s 4).period.toNat) (getTcu s 4).period.toNat
  .next (segTick t0 1 (segTick t0 0 (fireTcu 4 s)))

/-- IMAGE_TRANSMIT (R137, R140, R413): the image starts, from t0 + 10 µs on in normal mode; in slotted mode DISCOVER follows while a
station is not PRESENT (log 24). -/
def execImageTransmit (g : Fin 2) (s : State) : Res :=
  let x := getSeg s g.val
  match x.image with
  | none => .next s
  | some f =>
    if !x.cfg.en ∨ !s.fo.gateOpen ∨ !x.coord ∨ (!x.slotted ∧ !ltReached s.now (ltAdd x.t0 (usTu 10))) then .next s
    else
      let late := !x.slotted && decide (0 < ltDiff s.now (ltAdd x.t0 (usTu 20)))
      let s := modSeg g.val (fun x => { x with
        image := none, lateImage := x.lateImage || late, imageEnd := some (ltAdd s.now (busTime (cabLen (cabPayload f).length))) }) s
      let s := sendCab g f s
      let some_ := x.cfg.stations.any (fun c => (vget x.stn c.node {}).state != .present)
      .next (if x.slotted && some_ then sendCab g (unitFrame s g .discover) s else s)

/-! ## Frames heard -/

/-- The CLAIM of a station report: E_mem follows it (R411), and an ACTIVE unit whose partner is not present answers a higher one with
a new claim, or with SPLIT where an IMAGE of that claim has been heard within WIT (R424). -/
def stationClaim (c : BitVec 32) (s : State) : State :=
  let s := seeClaim c s
  if s.fo.state ≠ .active ∨ s.fo.partner = .present ∨ c.toNat ≤ s.fo.claim.toNat then s
  else
    let heard := (List.range 2).any (fun g => match (getSeg s g).heard.get? c with
      | some t => decide (s.abs < t + usTu s.fo.cfg.witUs)
      | none => false)
    if heard then raise 0x74 0 (onFo (fun f => { f with split := true }) s) else formClaim false s

/-- The inputs of a report as point writes (R139, R144). -/
def reportWrites (g : Nat) (c : StnCfg) (f : CabFrame) (rxLt : LT) : List PtWrite :=
  c.inputs.map (fun m => {
    index := m.point, value := BitVec.ofNat 64 (ofBytesBE ((f.data.drop m.ofs).take m.len)),
    quality := if f.inFault then qInvalid ||| qFailure else 0, lt := ltSub rxLt (nsTu f.inputAge.toNat), writer := .cab g c.node })

/-- An accepted report of station k (R146–R149). -/
def takeReport (g : Fin 2) (c : StnCfg) (f : CabFrame) (rxLt : LT) (s : State) : State :=
  let k := c.node
  let s := stationClaim f.claim s
  let diff := f.claim != claimReg s
  let late := !(getSeg s g.val).slotted && (match slotEnd s g.val c with
    | some t => decide (0 < ltDiff s.now t)
    | none => false)
  let y := vget (getSeg s g.val).stn k {}
  let done := y.state == .resyncPending && !f.safeState && (match y.resyncFirst with
    | some r => decide ((f.echo - r).toNat < 2147483648)
    | none => false)
  let s := modSeg g.val (fun x => { x with claimDiff := x.claimDiff || diff, lateReport := x.lateReport || late }) s
  let s := modStn g.val k (fun y => { y with
    reported := true, reportedOnce := true, missed := 0, safe := f.safeState, lastEcho := f.echo, claimDiff := y.claimDiff || diff
    returnCycle := if y.state = .absent then (getSeg s g.val).cycle else y.returnCycle
    freshAt := if y.state = .absent then (if c.inputs.isEmpty then some s.now else none) else y.freshAt
    resyncFirst := if y.state = .absent then none else y.resyncFirst
    state := if y.state = .absent then .resyncPending else if done then .present else y.state }) s
  let s := if done then stnEvent g.val k s else s
  sendBatch (.cab g.val) (reportWrites g.val c f rxLt) s

/-- REPORT_RECEIVE (R134, R139, R144–R149): a second report of a cycle is discarded and counted; one of another length is discarded and the
report is missed; one of a node without an assignment is discarded. -/
def execReportReceive (g : Fin 2) (f : Frame) (rxLt : LT) (s : State) : Res :=
  hearCab g .report rxLt f (fun f s =>
    let y := vget (getSeg s g.val).stn f.node {}
    match stnCfg s g.val f.node with
    | none => cabDiscard g.val s
    | some c =>
      if y.state = .unassigned then cabDiscard g.val s
      else if y.reported then modSeg g.val (fun x => { x with dupCtr := satInc x.dupCtr }) s
      else if f.data.length ≠ c.ilen then
        modStn g.val f.node (fun y => { y with mismatch := true })
          (cabDiscard g.val (modSeg g.val (fun x => { x with mismatch := true }) s))
      else takeReport g c f rxLt s) s

/-- The assignment of a station (R138, R143). -/
def assignFrame (s : State) (g : Fin 2) (c : StnCfg) (dst : Mac) : CabFrame :=
  let x := getSeg s g.val
  { unitFrame s g .assign with
    dst := dst
    assign := some { node := c.node, safeCycles := c.safeCycles, slotK := x.cfg.k, periodNs := 1000 * s.fo.cabPeriodUs,
                     offsetNs := slotOffset x c.node / 65536, ilen := c.ilen, olen := c.olen } }

/-- The stations that stay assigned and that a change of the assigned ones leaves at another offset are sent a new ASSIGN (R138, R150). -/
def reassign (g : Fin 2) (old : Segment) (s : State) : State :=
  (assigned (getSeg s g.val)).foldl (fun s c =>
    if (vget old.stn c.node {}).state = .unassigned ∨ slotOffset (getSeg s g.val) c.node = slotOffset old c.node then s
    else sendCab g (assignFrame s g c (vget (getSeg s g.val).stn c.node {}).mac) s) s

/-- ANNOUNCE_RECEIVE (R144): a match is sent ASSIGN, as are the stations behind it, and is absent until it reports (R142, R149; log 135); anything
else sets MISMATCH. -/
def execAnnounceReceive (g : Fin 2) (f : Frame) (rxLt : LT) (s : State) : Res :=
  hearCab g .announce rxLt f (fun f s =>
    let ok := match stnCfg s g.val f.node with
      | some c => decide (c.vendor = f.vendor ∧ c.model = f.model ∧ c.ilen ≤ f.ilenMax ∧ c.olen ≤ f.olenMax)
      | none => false
    match stnCfg s g.val f.node, ok with
    | some c, true =>
      let old := getSeg s g.val
      let s := modStn g.val f.node (fun y => { y with
        mac := f.src, reportedOnce := false, state := if y.state = .unassigned then .absent else y.state }) s
      reassign g old (sendCab g (assignFrame s g c f.src) s)
    | _, _ =>
      raiseArg 0x76 0 (BitVec.ofNat 32 (256 * g.val + f.node))
        (modStn g.val f.node (fun y => { y with mismatch := true }) (modSeg g.val (fun x => { x with mismatch := true }) s))) s

/-- IMAGE_RECEIVE (R135): the claim is heard (R424, R433); a unit that is not node 0 adopts the cycle number, and from its next cycle start the mode
that the image carries. Misses of the cycle whose image shows another mode are not counted (R142; log 135). -/
def execImageReceive (g : Fin 2) (f : Frame) (rxLt : LT) (s : State) : Res :=
  hearCab g .image rxLt f (fun f s =>
    let s := onFo (fun x => { x with lastImageAt := some s.abs }) s
    let s := modSeg g.val (fun x => { x with heard := x.heard.put f.claim s.abs }) s
    if (getSeg s g.val).coord then s
    else modSeg g.val (fun x =>
      let change := x.slotted != f.slotted || x.reason != f.reason
      { x with cycle := f.cycle, imageEnd := some (ltAdd s.now (nsTu 9600)), slotPhase := 1,
               modeChanged := x.modeChanged || change, nextMode := if change then some (f.slotted, f.reason) else none }) s) s

/-- COLLISION (R141): counted; more than 4 within 16 consecutive normal cycles ask for recovery. -/
def execCollision (g : Fin 2) (s : State) : Res :=
  let x := getSeg s g.val
  if !x.cfg.en then .next s else
  let l := if x.slotted then x.collisions else x.cycle :: x.collisions.filter (fun c => decide ((x.cycle - c).toNat < 16))
  .next (modSeg g.val (fun x => { x with
    collCtr := satInc x.collCtr, collisions := l,
    nextMode := if !x.slotted && decide (4 < l.length) then some (true, .recovery) else x.nextMode }) s)

/-- SLOTTED_STARTUP_END (R141): at the unit that runs start-up discovery, every staged station has reported once after ASSIGN, or 200 ms have passed
since it began; the mode changes at the next cycle start (R142). -/
def execSlottedStartupEnd (g : Fin 2) (s : State) : Res :=
  let x := getSeg s g.val
  let all := x.startedAt.isSome && x.cfg.stations.all (fun c => (vget x.stn c.node {}).reportedOnce)
  let started := (x.startedAt.map (fun t => ltReached s.now (ltAdd t (msTu 200)))).getD false
  if !x.cfg.en ∨ !x.slotted ∨ x.reason ≠ .startup ∨ x.nextMode.isSome ∨ !(all || started) then .next s
  else
    let s := modSeg g.val (fun x => { x with nextMode := some (false, .none) }) s
    .next (if s.fo.seg.any (fun y => y.cfg.en && y.slotted && y.reason == .startup && y.nextMode.isNone) then s else readiness (markPhase 9 true s))

/-! ## Opcodes (R153) -/

/-- The EtherTypes that the device itself interprets (R134). -/
def etypeOk (e : BitVec 16) : Bool :=
  decide (0x0600 ≤ e.toNat) && !([0x8100, 0x88A8, 0x8808, 0x888E, 0x88F7, 0x88FB, 0x892F].contains e.toNat)

/-- A mapping lies within its data (R144). -/
def mapOk (n : Nat) (m : StnMap) : Bool := decide (1 ≤ m.len ∧ m.len ≤ 8 ∧ m.ofs + m.len ≤ n)

/-- One staged station (R133, R143). -/
def stnOk (c : StnCfg) : Bool :=
  decide (2 ≤ c.node ∧ c.node ≤ 31 ∧ c.ilen ≤ 256 ∧ c.olen ≤ 64 ∧ 1 ≤ c.safeCycles ∧ c.safeCycles ≤ 15) &&
  c.inputs.all (mapOk c.ilen) && c.outputs.all (mapOk c.olen)

/-- The length of the output image with data for every station (R138). -/
def imageLen (c : SegCfg) : Nat := cabLen ((c.stations.map (fun x => 4 + x.olen)).sum)

/-- The last report of a normal cycle ends before the join window starts (R138). -/
def budgetOk (periodUs : Nat) (c : SegCfg) : Bool :=
  let img := usTu 10 + busTime (imageLen c)
  let l := stnOrder c
  let last := match l.getLast? with
    | some x => img + offsetIn l x.node + busTime (reportLen x)
    | none => img
  decide (last + usTu (10 + c.joinUs) ≤ usTu periodUs)

/-- One segment's settings (R134, R138, R140, R147, R153). -/
def segOk (periodUs : Nat) (c : SegCfg) : Bool :=
  etypeOk c.etype && decide (1 ≤ c.k ∧ c.k ≤ 16 ∧ 1 ≤ c.n ∧ c.n ≤ 15 ∧ 70 ≤ c.joinUs ∧ c.joinUs ≤ 500 ∧ 10 ≤ c.acceptMs ∧ c.acceptMs ≤ 1000) &&
  c.stations.all stnOk && nodupNat (c.stations.map (·.node)) && decide (imageLen c ≤ 1536) && budgetOk periodUs c

/-- The cabinet settings by themselves (R136). -/
def cabOk (c : CabCfg) : Bool :=
  decide (250 ≤ c.periodUs ∧ c.periodUs ≤ 10000 ∧ c.periodUs % 10 = 0) && (List.range 2).all (fun g => segOk c.periodUs (vget c.seg g {}))

/-- The cabinet settings of a configuration. -/
def viewCab (view : List Item) : CabCfg :=
  (view.findSome? (fun i => match i with
    | .cabinet c => some c
    | _ => none)).getD {}

/-- R136, R630: the period divides the major frame of the configuration. -/
def cabCond (view : List Item) : Option Nat :=
  if view.any (fun i => match i with
      | .cabinet _ => true
      | _ => false) && (10 * viewTicks view) % (viewCab view).periodUs != 0 then some 0 else none

/-- What FoStageCabinet refuses, over the session's view with its items laid in (R626, R630). -/
def checkFoStageCabinet (x : CabCfg) (view : List Item) (_s : State) : Option Status :=
  if cabOk x && (cabCond view).isNone then none else some .badParam

/-- FO_STAGE_CABINET (R134, R136, R138, R153). -/
def execFoStageCabinet (c : Cmd) (x : CabCfg) (s : State) : Res :=
  stage 0x0E08 false c [.cabinet x] (checkFoStageCabinet x) s

/-- FO_CAB_MODE (R141, R153) on a segment; one that is not enabled has no cycle at which to change. -/
def cabMode (c : Cmd) (g : Fin 2) (test : Bool) (s : State) : Res :=
  command 0x0E40 false c s fun s =>
    let x := getSeg s g.val
    let busy (r : CabReason) : Bool := r == .startup || r == .recovery
    if !x.cfg.en then (s, some (st .notReady))
    else if (x.slotted && busy x.reason) || (match x.nextMode with
        | some (true, r) => busy r
        | _ => false) then (s, some (st .busy))
    else
      let m : Bool × CabReason := if test then (true, .test) else (false, .none)
      (modSeg g.val (fun x => { x with nextMode := some m }) s, some (st .ok))

/-- FO_CAB_MODE, test (R153). -/
def execFoCabModeTest (c : Cmd) (g : Fin 2) (s : State) : Res := cabMode c g true s

/-- FO_CAB_MODE, normal (R153). -/
def execFoCabModeNormal (c : Cmd) (g : Fin 2) (s : State) : Res := cabMode c g false s

/-- A station made unassigned; it is absent meanwhile (R142, R153). -/
def unassign (g k : Nat) (s : State) : State :=
  let was := (vget (getSeg s g).stn k {}).state
  let s := modStn g k (fun y => { y with
    state := .unassigned, missed := 0, reportedOnce := false, freshAt := none, resyncFirst := none }) s
  if was = .present ∨ was = .resyncPending then nowAbsent g k s else s

/-- A segment by its number. -/
def segFin (g : Nat) : Fin 2 := if g = 0 then 0 else 1

/-- Part n of FoCabRediscover (R89). -/
def partFoCabRediscover (n : Nat) (s : State) : State × Status × List Byte :=
  if (stnCfg s (n / 32) (n % 32)).isNone then (s, .badParam, [])
  else (reassign (segFin (n / 32)) (getSeg s (n / 32)) (unassign (n / 32) (n % 32) s), .ok, [])

/-- FO_CAB_REDISCOVER (R153): bits 0–31 name C0 nodes, bits 32–63 C1 nodes. -/
def execFoCabRediscover (c : Cmd) (mask : BitVec 64) (s : State) : Res :=
  multi 0x0E41 false c mask partFoCabRediscover s

/-- One segment at the commit instant (R141, R149): a removed station is unmapped, an added one is unassigned and absent. -/
def segCommit (g : Nat) (new : SegCfg) (s : State) : State :=
  let old := getSeg s g
  let has (c : SegCfg) (k : Nat) : Bool := c.en && c.stations.any (fun x => x.node == k)
  let s := modSeg g (fun x => { x with
    cfg := new
    stn := Vector.ofFn (fun k => if has old.cfg k.val && has new k.val then vget x.stn k.val {} else {}) }) s
  if !new.en then
    modSeg g (fun x => { x with slotted := false, reason := .none, nextMode := none, modeChanged := false, image := none, imageEnd := none,
                                coord := false, recover := false, slotPhase := 0, startedAt := none, plca := {} }) s
  else if !old.cfg.en then
    modSeg g (fun x => { x with nextMode := some (true, .startup), slotPhase := 0, coord := s.fo.state == .active, startedAt := none }) s
  else reassign (segFin g) old ((stnOrder new).foldl (fun s c => if has old.cfg c.node then s else nowAbsent g c.node s) s)

/-- The cabinet bus at the commit instant t (R136): TCU4 on the major-frame boundary. -/
def cabCommit (t : LT) (active : List Item) (s : State) : State :=
  let c := viewCab active
  let changed := c.periodUs != s.fo.cabPeriodUs
  let s := (List.range 2).foldl (fun s g => let n := vget c.seg g {}; if (getSeg s g).cfg = n then s else segCommit g n s)
    (onFo (fun f => { f with cabPeriodUs := c.periodUs }) s)
  let on := (List.range 2).any (fun g => (getSeg s g).cfg.en)
  let u := getTcu s 4
  if !on then modTcu 4 (fun u => { u with en := false }) s
  else if !s.fb.running ∨ (u.en ∧ !changed) then s
  else modTcu 4 (fun u => { u with
    en := true, periodic := true, period := BitVec.ofNat 63 (usTu c.periodUs),
    target := if u.en ∧ u.target ≠ t then ltAdd t (usTu c.periodUs) else t }) s

end Sys2Proof.Machine
end

