-- ==== Sys2Proof/Machine/Balls.lean ====
section
/-! DEFINITION. The names and regions of the balls, the metrology corner, and the layout of the boot flash (R587–R590, R604). -/

namespace Sys2Proof.Machine

/-! ## Balls -/

/-- The letters that name rows (R587). -/
def rowLetters : List Char :=
  ['A', 'B', 'C', 'D', 'E', 'F', 'G', 'H', 'J', 'K', 'L', 'M', 'N', 'P', 'T', 'U', 'V', 'W', 'Y']

/-- The name of row r, r = 0–51: the 19 letters, then those after A, then 14 after B (R587). -/
def rowName (r : Nat) : List Char :=
  let c := rowLetters.getD (r % 19) 'A'
  if r < 19 then [c] else if r < 38 then ['A', c] else ['B', c]

/-- The row of a name, if it names one. -/
def rowOf (l : List Char) : Option Nat := (List.range 52).find? (fun r => rowName r == l)

/-- Regions of the balls (R588). -/
inductive BallRegion where
  | network
  | host
  | acquisition
  | centre
  | control
  | metrology
  deriving DecidableEq, Repr

/-- The region of the ball in row r (0–51) and column c (1–52): rows A–H are 0–7, J–BH 8–45, BJ–BP 46–51 (R588). -/
def ballRegion (r c : Nat) : Option BallRegion :=
  if 52 ≤ r ∨ c < 1 ∨ 52 < c then none
  else if r < 8 then some .network
  else if r < 46 then some (if 45 ≤ c then .host else if c ≤ 8 then .acquisition else .centre)
  else some (if c ≤ 14 then .metrology else .control)

/-- What a ball of the metrology corner carries (R589). -/
inductive CornerBall where
  | nc
  | vioMi
  | vssMi
  | vddMi
  | refclk
  | porstN
  | sealN
  | svcRxd
  | svcTxd
  deriving DecidableEq, Repr

/-- The metrology corner, rows BJ–BP as 46–51, columns 1–14 (R589). -/
def cornerBall (r c : Nat) : CornerBall :=
  match r with
  | 46 => .nc
  | 47 => if c ≤ 8 then .vioMi else if c ≤ 13 then .vssMi else .nc
  | 48 => ([.vddMi, .vddMi, .refclk, .vssMi, .porstN, .sealN, .svcRxd, .svcTxd] : List CornerBall).getD (c - 1) .vssMi
  | 49 => if c % 2 = 1 then .vssMi else .vddMi
  | 50 => if c % 2 = 1 then .vddMi else .vssMi
  | _ => .vssMi

/-! ## The boot flash -/

/-- What lies in the boot flash (R604). -/
inductive FlashSlot where
  | fwA
  | fwB
  | pkgA
  | pkgB
  deriving DecidableEq, Repr

/-- First address and size of a slot in bytes (R604). -/
def flashSlot : FlashSlot → Nat × Nat
  | .fwA => (0x00000000, 0x00800000)
  | .fwB => (0x00800000, 0x00800000)
  | .pkgA => (0x01000000, 0x20000000)
  | .pkgB => (0x21000000, 0x20000000)

/-- The device and the address in it of an address of the boot flash: the device on XSPI_CS_N[1] continues the address space (R604). -/
def flashDevice (a : Nat) : Nat × Nat := if a < Config.flashSize then (0, a) else (1, a - Config.flashSize)

/-- A read of a slot. -/
def flashRead (x : FlashSlot) (s : State) : State :=
  let (cs, a) := flashDevice (flashSlot x).1
  emit (.xspi (.read cs a (flashSlot x).2)) s

/-- What the boot ROM does on the xSPI bus at phase 1 (R604): the flash is reset, its table read, 8D-8D-8D entered at the lower of 250 MHz and the
maximum declared, and the firmware slots read. -/
def xspiBoot (s : State) : State :=
  flashRead .fwB (flashRead .fwA (emit (.xspi (.mode8d (min 250 Config.flashMhz))) (emit (.xspi .readSfdp) (emit (.xspi .resetPulse) s))))

end Sys2Proof.Machine
end

