-- ==== Sys2Proof/Machine/Compare.lean ====
section
/-! DEFINITION. The general compare units: firing into a destination, arming and disarming (R39–R44, R58, R627). -/

namespace Sys2Proof.Machine

/-- General unit k fires into its destination, at its target or late on the present tick (R39, R41, R42, R627). -/
def compareFire (k : Nat) (s : State) : State :=
  let u := getTcu s k
  let t := fireInstant s k
  let s := fireTcu k s
  match u.dest.toNat with
  | 0x20 => raiseArg 0x0D u.owner (BitVec.ofNat 32 k) s
  | 0x21 => noteBinary (BitVec.ofNat 32 (0x04000000 + k)) t true true s
  | 0x26 => releaseTimed k u.owner t s
  | d =>
    if 0x22 ≤ d ∧ d ≤ 0x25 then
      emit (.cnvAlign (d - 0x22) t) (onTb (fun b => { b with cnvAlign := vmod b.cnvAlign (d - 0x22) (fun _ => t) }) s)
    else s

/-- A unit that is due on this tick delivers its firing before it is re-armed or disarmed (R44). -/
def deliverDue (k : Nat) (s : State) : State := if tcuDue s k then compareFire k s else s

/-- COMPARE_FIRE (R39, R41, R42, R627): TCU20 + n is due. -/
def execCompareFire (n : Fin 12) (s : State) : Res := .next (deliverDue (20 + n.val) s)

/-- TB_TCU_ARM (R40, R41, R44, R58): a target with a mode; or, without a target, a new period for a unit that runs periodically, used from
its next firing. The spec gives this second form no shape: an arming without a target is it, and BAD_PARAM answers it for a unit that does not
run, or with a one-shot mode (DESIGN CHOICE, log 122). The period of a one-shot arming is neither judged nor written, and of several causes of a
refusal NOT_READY comes before BAD_PARAM (DESIGN CHOICE, log 122). -/
def execTbTcuArm (c : Cmd) (n : Fin 32) (target : Option LT) (periodic : Bool) (period : BitVec 64) (s : State) : Res :=
  command 0x0110 true c s fun s =>
    if tcuDenied c n.val s then (s, some (st .denied))
    else if (getTcu s n.val).dest = 0 then (s, some (st .notReady))
    else if periodic ∧ (period.toNat < 131072 ∨ period.toNat ≥ 2 ^ 63) then (s, some (st .badParam))
    else
      match target with
      | some t =>
        let s := deliverDue n.val s
        (modTcu n.val (fun u => { u.armAt s.now t with
          periodic := periodic, period := if periodic then period.truncate 63 else u.period }) s,
         some (st .ok))
      | none =>
        if (getTcu s n.val).en ∧ (getTcu s n.val).periodic ∧ periodic then
          (modTcu n.val (fun u => { u with period := period.truncate 63 }) s, some (st .ok))
        else (s, some (st .badParam))

/-- TB_TCU_DISARM (R44, R58). -/
def execTbTcuDisarm (c : Cmd) (n : Fin 32) (s : State) : Res :=
  command 0x0111 true c s fun s =>
    if tcuDenied c n.val s then (s, some (st .denied))
    else (modTcu n.val (fun u => { u with en := false }) (deliverDue n.val s), some (st .ok))

end Sys2Proof.Machine
end

