-- ==== Sys2Proof/Machine/Crypto.lean ====
section
/-! DEFINITION. Uses of the cryptographic functions that several engines share: AES-GCM over a text, and the hash of a curve (log 56). -/

namespace Sys2Proof.Machine

/-- The GCM key stream laid over a text. -/
def gcmCrypt (key : List Byte) (iv : BitVec 96) (text : List Byte) : List Byte :=
  ((List.range text.length).zip text).map (fun e => Config.gcmStream key iv e.1 ^^^ e.2)

/-- Sealed: the ciphertext and the tag. -/
def gcmSeal (key : List Byte) (iv : BitVec 96) (aad text : List Byte) : List Byte × BitVec 128 :=
  let c := gcmCrypt key iv text
  (c, Config.gcmTag key iv aad c)

/-- Opened, if the tag verifies. -/
def gcmOpen (key : List Byte) (iv : BitVec 96) (aad text : List Byte) (tag : BitVec 128) : Option (List Byte) :=
  if Config.gcmTag key iv aad text = tag then some (gcmCrypt key iv text) else none

/-- The hash that goes with a curve (R499). -/
def curveHash (p384 : Bool) (m : List Byte) : List Byte :=
  if p384 then bytesBE 48 (Config.sha384 m).toNat else bytesBE 32 (Config.sha256 m).toNat

end Sys2Proof.Machine
end

