-- ==== Sys2Proof/Machine/FabricOps.lean ====
section
/-! DEFINITION. Shared operations of the Chamois fabric (chapter 05): forwarding, admission, marking, mirroring, link states. -/

namespace Sys2Proof.Machine

/-- Fabric port n. -/
def getSw (s : State) (n : Nat) : SwPort := vget s.sw.port n {}

/-- Fabric port n changed. -/
def modSw (n : Nat) (f : SwPort → SwPort) (s : State) : State := { s with sw := { s.sw with port := vmod s.sw.port n f } }

/-- Counter k of fabric port n raised (R180). -/
def swCount (n k : Nat) (s : State) : State := modSw n (fun p => { p with ctr := vadd p.ctr k 1 }) s

/-- Ethernet port n. -/
def getPx (s : State) (n : Nat) : PxPort := vget s.px.port n {}

/-- Ethernet port n changed. -/
def modPx (n : Nat) (f : PxPort → PxPort) (s : State) : State := { s with px := { s.px with port := vmod s.px.port n f } }

/-- Counter k of Ethernet port n raised by an amount; on a disabled port none counts (R97, R119). -/
def pxCountBy (n k a : Nat) (s : State) : State :=
  modPx n (fun p => if p.cfg.phy = .disabled then p else { p with ctr := vadd p.ctr k a }) s

/-- Counter k of Ethernet port n raised (R119). -/
def pxCount (n k : Nat) (s : State) : State := pxCountBy n k 1 s

/-- The VLAN masks of a VLAN ID (R159). -/
def vlanOf (s : State) (v : BitVec 12) : VlanCfg := s.sw.vlan.getD v.toNat {}

/-- The limits of a queue (R166). -/
def limitsOf (s : State) (p c : Nat) : LimitsCfg := s.sw.limits.getD (p, c) {}

/-- Cells of queue (p, c), those of the frame in transmission included (R167). -/
def occ (s : State) (p c : Nat) : Nat :=
  let x := getSw s p
  ((vget x.queues c []).map (·.cells)).sum +
    (match x.sending with
     | some y => if y.cls = c then y.cells else 0
     | none => 0)

/-- P: the shared pool under the reserves in force (R166). -/
def poolSize (s : State) : Int :=
  129792 - ((List.range 128).map (fun i => ((limitsOf s (i / 8) (i % 8)).reserve : Int))).sum

/-- Pool cells in use: what each queue holds above its RESERVE (R167). -/
def poolUsed (s : State) : Nat :=
  ((List.range 128).map (fun i => occ s (i / 8) (i % 8) - (limitsOf s (i / 8) (i % 8)).reserve)).sum

/-- SW_CELLS_FREE: free cells outside the receive reserves (R178). -/
def cellsFree (s : State) : Nat := 129792 - ((List.range 128).map (fun i => occ s (i / 8) (i % 8))).sum

/-- Copies that have not all crossed the fabric. -/
def crossing (s : State) : List Copy :=
  (List.range 16).flatMap (fun p => (getSw s p).queues.toList.flatMap (fun q => q.filter (fun c => !c.queued)))

/-- Cells of a port's receive reserve in use: each frame with an admitted copy that has not crossed stage 1 yet (R166, R169). -/
def reserveUsed (s : State) (inPort : Nat) : Nat :=
  ((crossing s).foldl (fun (a : List Nat × Nat) c =>
      if c.inPort = inPort ∧ !ltReached s.now c.cross1 ∧ ¬a.1.contains c.fid then (c.fid :: a.1, a.2 + c.cells) else a) ([], 0)).2

/-! ## Stage 1 (R161) -/

/-- A cell slot, 16 ns, in tu. -/
def slotTu : Nat := 16 * 65536

/-- The end of the first whole slot from an instant on in which stage 1 connects input `i` to intermediate `m`: the slot numbers count 16 ns of LT
modulo 16, and slot s connects i to (i + s) mod 16 (R161). -/
def stage1Slot (t : LT) (i m : Nat) : LT :=
  let k := ceilDiv t.toNat slotTu
  BitVec.ofNat 64 ((k + (m + 16 - i % 16 + 16 - k % 16) % 16 + 1) * slotTu)

/-- The instant at which the last of `n` cells that are admitted now crosses stage 1: one cell in each such slot, behind those of earlier copies on
the same pair (R161, R164). -/
def crossStage1 (s : State) (i m n : Nat) : LT :=
  let from_ := match s.sw.stage1.get? (i, m) with
    | some t => if ltReached s.now t then s.now else t
    | none => s.now
  ltAdd (stage1Slot from_ i m) ((n - 1) * (16 * slotTu))

/-- Cells of a copy that have crossed stage 1 and have not entered the transmit queue (R161, R179). -/
def cellsInMid (s : State) (c : Copy) : Nat :=
  if ltReached s.now c.cross1 then c.cells else c.cells - min c.cells (ceilDiv (ltDiff c.cross1 s.now).toNat (16 * slotTu))

/-! ## Mirror (R174–R177) -/

/-- One mirror entry, with its phase (R177). -/
def mirrorBytes (s : State) (rxLt : LT) (f : Frame) (len inPort cls : Nat) (dest : BitVec 16) (event : Nat) (multi ecn : Bool)
    (rxStatus : BitVec 16) (phase : Bool) : List Byte :=
  let n := min 96 f.bytes.length
  bytesLE 8 rxLt.toNat ++ bytesLE 8 s.now.toNat ++ bytesLE 2 len ++ [BitVec.ofNat 8 inPort, BitVec.ofNat 8 cls] ++
  bytesLE 2 dest.toNat ++ [BitVec.ofNat 8 event, BitVec.ofNat 8 (bitN multi + 2 * bitN ecn + 4 * bitN s.sw.mirGap)] ++
  bytesLE 2 rxStatus.toNat ++ [BitVec.ofNat 8 n] ++ bytesLE 4 0 ++ [BitVec.ofNat 8 (bitN phase)] ++
  f.bytes.take n ++ List.replicate (96 - n) 0

/-- Whether the staged selection takes an event of a class (R176). -/
def mirrorWants (s : State) (event inPort cls : Nat) (dest : BitVec 16) : Bool :=
  let m := s.sw.mirror
  s.sw.mirEn && m.classMask.getLsbD cls &&
  (match event with
   | 1 => m.inMask.getLsbD inPort
   | 2 => m.egMask &&& dest != 0
   | 7 => m.aged
   | 8 => m.flush
   | 9 => m.guardEv
   | _ => m.drop)

/-- SW writes a mirror entry for a selected event, its phase byte last, or drops it, counting the loss (R175). -/
def mirrorEvent (event : Nat) (rxLt : LT) (f : Frame) (len inPort cls : Nat) (dest : BitVec 16) (multi ecn : Bool)
    (rxStatus : BitVec 16) (s : State) : State :=
  if !mirrorWants s event inPort cls dest then s else
  let full := (s.sw.mirHead - s.sw.mirRelease).toNat = 2 ^ s.sw.mirSize.toNat
  let (ok, s) := if full then (false, s) else limited 0x20000 0 (secTu 1) 10000000 s
  if !ok then
    raise 0x1C 0 { s with sw := { s.sw with mirLost := satInc s.sw.mirLost, mirrorLost := true, mirGap := true } }
  else
    let i := s.sw.mirHead
    let e := mirrorBytes s rxLt f len inPort cls dest event multi ecn rxStatus (!i.getLsbD s.sw.mirSize.toNat)
    let at_ := s.sw.mirBase + BitVec.ofNat 64 (128 * (i.toNat % 2 ^ s.sw.mirSize.toNat))
    emit (.post (at_ + 31) ((e.drop 31).take 1)) <| emit (.mirror at_ (e.take 31) (e.drop 32)) { s with sw := { s.sw with mirHead := i + 1, mirGap := false } }

/-- A mirror entry for one copy of a frame (R177). -/
def mirrorCopy (event : Nat) (p : Nat) (c : Copy) (s : State) : State :=
  mirrorEvent event c.rxLt c.frame c.frame.len c.inPort c.cls (1#16 <<< p) c.multicast c.ecn c.rxStatus s

/-! ## Forwarding and admission (R157, R163–R170) -/

/-- R158: the entry of the forwarding database for an address and VLAN ID. -/
def fdbFind (s : State) (m : Mac) (v : BitVec 12) : Option FdbEntry := s.sw.fdb.find? (fun e => e.mac == m && e.vid == v)

/-- R157 step 3: the mask the forwarding database and the VLAN table give. -/
def lookupMask (s : State) (dst : Mac) (v : BitVec 12) : BitVec 16 :=
  let t := vlanOf s v
  (match fdbFind s dst v with
   | some e => e.mask
   | none => if isGroup dst then t.unkMc else t.unkUc) &&& t.member

/-- Where a frame entering the fabric goes, before its ingress bit is cleared (R157): by the action of PX, by the mask of its
descriptor, or by lookup. -/
def destMask (s : State) (f : Frame) (v : BitVec 12) (explicit : Option (BitVec 16)) : BitVec 16 :=
  match explicit with
  | some m => m
  | none => lookupMask s f.dst v

/-- R158: the source address of a frame received from P0–P13 is entered or moved, unless a static entry holds it or the
database is full. -/
def learn (p : Nat) (f : Frame) (v : BitVec 12) (s : State) : State :=
  if !vget s.sw.ports.learn (fabricPort s p) false || isGroup f.src then s else
  let e : FdbEntry := { mac := f.src, vid := v, mask := 1#16 <<< (fabricPort s p), static := false,
                        expires := ltAdd s.now (secTu s.sw.ports.ageing) }
  match fdbFind s f.src v with
  | some o =>
    if o.static then s
    else { s with sw := { s.sw with fdb := s.sw.fdb.map (fun x => if x.mac == f.src && x.vid == v then e else x) } }
  | none =>
    if s.sw.fdb.length < 16384 then { s with sw := { s.sw with fdb := s.sw.fdb ++ [e] } }
    else raise 0x18 0 { s with sw := { s.sw with fdbFull := true } }

/-- R170: whether a copy that joins a queue holding q cells is marked. -/
def ecnWanted (s : State) (p c q : Nat) : Bool :=
  decide ((limitsOf s p c).ecnDepth ≠ 0 ∧ (limitsOf s p c).ecnDepth ≤ q)

/-- The cells that intermediate m holds (R179; log 13). -/
def midHeld (m : Nat) (s : State) : Nat := (((crossing s).filter (fun c => c.mid == m)).map (cellsInMid s)).sum

/-- The peak of an intermediate follows the cells it holds (R179): it is noted before a copy leaves it and where it is read. -/
def notePeak (m : Nat) (s : State) : State :=
  let held := midHeld m s
  { s with sw := { s.sw with peak := vmod s.sw.peak m (fun x => if x.toNat < held then BitVec.ofNat 18 held else x) } }

/-- One copy is admitted to its queue or refused at LIMIT, for lack of pool, or for a port that is DOWN or DISABLED (R167,
R171); the answer says whether it was admitted. -/
def admitCopy (p : Nat) (c : Copy) (s : State) : State × Bool :=
  let q := occ s p c.cls
  let lim := limitsOf s p c.cls
  if (getSw s p).link = .down ∨ (getSw s p).link = .disabled then (mirrorCopy 5 p c (swCount p 3 s), false)
  else if q + c.cells > lim.limit then (mirrorCopy 3 p c (swCount p 1 s), false)
  else if q + c.cells > lim.reserve ∧ ((poolUsed s - (q - lim.reserve) + (q + c.cells - lim.reserve) : Nat) : Int) > poolSize s then
    (mirrorCopy 4 p c (raise 0x19 0 { (swCount p 2 s) with sw := { (swCount p 2 s).sw with poolEmpty := true } }), false)
  else
    let marked := if ecnWanted s p c.cls q then c.frame.ecnMark else none
    let at_ := crossStage1 s c.inPort c.mid c.cells
    let c := match marked with
      | some f => { c with frame := f, ecn := true, cross1 := at_ }
      | none => { c with cross1 := at_ }
    let s := if marked.isSome then swCount p 4 s else s
    (modSw p (fun x => { x with queues := vmod x.queues c.cls (fun l => l ++ [c]) })
       (onSw (fun x => { x with stage1 := x.stage1.put (c.inPort, c.mid) at_ }) (swCount p 0 s)), true)

/-- What a frame brings into the fabric beside its bytes. -/
structure Entry where
  inPort : Nat
  cls : Nat
  rxStatus : BitVec 16 := 0
  rxLt : LT
  vid : BitVec 12
  explicit : Option (BitVec 16) := none
  tsReq : Bool := false
  tsId : BitVec 12 := 0
  owner : Tag := 0

/-- A frame of which no copy was admitted, or which was refused whole (R168, R169). -/
def allRefused (rxPort : Option Nat) (inPort : Nat) (s : State) : State :=
  let s := swCount inPort 7 s
  match rxPort with
  | some p => pxCount p 17 s
  | none => s

/-- A frame enters the fabric (R157, R166–R170): stored in its port's receive reserve or refused whole, its destinations
decided once, and a copy for each offered to its queue in ascending port order. `rxPort` is the Ethernet port it came from. -/
def fabricIn (rxPort : Option Nat) (f : Frame) (e : Entry) (s : State) : State :=
  if !s.sw.ready then s else
  let n := cellsOf f.len
  if reserveUsed s e.inPort + n > 80 then allRefused rxPort e.inPort s else
  let mask := effMask s (destMask s f e.vid e.explicit) &&& ~~~(1#16 <<< e.inPort)
  let s := mirrorEvent 1 e.rxLt f f.len e.inPort e.cls mask (decide (mask &&& (mask - 1) ≠ 0)) false e.rxStatus s
  if mask = 0 then mirrorEvent 6 e.rxLt f f.len e.inPort e.cls 0 false false e.rxStatus (swCount e.inPort 6 s) else
  let fid := s.sw.nextFid
  let s := { s with sw := { s.sw with nextFid := fid + 1 } }
  let dests := (List.range 16).filter (fun p => mask.getLsbD p)
  let r := dests.foldl (fun (a : State × Bool) p =>
      let c : Copy := { frame := f, fid := fid, inPort := e.inPort, rxStatus := e.rxStatus, cls := e.cls, cells := n,
                        admitted := a.1.now, rxLt := e.rxLt,
                        mid := flowMid (flowKey f e.inPort e.cls p e.vid) a.1.sw.ports.seed,
                        multicast := decide (1 < dests.length), tsReq := e.tsReq, tsId := e.tsId, owner := e.owner }
      let (s, ok) := admitCopy p c a.1
      (s, a.2 || ok)) (s, false)
  if r.2 then r.1 else allRefused rxPort e.inPort r.1

/-! ## Link states (R171) -/

/-- Every frame of a port's eight queues is flushed (R171). -/
def flushPort (p : Nat) (s : State) : State :=
  let all := (getSw s p).queues.toList.flatten
  let s := (List.range 16).foldl (fun s m => notePeak m s) s
  let s := modSw p (fun x => { x with queues := .replicate 8 [] }) s
  let s := pxCountBy p 35 all.length s
  all.foldl (fun s c => mirrorCopy 8 p c s) s

/-- Entry to DOWN: the queues are flushed, HOLD_EXPIRED is set and the hold-expired event is raised (R171). -/
def enterDown (p : Nat) (s : State) : State :=
  let s := flushPort p (modSw p (fun x => { x with link := .down, holdAt := none, holdExp := true }) s)
  raiseArg 0x1B 0 (BitVec.ofNat 32 p) { s with sw := { s.sw with holdExp := true } }

/-- The link of fabric port p goes down: HOLD for the staged hold time, or DOWN at once (R171). -/
def fabricLinkDown (p : Nat) (s : State) : State :=
  match (getSw s p).link with
  | .up =>
    let h := vget s.sw.ports.hold p 0
    if h = 0 then enterDown p s
    else modSw p (fun x => { x with link := .hold, holdAt := some (ltAdd s.now (usTu (100 * h))) }) s
  | _ => s

/-- The link of fabric port p comes up (R171). -/
def fabricLinkUp (p : Nat) (s : State) : State :=
  match (getSw s p).link with
  | .disabled => s
  | _ => modSw p (fun x => { x with link := .up, holdAt := none }) s

/-- Whether fabric port p has a link: an enabled pair is down only while both its links are (R171). -/
def fabricHasLink (s : State) (p : Nat) : Bool :=
  match enabledPair s p with
  | some k => (getPx s (2 + 2 * k)).linkUp || (getPx s (3 + 2 * k)).linkUp
  | none => (getPx s p).linkUp

/-- Fabric port q takes a link that is up or down (R171). -/
def fabricFollow (q : Nat) (up : Bool) (s : State) : State := if up then fabricLinkUp q s else fabricLinkDown q s

/-- The fabric follows the links of a port: its fabric port does, and the upper port of a pair, for what it still sends (R171). -/
def fabricLink (p : Nat) (s : State) : State :=
  let s := fabricFollow (fabricPort s p) (fabricHasLink s (fabricPort s p)) s
  if fabricPort s p = p then s else fabricFollow p (getPx s p).linkUp s

end Sys2Proof.Machine
end

