-- ==== Sys2Proof/Machine/PortOps.lean ====
section
/-! DEFINITION. Shared operations of the Port Complex (chapter 03): classes and limits, PAUSE, redundancy, MACsec, filters. -/

namespace Sys2Proof.Machine

/-! ## Keys as engines see them (R489) -/

/-- The key slot s (R482). -/
def getSlot (s : State) (n : Nat) : KeySlot := s.kv.slot.getD n {}

/-- Why an engine may not take the key of a slot for the use of DEST bit b (R489, R496): an empty slot holds no key. -/
def keyRefusal (s : State) (n b : Nat) : Option Status :=
  match (getSlot s n).state with
  | .empty => some .badParam
  | .revoked => some .keyRevoked
  | .corrupt => some .keyRevoked
  | .valid => if (getSlot s n).dest.getLsbD b then none else some .denied

/-! ## Counters of functions (R118) -/

/-- MACsec runs on port p (R126). -/
def macsecOn (s : State) (p : Nat) : Bool := decide (p < 6) && (getPx s p).macsec.en

/-- Whether counter k of port n belongs to a function that the port lacks or has disabled, and so reads 0 (R118): the port, the redundancy pair,
MACsec. -/
def pxCtrOff (s : State) (n k : Nat) : Bool :=
  (getPx s n).cfg.phy == .disabled || (decide (37 ≤ k ∧ k ≤ 39) && (enabledPair s n).isNone) || (decide (40 ≤ k ∧ k ≤ 46) && !macsecOn s n)

/-- The counters of port n as they read (R118). -/
def pxCtrs (s : State) (n : Nat) : Vector (BitVec 64) 48 := (getPx s n).ctr.mapIdx (fun k v => if pxCtrOff s n k then 0 else v)

/-- The counters of functions that port n has disabled start at 0 again. -/
def pxCtrReset (n : Nat) (s : State) : State :=
  let v := pxCtrs s n
  modPx n (fun x => { x with ctr := v }) s

/-! ## Sizes (R101) -/

/-- Whether a port runs with an enabled PRP or HSR pair. -/
def portRedundant (s : State) (p : Nat) : Bool := (enabledPair s p).isSome

/-! ## PAUSE (R115) -/

/-- The rate of a port in Gbit/s. -/
def portGbps (c : PhyType) : Nat :=
  match c with
  | .base25 => 25
  | .base10 => 10
  | _ => 1

/-- A pause quantum, 512 bit times, times n, in tu. -/
def quantaTu (c : PhyType) (n : Nat) : Nat := n * 512 * 65536 / portGbps c

/-- The quanta spent paused so far join TX_PAUSED_QUANTA, the part of one that is left being kept (R115, R119). -/
def pauseAccount (p : Nat) (s : State) : State :=
  let x := getPx s p
  match x.pauseEnd with
  | some t =>
    let till := if ltReached s.now t then t else s.now
    let bits := x.pausedRem + (ltDiff till x.pauseFrom).toNat * portGbps x.cfg.phy
    pxCountBy p 31 (bits / (512 * 65536)) (modPx p (fun x => { x with pauseFrom := till, pausedRem := bits % (512 * 65536) }) s)
  | none => s

/-- The pause timer loaded with a number of quanta, 0 ending the pause (R115). -/
def loadPause (p n : Nat) (s : State) : State :=
  let s := pauseAccount p s
  modPx p (fun x => { x with pauseFrom := s.now,
                             pauseEnd := if n = 0 then none else some (ltAdd s.now (quantaTu x.cfg.phy n)) }) s

/-- No pause is in force any more (R116). -/
def clearPause (p : Nat) (s : State) : State := modPx p (fun x => { x with pauseEnd := none }) (pauseAccount p s)

/-! ## Links (R98, R171) -/

/-- The LINK_CHG flags and the link-change event (R131). -/
def linkChanged (p : Nat) (s : State) : State :=
  raiseArg 0x10 0 (BitVec.ofNat 32 p) (onPx (fun x => { x with linkChg := true }) (modPx p (fun x => { x with linkChg := true }) s))

/-- The link of a port goes down or comes up (R98, R116, R119, R171). -/
def setLink (p : Nat) (up pcs fec : Bool) (s : State) : State :=
  let was := (getPx s p).linkUp
  let s := modPx p (fun x => { x with linkUp := up, pcsLock := pcs, fecLock := fec && portFec x.cfg != .none }) s
  if was = up then s else
  let s := if up then s else clearPause p (pxCount p 47 s)
  fabricLink p (linkChanged p s)

/-! ## Redundancy (R121–R124) -/

/-- Pair k changed. -/
def modPair (k : Nat) (f : PairState → PairState) (s : State) : State := { s with px := { s.px with pair := vmod s.px.pair k f } }

/-- Pair k. -/
def getPair (s : State) (k : Nat) : PairState := vget s.px.pair k {}

/-- Whether a duplicate-discard entry is the one for a key. -/
def ddtIs (src : Mac) (seq : BitVec 16) (path : BitVec 4) (e : DdtEntry) : Bool := e.src == src && e.seq == seq && e.path == path

/-- R123: a copy whose key is in the table is a duplicate: it is counted and its entry removed; a first copy is entered, the
oldest entry making room, which is counted where its forget time has not come. The answer says whether it is a duplicate. -/
def duplicate (k : Nat) (src : Mac) (seq : BitVec 16) (path : BitVec 4) (s : State) : State × Bool :=
  let x := getPair s k
  if x.ddt.any (ddtIs src seq path) then
    (pxCount (2 + 2 * k) 37 (modPair k (fun x => { x with ddt := x.ddt.filter (fun e => !ddtIs src seq path e) }) s), true)
  else
    let e : DdtEntry := { src := src, seq := seq, path := path, forgetAt := ltAdd s.now (msTu x.cfg.forgetMs) }
    match x.ddt with
    | old :: rest =>
      if 4096 ≤ x.ddt.length then
        let s := if ltReached s.now old.forgetAt then s else pxCount (2 + 2 * k) 39 s
        (modPair k (fun x => { x with ddt := rest ++ [e] }) s, false)
      else (modPair k (fun x => { x with ddt := x.ddt ++ [e] }) s, false)
    | [] => (modPair k (fun x => { x with ddt := [e] }) s, false)

/-- An address of this node of the ring: its own or one of its proxy table (R122). -/
def ownAddress (x : PairState) (m : Mac) : Bool := x.cfg.node == m || x.proxy.any (fun e => e.mac == m)

/-- HSR_RING_FORWARD (R122): a frame received on one ring port goes to the other, unless its source or its unicast destination is
this node's, or it has been forwarded in that direction. -/
def ringForward (k p : Nat) (f : Frame) (rxLt : LT) (s : State) : State :=
  let x := getPair s k
  let out := if p % 2 = 0 then p + 1 else p - 1
  match f.hsr with
  | none => s
  | some (path, seq) =>
    let e : DdtEntry := { src := f.src, seq := seq, path := path, forgetAt := ltAdd s.now (msTu x.cfg.forgetMs) }
    if ownAddress x f.src || (!isGroup f.dst && ownAddress x f.dst) ||
       x.ringSeen.any (fun r => r.1 == out && ddtIs f.src seq path r.2) then s
    else modPair k (fun x => { x with ringQ := x.ringQ ++ [(out, f, rxLt)], ringSeen := x.ringSeen ++ [(out, e)] }) s

/-- R124: the proxy table learns the source of a frame that reaches the pair from the fabric, ageing after 60 s; when it is full
the redundancy event is raised. -/
def proxyLearn (k : Nat) (m : Mac) (s : State) : State :=
  let x := getPair s k
  let e : ProxyEntry := { mac := m, expires := ltAdd s.now (secTu 60) }
  if x.proxy.any (fun p => p.mac == m) then
    modPair k (fun x => { x with proxy := x.proxy.map (fun p => if p.mac == m then e else p) }) s
  else if x.proxy.length < 512 then modPair k (fun x => { x with proxy := x.proxy ++ [e] }) s
  else raise 0x12 0 { s with px := { s.px with proxyFull := true } }

/-! ## Address filter (R109–R111) -/

/-- Whether an entry matches a frame (R109). -/
def entryMatches (c : PortCfg) (f : Frame) (e : AddrEntry) : Bool :=
  e.valid && e.mac == f.dst && (!e.vlanEn || e.vid == f.vid c.pvid) && (!e.etypeEn || e.etype == f.etype)

/-- The matching entry with the lowest number (R109). -/
def filterMatch (x : PxPort) (f : Frame) : Option Nat := x.entries.toList.findIdx? (entryMatches x.cfg f)

/-- The receive queue of the port default (R111). -/
def defaultQueue (c : PortCfg) (f : Frame) : Nat :=
  match f.outerVid with
  | some v => if v = 0 then c.pprio.val else (vget c.pcpMap f.pcp 0).val
  | none => c.pprio.val

/-- The address filter or the port default: an action and a receive queue, with HITS counted (R109–R111); `none` is a discard
by DEFAULT_DROP. -/
def filterFrame (p : Nat) (f : Frame) (s : State) : State × Option (PxAction × Nat) :=
  let x := getPx s p
  match filterMatch x f with
  | some i =>
    let e := vget x.entries i {}
    (modPx p (fun x => { x with hits := vmod x.hits i satInc }) s, some (e.action, e.queue.val))
  | none =>
    if x.cfg.defaultDrop then (pxCount p 16 s, none) else (s, some (.forward, defaultQueue x.cfg f))

/-- TAP_COPY (R130): a matching SV frame is copied with its receive timestamp to the metrology die, tagged 0xF0 (R8); a copy that the die does not
take, because it has no power, is dropped (log 127). -/
def tapCopy (f : Frame) (rxLt : LT) (s : State) : State :=
  if s.mi.powered && f.etype == 0x88BA &&
     s.px.tapSel.toList.any (fun t => t.valid && t.dst == f.dst && t.appid.toNat == be16 f.bytes (f.inOff + 2)) then
    { s with px := { s.px with tapLink := s.px.tapLink ++ [(f, rxLt, 0xF0)] } }
  else s

end Sys2Proof.Machine
end

