-- ==== Sys2Proof/Machine/Macsec.lean ====
section
/-! DEFINITION. The MACsec cores of P0–P5 (R101, R126–R129): SecTAG, protection and verification under IEEE 802.1AE (log 126). -/

namespace Sys2Proof.Machine

/-! ## SecTAG (log 126) -/

/-- A SecTAG as it stands after the source address. -/
structure SecTag where
  /-- the SCI it carries. -/
  sci : Option (BitVec 64) := none
  /-- association number. -/
  an : BitVec 2 := 0
  /-- E: the data are encrypted. -/
  enc : Bool := false
  /-- SL: length of the data where it is below 48, else 0. -/
  sl : Nat := 0
  /-- the low 32 bits of the PN. -/
  pn : Nat := 0

/-- Bytes of a SecTAG, EtherType included (R101). -/
def secTagLen (withSci : Bool) : Nat := if withSci then 16 else 8

/-- MACsec overhead: SecTAG and ICV (R101). -/
def secOverhead (withSci : Bool) : Nat := secTagLen withSci + 16

/-- The SecTAG of a frame, if it has one. -/
def secTagOf (b : List Byte) : Option SecTag :=
  let tci := (byteAt b 14).toNat
  if be16 b 12 = 0x88E5 ∧ tci < 128 ∧ 12 + secOverhead (tci.testBit 5) ≤ b.length then
    some { sci := if tci.testBit 5 then some (BitVec.ofNat 64 (ofBytesBE (bytesFrom b 20 8))) else none
           an := BitVec.ofNat 2 tci, enc := tci.testBit 3, sl := (byteAt b 15).toNat % 64, pn := ofBytesBE (bytesFrom b 16 4) }
  else none

/-- The bytes of a SecTAG. -/
def secTagBytes (t : SecTag) : List Byte :=
  bytesBE 2 0x88E5 ++ [BitVec.ofNat 8 (32 * bitN t.sci.isSome + 12 * bitN t.enc + t.an.toNat), BitVec.ofNat 8 t.sl] ++ bytesBE 4 t.pn ++
  ((t.sci.map (fun x => bytesBE 8 x.toNat)).getD [])

/-! ## Suites (R126, R129) -/

/-- An XPN suite. -/
def isXpn (x : MacsecSuite) : Bool := x == .xpn128 || x == .xpn256

/-- The largest PN of a suite (R129). -/
def maxPn (x : MacsecSuite) : Nat := if isXpn x then 2 ^ 64 - 1 else 2 ^ 32 - 1

/-- The PN threshold in force (R129). -/
def pnThreshold (x : MacsecCfg) : Nat :=
  match x.pnThr with
  | some n => n.toNat
  | none => if isXpn x.suite then 0xC000000000000000 else 0xC0000000

/-- The whole PN of a received frame: under XPN the upper half follows from the lowest acceptable PN. -/
def fullPn (x : MacsecSuite) (low wire : Nat) : Nat :=
  if !isXpn x then wire
  else
    let up := low / 2 ^ 32
    if (low % 2 ^ 32).testBit 31 && !wire.testBit 31 then (up + 1) * 2 ^ 32 + wire else up * 2 ^ 32 + wire

/-- The IV of a frame. -/
def secIv (x : MacsecSuite) (sa : SaState) (sci : BitVec 64) (pn : Nat) : BitVec 96 :=
  if isXpn x then sa.salt ^^^ (sa.ssci ++ BitVec.ofNat 64 pn) else sci ++ BitVec.ofNat 32 pn

/-- The confidentiality offset in bytes: 0, 30 or 50 (R126). -/
def confBytes (o : Fin 3) : Nat := if o = 0 then 0 else if o = 1 then 30 else 50

/-- How many leading bytes of the data are not encrypted: all of them without confidentiality. -/
def clearBytes (x : MacsecCfg) (enc : Bool) (n : Nat) : Nat := if enc then confBytes (x.confOffset.getD 0) else n

/-! ## Bypass (R128) -/

/-- R128: whether a frame bypasses MACsec: EAPOL, or an enabled bypass entry. -/
def secBypass (x : MacsecCfg) (f : Frame) : Bool :=
  f.etype == 0x888E ||
  x.bypass.toList.any (fun b => b.en && b.etype == f.etype && (match b.dst with
    | some d => d == f.dst
    | none => true))

/-! ## Reception -/

/-- The secured data of a frame: what stands between SecTAG and ICV. -/
def secData (t : SecTag) (b : List Byte) : List Byte :=
  let from_ := 12 + secTagLen t.sci.isSome
  if t.sl ≠ 0 then (b.drop from_).take t.sl else (b.take (b.length - 16)).drop from_

/-- The ICV of a frame: the 16 bytes behind the data. -/
def secIcv (t : SecTag) (b : List Byte) : List Byte := (b.drop (12 + secTagLen t.sci.isSome + (secData t b).length)).take 16

/-- The receive channel of a SecTAG: by its SCI, or the only channel (log 126). -/
def rxChannel (x : MacsecCfg) (t : SecTag) : Option Nat :=
  match t.sci with
  | some c => x.rxSc.findIdx? (· == c)
  | none => if x.rxSc.length = 1 then some 0 else none

/-- The installed SA of a received frame whose first byte came at an instant; one purged by then is none (R127). -/
def rxSaOf (p : Nat) (t : SecTag) (rxLt : LT) (s : State) : Option ((Nat × Nat) × SaState) :=
  match rxChannel (getPx s p).macsec t with
  | none => none
  | some ch =>
    match (getPx s p).rxSa.get? (ch, t.an.toNat) with
    | none => none
    | some sa => match sa.purgeAt with
      | some at_ => if ltDiff rxLt at_ < 0 then some ((ch, t.an.toNat), sa) else none
      | none => some ((ch, t.an.toNat), sa)

/-- An SA with the key that holds for a frame whose first byte came at an instant (R494). -/
def keyFor (rxLt : LT) (a : SaState) : SaState :=
  match a.was with
  | some (t, k, i, v) => if ltDiff rxLt t < 0 then { a with key := k, ssci := i, salt := v } else a
  | none => a

/-- The frame inside the protection, and whether the ICV is the one that key, IV and bytes give. -/
def secOpen (x : MacsecCfg) (sa : SaState) (t : SecTag) (pn : Nat) (f : Frame) : Frame × Bool :=
  let sci := t.sci.getD ((x.rxSc.head?).getD 0)
  let data := secData t f.bytes
  let n := clearBytes x t.enc data.length
  let iv := secIv x.suite sa sci pn
  let aad := f.bytes.take (12 + secTagLen t.sci.isSome) ++ data.take n
  (f.withBytes (f.bytes.take 12 ++ data.take n ++ gcmCrypt sa.key iv (data.drop n)),
   bytesBE 16 (Config.gcmTag sa.key iv aad (data.drop n)).toNat == secIcv t f.bytes)

/-- A received frame as it stands inside its protection, for the tags that R101, R102 and R119 count: the frame itself where MACsec has no part
in it or no SA opens it. -/
def innerFrame (p : Nat) (f : Frame) (rxLt : LT) (s : State) : Frame :=
  if !macsecOn s p then f else
  match secTagOf f.bytes with
  | none => f
  | some t => match rxSaOf p t rxLt s with
    | some (_, sa) => (secOpen (getPx s p).macsec (keyFor rxLt sa) t (fullPn (getPx s p).macsec.suite sa.low t.pn) f).1
    | none => f

/-- L_max of a frame on a port (R101): v and r are those of the frame inside any protection. -/
def lMax (s : State) (p : Nat) (inner : Frame) (overhead : Nat) : Nat :=
  (getPx s p).cfg.maxf + 4 * inner.tags + (if portRedundant s p && (inner.hasHsr || inner.prp.isSome) then 6 else 0) + overhead

/-- L_max of a received frame. -/
def rxMax (s : State) (p : Nat) (f : Frame) (rxLt : LT) : Nat :=
  lMax s p (innerFrame p f rxLt s) (if macsecOn s p then ((secTagOf f.bytes).map (fun t => secOverhead t.sci.isSome)).getD 0 else 0)

/-- What MACsec makes of a received frame: the frame to go on with and the status bits it adds, or a discard. -/
inductive SecRx where
  | discard
  | pass (f : Frame) (bits : Nat)

/-- A verified frame moves the SA's PN and, by the replay window, its lowest PN. -/
def saAccept (x : MacsecCfg) (sa : SaState) (pn : Nat) : SaState :=
  let next := max sa.pn (pn + 1)
  { sa with pn := next, low := match x.replay with
      | some w => max sa.low (next - w)
      | none => sa.low }

/-- MACsec on reception (R126–R128). With validateFrames Disabled nothing is verified (log 126). -/
def macsecRx (p : Nat) (f : Frame) (rxLt : LT) (s : State) : State × SecRx :=
  if !macsecOn s p then (s, .pass f 0) else
  let x := (getPx s p).macsec
  match secTagOf f.bytes with
  | none => if secBypass x f || x.validate != .strict then (s, .pass f 0) else (pxCount p 44 s, .discard)
  | some t =>
    if secBypass x f then (s, .pass f 0) else
    match rxSaOf p t rxLt s with
    | none => (pxCount p 43 s, .discard)
    | some (k, sa) =>
      let pn := fullPn x.suite sa.low t.pn
      let (plain, ok) := secOpen x (keyFor rxLt sa) t pn f
      if x.validate = .disabled then (s, .pass plain 0)
      else if x.replay.isSome && decide (pn < sa.low) then (pxCount p 42 s, .discard)
      else if !ok then (pxCount p 41 s, if x.validate = .check then .pass plain 128 else .discard)
      else (modPx p (fun y => { y with rxSa := y.rxSa.put k (saAccept x sa pn) }) (pxCount p 40 s), .pass plain 1024)

/-! ## Transmission -/

/-- A frame protected under an SA. -/
def secSeal (x : MacsecCfg) (an : BitVec 2) (sa : SaState) (f : Frame) : Frame :=
  let data := f.bytes.drop 12
  let enc := x.confOffset.isSome
  let n := clearBytes x enc data.length
  let t : SecTag := { sci := if x.sci then some x.txSci else none, an := an, enc := enc,
                      sl := if data.length < 48 then data.length else 0, pn := sa.pn % 2 ^ 32 }
  let iv := secIv x.suite sa x.txSci sa.pn
  let head := f.bytes.take 12 ++ secTagBytes t
  let c := gcmCrypt sa.key iv (data.drop n)
  f.withBytes (head ++ data.take n ++ c ++ bytesBE 16 (Config.gcmTag sa.key iv (head ++ data.take n) c).toNat)

/-- PN_THRESH of port p, with the MACsec PN event (R129, R131). -/
def pnReached (p : Nat) (s : State) : State :=
  raiseArg 0x11 0 (BitVec.ofNat 32 p) (onPx (fun x => { x with pnThresh := true }) (modPx p (fun y => { y with pnThresh := true }) s))

/-- MACsec on transmission (R126–R129): the frame protected under the selected SA, with its overhead and slot, or dropped because the SA is not
installed, revoked or exhausted. -/
def macsecTx (p : Nat) (f : Frame) (s : State) : State × Option (Frame × Nat × Option (BitVec 16)) :=
  let x := (getPx s p).macsec
  if !macsecOn s p || secBypass x f then (s, some (f, 0, none)) else
  let an := (getPx s p).txAn
  match (getPx s p).txSa.get? an.toNat with
  | none => (pxCount p 46 s, none)
  | some sa =>
    if sa.pn > maxPn x.suite then (pxCount p 46 s, none)
    else
      let hit := decide (pnThreshold x ≤ sa.pn)
      let s := modPx p (fun y => { y with txSa := y.txSa.put an.toNat { sa with pn := sa.pn + 1, thrHit := hit } }) (pxCount p 45 s)
      let s := if hit && !sa.thrHit then pnReached p s else s
      (s, some (secSeal x an sa f, secOverhead x.sci, some sa.slot))

/-! ## SAs (R127) -/

/-- The core's copy of a slot's key as an SA; SSCI and salt stand in the slot's auxiliary data (R127, R482). -/
def installSa (s : State) (x : MacsecSa) : SaState :=
  let k := getSlot s x.slot.toNat
  { slot := x.slot, key := k.material, ssci := BitVec.ofNat 32 (ofBytesBE (k.aux.take 4)), salt := BitVec.ofNat 96 (ofBytesBE ((k.aux.drop 4).take 12)),
    pn := x.pn, low := x.pn }

/-- The cores take a replaced key from the next frame that starts; the SA keeps its PN, and a frame that is arriving is opened with the old key
(R494). -/
def reloadSas (n : Nat) (s : State) : State :=
  let k := getSlot s n
  let f (a : SaState) : SaState :=
    if a.slot.toNat ≠ n then a else { a with
      key := k.material, ssci := BitVec.ofNat 32 (ofBytesBE (k.aux.take 4)), salt := BitVec.ofNat 96 (ofBytesBE ((k.aux.drop 4).take 12))
      was := some (s.now, a.key, a.ssci, a.salt) }
  onPx (fun x => { x with port := x.port.map (fun y => { y with
    txSa := y.txSa.map (fun e => (e.1, f e.2)), rxSa := y.rxSa.map (fun e => (e.1, f e.2)) }) }) s

/-- The copies of revoked or erased slots in the cores are purged at the end of the frame in progress (R127, R496): a transmit SA at once, as the
frame in transmission is already protected; a receive SA serves no frame that starts later. -/
def purgeSas (slots : List Nat) (s : State) : State :=
  let f (a : SaState) : SaState := if slots.contains a.slot.toNat && a.purgeAt.isNone then { a with purgeAt := some s.now } else a
  onPx (fun x => { x with port := x.port.map (fun y => { y with
    txSa := y.txSa.filter (fun e => !slots.contains e.2.slot.toNat), rxSa := y.rxSa.map (fun e => (e.1, f e.2)) }) }) s

/-- The frame in progress on port p has ended: purged receive SAs are gone (R127). -/
def dropPurged (p : Nat) (s : State) : State := modPx p (fun y => { y with rxSa := y.rxSa.filter (fun e => e.2.purgeAt.isNone) }) s

/-! ## Settings before the last commit (R88) -/

/-- The settings of PX and SW in force. -/
def netBank (t : LT) (s : State) : NetBank :=
  { t := t
    cfg := s.px.port.map (·.cfg), entries := s.px.port.map (·.entries), macsec := s.px.port.map (·.macsec), rxSa := s.px.port.map (·.rxSa)
    red := s.px.pair.map (·.cfg), limits := s.sw.limits, vlan := s.sw.vlan, ports := s.sw.ports, mirror := s.sw.mirror
    static := s.sw.fdb.filter (·.static) }

/-- Settings taken as those in force. -/
def useBank (b : NetBank) (s : State) : State :=
  let s := onPx (fun x => { x with
    port := x.port.mapIdx (fun p y => { y with
      cfg := vget b.cfg p {}, entries := vget b.entries p (.replicate 32 {}), macsec := vget b.macsec p {}, rxSa := vget b.rxSa p [] })
    pair := x.pair.mapIdx (fun k y => { y with cfg := vget b.red k {} }) }) s
  onSw (fun x => { x with
    limits := b.limits, vlan := b.vlan, ports := b.ports, mirror := b.mirror
    fdb := b.static ++ x.fdb.filter (fun e => !e.static && !b.static.any (fun y => y.mac == e.mac && y.vid == e.vid)) }) s

/-- Work that runs under the settings before the last commit (R88). -/
def underBank (b : NetBank) (f : State → State) (s : State) : State :=
  let now := netBank b.t s
  let s := f (useBank b s)
  useBank now (onPx (fun x => { x with old := some (netBank b.t s) }) s)

end Sys2Proof.Machine
end

