-- ==== Sys2Proof/Machine/Ptp.lean ====
section
/-! DEFINITION. PTP messages (R25, R27, R28, R31–R33, R629): what SU makes of a received one, the frames it generates, and what TB writes into
the event messages that leave a port. The layout of a message is IEEE 1588-2019's (PRESUMED, log 10). -/

namespace Sys2Proof.Machine

/-! ## Timestamps at the ball (R27, R28) -/

/-- The receive timestamp of a frame whose timestamp point the PCS of port p meets at `t`: less the fused ingress latency and the staged board
correction (R27, R28). -/
def rxStamp (s : State) (p : Nat) (t : LT) : LT :=
  let c := (vget s.px.port p {}).cfg
  ltSub t (Config.ingressLatency p c.phy (portFec c)) - (vget s.tb.lat p {}).ingress.signExtend 64

/-- The transmit timestamp of a frame that leaves the PCS of port p now: with the fused egress latency and the staged board correction
(R27, R28). -/
def txStamp (s : State) (p : Nat) : LT :=
  let c := (vget s.px.port p {}).cfg
  ltAdd s.now (Config.egressLatency p c.phy (portFec c)) + (vget s.tb.lat p {}).egress.signExtend 64

/-- PTP port p changed. -/
def modPtp (p : Nat) (f : PtpPort → PtpPort) (s : State) : State := onTb (fun t => { t with ptp := vmod t.ptp p f }) s

/-! ## Fields of a message in a frame (R25, R33) -/

/-- Bytes of the PTP message written at an offset in it; for UDP over IPv6 the UDP checksum follows (R33). -/
def ptpPatch (f : Frame) (at_ : Nat) (new : List Byte) : Frame :=
  match f.ptpOff with
  | none => f
  | some o =>
    let old := bytesFrom f.bytes (o + at_) new.length
    let b := splice f.bytes (o + at_) new
    match f.ip6 with
    | some i =>
      let c := (List.range (new.length / 2)).foldl (fun c k => csumUpdate c (be16 old (2 * k)) (be16 new (2 * k))) (be16 f.bytes (i + 46))
      { f with bytes := splice b (i + 46) (bytesBE 2 c) }
    | none => { f with bytes := b }

/-- A signed number of tu added to the correctionField, whose unit is the tu (R25, R33). -/
def ptpCorrect (f : Frame) (tu : Int) : Frame :=
  match f.ptpOff with
  | none => f
  | some o => ptpPatch f 8 (bytesBE 8 (BitVec.ofInt 64 ((ofBytesBE (bytesFrom f.bytes (o + 8) 8) : Nat) + tu)).toNat)

/-- The secondsField and nanosecondsField of a PTP Timestamp (R25). -/
def ptpTime (tai : Int) : List Byte := bytesBE 6 (taiSec tai).toNat ++ bytesBE 4 (taiNsOf tai).toNat

/-- sourcePortIdentity of a frame's message. -/
def ptpSource (f : Frame) : BitVec 80 :=
  match f.ptpOff with
  | some o => BitVec.ofNat 80 (ofBytesBE (bytesFrom f.bytes (o + 20) 10))
  | none => 0

/-- requestingPortIdentity of a response. -/
def ptpRequester (f : Frame) : BitVec 80 :=
  match f.ptpOff with
  | some o => BitVec.ofNat 80 (ofBytesBE (bytesFrom f.bytes (o + 44) 10))
  | none => 0

/-- twoStepFlag of a frame's message. -/
def ptpTwoStep (f : Frame) : Bool :=
  match f.ptpOff with
  | some o => (byteAt f.bytes (o + 6)).getLsbD 1
  | none => false

/-- portIdentity of this clock's port p: its identity and the port number, from 1. -/
def portIdentity (p : Nat) : BitVec 80 := Config.clockIdentity ++ BitVec.ofNat 16 (p + 1)

/-! ## Departure (R33) -/

/-- The messageType of the follow-up of an event message. -/
def followUpType (t : Nat) : Nat := if t = 0 then 8 else 0xA

/-- The step mode of port p for an event message: a port that is none is one-step (R31, R33). -/
def portOneStep (s : State) (p t : Nat) : Bool :=
  match ptpPortCfg s.tb p with
  | some c => if t = 3 then c.oneStepPdelay else c.oneStepSync
  | none => true

/-- A message of this clock leaves port p (R25, R33): in one-step mode TB writes the originTimestamp, or for a Pdelay_Resp the turnaround time
into the correctionField; in two-step mode SU's own timestamp queue takes the transmit timestamp (R50); a request's is kept. -/
def ownDepart (p t : Nat) (f : Frame) (s : State) : Frame × State :=
  let lt := txStamp s p
  let tai := taiOf s.tb lt
  let entry : TxtsEntry := { lt := lt, seqId := f.ptpSeq, msgType := BitVec.ofNat 4 t, isPtp := true }
  if t = 1 ∨ t = 2 then (f, modPtp p (fun x => { x with delayTx := some (f.ptpSeq, tai) }) s)
  else if ptpTwoStep f then (f, modPtp p (fun x => { x with suTxts := x.suTxts ++ [entry] }) s)
  else if t = 0 then (ptpCorrect (ptpPatch f 34 (ptpTime tai)) (taiFrOf tai).toNat, s)
  else
    let r := (vget s.tb.ptp p {}).answered.find? (fun r => r.seq == f.ptpSeq && r.source == ptpRequester f)
    (match r with
     | some r => ptpCorrect f (tai - r.rx)
     | none => f,
     modPtp p (fun x => { x with answered := x.answered.filter (fun r => !(r.seq == f.ptpSeq && r.source == ptpRequester f)) }) s)

/-- A message of another clock goes through a port of the transparent clock (R33): the residence time joins the correctionField of the event
message in one-step mode, and of its follow-up in two-step mode; an event message that announces no follow-up carries it itself
(DESIGN CHOICE, log 121). -/
def residenceDepart (p t : Nat) (f : Frame) (rxLt : LT) (s : State) : Frame × State :=
  if t ≤ 3 then
    let tu := (ltDiff (txStamp s p) rxLt).toNat
    if portOneStep s p t || !ptpTwoStep f then (ptpCorrect f tu, s)
    else (f, modPtp p (fun x => { x with residence := x.residence ++ [{ source := ptpSource f, seq := f.ptpSeq, type := followUpType t, tu := tu }] }) s)
  else
    let mine (r : Residence) : Bool := r.source == ptpSource f && r.seq == f.ptpSeq && r.type == t
    match (vget s.tb.ptp p {}).residence.find? mine with
    | some r => (ptpCorrect f r.tu, modPtp p (fun x => { x with residence := x.residence.filter (fun r => !mine r) }) s)
    | none => (f, s)

/-- Whether port p belongs to a transparent clock that adds residence times to the frames it forwards (R31, R33). -/
def transparentPort (s : State) (p : Nat) : Bool :=
  match ptpPortCfg s.tb p with
  | some c => c.transparent || s.tb.cfg.clock == .transparentE2E || s.tb.cfg.clock == .transparentP2P
  | none => false

/-- What TB does to a frame that leaves port p (R33); on the ring of an HSR pair the device is a transparent clock whatever is staged (R31). -/
def ptpDepart (p : Nat) (ring : Bool) (f : Frame) (rxLt : LT) (s : State) : Frame × State :=
  match f.ptpType with
  | none => (f, s)
  | some t =>
    if ptpSource f = portIdentity p then (if t ≤ 3 then ownDepart p t f s else (f, s))
    else if ring || transparentPort s p then residenceDepart p t f rxLt s
    else (f, s)

/-! ## Generation (R31, R33, R37, R629) -/

/-- messageType codes. -/
def ptpCode : PtpMsgType → Nat
  | .sync => 0 | .delayReq => 1 | .pdelayReq => 2 | .pdelayResp => 3 | .followUp => 8 | .delayResp => 9 | .pdelayRespFollowUp => 0xA
  | .announce => 0xB | .other => 0xD

/-- The common header of a message of port p with a body. -/
def ptpHeader (s : State) (p : Nat) (t : PtpMsgType) (twoStep : Bool) (flags : Nat) (corr : Int) (seq : BitVec 16) (log : Int) (len : Nat) : List Byte :=
  let control := match t with
    | .sync => 0
    | .delayReq => 1
    | .followUp => 2
    | .delayResp => 3
    | _ => 5
  [BitVec.ofNat 8 (ptpCode t), 2] ++ bytesBE 2 (34 + len) ++ [BitVec.ofNat 8 s.tb.cfg.domain, 0, BitVec.ofNat 8 (2 * bitN twoStep), BitVec.ofNat 8 flags] ++
  bytesBE 8 (BitVec.ofInt 64 corr).toNat ++ bytesBE 4 0 ++ bytesBE 10 (portIdentity p).toNat ++ bytesBE 2 seq.toNat ++
  [BitVec.ofNat 8 control, BitVec.ofInt 8 log]

/-- A TLV of a type. -/
def ptpTlv (type : Nat) (value : List Byte) : List Byte := bytesBE 2 type ++ bytesBE 2 value.length ++ value

/-- The TLVs of an Announce (R31, R37): IEEE_C37_238 with grandmasterID and totalTimeInaccuracy, which carries E in ns, in its profile;
ALTERNATE_TIME_OFFSET_INDICATOR; PATH_TRACE. -/
def announceTlvs (s : State) : List Byte :=
  (if s.tb.cfg.profile = .c37_238 then
    ptpTlv 3 (bytesBE 3 0x1C129D ++ bytesBE 3 2 ++ bytesBE 2 s.tb.cfg.gmShortId.toNat ++ bytesBE 4 0 ++ bytesBE 4 (timeErrBound s).toNat ++ bytesBE 4 0)
   else []) ++
  (match s.tb.cfg.altOffset with
   | some v => ptpTlv 9 v
   | none => []) ++
  (if s.tb.cfg.pathTrace then
    ptpTlv 8 (((s.tb.gm.map (·.path)).getD [] ++ [Config.clockIdentity]).flatMap (fun c => bytesBE 8 c.toNat))
   else [])

/-- The body of an Announce: the grandmaster's data set with one step more, or this clock's own; the clockClass is that of R37. -/
def announceBody (s : State) : List Byte :=
  let own : Announce := { priority1 := s.tb.cfg.priority1, priority2 := s.tb.cfg.priority2, gmId := Config.clockIdentity }
  let g := s.tb.gm.getD own
  bytesBE 10 0 ++ bytesBE 2 s.tb.utcOffset.toNat ++ [0, g.priority1, BitVec.ofNat 8 (clockClass s), g.accuracy] ++ bytesBE 2 g.variance.toNat ++
  [g.priority2] ++ bytesBE 8 g.gmId.toNat ++ bytesBE 2 (if s.tb.gm.isSome then g.steps.toNat + 1 else 0) ++ [0xA0] ++ announceTlvs s

/-- Flags of an Announce: leap61, leap59, currentUtcOffsetValid, PTP timescale, timeTraceable. -/
def announceFlags (s : State) : Nat :=
  bitN s.tb.leap61 + 2 * bitN s.tb.leap59 + 4 * bitN s.tb.utcKnown + 8 + 16 * bitN (traceable s)

/-- The Ethernet frame without FCS that carries a message on port p: in EtherType 0x88F7, or in UDP to the PTP ports and multicast groups, with
the port's tag (R31). Addresses and the PCP are unknown constants (log 115); over IPv4 the UDP checksum is 0. -/
def ptpFrame (s : State) (p : Nat) (t : PtpMsgType) (msg : List Byte) : List Byte :=
  let peer : Bool := t == .pdelayReq || t == .pdelayResp || t == .pdelayRespFollowUp
  let port := if ptpCode t ≤ 3 then 319 else 320
  let tag := match (ptpPortCfg s.tb p).bind (·.vlan) with
    | some v => bytesBE 2 0x8100 ++ bytesBE 2 (Config.ptpPcp.toNat * 8192 + v.toNat)
    | none => []
  let eth (d : Nat) (e : Nat) : List Byte := bytesBE 6 d ++ bytesBE 6 (Config.ptpMac p).toNat ++ tag ++ bytesBE 2 e
  match s.tb.cfg.transport with
  | .ethernet => eth (if peer then 0x0180C200000E else 0x011B19000000) 0x88F7 ++ msg
  | .udpIPv4 =>
    let h := [0x45, 0] ++ bytesBE 2 (28 + msg.length) ++ bytesBE 4 (Config.ipFields.extractLsb' 8 32).toNat ++ [1, 17]
    let a := bytesBE 4 (Config.ptpIp.truncate 32).toNat ++ bytesBE 4 (if peer then 0xE000006B else 0xE0000181)
    let sum := (List.range 5).foldl (fun n k => n + be16 h (2 * k)) 0 + (List.range 4).foldl (fun n k => n + be16 a (2 * k)) 0
    let fold := sum % 65536 + sum / 65536
    eth (if peer then 0x01005E00006B else 0x01005E000181) 0x0800 ++ h ++ bytesBE 2 (0xFFFF - (fold % 65536 + fold / 65536)) ++ a ++
      bytesBE 2 port ++ bytesBE 2 port ++ bytesBE 2 (8 + msg.length) ++ bytesBE 2 0 ++ msg
  | .udpIPv6 =>
    let u := bytesBE 2 port ++ bytesBE 2 port ++ bytesBE 2 (8 + msg.length)
    eth (if peer then 0x33330000006B else 0x333300000181) 0x86DD ++ bytesBE 4 0x60000000 ++ bytesBE 2 (8 + msg.length) ++ [17, 1] ++
      bytesBE 16 Config.ptpIp.toNat ++ bytesBE 16 (if peer then 0xFF02000000000000000000000000006B else 0xFF0E0000000000000000000000000181) ++
      u ++ bytesBE 2 (Config.udpChecksum (u ++ msg)).toNat ++ msg

/-- SU writes a message as a packet for port p, or for the lower port of an enabled pair, into its CORE queue (R629). -/
def ptpSend (p : Nat) (t : PtpMsgType) (twoStep : Bool) (flags : Nat) (corr : Int) (seq : BitVec 16) (log : Int) (body : List Byte) (s : State) : State :=
  let b := ptpFrame s p t (ptpHeader s p t twoStep flags corr seq log body.length ++ body)
  (sendPacket 0x15 0 (descBytes { dest := 1#16 <<< fabricPort s p, maskEn := true, cls := s.tb.cfg.cls.val, length := b.length }) b s).1

/-- The next sequenceId of a kind of message on port p: 0 Sync, 1 Delay_Req, 2 Pdelay_Req, 3 Announce. -/
def ptpNextSeq (p k : Nat) (s : State) : BitVec 16 × State :=
  (vget (vget s.tb.ptp p {}).txSeq k 0, modPtp p (fun x => { x with txSeq := vmod x.txSeq k (· + 1) }) s)

/-- Whether SU generates a message of a type of its own accord in a port state (R31, R33). -/
def ptpMaySend (st : PtpState) (d : PtpDelay) (t : PtpMsgType) : Bool :=
  match t with
  | .sync => st == .master
  | .announce => st == .master
  | .delayReq => st == .slave && d == .e2e
  | .pdelayReq => d == .p2p && st != .disabled
  | _ => false

/-- The follow-up of the oldest event message of a type in SU's timestamp queue, with its precise timestamp (R33). -/
def ptpFollow (p : Nat) (c : PtpPortCfg) (t : PtpMsgType) (s : State) : State :=
  let of := if t = .followUp then 0#4 else 3#4
  match (vget s.tb.ptp p {}).suTxts.find? (fun e => e.msgType == of) with
  | none => s
  | some e =>
    let tai := taiOf s.tb e.lt
    let s := modPtp p (fun x => { x with suTxts := x.suTxts.eraseP (fun e => e.msgType == of) }) s
    if t = .followUp then ptpSend p t false 0 (taiFrOf tai).toNat e.seqId c.logSync (ptpTime tai) s
    else match (vget s.tb.ptp p {}).answered.find? (fun r => r.seq == e.seqId) with
    | none => s
    | some r =>
      ptpSend p t false 0 (r.correction + (taiFrOf tai).toNat) e.seqId 0x7F (ptpTime tai ++ bytesBE 10 r.source.toNat)
        (modPtp p (fun x => { x with answered := x.answered.eraseP (fun r => r.seq == e.seqId) }) s)

/-- The response to the oldest request of a kind that waits on port p (R31, R33): a Delay_Resp with the receive timestamp, or a Pdelay_Resp,
one-step with the request's correction, to which TB adds the turnaround time, or two-step with the receive timestamp. -/
def ptpRespond (p : Nat) (c : PtpPortCfg) (t : PtpMsgType) (s : State) : State :=
  let peer : Bool := t == .pdelayResp
  match (vget s.tb.ptp p {}).requests.find? (fun r => r.peer == peer) with
  | none => s
  | some r =>
    let s := modPtp p (fun x => { x with requests := x.requests.eraseP (fun r => r.peer == peer),
                                         answered := if peer then x.answered ++ [r] else x.answered }) s
    let who := bytesBE 10 r.source.toNat
    if !peer then ptpSend p t false 0 (r.correction - (taiFrOf r.rx).toNat) r.seq c.logPdelay (ptpTime r.rx ++ who) s
    else if c.oneStepPdelay then ptpSend p t false 0 r.correction r.seq 0x7F (ptpTime 0 ++ who) s
    else ptpSend p t true 0 (-(taiFrOf r.rx).toNat) r.seq 0x7F (ptpTime r.rx ++ who) s

/-- PTP_MESSAGE_TX (R33, R629): SU generates a message and writes it into its CORE queue. -/
def execPtpMessageTx (p : Fin 14) (t : PtpMsgType) (s : State) : Res :=
  match ptpPortCfg s.tb p.val with
  | none => .next s
  | some c =>
    let st := (vget s.tb.ptp p.val {}).state
    match t with
    | .followUp => .next (ptpFollow p.val c t s)
    | .pdelayRespFollowUp => .next (ptpFollow p.val c t s)
    | .delayResp => .next (if st = .master then ptpRespond p.val c t s else s)
    | .pdelayResp => .next (if s.tb.cfg.delay = .p2p ∧ st ≠ .disabled then ptpRespond p.val c t s else s)
    | _ =>
      if !ptpMaySend st s.tb.cfg.delay t then .next s else
      match t with
      | .sync => let (q, s) := ptpNextSeq p.val 0 s
                 .next (ptpSend p.val t (!c.oneStepSync) 0 0 q c.logSync (ptpTime 0) s)
      | .delayReq => let (q, s) := ptpNextSeq p.val 1 s
                     .next (ptpSend p.val t false 0 0 q 0x7F (ptpTime 0) s)
      | .pdelayReq => let (q, s) := ptpNextSeq p.val 2 s
                      .next (ptpSend p.val t false 0 0 q 0x7F (ptpTime 0 ++ bytesBE 10 0) s)
      | _ => let (q, s) := ptpNextSeq p.val 3 s
             .next (ptpSend p.val t false (announceFlags s) 0 q c.logAnnounce (announceBody s) s)

/-! ## Reception (R31, R33) -/

/-- An offset measurement of the slave port: receive time less origin, correction, mean delay and asymmetry (R28, R31). -/
def offsetMeasured (p : Nat) (rx origin corr : Int) (s : State) : State :=
  modPtp p (fun x => { x with
    syncDiff := rx - origin - corr,
    measured := some (rx - origin - corr - x.meanDelay - (vget s.tb.lat p {}).asym.toInt) }) s

/-- An Announce whose PATH_TRACE names this clock has looped and is not taken (R31). -/
def annLooped (t : TbState) (a : Announce) : Bool := t.cfg.pathTrace && a.path.contains Config.clockIdentity

/-- PTP_MESSAGE_RX (R31, R33): SU takes a message of the clock's domain on a PTP port, received at `rxLt`. -/
def execPtpMessageRx (p : Fin 14) (m : PtpMsg) (rxLt : LT) (s : State) : Res :=
  match ptpPortCfg s.tb p.val with
  | none => .next s
  | some _ =>
    if m.domain ≠ s.tb.cfg.domain then .next s else
    let rx := taiOf s.tb rxLt
    let x := vget s.tb.ptp p.val {}
    let mine : Bool := m.requester == portIdentity p.val
    match m.type with
    | .announce =>
      match m.ann with
      | none => .next s
      | some a =>
        if annLooped s.tb a then .next s else
        let s := runBmca (modPtp p.val (fun x => { x with announce := some a }) s)
        .next (if s.tb.slavePort.toNat = p.val then takeUtc a s else s)
    | .sync =>
      if x.state ≠ .slave then .next s
      else if m.twoStep then .next (modPtp p.val (fun x => { x with syncRx := some (m.seq, rx, m.correction) }) s)
      else .next (offsetMeasured p.val rx m.ts m.correction s)
    | .followUp =>
      match x.syncRx with
      | some (q, rx, corr) =>
        if x.state = .slave ∧ q = m.seq then
          .next (offsetMeasured p.val rx m.ts (corr + m.correction) (modPtp p.val (fun x => { x with syncRx := none }) s))
        else .next s
      | none => .next s
    | .delayReq =>
      if x.state ≠ .master ∨ s.tb.cfg.delay ≠ .e2e then .next s
      else .next (modPtp p.val (fun x => { x with
        requests := x.requests ++ [{ seq := m.seq, source := m.source, rx := rx, correction := m.correction, peer := false }] }) s)
    | .pdelayReq =>
      if x.state = .disabled ∨ s.tb.cfg.delay ≠ .p2p then .next s
      else .next (modPtp p.val (fun x => { x with
        requests := x.requests ++ [{ seq := m.seq, source := m.source, rx := rx, correction := m.correction, peer := true }] }) s)
    | .delayResp =>
      match x.delayTx with
      | some (q, t3) =>
        if mine ∧ q = m.seq then
          .next (modPtp p.val (fun x => { x with
            meanDelay := (x.syncDiff + (m.ts - t3 - m.correction)).ediv 2, delayTx := none }) s)
        else .next s
      | none => .next s
    | .pdelayResp =>
      match x.delayTx with
      | some (q, t1) =>
        if mine ∧ q = m.seq then
          if m.twoStep then .next (modPtp p.val (fun x => { x with pdelayRx := some (q, m.ts, rx, m.correction) }) s)
          else .next (modPtp p.val (fun x => { x with meanDelay := (rx - t1 - m.correction).ediv 2, delayTx := none }) s)
        else .next s
      | none => .next s
    | .pdelayRespFollowUp =>
      match x.pdelayRx, x.delayTx with
      | some (q, t2, t4, corr), some (_, t1) =>
        if mine ∧ q = m.seq then
          .next (modPtp p.val (fun x => { x with
            meanDelay := ((t4 - t1) - (m.ts - t2) - corr - m.correction).ediv 2, pdelayRx := none, delayTx := none }) s)
        else .next s
      | _, _ => .next s
    | .other => .next s

end Sys2Proof.Machine
end

