-- ==== Sys2Proof/Machine/Ports.lean ====
section
/-! DEFINITION. Meanings of the Port Complex commands (chapter 03). -/

namespace Sys2Proof.Machine

/-! ## Reception (R103–R112) -/

/-- The class counter of R119. -/
def rxClassCounter : RxClass → Nat
  | .good => 2
  | .fcsError => 9
  | .runt => 10
  | .fragment => 11
  | .oversize => 12
  | .jabber => 13

/-- The error bits of the receive status word for a class: FCS_ERR, RUNT, FRAGMENT, OVERSIZE, JABBER (R107). -/
def rxClassBits : RxClass → Nat
  | .good => 0
  | .fcsError => 1
  | .runt => 2
  | .fragment => 4
  | .oversize => 8 + 64
  | .jabber => 16 + 64

/-- The size counter of a good frame (R119). -/
def rxSizeCounter (len : Nat) : Nat :=
  if len ≤ 64 then 19 else if len ≤ 127 then 20 else if len ≤ 255 then 21 else if len ≤ 511 then 22
  else if len ≤ 1023 then 23 else if len ≤ 1536 then 24 else 25

/-- The offset from the unicast counter for a destination: individual, group, broadcast (R119). -/
def castOffset (d : Mac) : Nat := if d = 0xFFFFFFFFFFFF then 2 else if isGroup d then 1 else 0

/-- A bad frame (R106): counted, and with DELIVER_BAD delivered to CORE alone, unless it is a MAC control frame (R115). -/
def badFrame (p : Nat) (f : Frame) (c : RxClass) (limit : Nat) (rxLt : LT) (s : State) : State :=
  let cfg := (getPx s p).cfg
  let s := onPx (fun x => { x with rxBad := true }) (modPx p (fun x => { x with rxBad := true }) (pxCount p (rxClassCounter c) s))
  if !cfg.deliverBad || f.etype == 0x8808 then s else
  let n := min f.len limit
  let g : Frame := { f with bytes := f.bytes.take (n - 4), len := n }
  fabricIn (some p) g
    { inPort := fabricPort s p, cls := cfg.badQueue.val, rxLt := rxLt, vid := f.vid cfg.pvid, explicit := some 0x8000,
      rxStatus := rxStatusWord (rxClassBits c) cfg.badQueue.val f.codeErr (decide (0 < f.tags)) true }
    (pxCount p 18 s)

/-- The counters of a good frame (R119); a VLAN tag behind a SecTAG is one (R102). -/
def goodCounters (p : Nat) (f inner : Frame) (s : State) : State :=
  let s := pxCount p (3 + castOffset f.dst) (pxCount p 2 (pxCountBy p 0 f.len s))
  let s := if 0 < f.tags ∨ 0 < inner.tags then pxCount p 6 s else s
  pxCount p (rxSizeCounter f.len) s

/-- A MAC control frame is consumed (R115, R117); a PAUSE frame is obeyed with PAUSE_OBEY, when its destination is the reserved
address or one of a valid entry. -/
def macControl (p : Nat) (f : Frame) (s : State) : State :=
  if be16 f.bytes (f.inOff + 2) ≠ 1 then pxCount p 8 s else
  let s := pxCount p 7 s
  let x := getPx s p
  if x.cfg.pauseObey && (f.dst == 0x0180C2000001 || x.entries.toList.any (fun e => e.valid && e.mac == f.dst)) then
    loadPause p (be16 f.bytes (f.inOff + 4)) s
  else s

/-- The duplicate discard of a copy received on port p (R123). Where both copies arrive on one clock cycle, LAN A's is accepted whichever is taken
first (R125): a tied LAN B copy taken first is counted as the duplicate, and the LAN A copy then passes. -/
def duplicateOn (k p : Nat) (tie : Bool) (src : Mac) (seq : BitVec 16) (path : BitVec 4) (s : State) : State × Bool :=
  let key := (src, seq, path)
  if p % 2 = 0 ∧ (getPair s k).tied.contains key then (modPair k (fun x => { x with tied := x.tied.filter (· != key) }) s, false)
  else if p % 2 = 1 ∧ tie ∧ !(getPair s k).ddt.any (ddtIs src seq path) then
    (pxCount (2 + 2 * k) 37 (modPair k (fun x => { x with tied := x.tied ++ [key] }) s), true)
  else duplicate k src seq path s

/-- PRP or HSR on reception (R121–R123): the frame to go on with and the status bits it gains, or a discard. -/
def redundancyRx (p : Nat) (f : Frame) (rxLt : LT) (tie : Bool) (s : State) : State × Option (Frame × Nat) :=
  match enabledPair s p with
  | none => (s, some (f, 0))
  | some k =>
    match pairMode s k with
    | .independent => (s, some (f, 0))
    | .prp =>
      match f.prp with
      | none => (s, some (f, 0))
      | some (lan, seq) =>
        let wrong := lan == (if p % 2 = 0 then 0xB#4 else 0xA#4)
        let s := if wrong then pxCount p 38 s else s
        let (s, dup) := duplicateOn k p tie f.src seq 0 s
        if dup then (s, none)
        else (s, some (f.withBytes (f.bytes.take (f.bytes.length - 6)), 512 + 256 * bitN wrong))
    | .hsr =>
      match f.hsr with
      | none => (s, some (f, 0))
      | some (path, seq) =>
        let s := ringForward k p f rxLt s
        let (s, dup) := duplicateOn k p tie f.src seq path s
        if dup then (s, none) else (s, some (f.withBytes (dropHsr f), 512))

/-- A supervision frame of IEC 62439-3 received on an enabled pair goes to CORE (R125). -/
def isSupervision (s : State) (p : Nat) (f : Frame) : Bool := (enabledPair s p).isSome && f.etype == 0x88FB

/-- Steps 5 and 6 of R108: the metrology tap, then the address filter or the port default, and the fabric. -/
def frameForward (p : Nat) (f : Frame) (rxLt : LT) (tagged codeErr : Bool) (bits : Nat) (s : State) : State :=
  let s := tapCopy f rxLt s
  let cfg := (getPx s p).cfg
  let (s, act) := if isSupervision s p f then (s, some (PxAction.core, defaultQueue cfg f)) else filterFrame p f s
  match act with
  | none => s
  | some (.drop, _) => pxCount p 15 s
  | some (a, q) =>
    let s := learn p f (f.vid cfg.pvid) s
    fabricIn (some p) f
      { inPort := fabricPort s p, cls := q, rxLt := rxLt, vid := f.vid cfg.pvid,
        explicit := (match a with
          | .core => some 0x8000
          | .ingest => some 0x4000
          | _ => none),
        rxStatus := rxStatusWord bits q codeErr tagged false } s

/-- The six steps of R108 on a whole frame of port p whose first byte the PCS met at `rxLt`; its timestamp is that instant at the ball (R27). -/
def receiveFrame (p : Nat) (f : Frame) (rxLt : LT) (tie : Bool) (s : State) : State :=
  if (getPx s p).cfg.phy == .disabled then s else
  let limit := rxMax s p f rxLt
  let c := rxClass f.len limit f.fcsOk
  let stamp := rxStamp s p rxLt
  let s := pxCountBy p 1 f.len s
  let s := if f.codeErr then pxCount p 14 s else s
  if c ≠ .good then badFrame p f c limit stamp s else
  let s := goodCounters p f (innerFrame p f rxLt s) s
  if f.etype = 0x8808 then macControl p f s else
  match macsecRx p f rxLt s with
  | (s, .discard) => s
  | (s, .pass g bits) =>
    match redundancyRx p g stamp tie s with
    | (s, none) => s
    | (s, some (h, more)) => frameForward p h stamp (decide (0 < g.tags)) f.codeErr (bits + more) s

/-- FRAME_RECEIVE (R108): a whole frame received on port p. One whose first byte came before the last commit is treated under the settings before it
(R88, R112, R181). `tie` tells that the other port of its pair receives the other copy on the same clock cycle (R125). -/
def execFrameReceive (p : Fin 14) (f : Frame) (rxLt : LT) (tie : Bool) (s : State) : Res :=
  if !s.px.ready then .next s else
  .next (dropPurged p.val (match s.px.old with
    | some b => if ltDiff rxLt b.t < 0 then underBank b (receiveFrame p.val f rxLt tie) s else receiveFrame p.val f rxLt tie s
    | none => receiveFrame p.val f rxLt tie s))

/-- PAUSE_TIMER_EXPIRY (R115): the timer has reached zero. -/
def execPauseTimerExpiry (p : Fin 14) (s : State) : Res :=
  match (getPx s p.val).pauseEnd with
  | some t => .next (if ltReached s.now t then clearPause p.val s else s)
  | none => .next s

/-! ## Transmission (R105, R113, R120–R122) -/

/-- What a guard error in a cell of the buffer does in SW (R173). -/
def cellGuard (reqTag : Tag) (h : GuardHit) (s : State) : State :=
  foGuardError <| raise 0x1A 0 (onSw (fun x => { x with guardErr := true }) (guardUncorrectable 0x2 0x3 reqTag h s))

/-- The highest class of fabric port p with a copy in its transmit queue, and that copy (R113). -/
def nextCopy (s : State) (p : Nat) : Option Copy :=
  ((List.range 8).reverse.findSome? (fun q => (vget (getSw s p).queues q []).find? (·.queued)))

/-- The first copy in the transmit queue of a class taken out of it. -/
def dropCopy (p q : Nat) (s : State) : State :=
  modSw p (fun x => { x with queues := vmod x.queues q (fun l => l.eraseP (·.queued)) }) s

/-- One frame handed to the MAC of port p (R105, R126–R129, R33, R50): TB's part of a PTP message, then protected, held to L_max and
started. `ring` marks a frame of ring forwarding. -/
def startOn (p : Nat) (ring : Bool) (f : Frame) (rxLt : LT) (tsReq : Bool) (tsId : BitVec 12) (s : State) : State :=
  let (f, s) := ptpDepart p ring f rxLt s
  match macsecTx p f s with
  | (s, none) => s
  | (s, some (g, extra, slot)) =>
    if g.len > lMax s p f extra then
      onPx (fun x => { x with txOversize := true }) (modPx p (fun x => { x with txOversize := true }) (pxCount p 32 s))
    else
      let s := modPx p (fun x => { x with txBusy := some { frame := g, tsReq := tsReq, started := s.now, secTx := slot.isSome,
                                                           slot := slot.getD 0 } }) s
      if tsReq then
        txtsEnter p { lt := txStamp s p, id := tsId, seqId := if f.ptpEvent then f.ptpSeq else 0,
                      msgType := if f.ptpEvent then BitVec.ofNat 4 (f.ptpType.getD 0) else 0, isPtp := f.ptpEvent } s
      else s

/-- Port p may start a frame: it is enabled, its link is up, no frame is in transmission and no pause is in force (R97, R113,
R115). -/
def macIdle (s : State) (p : Nat) : Bool :=
  s.px.ready && (getPx s p).cfg.phy != .disabled && (getPx s p).linkUp && (getPx s p).txBusy.isNone && (getPx s p).pauseEnd.isNone

/-- The ports a copy for fabric port p leaves by: both of an enabled pair whose links are up, or the port itself (R120); what was queued for the upper
port of a pair before it was enabled leaves by that port (R88). -/
def txPorts (s : State) (p : Nat) : List Nat :=
  match enabledPair s p with
  | some _ => if fabricPort s p = p then [p, p + 1].filter (fun q => (getPx s q).linkUp) else [p]
  | none => [p]

/-- The frame a pair sends on its upper or lower port: with an HSR tag, or with a PRP trailer unless it is a supervision or PTP
frame (R121, R122). -/
def redundancyTx (mode : RedMode) (seq : BitVec 16) (p : Nat) (f : Frame) : Frame :=
  let b := padBytes f.bytes
  match mode with
  | .independent => f.withBytes b
  | .prp =>
    if f.etype == 0x88FB || f.ptpOff.isSome then f.withBytes b
    else f.withBytes (addPrp b f.etOff (if p % 2 = 0 then 0xA else 0xB) seq)
  | .hsr => f.withBytes (addHsr b f.etOff (p % 2) seq)

/-- A PTP message of this clock leaves by the port it names alone, as the ports of a pair are separate PTP ports (R31). -/
def ptpPort (f : Frame) (p : Nat) : Bool :=
  f.ptpOff.isNone || (ptpSource f).extractLsb' 16 64 != Config.clockIdentity || ptpSource f == portIdentity p

/-- A copy leaves the fabric through the ports of fabric port p (R113, R120); a TX mirror entry is written where PX starts it (R173, R176). -/
def startCopy (p : Nat) (c : Copy) (s : State) : State :=
  let s := modSw p (fun x => { x with sending := some c }) (dropCopy p c.cls s)
  let ports := txPorts s p
  let (mode, seq, s) := match (if fabricPort s p = p then enabledPair s p else none) with
    | some k =>
      let x := getPair s k
      let s := modPair k (fun x => { x with seqNo := x.seqNo + 1 }) s
      let s := if x.cfg.redBox && c.frame.src != x.cfg.node then proxyLearn k c.frame.src s else s
      (x.cfg.mode, x.seqNo, s)
    | none => (RedMode.independent, 0, s)
  let s := (ports.filter (ptpPort c.frame)).foldl (fun s q => startOn q false (redundancyTx mode seq q c.frame) c.rxLt c.tsReq c.tsId s) s
  if ports.any (fun q => (getPx s q).txBusy.isSome) then mirrorCopy 2 p c s else modSw p (fun x => { x with sending := none }) s

/-- A copy found with a guard error before its hand-over is discarded (R173). -/
def guardDrop (p : Nat) (c : Copy) (h : GuardHit) (s : State) : State :=
  mirrorCopy 9 p c (cellGuard 0 h (swCount p 5 s))

/-- A frame waiting for ring forwarding on port p is started (R122). -/
def startRing (k p : Nat) (s : State) : Option State :=
  match (getPair s k).ringQ.find? (fun e => e.1 == p) with
  | some (_, f, rxLt) =>
    some (startOn p true f rxLt false 0 (modPair k (fun x => { x with ringQ := x.ringQ.eraseP (fun e => e.1 == p) }) s))
  | none => none

/-- TRANSMIT_START (R113): the next frame of port p, or of fabric port 14 or 15, whose frame is handed to QM. A pair's ports take
a frame of the fabric together; a frame waiting for ring forwarding goes first (log 14). -/
def execTransmitStart (p : Fin 16) (guard : Option GuardFind) (s : State) : Res :=
  let p := p.val
  if !s.sw.ready then .next s else
  let ring := match enabledPair s p with
    | some k => if macIdle s p then startRing k p s else none
    | none => none
  match ring with
  | some s => .next s
  | none =>
    if (getSw s p).sending.isSome then .next s else
    let free := if 14 ≤ p then true else !(txPorts s p).isEmpty && (txPorts s p).all (macIdle s)
    match nextCopy s p with
    | none => .next s
    | some c =>
      if !free then .next s else
      let (guard, s) := guardRead 0x2 guard s
      match guard with
      | some h => .next (guardDrop p c h (dropCopy p c.cls s))
      | none =>
        if 14 ≤ p then .next (mirrorCopy 2 p c (modSw p (fun x => { x with sending := some c }) (dropCopy p c.cls s)))
        else .next (startCopy p c s)

/-- The counters of a frame sent (R119). -/
def txCounters (p : Nat) (t : TxFrame) (s : State) : State :=
  let s := pxCount p (28 + castOffset t.frame.dst) (pxCount p 27 (pxCountBy p 26 t.frame.len s))
  if t.tsReq then pxCount p 36 s else s

/-- The cells of the copy in transmission on the fabric ports of port p return once no MAC sends it any more (R167). -/
def copyDone (p : Nat) (s : State) : State :=
  let done (p : Nat) (s : State) : State :=
    if (txPorts s p).any (fun q => (getPx s q).txBusy.isSome) then s else modSw p (fun x => { x with sending := none }) s
  done (fabricPort s p) (done p s)

/-- TRANSMIT_END (R167): the last bit has left. A cell found bad after the hand-over ends the frame with a bad FCS, which TX_ABORT
alone counts (R173). -/
def execTransmitEnd (p : Fin 16) (guard : Option GuardFind) (s : State) : Res :=
  let p := p.val
  let (guard, s) := guardRead 0x2 guard s
  if 14 ≤ p then
    .next (modSw p (fun x => { x with sending := none })
      (match guard, (getSw s p).sending with
       | some h, some _ => cellGuard 0 h s
       | _, _ => s))
  else
    match (getPx s p).txBusy with
    | none => .next s
    | some t =>
      let s := modPx p (fun x => { x with txBusy := none }) s
      let s := match guard with
        | some h => emit (.frame p { t.frame with fcsOk := false }) (pxCount p 33 (cellGuard 0 h s))
        | none => emit (.frame p t.frame) (txCounters p t s)
      .next (copyDone p s)

/-! ## Links and the redundancy entities (R98, R123–R125) -/

/-- A port that sends and obeys the fault sequences of the reconciliation sublayer: 10GBASE-R and 25GBASE-R (R98). -/
def hasRs (c : PortCfg) : Bool := c.phy == .base10 || c.phy == .base25

/-- The fault sequence a port sends: remote fault while its receiver has no lock or receives local fault (R98; IEEE 802.3, log 129). -/
def faultSent (x : PxPort) : RsFault :=
  if !hasRs x.cfg then .none
  else if !x.pcsLock || (portFec x.cfg != .none && !x.fecLock) || x.rxFault == .localFault then .remoteFault
  else .none

/-- What the port sends towards its partner beside frames: the fault sequence, where it has changed (R98). -/
def sendFault (p : Nat) (old : RsFault) (s : State) : State :=
  if faultSent (getPx s p) = old then s else emit (.fault p (faultSent (getPx s p))) s

/-- LINK_STATE_CHANGE (R98): what the receiver of an enabled port finds. The link is up when the PCS is locked, FEC, if enabled, is locked and no
fault sequence is being received; a PHY or partner whose mode is not supported holds it down and sets LINK_CHG. -/
def execLinkStateChange (p : Fin 14) (pcs fec : Bool) (fault : RsFault) (unsupported : Bool) (s : State) : Res :=
  let p := p.val
  if !s.px.ready || (getPx s p).cfg.phy == .disabled then .next s
  else
    let c := (getPx s p).cfg
    let old := faultSent (getPx s p)
    let was := (getPx s p).linkUp
    let s := modPx p (fun x => { x with rxFault := if hasRs c then fault else .none }) s
    let up := !unsupported && pcs && (portFec c == .none || fec) && (getPx s p).rxFault == .none
    let s := sendFault p old (setLink p up pcs fec s)
    .next (if unsupported && !was then linkChanged p s else s)

/-- The body of an IEC 62439-3 supervision frame (PRESUMED layout, log 11): path and version, sequence number, the node's TLV and
for a proxied node the RedBox's. -/
def supervisionBytes (mode : RedMode) (node : Mac) (of : Mac) (seq : BitVec 16) : List Byte :=
  bytesBE 6 0x01154E000100 ++ bytesBE 6 node.toNat ++ bytesBE 2 0x88FB ++ bytesBE 2 1 ++ bytesBE 2 seq.toNat ++
  [if mode = .hsr then 23 else 20, 6] ++ bytesBE 6 of.toNat ++
  (if of = node then [] else [30, 6] ++ bytesBE 6 node.toNat) ++ [0, 0]

/-- SU queues one supervision frame for a pair (R125, R629). -/
def sendSupervision (k : Nat) (of : Mac) (s : State) : State :=
  let x := getPair s k
  let b := padBytes (supervisionBytes x.cfg.mode x.cfg.node of x.supSeq)
  let s := modPair k (fun x => { x with supSeq := x.supSeq + 1 }) s
  (sendPacket 0x14 0 (descBytes { dest := 1#16 <<< (2 + 2 * k), maskEn := true, cls := x.cfg.cls.val, length := b.length }) b s).1

/-- SUPERVISION_TX (R125): every LifeCheckInterval SU sends the supervision frames of the node and, as a RedBox, of its proxied
nodes. -/
def execSupervisionTx (k : Fin 2) (s : State) : Res :=
  let x := getPair s k.val
  if !s.glob.ready || x.cfg.mode == .independent || !ltReached s.now (ltAdd x.supAt (msTu x.cfg.lifeMs)) then .next s else
  let s := modPair k.val (fun x => { x with supAt := s.now }) s
  let s := sendSupervision k.val x.cfg.node s
  .next (if x.cfg.redBox then x.proxy.foldl (fun s e => sendSupervision k.val e.mac s) s else s)

/-- SUPERVISION_RX (R125): SU keeps the node table. -/
def execSupervisionRx (k : Fin 2) (node : Mac) (s : State) : Res :=
  if (getPair s k.val).cfg.mode = .independent then .next s
  else .next (modPair k.val (fun x => { x with nodes := x.nodes.put node s.now }) s)

/-- DDT_FORGET (R123): entries whose forget time has come are removed. -/
def execDdtForget (k : Fin 2) (s : State) : Res :=
  .next (modPair k.val (fun x => { x with
    ddt := x.ddt.filter (fun e => !ltReached s.now e.forgetAt)
    ringSeen := x.ringSeen.filter (fun e => !ltReached s.now e.2.forgetAt) }) s)

/-- PROXY_AGEING (R124). -/
def execProxyAgeing (k : Fin 2) (s : State) : Res :=
  .next (modPair k.val (fun x => { x with proxy := x.proxy.filter (fun e => !ltReached s.now e.expires) }) s)

/-! ## Opcodes (R132) -/

/-- PX_STAGE_PORT (R131, R132). The frame size and the PHY type are judged by the consistency checks. -/
def execPxStagePort (c : Cmd) (p : Fin 14) (x : PortCfg) (s : State) : Res := stage 0x0201 false c [.port p x] (fun _ _ => none) s

/-- PX_STAGE_FILTER (R109): address entries of one port. -/
def execPxStageFilter (c : Cmd) (p : Fin 14) (l : List (Nat × AddrEntry)) (s : State) : Res :=
  stage 0x0202 false c (l.map (fun e => .filter p e.1 e.2)) (fun _ _ => none) s

/-- What PxStageRedundancy refuses, over the session's view with its items laid in (R626, R630). -/
def checkPxStageRedundancy (x : RedCfg) (_view : List Item) (_s : State) : Option Status :=
  if x.rsv || decide (x.forgetMs < 10 ∨ 1000 < x.forgetMs) || decide (x.lifeMs < 1000 ∨ 10000 < x.lifeMs)
  then some .badParam else none

/-- PX_STAGE_REDUNDANCY (R120, R123, R125): a value that sets reserved bits is refused. -/
def execPxStageRedundancy (c : Cmd) (pair : Nat) (x : RedCfg) (s : State) : Res :=
  stage 0x0203 false c [.red pair x]
    (checkPxStageRedundancy x) s

/-- What PxStageMacsec refuses, over the session's view with its items laid in (R626, R630). -/
def checkPxStageMacsec (x : MacsecCfg) (_view : List Item) (_s : State) : Option Status :=
  if 8 < x.rxSc.length then some .badParam else none

/-- PX_STAGE_MACSEC (R126–R129): at most 8 receive channels. -/
def execPxStageMacsec (c : Cmd) (p : Nat) (x : MacsecCfg) (s : State) : Res :=
  stage 0x0204 false c [.macsec p x] (checkPxStageMacsec x) s

/-- PX_MACSEC_SA_SET (R127): one SA installed, or removed. The slot's key must be one MACsec on that port may use (R489). -/
def execPxMacsecSaSet (c : Cmd) (p : Fin 6) (rxChan : Option (Fin 8)) (an : Fin 4) (sa : Option MacsecSa) (s : State) : Res :=
  command 0x0210 false c s fun s =>
    match sa with
    | some x =>
      match keyRefusal s x.slot.toNat (16 + p.val) with
      | some e => (s, some (st e))
      | none =>
        match rxChan with
        | none => (modPx p.val (fun y => { y with txSa := y.txSa.put an.val (installSa s x) }) s, some (st .ok))
        | some ch => (modPx p.val (fun y => { y with rxSa := y.rxSa.put (ch.val, an.val) (installSa s x) }) s, some (st .ok))
    | none =>
      match rxChan with
      | none => (modPx p.val (fun y => { y with txSa := y.txSa.del an.val }) s, some (st .ok))
      | some ch => (modPx p.val (fun y => { y with rxSa := y.rxSa.del (ch.val, an.val) }) s, some (st .ok))

/-- PX_MACSEC_TX_AN (R127). -/
def execPxMacsecTxAn (c : Cmd) (p : Fin 6) (an : Fin 4) (s : State) : Res :=
  command 0x0211 false c s fun s => (modPx p.val (fun y => { y with txAn := BitVec.ofNat 2 an.val }) s, some (st .ok))

/-- What auto-negotiation of a port advertises: full duplex, and PS1 and PS2 both as PAUSE is obeyed (R98). -/
def advertise (p : Nat) (s : State) : State :=
  let c := (getPx s p).cfg
  if c.phy = .base1000 ∧ c.anEn then emit (.advert p true c.pauseObey c.pauseObey) s else s

/-- A retrain: the port is link-down until its PCS locks again, and its auto-negotiation starts afresh (R98, R99). -/
def retrain (p : Nat) (s : State) : State :=
  advertise p (sendFault p (faultSent (getPx s p)) (setLink p false false false (modPx p (fun x => { x with rxFault := .none }) s)))

/-- A port that a commit leaves without a PHY type: it is link-down without counting it, its pause ends, and its queues are flushed without hold
(R97, R171). -/
def portOff (p : Nat) (s : State) : State :=
  let was := (getPx s p).linkUp
  let s := modPx p (fun x => { x with linkUp := false, pcsLock := false, fecLock := false, rxFault := .none, pauseEnd := none }) s
  let s := flushPort p (modSw p (fun x => { x with link := .disabled, holdAt := none }) s)
  fabricLink p (if was then linkChanged p s else s)

/-- Part n of PxPortRestart (R89). -/
def partPxPortRestart (n : Nat) (s : State) : State × Status × List Byte :=
  if 14 ≤ n ∨ (getPx s n).cfg.phy = .disabled then (s, .badParam, []) else (retrain n s, .ok, [])

/-- PX_PORT_RESTART (R132). -/
def execPxPortRestart (c : Cmd) (mask : BitVec 64) (s : State) : Res :=
  multi 0x0212 false c mask partPxPortRestart s

/-- Whether an instance's share holds an Ethernet port or fabric port (R518). -/
def portDenied (c : Cmd) (n : Nat) (s : State) : Bool :=
  issuer c != 0 && !((s.im.inst.getD (issuer c) {}).shares.ports.getLsbD n)

/-- Part n of PxReadCounters (R89). -/
def partPxReadCounters (c : Cmd) (n : Nat) (s : State) : State × Status × List Byte :=
  if 14 ≤ n then (s, .badParam, [])
  else if portDenied c n s then (s, .denied, [])
  else
    let s := pauseAccount n s
    (modPx n (fun x => { x with ctr := .replicate 48 0 }) s, .ok, counterBytes (pxCtrs s n))

/-- PX_READ_COUNTERS (R118, R132). -/
def execPxReadCounters (c : Cmd) (mask : BitVec 64) (s : State) : Res :=
  multi 0x0213 true c mask (partPxReadCounters c) s

end Sys2Proof.Machine
end

