-- ==== Sys2Proof/Machine/Fabric.lean ====
section
/-! DEFINITION. Meanings of the Switch Core commands (chapter 05). -/

namespace Sys2Proof.Machine

/-- TRANSMIT_QUEUE_ENTRY (R162): the last cell of the oldest copy of a class that still crosses the fabric has crossed stage 2, which it can do
only once it has crossed stage 1 (R161); a cell found bad on the way discards the copy (R173). -/
def execTransmitQueueEntry (p : Fin 16) (cls : Fin 8) (guard : Option GuardFind) (s : State) : Res :=
  let l := vget (getSw s p.val).queues cls.val []
  match l.find? (fun c => !c.queued) with
  | none => .next s
  | some c =>
    if !ltReached s.now c.cross1 && guard.isNone then .next s else
    let (guard, s) := guardRead 0x2 guard s
    let s := notePeak c.mid s
    let put (l : List Copy) := modSw p.val (fun x => { x with queues := vmod x.queues cls.val (fun _ => l) }) s
    match guard with
    | some h => .next (guardDrop p.val c h (put (l.eraseP (fun c => !c.queued))))
    | none =>
      .next (put (match l.findIdx? (fun c => !c.queued) with
        | some i => l.set i { c with queued := true }
        | none => l))

/-- HOLD_EXPIRY (R171): the hold time of a port has passed; a link that comes up on that same tick counts as returned in time. -/
def execHoldExpiry (p : Fin 14) (back : Bool) (s : State) : Res :=
  let x := getSw s p.val
  match x.link, x.holdAt with
  | .hold, some t => .next (if !ltReached s.now t then s else if back then fabricLinkUp p.val s else enterDown p.val s)
  | _, _ => .next s

/-- MAX_AGE_EXPIRY (R172): the head frame of a queue is older than MAX_AGE and is discarded. -/
def execMaxAgeExpiry (p : Fin 14) (cls : Fin 8) (s : State) : Res :=
  let x := getSw s p.val
  let age := (limitsOf s p.val cls.val).maxAge
  match (vget x.queues cls.val []).find? (·.queued) with
  | none => .next s
  | some c =>
    if age = 0 ∨ x.link = .down ∨ x.link = .disabled ∨ ltDiff s.now c.admitted ≤ (usTu (10 * age) : Int) then .next s
    else .next (mirrorCopy 7 p.val c (pxCount p.val 34 (dropCopy p.val cls.val s)))

/-- FDB_AGEING (R158): dynamic entries whose ageing time has come are removed. -/
def execFdbAgeing (s : State) : Res :=
  .next (onSw (fun x => { x with fdb := x.fdb.filter (fun e => e.static || !ltReached s.now e.expires) }) s)

/-- MIRROR_ENABLE (R174): a write of SW_MIRROR_CTRL. A size outside 6–16 keeps the ring disabled. -/
def execMirrorEnable (v : BitVec 32) (s : State) : Res :=
  if !s.glob.ready then .next s
  else if !v.getLsbD 0 then .next (onSw (fun x => { x with mirEn := false }) s)
  else if s.sw.mirEn then .next s
  else
    .next (onSw (fun x => { x with mirEn := decide (6 ≤ x.mirSize.toNat ∧ x.mirSize.toNat ≤ 16), mirHead := 0, mirRelease := 0 }) s)

/-! ## Opcodes (R181) -/

/-- Limits within their ranges (R166, R172). -/
def limitsOk (c : LimitsCfg) : Bool :=
  decide (c.reserve ≤ c.limit) && decide (80 ≤ c.limit) && decide (c.limit ≤ 65536) && decide (c.maxAge ≤ 100000)

/-- What SwStageLimits refuses, over the session's view with its items laid in (R626, R630). -/
def checkSwStageLimits (l : List (Fin 16 × Fin 8 × LimitsCfg)) (_view : List Item) (_s : State) : Option Status :=
  if l.all (fun e => limitsOk e.2.2) then none else some .badParam

/-- SW_STAGE_LIMITS (R166, R170, R172). -/
def execSwStageLimits (c : Cmd) (l : List (Fin 16 × Fin 8 × LimitsCfg)) (s : State) : Res :=
  stage 0x0301 false c (l.map (fun e => .limits e.1 e.2.1 e.2.2))
    (checkSwStageLimits l) s

/-- What SwStageFdb refuses, over the session's view with its items laid in (R626, R630). -/
def checkSwStageFdb (l : List (Nat × FdbStatic)) (_view : List Item) (_s : State) : Option Status :=
  if l.all (fun e => decide (e.1 < 16384)) then none else some .badParam

/-- SW_STAGE_FDB (R158): the database holds 16,384 entries. -/
def execSwStageFdb (c : Cmd) (l : List (Nat × FdbStatic)) (s : State) : Res :=
  stage 0x0302 false c (l.map (fun e => .fdb e.1 e.2))
    (checkSwStageFdb l) s

/-- SW_STAGE_VLAN (R159). -/
def execSwStageVlan (c : Cmd) (l : List (BitVec 12 × VlanCfg)) (s : State) : Res :=
  stage 0x0303 false c (l.map (fun e => .vlan e.1 e.2)) (fun _ _ => none) s

/-- What SwStagePorts refuses, over the session's view with its items laid in (R626, R630). -/
def checkSwStagePorts (x : SwPortsCfg) (_view : List Item) (_s : State) : Option Status :=
  if x.hold.toList.all (fun h => decide (h ≤ 1000)) && decide (10 ≤ x.ageing ∧ x.ageing ≤ 3600) then none
  else some .badParam

/-- SW_STAGE_PORTS (R158, R171, R181). -/
def execSwStagePorts (c : Cmd) (x : SwPortsCfg) (s : State) : Res :=
  stage 0x0304 false c [.swPorts x]
    (checkSwStagePorts x) s

/-- SW_STAGE_MIRROR (R176). -/
def execSwStageMirror (c : Cmd) (x : MirrorCfg) (s : State) : Res := stage 0x0305 false c [.mirror x] (fun _ _ => none) s

/-- Part n of SwReadCounters (R89). -/
def partSwReadCounters (c : Cmd) (n : Nat) (s : State) : State × Status × List Byte :=
  if 16 ≤ n then (s, .badParam, [])
  else if portDenied c n s then (s, .denied, [])
  else (modSw n (fun x => { x with ctr := .replicate 8 0 }) s, .ok, counterBytes (getSw s n).ctr)

/-- SW_READ_COUNTERS (R180, R181). -/
def execSwReadCounters (c : Cmd) (mask : BitVec 64) (s : State) : Res :=
  multi 0x0310 true c mask (partSwReadCounters c) s

/-- Part n of SwFdbFlush (R89). -/
def partSwFdbFlush (n : Nat) (s : State) : State × Status × List Byte :=
  if 14 ≤ n ∨ vget s.sw.ports.learn n false = false then (s, .badParam, [])
  else (onSw (fun x => { x with fdb := x.fdb.filter (fun e => e.static || e.mask != 1#16 <<< n) }) s, .ok, [])

/-- SW_FDB_FLUSH (R181): the dynamic entries learned on the named ports. -/
def execSwFdbFlush (c : Cmd) (mask : BitVec 64) (s : State) : Res :=
  multi 0x0311 false c mask partSwFdbFlush s

/-- SW_FDB_READ (R181): 16-byte entries, as many as BUF_LEN holds. -/
def execSwFdbRead (c : Cmd) (s : State) : Res :=
  answer 0x0312 false c s
    { status := .ok,
      buf := .recs ((s.sw.fdb.take (c.bufLen / 16)).map (fun e => [e.mac.toNat, e.vid.toNat, e.mask.toNat, bitN e.static])) }

end Sys2Proof.Machine
end

