-- ==== Sys2Proof/Machine/PointStore.lean ====
section
/-! DEFINITION. Meanings of the Point Store commands (chapter 13), but for POINT_STORE_BUILT, which belongs to start-up. -/

namespace Sys2Proof.Machine

/-- BATCH_APPLY (R398): the store applies the oldest waiting batch; an output write it then holds invisible until W, where
OUTPUT_WRITE makes it visible. The samples of a released grid instant release its SAMPLE tasks (R363). -/
def execBatchApply (s : State) : Res :=
  if !s.ps.ready then .next s else
  match s.ps.waiting with
  | [] => .next s
  | b :: rest =>
    let waited := (ltDiff s.now b.arrived).toNat / 65536
    let s := offerHeld (onPs (fun x => { x with
      waiting := rest, maxWait := if x.maxWait.toNat < waited then BitVec.ofNat 32 waited else x.maxWait }) s)
    match b.visible with
    | some _ => .next (onPs (fun x => { x with held := x.held ++ [b] }) s)
    | none =>
      let s := cabFresh b (applyBatch b s)
      match b.release with
      | some (g, k, tag) => .next (releaseSample g k tag s)
      | none => .next s

/-- STALE_MARK (R399): point i has passed its maximum age. -/
def execStaleMark (i : Nat) (s : State) : Res :=
  match getPoint s i, s.ps.defs.get? i with
  | some r, some d =>
    if d.staleAge = 0 ∨ r.flags.getLsbD 5 ∨ ltDiff s.now r.lt ≤ (msTu d.staleAge : Int) then .next s
    else
      let r' : PointRec := { r with quality := worseQuestionable r.quality ||| qOldData, flags := r.flags ||| 32, seq := r.seq + 1 }
      .next (gooseDetect i s.now s (onPs (fun x => { x with recs := x.recs.put i r', staleMark := true, staleMarks := x.staleMarks + 1 }) s))
  | _, _ => .next s

/-! ## Opcodes (R407) -/

/-- R399, R630: at most 65,536 points carry a non-zero maximum age. -/
def staleCond (view : List Item) : Option Nat :=
  let l := view.filterMap (fun i => match i with
    | .point n d => if d.type != .undefined && d.staleAge != 0 then some n else none
    | _ => none)
  if 65536 < l.length then l.head? else none

/-- The publication entries of an owner in a configuration (R396). -/
def viewPubs (view : List Item) (o : Tag) : Nat :=
  (view.filter (fun i => match i with
    | .pub p => p.owner == o
    | _ => false)).length

/-- The publication entries an owner may have (R396): its share, or for the platform what no instance takes. -/
def pubShare (s : State) (o : Tag) : Nat :=
  if o = 0 then 65536 - (s.im.inst.map (fun e => e.2.shares.pubEntries)).sum else (s.im.inst.getD o {}).shares.pubEntries

/-- What PsStagePoints refuses, over the session's view with its items laid in (R626, R630). -/
def checkPsStagePoints (c : Cmd) (defs : List (Nat × PointDef)) (pubs : List PubCfg) (tPsw : Option Nat) (view : List Item) (s : State) : Option Status :=
  if issuer c ≠ 0 ∧ (tPsw.isSome ∨ defs.any (fun e => outsideShare c .point e.1 s) ∨
      pubs.any (fun p => p.owner != issuer c || outsideShare c .point p.first s || outsideShare c .point (p.first + p.count - 1) s)) then
    some .denied
  else if defs.any (fun e => decide (e.2.staleAge > 3600000)) || pubs.any (fun p => decide (p.count < 1 ∨ p.count > 1048576)) ||
      decide (200 < tPsw.getD 0) || (staleCond view).isSome then some .badParam
  else if pubs.any (fun p => decide (viewPubs view p.owner > pubShare s p.owner)) then some .quota
  else none

/-- PS_STAGE_POINTS (R395–R399, R407). -/
def execPsStagePoints (c : Cmd) (defs : List (Nat × PointDef)) (pubs : List PubCfg) (tPsw : Option Nat) (s : State) : Res :=
  let items := defs.map (fun e => Item.point e.1 e.2) ++ pubs.map Item.pub ++ (match tPsw with
    | some n => [Item.tPsw n]
    | none => [])
  stage 0x0A01 true c items (checkPsStagePoints c defs pubs tPsw) s

/-- PS_READ_POINTS (R397, R407): up to 1,024 records as presented; one refused index refuses the command. `guard` names the records
and `forces` the force entries in which the read finds an error (R405). -/
def execPsReadPoints (c : Cmd) (l : List Nat) (guard forces : List (Nat × GuardFind)) (s : State) : Res :=
  command 0x0A10 true c s fun s =>
    if 1024 < l.length then (s, some (st .badParam))
    else if !s.ps.ready then (s, some (st .notReady))
    else if !l.all (fun i => pointReadable s (issuer c) i) then
      ((l.filter (fun i => !pointReadable s (issuer c) i)).foldl (fun s _ => readDenied s) s, some (st .denied))
    else
      let s := pointGuards (issuer c) (guard.filter (fun e => l.contains e.1)) (forces.filter (fun e => l.contains e.1)) s
      (s, some { status := .ok, buf := .bytes ((l.filterMap (presented s)).flatMap pointBytes) })

/-- The part of PS_WRITE for one entry (R395, R407). -/
def psWritePart (c : Cmd) (l : List (Nat × BitVec 64 × Quality)) (n : Nat) (s : State) : Status :=
  match l[n]? with
  | none => .badParam
  | some (i, _, _) =>
    match getPoint s i, s.ps.defs.get? i with
    | some r, some d => if d.writer = .host ∧ (issuer c = 0 ∨ r.owner = issuer c) then .ok else .denied
    | _, _ => .denied

/-- A refused part of a write is counted (R395). -/
def countRefused (x : Status) (s : State) : State := if x = .denied then pointDenied s else s

/-- PS_WRITE (R395, R407): the successful parts form one batch. -/
def execPsWrite (c : Cmd) (l : List (Nat × BitVec 64 × Quality)) (mask : BitVec 64) (s : State) : Res :=
  command 0x0A11 true c s fun s =>
    if 64 < l.length then (s, some (st .badParam)) else
    let done := (maskParts mask).filter (fun n => psWritePart c l n s == .ok)
    let r := multipart mask (fun n s => let x := psWritePart c l n s; (countRefused x s, x, [])) s
    let ws := done.filterMap (fun n => (l[n]?).map (fun e =>
      ({ index := e.1, value := e.2.1, quality := e.2.2, lt := s.now, writer := .host } : PtWrite)))
    (sendBatch .su ws r.1, some r.2)

/-- The force entries an owner may have set (R400). -/
def forceShare (s : State) (o : Tag) : Nat :=
  if o = 0 then 16384 - (s.im.inst.map (fun e => e.2.shares.forceEntries)).sum else (s.im.inst.getD o {}).shares.forceEntries

/-- One force set (R400), visible from now. -/
def setForce (c : Cmd) (e : Nat × BitVec 64 × Quality) (s : State) : State × Status :=
  match getPoint s e.1 with
  | none => (s, .badParam)
  | some r =>
    if issuer c ≠ 0 ∧ r.owner ≠ issuer c then (s, .denied) else
    let others := s.ps.force.del e.1
    if 16384 ≤ others.length ∨ forceShare s (issuer c) ≤ (others.filter (fun f => f.2.setter == issuer c)).length then
      (onPs (fun x => { x with forceFull := true }) s, .quota)
    else
      let f : Force := { value := normalise r.type e.2.1, quality := storeQuality e.2.2, setter := issuer c, lt := s.now, type := r.type,
                         orphan := ((s.ps.force.get? e.1).map (·.orphan)).getD false }
      (notePoint e.1 (bumpSeq e.1 (onPs (fun x => { x with force := x.force.put e.1 f }) s)), .ok)

/-- PS_FORCE_SET (R400, R407). -/
def execPsForceSet (c : Cmd) (l : List (Nat × BitVec 64 × Quality)) (mask : BitVec 64) (s : State) : Res :=
  command 0x0A12 true c s fun s =>
    if 64 < l.length then (s, some (st .badParam)) else
    let r := multipart mask (fun n s => match l[n]? with
      | none => (s, .badParam, [])
      | some e => let y := setForce c e s; (y.1, y.2, [])) s
    (r.1, some r.2)

/-- One force removed by command (R407): an index without a force is STALE. -/
def clearForce (c : Cmd) (i : Nat) (s : State) : State × Status :=
  if issuer c ≠ 0 ∧ ((getPoint s i).map (·.owner)).getD 0xFF ≠ issuer c then (s, .denied)
  else
    match s.ps.force.get? i with
    | none => (s, .stale)
    | some _ => (notePoint i (bumpSeq i (onPs (fun x => { x with force := x.force.del i }) s)), .ok)

/-- PS_FORCE_CLEAR (R400, R407). -/
def execPsForceClear (c : Cmd) (l : List Nat) (mask : BitVec 64) (s : State) : Res :=
  command 0x0A13 true c s fun s =>
    if 64 < l.length then (s, some (st .badParam)) else
    let r := multipart mask (fun n s => match l[n]? with
      | none => (s, .badParam, [])
      | some i => let y := clearForce c i s; (y.1, y.2, [])) s
    (r.1, some r.2)

/-- A 32-byte entry of PS_FORCE_LIST (R407). -/
def forceBytes (dropped : Bool) (e : Nat × Force) : List Byte :=
  bytesLE 4 e.1 ++ bytesLE 8 e.2.value.toNat ++ bytesLE 2 e.2.quality.toNat ++ bytesLE 2 (bitN e.2.orphan + 2 * bitN dropped) ++
  [BitVec.ofNat 8 e.2.setter, BitVec.ofNat 8 (ptCode e.2.type)] ++ List.replicate 6 0 ++ bytesLE 8 e.2.lt.toNat

/-- The forces an issuer may list: the manager all, an instance those on its own points (R407). -/
def listable (c : Cmd) (s : State) (l : List (Nat × Force)) : List (Nat × Force) :=
  if issuer c = 0 then l else l.filter (fun e => ((getPoint s e.1).map (·.owner)).getD 0xFF == issuer c)

/-- PS_FORCE_LIST with byte 0 = 0 (R407): the current forces, by index. -/
def execPsForceListCurrent (c : Cmd) (s : State) : Res :=
  answer 0x0A14 true c s
    { status := .ok, buf := .bytes ((sortBy (·.1) (listable c s s.ps.force)).flatMap (forceBytes false)) }

/-- PS_FORCE_LIST with byte 0 = 1 (R402, R407): the dropped list, in the order of removal. -/
def execPsForceListDropped (c : Cmd) (s : State) : Res :=
  answer 0x0A14 true c s { status := .ok, buf := .bytes ((listable c s s.ps.dropped).flatMap (forceBytes true)) }

end Sys2Proof.Machine
end

