-- ==== Sys2Proof/Machine/PhasorOps.lean ====
section
/-! DEFINITION. The estimator of the Phasor Engine (chapter 09): windows, window groups, frequency, the final phasor and its quality.
The spec says that PE computes in binary64 and rounds to binary32; the order of the operations is the model's (log 38). -/

namespace Sys2Proof.Machine

/-- Channel c. -/
def getChan (s : State) (c : Nat) : PeChan := s.pe.ch.getD c {}

/-- The lane of a channel. -/
def chanLane (s : State) (x : PeChan) : Lane := getLane s x.cfg.lane

/-- f0 in Hz (R234). -/
def f0Hz (sixty : Bool) : Nat := if sixty then 60 else 50

/-- The next reporting instant's second: the present one ends after Fe instants, or where the next one opens (R250). -/
def secondOver (l : List LT) (k rate : Nat) : Bool :=
  match l with
  | a :: b :: _ => decide (rate ≤ k) || ltReached (gridTag a k rate) b
  | _ => false

/-- The channel with the seconds behind it dropped (R250). -/
def advanceChan (x : PeChan) : PeChan := if secondOver x.secs x.nextK x.cfg.fe then { x with secs := x.secs.drop 1, nextK := 0 } else x

/-- The next reporting instant of a channel (R250). -/
def nextReport (x : PeChan) : Option LT :=
  let x := advanceChan x
  match x.secs with
  | a :: _ => if x.state = .disabled ∨ x.cfg.fe ≤ x.nextK then none else some (gridTag a x.nextK x.cfg.fe)
  | [] => none

/-- Channel c as it estimates next: one that a commit changed first finishes what lies before it, of which the instant is given (R88). -/
def chanTurn (s : State) (c : Nat) : Option LT × PeChan :=
  match s.pe.drain.find? (fun e => e.1 == c) with
  | some (_, t, x) =>
    match nextReport x with
    | some tr => if ltDiff tr t < 0 then (some t, x) else (none, getChan s c)
    | none => (none, getChan s c)
  | none => (none, getChan s c)

/-- The channel that `chanTurn` gave, put back. -/
def putTurn (c : Nat) (before : Option LT) (x : PeChan) (s : State) : State :=
  match before with
  | some t => onPe (fun p => { p with drain := p.drain.map (fun d => if d.1 = c then (c, t, x) else d) }) s
  | none => onPe (fun p => { p with ch := p.ch.put c x }) s

/-- The sets that an estimate of t_r belongs to: those before the last commit where it lies before that (R88, R249). -/
def setsFor (s : State) (tr : LT) : Tab Nat PeSet :=
  match s.pe.setsOld with
  | some (t, l) => if ltDiff tr t < 0 then l else s.pe.sets
  | none => s.pe.sets

/-- n, the samples of a window (R253). -/
def winLen (c : ChanCfg) (p : Nat) : Nat := c.w * p

/-- The weight of sample m of n (R253). -/
def winWeight (w : PhWindow) (n m : Nat) : F :=
  match w with
  | .rect => dint 1
  | .triangle => drat ((n : Int) - ((2 * m : Int) - (n - 1 : Nat)).natAbs) n
  | .hann => dsub (drat 1 2) (dmul (drat 1 2) (dcos (dmul twoPi (drat (2 * m + 1 : Nat) (2 * n)))))

/-! ## Windows on the grid (R253, R254) -/

/-- The index of a grid sample, counted in samples from the cycle of a reference sample. -/
def gridIdx (ref : LaneSample) (p : Nat) (x : LaneSample) : Int := (x.cycle - ref.cycle).toInt * p + x.idx

/-- The grid phase ψ of an instant in samples, as a fraction, where a held cycle contains it (R253). -/
def gridPhase (line : List LaneSample) (ref : LaneSample) (p : Nat) (t : BitVec 96) : Option (Int × Nat) :=
  (line.find? (fun x => decide (0 ≤ diff96 t x.tc ∧ diff96 t x.tc < x.tlen))).map (fun x =>
    ((x.cycle - ref.cycle).toInt * p * x.tlen + p * diff96 t x.tc, x.tlen))

/-- The first sample of the window nearest a target centre, given as a fraction with denominator 2·den; of two equally near, the one
at or before the target (R254). -/
def winStart (target2 : Int) (den n : Nat) : Int := -((-(target2 - (n - 1 : Nat) * den - den)).ediv (2 * den))

/-- The first samples of the windows of the group at −1, 0 or 1 half cycles from ψ = num / den (R254). -/
def groupStarts (c : ChanCfg) (p : Nat) (num : Int) (den : Nat) (half : Int) : List Int :=
  (List.range c.b).map (fun j => winStart (2 * num + half * p * den + (2 * (j : Int) - ((c.b - 1 : Nat) : Int)) * p * den) den (winLen c p))

/-- The samples of a window, oldest first, if they are all held. -/
def winSamples (line : List LaneSample) (ref : LaneSample) (p n : Nat) (start : Int) : Option (List LaneSample) :=
  let newest := gridIdx ref p ref
  let skip := newest - (start + n - 1)
  if skip < 0 then none
  else
    let l := ((line.drop skip.toNat).take n).reverse
    if l.map (gridIdx ref p) = (List.range n).map (fun i => start + (i : Nat)) then some l else none

/-- A window's local phasor, grid phase at its centre in samples, and centre time relative to t_r in seconds (R253). -/
structure WinVal where
  re : F
  im : F
  arg : F
  psi : F
  t : F

/-- The value of a window (R253). -/
def winVal (c : ChanCfg) (line : List LaneSample) (ref : LaneSample) (p : Nat) (tr : LT) (l : List LaneSample) : WinVal :=
  let n := l.length
  let w := (List.range n).map (winWeight c.win n)
  let ang (x : LaneSample) : F := dmul twoPi (drat x.idx p)
  let term (f : F → F) : F := dsum ((w.zip l).map (fun e => dmul (dmul e.1 (dsingle e.2.value)) (f (ang e.2))))
  let k := ddiv (dsqrt (dint 2)) (dsum w)
  let re := dmul k (term dcos)
  let im := (fneg (dmul k (term dsin)))
  let first := lt96 ((l.head?).getD {}).tag
  let tw := first + BitVec.ofInt 96 ((diff96 (lt96 ((l.getLast?).getD {}).tag) first).ediv 2)
  let psi := match gridPhase line ref p tw with
    | some (a, b) => drat a (b * p)
    | none => 0
  { re := re, im := im, arg := datan2 im re, psi := psi, t := drat (diff96 tw (lt96 tr)) (oneSec * 4294967296) }

/-- An angle wrapped to (−π, π] (R254). -/
def wrapAngle (x : F) : F :=
  let y := dsub x (dmul twoPi (dint (dround (ddiv x twoPi))))
  if dlt dpi y then dsub y twoPi else if dlt (fneg dpi) y then y else dadd y twoPi

/-- The mean of a list. -/
def dmean (l : List F) : F := ddiv (dsum l) (dint l.length)

/-- One window group: the mean of its local phasors, the mean grid phase in cycles, the arguments of its windows, and its centre time
relative to t_r (R254). -/
structure GroupVal where
  re : F
  im : F
  args : List F
  psi : F
  t : F

/-- The value of a group (R254). -/
def groupVal (l : List WinVal) : GroupVal :=
  { re := dmean (l.map (·.re)), im := dmean (l.map (·.im)), args := l.map (·.arg), psi := dmean (l.map (·.psi)), t := dmean (l.map (·.t)) }

/-- What a channel's line holds of the span of a reporting instant (R254, R257, R258). -/
inductive Span where
  | notYet
  | short
  | full (minus mid plus : GroupVal) (samples : List LaneSample) (tlen : Nat)

/-- The span of t_r: not yet released by FR, cut short by a restart, or whole. -/
def chanSpan (x : PeChan) (tr : LT) : Span :=
  let p := x.src.p
  match x.line with
  | [] => .notYet
  | ref :: _ =>
    if ref.tlen ≤ diff96 (lt96 tr) ref.tc then .notYet
    else
      match gridPhase x.line ref p (lt96 tr) with
      | none => .short
      | some (num, den) =>
        let n := winLen x.cfg p
        let starts := [-1, 0, 1].map (groupStarts x.cfg p num den)
        let last := (starts.flatten).foldl max ((starts.flatten).headD 0) + n - 1
        if gridIdx ref p ref < last then .notYet
        else
          let vals (l : List Int) : Option (List (List LaneSample)) := l.mapM (winSamples x.line ref p n)
          match starts.mapM vals with
          | some [a, b, c] =>
            let g (ls : List (List LaneSample)) : GroupVal := groupVal (ls.map (winVal x.cfg x.line ref p tr))
            .full (g a) (g b) (g c) ((a ++ b ++ c).flatten) den
          | _ => .short

/-! ## Frequency, phase and the final phasor (R254–R256) -/

/-- θ of a group relative to the middle group's windows, with differences of arguments wrapped, and of the middle group itself (R254;
log 38). -/
def thetaMid (m : GroupVal) : F :=
  let a0 := m.args.headD 0
  dadd (dmul twoPi m.psi) (dmean (m.args.map (fun a => dadd a0 (wrapAngle (dsub a a0)))))

/-- θ of a side group minus θ of the middle one. -/
def thetaDiff (m g : GroupVal) : F :=
  dadd (dmul twoPi (dsub g.psi m.psi)) (dmean ((m.args.zip g.args).map (fun e => wrapAngle (dsub e.2 e.1))))

/-- f̂ (R254). -/
def estFreq (a m b : GroupVal) : F :=
  ddiv (dsub (thetaDiff m b) (thetaDiff m a)) (dmul twoPi (dsub b.t a.t))

/-- R̂ (R254). -/
def estRocof (a m b : GroupVal) : F :=
  let up := ddiv (thetaDiff m b) (dsub b.t m.t)
  let down := ddiv (fneg (thetaDiff m a)) (dsub m.t a.t)
  ddiv (dsub up down) (dmul dpi (dsub b.t a.t))

/-- s(t_r): the fraction of the TAI second (R23, R254). -/
def taiFraction (s : State) (t : LT) : F := drat ((taiOf s.tb t).emod oneSec) oneSec

/-- The reported angle φ (R254). -/
def estAngle (s : State) (f0 : Nat) (m : GroupVal) (f : F) (tr : LT) : F :=
  let θ := dsub (thetaMid m) (dmul (dmul twoPi f) m.t)
  wrapAngle (dsub θ (dmul (dmul twoPi (dint f0)) (taiFraction s tr)))

/-- cos(2π f × num / den). -/
def cosAt (f : F) (num : Int) (den : Nat) : F := dcos (dmul twoPi (dmul f (drat num den)))

/-- x to a power. -/
def dpow (x : F) : Nat → F
  | 0 => dint 1
  | n + 1 => dmul (dpow x n) x

/-- |H_lane(f)|: the product of the CIC, FIR and prototype responses (R255). -/
def laneResponse (s : State) (x : PeChan) (f : F) : F :=
  let k := x.src.d * x.src.m
  let cic := ddiv (dsum ((List.range k).map (fun i => cosAt f ((2 * i : Nat) - (k - 1 : Nat)) (2 * x.fIn)))) (dint k)
  let h := if x.before then firTable (fun k => s.fr.firOld.get? k) x.src.fir else firOf s x.src.fir
  let g := if x.before then protoCoef (fun k => s.fr.protoOld.get? k) x.src.proto else protoOf s x.src.proto
  let fir := dsum (((List.range h.length).zip h).map (fun e =>
    dmul (drat e.2 4194304) (cosAt f (((2 * e.1 : Nat) - (h.length - 1 : Nat)) * x.src.d) (2 * x.fIn))))
  let proto := ddiv (dsum ((List.range 8192).map (fun m =>
    dmul (drat (g m) 4194304) (cosAt f (((m : Int) - 4096) * x.src.d) (256 * x.fIn))))) (dint 256)
  fabs (dmul (dmul (dpow cic x.src.n) fir) proto)

/-- |H_win(δ)| of a window of n samples with the sample spacing T_c / P (R255). -/
def winResponse (c : ChanCfg) (p tlen : Nat) (δ : F) : F :=
  let n := winLen c p
  let w := (List.range n).map (winWeight c.win n)
  let terms := ((List.range n).zip w).map (fun e => dmul e.2 (cosAt δ (((2 * e.1 : Nat) - (n - 1 : Nat)) * tlen) (2 * p * oneSec * 4294967296)))
  fabs (ddiv (dsum terms) (dsum w))

/-- f_trk of a grid cycle, in Hz (R235). -/
def trkHz (tlen : Nat) : F := drat (oneSec * 4294967296 : Nat) tlen

/-- |a + jb|. -/
def dmag (a b : F) : F := dsqrt (dadd (dmul a a) (dmul b b))

/-- The final phasor (R255). -/
def finalPhasor (s : State) (x : PeChan) (m : GroupVal) (f : F) (tr : LT) (tlen : Nat) : F × F :=
  let φ := estAngle s (f0Hz x.sixty) m f tr
  let β := drat x.cfg.beta.toInt 1000000
  let a := ddiv (dmul (dsingle x.cfg.k) (dmag m.re m.im))
    (dmul (laneResponse s x f) (winResponse x.cfg x.src.p tlen (dsub f (trkHz tlen))))
  (dmul a (dcos (dadd β φ)), dmul a (dsin (dadd β φ)))

/-- a × (re, im) with a = e^(jα). -/
def rotate (α re im : F) : F × F :=
  (dsub (dmul re (dcos α)) (dmul im (dsin α)), dadd (dmul re (dsin α)) (dmul im (dcos α)))

/-- 2π/3. -/
def third : F := ddiv twoPi (dint 3)

/-- Sequence k (1, 2 or 0) of three phasors (R249). -/
def sequence (k : Nat) (a b c : F × F) : F × F :=
  let rb := rotate (if k = 1 then third else if k = 2 then fneg third else 0) b.1 b.2
  let rc := rotate (if k = 1 then fneg third else if k = 2 then third else 0) c.1 c.2
  (ddiv (dadd (dadd a.1 rb.1) rc.1) (dint 3), ddiv (dadd (dadd a.2 rb.2) rc.2) (dint 3))

/-- The positive-sequence group of three channels' groups; its windows' arguments become that of the mean phasor (R256). -/
def seqGroup (a b c : GroupVal) : GroupVal :=
  let x := sequence 1 (a.re, a.im) (b.re, b.im) (c.re, c.im)
  { a with re := x.1, im := x.2, args := [datan2 x.2 x.1] }

/-! ## Sets and quality (R249, R257) -/

/-- The set a channel belongs to at a reporting instant (R249). -/
def setOf (s : State) (c : Nat) (tr : LT) : Option (Nat × SetCfg) :=
  ((setsFor s tr).find? (fun e => e.2.cfg.a == c || e.2.cfg.b == c || e.2.cfg.c == c)).map (fun e => (e.1, e.2.cfg))

/-- An estimate whose values are open: its span is not whole (R257; log 39). -/
def openEst (x : PeChan) (tr : LT) (late : Bool) (s : State) : PeEst × State :=
  let (n, s) := draw s
  let q : Quality := if late then qInvalid ||| qOldData else 0x201
  ({ tr := tr, re := BitVec.ofNat 64 n, im := BitVec.ofNat 64 (n / 2 ^ 64), freq := BitVec.ofNat 64 (n / 2 ^ 128),
     rocof := BitVec.ofNat 64 (n / 2 ^ 192), q := q, fq := q, settling := !late, late := late,
     sixty := x.sixty }, s)

/-- A channel as it estimates t_r: as it was before the commit that changed it, where t_r lies before that (R88). -/
def memberAt (s : State) (c : Nat) (tr : LT) : PeChan :=
  match s.pe.drain.find? (fun e => e.1 == c) with
  | some (_, t, x) => if ltDiff tr t < 0 then x else getChan s c
  | none => getChan s c

/-- The frequency source of a channel at t_r: f̂ and R̂, or none where the span of the set is cut short (R256). -/
def sourceFreq (s : State) (c : Nat) (x : PeChan) (a m b : GroupVal) (tr : LT) : Option (F × F) :=
  match x.cfg.set_, setOf s c tr with
  | true, some (_, k) =>
    match chanSpan (memberAt s k.a tr) tr, chanSpan (memberAt s k.b tr) tr, chanSpan (memberAt s k.c tr) tr with
    | .full a1 m1 b1 _ _, .full a2 m2 b2 _ _, .full a3 m3 b3 _ _ =>
      let ga := seqGroup a1 a2 a3
      let gm := seqGroup m1 m2 m3
      let gb := seqGroup b1 b2 b3
      some (estFreq ga gm gb, estRocof ga gm gb)
    | _, _, _ => none
  | _, _ => some (estFreq a m b, estRocof a m b)

/-- The minimum magnitude of a channel (R257; log 34). -/
def minMag (c : Nat) (x : PeChan) : F :=
  match x.cfg.minMag with
  | some v => dsingle v
  | none => Config.peMinMag c

/-- The estimate of a whole span (R254–R257); whether f̂ lay outside the clamp range. -/
def wholeEst (s : State) (c : Nat) (x : PeChan) (tr : LT) (a m b : GroupVal) (l : List LaneSample) (tlen : Nat) : PeEst × Bool :=
  let f := estFreq a m b
  let src := sourceFreq s c x a m b tr
  let xy := finalPhasor s x m f tr tlen
  let f0 := f0Hz x.sixty
  let q := l.foldl (fun q i => mergeQ q i.q) 0
  let settling := l.any (·.settling)
  let degraded := l.any (·.degraded)
  let q := if settling then mergeQ q qInaccurate else q
  let far := dlt (dint 1) (fabs (dsub f (trkHz tlen)))
  let q := if degraded && far then mergeQ q qInaccurate else q
  let out := dlt f (drat (4 * f0 : Nat) 5) || dlt (drat (6 * f0 : Nat) 5) f
  let q := if out then mergeQ q 0x009 else q
  let small := dlt (dmag m.re m.im) (minMag c x)
  let fq := if small || src.isNone then mergeQ q 0x201 else q
  let fr := src.getD (f, estRocof a m b)
  ({ tr := tr, re := xy.1, im := xy.2, freq := fr.1, rocof := fr.2, q := q, fq := fq, degraded := degraded, settling := settling,
     substituted := l.any (·.substituted), sixty := x.sixty }, out)

end Sys2Proof.Machine
end

