-- ==== Sys2Proof/Machine/RecorderOps.lean ====
section
/-! DEFINITION. Shared operations of the Acquisition & Recorder (chapter 10): convert edges and links, the TDC, comparators, the pattern
trigger, rows and records. -/

namespace Sys2Proof.Machine

/-! ## Wideband links (R273–R278) -/

/-- Link k. -/
def getWsl (s : State) (k : Nat) : WslLink := vget s.ar.wsl k {}

/-- Link k changed. -/
def modWsl (k : Nat) (f : WslLink → WslLink) (s : State) : State := onAr (fun a => { a with wsl := vmod a.wsl k f }) s

/-- T_cnv of a link in tu: 50 ns × K (R274). -/
def cnvPeriod (c : WslCfg) : Nat := nsTu 50 * max c.k 1

/-- The LT of convert edge e of a link (R276). -/
def edgeLt (x : WslLink) (e : Nat) : LT :=
  match x.bases.find? (fun b => decide (b.1 ≤ e)) with
  | some b => ltAdd b.2 ((e - b.1) * cnvPeriod x.cfg)
  | none => 0

/-- The newest convert edge at or before now (R276). -/
def newestEdge (s : State) (x : WslLink) : Option Nat :=
  match x.bases.find? (fun b => ltReached s.now b.2) with
  | some b => some (b.1 + (ltDiff s.now b.2).toNat / cnvPeriod x.cfg)
  | none => none

/-- The most recent edge a SEQ can stand for, no more than LAT_MAX periods before its arrival (R276). -/
def matchSeq (s : State) (x : WslLink) (seq : BitVec 8) : Option Nat :=
  match newestEdge s x with
  | none => none
  | some n =>
    let back := (n + 256 - seq.toNat) % 256
    if n < back then none
    else if ltDiff s.now (edgeLt x (n - back)) ≤ (x.cfg.latMax * cnvPeriod x.cfg : Nat) then some (n - back) else none

/-- CRC-8 over characters 1–7 of a frame (R275). -/
def crc8 (l : List Byte) : Byte :=
  l.foldl (fun c b => (List.range 8).foldl (fun (c : Byte) _ => if c.getLsbD 7 then (c <<< 1) ^^^ 0x07 else c <<< 1) (c ^^^ b)) 0

/-- SEQ of a frame (R275). -/
def wslSeq (f : WslFrame) : Byte := vget f.chars 0 0

/-- The three channels of a frame, in network order (R275). -/
def wslChans (f : WslFrame) : List (BitVec 16) := (List.range 3).map (fun j => vget f.chars (1 + 2 * j) 0 ++ vget f.chars (2 + 2 * j) 0)

/-- Whether a frame's CRC is right: character 8 over characters 1–7 (R275). -/
def wslCrcOk (f : WslFrame) : Bool := crc8 (f.chars.toList.take 7) == vget f.chars 7 0

/-- A link in a new state, with its flags and event (R277). -/
def setWsl (k : Nat) (st' : WslState) (s : State) : State :=
  let x := getWsl s k
  if x.state = st' then s else
  let left := x.state = .locked
  let s := modWsl k (fun x => { x with state := st', lockLost := x.lockLost || left, goodRun := 0, window := [] }) s
  raiseArg 0x40 0 (BitVec.ofNat 32 k) (onAr (fun a => { a with wslErr := a.wslErr || left }) s)

/-- CRC-CCITT of R265: polynomial 0x1021, initial value 0xFFFF, no reflection, no final XOR. -/
def crcCcitt (l : List Byte) : BitVec 16 :=
  l.foldl (fun c b => (List.range 8).foldl (fun (c : BitVec 16) _ => if c.getLsbD 15 then (c <<< 1) ^^^ 0x1021 else c <<< 1)
    (c ^^^ ((b.zeroExtend 16 : BitVec 16) <<< (8 : Nat)))) 0xFFFF

/-! ## Recorders: access and grids (R285–R287) -/

/-- Recorder r. -/
def getRec (s : State) (r : Nat) : Recorder := vget s.ar.recorder r {}

/-- Recorder r changed. -/
def modRec (r : Nat) (f : Recorder → Recorder) (s : State) : State := onAr (fun a => { a with recorder := vmod a.recorder r f }) s

/-- T_base of settings, as a fraction of tu (R286). -/
def baseOf (s : State) (c : RecCfg) : Nat × Nat :=
  match c.analog with
  | [] => (usTu 10, 1)
  | .wsl ch :: _ => (cnvPeriod (getWsl s (ch.val / 3)).cfg, 1)
  | .lane l :: _ =>
    let x := getLane s l
    match x.cfg.mode with
    | .fixed => (oneSec, max x.cfg.fOut 1)
    | _ => (oneSec * x.cfg.d, max x.fIn 1)

/-- The bytes of one row (R293). -/
def rowBytes (a b : Nat) : Nat := ceilDiv (16 + 4 * a + 4 * ceilDiv b 32) 32 * 32

/-- Row bytes of settings. -/
def rowSize (c : RecCfg) : Nat := rowBytes c.analog.length c.bins.length

/-- The present level of a binary source (R287). -/
def sourceLevel (s : State) (src : BitVec 32) : Bool :=
  let n := (src.extractLsb' 0 24).toNat
  match (src.extractLsb' 24 8).toNat with
  | 1 => (vget s.ar.edge n {}).level
  | 2 => (s.ar.comp.getD n {}).level
  | 3 => pointLevel s n
  | _ => false

/-- The first LT at or after an instant that is a multiple of a number of tu, LT being a number from 0 to 2^64 − 1. -/
def multipleAfter (t : LT) (n : Nat) : LT := BitVec.ofNat 64 (if 2 ^ 64 ≤ ceilDiv t.toNat n * n then 0 else ceilDiv t.toNat n * n)

/-- 10 ns (R288). -/
def pulseTu : Nat := nsTu 10

/-- The end of the pattern tick that starts at an instant (R288). -/
def tickEnd (t : LT) : LT := BitVec.ofNat 64 (if 2 ^ 64 ≤ t.toNat + pulseTu then 0 else t.toNat + pulseTu)

/-- A recorder's work from an instant on (R294): nothing written, levels as the sources stand, evaluation from the next tick. -/
def freshRun (s : State) (c : RecCfg) : RecRun :=
  let lv := c.bins.map (fun b => sourceLevel s b.src)
  { cfg := c, levels := lv, rowLevels := lv, nextTick := multipleAfter s.now pulseTu, nextRow := multipleAfter s.now (usTu 10) }

/-- A sample goes to the running recorders that have its source as an analogue channel (R286). -/
def recordSample (src : AnSrc) (on : Nat → Bool) (tag : LT) (v : BitVec 32) (good : Bool) (s : State) : State :=
  let add (x : RecRun) : RecRun :=
    { x with samples := x.samples ++ ((List.range x.cfg.analog.length).filter (fun i => x.cfg.analog[i]? == some src)).map (fun i => (i, tag, v, good)) }
  onAr (fun a => { a with recorder := .ofFn (fun (i : Fin 8) =>
    let r := vget a.recorder i.val {}
    if on i.val ∧ (r.state = .armed ∨ r.state = .recording ∨ r.state = .full) then
      { r with run := r.run.map add, old := r.old.map (fun e => (e.1, add e.2)) } else r) }) s

/-! ## Comparators (R283, R284) -/

/-- A binary32 number times 2^149, exactly; an infinity lies beyond every finite number. -/
def exact32 (x : BitVec 32) : Option Int :=
  let big : Int := 2 ^ 400
  match f32 x with
  | .fin n m e => let v : Int := m * 2 ^ (e + 149).toNat; some (if n then -v else v)
  | .inf n => some (if n then -big else big)
  | .nan _ => none

/-- The interpolated instant of a change to 1, on a grid of 1,024 tu (R284); where the two samples do not enclose the threshold, the
instant of the newer one (log 45). -/
def crossInstant (h x0 x1 : Int) (t0 t1 : LT) : LT :=
  let num := (h - x0) * ltDiff t1 t0
  let den := x1 - x0
  let sgn : Int := if den < 0 then -1 else 1
  if den = 0 ∨ (h - x0) * sgn < 0 ∨ (x1 - h) * sgn < 0 then t1
  else BitVec.ofInt 64 (roundDiv ((t0.toNat : Int) * (den * sgn) + num * sgn) (1024 * den.natAbs) * 1024)

/-- What a sample does to a comparator (R283, R284): its level, and the instant of a change. -/
def compStep (c : CompCfg) (x : Comp) (v : Int) (tag : LT) : Bool × Option LT :=
  match exact32 c.hOn, exact32 c.hOff with
  | some on, some off =>
    let prev := x.hist.head?
    let pv := (prev.bind (fun p => exact32 p.1)).getD v
    let pt := (prev.map (·.2)).getD tag
    let cross (a b : Int) : LT := crossInstant on a b pt tag
    let r : Bool × LT := match c.mode with
      | .levelHi => (if x.level then !decide (v < off) else decide (on ≤ v), cross pv v)
      | .levelLo => (if x.level then !decide (off < v) else decide (v ≤ on), cross pv v)
      | .abs => (if x.level then !decide ((v.natAbs : Int) < off) else decide (on ≤ v.natAbs), cross pv.natAbs v.natAbs)
      | .delta =>
        match (x.hist[c.lag - 1]?).bind (fun p => exact32 p.1) with
        | some o => let d : Int := (v - o).natAbs; (if x.level then !decide (d < off) else decide (on ≤ d), tag)
        | none => (x.level, tag)
    if r.1 = x.level then (x.level, none) else (r.1, some (if r.1 then r.2 else tag))
  | _, _ => (x.level, none)

/-- One sample enters a comparator; a sample whose validity is not good leaves the level (R283). -/
def feedComp (n : Nat) (v : BitVec 32) (tag : LT) (good : Bool) (s : State) : State :=
  match s.ar.comp.get? n with
  | none => s
  | some x =>
    match x.cfg, exact32 v with
    | some c, some i =>
      let r := if good then compStep c x i tag else (x.level, none)
      let s := onAr (fun a => { a with comp := a.comp.put n { x with level := r.1, hist := ((v, tag) :: x.hist).take 16 } }) s
      match r.2 with
      | some t => noteBinary (BitVec.ofNat 32 (0x02000000 + n)) t r.1 false s
      | none => s
    | _, _ => s

/-- A sample goes to the comparators that watch its source (R283). -/
def feedComps (src : AnSrc) (v : BitVec 32) (tag : LT) (good : Bool) (s : State) : State :=
  (s.ar.comp.filter (fun e => (e.2.cfg.map (·.src)) == some src)).foldl (fun s e => feedComp e.1 v tag good s) s

/-- A lane's output sample for comparators and recorders (R242, R283, R286). -/
def acquireLane (l : Nat) (x : LaneSample) (s : State) : State :=
  if !s.ar.ready then s else
  let good := x.q &&& 3 == 0
  let feeds (r : Nat) : Bool := ((getLane s l).cfg.recorder.map (·.val)) == some r
  feedComps (.lane l) x.value x.tag good (recordSample (.lane l) feeds x.tag x.value good s)

/-! ## Delivering link samples (R276, R277) -/

/-- An integer as binary32. -/
def intToSingle (v : Int) : BitVec 32 := tosingle (dint v)

/-- The three samples of a convert edge delivered to lanes, comparators and recorders (R276, R277). -/
def deliverWsl (k e : Nat) (vals : List (BitVec 16)) (q : Quality) (s : State) : State :=
  let x := getWsl s k
  let tag := edgeLt x e + BitVec.ofInt 64 x.cfg.delay
  let s := modWsl k (fun x => { x with nextEdge := e + 1 }) s
  ([0, 1, 2] : List (Fin 3)).foldl (fun s j =>
    let v := (vals.getD j.val 0).toInt
    let s := feedLanes (.wsl (Fin.ofNat 8 k) j) { x := v, tag := tag, q := q } s
    let src : AnSrc := .wsl (Fin.ofNat 24 (3 * k + j.val))
    let good := q &&& 3 == 0
    feedComps src (intToSingle v) tag good (recordSample src (fun _ => true) tag (intToSingle v) good s)) s

/-- The last good values of a link; before the first good frame the spec gives none (log 43). -/
def lastGoodOf (k : Nat) (s : State) : List (BitVec 16) × State :=
  match (getWsl s k).lastGood with
  | some l => (l, s)
  | none => let (n, s) := draw s; ([BitVec.ofNat 16 n, BitVec.ofNat 16 (n / 65536), BitVec.ofNat 16 (n / 4294967296)], s)

/-- A convert edge that has no good frame: the last good values under a quality (R277). -/
def deliverBad (k e : Nat) (q : Quality) (s : State) : State :=
  let r := lastGoodOf k s
  deliverWsl k e r.1 q r.2

/-- A convert edge's good frame delivered: under LOCKED its values, otherwise the last good values as failed (R277). -/
def deliverGood (k e : Nat) (vals : List (BitVec 16)) (s : State) : State :=
  if (getWsl s k).state = .locked then
    deliverWsl k e vals 0 (modWsl k (fun x => { x with frames := x.frames + 1, lastGood := some vals }) s)
  else deliverBad k e (qInvalid ||| qFailure) (modWsl k (fun x => { x with lastGood := some vals }) s)

/-- Frames, with none for one whose CRC was wrong, that waited behind an edge without a frame are delivered as their turn comes (log 43). -/
def flushWsl (k : Nat) : Nat → State → State
  | 0, s => s
  | n + 1, s =>
    let x := getWsl s k
    match x.got.find? (fun g => decide (g.1 = x.nextEdge)) with
    | some g =>
      let s := modWsl k (fun x => { x with got := x.got.filter (fun h => decide (x.nextEdge < h.1)) }) s
      flushWsl k n (match g.2 with
        | some vals => deliverGood k g.1 vals s
        | none => deliverBad k g.1 (qInvalid ||| qFailure) s)
    | none => s

/-- The outcome of a frame joins the run and the window of 64 (R277). -/
def noteFrame (k : Nat) (failed consecutive : Bool) (s : State) : State :=
  let s := modWsl k (fun x => { x with
    goodRun := if failed then 0 else if consecutive then x.goodRun + 1 else 1, window := (failed :: x.window).take 64 }) s
  let x := getWsl s k
  if x.state = .locked then (if 4 ≤ (x.window.filter id).length then setWsl k .aligning s else s)
  else if x.state = .aligning ∧ 64 ≤ x.goodRun then setWsl k .locked s
  else s

/-! ## The TDC (R280) -/

/-- The width of a bin of an input in 2^−6 tu. -/
def binWidth (s : State) (e k : Nat) : Nat :=
  let u := vget s.ar.edge e {}
  if u.uncal then Config.tdcNominal e k else u.bins.getD k 0

/-- t_edge for an edge whose bin is F, at the tick that is now (R280). -/
def tdcInstant (s : State) (e F : Nat) : LT :=
  let c2 : Nat := 2 * ((List.range F).map (binWidth s e)).sum + binWidth s e F
  let t : Int := (s.now.toNat : Int) - Config.tdcLatency e - (vget s.ar.edge e {}).cfg.board
  BitVec.ofInt 64 (roundDiv (t * 128 - c2) 131072 * 1024)

/-! ## The pattern (R288–R290) -/

/-- The changes of a tick applied in order of their instants: levels, and the real changes (R288, R290). -/
def applyChanges (c : RecCfg) (due : List BinChange) (levels : List Bool) : List Bool × List (LT × Nat × Bool) :=
  due.foldl (fun (a : List Bool × List (LT × Nat × Bool)) x =>
    ((List.range c.bins.length).zip c.bins).foldl (fun a e =>
      if e.2.src = x.src ∧ a.1.getD e.1 false ≠ x.level then (a.1.set e.1 x.level, a.2 ++ [(x.at_, e.1, x.level)]) else a) a)
    (levels, [])

/-- Whether a change has the direction an edge term asks for (R288). -/
def edgeMatches (t : EdgeTerm) (level : Bool) : Bool :=
  match t with
  | .rising => level
  | .falling => !level
  | .either => true
  | .level => false

/-- Whether the masked term of channel i is true (R288). -/
def termTrue (b : BinCh) (i : Nat) (levels : List Bool) (ch : List (LT × Nat × Bool)) : Bool :=
  match b.edge with
  | .level => levels.getD i false == b.value
  | t => ch.any (fun x => x.2.1 == i && edgeMatches t x.2.2)

/-- The pattern condition (R288). -/
def patternCond (c : RecCfg) (levels : List Bool) (ch : List (LT × Nat × Bool)) : Bool :=
  let terms := ((List.range c.bins.length).zip c.bins).filter (·.2.mask)
  let on (e : Nat × BinCh) : Bool := termTrue e.2 e.1 levels ch
  let edges := terms.filter (fun e => e.2.edge != .level)
  if terms.isEmpty then false
  else if c.all then (terms.filter (fun e => e.2.edge == .level)).all on && (edges.isEmpty || edges.any on)
  else terms.any on

/-- The instants at which the terms became true in the triggering tick, with their channels (R289; log 46). -/
def becameTrue (c : RecCfg) (before levels : List Bool) (ch : List (LT × Nat × Bool)) : List (LT × Nat) :=
  (((List.range c.bins.length).zip c.bins).filter (fun e => e.2.mask && termTrue e.2 e.1 levels ch)).filterMap (fun e =>
    let own := ch.filter (fun x => x.2.1 == e.1)
    match e.2.edge with
    | .level => if before.getD e.1 false = e.2.value then none else (own.getLast?).map (fun x => (x.1, e.1))
    | t => ((own.filter (fun x => edgeMatches t x.2.2)).head?).map (fun x => (x.1, e.1)))

/-- The earliest instant; the lower channel decides between equal ones (R289). -/
def earliest : List (LT × Nat) → Option (LT × Nat)
  | [] => none
  | x :: l => match earliest l with
    | none => some x
    | some y => if ltDiff y.1 x.1 < 0 then some y else some x

/-! ## Rows and records (R293–R298) -/

/-- z(n) (R296). -/
def rateFactor (c : RecCfg) (n : Nat) : Nat :=
  if n ≤ c.fullRows then 1 else min c.zMax (2 ^ (1 + (n - c.fullRows - 1) / max c.stepRows 1))

/-- The mean of binary32 values (R296; log 44). -/
def meanSingle (l : List (BitVec 32)) : BitVec 32 := tosingle (dmean (l.map dsingle))

/-- A reduced span as one row (R296). -/
def spanRow (x : Record) (l : List RecRow) : RecRow :=
  let first := l.headD {}
  let last := (l.getLast?).getD {}
  { tag := ltAdd first.tag (roundDiv ((l.length - 1) * x.baseNum : Nat) (2 * x.baseDen)).toNat
    qbad := l.foldl (fun a r => a ||| r.qbad) 0
    analog := (List.range first.analog.length).map (fun i => meanSingle (l.map (fun r => r.analog.getD i 0)))
    binary := last.binary, evs := l.flatMap (·.evs) }

/-- The factor of the next stored row, entered in the rate table where it changes (R296, R297). -/
def nextFactor (x : Record) : Record :=
  let z := if x.waiting.isEmpty ∧ x.seen then rateFactor x.cfg (x.sinceTrig + 1) else 1
  if z = x.factor then x
  else if 64 ≤ x.rates.length then { x with rateFrozen := true }
  else { x with factor := z, rates := x.rates ++ [(x.rows.length, z)] }

/-- A stored row joins a record (R292, R294–R296). -/
def storeRow (x : Record) (row : RecRow) : Record :=
  let n := x.rows.length
  let hit := if x.factor = 1 ∨ x.rateFrozen then x.waiting.filter (fun w => ltReached row.tag w.1) else []
  let x := { x with rows := row :: x.rows }
  let x := if hit.isEmpty then
      { x with sinceTrig := x.sinceTrig + bitN x.seen, postLeft := x.postLeft - bitN x.seen }
    else { x with
      waiting := x.waiting.filter (fun w => !ltReached row.tag w.1), trigRow := if x.seen then x.trigRow else n, seen := true,
      trigs := x.trigs ++ (hit.map (fun w => (w.1, n, w.2))).take (32 - x.trigs.length), sinceTrig := 0, postLeft := x.cfg.post }
  nextFactor x

/-- A base row joins a record: stored at factor 1, gathered otherwise (R296). -/
def addRow (x : Record) (row : RecRow) : Record :=
  if x.span.isEmpty ∧ x.factor = 1 then storeRow x row
  else if x.span.length + 1 < x.factor then { x with span := row :: x.span }
  else storeRow { x with span := [] } (spanRow x (row :: x.span).reverse)

/-- Whether a record is to close (R295). -/
def recordDone (x : Record) : Bool := decide (x.cfg.maxRows ≤ x.rows.length) || (x.seen && x.waiting.isEmpty && x.postLeft == 0)

/-- The event list of a record: the changes within its span, 4,096 at most (R297). -/
def recordEvents (x : Record) : List (LT × Nat × Bool) :=
  let first := ((x.rows.getLast?).map (·.tag)).getD 0
  (x.rows.reverse.flatMap (fun w => w.evs)).filter (fun e => ltLe first e.1)

/-- A number rounded up to 32 bytes. -/
def pad32 (n : Nat) : Nat := ceilDiv n 32 * 32

/-- Bytes of a record before its rows (R298). -/
def recordHead (x : Record) : Nat :=
  256 + 32 * x.cfg.analog.length + pad32 (16 * x.trigs.length) + pad32 (8 * x.rates.length) + pad32 (16 * min 4096 (recordEvents x).length)

/-- The bytes of a record (R298). -/
def recordLen (x : Record) : Nat := recordHead x + x.rows.length * rowSize x.cfg

/-- The analogue channel table (R299). -/
def channelTable (s : State) (c : RecCfg) : List Byte :=
  c.analog.flatMap (fun a =>
    let e := match a with
      | .wsl ch => bytesLE 4 (0x10000000 + ch.val) ++ bytesLE 4 0x3F800000 ++ bytesLE 8 0 ++
          bytesLE 8 (BitVec.ofInt 64 (getWsl s (ch.val / 3)).cfg.delay).toNat
      | .lane l => bytesLE 4 (0x11000000 + l) ++ bytesLE 4 (getLane s l).cfg.scale.toNat ++ bytesLE 8 (getLane s l).gd.toNat ++ bytesLE 8 0
    e ++ List.replicate 8 0)

/-- The partition of a recorder in bytes. -/
def partitionSize (c : RecCfg) : Nat := max c.mib 1 * 1048576

/-- Whether the row about to be written at the write position reaches a held record (R297; log 41). -/
def ringHit (x : Recorder) (c : RecCfg) : Bool :=
  let size := partitionSize c
  x.held.any (fun h => decide ((h.offset % size + size - x.writePos % size) % size < rowSize c))

/-- The write position moved. -/
def moveWrite (r n size : Nat) (s : State) : State := modRec r (fun x => { x with writePos := (x.writePos + n) % size }) s

/-- The record number after n, skipping 0 (R298). -/
def nextRecNo (n : BitVec 32) : BitVec 32 := if n + 1 = 0 then 1 else n + 1

/-- Some FAST_EDGE channel of settings uses the nominal table (R298). -/
def usesUncal (s : State) (c : RecCfg) : Bool :=
  c.bins.any (fun b => b.src.extractLsb' 24 8 == 1 && (vget s.ar.edge (b.src.extractLsb' 0 24).toNat {}).uncal)

/-- Whether a TIME_STEP lies within the span of a record (R298; log 138). -/
def stepWithin (s : State) (x : Record) : Bool :=
  match s.tb.lastStep, x.rows.getLast? with
  | some t, some w => decide (s.absOf w.tag ≤ t)
  | _, _ => false

/-- A record closed: it is held, its header still to be written (R295). -/
def closeRecord (r : Nat) (trunc : Bool) (x : Record) (s : State) : State :=
  let x := { x with
    closed := true, span := [], trunc := trunc, uncertain := x.uncertain || s.tb.ltUncertain, uncal := x.uncal || usesUncal s x.cfg,
    step := stepWithin s x }
  moveWrite r (recordHead x) (partitionSize x.cfg) (modRec r (fun y => { y with
    held := y.held ++ [x], last := x.no, trunc := y.trunc || trunc, ctr := vadd y.ctr 3 1, state := if y.state = .recording then .armed else y.state }) s)

/-- A run with its record taken out of progress: pre-trigger rows come from the rows after it (R294, R295). -/
def runClosed (x : RecRun) : RecRun := { x with open_ := none, pre := [] }

/-- A base row goes to the record in progress, which may close, or to the pre-trigger area. -/
def placeRow (r : Nat) (x : RecRun) (row : RecRow) (s : State) : RecRun × State :=
  match x.open_ with
  | none =>
    ({ x with pre := (row :: x.pre).take (min x.cfg.pre (partitionSize x.cfg / rowSize x.cfg)) }, moveWrite r (rowSize x.cfg) (partitionSize x.cfg) s)
  | some k =>
    let k' := addRow k row
    let s := moveWrite r ((k'.rows.length - k.rows.length) * rowSize x.cfg) (partitionSize x.cfg) s
    if recordDone k' then (runClosed x, closeRecord r (decide (k'.cfg.maxRows ≤ k'.rows.length)) k' s)
    else ({ x with open_ := some k' }, s)

/-- Rows placed one after another. -/
def placeRows (r : Nat) (x : RecRun) (l : List RecRow) (s : State) : RecRun × State :=
  l.foldl (fun a row => placeRow r a.1 row a.2) (x, s)

/-- Leap flags of TQ (R298). -/
def leapBits (s : State) : Nat := if s.tb.leap61 then 1 else if s.tb.leap59 then 2 else 0

/-- An accepted trigger starts a record (R292, R294): its pre-trigger rows are those before the instant; rows already written after it
follow. -/
def startRecord (r : Nat) (x : RecRun) (t : LT) (ch : Nat) (late : Bool) (s : State) : RecRun × State :=
  let y := getRec s r
  let b := baseOf s x.cfg
  let before := x.pre.filter (fun w => !ltReached w.tag t)
  let after := (x.pre.filter (fun w => ltReached w.tag t)).reverse
  let size := partitionSize x.cfg
  let k : Record := {
    no := y.nextNo, cfg := x.cfg, baseNum := b.1, baseDen := b.2, chans := channelTable s x.cfg, preShort := decide (before.length < x.cfg.pre)
    late := late, uncertain := s.tb.ltUncertain, uncal := usesUncal s x.cfg, rows := before, waiting := [(t, ch)]
    trigLt := t, trigTai := taiOf s.tb t, trigCh := ch, utcOffset := s.tb.utcOffset
    timeBound := BitVec.ofNat 32 (max (timeErrBound s).toNat (if s.tb.ltUncertain then s.tb.ltUncert.toNat else 0))
    tq := BitVec.ofNat 8 (timeQuality s + 16 * leapBits s)
    offset := (y.writePos + size * (1 + x.pre.length * rowSize x.cfg / size) - x.pre.length * rowSize x.cfg) % size }
  let s := modRec r (fun y => { y with
    nextNo := nextRecNo y.nextNo, state := .recording
    writePos := (y.writePos + size * (1 + after.length * rowSize x.cfg / size) - after.length * rowSize x.cfg) % size }) s
  placeRows r { x with pre := [], open_ := some k } after s

/-- An accepted trigger in the post-trigger part of a record extends it (R292). -/
def extendRecord (x : RecRun) (k : Record) (t : LT) (ch : Nat) (late : Bool) : RecRun :=
  { x with open_ := some { k with waiting := k.waiting ++ [(t, ch)], late := k.late || late } }

/-- Whether hold-off suppresses a trigger (R291). -/
def heldOff (y : Recorder) (c : RecCfg) (t : LT) : Bool :=
  match c.holdOff, y.lastAccept with
  | .none, _ => false
  | .time h, some a => decide (ltDiff t a < usTu h)
  | .time _, none => false
  | .count _, _ => decide (0 < y.suppressLeft)

/-- HOLDOFF of AR_RECr_STATUS (R291, R304). -/
def holdOffOn (s : State) (y : Recorder) : Bool :=
  match y.run with
  | some x => heldOff y x.cfg s.now
  | none => false

/-- A trigger (R291, R292): suppressed, lost in FULL, or accepted. -/
def takeTrigger (r : Nat) (x : RecRun) (t : LT) (ch : Nat) (late : Bool) (s : State) : RecRun × State :=
  let y := getRec s r
  if heldOff y x.cfg t then
    (x, modRec r (fun y => { y with ctr := vadd y.ctr 1 1, suppressLeft := y.suppressLeft - 1 }) s)
  else
    let s := modRec r (fun y => { y with ctr := vadd y.ctr 0 1, lastAccept := some t, suppressLeft := match x.cfg.holdOff with
      | .count n => n
      | _ => 0 }) s
    let src := BitVec.ofNat 32 (0x05000000 + r)
    let s := noteBinary src t true true (raiseArg 0x42 y.owner (BitVec.ofNat 32 r) s)
    let x := runNote src t true true x
    if y.state = .full then (x, modRec r (fun y => { y with lost := true, ctr := vadd y.ctr 4 1 }) s)
    else
      match x.open_ with
      | some k => (extendRecord x k t ch late, modRec r (fun y => { y with ctr := vadd y.ctr 2 1 }) s)
      | none => startRecord r x t ch late s

/-- A run with its levels and changes after a tick. -/
def afterTick (x : RecRun) (due later : List BinChange) (a : List Bool × List (LT × Nat × Bool)) (cond : Bool) : RecRun :=
  let t1 := tickEnd x.nextTick
  let back := (due.filter (fun b => b.pulse && b.level)).map (fun b => { b with at_ := t1, level := false })
  { x with levels := a.1, applied := x.applied ++ a.2, condBefore := cond, changes := back ++ later, nextTick := t1 }

/-- One pattern tick evaluated (R288–R292); without `live` the run ends an old recording, and no trigger is taken (R88). -/
def evalTick (r : Nat) (live : Bool) (x : RecRun) (s : State) : RecRun × State :=
  let t0 := x.nextTick
  let t1 := tickEnd t0
  let due := sortBy (fun (b : BinChange) => (ltDiff b.at_ t0 + 2 ^ 63).toNat) (x.changes.filter (fun b => decide (ltDiff b.at_ t1 < 0)))
  let a := applyChanges x.cfg due x.levels
  let late := (a.2.filter (fun e => decide (ltDiff e.1 t0 < 0))).length
  let cond := patternCond x.cfg a.1 a.2
  let x' := afterTick x due (x.changes.filter (fun b => !decide (ltDiff b.at_ t1 < 0))) a cond
  let lateSat (n : BitVec 32) : BitVec 32 := if 2 ^ 32 ≤ n.toNat + late then BitVec.allOnes 32 else n + BitVec.ofNat 32 late
  let s := if late = 0 then s else modRec r (fun y => { y with lateInput := true, lateInputs := lateSat y.lateInputs }) s
  let x' := if late = 0 then x' else { x' with open_ := x'.open_.map (fun k => { k with late := true }) }
  let s := modRec r (fun y => { y with lastAccept := match y.lastAccept with
    | some l => if ltDiff t0 l < secTu 7200 then some l else none
    | none => none }) s
  if live && cond && !x.condBefore then
    match earliest (becameTrue x.cfg x.levels a.1 a.2) with
    | some (t, ch) => takeTrigger r x' t ch (decide (0 < late)) s
    | none => let (n, s) := draw s; takeTrigger r x' t0 (n % 65536) false s
  else (x', s)

/-! ## Writing a row (R293, R294) -/

/-- Whether the sample of a channel at an instant, and of what value: within half a base period of it, missing, or still to come. -/
def sampleAt (x : RecRun) (b : Nat × Nat) (i : Nat) (t : LT) : Option (Option (BitVec 32 × Bool)) :=
  let own := x.samples.filter (fun e => e.1 == i)
  match own.find? (fun e => decide ((ltDiff e.2.1 t).natAbs * 2 * b.2 < b.1)) with
  | some e => some (some e.2.2)
  | none => if own.any (fun e => decide (0 < ltDiff e.2.1 t)) then some none else none

/-- The instant of the next row (R286, R294). -/
def nextRowAt (x : RecRun) : Option LT :=
  if x.cfg.analog.isEmpty then some x.nextRow else (x.samples.find? (fun e => e.1 == 0)).map (fun e => e.2.1)

/-- The run after the row of an instant has been taken from it. -/
def rowTaken (x : RecRun) (b : Nat × Nat) (t : LT) : RecRun :=
  { x with
    samples := x.samples.filter (fun e => decide ((b.1 : Int) ≤ ltDiff e.2.1 t * 2 * b.2))
    nextRow := BitVec.ofNat 64 (if 2 ^ 64 ≤ t.toNat + usTu 10 then 0 else t.toNat + usTu 10)
    applied := x.applied.filter (fun e => decide (0 < ltDiff e.1 t))
    rowLevels := (x.applied.filter (fun e => decide (ltDiff e.1 t ≤ 0))).foldl (fun l e => l.set e.2.1 e.2.2) x.rowLevels }

/-- The base row of an instant; a sample that never came has no value in the spec (log 47). -/
def baseRow (x : RecRun) (vals : List (Option (BitVec 32 × Bool))) (t : LT) (s : State) : RecRow × State :=
  let r := vals.foldl (fun (a : List (BitVec 32) × Nat × Nat × State) v =>
    match v with
    | some (v, good) => (a.1 ++ [v], a.2.1 + (if good then 0 else 2 ^ a.2.2.1), a.2.2.1 + 1, a.2.2.2)
    | none => let (n, s) := draw a.2.2.2; (a.1 ++ [BitVec.ofNat 32 n], a.2.1 + 2 ^ a.2.2.1, a.2.2.1 + 1, s)) ([], 0, 0, s)
  let evs := x.applied.filter (fun e => decide (ltDiff e.1 t ≤ 0))
  ({ tag := t, qbad := BitVec.ofNat 64 r.2.1, analog := r.1, binary := evs.foldl (fun l e => l.set e.2.1 e.2.2) x.rowLevels, evs := evs }, r.2.2.2)

/-- The full policy OVERWRITE: oldest held records freed until the row fits (R297). -/
def overwriteHeld (r : Nat) (c : RecCfg) : Nat → State → State
  | 0, s => s
  | n + 1, s =>
    if ringHit (getRec s r) c then
      overwriteHeld r c n (modRec r (fun y => { y with held := y.held.drop 1, ctr := vadd y.ctr 5 1 }) s)
    else s

/-- The write position has reached a held record under STOP (R297): the recorder is FULL, and a record in progress is closed with TRUNC
(log 41). -/
def enterFull (r : Nat) (x : RecRun) (s : State) : RecRun × State :=
  let y := getRec s r
  let s := match x.open_ with
    | some k => closeRecord r true k s
    | none => s
  (runClosed x, raiseArg 0x44 y.owner (BitVec.ofNat 32 r) (onAr (fun a => { a with full := true }) (modRec r (fun y => { y with state := .full }) s)))

/-- One row of a run written, where its instant has come and every channel's sample is there (R293, R294, R297). -/
def writeRow (r : Nat) (x : RecRun) (s : State) : Option (RecRun × State) :=
  match nextRowAt x with
  | none => none
  | some t =>
    let b := baseOf s x.cfg
    let vals := (List.range x.cfg.analog.length).map (fun i => sampleAt x b i t)
    if !ltReached s.now t || !decide (0 < ltDiff x.nextTick t) || vals.any (·.isNone) then none
    else
      let (row, s) := baseRow x (vals.map (fun v => v.getD none)) t s
      let x := rowTaken x b t
      if (getRec s r).state = .full then some (x, s)
      else
        let s := if x.cfg.stop then s else overwriteHeld r x.cfg (getRec s r).held.length s
        if ringHit (getRec s r) x.cfg then some (enterFull r x s) else some (placeRow r x row s)

/-! ## Record bytes (R298, R299) -/

/-- A part of a record, padded to a 32-byte boundary (R298). -/
def padPart (l : List Byte) : List Byte := l ++ List.replicate (pad32 l.length - l.length) 0

/-- FLAGS of a record (R298). -/
def recordFlags (x : Record) : BitVec 32 :=
  pack [(bitN x.preShort, 0), (bitN x.trunc, 1), (bitN x.rateFrozen, 2), (bitN (decide (4096 < (recordEvents x).length)), 3), (bitN x.late, 4),
    (bitN x.uncertain, 5), (bitN x.uncal, 6), (bitN x.step, 7)]

/-- The header of a record (R298). -/
def recordHeader (r : Nat) (owner : Tag) (x : Record) : List Byte :=
  let h := bytesLE 4 0x52454352 ++ bytesLE 2 1 ++ [BitVec.ofNat 8 r, BitVec.ofNat 8 owner] ++ bytesLE 4 x.no.toNat ++
    bytesLE 4 (recordFlags x).toNat ++ bytesLE 2 x.cfg.analog.length ++ bytesLE 2 x.cfg.bins.length ++ bytesLE 2 (rowSize x.cfg) ++
    [BitVec.ofNat 8 x.trigs.length, BitVec.ofNat 8 x.rates.length] ++ bytesLE 4 x.rows.length ++ bytesLE 4 x.trigRow ++
    bytesLE 8 (roundDiv x.baseNum x.baseDen).toNat ++ bytesLE 8 (((x.rows.getLast?).map (fun (w : RecRow) => w.tag)).getD 0).toNat ++ bytesLE 8 x.trigLt.toNat ++
    bytesLE 8 (taiSec x.trigTai).toNat ++ bytesLE 4 (taiNsOf x.trigTai).toNat ++ bytesLE 2 (taiFrOf x.trigTai).toNat ++ bytesLE 2 x.trigCh ++
    bytesLE 2 (min 4096 (recordEvents x).length) ++ bytesLE 2 x.utcOffset.toNat ++ bytesLE 4 x.timeBound.toNat ++ [x.tq]
  h ++ List.replicate (256 - h.length) 0

/-- A list of bits in 32-bit words (R293). -/
def bitWords (l : List Bool) : List Byte :=
  bytesLE (4 * ceilDiv l.length 32) (((List.range l.length).zip l).foldl (fun a e => a + bitN e.2 * 2 ^ e.1) 0)

/-- The bytes of a row (R293); one with an uncorrectable guard error has every QBAD bit set (R303). -/
def rowImage (c : RecCfg) (bad : Bool) (w : RecRow) : List Byte :=
  let q := if bad then BitVec.allOnes 64 else w.qbad
  padPart (bytesLE 8 w.tag.toNat ++ bytesLE 8 (q.toNat % 2 ^ c.analog.length) ++ w.analog.flatMap (fun v => bytesLE 4 v.toNat) ++ bitWords w.binary)

/-- The bytes of a record (R298, R299); `bad` are the rows with an uncorrectable guard error. -/
def recordImage (r : Nat) (owner : Tag) (x : Record) (bad : List Nat) : List Byte :=
  recordHeader r owner x ++ x.chans ++
  padPart (x.trigs.flatMap (fun t => bytesLE 8 t.1.toNat ++ bytesLE 4 t.2.1 ++ bytesLE 2 t.2.2 ++ bytesLE 2 0)) ++
  padPart (x.rates.flatMap (fun t => bytesLE 4 t.1 ++ bytesLE 4 t.2)) ++
  padPart (((recordEvents x).take 4096).flatMap (fun e => bytesLE 8 e.1.toNat ++ bytesLE 2 e.2.1 ++ [BitVec.ofNat 8 (bitN e.2.2)] ++ List.replicate 5 0)) ++
  ((List.range x.rows.length).zip x.rows.reverse).flatMap (fun e => rowImage x.cfg (bad.contains e.1) e.2)

/-- A directory entry of AR_RECORD_LIST (R301). -/
def recordEntry (x : Record) : List Byte :=
  bytesLE 4 x.no.toNat ++ bytesLE 4 (recordFlags x).toNat ++ bytesLE 8 x.trigLt.toNat ++ bytesLE 8 (recordLen x) ++ bytesLE 8 x.offset

/-! ## COMTRADE (R300) -/

/-- One unit of a DAT timestamp in tu: timemult × 1 µs, with timemult 0.001, 1 or 1,000 by the span of the record (R300). -/
def comtradeUnit (x : Record) : Nat :=
  let d : Int := match x.rows.head?, x.rows.getLast? with
    | some b, some a => ltDiff b.tag a.tag
    | _, _ => 0
  if d ≤ nsTu 4294967295 then nsTu 1 else if d ≤ usTu 4294967295 then usTu 1 else msTu 1

/-- The nrates lines of a CFG file: samp, as a fraction of samples a second, and endsamp (R300). -/
def comtradeRates (x : Record) : List ((Nat × Nat) × Nat) :=
  (x.rates.zip ((x.rates.drop 1).map (·.1) ++ [x.rows.length])).map (fun e => ((oneSec * x.baseDen, x.baseNum * e.1.2), e.2))

/-- The 16-bit status words of a DAT sample, in channel order (R300). -/
def comtradeBinary (l : List Bool) : List (BitVec 16) :=
  (List.range (ceilDiv l.length 16)).map (fun w => pack16 ((List.range 16).map (fun i => (bitN (l.getD (16 * w + i) false), i))))
where
  /-- Bits at their places. -/
  pack16 (l : List (Nat × Nat)) : BitVec 16 := BitVec.ofNat 16 ((l.map (fun e => e.1 * 2 ^ e.2)).sum)

/-- The DAT samples of a record: number, timestamp, analogue values and status words (R300). The host writes the files. -/
def comtradeSamples (x : Record) : List (Nat × Int × List (BitVec 32) × List (BitVec 16)) :=
  let first := ((x.rows.getLast?).map (fun (w : RecRow) => w.tag)).getD 0
  ((List.range x.rows.length).zip x.rows.reverse).map (fun e =>
    (e.1 + 1, roundDiv (ltDiff e.2.tag first) (comtradeUnit x), e.2.analog, comtradeBinary e.2.binary))

/-- tmq_code and leapsec of a CFG file (R300). -/
def comtradeTime (x : Record) : Nat × Nat := (x.tq.toNat % 16, x.tq.toNat / 16 % 4)

/-! ## Arming and stopping (R302, R307) -/

/-- The open records of a recorder closed with TRUNC, or discarded (R302, R307). -/
def endOpen (r : Nat) (keep : Bool) (s : State) : State :=
  let y := getRec s r
  let close (k : Option Record) (s : State) : State := match k with
    | some k => if keep then closeRecord r true k s else s
    | none => s
  let s := close (y.run.bind (·.open_)) (close (y.old.bind (fun e => e.2.open_)) s)
  modRec r (fun y => { y with run := y.run.map runClosed, old := none }) s

/-- A recorder armed: its ring starts empty at the write position (R294, R307). -/
def armRecorder (r : Nat) (s : State) : State :=
  match (getRec s r).run with
  | none => s
  | some x => modRec r (fun y => { y with state := .armed, run := some (freshRun s x.cfg) }) s

/-- A recorder stopped (R302, R307). -/
def stopRecorder (r : Nat) (keep : Bool) (s : State) : State :=
  let s := endOpen r keep s
  modRec r (fun y => { y with state := if y.run.isSome then .stopped else .disabled }) s

/-- A release or the removal of a held record makes room: a FULL recorder writes again (R297). -/
def resumeFull (r : Nat) (s : State) : State :=
  match (getRec s r).run with
  | some x =>
    if (getRec s r).state = .full ∧ !ringHit (getRec s r) x.cfg then
      modRec r (fun y => { y with state := .armed, run := y.run.map (fun x => { x with pre := [] }) }) s
    else s
  | none => s

end Sys2Proof.Machine
end

