-- ==== Sys2Proof/Machine/Recorder.lean ====
section
/-! DEFINITION. Meanings of the Acquisition & Recorder commands (chapter 10) and what a commit does in AR. -/

namespace Sys2Proof.Machine

/-! ## Wideband links (R273–R278) -/

/-- WSL_FRAME_RECEIVE (R275–R277): the frame is matched to its convert edge, and the samples of every edge whose turn has come are
delivered. A frame with a wrong CRC stands for the edge after the last frame's. -/
def execWslFrameReceive (k : Fin 8) (f : WslFrame) (s : State) : Res :=
  let k := k.val
  let x := getWsl s k
  if !s.ar.ready || !x.cfg.en || x.retraining then .next s else
  let s := if x.state = .down then setWsl k .aligning s else s
  if !wslCrcOk f then
    let e := (x.lastEdge.map (· + 1)).getD x.nextEdge
    let s := if x.state = .locked then modWsl k (fun x => { x with crcErr := x.crcErr + 1 }) s else s
    let s := modWsl k (fun x => { x with lastEdge := some e }) s
    let s := if e < x.nextEdge then s else modWsl k (fun x => { x with got := x.got ++ [(e, none)] }) s
    .next (flushWsl k 256 (noteFrame k true false s))
  else
    match matchSeq s x (wslSeq f) with
    | none =>
      let s := modWsl k (fun x => { x with seqErr := true, goodRun := 0 }) s
      .next (if x.state = .locked then setWsl k .aligning s else s)
    | some e =>
      let s := noteFrame k false (x.lastEdge.map (· + 1) == some e) s
      let s := modWsl k (fun x => { x with lastEdge := some e }) s
      let s := if e < x.nextEdge then s else modWsl k (fun x => { x with got := x.got ++ [(e, some (wslChans f))] }) s
      .next (flushWsl k 256 s)

/-- WSL_FRAME_DEADLINE (R277): the next convert edge has no frame by LAT_MAX, and its samples are delivered as missing. -/
def execWslFrameDeadline (k : Fin 8) (s : State) : Res :=
  let k := k.val
  let x := getWsl s k
  if !s.ar.ready || !x.cfg.en || x.bases.isEmpty || decide (ltDiff s.now (edgeLt x x.nextEdge) < (x.cfg.latMax * cnvPeriod x.cfg : Nat)) then .next s
  else if x.state = .locked then
    let s := deliverBad k x.nextEdge (qInvalid ||| qOldData) (modWsl k (fun x => { x with missing := x.missing + 1 }) s)
    .next (flushWsl k 256 (noteFrame k true false s))
  else .next (flushWsl k 256 (deliverBad k x.nextEdge (qInvalid ||| qFailure) s))

/-- WSL_RETRAIN_DONE (R278). -/
def execWslRetrainDone (k : Fin 8) (s : State) : Res := .next (modWsl k.val (fun x => { x with retraining := false }) s)

/-! ## FAST_EDGE inputs (R279–R282) -/

/-- Input e changed. -/
def modEdge (e : Nat) (f : EdgeUnit → EdgeUnit) (s : State) : State := onAr (fun a => { a with edge := vmod a.edge e f }) s

/-- An edge of a staged direction enters its FIFO, or is lost at a full one (R281). -/
def edgeFifo (e : Nat) (rising : Bool) (t : LT) (s : State) : State :=
  let u := vget s.ar.edge e {}
  if !(if rising then u.cfg.rising else u.cfg.falling) then s
  else if u.fifo.length < 64 then
    let w := (t &&& ~~~(0x3FF : BitVec 64)) ||| BitVec.ofNat 64 (bitN rising + 2 * bitN u.gapNext + 4 * bitN u.uncal)
    modEdge e (fun u => { u with fifo := u.fifo ++ [w], gapNext := false, lastEdge := some (s.absOf t) }) s
  else
    raiseArg 0x41 0 (BitVec.ofNat 32 e) (onAr (fun a => { a with edgeOvf := true }) (modEdge e (fun u => { u with gapNext := true, ovf := true }) s))

/-- Whether an edge comes less than 5 ns after the one last recorded on its input: it is not recorded separately (R279). -/
def edgeClose (s : State) (e : Nat) (t : LT) : Bool :=
  match (vget s.ar.edge e {}).lastEdge with
  | some l => decide (s.absOf t - l < nsTu 5)
  | none => false

/-- FAST_EDGE_ARRIVAL (R279–R282): an edge whose next time-clock tick is now, with the bin the TDC found, which begins a pulse of `pulse` tu:
it enters the FIFO unless it follows an edge too closely, reaches the recorders, and its level goes to the input's point. A pulse shorter than
1 ns is not seen (log 138). -/
def execFastEdgeArrival (e : Fin 24) (rising : Bool) (bin : Fin 128) (pulse : Nat) (s : State) : Res :=
  if !s.ar.ready ∨ pulse < nsTu 1 then .next s else
  let t := tdcInstant s e.val bin.val
  let s := (if edgeClose s e.val t then id else edgeFifo e.val rising t) (modEdge e.val (fun u => { u with level := rising }) s)
  let s := noteBinary (BitVec.ofNat 32 (0x01000000 + e.val)) t rising false s
  match (vget s.ar.edge e.val {}).cfg.point with
  | some i => .next (sendBatch .ar [{ index := i, value := BitVec.ofNat 64 (bitN rising), lt := t, writer := .edge e.val }] s)
  | none => .next s

/-- TDC_CALIBRATION_DONE (R280): the bin widths of an input's calibration, in 2^−6 tu; UNCAL ends. -/
def execTdcCalibrationDone (e : Fin 24) (bins : Vector Nat 128) (s : State) : Res :=
  if !pdOn s 6 then .next s
  else .next (readiness (modEdge e.val (fun u => { u with uncal := false, bins := bins.toList, calAt := some s.abs }) s))

/-- The oldest entry of edge FIFO e, or 0, and the state after it is popped (R281). -/
def edgeTake (e : Nat) (s : State) : BitVec 64 × State :=
  (((vget s.ar.edge e {}).fifo.head?).getD 0, modEdge e (fun u => { u with fifo := u.fifo.drop 1 }) s)

/-- EDGE_POP (R281): the oldest entry is popped and latched; an empty FIFO reads 0. -/
def execEdgePop (rq : Nat) (e : Fin 24) (wide : Bool) (s : State) : Res :=
  hostRead rq (fun s => readRs rq (0x830000 + 0x20 * e.val) (edgeTake e.val s).1 wide (edgeTake e.val s).2) s

/-- AR_TDC_CAL_AGE (R303): the milliseconds since the oldest input's last calibration, saturating, also where an input has had none (log 138). -/
def tdcCalAge (s : State) : BitVec 32 :=
  let age (u : EdgeUnit) : Nat := match u.calAt with
    | some t => (s.abs - t) / msTu 1
    | none => 0xFFFF
  BitVec.ofNat 32 (min 0xFFFF ((s.ar.edge.toList.map age).foldl max 0))

/-! ## Pattern and rows (R288–R297) -/

/-- Whether the next tick of a run is due (R290). -/
def tickDue (s : State) (x : RecRun) : Bool := ltReached s.now (ltAdd (tickEnd x.nextTick) (usTu x.cfg.evalUs))

/-- The work under the old settings is over: its ticks lie behind the commit instant and no recording is left (R88). -/
def dropOld (r : Nat) (s : State) : State :=
  match (getRec s r).old with
  | some (t, x) => if x.open_.isNone ∧ ltReached x.nextTick t then modRec r (fun y => { y with old := none }) s else s
  | none => s

/-- PATTERN_TICK_EVAL (R288–R292): a recorder evaluates its next tick at the tick's end plus EVAL_DELAY; a recording that began under older
settings is followed under them to its end (R88). -/
def execPatternTickEval (r : Fin 8) (s : State) : Res :=
  let y := getRec s r.val
  if !s.ar.ready || y.state == .disabled || y.state == .stopped then .next s else
  let s := match y.old with
    | some (t, x) =>
      if tickDue s x then
        let (x, s) := evalTick r.val (decide (ltDiff x.nextTick t < 0)) x s
        dropOld r.val (modRec r.val (fun y => { y with old := some (t, x) }) s)
      else s
    | none => s
  match (getRec s r.val).run with
  | some x =>
    if tickDue s x then let (x, s) := evalTick r.val true x s; .next (modRec r.val (fun y => { y with run := some x }) s) else .next s
  | none => .next s

/-- ROW_WRITE (R293–R297): the row of the next base-grid instant, once the instant has been evaluated and its samples are there. -/
def execRowWrite (r : Fin 8) (s : State) : Res :=
  let y := getRec s r.val
  if !s.ar.ready || y.state == .disabled || y.state == .stopped then .next s else
  match y.old, y.run with
  | some (t, x), _ =>
    match writeRow r.val x s with
    | some (x, s) => .next (dropOld r.val (modRec r.val (fun y => { y with old := some (t, x) }) s))
    | none => .next s
  | none, some x =>
    match writeRow r.val x s with
    | some (x, s) => .next (modRec r.val (fun y => { y with run := some x }) s)
    | none => .next s
  | none, none => .next s

/-- RECORD_COMPLETE (R295): the header of the oldest closed record is written, with the record-complete event. -/
def execRecordComplete (r : Fin 8) (s : State) : Res :=
  let y := getRec s r.val
  match y.held.find? (·.closed) with
  | none => .next s
  | some x =>
    let s := modRec r.val (fun y => { y with held := y.held.map (fun h => if h.no = x.no then { h with closed := false } else h) }) s
    .next (raiseArg 0x43 y.owner (BitVec.ofNat 32 r.val) s)

/-! ## Staged opcodes (R307) -/

/-- A link's settings in a configuration. -/
def viewWsl (view : List Item) (k : Nat) : WslCfg :=
  (view.findSome? (fun i => match i with
    | .wsl n c => if n.val = k then some c else none
    | _ => none)).getD {}

/-- A FAST_EDGE input's settings in a configuration. -/
def viewEdge (view : List Item) (e : Nat) : EdgeCfg :=
  (view.findSome? (fun i => match i with
    | .edge n c => if n.val = e then some c else none
    | _ => none)).getD {}

/-- A lane's settings in a configuration, a preset's filled in. -/
def viewLane (view : List Item) (l : Nat) : Option LaneCfg :=
  view.findSome? (fun i => match i with
    | .lane n c => if n = l ∧ c.en then some (fillPreset c) else none
    | _ => none)

/-- R274, R630: the links of one convert clock share its K. -/
def wslCond (view : List Item) : Option Nat :=
  (List.range 4).find? (fun m =>
    let a := viewWsl view (2 * m)
    let b := viewWsl view (2 * m + 1)
    a.en && b.en && a.k != b.k) |>.map (2 * ·)

/-- What ArStageWsl refuses, over the session's view with its items laid in (R626, R630). -/
def checkArStageWsl (l : List (Fin 8 × WslCfg)) (view : List Item) (_s : State) : Option Status :=
  if l.any (fun e => decide (e.2.k < 1 ∨ 200 < e.2.k ∨ 20000000 % max e.2.k 1 ≠ 0 ∨ e.2.latMax < 1 ∨ 200 < e.2.latMax ∨ 64 < e.2.owner)) ||
      (wslCond view).isSome then some .badParam else none

/-- AR_STAGE_WSL (R274, R276, R307). -/
def execArStageWsl (c : Cmd) (l : List (Fin 8 × WslCfg)) (s : State) : Res :=
  stage 0x0801 false c (l.map (fun e => .wsl e.1 e.2)) (checkArStageWsl l) s

/-- What ArStageEdges refuses, over the session's view with its items laid in (R626, R630). -/
def checkArStageEdges (l : List (Fin 24 × EdgeCfg)) (_view : List Item) (_s : State) : Option Status :=
  if l.any (fun e => decide (64 < e.2.owner)) then some .badParam else none

/-- AR_STAGE_EDGES (R279–R282, R307). -/
def execArStageEdges (c : Cmd) (l : List (Fin 24 × EdgeCfg)) (s : State) : Res :=
  stage 0x0802 false c (l.map (fun e => .edge e.1 e.2)) (checkArStageEdges l) s

/-- R283: a comparator watches a WSL channel or a lane in OFF or FIXED mode. -/
def compCond (view : List Item) : Option Nat :=
  view.findSome? (fun i => match i with
    | .comp n c => match c.src with
      | .lane l => if c.en && ((viewLane view l).map (·.mode)) == some .track then some n else none
      | _ => none
    | _ => none)

/-- Thresholds that leave no hysteresis, or are no numbers (R283). -/
def hystBad (c : CompCfg) : Bool :=
  match exact32 c.hOn, exact32 c.hOff with
  | some a, some b => if c.mode = .levelLo then decide (b < a) else decide (a < b)
  | _, _ => true

/-- What ArStageComparators refuses, over the session's view with its items laid in (R626, R630). -/
def checkArStageComparators (c : Cmd) (l : List (Nat × CompCfg)) (view : List Item) (s : State) : Option Status :=
  if l.any (fun e => outsideShare c .comp e.1 s) then some .denied
  else if l.any (fun e => decide (128 ≤ e.1 ∨ e.2.lag < 1 ∨ 16 < e.2.lag) || hystBad e.2) || (compCond view).isSome then some .badParam
  else none

/-- AR_STAGE_COMPARATORS (R283, R307). -/
def execArStageComparators (c : Cmd) (l : List (Nat × CompCfg)) (s : State) : Res :=
  stage 0x0803 true c (l.map (fun e => .comp e.1 e.2)) (checkArStageComparators c l) s

/-- The owner of a recorder (R285). -/
def recOwner (s : State) (r : Nat) : Tag := shareOwner s .rec_ r

/-- Whether a point belongs to an owner or is published to it in a configuration (R286, R396). -/
def pointFor (s : State) (view : List Item) (o : Tag) (i : Nat) : Bool :=
  shareOwner s .point i == o ||
  view.any (fun v => match v with
    | .pub p => p.owner == shareOwner s .point i && decide (p.first ≤ i ∧ i < p.first + p.count) && p.readers.getLsbD (o - 1) && o != 0
    | _ => false)

/-- The owner of a general compare unit in a configuration. -/
def viewTcuOwner (view : List Item) (n : Nat) : Tag :=
  (view.findSome? (fun i => match i with
    | .tcuAssign a => if 20 + a.unit.val = n then some a.owner else none
    | _ => none)).getD 0

/-- A source code outside its kind's indices, or of a reserved kind (R287). -/
def binBad (src : BitVec 32) : Bool :=
  let n := (src.extractLsb' 0 24).toNat
  match (src.extractLsb' 24 8).toNat with
  | 1 => decide (24 ≤ n)
  | 2 => decide (128 ≤ n)
  | 3 => decide (0x4FFFFF < n)
  | 4 => decide (n < 20 ∨ 31 < n)
  | 5 => decide (8 ≤ n)
  | 6 => decide (n ≠ 0)
  | _ => true

/-- A source that neither belongs to an owner nor is published to it (R286, R287). -/
def binDenied (s : State) (view : List Item) (o : Tag) (src : BitVec 32) : Bool :=
  let n := (src.extractLsb' 0 24).toNat
  match (src.extractLsb' 24 8).toNat with
  | 1 => (viewEdge view n).owner != o
  | 2 => shareOwner s .comp n != o
  | 3 => !pointFor s view o n
  | 4 => viewTcuOwner view n != o
  | 5 => recOwner s n != o
  | _ => false

/-- An analogue source of another owner (R286). -/
def anDenied (s : State) (view : List Item) (o : Tag) (a : AnSrc) : Bool :=
  match a with
  | .wsl ch => (viewWsl view (ch.val / 3)).owner != o
  | .lane l => shareOwner s .lane l != o

/-- What makes the row grid of an analogue source in a configuration (R286): kind, and rate or K; none for a lane that cannot be
recorded. -/
def gridOf (view : List Item) (a : AnSrc) : Option (Nat × Nat × Nat) :=
  match a with
  | .wsl ch => some (0, (viewWsl view (ch.val / 3)).k, 0)
  | .lane l =>
    match viewLane view l with
    | none => none
    | some c =>
      match c.mode, c.src with
      | .track, _ => none
      | .fixed, _ => some (1, c.fOut, 0)
      | .off, .wsl k _ => some (2, (viewWsl view k.val).k, c.d)
      | .off, .sv ch => some (3, groupRate view ch, c.d)
where
  /-- The rate of the group whose stream carries analogue channel ch (R224). -/
  groupRate (view : List Item) (ch : Nat) : Nat :=
    (view.findSome? (fun i => match i with
      | .svSub _ c => if c.chans.any (fun x => x.num == some ch) then some c.rate else none
      | _ => none)).getD 0

/-- R286, R630: all analogue channels of a recorder share one row grid. -/
def recCond (view : List Item) : Option Nat :=
  view.findSome? (fun i => match i with
    | .recorder r c =>
      let g := c.analog.map (gridOf view)
      if c.en && (g.any (·.isNone) || g.any (fun x => x != g.headD none)) then some r.val else none
    | _ => none)

/-- A recorder setting outside its range (R285–R297). -/
def recBad (c : RecCfg) : Bool :=
  decide (c.mib < 1 ∨ 4096 < c.mib ∨ 64 < c.analog.length ∨ c.evalUs < 1 ∨ 10000 < c.evalUs ∨ 16777215 < c.pre ∨ c.post < 1 ∨ 16777215 < c.post ∨
    c.maxRows < 2 ∨ 4294967295 < c.maxRows ∨ 16777215 < c.fullRows ∨ c.stepRows < 1 ∨ 16777215 < c.stepRows) ||
  !([1, 2, 4, 8, 16, 32, 64] : List Nat).contains c.zMax || c.bins.any (fun b => binBad b.src)

/-- The DRAM an owner's partitions take in a configuration, in MiB (R285). -/
def recMib (s : State) (view : List Item) (o : Tag) : Nat :=
  (view.map (fun i => match i with
    | .recorder r c => if c.en && recOwner s r.val == o then c.mib else 0
    | _ => 0)).sum

/-- What ArStageRecorders refuses, over the session's view with its items laid in (R626, R630). -/
def checkArStageRecorders (c : Cmd) (l : List (Fin 8 × RecCfg)) (view : List Item) (s : State) : Option Status :=
  if l.any (fun e => outsideShare c .rec_ e.1.val s || e.2.analog.any (anDenied s view (recOwner s e.1.val)) ||
      e.2.bins.any (fun b => binDenied s view (recOwner s e.1.val) b.src)) then some .denied
  else if l.any (fun e => recBad e.2) || (recCond view).isSome then some .badParam
  else if l.any (fun e => let o := recOwner s e.1.val; decide (o ≠ 0 ∧ (s.im.inst.getD o {}).shares.dram.length < recMib s view o)) then some .quota
  else none

/-- AR_STAGE_RECORDERS (R285–R297, R307). -/
def execArStageRecorders (c : Cmd) (l : List (Fin 8 × RecCfg)) (s : State) : Res :=
  stage 0x0804 true c (l.map (fun e => .recorder e.1 e.2)) (checkArStageRecorders c l) s

/-! ## Immediate opcodes (R301, R307) -/

/-- The refusal of a part that names a recorder (R307). -/
def recPart (c : Cmd) (n : Nat) (s : State) : Status :=
  if 8 ≤ n then .badParam else if outsideShare c .rec_ n s then .denied else .ok

/-- Part n of ArTrigger (R89). -/
def partArTrigger (c : Cmd) (n : Nat) (s : State) : State × Status × List Byte :=
  if recPart c n s ≠ .ok then (s, recPart c n s, [])
  else if (getRec s n).state = .disabled then (s, .notReady, [])
  else (modRec n (recNote 0x06000000 s.now true true) s, .ok, [])

/-- AR_TRIGGER (R287, R307): the manual source of the named recorders, at the instant SU executes it. -/
def execArTrigger (c : Cmd) (mask : BitVec 64) (s : State) : Res :=
  multi 0x0810 true c mask (partArTrigger c) s

/-- Part n of ArRecorderArm (R89). -/
def partArRecorderArm (c : Cmd) (n : Nat) (s : State) : State × Status × List Byte :=
  if recPart c n s ≠ .ok then (s, recPart c n s, [])
  else if (getRec s n).state = .disabled then (s, .notReady, [])
  else if (getRec s n).state = .stopped then (armRecorder n s, .ok, [])
  else (s, .ok, [])

/-- AR_RECORDER_CTRL with bit 0 = 1 (R307). -/
def execArRecorderArm (c : Cmd) (mask : BitVec 64) (s : State) : Res :=
  multi 0x0811 true c mask (partArRecorderArm c) s

/-- Part n of ArRecorderStop (R89). -/
def partArRecorderStop (c : Cmd) (n : Nat) (s : State) : State × Status × List Byte :=
  if recPart c n s ≠ .ok then (s, recPart c n s, [])
  else if (getRec s n).state = .disabled then (s, .notReady, [])
  else (stopRecorder n true s, .ok, [])

/-- AR_RECORDER_CTRL with bit 0 = 0 (R307): an open record is closed with TRUNC. -/
def execArRecorderStop (c : Cmd) (mask : BitVec 64) (s : State) : Res :=
  multi 0x0811 true c mask (partArRecorderStop c) s

/-- Who may list, read and release a recorder's records (R301). -/
def recDenied (c : Cmd) (r : Nat) (s : State) : Bool := outsideShare c .rec_ r s || (issuer c != 0 && (getRec s r).owner != issuer c)

/-- The held records whose header is written. -/
def readable (y : Recorder) : List Record := y.held.filter (fun h => !h.closed)

/-- AR_RECORD_LIST (R301). -/
def execArRecordList (c : Cmd) (r : Fin 8) (s : State) : Res :=
  command 0x0812 true c s fun s =>
    if recDenied c r.val s then (s, some (st .denied))
    else (s, some { status := .ok, buf := .bytes ((readable (getRec s r.val)).flatMap recordEntry) })

/-- AR_RECORD_READ (R301): a byte range of one held record; `guard` names rows whose read finds an uncorrectable error (R303). -/
def execArRecordRead (c : Cmd) (r : Fin 8) (no : BitVec 32) (off len : Nat) (guard : List (Nat × GuardFind)) (s : State) : Res :=
  command 0x0813 true c s fun s =>
    if recDenied c r.val s then (s, some (st .denied))
    else
      match (readable (getRec s r.val)).find? (·.no == no) with
      | none => (s, some (st .stale))
      | some x =>
        if len = 0 ∨ recordLen x < off + len then (s, some (st .badParam))
        else
          let y := getRec s r.val
          let (hits, s) := guardReads 0x0 guard s
          let s := hits.foldl (fun s e => onAr (fun a => { a with guardErr := true }) (guardUncorrectable 0x0 0x8 y.owner e.2 s)) s
          (s, some { status := .ok, buf := .bytes (((recordImage r.val y.owner x (hits.map (·.1))).drop off).take len) })

/-- AR_RECORD_RELEASE (R301): the named records are freed; a number that is not held fails with STALE. -/
def execArRecordRelease (c : Cmd) (r : Fin 8) (nos : List (BitVec 32)) (s : State) : Res :=
  command 0x0814 true c s fun s =>
    if recDenied c r.val s then (s, some (st .denied))
    else
      let have_ := (readable (getRec s r.val)).map (·.no)
      let s' := resumeFull r.val (modRec r.val (fun y => { y with held := y.held.filter (fun h => h.closed || !nos.contains h.no) }) s)
      (s', some (st (if nos.all have_.contains then .ok else .stale)))

/-- Part n of ArReadCounters (R89). -/
def partArReadCounters (c : Cmd) (n : Nat) (s : State) : State × Status × List Byte :=
  if recPart c n s ≠ .ok then (s, recPart c n s, [])
  else (modRec n (fun y => { y with ctr := .replicate 6 0 }) s, .ok, counterBytes (getRec s n).ctr)

/-- AR_READ_COUNTERS (R307). -/
def execArReadCounters (c : Cmd) (mask : BitVec 64) (s : State) : Res :=
  multi 0x0815 true c mask (partArReadCounters c) s

/-! ## The commit (R82, R88, R276) -/

/-- A link under new settings: it starts at the commit, or takes new delays; a new K retrains it (R276, R278). -/
def commitWsl (t : LT) (view : List Item) (k : Nat) (s : State) : State :=
  let c := viewWsl view k
  let x := getWsl s k
  if x.cfg = c then s
  else if !c.en then
    modWsl k (fun x => { lockLost := x.lockLost, seqErr := x.seqErr, frames := x.frames, crcErr := x.crcErr, missing := x.missing }) (setWsl k .down s)
  else if x.cfg.en ∧ x.cfg.k = c.k then modWsl k (fun x => { x with cfg := c }) s
  else
    let n := cnvPeriod c
    let d := (ltDiff t (gridStart s)).toNat
    let e0 := ltAdd (gridStart s) (ceilDiv d n * n)
    modWsl k (fun x => { x with
      cfg := c, bases := [(0, e0)], nextEdge := 0, lastEdge := none, got := [], goodRun := 0, window := [], retraining := true }) (setWsl k .down s)

/-- A recorder under new settings: from the next trigger; a recording in progress runs to its end under the old ones (R88). -/
def commitRec (t : LT) (view : List Item) (r : Nat) (s : State) : State :=
  let c := view.findSome? (fun i => match i with
    | .recorder n c => if n.val = r ∧ c.en then some c else none
    | _ => none)
  let y := getRec s r
  let old := match y.old, y.run with
    | some e, _ => some e
    | none, some x => if y.state = .armed ∨ y.state = .recording then some (t, x) else none
    | none, none => none
  match c with
  | none =>
    if y.run.isNone then s
    else modRec r (fun y => { y with run := none, old := none, state := .disabled, owner := 0, held := [], writePos := 0 }) (endOpen r true s)
  | some c =>
    if y.run.map (·.cfg) = some c then s
    else modRec r (fun y => { y with
      run := some (freshRun s c), old := old, owner := recOwner s r, state := if y.state = .recording ∨ y.state = .stopped then y.state else .armed, suppressLeft := 0,
      lastAccept := none }) s

/-- The commit in AR; while PD6 is off its resources take their settings and wait. -/
def arCommit (t : LT) (active : List Item) (s : State) : State :=
  let s := (List.range 8).foldl (fun s k => commitWsl t active k s) s
  let s := (List.range 24).foldl (fun s e => modEdge e (fun u => { u with cfg := viewEdge active e }) s) s
  let comps : Tab Nat CompCfg := active.filterMap (fun i => match i with
    | .comp n c => if c.en then some (n, c) else none
    | _ => none)
  let s := onAr (fun a => { a with comp := comps.map (fun e =>
    let x := a.comp.getD e.1 {}
    (e.1, if x.cfg = some e.2 then x else ({ cfg := some e.2 } : Comp))) }) s
  (List.range 8).foldl (fun s r => commitRec t active r s) s

/-- A new grid second in AR: a convert clock that a TIME_STEP has moved counts its later edges from it (R44, R274). -/
def arSecond (ltS : LT) (s : State) : State :=
  (List.range 8).foldl (fun s k =>
    let x := getWsl s k
    if !x.cfg.en then s else
    match newestEdge s x with
    | none => s
    | some n => if edgeLt x n = ltS then s else modWsl k (fun x => { x with bases := (n + 1, ltS) :: x.bases.take 1 }) s) s

/-! ## PD6 (R302, R280, R278) -/

/-- PD6 goes off: open records are closed with TRUNC, links go down, edge FIFOs are lost (R302). -/
def arOff (s : State) : State :=
  let s := (List.range 8).foldl (fun s r => endOpen r true s) s
  let s := (List.range 8).foldl (fun s k => setWsl k .down s) s
  onAr (fun a => { a with
    ready := false, edge := a.edge.map (fun u => { u with fifo := [], uncal := true, bins := [], gapNext := false })
    comp := a.comp.map (fun e => (e.1, { e.2 with level := false, hist := [] })) }) s

/-- PD6 is on: links retrain, every ring restarts empty (R278, R302). -/
def arOn (s : State) : State :=
  let s := onAr (fun a => { a with ready := true, wsl := a.wsl.map (fun x => if x.cfg.en then
    { x with retraining := true, nextEdge := 0, lastEdge := none, got := [] } else x) }) s
  let s := (List.range 8).foldl (fun s k =>
    let x := getWsl s k
    let n := cnvPeriod x.cfg
    modWsl k (fun x => { x with bases := [(0, ltAdd (gridStart s) (ceilDiv (ltDiff s.now (gridStart s)).toNat n * n))] }) s) s
  (List.range 8).foldl (fun s r =>
    let y := getRec s r
    if y.state = .disabled ∨ y.state = .stopped then s else armRecorder r s) s

end Sys2Proof.Machine
end

