-- ==== Sys2Proof/Machine/Filter.lean ====
section
/-! DEFINITION. Meanings of the Filter & Resampler commands (chapter 08) and what a commit does in FR. -/

namespace Sys2Proof.Machine

/-! ## Output samples (R239–R242) -/

/-- The value a floating-point point takes from a binary32 number (R242, R390). -/
def pointSingle (s : State) (i : Nat) (v : BitVec 32) : BitVec 64 :=
  match getPoint s i with
  | some r => if r.type = .float64 then dsingle v else v.zeroExtend 64
  | none => v.zeroExtend 64

/-- An output sample joins a channel's line (R248). -/
def feedChan (l : Nat) (x : LaneSample) (c : PeChan) : PeChan :=
  if c.cfg.lane = l ∧ c.state ≠ .disabled then { c with line := x :: c.line } else c

/-- One output sample to the lane's consumers (R242): its point at every d-th output, its PE channel, recorders and comparators. `n` counts
the outputs since the last point write, this one included. -/
def consumeSample (l : Nat) (c : LaneCfg) (n : Nat) (x : LaneSample) (s : State) : State :=
  let s := match c.point with
    | some i =>
      if c.div ≤ n then
        sendBatch .fr [{ index := i, value := pointSingle s i x.value, quality := x.q, lt := x.tag, writer := .lane l }] s
      else s
    | none => s
  let s := match c.pe with
    | some k => onPe (fun p => { p with
        ch := p.ch.map (fun e => if e.1 = k then (e.1, feedChan l x e.2) else e)
        drain := p.drain.map (fun e => if e.1 = k then (e.1, e.2.1, feedChan l x e.2.2) else e) }) s
    | none => s
  acquireLane l x (onFr (fun f => { f with sat := f.sat || x.sat }) s)

/-- The outputs since the last point write, after one more. -/
def pointCount (c : LaneCfg) (n : Nat) : Nat := if c.div ≤ n + 1 then 0 else n + 1

/-- Whether samples of a lane carry TRK_DEGRADED now (R236). -/
def laneDegraded (s : State) (x : Lane) : Bool := x.cfg.mode == .track && (getTrk s x.cfg.group).state != .tracking

/-- The next output of a lane as it is now. -/
def laneNext (s : State) (x : Lane) : Option (LaneSample × Lane) :=
  laneStep (firOf s x.cfg.fir) (protoOf s x.cfg.proto) (laneDegraded s x) x

/-- The next output of a lane under the tables before the last commit (R88). -/
def laneNextOld (s : State) (x : Lane) : Option (LaneSample × Lane) :=
  laneStep (firTable (fun k => s.fr.firOld.get? k) x.cfg.fir) (protoCoef (fun k => s.fr.protoOld.get? k) x.cfg.proto) (laneDegraded s x) x

/-- An output of a lane that finishes under an older configuration (R88): its instant lies before the commit. -/
def drainNext (s : State) (l : Nat) : Option (LT × LaneSample × Lane) :=
  match s.fr.drain.find? (fun e => e.1 == l) with
  | some (_, t, x) =>
    match laneNextOld s x with
    | some (o, x') => if ltDiff o.tag t < 0 then some (t, o, x') else none
    | none => none
  | none => none

/-- What an uncorrectable error in a lane's state does (R241): the lane restarts. -/
def laneGuard (l : Nat) (h : GuardHit) (s : State) : State :=
  let o := (getLane s l).owner
  raiseArg 0x31 o (BitVec.ofNat 32 l) (restartLane l s.now (onFr (fun f => { f with guardErr := true }) (guardUncorrectable 0x6 0x6 o h s)))

/-- What an uncorrectable error in a staged coefficient table does (R242): outputs of the lanes that use it stop until it is reloaded. -/
def tableGuard (l : Nat) (proto : Bool) (n : Nat) (h : GuardHit) (s : State) : State :=
  if n < (if proto then 4 else 6) then s else
  let o := (getLane s l).owner
  let s := onFr (fun f => { f with
    guardErr := true, reload := if f.reload.contains (proto, n) then f.reload else f.reload ++ [(proto, n)]
    lane := f.lane.map (fun e => if usesTable proto n e.2 then (e.1, { e.2 with waitCoef := true }) else e) }) (guardUncorrectable 0x6 0x6 o h s)
  foGuardError (raiseArg 0x31 o (BitVec.ofNat 32 l) s)

/-- What the guard code finds as a lane reads its state and tables. -/
def laneFinding (l : Nat) (f : LaneFinding) (s : State) : State :=
  match f with
  | .clean => s
  | .corrected => guardCorrected 0x6 s
  | .state h => laneGuard l h s
  | .fir h => tableGuard l false (getLane s l).cfg.fir h s
  | .proto h => tableGuard l true (getLane s l).cfg.proto h s

/-- LANE_OUTPUT_RELEASE (R226–R242): the lane's next output, if its inputs have been delivered. -/
def execLaneOutputRelease (l : Fin 1024) (f : LaneFinding) (s : State) : Res :=
  if !s.fr.ready then .next s else
  let l := l.val
  let s := laneFinding l f s
  match drainNext s l with
  | some (t, o, x) =>
    let s := onFr (fun f => { f with drain := f.drain.map (fun e =>
      if e.1 = l then (l, t, { x with ptCount := pointCount x.cfg x.ptCount }) else e) }) s
    let s := modLane l (fun y => { y with outputs := y.outputs + 1, sat := y.sat || o.sat, gridStep := y.gridStep || o.gridStep }) s
    .next (consumeSample l x.cfg (x.ptCount + 1) o s)
  | none =>
    match laneNext s (getLane s l) with
    | none => .next s
    | some (o, x) =>
      let s := onFr (fun f => { f with lane := f.lane.put l { x with ptCount := pointCount x.cfg x.ptCount } }) s
      .next (consumeSample l x.cfg (x.ptCount + 1) o s)

/-! ## Tracking (R235, R236) -/

/-- GRID_CYCLE_START (R235): the group's present cycle ends, and the next one takes the frequency in force. -/
def execGridCycleStart (g : Fin 64) (s : State) : Res :=
  let x := getTrk s g.val
  match x.cyc with
  | none => .next s
  | some c =>
    let t := c.tc + BitVec.ofNat 96 c.len
    if !s.fr.ready || x.state == .disabled || decide (diff96 (lt96 s.now) t < 0) then .next s
    else
      let f := freqAt x (t.extractLsb' 32 64)
      .next (startTrkCycle g.val { no := c.no + 1, tc := t, len := cycleLen f } f s)

/-- T_c of the cycle in force; before cycle 0, of the frequency that applies (R235, R236). -/
def cycleNow (x : TrkGroup) : Nat :=
  match x.cyc with
  | some c => c.len
  | none => cycleLen (trkFreq x)

/-- TRACKING_HOLD (R236): no valid estimate for 2 × T_c. -/
def execTrackingHold (g : Fin 64) (s : State) : Res :=
  let x := getTrk s g.val
  match x.est with
  | some (_, t) =>
    if x.state = .tracking ∧ (2 * cycleNow x : Nat) ≤ ltDiff s.now t * 4294967296 then .next (setTrk g.val .hold s) else .next s
  | none => .next s

/-- TRACKING_NOMINAL (R236): HOLD has lasted for the hold timeout. -/
def execTrackingNominal (g : Fin 64) (s : State) : Res :=
  let x := getTrk s g.val
  if x.state = .hold ∧ (msTu x.cfg.holdMs : Int) ≤ ltDiff s.now x.holdSince then .next (setTrk g.val .nominal s) else .next s

/-- COEF_RELOAD_DONE (R242): the lanes that waited for the table restart, unless another table of theirs is still being reloaded. -/
def execCoefReloadDone (proto : Bool) (n : Fin 256) (s : State) : Res :=
  if !s.fr.reload.contains (proto, n.val) then .next s else
  let s := onFr (fun f => { f with reload := f.reload.filter (· != (proto, n.val)) }) s
  .next (restartLanes (fun _ x => x.waitCoef && !tablesMissing s x) s.now s)

/-! ## Staged opcodes (R247) -/

/-- The SV subscription whose stream carries analogue channel ch in a configuration (R224). -/
def viewSv (view : List Item) (ch : Nat) : Option SvCfg :=
  view.findSome? (fun i => match i with
    | .svSub _ c => if c.en ∧ c.chans.any (fun x => x.num == some ch) then some c else none
    | _ => none)

/-- f_in of a source in a configuration (R224, R225); 0 where there is no such source. -/
def viewRate (view : List Item) (src : LaneSrc) : Nat :=
  match src with
  | .sv ch => ((viewSv view ch).map (·.rate)).getD 0
  | .wsl k _ => if (viewWsl view k.val).en then 20000000 / max (viewWsl view k.val).k 1 else 0

/-- The owner of a source in a configuration; none where there is no such source. -/
def sourceOwner (view : List Item) (src : LaneSrc) : Option Tag :=
  match src with
  | .sv ch => (viewSv view ch).map (·.owner)
  | .wsl k _ => if (viewWsl view k.val).en then some (viewWsl view k.val).owner else none

/-- A tracking group's settings in a configuration. -/
def viewTrk (view : List Item) (g : Nat) : Option TrackCfg :=
  view.findSome? (fun i => match i with
    | .track n c => if n = g ∧ c.en then some c else none
    | _ => none)

/-- A lane's output rate that conflicts with R232, or a preset whose f_in is not its source's (R243). -/
def laneRateBad (view : List Item) (c : LaneCfg) : Bool :=
  let c' := fillPreset c
  let fIn := viewRate view c.src
  let f0 := match viewTrk view c.group with
    | some t => if t.sixty then 60 else 50
    | none => 50
  (match c.preset with
   | some n => presetRate n != fIn
   | none => false) ||
  (match c'.mode with
   | .off => false
   | .fixed => decide (c'.fOut * 256 * c'.d ≤ fIn ∨ 2 * fIn < c'.fOut)
   | .track => decide (10 * fIn < 6 * c'.p * f0))

/-- R630: the first lane of a configuration whose rate conflicts. -/
def laneCond (view : List Item) : Option Nat :=
  view.findSome? (fun i => match i with
    | .lane n c => if c.en && laneRateBad view c then some n else none
    | _ => none)

/-- The owner of a lane (R518). -/
def laneOwner (s : State) (l : Nat) : Tag := shareOwner s .lane l

/-- A source or a table of another owner (R224, R231). -/
def laneDenied (s : State) (view : List Item) (l : Nat) (c : LaneCfg) : Bool :=
  let c' := fillPreset c
  let o := laneOwner s l
  c.en && (sourceOwner view c.src != some o || (decide (6 ≤ c'.fir) && shareOwner s .fir c'.fir != o) ||
    (c'.mode != .off && decide (4 ≤ c'.proto) && shareOwner s .proto c'.proto != o))

/-- What FrStageLanes refuses, over the session's view with its items laid in (R626, R630). -/
def checkFrStageLanes (c : Cmd) (l : List (Nat × LaneCfg)) (view : List Item) (s : State) : Option Status :=
  if l.any (fun e => outsideShare c .lane e.1 s || laneDenied s view e.1 e.2) then some .denied
  else if l.any (fun e => decide (1024 ≤ e.1) || (match e.2.preset with
      | some n => decide (n < 1 ∨ 9 < n)
      | none => false)) || (laneCond view).isSome then some .badParam
  else none

/-- FR_STAGE_LANES (R224, R231, R232, R243, R247). -/
def execFrStageLanes (c : Cmd) (l : List (Nat × LaneCfg)) (s : State) : Res :=
  stage 0x0601 true c (l.map (fun e => .lane e.1 e.2)) (checkFrStageLanes c l) s

/-- What FrStageTrack refuses, over the session's view with its items laid in (R626, R630). -/
def checkFrStageTrack (c : Cmd) (l : List (Nat × TrackCfg)) (view : List Item) (s : State) : Option Status :=
  if l.any (fun e => outsideShare c .trk e.1 s) then some .denied
  else if l.any (fun e => decide (64 ≤ e.1 ∨ e.2.holdMs < 100 ∨ 10000 < e.2.holdMs ∨ e.2.holdMs % 100 ≠ 0)) || (laneCond view).isSome then
    some .badParam
  else none

/-- FR_STAGE_TRACK (R234). -/
def execFrStageTrack (c : Cmd) (l : List (Nat × TrackCfg)) (s : State) : Res :=
  stage 0x0602 true c (l.map (fun e => .track e.1 e.2)) (checkFrStageTrack c l) s

/-- A table that FR_STAGE_COEF refuses (R228, R229, R231). -/
def coefBad (proto : Bool) (n : Nat) (l : List Int) : Bool :=
  l.any (fun x => decide (x < -8388608 ∨ 8388607 < x)) ||
  (if proto then
     decide (n < 4 ∨ 15 < n ∨ l.length ≠ 8192) || l.headD 1 != 0 || l.drop 1 != (l.drop 1).reverse
   else decide (n < 6 ∨ 255 < n ∨ l.length < 1 ∨ 64 < l.length) || l != l.reverse)

/-- What FrStageCoef refuses, over the session's view with its items laid in (R626, R630). -/
def checkFrStageCoef (c : Cmd) (l : List (Bool × Nat × CoefTable)) (_view : List Item) (s : State) : Option Status :=
  if l.any (fun e => outsideShare c (if e.1 then .proto else .fir) e.2.1 s) then some .denied
  else if l.any (fun e => coefBad e.1 e.2.1 e.2.2.coefs) then some .badParam
  else none

/-- FR_STAGE_COEF (R228, R229, R231). -/
def execFrStageCoef (c : Cmd) (l : List (Bool × Nat × CoefTable)) (s : State) : Res :=
  stage 0x0603 true c (l.map (fun e => .coef e.1 e.2.1 e.2.2)) (checkFrStageCoef c l) s

/-- Part n of FrLaneRestart (R89). -/
def partFrLaneRestart (c : Cmd) (base : Nat) (n : Nat) (s : State) : State × Status × List Byte :=
  let l := base + n
  if 1024 ≤ l then (s, .badParam, [])
  else if outsideShare c .lane l s then (s, .denied, [])
  else if (getLane s l).state = .disabled then (s, .notReady, [])
  else (restartLane l s.now s, .ok, [])

/-- FR_LANE_RESTART (R241, R247). -/
def execFrLaneRestart (c : Cmd) (base : Nat) (mask : BitVec 64) (s : State) : Res :=
  multi 0x0610 true c mask (partFrLaneRestart c base) s

/-! ## The commit (R88, R241) -/

/-- The tables of a configuration. -/
def viewTables (proto : Bool) (view : List Item) : Tab Nat CoefTable :=
  view.filterMap (fun i => match i with
    | .coef p n t => if p = proto then some (n, t) else none
    | _ => none)

/-- A group under new settings (R235, R241): a change of f0 or reference starts it anew. -/
def commitTrk (t : LT) (view : List Item) (g : Nat) (s : State) : State :=
  let x := getTrk s g
  match viewTrk view g with
  | none => if x.state = .disabled then s else stopTrk g s
  | some c =>
    if x.state ≠ .disabled ∧ x.cfg.sixty = c.sixty ∧ x.cfg.ref = c.ref then modTrk g (fun x => { x with cfg := c }) s
    else startTrk g c t s

/-- Whether a lane of the old configuration keeps its state in the new one (R241). -/
def laneKept (old : FrState) (s : State) (x : Lane) (c : LaneCfg) (fIn : Nat) : Bool :=
  x.state != .disabled && x.cfg == c && x.fIn == fIn &&
  (c.mode != .track || (((old.trk.getD c.group {}).cfg.sixty == (getTrk s c.group).cfg.sixty) &&
    ((old.trk.getD c.group {}).cfg.ref == (getTrk s c.group).cfg.ref))) &&
  old.firTab.get? c.fir == s.fr.firTab.get? c.fir && (c.mode == .off || old.protoTab.get? c.proto == s.fr.protoTab.get? c.proto)

/-- A lane as a commit leaves it (R241, R246): what the host clears and the output count stand, the rest is new. -/
def freshLane (x : Lane) : Lane := { inBad := x.inBad, restart := x.restart, gridStep := x.gridStep, sat := x.sat, outputs := x.outputs }

/-- A lane under the new configuration: kept, changed, or removed; a changed or removed one still finishes what lies before the commit (R88). -/
def commitLane (t : LT) (old : FrState) (view : List Item) (l : Nat) (s : State) : State :=
  let x := old.lane.getD l {}
  let drain (s : State) : State :=
    if x.state = .disabled ∨ !s.fr.ready then s else onFr (fun f => { f with drain := f.drain.filter (fun e => e.1 != l) ++ [(l, t, x)] }) s
  match viewLane view l with
  | none => if x.state = .disabled then s else drain (onFr (fun f => { f with lane := f.lane.put l (freshLane x) }) s)
  | some c =>
    let fIn := viewRate view c.src
    if laneKept old s x c fIn then s
    else
      let s := drain s
      restartLane l t (onFr (fun f => { f with
        lane := f.lane.put l { freshLane x with cfg := c, fIn := fIn, state := .settling, owner := laneOwner s l } }) s)

/-- The commit in FR; while PD5 is off, its lanes and groups take their settings and wait (R241). -/
def frCommit (t : LT) (active : List Item) (s : State) : State :=
  let old := s.fr
  let s := onFr (fun f => { f with
    firOld := f.firTab, protoOld := f.protoTab, firTab := viewTables false active, protoTab := viewTables true active }) s
  let s := (List.range 64).foldl (fun s g => commitTrk t active g s) s
  let ls := (old.lane.map (·.1) ++ active.filterMap (fun i => match i with
    | .lane n _ => some n
    | _ => none)).dedup
  ls.foldl (fun s l => commitLane t old active l s) s

/-! ## PD5 (R241) -/

/-- PD5 goes off: lane and group state are lost. -/
def frOff (s : State) : State :=
  onFr (fun f => { f with ready := false, drain := [], reload := [], lane := f.lane.map (fun e => (e.1, { e.2 with inputs := [], inCount := 0 })),
                          trk := f.trk.map (fun e => (e.1, { e.2 with cyc := none, est := none })) }) s

/-- PD5 is on: every lane restarts, and every group restarts at the next TCU3 firing. -/
def frOn (s : State) : State :=
  let gs := s.fr.trk.filter (fun e => e.2.state != .disabled)
  let s := gs.foldl (fun s e => startTrk e.1 e.2.cfg s.now s) (onFr (fun f => { f with ready := true }) s)
  restartLanes (fun _ _ => true) s.now s

end Sys2Proof.Machine
end

