-- ==== Sys2Proof/Machine/Phasor.lean ====
section
/-! DEFINITION. Meanings of the Phasor Engine commands (chapter 09) and what a commit does in PE. -/

namespace Sys2Proof.Machine

/-! ## Releasing estimates (R256–R262) -/

/-- The result record of an estimate (R262, R270). -/
def resOf (e : PeEst) (seq : BitVec 32) : PeRes :=
  { seq := seq + 2, tr := e.tr, re := tosingle e.re, im := tosingle e.im, freq := tosingle e.freq, rocof := tosingle e.rocof, q := e.q,
    flags := BitVec.ofNat 8 (bitN e.degraded + 2 * bitN e.settling + 4 * bitN e.substituted + 8 * bitN e.late) }

/-- An estimate enters the channel's record, flags and history (R258, R262, R270); one from before a commit leaves its STATE. -/
def noteEst (c : Nat) (before : Bool) (e : PeEst) (range : Bool) (s : State) : State :=
  match s.pe.ch.get? c with
  | none => s
  | some x =>
    let x' : PeChan := { x with
      res := resOf e x.res.seq, estimates := x.estimates + 1, degraded := x.degraded || e.degraded, late := x.late || e.late,
      range := x.range || range, hist := (e :: x.hist).take 300
      state := if before ∨ x.state = .disabled then x.state else if e.settling then .settling else .running }
    onPe (fun p => { p with ch := p.ch.put c x', range := p.range || range, late := p.late || e.late }) s

/-- A complex value as a point holds it: real part below, imaginary part above (R390). -/
def complexBits (re im : F) : BitVec 64 := (tosingle im).zeroExtend 64 <<< 32 ||| (tosingle re).zeroExtend 64

/-- The points of an estimate, at every d-th (R261). -/
def chanPoints (s : State) (c : Nat) (k : ChanCfg) (e : PeEst) : List PtWrite :=
  let w (i : Option Nat) (v : BitVec 64) (q : Quality) : List PtWrite := match i with
    | some i => [{ index := i, value := v, quality := q, lt := e.tr, writer := .chan c }]
    | none => []
  w k.ptPhasor (complexBits e.re e.im) e.q ++
  w k.ptFreq (match k.ptFreq with
    | some i => pointSingle s i (tosingle e.freq)
    | none => 0) e.fq ++
  w k.ptRocof (match k.ptRocof with
    | some i => pointSingle s i (tosingle e.rocof)
    | none => 0) e.fq

/-- The estimate of a channel at a reporting instant. -/
def estAt (s : State) (c : Nat) (tr : LT) : Option PeEst := (getChan s c).hist.find? (·.tr == tr)

/-- A sequence phasor of a set at a reporting instant, with the merged quality (R249). -/
def seqAt (s : State) (k : SetCfg) (n : Nat) (tr : LT) : Option ((F × F) × Quality) :=
  match estAt s k.a tr, estAt s k.b tr, estAt s k.c tr with
  | some a, some b, some c => some (sequence n (a.re, a.im) (b.re, b.im) (c.re, c.im), mergeQ (mergeQ a.q b.q) c.q)
  | _, _, _ => none

/-- The points of a set once its third estimate is there, at every d-th (R249, R261). -/
def setPoints (c : Nat) (tr : LT) (s : State) : State :=
  match setOf s c tr with
  | none => s
  | some (n, k) =>
    let w (i : Option Nat) (m : Nat) : List PtWrite := match i, seqAt s k m tr with
      | some i, some (v, q) => [{ index := i, value := complexBits v.1 v.2, quality := q, lt := tr, writer := .pset n }]
      | _, _ => []
    if (seqAt s k 1 tr).isNone then s
    else
      let count := ((((setsFor s tr).get? n).map (·.ptCount)).getD 0) + 1
      let next (l : Tab Nat PeSet) : Tab Nat PeSet :=
        l.map (fun e => if e.1 = n ∧ e.2.cfg = k then (n, { e.2 with ptCount := if k.div ≤ count then 0 else count }) else e)
      let s := onPe (fun p => { p with sets := next p.sets, setsOld := p.setsOld.map (fun e => (e.1, next e.2)) }) s
      if k.div ≤ count then sendBatch .pe (w k.x1 1 ++ w k.x2 2 ++ w k.x0 0) s else s

/-- f̂ in µHz, the resolution in which FR takes an estimate (R245; log 137). -/
def microHz (f : F) : Nat := (dround (dmul f (dint 1000000))).toNat

/-- An estimate released (R258): record, points, and the offer to tracking groups. `n` counts the estimates since the last point write, this
one included. -/
def releaseEst (c n : Nat) (before : Bool) (k : ChanCfg) (e : PeEst) (range : Bool) (s : State) : State :=
  let s := noteEst c before e range s
  let s := if k.div ≤ n then sendBatch .pe (chanPoints s c k e) s else s
  offerEstimate c (microHz e.freq) (e.fq &&& 3 == 0) (setPoints c e.tr s)

/-- Samples that estimates after a reporting instant may still need. -/
def pruneLine (x : PeChan) (tr : LT) : List LaneSample :=
  let keep : Int := ((x.line.headD {}).tlen * (x.cfg.w + x.cfg.b + 3) + oneSec * 4294967296 : Nat)
  x.line.takeWhile (fun y => decide (-keep ≤ diff96 (lt96 y.tag) (lt96 tr)))

/-- A channel after its next estimate. -/
def chanAfter (x : PeChan) (tr : LT) : PeChan :=
  let x := advanceChan x
  { x with nextK := x.nextK + 1, ptCount := if x.cfg.div ≤ x.ptCount + 1 then 0 else x.ptCount + 1, line := pruneLine x tr }

/-- FR has no further sample for a channel from before a commit: its lane is disabled and has finished what lay before it (R88). -/
def laneOver (s : State) (l : Nat) : Bool :=
  (getLane s l).state == .disabled && s.fr.drain.all (fun e => e.1 != l || (match nextInstant e.2.2 with
    | some (_, tag) => decide (0 ≤ ltDiff tag e.2.1)
    | none => true))

/-- A member of the channel's set has not yet been released for t_r by FR (R256). -/
def setWaits (s : State) (c : Nat) (x : PeChan) (tr : LT) : Bool :=
  match x.cfg.set_, setOf s c tr with
  | true, some (_, k) => [k.a, k.b, k.c].any (fun m => match chanSpan (memberAt s m tr) tr with
      | .notYet => (memberAt s m tr).state != .disabled && !((memberAt s m tr).before && laneOver s (memberAt s m tr).cfg.lane)
      | _ => false)
  | _, _ => false

/-- The next estimate of a channel, where its span has been released (R254–R258); an estimate whose span is not whole has open values
(log 39). -/
def nextEst (s : State) (c : Nat) (x : PeChan) : Option (LT × PeEst × Bool × State) :=
  match nextReport x with
  | none => none
  | some tr =>
    let open_ := let (e, s) := openEst x tr false s; some (tr, e, false, s)
    match chanSpan x tr with
    | .notYet => if x.before && laneOver s x.cfg.lane then open_ else none
    | .short => open_
    | .full a m b l tlen =>
      if setWaits s c x tr then none
      else let r := wholeEst s c x tr a m b l tlen; some (tr, r.1, r.2, s)

/-- What an uncorrectable error in a channel's state does (R257, R269): the channel restarts. -/
def chanGuard (c : Nat) (h : GuardHit) (s : State) : State :=
  let o := (getChan s c).owner
  raiseArg 0x38 o (BitVec.ofNat 32 c) (restartChan c (onPe (fun p => { p with guardErr := true }) (guardUncorrectable 0x6 0x7 o h s)))

/-- ESTIMATE_RELEASE (R254–R258). -/
def execEstimateRelease (c : Fin 1024) (guard : Option GuardFind) (s : State) : Res :=
  if !s.pe.ready then .next s else
  let c := c.val
  let (guard, s) := guardRead 0x6 guard s
  let s := match guard with
    | some h => chanGuard c h s
    | none => s
  let (t, x) := chanTurn s c
  match nextEst s c x with
  | none => .next s
  | some (tr, e, range, s) => .next (releaseEst c (x.ptCount + 1) t.isSome x.cfg e range (putTurn c t (chanAfter x tr) s))

/-! ## Streams: instants and deadlines (R259, R263–R265) -/

/-- Stream k. -/
def getStr (s : State) (k : Nat) : PeStream := s.pe.str.getD k {}

/-- Stream k changed, where it is used. -/
def modStr (k : Nat) (f : PeStream → PeStream) (s : State) : State :=
  onPe (fun p => { p with str := match p.str.get? k with
    | some x => p.str.put k (f x)
    | none => p.str }) s

/-- The stream with the seconds behind it dropped. -/
def advanceStr (x : PeStream) : PeStream := if secondOver x.secs x.nextK x.cfg.fs then { x with secs := x.secs.drop 1, nextK := 0 } else x

/-- The reporting instant of the next frame (R251, R264). -/
def strNext (x : PeStream) : Option LT :=
  let x := advanceStr x
  match x.secs with
  | a :: _ => if x.cfg.fs ≤ x.nextK then none else some (gridTag a x.nextK x.cfg.fs)
  | [] => none

/-- The transmission state for a frame of t_r: a command counts from the next t_r (R268). -/
def txState (x : PeStream) (tr : LT) : PeStream :=
  match x.txNext with
  | some (b, t) => if 0 < ltDiff tr t then { x with on := b, txNext := none } else x
  | none => x

/-- The stream whose frame is next: one that a commit changed first sends the frames before it, of which the instant is given (R88). -/
def strTurn (s : State) (k : Nat) : Option (Option LT × PeStream × LT) :=
  let now := (strNext (getStr s k)).map (fun tr => ((none : Option LT), getStr s k, tr))
  match s.pe.strDrain.find? (fun e => e.1 == k) with
  | some (_, t, x) =>
    match strNext x with
    | some tr => if ltDiff tr t < 0 then some (some t, x, tr) else now
    | none => now
  | none => now

/-- The stream that `strTurn` gave, changed. -/
def modTurn (k : Nat) (before : Option LT) (f : PeStream → PeStream) (s : State) : State :=
  match before with
  | some _ => onPe (fun p => { p with strDrain := p.strDrain.map (fun d => if d.1 = k then (k, d.2.1, f d.2.2) else d) }) s
  | none => modStr k f s

/-- The channels whose estimates a frame carries (R263). -/
def strChans (s : State) (c : StreamCfg) (tr : LT) : List Nat :=
  (c.pmus.flatMap (fun p => p.freq :: p.phasors.flatMap (fun x => match x.src with
    | .chan c => [c]
    | .seq n _ => match (setsFor s tr).get? n with
      | some k => [k.cfg.a, k.cfg.b, k.cfg.c]
      | none => []))).dedup

/-- The default Lmax in tu (R259): 2/Fs or 5/Fs, raised to the latency computed with the grid cycle of the frequency that applies (log 137). -/
def defaultLmax (s : State) (c : StreamCfg) (tr : LT) : Nat :=
  let chans := (strChans s c tr).map (getChan s)
  let base := (if chans.all (fun x => x.cfg.cls == .p) then 2 else 5) * oneSec / max c.fs 1
  let lat (x : PeChan) : Nat :=
    let l := chanLane s x
    let tc := cycleLen (trkFreq (getTrk s l.cfg.group)) / 4294967296
    let align := match l.cfg.src with
      | .sv ch => match s.se.svCfg.find? (fun e => e.2.chans.any (fun y => y.num == some ch)) with
        | some e => usTu (vget s.se.group e.2.group.val {}).cfg.tolUs
        | none => 0
      | .wsl _ _ => 0
    (x.cfg.w + x.cfg.b) * tc / 2 + l.gd.toNat + l.cfg.d * oneSec / max l.fIn 1 + align + usTu 45
  (chans.map lat).foldl max base

/-- Lmax of a stream in tu (R259). -/
def lmaxOf (s : State) (c : StreamCfg) (tr : LT) : Nat :=
  match c.lmaxMs with
  | some ms => msTu ms
  | none => defaultLmax s c tr

/-- The estimates of a channel up to t_r completed at a deadline (R259): their values are open, and final (log 39). -/
def completeChan (c : Nat) (tr : LT) : Nat → State → State
  | 0, s => s
  | n + 1, s =>
    let (b, x) := chanTurn s c
    match nextReport x with
    | none => s
    | some t =>
      if ltDiff t tr ≤ 0 then
        let (e, s) := openEst x t true s
        let s := raiseArg 0x39 x.owner (BitVec.ofNat 32 c) s
        completeChan c tr n (releaseEst c (x.ptCount + 1) b.isSome x.cfg e false (putTurn c b (chanAfter x t) s))
      else s

/-- STREAM_DEADLINE (R259): at t_r + Lmax the waiting estimates of the stream's next frame are completed, where the frame is to be sent. -/
def execStreamDeadline (k : Fin 64) (s : State) : Res :=
  match strTurn s k.val with
  | none => .next s
  | some (b, x, tr) =>
    let waiting := (strChans s x.cfg tr).filter (fun c => (estAt s c tr).isNone)
    if !s.pe.ready || !x.used || !(txState x tr).on || waiting.isEmpty || !ltReached s.now (ltAdd tr (lmaxOf s x.cfg tr)) then .next s
    else
      let s := modTurn k.val b (fun x => { x with frameLate := true }) (waiting.foldl (fun s c => completeChan c tr 512 s) s)
      .next (modStr k.val (fun x => { x with late := true, lateFrames := x.lateFrames + 1 }) s)

/-! ## Frames (R265–R267) -/

/-- An integer held to a range. -/
def clampInt (lo hi v : Int) : Int := max lo (min v hi)

/-- A binary64 value in a 16-bit signed field, saturated; an invalid one is 0x8000 (R267). -/
def int16Of (bad : Bool) (x : F) : List Byte :=
  if bad ∨ (f64 x).isNan then bytesBE 2 0x8000 else bytesBE 2 (BitVec.ofInt 16 (clampInt (-32768) 32767 (dround x))).toNat

/-- A binary64 value in a 16-bit unsigned field, saturated (R267). -/
def uint16Of (bad : Bool) (x : F) : List Byte :=
  if bad ∨ (f64 x).isNan then bytesBE 2 0x8000 else bytesBE 2 (clampInt 0 65535 (dround x)).toNat

/-- A binary64 value as binary32; an invalid one is NaN (R267). -/
def floatOf (bad : Bool) (x : F) : List Byte := bytesBE 4 (if bad then 0x7FC00000 else (tosingle x).toNat)

/-- Whether a quality is invalid. -/
def invalidQ (q : Quality) : Bool := validityRank q == 2

/-- A phasor of a frame: value, quality, and whether DEGRADED or substituted samples lie behind it (R263). -/
def phasorAt (s : State) (p : PmuPhasor) (tr : LT) : (F × F) × Quality × Bool :=
  let marks (c : Nat) : Bool := ((estAt s c tr).map (fun e => e.degraded || e.substituted)).getD false
  match p.src with
  | .chan c => match estAt s c tr with
    | some e => ((e.re, e.im), e.q, marks c)
    | none => ((0, 0), qInvalid, false)
  | .seq n m => match (setsFor s tr).get? n with
    | some k => match seqAt s k.cfg m.val tr with
      | some (v, q) => (v, q, marks k.cfg.a || marks k.cfg.b || marks k.cfg.c)
      | none => ((0, 0), qInvalid, false)
    | none => ((0, 0), qInvalid, false)

/-- One PHASORS entry (R267). -/
def phasorBytes (fmt : BitVec 16) (p : PmuPhasor) (v : F × F) (bad : Bool) : List Byte :=
  let unit := drat p.unit 100000
  let mag := dmag v.1 v.2
  let ang := datan2 v.2 v.1
  match fmt.getLsbD 0, fmt.getLsbD 1 with
  | false, false => int16Of bad (ddiv v.1 unit) ++ int16Of bad (ddiv v.2 unit)
  | true, false => uint16Of bad (ddiv mag unit) ++ int16Of bad (dmul ang (dint 10000))
  | false, true => floatOf bad v.1 ++ floatOf bad v.2
  | true, true => floatOf bad mag ++ floatOf bad ang

/-- The value of a point as a number. -/
def pointNumber (r : PointRec) : F :=
  match r.type with
  | .float32 => dsingle (r.value.truncate 32)
  | .float64 => r.value
  | .int32 => dint (r.value.truncate 32).toInt
  | .int64 => dint r.value.toInt
  | _ => dint r.value.toNat

/-- One ANALOG entry (R267). -/
def analogBytes (s : State) (fmt : BitVec 16) (a : PmuAnalog) : List Byte :=
  match presented s a.point with
  | none => if fmt.getLsbD 2 then floatOf true 0 else int16Of true 0
  | some r =>
    let bad := invalidQ r.quality
    if fmt.getLsbD 2 then floatOf bad (pointNumber r) else int16Of bad (dmul (pointNumber r) (dsingle a.factor))

/-- f0 of a channel in Hz. -/
def chanF0 (s : State) (c : Nat) : Nat := f0Hz (getChan s c).sixty

/-- FREQ and DFREQ of a block (R265, R267). -/
def freqBytes (s : State) (fmt : BitVec 16) (c : Nat) (tr : LT) : List Byte :=
  let e := (estAt s c tr).getD { q := qInvalid, fq := qInvalid }
  let bad := invalidQ e.fq
  if fmt.getLsbD 3 then floatOf bad e.freq ++ floatOf bad e.rocof
  else int16Of bad (dmul (dsub e.freq (dint (f0Hz e.sixty))) (dint 1000)) ++ int16Of bad (dmul e.rocof (dint 100))

/-- STAT bits 8:6 (R266). -/
def statQuality (s : State) : Nat :=
  if !s.tb.taiValid then 7
  else (((List.range 6).map (· + 1)).find? (fun n => decide (timeBound s < 10 ^ (n + 1)))).getD 7

/-- STAT bits 5:4 (R266); before the servo has been LOCKED the rule gives none (log 137). -/
def unlockedCode (s : State) : Nat :=
  match s.tb.servo, s.tb.leftLockedAt with
  | .locked, _ => 0
  | _, none => Config.neverLocked.toNat
  | _, some t =>
    let d := s.abs - t
    if d < secTu 10 then 0 else if d < secTu 100 then 1 else if d < secTu 1000 then 2 else 3

/-- STAT of a block (R266); values that are neither good nor test nor invalid leave bits 15:14 clear (log 137), and an invalid one wins (log 49). -/
def statWord (s : State) (x : PeStream) (p : PmuCfg) (tr : LT) : Nat :=
  let ph := p.phasors.map (fun e => (phasorAt s e tr).2)
  let f := (estAt s p.freq tr).getD { q := qInvalid, fq := qInvalid }
  let an := p.analogs.filterMap (fun a => (presented s a.point).map (·.quality))
  let dg := p.digitals.filterMap (fun i => (presented s i).map (·.quality))
  let err := if ph.any (fun e => invalidQ e.1) || invalidQ f.fq then 3
    else if (ph.map (·.1) ++ [f.fq] ++ an ++ dg).any (fun q => q &&& qTest != 0) then 2 else 0
  let unsync := !s.tb.taiValid || s.tb.servo != .locked || s.tb.ltUncertain
  let modified := ph.any (·.2) || f.degraded || f.substituted
  err * 16384 + bitN unsync * 8192 + bitN x.cfgChg * 1024 + bitN modified * 512 + statQuality s * 64 + unlockedCode s * 16

/-- The time quality byte (R266). -/
def timeByte (s : State) : Nat :=
  let within := match s.tb.leapAt with
    | some (t, d) => (decide (0 ≤ ltDiff s.now t ∧ ltDiff s.now t < secTu 86400), d)
    | none => (false, false)
  64 * bitN (s.tb.leap59 || (within.1 && within.2)) + 32 * bitN within.1 + 16 * bitN (s.tb.leap59 || s.tb.leap61) + timeQuality s

/-- SOC and FRACSEC of an instant (R265, R266). -/
def socBytes (s : State) (timeBase : Nat) (t : LT) : List Byte :=
  let tai := taiOf s.tb t
  let frac := roundDiv (tai.emod oneSec * timeBase) oneSec
  bytesBE 4 (BitVec.ofInt 32 (tai.ediv oneSec - s.tb.utcOffset.toInt)).toNat ++ [BitVec.ofNat 8 (timeByte s)] ++ bytesBE 3 frac.toNat

/-- A whole C37.118.2 frame from what follows FRAMESIZE (R265). -/
def c37Frame (sync : Nat) (body : List Byte) : List Byte :=
  let h := bytesBE 2 sync ++ bytesBE 2 (body.length + 6) ++ body
  h ++ bytesBE 2 (crcCcitt h).toNat

/-- One PMU block of a data frame (R265). -/
def pmuBytes (s : State) (x : PeStream) (tr : LT) (p : PmuCfg) : List Byte :=
  bytesBE 2 (statWord s x p tr) ++
  p.phasors.flatMap (fun e => let v := phasorAt s e tr; phasorBytes p.format e v.1 (invalidQ v.2.1)) ++
  freqBytes s p.format p.freq tr ++ p.analogs.flatMap (analogBytes s p.format) ++
  p.digitals.flatMap (fun i => bytesBE 2 (((presented s i).map (fun r => r.value.toNat)).getD 0 % 65536))

/-- A data frame (R265). -/
def dataFrame (s : State) (x : PeStream) (tr : LT) : List Byte :=
  c37Frame 0xAA02 (bytesBE 2 x.cfg.idcode.toNat ++ socBytes s x.cfg.timeBase tr ++ x.cfg.pmus.flatMap (pmuBytes s x tr))

/-! ## UDP and IP (R263; log 30) -/

/-- The ones' complement sum of an IPv4 header. -/
def ipChecksum (l : List Byte) : Nat :=
  let sum := ((List.range (l.length / 2)).map (fun i => (l.getD (2 * i) 0).toNat * 256 + (l.getD (2 * i + 1) 0).toNat)).sum
  let fold := sum % 65536 + sum / 65536
  65535 - (fold % 65536 + fold / 65536)

/-- A UDP datagram. -/
def udpBytes (src dst : BitVec 16) (payload : List Byte) : List Byte :=
  let h := bytesBE 2 src.toNat ++ bytesBE 2 dst.toNat ++ bytesBE 2 (8 + payload.length)
  h ++ bytesBE 2 (Config.udpChecksum (h ++ payload)).toNat ++ payload

/-- An IP packet in an Ethernet frame without FCS, between the addresses given. -/
def ipFrame (v6 : Bool) (dstMac srcMac : Mac) (vlan : Option (BitVec 16)) (dscp : BitVec 6) (src dst : BitVec 128) (udp : List Byte) : List Byte :=
  let eth := bytesBE 6 dstMac.toNat ++ bytesBE 6 srcMac.toNat ++ (match vlan with
    | some t => bytesBE 2 0x8100 ++ bytesBE 2 t.toNat
    | none => [])
  if v6 then
    eth ++ bytesBE 2 0x86DD ++ bytesBE 4 (0x60000000 + dscp.toNat * 4194304) ++ bytesBE 2 udp.length ++
      [17, Config.ipFields.truncate 8] ++ bytesBE 16 src.toNat ++ bytesBE 16 dst.toNat ++ udp
  else
    let a := [0x45, BitVec.ofNat 8 (4 * dscp.toNat)] ++ bytesBE 2 (20 + udp.length) ++ bytesBE 4 (Config.ipFields.extractLsb' 8 32).toNat ++
      [Config.ipFields.truncate 8, 17]
    let b := bytesBE 4 (src.truncate 32).toNat ++ bytesBE 4 (dst.truncate 32).toNat
    eth ++ bytesBE 2 0x0800 ++ a ++ bytesBE 2 (ipChecksum (a ++ b)) ++ b ++ udp

/-- The Ethernet frame of a stream's datagram (R263). -/
def streamPacket (n : StreamNet) (payload : List Byte) : List Byte :=
  ipFrame n.v6 n.dstMac n.srcMac n.vlan n.dscp n.srcIp n.dstIp (udpBytes n.srcPort n.dstPort payload)

/-! ## Handing frames over (R264, R268, R434) -/

/-- Phasor frames are held back during T_HANDOVER, and leave from the first t_r after it (R434). -/
def handoverHolds (s : State) (tr : LT) : Bool :=
  s.fo.handoverAt.isSome ||
  (match s.fo.streamFrom with
   | some t => decide (ltDiff tr t ≤ 0 ∧ ltDiff s.now t < secTu 10)
   | none => false)

/-- A frame of a stream handed to SE's output stage (R264). -/
def handFrame (k : Nat) (x : PeStream) (tr : LT) (s : State) : State :=
  let bytes := streamPacket x.cfg.net (dataFrame s x tr)
  let q := 8 + x.cfg.net.queue.val
  match sendPacket q 0 (descBytes { cls := x.cfg.net.cls.val, length := bytes.length }) bytes s with
  | (s, .ok) => gatePush q true k s
  | (s, _) => onPe (fun p => { p with quota := true }) (modStr k (fun x => { x with quota := true, gated := x.gated + 1 }) s)

/-- A stream after its next frame. -/
def strAfter (x : PeStream) (tr : LT) : PeStream :=
  let x := txState (advanceStr x) tr
  { x with nextK := x.nextK + 1, frameLate := false }

/-- DATA_FRAME_HANDOVER (R264): once every estimate of the stream's next frame has been released, the frame goes to SE's output stage, or is
not sent while transmission is off. -/
def execDataFrameHandover (k : Fin 64) (s : State) : Res :=
  let k := k.val
  match strTurn s k with
  | none => .next s
  | some (b, x, tr) =>
    if !s.pe.ready || !x.used || (strChans s x.cfg tr).any (fun c => (estAt s c tr).isNone) then .next s
    else
      let x := txState x tr
      let s := modTurn k b (fun x => strAfter x tr) s
      .next (if x.on && !handoverHolds s tr then handFrame k x tr s else s)

/-- CFG_CHANGE_TIMEOUT (R266): 60 s without a CFG-2 request. -/
def execCfgChangeTimeout (k : Fin 64) (s : State) : Res :=
  let x := getStr s k.val
  if x.cfgChg ∧ (secTu 60 : Int) ≤ ltDiff s.now x.cfgChgAt then .next (modStr k.val (fun x => { x with cfgChg := false }) s) else .next s

/-! ## Command frames (R268) -/

/-- A command frame for a stream that is enabled: counted, and acted on by the unit that holds the highest claim (R268, R413). -/
def c37Command (k : Fin 64) (act : PeStream → State → State) (s : State) : Res :=
  if !(getStr s k.val).used then .next s else
  let s := modStr k.val (fun x => { x with cmds := x.cmds + 1 }) s
  .next (if s.fo.gateOpen then act (getStr s k.val) s else s)

/-- A reply of SU to the sender of a command, by queue 0x14. -/
def c37Reply (x : PeStream) (to_ : C37Sender) (frame : List Byte) (s : State) : State :=
  let n := x.cfg.net
  let bytes := ipFrame to_.v6 to_.mac n.srcMac n.vlan n.dscp n.srcIp to_.ip (udpBytes n.cmdPort to_.port frame)
  (sendPacket 0x14 0 (descBytes { cls := n.cls.val, length := bytes.length }) bytes s).1

/-- A text in a field of 16 bytes. -/
def name16 (l : List Byte) : List Byte := (l ++ List.replicate 16 0x20).take 16

/-- One PMU block of a configuration frame (log 37). -/
def cfgPmu (s : State) (n : Nat) (p : PmuCfg) : List Byte :=
  name16 p.stn ++ bytesBE 2 p.idcode.toNat ++ bytesBE 2 p.format.toNat ++ bytesBE 2 p.phasors.length ++ bytesBE 2 p.analogs.length ++
  bytesBE 2 p.digitals.length ++ p.phasors.flatMap (fun e => name16 e.name) ++ p.analogs.flatMap (fun e => name16 e.name) ++
  (List.range (16 * p.digitals.length)).flatMap (fun i => bytesBE 16 (Config.c37Digital n i).toNat) ++
  p.phasors.flatMap (fun e => bytesBE 4 (bitN e.current * 16777216 + e.unit)) ++ p.analogs.flatMap (fun e => bytesBE 4 e.factor.toNat) ++
  (List.range p.digitals.length).flatMap (fun i => bytesBE 4 (Config.c37Digital n (65536 + i)).toNat) ++
  bytesBE 2 (bitN (chanF0 s p.freq == 50)) ++ bytesBE 2 (Config.c37CfgCount n).toNat

/-- CFG-1 or CFG-2 of a stream (R268; log 37). -/
def cfgFrame (s : State) (sync : Nat) (x : PeStream) : List Byte :=
  c37Frame sync (bytesBE 2 x.cfg.idcode.toNat ++ socBytes s x.cfg.timeBase s.now ++ bytesBE 4 x.cfg.timeBase ++ bytesBE 2 x.cfg.pmus.length ++
    ((List.range x.cfg.pmus.length).zip x.cfg.pmus).flatMap (fun e => cfgPmu s e.1 e.2) ++ bytesBE 2 x.cfg.fs)

/-- Command 0x0001 (R268). -/
def execC37CmdDataOff (k : Fin 64) (s : State) : Res :=
  c37Command k (fun _ s => modStr k.val (fun x => { x with txNext := some (false, s.now) }) s) s

/-- Command 0x0002 (R268). -/
def execC37CmdDataOn (k : Fin 64) (s : State) : Res :=
  c37Command k (fun _ s => modStr k.val (fun x => { x with txNext := some (true, s.now) }) s) s

/-- Command 0x0003 (R268): the header frame. -/
def execC37CmdHeader (k : Fin 64) (to_ : C37Sender) (s : State) : Res :=
  c37Command k (fun x s => c37Reply x to_
    (c37Frame 0xAA12 (bytesBE 2 x.cfg.idcode.toNat ++ socBytes s x.cfg.timeBase s.now ++ x.cfg.header)) s) s

/-- Command 0x0004 (R268). -/
def execC37CmdCfg1 (k : Fin 64) (to_ : C37Sender) (s : State) : Res :=
  c37Command k (fun x s => c37Reply x to_ (cfgFrame s 0xAA22 x) s) s

/-- Command 0x0005 (R266, R268): CFG-2, and STAT bit 10 clears. -/
def execC37CmdCfg2 (k : Fin 64) (to_ : C37Sender) (s : State) : Res :=
  c37Command k (fun x s => modStr k.val (fun x => { x with cfgChg := false }) (c37Reply x to_ (cfgFrame s 0xAA32 x) s)) s

/-- Command 0x0006 (R268): counted and ignored. -/
def execC37CmdUnsupported (k : Fin 64) (s : State) : Res := c37Command k (fun _ s => s) s

/-- Command 0x0008 (R268): counted and ignored. -/
def execC37CmdExtended (k : Fin 64) (s : State) : Res := c37Command k (fun _ s => s) s

/-! ## Staged opcodes (R272) -/

/-- A channel's settings in a configuration. -/
def viewChan (view : List Item) (n : Nat) : Option ChanCfg :=
  view.findSome? (fun i => match i with
    | .chan m c => if m = n ∧ c.en then some c else none
    | _ => none)

/-- The channels of a configuration. -/
def viewChans (view : List Item) : List (Nat × ChanCfg) :=
  view.filterMap (fun i => match i with
    | .chan n c => if c.en then some (n, c) else none
    | _ => none)

/-- R248, R630: one lane feeds at most one channel. -/
def chanCond (view : List Item) : Option Nat :=
  let l := viewChans view
  (l.find? (fun e => l.any (fun f => f.1 != e.1 && f.2.lane == e.2.lane))).map (·.1)

/-- A lane or a point of another owner (R248). -/
def chanDenied (s : State) (n : Nat) (c : ChanCfg) : Bool :=
  let o := shareOwner s .chan n
  c.en && (laneOwner s c.lane != o || [c.ptPhasor, c.ptFreq, c.ptRocof].any (fun p => match p with
    | some i => shareOwner s .point i != o
    | none => false))

/-- What PeStageChannels refuses, over the session's view with its items laid in (R626, R630). -/
def checkPeStageChannels (c : Cmd) (l : List (Nat × ChanCfg)) (view : List Item) (s : State) : Option Status :=
  if l.any (fun e => outsideShare c .chan e.1 s || chanDenied s e.1 e.2) then some .denied
  else if l.any (fun e => decide (1024 ≤ e.1 ∨ e.2.div < 1 ∨ 65536 < e.2.div)) || (chanCond view).isSome then some .badParam
  else none

/-- PE_STAGE_CHANNELS (R248, R261, R272). -/
def execPeStageChannels (c : Cmd) (l : List (Nat × ChanCfg)) (s : State) : Res :=
  stage 0x0701 true c (l.map (fun e => .chan e.1 e.2)) (checkPeStageChannels c l) s

/-- The sets of a configuration. -/
def viewSets (view : List Item) : List (Nat × SetCfg) :=
  view.filterMap (fun i => match i with
    | .pset n c => if c.en then some (n, c) else none
    | _ => none)

/-- What the three channels of a set share (R249): group, P, class settings and rate. -/
def setKey (view : List Item) (n : Nat) : Option (Nat × Nat × PhClass × PhWindow × Nat × Nat × Nat) :=
  (viewChan view n).bind (fun c => (viewLane view c.lane).map (fun l => (l.group, l.p, c.cls, c.win, c.w, c.b, c.fe)))

/-- R249, R630: the first set whose channels disagree or belong to another set too. -/
def setCond (s : State) (view : List Item) : Option Nat :=
  let l := viewSets view
  let uses (k : SetCfg) (n : Nat) : Bool := k.a == n || k.b == n || k.c == n
  (l.find? (fun e =>
    let k := e.2
    (setKey view k.a).isNone || setKey view k.a != setKey view k.b || setKey view k.a != setKey view k.c ||
    shareOwner s .chan k.a != shareOwner s .chan k.b || shareOwner s .chan k.a != shareOwner s .chan k.c || k.a == k.b || k.a == k.c || k.b == k.c ||
    l.any (fun f => f.1 != e.1 && [k.a, k.b, k.c].any (uses f.2)))).map (·.1)

/-- What PeStageSets refuses, over the session's view with its items laid in (R626, R630). -/
def checkPeStageSets (c : Cmd) (l : List (Nat × SetCfg)) (view : List Item) (s : State) : Option Status :=
  if l.any (fun e => outsideShare c .set_ e.1 s) then some .denied
  else if l.any (fun e => decide (341 ≤ e.1 ∨ e.2.div < 1 ∨ 65536 < e.2.div)) || (setCond s view).isSome then some .badParam
  else none

/-- PE_STAGE_SETS (R249, R261). -/
def execPeStageSets (c : Cmd) (l : List (Nat × SetCfg)) (s : State) : Res :=
  stage 0x0702 true c (l.map (fun e => .pset e.1 e.2)) (checkPeStageSets c l) s

/-- Bytes of a stream's Ethernet frame with FCS (R263). -/
def streamBytes (c : StreamCfg) : Nat :=
  let pmu (p : PmuCfg) : Nat := 2 + p.phasors.length * (if p.format.getLsbD 1 then 8 else 4) + (if p.format.getLsbD 3 then 8 else 4) +
    p.analogs.length * (if p.format.getLsbD 2 then 4 else 2) + 2 * p.digitals.length
  14 + (if c.net.vlan.isSome then 4 else 0) + (if c.net.v6 then 40 else 20) + 8 + 14 + (c.pmus.map pmu).sum + 2 + 4

/-- A stream setting outside its range (R259, R263, R265, R267). -/
def streamBad (c : StreamCfg) : Bool :=
  decide (1536 < streamBytes c ∨ c.pmus.length < 1 ∨ 32 < c.pmus.length ∨ c.timeBase < 1 ∨ 16777215 < c.timeBase ∨ c.fs < 1) ||
  (match c.lmaxMs with
   | some ms => decide (ms < 10 ∨ 1000 < ms)
   | none => false) ||
  decide (16 < (c.pmus.map (fun p => p.analogs.length)).sum ∨ 8 < (c.pmus.map (fun p => p.digitals.length)).sum) ||
  c.pmus.any (fun p => p.phasors.any (fun x => decide (x.unit < 1 ∨ 16777215 < x.unit)))

/-- A channel, set or point of another owner in a stream (R263). -/
def streamDenied (s : State) (view : List Item) (n : Nat) (c : StreamCfg) : Bool :=
  let o := shareOwner s .stream n
  c.pmus.any (fun p => shareOwner s .chan p.freq != o || p.phasors.any (fun x => match x.src with
      | .chan m => shareOwner s .chan m != o
      | .seq m _ => shareOwner s .set_ m != o) ||
    (p.analogs.map (·.point) ++ p.digitals).any (fun i => !pointFor s view o i))

/-- What PeStageStreams refuses, over the session's view with its items laid in (R626, R630). -/
def checkPeStageStreams (c : Cmd) (l : List (Nat × StreamCfg)) (view : List Item) (s : State) : Option Status :=
  if l.any (fun e => outsideShare c .stream e.1 s || (e.2.en && streamDenied s view e.1 e.2)) then some .denied
  else if l.any (fun e => decide (64 ≤ e.1) || (e.2.en && streamBad e.2)) then some .badParam
  else none

/-- PE_STAGE_STREAMS (R263). -/
def execPeStageStreams (c : Cmd) (l : List (Nat × StreamCfg)) (s : State) : Res :=
  stage 0x0703 true c (l.map (fun e => .stream e.1 e.2)) (checkPeStageStreams c l) s

/-! ## Immediate opcodes (R272) -/

/-- The 48 bytes of a result record (R272; log 50). -/
def resBytes (r : PeRes) : List Byte :=
  bytesLE 8 r.tr.toNat ++ bytesLE 4 r.re.toNat ++ bytesLE 4 r.im.toNat ++ bytesLE 4 r.freq.toNat ++ bytesLE 4 r.rocof.toNat ++
  bytesLE 2 r.q.toNat ++ [r.flags, 0] ++ bytesLE 4 r.seq.toNat ++ List.replicate 16 0

/-- Part n of PeReadResults (R89). -/
def partPeReadResults (c : Cmd) (base : Nat) (n : Nat) (s : State) : State × Status × List Byte :=
  let k := base + n
  if 1024 ≤ k then (s, .badParam, [])
  else if outsideShare c .chan k s then (s, .denied, [])
  else (s, .ok, resBytes (getChan s k).res)

/-- PE_READ_RESULTS (R262, R272). -/
def execPeReadResults (c : Cmd) (base : Nat) (mask : BitVec 64) (s : State) : Res :=
  multi 0x0710 true c mask (partPeReadResults c base) s

/-- One part of PE_STREAM_TX (R272). -/
def streamTx (c : Cmd) (base : Nat) (on : Bool) (n : Nat) (s : State) : State × Status × List Byte :=
  let k := base + n
  if 64 ≤ k then (s, .badParam, [])
  else if outsideShare c .stream k s then (s, .denied, [])
  else if !(getStr s k).used then (s, .notReady, [])
  else (modStr k (fun x => { x with txNext := some (on, s.now) }) s, .ok, [])

/-- PE_STREAM_TX with bit 0 = 1 (R272). -/
def execPeStreamTxOn (c : Cmd) (base : Nat) (mask : BitVec 64) (s : State) : Res := multi 0x0711 true c mask (streamTx c base true) s

/-- PE_STREAM_TX with bit 0 = 0 (R272). -/
def execPeStreamTxOff (c : Cmd) (base : Nat) (mask : BitVec 64) (s : State) : Res := multi 0x0711 true c mask (streamTx c base false) s

/-- Part n of PeReadCounters (R89). -/
def partPeReadCounters (c : Cmd) (base : Nat) (n : Nat) (s : State) : State × Status × List Byte :=
  let k := base + n
  let x := getStr s k
  if 64 ≤ k then (s, .badParam, [])
  else if outsideShare c .stream k s then (s, .denied, [])
  else (modStr k (fun x => { x with sent := 0, gated := 0, lateFrames := 0, cmds := 0 }) s, .ok,
    [x.sent, x.gated, x.lateFrames, x.cmds].flatMap (fun v => bytesLE 8 v.toNat))

/-- PE_READ_COUNTERS (R271, R272). -/
def execPeReadCounters (c : Cmd) (base : Nat) (mask : BitVec 64) (s : State) : Res :=
  multi 0x0712 true c mask (partPeReadCounters c base) s

/-! ## The commit (R88, R257) -/

/-- What a channel takes from its lane at a commit (R248, R254, R255). -/
def laneTaken (s : State) (x : PeChan) : PeChan :=
  let l := chanLane s x
  { x with src := l.cfg, fIn := l.fIn, sixty := (getTrk s l.cfg.group).cfg.sixty }

/-- A channel as a commit leaves it (R257, R270): what the host clears, the record, the counter and the released estimates stand. -/
def freshChan (x : PeChan) : PeChan :=
  { degraded := x.degraded, restart := x.restart, late := x.late, range := x.range, res := x.res, estimates := x.estimates, hist := x.hist }

/-- A channel under the new configuration; `old` is PE before the commit. A changed channel, or one whose lane has restarted, still releases
the estimates before it (R88). -/
def commitChan (t : LT) (old : PeState) (view : List Item) (n : Nat) (s : State) : State :=
  let x := old.ch.getD n {}
  let drain (s : State) : State :=
    if x.state = .disabled ∨ !s.pe.ready then s
    else onPe (fun p => { p with drain := p.drain.filter (fun e => e.1 != n) ++ [(n, t, { x with before := true })] }) s
  let laneMoved := s.fr.drain.any (fun e => e.1 == x.cfg.lane && e.2.1 == t)
  match viewChan view n with
  | none => if x.state = .disabled then s else drain (onPe (fun p => { p with ch := p.ch.put n (freshChan x) }) s)
  | some c =>
    if x.state ≠ .disabled ∧ x.cfg = c then
      let s := if laneMoved then drain s else s
      onPe (fun p => { p with ch := p.ch.put n (laneTaken s (getChan s n)) }) s
    else
      drain (onPe (fun p => { p with ch := p.ch.put n (laneTaken s { freshChan x with
        cfg := c, owner := shareOwner s .chan n, state := .settling, restart := true, secs := [gridStart s]
        nextK := firstIndex (gridStart s) c.fe t }) }) s)

/-- A stream as a commit leaves it (R271): what the host clears and the counters stand. -/
def freshStr (x : PeStream) : PeStream :=
  { late := x.late, quota := x.quota, sent := x.sent, gated := x.gated, lateFrames := x.lateFrames, cmds := x.cmds }

/-- A stream under the new configuration (R266, R268). -/
def commitStr (t : LT) (old : PeState) (view : List Item) (n : Nat) (s : State) : State :=
  let x := old.str.getD n {}
  let drain (s : State) : State :=
    if !x.used ∨ !s.pe.ready then s else onPe (fun p => { p with strDrain := p.strDrain.filter (fun e => e.1 != n) ++ [(n, t, x)] }) s
  let new := view.findSome? (fun i => match i with
    | .stream m c => if m = n ∧ c.en then some c else none
    | _ => none)
  match new with
  | none => if !x.used then s else drain (onPe (fun p => { p with str := p.str.put n (freshStr x) }) s)
  | some c =>
    if x.used ∧ x.cfg = c then s
    else
      drain (onPe (fun p => { p with str := p.str.put n { freshStr x with
        cfg := c, owner := shareOwner s .stream n, used := true, on := c.tx, secs := [gridStart s]
        nextK := firstIndex (gridStart s) c.fs t, cfgChg := true, cfgChgAt := t } }) s)

/-- The commit in PE; `old` is PE before the commit. While PD5 is off its channels and streams take their settings and wait. -/
def peCommit (t : LT) (old : PeState) (active : List Item) (s : State) : State :=
  let sets : Tab Nat PeSet := (viewSets active).map (fun e =>
    let x := old.sets.getD e.1 {}
    (e.1, if x.cfg = e.2 then x else ({ cfg := e.2 } : PeSet)))
  let s := onPe (fun p => { p with sets := sets, setsOld := some (t, old.sets) }) s
  let cs := (old.ch.map (·.1) ++ (viewChans active).map (·.1)).dedup
  let s := cs.foldl (fun s n => commitChan t old active n s) s
  (List.range 64).foldl (fun s n => commitStr t old active n s) s

/-- A grid second in PE: every channel and stream has a further second to report (R250, R264). -/
def peSecond (ltS : LT) (s : State) : State :=
  let c (x : PeChan) : PeChan := if x.state = .disabled then x else { x with secs := x.secs ++ [ltS] }
  let f (x : PeStream) : PeStream := if x.used then { x with secs := x.secs ++ [ltS] } else x
  onPe (fun p => { p with
    ch := p.ch.map (fun e => (e.1, c e.2)), drain := p.drain.map (fun e => (e.1, e.2.1, c e.2.2))
    str := p.str.map (fun e => (e.1, f e.2)), strDrain := p.strDrain.map (fun e => (e.1, e.2.1, f e.2.2))
    setsOld := p.setsOld.filter (fun e => decide (ltDiff ltS e.1 < secTu 5)) }) s

/-- PD5 goes off. -/
def peOff (s : State) : State := onPe (fun p => { p with ready := false, drain := [], strDrain := [] }) s

/-- PD5 is on: channels restart with their lanes (R257), and reporting goes on from now. -/
def peOn (s : State) : State :=
  let c (x : PeChan) : PeChan :=
    if x.state = .disabled then x
    else { x with state := .settling, restart := true, line := [], secs := [gridStart s], nextK := firstIndex (gridStart s) x.cfg.fe s.now }
  let f (x : PeStream) : PeStream := if x.used then { x with secs := [gridStart s], nextK := firstIndex (gridStart s) x.cfg.fs s.now } else x
  onPe (fun p => { p with ready := true, ch := p.ch.map (fun e => (e.1, c e.2)), str := p.str.map (fun e => (e.1, f e.2)) }) s

end Sys2Proof.Machine
end

