-- ==== Sys2Proof/Machine/Stream.lean ====
section
/-! DEFINITION. Meanings of the Stream Engine commands (chapter 07), of the end of T_HANDOVER (R434), and what a commit does in SE. -/

namespace Sys2Proof.Machine

/-- SE takes the next frame of an INGEST queue, unless a word of it carries an uncorrectable error (R182, R195): its receive timestamp. -/
def takeIngest (q : Nat) (guard : Option GuardFind) (s : State) : Option LT × State :=
  let (ws, s) := takePacket q s
  let (guard, s) := guardRead 0x3 guard s
  match guard with
  | some h => (none, queueGuard 0 h s)
  | none => (some (BitVec.ofNat 64 (ofBytesLE ((headerOf ws).take 8))), s)

/-- SV_FRAME_RECEIVE (R201–R209): the next frame of an INGEST queue is an SV frame, read as `f` (log 55). -/
def execSvFrameReceive (q : Fin 8) (f : SvFrame) (guard : Option GuardFind) (s : State) : Res :=
  if !s.se.ready || (getQ s q.val).words.isEmpty then .next s else
  match takeIngest q.val guard s with
  | (none, s) => .next s
  | (some rx, s) =>
    match drainMatch s rx f, svMatch s.se.svCfg f with
    | some n, _ => .next (takeSvFrame true n rx f s)
    | none, some n => .next (takeSvFrame false n rx f s)
    | none, none => .next (onSe (fun x => { x with unmatched := x.unmatched + 1 }) s)

/-- GOOSE_FRAME_RECEIVE (R201–R204, R213, R214): the next frame of an INGEST queue is a GOOSE frame, read as `f`. -/
def execGooseFrameReceive (q : Fin 8) (f : GoFrame) (guard : Option GuardFind) (s : State) : Res :=
  if !s.se.ready || (getQ s q.val).words.isEmpty then .next s else
  match takeIngest q.val guard s with
  | (none, s) => .next s
  | (some rx, s) =>
    match (sortBy (·.1) s.se.gsCfg).find? (fun e => e.2.en && e.2.gocbRef == f.gocbRef && keyMatches e.2.key f.key) with
    | none => .next (onSe (fun x => { x with unmatched := x.unmatched + 1 }) s)
    | some (n, c) =>
      match goFailure s c (getGs s n) f with
      | some .auth =>
        .next (authFailed c.owner 1 n (authCheck s c.authReq true f.key c.keyCur c.keyNext f.auth).2
          (modGs n (fun x => { x with authErr := true, invalid := x.invalid + 1 }) s))
      | some .confRev => .next (modGs n (fun x => { x with confRevErr := true, invalid := x.invalid + 1 }) s)
      | some .other => .next (modGs n (fun x => { x with invalid := x.invalid + 1 }) s)
      | none => .next (takeGoose n rx f s)

/-- INSTANT_RELEASE (R208): the group's earliest open instant is released once every LOCKED stream has delivered, or at t_first + W. -/
def execInstantRelease (g : Fin 16) (s : State) : Res :=
  match (getGroup s g.val).instants with
  | [] => .next s
  | i :: _ =>
    let tag := instantLt s i.sec i.k i.rate
    let l := instantStreams s g.val tag
    if s.se.ready && (instantComplete s i l || ltReached s.now (ltAdd i.tFirst (usTu (groupCfgAt s g.val tag).tolUs))) then
      .next (releaseInstant g.val i tag l s)
    else .next s

/-- Frames have started and a firing lies off their boundaries (R358). -/
def offBoundary (s : State) (t : LT) : Bool :=
  s.fb.framed && decide ((ltDiff t s.fb.frameLt).emod (s.fb.ticks * tickTu : Nat) ≠ 0)

/-- GRID_SECOND (R206): TCU3 fires and opens a second; a frame that contains the firing is cut there (R358). -/
def execGridSecond (s : State) : Res :=
  if !tcuDue s 3 then .next s else
  let t := (getTcu s 3).target
  let before := gridStart s
  let moved := decide (s.se.secNo ≠ 0 ∧ ltDiff t before ≠ secTu 1)
  let s := fireTcu 3 s
  let s := onSe (fun x => { x with hist := ((x.secNo, before) :: x.hist).take 4, ltS := t, secNo := x.secNo + 1 }) s
  let s := if offBoundary s t then cutFrame before t s else s
  .next (arSecond t (peSecond t (frSecond t moved s)))

/-- TAL_EXPIRY (R214): a subscription's supervision timer ends, after the values of its frame have been written. -/
def execTalExpiry (n : Fin 1024) (s : State) : Res :=
  let n := n.val
  let x := getGs s n
  match x.talAt, s.se.gsCfg.get? n with
  | some t, some c =>
    if !s.se.ready || decide (s.abs < t) || (allBatches s).any (fun b => b.src == .goose) then .next s else
    let s := modGs n (fun x => { x with state := .talExpired, talAt := none }) s
    let s := raiseArg 0x2B c.owner (BitVec.ofNat 32 n) (onSe (fun x => { x with talExp := true }) s)
    .next (sendBatch .goose (((List.range c.members.length).zip c.members).filterMap (fun e =>
      match e.2.type, e.2.point.bind (fun p => (getPoint s p).map (fun r => (p, r))) with
      | .quality, _ => none
      | _, some (p, r) => some { index := p, value := r.value, quality := (r.quality &&& ~~~3) ||| qInvalid ||| qOldData, lt := r.lt,
                                 writer := .goose n e.1 }
      | _, none => none)) s)
  | _, _ => .next s

/-- The block is published, and no GOOSE frame is held back (R434). -/
def mayPublish (s : State) (p : Nat) : Bool :=
  s.se.ready && ((s.se.gpCfg.get? p).map (·.en)).getD false && s.fo.handoverAt.isNone

/-- GOOSE_PUBLISH (R216): a noted state change is sent with stNum + 1 and sqNum 0. -/
def execGoosePublish (p : Fin 256) (s : State) : Res :=
  match (getGp s p.val).pendingAt with
  | some t => if mayPublish s p.val then .next (newGoState p.val t false s) else .next s
  | none => .next s

/-- GOOSE_RETRANSMIT (R216): the interval has passed; the next one is F times as long, T0 at most. -/
def execGooseRetransmit (p : Fin 256) (s : State) : Res :=
  let c := s.se.gpCfg.getD p.val {}
  let g := getGp s p.val
  match g.nextAt with
  | some t =>
    if mayPublish s p.val && g.pendingAt.isNone && ltReached s.now t then
      let i := min (g.interval * c.f) c.t0
      .next (sendGoose p.val (2 * i) (modGp p.val (fun g => { g with sqNum := goNext g.sqNum, interval := i, nextAt := some (ltAdd s.now (msTu i)) }) s))
    else .next s
  | none => .next s

/-- HANDOVER_END (R434, R436): the first frame of every block, ascending; phasor frames leave from the first t_r after it. -/
def execHandoverEnd (s : State) : Res :=
  match s.fo.handoverAt with
  | some t =>
    if !ltReached s.now t then .next s else
    let claim := s.fo.claimAt
    let s := onFo (fun f => { f with handoverAt := none, streamFrom := some t }) s
    .next ((List.range 256).foldl (fun s p => if mayPublish s p then newGoState p claim true s else s) s)
  | none => .next s

/-! ## Staged opcodes (R205, R215, R222) -/

/-- The group settings of a configuration. -/
def viewGroup (view : List Item) (g : Nat) : GroupCfg :=
  (view.findSome? (fun i => match i with
    | .group n c => if n.val = g then some c else none
    | _ => none)).getD {}

/-- R205, R630: the first subscription whose rate differs from its group's. -/
def svCond (view : List Item) : Option Nat :=
  view.findSome? (fun i => match i with
    | .svSub n c => if c.en ∧ c.rate ≠ (viewGroup view c.group.val).rate then some n else none
    | _ => none)

/-- A group setting outside its range (R205); W is judged by check 0x5002. -/
def groupBad (c : GroupCfg) : Bool :=
  !(c.rate == 4800 || c.rate == 14400 || c.rate == 96000) || decide (c.mSub < 1 ∨ 16 < c.mSub ∨ c.lockK < 1 ∨ 255 < c.lockK)

/-- What SeStageGroups refuses, over the session's view with its items laid in (R626, R630). -/
def checkSeStageGroups (l : List (Fin 16 × GroupCfg)) (lockMs : Option Nat) (_view : List Item) (_s : State) : Option Status :=
  if l.any (fun e => groupBad e.2) || (match lockMs with
    | some n => decide (n < 100 ∨ 30000 < n)
    | none => false) then some .badParam else none

/-- SE_STAGE_GROUPS (R205, R212, R554). -/
def execSeStageGroups (c : Cmd) (l : List (Fin 16 × GroupCfg)) (lockMs : Option Nat) (s : State) : Res :=
  let items := l.map (fun e => Item.group e.1 e.2) ++ (match lockMs with
    | some n => [Item.lockTimeout n]
    | none => [])
  stage 0x0501 false c items (checkSeStageGroups l lockMs) s

/-- What SeStageSv refuses, over the session's view with its items laid in (R626, R630). -/
def checkSeStageSv (c : Cmd) (l : List (Nat × SvCfg)) (view : List Item) (s : State) : Option Status :=
  if l.any (fun e => outsideShare c .svSub e.1 s || (issuer c != 0 && e.2.en && e.2.owner != issuer c)) then some .denied
  else if l.any (fun e => decide (512 ≤ e.1) || (e.2.en && decide (e.2.chans.length < 1 ∨ 24 < e.2.chans.length ∨
      e.2.rate ≠ (viewGroup view e.2.group.val).rate))) then some .badParam
  else none

/-- SE_STAGE_SV (R199, R200, R205, R222). -/
def execSeStageSv (c : Cmd) (l : List (Nat × SvCfg)) (s : State) : Res :=
  stage 0x0502 true c (l.map (fun e => .svSub e.1 e.2)) (checkSeStageSv c l) s

/-- What SeStageGooseSub refuses, over the session's view with its items laid in (R626, R630). -/
def checkSeStageGooseSub (c : Cmd) (l : List (Nat × GoSubCfg)) (_view : List Item) (s : State) : Option Status :=
  if l.any (fun e => outsideShare c .goSub e.1 s || (issuer c != 0 && e.2.en && e.2.owner != issuer c)) then some .denied
  else if l.any (fun e => decide (1024 ≤ e.1) || (e.2.en && decide (e.2.members.length < 1 ∨ 256 < e.2.members.length))) then some .badParam
  else none

/-- SE_STAGE_GOOSE_SUB (R213, R222). -/
def execSeStageGooseSub (c : Cmd) (l : List (Nat × GoSubCfg)) (s : State) : Res :=
  stage 0x0503 true c (l.map (fun e => .goSub e.1 e.2)) (checkSeStageGooseSub c l) s

/-- A publication setting outside its range (R215, R216). -/
def goPubBad (c : GoPubCfg) : Bool :=
  decide (c.members.length < 1 ∨ 256 < c.members.length ∨ c.t1 < 1 ∨ 100 < c.t1 ∨ c.f < 1 ∨ 8 < c.f ∨ c.t0 < 100 ∨ 60000 < c.t0)

/-- What SeStageGoosePub refuses, over the session's view with its items laid in (R626, R630). -/
def checkSeStageGoosePub (c : Cmd) (l : List (Nat × GoPubCfg)) (_view : List Item) (s : State) : Option Status :=
  if l.any (fun e => outsideShare c .goPub e.1 s || (issuer c != 0 && e.2.en && e.2.owner != issuer c)) then some .denied
  else if l.any (fun e => decide (256 ≤ e.1) || (e.2.en && goPubBad e.2)) then some .badParam
  else none

/-- SE_STAGE_GOOSE_PUB (R215, R216, R222). -/
def execSeStageGoosePub (c : Cmd) (l : List (Nat × GoPubCfg)) (s : State) : Res :=
  stage 0x0504 true c (l.map (fun e => .goPub e.1 e.2)) (checkSeStageGoosePub c l) s

/-! ## Immediate opcodes (R222) -/

/-- Part n of SeReadCounters (R89). -/
def partSeReadCounters (c : Cmd) (base : Nat) (n : Nat) (s : State) : State × Status × List Byte :=
  let k := base + n
  if 512 ≤ k then (s, .badParam, [])
  else if outsideShare c .svSub k s then (s, .denied, [])
  else (modSv k (fun x => { x with ctr := .replicate 6 0 }) s, .ok, counterBytes (getSv s k).ctr)

/-- SE_READ_COUNTERS (R220, R222). -/
def execSeReadCounters (c : Cmd) (base : Nat) (mask : BitVec 64) (s : State) : Res :=
  multi 0x0510 true c mask (partSeReadCounters c base) s

/-- Part n of SeStreamRelock (R89). -/
def partSeStreamRelock (base : Nat) (n : Nat) (s : State) : State × Status × List Byte :=
  let k := base + n
  if 512 ≤ k then (s, .badParam, [])
  else if (getSv s k).state = .idle then (s, .notReady, [])
  else (judgeReady (svCfgOf s false k).group.val (setSvState false k .acquire (modSv k (fun x => { x with good := 0 }) s)), .ok, [])

/-- SE_STREAM_RELOCK (R222). -/
def execSeStreamRelock (c : Cmd) (base : Nat) (mask : BitVec 64) (s : State) : Res :=
  multi 0x0511 false c mask (partSeStreamRelock base) s

/-! ## The commit (R88, R204, R209) -/

/-- The subscriptions of a configuration. -/
def viewSvs (view : List Item) : Tab Nat SvCfg :=
  view.filterMap (fun i => match i with
    | .svSub n c => if c.en then some (n, c) else none
    | _ => none)

/-- A subscription under the new configuration: a changed one starts anew, and still serves the grid instants before the commit. -/
def commitSv (t : LT) (old : SeState) (new : Tab Nat SvCfg) (n : Nat) (s : State) : State :=
  let was := old.svCfg.get? n
  if was = new.get? n then s else
  let x := old.sv.getD n {}
  let c := new.get? n
  let rateMoved := match was, c with
    | some a, some b => a.rate != b.rate
    | _, _ => false
  let st' : SvState := if rateMoved && x.state != .idle then .acquire else .idle
  let d : SvDrain := { sub := n, upTo := t, cfg := was.getD { en := false }, st := x }
  let s := onSe (fun y => { y with svDrain := y.svDrain.filter (fun e => e.sub != n) ++ [d] }) s
  setSvState false n st' (modSv n (fun y => { y with
    sim := y.sim && (match c with
      | some c => c.simAccept
      | none => false)
    syncOk := false, sec := none, good := 0, subRun := 0, lastGood := [], seen := false }) s)

/-- A group under the new configuration. -/
def commitGroup (t : LT) (view : List Item) (g : Nat) (s : State) : State :=
  let c := viewGroup view g
  if (getGroup s g).cfg = c then s else modGroup g (fun x => { x with cfg := c, old := some (t, x.cfg) }) s

/-- The GOOSE subscriptions and blocks under the new configuration; a block newly in force sends its first state at once (log 54). -/
def commitGoose (t : LT) (view : List Item) (s : State) : State :=
  let subs : Tab Nat GoSubCfg := view.filterMap (fun i => match i with
    | .goSub n c => if c.en then some (n, c) else none
    | _ => none)
  let pubs : Tab Nat GoPubCfg := view.filterMap (fun i => match i with
    | .goPub n c => if c.en then some (n, c) else none
    | _ => none)
  let old := s.se
  let s := onSe (fun x => { x with gsCfg := subs, gpCfg := pubs }) s
  let gone := old.gsCfg.map (·.1) ++ subs.map (·.1)
  let s := gone.dedup.foldl (fun s n =>
    if old.gsCfg.get? n = subs.get? n then s
    else modGs n (fun x => { x with
      state := .idle, seen := false, talAt := none, stNum := 0, sqNum := 0
      sim := x.sim && (match subs.get? n with
        | some c => c.simAccept
        | none => false) }) s) s
  (old.gpCfg.map (·.1) ++ pubs.map (·.1)).dedup.foldl (fun s p =>
    if old.gpCfg.get? p = pubs.get? p then s
    else modGp p (fun g => { g with pendingAt := if (pubs.get? p).isSome then some t else none, nextAt := none, interval := 0 }) s) s

/-- The commit in SE. -/
def seCommit (t : LT) (active : List Item) (s : State) : State :=
  let old := s.se
  let new := viewSvs active
  let s := (List.range 16).foldl (fun s g => commitGroup t active g s) s
  let s := onSe (fun x => { x with svCfg := new }) s
  let s := (old.svCfg.map (·.1) ++ new.map (·.1)).dedup.foldl (fun s n => commitSv t old new n s) s
  (List.range 16).foldl (fun s g => judgeReady g s) (commitGoose t active s)

/-! ## PD5 -/

/-- PD5 goes off: streams and open instants are lost (R538). -/
def seOff (s : State) : State :=
  let s := onSe (fun x => { x with ready := false, svDrain := [], group := x.group.map (fun g => { g with instants := [], old := none }) }) s
  let s := (s.se.sv.map (·.1)).foldl (fun s n => setSvState false n .idle (modSv n (fun x => { x with good := 0, sec := none, lastGood := [], seen := false }) s)) s
  (List.range 16).foldl (fun s g => judgeReady g s) s

/-- PD5 is on. -/
def seOn (s : State) : State := onSe (fun x => { x with ready := true }) s

end Sys2Proof.Machine
end

