-- ==== Sys2Proof/Machine/LogOps.lean ====
section
/-! DEFINITION. The platform event log (R575–R579). -/

namespace Sys2Proof.Machine

/-- Records the log holds (R575). -/
def logMax : Nat := 65536

/-- 16 or fewer records of the platform log are free (R74, R578). -/
def logFull (s : State) : Bool := decide (65520 ≤ s.log.recs.length)

/-- What follows from the number of records held (R578): each event is raised once until the log is cleared. -/
def logStage (s : State) : State :=
  let n := s.log.recs.length
  let s := onLog (fun l => { l with warn := decide (57344 ≤ n), full := decide (65520 ≤ n) }) s
  let s := if 57344 ≤ n ∧ !s.log.warnRaised then raise 0x04 0 (onLog (fun l => { l with warnRaised := true }) s) else s
  if 65520 ≤ n ∧ !s.log.fullRaised then raise 0x05 0 (onLog (fun l => { l with fullRaised := true }) s) else s

/-- SU_LOG_LOST one higher, saturating (R580). -/
def lostRec (s : State) : State := onLog (fun l => { l with lost := satInc l.lost }) s

/-- A record joins the log with the next SEQ and the operating time and power cycles at writing (R575, R577), as far as the log takes it (R578). -/
def writeRec (r : LogRec) (s : State) : State :=
  let n := s.log.recs.length
  if 65520 ≤ n ∧ (r.type = 8 ∨ r.type = 9 ∨ r.type = 10) then lostRec s
  else if logMax ≤ n then (if r.type = 2 ∨ r.type = 3 then lostRec s else s)
  else
    logStage (onLog (fun l => { l with
      recs := l.recs ++ [{ r with seq := l.first + BitVec.ofNat 32 n, opsecs := s.pa.opsecs, pwrCycles := s.pa.pwrCycles }] }) s)

/-- Every record whose occurrence has happened written, in order (R577). -/
def writePending (s : State) : State :=
  s.log.pendingRecs.foldl (fun s r => writeRec r s) (onLog (fun l => { l with pendingRecs := [] }) s)

/-- SU_LOG_NEWEST (R580). -/
def logNewest (s : State) : BitVec 32 := s.log.first + BitVec.ofNat 32 s.log.recs.length - 1

/-- The record of a logged command (R576): its opcode and status, and what it concerns. -/
def logCommand (c : Tag) (op : BitVec 16) (status : BitVec 16) (arg : Nat) (s : State) : State :=
  logRec 0x0007 0xFF c s.now (pack [(op.toNat, 0), (status.toNat, 16)]) (BitVec.ofNat 32 arg) s

/-- LOG_RECORD_WRITE (R577): SU writes the oldest record whose occurrence has happened; not while the log is being cleared (R579). -/
def execLogRecordWrite (s : State) : Res :=
  if s.log.clearing then .next s else
  match s.log.pendingRecs with
  | [] => .next s
  | r :: l => .next (writeRec r (onLog (fun x => { x with pendingRecs := l }) s))

/-- A command that KV's engine carries out and that is logged: it brings a key into a slot (R486). -/
def kvLogged (r : KvReq) : Bool :=
  match r.op with
  | .agree _ _ _ => true
  | .generate _ _ => true
  | _ => false

/-- Whether a logged command is in execution (R579): an ARMED commit, a flash write, a commit whose applied record is to come, a key on its way
into a slot, a revocation whose journal stands, or a record still to be written. -/
def loggedRunning (s : State) : Bool :=
  s.kv.reqs.any kvLogged || s.kv.journal.isSome || s.su.armed.isSome || s.su.pkg.persistDue.isSome || s.log.pendingRecs.any (fun r => r.type == 7 || r.type == 4 || r.type == 5) ||
  (match s.su.pkg.loading with
   | some (_, .writing, _) => true
   | some (_, .verifying, _) => s.su.pkg.loadStore
   | none => false)

/-- LOG_CLEAR_WRITE (R579): a write of SU_LOG_NEWEST starts the clear; any other sets CLEAR_REFUSED. -/
def execLogClearWrite (v : BitVec 32) (s : State) : Res :=
  if !s.glob.ready then .next s
  else if v = logNewest s ∧ !s.log.clearing ∧ !loggedRunning s then .next (onLog (fun l => { l with clearing := true }) s)
  else .next (onLog (fun l => { l with clearRefused := true }) s)

/-- LOG_CLEAR_DONE (R579): the new log starts behind the old one with the log-cleared record. -/
def execLogClearDone (s : State) : Res :=
  if !s.log.clearing then .next s else
  let n := s.log.recs.length
  let lost := s.log.lost
  let s := onLog (fun l => { l with
    first := l.first + BitVec.ofNat 32 n, recs := [], lost := 0, warn := false, full := false, warnRaised := false, fullRaised := false
    clearing := false }) s
  .next (writeRec { type := 1, source := 0xFF, lt := s.now, arg0 := BitVec.ofNat 32 n, arg1 := lost } s)

end Sys2Proof.Machine
end

