-- ==== Sys2Proof/Machine/KeyStore.lean ====
section
/-! DEFINITION. How KV holds keys in MRAM (R477, R482, R493–R495): the root key, the storage key of a slot, sealed copies and commit words. -/

namespace Sys2Proof.Machine

/-- TYPE codes (R483). -/
def keyCode : KeyType → Nat
  | .empty => 0 | .aes128 => 1 | .aes256 => 2 | .hmac => 3 | .kdk => 4 | .p256Priv => 5 | .p384Priv => 6 | .p256Pub => 7 | .p384Pub => 8

/-- The type of a code; none for a reserved code. -/
def keyOfCode (n : Nat) : Option KeyType :=
  ([.empty, .aes128, .aes256, .hmac, .kdk, .p256Priv, .p384Priv, .p256Pub, .p384Pub] : List KeyType)[n]?

/-- AES types (R490). -/
def isAes (t : KeyType) : Bool := t == .aes128 || t == .aes256

/-- The fields of R482 without MATERIAL and TAG. -/
def slotBytes (x : KeySlot) : List Byte :=
  bytesLE 4 x.gen.toNat ++ [BitVec.ofNat 8 (keyCode x.type), x.level.zeroExtend 8] ++ bytesLE 2 x.parent.toNat ++
  [BitVec.ofNat 8 x.owner, BitVec.ofNat 8 (bitN x.exportable + 2 * bitN x.compat + 4 * bitN x.plain)] ++ bytesLE 2 x.material.length ++
  bytesLE 4 x.dest.toNat ++ [x.use] ++ List.replicate 3 0 ++ bytesLE 4 x.keyId.toNat ++ List.replicate 24 0

/-- The KDF of R487: n bytes from a key, a label and a context. -/
def kdf (key label context : List Byte) (n : Nat) : List Byte :=
  ((List.range (ceilDiv n 32)).flatMap (fun i =>
    bytesBE 32 (Config.hmac256 key (bytesBE 4 (i + 1) ++ label ++ [0] ++ context ++ bytesBE 4 (8 * n))).toNat)).take n

/-- K_root of a life-cycle state code: KDF(DUS, "PLV7780-ROOT", LC_byte, 256) (R477). -/
def rootKey (lc : Nat) : List Byte :=
  kdf (bytesBE 32 Config.dus.toNat) [0x50, 0x4C, 0x56, 0x37, 0x37, 0x38, 0x30, 0x2D, 0x52, 0x4F, 0x4F, 0x54] [BitVec.ofNat 8 lc] 32

/-- K_store of slot n: KDF(K_root, "SLOT", [n]_16, 256) (R477). -/
def storeKey (root : List Byte) (n : Nat) : List Byte := kdf root [0x53, 0x4C, 0x4F, 0x54] (bytesBE 2 n) 32

/-- The IV of a copy of slot n (R482). -/
def copyIv (n : Nat) (copyB : Bool) (gen : Nat) : BitVec 96 :=
  BitVec.ofNat 96 (ofBytesBE (bytesBE 2 n ++ [if copyB then 0x0B else 0x0A, 0] ++ bytesBE 4 gen ++ [0, 0, 0, 0]))

/-- A copy of slot n as MRAM holds it: the fields, and key and auxiliary data sealed under the slot's storage key (R477, R482). -/
def sealSlot (root : List Byte) (n : Nat) (copyB : Bool) (x : KeySlot) : List Byte :=
  let r := gcmSeal (storeKey root n) (copyIv n copyB x.gen.toNat) (slotBytes x) (padTo 128 (x.material ++ x.aux))
  slotBytes x ++ r.1 ++ bytesBE 16 r.2.toNat

/-- A copy opened: none where its TAG fails or its TYPE is none (R482, R494). -/
def openSlot (root : List Byte) (n : Nat) (copyB : Bool) (l : List Byte) : Option KeySlot :=
  let f (o k : Nat) : Nat := ofBytesLE ((l.drop o).take k)
  let flag (k : Nat) : Bool := (f 9 1).testBit k
  match keyOfCode (f 4 1), gcmOpen (storeKey root n) (copyIv n copyB (f 0 4)) (l.take 0x30) ((l.drop 0x30).take 128)
      (BitVec.ofNat 128 (ofBytesBE (l.drop 0xB0))) with
  | some t, some m => some {
      type := t, level := BitVec.ofNat 3 (f 5 1), parent := BitVec.ofNat 11 (f 6 2), owner := f 8 1, exportable := flag 0, compat := flag 1
      plain := flag 2, use := BitVec.ofNat 8 (f 0x10 1), dest := BitVec.ofNat 32 (f 0xC 4), keyId := BitVec.ofNat 32 (f 0x14 4)
      material := m.take (f 0xA 2), aux := if isAes t then (m.drop (f 0xA 2)).take 16 else [], gen := BitVec.ofNat 32 (f 0 4), curB := copyB
      state := .valid }
  | _, _ => none

/-- A commit word (R482). -/
def commitWord (cur : BitVec 8) (revoked : Bool) (gen : BitVec 32) : List Byte :=
  bytesLE 2 0x4B53 ++ [cur, if revoked then 1 else 0] ++ bytesLE 4 gen.toNat ++ List.replicate 24 0

/-- A slot's content written to the copy that `curB` tells, and then the commit word that names it (R493). -/
def writeSlot (n : Nat) (x : KeySlot) (s : State) : State :=
  let l := sealSlot s.kv.root n x.curB x
  onKv (fun k => { k with mram := k.mram.upd n {} (fun m => { m with
    tag := x.owner, copyA := if x.curB then m.copyA else l, copyB := if x.curB then l else m.copyB
    commit := commitWord (if x.curB then 0x0B else 0x0A) false x.gen }) }) s

/-- STATE = revoked in the commit words of slots (R495). -/
def markRevoked (l : List Nat) (s : State) : State :=
  onKv (fun k => { k with mram := k.mram.map (fun e => if l.contains e.1 then (e.1, { e.2 with commit := e.2.commit.set 3 1 }) else e) }) s

/-- Slots emptied in MRAM (R480, R497). -/
def wipeSlots (l : List Nat) (s : State) : State := onKv (fun k => { k with mram := k.mram.filter (fun e => !l.contains e.1) }) s

/-- What KV finds of slot n at power-up, `bad` being its words with an uncorrectable error: none where it is empty (R494). -/
def restoredSlot (root : List Byte) (n : Nat) (bad : List Nat) (m : SlotMram) : Option KeySlot :=
  let f (o k : Nat) : Nat := ofBytesLE ((m.commit.drop o).take k)
  let lost : KeySlot := { owner := m.tag, state := .corrupt }
  let copy (b : Bool) (l : List Byte) : KeySlot :=
    if (List.range 6).any (fun i => bad.contains (i + 6 * bitN b)) then lost else
    match openSlot root n b l with
    | some x => if x.gen.toNat = f 4 4 then { x with state := if f 3 1 = 0 then .valid else .revoked } else lost
    | none => lost
  if bad.contains 12 ∨ f 0 2 ≠ 0x4B53 then some lost
  else match f 2 1 with
    | 0x00 => none
    | 0x0A => some (copy false m.copyA)
    | 0x0B => some (copy true m.copyB)
    | _ => some lost

/-- The slot table that KV builds at power-up (R494). -/
def restoredTable (root : List Byte) (mram : Tab Nat SlotMram) (bad : List (Nat × Nat)) : Tab Nat KeySlot :=
  let numbers := (mram.map (·.1) ++ (bad.filter (fun e => e.2 == 12)).map (·.1)).dedup
  numbers.filterMap (fun n =>
    (restoredSlot root n ((bad.filter (fun e => e.1 == n)).map (·.2)) (mram.getD n { commit := commitWord 0 false 0 })).map (fun x => (n, x)))

end Sys2Proof.Machine
end

