-- ==== Sys2Proof/Machine/PowerOps.lean ====
section
/-! DEFINITION. What a power domain loses as it goes off and takes up as it comes on, the reset of the device, and the operating time
(R536–R548). -/

namespace Sys2Proof.Machine

/-! ## Domains -/

/-- PD2 goes off: links are down, and the fabric, the SAs and the redundancy tables are lost (R538). -/
def netOff (s : State) : State :=
  let s := (List.range 14).foldl (fun s p => setLink p false false false s) s
  let s := onPx (fun x => { x with
    ready := false, old := none, port := x.port.map (fun p => { p with txBusy := none, txSa := [], rxSa := [] })
    pair := x.pair.map (fun k => { k with ddt := [], ringSeen := [], ringQ := [], proxy := [] }) }) s
  onSw (fun w => { w with
    ready := false, fdb := w.fdb.filter (·.static)
    port := w.port.mapIdx (fun i p => { p with
      queues := .replicate 8 [], sending := none, holdAt := none
      link := if 14 ≤ i then .disabled else if p.link ≠ .disabled then .down else p.link })
    stage1 := [] }) s

/-- PD2 is on: the fabric carries frames, INGEST and CORE are UP (R171, R179), and every port trains as though its settings had just changed (R540). -/
def netOn (s : State) : State :=
  (List.range 14).foldl (fun s p => retrain p s) (onSw (fun w => { w with
    ready := true, port := w.port.mapIdx (fun i p => if 14 ≤ i then { p with link := .up } else p) }) (onPx (fun x => { x with ready := true }) s))

/-- The clusters of PD3 and PD4 (R308). -/
def pdClusters (n : Nat) : List Nat := if n = 3 then [0, 1, 2] else if n = 4 then [3, 4, 5] else []

/-- The engines of a cluster. -/
def clusterEngines (k : Nat) : List Nat := (List.range 8).map (8 * k + ·)

/-- A cluster loses its code and instance memories (R315); an output write of its engines that is still to come no longer takes place (DESIGN
CHOICE, log 140). -/
def clusterOff (k : Nat) (s : State) : State :=
  let gone (b : Batch) : Bool := match b.src with
    | .engine e => (clusterEngines k).contains e
    | _ => false
  let s := dropBatches gone s
  let s := onFb (fun x => { x with tasks := x.tasks.map (fun e =>
    if (clusterEngines k).contains e.2.engine then (e.1, { e.2 with pendingW := false }) else e) }) s
  (clusterEngines k).foldl (fun s e => modEng e (fun g => { g with
    domain := .off, cycle := none, pendingW := [], stack := [], code := [], mem := [], win := none }) s)
    (modCl k (fun c => { c with reload := false }) s)

/-- A cluster starts to reload from the committed images (R315). -/
def clusterOn (k : Nat) (s : State) : State :=
  (clusterEngines k).foldl (fun s e => modEng e (fun g => { g with domain := .reloading }) s) (modCl k (fun c => { c with reload := true }) s)

/-- PD8 goes off with the DRAM: the staging area, the shadow banks, an armed TCU0 and the package held are lost (R95, R538), and what a lost
commit or load is answered is not given: NOT_READY (log 66). -/
def dramOff (s : State) : State :=
  let arm := s.su.armed
  let load := s.su.pkg.loading
  let s := if arm.isSome then { s with tb := { s.tb with tcu := vmod s.tb.tcu 0 (fun u => { u with en := false }) } } else s
  let s := onSu (fun u => { u with
    sessions := [], armed := none, pkg := { u.pkg with held := none, stored := false, loading := none } }) s
  let s := match arm with
    | some a => if a.silent || a.cmd.async then s else reply { cmd := a.cmd, opcode := 0x0012 } (st .notReady) s
    | none => s
  match load with
  | some (_, _, w) => if w.cmd.async then s else reply w (st .notReady) s
  | none => s

/-- What domain n loses as it goes off. -/
def loseDomain (n : Nat) (s : State) : State :=
  if n = 2 then netOff s
  else if n = 3 ∨ n = 4 then (pdClusters n).foldl (fun s k => clusterOff k s) s
  else if n = 5 then peOff (frOff (seOff s))
  else if n = 6 then arOff s
  else if n = 8 then dramOff s
  else s

/-- What domain n takes up as it comes on. -/
def serveDomain (n : Nat) (s : State) : State :=
  if n = 2 then netOn s
  else if n = 3 ∨ n = 4 then (pdClusters n).foldl (fun s k => clusterOn k s) s
  else if n = 5 then peOn (frOn (seOn s))
  else if n = 6 then arOn s
  else s

/-- Domain n switched off, or locked off; one that is off already loses nothing more. -/
def powerOff (st' : PdSt) (n : Nat) (s : State) : State :=
  let s := if pdState s n = .on then loseDomain n s else s
  modPd n (fun d => { d with state := st', stalled := [], after := none }) s

/-- Domain n is to be switched off or locked: while accesses wait for its wake, after they have completed (R538, R541). -/
def turnOff (st' : PdSt) (n : Nat) (s : State) : State :=
  if pdState s n = .waking ∧ (vget s.pa.pd n {}).stalled ≠ [] then modPd n (fun d => { d with after := some st' }) s else powerOff st' n s

/-- A domain that wakes starts a new scrub pass; that of the DRAM continues through self-refresh (R570). -/
def newPass (n : Nat) (s : State) : State := onGrd (fun g => { g with scrubPos := g.scrubPos.filter (fun e => e.1.2 != n || e.1.1 == 0) }) s

/-- Domain n on, and serving. -/
def powerOn (n : Nat) (s : State) : State :=
  newPass n <| serveDomain n (modPd n (fun d => { d with state := .on, lastUse := s.abs }) s)

/-- Whether a configuration places an enabled resource in domain n (R537). -/
def itemUses (n : Nat) (i : Item) : Bool :=
  match i with
  | .port _ c => n == 2 && c.phy != .disabled
  | .macsec _ c => n == 7 && c.en
  | .svSub _ c => c.en && (n == 5 || (n == 7 && c.authReq))
  | .goSub _ c => c.en && (n == 5 || (n == 7 && c.authReq))
  | .goPub _ c => n == 5 && c.en
  | .lane _ c => n == 5 && c.en
  | .track _ c => n == 5 && c.en
  | .chan _ c => n == 5 && c.en
  | .stream _ c => n == 5 && c.en
  | .windows e l => !l.isEmpty && n == (if e.val < 24 then 3 else 4)
  | .wsl _ c => n == 6 && c.en
  | .edge _ c => n == 6 && (c.rising || c.falling)
  | .comp _ c => n == 6 && c.en
  | .recorder _ c => (n == 6 || n == 8) && c.en
  | .point _ _ => n == 8
  | .cabinet c => n == 2 && c.seg.any (·.en)
  | _ => false

/-- Whether domain n is in use under a configuration (R537). -/
def domainUsed (view : List Item) (n : Nat) : Bool := view.any (itemUses n)

/-- The staged mode and idle time of a domain in a configuration (R536, R538). -/
def viewDomain (view : List Item) (n : Nat) : DomainCfg :=
  (view.findSome? (fun i => match i with
    | .domain k c => if k.val = n then some c else none
    | _ => none)).getD {}

/-- A domain that a commit or an unlock needs on starts to wake; at the end of phase 7 it is on (R539, R554). -/
def needDomain (n : Nat) (s : State) : State :=
  if s.pa.ended.getLsbD 7 then wakeDomain false n s else if pdState s n = .on then s else powerOn n s

/-- A LOCKED domain that is unlocked is off until something needs it. -/
def unlockOff (n : Nat) (s : State) : State :=
  modPd n (fun d => { d with state := if d.state = .locked then .off else d.state, after := none, lastUse := s.abs }) s

/-- Domain n under a configuration at an instant (R536–R538): a LOCKED domain is off, one that is ON or in use is on, and an AUTO domain that
has just left use counts its idle time from here. A lock or an off by PA_DOMAIN_CTRL stands until the staged mode changes (DEDUCED, log 155). -/
def applyDomain (view : List Item) (n : Nat) (s : State) : State :=
  let c := viewDomain view n
  let used := domainUsed view n
  let old := vget s.pa.pd n {}
  let moved := old.staged != c.mode
  let s := modPd n (fun d => { d with
    staged := c.mode, mode := if moved then c.mode else d.mode, idleMs := c.idleMs, inUse := used
    lastUse := if old.inUse && !used then s.abs else d.lastUse }) s
  if (vget s.pa.pd n {}).mode = .locked then (if pdState s n = .locked then s else turnOff .locked n s)
  else
    let s := if moved then unlockOff n s else s
    if (c.mode = .on ∧ moved) ∨ used then needDomain n s else s

/-! ## The reset of the device -/

/-- The device with everything reset but what survives it: the metrology die, the Duiker domain, the MRAM, the flash and the fuses; with
`dram`, the DRAM in self-refresh and the compare units and sources that a wake resumes (R54, R55, R545, R546, R559; log 66). -/
def poweredDown (dram : Bool) (s : State) : State :=
  let r := State.reset
  { r with
    tb := if dram then { r.tb with
      tcu := vmod s.tb.tcu 0 (fun u => { u with en := false, heldAt := none }), pinCfg := s.tb.pinCfg, assign := s.tb.assign, src := s.tb.src
      acc := s.tb.acc, wraps := s.tb.wraps } else r.tb
    su := { r.su with pkg := { r.su.pkg with
      flash := s.su.pkg.flash, bootSel := s.su.pkg.bootSel, genMin := s.su.pkg.genMin, intent := s.su.pkg.intent
      held := if dram then s.su.pkg.held else none } }
    px := { r.px with tapSel := s.px.tapSel }
    ps := { r.ps with force := s.ps.force }
    fo := { r.fo with eMem := s.fo.eMem }
    mi := { s.mi with mail := r.mi.mail, timeLink := [] }
    kv := { r.kv with
      mram := s.kv.mram, journal := s.kv.journal, lcPairs := s.kv.lcPairs, lcSeen := s.kv.lcSeen, fwSvn := s.kv.fwSvn
      fwRevoke := s.kv.fwRevoke, fwSelB := s.kv.fwSelB }
    pa := { r.pa with
      rtc := s.pa.rtc, rtcRunning := s.pa.rtcRunning, opsecs := s.pa.opsecs, opsecsMram := s.pa.opsecsMram, duikerBor := s.pa.duikerBor
      pwrCycles := s.pa.pwrCycles, ret := s.pa.ret, tamperLatched := s.pa.tamperLatched, tamperLevel := s.pa.tamperLevel
      tamperRtc := s.pa.tamperRtc, tamperDue := s.pa.tamperDue, duiker := s.pa.duiker, regLow := s.pa.regLow, borCause := s.pa.borCause, borLater := s.pa.borLater
      wakeSrc := s.pa.wakeSrc, wakeSeen := s.pa.wakeSeen, wakeRtc := s.pa.wakeRtc, pwrReq := s.pa.pwrReq, pwrOk := s.pa.pwrOk
      slept := s.pa.slept, opsecsUncertain := dram && s.pa.opsecsUncertain }
    grd := { r.grd with scrubPos := if dram then s.grd.scrubPos.filter (fun e => e.1.1 == 0) else [] }
    log := { r.log with
      recs := s.log.recs, first := s.log.first, warn := s.log.warn, full := s.log.full, warnRaised := s.log.warnRaised
      fullRaised := s.log.fullRaised }
    glob := { r.glob with
      fwVersion := s.glob.fwVersion, stepping := s.glob.stepping, serial := s.glob.serial, thermTripN := s.glob.thermTripN, perstN := s.glob.perstN }
    jtag := { r.jtag with trstN := s.jtag.trstN, drive := s.jtag.drive }
    pending := s.pending, free := s.free, out := s.out }

/-- The RTC count moves on (R546), and with it the operating time while PWR_OK is high (R548; log 67). -/
def setRtc (r : BitVec 48) (s : State) : State :=
  if !s.pa.rtcRunning then s else
  let secs := (s.pa.rtc.toNat % 32768 + (r - s.pa.rtc).toNat) / 32768
  onPa (fun p => { p with rtc := r, opsecs := if p.pwrOk then p.opsecs + BitVec.ofNat 32 secs else p.opsecs }) s

end Sys2Proof.Machine
end

