-- ==== Sys2Proof/Machine/VaultOps.lean ====
section
/-! DEFINITION. Shared operations of the Key Vault (chapter 16): key types, DEST, the key tree, revocation, the shared engines. -/

namespace Sys2Proof.Machine

/-! ## Life cycle and key types (R478, R483, R490, R492) -/

/-- Whether a length of material suits a type (R483). -/
def keyLenOk : KeyType → Nat → Bool
  | .empty, _ => false
  | .aes128, n => n == 16
  | .aes256, n => n == 32
  | .hmac, n => decide (32 ≤ n ∧ n ≤ 64)
  | .kdk, n => n == 32
  | .p256Priv, n => n == 32
  | .p384Priv, n => n == 48
  | .p256Pub, n => n == 64
  | .p384Pub, n => n == 96

/-- The length of the material of a new key: LEN for HMAC, else the type's (R483). -/
def keyLen (t : KeyType) (n : Nat) : Nat :=
  match t with
  | .hmac => n | .empty => 0 | .aes128 => 16 | .aes256 => 32 | .kdk => 32 | .p256Priv => 32 | .p384Priv => 48 | .p256Pub => 64 | .p384Pub => 96

/-- HMAC and KDK (R490). -/
def isMac (t : KeyType) : Bool := t == .hmac || t == .kdk
/-- Private ECC keys. -/
def isPriv (t : KeyType) : Bool := t == .p256Priv || t == .p384Priv
/-- Public ECC keys. -/
def isPub (t : KeyType) : Bool := t == .p256Pub || t == .p384Pub
/-- Whether an ECC key is on P-384. -/
def is384 (t : KeyType) : Bool := t == .p384Priv || t == .p384Pub

/-- The DEST bits that suit a type (R490). -/
def destBits (t : KeyType) : BitVec 32 :=
  if isAes t then 0x3F0077 else if isMac t then 0x18 else if isPriv t then 0x280 else if isPub t then 0x500 else 0

/-- The bits permitted only on platform keys (R490). -/
def platformBits : BitVec 32 := 0x3F0400

/-- R490: why a DEST is refused for a type and an owner. -/
def destRefusal (t : KeyType) (o : Tag) (d : BitVec 32) : Option Status :=
  if d &&& ~~~destBits t ≠ 0 then some .badParam
  else if o ≠ 0 ∧ d &&& platformBits ≠ 0 then some .denied else none

/-- R492: DEST of a PLV-5510 USE field on a type. -/
def compatDest (t : KeyType) (u : BitVec 4) : BitVec 32 :=
  let row (k : Nat) (d : BitVec 32) : BitVec 32 := if u.getLsbD k then d else 0
  if isAes t then row 0 0x1 ||| row 1 0x6 ||| row 2 0x60 ||| row 3 0x10
  else if isMac t then row 0 0x8 ||| row 1 0x8 ||| row 3 0x10
  else if isPriv t then row 0 0x80 ||| row 3 0x200
  else if isPub t then row 1 0x100 else 0

/-- The DEST a command asks for: with COMPAT that of the USE field; none where the USE bits add nothing (R492). -/
def askedDest (k : KvNew) (t : KeyType) : Option (BitVec 32) :=
  if k.compat then (if compatDest t k.use = 0 then none else some (compatDest t k.use)) else some k.dest

/-! ## The key tree (R484, R485, R493–R497) -/

/-- The owner of slot n (R484). -/
def slotOwner (s : State) (n : Nat) : Tag := shareOwner s .keySlot n

/-- A slot replaced; an empty one is not listed. -/
def putSlot (n : Nat) (x : KeySlot) (s : State) : State :=
  onKv (fun k => { k with slot := if x = {} then k.slot.del n else k.slot.put n x }) s

/-- Occupied slots (R505). -/
def usedSlots (s : State) : Nat := (s.kv.slot.filter (fun e => e.2.state != .empty)).length

/-- The children of slots, by PARENT. -/
def childSlots (s : State) (l : List Nat) : List Nat :=
  (s.kv.slot.filter (fun e => e.2.state != .empty && l.contains e.2.parent.toNat)).map (·.1)

/-- A slot and its descendants: LEVEL is 4 at most (R485). -/
def keyTree (s : State) (n : Nat) : List Nat :=
  let a := childSlots s [n]
  let b := childSlots s a
  ([n] ++ a ++ b ++ childSlots s b).dedup

/-- A request not yet started that names a revoked slot fails with KEY_REVOKED (R496). -/
def failQueued (l : List Nat) (s : State) : State :=
  let hit (r : KvReq) : Bool := !r.started && r.slots.any l.contains
  let gone := s.kv.reqs.filter hit
  gone.foldl (fun s r => reply r.w (st .keyRevoked) s) (onKv (fun k => { k with reqs := k.reqs.filter (fun r => !hit r) }) s)

/-- R495, R496: the slot and every descendant are revoked at once, with the flag and the event, and the MACsec cores purge their copies (R127); the number newly revoked. -/
def revokeTree (n : Nat) (s : State) : State × Nat :=
  let l := (keyTree s n).filter (fun m => (getSlot s m).state == .valid || (getSlot s m).state == .corrupt)
  let o := (getSlot s n).owner
  let s := purgeSas l (markRevoked l (l.foldl (fun s m => putSlot m { getSlot s m with state := .revoked } s) s))
  (raiseArg 0x61 o (BitVec.ofNat 32 n) (onKv (fun k => { k with revoked := true }) (failQueued l s)), l.length)

/-- The record of a revocation that no command makes: the slot and the number revoked (R495). -/
def revokeRecord (n count : Nat) (s : State) : State :=
  logRec 0x0007 0xFF (getSlot s n).owner s.now 0x00000C18 (BitVec.ofNat 32 (n + count * 65536)) s

/-- A commit takes a slot from a share: it is revoked with its descendants, and erased (R484). -/
def dropSlot (n : Nat) (s : State) : State :=
  let r := revokeTree n s
  putSlot n {} (wipeSlots [n] (revokeRecord n r.2 r.1))

/-- R497: revoked, then the slot and its descendants emptied. -/
def eraseTree (n : Nat) (s : State) : State × Nat :=
  let l := keyTree s n
  let r := revokeTree n s
  (wipeSlots l (l.foldl (fun s m => putSlot m {} s) (purgeSas l r.1)), r.2)

/-! ## Who may use a slot -/

/-- R478: the life-cycle state lets a key operation run. -/
def lifeAllows (s : State) (op : BitVec 16) (pubLoad : Bool) : Bool :=
  let c := lifeCode s
  c == 1 || c == 2 || (c == 3 && (op == 0x0C22 || op == 0x0C25 || (op == 0x0C10 && pubLoad)))

/-- A key operation as KV executes it: refused by the life-cycle state (R478), else its own body. -/
def kvCommand (op : BitVec 16) (pubLoad : Bool) (c : Cmd) (s : State) (body : State → State × Option ReplyBody) : Res :=
  command op true c s fun s => if lifeAllows s op pubLoad then body s else (s, some (st .denied))

/-- A command names slot n: outside the 1,024 slots, or outside the issuer's share (R484). -/
def slotRefusal (c : Cmd) (n : Nat) (s : State) : Option Status :=
  if 1024 ≤ n then some .badParam else if slotOwner s n ≠ issuer c then some .denied else none

/-- Why a key may not be used for DEST bit b (R484, R489, R496). -/
def useRefusal (c : Cmd) (n b : Nat) (s : State) : Option Status :=
  match slotRefusal c n s with
  | some e => some e
  | none => keyRefusal s n b

/-- A refusal by DEST sets DENIED (R505). -/
def refuse (c : Cmd) (n : Nat) (e : Status) (s : State) : State × Option ReplyBody :=
  (if e = .denied ∧ slotRefusal c n s = none then onKv (fun k => { k with denied := true }) s else s, some (st e))

/-- R485: why a key may not stand under a parent; its LEVEL where it may. -/
def parentLevel (c : Cmd) (p : BitVec 11) (s : State) : Except Status (BitVec 3) :=
  if p = 0x400 then .ok 1
  else if 1024 ≤ p.toNat then .error .badParam
  else if slotOwner s p.toNat ≠ issuer c then .error .denied
  else
    let x := getSlot s p.toNat
    if x.state ≠ .valid then .error .keyRevoked
    else if x.level = 4 then .error .badParam else .ok (x.level + 1)

/-- What a new key is refused for, before its material is formed (R74, R483–R493); else its type, LEVEL and DEST. -/
def newKey (c : Cmd) (k : KvNew) (s : State) : Except Status (KeyType × BitVec 3 × BitVec 32) :=
  match slotRefusal c k.slot s with
  | some e => .error e
  | none =>
    let x := getSlot s k.slot
    if x.state = .revoked ∨ x.state = .corrupt then .error .keyRevoked
    else if (x.state = .valid) ≠ (k.replace = true) then .error .badParam
    else
      match k.type with
      | none => .error .badParam
      | some .empty => .error .badParam
      | some t =>
        match parentLevel c k.parent s with
        | .error e => .error e
        | .ok lv =>
          match askedDest k t with
          | none => .error .badParam
          | some d =>
            match destRefusal t (issuer c) d with
            | some e => .error e
            | none =>
              if k.exportable && (isPriv t || d.getLsbD 10) then .error .badParam
              else if k.replace ∧ ¬(x.type = t ∧ x.level = lv ∧ x.parent = k.parent ∧ x.owner = issuer c) then .error .badParam
              else if logFull s then .error .logFull
              else .ok (t, lv, d)

/-- A key enters its slot: a new one, or with REPLACE the other copy with GEN + 1 (R493), which the MACsec cores take over; GEN of a first key
is free (log 68). -/
def enterKey (c : Cmd) (op : BitVec 16) (k : KvNew) (t : KeyType) (lv : BitVec 3) (d : BitVec 32) (plain : Bool) (material aux : List Byte)
    (s : State) : State :=
  let old := getSlot s k.slot
  let (g, s) := if k.replace then (old.gen.toNat + 1, s) else draw s
  let x : KeySlot := {
    type := t, level := lv, parent := k.parent, owner := issuer c, exportable := k.exportable, compat := k.compat, plain := plain
    use := if k.compat then k.use.zeroExtend 8 else 0, dest := d, keyId := k.keyId, material := material, aux := if isAes t then padTo 16 aux else []
    gen := BitVec.ofNat 32 g, curB := k.replace && !old.curB, state := .valid }
  logCommand (issuer c) op 0 k.slot (reloadSas k.slot (writeSlot k.slot x (putSlot k.slot x s)))

/-! ## Computations -/

/-- Bytes of n random numbers of the entropy source (log 2). -/
def randomBytes : Nat → State → List Byte × State
  | 0, s => ([], s)
  | n + 1, s =>
    let (v, s) := draw s
    let (l, s) := randomBytes n s
    (BitVec.ofNat 8 v :: l, s)

/-- Label and context are 0–64 bytes each (R487). -/
def kdfOk (q : KvKdf) : Bool := decide (q.label.length ≤ 64 ∧ q.context.length ≤ 64)

/-- The hash of an ECDSA operation: the data's, or the data (R499). -/
def ecHash (p384 hashed : Bool) (m : List Byte) : List Byte := if hashed then m else curveHash p384 m

/-- The public point of a private key. -/
def pointOf (x : KeySlot) : List Byte := bytesBE (if is384 x.type then 96 else 64) (Config.publicPoint (is384 x.type) x.material).toNat

/-- The header of a blob (R488). -/
def blobHeader (b : KvBlob) : List Byte :=
  [b.version, b.type] ++ bytesBE 2 b.len.toNat ++ bytesBE 4 b.destLimit.toNat ++ bytesBE 4 b.keyId.toNat ++ bytesBE 20 b.rsv.toNat

/-- A blob as bytes (R488). -/
def blobBytes (b : KvBlob) : List Byte := blobHeader b ++ bytesBE 12 b.iv.toNat ++ b.text ++ bytesBE 16 b.tag.toNat

/-! ## The shared engines (R498, R499) -/

/-- Engine slots in a cycle. -/
def engineCycle : KvEngine → Nat
  | .ecc => 20
  | _ => 32

/-- Whether an engine slot is a share slot (R498). -/
def shareSlot : KvEngine → Nat → Bool
  | .gcm _, n => decide (n < 32) && n % 4 == 3
  | .hmac, n => decide (n < 32) && n % 2 == 1
  | .ecc, n => decide (1 ≤ n ∧ n < 20)

/-- The owner of a share slot: the instance whose share holds it, else the manager (R498). -/
def engineOwner (s : State) (e : KvEngine) (n : Nat) : Tag :=
  ((s.im.inst.find? (fun x => x.2.shares.kvSlots.contains (e, n))).map (·.1)).getD 0

/-- Whether an owner has a slot of an engine. -/
def hasEngine (s : State) (o : Tag) (e : KvEngine) : Bool :=
  (List.range (engineCycle e)).any (fun n => shareSlot e n && engineOwner s e n == o)

/-- The GCM engines in which an owner has slots. -/
def gcmEngines (s : State) (o : Tag) : List KvEngine :=
  (([.gcm 0, .gcm 1, .gcm 2, .gcm 3] : List KvEngine)).filter (hasEngine s o)

/-- HMAC/SHA slots for a message, GCM slots for a text: one at least (R498). -/
def hashSlots (n : Nat) : Nat := max 1 (ceilDiv n 1000)
def gcmSlots (n : Nat) : Nat := max 1 (ceilDiv n 625)

/-- A request joins the engines' queue, or QUOTA where its owner has no slot of an engine it needs (log 69). -/
def request (c : Cmd) (op : BitVec 16) (stages : List (KvEngine × Nat)) (slots : List Nat) (x : KvOp) (s : State) : State × Option ReplyBody :=
  if stages.all (fun e => hasEngine s (issuer c) e.1) then
    (onKv (fun k => { k with reqs := k.reqs ++ [{
      stages := stages, owner := issuer c, epoch := (s.im.inst.getD (issuer c) {}).epoch, slots := slots
      w := { cmd := c, opcode := op }, op := x }] }) s, none)
  else (s, some (st .quota))

/-- The result of a request (R499, R500), with the keys it took as its first engine slot started. -/
def requestResult (r : KvReq) (s : State) : State × ReplyBody :=
  let key := r.keys.headD {}
  let ok (l : List Byte) : ReplyBody := { status := .ok, r0 := BitVec.ofNat 64 l.length, buf := .bytes l }
  match r.op with
  | .gcm q =>
    if q.seals then
      let x := gcmSeal key.material q.iv q.aad q.text
      (s, ok (x.1 ++ bytesBE 16 x.2.toNat))
    else
      match gcmOpen key.material q.iv q.aad q.text q.tag with
      | some l => (s, ok l)
      | none => (s, { status := .badParam, detail := 1 })
  | .hmac _ big v m =>
    let l := if big then bytesBE 48 (Config.hmac384 key.material m).toNat else bytesBE 32 (Config.hmac256 key.material m).toNat
    match v with
    | none => (s, ok l)
    | some x => (s, if x = l then st .ok else { status := .badParam, detail := 1 })
  | .hash big m => (s, ok (curveHash big m))
  | .sign _ hashed m =>
    if s.kv.trngFail then (s, st .notReady) else
    let p := is384 key.type
    let (n, s) := draw s
    (s, ok (bytesBE (if p then 96 else 64) (Config.ecdsaSign p key.material (ecHash p hashed m) n).toNat))
  | .verify _ hashed m sig =>
    let p := is384 key.type
    (s, if Config.ecdsaVerify p key.material (ecHash p hashed m) sig then st .ok else { status := .badParam, detail := 2 })
  | .pub _ => (s, ok (pointOf key))
  | .generate k m =>
    match newKey r.w.cmd k s with
    | .error e => (s, st e)
    | .ok (t, lv, d) => (enterKey r.w.cmd r.w.opcode k t lv d false m [] s, st .ok)
  | .agree k peer q =>
    match newKey r.w.cmd k s with
    | .error e => (s, st e)
    | .ok (t, lv, d) =>
      let p := is384 key.type
      let z := bytesBE (if p then 48 else 32) (Config.ecdhX p key.material peer).toNat
      (enterKey r.w.cmd r.w.opcode k t lv d false (kdf z q.label q.context (keyLen t k.len)) [] s, st .ok)

/-- One engine slot of a request: its copies are taken in its first, and it completes with its last (R493, R496, R498). -/
def serveRequest (r : KvReq) (s : State) : State :=
  let r' : KvReq := if r.started then r else { r with started := true, keys := r.slots.map (getSlot s) }
  let left := match r'.stages with
    | (e, n) :: l => if n ≤ 1 then l else (e, n - 1) :: l
    | [] => []
  if left = [] then
    let s := onKv (fun k => { k with reqs := k.reqs.filter (fun x => x.w != r.w) }) s
    let x := requestResult r' s
    reply r.w x.2 x.1
  else onKv (fun k => { k with reqs := k.reqs.map (fun x => if x.w = r.w then { r' with stages := left } else x) }) s

/-- A request may run: every older request of its ring has started (R65, R500). -/
def ringTurn (l : List KvReq) (r : KvReq) : Bool :=
  (l.takeWhile (fun q => q.w != r.w)).all (fun q => q.started || q.w.cmd.ring != r.w.cmd.ring)

/-- ENGINE_SLOT (R496, R498–R500): the engine enters its next slot; in a share slot it runs the oldest request of the slot's owner for it whose
turn has come in its ring, and a fixed or unused slot idles. -/
def execEngineSlot (e : KvEngine) (s : State) : Res :=
  if !s.kv.ready || !pdOn s 7 then .next s else
  let n := s.kv.enginePos.getD e 0
  let s := onKv (fun k => { k with enginePos := k.enginePos.put e ((n + 1) % engineCycle e) }) s
  if !shareSlot e n then .next s else
  let o := engineOwner s e n
  match s.kv.reqs.find? (fun r => r.owner == o && (r.stages.head?.map (·.1)) == some e && ringTurn s.kv.reqs r) with
  | some r => .next (serveRequest r s)
  | none => .next s

end Sys2Proof.Machine
end

