-- ==== Sys2Proof/Machine/Package.lean ====
section
/-! DEFINITION. Configuration packages as bytes: header, section table, signature, and the checks SU makes on them (R90–R93). -/

namespace Sys2Proof.Machine

/-! ## Header and trailer (R90) -/

/-- A header field. -/
def pkgField (p : Package) (off n : Nat) : Nat := fieldLE p.raw off n

/-- PACKAGE_ID. -/
def pkgId (p : Package) : BitVec 64 := BitVec.ofNat 64 (pkgField p 0x010 8)

/-- GENERATION. -/
def pkgGeneration (p : Package) : BitVec 32 := BitVec.ofNat 32 (pkgField p 0x018 4)

/-- SECTIONS. -/
def pkgCount (p : Package) : Nat := pkgField p 0x022 2

/-- SECT_TABLE. -/
def pkgTable (p : Package) : Nat := pkgField p 0x024 4

/-- SIGN_ALG names P-384. -/
def pkg384 (p : Package) : Bool := pkgField p 0x034 2 == 1

/-- The start of the trailer, the last 96 bytes. -/
def pkgTrailer (p : Package) : Nat := p.raw.length - 96

/-! ## Section table (R91, R92) -/

/-- Entry k of the section table. -/
def pkgEntry (p : Package) (k : Nat) : PkgSection :=
  let at_ := pkgTable p + 32 * k
  { type := BitVec.ofNat 16 (pkgField p at_ 2), owner := pkgField p (at_ + 2) 1
    rsv := pkgField p (at_ + 3) 1 + pkgField p (at_ + 0x18) 8 * 256
    version := BitVec.ofNat 32 (pkgField p (at_ + 4) 4), offset := pkgField p (at_ + 8) 8, length := pkgField p (at_ + 0x10) 8 }

/-- The section table. -/
def pkgSections (p : Package) : List PkgSection := (List.range (pkgCount p)).map (pkgEntry p)

/-- What a section covers: subsystem, kind, owner. -/
def sectionKey (y : PkgSection) : Nat × Nat × Tag := (y.type.toNat / 256, y.type.toNat % 256, y.owner)

/-- The sections a package covers. -/
def pkgKeys (p : Package) : List (Nat × Nat × Tag) := (pkgSections p).map sectionKey

/-- The kinds of R92, each with the subsystems and owners it admits; none is MI's. -/
def sectionKindOk (y : PkgSection) : Bool :=
  let sub := y.type.toNat / 256
  decide (y.owner ≤ 64) &&
  (match y.type.toNat % 256 with
   | 1 => decide (sub < 16) && sub != 0xB
   | 2 => sub == 0x9
   | 3 => sub == 0xA
   | 4 => sub == 0xD
   | _ => false)

/-- A list of sections without one that may stand only once: settings per subsystem, code and points per owner (R92). -/
def onceOnly : List PkgSection → Bool
  | [] => true
  | y :: l =>
    let kind := y.type.toNat % 256
    !l.any (fun z => z.type == y.type && (kind == 1 || ((kind == 2 || kind == 3) && z.owner == y.owner))) && onceOnly l

/-- No two of a list of sections overlap. -/
def apart : List PkgSection → Bool
  | [] => true
  | y :: l => !l.any (fun z => overlaps y.offset y.length z.offset z.length) && apart l

/-- MAGIC, FORMAT, HDR_SIZE, the lengths, the section table and the reserved bytes are well formed (R90–R93). -/
def pkgWellFormed (p : Package) : Bool :=
  let table := pkgTable p
  let tableEnd := table + 32 * pkgCount p
  decide (0x100 + 96 ≤ p.raw.length) && pkgField p 0 4 == 0x4B504E46 && pkgField p 4 2 == 1 && pkgField p 6 2 == 0x100 &&
  pkgField p 8 8 == p.raw.length && decide (p.raw.length ≤ 0x20000000) && decide (1 ≤ pkgCount p ∧ pkgCount p ≤ 256) &&
  decide (0x100 ≤ table ∧ tableEnd ≤ pkgTrailer p) && decide (pkgField p 0x028 8 < 2 ^ 48) && pkgField p 0x068 152 == 0 &&
  (pkgSections p).all (fun y => y.rsv == 0 && y.offset % 64 == 0 && decide (tableEnd ≤ y.offset ∧ y.offset + y.length ≤ pkgTrailer p) && sectionKindOk y) &&
  apart (pkgSections p) && onceOnly (pkgSections p)

/-- The code image of a code section: its OWNER equals the section's (R92, R349). -/
def sectionImage (p : Package) (y : PkgSection) : Option CodeImage :=
  match goodImage ((p.raw.drop y.offset).take y.length) with
  | some c => if c.owner = y.owner then some c else none
  | none => none

/-- The staged items of a section: its image, or those of its content that a section of its type can hold (R92). -/
def sectionItems (p : Package) (y : PkgSection) (content : List Item) : List Item :=
  if y.type = 0x0902 then ((sectionImage p y).map (fun c => Item.code y.owner c)).toList
  else content.filter (fun i => (itemSubsys i, itemSectionKind i) == (y.type.toNat / 256, y.type.toNat % 256))

/-- The staged items of a package. -/
def pkgItems (p : Package) : List Item :=
  ((pkgSections p).zipIdx).flatMap (fun e => sectionItems p e.1 (p.content.getD e.2 []))

/-- A package with a code section whose image staging refuses (R352). -/
def pkgBadImage (p : Package) : Bool := (pkgSections p).any (fun y => y.type == 0x0902 && (sectionImage p y).isNone)

/-! ## The checks (R93) -/

/-- The signature over the header verifies with the key in KEY_SLOT, whose DEST allows package verification, and the body hash matches. -/
def pkgAuthentic (s : State) (p : Package) : Bool :=
  let big := pkg384 p
  let k := s.kv.slot.getD (pkgField p 0x036 2) {}
  let n := if big then 48 else 32
  let hash := curveHash big ((p.raw.drop 0x100).take (pkgTrailer p - 0x100))
  let sig := p.raw.drop (pkgTrailer p)
  let sigLen := if big then 96 else 64
  (pkgField p 0x034 2 == 1 || pkgField p 0x034 2 == 2) && k.state == .valid && k.type == (if big then .p384Pub else .p256Pub) && k.dest.getLsbD 10 &&
  (p.raw.drop 0x038).take 48 == hash ++ List.replicate (48 - n) 0 && (sig.drop sigLen).all (· == 0) &&
  Config.ecdsaVerify big k.material (curveHash big (p.raw.take 0x100)) (sig.take sigLen)

/-- A compare-unit assignment of a package has a reserved destination code: none occurs in DEST (R627), so the package is taken as badly formed
(DESIGN CHOICE, log 125). -/
def pkgReservedDest (p : Package) : Bool :=
  (pkgItems p).any (fun i => match i with
    | .tcuAssign a => !tcuDestOk a.dest
    | _ => false)

/-- The checks of R93 on a loaded package; RETURN and SCRAP take none (R478). -/
def packageRefusal (s : State) (p : Package) : Option Status :=
  if !pkgWellFormed p || pkgReservedDest p then some .badParam
  else if 3 ≤ lifeCode s then some .denied
  else if pkgField p 0x01C 4 ≠ 0x7780 ∨ s.glob.stepping.toNat < pkgField p 0x020 2 then some .denied
  else if !pkgAuthentic s p then some .denied
  else if (pkgGeneration p).toNat < s.su.pkg.genMin.toNat then some .denied
  else none

end Sys2Proof.Machine
end

