-- ==== Sys2Proof/Machine/Supervisor.lean ====
section
/-! DEFINITION. Meanings of the supervisor's commands for rings, sessions, the commit's arming and packages (chapter 02). -/

namespace Sys2Proof.Machine

/-! ## Rings (R59–R66, R77) -/

/-- Entries of a ring. -/
def ringEntries (r : Ring) : Nat := 2 ^ r.size.toNat

/-- An index error stops the ring (R64). -/
def ringError (ring : RingId) (s : State) : State :=
  match getRing s ring with
  | none => s
  | some r =>
    raise 0x00 (match ring with
        | .m _ => 0
        | .inst i _ => i)
      (onGlob (fun g => { g with ringErr := true }) (putRing s ring { r with stopped := true, err := true }))

/-- A window write that changes no index: the instance is resetting or absent, or the ring is being destroyed (R624). -/
def windowIgnores (s : State) (ring : RingId) (r : Ring) : Bool :=
  match ring with
  | .m _ => false
  | .inst i _ => instState s i == .resetting || instState s i == .absent || !r.destroy.isEmpty

/-- RING_TAIL_WRITE (R63, R64, R624): a doorbell that asks for more entries than the ring has stops it. -/
def execRingTailWrite (ring : RingId) (v : BitVec 16) (s : State) : Res :=
  if !s.glob.ready then .next s else
  match getRing s ring with
  | none => .next s
  | some r =>
    if windowIgnores s ring r then .next s else
    let s := putRing s ring { r with tail := v }
    .next (if r.en && decide ((v - r.release).toNat > ringEntries r) then ringError ring s else s)

/-- RING_RELEASE_WRITE (R63, R64): the replies below the index are released; an index past TAIL stops the ring. -/
def execRingReleaseWrite (ring : RingId) (v : BitVec 16) (s : State) : Res :=
  if !s.glob.ready then .next s else
  match getRing s ring with
  | none => .next s
  | some r =>
    if windowIgnores s ring r then .next s else
    let s := putRing s ring { r with release := v }
    if r.en && decide ((v - r.release).toNat > (r.tail - r.release).toNat) then .next (ringError ring s)
    else
      .next (onSu (fun u => { u with replies := u.replies.filter (fun x =>
        !(x.ring == ring && decide ((x.idx - r.release).toNat < (v - r.release).toNat))) }) s)

/-- RING_ENABLE (R61, R62): a write of SU_MRINGk_CTRL. EN rises only with a size of 4–12, and zeroes the indices. -/
def execRingEnable (k : Fin 4) (v : BitVec 32) (s : State) : Res :=
  if !s.glob.ready then .next s else
  let f (r : Ring) : Ring :=
    let r := { r with vector := v.extractLsb' 8 11, err := r.err && !v.getLsbD 1 }
    if !v.getLsbD 0 then { r with en := false }
    else if r.en then r
    else if 4 ≤ r.size.toNat ∧ r.size.toNat ≤ 12 then
      { r with en := true, head := 0, tail := 0, release := 0, stopped := false }
    else r
  .next (onSu (fun u => { u with mring := vmod u.mring k.val f }) s)

/-- SU has commands to fetch from a ring; the rings of an instance that is not ACTIVE are not fetched from (R525, R526). -/
def ringPending (s : State) (ring : RingId) : Bool :=
  match getRing s ring with
  | some r => r.en && !r.stopped && r.head != r.tail &&
      (match ring with
       | .m _ => true
       | .inst i _ => instState s i == .active && hasDma s i)
  | none => false

/-- The rings other than MRING0 in the order of their round robin: manager rings, then instance rings by number. -/
def roundRobin (s : State) : List RingId :=
  [.m 1, .m 2, .m 3] ++
    (List.range 128).filterMap (fun n =>
      let i := n / 2 + 1
      if (s.su.iring.get? (i, n % 2)).isSome then some (.inst i (n % 2)) else none)

/-- The next ring of the round robin with commands pending, starting after the one served last (R66). -/
def nextOther (s : State) : Option RingId :=
  let l := roundRobin s
  let after := match s.su.rrLast with
    | some r => (l.dropWhile (· != r)).drop 1 ++ l.takeWhile (· != r) ++ (if l.contains r then [r] else [])
    | none => l
  after.find? (ringPending s)

/-- The ring SU starts a command of next (R66): in each turn MRING0 first, then one other ring. -/
def dueRing (s : State) : Option RingId :=
  if ringPending s (.m 0) && !s.su.m0Turn then some (.m 0)
  else match nextOther s with
    | some r => some r
    | none => if ringPending s (.m 0) then some (.m 0) else none

/-- The opcodes of the device (R75–R77 and the chapters' opcode tables), without the common ones of R76. -/
def definedOps : List Nat :=
  [0x0010, 0x0011, 0x0012, 0x0013, 0x0014, 0x0015, 0x0018, 0x0019, 0x001A, 0x0020, 0x0021, 0x0022,
   0x0101, 0x0102, 0x0103, 0x0104, 0x0105, 0x0110, 0x0111, 0x0120,
   0x0201, 0x0202, 0x0203, 0x0204, 0x0210, 0x0211, 0x0212, 0x0213,
   0x0301, 0x0302, 0x0303, 0x0304, 0x0305, 0x0310, 0x0311, 0x0312,
   0x0401, 0x0402, 0x0410, 0x0411,
   0x0501, 0x0502, 0x0503, 0x0504, 0x0510, 0x0511,
   0x0601, 0x0602, 0x0603, 0x0610,
   0x0701, 0x0702, 0x0703, 0x0710, 0x0711, 0x0712,
   0x0801, 0x0802, 0x0803, 0x0804, 0x0810, 0x0811, 0x0812, 0x0813, 0x0814, 0x0815,
   0x0901, 0x0902, 0x0903, 0x0904, 0x0905, 0x0910, 0x0911, 0x0912, 0x0913, 0x0914, 0x0915,
   0x0A01, 0x0A10, 0x0A11, 0x0A12, 0x0A13, 0x0A14,
   0x0C10, 0x0C11, 0x0C12, 0x0C13, 0x0C14, 0x0C15, 0x0C16, 0x0C17, 0x0C18, 0x0C19, 0x0C1A,
   0x0C20, 0x0C21, 0x0C22, 0x0C23, 0x0C24, 0x0C25, 0x0C30, 0x0C31,
   0x0D01, 0x0D02, 0x0D10, 0x0D11, 0x0D12, 0x0D13, 0x0D14, 0x0D15, 0x0D16,
   0x0E01, 0x0E02, 0x0E08, 0x0E10, 0x0E11, 0x0E12, 0x0E13, 0x0E14, 0x0E40, 0x0E41,
   0x0F01, 0x0F02, 0x0F10, 0x0F11, 0x0F12, 0x0F13, 0x0F14, 0x0F15]

/-- The opcodes open to instances (R78), without GET_INFO, READ_ACTIVE and READ_STAGED of every subsystem. -/
def openOps : List Nat :=
  [0x0010, 0x0011, 0x0012, 0x0013, 0x0014, 0x0015, 0x0022, 0x0110, 0x0111, 0x0120, 0x0213, 0x0310, 0x0410, 0x0BF1,
   0x0502, 0x0503, 0x0504, 0x0510, 0x0601, 0x0602, 0x0603, 0x0610, 0x0701, 0x0702, 0x0703, 0x0710, 0x0711, 0x0712,
   0x0803, 0x0804, 0x0810, 0x0811, 0x0812, 0x0813, 0x0814, 0x0815, 0x0901, 0x0904, 0x0905, 0x0910, 0x0911, 0x0913, 0x0914, 0x0915,
   0x0A01, 0x0A10, 0x0A11, 0x0A12, 0x0A13, 0x0A14,
   0x0C10, 0x0C11, 0x0C12, 0x0C13, 0x0C14, 0x0C15, 0x0C16, 0x0C17, 0x0C18, 0x0C19, 0x0C1A, 0x0C20, 0x0C21, 0x0C22, 0x0C23, 0x0C24, 0x0C25,
   0x0D16, 0x0E02, 0x0E14]

/-- Step 1 of R626. -/
def opcodeRefusal (op : Nat) : Option Status :=
  if 0x1000 ≤ op then some .badOpcode
  else if op / 256 = 0x0B then (if op = 0x0BF0 ∨ op = 0x0BF1 then none else some .sealed)
  else if 0xF0 ≤ op % 256 then (if op % 256 ≤ 0xF3 then none else some .badOpcode)
  else if definedOps.contains op then none else some .badOpcode

/-- Whether an instance may issue an opcode (R78). -/
def opcodeOpen (op : Nat) : Bool :=
  openOps.contains op || op % 256 == 0xF0 || op % 256 == 0xF2 || op % 256 == 0xF3

/-- Steps 1 to 3 of R626. -/
def fetchRefusal (s : State) (c : Cmd) (op : BitVec 16) : Option Status :=
  match opcodeRefusal op.toNat with
  | some e => some e
  | none =>
    if issuer c ≠ 0 ∧ ¬opcodeOpen op.toNat then some .denied
    else if formBad s c then some .badParam
    else none

/-- SU has served a ring in its round (R66). -/
def servedRing (ring : RingId) (s : State) : State :=
  onSu (fun u => match ring with
    | .m 0 => { u with m0Turn := true }
    | x => { u with m0Turn := false, rrLast := some x }) s

/-- A fetched command that passes steps 1 to 3 is handed on; another is answered, and so is one on which the firmware fails before the operation
(R73, R626). -/
def handOn (c : Cmd) (op : BitVec 16) (s : State) : State :=
  let w : Waiting := { cmd := { c with fault := .none }, opcode := op }
  match fetchRefusal s c op with
  | some e => reply w (suSt e) (if e = .badParam ∧ bufOutside s c then apertureHit (issuer c) s else s)
  | none =>
    if c.fault = .before then reply w (suSt .internalFault) (firmwareFault (issuer c) s)
    else match getRing s c.ring with
      | some r => putRing s c.ring { r with dispatch := r.dispatch ++ [(c, op)] }
      | none => s

/-- COMMAND_FETCH (R63, R65, R66, R626): SU fetches the next command of the ring that is due, whose 64-byte entry is given, unless it has started
500,000 within the last second; a command with FENCE waits for every earlier reply of its ring, and another ring is served meanwhile. A slot of an
instance outside its apertures is not fetched (R511; DESIGN CHOICE: SU passes on to another ring, log 124). The firmware's fault, if any, comes
with the entry (log 124). -/
def execCommandFetch (ring : RingId) (entry : List Byte) (dmaOk : Bool) (fault : FwFault) (s : State) : Res :=
  if !s.glob.ready || dueRing s != some ring then .next s else
  match getRing s ring with
  | none => .next s
  | some r =>
    let (c, op) := decodeEntry ring r.head entry dmaOk fault
    let turn := servedRing ring s
    if !inAperture s (issuer c) (slotAddr r.cbase r.size 64 r.head).toNat 64 then .next (apertureHit (issuer c) turn)
    else if c.fence && !r.inflight.isEmpty then .next turn
    else
      let (ok, t) := limited 0x30000 0 (secTu 1) 500000 turn
      if !ok then .next s
      else .next (handOn c op (putRing t ring { r with head := r.head + 1, inflight := r.inflight ++ [r.head] }))

/-- The ring pairs an instance holds. -/
def ringCount (s : State) (i : Nat) : Nat := (s.su.iring.filter (fun e => e.1.1 == i)).length

/-- SU_RING_CREATE (R60, R77, R633): a ring pair of 16–4,096 entries, 4 KiB aligned, for an ACTIVE instance whose share allows
one more. -/
def execSuRingCreate (c : Cmd) (i : Nat) (r : Fin 2) (cbase rbase : BitVec 64) (size : BitVec 4) (vector : BitVec 4) (s : State) : Res :=
  command 0x0020 false c s fun s =>
    if i < 1 ∨ 64 < i ∨ size.toNat < 4 ∨ 12 < size.toNat ∨ cbase.toNat % 4096 ≠ 0 ∨ rbase.toNat % 4096 ≠ 0 then (s, some (st .badParam))
    else if instState s i ≠ .active then (s, some (st .notReady))
    else if (s.im.inst.getD i {}).shares.rings ≤ ringCount s i then (s, some (st .quota))
    else if (s.su.iring.get? (i, r.val)).isSome then (s, some (st .badParam))
    else
      let x : Ring := { en := true, cbase := cbase, rbase := rbase, size := size, vector := vector.zeroExtend 11 }
      (onSu (fun u => { u with iring := u.iring.put (i, r.val) x }) s, some (st .ok))

/-- SU_RING_DESTROY (R77): fetching stops; the reply comes after those of the fetched commands. -/
def execSuRingDestroy (c : Cmd) (i : Nat) (r : Fin 2) (s : State) : Res :=
  command 0x0021 false c s fun s =>
    match s.su.iring.get? (i, r.val) with
    | none => (s, some (st .badParam))
    | some x =>
      if x.inflight.isEmpty then (onSu (fun u => { u with iring := u.iring.del (i, r.val) }) s, some (st .ok))
      else
        let x : Ring := { x with stopped := true, destroy := x.destroy ++ [{ cmd := c, opcode := 0x0021 }] }
        (onSu (fun u => { u with iring := u.iring.put (i, r.val) x }) s, none)

/-- SU_NOP (R77). -/
def execSuNop (c : Cmd) (s : State) : Res := answer 0x0022 true c s (st .ok)

/-! ## Sessions (R79–R86, R633) -/

/-- SU_SESSION_OPEN (R79): the identifiers rise and skip 0. -/
def execSuSessionOpen (c : Cmd) (s : State) : Res :=
  command 0x0010 true c s fun s =>
    if (getSession s (issuer c)).state ≠ .closed then (s, some (suSt .busy))
    else
      let id := s.su.sessNext
      (onSu (fun u => { u with sessNext := if id + 1 = 0 then 1 else id + 1 })
         (putSession s (issuer c) { state := .opened, id := id }),
       some { status := .ok, r0 := id.zeroExtend 64 })

/-- The session of an owner closed: its staged items are discarded (R80). -/
def closeSession (o : Tag) (s : State) : State := onSu (fun u => { u with sessions := u.sessions.del o }) s

/-- TCU0 disarmed and no commit ARMED (R85, R86). -/
def disarm (s : State) : State :=
  onSu (fun u => { u with armed := none }) (modTcu 0 (fun u => { u with en := false }) s)

/-- The answer to a disarmed commit (R85, R86): a reply with BUSY, or with ASYNC the commit-failed event. -/
def commitFailed (a : ArmedCommit) (detail : BitVec 16) (r0 : BitVec 64) (s : State) : State :=
  if a.cmd.async then raise 0x02 a.owner s
  else reply { cmd := a.cmd, opcode := 0x0012 } { status := .busy, detail := detail, r0 := r0 } s

/-- SU_SESSION_ABORT (R86). -/
def execSuSessionAbort (c : Cmd) (s : State) : Res :=
  command 0x0013 true c s fun s =>
    let o := issuer c
    match (getSession s o).state, s.su.armed with
    | .closed, _ => (s, some (suSt .notReady))
    | .armed, some a =>
      if ltDiff s.now a.t > -(usTu 100 : Int) then (s, some (st .busy))
      else (commitFailed a 3 a.t (closeSession o (disarm s)), some (st .ok))
    | _, _ => (closeSession o s, some (st .ok))

/-- The codes of the session states (R633). -/
def sessCode : SessState → Nat
  | .closed => 0
  | .opened => 1
  | .checked => 2
  | .armed => 3

/-- SU_SESSION_STATUS (R633). -/
def execSuSessionStatus (c : Cmd) (s : State) : Res :=
  let x := getSession s (issuer c)
  answer 0x0014 true c s
    { status := .ok, detail := BitVec.ofNat 16 (sessCode x.state),
      r0 := if x.state = .armed then ((s.su.armed.map (·.t)).getD 0) else 0,
      r1 := if x.state = .closed then 0 else BitVec.ofNat 64 (x.bytes % 2 ^ 32 + x.id.toNat * 2 ^ 32) }

/-- SU_CHECK_REPORT (R633): as many 16-byte entries as BUF_LEN holds. -/
def execSuCheckReport (c : Cmd) (s : State) : Res :=
  let x := getSession s (issuer c)
  answer 0x0015 true c s
    (if x.state = .closed then suSt .notReady
     else
      let l := x.failing.take (c.bufLen / 16)
      { status := .ok, r0 := BitVec.ofNat 64 l.length, r1 := BitVec.ofNat 64 x.failing.length,
        buf := if l.isEmpty then .none else .recs (l.map (fun f => [f.subsys, f.code.toNat, f.index, f.opcode.toNat])) })

/-- The first boundary of the major frame in force at or after an instant: TCU2's target and period give the boundaries (R84). -/
def boundaryFrom (s : State) (t : LT) : LT :=
  let u := getTcu s 2
  if u.period = 0 then t
  else
    let p : Int := u.period.toNat
    u.target + BitVec.ofInt 64 ((ltDiff t u.target + p - 1).ediv p * p)

/-- T_min of R84: 500 µs after acceptance and the time of B bytes at 2 GB/s. -/
def commitMin (s : State) (bytes : Nat) : LT := ltAdd s.now (usTu 500 + bytes * 32768)

/-- What PERSIST requires (R94): the session holds exactly the staged package, and that package has been stored. -/
def persistOk (s : State) (x : Session) : Bool :=
  match x.package, s.su.pkg.held with
  | some id, some p => id == pkgId p && s.su.pkg.stored
  | _, _ => false

/-- SU_COMMIT (R74, R84, R85, R94, R96): arms TCU0 with T and distributes the staged items; with PERSIST the intent record is written to the
log first. -/
def execSuCommit (c : Cmd) (t : LT) (flags : BitVec 32) (s : State) : Res :=
  command 0x0012 true c s fun s =>
    let o := issuer c
    let x := getSession s o
    if x.state = .armed then (s, some (suSt .busy))
    else if x.state ≠ .checked then (s, some (suSt .notReady))
    else if s.su.armed.isSome ∨ s.su.resync then (s, some (suSt .busy))
    else
      let persist := flags.getLsbD 0
      let tmin := commitMin s x.bytes
      let first := boundaryFrom s tmin
      let at_ := if t = 0 then first else t
      if flags ≠ 0 ∧ flags ≠ 1 then (s, some (st .badParam))
      else if ltDiff at_ tmin < 0 ∨ boundaryFrom s at_ ≠ at_ ∨ ltDiff at_ s.now > (secTu 3600 : Int) then
        (s, some { status := .badParam, r0 := first })
      else if persist ∧ ¬persistOk s x then (s, some (st .badParam))
      else if logFull s then (s, some (st .logFull))
      else
        let id := x.package.getD 0
        let s := if persist then
            writePending (logRec 0x0004 0xFF o s.now (id.truncate 32) (id.extractLsb' 32 32)
              (onSu (fun u => { u with pkg := { u.pkg with intent := some id } }) s))
          else s
        let a : ArmedCommit := {
          owner := o, t := at_, cmd := c, persist := persist, package := if persist then s.su.pkg.held else none, items := x.staged, sid := x.id,
          removed := s.su.active.filter (fun i => x.replace.contains (itemSection s i) && !x.staged.any (sameKey i)) }
        let s := onSu (fun u => { u with armed := some a }) (putSession s o { x with state := .armed })
        let s := modTcu 0 (fun u => { u with en := true, periodic := false, target := at_ }) s
        if c.async then (s, some { status := .pending, r0 := at_ })
        else
          match getRing s c.ring with
          | some r => (putRing s c.ring { r with commits := r.commits ++ [c.idx] }, none)
          | none => (s, none)

/-- COMMIT_PREP_DEADLINE (R85): at T − 100 µs a commit whose shadow banks are not all complete is disarmed. -/
def execCommitPrepDeadline (complete : Bool) (s : State) : Res :=
  match s.su.armed with
  | none => .next s
  | some a =>
    if complete || decide (ltDiff s.now a.t < -(usTu 100 : Int)) then .next s
    else
      let s := onGlob (fun g => { g with commitFail := true }) (disarm s)
      .next (commitFailed a 2 0 (putSession s a.owner { getSession s a.owner with state := .checked }))

/-- BANK_RESYNC_END (R87). -/
def execBankResyncEnd (s : State) : Res := .next (onSu (fun u => { u with resync := false, resyncItems := [] }) s)

/-! ## Packages (R93–R96) -/

/-- Whether flash slot A (false) or B holds a package. -/
def flashHolds (s : State) (b : Bool) (p : Package) : Bool := vget s.su.pkg.flash (bitN b) none == some p

/-- BOOT_SELECTOR_WRITE (R96): the slot of the committed package, then the generation minimum, then the applied record. -/
def execBootSelectorWrite (s : State) : Res :=
  match s.su.pkg.persistDue with
  | none => .next s
  | some (p, t, sid, n) =>
    let k := s.su.pkg
    let k : PkgState := { k with
      bootSel := if flashHolds s (!k.bootSel) p then !k.bootSel else k.bootSel
      genMin := if k.genMin.toNat < (pkgGeneration p).toNat then pkgGeneration p else k.genMin
      intent := none
      persistDue := none }
    let s := onSu (fun u => { u with pkg := k }) s
    .next (logRec 0x0005 0xFF 0 t (BitVec.ofNat 32 (sid.toNat + 65536)) (BitVec.ofNat 32 n) s)

/-- SU_PKG_LOAD (R93): the package that a list of up to 4,096 extents gives is copied in place of the one held and its verification starts; one load
runs at a time. An extent list that is no list of 16-byte entries, is longer, or whose lengths are not those of the package is BAD_PARAM. -/
def execSuPkgLoad (c : Cmd) (extents : List (BitVec 64 × BitVec 64)) (p : Package) (store : Bool) (s : State) : Res :=
  command 0x0018 false c s fun s =>
    if extents.length = 0 ∨ 4096 < extents.length ∨ c.indLen ≠ 16 * extents.length ∨ (extents.map (·.2.toNat)).sum ≠ p.raw.length then
      (s, some (st .badParam))
    else if s.su.pkg.loading.isSome then (s, some (st .busy))
    else if store ∧ logFull s then (s, some (st .logFull))
    else
      let s := onSu (fun u => { u with pkg := { u.pkg with
        held := none, stored := false, loadStore := store, loading := some (p, .verifying, { cmd := c, opcode := 0x0018 }) } }) s
      (s, if c.async then some (st .pending) else none)

/-- A package load ends: its reply, or with ASYNC the package-load event. -/
def packageDone (w : Waiting) (b : ReplyBody) (s : State) : State :=
  let s := onSu (fun u => { u with pkg := { u.pkg with loading := none } }) s
  if w.cmd.async then raise 0x06 0 s else reply w b s

/-- PKG_VERIFY_DONE (R93): a failure leaves no package held; with STORE the flash write follows, into the slot the boot selector
does not name, which is invalid meanwhile (R96). -/
def execPkgVerifyDone (s : State) : Res :=
  match s.su.pkg.loading with
  | some (p, .verifying, w) =>
    match packageRefusal s p with
    | some e => .next (packageDone w (st e) s)
    | none =>
      if s.su.pkg.loadStore then
        .next (onSu (fun u => { u with pkg := { u.pkg with
          held := some p, loading := some (p, .writing, w), flash := vmod u.pkg.flash (bitN (!u.pkg.bootSel)) (fun _ => none) } }) s)
      else
        .next (packageDone w { status := .ok, r0 := pkgId p } (onSu (fun u => { u with pkg := { u.pkg with held := some p } }) s))
  | _ => .next s

/-- PKG_FLASH_WRITE_DONE (R93): the slot holds the package, and the command leaves its log record (R74). -/
def execPkgFlashWriteDone (s : State) : Res :=
  match s.su.pkg.loading with
  | some (p, .writing, w) =>
    let s := onSu (fun u => { u with pkg := { u.pkg with
      stored := true, flash := vmod u.pkg.flash (bitN (!u.pkg.bootSel)) (fun _ => some p) } }) s
    let s := logRec 0x0007 0xFF 0 s.now 0x00000018 0 s
    .next (packageDone w { status := .ok, r0 := pkgId p } s)
  | _ => .next s

/-- SU_PKG_STAGE (R94): for every subsystem and owner the held package covers, its content takes the place of the staged items. -/
def execSuPkgStage (c : Cmd) (s : State) : Res :=
  command 0x0019 false c s fun s =>
    let x := getSession s 0
    match s.su.pkg.held with
    | none => (s, some (st .notReady))
    | some p =>
      if x.state = .closed ∨ x.state = .armed then (s, some (st .notReady))
      else
        let secs := pkgKeys p
        if secs.any (fun k => stageBusy s 0 k.1) then (s, some (st .busy))
        else
          let items := pkgItems p
          let kept := x.staged.filter (fun i => !secs.contains (itemSection s i))
          let bytes := ((overlay items kept).map Config.itemLen).sum
          if pkgBadImage p then (s, some (st .badParam))
          else if bytes > stagingShare s 0 then (s, some (st .quota))
          else
            (putSession s 0 { x with
               state := .opened, staged := overlay items kept, replace := secs ++ x.replace.filter (fun k => !secs.contains k),
               bytes := bytes, package := if kept.isEmpty then some (pkgId p) else none },
             some (st .ok))

/-- SU_PKG_STATUS (R77): the identifiers of the held and of the boot package, 0 where there is none. -/
def execSuPkgStatus (c : Cmd) (s : State) : Res :=
  answer 0x001A false c s
    { status := .ok, r0 := ((s.su.pkg.held.map pkgId).getD 0), r1 := ((s.su.pkg.booted.map pkgId).getD 0) }

end Sys2Proof.Machine
end

