-- ==== Sys2Proof/Machine/InstanceOps.lean ====
section
/-! DEFINITION. Instances: the reset of one, what it ends, the release of what a share holds, and the saved-state blob (R514–R531). -/

namespace Sys2Proof.Machine

/-- Instance i. -/
def getInst (s : State) (i : Nat) : Inst := s.im.inst.getD i {}

/-- Instance i changed. -/
def modInst (i : Nat) (f : Inst → Inst) (s : State) : State := onIm (fun m => { m with inst := m.inst.upd i {} f }) s

/-- Instance i enters a state; every change raises the instance-state event to the manager (R514). -/
def setInst (i : Nat) (x : InstState) (s : State) : State :=
  if instState s i = x then s else raiseArg 0x68 i (BitVec.ofNat 32 i) (modInst i (fun n => { n with state := x }) s)

/-! ## What a reset ends (R525) -/

/-- The session of a reset instance: disarmed up to T − 100 µs; after that its commit applies, without a reply (R525). -/
def resetSession (i : Nat) (s : State) : State :=
  match (getSession s i).state, s.su.armed with
  | .armed, some a =>
    if ltDiff s.now a.t > -(usTu 100 : Int) then onSu (fun u => { u with armed := some { a with silent := true } }) s
    else closeSession i (disarm s)
  | _, _ => closeSession i s

/-- Commands of a reset instance are dropped without a reply; its rings are fetched from no more. -/
def resetRings (i : Nat) (s : State) : State :=
  let own (r : RingId) : Bool := match r with
    | .m _ => false
    | .inst j _ => j == i
  let s := onSu (fun u => { u with
    order := u.order.filter (fun e => !own e.1.cmd.ring)
    iring := u.iring.map (fun e => if e.1.1 = i then (e.1, { e.2 with stopped := true, inflight := [], commits := [] }) else e) }) s
  let s := onFb (fun x => { x with
    readWaits := x.readWaits.filter (fun w => !own w.wait.cmd.ring)
    own := x.own.map (fun e => (e.1, { e.2 with pending := e.2.pending.filter (fun r => !(r.reply.any (fun w => own w.cmd.ring))) })) }) s
  let s := finishDestroy (.inst i 1) (finishDestroy (.inst i 0) s)
  releaseReplies s.su.order.length s

/-- The cycles of an owner abandoned without output write or QSEND, and the owner in STOP without its policy (R376, R525). -/
def resetTasks (o : Nat) (s : State) : State :=
  let gone (b : Batch) : Bool := match b.src with
    | .engine e => (getEng s e).pendingW.any (fun p => p.owner == o && b.visible == some p.w)
    | _ => false
  let s' := dropBatches gone s
  let s := onFb (fun x => { x with eng := x.eng.map (fun e => (e.1, { e.2 with
    cycle := if e.2.cycle.any (fun c => c.owner == o) then none else e.2.cycle
    freeAt := if e.2.cycle.any (fun c => c.owner == o) then s.now else e.2.freeAt
    pendingW := e.2.pendingW.filter (fun p => p.owner != o) })) }) s'
  let s := modOwnerTasks o (fun k => { k with pendingW := false }) s
  let s := onFb (fun x => { x with own := x.own.upd o {} (fun r => { r with frozen := true }) }) s
  serveReads (setRun o .stop (some .instanceReset) s.now s)

/-- One owner's words leave a queue that others share: the positions move with the words before them. -/
def dropTagged (o : Tag) (x : Queue) : Queue :=
  let before (n : Nat) : Nat := ((x.words.take n).filter (fun w => w.tag != o)).length
  { x with words := x.words.filter (fun w => w.tag != o), rd := before x.rd, mark := before x.mark }

/-- QM rewinds an owner's open packets and frees its visible words (R195, R525); words of the platform, as those of its publications in
0x08–0x0B (R184), stay. -/
def resetQueues (o : Tag) (s : State) : State :=
  (s.qm.q.map (·.1)).foldl (fun s q =>
    let s := if ((getQ s q).openPkt.any (fun p => p.owner == o)) then rewindOpen q true s else s
    modQ q (dropTagged o) s) s

/-- Requests of a reset instance in the shared engines: those in progress are discarded by epoch (R498, R525). -/
def resetRequests (o : Tag) (s : State) : State :=
  let gone := s.kv.reqs.filter (fun r => r.owner == o && r.started)
  gone.foldl (fun s _ => epochDiscard o s) (onKv (fun k => { k with reqs := k.reqs.filter (fun r => r.owner != o) }) s)

/-- Recorders of a reset instance stop, and a record still open is discarded (R302). -/
def resetRecorders (o : Tag) (s : State) : State :=
  (List.range 8).foldl (fun s r =>
    if (getRec s r).owner = o ∧ (getRec s r).run.isSome then stopRecorder r false s else s) s

/-- A freeze, thaw or restore that waits for a boundary ends with the reset (log 70). -/
def resetWaits (i : Nat) (s : State) : State :=
  let x := getInst s i
  let s := modInst i (fun n => { n with freezeAt := none, thawAt := none, restore := none }) s
  let s := match x.freezeAt with
    | some (_, w) => reply w (st .notReady) s
    | none => s
  match x.thawAt with
  | some (_, w) => reply w (st .notReady) s
  | none => s

/-- The start of a reset (R524, R525): the epoch advances, the instance is RESETTING, and its work ends. -/
def startReset (i : Nat) (s : State) : State :=
  let s := modInst i (fun n => { n with
    epoch := n.epoch + 1, resetAt := s.abs, dmaOld := n.dmaOld + n.dmaOut, dmaOut := 0, saved := none, restored := false
    hq := n.hq.map (fun h => (h.1, { h.2 with stopped := true })) }) s
  let s := setInst i .resetting s
  let s := resetTasks i (resetRings i (resetSession i s))
  let s := resetRecorders i (resetRequests i (resetQueues i s))
  resetWaits i s

/-! ## Shares (R518) -/

/-- Whether item n of a kind is in a share. -/
def shareItem (x : SharesCfg) (k : ItemKind) (n : Nat) : Bool :=
  x.ranges.any (fun r => r.1 == k && decide (r.2.1 ≤ n ∧ n < r.2.1 + r.2.2))

/-- The numbers of a kind that a share holds, below a bound. -/
def shareNumbers (x : SharesCfg) (k : ItemKind) : List Nat :=
  (x.ranges.filter (fun r => r.1 == k)).flatMap (fun r => (List.range r.2.2).map (r.2.1 + ·))

/-- A host queue removed: its ring stops and the packets in the queue are freed (R518). -/
def removeHostq (i j : Nat) (s : State) : State :=
  match (getInst s i).hq.get? j with
  | none => s
  | some h => modInst i (fun n => { n with hq := n.hq.del j }) (flushQ h.qnum s)

/-- What an instance's share held and the new one does not, released at the commit instant (R518): key slots revoked and erased, compare
units disarmed, ring pairs destroyed, host queues removed, and the records of a recorder freed. -/
def releaseShares (i : Nat) (old new : SharesCfg) (s : State) : State :=
  let s := ((shareNumbers old .keySlot).filter (fun n => !shareItem new .keySlot n && (getSlot s n).state != .empty)).foldl (fun s n => dropSlot n s) s
  let s := (old.tcus.filter (fun n => !new.tcus.contains n)).foldl (fun s n => modTcu n (fun u => { u with en := false }) s) s
  let s := ((List.range 2).filter (fun k => new.rings ≤ k)).foldl (fun s k => onSu (fun u => { u with iring := u.iring.del (i, k) }) s) s
  let gone (j : Nat) : Bool := decide (new.hostQueues ≤ j) || (((getInst s i).hq.get? j).map (fun h => !new.queues.contains h.qnum)).getD false
  let s := ((List.range 16).filter gone).foldl (fun s j => removeHostq i j s) s
  ((shareNumbers old .rec_).filter (fun r => !shareItem new .rec_ r)).foldl (fun s r =>
    modRec r (fun y => { y with held := [] }) (stopRecorder r false s)) s

/-- The kind and number that place an item in an instance's share (R518). -/
def itemPlace : Item → Option (ItemKind × Nat)
  | .svSub n _ => some (.svSub, n)
  | .goSub n _ => some (.goSub, n)
  | .goPub n _ => some (.goPub, n)
  | .lane n _ => some (.lane, n)
  | .track n _ => some (.trk, n)
  | .coef p n _ => some (if p then .proto else .fir, n)
  | .chan n _ => some (.chan, n)
  | .pset n _ => some (.set_, n)
  | .stream n _ => some (.stream, n)
  | .comp n _ => some (.comp, n)
  | .recorder r _ => some (.rec_, r.val)
  | .point n _ => some (.point, n)
  | _ => none

/-- The owner that an item is staged for by name. -/
def itemFor : Item → Option Tag
  | .code o _ => some o
  | .task o _ _ => some o
  | .ownerCfg o _ => some o
  | .retain o _ _ => some o
  | .repl o _ => some o
  | .pub c => some c.owner
  | _ => none

/-- The active items an instance loses with its share: items stop and points become undefined (R404, R518). -/
def leaves (i : Nat) (old new : SharesCfg) (x : Item) : Bool :=
  (match itemPlace x with
   | some (k, n) => shareItem old k n && !shareItem new k n
   | none => false) ||
  (!new.present && itemFor x == some i)

/-! ## The saved-state blob (R527–R529) -/

/-- Codes of the run states (R386). -/
def runCode : RunState → Nat
  | .stop => 0
  | .run => 1
  | .hold => 2
  | .step => 3

/-- The sections of R529 as they stand, with the run state before the freeze. -/
def saveInst (s : State) (i : Nat) (t : LT) : SavedState :=
  let es := (List.range 48).filterMap (fun e => (regionOf (getEng s e) i).map (fun r => (e, r)))
  let own := s.fb.own.getD i {}
  { inst := i
    regions := es.map (fun e => (e.1, (getEng s e.1).mem.readN e.2.dataBase e.2.dataLen))
    tasks := (sortBy (·.1.2) (s.fb.tasks.filter (fun e => e.1.1 == i))).map (fun e =>
      (e.1.2, e.2.engine, e.2.consec, e.2.state == .stopped, e.2.tclkOfs))
    points := (sortBy (·.1) (s.ps.recs.filter (fun e => e.2.owner == i))).map (fun e => (e.1, { e.2 with quality := readQuality e.2.quality }))
    forces := sortBy (·.1) (s.ps.force.filter (fun e => (s.ps.recs.getD e.1 {}).owner == i))
    pubs := (sortBy (·.1) (s.se.gpCfg.filter (fun e => shareOwner s .goPub e.1 == i))).map (fun e => (e.1, (getGp s e.1).stNum, (getGp s e.1).sqNum))
    units := ((List.range 32).filter (fun n => 20 ≤ n ∧ (getTcu s n).owner = i ∧ (getTcu s n).en)).map
      (fun n => (n, (getTcu s n).periodic, (getTcu s n).target, (getTcu s n).period))
    run := own.state, initRun := (s.fb.ownCfg.getD i {}).initRun, invalidate := own.invalidate
    freezeLt := t, freezeTai := taiSec (taiOf s.tb t), configHash := (getInst s i).configHash }

/-- The sections of a blob: type, engine and content (R529; the layout of 0x0007 and the order, log 71). -/
def blobSections (x : SavedState) : List (Nat × Nat × List Byte) :=
  x.regions.map (fun e => (1, e.1, e.2)) ++
  [(2, 0xFF, x.tasks.flatMap (fun t => [BitVec.ofNat 8 t.1, BitVec.ofNat 8 t.2.1, t.2.2.1, BitVec.ofNat 8 (bitN t.2.2.2.1), 0, 0, 0, 0] ++ bytesLE 8 t.2.2.2.2.toNat)),
   (3, 0xFF, x.points.flatMap (fun e => pointBytes e.2)),
   (4, 0xFF, x.forces.flatMap (forceBytes false)),
   (5, 0xFF, x.pubs.flatMap (fun e => bytesLE 2 e.1 ++ [0, 0] ++ bytesLE 4 e.2.1.toNat ++ bytesLE 4 e.2.2.toNat ++ [0, 0, 0, 0])),
   (6, 0xFF, x.units.flatMap (fun e => [BitVec.ofNat 8 e.1, BitVec.ofNat 8 (bitN e.2.1), 0, 0, 0, 0, 0, 0] ++ bytesLE 8 e.2.2.1.toNat ++ bytesLE 8 e.2.2.2.toNat)),
   (7, 0xFF, [BitVec.ofNat 8 (runCode x.run), BitVec.ofNat 8 (bitN x.initRun), BitVec.ofNat 8 (bitN x.invalidate)])]

/-- The table entries of the sections, each with its place from the start of the blob. -/
def blobTable (o : Nat) : List (Nat × Nat × List Byte) → List Byte
  | [] => []
  | e :: l => bytesLE 2 e.1 ++ [BitVec.ofNat 8 e.2.1, 0] ++ bytesLE 4 e.2.2.length ++ bytesLE 8 o ++ blobTable (o + e.2.2.length) l

/-- What follows the header up to the trailer, in clear. -/
def blobBody (x : SavedState) : List Byte :=
  let l := blobSections x
  blobTable (128 + 16 * l.length) l ++ l.flatMap (·.2.2)

/-- The length of a blob, header and trailer included. -/
def blobLen (x : SavedState) : Nat := 128 + (blobBody x).length + 16

/-- The header of a blob: saved by the device of a serial number and firmware version, sealed under a slot's key with an IV (R528). -/
def savedHeader (serial : BitVec 64) (fw : BitVec 32) (slot : Nat) (iv : List Byte) (x : SavedState) : List Byte :=
  bytesLE 4 0x4D495356 ++ bytesLE 2 1 ++ bytesLE 2 0x80 ++ bytesLE 8 (blobLen x) ++ bytesLE 4 0x7780 ++
  [BitVec.ofNat 8 x.inst, 0, 0, 0] ++ bytesLE 8 serial.toNat ++ bytesLE 4 fw.toNat ++ bytesLE 2 (blobSections x).length ++
  bytesLE 2 slot ++ bytesLE 8 x.freezeLt.toNat ++ bytesLE 8 x.freezeTai.toNat ++ iv ++ List.replicate 12 0 ++
  bytesBE 32 x.configHash.toNat ++ List.replicate 16 0

/-- The IV of a header. -/
def headerIv (head : List Byte) : BitVec 96 := BitVec.ofNat 96 (ofBytesBE ((head.drop 0x38).take 12))

/-- A blob sealed under a key: header, sealed sections and tag (R527). -/
def sealBlob (key head : List Byte) (x : SavedState) : List Byte :=
  let y := gcmSeal key (headerIv head) head (blobBody x)
  head ++ y.1 ++ bytesBE 16 y.2.toNat

/-- A list cut into pieces of n bytes; a rest is left out. -/
def pieces (n : Nat) (l : List Byte) : List (List Byte) := (List.range (l.length / n)).map (fun k => (l.drop (n * k)).take n)

/-- The type of a point by its code (R390). -/
def ptOfCode (n : Nat) : PtType :=
  ([.undefined, .boolean, .dbpos, .int32, .int32u, .int64, .float32, .float64, .complex, .timestamp] : List PtType).getD n .undefined

/-- The content of the sections of a type in an opened blob, with their engines: none where one lies outside the blob (R529). -/
def sectionsOf (n : Nat) (body : List Byte) : Option (List (Nat × Nat × List Byte)) :=
  allSome ((List.range n).map (fun k =>
    let e := (body.drop (16 * k)).take 16
    let o := ofBytesLE (e.drop 8)
    let len := ofBytesLE ((e.drop 4).take 4)
    if 128 + 16 * n ≤ o ∧ o + len ≤ 128 + body.length then
      some (ofBytesLE (e.take 2), ofBytesLE ((e.drop 2).take 1), (body.drop (o - 128)).take len)
    else none))

/-- What the sections of a blob say of instance i, whose points they give in ascending index (R529). -/
def readSections (s : State) (i : Nat) (head : List Byte) (l : List (Nat × Nat × List Byte)) : SavedState :=
  let f (b : List Byte) (o n : Nat) : Nat := ofBytesLE ((b.drop o).take n)
  let of (t n : Nat) : List (List Byte) := ((l.filter (fun e => e.1 == t)).map (fun e => pieces n e.2.2)).flatten
  let run := ((l.find? (fun e => e.1 == 7)).map (·.2.2)).getD []
  { inst := i
    regions := (l.filter (fun e => e.1 == 1)).map (fun e => (e.2.1, e.2.2))
    tasks := (of 2 16).map (fun b => (f b 0 1, f b 1 1, BitVec.ofNat 8 (f b 2 1), f b 3 1 != 0, BitVec.ofNat 64 (f b 8 8)))
    points := ((sortBy (·.1) (s.ps.recs.filter (fun e => e.2.owner == i))).zip (of 3 32)).map (fun e =>
      (e.1.1, { e.1.2 with value := BitVec.ofNat 64 (f e.2 0 8), lt := BitVec.ofNat 64 (f e.2 8 8), quality := BitVec.ofNat 16 (f e.2 16 2)
                           seq := BitVec.ofNat 32 (f e.2 22 4) }))
    forces := (of 4 32).map (fun b => (f b 0 4, {
      value := BitVec.ofNat 64 (f b 4 8), quality := BitVec.ofNat 16 (f b 12 2), orphan := (f b 14 2).testBit 0, setter := f b 16 1
      type := ptOfCode (f b 17 1), lt := BitVec.ofNat 64 (f b 24 8) }))
    pubs := (of 5 16).map (fun b => (f b 0 2, BitVec.ofNat 32 (f b 4 4), BitVec.ofNat 32 (f b 8 4)))
    units := (of 6 24).map (fun b => (f b 0 1, f b 1 1 != 0, BitVec.ofNat 64 (f b 8 8), BitVec.ofNat 63 (f b 16 8)))
    run := match f run 0 1 with
      | 1 => .run
      | 2 => .hold
      | 3 => .step
      | _ => .stop
    initRun := f run 1 1 != 0, invalidate := f run 2 1 != 0
    freezeLt := BitVec.ofNat 64 (f head 0x28 8), freezeTai := BitVec.ofNat 48 (f head 0x30 8)
    configHash := BitVec.ofNat 256 (ofBytesBE ((head.drop 0x50).take 32)) }

/-- The TCLK of a task's last cycle before the freeze, from TCLK − CYC_LT: its release lay one period before the first one after the freeze
boundary (R377, R529; log 72). -/
def savedTclk (k : Task) (dt : BitVec 64) (freezeLt ofs : BitVec 64) : BitVec 64 :=
  match k.cfg.kind with
  | .periodic p φ => freezeLt + ofs + BitVec.ofNat 64 (usTu φ) - BitVec.ofNat 64 (usTu p)
  | _ => freezeLt + ofs - dt

/-- One saved data region copied back, 1 ns per 8 bytes (R530). -/
def restoreRegion (o : Tag) (x : Nat × List Byte) (s : State) : State :=
  match regionOf (getEng s x.1) o with
  | none => s
  | some r => modEng x.1 (fun g => { g with
      mem := g.mem.writeN r.dataBase (x.2.take r.dataLen)
      copying := (o, ltAdd s.fb.frameLt (nsTu (ceilDiv x.2.length 8))) :: g.copying.filter (fun c => c.1 != o) }) s

/-- One saved task restored. -/
def restoreTask (o : Tag) (freezeLt : LT) (x : Nat × Nat × BitVec 8 × Bool × BitVec 64) (s : State) : State :=
  modTask o x.1 (fun k => { k with
    consec := x.2.2.1, state := if x.2.2.2.1 then .stopped else if k.state = .stopped then .active else k.state, firstCycle := false, paused := true
    tclkOfs := x.2.2.2.2, lastTclk := savedTclk k (cycleDt s k) freezeLt x.2.2.2.2 }) s

/-- One saved point restored: value, quality, LT and SEQ (R530). -/
def restorePoint (x : Nat × PointRec) (s : State) : State :=
  match getPoint s x.1 with
  | none => s
  | some r => notePoint x.1 (onPs (fun p => { p with
      recs := p.recs.put x.1 { r with value := x.2.value, quality := x.2.quality, lt := x.2.lt, seq := x.2.seq, bad := false } }) s)

/-- One saved compare unit armed (R530). -/
def restoreUnit (o : Tag) (x : Nat × Bool × LT × BitVec 63) (s : State) : State :=
  if (getTcu s x.1).owner = o then
    modTcu x.1 (fun u => { u with en := true, periodic := x.2.1, target := x.2.2.1, period := x.2.2.2 }) s
  else s

/-- A verified blob applied to its instance (R530). -/
def applySaved (i : Nat) (x : SavedState) (s : State) : State :=
  let s := x.regions.foldl (fun s r => restoreRegion i r s) s
  let s := x.tasks.foldl (fun s t => restoreTask i x.freezeLt t s) s
  let s := x.points.foldl (fun s p => restorePoint p s) s
  let s := x.forces.foldl (fun s f => notePoint f.1 (onPs (fun p => { p with force := p.force.put f.1 f.2 }) s)) s
  let s := x.pubs.foldl (fun s p => modGp p.1 (fun g => { g with stNum := p.2.1, sqNum := p.2.2 }) s) s
  let s := x.units.foldl (fun s u => restoreUnit i u s) s
  let s := onFb (fun f => { f with
    own := f.own.upd i {} (fun r => { r with invalidate := x.invalidate }), ownCfg := f.ownCfg.put i { initRun := x.initRun, invalidate := x.invalidate } }) s
  modInst i (fun n => { n with restored := true, resume := x.run, saved := some { x with inst := i } }) s

end Sys2Proof.Machine
end

