-- ==== Sys2Proof/Machine/Queues.lean ====
section
/-! DEFINITION. Meanings of the Queue Manager commands (chapter 06). -/

namespace Sys2Proof.Machine

/-! ## Producing (R182–R190) -/

/-- The queue CORE steers a packet to (R183): that of the lowest matching entry, or 0x40. -/
def steerQueue (s : State) (c : Copy) : Nat :=
  ((List.range 64).findSome? (fun i =>
    let e := s.qm.steer.getD i {}
    if e.valid && e.ports.getLsbD c.inPort && e.classes.getLsbD c.cls && (!e.etypeEn || e.etype.toNat == be16 c.frame.bytes c.frame.etOff)
    then some e.queue else none)).getD 0x40

/-- The queue a frame that the fabric delivers goes to: 0x00 + class for INGEST, the steered one for CORE (R183). -/
def deliveryQueue (s : State) (port : Nat) (c : Copy) : Nat := if port = 14 then c.cls else steerQueue s c

/-- Whether a producer is the one of queue q; one that offers a packet to an unused queue is refused there (R182, R185). -/
def producerOf (s : State) (p : Producer) (q : Nat) : Bool :=
  match p with
  | .fabric port =>
    if port = 14 then decide (q ≤ 0x07)
    else port == 15 && (decide (0x10 ≤ q ∧ q ≤ 0x13) || q == 0x1A || decide (0x20 ≤ q ∧ q ≤ 0x2B) || q == 0x40 ||
      (decide (0x41 ≤ q) && ((qCfg s.qm.cap q).toHost == some true || qUnused s.qm.cap q)))
  | .px seg => q == 0x16 + seg.val
  | .se => decide (0x08 ≤ q ∧ q ≤ 0x0B)
  | .su => q == 0x14 || q == 0x15
  | .cabinet seg => q == 0x18 + seg.val
  | .ps => q == 0x1B
  | .tahr k _ => q == 0x2C + 2 * k.val || q == 0x2D + 2 * k.val
  | .host => decide (0x41 ≤ q) && ((qCfg s.qm.cap q).toHost == some false || qUnused s.qm.cap q)

/-- The owner of a packet (R184). -/
def packetOwner (s : State) (p : Producer) (q : Nat) : Tag :=
  match p with
  | .tahr _ o => o
  | _ => qOwner s q

/-- A header word of exactly 32 bytes (R188). -/
def headerWord (l : List Byte) : List Byte := (l ++ List.replicate 32 0).take 32

/-- A word whose transfer arrives with an uncorrectable error rewinds the packet (R190). -/
def badTransfer (q : Nat) (h : GuardHit) (s : State) : State :=
  match (getQ s q).openPkt with
  | none => s
  | some k => rewindOpen q true (queueGuard k.owner h s)

/-- What follows the opening of a packet: a header word whose transfer finds an uncorrectable error rewinds it (R190). -/
def openChecked (q : Nat) (guard : Option GuardFind) (r : State × Bool) : State :=
  if !r.2 then r.1 else
  match guardRead 0x3 guard r.1 with
  | (some h, s) => badTransfer q h s
  | (none, s) => s

/-- PACKET_OPEN (R186): a producer's first word opens a packet in a queue it produces, where it has none open, or the opening is
refused. The fabric opens the packet of the frame it is delivering, once; a refusal discards that frame (R183, R186). -/
def execPacketOpen (p : Producer) (q : Fin 256) (header : List Byte) (rxLt : LT) (rxStatus : BitVec 16) (guard : Option GuardFind) (s : State) : Res :=
  let q := q.val
  if !s.qm.ready then .next s else
  match p with
  | .fabric port =>
    match (getSw s port.val).sending with
    | none => .next s
    | some c =>
      let q := deliveryQueue s port.val c
      if c.opened || !producerOf s p q || (getQ s q).openPkt.isSome then .next s else
      let o := packetOwner s p q
      let r := openPacket q o (noticeBytes s q c.rxLt c.rxStatus c.inPort c.cls o c.ecn) s
      .next (modSw port.val (fun x => { x with sending := if r.2 then some { c with opened := true } else none }) (openChecked q guard r))
  | .px seg =>
    if !producerOf s p q || (getQ s q).openPkt.isSome then .next s
    else .next (openChecked q guard (openPacket q 0 (noticeBytes s q rxLt rxStatus (0x10 + seg.val) 0 0 false) s))
  | _ =>
    if !producerOf s p q || (getQ s q).openPkt.isSome then .next s
    else .next (openChecked q guard (openPacket q (packetOwner s p q) (headerWord header) s))

/-- The frame that the fabric delivers into queue q as its open packet. -/
def fedFrame (s : State) (q : Nat) : Option Frame :=
  if !qIsRx s.qm.cap q || q == 0x16 || q == 0x17 then none
  else ((getSw s (if q ≤ 0x07 then 14 else 15)).sending.filter (·.opened)).map (·.frame)

/-- The narrow unit that follows in queue q's open packet: the next bytes of the frame that the fabric delivers, or those its producer gives. A
unit before the last has 8 bytes, the last 1–8 (R188); anything else is no unit. -/
def nextUnit (s : State) (q : Nat) (last : Bool) (given : List Byte) : Option (List Byte) :=
  match (getQ s q).openPkt with
  | none => none
  | some k =>
    let rest := ((fedFrame s q).map (fun f => f.bytes.drop k.payload.length)).getD given
    if last then (if 1 ≤ rest.length ∧ rest.length ≤ 8 then some rest else none)
    else if (fedFrame s q).isSome then (if 8 < rest.length then some (rest.take 8) else none)
    else if rest.length = 8 then some rest else none

/-- NARROW_UNIT_WRITE (R188): a full unit of 8 bytes joins the open packet. -/
def execNarrowUnitWrite (q : Fin 256) (bytes : List Byte) (guard : Option GuardFind) (s : State) : Res :=
  match nextUnit s q.val false bytes with
  | none => .next s
  | some b =>
    match guardRead 0x3 guard s with
    | (some h, s) => .next (badTransfer q.val h s)
    | (none, s) => .next (writeUnit q.val b s)

/-- END_MARK_WRITE (R189): the last unit, of 1–8 bytes, with the end mark. -/
def execEndMarkWrite (q : Fin 256) (bytes : List Byte) (guard : Option GuardFind) (s : State) : Res :=
  match nextUnit s q.val true bytes with
  | none => .next s
  | some b =>
    match guardRead 0x3 guard s with
    | (some h, s) => .next (badTransfer q.val h s)
    | (none, s) => .next (endPacket q.val (writeUnit q.val b s)).1

/-- PRODUCER_REWIND (R190). -/
def execProducerRewind (q : Fin 256) (s : State) : Res := .next (rewindOpen q.val false s)

/-! ## Consuming (R193–R195) -/

/-- The idle item (R194). -/
def idleItem (q : Nat) : List Byte := bytesLE 8 0xDEAD1D1E00000000 ++ bytesLE 8 q ++ List.replicate 16 0

/-- QUEUE_READ (R193) by a requester's tag: the word at the read position with its side byte, or the idle item; a word with an uncorrectable error is
returned as zeros with ERR (R195). A word under another tag, or under a reserved one, is refused and counted: nothing is delivered and the read
position stays (R9, R572; log 130). -/
def execQueueRead (q : Fin 256) (rq : Tag) (guard : Option GuardFind) (s : State) : Res :=
  let x := getQ s q.val
  match x.words[x.rd]? with
  | none => .next (emit (.qword q.val (idleItem q.val) 0) s)
  | some w =>
    if !tagAdmits rq w.tag then .next (tagRefused 0x3 s) else
    let side := w.data.length + 64 * bitN w.last
    let (guard, s) := guardRead 0x3 guard s
    let s := modQ q.val (fun x => { x with rd := x.rd + 1 }) s
    match guard with
    | some h => .next (emit (.qword q.val (List.replicate 32 0) (BitVec.ofNat 8 (side + 128))) (queueGuard w.tag h s))
    | none => .next (emit (.qword q.val (w.data ++ List.replicate (32 - w.data.length) 0) (BitVec.ofNat 8 side)) s)

/-- QUEUE_MARK (R193). -/
def execQueueMark (q : Fin 256) (s : State) : Res := .next (modQ q.val (fun x => { x with mark := x.rd }) s)

/-- QUEUE_REWIND (R193). -/
def execQueueRewind (q : Fin 256) (s : State) : Res := .next (modQ q.val (fun x => { x with rd := x.mark }) s)

/-- QUEUE_RELEASE (R193). -/
def execQueueRelease (q : Fin 256) (s : State) : Res := .next (releaseQ q.val s)

/-- The queues that feed an internal port, ascending (R628). -/
def feedQueues (s : State) (core : Bool) : List Nat :=
  if core then
    [0x14, 0x15, 0x1B] ++ (List.range 12).map (0x2C + ·) ++
      ((List.range 191).map (0x41 + ·)).filter (fun q => (qCfg s.qm.cap q).toHost == some false)
  else [0x08, 0x09, 0x0A, 0x0B]

/-- The queue served next: the first with a visible packet after the one served last, in round robin (R628). -/
def nextFeed (s : State) (core : Bool) : Option Nat :=
  let l := feedQueues s core
  let last := if core then s.qm.rrCore else s.qm.rrIngest
  (l.filter (last < ·) ++ l.filter (· ≤ last)).find? (fun q => !(getQ s q).words.isEmpty)

/-- The queues whose packets pass an output gate (R413). -/
def gated (q : Nat) : Bool := (0x08 ≤ q && q ≤ 0x0B) || (0x2C ≤ q && q ≤ 0x37)

/-- A packet that a shut gate discards (R218, R264, R413). -/
def countGated (q : Nat) (src : Option (Bool × Nat)) (s : State) : State :=
  if 0x2C ≤ q then onFo (fun f => { f with ctr := vadd f.ctr 7 1 }) s else
  match src with
  | some (false, p) => onSe (fun x => { x with gp := x.gp.upd p {} (fun g => { g with gated := g.gated + 1 }) }) s
  | some (true, n) => onPe (fun x => { x with str := x.str.upd n {} (fun g => { g with gated := g.gated + 1 }) }) s
  | none => s

/-- A frame that passes to the fabric (R221, R264). -/
def countSent (src : Option (Bool × Nat)) (s : State) : State :=
  match src with
  | some (false, p) => onSe (fun x => { x with gp := x.gp.upd p {} (fun g => { g with sent := g.sent + 1 }) }) s
  | some (true, n) => onPe (fun x => { x with str := x.str.upd n {} (fun g => { g with sent := g.sent + 1 }) }) s
  | none => s

/-- The packet that the fabric takes from queue q, which was next in the round: its words, the block whose frame it is, an uncorrectable error met in
it, and the state after (R195, R221, R628). -/
def takenPacket (core : Bool) (q : Nat) (guard : Option GuardFind) (s : State) : List QWord × Option (Bool × Nat) × Option GuardHit × State :=
  let s := onQm (fun x => if core then { x with rrCore := q } else { x with rrIngest := q }) s
  let (ws, s) := takePacket q s
  let (src, s) := gatePop q s
  let (hit, s) := guardRead 0x3 guard s
  (ws, src, hit, s)

/-- The owner of a packet: the tag of its words (R184). -/
def ownerOfWords (ws : List QWord) : Tag := ((ws.head?).map (·.tag)).getD 0

/-- The frame of a packet enters the fabric as its descriptor says (R157, R191). -/
def enterFabric (core : Bool) (ws : List QWord) (s : State) : State :=
  let d := readDesc (headerOf ws)
  let f : Frame := Frame.withBytes {} (payloadOf ws)
  fabricIn none f
    { inPort := if core then 15 else 14, cls := d.cls, rxLt := s.now, vid := f.vid 1,
      explicit := if d.maskEn then some d.dest else none, tsReq := d.tsReq, tsId := d.tsId, owner := ownerOfWords ws } s

/-- FABRIC_TAKE (R628): the fabric takes one whole packet for an internal port; its frame enters the fabric as its descriptor says
(R157, R191). While the output gates are shut a packet of a gated queue is discarded and counted (R413). A packet with a word in error or of an older tag epoch is discarded (R195). -/
def execFabricTake (core : Bool) (guard : Option GuardFind) (s : State) : Res :=
  if !s.qm.ready || !s.sw.ready then .next s else
  match nextFeed s core with
  | none => .next s
  | some q =>
    match takenPacket core q guard s with
    | (ws, _, some h, s) => .next (queueGuard (ownerOfWords ws) h s)
    | (ws, src, none, s) =>
      if ws.any (epochStale s) then .next (epochDiscard (ownerOfWords ws) s)
      else if gated q && !s.fo.gateOpen then .next (countGated q src s)
      else .next (enterFabric core ws (countSent src s))

/-! ## Opcodes (R198) -/

/-- The capacities and directions of a configuration (R185). -/
def viewQueues (view : List Item) : Tab Nat QueueCfg :=
  view.filterMap (fun i => match i with
    | .queue q c => some (q, c)
    | _ => none)

/-- R185, R630: the capacities of all queues total at most 262,144. -/
def queuesCond (view : List Item) : Option Nat :=
  let t := viewQueues view
  if ((List.range 256).map (fun q => (qCfg t q).cap)).sum > 262144 then some 0 else none

/-- One queue's capacity and direction within their ranges (R185). -/
def queueOk (q : Nat) (c : QueueCfg) : Bool :=
  !qReserved q && (decide (16 ≤ c.cap ∧ c.cap ≤ 65536) || (decide (0x41 ≤ q) && c.cap == 0)) && (q != 0x40 || c.toHost != some false)

/-- What QmStageQueues refuses, over the session's view with its items laid in (R626, R630). -/
def checkQmStageQueues (l : List (Nat × QueueCfg)) (view : List Item) (_s : State) : Option Status :=
  if !l.all (fun e => queueOk e.1 e.2) || (queuesCond view).isSome then some .badParam else none

/-- QM_STAGE_QUEUES (R185). -/
def execQmStageQueues (c : Cmd) (l : List (Nat × QueueCfg)) (s : State) : Res :=
  stage 0x0401 false c (l.map (fun e => .queue e.1 e.2))
    (checkQmStageQueues l) s

/-- R183, R630: a steering entry names a queue that CORE may feed under the view's directions. -/
def steerOk (t : Tab Nat QueueCfg) (q : Nat) : Bool :=
  decide (0x10 ≤ q ∧ q ≤ 0x13) || q == 0x1A || decide (0x20 ≤ q ∧ q ≤ 0x2B) || q == 0x40 ||
  (decide (0x41 ≤ q ∧ q ≤ 0xFF) && !qUnused t q && (qCfg t q).toHost == some true)

/-- R183, R630: the first steering entry that names a queue it may not. -/
def steerCond (view : List Item) : Option Nat :=
  let t := viewQueues view
  view.findSome? (fun i => match i with
    | .steer n e => if steerOk t e.queue then none else some n.val
    | _ => none)

/-- What QmStageSteer refuses, over the session's view with its items laid in (R626, R630). -/
def checkQmStageSteer (view : List Item) (_s : State) : Option Status :=
  if (steerCond view).isSome then some .badParam else none

/-- QM_STAGE_STEER (R183). -/
def execQmStageSteer (c : Cmd) (l : List (Fin 64 × SteerEntry)) (s : State) : Res :=
  stage 0x0402 false c (l.map (fun e => .steer e.1 e.2))
    checkQmStageSteer s

/-- Whether a queue lies outside an instance's share (R518). -/
def queueDenied (c : Cmd) (q : Nat) (s : State) : Bool :=
  issuer c != 0 && !((s.im.inst.getD (issuer c) {}).shares.queues.contains q)

/-- Part n of QmReadCounters (R89). -/
def partQmReadCounters (c : Cmd) (base : Nat) (n : Nat) (s : State) : State × Status × List Byte :=
  let q := base + n
  if 0xFF < q then (s, .badParam, [])
  else if queueDenied c q s then (s, .denied, [])
  else (modQ q (fun x => { x with ctr := .replicate 4 0 }) s, .ok, counterBytes (getQ s q).ctr)

/-- QM_READ_COUNTERS (R197, R198). -/
def execQmReadCounters (c : Cmd) (base : Nat) (mask : BitVec 64) (s : State) : Res :=
  multi 0x0410 true c mask (partQmReadCounters c base) s

/-- Part n of QmQueueFlush (R89). -/
def partQmQueueFlush (base : Nat) (n : Nat) (s : State) : State × Status × List Byte :=
  let q := base + n
  if qReserved q then (s, .badParam, []) else (flushQ q s, .ok, [])

/-- QM_QUEUE_FLUSH (R198). -/
def execQmQueueFlush (c : Cmd) (base : Nat) (mask : BitVec 64) (s : State) : Res :=
  multi 0x0411 false c mask (partQmQueueFlush base) s

end Sys2Proof.Machine
end

