-- ==== Sys2Proof/Machine/Instances.lean ====
section
/-! DEFINITION. Meanings of the Instance Manager's commands and events, and of the host's accesses to instance windows (chapter 17). -/

namespace Sys2Proof.Machine

/-! ## Staged opcodes -/

/-- The ranges of an instance's shares (R511, R518). -/
def sharesOk (i : Nat) (x : SharesCfg) : Bool :=
  decide (1 ≤ i ∧ i ≤ 64) &&
  (!x.present ||
   (x.pasid != 0 && decide (x.apertures.length ≤ 8) && x.apertures.all (fun a => a.1 % 4096 == 0 && a.2 % 4096 == 0 && a.2 != 0) &&
    x.engines.all (fun e => decide (e.1 < 48 ∧ e.2.1 ≤ 8192 ∧ e.2.2 ≤ 131072)) && x.queues.all (fun q => decide (0x50 ≤ q ∧ q ≤ 0xFF)) &&
    decide (x.hostQueues ≤ 16) && x.kvSlots.all (fun k => shareSlot k.1 k.2) && x.tcus.all (fun n => decide (20 ≤ n ∧ n ≤ 31)) &&
    x.dmaSlots.all (fun n => decide (8 ≤ n ∧ n ≤ 63)) && decide (x.rings ≤ 2)))

/-- The shares of every instance in a configuration. -/
def viewShares (view : List Item) : List (Nat × SharesCfg) :=
  view.filterMap (fun i => match i with
    | .shares n c => if c.present then some (n, c) else none
    | _ => none)

/-- An instance whose PASID another one has in a configuration (R511). -/
def pasidCond (view : List Item) : Option Nat :=
  let l := viewShares view
  (l.find? (fun e => l.any (fun f => f.1 != e.1 && f.2.pasid == e.2.pasid))).map (·.1)

/-- What ImStageShares refuses, over the session's view with its items laid in (R626, R630). -/
def checkImStageShares (l : List (Nat × SharesCfg)) (view : List Item) (_s : State) : Option Status :=
  if l.any (fun e => !sharesOk e.1 e.2) ∨ (pasidCond view).isSome then some .badParam else none

/-- IM_STAGE_SHARES (R518). -/
def execImStageShares (c : Cmd) (l : List (Nat × SharesCfg)) (s : State) : Res :=
  stage 0x0D01 false c (l.map (fun e => .shares e.1 e.2)) (checkImStageShares l) s

/-- IM_STAGE_EVENTS (R534). -/
def execImStageEvents (c : Cmd) (l : List (Fin 128 × EvRoute)) (s : State) : Res :=
  stage 0x0D02 false c (l.map (fun e => .route e.1 e.2)) (fun _ _ => none) s

/-! ## Reset -/

/-- One part of IM_INSTANCE_RESET: bit n names instance n + 1 (R525, R535). -/
def resetPart (n : Nat) (s : State) : State × Status × List Byte :=
  match instState s (n + 1) with
  | .absent => (s, .notReady, [])
  | .resetting => (s, .busy, [])
  | _ => (startReset (n + 1) s, .ok, [])

/-- The instances a mask of parts names that can be reset. -/
def resettable (mask : BitVec 64) (s : State) : List Nat :=
  ((maskParts mask).map (· + 1)).filter (fun i => instState s i == .active || instState s i == .frozen)

/-- IM_INSTANCE_RESET (R525): the reply is written when the last of the resets it started ends. -/
def execImInstanceReset (c : Cmd) (mask : BitVec 64) (s : State) : Res :=
  command 0x0D10 false c s fun s =>
    let l := resettable mask s
    let r := multipart mask resetPart s
    if l = [] then (r.1, some r.2)
    else (onIm (fun m => { m with resets := m.resets ++ [({ cmd := c, opcode := 0x0D10 }, l, r.2)] }) r.1, none)

/-- What the end of a reset destroys and clears (R525). -/
def endReset (i : Nat) (s : State) : State :=
  let of (r : RingId) : Bool := match r with
    | .m _ => false
    | .inst j _ => j == i
  let s := onSu (fun u => { u with iring := u.iring.filter (fun e => e.1.1 != i), replies := u.replies.filter (fun r => !of r.ring) }) s
  let s := onEv (fun e => { e with winEvt := e.winEvt.del i }) s
  let s := onIm (fun m => { m with msixPend := m.msixPend.filter (fun v => v < vectorOf i 0 || vectorOf i 16 ≤ v) }) s
  let s := onFb (fun x => { x with own := x.own.upd i {} (fun r => { r with frozen := false }) }) s
  let gone := (getInst s i).removing
  let s := modInst i (fun n => { n with hq := [], removing := false }) s
  setInst i (if gone then .absent else .active) s

/-- The reset commands that waited for instance i alone are answered. -/
def answerResets (i : Nat) (s : State) : State :=
  let l := s.im.resets.map (fun r => (r.1, r.2.1.filter (· != i), r.2.2))
  (l.filter (fun r => r.2.1.isEmpty)).foldl (fun s r => reply r.1 r.2.2 s)
    (onIm (fun m => { m with resets := l.filter (fun r => !r.2.1.isEmpty) }) s)

/-- RESET_END (R525): nothing of an older epoch is in flight any longer, or IM no longer waits for it, 150 µs after the reset started. -/
def execResetEnd (i : Nat) (s : State) : Res :=
  if instState s i ≠ .resetting ∨ ((getInst s i).dmaOld ≠ 0 ∧ s.abs < (getInst s i).resetAt + usTu 150) then .next s
  else .next (answerResets i (raiseArg 0x6A i (BitVec.ofNat 32 i) (endReset i s)))

/-- DMA_READ_COMPLETION (R524, R525): a completion of an older epoch is discarded and counted. -/
def execDmaReadCompletion (i : Nat) (epoch : BitVec 16) (s : State) : Res :=
  let x := getInst s i
  if epoch = x.epoch then .next (modInst i (fun n => { n with dmaOut := n.dmaOut - 1 }) s)
  else .next (epochDiscard i (modInst i (fun n => { n with dmaOld := n.dmaOld - 1 }) s))

/-- RESET_REQUEST_WRITE (R515, R533): the one value that informs the manager. -/
def execResetRequestWrite (i : Nat) (v : BitVec 32) (s : State) : Res :=
  if !s.glob.ready || instState s i == .absent || v != 0x52535400 then .next s
  else .next (raiseArg 0x69 i (BitVec.ofNat 32 i) (onIm (fun m => { m with resetReq := true }) (modInst i (fun n => { n with resetReq := true }) s)))

/-! ## Freeze, save, restore, thaw (R526–R531) -/

/-- Whether an owner may be frozen: not in STOP or STEP (R526). -/
def freezable (s : State) (i : Nat) : Bool :=
  let r := (s.fb.own.getD i {}).state
  r == .run || r == .hold

/-- IM_INSTANCE_FREEZE (R526). -/
def execImInstanceFreeze (c : Cmd) (i : Nat) (s : State) : Res :=
  command 0x0D12 false c s fun s =>
    if i < 1 ∨ 64 < i then (s, some (st .badParam))
    else if instState s i ≠ .active ∨ !freezable s i then (s, some (st .notReady))
    else if (getInst s i).freezeAt.isSome then (s, some (st .busy))
    else (modInst i (fun n => { n with freezeAt := some (s.now, { cmd := c, opcode := 0x0D12 }) }) s, none)

/-- A frame has started at least `least` tu after an instant. -/
def boundaryAfter (s : State) (t : LT) (least : Int) : Bool := s.fb.running && decide (least ≤ ltDiff s.fb.frameLt t)

/-- FREEZE_BOUNDARY (R526): at the first frame boundary at least 10 µs after SU executed the command. -/
def execFreezeBoundary (i : Nat) (s : State) : Res :=
  match (getInst s i).freezeAt with
  | none => .next s
  | some (t, w) =>
    if !boundaryAfter s t (usTu 10) then .next s
    else
      let s := modInst i (fun n => { n with freezeAt := none }) s
      if !freezable s i then .next (reply w (st .notReady) s)
      else
        let b := s.fb.frameLt
        let x := saveInst s i b
        let s := modInst i (fun n => { n with
          saved := some x, restored := false, resume := x.run, hq := n.hq.map (fun h => (h.1, { h.2 with stopped := true })) }) s
        let s := onFb (fun f => { f with own := f.own.upd i {} (fun r => { r with frozen := true, reason := .command }) }) s
        let s := if x.run = .hold then s else setRun i .hold (some .command) b s
        .next (reply w (st .ok) (setInst i .frozen s))

/-- The key of a platform slot for sealing (bit 0) or opening (bit 1) a blob, an AES-256 key (R489, R527, R530). -/
def blobKeyRefusal (s : State) (n b : Nat) : Option Status :=
  if 1024 ≤ n then some .badParam else if slotOwner s n ≠ 0 then some .denied else
  match keyRefusal s n b with
  | some e => some e
  | none => if (getSlot s n).type = .aes256 then none else some .badParam

/-- IM_INSTANCE_SAVE (R527–R529). -/
def execImInstanceSave (c : Cmd) (i slot : Nat) (s : State) : Res :=
  command 0x0D13 false c s fun s =>
    match instState s i, (getInst s i).saved with
    | .frozen, some x =>
      match blobKeyRefusal s slot 0 with
      | some e => (s, some (st e))
      | none =>
        let n := blobLen x
        if c.bufLen < n then (s, some { status := .badParam, r0 := BitVec.ofNat 64 n })
        else if s.kv.trngFail then (s, some (st .notReady))
        else
          let (iv, s) := randomBytes 12 s
          let head := savedHeader s.glob.serial s.glob.fwVersion slot iv x
          (s, some { status := .ok, r0 := BitVec.ofNat 64 n, buf := .bytes (sealBlob (getSlot s slot).material head x) })
    | _, _ => (s, some (st .notReady))

/-- A blob's header is one of R528, for a blob of this length. -/
def blobHeadOk (blob : List Byte) : Bool :=
  let f (o n : Nat) : Nat := ofBytesLE ((blob.drop o).take n)
  decide (144 ≤ blob.length) && f 0 4 == 0x4D495356 && f 4 2 == 1 && f 6 2 == 0x80 && f 8 8 == blob.length && decide (1 ≤ f 0x24 2 ∧ f 0x24 2 ≤ 64)

/-- A blob judged for instance i: its content, or the answer that refuses it (R530). -/
def openBlob (i : Nat) (blob : List Byte) (s : State) : Except ReplyBody SavedState :=
  let f (o n : Nat) : Nat := ofBytesLE ((blob.drop o).take n)
  let head := blob.take 128
  let rest := blob.drop 128
  let key := f 0x26 2
  if !blobHeadOk blob then .error (st .badParam)
  else if f 0x10 4 ≠ 0x7780 then .error (st .denied)
  else if f 0x14 1 ≠ i then .error (st .badParam)
  else
    match blobKeyRefusal s key 1 with
    | some e => .error (st e)
    | none =>
      match gcmOpen (getSlot s key).material (headerIv head) head (rest.take (rest.length - 16))
          (BitVec.ofNat 128 (ofBytesBE (rest.drop (rest.length - 16)))) with
      | none => .error { status := .badParam, detail := 1 }
      | some body =>
        if ofBytesBE ((head.drop 0x50).take 32) ≠ (getInst s i).configHash.toNat then .error { status := .badParam, detail := 3 } else
        match sectionsOf (f 0x24 2) body with
        | none => .error (st .badParam)
        | some l => .ok (readSections s i head l)

/-- IM_INSTANCE_RESTORE (R530): the blob in the indirect buffer is judged, and its content waits for the next frame boundary. -/
def execImInstanceRestore (c : Cmd) (i : Nat) (blob : List Byte) (s : State) : Res :=
  command 0x0D14 false c s fun s =>
    if instState s i ≠ .frozen then (s, some (st .notReady)) else
    match openBlob i blob s with
    | .error e => (s, some e)
    | .ok x => (modInst i (fun n => { n with restore := some (s.now, x) }) s, some (st .ok))

/-- RESTORE_APPLY (R530): at the first frame boundary after the verification. -/
def execRestoreApply (i : Nat) (s : State) : Res :=
  match (getInst s i).restore with
  | none => .next s
  | some (t, x) =>
    if instState s i ≠ .frozen ∨ !boundaryAfter s t 1 then .next s
    else .next (applySaved i x (modInst i (fun n => { n with restore := none }) s))

/-- IM_INSTANCE_THAW (R531). -/
def execImInstanceThaw (c : Cmd) (i : Nat) (s : State) : Res :=
  command 0x0D15 false c s fun s =>
    if instState s i ≠ .frozen then (s, some (st .notReady))
    else if (getInst s i).thawAt.isSome then (s, some (st .busy))
    else (modInst i (fun n => { n with thawAt := some (s.now, { cmd := c, opcode := 0x0D15 }) }) s, none)

/-- After a restore each GOOSE block of the instance sends a new state (R531). -/
def thawGoose (i : Nat) (s : State) : State :=
  (s.se.gpCfg.filter (fun e => shareOwner s .goPub e.1 == i && e.2.en)).foldl (fun s e => newGoState e.1 s.fb.frameLt false s) s

/-- THAW_BOUNDARY (R531): the saved run state, the rings and host queues from the indices they held. -/
def execThawBoundary (i : Nat) (s : State) : Res :=
  match (getInst s i).thawAt with
  | none => .next s
  | some (t, w) =>
    if instState s i ≠ .frozen ∨ !boundaryAfter s t 1 then .next s
    else
      let x := getInst s i
      let s := modInst i (fun n => { n with 
        thawAt := none, saved := none, hq := n.hq.map (fun h => (h.1, { h.2 with stopped := false }))
        dmaOut := n.dmaOut + ((n.hq.filter (fun h => h.2.stopped)).map (fun h => (h.2.tail - h.2.head).toNat)).sum }) s
      let s := onFb (fun f => { f with own := f.own.upd i {} (fun r => { r with frozen := false }) }) s
      let s := modOwnerTasks i (fun k => { k with paused := true }) s
      let s := if x.resume = .hold then s else setRun i x.resume none s.fb.frameLt s
      let s := if x.restored then thawGoose i s else s
      .next (reply w (st .ok) (setInst i .active (modInst i (fun n => { n with restored := false }) s)))

/-- IM_INSTANCE_INFO (R535): state, epoch, PASID and CONFIG_HASH, then the sizes of the shares. -/
def execImInstanceInfo (c : Cmd) (i : Nat) (s : State) : Res :=
  command 0x0D16 true c s fun s =>
    if i < 1 ∨ 64 < i then (s, some (st .badParam))
    else if issuer c ≠ 0 ∧ issuer c ≠ i then (s, some (st .denied))
    else
      let x := getInst s i
      let h := x.shares
      let stCode : Nat := match x.state with
        | .absent => 0
        | .active => 1
        | .resetting => 2
        | .frozen => 3
      (s, some { status := .ok, buf := .recs [
        [stCode, x.epoch.toNat, h.pasid.toNat, x.configHash.toNat],
        [h.apertures.length, h.dram.length, h.staging, h.engines.length, h.queues.length, h.hostQueues, h.ports.toNat, h.pubEntries,
         h.forceEntries, h.kvSlots.length, h.tcus.length, h.dmaSlots.length, h.rings, h.meters.toNat]] })

/-! ## Host queues (R517) -/

/-- IM_HOSTQ_SET (R517, R182, R185): a ring of 16–4,096 descriptors for a QM queue of the share, in the queue's staged direction; without settings
the host queue is removed. -/
def execImHostqSet (c : Cmd) (i : Nat) (j : Fin 16) (x : Option HostqCfg) (s : State) : Res :=
  command 0x0D11 false c s fun s =>
    if i < 1 ∨ 64 < i then (s, some (st .badParam))
    else if instState s i ≠ .active ∧ instState s i ≠ .frozen then (s, some (st .notReady))
    else
      match x with
      | none =>
        if ((getInst s i).hq.get? j.val).isNone then (s, some (st .badParam))
        else (modInst i (fun n => { n with hq := n.hq.del j.val }) s, some (st .ok))
      | some q =>
        if q.size < 4 ∨ 12 < q.size ∨ !(getInst s i).shares.queues.contains q.qnum ∨ qUnused s.qm.cap q.qnum ∨ (qCfg s.qm.cap q.qnum).toHost ≠ some q.toHost then
          (s, some (st .badParam))
        else if (getInst s i).shares.hostQueues ≤ ((getInst s i).hq.del j.val).length then (s, some (st .quota))
        else
          let h : HostQ := {
            qnum := q.qnum, toHost := q.toHost, base := q.base, size := q.size, vector := q.vector.toNat, stopped := instState s i == .frozen }
          (modInst i (fun n => { n with hq := n.hq.put j.val h }) s, some (st .ok))

/-- HOSTQ_TAIL_WRITE (R515, R517, R624): the descriptors posted are read by DMA. -/
def execHostqTailWrite (i : Nat) (j : Fin 16) (v : BitVec 16) (s : State) : Res :=
  if !s.glob.ready || !(instState s i == .active || instState s i == .frozen) then .next s else
  match (getInst s i).hq.get? j.val with
  | none => .next s
  | some h =>
    .next (modInst i (fun n => { n with
      hq := n.hq.put j.val { h with tail := v }, dmaOut := if h.stopped then n.dmaOut else n.dmaOut + (v - h.tail).toNat }) s)

/-- The address of a host queue's next descriptor (R517). -/
def descAddr (h : HostQ) : BitVec 64 := slotAddr h.base (BitVec.ofNat 4 h.size) 16 h.head

/-- A descriptor completed (R70, R517): the data in its buffer, DONE_LEN and STATUS, then PHASE, and the queue's message. -/
def hostDone (i j : Nat) (h : HostQ) (addr : BitVec 64) (len : Nat) (status : Status) (data : List Byte) (s : State) : State :=
  let s := modInst i (fun n => { n with hq := n.hq.put j { h with head := h.head + 1 } }) s
  let s := if data = [] then s else emit (.post addr data) s
  let s := emit (.post (descAddr h + 0x0C) (bytesLE 2 len ++ [(statusCode status).truncate 8])) s
  sendMsix (vectorOf i h.vector) (emit (.post (descAddr h + 0x0F) [BitVec.ofNat 8 (bitN (replyPhase h.head (BitVec.ofNat 4 h.size)))]) s)

/-- HOSTQ_DESCRIPTOR (R517, R519): in a DMA slot of the instance the engine takes the next descriptor of a host queue, 16 bytes, moves one packet
and completes it; `data` is what its buffer holds. A buffer outside the apertures completes with DENIED, and a descriptor outside them is not
read (R511); a word of the queue read in error or of an older epoch discards its packet (R195, R524). -/
def execHostqDescriptor (i : Nat) (j : Fin 16) (desc data : List Byte) (guard : Option GuardFind) (s : State) : Res :=
  if instState s i ≠ .active || !hasDma s i then .next s else
  match (getInst s i).hq.get? j.val with
  | none => .next s
  | some h =>
    let addr := BitVec.ofNat 64 (ofBytesLE (desc.take 8))
    let len := ofBytesLE ((desc.drop 8).take 4)
    if h.stopped ∨ h.head = h.tail ∨ (h.toHost ∧ (getQ s h.qnum).words.isEmpty) then .next s
    else if !inAperture s i (descAddr h).toNat 16 then .next (apertureHit i s)
    else if !inAperture s i addr.toNat len then .next (hostDone i j.val h addr 0 .denied [] (apertureHit i s))
    else if len < 64 ∨ 10272 < len then .next (hostDone i j.val h addr 0 .badParam [] s)
    else if h.toHost then
      let (ws, s) := takePacket h.qnum s
      let tag := ((ws.head?).map (·.tag)).getD 0
      let (guard, s) := guardRead 0x3 guard s
      match guard with
      | some g => .next (queueGuard tag g s)
      | none =>
        if ws.any (epochStale s) then .next (epochDiscard tag s)
        else
          let l := headerOf ws ++ payloadOf ws
          if len < l.length then .next (hostDone i j.val h addr l.length .badParam [] s)
          else .next (hostDone i j.val h addr l.length .ok l s)
    else
      let b := padTo len data
      let r := sendPacket h.qnum i (headerWord (b.take 32)) (b.drop 32) s
      .next (hostDone i j.val h addr (if r.2 = .ok then len else 0) r.2 [] r.1)

/-! ## Event masks and the resets of the function (R513, R583, R598) -/

/-- The word k of an event mask or of event bits. -/
def evWord (v : BitVec 128) (k : Nat) : BitVec 32 := v.extractLsb' (32 * k) 32

/-- Word k of 128 bits replaced. -/
def putWord (v : BitVec 128) (k : Nat) (w : BitVec 32) : BitVec 128 :=
  (v &&& ~~~(0xFFFFFFFF#128 <<< (32 * k))) ||| (w.zeroExtend 128 <<< (32 * k))

/-- EVENT_MASK_WRITE (R583): word k of the manager's mask (owner 0) or of an instance's; each mask bit that clears over a set event bit sends
one message. -/
def execEventMaskWrite (o : Nat) (k : Fin 4) (v : BitVec 32) (s : State) : Res :=
  if !s.glob.ready || (o != 0 && (instState s o == .absent || decide (64 < o))) then .next s else
  let evt := if o = 0 then s.ev.mevt else s.ev.winEvt.getD o 0
  let old := if o = 0 then s.ev.memask else s.ev.winMask.getD o 0
  let new := putWord old k.val v
  let s := onEv (fun e => if o = 0 then { e with memask := new } else { e with winMask := e.winMask.put o new }) s
  let due := (List.range 128).filter (fun n => old.getLsbD n && !new.getLsbD n && evt.getLsbD n)
  let vec (n : Nat) : Nat := let r := s.im.route.getD n {}
    if o = 0 then r.mvec.toNat else vectorOf o r.ivec.toNat
  .next ((due.map vec).dedup.foldl (fun s m => sendMsix m s) s)

/-- A function-level reset (R513). -/
def functionReset (s : State) : State :=
  let s := (((List.range 64).map (· + 1)).filter (fun i => instState s i == .active || instState s i == .frozen)).foldl (fun s i => startReset i s) s
  let s := onSu (fun u => { u with iring := [], mring := u.mring.map (fun r => { r with en := false }) }) s
  let s := onSw (fun x => { x with mirEn := false }) s
  onIm (fun m => { m with flr := true, inst := m.inst.map (fun e => (e.1, { e.2 with hq := e.2.hq.map (fun h => (h.1, { h.2 with stopped := true })) })) }) s

/-- FUNCTION_LEVEL_RESET (R513). -/
def execFunctionLevelReset (s : State) : Res := if !s.glob.ready then .next s else .next (functionReset s)

/-- PERST_ASSERT (R598): the link goes down; while the device serves, a function-level reset. -/
def execPerstAssert (s : State) : Res :=
  if !s.glob.perstN then .next s else
  let s := onGlob (fun g => { g with perstN := false }) (onIm (fun m => { m with linkUp := false, linkX8 := false }) s)
  .next (if s.glob.ready then functionReset s else s)

end Sys2Proof.Machine
end

