-- ==== Sys2Proof/Machine/CommitOps.lean ====
section
/-! DEFINITION. The switch of every subsystem's bank on one tick (R87, R88): each takes the settings of a new active bank. -/

namespace Sys2Proof.Machine

/-! ## IM (R514, R518, R534, R632) -/

/-- The shares of instance i in a configuration, if it exists there. -/
def viewShare (view : List Item) (i : Nat) : Option SharesCfg := ((viewShares view).find? (fun e => e.1 == i)).map (·.2)

/-- The owner of item n of a kind in a configuration. -/
def viewOwner (view : List Item) (k : ItemKind) (n : Nat) : Tag := (((viewShares view).find? (fun e => shareItem e.2 k n)).map (·.1)).getD 0

/-- The items whose canonical form gives an instance's CONFIG_HASH: its shares, its code, its points in ascending index (R632). -/
def hashItems (view : List Item) (i : Nat) : List Item :=
  view.filter (fun x => match x with
    | .shares n _ => n == i
    | _ => false) ++
  view.filter (fun x => match x with
    | .code o _ => o == i
    | _ => false) ++
  sortBy Item.index (view.filter (fun x => match x with
    | .point n _ => viewOwner view .point n == i
    | .pub c => c.owner == i
    | _ => false))

/-- Instance i at the commit instant: created, changed, or removed by a reset after which its shares are released (R514, R518). -/
def commitInst (view : List Item) (i : Nat) (s : State) : State :=
  let x := getInst s i
  let hash (n : Inst) : Inst := { n with configHash := Config.configHash (hashItems view i) }
  match viewShare view i with
  | some new =>
    let s := modInst i hash (modInst i (fun n => { n with shares := new, removing := false }) (releaseShares i x.shares new s))
    if x.state = .absent then setInst i .active s else s
  | none =>
    if x.state = .absent then s
    else
      let s := if x.state = .resetting then s else startReset i s
      modInst i (fun n => { n with removing := true, shares := {}, configHash := 0 }) (releaseShares i x.shares { present := false } s)

/-- IM at the commit instant. -/
def imCommit (view : List Item) (s : State) : State :=
  let s := onIm (fun m => { m with route := view.filterMap (fun i => match i with
    | .route n c => some (n.val, c)
    | _ => none) }) s
  ((List.range 64).map (· + 1)).foldl (fun s i => commitInst view i s) s

/-! ## TB (R28, R34, R44, R58) -/

/-- One pin unit: changed settings take the first target of their alignment (R44). -/
def commitPin (new : PinCfg) (k : Nat) (s : State) : State :=
  if vget s.tb.pinCfg.out k {} = vget new.out k {} then s
  else armPin k { s with tb := { s.tb with pinCfg := { s.tb.pinCfg with out := vmod s.tb.pinCfg.out k (fun _ => vget new.out k {}) } } }

/-- One general unit: a changed assignment delivers a firing that is due and disarms the unit. The spec does not say whether an armed unit stays
armed when its destination or owner changes (DESIGN CHOICE, log 123) (R42, R44, R627). -/
def commitAssign (new : TcuAssign) (s : State) : State :=
  let k := new.unit.val
  if vget s.tb.assign k {} = new ∧ (getTcu s (20 + k)).dest = new.dest ∧ (getTcu s (20 + k)).owner = new.owner then s
  else
    let s := { s with tb := { s.tb with assign := vmod s.tb.assign k (fun _ => new) } }
    armCnv k (modTcu (20 + k) (fun u => { u with en := false, heldAt := none, dest := new.dest, owner := new.owner }) (deliverDue (20 + k) s))

/-- TB at the commit instant. -/
def tbCommit (view : List Item) (s : State) : State :=
  let ptp := (view.findSome? (fun i => match i with
    | .ptp c => some c
    | _ => none)).getD {}
  let src := (view.findSome? (fun i => match i with
    | .sources c => some c
    | _ => none)).getD {}
  let pins := (view.findSome? (fun i => match i with
    | .pins c => some c
    | _ => none)).getD {}
  let lat (p : Fin 14) : PortLat := (view.findSome? (fun i => match i with
    | .portLat c => if c.port = p then some { ingress := c.ingress, egress := c.egress, asym := c.asym, phyUnc := c.phyUnc } else none
    | _ => none)).getD {}
  let sec (p : Nat) : MacsecCfg := (view.findSome? (fun i => match i with
    | .macsec q c => if q = p then some c else none
    | _ => none)).getD {}
  let asg (k : Fin 12) : TcuAssign := (view.findSome? (fun i => match i with
    | .tcuAssign c => if c.unit = k then some c else none
    | _ => none)).getD { unit := k }
  let s := { s with tb := { s.tb with
    cfg := ptp, src := src, lat := Vector.ofFn lat
    tcc := s.tb.tcc.mapIdx (fun n x => { x with edge := vget pins.edges n .rising })
    ptp := s.tb.ptp.mapIdx (fun p x =>
      let x := { x with disabledMacsec := ptp.ports.any (fun c => c.port.val == p) && ptpProtected ptp (sec p) }
      if ptp.enabled ∧ ptp.ports.any (fun c => c.port.val == p) ∧ !x.disabledMacsec then x
      else { x with announce := none, measured := none, requests := [], answered := [], residence := [], suTxts := [] })
    utcOffset := if s.tb.utcReceived || s.tb.utcCarried then s.tb.utcOffset else (src.utcOffset.getD s.tb.utcOffset)
    utcKnown := s.tb.utcKnown || src.utcOffset.isSome } }
  let s := (List.range 12).foldl (fun s k => commitPin pins k s) s
  let s := { s with tb := { s.tb with pinCfg := pins } }
  let s := (List.finRange 12).foldl (fun s k => commitAssign (asg k) s) s
  let s := runBmca s
  if s.tb.source ≠ .none ∧ !srcQualified s.tb s.tb.source then sourceLost s else sourceQualified s

/-! ## PX and SW (R99, R131, R171) -/

/-- One port: a new PHY type, FEC or auto-negotiation setting retrains the link; a port without a PHY type is DISABLED; a pause that is not obeyed
any more ends; a new PN threshold is judged afresh (R99, R116, R129, R171, R179). -/
def commitPort (view : List Item) (p : Fin 14) (s : State) : State :=
  let old := (getPx s p.val).cfg
  let new := (view.findSome? (fun i => match i with
    | .port q c => if q = p then some c else none
    | _ => none)).getD {}
  let entry (e : Nat) : AddrEntry := (view.findSome? (fun i => match i with
    | .filter q n c => if q = p ∧ n = e then some c else none
    | _ => none)).getD {}
  let sec := (view.findSome? (fun i => match i with
    | .macsec q c => if q = p.val then some c else none
    | _ => none)).getD {}
  let s := if new.pauseObey then s else clearPause p.val s
  let keep (x : PxPort) : Bool := sec.en && sec.suite == x.macsec.suite
  let s := modPx p.val (fun x => { x with
    cfg := new, entries := Vector.ofFn (fun e => entry e.val), macsec := sec
    txSa := if keep x then x.txSa.map (fun e => (e.1, { e.2 with thrHit := e.2.thrHit && decide (pnThreshold sec = pnThreshold x.macsec) })) else []
    rxSa := if keep x then x.rxSa else [] }) s
  let s :=
    if new.phy = .disabled then (if old.phy = .disabled then s else portOff p.val s)
    else if old.phy ≠ new.phy ∨ portFec old ≠ portFec new ∨ old.anEn ≠ new.anEn then retrain p.val s
    else if old.pauseObey ≠ new.pauseObey then advertise p.val s else s
  let s := if new.phy ≠ .disabled ∧ (getSw s p.val).link = .disabled then modSw p.val (fun x => { x with link := .down }) s else s
  pxCtrReset p.val s

/-- One redundancy pair: changed settings start it afresh (R120–R125). -/
def commitPair (view : List Item) (k : Nat) (s : State) : State :=
  let new := (view.findSome? (fun i => match i with
    | .red q c => if q = k then some c else none
    | _ => none)).getD {}
  modPair k (fun x => if x.cfg = new then x else { x with cfg := new, ddt := [], tied := [], ringSeen := [], ringQ := [], proxy := [], nodes := [] }) s

/-- PX at the commit instant t: the settings of PX and SW before it stay for the frames that began before it (R88), and the fabric follows the links
of the pairs as they now are (R171). -/
def pxCommit (t : LT) (view : List Item) (s : State) : State :=
  let b := netBank t s
  let s := (List.range 2).foldl (fun s k => commitPair view k s) (onPx (fun x => { x with old := some b }) s)
  let s := (List.finRange 14).foldl (fun s p => commitPort view p s) s
  [2, 3, 4, 5].foldl (fun s p => fabricLink p s) s

/-- SW at the commit instant: a static entry takes the place of a dynamic one of its address and VLAN, and where the database would hold more than
16,384 entries the latest dynamic ones go (R158, R166, R176, R181; log 131). -/
def swCommit (view : List Item) (s : State) : State :=
  let stat : List FdbEntry := view.filterMap (fun i => match i with
    | .fdb _ c => some { mac := c.mac, vid := c.vid, mask := c.mask, static := true }
    | _ => none)
  onSw (fun x => { x with
    limits := view.filterMap (fun i => match i with
      | .limits p q c => some ((p.val, q.val), c)
      | _ => none)
    fdb := (stat ++ x.fdb.filter (fun e => !e.static && !stat.any (fun y => y.mac == e.mac && y.vid == e.vid))).take 16384
    vlan := view.filterMap (fun i => match i with
      | .vlan v c => some (v.toNat, c)
      | _ => none)
    ports := (view.findSome? (fun i => match i with
      | .swPorts c => some c
      | _ => none)).getD {}
    mirror := (view.findSome? (fun i => match i with
      | .mirror c => some c
      | _ => none)).getD {} }) s

/-- QM at the commit instant: a queue that becomes unused holds nothing any more (R183, R185). -/
def qmCommit (view : List Item) (s : State) : State :=
  let s := onQm (fun x => { x with
    cap := viewQueues view
    steer := view.filterMap (fun i => match i with
      | .steer n c => some (n.val, c)
      | _ => none) }) s
  (s.qm.q.map (·.1)).foldl (fun s q => if qUnused s.qm.cap q then flushQ q s else s) s

/-! ## PS (R381, R401–R404) -/

/-- Whether a configuration has the writer that a point names (R381, R395). -/
def writerLives (view : List Item) (i : Nat) (w : PtWriter) : Bool :=
  match w with
  | .none => false
  | .host => true
  | .task o t k => view.any (fun x => match x with
      | .code o' c => o' == o && c.engines.any (fun e => e.tasks.any (fun y => y.task == t && y.exports[k]? == some i))
      | _ => false)
  | .sv n _ => view.any (fun x => match x with
      | .svSub m c => m == n && c.en
      | _ => false)
  | .goose n _ => view.any (fun x => match x with
      | .goSub m c => m == n && c.en
      | _ => false)
  | .lane n => view.any (fun x => match x with
      | .lane m c => m == n && c.en
      | _ => false)
  | .chan n => view.any (fun x => match x with
      | .chan m c => m == n && c.en
      | _ => false)
  | .pset n => view.any (fun x => match x with
      | .pset m _ => m == n
      | _ => false)
  | .edge n => view.any (fun x => match x with
      | .edge e c => e.val == n && (c.rising || c.falling)
      | _ => false)
  | .cab g n => view.any (fun x => match x with
      | .cabinet c => (vget c.seg g {}).en && (vget c.seg g {}).stations.any (fun y => y.node == n)
      | _ => false)

/-- The point definitions of a configuration. -/
def viewPoints (view : List Item) : Tab Nat PointDef :=
  view.filterMap (fun i => match i with
    | .point n d => if d.type = .undefined then none else some (n, d)
    | _ => none)

/-- Settings of the store that a configuration gives. -/
def psSettings (view : List Item) (s : State) : State :=
  onPs (fun x => { x with
    defs := viewPoints view
    pubs := view.filterMap (fun i => match i with
      | .pub c => some c
      | _ => none)
    tPsw := (view.findSome? (fun i => match i with
      | .tPsw us => some us
      | _ => none)).getD 16 }) s

/-- Every forced point without a writer is marked as orphaned, and one that has a writer again is not (R381, R401). -/
def markOrphans (view : List Item) (s : State) : State :=
  s.ps.force.foldl (fun s e =>
    let o := !writerLives view e.1 (s.ps.defs.getD e.1 {}).writer
    let s' := onPs (fun x => { x with force := x.force.put e.1 { e.2 with orphan := o } }) s
    if o ∧ !e.2.orphan then raiseArg 0x50 ((s.ps.recs.getD e.1 {}).owner) (BitVec.ofNat 32 e.1) (onPs (fun x => { x with orphanNew := true }) s')
    else if o = e.2.orphan then s else s') s

/-- Forces removed together: the flag, the list and one log record with their count and lowest index (R402). -/
def dropForces (l : List Nat) (s : State) : State :=
  match sortBy id l with
  | [] => s
  | i :: _ => logRec 0x0008 0xFF 0 s.now (BitVec.ofNat 32 l.length) (BitVec.ofNat 32 i) (l.foldl (fun s n => dropForce n s) s)

/-- PS at the commit instant (R401, R402, R404); `drop` tells that the commit was checked with DROP_FORCES, whose removals replace the list. -/
def psCommit (t : LT) (drop : Bool) (view : List Item) (s : State) : State :=
  if !s.ps.ready then s else
  let defs := viewPoints view
  let keeps (i : Nat) (r : PointRec) : Bool := (match defs.get? i with
    | some d => d.type == r.type && shareOwner s .point i == r.owner
    | none => false)
  let gone := (s.ps.force.filter (fun e => !(keeps e.1 (s.ps.recs.getD e.1 {})))).map (·.1)
  let s := if drop ∧ gone ≠ [] then onPs (fun x => { x with dropped := [] }) s else s
  let s := dropForces gone s
  let recs : Tab Nat PointRec := defs.map (fun e => (e.1,
    match s.ps.recs.get? e.1 with
    | some r => if keeps e.1 r then r else initialPoint e.2 (shareOwner s .point e.1) t
    | none => initialPoint e.2 (shareOwner s .point e.1) t))
  markOrphans view (psSettings view (onPs (fun x => { x with recs := recs }) s))

/-! ## PA and the whole -/

/-- The Duiker settings in force (R543, R553). -/
def duikerCommit (view : List Item) (s : State) : State :=
  let c := (view.findSome? (fun i => match i with
    | .duiker c => some c
    | _ => none)).getD {}
  onPa (fun p => { p with duiker := c }) s

/-- Every subsystem takes the new active bank on one tick (R87): `changed` are the items that the switch applies or removes. -/
def switchBanks (t : LT) (drop : Bool) (changed view : List Item) (s : State) : State :=
  let s := imCommit view s
  let s := ((List.range 9).filter (fun n => 2 ≤ n)).foldl (fun s n => applyDomain view n s) s
  let s := qmCommit view (swCommit view (pxCommit t view (tbCommit view s)))
  let pe := s.pe
  let s := arCommit t view (peCommit t pe view (frCommit t view (seCommit t view s)))
  let s := psCommit t drop view (fbCommit t changed view s)
  readiness (duikerCommit view (cabCommit t view (foCommit view s)))

/-- An item that only removes something leaves no entry in the active bank (R82). -/
def itemNull : Item → Bool
  | .shares _ c => !c.present
  | .point _ d => d.type == .undefined
  | _ => false

/-- The active bank after a commit: its items over what stays of the bank before, without what an instance loses with its share (R82, R94, R518). -/
def nextBank (s : State) (items removed : List Item) : List Item :=
  let kept := s.su.active.filter (fun i => !removed.contains i)
  let all := overlay items kept
  let lost (x : Item) : Bool := s.im.inst.any (fun e => e.2.state != .absent && leaves e.1 e.2.shares ((viewShare all e.1).getD { present := false }) x)
  all.filter (fun x => !itemNull x && (items.contains x || !lost x))

end Sys2Proof.Machine
end

