-- ==== Sys2Proof/Machine/StartOps.lean ====
section
/-! DEFINITION. What start-up phases share: the first active bank, the ports and the frames it starts (R554). -/

namespace Sys2Proof.Machine

/-- The lock timeout of a configuration in ms (R554). -/
def viewLock (view : List Item) : Nat :=
  (view.findSome? (fun i => match i with
    | .lockTimeout n => some n
    | _ => none)).getD 10000

/-- Domain n as phase 7 leaves it: serving where it is on, switched on where its staged mode is ON (R536, R554). -/
def bringDomain (n : Nat) (s : State) : State :=
  match pdState s n with
  | .on => serveDomain n s
  | .off => if (vget s.pa.pd n {}).mode = .on then powerOn n s else s
  | _ => s

/-- Base ticks, frames and cabinet cycles run from the end of phase 7 (R136, R357). -/
def startFrames (view : List Item) (s : State) : State :=
  let s := armFrames (onFb (fun x => { x with ticks := viewTicks view, running := true }) s)
  if s.fo.seg.any (fun g => g.cfg.en) then
    modTcu 4 (fun u => { u with
      en := true, periodic := true, period := BitVec.ofNat 63 (usTu s.fo.cabPeriodUs), target := (getTcu s 2).target }) s
  else s

/-- Phase 7 (R554): a configuration becomes the active bank of every subsystem, domains take their staged modes, frames run, phases 8 and 10
start with their timeouts. -/
def bringUp (t : LT) (view : List Item) (s : State) : State :=
  let s := onSu (fun u => { u with active := view }) (onSe (fun x => { x with lockTimeoutAt := some (ltAdd t (msTu (viewLock view))) }) s)
  let s := switchBanks t false view view s
  let s := (List.range 7).foldl (fun s n => bringDomain (n + 2) s) s
  let s := startFrames view s
  let s := onFo (fun f => { f with discoverAt := some (ltAdd t (msTu f.cfg.discoverMs)) }) s
  let s := (List.range 16).foldl (fun s g => judgeReady g s) (markPhase 7 true s)
  readiness (phaseTen s)

/-- A package's content as a bank: at most one item per key, without items that only remove something (R82, R92). -/
def packageBank (p : Package) : List Item :=
  ((pkgItems p).foldl (fun b i => overlay [i] b) []).filter (fun i => !itemNull i)

end Sys2Proof.Machine
end

