-- ==== Sys2Proof/Machine/Commit.lean ====
section
/-! DEFINITION. COMMIT_STROBE: the one instant at which a commit takes effect (R87). -/

namespace Sys2Proof.Machine

/-- The bank switch of a commit. Without a boot package it is what phases 5 and 7 wait for (R554, R555; DESIGN CHOICE, log 74). -/
def applyCommit (a : ArmedCommit) (view : List Item) (s : State) : State :=
  if s.pa.noPackage && !s.pa.ended.getLsbD 7 then
    bringUp a.t view (markPhase 5 true (onPa (fun p => { p with noPackage := false }) s))
  else
    switchBanks a.t (getSession s a.owner).dropForces (a.items ++ a.removed) view (onSu (fun u => { u with active := view }) s)

/-- Every other session that was CHECKED returns to OPEN, and the committing one closes (R80, R87). -/
def commitSessions (o : Tag) (s : State) : State :=
  onSu (fun u => { u with sessions := (u.sessions.del o).map (fun e =>
    (e.1, if e.2.state = .checked then { e.2 with state := .opened } else e.2)) }) s

/-- What follows the switch (R87, R96, R576): the package in force, the record of the commit, and for a PERSIST commit the boot selector to be
written first. -/
def commitRecord (a : ArmedCommit) (package : Option (BitVec 64)) (s : State) : State :=
  let s := onGlob (fun g => { g with pkgId := package.getD g.pkgId }) s
  match a.persist, a.package with
  | true, some p => onSu (fun u => { u with pkg := { u.pkg with persistDue := some (p, a.t, a.sid, a.items.length) } }) s
  | _, _ => logRec 0x0005 0xFF a.owner a.t (a.sid.zeroExtend 32) (BitVec.ofNat 32 a.items.length) s

/-- The answer to an applied commit: OK with T and the number of items, or with ASYNC the commit-applied event; none to an instance that has
been reset since (R87, R525). -/
def commitAnswer (a : ArmedCommit) (s : State) : State :=
  if a.silent then s
  else if a.cmd.async then raise 0x01 a.owner s
  else reply { cmd := a.cmd, opcode := 0x0012 } { status := .ok, r0 := a.t, r1 := BitVec.ofNat 64 a.items.length } s

/-- COMMIT_STROBE (R87): TCU0 fires at T, every subsystem switches its bank on that tick, and the bank resynchronisation starts. -/
def execCommitStrobe (s : State) : Res :=
  match s.su.armed with
  | none => .next s
  | some a =>
    if !tcuDue s 0 then .next s else
    let package := (getSession s a.owner).package
    let view := nextBank s a.items a.removed
    let s := applyCommit a view (fireTcu 0 s)
    let s := commitSessions a.owner (onSu (fun u => { u with armed := none, resync := true, resyncItems := a.items ++ a.removed }) s)
    .next (commitAnswer a (commitRecord a package s))

end Sys2Proof.Machine
end

