-- ==== Sys2Proof/Machine/Guard.lean ====
section
/-! DEFINITION. Meanings of the scrubbers and of the error-record FIFO (R570–R573). -/

namespace Sys2Proof.Machine

/-- Guard words of a region: those the spec gives, else the number the command tells (R546, R570). -/
def regionWords (r words : Nat) : Nat := if r = 0 then 536870912 else if r = 1 then 1048576 else if r = 0xA then 128 else words

/-- What a scrubber finds in a word; an uncorrectable retained word is invalid from then on (R547, R571). A word that belongs to an owner
counts towards the GUARD trigger, in whatever memory (R571; log 156); of a point record or a force entry the store takes it as its own finding
(R405, R430; log 141). -/
def scrubCount (r : Nat) (word : Nat) (f : WordFinding) (use : WordUse) (s : State) : State :=
  match f with
  | .none => s
  | .corrected _ _ => guardCorrected r s
  | .uncorrectable h =>
    let s := guardUncorrectable r 0x10 0 { h with addr := BitVec.ofNat 64 word } s
    let s := if r = 0xA then onPa (fun p => { p with ret := { p.ret with err := p.ret.err.filter (· != word) ++ [word] } }) s else s
    match use with
    | .free => s
    | .owned _ => foGuardError s
    | .point i => if r = 0 then pointBad i s else s
    | .force i => if r = 1 then forceBad i s else s

/-- The word whose two beats of 18 byte lanes the DRAM delivers: lane l of beat b carries symbol 18 b + l (R568). -/
def beatsWord (beats : Vector (Vector Byte 18) 2) : Vector Byte 36 :=
  .ofFn (fun i => vget (vget beats (i.val / 18) (.replicate 18 0)) (i.val % 18) 0)

/-- The symbols s0–s35 of a word as its medium carries it: the DRAM in two beats of byte lanes, every other medium side by side (R568). -/
def mediumWord : ScrubWord → Vector Byte 36
  | .beats x => beatsWord x
  | .symbols w => w

/-- The domains in which the memories of a region lie; none for the link and the buses, which hold no words (R5, R572; log 156). -/
def regionDomains (r : Nat) : List Nat :=
  ([[8], [1], [2], [1], [3, 4], [3, 4], [5], [2, 7], [], [], [1], [1, 2, 3, 4, 5, 6, 7]] : List (List Nat)).getD r []

/-- A scrubber runs in a domain: one that is on, and for the DRAM from the end of phase 3 (R570). -/
def scrubs (r d : Nat) (s : State) : Bool :=
  s.pa.power == .running && (regionDomains r).contains d && (d == 1 || pdState s d == .on) && (r != 0 || s.pa.ended.getLsbD 3)

/-- SCRUB_READ (R568, R570, R571): the next guard word of a region's memories in domain `d`, as the medium carries it, judged by the guard code
(R566). -/
def execScrubRead (r : Fin 16) (d : Fin 9) (words : Nat) (word : ScrubWord) (use : WordUse) (s : State) : Res :=
  if !scrubs r.val d.val s then .next s else
  let n := s.grd.scrubPos.getD (r.val, d.val) 0
  let s := onGrd (fun g => { g with scrubPos := g.scrubPos.put (r.val, d.val) (if regionWords r.val words ≤ n + 1 then 0 else n + 1) }) s
  .next (scrubCount r.val n (guardJudge (mediumWord word)) use s)

/-- The eight words of the oldest error record, or zeros (R573). -/
def errWords (s : State) : List (BitVec 32) :=
  match s.grd.recs with
  | [] => .replicate 8 0
  | e :: _ =>
    [e.lt.truncate 32, e.lt.extractLsb' 32 32, e.addr.truncate 32, e.addr.extractLsb' 32 32,
     pack [(e.region.toNat, 0), (e.source.toNat, 8), (e.reqTag, 16)], pack [(e.s0.toNat, 0), (e.s1.toNat, 8), (e.s2.toNat, 16)], 0, 0]

/-- The oldest error record popped (R573). -/
def errDrop (s : State) : State := onGrd (fun g => { g with recs := g.recs.drop 1 }) s

/-- GERR_RECORD_POP (R573): a read of W7, alone or with W6 as an aligned pair, pops the record. -/
def execGerrRecordPop (rq : Nat) (wide : Bool) (s : State) : Res :=
  hostRead rq (fun s =>
    let w := errWords s
    answerRead rq (if wide then w.getD 7 0 ++ w.getD 6 0 else (w.getD 7 0).zeroExtend 64) (errDrop s)) s

end Sys2Proof.Machine
end

