-- ==== Sys2Proof/Machine/MiOps.lean ====
section
/-! DEFINITION. Shared operations of the metrology die (chapter 15): its parameter set, log and mailbox, samples, correction, measurement
periods, energy and intervals. The arithmetic is binary64; the spec states the formulas and the form of the results (log 58). -/

namespace Sys2Proof.Machine

/-! ## The parameter set (R454) -/

/-- Byte `o` of a set. -/
def pByte (l : List Byte) (o : Nat) : Nat := (l.getD o 0).toNat
/-- 16 bits of a set. -/
def p16 (l : List Byte) (o : Nat) : Nat := ofBytesLE ((l.drop o).take 2)
/-- 32 bits of a set. -/
def p32 (l : List Byte) (o : Nat) : BitVec 32 := BitVec.ofNat 32 (ofBytesLE ((l.drop o).take 4))
/-- A binary32 field as binary64. -/
def pReal (l : List Byte) (o : Nat) : F := dsingle (p32 l o)
/-- The record of point p. -/
def pPoint (p : Nat) : Nat := 0xA0 + 512 * p
/-- Channel c of point p: UA, UB, UC, IA, IB, IC. -/
def pChan (p c : Nat) : Nat := pPoint p + 0x20 + 16 * c
/-- Segment j of current c of point p. -/
def pSeg (p c j : Nat) : Nat := pPoint p + 0x80 + 96 * c + 12 * j
/-- N of a point in samples/s. -/
def pRate (l : List Byte) (p : Nat) : Nat :=
  match pByte l (pPoint p + 1) with
  | 0 => 4800
  | 1 => 14400
  | _ => 96000
/-- f0 in Hz. -/
def pF0 (l : List Byte) : Nat := pByte l 6
/-- M, the cycles of a measurement period (R458). -/
def pCycles (l : List Byte) : Nat := if pF0 l = 60 then 12 else 10
/-- W, the instants of the energy window (R461). -/
def pWindow (l : List Byte) (p : Nat) : Nat := pRate l p / max (pF0 l) 1

/-- The set in force. -/
def miSet (s : State) : List Byte := s.mi.params.getD []

/-- Metering runs in UNSEALED and SEALED (R449). -/
def miMetering (s : State) : Bool := s.mi.powered && (s.mi.sealSt == .unsealed || s.mi.sealSt == .sealed)

/-- Point p meters. -/
def ptOn (s : State) (p : Nat) : Bool := miMetering s && pByte (miSet s) (pPoint p) == 1

/-- PARAM_HASH (R454). -/
def miHash (s : State) : BitVec 256 :=
  match s.mi.params with
  | some l => Config.sha256 l
  | none => Config.miNoHash

/-- Metering point p. -/
def getPt (s : State) (p : Nat) : MiPoint := vget s.mi.point p {}

/-- Metering point p changed. -/
def modPt (p : Nat) (f : MiPoint → MiPoint) (s : State) : State := onMi (fun m => { m with point := vmod m.point p f }) s

/-! ## Seal state, log and mailbox link (R449, R466, R472–R475) -/

/-- The code of a seal state. -/
def sealCode : SealState → Nat
  | .blank => 0
  | .unsealed => 1
  | .sealed => 2
  | .fault => 3

/-- The seal state last entered, in force or from the next measurement period. -/
def sealLast (s : State) : SealState := s.mi.sealNext.getD s.mi.sealSt

/-- MI_STATUS as the die sends it, without ALIVE (R475). -/
def miStatusWord (s : State) : BitVec 32 :=
  let n := s.mi.log.length
  let bits (f : Nat → Bool) : Nat := ((List.range 8).map (fun p => if f p then 2 ^ p else 0)).sum
  pack [(sealCode s.mi.sealSt, 0), (bitN s.mi.sealClosed, 2), (bitN (decide (3584 ≤ n)), 3), (bitN (decide (4096 ≤ n)), 4), (bitN s.mi.timeOk, 5),
    (bitN s.mi.pfSave, 7), (bits (fun p => pByte (miSet s) (pPoint p) == 1), 8), (bits (fun p => (getPt s p).ok), 16)]

/-- The bytes of the status page, MI_ALIVE_LT excepted (R468). -/
def miPage (s : State) : List Byte :=
  [miStatusWord s, Config.miFwVersion, s.mi.pcc, s.mi.unsealCount, BitVec.ofNat 32 s.mi.log.length, s.mi.logLost, s.mi.pageSeq, s.mi.zcEvents].flatMap
    (fun x => bytesLE 4 x.toNat) ++ bytesBE 32 (miHash s).toNat ++ bytesBE 32 Config.miFwHash.toNat ++
  bytesLE 8 ((s.mi.timeRec.map (fun r => r.taiS.toNat)).getD 0)

/-- An update placed on the mailbox link, its words tagged 0xF0 (R443). -/
def pushMail (u : MailUpd) (s : State) : State := onMi (fun m => { m with mailLink := m.mailLink ++ [(u, 0xF0)] }) s

/-- The status page sent after a change, its sequence word advanced by a whole update (R466). -/
def pushPage (s : State) : State :=
  let s := onMi (fun m => { m with pageSeq := m.pageSeq + 2 }) s
  pushMail (.page (miPage s)) s

/-- A TAI instant of an LT value, in tu, by the last time record; without one LT itself is counted (log 59). -/
def miTai (s : State) (t : LT) : Int :=
  match s.mi.timeRec with
  | some r => (r.taiS.toNat * secTu 1 : Nat) + (s.absOf t - s.mi.recAt)
  | none => s.absOf t

/-- The 32 bytes of a log record (R473). -/
def miRecBytes (r : MiLogRec) : List Byte :=
  bytesLE 4 r.seq.toNat ++ bytesLE 2 r.type.toNat ++ [r.point, BitVec.ofNat 8 (sealCode r.state)] ++ bytesLE 8 r.taiS.toNat ++ bytesLE 4 r.pcc.toNat ++
  bytesLE 4 r.arg0.toNat ++ bytesLE 8 r.arg1.toNat

/-- A metrology log record (R472–R474); beyond 4,096 it is counted only. -/
def miLog (type : BitVec 16) (point : BitVec 8) (arg0 : BitVec 32) (arg1 : BitVec 64) (s : State) : State :=
  if 4096 ≤ s.mi.log.length then pushPage (onMi (fun m => { m with logLost := satInc m.logLost }) s) else
  let r : MiLogRec := { seq := s.mi.logSeq, type := type, point := point, state := sealLast s
                        taiS := if s.mi.timeOk then taiSec (miTai s s.now) else 0, pcc := s.mi.pcc, arg0 := arg0, arg1 := arg1 }
  pushPage (pushMail (.rec_ s.mi.log.length (miRecBytes r)) (onMi (fun m => { m with log := m.log ++ [r], logSeq := m.logSeq + 1 }) s))

/-- The first 8 bytes of PARAM_HASH, as a log record holds them. -/
def hash8 (s : State) : BitVec 64 := BitVec.ofNat 64 (ofBytesLE ((bytesBE 32 (miHash s).toNat).take 8))

/-! ## Entering parameters and seal states (R449, R453) -/

/-- The tap selections of a set, as PX holds them (R130, R454). -/
def tapSels (l : List Byte) : List TapSel :=
  (List.range 16).map (fun i =>
    let e := (l.drop (0x20 + 8 * i)).take 8
    { valid := e.any (· != 0), dst := BitVec.ofNat 48 (ofBytesBE (e.take 6)), appid := BitVec.ofNat 16 (ofBytesLE (e.drop 6)) })

/-- What of a point's record its running measurement hangs on: enable, rate, channels, and the set's f0 and selections. -/
def ptShape (l : List Byte) (p : Nat) : List Nat :=
  [pByte l (pPoint p), pByte l (pPoint p + 1), pF0 l] ++ (List.range 6).flatMap (fun c => [pByte l (pChan p c), pByte l (pChan p c + 1)]) ++
  ((l.drop 0x20).take 128).map (·.toNat)

/-- A point whose measurement starts anew at `t`; registers, intervals and what the mailbox shows stay. -/
def freshPoint (t : LT) (x : MiPoint) : MiPoint :=
  { ({} : MiPoint) with
    zcLast := t, seq := x.seq
    ptStatus := x.ptStatus, seg := x.seg, quant := x.quant, measEnd := x.measEnd, reg := x.reg, intStart := x.intStart, intFlags := x.intFlags
    intTai := x.intTai, intAt := x.intAt, intNo := x.intNo, intervals := x.intervals, lastRx := x.lastRx }

/-- Segments held to those that a set gives a point's currents. -/
def segsIn (l : List Byte) (p : Nat) (v : Vector Nat 3) : Vector Nat 3 :=
  Vector.ofFn (fun (c : Fin 3) => min (vget v c.val 0) (pByte l (pPoint p + 0xE + c.val) - 1))

/-- A written set and a new seal state take effect (R449, R453): a point whose record keeps its shape goes on measuring. -/
def applyPending (s : State) : State :=
  if s.mi.paramsNext.isNone && s.mi.sealNext.isNone then s else
  let old := miSet s
  let was := miMetering s
  let s := onMi (fun m => { m with sealSt := m.sealNext.getD m.sealSt, sealNext := none
                                   params := m.paramsNext.orElse (fun _ => m.params), paramsNext := none }) s
  let new := miSet s
  let s := (List.range 8).foldl (fun s p =>
    if was ∧ ptShape old p = ptShape new p then modPt p (fun x => { x with seg := segsIn new p x.seg }) s
    else modPt p (fun x => { freshPoint s.now x with lastRx := s.abs, seg := if old = new then x.seg else .replicate 3 0 }) s) s
  pushPage { s with px := { s.px with tapSel := Vector.ofFn (fun (i : Fin 16) => (tapSels new).getD i.val {}) } }

/-- Some point meters, so that a measurement period will start. -/
def anyPoint (s : State) : Bool := (List.range 8).any (ptOn s)

/-- A change of seal state: from the next measurement period, or at once where no point meters (R449; log 60). -/
def setSeal (x : SealState) (s : State) : State :=
  let s := onMi (fun m => { m with sealNext := some x, mramSeal := x }) s
  if anyPoint s then s else applyPending s

/-! ## Registers (R461, R462) -/

/-- The unit of residues, as a fraction of a register unit. -/
def resUnit : Int := 1099511627776

/-- An increment in residue units added to a register (R462). -/
def addReg (signed : Bool) (inc : Int) (r : MiReg) : MiReg :=
  let tot := r.residue + inc
  let u := tot.ediv resUnit
  let v : Int := if signed then r.value.toInt else r.value.toNat
  let half (n : Nat) : Int := if signed then (2 ^ (n - 1) : Nat) else 0
  let span (n : Nat) (x : Int) : Int := (x + half n).ediv (2 ^ n : Nat)
  let v' := v + u
  { value := BitVec.ofInt 64 v', residue := tot - u * resUnit, wrap := r.wrap + BitVec.ofInt 16 (span 64 v' - span 64 v)
    shortWrap := r.shortWrap + BitVec.ofInt 16 (span 32 (v'.ediv 1000) - span 32 (v.ediv 1000)) }

/-- The short view of register k (R462). -/
def shortView (k : Nat) (r : MiReg) : BitVec 32 :=
  BitVec.ofInt 32 (if 8 ≤ k then r.value.toInt.ediv 1000 else ((r.value.toNat / 1000 : Nat) : Int))

/-- A power over one instant of 1/N s, in residue units of 1 mWh = 3.6 J. -/
def energyOf (power : F) (rate : Nat) : Int := dround (ddiv (dmul power (dint (10 * resUnit))) (dint (36 * rate : Nat)))

/-! ## Intervals and the point block (R465, R469, R470) -/

/-- An interval record (R470). -/
def intervalBytes (x : MiInterval) : List Byte :=
  padTo 128 (bytesLE 8 x.startTai.toNat ++ bytesLE 4 x.lenS.toNat ++ bytesLE 4 x.flags.toNat ++
    padTo 80 (x.delta.flatMap (fun d => bytesLE 8 d.toNat)) ++ bytesLE 4 x.intNo.toNat)

/-- A point block (R469). -/
def miBlock (b : MiPoint) : List Byte :=
  let reg := b.reg.toList
  padTo 256 (bytesLE 4 b.seq.toNat ++ bytesLE 4 b.ptStatus.toNat ++ bytesLE 8 b.measEnd.toNat ++ b.quant.flatMap (fun x => bytesLE 4 x.toNat)) ++
  padTo 100 (reg.flatMap (fun x => bytesLE 8 x.value.toNat) ++ reg.flatMap (fun x => bytesLE 2 x.wrap.toNat)) ++ padTo 12 [] ++
  padTo 144 (((List.range 10).zip reg).flatMap (fun x => bytesLE 4 (shortView x.1 x.2).toNat) ++ reg.flatMap (fun x => bytesLE 2 x.shortWrap.toNat)) ++
  padTo 512 (b.intervals.flatMap intervalBytes)

/-- Point block p sent, its sequence word advanced by a whole update (R466). -/
def pushBlock (p : Nat) (s : State) : State :=
  let s := modPt p (fun x => { x with seq := x.seq + 2 }) s
  if h : p < 8 then pushMail (.block ⟨p, h⟩ (miBlock (getPt s p))) s else s

/-- TIME_UNCERTAIN (R465). -/
def miUncertain (s : State) : Bool := !s.mi.timeOk || (s.mi.timeRec.map (·.ltUncertain)).getD true

/-- T_INT in tu. -/
def intLen (s : State) : Int := (secTu (60 * max (pByte (miSet s) 7) 1) : Nat)

/-- The interval of a point closes at a boundary that lies at or before an instant (R465, R470). -/
def closeInterval (p : Nat) (tag : LT) (tai : Int) (s : State) : State :=
  let x := getPt s p
  let t0 := x.intTai.getD tai
  let b := tai.ediv (intLen s) * intLen s
  let at_ := s.absOf tag - (tai - b)
  let len := at_ - x.intAt
  let r : MiInterval := {
    startTai := taiSec t0, lenS := BitVec.ofInt 32 ((2 * len + secTu 1).ediv (secTu 2))
    flags := x.intFlags ||| (if len ≠ b - t0 then 8 else 0)
    delta := (List.range 10).map (fun k => (vget x.reg k {}).value - vget x.intStart k 0), intNo := x.intNo }
  pushBlock p (modPt p (fun x => { x with
    intTai := some b, intAt := at_, intFlags := 0, intNo := x.intNo + 1, intervals := (r :: x.intervals).take 4
    intStart := Vector.ofFn (fun (k : Fin 10) => (vget x.reg k.val {}).value) }) s)

/-- The interval boundary of an instant, taken from its tag (R465): the first interval after a start is PARTIAL. -/
def judgeInterval (p : Nat) (tag : LT) (s : State) : State :=
  let x := getPt s p
  let tai := miTai s tag
  match x.intTai with
  | none => modPt p (fun x => { x with intTai := some tai, intAt := s.absOf tag, intFlags := 32
                                       intStart := Vector.ofFn (fun (k : Fin 10) => (vget x.reg k.val {}).value) }) s
  | some t0 => if (t0.ediv (intLen s) + 1) * intLen s ≤ tai then closeInterval p tag tai s else s

/-- The interval in progress of a point ends PARTIAL with a loss of power (R470): its increases go as far as the copy of the registers that is
restored, saved at `at_`. -/
def cutInterval (p at_ : Nat) (regs : Vector MiReg 10) (s : State) : State :=
  let x := getPt s p
  match x.intTai with
  | none => s
  | some t0 =>
    if (at_ : Int) < x.intAt then s else
    let r : MiInterval := {
      startTai := taiSec t0, lenS := BitVec.ofInt 32 ((2 * ((at_ : Int) - x.intAt) + secTu 1).ediv (secTu 2)), flags := x.intFlags ||| 32
      delta := (List.range 10).map (fun k => (vget regs k {}).value - vget x.intStart k 0), intNo := x.intNo }
    modPt p (fun x => { x with intTai := none, intNo := x.intNo + 1, intervals := (r :: x.intervals).take 4 }) s

/-- Flags that an instant leaves on its interval (R465). -/
def markInterval (p : Nat) (gap : Bool) (s : State) : State :=
  let f : BitVec 32 := pack [(bitN gap, 0), (bitN (getPt s p).noZc, 1), (bitN (miUncertain s), 2), (bitN (s.mi.sealSt == .unsealed), 4)]
  modPt p (fun x => { x with intFlags := x.intFlags ||| f }) s

/-! ## Correction (R456, R457) -/

/-- The greatest integer not above a finite number. -/
def dfloor (x : F) : Int :=
  match f64 x with
  | .fin n m e =>
    let v := signed n m
    if e ≥ 0 then v * (2 ^ e.toNat : Nat) else v.ediv (2 ^ (-e).toNat : Nat)
  | _ => 0

/-- The four-point Lagrange cubic at μ in 0–1 between the second and the third sample. -/
def lagrange (μ a b c d : F) : F :=
  let p := dadd μ (dint 1)
  let q := dsub μ (dint 1)
  let r := dsub μ (dint 2)
  let six := dint 6
  let two := dint 2
  dadd (dadd (dmul (ddiv (dmul (dmul μ q) r) (dint (-6))) a) (dmul (ddiv (dmul (dmul p q) r) two) b))
    (dadd (dmul (ddiv (dmul (dmul p μ) r) (dint (-2))) c) (dmul (ddiv (dmul (dmul p μ) q) six) d))

/-- f_m, or f0 while it is invalid (R456). -/
def freqOf (s : State) (x : MiPoint) : F := if x.freqInvalid then dint (pF0 (miSet s)) else x.fm

/-- A shift of channel c in samples: whole samples and the fraction (R456, R457). -/
def chanShift (s : State) (p : Nat) (x : MiPoint) (c : Nat) : Int × F :=
  let l := miSet s
  let off := if c < 3 then pChan p c + 12 else pSeg p (c - 3) (vget x.seg (c - 3) 0) + 8
  let σ := ddiv (dmul (drat (p32 l off).toInt 1000000) (dint (pRate l p))) (dmul twoPi (freqOf s x))
  let w := dfloor σ
  (w, dsub σ (dint w))

/-- The gain of channel c (R456, R457). -/
def chanGain (s : State) (p : Nat) (x : MiPoint) (c : Nat) : F :=
  pReal (miSet s) (if c < 3 then pChan p c + 8 else pSeg p (c - 3) (vget x.seg (c - 3) 0) + 4)

/-- Sample i of channel c before correction; samples before the first count as 0 (log 61). -/
def rawAt (x : MiPoint) (c : Nat) (i : Int) : F :=
  if i < 0 ∨ (x.rawN : Int) ≤ i then 0 else ((x.raw[x.rawN - 1 - i.toNat]?).map (fun r => r.v.getD c 0)).getD 0

/-- Voltage sample i of phase c after correction. -/
def corrAt (x : MiPoint) (c : Nat) (i : Int) : F :=
  if i < 0 ∨ (x.corrN : Int) ≤ i then 0 else ((x.corr[x.corrN - 1 - i.toNat]?).map (fun r => r.u.getD c 0)).getD 0

/-- Whether the next instant can be corrected: the samples its shifts need have arrived. -/
def correctable (s : State) (p : Nat) (x : MiPoint) : Bool :=
  decide (x.corrN < x.rawN) && (List.range 6).all (fun c => decide ((x.corrN : Int) + (chanShift s p x c).1 + 2 < x.rawN))

/-- Channel c of instant n, corrected. -/
def corrected (s : State) (p : Nat) (x : MiPoint) (c : Nat) : F :=
  let (w, μ) := chanShift s p x c
  let i : Int := x.corrN + w
  dmul (chanGain s p x c) (lagrange μ (rawAt x c (i - 1)) (rawAt x c i) (rawAt x c (i + 1)) (rawAt x c (i + 2)))

/-- The instant that is corrected next (R456, R458, R459): voltages, currents, voltages a quarter period earlier, and the reference. -/
def correctNext (s : State) (p : Nat) (x : MiPoint) : MiPoint × MiCorr :=
  let r := (x.raw[x.rawN - 1 - x.corrN]?).getD {}
  let u := (List.range 3).map (corrected s p x)
  let c0 : MiCorr := { tag := r.tag, u := u, i := (List.range 3).map (fun c => corrected s p x (c + 3))
                       ref := if !r.missing.getD 0 false then 0 else if !r.missing.getD 1 false then 1 else 2 }
  let x' := { x with corr := c0 :: x.corr, corrN := x.corrN + 1 }
  let d := ddiv (dint (pRate (miSet s) p)) (dmul (dint 4) (freqOf s x))
  let pos := dsub (dint x.corrN) d
  let w := dfloor pos
  let μ := dsub pos (dint w)
  let c1 := { c0 with uq := (List.range 3).map (fun c => lagrange μ (corrAt x' c (w - 1)) (corrAt x' c w) (corrAt x' c (w + 1)) (corrAt x' c (w + 2))) }
  ({ x' with corr := c1 :: x.corr.take (pRate (miSet s) p + 8) }, c1)

/-! ## Measurement periods (R458, R459) -/

/-- NaN of an invalid quantity. -/
def nan32 : BitVec 32 := 0x7FC00000

/-- An angle wrapped to (−π, π]. -/
def wrapPi (x : F) : F :=
  let k := dfloor (ddiv (dadd x dpi) twoPi)
  let y := dsub x (dmul twoPi (dint k))
  if dlt (fneg dpi) y then y else dpi

/-- The angle of voltage X against UA (R459). -/
def phaseAngle (x : MiPoint) (c : Nat) : BitVec 32 :=
  match vget x.zc c none, vget x.zc 0 none with
  | some b, some a =>
    if x.freqInvalid then nan32 else tosingle (wrapPi (fneg (dmul (dmul twoPi x.fm) (drat (ltDiff b a) (secTu 1)))))
  | _, _ => nan32

/-- RMS of a list. -/
def rms (l : List F) : F := dsqrt (ddiv (dsum (l.map (fun v => dmul v v))) (dint l.length))

/-- The mean of products. -/
def meanProd (a b : List F) : F := ddiv (dsum ((a.zip b).map (fun e => dmul e.1 e.2))) (dint a.length)

/-- The RMS currents of a period. -/
def periodCurrents (l : List MiCorr) : List F := (List.range 3).map (fun c => rms (l.map (fun e => e.i.getD c 0)))

/-- The quantities of a period of samples, oldest first, U_A to FREQ (R459, R469). -/
def quantities (s : State) (p : Nat) (x : MiPoint) (l : List MiCorr) : List (BitVec 32) :=
  if l.isEmpty then List.replicate 28 nan32 else
  let col (f : MiCorr → List F) (c : Nat) : List F := l.map (fun e => (f e).getD c 0)
  let three (f : Nat → F) : List F := (List.range 3).map f
  let u := three (fun c => rms (col (·.u) c))
  let i := three (fun c => rms (col (·.i) c))
  let pw := three (fun c => meanProd (col (·.u) c) (col (·.i) c))
  let q := three (fun c => meanProd (col (·.uq) c) (col (·.i) c))
  let sv := three (fun c => dmul (u.getD c 0) (i.getD c 0))
  let nom := dmul (drat 1 1000) (dmul (pReal (miSet s) (pPoint p + 4)) (pReal (miSet s) (pPoint p + 8)))
  let pf := (List.range 3).map (fun c => if dlt (sv.getD c 0) nom then nan32 else tosingle (ddiv (pw.getD c 0) (sv.getD c 0)))
  (u ++ i ++ pw ++ q ++ sv ++ [dsum pw, dsum q, dsum sv]).map tosingle ++ pf ++ [tosingle (ddiv (dsum pw) (dsum sv))] ++
  (List.range 3).map (fun c => tosingle (datan2 (q.getD c 0) (pw.getD c 0))) ++ [phaseAngle x 1, phaseAngle x 2] ++
  [if x.freqInvalid then nan32 else tosingle x.fm]

/-- The segment a current selects from the one in force, with 1 % hysteresis (R457); the moves repeat until neither condition holds. -/
def nextSeg (l : List Byte) (p c : Nat) (i : F) : Nat → Nat → Nat
  | 0, j => j
  | n + 1, j =>
    let nSeg := pByte l (pPoint p + 0xE + c)
    if j + 1 < nSeg ∧ !dlt i (dmul (drat 101 100) (pReal l (pSeg p c (j + 1)))) then nextSeg l p c i n (j + 1)
    else if 0 < j ∧ dlt i (dmul (drat 99 100) (pReal l (pSeg p c j))) then nextSeg l p c i n (j - 1)
    else j

/-- A measurement period of samples, newest first, closes (R457, R459, R466): the quantities, the flags, the block, and what takes effect with
the next period. -/
def closePeriod (p : Nat) (l : List MiCorr) (s : State) : State :=
  let x := getPt s p
  let set := miSet s
  let i := periodCurrents l
  let creep := if l.isEmpty then x.creep else (List.range 3).all (fun c => dlt (i.getD c 0) (pReal set (pPoint p + 0x14)))
  let st' : BitVec 32 := pack [(bitN x.noZc, 0), (bitN x.freqInvalid, 1), (bitN x.gap, 2), (bitN (miUncertain s), 3), (bitN (s.mi.sealSt == .unsealed), 4),
    (bitN x.creep, 5), (bitN x.segChange, 6), (bitN x.tapLost, 7), (vget x.seg 0 0, 8), (vget x.seg 1 0, 11), (vget x.seg 2 0, 14)]
  let seg : Vector Nat 3 := Vector.ofFn (fun (c : Fin 3) => if l.isEmpty then vget x.seg c.val 0 else nextSeg set p c.val (i.getD c.val 0) 8 (vget x.seg c.val 0))
  let s := modPt p (fun x => { x with
    quant := quantities s p x l.reverse, ptStatus := st', measEnd := (l.head?.map (·.tag)).getD x.measEnd
    ok := !x.gap && !x.noZc && !x.tapLost, iPrev := if l.isEmpty then x.iPrev else i, creep := creep
    seg := seg, segChange := seg != x.seg, gap := x.gapFrom.isSome, period := [] }) s
  applyPending (pushPage (pushBlock p s))

/-- A zero-crossing transition: recorded while fewer than 16 were in the last hour, else counted (R458). -/
def zcLog (p : Nat) (type : BitVec 16) (s : State) : State :=
  let l := s.within (secTu 3600) s.mi.zcLogs
  if l.length < 16 then miLog type (BitVec.ofNat 8 p) 0 0 (onMi (fun m => { m with zcLogs := s.abs :: l }) s)
  else pushPage (onMi (fun m => { m with zcLogs := l, zcEvents := m.zcEvents + 1 }) s)

/-- A positive crossing of the reference at an instant (R458). -/
def refCrossing (p c : Nat) (t : LT) (s : State) : State :=
  let x := getPt s p
  let restart (s : State) : State := modPt p (fun x => { x with zcFirst := some t, zcCount := 0, zcLast := t, zc := Vector.ofFn (fun (v : Fin 3) => if v.val = c then some t else none) }) s
  if x.noZc then
    let s := closePeriod p x.period s
    restart (zcLog p 0x0022 (modPt p (fun x => { x with noZc := false }) s))
  else match x.zcFirst with
    | none => restart (modPt p (fun x => { x with period := [] }) s)
    | some t0 =>
      if x.zcCount + 1 < pCycles (miSet s) then modPt p (fun x => { x with zcCount := x.zcCount + 1, zcLast := t }) s
      else
        let d := (ltDiff t t0).toNat
        let s := modPt p (fun x => { x with fm := drat (pCycles (miSet s) * secTu 1 : Nat) d, freqInvalid := decide (d = 0) }) s
        restart (closePeriod p (getPt s p).period s)

/-- Crossings of the three voltages between the instant before and this one (R458). -/
def crossings (p : Nat) (before : Option MiCorr) (m : MiCorr) (s : State) : State :=
  let x := getPt s p
  let h := dmul (dmul (drat (pByte (miSet s) (pPoint p + 0xC)) 100) (pReal (miSet s) (pPoint p + 4))) (dsqrt (dint 2))
  let at_ (c : Nat) : Option LT :=
    match before with
    | some b =>
      let u0 := b.u.getD c 0
      let u1 := m.u.getD c 0
      if vget x.armed c false && !dlt u1 0 then
        some (b.tag + BitVec.ofInt 64 (dround (ddiv (dmul (fneg u0) (dint (ltDiff m.tag b.tag))) (dsub u1 u0))))
      else none
    | none => none
  let s := modPt p (fun x => { x with
    armed := Vector.ofFn (fun (c : Fin 3) => if (at_ c.val).isSome then false else vget x.armed c.val false || !dlt (fneg h) (m.u.getD c.val 0))
    zc := Vector.ofFn (fun (c : Fin 3) => (at_ c.val).orElse (fun _ => vget x.zc c.val none)) }) s
  match at_ m.ref with
  | some t => refCrossing p m.ref t s
  | none => s

/-! ## Energy (R461) -/

/-- The energy of one instant, from the window that ends with it. -/
def addEnergy (p : Nat) (s : State) : State :=
  let x := getPt s p
  let set := miSet s
  let n := pWindow set p
  let w := x.corr.take n
  let mean (l : List F) : F := ddiv (dsum l) (dint n)
  let sum3 (f : MiCorr → List F) (e : MiCorr) : F := dsum ((List.range 3).map (fun c => dmul ((f e).getD c 0) (e.i.getD c 0)))
  let pm := mean (w.map (sum3 (·.u)))
  let qm := mean (w.map (sum3 (·.uq)))
  let sm := dsum ((List.range 3).map (fun c => dsqrt (dmul (mean (w.map (fun e => dmul (e.u.getD c 0) (e.u.getD c 0))))
    (mean (w.map (fun e => dmul (e.i.getD c 0) (e.i.getD c 0)))))))
  let pPos := !dlt pm 0
  let qPos := !dlt qm 0
  let quad := if pPos then (if qPos then 2 else 5) else (if qPos then 3 else 4)
  let rate := pRate set p
  let inc (k : Nat) : Int :=
    if k = 0 then (if pPos then energyOf (fabs pm) rate else 0)
    else if k = 1 then (if pPos then 0 else energyOf (fabs pm) rate)
    else if k ≤ 5 then (if k = quad then energyOf (fabs qm) rate else 0)
    else if k = 6 then (if pPos then energyOf sm rate else 0)
    else if k = 7 then (if pPos then 0 else energyOf sm rate)
    else if k = 8 then energyOf pm rate else energyOf qm rate
  modPt p (fun x => { x with reg := Vector.ofFn (fun (k : Fin 10) => addReg (decide (8 ≤ k.val)) (inc k.val) (vget x.reg k.val {})) }) s

/-! ## Instants (R448) -/

/-- The instants whose correction has become possible, in order (R456–R461, R465). -/
def correctAll (p : Nat) : Nat → State → State
  | 0, s => s
  | n + 1, s =>
    let x := getPt s p
    if !correctable s p x then s else
    let r := correctNext s p x
    let before := x.corr.head?
    let s := modPt p (fun _ => r.1) s
    let s := judgeInterval p r.2.tag s
    let s := crossings p before r.2 s
    let s := modPt p (fun x => { x with period := r.2 :: x.period }) s
    let s := markInterval p (getPt s p).gap s
    correctAll p n (if (getPt s p).creep then s else addEnergy p s)

/-- A metering gap ends at an instant (R448): one record with its start and its duration. -/
def endGap (p : Nat) (tag : LT) (s : State) : State :=
  match (getPt s p).gapFrom with
  | some (t, from_) =>
    let ms := (s.absOf tag - from_).toNat / msTu 1
    miLog 0x0020 (BitVec.ofNat 8 p) (BitVec.ofNat 32 ms) t (modPt p (fun x => { x with gapFrom := none }) s)
  | none => s

/-- One instant of a point with the samples it has (R447, R448, R456). -/
def takeInstant (p : Nat) (tag : LT) (vals : List (Nat × Int)) (s : State) : State :=
  let x := getPt s p
  let miss := (List.range 6).map (fun c => !vals.any (fun v => v.1 == c))
  let runs : Vector Nat 6 := Vector.ofFn (fun (c : Fin 6) => if miss.getD c.val true then vget x.missRun c.val 0 + 1 else 0)
  let s := modPt p (fun x => { x with missRun := runs, gap := x.gap || miss.any id }) s
  if x.gapFrom.isSome ∧ miss.any id then
    judgeInterval p tag (markInterval p true s)
  else if x.gapFrom.isNone ∧ runs.toList.any (fun n => decide (2 < n)) then
    judgeInterval p tag (markInterval p true (modPt p (fun x => { x with gapFrom := some (tag, (s.absOf tag).toNat) }) s))
  else
    let s := endGap p tag s
    let v := (List.range 6).map (fun c => ((vals.find? (fun e => e.1 == c)).map (·.2)).getD (x.prev.getD c 0))
    let w := (List.range 6).map (fun c => dmul (dint (v.getD c 0)) (pReal (miSet s) (pChan p c + 4)))
    let keep := pRate (miSet s) p / 16 + 64
    let s := modPt p (fun x => { x with
      prev := v, rawN := x.rawN + 1, raw := ({ tag := tag, v := w, missing := miss } : MiRaw) :: x.raw.take (keep + (x.rawN - x.corrN))
      zcLast := if x.rawN = 0 then tag else x.zcLast }) s
    correctAll p ((getPt s p).rawN - (getPt s p).corrN) s

/-- The instants of the grid between the last processed one and the next: they have no sample at all (R448). The first three are judged one
by one; from then on the point is held, and the rest only lengthen its metering gap. -/
def skipInstants (p : Nat) (rate : Nat) (from_ : LT) (n : Nat) (s : State) : State :=
  (List.range (min n 3)).foldl (fun s j => takeInstant p (gridTag from_ (j + 1) rate) [] s) s

/-- The point's earliest waiting instant is processed (R448). -/
def closeInstant (p : Nat) (s : State) : State :=
  let x := getPt s p
  match x.waiting with
  | [] => s
  | i :: rest =>
    let rate := pRate (miSet s) p
    let tag := gridTag i.sec i.k rate
    let s := modPt p (fun x => { x with waiting := rest, lastInst := some (i.sec, i.k) }) s
    let s := match x.lastInst with
      | some (sec, k) =>
        let last := gridTag sec k rate
        let n := (roundDiv (ltDiff tag last * rate) (secTu 1)).toNat - 1
        if n = 0 then s else skipInstants p rate last n s
      | none => s
    takeInstant p tag i.vals s

/-- An instant that has all six samples. -/
def instantFull (i : MiInst) : Bool := (List.range 6).all (fun c => i.vals.any (fun v => v.1 == c))

/-- The complete instants at the front of the queue are processed. -/
def closeFull (p : Nat) : Nat → State → State
  | 0, s => s
  | n + 1, s =>
    match (getPt s p).waiting with
    | i :: _ => if instantFull i then closeFull p n (closeInstant p s) else s
    | [] => s

/-- The second of a sample: the one whose instant lies nearest to its receive timestamp, counted from the last time record (R448; log 59). -/
def miSecond (s : State) (rx : LT) (k rate : Nat) : LT :=
  let base : Int := if s.mi.timeRec.isSome then s.mi.recAt else 0
  let d := s.absOf rx - base - (k * secTu 1 / rate : Nat)
  BitVec.ofInt 64 (base + (2 * d + secTu 1).ediv (secTu 2) * secTu 1)

/-- An instant in the waiting queue changed, or opened in order. -/
def putInst (sec : LT) (k rate : Nat) (rx : LT) (f : MiInst → MiInst) : List MiInst → List MiInst
  | [] => [f { sec := sec, k := k, tFirst := rx }]
  | y :: l =>
    if y.sec = sec ∧ y.k = k then f y :: l
    else if 0 < ltDiff (gridTag y.sec y.k rate) (gridTag sec k rate) then f { sec := sec, k := k, tFirst := rx } :: y :: l
    else y :: putInst sec k rate rx f l

/-- One ASDU's samples for a point whose channels take them from a selection (R447, R448). -/
def pointAsdu (p sel : Nat) (rx : LT) (a : SvAsdu) (s : State) : State :=
  let set := miSet s
  let rate := pRate set p
  let chans := (List.range 6).filter (fun c => pByte set (pChan p c) == sel)
  if chans.isEmpty ∨ rate ≤ a.smpCnt then s else
  let sec := miSecond s rx a.smpCnt rate
  let tag := gridTag sec a.smpCnt rate
  let late := match (getPt s p).lastInst with
    | some (ls, lk) => decide (ltDiff tag (gridTag ls lk rate) ≤ 0)
    | none => false
  let good := chans.filterMap (fun c =>
    let o := 8 * pByte set (pChan p c + 1)
    if a.seqData.length < o + 8 ∨ (ofBytesBE ((a.seqData.drop (o + 4)).take 4)) % 4 ≠ 0 then none
    else some (c, (BitVec.ofNat 32 (ofBytesBE ((a.seqData.drop o).take 4))).toInt))
  let s := modPt p (fun x => { x with lastRx := s.abs, tapLost := false }) s
  if late then s else
  let add (i : MiInst) : MiInst := { i with vals := i.vals ++ good.filter (fun v => !i.vals.any (fun w => w.1 == v.1)) }
  let s := modPt p (fun x => { x with waiting := putInst sec a.smpCnt rate rx add x.waiting }) s
  closeFull p (getPt s p).waiting.length s

/-- The instants that wait are processed as they are. -/
def closeWaiting (p : Nat) : Nat → State → State
  | 0, s => s
  | n + 1, s => closeWaiting p n (closeInstant p s)

/-- A point that receives nothing at all is held from the third instant without a sample on (R448); one that never had a sample, from the start
of its metering. -/
def holdSilent (p : Nat) (s : State) : State :=
  let s := closeWaiting p (getPt s p).waiting.length s
  let x := getPt s p
  match x.gapFrom, x.lastInst with
  | some _, _ => s
  | none, some (sec, k) =>
    let last := gridTag sec k (pRate (miSet s) p)
    modPt p (fun x => { x with lastInst := some (gridTag last 3 (pRate (miSet s) p), 0) }) (skipInstants p (pRate (miSet s) p) last 3 s)
  | none, none => modPt p (fun x => { x with gap := true, gapFrom := some (BitVec.ofNat 64 x.lastRx, x.lastRx) }) s

/-! ## Saves (R463) -/

/-- The MRAM copy that is older, or incomplete. -/
def olderSave (s : State) : Nat :=
  let a := vget s.mi.saves 0 {}
  let b := vget s.mi.saves 1 {}
  if !a.complete then 0 else if !b.complete then 1 else if a.gen ≤ b.gen then 0 else 1

/-- The older copy written with registers, residues, wrap counters and segments; a write that is not completed leaves it unusable. -/
def saveRegs (done powerFail : Bool) (s : State) : State :=
  let g := max (vget s.mi.saves 0 {}).gen (vget s.mi.saves 1 {}).gen + 1
  let x : MiSave := { gen := g, complete := done, regs := s.mi.point.toList.map (fun p => p.reg.toList), segs := s.mi.point.toList.map (fun p => p.seg.toList)
                      at_ := s.abs, powerFail := powerFail
                      gaps := (List.range 8).filterMap (fun p => (getPt s p).gapFrom.map (fun g => (p, g.1, g.2))) }
  onMi (fun m => { m with saves := vmod m.saves (olderSave s) (fun _ => x) }) s

/-- The newest complete copy (R463). -/
def newestSave (s : State) : Option MiSave :=
  ((sortBy (·.gen) (s.mi.saves.toList.filter (·.complete))).reverse).head?

end Sys2Proof.Machine
end

