-- ==== Sys2Proof/Machine/Metrology.lean ====
section
/-! DEFINITION. Meanings of the metrology die's commands (chapter 15): what reaches it by the tap link, its timers, its power, its seal, its
service port, and the mailbox store of the main die. -/

namespace Sys2Proof.Machine

/-! ## The tap link (R443, R446, R447) -/

/-- MI_TAP_FRAME (R447): the die takes the oldest frame of the tap link, read as `f` (log 55). `bad` of its words have an uncorrectable error: they
are discarded and counted (R443), and a frame that misses a word is malformed. -/
def execMiTapFrame (f : SvFrame) (bad : Nat) (s : State) : Res :=
  match s.px.tapLink with
  | [] => .next s
  | (_, rx, _) :: rest =>
    let s := { s with px := { s.px with tapLink := rest } }
    if bad ≠ 0 then .next (onMi (fun m => { m with tapDiscard := m.tapDiscard + BitVec.ofNat 32 bad }) s)
    else if !miMetering s || !f.formOk || f.asdus.isEmpty || decide (8 < f.asdus.length) then .next s
    else
      match f.key with
      | .ip _ _ => .next s
      | .l2 dst appid _ =>
        let sels := ((List.range 16).zip (tapSels (miSet s))).filterMap (fun e =>
          if e.2.valid ∧ e.2.dst = dst ∧ e.2.appid = appid then some e.1 else none)
        .next (f.asdus.foldl (fun s a => (List.range 8).foldl (fun s p =>
          if ptOn s p then sels.foldl (fun s sel => pointAsdu p sel rx a s) s else s) s) s)

/-- MI_TIME_RECORD (R446): a record with TAI_VALID sets TIME_OK; its return after a loss is logged (R472). An interval of a point that has no
instants closes on time (R465). -/
def execMiTimeRecord (bad : Bool) (s : State) : Res :=
  match s.mi.timeLink with
  | [] => .next s
  | (r, _) :: rest =>
    let s := onMi (fun m => { m with timeLink := rest }) s
    if bad then .next (onMi (fun m => { m with tapDiscard := m.tapDiscard + 1 }) s)
    else if !s.mi.powered then .next s
    else
      let first := s.mi.timeRec.isNone
      let back := r.taiValid && !s.mi.timeOk
      let s := onMi (fun m => { m with
        timeRec := some r, recAt := s.absOf r.lt, timeOk := m.timeOk || r.taiValid, timeAt := if r.taiValid then s.abs else m.timeAt }) s
      let s := if back && !first then miLog 0x0024 0xFF 0 0 s else pushPage s
      .next ((List.range 8).foldl (fun s p =>
        if ptOn s p && ((getPt s p).tapLost || (getPt s p).gapFrom.isSome) then judgeInterval p r.lt (markInterval p true s) else s) s)

/-- TIME_OK_TIMEOUT (R446, R472): no valid time record within 2 s. -/
def execTimeOkTimeout (s : State) : Res :=
  if !s.mi.powered ∨ !s.mi.timeOk ∨ s.abs < s.mi.timeAt + secTu 2 then .next s
  else .next (miLog 0x0023 0xFF 0 0 (onMi (fun m => { m with timeOk := false }) s))

/-! ## Timers of a point (R448, R458) -/

/-- MI_INSTANT_CLOSE (R448): W_mi after its first sample the point's earliest instant is processed, and complete ones behind it follow. -/
def execMiInstantClose (p : Fin 8) (s : State) : Res :=
  let p := p.val
  match (getPt s p).waiting with
  | [] => .next s
  | i :: _ =>
    if ptOn s p && ltReached s.now (ltAdd i.tFirst (usTu (10 * p16 (miSet s) (pPoint p + 2)))) then
      let s := closeInstant p s
      .next (closeFull p (getPt s p).waiting.length s)
    else .next s

/-- ZC_TIMEOUT (R458): no crossing for T_ZC closes the period at that instant. The tags decide; while the point is held or has no instants, the
die's clock. -/
def execZcTimeout (p : Fin 8) (s : State) : Res :=
  let p := p.val
  let x := getPt s p
  let end_ := ltAdd x.zcLast (msTu (10 * pByte (miSet s) (pPoint p + 0xD)))
  let reached := match x.corr.head? with
    | some m => ltReached m.tag end_ || ((x.tapLost || x.gapFrom.isSome) && ltReached s.now end_)
    | none => ltReached s.now end_
  if !ptOn s p || !reached then .next s else
  let entered := !x.noZc
  let (old, new) := (x.period.filter (fun m => !ltReached m.tag end_), x.period.filter (fun m => ltReached m.tag end_))
  let s := modPt p (fun x => { x with noZc := true, freqInvalid := true, zcFirst := none, zcCount := 0, zcLast := end_, zc := .replicate 3 none }) s
  let s := if entered then zcLog p 0x0021 s else s
  .next (modPt p (fun x => { x with period := if x.rawN = 0 then [] else new }) (closePeriod p old s))

/-- TAP_LOST (R448): a point receives no sample for 1 s; it is held. -/
def execTapLost (p : Fin 8) (s : State) : Res :=
  let x := getPt s p.val
  if !ptOn s p.val || x.tapLost || decide (s.abs < x.lastRx + secTu 1) then .next s
  else .next (pushPage (pushBlock p.val
    (modPt p.val (fun x => { x with tapLost := true, ok := false, ptStatus := x.ptStatus ||| 0x80 }) (holdSilent p.val s))))

/-! ## Power (R450, R463) -/

/-- REGISTER_SAVE (R463, R466): once per second; the status page goes out with it. -/
def execRegisterSave (s : State) : Res := if !s.mi.powered then .next s else .next (pushPage (saveRegs true false s))

/-- POWER_FAIL_SAVE (R463): VDD_MI falls below 0.76 V; `done` tells whether the supply held until the save was complete. The die is then
without power until MI_POWER_UP. -/
def execPowerFailSave (done : Bool) (s : State) : Res :=
  if !s.mi.powered then .next s else .next (onMi (fun m => { m with powered := false, downAt := s.abs }) (saveRegs done true s))

/-- The first copy of the parameter set that can be read. -/
def readSet (a b : Option (List Byte)) : Option (List Byte) :=
  match a with
  | some l => some l
  | none => b

/-- MI_POWER_UP (R448–R450, R463, R470, R472): `bad` names the MRAM words found uncorrectable: the parameter copies 0 and 1 and the register copies 2
and 3; `closed` is the seal switch. -/
def execMiPowerUp (bad : List (Fin 4)) (closed : Bool) (s : State) : Res :=
  let torn := (s.mi.saves.toList.map (fun x => if x.complete then 0 else x.gen)).foldl max 0
  let lose (i : Nat) (x : MiSave) : MiSave := if bad.any (fun b => b.val == 2 + i) then { x with complete := false } else x
  let drop (i : Nat) (x : Option (List Byte)) : Option (List Byte) := if bad.any (fun b => b.val == i) then none else x
  let s := onMi (fun m => { m with
    powered := true, sealClosed := closed, timeOk := false, timeRec := none, part0 := none, sealNext := none, paramsNext := none, zcLogs := []
    mram := #v[drop 0 (vget m.mram 0 none), drop 1 (vget m.mram 1 none)], saves := #v[lose 0 (vget m.saves 0 {}), lose 1 (vget m.saves 1 {})] }) s
  let save := newestSave s
  let set := readSet (vget s.mi.mram 0 none) (vget s.mi.mram 1 none)
  let seal_ : SealState := match set with
    | some _ => s.mi.mramSeal
    | none => if s.mi.mramSeen then .fault else .blank
  let pf := match save with
    | some x => x.powerFail && decide (torn < x.gen)
    | none => false
  let restored (p : Nat) : Vector MiReg 10 := match save with
    | some v => Vector.ofFn (fun (k : Fin 10) => (v.regs.getD p []).getD k.val {})
    | none => .replicate 10 {}
  let cut := (List.range 8).filter (fun p => (getPt s p).intTai.isSome)
  let s := match save with
    | some v => (List.range 8).foldl (fun s p => cutInterval p v.at_ (restored p) s) s
    | none => s
  let s := onMi (fun m => { m with
    params := set, sealSt := seal_, pfSave := pf
    point := Vector.ofFn (fun (p : Fin 8) =>
      let x := vget m.point p.val {}
      let regs := restored p.val
      { ({} : MiPoint) with
        reg := regs, intStart := Vector.ofFn (fun (k : Fin 10) => (vget regs k.val {}).value), intNo := x.intNo, intervals := x.intervals, seq := x.seq
        lastRx := s.abs, zcLast := s.now
        seg := match save with
          | some v => Vector.ofFn (fun (c : Fin 3) => (v.segs.getD p.val []).getD c.val 0)
          | none => .replicate 3 0 }) }) s
  let s := { s with px := { s.px with tapSel := Vector.ofFn (fun (i : Fin 16) => (tapSels (miSet s)).getD i.val {}) } }
  let lost : BitVec 64 := match save with
    | some x => if pf then 0 else BitVec.ofNat 64 (s.mi.downAt - x.at_)
    | none => 0
  let s := miLog 0x0001 0xFF 0 lost s
  let s := bad.foldl (fun s _ => miLog 0x0030 0xFF 0 0 s) s
  let s := match save with
    | some x => x.gaps.foldl (fun s g => miLog 0x0020 (BitVec.ofNat 8 g.1) (BitVec.ofNat 32 ((x.at_ - g.2.2) / msTu 1)) g.2.1 s) s
    | none => s
  let s := cut.foldl (fun s p => pushBlock p s) s
  .next (if seal_ = .sealed ∧ !closed then
    miLog 0x0012 0xFF 0 0 (setSeal .unsealed (onMi (fun m => { m with unsealCount := satInc m.unsealCount }) s)) else s)

/-! ## The seal switch (R450) -/

/-- SEAL_OPEN (R450): MI_SEAL_N debounced high; in SEALED the die goes to UNSEALED, whether or not the log has room. -/
def execSealOpen (s : State) : Res :=
  if !s.mi.powered then .next s else
  let s := onMi (fun m => { m with sealClosed := false }) s
  if sealLast s ≠ .sealed then .next (pushPage s)
  else .next (miLog 0x0012 0xFF 0 0 (setSeal .unsealed (onMi (fun m => { m with unsealCount := satInc m.unsealCount }) s)))

/-- SEAL_CLOSE (R450): MI_SEAL_N debounced low. -/
def execSealClose (s : State) : Res :=
  if !s.mi.powered then .next s else .next (pushPage (onMi (fun m => { m with sealClosed := true }) s))

/-! ## The service port (R452, R453) -/

/-- The statuses of R452. -/
def svcOk : BitVec 8 := 0
def svcSealed : BitVec 8 := 1
def svcFrameErr : BitVec 8 := 2
def svcBadParam : BitVec 8 := 3
def svcLogFull : BitVec 8 := 4
def svcSealOpen : BitVec 8 := 5
def svcHashMismatch : BitVec 8 := 6

/-- What the CRC of a service frame covers: CMD, LEN and BODY (R452). -/
def svcCovered (cmd : BitVec 8) (body : List Byte) : List Byte := cmd :: bytesBE 2 body.length ++ body

/-- A service frame (R452). -/
def svcFrame (cmd : BitVec 8) (body : List Byte) : List Byte :=
  0x7E :: svcCovered cmd body ++ bytesBE 2 (crcCcitt (svcCovered cmd body)).toNat

/-- CMD and BODY of a frame that is whole, has its LEN in range and a right CRC (R452). -/
def svcRead (l : List Byte) : Option (BitVec 8 × List Byte) :=
  let cmd := l.getD 1 0
  let n := ofBytesBE ((l.drop 2).take 2)
  let body := (l.drop 4).take n
  if n ≤ 8192 ∧ l = svcFrame cmd body then some (cmd, body) else none

/-- A request frame with one of the commands `mine`: one whose CRC is wrong is discarded, and so is any while the die is without power; else one
response answers it (R452). -/
def service (mine : BitVec 8 → Bool) (frame : List Byte) (s : State) (act : List Byte → State → State × BitVec 8 × List Byte) : Res :=
  match svcRead frame with
  | none => .next s
  | some (cmd, body) =>
    if !s.mi.powered || !mine cmd then .next s else
    let r := act body s
    .next (emit (.svc (svcFrame (cmd ||| 0x80) (r.2.1 :: r.2.2))) r.1)

/-- READ_ID (R453). -/
def execReadId (frame : List Byte) (s : State) : Res :=
  service (· == 0x01) frame s (fun body s =>
    if body ≠ [] then (s, svcBadParam, []) else
    (s, svcOk, bytesBE 4 Config.miFwVersion.toNat ++ bytesBE 32 (miHash s).toNat ++ bytesBE 32 Config.miFwHash.toNat ++ bytesBE 4 s.mi.pcc.toNat ++
      bytesBE 4 s.mi.unsealCount.toNat ++ [BitVec.ofNat 8 (sealCode s.mi.sealSt)]))

/-- READ_PARAM (R453). -/
def execReadParam (frame : List Byte) (s : State) : Res :=
  service (· == 0x02) frame s (fun body s =>
    let o := ofBytesBE (body.take 2)
    let n := ofBytesBE (body.drop 2)
    if body.length ≠ 4 ∨ n < 1 ∨ 8192 < n ∨ (miSet s).length < o + n then (s, svcBadParam, []) else (s, svcOk, ((miSet s).drop o).take n))

/-- The reserved bytes of a point's record, as offsets in it. -/
def pointRsv : List Nat :=
  [0x11, 0x12, 0x13] ++ (List.range 8).map (· + 0x18) ++ (List.range 6).flatMap (fun c => [0x22 + 16 * c, 0x23 + 16 * c]) ++ (List.range 96).map (· + 0x1A0)

/-- A gain within 0.9–1.1 (R455). -/
def gainOk (l : List Byte) (o : Nat) : Bool := !dlt (pReal l o) (drat 9 10) && !dlt (drat 11 10) (pReal l o) && !(f64 (pReal l o)).isNan

/-- A phase within ±50,000 µrad (R455). -/
def phaseOk (l : List Byte) (o : Nat) : Bool := decide ((p32 l o).toInt.natAbs ≤ 50000)

/-- The segments of a current (R455). -/
def segsOk (l : List Byte) (p c : Nat) : Bool :=
  let n := pByte l (pPoint p + 0xE + c)
  decide (1 ≤ n ∧ n ≤ 8) && ((p32 l (pSeg p c 0) &&& 0x7FFFFFFF) == 0) &&
  (List.range n).all (fun j => gainOk l (pSeg p c j + 4) && phaseOk l (pSeg p c j + 8) && (j == 0 || dlt (pReal l (pSeg p c (j - 1))) (pReal l (pSeg p c j))))

/-- An enabled point's record (R455); a disabled one is judged by its reserved bytes alone (log 62). -/
def pointOk (l : List Byte) (p : Nat) : Bool :=
  let b (o : Nat) : Nat := pByte l (pPoint p + o)
  (pointRsv.all (fun o => b o == 0)) && decide (b 0 ≤ 1) &&
  (b 0 == 0 ||
    (decide (b 1 ≤ 2 ∧ p16 l (pPoint p + 2) ≤ 400 ∧ 1 ≤ b 0xC ∧ b 0xC ≤ 20 ∧ 2 ≤ b 0xD ∧ b 0xD ≤ 100) &&
      (List.range 6).all (fun c =>
        let sel := pByte l (pChan p c)
        decide (sel ≤ 15 ∧ pByte l (pChan p c + 1) ≤ 23) && ((tapSels l).getD sel {}).valid &&
        (if c < 3 then gainOk l (pChan p c + 8) && phaseOk l (pChan p c + 12) else p32 l (pChan p c + 8) == 0 && p32 l (pChan p c + 12) == 0)) &&
      (List.range 3).all (segsOk l p)))

/-- Whether a set passes R455. -/
def setOk (l : List Byte) : Bool :=
  decide (l.length = 4256) && p32 l 0 == 0x5254454D && decide (p16 l 4 = 1) && (pF0 l == 50 || pF0 l == 60) &&
  [1, 5, 10, 15, 30, 60].contains (pByte l 7) && (List.range 24).all (fun i => pByte l (8 + i) == 0) && (List.range 8).all (pointOk l)

/-- WRITE_PARAM (R453, R455): part 1 completes the set, which replaces both MRAM copies and applies from the next measurement period. -/
def execWriteParam (frame : List Byte) (s : State) : Res :=
  service (· == 0x03) frame s (fun body s =>
    if sealLast s = .sealed then (s, svcSealed, [])
    else if 4096 ≤ s.mi.log.length then (s, svcLogFull, [])
    else
      match body, s.mi.part0 with
      | 0 :: l, _ => if l.length = 4096 then (onMi (fun m => { m with part0 := some (l, s.abs) }) s, svcOk, []) else (s, svcBadParam, [])
      | 1 :: l, some (l0, t) =>
        let set := l0 ++ l
        let s := onMi (fun m => { m with part0 := none }) s
        if t + secTu 10 < s.abs ∨ !setOk set then (s, svcBadParam, []) else
        let was := sealLast s
        let s := onMi (fun m => { m with paramsNext := some set, mram := .replicate 2 (some set), mramSeen := true, pcc := m.pcc + 1
                                         mramSeal := if was = .blank ∨ was = .fault then .unsealed else m.mramSeal }) s
        let s := if was = .blank ∨ was = .fault then setSeal .unsealed s else if anyPoint s then s else applyPending s
        let s := miLog 0x0010 0xFF 0 (BitVec.ofNat 64 (ofBytesLE ((bytesBE 32 (Config.sha256 set).toNat).take 8))) s
        (if was = .blank ∨ was = .fault then miLog 0x0012 0xFF 0 0 s else s, svcOk, [])
      | _, _ => (s, svcBadParam, []))

/-- SEAL (R453). -/
def execSeal (frame : List Byte) (s : State) : Res :=
  service (· == 0x04) frame s (fun body s =>
    if sealLast s = .sealed then (s, svcSealed, [])
    else if body.length ≠ 32 ∨ sealLast s ≠ .unsealed then (s, svcBadParam, [])
    else if !s.mi.sealClosed then (s, svcSealOpen, [])
    else if ofBytesBE body ≠ (miHash s).toNat then (s, svcHashMismatch, [])
    else if 4096 ≤ s.mi.log.length then (s, svcLogFull, [])
    else (miLog 0x0011 0xFF 0 (hash8 s) (setSeal .sealed s), svcOk, []))

/-- One point's registers reset (R453): its record names a register and the value it had; which of the ten, the spec does not say (log 63). The
interval in progress keeps its true increases. -/
def resetPoint (p : Nat) (s : State) : State :=
  let (n, s) := draw s
  let k := n % 10
  let old := getPt s p
  let s := modPt p (fun x => { x with
    reg := .replicate 10 {}, intStart := Vector.ofFn (fun (k : Fin 10) => vget x.intStart k.val 0 - (vget x.reg k.val {}).value) }) s
  pushBlock p (miLog 0x0014 (BitVec.ofNat 8 p) (BitVec.ofNat 32 k) (vget old.reg k {}).value s)

/-- RESET_REGISTERS (R451, R453). -/
def execResetRegisters (frame : List Byte) (s : State) : Res :=
  service (· == 0x05) frame s (fun body s =>
    if sealLast s = .sealed then (s, svcSealed, [])
    else if 4096 ≤ s.mi.log.length then (s, svcLogFull, [])
    else if sealLast s ≠ .unsealed then (s, svcBadParam, [])
    else match body with
      | [m] => ((List.range 8).foldl (fun s p => if m.getLsbD p then resetPoint p s else s) s, svcOk, [])
      | _ => (s, svcBadParam, []))

/-- CLEAR_LOG (R451, R474): accepted in UNSEALED only; its own record is the first of the new log. -/
def execClearLog (frame : List Byte) (s : State) : Res :=
  service (· == 0x06) frame s (fun body s =>
    if sealLast s = .sealed then (s, svcSealed, [])
    else if sealLast s ≠ .unsealed ∨ body ≠ [] then (s, svcBadParam, [])
    else
      let n := s.mi.log.length
      (miLog 0x0013 0xFF (BitVec.ofNat 32 n) 0 (pushMail .cleared (onMi (fun m => { m with log := [], logSeq := 1 }) s)), svcOk, []))

/-- READ_LOG (R453): the records that exist from the first one named. -/
def execReadLog (frame : List Byte) (s : State) : Res :=
  service (· == 0x07) frame s (fun body s =>
    let o := ofBytesBE (body.take 2)
    let n := ofBytesBE (body.drop 2)
    if body.length ≠ 4 ∨ n < 1 ∨ 255 < n ∨ s.mi.log.length ≤ o then (s, svcBadParam, [])
    else (s, svcOk, ((s.mi.log.drop o).take n).flatMap miRecBytes))

/-- MI_UNKNOWN_COMMAND (R452); a command that is known is not this event. -/
def execMiUnknownCommand (frame : List Byte) (s : State) : Res :=
  service (fun c => !decide (1 ≤ c.toNat ∧ c.toNat ≤ 7)) frame s (fun _ s => (s, svcFrameErr, []))

/-- SERVICE_BYTE_TIMEOUT (R452): the bytes received so far are discarded; a frame that is not whole has had no effect. -/
def execServiceByteTimeout (_bytes : List Byte) (s : State) : Res := .next s

/-- WRITE_PARAM_TIMEOUT (R453): part 1 has not followed within 10 s. -/
def execWriteParamTimeout (s : State) : Res :=
  match s.mi.part0 with
  | some (_, t) => if t + secTu 10 ≤ s.abs then .next (onMi (fun m => { m with part0 := none }) s) else .next s
  | none => .next s

/-! ## The mailbox store (R466, R472) -/

/-- The words of an update of 32 bytes each (R8). -/
def mailWords (u : MailUpd) : Nat :=
  match u with
  | .page l => (l.length + 31) / 32
  | .block _ l => (l.length + 31) / 32
  | .rec_ _ _ => 1
  | .cleared => 1

/-- What is stored where the words `bad` of an update are discarded: the old words stay (R443). -/
def mixWords (bad : List Nat) (old new : List Byte) : List Byte :=
  (List.range ((new.length + 31) / 32)).flatMap (fun i => padTo 32 (((if bad.contains i then old else new).drop (32 * i)).take 32))

/-- A record put at its place in the mirror; places before it whose record was discarded read as 0. -/
def putRecord (n : Nat) (r : List Byte) (l : List (List Byte)) : List (List Byte) :=
  (l ++ List.replicate (n + 1 - l.length) []).set n r

/-- One update as the main die stores it, without the words discarded (R466, R472): a new record raises the MI log event, one of a seal change
the MI seal event. -/
def storeMail (u : MailUpd) (bad : List Nat) (s : State) : State :=
  let onMail (f : Mailbox → Mailbox) (s : State) : State := onMi (fun m => { m with mail := f m.mail }) s
  match u with
  | .page l => onMail (fun x => { x with page := mixWords bad x.page l }) s
  | .block n l => onMail (fun x => { x with blocks := vmod x.blocks n.val (fun o => mixWords bad o l) }) s
  | .rec_ n l =>
    let s := raiseArg 0x58 0 (BitVec.ofNat 32 (n + 1)) (onMail (fun x => { x with log := putRecord n l x.log }) s)
    let type := ofBytesLE ((l.drop 4).take 2)
    if type = 0x0011 ∨ type = 0x0012 then raise 0x59 0 s else s
  | .cleared => onMail (fun x => { x with log := [] }) s

/-- MAILBOX_UPDATE (R443, R466): the oldest update of the mailbox link is stored in PD1 and sets ALIVE. The words `bad` of it arrive with an
uncorrectable error: they are discarded and counted. While PD1 is off nothing is received. -/
def execMailboxUpdate (bad : List Nat) (s : State) : Res :=
  match s.mi.mailLink with
  | [] => .next s
  | (u, _) :: rest =>
    let s := onMi (fun m => { m with mailLink := rest }) s
    if s.pa.power ≠ .running then .next s else
    let lost := (List.range (mailWords u)).filter (fun i => bad.contains i)
    let s := onMi (fun m => { m with mail := { m.mail with discard := m.mail.discard + BitVec.ofNat 32 lost.length } }) s
    if lost.length = mailWords u then .next s
    else .next (storeMail u lost (onMi (fun m => { m with mail := { m.mail with alive := true, aliveLt := s.now, aliveAt := s.abs } }) s))

/-- MAILBOX_SILENT (R466): no update within the last 1 s. -/
def execMailboxSilent (s : State) : Res :=
  if !s.mi.mail.alive ∨ s.abs < s.mi.mail.aliveAt + secTu 1 then .next s
  else .next (raise 0x5A 0 (onMi (fun m => { m with mail := { m.mail with alive := false } }) s))

end Sys2Proof.Machine
end

