-- ==== Sys2Proof/Machine/Power.lean ====
section
/-! DEFINITION. Meanings of PA's commands and events but for start-up: domains, the Duiker domain, sleep, wake sources, brown-out
(chapter 18). -/

namespace Sys2Proof.Machine

/-! ## Staging (R536, R538, R543) -/

/-- What PaStageDomains refuses, over the session's view with its items laid in (R626, R630). -/
def checkPaStageDomains (l : List (Fin 9 × DomainCfg)) (_view : List Item) (_s : State) : Option Status :=
  if l.any (fun x => decide (x.1.val < 2 ∨ x.2.idleMs < 1 ∨ x.2.idleMs > 60000)) then some .badParam else none

/-- PA_STAGE_DOMAINS (R536, R538): PD2–PD8, with an idle time of 1 ms to 60 s. -/
def execPaStageDomains (c : Cmd) (l : List (Fin 9 × DomainCfg)) (s : State) : Res :=
  stage 0x0F01 false c (l.map (fun x => .domain x.1 x.2))
    (checkPaStageDomains l) s

/-- The VBAT current of staged Duiker settings at 100 °C in 0.1 µA (R543). -/
def duikerLoad (x : DuikerCfg) : Nat :=
  210 + (x.tamper.toList.map (fun m => match m with
    | .off => 0
    | .sampled => 1
    | .static_ => 360)).sum + 360 * bitN x.pullup

/-- What PaStageDuiker refuses, over the session's view with its items laid in (R626, R630). -/
def checkPaStageDuiker (x : DuikerCfg) (_view : List Item) (_s : State) : Option Status :=
  if duikerLoad x > 1500 then some .badParam else none

/-- PA_STAGE_DUIKER (R543): 150 µA at most. -/
def execPaStageDuiker (c : Cmd) (x : DuikerCfg) (s : State) : Res :=
  stage 0x0F02 false c [.duiker x] (checkPaStageDuiker x) s

/-! ## PA_DOMAIN_CTRL (R541, R563) -/

/-- One part names a domain from PD2 to PD8. -/
def domainPart (f : Nat → State → State × Status) (n : Nat) (s : State) : State × Status × List Byte :=
  if n < 2 ∨ 8 < n then (s, .badParam, []) else ((f n s).1, (f n s).2, [])

/-- PA_DOMAIN_CTRL as SU executes it; a refusal by check 0xF001 carries that code (R563). -/
def domainCtrl (c : Cmd) (mask : BitVec 64) (f : Nat → State → State × Status) (s : State) : Res :=
  command 0x0F10 false c s fun s =>
    let r := multipart mask (domainPart f) s
    (r.1, some (if r.2.status = .denied then { r.2 with detail := 0xF001 } else r.2))

/-- Domain n woken by command; one that is LOCKED is not (R541). -/
def wakePart (n : Nat) (s : State) : State × Status :=
  if pdState s n = .locked then (lockRefused n s, .domainOff) else (wakeDomain false n s, .ok)

/-- Domain n switched off; one in use is not. -/
def offPart (n : Nat) (s : State) : State × Status :=
  if (vget s.pa.pd n {}).inUse then (s, .denied) else (if pdState s n = .locked then s else turnOff .off n s, .ok)

/-- A wake that started on this clock cycle gives way to a lock: it is refused under R541. -/
def wakeLoses (n : Nat) (s : State) : State :=
  let d := vget s.pa.pd n {}
  if d.state = .waking ∧ d.wakeAt = s.abs then
    lockRefused n (modPd n (fun d => { d with state := .off, stalled := [], woken := d.wakeWas.1, wakes := d.wakeWas.2 }) s)
  else s

/-- Domain n locked, after an access in progress; one in use is not (R541, R563). -/
def lockPart (n : Nat) (s : State) : State × Status :=
  if (vget s.pa.pd n {}).inUse then (s, .denied)
  else (modPd n (fun d => { d with mode := .locked }) (turnOff .locked n (wakeLoses n s)), .ok)

/-- A locked domain returned to its staged mode. -/
def unlockPart (n : Nat) (s : State) : State × Status :=
  let d := vget s.pa.pd n {}
  if d.mode ≠ .locked ∨ d.staged = .locked then (s, .ok)
  else
    let s := unlockOff n (modPd n (fun d => { d with mode := d.staged }) s)
    (if d.staged = .on then wakeDomain false n s else s, .ok)

/-- PA_DOMAIN_CTRL wake (R563). -/
def execPaDomainWake (c : Cmd) (mask : BitVec 64) (s : State) : Res := domainCtrl c mask wakePart s

/-- PA_DOMAIN_CTRL off (R563). -/
def execPaDomainOff (c : Cmd) (mask : BitVec 64) (s : State) : Res := domainCtrl c mask offPart s

/-- PA_DOMAIN_CTRL lock (R563). -/
def execPaDomainLock (c : Cmd) (mask : BitVec 64) (s : State) : Res := domainCtrl c mask lockPart s

/-- PA_DOMAIN_CTRL unlock (R563). -/
def execPaDomainUnlock (c : Cmd) (mask : BitVec 64) (s : State) : Res := domainCtrl c mask unlockPart s

/-! ## Domain events (R538–R541) -/

/-- An access to domain n waits behind the present command: it arrives on this clock cycle, since the clock moves only while nothing waits
(R538; log 1). -/
def accessArrives (n : Fin 9) (s : State) : Bool :=
  s.pending.any (fun i => match i with
    | .domainDataAccess m _ _ => m == n
    | _ => false)

/-- DOMAIN_IDLE_OFF (R538): an AUTO domain that is not in use and has seen no access for its idle time, once phase 7 has applied the modes; an
access on the clock cycle of the switch-off cancels it. -/
def execDomainIdleOff (n : Fin 9) (s : State) : Res :=
  let d := vget s.pa.pd n.val {}
  .next (if 2 ≤ n.val ∧ d.mode = .auto ∧ d.inUse = false ∧ d.state = .on ∧ s.pa.ended.getLsbD 7 ∧ d.lastUse + msTu d.idleMs ≤ s.abs ∧
      accessArrives n s = false
    then powerOff .off n.val s else s)

/-- DOMAIN_DATA_ACCESS (R539–R541): an access to the data memory of domain n. One that is on serves it; a LOCKED one refuses it, a read then
receiving words of ones; one that is off wakes, and the access stalls, but not behind PD2. -/
def execDomainDataAccess (n : Fin 9) (need : PdNeed) (rq : Nat) (s : State) : Res :=
  if n.val < 2 ∨ s.pa.power ≠ .running then .next s else
  match pdState s n.val with
  | .on => .next (modPd n.val (fun d => { d with lastUse := s.abs }) s)
  | .locked =>
    let s := lockRefused n.val s
    .next (if need = .read then emit (.read rq 0xFFFFFFFF) s else s)
  | _ =>
    let s := wakeDomain true n.val s
    .next (if n.val = 2 then s else modPd n.val (fun d => { d with lastUse := s.abs, stalled := d.stalled ++ [s.abs] }) s)

/-- A switch-off or lock that waited for accesses takes effect (R538, R541). -/
def offAfter (n : Nat) (s : State) : State :=
  match (vget s.pa.pd n {}).after with
  | some x => powerOff x n s
  | none => s

/-- DOMAIN_ON (R539): a waking domain of PD3–PD8 is on once the domain it depends on is, and its stalled accesses proceed; then a lock that
waited for them takes effect (R541). -/
def execDomainOn (n : Fin 9) (s : State) : Res :=
  let d := vget s.pa.pd n.val {}
  if n.val < 3 ∨ d.state ≠ .waking ∨ (n.val ≤ 6 ∧ pdState s 8 ≠ .on) then .next s else
  let longest := (d.stalled.map (fun t => (s.abs - t) / 65536)).foldl max d.maxStall.toNat
  let s := modPd n.val (fun d => { d with stalled := [], maxStall := BitVec.ofNat 32 (min longest 0xFFFFFFFF) }) s
  .next (readiness (offAfter n.val (powerOn n.val s)))

/-- PD2_WAKE_DONE (R540): PD2 is on, the fabric READY, and its ports train. -/
def execPd2WakeDone (s : State) : Res :=
  .next (if pdState s 2 = .waking then readiness (powerOn 2 s) else s)

/-! ## Sleep (R549, R550) -/

/-- Words of the retention SRAM written: valid, and free of errors (R546, R547). Duiker's own records do not go through the access port that
low-power mode disables (DEDUCED, log 85). -/
def retWrite (l : List Nat) (r : Retention) : Retention :=
  { r with valid := r.valid ++ l.filter (fun n => !r.valid.contains n), err := r.err.filter (fun n => !l.contains n) }

/-- A refused sleep request: counted by its reason, flagged and reported (R549). -/
def sleepRefused (k : Nat) (s : State) : State :=
  raise 0x7A 0 (onPa (fun p => { p with sleepRefused := true, ret := retWrite [0, 5] { p.ret with refused := vmod p.ret.refused (k - 1) satInc } }) s)

/-- Why a sleep request is refused as it arrives, by the code and in the order of R549. -/
def sleepRefusal (s : State) : Option (Nat × Status) :=
  let writing : Bool := match s.su.pkg.loading with
    | some (_, .writing, _) => true
    | _ => false
  if s.fo.state = .active then some (1, .denied)
  else if s.su.armed.isSome || s.su.resync then some (2, .busy)
  else if s.kv.journal.isSome || s.kv.reqs.any kvLogged then some (3, .busy)
  else if writing then some (4, .busy)
  else if !s.pa.rtcRunning then some (6, .notReady)
  else none

/-- PA_SLEEP (R549, R550); a second request while one is being carried out returns BUSY. -/
def execPaSleep (c : Cmd) (mask : BitVec 16) (alarm : BitVec 48) (s : State) : Res :=
  command 0x0F11 false c s fun s =>
    if s.pa.sleepReq.isSome then (s, some (st .busy))
    else
      match sleepRefusal s with
      | some (k, e) => (sleepRefused k s, some (st e))
      | none => (onPa (fun p => { p with sleepReq := some ({ cmd := c, opcode := 0x0F11 }, mask, alarm), sleepStep := 0, sleepAt := s.now }) s, none)

/-- The owners of tasks: the platform and every instance in being. -/
def ownersOf (s : State) : List Nat := 0 :: ((List.range 64).map (· + 1)).filter (fun i => instState s i != .absent)

/-- SLEEP_STOP_BOUNDARY (R53, R550): at the frame boundary after the request every owner enters STOP with its policy, and the RTC calibration
starts; at once where no frames run. -/
def execSleepStopBoundary (rtc : BitVec 48) (s : State) : Res :=
  if s.pa.sleepReq.isNone ∨ s.pa.sleepStep ≠ 0 ∨ (s.fb.running ∧ ltDiff s.fb.frameLt s.pa.sleepAt < 1) then .next s else
  let s := setRtc rtc s
  let t := if s.fb.running then s.fb.frameLt else s.now
  let s := (ownersOf s).foldl (fun s o => if (s.fb.own.getD o {}).state = .stop then s else applyRun o .stop t s) s
  .next (onPa (fun p => { p with sleepStep := 1, calRtc0 := p.rtc, calLt0 := s.now }) s)

/-- What steps 2 and 4 of R550 write into the retention SRAM: calibration, anchor, time state and sleep record (R53, R546). -/
def retainTime (interval : Nat) (mask : BitVec 16) (alarm : BitVec 48) (s : State) : State :=
  onPa (fun p => { p with ret := retWrite [0, 1, 2, 3] { p.ret with
    calC := BitVec.ofNat 64 (2 * interval), calLt := s.now, calRtc := p.rtc, calUnref := s.tb.servo != .locked
    anchorLt := s.tb.ltA, anchorS := s.tb.taiS, anchorNs := s.tb.taiNs, anchorFr := s.tb.taiFr, utcOffset := s.tb.utcOffset
    utcKnown := s.tb.utcKnown, taiValid := s.tb.taiValid, servo := s.tb.servo, sleepMask := mask, sleepAlarm := alarm
    sleepModes := p.pd.map (·.mode), generation := p.ret.generation + 1 } }) s

/-- RTC_CALIBRATION_DONE (R53, R550): 32,768 ticks after its start, which low-power mode does not count (R542); the record, the copy of the
operating time, the retention SRAM and the reply are written, and the domains go off. -/
def execRtcCalibrationDone (rtc : BitVec 48) (s : State) : Res :=
  match s.pa.sleepReq with
  | none => .next s
  | some (w, mask, alarm) =>
    if s.pa.sleepStep ≠ 1 ∨ s.pa.regLow ∨ rtc - s.pa.calRtc0 ≠ 32768 then .next s else
    let s := setRtc rtc s
    let s := writeRec { type := 9, source := 0xFF, lt := s.now, arg0 := mask.zeroExtend 32, arg1 := alarm.truncate 32 } (writePending s)
    let s := retainTime (ltDiff s.now s.pa.calLt0).toNat mask alarm (onPa (fun p => { p with opsecsMram := p.opsecs }) s)
    let s := poweredDown true (reply w (st .ok) s)
    .next (onPa (fun p => { p with power := .asleep, slept := true }) s)

/-! ## Wake sources (R551, R553) -/

/-- Whether a wake mask enables a source: bit c − 1 for code c (log 65). -/
def maskHas (mask : BitVec 16) (c : Nat) : Bool := mask.getLsbD (c - 1)

/-- The flag and the event of a latched tamper input, once PD1 runs (R553). -/
def reportTamper (s : State) : State :=
  if s.pa.tamperDue ∧ s.pa.power = .running then raise 0x7B 0 (onPa (fun p => { p with tamper := true, tamperDue := false }) s) else s

/-- The last-wake-source record: the first source of a wake; of several on one RTC tick the lowest code, the others into SEEN (R551). -/
def recordWake (again : Bool) (c : Nat) (s : State) : State :=
  onPa (fun p =>
    let old := p.wakeSrc.toNat
    { p with
      wakeSrc := BitVec.ofNat 4 (if again then min old c else c)
      wakeSeen := if again then (if old = c then p.wakeSeen else p.wakeSeen ||| (1#5 <<< (max old c - 1))) else 0
      wakeRtc := p.rtc, ret := retWrite [0, 4] p.ret }) s

/-- PD1 leaves reset: start-up begins, LT standing 1.0 ms after power-good (R554). -/
def beginStartup (cold : Bool) (s : State) : State :=
  reportTamper (onPa (fun p => { p with power := .running, coldStart := cold, goodLt := (s.abs : Int) - msTu 1 }) s)

/-- A source that acts (R549, R551): during entry it abandons the entry; in sleep it wakes the device; in VBAT standby it asserts PWR_REQ, but for
PERST_N. -/
def wakeSource (c : Nat) (s : State) : State :=
  let again : Bool := s.pa.wakeSrc != 0 && s.pa.wakeRtc == s.pa.rtc && s.pa.ret.valid.contains 4
  match s.pa.power with
  | .running =>
    match s.pa.sleepReq with
    | some (w, mask, _) =>
      if maskHas mask c then
        reply w { status := .busy, detail := 0x0F03 } (sleepRefused 5 (onPa (fun p => { p with sleepReq := none, sleepStep := 0 }) s))
      else s
    | none => if !s.pa.ended.getLsbD 2 && again && (!s.pa.coldStart || c ≤ 4) && maskHas s.pa.ret.sleepMask c then recordWake true c s else s
  | .asleep => if maskHas s.pa.ret.sleepMask c then beginStartup false (recordWake false c s) else s
  | .standby =>
    if c ≤ 4 && maskHas s.pa.ret.sleepMask c then
      if s.pa.pwrReq then (if again then recordWake true c s else s)
      else onPa (fun p => { p with pwrReq := true }) (recordWake false c s)
    else s

/-- WAKE_N_FALL (R551). -/
def execWakeNFall (rtc : BitVec 48) (s : State) : Res := .next (wakeSource 2 (setRtc rtc s))

/-- The alarm in force: that of the request being carried out, else the one in the sleep record. -/
def alarmOf (s : State) : BitVec 48 :=
  match s.pa.sleepReq with
  | some (_, _, a) => a
  | none => s.pa.ret.sleepAlarm

/-- RTC_ALARM (R549, R551): an alarm of 0 is none. -/
def execRtcAlarm (rtc : BitVec 48) (s : State) : Res :=
  let s := setRtc rtc s
  .next (if alarmOf s ≠ 0 ∧ (alarmOf s).toNat ≤ s.pa.rtc.toNat then wakeSource 3 s else s)

/-- Tamper input k latches: recorded with the RTC count, and a wake source (R551, R553). -/
def latchTamper (k : Nat) (s : State) : State :=
  if s.pa.tamperLatched.getLsbD k then s else
  let s := onPa (fun p => { p with
    tamperLatched := p.tamperLatched ||| (1#4 <<< k), tamperRtc := p.rtc, tamperDue := true, ret := retWrite [0, 4] p.ret }) s
  wakeSource 4 (reportTamper s)

/-- The present level of tamper input k. -/
def tamperLevel (k : Nat) (level : Bool) (s : State) : State :=
  onPa (fun p => { p with tamperLevel := if level then p.tamperLevel ||| (1#4 <<< k) else p.tamperLevel &&& ~~~(1#4 <<< k) }) s

/-- TAMPER_SAMPLE (R553): a SAMPLED input latches at the first sample that reads high. -/
def execTamperSample (k : Fin 4) (level : Bool) (rtc : BitVec 48) (s : State) : Res :=
  let s := setRtc rtc s
  if vget s.pa.duiker.tamper k.val .off ≠ .sampled then .next s else
  let s := tamperLevel k.val level s
  .next (if level then latchTamper k.val s else s)

/-- TAMPER_LATCH (R553): a STATIC input has been high for 100 µs. -/
def execTamperLatch (k : Fin 4) (rtc : BitVec 48) (s : State) : Res :=
  let s := setRtc rtc s
  if vget s.pa.duiker.tamper k.val .off ≠ .static_ then .next s else .next (latchTamper k.val (tamperLevel k.val true s))

/-- PERST_N_RISE (R551, R598): a wake source; link training starts at the later of this and the end of phase 1. -/
def startLink (s : State) : State :=
  if s.glob.perstN ∧ (s.pa.ended.getLsbD 1 ∨ s.kv.halted) ∧ !s.im.linkUp then
    let (x, s) := draw s
    onIm (fun m => { m with linkUp := true, linkX8 := x % 2 == 1 }) s
  else s

/-- PERST_N_RISE (R551, R598). -/
def execPerstNRise (rtc : BitVec 48) (s : State) : Res :=
  if s.glob.perstN then .next (setRtc rtc s) else
  .next (startLink (wakeSource 5 (onGlob (fun g => { g with perstN := true }) (setRtc rtc s))))

/-! ## Supplies (R542–R545, R548) -/

/-- IO_SUPPLY_LOW (R542): low-power mode; a device that does not run falls to VBAT standby, and its DRAM loses its content. -/
def execIoSupplyLow (s : State) : Res :=
  let s := onPa (fun p => { p with regLow := true }) s
  .next (if s.pa.power = .running ∧ s.pa.pwrOk then s
    else onPa (fun p => { p with power := .standby, pwrOk := false }) (poweredDown false s))

/-- IO_SUPPLY_HIGH (R542): normal mode. -/
def execIoSupplyHigh (s : State) : Res := .next (onPa (fun p => { p with regLow := false }) s)

/-- Codes of the causes (R545). -/
def causeCode : SupplyCause → Nat
  | .vbat => 1 | .currentLimit => 2 | .core => 3 | .sram => 4 | .serdes => 5 | .io => 6 | .pwrOk => 7

/-- The latch keeps the first cause and counts the later ones (R545). -/
def latchCause (c : SupplyCause) (s : State) : State :=
  onPa (fun p => if p.borCause = 0 then { p with borCause := BitVec.ofNat 4 (causeCode c) } else { p with borLater := satInc p.borLater }) s

/-- DUIKER_BROWNOUT (R544): in low-power mode, by VBAT or by its current limit. -/
def execDuikerBrownout (c : SupplyCause) (s : State) : Res :=
  if !s.pa.regLow ∨ ¬(c = .vbat ∨ c = .currentLimit) then .next s else
  .next (onPa (fun p => { p with rtc := 0, rtcRunning := true, ret := {}, duikerBor := true, wakeSrc := 0, wakeSeen := 0, wakeRtc := 0 }) (latchCause c s))

/-- BROWNOUT_RESET (R545): everything but the Duiker domain and the metrology die is reset; losing PWR_OK leaves the device without its supplies. -/
def execBrownoutReset (c : SupplyCause) (s : State) : Res :=
  if s.pa.power ≠ .running ∨ c = .vbat ∨ c = .currentLimit ∨ ((c = .io ∨ c = .pwrOk) ∧ !s.pa.pwrOk) then .next s else
  let s := onPa (fun p => { p with slept := false }) (poweredDown false (latchCause c s))
  .next (if c = .pwrOk then onPa (fun p => { p with pwrOk := false, power := .standby }) s else s)

/-- OPSECS_COPY (R548): the copy in MRAM, made every 60 s while the device runs. -/
def execOpsecsCopy (rtc : BitVec 48) (s : State) : Res :=
  let s := setRtc rtc s
  .next (if s.pa.power = .running ∧ 60 ≤ (s.pa.opsecs - s.pa.opsecsMram).toNat then onPa (fun p => { p with opsecsMram := p.opsecs }) s else s)

/-- POWER_GOOD (R551, R554): PWR_OK rises; the source that asked for the supplies stays the wake source. -/
def execPowerGood (rtc : BitVec 48) (s : State) : Res :=
  let s := setRtc rtc s
  if s.pa.pwrOk then .next s else
  let s := if s.pa.pwrReq then s else recordWake false 1 s
  .next (beginStartup true (onPa (fun p => { p with pwrOk := true }) s))

/-! ## Retention, report, tamper (R547, R553, R563) -/

/-- Whether a retained word is good (R547). -/
def retGood (r : Retention) (n : Nat) : Bool := r.valid.contains n && !r.err.contains n

/-- The bytes of the manager area from an offset, an invalid word reading 0 (R547). -/
def retBytes (r : Retention) (o n : Nat) : List Byte :=
  (List.range n).map (fun (k : Nat) => if retGood r ((o + k) / 32) then r.mem.read (o + k) else 0)

/-- Eight bits to a byte, the first lowest. -/
def bitBytes (l : List Bool) : List Byte := bytesLE (ceilDiv l.length 8) (l.foldr (fun b a => bitN b + 2 * a) 0)

/-- PA_RETAIN_READ (R547, R563): a range of the manager area, followed by one error bit per word it touches; NOT_READY while low-power mode has
the access port disabled (R542; DEDUCED, log 85). -/
def execPaRetainRead (c : Cmd) (ofs len : Nat) (s : State) : Res :=
  command 0x0F12 false c s fun s =>
    if s.pa.regLow then (s, some (st .notReady))
    else if ofs < 0x100 ∨ len = 0 ∨ 0x1000 < ofs + len then (s, some (st .badParam))
    else
      let words := (List.range 128).filter (fun n => ofs / 32 ≤ n ∧ n ≤ (ofs + len - 1) / 32)
      (s, some { status := .ok, buf := .bytes (retBytes s.pa.ret ofs len ++ bitBytes (words.map (fun n => !retGood s.pa.ret n))) })

/-- PA_RETAIN_WRITE (R547): whole words of the manager area, each written atomically; NOT_READY while the access port is disabled (log 85). -/
def execPaRetainWrite (c : Cmd) (ofs : Nat) (data : List Byte) (s : State) : Res :=
  command 0x0F13 false c s fun s =>
    if s.pa.regLow then (s, some (st .notReady))
    else if ofs < 0x100 ∨ ofs % 32 ≠ 0 ∨ data.length % 32 ≠ 0 ∨ data = [] ∨ 0x1000 < ofs + data.length then (s, some (st .badParam))
    else
      let words := (List.range (data.length / 32)).map (fun (k : Nat) => ofs / 32 + k)
      (onPa (fun p => { p with ret := retWrite (0 :: words) { p.ret with mem := p.ret.mem.writeN ofs data } }) s, some (st .ok))

/-- PA_WAKE_SRC (R562). -/
def wakeSrcReg (s : State) : BitVec 32 := pack [(s.pa.wakeSrc.toNat, 0), (s.pa.wakeSeen.toNat, 4)]

/-- PA_BOR_CAUSE as read (R562). -/
def borCauseReg (s : State) : BitVec 32 := pack [(s.pa.borCause.toNat, 0), (s.pa.borLater.toNat, 4)]

/-- PA_STARTUP_REPORT (R563): the records in the order the spec names them, all of one instant; the counts are those of R546 and R548. -/
def execPaStartupReport (c : Cmd) (s : State) : Res :=
  command 0x0F14 false c s fun s =>
    (s, some { status := .ok, buf := .recs [
      [(paStatus s).toNat], (s.pa.phaseEnd.toList.drop 1).map (·.toNat), [(wakeSrcReg s).toNat], [(borCauseReg s).toNat],
      [s.pa.opsecs.toNat, s.pa.pwrCycles.toNat], s.pa.ret.refused.toList.map (·.toNat)] })

/-- PA_TAMPER_CLEAR (R553, R563): the named inputs; one still open latches again at its next sample or after 100 µs. -/
def execPaTamperClear (c : Cmd) (mask : BitVec 4) (s : State) : Res :=
  command 0x0F15 false c s fun s => (onPa (fun p => { p with tamperLatched := p.tamperLatched &&& ~~~mask }) s, some (st .ok))

end Sys2Proof.Machine
end

