-- ==== Sys2Proof/Machine/StatusOps.lean ====
section
/-! DEFINITION. The registers named _STATUS of every subsystem, in ascending offset, as GET_STATUS snapshots them (R76; log 79). -/

namespace Sys2Proof.Machine

/-! ## SU, TB, PX, SW, QM -/

/-- SU_LOG_STATUS (R580). -/
def logStatus (s : State) : BitVec 32 :=
  pack [(s.log.recs.length, 0), (bitN s.log.warn, 17), (bitN s.log.full, 18), (bitN s.log.clearRefused, 19), (bitN s.log.clearing, 20)]

/-- SU_GERR_STATUS (R574). -/
def gerrStatus (s : State) : BitVec 32 :=
  pack [(bitN s.grd.uncorr, 0), (bitN s.grd.corrRate, 1), (bitN s.grd.recOvf, 2), (s.grd.recs.length, 8)]

/-- PHY_TYPE codes (R131). -/
def phyCode : PhyType → Nat
  | .disabled => 0 | .base25 => 1 | .base10 => 2 | .base1000 => 3 | .sgmii => 4

/-- PX_PORTn_STATUS (R131). -/
def pxPortStatus (s : State) (p : Nat) : BitVec 32 :=
  let x := getPx s p
  pack [(bitN x.linkUp, 0), (bitN x.pcsLock, 1), (bitN x.fecLock, 2), (bitN x.pauseEnd.isSome, 3), (phyCode x.cfg.phy, 4), (bitN x.linkChg, 8),
    (bitN x.rxBad, 9), (bitN x.txOversize, 10), (bitN x.pnThresh, 11)]

/-- LINK_STATE codes (R179). -/
def linkCode : LinkState → Nat
  | .up => 0 | .hold => 1 | .down => 2 | .disabled => 3

/-- SW_PORTn_STATUS (R179); INGEST and CORE read UP once the fabric is READY. -/
def swPortStatus (s : State) (p : Nat) : BitVec 32 :=
  let x := getSw s p
  pack [(if 14 ≤ p ∧ s.sw.ready then 0 else linkCode x.link, 0), (bitN x.holdExp, 2),
    (bitN ((List.range 8).any (fun c => ecnWanted s p c (occ s p c))), 3)]

/-- QM_Qq_STATUS (R197). -/
def qmQueueStatus (s : State) (q : Nat) : BitVec 32 :=
  let x := s.qm.q.getD q {}
  let owner := ((s.im.inst.find? (fun e => e.2.shares.queues.contains q)).map (·.1)).getD 0
  pack [(qOcc x, 0), (bitN x.openPkt.isSome, 17), (bitN x.quotaHit, 18), (bitN x.hwRewind, 19), (owner, 24)]

/-! ## SE, FR, PE, AR -/

/-- SE_GRPg_STATUS (R219). -/
def seGroupStatus (s : State) (g : Nat) : BitVec 32 :=
  let n := (s.se.sv.filter (fun e => e.2.state == .locked && (match s.se.svCfg.get? e.1 with
    | some c => c.en && c.group.val == g
    | none => false))).length
  pack [(bitN (vget s.se.group g {}).ready, 0), (n, 1)]

/-- STATE codes (R220). -/
def svCode : SvState → Nat
  | .idle => 0 | .acquire => 1 | .locked => 2 | .lost => 3

/-- SE_SVs_STATUS (R220). -/
def seSvStatus (s : State) (n : Nat) : BitVec 32 :=
  let x := s.se.sv.getD n {}
  pack [(svCode x.state, 0), (bitN x.syncOk, 3), (bitN x.sim, 4), (bitN x.confRevErr, 5), (bitN x.authErr, 6), (bitN x.gap, 7),
    (x.smpSynch.toNat, 8), (x.lastSmpCnt.toNat, 16)]

/-- SE_GOSUBg_STATUS (R221). -/
def seGoSubStatus (s : State) (n : Nat) : BitVec 32 :=
  let x := s.se.gs.getD n {}
  pack [(match x.state with
    | .idle => 0
    | .ok => 1
    | .talExpired => 2, 0), (bitN x.confRevErr, 2), (bitN x.authErr, 3)]

/-- SE_GOPUBp_STATUS (R221). -/
def seGoPubStatus (s : State) (n : Nat) : BitVec 32 := pack [(goPubState s n, 0)]

/-- FR_TRKg_STATUS (R245). -/
def frTrkStatus (s : State) (g : Nat) : BitVec 32 :=
  let x := s.fr.trk.getD g {}
  pack [(match x.state with
    | .disabled => 0
    | .tracking => 1
    | .hold => 2
    | .nominal => 3, 0), (bitN x.holdSeen, 2), (bitN x.nominalSeen, 3), (bitN x.cfg.sixty, 4)]

/-- FR_LANEl_STATUS (R246). -/
def frLaneStatus (s : State) (n : Nat) : BitVec 32 :=
  let x := s.fr.lane.getD n {}
  pack [(match x.state with
    | .disabled => 0
    | .settling => 1
    | .running => 2, 0),
    (match x.cfg.mode with
    | .off => 0
    | .fixed => 1
    | .track => 2, 2), (bitN x.inBad, 4), (bitN x.restart, 5), (bitN x.gridStep, 6), (bitN x.sat, 7),
    (if x.cfg.mode = .track then x.cfg.group else 0, 8), (x.owner, 16)]

/-- PE_CHc_STATUS (R270). -/
def peChanStatus (s : State) (n : Nat) : BitVec 32 :=
  let x := s.pe.ch.getD n {}
  pack [(match x.state with
    | .disabled => 0
    | .settling => 1
    | .running => 2, 0),
    (match x.cfg.cls with
    | .none => 0
    | .p => 1
    | .m => 2, 2), (bitN x.cfg.set_, 4), (bitN x.degraded, 5), (bitN x.restart, 6), (bitN x.late, 7), (bitN x.range, 8), (x.owner, 16)]

/-- PE_STRs_STATUS (R271). -/
def peStreamStatus (s : State) (n : Nat) : BitVec 32 :=
  let x := s.pe.str.getD n {}
  pack [(if !x.used then 0 else if !x.on then 2 else if s.fo.gateOpen then 1 else 3, 0), (bitN x.cfgChg, 2), (bitN x.late, 3), (bitN x.quota, 4)]

/-- AR_RECr_STATUS (R304). -/
def arRecStatus (s : State) (r : Nat) : BitVec 32 :=
  let x := vget s.ar.recorder r {}
  pack [(match x.state with
    | .disabled => 0
    | .armed => 1
    | .recording => 2
    | .full => 3
    | .stopped => 4, 0), (bitN (holdOffOn s x), 3), (bitN x.lateInput, 4), (bitN x.trunc, 5), (bitN x.lost, 6), (x.owner, 16), (min x.held.length 255, 24)]

/-- AR_WSLk_STATUS (R305). -/
def arWslStatus (s : State) (k : Nat) : BitVec 32 :=
  let x := vget s.ar.wsl k {}
  pack [(match x.state with
    | .down => 0
    | .aligning => 1
    | .locked => 2, 0), (bitN x.lockLost, 2), (bitN x.seqErr, 3), (x.cfg.k, 16)]

/-! ## FB, IM, FO -/

/-- FB_CLn_STATUS (R354). -/
def fbClStatus (s : State) (k : Nat) : BitVec 32 :=
  let c := vget s.fb.cl k {}
  let on : Bool := pdState s (if k < 3 then 3 else 4) == .on
  pack [(bitN (s.fb.up && on && !c.reload), 0), (bitN c.reload, 1), (clusterEntries s.su.active k, 16)]

/-- FB_ENGe_STATUS (R355). -/
def fbEngStatus (s : State) (e : Nat) : BitVec 32 :=
  let x := getEng s e
  let st' := if x.cycle.isSome then 1 else match x.domain with
    | .on => 0
    | .off => 2
    | .reloading => 3
  pack [(st', 0), (bitN x.faulted, 2), (bitN x.guardCorr, 3), (x.lastOwner, 16), (x.lastTask.toNat, 24)]

/-- FB_TSKj_STATUS (R387): j = 32 × e + i; an entry without a task is unused. -/
def fbTaskStatus (s : State) (j : Nat) : BitVec 32 :=
  match (taskEntries s (j / 32))[j % 32]? with
  | none => 0
  | some (o, t) =>
    let x := getTask s o t.task
    pack [(match x.state with
      | .unused => 0
      | .active => 1
      | .stopped => 2
      | .gated => 3, 0),
      (match x.cfg.kind with
      | .periodic _ _ => 0
      | .sample _ _ _ => 1
      | .timed _ => 2, 2), (bitN x.skip, 4), (bitN x.limit, 5), (bitN (taskDiag x), 6), (t.task, 8), (o, 16), (x.consec.toNat, 24)]

/-- Codes of an instance's state (R515). -/
def instCode : InstState → Nat
  | .absent => 0 | .active => 1 | .resetting => 2 | .frozen => 3

/-- IM_INSTi_STATUS (R533). -/
def imInstStatus (s : State) (i : Nat) : BitVec 32 :=
  let x := getInst s i
  pack [(instCode x.state, 0), (bitN x.resetReq, 2), (bitN x.aperture, 3), ((s.su.iring.filter (fun e => e.1.1 == i)).length, 4),
    (x.shares.dmaSlots.length, 8), (x.epoch.toNat, 16)]

/-- FO_CABs_STATUS (R151). -/
def cabStatus (s : State) (g : Nat) : BitVec 32 :=
  let x := vget s.fo.seg g {}
  let n := (x.stn.toList.filter (fun y => y.state == .present || y.state == .resyncPending)).length
  pack [(bitN x.cfg.en, 0), (bitN x.slotted, 1), (match x.reason with
    | .none => 0
    | .startup => 1
    | .test => 2
    | .recovery => 3, 3), (bitN x.coord, 5), (bitN x.absentChg, 6), (bitN x.mismatch, 7), (bitN x.collRecovery, 8), (bitN x.lateReport, 9),
    (bitN x.lateImage, 10), (bitN x.claimDiff, 11), (n, 16)]

/-- PA_PMB_STATUS (R606). -/
def pmbStatus (s : State) : BitVec 32 :=
  pack [(bitN s.pmb.busy, 0), (bitN s.pmb.done, 1), (bitN s.pmb.nack, 2), (bitN s.pmb.pecErr, 3), (bitN s.pmb.timeout, 4), (bitN s.pmb.alert, 5)]

/-- The status registers of subsystem n in ascending offset (R76). -/
def statusWords (n : Nat) (s : State) : List (BitVec 32) :=
  statusReg n s :: (match n with
  | 0x0 => [logStatus s, gerrStatus s]
  | 0x2 => (List.range 14).map (pxPortStatus s)
  | 0x3 => (List.range 16).map (swPortStatus s)
  | 0x4 => (List.range 256).map (qmQueueStatus s)
  | 0x5 => (List.range 16).map (seGroupStatus s) ++ (List.range 512).map (seSvStatus s) ++ (List.range 1024).map (seGoSubStatus s) ++
      (List.range 256).map (seGoPubStatus s)
  | 0x6 => (List.range 64).map (frTrkStatus s) ++ (List.range 1024).map (frLaneStatus s)
  | 0x7 => (List.range 1024).map (peChanStatus s) ++ (List.range 64).map (peStreamStatus s)
  | 0x8 => (List.range 8).map (arRecStatus s) ++ (List.range 8).map (arWslStatus s)
  | 0x9 => (List.range 6).map (fbClStatus s) ++ (List.range 48).map (fbEngStatus s) ++ (List.range 1536).map (fbTaskStatus s)
  | 0xC => [pack [(s.kv.bootSlot.toNat, 0), (s.kv.failA.toNat, 2), (s.kv.failB.toNat, 6), (s.kv.svn.toNat, 10)]]
  | 0xD => (List.range 64).map (fun i => imInstStatus s (i + 1))
  | 0xE => (List.range 2).map (cabStatus s)
  | 0xF => [pmbStatus s]
  | _ => [])

/-! ## The metrology mailbox (R468–R471) -/

/-- The status page as the main die shows it: ALIVE and MI_ALIVE_LT are its own (R468, R475). -/
def mailPageView (s : State) : List Byte :=
  bytesLE 4 (miStatus s).toNat ++ padTo 0x64 (s.mi.mail.page.drop 4) ++ bytesLE 8 s.mi.mail.aliveLt.toNat ++ List.replicate (4096 - 0x70) 0

/-- Point block p as the main die shows it (R469). -/
def mailBlockView (s : State) (p : Nat) : List Byte := padTo 4096 (vget s.mi.mail.blocks p [])

end Sys2Proof.Machine
end

