-- ==== Sys2Proof/Machine/Registers.lean ====
section
/-! DEFINITION. The register map (chapter 21): the registers derived from others, the read-clears counters, the writes that have no row of
their own, and the common opcodes of every subsystem (R76, R610–R634). -/

namespace Sys2Proof.Machine

/-! ## Registers derived from others -/

/-- SU_ID (R617). -/
def suId (s : State) : BitVec 32 := pack [(0x7780, 0), (s.glob.stepping.toNat, 16)]

/-- SU_CAP (R617). -/
def suCap : BitVec 32 := pack [(0x30, 0), (0x40, 8), (1, 15), (0x3F, 16), (0x10, 24)]

/-- The W1C flags of the status register of subsystem n (R618): their lowest bit and their number. -/
def flagField (n : Nat) : Nat × Nat :=
  ([(8, 5), (12, 6), (1, 5), (1, 5), (1, 3), (1, 4), (2, 3), (1, 4), (1, 4), (1, 4), (1, 7), (0, 0), (1, 5), (2, 4), (10, 6), (8, 4)] :
    List (Nat × Nat)).getD n (0, 0)

/-- Some W1C flag of the status register of subsystem n is set; bit 2 of PS_STATUS and bit 3 of KV_STATUS are RO (R406, R505, R618). -/
def flagged (n : Nat) (s : State) : Bool :=
  let v := statusReg n s
  (List.range 32).any (fun k => v.getLsbD k && decide ((flagField n).1 ≤ k ∧ k < (flagField n).1 + (flagField n).2) &&
    !(n == 0xA && k == 2) && !(n == 0xC && k == 3))

/-- Subsystem n is ready (R618). -/
def subsysReady (n : Nat) (s : State) : Bool :=
  if n = 0x1 then s.tb.taiValid
  else if n = 0xB then s.mi.mail.alive
  else if n = 0xE then s.fo.state != .start
  else if n = 0xF then s.pa.phase == 0xC
  else (statusReg n s).getLsbD 0

/-- SU_SUMMARY (R618). -/
def suSummary (s : State) : BitVec 32 :=
  pack ((List.range 16).flatMap (fun n => [(bitN (flagged n s), n), (bitN (subsysReady n s), 16 + n)]))

/-! ## Read-clears counters -/

/-- The element of a row of registers of a step, the first at `lo`, that lies exactly at offset `r`. -/
def pick {α : Type} (l : List α) (lo r step : Nat) : Option α :=
  if lo ≤ r ∧ (r - lo) % step = 0 then l[(r - lo) / step]? else none

/-- The entry of an array of blocks at `base` that an offset lies in, and the offset within it. -/
def block (o base stride count : Nat) : Option (Nat × Nat) :=
  if base ≤ o ∧ o < base + stride * count then some ((o - base) / stride, (o - base) % stride) else none

/-- A bank of counters as their values and what a read of each leaves. -/
def bankRc {n : Nat} (v : Vector (BitVec 64) n) (put : Vector (BitVec 64) n → State) : List (BitVec 64 × State) :=
  (List.range n).map (fun k => (vget v k 0, put (vmod v k (fun _ => 0))))

/-- A field of a table entry as a counter; an entry not listed reads 0 and stays unlisted. -/
def tabRc {ν : Type} (t : Tab Nat ν) (k : Nat) (get : ν → BitVec 64) (zero : ν → ν) (put : Tab Nat ν → State) (s : State) : BitVec 64 × State :=
  match t.get? k with
  | some x => (get x, put (t.put k (zero x)))
  | none => (0, s)

/-- The 64-bit counters of the blocks of one kind: base, stride, number of blocks, first counter, and the counters of block i. -/
def counters64 (s : State) : List (Nat × Nat × Nat × Nat × (Nat → List (BitVec 64 × State))) :=
  [(0x00A100, 0x20, 16, 0, fun r =>
      let x := vget s.grd.region r {}
      [(x.corrected, modRegion r (fun x => { x with corrected := 0 }) s), (x.uncorr, modRegion r (fun x => { x with uncorr := 0 }) s),
       (x.tagRefused, modRegion r (fun x => { x with tagRefused := 0 }) s)]),
   (0x210000, 0x1000, 14, 0x400, fun n => let s := pauseAccount n s; bankRc (pxCtrs s n) (fun v => modPx n (fun x => { x with ctr := v }) s)),
   (0x310000, 0x100, 16, 0x80, fun n => bankRc (getSw s n).ctr (fun v => modSw n (fun x => { x with ctr := v }) s)),
   (0x410000, 0x40, 256, 0x20, fun q => (List.range 4).map (fun k =>
      tabRc s.qm.q q (fun x => vget x.ctr k 0) (fun x => { x with ctr := vmod x.ctr k (fun _ => 0) }) (fun t => onQm (fun m => { m with q := t }) s) s)),
   (0x500000, 0x100, 1, 8, fun _ => [(s.se.unmatched, onSe (fun x => { x with unmatched := 0 }) s)]),
   (0x510000, 0x40, 512, 0x10, fun n => (List.range 6).map (fun k =>
      tabRc s.se.sv n (fun x => vget x.ctr k 0) (fun x => { x with ctr := vmod x.ctr k (fun _ => 0) }) (fun t => onSe (fun m => { m with sv := t }) s) s)),
   (0x520000, 0x20, 1024, 0x10, fun n =>
      [tabRc s.se.gs n (·.ok) (fun x => { x with ok := 0 }) (fun t => onSe (fun m => { m with gs := t }) s) s,
       tabRc s.se.gs n (·.invalid) (fun x => { x with invalid := 0 }) (fun t => onSe (fun m => { m with gs := t }) s) s]),
   (0x530000, 0x20, 256, 0x10, fun n =>
      [tabRc s.se.gp n (·.sent) (fun x => { x with sent := 0 }) (fun t => onSe (fun m => { m with gp := t }) s) s,
       tabRc s.se.gp n (·.gated) (fun x => { x with gated := 0 }) (fun t => onSe (fun m => { m with gp := t }) s) s]),
   (0x610000, 0x20, 1024, 0x18, fun n =>
      [tabRc s.fr.lane n (·.outputs) (fun x => { x with outputs := 0 }) (fun t => onFr (fun m => { m with lane := t }) s) s]),
   (0x710000, 0x40, 1024, 0x38, fun n =>
      [tabRc s.pe.ch n (·.estimates) (fun x => { x with estimates := 0 }) (fun t => onPe (fun m => { m with ch := t }) s) s]),
   (0x720000, 0x40, 64, 0x10, fun n =>
      [tabRc s.pe.str n (·.sent) (fun x => { x with sent := 0 }) (fun t => onPe (fun m => { m with str := t }) s) s,
       tabRc s.pe.str n (·.gated) (fun x => { x with gated := 0 }) (fun t => onPe (fun m => { m with str := t }) s) s,
       tabRc s.pe.str n (·.lateFrames) (fun x => { x with lateFrames := 0 }) (fun t => onPe (fun m => { m with str := t }) s) s,
       tabRc s.pe.str n (·.cmds) (fun x => { x with cmds := 0 }) (fun t => onPe (fun m => { m with str := t }) s) s]),
   (0x810000, 0x100, 8, 0x10, fun r => bankRc (vget s.ar.recorder r {}).ctr (fun v => modRec r (fun x => { x with ctr := v }) s)),
   (0x820000, 0x40, 8, 0x10, fun k =>
      let x := vget s.ar.wsl k {}
      [(x.frames, modWsl k (fun x => { x with frames := 0 }) s), (x.crcErr, modWsl k (fun x => { x with crcErr := 0 }) s),
       (x.missing, modWsl k (fun x => { x with missing := 0 }) s)]),
   (0x900100, 0x40, 6, 0x10, fun k =>
      let x := vget s.fb.cl k {}
      [(x.rxPackets, modCl k (fun x => { x with rxPackets := 0 }) s), (x.rxNomatch, modCl k (fun x => { x with rxNomatch := 0 }) s),
       (x.rxDrop, modCl k (fun x => { x with rxDrop := 0 }) s), (x.txSent, modCl k (fun x => { x with txSent := 0 }) s),
       (x.txRefused, modCl k (fun x => { x with txRefused := 0 }) s)]),
   (0x910000, 0x100, 48, 0x40, fun e =>
      [tabRc s.fb.eng e (·.taskCycles) (fun x => { x with taskCycles := 0 }) (fun t => onFb (fun m => { m with eng := t }) s) s,
       tabRc s.fb.eng e (·.faults) (fun x => { x with faults := 0 }) (fun t => onFb (fun m => { m with eng := t }) s) s,
       tabRc s.fb.eng e (·.guardCorrected) (fun x => { x with guardCorrected := 0 }) (fun t => onFb (fun m => { m with eng := t }) s) s,
       tabRc s.fb.eng e (·.busyCycles) (fun x => { x with busyCycles := 0 }) (fun t => onFb (fun m => { m with eng := t }) s) s]),
   (0x940000, 0x40, 1536, 0x20, fun j =>
      match (taskEntries s (j / 32))[j % 32]? with
      | none => (List.range 4).map (fun _ => (0, s))
      | some (o, e) =>
        let x := getTask s o e.task
        let put (f : Task → Task) : State := if (s.fb.tasks.get? (o, e.task)).isSome then modTask o e.task f s else s
        [(x.cycles, put (fun x => { x with cycles := 0 })), (x.skipped, put (fun x => { x with skipped := 0 })),
         (x.overruns, put (fun x => { x with overruns := 0 })), (x.faults, put (fun x => { x with faults := 0 }))]),
   (0xA00000, 0x100, 1, 0x20, fun _ =>
      [(s.ps.updates, onPs (fun x => { x with updates := 0 }) s), (s.ps.staleMarks, onPs (fun x => { x with staleMarks := 0 }) s),
       (s.ps.deniedCtr, onPs (fun x => { x with deniedCtr := 0 }) s), (s.ps.guardErrors, onPs (fun x => { x with guardErrors := 0 }) s)]),
   (0xD10040, 0x40, 64, 0x30, fun i =>
      [tabRc s.im.inst (i + 1) (·.epochDiscards) (fun x => { x with epochDiscards := 0 }) (fun t => onIm (fun m => { m with inst := t }) s) s,
       tabRc s.im.inst (i + 1) (·.dmaDenied) (fun x => { x with dmaDenied := 0 }) (fun t => onIm (fun m => { m with inst := t }) s) s]),
   (0xE00000, 0x100, 1, 0x40, fun _ => bankRc s.fo.ctr (fun v => onFo (fun x => { x with ctr := v }) s))]

/-- The 64-bit counter at an offset, and the state that a read of it leaves (R118). -/
def rc64 (o : Nat) (s : State) : Option (BitVec 64 × State) :=
  (counters64 s).findSome? (fun a => (block o a.1 a.2.1 a.2.2.1).bind (fun b => pick (a.2.2.2.2 b.1) a.2.2.2.1 b.2 8))

/-- The 32-bit counters of the blocks of one kind, the counters with their own offsets in the block. -/
def counters32 (s : State) : List (Nat × Nat × Nat × (Nat → List (Nat × BitVec 32 × State))) :=
  [(0x00900C, 4, 1, fun _ => [(0, s.log.lost, onLog (fun l => { l with lost := 0 }) s)]),
   (0x103000, 0x20, 14, fun p => [(0x10, (vget s.tb.txts p {}).lost, onTb (fun t => { t with txts := vmod t.txts p (fun x => { x with lost := 0 }) }) s)]),
   (0x210000, 0x1000, 14, fun n => (List.range 32).map (fun e => (0x20C + 0x10 * e, vget (getPx s n).hits e 0,
      modPx n (fun x => { x with hits := vmod x.hits e (fun _ => 0) }) s))),
   (0x300100, 0x40, 1, fun _ => (List.range 16).map (fun m =>
      let s := notePeak m s
      (4 * m, (vget s.sw.peak m 0).zeroExtend 32, onSw (fun x => { x with peak := vmod x.peak m (fun _ => BitVec.ofNat 18 (midHeld m s)) }) s))),
   (0x300218, 4, 1, fun _ => [(0, s.sw.mirLost, onSw (fun x => { x with mirLost := 0 }) s)]),
   (0x810000, 0x100, 8, fun r => [(0x40, (vget s.ar.recorder r {}).lateInputs, modRec r (fun x => { x with lateInputs := 0 }) s)]),
   (0x940000, 0x40, 1536, fun j => match (taskEntries s (j / 32))[j % 32]? with
      | none => []
      | some (o, e) =>
        [(0x14, (getTask s o e.task).maxDur, if (s.fb.tasks.get? (o, e.task)).isSome then modTask o e.task (fun x => { x with maxDur := 0 }) s else s)]),
   (0xA00008, 4, 1, fun _ => [(0, s.ps.maxWait, onPs (fun x => { x with maxWait := 0 }) s)]),
   (0xD30100, 4, 128, fun n => [(0, vget s.ev.count n 0, onEv (fun x => { x with count := vmod x.count n (fun _ => 0) }) s)]),
   (0xE40000, 0x1000, 2, fun g =>
      let x := vget s.fo.seg g {}
      [(0x40, x.discarded, modSeg g (fun x => { x with discarded := 0 }) s), (0x44, x.collCtr, modSeg g (fun x => { x with collCtr := 0 }) s),
       (0x48, x.dupCtr, modSeg g (fun x => { x with dupCtr := 0 }) s)] ++
      ((List.range 32).drop 2).flatMap (fun k =>
        [(0x104 + 0x10 * k, (vget x.stn k {}).undelivered, modStn g k (fun y => { y with undelivered := 0 }) s),
         (0x10C + 0x10 * k, (vget x.stn k {}).missedTotal, modStn g k (fun y => { y with missedTotal := 0 }) s)])),
   (0xF00420, 0x20, 8, fun n =>
      let x := vget s.pa.pd (n + 1) {}
      [(8, x.wakes, modPd (n + 1) (fun d => { d with wakes := 0 }) s), (0xC, x.maxStall, modPd (n + 1) (fun d => { d with maxStall := 0 }) s),
       (0x10, x.lockHits, modPd (n + 1) (fun d => { d with lockHits := 0 }) s)])]

/-- The 32-bit counter at an offset, and the state that a read of it leaves (R14). -/
def rc32 (o : Nat) (s : State) : Option (BitVec 32 × State) :=
  (counters32 s).findSome? (fun a => (block o a.1 a.2.1 a.2.2.1).bind (fun b => ((a.2.2.2 b.1).find? (fun c => c.1 == b.2)).map (·.2)))

/-! ## Register writes without a row of their own -/

/-- A W1C flag after a write of `v`: cleared where bit k of `v` is 1 (R14). -/
def w1c (f : Bool) (v : BitVec 32) (k : Nat) : Bool := f && !v.getLsbD k

/-- The W1C flags at the status register of each subsystem (R14, R618). -/
def clearStatus (n : Nat) (v : BitVec 32) (s : State) : State :=
  match n with
  | 0x0 => onGlob (fun g => { g with
      internal := w1c g.internal v 8, ringErr := w1c g.ringErr v 9, checkFail := w1c g.checkFail v 10
      commitFail := w1c g.commitFail v 11, intentOrphan := w1c g.intentOrphan v 12 }) s
  | 0x1 => onTb (fun t => { t with
      timeStep := w1c t.timeStep v 12, txtsOvf := w1c t.txtsOvf v 13, tcuLate := w1c t.tcuLate v 14
      tccOvf := w1c t.tccOvf v 15, irigErr := w1c t.irigErr v 16, ppsMissing := w1c t.ppsMissing v 17 }) s
  | 0x2 => onPx (fun x => { x with
      linkChg := w1c x.linkChg v 1, rxBad := w1c x.rxBad v 2, txOversize := w1c x.txOversize v 3
      pnThresh := w1c x.pnThresh v 4, proxyFull := w1c x.proxyFull v 5 }) s
  | 0x3 => onSw (fun x => { x with
      poolEmpty := w1c x.poolEmpty v 1, guardErr := w1c x.guardErr v 2, mirrorLost := w1c x.mirrorLost v 3
      fdbFull := w1c x.fdbFull v 4, holdExp := w1c x.holdExp v 5 }) s
  | 0x4 => onQm (fun x => { x with guardErr := w1c x.guardErr v 1, quota := w1c x.quota v 2, badPkt := w1c x.badPkt v 3 }) s
  | 0x5 => onSe (fun x => { x with
      authErr := w1c x.authErr v 1, talExp := w1c x.talExp v 2, stateChg := w1c x.stateChg v 3, quota := w1c x.quota v 4 }) s
  | 0x6 => onFr (fun x => { x with trkChg := w1c x.trkChg v 2, guardErr := w1c x.guardErr v 3, sat := w1c x.sat v 4 }) s
  | 0x7 => onPe (fun x => { x with
      guardErr := w1c x.guardErr v 1, late := w1c x.late v 2, range := w1c x.range v 3, quota := w1c x.quota v 4 }) s
  | 0x8 => onAr (fun x => { x with
      guardErr := w1c x.guardErr v 1, wslErr := w1c x.wslErr v 2, edgeOvf := w1c x.edgeOvf v 3, full := w1c x.full v 4 }) s
  | 0x9 => onFb (fun x => { x with
      guardErr := w1c x.guardErr v 1, fault := w1c x.fault v 2, rxDrop := w1c x.rxDrop v 3, txRefused := w1c x.txRefused v 4 }) s
  | 0xA => onPs (fun x => { x with
      guardErr := w1c x.guardErr v 1, orphanNew := w1c x.orphanNew v 3, forceFull := w1c x.forceFull v 4
      staleMark := w1c x.staleMark v 5, denied := w1c x.denied v 6, forcesDropped := w1c x.forcesDropped v 7 }) s
  | 0xC => onKv (fun x => { x with
      guardErr := w1c x.guardErr v 1, revoked := w1c x.revoked v 2, trngEvt := w1c x.trngEvt v 4, denied := w1c x.denied v 5 }) s
  | 0xD => onIm (fun x => { x with
      resetReq := w1c x.resetReq v 2, aperture := w1c x.aperture v 3, epochDisc := w1c x.epochDisc v 4, flr := w1c x.flr v 5 }) s
  | 0xE => onFo (fun x => { x with
      claimChg := w1c x.claimChg v 10, partnerLost := w1c x.partnerLost v 11, diagTrig := w1c x.diagTrig v 12
      split := w1c x.split v 13, replLate := w1c x.replLate v 14, epochLow := w1c x.epochLow v 15 }) s
  | 0xF => onPa (fun x => { x with
      lockedAccess := w1c x.lockedAccess v 8, brownout := w1c x.brownout v 9, tamper := w1c x.tamper v 10
      sleepRefused := w1c x.sleepRefused v 11 }) s
  | _ => s

/-- An entry of a table changed where it is listed. -/
def adjAt {ν : Type} (t : Tab Nat ν) (k : Nat) (f : ν → ν) : Tab Nat ν := t.map (fun e => if e.1 = k then (e.1, f e.2) else e)

/-- The word of an array of registers at `base` that an offset names. -/
def elem (o base stride count : Nat) : Option Nat := (block o base stride count).bind (fun b => if b.2 = 0 then some b.1 else none)

/-- The W1C flags of the per-unit registers: base, stride, number, and what a write of `v` to unit i does (R14, R621). -/
def clearUnits (v : BitVec 32) (s : State) : List (Nat × Nat × Nat × (Nat → State)) :=
  [(0x009000, 4, 1, fun _ => onLog (fun l => { l with clearRefused := w1c l.clearRefused v 19 }) s),
   (0x00A000, 4, 1, fun _ => onGrd (fun g => { g with uncorr := w1c g.uncorr v 0, corrRate := w1c g.corrRate v 1, recOvf := w1c g.recOvf v 2 }) s),
   (0x10002C, 4, 1, fun _ => onTb (fun t => { t with txtsOvfPorts := t.txtsOvfPorts &&& ~~~(v.truncate 14) }) s),
   (0x101000, 0x20, 32, fun n => modTcu n (fun u => { u with late := w1c u.late v 2, fired := w1c u.fired v 3 }) s),
   (0x102008, 0x10, 16, fun n => onTb (fun t => { t with tcc := vmod t.tcc n (fun u => { u with ovf := w1c u.ovf v 1 }) }) s),
   (0x210000, 0x1000, 14, fun n => modPx n (fun x => { x with
      linkChg := w1c x.linkChg v 8, rxBad := w1c x.rxBad v 9, txOversize := w1c x.txOversize v 10, pnThresh := w1c x.pnThresh v 11 }) s),
   (0x310000, 0x100, 16, fun n => modSw n (fun x => { x with holdExp := w1c x.holdExp v 2 }) s),
   (0x410000, 0x40, 256, fun q => onQm (fun m => { m with q := adjAt m.q q (fun x => { x with
      quotaHit := w1c x.quotaHit v 18, hwRewind := w1c x.hwRewind v 19 }) }) s),
   (0x510000, 0x40, 512, fun n => onSe (fun m => { m with sv := adjAt m.sv n (fun x => { x with
      confRevErr := w1c x.confRevErr v 5, authErr := w1c x.authErr v 6, gap := w1c x.gap v 7 }) }) s),
   (0x520000, 0x20, 1024, fun n => onSe (fun m => { m with gs := adjAt m.gs n (fun x => { x with
      confRevErr := w1c x.confRevErr v 2, authErr := w1c x.authErr v 3 }) }) s),
   (0x600100, 0x10, 64, fun g => onFr (fun m => { m with trk := adjAt m.trk g (fun x => { x with
      holdSeen := w1c x.holdSeen v 2, nominalSeen := w1c x.nominalSeen v 3 }) }) s),
   (0x610000, 0x20, 1024, fun l => onFr (fun m => { m with lane := adjAt m.lane l (fun x => { x with
      inBad := w1c x.inBad v 4, restart := w1c x.restart v 5, gridStep := w1c x.gridStep v 6, sat := w1c x.sat v 7 }) }) s),
   (0x710000, 0x40, 1024, fun c => onPe (fun m => { m with ch := adjAt m.ch c (fun x => { x with
      degraded := w1c x.degraded v 5, restart := w1c x.restart v 6, late := w1c x.late v 7, range := w1c x.range v 8 }) }) s),
   (0x720000, 0x40, 64, fun n => onPe (fun m => { m with str := adjAt m.str n (fun x => { x with
      late := w1c x.late v 3, quota := w1c x.quota v 4 }) }) s),
   (0x810000, 0x100, 8, fun r => modRec r (fun x => { x with
      lateInput := w1c x.lateInput v 4, trunc := w1c x.trunc v 5, lost := w1c x.lost v 6 }) s),
   (0x820000, 0x40, 8, fun k => modWsl k (fun x => { x with lockLost := w1c x.lockLost v 2, seqErr := w1c x.seqErr v 3 }) s),
   (0x830008, 0x20, 24, fun e => onAr (fun a => { a with edge := vmod a.edge e (fun x => { x with ovf := w1c x.ovf v 1 }) }) s),
   (0x900040, 4, 1, fun _ => onFb (fun x => { x with cut := w1c x.cut v 14 }) s),
   (0x910000, 0x100, 48, fun e => onFb (fun m => { m with eng := adjAt m.eng e (fun x => { x with
      faulted := w1c x.faulted v 2, guardCorr := w1c x.guardCorr v 3 }) }) s),
   (0x920000, 0x10, 65, fun o => onFb (fun m => { m with own := adjAt m.own o (fun x => { x with chg := w1c x.chg v 7 }) }) s),
   (0x940000, 0x40, 1536, fun j => match (taskEntries s (j / 32))[j % 32]? with
      | none => s
      | some (o, e) => onFb (fun m => { m with tasks := m.tasks.map (fun t =>
          if t.1 = (o, e.task) then (t.1, { t.2 with skip := w1c t.2.skip v 4, limit := w1c t.2.limit v 5 }) else t) }) s),
   (0xD10040, 0x40, 64, fun i => onIm (fun m => { m with inst := adjAt m.inst (i + 1) (fun x => { x with
      resetReq := w1c x.resetReq v 2, aperture := w1c x.aperture v 3 }) }) s),
   (0xD30000, 4, 4, fun w => clearEvents 0 (v.zeroExtend 128 <<< (32 * w)) s),
   (0xE40000, 0x1000, 2, fun g => modSeg g (fun x => { x with
      absentChg := w1c x.absentChg v 6, mismatch := w1c x.mismatch v 7, collRecovery := w1c x.collRecovery v 8
      lateReport := w1c x.lateReport v 9, lateImage := w1c x.lateImage v 10, claimDiff := w1c x.claimDiff v 11 }) s),
   (0xE40120, 0x10, 30, fun k => modStn 0 (k + 2) (fun x => { x with mismatch := w1c x.mismatch v 8, claimDiff := w1c x.claimDiff v 9 }) s),
   (0xE41120, 0x10, 30, fun k => modStn 1 (k + 2) (fun x => { x with mismatch := w1c x.mismatch v 8, claimDiff := w1c x.claimDiff v 9 }) s),
   (0xF00070, 4, 1, fun _ => onPa (fun x => { x with tamperLatched := x.tamperLatched &&& ~~~(v.truncate 4) }) s),
   (0xF00308, 4, 1, fun _ => onPmb (fun x => { x with
      done := w1c x.done v 1, nack := w1c x.nack v 2, pecErr := w1c x.pecErr v 3, timeout := w1c x.timeout v 4 }) s),
   (0xF00420, 0x20, 8, fun n => modPd (n + 1) (fun x => { x with woken := w1c x.woken v 5, lockHit := w1c x.lockHit v 6 }) s)]

/-- The lower or the upper half of a 64-bit register replaced. -/
def putHalf (r : BitVec 64) (hi : Bool) (v : BitVec 32) : BitVec 64 := if hi then v ++ r.truncate 32 else r.extractLsb' 32 32 ++ v

/-- A ring base address: bits 11:0 read 0 (R61). -/
def ringBase (r : BitVec 64) (hi : Bool) (v : BitVec 32) : BitVec 64 := putHalf r hi v &&& ~~~0xFFF#64

/-- A write of a base or size register of manager ring k, taken while EN is 0 (R61). -/
def writeRing (k r : Nat) (v : BitVec 32) (s : State) : State :=
  if (vget s.su.mring k {}).en then s else
  onSu (fun u => { u with mring := vmod u.mring k (fun x =>
    if r = 0 then { x with cbase := ringBase x.cbase false v }
    else if r = 4 then { x with cbase := ringBase x.cbase true v }
    else if r = 8 then { x with rbase := ringBase x.rbase false v }
    else if r = 0xC then { x with rbase := ringBase x.rbase true v }
    else if r = 0x10 then { x with size := v.truncate 4 } else x) }) s

/-- A write of the mirror ring's base, size or RELEASE; base and size while EN is 0 (R174). -/
def writeMirror (r : Nat) (v : BitVec 32) (s : State) : State :=
  if r = 0x10 then onSw (fun x => { x with mirRelease := v.truncate 17 }) s
  else if s.sw.mirEn then s
  else if r = 0 then onSw (fun x => { x with mirBase := ringBase x.mirBase false v }) s
  else if r = 4 then onSw (fun x => { x with mirBase := ringBase x.mirBase true v }) s
  else if r = 8 then onSw (fun x => { x with mirSize := v.truncate 5 }) s
  else s

/-- A 32-bit write in BAR0 (R14, R15, R614); a write of PA_PMB_CTRL here has GO = 0, and is ignored while BUSY is 1 (R606). -/
def writeBar0 (o : Nat) (v : BitVec 32) (s : State) : State :=
  if o % 0x100000 = 0 ∧ o < 0x1000000 then clearStatus (o / 0x100000) v s
  else match block o 0x008000 0x40 4, block o 0x300200 0x18 1 with
  | some (k, r), _ => writeRing k r v s
  | _, some (_, r) => writeMirror r v s
  | none, none =>
    if o = 0x009010 then onLog (fun l => { l with wbase := v.truncate 2 }) s
    else if o = 0xF00300 then
      if s.pmb.busy then s else
      onPmb (fun p => { p with
        addr := v.truncate 7, cmd := v.extractLsb' 8 8, read := v.getLsbD 16, len := v.extractLsb' 17 3, pec := v.getLsbD 20, fast := v.getLsbD 21 }) s
    else if o = 0xF00304 then onPmb (fun p => { p with data := v }) s
    else (((clearUnits v s).findSome? (fun a => (elem o a.1 a.2.1 a.2.2.1).map a.2.2.2))).getD s

/-- A 32-bit write in the window of instance i (R515): its event flags and the ERR flags of its rings; the window of an instance that is ABSENT
takes no write. -/
def writeWindow (i o : Nat) (v : BitVec 32) (s : State) : State :=
  if instState s i = .absent then s
  else match elem o 0x10 4 4, elem o 0x100C 0x40 2 with
  | some w, _ => clearEvents i (v.zeroExtend 128 <<< (32 * w)) s
  | _, some k => onSu (fun u => { u with iring := u.iring.map (fun e => if e.1 = (i, k) then (e.1, { e.2 with err := w1c e.2.err v 1 }) else e) }) s
  | none, none => s

/-- A 32-bit write in BAR4 (R510, R512): the MSI-X table; a pending message is sent as its mask is cleared (log 77). -/
def writeMsix (o : Nat) (v : BitVec 32) (s : State) : State :=
  if 16 * 1088 ≤ o then s else
  let n := o / 16
  let put (f : MsixEntry → MsixEntry) (s : State) : State := onIm (fun m => { m with msix := m.msix.upd n {} f }) s
  match o % 16 with
  | 0 => put (fun e => { e with addr := putHalf e.addr false v }) s
  | 4 => put (fun e => { e with addr := putHalf e.addr true v }) s
  | 8 => put (fun e => { e with data := v }) s
  | 12 =>
    let s := put (fun e => { e with mask := v.getLsbD 0 }) s
    if !v.getLsbD 0 && s.im.msixPend.contains n then emit (.msix n) (onIm (fun m => { m with msixPend := m.msixPend.filter (· != n) }) s) else s
  | _ => s

/-- One 32-bit write: window 0 is BAR0, 1–64 the windows of BAR2, 65 is BAR4 (R510). -/
def writeReg (window o : Nat) (v : BitVec 32) (s : State) : State :=
  if window = 0 then writeBar0 o v s else if window ≤ 64 then writeWindow window o v s else writeMsix o v s

/-- REGISTER_WRITE (R13–R16, R614): a 64-bit access writes both halves of an aligned pair; an access of another width or alignment has no effect,
and neither has a write to any register not named here. -/
def execRegisterWrite (window : Fin 66) (o : Nat) (v : BitVec 64) (w : AccessWidth) (s : State) : Res :=
  if !s.glob.ready then .next s
  else match w with
  | .b8 | .b16 => .next s
  | .b32 => .next (if o % 4 = 0 then writeReg window.val o (v.truncate 32) s else s)
  | .b64 => .next (if o % 8 = 0 then writeReg window.val (o + 4) (v.extractLsb' 32 32) (writeReg window.val o (v.truncate 32) s) else s)

/-! ## Common opcodes (R76, R471, R634) -/

/-- The common opcode of a subsystem with a low byte. -/
def commonOp (n : Fin 16) (low : Nat) : BitVec 16 := BitVec.ofNat 16 (256 * n.val + low)

/-- GET_INFO (R471, R634), open to every issuer (R88). -/
def execGetInfo (c : Cmd) (n : Fin 16) (s : State) : Res :=
  answer (commonOp n 0xF0) true c s
    (if n.val = 0xB then
      { r0 := BitVec.ofNat 64 (ofBytesLE ((s.mi.mail.page.drop 4).take 4))
        r1 := (0#30 ++ (miStatus s).extractLsb' 0 2) ++ BitVec.ofNat 32 (ofBytesLE ((s.mi.mail.page.drop 8).take 4)) }
    else
      { r0 := BitVec.ofNat 64 (1 + 65536 * s.glob.stepping.toNat), r1 := if n.val = 0 then suCap.zeroExtend 64 else 0 })

/-- The metering points whose blocks an issuer sees (R471, R518). -/
def metersOf (c : Cmd) (s : State) (p : Nat) : Bool := issuer c == 0 || (getInst s (issuer c)).shares.meters.getLsbD p

/-- GET_STATUS (R76, R471): the manager alone, but for MI. -/
def execGetStatus (c : Cmd) (n : Fin 16) (s : State) : Res :=
  answer (commonOp n 0xF1) (n.val == 0xB) c s
    (if n.val = 0xB then
      if c.bufLen < 36864 then st .badParam
      else { buf := .bytes (mailPageView s ++ (List.range 8).flatMap (fun p =>
               if metersOf c s p then mailBlockView s p else .replicate 4096 0)) }
    else { buf := .bytes ((statusWords n.val s).flatMap (fun w => bytesLE 4 w.toNat)) })

/-- How many indices and sub-indices a staged opcode names, from the first; none where the opcode is no staged one (R634; log 80). -/
def itemRange (op sub : Nat) : Option (Nat × Nat × Nat) :=
  match op with
  | 0x0101 => some (0, 1, 1)
  | 0x0102 => some (0, 1, 1)
  | 0x0103 => some (0, 14, 1)
  | 0x0104 => some (0, 1, 1)
  | 0x0105 => some (20, 12, 1)
  | 0x0201 => some (0, 14, 1)
  | 0x0202 => some (0, 14, 32)
  | 0x0203 => some (0, 2, 1)
  | 0x0204 => some (0, 6, 1)
  | 0x0301 => some (0, 16, 8)
  | 0x0302 => some (0, 16384, 1)
  | 0x0303 => some (0, 4096, 1)
  | 0x0304 => some (0, 1, 1)
  | 0x0305 => some (0, 1, 1)
  | 0x0401 => some (0, 256, 1)
  | 0x0402 => some (0, 64, 1)
  | 0x0501 => some (0, 16, 2)
  | 0x0502 => some (0, 512, 1)
  | 0x0503 => some (0, 1024, 1)
  | 0x0504 => some (0, 256, 1)
  | 0x0601 => some (0, 1024, 1)
  | 0x0602 => some (0, 64, 1)
  | 0x0603 => some (0, if sub = 0 then 256 else 16, 2)
  | 0x0701 => some (0, 1024, 1)
  | 0x0702 => some (0, 341, 1)
  | 0x0703 => some (0, 64, 1)
  | 0x0801 => some (0, 8, 1)
  | 0x0802 => some (0, 24, 1)
  | 0x0803 => some (0, 128, 1)
  | 0x0804 => some (0, 8, 1)
  | 0x0901 => some (0, 65, 1)
  | 0x0902 => some (0, 384, 1)
  | 0x0903 => some (0, 48, 2)
  | 0x0904 => some (0, if sub = 0 then 65 else 256, 66)
  | 0x0905 => some (0, 48, 65)
  | 0x0A01 => some (0, 5242880, 257)
  | 0x0D01 => some (1, 64, 1)
  | 0x0D02 => some (0, 128, 1)
  | 0x0E01 => some (0, 1, 1)
  | 0x0E02 => some (0, 65, 1)
  | 0x0E08 => some (0, 1, 1)
  | 0x0F01 => some (2, 7, 1)
  | 0x0F02 => some (0, 1, 1)
  | _ => none

/-- The index and sub-index lie in the range of the opcode. -/
def itemInRange (op idx sub : Nat) : Bool :=
  match itemRange op sub with
  | some (lo, n, m) => decide (lo ≤ idx ∧ idx < lo + n ∧ sub < m)
  | none => false

/-- An item named by its key lies in the share of instance o (R518, R634). -/
def nameInShare (s : State) (o : Tag) (op idx sub : Nat) : Bool :=
  let x := (getInst s o).shares
  match op with
  | 0x0105 => x.tcus.contains idx
  | 0x0401 => x.queues.contains idx
  | 0x0502 => shareItem x .svSub idx
  | 0x0503 => shareItem x .goSub idx
  | 0x0504 => shareItem x .goPub idx
  | 0x0601 => shareItem x .lane idx
  | 0x0602 => shareItem x .trk idx
  | 0x0603 => shareItem x (if sub = 0 then .fir else .proto) idx
  | 0x0701 => shareItem x .chan idx
  | 0x0702 => shareItem x .set_ idx
  | 0x0703 => shareItem x .stream idx
  | 0x0803 => shareItem x .comp idx
  | 0x0804 => shareItem x .rec_ idx
  | 0x0901 => idx == o
  | 0x0904 => if sub = 0 then idx == o else sub == 1 + o
  | 0x0905 => sub == o
  | 0x0A01 => if sub = 0 then shareItem x .point idx else sub == 1 + o
  | 0x0D01 => idx == o
  | 0x0E02 => idx == o
  | _ => false

/-- The item of a list with a key. -/
def itemAt (l : List Item) (op idx sub : Nat) : Option Item := l.find? (fun i => Item.key i == (BitVec.ofNat 16 op, idx, sub))

/-- What READ_ACTIVE and READ_STAGED answer, over the bank or the session's view (R471, R634). -/
def readItem (c : Cmd) (n : Fin 16) (op : BitVec 16) (idx sub : Nat) (l : List Item) (s : State) : ReplyBody :=
  if n.val = 0xB then st .sealed
  else if op.toNat / 256 ≠ n.val ∨ !itemInRange op.toNat idx sub then st .badParam
  else if issuer c ≠ 0 ∧ !nameInShare s (issuer c) op.toNat idx sub then suSt .denied
  else match itemAt l op.toNat idx sub with
  | none => st .ok
  | some i =>
    if c.bufLen < Config.itemLen i then { status := .badParam, r0 := BitVec.ofNat 64 (Config.itemLen i) }
    else { r0 := BitVec.ofNat 64 (Config.itemLen i), buf := .items [i] }

/-- READ_ACTIVE (R634): one item of the active bank. -/
def execReadActive (c : Cmd) (n : Fin 16) (op : BitVec 16) (idx sub : Nat) (s : State) : Res :=
  answer (commonOp n 0xF2) true c s (readItem c n op idx sub s.su.active s)

/-- READ_STAGED (R634): one item as staged in the issuer's session, or its active value. -/
def execReadStaged (c : Cmd) (n : Fin 16) (op : BitVec 16) (idx sub : Nat) (s : State) : Res :=
  answer (commonOp n 0xF3) true c s (readItem c n op idx sub (overlay (getSession s (issuer c)).staged s.su.active) s)

end Sys2Proof.Machine
end

