-- ==== Sys2Proof/Machine/Startup.lean ====
section
/-! DEFINITION. Meanings of the start-up phases (R502, R554–R559). -/

namespace Sys2Proof.Machine

/-- Start-up phase p is the next to end: the device runs, `p` has not ended, and every phase of a list has. -/
def phaseDue (p : Nat) (after : List Nat) (s : State) : Bool :=
  s.pa.power == .running && !s.kv.halted && !s.pa.ended.getLsbD p && after.all (fun n => s.pa.ended.getLsbD n)

/-! ## Phase 1: secure boot (R481, R502, R503) -/

/-- A firmware image: its header of 256 bytes in network order, its body and its signature (R502). -/
def fwField (l : List Byte) (o n : Nat) : Nat := ofBytesBE ((l.drop o).take n)

/-- The header is as R502 gives it, and the image lies in its slot of 8 MiB. -/
def fwHeaderOk (l : List Byte) : Bool :=
  fwField l 0 4 == 0x46575350 && decide (fwField l 4 2 ≤ 64 ∧ fwField l 6 1 ≤ 3) && fwField l 7 1 == 0 &&
  decide (352 ≤ fwField l 8 4 ∧ fwField l 8 4 ≤ 8388608 ∧ fwField l 8 4 ≤ l.length) && fwField l 0x9C 100 == 0

/-- SVN of an image, 0 where there is none. -/
def fwSvnOf (x : Option (List Byte)) : Nat :=
  match x with
  | some l => if fwHeaderOk l then fwField l 4 2 else 0
  | none => 0

/-- Why a firmware slot does not boot, by the codes of R506; 0 where it does. None: the slot cannot be read. -/
def imageFail (s : State) (x : Option (List Byte)) : Nat :=
  match x with
  | none => 6
  | some l =>
    let key := fwField l 6 1
    let pub := (l.drop 0x3C).take 96
    let n := fwField l 8 4
    if !fwHeaderOk l then 1
    else if curveHash true pub ≠ curveHash true (bytesBE 96 (Config.fwKey key).toNat) ∨ s.kv.fwRevoke.getLsbD key then 2
    else if fwField l 4 2 < s.kv.fwSvn then 3
    else if !Config.ecdsaVerify true pub (curveHash true (l.take 256)) ((l.drop (n - 96)).take 96) then 4
    else if curveHash true ((l.drop 256).take (n - 352)) ≠ (l.drop 0xC).take 48 then 5 else 0

/-- A life-cycle change that lost power is completed: every slot erased, LC_SEEN written (R481). -/
def lifeErase (s : State) : State :=
  if s.kv.lcSeen.toNat = lifeCode s then s
  else onKv (fun k => { k with mram := [], journal := none, lcSeen := BitVec.ofNat 8 (lifeCode s), erased := true }) s

/-- SECURE_BOOT_DONE (R477, R502, R503, R506, R604): the boot ROM has brought up the flash; K_root is derived, and the slot named by FW_SEL is tried first; the images of both slots are what the
boot ROM reads. -/
def execSecureBootDone (a b : Option (List Byte)) (s : State) : Res :=
  if !phaseDue 1 [] s then .next s else
  let s := lifeErase (onKv (fun k => { k with root := rootKey (lifeCode s) }) (xspiBoot s))
  let fa := imageFail s a
  let fb := imageFail s b
  let first := if s.kv.fwSelB then fb else fa
  let bootB : Bool := if first = 0 then s.kv.fwSelB else !s.kv.fwSelB
  let ok := fa = 0 ∨ fb = 0
  let s := onKv (fun k => { k with
    failA := if k.fwSelB ∧ fb = 0 then 0 else BitVec.ofNat 4 fa
    failB := if !k.fwSelB ∧ fa = 0 then 0 else BitVec.ofNat 4 fb
    bootSlot := if ok then (if bootB then 2 else 1) else 0
    svn := if ok then BitVec.ofNat 7 (fwSvnOf (if bootB then b else a)) else 0
    otherSvn := fwSvnOf (if bootB then a else b), halted := !decide ok }) s
  .next (startLink (if ok then markPhase 1 true s else s))

/-! ## Phase 2: Duiker restore (R54, R547, R548) -/

/-- Whether some retained word is invalid; the reserved words 6 and 7 hold nothing (R546, R547). -/
def retentionLost (r : Retention) : Bool := (List.range 128).any (fun n => n != 6 && n != 7 && !retGood r n)

/-- LT rebuilt as LT_sleep + N × C, with its uncertainty and the TAI anchor carried forward (R54); the bound saturates (log 73). -/
def rebuildTime (s : State) : State :=
  let r := s.pa.ret
  let n := (s.pa.rtc - r.calRtc).toNat
  let fine := n * r.calC.toNat
  let t := fine / 65536
  let since := ((s.abs : Int) - s.pa.goodLt).toNat
  let wraps := ((s.absOf r.calLt).toNat + t) / 2 ^ 64
  let acc : BitVec 96 := (r.calLt.zeroExtend 96 <<< 32) + BitVec.ofNat 96 (fine * 65536)
  let d := s.tb.src.rtcDrift + (if r.calUnref then s.tb.src.refTol else 0)
  let u := ceilDiv (d * t) (10000000 * 65536) + 30518
  let base : TbState := { s.tb with taiS := r.anchorS, taiNs := r.anchorNs, taiFr := r.anchorFr, ltA := r.anchorLt }
  let b := setAnchor base (ltAdd r.anchorLt t) (anchorTai base + t)
  let s := { s with tb := { b with
    acc := acc, ltUncertain := true, ltUncert := BitVec.ofNat 32 (min u 0xFFFFFFFF), taiValid := r.taiValid, utcOffset := r.utcOffset
    utcKnown := r.utcKnown, utcCarried := r.utcKnown } }
  let s := { s with tb := { s.tb with wraps := wraps } }
  onPa (fun p => { p with goodLt := (s.abs : Int) - since }) s

/-- LT left cold: it counts from the release of PD1, 1.0 ms after power-good (R21). -/
def coldTime (s : State) : State :=
  let since := ((s.abs : Int) - s.pa.goodLt - msTu 1).toNat
  onPa (fun p => { p with goodLt := -(msTu 1 : Int) }) { s with tb := { State.reset.tb with acc := BitVec.ofNat 96 since <<< 32 } }

/-- DUIKER_RESTORE_DONE (R54, R547, R548, R551, R559). Phase 3 starts, from which every domain is on: idle times count from here at the earliest. -/
def execDuikerRestoreDone (rtc : BitVec 48) (s : State) : Res :=
  if !phaseDue 2 [1] s then .next s else
  let s := setRtc rtc s
  let r := s.pa.ret
  let followed := s.pa.slept && retGood r 3
  let s := onPa (fun p => { p with
    retainLost := retentionLost r, warm := followed
    opsecs := if p.duikerBor then p.opsecsMram else p.opsecs, opsecsUncertain := p.opsecsUncertain || p.duikerBor, duikerBor := false
    pwrCycles := if p.coldStart then p.pwrCycles + 1 else p.pwrCycles, pwrReq := false, slept := false }) s
  let s := if followed && retGood r 1 && retGood r 2 then rebuildTime s else coldTime s
  let s := onPa (fun p => { p with pd := p.pd.map (fun d => { d with lastUse := s.abs }) }) s
  .next (markPhase 2 true s)

/-! ## Phases 3 and 4 -/

/-- The domains switched off for want of a package or of the DRAM (R555). -/
def domainsOff (l : List Nat) (s : State) : State := l.foldl (fun s n => powerOff .off n s) s

/-- DRAM_TRAINING_DONE (R554, R555): trained, or failed after two retries. -/
def execDramTrainingDone (ok : Bool) (s : State) : Res :=
  if !phaseDue 3 [2] s then .next s else
  .next (if ok then markPhase 3 true s
    else markPhase 3 false (domainsOff [2, 3, 4, 5, 6, 7, 8] (onPa (fun p => { p with noPackage := true }) s)))

/-- KV_BOOT_STATUS (R506). -/
def bootStatus (s : State) : BitVec 32 :=
  pack [(s.kv.bootSlot.toNat, 0), (s.kv.failA.toNat, 2), (s.kv.failB.toNat, 6), (s.kv.svn.toNat, 10)]

/-- A corrupt slot is treated as revoked, with its descendants (R494). -/
def corruptSlot (n : Nat) (s : State) : State :=
  let l := (keyTree s n).filter (fun m => m != n && (getSlot s m).state == .valid)
  let s := markRevoked l (l.foldl (fun s m => putSlot m { getSlot s m with state := .revoked } s) s)
  raiseArg 0x60 0 (BitVec.ofNat 32 n) (onKv (fun k => { k with guardErr := true }) s)

/-- KV opens each slot's named copy, `bad` being the words with an uncorrectable error: 0–5 copy A, 6–11 copy B, 12 the commit word (R494). -/
def restoreSlots (bad : List (Fin 1024 × Fin 13)) (s : State) : State :=
  let s := onKv (fun k => { k with slot := restoredTable k.root k.mram (bad.map (fun e => (e.1.val, e.2.val))) }) s
  (s.kv.slot.filter (fun e => e.2.state == .corrupt)).foldl (fun s e => corruptSlot e.1 s) s

/-- A revocation whose journal stands is completed and logged (R495). -/
def finishJournal (s : State) : State :=
  match s.kv.journal with
  | none => s
  | some n =>
    let r := revokeTree n s
    revokeRecord n r.2 (onKv (fun k => { k with journal := none }) r.1)

/-- The start-up record (R545, R576). -/
def startupRecord (s : State) : State :=
  let p := s.pa
  logRec 0x0002 0xFF 0 s.now
    (pack [(p.wakeSrc.toNat, 0), (p.borCause.toNat, 4), (p.borLater.toNat, 8), (bitN p.warm, 12), (bitN p.retainLost, 13), (bitN s.kv.erased, 14)])
    (bootStatus s) s

/-- The booted-package record, and before it that of an intent record without its applied record (R96, R576). -/
def bootedRecord (id : BitVec 64) (s : State) : State :=
  let s := match s.su.pkg.intent with
    | some n =>
      let s := onSu (fun u => { u with pkg := { u.pkg with intent := none } }) s
      if n = id then s
      else logRec 0x0006 0xFF 0 s.now (n.truncate 32) (n.extractLsb' 32 32) (onGlob (fun g => { g with intentOrphan := true }) s)
    | none => s
  logRec 0x0003 0xFF 0 s.now (id.truncate 32) (id.extractLsb' 32 32) s

/-- Sources that occurred before the end of phase 4 set their bits for the manager (R585). -/
def deliverEarly (s : State) : State :=
  let early := s.ev.early
  (List.range 128).foldl (fun s n => if early.getLsbD n then setMgrBit n s else s) (onEv (fun e => { e with early := 0 }) s)

/-- SU_READY (R494, R495, R545, R554, R585): `bad` are the MRAM words of key slots with an uncorrectable error. -/
def execSuReady (bad : List (Fin 1024 × Fin 13)) (s : State) : Res :=
  if !phaseDue 4 [3] s then .next s else
  let s := finishJournal (restoreSlots bad s)
  let s := startupRecord (onKv (fun k => { k with ready := true }) (onQm (fun q => { q with ready := true }) (onIm (fun m => { m with ready := true }) s)))
  let s := if s.pa.borCause = 0 then s else raise 0x79 0 (onPa (fun p => { p with brownout := true }) s)
  let s := if s.pa.noPackage then bootedRecord 0 s else s
  let s := markPhase 4 true (deliverEarly (onGlob (fun g => { g with ready := true }) s))
  .next (readiness s)

/-! ## Phases 5 to 7 -/

/-- The packages phase 5 tries, with their BOOT_PKG codes: after a sleep the boot package that the DRAM holds, then the slot the boot selector
names, then the other (R555, R559; log 76). -/
def bootCandidates (heldOk : Bool) (s : State) : List (Package × BitVec 2) :=
  let slot (b : Bool) : List (Package × BitVec 2) := match vget s.su.pkg.flash (bitN b) none with
    | some p => [(p, if b then 2 else 1)]
    | none => []
  let named := slot s.su.pkg.bootSel
  let held := match s.su.pkg.held, named with
    | some p, (q, k) :: _ => if s.pa.warm && heldOk && pkgId p == pkgId q then [(p, k)] else []
    | _, _ => []
  held ++ named ++ slot (!s.su.pkg.bootSel)

/-- PACKAGE_LOADED (R93, R96, R555): `heldOk` tells that the package the DRAM still holds is intact. -/
def execPackageLoaded (heldOk : Bool) (s : State) : Res :=
  if !phaseDue 5 [4] s ∨ s.pa.noPackage then .next s else
  match (bootCandidates heldOk s).find? (fun x => (packageRefusal s x.1).isNone) with
  | some (p, k) =>
    let raiseMin : Bool := s.su.pkg.intent == some (pkgId p)
    let s := onSu (fun u => { u with pkg := { u.pkg with
      held := some p, booted := some p
      genMin := if raiseMin && decide (u.pkg.genMin.toNat < (pkgGeneration p).toNat) then pkgGeneration p else u.pkg.genMin } }) s
    let s := bootedRecord (pkgId p) (onGlob (fun g => { g with pkgId := pkgId p, bootPkg := k }) s)
    .next (readiness (markPhase 5 true s))
  | none =>
    let s := onSu (fun u => { u with pkg := { u.pkg with held := none } }) s
    .next (bootedRecord 0 (domainsOff [2, 3, 4, 5, 6, 7] (onPa (fun p => { p with noPackage := true }) s)))

/-- The configuration that phases 6 and 7 build from: the bank in force once phase 7 has ended, else the boot package's content. -/
def bootView (s : State) : List Item :=
  if s.pa.ended.getLsbD 7 then s.su.active else (s.su.pkg.booted.map packageBank).getD []

/-- POINT_STORE_BUILT (R403): every defined point initial, the forces of MRAM applied or dropped, READY set. -/
def execPointStoreBuilt (s : State) : Res :=
  if !phaseDue 6 [4, 5] s then .next s else
  let view := bootView s
  let defs := viewPoints view
  let gone := (s.ps.force.filter (fun e => match defs.get? e.1 with
    | some d => d.type != e.2.type
    | none => true)).map (·.1)
  let recs : Tab Nat PointRec := defs.map (fun e => (e.1, initialPoint e.2 (viewOwner view .point e.1) s.now))
  let s := dropForces gone s
  let s := markOrphans view (psSettings view (onPs (fun x => { x with recs := recs }) s))
  .next (readiness (markPhase 6 true (onPs (fun x => { x with ready := true }) s)))

/-- PORTS_UP (R554): the boot package becomes the active bank of every subsystem. -/
def execPortsUp (s : State) : Res :=
  if !phaseDue 7 [5] s then .next s else .next (bringUp s.now (bootView s) s)

/-! ## Phases 10 and 11 -/

/-- LOCK_TIMEOUT (R212, R382, R554): phase 10 ends whatever is locked, and the start gates that still hold open. -/
def execLockTimeout (s : State) : Res :=
  match s.se.lockTimeoutAt with
  | none => .next s
  | some t =>
    if !ltReached s.now t then .next s else
    .next (readiness (markPhase 10 true (openGates (fun k => k.cfg.gate.isSome) (onSe (fun x => { x with lockTimeoutAt := none }) s))))

/-- INSTANCES_START (R376): at the first frame boundary after the phases before it, every owner enters its staged initial state. -/
def execInstancesStart (s : State) : Res :=
  if !phaseDue 11 [6, 8, 9, 10] s ∨ !s.fb.running ∨ ltDiff s.fb.frameLt s.pa.lastEnd < 0 then .next s else
  let t := s.fb.frameLt
  let s := (ownersOf s).foldl (fun s o => if (s.fb.ownCfg.getD o {}).initRun then runCold o none t s else s) s
  .next (readiness (markPhase 11 true s))

end Sys2Proof.Machine
end

