-- ==== Sys2Proof/Machine/RegRead.lean ====
section
/-! DEFINITION. Host reads of BAR0, BAR2 and BAR4 (chapter 21): the words of every register block, and the one access that reads them
(R13–R15, R18, R118, R515, R610–R624). -/

namespace Sys2Proof.Machine

/-- The two words of a 64-bit register, the lower first (R13). -/
def words64 (v : BitVec 64) : List (BitVec 32) := [v.truncate 32, v.extractLsb' 32 32]

/-- The little-endian words of bytes (R12). -/
def wordsOfBytes (l : List Byte) : List (BitVec 32) :=
  (List.range (l.length / 4)).map (fun k => BitVec.ofNat 32 (ofBytesLE ((l.drop (4 * k)).take 4)))

/-- A register block: base, stride, number of blocks, and the words of block i from its first offset (R621). -/
abbrev RegBlock := Nat × Nat × Nat × (Nat → List (BitVec 32))

/-! ## SU and TB -/

/-- SU_MRINGk_* (R61, R62). -/
def mringWords (r : Ring) : List (BitVec 32) :=
  words64 r.cbase ++ words64 r.rbase ++ [r.size.zeroExtend 32, r.tail.zeroExtend 32, r.head.zeroExtend 32, r.release.zeroExtend 32,
    pack [(bitN r.en, 0), (bitN r.err, 1), (bitN r.inflight.isEmpty, 2), (r.vector.toNat, 8)]]

/-- A record of the platform event log (R575). -/
def logWords (e : LogRec) : List (BitVec 32) :=
  [e.seq, pack [(e.type.toNat, 0), (e.source.toNat, 16), (e.owner, 24)], e.lt.truncate 32, e.lt.extractLsb' 32 32, e.opsecs, e.pwrCycles, e.arg0, e.arg1]

/-- The register blocks of SU (R580, R615). -/
def suBlocks (s : State) : List RegBlock :=
  [(0x000000, 0x34, 1, fun _ => [suStatus s, suId s, s.glob.fwVersion, suCap] ++ words64 s.glob.serial ++
      words64 (if s.pa.noPackage then 0 else s.glob.pkgId) ++ [s.su.pkg.genMin, 0, 0, 0, suSummary s]),
   (0x008000, 0x40, 4, fun k => mringWords (vget s.su.mring k {})),
   (0x009000, 0x18, 1, fun _ => [logStatus s, s.log.first, logNewest s, 0, s.log.wbase.zeroExtend 32, 0]),
   (0x00A000, 4, 1, fun _ => [gerrStatus s]),
   (0x00A020, 0x20, 1, fun _ => errWords s),
   (0x080000, 0x20, 16384, fun j => ((s.log.recs[16384 * s.log.wbase.toNat + j]?).map logWords).getD [])]

/-- TB_TCUn_CTRL, TARGET and PERIOD (R40, R57). -/
def tcuWords (u : Tcu) : List (BitVec 32) :=
  [pack [(bitN u.en, 0), (bitN u.periodic, 1), (bitN u.late, 2), (bitN u.fired, 3), (u.dest.toNat, 8), (u.owner, 16)], 0] ++
  words64 u.target ++ words64 (u.period.zeroExtend 64)

/-- TB_TCCn_STAT (R621). -/
def tccStat (u : Tcc) : BitVec 32 := pack [(bitN u.fifo.isEmpty, 0), (bitN u.ovf, 1), (u.fifo.length, 2)]

/-- TB_PORT_LAT_Pn; the external PHY's uncertainty on an SGMII port alone (R28, R621). -/
def portLatWords (s : State) (p : Nat) : List (BitVec 32) :=
  let x := vget s.tb.lat p {}
  [x.ingress, x.egress, x.asym, if (getPx s p).cfg.phy = .sgmii then x.phyUnc else 0]

/-- The register blocks of TB (R621). -/
def tbBlocks (s : State) : List RegBlock :=
  [(0x100000, 0x30, 1, fun _ => [tbStatus s, 0, 0, 0, 0, 0] ++ words64 s.tb.rate ++
      [holdoverSecs s, timeErrBound s, s.tb.ltUncert, s.tb.txtsOvfPorts.zeroExtend 32]),
   (0x101000, 0x20, 32, fun n => tcuWords (getTcu s n)),
   (0x102000, 0x10, 16, fun n => [0, 0, tccStat (vget s.tb.tcc n {})]),
   (0x103000, 0x20, 14, fun p => txtsWords s p),
   (0x104000, 0x10, 14, fun p => portLatWords s p)]

/-! ## PX, SW and QM -/

/-- W0–W2 of an address entry (R110). -/
def entryWords (x : AddrEntry) : List (BitVec 32) :=
  [x.mac.truncate 32, pack [((x.mac.extractLsb' 32 16).toNat, 0), (x.etype.toNat, 16)],
   pack [(x.vid.toNat, 0), (bitN x.vlanEn, 12), (bitN x.etypeEn, 13), (bitN x.valid, 14), (x.queue.val, 16),
    (match x.action with
    | .forward => 0
    | .core => 1
    | .ingest => 2
    | .drop => 3, 19)]]

/-- PX_PORTn_CFG (R131). -/
def portCfgWord (c : PortCfg) : BitVec 32 :=
  pack [(phyCode c.phy, 0), (match portFec c with
    | .none => 0
    | .baseR => 1
    | .rs => 2, 4), (bitN c.anEn, 6), (bitN c.pauseObey, 7), (bitN c.deliverBad, 8), (c.badQueue.val, 9), (bitN c.defaultDrop, 12),
    (c.pvid.toNat, 16), (c.pprio.val, 28)]

/-- PX_PORTn_PCPMAP (R131). -/
def pcpMapWord (c : PortCfg) : BitVec 32 := pack ((List.range 8).map (fun k => ((vget c.pcpMap k 0).val, 3 * k)))

/-- PX_TAP_SELk: the destination address in bits 47:0 and the APPID in bits 63:48, zeros where the selection is not in use (DESIGN CHOICE, log 160). -/
def tapSelWords (x : TapSel) : List (BitVec 32) := if x.valid then words64 (x.appid ++ x.dst) else [0, 0]

/-- The register blocks of PX (R110, R130, R131, R619). -/
def pxBlocks (s : State) : List RegBlock :=
  [(0x200000, 4, 1, fun _ => [pxStatus s]),
   (0x200800, 8, 16, fun k => tapSelWords (vget s.px.tapSel k {}))] ++
  (List.range 14).flatMap (fun n =>
    let x := getPx s n
    [(0x210000 + 0x1000 * n, 0x10, 1, fun _ => [pxPortStatus s n, portCfgWord x.cfg, BitVec.ofNat 32 x.cfg.maxf, pcpMapWord x.cfg]),
     (0x210200 + 0x1000 * n, 0x10, 32, fun e => entryWords (vget x.entries e {}))])

/-- The mirror ring's registers (R174). -/
def mirrorWords (s : State) : List (BitVec 32) :=
  words64 s.sw.mirBase ++ [s.sw.mirSize.zeroExtend 32, s.sw.mirHead.zeroExtend 32, s.sw.mirRelease.zeroExtend 32, BitVec.ofNat 32 (bitN s.sw.mirEn)]

/-- The register blocks of SW (R174, R178, R179). -/
def swBlocks (s : State) : List RegBlock :=
  [(0x300000, 8, 1, fun _ => [swStatus s, BitVec.ofNat 32 (cellsFree s)]),
   (0x300200, 0x18, 1, fun _ => mirrorWords s),
   (0x310000, 0x100, 16, fun n => [swPortStatus s n, 0, 0, 0] ++ (List.range 8).map (fun q => BitVec.ofNat 32 (occ s n q)))]

/-- QM_WORDS_FREE: the words of QM's store that no queue occupies (R183, R196). -/
def wordsFree (s : State) : Nat := 262144 - (s.qm.q.map (fun e => qOcc e.2)).sum

/-- The register blocks of QM (R196, R197). -/
def qmBlocks (s : State) : List RegBlock :=
  [(0x400000, 8, 1, fun _ => [qmStatus s, BitVec.ofNat 32 (wordsFree s)]), (0x410000, 0x40, 256, fun q => [qmQueueStatus s q])]

/-! ## SE, FR, PE and AR -/

/-- The register blocks of SE (R219–R221). -/
def seBlocks (s : State) : List RegBlock :=
  [(0x500000, 4, 1, fun _ => [seStatus s]),
   (0x500100, 4, 16, fun g => [seGroupStatus s g]),
   (0x510000, 0x40, 512, fun n => [seSvStatus s n, (s.se.sv.getD n {}).lag]),
   (0x520000, 0x20, 1024, fun g => [seGoSubStatus s g, (s.se.gs.getD g {}).stNum, (s.se.gs.getD g {}).sqNum]),
   (0x530000, 0x20, 256, fun p => [seGoPubStatus s p, (getGp s p).stNum, (getGp s p).sqNum])]

/-- FR_TRKg_* (R245). -/
def trkWords (s : State) (g : Nat) : List (BitVec 32) :=
  let x := s.fr.trk.getD g {}
  [frTrkStatus s g, x.freq, ((x.cyc.map (·.no)).getD 0)]

/-- FR_LANEl_* (R246). -/
def laneWords (s : State) (n : Nat) : List (BitVec 32) :=
  let x := s.fr.lane.getD n {}
  [frLaneStatus s n, 0] ++ words64 (x.gd.zeroExtend 64) ++ [x.settleLeft.zeroExtend 32]

/-- The register blocks of FR (R244–R246). -/
def frBlocks (s : State) : List RegBlock :=
  [(0x600000, 8, 1, fun _ => [frStatus s, frInputRate s]), (0x600100, 0x10, 64, trkWords s), (0x610000, 0x20, 1024, laneWords s)]

/-- PE_CHc_* with the result record (R270). -/
def chanWords (s : State) (c : Nat) : List (BitVec 32) :=
  let x := s.pe.ch.getD c {}
  [peChanStatus s c, BitVec.ofNat 32 x.cfg.lane, 0, 0, x.res.seq, 0] ++ words64 x.res.tr ++
  [x.res.re, x.res.im, x.res.freq, x.res.rocof, pack [(x.res.q.toNat, 0), (x.res.flags.toNat, 16)]]

/-- The register blocks of PE (R269–R271). -/
def peBlocks (s : State) : List RegBlock :=
  [(0x700000, 4, 1, fun _ => [peStatus s]), (0x710000, 0x40, 1024, chanWords s),
   (0x720000, 0x40, 64, fun n => [peStreamStatus s n, (s.pe.str.getD n {}).cfg.idcode.zeroExtend 32])]

/-- AR_EDGEe_STAT (R306). -/
def edgeStat (u : EdgeUnit) : BitVec 32 := pack [(bitN u.fifo.isEmpty, 0), (bitN u.ovf, 1), (u.fifo.length, 2)]

/-- The register blocks of AR (R303–R306). -/
def arBlocks (s : State) : List RegBlock :=
  [(0x800000, 4, 1, fun _ => [arStatus s]), (0x800010, 4, 1, fun _ => [tdcCalAge s]),
   (0x810000, 0x100, 8, fun r => [arRecStatus s r, (vget s.ar.recorder r {}).last]),
   (0x820000, 0x40, 8, fun k => [arWslStatus s k]),
   (0x830000, 0x20, 24, fun e => [0, 0, edgeStat (vget s.ar.edge e {})])]

/-! ## FB, PS and MI -/

/-- FB_ENGe_STATUS and the fault registers (R355). -/
def engWords (s : State) (e : Nat) : List (BitVec 32) :=
  let f := (getEng s e).fault
  [fbEngStatus s e, 0, 0, 0, pack [(f.code.toNat, 0), (f.task.toNat, 8), (f.owner, 16)], f.pc.zeroExtend 32] ++
  words64 f.instr ++ words64 f.lt ++ [f.elapsed, f.addr]

/-- FB_OWNo_STATE and CHG_LT (R386). -/
def ownWords (s : State) (o : Nat) : List (BitVec 32) :=
  let x := s.fb.own.getD o {}
  [pack [(match x.state with
    | .stop => 0
    | .run => 1
    | .hold => 2
    | .step => 3, 0), (match x.reason with
    | .startup => 0
    | .command => 1
    | .faultLimit => 2
    | .instanceReset => 3, 3), (bitN x.invalidate, 6), (bitN x.chg, 7), (x.stepLeft.toNat, 8)], 0] ++ words64 x.chgLt

/-- FB_TSKj_* (R387); MAX_DUR is a counter. -/
def taskWords (s : State) (j : Nat) : List (BitVec 32) :=
  match (taskEntries s (j / 32))[j % 32]? with
  | none => []
  | some (o, e) =>
    let x := getTask s o e.task
    [fbTaskStatus s j, 0] ++ words64 x.lastStart ++ [x.lastDur, 0] ++ words64 x.tclkOfs

/-- The register blocks of FB (R353–R355, R385–R387). -/
def fbBlocks (s : State) : List RegBlock :=
  [(0x900000, 4, 1, fun _ => [fbStatus s]),
   (0x900040, 8, 1, fun _ => [pack [(s.fb.ticks, 0), (bitN s.fb.cut, 14)], s.fb.frameNo]),
   (0x900100, 0x40, 6, fun k => [fbClStatus s k]),
   (0x910000, 0x100, 48, engWords s), (0x920000, 0x10, 65, ownWords s), (0x940000, 0x40, 1536, taskWords s)]

/-- PS_FORCE_COUNT (R406). -/
def forceCount (s : State) : BitVec 32 := pack [(s.ps.force.length, 0), ((s.ps.force.filter (fun e => e.2.orphan)).length, 16)]

/-- The register blocks of PS (R406). -/
def psBlocks (s : State) : List RegBlock := [(0xA00000, 8, 1, fun _ => [psStatus s, forceCount s])]

/-- The mailbox (R468–R470, R475). -/
def miBlocks (s : State) : List RegBlock :=
  [(0xB00000, 0x1000, 1, fun _ => wordsOfBytes (mailPageView s)), (0xB10000, 0x1000, 8, fun p => wordsOfBytes (mailBlockView s p)),
   (0xB80000, 0x20, 4096, fun r => wordsOfBytes (s.mi.mail.log.getD r []))]

/-! ## KV, IM, FO and PA -/

/-- KV_LC (R506). -/
def kvLc (s : State) : BitVec 32 := pack [(lifeCode s, 0), (bitN s.kv.erased, 3), (s.kv.fwSvn, 4)]

/-- An engine or a MACsec core holds a copy of slot n (R507). -/
def slotInUse (s : State) (n : Nat) : Bool :=
  s.kv.reqs.any (fun r => r.started && r.slots.contains n) ||
  s.px.port.toList.any (fun p => (p.txSa.map (·.2) ++ p.rxSa.map (·.2)).any (fun a => a.slot.toNat == n && a.purgeAt.isNone))

/-- KV_SLOTs_* (R507). -/
def slotWords (s : State) (n : Nat) : List (BitVec 32) :=
  let k := getSlot s n
  [pack [(keyCode k.type, 0), (k.level.toNat, 4), (match k.state with
    | .empty => 0
    | .valid => 1
    | .revoked => 2
    | .corrupt => 3, 7), (k.owner, 16), (bitN k.compat, 24), (bitN k.exportable, 25), (bitN k.plain, 26), (bitN (slotInUse s n), 27)],
   k.dest, k.parent.zeroExtend 32, k.gen]

/-- The register blocks of KV (R505–R507). -/
def kvBlocks (s : State) : List RegBlock :=
  [(0xC00000, 0xC, 1, fun _ => [kvStatus s, kvLc s, bootStatus s]), (0xC10000, 0x10, 1024, slotWords s)]

/-- IM_INSTi_* (R533). -/
def instWords (s : State) (i : Nat) : List (BitVec 32) :=
  let x := getInst s i
  [imInstStatus s i, x.shares.pasid.zeroExtend 32] ++ wordsOfBytes (bytesBE 32 x.configHash.toNat)

/-- IM_EVTn_ROUTE (R534). -/
def routeWord (r : EvRoute) : BitVec 32 := pack [(bitN r.mode, 0), (r.mvec.toNat, 2), (r.ivec.toNat, 8)]

/-- The four words of a set of event bits (R620). -/
def evtWords (v : BitVec 128) : List (BitVec 32) := (List.range 4).map (fun w => v.extractLsb' (32 * w) 32)

/-- The register blocks of IM (R532–R534, R620). -/
def imBlocks (s : State) : List RegBlock :=
  [(0xD00000, 4, 1, fun _ => [imStatus s]), (0xD10040, 0x40, 64, fun i => instWords s (i + 1)),
   (0xD20000, 4, 128, fun n => [routeWord (s.im.route.getD n {})]),
   (0xD30000, 0x20, 1, fun _ => evtWords s.ev.mevt ++ evtWords s.ev.memask)]

/-- FO_CABs_STNk, the counters left out (R152). -/
def stnWords (x : Station) : List (BitVec 32) :=
  [pack [(match x.state with
    | .unassigned => 0
    | .present => 1
    | .absent => 2
    | .resyncPending => 3, 0), (min x.missed 15, 3), (bitN x.safe, 7), (bitN x.mismatch, 8), (bitN x.claimDiff, 9)], 0, x.lastEcho]

/-- The register blocks of FO (R151, R152, R439, R440). -/
def foBlocks (s : State) : List RegBlock :=
  [(0xE00000, 0x2C, 1, fun _ => [foStatus s, claimReg s, s.fo.hb.claim, s.fo.eMem.zeroExtend 32, foDiag s, 0] ++ words64 s.fo.ltOffset ++
      [s.fo.linkDelay])] ++
  (List.range 2).flatMap (fun g =>
    let x := vget s.fo.seg g {}
    [(0xE40000 + 0x1000 * g, 8, 1, fun _ => [cabStatus s g, x.cycle]),
     (0xE40120 + 0x1000 * g, 0x10, 30, fun k => stnWords (vget x.stn (k + 2) {}))])

/-- PA_PDn_STATE and IDLE; PD1 is always on (R561). -/
def pdWords (s : State) (n : Nat) : List (BitVec 32) :=
  let d := vget s.pa.pd n {}
  if n = 1 then [2, BitVec.ofNat 32 d.idleMs] else
  [pack [(match d.state with
    | .off => 0
    | .waking => 1
    | .on => 2
    | .locked => 3, 0), (match d.mode with
    | .on => 0
    | .auto => 1
    | .locked => 2, 2), (bitN d.inUse, 4), (bitN d.woken, 5), (bitN d.lockHit, 6)], BitVec.ofNat 32 d.idleMs]

/-- PA_TAMPER (R562). -/
def tamperReg (s : State) : BitVec 32 := pack [(s.pa.tamperLatched.toNat, 0), (s.pa.tamperLevel.toNat, 4)]

/-- PA_REFUSEDk (R562). -/
def refusedWord (s : State) (k : Nat) : BitVec 32 :=
  pack [((vget s.pa.ret.refused (2 * k) 0).toNat, 0), ((vget s.pa.ret.refused (2 * k + 1) 0).toNat, 16)]

/-- A register of the Duiker domain: 0 while the domain's interface is disabled in low-power mode (R542, log 85). -/
def duikerReg (s : State) (v : BitVec 32) : BitVec 32 := if s.pa.regLow then 0 else v

/-- PA_PMB_CTRL, whose GO reads 0, and PA_PMB_DATA and STATUS (R606). -/
def pmbWords (s : State) : List (BitVec 32) :=
  [pack [(s.pmb.addr.toNat, 0), (s.pmb.cmd.toNat, 8), (bitN s.pmb.read, 16), (s.pmb.len.toNat, 17), (bitN s.pmb.pec, 20), (bitN s.pmb.fast, 21)],
   s.pmb.data, pmbStatus s]

/-- The register blocks of PA (R560–R562, R606). -/
def paBlocks (s : State) : List RegBlock :=
  [(0xF00000, 4, 1, fun _ => [paStatus s]),
   (0xF00040, 0x34, 1, fun _ => [duikerReg s (wakeSrcReg s), duikerReg s (borCauseReg s), duikerReg s s.pa.opsecs, s.pa.pwrCycles, 0, 0, 0, 0,
      duikerReg s (refusedWord s 0), duikerReg s (refusedWord s 1), duikerReg s (refusedWord s 2), 0, duikerReg s (tamperReg s)]),
   (0xF00204, 4, 11, fun p => [vget s.pa.phaseEnd (p + 1) 0]),
   (0xF00300, 0xC, 1, fun _ => pmbWords s),
   (0xF00420, 0x20, 8, fun n => pdWords s (n + 1))]

/-! ## BAR2 and BAR4 -/

/-- The ring registers of an instance (R515). -/
def winRingWords (s : State) (i k : Nat) : List (BitVec 32) :=
  match s.su.iring.get? (i, k) with
  | none => []
  | some r => [r.tail.zeroExtend 32, r.head.zeroExtend 32, r.release.zeroExtend 32,
      pack [(1, 0), (bitN r.err, 1), (bitN r.inflight.isEmpty, 2), (r.vector.toNat, 8)]]

/-- The host queue registers of an instance (R515). -/
def winHqWords (s : State) (i j : Nat) : List (BitVec 32) :=
  match (getInst s i).hq.get? j with
  | none => []
  | some q => [q.tail.zeroExtend 32, q.head.zeroExtend 32, pack [(1, 0), (bitN q.toHost, 1), (q.qnum, 8)]]

/-- The window of instance i, whose owner tag is i (R8, R515, R623). -/
def winBlocks (i : Nat) (s : State) : List RegBlock :=
  let x := getInst s i
  [(0x0000, 0x30, 1, fun _ => [pack [(i, 0), (i, 8), (x.epoch.toNat, 16)], BitVec.ofNat 32 (instCode x.state), 0, 0] ++
      evtWords (s.ev.winEvt.getD i 0) ++ evtWords (s.ev.winMask.getD i 0)),
   (0x1000, 0x40, 2, winRingWords s i), (0x2000, 0x40, 16, winHqWords s i)]

/-- BAR4: the MSI-X table, and the pending bits of its 1,088 vectors (R510, R512). -/
def msixBlocks (s : State) : List RegBlock :=
  [(0x0000, 0x10, 1088, fun n =>
      let e := s.im.msix.getD n {}
      words64 e.addr ++ [e.data, BitVec.ofNat 32 (bitN e.mask)]),
   (0x8000, 4, 34, fun w => [pack ((List.range 32).map (fun b => (bitN (s.im.msixPend.contains (32 * w + b)), b)))])]

/-! ## One read -/

/-- The blocks of a window: 0 is BAR0, whose offset names the subsystem (R610), 1–64 the windows of BAR2, 65 is BAR4 (R510). -/
def regBlocks (window o : Nat) (s : State) : List RegBlock :=
  if window = 65 then msixBlocks s
  else if window ≠ 0 then (if instState s window = .absent then [] else winBlocks window s)
  else match o / 0x100000 with
  | 0x0 => suBlocks s
  | 0x1 => tbBlocks s
  | 0x2 => pxBlocks s
  | 0x3 => swBlocks s
  | 0x4 => qmBlocks s
  | 0x5 => seBlocks s
  | 0x6 => frBlocks s
  | 0x7 => peBlocks s
  | 0x8 => arBlocks s
  | 0x9 => fbBlocks s
  | 0xA => psBlocks s
  | 0xB => miBlocks s
  | 0xC => kvBlocks s
  | 0xD => imBlocks s
  | 0xE => foBlocks s
  | 0xF => paBlocks s
  | _ => []

/-- A register that a read leaves as it is; 0 where there is none, and for WO and RSV (R14, R15). -/
def plain32 (window o : Nat) (s : State) : BitVec 32 :=
  ((regBlocks window o s).findSome? (fun a => (block o a.1 a.2.1 a.2.2.1).map (fun b => (a.2.2.2 b.1).getD (b.2 / 4) 0))).getD 0

/-- The 64-bit register of access RS, or 64-bit RC counter, whose lower word lies at an offset of BAR0: its value and what the read leaves (R14). -/
def latching (o : Nat) (s : State) : Option (BitVec 64 × State) :=
  if o = 0x100010 then some (s.now, s)
  else if o = 0xF00050 then some (if s.pa.regLow then 0 else s.pa.rtc.zeroExtend 64, s)
  else match elem o 0x102000 0x10 16, elem o 0x830000 0x20 24 with
  | some n, _ => some (captureTake n s)
  | _, some e => some (edgeTake e s)
  | none, none => rc64 o s

/-- An aligned 32-bit read by a requester: its value, and the state after it (R14, R18, R51, R573). -/
def read32 (rq window o : Nat) (s : State) : BitVec 32 × State :=
  if window ≠ 0 then (plain32 window o s, s)
  else if o % 8 = 4 ∧ (latching (o - 4) s).isSome then (latchedHalf rq (o - 4) s, s)
  else match rc32 o s with
  | some r => r
  | none =>
    let v := plain32 0 o s
    if o = 0x00A03C then (v, errDrop s)
    else match elem (o - 0xC) 0x103000 0x20 14 with
    | some p => (v, if 0xC ≤ o then txtsDrop p s else s)
    | none => (v, s)

/-- A host read of a register (R13–R15, R18, R118): an aligned 64-bit access reads its pair as one, an access of another width or alignment answers
0 and has no effect, and an offset without a register answers 0. -/
def readReg (rq window o : Nat) (w : AccessWidth) (s : State) : State :=
  match w with
  | .b8 | .b16 => answerRead rq 0 s
  | .b32 =>
    if o % 4 ≠ 0 then answerRead rq 0 s
    else match (if window = 0 then latching o s else none) with
    | some (v, s) => readRs rq o v false s
    | none => answerRead rq ((read32 rq window o s).1.zeroExtend 64) (read32 rq window o s).2
  | .b64 =>
    if o % 8 ≠ 0 then answerRead rq 0 s
    else match (if window = 0 then latching o s else none) with
    | some (v, s) => readRs rq o v true s
    | none =>
      let lo := read32 rq window o s
      let hi := read32 rq window (o + 4) lo.2
      answerRead rq (hi.1 ++ lo.1) hi.2

/-- What a read answers after a failure of both firmware slots, when KV_LC and KV_BOOT_STATUS alone hold values (R503, R612). -/
def haltedRead (o : Nat) (w : AccessWidth) (s : State) : BitVec 64 :=
  let word (o : Nat) : BitVec 32 := if o = 0xC00004 then kvLc s else if o = 0xC00008 then bootStatus s else 0
  match w with
  | .b8 | .b16 => 0
  | .b32 => (word o).zeroExtend 64
  | .b64 => if o % 8 = 0 then word (o + 4) ++ word o else 0

/-- COUNTER_READ (R118), and any host read (R13–R15; log 161): a counter's value is answered and the counter cleared in one access. -/
def execCounterRead (rq : Nat) (window : Fin 66) (o : Nat) (w : AccessWidth) (s : State) : Res :=
  if !s.glob.ready && s.kv.halted && decide (window.val = 0) then .next (answerRead rq (haltedRead o w s) s)
  else hostRead rq (readReg rq window.val o w) s

/-- RTC_READ (R546, R562): the 48-bit count is latched for the requester; the upper word's bits above 47 read 0. The Duiker domain answers 0 while
its interface is disabled (R542, log 85). -/
def execRtcRead (rq : Nat) (rtc : BitVec 48) (wide : Bool) (s : State) : Res :=
  hostRead rq (fun s => readRs rq 0xF00050 (if s.pa.regLow then 0 else rtc.zeroExtend 64) wide (setRtc rtc s)) s

end Sys2Proof.Machine
end

