-- ==== Sys2Proof/Machine/StageCheck.lean ====
section
/-! DEFINITION. SU_STAGE_CHECK: the consistency checks of R83, each over the configuration that would be in force after the commit (R82). A check
answers the index of the first item that fails it. -/

namespace Sys2Proof.Machine

/-! ## SU -/

/-- An item staged both here and in another owner's open session, a removal as well (0x0001). -/
def chkStagedTwice (s : State) (o : Tag) : Option Nat :=
  let mine := (getSession s o).staged
  (mine.find? (fun i => s.su.sessions.any (fun e => e.1 != o && e.2.state != .closed && e.2.staged.any (sameKey i)))).map Item.index

/-- The conditions that staged opcodes check against other items, each with its opcode (0x0002, R630). -/
def chkConditions (s : State) (o : Tag) (view : List Item) : List (BitVec 16 × Option Nat) :=
  [(0x0401, queuesCond view), (0x0402, steerCond view), (0x0502, svCond view), (0x0601, laneCond view), (0x0701, chanCond view),
   (0x0702, setCond s view), (0x0801, wslCond view), (0x0803, compCond view), (0x0804, recCond view), (0x0901, codeCond view),
   (0x0904, tasksCond view), (0x0905, retainCond s (getSession s o).staged view), (0x0A01, staleCond view), (0x0D01, pasidCond view),
   (0x0E02, replCond view), (0x0E08, cabCond view)]

/-! ## TB -/

/-- The mode of the pair a port belongs to in a configuration (R120). -/
def viewPairMode (view : List Item) (p : Nat) : RedMode :=
  (view.findSome? (fun i => match i with
    | .red k c => if p = 2 + 2 * k ∨ p = 3 + 2 * k then some c.mode else none
    | _ => none)).getD .independent

/-- A PTP feature outside R31 (0x1001): the ports of an HSR pair are a peer-to-peer transparent clock alone; an ordinary clock has one PTP port,
or the two of a PRP pair; ports of the transparent set need a clock type that has one. -/
def ptpUnsupported (view : List Item) (c : PtpCfg) : Bool :=
  let hsr := c.ports.any (fun p => viewPairMode view p.port.val == .hsr && !(c.delay == .p2p && (c.clock == .transparentP2P || p.transparent)))
  let ordinary : Bool := c.clock == .ordinarySlaveOnly || c.clock == .ordinaryMaster
  let doubly := match c.ports with
    | [a, b] => viewPairMode view a.port.val == .prp && a.port.val / 2 == b.port.val / 2
    | _ => false
  c.enabled && (hsr || (ordinary && decide (1 < c.ports.length) && !doubly) ||
    (c.clock == .transparentE2E && c.delay != .e2e) || (c.clock == .transparentP2P && c.delay != .p2p) ||
    (c.clock != .boundaryAndTransparent && c.ports.any (·.transparent)) || c.cabinetPort || decide (255 < c.domain) || !(decide (c.ports.map (·.port)).Nodup) ||
    (match c.profile with
     | .default1588 => c.delay != .e2e
     | _ => c.delay != .p2p || c.transport != .ethernet) ||
    c.ports.any (fun p => decide (p.logSync < -7 ∨ 1 < p.logSync ∨ p.logAnnounce < 0 ∨ 3 < p.logAnnounce ∨ p.logPdelay < -4 ∨ 5 < p.logPdelay)))

/-- 0x1001. -/
def chkPtp (view : List Item) : Option Nat :=
  view.findSome? (fun i => match i with
    | .ptp c => if ptpUnsupported view c then some 0 else none
    | _ => none)

/-- A threshold or drift bound outside R24, R35, R36 or R54 (0x1002). -/
def chkThresholds (view : List Item) : Option Nat :=
  view.findSome? (fun i => match i with
    | .ptp c => if c.stepThr < 1000 ∨ 1000000000 < c.stepThr ∨ c.lockThr < 20 ∨ 100000 < c.lockThr ∨ c.lossMs < 250 ∨ 60000 < c.lossMs then some 0 else none
    | .sources c => if c.drift < 1 ∨ 5000 < c.drift ∨ c.rtcDrift < 1 ∨ 2000 < c.rtcDrift then some 0 else none
    | _ => none)

/-- The owner of general unit n by the shares of a configuration (R44, R518). -/
def shareTcuOwner (view : List Item) (n : Nat) : Tag := (((viewShares view).find? (fun e => e.2.tcus.contains n)).map (·.1)).getD 0

/-- A general compare unit outside its owner's share (0x1003). -/
def chkUnits (view : List Item) : Option Nat :=
  view.findSome? (fun i => match i with
    | .tcuAssign a => if a.dest ≠ 0 ∧ a.owner ≠ shareTcuOwner view (20 + a.unit.val) then some (20 + a.unit.val) else none
    | _ => none)

/-! ## PX and SW -/

/-- M outside the port's range (0x2001, R101). -/
def chkMaxFrame (view : List Item) : Option Nat :=
  view.findSome? (fun i => match i with
    | .port p c => if c.maxf < 1518 ∨ (if p.val < 6 then 9728 else 1536) < c.maxf then some p.val else none
    | _ => none)

/-- An address entry beyond the 32 of a port (0x2002). -/
def chkEntries (view : List Item) : Option Nat :=
  view.findSome? (fun i => match i with
    | .filter p e _ => if 32 ≤ e then some p.val else none
    | _ => none)

/-- MACsec on a port without it, or protecting PTP event messages on a PTP port (0x2003, R30, R126). -/
def chkMacsec (view : List Item) : Option Nat :=
  let ptp (p : Nat) (m : MacsecCfg) : Bool := view.any (fun i => match i with
    | .ptp c => c.enabled && c.ports.any (fun x => x.port.val == p) && ptpProtected c m
    | _ => false)
  view.findSome? (fun i => match i with
    | .macsec p c => if c.en ∧ (6 ≤ p ∨ ptp p c) then some p else none
    | _ => none)

/-- The PHY types of a port (R97). -/
def phyAllowed (p : Nat) (t : PhyType) : Bool :=
  match t with
  | .disabled => true
  | .base25 => decide (p < 2)
  | .base10 => decide (p < 6)
  | .base1000 => decide (2 ≤ p)
  | .sgmii => decide (6 ≤ p)

/-- The FEC modes of a PHY type (R97). -/
def fecAllowed (t : PhyType) (f : Fec) : Bool :=
  match f with
  | .none => true
  | .baseR => t == .base25 || t == .base10
  | .rs => t == .base25

/-- The PHY type of a port in a configuration. -/
def viewPhy (view : List Item) (p : Nat) : PhyType :=
  (view.findSome? (fun i => match i with
    | .port q c => if q.val = p then some c.phy else none
    | _ => none)).getD .disabled

/-- Redundancy on another pair, a PHY type not permitted on its port, or an enabled pair whose ports have two PHY types (0x2004; that the rule of
R120 is judged here: DESIGN CHOICE, log 128). -/
def chkPhy (view : List Item) : Option Nat :=
  view.findSome? (fun i => match i with
    | .red k c => if c.mode ≠ .independent ∧ (2 ≤ k ∨ viewPhy view (2 + 2 * k) ≠ viewPhy view (3 + 2 * k)) then some k else none
    | .port p c => if !phyAllowed p.val c.phy || (c.phy != .disabled && !fecAllowed c.phy (portFec c)) then some p.val else none
    | _ => none)

/-- The cell limits of queue (p, q) in a configuration (R166). -/
def viewLimits (view : List Item) (p q : Nat) : LimitsCfg :=
  (view.findSome? (fun i => match i with
    | .limits p' q' c => if p'.val = p ∧ q'.val = q then some c else none
    | _ => none)).getD {}

/-- The first staged queue limit of a configuration, by port. -/
def firstLimit (view : List Item) : Nat :=
  (view.findSome? (fun i => match i with
    | .limits p _ _ => some p.val
    | _ => none)).getD 0

/-- No cells left for the shared pool (0x3001, R166). -/
def chkCells (view : List Item) : Option Nat :=
  let total := ((List.range 16).flatMap (fun p => (List.range 8).map (fun q => (viewLimits view p q).reserve))).sum
  if 131072 < 1280 + total then some (firstLimit view) else none

/-- A marking depth above its queue's limit (0x3002). -/
def chkEcn (view : List Item) : Option Nat :=
  view.findSome? (fun i => match i with
    | .limits p _ c => if c.limit < c.ecnDepth then some p.val else none
    | _ => none)

/-! ## QM and SE -/

/-- Instance shares beyond a queue's capacity (0x4001, R185). -/
def chkQueueShares (view : List Item) : Option Nat :=
  let shares := (viewShares view).flatMap (fun e => e.2.qShare)
  (List.range 256).find? (fun q =>
    let l := shares.filter (fun e => e.1 == q && e.2 != 0)
    !l.isEmpty && decide ((((viewQueues view).get? q).map (·.cap)).getD (qDefaultCap q) < (l.map (·.2)).sum + 321 * l.length))

/-- Too many subscriptions or analogue channels (0x5001, R200). -/
def chkStreams (view : List Item) : Option Nat :=
  let sv := view.filterMap (fun i => match i with
    | .svSub n c => if c.en then some (n, c.chans.length) else none
    | _ => none)
  let gs := view.filterMap (fun i => match i with
    | .goSub n c => if c.en then some n else none
    | _ => none)
  if 512 < sv.length ∨ 8192 < (sv.map (·.2)).sum then (sv.head?).map (·.1)
  else if 1024 < gs.length then gs.head? else none

/-- A tolerance outside 0–4 ms in steps of 10 µs (0x5002, R205). -/
def chkTolerance (view : List Item) : Option Nat :=
  view.findSome? (fun i => match i with
    | .group g c => if 4000 < c.tolUs ∨ c.tolUs % 10 ≠ 0 then some g.val else none
    | _ => none)

/-- One control block published by two owners (0x5003). -/
def chkBlocks (view : List Item) : Option Nat :=
  let l := view.filterMap (fun i => match i with
    | .goPub n c => if c.en then some (n, c) else none
    | _ => none)
  (l.find? (fun e => l.any (fun f => f.2.gocbRef == e.2.gocbRef && f.2.owner != e.2.owner))).map (·.1)

/-! ## FR and PE -/

/-- The enabled lanes of a configuration, presets filled in. -/
def viewLanes (view : List Item) : List (Nat × LaneCfg) :=
  view.filterMap (fun i => match i with
    | .lane n c => if c.en then some (n, fillPreset c) else none
    | _ => none)

/-- Too many lanes, a lane beyond 20 Msamples/s, or the input budget exceeded (0x6001, R225). -/
def chkLaneRate (view : List Item) : Option Nat :=
  let l := viewLanes view
  if 1024 < l.length ∨ 600000000 < (l.map (fun e => viewRate view e.2.src)).sum then (l.head?).map (·.1)
  else (l.find? (fun e => decide (20000000 < viewRate view e.2.src))).map (·.1)

/-- A binary32 value that is finite. -/
def finite32 (b : BitVec 32) : Bool := b.extractLsb' 23 8 != 0xFF

/-- A lane setting outside the table of R232 (0x6002). -/
def laneOutside (c : LaneCfg) : Bool :=
  decide (c.n < 3 ∨ 5 < c.n ∨ c.d < 1 ∨ 64 < c.d ∨ c.m < 1 ∨ 2 < c.m ∨ 255 < c.fir ∨ 15 < c.proto ∨ c.div < 1 ∨ 65536 < c.div) || !finite32 c.scale ||
  (c.mode == .track && decide (63 < c.group ∨ ¬(c.p = 32 ∨ c.p = 64 ∨ c.p = 128 ∨ c.p = 256)))

/-- 0x6002. -/
def chkLane (view : List Item) : Option Nat := ((viewLanes view).find? (fun e => laneOutside e.2)).map (·.1)

/-- Too many channels, or one fed from a lane that is not a tracking grid (0x7001). -/
def chkChanLane (view : List Item) : Option Nat :=
  let l := viewChans view
  if 1024 < l.length then (l.head?).map (·.1)
  else (l.find? (fun e => match viewLane view e.2.lane with
    | some x => x.mode != .track
    | none => true)).map (·.1)

/-- f0 of a channel's tracking group. -/
def viewF0 (view : List Item) (c : ChanCfg) : Nat :=
  match (viewLane view c.lane).bind (fun l => viewTrk view l.group) with
  | some t => if t.sixty then 60 else 50
  | none => 50

/-- The rates of R250 at a nominal frequency. -/
def ratesAt (f0 : Nat) : List Nat := if f0 = 60 then [10, 12, 15, 20, 30, 60, 1, 2, 5, 120, 240] else [10, 25, 50, 1, 2, 5, 100, 200]

/-- Whether a stream reports channel n (R251, R263). -/
def streamReports (view : List Item) (x : StreamCfg) (n : Nat) : Bool :=
  x.pmus.any (fun p => p.freq == n || p.phasors.any (fun y => match y.src with
    | .chan c => c == n
    | .seq k _ => (viewSets view).any (fun e => e.1 == k && (e.2.a == n || e.2.b == n || e.2.c == n))))

/-- The enabled streams of a configuration. -/
def viewStreams (view : List Item) : List (Nat × StreamCfg) :=
  view.filterMap (fun i => match i with
    | .stream n c => if c.en then some (n, c) else none
    | _ => none)

/-- The window of a channel against its class (R252). -/
def windowOk (f0 : Nat) (c : ChanCfg) (rates : List Nat) : Bool :=
  match c.cls with
  | .p => c.win == .triangle && c.w == 2 && c.b == 1
  | .m => c.win == .hann && decide (2 ≤ c.w ∧ c.w ≤ 6 ∧ 1 ≤ c.b ∧ c.b ≤ 16) && rates.all (fun fs => decide (0 < fs ∧ ceilDiv (4 * f0) fs ≤ c.w + c.b - 1))
  | .none => decide (1 ≤ c.w ∧ c.w ≤ 6 ∧ 1 ≤ c.b ∧ c.b ≤ 16)

/-- A window or a rate outside R250–R252 (0x7002). -/
def chkChan (view : List Item) : Option Nat :=
  ((viewChans view).find? (fun e =>
    let c := e.2
    let f0 := viewF0 view c
    let rates := ((viewStreams view).filter (fun x => streamReports view x.2 e.1)).map (·.2.fs)
    let ref := view.any (fun i => match i with
      | .track _ t => t.en && t.ref == some e.1
      | _ => false)
    !(ratesAt f0).contains c.fe || rates.any (fun fs => fs == 0 || c.fe % fs != 0 || !(ratesAt f0).contains fs) || (ref && decide (c.fe < 2 * f0)) ||
    !windowOk f0 c rates)).map (·.1)

/-! ## AR -/

/-- The enabled recorders of a configuration. -/
def viewRecs (view : List Item) : List (Nat × RecCfg) :=
  view.filterMap (fun i => match i with
    | .recorder r c => if c.en then some (r.val, c) else none
    | _ => none)

/-- Recording memory above 4 GiB, or too many channels in a pattern (0x8001, R285). -/
def chkRecorders (view : List Item) : Option Nat :=
  let l := viewRecs view
  match l.find? (fun e => decide (e.2.mib < 1 ∨ 4096 < e.2.mib ∨ 256 < e.2.bins.length)) with
  | some e => some e.1
  | none => if 4096 < (l.map (fun e => e.2.mib)).sum then (l.head?).map (·.1) else none

/-- A hold-off outside its range (0x8002, R291). -/
def chkHoldOff (view : List Item) : Option Nat :=
  ((viewRecs view).find? (fun e => match e.2.holdOff with
    | .none => false
    | .time h => decide (h < 1 ∨ 3600000000 < h)
    | .count n => decide (n < 1 ∨ 65535 < n))).map (·.1)

/-! ## FB -/

/-- The windows of engine e in a configuration. -/
def viewWindows (view : List Item) (e : Nat) : List Window :=
  (view.findSome? (fun i => match i with
    | .windows e' l => if e'.val = e then some l else none
    | _ => none)).getD []

/-- Whether an owner has a share on an engine in a configuration (R359, R518). -/
def viewEngineShare (view : List Item) (o : Tag) (e : Nat) : Bool :=
  o == 0 || (viewShares view).any (fun x => x.1 == o && x.2.engines.any (fun y => y.1 == e))

/-- Two windows of a list that overlap. -/
def windowsClash : List Window → Bool
  | [] => false
  | w :: l => l.any (fun v => overlaps w.start w.len v.start v.len) || windowsClash l

/-- A major frame outside its range, or windows that do not fit it (0x9001, R359). -/
def chkFrame (view : List Item) : Option Nat :=
  let f := viewTicks view
  if f < 100 ∨ 10000 < f then some 0
  else (List.range 48).find? (fun e =>
    let l := viewWindows view e
    l.any (fun w => decide (f < w.start + w.len) || !viewEngineShare view w.owner e) || windowsClash l)

/-- A period in µs as check 0x9002 wants it. -/
def periodOk (us : Nat) : Bool := decide (20 ≤ us ∧ us % 10 = 0)

/-- A task period below 20 µs, not a multiple of 10 µs, or that does not fit the second and the frame (0x9002, R362). -/
def taskPeriodBad (s : State) (view : List Item) (c : TaskCfg) : Bool :=
  match c.kind with
  | .periodic p _ =>
    let f := 10 * viewTicks view
    !periodOk p || decide (1000000 < p ∨ 1000000 % p ≠ 0 ∨ (f % p ≠ 0 ∧ p % f ≠ 0))
  | .sample g m _ =>
    let n := (viewGroup view g).rate
    decide (m * 1000000 % (10 * n) ≠ 0 ∨ m * 1000000 < 20 * n)
  | .timed u => (getTcu s u).en && (getTcu s u).periodic && decide ((getTcu s u).period.toNat < usTu 20 ∨ (getTcu s u).period.toNat % usTu 10 ≠ 0)

/-- 0x9002. -/
def chkPeriod (s : State) (view : List Item) : Option Nat :=
  view.findSome? (fun i => match i with
    | .task _ t c => if taskPeriodBad s view c then some t else none
    | _ => none)

/-- The staged settings of a task. -/
def viewTask (view : List Item) (o t : Nat) : Option TaskCfg :=
  view.findSome? (fun i => match i with
    | .task o' t' c => if o' = o ∧ t' = t then some c else none
    | _ => none)

/-- The release points of a periodic task within a frame, in base ticks (R362, R365). -/
def releasePoints (f p φ : Nat) : List Nat := if p < f then (List.range (f / max p 1)).map (fun k => φ + k * p) else [φ]

/-- A task whose cycle length exceeds a window compared with it (0x9003, R365). -/
def taskTooLong (view : List Item) (e o : Nat) (t : TaskEntry) : Bool :=
  let ws := (viewWindows view e).filter (fun w => w.owner == o)
  let long (w : Window) : Bool := decide (w.len * usTu 10 < nsTu (2000 + 8 * t.imports.length + t.wcet))
  match (viewTask view o t.task).map (fun (x : TaskCfg) => x.kind) with
  | none => false
  | some (TaskKind.periodic p φ) => (releasePoints (viewTicks view) (p / 10) (φ / 10)).any (fun x =>
      let l := ws.filter (fun w => decide (w.start ≤ x ∧ x < w.start + w.len))
      l.isEmpty || l.any long)
  | some _ => ws.any long

/-- 0x9003. -/
def chkWcet (view : List Item) : Option Nat :=
  (viewCode view).findSome? (fun c => c.2.engines.findSome? (fun x =>
    (x.tasks.find? (fun t => taskTooLong view x.engine.val c.1 t)).map (·.task)))

/-- The regions of an engine, which do not overlap, reach beyond its code or instance memory (0x9004, R312, R313). -/
def chkEngineSize (view : List Item) : Option Nat :=
  (List.range 48).find? (fun e => (viewEngine view e).any (fun x =>
    decide (8192 < x.2.codeBase + x.2.code.length ∨ 131072 < x.2.dataBase + x.2.data.length)))

/-! ## PS -/

/-- The type of a point in a configuration. -/
def viewType (view : List Item) (i : Nat) : PtType := (((viewPoints view).get? i).map (·.type)).getD .undefined

/-- Forced points whose type changes (0xA001, R402). -/
def chkForced (s : State) (view : List Item) (drop : Bool) : Option Nat :=
  if drop then none else (s.ps.force.find? (fun e => viewType view e.1 != e.2.type)).map (·.1)

/-- Every writer that a configuration has, with the point it writes and its owner (R395). -/
def viewWriters (view : List Item) : List (Nat × PtWriter × Tag) :=
  let opt (p : Option Nat) (w : PtWriter) (o : Tag) : List (Nat × PtWriter × Tag) := match p with
    | some i => [(i, w, o)]
    | none => []
  view.flatMap (fun x => match x with
    | .code o c => c.engines.flatMap (fun e => e.tasks.flatMap (fun t =>
        (List.range t.exports.length).zip t.exports |>.map (fun y => (y.2, PtWriter.task o t.task y.1, o))))
    | .svSub n c => if !c.en then [] else (List.range c.chans.length).zip c.chans |>.flatMap (fun y => opt y.2.point (.sv n y.1) c.owner)
    | .goSub n c => if !c.en then [] else (List.range c.members.length).zip c.members |>.flatMap (fun y => opt y.2.point (.goose n y.1) c.owner)
    | .lane n c => if !c.en then [] else opt c.point (.lane n) (viewOwner view .lane n)
    | .chan n c => if !c.en then [] else [c.ptPhasor, c.ptFreq, c.ptRocof].flatMap (fun p => opt p (.chan n) (viewOwner view .chan n))
    | .pset n c => if !c.en then [] else [c.x1, c.x2, c.x0].flatMap (fun p => opt p (.pset n) (viewOwner view .set_ n))
    | .edge e c => opt c.point (.edge e.val) c.owner
    | .cabinet c => (List.range 2).flatMap (fun g => let y := vget c.seg g {}; if !y.en then [] else
        y.stations.flatMap (fun z => z.inputs.map (fun m => (m.point, PtWriter.cab g z.node, 0))))
    | _ => [])

/-- Every point that a configuration has an owner's resource read (R396). -/
def viewReaders (view : List Item) : List (Nat × Tag) :=
  view.flatMap (fun x => match x with
    | .code o c => c.engines.flatMap (fun e => e.tasks.flatMap (fun t => t.imports.map (fun i => (i, o))))
    | .goPub _ c => if c.en then c.members.map (fun i => (i, c.owner)) else []
    | .recorder r c => if c.en then (c.bins.filter (fun b => b.src.extractLsb' 24 8 == 3)).map (fun b => ((b.src.extractLsb' 0 24).toNat, viewOwner view .rec_ r.val)) else []
    | .stream n c => if c.en then c.pmus.flatMap (fun p => (p.analogs.map (·.point) ++ p.digitals).map (fun i => (i, viewOwner view .stream n))) else []
    | _ => [])

/-- Whether an owner may read point i in a configuration: its own, published to it, or as the platform any (R396, R397). -/
def viewReadable (view : List Item) (o : Tag) (i : Nat) : Bool :=
  o == 0 || viewOwner view .point i == o ||
  view.any (fun x => match x with
    | .pub p => p.owner == viewOwner view .point i && decide (p.first ≤ i ∧ i < p.first + p.count) && p.readers.getLsbD (o - 1)
    | _ => false)

/-- A point with two writers or another owner's writer, or read by an instance to which it is not published (0xA002). -/
def chkWriters (view : List Item) : Option Nat :=
  match (viewWriters view).find? (fun x => (((viewPoints view).get? x.1).map (·.writer)) != some x.2.1 || viewOwner view .point x.1 != x.2.2) with
  | some x => some x.1
  | none => ((viewReaders view).find? (fun x => !viewReadable view x.2 x.1)).map (·.1)

/-- A point index beyond 0x4F_FFFF (0xA003). -/
def chkPointIndex (view : List Item) : Option Nat :=
  view.findSome? (fun i => match i with
    | .point n _ => if 0x500000 ≤ n then some n else none
    | _ => none)

/-- The largest of a list. -/
def maxOf (l : List Nat) : Nat := l.foldl max 0

/-- The largest batches of the sources under a configuration: engines, SE groups, and all the others together (R398). -/
def viewBatches (view : List Item) : List (Nat × Nat) × List (Nat × Nat) × Nat :=
  let eng := (List.range 48).map (fun e => (e, maxOf ((viewEngine view e).flatMap (fun x => x.2.tasks.map (fun t => t.exports.length)))))
  let grp := (List.range 16).map (fun g => (g, (view.map (fun i => match i with
    | .svSub _ c => if c.en ∧ c.group.val = g then (c.chans.filter (fun x => x.point.isSome)).length else 0
    | _ => 0)).sum))
  let goose := maxOf (view.map (fun i => match i with
    | .goSub _ c => if c.en then (c.members.filter (fun x => x.point.isSome)).length else 0
    | _ => 0))
  let seg (g : Nat) : Nat := maxOf ((vget (viewCab view).seg g {}).stations.map (fun x => x.inputs.length))
  (eng, grp, goose + seg 0 + seg 1 + 1 + 1 + 3 + 64)

/-- The longest wait exceeds T_PSW, or an SE group's batch takes more than 4 µs (0xA004, R398). -/
def chkWait (view : List Item) : Option Nat :=
  let (eng, grp, rest) := viewBatches view
  let total := (eng.map (·.2)).sum + (grp.map (·.2)).sum + rest
  let tPsw := (view.findSome? (fun i => match i with
    | .tPsw us => some us
    | _ => none)).getD 16
  match eng.find? (fun e => 0 < e.2 && decide (1000 * tPsw < 4 * (total - e.2))) with
  | some e => some e.1
  | none => (grp.find? (fun g => 0 < g.2 && decide (4000 < 4 * total))).map (·.1)

/-! ## KV, IM, FO, PA -/

/-- The key slots that a configuration names, each with the DEST bits of which one must be set (R203, R489). -/
def viewKeys (view : List Item) : List (Nat × BitVec 32) :=
  let f (l : List (Option Nat)) (d : BitVec 32) : List (Nat × BitVec 32) := l.filterMap (fun k => k.map (fun n => (n, d)))
  view.flatMap (fun i => match i with
    | .svSub _ c => if c.en then f [c.keyCur, c.keyNext] 0x4 else []
    | .goSub _ c => if c.en then f [c.keyCur, c.keyNext] 0xC else []
    | _ => [])

/-- A referenced key slot that is empty or revoked (0xC001). -/
def chkKeys (s : State) (view : List Item) : Option Nat :=
  ((viewKeys view).find? (fun k => (s.kv.slot.getD k.1 {}).state != .valid)).map (·.1)

/-- A referenced key that its engine may not use (0xC002). -/
def chkKeyDest (s : State) (view : List Item) : Option Nat :=
  ((viewKeys view).find? (fun k => (s.kv.slot.getD k.1 {}).state == .valid && (s.kv.slot.getD k.1 {}).dest &&& k.2 == 0)).map (·.1)

/-- Some number in both lists. -/
def meets (a b : List Nat) : Bool := a.any (fun x => b.contains x)

/-- Two instances' shares that overlap in an exclusive resource (R518). -/
def sharesMeet (a b : SharesCfg) : Bool :=
  meets a.dram b.dram || meets (a.engines.map (·.1)) (b.engines.map (·.1)) || meets a.queues b.queues || a.ports &&& b.ports != 0 ||
  a.ranges.any (fun x => b.ranges.any (fun y => x.1 == y.1 && overlaps x.2.1 x.2.2 y.2.1 y.2.2)) ||
  a.kvSlots.any (fun x => b.kvSlots.contains x) || meets a.tcus b.tcus || meets a.dmaSlots b.dmaSlots

/-- Overlapping shares (0xD001). -/
def chkShares (view : List Item) : Option Nat :=
  let l := viewShares view
  (l.find? (fun e => l.any (fun f => f.1 < e.1 && sharesMeet f.2 e.2))).map (·.1)

/-- The owners that an item names. -/
def itemNames : Item → List Tag
  | .tcuAssign a => [a.owner]
  | .svSub _ c => [c.owner]
  | .goSub _ c => [c.owner]
  | .goPub _ c => [c.owner]
  | .code o _ => [o]
  | .windows _ l => l.map (·.owner)
  | .task o _ _ => [o]
  | .ownerCfg o _ => [o]
  | .retain o _ _ => [o]
  | .repl o _ => [o]
  | .pub c => [c.owner]
  | .wsl _ c => [c.owner]
  | .edge _ c => [c.owner]
  | .shares i c => if c.present then [i] else []
  | _ => []

/-- An instance number outside 1–64, or of an instance not created (0xD002). -/
def chkInstances (view : List Item) : Option Nat :=
  let made := (viewShares view).map (·.1)
  view.findSome? (fun i => (itemNames i).find? (fun o => o != 0 && (decide (64 < o) || !made.contains o))) <|>
  view.findSome? (fun i => match i with
    | .shares 0 _ => some 0
    | _ => none)

/-- PRIO 0x00, or the partner's (0xE001, R410). -/
def chkPrio (s : State) (view : List Item) : Option Nat :=
  view.findSome? (fun i => match i with
    | .pair c => if c.prio = 0 ∨ (s.fo.partner ≠ .unknown ∧ c.prio = s.fo.hb.claim.extractLsb' 0 8) then some 0 else none
    | _ => none)

/-- A LOCKED domain that the configuration uses (0xF001, R537). -/
def chkLocked (s : State) (view : List Item) : Option Nat :=
  ((List.range 7).map (· + 2)).find? (fun n =>
    let d := vget s.pa.pd n {}
    ((viewDomain view n).mode == .locked || ((viewDomain view n).mode == d.staged && d.mode == .locked)) && domainUsed view n)

/-! ## The command -/

/-- A check that failed, as the report holds it. -/
def failing (code : BitVec 16) (r : Option Nat) : List CheckFail :=
  match r with
  | some i => [{ subsys := code.toNat / 4096, code := code, index := i }]
  | none => []

/-- Every check of R83 in ascending code. -/
def allChecks (s : State) (o : Tag) (drop : Bool) (view : List Item) : List CheckFail :=
  failing 0x0001 (chkStagedTwice s o) ++
  (chkConditions s o view).flatMap (fun e => (failing 0x0002 e.2).map (fun f => { f with opcode := e.1 })) ++
  failing 0x1001 (chkPtp view) ++ failing 0x1002 (chkThresholds view) ++ failing 0x1003 (chkUnits view) ++
  failing 0x2001 (chkMaxFrame view) ++ failing 0x2002 (chkEntries view) ++ failing 0x2003 (chkMacsec view) ++ failing 0x2004 (chkPhy view) ++
  failing 0x3001 (chkCells view) ++ failing 0x3002 (chkEcn view) ++ failing 0x4001 (chkQueueShares view) ++
  failing 0x5001 (chkStreams view) ++ failing 0x5002 (chkTolerance view) ++ failing 0x5003 (chkBlocks view) ++
  failing 0x6001 (chkLaneRate view) ++ failing 0x6002 (chkLane view) ++ failing 0x7001 (chkChanLane view) ++ failing 0x7002 (chkChan view) ++
  failing 0x8001 (chkRecorders view) ++ failing 0x8002 (chkHoldOff view) ++
  failing 0x9001 (chkFrame view) ++ failing 0x9002 (chkPeriod s view) ++ failing 0x9003 (chkWcet view) ++ failing 0x9004 (chkEngineSize view) ++
  failing 0xA001 (chkForced s view drop) ++ failing 0xA002 (chkWriters view) ++ failing 0xA003 (chkPointIndex view) ++ failing 0xA004 (chkWait view) ++
  failing 0xC001 (chkKeys s view) ++ failing 0xC002 (chkKeyDest s view) ++ failing 0xD001 (chkShares view) ++ failing 0xD002 (chkInstances view) ++
  failing 0xE001 (chkPrio s view) ++ failing 0xF001 (chkLocked s view)

/-- The configuration that would be in force after the commit (R82). -/
def checkView (s : State) (x : Session) : List Item :=
  nextBank s x.staged (s.su.active.filter (fun i => x.replace.contains (itemSection s i) && !x.staged.any (sameKey i)))

/-- SU_STAGE_CHECK (R80, R82, R83, R633): the session becomes CHECKED, or OPEN with its failing checks kept. -/
def execSuStageCheck (c : Cmd) (drop : Bool) (s : State) : Res :=
  command 0x0011 true c s fun s =>
    let o := issuer c
    let x := getSession s o
    if x.state = .closed ∨ x.state = .armed then (s, some (suSt .notReady))
    else
      match allChecks s o drop (checkView s x) with
      | [] => (putSession s o { x with state := .checked, checkRun := true, failing := [], dropForces := drop }, some (suSt .ok))
      | f :: l =>
        (onGlob (fun g => { g with checkFail := true })
          (putSession s o { x with state := .opened, checkRun := true, failing := f :: l, dropForces := false }),
         some { status := .checkFailed, detail := f.code, subsys := some (Fin.ofNat 16 f.subsys), r0 := BitVec.ofNat 64 f.index,
                r1 := BitVec.ofNat 64 (l.length + 1) })

end Sys2Proof.Machine
end

