-- ==== Sys2Proof/Machine/TahrFault.lean ====
section
/-! DEFINITION. The two faults that belong to no instruction of their own: an illegal word, and a fetch that fails (R323, R328). -/

namespace Sys2Proof.Machine

/-- The fields that the format of an opcode requires to be 0 (R322, R323). -/
def opZero (op : Nat) : BitVec 64 :=
  if op = 0x1B ∨ op = 0x25 then zI
  else if op = 0x74 ∨ op = 0x75 then zB
  else if 0x71 ≤ op ∧ op ≤ 0x78 then 0
  else if op = 0x63 then zA ||| zB ||| 0xFFFF0000
  else if op = 0x64 then zA ||| 0xFFFF0000
  else if 0x60 ≤ op ∧ op ≤ 0x62 then zA ||| zB ||| zC ||| 0xFFFF0000
  else if op = 0x79 then zD ||| zB ||| zC ||| 0xFFFFFFFE
  else if op = 0x7A then zD ||| zA ||| zB ||| zC ||| 0xFFFF0000
  else if op = 0x80 then zD ||| zA ||| zB ||| zC
  else if 0x81 ≤ op ∧ op ≤ 0x85 then zD ||| zC
  else if op = 0x86 then zD ||| zB ||| zC
  else if op = 0x87 then zD ||| zB ||| zC ||| 0xFFFFE000
  else if 0x88 ≤ op ∧ op ≤ 0x8A then zD ||| zA ||| zB ||| zC ||| zI
  else if op = 0x13 ∨ op = 0x34 ∨ op = 0x70 then zA ||| zB ||| zC
  else if 0x10 ≤ op ∧ op ≤ 0x12 then zB ||| zC ||| 0xFFFFFFC0
  else if op = 0x03 ∨ (0x0A ≤ op ∧ op ≤ 0x0C) ∨ op = 0x14 ∨ (0x50 ≤ op ∧ op ≤ 0x56) then zB ||| zC
  else if op = 0x1C ∨ op = 0x24 ∨ op = 0x26 ∨ op = 0x27 ∨ op = 0x31 ∨ op = 0x32 then zB ||| zC ||| zI
  else zC ||| zI

/-- A word that no format admits (R323). -/
def wordIllegal (w : BitVec 64) : Bool := opReserved (wOp w) || w &&& opZero (wOp w) != 0

/-- ILLEGAL (R323): the engine has reached a word with a reserved opcode or a field that must be 0 and is not. -/
def execIllegal (x : TahrOp) (s : State) : Res :=
  let eng := getEng s x.e.val
  match eng.cycle with
  | none => .next s
  | some cyc =>
    let w := eng.code.getD cyc.pc 0
    if (regionOf eng cyc.owner).any (fun r => inCode r cyc.pc) && wordIllegal w then
      tahr (wOp w) (opZero (wOp w)) x (fun _ _ _ _ _ _ => .fault fIllegal 0) s
    else .next s

/-- ACCESS_AT_FETCH (R328, R348): the engine has run off its owner's code region, or the code word fetched is uncorrectable. -/
def execAccessAtFetch (x : TahrOp) (s : State) : Res :=
  let eng := getEng s x.e.val
  match eng.cycle with
  | none => .next s
  | some cyc =>
    let bad : Bool := match x.finding with
      | .uncorrectable .code _ => true
      | _ => false
    if bad || !(regionOf eng cyc.owner).any (fun r => inCode r cyc.pc) then
      tahr 0 0 x (fun _ _ _ _ _ _ => .fault fAccess 0) s
    else .next s

end Sys2Proof.Machine
end

