-- ==== Sys2Proof/Machine/TahrFloat.lean ====
section
/-! DEFINITION. The floating-point and complex instructions of the Tahr engines (R325, R326). -/

namespace Sys2Proof.Machine

/-- A floating-point result with the FLAGS bits of its exceptions. -/
def flt (r : F64R) : BitVec 64 × BitVec 64 := (r.1, r.2.bits)

/-- FADD. -/
def execTahrFadd (x : TahrOp) (s : State) : Res := tahrBin 0x20 (zC ||| zI) 4 x (fun a b => flt (fadd a b)) s

/-- FSUB. -/
def execTahrFsub (x : TahrOp) (s : State) : Res := tahrBin 0x21 (zC ||| zI) 4 x (fun a b => flt (fsub a b)) s

/-- FMUL. -/
def execTahrFmul (x : TahrOp) (s : State) : Res := tahrBin 0x22 (zC ||| zI) 4 x (fun a b => flt (fmul a b)) s

/-- FDIV. -/
def execTahrFdiv (x : TahrOp) (s : State) : Res := tahrBin 0x23 (zC ||| zI) 24 x (fun a b => flt (fdiv a b)) s

/-- FSQRT; B is 0. -/
def execTahrFsqrt (x : TahrOp) (s : State) : Res := tahrBin 0x24 (zB ||| zC ||| zI) 28 x (fun a _ => flt (fsqrt a)) s

/-- FMADD: A × B + C, rounded once. -/
def execTahrFmadd (x : TahrOp) (s : State) : Res :=
  tahrSet 0x25 zI 5 x (fun eng _ w => flt (fmadd (rdV eng (wA w)) (rdV eng (wB w)) (rdV eng (wC w)))) s

/-- FNEG; B is 0. -/
def execTahrFneg (x : TahrOp) (s : State) : Res := tahrBin 0x26 (zB ||| zC ||| zI) 1 x (fun a _ => (fneg a, 0)) s

/-- FABS; B is 0. -/
def execTahrFabs (x : TahrOp) (s : State) : Res := tahrBin 0x27 (zB ||| zC ||| zI) 1 x (fun a _ => (fabs a, 0)) s

/-- FMIN. -/
def execTahrFmin (x : TahrOp) (s : State) : Res := tahrBin 0x28 (zC ||| zI) 2 x (fun a b => flt (minMax true a b)) s

/-- FMAX. -/
def execTahrFmax (x : TahrOp) (s : State) : Res := tahrBin 0x29 (zC ||| zI) 2 x (fun a b => flt (minMax false a b)) s

/-- FCMPEQ. -/
def execTahrFcmpeq (x : TahrOp) (s : State) : Res := tahrBin 0x2A (zC ||| zI) 2 x (fun a b => flt (fpCompare .eq a b)) s

/-- FCMPLT. -/
def execTahrFcmplt (x : TahrOp) (s : State) : Res := tahrBin 0x2B (zC ||| zI) 2 x (fun a b => flt (fpCompare .lt a b)) s

/-- FCMPLE. -/
def execTahrFcmple (x : TahrOp) (s : State) : Res := tahrBin 0x2C (zC ||| zI) 2 x (fun a b => flt (fpCompare .le a b)) s

/-- CVTIF. -/
def execTahrCvtif (x : TahrOp) (s : State) : Res := tahrBin 0x2D (zC ||| zI) 3 x (fun a _ => flt (intToF64 a)) s

/-- CVTFI. -/
def execTahrCvtfi (x : TahrOp) (s : State) : Res := tahrBin 0x2E (zC ||| zI) 3 x (fun a _ => flt (f64ToInt a)) s

/-- CVTSD. -/
def execTahrCvtsd (x : TahrOp) (s : State) : Res := tahrBin 0x2F (zC ||| zI) 2 x (fun a _ => flt (f32ToF64 (a.truncate 32))) s

/-- CVTDS. -/
def execTahrCvtds (x : TahrOp) (s : State) : Res :=
  tahrBin 0x30 (zC ||| zI) 2 x (fun a _ => let r := f64ToF32 a; (r.1.zeroExtend 64, r.2.bits)) s

/-- FSIN; B is 0. -/
def execTahrFsin (x : TahrOp) (s : State) : Res := tahrBin 0x31 (zB ||| zC ||| zI) 40 x (fun a _ => flt (fsin a)) s

/-- FCOS; B is 0. -/
def execTahrFcos (x : TahrOp) (s : State) : Res := tahrBin 0x32 (zB ||| zC ||| zI) 40 x (fun a _ => flt (fcos a)) s

/-- FATAN2. -/
def execTahrFatan2 (x : TahrOp) (s : State) : Res := tahrBin 0x33 (zC ||| zI) 40 x (fun a b => flt (fatan2 a b)) s

/-- FLDI: binary32 IMM as binary64; A is 0. -/
def execTahrFldi (x : TahrOp) (s : State) : Res :=
  tahrSet 0x34 (zA ||| zB ||| zC) 1 x (fun _ _ w => flt (f32ToF64 (wImm w))) s

/-! ## Complex -/

/-- CADD. -/
def execTahrCadd (x : TahrOp) (s : State) : Res := tahrBin 0x40 (zC ||| zI) 2 x (fun a b => flt (cadd a b)) s

/-- CSUB. -/
def execTahrCsub (x : TahrOp) (s : State) : Res := tahrBin 0x41 (zC ||| zI) 2 x (fun a b => flt (csub a b)) s

/-- CMUL. -/
def execTahrCmul (x : TahrOp) (s : State) : Res := tahrBin 0x42 (zC ||| zI) 6 x (fun a b => flt (cmul a b)) s

/-- CDIV. -/
def execTahrCdiv (x : TahrOp) (s : State) : Res := tahrBin 0x43 (zC ||| zI) 30 x (fun a b => flt (cdiv a b)) s

/-- CCONJ. -/
def execTahrCconj (x : TahrOp) (s : State) : Res := tahrBin 0x44 (zC ||| zI) 1 x (fun a _ => (cconj a, 0)) s

/-- CMAG. -/
def execTahrCmag (x : TahrOp) (s : State) : Res := tahrBin 0x45 (zC ||| zI) 10 x (fun a _ => flt (cmag a)) s

/-- CARG; of 0 it is 0. -/
def execTahrCarg (x : TahrOp) (s : State) : Res := tahrBin 0x46 (zC ||| zI) 40 x (fun a _ => flt (carg a)) s

/-- CMK. -/
def execTahrCmk (x : TahrOp) (s : State) : Res := tahrBin 0x47 (zC ||| zI) 3 x (fun a b => flt (cpack (a, {}) (b, {}))) s

/-- CRE. -/
def execTahrCre (x : TahrOp) (s : State) : Res := tahrBin 0x48 (zC ||| zI) 2 x (fun a _ => flt (cre a)) s

/-- CIM. -/
def execTahrCim (x : TahrOp) (s : State) : Res := tahrBin 0x49 (zC ||| zI) 2 x (fun a _ => flt (cim a)) s

/-- CSCL. -/
def execTahrCscl (x : TahrOp) (s : State) : Res := tahrBin 0x4A (zC ||| zI) 4 x (fun a b => flt (cscl a b)) s

/-- CPOL. -/
def execTahrCpol (x : TahrOp) (s : State) : Res := tahrBin 0x4B (zC ||| zI) 44 x (fun a b => flt (cpol a b)) s

/-- CROT. -/
def execTahrCrot (x : TahrOp) (s : State) : Res := tahrBin 0x4C (zC ||| zI) 44 x (fun a b => flt (crot a b)) s

end Sys2Proof.Machine
end

