-- ==== Sys2Proof/Machine/Vault.lean ====
section
/-! DEFINITION. Meanings of the Key Vault's commands (chapter 16). -/

namespace Sys2Proof.Machine

/-! ## Keys enter a slot (R486) -/

/-- A command that creates a key at once: its refusals, then material and auxiliary data from a body that may refuse too. -/
def createKey (op : BitVec 16) (c : Cmd) (k : KvNew) (plain : Bool) (s : State)
    (body : KeyType → BitVec 32 → State → State × Except Status (List Byte × List Byte)) : State × Option ReplyBody :=
  match newKey c k s with
  | .error e => (s, some (st e))
  | .ok (t, lv, d) =>
    match body t d s with
    | (s, .error e) => (s, some (st e))
    | (s, .ok (m, aux)) => if keyLenOk t m.length then (enterKey c op k t lv d plain m aux s, some (st .ok)) else (s, some (st .badParam))

/-- R486: a public key for package signatures is taken in MANUFACTURE, and in FIELD with a signature by a slot that holds PKG_VERIFY. -/
def vouched (c : Cmd) (m : List Byte) (v : Option (Nat × List Byte)) (s : State) : Bool :=
  lifeCode s == 1 || (lifeCode s == 2 && (match v with
    | some (n, sig) =>
      let x := getSlot s n
      useRefusal c n 10 s == none && isPub x.type && Config.ecdsaVerify (is384 x.type) x.material (curveHash (is384 x.type) m) sig
    | none => false))

/-- KV_KEY_LOAD (R486, R492, R493). -/
def execKvKeyLoad (c : Cmd) (k : KvNew) (material aux : List Byte) (vouch : Option (Nat × List Byte)) (s : State) : Res :=
  kvCommand 0x0C10 ((k.type.map isPub).getD false) c s fun s => createKey 0x0C10 c k true s fun t d s =>
    if d.getLsbD 10 && !vouched c material vouch s then (s, .error .denied)
    else if aux ≠ [] ∧ ¬(isAes t ∧ aux.length = 16) then (s, .error .badParam)
    else (s, .ok (material, aux))

/-- KV_KEY_GENERATE (R486, R499, R501): the public point of a private key is computed in the issuer's ECC slots, and the key enters its slot as
that ends. -/
def execKvKeyGenerate (c : Cmd) (k : KvNew) (s : State) : Res :=
  kvCommand 0x0C11 false c s fun s =>
    let k := { k with compat := false }
    if s.kv.trngFail then (s, some (st .notReady)) else
    match newKey c k s with
    | .error e => (s, some (st e))
    | .ok (t, lv, d) =>
      if isPub t ∨ !keyLenOk t (keyLen t k.len) then (s, some (st .badParam)) else
      let (l, s) := randomBytes (keyLen t k.len) s
      if isPriv t then request c 0x0C11 [(.ecc, if is384 t then 3 else 1)] [] (.generate k l) s
      else (enterKey c 0x0C11 k t lv d false l [] s, some (st .ok))

/-- The parent of a derived, unwrapped or agreed key, as its material's source (R486). -/
def materialParent (c : Cmd) (p : BitVec 11) (b : Nat) (types : KeyType → Bool) (s : State) : Except Status KeySlot :=
  if p = 0x400 then .error .badParam else
  match useRefusal c p.toNat b s with
  | some e => .error e
  | none => if types (getSlot s p.toNat).type then .ok (getSlot s p.toNat) else .error .badParam

/-- DENIED set where a parent's DEST is what a command fails on (R505). -/
def parentDenied (c : Cmd) (p : BitVec 11) (e : Status) (s : State) : State := (refuse c p.toNat e s).1

/-- KV_KEY_DERIVE (R486, R487). -/
def execKvKeyDerive (c : Cmd) (k : KvNew) (q : KvKdf) (s : State) : Res :=
  kvCommand 0x0C12 false c s fun s => createKey 0x0C12 c { k with compat := false } false s fun t _ s =>
    if isPub t ∨ !kdfOk q then (s, .error .badParam) else
    match materialParent c k.parent 4 (fun x => isAes x || isMac x) s with
    | .error e => (parentDenied c k.parent e s, .error e)
    | .ok x => (s, .ok (kdf x.material q.label q.context (keyLen t k.len), []))

/-- R488: why a blob is malformed, else its type. -/
def blobType (b : KvBlob) : Option KeyType :=
  match keyOfCode b.type.toNat with
  | none => none
  | some t =>
    if b.version = 1 ∧ b.rsv = 0 ∧ keyLenOk t b.len.toNat ∧ ¬isPub t ∧
       (b.text.length = b.len.toNat ∨ (isAes t ∧ b.text.length = b.len.toNat + 16)) then some t else none

/-- KV_KEY_UNWRAP (R486, R488, R492): TYPE and KEY_ID are the blob's. -/
def execKvKeyUnwrap (c : Cmd) (k : KvNew) (b : KvBlob) (s : State) : Res :=
  kvCommand 0x0C13 false c s fun s =>
    match blobType b with
    | none => (s, some (st .badParam))
    | some t => createKey 0x0C13 c { k with type := some t, keyId := b.keyId } false s fun _ d s =>
      if d &&& ~~~b.destLimit ≠ 0 then (s, .error .denied) else
      match materialParent c k.parent 6 (· == .aes256) s with
      | .error e => (parentDenied c k.parent e s, .error e)
      | .ok x =>
        match gcmOpen x.material b.iv (blobHeader b) b.text b.tag with
        | none => (s, .error .badParam)
        | some m => (s, .ok (m.take b.len.toNat, m.drop b.len.toNat))

/-- KV_KEY_AGREE (R486, R487, R499): the ECDH runs in the issuer's ECC slots, and the key enters its slot as it ends. -/
def execKvKeyAgree (c : Cmd) (k : KvNew) (peer : List Byte) (q : KvKdf) (s : State) : Res :=
  kvCommand 0x0C14 false c s fun s =>
    let k := { k with compat := false }
    match newKey c k s with
    | .error e => (s, some (st e))
    | .ok (t, _, _) =>
      if isPub t ∨ !kdfOk q ∨ !keyLenOk t (keyLen t k.len) then (s, some (st .badParam)) else
      match materialParent c k.parent 9 isPriv s with
      | .error e => refuse c k.parent.toNat e s
      | .ok x =>
        if peer.length ≠ (if is384 x.type then 96 else 64) then (s, some (st .badParam))
        else request c 0x0C14 [(.ecc, if is384 x.type then 3 else 1)] [k.parent.toNat] (.agree k peer q) s

/-! ## Other key commands (R488, R491, R495, R497, R508) -/

/-- KV_KEY_WRAP (R488). -/
def execKvKeyWrap (c : Cmd) (slot parent : Nat) (s : State) : Res :=
  kvCommand 0x0C15 false c s fun s =>
    match slotRefusal c slot s with
    | some e => (s, some (st e))
    | none =>
      let x := getSlot s slot
      if x.state = .empty then (s, some (st .badParam))
      else if x.state ≠ .valid then (s, some (st .keyRevoked))
      else if !x.exportable then (s, some (st .denied)) else
      match useRefusal c parent 5 s with
      | some e => refuse c parent e s
      | none =>
        let p := getSlot s parent
        if p.type ≠ .aes256 then (s, some (st .badParam)) else
        let (iv, s) := draw s
        let b : KvBlob := { version := 1, type := BitVec.ofNat 8 (keyCode x.type), len := BitVec.ofNat 16 x.material.length
                            destLimit := x.dest, keyId := x.keyId, iv := BitVec.ofNat 96 iv }
        let r := gcmSeal p.material b.iv (blobHeader b) (x.material ++ x.aux)
        let l := blobBytes { b with text := r.1, tag := r.2 }
        (s, some { status := .ok, r0 := BitVec.ofNat 64 l.length, buf := .bytes l })

/-- KV_KEY_PUBLIC (R499, R508): a public key at once, a private key's point in the issuer's ECC slots. -/
def execKvKeyPublic (c : Cmd) (slot : Nat) (s : State) : Res :=
  kvCommand 0x0C16 false c s fun s =>
    match slotRefusal c slot s with
    | some e => (s, some (st e))
    | none =>
      let x := getSlot s slot
      if x.state = .revoked ∨ x.state = .corrupt then (s, some (st .keyRevoked))
      else if isPub x.type then (s, some { status := .ok, r0 := BitVec.ofNat 64 x.material.length, buf := .bytes x.material })
      else if isPriv x.type then request c 0x0C16 [(.ecc, if is384 x.type then 3 else 1)] [slot] (.pub slot) s
      else (s, some (st .badParam))

/-- KV_KEY_RESTRICT (R491): the other copy is written with GEN + 1, as R493 has it (log 149). -/
def execKvKeyRestrict (c : Cmd) (slot : Nat) (clear : BitVec 32) (s : State) : Res :=
  kvCommand 0x0C17 false c s fun s =>
    match slotRefusal c slot s with
    | some e => (s, some (st e))
    | none =>
      let x := getSlot s slot
      if x.state = .empty then (s, some (st .badParam))
      else if x.state ≠ .valid then (s, some (st .keyRevoked))
      else if logFull s then (s, some (st .logFull))
      else
        let y := { x with dest := x.dest &&& ~~~clear, gen := x.gen + 1, curB := !x.curB }
        (logCommand (issuer c) 0x0C17 0 slot (writeSlot slot y (putSlot slot y s)), some (st .ok))

/-- One part over slot base + n: refused by its share, STALE where the slot is empty, LOG_FULL, else its action with the number of keys revoked
(R495, R497). -/
def partRevoke (op : BitVec 16) (c : Cmd) (base : Nat) (part : Nat → State → State × Nat) (n : Nat) (s : State) : State × Status × List Byte :=
  match slotRefusal c (base + n) s with
  | some e => (s, e, [])
  | none =>
    if (getSlot s (base + n)).state = .empty then (s, .stale, [])
    else if logFull s then (s, .logFull, [])
    else
      let r := part (base + n) s
      (logCommand (issuer c) op 0 (base + n + r.2 * 65536) r.1, .ok, bytesLE 4 r.2)

/-- The reply over the parts: their numbers of revoked keys are added up in RESULT0 (R495). -/
def revokeReply (b : ReplyBody) : ReplyBody :=
  let total := match b.buf with
    | .bytes l => ((List.range (l.length / 4)).map (fun i => ofBytesLE ((l.drop (4 * i)).take 4))).sum
    | _ => 0
  { b with r0 := if b.status = .ok then BitVec.ofNat 64 total else b.r0, buf := .none }

/-- A multi-part command over slots base + n (R495, R497). -/
def revokeParts (op : BitVec 16) (c : Cmd) (base : Nat) (mask : BitVec 64) (part : Nat → State → State × Nat) (s : State) : Res :=
  kvCommand op false c s fun s =>
    let r := multipart mask (partRevoke op c base part) s
    (r.1, some (revokeReply r.2))

/-- KV_KEY_REVOKE (R495, R496). -/
def execKvKeyRevoke (c : Cmd) (base : Nat) (mask : BitVec 64) (s : State) : Res := revokeParts 0x0C18 c base mask revokeTree s

/-- KV_KEY_ERASE (R497). -/
def execKvKeyErase (c : Cmd) (base : Nat) (mask : BitVec 64) (s : State) : Res := revokeParts 0x0C19 c base mask eraseTree s

/-- KV_KEY_INFO (R508). -/
def execKvKeyInfo (c : Cmd) (slot : Nat) (s : State) : Res :=
  kvCommand 0x0C1A false c s fun s =>
    match slotRefusal c slot s with
    | some e => (s, some (st e))
    | none => (s, some { status := .ok, buf := .bytes (slotBytes (getSlot s slot)) })

/-! ## Requests in the shared engines (R498–R501) -/

/-- KV_GCM (R500). -/
def execKvGcm (c : Cmd) (q : KvGcm) (s : State) : Res :=
  kvCommand 0x0C20 false c s fun s =>
    if 65535 < q.aad.length ∨ 16777216 < q.text.length then (s, some (st .badParam)) else
    match useRefusal c q.slot (if q.seals then 0 else 1) s with
    | some e => refuse c q.slot e s
    | none =>
      let l := gcmEngines s (issuer c)
      if l = [] then (s, some (st .quota)) else
      let (n, s) := draw s
      request c 0x0C20 [(l.getD (n % l.length) (.gcm 0), gcmSlots q.text.length)] [q.slot] (.gcm q) s

/-- KV_HMAC (R500, R508). -/
def execKvHmac (c : Cmd) (slot : Nat) (sha384 : Bool) (verify : Option (List Byte)) (msg : List Byte) (s : State) : Res :=
  kvCommand 0x0C21 false c s fun s =>
    if 16777216 < msg.length then (s, some (st .badParam)) else
    match useRefusal c slot 3 s with
    | some e => refuse c slot e s
    | none => request c 0x0C21 [(.hmac, hashSlots msg.length)] [slot] (.hmac slot sha384 verify msg) s

/-- KV_HASH (R500, R508). -/
def execKvHash (c : Cmd) (sha384 : Bool) (msg : List Byte) (s : State) : Res :=
  kvCommand 0x0C22 false c s fun s =>
    if 16777216 < msg.length then (s, some (st .badParam))
    else request c 0x0C22 [(.hmac, hashSlots msg.length)] [] (.hash sha384 msg) s

/-- The engines an ECDSA operation passes: a message is hashed first (R499). -/
def ecStages (hashed : Bool) (n slots : Nat) : List (KvEngine × Nat) := (if hashed then [] else [(.hmac, hashSlots n)]) ++ [(.ecc, slots)]

/-- The data of an ECDSA operation: a message, or a hash of the curve's length (R499). -/
def ecDataOk (p384 hashed : Bool) (m : List Byte) : Bool :=
  if hashed then m.length == (if p384 then 48 else 32) else decide (m.length ≤ 16777216)

/-- KV_SIGN (R499, R501). -/
def execKvSign (c : Cmd) (slot : Nat) (hashed : Bool) (data : List Byte) (s : State) : Res :=
  kvCommand 0x0C23 false c s fun s =>
    if s.kv.trngFail then (s, some (st .notReady)) else
    match useRefusal c slot 7 s with
    | some e => refuse c slot e s
    | none =>
      let p := is384 (getSlot s slot).type
      if !ecDataOk p hashed data then (s, some (st .badParam))
      else request c 0x0C23 (ecStages hashed data.length (if p then 3 else 1)) [slot] (.sign slot hashed data) s

/-- KV_VERIFY (R499). -/
def execKvVerify (c : Cmd) (slot : Nat) (hashed : Bool) (data sig : List Byte) (s : State) : Res :=
  kvCommand 0x0C24 false c s fun s =>
    match useRefusal c slot 8 s with
    | some e => refuse c slot e s
    | none =>
      let p := is384 (getSlot s slot).type
      if !ecDataOk p hashed data ∨ sig.length ≠ (if p then 96 else 64) then (s, some (st .badParam))
      else request c 0x0C24 (ecStages hashed data.length (if p then 5 else 2)) [slot] (.verify slot hashed data sig) s

/-- KV_RANDOM (R501). -/
def execKvRandom (c : Cmd) (n : Nat) (s : State) : Res :=
  kvCommand 0x0C25 false c s fun s =>
    if n = 0 ∨ 4096 < n then (s, some (st .badParam))
    else if s.kv.trngFail then (s, some (st .notReady))
    else
      let (l, s) := randomBytes n s
      (s, some { status := .ok, buf := .bytes l })

/-- ENTROPY_HEALTH_FAIL (R501). -/
def execEntropyHealthFail (s : State) : Res :=
  if !s.kv.ready then .next s
  else .next (raise 0x62 0 (onKv (fun k => { k with trngFail := true, trngEvt := true, trngGood := 0 }) s))

/-- ENTROPY_RECOVERED (R501): 1,024 consecutive samples have passed. -/
def execEntropyRecovered (s : State) : Res := .next (onKv (fun k => { k with trngFail := false, trngGood := 1024 }) s)

/-! ## Life cycle and firmware (R479, R480, R504) -/

/-- An authorisation of the move to RETURN: SERIAL and a signature over SERIAL and "RETURN" by a firmware-signing key that is not revoked
(R479). -/
def returnAuth (s : State) (auth : List Byte) : Bool :=
  let serial := bytesLE 8 s.glob.serial.toNat
  auth.length == 104 && auth.take 8 == serial &&
  (List.range 4).any (fun k => !s.kv.fwRevoke.getLsbD k && Config.ecdsaVerify true (bytesBE 96 (Config.fwKey k).toNat)
    (curveHash true (serial ++ [0x52, 0x45, 0x54, 0x55, 0x52, 0x4E])) (auth.drop 8))

/-- R479: a transition the command may make: the next state with its authorisation, or SCRAP. -/
def lifeMove (s : State) (target : Nat) (auth : List Byte) : Bool :=
  let now := lifeCode s
  if now = 4 then false
  else if target = 4 then true
  else if target ≠ now + 1 then false
  else if now = 2 then returnAuth s auth
  else true

/-- KV_LC_ADVANCE (R479, R480): record, fuses, LC_SEEN, erasure, then the reset of the device; the command gets no reply. -/
def execKvLcAdvance (c : Cmd) (target : Nat) (auth : List Byte) (s : State) : Res :=
  command 0x0C30 false c s fun s =>
    if !lifeMove s target auth then (s, some (st .denied))
    else if logFull s then (s, some (st .logFull))
    else
      let s := writePending (logCommand 0 0x0C30 2 (lifeCode s + 256 * target) s)
      let s := onKv (fun k => { k with
        lcPairs := k.lcPairs ||| (3#6 <<< (2 * (target - 2))), lcSeen := BitVec.ofNat 8 target, mram := [], slot := [], journal := none }) s
      let s := poweredDown false s
      (onPa (fun p => { p with coldStart := false }) s, none)

/-- KV_FW_SVN_RAISE (R504). -/
def execKvFwSvnRaise (c : Cmd) (s : State) : Res :=
  command 0x0C31 false c s fun s =>
    if s.kv.otherSvn < s.kv.svn.toNat then (s, some (st .badParam))
    else if logFull s then (s, some (st .logFull))
    else (logCommand 0 0x0C31 0 0 (onKv (fun k => { k with fwSvn := max k.fwSvn k.svn.toNat }) s), some (st .ok))

end Sys2Proof.Machine
end

