-- ==== Sys2Proof/Machine/Dispatch.lean ====
section
/-! DEFINITION. The meaning of every command: one arm for each constructor of `Instr`, one direct call of its meaning. -/

namespace Sys2Proof.Machine

def exec (i : Instr) (s : State) : Host.Outcome State Fault Refusal :=
  match i with
  | .compareFire n => Sys2Proof.Machine.execCompareFire n s
  | .pinOutputFire k => Sys2Proof.Machine.execPinOutputFire k s
  | .pulseEnd k => Sys2Proof.Machine.execPulseEnd k s
  | .anchorAdvance => Sys2Proof.Machine.execAnchorAdvance s
  | .servoUpdate => Sys2Proof.Machine.execServoUpdate s
  | .sourceLost => Sys2Proof.Machine.execSourceLost s
  | .lossTimeout => Sys2Proof.Machine.execLossTimeout s
  | .ptpMessageRx p m rxLt => Sys2Proof.Machine.execPtpMessageRx p m rxLt s
  | .ptpMessageTx p t => Sys2Proof.Machine.execPtpMessageTx p t s
  | .captureEdge n t rising pulse => Sys2Proof.Machine.execCaptureEdge n t rising pulse s
  | .irigFrame f => Sys2Proof.Machine.execIrigFrame f s
  | .capturePop rq n wide => Sys2Proof.Machine.execCapturePop rq n wide s
  | .txtsPop rq p wide => Sys2Proof.Machine.execTxtsPop rq p wide s
  | .ltNowRead rq wide => Sys2Proof.Machine.execLtNowRead rq wide s
  | .rtcRead rq rtc wide => Sys2Proof.Machine.execRtcRead rq rtc wide s
  | .rsUpperRead rq off => Sys2Proof.Machine.execRsUpperRead rq off s
  | .counterRead rq window o w => Sys2Proof.Machine.execCounterRead rq window o w s
  | .registerWrite window o v w => Sys2Proof.Machine.execRegisterWrite window o v w s
  | .tbStagePtp c x => Sys2Proof.Machine.execTbStagePtp c x s
  | .tbStageSources c x => Sys2Proof.Machine.execTbStageSources c x s
  | .tbStagePortLat c l => Sys2Proof.Machine.execTbStagePortLat c l s
  | .tbStagePins c x => Sys2Proof.Machine.execTbStagePins c x s
  | .tbStageTcuAssign c l => Sys2Proof.Machine.execTbStageTcuAssign c l s
  | .tbTcuArm c n target periodic period => Sys2Proof.Machine.execTbTcuArm c n target periodic period s
  | .tbTcuDisarm c n => Sys2Proof.Machine.execTbTcuDisarm c n s
  | .tbReadTime c => Sys2Proof.Machine.execTbReadTime c s
  | .ringTailWrite ring v => Sys2Proof.Machine.execRingTailWrite ring v s
  | .ringReleaseWrite ring v => Sys2Proof.Machine.execRingReleaseWrite ring v s
  | .ringEnable k v => Sys2Proof.Machine.execRingEnable k v s
  | .commandFetch ring entry dmaOk fault => Sys2Proof.Machine.execCommandFetch ring entry dmaOk fault s
  | .suSessionOpen c => Sys2Proof.Machine.execSuSessionOpen c s
  | .suStageCheck c drop => Sys2Proof.Machine.execSuStageCheck c drop s
  | .suCommit c t flags => Sys2Proof.Machine.execSuCommit c t flags s
  | .suSessionAbort c => Sys2Proof.Machine.execSuSessionAbort c s
  | .suSessionStatus c => Sys2Proof.Machine.execSuSessionStatus c s
  | .suCheckReport c => Sys2Proof.Machine.execSuCheckReport c s
  | .suPkgLoad c ext p store => Sys2Proof.Machine.execSuPkgLoad c ext p store s
  | .suPkgStage c => Sys2Proof.Machine.execSuPkgStage c s
  | .suPkgStatus c => Sys2Proof.Machine.execSuPkgStatus c s
  | .suRingCreate c n0 r cbase rbase size vector => Sys2Proof.Machine.execSuRingCreate c n0 r cbase rbase size vector s
  | .suRingDestroy c n0 r => Sys2Proof.Machine.execSuRingDestroy c n0 r s
  | .suNop c => Sys2Proof.Machine.execSuNop c s
  | .getInfo c n => Sys2Proof.Machine.execGetInfo c n s
  | .getStatus c n => Sys2Proof.Machine.execGetStatus c n s
  | .readActive c n op idx sub => Sys2Proof.Machine.execReadActive c n op idx sub s
  | .readStaged c n op idx sub => Sys2Proof.Machine.execReadStaged c n op idx sub s
  | .commitPrepDeadline complete => Sys2Proof.Machine.execCommitPrepDeadline complete s
  | .commitStrobe => Sys2Proof.Machine.execCommitStrobe s
  | .bankResyncEnd => Sys2Proof.Machine.execBankResyncEnd s
  | .bootSelectorWrite => Sys2Proof.Machine.execBootSelectorWrite s
  | .pkgVerifyDone => Sys2Proof.Machine.execPkgVerifyDone s
  | .pkgFlashWriteDone => Sys2Proof.Machine.execPkgFlashWriteDone s
  | .frameReceive p f rxLt tie => Sys2Proof.Machine.execFrameReceive p f rxLt tie s
  | .pauseTimerExpiry p => Sys2Proof.Machine.execPauseTimerExpiry p s
  | .transmitStart p guard => Sys2Proof.Machine.execTransmitStart p guard s
  | .transmitEnd p guard => Sys2Proof.Machine.execTransmitEnd p guard s
  | .linkStateChange p pcs fec fault unsupported => Sys2Proof.Machine.execLinkStateChange p pcs fec fault unsupported s
  | .supervisionTx k => Sys2Proof.Machine.execSupervisionTx k s
  | .supervisionRx k node => Sys2Proof.Machine.execSupervisionRx k node s
  | .ddtForget k => Sys2Proof.Machine.execDdtForget k s
  | .proxyAgeing k => Sys2Proof.Machine.execProxyAgeing k s
  | .pxStagePort c p x => Sys2Proof.Machine.execPxStagePort c p x s
  | .pxStageFilter c p l => Sys2Proof.Machine.execPxStageFilter c p l s
  | .pxStageRedundancy c pair x => Sys2Proof.Machine.execPxStageRedundancy c pair x s
  | .pxStageMacsec c p x => Sys2Proof.Machine.execPxStageMacsec c p x s
  | .pxMacsecSaSet c p rxChan an sa => Sys2Proof.Machine.execPxMacsecSaSet c p rxChan an sa s
  | .pxMacsecTxAn c p an => Sys2Proof.Machine.execPxMacsecTxAn c p an s
  | .pxPortRestart c mask => Sys2Proof.Machine.execPxPortRestart c mask s
  | .pxReadCounters c mask => Sys2Proof.Machine.execPxReadCounters c mask s
  | .transmitQueueEntry p cls guard => Sys2Proof.Machine.execTransmitQueueEntry p cls guard s
  | .holdExpiry p back => Sys2Proof.Machine.execHoldExpiry p back s
  | .maxAgeExpiry p cls => Sys2Proof.Machine.execMaxAgeExpiry p cls s
  | .fdbAgeing => Sys2Proof.Machine.execFdbAgeing s
  | .mirrorEnable v => Sys2Proof.Machine.execMirrorEnable v s
  | .swStageLimits c l => Sys2Proof.Machine.execSwStageLimits c l s
  | .swStageFdb c l => Sys2Proof.Machine.execSwStageFdb c l s
  | .swStageVlan c l => Sys2Proof.Machine.execSwStageVlan c l s
  | .swStagePorts c x => Sys2Proof.Machine.execSwStagePorts c x s
  | .swStageMirror c x => Sys2Proof.Machine.execSwStageMirror c x s
  | .swReadCounters c mask => Sys2Proof.Machine.execSwReadCounters c mask s
  | .swFdbFlush c mask => Sys2Proof.Machine.execSwFdbFlush c mask s
  | .swFdbRead c => Sys2Proof.Machine.execSwFdbRead c s
  | .packetOpen p q header rxLt rxStatus guard => Sys2Proof.Machine.execPacketOpen p q header rxLt rxStatus guard s
  | .narrowUnitWrite q bytes guard => Sys2Proof.Machine.execNarrowUnitWrite q bytes guard s
  | .endMarkWrite q bytes guard => Sys2Proof.Machine.execEndMarkWrite q bytes guard s
  | .producerRewind q => Sys2Proof.Machine.execProducerRewind q s
  | .queueRead q rq guard => Sys2Proof.Machine.execQueueRead q rq guard s
  | .queueMark q => Sys2Proof.Machine.execQueueMark q s
  | .queueRewind q => Sys2Proof.Machine.execQueueRewind q s
  | .queueRelease q => Sys2Proof.Machine.execQueueRelease q s
  | .fabricTake core guard => Sys2Proof.Machine.execFabricTake core guard s
  | .qmStageQueues c l => Sys2Proof.Machine.execQmStageQueues c l s
  | .qmStageSteer c l => Sys2Proof.Machine.execQmStageSteer c l s
  | .qmReadCounters c base mask => Sys2Proof.Machine.execQmReadCounters c base mask s
  | .qmQueueFlush c base mask => Sys2Proof.Machine.execQmQueueFlush c base mask s
  | .cabinetCycleStart => Sys2Proof.Machine.execCabinetCycleStart s
  | .imageTransmit g => Sys2Proof.Machine.execImageTransmit g s
  | .reportReceive g f rxLt => Sys2Proof.Machine.execReportReceive g f rxLt s
  | .announceReceive g f rxLt => Sys2Proof.Machine.execAnnounceReceive g f rxLt s
  | .imageReceive g f rxLt => Sys2Proof.Machine.execImageReceive g f rxLt s
  | .stationAbsent g k => Sys2Proof.Machine.execStationAbsent g k s
  | .collision g => Sys2Proof.Machine.execCollision g s
  | .slottedStartupEnd g => Sys2Proof.Machine.execSlottedStartupEnd g s
  | .foStageCabinet c x => Sys2Proof.Machine.execFoStageCabinet c x s
  | .foCabModeTest c g => Sys2Proof.Machine.execFoCabModeTest c g s
  | .foCabModeNormal c g => Sys2Proof.Machine.execFoCabModeNormal c g s
  | .foCabRediscover c mask => Sys2Proof.Machine.execFoCabRediscover c mask s
  | .svFrameReceive q f guard => Sys2Proof.Machine.execSvFrameReceive q f guard s
  | .gooseFrameReceive q f guard => Sys2Proof.Machine.execGooseFrameReceive q f guard s
  | .instantRelease g => Sys2Proof.Machine.execInstantRelease g s
  | .gridSecond => Sys2Proof.Machine.execGridSecond s
  | .talExpiry n => Sys2Proof.Machine.execTalExpiry n s
  | .goosePublish p => Sys2Proof.Machine.execGoosePublish p s
  | .gooseRetransmit p => Sys2Proof.Machine.execGooseRetransmit p s
  | .seStageGroups c l lockMs => Sys2Proof.Machine.execSeStageGroups c l lockMs s
  | .seStageSv c l => Sys2Proof.Machine.execSeStageSv c l s
  | .seStageGooseSub c l => Sys2Proof.Machine.execSeStageGooseSub c l s
  | .seStageGoosePub c l => Sys2Proof.Machine.execSeStageGoosePub c l s
  | .seReadCounters c base mask => Sys2Proof.Machine.execSeReadCounters c base mask s
  | .seStreamRelock c base mask => Sys2Proof.Machine.execSeStreamRelock c base mask s
  | .laneOutputRelease l f => Sys2Proof.Machine.execLaneOutputRelease l f s
  | .gridCycleStart g => Sys2Proof.Machine.execGridCycleStart g s
  | .trackingHold g => Sys2Proof.Machine.execTrackingHold g s
  | .trackingNominal g => Sys2Proof.Machine.execTrackingNominal g s
  | .coefReloadDone proto n => Sys2Proof.Machine.execCoefReloadDone proto n s
  | .frStageLanes c l => Sys2Proof.Machine.execFrStageLanes c l s
  | .frStageTrack c l => Sys2Proof.Machine.execFrStageTrack c l s
  | .frStageCoef c l => Sys2Proof.Machine.execFrStageCoef c l s
  | .frLaneRestart c base mask => Sys2Proof.Machine.execFrLaneRestart c base mask s
  | .estimateRelease c guard => Sys2Proof.Machine.execEstimateRelease c guard s
  | .streamDeadline k => Sys2Proof.Machine.execStreamDeadline k s
  | .dataFrameHandover k => Sys2Proof.Machine.execDataFrameHandover k s
  | .cfgChangeTimeout k => Sys2Proof.Machine.execCfgChangeTimeout k s
  | .c37CmdDataOff k => Sys2Proof.Machine.execC37CmdDataOff k s
  | .c37CmdDataOn k => Sys2Proof.Machine.execC37CmdDataOn k s
  | .c37CmdHeader k to_ => Sys2Proof.Machine.execC37CmdHeader k to_ s
  | .c37CmdCfg1 k to_ => Sys2Proof.Machine.execC37CmdCfg1 k to_ s
  | .c37CmdCfg2 k to_ => Sys2Proof.Machine.execC37CmdCfg2 k to_ s
  | .c37CmdUnsupported k => Sys2Proof.Machine.execC37CmdUnsupported k s
  | .c37CmdExtended k => Sys2Proof.Machine.execC37CmdExtended k s
  | .peStageChannels c l => Sys2Proof.Machine.execPeStageChannels c l s
  | .peStageSets c l => Sys2Proof.Machine.execPeStageSets c l s
  | .peStageStreams c l => Sys2Proof.Machine.execPeStageStreams c l s
  | .peReadResults c base mask => Sys2Proof.Machine.execPeReadResults c base mask s
  | .peStreamTxOn c base mask => Sys2Proof.Machine.execPeStreamTxOn c base mask s
  | .peStreamTxOff c base mask => Sys2Proof.Machine.execPeStreamTxOff c base mask s
  | .peReadCounters c base mask => Sys2Proof.Machine.execPeReadCounters c base mask s
  | .wslFrameReceive k f => Sys2Proof.Machine.execWslFrameReceive k f s
  | .wslFrameDeadline k => Sys2Proof.Machine.execWslFrameDeadline k s
  | .wslRetrainDone k => Sys2Proof.Machine.execWslRetrainDone k s
  | .fastEdgeArrival e rising bin pulse => Sys2Proof.Machine.execFastEdgeArrival e rising bin pulse s
  | .tdcCalibrationDone e bins => Sys2Proof.Machine.execTdcCalibrationDone e bins s
  | .edgePop rq e wide => Sys2Proof.Machine.execEdgePop rq e wide s
  | .patternTickEval r => Sys2Proof.Machine.execPatternTickEval r s
  | .rowWrite r => Sys2Proof.Machine.execRowWrite r s
  | .recordComplete r => Sys2Proof.Machine.execRecordComplete r s
  | .arStageWsl c l => Sys2Proof.Machine.execArStageWsl c l s
  | .arStageEdges c l => Sys2Proof.Machine.execArStageEdges c l s
  | .arStageComparators c l => Sys2Proof.Machine.execArStageComparators c l s
  | .arStageRecorders c l => Sys2Proof.Machine.execArStageRecorders c l s
  | .arTrigger c mask => Sys2Proof.Machine.execArTrigger c mask s
  | .arRecorderArm c mask => Sys2Proof.Machine.execArRecorderArm c mask s
  | .arRecorderStop c mask => Sys2Proof.Machine.execArRecorderStop c mask s
  | .arRecordList c r => Sys2Proof.Machine.execArRecordList c r s
  | .arRecordRead c r no off len guard => Sys2Proof.Machine.execArRecordRead c r no off len guard s
  | .arRecordRelease c r nos => Sys2Proof.Machine.execArRecordRelease c r nos s
  | .arReadCounters c mask => Sys2Proof.Machine.execArReadCounters c mask s
  | .baseTick => Sys2Proof.Machine.execBaseTick s
  | .windowEnd e => Sys2Proof.Machine.execWindowEnd e s
  | .majorFrameStart => Sys2Proof.Machine.execMajorFrameStart s
  | .cycleStart e => Sys2Proof.Machine.execCycleStart e s
  | .snapshotDone e => Sys2Proof.Machine.execSnapshotDone e s
  | .outputWrite e => Sys2Proof.Machine.execOutputWrite e s
  | .runStateChange o => Sys2Proof.Machine.execRunStateChange o s
  | .inboxDispatch k odd guard => Sys2Proof.Machine.execInboxDispatch k odd guard s
  | .engineReloadDone k => Sys2Proof.Machine.execEngineReloadDone k s
  | .tahrAdd x => Sys2Proof.Machine.execTahrAdd x s
  | .tahrSub x => Sys2Proof.Machine.execTahrSub x s
  | .tahrAddi x => Sys2Proof.Machine.execTahrAddi x s
  | .tahrMul x => Sys2Proof.Machine.execTahrMul x s
  | .tahrDiv x => Sys2Proof.Machine.execTahrDiv x s
  | .tahrRem x => Sys2Proof.Machine.execTahrRem x s
  | .tahrAnd x => Sys2Proof.Machine.execTahrAnd x s
  | .tahrOr x => Sys2Proof.Machine.execTahrOr x s
  | .tahrXor x => Sys2Proof.Machine.execTahrXor x s
  | .tahrAndi x => Sys2Proof.Machine.execTahrAndi x s
  | .tahrOri x => Sys2Proof.Machine.execTahrOri x s
  | .tahrXori x => Sys2Proof.Machine.execTahrXori x s
  | .tahrShl x => Sys2Proof.Machine.execTahrShl x s
  | .tahrShr x => Sys2Proof.Machine.execTahrShr x s
  | .tahrSar x => Sys2Proof.Machine.execTahrSar x s
  | .tahrShli x => Sys2Proof.Machine.execTahrShli x s
  | .tahrShri x => Sys2Proof.Machine.execTahrShri x s
  | .tahrSari x => Sys2Proof.Machine.execTahrSari x s
  | .tahrLdi x => Sys2Proof.Machine.execTahrLdi x s
  | .tahrLdih x => Sys2Proof.Machine.execTahrLdih x s
  | .tahrMin x => Sys2Proof.Machine.execTahrMin x s
  | .tahrMax x => Sys2Proof.Machine.execTahrMax x s
  | .tahrCmpeq x => Sys2Proof.Machine.execTahrCmpeq x s
  | .tahrCmplt x => Sys2Proof.Machine.execTahrCmplt x s
  | .tahrCmpltu x => Sys2Proof.Machine.execTahrCmpltu x s
  | .tahrCmple x => Sys2Proof.Machine.execTahrCmple x s
  | .tahrSel x => Sys2Proof.Machine.execTahrSel x s
  | .tahrAbs x => Sys2Proof.Machine.execTahrAbs x s
  | .tahrFadd x => Sys2Proof.Machine.execTahrFadd x s
  | .tahrFsub x => Sys2Proof.Machine.execTahrFsub x s
  | .tahrFmul x => Sys2Proof.Machine.execTahrFmul x s
  | .tahrFdiv x => Sys2Proof.Machine.execTahrFdiv x s
  | .tahrFsqrt x => Sys2Proof.Machine.execTahrFsqrt x s
  | .tahrFmadd x => Sys2Proof.Machine.execTahrFmadd x s
  | .tahrFneg x => Sys2Proof.Machine.execTahrFneg x s
  | .tahrFabs x => Sys2Proof.Machine.execTahrFabs x s
  | .tahrFmin x => Sys2Proof.Machine.execTahrFmin x s
  | .tahrFmax x => Sys2Proof.Machine.execTahrFmax x s
  | .tahrFcmpeq x => Sys2Proof.Machine.execTahrFcmpeq x s
  | .tahrFcmplt x => Sys2Proof.Machine.execTahrFcmplt x s
  | .tahrFcmple x => Sys2Proof.Machine.execTahrFcmple x s
  | .tahrCvtif x => Sys2Proof.Machine.execTahrCvtif x s
  | .tahrCvtfi x => Sys2Proof.Machine.execTahrCvtfi x s
  | .tahrCvtsd x => Sys2Proof.Machine.execTahrCvtsd x s
  | .tahrCvtds x => Sys2Proof.Machine.execTahrCvtds x s
  | .tahrFsin x => Sys2Proof.Machine.execTahrFsin x s
  | .tahrFcos x => Sys2Proof.Machine.execTahrFcos x s
  | .tahrFatan2 x => Sys2Proof.Machine.execTahrFatan2 x s
  | .tahrFldi x => Sys2Proof.Machine.execTahrFldi x s
  | .tahrCadd x => Sys2Proof.Machine.execTahrCadd x s
  | .tahrCsub x => Sys2Proof.Machine.execTahrCsub x s
  | .tahrCmul x => Sys2Proof.Machine.execTahrCmul x s
  | .tahrCdiv x => Sys2Proof.Machine.execTahrCdiv x s
  | .tahrCconj x => Sys2Proof.Machine.execTahrCconj x s
  | .tahrCmag x => Sys2Proof.Machine.execTahrCmag x s
  | .tahrCarg x => Sys2Proof.Machine.execTahrCarg x s
  | .tahrCmk x => Sys2Proof.Machine.execTahrCmk x s
  | .tahrCre x => Sys2Proof.Machine.execTahrCre x s
  | .tahrCim x => Sys2Proof.Machine.execTahrCim x s
  | .tahrCscl x => Sys2Proof.Machine.execTahrCscl x s
  | .tahrCpol x => Sys2Proof.Machine.execTahrCpol x s
  | .tahrCrot x => Sys2Proof.Machine.execTahrCrot x s
  | .tahrLd x => Sys2Proof.Machine.execTahrLd x s
  | .tahrLdw x => Sys2Proof.Machine.execTahrLdw x s
  | .tahrLdwu x => Sys2Proof.Machine.execTahrLdwu x s
  | .tahrLdb x => Sys2Proof.Machine.execTahrLdb x s
  | .tahrSt x => Sys2Proof.Machine.execTahrSt x s
  | .tahrStw x => Sys2Proof.Machine.execTahrStw x s
  | .tahrStb x => Sys2Proof.Machine.execTahrStb x s
  | .tahrBr x => Sys2Proof.Machine.execTahrBr x s
  | .tahrBeq x => Sys2Proof.Machine.execTahrBeq x s
  | .tahrBne x => Sys2Proof.Machine.execTahrBne x s
  | .tahrBlt x => Sys2Proof.Machine.execTahrBlt x s
  | .tahrBge x => Sys2Proof.Machine.execTahrBge x s
  | .tahrBltu x => Sys2Proof.Machine.execTahrBltu x s
  | .tahrLoop x => Sys2Proof.Machine.execTahrLoop x s
  | .tahrFbcall x => Sys2Proof.Machine.execTahrFbcall x s
  | .tahrRet x => Sys2Proof.Machine.execTahrRet x s
  | .tahrEnd x => Sys2Proof.Machine.execTahrEnd x s
  | .tahrNop x => Sys2Proof.Machine.execTahrNop x s
  | .tahrLdp x => Sys2Proof.Machine.execTahrLdp x s
  | .tahrLdpq x => Sys2Proof.Machine.execTahrLdpq x s
  | .tahrLdpt x => Sys2Proof.Machine.execTahrLdpt x s
  | .tahrStp x => Sys2Proof.Machine.execTahrStp x s
  | .tahrStpt x => Sys2Proof.Machine.execTahrStpt x s
  | .tahrRdsr x => Sys2Proof.Machine.execTahrRdsr x s
  | .tahrTon x => Sys2Proof.Machine.execTahrTon x s
  | .tahrTof x => Sys2Proof.Machine.execTahrTof x s
  | .tahrTp x => Sys2Proof.Machine.execTahrTp x s
  | .tahrRtrig x => Sys2Proof.Machine.execTahrRtrig x s
  | .tahrFtrig x => Sys2Proof.Machine.execTahrFtrig x s
  | .tahrCtu x => Sys2Proof.Machine.execTahrCtu x s
  | .tahrCtd x => Sys2Proof.Machine.execTahrCtd x s
  | .tahrCtud x => Sys2Proof.Machine.execTahrCtud x s
  | .tahrQsend x => Sys2Proof.Machine.execTahrQsend x s
  | .tahrRaise x => Sys2Proof.Machine.execTahrRaise x s
  | .fbStageCode c img => Sys2Proof.Machine.execFbStageCode c img s
  | .fbStageRxmap c l => Sys2Proof.Machine.execFbStageRxmap c l s
  | .fbReadInst c e a n => Sys2Proof.Machine.execFbReadInst c e a n s
  | .fbReadFault c o e => Sys2Proof.Machine.execFbReadFault c o e s
  | .fbReadCounters c mask => Sys2Proof.Machine.execFbReadCounters c mask s
  | .fbStageSchedule c f l => Sys2Proof.Machine.execFbStageSchedule c f l s
  | .fbStageTasks c o l own => Sys2Proof.Machine.execFbStageTasks c o l own s
  | .fbStageRetain c o l => Sys2Proof.Machine.execFbStageRetain c o l s
  | .runWarm c o => Sys2Proof.Machine.execRunWarm c o s
  | .runCold c o => Sys2Proof.Machine.execRunCold c o s
  | .fbRunCtrlStop c o => Sys2Proof.Machine.execFbRunCtrlStop c o s
  | .fbRunCtrlHold c o => Sys2Proof.Machine.execFbRunCtrlHold c o s
  | .fbStep c o t n => Sys2Proof.Machine.execFbStep c o t n s
  | .fbReadTasks c o => Sys2Proof.Machine.execFbReadTasks c o s
  | .batchApply => Sys2Proof.Machine.execBatchApply s
  | .staleMark n0 => Sys2Proof.Machine.execStaleMark n0 s
  | .psStagePoints c defs pubs tPsw => Sys2Proof.Machine.execPsStagePoints c defs pubs tPsw s
  | .psReadPoints c l guard forces => Sys2Proof.Machine.execPsReadPoints c l guard forces s
  | .psWrite c l mask => Sys2Proof.Machine.execPsWrite c l mask s
  | .psForceSet c l mask => Sys2Proof.Machine.execPsForceSet c l mask s
  | .psForceClear c l mask => Sys2Proof.Machine.execPsForceClear c l mask s
  | .psForceListCurrent c => Sys2Proof.Machine.execPsForceListCurrent c s
  | .psForceListDropped c => Sys2Proof.Machine.execPsForceListDropped c s
  | .heartbeatTx => Sys2Proof.Machine.execHeartbeatTx s
  | .heartbeatRx w => Sys2Proof.Machine.execHeartbeatRx w s
  | .partnerLost => Sys2Proof.Machine.execPartnerLost s
  | .brixigLinkState up => Sys2Proof.Machine.execBrixigLinkState up s
  | .relinquishRx w => Sys2Proof.Machine.execRelinquishRx w s
  | .gooseStRx w => Sys2Proof.Machine.execGooseStRx w s
  | .replRx w => Sys2Proof.Machine.execReplRx w s
  | .tasksRx w => Sys2Proof.Machine.execTasksRx w s
  | .replEndRx w => Sys2Proof.Machine.execReplEndRx w s
  | .replTransmit => Sys2Proof.Machine.execReplTransmit s
  | .replApply => Sys2Proof.Machine.execReplApply s
  | .discoveryTimeout => Sys2Proof.Machine.execDiscoveryTimeout s
  | .witnessClear => Sys2Proof.Machine.execWitnessClear s
  | .handoverEnd => Sys2Proof.Machine.execHandoverEnd s
  | .watchdogExpiry => Sys2Proof.Machine.execWatchdogExpiry s
  | .timeSvTrigger => Sys2Proof.Machine.execTimeSvTrigger s
  | .epochResetWindow => Sys2Proof.Machine.execEpochResetWindow s
  | .swapBoundary => Sys2Proof.Machine.execSwapBoundary s
  | .foWdogWrite => Sys2Proof.Machine.execFoWdogWrite s
  | .foStagePair c p => Sys2Proof.Machine.execFoStagePair c p s
  | .foStageRepl c o l => Sys2Proof.Machine.execFoStageRepl c o l s
  | .foRelinquish c => Sys2Proof.Machine.execFoRelinquish c s
  | .foSwap c => Sys2Proof.Machine.execFoSwap c s
  | .foRearm c => Sys2Proof.Machine.execFoRearm c s
  | .foEpochReset c => Sys2Proof.Machine.execFoEpochReset c s
  | .foReadPair c => Sys2Proof.Machine.execFoReadPair c s
  | .miTapFrame f bad => Sys2Proof.Machine.execMiTapFrame f bad s
  | .miTimeRecord bad => Sys2Proof.Machine.execMiTimeRecord bad s
  | .miInstantClose p => Sys2Proof.Machine.execMiInstantClose p s
  | .zcTimeout p => Sys2Proof.Machine.execZcTimeout p s
  | .tapLost p => Sys2Proof.Machine.execTapLost p s
  | .timeOkTimeout => Sys2Proof.Machine.execTimeOkTimeout s
  | .registerSave => Sys2Proof.Machine.execRegisterSave s
  | .powerFailSave done => Sys2Proof.Machine.execPowerFailSave done s
  | .miPowerUp bad closed => Sys2Proof.Machine.execMiPowerUp bad closed s
  | .sealOpen => Sys2Proof.Machine.execSealOpen s
  | .readId frame => Sys2Proof.Machine.execReadId frame s
  | .readParam frame => Sys2Proof.Machine.execReadParam frame s
  | .writeParam frame => Sys2Proof.Machine.execWriteParam frame s
  | .seal_ frame => Sys2Proof.Machine.execSeal frame s
  | .resetRegisters frame => Sys2Proof.Machine.execResetRegisters frame s
  | .clearLog frame => Sys2Proof.Machine.execClearLog frame s
  | .readLog frame => Sys2Proof.Machine.execReadLog frame s
  | .miUnknownCommand frame => Sys2Proof.Machine.execMiUnknownCommand frame s
  | .serviceByteTimeout bytes => Sys2Proof.Machine.execServiceByteTimeout bytes s
  | .writeParamTimeout => Sys2Proof.Machine.execWriteParamTimeout s
  | .mailboxUpdate bad => Sys2Proof.Machine.execMailboxUpdate bad s
  | .mailboxSilent => Sys2Proof.Machine.execMailboxSilent s
  | .kvKeyLoad c k material aux vouch => Sys2Proof.Machine.execKvKeyLoad c k material aux vouch s
  | .kvKeyGenerate c k => Sys2Proof.Machine.execKvKeyGenerate c k s
  | .kvKeyDerive c k q => Sys2Proof.Machine.execKvKeyDerive c k q s
  | .kvKeyUnwrap c k b => Sys2Proof.Machine.execKvKeyUnwrap c k b s
  | .kvKeyAgree c k peer q => Sys2Proof.Machine.execKvKeyAgree c k peer q s
  | .kvKeyWrap c slot parent => Sys2Proof.Machine.execKvKeyWrap c slot parent s
  | .kvKeyPublic c slot => Sys2Proof.Machine.execKvKeyPublic c slot s
  | .kvKeyRestrict c slot clear => Sys2Proof.Machine.execKvKeyRestrict c slot clear s
  | .kvKeyRevoke c base mask => Sys2Proof.Machine.execKvKeyRevoke c base mask s
  | .kvKeyErase c base mask => Sys2Proof.Machine.execKvKeyErase c base mask s
  | .kvKeyInfo c slot => Sys2Proof.Machine.execKvKeyInfo c slot s
  | .kvGcm c q => Sys2Proof.Machine.execKvGcm c q s
  | .kvHmac c slot sha384 verify msg => Sys2Proof.Machine.execKvHmac c slot sha384 verify msg s
  | .kvHash c sha384 msg => Sys2Proof.Machine.execKvHash c sha384 msg s
  | .kvSign c slot hashed data => Sys2Proof.Machine.execKvSign c slot hashed data s
  | .kvVerify c slot hashed data sig => Sys2Proof.Machine.execKvVerify c slot hashed data sig s
  | .kvRandom c n => Sys2Proof.Machine.execKvRandom c n s
  | .kvLcAdvance c target auth => Sys2Proof.Machine.execKvLcAdvance c target auth s
  | .kvFwSvnRaise c => Sys2Proof.Machine.execKvFwSvnRaise c s
  | .entropyHealthFail => Sys2Proof.Machine.execEntropyHealthFail s
  | .entropyRecovered => Sys2Proof.Machine.execEntropyRecovered s
  | .imStageShares c l => Sys2Proof.Machine.execImStageShares c l s
  | .imStageEvents c l => Sys2Proof.Machine.execImStageEvents c l s
  | .imInstanceReset c mask => Sys2Proof.Machine.execImInstanceReset c mask s
  | .imHostqSet c n0 j x => Sys2Proof.Machine.execImHostqSet c n0 j x s
  | .imInstanceFreeze c n0 => Sys2Proof.Machine.execImInstanceFreeze c n0 s
  | .imInstanceSave c n0 slot => Sys2Proof.Machine.execImInstanceSave c n0 slot s
  | .imInstanceRestore c n0 b => Sys2Proof.Machine.execImInstanceRestore c n0 b s
  | .imInstanceThaw c n0 => Sys2Proof.Machine.execImInstanceThaw c n0 s
  | .imInstanceInfo c n0 => Sys2Proof.Machine.execImInstanceInfo c n0 s
  | .resetEnd n0 => Sys2Proof.Machine.execResetEnd n0 s
  | .freezeBoundary n0 => Sys2Proof.Machine.execFreezeBoundary n0 s
  | .restoreApply n0 => Sys2Proof.Machine.execRestoreApply n0 s
  | .thawBoundary n0 => Sys2Proof.Machine.execThawBoundary n0 s
  | .hostqTailWrite n0 j v => Sys2Proof.Machine.execHostqTailWrite n0 j v s
  | .hostqDescriptor n0 j desc data guard => Sys2Proof.Machine.execHostqDescriptor n0 j desc data guard s
  | .resetRequestWrite n0 v => Sys2Proof.Machine.execResetRequestWrite n0 v s
  | .eventMaskWrite o k v => Sys2Proof.Machine.execEventMaskWrite o k v s
  | .functionLevelReset => Sys2Proof.Machine.execFunctionLevelReset s
  | .perstAssert => Sys2Proof.Machine.execPerstAssert s
  | .paStageDomains c l => Sys2Proof.Machine.execPaStageDomains c l s
  | .paStageDuiker c x => Sys2Proof.Machine.execPaStageDuiker c x s
  | .paDomainWake c mask => Sys2Proof.Machine.execPaDomainWake c mask s
  | .paDomainOff c mask => Sys2Proof.Machine.execPaDomainOff c mask s
  | .paDomainLock c mask => Sys2Proof.Machine.execPaDomainLock c mask s
  | .paDomainUnlock c mask => Sys2Proof.Machine.execPaDomainUnlock c mask s
  | .paSleep c mask alarm => Sys2Proof.Machine.execPaSleep c mask alarm s
  | .paRetainRead c ofs len => Sys2Proof.Machine.execPaRetainRead c ofs len s
  | .paRetainWrite c ofs data => Sys2Proof.Machine.execPaRetainWrite c ofs data s
  | .paStartupReport c => Sys2Proof.Machine.execPaStartupReport c s
  | .paTamperClear c mask => Sys2Proof.Machine.execPaTamperClear c mask s
  | .sleepStopBoundary rtc => Sys2Proof.Machine.execSleepStopBoundary rtc s
  | .rtcCalibrationDone rtc => Sys2Proof.Machine.execRtcCalibrationDone rtc s
  | .domainIdleOff n => Sys2Proof.Machine.execDomainIdleOff n s
  | .domainDataAccess n need rq => Sys2Proof.Machine.execDomainDataAccess n need rq s
  | .domainOn n => Sys2Proof.Machine.execDomainOn n s
  | .pd2WakeDone => Sys2Proof.Machine.execPd2WakeDone s
  | .ioSupplyLow => Sys2Proof.Machine.execIoSupplyLow s
  | .ioSupplyHigh => Sys2Proof.Machine.execIoSupplyHigh s
  | .duikerBrownout c => Sys2Proof.Machine.execDuikerBrownout c s
  | .brownoutReset c => Sys2Proof.Machine.execBrownoutReset c s
  | .opsecsCopy rtc => Sys2Proof.Machine.execOpsecsCopy rtc s
  | .wakeNFall rtc => Sys2Proof.Machine.execWakeNFall rtc s
  | .rtcAlarm rtc => Sys2Proof.Machine.execRtcAlarm rtc s
  | .tamperSample k level rtc => Sys2Proof.Machine.execTamperSample k level rtc s
  | .tamperLatch k rtc => Sys2Proof.Machine.execTamperLatch k rtc s
  | .powerGood rtc => Sys2Proof.Machine.execPowerGood rtc s
  | .secureBootDone a b => Sys2Proof.Machine.execSecureBootDone a b s
  | .duikerRestoreDone rtc => Sys2Proof.Machine.execDuikerRestoreDone rtc s
  | .dramTrainingDone ok => Sys2Proof.Machine.execDramTrainingDone ok s
  | .suReady bad => Sys2Proof.Machine.execSuReady bad s
  | .packageLoaded heldOk => Sys2Proof.Machine.execPackageLoaded heldOk s
  | .pointStoreBuilt => Sys2Proof.Machine.execPointStoreBuilt s
  | .portsUp => Sys2Proof.Machine.execPortsUp s
  | .lockTimeout => Sys2Proof.Machine.execLockTimeout s
  | .instancesStart => Sys2Proof.Machine.execInstancesStart s
  | .thermTrip => Sys2Proof.Machine.execThermTrip s
  | .pmbusWrite addr cmd len pec fast => Sys2Proof.Machine.execPmbusWrite addr cmd len pec fast s
  | .pmbusRead addr cmd len pec fast => Sys2Proof.Machine.execPmbusRead addr cmd len pec fast s
  | .pmbusDone nack data => Sys2Proof.Machine.execPmbusDone nack data s
  | .pmbusTimeout => Sys2Proof.Machine.execPmbusTimeout s
  | .borClearWrite => Sys2Proof.Machine.execBorClearWrite s
  | .logClearWrite v => Sys2Proof.Machine.execLogClearWrite v s
  | .logClearDone => Sys2Proof.Machine.execLogClearDone s
  | .logRecordWrite => Sys2Proof.Machine.execLogRecordWrite s
  | .scrubRead r d words word use => Sys2Proof.Machine.execScrubRead r d words word use s
  | .gerrRecordPop rq wide => Sys2Proof.Machine.execGerrRecordPop rq wide s
  | .perstNRise rtc => Sys2Proof.Machine.execPerstNRise rtc s
  | .sealClose => Sys2Proof.Machine.execSealClose s
  | .engineSlot e => Sys2Proof.Machine.execEngineSlot e s
  | .dmaReadCompletion n0 epoch => Sys2Proof.Machine.execDmaReadCompletion n0 epoch s
  | .illegal x => Sys2Proof.Machine.execIllegal x s
  | .accessAtFetch x => Sys2Proof.Machine.execAccessAtFetch x s
  | .thermTripNHigh => Sys2Proof.Machine.execThermTripNHigh s

end Sys2Proof.Machine
end

