-- ==== Sys2Proof/Machine/Jtag.lean ====
section
/-! DEFINITION. The test access port of IEEE 1149.1 and what each life-cycle state allows it (R478, R607). The table has no row for its pins, so
the edges that the JTAG host applies stand in the state, and the tick of the time clock takes them (log 158). -/

namespace Sys2Proof.Machine

/-- The state that an edge of TCK leads to, by TMS (IEEE 1149.1). -/
def tapNext (t : TapState) (tms : Bool) : TapState :=
  match t with
  | .reset => if tms then .reset else .idle
  | .idle => if tms then .drSelect else .idle
  | .drSelect => if tms then .irSelect else .drCapture
  | .drCapture => if tms then .drExit1 else .drShift
  | .drShift => if tms then .drExit1 else .drShift
  | .drExit1 => if tms then .drUpdate else .drPause
  | .drPause => if tms then .drExit2 else .drPause
  | .drExit2 => if tms then .drUpdate else .drShift
  | .drUpdate => if tms then .drSelect else .idle
  | .irSelect => if tms then .reset else .irCapture
  | .irCapture => if tms then .irExit1 else .irShift
  | .irShift => if tms then .irExit1 else .irShift
  | .irExit1 => if tms then .irUpdate else .irPause
  | .irPause => if tms then .irExit2 else .irPause
  | .irExit2 => if tms then .irUpdate else .irShift
  | .irUpdate => if tms then .drSelect else .idle

/-- Whether a life-cycle state has an instruction (R478): full debug access in MANUFACTURE and RETURN; BYPASS, IDCODE and boundary scan in FIELD;
BYPASS and IDCODE in SCRAP. -/
def jtagAllowed (life : Nat) (i : JtagInstr) : Bool :=
  match i with
  | .bypass => true
  | .idcode => true
  | .boundary => life != 4
  | .debug _ => life == 1 || life == 3

/-- IDCODE (R607): the version number of the stepping, the part number 0x7780, the manufacturer's identity and a 1. -/
def idcode (s : State) : BitVec 32 := Config.jtagVersion s.glob.stepping ++ 0x7780#16 ++ Config.jtagMaker ++ 1#1

/-- The instruction that the shift register selects; one that the life-cycle state does not have selects BYPASS (log 158). -/
def jtagSelect (s : State) (ir : List Bool) : JtagInstr :=
  let i : JtagInstr := match Config.jtagCode ir with
    | 2 => .idcode
    | 3 => .boundary
    | n + 4 => .debug n
    | _ => .bypass
  if jtagAllowed (lifeCode s) i then i else .bypass

/-- The length of the data register of an instruction. -/
def jtagLen : JtagInstr → Nat
  | .bypass => 1
  | .idcode => 32
  | .boundary => Config.jtagChain 0
  | .debug n => Config.jtagChain (n + 1)

/-- What the data register captures: 0 for BYPASS, IDCODE, or what the pins and the debug unit hold, free values (log 158). -/
def jtagCapture (s : State) : List Bool × State :=
  match s.jtag.instr with
  | .bypass => ([false], s)
  | .idcode => ((List.range 32).map (idcode s).getLsbD, s)
  | i => let (x, s) := draw s; ((List.range (jtagLen i)).map (fun k => x.testBit k), s)

/-- `jtag` changed. -/
def onJtag (f : Jtag → Jtag) (s : State) : State := { s with jtag := f s.jtag }

/-- What a state of the controller does at the edge that leaves it, before the controller moves (IEEE 1149.1). -/
def tapAct (p : TapPins) (s : State) : State :=
  match s.jtag.tap with
  | .drCapture => let (d, s) := jtagCapture s; onJtag (fun j => { j with dr := d }) s
  | .drShift => onJtag (fun j => { j with dr := j.dr.drop 1 ++ [p.tdi] }) (emit (.tdo (s.jtag.dr.headD false)) s)
  | .drUpdate => onJtag (fun j => if j.instr = .boundary then { j with cells := j.dr } else j) s
  | .irCapture => onJtag (fun j => { j with ir := true :: .replicate (Config.jtagIrLen - 1) false }) s
  | .irShift => onJtag (fun j => { j with ir := j.ir.drop 1 ++ [p.tdi] }) (emit (.tdo (s.jtag.ir.headD false)) s)
  | .irUpdate => onJtag (fun j => { j with instr := jtagSelect s j.ir }) s
  | _ => s

/-- One rising edge of TCK; Test-Logic-Reset selects IDCODE. -/
def tapEdge (p : TapPins) (s : State) : State :=
  onJtag (fun j =>
    let t := tapNext j.tap p.tms
    { j with tap := t, instr := if t = .reset then .idcode else j.instr }) (tapAct p s)

/-- The TAP over one tick: TRST_N low holds it in Test-Logic-Reset, and so does a host that drives nothing; an edge is taken at the earliest 40 ns
after the last, TCK running at 25 MHz at most (R607). -/
def tapTick (s : State) : State :=
  if !s.jtag.trstN then (if s.jtag.tap = .reset then s else onJtag (fun j => { j with tap := .reset, instr := .idcode }) s)
  else
    match s.jtag.drive with
    | [] => s
    | p :: l => if s.abs < s.jtag.edgeAt + 40 * 65536 then s else tapEdge p (onJtag (fun j => { j with drive := l, edgeAt := s.abs }) s)

end Sys2Proof.Machine
end

