-- ==== Sys2Proof/Machine/Tick.lean ====
section
/-! DEFINITION. The tick of the time clock, which a step makes where no command waits (R19–R21; log 1). -/

namespace Sys2Proof.Machine

/-- LT moved on to another accumulator value, a wrap being counted (R10, log 112). -/
def TbState.advance (t : TbState) (acc : BitVec 96) : TbState :=
  { t with acc := acc, wraps := if acc.toNat < t.acc.toNat then t.wraps + 1 else t.wraps }

/-- How long both conditions of the TIME_SV trigger have held without a break is followed from tick to tick (R430). -/
def holdTimeSv (s : State) : State :=
  onFo (fun f => { f with timeSvSince := if timeSvCond s then some (f.timeSvSince.getD s.abs) else none }) s

/-- One tick of the 500 MHz time clock (R19, R20): LT advances by the increment in force, with its fraction, and the TAP takes an edge of TCK that
is due (R607). The clock runs while PD1 is powered, so it stands in a sleep and in VBAT standby. -/
def timeTick (s : State) : State :=
  if s.pa.power = .running then
    let s := tapTick (holdTimeSv s)
    { s with tb := s.tb.advance (s.tb.acc + s.tb.rate.zeroExtend 96) }
  else s

end Sys2Proof.Machine
end

