-- ==== Sys2Proof/Reach.lean ====
section
/-! DEFINITION. How far each command reaches: the parts of the state that its meaning may change. The statements of frames are in terms of it. -/

namespace Sys2Proof.Machine

/-- The parts of the state. -/
inductive Part where
  /-- the time base -/
  | tb
  /-- the supervisor -/
  | su
  /-- the port complex -/
  | px
  /-- the Chamois fabric -/
  | sw
  /-- the packet queues -/
  | qm
  /-- the stream engine -/
  | se
  /-- the filter chain -/
  | fr
  /-- the phasor engine -/
  | pe
  /-- the analogue front ends and recorders -/
  | ar
  /-- the Tahr engines and their cycles -/
  | fb
  /-- the Point Store -/
  | ps
  /-- failover and the cabinet segments -/
  | fo
  /-- the metrology die and its mailbox -/
  | mi
  /-- the Key Vault -/
  | kv
  /-- the Instance Manager -/
  | im
  /-- power and start-up -/
  | pa
  /-- the PMBus bridge -/
  | pmb
  /-- the JTAG TAP -/
  | jtag
  /-- guard-word counters and error records -/
  | grd
  /-- the event log -/
  | log
  /-- event bits and masks -/
  | ev
  /-- identity, pins and readiness -/
  | glob
  /-- the count of free values drawn -/
  | free
  /-- what the block has sent out -/
  | out
  deriving DecidableEq, Repr

/-- The families of commands. -/
inductive Family where
  /-- the instructions of the Tahr engines -/
  | tahr
  /-- TB, the registers, SU, PX, SW and QM -/
  | network
  /-- the cabinet segments, SE, FR, PE and AR -/
  | signal
  /-- FB, PS and FO -/
  | control
  /-- MI, KV, IM, PA, start-up, the board, the log and the scrubbers -/
  | platform
  deriving DecidableEq, Repr

/-- Every part of the state outside a list is unchanged, and the queue of commands with it. -/
def sameBut (l : List Part) (s t : State) : Prop :=
  (.tb ∉ l → t.tb = s.tb) ∧ (.su ∉ l → t.su = s.su) ∧ (.px ∉ l → t.px = s.px) ∧ (.sw ∉ l → t.sw = s.sw) ∧ (.qm ∉ l → t.qm = s.qm) ∧ (.se ∉ l → t.se = s.se) ∧
  (.fr ∉ l → t.fr = s.fr) ∧ (.pe ∉ l → t.pe = s.pe) ∧ (.ar ∉ l → t.ar = s.ar) ∧ (.fb ∉ l → t.fb = s.fb) ∧ (.ps ∉ l → t.ps = s.ps) ∧ (.fo ∉ l → t.fo = s.fo) ∧
  (.mi ∉ l → t.mi = s.mi) ∧ (.kv ∉ l → t.kv = s.kv) ∧ (.im ∉ l → t.im = s.im) ∧ (.pa ∉ l → t.pa = s.pa) ∧ (.pmb ∉ l → t.pmb = s.pmb) ∧ (.jtag ∉ l → t.jtag = s.jtag) ∧
  (.grd ∉ l → t.grd = s.grd) ∧ (.log ∉ l → t.log = s.log) ∧ (.ev ∉ l → t.ev = s.ev) ∧ (.glob ∉ l → t.glob = s.glob) ∧ (.free ∉ l → t.free = s.free) ∧ (.out ∉ l → t.out = s.out) ∧
  t.pending = s.pending

/-- What a command of SU that changes nothing of its own subsystem reaches: its reply, its domain, the log and the events. -/
def byCommand : List Part := [.su, .im, .pa, .log, .ev, .glob, .out]

/-- What an instruction of a task cycle reaches: its engine, and by a fault the owner, the events and the log. -/
def byTask : List Part := [.su, .fb, .fo, .im, .pa, .grd, .log, .ev, .glob, .out]

/-- What the reset of the device reaches. -/
def byReset : List Part :=
  [.tb, .su, .px, .sw, .qm, .se, .fr, .pe, .ar, .fb, .ps, .fo, .mi, .kv, .im, .pa, .pmb, .jtag, .grd, .log, .ev, .glob]

/-- The family of a command and the parts its meaning may change. -/
def reach : Instr → Family × List Part
  | .compareFire .. => (.network, [.tb, .ar, .fb, .im, .log, .ev, .out])
  | .pinOutputFire .. => (.network, [.tb, .im, .log, .ev, .out])
  | .pulseEnd .. => (.network, [.tb, .im, .log, .ev, .out])
  | .anchorAdvance .. => (.network, [.tb, .mi])
  | .servoUpdate .. => (.network, [.tb, .im, .log, .ev, .free, .out])
  | .sourceLost .. => (.network, [.tb, .im, .log, .ev, .out])
  | .lossTimeout .. => (.network, [.tb, .im, .log, .ev, .out])
  | .ptpMessageRx .. => (.network, [.tb, .im, .log, .ev, .out])
  | .ptpMessageTx .. => (.network, [.tb, .qm, .pa])
  | .captureEdge .. => (.network, [.tb, .im, .log, .ev, .out])
  | .irigFrame .. => (.network, [.tb, .im, .log, .ev, .out])
  | .capturePop .. => (.network, [.tb, .im, .out])
  | .txtsPop .. => (.network, [.tb, .out])
  | .ltNowRead .. => (.network, [.im, .out])
  | .rtcRead .. => (.network, [.im, .pa, .out])
  | .rsUpperRead .. => (.network, [.out])
  | .counterRead .. => (.network, [.tb, .px, .sw, .qm, .se, .fr, .pe, .ar, .fb, .ps, .fo, .im, .pa, .grd, .log, .ev, .out])
  | .registerWrite .. => (.network, [.tb, .su, .px, .sw, .qm, .se, .fr, .pe, .ar, .fb, .ps, .fo, .kv, .im, .pa, .pmb, .grd, .log, .ev, .glob, .out])
  | .tbStagePtp .. => (.network, byCommand)
  | .tbStageSources .. => (.network, byCommand)
  | .tbStagePortLat .. => (.network, byCommand)
  | .tbStagePins .. => (.network, byCommand)
  | .tbStageTcuAssign .. => (.network, byCommand)
  | .tbTcuArm .. => (.network, [.tb, .su, .ar, .fb, .im, .pa, .log, .ev, .glob, .out])
  | .tbTcuDisarm .. => (.network, [.tb, .su, .ar, .fb, .im, .pa, .log, .ev, .glob, .out])
  | .tbReadTime .. => (.network, byCommand)
  | .ringTailWrite .. => (.network, [.su, .im, .log, .ev, .glob, .out])
  | .ringReleaseWrite .. => (.network, [.su, .im, .log, .ev, .glob, .out])
  | .ringEnable .. => (.network, [.su])
  | .commandFetch .. => (.network, [.su, .im, .log, .ev, .glob, .out])
  | .suSessionOpen .. => (.network, byCommand)
  | .suStageCheck .. => (.network, byCommand)
  | .suCommit .. => (.network, [.tb, .su, .im, .pa, .log, .ev, .glob, .out])
  | .suSessionAbort .. => (.network, [.tb, .su, .im, .pa, .log, .ev, .glob, .out])
  | .suSessionStatus .. => (.network, byCommand)
  | .suCheckReport .. => (.network, byCommand)
  | .suPkgLoad .. => (.network, byCommand)
  | .suPkgStage .. => (.network, byCommand)
  | .suPkgStatus .. => (.network, byCommand)
  | .suRingCreate .. => (.network, byCommand)
  | .suRingDestroy .. => (.network, byCommand)
  | .suNop .. => (.network, byCommand)
  | .getInfo .. => (.network, byCommand)
  | .getStatus .. => (.network, byCommand)
  | .readActive .. => (.network, byCommand)
  | .readStaged .. => (.network, byCommand)
  | .commitPrepDeadline .. => (.network, [.tb, .su, .im, .log, .ev, .glob, .out])
  | .commitStrobe .. => (.network, [.tb, .su, .px, .sw, .qm, .se, .fr, .pe, .ar, .fb, .ps, .fo, .kv, .im, .pa, .grd, .log, .ev, .glob, .out])
  | .bankResyncEnd .. => (.network, [.su])
  | .bootSelectorWrite .. => (.network, [.su, .log])
  | .pkgVerifyDone .. => (.network, [.su, .im, .log, .ev, .glob, .out])
  | .pkgFlashWriteDone .. => (.network, [.su, .im, .log, .ev, .glob, .out])
  | .frameReceive .. => (.network, [.px, .sw, .im, .log, .ev, .out])
  | .pauseTimerExpiry .. => (.network, [.px])
  | .transmitStart .. => (.network, [.tb, .px, .sw, .fo, .im, .pa, .grd, .log, .ev, .out])
  | .transmitEnd .. => (.network, [.px, .sw, .fo, .im, .pa, .grd, .log, .ev, .out])
  | .linkStateChange .. => (.network, [.px, .sw, .im, .log, .ev, .out])
  | .supervisionTx .. => (.network, [.px, .qm, .pa])
  | .supervisionRx .. => (.network, [.px])
  | .ddtForget .. => (.network, [.px])
  | .proxyAgeing .. => (.network, [.px])
  | .pxStagePort .. => (.network, byCommand)
  | .pxStageFilter .. => (.network, byCommand)
  | .pxStageRedundancy .. => (.network, byCommand)
  | .pxStageMacsec .. => (.network, byCommand)
  | .pxMacsecSaSet .. => (.network, [.su, .px, .im, .pa, .log, .ev, .glob, .out])
  | .pxMacsecTxAn .. => (.network, [.su, .px, .im, .pa, .log, .ev, .glob, .out])
  | .pxPortRestart .. => (.network, [.su, .px, .sw, .im, .pa, .log, .ev, .glob, .out])
  | .pxReadCounters .. => (.network, [.su, .px, .im, .pa, .log, .ev, .glob, .out])
  | .transmitQueueEntry .. => (.network, [.sw, .fo, .im, .pa, .grd, .log, .ev, .out])
  | .holdExpiry .. => (.network, [.px, .sw, .im, .log, .ev, .out])
  | .maxAgeExpiry .. => (.network, [.px, .sw, .im, .log, .ev, .out])
  | .fdbAgeing .. => (.network, [.sw])
  | .mirrorEnable .. => (.network, [.sw])
  | .swStageLimits .. => (.network, byCommand)
  | .swStageFdb .. => (.network, byCommand)
  | .swStageVlan .. => (.network, byCommand)
  | .swStagePorts .. => (.network, byCommand)
  | .swStageMirror .. => (.network, byCommand)
  | .swReadCounters .. => (.network, [.su, .sw, .im, .pa, .log, .ev, .glob, .out])
  | .swFdbFlush .. => (.network, [.su, .sw, .im, .pa, .log, .ev, .glob, .out])
  | .swFdbRead .. => (.network, byCommand)
  | .packetOpen .. => (.network, [.sw, .qm, .fo, .im, .pa, .grd, .log, .ev, .out])
  | .narrowUnitWrite .. => (.network, [.qm, .fo, .im, .pa, .grd, .log, .ev, .out])
  | .endMarkWrite .. => (.network, [.qm, .fo, .im, .pa, .grd, .log, .ev, .out])
  | .producerRewind .. => (.network, [.qm])
  | .queueRead .. => (.network, [.qm, .fo, .im, .pa, .grd, .log, .ev, .out])
  | .queueMark .. => (.network, [.qm])
  | .queueRewind .. => (.network, [.qm])
  | .queueRelease .. => (.network, [.qm])
  | .fabricTake .. => (.network, [.px, .sw, .qm, .se, .pe, .fo, .im, .pa, .grd, .log, .ev, .out])
  | .qmStageQueues .. => (.network, byCommand)
  | .qmStageSteer .. => (.network, byCommand)
  | .qmReadCounters .. => (.network, [.su, .qm, .im, .pa, .log, .ev, .glob, .out])
  | .qmQueueFlush .. => (.network, [.su, .qm, .fo, .im, .pa, .log, .ev, .glob, .out])
  | .cabinetCycleStart .. => (.signal, [.tb, .se, .ar, .ps, .fo, .im, .log, .ev, .out])
  | .imageTransmit .. => (.signal, [.qm, .fo, .pa, .out])
  | .reportReceive .. => (.signal, [.qm, .ps, .fo, .im, .pa, .log, .ev, .out])
  | .announceReceive .. => (.signal, [.qm, .fo, .im, .pa, .log, .ev, .out])
  | .imageReceive .. => (.signal, [.qm, .fo, .pa])
  | .stationAbsent .. => (.signal, [.se, .ar, .ps, .fo, .im, .log, .ev, .out])
  | .collision .. => (.signal, [.fo])
  | .slottedStartupEnd .. => (.signal, [.fo, .im, .pa, .log, .ev, .out])
  | .foStageCabinet .. => (.signal, byCommand)
  | .foCabModeTest .. => (.signal, [.su, .fo, .im, .pa, .log, .ev, .glob, .out])
  | .foCabModeNormal .. => (.signal, [.su, .fo, .im, .pa, .log, .ev, .glob, .out])
  | .foCabRediscover .. => (.signal, [.su, .qm, .se, .ar, .ps, .fo, .im, .pa, .log, .ev, .glob, .out])
  | .svFrameReceive .. => (.signal, [.qm, .se, .fb, .fo, .kv, .im, .pa, .grd, .log, .ev, .out])
  | .gooseFrameReceive .. => (.signal, [.qm, .se, .ps, .fo, .kv, .im, .pa, .grd, .log, .ev, .out])
  | .instantRelease .. => (.signal, [.se, .fr, .fb, .ps, .im, .pa, .log, .ev, .out])
  | .gridSecond .. => (.signal, [.tb, .su, .se, .fr, .pe, .ar, .fb, .fo, .im, .pa, .log, .ev, .glob, .out])
  | .talExpiry .. => (.signal, [.se, .ps, .im, .log, .ev, .out])
  | .goosePublish .. => (.signal, [.qm, .se, .fo, .pa, .free, .out])
  | .gooseRetransmit .. => (.signal, [.qm, .se, .fo, .pa])
  | .seStageGroups .. => (.signal, byCommand)
  | .seStageSv .. => (.signal, byCommand)
  | .seStageGooseSub .. => (.signal, byCommand)
  | .seStageGoosePub .. => (.signal, byCommand)
  | .seReadCounters .. => (.signal, [.su, .se, .im, .pa, .log, .ev, .glob, .out])
  | .seStreamRelock .. => (.signal, [.su, .se, .fb, .im, .pa, .log, .ev, .glob, .out])
  | .laneOutputRelease .. => (.signal, [.fr, .pe, .ar, .ps, .fo, .im, .pa, .grd, .log, .ev, .out])
  | .gridCycleStart .. => (.signal, [.fr])
  | .trackingHold .. => (.signal, [.fr, .im, .log, .ev, .out])
  | .trackingNominal .. => (.signal, [.fr, .im, .log, .ev, .out])
  | .coefReloadDone .. => (.signal, [.fr, .pe])
  | .frStageLanes .. => (.signal, byCommand)
  | .frStageTrack .. => (.signal, byCommand)
  | .frStageCoef .. => (.signal, byCommand)
  | .frLaneRestart .. => (.signal, [.su, .fr, .pe, .im, .pa, .log, .ev, .glob, .out])
  | .estimateRelease .. => (.signal, [.fr, .pe, .ps, .im, .grd, .log, .ev, .free, .out])
  | .streamDeadline .. => (.signal, [.fr, .pe, .ps, .im, .log, .ev, .free, .out])
  | .dataFrameHandover .. => (.signal, [.qm, .pe, .fo, .pa])
  | .cfgChangeTimeout .. => (.signal, [.pe])
  | .c37CmdDataOff .. => (.signal, [.pe])
  | .c37CmdDataOn .. => (.signal, [.pe])
  | .c37CmdHeader .. => (.signal, [.qm, .pe, .pa])
  | .c37CmdCfg1 .. => (.signal, [.qm, .pe, .pa])
  | .c37CmdCfg2 .. => (.signal, [.qm, .pe, .pa])
  | .c37CmdUnsupported .. => (.signal, [.pe])
  | .c37CmdExtended .. => (.signal, [.pe])
  | .peStageChannels .. => (.signal, byCommand)
  | .peStageSets .. => (.signal, byCommand)
  | .peStageStreams .. => (.signal, byCommand)
  | .peReadResults .. => (.signal, byCommand)
  | .peStreamTxOn .. => (.signal, [.su, .pe, .im, .pa, .log, .ev, .glob, .out])
  | .peStreamTxOff .. => (.signal, [.su, .pe, .im, .pa, .log, .ev, .glob, .out])
  | .peReadCounters .. => (.signal, [.su, .pe, .im, .pa, .log, .ev, .glob, .out])
  | .wslFrameReceive .. => (.signal, [.fr, .ar, .im, .log, .ev, .free, .out])
  | .wslFrameDeadline .. => (.signal, [.fr, .ar, .im, .log, .ev, .free, .out])
  | .wslRetrainDone .. => (.signal, [.ar])
  | .fastEdgeArrival .. => (.signal, [.ar, .ps, .im, .log, .ev, .out])
  | .tdcCalibrationDone .. => (.signal, [.ar, .im, .pa, .log, .ev, .out])
  | .edgePop .. => (.signal, [.ar, .im, .out])
  | .patternTickEval .. => (.signal, [.ar, .im, .log, .ev, .free, .out])
  | .rowWrite .. => (.signal, [.ar, .im, .log, .ev, .free, .out])
  | .recordComplete .. => (.signal, [.ar, .im, .log, .ev, .out])
  | .arStageWsl .. => (.signal, byCommand)
  | .arStageEdges .. => (.signal, byCommand)
  | .arStageComparators .. => (.signal, byCommand)
  | .arStageRecorders .. => (.signal, byCommand)
  | .arTrigger .. => (.signal, [.su, .ar, .im, .pa, .log, .ev, .glob, .out])
  | .arRecorderArm .. => (.signal, [.su, .ar, .im, .pa, .log, .ev, .glob, .out])
  | .arRecorderStop .. => (.signal, [.su, .ar, .im, .pa, .log, .ev, .glob, .out])
  | .arRecordList .. => (.signal, byCommand)
  | .arRecordRead .. => (.signal, [.su, .ar, .im, .pa, .grd, .log, .ev, .glob, .out])
  | .arRecordRelease .. => (.signal, [.su, .ar, .im, .pa, .log, .ev, .glob, .out])
  | .arReadCounters .. => (.signal, [.su, .ar, .im, .pa, .log, .ev, .glob, .out])
  | .baseTick .. => (.control, [.tb, .su, .fb, .fo, .im, .pa, .log, .ev, .glob, .out])
  | .windowEnd .. => (.control, [.su, .fb, .fo, .im, .pa, .log, .ev, .glob, .out])
  | .majorFrameStart .. => (.control, [.tb, .su, .fb, .fo, .im, .pa, .log, .ev, .glob, .out])
  | .cycleStart .. => (.control, [.fb, .ps, .grd, .free])
  | .snapshotDone .. => (.control, [.fb])
  | .outputWrite .. => (.control, [.qm, .se, .ar, .fb, .ps, .fo, .im, .pa, .log, .ev, .out])
  | .runStateChange .. => (.control, [.su, .se, .ar, .fb, .ps, .im, .log, .ev, .glob, .out])
  | .inboxDispatch .. => (.control, [.qm, .fb, .fo, .im, .pa, .grd, .log, .ev, .out])
  | .engineReloadDone .. => (.control, [.fb, .im, .pa, .log, .ev, .out])
  | .tahrAdd .. => (.tahr, byTask)
  | .tahrSub .. => (.tahr, byTask)
  | .tahrAddi .. => (.tahr, byTask)
  | .tahrMul .. => (.tahr, byTask)
  | .tahrDiv .. => (.tahr, byTask)
  | .tahrRem .. => (.tahr, byTask)
  | .tahrAnd .. => (.tahr, byTask)
  | .tahrOr .. => (.tahr, byTask)
  | .tahrXor .. => (.tahr, byTask)
  | .tahrAndi .. => (.tahr, byTask)
  | .tahrOri .. => (.tahr, byTask)
  | .tahrXori .. => (.tahr, byTask)
  | .tahrShl .. => (.tahr, byTask)
  | .tahrShr .. => (.tahr, byTask)
  | .tahrSar .. => (.tahr, byTask)
  | .tahrShli .. => (.tahr, byTask)
  | .tahrShri .. => (.tahr, byTask)
  | .tahrSari .. => (.tahr, byTask)
  | .tahrLdi .. => (.tahr, byTask)
  | .tahrLdih .. => (.tahr, byTask)
  | .tahrMin .. => (.tahr, byTask)
  | .tahrMax .. => (.tahr, byTask)
  | .tahrCmpeq .. => (.tahr, byTask)
  | .tahrCmplt .. => (.tahr, byTask)
  | .tahrCmpltu .. => (.tahr, byTask)
  | .tahrCmple .. => (.tahr, byTask)
  | .tahrSel .. => (.tahr, byTask)
  | .tahrAbs .. => (.tahr, byTask)
  | .tahrFadd .. => (.tahr, byTask)
  | .tahrFsub .. => (.tahr, byTask)
  | .tahrFmul .. => (.tahr, byTask)
  | .tahrFdiv .. => (.tahr, byTask)
  | .tahrFsqrt .. => (.tahr, byTask)
  | .tahrFmadd .. => (.tahr, byTask)
  | .tahrFneg .. => (.tahr, byTask)
  | .tahrFabs .. => (.tahr, byTask)
  | .tahrFmin .. => (.tahr, byTask)
  | .tahrFmax .. => (.tahr, byTask)
  | .tahrFcmpeq .. => (.tahr, byTask)
  | .tahrFcmplt .. => (.tahr, byTask)
  | .tahrFcmple .. => (.tahr, byTask)
  | .tahrCvtif .. => (.tahr, byTask)
  | .tahrCvtfi .. => (.tahr, byTask)
  | .tahrCvtsd .. => (.tahr, byTask)
  | .tahrCvtds .. => (.tahr, byTask)
  | .tahrFsin .. => (.tahr, byTask)
  | .tahrFcos .. => (.tahr, byTask)
  | .tahrFatan2 .. => (.tahr, byTask)
  | .tahrFldi .. => (.tahr, byTask)
  | .tahrCadd .. => (.tahr, byTask)
  | .tahrCsub .. => (.tahr, byTask)
  | .tahrCmul .. => (.tahr, byTask)
  | .tahrCdiv .. => (.tahr, byTask)
  | .tahrCconj .. => (.tahr, byTask)
  | .tahrCmag .. => (.tahr, byTask)
  | .tahrCarg .. => (.tahr, byTask)
  | .tahrCmk .. => (.tahr, byTask)
  | .tahrCre .. => (.tahr, byTask)
  | .tahrCim .. => (.tahr, byTask)
  | .tahrCscl .. => (.tahr, byTask)
  | .tahrCpol .. => (.tahr, byTask)
  | .tahrCrot .. => (.tahr, byTask)
  | .tahrLd .. => (.tahr, byTask)
  | .tahrLdw .. => (.tahr, byTask)
  | .tahrLdwu .. => (.tahr, byTask)
  | .tahrLdb .. => (.tahr, byTask)
  | .tahrSt .. => (.tahr, byTask)
  | .tahrStw .. => (.tahr, byTask)
  | .tahrStb .. => (.tahr, byTask)
  | .tahrBr .. => (.tahr, byTask)
  | .tahrBeq .. => (.tahr, byTask)
  | .tahrBne .. => (.tahr, byTask)
  | .tahrBlt .. => (.tahr, byTask)
  | .tahrBge .. => (.tahr, byTask)
  | .tahrBltu .. => (.tahr, byTask)
  | .tahrLoop .. => (.tahr, byTask)
  | .tahrFbcall .. => (.tahr, byTask)
  | .tahrRet .. => (.tahr, byTask)
  | .tahrEnd .. => (.tahr, [.su, .fb, .ps, .fo, .im, .pa, .grd, .log, .ev, .glob, .out])
  | .tahrNop .. => (.tahr, byTask)
  | .tahrLdp .. => (.tahr, byTask)
  | .tahrLdpq .. => (.tahr, byTask)
  | .tahrLdpt .. => (.tahr, byTask)
  | .tahrStp .. => (.tahr, byTask)
  | .tahrStpt .. => (.tahr, byTask)
  | .tahrRdsr .. => (.tahr, byTask)
  | .tahrTon .. => (.tahr, byTask)
  | .tahrTof .. => (.tahr, byTask)
  | .tahrTp .. => (.tahr, byTask)
  | .tahrRtrig .. => (.tahr, byTask)
  | .tahrFtrig .. => (.tahr, byTask)
  | .tahrCtu .. => (.tahr, byTask)
  | .tahrCtd .. => (.tahr, byTask)
  | .tahrCtud .. => (.tahr, byTask)
  | .tahrQsend .. => (.tahr, byTask)
  | .tahrRaise .. => (.tahr, byTask)
  | .fbStageCode .. => (.control, byCommand)
  | .fbStageRxmap .. => (.control, byCommand)
  | .fbReadInst .. => (.control, [.su, .fb, .im, .pa, .grd, .log, .ev, .glob, .out])
  | .fbReadFault .. => (.control, byCommand)
  | .fbReadCounters .. => (.control, [.su, .fb, .im, .pa, .log, .ev, .glob, .out])
  | .fbStageSchedule .. => (.control, byCommand)
  | .fbStageTasks .. => (.control, byCommand)
  | .fbStageRetain .. => (.control, byCommand)
  | .runWarm .. => (.control, [.su, .fb, .im, .pa, .log, .ev, .glob, .out])
  | .runCold .. => (.control, [.su, .fb, .im, .pa, .log, .ev, .glob, .out])
  | .fbRunCtrlStop .. => (.control, [.su, .fb, .im, .pa, .log, .ev, .glob, .out])
  | .fbRunCtrlHold .. => (.control, [.su, .fb, .im, .pa, .log, .ev, .glob, .out])
  | .fbStep .. => (.control, [.su, .fb, .im, .pa, .log, .ev, .glob, .out])
  | .fbReadTasks .. => (.control, byCommand)
  | .batchApply .. => (.control, [.se, .ar, .fb, .ps, .fo, .im, .log, .ev, .out])
  | .staleMark .. => (.control, [.se, .ps])
  | .psStagePoints .. => (.control, byCommand)
  | .psReadPoints .. => (.control, [.su, .ar, .ps, .fo, .im, .pa, .grd, .log, .ev, .glob, .out])
  | .psWrite .. => (.control, [.su, .ps, .im, .pa, .log, .ev, .glob, .out])
  | .psForceSet .. => (.control, [.su, .ar, .ps, .im, .pa, .log, .ev, .glob, .out])
  | .psForceClear .. => (.control, [.su, .ar, .ps, .im, .pa, .log, .ev, .glob, .out])
  | .psForceListCurrent .. => (.control, byCommand)
  | .psForceListDropped .. => (.control, byCommand)
  | .heartbeatTx .. => (.control, [.fo, .out])
  | .heartbeatRx .. => (.control, [.tb, .su, .fo, .im, .pa, .grd, .log, .ev, .glob, .free, .out])
  | .partnerLost .. => (.control, [.fo, .im, .pa, .log, .ev, .out])
  | .brixigLinkState .. => (.control, [.fo, .im, .pa, .log, .ev, .out])
  | .relinquishRx .. => (.control, [.fo, .im, .pa, .grd, .log, .ev, .out])
  | .gooseStRx .. => (.control, [.se, .fo, .im, .grd, .log, .ev, .out])
  | .replRx .. => (.control, [.fo, .im, .grd, .log, .ev, .out])
  | .tasksRx .. => (.control, [.fo, .im, .grd, .log, .ev, .out])
  | .replEndRx .. => (.control, [.fo, .im, .grd, .log, .ev, .out])
  | .replTransmit .. => (.control, [.fo, .out])
  | .replApply .. => (.control, [.fb, .fo, .grd])
  | .discoveryTimeout .. => (.control, [.fo, .im, .pa, .log, .ev, .out])
  | .witnessClear .. => (.control, [.fo, .im, .pa, .log, .ev, .out])
  | .handoverEnd .. => (.signal, [.qm, .se, .fo, .pa, .free, .out])
  | .watchdogExpiry .. => (.control, [.fo, .im, .pa, .log, .ev, .out])
  | .timeSvTrigger .. => (.control, [.fo, .im, .pa, .log, .ev, .out])
  | .epochResetWindow .. => (.control, [.fo, .im, .pa, .log, .ev, .out])
  | .swapBoundary .. => (.control, [.su, .fo, .im, .pa, .log, .ev, .glob, .out])
  | .foWdogWrite .. => (.control, [.fo])
  | .foStagePair .. => (.control, byCommand)
  | .foStageRepl .. => (.control, byCommand)
  | .foRelinquish .. => (.control, [.su, .fo, .im, .pa, .log, .ev, .glob, .out])
  | .foSwap .. => (.control, [.su, .fo, .im, .pa, .log, .ev, .glob, .out])
  | .foRearm .. => (.control, [.su, .fo, .im, .pa, .log, .ev, .glob, .out])
  | .foEpochReset .. => (.control, [.su, .fo, .im, .pa, .log, .ev, .glob, .out])
  | .foReadPair .. => (.control, byCommand)
  | .miTapFrame .. => (.platform, [.px, .mi])
  | .miTimeRecord .. => (.platform, [.mi])
  | .miInstantClose .. => (.platform, [.px, .mi])
  | .zcTimeout .. => (.platform, [.px, .mi])
  | .tapLost .. => (.platform, [.px, .mi])
  | .timeOkTimeout .. => (.platform, [.mi])
  | .registerSave .. => (.platform, [.mi])
  | .powerFailSave .. => (.platform, [.mi])
  | .miPowerUp .. => (.platform, [.px, .mi])
  | .sealOpen .. => (.platform, [.px, .mi])
  | .readId .. => (.platform, [.out])
  | .readParam .. => (.platform, [.out])
  | .writeParam .. => (.platform, [.px, .mi, .out])
  | .seal_ .. => (.platform, [.px, .mi, .out])
  | .resetRegisters .. => (.platform, [.mi, .free, .out])
  | .clearLog .. => (.platform, [.mi, .out])
  | .readLog .. => (.platform, [.out])
  | .miUnknownCommand .. => (.platform, [.out])
  | .serviceByteTimeout .. => (.platform, [])
  | .writeParamTimeout .. => (.platform, [.mi])
  | .mailboxUpdate .. => (.platform, [.mi, .im, .log, .ev, .out])
  | .mailboxSilent .. => (.platform, [.mi, .im, .log, .ev, .out])
  | .kvKeyLoad .. => (.platform, [.su, .px, .kv, .im, .pa, .log, .ev, .glob, .free, .out])
  | .kvKeyGenerate .. => (.platform, [.su, .px, .kv, .im, .pa, .log, .ev, .glob, .free, .out])
  | .kvKeyDerive .. => (.platform, [.su, .px, .kv, .im, .pa, .log, .ev, .glob, .free, .out])
  | .kvKeyUnwrap .. => (.platform, [.su, .px, .kv, .im, .pa, .log, .ev, .glob, .free, .out])
  | .kvKeyAgree .. => (.platform, [.su, .kv, .im, .pa, .log, .ev, .glob, .out])
  | .kvKeyWrap .. => (.platform, [.su, .kv, .im, .pa, .log, .ev, .glob, .free, .out])
  | .kvKeyPublic .. => (.platform, [.su, .kv, .im, .pa, .log, .ev, .glob, .out])
  | .kvKeyRestrict .. => (.platform, [.su, .kv, .im, .pa, .log, .ev, .glob, .out])
  | .kvKeyRevoke .. => (.platform, [.su, .px, .kv, .im, .pa, .log, .ev, .glob, .out])
  | .kvKeyErase .. => (.platform, [.su, .px, .kv, .im, .pa, .log, .ev, .glob, .out])
  | .kvKeyInfo .. => (.platform, byCommand)
  | .kvGcm .. => (.platform, [.su, .kv, .im, .pa, .log, .ev, .glob, .free, .out])
  | .kvHmac .. => (.platform, [.su, .kv, .im, .pa, .log, .ev, .glob, .out])
  | .kvHash .. => (.platform, [.su, .kv, .im, .pa, .log, .ev, .glob, .out])
  | .kvSign .. => (.platform, [.su, .kv, .im, .pa, .log, .ev, .glob, .out])
  | .kvVerify .. => (.platform, [.su, .kv, .im, .pa, .log, .ev, .glob, .out])
  | .kvRandom .. => (.platform, [.su, .im, .pa, .log, .ev, .glob, .free, .out])
  | .kvLcAdvance .. => (.platform, .out :: byReset)
  | .kvFwSvnRaise .. => (.platform, [.su, .kv, .im, .pa, .log, .ev, .glob, .out])
  | .entropyHealthFail .. => (.platform, [.kv, .im, .log, .ev, .out])
  | .entropyRecovered .. => (.platform, [.kv])
  | .imStageShares .. => (.platform, byCommand)
  | .imStageEvents .. => (.platform, byCommand)
  | .imInstanceReset .. => (.platform, [.tb, .su, .qm, .ar, .fb, .ps, .kv, .im, .pa, .log, .ev, .glob, .out])
  | .imHostqSet .. => (.platform, byCommand)
  | .imInstanceFreeze .. => (.platform, byCommand)
  | .imInstanceSave .. => (.platform, [.su, .im, .pa, .log, .ev, .glob, .free, .out])
  | .imInstanceRestore .. => (.platform, byCommand)
  | .imInstanceThaw .. => (.platform, byCommand)
  | .imInstanceInfo .. => (.platform, byCommand)
  | .resetEnd .. => (.platform, [.su, .fb, .im, .log, .ev, .glob, .out])
  | .freezeBoundary .. => (.platform, [.su, .fb, .im, .log, .ev, .glob, .out])
  | .restoreApply .. => (.platform, [.tb, .se, .ar, .fb, .ps, .im])
  | .thawBoundary .. => (.platform, [.su, .qm, .se, .fb, .fo, .im, .pa, .log, .ev, .glob, .free, .out])
  | .hostqTailWrite .. => (.platform, [.im])
  | .hostqDescriptor .. => (.platform, [.qm, .fo, .im, .pa, .grd, .log, .ev, .out])
  | .resetRequestWrite .. => (.platform, [.im, .log, .ev, .out])
  | .eventMaskWrite .. => (.platform, [.im, .ev, .out])
  | .functionLevelReset .. => (.platform, [.tb, .su, .sw, .qm, .ar, .fb, .ps, .kv, .im, .log, .ev, .glob, .out])
  | .perstAssert .. => (.platform, [.tb, .su, .sw, .qm, .ar, .fb, .ps, .kv, .im, .log, .ev, .glob, .out])
  | .paStageDomains .. => (.platform, byCommand)
  | .paStageDuiker .. => (.platform, byCommand)
  | .paDomainWake .. => (.platform, byCommand)
  | .paDomainOff .. => (.platform, [.tb, .su, .px, .sw, .se, .fr, .pe, .ar, .fb, .ps, .im, .pa, .log, .ev, .glob, .out])
  | .paDomainLock .. => (.platform, [.tb, .su, .px, .sw, .se, .fr, .pe, .ar, .fb, .ps, .im, .pa, .log, .ev, .glob, .out])
  | .paDomainUnlock .. => (.platform, byCommand)
  | .paSleep .. => (.platform, byCommand)
  | .paRetainRead .. => (.platform, byCommand)
  | .paRetainWrite .. => (.platform, byCommand)
  | .paStartupReport .. => (.platform, byCommand)
  | .paTamperClear .. => (.platform, byCommand)
  | .sleepStopBoundary .. => (.platform, [.se, .ar, .fb, .ps, .im, .pa, .log, .ev, .out])
  | .rtcCalibrationDone .. => (.platform, .out :: byReset)
  | .domainIdleOff .. => (.platform, [.tb, .su, .px, .sw, .se, .fr, .pe, .ar, .fb, .ps, .im, .pa, .log, .ev, .glob, .out])
  | .domainDataAccess .. => (.platform, [.im, .pa, .log, .ev, .out])
  | .domainOn .. => (.platform, [.tb, .su, .px, .sw, .se, .fr, .pe, .ar, .fb, .ps, .im, .pa, .grd, .log, .ev, .glob, .out])
  | .pd2WakeDone .. => (.platform, [.px, .sw, .se, .fr, .pe, .ar, .fb, .im, .pa, .grd, .log, .ev, .out])
  | .ioSupplyLow .. => (.platform, byReset)
  | .ioSupplyHigh .. => (.platform, [.pa])
  | .duikerBrownout .. => (.platform, [.pa])
  | .brownoutReset .. => (.platform, byReset)
  | .opsecsCopy .. => (.platform, [.pa])
  | .wakeNFall .. => (.platform, byCommand)
  | .rtcAlarm .. => (.platform, byCommand)
  | .tamperSample .. => (.platform, byCommand)
  | .tamperLatch .. => (.platform, byCommand)
  | .powerGood .. => (.platform, [.im, .pa, .log, .ev, .out])
  | .secureBootDone .. => (.platform, [.kv, .im, .pa, .free, .out])
  | .duikerRestoreDone .. => (.platform, [.tb, .pa])
  | .dramTrainingDone .. => (.platform, [.tb, .su, .px, .sw, .se, .fr, .pe, .ar, .fb, .ps, .im, .pa, .log, .ev, .glob, .out])
  | .suReady .. => (.platform, [.su, .px, .qm, .kv, .im, .pa, .log, .ev, .glob, .out])
  | .packageLoaded .. => (.platform, [.tb, .su, .px, .sw, .se, .fr, .pe, .ar, .fb, .ps, .im, .pa, .log, .ev, .glob, .out])
  | .pointStoreBuilt .. => (.platform, [.ps, .im, .pa, .log, .ev, .out])
  | .portsUp .. => (.platform, [.tb, .su, .px, .sw, .qm, .se, .fr, .pe, .ar, .fb, .ps, .fo, .kv, .im, .pa, .grd, .log, .ev, .glob, .out])
  | .lockTimeout .. => (.platform, [.se, .fb, .im, .pa, .log, .ev, .out])
  | .instancesStart .. => (.platform, [.fb, .im, .pa, .log, .ev, .out])
  | .thermTrip .. => (.platform, [.glob])
  | .pmbusWrite .. => (.platform, [.pmb, .out])
  | .pmbusRead .. => (.platform, [.pmb, .out])
  | .pmbusDone .. => (.platform, [.pmb])
  | .pmbusTimeout .. => (.platform, [.pmb])
  | .borClearWrite .. => (.platform, [.pa])
  | .logClearWrite .. => (.platform, [.log])
  | .logClearDone .. => (.platform, [.im, .log, .ev, .out])
  | .logRecordWrite .. => (.platform, [.im, .log, .ev, .out])
  | .scrubRead .. => (.platform, [.ar, .ps, .fo, .im, .pa, .grd, .log, .ev, .out])
  | .gerrRecordPop .. => (.platform, [.grd, .out])
  | .perstNRise .. => (.platform, [.su, .im, .pa, .log, .ev, .glob, .free, .out])
  | .sealClose .. => (.platform, [.mi])
  | .engineSlot .. => (.platform, [.su, .px, .kv, .im, .log, .ev, .glob, .free, .out])
  | .dmaReadCompletion .. => (.platform, [.im])
  | .illegal .. => (.tahr, byTask)
  | .accessAtFetch .. => (.tahr, byTask)
  | .thermTripNHigh .. => (.platform, [.glob])

end Sys2Proof.Machine
end

