-- ==== Sys2Proof/WellFormed.lean ====
section
/-! DEFINITION. Which operands name what the block has: the checks that the types of `Instr` leave open. A command that fails them is no
command of this block; its meaning then changes nothing it does not name. -/

namespace Sys2Proof

/-- An instance number, 1–64 (R514). -/
def instOk (i : Nat) : Bool := decide (1 ≤ i ∧ i ≤ 64)

/-- An owner that has sessions, tasks and items: the manager or an instance (R8). -/
def ownerOk (o : Tag) : Bool := decide (o ≤ 64)

/-- A ring pair: MRING0–MRING3, or ring 0 or 1 of an instance (R60). -/
def ringOk : RingId → Bool
  | .m _ => true
  | .inst i r => instOk i && decide (r < 2)

/-- A command entry as a ring can hold it: PLEN is a 16-bit field, IND_LEN and BUF_LEN 32-bit ones (R67). -/
def cmdOk (c : Cmd) : Bool := ringOk c.ring && decide (c.plen < 65536 ∧ c.indLen < 2 ^ 32 ∧ c.bufLen < 2 ^ 32)

/-- A power domain, PD1–PD8 (R536). -/
def domainOk (n : Fin 9) : Bool := decide (1 ≤ n.val)

/-- A station of a cabinet segment, node 2–31 (R152). -/
def nodeOk (k : Fin 32) : Bool := decide (2 ≤ k.val)

/-- A register offset of a window of BAR0 (0), BAR2 (1–64) or BAR4 (65) (R510). -/
def offsetOk (window o : Nat) : Bool := decide (o < (if window = 0 then 0x1000000 else if window ≤ 64 then 0x100000 else 0x10000))

/-- A 32-byte packet header (R188). -/
def headerOk (l : List Byte) : Bool := decide (l.length = 32)

/-- The valid bytes of a narrow unit: 8, or 1–8 in the last one (R188). -/
def unitOk (last : Bool) (l : List Byte) : Bool := decide (l.length ≤ 8 ∧ (if last then 1 else 8) ≤ l.length)

/-- The operands of a command name what the block has. -/
def Instr.wellFormed : Instr → Bool
  | .compareFire _ => true
  | .pinOutputFire _ => true
  | .pulseEnd _ => true
  | .anchorAdvance => true
  | .servoUpdate => true
  | .sourceLost => true
  | .lossTimeout => true
  | .ptpMessageRx _ _ _ => true
  | .ptpMessageTx _ _ => true
  | .captureEdge _ _ _ _ => true
  | .irigFrame _ => true
  | .capturePop _ _ _ => true
  | .txtsPop _ _ _ => true
  | .ltNowRead _ _ => true
  | .rtcRead _ _ _ => true
  | .rsUpperRead _ _ => true
  | .counterRead _ window o _ => offsetOk window.val o
  | .registerWrite window o _ _ => offsetOk window.val o
  | .tbStagePtp c _ => cmdOk c
  | .tbStageSources c _ => cmdOk c
  | .tbStagePortLat c _ => cmdOk c
  | .tbStagePins c _ => cmdOk c
  | .tbStageTcuAssign c _ => cmdOk c
  | .tbTcuArm c _ _ _ _ => cmdOk c
  | .tbTcuDisarm c _ => cmdOk c
  | .tbReadTime c => cmdOk c
  | .ringTailWrite ring _ => ringOk ring
  | .ringReleaseWrite ring _ => ringOk ring
  | .ringEnable _ _ => true
  | .commandFetch r e _ _ => ringOk r && e.length == 64
  | .suSessionOpen c => cmdOk c
  | .suStageCheck c _ => cmdOk c
  | .suCommit c _ _ => cmdOk c
  | .suSessionAbort c => cmdOk c
  | .suSessionStatus c => cmdOk c
  | .suCheckReport c => cmdOk c
  | .suPkgLoad c _ _ _ => cmdOk c
  | .suPkgStage c => cmdOk c
  | .suPkgStatus c => cmdOk c
  | .suRingCreate c i _ _ _ _ _ => cmdOk c && instOk i
  | .suRingDestroy c i _ => cmdOk c && instOk i
  | .suNop c => cmdOk c
  | .getInfo c _ => cmdOk c
  | .getStatus c _ => cmdOk c
  | .readActive c _ _ _ _ => cmdOk c
  | .readStaged c _ _ _ _ => cmdOk c
  | .commitPrepDeadline _ => true
  | .commitStrobe => true
  | .bankResyncEnd => true
  | .bootSelectorWrite => true
  | .pkgVerifyDone => true
  | .pkgFlashWriteDone => true
  | .frameReceive _ _ _ _ => true
  | .pauseTimerExpiry _ => true
  | .transmitStart _ _ => true
  | .transmitEnd _ _ => true
  | .linkStateChange _ _ _ _ _ => true
  | .supervisionTx _ => true
  | .supervisionRx _ _ => true
  | .ddtForget _ => true
  | .proxyAgeing _ => true
  | .pxStagePort c _ _ => cmdOk c
  | .pxStageFilter c _ _ => cmdOk c
  | .pxStageRedundancy c _ _ => cmdOk c
  | .pxStageMacsec c _ _ => cmdOk c
  | .pxMacsecSaSet c _ _ _ _ => cmdOk c
  | .pxMacsecTxAn c _ _ => cmdOk c
  | .pxPortRestart c _ => cmdOk c
  | .pxReadCounters c _ => cmdOk c
  | .transmitQueueEntry _ _ _ => true
  | .holdExpiry _ _ => true
  | .maxAgeExpiry _ _ => true
  | .fdbAgeing => true
  | .mirrorEnable _ => true
  | .swStageLimits c _ => cmdOk c
  | .swStageFdb c _ => cmdOk c
  | .swStageVlan c _ => cmdOk c
  | .swStagePorts c _ => cmdOk c
  | .swStageMirror c _ => cmdOk c
  | .swReadCounters c _ => cmdOk c
  | .swFdbFlush c _ => cmdOk c
  | .swFdbRead c => cmdOk c
  | .packetOpen _ _ header _ _ _ => headerOk header
  | .narrowUnitWrite _ bytes _ => unitOk false bytes
  | .endMarkWrite _ bytes _ => unitOk true bytes
  | .producerRewind _ => true
  | .queueRead _ rq _ => ownerOk rq
  | .queueMark _ => true
  | .queueRewind _ => true
  | .queueRelease _ => true
  | .fabricTake _ _ => true
  | .qmStageQueues c _ => cmdOk c
  | .qmStageSteer c _ => cmdOk c
  | .qmReadCounters c _ _ => cmdOk c
  | .qmQueueFlush c _ _ => cmdOk c
  | .cabinetCycleStart => true
  | .imageTransmit _ => true
  | .reportReceive _ _ _ => true
  | .announceReceive _ _ _ => true
  | .imageReceive _ _ _ => true
  | .stationAbsent _ k => nodeOk k
  | .collision _ => true
  | .slottedStartupEnd _ => true
  | .foStageCabinet c _ => cmdOk c
  | .foCabModeTest c _ => cmdOk c
  | .foCabModeNormal c _ => cmdOk c
  | .foCabRediscover c _ => cmdOk c
  | .svFrameReceive _ _ _ => true
  | .gooseFrameReceive _ _ _ => true
  | .instantRelease _ => true
  | .gridSecond => true
  | .talExpiry _ => true
  | .goosePublish _ => true
  | .gooseRetransmit _ => true
  | .seStageGroups c _ _ => cmdOk c
  | .seStageSv c _ => cmdOk c
  | .seStageGooseSub c _ => cmdOk c
  | .seStageGoosePub c _ => cmdOk c
  | .seReadCounters c _ _ => cmdOk c
  | .seStreamRelock c _ _ => cmdOk c
  | .laneOutputRelease _ _ => true
  | .gridCycleStart _ => true
  | .trackingHold _ => true
  | .trackingNominal _ => true
  | .coefReloadDone _ _ => true
  | .frStageLanes c _ => cmdOk c
  | .frStageTrack c _ => cmdOk c
  | .frStageCoef c _ => cmdOk c
  | .frLaneRestart c _ _ => cmdOk c
  | .estimateRelease _ _ => true
  | .streamDeadline _ => true
  | .dataFrameHandover _ => true
  | .cfgChangeTimeout _ => true
  | .c37CmdDataOff _ => true
  | .c37CmdDataOn _ => true
  | .c37CmdHeader _ _ => true
  | .c37CmdCfg1 _ _ => true
  | .c37CmdCfg2 _ _ => true
  | .c37CmdUnsupported _ => true
  | .c37CmdExtended _ => true
  | .peStageChannels c _ => cmdOk c
  | .peStageSets c _ => cmdOk c
  | .peStageStreams c _ => cmdOk c
  | .peReadResults c _ _ => cmdOk c
  | .peStreamTxOn c _ _ => cmdOk c
  | .peStreamTxOff c _ _ => cmdOk c
  | .peReadCounters c _ _ => cmdOk c
  | .wslFrameReceive _ _ => true
  | .wslFrameDeadline _ => true
  | .wslRetrainDone _ => true
  | .fastEdgeArrival _ _ _ _ => true
  | .tdcCalibrationDone _ _ => true
  | .edgePop _ _ _ => true
  | .patternTickEval _ => true
  | .rowWrite _ => true
  | .recordComplete _ => true
  | .arStageWsl c _ => cmdOk c
  | .arStageEdges c _ => cmdOk c
  | .arStageComparators c _ => cmdOk c
  | .arStageRecorders c _ => cmdOk c
  | .arTrigger c _ => cmdOk c
  | .arRecorderArm c _ => cmdOk c
  | .arRecorderStop c _ => cmdOk c
  | .arRecordList c _ => cmdOk c
  | .arRecordRead c _ _ _ _ _ => cmdOk c
  | .arRecordRelease c _ _ => cmdOk c
  | .arReadCounters c _ => cmdOk c
  | .baseTick => true
  | .windowEnd _ => true
  | .majorFrameStart => true
  | .cycleStart _ => true
  | .snapshotDone _ => true
  | .outputWrite _ => true
  | .runStateChange o => ownerOk o
  | .inboxDispatch _ _ _ => true
  | .engineReloadDone _ => true
  | .tahrAdd _ => true
  | .tahrSub _ => true
  | .tahrAddi _ => true
  | .tahrMul _ => true
  | .tahrDiv _ => true
  | .tahrRem _ => true
  | .tahrAnd _ => true
  | .tahrOr _ => true
  | .tahrXor _ => true
  | .tahrAndi _ => true
  | .tahrOri _ => true
  | .tahrXori _ => true
  | .tahrShl _ => true
  | .tahrShr _ => true
  | .tahrSar _ => true
  | .tahrShli _ => true
  | .tahrShri _ => true
  | .tahrSari _ => true
  | .tahrLdi _ => true
  | .tahrLdih _ => true
  | .tahrMin _ => true
  | .tahrMax _ => true
  | .tahrCmpeq _ => true
  | .tahrCmplt _ => true
  | .tahrCmpltu _ => true
  | .tahrCmple _ => true
  | .tahrSel _ => true
  | .tahrAbs _ => true
  | .tahrFadd _ => true
  | .tahrFsub _ => true
  | .tahrFmul _ => true
  | .tahrFdiv _ => true
  | .tahrFsqrt _ => true
  | .tahrFmadd _ => true
  | .tahrFneg _ => true
  | .tahrFabs _ => true
  | .tahrFmin _ => true
  | .tahrFmax _ => true
  | .tahrFcmpeq _ => true
  | .tahrFcmplt _ => true
  | .tahrFcmple _ => true
  | .tahrCvtif _ => true
  | .tahrCvtfi _ => true
  | .tahrCvtsd _ => true
  | .tahrCvtds _ => true
  | .tahrFsin _ => true
  | .tahrFcos _ => true
  | .tahrFatan2 _ => true
  | .tahrFldi _ => true
  | .tahrCadd _ => true
  | .tahrCsub _ => true
  | .tahrCmul _ => true
  | .tahrCdiv _ => true
  | .tahrCconj _ => true
  | .tahrCmag _ => true
  | .tahrCarg _ => true
  | .tahrCmk _ => true
  | .tahrCre _ => true
  | .tahrCim _ => true
  | .tahrCscl _ => true
  | .tahrCpol _ => true
  | .tahrCrot _ => true
  | .tahrLd _ => true
  | .tahrLdw _ => true
  | .tahrLdwu _ => true
  | .tahrLdb _ => true
  | .tahrSt _ => true
  | .tahrStw _ => true
  | .tahrStb _ => true
  | .tahrBr _ => true
  | .tahrBeq _ => true
  | .tahrBne _ => true
  | .tahrBlt _ => true
  | .tahrBge _ => true
  | .tahrBltu _ => true
  | .tahrLoop _ => true
  | .tahrFbcall _ => true
  | .tahrRet _ => true
  | .tahrEnd _ => true
  | .tahrNop _ => true
  | .tahrLdp _ => true
  | .tahrLdpq _ => true
  | .tahrLdpt _ => true
  | .tahrStp _ => true
  | .tahrStpt _ => true
  | .tahrRdsr _ => true
  | .tahrTon _ => true
  | .tahrTof _ => true
  | .tahrTp _ => true
  | .tahrRtrig _ => true
  | .tahrFtrig _ => true
  | .tahrCtu _ => true
  | .tahrCtd _ => true
  | .tahrCtud _ => true
  | .tahrQsend _ => true
  | .tahrRaise _ => true
  | .fbStageCode c _ => cmdOk c
  | .fbStageRxmap c _ => cmdOk c
  | .fbReadInst c _ _ _ => cmdOk c
  | .fbReadFault c o _ => cmdOk c && ownerOk o
  | .fbReadCounters c _ => cmdOk c
  | .fbStageSchedule c _ _ => cmdOk c
  | .fbStageTasks c o _ _ => cmdOk c && ownerOk o
  | .fbStageRetain c o _ => cmdOk c && ownerOk o
  | .runWarm c o => cmdOk c && ownerOk o
  | .runCold c o => cmdOk c && ownerOk o
  | .fbRunCtrlStop c o => cmdOk c && ownerOk o
  | .fbRunCtrlHold c o => cmdOk c && ownerOk o
  | .fbStep c o _ _ => cmdOk c && ownerOk o
  | .fbReadTasks c o => cmdOk c && ownerOk o
  | .batchApply => true
  | .staleMark _ => true
  | .psStagePoints c _ _ _ => cmdOk c
  | .psReadPoints c _ _ _ => cmdOk c
  | .psWrite c _ _ => cmdOk c
  | .psForceSet c _ _ => cmdOk c
  | .psForceClear c _ _ => cmdOk c
  | .psForceListCurrent c => cmdOk c
  | .psForceListDropped c => cmdOk c
  | .heartbeatTx => true
  | .heartbeatRx _ => true
  | .partnerLost => true
  | .brixigLinkState _ => true
  | .relinquishRx _ => true
  | .gooseStRx _ => true
  | .replRx _ => true
  | .tasksRx _ => true
  | .replEndRx _ => true
  | .replTransmit => true
  | .replApply => true
  | .discoveryTimeout => true
  | .witnessClear => true
  | .handoverEnd => true
  | .watchdogExpiry => true
  | .timeSvTrigger => true
  | .epochResetWindow => true
  | .swapBoundary => true
  | .foWdogWrite => true
  | .foStagePair c _ => cmdOk c
  | .foStageRepl c o _ => cmdOk c && ownerOk o
  | .foRelinquish c => cmdOk c
  | .foSwap c => cmdOk c
  | .foRearm c => cmdOk c
  | .foEpochReset c => cmdOk c
  | .foReadPair c => cmdOk c
  | .miTapFrame _ _ => true
  | .miTimeRecord _ => true
  | .miInstantClose _ => true
  | .zcTimeout _ => true
  | .tapLost _ => true
  | .timeOkTimeout => true
  | .registerSave => true
  | .powerFailSave _ => true
  | .miPowerUp _ _ => true
  | .sealOpen => true
  | .readId _ => true
  | .readParam _ => true
  | .writeParam _ => true
  | .seal_ _ => true
  | .resetRegisters _ => true
  | .clearLog _ => true
  | .readLog _ => true
  | .miUnknownCommand _ => true
  | .serviceByteTimeout _ => true
  | .writeParamTimeout => true
  | .mailboxUpdate _ => true
  | .mailboxSilent => true
  | .kvKeyLoad c _ _ _ _ => cmdOk c
  | .kvKeyGenerate c _ => cmdOk c
  | .kvKeyDerive c _ _ => cmdOk c
  | .kvKeyUnwrap c _ _ => cmdOk c
  | .kvKeyAgree c _ _ _ => cmdOk c
  | .kvKeyWrap c _ _ => cmdOk c
  | .kvKeyPublic c _ => cmdOk c
  | .kvKeyRestrict c _ _ => cmdOk c
  | .kvKeyRevoke c _ _ => cmdOk c
  | .kvKeyErase c _ _ => cmdOk c
  | .kvKeyInfo c _ => cmdOk c
  | .kvGcm c _ => cmdOk c
  | .kvHmac c _ _ _ _ => cmdOk c
  | .kvHash c _ _ => cmdOk c
  | .kvSign c _ _ _ => cmdOk c
  | .kvVerify c _ _ _ _ => cmdOk c
  | .kvRandom c _ => cmdOk c
  | .kvLcAdvance c _ _ => cmdOk c
  | .kvFwSvnRaise c => cmdOk c
  | .entropyHealthFail => true
  | .entropyRecovered => true
  | .imStageShares c _ => cmdOk c
  | .imStageEvents c _ => cmdOk c
  | .imInstanceReset c _ => cmdOk c
  | .imHostqSet c i _ _ => cmdOk c && instOk i
  | .imInstanceFreeze c i => cmdOk c && instOk i
  | .imInstanceSave c i _ => cmdOk c && instOk i
  | .imInstanceRestore c i _ => cmdOk c && instOk i
  | .imInstanceThaw c i => cmdOk c && instOk i
  | .imInstanceInfo c i => cmdOk c && instOk i
  | .resetEnd i => instOk i
  | .freezeBoundary i => instOk i
  | .restoreApply i => instOk i
  | .thawBoundary i => instOk i
  | .hostqTailWrite i _ _ => instOk i
  | .hostqDescriptor i _ _ _ _ => instOk i
  | .resetRequestWrite i _ => instOk i
  | .eventMaskWrite _ _ _ => true
  | .functionLevelReset => true
  | .perstAssert => true
  | .paStageDomains c _ => cmdOk c
  | .paStageDuiker c _ => cmdOk c
  | .paDomainWake c _ => cmdOk c
  | .paDomainOff c _ => cmdOk c
  | .paDomainLock c _ => cmdOk c
  | .paDomainUnlock c _ => cmdOk c
  | .paSleep c _ _ => cmdOk c
  | .paRetainRead c _ _ => cmdOk c
  | .paRetainWrite c _ _ => cmdOk c
  | .paStartupReport c => cmdOk c
  | .paTamperClear c _ => cmdOk c
  | .sleepStopBoundary _ => true
  | .rtcCalibrationDone _ => true
  | .domainIdleOff n => domainOk n
  | .domainDataAccess n _ _ => domainOk n
  | .domainOn n => domainOk n
  | .pd2WakeDone => true
  | .ioSupplyLow => true
  | .ioSupplyHigh => true
  | .duikerBrownout _ => true
  | .brownoutReset _ => true
  | .opsecsCopy _ => true
  | .wakeNFall _ => true
  | .rtcAlarm _ => true
  | .tamperSample _ _ _ => true
  | .tamperLatch _ _ => true
  | .powerGood _ => true
  | .secureBootDone _ _ => true
  | .duikerRestoreDone _ => true
  | .dramTrainingDone _ => true
  | .suReady _ => true
  | .packageLoaded _ => true
  | .pointStoreBuilt => true
  | .portsUp => true
  | .lockTimeout => true
  | .instancesStart => true
  | .thermTrip => true
  | .pmbusWrite _ _ _ _ _ => true
  | .pmbusRead _ _ _ _ _ => true
  | .pmbusDone _ _ => true
  | .pmbusTimeout => true
  | .borClearWrite => true
  | .logClearWrite _ => true
  | .logClearDone => true
  | .logRecordWrite => true
  | .scrubRead r _ _ w _ => match w with
    | .beats _ => r == 0
    | .symbols _ => r != 0
  | .gerrRecordPop _ _ => true
  | .perstNRise _ => true
  | .sealClose => true
  | .engineSlot _ => true
  | .dmaReadCompletion i _ => instOk i
  | .illegal _ => true
  | .accessAtFetch _ => true
  | .thermTripNHigh => true

end Sys2Proof
end

