-- ==== Sys2Proof/Safety.lean ====
section
/-! DEFINITION. What the statements say in words of their own: a step that goes on, a command that reaches its body and how it is answered,
the parts of the state, and the invariants that every step keeps. -/

namespace Sys2Proof.Machine

/-- The answer is a next state. -/
def goesOn (r : Res) : Prop := ∃ t, r = .next t

/-- The state in which a command's own body runs: it has started, and has made its access to the power domain it needs (R65, R539). -/
def entered (op : BitVec 16) (c : Cmd) (s : State) : State := (opAccess op.toNat (begun c s)).1

/-- A command reaches its own body (R65, R616, R626): start-up phase 4 has ended, the command is next in its ring, its issuer's instance is neither
resetting nor absent, the issuer may issue the opcode, and no power domain turns the command away. -/
def runs (op : BitVec 16) (openTo : Bool) (c : Cmd) (s : State) : Bool :=
  s.glob.ready && due op c s && !dropped c (begun c s) && (issuer c == 0 || openTo) && (opAccess op.toNat (begun c s)).2.isNone

/-- The next state in which a command has its reply, or has it waiting in the order of R65; where the firmware fails after the operation the reply
is INTERNAL in place of `b` (R73). -/
def answered (op : BitVec 16) (c : Cmd) (b : ReplyBody) (s : State) : Res := .next (reply { cmd := c, opcode := op } b s)

/-- What a staged command requires (R79–R81, R626): it reaches its body, the session takes it, the opcode's own check passes over the session's
view with the items laid in, and the bytes fit the owner's share of the staging area. -/
def stagedOk (op : BitVec 16) (openTo : Bool) (c : Cmd) (items : List Item) (check : List Item → State → Option Status) (s : State) : Bool :=
  runs op openTo c s && sessionRefusal (begun c s) c (op.toNat / 256) == none &&
  (let s := entered op c s
   check (overlay items (sessionView s (issuer c))) s == none &&
   decide ((getSession s (issuer c)).bytes + (c.plen + c.indLen) ≤ stagingShare s (issuer c)))

/-- The next state of an accepted staged command (R79, R80): the items joined to the session, which is OPEN; the reply is OK. -/
def stagedNext (op : BitVec 16) (c : Cmd) (items : List Item) (s : State) : Res :=
  let s := entered op c s
  let o := issuer c
  let x := getSession s o
  answered op c (st .ok) (putSession s o
    { x with staged := overlay items x.staged, bytes := x.bytes + (c.plen + c.indLen), state := .opened, package := none })

/-- A command starts and its issuer may issue the opcode (R65, R616, R626). -/
def started (op : BitVec 16) (openTo : Bool) (c : Cmd) (s : State) : Bool :=
  s.glob.ready && due op c s && !dropped c (begun c s) && (issuer c == 0 || openTo)

/-- The refusal of a started staged command, with the state it is answered in (R79–R81, R626): the session's, which SU gives before the access to
the power domain; that of the access; that of the opcode's own check; QUOTA where the bytes pass the owner's share of the staging area. -/
def stageRefusal (op : BitVec 16) (c : Cmd) (items : List Item) (check : List Item → State → Option Status) (s : State) :
    Option (ReplyBody × State) :=
  match sessionRefusal (begun c s) c (op.toNat / 256) with
  | some e => some (suSt e, begun c s)
  | none =>
    let t := entered op c s
    match (opAccess op.toNat (begun c s)).2, check (overlay items (sessionView t (issuer c))) t with
    | some b, _ => some (b, t)
    | none, some e => some (st e, t)
    | none, none =>
      if stagingShare t (issuer c) < (getSession t (issuer c)).bytes + (c.plen + c.indLen) then some (st .quota, t) else none

/-- The next state of an accepted SU_PKG_LOAD (R93): no package held, the new one being verified; PENDING with ASYNC, else the reply comes with the
verification, or with STORE with the flash write. -/
def afterLoad (c : Cmd) (p : Package) (store : Bool) (s : State) : State :=
  let w : Waiting := { cmd := c, opcode := 0x0018 }
  let t := onSu (fun u => { u with pkg := { u.pkg with held := none, stored := false, loadStore := store, loading := some (p, .verifying, w) } }) s
  if c.async then reply w (st .pending) t else outstanding w t

/-- A good frame of the segment's protocol and of a message type has passed through its receive queue (R134, R182): the state after it. -/
def cabHeard (g : Fin 2) (type : CabType) (rxLt : LT) (f : Frame) (s : State) : Option State :=
  let x := getSeg s g.val
  let c := readCab f.bytes
  if x.cfg.en = true ∧ rxClass f.len 1536 f.fcsOk = .good ∧ c.etype = x.cfg.etype ∧ c.type = type ∧ type ≠ .reserved then
    match viaQueue (0x16 + g.val) (noticeBytes s (0x16 + g.val) rxLt (rxStatusWord 0 0 f.codeErr false false) (0x10 + g.val) 0 0 false) f.bytes s with
    | (true, t) => some t
    | (false, _) => none
  else none

/-- A message of a type that the partner's link delivers whole (R417–R419): the bytes of its header and its payload words, as many as the header
counts. -/
def brxHeard (type : Nat) (w : BrxWords) (s : State) : Option (List Byte × List (Vector Byte 36)) :=
  match w.map guardDeliver with
  | some h :: l =>
    if s.fo.linkUp = true ∧ h[32] = 0 ∧ fieldBE (brxData h) 0 1 = type then
      match allSome l with
      | some p => if p.length = fieldBE (brxData h) 2 2 then some (brxData h, p) else none
      | none => none
    else none
  | _ => none

/-- What FO takes of a message whatever its type does (R411, R417): with the link up, what the guard code finds in its words, and where the header
is delivered and is of the type, the CLAIM it carries. -/
def brxTaken (type : Nat) (w : BrxWords) (s : State) : State :=
  match w with
  | [] => s
  | head :: _ =>
    if s.fo.linkUp = false then s else
    match guardDeliver head with
    | none => brxGuard w s
    | some h => if h[32] = 0 ∧ fieldBE (brxData h) 0 1 = type then seeClaim (brxReadHead (brxData h)).claim (brxGuard w s) else s

/-- An engine that stands at a whole word of opcode `op` within its owner's code region, with a cycle in progress, time left in its window and no
error found (R314, R322, R323, R360): the region, the cycle and the word. -/
def atWord (op : Nat) (zero : BitVec 64) (x : TahrOp) (s : State) : Option (Region × Cycle × BitVec 64) :=
  let g := getEng s x.e.val
  match g.cycle with
  | none => none
  | some cyc =>
    match regionOf g cyc.owner with
    | none => none
    | some r =>
      let w := g.code.getD cyc.pc 0
      if x.finding = .clean ∧ cyc.snap = false ∧ ltReached (cycInstant cyc cyc.elapsed) g.winEnd = false ∧ inCode r cyc.pc = true ∧
        wOp w = op ∧ w &&& zero = 0 then some (r, cyc, w) else none

/-- The running cycle can complete an instruction of `n` engine cycles before its window ends (R360). -/
def inTime (x : TahrOp) (s : State) (cyc : Cycle) (n : Nat) : Bool := ltReached (getEng s x.e.val).winEnd (cycInstant cyc (cyc.elapsed + n))

/-- Operand A of a word as the engine holds it (R316, R322). -/
def opA (x : TahrOp) (s : State) (w : BitVec 64) : BitVec 64 := rdV (getEng s x.e.val) (wA w)

/-- Operand B. -/
def opB (x : TahrOp) (s : State) (w : BitVec 64) : BitVec 64 := rdV (getEng s x.e.val) (wB w)

/-- Operand C. -/
def opC (x : TahrOp) (s : State) (w : BitVec 64) : BitVec 64 := rdV (getEng s x.e.val) (wC w)

/-- The next state in which the engine is `g` and its cycle `cyc`, and nothing else has changed. -/
def ranTo (x : TahrOp) (g : Engine) (cyc : Cycle) (s : State) : Res := .next (modEng x.e.val (fun _ => { g with cycle := some cyc }) s)

/-- The next state of an instruction of `n` engine cycles that writes `v` to its D, sets the FLAGS bits `fl` and goes on to the next word
(R316, R318, R319); nothing else changes. -/
def wroteD (x : TahrOp) (s : State) (cyc : Cycle) (w : BitVec 64) (n : Nat) (v fl : BitVec 64) : Res :=
  ranTo x (wrV (getEng s x.e.val) (wD w) v) { cyc with pc := cyc.pc + 1, flags := cyc.flags ||| fl, elapsed := cyc.elapsed + n } s

/-- The next state of an instruction that raises a fault: the cycle of its engine ends there (R346–R348). -/
def faulted (x : TahrOp) (s : State) (cyc : Cycle) (w : BitVec 64) (code addr : Nat) : Res :=
  .next (taskFault x.e.val cyc code addr cyc.pc w cyc.elapsed s)

/-- The next state in which the metrology die has sent its response (R452). -/
def served (cmd status : BitVec 8) (bytes : List Byte) (s : State) : Res := .next (emit (.svc (svcFrame (cmd ||| 0x80) (status :: bytes))) s)

/-- A key operation that reaches its body, in a life-cycle state that allows it (R478); `pub` tells that a public key is loaded. -/
def kvRuns (op : BitVec 16) (pub : Bool) (c : Cmd) (s : State) : Bool := runs op true c s && lifeAllows (entered op c s) op pub

/-- The next state of an accepted engine operation (R498): its request joins the queue, its reply waits. -/
def queuedKv (op : BitVec 16) (c : Cmd) (stages : List (KvEngine × Nat)) (slots : List Nat) (x : KvOp) (s : State) : Res :=
  .next (outstanding { cmd := c, opcode := op } (onKv (fun k => { k with reqs := k.reqs ++ [{
    stages := stages, owner := issuer c, epoch := (s.im.inst.getD (issuer c) {}).epoch, slots := slots
    w := { cmd := c, opcode := op }, op := x }] }) s))

/-- Every addressed memory is in canonical form: the retained manager area and the instance memory of each engine (R312, R546). -/
def State.memoriesWf (s : State) : Bool := s.pa.ret.mem.wf && s.fb.eng.all (fun e => e.2.mem.wf)

/-- V0 of every engine reads 0 (R308, R316). -/
def State.v0Zero (s : State) : Bool := s.fb.eng.all (fun e => e.2.v[0] == 0)

/-- The FIFOs, the call stacks and the log are within their depths: captures 4, transmit timestamps 16, edges 64, error records 16, call stacks 16,
the event log 65,536 records (R45, R50, R281, R340, R573, R575). -/
def State.depthsOk (s : State) : Bool :=
  s.tb.tcc.toList.all (fun u => decide (u.fifo.length ≤ 4)) && s.tb.txts.toList.all (fun q => decide (q.fifo.length ≤ 16)) &&
  s.ar.edge.toList.all (fun u => decide (u.fifo.length ≤ 64)) && decide (s.grd.recs.length ≤ 16) &&
  s.fb.eng.all (fun e => decide (e.2.stack.length ≤ 16)) && decide (s.log.recs.length ≤ 65536)

end Sys2Proof.Machine
end

