-- ==== Sys2Proof/Certificates/Slice0/Obligations.lean ====
section
/-! DEFINITION. The statements about the block, one `def Obligations.<Name> : Prop` for each entry of OBLIGATIONS.json. -/

section
open Sys2Proof Sys2Proof.Machine

/-- With a command at the front of the queue a step is that command's meaning on the state with the queue's rest. -/
def Obligations.StepRunsFrontCommand : Prop :=
  (∀ (c : Instr) (l : List Instr) (s : State), step { s with pending := c :: l } = exec c { s with pending := l }) ∧
  (∀ (c : Instr) (s : State), step (s.pushFront c) = exec c s)

/-- A step on an empty queue is one tick of the time clock (the model's choice, log 1): LT advances by the increment in force while PD1 runs
(R19, R20), the hold of the TIME_SV condition is followed (R430) and the TAP takes an edge that is due (R607). Definitions in it hold
choices of the model: log 112. -/
def Obligations.EmptyQueueTicks : Prop :=
  (∀ (s : State), s.pending = [] → s.pa.power = .running →
     ∃ j n o, step s = .next { s with tb := s.tb.advance (s.tb.acc + s.tb.rate.zeroExtend 96), fo := { s.fo with timeSvSince := if timeSvCond s then some (s.fo.timeSvSince.getD s.abs) else none }, jtag := j, free := n, out := o }) ∧
  (∀ (s : State), s.pending = [] → s.pa.power = .running → s.jtag.drive = [] → s.jtag.tap = .reset →
     step s = .next { s with tb := s.tb.advance (s.tb.acc + s.tb.rate.zeroExtend 96), fo := { s.fo with timeSvSince := if timeSvCond s then some (s.fo.timeSvSince.getD s.abs) else none } }) ∧
  (∀ (s : State), s.pending = [] → s.pa.power ≠ .running → step s = .next s)

/-- No command faults and none is refused, whatever the state. -/
def Obligations.EveryCommandGoesOn : Prop :=
  ∀ (c : Instr) (s : State), goesOn (exec c s)

/-- The block never stops: every state has a next state, and a step takes exactly the command at the front of the queue. -/
def Obligations.EveryStepAnswers : Prop :=
  ∀ (s : State), ∃ t, step s = .next t ∧ t.pending = s.pending.tail

/-- The addressed memories (the manager area and the instance memories) stay in canonical form and V0 stays 0 in every step (R312, R316,
R546). -/
def Obligations.EngineInvariantKept : Prop :=
  ∀ (s t : State), s.memoriesWf = true → s.v0Zero = true → step s = .next t → t.memoriesWf = true ∧ t.v0Zero = true

/-- The depths that the spec gives the FIFOs, the call stacks and the log hold after every step (R45, R50, R281, R340, R573, R575). -/
def Obligations.DepthsKept : Prop :=
  ∀ (s t : State), s.depthsOk = true → step s = .next t → t.depthsOk = true

/-- The state right after reset meets the invariants that every step keeps. That the retained area lists no byte at reset is the model's
choice (log 6). -/
def Obligations.InvariantsAtReset : Prop :=
  State.reset.memoriesWf = true ∧ State.reset.pa.ret.mem = [] ∧ State.reset.v0Zero = true ∧ State.reset.depthsOk = true ∧ State.reset.pending = []

/-- LT moves with the time clock alone: no command but a device reset and the restore on wake changes it (R20, R54). -/
def Obligations.LtMovesOnlyWithTheClock : Prop :=
  ∀ (c : Instr) (s t : State), (∀ r, c ≠ .duikerRestoreDone r) → (∀ d n a, c ≠ .kvLcAdvance d n a) → c ≠ .ioSupplyLow →
     (∀ k, c ≠ .brownoutReset k) → exec c s = .next t → t.tb.acc = s.tb.acc ∧ t.now = s.now

/-- The manager area changes by PA_RETAIN_WRITE and a Duiker brown-out alone, and a write stores its own bytes and no others (R546, R547).
Definitions in it hold choices of the model: log 85. -/
def Obligations.RetainedBytes : Prop :=
  (∀ (c : Instr) (s t : State), (∀ d o l, c ≠ .paRetainWrite d o l) → (∀ k, c ≠ .duikerBrownout k) → exec c s = .next t →
     t.pa.ret.mem = s.pa.ret.mem) ∧
  (∀ (c : Cmd) (o : Nat) (l : List Byte) (s t : State) (a : Nat), s.pa.ret.mem.wf = true → exec (.paRetainWrite c o l) s = .next t →
     a < o ∨ o + l.length ≤ a → t.pa.ret.mem.read a = s.pa.ret.mem.read a) ∧
  (∀ (c : Cmd) (o : Nat) (l : List Byte) (s t : State) (k : Nat), s.pa.ret.mem.wf = true → runs 0x0F13 false c s = true → 0x100 ≤ o →
     o % 32 = 0 → l.length % 32 = 0 → o + l.length ≤ 0x1000 → s.pa.regLow = false → k < l.length → exec (.paRetainWrite c o l) s = .next t →
     t.pa.ret.mem.read (o + k) = l.getD k 0)

/-- The stores change their own bytes alone, at the address their meaning computes (R327); no other Tahr instruction changes an instance
memory. -/
def Obligations.TahrMemoryFrame : Prop :=
  (∀ (x : TahrOp) (s t : State) (cyc : Cycle) (a : Nat), (getEng s x.e.val).cycle = some cyc → (getEng s x.e.val).mem.wf = true →
     exec (.tahrSt x) s = .next t →
     a < memAddr (getEng s x.e.val) ((getEng s x.e.val).code.getD cyc.pc 0) ∨ memAddr (getEng s x.e.val) ((getEng s x.e.val).code.getD cyc.pc 0) + 8 ≤ a →
     (getEng t x.e.val).mem.read a = (getEng s x.e.val).mem.read a) ∧
  (∀ (x : TahrOp) (s t : State) (cyc : Cycle) (a : Nat), (getEng s x.e.val).cycle = some cyc → (getEng s x.e.val).mem.wf = true →
     exec (.tahrStw x) s = .next t →
     a < memAddr (getEng s x.e.val) ((getEng s x.e.val).code.getD cyc.pc 0) ∨ memAddr (getEng s x.e.val) ((getEng s x.e.val).code.getD cyc.pc 0) + 4 ≤ a →
     (getEng t x.e.val).mem.read a = (getEng s x.e.val).mem.read a) ∧
  (∀ (x : TahrOp) (s t : State) (cyc : Cycle) (a : Nat), (getEng s x.e.val).cycle = some cyc → (getEng s x.e.val).mem.wf = true →
     exec (.tahrStb x) s = .next t →
     a < memAddr (getEng s x.e.val) ((getEng s x.e.val).code.getD cyc.pc 0) ∨ memAddr (getEng s x.e.val) ((getEng s x.e.val).code.getD cyc.pc 0) + 1 ≤ a →
     (getEng t x.e.val).mem.read a = (getEng s x.e.val).mem.read a) ∧
  (∀ (i : Instr) (s t : State) (e : Nat), (reach i).1 = .tahr → (∀ x, i ≠ .tahrSt x ∧ i ≠ .tahrStw x ∧ i ≠ .tahrStb x) → exec i s = .next t →
     (getEng t e).mem = (getEng s e).mem) ∧
  (∀ (x : TahrOp) (s t : State) (e : Nat), e ≠ x.e.val →
     exec (.tahrSt x) s = .next t ∨ exec (.tahrStw x) s = .next t ∨ exec (.tahrStb x) s = .next t → (getEng t e).mem = (getEng s e).mem)

/-- An instruction of a Tahr engine leaves every part of the state outside its reach unchanged. -/
def Obligations.FrameOfTahr : Prop :=
  ∀ (i : Instr) (s t : State), (reach i).1 = .tahr → exec i s = .next t → sameBut (reach i).2 s t

/-- A command or event of TB, the registers, SU, PX, SW or QM leaves every part of the state outside its reach unchanged. -/
def Obligations.FrameOfNetwork : Prop :=
  ∀ (i : Instr) (s t : State), (reach i).1 = .network → exec i s = .next t → sameBut (reach i).2 s t

/-- A command or event of the cabinet segments, SE, FR, PE or AR leaves every part of the state outside its reach unchanged. -/
def Obligations.FrameOfSignal : Prop :=
  ∀ (i : Instr) (s t : State), (reach i).1 = .signal → exec i s = .next t → sameBut (reach i).2 s t

/-- A command or event of FB, PS or FO leaves every part of the state outside its reach unchanged. -/
def Obligations.FrameOfControl : Prop :=
  ∀ (i : Instr) (s t : State), (reach i).1 = .control → exec i s = .next t → sameBut (reach i).2 s t

/-- A command or event of MI, KV, IM, PA, the board, the log or the scrubbers leaves every part of the state outside its reach unchanged. -/
def Obligations.FrameOfPlatform : Prop :=
  ∀ (i : Instr) (s t : State), (reach i).1 = .platform → exec i s = .next t → sameBut (reach i).2 s t

/-- R11: a target is reached when the signed difference is zero or greater; within ±2^47 ns that is when the present has come to it. -/
def Obligations.LtIsComparedBySignedDifference : Prop :=
  (∀ (a b : LT), ltReached a b = true ↔ 0 ≤ (a - b).toInt) ∧
  (∀ (a : LT) (d : Int), -(2 ^ 63 : Int) < d → d < 2 ^ 63 → ltReached a (a + BitVec.ofInt 64 d) = true ↔ d ≤ 0) ∧
  (∀ (s : State) (n : Fin 12), (getTcu s (20 + n.val)).en = true → ltReached s.now (getTcu s (20 + n.val)).target = false →
     exec (.compareFire n) s = .next s)

/-- R18: each requester holds its own latch for each register; a read of the lower word sets it, a read of the upper word answers it and
changes nothing. -/
def Obligations.UpperHalvesAreLatched : Prop :=
  (∀ (q o : Nat) (v : BitVec 64) (s : State), (readRs q o v false s).im.latches.getD (q, o) 0 = v.extractLsb' 32 32) ∧
  (∀ (q o q1 o1 : Nat) (v : BitVec 64) (s : State), q1 ≠ q ∨ o1 ≠ o →
     (readRs q o v false s).im.latches.get? (q1, o1) = s.im.latches.get? (q1, o1)) ∧
  (∀ (q o : Nat) (v : BitVec 64) (s : State),
     readRs q o v false s = { s with im := { s.im with latches := (readRs q o v false s).im.latches }, out := .read q ((v.truncate 32).zeroExtend 64) :: s.out }) ∧
  (∀ (q o : Nat) (s : State), s.glob.ready = true →
     exec (.rsUpperRead q o) s = .next { s with out := .read q ((s.im.latches.getD (q, o) 0).zeroExtend 64) :: s.out }) ∧
  (∀ (q o : Nat) (v : BitVec 64) (s : State), s.glob.ready = true →
     ∃ t, exec (.rsUpperRead q o) (readRs q o v false s) = .next t ∧ t.out.head? = some (.read q ((v.extractLsb' 32 32).zeroExtend 64))) ∧
  (∀ (q : Nat) (s : State), s.glob.ready = true → exec (.ltNowRead q false) s = .next (readRs q 0x100010 s.now false s))

/-- R21: a cold power-up starts LT at 0 with TAI_VALID 0, counted from the release of PD1 (1.0 ms after power-good, R554). -/
def Obligations.ColdPowerUpStartsLt : Prop :=
  (State.reset.now = 0 ∧ State.reset.tb.taiValid = false) ∧
  (∀ (c : Bool) (s : State), (beginStartup c s).pa.goodLt = (s.abs : Int) - (msTu 1 : Nat) ∧ (beginStartup c s).now = s.now) ∧
  (∀ (r : BitVec 48) (s t : State), phaseDue 2 [1] s = true → s.pa.slept = false → exec (.duikerRestoreDone r) s = .next t →
     t.now = BitVec.ofNat 64 ((s.abs : Int) - s.pa.goodLt - (msTu 1 : Nat)).toNat ∧ t.tb.taiValid = false) ∧
  (∀ (s : State), s.pa.power = .running → (timeTick s).tb.acc = s.tb.acc + s.tb.rate.zeroExtend 96)

/-- R391: every written or forced value is normalised to its type before it is stored, and no write is refused for its value. -/
def Obligations.ValuesAreNormalised : Prop :=
  (∀ (v : BitVec 64), v ≠ 0 → normalise .boolean v = 1) ∧
  (normalise .boolean 0 = 0) ∧
  (∀ (v : BitVec 64) (k : Nat), (normalise .dbpos v).getLsbD k = (decide (k < 2) && v.getLsbD k)) ∧
  (∀ (v : BitVec 64) (k : Nat), k < 64 → (normalise .int32 v).getLsbD k = v.getLsbD (min k 31)) ∧
  (∀ (v : BitVec 64) (k : Nat),
     (normalise .int32u v).getLsbD k = (decide (k < 32) && v.getLsbD k) ∧ (normalise .float32 v).getLsbD k = (decide (k < 32) && v.getLsbD k)) ∧
  (∀ (w : PtWrite) (s : State) (r : PointRec), getPoint s w.index = some r →
     (getPoint (showWrite w s) w.index).map (fun p => p.value) = some (normalise r.type w.value)) ∧
  (∀ (c : Cmd) (i : Nat) (v : BitVec 64) (y : Quality) (s : State) (r : PointRec), getPoint s i = some r → (setForce c (i, v, y) s).2 = .ok →
     ((setForce c (i, v, y) s).1.ps.force.get? i).map (fun f => f.value) = some (normalise r.type v)) ∧
  (∀ (c : Cmd) (i : Nat) (v u : BitVec 64) (y : Quality) (s : State),
     (setForce c (i, v, y) s).2 = (setForce c (i, u, y) s).2 ∧ psWritePart c [(i, v, y)] 0 s = psWritePart c [(i, u, y)] 0 s)

/-- R490: which DEST bits a type may have, which of them only a platform key, and what a DEST that breaks the rule returns. -/
def Obligations.DestMustSuitTheType : Prop :=
  (∀ (t : KeyType) (o : Tag) (d : BitVec 32),
     destRefusal t o d = some .badParam ↔ ∃ n : Nat, d.getLsbD n = true ∧ ¬((isAes t = true ∧ (n ≤ 2 ∨ (4 ≤ n ∧ n ≤ 6) ∨ (16 ≤ n ∧ n ≤ 21))) ∨ (isMac t = true ∧ (n = 3 ∨ n = 4)) ∨ (isPriv t = true ∧ (n = 7 ∨ n = 9)) ∨ (isPub t = true ∧ (n = 8 ∨ n = 10)))) ∧
  (∀ (t : KeyType) (o : Tag) (d : BitVec 32),
     destRefusal t o d = some .denied ↔ (∀ n : Nat, d.getLsbD n = true → ((isAes t = true ∧ (n ≤ 2 ∨ (4 ≤ n ∧ n ≤ 6) ∨ (16 ≤ n ∧ n ≤ 21))) ∨ (isMac t = true ∧ (n = 3 ∨ n = 4)) ∨ (isPriv t = true ∧ (n = 7 ∨ n = 9)) ∨ (isPub t = true ∧ (n = 8 ∨ n = 10)))) ∧ o ≠ 0 ∧ ∃ n : Nat, d.getLsbD n = true ∧ (n = 10 ∨ (16 ≤ n ∧ n ≤ 21))) ∧
  (∀ (t : KeyType) (o : Tag) (d : BitVec 32), destRefusal t o d = none ∨ destRefusal t o d = some .badParam ∨ destRefusal t o d = some .denied) ∧
  (∀ (c : Cmd) (k : KvNew) (s : State) (t : KeyType) (lv : BitVec 3) (d : BitVec 32), newKey c k s = .ok (t, lv, d) →
     destRefusal t (issuer c) d = none) ∧
  (∀ (c : Cmd) (k : KvNew) (s : State) (t : KeyType) (lv : BitVec 3) (d : BitVec 32) (e : Status), slotRefusal c k.slot s = none →
     (getSlot s k.slot).state = .empty ∧ k.replace = false ∨ (getSlot s k.slot).state = .valid ∧ k.replace = true → k.type = some t →
     t ≠ .empty → parentLevel c k.parent s = .ok lv → askedDest k t = some d → destRefusal t (issuer c) d = some e → newKey c k s = .error e) ∧
  (∀ (c : Cmd) (k : KvNew) (s : State) (m a : List Byte) (v : Option (Nat × List Byte)) (e : Status),
     kvRuns 0x0C10 ((k.type.map isPub).getD false) c s = true → newKey c k (entered 0x0C10 c s) = .error e →
     exec (.kvKeyLoad c k m a v) s = answered 0x0C10 c (st e) (entered 0x0C10 c s))

/-- R504: FW_SVN is raised to the running firmware's SVN, by the manager alone, logged, and only while the other slot could still boot. -/
def Obligations.FirmwareVersionIsRaised : Prop :=
  (∀ (c : Cmd) (s : State), s.glob.ready = true → due 0x0C31 c s = true → dropped c (begun c s) = false → issuer c ≠ 0 →
     exec (.kvFwSvnRaise c) s = .next (reply { cmd := c, opcode := 0x0C31 } (suSt .denied) (begun c s))) ∧
  (∀ (c : Cmd) (s : State), runs 0x0C31 false c s = true → s.kv.otherSvn < s.kv.svn.toNat →
     exec (.kvFwSvnRaise c) s = answered 0x0C31 c (st .badParam) (entered 0x0C31 c s)) ∧
  (∀ (c : Cmd) (s : State), runs 0x0C31 false c s = true → s.kv.svn.toNat ≤ s.kv.otherSvn → logFull s = false →
     ∃ t, exec (.kvFwSvnRaise c) s = answered 0x0C31 c (st .ok) t ∧ t.kv.fwSvn = max s.kv.fwSvn s.kv.svn.toNat ∧ t.log.pendingRecs.length = s.log.pendingRecs.length + 1 ∧ (t.log.pendingRecs.getLast?).map (fun r => (r.type, r.arg0)) = some (7, 0x0C31))

/-- R573: the 16-entry FIFO of error records, their 32 bytes, and the read of W7 that pops. -/
def Obligations.ErrorRecordsAreKept : Prop :=
  (∀ (r q : Nat) (g : Tag) (h : GuardHit) (s : State), s.grd.recs.length < 16 →
     (guardUncorrectable r q g h s).grd.recs = s.grd.recs ++ [{ lt := s.now, addr := h.addr, region := BitVec.ofNat 8 r, source := BitVec.ofNat 8 q, reqTag := g, s0 := h.s0, s1 := h.s1, s2 := h.s2 }] ∧ (guardUncorrectable r q g h s).grd.recOvf = s.grd.recOvf) ∧
  (∀ (r q : Nat) (g : Tag) (h : GuardHit) (s : State), 16 ≤ s.grd.recs.length →
     (guardUncorrectable r q g h s).grd.recs = s.grd.recs ∧ (guardUncorrectable r q g h s).grd.recOvf = true) ∧
  (∀ (s : State), s.grd.recs = [] → errWords s = [0, 0, 0, 0, 0, 0, 0, 0]) ∧
  (∀ (s : State) (e : ErrRec) (l : List ErrRec), s.grd.recs = e :: l → e.reqTag < 256 →
     ((errWords s).flatMap (fun w => bytesLE 4 w.toNat)) = bytesLE 8 e.lt.toNat ++ bytesLE 8 e.addr.toNat ++ [e.region, e.source, BitVec.ofNat 8 e.reqTag, 0, e.s0, e.s1, e.s2] ++ List.replicate 9 0) ∧
  (∀ (q : Nat) (w : Bool) (s : State), s.glob.ready = true →
     exec (.gerrRecordPop q w) s = .next (answerRead q (if w then (errWords s).getD 7 0 ++ (errWords s).getD 6 0 else ((errWords s).getD 7 0).zeroExtend 64) { s with grd := { s.grd with recs := s.grd.recs.tail } }))

/-- R340: the call and return instructions, their stack limits, a bad target and the plain call. -/
def Obligations.CallsAndReturns : Prop :=
  (∀ (x : TahrOp) (s : State) (r : Region) (cyc : Cycle) (w : BitVec 64),
     atWord 0x87 (zD ||| zB ||| zC ||| 0xFFFFE000) x s = some (r, cyc, w) → inTime x s cyc 3 = true →
     inCode r (w.extractLsb' 0 13).toNat = true → (getEng s x.e.val).stack.length < 16 →
     exec (.tahrFbcall x) s = ranTo x (wrV { getEng s x.e.val with stack := (cyc.pc + 1, rdV (getEng s x.e.val) 62) :: (getEng s x.e.val).stack } 62 (opA x s w)) { cyc with pc := (w.extractLsb' 0 13).toNat, elapsed := cyc.elapsed + 3 } s) ∧
  (∀ (x : TahrOp) (s : State) (r : Region) (cyc : Cycle) (w : BitVec 64) (p : Nat × BitVec 64) (l : List (Nat × BitVec 64)),
     atWord 0x88 (zD ||| zA ||| zB ||| zC ||| zI) x s = some (r, cyc, w) → inTime x s cyc 3 = true → (getEng s x.e.val).stack = p :: l →
     exec (.tahrRet x) s = ranTo x (wrV { getEng s x.e.val with stack := l } 62 p.2) { cyc with pc := p.1, elapsed := cyc.elapsed + 3 } s) ∧
  (∀ (x : TahrOp) (s : State) (r : Region) (cyc : Cycle) (w : BitVec 64),
     atWord 0x87 (zD ||| zB ||| zC ||| 0xFFFFE000) x s = some (r, cyc, w) → inCode r (w.extractLsb' 0 13).toNat = true →
     16 ≤ (getEng s x.e.val).stack.length → exec (.tahrFbcall x) s = faulted x s cyc w fStack 0) ∧
  (∀ (x : TahrOp) (s : State) (r : Region) (cyc : Cycle) (w : BitVec 64), atWord 0x88 (zD ||| zA ||| zB ||| zC ||| zI) x s = some (r, cyc, w) →
     (getEng s x.e.val).stack = [] → exec (.tahrRet x) s = faulted x s cyc w fStack 0) ∧
  (∀ (x : TahrOp) (s : State) (r : Region) (cyc : Cycle) (w : BitVec 64),
     atWord 0x87 (zD ||| zB ||| zC ||| 0xFFFFE000) x s = some (r, cyc, w) → inCode r (w.extractLsb' 0 13).toNat = false →
     exec (.tahrFbcall x) s = faulted x s cyc w fAccess 0 ∧ ∀ t, exec (.tahrFbcall x) s = .next t → (getEng t x.e.val).stack = (getEng s x.e.val).stack) ∧
  (∀ (x : TahrOp) (s t : State) (r : Region) (cyc : Cycle) (w : BitVec 64),
     atWord 0x87 (zD ||| zB ||| zC ||| 0xFFFFE000) x s = some (r, cyc, w) → inTime x s cyc 3 = true → wA w = 62 →
     inCode r (w.extractLsb' 0 13).toNat = true → (getEng s x.e.val).stack.length < 16 → exec (.tahrFbcall x) s = .next t →
     rdV (getEng t x.e.val) 62 = rdV (getEng s x.e.val) 62)

/-- COMPARE_FIRE does nothing where the unit is not due. A due general unit fires and then raises event 0x0D with its owner's tag and its
number, notes a recorder input, releases a timed task, or aligns a converter clock, as its destination says; another destination gets
nothing. The firing is dated at the target, or at the present tick where it is late: armed in the past, or the target reached at an
earlier tick. It sets FIRED, sets LATE with it where late, and gives a periodic unit its next target and disarms a one-shot unit.
PIN_OUTPUT_FIRE of a due pin unit raises the pin from that instant for the staged width, where the pin runs; PULSE_END lets a pin fall at
its instant once that is reached; a pin's level and edge go out, and the TB_OUT that is looped back gives its edges to TCC15. -/
def Obligations.CompareUnitsFire : Prop :=
  (∀ (s : State) (n : Fin 12), tcuDue s (20 + n.val) = false → exec (.compareFire n) s = .next s) ∧
  (∀ (s : State) (n : Fin 12), tcuDue s (20 + n.val) = true → (getTcu s (20 + n.val)).dest = 0x20 →
     exec (.compareFire n) s = .next (raiseArg 0x0D (getTcu s (20 + n.val)).owner (BitVec.ofNat 32 (20 + n.val)) (fireTcu (20 + n.val) s))) ∧
  (∀ (s : State) (n : Fin 12), tcuDue s (20 + n.val) = true → (getTcu s (20 + n.val)).dest = 0x21 →
     exec (.compareFire n) s = .next (noteBinary (BitVec.ofNat 32 (0x04000000 + (20 + n.val))) (fireInstant s (20 + n.val)) true true (fireTcu (20 + n.val) s))) ∧
  (∀ (s : State) (n : Fin 12), tcuDue s (20 + n.val) = true → (getTcu s (20 + n.val)).dest = 0x26 →
     exec (.compareFire n) s = .next (releaseTimed (20 + n.val) (getTcu s (20 + n.val)).owner (fireInstant s (20 + n.val)) (fireTcu (20 + n.val) s))) ∧
  (∀ (s : State) (n : Fin 12), tcuDue s (20 + n.val) = true →
     0x22 ≤ (getTcu s (20 + n.val)).dest.toNat ∧ (getTcu s (20 + n.val)).dest.toNat ≤ 0x25 →
     ∃ t, exec (.compareFire n) s = .next t ∧ t.tb.cnvAlign[(getTcu s (20 + n.val)).dest.toNat - 0x22]? = some (fireInstant s (20 + n.val)) ∧ t.out = .cnvAlign ((getTcu s (20 + n.val)).dest.toNat - 0x22) (fireInstant s (20 + n.val)) :: s.out ∧ getTcu t (20 + n.val) = getTcu (fireTcu (20 + n.val) s) (20 + n.val)) ∧
  (∀ (s : State) (n : Fin 12), tcuDue s (20 + n.val) = true →
     (getTcu s (20 + n.val)).dest.toNat < 0x20 ∨ 0x26 < (getTcu s (20 + n.val)).dest.toNat →
     exec (.compareFire n) s = .next (fireTcu (20 + n.val) s)) ∧
  (∀ (s : State) (n : Nat), n < 32 →
     (getTcu (fireTcu n s) n).fired = true ∧ (getTcu (fireTcu n s) n).late = ((getTcu s n).late || firesLate s n) ∧ (fireTcu n s).tb.tcuLate = (s.tb.tcuLate || firesLate s n) ∧ (getTcu (fireTcu n s) n).en = (getTcu s n).periodic ∧ (getTcu (fireTcu n s) n).target = (if (getTcu s n).periodic then nextTarget s.now (getTcu s n).target (getTcu s n).period.toNat else (getTcu s n).target)) ∧
  (∀ (s : State) (n : Nat),
     firesLate s n = ((getTcu s n).heldAt.isSome || ltReached s.lastTick (getTcu s n).target) ∧ fireInstant s n = (if firesLate s n then s.now else (getTcu s n).target)) ∧
  (∀ (s : State) (k : Fin 12), tcuDue s (8 + k.val) = false → exec (.pinOutputFire k) s = .next s) ∧
  (∀ (s : State) (k : Fin 12), tcuDue s (8 + k.val) = true → pinRuns (fireTcu (8 + k.val) s) k.val = true →
     exec (.pinOutputFire k) s = .next (setPin k.val true (fireInstant s (8 + k.val)) (some (ltAdd (fireInstant s (8 + k.val)) (vget s.tb.pinCfg.out k.val {}).width)) (fireTcu (8 + k.val) s))) ∧
  (∀ (s : State) (k : Fin 12), tcuDue s (8 + k.val) = true → pinRuns (fireTcu (8 + k.val) s) k.val = false →
     exec (.pinOutputFire k) s = .next (fireTcu (8 + k.val) s)) ∧
  (∀ (s : State) (k : Fin 12) (f : LT), s.tb.pins[k].fallAt = some f → ltReached s.now f = true →
     exec (.pulseEnd k) s = .next (setPin k.val false f none s)) ∧
  (∀ (s : State) (k : Fin 12), (∀ f, s.tb.pins[k].fallAt = some f → ltReached s.now f = false) → exec (.pulseEnd k) s = .next s) ∧
  (∀ (s : State) (k : Fin 12) (l : Bool) (i : LT) (f : Option LT), k.val ≠ 4 + s.tb.pinCfg.loopback.val ∨ s.tb.pins[k].level = l →
     setPin k.val l i f s = { s with tb := { s.tb with pins := s.tb.pins.set k { level := l, fallAt := f } }, out := .pin k.val l i :: s.out }) ∧
  (∀ (s : State) (k : Fin 12) (l : Bool) (i : LT) (f : Option LT), k.val = 4 + s.tb.pinCfg.loopback.val → s.tb.pins[k].level ≠ l →
     setPin k.val l i f s = captureEdge 15 i l { s with tb := { s.tb with pins := s.tb.pins.set k { level := l, fallAt := f } }, out := .pin k.val l i :: s.out })

/-- ANCHOR_ADVANCE, where TAI has come to a new second, moves the anchor to that second boundary and puts a time record of it on the tap link;
else nothing. SERVO_UPDATE takes the offset measured from the selected source while the servo is ACQUIRING or LOCKED outside the loss
timeout, and is nothing otherwise: the first sets the mapping without step or event; one above the step threshold is judged and stepped
away, with TIME_STEP and event 0x09; else the filtered offset and the increment, within ±200 ppm, are free values (log 9), and four in
succession within the lock threshold lead to LOCKED, one beyond four times it back to ACQUIRING. SOURCE_LOST: without another PTP port to
follow, and for IRIG, the loss timeout starts. LOSS_TIMEOUT, once reached, selects another qualified source, or enters HOLDOVER at the
mean increment of the LOCKED spans, or FREERUN at the nominal one. PTP_MESSAGE_RX, on a PTP port and of the clock's domain (else nothing):
an Announce that has not looped is held and the best master judged anew, its UTC offset taken on the slave port; a Sync on the slave port
gives an offset measurement, with two steps on its Follow_Up; requests queue on a master (end to end) or an enabled port (peer to peer);
responses to this port give the mean delay; anything else changes nothing. PTP_MESSAGE_TX, on a PTP port in a state that may send the
message (else nothing), sends Sync, Announce and requests with the next sequence number, responses to the oldest request and follow-ups of
the oldest timestamp. An active edge of TCC0–13, of a pulse of 4 ns or more and not within 8 ns of the last, is recorded to 1 ns in a
capture FIFO with room and is lost with OVF and event 0x0B at a full one; other edges are not recorded. An IRIG frame without its PPS
edge, undecodable, in disagreement or more than 10 µs off is a fault; a good one counts, and the third in succession qualifies the source.
Definitions in it hold choices of the model: log 112, 113, 117, 118, 120. -/
def Obligations.TimeMappingPtpAndInputs : Prop :=
  (∀ (s : State), s.tb.taiValid = true → (s.tb.taiS.toNat : Int) < (taiOf s.tb s.now).ediv (secTu 1) →
     ∃ t, exec .anchorAdvance s = .next t ∧ t.tb.ltA = ltOfTai s.tb ((taiOf s.tb s.now).ediv (secTu 1) * secTu 1) ∧ t.tb.taiS = taiSec ((taiOf s.tb s.now).ediv (secTu 1) * secTu 1) ∧ t.tb.taiNs = taiNsOf ((taiOf s.tb s.now).ediv (secTu 1) * secTu 1) ∧ t.tb.taiFr = taiFrOf ((taiOf s.tb s.now).ediv (secTu 1) * secTu 1) ∧ t.mi.timeLink = s.mi.timeLink ++ [({ lt := t.tb.ltA, taiS := t.tb.taiS, utcOffset := s.tb.utcOffset, taiValid := true, servo := s.tb.servo, ltUncertain := s.tb.ltUncertain, errBound := timeErrBound t }, 0xF0)] ∧ t.tb.acc = s.tb.acc) ∧
  (∀ (s : State), s.tb.taiValid = false ∨ (taiOf s.tb s.now).ediv (secTu 1) ≤ (s.tb.taiS.toNat : Int) → exec .anchorAdvance s = .next s) ∧
  (∀ (s : State) (m : Int), measuredOffset s.tb = some m → s.tb.lossAt = none → s.tb.servo = .acquiring ∨ s.tb.servo = .locked →
     s.tb.taiValid = false → exec .servoUpdate s = .next (firstMapping (taiOf s.tb s.now - m) s)) ∧
  (∀ (s : State) (m : Int), measuredOffset s.tb = some m → s.tb.lossAt = none → s.tb.servo = .acquiring ∨ s.tb.servo = .locked →
     s.tb.taiValid = true → nsTu s.tb.cfg.stepThr < m.natAbs → exec .servoUpdate s = .next (timeStep (taiOf s.tb s.now - m) (servoJudge m s))) ∧
  (∀ (s : State) (m : Int), measuredOffset s.tb = some m → s.tb.lossAt = none → s.tb.servo = .acquiring ∨ s.tb.servo = .locked →
     s.tb.taiValid = true → m.natAbs ≤ nsTu s.tb.cfg.stepThr →
     ∃ t, exec .servoUpdate s = .next t ∧ t.tb.offset = Config.freeInt s.free ∧ t.tb.rate = clampRate (Config.freeNat (s.free + 1)) ∧ t.tb.measuredAt = s.now ∧ t.free = s.free + 2 ∧ t.tb.acc = s.tb.acc ∧ t.tb.within = (if (Config.freeInt s.free).natAbs ≤ nsTu s.tb.cfg.lockThr then s.tb.within + 1 else 0) ∧ t.tb.servo = (if s.tb.servo = .acquiring then (if 4 ≤ t.tb.within then .locked else .acquiring) else if 4 * nsTu s.tb.cfg.lockThr < (Config.freeInt s.free).natAbs then .acquiring else .locked)) ∧
  (∀ (n : Nat), nominalRate.toNat - 112589990684 ≤ (clampRate n).toNat ∧ (clampRate n).toNat ≤ nominalRate.toNat + 112589990684) ∧
  (∀ (s : State), measuredOffset s.tb = none ∨ s.tb.lossAt.isSome = true ∨ s.tb.servo = .freerun ∨ s.tb.servo = .holdover →
     exec .servoUpdate s = .next s) ∧
  (∀ (x : Int) (s : State),
     (firstMapping x s).tb.ltA = s.now ∧ (firstMapping x s).tb.taiS = taiSec x ∧ (firstMapping x s).tb.taiNs = taiNsOf x ∧ (firstMapping x s).tb.taiFr = taiFrOf x ∧ (firstMapping x s).tb.taiValid = true ∧ (firstMapping x s).tb.timeStep = s.tb.timeStep ∧ (firstMapping x s).tb.acc = s.tb.acc ∧ (firstMapping x s).ev = s.ev) ∧
  (∀ (x : Int) (s : State),
     (timeStep x s).tb.ltA = s.now ∧ (timeStep x s).tb.taiS = taiSec x ∧ (timeStep x s).tb.taiNs = taiNsOf x ∧ (timeStep x s).tb.taiFr = taiFrOf x ∧ (timeStep x s).tb.timeStep = true ∧ (timeStep x s).tb.offset = 0 ∧ (timeStep x s).tb.within = 0 ∧ (timeStep x s).tb.acc = s.tb.acc ∧ (timeStep x s).ev.count[0x09] = satInc s.ev.count[0x09]) ∧
  (∀ (s : State), s.tb.source = .irig → s.tb.lossAt = none →
     ∃ t, exec .sourceLost s = .next t ∧ t.tb.lossAt = some (ltAdd s.now (msTu s.tb.cfg.lossMs)) ∧ t.tb.eLock = ceilDiv s.tb.offset.natAbs 65536 ∧ t.tb.servo = s.tb.servo ∧ t.tb.irig.qualified = false) ∧
  (∀ (s : State), s.tb.source = .ptp → s.tb.lossAt = none → (∀ q : Nat, q ≠ s.tb.slavePort.toNat → (vget s.tb.ptp q {}).announce = none) →
     ∃ t, exec .sourceLost s = .next t ∧ t.tb.lossAt = some (ltAdd s.now (msTu s.tb.cfg.lossMs)) ∧ t.tb.eLock = ceilDiv s.tb.offset.natAbs 65536 ∧ t.tb.servo = s.tb.servo ∧ t.tb.ptpQualified = false ∧ t.tb.slavePort = 0xF) ∧
  (∀ (s : State), s.tb.source = .ptp →
     exec .sourceLost s = .next (runBmca { s with tb := { s.tb with ptp := vmod s.tb.ptp s.tb.slavePort.toNat (fun x => { x with announce := none }) } })) ∧
  (∀ (s : State), s.tb.source = .none ∨ (s.tb.source = .irig ∧ s.tb.lossAt.isSome = true) → exec .sourceLost s = .next s) ∧
  (∀ (s : State) (l : LT), s.tb.lossAt = some l → ltReached s.now l = true → bestSource s.tb ≠ .none →
     ∃ t, exec .lossTimeout s = .next t ∧ t.tb.source = bestSource s.tb ∧ t.tb.servo = .acquiring ∧ t.tb.within = 0 ∧ t.tb.lossAt = none ∧ t.tb.rate = s.tb.rate) ∧
  (∀ (s : State) (l : LT), s.tb.lossAt = some l → ltReached s.now l = true → bestSource s.tb = .none →
     s.tb.servo = .locked ∨ (s.tb.servo = .acquiring ∧ s.tb.everLocked = true) →
     ∃ t, exec .lossTimeout s = .next t ∧ t.tb.servo = .holdover ∧ t.tb.source = .none ∧ t.tb.lossAt = none ∧ t.tb.lockedRates = (if s.tb.servo = .locked then lockedSpans s.tb s.now else s.tb.lockedRates) ∧ t.tb.rate = meanRate t.tb.lockedRates ∧ t.tb.holdTai = taiOf s.tb s.now) ∧
  (∀ (s : State) (l : LT), s.tb.lossAt = some l → ltReached s.now l = true → bestSource s.tb = .none → s.tb.servo ≠ .locked →
     (s.tb.servo = .acquiring → s.tb.everLocked = false) →
     ∃ t, exec .lossTimeout s = .next t ∧ t.tb.servo = .freerun ∧ t.tb.source = .none ∧ t.tb.lossAt = none ∧ t.tb.rate = nominalRate) ∧
  (∀ (s : State), (∀ l, s.tb.lossAt = some l → ltReached s.now l = false) → exec .lossTimeout s = .next s) ∧
  (∀ (s : State) (p : Fin 14) (m : PtpMsg) (rx : LT), ptpPortCfg s.tb p.val = none ∨ m.domain ≠ s.tb.cfg.domain →
     exec (.ptpMessageRx p m rx) s = .next s) ∧
  (∀ (s : State) (p : Fin 14) (m : PtpMsg) (rx : LT) (a : Announce), (ptpPortCfg s.tb p.val).isSome = true → m.domain = s.tb.cfg.domain →
     m.type = .announce → m.ann = some a → annLooped s.tb a = false →
     exec (.ptpMessageRx p m rx) s = .next (if (runBmca (modPtp p.val (fun x => { x with announce := some a }) s)).tb.slavePort.toNat = p.val then takeUtc a (runBmca (modPtp p.val (fun x => { x with announce := some a }) s)) else runBmca (modPtp p.val (fun x => { x with announce := some a }) s))) ∧
  (∀ (s : State) (p : Fin 14) (m : PtpMsg) (rx : LT), (ptpPortCfg s.tb p.val).isSome = true → m.domain = s.tb.cfg.domain → m.type = .announce →
     (m.ann = none ∨ ∃ a, m.ann = some a ∧ annLooped s.tb a = true) → exec (.ptpMessageRx p m rx) s = .next s) ∧
  (∀ (s : State) (p : Fin 14) (m : PtpMsg) (rx : LT), (ptpPortCfg s.tb p.val).isSome = true → m.domain = s.tb.cfg.domain → m.type = .sync →
     s.tb.ptp[p].state = .slave → m.twoStep = true →
     exec (.ptpMessageRx p m rx) s = .next (modPtp p.val (fun x => { x with syncRx := some (m.seq, taiOf s.tb rx, m.correction) }) s)) ∧
  (∀ (s : State) (p : Fin 14) (m : PtpMsg) (rx : LT), (ptpPortCfg s.tb p.val).isSome = true → m.domain = s.tb.cfg.domain → m.type = .sync →
     s.tb.ptp[p].state = .slave → m.twoStep = false →
     exec (.ptpMessageRx p m rx) s = .next (offsetMeasured p.val (taiOf s.tb rx) m.ts m.correction s)) ∧
  (∀ (s : State) (p : Fin 14) (m : PtpMsg) (rx : LT), (ptpPortCfg s.tb p.val).isSome = true → m.domain = s.tb.cfg.domain →
     m.type = .sync ∨ m.type = .followUp → s.tb.ptp[p].state ≠ .slave → exec (.ptpMessageRx p m rx) s = .next s) ∧
  (∀ (s : State) (p : Fin 14) (m : PtpMsg) (rx : LT) (y k : Int), (ptpPortCfg s.tb p.val).isSome = true → m.domain = s.tb.cfg.domain →
     m.type = .followUp → s.tb.ptp[p].state = .slave → s.tb.ptp[p].syncRx = some (m.seq, y, k) →
     exec (.ptpMessageRx p m rx) s = .next (offsetMeasured p.val y m.ts (k + m.correction) (modPtp p.val (fun x => { x with syncRx := none }) s))) ∧
  (∀ (s : State) (p : Fin 14) (m : PtpMsg) (rx : LT), (ptpPortCfg s.tb p.val).isSome = true → m.domain = s.tb.cfg.domain → m.type = .followUp →
     (∀ y k, s.tb.ptp[p].syncRx ≠ some (m.seq, y, k)) → exec (.ptpMessageRx p m rx) s = .next s) ∧
  (∀ (s : State) (p : Fin 14) (m : PtpMsg) (rx : LT), (ptpPortCfg s.tb p.val).isSome = true → m.domain = s.tb.cfg.domain → m.type = .delayReq →
     s.tb.ptp[p].state = .master → s.tb.cfg.delay = .e2e →
     exec (.ptpMessageRx p m rx) s = .next (modPtp p.val (fun x => { x with requests := x.requests ++ [{ seq := m.seq, source := m.source, rx := taiOf s.tb rx, correction := m.correction, peer := false }] }) s)) ∧
  (∀ (s : State) (p : Fin 14) (m : PtpMsg) (rx : LT), (ptpPortCfg s.tb p.val).isSome = true → m.domain = s.tb.cfg.domain →
     m.type = .pdelayReq → s.tb.ptp[p].state ≠ .disabled → s.tb.cfg.delay = .p2p →
     exec (.ptpMessageRx p m rx) s = .next (modPtp p.val (fun x => { x with requests := x.requests ++ [{ seq := m.seq, source := m.source, rx := taiOf s.tb rx, correction := m.correction, peer := true }] }) s)) ∧
  (∀ (s : State) (p : Fin 14) (m : PtpMsg) (rx : LT), (ptpPortCfg s.tb p.val).isSome = true → m.domain = s.tb.cfg.domain →
     (m.type = .delayReq ∧ (s.tb.ptp[p].state ≠ .master ∨ s.tb.cfg.delay ≠ .e2e)) ∨ (m.type = .pdelayReq ∧ (s.tb.ptp[p].state = .disabled ∨ s.tb.cfg.delay ≠ .p2p)) ∨ m.type = .other →
     exec (.ptpMessageRx p m rx) s = .next s) ∧
  (∀ (s : State) (p : Fin 14) (m : PtpMsg) (rx : LT) (y : Int), (ptpPortCfg s.tb p.val).isSome = true → m.domain = s.tb.cfg.domain →
     m.type = .delayResp → m.requester = portIdentity p.val → s.tb.ptp[p].delayTx = some (m.seq, y) →
     exec (.ptpMessageRx p m rx) s = .next (modPtp p.val (fun x => { x with meanDelay := (s.tb.ptp[p].syncDiff + (m.ts - y - m.correction)).ediv 2, delayTx := none }) s)) ∧
  (∀ (s : State) (p : Fin 14) (m : PtpMsg) (rx : LT) (y : Int), (ptpPortCfg s.tb p.val).isSome = true → m.domain = s.tb.cfg.domain →
     m.type = .pdelayResp → m.requester = portIdentity p.val → s.tb.ptp[p].delayTx = some (m.seq, y) → m.twoStep = true →
     exec (.ptpMessageRx p m rx) s = .next (modPtp p.val (fun x => { x with pdelayRx := some (m.seq, m.ts, taiOf s.tb rx, m.correction) }) s)) ∧
  (∀ (s : State) (p : Fin 14) (m : PtpMsg) (rx : LT) (y : Int), (ptpPortCfg s.tb p.val).isSome = true → m.domain = s.tb.cfg.domain →
     m.type = .pdelayResp → m.requester = portIdentity p.val → s.tb.ptp[p].delayTx = some (m.seq, y) → m.twoStep = false →
     exec (.ptpMessageRx p m rx) s = .next (modPtp p.val (fun x => { x with meanDelay := (taiOf s.tb rx - y - m.correction).ediv 2, delayTx := none }) s)) ∧
  (∀ (s : State) (p : Fin 14) (m : PtpMsg) (rx : LT) (b d k : Int) (y : BitVec 16 × Int), (ptpPortCfg s.tb p.val).isSome = true →
     m.domain = s.tb.cfg.domain → m.type = .pdelayRespFollowUp → m.requester = portIdentity p.val →
     s.tb.ptp[p].pdelayRx = some (m.seq, b, d, k) → s.tb.ptp[p].delayTx = some y →
     exec (.ptpMessageRx p m rx) s = .next (modPtp p.val (fun x => { x with meanDelay := ((d - y.2) - (m.ts - b) - k - m.correction).ediv 2, pdelayRx := none, delayTx := none }) s)) ∧
  (∀ (s : State) (p : Fin 14) (m : PtpMsg) (rx : LT), (ptpPortCfg s.tb p.val).isSome = true → m.domain = s.tb.cfg.domain →
     m.type = .delayResp ∨ m.type = .pdelayResp ∨ m.type = .pdelayRespFollowUp → m.requester ≠ portIdentity p.val ∨ s.tb.ptp[p].delayTx = none →
     exec (.ptpMessageRx p m rx) s = .next s) ∧
  (∀ (s : State) (p : Fin 14) (m : PtpMsg) (rx : LT), (ptpPortCfg s.tb p.val).isSome = true → m.domain = s.tb.cfg.domain →
     (((m.type = .delayResp ∨ m.type = .pdelayResp) ∧ ∀ y, s.tb.ptp[p].delayTx ≠ some (m.seq, y)) ∨ (m.type = .pdelayRespFollowUp ∧ ∀ b d k, s.tb.ptp[p].pdelayRx ≠ some (m.seq, b, d, k))) →
     exec (.ptpMessageRx p m rx) s = .next s) ∧
  (∀ (s : State) (p : Fin 14) (t : PtpMsgType), ptpPortCfg s.tb p.val = none → exec (.ptpMessageTx p t) s = .next s) ∧
  (∀ (s : State) (p : Fin 14) (c : PtpPortCfg), ptpPortCfg s.tb p.val = some c → s.tb.ptp[p].state = .master →
     exec (.ptpMessageTx p .sync) s = .next (ptpSend p.val .sync (!c.oneStepSync) 0 0 (vget s.tb.ptp[p].txSeq 0 0) c.logSync (ptpTime 0) (modPtp p.val (fun x => { x with txSeq := vmod x.txSeq 0 (· + 1) }) s))) ∧
  (∀ (s : State) (p : Fin 14) (c : PtpPortCfg), ptpPortCfg s.tb p.val = some c → s.tb.ptp[p].state = .master →
     exec (.ptpMessageTx p .announce) s = .next (ptpSend p.val .announce false (announceFlags s) 0 (vget s.tb.ptp[p].txSeq 3 0) c.logAnnounce (announceBody s) (modPtp p.val (fun x => { x with txSeq := vmod x.txSeq 3 (· + 1) }) s))) ∧
  (∀ (s : State) (p : Fin 14) (c : PtpPortCfg), ptpPortCfg s.tb p.val = some c → s.tb.ptp[p].state = .slave → s.tb.cfg.delay = .e2e →
     exec (.ptpMessageTx p .delayReq) s = .next (ptpSend p.val .delayReq false 0 0 (vget s.tb.ptp[p].txSeq 1 0) 0x7F (ptpTime 0) (modPtp p.val (fun x => { x with txSeq := vmod x.txSeq 1 (· + 1) }) s))) ∧
  (∀ (s : State) (p : Fin 14) (c : PtpPortCfg), ptpPortCfg s.tb p.val = some c → s.tb.ptp[p].state ≠ .disabled → s.tb.cfg.delay = .p2p →
     exec (.ptpMessageTx p .pdelayReq) s = .next (ptpSend p.val .pdelayReq false 0 0 (vget s.tb.ptp[p].txSeq 2 0) 0x7F (ptpTime 0 ++ bytesBE 10 0) (modPtp p.val (fun x => { x with txSeq := vmod x.txSeq 2 (· + 1) }) s))) ∧
  (∀ (s : State) (p : Fin 14) (t : PtpMsgType), t = .sync ∨ t = .announce ∨ t = .delayReq ∨ t = .pdelayReq ∨ t = .other →
     ptpMaySend s.tb.ptp[p].state s.tb.cfg.delay t = false → exec (.ptpMessageTx p t) s = .next s) ∧
  (∀ (s : State) (p : Fin 14) (c : PtpPortCfg), ptpPortCfg s.tb p.val = some c →
     exec (.ptpMessageTx p .followUp) s = .next (ptpFollow p.val c .followUp s) ∧ exec (.ptpMessageTx p .pdelayRespFollowUp) s = .next (ptpFollow p.val c .pdelayRespFollowUp s) ∧ exec (.ptpMessageTx p .delayResp) s = .next (if s.tb.ptp[p].state = .master then ptpRespond p.val c .delayResp s else s) ∧ exec (.ptpMessageTx p .pdelayResp) s = .next (if s.tb.cfg.delay = .p2p ∧ s.tb.ptp[p].state ≠ .disabled then ptpRespond p.val c .pdelayResp s else s)) ∧
  (∀ (s : State) (n : Fin 16) (t : LT) (r : Bool) (w : Nat), n.val < 14 → nsTu 4 ≤ w → edgeActive s.tb.tcc[n].edge r = true →
     (∀ l, s.tb.tcc[n].lastEdge = some l → (nsTu 8 : Int) ≤ s.absOf t - l) → s.tb.tcc[n].fifo.length < 4 →
     ∃ u, exec (.captureEdge n t r w) s = .next u ∧ u.tb.tcc[n].fifo = s.tb.tcc[n].fifo ++ [t &&& ~~~0xFFFF#64] ∧ u.tb.tcc[n].lastEdge = some (s.absOf t) ∧ u.ev = s.ev ∧ u.out = s.out) ∧
  (∀ (s : State) (n : Fin 16) (t : LT) (r : Bool) (w : Nat), n.val < 14 → nsTu 4 ≤ w → edgeActive s.tb.tcc[n].edge r = true →
     (∀ l, s.tb.tcc[n].lastEdge = some l → (nsTu 8 : Int) ≤ s.absOf t - l) → 4 ≤ s.tb.tcc[n].fifo.length →
     ∃ u, exec (.captureEdge n t r w) s = .next u ∧ u.tb.tcc[n].fifo = s.tb.tcc[n].fifo ∧ u.tb.tcc[n].ovf = true ∧ u.tb.tccOvf = true ∧ u.ev.count[0x0B] = satInc s.ev.count[0x0B]) ∧
  (∀ (s : State) (n : Fin 16) (t : LT) (r : Bool) (w : Nat),
     (14 ≤ n.val ∨ w < nsTu 4 ∨ edgeActive s.tb.tcc[n].edge r = false ∨ ∃ l, s.tb.tcc[n].lastEdge = some l ∧ s.absOf t - l < (nsTu 8 : Int)) →
     exec (.captureEdge n t r w) s = .next s) ∧
  (∀ (s : State) (f : IrigFrame), f.pps = none → exec (.irigFrame f) s = .next (irigFault true s)) ∧
  (∀ (s : State) (f : IrigFrame) (pps : LT), f.pps = some pps →
     irigDecodes f = false ∨ irigAgrees s.tb f = false ∨ usTu 10 < (ltDiff f.edge pps).natAbs → exec (.irigFrame f) s = .next (irigFault false s)) ∧
  (∀ (s : State) (f : IrigFrame) (pps : LT), f.pps = some pps → irigDecodes f = true → irigAgrees s.tb f = true →
     (ltDiff f.edge pps).natAbs ≤ usTu 10 →
     ∃ t, exec (.irigFrame f) s = .next t ∧ t.tb.irig.good = s.tb.irig.good + 1 ∧ t.tb.irig.faults = 0 ∧ t.tb.irig.qualified = (s.tb.irig.qualified || decide (2 ≤ s.tb.irig.good)) ∧ t.tb.irig.measured = (irigTai t.tb f).map (fun sec => taiOf t.tb pps - sec * (secTu 1 : Nat))) ∧
  (∀ (b : Bool) (s : State),
     (irigFault b s).tb.irig.good = 0 ∧ (irigFault b s).tb.irig.faults = s.tb.irig.faults + 1 ∧ (irigFault b s).tb.irigErr = (s.tb.irigErr || !b) ∧ (irigFault b s).tb.ppsMissing = (s.tb.ppsMissing || b) ∧ (irigFault b s).tb.irig.qualified = (s.tb.irig.qualified && decide (s.tb.irig.faults < 1)) ∧ (irigFault b s).ev.count[0x0C] = satInc s.ev.count[0x0C])

/-- Host reads of a device that serves: a pop of a capture FIFO returns and removes its oldest entry, an empty FIFO reads 0; a read of W3 of a
timestamp queue, alone or with W2, pops its oldest entry; a read of LT_NOW answers the present LT; a read of the upper word answers what
the requester latched; RTC_READ answers the 48-bit count, 0 while the Duiker port is disabled. A read of a register by COUNTER_READ
answers, aligned and 32 or 64 bits wide, a latched register or 64-bit counter in BAR0 as such, and any other register its value or pair of
values; a misaligned, 8-bit or 16-bit read answers 0 and changes nothing. The corrected-error counters of the guard regions, the counter
of lost log records and the event counters are answered and cleared. Before the device serves a read has no answer, or 0 after a failure
of both firmware slots, when KV_LC and KV_BOOT_STATUS alone hold values. TB_TCU_ARM on a unit of TCU20 to TCU31 that its issuer may
address and that is assigned delivers a firing that is due on that tick, then arms the unit with the target and mode (held to the next
tick where the target is past); without a target it gives a unit that runs periodically its next period; TB_TCU_DISARM delivers a firing
that is due and disarms. All answer OK. A unit below 20 or of another owner answers DENIED, an unassigned one NOT_READY, and BAD_PARAM a
period outside its range, or no target for a unit that does not run periodically or with a one-shot mode. TB_READ_TIME answers LT and the
TAI seconds of that LT, with the record in a buffer of 32 bytes, and BAD_PARAM for a shorter one. The form without a target and the order
of these refusals are the model's choice (log 122). Definitions in it hold choices of the model: log 67, 97, 110, 119, 161. -/
def Obligations.HostReadsAndTimeCommands : Prop :=
  (∀ (s : State) (rq : Nat) (n : Fin 16) (wide : Bool) (t : LT) (l : List LT), s.glob.ready = true → s.tb.tcc[n].fifo = t :: l →
     exec (.capturePop rq n wide) s = .next (readRs rq (0x102000 + 0x10 * n.val) t wide { s with tb := { s.tb with tcc := s.tb.tcc.set n { s.tb.tcc[n] with fifo := l } } })) ∧
  (∀ (s : State) (rq : Nat) (n : Fin 16) (wide : Bool), s.glob.ready = true → s.tb.tcc[n].fifo = [] →
     exec (.capturePop rq n wide) s = .next (readRs rq (0x102000 + 0x10 * n.val) 0 wide s)) ∧
  (∀ (s : State) (rq : Nat) (p : Fin 14) (wide : Bool) (e : TxtsEntry) (l : List TxtsEntry), s.glob.ready = true → s.tb.txts[p].fifo = e :: l →
     exec (.txtsPop rq p wide) s = .next (answerRead rq (if wide then txtsW3 e ++ txtsW2 p.val (some e) else (txtsW3 e).zeroExtend 64) { s with tb := { s.tb with txts := s.tb.txts.set p { s.tb.txts[p] with fifo := l } } })) ∧
  (∀ (s : State) (rq : Nat) (p : Fin 14) (wide : Bool), s.glob.ready = true → s.tb.txts[p].fifo = [] →
     exec (.txtsPop rq p wide) s = .next (answerRead rq (if wide then 0#32 ++ txtsW2 p.val none else 0) s)) ∧
  (∀ (s : State) (rq : Nat), s.glob.ready = true → ∃ t, exec (.ltNowRead rq true) s = .next t ∧ t.out = .read rq s.now :: s.out ∧ t.tb = s.tb) ∧
  (∀ (s : State) (rq : Nat), s.glob.ready = true →
     ∃ t, exec (.ltNowRead rq false) s = .next t ∧ t.out = .read rq ((s.now.truncate 32).zeroExtend 64) :: s.out ∧ t.im.latches = s.im.latches.put (rq, 0x100010) (s.now.extractLsb' 32 32)) ∧
  (∀ (s : State) (rq o : Nat), s.glob.ready = true →
     exec (.rsUpperRead rq o) s = .next { s with out := .read rq ((s.im.latches.getD (rq, o) 0).zeroExtend 64) :: s.out }) ∧
  (∀ (s : State) (rq : Nat) (rtc : BitVec 48) (wide : Bool), s.glob.ready = true →
     exec (.rtcRead rq rtc wide) s = .next (readRs rq 0xF00050 (if s.pa.regLow then 0 else rtc.zeroExtend 64) wide (setRtc rtc s))) ∧
  (∀ (s : State) (rq : Nat) (w : Fin 66) (o : Nat) (a : AccessWidth), s.glob.ready = true →
     a = .b8 ∨ a = .b16 ∨ (a = .b32 ∧ o % 4 ≠ 0) ∨ (a = .b64 ∧ o % 8 ≠ 0) → exec (.counterRead rq w o a) s = .next (answerRead rq 0 s)) ∧
  (∀ (s t : State) (rq o : Nat) (v : BitVec 64) (wide : Bool), s.glob.ready = true → o % (if wide then 8 else 4) = 0 →
     latching o s = some (v, t) → exec (.counterRead rq 0 o (if wide then .b64 else .b32)) s = .next (readRs rq o v wide t)) ∧
  (∀ (s : State) (rq o : Nat) (w : Fin 66), s.glob.ready = true → o % 4 = 0 → w ≠ 0 ∨ latching o s = none →
     exec (.counterRead rq w o .b32) s = .next (answerRead rq ((read32 rq w.val o s).1.zeroExtend 64) (read32 rq w.val o s).2)) ∧
  (∀ (s : State) (rq o : Nat) (w : Fin 66), s.glob.ready = true → o % 8 = 0 → w ≠ 0 ∨ latching o s = none →
     exec (.counterRead rq w o .b64) s = .next (answerRead rq ((read32 rq w.val (o + 4) (read32 rq w.val o s).2).1 ++ (read32 rq w.val o s).1) (read32 rq w.val (o + 4) (read32 rq w.val o s).2).2)) ∧
  (∀ (s t : State) (rq o : Nat) (v : BitVec 32), o % 8 ≠ 4 ∨ latching (o - 4) s = none → rc32 o s = some (v, t) → read32 rq 0 o s = (v, t)) ∧
  (∀ (s : State) (r : Fin 16),
     latching (0x00A100 + 0x20 * r.val) s = some ((s.grd.region[r]).corrected, modRegion r.val (fun x => { x with corrected := 0 }) s)) ∧
  (∀ (s : State) (n : Fin 128),
     rc32 0x00900C s = some (s.log.lost, { s with log := { s.log with lost := 0 } }) ∧ rc32 (0xD30100 + 4 * n.val) s = some (s.ev.count[n], { s with ev := { s.ev with count := s.ev.count.set n 0 } })) ∧
  (∀ (s : State) (rq : Nat) (w : Fin 66) (o : Nat) (a : AccessWidth), s.glob.ready = false → s.kv.halted = true →
     exec (.counterRead rq w o a) s = .next (answerRead rq (if w = 0 then haltedRead o a s else 0) s)) ∧
  (∀ (s : State) (rq : Nat) (w : Fin 66) (o : Nat) (a : AccessWidth), s.glob.ready = false → s.kv.halted = false →
     exec (.counterRead rq w o a) s = .next s) ∧
  (∀ (s : State) (rq : Nat) (n : Fin 16) (p : Fin 14) (wide : Bool) (rtc : BitVec 48) (o : Nat) (i : Instr), s.glob.ready = false →
     i = .capturePop rq n wide ∨ i = .txtsPop rq p wide ∨ i = .ltNowRead rq wide ∨ i = .rsUpperRead rq o ∨ i = .rtcRead rq rtc wide →
     exec i s = .next (if s.kv.halted then answerRead rq 0 s else s)) ∧
  (∀ (s : State) (c : Cmd) (n : Fin 32) (t : LT) (per : Bool) (p : BitVec 64), runs 0x0110 true c s = true → 20 ≤ n.val →
     issuer c = 0 ∨ (getTcu s n.val).owner = issuer c → (getTcu s n.val).dest ≠ 0 → (per = true → 131072 ≤ p.toNat ∧ p.toNat < 2 ^ 63) →
     exec (.tbTcuArm c n (some t) per p) s = answered 0x0110 c (st .ok) (modTcu n.val (fun u => { u.armAt s.now t with periodic := per, period := if per then p.truncate 63 else u.period }) (deliverDue n.val (entered 0x0110 c s)))) ∧
  (∀ (s : State) (c : Cmd) (n : Fin 32) (p : BitVec 64), runs 0x0110 true c s = true → 20 ≤ n.val →
     issuer c = 0 ∨ (getTcu s n.val).owner = issuer c → (getTcu s n.val).dest ≠ 0 → 131072 ≤ p.toNat ∧ p.toNat < 2 ^ 63 →
     (getTcu s n.val).en = true → (getTcu s n.val).periodic = true →
     exec (.tbTcuArm c n none true p) s = answered 0x0110 c (st .ok) (modTcu n.val (fun u => { u with period := p.truncate 63 }) (entered 0x0110 c s))) ∧
  (∀ (s : State) (c : Cmd) (n : Fin 32) (t : Option LT) (per : Bool) (p : BitVec 64), runs 0x0110 true c s = true →
     n.val < 20 ∨ (issuer c ≠ 0 ∧ (getTcu s n.val).owner ≠ issuer c) →
     exec (.tbTcuArm c n t per p) s = answered 0x0110 c (st .denied) (entered 0x0110 c s)) ∧
  (∀ (s : State) (c : Cmd) (n : Fin 32) (t : Option LT) (per : Bool) (p : BitVec 64), runs 0x0110 true c s = true → 20 ≤ n.val →
     issuer c = 0 ∨ (getTcu s n.val).owner = issuer c → (getTcu s n.val).dest = 0 →
     exec (.tbTcuArm c n t per p) s = answered 0x0110 c (st .notReady) (entered 0x0110 c s)) ∧
  (∀ (s : State) (c : Cmd) (n : Fin 32) (t : Option LT) (per : Bool) (p : BitVec 64), runs 0x0110 true c s = true → 20 ≤ n.val →
     issuer c = 0 ∨ (getTcu s n.val).owner = issuer c → (getTcu s n.val).dest ≠ 0 →
     (per = true ∧ (p.toNat < 131072 ∨ 2 ^ 63 ≤ p.toNat)) ∨ (t = none ∧ ((getTcu s n.val).en = false ∨ (getTcu s n.val).periodic = false ∨ per = false)) →
     exec (.tbTcuArm c n t per p) s = answered 0x0110 c (st .badParam) (entered 0x0110 c s)) ∧
  (∀ (s : State) (c : Cmd) (n : Fin 32), runs 0x0111 true c s = true → 20 ≤ n.val → issuer c = 0 ∨ (getTcu s n.val).owner = issuer c →
     exec (.tbTcuDisarm c n) s = answered 0x0111 c (st .ok) (modTcu n.val (fun u => { u with en := false }) (deliverDue n.val (entered 0x0111 c s)))) ∧
  (∀ (s : State) (c : Cmd) (n : Fin 32), runs 0x0111 true c s = true → n.val < 20 ∨ (issuer c ≠ 0 ∧ (getTcu s n.val).owner ≠ issuer c) →
     exec (.tbTcuDisarm c n) s = answered 0x0111 c (st .denied) (entered 0x0111 c s)) ∧
  (∀ (s : State) (c : Cmd), runs 0x0120 true c s = true → c.bufLen = 0 →
     exec (.tbReadTime c) s = answered 0x0120 c { r0 := s.now, r1 := (taiSec (taiOf s.tb s.now)).zeroExtend 64 } (entered 0x0120 c s)) ∧
  (∀ (s : State) (c : Cmd), runs 0x0120 true c s = true → 32 ≤ c.bufLen →
     exec (.tbReadTime c) s = answered 0x0120 c { r0 := s.now, r1 := (taiSec (taiOf s.tb s.now)).zeroExtend 64, buf := .bytes (timeRecordBytes s) } (entered 0x0120 c s)) ∧
  (∀ (s : State) (c : Cmd), runs 0x0120 true c s = true → 0 < c.bufLen → c.bufLen < 32 →
     exec (.tbReadTime c) s = answered 0x0120 c (st .badParam) (entered 0x0120 c s))

/-- An aligned 32-bit write of a register writes its word, and an aligned 64-bit write both words, the lower first; a misaligned write, one of
8 or 16 bits and one before the device serves do nothing. A write of TB_STATUS clears the flags whose bits are 1 and no other; a base
address of a manager ring is written while the ring is not enabled, with bits 11:0 read as 0, and not while it is. With no earlier command
of its ring to its subsystem outstanding and no destruction of its ring waiting, the reply to a command without result buffer is one entry
that carries the status and results, the opcode, the SEQ and the index of the command, with PHASE = 1 - ((i >> s) & 1) for index i on a
ring of 2^s entries: the first 31 bytes of its slot are written, then the last one, which is PHASE; with NOTIFY the MSI-X message of the
ring's vector follows. GET_INFO answers the version and the stepping, and of SU its capabilities, of MI the firmware version and the die's
state from the mailbox; GET_STATUS the status words of its subsystem in order, of MI the mailbox with the blocks of the issuer's meters,
or BAD_PARAM for a buffer below 36,864 bytes. READ_ACTIVE reads an item of the active bank and READ_STAGED one as staged in the session of
the issuer or else active: OK with the item, or with nothing where there is none; BAD_PARAM for an opcode of another subsystem or an index
outside its range, and with the length for a buffer too short; DENIED for an item outside an instance's share; SEALED of MI. Definitions
in it hold choices of the model: log 7, 77, 79, 124. -/
def Obligations.RegistersRepliesAndCommonOpcodes : Prop :=
  (∀ (s : State) (w : Fin 66) (o : Nat) (v : BitVec 64), s.glob.ready = true → o % 4 = 0 →
     exec (.registerWrite w o v .b32) s = .next (writeReg w.val o (v.truncate 32) s)) ∧
  (∀ (s : State) (w : Fin 66) (o : Nat) (v : BitVec 64), s.glob.ready = true → o % 8 = 0 →
     exec (.registerWrite w o v .b64) s = .next (writeReg w.val (o + 4) (v.extractLsb' 32 32) (writeReg w.val o (v.truncate 32) s))) ∧
  (∀ (s : State) (w : Fin 66) (o : Nat) (v : BitVec 64) (a : AccessWidth),
     s.glob.ready = false ∨ a = .b8 ∨ a = .b16 ∨ (a = .b32 ∧ o % 4 ≠ 0) ∨ (a = .b64 ∧ o % 8 ≠ 0) → exec (.registerWrite w o v a) s = .next s) ∧
  (∀ (s : State) (v : BitVec 32),
     writeReg 0 0x100000 v s = { s with tb := { s.tb with timeStep := s.tb.timeStep && !v.getLsbD 12, txtsOvf := s.tb.txtsOvf && !v.getLsbD 13, tcuLate := s.tb.tcuLate && !v.getLsbD 14, tccOvf := s.tb.tccOvf && !v.getLsbD 15, irigErr := s.tb.irigErr && !v.getLsbD 16, ppsMissing := s.tb.ppsMissing && !v.getLsbD 17 } }) ∧
  (∀ (s : State) (k : Fin 4) (v : BitVec 32), s.su.mring[k].en = false →
     ∃ t, writeReg 0 (0x8000 + 0x40 * k.val) v s = t ∧ t.su.mring[k].cbase = (s.su.mring[k].cbase.extractLsb' 32 32 ++ v) &&& ~~~0xFFF#64) ∧
  (∀ (s : State) (k : Fin 4) (v : BitVec 32), s.su.mring[k].en = true → writeReg 0 (0x8000 + 0x40 * k.val) v s = s) ∧
  (∀ (s : State) (w : Waiting) (b : ReplyBody) (r : Ring), getRing s w.cmd.ring = some r → s.su.order = [] → r.destroy = [] →
     w.cmd.fault = .none → inAperture s (issuer w.cmd) (slotAddr r.rbase r.size 32 w.cmd.idx).toNat 32 = true → w.cmd.notify = false →
     b.buf = .none →
     ∃ e, (reply w b s).su.replies = e :: s.su.replies ∧ (reply w b s).out = .post (slotAddr r.rbase r.size 32 w.cmd.idx + 31) [BitVec.ofNat 8 (bitN e.phase)] :: .post (slotAddr r.rbase r.size 32 w.cmd.idx) ((replyBytes e).take 31) :: s.out ∧ e.ring = w.cmd.ring ∧ e.idx = w.cmd.idx ∧ e.opcode = w.opcode ∧ e.seq = w.cmd.seq ∧ e.body.status = b.status ∧ e.body.r0 = b.r0 ∧ e.body.r1 = b.r1 ∧ e.body.detail = b.detail ∧ bitN e.phase = 1 - w.cmd.idx.toNat / 2 ^ r.size.toNat % 2) ∧
  (∀ (s : State) (w : Waiting) (b : ReplyBody) (r : Ring), getRing s w.cmd.ring = some r → s.su.order = [] → r.destroy = [] →
     w.cmd.fault = .none → inAperture s (issuer w.cmd) (slotAddr r.rbase r.size 32 w.cmd.idx).toNat 32 = true → w.cmd.notify = true →
     reply w b s = sendMsix (vectorOf (issuer w.cmd) r.vector.toNat) (reply { w with cmd := { w.cmd with notify := false } } b s)) ∧
  (∀ (s : State) (c : Cmd) (n : Fin 16), runs (commonOp n 0xF0) true c s = true → n.val ≠ 0xB →
     exec (.getInfo c n) s = answered (commonOp n 0xF0) c { r0 := BitVec.ofNat 64 (1 + 65536 * s.glob.stepping.toNat), r1 := if n.val = 0 then suCap.zeroExtend 64 else 0 } (entered (commonOp n 0xF0) c s)) ∧
  (∀ (s : State) (c : Cmd), runs 0x0BF0 true c s = true →
     exec (.getInfo c 0xB) s = answered 0x0BF0 c { r0 := BitVec.ofNat 64 (ofBytesLE ((s.mi.mail.page.drop 4).take 4)), r1 := (0#30 ++ (miStatus s).extractLsb' 0 2) ++ BitVec.ofNat 32 (ofBytesLE ((s.mi.mail.page.drop 8).take 4)) } (entered 0x0BF0 c s)) ∧
  (∀ (s : State) (c : Cmd) (n : Fin 16), runs (commonOp n 0xF1) (n.val == 0xB) c s = true → n.val ≠ 0xB →
     exec (.getStatus c n) s = answered (commonOp n 0xF1) c { buf := .bytes ((statusWords n.val s).flatMap (fun w => bytesLE 4 w.toNat)) } (entered (commonOp n 0xF1) c s)) ∧
  (∀ (s : State) (c : Cmd), runs 0x0BF1 true c s = true →
     exec (.getStatus c 0xB) s = answered 0x0BF1 c (if c.bufLen < 36864 then st .badParam else { buf := .bytes (mailPageView s ++ (List.range 8).flatMap (fun p => if metersOf c s p then mailBlockView s p else .replicate 4096 0)) }) (entered 0x0BF1 c s)) ∧
  (∀ (s : State) (c : Cmd) (n : Fin 16) (op : BitVec 16) (i j : Nat), runs (commonOp n 0xF2) true c s = true →
     exec (.readActive c n op i j) s = answered (commonOp n 0xF2) c (readItem c n op i j s.su.active s) (entered (commonOp n 0xF2) c s)) ∧
  (∀ (s : State) (c : Cmd) (n : Fin 16) (op : BitVec 16) (i j : Nat), runs (commonOp n 0xF3) true c s = true →
     exec (.readStaged c n op i j) s = answered (commonOp n 0xF3) c (readItem c n op i j (overlay (getSession s (issuer c)).staged s.su.active) s) (entered (commonOp n 0xF3) c s)) ∧
  (∀ (s : State) (c : Cmd) (n : Fin 16) (op : BitVec 16) (i j : Nat) (l : List Item) (x : Item), n.val ≠ 0xB → op.toNat / 256 = n.val →
     itemInRange op.toNat i j = true → issuer c = 0 ∨ nameInShare s (issuer c) op.toNat i j = true → itemAt l op.toNat i j = some x →
     readItem c n op i j l s = (if c.bufLen < Config.itemLen x then { status := .badParam, r0 := BitVec.ofNat 64 (Config.itemLen x) } else { r0 := BitVec.ofNat 64 (Config.itemLen x), buf := .items [x] })) ∧
  (∀ (s : State) (c : Cmd) (n : Fin 16) (op : BitVec 16) (i j : Nat) (l : List Item), n.val ≠ 0xB → op.toNat / 256 = n.val →
     itemInRange op.toNat i j = true → issuer c = 0 ∨ nameInShare s (issuer c) op.toNat i j = true → itemAt l op.toNat i j = none →
     readItem c n op i j l s = st .ok) ∧
  (∀ (s : State) (c : Cmd) (n : Fin 16) (op : BitVec 16) (i j : Nat) (l : List Item), n.val ≠ 0xB →
     op.toNat / 256 ≠ n.val ∨ itemInRange op.toNat i j = false → readItem c n op i j l s = st .badParam) ∧
  (∀ (s : State) (c : Cmd) (n : Fin 16) (op : BitVec 16) (i j : Nat) (l : List Item), n.val ≠ 0xB → op.toNat / 256 = n.val →
     itemInRange op.toNat i j = true → issuer c ≠ 0 → nameInShare s (issuer c) op.toNat i j = false → readItem c n op i j l s = suSt .denied) ∧
  (∀ (s : State) (c : Cmd) (n : Fin 16) (op : BitVec 16) (i j : Nat) (l : List Item), n.val = 0xB → readItem c n op i j l s = st .sealed)

/-- Doorbells reach a ring that exists and whose window is not ignored (else nothing): TAIL is set, and one beyond the size of an enabled ring
stops it with its ERR flag; RELEASE is set and the replies below it are released, one beyond TAIL stops an enabled ring. Enabling a
disabled ring of size code 4 to 12 zeroes its indices, one of another size stays disabled; EN 0 disables. COMMAND_FETCH of the ring that
is due takes the entry at HEAD: it is handed on where steps 1 to 3 of its checks pass, else refused with their status; with FENCE it waits
for the earlier replies; a slot outside the apertures is not fetched; beyond 500,000 in a second nothing is. SU_RING_CREATE makes an
instance ring, within the stated values, where the instance is ACTIVE and its share has one left, and SU_RING_DESTROY removes an idle one
and stops another. SU_SESSION_OPEN from a closed session opens one with the next identifier, which then skips 0, and a second one returns
BUSY. SU_STAGE_CHECK of an open or checked session moves it to CHECKED where every check passes, else to OPEN with the failing checks and
CHECK_FAIL set; of a closed or armed one it returns NOT_READY. SU_SESSION_ABORT closes an open or checked session; of an armed one more
than 100 us before T it disarms the commit, answers it and closes, later it returns BUSY, and of a closed one NOT_READY. SU_SESSION_STATUS
and SU_CHECK_REPORT report the session, the latter NOT_READY of a closed one; SU_NOP answers OK. Definitions in it hold choices of the
model: log 107, 124. -/
def Obligations.RingsAndSessionsWork : Prop :=
  (∀ (s : State) (g : RingId) (r : Ring) (v : BitVec 16), s.glob.ready = true → getRing s g = some r → windowIgnores s g r = false →
     r.en = false ∨ (v - r.release).toNat ≤ 2 ^ r.size.toNat → exec (.ringTailWrite g v) s = .next (putRing s g { r with tail := v })) ∧
  (∀ (s : State) (g : RingId) (r : Ring) (v : BitVec 16), s.glob.ready = true → getRing s g = some r → windowIgnores s g r = false →
     r.en = true → 2 ^ r.size.toNat < (v - r.release).toNat →
     ∃ t, exec (.ringTailWrite g v) s = .next t ∧ getRing t g = some { r with tail := v, stopped := true, err := true } ∧ t.glob.ringErr = true ∧ t.ev.count[0x00] = satInc s.ev.count[0x00]) ∧
  (∀ (s : State) (g : RingId) (r : Ring) (v : BitVec 16), s.glob.ready = true → getRing s g = some r → windowIgnores s g r = false →
     r.en = false ∨ (v - r.release).toNat ≤ (r.tail - r.release).toNat →
     ∃ t, exec (.ringReleaseWrite g v) s = .next t ∧ getRing t g = some { r with release := v } ∧ t.su.replies = s.su.replies.filter (fun x => !(x.ring == g && decide ((x.idx - r.release).toNat < (v - r.release).toNat)))) ∧
  (∀ (s : State) (g : RingId) (r : Ring) (v : BitVec 16), s.glob.ready = true → getRing s g = some r → windowIgnores s g r = false →
     r.en = true → (r.tail - r.release).toNat < (v - r.release).toNat →
     ∃ t, exec (.ringReleaseWrite g v) s = .next t ∧ getRing t g = some { r with release := v, stopped := true, err := true } ∧ t.glob.ringErr = true ∧ t.ev.count[0x00] = satInc s.ev.count[0x00]) ∧
  (∀ (s : State) (g : RingId) (v : BitVec 16),
     (s.glob.ready = false ∨ getRing s g = none ∨ ∃ r, getRing s g = some r ∧ windowIgnores s g r = true) →
     exec (.ringTailWrite g v) s = .next s ∧ exec (.ringReleaseWrite g v) s = .next s) ∧
  (∀ (s : State) (k : Fin 4) (v : BitVec 32), s.glob.ready = true → v.getLsbD 0 = true → s.su.mring[k].en = false →
     4 ≤ s.su.mring[k].size.toNat ∧ s.su.mring[k].size.toNat ≤ 12 →
     ∃ t, exec (.ringEnable k v) s = .next t ∧ t.su.mring[k].en = true ∧ t.su.mring[k].head = 0 ∧ t.su.mring[k].tail = 0 ∧ t.su.mring[k].release = 0 ∧ t.su.mring[k].stopped = false ∧ t.su.mring[k].vector = v.extractLsb' 8 11) ∧
  (∀ (s : State) (k : Fin 4) (v : BitVec 32), s.glob.ready = true →
     v.getLsbD 0 = false ∨ (s.su.mring[k].en = false ∧ (s.su.mring[k].size.toNat < 4 ∨ 12 < s.su.mring[k].size.toNat)) →
     ∃ t, exec (.ringEnable k v) s = .next t ∧ t.su.mring[k].en = false) ∧
  (∀ (s : State) (g : RingId) (l : List Byte) (d : Bool) (f : FwFault) (r : Ring) (c : Cmd) (op : BitVec 16), s.glob.ready = true →
     dueRing s = some g → getRing s g = some r → decodeEntry g r.head l d f = (c, op) →
     inAperture s (issuer c) (slotAddr r.cbase r.size 64 r.head).toNat 64 = true → c.fence = false ∨ r.inflight = [] →
     (limited 0x30000 0 (secTu 1) 500000 s).1 = true → fetchRefusal s c op = none → c.fault ≠ .before →
     ∃ t, exec (.commandFetch g l d f) s = .next t ∧ getRing t g = some { r with head := r.head + 1, inflight := r.inflight ++ [r.head], dispatch := r.dispatch ++ [(c, op)] } ∧ t.su.order = s.su.order ∧ t.out = s.out) ∧
  (∀ (s : State) (g : RingId) (l : List Byte) (d : Bool) (f : FwFault) (r : Ring) (c : Cmd) (op : BitVec 16) (e : Status),
     s.glob.ready = true → dueRing s = some g → getRing s g = some r → decodeEntry g r.head l d f = (c, op) →
     inAperture s (issuer c) (slotAddr r.cbase r.size 64 r.head).toNat 64 = true → c.fence = false ∨ r.inflight = [] →
     (limited 0x30000 0 (secTu 1) 500000 s).1 = true → fetchRefusal s c op = some e →
     ∃ t, exec (.commandFetch g l d f) s = .next (reply { cmd := { c with fault := .none }, opcode := op } (suSt e) t) ∧ getRing t g = some { r with head := r.head + 1, inflight := r.inflight ++ [r.head] } ∧ t.su.order = s.su.order) ∧
  (∀ (s : State) (g : RingId) (l : List Byte) (d : Bool) (f : FwFault) (r : Ring) (c : Cmd) (op : BitVec 16), s.glob.ready = true →
     dueRing s = some g → getRing s g = some r → decodeEntry g r.head l d f = (c, op) →
     inAperture s (issuer c) (slotAddr r.cbase r.size 64 r.head).toNat 64 = true → c.fence = true → r.inflight ≠ [] →
     exec (.commandFetch g l d f) s = .next (servedRing g s)) ∧
  (∀ (s : State) (g : RingId) (l : List Byte) (d : Bool) (f : FwFault) (r : Ring) (c : Cmd) (op : BitVec 16), s.glob.ready = true →
     dueRing s = some g → getRing s g = some r → decodeEntry g r.head l d f = (c, op) →
     inAperture s (issuer c) (slotAddr r.cbase r.size 64 r.head).toNat 64 = false →
     exec (.commandFetch g l d f) s = .next (apertureHit (issuer c) (servedRing g s))) ∧
  (∀ (s : State) (g : RingId) (l : List Byte) (d : Bool) (f : FwFault), s.glob.ready = false ∨ dueRing s ≠ some g →
     exec (.commandFetch g l d f) s = .next s) ∧
  (∀ (s : State) (c : Cmd) (i : Nat) (r : Fin 2) (cb rb : BitVec 64) (z v : BitVec 4), runs 0x0020 false c s = true → 1 ≤ i ∧ i ≤ 64 →
     4 ≤ z.toNat ∧ z.toNat ≤ 12 → cb.toNat % 4096 = 0 ∧ rb.toNat % 4096 = 0 → instState s i = .active →
     ringCount s i < (s.im.inst.getD i {}).shares.rings → s.su.iring.get? (i, r.val) = none →
     exec (.suRingCreate c i r cb rb z v) s = answered 0x0020 c (st .ok) (onSu (fun u => { u with iring := u.iring.put (i, r.val) { en := true, cbase := cb, rbase := rb, size := z, vector := v.zeroExtend 11 } }) (entered 0x0020 c s))) ∧
  (∀ (s : State) (c : Cmd) (i : Nat) (r : Fin 2) (cb rb : BitVec 64) (z v : BitVec 4), runs 0x0020 false c s = true →
     i < 1 ∨ 64 < i ∨ z.toNat < 4 ∨ 12 < z.toNat ∨ cb.toNat % 4096 ≠ 0 ∨ rb.toNat % 4096 ≠ 0 →
     exec (.suRingCreate c i r cb rb z v) s = answered 0x0020 c (st .badParam) (entered 0x0020 c s)) ∧
  (∀ (s : State) (c : Cmd) (i : Nat) (r : Fin 2) (cb rb : BitVec 64) (z v : BitVec 4), runs 0x0020 false c s = true → 1 ≤ i ∧ i ≤ 64 →
     4 ≤ z.toNat ∧ z.toNat ≤ 12 → cb.toNat % 4096 = 0 ∧ rb.toNat % 4096 = 0 →
     instState s i ≠ .active ∨ (s.im.inst.getD i {}).shares.rings ≤ ringCount s i →
     exec (.suRingCreate c i r cb rb z v) s = answered 0x0020 c (st (if instState s i = .active then .quota else .notReady)) (entered 0x0020 c s)) ∧
  (∀ (s : State) (c : Cmd) (i : Nat) (r : Fin 2) (x : Ring), runs 0x0021 false c s = true → c.ring ≠ .inst i r.val →
     s.su.iring.get? (i, r.val) = some x → x.inflight = [] →
     exec (.suRingDestroy c i r) s = answered 0x0021 c (st .ok) (onSu (fun u => { u with iring := u.iring.del (i, r.val) }) (entered 0x0021 c s))) ∧
  (∀ (s : State) (c : Cmd) (i : Nat) (r : Fin 2) (x : Ring), runs 0x0021 false c s = true → c.ring ≠ .inst i r.val →
     s.su.iring.get? (i, r.val) = some x → x.inflight ≠ [] →
     exec (.suRingDestroy c i r) s = .next (outstanding { cmd := c, opcode := 0x0021 } (onSu (fun u => { u with iring := u.iring.put (i, r.val) { x with stopped := true, destroy := x.destroy ++ [{ cmd := c, opcode := 0x0021 }] } }) (entered 0x0021 c s)))) ∧
  (∀ (s : State) (c : Cmd) (i : Nat) (r : Fin 2), runs 0x0021 false c s = true → c.ring ≠ .inst i r.val → s.su.iring.get? (i, r.val) = none →
     exec (.suRingDestroy c i r) s = answered 0x0021 c (st .badParam) (entered 0x0021 c s)) ∧
  (∀ (s : State) (c : Cmd), runs 0x0010 true c s = true → (getSession s (issuer c)).state = .closed →
     exec (.suSessionOpen c) s = answered 0x0010 c { r0 := s.su.sessNext.zeroExtend 64 } (onSu (fun u => { u with sessions := u.sessions.put (issuer c) { state := .opened, id := s.su.sessNext }, sessNext := if s.su.sessNext + 1 = 0 then 1 else s.su.sessNext + 1 }) (entered 0x0010 c s))) ∧
  (∀ (s : State) (c : Cmd), runs 0x0010 true c s = true → (getSession s (issuer c)).state ≠ .closed →
     exec (.suSessionOpen c) s = answered 0x0010 c (suSt .busy) (entered 0x0010 c s)) ∧
  (∀ (s : State) (c : Cmd) (d : Bool), runs 0x0011 true c s = true →
     (getSession s (issuer c)).state = .opened ∨ (getSession s (issuer c)).state = .checked →
     allChecks (entered 0x0011 c s) (issuer c) d (checkView (entered 0x0011 c s) (getSession s (issuer c))) = [] →
     exec (.suStageCheck c d) s = answered 0x0011 c (suSt .ok) (putSession (entered 0x0011 c s) (issuer c) { (getSession s (issuer c)) with state := .checked, checkRun := true, failing := [], dropForces := d })) ∧
  (∀ (s : State) (c : Cmd) (d : Bool) (f : CheckFail) (l : List CheckFail), runs 0x0011 true c s = true →
     (getSession s (issuer c)).state = .opened ∨ (getSession s (issuer c)).state = .checked →
     allChecks (entered 0x0011 c s) (issuer c) d (checkView (entered 0x0011 c s) (getSession s (issuer c))) = f :: l →
     exec (.suStageCheck c d) s = answered 0x0011 c { status := .checkFailed, detail := f.code, subsys := some (Fin.ofNat 16 f.subsys), r0 := BitVec.ofNat 64 f.index, r1 := BitVec.ofNat 64 (l.length + 1) } (onGlob (fun g => { g with checkFail := true }) (putSession (entered 0x0011 c s) (issuer c) { (getSession s (issuer c)) with state := .opened, checkRun := true, failing := f :: l, dropForces := false }))) ∧
  (∀ (s : State) (c : Cmd) (d : Bool), runs 0x0011 true c s = true →
     (getSession s (issuer c)).state = .closed ∨ (getSession s (issuer c)).state = .armed →
     exec (.suStageCheck c d) s = answered 0x0011 c (suSt .notReady) (entered 0x0011 c s)) ∧
  (∀ (s : State) (c : Cmd), runs 0x0013 true c s = true →
     (getSession s (issuer c)).state = .opened ∨ (getSession s (issuer c)).state = .checked →
     exec (.suSessionAbort c) s = answered 0x0013 c (st .ok) (onSu (fun u => { u with sessions := u.sessions.del (issuer c) }) (entered 0x0013 c s))) ∧
  (∀ (s : State) (c : Cmd) (a : ArmedCommit), runs 0x0013 true c s = true → (getSession s (issuer c)).state = .armed → s.su.armed = some a →
     ltDiff s.now a.t ≤ -(usTu 100 : Int) →
     exec (.suSessionAbort c) s = answered 0x0013 c (st .ok) (commitFailed a 3 a.t (closeSession (issuer c) (disarm (entered 0x0013 c s))))) ∧
  (∀ (s : State) (c : Cmd) (a : ArmedCommit), runs 0x0013 true c s = true → (getSession s (issuer c)).state = .armed → s.su.armed = some a →
     -(usTu 100 : Int) < ltDiff s.now a.t → exec (.suSessionAbort c) s = answered 0x0013 c (st .busy) (entered 0x0013 c s)) ∧
  (∀ (s : State) (c : Cmd), runs 0x0013 true c s = true → (getSession s (issuer c)).state = .closed →
     exec (.suSessionAbort c) s = answered 0x0013 c (suSt .notReady) (entered 0x0013 c s)) ∧
  (∀ (s : State) (c : Cmd), runs 0x0014 true c s = true →
     exec (.suSessionStatus c) s = answered 0x0014 c { status := .ok, detail := (match (getSession s (issuer c)).state with | .closed => 0 | .opened => 1 | .checked => 2 | .armed => 3), r0 := if (getSession s (issuer c)).state = .armed then ((s.su.armed.map (·.t)).getD 0) else 0, r1 := if (getSession s (issuer c)).state = .closed then 0 else BitVec.ofNat 64 ((getSession s (issuer c)).bytes % 2 ^ 32 + (getSession s (issuer c)).id.toNat * 2 ^ 32) } (entered 0x0014 c s)) ∧
  (∀ (s : State) (c : Cmd), runs 0x0015 true c s = true → (getSession s (issuer c)).state ≠ .closed →
     ∃ b, exec (.suCheckReport c) s = answered 0x0015 c b (entered 0x0015 c s) ∧ b.status = .ok ∧ b.r0 = BitVec.ofNat 64 (min (c.bufLen / 16) (getSession s (issuer c)).failing.length) ∧ b.r1 = BitVec.ofNat 64 (getSession s (issuer c)).failing.length) ∧
  (∀ (s : State) (c : Cmd), runs 0x0015 true c s = true → (getSession s (issuer c)).state = .closed →
     exec (.suCheckReport c) s = answered 0x0015 c (suSt .notReady) (entered 0x0015 c s)) ∧
  (∀ (s : State) (c : Cmd), runs 0x0022 true c s = true → exec (.suNop c) s = answered 0x0022 c (st .ok) (entered 0x0022 c s))

/-- SU_COMMIT of a checked session, with no commit armed and no resynchronisation, at an allowed instant (0 stands for the first allowed
boundary) arms TCU0 with the instant and the session becomes ARMED; with ASYNC it answers PENDING with T, otherwise its reply waits. It
answers BUSY for an armed session, another armed commit or a resynchronisation, NOT_READY for a session not checked, BAD_PARAM for other
flags than PERSIST, for an instant that is not allowed, with the first allowed one, and for PERSIST without the staged package stored, and
LOG_FULL. When TCU0 fires at T the strobe clears the armed commit, closes the session and starts the resynchronisation of the items
committed and removed; the resynchronisation ends; a preparation not complete 100 us before T disarms the commit, whose session is CHECKED
again. SU_PKG_LOAD, with an extent list whose lengths are those of the package and no load running, drops the held package and starts
verifying the new one, answering PENDING with ASYNC; it answers BAD_PARAM for another list, BUSY while a load runs and LOG_FULL with
STORE. After the verification a package that fails a check is dropped with the status of that check, one that passes is held and answered
with its identifier, with STORE first written to the flash slot the boot selector does not name; with ASYNC the end is an event.
SU_PKG_STAGE lays the content of the held package in the place of the staged items of its sections; it answers NOT_READY without package
or session, BUSY, BAD_PARAM for a bad code image and QUOTA. SU_PKG_STATUS answers the held and the boot package. After a persistent commit
the selector names the slot of that package and the generation minimum does not fall. Definitions in it hold choices of the model: log 7,
92, 124, 125, 139. -/
def Obligations.CommitsAndPackagesWork : Prop :=
  (∀ (s : State) (c : Cmd) (t T : LT) (f : BitVec 32), runs 0x0012 true c s = true → (getSession s (issuer c)).state = .checked →
     s.su.armed = none → s.su.resync = false → logFull s = false →
     T = (if t = 0 then boundaryFrom s (commitMin s (getSession s (issuer c)).bytes) else t) →
     0 ≤ ltDiff T (commitMin s (getSession s (issuer c)).bytes) → boundaryFrom s T = T → ltDiff T s.now ≤ (secTu 3600 : Int) →
     f = 0 ∨ (f = 1 ∧ persistOk s (getSession s (issuer c)) = true) → c.async = true →
     ∃ u a, exec (.suCommit c t f) s = answered 0x0012 c { status := .pending, r0 := T } u ∧ u.su.armed = some a ∧ a.owner = issuer c ∧ a.t = T ∧ a.items = (getSession s (issuer c)).staged ∧ a.persist = f.getLsbD 0 ∧ (getSession u (issuer c)).state = .armed ∧ (getTcu u 0).en = true ∧ (getTcu u 0).target = T ∧ (getTcu u 0).periodic = false) ∧
  (∀ (s : State) (c : Cmd) (t T : LT) (f : BitVec 32), runs 0x0012 true c s = true → (getSession s (issuer c)).state = .checked →
     s.su.armed = none → s.su.resync = false → logFull s = false →
     T = (if t = 0 then boundaryFrom s (commitMin s (getSession s (issuer c)).bytes) else t) →
     0 ≤ ltDiff T (commitMin s (getSession s (issuer c)).bytes) → boundaryFrom s T = T → ltDiff T s.now ≤ (secTu 3600 : Int) →
     f = 0 ∨ (f = 1 ∧ persistOk s (getSession s (issuer c)) = true) → c.async = false →
     ∃ u a, exec (.suCommit c t f) s = .next u ∧ u.su.armed = some a ∧ a.owner = issuer c ∧ a.t = T ∧ a.items = (getSession s (issuer c)).staged ∧ a.persist = f.getLsbD 0 ∧ (getSession u (issuer c)).state = .armed ∧ (getTcu u 0).en = true ∧ (getTcu u 0).target = T ∧ (getTcu u 0).periodic = false ∧ u.su.replies = s.su.replies) ∧
  (∀ (s : State) (c : Cmd) (t : LT) (f : BitVec 32), runs 0x0012 true c s = true →
     (getSession s (issuer c)).state = .armed ∨ ((getSession s (issuer c)).state = .checked ∧ (s.su.armed.isSome = true ∨ s.su.resync = true)) →
     exec (.suCommit c t f) s = answered 0x0012 c (suSt .busy) (entered 0x0012 c s)) ∧
  (∀ (s : State) (c : Cmd) (t : LT) (f : BitVec 32), runs 0x0012 true c s = true →
     (getSession s (issuer c)).state = .closed ∨ (getSession s (issuer c)).state = .opened →
     exec (.suCommit c t f) s = answered 0x0012 c (suSt .notReady) (entered 0x0012 c s)) ∧
  (∀ (s : State) (c : Cmd) (t : LT) (f : BitVec 32), runs 0x0012 true c s = true → (getSession s (issuer c)).state = .checked →
     s.su.armed = none → s.su.resync = false → f ≠ 0 → f ≠ 1 → exec (.suCommit c t f) s = answered 0x0012 c (st .badParam) (entered 0x0012 c s)) ∧
  (∀ (s : State) (c : Cmd) (t T : LT) (f : BitVec 32), runs 0x0012 true c s = true → (getSession s (issuer c)).state = .checked →
     s.su.armed = none → s.su.resync = false → f = 0 ∨ f = 1 →
     T = (if t = 0 then boundaryFrom s (commitMin s (getSession s (issuer c)).bytes) else t) →
     ltDiff T (commitMin s (getSession s (issuer c)).bytes) < 0 ∨ boundaryFrom s T ≠ T ∨ (secTu 3600 : Int) < ltDiff T s.now →
     exec (.suCommit c t f) s = answered 0x0012 c { status := .badParam, r0 := boundaryFrom s (commitMin s (getSession s (issuer c)).bytes) } (entered 0x0012 c s)) ∧
  (∀ (s : State) (c : Cmd) (t T : LT) (f : BitVec 32), runs 0x0012 true c s = true → (getSession s (issuer c)).state = .checked →
     s.su.armed = none → s.su.resync = false → T = (if t = 0 then boundaryFrom s (commitMin s (getSession s (issuer c)).bytes) else t) →
     0 ≤ ltDiff T (commitMin s (getSession s (issuer c)).bytes) → boundaryFrom s T = T → ltDiff T s.now ≤ (secTu 3600 : Int) → f = 1 →
     persistOk s (getSession s (issuer c)) = false → exec (.suCommit c t f) s = answered 0x0012 c (st .badParam) (entered 0x0012 c s)) ∧
  (∀ (s : State) (c : Cmd) (t T : LT) (f : BitVec 32), runs 0x0012 true c s = true → (getSession s (issuer c)).state = .checked →
     s.su.armed = none → s.su.resync = false → T = (if t = 0 then boundaryFrom s (commitMin s (getSession s (issuer c)).bytes) else t) →
     0 ≤ ltDiff T (commitMin s (getSession s (issuer c)).bytes) → boundaryFrom s T = T → ltDiff T s.now ≤ (secTu 3600 : Int) →
     f = 0 ∨ (f = 1 ∧ persistOk s (getSession s (issuer c)) = true) → logFull s = true →
     exec (.suCommit c t f) s = answered 0x0012 c (st .logFull) (entered 0x0012 c s)) ∧
  (∀ (s : State) (a : ArmedCommit), s.su.armed = some a → tcuDue s 0 = true →
     ∃ t, exec .commitStrobe s = .next t ∧ t.su.armed = none ∧ t.su.resync = true ∧ t.su.resyncItems = a.items ++ a.removed ∧ (getSession t a.owner).state = .closed) ∧
  (∀ (s : State), s.su.armed = none ∨ tcuDue s 0 = false → exec .commitStrobe s = .next s) ∧
  (∀ (s : State), exec .bankResyncEnd s = .next { s with su := { s.su with resync := false, resyncItems := [] } }) ∧
  (∀ (s : State) (a : ArmedCommit), s.su.armed = some a → -(usTu 100 : Int) ≤ ltDiff s.now a.t →
     ∃ t, exec (.commitPrepDeadline false) s = .next t ∧ t.su.armed = none ∧ (getTcu t 0).en = false ∧ t.glob.commitFail = true ∧ (a.cmd.fault = .none → (getSession t a.owner).state = .checked)) ∧
  (∀ (s : State) (b : Bool), (b = true ∨ s.su.armed = none ∨ ∃ a, s.su.armed = some a ∧ ltDiff s.now a.t < -(usTu 100 : Int)) →
     exec (.commitPrepDeadline b) s = .next s) ∧
  (∀ (s : State) (c : Cmd) (x : List (BitVec 64 × BitVec 64)) (p : Package) (b : Bool), runs 0x0018 false c s = true →
     1 ≤ x.length ∧ x.length ≤ 4096 → c.indLen = 16 * x.length → (x.map (·.2.toNat)).sum = p.raw.length → s.su.pkg.loading = none →
     (b = true → logFull s = false) → exec (.suPkgLoad c x p b) s = .next (afterLoad c p b (entered 0x0018 c s))) ∧
  (∀ (s : State) (c : Cmd) (x : List (BitVec 64 × BitVec 64)) (p : Package) (b : Bool), runs 0x0018 false c s = true →
     x.length = 0 ∨ 4096 < x.length ∨ c.indLen ≠ 16 * x.length ∨ (x.map (·.2.toNat)).sum ≠ p.raw.length →
     exec (.suPkgLoad c x p b) s = answered 0x0018 c (st .badParam) (entered 0x0018 c s)) ∧
  (∀ (s : State) (c : Cmd) (x : List (BitVec 64 × BitVec 64)) (p : Package) (b : Bool), runs 0x0018 false c s = true →
     1 ≤ x.length ∧ x.length ≤ 4096 → c.indLen = 16 * x.length → (x.map (·.2.toNat)).sum = p.raw.length →
     s.su.pkg.loading.isSome = true ∨ (b = true ∧ logFull s = true) →
     exec (.suPkgLoad c x p b) s = answered 0x0018 c (st (if s.su.pkg.loading.isSome then .busy else .logFull)) (entered 0x0018 c s)) ∧
  (∀ (s : State) (p : Package) (w : Waiting), s.su.pkg.loading = some (p, .verifying, w) →
     exec .pkgVerifyDone s = .next (match packageRefusal s p with | some e => packageDone w (st e) s | none => if s.su.pkg.loadStore then { s with su := { s.su with pkg := { s.su.pkg with held := some p, loading := some (p, .writing, w), flash := vmod s.su.pkg.flash (bitN (!s.su.pkg.bootSel)) (fun _ => none) } } } else packageDone w { r0 := pkgId p } { s with su := { s.su with pkg := { s.su.pkg with held := some p } } })) ∧
  (∀ (s : State) (w : Waiting) (b : ReplyBody),
     packageDone w b s = (if w.cmd.async then raise 0x06 0 { s with su := { s.su with pkg := { s.su.pkg with loading := none } } } else reply w b { s with su := { s.su with pkg := { s.su.pkg with loading := none } } })) ∧
  (∀ (s : State) (p : Package), pkgWellFormed p = false → packageRefusal s p = some .badParam) ∧
  (∀ (s : State) (p : Package) (w : Waiting), s.su.pkg.loading = some (p, .writing, w) →
     ∃ t, exec .pkgFlashWriteDone s = .next t ∧ t.su.pkg.stored = true ∧ t.su.pkg.loading = none ∧ t.su.pkg.flash[bitN (!s.su.pkg.bootSel)]? = some (some p) ∧ t.su.pkg.held = s.su.pkg.held) ∧
  (∀ (s : State), (∀ p w, s.su.pkg.loading ≠ some (p, .writing, w)) → exec .pkgFlashWriteDone s = .next s) ∧
  (∀ (s : State), (∀ p w, s.su.pkg.loading ≠ some (p, .verifying, w)) → exec .pkgVerifyDone s = .next s) ∧
  (∀ (s : State) (c : Cmd) (p : Package), runs 0x0019 false c s = true → s.su.pkg.held = some p →
     (getSession s 0).state = .opened ∨ (getSession s 0).state = .checked → (pkgKeys p).any (fun k => stageBusy s 0 k.1) = false →
     pkgBadImage p = false →
     ((overlay (pkgItems p) ((getSession s 0).staged.filter (fun i => !(pkgKeys p).contains (itemSection s i)))).map Config.itemLen).sum ≤ stagingShare s 0 →
     ∃ t, exec (.suPkgStage c) s = answered 0x0019 c (st .ok) t ∧ (getSession t 0).state = .opened ∧ (getSession t 0).staged = overlay (pkgItems p) ((getSession s 0).staged.filter (fun i => !(pkgKeys p).contains (itemSection s i))) ∧ (getSession t 0).bytes = ((overlay (pkgItems p) ((getSession s 0).staged.filter (fun i => !(pkgKeys p).contains (itemSection s i)))).map Config.itemLen).sum) ∧
  (∀ (s : State) (c : Cmd), runs 0x0019 false c s = true →
     s.su.pkg.held = none ∨ (getSession s 0).state = .closed ∨ (getSession s 0).state = .armed →
     exec (.suPkgStage c) s = answered 0x0019 c (st .notReady) (entered 0x0019 c s)) ∧
  (∀ (s : State) (c : Cmd) (p : Package), runs 0x0019 false c s = true → s.su.pkg.held = some p →
     (getSession s 0).state = .opened ∨ (getSession s 0).state = .checked →
     (pkgKeys p).any (fun k => stageBusy s 0 k.1) = true ∨ pkgBadImage p = true ∨ stagingShare s 0 < ((overlay (pkgItems p) ((getSession s 0).staged.filter (fun i => !(pkgKeys p).contains (itemSection s i)))).map Config.itemLen).sum →
     exec (.suPkgStage c) s = answered 0x0019 c (st (if (pkgKeys p).any (fun k => stageBusy s 0 k.1) then .busy else if pkgBadImage p then .badParam else .quota)) (entered 0x0019 c s)) ∧
  (∀ (s : State) (c : Cmd), runs 0x001A false c s = true →
     exec (.suPkgStatus c) s = answered 0x001A c { r0 := (s.su.pkg.held.map pkgId).getD 0, r1 := (s.su.pkg.booted.map pkgId).getD 0 } (entered 0x001A c s)) ∧
  (∀ (s : State) (p : Package) (t : LT) (i : BitVec 16) (n : Nat), s.su.pkg.persistDue = some (p, t, i, n) →
     ∃ u, exec .bootSelectorWrite s = .next u ∧ u.su.pkg.persistDue = none ∧ u.su.pkg.intent = none ∧ s.su.pkg.genMin.toNat ≤ u.su.pkg.genMin.toNat ∧ (pkgGeneration p).toNat ≤ u.su.pkg.genMin.toNat ∧ (flashHolds s (!s.su.pkg.bootSel) p = true → u.su.pkg.bootSel = !s.su.pkg.bootSel)) ∧
  (∀ (s : State), s.su.pkg.persistDue = none → exec .bootSelectorWrite s = .next s)

/-- A frame received while PX is ready is taken as receiveFrame says, under the settings before the last commit where its first byte came
before it (R88, R112). A frame on a disabled port does nothing; one that is not good is counted in its class and treated as R106 says; a
good MAC control frame is consumed; a frame that MACsec or the duplicate discard drops leaves no other trace; every other good frame goes
on to the address filter and the fabric. A PAUSE timer that has expired ends the pause, an earlier one does not. What the receiver of an
enabled port finds decides its link: up with the PCS locked, FEC locked where enabled, no fault sequence and a supported partner; a
changed link sets LINK_CHG, and so does an unsupported partner that keeps it down. SUPERVISION_TX sends for the node, and as a RedBox for
its proxied nodes, each LifeCheckInterval; SUPERVISION_RX keeps the node table; forgotten duplicates and aged proxy entries are removed.
Definitions in it hold choices of the model: log 114, 126, 129. -/
def Obligations.FrameReception : Prop :=
  (∀ (s : State) (p : Fin 14) (f : Frame) (t : LT) (tie : Bool), s.px.ready = true →
     (s.px.old = none ∨ ∃ b, s.px.old = some b ∧ 0 ≤ ltDiff t b.t) →
     exec (.frameReceive p f t tie) s = .next (dropPurged p.val (receiveFrame p.val f t tie s))) ∧
  (∀ (s : State) (b : NetBank) (p : Fin 14) (f : Frame) (t : LT) (tie : Bool), s.px.ready = true → s.px.old = some b → ltDiff t b.t < 0 →
     exec (.frameReceive p f t tie) s = .next (dropPurged p.val (underBank b (receiveFrame p.val f t tie) s))) ∧
  (∀ (s : State) (p : Fin 14) (f : Frame) (t : LT) (tie : Bool), s.px.ready = false → exec (.frameReceive p f t tie) s = .next s) ∧
  (∀ (s : State) (p : Nat) (f : Frame) (t : LT) (tie : Bool), (getPx s p).cfg.phy = .disabled → receiveFrame p f t tie s = s) ∧
  (∀ (s : State) (p : Nat) (f : Frame) (t : LT) (tie : Bool), (getPx s p).cfg.phy ≠ .disabled → rxClass f.len (rxMax s p f t) f.fcsOk ≠ .good →
     receiveFrame p f t tie s = badFrame p f (rxClass f.len (rxMax s p f t) f.fcsOk) (rxMax s p f t) (rxStamp s p t) (if f.codeErr then pxCount p 14 (pxCountBy p 1 f.len s) else pxCountBy p 1 f.len s)) ∧
  (∀ (s : State) (p : Nat) (f : Frame) (t : LT) (tie : Bool), (getPx s p).cfg.phy ≠ .disabled → rxClass f.len (rxMax s p f t) f.fcsOk = .good →
     f.etype = 0x8808 →
     receiveFrame p f t tie s = macControl p f (goodCounters p f (innerFrame p f t (if f.codeErr then pxCount p 14 (pxCountBy p 1 f.len s) else pxCountBy p 1 f.len s)) (if f.codeErr then pxCount p 14 (pxCountBy p 1 f.len s) else pxCountBy p 1 f.len s))) ∧
  (∀ (s : State) (p : Nat) (f : Frame) (t : LT) (tie : Bool) (u : State), (getPx s p).cfg.phy ≠ .disabled →
     rxClass f.len (rxMax s p f t) f.fcsOk = .good → f.etype ≠ 0x8808 →
     macsecRx p f t (goodCounters p f (innerFrame p f t (if f.codeErr then pxCount p 14 (pxCountBy p 1 f.len s) else pxCountBy p 1 f.len s)) (if f.codeErr then pxCount p 14 (pxCountBy p 1 f.len s) else pxCountBy p 1 f.len s)) = (u, .discard) →
     receiveFrame p f t tie s = u) ∧
  (∀ (s : State) (p : Nat) (f : Frame) (t : LT) (tie : Bool) (u v : State) (g : Frame) (m : Nat), (getPx s p).cfg.phy ≠ .disabled →
     rxClass f.len (rxMax s p f t) f.fcsOk = .good → f.etype ≠ 0x8808 →
     macsecRx p f t (goodCounters p f (innerFrame p f t (if f.codeErr then pxCount p 14 (pxCountBy p 1 f.len s) else pxCountBy p 1 f.len s)) (if f.codeErr then pxCount p 14 (pxCountBy p 1 f.len s) else pxCountBy p 1 f.len s)) = (u, .pass g m) →
     redundancyRx p g (rxStamp s p t) tie u = (v, none) → receiveFrame p f t tie s = v) ∧
  (∀ (s : State) (p : Nat) (f : Frame) (t : LT) (tie : Bool) (u v : State) (g h : Frame) (m n : Nat), (getPx s p).cfg.phy ≠ .disabled →
     rxClass f.len (rxMax s p f t) f.fcsOk = .good → f.etype ≠ 0x8808 →
     macsecRx p f t (goodCounters p f (innerFrame p f t (if f.codeErr then pxCount p 14 (pxCountBy p 1 f.len s) else pxCountBy p 1 f.len s)) (if f.codeErr then pxCount p 14 (pxCountBy p 1 f.len s) else pxCountBy p 1 f.len s)) = (u, .pass g m) →
     redundancyRx p g (rxStamp s p t) tie u = (v, some (h, n)) →
     receiveFrame p f t tie s = frameForward p h (rxStamp s p t) (decide (0 < g.tags)) f.codeErr (m + n) v) ∧
  (∀ (s : State) (p : Fin 14) (e : LT), s.px.port[p].pauseEnd = some e → ltReached s.now e = true →
     ∃ t, exec (.pauseTimerExpiry p) s = .next t ∧ t.px.port[p].pauseEnd = none) ∧
  (∀ (s : State) (p : Fin 14), (∀ e, s.px.port[p].pauseEnd = some e → ltReached s.now e = false) → exec (.pauseTimerExpiry p) s = .next s) ∧
  (∀ (s : State) (p : Fin 14) (pcs fec us : Bool) (g : RsFault), s.px.ready = true → s.px.port[p].cfg.phy ≠ .disabled →
     ∃ t, exec (.linkStateChange p pcs fec g us) s = .next t ∧ t.px.port[p].linkUp = (!us && pcs && (portFec s.px.port[p].cfg == .none || fec) && (!hasRs s.px.port[p].cfg || g == .none)) ∧ (t.px.port[p].linkUp ≠ s.px.port[p].linkUp ∨ (us ∧ !s.px.port[p].linkUp) → t.px.port[p].linkChg = true ∧ t.px.linkChg = true)) ∧
  (∀ (s : State) (p : Fin 14) (pcs fec us : Bool) (g : RsFault), s.px.ready = false ∨ s.px.port[p].cfg.phy = .disabled →
     exec (.linkStateChange p pcs fec g us) s = .next s) ∧
  (∀ (s : State) (k : Fin 2) (m : Mac), s.px.pair[k].cfg.mode ≠ .independent →
     ∃ t, exec (.supervisionRx k m) s = .next t ∧ t.px.pair[k].nodes = s.px.pair[k].nodes.put m s.now ∧ t.px.pair[k].ddt = s.px.pair[k].ddt) ∧
  (∀ (s : State) (k : Fin 2) (m : Mac), s.px.pair[k].cfg.mode = .independent → exec (.supervisionRx k m) s = .next s) ∧
  (∀ (s : State) (k : Fin 2), s.glob.ready = true → s.px.pair[k].cfg.mode ≠ .independent →
     ltReached s.now (ltAdd s.px.pair[k].supAt (msTu s.px.pair[k].cfg.lifeMs)) = true →
     exec (.supervisionTx k) s = .next ((if s.px.pair[k].cfg.redBox then s.px.pair[k].proxy else []).foldl (fun s e => sendSupervision k.val e.mac s) (sendSupervision k.val s.px.pair[k].cfg.node (modPair k.val (fun x => { x with supAt := s.now }) s)))) ∧
  (∀ (s : State) (k : Fin 2),
     s.glob.ready = false ∨ s.px.pair[k].cfg.mode = .independent ∨ ltReached s.now (ltAdd s.px.pair[k].supAt (msTu s.px.pair[k].cfg.lifeMs)) = false →
     exec (.supervisionTx k) s = .next s) ∧
  (∀ (s : State) (k : Fin 2),
     ∃ t, exec (.ddtForget k) s = .next t ∧ t.px.pair[k].ddt = s.px.pair[k].ddt.filter (fun e => !ltReached s.now e.forgetAt) ∧ t.px.pair[k].ringSeen = s.px.pair[k].ringSeen.filter (fun e => !ltReached s.now e.2.forgetAt) ∧ t.px.port = s.px.port) ∧
  (∀ (s : State) (k : Fin 2),
     ∃ t, exec (.proxyAgeing k) s = .next t ∧ t.px.pair[k].proxy = s.px.pair[k].proxy.filter (fun e => !ltReached s.now e.expires) ∧ t.px.port = s.px.port)

/-- While SW is ready a frame that waits for ring forwarding goes first on an idle port of a pair; else a port with nothing in transmission
whose MACs are free takes the next copy of its highest class, an internal port hands it to QM, an Ethernet port to its MAC, and one with
an uncorrectable guard error is discarded and counted; else nothing starts. The end of a frame sends it and frees the port, with a bad FCS
where a guard error was met; an internal port lets its copy go; with nothing in transmission nothing happens. PX_MACSEC_SA_SET installs an
association whose key MACsec may use on that port, refuses one it may not with the status R489 gives, or removes one; PX_MACSEC_TX_AN
selects the transmit association number. The oldest copy of a class that has crossed stage 1 is queued, its intermediate's peak noted
first; one found with an uncorrectable guard error on the way is discarded and counted; while no copy crosses, or the oldest has not
crossed stage 1, nothing happens. A link held down past its hold time enters DOWN, unless it comes back on that tick; else nothing. A head
frame older than MAX_AGE is discarded and counted; one that is not, or on a port that is DOWN or DISABLED, stays. Aged entries leave the
forwarding database, static ones stay. The mirror ring is enabled with its indices at 0, stays disabled with a size outside 6 to 16, and
is disabled by EN 0. SW_FDB_READ answers the entries that fit. Definitions in it hold choices of the model: log 13, 14, 126, 132. -/
def Obligations.TransmissionAndFabric : Prop :=
  (∀ (s : State) (p : Fin 16) (g : Option GuardFind) (k : Nat) (t : State), s.sw.ready = true → enabledPair s p.val = some k →
     macIdle s p.val = true → startRing k p.val s = some t → exec (.transmitStart p g) s = .next t) ∧
  (∀ (s : State) (p : Fin 16) (c : Copy) (g : Option GuardFind), s.sw.ready = true →
     ((enabledPair s p.val = none ∨ macIdle s p.val = false ∨ ∀ k, enabledPair s p.val = some k → startRing k p.val s = none)) →
     (14 ≤ p.val ∨ (txPorts s p.val ≠ [] ∧ (txPorts s p.val).all (macIdle s) = true)) → (getSw s p.val).sending = none →
     nextCopy s p.val = some c → g = none ∨ g = some .corrected →
     exec (.transmitStart p g) s = .next (if 14 ≤ p.val then mirrorCopy 2 p.val c (modSw p.val (fun x => { x with sending := some c }) (dropCopy p.val c.cls (guardRead 0x2 g s).2)) else startCopy p.val c (guardRead 0x2 g s).2)) ∧
  (∀ (s : State) (p : Fin 16) (c : Copy) (h : GuardHit), s.sw.ready = true →
     ((enabledPair s p.val = none ∨ macIdle s p.val = false ∨ ∀ k, enabledPair s p.val = some k → startRing k p.val s = none)) →
     (14 ≤ p.val ∨ (txPorts s p.val ≠ [] ∧ (txPorts s p.val).all (macIdle s) = true)) → (getSw s p.val).sending = none →
     nextCopy s p.val = some c → exec (.transmitStart p (some (.uncorrectable h))) s = .next (guardDrop p.val c h (dropCopy p.val c.cls s))) ∧
  (∀ (s : State) (p : Fin 16) (g : Option GuardFind),
     (s.sw.ready = false ∨ ((enabledPair s p.val = none ∨ macIdle s p.val = false ∨ ∀ k, enabledPair s p.val = some k → startRing k p.val s = none) ∧ ((getSw s p.val).sending ≠ none ∨ nextCopy s p.val = none ∨ ¬(14 ≤ p.val ∨ (txPorts s p.val ≠ [] ∧ (txPorts s p.val).all (macIdle s) = true))))) →
     exec (.transmitStart p g) s = .next s) ∧
  (∀ (s : State) (p : Fin 16) (t : TxFrame), p.val < 14 → (getPx s p.val).txBusy = some t →
     ∃ u, exec (.transmitEnd p none) s = .next u ∧ (getPx u p.val).txBusy = none ∧ u.out = .frame p.val t.frame :: s.out) ∧
  (∀ (s : State) (p : Fin 16) (t : TxFrame) (h : GuardHit), p.val < 14 → (getPx s p.val).txBusy = some t →
     ∃ u, exec (.transmitEnd p (some (.uncorrectable h))) s = .next u ∧ (getPx u p.val).txBusy = none ∧ .frame p.val { t.frame with fcsOk := false } ∈ u.out) ∧
  (∀ (s : State) (p : Fin 16) (t : TxFrame), p.val < 14 → (getPx s p.val).txBusy = some t →
     exec (.transmitEnd p (some .corrected)) s = exec (.transmitEnd p none) (guardCorrected 0x2 s)) ∧
  (∀ (s : State) (p : Fin 16) (g : Option GuardFind), p.val < 14 → (getPx s p.val).txBusy = none →
     exec (.transmitEnd p g) s = .next (guardRead 0x2 g s).2) ∧
  (∀ (s : State) (p : Fin 16) (g : Option GuardFind), 14 ≤ p.val → ∃ t, exec (.transmitEnd p g) s = .next t ∧ (getSw t p.val).sending = none) ∧
  (∀ (s : State) (c : Cmd) (p : Fin 6) (a : Fin 4) (x : MacsecSa), runs 0x0210 false c s = true →
     keyRefusal (entered 0x0210 c s) x.slot.toNat (16 + p.val) = none →
     exec (.pxMacsecSaSet c p none a (some x)) s = answered 0x0210 c (st .ok) (modPx p.val (fun y => { y with txSa := y.txSa.put a.val (installSa (entered 0x0210 c s) x) }) (entered 0x0210 c s))) ∧
  (∀ (s : State) (c : Cmd) (p : Fin 6) (k : Fin 8) (a : Fin 4) (x : MacsecSa), runs 0x0210 false c s = true →
     keyRefusal (entered 0x0210 c s) x.slot.toNat (16 + p.val) = none →
     exec (.pxMacsecSaSet c p (some k) a (some x)) s = answered 0x0210 c (st .ok) (modPx p.val (fun y => { y with rxSa := y.rxSa.put (k.val, a.val) (installSa (entered 0x0210 c s) x) }) (entered 0x0210 c s))) ∧
  (∀ (s : State) (c : Cmd) (p : Fin 6) (a : Fin 4) (k : Option (Fin 8)) (x : MacsecSa) (e : Status), runs 0x0210 false c s = true →
     keyRefusal (entered 0x0210 c s) x.slot.toNat (16 + p.val) = some e →
     exec (.pxMacsecSaSet c p k a (some x)) s = answered 0x0210 c (st e) (entered 0x0210 c s)) ∧
  (∀ (s : State) (c : Cmd) (p : Fin 6) (a : Fin 4), runs 0x0210 false c s = true →
     exec (.pxMacsecSaSet c p none a none) s = answered 0x0210 c (st .ok) (modPx p.val (fun y => { y with txSa := y.txSa.del a.val }) (entered 0x0210 c s))) ∧
  (∀ (s : State) (c : Cmd) (p : Fin 6) (k : Fin 8) (a : Fin 4), runs 0x0210 false c s = true →
     exec (.pxMacsecSaSet c p (some k) a none) s = answered 0x0210 c (st .ok) (modPx p.val (fun y => { y with rxSa := y.rxSa.del (k.val, a.val) }) (entered 0x0210 c s))) ∧
  (∀ (s : State) (c : Cmd) (p : Fin 6) (a : Fin 4), runs 0x0211 false c s = true →
     exec (.pxMacsecTxAn c p a) s = answered 0x0211 c (st .ok) (modPx p.val (fun y => { y with txAn := BitVec.ofNat 2 a.val }) (entered 0x0211 c s))) ∧
  (∀ (s : State) (p : Fin 16) (k : Fin 8) (c : Copy) (g : Option GuardFind),
     (vget (getSw s p.val).queues k.val []).find? (fun c => !c.queued) = some c → ltReached s.now c.cross1 = true →
     g = none ∨ g = some .corrected →
     ∃ t, exec (.transmitQueueEntry p k g) s = .next t ∧ ∀ i, (vget (getSw s p.val).queues k.val []).findIdx? (fun c => !c.queued) = some i → vget (getSw t p.val).queues k.val [] = (vget (getSw s p.val).queues k.val []).set i { c with queued := true }) ∧
  (∀ (s : State) (p : Fin 16) (k : Fin 8) (c : Copy) (h : GuardHit),
     (vget (getSw s p.val).queues k.val []).find? (fun c => !c.queued) = some c →
     exec (.transmitQueueEntry p k (some (.uncorrectable h))) s = .next (guardDrop p.val c h (modSw p.val (fun x => { x with queues := vmod x.queues k.val (fun _ => (vget (getSw s p.val).queues k.val []).eraseP (fun c => !c.queued)) }) (notePeak c.mid s)))) ∧
  (∀ (s : State) (p : Fin 16) (k : Fin 8) (g : Option GuardFind),
     ((vget (getSw s p.val).queues k.val []).find? (fun c => !c.queued) = none ∨ (g = none ∧ ∃ c, (vget (getSw s p.val).queues k.val []).find? (fun c => !c.queued) = some c ∧ ltReached s.now c.cross1 = false)) →
     exec (.transmitQueueEntry p k g) s = .next s) ∧
  (∀ (s : State) (p : Fin 14) (t : LT), (getSw s p.val).link = .hold → (getSw s p.val).holdAt = some t → ltReached s.now t = true →
     exec (.holdExpiry p false) s = .next (enterDown p.val s) ∧ ∃ u, exec (.holdExpiry p true) s = .next u ∧ (getSw u p.val).link = .up ∧ (getSw u p.val).queues = (getSw s p.val).queues) ∧
  (∀ (s : State) (p : Fin 14) (b : Bool), ((getSw s p.val).link ≠ .hold ∨ ∀ t, (getSw s p.val).holdAt = some t → ltReached s.now t = false) →
     exec (.holdExpiry p b) s = .next s) ∧
  (∀ (s : State) (p : Fin 14) (k : Fin 8) (c : Copy), (vget (getSw s p.val).queues k.val []).find? (·.queued) = some c →
     (limitsOf s p.val k.val).maxAge ≠ 0 → (getSw s p.val).link = .up ∨ (getSw s p.val).link = .hold →
     (usTu (10 * (limitsOf s p.val k.val).maxAge) : Int) < ltDiff s.now c.admitted →
     exec (.maxAgeExpiry p k) s = .next (mirrorCopy 7 p.val c (pxCount p.val 34 (dropCopy p.val k.val s)))) ∧
  (∀ (s : State) (p : Fin 14) (k : Fin 8),
     ((limitsOf s p.val k.val).maxAge = 0 ∨ (getSw s p.val).link = .down ∨ (getSw s p.val).link = .disabled ∨ ∀ c, (vget (getSw s p.val).queues k.val []).find? (·.queued) = some c → ltDiff s.now c.admitted ≤ (usTu (10 * (limitsOf s p.val k.val).maxAge) : Int)) →
     exec (.maxAgeExpiry p k) s = .next s) ∧
  (∀ (s : State),
     exec .fdbAgeing s = .next { s with sw := { s.sw with fdb := s.sw.fdb.filter (fun e => e.static || !ltReached s.now e.expires) } }) ∧
  (∀ (s : State) (v : BitVec 32), s.glob.ready = true → v.getLsbD 0 = true → s.sw.mirEn = false →
     exec (.mirrorEnable v) s = .next { s with sw := { s.sw with mirEn := decide (6 ≤ s.sw.mirSize.toNat ∧ s.sw.mirSize.toNat ≤ 16), mirHead := 0, mirRelease := 0 } }) ∧
  (∀ (s : State) (v : BitVec 32), s.glob.ready = true → v.getLsbD 0 = false →
     exec (.mirrorEnable v) s = .next { s with sw := { s.sw with mirEn := false } }) ∧
  (∀ (s : State) (v : BitVec 32), s.glob.ready = false ∨ (v.getLsbD 0 = true ∧ s.sw.mirEn = true) → exec (.mirrorEnable v) s = .next s) ∧
  (∀ (s : State) (c : Cmd), runs 0x0312 false c s = true →
     exec (.swFdbRead c) s = answered 0x0312 c { buf := .recs (((entered 0x0312 c s).sw.fdb.take (c.bufLen / 16)).map (fun e => [e.mac.toNat, e.vid.toNat, e.mask.toNat, bitN e.static])) } (entered 0x0312 c s))

/-- A producer opens a packet in a queue of its own, where none is open, with its header word, or the opening is refused; the fabric opens
that of the frame it delivers, and a refusal discards that frame; an opening that finds an uncorrectable guard error is rewound; else
PACKET_OPEN does nothing. QM refuses the opening of an owner at its share with QUOTA. A unit of 8 bytes joins the open packet, a last one
of 1 to 8 bytes with the end mark ends it, and one in error rewinds the packet; anything else is no unit. A rewind drops the open packet.
A consumer of the right tag reads the word at the read position with its side byte, a word in error as zeros with ERR, or the idle item;
one of another tag reads nothing. MARK, REWIND and RELEASE move the positions. The fabric takes the next packet and discards one in error,
of an older epoch, or, while the gate is shut, of a gated queue; else its frame enters the fabric. Definitions in it hold choices of the
model: log 130, 134. -/
def Obligations.QueuesMove : Prop :=
  (∀ (s : State) (q : Fin 256) (h : List Byte) (t : LT) (r : BitVec 16) (g : Option GuardFind) (p : Producer), s.qm.ready = true →
     (getQ s q.val).openPkt = none → producerOf s p q.val = true → (∀ k, p ≠ .fabric k) → (∀ k, p ≠ .px k) →
     exec (.packetOpen p q h t r g) s = .next (openChecked q.val g (openPacket q.val (packetOwner s p q.val) (headerWord h) s))) ∧
  (∀ (s : State) (q : Fin 256) (h : List Byte) (t : LT) (r : BitVec 16) (g : Option GuardFind) (k : Fin 2), s.qm.ready = true →
     (getQ s q.val).openPkt = none → q.val = 0x16 + k.val →
     exec (.packetOpen (.px k) q h t r g) s = .next (openChecked q.val g (openPacket q.val 0 (noticeBytes s q.val t r (0x10 + k.val) 0 0 false) s))) ∧
  (∀ (s : State) (q : Fin 256) (h : List Byte) (t : LT) (r : BitVec 16) (g : Option GuardFind) (k : Fin 16) (c : Copy) (n : Nat),
     s.qm.ready = true → (getSw s k.val).sending = some c → c.opened = false → n = deliveryQueue s k.val c → producerOf s (.fabric k) n = true →
     (getQ s n).openPkt = none →
     exec (.packetOpen (.fabric k) q h t r g) s = .next (modSw k.val (fun x => { x with sending := if openRefused s n (packetOwner s (.fabric k) n) then none else some { c with opened := true } }) (openChecked n g (openPacket n (packetOwner s (.fabric k) n) (noticeBytes s n c.rxLt c.rxStatus c.inPort c.cls (packetOwner s (.fabric k) n) c.ecn) s)))) ∧
  (∀ (s : State) (q : Fin 256) (h : List Byte) (t : LT) (r : BitVec 16) (g : Option GuardFind) (p : Producer),
     (s.qm.ready = false ∨ (∃ k, p = .fabric k ∧ ((getSw s k.val).sending = none ∨ ∃ c, (getSw s k.val).sending = some c ∧ (c.opened = true ∨ producerOf s p (deliveryQueue s k.val c) = false ∨ (getQ s (deliveryQueue s k.val c)).openPkt.isSome = true))) ∨ ((∀ k, p ≠ .fabric k) ∧ (producerOf s p q.val = false ∨ (getQ s q.val).openPkt.isSome = true))) →
     exec (.packetOpen p q h t r g) s = .next s) ∧
  (∀ (s : State) (q o : Nat) (h : List Byte), openRefused s q o = true →
     (openPacket q o h s).1.qm.quota = true ∧ (getQ (openPacket q o h s).1 q).openPkt = (getQ s q).openPkt ∧ (getQ (openPacket q o h s).1 q).quotaHit = true ∧ (getQ (openPacket q o h s).1 q).words = (getQ s q).words) ∧
  (∀ (s : State) (q o : Nat) (h : List Byte), openRefused s q o = false →
     (getQ (openPacket q o h s).1 q).openPkt = some { owner := o, epoch := epochOf s o, header := h } ∧ (getQ (openPacket q o h s).1 q).words = (getQ s q).words) ∧
  (∀ (s : State) (q : Fin 256) (b l : List Byte) (g : Option GuardFind), nextUnit s q.val false b = some l → g = none ∨ g = some .corrected →
     exec (.narrowUnitWrite q b g) s = .next (writeUnit q.val l (guardRead 0x3 g s).2)) ∧
  (∀ (s : State) (q : Fin 256) (b l : List Byte) (g : Option GuardFind), nextUnit s q.val true b = some l → g = none ∨ g = some .corrected →
     exec (.endMarkWrite q b g) s = .next (endPacket q.val (writeUnit q.val l (guardRead 0x3 g s).2)).1) ∧
  (∀ (s : State) (q : Fin 256) (b l : List Byte) (h : GuardHit), nextUnit s q.val false b = some l →
     exec (.narrowUnitWrite q b (some (.uncorrectable h))) s = .next (badTransfer q.val h s)) ∧
  (∀ (s : State) (q : Fin 256) (b l : List Byte) (h : GuardHit), nextUnit s q.val true b = some l →
     exec (.endMarkWrite q b (some (.uncorrectable h))) s = .next (badTransfer q.val h s)) ∧
  (∀ (s : State) (q : Fin 256) (b : List Byte) (g : Option GuardFind),
     (nextUnit s q.val false b = none → exec (.narrowUnitWrite q b g) s = .next s) ∧ (nextUnit s q.val true b = none → exec (.endMarkWrite q b g) s = .next s)) ∧
  (∀ (s : State) (q : Nat) (b : List Byte) (p : OpenPkt), (getQ s q).openPkt = some p → p.payload.length + b.length ≤ 10240 →
     (getQ (writeUnit q b s) q).openPkt = some { p with payload := p.payload ++ b }) ∧
  (∀ (s : State) (q : Fin 256) (p : OpenPkt), (getQ s q.val).openPkt = some p →
     ∃ t, exec (.producerRewind q) s = .next t ∧ (getQ t q.val).openPkt = none ∧ (getQ t q.val).words = (getQ s q.val).words ∧ (getQ t q.val).gapNext = true) ∧
  (∀ (s : State) (q : Fin 256), (getQ s q.val).openPkt = none → exec (.producerRewind q) s = .next s) ∧
  (∀ (s : State) (q : Fin 256) (t : Tag) (g : Option GuardFind), (getQ s q.val).words[(getQ s q.val).rd]? = none →
     exec (.queueRead q t g) s = .next { s with out := .qword q.val (bytesLE 8 0xDEAD1D1E00000000 ++ bytesLE 8 q.val ++ List.replicate 16 0) 0 :: s.out }) ∧
  (∀ (s : State) (q : Fin 256) (w : QWord), (getQ s q.val).words[(getQ s q.val).rd]? = some w → w.tag ≤ 64 →
     ∃ t, exec (.queueRead q w.tag none) s = .next t ∧ (getQ t q.val).rd = (getQ s q.val).rd + 1 ∧ (getQ t q.val).words = (getQ s q.val).words ∧ t.out = .qword q.val (w.data ++ List.replicate (32 - w.data.length) 0) (BitVec.ofNat 8 (w.data.length + 64 * bitN w.last)) :: s.out) ∧
  (∀ (s : State) (q : Fin 256) (w : QWord), (getQ s q.val).words[(getQ s q.val).rd]? = some w → w.tag ≤ 64 →
     exec (.queueRead q w.tag (some .corrected)) s = exec (.queueRead q w.tag none) (guardCorrected 0x3 s)) ∧
  (∀ (s : State) (q : Fin 256) (w : QWord) (h : GuardHit), (getQ s q.val).words[(getQ s q.val).rd]? = some w → w.tag ≤ 64 →
     exec (.queueRead q w.tag (some (.uncorrectable h))) s = .next (emit (.qword q.val (List.replicate 32 0) (BitVec.ofNat 8 ((w.data.length + 64 * bitN w.last) + 128))) (queueGuard w.tag h (modQ q.val (fun x => { x with rd := x.rd + 1 }) s)))) ∧
  (∀ (s : State) (q : Fin 256) (w : QWord) (t : Tag) (g : Option GuardFind), (getQ s q.val).words[(getQ s q.val).rd]? = some w →
     t ≠ w.tag ∨ 64 < w.tag → exec (.queueRead q t g) s = .next (tagRefused 0x3 s)) ∧
  (∀ (s : State) (q : Fin 256),
     ∃ t, exec (.queueMark q) s = .next t ∧ (getQ t q.val).mark = (getQ s q.val).rd ∧ (getQ t q.val).rd = (getQ s q.val).rd) ∧
  (∀ (s : State) (q : Fin 256),
     ∃ t, exec (.queueRewind q) s = .next t ∧ (getQ t q.val).rd = (getQ s q.val).mark ∧ (getQ t q.val).words = (getQ s q.val).words) ∧
  (∀ (s : State) (q : Fin 256),
     ∃ t, exec (.queueRelease q) s = .next t ∧ (getQ t q.val).words = (getQ s q.val).words.drop (wholeBefore (getQ s q.val).words (getQ s q.val).rd).1) ∧
  (∀ (s : State) (core : Bool) (g : Option GuardFind), s.qm.ready = false ∨ s.sw.ready = false ∨ nextFeed s core = none →
     exec (.fabricTake core g) s = .next s) ∧
  (∀ (s t : State) (core : Bool) (g : Option GuardFind) (q : Nat) (ws : List QWord) (src : Option (Bool × Nat)) (h : Option GuardHit),
     s.qm.ready = true → s.sw.ready = true → nextFeed s core = some q → (ws, src, h, t) = takenPacket core q g s →
     exec (.fabricTake core g) s = .next (match h with | some h => queueGuard (ownerOfWords ws) h t | none => if ws.any (epochStale t) then epochDiscard (ownerOfWords ws) t else if gated q && !t.fo.gateOpen then countGated q src t else enterFabric core ws (countSent src t)))

/-- TCU4 starts the cycle of both segments. The image of a coordinating unit with the gate open is sent, in normal mode from t0 + 10 µs on,
with DISCOVER after it in slotted mode while a station is not PRESENT. On an enabled segment a frame that is not good is counted and
discarded, and so is a good one of another EtherType or a reserved type; a row of another message type than the frame's is no occurrence.
A second report of a cycle is counted, one of the staged length is accepted, one of another length or of a node without an assignment is
discarded; a matching announcement is answered by an assignment, another sets MISMATCH; an image is heard, and a unit that is not node 0
adopts its cycle number. The missed report that reaches N is counted at the end of its slot; collisions are counted; the start-up mode
ends 200 ms after it began, or when every station has reported. FO_CAB_MODE asks for the test or the normal mode, NOT_READY on a disabled
segment, BUSY in start-up or recovery. Definitions in it hold choices of the model: log 24, 51, 112, 135, 155. -/
def Obligations.CabinetCycles : Prop :=
  (∀ (s : State), tcuDue s 4 = true →
     exec .cabinetCycleStart s = .next (segTick (ltSub (nextTarget s.now (getTcu s 4).target (getTcu s 4).period.toNat) (getTcu s 4).period.toNat) 1 (segTick (ltSub (nextTarget s.now (getTcu s 4).target (getTcu s 4).period.toNat) (getTcu s 4).period.toNat) 0 (fireTcu 4 s)))) ∧
  (∀ (s : State), tcuDue s 4 = false → exec .cabinetCycleStart s = .next s) ∧
  (∀ (s : State) (g : Fin 2) (f : CabFrame), (getSeg s g.val).image = some f → (getSeg s g.val).cfg.en = true → s.fo.gateOpen = true →
     (getSeg s g.val).coord = true → ((getSeg s g.val).slotted = true ∨ ltReached s.now (ltAdd (getSeg s g.val).t0 (usTu 10)) = true) →
     exec (.imageTransmit g) s = .next (if (getSeg s g.val).slotted && (getSeg s g.val).cfg.stations.any (fun c => (vget (getSeg s g.val).stn c.node {}).state != .present) then sendCab g (unitFrame (sendCab g f (modSeg g.val (fun x => { x with image := none, lateImage := x.lateImage || (!(getSeg s g.val).slotted && decide (0 < ltDiff s.now (ltAdd (getSeg s g.val).t0 (usTu 20)))), imageEnd := some (ltAdd s.now (busTime (cabLen (cabPayload f).length))) }) s)) g .discover) (sendCab g f (modSeg g.val (fun x => { x with image := none, lateImage := x.lateImage || (!(getSeg s g.val).slotted && decide (0 < ltDiff s.now (ltAdd (getSeg s g.val).t0 (usTu 20)))), imageEnd := some (ltAdd s.now (busTime (cabLen (cabPayload f).length))) }) s)) else sendCab g f (modSeg g.val (fun x => { x with image := none, lateImage := x.lateImage || (!(getSeg s g.val).slotted && decide (0 < ltDiff s.now (ltAdd (getSeg s g.val).t0 (usTu 20)))), imageEnd := some (ltAdd s.now (busTime (cabLen (cabPayload f).length))) }) s))) ∧
  (∀ (s : State) (g : Fin 2),
     (getSeg s g.val).image = none ∨ (getSeg s g.val).cfg.en = false ∨ s.fo.gateOpen = false ∨ (getSeg s g.val).coord = false ∨ ¬((getSeg s g.val).slotted = true ∨ ltReached s.now (ltAdd (getSeg s g.val).t0 (usTu 10)) = true) →
     exec (.imageTransmit g) s = .next s) ∧
  (∀ (s : State) (g : Fin 2) (f : Frame) (t : LT), (getSeg s g.val).cfg.en = false →
     exec (.reportReceive g f t) s = .next s ∧ exec (.announceReceive g f t) s = .next s ∧ exec (.imageReceive g f t) s = .next s) ∧
  (∀ (s : State) (g : Fin 2) (f : Frame) (t : LT), (getSeg s g.val).cfg.en = true → rxClass f.len 1536 f.fcsOk ≠ .good →
     exec (.reportReceive g f t) s = .next (modSeg g.val (fun x => { x with discarded := satInc x.discarded }) s) ∧ exec (.announceReceive g f t) s = .next (modSeg g.val (fun x => { x with discarded := satInc x.discarded }) s) ∧ exec (.imageReceive g f t) s = .next (modSeg g.val (fun x => { x with discarded := satInc x.discarded }) s)) ∧
  (∀ (s u : State) (g : Fin 2) (f : Frame) (t : LT), (getSeg s g.val).cfg.en = true → rxClass f.len 1536 f.fcsOk = .good →
     ¬((readCab f.bytes).etype = (getSeg s g.val).cfg.etype ∧ (readCab f.bytes).type ≠ .reserved) →
     viaQueue (0x16 + g.val) (noticeBytes s (0x16 + g.val) t (rxStatusWord 0 0 f.codeErr false false) (0x10 + g.val) 0 0 false) f.bytes s = (true, u) →
     exec (.reportReceive g f t) s = .next (cabDiscard g.val u) ∧ exec (.announceReceive g f t) s = .next (cabDiscard g.val u) ∧ exec (.imageReceive g f t) s = .next (cabDiscard g.val u)) ∧
  (∀ (s : State) (g : Fin 2) (f : Frame) (t : LT), (getSeg s g.val).cfg.en = true → rxClass f.len 1536 f.fcsOk = .good →
     ((readCab f.bytes).etype = (getSeg s g.val).cfg.etype ∧ (readCab f.bytes).type ≠ .reserved) →
     ((readCab f.bytes).type ≠ .report → exec (.reportReceive g f t) s = .next s) ∧ ((readCab f.bytes).type ≠ .announce → exec (.announceReceive g f t) s = .next s) ∧ ((readCab f.bytes).type ≠ .image → exec (.imageReceive g f t) s = .next s)) ∧
  (∀ (s u : State) (g : Fin 2) (f : Frame) (t : LT), (getSeg s g.val).cfg.en = true → rxClass f.len 1536 f.fcsOk = .good →
     viaQueue (0x16 + g.val) (noticeBytes s (0x16 + g.val) t (rxStatusWord 0 0 f.codeErr false false) (0x10 + g.val) 0 0 false) f.bytes s = (false, u) →
     ¬((readCab f.bytes).etype = (getSeg s g.val).cfg.etype ∧ (readCab f.bytes).type ≠ .reserved) ∨ ((readCab f.bytes).type = .report ∨ (readCab f.bytes).type = .announce ∨ (readCab f.bytes).type = .image) →
     ((¬((readCab f.bytes).etype = (getSeg s g.val).cfg.etype ∧ (readCab f.bytes).type ≠ .reserved) ∨ (readCab f.bytes).type = .report) → exec (.reportReceive g f t) s = .next u) ∧ ((¬((readCab f.bytes).etype = (getSeg s g.val).cfg.etype ∧ (readCab f.bytes).type ≠ .reserved) ∨ (readCab f.bytes).type = .announce) → exec (.announceReceive g f t) s = .next u) ∧ ((¬((readCab f.bytes).etype = (getSeg s g.val).cfg.etype ∧ (readCab f.bytes).type ≠ .reserved) ∨ (readCab f.bytes).type = .image) → exec (.imageReceive g f t) s = .next u)) ∧
  (∀ (s u : State) (g : Fin 2) (f : Frame) (t : LT) (c : StnCfg), cabHeard g .report t f s = some u →
     stnCfg u g.val (readCab f.bytes).node = some c → (vget (getSeg u g.val).stn (readCab f.bytes).node {}).state ≠ .unassigned →
     (vget (getSeg u g.val).stn (readCab f.bytes).node {}).reported = false → (readCab f.bytes).data.length = c.ilen →
     exec (.reportReceive g f t) s = .next (takeReport g c (readCab f.bytes) t u)) ∧
  (∀ (s u : State) (g : Fin 2) (f : Frame) (t : LT) (c : StnCfg), cabHeard g .report t f s = some u →
     stnCfg u g.val (readCab f.bytes).node = some c → (vget (getSeg u g.val).stn (readCab f.bytes).node {}).state ≠ .unassigned →
     (vget (getSeg u g.val).stn (readCab f.bytes).node {}).reported = true →
     exec (.reportReceive g f t) s = .next (modSeg g.val (fun x => { x with dupCtr := satInc x.dupCtr }) u)) ∧
  (∀ (s u : State) (g : Fin 2) (f : Frame) (t : LT) (c : StnCfg), cabHeard g .report t f s = some u →
     stnCfg u g.val (readCab f.bytes).node = some c → (vget (getSeg u g.val).stn (readCab f.bytes).node {}).state ≠ .unassigned →
     (vget (getSeg u g.val).stn (readCab f.bytes).node {}).reported = false → (readCab f.bytes).data.length ≠ c.ilen →
     ∃ v, exec (.reportReceive g f t) s = .next v ∧ (getSeg v g.val).mismatch = true ∧ (getSeg v g.val).discarded = satInc (getSeg u g.val).discarded) ∧
  (∀ (s u : State) (g : Fin 2) (f : Frame) (t : LT), cabHeard g .report t f s = some u →
     stnCfg u g.val (readCab f.bytes).node = none ∨ (vget (getSeg u g.val).stn (readCab f.bytes).node {}).state = .unassigned →
     exec (.reportReceive g f t) s = .next (cabDiscard g.val u)) ∧
  (∀ (s u : State) (g : Fin 2) (f : Frame) (t : LT), cabHeard g .image t f s = some u →
     ∃ v, exec (.imageReceive g f t) s = .next v ∧ v.fo.lastImageAt = some u.abs ∧ (getSeg v g.val).heard = (getSeg u g.val).heard.put (readCab f.bytes).claim u.abs ∧ (getSeg v g.val).cycle = (if (getSeg u g.val).coord then (getSeg u g.val).cycle else (readCab f.bytes).cycle) ∧ ((getSeg u g.val).coord = false → ((getSeg u g.val).slotted ≠ (readCab f.bytes).slotted ∨ (getSeg u g.val).reason ≠ (readCab f.bytes).reason) → (getSeg v g.val).nextMode = some ((readCab f.bytes).slotted, (readCab f.bytes).reason))) ∧
  (∀ (s u : State) (g : Fin 2) (f : Frame) (t : LT) (c : StnCfg) (v : State), cabHeard g .announce t f s = some u →
     stnCfg u g.val (readCab f.bytes).node = some c →
     c.vendor = (readCab f.bytes).vendor ∧ c.model = (readCab f.bytes).model ∧ c.ilen ≤ (readCab f.bytes).ilenMax ∧ c.olen ≤ (readCab f.bytes).olenMax →
     v = modStn g.val (readCab f.bytes).node (fun y => { y with mac := (readCab f.bytes).src, reportedOnce := false, state := if y.state = .unassigned then .absent else y.state }) u →
     exec (.announceReceive g f t) s = .next (reassign g (getSeg u g.val) (sendCab g (assignFrame v g c (readCab f.bytes).src) v))) ∧
  (∀ (s u : State) (g : Fin 2) (f : Frame) (t : LT), cabHeard g .announce t f s = some u →
     (∀ c, stnCfg u g.val (readCab f.bytes).node = some c → ¬(c.vendor = (readCab f.bytes).vendor ∧ c.model = (readCab f.bytes).model ∧ c.ilen ≤ (readCab f.bytes).ilenMax ∧ c.olen ≤ (readCab f.bytes).olenMax)) →
     ∃ v, exec (.announceReceive g f t) s = .next v ∧ (getSeg v g.val).mismatch = true) ∧
  (∀ (s : State) (g : Fin 2) (k : Fin 32) (c : StnCfg), stnCfg s g.val k.val = some c →
     (match slotEnd s g.val c with | some t => ltReached s.now t | none => false) = true → (getSeg s g.val).cfg.en = true →
     (getSeg s g.val).slotted = false → (getSeg s g.val).modeChanged = false → (vget (getSeg s g.val).stn k.val {}).reported = false →
     (vget (getSeg s g.val).stn k.val {}).missCounted = false →
     ((vget (getSeg s g.val).stn k.val {}).state = .present ∨ (vget (getSeg s g.val).stn k.val {}).state = .resyncPending) →
     (getSeg s g.val).cfg.n ≤ (vget (getSeg s g.val).stn k.val {}).missed + 1 → exec (.stationAbsent g k) s = .next (countMiss g.val k.val s)) ∧
  (∀ (s : State) (g : Fin 2) (k : Fin 32),
     (stnCfg s g.val k.val = none ∨ (∃ c, stnCfg s g.val k.val = some c ∧ (match slotEnd s g.val c with | some t => ltReached s.now t | none => false) = false) ∨ (getSeg s g.val).cfg.en = false ∨ (getSeg s g.val).slotted = true ∨ (getSeg s g.val).modeChanged = true ∨ (vget (getSeg s g.val).stn k.val {}).reported = true ∨ (vget (getSeg s g.val).stn k.val {}).missCounted = true ∨ ¬((vget (getSeg s g.val).stn k.val {}).state = .present ∨ (vget (getSeg s g.val).stn k.val {}).state = .resyncPending) ∨ (vget (getSeg s g.val).stn k.val {}).missed + 1 < (getSeg s g.val).cfg.n) →
     exec (.stationAbsent g k) s = .next s) ∧
  (∀ (s : State) (g : Fin 2), (getSeg s g.val).cfg.en = true →
     ∃ t, exec (.collision g) s = .next t ∧ (getSeg t g.val).collCtr = satInc (getSeg s g.val).collCtr ∧ ((getSeg s g.val).slotted = false → 3 < ((getSeg s g.val).collisions.filter (fun c => decide (((getSeg s g.val).cycle - c).toNat < 16))).length → (getSeg t g.val).nextMode = some (true, .recovery))) ∧
  (∀ (s : State) (g : Fin 2), (getSeg s g.val).cfg.en = false → exec (.collision g) s = .next s) ∧
  (∀ (s : State) (g : Fin 2), (getSeg s g.val).cfg.en = true → (getSeg s g.val).slotted = true → (getSeg s g.val).reason = .startup →
     (getSeg s g.val).nextMode = none →
     (((getSeg s g.val).startedAt.isSome = true ∧ (getSeg s g.val).cfg.stations.all (fun c => (vget (getSeg s g.val).stn c.node {}).reportedOnce) = true) ∨ ∃ t, (getSeg s g.val).startedAt = some t ∧ ltReached s.now (ltAdd t (msTu 200)) = true) →
     exec (.slottedStartupEnd g) s = .next (if (modSeg g.val (fun x => { x with nextMode := some (false, .none) }) s).fo.seg.any (fun y => y.cfg.en && y.slotted && y.reason == .startup && y.nextMode.isNone) then (modSeg g.val (fun x => { x with nextMode := some (false, .none) }) s) else readiness (markPhase 9 true (modSeg g.val (fun x => { x with nextMode := some (false, .none) }) s)))) ∧
  (∀ (s : State) (g : Fin 2),
     ((getSeg s g.val).cfg.en = false ∨ (getSeg s g.val).slotted = false ∨ (getSeg s g.val).reason ≠ .startup ∨ (getSeg s g.val).nextMode ≠ none ∨ ¬(((getSeg s g.val).startedAt.isSome = true ∧ (getSeg s g.val).cfg.stations.all (fun c => (vget (getSeg s g.val).stn c.node {}).reportedOnce) = true) ∨ ∃ t, (getSeg s g.val).startedAt = some t ∧ ltReached s.now (ltAdd t (msTu 200)) = true)) →
     exec (.slottedStartupEnd g) s = .next s) ∧
  (∀ (s : State) (c : Cmd) (g : Fin 2), runs 0x0E40 false c s = true → (getSeg (entered 0x0E40 c s) g.val).cfg.en = true →
     ¬(((getSeg (entered 0x0E40 c s) g.val).slotted = true ∧ ((getSeg (entered 0x0E40 c s) g.val).reason = .startup ∨ (getSeg (entered 0x0E40 c s) g.val).reason = .recovery)) ∨ (getSeg (entered 0x0E40 c s) g.val).nextMode = some (true, .startup) ∨ (getSeg (entered 0x0E40 c s) g.val).nextMode = some (true, .recovery)) →
     exec (.foCabModeTest c g) s = answered 0x0E40 c (st .ok) (modSeg g.val (fun x => { x with nextMode := some (true, .test) }) (entered 0x0E40 c s)) ∧ exec (.foCabModeNormal c g) s = answered 0x0E40 c (st .ok) (modSeg g.val (fun x => { x with nextMode := some (false, .none) }) (entered 0x0E40 c s))) ∧
  (∀ (s : State) (c : Cmd) (g : Fin 2), runs 0x0E40 false c s = true → (getSeg (entered 0x0E40 c s) g.val).cfg.en = true →
     ((getSeg (entered 0x0E40 c s) g.val).slotted = true ∧ ((getSeg (entered 0x0E40 c s) g.val).reason = .startup ∨ (getSeg (entered 0x0E40 c s) g.val).reason = .recovery)) ∨ (getSeg (entered 0x0E40 c s) g.val).nextMode = some (true, .startup) ∨ (getSeg (entered 0x0E40 c s) g.val).nextMode = some (true, .recovery) →
     exec (.foCabModeTest c g) s = answered 0x0E40 c (st .busy) (entered 0x0E40 c s) ∧ exec (.foCabModeNormal c g) s = answered 0x0E40 c (st .busy) (entered 0x0E40 c s)) ∧
  (∀ (s : State) (c : Cmd) (g : Fin 2), runs 0x0E40 false c s = true → (getSeg (entered 0x0E40 c s) g.val).cfg.en = false →
     exec (.foCabModeTest c g) s = answered 0x0E40 c (st .notReady) (entered 0x0E40 c s) ∧ exec (.foCabModeNormal c g) s = answered 0x0E40 c (st .notReady) (entered 0x0E40 c s))

/-- The next frame of an INGEST queue is taken while SE is ready; one with a word in error is discarded. An SV frame is taken by the changed
subscription it still serves or by the one it matches, else counted as unmatched. A GOOSE frame without a subscription counts as
unmatched, one that fails a check counts as invalid, with AUTH_ERR or CONFREV_ERR where that is the check, and one that passes is taken.
The earliest open instant is released once complete or at t_first + W. The supervision timer of a subscription expires after the values of
its frame are written: its values are then sent with invalid. A noted state change is published, and the present state is retransmitted at
intervals that grow by F up to T0, by a block that may publish. TCU3 opens a second. Where none of this is due, nothing happens.
Definitions in it hold choices of the model: log 52, 53, 54, 55, 112. -/
def Obligations.StreamsAlign : Prop :=
  (∀ (s : State) (q : Fin 8) (f : SvFrame) (h : GoFrame) (g : Option GuardFind), s.se.ready = false ∨ (getQ s q.val).words = [] →
     exec (.svFrameReceive q f g) s = .next s ∧ exec (.gooseFrameReceive q h g) s = .next s) ∧
  (∀ (s u : State) (q : Fin 8) (f : SvFrame) (h : GoFrame) (g : Option GuardFind), s.se.ready = true → (getQ s q.val).words ≠ [] →
     takeIngest q.val g s = (none, u) → exec (.svFrameReceive q f g) s = .next u ∧ exec (.gooseFrameReceive q h g) s = .next u) ∧
  (∀ (s u : State) (q : Fin 8) (f : SvFrame) (g : Option GuardFind) (rx : LT), s.se.ready = true → (getQ s q.val).words ≠ [] →
     takeIngest q.val g s = (some rx, u) → drainMatch u rx f = none → svMatch u.se.svCfg f = none →
     exec (.svFrameReceive q f g) s = .next { u with se := { u.se with unmatched := u.se.unmatched + 1 } }) ∧
  (∀ (s u : State) (q : Fin 8) (f : SvFrame) (g : Option GuardFind) (rx : LT) (n : Nat), s.se.ready = true → (getQ s q.val).words ≠ [] →
     takeIngest q.val g s = (some rx, u) → drainMatch u rx f = none → svMatch u.se.svCfg f = some n →
     exec (.svFrameReceive q f g) s = .next (takeSvFrame false n rx f u)) ∧
  (∀ (s u : State) (q : Fin 8) (f : SvFrame) (g : Option GuardFind) (rx : LT) (n : Nat), s.se.ready = true → (getQ s q.val).words ≠ [] →
     takeIngest q.val g s = (some rx, u) → drainMatch u rx f = some n → exec (.svFrameReceive q f g) s = .next (takeSvFrame true n rx f u)) ∧
  (∀ (s u : State) (q : Fin 8) (f : GoFrame) (g : Option GuardFind) (rx : LT), s.se.ready = true → (getQ s q.val).words ≠ [] →
     takeIngest q.val g s = (some rx, u) →
     (sortBy (·.1) u.se.gsCfg).find? (fun e => e.2.en && e.2.gocbRef == f.gocbRef && keyMatches e.2.key f.key) = none →
     exec (.gooseFrameReceive q f g) s = .next { u with se := { u.se with unmatched := u.se.unmatched + 1 } }) ∧
  (∀ (s u : State) (q : Fin 8) (f : GoFrame) (g : Option GuardFind) (rx : LT) (n : Nat) (c : GoSubCfg), s.se.ready = true →
     (getQ s q.val).words ≠ [] → takeIngest q.val g s = (some rx, u) →
     (sortBy (·.1) u.se.gsCfg).find? (fun e => e.2.en && e.2.gocbRef == f.gocbRef && keyMatches e.2.key f.key) = some (n, c) →
     goFailure u c (getGs u n) f = none → exec (.gooseFrameReceive q f g) s = .next (takeGoose n rx f u)) ∧
  (∀ (s u : State) (q : Fin 8) (f : GoFrame) (g : Option GuardFind) (rx : LT) (n : Nat) (c : GoSubCfg), s.se.ready = true →
     (getQ s q.val).words ≠ [] → takeIngest q.val g s = (some rx, u) →
     (sortBy (·.1) u.se.gsCfg).find? (fun e => e.2.en && e.2.gocbRef == f.gocbRef && keyMatches e.2.key f.key) = some (n, c) →
     goFailure u c (getGs u n) f = some .other →
     exec (.gooseFrameReceive q f g) s = .next (modGs n (fun x => { x with invalid := x.invalid + 1 }) u)) ∧
  (∀ (s u : State) (q : Fin 8) (f : GoFrame) (g : Option GuardFind) (rx : LT) (n : Nat) (c : GoSubCfg), s.se.ready = true →
     (getQ s q.val).words ≠ [] → takeIngest q.val g s = (some rx, u) →
     (sortBy (·.1) u.se.gsCfg).find? (fun e => e.2.en && e.2.gocbRef == f.gocbRef && keyMatches e.2.key f.key) = some (n, c) →
     goFailure u c (getGs u n) f = some .confRev →
     exec (.gooseFrameReceive q f g) s = .next (modGs n (fun x => { x with confRevErr := true, invalid := x.invalid + 1 }) u)) ∧
  (∀ (s u : State) (q : Fin 8) (f : GoFrame) (g : Option GuardFind) (rx : LT) (n : Nat) (c : GoSubCfg), s.se.ready = true →
     (getQ s q.val).words ≠ [] → takeIngest q.val g s = (some rx, u) →
     (sortBy (·.1) u.se.gsCfg).find? (fun e => e.2.en && e.2.gocbRef == f.gocbRef && keyMatches e.2.key f.key) = some (n, c) →
     goFailure u c (getGs u n) f = some .auth →
     exec (.gooseFrameReceive q f g) s = .next (authFailed c.owner 1 n (authCheck u c.authReq true f.key c.keyCur c.keyNext f.auth).2 (modGs n (fun x => { x with authErr := true, invalid := x.invalid + 1 }) u))) ∧
  (∀ (s : State) (g : Fin 16) (i : Instant) (l : List Instant), (getGroup s g.val).instants = i :: l → s.se.ready = true →
     (instantComplete s i (instantStreams s g.val (instantLt s i.sec i.k i.rate)) = true ∨ ltReached s.now (ltAdd i.tFirst (usTu (groupCfgAt s g.val (instantLt s i.sec i.k i.rate)).tolUs)) = true) →
     exec (.instantRelease g) s = .next (releaseInstant g.val i (instantLt s i.sec i.k i.rate) (instantStreams s g.val (instantLt s i.sec i.k i.rate)) s)) ∧
  (∀ (s : State) (g : Fin 16),
     ((getGroup s g.val).instants = [] ∨ s.se.ready = false ∨ ∃ i l, (getGroup s g.val).instants = i :: l ∧ ¬(instantComplete s i (instantStreams s g.val (instantLt s i.sec i.k i.rate)) = true ∨ ltReached s.now (ltAdd i.tFirst (usTu (groupCfgAt s g.val (instantLt s i.sec i.k i.rate)).tolUs)) = true)) →
     exec (.instantRelease g) s = .next s) ∧
  (∀ (s v : State), tcuDue s 3 = true →
     v = (onSe (fun x => { x with hist := ((x.secNo, gridStart s) :: x.hist).take 4, ltS := (getTcu s 3).target, secNo := x.secNo + 1 }) (fireTcu 3 s)) →
     exec .gridSecond s = .next (arSecond (getTcu s 3).target (peSecond (getTcu s 3).target (frSecond (getTcu s 3).target (decide (s.se.secNo ≠ 0 ∧ ltDiff (getTcu s 3).target (gridStart s) ≠ secTu 1)) (if offBoundary v (getTcu s 3).target then cutFrame (gridStart s) (getTcu s 3).target v else v))))) ∧
  (∀ (s : State), tcuDue s 3 = false → exec .gridSecond s = .next s) ∧
  (∀ (s : State) (n : Fin 1024) (t : Nat) (c : GoSubCfg), (getGs s n.val).talAt = some t → s.se.gsCfg.get? n.val = some c → s.se.ready = true →
     t ≤ s.abs → (allBatches s).any (fun b => b.src == .goose) = false →
     ∃ u l, exec (.talExpiry n) s = .next (sendBatch .goose l u) ∧ (getGs u n.val).state = .talExpired ∧ (getGs u n.val).talAt = none ∧ u.se.talExp = true ∧ u.ev.count[0x2B] = satInc s.ev.count[0x2B] ∧ ∀ w ∈ l, w.quality &&& 3 = 1 ∧ ∃ k, w.writer = .goose n.val k) ∧
  (∀ (s : State) (n : Fin 1024),
     ((getGs s n.val).talAt = none ∨ s.se.gsCfg.get? n.val = none ∨ s.se.ready = false ∨ (∃ t, (getGs s n.val).talAt = some t ∧ s.abs < t) ∨ (allBatches s).any (fun b => b.src == .goose) = true) →
     exec (.talExpiry n) s = .next s) ∧
  (∀ (s : State) (p : Fin 256) (t : LT), (getGp s p.val).pendingAt = some t → mayPublish s p.val = true →
     exec (.goosePublish p) s = .next (newGoState p.val t false s)) ∧
  (∀ (s : State) (p : Fin 256), (getGp s p.val).pendingAt = none ∨ mayPublish s p.val = false → exec (.goosePublish p) s = .next s) ∧
  (∀ (s : State) (p : Fin 256) (t : LT), (getGp s p.val).nextAt = some t → (getGp s p.val).pendingAt = none → mayPublish s p.val = true →
     ltReached s.now t = true →
     exec (.gooseRetransmit p) s = .next (sendGoose p.val (2 * (min ((getGp s p.val).interval * (s.se.gpCfg.getD p.val {}).f) (s.se.gpCfg.getD p.val {}).t0)) (modGp p.val (fun g => { g with sqNum := goNext g.sqNum, interval := (min ((getGp s p.val).interval * (s.se.gpCfg.getD p.val {}).f) (s.se.gpCfg.getD p.val {}).t0), nextAt := some (ltAdd s.now (msTu (min ((getGp s p.val).interval * (s.se.gpCfg.getD p.val {}).f) (s.se.gpCfg.getD p.val {}).t0))) }) s))) ∧
  (∀ (s : State) (p : Fin 256),
     ((getGp s p.val).nextAt = none ∨ (getGp s p.val).pendingAt ≠ none ∨ mayPublish s p.val = false ∨ ∃ t, (getGp s p.val).nextAt = some t ∧ ltReached s.now t = false) →
     exec (.gooseRetransmit p) s = .next s)

/-- A staging command that has started is accepted where the session is open to the issuer (of the SESSION given, not armed, no other commit
affecting the subsystem), the domain access succeeds, the opcode's own check passes over the session's view with its items laid in, and
PLEN + IND_LEN more bytes fit the issuer's staging share: its items join the staged ones, replacing those of their keys, the session is
OPEN and names no package, its bytes grow by PLEN + IND_LEN, and the command is answered OK. Otherwise it is refused and stages nothing:
with the session's status (SUBSYS 0), that of the access, that of the check, or QUOTA, the first that applies. What check each opcode
makes, and its items, are those the clauses name; FB_STAGE_CODE reads its image first, and one it cannot read has no items and the check
BAD_PARAM. Two clauses for each staging command of TB, PX, SW, QM, the cabinet link, SE, FR, PE, AR, FB, PS, FO, IM and PA. Definitions in
it hold choices of the model: log 24, 25, 139. -/
def Obligations.StagedItemsJoinTheSession : Prop :=
  (∀ (c : Cmd) (x : PtpCfg) (s : State), stagedOk 0x0101 false c [.ptp x] (fun _ _ => none) s = true →
     exec (.tbStagePtp c x) s = stagedNext 0x0101 c [.ptp x] s) ∧
  (∀ (c : Cmd) (x : PtpCfg) (b : ReplyBody) (s t : State), started 0x0101 false c s = true →
     stageRefusal 0x0101 c [.ptp x] (fun _ _ => none) s = some (b, t) → exec (.tbStagePtp c x) s = answered 0x0101 c b t) ∧
  (∀ (c : Cmd) (x : SourcesCfg) (s : State), stagedOk 0x0102 false c [.sources x] (fun _ _ => none) s = true →
     exec (.tbStageSources c x) s = stagedNext 0x0102 c [.sources x] s) ∧
  (∀ (c : Cmd) (x : SourcesCfg) (b : ReplyBody) (s t : State), started 0x0102 false c s = true →
     stageRefusal 0x0102 c [.sources x] (fun _ _ => none) s = some (b, t) → exec (.tbStageSources c x) s = answered 0x0102 c b t) ∧
  (∀ (c : Cmd) (l : List PortLatCfg) (s : State), stagedOk 0x0103 false c (l.map .portLat) (checkTbStagePortLat l) s = true →
     exec (.tbStagePortLat c l) s = stagedNext 0x0103 c (l.map .portLat) s) ∧
  (∀ (c : Cmd) (l : List PortLatCfg) (b : ReplyBody) (s t : State), started 0x0103 false c s = true →
     stageRefusal 0x0103 c (l.map .portLat) (checkTbStagePortLat l) s = some (b, t) → exec (.tbStagePortLat c l) s = answered 0x0103 c b t) ∧
  (∀ (c : Cmd) (x : PinCfg) (s : State), stagedOk 0x0104 false c [.pins x] (checkTbStagePins x) s = true →
     exec (.tbStagePins c x) s = stagedNext 0x0104 c [.pins x] s) ∧
  (∀ (c : Cmd) (x : PinCfg) (b : ReplyBody) (s t : State), started 0x0104 false c s = true →
     stageRefusal 0x0104 c [.pins x] (checkTbStagePins x) s = some (b, t) → exec (.tbStagePins c x) s = answered 0x0104 c b t) ∧
  (∀ (c : Cmd) (l : List TcuAssign) (s : State), stagedOk 0x0105 false c (l.map .tcuAssign) (checkTbStageTcuAssign l) s = true →
     exec (.tbStageTcuAssign c l) s = stagedNext 0x0105 c (l.map .tcuAssign) s) ∧
  (∀ (c : Cmd) (l : List TcuAssign) (b : ReplyBody) (s t : State), started 0x0105 false c s = true →
     stageRefusal 0x0105 c (l.map .tcuAssign) (checkTbStageTcuAssign l) s = some (b, t) → exec (.tbStageTcuAssign c l) s = answered 0x0105 c b t) ∧
  (∀ (c : Cmd) (p : Fin 14) (x : PortCfg) (s : State), stagedOk 0x0201 false c [.port p x] (fun _ _ => none) s = true →
     exec (.pxStagePort c p x) s = stagedNext 0x0201 c [.port p x] s) ∧
  (∀ (c : Cmd) (p : Fin 14) (x : PortCfg) (b : ReplyBody) (s t : State), started 0x0201 false c s = true →
     stageRefusal 0x0201 c [.port p x] (fun _ _ => none) s = some (b, t) → exec (.pxStagePort c p x) s = answered 0x0201 c b t) ∧
  (∀ (c : Cmd) (p : Fin 14) (l : List (Nat × AddrEntry)) (s : State),
     stagedOk 0x0202 false c (l.map (fun e => .filter p e.1 e.2)) (fun _ _ => none) s = true →
     exec (.pxStageFilter c p l) s = stagedNext 0x0202 c (l.map (fun e => .filter p e.1 e.2)) s) ∧
  (∀ (c : Cmd) (p : Fin 14) (l : List (Nat × AddrEntry)) (b : ReplyBody) (s t : State), started 0x0202 false c s = true →
     stageRefusal 0x0202 c (l.map (fun e => .filter p e.1 e.2)) (fun _ _ => none) s = some (b, t) →
     exec (.pxStageFilter c p l) s = answered 0x0202 c b t) ∧
  (∀ (c : Cmd) (pair : Nat) (x : RedCfg) (s : State), stagedOk 0x0203 false c [.red pair x] (checkPxStageRedundancy x) s = true →
     exec (.pxStageRedundancy c pair x) s = stagedNext 0x0203 c [.red pair x] s) ∧
  (∀ (c : Cmd) (pair : Nat) (x : RedCfg) (b : ReplyBody) (s t : State), started 0x0203 false c s = true →
     stageRefusal 0x0203 c [.red pair x] (checkPxStageRedundancy x) s = some (b, t) →
     exec (.pxStageRedundancy c pair x) s = answered 0x0203 c b t) ∧
  (∀ (c : Cmd) (p : Nat) (x : MacsecCfg) (s : State), stagedOk 0x0204 false c [.macsec p x] (checkPxStageMacsec x) s = true →
     exec (.pxStageMacsec c p x) s = stagedNext 0x0204 c [.macsec p x] s) ∧
  (∀ (c : Cmd) (p : Nat) (x : MacsecCfg) (b : ReplyBody) (s t : State), started 0x0204 false c s = true →
     stageRefusal 0x0204 c [.macsec p x] (checkPxStageMacsec x) s = some (b, t) → exec (.pxStageMacsec c p x) s = answered 0x0204 c b t) ∧
  (∀ (c : Cmd) (l : List (Fin 16 × Fin 8 × LimitsCfg)) (s : State),
     stagedOk 0x0301 false c (l.map (fun e => .limits e.1 e.2.1 e.2.2)) (checkSwStageLimits l) s = true →
     exec (.swStageLimits c l) s = stagedNext 0x0301 c (l.map (fun e => .limits e.1 e.2.1 e.2.2)) s) ∧
  (∀ (c : Cmd) (l : List (Fin 16 × Fin 8 × LimitsCfg)) (b : ReplyBody) (s t : State), started 0x0301 false c s = true →
     stageRefusal 0x0301 c (l.map (fun e => .limits e.1 e.2.1 e.2.2)) (checkSwStageLimits l) s = some (b, t) →
     exec (.swStageLimits c l) s = answered 0x0301 c b t) ∧
  (∀ (c : Cmd) (l : List (Nat × FdbStatic)) (s : State), stagedOk 0x0302 false c (l.map (fun e => .fdb e.1 e.2)) (checkSwStageFdb l) s = true →
     exec (.swStageFdb c l) s = stagedNext 0x0302 c (l.map (fun e => .fdb e.1 e.2)) s) ∧
  (∀ (c : Cmd) (l : List (Nat × FdbStatic)) (b : ReplyBody) (s t : State), started 0x0302 false c s = true →
     stageRefusal 0x0302 c (l.map (fun e => .fdb e.1 e.2)) (checkSwStageFdb l) s = some (b, t) → exec (.swStageFdb c l) s = answered 0x0302 c b t) ∧
  (∀ (c : Cmd) (l : List (BitVec 12 × VlanCfg)) (s : State),
     stagedOk 0x0303 false c (l.map (fun e => .vlan e.1 e.2)) (fun _ _ => none) s = true →
     exec (.swStageVlan c l) s = stagedNext 0x0303 c (l.map (fun e => .vlan e.1 e.2)) s) ∧
  (∀ (c : Cmd) (l : List (BitVec 12 × VlanCfg)) (b : ReplyBody) (s t : State), started 0x0303 false c s = true →
     stageRefusal 0x0303 c (l.map (fun e => .vlan e.1 e.2)) (fun _ _ => none) s = some (b, t) → exec (.swStageVlan c l) s = answered 0x0303 c b t) ∧
  (∀ (c : Cmd) (x : SwPortsCfg) (s : State), stagedOk 0x0304 false c [.swPorts x] (checkSwStagePorts x) s = true →
     exec (.swStagePorts c x) s = stagedNext 0x0304 c [.swPorts x] s) ∧
  (∀ (c : Cmd) (x : SwPortsCfg) (b : ReplyBody) (s t : State), started 0x0304 false c s = true →
     stageRefusal 0x0304 c [.swPorts x] (checkSwStagePorts x) s = some (b, t) → exec (.swStagePorts c x) s = answered 0x0304 c b t) ∧
  (∀ (c : Cmd) (x : MirrorCfg) (s : State), stagedOk 0x0305 false c [.mirror x] (fun _ _ => none) s = true →
     exec (.swStageMirror c x) s = stagedNext 0x0305 c [.mirror x] s) ∧
  (∀ (c : Cmd) (x : MirrorCfg) (b : ReplyBody) (s t : State), started 0x0305 false c s = true →
     stageRefusal 0x0305 c [.mirror x] (fun _ _ => none) s = some (b, t) → exec (.swStageMirror c x) s = answered 0x0305 c b t) ∧
  (∀ (c : Cmd) (l : List (Nat × QueueCfg)) (s : State),
     stagedOk 0x0401 false c (l.map (fun e => .queue e.1 e.2)) (checkQmStageQueues l) s = true →
     exec (.qmStageQueues c l) s = stagedNext 0x0401 c (l.map (fun e => .queue e.1 e.2)) s) ∧
  (∀ (c : Cmd) (l : List (Nat × QueueCfg)) (b : ReplyBody) (s t : State), started 0x0401 false c s = true →
     stageRefusal 0x0401 c (l.map (fun e => .queue e.1 e.2)) (checkQmStageQueues l) s = some (b, t) →
     exec (.qmStageQueues c l) s = answered 0x0401 c b t) ∧
  (∀ (c : Cmd) (l : List (Fin 64 × SteerEntry)) (s : State),
     stagedOk 0x0402 false c (l.map (fun e => .steer e.1 e.2)) checkQmStageSteer s = true →
     exec (.qmStageSteer c l) s = stagedNext 0x0402 c (l.map (fun e => .steer e.1 e.2)) s) ∧
  (∀ (c : Cmd) (l : List (Fin 64 × SteerEntry)) (b : ReplyBody) (s t : State), started 0x0402 false c s = true →
     stageRefusal 0x0402 c (l.map (fun e => .steer e.1 e.2)) checkQmStageSteer s = some (b, t) →
     exec (.qmStageSteer c l) s = answered 0x0402 c b t) ∧
  (∀ (c : Cmd) (x : CabCfg) (s : State), stagedOk 0x0E08 false c [.cabinet x] (checkFoStageCabinet x) s = true →
     exec (.foStageCabinet c x) s = stagedNext 0x0E08 c [.cabinet x] s) ∧
  (∀ (c : Cmd) (x : CabCfg) (b : ReplyBody) (s t : State), started 0x0E08 false c s = true →
     stageRefusal 0x0E08 c [.cabinet x] (checkFoStageCabinet x) s = some (b, t) → exec (.foStageCabinet c x) s = answered 0x0E08 c b t) ∧
  (∀ (c : Cmd) (l : List (Fin 16 × GroupCfg)) (lockMs : Option Nat) (s : State),
     stagedOk 0x0501 false c (l.map (fun e => Item.group e.1 e.2) ++ (lockMs.map (fun n => Item.lockTimeout n)).toList) (checkSeStageGroups l lockMs) s = true →
     exec (.seStageGroups c l lockMs) s = stagedNext 0x0501 c (l.map (fun e => Item.group e.1 e.2) ++ (lockMs.map (fun n => Item.lockTimeout n)).toList) s) ∧
  (∀ (c : Cmd) (l : List (Fin 16 × GroupCfg)) (lockMs : Option Nat) (b : ReplyBody) (s t : State), started 0x0501 false c s = true →
     stageRefusal 0x0501 c (l.map (fun e => Item.group e.1 e.2) ++ (lockMs.map (fun n => Item.lockTimeout n)).toList) (checkSeStageGroups l lockMs) s = some (b, t) →
     exec (.seStageGroups c l lockMs) s = answered 0x0501 c b t) ∧
  (∀ (c : Cmd) (l : List (Nat × SvCfg)) (s : State), stagedOk 0x0502 true c (l.map (fun e => .svSub e.1 e.2)) (checkSeStageSv c l) s = true →
     exec (.seStageSv c l) s = stagedNext 0x0502 c (l.map (fun e => .svSub e.1 e.2)) s) ∧
  (∀ (c : Cmd) (l : List (Nat × SvCfg)) (b : ReplyBody) (s t : State), started 0x0502 true c s = true →
     stageRefusal 0x0502 c (l.map (fun e => .svSub e.1 e.2)) (checkSeStageSv c l) s = some (b, t) →
     exec (.seStageSv c l) s = answered 0x0502 c b t) ∧
  (∀ (c : Cmd) (l : List (Nat × GoSubCfg)) (s : State),
     stagedOk 0x0503 true c (l.map (fun e => .goSub e.1 e.2)) (checkSeStageGooseSub c l) s = true →
     exec (.seStageGooseSub c l) s = stagedNext 0x0503 c (l.map (fun e => .goSub e.1 e.2)) s) ∧
  (∀ (c : Cmd) (l : List (Nat × GoSubCfg)) (b : ReplyBody) (s t : State), started 0x0503 true c s = true →
     stageRefusal 0x0503 c (l.map (fun e => .goSub e.1 e.2)) (checkSeStageGooseSub c l) s = some (b, t) →
     exec (.seStageGooseSub c l) s = answered 0x0503 c b t) ∧
  (∀ (c : Cmd) (l : List (Nat × GoPubCfg)) (s : State),
     stagedOk 0x0504 true c (l.map (fun e => .goPub e.1 e.2)) (checkSeStageGoosePub c l) s = true →
     exec (.seStageGoosePub c l) s = stagedNext 0x0504 c (l.map (fun e => .goPub e.1 e.2)) s) ∧
  (∀ (c : Cmd) (l : List (Nat × GoPubCfg)) (b : ReplyBody) (s t : State), started 0x0504 true c s = true →
     stageRefusal 0x0504 c (l.map (fun e => .goPub e.1 e.2)) (checkSeStageGoosePub c l) s = some (b, t) →
     exec (.seStageGoosePub c l) s = answered 0x0504 c b t) ∧
  (∀ (c : Cmd) (l : List (Nat × LaneCfg)) (s : State),
     stagedOk 0x0601 true c (l.map (fun e => .lane e.1 e.2)) (checkFrStageLanes c l) s = true →
     exec (.frStageLanes c l) s = stagedNext 0x0601 c (l.map (fun e => .lane e.1 e.2)) s) ∧
  (∀ (c : Cmd) (l : List (Nat × LaneCfg)) (b : ReplyBody) (s t : State), started 0x0601 true c s = true →
     stageRefusal 0x0601 c (l.map (fun e => .lane e.1 e.2)) (checkFrStageLanes c l) s = some (b, t) →
     exec (.frStageLanes c l) s = answered 0x0601 c b t) ∧
  (∀ (c : Cmd) (l : List (Nat × TrackCfg)) (s : State),
     stagedOk 0x0602 true c (l.map (fun e => .track e.1 e.2)) (checkFrStageTrack c l) s = true →
     exec (.frStageTrack c l) s = stagedNext 0x0602 c (l.map (fun e => .track e.1 e.2)) s) ∧
  (∀ (c : Cmd) (l : List (Nat × TrackCfg)) (b : ReplyBody) (s t : State), started 0x0602 true c s = true →
     stageRefusal 0x0602 c (l.map (fun e => .track e.1 e.2)) (checkFrStageTrack c l) s = some (b, t) →
     exec (.frStageTrack c l) s = answered 0x0602 c b t) ∧
  (∀ (c : Cmd) (l : List (Bool × Nat × CoefTable)) (s : State),
     stagedOk 0x0603 true c (l.map (fun e => .coef e.1 e.2.1 e.2.2)) (checkFrStageCoef c l) s = true →
     exec (.frStageCoef c l) s = stagedNext 0x0603 c (l.map (fun e => .coef e.1 e.2.1 e.2.2)) s) ∧
  (∀ (c : Cmd) (l : List (Bool × Nat × CoefTable)) (b : ReplyBody) (s t : State), started 0x0603 true c s = true →
     stageRefusal 0x0603 c (l.map (fun e => .coef e.1 e.2.1 e.2.2)) (checkFrStageCoef c l) s = some (b, t) →
     exec (.frStageCoef c l) s = answered 0x0603 c b t) ∧
  (∀ (c : Cmd) (l : List (Nat × ChanCfg)) (s : State),
     stagedOk 0x0701 true c (l.map (fun e => .chan e.1 e.2)) (checkPeStageChannels c l) s = true →
     exec (.peStageChannels c l) s = stagedNext 0x0701 c (l.map (fun e => .chan e.1 e.2)) s) ∧
  (∀ (c : Cmd) (l : List (Nat × ChanCfg)) (b : ReplyBody) (s t : State), started 0x0701 true c s = true →
     stageRefusal 0x0701 c (l.map (fun e => .chan e.1 e.2)) (checkPeStageChannels c l) s = some (b, t) →
     exec (.peStageChannels c l) s = answered 0x0701 c b t) ∧
  (∀ (c : Cmd) (l : List (Nat × SetCfg)) (s : State), stagedOk 0x0702 true c (l.map (fun e => .pset e.1 e.2)) (checkPeStageSets c l) s = true →
     exec (.peStageSets c l) s = stagedNext 0x0702 c (l.map (fun e => .pset e.1 e.2)) s) ∧
  (∀ (c : Cmd) (l : List (Nat × SetCfg)) (b : ReplyBody) (s t : State), started 0x0702 true c s = true →
     stageRefusal 0x0702 c (l.map (fun e => .pset e.1 e.2)) (checkPeStageSets c l) s = some (b, t) →
     exec (.peStageSets c l) s = answered 0x0702 c b t) ∧
  (∀ (c : Cmd) (l : List (Nat × StreamCfg)) (s : State),
     stagedOk 0x0703 true c (l.map (fun e => .stream e.1 e.2)) (checkPeStageStreams c l) s = true →
     exec (.peStageStreams c l) s = stagedNext 0x0703 c (l.map (fun e => .stream e.1 e.2)) s) ∧
  (∀ (c : Cmd) (l : List (Nat × StreamCfg)) (b : ReplyBody) (s t : State), started 0x0703 true c s = true →
     stageRefusal 0x0703 c (l.map (fun e => .stream e.1 e.2)) (checkPeStageStreams c l) s = some (b, t) →
     exec (.peStageStreams c l) s = answered 0x0703 c b t) ∧
  (∀ (c : Cmd) (l : List (Fin 8 × WslCfg)) (s : State), stagedOk 0x0801 false c (l.map (fun e => .wsl e.1 e.2)) (checkArStageWsl l) s = true →
     exec (.arStageWsl c l) s = stagedNext 0x0801 c (l.map (fun e => .wsl e.1 e.2)) s) ∧
  (∀ (c : Cmd) (l : List (Fin 8 × WslCfg)) (b : ReplyBody) (s t : State), started 0x0801 false c s = true →
     stageRefusal 0x0801 c (l.map (fun e => .wsl e.1 e.2)) (checkArStageWsl l) s = some (b, t) → exec (.arStageWsl c l) s = answered 0x0801 c b t) ∧
  (∀ (c : Cmd) (l : List (Fin 24 × EdgeCfg)) (s : State),
     stagedOk 0x0802 false c (l.map (fun e => .edge e.1 e.2)) (checkArStageEdges l) s = true →
     exec (.arStageEdges c l) s = stagedNext 0x0802 c (l.map (fun e => .edge e.1 e.2)) s) ∧
  (∀ (c : Cmd) (l : List (Fin 24 × EdgeCfg)) (b : ReplyBody) (s t : State), started 0x0802 false c s = true →
     stageRefusal 0x0802 c (l.map (fun e => .edge e.1 e.2)) (checkArStageEdges l) s = some (b, t) →
     exec (.arStageEdges c l) s = answered 0x0802 c b t) ∧
  (∀ (c : Cmd) (l : List (Nat × CompCfg)) (s : State),
     stagedOk 0x0803 true c (l.map (fun e => .comp e.1 e.2)) (checkArStageComparators c l) s = true →
     exec (.arStageComparators c l) s = stagedNext 0x0803 c (l.map (fun e => .comp e.1 e.2)) s) ∧
  (∀ (c : Cmd) (l : List (Nat × CompCfg)) (b : ReplyBody) (s t : State), started 0x0803 true c s = true →
     stageRefusal 0x0803 c (l.map (fun e => .comp e.1 e.2)) (checkArStageComparators c l) s = some (b, t) →
     exec (.arStageComparators c l) s = answered 0x0803 c b t) ∧
  (∀ (c : Cmd) (l : List (Fin 8 × RecCfg)) (s : State),
     stagedOk 0x0804 true c (l.map (fun e => .recorder e.1 e.2)) (checkArStageRecorders c l) s = true →
     exec (.arStageRecorders c l) s = stagedNext 0x0804 c (l.map (fun e => .recorder e.1 e.2)) s) ∧
  (∀ (c : Cmd) (l : List (Fin 8 × RecCfg)) (b : ReplyBody) (s t : State), started 0x0804 true c s = true →
     stageRefusal 0x0804 c (l.map (fun e => .recorder e.1 e.2)) (checkArStageRecorders c l) s = some (b, t) →
     exec (.arStageRecorders c l) s = answered 0x0804 c b t) ∧
  (∀ (c : Cmd) (raw : List Byte) (img : CodeImage) (s : State), decodeImage raw = some img →
     stagedOk 0x0901 true c [.code img.owner img] (checkFbStageCode c img) s = true →
     exec (.fbStageCode c raw) s = stagedNext 0x0901 c [.code img.owner img] s) ∧
  (∀ (c : Cmd) (raw : List Byte) (img : CodeImage) (b : ReplyBody) (s t : State), decodeImage raw = some img → started 0x0901 true c s = true →
     stageRefusal 0x0901 c [.code img.owner img] (checkFbStageCode c img) s = some (b, t) → exec (.fbStageCode c raw) s = answered 0x0901 c b t) ∧
  (∀ (c : Cmd) (raw : List Byte) (b : ReplyBody) (s t : State), decodeImage raw = none → started 0x0901 true c s = true →
     stageRefusal 0x0901 c [] (fun _ _ => some .badParam) s = some (b, t) → exec (.fbStageCode c raw) s = answered 0x0901 c b t) ∧
  (∀ (c : Cmd) (l : List (Fin 6 × Fin 64 × RxEntry)) (s : State),
     stagedOk 0x0902 false c (l.map (fun e => .rxmap e.1 e.2.1 e.2.2)) (fun _ _ => none) s = true →
     exec (.fbStageRxmap c l) s = stagedNext 0x0902 c (l.map (fun e => .rxmap e.1 e.2.1 e.2.2)) s) ∧
  (∀ (c : Cmd) (l : List (Fin 6 × Fin 64 × RxEntry)) (b : ReplyBody) (s t : State), started 0x0902 false c s = true →
     stageRefusal 0x0902 c (l.map (fun e => .rxmap e.1 e.2.1 e.2.2)) (fun _ _ => none) s = some (b, t) →
     exec (.fbStageRxmap c l) s = answered 0x0902 c b t) ∧
  (∀ (c : Cmd) (f : Option Nat) (l : List (Fin 48 × List Window)) (s : State),
     stagedOk 0x0903 false c ((f.map (fun us => Item.frame (us / 10))).toList ++ l.map (fun e => Item.windows e.1 e.2)) (checkFbStageSchedule f l) s = true →
     exec (.fbStageSchedule c f l) s = stagedNext 0x0903 c ((f.map (fun us => Item.frame (us / 10))).toList ++ l.map (fun e => Item.windows e.1 e.2)) s) ∧
  (∀ (c : Cmd) (f : Option Nat) (l : List (Fin 48 × List Window)) (b : ReplyBody) (s t : State), started 0x0903 false c s = true →
     stageRefusal 0x0903 c ((f.map (fun us => Item.frame (us / 10))).toList ++ l.map (fun e => Item.windows e.1 e.2)) (checkFbStageSchedule f l) s = some (b, t) →
     exec (.fbStageSchedule c f l) s = answered 0x0903 c b t) ∧
  (∀ (c : Cmd) (o : Tag) (l : List (Nat × TaskCfg)) (own : Option OwnerCfg) (s : State),
     stagedOk 0x0904 true c (l.map (fun e => Item.task o e.1 e.2) ++ (own.map (fun x => Item.ownerCfg o x)).toList) (checkFbStageTasks c o l) s = true →
     exec (.fbStageTasks c o l own) s = stagedNext 0x0904 c (l.map (fun e => Item.task o e.1 e.2) ++ (own.map (fun x => Item.ownerCfg o x)).toList) s) ∧
  (∀ (c : Cmd) (o : Tag) (l : List (Nat × TaskCfg)) (own : Option OwnerCfg) (b : ReplyBody) (s t : State), started 0x0904 true c s = true →
     stageRefusal 0x0904 c (l.map (fun e => Item.task o e.1 e.2) ++ (own.map (fun x => Item.ownerCfg o x)).toList) (checkFbStageTasks c o l) s = some (b, t) →
     exec (.fbStageTasks c o l own) s = answered 0x0904 c b t) ∧
  (∀ (c : Cmd) (o : Tag) (l : List (Fin 48 × List RetainRange)) (s : State),
     stagedOk 0x0905 true c (l.map (fun e => Item.retain o e.1 e.2)) (checkFbStageRetain c o l) s = true →
     exec (.fbStageRetain c o l) s = stagedNext 0x0905 c (l.map (fun e => Item.retain o e.1 e.2)) s) ∧
  (∀ (c : Cmd) (o : Tag) (l : List (Fin 48 × List RetainRange)) (b : ReplyBody) (s t : State), started 0x0905 true c s = true →
     stageRefusal 0x0905 c (l.map (fun e => Item.retain o e.1 e.2)) (checkFbStageRetain c o l) s = some (b, t) →
     exec (.fbStageRetain c o l) s = answered 0x0905 c b t) ∧
  (∀ (c : Cmd) (defs : List (Nat × PointDef)) (pubs : List PubCfg) (tPsw : Option Nat) (s : State),
     stagedOk 0x0A01 true c (defs.map (fun e => Item.point e.1 e.2) ++ pubs.map Item.pub ++ (tPsw.map (fun n => Item.tPsw n)).toList) (checkPsStagePoints c defs pubs tPsw) s = true →
     exec (.psStagePoints c defs pubs tPsw) s = stagedNext 0x0A01 c (defs.map (fun e => Item.point e.1 e.2) ++ pubs.map Item.pub ++ (tPsw.map (fun n => Item.tPsw n)).toList) s) ∧
  (∀ (c : Cmd) (defs : List (Nat × PointDef)) (pubs : List PubCfg) (tPsw : Option Nat) (b : ReplyBody) (s t : State),
     started 0x0A01 true c s = true →
     stageRefusal 0x0A01 c (defs.map (fun e => Item.point e.1 e.2) ++ pubs.map Item.pub ++ (tPsw.map (fun n => Item.tPsw n)).toList) (checkPsStagePoints c defs pubs tPsw) s = some (b, t) →
     exec (.psStagePoints c defs pubs tPsw) s = answered 0x0A01 c b t) ∧
  (∀ (c : Cmd) (p : PairCfg) (s : State), stagedOk 0x0E01 false c [.pair p] (checkFoStagePair p) s = true →
     exec (.foStagePair c p) s = stagedNext 0x0E01 c [.pair p] s) ∧
  (∀ (c : Cmd) (p : PairCfg) (b : ReplyBody) (s t : State), started 0x0E01 false c s = true →
     stageRefusal 0x0E01 c [.pair p] (checkFoStagePair p) s = some (b, t) → exec (.foStagePair c p) s = answered 0x0E01 c b t) ∧
  (∀ (c : Cmd) (o : Tag) (l : List ReplRange) (s : State), stagedOk 0x0E02 true c [.repl o l] (checkFoStageRepl c o) s = true →
     exec (.foStageRepl c o l) s = stagedNext 0x0E02 c [.repl o l] s) ∧
  (∀ (c : Cmd) (o : Tag) (l : List ReplRange) (b : ReplyBody) (s t : State), started 0x0E02 true c s = true →
     stageRefusal 0x0E02 c [.repl o l] (checkFoStageRepl c o) s = some (b, t) → exec (.foStageRepl c o l) s = answered 0x0E02 c b t) ∧
  (∀ (c : Cmd) (l : List (Nat × SharesCfg)) (s : State),
     stagedOk 0x0D01 false c (l.map (fun e => .shares e.1 e.2)) (checkImStageShares l) s = true →
     exec (.imStageShares c l) s = stagedNext 0x0D01 c (l.map (fun e => .shares e.1 e.2)) s) ∧
  (∀ (c : Cmd) (l : List (Nat × SharesCfg)) (b : ReplyBody) (s t : State), started 0x0D01 false c s = true →
     stageRefusal 0x0D01 c (l.map (fun e => .shares e.1 e.2)) (checkImStageShares l) s = some (b, t) →
     exec (.imStageShares c l) s = answered 0x0D01 c b t) ∧
  (∀ (c : Cmd) (l : List (Fin 128 × EvRoute)) (s : State),
     stagedOk 0x0D02 false c (l.map (fun e => .route e.1 e.2)) (fun _ _ => none) s = true →
     exec (.imStageEvents c l) s = stagedNext 0x0D02 c (l.map (fun e => .route e.1 e.2)) s) ∧
  (∀ (c : Cmd) (l : List (Fin 128 × EvRoute)) (b : ReplyBody) (s t : State), started 0x0D02 false c s = true →
     stageRefusal 0x0D02 c (l.map (fun e => .route e.1 e.2)) (fun _ _ => none) s = some (b, t) →
     exec (.imStageEvents c l) s = answered 0x0D02 c b t) ∧
  (∀ (c : Cmd) (l : List (Fin 9 × DomainCfg)) (s : State),
     stagedOk 0x0F01 false c (l.map (fun x => .domain x.1 x.2)) (checkPaStageDomains l) s = true →
     exec (.paStageDomains c l) s = stagedNext 0x0F01 c (l.map (fun x => .domain x.1 x.2)) s) ∧
  (∀ (c : Cmd) (l : List (Fin 9 × DomainCfg)) (b : ReplyBody) (s t : State), started 0x0F01 false c s = true →
     stageRefusal 0x0F01 c (l.map (fun x => .domain x.1 x.2)) (checkPaStageDomains l) s = some (b, t) →
     exec (.paStageDomains c l) s = answered 0x0F01 c b t) ∧
  (∀ (c : Cmd) (x : DuikerCfg) (s : State), stagedOk 0x0F02 false c [.duiker x] (checkPaStageDuiker x) s = true →
     exec (.paStageDuiker c x) s = stagedNext 0x0F02 c [.duiker x] s) ∧
  (∀ (c : Cmd) (x : DuikerCfg) (b : ReplyBody) (s t : State), started 0x0F02 false c s = true →
     stageRefusal 0x0F02 c [.duiker x] (checkPaStageDuiker x) s = some (b, t) → exec (.paStageDuiker c x) s = answered 0x0F02 c b t)

/-- A multi-part command that reaches its body runs its parts in ascending order on the state it enters, and answers what they give:
SW_READ_COUNTERS, SW_FDB_FLUSH, FB_READ_COUNTERS, FR_LANE_RESTART, PE_READ_RESULTS, PE_STREAM_CTRL, PE_READ_COUNTERS, PX_PORT_RESTART,
PX_READ_COUNTERS, QM_READ_COUNTERS, QM_QUEUE_FLUSH, AR_TRIGGER, AR_RECORDER_CTRL, AR_READ_COUNTERS, SE_READ_COUNTERS, SE_STREAM_RELOCK,
FO_CAB_REDISCOVER. One part does its work and is OK, or it leaves the state: with BAD_PARAM where it names nothing (a number past the end,
a station not staged, a port disabled or not learning, a reserved queue), with DENIED where it lies outside the instance's share, with
NOT_READY where the lane, stream, subscription or recorder is not in use. The work: counters are answered and cleared (a port's after its
pause is accounted); a lane restarts at LT now; a channel's results are answered; a stream's output changes; a port retrains; a port's
learned entries are removed; a queue is flushed; a recorder is triggered, armed if stopped, or stopped; a stream relocks; a station is
forgotten and assigned anew. Definitions in it hold choices of the model: log 50, 133, 135. -/
def Obligations.PartCommandsWork : Prop :=
  (∀ (c : Cmd) (mask : BitVec 64) (s : State), runs 0x0E41 false c s = true →
     exec (.foCabRediscover c mask) s = answered 0x0E41 c (multipart mask partFoCabRediscover (entered 0x0E41 c s)).2 (multipart mask partFoCabRediscover (entered 0x0E41 c s)).1) ∧
  (∀ (c : Cmd) (mask : BitVec 64) (s : State), runs 0x0310 true c s = true →
     exec (.swReadCounters c mask) s = answered 0x0310 c (multipart mask (partSwReadCounters c) (entered 0x0310 c s)).2 (multipart mask (partSwReadCounters c) (entered 0x0310 c s)).1) ∧
  (∀ (c : Cmd) (mask : BitVec 64) (s : State), runs 0x0311 false c s = true →
     exec (.swFdbFlush c mask) s = answered 0x0311 c (multipart mask partSwFdbFlush (entered 0x0311 c s)).2 (multipart mask partSwFdbFlush (entered 0x0311 c s)).1) ∧
  (∀ (c : Cmd) (mask : BitVec 64) (s : State), runs 0x0912 false c s = true →
     exec (.fbReadCounters c mask) s = answered 0x0912 c (multipart mask partFbReadCounters (entered 0x0912 c s)).2 (multipart mask partFbReadCounters (entered 0x0912 c s)).1) ∧
  (∀ (c : Cmd) (base : Nat) (mask : BitVec 64) (s : State), runs 0x0610 true c s = true →
     exec (.frLaneRestart c base mask) s = answered 0x0610 c (multipart mask (partFrLaneRestart c base) (entered 0x0610 c s)).2 (multipart mask (partFrLaneRestart c base) (entered 0x0610 c s)).1) ∧
  (∀ (c : Cmd) (base : Nat) (mask : BitVec 64) (s : State), runs 0x0710 true c s = true →
     exec (.peReadResults c base mask) s = answered 0x0710 c (multipart mask (partPeReadResults c base) (entered 0x0710 c s)).2 (multipart mask (partPeReadResults c base) (entered 0x0710 c s)).1) ∧
  (∀ (c : Cmd) (base : Nat) (mask : BitVec 64) (s : State), runs 0x0711 true c s = true →
     exec (.peStreamTxOn c base mask) s = answered 0x0711 c (multipart mask (streamTx c base true) (entered 0x0711 c s)).2 (multipart mask (streamTx c base true) (entered 0x0711 c s)).1) ∧
  (∀ (c : Cmd) (base : Nat) (mask : BitVec 64) (s : State), runs 0x0711 true c s = true →
     exec (.peStreamTxOff c base mask) s = answered 0x0711 c (multipart mask (streamTx c base false) (entered 0x0711 c s)).2 (multipart mask (streamTx c base false) (entered 0x0711 c s)).1) ∧
  (∀ (c : Cmd) (base : Nat) (mask : BitVec 64) (s : State), runs 0x0712 true c s = true →
     exec (.peReadCounters c base mask) s = answered 0x0712 c (multipart mask (partPeReadCounters c base) (entered 0x0712 c s)).2 (multipart mask (partPeReadCounters c base) (entered 0x0712 c s)).1) ∧
  (∀ (c : Cmd) (mask : BitVec 64) (s : State), runs 0x0212 false c s = true →
     exec (.pxPortRestart c mask) s = answered 0x0212 c (multipart mask partPxPortRestart (entered 0x0212 c s)).2 (multipart mask partPxPortRestart (entered 0x0212 c s)).1) ∧
  (∀ (c : Cmd) (mask : BitVec 64) (s : State), runs 0x0213 true c s = true →
     exec (.pxReadCounters c mask) s = answered 0x0213 c (multipart mask (partPxReadCounters c) (entered 0x0213 c s)).2 (multipart mask (partPxReadCounters c) (entered 0x0213 c s)).1) ∧
  (∀ (c : Cmd) (base : Nat) (mask : BitVec 64) (s : State), runs 0x0410 true c s = true →
     exec (.qmReadCounters c base mask) s = answered 0x0410 c (multipart mask (partQmReadCounters c base) (entered 0x0410 c s)).2 (multipart mask (partQmReadCounters c base) (entered 0x0410 c s)).1) ∧
  (∀ (c : Cmd) (base : Nat) (mask : BitVec 64) (s : State), runs 0x0411 false c s = true →
     exec (.qmQueueFlush c base mask) s = answered 0x0411 c (multipart mask (partQmQueueFlush base) (entered 0x0411 c s)).2 (multipart mask (partQmQueueFlush base) (entered 0x0411 c s)).1) ∧
  (∀ (c : Cmd) (mask : BitVec 64) (s : State), runs 0x0810 true c s = true →
     exec (.arTrigger c mask) s = answered 0x0810 c (multipart mask (partArTrigger c) (entered 0x0810 c s)).2 (multipart mask (partArTrigger c) (entered 0x0810 c s)).1) ∧
  (∀ (c : Cmd) (mask : BitVec 64) (s : State), runs 0x0811 true c s = true →
     exec (.arRecorderArm c mask) s = answered 0x0811 c (multipart mask (partArRecorderArm c) (entered 0x0811 c s)).2 (multipart mask (partArRecorderArm c) (entered 0x0811 c s)).1) ∧
  (∀ (c : Cmd) (mask : BitVec 64) (s : State), runs 0x0811 true c s = true →
     exec (.arRecorderStop c mask) s = answered 0x0811 c (multipart mask (partArRecorderStop c) (entered 0x0811 c s)).2 (multipart mask (partArRecorderStop c) (entered 0x0811 c s)).1) ∧
  (∀ (c : Cmd) (mask : BitVec 64) (s : State), runs 0x0815 true c s = true →
     exec (.arReadCounters c mask) s = answered 0x0815 c (multipart mask (partArReadCounters c) (entered 0x0815 c s)).2 (multipart mask (partArReadCounters c) (entered 0x0815 c s)).1) ∧
  (∀ (c : Cmd) (base : Nat) (mask : BitVec 64) (s : State), runs 0x0510 true c s = true →
     exec (.seReadCounters c base mask) s = answered 0x0510 c (multipart mask (partSeReadCounters c base) (entered 0x0510 c s)).2 (multipart mask (partSeReadCounters c base) (entered 0x0510 c s)).1) ∧
  (∀ (c : Cmd) (base : Nat) (mask : BitVec 64) (s : State), runs 0x0511 false c s = true →
     exec (.seStreamRelock c base mask) s = answered 0x0511 c (multipart mask (partSeStreamRelock base) (entered 0x0511 c s)).2 (multipart mask (partSeStreamRelock base) (entered 0x0511 c s)).1) ∧
  (∀ (n : Nat) (s : State), (stnCfg s (n / 32) (n % 32)).isSome = true →
     partFoCabRediscover n s = (reassign (segFin (n / 32)) (getSeg s (n / 32)) (unassign (n / 32) (n % 32) s), .ok, [])) ∧
  (∀ (n : Nat) (s : State), stnCfg s (n / 32) (n % 32) = none → partFoCabRediscover n s = (s, .badParam, [])) ∧
  (∀ (c : Cmd) (n : Nat) (s : State), n < 16 → portDenied c n s = false →
     partSwReadCounters c n s = (modSw n (fun x => { x with ctr := .replicate 8 0 }) s, .ok, counterBytes (getSw s n).ctr)) ∧
  (∀ (c : Cmd) (n : Nat) (s : State), 16 ≤ n → partSwReadCounters c n s = (s, .badParam, [])) ∧
  (∀ (c : Cmd) (n : Nat) (s : State), n < 16 → portDenied c n s = true → partSwReadCounters c n s = (s, .denied, [])) ∧
  (∀ (n : Nat) (s : State), n < 14 → vget s.sw.ports.learn n false = true →
     partSwFdbFlush n s = (onSw (fun x => { x with fdb := x.fdb.filter (fun e => e.static || e.mask != 1#16 <<< n) }) s, .ok, [])) ∧
  (∀ (n : Nat) (s : State), 14 ≤ n ∨ vget s.sw.ports.learn n false = false → partSwFdbFlush n s = (s, .badParam, [])) ∧
  (∀ (n : Nat) (s : State), n < 48 →
     partFbReadCounters n s = (modEng n (fun g => { g with taskCycles := 0, faults := 0, guardCorrected := 0, busyCycles := 0 }) s, .ok, bytesLE 8 (getEng s n).taskCycles.toNat ++ bytesLE 8 (getEng s n).faults.toNat ++ bytesLE 8 (getEng s n).guardCorrected.toNat ++ bytesLE 8 (getEng s n).busyCycles.toNat)) ∧
  (∀ (n : Nat) (s : State), 48 ≤ n → partFbReadCounters n s = (s, .badParam, [])) ∧
  (∀ (c : Cmd) (base n : Nat) (s : State), base + n < 1024 → outsideShare c .lane (base + n) s = false →
     (getLane s (base + n)).state ≠ .disabled → partFrLaneRestart c base n s = (restartLane (base + n) s.now s, .ok, [])) ∧
  (∀ (c : Cmd) (base n : Nat) (s : State), 1024 ≤ base + n → partFrLaneRestart c base n s = (s, .badParam, [])) ∧
  (∀ (c : Cmd) (base n : Nat) (s : State), base + n < 1024 → outsideShare c .lane (base + n) s = true →
     partFrLaneRestart c base n s = (s, .denied, [])) ∧
  (∀ (c : Cmd) (base n : Nat) (s : State), base + n < 1024 → outsideShare c .lane (base + n) s = false →
     (getLane s (base + n)).state = .disabled → partFrLaneRestart c base n s = (s, .notReady, [])) ∧
  (∀ (c : Cmd) (base n : Nat) (s : State), base + n < 1024 → outsideShare c .chan (base + n) s = false →
     partPeReadResults c base n s = (s, .ok, resBytes (getChan s (base + n)).res)) ∧
  (∀ (c : Cmd) (base n : Nat) (s : State), 1024 ≤ base + n → partPeReadResults c base n s = (s, .badParam, [])) ∧
  (∀ (c : Cmd) (base n : Nat) (s : State), base + n < 1024 → outsideShare c .chan (base + n) s = true →
     partPeReadResults c base n s = (s, .denied, [])) ∧
  (∀ (c : Cmd) (base n : Nat) (on : Bool) (s : State), base + n < 64 → outsideShare c .stream (base + n) s = false →
     (getStr s (base + n)).used = true → streamTx c base on n s = (modStr (base + n) (fun x => { x with txNext := some (on, s.now) }) s, .ok, [])) ∧
  (∀ (c : Cmd) (base n : Nat) (on : Bool) (s : State), 64 ≤ base + n → streamTx c base on n s = (s, .badParam, [])) ∧
  (∀ (c : Cmd) (base n : Nat) (on : Bool) (s : State), base + n < 64 → outsideShare c .stream (base + n) s = true →
     streamTx c base on n s = (s, .denied, [])) ∧
  (∀ (c : Cmd) (base n : Nat) (on : Bool) (s : State), base + n < 64 → outsideShare c .stream (base + n) s = false →
     (getStr s (base + n)).used = false → streamTx c base on n s = (s, .notReady, [])) ∧
  (∀ (c : Cmd) (base n : Nat) (s : State), base + n < 64 → outsideShare c .stream (base + n) s = false →
     partPeReadCounters c base n s = (modStr (base + n) (fun x => { x with sent := 0, gated := 0, lateFrames := 0, cmds := 0 }) s, .ok, [(getStr s (base + n)).sent, (getStr s (base + n)).gated, (getStr s (base + n)).lateFrames, (getStr s (base + n)).cmds].flatMap (fun v => bytesLE 8 v.toNat))) ∧
  (∀ (c : Cmd) (base n : Nat) (s : State), 64 ≤ base + n → partPeReadCounters c base n s = (s, .badParam, [])) ∧
  (∀ (c : Cmd) (base n : Nat) (s : State), base + n < 64 → outsideShare c .stream (base + n) s = true →
     partPeReadCounters c base n s = (s, .denied, [])) ∧
  (∀ (n : Nat) (s : State), n < 14 → (getPx s n).cfg.phy ≠ .disabled → partPxPortRestart n s = (retrain n s, .ok, [])) ∧
  (∀ (n : Nat) (s : State), 14 ≤ n ∨ (getPx s n).cfg.phy = .disabled → partPxPortRestart n s = (s, .badParam, [])) ∧
  (∀ (c : Cmd) (n : Nat) (s : State), n < 14 → portDenied c n s = false →
     partPxReadCounters c n s = (modPx n (fun x => { x with ctr := .replicate 48 0 }) (pauseAccount n s), .ok, counterBytes (pxCtrs (pauseAccount n s) n))) ∧
  (∀ (c : Cmd) (n : Nat) (s : State), 14 ≤ n → partPxReadCounters c n s = (s, .badParam, [])) ∧
  (∀ (c : Cmd) (n : Nat) (s : State), n < 14 → portDenied c n s = true → partPxReadCounters c n s = (s, .denied, [])) ∧
  (∀ (c : Cmd) (base n : Nat) (s : State), base + n ≤ 0xFF → queueDenied c (base + n) s = false →
     partQmReadCounters c base n s = (modQ (base + n) (fun x => { x with ctr := .replicate 4 0 }) s, .ok, counterBytes (getQ s (base + n)).ctr)) ∧
  (∀ (c : Cmd) (base n : Nat) (s : State), 0xFF < base + n → partQmReadCounters c base n s = (s, .badParam, [])) ∧
  (∀ (c : Cmd) (base n : Nat) (s : State), base + n ≤ 0xFF → queueDenied c (base + n) s = true →
     partQmReadCounters c base n s = (s, .denied, [])) ∧
  (∀ (base n : Nat) (s : State), qReserved (base + n) = false → partQmQueueFlush base n s = (flushQ (base + n) s, .ok, [])) ∧
  (∀ (base n : Nat) (s : State), qReserved (base + n) = true → partQmQueueFlush base n s = (s, .badParam, [])) ∧
  (∀ (c : Cmd) (n : Nat) (s : State), n < 8 → outsideShare c .rec_ n s = false → (getRec s n).state ≠ .disabled →
     partArTrigger c n s = (modRec n (recNote 0x06000000 s.now true true) s, .ok, [])) ∧
  (∀ (c : Cmd) (n : Nat) (s : State), n < 8 → outsideShare c .rec_ n s = false → (getRec s n).state = .disabled →
     partArTrigger c n s = (s, .notReady, [])) ∧
  (∀ (c : Cmd) (n : Nat) (s : State), 8 ≤ n → partArTrigger c n s = (s, .badParam, [])) ∧
  (∀ (c : Cmd) (n : Nat) (s : State), n < 8 → outsideShare c .rec_ n s = true → partArTrigger c n s = (s, .denied, [])) ∧
  (∀ (c : Cmd) (n : Nat) (s : State), n < 8 → outsideShare c .rec_ n s = false → (getRec s n).state = .stopped →
     partArRecorderArm c n s = (armRecorder n s, .ok, [])) ∧
  (∀ (c : Cmd) (n : Nat) (s : State), n < 8 → outsideShare c .rec_ n s = false → (getRec s n).state ≠ .disabled →
     (getRec s n).state ≠ .stopped → partArRecorderArm c n s = (s, .ok, [])) ∧
  (∀ (c : Cmd) (n : Nat) (s : State), n < 8 → outsideShare c .rec_ n s = false → (getRec s n).state = .disabled →
     partArRecorderArm c n s = (s, .notReady, [])) ∧
  (∀ (c : Cmd) (n : Nat) (s : State), 8 ≤ n → partArRecorderArm c n s = (s, .badParam, [])) ∧
  (∀ (c : Cmd) (n : Nat) (s : State), n < 8 → outsideShare c .rec_ n s = true → partArRecorderArm c n s = (s, .denied, [])) ∧
  (∀ (c : Cmd) (n : Nat) (s : State), n < 8 → outsideShare c .rec_ n s = false → (getRec s n).state ≠ .disabled →
     partArRecorderStop c n s = (stopRecorder n true s, .ok, [])) ∧
  (∀ (c : Cmd) (n : Nat) (s : State), n < 8 → outsideShare c .rec_ n s = false → (getRec s n).state = .disabled →
     partArRecorderStop c n s = (s, .notReady, [])) ∧
  (∀ (c : Cmd) (n : Nat) (s : State), 8 ≤ n → partArRecorderStop c n s = (s, .badParam, [])) ∧
  (∀ (c : Cmd) (n : Nat) (s : State), n < 8 → outsideShare c .rec_ n s = true → partArRecorderStop c n s = (s, .denied, [])) ∧
  (∀ (c : Cmd) (n : Nat) (s : State), n < 8 → outsideShare c .rec_ n s = false →
     partArReadCounters c n s = (modRec n (fun y => { y with ctr := .replicate 6 0 }) s, .ok, counterBytes (getRec s n).ctr)) ∧
  (∀ (c : Cmd) (n : Nat) (s : State), 8 ≤ n → partArReadCounters c n s = (s, .badParam, [])) ∧
  (∀ (c : Cmd) (n : Nat) (s : State), n < 8 → outsideShare c .rec_ n s = true → partArReadCounters c n s = (s, .denied, [])) ∧
  (∀ (c : Cmd) (base n : Nat) (s : State), base + n < 512 → outsideShare c .svSub (base + n) s = false →
     partSeReadCounters c base n s = (modSv (base + n) (fun x => { x with ctr := .replicate 6 0 }) s, .ok, counterBytes (getSv s (base + n)).ctr)) ∧
  (∀ (c : Cmd) (base n : Nat) (s : State), 512 ≤ base + n → partSeReadCounters c base n s = (s, .badParam, [])) ∧
  (∀ (c : Cmd) (base n : Nat) (s : State), base + n < 512 → outsideShare c .svSub (base + n) s = true →
     partSeReadCounters c base n s = (s, .denied, [])) ∧
  (∀ (base n : Nat) (s : State), base + n < 512 → (getSv s (base + n)).state ≠ .idle →
     partSeStreamRelock base n s = (judgeReady (svCfgOf s false (base + n)).group.val (setSvState false (base + n) .acquire (modSv (base + n) (fun x => { x with good := 0 }) s)), .ok, [])) ∧
  (∀ (base n : Nat) (s : State), 512 ≤ base + n → partSeStreamRelock base n s = (s, .badParam, [])) ∧
  (∀ (base n : Nat) (s : State), base + n < 512 → (getSv s (base + n)).state = .idle → partSeStreamRelock base n s = (s, .notReady, []))

/-- A multi-part command with an empty mask is refused with BAD_PARAM; one whose named parts all succeed answers OK; one whose parts all fail
is answered with the status of the first and leaves the state; otherwise it answers PARTIAL with the mask of the parts done in RESULT0,
the mask asked for in RESULT1 and the status code of the first failing part in DETAIL. -/
def Obligations.MultiPartReply : Prop :=
  (∀ (part : Nat → State → State × Status × List Byte) (s : State), multipart 0 part s = (s, st .badParam)) ∧
  (∀ (part : Nat → State → State × Status × List Byte) (mask : BitVec 64) (s : State), mask ≠ 0 → (∀ n t, (part n t).2.1 = .ok) →
     (multipart mask part s).1 = (maskParts mask).foldl (fun t n => (part n t).1) s ∧ (multipart mask part s).2.status = .ok ∧ (multipart mask part s).2.r0 = 0 ∧ (multipart mask part s).2.detail = 0) ∧
  (∀ (part : Nat → State → State × Status × List Byte) (e : Nat → Status) (mask : BitVec 64) (n : Nat) (l : List Nat) (s : State),
     maskParts mask = n :: l → (∀ k t, (part k t).1 = t ∧ (part k t).2.1 = e k) → (∀ k, e k ≠ .ok) →
     (multipart mask part s).1 = s ∧ (multipart mask part s).2.status = e n) ∧
  (∀ (part : Nat → State → State × Status × List Byte) (e : Nat → Status) (mask : BitVec 64) (n : Nat) (s : State),
     (∀ k t, (part k t).2.1 = e k) → (maskParts mask).find? (fun k => e k != .ok) = some n → (maskParts mask).any (fun k => e k == .ok) = true →
     (multipart mask part s).2.status = .partialDone ∧ (multipart mask part s).2.r0 = partsMask ((maskParts mask).filter (fun k => e k == .ok)) ∧ (multipart mask part s).2.r1 = mask ∧ (multipart mask part s).2.detail = statusCode (e n))

/-- While FR is ready a lane acts on what the guard code finds, then releases its due output to its consumers: the next output under the
settings before the last commit where one is left, else the next one; without a due output nothing more happens. A tracking group's cycle
that has ended is followed by the next at the frequency in force; a group without a valid estimate for two cycles enters HOLD, and after
its hold timeout NOMINAL; the lanes that waited for a reloaded table restart unless another table of theirs is still missing. Where none
of this is due, nothing happens. While PE is ready a channel takes what the guard code finds in its state, then its next estimate is
released to its record, points and tracking groups; with none due, nothing more happens. At the deadline of a stream that sends, the
estimates its next frame waits for are completed and it counts a late frame. The next frame of a used stream whose estimates are all
released is handed over while transmission is on and no handover holds it, else passed over; before that nothing happens. A change of
configuration is forgotten after 60 s, not earlier. A command of a used stream's client is counted; where the gate is open DATA OFF and ON
act from the next reporting instant, HEADER, CFG-1 and CFG-2 are answered, the others are ignored; a stream that is not used ignores them
all. Definitions in it hold choices of the model: log 37, 39, 158. -/
def Obligations.FiltersAndPhasorsRun : Prop :=
  (∀ (s : State) (l : Fin 1024) (f : LaneFinding), s.fr.ready = false → exec (.laneOutputRelease l f) s = .next s) ∧
  (∀ (s u : State) (l : Fin 1024) (f : LaneFinding), s.fr.ready = true → u = laneFinding l.val f s → (drainNext u l.val).isSome = true →
     ∃ t o x, drainNext u l.val = some (t, o, x) ∧ exec (.laneOutputRelease l f) s = .next (consumeSample l.val x.cfg (x.ptCount + 1) o (modLane l.val (fun y => { y with outputs := y.outputs + 1, sat := y.sat || o.sat, gridStep := y.gridStep || o.gridStep }) (onFr (fun f => { f with drain := f.drain.map (fun e => if e.1 = l.val then (l.val, t, { x with ptCount := pointCount x.cfg x.ptCount }) else e) }) u)))) ∧
  (∀ (s u : State) (l : Fin 1024) (f : LaneFinding), s.fr.ready = true → u = laneFinding l.val f s → drainNext u l.val = none →
     (laneNext u (getLane u l.val)).isSome = true →
     ∃ o x, laneNext u (getLane u l.val) = some (o, x) ∧ exec (.laneOutputRelease l f) s = .next (consumeSample l.val x.cfg (x.ptCount + 1) o (onFr (fun f => { f with lane := f.lane.put l.val { x with ptCount := pointCount x.cfg x.ptCount } }) u))) ∧
  (∀ (s u : State) (l : Fin 1024) (f : LaneFinding), s.fr.ready = true → u = laneFinding l.val f s → drainNext u l.val = none →
     laneNext u (getLane u l.val) = none → exec (.laneOutputRelease l f) s = .next u) ∧
  (∀ (s : State) (g : Fin 64) (c : TrkCycle), s.fr.ready = true → (getTrk s g.val).state ≠ .disabled → (getTrk s g.val).cyc = some c →
     0 ≤ diff96 (lt96 s.now) (c.tc + BitVec.ofNat 96 c.len) →
     exec (.gridCycleStart g) s = .next (startTrkCycle g.val { no := c.no + 1, tc := (c.tc + BitVec.ofNat 96 c.len), len := cycleLen (freqAt (getTrk s g.val) ((c.tc + BitVec.ofNat 96 c.len).extractLsb' 32 64)) } (freqAt (getTrk s g.val) ((c.tc + BitVec.ofNat 96 c.len).extractLsb' 32 64)) s)) ∧
  (∀ (s : State) (g : Fin 64),
     (s.fr.ready = false ∨ (getTrk s g.val).state = .disabled ∨ ∀ c, (getTrk s g.val).cyc = some c → diff96 (lt96 s.now) (c.tc + BitVec.ofNat 96 c.len) < 0) →
     exec (.gridCycleStart g) s = .next s) ∧
  (∀ (s : State) (g : Fin 64) (f : Nat) (t : LT), (getTrk s g.val).state = .tracking → (getTrk s g.val).est = some (f, t) →
     (2 * cycleNow (getTrk s g.val) : Nat) ≤ ltDiff s.now t * 4294967296 → exec (.trackingHold g) s = .next (setTrk g.val .hold s)) ∧
  (∀ (s : State) (g : Fin 64),
     ((getTrk s g.val).state ≠ .tracking ∨ ∀ f t, (getTrk s g.val).est = some (f, t) → ltDiff s.now t * 4294967296 < (2 * cycleNow (getTrk s g.val) : Nat)) →
     exec (.trackingHold g) s = .next s) ∧
  (∀ (s : State) (g : Nat), (getTrk s g).state = .tracking →
     (getTrk (setTrk g .hold s) g).state = .hold ∧ (getTrk (setTrk g .hold s) g).holdSeen = true ∧ (getTrk (setTrk g .hold s) g).holdSince = s.now ∧ (setTrk g .hold s).fr.trkChg = true) ∧
  (∀ (s : State) (g : Fin 64), (getTrk s g.val).state = .hold →
     (msTu (getTrk s g.val).cfg.holdMs : Int) ≤ ltDiff s.now (getTrk s g.val).holdSince →
     exec (.trackingNominal g) s = .next (setTrk g.val .nominal s)) ∧
  (∀ (s : State) (g : Fin 64),
     (getTrk s g.val).state ≠ .hold ∨ ltDiff s.now (getTrk s g.val).holdSince < (msTu (getTrk s g.val).cfg.holdMs : Int) →
     exec (.trackingNominal g) s = .next s) ∧
  (∀ (s : State) (g : Nat), (getTrk s g).state = .hold →
     (getTrk (setTrk g .nominal s) g).state = .nominal ∧ (getTrk (setTrk g .nominal s) g).nominalSeen = true ∧ (setTrk g .nominal s).fr.trkChg = true) ∧
  (∀ (s : State) (p : Bool) (n : Fin 256) (s' : State), s.fr.reload.contains (p, n.val) = true →
     s' = onFr (fun f => { f with reload := f.reload.filter (· != (p, n.val)) }) s →
     exec (.coefReloadDone p n) s = .next (restartLanes (fun _ x => x.waitCoef && !tablesMissing s' x) s'.now s')) ∧
  (∀ (s : State) (p : Bool) (n : Fin 256), s.fr.reload.contains (p, n.val) = false → exec (.coefReloadDone p n) s = .next s) ∧
  (∀ (s u : State) (c : Fin 1024) (g : Option GuardFind) (tr : LT) (e : PeEst) (r : Bool) (t : State), s.pe.ready = true →
     (((g = none ∧ u = s) ∨ (g = some .corrected ∧ u = guardCorrected 0x6 s) ∨ ∃ h, g = some (.uncorrectable h) ∧ u = chanGuard c.val h s)) →
     nextEst u c.val (chanTurn u c.val).2 = some (tr, e, r, t) →
     exec (.estimateRelease c g) s = .next (releaseEst c.val ((chanTurn u c.val).2.ptCount + 1) (chanTurn u c.val).1.isSome (chanTurn u c.val).2.cfg e r (putTurn c.val (chanTurn u c.val).1 (chanAfter (chanTurn u c.val).2 tr) t))) ∧
  (∀ (s u : State) (c : Fin 1024) (g : Option GuardFind), s.pe.ready = true →
     (((g = none ∧ u = s) ∨ (g = some .corrected ∧ u = guardCorrected 0x6 s) ∨ ∃ h, g = some (.uncorrectable h) ∧ u = chanGuard c.val h s)) →
     nextEst u c.val (chanTurn u c.val).2 = none → exec (.estimateRelease c g) s = .next u) ∧
  (∀ (s : State) (c : Fin 1024) (g : Option GuardFind), s.pe.ready = false → exec (.estimateRelease c g) s = .next s) ∧
  (∀ (s : State) (k : Fin 64) (b : Option LT) (x : PeStream) (tr : LT), strTurn s k.val = some (b, x, tr) → s.pe.ready = true → x.used = true →
     (txState x tr).on = true → ((strChans s x.cfg tr).filter (fun c => (estAt s c tr).isNone)) ≠ [] →
     ltReached s.now (ltAdd tr (lmaxOf s x.cfg tr)) = true →
     exec (.streamDeadline k) s = .next (modStr k.val (fun x => { x with late := true, lateFrames := x.lateFrames + 1 }) (modTurn k.val b (fun x => { x with frameLate := true }) (((strChans s x.cfg tr).filter (fun c => (estAt s c tr).isNone)).foldl (fun s c => completeChan c tr 512 s) s)))) ∧
  (∀ (s : State) (k : Fin 64),
     (∀ b x tr, strTurn s k.val = some (b, x, tr) → ¬(s.pe.ready = true ∧ x.used = true ∧ (txState x tr).on = true ∧ ((strChans s x.cfg tr).filter (fun c => (estAt s c tr).isNone)) ≠ [] ∧ ltReached s.now (ltAdd tr (lmaxOf s x.cfg tr)) = true)) →
     exec (.streamDeadline k) s = .next s) ∧
  (∀ (s : State) (k : Fin 64) (b : Option LT) (x : PeStream) (tr : LT), strTurn s k.val = some (b, x, tr) → s.pe.ready = true → x.used = true →
     (strChans s x.cfg tr).any (fun c => (estAt s c tr).isNone) = false → (txState x tr).on = true →
     handoverHolds (modTurn k.val b (fun x => strAfter x tr) s) tr = false →
     exec (.dataFrameHandover k) s = .next (handFrame k.val (txState x tr) tr (modTurn k.val b (fun x => strAfter x tr) s))) ∧
  (∀ (s : State) (k : Fin 64) (b : Option LT) (x : PeStream) (tr : LT), strTurn s k.val = some (b, x, tr) → s.pe.ready = true → x.used = true →
     (strChans s x.cfg tr).any (fun c => (estAt s c tr).isNone) = false →
     (txState x tr).on = false ∨ handoverHolds (modTurn k.val b (fun x => strAfter x tr) s) tr = true →
     exec (.dataFrameHandover k) s = .next (modTurn k.val b (fun x => strAfter x tr) s)) ∧
  (∀ (s : State) (k : Fin 64),
     (∀ b x tr, strTurn s k.val = some (b, x, tr) → ¬(s.pe.ready = true ∧ x.used = true ∧ (strChans s x.cfg tr).any (fun c => (estAt s c tr).isNone) = false)) →
     exec (.dataFrameHandover k) s = .next s) ∧
  (∀ (s : State) (k : Fin 64), (getStr s k.val).cfgChg = true → (secTu 60 : Int) ≤ ltDiff s.now (getStr s k.val).cfgChgAt →
     exec (.cfgChangeTimeout k) s = .next (modStr k.val (fun x => { x with cfgChg := false }) s)) ∧
  (∀ (s : State) (k : Fin 64), (getStr s k.val).cfgChg = false ∨ ltDiff s.now (getStr s k.val).cfgChgAt < (secTu 60 : Int) →
     exec (.cfgChangeTimeout k) s = .next s) ∧
  (∀ (s : State) (k : Fin 64) (x : PeStream), s.pe.str.get? k.val = some x → x.used = true → s.fo.gateOpen = true →
     (∃ t, exec (.c37CmdDataOff k) s = .next t ∧ t.pe.str.get? k.val = some { x with cmds := x.cmds + 1, txNext := some (false, s.now) }) ∧ ∃ t, exec (.c37CmdDataOn k) s = .next t ∧ t.pe.str.get? k.val = some { x with cmds := x.cmds + 1, txNext := some (true, s.now) }) ∧
  (∀ (s u : State) (k : Fin 64) (r : C37Sender), (getStr s k.val).used = true → s.fo.gateOpen = true →
     u = (modStr k.val (fun x => { x with cmds := x.cmds + 1 }) s) →
     exec (.c37CmdHeader k r) s = .next (c37Reply (getStr u k.val) r (c37Frame 0xAA12 (bytesBE 2 (getStr u k.val).cfg.idcode.toNat ++ socBytes u (getStr u k.val).cfg.timeBase u.now ++ (getStr u k.val).cfg.header)) u)) ∧
  (∀ (s u : State) (k : Fin 64) (r : C37Sender), (getStr s k.val).used = true → s.fo.gateOpen = true →
     u = (modStr k.val (fun x => { x with cmds := x.cmds + 1 }) s) →
     exec (.c37CmdCfg1 k r) s = .next (c37Reply (getStr u k.val) r (cfgFrame u 0xAA22 (getStr u k.val)) u)) ∧
  (∀ (s u : State) (k : Fin 64) (r : C37Sender), (getStr s k.val).used = true → s.fo.gateOpen = true →
     u = (modStr k.val (fun x => { x with cmds := x.cmds + 1 }) s) →
     exec (.c37CmdCfg2 k r) s = .next (modStr k.val (fun x => { x with cfgChg := false }) (c37Reply (getStr u k.val) r (cfgFrame u 0xAA32 (getStr u k.val)) u))) ∧
  (∀ (s : State) (k : Fin 64), (getStr s k.val).used = true →
     exec (.c37CmdUnsupported k) s = .next (modStr k.val (fun x => { x with cmds := x.cmds + 1 }) s) ∧ exec (.c37CmdExtended k) s = .next (modStr k.val (fun x => { x with cmds := x.cmds + 1 }) s)) ∧
  (∀ (s : State) (k : Fin 64) (r : C37Sender), (getStr s k.val).used = true → s.fo.gateOpen = false →
     exec (.c37CmdDataOff k) s = .next (modStr k.val (fun x => { x with cmds := x.cmds + 1 }) s) ∧ exec (.c37CmdDataOn k) s = .next (modStr k.val (fun x => { x with cmds := x.cmds + 1 }) s) ∧ exec (.c37CmdHeader k r) s = .next (modStr k.val (fun x => { x with cmds := x.cmds + 1 }) s) ∧ exec (.c37CmdCfg1 k r) s = .next (modStr k.val (fun x => { x with cmds := x.cmds + 1 }) s) ∧ exec (.c37CmdCfg2 k r) s = .next (modStr k.val (fun x => { x with cmds := x.cmds + 1 }) s)) ∧
  (∀ (s : State) (k : Fin 64) (r : C37Sender), (getStr s k.val).used = false →
     exec (.c37CmdDataOff k) s = .next s ∧ exec (.c37CmdDataOn k) s = .next s ∧ exec (.c37CmdHeader k r) s = .next s ∧ exec (.c37CmdCfg1 k r) s = .next s ∧ exec (.c37CmdCfg2 k r) s = .next s ∧ exec (.c37CmdUnsupported k) s = .next s ∧ exec (.c37CmdExtended k) s = .next s)

/-- On an enabled link that is not retraining, a frame brings a link that is down to aligning. A good frame is matched to its convert edge,
joins the run and is delivered in its turn; one with a wrong CRC stands for the edge after the last and counts as a failed frame, on a
locked link also as a CRC error; a SEQ that matches no edge sets SEQ_ERR, and a locked link aligns again. An edge whose frame has not come
by LAT_MAX is delivered with the last good values as INVALID and OLD_DATA on a locked link, as INVALID and FAILURE on another. On a link
that is disabled or retraining a frame does nothing, and before LAT_MAX neither does the deadline. Retraining ends. An edge of a pulse of
at least 1 ns takes its instant from the TDC, enters the FIFO unless it comes less than 5 ns after the last recorded one, and the
recorders, and its level goes to the input's point. Calibration ends UNCAL. EDGE_POP answers the oldest entry and removes it, and 0 of an
empty FIFO. A recorder in use evaluates its due ticks, under older settings first where a recording still follows them, writes its due row
and completes its oldest closed record with the record event; where none is due nothing happens. AR_RECORD_LIST, READ and RELEASE answer
over the records whose header is written: DENIED outside the owner's, STALE for a record that is not held, BAD_PARAM for a range outside
it. Definitions in it hold choices of the model: log 40, 43, 46, 47, 48, 112, 119, 138. -/
def Obligations.LinksEdgesAndRecorders : Prop :=
  (∀ (s v : State) (k : Fin 8) (f : WslFrame) (e : Nat), s.ar.ready = true → (getWsl s k.val).cfg.en = true →
     (getWsl s k.val).retraining = false → v = (if (getWsl s k.val).state = .down then setWsl k.val .aligning s else s) → wslCrcOk f = true →
     matchSeq v (getWsl s k.val) (wslSeq f) = some e →
     exec (.wslFrameReceive k f) s = .next (flushWsl k.val 256 (if e < (getWsl s k.val).nextEdge then (modWsl k.val (fun x => { x with lastEdge := some e }) (noteFrame k.val false ((getWsl s k.val).lastEdge.map (· + 1) == some e) v)) else modWsl k.val (fun x => { x with got := x.got ++ [(e, some (wslChans f))] }) (modWsl k.val (fun x => { x with lastEdge := some e }) (noteFrame k.val false ((getWsl s k.val).lastEdge.map (· + 1) == some e) v))))) ∧
  (∀ (s v : State) (k : Fin 8) (f : WslFrame), s.ar.ready = true → (getWsl s k.val).cfg.en = true → (getWsl s k.val).retraining = false →
     v = (if (getWsl s k.val).state = .down then setWsl k.val .aligning s else s) → wslCrcOk f = true →
     matchSeq v (getWsl s k.val) (wslSeq f) = none →
     exec (.wslFrameReceive k f) s = .next (if (getWsl s k.val).state = .locked then setWsl k.val .aligning (modWsl k.val (fun x => { x with seqErr := true, goodRun := 0 }) v) else modWsl k.val (fun x => { x with seqErr := true, goodRun := 0 }) v)) ∧
  (∀ (s v : State) (k : Fin 8) (f : WslFrame) (w : State), s.ar.ready = true → (getWsl s k.val).cfg.en = true →
     (getWsl s k.val).retraining = false → v = (if (getWsl s k.val).state = .down then setWsl k.val .aligning s else s) → wslCrcOk f = false →
     w = modWsl k.val (fun x => { x with lastEdge := some (((getWsl s k.val).lastEdge.map (· + 1)).getD (getWsl s k.val).nextEdge) }) (if (getWsl s k.val).state = .locked then modWsl k.val (fun x => { x with crcErr := x.crcErr + 1 }) v else v) →
     exec (.wslFrameReceive k f) s = .next (flushWsl k.val 256 (noteFrame k.val true false (if (((getWsl s k.val).lastEdge.map (· + 1)).getD (getWsl s k.val).nextEdge) < (getWsl s k.val).nextEdge then w else modWsl k.val (fun x => { x with got := x.got ++ [((((getWsl s k.val).lastEdge.map (· + 1)).getD (getWsl s k.val).nextEdge), none)] }) w)))) ∧
  (∀ (s : State) (k : Fin 8) (f : WslFrame), s.ar.ready = false ∨ (getWsl s k.val).cfg.en = false ∨ (getWsl s k.val).retraining = true →
     exec (.wslFrameReceive k f) s = .next s) ∧
  (∀ (s : State) (k : Fin 8), s.ar.ready = true → (getWsl s k.val).cfg.en = true → (getWsl s k.val).bases.isEmpty = false →
     (((getWsl s k.val).cfg.latMax * cnvPeriod (getWsl s k.val).cfg : Nat) : Int) ≤ ltDiff s.now (edgeLt (getWsl s k.val) (getWsl s k.val).nextEdge) →
     (getWsl s k.val).state = .locked →
     exec (.wslFrameDeadline k) s = .next (flushWsl k.val 256 (noteFrame k.val true false (deliverBad k.val (getWsl s k.val).nextEdge (qInvalid ||| qOldData) (modWsl k.val (fun x => { x with missing := x.missing + 1 }) s))))) ∧
  (∀ (s : State) (k : Fin 8), s.ar.ready = true → (getWsl s k.val).cfg.en = true → (getWsl s k.val).bases.isEmpty = false →
     (((getWsl s k.val).cfg.latMax * cnvPeriod (getWsl s k.val).cfg : Nat) : Int) ≤ ltDiff s.now (edgeLt (getWsl s k.val) (getWsl s k.val).nextEdge) →
     (getWsl s k.val).state ≠ .locked →
     exec (.wslFrameDeadline k) s = .next (flushWsl k.val 256 (deliverBad k.val (getWsl s k.val).nextEdge (qInvalid ||| qFailure) s))) ∧
  (∀ (s : State) (k : Fin 8),
     s.ar.ready = false ∨ (getWsl s k.val).cfg.en = false ∨ (getWsl s k.val).bases.isEmpty = true ∨ ¬((((getWsl s k.val).cfg.latMax * cnvPeriod (getWsl s k.val).cfg : Nat) : Int) ≤ ltDiff s.now (edgeLt (getWsl s k.val) (getWsl s k.val).nextEdge)) →
     exec (.wslFrameDeadline k) s = .next s) ∧
  (∀ (s : State) (k : Fin 8), ∃ t, exec (.wslRetrainDone k) s = .next t ∧ t.ar.wsl[k] = { s.ar.wsl[k] with retraining := false }) ∧
  (∀ (s u : State) (e : Fin 24) (r : Bool) (b : Fin 128) (n : Nat) (i : Nat), s.ar.ready = true → nsTu 1 ≤ n →
     u = noteBinary (BitVec.ofNat 32 (0x01000000 + e.val)) (tdcInstant s e.val b.val) r false (if edgeClose s e.val (tdcInstant s e.val b.val) then modEdge e.val (fun u => { u with level := r }) s else edgeFifo e.val r (tdcInstant s e.val b.val) (modEdge e.val (fun u => { u with level := r }) s)) →
     (vget u.ar.edge e.val {}).cfg.point = some i →
     exec (.fastEdgeArrival e r b n) s = .next (sendBatch .ar [{ index := i, value := BitVec.ofNat 64 (bitN r), lt := tdcInstant s e.val b.val, writer := .edge e.val }] u)) ∧
  (∀ (s u : State) (e : Fin 24) (r : Bool) (b : Fin 128) (n : Nat), s.ar.ready = true → nsTu 1 ≤ n →
     u = noteBinary (BitVec.ofNat 32 (0x01000000 + e.val)) (tdcInstant s e.val b.val) r false (if edgeClose s e.val (tdcInstant s e.val b.val) then modEdge e.val (fun u => { u with level := r }) s else edgeFifo e.val r (tdcInstant s e.val b.val) (modEdge e.val (fun u => { u with level := r }) s)) →
     (vget u.ar.edge e.val {}).cfg.point = none → exec (.fastEdgeArrival e r b n) s = .next u) ∧
  (∀ (s : State) (e : Fin 24) (r : Bool) (b : Fin 128) (n : Nat), s.ar.ready = false ∨ n < nsTu 1 → exec (.fastEdgeArrival e r b n) s = .next s) ∧
  (∀ (s : State) (e : Fin 24) (l : Vector Nat 128), pdOn s 6 = true →
     exec (.tdcCalibrationDone e l) s = .next (readiness (modEdge e.val (fun u => { u with uncal := false, bins := l.toList, calAt := some s.abs }) s))) ∧
  (∀ (s : State) (e : Fin 24) (l : Vector Nat 128), pdOn s 6 = false → exec (.tdcCalibrationDone e l) s = .next s) ∧
  (∀ (s : State) (q : Nat) (e : Fin 24) (w : Bool) (t : BitVec 64) (l : List (BitVec 64)), s.glob.ready = true →
     (vget s.ar.edge e.val {}).fifo = t :: l →
     exec (.edgePop q e w) s = .next (readRs q (0x830000 + 0x20 * e.val) t w (modEdge e.val (fun u => { u with fifo := l }) s))) ∧
  (∀ (s : State) (q : Nat) (e : Fin 24) (w : Bool), s.glob.ready = true → (vget s.ar.edge e.val {}).fifo = [] →
     exec (.edgePop q e w) s = .next (readRs q (0x830000 + 0x20 * e.val) 0 w s)) ∧
  (∀ (s : State) (q : Nat) (e : Fin 24) (w : Bool), s.glob.ready = false →
     exec (.edgePop q e w) s = .next (if s.kv.halted then answerRead q 0 s else s)) ∧
  (∀ (s u : State) (r : Fin 8) (x : RecRun), s.ar.ready = true → (getRec s r.val).state ≠ .disabled ∧ (getRec s r.val).state ≠ .stopped →
     u = (match (getRec s r.val).old with | some (t, x) => if tickDue s x then dropOld r.val (modRec r.val (fun y => { y with old := some (t, (evalTick r.val (decide (ltDiff x.nextTick t < 0)) x s).1) }) (evalTick r.val (decide (ltDiff x.nextTick t < 0)) x s).2) else s | none => s) →
     (getRec u r.val).run = some x → tickDue u x = true →
     exec (.patternTickEval r) s = .next (modRec r.val (fun y => { y with run := some (evalTick r.val true x u).1 }) (evalTick r.val true x u).2)) ∧
  (∀ (s u : State) (r : Fin 8), s.ar.ready = true → (getRec s r.val).state ≠ .disabled ∧ (getRec s r.val).state ≠ .stopped →
     u = (match (getRec s r.val).old with | some (t, x) => if tickDue s x then dropOld r.val (modRec r.val (fun y => { y with old := some (t, (evalTick r.val (decide (ltDiff x.nextTick t < 0)) x s).1) }) (evalTick r.val (decide (ltDiff x.nextTick t < 0)) x s).2) else s | none => s) →
     (∀ x, (getRec u r.val).run = some x → tickDue u x = false) → exec (.patternTickEval r) s = .next u) ∧
  (∀ (s : State) (r : Fin 8), s.ar.ready = false ∨ (getRec s r.val).state = .disabled ∨ (getRec s r.val).state = .stopped →
     exec (.patternTickEval r) s = .next s ∧ exec (.rowWrite r) s = .next s) ∧
  (∀ (s : State) (r : Fin 8) (x : RecRun), s.ar.ready = true → (getRec s r.val).state ≠ .disabled ∧ (getRec s r.val).state ≠ .stopped →
     (getRec s r.val).old = none → (getRec s r.val).run = some x → (writeRow r.val x s).isSome = true →
     ∃ y t, writeRow r.val x s = some (y, t) ∧ exec (.rowWrite r) s = .next (modRec r.val (fun z => { z with run := some y }) t)) ∧
  (∀ (s : State) (r : Fin 8) (t : LT) (x : RecRun), s.ar.ready = true →
     (getRec s r.val).state ≠ .disabled ∧ (getRec s r.val).state ≠ .stopped → (getRec s r.val).old = some (t, x) →
     (writeRow r.val x s).isSome = true →
     ∃ y u, writeRow r.val x s = some (y, u) ∧ exec (.rowWrite r) s = .next (dropOld r.val (modRec r.val (fun z => { z with old := some (t, y) }) u))) ∧
  (∀ (s : State) (r : Fin 8), s.ar.ready = true → (getRec s r.val).state ≠ .disabled ∧ (getRec s r.val).state ≠ .stopped →
     (((getRec s r.val).old = none ∧ ∀ x, (getRec s r.val).run = some x → writeRow r.val x s = none) ∨ ∃ t x, (getRec s r.val).old = some (t, x) ∧ writeRow r.val x s = none) →
     exec (.rowWrite r) s = .next s) ∧
  (∀ (s : State) (r : Fin 8) (x : Record), (getRec s r.val).held.find? (·.closed) = some x →
     exec (.recordComplete r) s = .next (raiseArg 0x43 (getRec s r.val).owner (BitVec.ofNat 32 r.val) (modRec r.val (fun y => { y with held := y.held.map (fun h => if h.no = x.no then { h with closed := false } else h) }) s))) ∧
  (∀ (s : State) (r : Fin 8), (getRec s r.val).held.find? (·.closed) = none → exec (.recordComplete r) s = .next s) ∧
  (∀ (s : State) (c : Cmd) (r : Fin 8), runs 0x0812 true c s = true → recDenied c r.val (entered 0x0812 c s) = false →
     exec (.arRecordList c r) s = answered 0x0812 c { buf := .bytes ((readable (getRec (entered 0x0812 c s) r.val)).flatMap recordEntry) } (entered 0x0812 c s)) ∧
  (∀ (s : State) (c : Cmd) (r : Fin 8), runs 0x0812 true c s = true → recDenied c r.val (entered 0x0812 c s) = true →
     exec (.arRecordList c r) s = answered 0x0812 c (st .denied) (entered 0x0812 c s)) ∧
  (∀ (s : State) (c : Cmd) (r : Fin 8) (n : BitVec 32) (o l : Nat) (x : Record) (g : List (Nat × GuardFind)), runs 0x0813 true c s = true →
     recDenied c r.val (entered 0x0813 c s) = false → (readable (getRec (entered 0x0813 c s) r.val)).find? (·.no == n) = some x →
     1 ≤ l ∧ o + l ≤ recordLen x →
     ∃ u, exec (.arRecordRead c r n o l g) s = answered 0x0813 c { buf := .bytes (((recordImage r.val (getRec u r.val).owner x ((guardReads 0x0 g (entered 0x0813 c s)).1.map (·.1))).drop o).take l) } u ∧ (g = [] → u = (entered 0x0813 c s))) ∧
  (∀ (s : State) (c : Cmd) (r : Fin 8) (n : BitVec 32) (o l : Nat) (g : List (Nat × GuardFind)) (e : Status), runs 0x0813 true c s = true →
     ((recDenied c r.val (entered 0x0813 c s) = true ∧ e = .denied) ∨ (recDenied c r.val (entered 0x0813 c s) = false ∧ (readable (getRec (entered 0x0813 c s) r.val)).find? (·.no == n) = none ∧ e = .stale) ∨ (recDenied c r.val (entered 0x0813 c s) = false ∧ e = .badParam ∧ ∃ x, (readable (getRec (entered 0x0813 c s) r.val)).find? (·.no == n) = some x ∧ (l = 0 ∨ recordLen x < o + l))) →
     exec (.arRecordRead c r n o l g) s = answered 0x0813 c (st e) (entered 0x0813 c s)) ∧
  (∀ (s : State) (c : Cmd) (r : Fin 8) (l : List (BitVec 32)), runs 0x0814 true c s = true → recDenied c r.val (entered 0x0814 c s) = false →
     exec (.arRecordRelease c r l) s = answered 0x0814 c (st (if l.all ((readable (getRec (entered 0x0814 c s) r.val)).map (·.no)).contains then .ok else .stale)) (resumeFull r.val (modRec r.val (fun y => { y with held := y.held.filter (fun h => h.closed || !l.contains h.no) }) (entered 0x0814 c s)))) ∧
  (∀ (s : State) (c : Cmd) (r : Fin 8) (l : List (BitVec 32)), runs 0x0814 true c s = true → recDenied c r.val (entered 0x0814 c s) = true →
     exec (.arRecordRelease c r l) s = answered 0x0814 c (st .denied) (entered 0x0814 c s))

/-- Where an engine stands at a whole word of an integer instruction and the window leaves it its cycles, the instruction writes its result to
D (nothing to V0), sets the FLAGS bits its exceptions name and goes on to the next word; no other register, no memory byte and no other
part of the device changes. -/
def Obligations.TahrIntegersWriteD : Prop :=
  (∀ (x : TahrOp) (s : State) (r : Region) (cyc : Cycle) (w : BitVec 64), atWord 0x01 (zC ||| zI) x s = some (r, cyc, w) →
     inTime x s cyc 1 = true → exec (.tahrAdd x) s = wroteD x s cyc w 1 ((opA x s w) + (opB x s w)) 0) ∧
  (∀ (x : TahrOp) (s : State) (r : Region) (cyc : Cycle) (w : BitVec 64), atWord 0x02 (zC ||| zI) x s = some (r, cyc, w) →
     inTime x s cyc 1 = true → exec (.tahrSub x) s = wroteD x s cyc w 1 ((opA x s w) - (opB x s w)) 0) ∧
  (∀ (x : TahrOp) (s : State) (r : Region) (cyc : Cycle) (w : BitVec 64), atWord 0x03 (zB ||| zC) x s = some (r, cyc, w) →
     inTime x s cyc 1 = true → exec (.tahrAddi x) s = wroteD x s cyc w 1 ((opA x s w) + (wSext w)) 0) ∧
  (∀ (x : TahrOp) (s : State) (r : Region) (cyc : Cycle) (w : BitVec 64), atWord 0x04 (zC ||| zI) x s = some (r, cyc, w) →
     inTime x s cyc 3 = true → exec (.tahrMul x) s = wroteD x s cyc w 3 ((opA x s w) * (opB x s w)) 0) ∧
  (∀ (x : TahrOp) (s : State) (r : Region) (cyc : Cycle) (w : BitVec 64), atWord 0x05 (zC ||| zI) x s = some (r, cyc, w) →
     inTime x s cyc 20 = true →
     exec (.tahrDiv x) s = wroteD x s cyc w 20 (if opB x s w = 0 then 0 else tahrQuot (opA x s w) (opB x s w)) (if opB x s w = 0 then 1 else 0)) ∧
  (∀ (x : TahrOp) (s : State) (r : Region) (cyc : Cycle) (w : BitVec 64), atWord 0x06 (zC ||| zI) x s = some (r, cyc, w) →
     inTime x s cyc 20 = true →
     exec (.tahrRem x) s = wroteD x s cyc w 20 (if opB x s w = 0 then (opA x s w) else (opA x s w) - (opB x s w) * tahrQuot (opA x s w) (opB x s w)) (if opB x s w = 0 then 1 else 0)) ∧
  (∀ (x : TahrOp) (s : State) (r : Region) (cyc : Cycle) (w : BitVec 64), atWord 0x07 (zC ||| zI) x s = some (r, cyc, w) →
     inTime x s cyc 1 = true → exec (.tahrAnd x) s = wroteD x s cyc w 1 ((opA x s w) &&& (opB x s w)) 0) ∧
  (∀ (x : TahrOp) (s : State) (r : Region) (cyc : Cycle) (w : BitVec 64), atWord 0x08 (zC ||| zI) x s = some (r, cyc, w) →
     inTime x s cyc 1 = true → exec (.tahrOr x) s = wroteD x s cyc w 1 ((opA x s w) ||| (opB x s w)) 0) ∧
  (∀ (x : TahrOp) (s : State) (r : Region) (cyc : Cycle) (w : BitVec 64), atWord 0x09 (zC ||| zI) x s = some (r, cyc, w) →
     inTime x s cyc 1 = true → exec (.tahrXor x) s = wroteD x s cyc w 1 ((opA x s w) ^^^ (opB x s w)) 0) ∧
  (∀ (x : TahrOp) (s : State) (r : Region) (cyc : Cycle) (w : BitVec 64), atWord 0x0A (zB ||| zC) x s = some (r, cyc, w) →
     inTime x s cyc 1 = true → exec (.tahrAndi x) s = wroteD x s cyc w 1 ((opA x s w) &&& (wSext w)) 0) ∧
  (∀ (x : TahrOp) (s : State) (r : Region) (cyc : Cycle) (w : BitVec 64), atWord 0x0B (zB ||| zC) x s = some (r, cyc, w) →
     inTime x s cyc 1 = true → exec (.tahrOri x) s = wroteD x s cyc w 1 ((opA x s w) ||| (wSext w)) 0) ∧
  (∀ (x : TahrOp) (s : State) (r : Region) (cyc : Cycle) (w : BitVec 64), atWord 0x0C (zB ||| zC) x s = some (r, cyc, w) →
     inTime x s cyc 1 = true → exec (.tahrXori x) s = wroteD x s cyc w 1 ((opA x s w) ^^^ (wSext w)) 0) ∧
  (∀ (x : TahrOp) (s : State) (r : Region) (cyc : Cycle) (w : BitVec 64), atWord 0x0D (zC ||| zI) x s = some (r, cyc, w) →
     inTime x s cyc 1 = true → exec (.tahrShl x) s = wroteD x s cyc w 1 ((opA x s w) <<< shiftCount (opB x s w)) 0) ∧
  (∀ (x : TahrOp) (s : State) (r : Region) (cyc : Cycle) (w : BitVec 64), atWord 0x0E (zC ||| zI) x s = some (r, cyc, w) →
     inTime x s cyc 1 = true → exec (.tahrShr x) s = wroteD x s cyc w 1 ((opA x s w) >>> shiftCount (opB x s w)) 0) ∧
  (∀ (x : TahrOp) (s : State) (r : Region) (cyc : Cycle) (w : BitVec 64), atWord 0x0F (zC ||| zI) x s = some (r, cyc, w) →
     inTime x s cyc 1 = true → exec (.tahrSar x) s = wroteD x s cyc w 1 ((opA x s w).sshiftRight (shiftCount (opB x s w))) 0) ∧
  (∀ (x : TahrOp) (s : State) (r : Region) (cyc : Cycle) (w : BitVec 64), atWord 0x10 (zB ||| zC ||| 0xFFFFFFC0) x s = some (r, cyc, w) →
     inTime x s cyc 1 = true → exec (.tahrShli x) s = wroteD x s cyc w 1 ((opA x s w) <<< shiftCount (wSext w)) 0) ∧
  (∀ (x : TahrOp) (s : State) (r : Region) (cyc : Cycle) (w : BitVec 64), atWord 0x11 (zB ||| zC ||| 0xFFFFFFC0) x s = some (r, cyc, w) →
     inTime x s cyc 1 = true → exec (.tahrShri x) s = wroteD x s cyc w 1 ((opA x s w) >>> shiftCount (wSext w)) 0) ∧
  (∀ (x : TahrOp) (s : State) (r : Region) (cyc : Cycle) (w : BitVec 64), atWord 0x12 (zB ||| zC ||| 0xFFFFFFC0) x s = some (r, cyc, w) →
     inTime x s cyc 1 = true → exec (.tahrSari x) s = wroteD x s cyc w 1 ((opA x s w).sshiftRight (shiftCount (wSext w))) 0) ∧
  (∀ (x : TahrOp) (s : State) (r : Region) (cyc : Cycle) (w : BitVec 64), atWord 0x13 (zA ||| zB ||| zC) x s = some (r, cyc, w) →
     inTime x s cyc 1 = true → exec (.tahrLdi x) s = wroteD x s cyc w 1 ((wSext w)) 0) ∧
  (∀ (x : TahrOp) (s : State) (r : Region) (cyc : Cycle) (w : BitVec 64), atWord 0x14 (zB ||| zC) x s = some (r, cyc, w) →
     inTime x s cyc 1 = true → exec (.tahrLdih x) s = wroteD x s cyc w 1 ((wSext w) <<< 32 ||| (opA x s w) &&& 0xFFFFFFFF) 0) ∧
  (∀ (x : TahrOp) (s : State) (r : Region) (cyc : Cycle) (w : BitVec 64), atWord 0x15 (zC ||| zI) x s = some (r, cyc, w) →
     inTime x s cyc 1 = true → exec (.tahrMin x) s = wroteD x s cyc w 1 (if (opA x s w).slt (opB x s w) then (opA x s w) else (opB x s w)) 0) ∧
  (∀ (x : TahrOp) (s : State) (r : Region) (cyc : Cycle) (w : BitVec 64), atWord 0x16 (zC ||| zI) x s = some (r, cyc, w) →
     inTime x s cyc 1 = true → exec (.tahrMax x) s = wroteD x s cyc w 1 (if (opA x s w).slt (opB x s w) then (opB x s w) else (opA x s w)) 0) ∧
  (∀ (x : TahrOp) (s : State) (r : Region) (cyc : Cycle) (w : BitVec 64), atWord 0x17 (zC ||| zI) x s = some (r, cyc, w) →
     inTime x s cyc 1 = true → exec (.tahrCmpeq x) s = wroteD x s cyc w 1 (boolV ((opA x s w) == (opB x s w))) 0) ∧
  (∀ (x : TahrOp) (s : State) (r : Region) (cyc : Cycle) (w : BitVec 64), atWord 0x18 (zC ||| zI) x s = some (r, cyc, w) →
     inTime x s cyc 1 = true → exec (.tahrCmplt x) s = wroteD x s cyc w 1 (boolV ((opA x s w).slt (opB x s w))) 0) ∧
  (∀ (x : TahrOp) (s : State) (r : Region) (cyc : Cycle) (w : BitVec 64), atWord 0x19 (zC ||| zI) x s = some (r, cyc, w) →
     inTime x s cyc 1 = true → exec (.tahrCmpltu x) s = wroteD x s cyc w 1 (boolV ((opA x s w).ult (opB x s w))) 0) ∧
  (∀ (x : TahrOp) (s : State) (r : Region) (cyc : Cycle) (w : BitVec 64), atWord 0x1A (zC ||| zI) x s = some (r, cyc, w) →
     inTime x s cyc 1 = true → exec (.tahrCmple x) s = wroteD x s cyc w 1 (boolV ((opA x s w).sle (opB x s w))) 0) ∧
  (∀ (x : TahrOp) (s : State) (r : Region) (cyc : Cycle) (w : BitVec 64), atWord 0x1C (zB ||| zC ||| zI) x s = some (r, cyc, w) →
     inTime x s cyc 1 = true → exec (.tahrAbs x) s = wroteD x s cyc w 1 (if (opA x s w).slt 0 then -(opA x s w) else (opA x s w)) 0) ∧
  (∀ (x : TahrOp) (s : State) (r : Region) (cyc : Cycle) (w : BitVec 64), atWord 0x1B zI x s = some (r, cyc, w) → inTime x s cyc 1 = true →
     exec (.tahrSel x) s = wroteD x s cyc w 1 (if opC x s w ≠ 0 then opA x s w else opB x s w) 0)

/-- Where an engine stands at a whole word of a floating-point or complex instruction and the window leaves it its cycles, the instruction
writes its result to D, sets the FLAGS bits of its exceptions and goes on to the next word; nothing else changes. Definitions in it hold
choices of the model: log 16. -/
def Obligations.TahrFloatsWriteD : Prop :=
  (∀ (x : TahrOp) (s : State) (r : Region) (cyc : Cycle) (w : BitVec 64), atWord 0x20 (zC ||| zI) x s = some (r, cyc, w) →
     inTime x s cyc 4 = true → exec (.tahrFadd x) s = wroteD x s cyc w 4 (fadd (opA x s w) (opB x s w)).1 (fadd (opA x s w) (opB x s w)).2.bits) ∧
  (∀ (x : TahrOp) (s : State) (r : Region) (cyc : Cycle) (w : BitVec 64), atWord 0x21 (zC ||| zI) x s = some (r, cyc, w) →
     inTime x s cyc 4 = true → exec (.tahrFsub x) s = wroteD x s cyc w 4 (fsub (opA x s w) (opB x s w)).1 (fsub (opA x s w) (opB x s w)).2.bits) ∧
  (∀ (x : TahrOp) (s : State) (r : Region) (cyc : Cycle) (w : BitVec 64), atWord 0x22 (zC ||| zI) x s = some (r, cyc, w) →
     inTime x s cyc 4 = true → exec (.tahrFmul x) s = wroteD x s cyc w 4 (fmul (opA x s w) (opB x s w)).1 (fmul (opA x s w) (opB x s w)).2.bits) ∧
  (∀ (x : TahrOp) (s : State) (r : Region) (cyc : Cycle) (w : BitVec 64), atWord 0x23 (zC ||| zI) x s = some (r, cyc, w) →
     inTime x s cyc 24 = true → exec (.tahrFdiv x) s = wroteD x s cyc w 24 (fdiv (opA x s w) (opB x s w)).1 (fdiv (opA x s w) (opB x s w)).2.bits) ∧
  (∀ (x : TahrOp) (s : State) (r : Region) (cyc : Cycle) (w : BitVec 64), atWord 0x24 (zB ||| zC ||| zI) x s = some (r, cyc, w) →
     inTime x s cyc 28 = true → exec (.tahrFsqrt x) s = wroteD x s cyc w 28 (fsqrt (opA x s w)).1 (fsqrt (opA x s w)).2.bits) ∧
  (∀ (x : TahrOp) (s : State) (r : Region) (cyc : Cycle) (w : BitVec 64), atWord 0x26 (zB ||| zC ||| zI) x s = some (r, cyc, w) →
     inTime x s cyc 1 = true → exec (.tahrFneg x) s = wroteD x s cyc w 1 (fneg (opA x s w)) 0) ∧
  (∀ (x : TahrOp) (s : State) (r : Region) (cyc : Cycle) (w : BitVec 64), atWord 0x27 (zB ||| zC ||| zI) x s = some (r, cyc, w) →
     inTime x s cyc 1 = true → exec (.tahrFabs x) s = wroteD x s cyc w 1 (fabs (opA x s w)) 0) ∧
  (∀ (x : TahrOp) (s : State) (r : Region) (cyc : Cycle) (w : BitVec 64), atWord 0x28 (zC ||| zI) x s = some (r, cyc, w) →
     inTime x s cyc 2 = true →
     exec (.tahrFmin x) s = wroteD x s cyc w 2 (minMax true (opA x s w) (opB x s w)).1 (minMax true (opA x s w) (opB x s w)).2.bits) ∧
  (∀ (x : TahrOp) (s : State) (r : Region) (cyc : Cycle) (w : BitVec 64), atWord 0x29 (zC ||| zI) x s = some (r, cyc, w) →
     inTime x s cyc 2 = true →
     exec (.tahrFmax x) s = wroteD x s cyc w 2 (minMax false (opA x s w) (opB x s w)).1 (minMax false (opA x s w) (opB x s w)).2.bits) ∧
  (∀ (x : TahrOp) (s : State) (r : Region) (cyc : Cycle) (w : BitVec 64), atWord 0x2A (zC ||| zI) x s = some (r, cyc, w) →
     inTime x s cyc 2 = true →
     exec (.tahrFcmpeq x) s = wroteD x s cyc w 2 (fpCompare .eq (opA x s w) (opB x s w)).1 (fpCompare .eq (opA x s w) (opB x s w)).2.bits) ∧
  (∀ (x : TahrOp) (s : State) (r : Region) (cyc : Cycle) (w : BitVec 64), atWord 0x2B (zC ||| zI) x s = some (r, cyc, w) →
     inTime x s cyc 2 = true →
     exec (.tahrFcmplt x) s = wroteD x s cyc w 2 (fpCompare .lt (opA x s w) (opB x s w)).1 (fpCompare .lt (opA x s w) (opB x s w)).2.bits) ∧
  (∀ (x : TahrOp) (s : State) (r : Region) (cyc : Cycle) (w : BitVec 64), atWord 0x2C (zC ||| zI) x s = some (r, cyc, w) →
     inTime x s cyc 2 = true →
     exec (.tahrFcmple x) s = wroteD x s cyc w 2 (fpCompare .le (opA x s w) (opB x s w)).1 (fpCompare .le (opA x s w) (opB x s w)).2.bits) ∧
  (∀ (x : TahrOp) (s : State) (r : Region) (cyc : Cycle) (w : BitVec 64), atWord 0x2D (zC ||| zI) x s = some (r, cyc, w) →
     inTime x s cyc 3 = true → exec (.tahrCvtif x) s = wroteD x s cyc w 3 (intToF64 (opA x s w)).1 (intToF64 (opA x s w)).2.bits) ∧
  (∀ (x : TahrOp) (s : State) (r : Region) (cyc : Cycle) (w : BitVec 64), atWord 0x2E (zC ||| zI) x s = some (r, cyc, w) →
     inTime x s cyc 3 = true → exec (.tahrCvtfi x) s = wroteD x s cyc w 3 (f64ToInt (opA x s w)).1 (f64ToInt (opA x s w)).2.bits) ∧
  (∀ (x : TahrOp) (s : State) (r : Region) (cyc : Cycle) (w : BitVec 64), atWord 0x2F (zC ||| zI) x s = some (r, cyc, w) →
     inTime x s cyc 2 = true →
     exec (.tahrCvtsd x) s = wroteD x s cyc w 2 (f32ToF64 ((opA x s w).truncate 32)).1 (f32ToF64 ((opA x s w).truncate 32)).2.bits) ∧
  (∀ (x : TahrOp) (s : State) (r : Region) (cyc : Cycle) (w : BitVec 64), atWord 0x30 (zC ||| zI) x s = some (r, cyc, w) →
     inTime x s cyc 2 = true → exec (.tahrCvtds x) s = wroteD x s cyc w 2 ((f64ToF32 (opA x s w)).1.zeroExtend 64) (f64ToF32 (opA x s w)).2.bits) ∧
  (∀ (x : TahrOp) (s : State) (r : Region) (cyc : Cycle) (w : BitVec 64), atWord 0x31 (zB ||| zC ||| zI) x s = some (r, cyc, w) →
     inTime x s cyc 40 = true → exec (.tahrFsin x) s = wroteD x s cyc w 40 (fsin (opA x s w)).1 (fsin (opA x s w)).2.bits) ∧
  (∀ (x : TahrOp) (s : State) (r : Region) (cyc : Cycle) (w : BitVec 64), atWord 0x32 (zB ||| zC ||| zI) x s = some (r, cyc, w) →
     inTime x s cyc 40 = true → exec (.tahrFcos x) s = wroteD x s cyc w 40 (fcos (opA x s w)).1 (fcos (opA x s w)).2.bits) ∧
  (∀ (x : TahrOp) (s : State) (r : Region) (cyc : Cycle) (w : BitVec 64), atWord 0x33 (zC ||| zI) x s = some (r, cyc, w) →
     inTime x s cyc 40 = true →
     exec (.tahrFatan2 x) s = wroteD x s cyc w 40 (fatan2 (opA x s w) (opB x s w)).1 (fatan2 (opA x s w) (opB x s w)).2.bits) ∧
  (∀ (x : TahrOp) (s : State) (r : Region) (cyc : Cycle) (w : BitVec 64), atWord 0x40 (zC ||| zI) x s = some (r, cyc, w) →
     inTime x s cyc 2 = true → exec (.tahrCadd x) s = wroteD x s cyc w 2 (cadd (opA x s w) (opB x s w)).1 (cadd (opA x s w) (opB x s w)).2.bits) ∧
  (∀ (x : TahrOp) (s : State) (r : Region) (cyc : Cycle) (w : BitVec 64), atWord 0x41 (zC ||| zI) x s = some (r, cyc, w) →
     inTime x s cyc 2 = true → exec (.tahrCsub x) s = wroteD x s cyc w 2 (csub (opA x s w) (opB x s w)).1 (csub (opA x s w) (opB x s w)).2.bits) ∧
  (∀ (x : TahrOp) (s : State) (r : Region) (cyc : Cycle) (w : BitVec 64), atWord 0x42 (zC ||| zI) x s = some (r, cyc, w) →
     inTime x s cyc 6 = true → exec (.tahrCmul x) s = wroteD x s cyc w 6 (cmul (opA x s w) (opB x s w)).1 (cmul (opA x s w) (opB x s w)).2.bits) ∧
  (∀ (x : TahrOp) (s : State) (r : Region) (cyc : Cycle) (w : BitVec 64), atWord 0x43 (zC ||| zI) x s = some (r, cyc, w) →
     inTime x s cyc 30 = true → exec (.tahrCdiv x) s = wroteD x s cyc w 30 (cdiv (opA x s w) (opB x s w)).1 (cdiv (opA x s w) (opB x s w)).2.bits) ∧
  (∀ (x : TahrOp) (s : State) (r : Region) (cyc : Cycle) (w : BitVec 64), atWord 0x44 (zC ||| zI) x s = some (r, cyc, w) →
     inTime x s cyc 1 = true → exec (.tahrCconj x) s = wroteD x s cyc w 1 (cconj (opA x s w)) 0) ∧
  (∀ (x : TahrOp) (s : State) (r : Region) (cyc : Cycle) (w : BitVec 64), atWord 0x45 (zC ||| zI) x s = some (r, cyc, w) →
     inTime x s cyc 10 = true → exec (.tahrCmag x) s = wroteD x s cyc w 10 (cmag (opA x s w)).1 (cmag (opA x s w)).2.bits) ∧
  (∀ (x : TahrOp) (s : State) (r : Region) (cyc : Cycle) (w : BitVec 64), atWord 0x46 (zC ||| zI) x s = some (r, cyc, w) →
     inTime x s cyc 40 = true → exec (.tahrCarg x) s = wroteD x s cyc w 40 (carg (opA x s w)).1 (carg (opA x s w)).2.bits) ∧
  (∀ (x : TahrOp) (s : State) (r : Region) (cyc : Cycle) (w : BitVec 64), atWord 0x47 (zC ||| zI) x s = some (r, cyc, w) →
     inTime x s cyc 3 = true →
     exec (.tahrCmk x) s = wroteD x s cyc w 3 (cpack ((opA x s w), {}) ((opB x s w), {})).1 (cpack ((opA x s w), {}) ((opB x s w), {})).2.bits) ∧
  (∀ (x : TahrOp) (s : State) (r : Region) (cyc : Cycle) (w : BitVec 64), atWord 0x48 (zC ||| zI) x s = some (r, cyc, w) →
     inTime x s cyc 2 = true → exec (.tahrCre x) s = wroteD x s cyc w 2 (cre (opA x s w)).1 (cre (opA x s w)).2.bits) ∧
  (∀ (x : TahrOp) (s : State) (r : Region) (cyc : Cycle) (w : BitVec 64), atWord 0x49 (zC ||| zI) x s = some (r, cyc, w) →
     inTime x s cyc 2 = true → exec (.tahrCim x) s = wroteD x s cyc w 2 (cim (opA x s w)).1 (cim (opA x s w)).2.bits) ∧
  (∀ (x : TahrOp) (s : State) (r : Region) (cyc : Cycle) (w : BitVec 64), atWord 0x4A (zC ||| zI) x s = some (r, cyc, w) →
     inTime x s cyc 4 = true → exec (.tahrCscl x) s = wroteD x s cyc w 4 (cscl (opA x s w) (opB x s w)).1 (cscl (opA x s w) (opB x s w)).2.bits) ∧
  (∀ (x : TahrOp) (s : State) (r : Region) (cyc : Cycle) (w : BitVec 64), atWord 0x4B (zC ||| zI) x s = some (r, cyc, w) →
     inTime x s cyc 44 = true → exec (.tahrCpol x) s = wroteD x s cyc w 44 (cpol (opA x s w) (opB x s w)).1 (cpol (opA x s w) (opB x s w)).2.bits) ∧
  (∀ (x : TahrOp) (s : State) (r : Region) (cyc : Cycle) (w : BitVec 64), atWord 0x4C (zC ||| zI) x s = some (r, cyc, w) →
     inTime x s cyc 44 = true → exec (.tahrCrot x) s = wroteD x s cyc w 44 (crot (opA x s w) (opB x s w)).1 (crot (opA x s w) (opB x s w)).2.bits) ∧
  (∀ (x : TahrOp) (s : State) (r : Region) (cyc : Cycle) (w : BitVec 64), atWord 0x25 zI x s = some (r, cyc, w) → inTime x s cyc 5 = true →
     exec (.tahrFmadd x) s = wroteD x s cyc w 5 (fmadd (opA x s w) (opB x s w) (opC x s w)).1 (fmadd (opA x s w) (opB x s w) (opC x s w)).2.bits) ∧
  (∀ (x : TahrOp) (s : State) (r : Region) (cyc : Cycle) (w : BitVec 64), atWord 0x34 (zA ||| zB ||| zC) x s = some (r, cyc, w) →
     inTime x s cyc 1 = true → exec (.tahrFldi x) s = wroteD x s cyc w 1 (f32ToF64 (wImm w)).1 (f32ToF64 (wImm w)).2.bits)

/-- A load writes D from the bytes at A + sext(IMM); a store writes its bytes there and nowhere else; a branch not taken goes on after one
engine cycle, one taken goes to its target after two; LOOP counts A down; FBCALL pushes the return point and V62, RET pops them; NOP goes
on; END ends the cycle. -/
def Obligations.TahrMovesAndBranches : Prop :=
  (∀ (x : TahrOp) (s : State) (r : Region) (cyc : Cycle) (w : BitVec 64), atWord 0x50 (zB ||| zC) x s = some (r, cyc, w) →
     inTime x s cyc 2 = true → dataFault x r (memAddr (getEng s x.e.val) w) 8 8 = none →
     exec (.tahrLd x) s = wroteD x s cyc w 2 (ldMem (getEng s x.e.val) (memAddr (getEng s x.e.val) w) 8) 0) ∧
  (∀ (x : TahrOp) (s : State) (r : Region) (cyc : Cycle) (w : BitVec 64), atWord 0x51 (zB ||| zC) x s = some (r, cyc, w) →
     inTime x s cyc 2 = true → dataFault x r (memAddr (getEng s x.e.val) w) 4 4 = none →
     exec (.tahrLdw x) s = wroteD x s cyc w 2 (((ldMem (getEng s x.e.val) (memAddr (getEng s x.e.val) w) 4).truncate 32).signExtend 64) 0) ∧
  (∀ (x : TahrOp) (s : State) (r : Region) (cyc : Cycle) (w : BitVec 64), atWord 0x52 (zB ||| zC) x s = some (r, cyc, w) →
     inTime x s cyc 2 = true → dataFault x r (memAddr (getEng s x.e.val) w) 4 4 = none →
     exec (.tahrLdwu x) s = wroteD x s cyc w 2 (ldMem (getEng s x.e.val) (memAddr (getEng s x.e.val) w) 4) 0) ∧
  (∀ (x : TahrOp) (s : State) (r : Region) (cyc : Cycle) (w : BitVec 64), atWord 0x53 (zB ||| zC) x s = some (r, cyc, w) →
     inTime x s cyc 2 = true → dataFault x r (memAddr (getEng s x.e.val) w) 1 1 = none →
     exec (.tahrLdb x) s = wroteD x s cyc w 2 (ldMem (getEng s x.e.val) (memAddr (getEng s x.e.val) w) 1) 0) ∧
  (∀ (x : TahrOp) (s : State) (r : Region) (cyc : Cycle) (w : BitVec 64), atWord 0x54 (zB ||| zC) x s = some (r, cyc, w) →
     inTime x s cyc 1 = true → dataFault x r (memAddr (getEng s x.e.val) w) 8 8 = none →
     exec (.tahrSt x) s = ranTo x (stMem (getEng s x.e.val) (memAddr (getEng s x.e.val) w) 8 (rdV (getEng s x.e.val) (wD w))) { cyc with pc := cyc.pc + 1, elapsed := cyc.elapsed + 1 } s) ∧
  (∀ (x : TahrOp) (s : State) (r : Region) (cyc : Cycle) (w : BitVec 64), atWord 0x55 (zB ||| zC) x s = some (r, cyc, w) →
     inTime x s cyc 1 = true → dataFault x r (memAddr (getEng s x.e.val) w) 4 4 = none →
     exec (.tahrStw x) s = ranTo x (stMem (getEng s x.e.val) (memAddr (getEng s x.e.val) w) 4 (rdV (getEng s x.e.val) (wD w))) { cyc with pc := cyc.pc + 1, elapsed := cyc.elapsed + 1 } s) ∧
  (∀ (x : TahrOp) (s : State) (r : Region) (cyc : Cycle) (w : BitVec 64), atWord 0x56 (zB ||| zC) x s = some (r, cyc, w) →
     inTime x s cyc 1 = true → dataFault x r (memAddr (getEng s x.e.val) w) 1 1 = none →
     exec (.tahrStb x) s = ranTo x (stMem (getEng s x.e.val) (memAddr (getEng s x.e.val) w) 1 (rdV (getEng s x.e.val) (wD w))) { cyc with pc := cyc.pc + 1, elapsed := cyc.elapsed + 1 } s) ∧
  (∀ (x : TahrOp) (s : State) (r : Region) (cyc : Cycle) (w : BitVec 64) (t : Nat),
     atWord 0x80 (zD ||| zA ||| zB ||| zC) x s = some (r, cyc, w) → inTime x s cyc 2 = true → branchTarget cyc w = t → inCode r t = true →
     exec (.tahrBr x) s = ranTo x (getEng s x.e.val) { cyc with pc := t, elapsed := cyc.elapsed + 2 } s) ∧
  (∀ (x : TahrOp) (s : State) (r : Region) (cyc : Cycle) (w : BitVec 64) (t : Nat), atWord 0x81 (zD ||| zC) x s = some (r, cyc, w) →
     inTime x s cyc 2 = true → (opA x s w == opB x s w) = true → branchTarget cyc w = t → inCode r t = true →
     exec (.tahrBeq x) s = ranTo x (getEng s x.e.val) { cyc with pc := t, elapsed := cyc.elapsed + 2 } s) ∧
  (∀ (x : TahrOp) (s : State) (r : Region) (cyc : Cycle) (w : BitVec 64), atWord 0x81 (zD ||| zC) x s = some (r, cyc, w) →
     inTime x s cyc 1 = true → (opA x s w == opB x s w) = false →
     exec (.tahrBeq x) s = ranTo x (getEng s x.e.val) { cyc with pc := cyc.pc + 1, elapsed := cyc.elapsed + 1 } s) ∧
  (∀ (x : TahrOp) (s : State) (r : Region) (cyc : Cycle) (w : BitVec 64) (t : Nat), atWord 0x82 (zD ||| zC) x s = some (r, cyc, w) →
     inTime x s cyc 2 = true → (opA x s w != opB x s w) = true → branchTarget cyc w = t → inCode r t = true →
     exec (.tahrBne x) s = ranTo x (getEng s x.e.val) { cyc with pc := t, elapsed := cyc.elapsed + 2 } s) ∧
  (∀ (x : TahrOp) (s : State) (r : Region) (cyc : Cycle) (w : BitVec 64), atWord 0x82 (zD ||| zC) x s = some (r, cyc, w) →
     inTime x s cyc 1 = true → (opA x s w != opB x s w) = false →
     exec (.tahrBne x) s = ranTo x (getEng s x.e.val) { cyc with pc := cyc.pc + 1, elapsed := cyc.elapsed + 1 } s) ∧
  (∀ (x : TahrOp) (s : State) (r : Region) (cyc : Cycle) (w : BitVec 64) (t : Nat), atWord 0x83 (zD ||| zC) x s = some (r, cyc, w) →
     inTime x s cyc 2 = true → (opA x s w).slt (opB x s w) = true → branchTarget cyc w = t → inCode r t = true →
     exec (.tahrBlt x) s = ranTo x (getEng s x.e.val) { cyc with pc := t, elapsed := cyc.elapsed + 2 } s) ∧
  (∀ (x : TahrOp) (s : State) (r : Region) (cyc : Cycle) (w : BitVec 64), atWord 0x83 (zD ||| zC) x s = some (r, cyc, w) →
     inTime x s cyc 1 = true → (opA x s w).slt (opB x s w) = false →
     exec (.tahrBlt x) s = ranTo x (getEng s x.e.val) { cyc with pc := cyc.pc + 1, elapsed := cyc.elapsed + 1 } s) ∧
  (∀ (x : TahrOp) (s : State) (r : Region) (cyc : Cycle) (w : BitVec 64) (t : Nat), atWord 0x84 (zD ||| zC) x s = some (r, cyc, w) →
     inTime x s cyc 2 = true → (opB x s w).sle (opA x s w) = true → branchTarget cyc w = t → inCode r t = true →
     exec (.tahrBge x) s = ranTo x (getEng s x.e.val) { cyc with pc := t, elapsed := cyc.elapsed + 2 } s) ∧
  (∀ (x : TahrOp) (s : State) (r : Region) (cyc : Cycle) (w : BitVec 64), atWord 0x84 (zD ||| zC) x s = some (r, cyc, w) →
     inTime x s cyc 1 = true → (opB x s w).sle (opA x s w) = false →
     exec (.tahrBge x) s = ranTo x (getEng s x.e.val) { cyc with pc := cyc.pc + 1, elapsed := cyc.elapsed + 1 } s) ∧
  (∀ (x : TahrOp) (s : State) (r : Region) (cyc : Cycle) (w : BitVec 64) (t : Nat), atWord 0x85 (zD ||| zC) x s = some (r, cyc, w) →
     inTime x s cyc 2 = true → (opA x s w).ult (opB x s w) = true → branchTarget cyc w = t → inCode r t = true →
     exec (.tahrBltu x) s = ranTo x (getEng s x.e.val) { cyc with pc := t, elapsed := cyc.elapsed + 2 } s) ∧
  (∀ (x : TahrOp) (s : State) (r : Region) (cyc : Cycle) (w : BitVec 64), atWord 0x85 (zD ||| zC) x s = some (r, cyc, w) →
     inTime x s cyc 1 = true → (opA x s w).ult (opB x s w) = false →
     exec (.tahrBltu x) s = ranTo x (getEng s x.e.val) { cyc with pc := cyc.pc + 1, elapsed := cyc.elapsed + 1 } s) ∧
  (∀ (x : TahrOp) (s : State) (r : Region) (cyc : Cycle) (w : BitVec 64) (t : Nat), atWord 0x86 (zD ||| zB ||| zC) x s = some (r, cyc, w) →
     inTime x s cyc 2 = true → rdV (wrV (getEng s x.e.val) (wA w) (opA x s w - 1)) (wA w) ≠ 0 → branchTarget cyc w = t → inCode r t = true →
     exec (.tahrLoop x) s = ranTo x (wrV (getEng s x.e.val) (wA w) (opA x s w - 1)) { cyc with pc := t, elapsed := cyc.elapsed + 2 } s) ∧
  (∀ (x : TahrOp) (s : State) (r : Region) (cyc : Cycle) (w : BitVec 64), atWord 0x86 (zD ||| zB ||| zC) x s = some (r, cyc, w) →
     inTime x s cyc 1 = true → rdV (wrV (getEng s x.e.val) (wA w) (opA x s w - 1)) (wA w) = 0 →
     exec (.tahrLoop x) s = ranTo x (wrV (getEng s x.e.val) (wA w) (opA x s w - 1)) { cyc with pc := cyc.pc + 1, elapsed := cyc.elapsed + 1 } s) ∧
  (∀ (x : TahrOp) (s : State) (r : Region) (cyc : Cycle) (w : BitVec 64),
     atWord 0x87 (zD ||| zB ||| zC ||| 0xFFFFE000) x s = some (r, cyc, w) → inTime x s cyc 3 = true →
     inCode r (w.extractLsb' 0 13).toNat = true → (getEng s x.e.val).stack.length < 16 →
     exec (.tahrFbcall x) s = ranTo x (wrV { getEng s x.e.val with stack := (cyc.pc + 1, rdV (getEng s x.e.val) 62) :: (getEng s x.e.val).stack } 62 (opA x s w)) { cyc with pc := (w.extractLsb' 0 13).toNat, elapsed := cyc.elapsed + 3 } s) ∧
  (∀ (x : TahrOp) (s : State) (r : Region) (cyc : Cycle) (w : BitVec 64) (p : Nat × BitVec 64) (l : List (Nat × BitVec 64)),
     atWord 0x88 (zD ||| zA ||| zB ||| zC ||| zI) x s = some (r, cyc, w) → inTime x s cyc 3 = true → (getEng s x.e.val).stack = p :: l →
     exec (.tahrRet x) s = ranTo x (wrV { getEng s x.e.val with stack := l } 62 p.2) { cyc with pc := p.1, elapsed := cyc.elapsed + 3 } s) ∧
  (∀ (x : TahrOp) (s : State) (r : Region) (cyc : Cycle) (w : BitVec 64), atWord 0x8A (zD ||| zA ||| zB ||| zC ||| zI) x s = some (r, cyc, w) →
     inTime x s cyc 1 = true → exec (.tahrNop x) s = ranTo x (getEng s x.e.val) { cyc with pc := cyc.pc + 1, elapsed := cyc.elapsed + 1 } s) ∧
  (∀ (x : TahrOp) (s : State) (r : Region) (cyc : Cycle) (w : BitVec 64), atWord 0x89 (zD ||| zA ||| zB ||| zC ||| zI) x s = some (r, cyc, w) →
     inTime x s cyc 1 = true → cyc.ended = false →
     exec (.tahrEnd x) s = .next (tahrEnd x.e.val (modEng x.e.val (fun _ => { getEng s x.e.val with cycle := some { cyc with ended := true, elapsed := cyc.elapsed + 1 } }) s)))

/-- A point load writes D from the snapshot; a point store replaces its slot of the output buffer; RDSR reads a special register; a timer,
edge or counter instruction steps its block in memory and writes D; QSEND places a packet in the send-buffer slice, or counts it as
refused. -/
def Obligations.TahrPointsTimersAndPackets : Prop :=
  (∀ (x : TahrOp) (s : State) (r : Region) (cyc : Cycle) (w : BitVec 64) (p : PointRec),
     atWord 0x60 (zA ||| zB ||| zC ||| 0xFFFF0000) x s = some (r, cyc, w) → inTime x s cyc 2 = true →
     cyc.imports[(w.extractLsb' 0 16).toNat]? = some p → exec (.tahrLdp x) s = wroteD x s cyc w 2 p.value 0) ∧
  (∀ (x : TahrOp) (s : State) (r : Region) (cyc : Cycle) (w : BitVec 64) (p : PointRec),
     atWord 0x61 (zA ||| zB ||| zC ||| 0xFFFF0000) x s = some (r, cyc, w) → inTime x s cyc 2 = true →
     cyc.imports[(w.extractLsb' 0 16).toNat]? = some p → exec (.tahrLdpq x) s = wroteD x s cyc w 2 (ldpqWord p) 0) ∧
  (∀ (x : TahrOp) (s : State) (r : Region) (cyc : Cycle) (w : BitVec 64) (p : PointRec),
     atWord 0x62 (zA ||| zB ||| zC ||| 0xFFFF0000) x s = some (r, cyc, w) → inTime x s cyc 2 = true →
     cyc.imports[(w.extractLsb' 0 16).toNat]? = some p → exec (.tahrLdpt x) s = wroteD x s cyc w 2 p.lt 0) ∧
  (∀ (x : TahrOp) (s : State) (r : Region) (cyc : Cycle) (w : BitVec 64), atWord 0x63 (zA ||| zB ||| 0xFFFF0000) x s = some (r, cyc, w) →
     inTime x s cyc 1 = true → (w.extractLsb' 0 16).toNat < cyc.nExp →
     exec (.tahrStp x) s = ranTo x (getEng s x.e.val) { cyc with pc := cyc.pc + 1, elapsed := cyc.elapsed + 1, exports := cyc.exports.filter (fun e => e.1 != (w.extractLsb' 0 16).toNat) ++ [((w.extractLsb' 0 16).toNat, { value := rdV (getEng s x.e.val) (wD w), quality := (opC x s w).truncate 16, lt := none })] } s) ∧
  (∀ (x : TahrOp) (s : State) (r : Region) (cyc : Cycle) (w : BitVec 64), atWord 0x64 (zA ||| 0xFFFF0000) x s = some (r, cyc, w) →
     inTime x s cyc 1 = true → (w.extractLsb' 0 16).toNat < cyc.nExp →
     exec (.tahrStpt x) s = ranTo x (getEng s x.e.val) { cyc with pc := cyc.pc + 1, elapsed := cyc.elapsed + 1, exports := cyc.exports.filter (fun e => e.1 != (w.extractLsb' 0 16).toNat) ++ [((w.extractLsb' 0 16).toNat, { value := rdV (getEng s x.e.val) (wD w), quality := (opC x s w).truncate 16, lt := some (opB x s w) })] } s) ∧
  (∀ (x : TahrOp) (s : State) (r : Region) (cyc : Cycle) (w : BitVec 64) (v : BitVec 64),
     atWord 0x70 (zA ||| zB ||| zC) x s = some (r, cyc, w) → inTime x s cyc 1 = true →
     specialReg x.e.val cyc (w.extractLsb' 0 8).toNat = some v → exec (.tahrRdsr x) s = wroteD x s cyc w 1 v 0) ∧
  (∀ (x : TahrOp) (s : State) (r : Region) (cyc : Cycle) (w : BitVec 64) (a : Nat), atWord 0x71 0 x s = some (r, cyc, w) →
     inTime x s cyc 6 = true → (opC x s w + wSext w).toNat = a → dataFault x r a 24 8 = none →
     exec (.tahrTon x) s = ranTo x (wrV (wrTimer (getEng s x.e.val) a { (tonStep (rdTimer (getEng s x.e.val) a) cyc.tclk (if (opB x s w).slt 0 then 0 else opB x s w) (opA x s w != 0)) with inPrev := opA x s w != 0 }) (wD w) (boolV (tonStep (rdTimer (getEng s x.e.val) a) cyc.tclk (if (opB x s w).slt 0 then 0 else opB x s w) (opA x s w != 0)).q)) { cyc with pc := cyc.pc + 1, elapsed := cyc.elapsed + 6 } s) ∧
  (∀ (x : TahrOp) (s : State) (r : Region) (cyc : Cycle) (w : BitVec 64) (a : Nat), atWord 0x72 0 x s = some (r, cyc, w) →
     inTime x s cyc 6 = true → (opC x s w + wSext w).toNat = a → dataFault x r a 24 8 = none →
     exec (.tahrTof x) s = ranTo x (wrV (wrTimer (getEng s x.e.val) a { (tofStep (rdTimer (getEng s x.e.val) a) cyc.tclk (if (opB x s w).slt 0 then 0 else opB x s w) (opA x s w != 0)) with inPrev := opA x s w != 0 }) (wD w) (boolV (tofStep (rdTimer (getEng s x.e.val) a) cyc.tclk (if (opB x s w).slt 0 then 0 else opB x s w) (opA x s w != 0)).q)) { cyc with pc := cyc.pc + 1, elapsed := cyc.elapsed + 6 } s) ∧
  (∀ (x : TahrOp) (s : State) (r : Region) (cyc : Cycle) (w : BitVec 64) (a : Nat), atWord 0x73 0 x s = some (r, cyc, w) →
     inTime x s cyc 6 = true → (opC x s w + wSext w).toNat = a → dataFault x r a 24 8 = none →
     exec (.tahrTp x) s = ranTo x (wrV (wrTimer (getEng s x.e.val) a { (tpStep (rdTimer (getEng s x.e.val) a) cyc.tclk (if (opB x s w).slt 0 then 0 else opB x s w) (opA x s w != 0)) with inPrev := opA x s w != 0 }) (wD w) (boolV (tpStep (rdTimer (getEng s x.e.val) a) cyc.tclk (if (opB x s w).slt 0 then 0 else opB x s w) (opA x s w != 0)).q)) { cyc with pc := cyc.pc + 1, elapsed := cyc.elapsed + 6 } s) ∧
  (∀ (x : TahrOp) (s : State) (r : Region) (cyc : Cycle) (w : BitVec 64) (a : Nat), atWord 0x74 zB x s = some (r, cyc, w) →
     inTime x s cyc 4 = true → (opC x s w + wSext w).toNat = a → dataFault x r a 8 8 = none →
     exec (.tahrRtrig x) s = ranTo x (wrV (stMem (getEng s x.e.val) a 8 (boolV (opA x s w != 0))) (wD w) (boolV (opA x s w != 0 && !(ldMem (getEng s x.e.val) a 8).getLsbD 0))) { cyc with pc := cyc.pc + 1, elapsed := cyc.elapsed + 4 } s) ∧
  (∀ (x : TahrOp) (s : State) (r : Region) (cyc : Cycle) (w : BitVec 64) (a : Nat), atWord 0x75 zB x s = some (r, cyc, w) →
     inTime x s cyc 4 = true → (opC x s w + wSext w).toNat = a → dataFault x r a 8 8 = none →
     exec (.tahrFtrig x) s = ranTo x (wrV (stMem (getEng s x.e.val) a 8 (boolV (opA x s w != 0))) (wD w) (boolV (opA x s w == 0 && (ldMem (getEng s x.e.val) a 8).getLsbD 0))) { cyc with pc := cyc.pc + 1, elapsed := cyc.elapsed + 4 } s) ∧
  (∀ (x : TahrOp) (s : State) (r : Region) (cyc : Cycle) (w : BitVec 64) (a : Nat) (cv : BitVec 64), atWord 0x76 0 x s = some (r, cyc, w) →
     inTime x s cyc 5 = true → (opC x s w + wSext w).toNat = a → dataFault x r a 16 8 = none →
     cv = (if (opA x s w).getLsbD 2 then 0 else if ((opA x s w).getLsbD 0 && !(ldMem (getEng s x.e.val) (a + 8) 8).getLsbD 0) then countUp (ldMem (getEng s x.e.val) a 8) else ldMem (getEng s x.e.val) a 8) →
     exec (.tahrCtu x) s = ranTo x (wrV (stMem (stMem (getEng s x.e.val) a 8 cv) (a + 8) 8 (BitVec.ofNat 64 (bitN ((opA x s w).getLsbD 0) + 2 * bitN ((opA x s w).getLsbD 1)))) (wD w) (boolV ((opB x s w).sle cv))) { cyc with pc := cyc.pc + 1, elapsed := cyc.elapsed + 5 } s) ∧
  (∀ (x : TahrOp) (s : State) (r : Region) (cyc : Cycle) (w : BitVec 64) (a : Nat) (cv : BitVec 64), atWord 0x77 0 x s = some (r, cyc, w) →
     inTime x s cyc 5 = true → (opC x s w + wSext w).toNat = a → dataFault x r a 16 8 = none →
     cv = (if (opA x s w).getLsbD 3 then opB x s w else if ((opA x s w).getLsbD 1 && !(ldMem (getEng s x.e.val) (a + 8) 8).getLsbD 1) then countDown (ldMem (getEng s x.e.val) a 8) else ldMem (getEng s x.e.val) a 8) →
     exec (.tahrCtd x) s = ranTo x (wrV (stMem (stMem (getEng s x.e.val) a 8 cv) (a + 8) 8 (BitVec.ofNat 64 (bitN ((opA x s w).getLsbD 0) + 2 * bitN ((opA x s w).getLsbD 1)))) (wD w) (boolV (BitVec.sle cv 0))) { cyc with pc := cyc.pc + 1, elapsed := cyc.elapsed + 5 } s) ∧
  (∀ (x : TahrOp) (s : State) (r : Region) (cyc : Cycle) (w : BitVec 64) (a : Nat) (cv : BitVec 64), atWord 0x78 0 x s = some (r, cyc, w) →
     inTime x s cyc 5 = true → (opC x s w + wSext w).toNat = a → dataFault x r a 16 8 = none →
     cv = (if (opA x s w).getLsbD 2 then 0 else if (opA x s w).getLsbD 3 then opB x s w else if ((opA x s w).getLsbD 0 && !(ldMem (getEng s x.e.val) (a + 8) 8).getLsbD 0) && !((opA x s w).getLsbD 1 && !(ldMem (getEng s x.e.val) (a + 8) 8).getLsbD 1) then countUp (ldMem (getEng s x.e.val) a 8) else if ((opA x s w).getLsbD 1 && !(ldMem (getEng s x.e.val) (a + 8) 8).getLsbD 1) && !((opA x s w).getLsbD 0 && !(ldMem (getEng s x.e.val) (a + 8) 8).getLsbD 0) then countDown (ldMem (getEng s x.e.val) a 8) else ldMem (getEng s x.e.val) a 8) →
     exec (.tahrCtud x) s = ranTo x (wrV (stMem (stMem (getEng s x.e.val) a 8 cv) (a + 8) 8 (BitVec.ofNat 64 (bitN ((opA x s w).getLsbD 0) + 2 * bitN ((opA x s w).getLsbD 1)))) (wD w) (boolV ((opB x s w).sle cv) ||| (boolV (BitVec.sle cv 0) <<< 1))) { cyc with pc := cyc.pc + 1, elapsed := cyc.elapsed + 5 } s) ∧
  (∀ (x : TahrOp) (s : State) (r : Region) (cyc : Cycle) (w : BitVec 64) (a n : Nat),
     atWord 0x79 (zD ||| zB ||| zC ||| 0xFFFFFFFE) x s = some (r, cyc, w) → (opA x s w).toNat = a →
     ofBytesLE ((getEng s x.e.val).mem.readN (a + 8) 2) = n → 14 ≤ n ∧ n ≤ 8160 →
     sliceUsed (getEng s x.e.val) cyc + 32 * ceilDiv (32 + n) 32 ≤ 8192 → dataFault x r a 32 1 = none → dataFault x r (a + 32) n 1 = none →
     inTime x s cyc (4 + ceilDiv (32 + n) 32) = true →
     exec (.tahrQsend x) s = ranTo x (getEng s x.e.val) { cyc with pc := cyc.pc + 1, elapsed := cyc.elapsed + (4 + ceilDiv (32 + n) 32), sends := cyc.sends ++ [(w.getLsbD 0, (getEng s x.e.val).mem.readN a (32 + n))], qsn := cyc.qsn + 1 } s) ∧
  (∀ (x : TahrOp) (s : State) (r : Region) (cyc : Cycle) (w : BitVec 64) (a n : Nat),
     atWord 0x79 (zD ||| zB ||| zC ||| 0xFFFFFFFE) x s = some (r, cyc, w) → (opA x s w).toNat = a →
     ofBytesLE ((getEng s x.e.val).mem.readN (a + 8) 2) = n →
     n < 14 ∨ 8160 < n ∨ 8192 < sliceUsed (getEng s x.e.val) cyc + 32 * ceilDiv (32 + n) 32 → dataFault x r a 32 1 = none →
     inTime x s cyc 4 = true →
     exec (.tahrQsend x) s = ranTo x (getEng s x.e.val) { cyc with pc := cyc.pc + 1, elapsed := cyc.elapsed + 4, qref := cyc.qref + 1 } s)

/-- An engine at a whole word of the opcode, its guard code clean, raises: USER with its code at RAISE; ALIGN or ACCESS with the address where
the bytes of a load, a store, a timer, edge or counter block or a packet are not aligned or lie outside the data region; ACCESS where the
target of a taken branch or of a call lies outside the code region; STACK at a call of depth 16 and a return of depth 0; SLOT with the
slot at a point access to no slot; ILLEGAL at RDSR of a reserved number, and at a reserved or malformed word; ACCESS at a fetch outside
the code region. The next state is that of the fault, which ends the engine's cycle there. -/
def Obligations.TahrFaultsEndTheCycle : Prop :=
  (∀ (x : TahrOp) (s : State) (r : Region) (cyc : Cycle) (w : BitVec 64),
     atWord 0x7A (zD ||| zA ||| zB ||| zC ||| 0xFFFF0000) x s = some (r, cyc, w) →
     exec (.tahrRaise x) s = faulted x s cyc w fUser (w.extractLsb' 0 16).toNat) ∧
  (∀ (x : TahrOp) (s : State) (r : Region) (cyc : Cycle) (w : BitVec 64) (code ad : Nat), atWord 0x50 (zB ||| zC) x s = some (r, cyc, w) →
     dataFault x r (memAddr (getEng s x.e.val) w) 8 8 = some (code, ad) → exec (.tahrLd x) s = faulted x s cyc w code ad) ∧
  (∀ (x : TahrOp) (s : State) (r : Region) (cyc : Cycle) (w : BitVec 64) (code ad : Nat), atWord 0x51 (zB ||| zC) x s = some (r, cyc, w) →
     dataFault x r (memAddr (getEng s x.e.val) w) 4 4 = some (code, ad) → exec (.tahrLdw x) s = faulted x s cyc w code ad) ∧
  (∀ (x : TahrOp) (s : State) (r : Region) (cyc : Cycle) (w : BitVec 64) (code ad : Nat), atWord 0x52 (zB ||| zC) x s = some (r, cyc, w) →
     dataFault x r (memAddr (getEng s x.e.val) w) 4 4 = some (code, ad) → exec (.tahrLdwu x) s = faulted x s cyc w code ad) ∧
  (∀ (x : TahrOp) (s : State) (r : Region) (cyc : Cycle) (w : BitVec 64) (code ad : Nat), atWord 0x53 (zB ||| zC) x s = some (r, cyc, w) →
     dataFault x r (memAddr (getEng s x.e.val) w) 1 1 = some (code, ad) → exec (.tahrLdb x) s = faulted x s cyc w code ad) ∧
  (∀ (x : TahrOp) (s : State) (r : Region) (cyc : Cycle) (w : BitVec 64) (code ad : Nat), atWord 0x54 (zB ||| zC) x s = some (r, cyc, w) →
     dataFault x r (memAddr (getEng s x.e.val) w) 8 8 = some (code, ad) → exec (.tahrSt x) s = faulted x s cyc w code ad) ∧
  (∀ (x : TahrOp) (s : State) (r : Region) (cyc : Cycle) (w : BitVec 64) (code ad : Nat), atWord 0x55 (zB ||| zC) x s = some (r, cyc, w) →
     dataFault x r (memAddr (getEng s x.e.val) w) 4 4 = some (code, ad) → exec (.tahrStw x) s = faulted x s cyc w code ad) ∧
  (∀ (x : TahrOp) (s : State) (r : Region) (cyc : Cycle) (w : BitVec 64) (code ad : Nat), atWord 0x56 (zB ||| zC) x s = some (r, cyc, w) →
     dataFault x r (memAddr (getEng s x.e.val) w) 1 1 = some (code, ad) → exec (.tahrStb x) s = faulted x s cyc w code ad) ∧
  (∀ (x : TahrOp) (s : State) (r : Region) (cyc : Cycle) (w : BitVec 64),
     atWord 0x87 (zD ||| zB ||| zC ||| 0xFFFFE000) x s = some (r, cyc, w) → inCode r (w.extractLsb' 0 13).toNat = true →
     16 ≤ (getEng s x.e.val).stack.length → exec (.tahrFbcall x) s = faulted x s cyc w fStack 0) ∧
  (∀ (x : TahrOp) (s : State) (r : Region) (cyc : Cycle) (w : BitVec 64), atWord 0x88 (zD ||| zA ||| zB ||| zC ||| zI) x s = some (r, cyc, w) →
     (getEng s x.e.val).stack = [] → exec (.tahrRet x) s = faulted x s cyc w fStack 0) ∧
  (∀ (x : TahrOp) (s : State) (r : Region) (cyc : Cycle) (w : BitVec 64), atWord 0x63 (zA ||| zB ||| 0xFFFF0000) x s = some (r, cyc, w) →
     cyc.nExp ≤ (w.extractLsb' 0 16).toNat → exec (.tahrStp x) s = faulted x s cyc w fSlot (w.extractLsb' 0 16).toNat) ∧
  (∀ (x : TahrOp) (s : State) (cyc : Cycle) (w : BitVec 64), (getEng s x.e.val).cycle = some cyc → cyc.snap = false →
     ltReached (cycInstant cyc cyc.elapsed) (getEng s x.e.val).winEnd = false → x.finding = .clean →
     (regionOf (getEng s x.e.val) cyc.owner).any (fun r => inCode r cyc.pc) = true → (getEng s x.e.val).code.getD cyc.pc 0 = w →
     wordIllegal w = true → exec (.illegal x) s = faulted x s cyc w fIllegal 0) ∧
  (∀ (x : TahrOp) (s : State) (cyc : Cycle), (getEng s x.e.val).cycle = some cyc → cyc.snap = false →
     ltReached (cycInstant cyc cyc.elapsed) (getEng s x.e.val).winEnd = false → x.finding = .clean →
     (regionOf (getEng s x.e.val) cyc.owner).any (fun r => inCode r cyc.pc) = false → exec (.accessAtFetch x) s = faulted x s cyc 0 fAccess 0) ∧
  (∀ (x : TahrOp) (s : State) (r : Region) (cyc : Cycle) (w : BitVec 64) (code ad : Nat), atWord 0x71 0 x s = some (r, cyc, w) →
     dataFault x r ((opC x s w) + wSext w).toNat 24 8 = some (code, ad) → exec (.tahrTon x) s = faulted x s cyc w code ad) ∧
  (∀ (x : TahrOp) (s : State) (r : Region) (cyc : Cycle) (w : BitVec 64) (code ad : Nat), atWord 0x72 0 x s = some (r, cyc, w) →
     dataFault x r ((opC x s w) + wSext w).toNat 24 8 = some (code, ad) → exec (.tahrTof x) s = faulted x s cyc w code ad) ∧
  (∀ (x : TahrOp) (s : State) (r : Region) (cyc : Cycle) (w : BitVec 64) (code ad : Nat), atWord 0x73 0 x s = some (r, cyc, w) →
     dataFault x r ((opC x s w) + wSext w).toNat 24 8 = some (code, ad) → exec (.tahrTp x) s = faulted x s cyc w code ad) ∧
  (∀ (x : TahrOp) (s : State) (r : Region) (cyc : Cycle) (w : BitVec 64) (code ad : Nat), atWord 0x74 zB x s = some (r, cyc, w) →
     dataFault x r ((opC x s w) + wSext w).toNat 8 8 = some (code, ad) → exec (.tahrRtrig x) s = faulted x s cyc w code ad) ∧
  (∀ (x : TahrOp) (s : State) (r : Region) (cyc : Cycle) (w : BitVec 64) (code ad : Nat), atWord 0x75 zB x s = some (r, cyc, w) →
     dataFault x r ((opC x s w) + wSext w).toNat 8 8 = some (code, ad) → exec (.tahrFtrig x) s = faulted x s cyc w code ad) ∧
  (∀ (x : TahrOp) (s : State) (r : Region) (cyc : Cycle) (w : BitVec 64) (code ad : Nat), atWord 0x76 0 x s = some (r, cyc, w) →
     dataFault x r ((opC x s w) + wSext w).toNat 16 8 = some (code, ad) → exec (.tahrCtu x) s = faulted x s cyc w code ad) ∧
  (∀ (x : TahrOp) (s : State) (r : Region) (cyc : Cycle) (w : BitVec 64) (code ad : Nat), atWord 0x77 0 x s = some (r, cyc, w) →
     dataFault x r ((opC x s w) + wSext w).toNat 16 8 = some (code, ad) → exec (.tahrCtd x) s = faulted x s cyc w code ad) ∧
  (∀ (x : TahrOp) (s : State) (r : Region) (cyc : Cycle) (w : BitVec 64) (code ad : Nat), atWord 0x78 0 x s = some (r, cyc, w) →
     dataFault x r ((opC x s w) + wSext w).toNat 16 8 = some (code, ad) → exec (.tahrCtud x) s = faulted x s cyc w code ad) ∧
  (∀ (x : TahrOp) (s : State) (r : Region) (cyc : Cycle) (w : BitVec 64) (code ad : Nat),
     atWord 0x79 (zD ||| zB ||| zC ||| 0xFFFFFFFE) x s = some (r, cyc, w) → dataFault x r (opA x s w).toNat 32 1 = some (code, ad) →
     exec (.tahrQsend x) s = faulted x s cyc w code ad) ∧
  (∀ (x : TahrOp) (s : State) (r : Region) (cyc : Cycle) (w : BitVec 64) (code ad n : Nat),
     atWord 0x79 (zD ||| zB ||| zC ||| 0xFFFFFFFE) x s = some (r, cyc, w) → dataFault x r (opA x s w).toNat 32 1 = none →
     ofBytesLE ((getEng s x.e.val).mem.readN ((opA x s w).toNat + 8) 2) = n → 14 ≤ n ∧ n ≤ 8160 →
     sliceUsed (getEng s x.e.val) cyc + 32 * ceilDiv (32 + n) 32 ≤ 8192 → dataFault x r ((opA x s w).toNat + 32) n 1 = some (code, ad) →
     exec (.tahrQsend x) s = faulted x s cyc w code ad) ∧
  (∀ (x : TahrOp) (s : State) (r : Region) (cyc : Cycle) (w : BitVec 64),
     atWord 0x60 (zA ||| zB ||| zC ||| 0xFFFF0000) x s = some (r, cyc, w) → cyc.imports[(w.extractLsb' 0 16).toNat]? = none →
     exec (.tahrLdp x) s = faulted x s cyc w fSlot (w.extractLsb' 0 16).toNat) ∧
  (∀ (x : TahrOp) (s : State) (r : Region) (cyc : Cycle) (w : BitVec 64),
     atWord 0x61 (zA ||| zB ||| zC ||| 0xFFFF0000) x s = some (r, cyc, w) → cyc.imports[(w.extractLsb' 0 16).toNat]? = none →
     exec (.tahrLdpq x) s = faulted x s cyc w fSlot (w.extractLsb' 0 16).toNat) ∧
  (∀ (x : TahrOp) (s : State) (r : Region) (cyc : Cycle) (w : BitVec 64),
     atWord 0x62 (zA ||| zB ||| zC ||| 0xFFFF0000) x s = some (r, cyc, w) → cyc.imports[(w.extractLsb' 0 16).toNat]? = none →
     exec (.tahrLdpt x) s = faulted x s cyc w fSlot (w.extractLsb' 0 16).toNat) ∧
  (∀ (x : TahrOp) (s : State) (r : Region) (cyc : Cycle) (w : BitVec 64), atWord 0x64 (zA ||| 0xFFFF0000) x s = some (r, cyc, w) →
     cyc.nExp ≤ (w.extractLsb' 0 16).toNat → exec (.tahrStpt x) s = faulted x s cyc w fSlot (w.extractLsb' 0 16).toNat) ∧
  (∀ (x : TahrOp) (s : State) (r : Region) (cyc : Cycle) (w : BitVec 64), atWord 0x70 (zA ||| zB ||| zC) x s = some (r, cyc, w) →
     specialReg x.e.val cyc (w.extractLsb' 0 8).toNat = none → exec (.tahrRdsr x) s = faulted x s cyc w fIllegal 0) ∧
  (∀ (x : TahrOp) (s : State) (r : Region) (cyc : Cycle) (w : BitVec 64), atWord 0x80 (zD ||| zA ||| zB ||| zC) x s = some (r, cyc, w) →
     branchTarget cyc w < 0 ∨ inCode r (branchTarget cyc w).toNat = false → exec (.tahrBr x) s = faulted x s cyc w fAccess 0) ∧
  (∀ (x : TahrOp) (s : State) (r : Region) (cyc : Cycle) (w : BitVec 64), atWord 0x81 (zD ||| zC) x s = some (r, cyc, w) →
     (opA x s w == opB x s w) = true → branchTarget cyc w < 0 ∨ inCode r (branchTarget cyc w).toNat = false →
     exec (.tahrBeq x) s = faulted x s cyc w fAccess 0) ∧
  (∀ (x : TahrOp) (s : State) (r : Region) (cyc : Cycle) (w : BitVec 64), atWord 0x82 (zD ||| zC) x s = some (r, cyc, w) →
     (opA x s w != opB x s w) = true → branchTarget cyc w < 0 ∨ inCode r (branchTarget cyc w).toNat = false →
     exec (.tahrBne x) s = faulted x s cyc w fAccess 0) ∧
  (∀ (x : TahrOp) (s : State) (r : Region) (cyc : Cycle) (w : BitVec 64), atWord 0x83 (zD ||| zC) x s = some (r, cyc, w) →
     (opA x s w).slt (opB x s w) = true → branchTarget cyc w < 0 ∨ inCode r (branchTarget cyc w).toNat = false →
     exec (.tahrBlt x) s = faulted x s cyc w fAccess 0) ∧
  (∀ (x : TahrOp) (s : State) (r : Region) (cyc : Cycle) (w : BitVec 64), atWord 0x84 (zD ||| zC) x s = some (r, cyc, w) →
     (opB x s w).sle (opA x s w) = true → branchTarget cyc w < 0 ∨ inCode r (branchTarget cyc w).toNat = false →
     exec (.tahrBge x) s = faulted x s cyc w fAccess 0) ∧
  (∀ (x : TahrOp) (s : State) (r : Region) (cyc : Cycle) (w : BitVec 64), atWord 0x85 (zD ||| zC) x s = some (r, cyc, w) →
     (opA x s w).ult (opB x s w) = true → branchTarget cyc w < 0 ∨ inCode r (branchTarget cyc w).toNat = false →
     exec (.tahrBltu x) s = faulted x s cyc w fAccess 0) ∧
  (∀ (x : TahrOp) (s : State) (r : Region) (cyc : Cycle) (w : BitVec 64), atWord 0x86 (zD ||| zB ||| zC) x s = some (r, cyc, w) →
     rdV (wrV (getEng s x.e.val) (wA w) (opA x s w - 1)) (wA w) ≠ 0 → branchTarget cyc w < 0 ∨ inCode r (branchTarget cyc w).toNat = false →
     exec (.tahrLoop x) s = faulted x s cyc w fAccess 0) ∧
  (∀ (x : TahrOp) (s : State) (r : Region) (cyc : Cycle) (w : BitVec 64),
     atWord 0x87 (zD ||| zB ||| zC ||| 0xFFFFE000) x s = some (r, cyc, w) → inCode r (w.extractLsb' 0 13).toNat = false →
     exec (.tahrFbcall x) s = faulted x s cyc w fAccess 0)

/-- A fault frees the engine, counts, sets FAULTED and records its code, address, instruction, index, task, owner, CYC_LT and elapsed cycles
where no earlier record stands; it sets FB's fault flag, and leaves the registers, the call stack, the memory, the code and the waiting
outputs of the engine, every other engine, and TB, SW, QM, SE, FR, PE, AR, PS and KV as they were. Definitions in it hold choices of the
model: log 140. -/
def Obligations.FaultIsRecorded : Prop :=
  (∀ (e : Nat) (cyc : Cycle) (code ad pc n : Nat) (w : BitVec 64) (s : State),
     (let g := getEng s e; let h := getEng (taskFault e cyc code ad pc w n s) e; h.cycle = none ∧ h.faulted = true ∧ h.faults = g.faults + 1 ∧ h.taskCycles = g.taskCycles + 1 ∧ h.busyCycles = g.busyCycles + BitVec.ofNat 64 n ∧ h.v = g.v ∧ h.stack = g.stack ∧ h.mem = g.mem ∧ h.code = g.code ∧ h.pendingW = g.pendingW ∧ (g.faulted = true → h.fault = g.fault) ∧ (g.faulted = false → h.fault = { code := BitVec.ofNat 8 code, task := BitVec.ofNat 8 cyc.task, owner := cyc.owner, pc := BitVec.ofNat 13 pc, instr := w, lt := cyc.cycLt, elapsed := BitVec.ofNat 32 n, addr := BitVec.ofNat 32 ad }))) ∧
  (∀ (e e2 : Nat) (cyc : Cycle) (code ad pc n : Nat) (w : BitVec 64) (s : State), e2 ≠ e →
     getEng (taskFault e cyc code ad pc w n s) e2 = getEng s e2) ∧
  (∀ (e : Nat) (cyc : Cycle) (code ad pc n : Nat) (w : BitVec 64) (s : State),
     (taskFault e cyc code ad pc w n s).fb.fault = true ∧ (taskFault e cyc code ad pc w n s).ps = s.ps ∧ (taskFault e cyc code ad pc w n s).qm = s.qm ∧ (taskFault e cyc code ad pc w n s).sw = s.sw ∧ (taskFault e cyc code ad pc w n s).se = s.se ∧ (taskFault e cyc code ad pc w n s).fr = s.fr ∧ (taskFault e cyc code ad pc w n s).pe = s.pe ∧ (taskFault e cyc code ad pc w n s).ar = s.ar ∧ (taskFault e cyc code ad pc w n s).kv = s.kv ∧ (taskFault e cyc code ad pc w n s).tb = s.tb)

/-- A due base tick fires its unit, starts the frame where one is due, and, once frames run, ends and opens windows and releases the PERIODIC
tasks; a due major frame starts; a window at its end closes. A free engine starts the first released cycle of the window's owner, unless
its own output write is still to come; after the snapshot time the cycle's registers are set; an output write that is due makes the
exports visible and opens the packets. The oldest due request of an owner takes effect, or is refused by the state of that moment, and is
answered. The dispatcher takes the oldest packet of an inbound queue of an engine cluster that is on: one in error or of an older epoch is
discarded, one without a matching entry or task counted, one that does not fit dropped, any other joins the inbox. A reloaded cluster is
on again. Where nothing is due, nothing happens. FB_READ_INST answers bytes of an engine's memory whose every guard word admits the
requester, waits while a cycle of one of their owners runs there, and is refused for bytes beyond the memory, of another tag, or of an
engine that is not on. FB_READ_FAULT and FB_READ_TASKS answer the records of an owner's tasks, DENIED to another instance. FB_RUN_CTRL and
FB_STEP join an allowed request to the owner's queue, to be answered at the boundary, or are refused: DENIED to another instance,
BAD_PARAM for an owner, count or task that does not exist, else the status that the run state gives. Definitions in it hold choices of the
model: log 22, 23, 124, 139, 140. -/
def Obligations.CyclesAndFbCommands : Prop :=
  (∀ (s u : State), tcuDue s 1 = true → u = (if tcuDue (fireTcu 1 s) 2 then majorFrame (fireTcu 1 s) else fireTcu 1 s) → u.fb.framed = true →
     exec .baseTick s = .next (releasePeriodic (ltSub (nextTarget s.now (getTcu s 1).target (getTcu s 1).period.toNat) (getTcu s 1).period.toNat) (openWindows ((ltDiff (ltSub (nextTarget s.now (getTcu s 1).target (getTcu s 1).period.toNat) (getTcu s 1).period.toNat) u.fb.frameLt).toNat / tickTu) (closeDue u)))) ∧
  (∀ (s u : State), tcuDue s 1 = true → u = (if tcuDue (fireTcu 1 s) 2 then majorFrame (fireTcu 1 s) else fireTcu 1 s) → u.fb.framed = false →
     exec .baseTick s = .next u) ∧
  (∀ (s : State), tcuDue s 1 = false → exec .baseTick s = .next s) ∧
  (∀ (s : State), tcuDue s 2 = true →
     exec .majorFrameStart s = .next (startFrame (ltSub (nextTarget s.now (getTcu s 2).target (getTcu s 2).period.toNat) (getTcu s 2).period.toNat) (fireTcu 2 s))) ∧
  (∀ (s : State), tcuDue s 2 = false → exec .majorFrameStart s = .next s) ∧
  (∀ (s : State) (e : Fin 48) (w : Window), (getEng s e.val).win = some w → ltReached s.now (getEng s e.val).winEnd = true →
     exec (.windowEnd e) s = .next (closeWindow e.val s)) ∧
  (∀ (s : State) (e : Fin 48), (getEng s e.val).win = none ∨ ltReached s.now (getEng s e.val).winEnd = false → exec (.windowEnd e) s = .next s) ∧
  (∀ (s : State) (e : Fin 48) (w : Window) (t : Nat) (k : Task), (getEng s e.val).win = some w → (getEng s e.val).cycle = none →
     (getEng s e.val).domain = .on → (vget s.fb.cl (e.val / 8) {}).reload = false → ltReached s.now (getEng s e.val).winEnd = false →
     ltReached s.now (getEng s e.val).freeAt = true → (∀ c ∈ (getEng s e.val).copying, c.1 = w.owner → ltReached s.now c.2 = true) →
     cycleFirst ((s.fb.tasks.filter (fun x => x.1.1 == w.owner && x.2.engine == e.val && x.2.released.isSome && x.2.state == .active)).map (fun x => (x.1.2, x.2))) = some (t, k) →
     exec (.cycleStart e) s = .next (if k.pendingW then s else startCycle e.val w.owner t s)) ∧
  (∀ (s : State) (e : Fin 48),
     ((getEng s e.val).win = none ∨ ∃ w, (getEng s e.val).win = some w ∧ (¬((getEng s e.val).cycle = none ∧ (getEng s e.val).domain = .on ∧ (vget s.fb.cl (e.val / 8) {}).reload = false ∧ ltReached s.now (getEng s e.val).winEnd = false ∧ ltReached s.now (getEng s e.val).freeAt = true ∧ (∀ c ∈ (getEng s e.val).copying, c.1 = w.owner → ltReached s.now c.2 = true)) ∨ cycleFirst ((s.fb.tasks.filter (fun x => x.1.1 == w.owner && x.2.engine == e.val && x.2.released.isSome && x.2.state == .active)).map (fun x => (x.1.2, x.2))) = none)) →
     exec (.cycleStart e) s = .next s) ∧
  (∀ (s : State) (e : Fin 48) (c : Cycle), (getEng s e.val).cycle = some c → c.snap = true → ltReached s.now (cycInstant c 0) = true →
     exec (.snapshotDone e) s = ranTo { e := e } { getEng s e.val with stack := [], v := (Vector.replicate 64 0).setIfInBounds 62 ((getTask s c.owner c.task).entry.v62.zeroExtend 64), mem := writeRx (getTask s c.owner c.task).entry 0 c.rx (getEng s e.val).mem } { c with snap := false, elapsed := 32, flags := 0 } s) ∧
  (∀ (s : State) (e : Fin 48), (∀ c, (getEng s e.val).cycle = some c → c.snap = false ∨ ltReached s.now (cycInstant c 0) = false) →
     exec (.snapshotDone e) s = .next s) ∧
  (∀ (s : State) (e : Fin 48), (getEng s e.val).pendingW.find? (fun p => ltReached s.now p.w) = none → exec (.outputWrite e) s = .next s) ∧
  (∀ (s t : State) (e : Fin 48) (p : PendingW) (a b : Nat), (getEng s e.val).pendingW.find? (fun p => ltReached s.now p.w) = some p →
     openSends (e.val / 8) p.owner p.sends (onFo (fun f => { f with outTs := (((allBatches s).filter (fun (b : Batch) => b.src == .engine e.val && b.visible == some p.w)).flatMap (·.writes)).foldl (fun t w => t.put w.index p.ts) f.outTs }) (applyOutput (((allBatches s).filter (fun (b : Batch) => b.src == .engine e.val && b.visible == some p.w)).flatMap (·.writes)) (dropBatches (fun (b : Batch) => b.src == .engine e.val && b.visible == some p.w) s))) = (a, b, t) →
     exec (.outputWrite e) s = .next ((if p.lastStep then stepDone p.owner else id) (modTask p.owner p.task (fun t => { t with pendingW := false, qsent := BitVec.ofNat 16 a, qrefused := BitVec.ofNat 16 (b + p.qref.toNat) }) (modEng e.val (fun g => { g with pendingW := g.pendingW.erase p }) (countUnsent (e.val / 8) (b + p.qref.toNat) (modCl (e.val / 8) (fun c => { c with txSent := c.txSent + BitVec.ofNat 64 a }) t)))))) ∧
  (∀ (s : State) (e : Fin 48) (p : PendingW), (getEng s e.val).pendingW.find? (fun p => ltReached s.now p.w) = some p → p.lastStep = false →
     p.sends = [] → s.ps.held = [] → s.ps.waiting = [] → s.ps.heldBack = [] →
     ∃ t, exec (.outputWrite e) s = .next t ∧ (getEng t e.val).pendingW = (getEng s e.val).pendingW.erase p ∧ (getTask t p.owner p.task).pendingW = false ∧ t.qm = s.qm) ∧
  (∀ (s u : State) (o : Nat) (q : RunReq), (s.fb.own.getD o {}).pending.find? (runDue s) = some q → s.fb.running = true →
     u = onFb (fun x => { x with own := x.own.upd o {} (fun y => { y with pending := y.pending.erase q }) }) s →
     exec (.runStateChange o) s = .next (match runAllowed q.cmd (u.fb.own.getD o {}).state, q.reply with | none, none => applyRun o q.cmd s.fb.frameLt u | none, some w => reply w (st .ok) (applyRun o q.cmd s.fb.frameLt u) | some _, none => u | some x, some w => reply w (st x) u)) ∧
  (∀ (s : State) (o : Nat), (s.fb.own.getD o {}).pending.find? (runDue s) = none ∨ s.fb.running = false → exec (.runStateChange o) s = .next s) ∧
  (∀ (s : State) (k : Fin 6) (odd : Bool) (g : Option GuardFind),
     (getQ s (0x20 + 2 * k.val + bitN odd)).words = [] ∨ (getEng s (8 * k.val)).domain ≠ .on → exec (.inboxDispatch k odd g) s = .next s) ∧
  (∀ (s t : State) (k : Fin 6) (odd : Bool) (h : GuardHit) (ws : List QWord), (getQ s (0x20 + 2 * k.val + bitN odd)).words ≠ [] →
     (getEng s (8 * k.val)).domain = .on → (ws, t) = takePacket (0x20 + 2 * k.val + bitN odd) s →
     exec (.inboxDispatch k odd (some (.uncorrectable h))) s = .next (queueGuard (ownerOfWords ws) h t)) ∧
  (∀ (s t u : State) (k : Fin 6) (odd : Bool) (g : Option GuardFind) (ws : List QWord), (getQ s (0x20 + 2 * k.val + bitN odd)).words ≠ [] →
     (getEng s (8 * k.val)).domain = .on → (ws, t) = takePacket (0x20 + 2 * k.val + bitN odd) s →
     ((g = none ∧ u = t) ∨ (g = some .corrected ∧ u = guardCorrected 0x3 t)) → ws.any (epochStale u) = true →
     exec (.inboxDispatch k odd g) s = .next (epochDiscard (ownerOfWords ws) u)) ∧
  (∀ (s t u : State) (k : Fin 6) (odd : Bool) (g : Option GuardFind) (ws : List QWord), (getQ s (0x20 + 2 * k.val + bitN odd)).words ≠ [] →
     (getEng s (8 * k.val)).domain = .on → (ws, t) = takePacket (0x20 + 2 * k.val + bitN odd) s →
     ((g = none ∧ u = t) ∨ (g = some .corrected ∧ u = guardCorrected 0x3 t)) → ws.any (epochStale u) = false →
     (((vget u.fb.cl k.val {}).rxmap.find? (fun r => r.valid && r.odd == odd && r.etype == ({ bytes := payloadOf ws } : Frame).etype && (match r.dst with | some m => m == ({ bytes := payloadOf ws } : Frame).dst | none => true))) = none ∨ ∃ r, ((vget u.fb.cl k.val {}).rxmap.find? (fun r => r.valid && r.odd == odd && r.etype == ({ bytes := payloadOf ws } : Frame).etype && (match r.dst with | some m => m == ({ bytes := payloadOf ws } : Frame).dst | none => true))) = some r ∧ taskOn u (8 * k.val + r.engine.val) r.task = none) →
     exec (.inboxDispatch k odd g) s = .next (modCl k.val (fun c => { c with rxNomatch := c.rxNomatch + 1 }) u)) ∧
  (∀ (s t u : State) (k : Fin 6) (odd : Bool) (g : Option GuardFind) (ws : List QWord) (r : RxEntry) (o : Tag) (te : TaskEntry),
     (getQ s (0x20 + 2 * k.val + bitN odd)).words ≠ [] → (getEng s (8 * k.val)).domain = .on →
     (ws, t) = takePacket (0x20 + 2 * k.val + bitN odd) s → ((g = none ∧ u = t) ∨ (g = some .corrected ∧ u = guardCorrected 0x3 t)) →
     ws.any (epochStale u) = false →
     ((vget u.fb.cl k.val {}).rxmap.find? (fun r => r.valid && r.odd == odd && r.etype == ({ bytes := payloadOf ws } : Frame).etype && (match r.dst with | some m => m == ({ bytes := payloadOf ws } : Frame).dst | none => true))) = some r →
     taskOn u (8 * k.val + r.engine.val) r.task = some (o, te) →
     exec (.inboxDispatch k odd g) s = .next (if (te.rxSize < (headerOf ws ++ payloadOf ws).length ∨ 2 * te.rxCount ≤ (getTask u o te.task).inbox.length) then rxDrop k.val o u else modCl k.val (fun c => { c with rxPackets := c.rxPackets + 1 }) (modTask o te.task (fun x => { x with inbox := x.inbox ++ [(headerOf ws ++ payloadOf ws)] }) u))) ∧
  (∀ (s : State) (k : Fin 6), (vget s.fb.cl k.val {}).reload = true →
     ∃ t, exec (.engineReloadDone k) s = .next t ∧ (vget t.fb.cl k.val {}).reload = false ∧ t.fb.up = true) ∧
  (∀ (s : State) (k : Fin 6), (vget s.fb.cl k.val {}).reload = false → exec (.engineReloadDone k) s = .next s) ∧
  (∀ (c : Cmd) (e : Fin 48) (a n : Nat) (s : State), runs 0x0910 true c s = true → a + n ≤ 131072 →
     instAdmits (issuer c) (getEng (entered 0x0910 c s) e.val) a n = true → (getEng (entered 0x0910 c s) e.val).domain = .on →
     readBlocked (entered 0x0910 c s) ({ engine := e.val, owners := (touched (getEng (entered 0x0910 c s) e.val) a n).map (·.owner), first := a, len := n, wait := { cmd := c, opcode := 0x0910 } } : ReadWait) = false →
     exec (.fbReadInst c e a n) s = answered 0x0910 c { buf := .bytes ((getEng (entered 0x0910 c s) e.val).mem.readN a n) } (entered 0x0910 c s)) ∧
  (∀ (c : Cmd) (e : Fin 48) (a n : Nat) (s : State), runs 0x0910 true c s = true → a + n ≤ 131072 →
     instAdmits (issuer c) (getEng (entered 0x0910 c s) e.val) a n = true → (getEng (entered 0x0910 c s) e.val).domain = .on →
     readBlocked (entered 0x0910 c s) ({ engine := e.val, owners := (touched (getEng (entered 0x0910 c s) e.val) a n).map (·.owner), first := a, len := n, wait := { cmd := c, opcode := 0x0910 } } : ReadWait) = true →
     exec (.fbReadInst c e a n) s = .next (outstanding { cmd := c, opcode := 0x0910 } (onFb (fun x => { x with readWaits := x.readWaits ++ [({ engine := e.val, owners := (touched (getEng (entered 0x0910 c s) e.val) a n).map (·.owner), first := a, len := n, wait := { cmd := c, opcode := 0x0910 } } : ReadWait)] }) (entered 0x0910 c s)))) ∧
  (∀ (c : Cmd) (e : Fin 48) (a n : Nat) (s : State), runs 0x0910 true c s = true → 131072 < a + n →
     exec (.fbReadInst c e a n) s = answered 0x0910 c (st (if issuer c = 0 then .badParam else .denied)) (entered 0x0910 c s)) ∧
  (∀ (c : Cmd) (e : Fin 48) (a n : Nat) (s : State), runs 0x0910 true c s = true → a + n ≤ 131072 →
     instAdmits (issuer c) (getEng (entered 0x0910 c s) e.val) a n = false →
     exec (.fbReadInst c e a n) s = answered 0x0910 c (st .denied) (tagRefused 4 (entered 0x0910 c s))) ∧
  (∀ (c : Cmd) (e : Fin 48) (a n : Nat) (s : State), runs 0x0910 true c s = true → a + n ≤ 131072 →
     instAdmits (issuer c) (getEng (entered 0x0910 c s) e.val) a n = true → (getEng (entered 0x0910 c s) e.val).domain ≠ .on →
     exec (.fbReadInst c e a n) s = answered 0x0910 c (st .notReady) (entered 0x0910 c s)) ∧
  (∀ (c : Cmd) (o : Tag) (e : Fin 48) (s : State), runs 0x0911 true c s = true → (issuer c = 0 ∨ o = issuer c) →
     exec (.fbReadFault c o e) s = answered 0x0911 c { buf := .bytes (((taskEntries (entered 0x0911 c s) e.val).filter (fun x => x.1 == o)).flatMap (fun x => faultBytes (((getTask (entered 0x0911 c s) o x.2.task).fault).getD {}))) } (entered 0x0911 c s)) ∧
  (∀ (c : Cmd) (o : Tag) (e : Fin 48) (s : State), runs 0x0911 true c s = true → issuer c ≠ 0 ∧ o ≠ issuer c →
     exec (.fbReadFault c o e) s = answered 0x0911 c (st .denied) (entered 0x0911 c s)) ∧
  (∀ (c : Cmd) (o : Tag) (s : State), runs 0x0913 true c s = true → (issuer c = 0 ∨ o = issuer c) → o ≤ 64 →
     runAllowed .runWarm ((entered 0x0913 c s).fb.own.getD o {}).state = none →
     exec (.runWarm c o) s = .next (outstanding { cmd := c, opcode := 0x0913 } (onFb (fun f => { f with own := f.own.put o { (entered 0x0913 c s).fb.own.getD o {} with pending := ((entered 0x0913 c s).fb.own.getD o {}).pending ++ [{ cmd := .runWarm, at_ := (entered 0x0913 c s).now, reply := some { cmd := c, opcode := 0x0913 } }] } }) (entered 0x0913 c s)))) ∧
  (∀ (c : Cmd) (o : Tag) (s : State) (x : Status), runs 0x0913 true c s = true → (issuer c = 0 ∨ o = issuer c) → o ≤ 64 →
     runAllowed .runWarm ((entered 0x0913 c s).fb.own.getD o {}).state = some x →
     exec (.runWarm c o) s = answered 0x0913 c (st x) (entered 0x0913 c s)) ∧
  (∀ (c : Cmd) (o : Tag) (s : State), runs 0x0913 true c s = true → (issuer c = 0 ∨ o = issuer c) → o ≤ 64 →
     runAllowed .runCold ((entered 0x0913 c s).fb.own.getD o {}).state = none →
     exec (.runCold c o) s = .next (outstanding { cmd := c, opcode := 0x0913 } (onFb (fun f => { f with own := f.own.put o { (entered 0x0913 c s).fb.own.getD o {} with pending := ((entered 0x0913 c s).fb.own.getD o {}).pending ++ [{ cmd := .runCold, at_ := (entered 0x0913 c s).now, reply := some { cmd := c, opcode := 0x0913 } }] } }) (entered 0x0913 c s)))) ∧
  (∀ (c : Cmd) (o : Tag) (s : State) (x : Status), runs 0x0913 true c s = true → (issuer c = 0 ∨ o = issuer c) → o ≤ 64 →
     runAllowed .runCold ((entered 0x0913 c s).fb.own.getD o {}).state = some x →
     exec (.runCold c o) s = answered 0x0913 c (st x) (entered 0x0913 c s)) ∧
  (∀ (c : Cmd) (o : Tag) (s : State), runs 0x0913 true c s = true → (issuer c = 0 ∨ o = issuer c) → o ≤ 64 →
     runAllowed .stop ((entered 0x0913 c s).fb.own.getD o {}).state = none →
     exec (.fbRunCtrlStop c o) s = .next (outstanding { cmd := c, opcode := 0x0913 } (onFb (fun f => { f with own := f.own.put o { (entered 0x0913 c s).fb.own.getD o {} with pending := ((entered 0x0913 c s).fb.own.getD o {}).pending ++ [{ cmd := .stop, at_ := (entered 0x0913 c s).now, reply := some { cmd := c, opcode := 0x0913 } }] } }) (entered 0x0913 c s)))) ∧
  (∀ (c : Cmd) (o : Tag) (s : State) (x : Status), runs 0x0913 true c s = true → (issuer c = 0 ∨ o = issuer c) → o ≤ 64 →
     runAllowed .stop ((entered 0x0913 c s).fb.own.getD o {}).state = some x →
     exec (.fbRunCtrlStop c o) s = answered 0x0913 c (st x) (entered 0x0913 c s)) ∧
  (∀ (c : Cmd) (o : Tag) (s : State), runs 0x0913 true c s = true → (issuer c = 0 ∨ o = issuer c) → o ≤ 64 →
     runAllowed .hold ((entered 0x0913 c s).fb.own.getD o {}).state = none →
     exec (.fbRunCtrlHold c o) s = .next (outstanding { cmd := c, opcode := 0x0913 } (onFb (fun f => { f with own := f.own.put o { (entered 0x0913 c s).fb.own.getD o {} with pending := ((entered 0x0913 c s).fb.own.getD o {}).pending ++ [{ cmd := .hold, at_ := (entered 0x0913 c s).now, reply := some { cmd := c, opcode := 0x0913 } }] } }) (entered 0x0913 c s)))) ∧
  (∀ (c : Cmd) (o : Tag) (s : State) (x : Status), runs 0x0913 true c s = true → (issuer c = 0 ∨ o = issuer c) → o ≤ 64 →
     runAllowed .hold ((entered 0x0913 c s).fb.own.getD o {}).state = some x →
     exec (.fbRunCtrlHold c o) s = answered 0x0913 c (st x) (entered 0x0913 c s)) ∧
  (∀ (c : Cmd) (o : Tag) (s : State), runs 0x0913 true c s = true → issuer c ≠ 0 ∧ o ≠ issuer c →
     exec (.runWarm c o) s = answered 0x0913 c (st .denied) (entered 0x0913 c s) ∧ exec (.runCold c o) s = answered 0x0913 c (st .denied) (entered 0x0913 c s) ∧ exec (.fbRunCtrlStop c o) s = answered 0x0913 c (st .denied) (entered 0x0913 c s) ∧ exec (.fbRunCtrlHold c o) s = answered 0x0913 c (st .denied) (entered 0x0913 c s)) ∧
  (∀ (c : Cmd) (o : Tag) (s : State), runs 0x0913 true c s = true → (issuer c = 0 ∨ o = issuer c) ∧ 64 < o →
     exec (.runWarm c o) s = answered 0x0913 c (st .badParam) (entered 0x0913 c s) ∧ exec (.runCold c o) s = answered 0x0913 c (st .badParam) (entered 0x0913 c s) ∧ exec (.fbRunCtrlStop c o) s = answered 0x0913 c (st .badParam) (entered 0x0913 c s) ∧ exec (.fbRunCtrlHold c o) s = answered 0x0913 c (st .badParam) (entered 0x0913 c s)) ∧
  (∀ (c : Cmd) (o : Tag) (t n : Nat) (s : State), runs 0x0914 true c s = true → (issuer c = 0 ∨ o = issuer c) → o ≤ 64 →
     1 ≤ n ∧ n ≤ 255 ∧ ((entered 0x0914 c s).fb.tasks.get? (o, t)).isSome = true →
     runAllowed (.step t n) ((entered 0x0914 c s).fb.own.getD o {}).state = none →
     exec (.fbStep c o t n) s = .next (outstanding { cmd := c, opcode := 0x0914 } (onFb (fun f => { f with own := f.own.put o { (entered 0x0914 c s).fb.own.getD o {} with pending := ((entered 0x0914 c s).fb.own.getD o {}).pending ++ [{ cmd := (.step t n), at_ := (entered 0x0914 c s).now, reply := some { cmd := c, opcode := 0x0914 } }] } }) (entered 0x0914 c s)))) ∧
  (∀ (c : Cmd) (o : Tag) (t n : Nat) (s : State) (x : Status), runs 0x0914 true c s = true → (issuer c = 0 ∨ o = issuer c) → o ≤ 64 →
     1 ≤ n ∧ n ≤ 255 ∧ ((entered 0x0914 c s).fb.tasks.get? (o, t)).isSome = true →
     runAllowed (.step t n) ((entered 0x0914 c s).fb.own.getD o {}).state = some x →
     exec (.fbStep c o t n) s = answered 0x0914 c (st x) (entered 0x0914 c s)) ∧
  (∀ (c : Cmd) (o : Tag) (t n : Nat) (s : State), runs 0x0914 true c s = true → (issuer c = 0 ∨ o = issuer c) →
     ¬(1 ≤ n ∧ n ≤ 255 ∧ ((entered 0x0914 c s).fb.tasks.get? (o, t)).isSome = true) ∨ 64 < o →
     exec (.fbStep c o t n) s = answered 0x0914 c (st .badParam) (entered 0x0914 c s)) ∧
  (∀ (c : Cmd) (o : Tag) (t n : Nat) (s : State), runs 0x0914 true c s = true → issuer c ≠ 0 ∧ o ≠ issuer c →
     exec (.fbStep c o t n) s = answered 0x0914 c (st .denied) (entered 0x0914 c s)) ∧
  (∀ (c : Cmd) (o : Tag) (s : State), runs 0x0915 true c s = true → (issuer c = 0 ∨ o = issuer c) →
     exec (.fbReadTasks c o) s = answered 0x0915 c { buf := .bytes (((List.range 48).flatMap (fun e => (taskEntries (entered 0x0915 c s) e).filter (fun x => x.1 == o))).flatMap (fun x => taskBytes x.2.task (getTask (entered 0x0915 c s) o x.2.task))) } (entered 0x0915 c s)) ∧
  (∀ (c : Cmd) (o : Tag) (s : State), runs 0x0915 true c s = true → issuer c ≠ 0 ∧ o ≠ issuer c →
     exec (.fbReadTasks c o) s = answered 0x0915 c (st .denied) (entered 0x0915 c s))

/-- The oldest batch is applied, or held invisible until its W, and the samples of a grid instant then release its tasks. A write by the one
writer stores the normalised value with its instant, quality without bits 15:14, source and one more in SEQ, and clears STALE and INIT;
any other write is refused and counted. A point past its maximum age is marked STALE with oldData, once. PS_READ_POINTS answers up to
1,024 records as presented, after what the guard code finds; a list that is too long is BAD_PARAM, a store that is not ready NOT_READY, an
index that may not be read DENIED, counted. PS_WRITE sends the parts it may write as one batch; PS_FORCE_SET and PS_FORCE_CLEAR set and
clear forces part by part, a force on a point of another owner DENIED, one beyond the store or the share QUOTA; more than 64 entries are
BAD_PARAM. PS_FORCE_LIST answers the current or the dropped forces. Definitions in it hold choices of the model: log 141. -/
def Obligations.PointsAreWritten : Prop :=
  (∀ (s u : State) (b : Batch) (l : List Batch) (w : LT), s.ps.ready = true → s.ps.waiting = b :: l →
     u = offerHeld (onPs (fun x => { x with waiting := l, maxWait := if x.maxWait.toNat < (ltDiff s.now b.arrived).toNat / 65536 then BitVec.ofNat 32 ((ltDiff s.now b.arrived).toNat / 65536) else x.maxWait }) s) →
     b.visible = some w → exec .batchApply s = .next (onPs (fun x => { x with held := x.held ++ [b] }) u)) ∧
  (∀ (s u : State) (b : Batch) (l : List Batch), s.ps.ready = true → s.ps.waiting = b :: l →
     u = offerHeld (onPs (fun x => { x with waiting := l, maxWait := if x.maxWait.toNat < (ltDiff s.now b.arrived).toNat / 65536 then BitVec.ofNat 32 ((ltDiff s.now b.arrived).toNat / 65536) else x.maxWait }) s) →
     b.visible = none → b.release = none → exec .batchApply s = .next (cabFresh b (applyBatch b u))) ∧
  (∀ (s u : State) (b : Batch) (l : List Batch) (g k : Nat) (t : LT), s.ps.ready = true → s.ps.waiting = b :: l →
     u = offerHeld (onPs (fun x => { x with waiting := l, maxWait := if x.maxWait.toNat < (ltDiff s.now b.arrived).toNat / 65536 then BitVec.ofNat 32 ((ltDiff s.now b.arrived).toNat / 65536) else x.maxWait }) s) →
     b.visible = none → b.release = some (g, k, t) → exec .batchApply s = .next (releaseSample g k t (cabFresh b (applyBatch b u)))) ∧
  (∀ (s : State), s.ps.ready = false ∨ s.ps.waiting = [] → exec .batchApply s = .next s) ∧
  (∀ (s : State) (w : PtWrite) (r : PointRec), writerOk s w.index w.writer = true → getPoint s w.index = some r →
     (writePoint w s).ps.recs.get? w.index = some { r with value := normalise r.type w.value, lt := w.lt, quality := w.quality &&& 0x3FFF, flags := ptFlags (writerCode w.writer) false false, seq := r.seq + 1, bad := false } ∧ (writePoint w s).ps.updates = s.ps.updates + 1 ∧ (∀ i, i ≠ w.index → (writePoint w s).ps.recs.get? i = s.ps.recs.get? i)) ∧
  (∀ (s : State) (w : PtWrite), writerOk s w.index w.writer = false →
     (writePoint w s).ps.denied = true ∧ (writePoint w s).ps.deniedCtr = s.ps.deniedCtr + 1 ∧ (writePoint w s).ps.recs = s.ps.recs) ∧
  (∀ (s : State) (i : Nat) (r : PointRec) (d : PointDef), getPoint s i = some r → s.ps.defs.get? i = some d →
     d.staleAge ≠ 0 ∧ r.flags.getLsbD 5 = false ∧ (msTu d.staleAge : Int) < ltDiff s.now r.lt →
     exec (.staleMark i) s = .next (gooseDetect i s.now s (onPs (fun x => { x with recs := x.recs.put i { r with quality := worseQuestionable r.quality ||| qOldData, flags := r.flags ||| 32, seq := r.seq + 1 }, staleMark := true, staleMarks := x.staleMarks + 1 }) s))) ∧
  (∀ (s : State) (i : Nat),
     (∀ r d, getPoint s i = some r → s.ps.defs.get? i = some d → ¬(d.staleAge ≠ 0 ∧ r.flags.getLsbD 5 = false ∧ (msTu d.staleAge : Int) < ltDiff s.now r.lt)) →
     exec (.staleMark i) s = .next s) ∧
  (∀ (s : State) (c : Cmd) (l : List Nat) (g f : List (Nat × GuardFind)), runs 0x0A10 true c s = true → l.length ≤ 1024 →
     (entered 0x0A10 c s).ps.ready = true → l.all (fun i => pointReadable (entered 0x0A10 c s) (issuer c) i) = true →
     exec (.psReadPoints c l g f) s = answered 0x0A10 c { buf := .bytes ((l.filterMap (presented (pointGuards (issuer c) (g.filter (fun e => l.contains e.1)) (f.filter (fun e => l.contains e.1)) (entered 0x0A10 c s)))).flatMap pointBytes) } (pointGuards (issuer c) (g.filter (fun e => l.contains e.1)) (f.filter (fun e => l.contains e.1)) (entered 0x0A10 c s))) ∧
  (∀ (s : State) (c : Cmd) (l : List Nat) (g f : List (Nat × GuardFind)), runs 0x0A10 true c s = true → 1024 < l.length →
     exec (.psReadPoints c l g f) s = answered 0x0A10 c (st .badParam) (entered 0x0A10 c s)) ∧
  (∀ (s : State) (c : Cmd) (l : List Nat) (g f : List (Nat × GuardFind)), runs 0x0A10 true c s = true → l.length ≤ 1024 →
     (entered 0x0A10 c s).ps.ready = false → exec (.psReadPoints c l g f) s = answered 0x0A10 c (st .notReady) (entered 0x0A10 c s)) ∧
  (∀ (s : State) (c : Cmd) (l : List Nat) (g f : List (Nat × GuardFind)), runs 0x0A10 true c s = true → l.length ≤ 1024 →
     (entered 0x0A10 c s).ps.ready = true → l.all (fun i => pointReadable (entered 0x0A10 c s) (issuer c) i) = false →
     exec (.psReadPoints c l g f) s = answered 0x0A10 c (st .denied) ((l.filter (fun i => !pointReadable (entered 0x0A10 c s) (issuer c) i)).foldl (fun s _ => readDenied s) (entered 0x0A10 c s))) ∧
  (∀ (s : State) (c : Cmd) (l : List (Nat × BitVec 64 × Quality)) (m : BitVec 64), runs 0x0A11 true c s = true → l.length ≤ 64 →
     exec (.psWrite c l m) s = answered 0x0A11 c (multipart m (fun n s => (countRefused (psWritePart c l n s) s, psWritePart c l n s, [])) (entered 0x0A11 c s)).2 (sendBatch .su (((maskParts m).filter (fun n => psWritePart c l n (entered 0x0A11 c s) == .ok)).filterMap (fun n => (l[n]?).map (fun e => { index := e.1, value := e.2.1, quality := e.2.2, lt := (entered 0x0A11 c s).now, writer := .host }))) (multipart m (fun n s => (countRefused (psWritePart c l n s) s, psWritePart c l n s, [])) (entered 0x0A11 c s)).1)) ∧
  (∀ (s : State) (c : Cmd) (l : List (Nat × BitVec 64 × Quality)) (m : BitVec 64), runs 0x0A12 true c s = true → l.length ≤ 64 →
     exec (.psForceSet c l m) s = answered 0x0A12 c (multipart m (fun n s => match l[n]? with | none => (s, .badParam, []) | some e => ((setForce c e s).1, (setForce c e s).2, [])) (entered 0x0A12 c s)).2 (multipart m (fun n s => match l[n]? with | none => (s, .badParam, []) | some e => ((setForce c e s).1, (setForce c e s).2, [])) (entered 0x0A12 c s)).1) ∧
  (∀ (s : State) (c : Cmd) (l : List Nat) (m : BitVec 64), runs 0x0A13 true c s = true → l.length ≤ 64 →
     exec (.psForceClear c l m) s = answered 0x0A13 c (multipart m (fun n s => match l[n]? with | none => (s, .badParam, []) | some i => ((clearForce c i s).1, (clearForce c i s).2, [])) (entered 0x0A13 c s)).2 (multipart m (fun n s => match l[n]? with | none => (s, .badParam, []) | some i => ((clearForce c i s).1, (clearForce c i s).2, [])) (entered 0x0A13 c s)).1) ∧
  (∀ (s : State) (c : Cmd) (l : List (Nat × BitVec 64 × Quality)) (m : BitVec 64) (k : List Nat),
     (runs 0x0A11 true c s = true → 64 < l.length → exec (.psWrite c l m) s = answered 0x0A11 c (st .badParam) (entered 0x0A11 c s)) ∧ (runs 0x0A12 true c s = true → 64 < l.length → exec (.psForceSet c l m) s = answered 0x0A12 c (st .badParam) (entered 0x0A12 c s)) ∧ (runs 0x0A13 true c s = true → 64 < k.length → exec (.psForceClear c k m) s = answered 0x0A13 c (st .badParam) (entered 0x0A13 c s))) ∧
  (∀ (s : State) (c : Cmd) (e : Nat × BitVec 64 × Quality) (r : PointRec), getPoint s e.1 = some r → (issuer c = 0 ∨ r.owner = issuer c) →
     (s.ps.force.del e.1).length < 16384 → ((s.ps.force.del e.1).filter (fun f => f.2.setter == issuer c)).length < forceShare s (issuer c) →
     (setForce c e s).2 = .ok ∧ ((setForce c e s).1.ps.force.get? e.1).map (fun f => (f.value, f.quality, f.setter, f.lt)) = some (normalise r.type e.2.1, storeQuality e.2.2, issuer c, s.now)) ∧
  (∀ (s : State) (c : Cmd) (e : Nat × BitVec 64 × Quality),
     (getPoint s e.1 = none → setForce c e s = (s, .badParam)) ∧ ∀ r, getPoint s e.1 = some r → (¬(issuer c = 0 ∨ r.owner = issuer c) → setForce c e s = (s, .denied)) ∧ ((issuer c = 0 ∨ r.owner = issuer c) → (16384 ≤ (s.ps.force.del e.1).length ∨ forceShare s (issuer c) ≤ ((s.ps.force.del e.1).filter (fun f => f.2.setter == issuer c)).length) → setForce c e s = (onPs (fun x => { x with forceFull := true }) s, .quota))) ∧
  (∀ (s : State) (c : Cmd) (i : Nat), issuer c = 0 ∨ ((getPoint s i).map (·.owner)).getD 0xFF = issuer c →
     (s.ps.force.get? i = none → clearForce c i s = (s, .stale)) ∧ ((s.ps.force.get? i).isSome = true → (clearForce c i s).2 = .ok ∧ (clearForce c i s).1.ps.force = s.ps.force.del i)) ∧
  (∀ (s : State) (c : Cmd), runs 0x0A14 true c s = true →
     exec (.psForceListCurrent c) s = answered 0x0A14 c { buf := .bytes ((sortBy (·.1) (listable c (entered 0x0A14 c s) (entered 0x0A14 c s).ps.force)).flatMap (forceBytes false)) } (entered 0x0A14 c s)) ∧
  (∀ (s : State) (c : Cmd), runs 0x0A14 true c s = true →
     exec (.psForceListDropped c) s = answered 0x0A14 c { buf := .bytes ((listable c (entered 0x0A14 c s) (entered 0x0A14 c s).ps.dropped).flatMap (forceBytes true)) } (entered 0x0A14 c s))

/-- A heartbeat leaves 9.99 µs or more after the last one and says what brxHeader and R420 give. Of a message FO takes, with the link up, what
the guard code finds in its words, and the CLAIM of a header it can read; one that is whole (brxHeard) then has its type's effect, any
other no more: a heartbeat (captured by TCC14) measures the offset, becomes the partner's state, arbitrates a start-up, resolves a split
and is followed by an epoch reset, the gates, R431 and the replies of swaps; RELINQUISH lets an eligible STANDBY unit form its claim;
GOOSE_ST is recorded and followed unless ACTIVE; REPL, TASKS and REPL_END enter the replication of their boundary in a unit that receives.
A partner present is lost 45 µs after its last heartbeat, or with the link. The ACTIVE unit sends the newest capture once, REPL_END last;
a receiving unit applies what was complete before the frame. Nothing happens otherwise. Definitions in it hold choices of the model: log
21, 27, 28, 117. -/
def Obligations.FailoverMessages : Prop :=
  (∀ (s : State), (nsTu 9990 : Int) ≤ ltDiff s.now s.fo.hbTxAt →
     exec .heartbeatTx s = .next (emit (.brixig (brxHeartbeat { brxHeader s with txLt := s.now, echoTx := s.fo.hb.txLt, echoRx := s.fo.hbAt, configTag := s.fo.cfg.configTag, diag := diagBits s })) (onFo (fun f => { f with hbTxAt := s.now, txSeq := f.txSeq + 1 }) s))) ∧
  (∀ (s : State), ltDiff s.now s.fo.hbTxAt < (nsTu 9990 : Int) → exec .heartbeatTx s = .next s) ∧
  (∀ (s : State) (w : BrxWords) (h : List Byte) (p : List (Vector Byte 36)), brxHeard 0x01 w s = some (h, p) →
     exec (.heartbeatRx w) s = .next (swapReplies (brxReadBeat h (p.flatMap brxData)) (actOnTrigger (setGates (epochTry (resolveSplit ((brxTaken 0x01 w s).fo.partner != .present || !(brxTaken 0x01 w s).fo.hb.active) (brxReadBeat h (p.flatMap brxData)) (arbitrate (brxReadBeat h (p.flatMap brxData)) (onFo (fun f => { f with ctr := vadd (vadd f.ctr 0 1) 1 (draw (recordEdge 14 (brxTaken 0x01 w s).now (brxTaken 0x01 w s))).1, hb := (brxReadBeat h (p.flatMap brxData)), hbAt := wholeNs (brxTaken 0x01 w s).now, partner := .present, witnessHeld := false }) (measureOffset (brxReadBeat h (p.flatMap brxData)) (wholeNs (brxTaken 0x01 w s).now) (draw (recordEdge 14 (brxTaken 0x01 w s).now (brxTaken 0x01 w s))).2))))))))) ∧
  (∀ (s : State) (w : BrxWords), brxHeard 0x01 w s = none → exec (.heartbeatRx w) s = .next (brxTaken 0x01 w s)) ∧
  (∀ (s : State) (m : BrxMsg),
     (s.fo.state ≠ .start ∨ s.fo.discoverAt = none → arbitrate m s = s) ∧ (s.fo.state = .start → s.fo.discoverAt.isSome = true → (m.active = true → arbitrate m s = setRole .standby (endArbitration s)) ∧ (m.active = false → s.fo.cfg.prio.toNat < (partnerPrio s).toNat → arbitrate m s = setRole .standby (endArbitration s)) ∧ (m.active = false → (partnerPrio s).toNat < s.fo.cfg.prio.toNat → arbitrate m s = if s.fo.eMem = 0xFFFFFF then s else formClaim false (endArbitration s)))) ∧
  (∀ (s : State) (m : BrxMsg) (k : Bool),
     (s.fo.state ≠ .active ∨ m.active = false → resolveSplit k m s = s) ∧ (s.fo.state = .active → m.active = true → m.claim.toNat ≤ s.fo.claim.toNat → resolveSplit false m s = s) ∧ (s.fo.state = .active → m.active = true → s.fo.claim.toNat < m.claim.toNat → resolveSplit false m s = yieldClaim s)) ∧
  (∀ (s : State), (usTu 45 : Int) ≤ ltDiff s.now s.fo.hbAt → s.fo.partner = .present →
     exec .partnerLost s = .next (losePartner s) ∧ (losePartner s).fo.partnerLost = true ∧ (losePartner s).fo.frozenElig = eligible s) ∧
  (∀ (s : State), ltDiff s.now s.fo.hbAt < (usTu 45 : Int) ∨ s.fo.partner ≠ .present → exec .partnerLost s = .next s) ∧
  (∀ (s : State),
     exec (.brixigLinkState true) s = .next (onFo (fun f => { f with linkUp := true }) s) ∧ exec (.brixigLinkState false) s = .next (losePartner (onFo (fun f => { f with linkUp := false }) s))) ∧
  (∀ (s : State) (w : BrxWords) (h : List Byte) (p : List (Vector Byte 36)), brxHeard 0x02 w s = some (h, p) →
     exec (.relinquishRx w) s = .next (if (brxTaken 0x02 w s).fo.state = .standby ∧ eligible (brxTaken 0x02 w s) = true then formClaim true (brxTaken 0x02 w s) else (brxTaken 0x02 w s))) ∧
  (∀ (s : State) (w : BrxWords), brxHeard 0x02 w s = none → exec (.relinquishRx w) s = .next (brxTaken 0x02 w s)) ∧
  (∀ (s : State) (w : BrxWords) (h : List Byte) (p : List (Vector Byte 36)), brxHeard 0x03 w s = some (h, p) →
     exec (.gooseStRx w) s = .next (if (brxTaken 0x03 w s).fo.state = .active then (brxTaken 0x03 w s) else (gooseEntries h (p.flatMap brxData)).foldl (fun s e => followGoose e.1 e.2 s) (onFo (fun f => { f with goStRx := (gooseEntries h (p.flatMap brxData)).foldl (fun t e => t.put e.1 e.2) f.goStRx }) (brxTaken 0x03 w s)))) ∧
  (∀ (s : State) (w : BrxWords), brxHeard 0x03 w s = none → exec (.gooseStRx w) s = .next (brxTaken 0x03 w s)) ∧
  (∀ (s : State) (w : BrxWords) (h : List Byte) (p : List (Vector Byte 36)), brxHeard 0x04 w s = some (h, p) →
     exec (.replRx w) s = .next (modRx (brxBoundary h) (fun r => { r with chunks := r.chunks ++ replWords (brxArg h 2 / 131072 % 64) (brxArg h 2 % 131072) p, count := r.count + p.length }) (brxTaken 0x04 w s))) ∧
  (∀ (s : State) (w : BrxWords), brxHeard 0x04 w s = none → exec (.replRx w) s = .next (brxTaken 0x04 w s)) ∧
  (∀ (s : State) (w : BrxWords) (h : List Byte) (p : List (Vector Byte 36)), brxHeard 0x05 w s = some (h, p) →
     exec (.tasksRx w) s = .next (modRx (brxBoundary h) (fun r => { r with tasks := r.tasks ++ taskEntriesRx (p.flatMap brxData), count := r.count + p.length }) (brxTaken 0x05 w s))) ∧
  (∀ (s : State) (w : BrxWords), brxHeard 0x05 w s = none → exec (.tasksRx w) s = .next (brxTaken 0x05 w s)) ∧
  (∀ (s : State) (w : BrxWords) (h : List Byte) (p : List (Vector Byte 36)), brxHeard 0x06 w s = some (h, p) →
     exec (.replEndRx w) s = .next (modRx (brxBoundary h) (fun r => if r.count = brxArg h 2 then { r with completeAt := some (brxTaken 0x06 w s).now } else r) (brxTaken 0x06 w s))) ∧
  (∀ (s : State) (w : BrxWords), brxHeard 0x06 w s = none → exec (.replEndRx w) s = .next (brxTaken 0x06 w s)) ∧
  (∀ (s : State) (t : LT) (f : ReplRx → ReplRx),
     (s.fo.state = .standby ∨ s.fo.state = .relinquished → modRx t f s = onFo (fun x => { x with repl := { x.repl with rx := x.repl.rx.upd t {} f } }) s) ∧ (s.fo.state ≠ .standby → s.fo.state ≠ .relinquished → modRx t f s = s)) ∧
  (∀ (s : State) (b : LT) (cap : List ReplChunk) (l : List (LT × List ReplChunk)), s.fo.repl.captures = (b, cap) :: l → s.fo.state = .active →
     s.fo.repl.sent = false → s.fo.linkUp = true →
     (∃ o n, exec .replTransmit s = .next { s with out := o ++ s.out, fo := { s.fo with txSeq := n, repl := { s.fo.repl with sent := true } } } ∧ ∃ m, o.head? = some (.brixig (brxReplEnd b ((cap.map (fun c => ceilDiv c.data.length 32)).sum + ceilDiv (taskOffsets s).length 2) m)))) ∧
  (∀ (s : State), s.fo.repl.captures = [] ∨ s.fo.state ≠ .active ∨ s.fo.repl.sent = true ∨ s.fo.linkUp = false → exec .replTransmit s = .next s) ∧
  (∀ (s : State), receivesRepl s = true →
     exec .replApply s = .next ((s.fo.repl.rx.filter (fun e => e.2.completeAt.any (fun t => decide (0 < ltDiff s.fb.frameLt t)))).reverse.foldl (fun s e => applyRepl e s) s)) ∧
  (∀ (s : State), receivesRepl s = false → exec .replApply s = .next s)

/-- A START unit without a partner forms its claim when the discovery time is over. A held takeover is judged again: formed where the witness
is clear, kept held where it is not, dropped by a unit that may not take over. The handover time ends with a new state of every block that
may publish. WATCHDOG is set after its staged time, TIME_SV once its condition has held for T_diag. EPOCH_RST clears where the partner and
the claims heard allow it; a STANDBY unit with a claim due then forms it, where the partner is not present, or not active and of lower
PRIO. The swaps due at the frame give up control, or are NOT_READY. FO_WDOG restarts the watchdog and ends its trigger. FO_RELINQUISH and
FO_SWAP need an ACTIVE unit (a swap also an eligible partner free of triggers; BUSY while a segment starts up or recovers; its reply
waits), FO_REARM a RELINQUISHED one; FO_EPOCH_RESET is BUSY while a unit is ACTIVE; FO_READ_PAIR answers the registers and the last
heartbeat. A claim is E_mem + 1 with the unit's PRIO, and none is formed at 0xFF_FFFF. Nothing happens otherwise. Definitions in it hold
choices of the model: log 21, 102, 112, 124. -/
def Obligations.FailoverRoles : Prop :=
  (∀ (s : State) (t : LT), s.fo.discoverAt = some t → s.fo.state = .start → s.fo.partner ≠ .present → ltReached s.now t = true →
     s.fo.eMem ≠ 0xFFFFFF → exec .discoveryTimeout s = .next (formClaim false (onFo (fun f => { f with discoverAt := none }) s))) ∧
  (∀ (s : State),
     (∀ t, s.fo.discoverAt = some t → s.fo.state ≠ .start ∨ s.fo.partner = .present ∨ ltReached s.now t = false ∨ s.fo.eMem = 0xFFFFFF) →
     exec .discoveryTimeout s = .next s) ∧
  (∀ (s : State), s.fo.witnessHeld = true → s.fo.state = .standby → s.fo.partner = .lost → eligible s = true → witnessClear s = true →
     exec .witnessClear s = .next (formClaim true s)) ∧
  (∀ (s : State), s.fo.witnessHeld = true → s.fo.state = .standby → s.fo.partner = .lost → eligible s = true → witnessClear s = false →
     exec .witnessClear s = .next (onFo (fun f => { f with witnessHeld := true }) s)) ∧
  (∀ (s : State), s.fo.witnessHeld = true → s.fo.state ≠ .standby ∨ s.fo.partner ≠ .lost ∨ eligible s = false →
     exec .witnessClear s = .next (onFo (fun f => { f with witnessHeld := false }) s)) ∧
  (∀ (s : State), s.fo.witnessHeld = false → exec .witnessClear s = .next s) ∧
  (∀ (s : State) (t : LT), s.fo.handoverAt = some t → ltReached s.now t = true →
     exec .handoverEnd s = .next ((List.range 256).foldl (fun u p => if mayPublish u p then newGoState p s.fo.claimAt true u else u) (onFo (fun f => { f with handoverAt := none, streamFrom := some t }) s))) ∧
  (∀ (s : State), (∀ t, s.fo.handoverAt = some t → ltReached s.now t = false) → exec .handoverEnd s = .next s) ∧
  (∀ (s : State), (msTu s.fo.cfg.wdogMs : Int) ≤ ltDiff s.now s.fo.wdogAt → exec .watchdogExpiry s = .next (setTrigger 3 true s)) ∧
  (∀ (s : State), ltDiff s.now s.fo.wdogAt < (msTu s.fo.cfg.wdogMs : Int) → exec .watchdogExpiry s = .next s) ∧
  (∀ (s : State) (t : Nat), s.fo.timeSvSince = some t → timeSvCond s = true → t + msTu s.fo.cfg.tDiagMs ≤ s.abs →
     exec .timeSvTrigger s = .next (setTrigger 2 s.fo.cfg.timeSvEn s)) ∧
  (∀ (s : State), (∀ t, s.fo.timeSvSince = some t → timeSvCond s = false ∨ s.abs < t + msTu s.fo.cfg.tDiagMs) → exec .timeSvTrigger s = .next s) ∧
  (∀ (s : State), s.fo.epochRst = true → (partnerReset s && claimsForgotten s) = true →
     exec .epochResetWindow s = exec .epochResetWindow (onFo (fun f => { f with epochRst := false }) s)) ∧
  (∀ (s : State), s.fo.epochRst = true → (partnerReset s && claimsForgotten s) = false → exec .epochResetWindow s = .next s) ∧
  (∀ (s : State), s.fo.epochRst = false →
     s.fo.epochClaimDue = true ∧ claimsForgotten s = true ∧ s.fo.state = .standby ∧ (s.fo.partner ≠ .present ∨ s.fo.hb.active = false ∧ (partnerPrio s).toNat < s.fo.cfg.prio.toNat) →
     exec .epochResetWindow s = .next (formClaim true s)) ∧
  (∀ (s : State), s.fo.epochRst = false →
     ¬(s.fo.epochClaimDue = true ∧ claimsForgotten s = true ∧ s.fo.state = .standby ∧ (s.fo.partner ≠ .present ∨ s.fo.hb.active = false ∧ (partnerPrio s).toNat < s.fo.cfg.prio.toNat)) →
     exec .epochResetWindow s = .next s) ∧
  (∀ (s : State),
     exec .swapBoundary s = .next ((s.fo.swapAt.filter (fun e => ltReached s.fb.frameLt e.1)).foldl (fun s e => doSwap e.2 s) (onFo (fun f => { f with swapAt := f.swapAt.filter (fun e => !ltReached s.fb.frameLt e.1) }) s))) ∧
  (∀ (s : State) (w : Waiting),
     (s.fo.state = .active → doSwap w s = relinquish 6 .standby (onFo (fun f => { f with swapWait := f.swapWait ++ [(s.fo.claim, w)] }) s)) ∧ (s.fo.state ≠ .active → doSwap w s = reply w (st .notReady) s)) ∧
  (∀ (s : State), exec .foWdogWrite s = .next (onFo (fun f => { f with wdogAt := s.now, diag := f.diag &&& 7 }) s)) ∧
  (∀ (s : State) (c : Cmd), runs 0x0E10 false c s = true → (entered 0x0E10 c s).fo.state = .active →
     exec (.foRelinquish c) s = answered 0x0E10 c (st .ok) (relinquish 5 .relinquished (entered 0x0E10 c s))) ∧
  (∀ (s : State) (c : Cmd), runs 0x0E10 false c s = true → (entered 0x0E10 c s).fo.state ≠ .active →
     exec (.foRelinquish c) s = answered 0x0E10 c (st .notReady) (entered 0x0E10 c s)) ∧
  (∀ (s : State) (c : Cmd), runs 0x0E11 false c s = true → (entered 0x0E11 c s).fo.state = .active →
     (entered 0x0E11 c s).fo.partner = .present → (entered 0x0E11 c s).fo.hb.eligible = true → (entered 0x0E11 c s).fo.hb.diag = 0 →
     segBusy (entered 0x0E11 c s) = false →
     exec (.foSwap c) s = .next (outstanding { cmd := c, opcode := 0x0E11 } (onFo (fun f => { f with swapAt := f.swapAt ++ [(ltAdd (entered 0x0E11 c s).now (msTu 1), { cmd := c, opcode := 0x0E11 })] }) (entered 0x0E11 c s)))) ∧
  (∀ (s : State) (c : Cmd), runs 0x0E11 false c s = true → (entered 0x0E11 c s).fo.state = .active →
     (entered 0x0E11 c s).fo.partner = .present → (entered 0x0E11 c s).fo.hb.eligible = true → (entered 0x0E11 c s).fo.hb.diag = 0 →
     segBusy (entered 0x0E11 c s) = true → exec (.foSwap c) s = answered 0x0E11 c (st .busy) (entered 0x0E11 c s)) ∧
  (∀ (s : State) (c : Cmd), runs 0x0E11 false c s = true →
     (entered 0x0E11 c s).fo.state ≠ .active ∨ (entered 0x0E11 c s).fo.partner ≠ .present ∨ (entered 0x0E11 c s).fo.hb.eligible = false ∨ (entered 0x0E11 c s).fo.hb.diag ≠ 0 →
     exec (.foSwap c) s = answered 0x0E11 c (st .notReady) (entered 0x0E11 c s)) ∧
  (∀ (s : State) (c : Cmd), runs 0x0E12 false c s = true → (entered 0x0E12 c s).fo.state = .relinquished →
     exec (.foRearm c) s = answered 0x0E12 c (st .ok) (setRole .standby (onFo (fun f => { f with diag := f.diag &&& ~~~2 }) (entered 0x0E12 c s)))) ∧
  (∀ (s : State) (c : Cmd), runs 0x0E12 false c s = true → (entered 0x0E12 c s).fo.state ≠ .relinquished →
     exec (.foRearm c) s = answered 0x0E12 c (st .notReady) (entered 0x0E12 c s)) ∧
  (∀ (s : State) (c : Cmd), runs 0x0E13 false c s = true → (entered 0x0E13 c s).fo.state ≠ .active →
     (entered 0x0E13 c s).fo.partner ≠ .present ∨ (entered 0x0E13 c s).fo.hb.active = false →
     exec (.foEpochReset c) s = answered 0x0E13 c (st .ok) (onFo (fun f => { f with eMem := 0, epochRst := true, epochClaimDue := true }) (entered 0x0E13 c s))) ∧
  (∀ (s : State) (c : Cmd), runs 0x0E13 false c s = true →
     (entered 0x0E13 c s).fo.state = .active ∨ ((entered 0x0E13 c s).fo.partner = .present ∧ (entered 0x0E13 c s).fo.hb.active = true) →
     exec (.foEpochReset c) s = answered 0x0E13 c (st .busy) (entered 0x0E13 c s)) ∧
  (∀ (s : State) (c : Cmd), runs 0x0E14 true c s = true →
     exec (.foReadPair c) s = answered 0x0E14 c { buf := .recs [[(foStatus s).toNat, (claimReg s).toNat, s.fo.hb.claim.toNat, (foDiag s).toNat, s.fo.ltOffset.toNat], heartbeatRec s.fo.hb] } (entered 0x0E14 c s)) ∧
  (∀ (s : State) (k : Bool),
     (s.fo.eMem = 0xFFFFFF → formClaim k s = s) ∧ (s.fo.eMem ≠ 0xFFFFFF → (formClaim k s).fo.state = .active ∧ (formClaim k s).fo.eMem = s.fo.eMem + 1 ∧ (formClaim k s).fo.claim = (s.fo.eMem + 1).zeroExtend 32 <<< 8 ||| s.fo.cfg.prio.zeroExtend 32))

/-- The die takes the oldest tap frame and discards and counts its bad words; a whole frame of 1 to 8 ASDUs with a Layer 2 address gives its
samples to every metering point under the selections it matches. A time record is taken, or discarded and counted where bad; it is in
force, and one that is TAI_VALID sets TIME_OK, which ends 2 s after the last. A due instant is processed with the complete ones behind it.
A point without a crossing by T_ZC closes its period there; one without a sample for 1 s is held, which is shown. Registers are saved on
REGISTER_SAVE and, before the power goes, on POWER_FAIL_SAVE. Power-up restores every register from the newest complete save the words
found bad leave, else 0. The seal switch is followed; opened in SEALED it unseals. The main die, while it runs, stores the oldest mailbox
update but for its bad words, which it counts, and is ALIVE until 1 s without one. Nothing else happens otherwise. Definitions in it hold
choices of the model: log 55, 60, 95, 112, 143, 146, 147. -/
def Obligations.MetrologyFollowsTheTap : Prop :=
  (∀ (s : State) (f : SvFrame) (bad : Nat) (x : Frame) (r : LT) (g : Tag) (l : List (Frame × LT × Tag)), s.px.tapLink = (x, r, g) :: l →
     bad ≠ 0 →
     exec (.miTapFrame f bad) s = .next { s with px := { s.px with tapLink := l }, mi := { s.mi with tapDiscard := s.mi.tapDiscard + BitVec.ofNat 32 bad } }) ∧
  (∀ (s : State) (f : SvFrame) (bad : Nat) (x : Frame) (r : LT) (g : Tag) (l : List (Frame × LT × Tag)) (d : BitVec 48) (a : BitVec 16) (v : Option (BitVec 12)),
     s.px.tapLink = (x, r, g) :: l → bad = 0 → miMetering s = true → f.formOk = true → f.asdus ≠ [] → f.asdus.length ≤ 8 → f.key = .l2 d a v →
     ∀ t, t = { s with px := { s.px with tapLink := l } } → exec (.miTapFrame f bad) s = .next (f.asdus.foldl (fun s b => (List.range 8).foldl (fun u p => if ptOn u p then ((((List.range 16).zip (tapSels (miSet t))).filterMap (fun e => if e.2.valid ∧ e.2.dst = d ∧ e.2.appid = a then some e.1 else none))).foldl (fun u i => pointAsdu p i r b u) u else u) s) t)) ∧
  (∀ (s : State) (f : SvFrame) (bad : Nat) (x : Frame) (r : LT) (g : Tag) (l : List (Frame × LT × Tag)), s.px.tapLink = (x, r, g) :: l →
     bad = 0 → (miMetering s = false ∨ f.formOk = false ∨ f.asdus = [] ∨ 8 < f.asdus.length ∨ ∀ d a v, f.key ≠ .l2 d a v) →
     exec (.miTapFrame f bad) s = .next { s with px := { s.px with tapLink := l } }) ∧
  (∀ (s : State) (f : SvFrame) (bad : Nat) (b : Bool) (n : List Nat),
     (s.px.tapLink = [] → exec (.miTapFrame f bad) s = .next s) ∧ (s.mi.timeLink = [] → exec (.miTimeRecord b) s = .next s) ∧ (s.mi.mailLink = [] → exec (.mailboxUpdate n) s = .next s)) ∧
  (∀ (s : State) (bad : Bool) (r : TimeRec) (g : Tag) (l : List (TimeRec × Tag)), s.mi.timeLink = (r, g) :: l → bad = false →
     s.mi.powered = true →
     ∃ t, exec (.miTimeRecord bad) s = .next t ∧ t.mi.timeOk = (s.mi.timeOk || r.taiValid) ∧ t.mi.timeLink = l ∧ t.mi.timeAt = (if r.taiValid then s.abs else s.mi.timeAt) ∧ t.mi.timeRec = some r) ∧
  (∀ (s : State) (bad : Bool) (r : TimeRec) (g : Tag) (l : List (TimeRec × Tag)), s.mi.timeLink = (r, g) :: l →
     (bad = true → exec (.miTimeRecord bad) s = .next (onMi (fun m => { m with timeLink := l, tapDiscard := m.tapDiscard + 1 }) s)) ∧ (bad = false → s.mi.powered = false → exec (.miTimeRecord bad) s = .next (onMi (fun m => { m with timeLink := l }) s))) ∧
  (∀ (s : State), s.mi.powered = true → s.mi.timeOk = true → s.mi.timeAt + secTu 2 ≤ s.abs →
     exec .timeOkTimeout s = .next (miLog 0x0023 0xFF 0 0 (onMi (fun m => { m with timeOk := false }) s))) ∧
  (∀ (s : State), s.mi.powered = false ∨ s.mi.timeOk = false ∨ s.abs < s.mi.timeAt + secTu 2 → exec .timeOkTimeout s = .next s) ∧
  (∀ (s : State) (p : Fin 8) (i : MiInst) (l : List MiInst), (getPt s p.val).waiting = i :: l → ptOn s p.val = true →
     ltReached s.now (ltAdd i.tFirst (usTu (10 * p16 (miSet s) (pPoint p.val + 2)))) = true →
     exec (.miInstantClose p) s = .next (closeFull p.val (getPt (closeInstant p.val s) p.val).waiting.length (closeInstant p.val s))) ∧
  (∀ (s : State) (p : Fin 8),
     (∀ i l, (getPt s p.val).waiting = i :: l → ptOn s p.val = false ∨ ltReached s.now (ltAdd i.tFirst (usTu (10 * p16 (miSet s) (pPoint p.val + 2)))) = false) →
     exec (.miInstantClose p) s = .next s) ∧
  (∀ (s : State) (p : Fin 8) (e : LT), e = ltAdd (getPt s p.val).zcLast (msTu (10 * pByte (miSet s) (pPoint p.val + 0xD))) →
     ptOn s p.val = true →
     ((∃ m, (getPt s p.val).corr.head? = some m ∧ (ltReached m.tag e = true ∨ (((getPt s p.val).tapLost = true ∨ (getPt s p.val).gapFrom.isSome = true) ∧ ltReached s.now e = true))) ∨ ((getPt s p.val).corr.head? = none ∧ ltReached s.now e = true)) →
     exec (.zcTimeout p) s = .next (modPt p.val (fun x => { x with period := if x.rawN = 0 then [] else (getPt s p.val).period.filter (fun c => ltReached c.tag e) }) (closePeriod p.val ((getPt s p.val).period.filter (fun c => !ltReached c.tag e)) ((fun u => if !(getPt s p.val).noZc then zcLog p.val 0x0021 u else u) (modPt p.val (fun x => { x with noZc := true, freqInvalid := true, zcFirst := none, zcCount := 0, zcLast := e, zc := .replicate 3 none }) s))))) ∧
  (∀ (s : State) (p : Fin 8) (e : LT), e = ltAdd (getPt s p.val).zcLast (msTu (10 * pByte (miSet s) (pPoint p.val + 0xD))) →
     (ptOn s p.val = false ∨ ¬((∃ m, (getPt s p.val).corr.head? = some m ∧ (ltReached m.tag e = true ∨ (((getPt s p.val).tapLost = true ∨ (getPt s p.val).gapFrom.isSome = true) ∧ ltReached s.now e = true))) ∨ ((getPt s p.val).corr.head? = none ∧ ltReached s.now e = true))) →
     exec (.zcTimeout p) s = .next s) ∧
  (∀ (s : State) (p : Fin 8), ptOn s p.val = true → (getPt s p.val).tapLost = false → (getPt s p.val).lastRx + secTu 1 ≤ s.abs →
     exec (.tapLost p) s = .next (pushPage (pushBlock p.val (modPt p.val (fun x => { x with tapLost := true, ok := false, ptStatus := x.ptStatus ||| 0x80 }) (holdSilent p.val s))))) ∧
  (∀ (s : State) (p : Fin 8), ptOn s p.val = false ∨ (getPt s p.val).tapLost = true ∨ s.abs < (getPt s p.val).lastRx + secTu 1 →
     exec (.tapLost p) s = .next s) ∧
  (∀ (s : State), s.mi.powered = true →
     exec .registerSave s = .next (pushPage (saveRegs true false s)) ∧ (∀ d, exec (.powerFailSave d) s = .next (onMi (fun m => { m with powered := false, downAt := s.abs }) (saveRegs d true s))) ∧ exec .sealClose s = .next (pushPage (onMi (fun m => { m with sealClosed := true }) s))) ∧
  (∀ (s : State), s.mi.powered = true → sealLast s = .sealed →
     exec .sealOpen s = .next (miLog 0x0012 0xFF 0 0 (setSeal .unsealed (onMi (fun m => { m with sealClosed := false, unsealCount := satInc m.unsealCount }) s)))) ∧
  (∀ (s : State), s.mi.powered = true → sealLast s ≠ .sealed →
     exec .sealOpen s = .next (pushPage (onMi (fun m => { m with sealClosed := false }) s))) ∧
  (∀ (s : State), s.mi.powered = false →
     exec .registerSave s = .next s ∧ (∀ d, exec (.powerFailSave d) s = .next s) ∧ exec .sealClose s = .next s ∧ exec .sealOpen s = .next s) ∧
  (∀ (s : State) (b : List (Fin 4)) (k : Bool),
     ∃ t, exec (.miPowerUp b k) s = .next t ∧ t.mi.powered = true ∧ t.mi.sealClosed = k ∧ t.mi.timeOk = false ∧ t.mi.timeRec = none ∧ t.mi.part0 = none ∧ ∀ (p : Fin 8) (n : Fin 10), vget (getPt t p.val).reg n.val {} = match newestSave (onMi (fun m => { m with saves := #v[if b.any (fun i => i.val == 2) then { vget s.mi.saves 0 {} with complete := false } else vget s.mi.saves 0 {}, if b.any (fun i => i.val == 3) then { vget s.mi.saves 1 {} with complete := false } else vget s.mi.saves 1 {}] }) s) with | some v => (v.regs.getD p.val []).getD n.val {} | none => {}) ∧
  (∀ (s : State) (bad : List Nat) (u : MailUpd) (g : Tag) (l : List (MailUpd × Tag)), s.mi.mailLink = (u, g) :: l → s.pa.power ≠ .running →
     exec (.mailboxUpdate bad) s = .next (onMi (fun m => { m with mailLink := l }) s)) ∧
  (∀ (s : State) (bad : List Nat) (u : MailUpd) (g : Tag) (l : List (MailUpd × Tag)), s.mi.mailLink = (u, g) :: l → s.pa.power = .running →
     ((List.range (mailWords u)).filter (fun i => bad.contains i)).length ≠ mailWords u →
     exec (.mailboxUpdate bad) s = .next (storeMail u ((List.range (mailWords u)).filter (fun i => bad.contains i)) (onMi (fun m => { m with mailLink := l, mail := { m.mail with discard := m.mail.discard + BitVec.ofNat 32 ((List.range (mailWords u)).filter (fun i => bad.contains i)).length, alive := true, aliveLt := s.now, aliveAt := s.abs } }) s))) ∧
  (∀ (s : State) (bad : List Nat) (u : MailUpd) (g : Tag) (l : List (MailUpd × Tag)), s.mi.mailLink = (u, g) :: l → s.pa.power = .running →
     ((List.range (mailWords u)).filter (fun i => bad.contains i)).length = mailWords u →
     exec (.mailboxUpdate bad) s = .next (onMi (fun m => { m with mailLink := l, mail := { m.mail with discard := m.mail.discard + BitVec.ofNat 32 ((List.range (mailWords u)).filter (fun i => bad.contains i)).length } }) s)) ∧
  (∀ (s : State), s.mi.mail.alive = true → s.mi.mail.aliveAt + secTu 1 ≤ s.abs →
     exec .mailboxSilent s = .next (raise 0x5A 0 (onMi (fun m => { m with mail := { m.mail with alive := false } }) s))) ∧
  (∀ (s : State), s.mi.mail.alive = false ∨ s.abs < s.mi.mail.aliveAt + secTu 1 → exec .mailboxSilent s = .next s)

/-- A powered die answers a service frame that reads whole and with a right CRC by one response of its command. READ_ID gives versions,
hashes, PCC, UNSEAL_COUNT and state; READ_PARAM 1 to 8,192 bytes within the set. WRITE_PARAM holds its first 4,096 bytes; with the rest,
within 10 s and passing R455, both copies hold the set and PCC counts. SEAL with the switch closed and the right hash seals and is logged;
RESET_REGISTERS resets the points named, CLEAR_LOG empties the log but for its own record, both in UNSEALED; READ_LOG gives 1 to 255
records from one that exists. Refusals: SEALED in that state; LOG_FULL at 4,096 records for WRITE_PARAM, RESET_REGISTERS and a SEAL with
nothing else against it; SEAL_OPEN; HASH_MISMATCH; BAD_PARAM for any other body or state; FRAME_ERR for an unknown command. A part 1 that
is BAD_PARAM ends the part 0 held, and so do 10 s. A frame that does not read, or reaches a die without power, or a byte timeout, does
nothing. Definitions in it hold choices of the model: log 57, 60, 63, 112. -/
def Obligations.MetrologyServicePort : Prop :=
  (∀ (s : State) (f : List Byte), s.mi.powered = true → svcRead f = some (1, []) →
     exec (.readId f) s = served 1 0 (bytesBE 4 Config.miFwVersion.toNat ++ bytesBE 32 (miHash s).toNat ++ bytesBE 32 Config.miFwHash.toNat ++ bytesBE 4 s.mi.pcc.toNat ++ bytesBE 4 s.mi.unsealCount.toNat ++ [BitVec.ofNat 8 (sealCode s.mi.sealSt)]) s) ∧
  (∀ (s : State) (f : List Byte) (b : List Byte), s.mi.powered = true → svcRead f = some (1, b) → b ≠ [] → exec (.readId f) s = served 1 3 [] s) ∧
  (∀ (s : State) (f : List Byte), (s.mi.powered = false ∨ ∀ b, svcRead f ≠ some (1, b)) → exec (.readId f) s = .next s) ∧
  (∀ (s : State) (f : List Byte) (b : List Byte), s.mi.powered = true → svcRead f = some (2, b) → b.length = 4 → 1 ≤ ofBytesBE (b.drop 2) →
     ofBytesBE (b.drop 2) ≤ 8192 → ofBytesBE (b.take 2) + ofBytesBE (b.drop 2) ≤ (miSet s).length →
     exec (.readParam f) s = served 2 0 (((miSet s).drop (ofBytesBE (b.take 2))).take (ofBytesBE (b.drop 2))) s) ∧
  (∀ (s : State) (f : List Byte) (b : List Byte), s.mi.powered = true → svcRead f = some (2, b) →
     b.length ≠ 4 ∨ ofBytesBE (b.drop 2) = 0 ∨ 8192 < ofBytesBE (b.drop 2) ∨ (miSet s).length < ofBytesBE (b.take 2) + ofBytesBE (b.drop 2) →
     exec (.readParam f) s = served 2 3 [] s) ∧
  (∀ (s : State) (f : List Byte), (s.mi.powered = false ∨ ∀ b, svcRead f ≠ some (2, b)) → exec (.readParam f) s = .next s) ∧
  (∀ (s : State) (f : List Byte) (b : List Byte), s.mi.powered = true → svcRead f = some (3, b) → sealLast s = .sealed →
     exec (.writeParam f) s = served 3 1 [] s) ∧
  (∀ (s : State) (f : List Byte) (b : List Byte), s.mi.powered = true → svcRead f = some (3, b) → sealLast s ≠ .sealed →
     4096 ≤ s.mi.log.length → exec (.writeParam f) s = served 3 4 [] s) ∧
  (∀ (s : State) (f : List Byte) (l : List Byte), s.mi.powered = true → svcRead f = some (3, 0 :: l) → sealLast s ≠ .sealed →
     s.mi.log.length < 4096 → l.length = 4096 → exec (.writeParam f) s = served 3 0 [] (onMi (fun m => { m with part0 := some (l, s.abs) }) s)) ∧
  (∀ (s : State) (f : List Byte) (l : List Byte), s.mi.powered = true → svcRead f = some (3, 0 :: l) → sealLast s ≠ .sealed →
     s.mi.log.length < 4096 → l.length ≠ 4096 → exec (.writeParam f) s = served 3 3 [] s) ∧
  (∀ (s : State) (f : List Byte) (l k : List Byte) (a : Nat), s.mi.powered = true → svcRead f = some (3, 1 :: l) → sealLast s ≠ .sealed →
     s.mi.log.length < 4096 → s.mi.part0 = some (k, a) → a + secTu 10 < s.abs ∨ setOk (k ++ l) = false →
     exec (.writeParam f) s = served 3 3 [] (onMi (fun m => { m with part0 := none }) s)) ∧
  (∀ (s : State) (f : List Byte) (b : List Byte), s.mi.powered = true → svcRead f = some (3, b) → sealLast s ≠ .sealed →
     s.mi.log.length < 4096 → (∀ l, b ≠ 0 :: l) → (s.mi.part0 = none ∨ ∀ l, b ≠ 1 :: l) → exec (.writeParam f) s = served 3 3 [] s) ∧
  (∀ (s : State) (f : List Byte), (s.mi.powered = false ∨ ∀ b, svcRead f ≠ some (3, b)) → exec (.writeParam f) s = .next s) ∧
  (∀ (s : State) (f : List Byte) (l k : List Byte) (a : Nat), s.mi.powered = true → svcRead f = some (3, 1 :: l) → sealLast s ≠ .sealed →
     s.mi.log.length < 4096 → s.mi.part0 = some (k, a) → s.abs ≤ a + secTu 10 → setOk (k ++ l) = true →
     ∃ t, exec (.writeParam f) s = served 3 0 [] t ∧ t.mi.pcc = s.mi.pcc + 1 ∧ t.mi.mram = .replicate 2 (some (k ++ l)) ∧ t.mi.part0 = none) ∧
  (∀ (s : State) (f : List Byte) (b : List Byte), s.mi.powered = true → svcRead f = some (4, b) → sealLast s = .sealed →
     exec (.seal_ f) s = served 4 1 [] s) ∧
  (∀ (s : State) (f : List Byte) (b : List Byte), s.mi.powered = true → svcRead f = some (4, b) → sealLast s ≠ .sealed →
     b.length ≠ 32 ∨ sealLast s ≠ .unsealed → exec (.seal_ f) s = served 4 3 [] s) ∧
  (∀ (s : State) (f : List Byte) (b : List Byte), s.mi.powered = true → svcRead f = some (4, b) → b.length = 32 → sealLast s = .unsealed →
     s.mi.sealClosed = false → exec (.seal_ f) s = served 4 5 [] s) ∧
  (∀ (s : State) (f : List Byte) (b : List Byte), s.mi.powered = true → svcRead f = some (4, b) → b.length = 32 → sealLast s = .unsealed →
     s.mi.sealClosed = true → ofBytesBE b ≠ (miHash s).toNat → exec (.seal_ f) s = served 4 6 [] s) ∧
  (∀ (s : State) (f : List Byte) (b : List Byte), s.mi.powered = true → svcRead f = some (4, b) → b.length = 32 → sealLast s = .unsealed →
     s.mi.sealClosed = true → ofBytesBE b = (miHash s).toNat → 4096 ≤ s.mi.log.length → exec (.seal_ f) s = served 4 4 [] s) ∧
  (∀ (s : State) (f : List Byte) (b : List Byte), s.mi.powered = true → svcRead f = some (4, b) → b.length = 32 → sealLast s = .unsealed →
     s.mi.sealClosed = true → ofBytesBE b = (miHash s).toNat → s.mi.log.length < 4096 →
     exec (.seal_ f) s = served 4 0 [] (miLog 0x0011 0xFF 0 (hash8 s) (setSeal .sealed s))) ∧
  (∀ (s : State) (f : List Byte), (s.mi.powered = false ∨ ∀ b, svcRead f ≠ some (4, b)) → exec (.seal_ f) s = .next s) ∧
  (∀ (s : State) (f : List Byte) (b : List Byte), s.mi.powered = true → svcRead f = some (5, b) → sealLast s = .sealed →
     exec (.resetRegisters f) s = served 5 1 [] s) ∧
  (∀ (s : State) (f : List Byte) (b : List Byte), s.mi.powered = true → svcRead f = some (5, b) → sealLast s ≠ .sealed →
     4096 ≤ s.mi.log.length → exec (.resetRegisters f) s = served 5 4 [] s) ∧
  (∀ (s : State) (f : List Byte) (b : List Byte), s.mi.powered = true → svcRead f = some (5, b) → sealLast s ≠ .sealed →
     s.mi.log.length < 4096 → b.length ≠ 1 ∨ sealLast s ≠ .unsealed → exec (.resetRegisters f) s = served 5 3 [] s) ∧
  (∀ (s : State) (f : List Byte) (m : Byte), s.mi.powered = true → svcRead f = some (5, [m]) → sealLast s = .unsealed →
     s.mi.log.length < 4096 →
     exec (.resetRegisters f) s = served 5 0 [] ((List.range 8).foldl (fun s p => if m.getLsbD p then resetPoint p s else s) s)) ∧
  (∀ (s : State) (f : List Byte), (s.mi.powered = false ∨ ∀ b, svcRead f ≠ some (5, b)) → exec (.resetRegisters f) s = .next s) ∧
  (∀ (s : State) (f : List Byte) (b : List Byte), s.mi.powered = true → svcRead f = some (6, b) → sealLast s = .sealed →
     exec (.clearLog f) s = served 6 1 [] s) ∧
  (∀ (s : State) (f : List Byte) (b : List Byte), s.mi.powered = true → svcRead f = some (6, b) → sealLast s ≠ .sealed →
     b ≠ [] ∨ sealLast s ≠ .unsealed → exec (.clearLog f) s = served 6 3 [] s) ∧
  (∀ (s : State) (f : List Byte), s.mi.powered = true → svcRead f = some (6, []) → sealLast s = .unsealed →
     exec (.clearLog f) s = served 6 0 [] (miLog 0x0013 0xFF (BitVec.ofNat 32 s.mi.log.length) 0 (pushMail .cleared (onMi (fun m => { m with log := [], logSeq := 1 }) s)))) ∧
  (∀ (s : State) (f : List Byte), (s.mi.powered = false ∨ ∀ b, svcRead f ≠ some (6, b)) → exec (.clearLog f) s = .next s) ∧
  (∀ (s : State) (f : List Byte) (b : List Byte), s.mi.powered = true → svcRead f = some (7, b) → b.length = 4 → 1 ≤ ofBytesBE (b.drop 2) →
     ofBytesBE (b.drop 2) ≤ 255 → ofBytesBE (b.take 2) < s.mi.log.length →
     exec (.readLog f) s = served 7 0 (((s.mi.log.drop (ofBytesBE (b.take 2))).take (ofBytesBE (b.drop 2))).flatMap miRecBytes) s) ∧
  (∀ (s : State) (f : List Byte) (b : List Byte), s.mi.powered = true → svcRead f = some (7, b) →
     b.length ≠ 4 ∨ ofBytesBE (b.drop 2) = 0 ∨ 255 < ofBytesBE (b.drop 2) ∨ s.mi.log.length ≤ ofBytesBE (b.take 2) →
     exec (.readLog f) s = served 7 3 [] s) ∧
  (∀ (s : State) (f : List Byte), (s.mi.powered = false ∨ ∀ b, svcRead f ≠ some (7, b)) → exec (.readLog f) s = .next s) ∧
  (∀ (s : State) (f : List Byte) (k : BitVec 8) (b : List Byte), s.mi.powered = true → svcRead f = some (k, b) → k = 0 ∨ 7 < k.toNat →
     exec (.miUnknownCommand f) s = served k 2 [] s) ∧
  (∀ (s : State) (f : List Byte), (s.mi.powered = false ∨ ∀ k b, svcRead f = some (k, b) → 1 ≤ k.toNat ∧ k.toNat ≤ 7) →
     exec (.miUnknownCommand f) s = .next s) ∧
  (∀ (s : State) (f : List Byte), exec (.serviceByteTimeout f) s = .next s) ∧
  (∀ (s : State) (x : List Byte × Nat), s.mi.part0 = some x → x.2 + secTu 10 ≤ s.abs →
     exec .writeParamTimeout s = .next (onMi (fun m => { m with part0 := none }) s)) ∧
  (∀ (s : State), (∀ x, s.mi.part0 = some x → s.abs < x.2 + secTu 10) → exec .writeParamTimeout s = .next s)

/-- A key operation is DENIED where the life-cycle state does not allow it. A creation is refused by newKey's conditions on slot, type, parent
and DEST; else it enters loaded, random or derived material, that of a blob the parent opens, or (a private key, an agreed one) waits for
its ECC slots. Refused too: LOAD of a package key not vouched for (DENIED), bad auxiliary data or length; GENERATE while the entropy
source has failed (NOT_READY); a public or wrong-sized result, label or context over 64 bytes, a peer point of the wrong length, a
malformed blob or one that does not open (BAD_PARAM); DEST beyond the blob's (DENIED); a parent that may not be used so; no ECC slot
(QUOTA). WRAP answers a blob of an exportable valid key under an AES-256 parent, PUBLIC the public key or queues its computation, RESTRICT
clears DEST bits and writes the other copy, INFO gives a slot without its material; a slot outside the share, empty, revoked or of an
unfit type is refused as the clauses say. REVOKE and ERASE answer by their parts: OK with the keys revoked, STALE for an empty slot,
LOG_FULL, or the slot's refusal. Definitions in it hold choices of the model: log 68, 149, 151. -/
def Obligations.KeysEnterTheirSlots : Prop :=
  (∀ (c : Cmd) (s : State) (k : KvNew) (m a : List Byte) (v : Option (Nat × List Byte)) (e : Status),
     kvRuns 0x0C10 ((k.type.map isPub).getD false) c s = true → newKey c k (entered 0x0C10 c s) = .error e →
     exec (.kvKeyLoad c k m a v) s = answered 0x0C10 c (st e) (entered 0x0C10 c s)) ∧
  (∀ (c : Cmd) (s : State) (k : KvNew) (m a : List Byte) (v : Option (Nat × List Byte)) (t : KeyType) (lv : BitVec 3) (d : BitVec 32),
     kvRuns 0x0C10 ((k.type.map isPub).getD false) c s = true → newKey c k (entered 0x0C10 c s) = .ok (t, lv, d) → d.getLsbD 10 = true →
     vouched c m v (entered 0x0C10 c s) = false → exec (.kvKeyLoad c k m a v) s = answered 0x0C10 c (st .denied) (entered 0x0C10 c s)) ∧
  (∀ (c : Cmd) (s : State) (k : KvNew) (m a : List Byte) (v : Option (Nat × List Byte)) (t : KeyType) (lv : BitVec 3) (d : BitVec 32),
     kvRuns 0x0C10 ((k.type.map isPub).getD false) c s = true → newKey c k (entered 0x0C10 c s) = .ok (t, lv, d) →
     d.getLsbD 10 = false ∨ vouched c m v (entered 0x0C10 c s) = true →
     (a ≠ [] ∧ ¬(isAes t = true ∧ a.length = 16)) ∨ keyLenOk t m.length = false →
     exec (.kvKeyLoad c k m a v) s = answered 0x0C10 c (st .badParam) (entered 0x0C10 c s)) ∧
  (∀ (c : Cmd) (s : State) (k : KvNew) (m a : List Byte) (v : Option (Nat × List Byte)) (t : KeyType) (lv : BitVec 3) (d : BitVec 32),
     kvRuns 0x0C10 ((k.type.map isPub).getD false) c s = true → newKey c k (entered 0x0C10 c s) = .ok (t, lv, d) →
     d.getLsbD 10 = false ∨ vouched c m v (entered 0x0C10 c s) = true → a = [] ∨ (isAes t = true ∧ a.length = 16) → keyLenOk t m.length = true →
     exec (.kvKeyLoad c k m a v) s = answered 0x0C10 c (st .ok) (enterKey c 0x0C10 k t lv d true m a (entered 0x0C10 c s))) ∧
  (∀ (c : Cmd) (s : State) (k : KvNew) (m a : List Byte) (v : Option (Nat × List Byte)), runs 0x0C10 true c s = true →
     lifeAllows (entered 0x0C10 c s) 0x0C10 ((k.type.map isPub).getD false) = false →
     exec (.kvKeyLoad c k m a v) s = answered 0x0C10 c (st .denied) (entered 0x0C10 c s)) ∧
  (∀ (c : Cmd) (s : State) (k : KvNew), kvRuns 0x0C11 false c s = true → (entered 0x0C11 c s).kv.trngFail = true →
     exec (.kvKeyGenerate c k) s = answered 0x0C11 c (st .notReady) (entered 0x0C11 c s)) ∧
  (∀ (c : Cmd) (s : State) (k : KvNew) (e : Status), kvRuns 0x0C11 false c s = true → (entered 0x0C11 c s).kv.trngFail = false →
     newKey c { k with compat := false } (entered 0x0C11 c s) = .error e →
     exec (.kvKeyGenerate c k) s = answered 0x0C11 c (st e) (entered 0x0C11 c s)) ∧
  (∀ (c : Cmd) (s : State) (k : KvNew) (t : KeyType) (lv : BitVec 3) (d : BitVec 32), kvRuns 0x0C11 false c s = true →
     (entered 0x0C11 c s).kv.trngFail = false → newKey c { k with compat := false } (entered 0x0C11 c s) = .ok (t, lv, d) →
     isPub t = true ∨ keyLenOk t (keyLen t k.len) = false → exec (.kvKeyGenerate c k) s = answered 0x0C11 c (st .badParam) (entered 0x0C11 c s)) ∧
  (∀ (c : Cmd) (s : State) (k : KvNew) (t : KeyType) (lv : BitVec 3) (d : BitVec 32), kvRuns 0x0C11 false c s = true →
     (entered 0x0C11 c s).kv.trngFail = false → newKey c { k with compat := false } (entered 0x0C11 c s) = .ok (t, lv, d) → isPriv t = true →
     keyLenOk t (keyLen t k.len) = true → hasEngine (entered 0x0C11 c s) (issuer c) .ecc = true →
     exec (.kvKeyGenerate c k) s = queuedKv 0x0C11 c [(.ecc, if is384 t then 3 else 1)] [] (.generate { k with compat := false } (randomBytes (keyLen t k.len) (entered 0x0C11 c s)).1) (randomBytes (keyLen t k.len) (entered 0x0C11 c s)).2) ∧
  (∀ (c : Cmd) (s : State) (k : KvNew) (t : KeyType) (lv : BitVec 3) (d : BitVec 32), kvRuns 0x0C11 false c s = true →
     (entered 0x0C11 c s).kv.trngFail = false → newKey c { k with compat := false } (entered 0x0C11 c s) = .ok (t, lv, d) → isPriv t = true →
     keyLenOk t (keyLen t k.len) = true → hasEngine (entered 0x0C11 c s) (issuer c) .ecc = false →
     exec (.kvKeyGenerate c k) s = answered 0x0C11 c (st .quota) (randomBytes (keyLen t k.len) (entered 0x0C11 c s)).2) ∧
  (∀ (c : Cmd) (s : State) (k : KvNew) (t : KeyType) (lv : BitVec 3) (d : BitVec 32), kvRuns 0x0C11 false c s = true →
     (entered 0x0C11 c s).kv.trngFail = false → newKey c { k with compat := false } (entered 0x0C11 c s) = .ok (t, lv, d) → isPub t = false →
     isPriv t = false → keyLenOk t (keyLen t k.len) = true →
     exec (.kvKeyGenerate c k) s = answered 0x0C11 c (st .ok) (enterKey c 0x0C11 { k with compat := false } t lv d false (randomBytes (keyLen t k.len) (entered 0x0C11 c s)).1 [] (randomBytes (keyLen t k.len) (entered 0x0C11 c s)).2)) ∧
  (∀ (c : Cmd) (s : State) (k : KvNew), runs 0x0C11 true c s = true → lifeAllows (entered 0x0C11 c s) 0x0C11 false = false →
     exec (.kvKeyGenerate c k) s = answered 0x0C11 c (st .denied) (entered 0x0C11 c s)) ∧
  (∀ (c : Cmd) (s : State) (k : KvNew) (q : KvKdf) (e : Status), kvRuns 0x0C12 false c s = true →
     newKey c { k with compat := false } (entered 0x0C12 c s) = .error e →
     exec (.kvKeyDerive c k q) s = answered 0x0C12 c (st e) (entered 0x0C12 c s)) ∧
  (∀ (c : Cmd) (s : State) (k : KvNew) (q : KvKdf) (t : KeyType) (lv : BitVec 3) (d : BitVec 32), kvRuns 0x0C12 false c s = true →
     newKey c { k with compat := false } (entered 0x0C12 c s) = .ok (t, lv, d) → isPub t = true ∨ kdfOk q = false →
     exec (.kvKeyDerive c k q) s = answered 0x0C12 c (st .badParam) (entered 0x0C12 c s)) ∧
  (∀ (c : Cmd) (s : State) (k : KvNew) (q : KvKdf) (t : KeyType) (lv : BitVec 3) (d : BitVec 32) (e : Status), kvRuns 0x0C12 false c s = true →
     newKey c { k with compat := false } (entered 0x0C12 c s) = .ok (t, lv, d) → isPub t = false → kdfOk q = true →
     materialParent c k.parent 4 (fun y => isAes y || isMac y) (entered 0x0C12 c s) = .error e →
     exec (.kvKeyDerive c k q) s = answered 0x0C12 c (st e) (parentDenied c k.parent e (entered 0x0C12 c s))) ∧
  (∀ (c : Cmd) (s : State) (k : KvNew) (q : KvKdf) (t : KeyType) (lv : BitVec 3) (d : BitVec 32) (x : KeySlot),
     kvRuns 0x0C12 false c s = true → newKey c { k with compat := false } (entered 0x0C12 c s) = .ok (t, lv, d) → isPub t = false →
     kdfOk q = true → materialParent c k.parent 4 (fun y => isAes y || isMac y) (entered 0x0C12 c s) = .ok x →
     keyLenOk t (keyLen t k.len) = false → exec (.kvKeyDerive c k q) s = answered 0x0C12 c (st .badParam) (entered 0x0C12 c s)) ∧
  (∀ (c : Cmd) (s : State) (k : KvNew) (q : KvKdf) (t : KeyType) (lv : BitVec 3) (d : BitVec 32) (x : KeySlot),
     kvRuns 0x0C12 false c s = true → newKey c { k with compat := false } (entered 0x0C12 c s) = .ok (t, lv, d) → isPub t = false →
     kdfOk q = true → materialParent c k.parent 4 (fun y => isAes y || isMac y) (entered 0x0C12 c s) = .ok x →
     keyLenOk t (keyLen t k.len) = true →
     exec (.kvKeyDerive c k q) s = answered 0x0C12 c (st .ok) (enterKey c 0x0C12 { k with compat := false } t lv d false (kdf x.material q.label q.context (keyLen t k.len)) [] (entered 0x0C12 c s))) ∧
  (∀ (c : Cmd) (s : State) (k : KvNew) (q : KvKdf), runs 0x0C12 true c s = true → lifeAllows (entered 0x0C12 c s) 0x0C12 false = false →
     exec (.kvKeyDerive c k q) s = answered 0x0C12 c (st .denied) (entered 0x0C12 c s)) ∧
  (∀ (c : Cmd) (s : State) (k : KvNew) (b : KvBlob), kvRuns 0x0C13 false c s = true → blobType b = none →
     exec (.kvKeyUnwrap c k b) s = answered 0x0C13 c (st .badParam) (entered 0x0C13 c s)) ∧
  (∀ (c : Cmd) (s : State) (k : KvNew) (b : KvBlob) (t : KeyType) (e : Status), kvRuns 0x0C13 false c s = true → blobType b = some t →
     newKey c { k with type := some t, keyId := b.keyId } (entered 0x0C13 c s) = .error e →
     exec (.kvKeyUnwrap c k b) s = answered 0x0C13 c (st e) (entered 0x0C13 c s)) ∧
  (∀ (c : Cmd) (s : State) (k : KvNew) (b : KvBlob) (t : KeyType) (lv : BitVec 3) (d : BitVec 32), kvRuns 0x0C13 false c s = true →
     blobType b = some t → newKey c { k with type := some t, keyId := b.keyId } (entered 0x0C13 c s) = .ok (t, lv, d) →
     d &&& ~~~b.destLimit ≠ 0 → exec (.kvKeyUnwrap c k b) s = answered 0x0C13 c (st .denied) (entered 0x0C13 c s)) ∧
  (∀ (c : Cmd) (s : State) (k : KvNew) (b : KvBlob) (t : KeyType) (lv : BitVec 3) (d : BitVec 32) (e : Status),
     kvRuns 0x0C13 false c s = true → blobType b = some t →
     newKey c { k with type := some t, keyId := b.keyId } (entered 0x0C13 c s) = .ok (t, lv, d) → d &&& ~~~b.destLimit = 0 →
     materialParent c k.parent 6 (· == .aes256) (entered 0x0C13 c s) = .error e →
     exec (.kvKeyUnwrap c k b) s = answered 0x0C13 c (st e) (parentDenied c k.parent e (entered 0x0C13 c s))) ∧
  (∀ (c : Cmd) (s : State) (k : KvNew) (b : KvBlob) (t : KeyType) (lv : BitVec 3) (d : BitVec 32) (x : KeySlot),
     kvRuns 0x0C13 false c s = true → blobType b = some t →
     newKey c { k with type := some t, keyId := b.keyId } (entered 0x0C13 c s) = .ok (t, lv, d) → d &&& ~~~b.destLimit = 0 →
     materialParent c k.parent 6 (· == .aes256) (entered 0x0C13 c s) = .ok x → gcmOpen x.material b.iv (blobHeader b) b.text b.tag = none →
     exec (.kvKeyUnwrap c k b) s = answered 0x0C13 c (st .badParam) (entered 0x0C13 c s)) ∧
  (∀ (c : Cmd) (s : State) (k : KvNew) (b : KvBlob) (t : KeyType) (lv : BitVec 3) (d : BitVec 32) (x : KeySlot) (m : List Byte),
     kvRuns 0x0C13 false c s = true → blobType b = some t →
     newKey c { k with type := some t, keyId := b.keyId } (entered 0x0C13 c s) = .ok (t, lv, d) → d &&& ~~~b.destLimit = 0 →
     materialParent c k.parent 6 (· == .aes256) (entered 0x0C13 c s) = .ok x → gcmOpen x.material b.iv (blobHeader b) b.text b.tag = some m →
     exec (.kvKeyUnwrap c k b) s = answered 0x0C13 c (st .ok) (enterKey c 0x0C13 { k with type := some t, keyId := b.keyId } t lv d false (m.take b.len.toNat) (m.drop b.len.toNat) (entered 0x0C13 c s))) ∧
  (∀ (c : Cmd) (s : State) (k : KvNew) (b : KvBlob), runs 0x0C13 true c s = true → lifeAllows (entered 0x0C13 c s) 0x0C13 false = false →
     exec (.kvKeyUnwrap c k b) s = answered 0x0C13 c (st .denied) (entered 0x0C13 c s)) ∧
  (∀ (c : Cmd) (s : State) (k : KvNew) (p : List Byte) (q : KvKdf) (e : Status), kvRuns 0x0C14 false c s = true →
     newKey c { k with compat := false } (entered 0x0C14 c s) = .error e →
     exec (.kvKeyAgree c k p q) s = answered 0x0C14 c (st e) (entered 0x0C14 c s)) ∧
  (∀ (c : Cmd) (s : State) (k : KvNew) (p : List Byte) (q : KvKdf) (t : KeyType) (lv : BitVec 3) (d : BitVec 32),
     kvRuns 0x0C14 false c s = true → newKey c { k with compat := false } (entered 0x0C14 c s) = .ok (t, lv, d) →
     isPub t = true ∨ kdfOk q = false ∨ keyLenOk t (keyLen t k.len) = false →
     exec (.kvKeyAgree c k p q) s = answered 0x0C14 c (st .badParam) (entered 0x0C14 c s)) ∧
  (∀ (c : Cmd) (s : State) (k : KvNew) (p : List Byte) (q : KvKdf) (t : KeyType) (lv : BitVec 3) (d : BitVec 32) (e : Status),
     kvRuns 0x0C14 false c s = true → newKey c { k with compat := false } (entered 0x0C14 c s) = .ok (t, lv, d) → isPub t = false →
     kdfOk q = true → keyLenOk t (keyLen t k.len) = true → materialParent c k.parent 9 isPriv (entered 0x0C14 c s) = .error e →
     exec (.kvKeyAgree c k p q) s = answered 0x0C14 c (st e) (refuse c k.parent.toNat e (entered 0x0C14 c s)).1) ∧
  (∀ (c : Cmd) (s : State) (k : KvNew) (p : List Byte) (q : KvKdf) (t : KeyType) (lv : BitVec 3) (d : BitVec 32) (x : KeySlot),
     kvRuns 0x0C14 false c s = true → newKey c { k with compat := false } (entered 0x0C14 c s) = .ok (t, lv, d) → isPub t = false →
     kdfOk q = true → keyLenOk t (keyLen t k.len) = true → materialParent c k.parent 9 isPriv (entered 0x0C14 c s) = .ok x →
     p.length ≠ (if is384 x.type then 96 else 64) → exec (.kvKeyAgree c k p q) s = answered 0x0C14 c (st .badParam) (entered 0x0C14 c s)) ∧
  (∀ (c : Cmd) (s : State) (k : KvNew) (p : List Byte) (q : KvKdf) (t : KeyType) (lv : BitVec 3) (d : BitVec 32) (x : KeySlot),
     kvRuns 0x0C14 false c s = true → newKey c { k with compat := false } (entered 0x0C14 c s) = .ok (t, lv, d) → isPub t = false →
     kdfOk q = true → keyLenOk t (keyLen t k.len) = true → materialParent c k.parent 9 isPriv (entered 0x0C14 c s) = .ok x →
     p.length = (if is384 x.type then 96 else 64) → hasEngine (entered 0x0C14 c s) (issuer c) .ecc = true →
     exec (.kvKeyAgree c k p q) s = queuedKv 0x0C14 c [(.ecc, if is384 x.type then 3 else 1)] [k.parent.toNat] (.agree { k with compat := false } p q) (entered 0x0C14 c s)) ∧
  (∀ (c : Cmd) (s : State) (k : KvNew) (p : List Byte) (q : KvKdf) (t : KeyType) (lv : BitVec 3) (d : BitVec 32) (x : KeySlot),
     kvRuns 0x0C14 false c s = true → newKey c { k with compat := false } (entered 0x0C14 c s) = .ok (t, lv, d) → isPub t = false →
     kdfOk q = true → keyLenOk t (keyLen t k.len) = true → materialParent c k.parent 9 isPriv (entered 0x0C14 c s) = .ok x →
     p.length = (if is384 x.type then 96 else 64) → hasEngine (entered 0x0C14 c s) (issuer c) .ecc = false →
     exec (.kvKeyAgree c k p q) s = answered 0x0C14 c (st .quota) (entered 0x0C14 c s)) ∧
  (∀ (c : Cmd) (s : State) (k : KvNew) (p : List Byte) (q : KvKdf), runs 0x0C14 true c s = true →
     lifeAllows (entered 0x0C14 c s) 0x0C14 false = false → exec (.kvKeyAgree c k p q) s = answered 0x0C14 c (st .denied) (entered 0x0C14 c s)) ∧
  (∀ (c : Cmd) (s : State) (n p : Nat) (e : Status), kvRuns 0x0C15 false c s = true → slotRefusal c n (entered 0x0C15 c s) = some e →
     exec (.kvKeyWrap c n p) s = answered 0x0C15 c (st e) (entered 0x0C15 c s)) ∧
  (∀ (c : Cmd) (s : State) (n p : Nat), kvRuns 0x0C15 false c s = true → slotRefusal c n (entered 0x0C15 c s) = none →
     (getSlot (entered 0x0C15 c s) n).state = .empty → exec (.kvKeyWrap c n p) s = answered 0x0C15 c (st .badParam) (entered 0x0C15 c s)) ∧
  (∀ (c : Cmd) (s : State) (n p : Nat), kvRuns 0x0C15 false c s = true → slotRefusal c n (entered 0x0C15 c s) = none →
     (getSlot (entered 0x0C15 c s) n).state = .revoked ∨ (getSlot (entered 0x0C15 c s) n).state = .corrupt →
     exec (.kvKeyWrap c n p) s = answered 0x0C15 c (st .keyRevoked) (entered 0x0C15 c s)) ∧
  (∀ (c : Cmd) (s : State) (n p : Nat), kvRuns 0x0C15 false c s = true → slotRefusal c n (entered 0x0C15 c s) = none →
     (getSlot (entered 0x0C15 c s) n).state = .valid → (getSlot (entered 0x0C15 c s) n).exportable = false →
     exec (.kvKeyWrap c n p) s = answered 0x0C15 c (st .denied) (entered 0x0C15 c s)) ∧
  (∀ (c : Cmd) (s : State) (n p : Nat) (e : Status), kvRuns 0x0C15 false c s = true → slotRefusal c n (entered 0x0C15 c s) = none →
     (getSlot (entered 0x0C15 c s) n).state = .valid → (getSlot (entered 0x0C15 c s) n).exportable = true →
     useRefusal c p 5 (entered 0x0C15 c s) = some e → exec (.kvKeyWrap c n p) s = answered 0x0C15 c (st e) (refuse c p e (entered 0x0C15 c s)).1) ∧
  (∀ (c : Cmd) (s : State) (n p : Nat), kvRuns 0x0C15 false c s = true → slotRefusal c n (entered 0x0C15 c s) = none →
     (getSlot (entered 0x0C15 c s) n).state = .valid → (getSlot (entered 0x0C15 c s) n).exportable = true →
     useRefusal c p 5 (entered 0x0C15 c s) = none → (getSlot (entered 0x0C15 c s) p).type ≠ .aes256 →
     exec (.kvKeyWrap c n p) s = answered 0x0C15 c (st .badParam) (entered 0x0C15 c s)) ∧
  (∀ (c : Cmd) (s : State) (n p : Nat), kvRuns 0x0C15 false c s = true → slotRefusal c n (entered 0x0C15 c s) = none →
     (getSlot (entered 0x0C15 c s) n).state = .valid → (getSlot (entered 0x0C15 c s) n).exportable = true →
     useRefusal c p 5 (entered 0x0C15 c s) = none → (getSlot (entered 0x0C15 c s) p).type = .aes256 →
     ∃ b : KvBlob, exec (.kvKeyWrap c n p) s = answered 0x0C15 c { status := .ok, r0 := BitVec.ofNat 64 (blobBytes b).length, buf := .bytes (blobBytes b) } { (entered 0x0C15 c s) with free := s.free + 1 } ∧ b.version = 1 ∧ b.type.toNat = keyCode (getSlot (entered 0x0C15 c s) n).type ∧ b.len.toNat = (getSlot (entered 0x0C15 c s) n).material.length % 65536 ∧ b.destLimit = (getSlot (entered 0x0C15 c s) n).dest ∧ b.keyId = (getSlot (entered 0x0C15 c s) n).keyId ∧ b.iv = BitVec.ofNat 96 (Config.freeNat s.free) ∧ (b.text, b.tag) = gcmSeal (getSlot (entered 0x0C15 c s) p).material b.iv (blobHeader b) ((getSlot (entered 0x0C15 c s) n).material ++ (getSlot (entered 0x0C15 c s) n).aux)) ∧
  (∀ (c : Cmd) (s : State) (n p : Nat), runs 0x0C15 true c s = true → lifeAllows (entered 0x0C15 c s) 0x0C15 false = false →
     exec (.kvKeyWrap c n p) s = answered 0x0C15 c (st .denied) (entered 0x0C15 c s)) ∧
  (∀ (c : Cmd) (s : State) (n : Nat) (e : Status), kvRuns 0x0C16 false c s = true → slotRefusal c n (entered 0x0C16 c s) = some e →
     exec (.kvKeyPublic c n) s = answered 0x0C16 c (st e) (entered 0x0C16 c s)) ∧
  (∀ (c : Cmd) (s : State) (n : Nat), kvRuns 0x0C16 false c s = true → slotRefusal c n (entered 0x0C16 c s) = none →
     (getSlot (entered 0x0C16 c s) n).state = .revoked ∨ (getSlot (entered 0x0C16 c s) n).state = .corrupt →
     exec (.kvKeyPublic c n) s = answered 0x0C16 c (st .keyRevoked) (entered 0x0C16 c s)) ∧
  (∀ (c : Cmd) (s : State) (n : Nat), kvRuns 0x0C16 false c s = true → slotRefusal c n (entered 0x0C16 c s) = none →
     (getSlot (entered 0x0C16 c s) n).state = .valid ∨ (getSlot (entered 0x0C16 c s) n).state = .empty →
     isPub (getSlot (entered 0x0C16 c s) n).type = true →
     exec (.kvKeyPublic c n) s = answered 0x0C16 c { status := .ok, r0 := BitVec.ofNat 64 (getSlot (entered 0x0C16 c s) n).material.length, buf := .bytes (getSlot (entered 0x0C16 c s) n).material } (entered 0x0C16 c s)) ∧
  (∀ (c : Cmd) (s : State) (n : Nat), kvRuns 0x0C16 false c s = true → slotRefusal c n (entered 0x0C16 c s) = none →
     (getSlot (entered 0x0C16 c s) n).state = .valid ∨ (getSlot (entered 0x0C16 c s) n).state = .empty →
     isPriv (getSlot (entered 0x0C16 c s) n).type = true → hasEngine (entered 0x0C16 c s) (issuer c) .ecc = true →
     exec (.kvKeyPublic c n) s = queuedKv 0x0C16 c [(.ecc, if is384 (getSlot (entered 0x0C16 c s) n).type then 3 else 1)] [n] (.pub n) (entered 0x0C16 c s)) ∧
  (∀ (c : Cmd) (s : State) (n : Nat), kvRuns 0x0C16 false c s = true → slotRefusal c n (entered 0x0C16 c s) = none →
     (getSlot (entered 0x0C16 c s) n).state = .valid ∨ (getSlot (entered 0x0C16 c s) n).state = .empty →
     isPriv (getSlot (entered 0x0C16 c s) n).type = true → hasEngine (entered 0x0C16 c s) (issuer c) .ecc = false →
     exec (.kvKeyPublic c n) s = answered 0x0C16 c (st .quota) (entered 0x0C16 c s)) ∧
  (∀ (c : Cmd) (s : State) (n : Nat), kvRuns 0x0C16 false c s = true → slotRefusal c n (entered 0x0C16 c s) = none →
     (getSlot (entered 0x0C16 c s) n).state = .valid ∨ (getSlot (entered 0x0C16 c s) n).state = .empty →
     isPub (getSlot (entered 0x0C16 c s) n).type = false → isPriv (getSlot (entered 0x0C16 c s) n).type = false →
     exec (.kvKeyPublic c n) s = answered 0x0C16 c (st .badParam) (entered 0x0C16 c s)) ∧
  (∀ (c : Cmd) (s : State) (n : Nat), runs 0x0C16 true c s = true → lifeAllows (entered 0x0C16 c s) 0x0C16 false = false →
     exec (.kvKeyPublic c n) s = answered 0x0C16 c (st .denied) (entered 0x0C16 c s)) ∧
  (∀ (c : Cmd) (s : State) (n : Nat) (m : BitVec 32) (e : Status), kvRuns 0x0C17 false c s = true →
     slotRefusal c n (entered 0x0C17 c s) = some e → exec (.kvKeyRestrict c n m) s = answered 0x0C17 c (st e) (entered 0x0C17 c s)) ∧
  (∀ (c : Cmd) (s : State) (n : Nat) (m : BitVec 32), kvRuns 0x0C17 false c s = true → slotRefusal c n (entered 0x0C17 c s) = none →
     (getSlot (entered 0x0C17 c s) n).state = .empty → exec (.kvKeyRestrict c n m) s = answered 0x0C17 c (st .badParam) (entered 0x0C17 c s)) ∧
  (∀ (c : Cmd) (s : State) (n : Nat) (m : BitVec 32), kvRuns 0x0C17 false c s = true → slotRefusal c n (entered 0x0C17 c s) = none →
     (getSlot (entered 0x0C17 c s) n).state = .revoked ∨ (getSlot (entered 0x0C17 c s) n).state = .corrupt →
     exec (.kvKeyRestrict c n m) s = answered 0x0C17 c (st .keyRevoked) (entered 0x0C17 c s)) ∧
  (∀ (c : Cmd) (s : State) (n : Nat) (m : BitVec 32), kvRuns 0x0C17 false c s = true → slotRefusal c n (entered 0x0C17 c s) = none →
     (getSlot (entered 0x0C17 c s) n).state = .valid → logFull (entered 0x0C17 c s) = true →
     exec (.kvKeyRestrict c n m) s = answered 0x0C17 c (st .logFull) (entered 0x0C17 c s)) ∧
  (∀ (c : Cmd) (s : State) (n : Nat) (m : BitVec 32) (y : KeySlot), kvRuns 0x0C17 false c s = true →
     slotRefusal c n (entered 0x0C17 c s) = none → (getSlot (entered 0x0C17 c s) n).state = .valid → logFull (entered 0x0C17 c s) = false →
     y = { (getSlot (entered 0x0C17 c s) n) with dest := (getSlot (entered 0x0C17 c s) n).dest &&& ~~~m, gen := (getSlot (entered 0x0C17 c s) n).gen + 1, curB := !(getSlot (entered 0x0C17 c s) n).curB } →
     exec (.kvKeyRestrict c n m) s = answered 0x0C17 c (st .ok) (logCommand (issuer c) 0x0C17 0 n (writeSlot n y (putSlot n y (entered 0x0C17 c s))))) ∧
  (∀ (c : Cmd) (s : State) (n : Nat) (m : BitVec 32), runs 0x0C17 true c s = true → lifeAllows (entered 0x0C17 c s) 0x0C17 false = false →
     exec (.kvKeyRestrict c n m) s = answered 0x0C17 c (st .denied) (entered 0x0C17 c s)) ∧
  (∀ (c : Cmd) (s : State) (b : Nat) (m : BitVec 64), kvRuns 0x0C18 false c s = true →
     exec (.kvKeyRevoke c b m) s = answered 0x0C18 c (revokeReply (multipart m (partRevoke 0x0C18 c b revokeTree) (entered 0x0C18 c s)).2) (multipart m (partRevoke 0x0C18 c b revokeTree) (entered 0x0C18 c s)).1) ∧
  (∀ (c : Cmd) (s : State) (b : Nat) (m : BitVec 64), runs 0x0C18 true c s = true → lifeAllows (entered 0x0C18 c s) 0x0C18 false = false →
     exec (.kvKeyRevoke c b m) s = answered 0x0C18 c (st .denied) (entered 0x0C18 c s)) ∧
  (∀ (c : Cmd) (s : State) (b : Nat) (m : BitVec 64), kvRuns 0x0C19 false c s = true →
     exec (.kvKeyErase c b m) s = answered 0x0C19 c (revokeReply (multipart m (partRevoke 0x0C19 c b eraseTree) (entered 0x0C19 c s)).2) (multipart m (partRevoke 0x0C19 c b eraseTree) (entered 0x0C19 c s)).1) ∧
  (∀ (c : Cmd) (s : State) (b : Nat) (m : BitVec 64), runs 0x0C19 true c s = true → lifeAllows (entered 0x0C19 c s) 0x0C19 false = false →
     exec (.kvKeyErase c b m) s = answered 0x0C19 c (st .denied) (entered 0x0C19 c s)) ∧
  (∀ (op : BitVec 16) (c : Cmd) (b n : Nat) (f : Nat → State → State × Nat) (s : State) (e : Status), slotRefusal c (b + n) s = some e →
     partRevoke op c b f n s = (s, e, [])) ∧
  (∀ (op : BitVec 16) (c : Cmd) (b n : Nat) (f : Nat → State → State × Nat) (s : State), slotRefusal c (b + n) s = none →
     (getSlot s (b + n)).state = .empty → partRevoke op c b f n s = (s, .stale, [])) ∧
  (∀ (op : BitVec 16) (c : Cmd) (b n : Nat) (f : Nat → State → State × Nat) (s : State), slotRefusal c (b + n) s = none →
     (getSlot s (b + n)).state ≠ .empty → logFull s = true → partRevoke op c b f n s = (s, .logFull, [])) ∧
  (∀ (op : BitVec 16) (c : Cmd) (b n : Nat) (f : Nat → State → State × Nat) (s : State), slotRefusal c (b + n) s = none →
     (getSlot s (b + n)).state ≠ .empty → logFull s = false →
     partRevoke op c b f n s = (logCommand (issuer c) op 0 (b + n + (f (b + n) s).2 * 65536) (f (b + n) s).1, .ok, bytesLE 4 (f (b + n) s).2)) ∧
  (∀ (c : Cmd) (s : State) (n : Nat) (e : Status), kvRuns 0x0C1A false c s = true → slotRefusal c n (entered 0x0C1A c s) = some e →
     exec (.kvKeyInfo c n) s = answered 0x0C1A c (st e) (entered 0x0C1A c s)) ∧
  (∀ (c : Cmd) (s : State) (n : Nat), kvRuns 0x0C1A false c s = true → slotRefusal c n (entered 0x0C1A c s) = none →
     exec (.kvKeyInfo c n) s = answered 0x0C1A c { status := .ok, buf := .bytes (slotBytes (getSlot (entered 0x0C1A c s) n)) } (entered 0x0C1A c s)) ∧
  (∀ (c : Cmd) (s : State) (n : Nat), runs 0x0C1A true c s = true → lifeAllows (entered 0x0C1A c s) 0x0C1A false = false →
     exec (.kvKeyInfo c n) s = answered 0x0C1A c (st .denied) (entered 0x0C1A c s))

/-- An operation the life-cycle state does not allow is DENIED. One on a key its issuer may use, or on none, joins the queue of the shared
engines with the slots its length needs: GCM (in one of the issuer's GCM engines, by a free value), HMAC, hash, sign and verify (a message
is hashed first); it is refused with the key's refusal, BAD_PARAM where data or signature are of a wrong length, QUOTA where the issuer
has no slot of an engine needed. RANDOM answers 1 to 4,096 bytes; it and SIGN are NOT_READY while the entropy source has failed. An engine
enters its next slot; in a share slot the oldest request of the owner for it, whose ring's older ones have started, is served. The entropy
source's failure and recovery set and clear TRNG_FAIL. KV_LC_ADVANCE, DENIED for a move R479 does not give and LOG_FULL on a full log,
blows the fuses, empties slots and MRAM and resets the device without a reply. KV_FW_SVN_RAISE raises FW_SVN to the running firmware's,
BAD_PARAM where the other image is older. Definitions in it hold choices of the model: log 105, 151. -/
def Obligations.KeysAreUsed : Prop :=
  (∀ (c : Cmd) (s : State) (q : KvGcm), kvRuns 0x0C20 false c s = true → 65535 < q.aad.length ∨ 16777216 < q.text.length →
     exec (.kvGcm c q) s = answered 0x0C20 c (st .badParam) (entered 0x0C20 c s)) ∧
  (∀ (c : Cmd) (s : State) (q : KvGcm) (e : Status), kvRuns 0x0C20 false c s = true → q.aad.length ≤ 65535 → q.text.length ≤ 16777216 →
     useRefusal c q.slot (if q.seals then 0 else 1) (entered 0x0C20 c s) = some e →
     exec (.kvGcm c q) s = answered 0x0C20 c (st e) (refuse c q.slot e (entered 0x0C20 c s)).1) ∧
  (∀ (c : Cmd) (s : State) (q : KvGcm), kvRuns 0x0C20 false c s = true → q.aad.length ≤ 65535 → q.text.length ≤ 16777216 →
     useRefusal c q.slot (if q.seals then 0 else 1) (entered 0x0C20 c s) = none → gcmEngines (entered 0x0C20 c s) (issuer c) = [] →
     exec (.kvGcm c q) s = answered 0x0C20 c (st .quota) (entered 0x0C20 c s)) ∧
  (∀ (c : Cmd) (s : State) (q : KvGcm), kvRuns 0x0C20 false c s = true → q.aad.length ≤ 65535 → q.text.length ≤ 16777216 →
     useRefusal c q.slot (if q.seals then 0 else 1) (entered 0x0C20 c s) = none → gcmEngines (entered 0x0C20 c s) (issuer c) ≠ [] →
     ∃ e ∈ gcmEngines (entered 0x0C20 c s) (issuer c), exec (.kvGcm c q) s = queuedKv 0x0C20 c [(e, gcmSlots q.text.length)] [q.slot] (.gcm q) { (entered 0x0C20 c s) with free := s.free + 1 }) ∧
  (∀ (c : Cmd) (s : State) (q : KvGcm), runs 0x0C20 true c s = true → lifeAllows (entered 0x0C20 c s) 0x0C20 false = false →
     exec (.kvGcm c q) s = answered 0x0C20 c (st .denied) (entered 0x0C20 c s)) ∧
  (∀ (c : Cmd) (s : State) (n : Nat) (b : Bool) (v : Option (List Byte)) (m : List Byte), kvRuns 0x0C21 false c s = true →
     16777216 < m.length → exec (.kvHmac c n b v m) s = answered 0x0C21 c (st .badParam) (entered 0x0C21 c s)) ∧
  (∀ (c : Cmd) (s : State) (n : Nat) (b : Bool) (v : Option (List Byte)) (m : List Byte) (e : Status), kvRuns 0x0C21 false c s = true →
     m.length ≤ 16777216 → useRefusal c n 3 (entered 0x0C21 c s) = some e →
     exec (.kvHmac c n b v m) s = answered 0x0C21 c (st e) (refuse c n e (entered 0x0C21 c s)).1) ∧
  (∀ (c : Cmd) (s : State) (n : Nat) (b : Bool) (v : Option (List Byte)) (m : List Byte), kvRuns 0x0C21 false c s = true →
     m.length ≤ 16777216 → useRefusal c n 3 (entered 0x0C21 c s) = none → hasEngine (entered 0x0C21 c s) (issuer c) .hmac = true →
     exec (.kvHmac c n b v m) s = queuedKv 0x0C21 c [(.hmac, hashSlots m.length)] [n] (.hmac n b v m) (entered 0x0C21 c s)) ∧
  (∀ (c : Cmd) (s : State) (n : Nat) (b : Bool) (v : Option (List Byte)) (m : List Byte), kvRuns 0x0C21 false c s = true →
     m.length ≤ 16777216 → useRefusal c n 3 (entered 0x0C21 c s) = none → hasEngine (entered 0x0C21 c s) (issuer c) .hmac = false →
     exec (.kvHmac c n b v m) s = answered 0x0C21 c (st .quota) (entered 0x0C21 c s)) ∧
  (∀ (c : Cmd) (s : State) (n : Nat) (b : Bool) (v : Option (List Byte)) (m : List Byte), runs 0x0C21 true c s = true →
     lifeAllows (entered 0x0C21 c s) 0x0C21 false = false → exec (.kvHmac c n b v m) s = answered 0x0C21 c (st .denied) (entered 0x0C21 c s)) ∧
  (∀ (c : Cmd) (s : State) (b : Bool) (m : List Byte), kvRuns 0x0C22 false c s = true → 16777216 < m.length →
     exec (.kvHash c b m) s = answered 0x0C22 c (st .badParam) (entered 0x0C22 c s)) ∧
  (∀ (c : Cmd) (s : State) (b : Bool) (m : List Byte), kvRuns 0x0C22 false c s = true → m.length ≤ 16777216 →
     hasEngine (entered 0x0C22 c s) (issuer c) .hmac = true →
     exec (.kvHash c b m) s = queuedKv 0x0C22 c [(.hmac, hashSlots m.length)] [] (.hash b m) (entered 0x0C22 c s)) ∧
  (∀ (c : Cmd) (s : State) (b : Bool) (m : List Byte), kvRuns 0x0C22 false c s = true → m.length ≤ 16777216 →
     hasEngine (entered 0x0C22 c s) (issuer c) .hmac = false → exec (.kvHash c b m) s = answered 0x0C22 c (st .quota) (entered 0x0C22 c s)) ∧
  (∀ (c : Cmd) (s : State) (b : Bool) (m : List Byte), runs 0x0C22 true c s = true → lifeAllows (entered 0x0C22 c s) 0x0C22 false = false →
     exec (.kvHash c b m) s = answered 0x0C22 c (st .denied) (entered 0x0C22 c s)) ∧
  (∀ (c : Cmd) (s : State) (n : Nat) (h : Bool) (m : List Byte), kvRuns 0x0C23 false c s = true → (entered 0x0C23 c s).kv.trngFail = true →
     exec (.kvSign c n h m) s = answered 0x0C23 c (st .notReady) (entered 0x0C23 c s)) ∧
  (∀ (c : Cmd) (s : State) (n : Nat) (h : Bool) (m : List Byte) (e : Status), kvRuns 0x0C23 false c s = true →
     (entered 0x0C23 c s).kv.trngFail = false → useRefusal c n 7 (entered 0x0C23 c s) = some e →
     exec (.kvSign c n h m) s = answered 0x0C23 c (st e) (refuse c n e (entered 0x0C23 c s)).1) ∧
  (∀ (c : Cmd) (s : State) (n : Nat) (h : Bool) (m : List Byte), kvRuns 0x0C23 false c s = true → (entered 0x0C23 c s).kv.trngFail = false →
     useRefusal c n 7 (entered 0x0C23 c s) = none → ecDataOk (is384 (getSlot (entered 0x0C23 c s) n).type) h m = false →
     exec (.kvSign c n h m) s = answered 0x0C23 c (st .badParam) (entered 0x0C23 c s)) ∧
  (∀ (c : Cmd) (s : State) (n : Nat) (h : Bool) (m : List Byte), kvRuns 0x0C23 false c s = true → (entered 0x0C23 c s).kv.trngFail = false →
     useRefusal c n 7 (entered 0x0C23 c s) = none → ecDataOk (is384 (getSlot (entered 0x0C23 c s) n).type) h m = true →
     hasEngine (entered 0x0C23 c s) (issuer c) .ecc = true ∧ (h = true ∨ hasEngine (entered 0x0C23 c s) (issuer c) .hmac = true) →
     exec (.kvSign c n h m) s = queuedKv 0x0C23 c (ecStages h m.length (if (is384 (getSlot (entered 0x0C23 c s) n).type) then 3 else 1)) [n] (.sign n h m) (entered 0x0C23 c s)) ∧
  (∀ (c : Cmd) (s : State) (n : Nat) (h : Bool) (m : List Byte), kvRuns 0x0C23 false c s = true → (entered 0x0C23 c s).kv.trngFail = false →
     useRefusal c n 7 (entered 0x0C23 c s) = none → ecDataOk (is384 (getSlot (entered 0x0C23 c s) n).type) h m = true →
     ¬(hasEngine (entered 0x0C23 c s) (issuer c) .ecc = true ∧ (h = true ∨ hasEngine (entered 0x0C23 c s) (issuer c) .hmac = true)) →
     exec (.kvSign c n h m) s = answered 0x0C23 c (st .quota) (entered 0x0C23 c s)) ∧
  (∀ (c : Cmd) (s : State) (n : Nat) (h : Bool) (m : List Byte), runs 0x0C23 true c s = true →
     lifeAllows (entered 0x0C23 c s) 0x0C23 false = false → exec (.kvSign c n h m) s = answered 0x0C23 c (st .denied) (entered 0x0C23 c s)) ∧
  (∀ (c : Cmd) (s : State) (n : Nat) (h : Bool) (m : List Byte) (g : List Byte) (e : Status), kvRuns 0x0C24 false c s = true →
     useRefusal c n 8 (entered 0x0C24 c s) = some e →
     exec (.kvVerify c n h m g) s = answered 0x0C24 c (st e) (refuse c n e (entered 0x0C24 c s)).1) ∧
  (∀ (c : Cmd) (s : State) (n : Nat) (h : Bool) (m : List Byte) (g : List Byte), kvRuns 0x0C24 false c s = true →
     useRefusal c n 8 (entered 0x0C24 c s) = none →
     ecDataOk (is384 (getSlot (entered 0x0C24 c s) n).type) h m = false ∨ g.length ≠ (if (is384 (getSlot (entered 0x0C24 c s) n).type) then 96 else 64) →
     exec (.kvVerify c n h m g) s = answered 0x0C24 c (st .badParam) (entered 0x0C24 c s)) ∧
  (∀ (c : Cmd) (s : State) (n : Nat) (h : Bool) (m : List Byte) (g : List Byte), kvRuns 0x0C24 false c s = true →
     useRefusal c n 8 (entered 0x0C24 c s) = none → ecDataOk (is384 (getSlot (entered 0x0C24 c s) n).type) h m = true →
     g.length = (if (is384 (getSlot (entered 0x0C24 c s) n).type) then 96 else 64) →
     hasEngine (entered 0x0C24 c s) (issuer c) .ecc = true ∧ (h = true ∨ hasEngine (entered 0x0C24 c s) (issuer c) .hmac = true) →
     exec (.kvVerify c n h m g) s = queuedKv 0x0C24 c (ecStages h m.length (if (is384 (getSlot (entered 0x0C24 c s) n).type) then 5 else 2)) [n] (.verify n h m g) (entered 0x0C24 c s)) ∧
  (∀ (c : Cmd) (s : State) (n : Nat) (h : Bool) (m : List Byte) (g : List Byte), kvRuns 0x0C24 false c s = true →
     useRefusal c n 8 (entered 0x0C24 c s) = none → ecDataOk (is384 (getSlot (entered 0x0C24 c s) n).type) h m = true →
     g.length = (if (is384 (getSlot (entered 0x0C24 c s) n).type) then 96 else 64) →
     ¬(hasEngine (entered 0x0C24 c s) (issuer c) .ecc = true ∧ (h = true ∨ hasEngine (entered 0x0C24 c s) (issuer c) .hmac = true)) →
     exec (.kvVerify c n h m g) s = answered 0x0C24 c (st .quota) (entered 0x0C24 c s)) ∧
  (∀ (c : Cmd) (s : State) (n : Nat) (h : Bool) (m : List Byte) (g : List Byte), runs 0x0C24 true c s = true →
     lifeAllows (entered 0x0C24 c s) 0x0C24 false = false → exec (.kvVerify c n h m g) s = answered 0x0C24 c (st .denied) (entered 0x0C24 c s)) ∧
  (∀ (c : Cmd) (s : State) (n : Nat), kvRuns 0x0C25 false c s = true → n = 0 ∨ 4096 < n →
     exec (.kvRandom c n) s = answered 0x0C25 c (st .badParam) (entered 0x0C25 c s)) ∧
  (∀ (c : Cmd) (s : State) (n : Nat), kvRuns 0x0C25 false c s = true → 1 ≤ n → n ≤ 4096 → (entered 0x0C25 c s).kv.trngFail = true →
     exec (.kvRandom c n) s = answered 0x0C25 c (st .notReady) (entered 0x0C25 c s)) ∧
  (∀ (c : Cmd) (s : State) (n : Nat), kvRuns 0x0C25 false c s = true → 1 ≤ n → n ≤ 4096 → (entered 0x0C25 c s).kv.trngFail = false →
     exec (.kvRandom c n) s = answered 0x0C25 c { status := .ok, buf := .bytes (randomBytes n (entered 0x0C25 c s)).1 } (randomBytes n (entered 0x0C25 c s)).2) ∧
  (∀ (c : Cmd) (s : State) (n : Nat), runs 0x0C25 true c s = true → lifeAllows (entered 0x0C25 c s) 0x0C25 false = false →
     exec (.kvRandom c n) s = answered 0x0C25 c (st .denied) (entered 0x0C25 c s)) ∧
  (∀ (s : State), s.kv.ready = true →
     exec .entropyHealthFail s = .next (raise 0x62 0 (onKv (fun k => { k with trngFail := true, trngEvt := true, trngGood := 0 }) s))) ∧
  (∀ (s : State), s.kv.ready = false → exec .entropyHealthFail s = .next s) ∧
  (∀ (s : State), exec .entropyRecovered s = .next (onKv (fun k => { k with trngFail := false, trngGood := 1024 }) s)) ∧
  (∀ (c : Cmd) (s : State) (n : Nat) (a : List Byte), runs 0x0C30 false c s = true → lifeMove (entered 0x0C30 c s) n a = false →
     exec (.kvLcAdvance c n a) s = answered 0x0C30 c (st .denied) (entered 0x0C30 c s)) ∧
  (∀ (c : Cmd) (s : State) (n : Nat) (a : List Byte), runs 0x0C30 false c s = true → lifeMove (entered 0x0C30 c s) n a = true →
     logFull (entered 0x0C30 c s) = true → exec (.kvLcAdvance c n a) s = answered 0x0C30 c (st .logFull) (entered 0x0C30 c s)) ∧
  (∀ (c : Cmd) (s : State) (n : Nat) (a : List Byte), runs 0x0C30 false c s = true → lifeMove (entered 0x0C30 c s) n a = true →
     logFull (entered 0x0C30 c s) = false →
     ∃ t, exec (.kvLcAdvance c n a) s = .next t ∧ t.kv.slot = [] ∧ t.kv.mram = [] ∧ t.kv.journal = none ∧ t.kv.lcSeen = BitVec.ofNat 8 n ∧ t.kv.lcPairs = s.kv.lcPairs ||| (3#6 <<< (2 * (n - 2))) ∧ t.glob.ready = false ∧ t.su.order = [] ∧ t.pa.coldStart = false) ∧
  (∀ (c : Cmd) (s : State), runs 0x0C31 false c s = true → (entered 0x0C31 c s).kv.otherSvn < (entered 0x0C31 c s).kv.svn.toNat →
     exec (.kvFwSvnRaise c) s = answered 0x0C31 c (st .badParam) (entered 0x0C31 c s)) ∧
  (∀ (c : Cmd) (s : State), runs 0x0C31 false c s = true → (entered 0x0C31 c s).kv.svn.toNat ≤ (entered 0x0C31 c s).kv.otherSvn →
     logFull (entered 0x0C31 c s) = true → exec (.kvFwSvnRaise c) s = answered 0x0C31 c (st .logFull) (entered 0x0C31 c s)) ∧
  (∀ (c : Cmd) (s : State), runs 0x0C31 false c s = true → (entered 0x0C31 c s).kv.svn.toNat ≤ (entered 0x0C31 c s).kv.otherSvn →
     logFull (entered 0x0C31 c s) = false →
     exec (.kvFwSvnRaise c) s = answered 0x0C31 c (st .ok) (logCommand 0 0x0C31 0 0 (onKv (fun k => { k with fwSvn := max k.fwSvn k.svn.toNat }) (entered 0x0C31 c s)))) ∧
  (∀ (s : State) (e : KvEngine) (r : KvReq), s.kv.ready = true → pdOn s 7 = true → shareSlot e (s.kv.enginePos.getD e 0) = true →
     s.kv.reqs.find? (fun r => r.owner == engineOwner s e (s.kv.enginePos.getD e 0) && (r.stages.head?.map (·.1)) == some e && ringTurn s.kv.reqs r) = some r →
     exec (.engineSlot e) s = .next (serveRequest r (onKv (fun k => { k with enginePos := k.enginePos.put e ((s.kv.enginePos.getD e 0 + 1) % engineCycle e) }) s))) ∧
  (∀ (s : State) (e : KvEngine), s.kv.ready = true → pdOn s 7 = true →
     shareSlot e (s.kv.enginePos.getD e 0) = false ∨ s.kv.reqs.find? (fun r => r.owner == engineOwner s e (s.kv.enginePos.getD e 0) && (r.stages.head?.map (·.1)) == some e && ringTurn s.kv.reqs r) = none →
     exec (.engineSlot e) s = .next (onKv (fun k => { k with enginePos := k.enginePos.put e ((s.kv.enginePos.getD e 0 + 1) % engineCycle e) }) s)) ∧
  (∀ (s : State) (e : KvEngine), s.kv.ready = false ∨ pdOn s 7 = false → exec (.engineSlot e) s = .next s)

/-- IM_INSTANCE_RESET starts the resets its parts name (NOT_READY absent, BUSY resetting) and its reply waits for them, or comes at once where
it starts none; a reset ends when nothing of the old epoch is in flight, or 150 µs after its start. A DMA read completion of the epoch
takes one read off, one of another epoch is discarded. The one reset-request value raises the event. Freeze: BAD_PARAM for a number
outside 1–64, NOT_READY unless active and in RUN or HOLD, BUSY while one waits; the first frame that starts 10 µs after it takes the
snapshot, stops the host queues, holds the owner and answers, or NOT_READY if the owner is no longer in RUN or HOLD. Save: NOT_READY
unless frozen with a snapshot, the key's refusal, BAD_PARAM with the length for a short buffer, NOT_READY without random bits, else the
sealed blob. Restore: NOT_READY unless frozen; header, part, instance, key, tag (DETAIL 1), CONFIG_HASH (3) and sections are judged in
this order; the content waits for the next frame, which applies it. Thaw: NOT_READY unless frozen, BUSY while one waits; at the next frame
the host queues, tasks and saved run state go on. Info: state, epoch, PASID, CONFIG_HASH and the sizes of the shares, to the manager and
the instance itself. A host queue is set within the share, BAD_PARAM, QUOTA or NOT_READY otherwise, or removed. Definitions in it hold
choices of the model: log 8, 81, 112, 124, 153, 154. -/
def Obligations.InstancesAreCommanded : Prop :=
  (∀ (c : Cmd) (s : State) (m : BitVec 64), runs 0x0D10 false c s = true → resettable m (entered 0x0D10 c s) ≠ [] →
     exec (.imInstanceReset c m) s = .next (outstanding { cmd := c, opcode := 0x0D10 } (onIm (fun x => { x with resets := x.resets ++ [({ cmd := c, opcode := 0x0D10 }, resettable m (entered 0x0D10 c s), (multipart m resetPart (entered 0x0D10 c s)).2)] }) (multipart m resetPart (entered 0x0D10 c s)).1))) ∧
  (∀ (c : Cmd) (s : State) (m : BitVec 64), runs 0x0D10 false c s = true → resettable m (entered 0x0D10 c s) = [] →
     exec (.imInstanceReset c m) s = answered 0x0D10 c (multipart m resetPart (entered 0x0D10 c s)).2 (multipart m resetPart (entered 0x0D10 c s)).1) ∧
  (∀ (s : State) (n : Nat), instState s (n + 1) = .active ∨ instState s (n + 1) = .frozen → resetPart n s = (startReset (n + 1) s, .ok, [])) ∧
  (∀ (s : State) (n : Nat), instState s (n + 1) = .absent → resetPart n s = (s, .notReady, [])) ∧
  (∀ (s : State) (n : Nat), instState s (n + 1) = .resetting → resetPart n s = (s, .busy, [])) ∧
  (∀ (s : State) (i : Nat), instState s i = .resetting → (getInst s i).dmaOld = 0 ∨ (getInst s i).resetAt + usTu 150 ≤ s.abs →
     exec (.resetEnd i) s = .next (answerResets i (raiseArg 0x6A i (BitVec.ofNat 32 i) (endReset i s)))) ∧
  (∀ (s : State) (i : Nat), instState s i ≠ .resetting ∨ ((getInst s i).dmaOld ≠ 0 ∧ s.abs < (getInst s i).resetAt + usTu 150) →
     exec (.resetEnd i) s = .next s) ∧
  (∀ (s : State) (i : Nat),
     exec (.dmaReadCompletion i (getInst s i).epoch) s = .next (modInst i (fun n => { n with dmaOut := n.dmaOut - 1 }) s)) ∧
  (∀ (s : State) (i : Nat) (e : BitVec 16), e ≠ (getInst s i).epoch →
     exec (.dmaReadCompletion i e) s = .next (epochDiscard i (modInst i (fun n => { n with dmaOld := n.dmaOld - 1 }) s))) ∧
  (∀ (s : State) (i : Nat), s.glob.ready = true → instState s i ≠ .absent →
     exec (.resetRequestWrite i 0x52535400) s = .next (raiseArg 0x69 i (BitVec.ofNat 32 i) (onIm (fun m => { m with resetReq := true }) (modInst i (fun n => { n with resetReq := true }) s)))) ∧
  (∀ (s : State) (i : Nat) (v : BitVec 32), s.glob.ready = false ∨ instState s i = .absent ∨ v ≠ 0x52535400 →
     exec (.resetRequestWrite i v) s = .next s) ∧
  (∀ (c : Cmd) (s : State) (i : Nat), runs 0x0D12 false c s = true → i < 1 ∨ 64 < i →
     exec (.imInstanceFreeze c i) s = answered 0x0D12 c (st .badParam) (entered 0x0D12 c s)) ∧
  (∀ (c : Cmd) (s : State) (i : Nat), runs 0x0D12 false c s = true → 1 ≤ i → i ≤ 64 →
     instState (entered 0x0D12 c s) i ≠ .active ∨ freezable (entered 0x0D12 c s) i = false →
     exec (.imInstanceFreeze c i) s = answered 0x0D12 c (st .notReady) (entered 0x0D12 c s)) ∧
  (∀ (c : Cmd) (s : State) (i : Nat), runs 0x0D12 false c s = true → 1 ≤ i → i ≤ 64 → instState (entered 0x0D12 c s) i = .active →
     freezable (entered 0x0D12 c s) i = true → (getInst (entered 0x0D12 c s) i).freezeAt.isSome = true →
     exec (.imInstanceFreeze c i) s = answered 0x0D12 c (st .busy) (entered 0x0D12 c s)) ∧
  (∀ (c : Cmd) (s : State) (i : Nat), runs 0x0D12 false c s = true → 1 ≤ i → i ≤ 64 → instState (entered 0x0D12 c s) i = .active →
     freezable (entered 0x0D12 c s) i = true → (getInst (entered 0x0D12 c s) i).freezeAt = none →
     exec (.imInstanceFreeze c i) s = .next (outstanding { cmd := c, opcode := 0x0D12 } (modInst i (fun n => { n with freezeAt := some ((entered 0x0D12 c s).now, { cmd := c, opcode := 0x0D12 }) }) (entered 0x0D12 c s)))) ∧
  (∀ (s : State) (i : Nat) (t : LT) (w : Waiting), (getInst s i).freezeAt = some (t, w) → boundaryAfter s t (usTu 10) = true →
     freezable s i = true →
     ∃ u, exec (.freezeBoundary i) s = .next u ∧ instState u i = .frozen ∧ (getInst u i).freezeAt = none ∧ (getInst u i).saved.isSome = true) ∧
  (∀ (s : State) (i : Nat) (t : LT) (w : Waiting), (getInst s i).freezeAt = some (t, w) → boundaryAfter s t (usTu 10) = true →
     freezable (modInst i (fun n => { n with freezeAt := none }) s) i = true →
     exec (.freezeBoundary i) s = .next (reply w (st .ok) (setInst i .frozen (if (saveInst (modInst i (fun n => { n with freezeAt := none }) s) i s.fb.frameLt).run = .hold then (onFb (fun f => { f with own := f.own.upd i {} (fun r => { r with frozen := true, reason := .command }) }) (modInst i (fun n => { n with saved := some (saveInst (modInst i (fun n => { n with freezeAt := none }) s) i s.fb.frameLt), restored := false, resume := (saveInst (modInst i (fun n => { n with freezeAt := none }) s) i s.fb.frameLt).run, hq := n.hq.map (fun h => (h.1, { h.2 with stopped := true })) }) (modInst i (fun n => { n with freezeAt := none }) s))) else setRun i .hold (some .command) s.fb.frameLt (onFb (fun f => { f with own := f.own.upd i {} (fun r => { r with frozen := true, reason := .command }) }) (modInst i (fun n => { n with saved := some (saveInst (modInst i (fun n => { n with freezeAt := none }) s) i s.fb.frameLt), restored := false, resume := (saveInst (modInst i (fun n => { n with freezeAt := none }) s) i s.fb.frameLt).run, hq := n.hq.map (fun h => (h.1, { h.2 with stopped := true })) }) (modInst i (fun n => { n with freezeAt := none }) s))))))) ∧
  (∀ (s : State) (i : Nat) (t : LT) (w : Waiting), (getInst s i).freezeAt = some (t, w) → boundaryAfter s t (usTu 10) = true →
     freezable (modInst i (fun n => { n with freezeAt := none }) s) i = false →
     exec (.freezeBoundary i) s = .next (reply w (st .notReady) (modInst i (fun n => { n with freezeAt := none }) s))) ∧
  (∀ (s : State) (i : Nat), (getInst s i).freezeAt.all (fun x => !boundaryAfter s x.1 (usTu 10)) = true → exec (.freezeBoundary i) s = .next s) ∧
  (∀ (c : Cmd) (s : State) (i n : Nat), runs 0x0D13 false c s = true →
     instState (entered 0x0D13 c s) i ≠ .frozen ∨ (getInst (entered 0x0D13 c s) i).saved = none →
     exec (.imInstanceSave c i n) s = answered 0x0D13 c (st .notReady) (entered 0x0D13 c s)) ∧
  (∀ (c : Cmd) (s : State) (i n : Nat) (e : Status), runs 0x0D13 false c s = true → instState (entered 0x0D13 c s) i = .frozen →
     (getInst (entered 0x0D13 c s) i).saved.isSome = true → blobKeyRefusal (entered 0x0D13 c s) n 0 = some e →
     exec (.imInstanceSave c i n) s = answered 0x0D13 c (st e) (entered 0x0D13 c s)) ∧
  (∀ (c : Cmd) (s : State) (i n : Nat) (x : SavedState), runs 0x0D13 false c s = true → instState (entered 0x0D13 c s) i = .frozen →
     (getInst (entered 0x0D13 c s) i).saved = some x → blobKeyRefusal (entered 0x0D13 c s) n 0 = none → c.bufLen < blobLen x →
     exec (.imInstanceSave c i n) s = answered 0x0D13 c { status := .badParam, r0 := BitVec.ofNat 64 (blobLen x) } (entered 0x0D13 c s)) ∧
  (∀ (c : Cmd) (s : State) (i n : Nat) (x : SavedState), runs 0x0D13 false c s = true → instState (entered 0x0D13 c s) i = .frozen →
     (getInst (entered 0x0D13 c s) i).saved = some x → blobKeyRefusal (entered 0x0D13 c s) n 0 = none → blobLen x ≤ c.bufLen →
     (entered 0x0D13 c s).kv.trngFail = true → exec (.imInstanceSave c i n) s = answered 0x0D13 c (st .notReady) (entered 0x0D13 c s)) ∧
  (∀ (c : Cmd) (s : State) (i n : Nat) (x : SavedState), runs 0x0D13 false c s = true → instState (entered 0x0D13 c s) i = .frozen →
     (getInst (entered 0x0D13 c s) i).saved = some x → blobKeyRefusal (entered 0x0D13 c s) n 0 = none → blobLen x ≤ c.bufLen →
     (entered 0x0D13 c s).kv.trngFail = false →
     exec (.imInstanceSave c i n) s = answered 0x0D13 c { status := .ok, r0 := BitVec.ofNat 64 (blobLen x), buf := .bytes (sealBlob (getSlot (randomBytes 12 (entered 0x0D13 c s)).2 n).material (savedHeader (randomBytes 12 (entered 0x0D13 c s)).2.glob.serial (randomBytes 12 (entered 0x0D13 c s)).2.glob.fwVersion n (randomBytes 12 (entered 0x0D13 c s)).1 x) x) } (randomBytes 12 (entered 0x0D13 c s)).2) ∧
  (∀ (c : Cmd) (s : State) (i : Nat) (b : List Byte), runs 0x0D14 false c s = true → instState (entered 0x0D14 c s) i ≠ .frozen →
     exec (.imInstanceRestore c i b) s = answered 0x0D14 c (st .notReady) (entered 0x0D14 c s)) ∧
  (∀ (c : Cmd) (s : State) (i : Nat) (b : List Byte) (e : ReplyBody), runs 0x0D14 false c s = true →
     instState (entered 0x0D14 c s) i = .frozen → openBlob i b (entered 0x0D14 c s) = .error e →
     exec (.imInstanceRestore c i b) s = answered 0x0D14 c e (entered 0x0D14 c s)) ∧
  (∀ (c : Cmd) (s : State) (i : Nat) (b : List Byte) (x : SavedState), runs 0x0D14 false c s = true →
     instState (entered 0x0D14 c s) i = .frozen → openBlob i b (entered 0x0D14 c s) = .ok x →
     exec (.imInstanceRestore c i b) s = answered 0x0D14 c (st .ok) (modInst i (fun n => { n with restore := some ((entered 0x0D14 c s).now, x) }) (entered 0x0D14 c s))) ∧
  (∀ (s : State) (i : Nat) (b : List Byte), blobHeadOk b = false → openBlob i b s = .error (st .badParam)) ∧
  (∀ (s : State) (i : Nat) (b : List Byte), blobHeadOk b = true → ofBytesLE ((b.drop 0x10).take 4) ≠ 0x7780 →
     openBlob i b s = .error (st .denied)) ∧
  (∀ (s : State) (i : Nat) (b : List Byte), blobHeadOk b = true → ofBytesLE ((b.drop 0x10).take 4) = 0x7780 →
     ofBytesLE ((b.drop 0x14).take 1) ≠ i → openBlob i b s = .error (st .badParam)) ∧
  (∀ (s : State) (i : Nat) (b : List Byte) (e : Status), blobHeadOk b = true → ofBytesLE ((b.drop 0x10).take 4) = 0x7780 →
     ofBytesLE ((b.drop 0x14).take 1) = i → blobKeyRefusal s (ofBytesLE ((b.drop 0x26).take 2)) 1 = some e → openBlob i b s = .error (st e)) ∧
  (∀ (s : State) (i : Nat) (b : List Byte), blobHeadOk b = true → ofBytesLE ((b.drop 0x10).take 4) = 0x7780 →
     ofBytesLE ((b.drop 0x14).take 1) = i → blobKeyRefusal s (ofBytesLE ((b.drop 0x26).take 2)) 1 = none →
     gcmOpen (getSlot s (ofBytesLE ((b.drop 0x26).take 2))).material (headerIv (b.take 128)) (b.take 128) ((b.drop 128).take ((b.drop 128).length - 16)) (BitVec.ofNat 128 (ofBytesBE ((b.drop 128).drop ((b.drop 128).length - 16)))) = none →
     openBlob i b s = .error { status := .badParam, detail := 1 }) ∧
  (∀ (s : State) (i : Nat) (b : List Byte) (y : List Byte), blobHeadOk b = true → ofBytesLE ((b.drop 0x10).take 4) = 0x7780 →
     ofBytesLE ((b.drop 0x14).take 1) = i → blobKeyRefusal s (ofBytesLE ((b.drop 0x26).take 2)) 1 = none →
     gcmOpen (getSlot s (ofBytesLE ((b.drop 0x26).take 2))).material (headerIv (b.take 128)) (b.take 128) ((b.drop 128).take ((b.drop 128).length - 16)) (BitVec.ofNat 128 (ofBytesBE ((b.drop 128).drop ((b.drop 128).length - 16)))) = some y →
     ofBytesBE (((b.take 128).drop 0x50).take 32) ≠ (getInst s i).configHash.toNat → openBlob i b s = .error { status := .badParam, detail := 3 }) ∧
  (∀ (s : State) (i : Nat) (b : List Byte) (y : List Byte), blobHeadOk b = true → ofBytesLE ((b.drop 0x10).take 4) = 0x7780 →
     ofBytesLE ((b.drop 0x14).take 1) = i → blobKeyRefusal s (ofBytesLE ((b.drop 0x26).take 2)) 1 = none →
     gcmOpen (getSlot s (ofBytesLE ((b.drop 0x26).take 2))).material (headerIv (b.take 128)) (b.take 128) ((b.drop 128).take ((b.drop 128).length - 16)) (BitVec.ofNat 128 (ofBytesBE ((b.drop 128).drop ((b.drop 128).length - 16)))) = some y →
     ofBytesBE (((b.take 128).drop 0x50).take 32) = (getInst s i).configHash.toNat → sectionsOf (ofBytesLE ((b.drop 0x24).take 2)) y = none →
     openBlob i b s = .error (st .badParam)) ∧
  (∀ (s : State) (i : Nat) (b : List Byte) (y : List Byte) (l : List (Nat × Nat × List Byte)), blobHeadOk b = true →
     ofBytesLE ((b.drop 0x10).take 4) = 0x7780 → ofBytesLE ((b.drop 0x14).take 1) = i →
     blobKeyRefusal s (ofBytesLE ((b.drop 0x26).take 2)) 1 = none →
     gcmOpen (getSlot s (ofBytesLE ((b.drop 0x26).take 2))).material (headerIv (b.take 128)) (b.take 128) ((b.drop 128).take ((b.drop 128).length - 16)) (BitVec.ofNat 128 (ofBytesBE ((b.drop 128).drop ((b.drop 128).length - 16)))) = some y →
     ofBytesBE (((b.take 128).drop 0x50).take 32) = (getInst s i).configHash.toNat → sectionsOf (ofBytesLE ((b.drop 0x24).take 2)) y = some l →
     openBlob i b s = .ok (readSections s i (b.take 128) l)) ∧
  (∀ (s : State) (i : Nat) (t : LT) (x : SavedState), (getInst s i).restore = some (t, x) → instState s i = .frozen →
     boundaryAfter s t 1 = true → exec (.restoreApply i) s = .next (applySaved i x (modInst i (fun n => { n with restore := none }) s))) ∧
  (∀ (s : State) (i : Nat), instState s i ≠ .frozen ∨ (getInst s i).restore.all (fun x => !boundaryAfter s x.1 1) = true →
     exec (.restoreApply i) s = .next s) ∧
  (∀ (c : Cmd) (s : State) (i : Nat), runs 0x0D15 false c s = true → instState (entered 0x0D15 c s) i ≠ .frozen →
     exec (.imInstanceThaw c i) s = answered 0x0D15 c (st .notReady) (entered 0x0D15 c s)) ∧
  (∀ (c : Cmd) (s : State) (i : Nat), runs 0x0D15 false c s = true → instState (entered 0x0D15 c s) i = .frozen →
     (getInst (entered 0x0D15 c s) i).thawAt.isSome = true → exec (.imInstanceThaw c i) s = answered 0x0D15 c (st .busy) (entered 0x0D15 c s)) ∧
  (∀ (c : Cmd) (s : State) (i : Nat), runs 0x0D15 false c s = true → instState (entered 0x0D15 c s) i = .frozen →
     (getInst (entered 0x0D15 c s) i).thawAt = none →
     exec (.imInstanceThaw c i) s = .next (outstanding { cmd := c, opcode := 0x0D15 } (modInst i (fun n => { n with thawAt := some ((entered 0x0D15 c s).now, { cmd := c, opcode := 0x0D15 }) }) (entered 0x0D15 c s)))) ∧
  (∀ (s : State) (i : Nat) (t : LT) (w : Waiting), (getInst s i).thawAt = some (t, w) → instState s i = .frozen → boundaryAfter s t 1 = true →
     ∃ u, exec (.thawBoundary i) s = .next u ∧ instState u i = .active ∧ (getInst u i).thawAt = none ∧ (getInst u i).saved = none) ∧
  (∀ (s : State) (i : Nat) (t : LT) (w : Waiting), (getInst s i).thawAt = some (t, w) → instState s i = .frozen → boundaryAfter s t 1 = true →
     ∃ u, u = (if (getInst s i).resume = .hold then (modOwnerTasks i (fun k => { k with paused := true }) (onFb (fun f => { f with own := f.own.upd i {} (fun r => { r with frozen := false }) }) (modInst i (fun n => { n with thawAt := none, saved := none, hq := n.hq.map (fun h => (h.1, { h.2 with stopped := false })), dmaOut := n.dmaOut + ((n.hq.filter (fun h => h.2.stopped)).map (fun h => (h.2.tail - h.2.head).toNat)).sum }) s))) else setRun i (getInst s i).resume none s.fb.frameLt (modOwnerTasks i (fun k => { k with paused := true }) (onFb (fun f => { f with own := f.own.upd i {} (fun r => { r with frozen := false }) }) (modInst i (fun n => { n with thawAt := none, saved := none, hq := n.hq.map (fun h => (h.1, { h.2 with stopped := false })), dmaOut := n.dmaOut + ((n.hq.filter (fun h => h.2.stopped)).map (fun h => (h.2.tail - h.2.head).toNat)).sum }) s)))) ∧ exec (.thawBoundary i) s = .next (reply w (st .ok) (setInst i .active (modInst i (fun n => { n with restored := false }) (if (getInst s i).restored = true then thawGoose i u else u))))) ∧
  (∀ (s : State) (i : Nat), instState s i ≠ .frozen ∨ (getInst s i).thawAt.all (fun x => !boundaryAfter s x.1 1) = true →
     exec (.thawBoundary i) s = .next s) ∧
  (∀ (c : Cmd) (s : State) (i : Nat), runs 0x0D16 true c s = true → i < 1 ∨ 64 < i →
     exec (.imInstanceInfo c i) s = answered 0x0D16 c (st .badParam) (entered 0x0D16 c s)) ∧
  (∀ (c : Cmd) (s : State) (i : Nat), runs 0x0D16 true c s = true → 1 ≤ i → i ≤ 64 → issuer c ≠ 0 → issuer c ≠ i →
     exec (.imInstanceInfo c i) s = answered 0x0D16 c (st .denied) (entered 0x0D16 c s)) ∧
  (∀ (c : Cmd) (s : State) (i : Nat), runs 0x0D16 true c s = true → 1 ≤ i → i ≤ 64 → issuer c = 0 ∨ issuer c = i →
     exec (.imInstanceInfo c i) s = answered 0x0D16 c { status := .ok, buf := .recs [[if instState (entered 0x0D16 c s) i = .absent then 0 else if instState (entered 0x0D16 c s) i = .active then 1 else if instState (entered 0x0D16 c s) i = .resetting then 2 else 3, (getInst (entered 0x0D16 c s) i).epoch.toNat, (getInst (entered 0x0D16 c s) i).shares.pasid.toNat, (getInst (entered 0x0D16 c s) i).configHash.toNat], [(getInst (entered 0x0D16 c s) i).shares.apertures.length, (getInst (entered 0x0D16 c s) i).shares.dram.length, (getInst (entered 0x0D16 c s) i).shares.staging, (getInst (entered 0x0D16 c s) i).shares.engines.length, (getInst (entered 0x0D16 c s) i).shares.queues.length, (getInst (entered 0x0D16 c s) i).shares.hostQueues, (getInst (entered 0x0D16 c s) i).shares.ports.toNat, (getInst (entered 0x0D16 c s) i).shares.pubEntries, (getInst (entered 0x0D16 c s) i).shares.forceEntries, (getInst (entered 0x0D16 c s) i).shares.kvSlots.length, (getInst (entered 0x0D16 c s) i).shares.tcus.length, (getInst (entered 0x0D16 c s) i).shares.dmaSlots.length, (getInst (entered 0x0D16 c s) i).shares.rings, (getInst (entered 0x0D16 c s) i).shares.meters.toNat]] } (entered 0x0D16 c s)) ∧
  (∀ (c : Cmd) (s : State) (i : Nat) (j : Fin 16) (x : Option HostqCfg), runs 0x0D11 false c s = true → i < 1 ∨ 64 < i →
     exec (.imHostqSet c i j x) s = answered 0x0D11 c (st .badParam) (entered 0x0D11 c s)) ∧
  (∀ (c : Cmd) (s : State) (i : Nat) (j : Fin 16) (x : Option HostqCfg), runs 0x0D11 false c s = true → 1 ≤ i → i ≤ 64 →
     instState (entered 0x0D11 c s) i ≠ .active → instState (entered 0x0D11 c s) i ≠ .frozen →
     exec (.imHostqSet c i j x) s = answered 0x0D11 c (st .notReady) (entered 0x0D11 c s)) ∧
  (∀ (c : Cmd) (s : State) (i : Nat) (j : Fin 16), runs 0x0D11 false c s = true → 1 ≤ i → i ≤ 64 →
     instState (entered 0x0D11 c s) i = .active ∨ instState (entered 0x0D11 c s) i = .frozen →
     (getInst (entered 0x0D11 c s) i).hq.get? j.val = none →
     exec (.imHostqSet c i j none) s = answered 0x0D11 c (st .badParam) (entered 0x0D11 c s)) ∧
  (∀ (c : Cmd) (s : State) (i : Nat) (j : Fin 16), runs 0x0D11 false c s = true → 1 ≤ i → i ≤ 64 →
     instState (entered 0x0D11 c s) i = .active ∨ instState (entered 0x0D11 c s) i = .frozen →
     ((getInst (entered 0x0D11 c s) i).hq.get? j.val).isSome = true →
     exec (.imHostqSet c i j none) s = answered 0x0D11 c (st .ok) (modInst i (fun n => { n with hq := n.hq.del j.val }) (entered 0x0D11 c s))) ∧
  (∀ (c : Cmd) (s : State) (i : Nat) (j : Fin 16) (q : HostqCfg), runs 0x0D11 false c s = true → 1 ≤ i → i ≤ 64 →
     instState (entered 0x0D11 c s) i = .active ∨ instState (entered 0x0D11 c s) i = .frozen →
     q.size < 4 ∨ 12 < q.size ∨ (getInst (entered 0x0D11 c s) i).shares.queues.contains q.qnum = false ∨ qUnused (entered 0x0D11 c s).qm.cap q.qnum = true ∨ (qCfg (entered 0x0D11 c s).qm.cap q.qnum).toHost ≠ some q.toHost →
     exec (.imHostqSet c i j (some q)) s = answered 0x0D11 c (st .badParam) (entered 0x0D11 c s)) ∧
  (∀ (c : Cmd) (s : State) (i : Nat) (j : Fin 16) (q : HostqCfg), runs 0x0D11 false c s = true → 1 ≤ i → i ≤ 64 →
     instState (entered 0x0D11 c s) i = .active ∨ instState (entered 0x0D11 c s) i = .frozen → 4 ≤ q.size → q.size ≤ 12 →
     (getInst (entered 0x0D11 c s) i).shares.queues.contains q.qnum = true → qUnused (entered 0x0D11 c s).qm.cap q.qnum = false →
     (qCfg (entered 0x0D11 c s).qm.cap q.qnum).toHost = some q.toHost →
     (getInst (entered 0x0D11 c s) i).shares.hostQueues ≤ ((getInst (entered 0x0D11 c s) i).hq.del j.val).length →
     exec (.imHostqSet c i j (some q)) s = answered 0x0D11 c (st .quota) (entered 0x0D11 c s)) ∧
  (∀ (c : Cmd) (s : State) (i : Nat) (j : Fin 16) (q : HostqCfg), runs 0x0D11 false c s = true → 1 ≤ i → i ≤ 64 →
     instState (entered 0x0D11 c s) i = .active ∨ instState (entered 0x0D11 c s) i = .frozen → 4 ≤ q.size → q.size ≤ 12 →
     (getInst (entered 0x0D11 c s) i).shares.queues.contains q.qnum = true → qUnused (entered 0x0D11 c s).qm.cap q.qnum = false →
     (qCfg (entered 0x0D11 c s).qm.cap q.qnum).toHost = some q.toHost →
     ((getInst (entered 0x0D11 c s) i).hq.del j.val).length < (getInst (entered 0x0D11 c s) i).shares.hostQueues →
     exec (.imHostqSet c i j (some q)) s = answered 0x0D11 c (st .ok) (modInst i (fun n => { n with hq := n.hq.put j.val { qnum := q.qnum, toHost := q.toHost, base := q.base, size := q.size, vector := q.vector.toNat, stopped := instState (entered 0x0D11 c s) i == .frozen } }) (entered 0x0D11 c s)))

/-- A tail write posts descriptors to a host queue of an active or frozen instance. The engine takes the next descriptor of an active instance
with a DMA slot, a queue that runs, a descriptor posted and, towards the host, a word to move: a descriptor outside the apertures is
flagged and not read; a buffer outside them completes DENIED, a length outside 64–10,272 BAD_PARAM. Towards the host one packet leaves the
queue: a word in error or of an older epoch discards it, a packet longer than the buffer completes BAD_PARAM with its length, else it is
written and completes OK. From the host the buffer's header and payload enter the queue, and the descriptor completes with what the queue
answers. A write of an event mask, the manager's or an instance's, replaces its word and sends one message per vector with an event bit
whose mask bit clears; elsewhere it does nothing. A function-level reset resets the active and frozen instances, destroys the instance
rings, disables the manager's and the mirror, and stops the host queues; PERST_N low takes the link down with it; its rise is wake source
5 and starts link training, and otherwise only the RTC reading is taken. Definitions in it hold choices of the model: log 67, 77, 86, 89,
90, 110, 134, 152. -/
def Obligations.HostQueuesAndFunctionResets : Prop :=
  (∀ (s : State) (i : Nat) (j : Fin 16) (v : BitVec 16) (h : HostQ), s.glob.ready = true → instState s i = .active ∨ instState s i = .frozen →
     (getInst s i).hq.get? j.val = some h →
     exec (.hostqTailWrite i j v) s = .next (modInst i (fun n => { n with hq := n.hq.put j.val { h with tail := v }, dmaOut := if h.stopped then n.dmaOut else n.dmaOut + (v - h.tail).toNat }) s)) ∧
  (∀ (s : State) (i : Nat) (j : Fin 16) (v : BitVec 16),
     s.glob.ready = false ∨ (instState s i ≠ .active ∧ instState s i ≠ .frozen) ∨ (getInst s i).hq.get? j.val = none →
     exec (.hostqTailWrite i j v) s = .next s) ∧
  (∀ (s : State) (i : Nat) (j : Fin 16) (d b : List Byte) (g : Option GuardFind),
     instState s i ≠ .active ∨ hasDma s i = false ∨ (getInst s i).hq.get? j.val = none → exec (.hostqDescriptor i j d b g) s = .next s) ∧
  (∀ (s : State) (i : Nat) (j : Fin 16) (d b : List Byte) (g : Option GuardFind) (h : HostQ), (getInst s i).hq.get? j.val = some h →
     h.stopped = true ∨ h.head = h.tail ∨ (h.toHost = true ∧ (getQ s h.qnum).words = []) → exec (.hostqDescriptor i j d b g) s = .next s) ∧
  (∀ (s : State) (i : Nat) (j : Fin 16) (d b : List Byte) (g : Option GuardFind) (h : HostQ), instState s i = .active → hasDma s i = true →
     (getInst s i).hq.get? j.val = some h → h.stopped = false → h.head ≠ h.tail → (h.toHost = true → (getQ s h.qnum).words ≠ []) →
     inAperture s i (descAddr h).toNat 16 = false → exec (.hostqDescriptor i j d b g) s = .next (apertureHit i s)) ∧
  (∀ (s : State) (i : Nat) (j : Fin 16) (d b : List Byte) (g : Option GuardFind) (h : HostQ), instState s i = .active → hasDma s i = true →
     (getInst s i).hq.get? j.val = some h → h.stopped = false → h.head ≠ h.tail → (h.toHost = true → (getQ s h.qnum).words ≠ []) →
     inAperture s i (descAddr h).toNat 16 = true →
     inAperture s i (BitVec.ofNat 64 (ofBytesLE (d.take 8))).toNat (ofBytesLE ((d.drop 8).take 4)) = false →
     exec (.hostqDescriptor i j d b g) s = .next (hostDone i j.val h (BitVec.ofNat 64 (ofBytesLE (d.take 8))) 0 .denied [] (apertureHit i s))) ∧
  (∀ (s : State) (i : Nat) (j : Fin 16) (d b : List Byte) (g : Option GuardFind) (h : HostQ), instState s i = .active → hasDma s i = true →
     (getInst s i).hq.get? j.val = some h → h.stopped = false → h.head ≠ h.tail → (h.toHost = true → (getQ s h.qnum).words ≠ []) →
     inAperture s i (descAddr h).toNat 16 = true →
     inAperture s i (BitVec.ofNat 64 (ofBytesLE (d.take 8))).toNat (ofBytesLE ((d.drop 8).take 4)) = true →
     (ofBytesLE ((d.drop 8).take 4)) < 64 ∨ 10272 < (ofBytesLE ((d.drop 8).take 4)) →
     exec (.hostqDescriptor i j d b g) s = .next (hostDone i j.val h (BitVec.ofNat 64 (ofBytesLE (d.take 8))) 0 .badParam [] s)) ∧
  (∀ (s : State) (i : Nat) (j : Fin 16) (d b : List Byte) (g : Option GuardFind) (h : HostQ) (x : GuardHit), instState s i = .active →
     hasDma s i = true → (getInst s i).hq.get? j.val = some h → h.stopped = false → h.head ≠ h.tail →
     inAperture s i (descAddr h).toNat 16 = true →
     inAperture s i (BitVec.ofNat 64 (ofBytesLE (d.take 8))).toNat (ofBytesLE ((d.drop 8).take 4)) = true →
     64 ≤ (ofBytesLE ((d.drop 8).take 4)) → (ofBytesLE ((d.drop 8).take 4)) ≤ 10272 → h.toHost = true → (getQ s h.qnum).words ≠ [] →
     (guardRead 0x3 g (takePacket h.qnum s).2).1 = some x →
     exec (.hostqDescriptor i j d b g) s = .next (queueGuard (((takePacket h.qnum s).1.head?.map (·.tag)).getD 0) x (guardRead 0x3 g (takePacket h.qnum s).2).2)) ∧
  (∀ (s : State) (i : Nat) (j : Fin 16) (d b : List Byte) (g : Option GuardFind) (h : HostQ), instState s i = .active → hasDma s i = true →
     (getInst s i).hq.get? j.val = some h → h.stopped = false → h.head ≠ h.tail → inAperture s i (descAddr h).toNat 16 = true →
     inAperture s i (BitVec.ofNat 64 (ofBytesLE (d.take 8))).toNat (ofBytesLE ((d.drop 8).take 4)) = true →
     64 ≤ (ofBytesLE ((d.drop 8).take 4)) → (ofBytesLE ((d.drop 8).take 4)) ≤ 10272 → h.toHost = true → (getQ s h.qnum).words ≠ [] →
     (guardRead 0x3 g (takePacket h.qnum s).2).1 = none →
     (takePacket h.qnum s).1.any (epochStale (guardRead 0x3 g (takePacket h.qnum s).2).2) = true →
     exec (.hostqDescriptor i j d b g) s = .next (epochDiscard (((takePacket h.qnum s).1.head?.map (·.tag)).getD 0) (guardRead 0x3 g (takePacket h.qnum s).2).2)) ∧
  (∀ (s : State) (i : Nat) (j : Fin 16) (d b : List Byte) (g : Option GuardFind) (h : HostQ), instState s i = .active → hasDma s i = true →
     (getInst s i).hq.get? j.val = some h → h.stopped = false → h.head ≠ h.tail → inAperture s i (descAddr h).toNat 16 = true →
     inAperture s i (BitVec.ofNat 64 (ofBytesLE (d.take 8))).toNat (ofBytesLE ((d.drop 8).take 4)) = true →
     64 ≤ (ofBytesLE ((d.drop 8).take 4)) → (ofBytesLE ((d.drop 8).take 4)) ≤ 10272 → h.toHost = true → (getQ s h.qnum).words ≠ [] →
     (guardRead 0x3 g (takePacket h.qnum s).2).1 = none →
     (takePacket h.qnum s).1.any (epochStale (guardRead 0x3 g (takePacket h.qnum s).2).2) = false →
     (ofBytesLE ((d.drop 8).take 4)) < (headerOf (takePacket h.qnum s).1 ++ payloadOf (takePacket h.qnum s).1).length →
     exec (.hostqDescriptor i j d b g) s = .next (hostDone i j.val h (BitVec.ofNat 64 (ofBytesLE (d.take 8))) (headerOf (takePacket h.qnum s).1 ++ payloadOf (takePacket h.qnum s).1).length .badParam [] (guardRead 0x3 g (takePacket h.qnum s).2).2)) ∧
  (∀ (s : State) (i : Nat) (j : Fin 16) (d b : List Byte) (g : Option GuardFind) (h : HostQ), instState s i = .active → hasDma s i = true →
     (getInst s i).hq.get? j.val = some h → h.stopped = false → h.head ≠ h.tail → inAperture s i (descAddr h).toNat 16 = true →
     inAperture s i (BitVec.ofNat 64 (ofBytesLE (d.take 8))).toNat (ofBytesLE ((d.drop 8).take 4)) = true →
     64 ≤ (ofBytesLE ((d.drop 8).take 4)) → (ofBytesLE ((d.drop 8).take 4)) ≤ 10272 → h.toHost = true → (getQ s h.qnum).words ≠ [] →
     (guardRead 0x3 g (takePacket h.qnum s).2).1 = none →
     (takePacket h.qnum s).1.any (epochStale (guardRead 0x3 g (takePacket h.qnum s).2).2) = false →
     (headerOf (takePacket h.qnum s).1 ++ payloadOf (takePacket h.qnum s).1).length ≤ (ofBytesLE ((d.drop 8).take 4)) →
     exec (.hostqDescriptor i j d b g) s = .next (hostDone i j.val h (BitVec.ofNat 64 (ofBytesLE (d.take 8))) (headerOf (takePacket h.qnum s).1 ++ payloadOf (takePacket h.qnum s).1).length .ok (headerOf (takePacket h.qnum s).1 ++ payloadOf (takePacket h.qnum s).1) (guardRead 0x3 g (takePacket h.qnum s).2).2)) ∧
  (∀ (s : State) (i : Nat) (j : Fin 16) (d b : List Byte) (g : Option GuardFind) (h : HostQ), instState s i = .active → hasDma s i = true →
     (getInst s i).hq.get? j.val = some h → h.stopped = false → h.head ≠ h.tail → inAperture s i (descAddr h).toNat 16 = true →
     inAperture s i (BitVec.ofNat 64 (ofBytesLE (d.take 8))).toNat (ofBytesLE ((d.drop 8).take 4)) = true →
     64 ≤ (ofBytesLE ((d.drop 8).take 4)) → (ofBytesLE ((d.drop 8).take 4)) ≤ 10272 → h.toHost = false →
     exec (.hostqDescriptor i j d b g) s = .next (hostDone i j.val h (BitVec.ofNat 64 (ofBytesLE (d.take 8))) (if (sendPacket h.qnum i (headerWord ((padTo (ofBytesLE ((d.drop 8).take 4)) b).take 32)) ((padTo (ofBytesLE ((d.drop 8).take 4)) b).drop 32) s).2 = .ok then (ofBytesLE ((d.drop 8).take 4)) else 0) (sendPacket h.qnum i (headerWord ((padTo (ofBytesLE ((d.drop 8).take 4)) b).take 32)) ((padTo (ofBytesLE ((d.drop 8).take 4)) b).drop 32) s).2 [] (sendPacket h.qnum i (headerWord ((padTo (ofBytesLE ((d.drop 8).take 4)) b).take 32)) ((padTo (ofBytesLE ((d.drop 8).take 4)) b).drop 32) s).1)) ∧
  (∀ (s : State) (k : Fin 4) (v : BitVec 32), s.glob.ready = true →
     ∃ t, exec (.eventMaskWrite 0 k v) s = .next t ∧ t.ev.memask = putWord s.ev.memask k.val v ∧ t.ev.mevt = s.ev.mevt) ∧
  (∀ (s : State) (i : Nat) (k : Fin 4) (v : BitVec 32), s.glob.ready = true → 1 ≤ i → i ≤ 64 → instState s i ≠ .absent →
     ∃ t, exec (.eventMaskWrite i k v) s = .next t ∧ t.ev.winMask.getD i 0 = putWord (s.ev.winMask.getD i 0) k.val v ∧ t.ev.memask = s.ev.memask) ∧
  (∀ (s : State) (k : Fin 4) (v : BitVec 32), s.glob.ready = true →
     exec (.eventMaskWrite 0 k v) s = .next ((((List.range 128).filter (fun n => s.ev.memask.getLsbD n && !(putWord s.ev.memask k.val v).getLsbD n && s.ev.mevt.getLsbD n)).map (fun n => (s.im.route.getD n {}).mvec.toNat)).dedup.foldl (fun s m => sendMsix m s) (onEv (fun e => { e with memask := putWord s.ev.memask k.val v }) s))) ∧
  (∀ (s : State) (i : Nat) (k : Fin 4) (v : BitVec 32), s.glob.ready = true → 1 ≤ i → i ≤ 64 → instState s i ≠ .absent →
     exec (.eventMaskWrite i k v) s = .next ((((List.range 128).filter (fun n => (s.ev.winMask.getD i 0).getLsbD n && !(putWord (s.ev.winMask.getD i 0) k.val v).getLsbD n && (s.ev.winEvt.getD i 0).getLsbD n)).map (fun n => vectorOf i (s.im.route.getD n {}).ivec.toNat)).dedup.foldl (fun s m => sendMsix m s) (onEv (fun e => { e with winMask := e.winMask.put i (putWord (s.ev.winMask.getD i 0) k.val v) }) s))) ∧
  (∀ (s : State) (i : Nat) (k : Fin 4) (v : BitVec 32), s.glob.ready = false ∨ (i ≠ 0 ∧ (instState s i = .absent ∨ 64 < i)) →
     exec (.eventMaskWrite i k v) s = .next s) ∧
  (∀ (s : State), s.glob.ready = true →
     ∃ t, exec .functionLevelReset s = .next t ∧ t = functionReset s ∧ t.su.iring = [] ∧ t.sw.mirEn = false ∧ t.im.flr = true) ∧
  (∀ (s : State), s.glob.ready = false → exec .functionLevelReset s = .next s) ∧
  (∀ (s : State), s.glob.perstN = true → s.glob.ready = true →
     exec .perstAssert s = .next (functionReset (onGlob (fun g => { g with perstN := false }) (onIm (fun m => { m with linkUp := false, linkX8 := false }) s)))) ∧
  (∀ (s : State), s.glob.perstN = true → s.glob.ready = false →
     exec .perstAssert s = .next (onGlob (fun g => { g with perstN := false }) (onIm (fun m => { m with linkUp := false, linkX8 := false }) s))) ∧
  (∀ (s : State), s.glob.perstN = false → exec .perstAssert s = .next s) ∧
  (∀ (s : State) (r : BitVec 48), s.glob.perstN = false →
     exec (.perstNRise r) s = .next (startLink (wakeSource 5 (onGlob (fun g => { g with perstN := true }) (setRtc r s))))) ∧
  (∀ (s : State) (r : BitVec 48), s.glob.perstN = true → exec (.perstNRise r) s = .next (setRtc r s))

/-- PA_DOMAIN_CTRL acts part by part, BAD_PARAM for a part outside PD2–PD8, and adds DETAIL 0xF001 to a DENIED reply: wake (DOMAIN_OFF where
the domain is LOCKED), off (no effect on a LOCKED domain) and lock (a wake begun on the same cycle gives way) are DENIED for a domain in
use; both wait for accesses that stall behind a wake; unlock returns a LOCKED domain to its staged mode, and wakes it where that is ON.
PA_SLEEP: BUSY while a request is carried out, the refusal of R549 counted by its reason, else the request waits for its boundary. The
manager area is read with an error bit per word and written in whole words, BAD_PARAM outside it, NOT_READY in low-power mode. The start-
up report and the tamper latches are answered and cleared. Definitions in it hold choices of the model: log 81, 85, 112, 155. -/
def Obligations.PowerCommandsAnswer : Prop :=
  (∀ (c : Cmd) (s : State) (m : BitVec 64), runs 0x0F10 false c s = true →
     exec (.paDomainWake c m) s = answered 0x0F10 c (if (multipart m (domainPart wakePart) (entered 0x0F10 c s)).2.status = .denied then { (multipart m (domainPart wakePart) (entered 0x0F10 c s)).2 with detail := 0xF001 } else (multipart m (domainPart wakePart) (entered 0x0F10 c s)).2) (multipart m (domainPart wakePart) (entered 0x0F10 c s)).1) ∧
  (∀ (c : Cmd) (s : State) (m : BitVec 64), runs 0x0F10 false c s = true →
     exec (.paDomainOff c m) s = answered 0x0F10 c (if (multipart m (domainPart offPart) (entered 0x0F10 c s)).2.status = .denied then { (multipart m (domainPart offPart) (entered 0x0F10 c s)).2 with detail := 0xF001 } else (multipart m (domainPart offPart) (entered 0x0F10 c s)).2) (multipart m (domainPart offPart) (entered 0x0F10 c s)).1) ∧
  (∀ (c : Cmd) (s : State) (m : BitVec 64), runs 0x0F10 false c s = true →
     exec (.paDomainLock c m) s = answered 0x0F10 c (if (multipart m (domainPart lockPart) (entered 0x0F10 c s)).2.status = .denied then { (multipart m (domainPart lockPart) (entered 0x0F10 c s)).2 with detail := 0xF001 } else (multipart m (domainPart lockPart) (entered 0x0F10 c s)).2) (multipart m (domainPart lockPart) (entered 0x0F10 c s)).1) ∧
  (∀ (c : Cmd) (s : State) (m : BitVec 64), runs 0x0F10 false c s = true →
     exec (.paDomainUnlock c m) s = answered 0x0F10 c (if (multipart m (domainPart unlockPart) (entered 0x0F10 c s)).2.status = .denied then { (multipart m (domainPart unlockPart) (entered 0x0F10 c s)).2 with detail := 0xF001 } else (multipart m (domainPart unlockPart) (entered 0x0F10 c s)).2) (multipart m (domainPart unlockPart) (entered 0x0F10 c s)).1) ∧
  (∀ (s : State) (n : Nat) (f : Nat → State → State × Status), n < 2 ∨ 8 < n → domainPart f n s = (s, .badParam, [])) ∧
  (∀ (s : State) (n : Nat), 2 ≤ n → n ≤ 8 → pdState s n ≠ .locked → domainPart wakePart n s = (wakeDomain false n s, .ok, [])) ∧
  (∀ (s : State) (n : Nat), 2 ≤ n → n ≤ 8 → pdState s n = .locked → domainPart wakePart n s = (lockRefused n s, .domainOff, [])) ∧
  (∀ (s : State) (n : Nat), 2 ≤ n → n ≤ 8 → (vget s.pa.pd n {}).inUse = false → pdState s n ≠ .locked →
     domainPart offPart n s = (turnOff .off n s, .ok, [])) ∧
  (∀ (s : State) (n : Nat), 2 ≤ n → n ≤ 8 → (vget s.pa.pd n {}).inUse = false → pdState s n = .locked → domainPart offPart n s = (s, .ok, [])) ∧
  (∀ (s : State) (n : Nat), 2 ≤ n → n ≤ 8 → (vget s.pa.pd n {}).inUse = true →
     domainPart offPart n s = (s, .denied, []) ∧ domainPart lockPart n s = (s, .denied, [])) ∧
  (∀ (s : State) (n : Nat), 2 ≤ n → n ≤ 8 → (vget s.pa.pd n {}).inUse = false → pdState s n ≠ .waking ∨ (vget s.pa.pd n {}).wakeAt ≠ s.abs →
     domainPart lockPart n s = (modPd n (fun d => { d with mode := .locked }) (turnOff .locked n s), .ok, [])) ∧
  (∀ (s : State) (n : Nat), 2 ≤ n → n ≤ 8 → (vget s.pa.pd n {}).inUse = false → pdState s n = .waking → (vget s.pa.pd n {}).wakeAt = s.abs →
     domainPart lockPart n s = (modPd n (fun d => { d with mode := .locked }) (turnOff .locked n (lockRefused n (modPd n (fun d => { d with state := .off, stalled := [], woken := d.wakeWas.1, wakes := d.wakeWas.2 }) s))), .ok, [])) ∧
  (∀ (s : State) (n : Nat), 2 ≤ n → n ≤ 8 → (vget s.pa.pd n {}).mode ≠ .locked ∨ (vget s.pa.pd n {}).staged = .locked →
     domainPart unlockPart n s = (s, .ok, [])) ∧
  (∀ (s : State) (n : Nat), 2 ≤ n → n ≤ 8 → (vget s.pa.pd n {}).mode = .locked → (vget s.pa.pd n {}).staged ≠ .locked →
     domainPart unlockPart n s = (if (vget s.pa.pd n {}).staged = .on then wakeDomain false n (unlockOff n (modPd n (fun d => { d with mode := d.staged }) s)) else unlockOff n (modPd n (fun d => { d with mode := d.staged }) s), .ok, [])) ∧
  (∀ (s : State) (n : Nat), pdState s n = .waking → (vget s.pa.pd n {}).stalled ≠ [] →
     turnOff .off n s = modPd n (fun d => { d with after := some .off }) s ∧ turnOff .locked n s = modPd n (fun d => { d with after := some .locked }) s) ∧
  (∀ (s : State) (n : Nat), pdState s n ≠ .waking ∨ (vget s.pa.pd n {}).stalled = [] →
     turnOff .off n s = powerOff .off n s ∧ turnOff .locked n s = powerOff .locked n s) ∧
  (∀ (c : Cmd) (s : State) (m : BitVec 16) (a : BitVec 48), runs 0x0F11 false c s = true → (entered 0x0F11 c s).pa.sleepReq.isSome = true →
     exec (.paSleep c m a) s = answered 0x0F11 c (st .busy) (entered 0x0F11 c s)) ∧
  (∀ (c : Cmd) (s : State) (m : BitVec 16) (a : BitVec 48) (k : Nat) (e : Status), runs 0x0F11 false c s = true →
     (entered 0x0F11 c s).pa.sleepReq = none → sleepRefusal (entered 0x0F11 c s) = some (k, e) →
     exec (.paSleep c m a) s = answered 0x0F11 c (st e) (sleepRefused k (entered 0x0F11 c s))) ∧
  (∀ (c : Cmd) (s : State) (m : BitVec 16) (a : BitVec 48), runs 0x0F11 false c s = true → (entered 0x0F11 c s).pa.sleepReq = none →
     sleepRefusal (entered 0x0F11 c s) = none →
     exec (.paSleep c m a) s = .next (outstanding { cmd := c, opcode := 0x0F11 } (onPa (fun p => { p with sleepReq := some ({ cmd := c, opcode := 0x0F11 }, m, a), sleepStep := 0, sleepAt := (entered 0x0F11 c s).now }) (entered 0x0F11 c s)))) ∧
  (∀ (s : State),
     (s.fo.state = .active → sleepRefusal s = some (1, .denied)) ∧ (s.fo.state ≠ .active → s.su.armed.isSome = true → sleepRefusal s = some (2, .busy)) ∧ (sleepRefusal s = none → s.fo.state ≠ .active ∧ s.su.armed = none ∧ s.su.resync = false ∧ s.kv.journal = none ∧ s.kv.reqs.any kvLogged = false ∧ s.pa.rtcRunning = true)) ∧
  (∀ (c : Cmd) (s : State) (o n : Nat), runs 0x0F12 false c s = true → (entered 0x0F12 c s).pa.regLow = true →
     exec (.paRetainRead c o n) s = answered 0x0F12 c (st .notReady) (entered 0x0F12 c s)) ∧
  (∀ (c : Cmd) (s : State) (o n : Nat), runs 0x0F12 false c s = true → (entered 0x0F12 c s).pa.regLow = false →
     o < 0x100 ∨ n = 0 ∨ 0x1000 < o + n → exec (.paRetainRead c o n) s = answered 0x0F12 c (st .badParam) (entered 0x0F12 c s)) ∧
  (∀ (c : Cmd) (s : State) (o n : Nat), runs 0x0F12 false c s = true → (entered 0x0F12 c s).pa.regLow = false → 0x100 ≤ o → 1 ≤ n →
     o + n ≤ 0x1000 →
     exec (.paRetainRead c o n) s = answered 0x0F12 c { status := .ok, buf := .bytes (retBytes (entered 0x0F12 c s).pa.ret o n ++ bitBytes (((List.range 128).filter (fun k => o / 32 ≤ k ∧ k ≤ (o + n - 1) / 32)).map (fun k => !retGood (entered 0x0F12 c s).pa.ret k))) } (entered 0x0F12 c s)) ∧
  (∀ (c : Cmd) (s : State) (o : Nat) (d : List Byte), runs 0x0F13 false c s = true → (entered 0x0F13 c s).pa.regLow = true →
     exec (.paRetainWrite c o d) s = answered 0x0F13 c (st .notReady) (entered 0x0F13 c s)) ∧
  (∀ (c : Cmd) (s : State) (o : Nat) (d : List Byte), runs 0x0F13 false c s = true → (entered 0x0F13 c s).pa.regLow = false →
     o < 0x100 ∨ o % 32 ≠ 0 ∨ d.length % 32 ≠ 0 ∨ d = [] ∨ 0x1000 < o + d.length →
     exec (.paRetainWrite c o d) s = answered 0x0F13 c (st .badParam) (entered 0x0F13 c s)) ∧
  (∀ (c : Cmd) (s : State) (o : Nat) (d : List Byte), runs 0x0F13 false c s = true → (entered 0x0F13 c s).pa.regLow = false → 0x100 ≤ o →
     o % 32 = 0 → d.length % 32 = 0 → d ≠ [] → o + d.length ≤ 0x1000 →
     exec (.paRetainWrite c o d) s = answered 0x0F13 c (st .ok) (onPa (fun p => { p with ret := retWrite (0 :: (List.range (d.length / 32)).map (fun (k : Nat) => o / 32 + k)) { p.ret with mem := p.ret.mem.writeN o d } }) (entered 0x0F13 c s))) ∧
  (∀ (c : Cmd) (s : State), runs 0x0F14 false c s = true →
     exec (.paStartupReport c) s = answered 0x0F14 c { status := .ok, buf := .recs [[(paStatus (entered 0x0F14 c s)).toNat], ((entered 0x0F14 c s).pa.phaseEnd.toList.drop 1).map (·.toNat), [(wakeSrcReg (entered 0x0F14 c s)).toNat], [(borCauseReg (entered 0x0F14 c s)).toNat], [(entered 0x0F14 c s).pa.opsecs.toNat, (entered 0x0F14 c s).pa.pwrCycles.toNat], (entered 0x0F14 c s).pa.ret.refused.toList.map (·.toNat)] } (entered 0x0F14 c s)) ∧
  (∀ (c : Cmd) (s : State) (m : BitVec 4), runs 0x0F15 false c s = true →
     exec (.paTamperClear c m) s = answered 0x0F15 c (st .ok) (onPa (fun p => { p with tamperLatched := p.tamperLatched &&& ~~~m }) (entered 0x0F15 c s)))

/-- An AUTO domain that is on, not in use and without an access for its idle time goes off unless one arrives on this cycle. An access to a
domain that is on is noted, to a LOCKED one refused, a read receiving ones, and to one that is off wakes it and stalls, but not behind
PD2; a waking domain comes on once the one it depends on is, its stalls are measured and a switch-off that waited takes effect. Sleep
entry stops the owners at a boundary and measures the RTC for 32,768 ticks, not in low-power mode; then records, reply and domains end and
the device sleeps. WAKE_N, the alarm reached and SAMPLED or STATIC tamper inputs are wake sources: in sleep an enabled one starts the
device, during entry it abandons the entry with BUSY, in standby it asks for the supplies. Low I/O supply leads to standby unless the
device runs with PWR_OK; in low-power mode VBAT and the current limit reset the Duiker domain; the other brown-outs latch their cause and
reset the device, loss of PWR_OK into standby. The operating time is copied once 60 s have passed. Outside these cases the events change
nothing but the RTC reading they carry. Definitions in it hold choices of the model: log 65, 66, 67, 82, 85, 86, 87, 110, 112, 124. -/
def Obligations.PowerEventsTakeEffect : Prop :=
  (∀ (s : State) (n : Fin 9), 2 ≤ n.val → (vget s.pa.pd n.val {}).mode = .auto → (vget s.pa.pd n.val {}).inUse = false →
     (vget s.pa.pd n.val {}).state = .on → s.pa.ended.getLsbD 7 = true →
     (vget s.pa.pd n.val {}).lastUse + msTu (vget s.pa.pd n.val {}).idleMs ≤ s.abs → accessArrives n s = false →
     exec (.domainIdleOff n) s = .next (powerOff .off n.val s)) ∧
  (∀ (s : State) (n : Fin 9),
     n.val < 2 ∨ (vget s.pa.pd n.val {}).mode ≠ .auto ∨ (vget s.pa.pd n.val {}).inUse = true ∨ (vget s.pa.pd n.val {}).state ≠ .on ∨ s.pa.ended.getLsbD 7 = false ∨ s.abs < (vget s.pa.pd n.val {}).lastUse + msTu (vget s.pa.pd n.val {}).idleMs ∨ accessArrives n s = true →
     exec (.domainIdleOff n) s = .next s) ∧
  (∀ (s : State) (n : Fin 9) (k : PdNeed) (q : Nat), n.val < 2 ∨ s.pa.power ≠ .running → exec (.domainDataAccess n k q) s = .next s) ∧
  (∀ (s : State) (n : Fin 9) (k : PdNeed) (q : Nat), 2 ≤ n.val → s.pa.power = .running → pdState s n.val = .on →
     exec (.domainDataAccess n k q) s = .next (modPd n.val (fun d => { d with lastUse := s.abs }) s)) ∧
  (∀ (s : State) (n : Fin 9) (k : PdNeed) (q : Nat), 2 ≤ n.val → s.pa.power = .running → pdState s n.val = .locked →
     exec (.domainDataAccess n k q) s = .next (if k = .read then emit (.read q 0xFFFFFFFF) (lockRefused n.val s) else lockRefused n.val s)) ∧
  (∀ (s : State) (n : Fin 9) (k : PdNeed) (q : Nat), 3 ≤ n.val → s.pa.power = .running → pdState s n.val = .off ∨ pdState s n.val = .waking →
     exec (.domainDataAccess n k q) s = .next (modPd n.val (fun d => { d with lastUse := (wakeDomain true n.val s).abs, stalled := d.stalled ++ [(wakeDomain true n.val s).abs] }) (wakeDomain true n.val s))) ∧
  (∀ (s : State) (k : PdNeed) (q : Nat), s.pa.power = .running → pdState s 2 = .off ∨ pdState s 2 = .waking →
     exec (.domainDataAccess 2 k q) s = .next (wakeDomain true 2 s)) ∧
  (∀ (s : State) (n : Fin 9), 3 ≤ n.val → (vget s.pa.pd n.val {}).state = .waking → 6 < n.val ∨ pdState s 8 = .on →
     (vget s.pa.pd n.val {}).after = none → ∃ t, exec (.domainOn n) s = .next t ∧ pdState t n.val = .on) ∧
  (∀ (s : State) (n : Fin 9), 3 ≤ n.val → (vget s.pa.pd n.val {}).state = .waking → 6 < n.val ∨ pdState s 8 = .on →
     exec (.domainOn n) s = .next (readiness (offAfter n.val (powerOn n.val (modPd n.val (fun d => { d with stalled := [], maxStall := BitVec.ofNat 32 (min (((vget s.pa.pd n.val {}).stalled.map (fun t => (s.abs - t) / 65536)).foldl max (vget s.pa.pd n.val {}).maxStall.toNat) 0xFFFFFFFF) }) s))))) ∧
  (∀ (s : State) (n : Fin 9), n.val < 3 ∨ (vget s.pa.pd n.val {}).state ≠ .waking ∨ (n.val ≤ 6 ∧ pdState s 8 ≠ .on) →
     exec (.domainOn n) s = .next s) ∧
  (∀ (s : State) (n : Nat), offAfter n s = match (vget s.pa.pd n {}).after with | some x => powerOff x n s | none => s) ∧
  (∀ (s : State), pdState s 2 = .waking → exec .pd2WakeDone s = .next (readiness (powerOn 2 s))) ∧
  (∀ (s : State), pdState s 2 ≠ .waking → exec .pd2WakeDone s = .next s) ∧
  (∀ (s : State) (r : BitVec 48), s.pa.sleepReq.isSome = true → s.pa.sleepStep = 0 →
     s.fb.running = false ∨ 1 ≤ ltDiff s.fb.frameLt s.pa.sleepAt →
     ∃ t, exec (.sleepStopBoundary r) s = .next t ∧ t.pa.sleepStep = 1 ∧ t.pa.sleepReq = s.pa.sleepReq) ∧
  (∀ (s : State) (r : BitVec 48), s.pa.sleepReq = none ∨ s.pa.sleepStep ≠ 0 ∨ (s.fb.running = true ∧ ltDiff s.fb.frameLt s.pa.sleepAt < 1) →
     exec (.sleepStopBoundary r) s = .next s) ∧
  (∀ (s : State) (r : BitVec 48) (w : Waiting) (m : BitVec 16) (a : BitVec 48), s.pa.sleepReq = some (w, m, a) → s.pa.sleepStep = 1 →
     s.pa.regLow = false → r - s.pa.calRtc0 = 32768 →
     ∃ t, exec (.rtcCalibrationDone r) s = .next t ∧ t.pa.power = .asleep ∧ t.pa.slept = true ∧ t.glob.ready = false ∧ t.pa.ret.sleepMask = m ∧ t.pa.ret.sleepAlarm = a ∧ t.pa.opsecsMram = t.pa.opsecs) ∧
  (∀ (s : State) (r : BitVec 48) (w : Waiting) (m : BitVec 16) (a : BitVec 48), s.pa.sleepReq = some (w, m, a) → s.pa.sleepStep = 1 →
     s.pa.regLow = false → r - s.pa.calRtc0 = 32768 →
     exec (.rtcCalibrationDone r) s = .next (onPa (fun p => { p with power := .asleep, slept := true }) (poweredDown true (reply w (st .ok) (retainTime (ltDiff (writeRec { type := 9, source := 0xFF, lt := (setRtc r s).now, arg0 := m.zeroExtend 32, arg1 := a.truncate 32 } (writePending (setRtc r s))).now (writeRec { type := 9, source := 0xFF, lt := (setRtc r s).now, arg0 := m.zeroExtend 32, arg1 := a.truncate 32 } (writePending (setRtc r s))).pa.calLt0).toNat m a (onPa (fun p => { p with opsecsMram := p.opsecs }) (writeRec { type := 9, source := 0xFF, lt := (setRtc r s).now, arg0 := m.zeroExtend 32, arg1 := a.truncate 32 } (writePending (setRtc r s))))))))) ∧
  (∀ (s : State) (r : BitVec 48), s.pa.sleepReq = none ∨ s.pa.sleepStep ≠ 1 ∨ s.pa.regLow = true ∨ r - s.pa.calRtc0 ≠ 32768 →
     exec (.rtcCalibrationDone r) s = .next s) ∧
  (∀ (s : State) (r : BitVec 48), exec (.wakeNFall r) s = .next (wakeSource 2 (setRtc r s))) ∧
  (∀ (s : State) (r : BitVec 48), alarmOf (setRtc r s) ≠ 0 → (alarmOf (setRtc r s)).toNat ≤ (setRtc r s).pa.rtc.toNat →
     exec (.rtcAlarm r) s = .next (wakeSource 3 (setRtc r s))) ∧
  (∀ (s : State) (r : BitVec 48), alarmOf (setRtc r s) = 0 ∨ (setRtc r s).pa.rtc.toNat < (alarmOf (setRtc r s)).toNat →
     exec (.rtcAlarm r) s = .next (setRtc r s)) ∧
  (∀ (s : State) (r : BitVec 48) (k : Fin 4), vget (setRtc r s).pa.duiker.tamper k.val .off = .sampled →
     exec (.tamperSample k true r) s = .next (latchTamper k.val (tamperLevel k.val true (setRtc r s))) ∧ exec (.tamperSample k false r) s = .next (tamperLevel k.val false (setRtc r s))) ∧
  (∀ (s : State) (r : BitVec 48) (k : Fin 4) (b : Bool), vget (setRtc r s).pa.duiker.tamper k.val .off ≠ .sampled →
     exec (.tamperSample k b r) s = .next (setRtc r s)) ∧
  (∀ (s : State) (r : BitVec 48) (k : Fin 4), vget (setRtc r s).pa.duiker.tamper k.val .off = .static_ →
     exec (.tamperLatch k r) s = .next (latchTamper k.val (tamperLevel k.val true (setRtc r s)))) ∧
  (∀ (s : State) (r : BitVec 48) (k : Fin 4), vget (setRtc r s).pa.duiker.tamper k.val .off ≠ .static_ →
     exec (.tamperLatch k r) s = .next (setRtc r s)) ∧
  (∀ (s : State) (c : Nat), s.pa.power = .asleep → maskHas s.pa.ret.sleepMask c = true →
     wakeSource c s = beginStartup false (recordWake false c s)) ∧
  (∀ (s : State) (c : Nat), s.pa.power = .asleep → maskHas s.pa.ret.sleepMask c = false → wakeSource c s = s) ∧
  (∀ (s : State) (c : Nat) (w : Waiting) (m : BitVec 16) (a : BitVec 48), s.pa.power = .running → s.pa.sleepReq = some (w, m, a) →
     wakeSource c s = if maskHas m c = true then reply w { status := .busy, detail := 0x0F03 } (sleepRefused 5 (onPa (fun p => { p with sleepReq := none, sleepStep := 0 }) s)) else s) ∧
  (∀ (s : State) (c : Nat), s.pa.power = .standby →
     wakeSource c s = if c ≤ 4 ∧ maskHas s.pa.ret.sleepMask c = true then (if s.pa.pwrReq = true then (if (s.pa.wakeSrc != 0 && s.pa.wakeRtc == s.pa.rtc && s.pa.ret.valid.contains 4) = true then recordWake true c s else s) else onPa (fun p => { p with pwrReq := true }) (recordWake false c s)) else s) ∧
  (∀ (s : State), s.pa.power ≠ .running ∨ s.pa.pwrOk = false →
     exec .ioSupplyLow s = .next (onPa (fun p => { p with power := .standby, pwrOk := false }) (poweredDown false (onPa (fun p => { p with regLow := true }) s)))) ∧
  (∀ (s : State), s.pa.power = .running → s.pa.pwrOk = true → exec .ioSupplyLow s = .next (onPa (fun p => { p with regLow := true }) s)) ∧
  (∀ (s : State), exec .ioSupplyHigh s = .next (onPa (fun p => { p with regLow := false }) s)) ∧
  (∀ (s : State) (c : SupplyCause), s.pa.regLow = true → c = .vbat ∨ c = .currentLimit →
     exec (.duikerBrownout c) s = .next (onPa (fun p => { p with rtc := 0, rtcRunning := true, ret := {}, duikerBor := true, wakeSrc := 0, wakeSeen := 0, wakeRtc := 0 }) (latchCause c s))) ∧
  (∀ (s : State) (c : SupplyCause), s.pa.regLow = false ∨ (c ≠ .vbat ∧ c ≠ .currentLimit) → exec (.duikerBrownout c) s = .next s) ∧
  (∀ (s : State) (c : SupplyCause), s.pa.power = .running → c = .core ∨ c = .sram ∨ c = .serdes ∨ (c = .io ∧ s.pa.pwrOk = true) →
     exec (.brownoutReset c) s = .next (onPa (fun p => { p with slept := false }) (poweredDown false (latchCause c s)))) ∧
  (∀ (s : State), s.pa.power = .running → s.pa.pwrOk = true →
     exec (.brownoutReset .pwrOk) s = .next (onPa (fun p => { p with slept := false, pwrOk := false, power := .standby }) (poweredDown false (latchCause .pwrOk s)))) ∧
  (∀ (s : State) (c : SupplyCause), s.pa.power ≠ .running ∨ c = .vbat ∨ c = .currentLimit ∨ ((c = .io ∨ c = .pwrOk) ∧ s.pa.pwrOk = false) →
     exec (.brownoutReset c) s = .next s) ∧
  (∀ (s : State) (r : BitVec 48), (setRtc r s).pa.power = .running → 60 ≤ ((setRtc r s).pa.opsecs - (setRtc r s).pa.opsecsMram).toNat →
     exec (.opsecsCopy r) s = .next (onPa (fun p => { p with opsecsMram := p.opsecs }) (setRtc r s))) ∧
  (∀ (s : State) (r : BitVec 48), (setRtc r s).pa.power ≠ .running ∨ ((setRtc r s).pa.opsecs - (setRtc r s).pa.opsecsMram).toNat < 60 →
     exec (.opsecsCopy r) s = .next (setRtc r s))

/-- PWR_OK rising begins start-up. Each phase ends once the phases before it have, and its event else changes nothing. Secure boot derives
K_root, judges the firmware slot of FW_SEL first (unreadable, header, key, SVN, signature, body), boots it or the other, or halts. The
Duiker restore counts the power cycle and rebuilds LT after a sleep whose records are good, else restarts it. The DRAM is trained, or the
device goes on without a package and with PD2–PD8 off. At SU_READY registers, KV, QM and IM serve, early events are delivered and a
standing journal is completed. The first boot package that nothing refuses is held, else the device goes on without one. The Point Store
gets every point's initial record, drops or orphans forces, and is READY. At PORTS_UP the package's content comes up; the lock timeout
ends phase 10 and opens the start gates; at the next frame every owner staged for RUN starts. Definitions in it hold choices of the model:
log 51, 56, 67, 73, 76, 82, 88, 110, 112, 125, 148, 150, 155. -/
def Obligations.StartUpPhases : Prop :=
  (∀ (s : State) (r : BitVec 48), (setRtc r s).pa.pwrOk = false →
     exec (.powerGood r) s = .next (beginStartup true (onPa (fun p => { p with pwrOk := true }) (if (setRtc r s).pa.pwrReq then setRtc r s else recordWake false 1 (setRtc r s))))) ∧
  (∀ (s : State) (r : BitVec 48), (setRtc r s).pa.pwrOk = true → exec (.powerGood r) s = .next (setRtc r s)) ∧
  (∀ (s : State) (a b : Option (List Byte)), phaseDue 1 [] s = true →
     ∃ t, exec (.secureBootDone a b) s = .next t ∧ t.kv.halted = !decide ((imageFail s a) = 0 ∨ (imageFail s b) = 0) ∧ t.pa.ended.getLsbD 1 = decide ((imageFail s a) = 0 ∨ (imageFail s b) = 0) ∧ t.kv.root = rootKey (lifeCode s) ∧ t.kv.lcSeen.toNat % 256 = lifeCode s % 256 ∧ t.kv.failA = (if s.kv.fwSelB = true ∧ (imageFail s b) = 0 then 0 else BitVec.ofNat 4 (imageFail s a)) ∧ t.kv.failB = (if s.kv.fwSelB = false ∧ (imageFail s a) = 0 then 0 else BitVec.ofNat 4 (imageFail s b)) ∧ t.kv.bootSlot = (if (imageFail s a) ≠ 0 ∧ (imageFail s b) ≠ 0 then 0 else if (imageFail s b) = 0 ∧ (s.kv.fwSelB = true ∨ (imageFail s a) ≠ 0) then 2 else 1) ∧ t.kv.svn = (if (imageFail s a) ≠ 0 ∧ (imageFail s b) ≠ 0 then 0 else if (imageFail s b) = 0 ∧ (s.kv.fwSelB = true ∨ (imageFail s a) ≠ 0) then BitVec.ofNat 7 (fwSvnOf b) else BitVec.ofNat 7 (fwSvnOf a))) ∧
  (∀ (s : State) (l : List Byte),
     imageFail s none = 6 ∧ imageFail s (some l) = if fwHeaderOk l = false then 1 else if (curveHash true ((l.drop 0x3C).take 96)) ≠ curveHash true (bytesBE 96 (Config.fwKey (fwField l 6 1)).toNat) ∨ s.kv.fwRevoke.getLsbD (fwField l 6 1) = true then 2 else if fwField l 4 2 < s.kv.fwSvn then 3 else if Config.ecdsaVerify true ((l.drop 0x3C).take 96) (curveHash true (l.take 256)) ((l.drop (fwField l 8 4 - 96)).take 96) = false then 4 else if curveHash true ((l.drop 256).take (fwField l 8 4 - 352)) ≠ (l.drop 0xC).take 48 then 5 else 0) ∧
  (∀ (s : State) (a b : Option (List Byte)), phaseDue 1 [] s = false → exec (.secureBootDone a b) s = .next s) ∧
  (∀ (s : State) (r : BitVec 48), phaseDue 2 [1] s = true → s.pa.slept = false →
     ∃ t, exec (.duikerRestoreDone r) s = .next t ∧ t.pa.warm = false ∧ t.pa.slept = false ∧ t.pa.ended.getLsbD 2 = true ∧ t.pa.duikerBor = false) ∧
  (∀ (s : State) (r : BitVec 48), phaseDue 2 [1] s = true →
     ((setRtc r s).pa.slept && retGood (setRtc r s).pa.ret 3 && retGood (setRtc r s).pa.ret 1 && retGood (setRtc r s).pa.ret 2) = true →
     exec (.duikerRestoreDone r) s = .next (markPhase 2 true (onPa (fun p => { p with pd := p.pd.map (fun d => { d with lastUse := (rebuildTime (onPa (fun p => { p with retainLost := retentionLost (setRtc r s).pa.ret, warm := (setRtc r s).pa.slept && retGood (setRtc r s).pa.ret 3, opsecs := if p.duikerBor then p.opsecsMram else p.opsecs, opsecsUncertain := p.opsecsUncertain || p.duikerBor, duikerBor := false, pwrCycles := if p.coldStart then p.pwrCycles + 1 else p.pwrCycles, pwrReq := false, slept := false }) (setRtc r s))).abs }) }) (rebuildTime (onPa (fun p => { p with retainLost := retentionLost (setRtc r s).pa.ret, warm := (setRtc r s).pa.slept && retGood (setRtc r s).pa.ret 3, opsecs := if p.duikerBor then p.opsecsMram else p.opsecs, opsecsUncertain := p.opsecsUncertain || p.duikerBor, duikerBor := false, pwrCycles := if p.coldStart then p.pwrCycles + 1 else p.pwrCycles, pwrReq := false, slept := false }) (setRtc r s)))))) ∧
  (∀ (s : State) (r : BitVec 48), phaseDue 2 [1] s = true →
     ((setRtc r s).pa.slept && retGood (setRtc r s).pa.ret 3 && retGood (setRtc r s).pa.ret 1 && retGood (setRtc r s).pa.ret 2) = false →
     exec (.duikerRestoreDone r) s = .next (markPhase 2 true (onPa (fun p => { p with pd := p.pd.map (fun d => { d with lastUse := (coldTime (onPa (fun p => { p with retainLost := retentionLost (setRtc r s).pa.ret, warm := (setRtc r s).pa.slept && retGood (setRtc r s).pa.ret 3, opsecs := if p.duikerBor then p.opsecsMram else p.opsecs, opsecsUncertain := p.opsecsUncertain || p.duikerBor, duikerBor := false, pwrCycles := if p.coldStart then p.pwrCycles + 1 else p.pwrCycles, pwrReq := false, slept := false }) (setRtc r s))).abs }) }) (coldTime (onPa (fun p => { p with retainLost := retentionLost (setRtc r s).pa.ret, warm := (setRtc r s).pa.slept && retGood (setRtc r s).pa.ret 3, opsecs := if p.duikerBor then p.opsecsMram else p.opsecs, opsecsUncertain := p.opsecsUncertain || p.duikerBor, duikerBor := false, pwrCycles := if p.coldStart then p.pwrCycles + 1 else p.pwrCycles, pwrReq := false, slept := false }) (setRtc r s)))))) ∧
  (∀ (s : State) (r : BitVec 48), phaseDue 2 [1] s = false → exec (.duikerRestoreDone r) s = .next s) ∧
  (∀ (s : State), phaseDue 3 [2] s = true →
     exec (.dramTrainingDone true) s = .next (markPhase 3 true s) ∧ exec (.dramTrainingDone false) s = .next (markPhase 3 false (domainsOff [2, 3, 4, 5, 6, 7, 8] (onPa (fun p => { p with noPackage := true }) s)))) ∧
  (∀ (s : State) (b : Bool), phaseDue 3 [2] s = false → exec (.dramTrainingDone b) s = .next s) ∧
  (∀ (s : State) (l : List (Fin 1024 × Fin 13)), phaseDue 4 [3] s = true →
     ∃ t, exec (.suReady l) s = .next t ∧ t.glob.ready = true ∧ t.kv.ready = true ∧ t.qm.ready = true ∧ t.im.ready = true ∧ t.ev.early = 0 ∧ t.kv.journal = none) ∧
  (∀ (s : State) (l : List (Fin 1024 × Fin 13)), phaseDue 4 [3] s = false → exec (.suReady l) s = .next s) ∧
  (∀ (s : State) (h : Bool), phaseDue 5 [4] s = true → s.pa.noPackage = false →
     ∃ t, exec (.packageLoaded h) s = .next t ∧ (∀ p k, ((bootCandidates h s).find? (fun x => (packageRefusal s x.1).isNone)) = some (p, k) → t.glob.pkgId = pkgId p ∧ t.glob.bootPkg = k ∧ t.su.pkg.held = some p ∧ t.su.pkg.booted = some p) ∧ (((bootCandidates h s).find? (fun x => (packageRefusal s x.1).isNone)) = none → t.pa.noPackage = true ∧ t.su.pkg.held = none)) ∧
  (∀ (s : State) (h : Bool), phaseDue 5 [4] s = true → s.pa.noPackage = false →
     ((bootCandidates h s).find? (fun x => (packageRefusal s x.1).isNone)) = none →
     ∃ t, exec (.packageLoaded h) s = .next t ∧ t.pa.noPackage = true ∧ t.su.pkg.held = none) ∧
  (∀ (s : State) (h : Bool), phaseDue 5 [4] s = false ∨ s.pa.noPackage = true → exec (.packageLoaded h) s = .next s) ∧
  (∀ (s : State), phaseDue 6 [4, 5] s = true → ∃ t, exec .pointStoreBuilt s = .next t ∧ t.ps.ready = true) ∧
  (∀ (s : State), phaseDue 6 [4, 5] s = true →
     exec .pointStoreBuilt s = .next (readiness (markPhase 6 true (onPs (fun x => { x with ready := true }) (markOrphans (bootView s) (psSettings (bootView s) (onPs (fun x => { x with recs := ((viewPoints (bootView s)).map (fun e => (e.1, initialPoint e.2 (viewOwner (bootView s) .point e.1) s.now))) }) (dropForces ((s.ps.force.filter (fun e => match (viewPoints (bootView s)).get? e.1 with | some d => d.type != e.2.type | none => true)).map (·.1)) s)))))))) ∧
  (∀ (s : State), phaseDue 6 [4, 5] s = false → exec .pointStoreBuilt s = .next s) ∧
  (∀ (s : State), phaseDue 7 [5] s = true → exec .portsUp s = .next (bringUp s.now (bootView s) s)) ∧
  (∀ (s : State), phaseDue 7 [5] s = false → exec .portsUp s = .next s) ∧
  (∀ (s : State) (t : LT), s.se.lockTimeoutAt = some t → ltReached s.now t = true →
     exec .lockTimeout s = .next (readiness (markPhase 10 true (openGates (fun k => k.cfg.gate.isSome) (onSe (fun x => { x with lockTimeoutAt := none }) s))))) ∧
  (∀ (s : State), s.se.lockTimeoutAt.all (fun t => !ltReached s.now t) = true → exec .lockTimeout s = .next s) ∧
  (∀ (s : State), phaseDue 11 [6, 8, 9, 10] s = true → s.fb.running = true → 0 ≤ ltDiff s.fb.frameLt s.pa.lastEnd →
     exec .instancesStart s = .next (readiness (markPhase 11 true ((ownersOf s).foldl (fun u o => if (u.fb.ownCfg.getD o {}).initRun then runCold o none s.fb.frameLt u else u) s)))) ∧
  (∀ (s : State), phaseDue 11 [6, 8, 9, 10] s = false ∨ s.fb.running = false ∨ ltDiff s.fb.frameLt s.pa.lastEnd < 0 →
     exec .instancesStart s = .next s)

/-- THERM_TRIP_N follows its events. A PMBus transaction starts with its bytes and packet error code when registers are served and none runs;
it ends with what was read, NACK and a code that does not fit, or by timeout. The brown-out latch is cleared. The log's clear starts with
the newest SEQ where no logged command runs, else is refused; the new log holds its one record, LOST 0; the oldest waiting record is
written, not during a clear. A scrubber runs in a domain that is on, the DRAM's after phase 3, and reads the next word of its region,
symbols as the beats carry them; a corrected error is counted, an uncorrectable one recorded, a retained word becomes invalid, and the
owner, the point or the force it belongs to is told. A read of W7, alone or with W6, pops the oldest error record; before start-up it is
not answered, and a halted device answers 0. TRST_N low holds the TAP in reset with IDCODE; it takes a driven edge 40 ns after the last;
the instruction it selects is one of the life-cycle state, and IDCODE carries part 0x7780. Outside these cases nothing changes.
Definitions in it hold choices of the model: log 106, 111, 112, 141, 156, 158, 159. -/
def Obligations.BoardLogAndScrubbing : Prop :=
  (∀ (s : State),
     exec .thermTrip s = .next (onGlob (fun g => { g with thermTripN := false }) s) ∧ exec .thermTripNHigh s = .next (onGlob (fun g => { g with thermTripN := true }) s)) ∧
  (∀ (s : State) (a : BitVec 7) (d : BitVec 8) (n : BitVec 3) (p f : Bool), s.glob.ready = true → s.pmb.busy = false →
     exec (.pmbusWrite a d n p f) s = .next (emit (.pmbus f (((a ++ 0#1) :: d :: bytesLE (min n.toNat 4) s.pmb.data.toNat) ++ (if p then [pecOf ((a ++ 0#1) :: d :: bytesLE (min n.toNat 4) s.pmb.data.toNat)] else [])) none) (onPmb (fun x => { x with addr := a, cmd := d, read := false, len := n, pec := p, fast := f, busy := true }) s)) ∧ exec (.pmbusRead a d n p f) s = .next (emit (.pmbus f [a ++ 0#1, d] (some (a ++ 1#1, min n.toNat 4 + bitN p))) (onPmb (fun x => { x with addr := a, cmd := d, read := true, len := n, pec := p, fast := f, busy := true }) s))) ∧
  (∀ (s : State) (a : BitVec 7) (d : BitVec 8) (n : BitVec 3) (p f : Bool), s.glob.ready = false ∨ s.pmb.busy = true →
     exec (.pmbusWrite a d n p f) s = .next s ∧ exec (.pmbusRead a d n p f) s = .next s) ∧
  (∀ (s : State) (n : Bool) (d : List Byte), s.pmb.busy = true →
     exec (.pmbusDone n d) s = .next (onPmb (fun x => { x with busy := false, done := true, nack := x.nack || n, pecErr := x.pecErr || (!n && !pecGood x d), data := if x.read && !n then putBytes x.data (d.take (min x.len.toNat 4)) else x.data }) s)) ∧
  (∀ (x : Pmbus) (d : List Byte),
     (x.read = false ∨ x.pec = false → pecGood x d = true) ∧ (x.read = true → x.pec = true → pecGood x d = (d.getD (min x.len.toNat 4) 0 == pecOf ([x.addr ++ 0#1, x.cmd, x.addr ++ 1#1] ++ d.take (min x.len.toNat 4))))) ∧
  (∀ (s : State), s.pmb.busy = true → exec .pmbusTimeout s = .next (onPmb (fun p => { p with busy := false, done := true, timeout := true }) s)) ∧
  (∀ (s : State) (n : Bool) (d : List Byte), s.pmb.busy = false → exec (.pmbusDone n d) s = .next s ∧ exec .pmbusTimeout s = .next s) ∧
  (∀ (s : State), s.glob.ready = true → exec .borClearWrite s = .next (onPa (fun p => { p with borCause := 0, borLater := 0 }) s)) ∧
  (∀ (s : State), s.glob.ready = false → exec .borClearWrite s = .next s) ∧
  (∀ (s : State), s.glob.ready = true → s.log.clearing = false → loggedRunning s = false →
     exec (.logClearWrite (logNewest s)) s = .next (onLog (fun l => { l with clearing := true }) s)) ∧
  (∀ (s : State) (v : BitVec 32), s.glob.ready = true → v ≠ logNewest s ∨ s.log.clearing = true ∨ loggedRunning s = true →
     exec (.logClearWrite v) s = .next (onLog (fun l => { l with clearRefused := true }) s)) ∧
  (∀ (s : State) (v : BitVec 32), s.glob.ready = false → exec (.logClearWrite v) s = .next s) ∧
  (∀ (s : State), s.log.clearing = true →
     ∃ t, exec .logClearDone s = .next t ∧ t.log.clearing = false ∧ t.log.recs.length = 1 ∧ t.log.first = s.log.first + BitVec.ofNat 32 s.log.recs.length ∧ t.log.lost = 0) ∧
  (∀ (s : State), s.log.clearing = false → exec .logClearDone s = .next s) ∧
  (∀ (s : State) (r : LogRec) (l : List LogRec), s.log.clearing = false → s.log.pendingRecs = r :: l →
     exec .logRecordWrite s = .next (writeRec r (onLog (fun x => { x with pendingRecs := l }) s))) ∧
  (∀ (s : State), s.log.clearing = true ∨ s.log.pendingRecs = [] → exec .logRecordWrite s = .next s) ∧
  (∀ (s : State) (r : Fin 16) (n : Fin 9),
     scrubs r.val n.val s = true ↔ s.pa.power = .running ∧ n.val ∈ regionDomains r.val ∧ (n.val = 1 ∨ pdState s n.val = .on) ∧ (r.val ≠ 0 ∨ s.pa.ended.getLsbD 3 = true)) ∧
  (∀ (s : State) (r : Fin 16) (n : Fin 9) (k : Nat) (w : ScrubWord) (u : WordUse), scrubs r.val n.val s = true →
     exec (.scrubRead r n k w u) s = .next (scrubCount r.val (s.grd.scrubPos.getD (r.val, n.val) 0) (guardJudge (mediumWord w)) u (onGrd (fun g => { g with scrubPos := g.scrubPos.put (r.val, n.val) (if regionWords r.val k ≤ (s.grd.scrubPos.getD (r.val, n.val) 0) + 1 then 0 else (s.grd.scrubPos.getD (r.val, n.val) 0) + 1) }) s))) ∧
  (∀ (s : State) (r : Fin 16) (n : Fin 9) (k : Nat) (w : ScrubWord) (u : WordUse), scrubs r.val n.val s = true →
     guardJudge (mediumWord w) = .none →
     exec (.scrubRead r n k w u) s = .next (onGrd (fun g => { g with scrubPos := g.scrubPos.put (r.val, n.val) (if regionWords r.val k ≤ (s.grd.scrubPos.getD (r.val, n.val) 0) + 1 then 0 else (s.grd.scrubPos.getD (r.val, n.val) 0) + 1) }) s)) ∧
  (∀ (s : State) (r : Fin 16) (n : Fin 9) (k : Nat) (w : ScrubWord) (u : WordUse) (i : Nat) (e : Byte), scrubs r.val n.val s = true →
     guardJudge (mediumWord w) = .corrected i e →
     exec (.scrubRead r n k w u) s = .next (guardCorrected r.val (onGrd (fun g => { g with scrubPos := g.scrubPos.put (r.val, n.val) (if regionWords r.val k ≤ (s.grd.scrubPos.getD (r.val, n.val) 0) + 1 then 0 else (s.grd.scrubPos.getD (r.val, n.val) 0) + 1) }) s))) ∧
  (∀ (s : State) (r : Fin 16) (n : Fin 9) (k : Nat) (w : ScrubWord) (u : WordUse) (h : GuardHit), scrubs r.val n.val s = true →
     guardJudge (mediumWord w) = .uncorrectable h →
     exec (.scrubRead r n k w u) s = .next (match u with | .free => (let t := guardUncorrectable r.val 0x10 0 { h with addr := BitVec.ofNat 64 (s.grd.scrubPos.getD (r.val, n.val) 0) } (onGrd (fun g => { g with scrubPos := g.scrubPos.put (r.val, n.val) (if regionWords r.val k ≤ (s.grd.scrubPos.getD (r.val, n.val) 0) + 1 then 0 else (s.grd.scrubPos.getD (r.val, n.val) 0) + 1) }) s); if r.val = 0xA then onPa (fun p => { p with ret := { p.ret with err := p.ret.err.filter (· != (s.grd.scrubPos.getD (r.val, n.val) 0)) ++ [(s.grd.scrubPos.getD (r.val, n.val) 0)] } }) t else t) | .owned _ => foGuardError (let t := guardUncorrectable r.val 0x10 0 { h with addr := BitVec.ofNat 64 (s.grd.scrubPos.getD (r.val, n.val) 0) } (onGrd (fun g => { g with scrubPos := g.scrubPos.put (r.val, n.val) (if regionWords r.val k ≤ (s.grd.scrubPos.getD (r.val, n.val) 0) + 1 then 0 else (s.grd.scrubPos.getD (r.val, n.val) 0) + 1) }) s); if r.val = 0xA then onPa (fun p => { p with ret := { p.ret with err := p.ret.err.filter (· != (s.grd.scrubPos.getD (r.val, n.val) 0)) ++ [(s.grd.scrubPos.getD (r.val, n.val) 0)] } }) t else t) | .point i => if r.val = 0 then pointBad i (let t := guardUncorrectable r.val 0x10 0 { h with addr := BitVec.ofNat 64 (s.grd.scrubPos.getD (r.val, n.val) 0) } (onGrd (fun g => { g with scrubPos := g.scrubPos.put (r.val, n.val) (if regionWords r.val k ≤ (s.grd.scrubPos.getD (r.val, n.val) 0) + 1 then 0 else (s.grd.scrubPos.getD (r.val, n.val) 0) + 1) }) s); if r.val = 0xA then onPa (fun p => { p with ret := { p.ret with err := p.ret.err.filter (· != (s.grd.scrubPos.getD (r.val, n.val) 0)) ++ [(s.grd.scrubPos.getD (r.val, n.val) 0)] } }) t else t) else (let t := guardUncorrectable r.val 0x10 0 { h with addr := BitVec.ofNat 64 (s.grd.scrubPos.getD (r.val, n.val) 0) } (onGrd (fun g => { g with scrubPos := g.scrubPos.put (r.val, n.val) (if regionWords r.val k ≤ (s.grd.scrubPos.getD (r.val, n.val) 0) + 1 then 0 else (s.grd.scrubPos.getD (r.val, n.val) 0) + 1) }) s); if r.val = 0xA then onPa (fun p => { p with ret := { p.ret with err := p.ret.err.filter (· != (s.grd.scrubPos.getD (r.val, n.val) 0)) ++ [(s.grd.scrubPos.getD (r.val, n.val) 0)] } }) t else t) | .force i => if r.val = 1 then forceBad i (let t := guardUncorrectable r.val 0x10 0 { h with addr := BitVec.ofNat 64 (s.grd.scrubPos.getD (r.val, n.val) 0) } (onGrd (fun g => { g with scrubPos := g.scrubPos.put (r.val, n.val) (if regionWords r.val k ≤ (s.grd.scrubPos.getD (r.val, n.val) 0) + 1 then 0 else (s.grd.scrubPos.getD (r.val, n.val) 0) + 1) }) s); if r.val = 0xA then onPa (fun p => { p with ret := { p.ret with err := p.ret.err.filter (· != (s.grd.scrubPos.getD (r.val, n.val) 0)) ++ [(s.grd.scrubPos.getD (r.val, n.val) 0)] } }) t else t) else (let t := guardUncorrectable r.val 0x10 0 { h with addr := BitVec.ofNat 64 (s.grd.scrubPos.getD (r.val, n.val) 0) } (onGrd (fun g => { g with scrubPos := g.scrubPos.put (r.val, n.val) (if regionWords r.val k ≤ (s.grd.scrubPos.getD (r.val, n.val) 0) + 1 then 0 else (s.grd.scrubPos.getD (r.val, n.val) 0) + 1) }) s); if r.val = 0xA then onPa (fun p => { p with ret := { p.ret with err := p.ret.err.filter (· != (s.grd.scrubPos.getD (r.val, n.val) 0)) ++ [(s.grd.scrubPos.getD (r.val, n.val) 0)] } }) t else t))) ∧
  (∀ (s : State) (r : Fin 16) (n : Fin 9) (k : Nat) (w : ScrubWord) (u : WordUse), scrubs r.val n.val s = false →
     exec (.scrubRead r n k w u) s = .next s) ∧
  (∀ (x : Vector (Vector Byte 18) 2) (i : Fin 36),
     vget (mediumWord (.beats x)) i.val 0 = vget (vget x (i.val / 18) (.replicate 18 0)) (i.val % 18) 0) ∧
  (∀ (s : State) (q : Nat), s.glob.ready = true →
     exec (.gerrRecordPop q false) s = .next (answerRead q (((errWords s).getD 7 0).zeroExtend 64) (onGrd (fun g => { g with recs := g.recs.drop 1 }) s)) ∧ exec (.gerrRecordPop q true) s = .next (answerRead q ((errWords s).getD 7 0 ++ (errWords s).getD 6 0) (onGrd (fun g => { g with recs := g.recs.drop 1 }) s))) ∧
  (∀ (s : State) (q : Nat) (b : Bool), s.glob.ready = false → exec (.gerrRecordPop q b) s = .next (if s.kv.halted then answerRead q 0 s else s)) ∧
  (∀ (s : State), s.jtag.trstN = false → (tapTick s).jtag.tap = .reset ∧ (s.jtag.tap ≠ .reset → (tapTick s).jtag.instr = .idcode)) ∧
  (∀ (s : State) (p : TapPins) (l : List TapPins), s.jtag.trstN = true → s.jtag.drive = p :: l → s.jtag.edgeAt + 40 * 65536 ≤ s.abs →
     tapTick s = tapEdge p (onJtag (fun j => { j with drive := l, edgeAt := s.abs }) s)) ∧
  (∀ (s : State) (i : List Bool),
     jtagAllowed (lifeCode s) (jtagSelect s i) = true ∧ (idcode s).extractLsb' 12 16 = 0x7780#16 ∧ (idcode s).getLsbD 0 = true)

/-- Every guard word is delivered; one erroneous symbol of any value is found and corrected, and two are always detected (R7, R564–R566).
Definitions in it hold choices of the model: log 111. -/
def Obligations.GuardWordsAreCorrected : Prop :=
  (∀ (d : Vector Byte 32) (t : Byte) (j : Fin 3), guardSyndrome j.val (guardEncode d t) = 0) ∧
  (∀ (d : Vector Byte 32) (t : Byte) (i : Fin 32), (guardEncode d t)[i.val] = d[i.val] ∧ (guardEncode d t)[32] = t) ∧
  (∀ (d : Vector Byte 32) (t : Byte), guardJudge (guardEncode d t) = .none ∧ guardDeliver (guardEncode d t) = some (guardEncode d t)) ∧
  (∀ (d : Vector Byte 32) (t : Byte) (i : Fin 36) (e : Byte), e ≠ 0 →
     guardJudge ((guardEncode d t).set i.val ((guardEncode d t)[i.val] ^^^ e)) = .corrected i.val e ∧ guardDeliver ((guardEncode d t).set i.val ((guardEncode d t)[i.val] ^^^ e)) = some (guardEncode d t)) ∧
  (∀ (d : Vector Byte 32) (t : Byte) (i j : Fin 36) (e f : Byte), i ≠ j → e ≠ 0 → f ≠ 0 →
     guardDeliver (((guardEncode d t).set i.val ((guardEncode d t)[i.val] ^^^ e)).set j.val ((guardEncode d t)[j.val] ^^^ f)) = none)

end
end

