-- ==== Sys2Proof/Laws/Bytes.lean ====
section
/-! SUPPORT. A number and the bytes it is written in. -/

namespace Sys2Proof

/-- The bytes of a number, least significant first, give it back up to their length (R12). -/
theorem ofBytesLE_bytesLE (n x : Nat) : ofBytesLE (bytesLE n x) = x % 256 ^ n := by
  induction n generalizing x with
  | zero => simp [bytesLE, ofBytesLE, Nat.mod_one]
  | succ n ih =>
    simp only [bytesLE, ofBytesLE, ih, BitVec.toNat_ofNat]
    exact (show x % 256 ^ (n + 1) = x % 256 + 256 * (x / 256 % 256 ^ n) by rw [Nat.pow_succ']; exact Nat.mod_mul).symm

@[simp] theorem bytesLE_length (n x : Nat) : (bytesLE n x).length = n := by
  induction n generalizing x with
  | zero => rfl
  | succ n ih => simp [bytesLE, ih]

@[simp] theorem bytesBE_length (n x : Nat) : (bytesBE n x).length = n := by simp [bytesBE]

/-- Reading most significant byte first is reading the reversed bytes least significant first. -/
theorem ofBytesBE_reverse (l : List Byte) : ofBytesBE l.reverse = ofBytesLE l := by
  unfold ofBytesBE
  rw [List.foldl_reverse]
  induction l with
  | nil => rfl
  | cons b l ih => simp only [List.foldr_cons, ofBytesLE, ih]; omega

/-- The bytes of a number, most significant first, give it back up to their length (R12). -/
theorem ofBytesBE_bytesBE (n x : Nat) : ofBytesBE (bytesBE n x) = x % 256 ^ n := by
  rw [bytesBE, ofBytesBE_reverse, ofBytesLE_bytesLE]

end Sys2Proof
end

