-- ==== Sys2Proof/Laws/State.lean ====
section
/-! SUPPORT. One lemma for each part of the state and each update of a part: what the update gives and what it leaves. -/

namespace Sys2Proof.Machine

@[simp] theorem onTb_tb (f : TbState → TbState) (s : State) : (onTb f s).tb = f s.tb := rfl
@[simp] theorem onTb_su (f : TbState → TbState) (s : State) : (onTb f s).su = s.su := rfl
@[simp] theorem onTb_px (f : TbState → TbState) (s : State) : (onTb f s).px = s.px := rfl
@[simp] theorem onTb_sw (f : TbState → TbState) (s : State) : (onTb f s).sw = s.sw := rfl
@[simp] theorem onTb_qm (f : TbState → TbState) (s : State) : (onTb f s).qm = s.qm := rfl
@[simp] theorem onTb_se (f : TbState → TbState) (s : State) : (onTb f s).se = s.se := rfl
@[simp] theorem onTb_fr (f : TbState → TbState) (s : State) : (onTb f s).fr = s.fr := rfl
@[simp] theorem onTb_pe (f : TbState → TbState) (s : State) : (onTb f s).pe = s.pe := rfl
@[simp] theorem onTb_ar (f : TbState → TbState) (s : State) : (onTb f s).ar = s.ar := rfl
@[simp] theorem onTb_fb (f : TbState → TbState) (s : State) : (onTb f s).fb = s.fb := rfl
@[simp] theorem onTb_ps (f : TbState → TbState) (s : State) : (onTb f s).ps = s.ps := rfl
@[simp] theorem onTb_fo (f : TbState → TbState) (s : State) : (onTb f s).fo = s.fo := rfl
@[simp] theorem onTb_mi (f : TbState → TbState) (s : State) : (onTb f s).mi = s.mi := rfl
@[simp] theorem onTb_kv (f : TbState → TbState) (s : State) : (onTb f s).kv = s.kv := rfl
@[simp] theorem onTb_im (f : TbState → TbState) (s : State) : (onTb f s).im = s.im := rfl
@[simp] theorem onTb_pa (f : TbState → TbState) (s : State) : (onTb f s).pa = s.pa := rfl
@[simp] theorem onTb_pmb (f : TbState → TbState) (s : State) : (onTb f s).pmb = s.pmb := rfl
@[simp] theorem onTb_grd (f : TbState → TbState) (s : State) : (onTb f s).grd = s.grd := rfl
@[simp] theorem onTb_log (f : TbState → TbState) (s : State) : (onTb f s).log = s.log := rfl
@[simp] theorem onTb_ev (f : TbState → TbState) (s : State) : (onTb f s).ev = s.ev := rfl
@[simp] theorem onTb_glob (f : TbState → TbState) (s : State) : (onTb f s).glob = s.glob := rfl
@[simp] theorem onTb_jtag (f : TbState → TbState) (s : State) : (onTb f s).jtag = s.jtag := rfl
@[simp] theorem onTb_pending (f : TbState → TbState) (s : State) : (onTb f s).pending = s.pending := rfl
@[simp] theorem onTb_free (f : TbState → TbState) (s : State) : (onTb f s).free = s.free := rfl
@[simp] theorem onTb_out (f : TbState → TbState) (s : State) : (onTb f s).out = s.out := rfl

@[simp] theorem onSu_tb (f : SuState → SuState) (s : State) : (onSu f s).tb = s.tb := rfl
@[simp] theorem onSu_su (f : SuState → SuState) (s : State) : (onSu f s).su = f s.su := rfl
@[simp] theorem onSu_px (f : SuState → SuState) (s : State) : (onSu f s).px = s.px := rfl
@[simp] theorem onSu_sw (f : SuState → SuState) (s : State) : (onSu f s).sw = s.sw := rfl
@[simp] theorem onSu_qm (f : SuState → SuState) (s : State) : (onSu f s).qm = s.qm := rfl
@[simp] theorem onSu_se (f : SuState → SuState) (s : State) : (onSu f s).se = s.se := rfl
@[simp] theorem onSu_fr (f : SuState → SuState) (s : State) : (onSu f s).fr = s.fr := rfl
@[simp] theorem onSu_pe (f : SuState → SuState) (s : State) : (onSu f s).pe = s.pe := rfl
@[simp] theorem onSu_ar (f : SuState → SuState) (s : State) : (onSu f s).ar = s.ar := rfl
@[simp] theorem onSu_fb (f : SuState → SuState) (s : State) : (onSu f s).fb = s.fb := rfl
@[simp] theorem onSu_ps (f : SuState → SuState) (s : State) : (onSu f s).ps = s.ps := rfl
@[simp] theorem onSu_fo (f : SuState → SuState) (s : State) : (onSu f s).fo = s.fo := rfl
@[simp] theorem onSu_mi (f : SuState → SuState) (s : State) : (onSu f s).mi = s.mi := rfl
@[simp] theorem onSu_kv (f : SuState → SuState) (s : State) : (onSu f s).kv = s.kv := rfl
@[simp] theorem onSu_im (f : SuState → SuState) (s : State) : (onSu f s).im = s.im := rfl
@[simp] theorem onSu_pa (f : SuState → SuState) (s : State) : (onSu f s).pa = s.pa := rfl
@[simp] theorem onSu_pmb (f : SuState → SuState) (s : State) : (onSu f s).pmb = s.pmb := rfl
@[simp] theorem onSu_grd (f : SuState → SuState) (s : State) : (onSu f s).grd = s.grd := rfl
@[simp] theorem onSu_log (f : SuState → SuState) (s : State) : (onSu f s).log = s.log := rfl
@[simp] theorem onSu_ev (f : SuState → SuState) (s : State) : (onSu f s).ev = s.ev := rfl
@[simp] theorem onSu_glob (f : SuState → SuState) (s : State) : (onSu f s).glob = s.glob := rfl
@[simp] theorem onSu_jtag (f : SuState → SuState) (s : State) : (onSu f s).jtag = s.jtag := rfl
@[simp] theorem onSu_pending (f : SuState → SuState) (s : State) : (onSu f s).pending = s.pending := rfl
@[simp] theorem onSu_free (f : SuState → SuState) (s : State) : (onSu f s).free = s.free := rfl
@[simp] theorem onSu_out (f : SuState → SuState) (s : State) : (onSu f s).out = s.out := rfl

@[simp] theorem onPx_tb (f : PxState → PxState) (s : State) : (onPx f s).tb = s.tb := rfl
@[simp] theorem onPx_su (f : PxState → PxState) (s : State) : (onPx f s).su = s.su := rfl
@[simp] theorem onPx_px (f : PxState → PxState) (s : State) : (onPx f s).px = f s.px := rfl
@[simp] theorem onPx_sw (f : PxState → PxState) (s : State) : (onPx f s).sw = s.sw := rfl
@[simp] theorem onPx_qm (f : PxState → PxState) (s : State) : (onPx f s).qm = s.qm := rfl
@[simp] theorem onPx_se (f : PxState → PxState) (s : State) : (onPx f s).se = s.se := rfl
@[simp] theorem onPx_fr (f : PxState → PxState) (s : State) : (onPx f s).fr = s.fr := rfl
@[simp] theorem onPx_pe (f : PxState → PxState) (s : State) : (onPx f s).pe = s.pe := rfl
@[simp] theorem onPx_ar (f : PxState → PxState) (s : State) : (onPx f s).ar = s.ar := rfl
@[simp] theorem onPx_fb (f : PxState → PxState) (s : State) : (onPx f s).fb = s.fb := rfl
@[simp] theorem onPx_ps (f : PxState → PxState) (s : State) : (onPx f s).ps = s.ps := rfl
@[simp] theorem onPx_fo (f : PxState → PxState) (s : State) : (onPx f s).fo = s.fo := rfl
@[simp] theorem onPx_mi (f : PxState → PxState) (s : State) : (onPx f s).mi = s.mi := rfl
@[simp] theorem onPx_kv (f : PxState → PxState) (s : State) : (onPx f s).kv = s.kv := rfl
@[simp] theorem onPx_im (f : PxState → PxState) (s : State) : (onPx f s).im = s.im := rfl
@[simp] theorem onPx_pa (f : PxState → PxState) (s : State) : (onPx f s).pa = s.pa := rfl
@[simp] theorem onPx_pmb (f : PxState → PxState) (s : State) : (onPx f s).pmb = s.pmb := rfl
@[simp] theorem onPx_grd (f : PxState → PxState) (s : State) : (onPx f s).grd = s.grd := rfl
@[simp] theorem onPx_log (f : PxState → PxState) (s : State) : (onPx f s).log = s.log := rfl
@[simp] theorem onPx_ev (f : PxState → PxState) (s : State) : (onPx f s).ev = s.ev := rfl
@[simp] theorem onPx_glob (f : PxState → PxState) (s : State) : (onPx f s).glob = s.glob := rfl
@[simp] theorem onPx_jtag (f : PxState → PxState) (s : State) : (onPx f s).jtag = s.jtag := rfl
@[simp] theorem onPx_pending (f : PxState → PxState) (s : State) : (onPx f s).pending = s.pending := rfl
@[simp] theorem onPx_free (f : PxState → PxState) (s : State) : (onPx f s).free = s.free := rfl
@[simp] theorem onPx_out (f : PxState → PxState) (s : State) : (onPx f s).out = s.out := rfl

@[simp] theorem onSw_tb (f : SwState → SwState) (s : State) : (onSw f s).tb = s.tb := rfl
@[simp] theorem onSw_su (f : SwState → SwState) (s : State) : (onSw f s).su = s.su := rfl
@[simp] theorem onSw_px (f : SwState → SwState) (s : State) : (onSw f s).px = s.px := rfl
@[simp] theorem onSw_sw (f : SwState → SwState) (s : State) : (onSw f s).sw = f s.sw := rfl
@[simp] theorem onSw_qm (f : SwState → SwState) (s : State) : (onSw f s).qm = s.qm := rfl
@[simp] theorem onSw_se (f : SwState → SwState) (s : State) : (onSw f s).se = s.se := rfl
@[simp] theorem onSw_fr (f : SwState → SwState) (s : State) : (onSw f s).fr = s.fr := rfl
@[simp] theorem onSw_pe (f : SwState → SwState) (s : State) : (onSw f s).pe = s.pe := rfl
@[simp] theorem onSw_ar (f : SwState → SwState) (s : State) : (onSw f s).ar = s.ar := rfl
@[simp] theorem onSw_fb (f : SwState → SwState) (s : State) : (onSw f s).fb = s.fb := rfl
@[simp] theorem onSw_ps (f : SwState → SwState) (s : State) : (onSw f s).ps = s.ps := rfl
@[simp] theorem onSw_fo (f : SwState → SwState) (s : State) : (onSw f s).fo = s.fo := rfl
@[simp] theorem onSw_mi (f : SwState → SwState) (s : State) : (onSw f s).mi = s.mi := rfl
@[simp] theorem onSw_kv (f : SwState → SwState) (s : State) : (onSw f s).kv = s.kv := rfl
@[simp] theorem onSw_im (f : SwState → SwState) (s : State) : (onSw f s).im = s.im := rfl
@[simp] theorem onSw_pa (f : SwState → SwState) (s : State) : (onSw f s).pa = s.pa := rfl
@[simp] theorem onSw_pmb (f : SwState → SwState) (s : State) : (onSw f s).pmb = s.pmb := rfl
@[simp] theorem onSw_grd (f : SwState → SwState) (s : State) : (onSw f s).grd = s.grd := rfl
@[simp] theorem onSw_log (f : SwState → SwState) (s : State) : (onSw f s).log = s.log := rfl
@[simp] theorem onSw_ev (f : SwState → SwState) (s : State) : (onSw f s).ev = s.ev := rfl
@[simp] theorem onSw_glob (f : SwState → SwState) (s : State) : (onSw f s).glob = s.glob := rfl
@[simp] theorem onSw_jtag (f : SwState → SwState) (s : State) : (onSw f s).jtag = s.jtag := rfl
@[simp] theorem onSw_pending (f : SwState → SwState) (s : State) : (onSw f s).pending = s.pending := rfl
@[simp] theorem onSw_free (f : SwState → SwState) (s : State) : (onSw f s).free = s.free := rfl
@[simp] theorem onSw_out (f : SwState → SwState) (s : State) : (onSw f s).out = s.out := rfl

@[simp] theorem onQm_tb (f : QmState → QmState) (s : State) : (onQm f s).tb = s.tb := rfl
@[simp] theorem onQm_su (f : QmState → QmState) (s : State) : (onQm f s).su = s.su := rfl
@[simp] theorem onQm_px (f : QmState → QmState) (s : State) : (onQm f s).px = s.px := rfl
@[simp] theorem onQm_sw (f : QmState → QmState) (s : State) : (onQm f s).sw = s.sw := rfl
@[simp] theorem onQm_qm (f : QmState → QmState) (s : State) : (onQm f s).qm = f s.qm := rfl
@[simp] theorem onQm_se (f : QmState → QmState) (s : State) : (onQm f s).se = s.se := rfl
@[simp] theorem onQm_fr (f : QmState → QmState) (s : State) : (onQm f s).fr = s.fr := rfl
@[simp] theorem onQm_pe (f : QmState → QmState) (s : State) : (onQm f s).pe = s.pe := rfl
@[simp] theorem onQm_ar (f : QmState → QmState) (s : State) : (onQm f s).ar = s.ar := rfl
@[simp] theorem onQm_fb (f : QmState → QmState) (s : State) : (onQm f s).fb = s.fb := rfl
@[simp] theorem onQm_ps (f : QmState → QmState) (s : State) : (onQm f s).ps = s.ps := rfl
@[simp] theorem onQm_fo (f : QmState → QmState) (s : State) : (onQm f s).fo = s.fo := rfl
@[simp] theorem onQm_mi (f : QmState → QmState) (s : State) : (onQm f s).mi = s.mi := rfl
@[simp] theorem onQm_kv (f : QmState → QmState) (s : State) : (onQm f s).kv = s.kv := rfl
@[simp] theorem onQm_im (f : QmState → QmState) (s : State) : (onQm f s).im = s.im := rfl
@[simp] theorem onQm_pa (f : QmState → QmState) (s : State) : (onQm f s).pa = s.pa := rfl
@[simp] theorem onQm_pmb (f : QmState → QmState) (s : State) : (onQm f s).pmb = s.pmb := rfl
@[simp] theorem onQm_grd (f : QmState → QmState) (s : State) : (onQm f s).grd = s.grd := rfl
@[simp] theorem onQm_log (f : QmState → QmState) (s : State) : (onQm f s).log = s.log := rfl
@[simp] theorem onQm_ev (f : QmState → QmState) (s : State) : (onQm f s).ev = s.ev := rfl
@[simp] theorem onQm_glob (f : QmState → QmState) (s : State) : (onQm f s).glob = s.glob := rfl
@[simp] theorem onQm_jtag (f : QmState → QmState) (s : State) : (onQm f s).jtag = s.jtag := rfl
@[simp] theorem onQm_pending (f : QmState → QmState) (s : State) : (onQm f s).pending = s.pending := rfl
@[simp] theorem onQm_free (f : QmState → QmState) (s : State) : (onQm f s).free = s.free := rfl
@[simp] theorem onQm_out (f : QmState → QmState) (s : State) : (onQm f s).out = s.out := rfl

@[simp] theorem onSe_tb (f : SeState → SeState) (s : State) : (onSe f s).tb = s.tb := rfl
@[simp] theorem onSe_su (f : SeState → SeState) (s : State) : (onSe f s).su = s.su := rfl
@[simp] theorem onSe_px (f : SeState → SeState) (s : State) : (onSe f s).px = s.px := rfl
@[simp] theorem onSe_sw (f : SeState → SeState) (s : State) : (onSe f s).sw = s.sw := rfl
@[simp] theorem onSe_qm (f : SeState → SeState) (s : State) : (onSe f s).qm = s.qm := rfl
@[simp] theorem onSe_se (f : SeState → SeState) (s : State) : (onSe f s).se = f s.se := rfl
@[simp] theorem onSe_fr (f : SeState → SeState) (s : State) : (onSe f s).fr = s.fr := rfl
@[simp] theorem onSe_pe (f : SeState → SeState) (s : State) : (onSe f s).pe = s.pe := rfl
@[simp] theorem onSe_ar (f : SeState → SeState) (s : State) : (onSe f s).ar = s.ar := rfl
@[simp] theorem onSe_fb (f : SeState → SeState) (s : State) : (onSe f s).fb = s.fb := rfl
@[simp] theorem onSe_ps (f : SeState → SeState) (s : State) : (onSe f s).ps = s.ps := rfl
@[simp] theorem onSe_fo (f : SeState → SeState) (s : State) : (onSe f s).fo = s.fo := rfl
@[simp] theorem onSe_mi (f : SeState → SeState) (s : State) : (onSe f s).mi = s.mi := rfl
@[simp] theorem onSe_kv (f : SeState → SeState) (s : State) : (onSe f s).kv = s.kv := rfl
@[simp] theorem onSe_im (f : SeState → SeState) (s : State) : (onSe f s).im = s.im := rfl
@[simp] theorem onSe_pa (f : SeState → SeState) (s : State) : (onSe f s).pa = s.pa := rfl
@[simp] theorem onSe_pmb (f : SeState → SeState) (s : State) : (onSe f s).pmb = s.pmb := rfl
@[simp] theorem onSe_grd (f : SeState → SeState) (s : State) : (onSe f s).grd = s.grd := rfl
@[simp] theorem onSe_log (f : SeState → SeState) (s : State) : (onSe f s).log = s.log := rfl
@[simp] theorem onSe_ev (f : SeState → SeState) (s : State) : (onSe f s).ev = s.ev := rfl
@[simp] theorem onSe_glob (f : SeState → SeState) (s : State) : (onSe f s).glob = s.glob := rfl
@[simp] theorem onSe_jtag (f : SeState → SeState) (s : State) : (onSe f s).jtag = s.jtag := rfl
@[simp] theorem onSe_pending (f : SeState → SeState) (s : State) : (onSe f s).pending = s.pending := rfl
@[simp] theorem onSe_free (f : SeState → SeState) (s : State) : (onSe f s).free = s.free := rfl
@[simp] theorem onSe_out (f : SeState → SeState) (s : State) : (onSe f s).out = s.out := rfl

@[simp] theorem onFr_tb (f : FrState → FrState) (s : State) : (onFr f s).tb = s.tb := rfl
@[simp] theorem onFr_su (f : FrState → FrState) (s : State) : (onFr f s).su = s.su := rfl
@[simp] theorem onFr_px (f : FrState → FrState) (s : State) : (onFr f s).px = s.px := rfl
@[simp] theorem onFr_sw (f : FrState → FrState) (s : State) : (onFr f s).sw = s.sw := rfl
@[simp] theorem onFr_qm (f : FrState → FrState) (s : State) : (onFr f s).qm = s.qm := rfl
@[simp] theorem onFr_se (f : FrState → FrState) (s : State) : (onFr f s).se = s.se := rfl
@[simp] theorem onFr_fr (f : FrState → FrState) (s : State) : (onFr f s).fr = f s.fr := rfl
@[simp] theorem onFr_pe (f : FrState → FrState) (s : State) : (onFr f s).pe = s.pe := rfl
@[simp] theorem onFr_ar (f : FrState → FrState) (s : State) : (onFr f s).ar = s.ar := rfl
@[simp] theorem onFr_fb (f : FrState → FrState) (s : State) : (onFr f s).fb = s.fb := rfl
@[simp] theorem onFr_ps (f : FrState → FrState) (s : State) : (onFr f s).ps = s.ps := rfl
@[simp] theorem onFr_fo (f : FrState → FrState) (s : State) : (onFr f s).fo = s.fo := rfl
@[simp] theorem onFr_mi (f : FrState → FrState) (s : State) : (onFr f s).mi = s.mi := rfl
@[simp] theorem onFr_kv (f : FrState → FrState) (s : State) : (onFr f s).kv = s.kv := rfl
@[simp] theorem onFr_im (f : FrState → FrState) (s : State) : (onFr f s).im = s.im := rfl
@[simp] theorem onFr_pa (f : FrState → FrState) (s : State) : (onFr f s).pa = s.pa := rfl
@[simp] theorem onFr_pmb (f : FrState → FrState) (s : State) : (onFr f s).pmb = s.pmb := rfl
@[simp] theorem onFr_grd (f : FrState → FrState) (s : State) : (onFr f s).grd = s.grd := rfl
@[simp] theorem onFr_log (f : FrState → FrState) (s : State) : (onFr f s).log = s.log := rfl
@[simp] theorem onFr_ev (f : FrState → FrState) (s : State) : (onFr f s).ev = s.ev := rfl
@[simp] theorem onFr_glob (f : FrState → FrState) (s : State) : (onFr f s).glob = s.glob := rfl
@[simp] theorem onFr_jtag (f : FrState → FrState) (s : State) : (onFr f s).jtag = s.jtag := rfl
@[simp] theorem onFr_pending (f : FrState → FrState) (s : State) : (onFr f s).pending = s.pending := rfl
@[simp] theorem onFr_free (f : FrState → FrState) (s : State) : (onFr f s).free = s.free := rfl
@[simp] theorem onFr_out (f : FrState → FrState) (s : State) : (onFr f s).out = s.out := rfl

@[simp] theorem onPe_tb (f : PeState → PeState) (s : State) : (onPe f s).tb = s.tb := rfl
@[simp] theorem onPe_su (f : PeState → PeState) (s : State) : (onPe f s).su = s.su := rfl
@[simp] theorem onPe_px (f : PeState → PeState) (s : State) : (onPe f s).px = s.px := rfl
@[simp] theorem onPe_sw (f : PeState → PeState) (s : State) : (onPe f s).sw = s.sw := rfl
@[simp] theorem onPe_qm (f : PeState → PeState) (s : State) : (onPe f s).qm = s.qm := rfl
@[simp] theorem onPe_se (f : PeState → PeState) (s : State) : (onPe f s).se = s.se := rfl
@[simp] theorem onPe_fr (f : PeState → PeState) (s : State) : (onPe f s).fr = s.fr := rfl
@[simp] theorem onPe_pe (f : PeState → PeState) (s : State) : (onPe f s).pe = f s.pe := rfl
@[simp] theorem onPe_ar (f : PeState → PeState) (s : State) : (onPe f s).ar = s.ar := rfl
@[simp] theorem onPe_fb (f : PeState → PeState) (s : State) : (onPe f s).fb = s.fb := rfl
@[simp] theorem onPe_ps (f : PeState → PeState) (s : State) : (onPe f s).ps = s.ps := rfl
@[simp] theorem onPe_fo (f : PeState → PeState) (s : State) : (onPe f s).fo = s.fo := rfl
@[simp] theorem onPe_mi (f : PeState → PeState) (s : State) : (onPe f s).mi = s.mi := rfl
@[simp] theorem onPe_kv (f : PeState → PeState) (s : State) : (onPe f s).kv = s.kv := rfl
@[simp] theorem onPe_im (f : PeState → PeState) (s : State) : (onPe f s).im = s.im := rfl
@[simp] theorem onPe_pa (f : PeState → PeState) (s : State) : (onPe f s).pa = s.pa := rfl
@[simp] theorem onPe_pmb (f : PeState → PeState) (s : State) : (onPe f s).pmb = s.pmb := rfl
@[simp] theorem onPe_grd (f : PeState → PeState) (s : State) : (onPe f s).grd = s.grd := rfl
@[simp] theorem onPe_log (f : PeState → PeState) (s : State) : (onPe f s).log = s.log := rfl
@[simp] theorem onPe_ev (f : PeState → PeState) (s : State) : (onPe f s).ev = s.ev := rfl
@[simp] theorem onPe_glob (f : PeState → PeState) (s : State) : (onPe f s).glob = s.glob := rfl
@[simp] theorem onPe_jtag (f : PeState → PeState) (s : State) : (onPe f s).jtag = s.jtag := rfl
@[simp] theorem onPe_pending (f : PeState → PeState) (s : State) : (onPe f s).pending = s.pending := rfl
@[simp] theorem onPe_free (f : PeState → PeState) (s : State) : (onPe f s).free = s.free := rfl
@[simp] theorem onPe_out (f : PeState → PeState) (s : State) : (onPe f s).out = s.out := rfl

@[simp] theorem onAr_tb (f : ArState → ArState) (s : State) : (onAr f s).tb = s.tb := rfl
@[simp] theorem onAr_su (f : ArState → ArState) (s : State) : (onAr f s).su = s.su := rfl
@[simp] theorem onAr_px (f : ArState → ArState) (s : State) : (onAr f s).px = s.px := rfl
@[simp] theorem onAr_sw (f : ArState → ArState) (s : State) : (onAr f s).sw = s.sw := rfl
@[simp] theorem onAr_qm (f : ArState → ArState) (s : State) : (onAr f s).qm = s.qm := rfl
@[simp] theorem onAr_se (f : ArState → ArState) (s : State) : (onAr f s).se = s.se := rfl
@[simp] theorem onAr_fr (f : ArState → ArState) (s : State) : (onAr f s).fr = s.fr := rfl
@[simp] theorem onAr_pe (f : ArState → ArState) (s : State) : (onAr f s).pe = s.pe := rfl
@[simp] theorem onAr_ar (f : ArState → ArState) (s : State) : (onAr f s).ar = f s.ar := rfl
@[simp] theorem onAr_fb (f : ArState → ArState) (s : State) : (onAr f s).fb = s.fb := rfl
@[simp] theorem onAr_ps (f : ArState → ArState) (s : State) : (onAr f s).ps = s.ps := rfl
@[simp] theorem onAr_fo (f : ArState → ArState) (s : State) : (onAr f s).fo = s.fo := rfl
@[simp] theorem onAr_mi (f : ArState → ArState) (s : State) : (onAr f s).mi = s.mi := rfl
@[simp] theorem onAr_kv (f : ArState → ArState) (s : State) : (onAr f s).kv = s.kv := rfl
@[simp] theorem onAr_im (f : ArState → ArState) (s : State) : (onAr f s).im = s.im := rfl
@[simp] theorem onAr_pa (f : ArState → ArState) (s : State) : (onAr f s).pa = s.pa := rfl
@[simp] theorem onAr_pmb (f : ArState → ArState) (s : State) : (onAr f s).pmb = s.pmb := rfl
@[simp] theorem onAr_grd (f : ArState → ArState) (s : State) : (onAr f s).grd = s.grd := rfl
@[simp] theorem onAr_log (f : ArState → ArState) (s : State) : (onAr f s).log = s.log := rfl
@[simp] theorem onAr_ev (f : ArState → ArState) (s : State) : (onAr f s).ev = s.ev := rfl
@[simp] theorem onAr_glob (f : ArState → ArState) (s : State) : (onAr f s).glob = s.glob := rfl
@[simp] theorem onAr_jtag (f : ArState → ArState) (s : State) : (onAr f s).jtag = s.jtag := rfl
@[simp] theorem onAr_pending (f : ArState → ArState) (s : State) : (onAr f s).pending = s.pending := rfl
@[simp] theorem onAr_free (f : ArState → ArState) (s : State) : (onAr f s).free = s.free := rfl
@[simp] theorem onAr_out (f : ArState → ArState) (s : State) : (onAr f s).out = s.out := rfl

@[simp] theorem onFb_tb (f : FbState → FbState) (s : State) : (onFb f s).tb = s.tb := rfl
@[simp] theorem onFb_su (f : FbState → FbState) (s : State) : (onFb f s).su = s.su := rfl
@[simp] theorem onFb_px (f : FbState → FbState) (s : State) : (onFb f s).px = s.px := rfl
@[simp] theorem onFb_sw (f : FbState → FbState) (s : State) : (onFb f s).sw = s.sw := rfl
@[simp] theorem onFb_qm (f : FbState → FbState) (s : State) : (onFb f s).qm = s.qm := rfl
@[simp] theorem onFb_se (f : FbState → FbState) (s : State) : (onFb f s).se = s.se := rfl
@[simp] theorem onFb_fr (f : FbState → FbState) (s : State) : (onFb f s).fr = s.fr := rfl
@[simp] theorem onFb_pe (f : FbState → FbState) (s : State) : (onFb f s).pe = s.pe := rfl
@[simp] theorem onFb_ar (f : FbState → FbState) (s : State) : (onFb f s).ar = s.ar := rfl
@[simp] theorem onFb_fb (f : FbState → FbState) (s : State) : (onFb f s).fb = f s.fb := rfl
@[simp] theorem onFb_ps (f : FbState → FbState) (s : State) : (onFb f s).ps = s.ps := rfl
@[simp] theorem onFb_fo (f : FbState → FbState) (s : State) : (onFb f s).fo = s.fo := rfl
@[simp] theorem onFb_mi (f : FbState → FbState) (s : State) : (onFb f s).mi = s.mi := rfl
@[simp] theorem onFb_kv (f : FbState → FbState) (s : State) : (onFb f s).kv = s.kv := rfl
@[simp] theorem onFb_im (f : FbState → FbState) (s : State) : (onFb f s).im = s.im := rfl
@[simp] theorem onFb_pa (f : FbState → FbState) (s : State) : (onFb f s).pa = s.pa := rfl
@[simp] theorem onFb_pmb (f : FbState → FbState) (s : State) : (onFb f s).pmb = s.pmb := rfl
@[simp] theorem onFb_grd (f : FbState → FbState) (s : State) : (onFb f s).grd = s.grd := rfl
@[simp] theorem onFb_log (f : FbState → FbState) (s : State) : (onFb f s).log = s.log := rfl
@[simp] theorem onFb_ev (f : FbState → FbState) (s : State) : (onFb f s).ev = s.ev := rfl
@[simp] theorem onFb_glob (f : FbState → FbState) (s : State) : (onFb f s).glob = s.glob := rfl
@[simp] theorem onFb_jtag (f : FbState → FbState) (s : State) : (onFb f s).jtag = s.jtag := rfl
@[simp] theorem onFb_pending (f : FbState → FbState) (s : State) : (onFb f s).pending = s.pending := rfl
@[simp] theorem onFb_free (f : FbState → FbState) (s : State) : (onFb f s).free = s.free := rfl
@[simp] theorem onFb_out (f : FbState → FbState) (s : State) : (onFb f s).out = s.out := rfl

@[simp] theorem onPs_tb (f : PsState → PsState) (s : State) : (onPs f s).tb = s.tb := rfl
@[simp] theorem onPs_su (f : PsState → PsState) (s : State) : (onPs f s).su = s.su := rfl
@[simp] theorem onPs_px (f : PsState → PsState) (s : State) : (onPs f s).px = s.px := rfl
@[simp] theorem onPs_sw (f : PsState → PsState) (s : State) : (onPs f s).sw = s.sw := rfl
@[simp] theorem onPs_qm (f : PsState → PsState) (s : State) : (onPs f s).qm = s.qm := rfl
@[simp] theorem onPs_se (f : PsState → PsState) (s : State) : (onPs f s).se = s.se := rfl
@[simp] theorem onPs_fr (f : PsState → PsState) (s : State) : (onPs f s).fr = s.fr := rfl
@[simp] theorem onPs_pe (f : PsState → PsState) (s : State) : (onPs f s).pe = s.pe := rfl
@[simp] theorem onPs_ar (f : PsState → PsState) (s : State) : (onPs f s).ar = s.ar := rfl
@[simp] theorem onPs_fb (f : PsState → PsState) (s : State) : (onPs f s).fb = s.fb := rfl
@[simp] theorem onPs_ps (f : PsState → PsState) (s : State) : (onPs f s).ps = f s.ps := rfl
@[simp] theorem onPs_fo (f : PsState → PsState) (s : State) : (onPs f s).fo = s.fo := rfl
@[simp] theorem onPs_mi (f : PsState → PsState) (s : State) : (onPs f s).mi = s.mi := rfl
@[simp] theorem onPs_kv (f : PsState → PsState) (s : State) : (onPs f s).kv = s.kv := rfl
@[simp] theorem onPs_im (f : PsState → PsState) (s : State) : (onPs f s).im = s.im := rfl
@[simp] theorem onPs_pa (f : PsState → PsState) (s : State) : (onPs f s).pa = s.pa := rfl
@[simp] theorem onPs_pmb (f : PsState → PsState) (s : State) : (onPs f s).pmb = s.pmb := rfl
@[simp] theorem onPs_grd (f : PsState → PsState) (s : State) : (onPs f s).grd = s.grd := rfl
@[simp] theorem onPs_log (f : PsState → PsState) (s : State) : (onPs f s).log = s.log := rfl
@[simp] theorem onPs_ev (f : PsState → PsState) (s : State) : (onPs f s).ev = s.ev := rfl
@[simp] theorem onPs_glob (f : PsState → PsState) (s : State) : (onPs f s).glob = s.glob := rfl
@[simp] theorem onPs_jtag (f : PsState → PsState) (s : State) : (onPs f s).jtag = s.jtag := rfl
@[simp] theorem onPs_pending (f : PsState → PsState) (s : State) : (onPs f s).pending = s.pending := rfl
@[simp] theorem onPs_free (f : PsState → PsState) (s : State) : (onPs f s).free = s.free := rfl
@[simp] theorem onPs_out (f : PsState → PsState) (s : State) : (onPs f s).out = s.out := rfl

@[simp] theorem onFo_tb (f : FoState → FoState) (s : State) : (onFo f s).tb = s.tb := rfl
@[simp] theorem onFo_su (f : FoState → FoState) (s : State) : (onFo f s).su = s.su := rfl
@[simp] theorem onFo_px (f : FoState → FoState) (s : State) : (onFo f s).px = s.px := rfl
@[simp] theorem onFo_sw (f : FoState → FoState) (s : State) : (onFo f s).sw = s.sw := rfl
@[simp] theorem onFo_qm (f : FoState → FoState) (s : State) : (onFo f s).qm = s.qm := rfl
@[simp] theorem onFo_se (f : FoState → FoState) (s : State) : (onFo f s).se = s.se := rfl
@[simp] theorem onFo_fr (f : FoState → FoState) (s : State) : (onFo f s).fr = s.fr := rfl
@[simp] theorem onFo_pe (f : FoState → FoState) (s : State) : (onFo f s).pe = s.pe := rfl
@[simp] theorem onFo_ar (f : FoState → FoState) (s : State) : (onFo f s).ar = s.ar := rfl
@[simp] theorem onFo_fb (f : FoState → FoState) (s : State) : (onFo f s).fb = s.fb := rfl
@[simp] theorem onFo_ps (f : FoState → FoState) (s : State) : (onFo f s).ps = s.ps := rfl
@[simp] theorem onFo_fo (f : FoState → FoState) (s : State) : (onFo f s).fo = f s.fo := rfl
@[simp] theorem onFo_mi (f : FoState → FoState) (s : State) : (onFo f s).mi = s.mi := rfl
@[simp] theorem onFo_kv (f : FoState → FoState) (s : State) : (onFo f s).kv = s.kv := rfl
@[simp] theorem onFo_im (f : FoState → FoState) (s : State) : (onFo f s).im = s.im := rfl
@[simp] theorem onFo_pa (f : FoState → FoState) (s : State) : (onFo f s).pa = s.pa := rfl
@[simp] theorem onFo_pmb (f : FoState → FoState) (s : State) : (onFo f s).pmb = s.pmb := rfl
@[simp] theorem onFo_grd (f : FoState → FoState) (s : State) : (onFo f s).grd = s.grd := rfl
@[simp] theorem onFo_log (f : FoState → FoState) (s : State) : (onFo f s).log = s.log := rfl
@[simp] theorem onFo_ev (f : FoState → FoState) (s : State) : (onFo f s).ev = s.ev := rfl
@[simp] theorem onFo_glob (f : FoState → FoState) (s : State) : (onFo f s).glob = s.glob := rfl
@[simp] theorem onFo_jtag (f : FoState → FoState) (s : State) : (onFo f s).jtag = s.jtag := rfl
@[simp] theorem onFo_pending (f : FoState → FoState) (s : State) : (onFo f s).pending = s.pending := rfl
@[simp] theorem onFo_free (f : FoState → FoState) (s : State) : (onFo f s).free = s.free := rfl
@[simp] theorem onFo_out (f : FoState → FoState) (s : State) : (onFo f s).out = s.out := rfl

@[simp] theorem onMi_tb (f : MiState → MiState) (s : State) : (onMi f s).tb = s.tb := rfl
@[simp] theorem onMi_su (f : MiState → MiState) (s : State) : (onMi f s).su = s.su := rfl
@[simp] theorem onMi_px (f : MiState → MiState) (s : State) : (onMi f s).px = s.px := rfl
@[simp] theorem onMi_sw (f : MiState → MiState) (s : State) : (onMi f s).sw = s.sw := rfl
@[simp] theorem onMi_qm (f : MiState → MiState) (s : State) : (onMi f s).qm = s.qm := rfl
@[simp] theorem onMi_se (f : MiState → MiState) (s : State) : (onMi f s).se = s.se := rfl
@[simp] theorem onMi_fr (f : MiState → MiState) (s : State) : (onMi f s).fr = s.fr := rfl
@[simp] theorem onMi_pe (f : MiState → MiState) (s : State) : (onMi f s).pe = s.pe := rfl
@[simp] theorem onMi_ar (f : MiState → MiState) (s : State) : (onMi f s).ar = s.ar := rfl
@[simp] theorem onMi_fb (f : MiState → MiState) (s : State) : (onMi f s).fb = s.fb := rfl
@[simp] theorem onMi_ps (f : MiState → MiState) (s : State) : (onMi f s).ps = s.ps := rfl
@[simp] theorem onMi_fo (f : MiState → MiState) (s : State) : (onMi f s).fo = s.fo := rfl
@[simp] theorem onMi_mi (f : MiState → MiState) (s : State) : (onMi f s).mi = f s.mi := rfl
@[simp] theorem onMi_kv (f : MiState → MiState) (s : State) : (onMi f s).kv = s.kv := rfl
@[simp] theorem onMi_im (f : MiState → MiState) (s : State) : (onMi f s).im = s.im := rfl
@[simp] theorem onMi_pa (f : MiState → MiState) (s : State) : (onMi f s).pa = s.pa := rfl
@[simp] theorem onMi_pmb (f : MiState → MiState) (s : State) : (onMi f s).pmb = s.pmb := rfl
@[simp] theorem onMi_grd (f : MiState → MiState) (s : State) : (onMi f s).grd = s.grd := rfl
@[simp] theorem onMi_log (f : MiState → MiState) (s : State) : (onMi f s).log = s.log := rfl
@[simp] theorem onMi_ev (f : MiState → MiState) (s : State) : (onMi f s).ev = s.ev := rfl
@[simp] theorem onMi_glob (f : MiState → MiState) (s : State) : (onMi f s).glob = s.glob := rfl
@[simp] theorem onMi_jtag (f : MiState → MiState) (s : State) : (onMi f s).jtag = s.jtag := rfl
@[simp] theorem onMi_pending (f : MiState → MiState) (s : State) : (onMi f s).pending = s.pending := rfl
@[simp] theorem onMi_free (f : MiState → MiState) (s : State) : (onMi f s).free = s.free := rfl
@[simp] theorem onMi_out (f : MiState → MiState) (s : State) : (onMi f s).out = s.out := rfl

@[simp] theorem onKv_tb (f : KvState → KvState) (s : State) : (onKv f s).tb = s.tb := rfl
@[simp] theorem onKv_su (f : KvState → KvState) (s : State) : (onKv f s).su = s.su := rfl
@[simp] theorem onKv_px (f : KvState → KvState) (s : State) : (onKv f s).px = s.px := rfl
@[simp] theorem onKv_sw (f : KvState → KvState) (s : State) : (onKv f s).sw = s.sw := rfl
@[simp] theorem onKv_qm (f : KvState → KvState) (s : State) : (onKv f s).qm = s.qm := rfl
@[simp] theorem onKv_se (f : KvState → KvState) (s : State) : (onKv f s).se = s.se := rfl
@[simp] theorem onKv_fr (f : KvState → KvState) (s : State) : (onKv f s).fr = s.fr := rfl
@[simp] theorem onKv_pe (f : KvState → KvState) (s : State) : (onKv f s).pe = s.pe := rfl
@[simp] theorem onKv_ar (f : KvState → KvState) (s : State) : (onKv f s).ar = s.ar := rfl
@[simp] theorem onKv_fb (f : KvState → KvState) (s : State) : (onKv f s).fb = s.fb := rfl
@[simp] theorem onKv_ps (f : KvState → KvState) (s : State) : (onKv f s).ps = s.ps := rfl
@[simp] theorem onKv_fo (f : KvState → KvState) (s : State) : (onKv f s).fo = s.fo := rfl
@[simp] theorem onKv_mi (f : KvState → KvState) (s : State) : (onKv f s).mi = s.mi := rfl
@[simp] theorem onKv_kv (f : KvState → KvState) (s : State) : (onKv f s).kv = f s.kv := rfl
@[simp] theorem onKv_im (f : KvState → KvState) (s : State) : (onKv f s).im = s.im := rfl
@[simp] theorem onKv_pa (f : KvState → KvState) (s : State) : (onKv f s).pa = s.pa := rfl
@[simp] theorem onKv_pmb (f : KvState → KvState) (s : State) : (onKv f s).pmb = s.pmb := rfl
@[simp] theorem onKv_grd (f : KvState → KvState) (s : State) : (onKv f s).grd = s.grd := rfl
@[simp] theorem onKv_log (f : KvState → KvState) (s : State) : (onKv f s).log = s.log := rfl
@[simp] theorem onKv_ev (f : KvState → KvState) (s : State) : (onKv f s).ev = s.ev := rfl
@[simp] theorem onKv_glob (f : KvState → KvState) (s : State) : (onKv f s).glob = s.glob := rfl
@[simp] theorem onKv_jtag (f : KvState → KvState) (s : State) : (onKv f s).jtag = s.jtag := rfl
@[simp] theorem onKv_pending (f : KvState → KvState) (s : State) : (onKv f s).pending = s.pending := rfl
@[simp] theorem onKv_free (f : KvState → KvState) (s : State) : (onKv f s).free = s.free := rfl
@[simp] theorem onKv_out (f : KvState → KvState) (s : State) : (onKv f s).out = s.out := rfl

@[simp] theorem onIm_tb (f : ImState → ImState) (s : State) : (onIm f s).tb = s.tb := rfl
@[simp] theorem onIm_su (f : ImState → ImState) (s : State) : (onIm f s).su = s.su := rfl
@[simp] theorem onIm_px (f : ImState → ImState) (s : State) : (onIm f s).px = s.px := rfl
@[simp] theorem onIm_sw (f : ImState → ImState) (s : State) : (onIm f s).sw = s.sw := rfl
@[simp] theorem onIm_qm (f : ImState → ImState) (s : State) : (onIm f s).qm = s.qm := rfl
@[simp] theorem onIm_se (f : ImState → ImState) (s : State) : (onIm f s).se = s.se := rfl
@[simp] theorem onIm_fr (f : ImState → ImState) (s : State) : (onIm f s).fr = s.fr := rfl
@[simp] theorem onIm_pe (f : ImState → ImState) (s : State) : (onIm f s).pe = s.pe := rfl
@[simp] theorem onIm_ar (f : ImState → ImState) (s : State) : (onIm f s).ar = s.ar := rfl
@[simp] theorem onIm_fb (f : ImState → ImState) (s : State) : (onIm f s).fb = s.fb := rfl
@[simp] theorem onIm_ps (f : ImState → ImState) (s : State) : (onIm f s).ps = s.ps := rfl
@[simp] theorem onIm_fo (f : ImState → ImState) (s : State) : (onIm f s).fo = s.fo := rfl
@[simp] theorem onIm_mi (f : ImState → ImState) (s : State) : (onIm f s).mi = s.mi := rfl
@[simp] theorem onIm_kv (f : ImState → ImState) (s : State) : (onIm f s).kv = s.kv := rfl
@[simp] theorem onIm_im (f : ImState → ImState) (s : State) : (onIm f s).im = f s.im := rfl
@[simp] theorem onIm_pa (f : ImState → ImState) (s : State) : (onIm f s).pa = s.pa := rfl
@[simp] theorem onIm_pmb (f : ImState → ImState) (s : State) : (onIm f s).pmb = s.pmb := rfl
@[simp] theorem onIm_grd (f : ImState → ImState) (s : State) : (onIm f s).grd = s.grd := rfl
@[simp] theorem onIm_log (f : ImState → ImState) (s : State) : (onIm f s).log = s.log := rfl
@[simp] theorem onIm_ev (f : ImState → ImState) (s : State) : (onIm f s).ev = s.ev := rfl
@[simp] theorem onIm_glob (f : ImState → ImState) (s : State) : (onIm f s).glob = s.glob := rfl
@[simp] theorem onIm_jtag (f : ImState → ImState) (s : State) : (onIm f s).jtag = s.jtag := rfl
@[simp] theorem onIm_pending (f : ImState → ImState) (s : State) : (onIm f s).pending = s.pending := rfl
@[simp] theorem onIm_free (f : ImState → ImState) (s : State) : (onIm f s).free = s.free := rfl
@[simp] theorem onIm_out (f : ImState → ImState) (s : State) : (onIm f s).out = s.out := rfl

@[simp] theorem onPa_tb (f : PaState → PaState) (s : State) : (onPa f s).tb = s.tb := rfl
@[simp] theorem onPa_su (f : PaState → PaState) (s : State) : (onPa f s).su = s.su := rfl
@[simp] theorem onPa_px (f : PaState → PaState) (s : State) : (onPa f s).px = s.px := rfl
@[simp] theorem onPa_sw (f : PaState → PaState) (s : State) : (onPa f s).sw = s.sw := rfl
@[simp] theorem onPa_qm (f : PaState → PaState) (s : State) : (onPa f s).qm = s.qm := rfl
@[simp] theorem onPa_se (f : PaState → PaState) (s : State) : (onPa f s).se = s.se := rfl
@[simp] theorem onPa_fr (f : PaState → PaState) (s : State) : (onPa f s).fr = s.fr := rfl
@[simp] theorem onPa_pe (f : PaState → PaState) (s : State) : (onPa f s).pe = s.pe := rfl
@[simp] theorem onPa_ar (f : PaState → PaState) (s : State) : (onPa f s).ar = s.ar := rfl
@[simp] theorem onPa_fb (f : PaState → PaState) (s : State) : (onPa f s).fb = s.fb := rfl
@[simp] theorem onPa_ps (f : PaState → PaState) (s : State) : (onPa f s).ps = s.ps := rfl
@[simp] theorem onPa_fo (f : PaState → PaState) (s : State) : (onPa f s).fo = s.fo := rfl
@[simp] theorem onPa_mi (f : PaState → PaState) (s : State) : (onPa f s).mi = s.mi := rfl
@[simp] theorem onPa_kv (f : PaState → PaState) (s : State) : (onPa f s).kv = s.kv := rfl
@[simp] theorem onPa_im (f : PaState → PaState) (s : State) : (onPa f s).im = s.im := rfl
@[simp] theorem onPa_pa (f : PaState → PaState) (s : State) : (onPa f s).pa = f s.pa := rfl
@[simp] theorem onPa_pmb (f : PaState → PaState) (s : State) : (onPa f s).pmb = s.pmb := rfl
@[simp] theorem onPa_grd (f : PaState → PaState) (s : State) : (onPa f s).grd = s.grd := rfl
@[simp] theorem onPa_log (f : PaState → PaState) (s : State) : (onPa f s).log = s.log := rfl
@[simp] theorem onPa_ev (f : PaState → PaState) (s : State) : (onPa f s).ev = s.ev := rfl
@[simp] theorem onPa_glob (f : PaState → PaState) (s : State) : (onPa f s).glob = s.glob := rfl
@[simp] theorem onPa_jtag (f : PaState → PaState) (s : State) : (onPa f s).jtag = s.jtag := rfl
@[simp] theorem onPa_pending (f : PaState → PaState) (s : State) : (onPa f s).pending = s.pending := rfl
@[simp] theorem onPa_free (f : PaState → PaState) (s : State) : (onPa f s).free = s.free := rfl
@[simp] theorem onPa_out (f : PaState → PaState) (s : State) : (onPa f s).out = s.out := rfl

@[simp] theorem onPmb_tb (f : Pmbus → Pmbus) (s : State) : (onPmb f s).tb = s.tb := rfl
@[simp] theorem onPmb_su (f : Pmbus → Pmbus) (s : State) : (onPmb f s).su = s.su := rfl
@[simp] theorem onPmb_px (f : Pmbus → Pmbus) (s : State) : (onPmb f s).px = s.px := rfl
@[simp] theorem onPmb_sw (f : Pmbus → Pmbus) (s : State) : (onPmb f s).sw = s.sw := rfl
@[simp] theorem onPmb_qm (f : Pmbus → Pmbus) (s : State) : (onPmb f s).qm = s.qm := rfl
@[simp] theorem onPmb_se (f : Pmbus → Pmbus) (s : State) : (onPmb f s).se = s.se := rfl
@[simp] theorem onPmb_fr (f : Pmbus → Pmbus) (s : State) : (onPmb f s).fr = s.fr := rfl
@[simp] theorem onPmb_pe (f : Pmbus → Pmbus) (s : State) : (onPmb f s).pe = s.pe := rfl
@[simp] theorem onPmb_ar (f : Pmbus → Pmbus) (s : State) : (onPmb f s).ar = s.ar := rfl
@[simp] theorem onPmb_fb (f : Pmbus → Pmbus) (s : State) : (onPmb f s).fb = s.fb := rfl
@[simp] theorem onPmb_ps (f : Pmbus → Pmbus) (s : State) : (onPmb f s).ps = s.ps := rfl
@[simp] theorem onPmb_fo (f : Pmbus → Pmbus) (s : State) : (onPmb f s).fo = s.fo := rfl
@[simp] theorem onPmb_mi (f : Pmbus → Pmbus) (s : State) : (onPmb f s).mi = s.mi := rfl
@[simp] theorem onPmb_kv (f : Pmbus → Pmbus) (s : State) : (onPmb f s).kv = s.kv := rfl
@[simp] theorem onPmb_im (f : Pmbus → Pmbus) (s : State) : (onPmb f s).im = s.im := rfl
@[simp] theorem onPmb_pa (f : Pmbus → Pmbus) (s : State) : (onPmb f s).pa = s.pa := rfl
@[simp] theorem onPmb_pmb (f : Pmbus → Pmbus) (s : State) : (onPmb f s).pmb = f s.pmb := rfl
@[simp] theorem onPmb_grd (f : Pmbus → Pmbus) (s : State) : (onPmb f s).grd = s.grd := rfl
@[simp] theorem onPmb_log (f : Pmbus → Pmbus) (s : State) : (onPmb f s).log = s.log := rfl
@[simp] theorem onPmb_ev (f : Pmbus → Pmbus) (s : State) : (onPmb f s).ev = s.ev := rfl
@[simp] theorem onPmb_glob (f : Pmbus → Pmbus) (s : State) : (onPmb f s).glob = s.glob := rfl
@[simp] theorem onPmb_jtag (f : Pmbus → Pmbus) (s : State) : (onPmb f s).jtag = s.jtag := rfl
@[simp] theorem onPmb_pending (f : Pmbus → Pmbus) (s : State) : (onPmb f s).pending = s.pending := rfl
@[simp] theorem onPmb_free (f : Pmbus → Pmbus) (s : State) : (onPmb f s).free = s.free := rfl
@[simp] theorem onPmb_out (f : Pmbus → Pmbus) (s : State) : (onPmb f s).out = s.out := rfl

@[simp] theorem onGrd_tb (f : GuardState → GuardState) (s : State) : (onGrd f s).tb = s.tb := rfl
@[simp] theorem onGrd_su (f : GuardState → GuardState) (s : State) : (onGrd f s).su = s.su := rfl
@[simp] theorem onGrd_px (f : GuardState → GuardState) (s : State) : (onGrd f s).px = s.px := rfl
@[simp] theorem onGrd_sw (f : GuardState → GuardState) (s : State) : (onGrd f s).sw = s.sw := rfl
@[simp] theorem onGrd_qm (f : GuardState → GuardState) (s : State) : (onGrd f s).qm = s.qm := rfl
@[simp] theorem onGrd_se (f : GuardState → GuardState) (s : State) : (onGrd f s).se = s.se := rfl
@[simp] theorem onGrd_fr (f : GuardState → GuardState) (s : State) : (onGrd f s).fr = s.fr := rfl
@[simp] theorem onGrd_pe (f : GuardState → GuardState) (s : State) : (onGrd f s).pe = s.pe := rfl
@[simp] theorem onGrd_ar (f : GuardState → GuardState) (s : State) : (onGrd f s).ar = s.ar := rfl
@[simp] theorem onGrd_fb (f : GuardState → GuardState) (s : State) : (onGrd f s).fb = s.fb := rfl
@[simp] theorem onGrd_ps (f : GuardState → GuardState) (s : State) : (onGrd f s).ps = s.ps := rfl
@[simp] theorem onGrd_fo (f : GuardState → GuardState) (s : State) : (onGrd f s).fo = s.fo := rfl
@[simp] theorem onGrd_mi (f : GuardState → GuardState) (s : State) : (onGrd f s).mi = s.mi := rfl
@[simp] theorem onGrd_kv (f : GuardState → GuardState) (s : State) : (onGrd f s).kv = s.kv := rfl
@[simp] theorem onGrd_im (f : GuardState → GuardState) (s : State) : (onGrd f s).im = s.im := rfl
@[simp] theorem onGrd_pa (f : GuardState → GuardState) (s : State) : (onGrd f s).pa = s.pa := rfl
@[simp] theorem onGrd_pmb (f : GuardState → GuardState) (s : State) : (onGrd f s).pmb = s.pmb := rfl
@[simp] theorem onGrd_grd (f : GuardState → GuardState) (s : State) : (onGrd f s).grd = f s.grd := rfl
@[simp] theorem onGrd_log (f : GuardState → GuardState) (s : State) : (onGrd f s).log = s.log := rfl
@[simp] theorem onGrd_ev (f : GuardState → GuardState) (s : State) : (onGrd f s).ev = s.ev := rfl
@[simp] theorem onGrd_glob (f : GuardState → GuardState) (s : State) : (onGrd f s).glob = s.glob := rfl
@[simp] theorem onGrd_jtag (f : GuardState → GuardState) (s : State) : (onGrd f s).jtag = s.jtag := rfl
@[simp] theorem onGrd_pending (f : GuardState → GuardState) (s : State) : (onGrd f s).pending = s.pending := rfl
@[simp] theorem onGrd_free (f : GuardState → GuardState) (s : State) : (onGrd f s).free = s.free := rfl
@[simp] theorem onGrd_out (f : GuardState → GuardState) (s : State) : (onGrd f s).out = s.out := rfl

@[simp] theorem onLog_tb (f : LogState → LogState) (s : State) : (onLog f s).tb = s.tb := rfl
@[simp] theorem onLog_su (f : LogState → LogState) (s : State) : (onLog f s).su = s.su := rfl
@[simp] theorem onLog_px (f : LogState → LogState) (s : State) : (onLog f s).px = s.px := rfl
@[simp] theorem onLog_sw (f : LogState → LogState) (s : State) : (onLog f s).sw = s.sw := rfl
@[simp] theorem onLog_qm (f : LogState → LogState) (s : State) : (onLog f s).qm = s.qm := rfl
@[simp] theorem onLog_se (f : LogState → LogState) (s : State) : (onLog f s).se = s.se := rfl
@[simp] theorem onLog_fr (f : LogState → LogState) (s : State) : (onLog f s).fr = s.fr := rfl
@[simp] theorem onLog_pe (f : LogState → LogState) (s : State) : (onLog f s).pe = s.pe := rfl
@[simp] theorem onLog_ar (f : LogState → LogState) (s : State) : (onLog f s).ar = s.ar := rfl
@[simp] theorem onLog_fb (f : LogState → LogState) (s : State) : (onLog f s).fb = s.fb := rfl
@[simp] theorem onLog_ps (f : LogState → LogState) (s : State) : (onLog f s).ps = s.ps := rfl
@[simp] theorem onLog_fo (f : LogState → LogState) (s : State) : (onLog f s).fo = s.fo := rfl
@[simp] theorem onLog_mi (f : LogState → LogState) (s : State) : (onLog f s).mi = s.mi := rfl
@[simp] theorem onLog_kv (f : LogState → LogState) (s : State) : (onLog f s).kv = s.kv := rfl
@[simp] theorem onLog_im (f : LogState → LogState) (s : State) : (onLog f s).im = s.im := rfl
@[simp] theorem onLog_pa (f : LogState → LogState) (s : State) : (onLog f s).pa = s.pa := rfl
@[simp] theorem onLog_pmb (f : LogState → LogState) (s : State) : (onLog f s).pmb = s.pmb := rfl
@[simp] theorem onLog_grd (f : LogState → LogState) (s : State) : (onLog f s).grd = s.grd := rfl
@[simp] theorem onLog_log (f : LogState → LogState) (s : State) : (onLog f s).log = f s.log := rfl
@[simp] theorem onLog_ev (f : LogState → LogState) (s : State) : (onLog f s).ev = s.ev := rfl
@[simp] theorem onLog_glob (f : LogState → LogState) (s : State) : (onLog f s).glob = s.glob := rfl
@[simp] theorem onLog_jtag (f : LogState → LogState) (s : State) : (onLog f s).jtag = s.jtag := rfl
@[simp] theorem onLog_pending (f : LogState → LogState) (s : State) : (onLog f s).pending = s.pending := rfl
@[simp] theorem onLog_free (f : LogState → LogState) (s : State) : (onLog f s).free = s.free := rfl
@[simp] theorem onLog_out (f : LogState → LogState) (s : State) : (onLog f s).out = s.out := rfl

@[simp] theorem onEv_tb (f : EvState → EvState) (s : State) : (onEv f s).tb = s.tb := rfl
@[simp] theorem onEv_su (f : EvState → EvState) (s : State) : (onEv f s).su = s.su := rfl
@[simp] theorem onEv_px (f : EvState → EvState) (s : State) : (onEv f s).px = s.px := rfl
@[simp] theorem onEv_sw (f : EvState → EvState) (s : State) : (onEv f s).sw = s.sw := rfl
@[simp] theorem onEv_qm (f : EvState → EvState) (s : State) : (onEv f s).qm = s.qm := rfl
@[simp] theorem onEv_se (f : EvState → EvState) (s : State) : (onEv f s).se = s.se := rfl
@[simp] theorem onEv_fr (f : EvState → EvState) (s : State) : (onEv f s).fr = s.fr := rfl
@[simp] theorem onEv_pe (f : EvState → EvState) (s : State) : (onEv f s).pe = s.pe := rfl
@[simp] theorem onEv_ar (f : EvState → EvState) (s : State) : (onEv f s).ar = s.ar := rfl
@[simp] theorem onEv_fb (f : EvState → EvState) (s : State) : (onEv f s).fb = s.fb := rfl
@[simp] theorem onEv_ps (f : EvState → EvState) (s : State) : (onEv f s).ps = s.ps := rfl
@[simp] theorem onEv_fo (f : EvState → EvState) (s : State) : (onEv f s).fo = s.fo := rfl
@[simp] theorem onEv_mi (f : EvState → EvState) (s : State) : (onEv f s).mi = s.mi := rfl
@[simp] theorem onEv_kv (f : EvState → EvState) (s : State) : (onEv f s).kv = s.kv := rfl
@[simp] theorem onEv_im (f : EvState → EvState) (s : State) : (onEv f s).im = s.im := rfl
@[simp] theorem onEv_pa (f : EvState → EvState) (s : State) : (onEv f s).pa = s.pa := rfl
@[simp] theorem onEv_pmb (f : EvState → EvState) (s : State) : (onEv f s).pmb = s.pmb := rfl
@[simp] theorem onEv_grd (f : EvState → EvState) (s : State) : (onEv f s).grd = s.grd := rfl
@[simp] theorem onEv_log (f : EvState → EvState) (s : State) : (onEv f s).log = s.log := rfl
@[simp] theorem onEv_ev (f : EvState → EvState) (s : State) : (onEv f s).ev = f s.ev := rfl
@[simp] theorem onEv_glob (f : EvState → EvState) (s : State) : (onEv f s).glob = s.glob := rfl
@[simp] theorem onEv_jtag (f : EvState → EvState) (s : State) : (onEv f s).jtag = s.jtag := rfl
@[simp] theorem onEv_pending (f : EvState → EvState) (s : State) : (onEv f s).pending = s.pending := rfl
@[simp] theorem onEv_free (f : EvState → EvState) (s : State) : (onEv f s).free = s.free := rfl
@[simp] theorem onEv_out (f : EvState → EvState) (s : State) : (onEv f s).out = s.out := rfl

@[simp] theorem onGlob_tb (f : Glob → Glob) (s : State) : (onGlob f s).tb = s.tb := rfl
@[simp] theorem onGlob_su (f : Glob → Glob) (s : State) : (onGlob f s).su = s.su := rfl
@[simp] theorem onGlob_px (f : Glob → Glob) (s : State) : (onGlob f s).px = s.px := rfl
@[simp] theorem onGlob_sw (f : Glob → Glob) (s : State) : (onGlob f s).sw = s.sw := rfl
@[simp] theorem onGlob_qm (f : Glob → Glob) (s : State) : (onGlob f s).qm = s.qm := rfl
@[simp] theorem onGlob_se (f : Glob → Glob) (s : State) : (onGlob f s).se = s.se := rfl
@[simp] theorem onGlob_fr (f : Glob → Glob) (s : State) : (onGlob f s).fr = s.fr := rfl
@[simp] theorem onGlob_pe (f : Glob → Glob) (s : State) : (onGlob f s).pe = s.pe := rfl
@[simp] theorem onGlob_ar (f : Glob → Glob) (s : State) : (onGlob f s).ar = s.ar := rfl
@[simp] theorem onGlob_fb (f : Glob → Glob) (s : State) : (onGlob f s).fb = s.fb := rfl
@[simp] theorem onGlob_ps (f : Glob → Glob) (s : State) : (onGlob f s).ps = s.ps := rfl
@[simp] theorem onGlob_fo (f : Glob → Glob) (s : State) : (onGlob f s).fo = s.fo := rfl
@[simp] theorem onGlob_mi (f : Glob → Glob) (s : State) : (onGlob f s).mi = s.mi := rfl
@[simp] theorem onGlob_kv (f : Glob → Glob) (s : State) : (onGlob f s).kv = s.kv := rfl
@[simp] theorem onGlob_im (f : Glob → Glob) (s : State) : (onGlob f s).im = s.im := rfl
@[simp] theorem onGlob_pa (f : Glob → Glob) (s : State) : (onGlob f s).pa = s.pa := rfl
@[simp] theorem onGlob_pmb (f : Glob → Glob) (s : State) : (onGlob f s).pmb = s.pmb := rfl
@[simp] theorem onGlob_grd (f : Glob → Glob) (s : State) : (onGlob f s).grd = s.grd := rfl
@[simp] theorem onGlob_log (f : Glob → Glob) (s : State) : (onGlob f s).log = s.log := rfl
@[simp] theorem onGlob_ev (f : Glob → Glob) (s : State) : (onGlob f s).ev = s.ev := rfl
@[simp] theorem onGlob_glob (f : Glob → Glob) (s : State) : (onGlob f s).glob = f s.glob := rfl
@[simp] theorem onGlob_jtag (f : Glob → Glob) (s : State) : (onGlob f s).jtag = s.jtag := rfl
@[simp] theorem onGlob_pending (f : Glob → Glob) (s : State) : (onGlob f s).pending = s.pending := rfl
@[simp] theorem onGlob_free (f : Glob → Glob) (s : State) : (onGlob f s).free = s.free := rfl
@[simp] theorem onGlob_out (f : Glob → Glob) (s : State) : (onGlob f s).out = s.out := rfl

/-- What is emitted joins the front of the output list, and nothing else changes. -/
@[simp] theorem emit_tb (o : Out) (s : State) : (emit o s).tb = s.tb := rfl
@[simp] theorem emit_su (o : Out) (s : State) : (emit o s).su = s.su := rfl
@[simp] theorem emit_px (o : Out) (s : State) : (emit o s).px = s.px := rfl
@[simp] theorem emit_sw (o : Out) (s : State) : (emit o s).sw = s.sw := rfl
@[simp] theorem emit_qm (o : Out) (s : State) : (emit o s).qm = s.qm := rfl
@[simp] theorem emit_se (o : Out) (s : State) : (emit o s).se = s.se := rfl
@[simp] theorem emit_fr (o : Out) (s : State) : (emit o s).fr = s.fr := rfl
@[simp] theorem emit_pe (o : Out) (s : State) : (emit o s).pe = s.pe := rfl
@[simp] theorem emit_ar (o : Out) (s : State) : (emit o s).ar = s.ar := rfl
@[simp] theorem emit_fb (o : Out) (s : State) : (emit o s).fb = s.fb := rfl
@[simp] theorem emit_ps (o : Out) (s : State) : (emit o s).ps = s.ps := rfl
@[simp] theorem emit_fo (o : Out) (s : State) : (emit o s).fo = s.fo := rfl
@[simp] theorem emit_mi (o : Out) (s : State) : (emit o s).mi = s.mi := rfl
@[simp] theorem emit_kv (o : Out) (s : State) : (emit o s).kv = s.kv := rfl
@[simp] theorem emit_im (o : Out) (s : State) : (emit o s).im = s.im := rfl
@[simp] theorem emit_pa (o : Out) (s : State) : (emit o s).pa = s.pa := rfl
@[simp] theorem emit_pmb (o : Out) (s : State) : (emit o s).pmb = s.pmb := rfl
@[simp] theorem emit_grd (o : Out) (s : State) : (emit o s).grd = s.grd := rfl
@[simp] theorem emit_log (o : Out) (s : State) : (emit o s).log = s.log := rfl
@[simp] theorem emit_ev (o : Out) (s : State) : (emit o s).ev = s.ev := rfl
@[simp] theorem emit_glob (o : Out) (s : State) : (emit o s).glob = s.glob := rfl
@[simp] theorem emit_jtag (o : Out) (s : State) : (emit o s).jtag = s.jtag := rfl
@[simp] theorem emit_pending (o : Out) (s : State) : (emit o s).pending = s.pending := rfl
@[simp] theorem emit_free (o : Out) (s : State) : (emit o s).free = s.free := rfl
@[simp] theorem emit_out (o : Out) (s : State) : (emit o s).out = o :: s.out := rfl

@[simp] theorem draw_tb (s : State) : (draw s).2.tb = s.tb := rfl
@[simp] theorem draw_su (s : State) : (draw s).2.su = s.su := rfl
@[simp] theorem draw_px (s : State) : (draw s).2.px = s.px := rfl
@[simp] theorem draw_sw (s : State) : (draw s).2.sw = s.sw := rfl
@[simp] theorem draw_qm (s : State) : (draw s).2.qm = s.qm := rfl
@[simp] theorem draw_se (s : State) : (draw s).2.se = s.se := rfl
@[simp] theorem draw_fr (s : State) : (draw s).2.fr = s.fr := rfl
@[simp] theorem draw_pe (s : State) : (draw s).2.pe = s.pe := rfl
@[simp] theorem draw_ar (s : State) : (draw s).2.ar = s.ar := rfl
@[simp] theorem draw_fb (s : State) : (draw s).2.fb = s.fb := rfl
@[simp] theorem draw_ps (s : State) : (draw s).2.ps = s.ps := rfl
@[simp] theorem draw_fo (s : State) : (draw s).2.fo = s.fo := rfl
@[simp] theorem draw_mi (s : State) : (draw s).2.mi = s.mi := rfl
@[simp] theorem draw_kv (s : State) : (draw s).2.kv = s.kv := rfl
@[simp] theorem draw_im (s : State) : (draw s).2.im = s.im := rfl
@[simp] theorem draw_pa (s : State) : (draw s).2.pa = s.pa := rfl
@[simp] theorem draw_pmb (s : State) : (draw s).2.pmb = s.pmb := rfl
@[simp] theorem draw_grd (s : State) : (draw s).2.grd = s.grd := rfl
@[simp] theorem draw_log (s : State) : (draw s).2.log = s.log := rfl
@[simp] theorem draw_ev (s : State) : (draw s).2.ev = s.ev := rfl
@[simp] theorem draw_glob (s : State) : (draw s).2.glob = s.glob := rfl
@[simp] theorem draw_jtag (s : State) : (draw s).2.jtag = s.jtag := rfl
@[simp] theorem draw_pending (s : State) : (draw s).2.pending = s.pending := rfl
@[simp] theorem draw_free (s : State) : (draw s).2.free = s.free + 1 := rfl
@[simp] theorem draw_out (s : State) : (draw s).2.out = s.out := rfl

end Sys2Proof.Machine
end

