-- ==== Sys2Proof/Laws/Shared.lean ====
section
/-! SUPPORT. One lemma for each operation that many commands share: all that it can change. The event, log and reply operations touch only their
own registers; every other part of the state reads as before. -/

namespace Sys2Proof.Machine

/-! ## Vectors read and changed in range -/

section
variable {α : Type} {n : Nat}

@[simp] theorem vget_fin (v : Vector α n) (i : Fin n) (d : α) : vget v i.val d = v[i.val] := by simp [vget]

theorem vget_lt (v : Vector α n) (i : Nat) (d : α) (h : i < n) : vget v i d = v[i] := by simp [vget, h]

theorem vmod_lt (v : Vector α n) (i : Nat) (f : α → α) (h : i < n) : vmod v i f = v.set i (f v[i]) := by
  apply Vector.ext; intro k hk; simp [vmod, h, Vector.getElem_setIfInBounds, Vector.getElem_set]

@[simp] theorem vmod_fin (v : Vector α n) (i : Fin n) (f : α → α) : vmod v i.val f = v.set i.val (f v[i.val]) := vmod_lt v i f i.2

theorem vget_vmod (v : Vector α n) (i : Nat) (f : α → α) (d : α) (h : i < n) : vget (vmod v i f) i d = f (vget v i d) := by
  simp [vget, vmod_lt, h]

theorem vget_vmod_ne (v : Vector α n) (i j : Nat) (f : α → α) (d : α) (h : i ≠ j) : vget (vmod v i f) j d = vget v j d := by
  by_cases hi : i < n
  · by_cases hj : j < n
    · simp [vget, vmod_lt, hi, hj, h]
    · simp [vget, hj]
  · simp [vmod, hi]

end

/-! ## Tables -/

section
variable {κ ν : Type} [DecidableEq κ]

@[simp] theorem get?_put (t : Tab κ ν) (k : κ) (v : ν) : (t.put k v).get? k = some v := by simp [Tab.put, Tab.get?]

theorem get?_put_ne (t : Tab κ ν) (k j : κ) (v : ν) (h : k ≠ j) : (t.put k v).get? j = t.get? j := by
  simp only [Tab.put, Tab.get?, Tab.del, List.find?_cons, h, decide_false]
  congr 1
  induction t with
  | nil => rfl
  | cons e t ih =>
    by_cases he : e.1 = k
    · simp [he, h, ih]
    · simp only [List.filter_cons, he, decide_false, Bool.not_false, if_true, List.find?_cons, ih]

@[simp] theorem getD_put (t : Tab κ ν) (k : κ) (v d : ν) : (t.put k v).getD k d = v := by simp [Tab.getD]

end

/-! ## Messages, events and log records -/

/-- A message changes only the vectors that wait and what is sent out. -/
theorem sendMsix_frame (v : Nat) (s : State) : ∃ p o, sendMsix v s = { s with im := { s.im with msixPend := p }, out := o } := by
  unfold sendMsix onIm emit
  split <;> exact ⟨_, _, rfl⟩

/-- What is known of a clock cycle's events is dropped on a new one; every bit, mask, count and limit stays. -/
theorem freshCycle_frame (s : State) :
    ∃ c a l m, freshCycle s = { s with ev := { s.ev with cycle := c, occurred := a, cleared := l, sent := m } } := by
  unfold freshCycle
  split <;> exact ⟨_, _, _, _, rfl⟩

theorem eventMsix_frame (v : Nat) (s : State) :
    ∃ e p o, eventMsix v s = { s with ev := { s.ev with sent := e }, im := { s.im with msixPend := p }, out := o } := by
  unfold eventMsix
  split
  · exact ⟨_, _, _, rfl⟩
  · obtain ⟨p, o, h⟩ := sendMsix_frame v { s with ev := { s.ev with sent := v :: s.ev.sent } }
    exact ⟨_, p, o, h⟩

/-- An event changes only the event registers, the vectors that wait and what is sent out; counts, masks and limits stay. -/
theorem setMgrBit_frame (n : Nat) (s : State) :
    ∃ c a l m e p o, setMgrBit n s = { s with
      ev := { s.ev with cycle := c, occurred := a, cleared := l, sent := m, mevt := e }, im := { s.im with msixPend := p }, out := o } := by
  obtain ⟨c, a, l, m, h⟩ := freshCycle_frame s
  unfold setMgrBit
  simp only [h]
  split
  · obtain ⟨x, p, o, h'⟩ := eventMsix_frame (s.im.route.getD n {}).mvec.toNat
      { s with ev := { s.ev with cycle := c, occurred := (0, n) :: a, cleared := l, sent := m, mevt := setBit128 s.ev.mevt n } }
    exact ⟨_, _, _, x, _, p, o, h'⟩
  · exact ⟨_, _, _, _, _, _, _, rfl⟩

theorem setInstBit_frame (n i : Nat) (s : State) :
    ∃ c a l m e p o, setInstBit n i s = { s with
      ev := { s.ev with cycle := c, occurred := a, cleared := l, sent := m, winEvt := e }, im := { s.im with msixPend := p }, out := o } := by
  obtain ⟨c, a, l, m, h⟩ := freshCycle_frame s
  unfold setInstBit
  simp only [h]
  split
  · exact ⟨_, _, _, _, _, _, _, rfl⟩
  · split
    · obtain ⟨x, p, o, h'⟩ := eventMsix_frame (vectorOf i (s.im.route.getD n {}).ivec.toNat)
        { s with ev := { s.ev with
            cycle := c, occurred := (i, n) :: a, cleared := l, sent := m, winEvt := s.ev.winEvt.put i (setBit128 (s.ev.winEvt.getD i 0) n) } }
      exact ⟨_, _, _, x, _, p, o, h'⟩
    · exact ⟨_, _, _, _, _, _, _, rfl⟩

/-- What an occurrence leaves of the event registers: the masks and the limits; its source is counted once (R582). -/
def evKept (n : Nat) (s : State) (e : EvState) : Prop :=
  e.count = vmod s.ev.count n satInc ∧ e.memask = s.ev.memask ∧ e.winMask = s.ev.winMask

/-- An occurrence is counted once, and its bit goes to one place (R582). -/
theorem routeEvent_frame (n : Nat) (tag : Tag) (s : State) :
    ∃ e p o, routeEvent n tag s = { s with ev := e, im := { s.im with msixPend := p }, out := o } ∧ evKept n s e := by
  unfold routeEvent
  dsimp only
  split
  · exact ⟨_, _, _, rfl, rfl, rfl, rfl⟩
  · split
    · obtain ⟨c, a, l, m, e, p, o, h⟩ := setInstBit_frame n tag { s with ev := { s.ev with count := vmod s.ev.count n satInc } }
      exact ⟨_, p, o, h, rfl, rfl, rfl⟩
    · obtain ⟨c, a, l, m, e, p, o, h⟩ := setMgrBit_frame n { s with ev := { s.ev with count := vmod s.ev.count n satInc } }
      exact ⟨_, p, o, h, rfl, rfl, rfl⟩

/-- A rate limit changes only what it remembers (R625). -/
theorem limited_frame (kind key interval n : Nat) (s : State) :
    ∃ l, (limited kind key interval n s).2 = { s with ev := { s.ev with limits := l } } := by
  unfold limited
  dsimp only
  split <;> exact ⟨_, rfl⟩

/-- An occurrence with its log record changes only the event registers, the records that wait, the vectors that wait and what is sent out. -/
theorem raiseArg_frame (n : Nat) (tag : Tag) (arg : BitVec 32) (s : State) :
    ∃ e p o r, raiseArg n tag arg s =
      { s with ev := e, im := { s.im with msixPend := p }, out := o, log := { s.log with pendingRecs := r } } ∧ evKept n s e := by
  obtain ⟨e, p, o, h, k⟩ := routeEvent_frame n tag s
  unfold raiseArg logRec
  simp only [h]
  split
  · exact ⟨_, _, _, _, rfl, k⟩
  · split
    · exact ⟨_, _, _, _, rfl, k⟩
    · obtain ⟨l, hl⟩ := limited_frame (0x10000 + n) 0 (secTu 1) 1 { s with ev := e, im := { s.im with msixPend := p }, out := o }
      rw [hl]
      split <;> exact ⟨_, _, _, _, rfl, k⟩

@[simp] theorem raiseArg_tb (n : Nat) (g : Tag) (a : BitVec 32) (s : State) : (raiseArg n g a s).tb = s.tb := by
  obtain ⟨_, _, _, _, h, _⟩ := raiseArg_frame n g a s; rw [h]
@[simp] theorem raiseArg_su (n : Nat) (g : Tag) (a : BitVec 32) (s : State) : (raiseArg n g a s).su = s.su := by
  obtain ⟨_, _, _, _, h, _⟩ := raiseArg_frame n g a s; rw [h]
@[simp] theorem raiseArg_px (n : Nat) (g : Tag) (a : BitVec 32) (s : State) : (raiseArg n g a s).px = s.px := by
  obtain ⟨_, _, _, _, h, _⟩ := raiseArg_frame n g a s; rw [h]
@[simp] theorem raiseArg_sw (n : Nat) (g : Tag) (a : BitVec 32) (s : State) : (raiseArg n g a s).sw = s.sw := by
  obtain ⟨_, _, _, _, h, _⟩ := raiseArg_frame n g a s; rw [h]
@[simp] theorem raiseArg_qm (n : Nat) (g : Tag) (a : BitVec 32) (s : State) : (raiseArg n g a s).qm = s.qm := by
  obtain ⟨_, _, _, _, h, _⟩ := raiseArg_frame n g a s; rw [h]
@[simp] theorem raiseArg_se (n : Nat) (g : Tag) (a : BitVec 32) (s : State) : (raiseArg n g a s).se = s.se := by
  obtain ⟨_, _, _, _, h, _⟩ := raiseArg_frame n g a s; rw [h]
@[simp] theorem raiseArg_fr (n : Nat) (g : Tag) (a : BitVec 32) (s : State) : (raiseArg n g a s).fr = s.fr := by
  obtain ⟨_, _, _, _, h, _⟩ := raiseArg_frame n g a s; rw [h]
@[simp] theorem raiseArg_pe (n : Nat) (g : Tag) (a : BitVec 32) (s : State) : (raiseArg n g a s).pe = s.pe := by
  obtain ⟨_, _, _, _, h, _⟩ := raiseArg_frame n g a s; rw [h]
@[simp] theorem raiseArg_ar (n : Nat) (g : Tag) (a : BitVec 32) (s : State) : (raiseArg n g a s).ar = s.ar := by
  obtain ⟨_, _, _, _, h, _⟩ := raiseArg_frame n g a s; rw [h]
@[simp] theorem raiseArg_fb (n : Nat) (g : Tag) (a : BitVec 32) (s : State) : (raiseArg n g a s).fb = s.fb := by
  obtain ⟨_, _, _, _, h, _⟩ := raiseArg_frame n g a s; rw [h]
@[simp] theorem raiseArg_ps (n : Nat) (g : Tag) (a : BitVec 32) (s : State) : (raiseArg n g a s).ps = s.ps := by
  obtain ⟨_, _, _, _, h, _⟩ := raiseArg_frame n g a s; rw [h]
@[simp] theorem raiseArg_fo (n : Nat) (g : Tag) (a : BitVec 32) (s : State) : (raiseArg n g a s).fo = s.fo := by
  obtain ⟨_, _, _, _, h, _⟩ := raiseArg_frame n g a s; rw [h]
@[simp] theorem raiseArg_mi (n : Nat) (g : Tag) (a : BitVec 32) (s : State) : (raiseArg n g a s).mi = s.mi := by
  obtain ⟨_, _, _, _, h, _⟩ := raiseArg_frame n g a s; rw [h]
@[simp] theorem raiseArg_kv (n : Nat) (g : Tag) (a : BitVec 32) (s : State) : (raiseArg n g a s).kv = s.kv := by
  obtain ⟨_, _, _, _, h, _⟩ := raiseArg_frame n g a s; rw [h]
@[simp] theorem raiseArg_pa (n : Nat) (g : Tag) (a : BitVec 32) (s : State) : (raiseArg n g a s).pa = s.pa := by
  obtain ⟨_, _, _, _, h, _⟩ := raiseArg_frame n g a s; rw [h]
@[simp] theorem raiseArg_pmb (n : Nat) (g : Tag) (a : BitVec 32) (s : State) : (raiseArg n g a s).pmb = s.pmb := by
  obtain ⟨_, _, _, _, h, _⟩ := raiseArg_frame n g a s; rw [h]
@[simp] theorem raiseArg_jtag (n : Nat) (g : Tag) (a : BitVec 32) (s : State) : (raiseArg n g a s).jtag = s.jtag := by
  obtain ⟨_, _, _, _, h, _⟩ := raiseArg_frame n g a s; rw [h]
@[simp] theorem raiseArg_grd (n : Nat) (g : Tag) (a : BitVec 32) (s : State) : (raiseArg n g a s).grd = s.grd := by
  obtain ⟨_, _, _, _, h, _⟩ := raiseArg_frame n g a s; rw [h]
@[simp] theorem raiseArg_glob (n : Nat) (g : Tag) (a : BitVec 32) (s : State) : (raiseArg n g a s).glob = s.glob := by
  obtain ⟨_, _, _, _, h, _⟩ := raiseArg_frame n g a s; rw [h]
@[simp] theorem raiseArg_pending (n : Nat) (g : Tag) (a : BitVec 32) (s : State) : (raiseArg n g a s).pending = s.pending := by
  obtain ⟨_, _, _, _, h, _⟩ := raiseArg_frame n g a s; rw [h]
@[simp] theorem raiseArg_free (n : Nat) (g : Tag) (a : BitVec 32) (s : State) : (raiseArg n g a s).free = s.free := by
  obtain ⟨_, _, _, _, h, _⟩ := raiseArg_frame n g a s; rw [h]
@[simp] theorem raiseArg_im_ready (n : Nat) (g : Tag) (a : BitVec 32) (s : State) : (raiseArg n g a s).im.ready = s.im.ready := by
  obtain ⟨_, _, _, _, h, _⟩ := raiseArg_frame n g a s; rw [h]
@[simp] theorem raiseArg_im_linkUp (n : Nat) (g : Tag) (a : BitVec 32) (s : State) : (raiseArg n g a s).im.linkUp = s.im.linkUp := by
  obtain ⟨_, _, _, _, h, _⟩ := raiseArg_frame n g a s; rw [h]
@[simp] theorem raiseArg_im_linkX8 (n : Nat) (g : Tag) (a : BitVec 32) (s : State) : (raiseArg n g a s).im.linkX8 = s.im.linkX8 := by
  obtain ⟨_, _, _, _, h, _⟩ := raiseArg_frame n g a s; rw [h]
@[simp] theorem raiseArg_im_resetReq (n : Nat) (g : Tag) (a : BitVec 32) (s : State) : (raiseArg n g a s).im.resetReq = s.im.resetReq := by
  obtain ⟨_, _, _, _, h, _⟩ := raiseArg_frame n g a s; rw [h]
@[simp] theorem raiseArg_im_aperture (n : Nat) (g : Tag) (a : BitVec 32) (s : State) : (raiseArg n g a s).im.aperture = s.im.aperture := by
  obtain ⟨_, _, _, _, h, _⟩ := raiseArg_frame n g a s; rw [h]
@[simp] theorem raiseArg_im_epochDisc (n : Nat) (g : Tag) (a : BitVec 32) (s : State) : (raiseArg n g a s).im.epochDisc = s.im.epochDisc := by
  obtain ⟨_, _, _, _, h, _⟩ := raiseArg_frame n g a s; rw [h]
@[simp] theorem raiseArg_im_flr (n : Nat) (g : Tag) (a : BitVec 32) (s : State) : (raiseArg n g a s).im.flr = s.im.flr := by
  obtain ⟨_, _, _, _, h, _⟩ := raiseArg_frame n g a s; rw [h]
@[simp] theorem raiseArg_im_inst (n : Nat) (g : Tag) (a : BitVec 32) (s : State) : (raiseArg n g a s).im.inst = s.im.inst := by
  obtain ⟨_, _, _, _, h, _⟩ := raiseArg_frame n g a s; rw [h]
@[simp] theorem raiseArg_im_route (n : Nat) (g : Tag) (a : BitVec 32) (s : State) : (raiseArg n g a s).im.route = s.im.route := by
  obtain ⟨_, _, _, _, h, _⟩ := raiseArg_frame n g a s; rw [h]
@[simp] theorem raiseArg_im_resets (n : Nat) (g : Tag) (a : BitVec 32) (s : State) : (raiseArg n g a s).im.resets = s.im.resets := by
  obtain ⟨_, _, _, _, h, _⟩ := raiseArg_frame n g a s; rw [h]
@[simp] theorem raiseArg_im_latches (n : Nat) (g : Tag) (a : BitVec 32) (s : State) : (raiseArg n g a s).im.latches = s.im.latches := by
  obtain ⟨_, _, _, _, h, _⟩ := raiseArg_frame n g a s; rw [h]
@[simp] theorem raiseArg_im_msix (n : Nat) (g : Tag) (a : BitVec 32) (s : State) : (raiseArg n g a s).im.msix = s.im.msix := by
  obtain ⟨_, _, _, _, h, _⟩ := raiseArg_frame n g a s; rw [h]
@[simp] theorem raiseArg_log_recs (n : Nat) (g : Tag) (a : BitVec 32) (s : State) : (raiseArg n g a s).log.recs = s.log.recs := by
  obtain ⟨_, _, _, _, h, _⟩ := raiseArg_frame n g a s; rw [h]
@[simp] theorem raiseArg_log_first (n : Nat) (g : Tag) (a : BitVec 32) (s : State) : (raiseArg n g a s).log.first = s.log.first := by
  obtain ⟨_, _, _, _, h, _⟩ := raiseArg_frame n g a s; rw [h]
@[simp] theorem raiseArg_log_lost (n : Nat) (g : Tag) (a : BitVec 32) (s : State) : (raiseArg n g a s).log.lost = s.log.lost := by
  obtain ⟨_, _, _, _, h, _⟩ := raiseArg_frame n g a s; rw [h]
@[simp] theorem raiseArg_log_wbase (n : Nat) (g : Tag) (a : BitVec 32) (s : State) : (raiseArg n g a s).log.wbase = s.log.wbase := by
  obtain ⟨_, _, _, _, h, _⟩ := raiseArg_frame n g a s; rw [h]
@[simp] theorem raiseArg_log_warn (n : Nat) (g : Tag) (a : BitVec 32) (s : State) : (raiseArg n g a s).log.warn = s.log.warn := by
  obtain ⟨_, _, _, _, h, _⟩ := raiseArg_frame n g a s; rw [h]
@[simp] theorem raiseArg_log_full (n : Nat) (g : Tag) (a : BitVec 32) (s : State) : (raiseArg n g a s).log.full = s.log.full := by
  obtain ⟨_, _, _, _, h, _⟩ := raiseArg_frame n g a s; rw [h]
@[simp] theorem raiseArg_log_clearRefused (n : Nat) (g : Tag) (a : BitVec 32) (s : State) : (raiseArg n g a s).log.clearRefused = s.log.clearRefused := by
  obtain ⟨_, _, _, _, h, _⟩ := raiseArg_frame n g a s; rw [h]
@[simp] theorem raiseArg_log_clearing (n : Nat) (g : Tag) (a : BitVec 32) (s : State) : (raiseArg n g a s).log.clearing = s.log.clearing := by
  obtain ⟨_, _, _, _, h, _⟩ := raiseArg_frame n g a s; rw [h]
@[simp] theorem raiseArg_log_warnRaised (n : Nat) (g : Tag) (a : BitVec 32) (s : State) : (raiseArg n g a s).log.warnRaised = s.log.warnRaised := by
  obtain ⟨_, _, _, _, h, _⟩ := raiseArg_frame n g a s; rw [h]
@[simp] theorem raiseArg_log_fullRaised (n : Nat) (g : Tag) (a : BitVec 32) (s : State) : (raiseArg n g a s).log.fullRaised = s.log.fullRaised := by
  obtain ⟨_, _, _, _, h, _⟩ := raiseArg_frame n g a s; rw [h]
@[simp] theorem raiseArg_ev_count (n : Nat) (g : Tag) (a : BitVec 32) (s : State) : (raiseArg n g a s).ev.count = vmod s.ev.count n satInc := by
  obtain ⟨_, _, _, _, h, k⟩ := raiseArg_frame n g a s; rw [h]; exact k.1
@[simp] theorem raiseArg_ev_memask (n : Nat) (g : Tag) (a : BitVec 32) (s : State) : (raiseArg n g a s).ev.memask = s.ev.memask := by
  obtain ⟨_, _, _, _, h, k⟩ := raiseArg_frame n g a s; rw [h]; exact k.2.1
@[simp] theorem raiseArg_ev_winMask (n : Nat) (g : Tag) (a : BitVec 32) (s : State) : (raiseArg n g a s).ev.winMask = s.ev.winMask := by
  obtain ⟨_, _, _, _, h, k⟩ := raiseArg_frame n g a s; rw [h]; exact k.2.2
@[simp] theorem raise_tb (n : Nat) (g : Tag) (s : State) : (raise n g s).tb = s.tb := raiseArg_tb n g 0 s
@[simp] theorem raise_su (n : Nat) (g : Tag) (s : State) : (raise n g s).su = s.su := raiseArg_su n g 0 s
@[simp] theorem raise_px (n : Nat) (g : Tag) (s : State) : (raise n g s).px = s.px := raiseArg_px n g 0 s
@[simp] theorem raise_sw (n : Nat) (g : Tag) (s : State) : (raise n g s).sw = s.sw := raiseArg_sw n g 0 s
@[simp] theorem raise_qm (n : Nat) (g : Tag) (s : State) : (raise n g s).qm = s.qm := raiseArg_qm n g 0 s
@[simp] theorem raise_se (n : Nat) (g : Tag) (s : State) : (raise n g s).se = s.se := raiseArg_se n g 0 s
@[simp] theorem raise_fr (n : Nat) (g : Tag) (s : State) : (raise n g s).fr = s.fr := raiseArg_fr n g 0 s
@[simp] theorem raise_pe (n : Nat) (g : Tag) (s : State) : (raise n g s).pe = s.pe := raiseArg_pe n g 0 s
@[simp] theorem raise_ar (n : Nat) (g : Tag) (s : State) : (raise n g s).ar = s.ar := raiseArg_ar n g 0 s
@[simp] theorem raise_fb (n : Nat) (g : Tag) (s : State) : (raise n g s).fb = s.fb := raiseArg_fb n g 0 s
@[simp] theorem raise_ps (n : Nat) (g : Tag) (s : State) : (raise n g s).ps = s.ps := raiseArg_ps n g 0 s
@[simp] theorem raise_fo (n : Nat) (g : Tag) (s : State) : (raise n g s).fo = s.fo := raiseArg_fo n g 0 s
@[simp] theorem raise_mi (n : Nat) (g : Tag) (s : State) : (raise n g s).mi = s.mi := raiseArg_mi n g 0 s
@[simp] theorem raise_kv (n : Nat) (g : Tag) (s : State) : (raise n g s).kv = s.kv := raiseArg_kv n g 0 s
@[simp] theorem raise_pa (n : Nat) (g : Tag) (s : State) : (raise n g s).pa = s.pa := raiseArg_pa n g 0 s
@[simp] theorem raise_pmb (n : Nat) (g : Tag) (s : State) : (raise n g s).pmb = s.pmb := raiseArg_pmb n g 0 s
@[simp] theorem raise_jtag (n : Nat) (g : Tag) (s : State) : (raise n g s).jtag = s.jtag := raiseArg_jtag n g 0 s
@[simp] theorem raise_grd (n : Nat) (g : Tag) (s : State) : (raise n g s).grd = s.grd := raiseArg_grd n g 0 s
@[simp] theorem raise_glob (n : Nat) (g : Tag) (s : State) : (raise n g s).glob = s.glob := raiseArg_glob n g 0 s
@[simp] theorem raise_pending (n : Nat) (g : Tag) (s : State) : (raise n g s).pending = s.pending := raiseArg_pending n g 0 s
@[simp] theorem raise_free (n : Nat) (g : Tag) (s : State) : (raise n g s).free = s.free := raiseArg_free n g 0 s
@[simp] theorem raise_im_ready (n : Nat) (g : Tag) (s : State) : (raise n g s).im.ready = s.im.ready := raiseArg_im_ready n g 0 s
@[simp] theorem raise_im_linkUp (n : Nat) (g : Tag) (s : State) : (raise n g s).im.linkUp = s.im.linkUp := raiseArg_im_linkUp n g 0 s
@[simp] theorem raise_im_linkX8 (n : Nat) (g : Tag) (s : State) : (raise n g s).im.linkX8 = s.im.linkX8 := raiseArg_im_linkX8 n g 0 s
@[simp] theorem raise_im_resetReq (n : Nat) (g : Tag) (s : State) : (raise n g s).im.resetReq = s.im.resetReq := raiseArg_im_resetReq n g 0 s
@[simp] theorem raise_im_aperture (n : Nat) (g : Tag) (s : State) : (raise n g s).im.aperture = s.im.aperture := raiseArg_im_aperture n g 0 s
@[simp] theorem raise_im_epochDisc (n : Nat) (g : Tag) (s : State) : (raise n g s).im.epochDisc = s.im.epochDisc := raiseArg_im_epochDisc n g 0 s
@[simp] theorem raise_im_flr (n : Nat) (g : Tag) (s : State) : (raise n g s).im.flr = s.im.flr := raiseArg_im_flr n g 0 s
@[simp] theorem raise_im_inst (n : Nat) (g : Tag) (s : State) : (raise n g s).im.inst = s.im.inst := raiseArg_im_inst n g 0 s
@[simp] theorem raise_im_route (n : Nat) (g : Tag) (s : State) : (raise n g s).im.route = s.im.route := raiseArg_im_route n g 0 s
@[simp] theorem raise_im_resets (n : Nat) (g : Tag) (s : State) : (raise n g s).im.resets = s.im.resets := raiseArg_im_resets n g 0 s
@[simp] theorem raise_im_latches (n : Nat) (g : Tag) (s : State) : (raise n g s).im.latches = s.im.latches := raiseArg_im_latches n g 0 s
@[simp] theorem raise_im_msix (n : Nat) (g : Tag) (s : State) : (raise n g s).im.msix = s.im.msix := raiseArg_im_msix n g 0 s
@[simp] theorem raise_log_recs (n : Nat) (g : Tag) (s : State) : (raise n g s).log.recs = s.log.recs := raiseArg_log_recs n g 0 s
@[simp] theorem raise_log_first (n : Nat) (g : Tag) (s : State) : (raise n g s).log.first = s.log.first := raiseArg_log_first n g 0 s
@[simp] theorem raise_log_lost (n : Nat) (g : Tag) (s : State) : (raise n g s).log.lost = s.log.lost := raiseArg_log_lost n g 0 s
@[simp] theorem raise_log_wbase (n : Nat) (g : Tag) (s : State) : (raise n g s).log.wbase = s.log.wbase := raiseArg_log_wbase n g 0 s
@[simp] theorem raise_log_warn (n : Nat) (g : Tag) (s : State) : (raise n g s).log.warn = s.log.warn := raiseArg_log_warn n g 0 s
@[simp] theorem raise_log_full (n : Nat) (g : Tag) (s : State) : (raise n g s).log.full = s.log.full := raiseArg_log_full n g 0 s
@[simp] theorem raise_log_clearRefused (n : Nat) (g : Tag) (s : State) : (raise n g s).log.clearRefused = s.log.clearRefused := raiseArg_log_clearRefused n g 0 s
@[simp] theorem raise_log_clearing (n : Nat) (g : Tag) (s : State) : (raise n g s).log.clearing = s.log.clearing := raiseArg_log_clearing n g 0 s
@[simp] theorem raise_log_warnRaised (n : Nat) (g : Tag) (s : State) : (raise n g s).log.warnRaised = s.log.warnRaised := raiseArg_log_warnRaised n g 0 s
@[simp] theorem raise_log_fullRaised (n : Nat) (g : Tag) (s : State) : (raise n g s).log.fullRaised = s.log.fullRaised := raiseArg_log_fullRaised n g 0 s
@[simp] theorem raise_ev_count (n : Nat) (g : Tag) (s : State) : (raise n g s).ev.count = vmod s.ev.count n satInc := raiseArg_ev_count n g 0 s
@[simp] theorem raise_ev_memask (n : Nat) (g : Tag) (s : State) : (raise n g s).ev.memask = s.ev.memask := raiseArg_ev_memask n g 0 s
@[simp] theorem raise_ev_winMask (n : Nat) (g : Tag) (s : State) : (raise n g s).ev.winMask = s.ev.winMask := raiseArg_ev_winMask n g 0 s

@[simp] theorem logRec_tb (t : BitVec 16) (c : BitVec 8) (g : Tag) (l : LT) (a b : BitVec 32) (s : State) : (logRec t c g l a b s).tb = s.tb := rfl
@[simp] theorem logRec_su (t : BitVec 16) (c : BitVec 8) (g : Tag) (l : LT) (a b : BitVec 32) (s : State) : (logRec t c g l a b s).su = s.su := rfl
@[simp] theorem logRec_px (t : BitVec 16) (c : BitVec 8) (g : Tag) (l : LT) (a b : BitVec 32) (s : State) : (logRec t c g l a b s).px = s.px := rfl
@[simp] theorem logRec_sw (t : BitVec 16) (c : BitVec 8) (g : Tag) (l : LT) (a b : BitVec 32) (s : State) : (logRec t c g l a b s).sw = s.sw := rfl
@[simp] theorem logRec_qm (t : BitVec 16) (c : BitVec 8) (g : Tag) (l : LT) (a b : BitVec 32) (s : State) : (logRec t c g l a b s).qm = s.qm := rfl
@[simp] theorem logRec_se (t : BitVec 16) (c : BitVec 8) (g : Tag) (l : LT) (a b : BitVec 32) (s : State) : (logRec t c g l a b s).se = s.se := rfl
@[simp] theorem logRec_fr (t : BitVec 16) (c : BitVec 8) (g : Tag) (l : LT) (a b : BitVec 32) (s : State) : (logRec t c g l a b s).fr = s.fr := rfl
@[simp] theorem logRec_pe (t : BitVec 16) (c : BitVec 8) (g : Tag) (l : LT) (a b : BitVec 32) (s : State) : (logRec t c g l a b s).pe = s.pe := rfl
@[simp] theorem logRec_ar (t : BitVec 16) (c : BitVec 8) (g : Tag) (l : LT) (a b : BitVec 32) (s : State) : (logRec t c g l a b s).ar = s.ar := rfl
@[simp] theorem logRec_fb (t : BitVec 16) (c : BitVec 8) (g : Tag) (l : LT) (a b : BitVec 32) (s : State) : (logRec t c g l a b s).fb = s.fb := rfl
@[simp] theorem logRec_ps (t : BitVec 16) (c : BitVec 8) (g : Tag) (l : LT) (a b : BitVec 32) (s : State) : (logRec t c g l a b s).ps = s.ps := rfl
@[simp] theorem logRec_fo (t : BitVec 16) (c : BitVec 8) (g : Tag) (l : LT) (a b : BitVec 32) (s : State) : (logRec t c g l a b s).fo = s.fo := rfl
@[simp] theorem logRec_mi (t : BitVec 16) (c : BitVec 8) (g : Tag) (l : LT) (a b : BitVec 32) (s : State) : (logRec t c g l a b s).mi = s.mi := rfl
@[simp] theorem logRec_kv (t : BitVec 16) (c : BitVec 8) (g : Tag) (l : LT) (a b : BitVec 32) (s : State) : (logRec t c g l a b s).kv = s.kv := rfl
@[simp] theorem logRec_im (t : BitVec 16) (c : BitVec 8) (g : Tag) (l : LT) (a b : BitVec 32) (s : State) : (logRec t c g l a b s).im = s.im := rfl
@[simp] theorem logRec_pa (t : BitVec 16) (c : BitVec 8) (g : Tag) (l : LT) (a b : BitVec 32) (s : State) : (logRec t c g l a b s).pa = s.pa := rfl
@[simp] theorem logRec_pmb (t : BitVec 16) (c : BitVec 8) (g : Tag) (l : LT) (a b : BitVec 32) (s : State) : (logRec t c g l a b s).pmb = s.pmb := rfl
@[simp] theorem logRec_jtag (t : BitVec 16) (c : BitVec 8) (g : Tag) (l : LT) (a b : BitVec 32) (s : State) : (logRec t c g l a b s).jtag = s.jtag := rfl
@[simp] theorem logRec_grd (t : BitVec 16) (c : BitVec 8) (g : Tag) (l : LT) (a b : BitVec 32) (s : State) : (logRec t c g l a b s).grd = s.grd := rfl
@[simp] theorem logRec_ev (t : BitVec 16) (c : BitVec 8) (g : Tag) (l : LT) (a b : BitVec 32) (s : State) : (logRec t c g l a b s).ev = s.ev := rfl
@[simp] theorem logRec_glob (t : BitVec 16) (c : BitVec 8) (g : Tag) (l : LT) (a b : BitVec 32) (s : State) : (logRec t c g l a b s).glob = s.glob := rfl
@[simp] theorem logRec_pending (t : BitVec 16) (c : BitVec 8) (g : Tag) (l : LT) (a b : BitVec 32) (s : State) : (logRec t c g l a b s).pending = s.pending := rfl
@[simp] theorem logRec_free (t : BitVec 16) (c : BitVec 8) (g : Tag) (l : LT) (a b : BitVec 32) (s : State) : (logRec t c g l a b s).free = s.free := rfl
@[simp] theorem logRec_out (t : BitVec 16) (c : BitVec 8) (g : Tag) (l : LT) (a b : BitVec 32) (s : State) : (logRec t c g l a b s).out = s.out := rfl

/-! ## Replies -/

/-- What a reply leaves unchanged: every part but SU's rings, sessions and order of replies, the vectors that wait, the aperture flags, the events, the
records that wait, SU_STATUS.INTERNAL and what is sent out. -/
structure ReplyKeeps (s t : State) : Prop where
  tb : t.tb = s.tb
  px : t.px = s.px
  sw : t.sw = s.sw
  qm : t.qm = s.qm
  se : t.se = s.se
  fr : t.fr = s.fr
  pe : t.pe = s.pe
  ar : t.ar = s.ar
  fb : t.fb = s.fb
  ps : t.ps = s.ps
  fo : t.fo = s.fo
  mi : t.mi = s.mi
  kv : t.kv = s.kv
  pa : t.pa = s.pa
  pmb : t.pmb = s.pmb
  jtag : t.jtag = s.jtag
  grd : t.grd = s.grd
  pending : t.pending = s.pending
  free : t.free = s.free
  su_rrLast : t.su.rrLast = s.su.rrLast
  su_m0Turn : t.su.m0Turn = s.su.m0Turn
  su_sessNext : t.su.sessNext = s.su.sessNext
  su_armed : t.su.armed = s.su.armed
  su_resync : t.su.resync = s.su.resync
  su_resyncItems : t.su.resyncItems = s.su.resyncItems
  su_active : t.su.active = s.su.active
  su_pkg : t.su.pkg = s.su.pkg
  im_ready : t.im.ready = s.im.ready
  im_linkUp : t.im.linkUp = s.im.linkUp
  im_linkX8 : t.im.linkX8 = s.im.linkX8
  im_resetReq : t.im.resetReq = s.im.resetReq
  im_epochDisc : t.im.epochDisc = s.im.epochDisc
  im_flr : t.im.flr = s.im.flr
  im_route : t.im.route = s.im.route
  im_resets : t.im.resets = s.im.resets
  im_latches : t.im.latches = s.im.latches
  im_msix : t.im.msix = s.im.msix
  log_recs : t.log.recs = s.log.recs
  log_first : t.log.first = s.log.first
  log_lost : t.log.lost = s.log.lost
  log_wbase : t.log.wbase = s.log.wbase
  log_warn : t.log.warn = s.log.warn
  log_full : t.log.full = s.log.full
  log_clearRefused : t.log.clearRefused = s.log.clearRefused
  log_clearing : t.log.clearing = s.log.clearing
  log_warnRaised : t.log.warnRaised = s.log.warnRaised
  log_fullRaised : t.log.fullRaised = s.log.fullRaised
  glob_ready : t.glob.ready = s.glob.ready
  glob_bootPkg : t.glob.bootPkg = s.glob.bootPkg
  glob_ringErr : t.glob.ringErr = s.glob.ringErr
  glob_checkFail : t.glob.checkFail = s.glob.checkFail
  glob_commitFail : t.glob.commitFail = s.glob.commitFail
  glob_intentOrphan : t.glob.intentOrphan = s.glob.intentOrphan
  glob_fwVersion : t.glob.fwVersion = s.glob.fwVersion
  glob_stepping : t.glob.stepping = s.glob.stepping
  glob_serial : t.glob.serial = s.glob.serial
  glob_pkgId : t.glob.pkgId = s.glob.pkgId
  glob_thermTripN : t.glob.thermTripN = s.glob.thermTripN
  glob_perstN : t.glob.perstN = s.glob.perstN
  ev_memask : t.ev.memask = s.ev.memask
  ev_winMask : t.ev.winMask = s.ev.winMask

theorem ReplyKeeps.refl (s : State) : ReplyKeeps s s := by constructor <;> rfl

theorem ReplyKeeps.trans {s t u : State} (a : ReplyKeeps s t) (b : ReplyKeeps t u) : ReplyKeeps s u :=
  ⟨b.tb.trans a.tb, b.px.trans a.px, b.sw.trans a.sw, b.qm.trans a.qm, b.se.trans a.se, b.fr.trans a.fr, b.pe.trans a.pe, b.ar.trans a.ar, b.fb.trans a.fb, b.ps.trans a.ps, b.fo.trans a.fo, b.mi.trans a.mi, b.kv.trans a.kv, b.pa.trans a.pa, b.pmb.trans a.pmb, b.jtag.trans a.jtag, b.grd.trans a.grd, b.pending.trans a.pending, b.free.trans a.free, b.su_rrLast.trans a.su_rrLast, b.su_m0Turn.trans a.su_m0Turn, b.su_sessNext.trans a.su_sessNext, b.su_armed.trans a.su_armed, b.su_resync.trans a.su_resync, b.su_resyncItems.trans a.su_resyncItems, b.su_active.trans a.su_active, b.su_pkg.trans a.su_pkg, b.im_ready.trans a.im_ready, b.im_linkUp.trans a.im_linkUp, b.im_linkX8.trans a.im_linkX8, b.im_resetReq.trans a.im_resetReq, b.im_epochDisc.trans a.im_epochDisc, b.im_flr.trans a.im_flr, b.im_route.trans a.im_route, b.im_resets.trans a.im_resets, b.im_latches.trans a.im_latches, b.im_msix.trans a.im_msix, b.log_recs.trans a.log_recs, b.log_first.trans a.log_first, b.log_lost.trans a.log_lost, b.log_wbase.trans a.log_wbase, b.log_warn.trans a.log_warn, b.log_full.trans a.log_full, b.log_clearRefused.trans a.log_clearRefused, b.log_clearing.trans a.log_clearing, b.log_warnRaised.trans a.log_warnRaised, b.log_fullRaised.trans a.log_fullRaised, b.glob_ready.trans a.glob_ready, b.glob_bootPkg.trans a.glob_bootPkg, b.glob_ringErr.trans a.glob_ringErr, b.glob_checkFail.trans a.glob_checkFail, b.glob_commitFail.trans a.glob_commitFail, b.glob_intentOrphan.trans a.glob_intentOrphan, b.glob_fwVersion.trans a.glob_fwVersion, b.glob_stepping.trans a.glob_stepping, b.glob_serial.trans a.glob_serial, b.glob_pkgId.trans a.glob_pkgId, b.glob_thermTripN.trans a.glob_thermTripN, b.glob_perstN.trans a.glob_perstN, b.ev_memask.trans a.ev_memask, b.ev_winMask.trans a.ev_winMask⟩

theorem sendMsix_keeps (v : Nat) (s : State) : ReplyKeeps s (sendMsix v s) := by
  obtain ⟨p, o, h⟩ := sendMsix_frame v s; rw [h]; constructor <;> rfl

theorem emit_keeps (x : Out) (s : State) : ReplyKeeps s (emit x s) := by constructor <;> rfl

theorem raiseArg_keeps (n : Nat) (g : Tag) (a : BitVec 32) (s : State) : ReplyKeeps s (raiseArg n g a s) := by
  constructor <;> simp

theorem apertureHit_keeps (i : Tag) (s : State) : ReplyKeeps s (apertureHit i s) := by
  unfold apertureHit
  split
  · exact .refl s
  · exact .trans (by constructor <;> rfl) (raiseArg_keeps ..)

theorem firmwareFault_keeps (i : Tag) (s : State) : ReplyKeeps s (firmwareFault i s) := by
  unfold firmwareFault
  dsimp only
  exact .trans (by split <;> constructor <;> rfl) (raiseArg_keeps ..)

theorem putRing_keeps (r : RingId) (x : Ring) (s : State) : ReplyKeeps s (putRing s r x) := by
  unfold putRing; split <;> constructor <;> rfl

theorem postReply_keeps (w : Waiting) (r : Ring) (e : ReplyRec) (s : State) : ReplyKeeps s (postReply w r e s) := by
  have post (n : Nat) (a b : Out) (s : State) :
      ReplyKeeps s (if inAperture s (issuer w.cmd) n 32 then emit a (emit b s) else apertureHit (issuer w.cmd) s) := by
    split
    · exact .trans (emit_keeps b s) (emit_keeps a _)
    · exact apertureHit_keeps ..
  unfold postReply
  dsimp only
  split
  · exact post ..
  · exact .trans (emit_keeps ..) (post ..)

theorem writeReply_keeps (w : Waiting) (b : ReplyBody) (s : State) : ReplyKeeps s (writeReply w b s) := by
  unfold writeReply
  split
  · exact .refl s
  · dsimp only
    split
    · exact .trans (.trans (.trans (putRing_keeps ..) (by constructor <;> rfl)) (postReply_keeps ..)) (sendMsix_keeps ..)
    · exact .trans (.trans (putRing_keeps ..) (by constructor <;> rfl)) (postReply_keeps ..)

theorem finishDestroy_keeps (ring : RingId) (s : State) : ReplyKeeps s (finishDestroy ring s) := by
  unfold finishDestroy
  repeat' split
  all_goals first | exact .refl s | (constructor <;> rfl)

theorem sendReply_keeps (w : Waiting) (b : ReplyBody) (s : State) : ReplyKeeps s (sendReply w b s) :=
  .trans (writeReply_keeps ..) (finishDestroy_keeps ..)

theorem releaseReplies_keeps (n : Nat) (s : State) : ReplyKeeps s (releaseReplies n s) := by
  induction n generalizing s with
  | zero => exact .refl s
  | succ n ih =>
    unfold releaseReplies
    split
    · exact .trans (.trans (by constructor <;> rfl) (sendReply_keeps ..)) (ih _)
    · exact .refl s

theorem placeReply_keeps (w : Waiting) (b : ReplyBody) (s : State) : ReplyKeeps s (placeReply w b s) := by
  unfold placeReply
  split
  · exact sendReply_keeps ..
  · split
    · constructor <;> rfl
    · split
      · constructor <;> rfl
      · exact sendReply_keeps ..

/-- A reply, with those it lets out (R65, R69, R73). -/
theorem reply_keeps (w : Waiting) (b : ReplyBody) (s : State) : ReplyKeeps s (reply w b s) := by
  unfold reply
  dsimp only
  refine .trans (.trans (t := if w.cmd.fault = .none then s else firmwareFault (issuer w.cmd) s) ?_ (placeReply_keeps ..)) (releaseReplies_keeps ..)
  split
  · exact .refl s
  · exact firmwareFault_keeps ..

@[simp] theorem reply_tb (w : Waiting) (b : ReplyBody) (s : State) : (reply w b s).tb = s.tb := (reply_keeps w b s).tb
@[simp] theorem reply_px (w : Waiting) (b : ReplyBody) (s : State) : (reply w b s).px = s.px := (reply_keeps w b s).px
@[simp] theorem reply_sw (w : Waiting) (b : ReplyBody) (s : State) : (reply w b s).sw = s.sw := (reply_keeps w b s).sw
@[simp] theorem reply_qm (w : Waiting) (b : ReplyBody) (s : State) : (reply w b s).qm = s.qm := (reply_keeps w b s).qm
@[simp] theorem reply_se (w : Waiting) (b : ReplyBody) (s : State) : (reply w b s).se = s.se := (reply_keeps w b s).se
@[simp] theorem reply_fr (w : Waiting) (b : ReplyBody) (s : State) : (reply w b s).fr = s.fr := (reply_keeps w b s).fr
@[simp] theorem reply_pe (w : Waiting) (b : ReplyBody) (s : State) : (reply w b s).pe = s.pe := (reply_keeps w b s).pe
@[simp] theorem reply_ar (w : Waiting) (b : ReplyBody) (s : State) : (reply w b s).ar = s.ar := (reply_keeps w b s).ar
@[simp] theorem reply_fb (w : Waiting) (b : ReplyBody) (s : State) : (reply w b s).fb = s.fb := (reply_keeps w b s).fb
@[simp] theorem reply_ps (w : Waiting) (b : ReplyBody) (s : State) : (reply w b s).ps = s.ps := (reply_keeps w b s).ps
@[simp] theorem reply_fo (w : Waiting) (b : ReplyBody) (s : State) : (reply w b s).fo = s.fo := (reply_keeps w b s).fo
@[simp] theorem reply_mi (w : Waiting) (b : ReplyBody) (s : State) : (reply w b s).mi = s.mi := (reply_keeps w b s).mi
@[simp] theorem reply_kv (w : Waiting) (b : ReplyBody) (s : State) : (reply w b s).kv = s.kv := (reply_keeps w b s).kv
@[simp] theorem reply_pa (w : Waiting) (b : ReplyBody) (s : State) : (reply w b s).pa = s.pa := (reply_keeps w b s).pa
@[simp] theorem reply_pmb (w : Waiting) (b : ReplyBody) (s : State) : (reply w b s).pmb = s.pmb := (reply_keeps w b s).pmb
@[simp] theorem reply_jtag (w : Waiting) (b : ReplyBody) (s : State) : (reply w b s).jtag = s.jtag := (reply_keeps w b s).jtag
@[simp] theorem reply_grd (w : Waiting) (b : ReplyBody) (s : State) : (reply w b s).grd = s.grd := (reply_keeps w b s).grd
@[simp] theorem reply_pending (w : Waiting) (b : ReplyBody) (s : State) : (reply w b s).pending = s.pending := (reply_keeps w b s).pending
@[simp] theorem reply_free (w : Waiting) (b : ReplyBody) (s : State) : (reply w b s).free = s.free := (reply_keeps w b s).free
@[simp] theorem reply_su_rrLast (w : Waiting) (b : ReplyBody) (s : State) : (reply w b s).su.rrLast = s.su.rrLast := (reply_keeps w b s).su_rrLast
@[simp] theorem reply_su_m0Turn (w : Waiting) (b : ReplyBody) (s : State) : (reply w b s).su.m0Turn = s.su.m0Turn := (reply_keeps w b s).su_m0Turn
@[simp] theorem reply_su_sessNext (w : Waiting) (b : ReplyBody) (s : State) : (reply w b s).su.sessNext = s.su.sessNext := (reply_keeps w b s).su_sessNext
@[simp] theorem reply_su_armed (w : Waiting) (b : ReplyBody) (s : State) : (reply w b s).su.armed = s.su.armed := (reply_keeps w b s).su_armed
@[simp] theorem reply_su_resync (w : Waiting) (b : ReplyBody) (s : State) : (reply w b s).su.resync = s.su.resync := (reply_keeps w b s).su_resync
@[simp] theorem reply_su_resyncItems (w : Waiting) (b : ReplyBody) (s : State) : (reply w b s).su.resyncItems = s.su.resyncItems := (reply_keeps w b s).su_resyncItems
@[simp] theorem reply_su_active (w : Waiting) (b : ReplyBody) (s : State) : (reply w b s).su.active = s.su.active := (reply_keeps w b s).su_active
@[simp] theorem reply_su_pkg (w : Waiting) (b : ReplyBody) (s : State) : (reply w b s).su.pkg = s.su.pkg := (reply_keeps w b s).su_pkg
@[simp] theorem reply_im_ready (w : Waiting) (b : ReplyBody) (s : State) : (reply w b s).im.ready = s.im.ready := (reply_keeps w b s).im_ready
@[simp] theorem reply_im_linkUp (w : Waiting) (b : ReplyBody) (s : State) : (reply w b s).im.linkUp = s.im.linkUp := (reply_keeps w b s).im_linkUp
@[simp] theorem reply_im_linkX8 (w : Waiting) (b : ReplyBody) (s : State) : (reply w b s).im.linkX8 = s.im.linkX8 := (reply_keeps w b s).im_linkX8
@[simp] theorem reply_im_resetReq (w : Waiting) (b : ReplyBody) (s : State) : (reply w b s).im.resetReq = s.im.resetReq := (reply_keeps w b s).im_resetReq
@[simp] theorem reply_im_epochDisc (w : Waiting) (b : ReplyBody) (s : State) : (reply w b s).im.epochDisc = s.im.epochDisc := (reply_keeps w b s).im_epochDisc
@[simp] theorem reply_im_flr (w : Waiting) (b : ReplyBody) (s : State) : (reply w b s).im.flr = s.im.flr := (reply_keeps w b s).im_flr
@[simp] theorem reply_im_route (w : Waiting) (b : ReplyBody) (s : State) : (reply w b s).im.route = s.im.route := (reply_keeps w b s).im_route
@[simp] theorem reply_im_resets (w : Waiting) (b : ReplyBody) (s : State) : (reply w b s).im.resets = s.im.resets := (reply_keeps w b s).im_resets
@[simp] theorem reply_im_latches (w : Waiting) (b : ReplyBody) (s : State) : (reply w b s).im.latches = s.im.latches := (reply_keeps w b s).im_latches
@[simp] theorem reply_im_msix (w : Waiting) (b : ReplyBody) (s : State) : (reply w b s).im.msix = s.im.msix := (reply_keeps w b s).im_msix
@[simp] theorem reply_log_recs (w : Waiting) (b : ReplyBody) (s : State) : (reply w b s).log.recs = s.log.recs := (reply_keeps w b s).log_recs
@[simp] theorem reply_log_first (w : Waiting) (b : ReplyBody) (s : State) : (reply w b s).log.first = s.log.first := (reply_keeps w b s).log_first
@[simp] theorem reply_log_lost (w : Waiting) (b : ReplyBody) (s : State) : (reply w b s).log.lost = s.log.lost := (reply_keeps w b s).log_lost
@[simp] theorem reply_log_wbase (w : Waiting) (b : ReplyBody) (s : State) : (reply w b s).log.wbase = s.log.wbase := (reply_keeps w b s).log_wbase
@[simp] theorem reply_log_warn (w : Waiting) (b : ReplyBody) (s : State) : (reply w b s).log.warn = s.log.warn := (reply_keeps w b s).log_warn
@[simp] theorem reply_log_full (w : Waiting) (b : ReplyBody) (s : State) : (reply w b s).log.full = s.log.full := (reply_keeps w b s).log_full
@[simp] theorem reply_log_clearRefused (w : Waiting) (b : ReplyBody) (s : State) : (reply w b s).log.clearRefused = s.log.clearRefused := (reply_keeps w b s).log_clearRefused
@[simp] theorem reply_log_clearing (w : Waiting) (b : ReplyBody) (s : State) : (reply w b s).log.clearing = s.log.clearing := (reply_keeps w b s).log_clearing
@[simp] theorem reply_log_warnRaised (w : Waiting) (b : ReplyBody) (s : State) : (reply w b s).log.warnRaised = s.log.warnRaised := (reply_keeps w b s).log_warnRaised
@[simp] theorem reply_log_fullRaised (w : Waiting) (b : ReplyBody) (s : State) : (reply w b s).log.fullRaised = s.log.fullRaised := (reply_keeps w b s).log_fullRaised
@[simp] theorem reply_glob_ready (w : Waiting) (b : ReplyBody) (s : State) : (reply w b s).glob.ready = s.glob.ready := (reply_keeps w b s).glob_ready
@[simp] theorem reply_glob_bootPkg (w : Waiting) (b : ReplyBody) (s : State) : (reply w b s).glob.bootPkg = s.glob.bootPkg := (reply_keeps w b s).glob_bootPkg
@[simp] theorem reply_glob_ringErr (w : Waiting) (b : ReplyBody) (s : State) : (reply w b s).glob.ringErr = s.glob.ringErr := (reply_keeps w b s).glob_ringErr
@[simp] theorem reply_glob_checkFail (w : Waiting) (b : ReplyBody) (s : State) : (reply w b s).glob.checkFail = s.glob.checkFail := (reply_keeps w b s).glob_checkFail
@[simp] theorem reply_glob_commitFail (w : Waiting) (b : ReplyBody) (s : State) : (reply w b s).glob.commitFail = s.glob.commitFail := (reply_keeps w b s).glob_commitFail
@[simp] theorem reply_glob_intentOrphan (w : Waiting) (b : ReplyBody) (s : State) : (reply w b s).glob.intentOrphan = s.glob.intentOrphan := (reply_keeps w b s).glob_intentOrphan
@[simp] theorem reply_glob_fwVersion (w : Waiting) (b : ReplyBody) (s : State) : (reply w b s).glob.fwVersion = s.glob.fwVersion := (reply_keeps w b s).glob_fwVersion
@[simp] theorem reply_glob_stepping (w : Waiting) (b : ReplyBody) (s : State) : (reply w b s).glob.stepping = s.glob.stepping := (reply_keeps w b s).glob_stepping
@[simp] theorem reply_glob_serial (w : Waiting) (b : ReplyBody) (s : State) : (reply w b s).glob.serial = s.glob.serial := (reply_keeps w b s).glob_serial
@[simp] theorem reply_glob_pkgId (w : Waiting) (b : ReplyBody) (s : State) : (reply w b s).glob.pkgId = s.glob.pkgId := (reply_keeps w b s).glob_pkgId
@[simp] theorem reply_glob_thermTripN (w : Waiting) (b : ReplyBody) (s : State) : (reply w b s).glob.thermTripN = s.glob.thermTripN := (reply_keeps w b s).glob_thermTripN
@[simp] theorem reply_glob_perstN (w : Waiting) (b : ReplyBody) (s : State) : (reply w b s).glob.perstN = s.glob.perstN := (reply_keeps w b s).glob_perstN
@[simp] theorem reply_ev_memask (w : Waiting) (b : ReplyBody) (s : State) : (reply w b s).ev.memask = s.ev.memask := (reply_keeps w b s).ev_memask
@[simp] theorem reply_ev_winMask (w : Waiting) (b : ReplyBody) (s : State) : (reply w b s).ev.winMask = s.ev.winMask := (reply_keeps w b s).ev_winMask

/-! ## Access to a power domain -/

/-- A domain's wake changes only the domains. -/
theorem wakeDomain_frame (a : Bool) (n : Nat) (s : State) : ∃ d, wakeDomain a n s = { s with pa := { s.pa with pd := d } } := by
  have one (k : Nat) (s : State) : ∃ d, wakeOne a k s = { s with pa := { s.pa with pd := d } } := by
    unfold wakeOne modPd onPa
    split
    · exact ⟨_, rfl⟩
    · exact ⟨_, rfl⟩
  unfold wakeDomain
  obtain ⟨d, h⟩ := one n s
  dsimp only
  split
  · obtain ⟨d', h'⟩ := one 8 (wakeOne a n s)
    rw [h', h]; exact ⟨_, rfl⟩
  · exact ⟨d, h⟩

/-- A command's access that is not turned away changes only the domains (R539). -/
theorem opAccess_frame (op : Nat) (s : State) (h : (opAccess op s).2 = none) : ∃ d, (opAccess op s).1 = { s with pa := { s.pa with pd := d } } := by
  unfold opAccess at h ⊢
  split at h
  · rename_i n _
    unfold commandAccess at h ⊢
    cases hd : pdState s n <;> simp only [hd] at h ⊢
    case locked => simp at h
    case on => exact ⟨_, rfl⟩
    all_goals
      obtain ⟨d, hw⟩ := wakeDomain_frame true n s
      by_cases h2 : n = 2
      · simp [h2] at h
      · simp only [h2, if_false, hw, modPd, onPa]; exact ⟨_, rfl⟩
  · exact ⟨_, rfl⟩

end Sys2Proof.Machine
end

