-- ==== Sys2Proof/Laws/Commands.lean ====
section
/-! SUPPORT. What the shared operations answer for a command that reaches its body: `command`, `answer`, `stage` and `multi`. -/

namespace Sys2Proof.Machine

/-- The state after a command's body: its reply, or the command waiting for one. -/
def afterBody (op : BitVec 16) (c : Cmd) (r : State × Option ReplyBody) : State :=
  match r.2 with
  | some b => reply { cmd := c, opcode := op } b r.1
  | none => outstanding { cmd := c, opcode := op } r.1

/-- A command always answers a next state (R65). -/
theorem commandWith_goesOn (op : BitVec 16) (o : Bool) (c : Cmd) (s : State) (pre : State → Option ReplyBody)
    (body : State → State × Option ReplyBody) : goesOn (commandWith op o c s pre body) := by
  unfold commandWith goesOn
  dsimp only
  repeat' split
  all_goals exact ⟨_, rfl⟩

theorem command_goesOn (op : BitVec 16) (o : Bool) (c : Cmd) (s : State) (body : State → State × Option ReplyBody) :
    goesOn (command op o c s body) := commandWith_goesOn ..

/-- A command that passes its session checks and reaches its body runs it on the state after its domain access (R65, R539, R626). -/
theorem commandWith_runs {op : BitVec 16} {o : Bool} {c : Cmd} {s : State} (h : runs op o c s = true) {pre : State → Option ReplyBody}
    (hp : pre (begun c s) = none) (body : State → State × Option ReplyBody) :
    commandWith op o c s pre body = .next (afterBody op c (body (entered op c s))) := by
  simp only [runs, Bool.and_eq_true, Bool.not_eq_true', Bool.or_eq_true, beq_iff_eq] at h
  obtain ⟨⟨⟨⟨h1, h2⟩, h3⟩, h4⟩, h5⟩ := h
  unfold commandWith
  simp only [h1, h2, h3, hp]
  have h6 : (decide (issuer c ≠ 0) && !o) = false := by rcases h4 with h4 | h4 <;> simp [h4]
  · simp only [h6, Bool.not_true, Bool.or_false, Bool.false_eq_true, if_false]
    cases hx : opAccess op.toNat (begun c s) with
    | mk t r =>
      have hr : r = none := by simpa [hx] using h5
      have ht : entered op c s = t := by simp [entered, hx]
      subst hr
      simp only [ht]
      cases hb : body t with
      | mk u v => cases v <;> simp [afterBody]

/-- A command that reaches its body runs it on the state after its domain access (R539, R626). -/
theorem command_runs {op : BitVec 16} {o : Bool} {c : Cmd} {s : State} (h : runs op o c s = true) (body : State → State × Option ReplyBody) :
    command op o c s body = .next (afterBody op c (body (entered op c s))) := commandWith_runs h rfl body

/-- An opcode that needs no power domain runs on the state in which it has started. -/
theorem entered_none {op : BitVec 16} (h : opDomain op.toNat = none) (c : Cmd) (s : State) : entered op c s = begun c s := by
  simp [entered, opAccess, h]

/-- A command that starts leaves its ring's list of those handed on, and nothing else (R65). -/
theorem begun_frame (c : Cmd) (s : State) : ∃ m i, begun c s = { s with su := { s.su with mring := m, iring := i } } := by
  unfold begun putRing
  repeat' split
  all_goals exact ⟨_, _, rfl⟩

/-- The access of a command that reaches its body changes nothing but its ring and the power domains (R65, R539). -/
theorem entered_frame {op : BitVec 16} {o : Bool} {c : Cmd} {s : State} (h : runs op o c s = true) :
    ∃ d m i, entered op c s = { s with pa := { s.pa with pd := d }, su := { s.su with mring := m, iring := i } } := by
  simp only [runs, Bool.and_eq_true] at h
  obtain ⟨m, i, hb⟩ := begun_frame c s
  obtain ⟨d, hd⟩ := opAccess_frame op.toNat (begun c s) (by simpa using h.2)
  exact ⟨d, m, i, by rw [entered, hd, hb]⟩

/-- A command that only answers. -/
theorem answer_runs {op : BitVec 16} {o : Bool} {c : Cmd} {s : State} (h : runs op o c s = true) (b : ReplyBody) :
    answer op o c s b = answered op c b (entered op c s) := by
  simp [answer, command_runs h, afterBody, answered]

/-- A staged command that meets its conditions joins its items to the session (R79, R80). -/
theorem stage_ok {op : BitVec 16} {o : Bool} {c : Cmd} {items : List Item} {check : List Item → State → Option Status} {s : State}
    (h : stagedOk op o c items check s = true) : stage op o c items check s = stagedNext op c items s := by
  simp only [stagedOk, Bool.and_eq_true, beq_iff_eq, decide_eq_true_eq] at h
  obtain ⟨⟨h1, h2⟩, h3, h4⟩ := h
  have h5 : ¬ stagingShare (entered op c s) (issuer c) < (getSession (entered op c s) (issuer c)).bytes + (c.plen + c.indLen) := by omega
  unfold stage
  rw [commandWith_runs h1 (by simp [h2])]
  simp [afterBody, stagedNext, answered, h3, h5]

/-- A staged command that is refused leaves its session, and answers why (R626). -/
theorem stage_refused {op : BitVec 16} {o : Bool} {c : Cmd} {items : List Item} {check : List Item → State → Option Status} {s t : State}
    {b : ReplyBody} (h : started op o c s = true) (hr : stageRefusal op c items check s = some (b, t)) :
    stage op o c items check s = answered op c b t := by
  simp only [started, Bool.and_eq_true, Bool.not_eq_true', Bool.or_eq_true, beq_iff_eq] at h
  obtain ⟨⟨⟨h1, h2⟩, h3⟩, h4⟩ := h
  have h6 : (decide (issuer c ≠ 0) && !o) = false := by rcases h4 with h4 | h4 <;> simp [h4]
  unfold stage commandWith
  simp only [h1, h2, h3, h6, Bool.not_true, Bool.or_false, Bool.false_eq_true, if_false]
  unfold stageRefusal at hr
  cases hs : sessionRefusal (begun c s) c (op.toNat / 256) with
  | some e =>
    simp only [hs, Option.some.injEq, Prod.mk.injEq] at hr
    obtain ⟨rfl, rfl⟩ := hr
    rfl
  | none =>
    simp only [hs] at hr
    cases hx : opAccess op.toNat (begun c s) with
    | mk u r =>
      have hu : entered op c s = u := by simp [entered, hx]
      simp only [hx, hu] at hr
      cases r with
      | some x =>
        simp only [Option.some.injEq, Prod.mk.injEq] at hr
        obtain ⟨rfl, rfl⟩ := hr
        rfl
      | none =>
        cases hc : check (overlay items (sessionView u (issuer c))) u with
        | some e =>
          simp only [hc, Option.some.injEq, Prod.mk.injEq] at hr
          obtain ⟨rfl, rfl⟩ := hr
          simp [hc, answered]
        | none =>
          simp only [hc] at hr
          split at hr
          · rename_i hq
            simp only [Option.some.injEq, Prod.mk.injEq] at hr
            obtain ⟨rfl, rfl⟩ := hr
            simp [hc, hq, answered]
          · cases hr

/-- A multi-part command that reaches its body answers as its parts do (R89). -/
theorem multi_runs {op : BitVec 16} {o : Bool} {c : Cmd} {s : State} (h : runs op o c s = true) (mask : BitVec 64)
    (part : Nat → State → State × Status × List Byte) :
    multi op o c mask part s = answered op c (multipart mask part (entered op c s)).2 (multipart mask part (entered op c s)).1 := by
  simp [multi, command_runs h, afterBody, answered]

/-- A Brixig message that is heard whole has its type's effect on what FO takes of it; of any other FO takes that alone (R411, R417–R419). -/
theorem brxRx_answers (type : Nat) (w : BrxWords) (k : List Byte → List (Vector Byte 36) → State → State) (s : State) :
    brxRx type w k s = .next (match brxHeard type w s with
      | some (h, p) => k h p (brxTaken type w s)
      | none => brxTaken type w s) := by
  unfold brxRx brxHeard brxTaken
  cases hl : s.fo.linkUp with
  | false =>
    cases w with
    | nil => simp
    | cons a l => cases hd : guardDeliver a <;> simp [hd]
  | true =>
    cases w with
    | nil => simp
    | cons a l =>
      simp only [List.map_cons, Bool.not_true, Bool.false_eq_true, if_false]
      cases hd : guardDeliver a with
      | none => simp
      | some h =>
        by_cases h1 : h[32] = 0 ∧ fieldBE (brxData h) 0 1 = type
        · simp only [h1, ne_eq, not_true_eq_false, or_self, and_self, if_true, if_false]
          cases allSome (l.map guardDeliver) with
          | none => simp
          | some p => by_cases hp : p.length = fieldBE (brxData h) 2 2 <;> simp [hp]
        · have h2 : h[32] ≠ 0 ∨ fieldBE (brxData h) 0 1 ≠ type := by
            by_cases h3 : h[32] = 0
            · exact .inr (fun h4 => h1 ⟨h3, h4⟩)
            · exact .inl h3
          simp only [h2, if_true, h1, and_false, if_false]
          simp

/-- A service frame of up to 8,192 bytes of body reads as what it was made of (R452). -/
theorem svcRead_svcFrame (cmd : BitVec 8) (body : List Byte) (h : body.length ≤ 8192) : svcRead (svcFrame cmd body) = some (cmd, body) := by
  obtain ⟨a, b, hab⟩ : ∃ a b, bytesBE 2 body.length = [a, b] := by
    have hl := bytesBE_length 2 body.length
    match hx : bytesBE 2 body.length, hl with
    | [a, b], _ => exact ⟨a, b, rfl⟩
  have hn : ofBytesBE [a, b] = body.length := by
    rw [← hab, ofBytesBE_bytesBE]; exact Nat.mod_eq_of_lt (by omega)
  have hf : svcFrame cmd body = 0x7E :: cmd :: a :: b :: (body ++ bytesBE 2 (crcCcitt (svcCovered cmd body)).toNat) := by
    simp [svcFrame, svcCovered, hab]
  have hc : (svcFrame cmd body).getD 1 0 = cmd := by rw [hf]; rfl
  have ht : ((svcFrame cmd body).drop 2).take 2 = [a, b] := by rw [hf]; rfl
  have hd : ((svcFrame cmd body).drop 4).take body.length = body := by rw [hf]; simp
  unfold svcRead
  simp only [hc, ht, hn, hd]
  simp [h]

/-! ## What a started command reads -/

@[simp] theorem begun_tb (c : Cmd) (s : State) : (begun c s).tb = s.tb := by obtain ⟨m, i, h⟩ := begun_frame c s; rw [h]
@[simp] theorem begun_px (c : Cmd) (s : State) : (begun c s).px = s.px := by obtain ⟨m, i, h⟩ := begun_frame c s; rw [h]
@[simp] theorem begun_sw (c : Cmd) (s : State) : (begun c s).sw = s.sw := by obtain ⟨m, i, h⟩ := begun_frame c s; rw [h]
@[simp] theorem begun_qm (c : Cmd) (s : State) : (begun c s).qm = s.qm := by obtain ⟨m, i, h⟩ := begun_frame c s; rw [h]
@[simp] theorem begun_se (c : Cmd) (s : State) : (begun c s).se = s.se := by obtain ⟨m, i, h⟩ := begun_frame c s; rw [h]
@[simp] theorem begun_fr (c : Cmd) (s : State) : (begun c s).fr = s.fr := by obtain ⟨m, i, h⟩ := begun_frame c s; rw [h]
@[simp] theorem begun_pe (c : Cmd) (s : State) : (begun c s).pe = s.pe := by obtain ⟨m, i, h⟩ := begun_frame c s; rw [h]
@[simp] theorem begun_ar (c : Cmd) (s : State) : (begun c s).ar = s.ar := by obtain ⟨m, i, h⟩ := begun_frame c s; rw [h]
@[simp] theorem begun_fb (c : Cmd) (s : State) : (begun c s).fb = s.fb := by obtain ⟨m, i, h⟩ := begun_frame c s; rw [h]
@[simp] theorem begun_ps (c : Cmd) (s : State) : (begun c s).ps = s.ps := by obtain ⟨m, i, h⟩ := begun_frame c s; rw [h]
@[simp] theorem begun_fo (c : Cmd) (s : State) : (begun c s).fo = s.fo := by obtain ⟨m, i, h⟩ := begun_frame c s; rw [h]
@[simp] theorem begun_mi (c : Cmd) (s : State) : (begun c s).mi = s.mi := by obtain ⟨m, i, h⟩ := begun_frame c s; rw [h]
@[simp] theorem begun_kv (c : Cmd) (s : State) : (begun c s).kv = s.kv := by obtain ⟨m, i, h⟩ := begun_frame c s; rw [h]
@[simp] theorem begun_pmb (c : Cmd) (s : State) : (begun c s).pmb = s.pmb := by obtain ⟨m, i, h⟩ := begun_frame c s; rw [h]
@[simp] theorem begun_jtag (c : Cmd) (s : State) : (begun c s).jtag = s.jtag := by obtain ⟨m, i, h⟩ := begun_frame c s; rw [h]
@[simp] theorem begun_grd (c : Cmd) (s : State) : (begun c s).grd = s.grd := by obtain ⟨m, i, h⟩ := begun_frame c s; rw [h]
@[simp] theorem begun_glob (c : Cmd) (s : State) : (begun c s).glob = s.glob := by obtain ⟨m, i, h⟩ := begun_frame c s; rw [h]
@[simp] theorem begun_pending (c : Cmd) (s : State) : (begun c s).pending = s.pending := by obtain ⟨m, i, h⟩ := begun_frame c s; rw [h]
@[simp] theorem begun_free (c : Cmd) (s : State) : (begun c s).free = s.free := by obtain ⟨m, i, h⟩ := begun_frame c s; rw [h]
@[simp] theorem begun_pa (c : Cmd) (s : State) : (begun c s).pa = s.pa := by obtain ⟨m, i, h⟩ := begun_frame c s; rw [h]
@[simp] theorem begun_im (c : Cmd) (s : State) : (begun c s).im = s.im := by obtain ⟨m, i, h⟩ := begun_frame c s; rw [h]
@[simp] theorem begun_log (c : Cmd) (s : State) : (begun c s).log = s.log := by obtain ⟨m, i, h⟩ := begun_frame c s; rw [h]
@[simp] theorem begun_ev (c : Cmd) (s : State) : (begun c s).ev = s.ev := by obtain ⟨m, i, h⟩ := begun_frame c s; rw [h]
@[simp] theorem begun_out (c : Cmd) (s : State) : (begun c s).out = s.out := by obtain ⟨m, i, h⟩ := begun_frame c s; rw [h]
@[simp] theorem begun_su_order (c : Cmd) (s : State) : (begun c s).su.order = s.su.order := by obtain ⟨m, i, h⟩ := begun_frame c s; rw [h]
@[simp] theorem begun_su_rrLast (c : Cmd) (s : State) : (begun c s).su.rrLast = s.su.rrLast := by obtain ⟨m, i, h⟩ := begun_frame c s; rw [h]
@[simp] theorem begun_su_m0Turn (c : Cmd) (s : State) : (begun c s).su.m0Turn = s.su.m0Turn := by obtain ⟨m, i, h⟩ := begun_frame c s; rw [h]
@[simp] theorem begun_su_sessions (c : Cmd) (s : State) : (begun c s).su.sessions = s.su.sessions := by obtain ⟨m, i, h⟩ := begun_frame c s; rw [h]
@[simp] theorem begun_su_sessNext (c : Cmd) (s : State) : (begun c s).su.sessNext = s.su.sessNext := by obtain ⟨m, i, h⟩ := begun_frame c s; rw [h]
@[simp] theorem begun_su_armed (c : Cmd) (s : State) : (begun c s).su.armed = s.su.armed := by obtain ⟨m, i, h⟩ := begun_frame c s; rw [h]
@[simp] theorem begun_su_resync (c : Cmd) (s : State) : (begun c s).su.resync = s.su.resync := by obtain ⟨m, i, h⟩ := begun_frame c s; rw [h]
@[simp] theorem begun_su_resyncItems (c : Cmd) (s : State) : (begun c s).su.resyncItems = s.su.resyncItems := by obtain ⟨m, i, h⟩ := begun_frame c s; rw [h]
@[simp] theorem begun_su_active (c : Cmd) (s : State) : (begun c s).su.active = s.su.active := by obtain ⟨m, i, h⟩ := begun_frame c s; rw [h]
@[simp] theorem begun_su_pkg (c : Cmd) (s : State) : (begun c s).su.pkg = s.su.pkg := by obtain ⟨m, i, h⟩ := begun_frame c s; rw [h]
@[simp] theorem begun_su_replies (c : Cmd) (s : State) : (begun c s).su.replies = s.su.replies := by obtain ⟨m, i, h⟩ := begun_frame c s; rw [h]

/-- Whatever a command's access to a domain answers, it changes only the domains, the events and what they send (R539, R541). -/
theorem opAccess_all (op : Nat) (s : State) : ∃ p e q o r, (opAccess op s).1 =
    { s with pa := p, ev := e, im := { s.im with msixPend := q }, out := o, log := { s.log with pendingRecs := r } } := by
  unfold opAccess
  split
  · rename_i n _
    unfold commandAccess
    split
    · unfold lockRefused
      dsimp only
      generalize hu : onPa (fun p => { p with lockedAccess := true })
        (modPd n (fun d => { d with lockHit := true, lockHits := satInc d.lockHits }) s) = u
      obtain ⟨l, h⟩ := limited_frame 0x78 n (secTu 1) 1 u
      split
      · obtain ⟨e, q, o, r, hr, -⟩ := raiseArg_frame 0x78 0 (BitVec.ofNat 32 n) (limited 0x78 n (secTu 1) 1 u).2
        rw [hr, h, ← hu]
        exact ⟨_, _, _, _, _, rfl⟩
      · rw [h, ← hu]
        exact ⟨_, _, _, _, _, rfl⟩
    · exact ⟨_, _, _, _, _, rfl⟩
    · obtain ⟨d, hw⟩ := wakeDomain_frame true n s
      dsimp only
      rw [hw]
      split
      · exact ⟨_, _, _, _, _, rfl⟩
      · exact ⟨_, _, _, _, _, rfl⟩
  · exact ⟨_, _, _, _, _, rfl⟩

@[simp] theorem opAccess_tb (op : Nat) (s : State) : (opAccess op s).1.tb = s.tb := by
  obtain ⟨p, e, q, o, r, h⟩ := opAccess_all op s; rw [h]
@[simp] theorem opAccess_px (op : Nat) (s : State) : (opAccess op s).1.px = s.px := by
  obtain ⟨p, e, q, o, r, h⟩ := opAccess_all op s; rw [h]
@[simp] theorem opAccess_sw (op : Nat) (s : State) : (opAccess op s).1.sw = s.sw := by
  obtain ⟨p, e, q, o, r, h⟩ := opAccess_all op s; rw [h]
@[simp] theorem opAccess_qm (op : Nat) (s : State) : (opAccess op s).1.qm = s.qm := by
  obtain ⟨p, e, q, o, r, h⟩ := opAccess_all op s; rw [h]
@[simp] theorem opAccess_se (op : Nat) (s : State) : (opAccess op s).1.se = s.se := by
  obtain ⟨p, e, q, o, r, h⟩ := opAccess_all op s; rw [h]
@[simp] theorem opAccess_fr (op : Nat) (s : State) : (opAccess op s).1.fr = s.fr := by
  obtain ⟨p, e, q, o, r, h⟩ := opAccess_all op s; rw [h]
@[simp] theorem opAccess_pe (op : Nat) (s : State) : (opAccess op s).1.pe = s.pe := by
  obtain ⟨p, e, q, o, r, h⟩ := opAccess_all op s; rw [h]
@[simp] theorem opAccess_ar (op : Nat) (s : State) : (opAccess op s).1.ar = s.ar := by
  obtain ⟨p, e, q, o, r, h⟩ := opAccess_all op s; rw [h]
@[simp] theorem opAccess_fb (op : Nat) (s : State) : (opAccess op s).1.fb = s.fb := by
  obtain ⟨p, e, q, o, r, h⟩ := opAccess_all op s; rw [h]
@[simp] theorem opAccess_ps (op : Nat) (s : State) : (opAccess op s).1.ps = s.ps := by
  obtain ⟨p, e, q, o, r, h⟩ := opAccess_all op s; rw [h]
@[simp] theorem opAccess_fo (op : Nat) (s : State) : (opAccess op s).1.fo = s.fo := by
  obtain ⟨p, e, q, o, r, h⟩ := opAccess_all op s; rw [h]
@[simp] theorem opAccess_mi (op : Nat) (s : State) : (opAccess op s).1.mi = s.mi := by
  obtain ⟨p, e, q, o, r, h⟩ := opAccess_all op s; rw [h]
@[simp] theorem opAccess_kv (op : Nat) (s : State) : (opAccess op s).1.kv = s.kv := by
  obtain ⟨p, e, q, o, r, h⟩ := opAccess_all op s; rw [h]
@[simp] theorem opAccess_pmb (op : Nat) (s : State) : (opAccess op s).1.pmb = s.pmb := by
  obtain ⟨p, e, q, o, r, h⟩ := opAccess_all op s; rw [h]
@[simp] theorem opAccess_jtag (op : Nat) (s : State) : (opAccess op s).1.jtag = s.jtag := by
  obtain ⟨p, e, q, o, r, h⟩ := opAccess_all op s; rw [h]
@[simp] theorem opAccess_grd (op : Nat) (s : State) : (opAccess op s).1.grd = s.grd := by
  obtain ⟨p, e, q, o, r, h⟩ := opAccess_all op s; rw [h]
@[simp] theorem opAccess_glob (op : Nat) (s : State) : (opAccess op s).1.glob = s.glob := by
  obtain ⟨p, e, q, o, r, h⟩ := opAccess_all op s; rw [h]
@[simp] theorem opAccess_pending (op : Nat) (s : State) : (opAccess op s).1.pending = s.pending := by
  obtain ⟨p, e, q, o, r, h⟩ := opAccess_all op s; rw [h]
@[simp] theorem opAccess_free (op : Nat) (s : State) : (opAccess op s).1.free = s.free := by
  obtain ⟨p, e, q, o, r, h⟩ := opAccess_all op s; rw [h]
@[simp] theorem opAccess_su (op : Nat) (s : State) : (opAccess op s).1.su = s.su := by
  obtain ⟨p, e, q, o, r, h⟩ := opAccess_all op s; rw [h]
@[simp] theorem opAccess_im_inst (op : Nat) (s : State) : (opAccess op s).1.im.inst = s.im.inst := by
  obtain ⟨p, e, q, o, r, h⟩ := opAccess_all op s; rw [h]
@[simp] theorem opAccess_im_latches (op : Nat) (s : State) : (opAccess op s).1.im.latches = s.im.latches := by
  obtain ⟨p, e, q, o, r, h⟩ := opAccess_all op s; rw [h]
@[simp] theorem opAccess_im_ready (op : Nat) (s : State) : (opAccess op s).1.im.ready = s.im.ready := by
  obtain ⟨p, e, q, o, r, h⟩ := opAccess_all op s; rw [h]
@[simp] theorem opAccess_im_route (op : Nat) (s : State) : (opAccess op s).1.im.route = s.im.route := by
  obtain ⟨p, e, q, o, r, h⟩ := opAccess_all op s; rw [h]
@[simp] theorem opAccess_log_recs (op : Nat) (s : State) : (opAccess op s).1.log.recs = s.log.recs := by
  obtain ⟨p, e, q, o, r, h⟩ := opAccess_all op s; rw [h]

@[simp] theorem entered_tb (op : BitVec 16) (c : Cmd) (s : State) : (entered op c s).tb = s.tb := by simp [entered]
@[simp] theorem entered_px (op : BitVec 16) (c : Cmd) (s : State) : (entered op c s).px = s.px := by simp [entered]
@[simp] theorem entered_sw (op : BitVec 16) (c : Cmd) (s : State) : (entered op c s).sw = s.sw := by simp [entered]
@[simp] theorem entered_qm (op : BitVec 16) (c : Cmd) (s : State) : (entered op c s).qm = s.qm := by simp [entered]
@[simp] theorem entered_se (op : BitVec 16) (c : Cmd) (s : State) : (entered op c s).se = s.se := by simp [entered]
@[simp] theorem entered_fr (op : BitVec 16) (c : Cmd) (s : State) : (entered op c s).fr = s.fr := by simp [entered]
@[simp] theorem entered_pe (op : BitVec 16) (c : Cmd) (s : State) : (entered op c s).pe = s.pe := by simp [entered]
@[simp] theorem entered_ar (op : BitVec 16) (c : Cmd) (s : State) : (entered op c s).ar = s.ar := by simp [entered]
@[simp] theorem entered_fb (op : BitVec 16) (c : Cmd) (s : State) : (entered op c s).fb = s.fb := by simp [entered]
@[simp] theorem entered_ps (op : BitVec 16) (c : Cmd) (s : State) : (entered op c s).ps = s.ps := by simp [entered]
@[simp] theorem entered_fo (op : BitVec 16) (c : Cmd) (s : State) : (entered op c s).fo = s.fo := by simp [entered]
@[simp] theorem entered_mi (op : BitVec 16) (c : Cmd) (s : State) : (entered op c s).mi = s.mi := by simp [entered]
@[simp] theorem entered_kv (op : BitVec 16) (c : Cmd) (s : State) : (entered op c s).kv = s.kv := by simp [entered]
@[simp] theorem entered_pmb (op : BitVec 16) (c : Cmd) (s : State) : (entered op c s).pmb = s.pmb := by simp [entered]
@[simp] theorem entered_jtag (op : BitVec 16) (c : Cmd) (s : State) : (entered op c s).jtag = s.jtag := by simp [entered]
@[simp] theorem entered_grd (op : BitVec 16) (c : Cmd) (s : State) : (entered op c s).grd = s.grd := by simp [entered]
@[simp] theorem entered_glob (op : BitVec 16) (c : Cmd) (s : State) : (entered op c s).glob = s.glob := by simp [entered]
@[simp] theorem entered_pending (op : BitVec 16) (c : Cmd) (s : State) : (entered op c s).pending = s.pending := by simp [entered]
@[simp] theorem entered_free (op : BitVec 16) (c : Cmd) (s : State) : (entered op c s).free = s.free := by simp [entered]
@[simp] theorem entered_im_inst (op : BitVec 16) (c : Cmd) (s : State) : (entered op c s).im.inst = s.im.inst := by simp [entered]
@[simp] theorem entered_im_latches (op : BitVec 16) (c : Cmd) (s : State) : (entered op c s).im.latches = s.im.latches := by simp [entered]
@[simp] theorem entered_im_ready (op : BitVec 16) (c : Cmd) (s : State) : (entered op c s).im.ready = s.im.ready := by simp [entered]
@[simp] theorem entered_im_route (op : BitVec 16) (c : Cmd) (s : State) : (entered op c s).im.route = s.im.route := by simp [entered]
@[simp] theorem entered_log_recs (op : BitVec 16) (c : Cmd) (s : State) : (entered op c s).log.recs = s.log.recs := by simp [entered]
@[simp] theorem entered_su_order (op : BitVec 16) (c : Cmd) (s : State) : (entered op c s).su.order = s.su.order := by simp [entered]
@[simp] theorem entered_su_rrLast (op : BitVec 16) (c : Cmd) (s : State) : (entered op c s).su.rrLast = s.su.rrLast := by simp [entered]
@[simp] theorem entered_su_m0Turn (op : BitVec 16) (c : Cmd) (s : State) : (entered op c s).su.m0Turn = s.su.m0Turn := by simp [entered]
@[simp] theorem entered_su_sessions (op : BitVec 16) (c : Cmd) (s : State) : (entered op c s).su.sessions = s.su.sessions := by simp [entered]
@[simp] theorem entered_su_sessNext (op : BitVec 16) (c : Cmd) (s : State) : (entered op c s).su.sessNext = s.su.sessNext := by simp [entered]
@[simp] theorem entered_su_armed (op : BitVec 16) (c : Cmd) (s : State) : (entered op c s).su.armed = s.su.armed := by simp [entered]
@[simp] theorem entered_su_resync (op : BitVec 16) (c : Cmd) (s : State) : (entered op c s).su.resync = s.su.resync := by simp [entered]
@[simp] theorem entered_su_resyncItems (op : BitVec 16) (c : Cmd) (s : State) : (entered op c s).su.resyncItems = s.su.resyncItems := by simp [entered]
@[simp] theorem entered_su_active (op : BitVec 16) (c : Cmd) (s : State) : (entered op c s).su.active = s.su.active := by simp [entered]
@[simp] theorem entered_su_pkg (op : BitVec 16) (c : Cmd) (s : State) : (entered op c s).su.pkg = s.su.pkg := by simp [entered]
@[simp] theorem entered_su_replies (op : BitVec 16) (c : Cmd) (s : State) : (entered op c s).su.replies = s.su.replies := by simp [entered]

@[simp] theorem getTcu_begun (n : Nat) (c : Cmd) (s : State) : getTcu (begun c s) n = getTcu s n := by simp [getTcu]
@[simp] theorem getTcu_entered (n : Nat) (op : BitVec 16) (c : Cmd) (s : State) : getTcu (entered op c s) n = getTcu s n := by simp [getTcu]
@[simp] theorem getSeg_begun (n : Nat) (c : Cmd) (s : State) : getSeg (begun c s) n = getSeg s n := by simp [getSeg]
@[simp] theorem getSeg_entered (n : Nat) (op : BitVec 16) (c : Cmd) (s : State) : getSeg (entered op c s) n = getSeg s n := by simp [getSeg]
@[simp] theorem getSession_begun (o : Tag) (c : Cmd) (s : State) : getSession (begun c s) o = getSession s o := by simp [getSession]
@[simp] theorem getSession_entered (o : Tag) (op : BitVec 16) (c : Cmd) (s : State) : getSession (entered op c s) o = getSession s o := by simp [getSession]
@[simp] theorem shareOwner_begun (k : ItemKind) (n : Nat) (c : Cmd) (s : State) : shareOwner (begun c s) k n = shareOwner s k n := by simp [shareOwner]
@[simp] theorem shareOwner_entered (k : ItemKind) (n : Nat) (op : BitVec 16) (c : Cmd) (s : State) : shareOwner (entered op c s) k n = shareOwner s k n := by simp [shareOwner]
@[simp] theorem stagingShare_begun (o : Tag) (c : Cmd) (s : State) : stagingShare (begun c s) o = stagingShare s o := by simp [stagingShare]
@[simp] theorem stagingShare_entered (o : Tag) (op : BitVec 16) (c : Cmd) (s : State) : stagingShare (entered op c s) o = stagingShare s o := by simp [stagingShare]
@[simp] theorem shareHas_begun (o : Tag) (k : ItemKind) (n : Nat) (c : Cmd) (s : State) : shareHas (begun c s) o k n = shareHas s o k n := by simp [shareHas]
@[simp] theorem shareHas_entered (o : Tag) (k : ItemKind) (n : Nat) (op : BitVec 16) (c : Cmd) (s : State) : shareHas (entered op c s) o k n = shareHas s o k n := by simp [shareHas]
@[simp] theorem logFull_begun (c : Cmd) (s : State) : logFull (begun c s) = logFull s := by simp [logFull]
@[simp] theorem logFull_entered (op : BitVec 16) (c : Cmd) (s : State) : logFull (entered op c s) = logFull s := by simp [logFull]
@[simp] theorem getSlot_begun (n : Nat) (c : Cmd) (s : State) : getSlot (begun c s) n = getSlot s n := by simp [getSlot]
@[simp] theorem getSlot_entered (n : Nat) (op : BitVec 16) (c : Cmd) (s : State) : getSlot (entered op c s) n = getSlot s n := by simp [getSlot]
@[simp] theorem getPoint_begun (n : Nat) (c : Cmd) (s : State) : getPoint (begun c s) n = getPoint s n := by simp [getPoint]
@[simp] theorem getPoint_entered (n : Nat) (op : BitVec 16) (c : Cmd) (s : State) : getPoint (entered op c s) n = getPoint s n := by simp [getPoint]
@[simp] theorem instState_begun (n : Nat) (c : Cmd) (s : State) : instState (begun c s) n = instState s n := by simp [instState]
@[simp] theorem instState_entered (n : Nat) (op : BitVec 16) (c : Cmd) (s : State) : instState (entered op c s) n = instState s n := by simp [instState]
@[simp] theorem getSw_begun (n : Nat) (c : Cmd) (s : State) : getSw (begun c s) n = getSw s n := by simp [getSw]
@[simp] theorem getSw_entered (n : Nat) (op : BitVec 16) (c : Cmd) (s : State) : getSw (entered op c s) n = getSw s n := by simp [getSw]
@[simp] theorem getPx_begun (n : Nat) (c : Cmd) (s : State) : getPx (begun c s) n = getPx s n := by simp [getPx]
@[simp] theorem getPx_entered (n : Nat) (op : BitVec 16) (c : Cmd) (s : State) : getPx (entered op c s) n = getPx s n := by simp [getPx]
@[simp] theorem getEng_begun (n : Nat) (c : Cmd) (s : State) : getEng (begun c s) n = getEng s n := by simp [getEng]
@[simp] theorem getEng_entered (n : Nat) (op : BitVec 16) (c : Cmd) (s : State) : getEng (entered op c s) n = getEng s n := by simp [getEng]
@[simp] theorem lifeCode_begun (c : Cmd) (s : State) : lifeCode (begun c s) = lifeCode s := by simp [lifeCode]
@[simp] theorem lifeCode_entered (op : BitVec 16) (c : Cmd) (s : State) : lifeCode (entered op c s) = lifeCode s := by simp [lifeCode]
@[simp] theorem now_begun (c : Cmd) (s : State) : (begun c s).now = s.now := by simp [State.now]
@[simp] theorem now_entered (op : BitVec 16) (c : Cmd) (s : State) : (entered op c s).now = s.now := by simp [State.now]
@[simp] theorem abs_begun (c : Cmd) (s : State) : (begun c s).abs = s.abs := by simp [State.abs, State.now]
@[simp] theorem abs_entered (op : BitVec 16) (c : Cmd) (s : State) : (entered op c s).abs = s.abs := by simp [State.abs, State.now]

end Sys2Proof.Machine
end

