-- ==== Sys2Proof/Laws/Crypto.lean ====
section
/-! SUPPORT. What is sealed with AES-GCM opens again (log 56). -/

namespace Sys2Proof.Machine

@[simp] theorem gcmCrypt_length (key : List Byte) (iv : BitVec 96) (text : List Byte) : (gcmCrypt key iv text).length = text.length := by
  simp [gcmCrypt]

/-- The key stream laid over a text twice gives the text. -/
theorem gcmCrypt_twice (key : List Byte) (iv : BitVec 96) (text : List Byte) : gcmCrypt key iv (gcmCrypt key iv text) = text := by
  apply List.ext_getElem
  · simp
  · intro n h1 h2
    simp [gcmCrypt]

/-- A sealed text opens under the same key, IV and associated data. -/
theorem gcmOpen_gcmSeal (key : List Byte) (iv : BitVec 96) (aad text : List Byte) :
    gcmOpen key iv aad (gcmSeal key iv aad text).1 (gcmSeal key iv aad text).2 = some text := by
  simp [gcmOpen, gcmSeal, gcmCrypt_twice]

end Sys2Proof.Machine
end

