-- ==== Sys2Proof/Laws/Memory.lean ====
section
/-! SUPPORT. The addressed memories: every operation keeps the canonical form, and a read sees the last write. -/

namespace Sys2Proof

theorem Memory.wf_tail {e : Nat × Byte} {m : Memory} (h : Memory.wf (e :: m) = true) : m.wf = true := by
  cases m with
  | nil => rfl
  | cons f m => simp [Memory.wf] at h; exact h.2

theorem Memory.wf_head {e : Nat × Byte} {m : Memory} (h : Memory.wf (e :: m) = true) : e.2 ≠ memDefault := by
  cases m with
  | nil => simpa [Memory.wf] using h
  | cons f m => simp [Memory.wf] at h; exact h.1.1

/-- A list behind an entry stays canonical where each of its addresses lies above it. -/
theorem Memory.wf_cons {e : Nat × Byte} {m : Memory} (he : e.2 ≠ memDefault) (hm : m.wf = true) (h : ∀ f ∈ m.head?, e.1 < f.1) :
    Memory.wf (e :: m) = true := by
  cases m with
  | nil => simpa [Memory.wf] using he
  | cons f m => simp [Memory.wf, hm, he]; exact h f (by simp)

theorem Memory.head_lt {e : Nat × Byte} {m : Memory} (h : Memory.wf (e :: m) = true) : ∀ f ∈ m.head?, e.1 < f.1 := by
  cases m with
  | nil => simp
  | cons f m => simp [Memory.wf] at h; simp; exact h.1.2

theorem Memory.write_head_ge (m : Memory) (a : Nat) (b : Byte) (k : Nat) (hk : k < a) (h : ∀ f ∈ m.head?, k < f.1) (hw : m.wf = true) :
    ∀ f ∈ (m.write a b).head?, k < f.1 := by
  cases m with
  | nil => unfold Memory.write; split <;> simp [hk]
  | cons e m =>
    have he : k < e.1 := h e (by simp)
    unfold Memory.write
    split
    · split
      · intro f hf; exact Nat.lt_trans he (Memory.head_lt hw f hf)
      · simp [hk]
    · split
      · split <;> simp [hk, he]
      · simp [he]

/-- A write keeps the canonical form. -/
theorem Memory.write_wf (m : Memory) (a : Nat) (b : Byte) (h : m.wf = true) : (m.write a b).wf = true := by
  induction m with
  | nil => unfold Memory.write; split <;> simp_all [Memory.wf]
  | cons e m ih =>
    have ht := Memory.wf_tail h
    have hd := Memory.wf_head h
    have hl := Memory.head_lt h
    unfold Memory.write
    split
    · rename_i ha
      split
      · exact ht
      · exact Memory.wf_cons (by assumption) ht (by intro f hf; have := hl f hf; simp at *; omega)
    · rename_i ha
      split
      · rename_i hlt
        split
        · exact h
        · exact Memory.wf_cons (by assumption) h (by simpa using hlt)
      · rename_i hge
        exact Memory.wf_cons hd (ih ht) (Memory.write_head_ge m a b e.1 (by omega) hl ht)

/-- Writing bytes one after another keeps the canonical form. -/
theorem Memory.writeN_wf (l : List Byte) : ∀ (m : Memory) (a : Nat), m.wf = true → (m.writeN a l).wf = true := by
  induction l with
  | nil => intro m a h; exact h
  | cons b l ih => intro m a h; exact ih _ _ (Memory.write_wf m a b h)

theorem Memory.read_below (m : Memory) (a : Nat) (hw : m.wf = true) (h : ∀ f ∈ m.head?, a < f.1) : m.read a = memDefault := by
  cases m with
  | nil => rfl
  | cons e m =>
    have he : a < e.1 := h e (by simp)
    unfold Memory.read
    rw [if_neg (by omega), if_pos he]

/-- A read gives the byte last written at its address, and every other address reads as before. -/
theorem Memory.read_write (m : Memory) (a : Nat) (b : Byte) (x : Nat) (h : m.wf = true) :
    (m.write a b).read x = if x = a then b else m.read x := by
  induction m with
  | nil =>
    unfold Memory.write
    split
    · rename_i hb; simp [Memory.read, hb]
    · by_cases hx : x = a
      · simp [Memory.read, hx]
      · rw [if_neg hx]; simp [Memory.read]; intro hh; exact absurd hh.symm hx
  | cons e m ih =>
    have ht := Memory.wf_tail h
    have hl := Memory.head_lt h
    unfold Memory.write
    by_cases ha : e.1 = a
    · rw [if_pos ha]
      split
      · rename_i hb
        by_cases hx : x = a
        · rw [if_pos hx, hb, hx]; exact Memory.read_below m a ht (by intro f hf; have := hl f hf; omega)
        · rw [if_neg hx]
          by_cases hx2 : x < e.1
          · rw [Memory.read_below m x ht (by intro f hf; have := hl f hf; omega)]
            simp [Memory.read, hx2]; omega
          · simp [Memory.read, hx2]; intro hh; omega
      · by_cases hx : x = a
        · simp [Memory.read, hx]
        · rw [if_neg hx]; have hax : ¬ a = x := fun hh => hx hh.symm; simp [Memory.read, ha, hax]
    · rw [if_neg ha]
      by_cases hlt : a < e.1
      · rw [if_pos hlt]
        split
        · rename_i hb
          by_cases hx : x = a
          · rw [if_pos hx, hb]; simp [Memory.read, hx, hlt]; omega
          · rw [if_neg hx]
        · by_cases hx : x = a
          · simp [Memory.read, hx]
          · rw [if_neg hx]
            conv => lhs; unfold Memory.read
            rw [if_neg (fun hh => hx hh.symm)]
            by_cases hx2 : x < a
            · rw [if_pos hx2]; simp [Memory.read]; rw [if_neg (by omega), if_pos (by omega)]
            · rw [if_neg hx2]
      · rw [if_neg hlt]
        have := ih ht
        by_cases hx : e.1 = x
        · simp [Memory.read, hx]; intro hh; omega
        · simp only [Memory.read, hx, if_false]
          by_cases hx2 : x < e.1
          · rw [if_pos hx2, if_pos hx2]; rw [if_neg (by omega)]
          · rw [if_neg hx2, if_neg hx2]; exact this

end Sys2Proof
end

