-- ==== Sys2Proof/Laws/Tahr.lean ====
section
/-! SUPPORT. What the shared operations of the Tahr engines answer where an engine stands at a whole word (`atWord`). -/

namespace Sys2Proof.Machine

/-- What `atWord` says. -/
theorem atWord_some {op : Nat} {zero : BitVec 64} {x : TahrOp} {s : State} {r : Region} {cyc : Cycle} {w : BitVec 64}
    (h : atWord op zero x s = some (r, cyc, w)) :
    (getEng s x.e.val).cycle = some cyc ∧ regionOf (getEng s x.e.val) cyc.owner = some r ∧ x.finding = .clean ∧ cyc.snap = false ∧
    ltReached (cycInstant cyc cyc.elapsed) (getEng s x.e.val).winEnd = false ∧ inCode r cyc.pc = true ∧
    (getEng s x.e.val).code.getD cyc.pc 0 = w ∧ wOp w = op ∧ w &&& zero = 0 := by
  unfold atWord at h
  dsimp only at h
  split at h
  · cases h
  · next c hc =>
    split at h
    · cases h
    · next r' hr =>
      split at h
      · next hw =>
        simp only [Option.some.injEq, Prod.mk.injEq] at h
        obtain ⟨rfl, rfl, rfl⟩ := h
        exact ⟨hc, hr, hw.1, hw.2.1, hw.2.2.1, hw.2.2.2.1, rfl, hw.2.2.2.2.1, hw.2.2.2.2.2⟩
      · cases h

/-- Where an engine stands at a whole word of the opcode, the instruction does what its meaning says: it raises its fault, or it completes if the
window leaves it its cycles (R323, R346, R360). -/
theorem tahr_atWord {op : Nat} {zero : BitVec 64} {x : TahrOp} {s : State} {r : Region} {cyc : Cycle} {w : BitVec 64}
    (h : atWord op zero x s = some (r, cyc, w)) (hop : opReserved op = false)
    (sem : State → TahrOp → Engine → Region → Cycle → BitVec 64 → TahrRes) :
    tahr op zero x sem s =
      match sem s x (getEng s x.e.val) r cyc w with
      | .fault code addr => faulted x s cyc w code addr
      | .done n g k => if inTime x s cyc n then ranTo x g { k with elapsed := cyc.elapsed + n } s else .next s := by
  obtain ⟨h1, h2, h3, h4, h5, h6, h7, h8, h9⟩ := atWord_some h
  subst h8
  simp only [tahr, h1, h2, h3, h4, h5, h6, h7, h9, hop]
  cases hs : sem s x (getEng s x.e.val) r cyc w with
  | fault c a =>
    simp only [faulted, Bool.not_true, ne_eq, not_true_eq_false, if_false, Bool.false_eq_true]
  | done n g k =>
    simp only [inTime, ranTo, Bool.not_true, ne_eq, not_true_eq_false, if_false, Bool.false_eq_true]
    by_cases hg : ltReached (getEng s x.e.val).winEnd (cycInstant cyc (cyc.elapsed + n)) = true
    · simp only [hg, Bool.not_true, Bool.false_eq_true, if_false, if_true]
    · simp only [hg, Bool.not_false, if_false, if_true, Bool.false_eq_true]

end Sys2Proof.Machine
end

