-- ==== Sys2Proof/Tests/Slice0.lean ====
section
/-! SUPPORT. Tests on fixed values, the WellFormed smoke tests, and for every statement with hypotheses a witness that meets them
(wit_<statement>_<clause>). -/

section
open Sys2Proof Sys2Proof.Machine
set_option maxRecDepth 20000
set_option Elab.async false

/-! ## WellFormed refuses an ill-formed term for each check -/

/-- A command of ring 0 of an instance. -/
def cmdOf (i : Nat) : Cmd := { ring := .inst i 0 }

theorem test_wf_inst_zero : (Instr.resetEnd 0).wellFormed = false := by decide
theorem test_wf_inst_65 : (Instr.imInstanceFreeze {} 65).wellFormed = false := by decide
theorem test_wf_inst_64 : (Instr.imInstanceFreeze {} 64).wellFormed = true := by decide
theorem test_wf_owner : (Instr.runWarm {} 65).wellFormed = false := by decide
theorem test_wf_ring_of_no_instance : (Instr.ringTailWrite (.inst 0 0) 0).wellFormed = false := by decide
theorem test_wf_ring_number : (Instr.ringTailWrite (.inst 1 2) 0).wellFormed = false := by decide
theorem test_wf_command_ring : (Instr.suNop (cmdOf 65)).wellFormed = false := by decide
theorem test_wf_command_plen : (Instr.suNop { plen := 65536 }).wellFormed = false := by decide
theorem test_wf_node : (Instr.stationAbsent 0 1).wellFormed = false := by decide
theorem test_wf_offset : (Instr.registerWrite 1 0x100000 0 .b64).wellFormed = false := by decide
theorem test_wf_offset_last : (Instr.registerWrite 0 0xFFFFFC 0 .b64).wellFormed = true := by decide
theorem test_wf_unit : (Instr.narrowUnitWrite 0 (.replicate 9 0) none).wellFormed = false := by decide

/-! ## Reset, and a queue with nothing in it -/

theorem test_reset_idle : State.reset.pending = [] := by decide
theorem test_no_word_spells_a_command : decodeTableWord 16 0x0010 = none := by decide

/-! ## The spec's worked examples -/

/-- "Scope, Levels and Conventions": a target 10 s ahead of 0x0000_1000_0000_0000 waits. -/
theorem test_target_ahead : ltReached 0x0000100000000000 0x0002640BE4000000 = false := by decide
/-- The same example: after 10 s it is reached. -/
theorem test_target_reached : ltReached (ltAdd 0x0000100000000000 (secTu 10)) 0x0002640BE4000000 = true := by decide
/-- The same example: a target 50 h ahead reads as reached. -/
theorem test_target_too_far : ltReached 0x0000100000000000 (ltAdd 0x0000100000000000 (secTu 180000)) = true := by decide
/-- "The Time Base", a target across the wrap: it waits at arming and when LT has wrapped, and is reached 50 ms from arming. -/
theorem test_target_across_wrap : ltReached 0xFFFFFF0000000000 0x000001FAF0800000 = false ∧ ltReached 0 0x000001FAF0800000 = false ∧
    ltReached (ltAdd 0xFFFFFF0000000000 (msTu 50)) 0x000001FAF0800000 = true := by decide
/-- "The Time Base", a one-hour sleep: LT_wake and the uncertainty. -/
theorem test_one_hour_sleep :
    (rebuildTime { State.reset with
      tb := { State.reset.tb with src := { State.reset.tb.src with rtcDrift := 50 } },
      pa := { State.reset.pa with
              rtc := 117964800
              ret := { calC := BitVec.ofNat 64 (2000020000 * 65536), calLt := 1000000000000000000, calUnref := false } } }).now
      = 1235931959296000000 ∧
    (rebuildTime { State.reset with
      tb := { State.reset.tb with src := { State.reset.tb.src with rtcDrift := 50 } },
      pa := { State.reset.pa with
              rtc := 117964800
              ret := { calC := BitVec.ofNat 64 (2000020000 * 65536), calLt := 1000000000000000000, calUnref := false } } }).tb.ltUncert
      = 18030698 := by decide
/-- "The Chamois Fabric": the cells of a 64-byte, a 1,536-byte and a 9,774-byte frame. -/
theorem test_cells : cellsOf 64 = 1 ∧ cellsOf 1536 = 13 ∧ cellsOf 9774 = 77 := by decide
/-- "Register Map", identity of a stepping B1 part. -/
theorem test_su_id : suId { State.reset with glob := { State.reset.glob with stepping := 0x4231 } } = 0x42317780 := by decide
/-- "Event Logs, Guard Code and Events", a corrupted tag: the check symbols of a word of zeros with tag 0x05. -/
theorem test_guard_check_symbols : (guardEncode (.replicate 32 0) 5)[33] = 0x1B ∧ (guardEncode (.replicate 32 0) 5)[34] = 0x36 ∧
    (guardEncode (.replicate 32 0) 5)[35] = 0x28 := by decide +kernel
/-- The same example: the tag read as 0x07 is an error of 0x02 in s32, and the tag after correction is 0x05. -/
theorem test_guard_corrects_tag : guardJudge ((guardEncode (.replicate 32 0) 5).set 32 7) = .corrected 32 0x02 ∧
    guardTag ((guardEncode (.replicate 32 0) 5).set 32 7) = some 5 := by decide +kernel
/-- The CRC-32 of the parameters of R163 has the check value 0xCBF4_3926 over the digits 1 to 9. -/
theorem test_crc32 : crc32 [0x31, 0x32, 0x33, 0x34, 0x35, 0x36, 0x37, 0x38, 0x39] = 0xCBF43926 := by decide +kernel

/-! ## Witnesses -/

/-- A device that has started. -/
def up : State := { State.reset with glob := { State.reset.glob with ready := true } }
/-- A state in which a command is the next of its ring to start. -/
def asked (op : BitVec 16) (c : Cmd) (s : State) : State := putRing s c.ring { (getRing s c.ring).getD {} with dispatch := [(c, op)] }
/-- A device with unit `k` armed for a reached target and a destination. -/
def dueUnit (k : Nat) (d : BitVec 8) : State := modTcu k (fun u => { u with en := true, dest := d }) up
/-- A device with the last pin unit due. -/
def duePin : State := modTcu 19 (fun u => { u with en := true })
  { up with tb := { up.tb with taiValid := true, pinCfg := { up.tb.pinCfg with out := .replicate 12 { en := true, period := 65536000 } } } }
/-- A PTP clock with port 0 a slave. -/
def ptpSlave : State := { up with tb := { up.tb with cfg := { up.tb.cfg with enabled := true, ports := [{ port := 0 }] }, ptp := .replicate 14 { state := .slave } } }
/-- A PTP clock with port 0 a one-step master. -/
def ptpMaster : State :=
  { up with tb := { up.tb with cfg := { up.tb.cfg with enabled := true, ports := [{ port := 0, oneStepSync := true }] }, ptp := .replicate 14 { state := .master } } }
/-- The manager's session open with nothing staged. -/
def opened : State := { up with su := { up.su with sessions := [(0, { state := .opened, id := 1 })] } }
/-- The manager's session open with one staged item. -/
def stagedOne : State := { up with su := { up.su with sessions := [(0, { state := .opened, id := 1, staged := [.tPsw 16] })] } }
/-- The manager's session open with a group whose tolerance is out of range staged. -/
def badOpened : State := { up with su := { up.su with sessions := [(0, { state := .opened, id := 1, staged := [.group 0 { tolUs := 5000 }] })] } }
/-- The manager's session checked, with nothing staged. -/
def checked : State := { up with su := { up.su with sessions := [(0, { state := .checked, id := 1 })] } }
/-- Manager ring 0 with one command submitted. -/
def fetchable : State := { up with su := { up.su with mring := .replicate 4 { en := true, tail := 1, size := 4 } } }
/-- A package being verified. -/
def verifying : State :=
  { up with kv := { up.kv with slot := [(0, { state := .valid, dest := 0x400 })] }, su := { up.su with pkg := { loading := some ({}, .verifying, { cmd := {}, opcode := 0x18 }) } } }
/-- Every Ethernet port enabled. -/
def pxUp : State := { up with px := { up.px with ready := true, port := .replicate 14 { cfg := { phy := .base1000 } } } }
/-- Every port idle with its link up, and a copy in every transmit queue. -/
def txReady : State :=
  { up with
    px := { up.px with ready := true, port := .replicate 14 { cfg := { phy := .base1000 }, linkUp := true } }
    sw := { up.sw with ready := true, port := .replicate 16 { link := .up, queues := .replicate 8 [{ queued := true }] } } }
/-- Power domain `n` on. -/
def onDomain (n : Nat) : State := modPd n (fun d => { d with state := .on }) up
/-- PD2 on, and a valid key for MACsec on every port in slot 0. -/
def macKey : State := { onDomain 2 with kv := { up.kv with slot := [(0, { state := .valid, dest := 0xFFFFFFFF })] } }
/-- The settings of the cabinet station of the witnesses. -/
def cabStn : StnCfg := { node := 31 }
/-- A frame of that station. -/
def cabReport : CabFrame := { type := .report, node := 31, etype := 0x88B5 }
/-- Both cabinet segments enabled, with that station absent. -/
def cabUp : State :=
  { up with
    qm := { up.qm with ready := true }
    fo := { up.fo with seg := .replicate 2 { cfg := { en := true, etype := 0x88B5, stations := [cabStn] }, stn := .replicate 32 { state := .absent } } } }
/-- The same, the station having reported in this cycle. -/
def cabDup : State :=
  { cabUp with
    fo := { cabUp.fo with
      seg := .replicate 2 { cfg := { en := true, etype := 0x88B5, stations := [cabStn] }, stn := .replicate 32 { state := .present, reported := true } } } }
/-- The same, the station's slot having passed without a report. -/
def cabMissed : State :=
  { cabUp with
    tb := { cabUp.tb with acc := 0x400000000000000000 }
    fo := { cabUp.fo with
      seg := .replicate 2 { cfg := { en := true, n := 1, stations := [cabStn] }, imageEnd := some 0, stn := .replicate 32 { state := .present } } } }
/-- SE ready with one subscription, and a one-word packet in every INGEST queue. -/
def ingest : State :=
  { up with
    se := { up.se with ready := true, svCfg := [(0, { svId := [1] })] }
    qm := { up.qm with ready := true, q := (List.range 8).map (fun q => (q, { words := [{ last := true }] })) } }
/-- The same with one GOOSE subscription. -/
def ingestGo : State := { ingest with se := { up.se with ready := true, gsCfg := [(1023, {})] } }
/-- One GOOSE block with a noted state change. -/
def gooseUp : State := { up with se := { up.se with ready := true, gpCfg := [(255, {})], gp := [(255, { pendingAt := some 0 })] } }
/-- One GOOSE block whose retransmission is due. -/
def gooseSent : State := { up with se := { up.se with ready := true, gpCfg := [(255, {})], gp := [(255, { nextAt := some 0 })] } }
/-- The manager's session open, every power domain on. -/
def staging : State := { opened with pa := { opened.pa with pd := .replicate 9 { state := .on } } }
/-- Every power domain on, and every part of the multi-part commands in use: lanes, channels, streams and subscriptions enabled, recorders armed,
every port learning. -/
def busy : State :=
  { staging with
    px := { up.px with ready := true, port := .replicate 14 { cfg := { phy := .base1000 } } }
    sw := { up.sw with ports := { up.sw.ports with learn := .replicate 14 true } }
    fo := { up.fo with seg := .replicate 2 { cfg := { en := true, stations := [cabStn] } } }
    fr := { up.fr with lane := [(1023, { state := .running })] }
    se := { up.se with sv := [(511, { state := .lost })] }
    pe := { up.pe with str := [(63, { used := true })] }
    ar := { up.ar with recorder := .replicate 8 { state := .armed } } }
/-- Every domain on and FR, PE, AR and FO ready. -/
def engines : State :=
  { staging with
    fr := { up.fr with ready := true }
    pe := { up.pe with ready := true }
    ar := { up.ar with ready := true } }
/-- A lane with an output to release. -/
def laneDue : State :=
  { engines with
    fr := { engines.fr with lane := [(1023, { state := .running, fIn := 4800, inCount := 2, inputs := [{ tag := 1000000000 }, { tag := 0 }] })] } }
/-- A channel whose span was cut short. -/
def chanDue : State :=
  { engines with
    pe := { engines.pe with ch := [(1023, { state := .running, cfg := { fe := 50 }, secs := [0], line := [{ tlen := 5, tc := 10 }] })] } }
/-- A tracking group in `t` whose estimate is old and whose cycle has ended. -/
def trkDue (t : TrkState) : State :=
  { engines with
    tb := { engines.tb with acc := 0x2000000000000000000000 }
    fr := { engines.fr with trk := [(63, { state := t, est := some (50000000, 0), cyc := some { len := cycleLen 50000000 } })] } }
/-- A stream with a frame due; no channel takes part in it. -/
def streamDue : State :=
  { engines with
    tb := { engines.tb with acc := 0x2000000000000000000000 }
    pe := { engines.pe with str := [(63, { used := true, on := true, cfg := { lmaxMs := some 10 }, secs := [0], cfgChg := true })] } }
/-- The same, the stream with a channel without an estimate. -/
def streamLate : State :=
  { streamDue with
    pe := { streamDue.pe with str := [(63, { used := true, cfg := { lmaxMs := some 10, pmus := [{}] }, secs := [0] })] } }
/-- A locked WSL link with its first convert edge long past. -/
def wslUp : State :=
  { engines with
    tb := { engines.tb with acc := 0x2000000000000000000000 }
    ar := { engines.ar with wsl := .replicate 8 { cfg := { en := true, latMax := 200, k := 200 }, state := .locked, bases := [(0, 0x20000000000000)] } } }
/-- Every recorder armed with settings of its own. -/
def recUp : State :=
  { engines with
    tb := { engines.tb with acc := 0x2000000000000000000000 }
    ar := { engines.ar with
      recorder := .replicate 8 { state := .armed, run := some { nextTick := 0x1000000 }, held := [{ no := 1 }, { no := 2, closed := true }] } } }
/-- The last FAST_EDGE input with a point. -/
def edgeUp : State := { engines with ar := { engines.ar with edge := .replicate 24 { cfg := { point := some 0 }, fifo := [0] } } }
/-- Engine 47 in a task cycle, its next word `w`; every register but V0 holds 8. -/
def atCode (w : BitVec 64) : State :=
  { engines with
    fb := { engines.fb with
      eng := [(47, {
        v := .replicate 64 8, domain := .on, winEnd := 0x4000000000000000, code := [(5, w)], stack := [(4, 9)],
        regions := [{ engine := 47, codeBase := 4, codeLen := 4, dataLen := 1024 }],
        cycle := some { snap := false, pc := 5, imports := [{}], nExp := 1 } })] } }
/-- The same instruction as its command names it. -/
def on47 : TahrOp := { e := 47 }
/-- A running FB: a window of owner 0 open on engine 47, a task released on it. -/
def fbUp : State :=
  { engines with
    tb := { engines.tb with acc := 0x2000000000000000000000, tcu := .replicate 32 { en := true, periodic := true, period := 65536 } }
    fb := { engines.fb with
      running := true, ticks := 100, own := [(0, { state := .hold, pending := [{ cmd := .stop, at_ := 0 }] })], frameLt := 0x10000000000000,
      tasks := [((0, 255), { engine := 47, state := .active, released := some (0, 0), cfg := { kind := .timed 20 } })],
      eng := [(47, { domain := .on, win := some {}, winEnd := 0x30000000000000 })] } }
/-- The same, its window at its end. -/
def fbEnd : State := modEng 47 (fun g => { g with winEnd := 0 }) fbUp
/-- The same with a cycle in its snapshot. -/
def fbSnap : State := modEng 47 (fun g => { g with cycle := some { task := 255 } }) fbUp
/-- A ready Point Store: point 0 is a host INT32 with a maximum age of 1 ms, long written; one batch of it waits. -/
def psUp : State :=
  { engines with
    tb := { engines.tb with acc := 0x2000000000000000000000 }
    ps := { engines.ps with
      ready := true, recs := [(0, { owner := 0, type := .int32 })], defs := [(0, { type := .int32, writer := .host, staleAge := 1 })],
      waiting := [{ writes := [{ index := 0, value := 5, writer := .host }] }], force := [(1, {})], dropped := [(2, {})] } }
/-- An active FO with the partner present, not active and eligible, everything of it due. -/
def foUp : State :=
  { psUp with
    fo := { psUp.fo with
      state := .active, partner := .present, linkUp := true, gateOpen := true, claim := 0x101, eMem := 1, hb := { eligible := true },
      handoverAt := some 0, witnessHeld := true, swapAt := [(0, { cmd := {}, opcode := 0x0E11 })],
      repl := { psUp.fo.repl with sent := false, captures := [(0, [{ data := List.replicate 32 0 }])], rx := [(0, { completeAt := some 0 })] } } }
/-- The same in another role. -/
def foAs (r : FoRole) : State := { foUp with fo := { foUp.fo with state := r } }
/-- An unsealed metrology die with point 0 metering and the seal switch closed, long after reset. -/
def miUp : State :=
  { engines with
    tb := { engines.tb with acc := 0x2000000000000000000000 }
    mi := { engines.mi with powered := true, sealSt := .unsealed, sealClosed := true, params := some (List.replicate 160 0 ++ [1]) } }
/-- A platform AES-256 key that may do all its type may. -/
def kvAes : KeySlot := { type := .aes256, level := 1, parent := 0x400, exportable := true, dest := 0x77, material := List.replicate 32 0, state := .valid }
/-- A private and a public P-256 key. -/
def kvPriv : KeySlot := { type := .p256Priv, level := 1, parent := 0x400, dest := 0x280, material := List.replicate 32 1, state := .valid }
/-- The Key Vault ready, with a key of each kind. -/
def kvUp : State :=
  { engines with
    kv := { engines.kv with
      ready := true, lcPairs := 0, slot := [(1, kvAes), (2, kvPriv), (3, { kvPriv with type := .p256Pub, dest := 0x100, material := List.replicate 64 1 }),
        (4, { kvAes with type := .hmac, dest := 0x18 })] } }
/-- A blob of an AES-128 key under that key, with the tag that verifies. -/
def kvBlob : KvBlob :=
  { type := 1, len := 16, destLimit := 1, text := List.replicate 16 0
    tag := Config.gcmTag (List.replicate 32 0) 0 (blobHeader { type := 1, len := 16, destLimit := 1 }) (List.replicate 16 0) }
/-- Shares of the instance of the witnesses. -/
def imShares : SharesCfg := { queues := [0xFE, 0xFF], hostQueues := 2, dmaSlots := [0], apertures := [(0, 0x100000)] }
/-- Instance 64 active and running, at a frame that has just begun; PERST_N high. -/
def imUp : State :=
  { kvUp with
    tb := { kvUp.tb with acc := 0x2000000000000000000000 }
    glob := { kvUp.glob with perstN := true }
    qm := { kvUp.qm with ready := true, cap := [(0xFE, { cap := 1024, toHost := some false }), (0xFF, { cap := 1024, toHost := some true })], q := [(0xFF, { words := [{ tag := 64, last := true }] })] }
    fb := { kvUp.fb with running := true, frameLt := 0x10000000000000, own := [(64, { state := .run })] }
    im := { kvUp.im with inst := [(64, { state := .active, shares := imShares })] } }
/-- The same instance in another state. -/
def imAs (x : InstState) : State := { imUp with im := { imUp.im with inst := [(64, { state := x, shares := imShares })] } }
/-- The instance frozen, its state saved. -/
def imSaved : State := { imUp with im := { imUp.im with inst := [(64, { state := .frozen, saved := some {} })] } }
/-- A host queue in each direction with a descriptor posted. -/
def imOut : HostQ := { qnum := 0xFF, toHost := true, tail := 1 }
/-- The one from the host. -/
def imIn : HostQ := { qnum := 0xFE, tail := 1 }
/-- The instance with both. -/
def imHq : State := { imUp with im := { imUp.im with inst := [(64, { state := .active, shares := imShares, hq := [(0, imOut), (1, imIn)] })] } }
/-- A device that runs and serves, long after reset, every domain on. -/
def paRun : State :=
  { staging with
    tb := { staging.tb with acc := 0x2000000000000000000000 }
    pa := { staging.pa with power := .running, pwrOk := true, rtcRunning := true } }
/-- The same with every domain off. -/
def paOff : State := { paRun with pa := { paRun.pa with pd := .replicate 9 { state := .off } } }
/-- A device with a sleep request. -/
def paSleepy : State := { paRun with pa := { paRun.pa with sleepReq := some ({}, 3, 100) } }
/-- A starting device in which a set of phases has ended. -/
def paStart (l : BitVec 12) : State :=
  { State.reset with pa := { State.reset.pa with power := .running, pwrOk := true, rtcRunning := true, ended := l } }
/-- The next state of a command, or the state itself. -/
def after (c : Instr) (s : State) : State :=
  match exec c s with
  | .next t => t
  | _ => s
/-- The bytes of a code image of owner 0 with four words on engine 0. -/
def codeBytes : List Byte :=
  [0x54, 0x41, 0x48, 0x52, 1, 0, 1, 0] ++ List.replicate 56 0 ++ ([0, 0, 0, 0, 4, 0] ++ List.replicate 10 0 ++ [128] ++ List.replicate 47 0) ++ List.replicate 32 0
/-- A parameter set that passes R455: its header, and every point disabled. -/
def zeroSet : List Byte := [0x4D, 0x45, 0x54, 0x52, 1, 0, 50, 1] ++ List.replicate 4248 0

theorem zeroSet_byte (o : Nat) (h : 8 ≤ o) : pByte zeroSet o = 0 := by
  unfold pByte zeroSet
  rw [List.getD_append_right _ _ _ _ (by simpa using h)]
  simp only [List.getD_eq_getElem?_getD, List.getElem?_replicate]
  split <;> rfl

theorem zeroSet_point (p : Nat) : pointOk zeroSet p = true := by
  have h (o : Nat) : pByte zeroSet (pPoint p + o) = 0 := zeroSet_byte _ (by unfold pPoint; omega)
  unfold pointOk
  simp only [h]
  rw [Bool.and_eq_true, Bool.and_eq_true]
  refine ⟨⟨List.all_eq_true.2 (fun _ _ => rfl), rfl⟩, rfl⟩

theorem zeroSet_ok : setOk zeroSet = true := by
  unfold setOk
  have h0 : pF0 zeroSet = 50 := rfl
  have h1 : pByte zeroSet 7 = 1 := rfl
  have h2 : p32 zeroSet 0 = 0x5254454D := rfl
  have h3 : p16 zeroSet 4 = 1 := rfl
  have h4 : (List.range 24).all (fun i => pByte zeroSet (8 + i) == 0) = true :=
    List.all_eq_true.2 (fun i _ => by rw [zeroSet_byte _ (by omega)]; rfl)
  have h5 : (List.range 8).all (pointOk zeroSet) = true := List.all_eq_true.2 (fun p _ => zeroSet_point p)
  have h6 : zeroSet.length = 4256 := by simp [zeroSet]
  simp only [h0, h1, h2, h3, h4, h5, h6]
  rfl
theorem hash_off : ofBytesBE (bytesBE 32 ((miHash miUp).toNat + 1)) ≠ (miHash miUp).toNat := by
  rw [ofBytesBE_bytesBE]
  have := (miHash miUp).isLt
  omega
/-- Instance 64 active with key slots 1019 to 1023, where it has a P-256 key pair, an AES-256 and an HMAC key, and without an engine slot. -/
def kvInst : State :=
  { kvUp with
    im := { kvUp.im with inst := [(64, { state := .active, shares := { ranges := [(.keySlot, 1019, 5)] } })] }
    kv := { kvUp.kv with
      slot := [(1019, { kvPriv with type := .p256Pub, owner := 64, dest := 0x100, material := List.replicate 64 1 }), (1020, { kvPriv with owner := 64 }),
        (1021, { kvAes with owner := 64 }), (1022, { kvAes with owner := 64, type := .hmac, dest := 0x18 })] } }
/-- A revoked key in slot 1. -/
def kvGone : State := { kvUp with kv := { kvUp.kv with slot := [(1, { kvAes with state := .revoked })] } }
/-- An AES-128 key in slot 5 that may wrap keys. -/
def kvGone2 : State := { kvUp with kv := { kvUp.kv with slot := [(1, kvAes), (5, { kvAes with type := .aes128, material := List.replicate 16 0 })] } }
/-- The event log full. -/
def kvFull : State := { kvUp with log := { kvUp.log with recs := List.replicate 65520 {} } }
theorem kvFull_log : logFull kvFull = true := by
  unfold logFull
  exact decide_eq_true (show 65520 ≤ (List.replicate 65520 ({} : LogRec)).length by rw [List.length_replicate])
theorem kvFull_full (op : BitVec 16) (c : Cmd) (h : opDomain op.toNat = none := by decide) : logFull (entered op c (asked op c kvFull)) = true := by
  have h1 : (asked op c kvFull).log = kvFull.log := by unfold asked putRing; split <;> rfl
  rw [entered_none h]
  show decide (65520 ≤ (begun c (asked op c kvFull)).log.recs.length) = true
  rw [begun_log, h1]
  exact kvFull_log
theorem gcm_bad : gcmOpen kvAes.material kvBlob.iv (blobHeader { kvBlob with tag := kvBlob.tag + 1 }) kvBlob.text (kvBlob.tag + 1) = none := by
  unfold gcmOpen
  rw [if_neg]
  intro h
  have h2 : kvBlob.tag = kvBlob.tag + 1 := h
  generalize kvBlob.tag = x at h2
  bv_omega
/-- The header of a blob for instance `i` of a part, sealed under a slot, of one section. -/
def imHead (slot part i len : Nat) : List Byte :=
  bytesLE 4 0x4D495356 ++ bytesLE 2 1 ++ bytesLE 2 0x80 ++ bytesLE 8 len ++ bytesLE 4 part ++ [BitVec.ofNat 8 i, 0, 0, 0] ++ List.replicate 12 0 ++
  bytesLE 2 1 ++ bytesLE 2 slot ++ List.replicate 88 0
/-- A blob with a given text and tag. -/
def imRaw (slot part i : Nat) (text : List Byte) (tag : BitVec 128) : List Byte :=
  imHead slot part i (144 + text.length) ++ text ++ bytesBE 16 tag.toNat
/-- The tag of a text under the key of slot 1. -/
def imTag (text : List Byte) : BitVec 128 := Config.gcmTag (List.replicate 32 0) 0 (imHead 1 0x7780 64 (144 + text.length)) text
/-- A body with one section, of run state 0, which stands at 137 + `n`. -/
def imBody (n : Nat) : List Byte := [7, 0, 0xFF, 0, 3, 0, 0, 0] ++ bytesLE 8 (137 + n) ++ [0, 0, 0]
/-- The blob of that body for instance 64. -/
def imBlob (n : Nat) : List Byte :=
  imRaw 1 0x7780 64 (gcmCrypt (List.replicate 32 0) 0 (imBody n)) (imTag (gcmCrypt (List.replicate 32 0) 0 (imBody n)))
theorem imRaw_head (slot part i : Nat) (text : List Byte) (tag : BitVec 128) :
    (imRaw slot part i text tag).take 128 = imHead slot part i (144 + text.length) := rfl
theorem imRaw_rest (slot part i : Nat) (text : List Byte) (tag : BitVec 128) :
    (imRaw slot part i text tag).drop 128 = text ++ bytesBE 16 tag.toNat := rfl
theorem imRaw_open (s : State) (text : List Byte) (tag : BitVec 128) (h : (getSlot s 1).material = List.replicate 32 0) :
    gcmOpen (getSlot s (ofBytesLE (((imRaw 1 0x7780 64 text tag).drop 0x26).take 2))).material (headerIv ((imRaw 1 0x7780 64 text tag).take 128))
      ((imRaw 1 0x7780 64 text tag).take 128)
      (((imRaw 1 0x7780 64 text tag).drop 128).take (((imRaw 1 0x7780 64 text tag).drop 128).length - 16))
      (BitVec.ofNat 128 (ofBytesBE (((imRaw 1 0x7780 64 text tag).drop 128).drop (((imRaw 1 0x7780 64 text tag).drop 128).length - 16)))) =
    if imTag text = tag then some (gcmCrypt (List.replicate 32 0) 0 text) else none := by
  have hk : ofBytesLE (((imRaw 1 0x7780 64 text tag).drop 0x26).take 2) = 1 := rfl
  have hi : headerIv (imHead 1 0x7780 64 (144 + text.length)) = 0 := rfl
  have hl : (text ++ bytesBE 16 tag.toNat).length - 16 = text.length := by simp
  have ht : BitVec.ofNat 128 (ofBytesBE (bytesBE 16 tag.toNat)) = tag := by
    rw [ofBytesBE_bytesBE]
    apply BitVec.eq_of_toNat_eq
    have := tag.isLt
    simp only [BitVec.toNat_ofNat]
    omega
  rw [hk, h, imRaw_head, imRaw_rest, hi, hl, List.take_left, List.drop_left, ht]
  rfl
theorem imBlob_gcm {s : State} (n : Nat) (h : (getSlot s 1).material = List.replicate 32 0) :
    gcmOpen (getSlot s (ofBytesLE (((imBlob n).drop 0x26).take 2))).material (headerIv ((imBlob n).take 128))
      ((imBlob n).take 128)
      (((imBlob n).drop 128).take (((imBlob n).drop 128).length - 16))
      (BitVec.ofNat 128 (ofBytesBE (((imBlob n).drop 128).drop (((imBlob n).drop 128).length - 16)))) = some (imBody n) := by
  unfold imBlob
  rw [imRaw_open s _ _ h, if_pos rfl, gcmCrypt_twice]
theorem imBlob_bad {s : State} (h : (getSlot s 1).material = List.replicate 32 0) :
    gcmOpen (getSlot s (ofBytesLE (((imRaw 1 0x7780 64 [] (imTag [] + 1)).drop 0x26).take 2))).material (headerIv ((imRaw 1 0x7780 64 [] (imTag [] + 1)).take 128))
      ((imRaw 1 0x7780 64 [] (imTag [] + 1)).take 128)
      (((imRaw 1 0x7780 64 [] (imTag [] + 1)).drop 128).take (((imRaw 1 0x7780 64 [] (imTag [] + 1)).drop 128).length - 16))
      (BitVec.ofNat 128 (ofBytesBE (((imRaw 1 0x7780 64 [] (imTag [] + 1)).drop 128).drop (((imRaw 1 0x7780 64 [] (imTag [] + 1)).drop 128).length - 16)))) = none := by
  rw [imRaw_open s _ _ h, if_neg]
  generalize imTag [] = x
  intro h2
  bv_omega
theorem imBlob_ok (s : State) (hm : (getSlot s 1).material = List.replicate 32 0) (hk : blobKeyRefusal s 1 1 = none)
    (hc : (getInst s 64).configHash = 0) :
    openBlob 64 (imBlob 7) s = .ok (readSections s 64 ((imBlob 7).take 128) [(7, 0xFF, [0, 0, 0])]) := by
  unfold openBlob
  simp only [imBlob_gcm 7 hm]
  rw [if_neg (by decide +kernel), if_neg (by decide +kernel), if_neg (by decide +kernel)]
  have h26 : ofBytesLE (((imBlob 7).drop 0x26).take 2) = 1 := rfl
  have h24 : ofBytesLE (((imBlob 7).drop 0x24).take 2) = 1 := rfl
  have h50 : ofBytesBE ((((imBlob 7).take 128).drop 0x50).take 32) = 0 := rfl
  simp only [h26, h24, hk, h50, hc]
  rfl

theorem wit_EmptyQueueTicks :
    (∃ (s : State), (s.pending = []) ∧ (s.pa.power = .running)) ∧
    (∃ (s : State), (s.pending = []) ∧ (s.pa.power = .running) ∧ (s.jtag.drive = []) ∧ (s.jtag.tap = .reset)) ∧
    (∃ (s : State), (s.pending = []) ∧ (s.pa.power ≠ .running)) :=
  ⟨⟨up, (by decide), (by decide)⟩,
   ⟨up, (by decide), (by decide), (by decide), (by decide)⟩,
   ⟨{ up with pa := { up.pa with power := .asleep } }, (by decide), (by decide)⟩⟩

theorem wit_EngineInvariantKept : ∃ (s t : State), (s.memoriesWf = true) ∧ (s.v0Zero = true) ∧ (step s = .next t) :=
  ⟨up, timeTick up, (by decide), (by decide), (by rfl)⟩

theorem wit_DepthsKept : ∃ (s t : State), (s.depthsOk = true) ∧ (step s = .next t) :=
  ⟨up, timeTick up, (by decide), (by rfl)⟩

theorem wit_LtMovesOnlyWithTheClock : ∃ (c : Instr) (s t : State), ((∀ r, c ≠ .duikerRestoreDone r)) ∧ ((∀ d n a, c ≠ .kvLcAdvance d n a)) ∧ (c ≠ .ioSupplyLow) ∧ ((∀ k, c ≠ .brownoutReset k)) ∧ (exec c s = .next t) :=
  ⟨.thermTrip, up, onGlob (fun g => { g with thermTripN := false }) up, (by intros; nofun), (by intros; nofun), (by decide), (by intros; nofun), (by rfl)⟩

theorem wit_RetainedBytes :
    (∃ (c : Instr) (s t : State), ((∀ d o l, c ≠ .paRetainWrite d o l)) ∧ ((∀ k, c ≠ .duikerBrownout k)) ∧ (exec c s = .next t)) ∧
    (∃ (c : Cmd) (o : Nat) (l : List Byte) (s t : State) (a : Nat), (s.pa.ret.mem.wf = true) ∧ (exec (.paRetainWrite c o l) s = .next t) ∧ (a < o ∨ o + l.length ≤ a)) ∧
    (∃ (c : Cmd) (o : Nat) (l : List Byte) (s t : State) (k : Nat), (s.pa.ret.mem.wf = true) ∧ (runs 0x0F13 false c s = true) ∧ (0x100 ≤ o) ∧ (o % 32 = 0) ∧ (l.length % 32 = 0) ∧ (o + l.length ≤ 0x1000) ∧ (s.pa.regLow = false) ∧ (k < l.length) ∧ (exec (.paRetainWrite c o l) s = .next t)) :=
  ⟨⟨.thermTrip, up, onGlob (fun g => { g with thermTripN := false }) up, (by intros; nofun), (by intros; nofun), (by rfl)⟩,
   ⟨{}, 0xFE0, List.replicate 32 1, (asked 0x0F13 {} up), after (.paRetainWrite {} 0xFE0 (List.replicate 32 1)) (asked 0x0F13 {} up), 0xFDF, (by decide), (by rfl), (by decide)⟩,
   ⟨{}, 0xFE0, List.replicate 32 1, (asked 0x0F13 ({}) (up)), after (.paRetainWrite {} 0xFE0 (List.replicate 32 1)) (asked 0x0F13 ({}) (up)), 31, (by decide), (by decide), (by decide), (by decide), (by decide), (by decide), (by decide), (by decide), (by rfl)⟩⟩

theorem wit_TahrMemoryFrame :
    (∃ (x : TahrOp) (s t : State) (cyc : Cycle) (a : Nat), ((getEng s x.e.val).cycle = some cyc) ∧ ((getEng s x.e.val).mem.wf = true) ∧ (exec (.tahrSt x) s = .next t) ∧ (a < memAddr (getEng s x.e.val) ((getEng s x.e.val).code.getD cyc.pc 0) ∨ memAddr (getEng s x.e.val) ((getEng s x.e.val).code.getD cyc.pc 0) + 8 ≤ a)) ∧
    (∃ (x : TahrOp) (s t : State) (cyc : Cycle) (a : Nat), ((getEng s x.e.val).cycle = some cyc) ∧ ((getEng s x.e.val).mem.wf = true) ∧ (exec (.tahrStw x) s = .next t) ∧ (a < memAddr (getEng s x.e.val) ((getEng s x.e.val).code.getD cyc.pc 0) ∨ memAddr (getEng s x.e.val) ((getEng s x.e.val).code.getD cyc.pc 0) + 4 ≤ a)) ∧
    (∃ (x : TahrOp) (s t : State) (cyc : Cycle) (a : Nat), ((getEng s x.e.val).cycle = some cyc) ∧ ((getEng s x.e.val).mem.wf = true) ∧ (exec (.tahrStb x) s = .next t) ∧ (a < memAddr (getEng s x.e.val) ((getEng s x.e.val).code.getD cyc.pc 0) ∨ memAddr (getEng s x.e.val) ((getEng s x.e.val).code.getD cyc.pc 0) + 1 ≤ a)) ∧
    (∃ (i : Instr) (s t : State) (_e : Nat), ((reach i).1 = .tahr) ∧ ((∀ x, i ≠ .tahrSt x ∧ i ≠ .tahrStw x ∧ i ≠ .tahrStb x)) ∧ (exec i s = .next t)) ∧
    (∃ (x : TahrOp) (s t : State) (e : Nat), (e ≠ x.e.val) ∧ (exec (.tahrSt x) s = .next t ∨ exec (.tahrStw x) s = .next t ∨ exec (.tahrStb x) s = .next t)) :=
  ⟨⟨on47, atCode 0x5404000000000000, after (.tahrSt on47) (atCode 0x5404000000000000), { snap := false, pc := 5, imports := [{}], nExp := 1 }, 8 + 8, (by rfl), (by decide), (by rfl), (by decide)⟩,
   ⟨on47, atCode 0x5504000000000000, after (.tahrStw on47) (atCode 0x5504000000000000), { snap := false, pc := 5, imports := [{}], nExp := 1 }, 8 + 8, (by rfl), (by decide), (by rfl), (by decide)⟩,
   ⟨on47, atCode 0x5604000000000000, after (.tahrStb on47) (atCode 0x5604000000000000), { snap := false, pc := 5, imports := [{}], nExp := 1 }, 8 + 8, (by rfl), (by decide), (by rfl), (by decide)⟩,
   ⟨.tahrNop on47, up, up, 47, (by rfl), (by intros; constructor <;> (try constructor) <;> nofun), (by rfl)⟩,
   ⟨on47, up, up, 46, (by decide), (by left; rfl)⟩⟩

theorem wit_FrameOfTahr : ∃ (i : Instr) (s t : State), ((reach i).1 = .tahr) ∧ (exec i s = .next t) :=
  ⟨.tahrNop on47, up, after (.tahrNop on47) up, (by rfl), (by rfl)⟩

theorem wit_FrameOfNetwork : ∃ (i : Instr) (s t : State), ((reach i).1 = .network) ∧ (exec i s = .next t) :=
  ⟨.ltNowRead 0 false, State.reset, after (.ltNowRead 0 false) State.reset, (by rfl), (by rfl)⟩

theorem wit_FrameOfSignal : ∃ (i : Instr) (s t : State), ((reach i).1 = .signal) ∧ (exec i s = .next t) :=
  ⟨.tdcCalibrationDone 0 (.replicate 128 0), State.reset, after (.tdcCalibrationDone 0 (.replicate 128 0)) State.reset, (by rfl), (by rfl)⟩

theorem wit_FrameOfControl : ∃ (i : Instr) (s t : State), ((reach i).1 = .control) ∧ (exec i s = .next t) :=
  ⟨.snapshotDone 0, up, after (.snapshotDone 0) up, (by rfl), (by rfl)⟩

theorem wit_FrameOfPlatform : ∃ (i : Instr) (s t : State), ((reach i).1 = .platform) ∧ (exec i s = .next t) :=
  ⟨.thermTrip, up, after (.thermTrip) up, (by rfl), (by rfl)⟩

theorem wit_LtIsComparedBySignedDifference :
    (∃ (_a : LT) (d : Int), (-(2 ^ 63 : Int) < d) ∧ (d < 2 ^ 63)) ∧
    (∃ (s : State) (n : Fin 12), ((getTcu s (20 + n.val)).en = true) ∧ (ltReached s.now (getTcu s (20 + n.val)).target = false)) :=
  ⟨⟨0xFFFFFF0000000000, 3276800000000, (by decide), (by decide)⟩,
   ⟨modTcu 31 (fun u => { u with en := true, target := 1 }) up, 11, (by decide), (by decide)⟩⟩

theorem wit_UpperHalvesAreLatched :
    (∃ (q o q1 o1 : Nat) (_v : BitVec 64) (_s : State), (q1 ≠ q ∨ o1 ≠ o)) ∧
    (∃ (_q _o : Nat) (s : State), (s.glob.ready = true)) ∧
    (∃ (_q _o : Nat) (_v : BitVec 64) (s : State), (s.glob.ready = true)) ∧
    (∃ (_q : Nat) (s : State), (s.glob.ready = true)) :=
  ⟨⟨1, 2, 2, 2, 3, up, (by decide)⟩,
   ⟨0, 0, up, (by decide)⟩,
   ⟨0, 0, 1, up, (by decide)⟩,
   ⟨0, up, (by decide)⟩⟩

theorem wit_ColdPowerUpStartsLt :
    (∃ (r : BitVec 48) (s t : State), (phaseDue 2 [1] s = true) ∧ (s.pa.slept = false) ∧ (exec (.duikerRestoreDone r) s = .next t)) ∧
    (∃ (s : State), (s.pa.power = .running)) :=
  ⟨⟨1, paStart 2, after (.duikerRestoreDone 1) (paStart 2), (by decide), (by decide), (by rfl)⟩,
   ⟨up, (by decide)⟩⟩

theorem wit_ValuesAreNormalised :
    (∃ (v : BitVec 64), (v ≠ 0)) ∧
    (∃ (_v : BitVec 64) (k : Nat), (k < 64)) ∧
    (∃ (w : PtWrite) (s : State) (r : PointRec), (getPoint s w.index = some r)) ∧
    (∃ (c : Cmd) (i : Nat) (v : BitVec 64) (y : Quality) (s : State) (r : PointRec), (getPoint s i = some r) ∧ ((setForce c (i, v, y) s).2 = .ok)) :=
  ⟨⟨2, (by decide)⟩,
   ⟨0x80000000, 63, (by decide)⟩,
   ⟨{ index := 0, value := 5 }, psUp, { owner := 0, type := .int32 }, (by decide)⟩,
   ⟨{}, 0, 7, 0, psUp, { owner := 0, type := .int32 }, (by decide), (by decide)⟩⟩

theorem wit_DestMustSuitTheType :
    (∃ (c : Cmd) (k : KvNew) (s : State) (t : KeyType) (lv : BitVec 3) (d : BitVec 32), (newKey c k s = .ok (t, lv, d))) ∧
    (∃ (c : Cmd) (k : KvNew) (s : State) (t : KeyType) (lv : BitVec 3) (d : BitVec 32) (e : Status), (slotRefusal c k.slot s = none) ∧ ((getSlot s k.slot).state = .empty ∧ k.replace = false ∨ (getSlot s k.slot).state = .valid ∧ k.replace = true) ∧ (k.type = some t) ∧ (t ≠ .empty) ∧ (parentLevel c k.parent s = .ok lv) ∧ (askedDest k t = some d) ∧ (destRefusal t (issuer c) d = some e)) ∧
    (∃ (c : Cmd) (k : KvNew) (s : State) (_m _a : List Byte) (_v : Option (Nat × List Byte)) (e : Status), (kvRuns 0x0C10 ((k.type.map isPub).getD false) c s = true) ∧ (newKey c k (entered 0x0C10 c s) = .error e)) :=
  ⟨⟨{}, { slot := 1023, type := some .aes256, parent := 1, dest := 1 }, kvUp, .aes256, 2, 1, (by decide)⟩,
   ⟨{}, { slot := 1023, type := some .aes256, parent := 1, dest := 8 }, kvUp, .aes256, 2, 8, .badParam, (by decide), (by decide), (by decide), (by decide), (by decide), (by decide), (by decide)⟩,
   ⟨{}, { slot := 1023, type := some .aes256, parent := 1, dest := 8 }, (asked 0x0C10 ({}) (kvUp)), [], [], none, .badParam, (by decide), (by decide)⟩⟩

theorem wit_FirmwareVersionIsRaised :
    (∃ (c : Cmd) (s : State), (s.glob.ready = true) ∧ (due 0x0C31 c s = true) ∧ (dropped c (begun c s) = false) ∧ (issuer c ≠ 0)) ∧
    (∃ (c : Cmd) (s : State), (runs 0x0C31 false c s = true) ∧ (s.kv.otherSvn < s.kv.svn.toNat)) ∧
    (∃ (c : Cmd) (s : State), (runs 0x0C31 false c s = true) ∧ (s.kv.svn.toNat ≤ s.kv.otherSvn) ∧ (logFull s = false)) :=
  ⟨⟨{ ring := .inst 64 0 }, (asked 0x0C31 ({ ring := .inst 64 0 }) (imUp)), (by decide), (by decide), (by decide), (by decide)⟩,
   ⟨{}, (asked 0x0C31 ({}) ({ kvUp with kv := { kvUp.kv with svn := 64 } })), (by decide), (by decide)⟩,
   ⟨{}, (asked 0x0C31 ({}) (kvUp)), (by decide), (by decide), (by decide)⟩⟩

theorem wit_ErrorRecordsAreKept :
    (∃ (_r _q : Nat) (_g : Tag) (_h : GuardHit) (s : State), (s.grd.recs.length < 16)) ∧
    (∃ (_r _q : Nat) (_g : Tag) (_h : GuardHit) (s : State), (16 ≤ s.grd.recs.length)) ∧
    (∃ (s : State), (s.grd.recs = [])) ∧
    (∃ (s : State) (e : ErrRec) (l : List ErrRec), (s.grd.recs = e :: l) ∧ (e.reqTag < 256)) ∧
    (∃ (_q : Nat) (_w : Bool) (s : State), (s.glob.ready = true)) :=
  ⟨⟨0, 16, 0, {}, up, (by decide)⟩,
   ⟨0, 16, 0, {}, { up with grd := { up.grd with recs := List.replicate 16 {} } }, (by decide)⟩,
   ⟨up, (by decide)⟩,
   ⟨{ up with grd := { up.grd with recs := [{ lt := 0x0102030405060708 }] } }, { lt := 0x0102030405060708 }, [], (by decide), (by decide)⟩,
   ⟨0, true, up, (by decide)⟩⟩

theorem wit_CallsAndReturns :
    (∃ (x : TahrOp) (s : State) (r : Region) (cyc : Cycle) (w : BitVec 64), (atWord 0x87 (zD ||| zB ||| zC ||| 0xFFFFE000) x s = some (r, cyc, w)) ∧ (inTime x s cyc 3 = true) ∧ (inCode r (w.extractLsb' 0 13).toNat = true) ∧ ((getEng s x.e.val).stack.length < 16)) ∧
    (∃ (x : TahrOp) (s : State) (r : Region) (cyc : Cycle) (w : BitVec 64) (p : Nat × BitVec 64) (l : List (Nat × BitVec 64)), (atWord 0x88 (zD ||| zA ||| zB ||| zC ||| zI) x s = some (r, cyc, w)) ∧ (inTime x s cyc 3 = true) ∧ ((getEng s x.e.val).stack = p :: l)) ∧
    (∃ (x : TahrOp) (s : State) (r : Region) (cyc : Cycle) (w : BitVec 64), (atWord 0x87 (zD ||| zB ||| zC ||| 0xFFFFE000) x s = some (r, cyc, w)) ∧ (inCode r (w.extractLsb' 0 13).toNat = true) ∧ (16 ≤ (getEng s x.e.val).stack.length)) ∧
    (∃ (x : TahrOp) (s : State) (r : Region) (cyc : Cycle) (w : BitVec 64), (atWord 0x88 (zD ||| zA ||| zB ||| zC ||| zI) x s = some (r, cyc, w)) ∧ ((getEng s x.e.val).stack = [])) ∧
    (∃ (x : TahrOp) (s : State) (r : Region) (cyc : Cycle) (w : BitVec 64), (atWord 0x87 (zD ||| zB ||| zC ||| 0xFFFFE000) x s = some (r, cyc, w)) ∧ (inCode r (w.extractLsb' 0 13).toNat = false)) ∧
    (∃ (x : TahrOp) (s t : State) (r : Region) (cyc : Cycle) (w : BitVec 64), (atWord 0x87 (zD ||| zB ||| zC ||| 0xFFFFE000) x s = some (r, cyc, w)) ∧ (inTime x s cyc 3 = true) ∧ (wA w = 62) ∧ (inCode r (w.extractLsb' 0 13).toNat = true) ∧ ((getEng s x.e.val).stack.length < 16) ∧ (exec (.tahrFbcall x) s = .next t)) :=
  ⟨⟨on47, atCode 0x8700100000000006, _, _, _, (rfl), (rfl), (by decide), (by decide)⟩,
   ⟨on47, atCode 0x8800000000000000, _, _, _, (4, 9), [], (rfl), (rfl), (rfl)⟩,
   ⟨on47, modEng 47 (fun g => { g with stack := List.replicate 16 (4, 9) }) (atCode 0x8700100000000006), _, _, _, (rfl), (by decide), (by decide)⟩,
   ⟨on47, modEng 47 (fun g => { g with stack := [] }) (atCode 0x8800000000000000), _, _, _, (rfl), (rfl)⟩,
   ⟨on47, atCode 0x8700100000000009, _, _, _, (rfl), (by decide)⟩,
   ⟨on47, atCode 0x8703E00000000006, after (.tahrFbcall on47) (atCode 0x8703E00000000006), _, _, _, (rfl), (rfl), (by decide), (by decide), (by decide), (by rfl)⟩⟩

theorem wit_CompareUnitsFire_part1 :
    (∃ (s : State) (n : Fin 12), (tcuDue s (20 + n.val) = false)) ∧
    (∃ (s : State) (n : Fin 12), (tcuDue s (20 + n.val) = true) ∧ ((getTcu s (20 + n.val)).dest = 0x20)) ∧
    (∃ (s : State) (n : Fin 12), (tcuDue s (20 + n.val) = true) ∧ ((getTcu s (20 + n.val)).dest = 0x21)) ∧
    (∃ (s : State) (n : Fin 12), (tcuDue s (20 + n.val) = true) ∧ ((getTcu s (20 + n.val)).dest = 0x26)) ∧
    (∃ (s : State) (n : Fin 12), (tcuDue s (20 + n.val) = true) ∧ (0x22 ≤ (getTcu s (20 + n.val)).dest.toNat ∧ (getTcu s (20 + n.val)).dest.toNat ≤ 0x25)) ∧
    (∃ (s : State) (n : Fin 12), (tcuDue s (20 + n.val) = true) ∧ ((getTcu s (20 + n.val)).dest.toNat < 0x20 ∨ 0x26 < (getTcu s (20 + n.val)).dest.toNat)) ∧
    (∃ (_s : State) (n : Nat), (n < 32)) ∧
    (∃ (s : State) (k : Fin 12), (tcuDue s (8 + k.val) = false)) ∧
    (∃ (s : State) (k : Fin 12), (tcuDue s (8 + k.val) = true) ∧ (pinRuns (fireTcu (8 + k.val) s) k.val = true)) ∧
    (∃ (s : State) (k : Fin 12), (tcuDue s (8 + k.val) = true) ∧ (pinRuns (fireTcu (8 + k.val) s) k.val = false)) ∧
    (∃ (s : State) (k : Fin 12) (f : LT), (s.tb.pins[k].fallAt = some f) ∧ (ltReached s.now f = true)) ∧
    (∃ (s : State) (k : Fin 12), ((∀ f, s.tb.pins[k].fallAt = some f → ltReached s.now f = false))) :=
  ⟨⟨up, 11, (by decide)⟩,
   ⟨dueUnit 20 0x20, 0, (by decide), (by decide)⟩,
   ⟨dueUnit 31 0x21, 11, (by decide), (by decide)⟩,
   ⟨dueUnit 20 0x26, 0, (by decide), (by decide)⟩,
   ⟨dueUnit 20 0x25, 0, (by decide), (by decide)⟩,
   ⟨dueUnit 20 0, 0, (by decide), (by decide)⟩,
   ⟨up, 31, (by decide)⟩,
   ⟨up, 11, (by decide)⟩,
   ⟨duePin, 11, (by decide), (by decide)⟩,
   ⟨modTcu 19 (fun u => { u with en := true }) up, 11, (by decide), (by decide)⟩,
   ⟨{ up with tb := { up.tb with pins := .replicate 12 { level := true, fallAt := some 0 } } }, 0, 0, (by decide), (by decide)⟩,
   ⟨up, 0, (by intro f hf; cases hf)⟩⟩

theorem wit_CompareUnitsFire_part2 :
    (∃ (s : State) (k : Fin 12) (l : Bool) (_i : LT) (_f : Option LT), (k.val ≠ 4 + s.tb.pinCfg.loopback.val ∨ s.tb.pins[k].level = l)) ∧
    (∃ (s : State) (k : Fin 12) (l : Bool) (_i : LT) (_f : Option LT), (k.val = 4 + s.tb.pinCfg.loopback.val) ∧ (s.tb.pins[k].level ≠ l)) :=
  ⟨⟨up, 11, true, 0, none, (by decide)⟩,
   ⟨up, 4, true, 0, none, (by decide), (by decide)⟩⟩

theorem wit_TimeMappingPtpAndInputs_part1 :
    (∃ (s : State), (s.tb.taiValid = true) ∧ ((s.tb.taiS.toNat : Int) < (taiOf s.tb s.now).ediv (secTu 1))) ∧
    (∃ (s : State), (s.tb.taiValid = false ∨ (taiOf s.tb s.now).ediv (secTu 1) ≤ (s.tb.taiS.toNat : Int))) ∧
    (∃ (s : State) (m : Int), (measuredOffset s.tb = some m) ∧ (s.tb.lossAt = none) ∧ (s.tb.servo = .acquiring ∨ s.tb.servo = .locked) ∧ (s.tb.taiValid = false)) ∧
    (∃ (s : State) (m : Int), (measuredOffset s.tb = some m) ∧ (s.tb.lossAt = none) ∧ (s.tb.servo = .acquiring ∨ s.tb.servo = .locked) ∧ (s.tb.taiValid = true) ∧ (nsTu s.tb.cfg.stepThr < m.natAbs)) ∧
    (∃ (s : State) (m : Int), (measuredOffset s.tb = some m) ∧ (s.tb.lossAt = none) ∧ (s.tb.servo = .acquiring ∨ s.tb.servo = .locked) ∧ (s.tb.taiValid = true) ∧ (m.natAbs ≤ nsTu s.tb.cfg.stepThr)) ∧
    (∃ (s : State), (measuredOffset s.tb = none ∨ s.tb.lossAt.isSome = true ∨ s.tb.servo = .freerun ∨ s.tb.servo = .holdover)) ∧
    (∃ (s : State), (s.tb.source = .irig) ∧ (s.tb.lossAt = none)) ∧
    (∃ (s : State), (s.tb.source = .ptp) ∧ (s.tb.lossAt = none) ∧ ((∀ q : Nat, q ≠ s.tb.slavePort.toNat → (vget s.tb.ptp q {}).announce = none))) ∧
    (∃ (s : State), (s.tb.source = .ptp)) ∧
    (∃ (s : State), (s.tb.source = .none ∨ (s.tb.source = .irig ∧ s.tb.lossAt.isSome = true))) ∧
    (∃ (s : State) (l : LT), (s.tb.lossAt = some l) ∧ (ltReached s.now l = true) ∧ (bestSource s.tb ≠ .none)) ∧
    (∃ (s : State) (l : LT), (s.tb.lossAt = some l) ∧ (ltReached s.now l = true) ∧ (bestSource s.tb = .none) ∧ (s.tb.servo = .locked ∨ (s.tb.servo = .acquiring ∧ s.tb.everLocked = true))) :=
  ⟨⟨{ up with tb := { up.tb with taiValid := true, acc := 281474976710656000000000 } }, (by decide), (by decide)⟩,
   ⟨up, (by decide)⟩,
   ⟨{ up with tb := { up.tb with source := .irig, irig := { up.tb.irig with measured := some 5 }, servo := .acquiring } }, 5, (by decide), (by decide), (by decide), (by decide)⟩,
   ⟨{ up with tb := { up.tb with source := .irig, irig := { up.tb.irig with measured := some 65536000000000 }, servo := .acquiring, taiValid := true } }, 65536000000000, (by decide), (by decide), (by decide), (by decide), (by decide)⟩,
   ⟨{ up with tb := { up.tb with source := .irig, irig := { up.tb.irig with measured := some 0 }, servo := .locked, taiValid := true } }, 0, (by decide), (by decide), (by decide), (by decide), (by decide)⟩,
   ⟨up, (by decide)⟩,
   ⟨{ up with tb := { up.tb with source := .irig } }, (by decide), (by decide)⟩,
   ⟨{ up with tb := { up.tb with source := .ptp } }, (by decide), (by decide), (by intro q _; unfold vget; simp only [Vector.getElem?_replicate, up, State.reset]; split <;> rfl)⟩,
   ⟨{ up with tb := { up.tb with source := .ptp } }, (by decide)⟩,
   ⟨up, (by decide)⟩,
   ⟨{ up with tb := { up.tb with lossAt := some 0, ptpQualified := true, src := { up.tb.src with ptpEn := true } } }, 0, (by decide), (by decide), (by decide)⟩,
   ⟨{ up with tb := { up.tb with lossAt := some 0, servo := .locked } }, 0, (by decide), (by decide), (by decide), (by decide)⟩⟩

theorem wit_TimeMappingPtpAndInputs_part2 :
    (∃ (s : State) (l : LT), (s.tb.lossAt = some l) ∧ (ltReached s.now l = true) ∧ (bestSource s.tb = .none) ∧ (s.tb.servo ≠ .locked) ∧ ((s.tb.servo = .acquiring → s.tb.everLocked = false))) ∧
    (∃ (s : State), ((∀ l, s.tb.lossAt = some l → ltReached s.now l = false))) ∧
    (∃ (s : State) (p : Fin 14) (m : PtpMsg) (_rx : LT), (ptpPortCfg s.tb p.val = none ∨ m.domain ≠ s.tb.cfg.domain)) ∧
    (∃ (s : State) (p : Fin 14) (m : PtpMsg) (_rx : LT) (a : Announce), ((ptpPortCfg s.tb p.val).isSome = true) ∧ (m.domain = s.tb.cfg.domain) ∧ (m.type = .announce) ∧ (m.ann = some a) ∧ (annLooped s.tb a = false)) ∧
    (∃ (s : State) (p : Fin 14) (m : PtpMsg) (_rx : LT), ((ptpPortCfg s.tb p.val).isSome = true) ∧ (m.domain = s.tb.cfg.domain) ∧ (m.type = .announce) ∧ ((m.ann = none ∨ ∃ a, m.ann = some a ∧ annLooped s.tb a = true))) ∧
    (∃ (s : State) (p : Fin 14) (m : PtpMsg) (_rx : LT), ((ptpPortCfg s.tb p.val).isSome = true) ∧ (m.domain = s.tb.cfg.domain) ∧ (m.type = .sync) ∧ (s.tb.ptp[p].state = .slave) ∧ (m.twoStep = true)) ∧
    (∃ (s : State) (p : Fin 14) (m : PtpMsg) (_rx : LT), ((ptpPortCfg s.tb p.val).isSome = true) ∧ (m.domain = s.tb.cfg.domain) ∧ (m.type = .sync) ∧ (s.tb.ptp[p].state = .slave) ∧ (m.twoStep = false)) ∧
    (∃ (s : State) (p : Fin 14) (m : PtpMsg) (_rx : LT), ((ptpPortCfg s.tb p.val).isSome = true) ∧ (m.domain = s.tb.cfg.domain) ∧ (m.type = .sync ∨ m.type = .followUp) ∧ (s.tb.ptp[p].state ≠ .slave)) ∧
    (∃ (s : State) (p : Fin 14) (m : PtpMsg) (_rx : LT) (y k : Int), ((ptpPortCfg s.tb p.val).isSome = true) ∧ (m.domain = s.tb.cfg.domain) ∧ (m.type = .followUp) ∧ (s.tb.ptp[p].state = .slave) ∧ (s.tb.ptp[p].syncRx = some (m.seq, y, k))) ∧
    (∃ (s : State) (p : Fin 14) (m : PtpMsg) (_rx : LT), ((ptpPortCfg s.tb p.val).isSome = true) ∧ (m.domain = s.tb.cfg.domain) ∧ (m.type = .followUp) ∧ ((∀ y k, s.tb.ptp[p].syncRx ≠ some (m.seq, y, k)))) ∧
    (∃ (s : State) (p : Fin 14) (m : PtpMsg) (_rx : LT), ((ptpPortCfg s.tb p.val).isSome = true) ∧ (m.domain = s.tb.cfg.domain) ∧ (m.type = .delayReq) ∧ (s.tb.ptp[p].state = .master) ∧ (s.tb.cfg.delay = .e2e)) ∧
    (∃ (s : State) (p : Fin 14) (m : PtpMsg) (_rx : LT), ((ptpPortCfg s.tb p.val).isSome = true) ∧ (m.domain = s.tb.cfg.domain) ∧ (m.type = .pdelayReq) ∧ (s.tb.ptp[p].state ≠ .disabled) ∧ (s.tb.cfg.delay = .p2p)) :=
  ⟨⟨{ up with tb := { up.tb with lossAt := some 0, servo := .acquiring } }, 0, (by decide), (by decide), (by decide), (by decide), (by decide)⟩,
   ⟨up, (by intro l hl; cases hl)⟩,
   ⟨up, 0, {}, 0, (by decide)⟩,
   ⟨ptpSlave, 0, { type := .announce, ann := some {} }, 0, {}, (by decide), (by decide), (by decide), (by decide), (by decide)⟩,
   ⟨ptpSlave, 0, { type := .announce }, 0, (by decide), (by decide), (by decide), (by left; rfl)⟩,
   ⟨ptpSlave, 0, { type := .sync, twoStep := true }, 0, (by decide), (by decide), (by decide), (by decide), (by decide)⟩,
   ⟨ptpSlave, 0, { type := .sync }, 0, (by decide), (by decide), (by decide), (by decide), (by decide)⟩,
   ⟨ptpMaster, 0, { type := .sync }, 0, (by decide), (by decide), (by decide), (by decide)⟩,
   ⟨modPtp 0 (fun x => { x with syncRx := some (0, 7, 1) }) ptpSlave, 0, { type := .followUp }, 0, 7, 1, (by decide), (by decide), (by decide), (by decide), (by decide)⟩,
   ⟨ptpSlave, 0, { type := .followUp }, 0, (by decide), (by decide), (by decide), (by intro y k; nofun)⟩,
   ⟨{ ptpMaster with tb := { ptpMaster.tb with cfg := { ptpMaster.tb.cfg with delay := .e2e } } }, 0, { type := .delayReq }, 0, (by decide), (by decide), (by decide), (by decide), (by decide)⟩,
   ⟨{ ptpMaster with tb := { ptpMaster.tb with cfg := { ptpMaster.tb.cfg with delay := .p2p } } }, 0, { type := .pdelayReq }, 0, (by decide), (by decide), (by decide), (by decide), (by decide)⟩⟩

theorem wit_TimeMappingPtpAndInputs_part3 :
    (∃ (s : State) (p : Fin 14) (m : PtpMsg) (_rx : LT), ((ptpPortCfg s.tb p.val).isSome = true) ∧ (m.domain = s.tb.cfg.domain) ∧ ((m.type = .delayReq ∧ (s.tb.ptp[p].state ≠ .master ∨ s.tb.cfg.delay ≠ .e2e)) ∨ (m.type = .pdelayReq ∧ (s.tb.ptp[p].state = .disabled ∨ s.tb.cfg.delay ≠ .p2p)) ∨ m.type = .other)) ∧
    (∃ (s : State) (p : Fin 14) (m : PtpMsg) (_rx : LT) (y : Int), ((ptpPortCfg s.tb p.val).isSome = true) ∧ (m.domain = s.tb.cfg.domain) ∧ (m.type = .delayResp) ∧ (m.requester = portIdentity p.val) ∧ (s.tb.ptp[p].delayTx = some (m.seq, y))) ∧
    (∃ (s : State) (p : Fin 14) (m : PtpMsg) (_rx : LT) (y : Int), ((ptpPortCfg s.tb p.val).isSome = true) ∧ (m.domain = s.tb.cfg.domain) ∧ (m.type = .pdelayResp) ∧ (m.requester = portIdentity p.val) ∧ (s.tb.ptp[p].delayTx = some (m.seq, y)) ∧ (m.twoStep = true)) ∧
    (∃ (s : State) (p : Fin 14) (m : PtpMsg) (_rx : LT) (y : Int), ((ptpPortCfg s.tb p.val).isSome = true) ∧ (m.domain = s.tb.cfg.domain) ∧ (m.type = .pdelayResp) ∧ (m.requester = portIdentity p.val) ∧ (s.tb.ptp[p].delayTx = some (m.seq, y)) ∧ (m.twoStep = false)) ∧
    (∃ (s : State) (p : Fin 14) (m : PtpMsg) (_rx : LT) (b d k : Int) (y : BitVec 16 × Int), ((ptpPortCfg s.tb p.val).isSome = true) ∧ (m.domain = s.tb.cfg.domain) ∧ (m.type = .pdelayRespFollowUp) ∧ (m.requester = portIdentity p.val) ∧ (s.tb.ptp[p].pdelayRx = some (m.seq, b, d, k)) ∧ (s.tb.ptp[p].delayTx = some y)) ∧
    (∃ (s : State) (p : Fin 14) (m : PtpMsg) (_rx : LT), ((ptpPortCfg s.tb p.val).isSome = true) ∧ (m.domain = s.tb.cfg.domain) ∧ (m.type = .delayResp ∨ m.type = .pdelayResp ∨ m.type = .pdelayRespFollowUp) ∧ (m.requester ≠ portIdentity p.val ∨ s.tb.ptp[p].delayTx = none)) ∧
    (∃ (s : State) (p : Fin 14) (m : PtpMsg) (_rx : LT), ((ptpPortCfg s.tb p.val).isSome = true) ∧ (m.domain = s.tb.cfg.domain) ∧ ((((m.type = .delayResp ∨ m.type = .pdelayResp) ∧ ∀ y, s.tb.ptp[p].delayTx ≠ some (m.seq, y)) ∨ (m.type = .pdelayRespFollowUp ∧ ∀ b d k, s.tb.ptp[p].pdelayRx ≠ some (m.seq, b, d, k))))) ∧
    (∃ (s : State) (p : Fin 14) (_t : PtpMsgType), (ptpPortCfg s.tb p.val = none)) ∧
    (∃ (s : State) (p : Fin 14) (c : PtpPortCfg), (ptpPortCfg s.tb p.val = some c) ∧ (s.tb.ptp[p].state = .master)) ∧
    (∃ (s : State) (p : Fin 14) (c : PtpPortCfg), (ptpPortCfg s.tb p.val = some c) ∧ (s.tb.ptp[p].state = .master)) ∧
    (∃ (s : State) (p : Fin 14) (c : PtpPortCfg), (ptpPortCfg s.tb p.val = some c) ∧ (s.tb.ptp[p].state = .slave) ∧ (s.tb.cfg.delay = .e2e)) ∧
    (∃ (s : State) (p : Fin 14) (c : PtpPortCfg), (ptpPortCfg s.tb p.val = some c) ∧ (s.tb.ptp[p].state ≠ .disabled) ∧ (s.tb.cfg.delay = .p2p)) :=
  ⟨⟨ptpSlave, 0, {}, 0, (by decide), (by decide), (by decide)⟩,
   ⟨modPtp 0 (fun x => { x with delayTx := some (0, 7) }) ptpSlave, 0, { type := .delayResp, requester := portIdentity 0 }, 0, 7, (by decide), (by decide), (by decide), (by rfl), (by decide)⟩,
   ⟨modPtp 0 (fun x => { x with delayTx := some (0, 7) }) ptpSlave, 0, { type := .pdelayResp, requester := portIdentity 0, twoStep := true }, 0, 7, (by decide), (by decide), (by decide), (by rfl), (by decide), (by decide)⟩,
   ⟨modPtp 0 (fun x => { x with delayTx := some (0, 7) }) ptpSlave, 0, { type := .pdelayResp, requester := portIdentity 0 }, 0, 7, (by decide), (by decide), (by decide), (by rfl), (by decide), (by decide)⟩,
   ⟨modPtp 0 (fun x => { x with pdelayRx := some (0, 1, 2, 3), delayTx := some (0, 7) }) ptpSlave, 0, { type := .pdelayRespFollowUp, requester := portIdentity 0 }, 0, 1, 2, 3, (0, 7), (by decide), (by decide), (by decide), (by rfl), (by decide), (by decide)⟩,
   ⟨ptpSlave, 0, { type := .delayResp }, 0, (by decide), (by decide), (by decide), (by right; rfl)⟩,
   ⟨ptpSlave, 0, { type := .delayResp }, 0, (by decide), (by decide), (by left; exact ⟨.inl rfl, by intro y; nofun⟩)⟩,
   ⟨up, 0, .sync, (by decide)⟩,
   ⟨ptpMaster, 0, { port := 0, oneStepSync := true }, (by decide), (by decide)⟩,
   ⟨ptpMaster, 0, { port := 0, oneStepSync := true }, (by decide), (by decide)⟩,
   ⟨{ ptpSlave with tb := { ptpSlave.tb with cfg := { ptpSlave.tb.cfg with delay := .e2e } } }, 0, { port := 0 }, (by decide), (by decide), (by decide)⟩,
   ⟨{ ptpSlave with tb := { ptpSlave.tb with cfg := { ptpSlave.tb.cfg with delay := .p2p } } }, 0, { port := 0 }, (by decide), (by decide), (by decide)⟩⟩

theorem wit_TimeMappingPtpAndInputs_part4 :
    (∃ (s : State) (p : Fin 14) (t : PtpMsgType), (t = .sync ∨ t = .announce ∨ t = .delayReq ∨ t = .pdelayReq ∨ t = .other) ∧ (ptpMaySend s.tb.ptp[p].state s.tb.cfg.delay t = false)) ∧
    (∃ (s : State) (p : Fin 14) (c : PtpPortCfg), (ptpPortCfg s.tb p.val = some c)) ∧
    (∃ (s : State) (n : Fin 16) (t : LT) (r : Bool) (w : Nat), (n.val < 14) ∧ (nsTu 4 ≤ w) ∧ (edgeActive s.tb.tcc[n].edge r = true) ∧ ((∀ l, s.tb.tcc[n].lastEdge = some l → (nsTu 8 : Int) ≤ s.absOf t - l)) ∧ (s.tb.tcc[n].fifo.length < 4)) ∧
    (∃ (s : State) (n : Fin 16) (t : LT) (r : Bool) (w : Nat), (n.val < 14) ∧ (nsTu 4 ≤ w) ∧ (edgeActive s.tb.tcc[n].edge r = true) ∧ ((∀ l, s.tb.tcc[n].lastEdge = some l → (nsTu 8 : Int) ≤ s.absOf t - l)) ∧ (4 ≤ s.tb.tcc[n].fifo.length)) ∧
    (∃ (s : State) (n : Fin 16) (t : LT) (r : Bool) (w : Nat), ((14 ≤ n.val ∨ w < nsTu 4 ∨ edgeActive s.tb.tcc[n].edge r = false ∨ ∃ l, s.tb.tcc[n].lastEdge = some l ∧ s.absOf t - l < (nsTu 8 : Int)))) ∧
    (∃ (_s : State) (f : IrigFrame), (f.pps = none)) ∧
    (∃ (s : State) (f : IrigFrame) (pps : LT), (f.pps = some pps) ∧ (irigDecodes f = false ∨ irigAgrees s.tb f = false ∨ usTu 10 < (ltDiff f.edge pps).natAbs)) ∧
    (∃ (s : State) (f : IrigFrame) (pps : LT), (f.pps = some pps) ∧ (irigDecodes f = true) ∧ (irigAgrees s.tb f = true) ∧ ((ltDiff f.edge pps).natAbs ≤ usTu 10)) :=
  ⟨⟨ptpSlave, 0, .sync, (by decide), (by decide)⟩,
   ⟨ptpMaster, 0, { port := 0, oneStepSync := true }, (by decide)⟩,
   ⟨up, 13, 1, true, 262144, (by decide), (by decide), (by decide), (by intro l hl; cases hl), (by decide)⟩,
   ⟨{ up with tb := { up.tb with tcc := .replicate 16 { fifo := [0, 0, 0, 0] } } }, 0, 0, true, 262144, (by decide), (by decide), (by decide), (by intro l hl; cases hl), (by decide)⟩,
   ⟨up, 14, 1, true, 262144, (by left; decide)⟩,
   ⟨up, {}, (by decide)⟩,
   ⟨up, { pps := some 0 }, 0, (by decide), (by decide)⟩,
   ⟨{ up with tb := { up.tb with irig := { up.tb.irig with good := 2 } } }, { pps := some 0, ok := true, edge := 655360 }, 0, (by decide), (by decide), (by decide), (by decide)⟩⟩

theorem wit_HostReadsAndTimeCommands_part1 :
    (∃ (s : State) (_rq : Nat) (n : Fin 16) (_wide : Bool) (t : LT) (l : List LT), (s.glob.ready = true) ∧ (s.tb.tcc[n].fifo = t :: l)) ∧
    (∃ (s : State) (_rq : Nat) (n : Fin 16) (_wide : Bool), (s.glob.ready = true) ∧ (s.tb.tcc[n].fifo = [])) ∧
    (∃ (s : State) (_rq : Nat) (p : Fin 14) (_wide : Bool) (e : TxtsEntry) (l : List TxtsEntry), (s.glob.ready = true) ∧ (s.tb.txts[p].fifo = e :: l)) ∧
    (∃ (s : State) (_rq : Nat) (p : Fin 14) (_wide : Bool), (s.glob.ready = true) ∧ (s.tb.txts[p].fifo = [])) ∧
    (∃ (s : State) (_rq : Nat), (s.glob.ready = true)) ∧
    (∃ (s : State) (_rq : Nat), (s.glob.ready = true)) ∧
    (∃ (s : State) (_rq _o : Nat), (s.glob.ready = true)) ∧
    (∃ (s : State) (_rq : Nat) (_rtc : BitVec 48) (_wide : Bool), (s.glob.ready = true)) ∧
    (∃ (s : State) (_rq : Nat) (_w : Fin 66) (o : Nat) (a : AccessWidth), (s.glob.ready = true) ∧ (a = .b8 ∨ a = .b16 ∨ (a = .b32 ∧ o % 4 ≠ 0) ∨ (a = .b64 ∧ o % 8 ≠ 0))) ∧
    (∃ (s t : State) (_rq o : Nat) (v : BitVec 64) (wide : Bool), (s.glob.ready = true) ∧ (o % (if wide then 8 else 4) = 0) ∧ (latching o s = some (v, t))) ∧
    (∃ (s : State) (_rq o : Nat) (w : Fin 66), (s.glob.ready = true) ∧ (o % 4 = 0) ∧ (w ≠ 0 ∨ latching o s = none)) ∧
    (∃ (s : State) (_rq o : Nat) (w : Fin 66), (s.glob.ready = true) ∧ (o % 8 = 0) ∧ (w ≠ 0 ∨ latching o s = none)) :=
  ⟨⟨{ up with tb := { up.tb with tcc := .replicate 16 { fifo := [7] } } }, 0, 15, true, 7, [], (by decide), (by decide)⟩,
   ⟨up, 0, 0, true, (by decide), (by decide)⟩,
   ⟨{ up with tb := { up.tb with txts := .replicate 14 { fifo := [{}] } } }, 0, 13, true, {}, [], (by decide), (by decide)⟩,
   ⟨up, 0, 0, true, (by decide), (by decide)⟩,
   ⟨up, 0, (by decide)⟩,
   ⟨up, 0, (by decide)⟩,
   ⟨up, 0, 0, (by decide)⟩,
   ⟨up, 0, 0, true, (by decide)⟩,
   ⟨up, 0, 65, 3, .b8, (by decide), (by decide)⟩,
   ⟨up, modRegion 0 (fun x => { x with corrected := 0 }) up, 0, 0x00A100, 0, true, (rfl), (rfl), (rfl)⟩,
   ⟨up, 0, 8, 65, (by decide), (by decide), (by decide)⟩,
   ⟨up, 0, 8, 65, (by decide), (by decide), (by decide)⟩⟩

theorem wit_HostReadsAndTimeCommands_part2 :
    (∃ (s t : State) (_rq o : Nat) (v : BitVec 32), (o % 8 ≠ 4 ∨ latching (o - 4) s = none) ∧ (rc32 o s = some (v, t))) ∧
    (∃ (s : State) (_rq : Nat) (_w : Fin 66) (_o : Nat) (_a : AccessWidth), (s.glob.ready = false) ∧ (s.kv.halted = true)) ∧
    (∃ (s : State) (_rq : Nat) (_w : Fin 66) (_o : Nat) (_a : AccessWidth), (s.glob.ready = false) ∧ (s.kv.halted = false)) ∧
    (∃ (s : State) (rq : Nat) (n : Fin 16) (p : Fin 14) (wide : Bool) (rtc : BitVec 48) (o : Nat) (i : Instr), (s.glob.ready = false) ∧ (i = .capturePop rq n wide ∨ i = .txtsPop rq p wide ∨ i = .ltNowRead rq wide ∨ i = .rsUpperRead rq o ∨ i = .rtcRead rq rtc wide)) ∧
    (∃ (s : State) (c : Cmd) (n : Fin 32) (_t : LT) (per : Bool) (p : BitVec 64), (runs 0x0110 true c s = true) ∧ (20 ≤ n.val) ∧ (issuer c = 0 ∨ (getTcu s n.val).owner = issuer c) ∧ ((getTcu s n.val).dest ≠ 0) ∧ ((per = true → 131072 ≤ p.toNat ∧ p.toNat < 2 ^ 63))) ∧
    (∃ (s : State) (c : Cmd) (n : Fin 32) (p : BitVec 64), (runs 0x0110 true c s = true) ∧ (20 ≤ n.val) ∧ (issuer c = 0 ∨ (getTcu s n.val).owner = issuer c) ∧ ((getTcu s n.val).dest ≠ 0) ∧ (131072 ≤ p.toNat ∧ p.toNat < 2 ^ 63) ∧ ((getTcu s n.val).en = true) ∧ ((getTcu s n.val).periodic = true)) ∧
    (∃ (s : State) (c : Cmd) (n : Fin 32) (_t : Option LT) (_per : Bool) (_p : BitVec 64), (runs 0x0110 true c s = true) ∧ (n.val < 20 ∨ (issuer c ≠ 0 ∧ (getTcu s n.val).owner ≠ issuer c))) ∧
    (∃ (s : State) (c : Cmd) (n : Fin 32) (_t : Option LT) (_per : Bool) (_p : BitVec 64), (runs 0x0110 true c s = true) ∧ (20 ≤ n.val) ∧ (issuer c = 0 ∨ (getTcu s n.val).owner = issuer c) ∧ ((getTcu s n.val).dest = 0)) ∧
    (∃ (s : State) (c : Cmd) (n : Fin 32) (t : Option LT) (per : Bool) (p : BitVec 64), (runs 0x0110 true c s = true) ∧ (20 ≤ n.val) ∧ (issuer c = 0 ∨ (getTcu s n.val).owner = issuer c) ∧ ((getTcu s n.val).dest ≠ 0) ∧ ((per = true ∧ (p.toNat < 131072 ∨ 2 ^ 63 ≤ p.toNat)) ∨ (t = none ∧ ((getTcu s n.val).en = false ∨ (getTcu s n.val).periodic = false ∨ per = false)))) ∧
    (∃ (s : State) (c : Cmd) (n : Fin 32), (runs 0x0111 true c s = true) ∧ (20 ≤ n.val) ∧ (issuer c = 0 ∨ (getTcu s n.val).owner = issuer c)) ∧
    (∃ (s : State) (c : Cmd) (n : Fin 32), (runs 0x0111 true c s = true) ∧ (n.val < 20 ∨ (issuer c ≠ 0 ∧ (getTcu s n.val).owner ≠ issuer c))) ∧
    (∃ (s : State) (c : Cmd), (runs 0x0120 true c s = true) ∧ (c.bufLen = 0)) :=
  ⟨⟨up, onLog (fun l => { l with lost := 0 }) up, 0, 0x00900C, 0, (by right; rfl), (rfl)⟩,
   ⟨{ State.reset with kv := { State.reset.kv with halted := true } }, 0, 0, 0xC00004, .b32, (by decide), (by decide)⟩,
   ⟨State.reset, 0, 0, 8, .b32, (by decide), (by decide)⟩,
   ⟨State.reset, 0, 0, 0, true, 0, 0, .ltNowRead 0 true, (by decide), (by decide)⟩,
   ⟨(asked 0x0110 ({}) (dueUnit 20 0x20)), {}, 20, 0, true, 131072, (by decide), (by decide), (by decide), (by decide), (by decide)⟩,
   ⟨(asked 0x0110 ({}) (modTcu 31 (fun u => { u with periodic := true }) (dueUnit 31 0x20))), {}, 31, 9223372036854775807, (by decide), (by decide), (by decide), (by decide), (by decide), (by decide), (by decide)⟩,
   ⟨(asked 0x0110 ({}) (up)), {}, 19, none, false, 0, (by decide), (by decide)⟩,
   ⟨(asked 0x0110 ({}) (up)), {}, 20, none, false, 0, (by decide), (by decide), (by decide), (by decide)⟩,
   ⟨(asked 0x0110 ({}) (dueUnit 20 0x20)), {}, 20, some 0, true, 131071, (by decide), (by decide), (by decide), (by decide), (by decide)⟩,
   ⟨(asked 0x0111 ({}) (up)), {}, 31, (by decide), (by decide), (by decide)⟩,
   ⟨(asked 0x0111 ({}) (up)), {}, 0, (by decide), (by decide)⟩,
   ⟨(asked 0x0120 ({}) (up)), {}, (by decide), (by decide)⟩⟩

theorem wit_HostReadsAndTimeCommands_part3 :
    (∃ (s : State) (c : Cmd), (runs 0x0120 true c s = true) ∧ (32 ≤ c.bufLen)) ∧
    (∃ (s : State) (c : Cmd), (runs 0x0120 true c s = true) ∧ (0 < c.bufLen) ∧ (c.bufLen < 32)) :=
  ⟨⟨(asked 0x0120 ({ bufLen := 32 }) (up)), { bufLen := 32 }, (by decide), (by decide)⟩,
   ⟨(asked 0x0120 ({ bufLen := 31 }) (up)), { bufLen := 31 }, (by decide), (by decide), (by decide)⟩⟩

theorem wit_RegistersRepliesAndCommonOpcodes_part1 :
    (∃ (s : State) (_w : Fin 66) (o : Nat) (_v : BitVec 64), (s.glob.ready = true) ∧ (o % 4 = 0)) ∧
    (∃ (s : State) (_w : Fin 66) (o : Nat) (_v : BitVec 64), (s.glob.ready = true) ∧ (o % 8 = 0)) ∧
    (∃ (s : State) (_w : Fin 66) (o : Nat) (_v : BitVec 64) (a : AccessWidth), (s.glob.ready = false ∨ a = .b8 ∨ a = .b16 ∨ (a = .b32 ∧ o % 4 ≠ 0) ∨ (a = .b64 ∧ o % 8 ≠ 0))) ∧
    (∃ (s : State) (k : Fin 4) (_v : BitVec 32), (s.su.mring[k].en = false)) ∧
    (∃ (s : State) (k : Fin 4) (_v : BitVec 32), (s.su.mring[k].en = true)) ∧
    (∃ (s : State) (w : Waiting) (b : ReplyBody) (r : Ring), (getRing s w.cmd.ring = some r) ∧ (s.su.order = []) ∧ (r.destroy = []) ∧ (w.cmd.fault = .none) ∧ (inAperture s (issuer w.cmd) (slotAddr r.rbase r.size 32 w.cmd.idx).toNat 32 = true) ∧ (w.cmd.notify = false) ∧ (b.buf = .none)) ∧
    (∃ (s : State) (w : Waiting) (_b : ReplyBody) (r : Ring), (getRing s w.cmd.ring = some r) ∧ (s.su.order = []) ∧ (r.destroy = []) ∧ (w.cmd.fault = .none) ∧ (inAperture s (issuer w.cmd) (slotAddr r.rbase r.size 32 w.cmd.idx).toNat 32 = true) ∧ (w.cmd.notify = true)) ∧
    (∃ (s : State) (c : Cmd) (n : Fin 16), (runs (commonOp n 0xF0) true c s = true) ∧ (n.val ≠ 0xB)) ∧
    (∃ (s : State) (c : Cmd), (runs 0x0BF0 true c s = true)) ∧
    (∃ (s : State) (c : Cmd) (n : Fin 16), (runs (commonOp n 0xF1) (n.val == 0xB) c s = true) ∧ (n.val ≠ 0xB)) ∧
    (∃ (s : State) (c : Cmd), (runs 0x0BF1 true c s = true)) ∧
    (∃ (s : State) (c : Cmd) (n : Fin 16) (_op : BitVec 16) (_i _j : Nat), (runs (commonOp n 0xF2) true c s = true)) :=
  ⟨⟨up, 65, 0xC, 0, (by decide), (by decide)⟩,
   ⟨up, 0, 0x8000, 0, (by decide), (by decide)⟩,
   ⟨up, 0, 4, 0, .b64, (by decide)⟩,
   ⟨up, 3, 0, (by decide)⟩,
   ⟨{ up with su := { up.su with mring := .replicate 4 { en := true } } }, 0, 0, (by decide)⟩,
   ⟨up, { cmd := {}, opcode := 0x22 }, {}, {}, (by decide), (by decide), (by decide), (by decide), (by decide), (by decide), (by decide)⟩,
   ⟨up, { cmd := { notify := true }, opcode := 0x22 }, {}, {}, (by decide), (by decide), (by decide), (by decide), (by decide), (by decide)⟩,
   ⟨(asked (commonOp 15 0xF0) {} up), {}, 15, (by decide), (by decide)⟩,
   ⟨(asked 0x0BF0 ({}) (up)), {}, (by decide)⟩,
   ⟨(asked (commonOp 0 0xF1) {} up), {}, 0, (by decide), (by decide)⟩,
   ⟨(asked 0x0BF1 ({}) (up)), {}, (by decide)⟩,
   ⟨(asked (commonOp 1 0xF2) {} up), {}, 1, 0x0103, 13, 0, (by decide)⟩⟩

theorem wit_RegistersRepliesAndCommonOpcodes_part2 :
    (∃ (s : State) (c : Cmd) (n : Fin 16) (_op : BitVec 16) (_i _j : Nat), (runs (commonOp n 0xF3) true c s = true)) ∧
    (∃ (s : State) (c : Cmd) (n : Fin 16) (op : BitVec 16) (i j : Nat) (l : List Item) (x : Item), (n.val ≠ 0xB) ∧ (op.toNat / 256 = n.val) ∧ (itemInRange op.toNat i j = true) ∧ (issuer c = 0 ∨ nameInShare s (issuer c) op.toNat i j = true) ∧ (itemAt l op.toNat i j = some x)) ∧
    (∃ (s : State) (c : Cmd) (n : Fin 16) (op : BitVec 16) (i j : Nat) (l : List Item), (n.val ≠ 0xB) ∧ (op.toNat / 256 = n.val) ∧ (itemInRange op.toNat i j = true) ∧ (issuer c = 0 ∨ nameInShare s (issuer c) op.toNat i j = true) ∧ (itemAt l op.toNat i j = none)) ∧
    (∃ (_s : State) (_c : Cmd) (n : Fin 16) (op : BitVec 16) (i j : Nat) (_l : List Item), (n.val ≠ 0xB) ∧ (op.toNat / 256 ≠ n.val ∨ itemInRange op.toNat i j = false)) ∧
    (∃ (s : State) (c : Cmd) (n : Fin 16) (op : BitVec 16) (i j : Nat) (_l : List Item), (n.val ≠ 0xB) ∧ (op.toNat / 256 = n.val) ∧ (itemInRange op.toNat i j = true) ∧ (issuer c ≠ 0) ∧ (nameInShare s (issuer c) op.toNat i j = false)) ∧
    (∃ (_s : State) (_c : Cmd) (n : Fin 16) (_op : BitVec 16) (_i _j : Nat) (_l : List Item), (n.val = 0xB)) :=
  ⟨⟨(asked (commonOp 1 0xF3) {} up), {}, 1, 0x0103, 13, 0, (by decide)⟩,
   ⟨up, {}, 0xA, 0x0A01, 0, 0x100, [.tPsw 16], .tPsw 16, (by decide), (by decide), (by decide), (by decide), (by decide)⟩,
   ⟨up, {}, 1, 0x0103, 13, 0, [], (by decide), (by decide), (by decide), (by decide), (by decide)⟩,
   ⟨up, {}, 1, 0x0103, 14, 0, [], (by decide), (by decide)⟩,
   ⟨up, { ring := .inst 1 0 }, 1, 0x0103, 13, 0, [], (by decide), (by decide), (by decide), (by decide), (by decide)⟩,
   ⟨up, {}, 0xB, 0, 0, 0, [], (by decide)⟩⟩

theorem wit_RingsAndSessionsWork_part1 :
    (∃ (s : State) (g : RingId) (r : Ring) (v : BitVec 16), (s.glob.ready = true) ∧ (getRing s g = some r) ∧ (windowIgnores s g r = false) ∧ (r.en = false ∨ (v - r.release).toNat ≤ 2 ^ r.size.toNat)) ∧
    (∃ (s : State) (g : RingId) (r : Ring) (v : BitVec 16), (s.glob.ready = true) ∧ (getRing s g = some r) ∧ (windowIgnores s g r = false) ∧ (r.en = true) ∧ (2 ^ r.size.toNat < (v - r.release).toNat)) ∧
    (∃ (s : State) (g : RingId) (r : Ring) (v : BitVec 16), (s.glob.ready = true) ∧ (getRing s g = some r) ∧ (windowIgnores s g r = false) ∧ (r.en = false ∨ (v - r.release).toNat ≤ (r.tail - r.release).toNat)) ∧
    (∃ (s : State) (g : RingId) (r : Ring) (v : BitVec 16), (s.glob.ready = true) ∧ (getRing s g = some r) ∧ (windowIgnores s g r = false) ∧ (r.en = true) ∧ ((r.tail - r.release).toNat < (v - r.release).toNat)) ∧
    (∃ (s : State) (g : RingId) (_v : BitVec 16), ((s.glob.ready = false ∨ getRing s g = none ∨ ∃ r, getRing s g = some r ∧ windowIgnores s g r = true))) ∧
    (∃ (s : State) (k : Fin 4) (v : BitVec 32), (s.glob.ready = true) ∧ (v.getLsbD 0 = true) ∧ (s.su.mring[k].en = false) ∧ (4 ≤ s.su.mring[k].size.toNat ∧ s.su.mring[k].size.toNat ≤ 12)) ∧
    (∃ (s : State) (k : Fin 4) (v : BitVec 32), (s.glob.ready = true) ∧ (v.getLsbD 0 = false ∨ (s.su.mring[k].en = false ∧ (s.su.mring[k].size.toNat < 4 ∨ 12 < s.su.mring[k].size.toNat)))) ∧
    (∃ (s : State) (g : RingId) (l : List Byte) (d : Bool) (f : FwFault) (r : Ring) (c : Cmd) (op : BitVec 16), (s.glob.ready = true) ∧ (dueRing s = some g) ∧ (getRing s g = some r) ∧ (decodeEntry g r.head l d f = (c, op)) ∧ (inAperture s (issuer c) (slotAddr r.cbase r.size 64 r.head).toNat 64 = true) ∧ (c.fence = false ∨ r.inflight = []) ∧ ((limited 0x30000 0 (secTu 1) 500000 s).1 = true) ∧ (fetchRefusal s c op = none) ∧ (c.fault ≠ .before)) ∧
    (∃ (s : State) (g : RingId) (l : List Byte) (d : Bool) (f : FwFault) (r : Ring) (c : Cmd) (op : BitVec 16) (e : Status), (s.glob.ready = true) ∧ (dueRing s = some g) ∧ (getRing s g = some r) ∧ (decodeEntry g r.head l d f = (c, op)) ∧ (inAperture s (issuer c) (slotAddr r.cbase r.size 64 r.head).toNat 64 = true) ∧ (c.fence = false ∨ r.inflight = []) ∧ ((limited 0x30000 0 (secTu 1) 500000 s).1 = true) ∧ (fetchRefusal s c op = some e)) ∧
    (∃ (s : State) (g : RingId) (l : List Byte) (d : Bool) (f : FwFault) (r : Ring) (c : Cmd) (op : BitVec 16), (s.glob.ready = true) ∧ (dueRing s = some g) ∧ (getRing s g = some r) ∧ (decodeEntry g r.head l d f = (c, op)) ∧ (inAperture s (issuer c) (slotAddr r.cbase r.size 64 r.head).toNat 64 = true) ∧ (c.fence = true) ∧ (r.inflight ≠ [])) ∧
    (∃ (s : State) (g : RingId) (l : List Byte) (d : Bool) (f : FwFault) (r : Ring) (c : Cmd) (op : BitVec 16), (s.glob.ready = true) ∧ (dueRing s = some g) ∧ (getRing s g = some r) ∧ (decodeEntry g r.head l d f = (c, op)) ∧ (inAperture s (issuer c) (slotAddr r.cbase r.size 64 r.head).toNat 64 = false)) ∧
    (∃ (s : State) (g : RingId) (_l : List Byte) (_d : Bool) (_f : FwFault), (s.glob.ready = false ∨ dueRing s ≠ some g)) :=
  ⟨⟨up, .m 3, {}, 0, (by decide), (by decide), (by decide), (by decide)⟩,
   ⟨{ up with su := { up.su with mring := .replicate 4 { en := true, size := 4 } } }, .m 0, { en := true, size := 4 }, 17, (by decide), (by decide), (by decide), (by decide), (by decide)⟩,
   ⟨up, .m 0, {}, 0, (by decide), (by decide), (by decide), (by decide)⟩,
   ⟨{ up with su := { up.su with mring := .replicate 4 { en := true, size := 4 } } }, .m 0, { en := true, size := 4 }, 1, (by decide), (by decide), (by decide), (by decide), (by decide)⟩,
   ⟨up, .inst 1 0, 0, (by right; left; rfl)⟩,
   ⟨{ up with su := { up.su with mring := .replicate 4 { size := 12 } } }, 0, 1, (by decide), (by decide), (by decide), (by decide)⟩,
   ⟨up, 0, 1, (by decide), (by decide)⟩,
   ⟨fetchable, .m 0, [0x22] ++ List.replicate 63 0, true, .none, { en := true, tail := 1, size := 4 }, (decodeEntry (.m 0) 0 ([0x22] ++ List.replicate 63 0) true .none).1, 0x22, (by decide +kernel), (by decide +kernel), (by decide +kernel), (by decide +kernel), (by decide +kernel), (by decide +kernel), (by decide +kernel), (by decide +kernel), (by decide +kernel)⟩,
   ⟨fetchable, .m 0, List.replicate 64 0, true, .none, { en := true, tail := 1, size := 4 }, (decodeEntry (.m 0) 0 (List.replicate 64 0) true .none).1, 0, .badOpcode, (by decide +kernel), (by decide +kernel), (by decide +kernel), (by decide +kernel), (by decide +kernel), (by decide +kernel), (by decide +kernel), (by decide +kernel)⟩,
   ⟨{ up with su := { up.su with mring := .replicate 4 { en := true, tail := 1, size := 4, inflight := [0] } } }, .m 0, [0x22, 0, 2] ++ List.replicate 61 0, true, .none, { en := true, tail := 1, size := 4, inflight := [0] }, (decodeEntry (.m 0) 0 ([0x22, 0, 2] ++ List.replicate 61 0) true .none).1, 0x22, (by decide +kernel), (by decide +kernel), (by decide +kernel), (by decide +kernel), (by decide +kernel), (by decide +kernel), (by decide +kernel)⟩,
   ⟨{ up with su := { up.su with iring := [((64, 0), { en := true, tail := 1, size := 4 })] }, im := { up.im with inst := [(64, { state := .active, shares := { dmaSlots := [0] } })] } }, .inst 64 0, [0x22] ++ List.replicate 63 0, true, .none, { en := true, tail := 1, size := 4 }, (decodeEntry (.inst 64 0) 0 ([0x22] ++ List.replicate 63 0) true .none).1, 0x22, (by decide +kernel), (by decide +kernel), (by decide +kernel), (by decide +kernel), (by decide +kernel)⟩,
   ⟨up, .m 0, [], true, .none, (by decide)⟩⟩

theorem wit_RingsAndSessionsWork_part2 :
    (∃ (s : State) (c : Cmd) (i : Nat) (r : Fin 2) (cb rb : BitVec 64) (z _v : BitVec 4), (runs 0x0020 false c s = true) ∧ (1 ≤ i ∧ i ≤ 64) ∧ (4 ≤ z.toNat ∧ z.toNat ≤ 12) ∧ (cb.toNat % 4096 = 0 ∧ rb.toNat % 4096 = 0) ∧ (instState s i = .active) ∧ (ringCount s i < (s.im.inst.getD i {}).shares.rings) ∧ (s.su.iring.get? (i, r.val) = none)) ∧
    (∃ (s : State) (c : Cmd) (i : Nat) (_r : Fin 2) (cb rb : BitVec 64) (z _v : BitVec 4), (runs 0x0020 false c s = true) ∧ (i < 1 ∨ 64 < i ∨ z.toNat < 4 ∨ 12 < z.toNat ∨ cb.toNat % 4096 ≠ 0 ∨ rb.toNat % 4096 ≠ 0)) ∧
    (∃ (s : State) (c : Cmd) (i : Nat) (_r : Fin 2) (cb rb : BitVec 64) (z _v : BitVec 4), (runs 0x0020 false c s = true) ∧ (1 ≤ i ∧ i ≤ 64) ∧ (4 ≤ z.toNat ∧ z.toNat ≤ 12) ∧ (cb.toNat % 4096 = 0 ∧ rb.toNat % 4096 = 0) ∧ (instState s i ≠ .active ∨ (s.im.inst.getD i {}).shares.rings ≤ ringCount s i)) ∧
    (∃ (s : State) (c : Cmd) (i : Nat) (r : Fin 2) (x : Ring), (runs 0x0021 false c s = true) ∧ (c.ring ≠ .inst i r.val) ∧ (s.su.iring.get? (i, r.val) = some x) ∧ (x.inflight = [])) ∧
    (∃ (s : State) (c : Cmd) (i : Nat) (r : Fin 2) (x : Ring), (runs 0x0021 false c s = true) ∧ (c.ring ≠ .inst i r.val) ∧ (s.su.iring.get? (i, r.val) = some x) ∧ (x.inflight ≠ [])) ∧
    (∃ (s : State) (c : Cmd) (i : Nat) (r : Fin 2), (runs 0x0021 false c s = true) ∧ (c.ring ≠ .inst i r.val) ∧ (s.su.iring.get? (i, r.val) = none)) ∧
    (∃ (s : State) (c : Cmd), (runs 0x0010 true c s = true) ∧ ((getSession s (issuer c)).state = .closed)) ∧
    (∃ (s : State) (c : Cmd), (runs 0x0010 true c s = true) ∧ ((getSession s (issuer c)).state ≠ .closed)) ∧
    (∃ (s : State) (c : Cmd) (d : Bool), (runs 0x0011 true c s = true) ∧ ((getSession s (issuer c)).state = .opened ∨ (getSession s (issuer c)).state = .checked) ∧ (allChecks (entered 0x0011 c s) (issuer c) d (checkView (entered 0x0011 c s) (getSession s (issuer c))) = [])) ∧
    (∃ (s : State) (c : Cmd) (d : Bool) (f : CheckFail) (l : List CheckFail), (runs 0x0011 true c s = true) ∧ ((getSession s (issuer c)).state = .opened ∨ (getSession s (issuer c)).state = .checked) ∧ (allChecks (entered 0x0011 c s) (issuer c) d (checkView (entered 0x0011 c s) (getSession s (issuer c))) = f :: l)) ∧
    (∃ (s : State) (c : Cmd) (_d : Bool), (runs 0x0011 true c s = true) ∧ ((getSession s (issuer c)).state = .closed ∨ (getSession s (issuer c)).state = .armed)) ∧
    (∃ (s : State) (c : Cmd), (runs 0x0013 true c s = true) ∧ ((getSession s (issuer c)).state = .opened ∨ (getSession s (issuer c)).state = .checked)) :=
  ⟨⟨(asked 0x0020 ({}) ({ up with im := { up.im with inst := [(64, { state := .active, shares := { rings := 1 } })] } })), {}, 64, 1, 0, 4096, 12, 0, (by decide), (by decide), (by decide), (by decide), (by decide), (by decide), (by decide)⟩,
   ⟨(asked 0x0020 ({}) ({ up with im := { up.im with inst := [(64, { state := .active, shares := { rings := 1 } })] } })), {}, 65, 1, 0, 4096, 12, 0, (by decide), (by decide)⟩,
   ⟨(asked 0x0020 ({}) (up)), {}, 1, 0, 0, 4096, 4, 0, (by decide), (by decide), (by decide), (by decide), (by decide)⟩,
   ⟨(asked 0x0021 ({}) ({ up with su := { up.su with iring := [((1, 0), {})] } })), {}, 1, 0, {}, (by decide), (by decide), (by decide), (by decide)⟩,
   ⟨(asked 0x0021 ({}) ({ up with su := { up.su with iring := [((1, 0), { inflight := [0] })] } })), {}, 1, 0, { inflight := [0] }, (by decide), (by decide), (by decide), (by decide)⟩,
   ⟨(asked 0x0021 ({}) (up)), {}, 1, 0, (by decide), (by decide), (by decide)⟩,
   ⟨(asked 0x0010 ({}) (up)), {}, (by decide), (by decide)⟩,
   ⟨(asked 0x0010 ({}) ({ up with su := { up.su with sessions := [(0, { state := .opened, id := 1 })] } })), {}, (by decide), (by decide)⟩,
   ⟨(asked 0x0011 ({}) (opened)), {}, false, (by decide), (by decide), (by decide)⟩,
   ⟨(asked 0x0011 ({}) (badOpened)), {}, false, { subsys := 5, code := 0x5002, index := 0 }, [], (by decide), (by decide), (by decide)⟩,
   ⟨(asked 0x0011 ({}) (up)), {}, false, (by decide), (by decide)⟩,
   ⟨(asked 0x0013 ({}) (opened)), {}, (by decide), (by decide)⟩⟩

theorem wit_RingsAndSessionsWork_part3 :
    (∃ (s : State) (c : Cmd) (a : ArmedCommit), (runs 0x0013 true c s = true) ∧ ((getSession s (issuer c)).state = .armed) ∧ (s.su.armed = some a) ∧ (ltDiff s.now a.t ≤ -(usTu 100 : Int))) ∧
    (∃ (s : State) (c : Cmd) (a : ArmedCommit), (runs 0x0013 true c s = true) ∧ ((getSession s (issuer c)).state = .armed) ∧ (s.su.armed = some a) ∧ (-(usTu 100 : Int) < ltDiff s.now a.t)) ∧
    (∃ (s : State) (c : Cmd), (runs 0x0013 true c s = true) ∧ ((getSession s (issuer c)).state = .closed)) ∧
    (∃ (s : State) (c : Cmd), (runs 0x0014 true c s = true)) ∧
    (∃ (s : State) (c : Cmd), (runs 0x0015 true c s = true) ∧ ((getSession s (issuer c)).state ≠ .closed)) ∧
    (∃ (s : State) (c : Cmd), (runs 0x0015 true c s = true) ∧ ((getSession s (issuer c)).state = .closed)) ∧
    (∃ (s : State) (c : Cmd), (runs 0x0022 true c s = true)) :=
  ⟨⟨(asked 0x0013 ({}) ({ up with su := { up.su with sessions := [(0, { state := .armed, id := 1 })], armed := some { t := 65536000000 } } })), {}, { t := 65536000000 }, (by decide), (by decide), (by decide), (by decide)⟩,
   ⟨(asked 0x0013 ({}) ({ up with su := { up.su with sessions := [(0, { state := .armed, id := 1 })], armed := some {} } })), {}, {}, (by decide), (by decide), (by decide), (by decide)⟩,
   ⟨(asked 0x0013 ({}) (up)), {}, (by decide), (by decide)⟩,
   ⟨(asked 0x0014 ({}) (up)), {}, (by decide)⟩,
   ⟨(asked 0x0015 ({}) (opened)), {}, (by decide), (by decide)⟩,
   ⟨(asked 0x0015 ({}) (up)), {}, (by decide), (by decide)⟩,
   ⟨(asked 0x0022 ({}) (up)), {}, (by decide)⟩⟩

theorem wit_CommitsAndPackagesWork_part1 :
    (∃ (s : State) (c : Cmd) (t T : LT) (f : BitVec 32), (runs 0x0012 true c s = true) ∧ ((getSession s (issuer c)).state = .checked) ∧ (s.su.armed = none) ∧ (s.su.resync = false) ∧ (logFull s = false) ∧ (T = (if t = 0 then boundaryFrom s (commitMin s (getSession s (issuer c)).bytes) else t)) ∧ (0 ≤ ltDiff T (commitMin s (getSession s (issuer c)).bytes)) ∧ (boundaryFrom s T = T) ∧ (ltDiff T s.now ≤ (secTu 3600 : Int)) ∧ (f = 0 ∨ (f = 1 ∧ persistOk s (getSession s (issuer c)) = true)) ∧ (c.async = true)) ∧
    (∃ (s : State) (c : Cmd) (t T : LT) (f : BitVec 32), (runs 0x0012 true c s = true) ∧ ((getSession s (issuer c)).state = .checked) ∧ (s.su.armed = none) ∧ (s.su.resync = false) ∧ (logFull s = false) ∧ (T = (if t = 0 then boundaryFrom s (commitMin s (getSession s (issuer c)).bytes) else t)) ∧ (0 ≤ ltDiff T (commitMin s (getSession s (issuer c)).bytes)) ∧ (boundaryFrom s T = T) ∧ (ltDiff T s.now ≤ (secTu 3600 : Int)) ∧ (f = 0 ∨ (f = 1 ∧ persistOk s (getSession s (issuer c)) = true)) ∧ (c.async = false)) ∧
    (∃ (s : State) (c : Cmd) (_t : LT) (_f : BitVec 32), (runs 0x0012 true c s = true) ∧ ((getSession s (issuer c)).state = .armed ∨ ((getSession s (issuer c)).state = .checked ∧ (s.su.armed.isSome = true ∨ s.su.resync = true)))) ∧
    (∃ (s : State) (c : Cmd) (_t : LT) (_f : BitVec 32), (runs 0x0012 true c s = true) ∧ ((getSession s (issuer c)).state = .closed ∨ (getSession s (issuer c)).state = .opened)) ∧
    (∃ (s : State) (c : Cmd) (_t : LT) (f : BitVec 32), (runs 0x0012 true c s = true) ∧ ((getSession s (issuer c)).state = .checked) ∧ (s.su.armed = none) ∧ (s.su.resync = false) ∧ (f ≠ 0) ∧ (f ≠ 1)) ∧
    (∃ (s : State) (c : Cmd) (t T : LT) (f : BitVec 32), (runs 0x0012 true c s = true) ∧ ((getSession s (issuer c)).state = .checked) ∧ (s.su.armed = none) ∧ (s.su.resync = false) ∧ (f = 0 ∨ f = 1) ∧ (T = (if t = 0 then boundaryFrom s (commitMin s (getSession s (issuer c)).bytes) else t)) ∧ (ltDiff T (commitMin s (getSession s (issuer c)).bytes) < 0 ∨ boundaryFrom s T ≠ T ∨ (secTu 3600 : Int) < ltDiff T s.now)) ∧
    (∃ (s : State) (c : Cmd) (t T : LT) (f : BitVec 32), (runs 0x0012 true c s = true) ∧ ((getSession s (issuer c)).state = .checked) ∧ (s.su.armed = none) ∧ (s.su.resync = false) ∧ (T = (if t = 0 then boundaryFrom s (commitMin s (getSession s (issuer c)).bytes) else t)) ∧ (0 ≤ ltDiff T (commitMin s (getSession s (issuer c)).bytes)) ∧ (boundaryFrom s T = T) ∧ (ltDiff T s.now ≤ (secTu 3600 : Int)) ∧ (f = 1) ∧ (persistOk s (getSession s (issuer c)) = false)) ∧
    (∃ (s : State) (c : Cmd) (t T : LT) (f : BitVec 32), (runs 0x0012 true c s = true) ∧ ((getSession s (issuer c)).state = .checked) ∧ (s.su.armed = none) ∧ (s.su.resync = false) ∧ (T = (if t = 0 then boundaryFrom s (commitMin s (getSession s (issuer c)).bytes) else t)) ∧ (0 ≤ ltDiff T (commitMin s (getSession s (issuer c)).bytes)) ∧ (boundaryFrom s T = T) ∧ (ltDiff T s.now ≤ (secTu 3600 : Int)) ∧ (f = 0 ∨ (f = 1 ∧ persistOk s (getSession s (issuer c)) = true)) ∧ (logFull s = true)) ∧
    (∃ (s : State) (a : ArmedCommit), (s.su.armed = some a) ∧ (tcuDue s 0 = true)) ∧
    (∃ (s : State), (s.su.armed = none ∨ tcuDue s 0 = false)) ∧
    (∃ (s : State) (a : ArmedCommit), (s.su.armed = some a) ∧ (-(usTu 100 : Int) ≤ ltDiff s.now a.t)) ∧
    (∃ (s : State) (b : Bool), ((b = true ∨ s.su.armed = none ∨ ∃ a, s.su.armed = some a ∧ ltDiff s.now a.t < -(usTu 100 : Int)))) :=
  ⟨⟨(asked 0x0012 ({ async := true }) (checked)), { async := true }, 65536000000, 65536000000, 0, (by decide), (by decide), (by decide), (by decide), (by decide), (by decide), (by decide), (by decide), (by decide), (by decide), (by decide)⟩,
   ⟨(asked 0x0012 ({}) (checked)), {}, 65536000000, 65536000000, 0, (by decide), (by decide), (by decide), (by decide), (by decide), (by decide), (by decide), (by decide), (by decide), (by decide), (by decide)⟩,
   ⟨(asked 0x0012 ({}) ({ checked with su := { checked.su with resync := true } })), {}, 0, 0, (by decide), (by decide)⟩,
   ⟨(asked 0x0012 ({}) (up)), {}, 0, 0, (by decide), (by decide)⟩,
   ⟨(asked 0x0012 ({}) (checked)), {}, 0, 2, (by decide), (by decide), (by decide), (by decide), (by decide), (by decide)⟩,
   ⟨(asked 0x0012 ({}) (checked)), {}, 1, 1, 0, (by decide), (by decide), (by decide), (by decide), (by decide), (by decide), (by decide)⟩,
   ⟨(asked 0x0012 ({}) (checked)), {}, 65536000000, 65536000000, 1, (by decide), (by decide), (by decide), (by decide), (by decide), (by decide), (by decide), (by decide), (by decide), (by decide)⟩,
   ⟨(asked 0x0012 ({}) ({ checked with log := { checked.log with recs := List.replicate 65520 {} } })), {}, 65536000000, 65536000000, 0, (by decide), (by decide), (by decide), (by decide), (by decide), (by decide), (by decide), (by decide), (by decide), (by unfold logFull; refine decide_eq_true ?_; exact Nat.le_of_eq (List.length_replicate).symm)⟩,
   ⟨{ modTcu 0 (fun u => { u with en := true }) up with su := { up.su with armed := some {} } }, {}, (by decide), (by decide)⟩,
   ⟨up, (by decide)⟩,
   ⟨{ up with su := { up.su with armed := some {} } }, {}, (by decide), (by decide)⟩,
   ⟨up, true, (by left; rfl)⟩⟩

theorem wit_CommitsAndPackagesWork_part2 :
    (∃ (s : State) (c : Cmd) (x : List (BitVec 64 × BitVec 64)) (p : Package) (b : Bool), (runs 0x0018 false c s = true) ∧ (1 ≤ x.length ∧ x.length ≤ 4096) ∧ (c.indLen = 16 * x.length) ∧ ((x.map (·.2.toNat)).sum = p.raw.length) ∧ (s.su.pkg.loading = none) ∧ ((b = true → logFull s = false))) ∧
    (∃ (s : State) (c : Cmd) (x : List (BitVec 64 × BitVec 64)) (p : Package) (_b : Bool), (runs 0x0018 false c s = true) ∧ (x.length = 0 ∨ 4096 < x.length ∨ c.indLen ≠ 16 * x.length ∨ (x.map (·.2.toNat)).sum ≠ p.raw.length)) ∧
    (∃ (s : State) (c : Cmd) (x : List (BitVec 64 × BitVec 64)) (p : Package) (b : Bool), (runs 0x0018 false c s = true) ∧ (1 ≤ x.length ∧ x.length ≤ 4096) ∧ (c.indLen = 16 * x.length) ∧ ((x.map (·.2.toNat)).sum = p.raw.length) ∧ (s.su.pkg.loading.isSome = true ∨ (b = true ∧ logFull s = true))) ∧
    (∃ (s : State) (p : Package) (w : Waiting), (s.su.pkg.loading = some (p, .verifying, w))) ∧
    (∃ (_s : State) (p : Package), (pkgWellFormed p = false)) ∧
    (∃ (s : State) (p : Package) (w : Waiting), (s.su.pkg.loading = some (p, .writing, w))) ∧
    (∃ (s : State), ((∀ p w, s.su.pkg.loading ≠ some (p, .writing, w)))) ∧
    (∃ (s : State), ((∀ p w, s.su.pkg.loading ≠ some (p, .verifying, w)))) ∧
    (∃ (s : State) (c : Cmd) (p : Package), (runs 0x0019 false c s = true) ∧ (s.su.pkg.held = some p) ∧ ((getSession s 0).state = .opened ∨ (getSession s 0).state = .checked) ∧ ((pkgKeys p).any (fun k => stageBusy s 0 k.1) = false) ∧ (pkgBadImage p = false) ∧ (((overlay (pkgItems p) ((getSession s 0).staged.filter (fun i => !(pkgKeys p).contains (itemSection s i)))).map Config.itemLen).sum ≤ stagingShare s 0)) ∧
    (∃ (s : State) (c : Cmd), (runs 0x0019 false c s = true) ∧ (s.su.pkg.held = none ∨ (getSession s 0).state = .closed ∨ (getSession s 0).state = .armed)) ∧
    (∃ (s : State) (c : Cmd) (p : Package), (runs 0x0019 false c s = true) ∧ (s.su.pkg.held = some p) ∧ ((getSession s 0).state = .opened ∨ (getSession s 0).state = .checked) ∧ ((pkgKeys p).any (fun k => stageBusy s 0 k.1) = true ∨ pkgBadImage p = true ∨ stagingShare s 0 < ((overlay (pkgItems p) ((getSession s 0).staged.filter (fun i => !(pkgKeys p).contains (itemSection s i)))).map Config.itemLen).sum)) ∧
    (∃ (s : State) (c : Cmd), (runs 0x001A false c s = true)) :=
  ⟨⟨(asked 0x0018 ({ indLen := 16 }) (up)), { indLen := 16 }, [(0, 1)], { raw := [0] }, false, (by decide), (by decide), (by decide), (by decide), (by decide), (by decide)⟩,
   ⟨(asked 0x0018 ({}) (up)), {}, [], {}, false, (by decide), (by decide)⟩,
   ⟨(asked 0x0018 ({ indLen := 16 }) (verifying)), { indLen := 16 }, [(0, 1)], { raw := [0] }, false, (by decide), (by decide), (by decide), (by decide), (by decide)⟩,
   ⟨verifying, {}, { cmd := {}, opcode := 0x18 }, (by decide)⟩,
   ⟨up, {}, (by decide)⟩,
   ⟨{ up with su := { up.su with pkg := { loading := some ({}, .writing, { cmd := {}, opcode := 0x18 }) } } }, {}, { cmd := {}, opcode := 0x18 }, (by decide)⟩,
   ⟨up, (by intro p w; nofun)⟩,
   ⟨up, (by intro p w; nofun)⟩,
   ⟨(asked 0x0019 ({}) ({ opened with su := { opened.su with pkg := { held := some {} } } })), {}, {}, (by decide), (by decide), (by decide), (by decide), (by decide), (by decide)⟩,
   ⟨(asked 0x0019 ({}) (up)), {}, (by decide), (by decide)⟩,
   ⟨(asked 0x0019 ({}) ({ opened with su := { opened.su with resync := true, resyncItems := [.ptp {}], pkg := { held := some { raw := [1, 1] ++ List.replicate 32 0 ++ [1] } } } })), {}, { raw := [1, 1] ++ List.replicate 32 0 ++ [1] }, (by decide), (by decide), (by decide), (by left; decide +kernel)⟩,
   ⟨(asked 0x001A ({}) (up)), {}, (by decide)⟩⟩

theorem wit_CommitsAndPackagesWork_part3 :
    (∃ (s : State) (p : Package) (t : LT) (i : BitVec 16) (n : Nat), (s.su.pkg.persistDue = some (p, t, i, n))) ∧
    (∃ (s : State), (s.su.pkg.persistDue = none)) :=
  ⟨⟨{ up with su := { up.su with pkg := { persistDue := some ({}, 0, 0, 0) } } }, {}, 0, 0, 0, (by decide)⟩,
   ⟨up, (by decide)⟩⟩

theorem wit_FrameReception_part1 :
    (∃ (s : State) (_p : Fin 14) (_f : Frame) (t : LT) (_tie : Bool), (s.px.ready = true) ∧ ((s.px.old = none ∨ ∃ b, s.px.old = some b ∧ 0 ≤ ltDiff t b.t))) ∧
    (∃ (s : State) (b : NetBank) (_p : Fin 14) (_f : Frame) (t : LT) (_tie : Bool), (s.px.ready = true) ∧ (s.px.old = some b) ∧ (ltDiff t b.t < 0)) ∧
    (∃ (s : State) (_p : Fin 14) (_f : Frame) (_t : LT) (_tie : Bool), (s.px.ready = false)) ∧
    (∃ (s : State) (p : Nat) (_f : Frame) (_t : LT) (_tie : Bool), ((getPx s p).cfg.phy = .disabled)) ∧
    (∃ (s : State) (p : Nat) (f : Frame) (t : LT) (_tie : Bool), ((getPx s p).cfg.phy ≠ .disabled) ∧ (rxClass f.len (rxMax s p f t) f.fcsOk ≠ .good)) ∧
    (∃ (s : State) (p : Nat) (f : Frame) (t : LT) (_tie : Bool), ((getPx s p).cfg.phy ≠ .disabled) ∧ (rxClass f.len (rxMax s p f t) f.fcsOk = .good) ∧ (f.etype = 0x8808)) ∧
    (∃ (s : State) (p : Nat) (f : Frame) (t : LT) (_tie : Bool) (u : State), ((getPx s p).cfg.phy ≠ .disabled) ∧ (rxClass f.len (rxMax s p f t) f.fcsOk = .good) ∧ (f.etype ≠ 0x8808) ∧ (macsecRx p f t (goodCounters p f (innerFrame p f t (if f.codeErr then pxCount p 14 (pxCountBy p 1 f.len s) else pxCountBy p 1 f.len s)) (if f.codeErr then pxCount p 14 (pxCountBy p 1 f.len s) else pxCountBy p 1 f.len s)) = (u, .discard))) ∧
    (∃ (s : State) (p : Nat) (f : Frame) (t : LT) (tie : Bool) (u v : State) (g : Frame) (m : Nat), ((getPx s p).cfg.phy ≠ .disabled) ∧ (rxClass f.len (rxMax s p f t) f.fcsOk = .good) ∧ (f.etype ≠ 0x8808) ∧ (macsecRx p f t (goodCounters p f (innerFrame p f t (if f.codeErr then pxCount p 14 (pxCountBy p 1 f.len s) else pxCountBy p 1 f.len s)) (if f.codeErr then pxCount p 14 (pxCountBy p 1 f.len s) else pxCountBy p 1 f.len s)) = (u, .pass g m)) ∧ (redundancyRx p g (rxStamp s p t) tie u = (v, none))) ∧
    (∃ (s : State) (p : Nat) (f : Frame) (t : LT) (tie : Bool) (u v : State) (g h : Frame) (m n : Nat), ((getPx s p).cfg.phy ≠ .disabled) ∧ (rxClass f.len (rxMax s p f t) f.fcsOk = .good) ∧ (f.etype ≠ 0x8808) ∧ (macsecRx p f t (goodCounters p f (innerFrame p f t (if f.codeErr then pxCount p 14 (pxCountBy p 1 f.len s) else pxCountBy p 1 f.len s)) (if f.codeErr then pxCount p 14 (pxCountBy p 1 f.len s) else pxCountBy p 1 f.len s)) = (u, .pass g m)) ∧ (redundancyRx p g (rxStamp s p t) tie u = (v, some (h, n)))) ∧
    (∃ (s : State) (p : Fin 14) (e : LT), (s.px.port[p].pauseEnd = some e) ∧ (ltReached s.now e = true)) ∧
    (∃ (s : State) (p : Fin 14), ((∀ e, s.px.port[p].pauseEnd = some e → ltReached s.now e = false))) ∧
    (∃ (s : State) (p : Fin 14) (_pcs _fec _us : Bool) (_g : RsFault), (s.px.ready = true) ∧ (s.px.port[p].cfg.phy ≠ .disabled)) :=
  ⟨⟨pxUp, 13, {}, 0, false, (by first | decide | exact Or.inl rfl), (by first | decide | exact Or.inl rfl)⟩,
   ⟨{ pxUp with px := { pxUp.px with old := some { netBank 5 pxUp with t := 5 } } }, { netBank 5 pxUp with t := 5 }, 0, {}, 0, false, (by first | decide | rfl), (by first | decide | rfl), (by first | decide | rfl)⟩,
   ⟨up, 0, {}, 0, false, (by decide)⟩,
   ⟨up, 0, {}, 0, false, (by decide)⟩,
   ⟨pxUp, 13, { len := 63, fcsOk := true }, 0, false, (by decide +kernel), (by decide +kernel)⟩,
   ⟨pxUp, 0, { len := 64, fcsOk := true, bytes := List.replicate 12 0 ++ [0x88, 0x08] ++ List.replicate 46 0 }, 0, false, (by decide +kernel), (by decide +kernel), (by decide +kernel)⟩,
   ⟨(modPx 0 (fun x => { x with macsec := { en := true } }) pxUp), 0, { len := 64, fcsOk := true, bytes := List.replicate 60 0 }, 0, false, (macsecRx 0 { len := 64, fcsOk := true, bytes := List.replicate 60 0 } 0 (goodCounters 0 { len := 64, fcsOk := true, bytes := List.replicate 60 0 } { len := 64, fcsOk := true, bytes := List.replicate 60 0 } (pxCountBy 0 1 64 (modPx 0 (fun x => { x with macsec := { en := true } }) pxUp)))).1, (by decide +kernel), (by decide +kernel), (by decide +kernel), (rfl)⟩,
   ⟨{ up with px := { up.px with ready := true, pair := .replicate 2 { cfg := { mode := .hsr }, ddt := [{}] }, port := .replicate 14 { cfg := { phy := .base1000 } } } }, 2, { len := 74, fcsOk := true, bytes := List.replicate 12 0 ++ [0x89, 0x2F, 0, 0x44, 0, 0, 0, 0] ++ List.replicate 50 0 }, 0, false, (goodCounters 2 { len := 74, fcsOk := true, bytes := List.replicate 12 0 ++ [0x89, 0x2F, 0, 0x44, 0, 0, 0, 0] ++ List.replicate 50 0 } { len := 74, fcsOk := true, bytes := List.replicate 12 0 ++ [0x89, 0x2F, 0, 0x44, 0, 0, 0, 0] ++ List.replicate 50 0 } (pxCountBy 2 1 74 ({ up with px := { up.px with ready := true, pair := .replicate 2 { cfg := { mode := .hsr }, ddt := [{}] }, port := .replicate 14 { cfg := { phy := .base1000 } } } }))), (redundancyRx 2 { len := 74, fcsOk := true, bytes := List.replicate 12 0 ++ [0x89, 0x2F, 0, 0x44, 0, 0, 0, 0] ++ List.replicate 50 0 } (rxStamp { up with px := { up.px with ready := true, pair := .replicate 2 { cfg := { mode := .hsr }, ddt := [{}] }, port := .replicate 14 { cfg := { phy := .base1000 } } } } 2 0) false (goodCounters 2 { len := 74, fcsOk := true, bytes := List.replicate 12 0 ++ [0x89, 0x2F, 0, 0x44, 0, 0, 0, 0] ++ List.replicate 50 0 } { len := 74, fcsOk := true, bytes := List.replicate 12 0 ++ [0x89, 0x2F, 0, 0x44, 0, 0, 0, 0] ++ List.replicate 50 0 } (pxCountBy 2 1 74 ({ up with px := { up.px with ready := true, pair := .replicate 2 { cfg := { mode := .hsr }, ddt := [{}] }, port := .replicate 14 { cfg := { phy := .base1000 } } } })))).1, { len := 74, fcsOk := true, bytes := List.replicate 12 0 ++ [0x89, 0x2F, 0, 0x44, 0, 0, 0, 0] ++ List.replicate 50 0 }, 0, (by decide +kernel), (by decide +kernel), (by decide +kernel), (by with_unfolding_all rfl), (by with_unfolding_all rfl)⟩,
   ⟨pxUp, 6, { len := 64, fcsOk := true, bytes := List.replicate 60 0 }, 0, false, goodCounters 6 { len := 64, fcsOk := true, bytes := List.replicate 60 0 } { len := 64, fcsOk := true, bytes := List.replicate 60 0 } (pxCountBy 6 1 64 pxUp), goodCounters 6 { len := 64, fcsOk := true, bytes := List.replicate 60 0 } { len := 64, fcsOk := true, bytes := List.replicate 60 0 } (pxCountBy 6 1 64 pxUp), { len := 64, fcsOk := true, bytes := List.replicate 60 0 }, { len := 64, fcsOk := true, bytes := List.replicate 60 0 }, 0, 0, (by decide +kernel), (by decide +kernel), (by decide +kernel), (rfl), (rfl)⟩,
   ⟨{ up with px := { up.px with port := .replicate 14 { pauseEnd := some 0 } } }, 0, 0, (by decide), (by decide)⟩,
   ⟨up, 0, (by intro e h; cases h)⟩,
   ⟨pxUp, 0, true, true, false, .none, (by decide), (by decide)⟩⟩

theorem wit_FrameReception_part2 :
    (∃ (s : State) (p : Fin 14) (_pcs _fec _us : Bool) (_g : RsFault), (s.px.ready = false ∨ s.px.port[p].cfg.phy = .disabled)) ∧
    (∃ (s : State) (k : Fin 2) (_m : Mac), (s.px.pair[k].cfg.mode ≠ .independent)) ∧
    (∃ (s : State) (k : Fin 2) (_m : Mac), (s.px.pair[k].cfg.mode = .independent)) ∧
    (∃ (s : State) (k : Fin 2), (s.glob.ready = true) ∧ (s.px.pair[k].cfg.mode ≠ .independent) ∧ (ltReached s.now (ltAdd s.px.pair[k].supAt (msTu s.px.pair[k].cfg.lifeMs)) = true)) ∧
    (∃ (s : State) (k : Fin 2), (s.glob.ready = false ∨ s.px.pair[k].cfg.mode = .independent ∨ ltReached s.now (ltAdd s.px.pair[k].supAt (msTu s.px.pair[k].cfg.lifeMs)) = false)) :=
  ⟨⟨up, 0, true, true, false, .none, (by decide)⟩,
   ⟨{ up with px := { up.px with pair := .replicate 2 { cfg := { mode := .prp } } } }, 1, 1, (by decide)⟩,
   ⟨up, 1, 1, (by decide)⟩,
   ⟨{ up with px := { up.px with pair := .replicate 2 { cfg := { mode := .prp, lifeMs := 0 } } } }, 0, (by decide), (by decide), (by decide)⟩,
   ⟨up, 0, (by decide)⟩⟩

theorem wit_TransmissionAndFabric_part1 :
    (∃ (s : State) (p : Fin 16) (_g : Option GuardFind) (k : Nat) (t : State), (s.sw.ready = true) ∧ (enabledPair s p.val = some k) ∧ (macIdle s p.val = true) ∧ (startRing k p.val s = some t)) ∧
    (∃ (s : State) (p : Fin 16) (c : Copy) (g : Option GuardFind), (s.sw.ready = true) ∧ (((enabledPair s p.val = none ∨ macIdle s p.val = false ∨ ∀ k, enabledPair s p.val = some k → startRing k p.val s = none))) ∧ ((14 ≤ p.val ∨ (txPorts s p.val ≠ [] ∧ (txPorts s p.val).all (macIdle s) = true))) ∧ ((getSw s p.val).sending = none) ∧ (nextCopy s p.val = some c) ∧ (g = none ∨ g = some .corrected)) ∧
    (∃ (s : State) (p : Fin 16) (c : Copy) (_h : GuardHit), (s.sw.ready = true) ∧ (((enabledPair s p.val = none ∨ macIdle s p.val = false ∨ ∀ k, enabledPair s p.val = some k → startRing k p.val s = none))) ∧ ((14 ≤ p.val ∨ (txPorts s p.val ≠ [] ∧ (txPorts s p.val).all (macIdle s) = true))) ∧ ((getSw s p.val).sending = none) ∧ (nextCopy s p.val = some c)) ∧
    (∃ (s : State) (p : Fin 16) (_g : Option GuardFind), ((s.sw.ready = false ∨ ((enabledPair s p.val = none ∨ macIdle s p.val = false ∨ ∀ k, enabledPair s p.val = some k → startRing k p.val s = none) ∧ ((getSw s p.val).sending ≠ none ∨ nextCopy s p.val = none ∨ ¬(14 ≤ p.val ∨ (txPorts s p.val ≠ [] ∧ (txPorts s p.val).all (macIdle s) = true))))))) ∧
    (∃ (s : State) (p : Fin 16) (t : TxFrame), (p.val < 14) ∧ ((getPx s p.val).txBusy = some t)) ∧
    (∃ (s : State) (p : Fin 16) (t : TxFrame) (_h : GuardHit), (p.val < 14) ∧ ((getPx s p.val).txBusy = some t)) ∧
    (∃ (s : State) (p : Fin 16) (t : TxFrame), (p.val < 14) ∧ ((getPx s p.val).txBusy = some t)) ∧
    (∃ (s : State) (p : Fin 16) (_g : Option GuardFind), (p.val < 14) ∧ ((getPx s p.val).txBusy = none)) ∧
    (∃ (_s : State) (p : Fin 16) (_g : Option GuardFind), (14 ≤ p.val)) ∧
    (∃ (s : State) (c : Cmd) (p : Fin 6) (_a : Fin 4) (x : MacsecSa), (runs 0x0210 false c s = true) ∧ (keyRefusal (entered 0x0210 c s) x.slot.toNat (16 + p.val) = none)) ∧
    (∃ (s : State) (c : Cmd) (p : Fin 6) (_k : Fin 8) (_a : Fin 4) (x : MacsecSa), (runs 0x0210 false c s = true) ∧ (keyRefusal (entered 0x0210 c s) x.slot.toNat (16 + p.val) = none)) ∧
    (∃ (s : State) (c : Cmd) (p : Fin 6) (_a : Fin 4) (_k : Option (Fin 8)) (x : MacsecSa) (e : Status), (runs 0x0210 false c s = true) ∧ (keyRefusal (entered 0x0210 c s) x.slot.toNat (16 + p.val) = some e)) :=
  ⟨⟨{ txReady with px := { txReady.px with pair := .replicate 2 { cfg := { mode := .hsr }, ringQ := [(2, {}, 0)] } } }, 2, none, 0, (match startRing 0 2 ({ txReady with px := { txReady.px with pair := .replicate 2 { cfg := { mode := .hsr }, ringQ := [(2, {}, 0)] } } } : State) with | some t => t | none => {}), (by decide), (by decide), (by decide +kernel), (rfl)⟩,
   ⟨txReady, 6, { queued := true }, none, (by decide), (by exact Or.inl rfl), (by decide +kernel), (rfl), (rfl), (by exact Or.inl rfl)⟩,
   ⟨txReady, 15, { queued := true }, {}, (by decide), (by exact Or.inl rfl), (by exact Or.inl (by decide)), (rfl), (rfl)⟩,
   ⟨State.reset, 6, none, (by exact Or.inl rfl)⟩,
   ⟨{ up with px := { up.px with port := .replicate 14 { txBusy := some {} } } }, 13, {}, (by decide), (by decide)⟩,
   ⟨{ up with px := { up.px with port := .replicate 14 { txBusy := some {} } } }, 0, {}, {}, (by decide), (by decide)⟩,
   ⟨{ up with px := { up.px with port := .replicate 14 { txBusy := some {} } } }, 0, {}, (by decide), (by decide)⟩,
   ⟨up, 0, none, (by decide), (by decide)⟩,
   ⟨up, 14, none, (by decide)⟩,
   ⟨(asked 0x0210 ({}) (macKey)), {}, 5, 3, {}, (by decide +kernel), (by decide +kernel)⟩,
   ⟨(asked 0x0210 ({}) (macKey)), {}, 0, 7, 0, {}, (by decide +kernel), (by decide +kernel)⟩,
   ⟨(asked 0x0210 ({}) (macKey)), {}, 0, 0, none, { slot := 1 }, .badParam, (by decide +kernel), (by decide +kernel)⟩⟩

theorem wit_TransmissionAndFabric_part2 :
    (∃ (s : State) (c : Cmd) (_p : Fin 6) (_a : Fin 4), (runs 0x0210 false c s = true)) ∧
    (∃ (s : State) (c : Cmd) (_p : Fin 6) (_k : Fin 8) (_a : Fin 4), (runs 0x0210 false c s = true)) ∧
    (∃ (s : State) (c : Cmd) (_p : Fin 6) (_a : Fin 4), (runs 0x0211 false c s = true)) ∧
    (∃ (s : State) (p : Fin 16) (k : Fin 8) (c : Copy) (g : Option GuardFind), ((vget (getSw s p.val).queues k.val []).find? (fun c => !c.queued) = some c) ∧ (ltReached s.now c.cross1 = true) ∧ (g = none ∨ g = some .corrected)) ∧
    (∃ (s : State) (p : Fin 16) (k : Fin 8) (c : Copy) (_h : GuardHit), ((vget (getSw s p.val).queues k.val []).find? (fun c => !c.queued) = some c)) ∧
    (∃ (s : State) (p : Fin 16) (k : Fin 8) (g : Option GuardFind), (((vget (getSw s p.val).queues k.val []).find? (fun c => !c.queued) = none ∨ (g = none ∧ ∃ c, (vget (getSw s p.val).queues k.val []).find? (fun c => !c.queued) = some c ∧ ltReached s.now c.cross1 = false)))) ∧
    (∃ (s : State) (p : Fin 14) (t : LT), ((getSw s p.val).link = .hold) ∧ ((getSw s p.val).holdAt = some t) ∧ (ltReached s.now t = true)) ∧
    (∃ (s : State) (p : Fin 14) (_b : Bool), (((getSw s p.val).link ≠ .hold ∨ ∀ t, (getSw s p.val).holdAt = some t → ltReached s.now t = false))) ∧
    (∃ (s : State) (p : Fin 14) (k : Fin 8) (c : Copy), ((vget (getSw s p.val).queues k.val []).find? (·.queued) = some c) ∧ ((limitsOf s p.val k.val).maxAge ≠ 0) ∧ ((getSw s p.val).link = .up ∨ (getSw s p.val).link = .hold) ∧ ((usTu (10 * (limitsOf s p.val k.val).maxAge) : Int) < ltDiff s.now c.admitted)) ∧
    (∃ (s : State) (p : Fin 14) (k : Fin 8), (((limitsOf s p.val k.val).maxAge = 0 ∨ (getSw s p.val).link = .down ∨ (getSw s p.val).link = .disabled ∨ ∀ c, (vget (getSw s p.val).queues k.val []).find? (·.queued) = some c → ltDiff s.now c.admitted ≤ (usTu (10 * (limitsOf s p.val k.val).maxAge) : Int)))) ∧
    (∃ (s : State) (v : BitVec 32), (s.glob.ready = true) ∧ (v.getLsbD 0 = true) ∧ (s.sw.mirEn = false)) ∧
    (∃ (s : State) (v : BitVec 32), (s.glob.ready = true) ∧ (v.getLsbD 0 = false)) :=
  ⟨⟨(asked 0x0210 ({}) (macKey)), {}, 0, 0, (by decide)⟩,
   ⟨(asked 0x0210 ({}) (macKey)), {}, 0, 1, 0, (by decide)⟩,
   ⟨(asked 0x0211 ({}) (macKey)), {}, 5, 3, (by decide)⟩,
   ⟨{ up with sw := { up.sw with port := .replicate 16 { queues := .replicate 8 [{}] } } }, 15, 7, {}, none, (rfl), (by decide), (by exact Or.inl rfl)⟩,
   ⟨{ up with sw := { up.sw with port := .replicate 16 { queues := .replicate 8 [{}] } } }, 0, 0, {}, {}, (by decide)⟩,
   ⟨up, 0, 0, none, (by exact Or.inl rfl)⟩,
   ⟨{ up with sw := { up.sw with port := .replicate 16 { link := .hold, holdAt := some 0 } } }, 13, 0, (by decide), (by decide), (by decide)⟩,
   ⟨up, 13, false, (by exact Or.inl (by decide))⟩,
   ⟨{ up with tb := { up.tb with acc := 0x40000000000000000 }, sw := { up.sw with limits := [((0, 0), { maxAge := 1 })], port := .replicate 16 { link := .up, queues := .replicate 8 [{ queued := true }] } } }, 0, 0, { queued := true }, (by decide), (by decide), (by decide), (by decide)⟩,
   ⟨up, 0, 0, (by decide)⟩,
   ⟨{ up with sw := { up.sw with mirSize := 16 } }, 1, (by decide), (by decide), (by decide)⟩,
   ⟨up, 0, (by decide), (by decide)⟩⟩

theorem wit_TransmissionAndFabric_part3 :
    (∃ (s : State) (v : BitVec 32), (s.glob.ready = false ∨ (v.getLsbD 0 = true ∧ s.sw.mirEn = true))) ∧
    (∃ (s : State) (c : Cmd), (runs 0x0312 false c s = true)) :=
  ⟨⟨State.reset, 1, (by decide)⟩,
   ⟨(asked 0x0312 ({}) (onDomain 2)), {}, (by decide)⟩⟩

theorem wit_QueuesMove_part1 :
    (∃ (s : State) (q : Fin 256) (_h : List Byte) (_t : LT) (_r : BitVec 16) (_g : Option GuardFind) (p : Producer), (s.qm.ready = true) ∧ ((getQ s q.val).openPkt = none) ∧ (producerOf s p q.val = true) ∧ ((∀ k, p ≠ .fabric k)) ∧ ((∀ k, p ≠ .px k))) ∧
    (∃ (s : State) (q : Fin 256) (_h : List Byte) (_t : LT) (_r : BitVec 16) (_g : Option GuardFind) (k : Fin 2), (s.qm.ready = true) ∧ ((getQ s q.val).openPkt = none) ∧ (q.val = 0x16 + k.val)) ∧
    (∃ (s : State) (_q : Fin 256) (_h : List Byte) (_t : LT) (_r : BitVec 16) (_g : Option GuardFind) (k : Fin 16) (c : Copy) (n : Nat), (s.qm.ready = true) ∧ ((getSw s k.val).sending = some c) ∧ (c.opened = false) ∧ (n = deliveryQueue s k.val c) ∧ (producerOf s (.fabric k) n = true) ∧ ((getQ s n).openPkt = none)) ∧
    (∃ (s : State) (q : Fin 256) (_h : List Byte) (_t : LT) (_r : BitVec 16) (_g : Option GuardFind) (p : Producer), ((s.qm.ready = false ∨ (∃ k, p = .fabric k ∧ ((getSw s k.val).sending = none ∨ ∃ c, (getSw s k.val).sending = some c ∧ (c.opened = true ∨ producerOf s p (deliveryQueue s k.val c) = false ∨ (getQ s (deliveryQueue s k.val c)).openPkt.isSome = true))) ∨ ((∀ k, p ≠ .fabric k) ∧ (producerOf s p q.val = false ∨ (getQ s q.val).openPkt.isSome = true))))) ∧
    (∃ (s : State) (q o : Nat) (_h : List Byte), (openRefused s q o = true)) ∧
    (∃ (s : State) (q o : Nat) (_h : List Byte), (openRefused s q o = false)) ∧
    (∃ (s : State) (q : Fin 256) (b l : List Byte) (g : Option GuardFind), (nextUnit s q.val false b = some l) ∧ (g = none ∨ g = some .corrected)) ∧
    (∃ (s : State) (q : Fin 256) (b l : List Byte) (g : Option GuardFind), (nextUnit s q.val true b = some l) ∧ (g = none ∨ g = some .corrected)) ∧
    (∃ (s : State) (q : Fin 256) (b l : List Byte) (_h : GuardHit), (nextUnit s q.val false b = some l)) ∧
    (∃ (s : State) (q : Fin 256) (b l : List Byte) (_h : GuardHit), (nextUnit s q.val true b = some l)) ∧
    (∃ (s : State) (q : Nat) (b : List Byte) (p : OpenPkt), ((getQ s q).openPkt = some p) ∧ (p.payload.length + b.length ≤ 10240)) ∧
    (∃ (s : State) (q : Fin 256) (p : OpenPkt), ((getQ s q.val).openPkt = some p)) :=
  ⟨⟨{ up with qm := { up.qm with ready := true } }, 0x1B, [], 0, 0, none, .ps, (by decide), (by decide), (by decide), (by intro k h; cases h), (by intro k h; cases h)⟩,
   ⟨{ up with qm := { up.qm with ready := true } }, 0x17, [], 0, 0, none, 1, (by decide), (by decide), (by decide)⟩,
   ⟨{ up with qm := { up.qm with ready := true }, sw := { up.sw with port := .replicate 16 { sending := some {} } } }, 0, [], 0, 0, none, 14, {}, 0, (by decide), (by decide), (by decide), (by decide), (by decide), (by decide)⟩,
   ⟨State.reset, 0, [], 0, 0, none, .ps, (by exact Or.inl rfl)⟩,
   ⟨up, 0xFF, 0, [], (by decide)⟩,
   ⟨up, 0x14, 0, [], (by decide)⟩,
   ⟨{ up with qm := { up.qm with q := [(0x14, { openPkt := some {} })] } }, 0x14, List.replicate 8 0, List.replicate 8 0, none, (by decide), (by exact Or.inl rfl)⟩,
   ⟨{ up with qm := { up.qm with q := [(0x14, { openPkt := some {} })] } }, 0x14, [1], [1], none, (by decide), (by exact Or.inl rfl)⟩,
   ⟨{ up with qm := { up.qm with q := [(0x14, { openPkt := some {} })] } }, 0x14, List.replicate 8 0, List.replicate 8 0, {}, (by decide)⟩,
   ⟨{ up with qm := { up.qm with q := [(0x14, { openPkt := some {} })] } }, 0x14, [1], [1], {}, (by decide)⟩,
   ⟨{ up with qm := { up.qm with q := [(0x14, { openPkt := some {} })] } }, 0x14, [1], {}, (by decide), (by decide)⟩,
   ⟨{ up with qm := { up.qm with q := [(0xFF, { openPkt := some {} })] } }, 0xFF, {}, (by decide)⟩⟩

theorem wit_QueuesMove_part2 :
    (∃ (s : State) (q : Fin 256), ((getQ s q.val).openPkt = none)) ∧
    (∃ (s : State) (q : Fin 256) (_t : Tag) (_g : Option GuardFind), ((getQ s q.val).words[(getQ s q.val).rd]? = none)) ∧
    (∃ (s : State) (q : Fin 256) (w : QWord), ((getQ s q.val).words[(getQ s q.val).rd]? = some w) ∧ (w.tag ≤ 64)) ∧
    (∃ (s : State) (q : Fin 256) (w : QWord), ((getQ s q.val).words[(getQ s q.val).rd]? = some w) ∧ (w.tag ≤ 64)) ∧
    (∃ (s : State) (q : Fin 256) (w : QWord) (_h : GuardHit), ((getQ s q.val).words[(getQ s q.val).rd]? = some w) ∧ (w.tag ≤ 64)) ∧
    (∃ (s : State) (q : Fin 256) (w : QWord) (t : Tag) (_g : Option GuardFind), ((getQ s q.val).words[(getQ s q.val).rd]? = some w) ∧ (t ≠ w.tag ∨ 64 < w.tag)) ∧
    (∃ (s : State) (core : Bool) (_g : Option GuardFind), (s.qm.ready = false ∨ s.sw.ready = false ∨ nextFeed s core = none)) ∧
    (∃ (s t : State) (core : Bool) (g : Option GuardFind) (q : Nat) (ws : List QWord) (src : Option (Bool × Nat)) (h : Option GuardHit), (s.qm.ready = true) ∧ (s.sw.ready = true) ∧ (nextFeed s core = some q) ∧ ((ws, src, h, t) = takenPacket core q g s)) :=
  ⟨⟨up, 0, (by decide)⟩,
   ⟨up, 0, 0, none, (by decide)⟩,
   ⟨{ up with qm := { up.qm with q := [(0xFF, { words := [{}] })] } }, 0xFF, {}, (by decide), (by decide)⟩,
   ⟨{ up with qm := { up.qm with q := [(0xFF, { words := [{}] })] } }, 0xFF, {}, (by decide), (by decide)⟩,
   ⟨{ up with qm := { up.qm with q := [(0xFF, { words := [{}] })] } }, 0xFF, {}, {}, (by decide), (by decide)⟩,
   ⟨{ up with qm := { up.qm with q := [(0xFF, { words := [{}] })] } }, 0xFF, {}, 1, none, (by decide), (by decide)⟩,
   ⟨up, false, none, (by exact Or.inl rfl)⟩,
   ⟨{ up with sw := { up.sw with ready := true }, qm := { up.qm with ready := true, q := [(0x08, { words := [{ last := true }] })] } }, (takenPacket false 8 none ({ up with sw := { up.sw with ready := true }, qm := { up.qm with ready := true, q := [(0x08, { words := [{ last := true }] })] } })).2.2.2, false, none, 0x08, [{ last := true }], none, none, (by decide), (by decide), (by decide), (rfl)⟩⟩

theorem wit_CabinetCycles_part1 :
    (∃ (s : State), (tcuDue s 4 = true)) ∧
    (∃ (s : State), (tcuDue s 4 = false)) ∧
    (∃ (s : State) (g : Fin 2) (f : CabFrame), ((getSeg s g.val).image = some f) ∧ ((getSeg s g.val).cfg.en = true) ∧ (s.fo.gateOpen = true) ∧ ((getSeg s g.val).coord = true) ∧ (((getSeg s g.val).slotted = true ∨ ltReached s.now (ltAdd (getSeg s g.val).t0 (usTu 10)) = true))) ∧
    (∃ (s : State) (g : Fin 2), ((getSeg s g.val).image = none ∨ (getSeg s g.val).cfg.en = false ∨ s.fo.gateOpen = false ∨ (getSeg s g.val).coord = false ∨ ¬((getSeg s g.val).slotted = true ∨ ltReached s.now (ltAdd (getSeg s g.val).t0 (usTu 10)) = true))) ∧
    (∃ (s : State) (g : Fin 2) (_f : Frame) (_t : LT), ((getSeg s g.val).cfg.en = false)) ∧
    (∃ (s : State) (g : Fin 2) (f : Frame) (_t : LT), ((getSeg s g.val).cfg.en = true) ∧ (rxClass f.len 1536 f.fcsOk ≠ .good)) ∧
    (∃ (s u : State) (g : Fin 2) (f : Frame) (t : LT), ((getSeg s g.val).cfg.en = true) ∧ (rxClass f.len 1536 f.fcsOk = .good) ∧ (¬((readCab f.bytes).etype = (getSeg s g.val).cfg.etype ∧ (readCab f.bytes).type ≠ .reserved)) ∧ (viaQueue (0x16 + g.val) (noticeBytes s (0x16 + g.val) t (rxStatusWord 0 0 f.codeErr false false) (0x10 + g.val) 0 0 false) f.bytes s = (true, u))) ∧
    (∃ (s : State) (g : Fin 2) (f : Frame) (_t : LT), ((getSeg s g.val).cfg.en = true) ∧ (rxClass f.len 1536 f.fcsOk = .good) ∧ (((readCab f.bytes).etype = (getSeg s g.val).cfg.etype ∧ (readCab f.bytes).type ≠ .reserved))) ∧
    (∃ (s u : State) (g : Fin 2) (f : Frame) (t : LT), ((getSeg s g.val).cfg.en = true) ∧ (rxClass f.len 1536 f.fcsOk = .good) ∧ (viaQueue (0x16 + g.val) (noticeBytes s (0x16 + g.val) t (rxStatusWord 0 0 f.codeErr false false) (0x10 + g.val) 0 0 false) f.bytes s = (false, u)) ∧ (¬((readCab f.bytes).etype = (getSeg s g.val).cfg.etype ∧ (readCab f.bytes).type ≠ .reserved) ∨ ((readCab f.bytes).type = .report ∨ (readCab f.bytes).type = .announce ∨ (readCab f.bytes).type = .image))) ∧
    (∃ (s u : State) (g : Fin 2) (f : Frame) (t : LT) (c : StnCfg), (cabHeard g .report t f s = some u) ∧ (stnCfg u g.val (readCab f.bytes).node = some c) ∧ ((vget (getSeg u g.val).stn (readCab f.bytes).node {}).state ≠ .unassigned) ∧ ((vget (getSeg u g.val).stn (readCab f.bytes).node {}).reported = false) ∧ ((readCab f.bytes).data.length = c.ilen)) ∧
    (∃ (s u : State) (g : Fin 2) (f : Frame) (t : LT) (c : StnCfg), (cabHeard g .report t f s = some u) ∧ (stnCfg u g.val (readCab f.bytes).node = some c) ∧ ((vget (getSeg u g.val).stn (readCab f.bytes).node {}).state ≠ .unassigned) ∧ ((vget (getSeg u g.val).stn (readCab f.bytes).node {}).reported = true)) ∧
    (∃ (s u : State) (g : Fin 2) (f : Frame) (t : LT) (c : StnCfg), (cabHeard g .report t f s = some u) ∧ (stnCfg u g.val (readCab f.bytes).node = some c) ∧ ((vget (getSeg u g.val).stn (readCab f.bytes).node {}).state ≠ .unassigned) ∧ ((vget (getSeg u g.val).stn (readCab f.bytes).node {}).reported = false) ∧ ((readCab f.bytes).data.length ≠ c.ilen)) :=
  ⟨⟨modTcu 4 (fun u => { u with en := true }) up, (by decide)⟩,
   ⟨up, (by decide)⟩,
   ⟨{ up with tb := { up.tb with acc := 0x40000000000000000 }, fo := { up.fo with gateOpen := true, seg := .replicate 2 { cfg := { en := true }, coord := true, image := some {} } } }, 1, {}, (by decide), (by decide), (by decide), (by decide), (by decide)⟩,
   ⟨up, 1, (by exact Or.inl rfl)⟩,
   ⟨up, 1, {}, 0, (by decide)⟩,
   ⟨cabUp, 1, { len := 64, fcsOk := false }, 0, (by decide), (by decide)⟩,
   ⟨cabUp, (viaQueue 0x16 (noticeBytes cabUp 0x16 0 0 0x10 0 0 false) [] cabUp).2, 0, { len := 64, fcsOk := true }, 0, (by decide +kernel), (by decide), (by decide +kernel), (rfl)⟩,
   ⟨cabUp, 0, { len := 64, fcsOk := true, bytes := cabBytes cabReport }, 0, (by decide +kernel), (by decide +kernel), (by decide +kernel)⟩,
   ⟨{ cabUp with qm := { cabUp.qm with cap := [(0x16, { cap := 0 })] } }, (viaQueue 0x16 (noticeBytes { cabUp with qm := { cabUp.qm with cap := [(0x16, { cap := 0 })] } } 0x16 0 0 0x10 0 0 false) [] { cabUp with qm := { cabUp.qm with cap := [(0x16, { cap := 0 })] } }).2, 0, { len := 64, fcsOk := true }, 0, (by decide +kernel), (by decide), (rfl), (by decide +kernel)⟩,
   ⟨cabUp, (cabHeard 1 .report 0 { len := 64, fcsOk := true, bytes := cabBytes cabReport } cabUp).getD cabUp, 1, { len := 64, fcsOk := true, bytes := cabBytes cabReport }, 0, cabStn, (by with_unfolding_all rfl), (by decide +kernel), (by decide +kernel), (by decide +kernel), (by decide +kernel)⟩,
   ⟨cabDup, (cabHeard 1 .report 0 { len := 64, fcsOk := true, bytes := cabBytes cabReport } cabDup).getD cabDup, 1, { len := 64, fcsOk := true, bytes := cabBytes cabReport }, 0, cabStn, (by with_unfolding_all rfl), (by decide +kernel), (by decide +kernel), (by decide +kernel)⟩,
   ⟨cabUp, (cabHeard 1 .report 0 { len := 64, fcsOk := true, bytes := cabBytes { cabReport with data := [1] } } cabUp).getD cabUp, 1, { len := 64, fcsOk := true, bytes := cabBytes { cabReport with data := [1] } }, 0, cabStn, (by with_unfolding_all rfl), (by decide +kernel), (by decide +kernel), (by decide +kernel), (by decide +kernel)⟩⟩

theorem wit_CabinetCycles_part2 :
    (∃ (s u : State) (g : Fin 2) (f : Frame) (t : LT), (cabHeard g .report t f s = some u) ∧ (stnCfg u g.val (readCab f.bytes).node = none ∨ (vget (getSeg u g.val).stn (readCab f.bytes).node {}).state = .unassigned)) ∧
    (∃ (s u : State) (g : Fin 2) (f : Frame) (t : LT), (cabHeard g .image t f s = some u)) ∧
    (∃ (s u : State) (g : Fin 2) (f : Frame) (t : LT) (c : StnCfg) (v : State), (cabHeard g .announce t f s = some u) ∧ (stnCfg u g.val (readCab f.bytes).node = some c) ∧ (c.vendor = (readCab f.bytes).vendor ∧ c.model = (readCab f.bytes).model ∧ c.ilen ≤ (readCab f.bytes).ilenMax ∧ c.olen ≤ (readCab f.bytes).olenMax) ∧ (v = modStn g.val (readCab f.bytes).node (fun y => { y with mac := (readCab f.bytes).src, reportedOnce := false, state := if y.state = .unassigned then .absent else y.state }) u)) ∧
    (∃ (s u : State) (g : Fin 2) (f : Frame) (t : LT), (cabHeard g .announce t f s = some u) ∧ ((∀ c, stnCfg u g.val (readCab f.bytes).node = some c → ¬(c.vendor = (readCab f.bytes).vendor ∧ c.model = (readCab f.bytes).model ∧ c.ilen ≤ (readCab f.bytes).ilenMax ∧ c.olen ≤ (readCab f.bytes).olenMax)))) ∧
    (∃ (s : State) (g : Fin 2) (k : Fin 32) (c : StnCfg), (stnCfg s g.val k.val = some c) ∧ ((match slotEnd s g.val c with | some t => ltReached s.now t | none => false) = true) ∧ ((getSeg s g.val).cfg.en = true) ∧ ((getSeg s g.val).slotted = false) ∧ ((getSeg s g.val).modeChanged = false) ∧ ((vget (getSeg s g.val).stn k.val {}).reported = false) ∧ ((vget (getSeg s g.val).stn k.val {}).missCounted = false) ∧ (((vget (getSeg s g.val).stn k.val {}).state = .present ∨ (vget (getSeg s g.val).stn k.val {}).state = .resyncPending)) ∧ ((getSeg s g.val).cfg.n ≤ (vget (getSeg s g.val).stn k.val {}).missed + 1)) ∧
    (∃ (s : State) (g : Fin 2) (k : Fin 32), ((stnCfg s g.val k.val = none ∨ (∃ c, stnCfg s g.val k.val = some c ∧ (match slotEnd s g.val c with | some t => ltReached s.now t | none => false) = false) ∨ (getSeg s g.val).cfg.en = false ∨ (getSeg s g.val).slotted = true ∨ (getSeg s g.val).modeChanged = true ∨ (vget (getSeg s g.val).stn k.val {}).reported = true ∨ (vget (getSeg s g.val).stn k.val {}).missCounted = true ∨ ¬((vget (getSeg s g.val).stn k.val {}).state = .present ∨ (vget (getSeg s g.val).stn k.val {}).state = .resyncPending) ∨ (vget (getSeg s g.val).stn k.val {}).missed + 1 < (getSeg s g.val).cfg.n))) ∧
    (∃ (s : State) (g : Fin 2), ((getSeg s g.val).cfg.en = true)) ∧
    (∃ (s : State) (g : Fin 2), ((getSeg s g.val).cfg.en = false)) ∧
    (∃ (s : State) (g : Fin 2), ((getSeg s g.val).cfg.en = true) ∧ ((getSeg s g.val).slotted = true) ∧ ((getSeg s g.val).reason = .startup) ∧ ((getSeg s g.val).nextMode = none) ∧ ((((getSeg s g.val).startedAt.isSome = true ∧ (getSeg s g.val).cfg.stations.all (fun c => (vget (getSeg s g.val).stn c.node {}).reportedOnce) = true) ∨ ∃ t, (getSeg s g.val).startedAt = some t ∧ ltReached s.now (ltAdd t (msTu 200)) = true))) ∧
    (∃ (s : State) (g : Fin 2), (((getSeg s g.val).cfg.en = false ∨ (getSeg s g.val).slotted = false ∨ (getSeg s g.val).reason ≠ .startup ∨ (getSeg s g.val).nextMode ≠ none ∨ ¬(((getSeg s g.val).startedAt.isSome = true ∧ (getSeg s g.val).cfg.stations.all (fun c => (vget (getSeg s g.val).stn c.node {}).reportedOnce) = true) ∨ ∃ t, (getSeg s g.val).startedAt = some t ∧ ltReached s.now (ltAdd t (msTu 200)) = true)))) ∧
    (∃ (s : State) (c : Cmd) (g : Fin 2), (runs 0x0E40 false c s = true) ∧ ((getSeg (entered 0x0E40 c s) g.val).cfg.en = true) ∧ (¬(((getSeg (entered 0x0E40 c s) g.val).slotted = true ∧ ((getSeg (entered 0x0E40 c s) g.val).reason = .startup ∨ (getSeg (entered 0x0E40 c s) g.val).reason = .recovery)) ∨ (getSeg (entered 0x0E40 c s) g.val).nextMode = some (true, .startup) ∨ (getSeg (entered 0x0E40 c s) g.val).nextMode = some (true, .recovery)))) ∧
    (∃ (s : State) (c : Cmd) (g : Fin 2), (runs 0x0E40 false c s = true) ∧ ((getSeg (entered 0x0E40 c s) g.val).cfg.en = true) ∧ (((getSeg (entered 0x0E40 c s) g.val).slotted = true ∧ ((getSeg (entered 0x0E40 c s) g.val).reason = .startup ∨ (getSeg (entered 0x0E40 c s) g.val).reason = .recovery)) ∨ (getSeg (entered 0x0E40 c s) g.val).nextMode = some (true, .startup) ∨ (getSeg (entered 0x0E40 c s) g.val).nextMode = some (true, .recovery))) :=
  ⟨⟨cabUp, (cabHeard 1 .report 0 { len := 64, fcsOk := true, bytes := cabBytes { cabReport with node := 3 } } cabUp).getD cabUp, 1, { len := 64, fcsOk := true, bytes := cabBytes { cabReport with node := 3 } }, 0, (by with_unfolding_all rfl), (by decide +kernel)⟩,
   ⟨cabUp, (cabHeard 0 .image 0 { len := 64, fcsOk := true, bytes := cabBytes { cabReport with type := .image } } cabUp).getD cabUp, 0, { len := 64, fcsOk := true, bytes := cabBytes { cabReport with type := .image } }, 0, (by with_unfolding_all rfl)⟩,
   ⟨cabUp, (cabHeard 1 .announce 0 { len := 64, fcsOk := true, bytes := cabBytes { cabReport with type := .announce } } cabUp).getD cabUp, 1, { len := 64, fcsOk := true, bytes := cabBytes { cabReport with type := .announce } }, 0, cabStn, modStn 1 31 (fun y => { y with mac := (readCab (cabBytes { cabReport with type := .announce })).src, reportedOnce := false, state := if y.state = .unassigned then .absent else y.state }) ((cabHeard 1 .announce 0 { len := 64, fcsOk := true, bytes := cabBytes { cabReport with type := .announce } } cabUp).getD cabUp), (by with_unfolding_all rfl), (by decide +kernel), (by decide +kernel), (by with_unfolding_all rfl)⟩,
   ⟨cabUp, (cabHeard 1 .announce 0 { len := 64, fcsOk := true, bytes := cabBytes { cabReport with type := .announce, node := 3 } } cabUp).getD cabUp, 1, { len := 64, fcsOk := true, bytes := cabBytes { cabReport with type := .announce, node := 3 } }, 0, (by with_unfolding_all rfl), (by intro c h; have e : stnCfg ((cabHeard 1 .announce 0 { len := 64, fcsOk := true, bytes := cabBytes { cabReport with type := .announce, node := 3 } } cabUp).getD cabUp) 1 (readCab (cabBytes { cabReport with type := .announce, node := 3 })).node = none := (by decide +kernel); exact absurd (e.symm.trans h) (by simp))⟩,
   ⟨cabMissed, 1, 31, cabStn, (by decide), (by decide), (by decide), (by decide), (by decide), (by decide), (by decide), (by decide), (by decide)⟩,
   ⟨up, 1, 31, (by exact Or.inl rfl)⟩,
   ⟨cabUp, 1, (by decide)⟩,
   ⟨up, 1, (by decide)⟩,
   ⟨{ up with tb := { up.tb with acc := 0x100000000000000000000 }, fo := { up.fo with seg := .replicate 2 { cfg := { en := true }, slotted := true, reason := .startup, startedAt := some 0 } } }, 0, (by decide), (by decide), (by decide), (by decide), (by exact Or.inl (by decide))⟩,
   ⟨up, 0, (by exact Or.inl (by decide))⟩,
   ⟨(asked 0x0E40 ({}) (cabUp)), {}, 1, (by decide +kernel), (by decide +kernel), (by decide +kernel)⟩,
   ⟨(asked 0x0E40 ({}) (modSeg 1 (fun x => { x with slotted := true, reason := .startup }) cabUp)), {}, 1, (by decide +kernel), (by decide +kernel), (by decide +kernel)⟩⟩

theorem wit_CabinetCycles_part3 : ∃ (s : State) (c : Cmd) (g : Fin 2), (runs 0x0E40 false c s = true) ∧ ((getSeg (entered 0x0E40 c s) g.val).cfg.en = false) :=
  ⟨(asked 0x0E40 ({}) (up)), {}, 0, (by decide +kernel), (by decide +kernel)⟩

theorem wit_StreamsAlign_part1 :
    (∃ (s : State) (q : Fin 8) (_f : SvFrame) (_h : GoFrame) (_g : Option GuardFind), (s.se.ready = false ∨ (getQ s q.val).words = [])) ∧
    (∃ (s u : State) (q : Fin 8) (_f : SvFrame) (_h : GoFrame) (g : Option GuardFind), (s.se.ready = true) ∧ ((getQ s q.val).words ≠ []) ∧ (takeIngest q.val g s = (none, u))) ∧
    (∃ (s u : State) (q : Fin 8) (f : SvFrame) (g : Option GuardFind) (rx : LT), (s.se.ready = true) ∧ ((getQ s q.val).words ≠ []) ∧ (takeIngest q.val g s = (some rx, u)) ∧ (drainMatch u rx f = none) ∧ (svMatch u.se.svCfg f = none)) ∧
    (∃ (s u : State) (q : Fin 8) (f : SvFrame) (g : Option GuardFind) (rx : LT) (n : Nat), (s.se.ready = true) ∧ ((getQ s q.val).words ≠ []) ∧ (takeIngest q.val g s = (some rx, u)) ∧ (drainMatch u rx f = none) ∧ (svMatch u.se.svCfg f = some n)) ∧
    (∃ (s u : State) (q : Fin 8) (f : SvFrame) (g : Option GuardFind) (rx : LT) (n : Nat), (s.se.ready = true) ∧ ((getQ s q.val).words ≠ []) ∧ (takeIngest q.val g s = (some rx, u)) ∧ (drainMatch u rx f = some n)) ∧
    (∃ (s u : State) (q : Fin 8) (f : GoFrame) (g : Option GuardFind) (rx : LT), (s.se.ready = true) ∧ ((getQ s q.val).words ≠ []) ∧ (takeIngest q.val g s = (some rx, u)) ∧ ((sortBy (·.1) u.se.gsCfg).find? (fun e => e.2.en && e.2.gocbRef == f.gocbRef && keyMatches e.2.key f.key) = none)) ∧
    (∃ (s u : State) (q : Fin 8) (f : GoFrame) (g : Option GuardFind) (rx : LT) (n : Nat) (c : GoSubCfg), (s.se.ready = true) ∧ ((getQ s q.val).words ≠ []) ∧ (takeIngest q.val g s = (some rx, u)) ∧ ((sortBy (·.1) u.se.gsCfg).find? (fun e => e.2.en && e.2.gocbRef == f.gocbRef && keyMatches e.2.key f.key) = some (n, c)) ∧ (goFailure u c (getGs u n) f = none)) ∧
    (∃ (s u : State) (q : Fin 8) (f : GoFrame) (g : Option GuardFind) (rx : LT) (n : Nat) (c : GoSubCfg), (s.se.ready = true) ∧ ((getQ s q.val).words ≠ []) ∧ (takeIngest q.val g s = (some rx, u)) ∧ ((sortBy (·.1) u.se.gsCfg).find? (fun e => e.2.en && e.2.gocbRef == f.gocbRef && keyMatches e.2.key f.key) = some (n, c)) ∧ (goFailure u c (getGs u n) f = some .other)) ∧
    (∃ (s u : State) (q : Fin 8) (f : GoFrame) (g : Option GuardFind) (rx : LT) (n : Nat) (c : GoSubCfg), (s.se.ready = true) ∧ ((getQ s q.val).words ≠ []) ∧ (takeIngest q.val g s = (some rx, u)) ∧ ((sortBy (·.1) u.se.gsCfg).find? (fun e => e.2.en && e.2.gocbRef == f.gocbRef && keyMatches e.2.key f.key) = some (n, c)) ∧ (goFailure u c (getGs u n) f = some .confRev)) ∧
    (∃ (s u : State) (q : Fin 8) (f : GoFrame) (g : Option GuardFind) (rx : LT) (n : Nat) (c : GoSubCfg), (s.se.ready = true) ∧ ((getQ s q.val).words ≠ []) ∧ (takeIngest q.val g s = (some rx, u)) ∧ ((sortBy (·.1) u.se.gsCfg).find? (fun e => e.2.en && e.2.gocbRef == f.gocbRef && keyMatches e.2.key f.key) = some (n, c)) ∧ (goFailure u c (getGs u n) f = some .auth)) ∧
    (∃ (s : State) (g : Fin 16) (i : Instant) (l : List Instant), ((getGroup s g.val).instants = i :: l) ∧ (s.se.ready = true) ∧ ((instantComplete s i (instantStreams s g.val (instantLt s i.sec i.k i.rate)) = true ∨ ltReached s.now (ltAdd i.tFirst (usTu (groupCfgAt s g.val (instantLt s i.sec i.k i.rate)).tolUs)) = true))) ∧
    (∃ (s : State) (g : Fin 16), (((getGroup s g.val).instants = [] ∨ s.se.ready = false ∨ ∃ i l, (getGroup s g.val).instants = i :: l ∧ ¬(instantComplete s i (instantStreams s g.val (instantLt s i.sec i.k i.rate)) = true ∨ ltReached s.now (ltAdd i.tFirst (usTu (groupCfgAt s g.val (instantLt s i.sec i.k i.rate)).tolUs)) = true)))) :=
  ⟨⟨up, 0, {}, {}, none, (by decide)⟩,
   ⟨ingest, (takeIngest 7 (some (.uncorrectable {})) ingest).2, 7, {}, {}, some (.uncorrectable {}), (by decide), (by decide), (rfl)⟩,
   ⟨ingest, (takeIngest 7 none ingest).2, 7, {}, none, 0, (by decide), (by decide), (rfl), (by decide), (by decide)⟩,
   ⟨ingest, (takeIngest 0 none ingest).2, 0, { asdus := [{ svId := [1] }] }, none, 0, 0, (by decide), (by decide), (rfl), (by decide), (by decide)⟩,
   ⟨{ ingest with se := { ingest.se with svDrain := [{ sub := 0, upTo := 0x1000000000000, cfg := { svId := [1] }, st := { state := .locked } }] } }, (takeIngest 0 none { ingest with se := { ingest.se with svDrain := [{ sub := 0, upTo := 0x1000000000000, cfg := { svId := [1] }, st := { state := .locked } }] } }).2, 0, { asdus := [{ svId := [1], smpCnt := 1 }] }, none, 0, 0, (by decide), (by decide), (rfl), (by decide +kernel)⟩,
   ⟨ingest, (takeIngest 0 none ingest).2, 0, {}, none, 0, (by decide), (by decide), (rfl), (by decide)⟩,
   ⟨ingestGo, (takeIngest 0 none ingestGo).2, 0, { tal := some 1 }, none, 0, 1023, {}, (by decide), (by decide), (rfl), (by decide +kernel), (by decide +kernel)⟩,
   ⟨ingestGo, (takeIngest 0 none ingestGo).2, 0, {}, none, 0, 1023, {}, (by decide), (by decide), (rfl), (by decide +kernel), (by decide +kernel)⟩,
   ⟨ingestGo, (takeIngest 0 none ingestGo).2, 0, { tal := some 1, confRev := 1 }, none, 0, 1023, {}, (by decide), (by decide), (rfl), (by decide +kernel), (by decide +kernel)⟩,
   ⟨{ ingest with se := { up.se with ready := true, gsCfg := [(1023, { authReq := true })] } }, (takeIngest 0 none { ingest with se := { up.se with ready := true, gsCfg := [(1023, { authReq := true })] } }).2, 0, { tal := some 1 }, none, 0, 1023, { authReq := true }, (by decide), (by decide), (rfl), (by decide +kernel), (by decide +kernel)⟩,
   ⟨{ up with tb := { up.tb with acc := 0x400000000000000000 }, se := { up.se with ready := true, group := .replicate 16 { instants := [{}] } } }, 15, {}, [], (by decide), (by decide), (by decide)⟩,
   ⟨up, 15, (by exact Or.inl rfl)⟩⟩

theorem wit_StreamsAlign_part2 :
    (∃ (s v : State), (tcuDue s 3 = true) ∧ (v = (onSe (fun x => { x with hist := ((x.secNo, gridStart s) :: x.hist).take 4, ltS := (getTcu s 3).target, secNo := x.secNo + 1 }) (fireTcu 3 s)))) ∧
    (∃ (s : State), (tcuDue s 3 = false)) ∧
    (∃ (s : State) (n : Fin 1024) (t : Nat) (c : GoSubCfg), ((getGs s n.val).talAt = some t) ∧ (s.se.gsCfg.get? n.val = some c) ∧ (s.se.ready = true) ∧ (t ≤ s.abs) ∧ ((allBatches s).any (fun b => b.src == .goose) = false)) ∧
    (∃ (s : State) (n : Fin 1024), (((getGs s n.val).talAt = none ∨ s.se.gsCfg.get? n.val = none ∨ s.se.ready = false ∨ (∃ t, (getGs s n.val).talAt = some t ∧ s.abs < t) ∨ (allBatches s).any (fun b => b.src == .goose) = true))) ∧
    (∃ (s : State) (p : Fin 256) (t : LT), ((getGp s p.val).pendingAt = some t) ∧ (mayPublish s p.val = true)) ∧
    (∃ (s : State) (p : Fin 256), ((getGp s p.val).pendingAt = none ∨ mayPublish s p.val = false)) ∧
    (∃ (s : State) (p : Fin 256) (t : LT), ((getGp s p.val).nextAt = some t) ∧ ((getGp s p.val).pendingAt = none) ∧ (mayPublish s p.val = true) ∧ (ltReached s.now t = true)) ∧
    (∃ (s : State) (p : Fin 256), (((getGp s p.val).nextAt = none ∨ (getGp s p.val).pendingAt ≠ none ∨ mayPublish s p.val = false ∨ ∃ t, (getGp s p.val).nextAt = some t ∧ ltReached s.now t = false))) :=
  ⟨⟨modTcu 3 (fun u => { u with en := true }) up, (onSe (fun x => { x with hist := ((x.secNo, gridStart (modTcu 3 (fun u => { u with en := true }) up)) :: x.hist).take 4, ltS := (getTcu (modTcu 3 (fun u => { u with en := true }) up) 3).target, secNo := x.secNo + 1 }) (fireTcu 3 (modTcu 3 (fun u => { u with en := true }) up))), (by decide), (rfl)⟩,
   ⟨up, (by decide)⟩,
   ⟨{ up with se := { up.se with ready := true, gsCfg := [(1023, {})], gs := [(1023, { talAt := some 0 })] } }, 1023, 0, {}, (by decide), (by decide), (by decide), (by decide), (by decide)⟩,
   ⟨up, 1023, (by exact Or.inl rfl)⟩,
   ⟨gooseUp, 255, 0, (by decide), (by decide)⟩,
   ⟨up, 255, (by decide)⟩,
   ⟨gooseSent, 255, 0, (by decide), (by decide), (by decide), (by decide)⟩,
   ⟨up, 255, (by exact Or.inl rfl)⟩⟩

theorem wit_StagedItemsJoinTheSession_part1 :
    (∃ (c : Cmd) (x : PtpCfg) (s : State), (stagedOk 0x0101 false c [.ptp x] (fun _ _ => none) s = true)) ∧
    (∃ (c : Cmd) (x : PtpCfg) (b : ReplyBody) (s t : State), (started 0x0101 false c s = true) ∧ (stageRefusal 0x0101 c [.ptp x] (fun _ _ => none) s = some (b, t))) ∧
    (∃ (c : Cmd) (x : SourcesCfg) (s : State), (stagedOk 0x0102 false c [.sources x] (fun _ _ => none) s = true)) ∧
    (∃ (c : Cmd) (x : SourcesCfg) (b : ReplyBody) (s t : State), (started 0x0102 false c s = true) ∧ (stageRefusal 0x0102 c [.sources x] (fun _ _ => none) s = some (b, t))) ∧
    (∃ (c : Cmd) (l : List PortLatCfg) (s : State), (stagedOk 0x0103 false c (l.map .portLat) (checkTbStagePortLat l) s = true)) ∧
    (∃ (c : Cmd) (l : List PortLatCfg) (b : ReplyBody) (s t : State), (started 0x0103 false c s = true) ∧ (stageRefusal 0x0103 c (l.map .portLat) (checkTbStagePortLat l) s = some (b, t))) ∧
    (∃ (c : Cmd) (x : PinCfg) (s : State), (stagedOk 0x0104 false c [.pins x] (checkTbStagePins x) s = true)) ∧
    (∃ (c : Cmd) (x : PinCfg) (b : ReplyBody) (s t : State), (started 0x0104 false c s = true) ∧ (stageRefusal 0x0104 c [.pins x] (checkTbStagePins x) s = some (b, t))) ∧
    (∃ (c : Cmd) (l : List TcuAssign) (s : State), (stagedOk 0x0105 false c (l.map .tcuAssign) (checkTbStageTcuAssign l) s = true)) ∧
    (∃ (c : Cmd) (l : List TcuAssign) (b : ReplyBody) (s t : State), (started 0x0105 false c s = true) ∧ (stageRefusal 0x0105 c (l.map .tcuAssign) (checkTbStageTcuAssign l) s = some (b, t))) ∧
    (∃ (c : Cmd) (p : Fin 14) (x : PortCfg) (s : State), (stagedOk 0x0201 false c [.port p x] (fun _ _ => none) s = true)) ∧
    (∃ (c : Cmd) (p : Fin 14) (x : PortCfg) (b : ReplyBody) (s t : State), (started 0x0201 false c s = true) ∧ (stageRefusal 0x0201 c [.port p x] (fun _ _ => none) s = some (b, t))) :=
  ⟨⟨{ session := 1, plen := 16 }, {}, (asked 0x0101 ({ session := 1, plen := 16 }) (staging)), (by decide)⟩,
   ⟨{ session := 1, plen := 16 }, {}, (suSt .notReady), (asked 0x0101 ({ session := 1, plen := 16 }) up), (begun ({ session := 1, plen := 16 }) (asked 0x0101 ({ session := 1, plen := 16 }) up)), (by decide), (rfl)⟩,
   ⟨{ session := 1, plen := 16 }, {}, (asked 0x0102 ({ session := 1, plen := 16 }) (staging)), (by decide)⟩,
   ⟨{ session := 1, plen := 16 }, {}, (suSt .notReady), (asked 0x0102 ({ session := 1, plen := 16 }) up), (begun ({ session := 1, plen := 16 }) (asked 0x0102 ({ session := 1, plen := 16 }) up)), (by decide), (rfl)⟩,
   ⟨{ session := 1, plen := 16 }, [{ port := 13, phyUnc := 1000 }], (asked 0x0103 ({ session := 1, plen := 16 }) (staging)), (by decide)⟩,
   ⟨{ session := 1, plen := 16 }, [{ port := 13, phyUnc := 1000 }], (suSt .notReady), (asked 0x0103 ({ session := 1, plen := 16 }) up), (begun ({ session := 1, plen := 16 }) (asked 0x0103 ({ session := 1, plen := 16 }) up)), (by decide), (rfl)⟩,
   ⟨{ session := 1, plen := 16 }, {}, (asked 0x0104 ({ session := 1, plen := 16 }) (staging)), (by decide)⟩,
   ⟨{ session := 1, plen := 16 }, {}, (suSt .notReady), (asked 0x0104 ({ session := 1, plen := 16 }) up), (begun ({ session := 1, plen := 16 }) (asked 0x0104 ({ session := 1, plen := 16 }) up)), (by decide), (rfl)⟩,
   ⟨{ session := 1, plen := 16 }, [{ unit := 11, dest := 0x26, owner := 64 }], (asked 0x0105 ({ session := 1, plen := 16 }) (staging)), (by decide)⟩,
   ⟨{ session := 1, plen := 16 }, [{ unit := 11, dest := 0x26, owner := 64 }], (suSt .notReady), (asked 0x0105 ({ session := 1, plen := 16 }) up), (begun ({ session := 1, plen := 16 }) (asked 0x0105 ({ session := 1, plen := 16 }) up)), (by decide), (rfl)⟩,
   ⟨{ session := 1, plen := 16 }, 13, {}, (asked 0x0201 ({ session := 1, plen := 16 }) (staging)), (by decide)⟩,
   ⟨{ session := 1, plen := 16 }, 13, {}, (suSt .notReady), (asked 0x0201 ({ session := 1, plen := 16 }) up), (begun ({ session := 1, plen := 16 }) (asked 0x0201 ({ session := 1, plen := 16 }) up)), (by decide), (rfl)⟩⟩

theorem wit_StagedItemsJoinTheSession_part2 :
    (∃ (c : Cmd) (p : Fin 14) (l : List (Nat × AddrEntry)) (s : State), (stagedOk 0x0202 false c (l.map (fun e => .filter p e.1 e.2)) (fun _ _ => none) s = true)) ∧
    (∃ (c : Cmd) (p : Fin 14) (l : List (Nat × AddrEntry)) (b : ReplyBody) (s t : State), (started 0x0202 false c s = true) ∧ (stageRefusal 0x0202 c (l.map (fun e => .filter p e.1 e.2)) (fun _ _ => none) s = some (b, t))) ∧
    (∃ (c : Cmd) (pair : Nat) (x : RedCfg) (s : State), (stagedOk 0x0203 false c [.red pair x] (checkPxStageRedundancy x) s = true)) ∧
    (∃ (c : Cmd) (pair : Nat) (x : RedCfg) (b : ReplyBody) (s t : State), (started 0x0203 false c s = true) ∧ (stageRefusal 0x0203 c [.red pair x] (checkPxStageRedundancy x) s = some (b, t))) ∧
    (∃ (c : Cmd) (p : Nat) (x : MacsecCfg) (s : State), (stagedOk 0x0204 false c [.macsec p x] (checkPxStageMacsec x) s = true)) ∧
    (∃ (c : Cmd) (p : Nat) (x : MacsecCfg) (b : ReplyBody) (s t : State), (started 0x0204 false c s = true) ∧ (stageRefusal 0x0204 c [.macsec p x] (checkPxStageMacsec x) s = some (b, t))) ∧
    (∃ (c : Cmd) (l : List (Fin 16 × Fin 8 × LimitsCfg)) (s : State), (stagedOk 0x0301 false c (l.map (fun e => .limits e.1 e.2.1 e.2.2)) (checkSwStageLimits l) s = true)) ∧
    (∃ (c : Cmd) (l : List (Fin 16 × Fin 8 × LimitsCfg)) (b : ReplyBody) (s t : State), (started 0x0301 false c s = true) ∧ (stageRefusal 0x0301 c (l.map (fun e => .limits e.1 e.2.1 e.2.2)) (checkSwStageLimits l) s = some (b, t))) ∧
    (∃ (c : Cmd) (l : List (Nat × FdbStatic)) (s : State), (stagedOk 0x0302 false c (l.map (fun e => .fdb e.1 e.2)) (checkSwStageFdb l) s = true)) ∧
    (∃ (c : Cmd) (l : List (Nat × FdbStatic)) (b : ReplyBody) (s t : State), (started 0x0302 false c s = true) ∧ (stageRefusal 0x0302 c (l.map (fun e => .fdb e.1 e.2)) (checkSwStageFdb l) s = some (b, t))) ∧
    (∃ (c : Cmd) (l : List (BitVec 12 × VlanCfg)) (s : State), (stagedOk 0x0303 false c (l.map (fun e => .vlan e.1 e.2)) (fun _ _ => none) s = true)) ∧
    (∃ (c : Cmd) (l : List (BitVec 12 × VlanCfg)) (b : ReplyBody) (s t : State), (started 0x0303 false c s = true) ∧ (stageRefusal 0x0303 c (l.map (fun e => .vlan e.1 e.2)) (fun _ _ => none) s = some (b, t))) :=
  ⟨⟨{ session := 1, plen := 16 }, 13, [(0, {})], (asked 0x0202 ({ session := 1, plen := 16 }) (staging)), (by decide)⟩,
   ⟨{ session := 1, plen := 16 }, 13, [(0, {})], (suSt .notReady), (asked 0x0202 ({ session := 1, plen := 16 }) up), (begun ({ session := 1, plen := 16 }) (asked 0x0202 ({ session := 1, plen := 16 }) up)), (by decide), (rfl)⟩,
   ⟨{ session := 1, plen := 16 }, 1, { forgetMs := 1000, lifeMs := 10000 }, (asked 0x0203 ({ session := 1, plen := 16 }) (staging)), (by decide)⟩,
   ⟨{ session := 1, plen := 16 }, 1, { forgetMs := 1000, lifeMs := 10000 }, (suSt .notReady), (asked 0x0203 ({ session := 1, plen := 16 }) up), (begun ({ session := 1, plen := 16 }) (asked 0x0203 ({ session := 1, plen := 16 }) up)), (by decide), (rfl)⟩,
   ⟨{ session := 1, plen := 16 }, 5, {}, (asked 0x0204 ({ session := 1, plen := 16 }) (staging)), (by decide)⟩,
   ⟨{ session := 1, plen := 16 }, 5, {}, (suSt .notReady), (asked 0x0204 ({ session := 1, plen := 16 }) up), (begun ({ session := 1, plen := 16 }) (asked 0x0204 ({ session := 1, plen := 16 }) up)), (by decide), (rfl)⟩,
   ⟨{ session := 1, plen := 16 }, [(15, 7, {})], (asked 0x0301 ({ session := 1, plen := 16 }) (staging)), (by decide)⟩,
   ⟨{ session := 1, plen := 16 }, [(15, 7, {})], (suSt .notReady), (asked 0x0301 ({ session := 1, plen := 16 }) up), (begun ({ session := 1, plen := 16 }) (asked 0x0301 ({ session := 1, plen := 16 }) up)), (by decide), (rfl)⟩,
   ⟨{ session := 1, plen := 16 }, [(16383, {})], (asked 0x0302 ({ session := 1, plen := 16 }) (staging)), (by decide)⟩,
   ⟨{ session := 1, plen := 16 }, [(16383, {})], (suSt .notReady), (asked 0x0302 ({ session := 1, plen := 16 }) up), (begun ({ session := 1, plen := 16 }) (asked 0x0302 ({ session := 1, plen := 16 }) up)), (by decide), (rfl)⟩,
   ⟨{ session := 1, plen := 16 }, [(4095, {})], (asked 0x0303 ({ session := 1, plen := 16 }) (staging)), (by decide)⟩,
   ⟨{ session := 1, plen := 16 }, [(4095, {})], (suSt .notReady), (asked 0x0303 ({ session := 1, plen := 16 }) up), (begun ({ session := 1, plen := 16 }) (asked 0x0303 ({ session := 1, plen := 16 }) up)), (by decide), (rfl)⟩⟩

theorem wit_StagedItemsJoinTheSession_part3 :
    (∃ (c : Cmd) (x : SwPortsCfg) (s : State), (stagedOk 0x0304 false c [.swPorts x] (checkSwStagePorts x) s = true)) ∧
    (∃ (c : Cmd) (x : SwPortsCfg) (b : ReplyBody) (s t : State), (started 0x0304 false c s = true) ∧ (stageRefusal 0x0304 c [.swPorts x] (checkSwStagePorts x) s = some (b, t))) ∧
    (∃ (c : Cmd) (x : MirrorCfg) (s : State), (stagedOk 0x0305 false c [.mirror x] (fun _ _ => none) s = true)) ∧
    (∃ (c : Cmd) (x : MirrorCfg) (b : ReplyBody) (s t : State), (started 0x0305 false c s = true) ∧ (stageRefusal 0x0305 c [.mirror x] (fun _ _ => none) s = some (b, t))) ∧
    (∃ (c : Cmd) (l : List (Nat × QueueCfg)) (s : State), (stagedOk 0x0401 false c (l.map (fun e => .queue e.1 e.2)) (checkQmStageQueues l) s = true)) ∧
    (∃ (c : Cmd) (l : List (Nat × QueueCfg)) (b : ReplyBody) (s t : State), (started 0x0401 false c s = true) ∧ (stageRefusal 0x0401 c (l.map (fun e => .queue e.1 e.2)) (checkQmStageQueues l) s = some (b, t))) ∧
    (∃ (c : Cmd) (l : List (Fin 64 × SteerEntry)) (s : State), (stagedOk 0x0402 false c (l.map (fun e => .steer e.1 e.2)) checkQmStageSteer s = true)) ∧
    (∃ (c : Cmd) (l : List (Fin 64 × SteerEntry)) (b : ReplyBody) (s t : State), (started 0x0402 false c s = true) ∧ (stageRefusal 0x0402 c (l.map (fun e => .steer e.1 e.2)) checkQmStageSteer s = some (b, t))) ∧
    (∃ (c : Cmd) (x : CabCfg) (s : State), (stagedOk 0x0E08 false c [.cabinet x] (checkFoStageCabinet x) s = true)) ∧
    (∃ (c : Cmd) (x : CabCfg) (b : ReplyBody) (s t : State), (started 0x0E08 false c s = true) ∧ (stageRefusal 0x0E08 c [.cabinet x] (checkFoStageCabinet x) s = some (b, t))) ∧
    (∃ (c : Cmd) (l : List (Fin 16 × GroupCfg)) (lockMs : Option Nat) (s : State), (stagedOk 0x0501 false c (l.map (fun e => Item.group e.1 e.2) ++ (lockMs.map (fun n => Item.lockTimeout n)).toList) (checkSeStageGroups l lockMs) s = true)) ∧
    (∃ (c : Cmd) (l : List (Fin 16 × GroupCfg)) (lockMs : Option Nat) (b : ReplyBody) (s t : State), (started 0x0501 false c s = true) ∧ (stageRefusal 0x0501 c (l.map (fun e => Item.group e.1 e.2) ++ (lockMs.map (fun n => Item.lockTimeout n)).toList) (checkSeStageGroups l lockMs) s = some (b, t))) :=
  ⟨⟨{ session := 1, plen := 16 }, {}, (asked 0x0304 ({ session := 1, plen := 16 }) (staging)), (by decide)⟩,
   ⟨{ session := 1, plen := 16 }, {}, (suSt .notReady), (asked 0x0304 ({ session := 1, plen := 16 }) up), (begun ({ session := 1, plen := 16 }) (asked 0x0304 ({ session := 1, plen := 16 }) up)), (by decide), (rfl)⟩,
   ⟨{ session := 1, plen := 16 }, {}, (asked 0x0305 ({ session := 1, plen := 16 }) (staging)), (by decide)⟩,
   ⟨{ session := 1, plen := 16 }, {}, (suSt .notReady), (asked 0x0305 ({ session := 1, plen := 16 }) up), (begun ({ session := 1, plen := 16 }) (asked 0x0305 ({ session := 1, plen := 16 }) up)), (by decide), (rfl)⟩,
   ⟨{ session := 1, plen := 16 }, [(0x41, {})], (asked 0x0401 ({ session := 1, plen := 16 }) (staging)), (by decide)⟩,
   ⟨{ session := 1, plen := 16 }, [(0x41, {})], (suSt .notReady), (asked 0x0401 ({ session := 1, plen := 16 }) up), (begun ({ session := 1, plen := 16 }) (asked 0x0401 ({ session := 1, plen := 16 }) up)), (by decide), (rfl)⟩,
   ⟨{ session := 1, plen := 16 }, [(63, { valid := true })], (asked 0x0402 ({ session := 1, plen := 16 }) (staging)), (by decide)⟩,
   ⟨{ session := 1, plen := 16 }, [(63, { valid := true })], (suSt .notReady), (asked 0x0402 ({ session := 1, plen := 16 }) up), (begun ({ session := 1, plen := 16 }) (asked 0x0402 ({ session := 1, plen := 16 }) up)), (by decide), (rfl)⟩,
   ⟨{ session := 1, plen := 16 }, {}, (asked 0x0E08 ({ session := 1, plen := 16 }) (staging)), (by decide)⟩,
   ⟨{ session := 1, plen := 16 }, {}, (suSt .notReady), (asked 0x0E08 ({ session := 1, plen := 16 }) up), (begun ({ session := 1, plen := 16 }) (asked 0x0E08 ({ session := 1, plen := 16 }) up)), (by decide), (rfl)⟩,
   ⟨{ session := 1, plen := 16 }, [(15, {})], some 30000, (asked 0x0501 ({ session := 1, plen := 16 }) (staging)), (by decide)⟩,
   ⟨{ session := 1, plen := 16 }, [(15, {})], some 30000, (suSt .notReady), (asked 0x0501 ({ session := 1, plen := 16 }) up), (begun ({ session := 1, plen := 16 }) (asked 0x0501 ({ session := 1, plen := 16 }) up)), (by decide), (rfl)⟩⟩

theorem wit_StagedItemsJoinTheSession_part4 :
    (∃ (c : Cmd) (l : List (Nat × SvCfg)) (s : State), (stagedOk 0x0502 true c (l.map (fun e => .svSub e.1 e.2)) (checkSeStageSv c l) s = true)) ∧
    (∃ (c : Cmd) (l : List (Nat × SvCfg)) (b : ReplyBody) (s t : State), (started 0x0502 true c s = true) ∧ (stageRefusal 0x0502 c (l.map (fun e => .svSub e.1 e.2)) (checkSeStageSv c l) s = some (b, t))) ∧
    (∃ (c : Cmd) (l : List (Nat × GoSubCfg)) (s : State), (stagedOk 0x0503 true c (l.map (fun e => .goSub e.1 e.2)) (checkSeStageGooseSub c l) s = true)) ∧
    (∃ (c : Cmd) (l : List (Nat × GoSubCfg)) (b : ReplyBody) (s t : State), (started 0x0503 true c s = true) ∧ (stageRefusal 0x0503 c (l.map (fun e => .goSub e.1 e.2)) (checkSeStageGooseSub c l) s = some (b, t))) ∧
    (∃ (c : Cmd) (l : List (Nat × GoPubCfg)) (s : State), (stagedOk 0x0504 true c (l.map (fun e => .goPub e.1 e.2)) (checkSeStageGoosePub c l) s = true)) ∧
    (∃ (c : Cmd) (l : List (Nat × GoPubCfg)) (b : ReplyBody) (s t : State), (started 0x0504 true c s = true) ∧ (stageRefusal 0x0504 c (l.map (fun e => .goPub e.1 e.2)) (checkSeStageGoosePub c l) s = some (b, t))) ∧
    (∃ (c : Cmd) (l : List (Nat × LaneCfg)) (s : State), (stagedOk 0x0601 true c (l.map (fun e => .lane e.1 e.2)) (checkFrStageLanes c l) s = true)) ∧
    (∃ (c : Cmd) (l : List (Nat × LaneCfg)) (b : ReplyBody) (s t : State), (started 0x0601 true c s = true) ∧ (stageRefusal 0x0601 c (l.map (fun e => .lane e.1 e.2)) (checkFrStageLanes c l) s = some (b, t))) ∧
    (∃ (c : Cmd) (l : List (Nat × TrackCfg)) (s : State), (stagedOk 0x0602 true c (l.map (fun e => .track e.1 e.2)) (checkFrStageTrack c l) s = true)) ∧
    (∃ (c : Cmd) (l : List (Nat × TrackCfg)) (b : ReplyBody) (s t : State), (started 0x0602 true c s = true) ∧ (stageRefusal 0x0602 c (l.map (fun e => .track e.1 e.2)) (checkFrStageTrack c l) s = some (b, t))) ∧
    (∃ (c : Cmd) (l : List (Bool × Nat × CoefTable)) (s : State), (stagedOk 0x0603 true c (l.map (fun e => .coef e.1 e.2.1 e.2.2)) (checkFrStageCoef c l) s = true)) ∧
    (∃ (c : Cmd) (l : List (Bool × Nat × CoefTable)) (b : ReplyBody) (s t : State), (started 0x0603 true c s = true) ∧ (stageRefusal 0x0603 c (l.map (fun e => .coef e.1 e.2.1 e.2.2)) (checkFrStageCoef c l) s = some (b, t))) :=
  ⟨⟨{ session := 1, plen := 16 }, [(511, { en := false })], (asked 0x0502 ({ session := 1, plen := 16 }) (staging)), (by decide)⟩,
   ⟨{ session := 1, plen := 16 }, [(511, { en := false })], (suSt .notReady), (asked 0x0502 ({ session := 1, plen := 16 }) up), (begun ({ session := 1, plen := 16 }) (asked 0x0502 ({ session := 1, plen := 16 }) up)), (by decide), (rfl)⟩,
   ⟨{ session := 1, plen := 16 }, [(1023, { en := false })], (asked 0x0503 ({ session := 1, plen := 16 }) (staging)), (by decide)⟩,
   ⟨{ session := 1, plen := 16 }, [(1023, { en := false })], (suSt .notReady), (asked 0x0503 ({ session := 1, plen := 16 }) up), (begun ({ session := 1, plen := 16 }) (asked 0x0503 ({ session := 1, plen := 16 }) up)), (by decide), (rfl)⟩,
   ⟨{ session := 1, plen := 16 }, [(255, { en := false })], (asked 0x0504 ({ session := 1, plen := 16 }) (staging)), (by decide)⟩,
   ⟨{ session := 1, plen := 16 }, [(255, { en := false })], (suSt .notReady), (asked 0x0504 ({ session := 1, plen := 16 }) up), (begun ({ session := 1, plen := 16 }) (asked 0x0504 ({ session := 1, plen := 16 }) up)), (by decide), (rfl)⟩,
   ⟨{ session := 1, plen := 16 }, [(1023, { en := false })], (asked 0x0601 ({ session := 1, plen := 16 }) (staging)), (by decide)⟩,
   ⟨{ session := 1, plen := 16 }, [(1023, { en := false })], (suSt .notReady), (asked 0x0601 ({ session := 1, plen := 16 }) up), (begun ({ session := 1, plen := 16 }) (asked 0x0601 ({ session := 1, plen := 16 }) up)), (by decide), (rfl)⟩,
   ⟨{ session := 1, plen := 16 }, [(63, { holdMs := 10000 })], (asked 0x0602 ({ session := 1, plen := 16 }) (staging)), (by decide)⟩,
   ⟨{ session := 1, plen := 16 }, [(63, { holdMs := 10000 })], (suSt .notReady), (asked 0x0602 ({ session := 1, plen := 16 }) up), (begun ({ session := 1, plen := 16 }) (asked 0x0602 ({ session := 1, plen := 16 }) up)), (by decide), (rfl)⟩,
   ⟨{ session := 1, plen := 16 }, [(false, 255, { coefs := [1] })], (asked 0x0603 ({ session := 1, plen := 16 }) (staging)), (by decide)⟩,
   ⟨{ session := 1, plen := 16 }, [(false, 255, { coefs := [1] })], (suSt .notReady), (asked 0x0603 ({ session := 1, plen := 16 }) up), (begun ({ session := 1, plen := 16 }) (asked 0x0603 ({ session := 1, plen := 16 }) up)), (by decide), (rfl)⟩⟩

theorem wit_StagedItemsJoinTheSession_part5 :
    (∃ (c : Cmd) (l : List (Nat × ChanCfg)) (s : State), (stagedOk 0x0701 true c (l.map (fun e => .chan e.1 e.2)) (checkPeStageChannels c l) s = true)) ∧
    (∃ (c : Cmd) (l : List (Nat × ChanCfg)) (b : ReplyBody) (s t : State), (started 0x0701 true c s = true) ∧ (stageRefusal 0x0701 c (l.map (fun e => .chan e.1 e.2)) (checkPeStageChannels c l) s = some (b, t))) ∧
    (∃ (c : Cmd) (l : List (Nat × SetCfg)) (s : State), (stagedOk 0x0702 true c (l.map (fun e => .pset e.1 e.2)) (checkPeStageSets c l) s = true)) ∧
    (∃ (c : Cmd) (l : List (Nat × SetCfg)) (b : ReplyBody) (s t : State), (started 0x0702 true c s = true) ∧ (stageRefusal 0x0702 c (l.map (fun e => .pset e.1 e.2)) (checkPeStageSets c l) s = some (b, t))) ∧
    (∃ (c : Cmd) (l : List (Nat × StreamCfg)) (s : State), (stagedOk 0x0703 true c (l.map (fun e => .stream e.1 e.2)) (checkPeStageStreams c l) s = true)) ∧
    (∃ (c : Cmd) (l : List (Nat × StreamCfg)) (b : ReplyBody) (s t : State), (started 0x0703 true c s = true) ∧ (stageRefusal 0x0703 c (l.map (fun e => .stream e.1 e.2)) (checkPeStageStreams c l) s = some (b, t))) ∧
    (∃ (c : Cmd) (l : List (Fin 8 × WslCfg)) (s : State), (stagedOk 0x0801 false c (l.map (fun e => .wsl e.1 e.2)) (checkArStageWsl l) s = true)) ∧
    (∃ (c : Cmd) (l : List (Fin 8 × WslCfg)) (b : ReplyBody) (s t : State), (started 0x0801 false c s = true) ∧ (stageRefusal 0x0801 c (l.map (fun e => .wsl e.1 e.2)) (checkArStageWsl l) s = some (b, t))) ∧
    (∃ (c : Cmd) (l : List (Fin 24 × EdgeCfg)) (s : State), (stagedOk 0x0802 false c (l.map (fun e => .edge e.1 e.2)) (checkArStageEdges l) s = true)) ∧
    (∃ (c : Cmd) (l : List (Fin 24 × EdgeCfg)) (b : ReplyBody) (s t : State), (started 0x0802 false c s = true) ∧ (stageRefusal 0x0802 c (l.map (fun e => .edge e.1 e.2)) (checkArStageEdges l) s = some (b, t))) ∧
    (∃ (c : Cmd) (l : List (Nat × CompCfg)) (s : State), (stagedOk 0x0803 true c (l.map (fun e => .comp e.1 e.2)) (checkArStageComparators c l) s = true)) ∧
    (∃ (c : Cmd) (l : List (Nat × CompCfg)) (b : ReplyBody) (s t : State), (started 0x0803 true c s = true) ∧ (stageRefusal 0x0803 c (l.map (fun e => .comp e.1 e.2)) (checkArStageComparators c l) s = some (b, t))) :=
  ⟨⟨{ session := 1, plen := 16 }, [(1023, {})], (asked 0x0701 ({ session := 1, plen := 16 }) (staging)), (by decide)⟩,
   ⟨{ session := 1, plen := 16 }, [(1023, {})], (suSt .notReady), (asked 0x0701 ({ session := 1, plen := 16 }) up), (begun ({ session := 1, plen := 16 }) (asked 0x0701 ({ session := 1, plen := 16 }) up)), (by decide), (rfl)⟩,
   ⟨{ session := 1, plen := 16 }, [(340, { en := false })], (asked 0x0702 ({ session := 1, plen := 16 }) (staging)), (by decide)⟩,
   ⟨{ session := 1, plen := 16 }, [(340, { en := false })], (suSt .notReady), (asked 0x0702 ({ session := 1, plen := 16 }) up), (begun ({ session := 1, plen := 16 }) (asked 0x0702 ({ session := 1, plen := 16 }) up)), (by decide), (rfl)⟩,
   ⟨{ session := 1, plen := 16 }, [(63, { en := false })], (asked 0x0703 ({ session := 1, plen := 16 }) (staging)), (by decide)⟩,
   ⟨{ session := 1, plen := 16 }, [(63, { en := false })], (suSt .notReady), (asked 0x0703 ({ session := 1, plen := 16 }) up), (begun ({ session := 1, plen := 16 }) (asked 0x0703 ({ session := 1, plen := 16 }) up)), (by decide), (rfl)⟩,
   ⟨{ session := 1, plen := 16 }, [(7, { en := true, k := 200, latMax := 200 })], (asked 0x0801 ({ session := 1, plen := 16 }) (staging)), (by decide)⟩,
   ⟨{ session := 1, plen := 16 }, [(7, { en := true, k := 200, latMax := 200 })], (suSt .notReady), (asked 0x0801 ({ session := 1, plen := 16 }) up), (begun ({ session := 1, plen := 16 }) (asked 0x0801 ({ session := 1, plen := 16 }) up)), (by decide), (rfl)⟩,
   ⟨{ session := 1, plen := 16 }, [(23, { owner := 64 })], (asked 0x0802 ({ session := 1, plen := 16 }) (staging)), (by decide)⟩,
   ⟨{ session := 1, plen := 16 }, [(23, { owner := 64 })], (suSt .notReady), (asked 0x0802 ({ session := 1, plen := 16 }) up), (begun ({ session := 1, plen := 16 }) (asked 0x0802 ({ session := 1, plen := 16 }) up)), (by decide), (rfl)⟩,
   ⟨{ session := 1, plen := 16 }, [(127, { lag := 16 })], (asked 0x0803 ({ session := 1, plen := 16 }) (staging)), (by decide)⟩,
   ⟨{ session := 1, plen := 16 }, [(127, { lag := 16 })], (suSt .notReady), (asked 0x0803 ({ session := 1, plen := 16 }) up), (begun ({ session := 1, plen := 16 }) (asked 0x0803 ({ session := 1, plen := 16 }) up)), (by decide), (rfl)⟩⟩

theorem wit_StagedItemsJoinTheSession_part6 :
    (∃ (c : Cmd) (l : List (Fin 8 × RecCfg)) (s : State), (stagedOk 0x0804 true c (l.map (fun e => .recorder e.1 e.2)) (checkArStageRecorders c l) s = true)) ∧
    (∃ (c : Cmd) (l : List (Fin 8 × RecCfg)) (b : ReplyBody) (s t : State), (started 0x0804 true c s = true) ∧ (stageRefusal 0x0804 c (l.map (fun e => .recorder e.1 e.2)) (checkArStageRecorders c l) s = some (b, t))) ∧
    (∃ (c : Cmd) (raw : List Byte) (img : CodeImage) (s : State), (decodeImage raw = some img) ∧ (stagedOk 0x0901 true c [.code img.owner img] (checkFbStageCode c img) s = true)) ∧
    (∃ (c : Cmd) (raw : List Byte) (img : CodeImage) (b : ReplyBody) (s t : State), (decodeImage raw = some img) ∧ (started 0x0901 true c s = true) ∧ (stageRefusal 0x0901 c [.code img.owner img] (checkFbStageCode c img) s = some (b, t))) ∧
    (∃ (c : Cmd) (raw : List Byte) (b : ReplyBody) (s t : State), (decodeImage raw = none) ∧ (started 0x0901 true c s = true) ∧ (stageRefusal 0x0901 c [] (fun _ _ => some .badParam) s = some (b, t))) ∧
    (∃ (c : Cmd) (l : List (Fin 6 × Fin 64 × RxEntry)) (s : State), (stagedOk 0x0902 false c (l.map (fun e => .rxmap e.1 e.2.1 e.2.2)) (fun _ _ => none) s = true)) ∧
    (∃ (c : Cmd) (l : List (Fin 6 × Fin 64 × RxEntry)) (b : ReplyBody) (s t : State), (started 0x0902 false c s = true) ∧ (stageRefusal 0x0902 c (l.map (fun e => .rxmap e.1 e.2.1 e.2.2)) (fun _ _ => none) s = some (b, t))) ∧
    (∃ (c : Cmd) (f : Option Nat) (l : List (Fin 48 × List Window)) (s : State), (stagedOk 0x0903 false c ((f.map (fun us => Item.frame (us / 10))).toList ++ l.map (fun e => Item.windows e.1 e.2)) (checkFbStageSchedule f l) s = true)) ∧
    (∃ (c : Cmd) (f : Option Nat) (l : List (Fin 48 × List Window)) (b : ReplyBody) (s t : State), (started 0x0903 false c s = true) ∧ (stageRefusal 0x0903 c ((f.map (fun us => Item.frame (us / 10))).toList ++ l.map (fun e => Item.windows e.1 e.2)) (checkFbStageSchedule f l) s = some (b, t))) ∧
    (∃ (c : Cmd) (o : Tag) (l : List (Nat × TaskCfg)) (own : Option OwnerCfg) (s : State), (stagedOk 0x0904 true c (l.map (fun e => Item.task o e.1 e.2) ++ (own.map (fun x => Item.ownerCfg o x)).toList) (checkFbStageTasks c o l) s = true)) ∧
    (∃ (c : Cmd) (o : Tag) (l : List (Nat × TaskCfg)) (own : Option OwnerCfg) (b : ReplyBody) (s t : State), (started 0x0904 true c s = true) ∧ (stageRefusal 0x0904 c (l.map (fun e => Item.task o e.1 e.2) ++ (own.map (fun x => Item.ownerCfg o x)).toList) (checkFbStageTasks c o l) s = some (b, t))) ∧
    (∃ (c : Cmd) (o : Tag) (l : List (Fin 48 × List RetainRange)) (s : State), (stagedOk 0x0905 true c (l.map (fun e => Item.retain o e.1 e.2)) (checkFbStageRetain c o l) s = true)) :=
  ⟨⟨{ session := 1, plen := 16 }, [(7, {})], (asked 0x0804 ({ session := 1, plen := 16 }) (staging)), (by decide)⟩,
   ⟨{ session := 1, plen := 16 }, [(7, {})], (suSt .notReady), (asked 0x0804 ({ session := 1, plen := 16 }) up), (begun ({ session := 1, plen := 16 }) (asked 0x0804 ({ session := 1, plen := 16 }) up)), (by decide), (rfl)⟩,
   ⟨{ session := 1, plen := 16 }, codeBytes, (decodeImage codeBytes).getD {}, (asked 0x0901 ({ session := 1, plen := 16 }) (staging)), (by decide +kernel), (by decide +kernel)⟩,
   ⟨{ session := 1, plen := 16 }, codeBytes, (decodeImage codeBytes).getD {}, (suSt .notReady), (asked 0x0901 ({ session := 1, plen := 16 }) up), (begun ({ session := 1, plen := 16 }) (asked 0x0901 ({ session := 1, plen := 16 }) up)), (by decide +kernel), (by decide +kernel), (rfl)⟩,
   ⟨{ session := 1, plen := 16 }, [], (suSt .notReady), (asked 0x0901 ({ session := 1, plen := 16 }) up), (begun ({ session := 1, plen := 16 }) (asked 0x0901 ({ session := 1, plen := 16 }) up)), (by decide +kernel), (by decide +kernel), (rfl)⟩,
   ⟨{ session := 1, plen := 16 }, [(5, 63, {})], (asked 0x0902 ({ session := 1, plen := 16 }) (staging)), (by decide)⟩,
   ⟨{ session := 1, plen := 16 }, [(5, 63, {})], (suSt .notReady), (asked 0x0902 ({ session := 1, plen := 16 }) up), (begun ({ session := 1, plen := 16 }) (asked 0x0902 ({ session := 1, plen := 16 }) up)), (by decide), (rfl)⟩,
   ⟨{ session := 1, plen := 16 }, some 1000, [(47, [{}])], (asked 0x0903 ({ session := 1, plen := 16 }) (staging)), (by decide)⟩,
   ⟨{ session := 1, plen := 16 }, some 1000, [(47, [{}])], (suSt .notReady), (asked 0x0903 ({ session := 1, plen := 16 }) up), (begun ({ session := 1, plen := 16 }) (asked 0x0903 ({ session := 1, plen := 16 }) up)), (by decide), (rfl)⟩,
   ⟨{ session := 1, plen := 16 }, 0, [(255, {})], some {}, (asked 0x0904 ({ session := 1, plen := 16 }) (staging)), (by decide)⟩,
   ⟨{ session := 1, plen := 16 }, 0, [(255, {})], some {}, (suSt .notReady), (asked 0x0904 ({ session := 1, plen := 16 }) up), (begun ({ session := 1, plen := 16 }) (asked 0x0904 ({ session := 1, plen := 16 }) up)), (by decide), (rfl)⟩,
   ⟨{ session := 1, plen := 16 }, 0, [], (asked 0x0905 ({ session := 1, plen := 16 }) (staging)), (by decide)⟩⟩

theorem wit_StagedItemsJoinTheSession_part7 :
    (∃ (c : Cmd) (o : Tag) (l : List (Fin 48 × List RetainRange)) (b : ReplyBody) (s t : State), (started 0x0905 true c s = true) ∧ (stageRefusal 0x0905 c (l.map (fun e => Item.retain o e.1 e.2)) (checkFbStageRetain c o l) s = some (b, t))) ∧
    (∃ (c : Cmd) (defs : List (Nat × PointDef)) (pubs : List PubCfg) (tPsw : Option Nat) (s : State), (stagedOk 0x0A01 true c (defs.map (fun e => Item.point e.1 e.2) ++ pubs.map Item.pub ++ (tPsw.map (fun n => Item.tPsw n)).toList) (checkPsStagePoints c defs pubs tPsw) s = true)) ∧
    (∃ (c : Cmd) (defs : List (Nat × PointDef)) (pubs : List PubCfg) (tPsw : Option Nat) (b : ReplyBody) (s t : State), (started 0x0A01 true c s = true) ∧ (stageRefusal 0x0A01 c (defs.map (fun e => Item.point e.1 e.2) ++ pubs.map Item.pub ++ (tPsw.map (fun n => Item.tPsw n)).toList) (checkPsStagePoints c defs pubs tPsw) s = some (b, t))) ∧
    (∃ (c : Cmd) (p : PairCfg) (s : State), (stagedOk 0x0E01 false c [.pair p] (checkFoStagePair p) s = true)) ∧
    (∃ (c : Cmd) (p : PairCfg) (b : ReplyBody) (s t : State), (started 0x0E01 false c s = true) ∧ (stageRefusal 0x0E01 c [.pair p] (checkFoStagePair p) s = some (b, t))) ∧
    (∃ (c : Cmd) (o : Tag) (l : List ReplRange) (s : State), (stagedOk 0x0E02 true c [.repl o l] (checkFoStageRepl c o) s = true)) ∧
    (∃ (c : Cmd) (o : Tag) (l : List ReplRange) (b : ReplyBody) (s t : State), (started 0x0E02 true c s = true) ∧ (stageRefusal 0x0E02 c [.repl o l] (checkFoStageRepl c o) s = some (b, t))) ∧
    (∃ (c : Cmd) (l : List (Nat × SharesCfg)) (s : State), (stagedOk 0x0D01 false c (l.map (fun e => .shares e.1 e.2)) (checkImStageShares l) s = true)) ∧
    (∃ (c : Cmd) (l : List (Nat × SharesCfg)) (b : ReplyBody) (s t : State), (started 0x0D01 false c s = true) ∧ (stageRefusal 0x0D01 c (l.map (fun e => .shares e.1 e.2)) (checkImStageShares l) s = some (b, t))) ∧
    (∃ (c : Cmd) (l : List (Fin 128 × EvRoute)) (s : State), (stagedOk 0x0D02 false c (l.map (fun e => .route e.1 e.2)) (fun _ _ => none) s = true)) ∧
    (∃ (c : Cmd) (l : List (Fin 128 × EvRoute)) (b : ReplyBody) (s t : State), (started 0x0D02 false c s = true) ∧ (stageRefusal 0x0D02 c (l.map (fun e => .route e.1 e.2)) (fun _ _ => none) s = some (b, t))) ∧
    (∃ (c : Cmd) (l : List (Fin 9 × DomainCfg)) (s : State), (stagedOk 0x0F01 false c (l.map (fun x => .domain x.1 x.2)) (checkPaStageDomains l) s = true)) :=
  ⟨⟨{ session := 1, plen := 16 }, 0, [], (suSt .notReady), (asked 0x0905 ({ session := 1, plen := 16 }) up), (begun ({ session := 1, plen := 16 }) (asked 0x0905 ({ session := 1, plen := 16 }) up)), (by decide), (rfl)⟩,
   ⟨{ session := 1, plen := 16 }, [(0, {})], [], some 200, (asked 0x0A01 ({ session := 1, plen := 16 }) (staging)), (by decide)⟩,
   ⟨{ session := 1, plen := 16 }, [(0, {})], [], some 200, (suSt .notReady), (asked 0x0A01 ({ session := 1, plen := 16 }) up), (begun ({ session := 1, plen := 16 }) (asked 0x0A01 ({ session := 1, plen := 16 }) up)), (by decide), (rfl)⟩,
   ⟨{ session := 1, plen := 16 }, {}, (asked 0x0E01 ({ session := 1, plen := 16 }) (staging)), (by decide)⟩,
   ⟨{ session := 1, plen := 16 }, {}, (suSt .notReady), (asked 0x0E01 ({ session := 1, plen := 16 }) up), (begun ({ session := 1, plen := 16 }) (asked 0x0E01 ({ session := 1, plen := 16 }) up)), (by decide), (rfl)⟩,
   ⟨{ session := 1, plen := 16 }, 0, [], (asked 0x0E02 ({ session := 1, plen := 16 }) (staging)), (by decide)⟩,
   ⟨{ session := 1, plen := 16 }, 0, [], (suSt .notReady), (asked 0x0E02 ({ session := 1, plen := 16 }) up), (begun ({ session := 1, plen := 16 }) (asked 0x0E02 ({ session := 1, plen := 16 }) up)), (by decide), (rfl)⟩,
   ⟨{ session := 1, plen := 16 }, [(64, { pasid := 1 })], (asked 0x0D01 ({ session := 1, plen := 16 }) (staging)), (by decide)⟩,
   ⟨{ session := 1, plen := 16 }, [(64, { pasid := 1 })], (suSt .notReady), (asked 0x0D01 ({ session := 1, plen := 16 }) up), (begun ({ session := 1, plen := 16 }) (asked 0x0D01 ({ session := 1, plen := 16 }) up)), (by decide), (rfl)⟩,
   ⟨{ session := 1, plen := 16 }, [(127, {})], (asked 0x0D02 ({ session := 1, plen := 16 }) (staging)), (by decide)⟩,
   ⟨{ session := 1, plen := 16 }, [(127, {})], (suSt .notReady), (asked 0x0D02 ({ session := 1, plen := 16 }) up), (begun ({ session := 1, plen := 16 }) (asked 0x0D02 ({ session := 1, plen := 16 }) up)), (by decide), (rfl)⟩,
   ⟨{ session := 1, plen := 16 }, [(8, { idleMs := 60000 })], (asked 0x0F01 ({ session := 1, plen := 16 }) (staging)), (by decide)⟩⟩

theorem wit_StagedItemsJoinTheSession_part8 :
    (∃ (c : Cmd) (l : List (Fin 9 × DomainCfg)) (b : ReplyBody) (s t : State), (started 0x0F01 false c s = true) ∧ (stageRefusal 0x0F01 c (l.map (fun x => .domain x.1 x.2)) (checkPaStageDomains l) s = some (b, t))) ∧
    (∃ (c : Cmd) (x : DuikerCfg) (s : State), (stagedOk 0x0F02 false c [.duiker x] (checkPaStageDuiker x) s = true)) ∧
    (∃ (c : Cmd) (x : DuikerCfg) (b : ReplyBody) (s t : State), (started 0x0F02 false c s = true) ∧ (stageRefusal 0x0F02 c [.duiker x] (checkPaStageDuiker x) s = some (b, t))) :=
  ⟨⟨{ session := 1, plen := 16 }, [(8, { idleMs := 60000 })], (suSt .notReady), (asked 0x0F01 ({ session := 1, plen := 16 }) up), (begun ({ session := 1, plen := 16 }) (asked 0x0F01 ({ session := 1, plen := 16 }) up)), (by decide), (rfl)⟩,
   ⟨{ session := 1, plen := 16 }, {}, (asked 0x0F02 ({ session := 1, plen := 16 }) (staging)), (by decide)⟩,
   ⟨{ session := 1, plen := 16 }, {}, (suSt .notReady), (asked 0x0F02 ({ session := 1, plen := 16 }) up), (begun ({ session := 1, plen := 16 }) (asked 0x0F02 ({ session := 1, plen := 16 }) up)), (by decide), (rfl)⟩⟩

theorem wit_PartCommandsWork_part1 :
    (∃ (c : Cmd) (_mask : BitVec 64) (s : State), (runs 0x0E41 false c s = true)) ∧
    (∃ (c : Cmd) (_mask : BitVec 64) (s : State), (runs 0x0310 true c s = true)) ∧
    (∃ (c : Cmd) (_mask : BitVec 64) (s : State), (runs 0x0311 false c s = true)) ∧
    (∃ (c : Cmd) (_mask : BitVec 64) (s : State), (runs 0x0912 false c s = true)) ∧
    (∃ (c : Cmd) (_base : Nat) (_mask : BitVec 64) (s : State), (runs 0x0610 true c s = true)) ∧
    (∃ (c : Cmd) (_base : Nat) (_mask : BitVec 64) (s : State), (runs 0x0710 true c s = true)) ∧
    (∃ (c : Cmd) (_base : Nat) (_mask : BitVec 64) (s : State), (runs 0x0711 true c s = true)) ∧
    (∃ (c : Cmd) (_base : Nat) (_mask : BitVec 64) (s : State), (runs 0x0711 true c s = true)) ∧
    (∃ (c : Cmd) (_base : Nat) (_mask : BitVec 64) (s : State), (runs 0x0712 true c s = true)) ∧
    (∃ (c : Cmd) (_mask : BitVec 64) (s : State), (runs 0x0212 false c s = true)) ∧
    (∃ (c : Cmd) (_mask : BitVec 64) (s : State), (runs 0x0213 true c s = true)) ∧
    (∃ (c : Cmd) (_base : Nat) (_mask : BitVec 64) (s : State), (runs 0x0410 true c s = true)) :=
  ⟨⟨{}, 0x8000000000000001, (asked 0x0E41 ({}) (busy)), (by decide)⟩,
   ⟨{}, 0x8000000000000001, (asked 0x0310 ({}) (busy)), (by decide)⟩,
   ⟨{}, 0x8000000000000001, (asked 0x0311 ({}) (busy)), (by decide)⟩,
   ⟨{}, 0x8000000000000001, (asked 0x0912 ({}) (busy)), (by decide)⟩,
   ⟨{}, 960, 0x8000000000000000, (asked 0x0610 ({}) (busy)), (by decide)⟩,
   ⟨{}, 960, 0x8000000000000000, (asked 0x0710 ({}) (busy)), (by decide)⟩,
   ⟨{}, 960, 0x8000000000000000, (asked 0x0711 ({}) (busy)), (by decide)⟩,
   ⟨{}, 960, 0x8000000000000000, (asked 0x0711 ({}) (busy)), (by decide)⟩,
   ⟨{}, 960, 0x8000000000000000, (asked 0x0712 ({}) (busy)), (by decide)⟩,
   ⟨{}, 0x8000000000000001, (asked 0x0212 ({}) (busy)), (by decide)⟩,
   ⟨{}, 0x8000000000000001, (asked 0x0213 ({}) (busy)), (by decide)⟩,
   ⟨{}, 960, 0x8000000000000000, (asked 0x0410 ({}) (busy)), (by decide)⟩⟩

theorem wit_PartCommandsWork_part2 :
    (∃ (c : Cmd) (_base : Nat) (_mask : BitVec 64) (s : State), (runs 0x0411 false c s = true)) ∧
    (∃ (c : Cmd) (_mask : BitVec 64) (s : State), (runs 0x0810 true c s = true)) ∧
    (∃ (c : Cmd) (_mask : BitVec 64) (s : State), (runs 0x0811 true c s = true)) ∧
    (∃ (c : Cmd) (_mask : BitVec 64) (s : State), (runs 0x0811 true c s = true)) ∧
    (∃ (c : Cmd) (_mask : BitVec 64) (s : State), (runs 0x0815 true c s = true)) ∧
    (∃ (c : Cmd) (_base : Nat) (_mask : BitVec 64) (s : State), (runs 0x0510 true c s = true)) ∧
    (∃ (c : Cmd) (_base : Nat) (_mask : BitVec 64) (s : State), (runs 0x0511 false c s = true)) ∧
    (∃ (n : Nat) (s : State), ((stnCfg s (n / 32) (n % 32)).isSome = true)) ∧
    (∃ (n : Nat) (s : State), (stnCfg s (n / 32) (n % 32) = none)) ∧
    (∃ (c : Cmd) (n : Nat) (s : State), (n < 16) ∧ (portDenied c n s = false)) ∧
    (∃ (_c : Cmd) (n : Nat) (_s : State), (16 ≤ n)) ∧
    (∃ (c : Cmd) (n : Nat) (s : State), (n < 16) ∧ (portDenied c n s = true)) :=
  ⟨⟨{}, 960, 0x8000000000000000, (asked 0x0411 ({}) (busy)), (by decide)⟩,
   ⟨{}, 0x8000000000000001, (asked 0x0810 ({}) (busy)), (by decide)⟩,
   ⟨{}, 0x8000000000000001, (asked 0x0811 ({}) (busy)), (by decide)⟩,
   ⟨{}, 0x8000000000000001, (asked 0x0811 ({}) (busy)), (by decide)⟩,
   ⟨{}, 0x8000000000000001, (asked 0x0815 ({}) (busy)), (by decide)⟩,
   ⟨{}, 960, 0x8000000000000000, (asked 0x0510 ({}) (busy)), (by decide)⟩,
   ⟨{}, 960, 0x8000000000000000, (asked 0x0511 ({}) (busy)), (by decide)⟩,
   ⟨63, busy, (by decide)⟩,
   ⟨62, busy, (by decide)⟩,
   ⟨{}, 15, busy, (by decide), (by decide)⟩,
   ⟨{}, 16, busy, (by decide)⟩,
   ⟨{ ring := .inst 64 0 }, 15, busy, (by decide), (by decide)⟩⟩

theorem wit_PartCommandsWork_part3 :
    (∃ (n : Nat) (s : State), (n < 14) ∧ (vget s.sw.ports.learn n false = true)) ∧
    (∃ (n : Nat) (s : State), (14 ≤ n ∨ vget s.sw.ports.learn n false = false)) ∧
    (∃ (n : Nat) (_s : State), (n < 48)) ∧
    (∃ (n : Nat) (_s : State), (48 ≤ n)) ∧
    (∃ (c : Cmd) (base n : Nat) (s : State), (base + n < 1024) ∧ (outsideShare c .lane (base + n) s = false) ∧ ((getLane s (base + n)).state ≠ .disabled)) ∧
    (∃ (_c : Cmd) (base n : Nat) (_s : State), (1024 ≤ base + n)) ∧
    (∃ (c : Cmd) (base n : Nat) (s : State), (base + n < 1024) ∧ (outsideShare c .lane (base + n) s = true)) ∧
    (∃ (c : Cmd) (base n : Nat) (s : State), (base + n < 1024) ∧ (outsideShare c .lane (base + n) s = false) ∧ ((getLane s (base + n)).state = .disabled)) ∧
    (∃ (c : Cmd) (base n : Nat) (s : State), (base + n < 1024) ∧ (outsideShare c .chan (base + n) s = false)) ∧
    (∃ (_c : Cmd) (base n : Nat) (_s : State), (1024 ≤ base + n)) ∧
    (∃ (c : Cmd) (base n : Nat) (s : State), (base + n < 1024) ∧ (outsideShare c .chan (base + n) s = true)) ∧
    (∃ (c : Cmd) (base n : Nat) (_on : Bool) (s : State), (base + n < 64) ∧ (outsideShare c .stream (base + n) s = false) ∧ ((getStr s (base + n)).used = true)) :=
  ⟨⟨13, busy, (by decide), (by decide)⟩,
   ⟨14, busy, (by decide)⟩,
   ⟨47, busy, (by decide)⟩,
   ⟨48, busy, (by decide)⟩,
   ⟨{}, 960, 63, busy, (by decide), (by decide), (by decide)⟩,
   ⟨{}, 961, 63, busy, (by decide)⟩,
   ⟨{ ring := .inst 64 0 }, 960, 63, busy, (by decide), (by decide)⟩,
   ⟨{}, 960, 62, busy, (by decide), (by decide), (by decide)⟩,
   ⟨{}, 960, 63, busy, (by decide), (by decide)⟩,
   ⟨{}, 961, 63, busy, (by decide)⟩,
   ⟨{ ring := .inst 64 0 }, 960, 63, busy, (by decide), (by decide)⟩,
   ⟨{}, 0, 63, true, busy, (by decide), (by decide), (by decide)⟩⟩

theorem wit_PartCommandsWork_part4 :
    (∃ (_c : Cmd) (base n : Nat) (_on : Bool) (_s : State), (64 ≤ base + n)) ∧
    (∃ (c : Cmd) (base n : Nat) (_on : Bool) (s : State), (base + n < 64) ∧ (outsideShare c .stream (base + n) s = true)) ∧
    (∃ (c : Cmd) (base n : Nat) (_on : Bool) (s : State), (base + n < 64) ∧ (outsideShare c .stream (base + n) s = false) ∧ ((getStr s (base + n)).used = false)) ∧
    (∃ (c : Cmd) (base n : Nat) (s : State), (base + n < 64) ∧ (outsideShare c .stream (base + n) s = false)) ∧
    (∃ (_c : Cmd) (base n : Nat) (_s : State), (64 ≤ base + n)) ∧
    (∃ (c : Cmd) (base n : Nat) (s : State), (base + n < 64) ∧ (outsideShare c .stream (base + n) s = true)) ∧
    (∃ (n : Nat) (s : State), (n < 14) ∧ ((getPx s n).cfg.phy ≠ .disabled)) ∧
    (∃ (n : Nat) (s : State), (14 ≤ n ∨ (getPx s n).cfg.phy = .disabled)) ∧
    (∃ (c : Cmd) (n : Nat) (s : State), (n < 14) ∧ (portDenied c n s = false)) ∧
    (∃ (_c : Cmd) (n : Nat) (_s : State), (14 ≤ n)) ∧
    (∃ (c : Cmd) (n : Nat) (s : State), (n < 14) ∧ (portDenied c n s = true)) ∧
    (∃ (c : Cmd) (base n : Nat) (s : State), (base + n ≤ 0xFF) ∧ (queueDenied c (base + n) s = false)) :=
  ⟨⟨{}, 1, 63, true, busy, (by decide)⟩,
   ⟨{ ring := .inst 64 0 }, 0, 63, true, busy, (by decide), (by decide)⟩,
   ⟨{}, 0, 62, true, busy, (by decide), (by decide), (by decide)⟩,
   ⟨{}, 0, 63, busy, (by decide), (by decide)⟩,
   ⟨{}, 1, 63, busy, (by decide)⟩,
   ⟨{ ring := .inst 64 0 }, 0, 63, busy, (by decide), (by decide)⟩,
   ⟨13, busy, (by decide), (by decide)⟩,
   ⟨14, busy, (by decide)⟩,
   ⟨{}, 13, busy, (by decide), (by decide)⟩,
   ⟨{}, 14, busy, (by decide)⟩,
   ⟨{ ring := .inst 64 0 }, 13, busy, (by decide), (by decide)⟩,
   ⟨{}, 192, 63, busy, (by decide), (by decide)⟩⟩

theorem wit_PartCommandsWork_part5 :
    (∃ (_c : Cmd) (base n : Nat) (_s : State), (0xFF < base + n)) ∧
    (∃ (c : Cmd) (base n : Nat) (s : State), (base + n ≤ 0xFF) ∧ (queueDenied c (base + n) s = true)) ∧
    (∃ (base n : Nat) (_s : State), (qReserved (base + n) = false)) ∧
    (∃ (base n : Nat) (_s : State), (qReserved (base + n) = true)) ∧
    (∃ (c : Cmd) (n : Nat) (s : State), (n < 8) ∧ (outsideShare c .rec_ n s = false) ∧ ((getRec s n).state ≠ .disabled)) ∧
    (∃ (c : Cmd) (n : Nat) (s : State), (n < 8) ∧ (outsideShare c .rec_ n s = false) ∧ ((getRec s n).state = .disabled)) ∧
    (∃ (_c : Cmd) (n : Nat) (_s : State), (8 ≤ n)) ∧
    (∃ (c : Cmd) (n : Nat) (s : State), (n < 8) ∧ (outsideShare c .rec_ n s = true)) ∧
    (∃ (c : Cmd) (n : Nat) (s : State), (n < 8) ∧ (outsideShare c .rec_ n s = false) ∧ ((getRec s n).state = .stopped)) ∧
    (∃ (c : Cmd) (n : Nat) (s : State), (n < 8) ∧ (outsideShare c .rec_ n s = false) ∧ ((getRec s n).state ≠ .disabled) ∧ ((getRec s n).state ≠ .stopped)) ∧
    (∃ (c : Cmd) (n : Nat) (s : State), (n < 8) ∧ (outsideShare c .rec_ n s = false) ∧ ((getRec s n).state = .disabled)) ∧
    (∃ (_c : Cmd) (n : Nat) (_s : State), (8 ≤ n)) :=
  ⟨⟨{}, 193, 63, busy, (by decide)⟩,
   ⟨{ ring := .inst 64 0 }, 192, 63, busy, (by decide), (by decide)⟩,
   ⟨192, 63, busy, (by decide)⟩,
   ⟨193, 63, busy, (by decide)⟩,
   ⟨{}, 7, busy, (by decide), (by decide), (by decide)⟩,
   ⟨{}, 7, up, (by decide), (by decide), (by decide)⟩,
   ⟨{}, 8, busy, (by decide)⟩,
   ⟨{ ring := .inst 64 0 }, 7, busy, (by decide), (by decide)⟩,
   ⟨{}, 7, { busy with ar := { up.ar with recorder := .replicate 8 { state := .stopped } } }, (by decide), (by decide), (by decide)⟩,
   ⟨{}, 7, busy, (by decide), (by decide), (by decide), (by decide)⟩,
   ⟨{}, 7, up, (by decide), (by decide), (by decide)⟩,
   ⟨{}, 8, busy, (by decide)⟩⟩

theorem wit_PartCommandsWork_part6 :
    (∃ (c : Cmd) (n : Nat) (s : State), (n < 8) ∧ (outsideShare c .rec_ n s = true)) ∧
    (∃ (c : Cmd) (n : Nat) (s : State), (n < 8) ∧ (outsideShare c .rec_ n s = false) ∧ ((getRec s n).state ≠ .disabled)) ∧
    (∃ (c : Cmd) (n : Nat) (s : State), (n < 8) ∧ (outsideShare c .rec_ n s = false) ∧ ((getRec s n).state = .disabled)) ∧
    (∃ (_c : Cmd) (n : Nat) (_s : State), (8 ≤ n)) ∧
    (∃ (c : Cmd) (n : Nat) (s : State), (n < 8) ∧ (outsideShare c .rec_ n s = true)) ∧
    (∃ (c : Cmd) (n : Nat) (s : State), (n < 8) ∧ (outsideShare c .rec_ n s = false)) ∧
    (∃ (_c : Cmd) (n : Nat) (_s : State), (8 ≤ n)) ∧
    (∃ (c : Cmd) (n : Nat) (s : State), (n < 8) ∧ (outsideShare c .rec_ n s = true)) ∧
    (∃ (c : Cmd) (base n : Nat) (s : State), (base + n < 512) ∧ (outsideShare c .svSub (base + n) s = false)) ∧
    (∃ (_c : Cmd) (base n : Nat) (_s : State), (512 ≤ base + n)) ∧
    (∃ (c : Cmd) (base n : Nat) (s : State), (base + n < 512) ∧ (outsideShare c .svSub (base + n) s = true)) ∧
    (∃ (base n : Nat) (s : State), (base + n < 512) ∧ ((getSv s (base + n)).state ≠ .idle)) :=
  ⟨⟨{ ring := .inst 64 0 }, 7, busy, (by decide), (by decide)⟩,
   ⟨{}, 7, busy, (by decide), (by decide), (by decide)⟩,
   ⟨{}, 7, up, (by decide), (by decide), (by decide)⟩,
   ⟨{}, 8, busy, (by decide)⟩,
   ⟨{ ring := .inst 64 0 }, 7, busy, (by decide), (by decide)⟩,
   ⟨{}, 7, busy, (by decide), (by decide)⟩,
   ⟨{}, 8, busy, (by decide)⟩,
   ⟨{ ring := .inst 64 0 }, 7, busy, (by decide), (by decide)⟩,
   ⟨{}, 448, 63, busy, (by decide), (by decide)⟩,
   ⟨{}, 449, 63, busy, (by decide)⟩,
   ⟨{ ring := .inst 64 0 }, 448, 63, busy, (by decide), (by decide)⟩,
   ⟨448, 63, busy, (by decide), (by decide)⟩⟩

theorem wit_PartCommandsWork_part7 :
    (∃ (base n : Nat) (_s : State), (512 ≤ base + n)) ∧
    (∃ (base n : Nat) (s : State), (base + n < 512) ∧ ((getSv s (base + n)).state = .idle)) :=
  ⟨⟨449, 63, busy, (by decide)⟩,
   ⟨448, 62, busy, (by decide), (by decide)⟩⟩

theorem wit_MultiPartReply :
    (∃ (part : Nat → State → State × Status × List Byte) (mask : BitVec 64) (_s : State), (mask ≠ 0) ∧ ((∀ n t, (part n t).2.1 = .ok))) ∧
    (∃ (part : Nat → State → State × Status × List Byte) (e : Nat → Status) (mask : BitVec 64) (n : Nat) (l : List Nat) (_s : State), (maskParts mask = n :: l) ∧ ((∀ k t, (part k t).1 = t ∧ (part k t).2.1 = e k)) ∧ ((∀ k, e k ≠ .ok))) ∧
    (∃ (part : Nat → State → State × Status × List Byte) (e : Nat → Status) (mask : BitVec 64) (n : Nat) (_s : State), ((∀ k t, (part k t).2.1 = e k)) ∧ ((maskParts mask).find? (fun k => e k != .ok) = some n) ∧ ((maskParts mask).any (fun k => e k == .ok) = true)) :=
  ⟨⟨(fun _ s => (s, .ok, [])), 0x8000000000000000, up, (by decide), (by exact fun _ _ => rfl)⟩,
   ⟨(fun _ s => (s, .denied, [])), (fun _ => .denied), 1, 0, [], up, (by decide), (by exact fun _ _ => ⟨rfl, rfl⟩), (by exact fun _ h => nomatch h)⟩,
   ⟨(fun k s => (s, if k = 0 then .ok else .denied, [])), (fun k => if k = 0 then .ok else .denied), 3, 1, up, (by exact fun _ _ => rfl), (by decide), (by decide)⟩⟩

theorem wit_FiltersAndPhasorsRun_part1 :
    (∃ (s : State) (_l : Fin 1024) (_f : LaneFinding), (s.fr.ready = false)) ∧
    (∃ (s u : State) (l : Fin 1024) (f : LaneFinding), (s.fr.ready = true) ∧ (u = laneFinding l.val f s) ∧ ((drainNext u l.val).isSome = true)) ∧
    (∃ (s u : State) (l : Fin 1024) (f : LaneFinding), (s.fr.ready = true) ∧ (u = laneFinding l.val f s) ∧ (drainNext u l.val = none) ∧ ((laneNext u (getLane u l.val)).isSome = true)) ∧
    (∃ (s u : State) (l : Fin 1024) (f : LaneFinding), (s.fr.ready = true) ∧ (u = laneFinding l.val f s) ∧ (drainNext u l.val = none) ∧ (laneNext u (getLane u l.val) = none)) ∧
    (∃ (s : State) (g : Fin 64) (c : TrkCycle), (s.fr.ready = true) ∧ ((getTrk s g.val).state ≠ .disabled) ∧ ((getTrk s g.val).cyc = some c) ∧ (0 ≤ diff96 (lt96 s.now) (c.tc + BitVec.ofNat 96 c.len))) ∧
    (∃ (s : State) (g : Fin 64), ((s.fr.ready = false ∨ (getTrk s g.val).state = .disabled ∨ ∀ c, (getTrk s g.val).cyc = some c → diff96 (lt96 s.now) (c.tc + BitVec.ofNat 96 c.len) < 0))) ∧
    (∃ (s : State) (g : Fin 64) (f : Nat) (t : LT), ((getTrk s g.val).state = .tracking) ∧ ((getTrk s g.val).est = some (f, t)) ∧ ((2 * cycleNow (getTrk s g.val) : Nat) ≤ ltDiff s.now t * 4294967296)) ∧
    (∃ (s : State) (g : Fin 64), (((getTrk s g.val).state ≠ .tracking ∨ ∀ f t, (getTrk s g.val).est = some (f, t) → ltDiff s.now t * 4294967296 < (2 * cycleNow (getTrk s g.val) : Nat)))) ∧
    (∃ (s : State) (g : Nat), ((getTrk s g).state = .tracking)) ∧
    (∃ (s : State) (g : Fin 64), ((getTrk s g.val).state = .hold) ∧ ((msTu (getTrk s g.val).cfg.holdMs : Int) ≤ ltDiff s.now (getTrk s g.val).holdSince)) ∧
    (∃ (s : State) (g : Fin 64), ((getTrk s g.val).state ≠ .hold ∨ ltDiff s.now (getTrk s g.val).holdSince < (msTu (getTrk s g.val).cfg.holdMs : Int))) ∧
    (∃ (s : State) (g : Nat), ((getTrk s g).state = .hold)) :=
  ⟨⟨up, 1023, .clean, (by decide)⟩,
   ⟨{ laneDue with fr := { laneDue.fr with drain := [(1023, 0x4000000000000000, getLane laneDue 1023)] } }, { laneDue with fr := { laneDue.fr with drain := [(1023, 0x4000000000000000, getLane laneDue 1023)] } }, 1023, .clean, (rfl), (rfl), (by with_unfolding_all rfl)⟩,
   ⟨laneDue, laneDue, 1023, .clean, (rfl), (rfl), (rfl), (rfl)⟩,
   ⟨{ up with fr := { up.fr with ready := true } }, { up with fr := { up.fr with ready := true } }, 1023, .clean, (rfl), (rfl), (rfl), (rfl)⟩,
   ⟨trkDue .tracking, 63, { len := cycleLen 50000000 }, (by decide), (by decide), (by decide), (by decide)⟩,
   ⟨up, 63, (by exact Or.inl rfl)⟩,
   ⟨trkDue .tracking, 63, 50000000, 0, (by decide), (by decide), (by decide)⟩,
   ⟨up, 63, (by exact Or.inl (by decide))⟩,
   ⟨trkDue .tracking, 63, (by decide)⟩,
   ⟨trkDue .hold, 63, (by decide), (by decide)⟩,
   ⟨up, 63, (by decide)⟩,
   ⟨trkDue .hold, 63, (by decide)⟩⟩

theorem wit_FiltersAndPhasorsRun_part2 :
    (∃ (s : State) (p : Bool) (n : Fin 256) (s' : State), (s.fr.reload.contains (p, n.val) = true) ∧ (s' = onFr (fun f => { f with reload := f.reload.filter (· != (p, n.val)) }) s)) ∧
    (∃ (s : State) (p : Bool) (n : Fin 256), (s.fr.reload.contains (p, n.val) = false)) ∧
    (∃ (s u : State) (c : Fin 1024) (g : Option GuardFind) (tr : LT) (e : PeEst) (r : Bool) (t : State), (s.pe.ready = true) ∧ ((((g = none ∧ u = s) ∨ (g = some .corrected ∧ u = guardCorrected 0x6 s) ∨ ∃ h, g = some (.uncorrectable h) ∧ u = chanGuard c.val h s))) ∧ (nextEst u c.val (chanTurn u c.val).2 = some (tr, e, r, t))) ∧
    (∃ (s u : State) (c : Fin 1024) (g : Option GuardFind), (s.pe.ready = true) ∧ ((((g = none ∧ u = s) ∨ (g = some .corrected ∧ u = guardCorrected 0x6 s) ∨ ∃ h, g = some (.uncorrectable h) ∧ u = chanGuard c.val h s))) ∧ (nextEst u c.val (chanTurn u c.val).2 = none)) ∧
    (∃ (s : State) (_c : Fin 1024) (_g : Option GuardFind), (s.pe.ready = false)) ∧
    (∃ (s : State) (k : Fin 64) (b : Option LT) (x : PeStream) (tr : LT), (strTurn s k.val = some (b, x, tr)) ∧ (s.pe.ready = true) ∧ (x.used = true) ∧ ((txState x tr).on = true) ∧ (((strChans s x.cfg tr).filter (fun c => (estAt s c tr).isNone)) ≠ []) ∧ (ltReached s.now (ltAdd tr (lmaxOf s x.cfg tr)) = true)) ∧
    (∃ (s : State) (k : Fin 64), ((∀ b x tr, strTurn s k.val = some (b, x, tr) → ¬(s.pe.ready = true ∧ x.used = true ∧ (txState x tr).on = true ∧ ((strChans s x.cfg tr).filter (fun c => (estAt s c tr).isNone)) ≠ [] ∧ ltReached s.now (ltAdd tr (lmaxOf s x.cfg tr)) = true)))) ∧
    (∃ (s : State) (k : Fin 64) (b : Option LT) (x : PeStream) (tr : LT), (strTurn s k.val = some (b, x, tr)) ∧ (s.pe.ready = true) ∧ (x.used = true) ∧ ((strChans s x.cfg tr).any (fun c => (estAt s c tr).isNone) = false) ∧ ((txState x tr).on = true) ∧ (handoverHolds (modTurn k.val b (fun x => strAfter x tr) s) tr = false)) ∧
    (∃ (s : State) (k : Fin 64) (b : Option LT) (x : PeStream) (tr : LT), (strTurn s k.val = some (b, x, tr)) ∧ (s.pe.ready = true) ∧ (x.used = true) ∧ ((strChans s x.cfg tr).any (fun c => (estAt s c tr).isNone) = false) ∧ ((txState x tr).on = false ∨ handoverHolds (modTurn k.val b (fun x => strAfter x tr) s) tr = true)) ∧
    (∃ (s : State) (k : Fin 64), ((∀ b x tr, strTurn s k.val = some (b, x, tr) → ¬(s.pe.ready = true ∧ x.used = true ∧ (strChans s x.cfg tr).any (fun c => (estAt s c tr).isNone) = false)))) ∧
    (∃ (s : State) (k : Fin 64), ((getStr s k.val).cfgChg = true) ∧ ((secTu 60 : Int) ≤ ltDiff s.now (getStr s k.val).cfgChgAt)) ∧
    (∃ (s : State) (k : Fin 64), ((getStr s k.val).cfgChg = false ∨ ltDiff s.now (getStr s k.val).cfgChgAt < (secTu 60 : Int))) :=
  ⟨⟨{ engines with fr := { engines.fr with reload := [(true, 15)] } }, true, 15, engines, (by decide), (rfl)⟩,
   ⟨up, true, 15, (by decide)⟩,
   ⟨chanDue, chanDue, 1023, none, 0, (openEst (getChan chanDue 1023) 0 false chanDue).1, false, (openEst (getChan chanDue 1023) 0 false chanDue).2, (rfl), (by exact Or.inl ⟨rfl, rfl⟩), (by with_unfolding_all rfl)⟩,
   ⟨{ up with pe := { up.pe with ready := true } }, { up with pe := { up.pe with ready := true } }, 1023, none, (rfl), (by exact Or.inl ⟨rfl, rfl⟩), (rfl)⟩,
   ⟨up, 1023, none, (by decide)⟩,
   ⟨(modStr 63 (fun x => { x with on := true }) streamLate), 63, none, (getStr (modStr 63 (fun x => { x with on := true }) streamLate) 63), 0, (by with_unfolding_all rfl), (by decide +kernel), (by decide +kernel), (by decide +kernel), (by decide +kernel), (by decide +kernel)⟩,
   ⟨up, 63, (by intro b x tr h; cases h)⟩,
   ⟨streamDue, 63, none, (getStr streamDue 63), 0, (by with_unfolding_all rfl), (by decide +kernel), (by decide +kernel), (by decide +kernel), (by decide +kernel), (by decide +kernel)⟩,
   ⟨modStr 63 (fun x => { x with on := false }) streamDue, 63, none, (getStr (modStr 63 (fun x => { x with on := false }) streamDue) 63), 0, (by with_unfolding_all rfl), (by decide +kernel), (by decide +kernel), (by decide +kernel), (by decide +kernel)⟩,
   ⟨up, 63, (by intro b x tr h; cases h)⟩,
   ⟨streamDue, 63, (by decide), (by decide)⟩,
   ⟨up, 63, (by decide)⟩⟩

theorem wit_FiltersAndPhasorsRun_part3 :
    (∃ (s : State) (k : Fin 64) (x : PeStream), (s.pe.str.get? k.val = some x) ∧ (x.used = true) ∧ (s.fo.gateOpen = true)) ∧
    (∃ (s u : State) (k : Fin 64) (_r : C37Sender), ((getStr s k.val).used = true) ∧ (s.fo.gateOpen = true) ∧ (u = (modStr k.val (fun x => { x with cmds := x.cmds + 1 }) s))) ∧
    (∃ (s u : State) (k : Fin 64) (_r : C37Sender), ((getStr s k.val).used = true) ∧ (s.fo.gateOpen = true) ∧ (u = (modStr k.val (fun x => { x with cmds := x.cmds + 1 }) s))) ∧
    (∃ (s u : State) (k : Fin 64) (_r : C37Sender), ((getStr s k.val).used = true) ∧ (s.fo.gateOpen = true) ∧ (u = (modStr k.val (fun x => { x with cmds := x.cmds + 1 }) s))) ∧
    (∃ (s : State) (k : Fin 64), ((getStr s k.val).used = true)) ∧
    (∃ (s : State) (k : Fin 64) (_r : C37Sender), ((getStr s k.val).used = true) ∧ (s.fo.gateOpen = false)) ∧
    (∃ (s : State) (k : Fin 64) (_r : C37Sender), ((getStr s k.val).used = false)) :=
  ⟨⟨{ streamDue with fo := { streamDue.fo with gateOpen := true } }, 63, (getStr ({ streamDue with fo := { streamDue.fo with gateOpen := true } }) 63), (by decide), (by decide), (by decide)⟩,
   ⟨{ streamDue with fo := { streamDue.fo with gateOpen := true } }, (modStr 63 (fun x => { x with cmds := x.cmds + 1 }) ({ streamDue with fo := { streamDue.fo with gateOpen := true } })), 63, {}, (by decide), (by decide), (rfl)⟩,
   ⟨{ streamDue with fo := { streamDue.fo with gateOpen := true } }, (modStr 63 (fun x => { x with cmds := x.cmds + 1 }) ({ streamDue with fo := { streamDue.fo with gateOpen := true } })), 63, {}, (by decide), (by decide), (rfl)⟩,
   ⟨{ streamDue with fo := { streamDue.fo with gateOpen := true } }, (modStr 63 (fun x => { x with cmds := x.cmds + 1 }) ({ streamDue with fo := { streamDue.fo with gateOpen := true } })), 63, {}, (by decide), (by decide), (rfl)⟩,
   ⟨streamDue, 63, (by decide)⟩,
   ⟨streamDue, 63, {}, (by decide), (by decide)⟩,
   ⟨up, 63, {}, (by decide)⟩⟩

theorem wit_LinksEdgesAndRecorders_part1 :
    (∃ (s v : State) (k : Fin 8) (f : WslFrame) (e : Nat), (s.ar.ready = true) ∧ ((getWsl s k.val).cfg.en = true) ∧ ((getWsl s k.val).retraining = false) ∧ (v = (if (getWsl s k.val).state = .down then setWsl k.val .aligning s else s)) ∧ (wslCrcOk f = true) ∧ (matchSeq v (getWsl s k.val) (wslSeq f) = some e)) ∧
    (∃ (s v : State) (k : Fin 8) (f : WslFrame), (s.ar.ready = true) ∧ ((getWsl s k.val).cfg.en = true) ∧ ((getWsl s k.val).retraining = false) ∧ (v = (if (getWsl s k.val).state = .down then setWsl k.val .aligning s else s)) ∧ (wslCrcOk f = true) ∧ (matchSeq v (getWsl s k.val) (wslSeq f) = none)) ∧
    (∃ (s v : State) (k : Fin 8) (f : WslFrame) (w : State), (s.ar.ready = true) ∧ ((getWsl s k.val).cfg.en = true) ∧ ((getWsl s k.val).retraining = false) ∧ (v = (if (getWsl s k.val).state = .down then setWsl k.val .aligning s else s)) ∧ (wslCrcOk f = false) ∧ (w = modWsl k.val (fun x => { x with lastEdge := some (((getWsl s k.val).lastEdge.map (· + 1)).getD (getWsl s k.val).nextEdge) }) (if (getWsl s k.val).state = .locked then modWsl k.val (fun x => { x with crcErr := x.crcErr + 1 }) v else v))) ∧
    (∃ (s : State) (k : Fin 8) (_f : WslFrame), (s.ar.ready = false ∨ (getWsl s k.val).cfg.en = false ∨ (getWsl s k.val).retraining = true)) ∧
    (∃ (s : State) (k : Fin 8), (s.ar.ready = true) ∧ ((getWsl s k.val).cfg.en = true) ∧ ((getWsl s k.val).bases.isEmpty = false) ∧ ((((getWsl s k.val).cfg.latMax * cnvPeriod (getWsl s k.val).cfg : Nat) : Int) ≤ ltDiff s.now (edgeLt (getWsl s k.val) (getWsl s k.val).nextEdge)) ∧ ((getWsl s k.val).state = .locked)) ∧
    (∃ (s : State) (k : Fin 8), (s.ar.ready = true) ∧ ((getWsl s k.val).cfg.en = true) ∧ ((getWsl s k.val).bases.isEmpty = false) ∧ ((((getWsl s k.val).cfg.latMax * cnvPeriod (getWsl s k.val).cfg : Nat) : Int) ≤ ltDiff s.now (edgeLt (getWsl s k.val) (getWsl s k.val).nextEdge)) ∧ ((getWsl s k.val).state ≠ .locked)) ∧
    (∃ (s : State) (k : Fin 8), (s.ar.ready = false ∨ (getWsl s k.val).cfg.en = false ∨ (getWsl s k.val).bases.isEmpty = true ∨ ¬((((getWsl s k.val).cfg.latMax * cnvPeriod (getWsl s k.val).cfg : Nat) : Int) ≤ ltDiff s.now (edgeLt (getWsl s k.val) (getWsl s k.val).nextEdge)))) ∧
    (∃ (s u : State) (e : Fin 24) (r : Bool) (b : Fin 128) (n : Nat) (i : Nat), (s.ar.ready = true) ∧ (nsTu 1 ≤ n) ∧ (u = noteBinary (BitVec.ofNat 32 (0x01000000 + e.val)) (tdcInstant s e.val b.val) r false (if edgeClose s e.val (tdcInstant s e.val b.val) then modEdge e.val (fun u => { u with level := r }) s else edgeFifo e.val r (tdcInstant s e.val b.val) (modEdge e.val (fun u => { u with level := r }) s))) ∧ ((vget u.ar.edge e.val {}).cfg.point = some i)) ∧
    (∃ (s u : State) (e : Fin 24) (r : Bool) (b : Fin 128) (n : Nat), (s.ar.ready = true) ∧ (nsTu 1 ≤ n) ∧ (u = noteBinary (BitVec.ofNat 32 (0x01000000 + e.val)) (tdcInstant s e.val b.val) r false (if edgeClose s e.val (tdcInstant s e.val b.val) then modEdge e.val (fun u => { u with level := r }) s else edgeFifo e.val r (tdcInstant s e.val b.val) (modEdge e.val (fun u => { u with level := r }) s))) ∧ ((vget u.ar.edge e.val {}).cfg.point = none)) ∧
    (∃ (s : State) (_e : Fin 24) (_r : Bool) (_b : Fin 128) (n : Nat), (s.ar.ready = false ∨ n < nsTu 1)) ∧
    (∃ (s : State) (_e : Fin 24) (_l : Vector Nat 128), (pdOn s 6 = true)) ∧
    (∃ (s : State) (_e : Fin 24) (_l : Vector Nat 128), (pdOn s 6 = false)) :=
  ⟨⟨wslUp, wslUp, 7, {}, 0, (by decide), (by decide), (by decide), (rfl), (by decide +kernel), (by decide +kernel)⟩,
   ⟨wslUp, wslUp, 0, { chars := #v[1, 0, 0, 0, 0, 0, 0, 0xDF] }, (by decide), (by decide), (by decide), (rfl), (by decide +kernel), (by decide +kernel)⟩,
   ⟨wslUp, wslUp, 7, { chars := #v[0, 0, 0, 0, 0, 0, 0, 1] }, (modWsl 7 (fun x => { x with lastEdge := some 0 }) (modWsl 7 (fun x => { x with crcErr := x.crcErr + 1 }) wslUp)), (by decide), (by decide), (by decide), (rfl), (by decide +kernel), (rfl)⟩,
   ⟨up, 0, {}, (by decide)⟩,
   ⟨{ wslUp with ar := { engines.ar with wsl := .replicate 8 { cfg := { en := true }, state := .locked, bases := [(0, 0)] } } }, 7, (by decide), (by decide), (by decide), (by decide), (by decide)⟩,
   ⟨{ wslUp with ar := { engines.ar with wsl := .replicate 8 { cfg := { en := true }, state := .down, bases := [(0, 0)] } } }, 7, (by decide), (by decide), (by decide), (by decide), (by decide)⟩,
   ⟨up, 0, (by exact Or.inr (Or.inl (by decide)))⟩,
   ⟨edgeUp, (noteBinary (BitVec.ofNat 32 (0x01000000 + 23)) (tdcInstant edgeUp 23 127) true false (edgeFifo 23 true (tdcInstant edgeUp 23 127) (modEdge 23 (fun u => { u with level := true }) edgeUp))), 23, true, 127, 100000000, 0, (by decide), (by decide), (by with_unfolding_all rfl), (by with_unfolding_all rfl)⟩,
   ⟨engines, (noteBinary (BitVec.ofNat 32 (0x01000000 + 23)) (tdcInstant engines 23 127) true false (edgeFifo 23 true (tdcInstant engines 23 127) (modEdge 23 (fun u => { u with level := true }) engines))), 23, true, 127, 100000000, (by decide), (by decide), (by with_unfolding_all rfl), (by with_unfolding_all rfl)⟩,
   ⟨up, 23, true, 127, 0, (by decide)⟩,
   ⟨engines, 23, .replicate 128 0, (by decide)⟩,
   ⟨paOff, 23, .replicate 128 0, (by decide)⟩⟩

theorem wit_LinksEdgesAndRecorders_part2 :
    (∃ (s : State) (_q : Nat) (e : Fin 24) (_w : Bool) (t : BitVec 64) (l : List (BitVec 64)), (s.glob.ready = true) ∧ ((vget s.ar.edge e.val {}).fifo = t :: l)) ∧
    (∃ (s : State) (_q : Nat) (e : Fin 24) (_w : Bool), (s.glob.ready = true) ∧ ((vget s.ar.edge e.val {}).fifo = [])) ∧
    (∃ (s : State) (_q : Nat) (_e : Fin 24) (_w : Bool), (s.glob.ready = false)) ∧
    (∃ (s u : State) (r : Fin 8) (x : RecRun), (s.ar.ready = true) ∧ ((getRec s r.val).state ≠ .disabled ∧ (getRec s r.val).state ≠ .stopped) ∧ (u = (match (getRec s r.val).old with | some (t, x) => if tickDue s x then dropOld r.val (modRec r.val (fun y => { y with old := some (t, (evalTick r.val (decide (ltDiff x.nextTick t < 0)) x s).1) }) (evalTick r.val (decide (ltDiff x.nextTick t < 0)) x s).2) else s | none => s)) ∧ ((getRec u r.val).run = some x) ∧ (tickDue u x = true)) ∧
    (∃ (s u : State) (r : Fin 8), (s.ar.ready = true) ∧ ((getRec s r.val).state ≠ .disabled ∧ (getRec s r.val).state ≠ .stopped) ∧ (u = (match (getRec s r.val).old with | some (t, x) => if tickDue s x then dropOld r.val (modRec r.val (fun y => { y with old := some (t, (evalTick r.val (decide (ltDiff x.nextTick t < 0)) x s).1) }) (evalTick r.val (decide (ltDiff x.nextTick t < 0)) x s).2) else s | none => s)) ∧ ((∀ x, (getRec u r.val).run = some x → tickDue u x = false))) ∧
    (∃ (s : State) (r : Fin 8), (s.ar.ready = false ∨ (getRec s r.val).state = .disabled ∨ (getRec s r.val).state = .stopped)) ∧
    (∃ (s : State) (r : Fin 8) (x : RecRun), (s.ar.ready = true) ∧ ((getRec s r.val).state ≠ .disabled ∧ (getRec s r.val).state ≠ .stopped) ∧ ((getRec s r.val).old = none) ∧ ((getRec s r.val).run = some x) ∧ ((writeRow r.val x s).isSome = true)) ∧
    (∃ (s : State) (r : Fin 8) (t : LT) (x : RecRun), (s.ar.ready = true) ∧ ((getRec s r.val).state ≠ .disabled ∧ (getRec s r.val).state ≠ .stopped) ∧ ((getRec s r.val).old = some (t, x)) ∧ ((writeRow r.val x s).isSome = true)) ∧
    (∃ (s : State) (r : Fin 8), (s.ar.ready = true) ∧ ((getRec s r.val).state ≠ .disabled ∧ (getRec s r.val).state ≠ .stopped) ∧ ((((getRec s r.val).old = none ∧ ∀ x, (getRec s r.val).run = some x → writeRow r.val x s = none) ∨ ∃ t x, (getRec s r.val).old = some (t, x) ∧ writeRow r.val x s = none))) ∧
    (∃ (s : State) (r : Fin 8) (x : Record), ((getRec s r.val).held.find? (·.closed) = some x)) ∧
    (∃ (s : State) (r : Fin 8), ((getRec s r.val).held.find? (·.closed) = none)) ∧
    (∃ (s : State) (c : Cmd) (r : Fin 8), (runs 0x0812 true c s = true) ∧ (recDenied c r.val (entered 0x0812 c s) = false)) :=
  ⟨⟨edgeUp, 0, 23, true, 0, [], (by decide), (by decide)⟩,
   ⟨up, 0, 23, false, (by decide), (by decide)⟩,
   ⟨State.reset, 0, 23, false, (by decide)⟩,
   ⟨recUp, recUp, 7, { nextTick := 0x1000000 }, (by decide), (by decide), (rfl), (by decide), (by decide)⟩,
   ⟨{ recUp with ar := { recUp.ar with recorder := .replicate 8 { state := .armed } } }, { recUp with ar := { recUp.ar with recorder := .replicate 8 { state := .armed } } }, 7, (by decide), (by decide), (rfl), (by intro x h; cases h)⟩,
   ⟨up, 7, (by decide)⟩,
   ⟨recUp, 7, { nextTick := 0x1000000 }, (by decide), (by decide), (by decide), (by decide), (rfl)⟩,
   ⟨modRec 7 (fun y => { y with old := some (0, { nextTick := 0x1000000 }) }) recUp, 7, 0, { nextTick := 0x1000000 }, (by decide), (by decide), (by decide), (rfl)⟩,
   ⟨{ recUp with ar := { recUp.ar with recorder := .replicate 8 { state := .armed } } }, 7, (by decide), (by decide), (by exact Or.inl ⟨rfl, by intro x h; cases h⟩)⟩,
   ⟨recUp, 7, { no := 2, closed := true }, (rfl)⟩,
   ⟨up, 7, (by decide)⟩,
   ⟨(asked 0x0812 ({}) (recUp)), {}, 7, (by decide +kernel), (by decide +kernel)⟩⟩

theorem wit_LinksEdgesAndRecorders_part3 :
    (∃ (s : State) (c : Cmd) (r : Fin 8), (runs 0x0812 true c s = true) ∧ (recDenied c r.val (entered 0x0812 c s) = true)) ∧
    (∃ (s : State) (c : Cmd) (r : Fin 8) (n : BitVec 32) (o l : Nat) (x : Record) (_g : List (Nat × GuardFind)), (runs 0x0813 true c s = true) ∧ (recDenied c r.val (entered 0x0813 c s) = false) ∧ ((readable (getRec (entered 0x0813 c s) r.val)).find? (·.no == n) = some x) ∧ (1 ≤ l ∧ o + l ≤ recordLen x)) ∧
    (∃ (s : State) (c : Cmd) (r : Fin 8) (n : BitVec 32) (o l : Nat) (_g : List (Nat × GuardFind)) (e : Status), (runs 0x0813 true c s = true) ∧ (((recDenied c r.val (entered 0x0813 c s) = true ∧ e = .denied) ∨ (recDenied c r.val (entered 0x0813 c s) = false ∧ (readable (getRec (entered 0x0813 c s) r.val)).find? (·.no == n) = none ∧ e = .stale) ∨ (recDenied c r.val (entered 0x0813 c s) = false ∧ e = .badParam ∧ ∃ x, (readable (getRec (entered 0x0813 c s) r.val)).find? (·.no == n) = some x ∧ (l = 0 ∨ recordLen x < o + l))))) ∧
    (∃ (s : State) (c : Cmd) (r : Fin 8) (_l : List (BitVec 32)), (runs 0x0814 true c s = true) ∧ (recDenied c r.val (entered 0x0814 c s) = false)) ∧
    (∃ (s : State) (c : Cmd) (r : Fin 8) (_l : List (BitVec 32)), (runs 0x0814 true c s = true) ∧ (recDenied c r.val (entered 0x0814 c s) = true)) :=
  ⟨⟨(asked 0x0812 ({ ring := .inst 64 0 }) ({ imUp with pa := recUp.pa, ar := recUp.ar })), { ring := .inst 64 0 }, 7, (by decide +kernel), (by decide +kernel)⟩,
   ⟨(asked 0x0813 ({}) (recUp)), {}, 7, 1, 0, 1, { no := 1 }, [], (by decide +kernel), (by decide +kernel), (by with_unfolding_all rfl), (by decide)⟩,
   ⟨(asked 0x0813 ({}) (recUp)), {}, 7, 9, 0, 1, [], .stale, (by decide +kernel), (by exact Or.inr (Or.inl ⟨by decide +kernel, by decide +kernel, rfl⟩))⟩,
   ⟨(asked 0x0814 ({}) (recUp)), {}, 7, [1], (by decide +kernel), (by decide +kernel)⟩,
   ⟨(asked 0x0814 ({ ring := .inst 64 0 }) ({ imUp with pa := recUp.pa, ar := recUp.ar })), { ring := .inst 64 0 }, 7, [1], (by decide +kernel), (by decide +kernel)⟩⟩

theorem wit_TahrIntegersWriteD_part1 :
    (∃ (x : TahrOp) (s : State) (r : Region) (cyc : Cycle) (w : BitVec 64), (atWord 0x01 (zC ||| zI) x s = some (r, cyc, w)) ∧ (inTime x s cyc 1 = true)) ∧
    (∃ (x : TahrOp) (s : State) (r : Region) (cyc : Cycle) (w : BitVec 64), (atWord 0x02 (zC ||| zI) x s = some (r, cyc, w)) ∧ (inTime x s cyc 1 = true)) ∧
    (∃ (x : TahrOp) (s : State) (r : Region) (cyc : Cycle) (w : BitVec 64), (atWord 0x03 (zB ||| zC) x s = some (r, cyc, w)) ∧ (inTime x s cyc 1 = true)) ∧
    (∃ (x : TahrOp) (s : State) (r : Region) (cyc : Cycle) (w : BitVec 64), (atWord 0x04 (zC ||| zI) x s = some (r, cyc, w)) ∧ (inTime x s cyc 3 = true)) ∧
    (∃ (x : TahrOp) (s : State) (r : Region) (cyc : Cycle) (w : BitVec 64), (atWord 0x05 (zC ||| zI) x s = some (r, cyc, w)) ∧ (inTime x s cyc 20 = true)) ∧
    (∃ (x : TahrOp) (s : State) (r : Region) (cyc : Cycle) (w : BitVec 64), (atWord 0x06 (zC ||| zI) x s = some (r, cyc, w)) ∧ (inTime x s cyc 20 = true)) ∧
    (∃ (x : TahrOp) (s : State) (r : Region) (cyc : Cycle) (w : BitVec 64), (atWord 0x07 (zC ||| zI) x s = some (r, cyc, w)) ∧ (inTime x s cyc 1 = true)) ∧
    (∃ (x : TahrOp) (s : State) (r : Region) (cyc : Cycle) (w : BitVec 64), (atWord 0x08 (zC ||| zI) x s = some (r, cyc, w)) ∧ (inTime x s cyc 1 = true)) ∧
    (∃ (x : TahrOp) (s : State) (r : Region) (cyc : Cycle) (w : BitVec 64), (atWord 0x09 (zC ||| zI) x s = some (r, cyc, w)) ∧ (inTime x s cyc 1 = true)) ∧
    (∃ (x : TahrOp) (s : State) (r : Region) (cyc : Cycle) (w : BitVec 64), (atWord 0x0A (zB ||| zC) x s = some (r, cyc, w)) ∧ (inTime x s cyc 1 = true)) ∧
    (∃ (x : TahrOp) (s : State) (r : Region) (cyc : Cycle) (w : BitVec 64), (atWord 0x0B (zB ||| zC) x s = some (r, cyc, w)) ∧ (inTime x s cyc 1 = true)) ∧
    (∃ (x : TahrOp) (s : State) (r : Region) (cyc : Cycle) (w : BitVec 64), (atWord 0x0C (zB ||| zC) x s = some (r, cyc, w)) ∧ (inTime x s cyc 1 = true)) :=
  ⟨⟨on47, atCode 0x010420C000000000, _, _, _, (rfl), (rfl)⟩,
   ⟨on47, atCode 0x020420C000000000, _, _, _, (rfl), (rfl)⟩,
   ⟨on47, atCode 0x0304200000000000, _, _, _, (rfl), (rfl)⟩,
   ⟨on47, atCode 0x040420C000000000, _, _, _, (rfl), (rfl)⟩,
   ⟨on47, atCode 0x050420C000000000, _, _, _, (rfl), (rfl)⟩,
   ⟨on47, atCode 0x060420C000000000, _, _, _, (rfl), (rfl)⟩,
   ⟨on47, atCode 0x070420C000000000, _, _, _, (rfl), (rfl)⟩,
   ⟨on47, atCode 0x080420C000000000, _, _, _, (rfl), (rfl)⟩,
   ⟨on47, atCode 0x090420C000000000, _, _, _, (rfl), (rfl)⟩,
   ⟨on47, atCode 0x0A04200000000000, _, _, _, (rfl), (rfl)⟩,
   ⟨on47, atCode 0x0B04200000000000, _, _, _, (rfl), (rfl)⟩,
   ⟨on47, atCode 0x0C04200000000000, _, _, _, (rfl), (rfl)⟩⟩

theorem wit_TahrIntegersWriteD_part2 :
    (∃ (x : TahrOp) (s : State) (r : Region) (cyc : Cycle) (w : BitVec 64), (atWord 0x0D (zC ||| zI) x s = some (r, cyc, w)) ∧ (inTime x s cyc 1 = true)) ∧
    (∃ (x : TahrOp) (s : State) (r : Region) (cyc : Cycle) (w : BitVec 64), (atWord 0x0E (zC ||| zI) x s = some (r, cyc, w)) ∧ (inTime x s cyc 1 = true)) ∧
    (∃ (x : TahrOp) (s : State) (r : Region) (cyc : Cycle) (w : BitVec 64), (atWord 0x0F (zC ||| zI) x s = some (r, cyc, w)) ∧ (inTime x s cyc 1 = true)) ∧
    (∃ (x : TahrOp) (s : State) (r : Region) (cyc : Cycle) (w : BitVec 64), (atWord 0x10 (zB ||| zC ||| 0xFFFFFFC0) x s = some (r, cyc, w)) ∧ (inTime x s cyc 1 = true)) ∧
    (∃ (x : TahrOp) (s : State) (r : Region) (cyc : Cycle) (w : BitVec 64), (atWord 0x11 (zB ||| zC ||| 0xFFFFFFC0) x s = some (r, cyc, w)) ∧ (inTime x s cyc 1 = true)) ∧
    (∃ (x : TahrOp) (s : State) (r : Region) (cyc : Cycle) (w : BitVec 64), (atWord 0x12 (zB ||| zC ||| 0xFFFFFFC0) x s = some (r, cyc, w)) ∧ (inTime x s cyc 1 = true)) ∧
    (∃ (x : TahrOp) (s : State) (r : Region) (cyc : Cycle) (w : BitVec 64), (atWord 0x13 (zA ||| zB ||| zC) x s = some (r, cyc, w)) ∧ (inTime x s cyc 1 = true)) ∧
    (∃ (x : TahrOp) (s : State) (r : Region) (cyc : Cycle) (w : BitVec 64), (atWord 0x14 (zB ||| zC) x s = some (r, cyc, w)) ∧ (inTime x s cyc 1 = true)) ∧
    (∃ (x : TahrOp) (s : State) (r : Region) (cyc : Cycle) (w : BitVec 64), (atWord 0x15 (zC ||| zI) x s = some (r, cyc, w)) ∧ (inTime x s cyc 1 = true)) ∧
    (∃ (x : TahrOp) (s : State) (r : Region) (cyc : Cycle) (w : BitVec 64), (atWord 0x16 (zC ||| zI) x s = some (r, cyc, w)) ∧ (inTime x s cyc 1 = true)) ∧
    (∃ (x : TahrOp) (s : State) (r : Region) (cyc : Cycle) (w : BitVec 64), (atWord 0x17 (zC ||| zI) x s = some (r, cyc, w)) ∧ (inTime x s cyc 1 = true)) ∧
    (∃ (x : TahrOp) (s : State) (r : Region) (cyc : Cycle) (w : BitVec 64), (atWord 0x18 (zC ||| zI) x s = some (r, cyc, w)) ∧ (inTime x s cyc 1 = true)) :=
  ⟨⟨on47, atCode 0x0D0420C000000000, _, _, _, (rfl), (rfl)⟩,
   ⟨on47, atCode 0x0E0420C000000000, _, _, _, (rfl), (rfl)⟩,
   ⟨on47, atCode 0x0F0420C000000000, _, _, _, (rfl), (rfl)⟩,
   ⟨on47, atCode 0x1004200000000000, _, _, _, (rfl), (rfl)⟩,
   ⟨on47, atCode 0x1104200000000000, _, _, _, (rfl), (rfl)⟩,
   ⟨on47, atCode 0x1204200000000000, _, _, _, (rfl), (rfl)⟩,
   ⟨on47, atCode 0x1304000000000000, _, _, _, (rfl), (rfl)⟩,
   ⟨on47, atCode 0x1404200000000000, _, _, _, (rfl), (rfl)⟩,
   ⟨on47, atCode 0x150420C000000000, _, _, _, (rfl), (rfl)⟩,
   ⟨on47, atCode 0x160420C000000000, _, _, _, (rfl), (rfl)⟩,
   ⟨on47, atCode 0x170420C000000000, _, _, _, (rfl), (rfl)⟩,
   ⟨on47, atCode 0x180420C000000000, _, _, _, (rfl), (rfl)⟩⟩

theorem wit_TahrIntegersWriteD_part3 :
    (∃ (x : TahrOp) (s : State) (r : Region) (cyc : Cycle) (w : BitVec 64), (atWord 0x19 (zC ||| zI) x s = some (r, cyc, w)) ∧ (inTime x s cyc 1 = true)) ∧
    (∃ (x : TahrOp) (s : State) (r : Region) (cyc : Cycle) (w : BitVec 64), (atWord 0x1A (zC ||| zI) x s = some (r, cyc, w)) ∧ (inTime x s cyc 1 = true)) ∧
    (∃ (x : TahrOp) (s : State) (r : Region) (cyc : Cycle) (w : BitVec 64), (atWord 0x1C (zB ||| zC ||| zI) x s = some (r, cyc, w)) ∧ (inTime x s cyc 1 = true)) ∧
    (∃ (x : TahrOp) (s : State) (r : Region) (cyc : Cycle) (w : BitVec 64), (atWord 0x1B zI x s = some (r, cyc, w)) ∧ (inTime x s cyc 1 = true)) :=
  ⟨⟨on47, atCode 0x190420C000000000, _, _, _, (rfl), (rfl)⟩,
   ⟨on47, atCode 0x1A0420C000000000, _, _, _, (rfl), (rfl)⟩,
   ⟨on47, atCode 0x1C04200000000000, _, _, _, (rfl), (rfl)⟩,
   ⟨on47, atCode 0x1B0420C400000000, _, _, _, (rfl), (rfl)⟩⟩

theorem wit_TahrFloatsWriteD_part1 :
    (∃ (x : TahrOp) (s : State) (r : Region) (cyc : Cycle) (w : BitVec 64), (atWord 0x20 (zC ||| zI) x s = some (r, cyc, w)) ∧ (inTime x s cyc 4 = true)) ∧
    (∃ (x : TahrOp) (s : State) (r : Region) (cyc : Cycle) (w : BitVec 64), (atWord 0x21 (zC ||| zI) x s = some (r, cyc, w)) ∧ (inTime x s cyc 4 = true)) ∧
    (∃ (x : TahrOp) (s : State) (r : Region) (cyc : Cycle) (w : BitVec 64), (atWord 0x22 (zC ||| zI) x s = some (r, cyc, w)) ∧ (inTime x s cyc 4 = true)) ∧
    (∃ (x : TahrOp) (s : State) (r : Region) (cyc : Cycle) (w : BitVec 64), (atWord 0x23 (zC ||| zI) x s = some (r, cyc, w)) ∧ (inTime x s cyc 24 = true)) ∧
    (∃ (x : TahrOp) (s : State) (r : Region) (cyc : Cycle) (w : BitVec 64), (atWord 0x24 (zB ||| zC ||| zI) x s = some (r, cyc, w)) ∧ (inTime x s cyc 28 = true)) ∧
    (∃ (x : TahrOp) (s : State) (r : Region) (cyc : Cycle) (w : BitVec 64), (atWord 0x26 (zB ||| zC ||| zI) x s = some (r, cyc, w)) ∧ (inTime x s cyc 1 = true)) ∧
    (∃ (x : TahrOp) (s : State) (r : Region) (cyc : Cycle) (w : BitVec 64), (atWord 0x27 (zB ||| zC ||| zI) x s = some (r, cyc, w)) ∧ (inTime x s cyc 1 = true)) ∧
    (∃ (x : TahrOp) (s : State) (r : Region) (cyc : Cycle) (w : BitVec 64), (atWord 0x28 (zC ||| zI) x s = some (r, cyc, w)) ∧ (inTime x s cyc 2 = true)) ∧
    (∃ (x : TahrOp) (s : State) (r : Region) (cyc : Cycle) (w : BitVec 64), (atWord 0x29 (zC ||| zI) x s = some (r, cyc, w)) ∧ (inTime x s cyc 2 = true)) ∧
    (∃ (x : TahrOp) (s : State) (r : Region) (cyc : Cycle) (w : BitVec 64), (atWord 0x2A (zC ||| zI) x s = some (r, cyc, w)) ∧ (inTime x s cyc 2 = true)) ∧
    (∃ (x : TahrOp) (s : State) (r : Region) (cyc : Cycle) (w : BitVec 64), (atWord 0x2B (zC ||| zI) x s = some (r, cyc, w)) ∧ (inTime x s cyc 2 = true)) ∧
    (∃ (x : TahrOp) (s : State) (r : Region) (cyc : Cycle) (w : BitVec 64), (atWord 0x2C (zC ||| zI) x s = some (r, cyc, w)) ∧ (inTime x s cyc 2 = true)) :=
  ⟨⟨on47, atCode 0x200420C000000000, _, _, _, (rfl), (rfl)⟩,
   ⟨on47, atCode 0x210420C000000000, _, _, _, (rfl), (rfl)⟩,
   ⟨on47, atCode 0x220420C000000000, _, _, _, (rfl), (rfl)⟩,
   ⟨on47, atCode 0x230420C000000000, _, _, _, (rfl), (rfl)⟩,
   ⟨on47, atCode 0x2404200000000000, _, _, _, (rfl), (rfl)⟩,
   ⟨on47, atCode 0x2604200000000000, _, _, _, (rfl), (rfl)⟩,
   ⟨on47, atCode 0x2704200000000000, _, _, _, (rfl), (rfl)⟩,
   ⟨on47, atCode 0x280420C000000000, _, _, _, (rfl), (rfl)⟩,
   ⟨on47, atCode 0x290420C000000000, _, _, _, (rfl), (rfl)⟩,
   ⟨on47, atCode 0x2A0420C000000000, _, _, _, (rfl), (rfl)⟩,
   ⟨on47, atCode 0x2B0420C000000000, _, _, _, (rfl), (rfl)⟩,
   ⟨on47, atCode 0x2C0420C000000000, _, _, _, (rfl), (rfl)⟩⟩

theorem wit_TahrFloatsWriteD_part2 :
    (∃ (x : TahrOp) (s : State) (r : Region) (cyc : Cycle) (w : BitVec 64), (atWord 0x2D (zC ||| zI) x s = some (r, cyc, w)) ∧ (inTime x s cyc 3 = true)) ∧
    (∃ (x : TahrOp) (s : State) (r : Region) (cyc : Cycle) (w : BitVec 64), (atWord 0x2E (zC ||| zI) x s = some (r, cyc, w)) ∧ (inTime x s cyc 3 = true)) ∧
    (∃ (x : TahrOp) (s : State) (r : Region) (cyc : Cycle) (w : BitVec 64), (atWord 0x2F (zC ||| zI) x s = some (r, cyc, w)) ∧ (inTime x s cyc 2 = true)) ∧
    (∃ (x : TahrOp) (s : State) (r : Region) (cyc : Cycle) (w : BitVec 64), (atWord 0x30 (zC ||| zI) x s = some (r, cyc, w)) ∧ (inTime x s cyc 2 = true)) ∧
    (∃ (x : TahrOp) (s : State) (r : Region) (cyc : Cycle) (w : BitVec 64), (atWord 0x31 (zB ||| zC ||| zI) x s = some (r, cyc, w)) ∧ (inTime x s cyc 40 = true)) ∧
    (∃ (x : TahrOp) (s : State) (r : Region) (cyc : Cycle) (w : BitVec 64), (atWord 0x32 (zB ||| zC ||| zI) x s = some (r, cyc, w)) ∧ (inTime x s cyc 40 = true)) ∧
    (∃ (x : TahrOp) (s : State) (r : Region) (cyc : Cycle) (w : BitVec 64), (atWord 0x33 (zC ||| zI) x s = some (r, cyc, w)) ∧ (inTime x s cyc 40 = true)) ∧
    (∃ (x : TahrOp) (s : State) (r : Region) (cyc : Cycle) (w : BitVec 64), (atWord 0x40 (zC ||| zI) x s = some (r, cyc, w)) ∧ (inTime x s cyc 2 = true)) ∧
    (∃ (x : TahrOp) (s : State) (r : Region) (cyc : Cycle) (w : BitVec 64), (atWord 0x41 (zC ||| zI) x s = some (r, cyc, w)) ∧ (inTime x s cyc 2 = true)) ∧
    (∃ (x : TahrOp) (s : State) (r : Region) (cyc : Cycle) (w : BitVec 64), (atWord 0x42 (zC ||| zI) x s = some (r, cyc, w)) ∧ (inTime x s cyc 6 = true)) ∧
    (∃ (x : TahrOp) (s : State) (r : Region) (cyc : Cycle) (w : BitVec 64), (atWord 0x43 (zC ||| zI) x s = some (r, cyc, w)) ∧ (inTime x s cyc 30 = true)) ∧
    (∃ (x : TahrOp) (s : State) (r : Region) (cyc : Cycle) (w : BitVec 64), (atWord 0x44 (zC ||| zI) x s = some (r, cyc, w)) ∧ (inTime x s cyc 1 = true)) :=
  ⟨⟨on47, atCode 0x2D0420C000000000, _, _, _, (rfl), (rfl)⟩,
   ⟨on47, atCode 0x2E0420C000000000, _, _, _, (rfl), (rfl)⟩,
   ⟨on47, atCode 0x2F0420C000000000, _, _, _, (rfl), (rfl)⟩,
   ⟨on47, atCode 0x300420C000000000, _, _, _, (rfl), (rfl)⟩,
   ⟨on47, atCode 0x3104200000000000, _, _, _, (rfl), (rfl)⟩,
   ⟨on47, atCode 0x3204200000000000, _, _, _, (rfl), (rfl)⟩,
   ⟨on47, atCode 0x330420C000000000, _, _, _, (rfl), (rfl)⟩,
   ⟨on47, atCode 0x400420C000000000, _, _, _, (rfl), (rfl)⟩,
   ⟨on47, atCode 0x410420C000000000, _, _, _, (rfl), (rfl)⟩,
   ⟨on47, atCode 0x420420C000000000, _, _, _, (rfl), (rfl)⟩,
   ⟨on47, atCode 0x430420C000000000, _, _, _, (rfl), (rfl)⟩,
   ⟨on47, atCode 0x440420C000000000, _, _, _, (rfl), (rfl)⟩⟩

theorem wit_TahrFloatsWriteD_part3 :
    (∃ (x : TahrOp) (s : State) (r : Region) (cyc : Cycle) (w : BitVec 64), (atWord 0x45 (zC ||| zI) x s = some (r, cyc, w)) ∧ (inTime x s cyc 10 = true)) ∧
    (∃ (x : TahrOp) (s : State) (r : Region) (cyc : Cycle) (w : BitVec 64), (atWord 0x46 (zC ||| zI) x s = some (r, cyc, w)) ∧ (inTime x s cyc 40 = true)) ∧
    (∃ (x : TahrOp) (s : State) (r : Region) (cyc : Cycle) (w : BitVec 64), (atWord 0x47 (zC ||| zI) x s = some (r, cyc, w)) ∧ (inTime x s cyc 3 = true)) ∧
    (∃ (x : TahrOp) (s : State) (r : Region) (cyc : Cycle) (w : BitVec 64), (atWord 0x48 (zC ||| zI) x s = some (r, cyc, w)) ∧ (inTime x s cyc 2 = true)) ∧
    (∃ (x : TahrOp) (s : State) (r : Region) (cyc : Cycle) (w : BitVec 64), (atWord 0x49 (zC ||| zI) x s = some (r, cyc, w)) ∧ (inTime x s cyc 2 = true)) ∧
    (∃ (x : TahrOp) (s : State) (r : Region) (cyc : Cycle) (w : BitVec 64), (atWord 0x4A (zC ||| zI) x s = some (r, cyc, w)) ∧ (inTime x s cyc 4 = true)) ∧
    (∃ (x : TahrOp) (s : State) (r : Region) (cyc : Cycle) (w : BitVec 64), (atWord 0x4B (zC ||| zI) x s = some (r, cyc, w)) ∧ (inTime x s cyc 44 = true)) ∧
    (∃ (x : TahrOp) (s : State) (r : Region) (cyc : Cycle) (w : BitVec 64), (atWord 0x4C (zC ||| zI) x s = some (r, cyc, w)) ∧ (inTime x s cyc 44 = true)) ∧
    (∃ (x : TahrOp) (s : State) (r : Region) (cyc : Cycle) (w : BitVec 64), (atWord 0x25 zI x s = some (r, cyc, w)) ∧ (inTime x s cyc 5 = true)) ∧
    (∃ (x : TahrOp) (s : State) (r : Region) (cyc : Cycle) (w : BitVec 64), (atWord 0x34 (zA ||| zB ||| zC) x s = some (r, cyc, w)) ∧ (inTime x s cyc 1 = true)) :=
  ⟨⟨on47, atCode 0x450420C000000000, _, _, _, (rfl), (rfl)⟩,
   ⟨on47, atCode 0x460420C000000000, _, _, _, (rfl), (rfl)⟩,
   ⟨on47, atCode 0x470420C000000000, _, _, _, (rfl), (rfl)⟩,
   ⟨on47, atCode 0x480420C000000000, _, _, _, (rfl), (rfl)⟩,
   ⟨on47, atCode 0x490420C000000000, _, _, _, (rfl), (rfl)⟩,
   ⟨on47, atCode 0x4A0420C000000000, _, _, _, (rfl), (rfl)⟩,
   ⟨on47, atCode 0x4B0420C000000000, _, _, _, (rfl), (rfl)⟩,
   ⟨on47, atCode 0x4C0420C000000000, _, _, _, (rfl), (rfl)⟩,
   ⟨on47, atCode 0x250420C400000000, _, _, _, (rfl), (rfl)⟩,
   ⟨on47, atCode 0x3404000000000000, _, _, _, (rfl), (rfl)⟩⟩

theorem wit_TahrMovesAndBranches_part1 :
    (∃ (x : TahrOp) (s : State) (r : Region) (cyc : Cycle) (w : BitVec 64), (atWord 0x50 (zB ||| zC) x s = some (r, cyc, w)) ∧ (inTime x s cyc 2 = true) ∧ (dataFault x r (memAddr (getEng s x.e.val) w) 8 8 = none)) ∧
    (∃ (x : TahrOp) (s : State) (r : Region) (cyc : Cycle) (w : BitVec 64), (atWord 0x51 (zB ||| zC) x s = some (r, cyc, w)) ∧ (inTime x s cyc 2 = true) ∧ (dataFault x r (memAddr (getEng s x.e.val) w) 4 4 = none)) ∧
    (∃ (x : TahrOp) (s : State) (r : Region) (cyc : Cycle) (w : BitVec 64), (atWord 0x52 (zB ||| zC) x s = some (r, cyc, w)) ∧ (inTime x s cyc 2 = true) ∧ (dataFault x r (memAddr (getEng s x.e.val) w) 4 4 = none)) ∧
    (∃ (x : TahrOp) (s : State) (r : Region) (cyc : Cycle) (w : BitVec 64), (atWord 0x53 (zB ||| zC) x s = some (r, cyc, w)) ∧ (inTime x s cyc 2 = true) ∧ (dataFault x r (memAddr (getEng s x.e.val) w) 1 1 = none)) ∧
    (∃ (x : TahrOp) (s : State) (r : Region) (cyc : Cycle) (w : BitVec 64), (atWord 0x54 (zB ||| zC) x s = some (r, cyc, w)) ∧ (inTime x s cyc 1 = true) ∧ (dataFault x r (memAddr (getEng s x.e.val) w) 8 8 = none)) ∧
    (∃ (x : TahrOp) (s : State) (r : Region) (cyc : Cycle) (w : BitVec 64), (atWord 0x55 (zB ||| zC) x s = some (r, cyc, w)) ∧ (inTime x s cyc 1 = true) ∧ (dataFault x r (memAddr (getEng s x.e.val) w) 4 4 = none)) ∧
    (∃ (x : TahrOp) (s : State) (r : Region) (cyc : Cycle) (w : BitVec 64), (atWord 0x56 (zB ||| zC) x s = some (r, cyc, w)) ∧ (inTime x s cyc 1 = true) ∧ (dataFault x r (memAddr (getEng s x.e.val) w) 1 1 = none)) ∧
    (∃ (x : TahrOp) (s : State) (r : Region) (cyc : Cycle) (w : BitVec 64) (t : Nat), (atWord 0x80 (zD ||| zA ||| zB ||| zC) x s = some (r, cyc, w)) ∧ (inTime x s cyc 2 = true) ∧ (branchTarget cyc w = t) ∧ (inCode r t = true)) ∧
    (∃ (x : TahrOp) (s : State) (r : Region) (cyc : Cycle) (w : BitVec 64) (t : Nat), (atWord 0x81 (zD ||| zC) x s = some (r, cyc, w)) ∧ (inTime x s cyc 2 = true) ∧ ((opA x s w == opB x s w) = true) ∧ (branchTarget cyc w = t) ∧ (inCode r t = true)) ∧
    (∃ (x : TahrOp) (s : State) (r : Region) (cyc : Cycle) (w : BitVec 64), (atWord 0x81 (zD ||| zC) x s = some (r, cyc, w)) ∧ (inTime x s cyc 1 = true) ∧ ((opA x s w == opB x s w) = false)) ∧
    (∃ (x : TahrOp) (s : State) (r : Region) (cyc : Cycle) (w : BitVec 64) (t : Nat), (atWord 0x82 (zD ||| zC) x s = some (r, cyc, w)) ∧ (inTime x s cyc 2 = true) ∧ ((opA x s w != opB x s w) = true) ∧ (branchTarget cyc w = t) ∧ (inCode r t = true)) ∧
    (∃ (x : TahrOp) (s : State) (r : Region) (cyc : Cycle) (w : BitVec 64), (atWord 0x82 (zD ||| zC) x s = some (r, cyc, w)) ∧ (inTime x s cyc 1 = true) ∧ ((opA x s w != opB x s w) = false)) :=
  ⟨⟨on47, atCode 0x5004200000000008, _, _, _, (rfl), (rfl), (by decide)⟩,
   ⟨on47, atCode 0x5104200000000008, _, _, _, (rfl), (rfl), (by decide)⟩,
   ⟨on47, atCode 0x5204200000000008, _, _, _, (rfl), (rfl), (by decide)⟩,
   ⟨on47, atCode 0x5304200000000008, _, _, _, (rfl), (rfl), (by decide)⟩,
   ⟨on47, atCode 0x54042000000003F0, _, _, _, (rfl), (rfl), (by decide)⟩,
   ⟨on47, atCode 0x55042000000003F0, _, _, _, (rfl), (rfl), (by decide)⟩,
   ⟨on47, atCode 0x56042000000003F0, _, _, _, (rfl), (rfl), (by decide)⟩,
   ⟨on47, atCode 0x80000000FFFFFFFF, _, _, _, 4, (rfl), (rfl), (by decide), (by decide)⟩,
   ⟨on47, atCode 0x81001080FFFFFFFF, _, _, _, 4, (rfl), (rfl), (by decide), (by decide), (by decide)⟩,
   ⟨on47, atCode 0x81001000FFFFFFFF, _, _, _, (rfl), (rfl), (by decide)⟩,
   ⟨on47, atCode 0x82001000FFFFFFFF, _, _, _, 4, (rfl), (rfl), (by decide), (by decide), (by decide)⟩,
   ⟨on47, atCode 0x82001080FFFFFFFF, _, _, _, (rfl), (rfl), (by decide)⟩⟩

theorem wit_TahrMovesAndBranches_part2 :
    (∃ (x : TahrOp) (s : State) (r : Region) (cyc : Cycle) (w : BitVec 64) (t : Nat), (atWord 0x83 (zD ||| zC) x s = some (r, cyc, w)) ∧ (inTime x s cyc 2 = true) ∧ ((opA x s w).slt (opB x s w) = true) ∧ (branchTarget cyc w = t) ∧ (inCode r t = true)) ∧
    (∃ (x : TahrOp) (s : State) (r : Region) (cyc : Cycle) (w : BitVec 64), (atWord 0x83 (zD ||| zC) x s = some (r, cyc, w)) ∧ (inTime x s cyc 1 = true) ∧ ((opA x s w).slt (opB x s w) = false)) ∧
    (∃ (x : TahrOp) (s : State) (r : Region) (cyc : Cycle) (w : BitVec 64) (t : Nat), (atWord 0x84 (zD ||| zC) x s = some (r, cyc, w)) ∧ (inTime x s cyc 2 = true) ∧ ((opB x s w).sle (opA x s w) = true) ∧ (branchTarget cyc w = t) ∧ (inCode r t = true)) ∧
    (∃ (x : TahrOp) (s : State) (r : Region) (cyc : Cycle) (w : BitVec 64), (atWord 0x84 (zD ||| zC) x s = some (r, cyc, w)) ∧ (inTime x s cyc 1 = true) ∧ ((opB x s w).sle (opA x s w) = false)) ∧
    (∃ (x : TahrOp) (s : State) (r : Region) (cyc : Cycle) (w : BitVec 64) (t : Nat), (atWord 0x85 (zD ||| zC) x s = some (r, cyc, w)) ∧ (inTime x s cyc 2 = true) ∧ ((opA x s w).ult (opB x s w) = true) ∧ (branchTarget cyc w = t) ∧ (inCode r t = true)) ∧
    (∃ (x : TahrOp) (s : State) (r : Region) (cyc : Cycle) (w : BitVec 64), (atWord 0x85 (zD ||| zC) x s = some (r, cyc, w)) ∧ (inTime x s cyc 1 = true) ∧ ((opA x s w).ult (opB x s w) = false)) ∧
    (∃ (x : TahrOp) (s : State) (r : Region) (cyc : Cycle) (w : BitVec 64) (t : Nat), (atWord 0x86 (zD ||| zB ||| zC) x s = some (r, cyc, w)) ∧ (inTime x s cyc 2 = true) ∧ (rdV (wrV (getEng s x.e.val) (wA w) (opA x s w - 1)) (wA w) ≠ 0) ∧ (branchTarget cyc w = t) ∧ (inCode r t = true)) ∧
    (∃ (x : TahrOp) (s : State) (r : Region) (cyc : Cycle) (w : BitVec 64), (atWord 0x86 (zD ||| zB ||| zC) x s = some (r, cyc, w)) ∧ (inTime x s cyc 1 = true) ∧ (rdV (wrV (getEng s x.e.val) (wA w) (opA x s w - 1)) (wA w) = 0)) ∧
    (∃ (x : TahrOp) (s : State) (r : Region) (cyc : Cycle) (w : BitVec 64), (atWord 0x87 (zD ||| zB ||| zC ||| 0xFFFFE000) x s = some (r, cyc, w)) ∧ (inTime x s cyc 3 = true) ∧ (inCode r (w.extractLsb' 0 13).toNat = true) ∧ ((getEng s x.e.val).stack.length < 16)) ∧
    (∃ (x : TahrOp) (s : State) (r : Region) (cyc : Cycle) (w : BitVec 64) (p : Nat × BitVec 64) (l : List (Nat × BitVec 64)), (atWord 0x88 (zD ||| zA ||| zB ||| zC ||| zI) x s = some (r, cyc, w)) ∧ (inTime x s cyc 3 = true) ∧ ((getEng s x.e.val).stack = p :: l)) ∧
    (∃ (x : TahrOp) (s : State) (r : Region) (cyc : Cycle) (w : BitVec 64), (atWord 0x8A (zD ||| zA ||| zB ||| zC ||| zI) x s = some (r, cyc, w)) ∧ (inTime x s cyc 1 = true)) ∧
    (∃ (x : TahrOp) (s : State) (r : Region) (cyc : Cycle) (w : BitVec 64), (atWord 0x89 (zD ||| zA ||| zB ||| zC ||| zI) x s = some (r, cyc, w)) ∧ (inTime x s cyc 1 = true) ∧ (cyc.ended = false)) :=
  ⟨⟨on47, atCode 0x83000040FFFFFFFF, _, _, _, 4, (rfl), (rfl), (by decide), (by decide), (by decide)⟩,
   ⟨on47, atCode 0x83001080FFFFFFFF, _, _, _, (rfl), (rfl), (by decide)⟩,
   ⟨on47, atCode 0x84001080FFFFFFFF, _, _, _, 4, (rfl), (rfl), (by decide), (by decide), (by decide)⟩,
   ⟨on47, atCode 0x84000040FFFFFFFF, _, _, _, (rfl), (rfl), (by decide)⟩,
   ⟨on47, atCode 0x85000040FFFFFFFF, _, _, _, 4, (rfl), (rfl), (by decide), (by decide), (by decide)⟩,
   ⟨on47, atCode 0x85001080FFFFFFFF, _, _, _, (rfl), (rfl), (by decide)⟩,
   ⟨on47, atCode 0x86001000FFFFFFFF, _, _, _, 4, (rfl), (rfl), (by decide), (by decide), (by decide)⟩,
   ⟨on47, atCode 0x86000000FFFFFFFF, _, _, _, (rfl), (rfl), (by decide)⟩,
   ⟨on47, atCode 0x8700100000000007, _, _, _, (rfl), (rfl), (by decide), (by decide)⟩,
   ⟨on47, atCode 0x8800000000000000, _, _, _, (4, 9), [], (rfl), (rfl), (rfl)⟩,
   ⟨on47, atCode 0x8A00000000000000, _, _, _, (rfl), (rfl)⟩,
   ⟨on47, atCode 0x8900000000000000, _, _, _, (rfl), (rfl), (by decide)⟩⟩

theorem wit_TahrPointsTimersAndPackets_part1 :
    (∃ (x : TahrOp) (s : State) (r : Region) (cyc : Cycle) (w : BitVec 64) (p : PointRec), (atWord 0x60 (zA ||| zB ||| zC ||| 0xFFFF0000) x s = some (r, cyc, w)) ∧ (inTime x s cyc 2 = true) ∧ (cyc.imports[(w.extractLsb' 0 16).toNat]? = some p)) ∧
    (∃ (x : TahrOp) (s : State) (r : Region) (cyc : Cycle) (w : BitVec 64) (p : PointRec), (atWord 0x61 (zA ||| zB ||| zC ||| 0xFFFF0000) x s = some (r, cyc, w)) ∧ (inTime x s cyc 2 = true) ∧ (cyc.imports[(w.extractLsb' 0 16).toNat]? = some p)) ∧
    (∃ (x : TahrOp) (s : State) (r : Region) (cyc : Cycle) (w : BitVec 64) (p : PointRec), (atWord 0x62 (zA ||| zB ||| zC ||| 0xFFFF0000) x s = some (r, cyc, w)) ∧ (inTime x s cyc 2 = true) ∧ (cyc.imports[(w.extractLsb' 0 16).toNat]? = some p)) ∧
    (∃ (x : TahrOp) (s : State) (r : Region) (cyc : Cycle) (w : BitVec 64), (atWord 0x63 (zA ||| zB ||| 0xFFFF0000) x s = some (r, cyc, w)) ∧ (inTime x s cyc 1 = true) ∧ ((w.extractLsb' 0 16).toNat < cyc.nExp)) ∧
    (∃ (x : TahrOp) (s : State) (r : Region) (cyc : Cycle) (w : BitVec 64), (atWord 0x64 (zA ||| 0xFFFF0000) x s = some (r, cyc, w)) ∧ (inTime x s cyc 1 = true) ∧ ((w.extractLsb' 0 16).toNat < cyc.nExp)) ∧
    (∃ (x : TahrOp) (s : State) (r : Region) (cyc : Cycle) (w : BitVec 64) (v : BitVec 64), (atWord 0x70 (zA ||| zB ||| zC) x s = some (r, cyc, w)) ∧ (inTime x s cyc 1 = true) ∧ (specialReg x.e.val cyc (w.extractLsb' 0 8).toNat = some v)) ∧
    (∃ (x : TahrOp) (s : State) (r : Region) (cyc : Cycle) (w : BitVec 64) (a : Nat), (atWord 0x71 0 x s = some (r, cyc, w)) ∧ (inTime x s cyc 6 = true) ∧ ((opC x s w + wSext w).toNat = a) ∧ (dataFault x r a 24 8 = none)) ∧
    (∃ (x : TahrOp) (s : State) (r : Region) (cyc : Cycle) (w : BitVec 64) (a : Nat), (atWord 0x72 0 x s = some (r, cyc, w)) ∧ (inTime x s cyc 6 = true) ∧ ((opC x s w + wSext w).toNat = a) ∧ (dataFault x r a 24 8 = none)) ∧
    (∃ (x : TahrOp) (s : State) (r : Region) (cyc : Cycle) (w : BitVec 64) (a : Nat), (atWord 0x73 0 x s = some (r, cyc, w)) ∧ (inTime x s cyc 6 = true) ∧ ((opC x s w + wSext w).toNat = a) ∧ (dataFault x r a 24 8 = none)) ∧
    (∃ (x : TahrOp) (s : State) (r : Region) (cyc : Cycle) (w : BitVec 64) (a : Nat), (atWord 0x74 zB x s = some (r, cyc, w)) ∧ (inTime x s cyc 4 = true) ∧ ((opC x s w + wSext w).toNat = a) ∧ (dataFault x r a 8 8 = none)) ∧
    (∃ (x : TahrOp) (s : State) (r : Region) (cyc : Cycle) (w : BitVec 64) (a : Nat), (atWord 0x75 zB x s = some (r, cyc, w)) ∧ (inTime x s cyc 4 = true) ∧ ((opC x s w + wSext w).toNat = a) ∧ (dataFault x r a 8 8 = none)) ∧
    (∃ (x : TahrOp) (s : State) (r : Region) (cyc : Cycle) (w : BitVec 64) (a : Nat) (cv : BitVec 64), (atWord 0x76 0 x s = some (r, cyc, w)) ∧ (inTime x s cyc 5 = true) ∧ ((opC x s w + wSext w).toNat = a) ∧ (dataFault x r a 16 8 = none) ∧ (cv = (if (opA x s w).getLsbD 2 then 0 else if ((opA x s w).getLsbD 0 && !(ldMem (getEng s x.e.val) (a + 8) 8).getLsbD 0) then countUp (ldMem (getEng s x.e.val) a 8) else ldMem (getEng s x.e.val) a 8))) :=
  ⟨⟨on47, atCode 0x6004000000000000, _, _, _, {}, (rfl), (rfl), (rfl)⟩,
   ⟨on47, atCode 0x6104000000000000, _, _, _, {}, (rfl), (rfl), (rfl)⟩,
   ⟨on47, atCode 0x6204000000000000, _, _, _, {}, (rfl), (rfl), (rfl)⟩,
   ⟨on47, atCode 0x6304000200000000, _, _, _, (rfl), (rfl), (by decide)⟩,
   ⟨on47, atCode 0x640400C200000000, _, _, _, (rfl), (rfl), (by decide)⟩,
   ⟨on47, atCode 0x7004000000000009, _, _, _, 0, (rfl), (rfl), (rfl)⟩,
   ⟨on47, atCode 0x710420C4000003D0, _, _, _, 984, (rfl), (rfl), (by decide), (by decide)⟩,
   ⟨on47, atCode 0x720420C4000003D0, _, _, _, 984, (rfl), (rfl), (by decide), (by decide)⟩,
   ⟨on47, atCode 0x730420C4000003D0, _, _, _, 984, (rfl), (rfl), (by decide), (by decide)⟩,
   ⟨on47, atCode 0x74042004000003E0, _, _, _, 1000, (rfl), (rfl), (by decide), (by decide)⟩,
   ⟨on47, atCode 0x75042004000003E0, _, _, _, 1000, (rfl), (rfl), (by decide), (by decide)⟩,
   ⟨on47, atCode 0x760420C4000003D8, _, _, _, 992, _, (rfl), (rfl), (by decide), (by decide), (rfl)⟩⟩

theorem wit_TahrPointsTimersAndPackets_part2 :
    (∃ (x : TahrOp) (s : State) (r : Region) (cyc : Cycle) (w : BitVec 64) (a : Nat) (cv : BitVec 64), (atWord 0x77 0 x s = some (r, cyc, w)) ∧ (inTime x s cyc 5 = true) ∧ ((opC x s w + wSext w).toNat = a) ∧ (dataFault x r a 16 8 = none) ∧ (cv = (if (opA x s w).getLsbD 3 then opB x s w else if ((opA x s w).getLsbD 1 && !(ldMem (getEng s x.e.val) (a + 8) 8).getLsbD 1) then countDown (ldMem (getEng s x.e.val) a 8) else ldMem (getEng s x.e.val) a 8))) ∧
    (∃ (x : TahrOp) (s : State) (r : Region) (cyc : Cycle) (w : BitVec 64) (a : Nat) (cv : BitVec 64), (atWord 0x78 0 x s = some (r, cyc, w)) ∧ (inTime x s cyc 5 = true) ∧ ((opC x s w + wSext w).toNat = a) ∧ (dataFault x r a 16 8 = none) ∧ (cv = (if (opA x s w).getLsbD 2 then 0 else if (opA x s w).getLsbD 3 then opB x s w else if ((opA x s w).getLsbD 0 && !(ldMem (getEng s x.e.val) (a + 8) 8).getLsbD 0) && !((opA x s w).getLsbD 1 && !(ldMem (getEng s x.e.val) (a + 8) 8).getLsbD 1) then countUp (ldMem (getEng s x.e.val) a 8) else if ((opA x s w).getLsbD 1 && !(ldMem (getEng s x.e.val) (a + 8) 8).getLsbD 1) && !((opA x s w).getLsbD 0 && !(ldMem (getEng s x.e.val) (a + 8) 8).getLsbD 0) then countDown (ldMem (getEng s x.e.val) a 8) else ldMem (getEng s x.e.val) a 8))) ∧
    (∃ (x : TahrOp) (s : State) (r : Region) (cyc : Cycle) (w : BitVec 64) (a n : Nat), (atWord 0x79 (zD ||| zB ||| zC ||| 0xFFFFFFFE) x s = some (r, cyc, w)) ∧ ((opA x s w).toNat = a) ∧ (ofBytesLE ((getEng s x.e.val).mem.readN (a + 8) 2) = n) ∧ (14 ≤ n ∧ n ≤ 8160) ∧ (sliceUsed (getEng s x.e.val) cyc + 32 * ceilDiv (32 + n) 32 ≤ 8192) ∧ (dataFault x r a 32 1 = none) ∧ (dataFault x r (a + 32) n 1 = none) ∧ (inTime x s cyc (4 + ceilDiv (32 + n) 32) = true)) ∧
    (∃ (x : TahrOp) (s : State) (r : Region) (cyc : Cycle) (w : BitVec 64) (a n : Nat), (atWord 0x79 (zD ||| zB ||| zC ||| 0xFFFFFFFE) x s = some (r, cyc, w)) ∧ ((opA x s w).toNat = a) ∧ (ofBytesLE ((getEng s x.e.val).mem.readN (a + 8) 2) = n) ∧ (n < 14 ∨ 8160 < n ∨ 8192 < sliceUsed (getEng s x.e.val) cyc + 32 * ceilDiv (32 + n) 32) ∧ (dataFault x r a 32 1 = none) ∧ (inTime x s cyc 4 = true)) :=
  ⟨⟨on47, atCode 0x770420C4000003D8, _, _, _, 992, _, (rfl), (rfl), (by decide), (by decide), (rfl)⟩,
   ⟨on47, atCode 0x780420C4000003D8, _, _, _, 992, _, (rfl), (rfl), (by decide), (by decide), (rfl)⟩,
   ⟨on47, modEng 47 (fun g => { g with mem := [(16, 14)] }) (atCode 0x7900100000000001), _, _, _, 8, 14, (rfl), (by decide), (by decide), (by decide), (by decide), (by decide), (by decide), (rfl)⟩,
   ⟨on47, atCode 0x7900100000000001, _, _, _, 8, 0, (rfl), (by decide), (by decide), (by decide), (by decide), (rfl)⟩⟩

theorem wit_TahrFaultsEndTheCycle_part1 :
    (∃ (x : TahrOp) (s : State) (r : Region) (cyc : Cycle) (w : BitVec 64), (atWord 0x7A (zD ||| zA ||| zB ||| zC ||| 0xFFFF0000) x s = some (r, cyc, w))) ∧
    (∃ (x : TahrOp) (s : State) (r : Region) (cyc : Cycle) (w : BitVec 64) (code ad : Nat), (atWord 0x50 (zB ||| zC) x s = some (r, cyc, w)) ∧ (dataFault x r (memAddr (getEng s x.e.val) w) 8 8 = some (code, ad))) ∧
    (∃ (x : TahrOp) (s : State) (r : Region) (cyc : Cycle) (w : BitVec 64) (code ad : Nat), (atWord 0x51 (zB ||| zC) x s = some (r, cyc, w)) ∧ (dataFault x r (memAddr (getEng s x.e.val) w) 4 4 = some (code, ad))) ∧
    (∃ (x : TahrOp) (s : State) (r : Region) (cyc : Cycle) (w : BitVec 64) (code ad : Nat), (atWord 0x52 (zB ||| zC) x s = some (r, cyc, w)) ∧ (dataFault x r (memAddr (getEng s x.e.val) w) 4 4 = some (code, ad))) ∧
    (∃ (x : TahrOp) (s : State) (r : Region) (cyc : Cycle) (w : BitVec 64) (code ad : Nat), (atWord 0x53 (zB ||| zC) x s = some (r, cyc, w)) ∧ (dataFault x r (memAddr (getEng s x.e.val) w) 1 1 = some (code, ad))) ∧
    (∃ (x : TahrOp) (s : State) (r : Region) (cyc : Cycle) (w : BitVec 64) (code ad : Nat), (atWord 0x54 (zB ||| zC) x s = some (r, cyc, w)) ∧ (dataFault x r (memAddr (getEng s x.e.val) w) 8 8 = some (code, ad))) ∧
    (∃ (x : TahrOp) (s : State) (r : Region) (cyc : Cycle) (w : BitVec 64) (code ad : Nat), (atWord 0x55 (zB ||| zC) x s = some (r, cyc, w)) ∧ (dataFault x r (memAddr (getEng s x.e.val) w) 4 4 = some (code, ad))) ∧
    (∃ (x : TahrOp) (s : State) (r : Region) (cyc : Cycle) (w : BitVec 64) (code ad : Nat), (atWord 0x56 (zB ||| zC) x s = some (r, cyc, w)) ∧ (dataFault x r (memAddr (getEng s x.e.val) w) 1 1 = some (code, ad))) ∧
    (∃ (x : TahrOp) (s : State) (r : Region) (cyc : Cycle) (w : BitVec 64), (atWord 0x87 (zD ||| zB ||| zC ||| 0xFFFFE000) x s = some (r, cyc, w)) ∧ (inCode r (w.extractLsb' 0 13).toNat = true) ∧ (16 ≤ (getEng s x.e.val).stack.length)) ∧
    (∃ (x : TahrOp) (s : State) (r : Region) (cyc : Cycle) (w : BitVec 64), (atWord 0x88 (zD ||| zA ||| zB ||| zC ||| zI) x s = some (r, cyc, w)) ∧ ((getEng s x.e.val).stack = [])) ∧
    (∃ (x : TahrOp) (s : State) (r : Region) (cyc : Cycle) (w : BitVec 64), (atWord 0x63 (zA ||| zB ||| 0xFFFF0000) x s = some (r, cyc, w)) ∧ (cyc.nExp ≤ (w.extractLsb' 0 16).toNat)) ∧
    (∃ (x : TahrOp) (s : State) (cyc : Cycle) (w : BitVec 64), ((getEng s x.e.val).cycle = some cyc) ∧ (cyc.snap = false) ∧ (ltReached (cycInstant cyc cyc.elapsed) (getEng s x.e.val).winEnd = false) ∧ (x.finding = .clean) ∧ ((regionOf (getEng s x.e.val) cyc.owner).any (fun r => inCode r cyc.pc) = true) ∧ ((getEng s x.e.val).code.getD cyc.pc 0 = w) ∧ (wordIllegal w = true)) :=
  ⟨⟨on47, atCode 0x7A0000000000FFFF, _, _, _, (rfl)⟩,
   ⟨on47, atCode 0x5004200000000001, _, _, _, fAlign, 9, (rfl), (by decide)⟩,
   ⟨on47, atCode 0x5104200000000001, _, _, _, fAlign, 9, (rfl), (by decide)⟩,
   ⟨on47, atCode 0x5204200000000001, _, _, _, fAlign, 9, (rfl), (by decide)⟩,
   ⟨on47, atCode 0x5304200000000FF8, _, _, _, fAccess, 4096, (rfl), (by decide)⟩,
   ⟨on47, atCode 0x5404200000000001, _, _, _, fAlign, 9, (rfl), (by decide)⟩,
   ⟨on47, atCode 0x5504200000000001, _, _, _, fAlign, 9, (rfl), (by decide)⟩,
   ⟨on47, atCode 0x5604200000000FF8, _, _, _, fAccess, 4096, (rfl), (by decide)⟩,
   ⟨on47, modEng 47 (fun g => { g with stack := List.replicate 16 (0, 0) }) (atCode 0x8700100000000007), _, _, _, (rfl), (by decide), (by decide)⟩,
   ⟨on47, modEng 47 (fun g => { g with stack := [] }) (atCode 0x8800000000000000), _, _, _, (rfl), (rfl)⟩,
   ⟨on47, atCode 0x6300000000000001, _, _, _, (rfl), (by decide)⟩,
   ⟨on47, atCode 0x8B00000000000000, _, _, (rfl), (rfl), (by decide), (rfl), (by decide), (rfl), (by decide)⟩⟩

theorem wit_TahrFaultsEndTheCycle_part2 :
    (∃ (x : TahrOp) (s : State) (cyc : Cycle), ((getEng s x.e.val).cycle = some cyc) ∧ (cyc.snap = false) ∧ (ltReached (cycInstant cyc cyc.elapsed) (getEng s x.e.val).winEnd = false) ∧ (x.finding = .clean) ∧ ((regionOf (getEng s x.e.val) cyc.owner).any (fun r => inCode r cyc.pc) = false)) ∧
    (∃ (x : TahrOp) (s : State) (r : Region) (cyc : Cycle) (w : BitVec 64) (code ad : Nat), (atWord 0x71 0 x s = some (r, cyc, w)) ∧ (dataFault x r ((opC x s w) + wSext w).toNat 24 8 = some (code, ad))) ∧
    (∃ (x : TahrOp) (s : State) (r : Region) (cyc : Cycle) (w : BitVec 64) (code ad : Nat), (atWord 0x72 0 x s = some (r, cyc, w)) ∧ (dataFault x r ((opC x s w) + wSext w).toNat 24 8 = some (code, ad))) ∧
    (∃ (x : TahrOp) (s : State) (r : Region) (cyc : Cycle) (w : BitVec 64) (code ad : Nat), (atWord 0x73 0 x s = some (r, cyc, w)) ∧ (dataFault x r ((opC x s w) + wSext w).toNat 24 8 = some (code, ad))) ∧
    (∃ (x : TahrOp) (s : State) (r : Region) (cyc : Cycle) (w : BitVec 64) (code ad : Nat), (atWord 0x74 zB x s = some (r, cyc, w)) ∧ (dataFault x r ((opC x s w) + wSext w).toNat 8 8 = some (code, ad))) ∧
    (∃ (x : TahrOp) (s : State) (r : Region) (cyc : Cycle) (w : BitVec 64) (code ad : Nat), (atWord 0x75 zB x s = some (r, cyc, w)) ∧ (dataFault x r ((opC x s w) + wSext w).toNat 8 8 = some (code, ad))) ∧
    (∃ (x : TahrOp) (s : State) (r : Region) (cyc : Cycle) (w : BitVec 64) (code ad : Nat), (atWord 0x76 0 x s = some (r, cyc, w)) ∧ (dataFault x r ((opC x s w) + wSext w).toNat 16 8 = some (code, ad))) ∧
    (∃ (x : TahrOp) (s : State) (r : Region) (cyc : Cycle) (w : BitVec 64) (code ad : Nat), (atWord 0x77 0 x s = some (r, cyc, w)) ∧ (dataFault x r ((opC x s w) + wSext w).toNat 16 8 = some (code, ad))) ∧
    (∃ (x : TahrOp) (s : State) (r : Region) (cyc : Cycle) (w : BitVec 64) (code ad : Nat), (atWord 0x78 0 x s = some (r, cyc, w)) ∧ (dataFault x r ((opC x s w) + wSext w).toNat 16 8 = some (code, ad))) ∧
    (∃ (x : TahrOp) (s : State) (r : Region) (cyc : Cycle) (w : BitVec 64) (code ad : Nat), (atWord 0x79 (zD ||| zB ||| zC ||| 0xFFFFFFFE) x s = some (r, cyc, w)) ∧ (dataFault x r (opA x s w).toNat 32 1 = some (code, ad))) ∧
    (∃ (x : TahrOp) (s : State) (r : Region) (cyc : Cycle) (w : BitVec 64) (code ad n : Nat), (atWord 0x79 (zD ||| zB ||| zC ||| 0xFFFFFFFE) x s = some (r, cyc, w)) ∧ (dataFault x r (opA x s w).toNat 32 1 = none) ∧ (ofBytesLE ((getEng s x.e.val).mem.readN ((opA x s w).toNat + 8) 2) = n) ∧ (14 ≤ n ∧ n ≤ 8160) ∧ (sliceUsed (getEng s x.e.val) cyc + 32 * ceilDiv (32 + n) 32 ≤ 8192) ∧ (dataFault x r ((opA x s w).toNat + 32) n 1 = some (code, ad))) ∧
    (∃ (x : TahrOp) (s : State) (r : Region) (cyc : Cycle) (w : BitVec 64), (atWord 0x60 (zA ||| zB ||| zC ||| 0xFFFF0000) x s = some (r, cyc, w)) ∧ (cyc.imports[(w.extractLsb' 0 16).toNat]? = none)) :=
  ⟨⟨on47, modEng 47 (fun g => { g with regions := [] }) (atCode 0), _, (rfl), (rfl), (by decide), (rfl), (by decide)⟩,
   ⟨on47, atCode 0x7104000400000001, _, _, _, fAlign, 9, (rfl), (by decide)⟩,
   ⟨on47, atCode 0x7204000400000001, _, _, _, fAlign, 9, (rfl), (by decide)⟩,
   ⟨on47, atCode 0x7304000400000001, _, _, _, fAlign, 9, (rfl), (by decide)⟩,
   ⟨on47, atCode 0x7404000400000001, _, _, _, fAlign, 9, (rfl), (by decide)⟩,
   ⟨on47, atCode 0x7504000400000001, _, _, _, fAlign, 9, (rfl), (by decide)⟩,
   ⟨on47, atCode 0x7604000400000001, _, _, _, fAlign, 9, (rfl), (by decide)⟩,
   ⟨on47, atCode 0x7704000400000001, _, _, _, fAlign, 9, (rfl), (by decide)⟩,
   ⟨on47, atCode 0x7804000400000001, _, _, _, fAlign, 9, (rfl), (by decide)⟩,
   ⟨on47, modEng 47 (fun g => { g with v := .replicate 64 1000 }) (atCode 0x7900100000000001), _, _, _, fAccess, 1000, (rfl), (by decide)⟩,
   ⟨on47, modEng 47 (fun g => { g with v := .replicate 64 992, mem := [(1000, 14)] }) (atCode 0x7900100000000001), _, _, _, fAccess, 1024, 14, (rfl), (by decide), (by decide), (by decide), (by decide), (by decide)⟩,
   ⟨on47, atCode 0x600400000000FFFF, _, _, _, (rfl), (rfl)⟩⟩

theorem wit_TahrFaultsEndTheCycle_part3 :
    (∃ (x : TahrOp) (s : State) (r : Region) (cyc : Cycle) (w : BitVec 64), (atWord 0x61 (zA ||| zB ||| zC ||| 0xFFFF0000) x s = some (r, cyc, w)) ∧ (cyc.imports[(w.extractLsb' 0 16).toNat]? = none)) ∧
    (∃ (x : TahrOp) (s : State) (r : Region) (cyc : Cycle) (w : BitVec 64), (atWord 0x62 (zA ||| zB ||| zC ||| 0xFFFF0000) x s = some (r, cyc, w)) ∧ (cyc.imports[(w.extractLsb' 0 16).toNat]? = none)) ∧
    (∃ (x : TahrOp) (s : State) (r : Region) (cyc : Cycle) (w : BitVec 64), (atWord 0x64 (zA ||| 0xFFFF0000) x s = some (r, cyc, w)) ∧ (cyc.nExp ≤ (w.extractLsb' 0 16).toNat)) ∧
    (∃ (x : TahrOp) (s : State) (r : Region) (cyc : Cycle) (w : BitVec 64), (atWord 0x70 (zA ||| zB ||| zC) x s = some (r, cyc, w)) ∧ (specialReg x.e.val cyc (w.extractLsb' 0 8).toNat = none)) ∧
    (∃ (x : TahrOp) (s : State) (r : Region) (cyc : Cycle) (w : BitVec 64), (atWord 0x80 (zD ||| zA ||| zB ||| zC) x s = some (r, cyc, w)) ∧ (branchTarget cyc w < 0 ∨ inCode r (branchTarget cyc w).toNat = false)) ∧
    (∃ (x : TahrOp) (s : State) (r : Region) (cyc : Cycle) (w : BitVec 64), (atWord 0x81 (zD ||| zC) x s = some (r, cyc, w)) ∧ ((opA x s w == opB x s w) = true) ∧ (branchTarget cyc w < 0 ∨ inCode r (branchTarget cyc w).toNat = false)) ∧
    (∃ (x : TahrOp) (s : State) (r : Region) (cyc : Cycle) (w : BitVec 64), (atWord 0x82 (zD ||| zC) x s = some (r, cyc, w)) ∧ ((opA x s w != opB x s w) = true) ∧ (branchTarget cyc w < 0 ∨ inCode r (branchTarget cyc w).toNat = false)) ∧
    (∃ (x : TahrOp) (s : State) (r : Region) (cyc : Cycle) (w : BitVec 64), (atWord 0x83 (zD ||| zC) x s = some (r, cyc, w)) ∧ ((opA x s w).slt (opB x s w) = true) ∧ (branchTarget cyc w < 0 ∨ inCode r (branchTarget cyc w).toNat = false)) ∧
    (∃ (x : TahrOp) (s : State) (r : Region) (cyc : Cycle) (w : BitVec 64), (atWord 0x84 (zD ||| zC) x s = some (r, cyc, w)) ∧ ((opB x s w).sle (opA x s w) = true) ∧ (branchTarget cyc w < 0 ∨ inCode r (branchTarget cyc w).toNat = false)) ∧
    (∃ (x : TahrOp) (s : State) (r : Region) (cyc : Cycle) (w : BitVec 64), (atWord 0x85 (zD ||| zC) x s = some (r, cyc, w)) ∧ ((opA x s w).ult (opB x s w) = true) ∧ (branchTarget cyc w < 0 ∨ inCode r (branchTarget cyc w).toNat = false)) ∧
    (∃ (x : TahrOp) (s : State) (r : Region) (cyc : Cycle) (w : BitVec 64), (atWord 0x86 (zD ||| zB ||| zC) x s = some (r, cyc, w)) ∧ (rdV (wrV (getEng s x.e.val) (wA w) (opA x s w - 1)) (wA w) ≠ 0) ∧ (branchTarget cyc w < 0 ∨ inCode r (branchTarget cyc w).toNat = false)) ∧
    (∃ (x : TahrOp) (s : State) (r : Region) (cyc : Cycle) (w : BitVec 64), (atWord 0x87 (zD ||| zB ||| zC ||| 0xFFFFE000) x s = some (r, cyc, w)) ∧ (inCode r (w.extractLsb' 0 13).toNat = false)) :=
  ⟨⟨on47, atCode 0x610400000000FFFF, _, _, _, (rfl), (rfl)⟩,
   ⟨on47, atCode 0x620400000000FFFF, _, _, _, (rfl), (rfl)⟩,
   ⟨on47, atCode 0x6400000000000001, _, _, _, (rfl), (by decide)⟩,
   ⟨on47, atCode 0x700400000000000A, _, _, _, (rfl), (rfl)⟩,
   ⟨on47, atCode 0x800000000000007F, _, _, _, (rfl), (by decide)⟩,
   ⟨on47, atCode 0x810010800000007F, _, _, _, (rfl), (by decide), (by decide)⟩,
   ⟨on47, atCode 0x820010000000007F, _, _, _, (rfl), (by decide), (by decide)⟩,
   ⟨on47, atCode 0x830000400000007F, _, _, _, (rfl), (by decide), (by decide)⟩,
   ⟨on47, atCode 0x840010800000007F, _, _, _, (rfl), (by decide), (by decide)⟩,
   ⟨on47, atCode 0x850000400000007F, _, _, _, (rfl), (by decide), (by decide)⟩,
   ⟨on47, atCode 0x860010000000007F, _, _, _, (rfl), (by decide), (by decide)⟩,
   ⟨on47, atCode 0x8700100000000008, _, _, _, (rfl), (by decide)⟩⟩

theorem wit_FaultIsRecorded : ∃ (e e2 : Nat) (_cyc : Cycle) (_code _ad _pc _n : Nat) (_w : BitVec 64) (_s : State), (e2 ≠ e) :=
  ⟨0, 47, {}, 1, 0, 0, 0, 0, atCode 0, (by decide)⟩

theorem wit_CyclesAndFbCommands_part1 :
    (∃ (s u : State), (tcuDue s 1 = true) ∧ (u = (if tcuDue (fireTcu 1 s) 2 then majorFrame (fireTcu 1 s) else fireTcu 1 s)) ∧ (u.fb.framed = true)) ∧
    (∃ (s u : State), (tcuDue s 1 = true) ∧ (u = (if tcuDue (fireTcu 1 s) 2 then majorFrame (fireTcu 1 s) else fireTcu 1 s)) ∧ (u.fb.framed = false)) ∧
    (∃ (s : State), (tcuDue s 1 = false)) ∧
    (∃ (s : State), (tcuDue s 2 = true)) ∧
    (∃ (s : State), (tcuDue s 2 = false)) ∧
    (∃ (s : State) (e : Fin 48) (w : Window), ((getEng s e.val).win = some w) ∧ (ltReached s.now (getEng s e.val).winEnd = true)) ∧
    (∃ (s : State) (e : Fin 48), ((getEng s e.val).win = none ∨ ltReached s.now (getEng s e.val).winEnd = false)) ∧
    (∃ (s : State) (e : Fin 48) (w : Window) (t : Nat) (k : Task), ((getEng s e.val).win = some w) ∧ ((getEng s e.val).cycle = none) ∧ ((getEng s e.val).domain = .on) ∧ ((vget s.fb.cl (e.val / 8) {}).reload = false) ∧ (ltReached s.now (getEng s e.val).winEnd = false) ∧ (ltReached s.now (getEng s e.val).freeAt = true) ∧ ((∀ c ∈ (getEng s e.val).copying, c.1 = w.owner → ltReached s.now c.2 = true)) ∧ (cycleFirst ((s.fb.tasks.filter (fun x => x.1.1 == w.owner && x.2.engine == e.val && x.2.released.isSome && x.2.state == .active)).map (fun x => (x.1.2, x.2))) = some (t, k))) ∧
    (∃ (s : State) (e : Fin 48), (((getEng s e.val).win = none ∨ ∃ w, (getEng s e.val).win = some w ∧ (¬((getEng s e.val).cycle = none ∧ (getEng s e.val).domain = .on ∧ (vget s.fb.cl (e.val / 8) {}).reload = false ∧ ltReached s.now (getEng s e.val).winEnd = false ∧ ltReached s.now (getEng s e.val).freeAt = true ∧ (∀ c ∈ (getEng s e.val).copying, c.1 = w.owner → ltReached s.now c.2 = true)) ∨ cycleFirst ((s.fb.tasks.filter (fun x => x.1.1 == w.owner && x.2.engine == e.val && x.2.released.isSome && x.2.state == .active)).map (fun x => (x.1.2, x.2))) = none)))) ∧
    (∃ (s : State) (e : Fin 48) (c : Cycle), ((getEng s e.val).cycle = some c) ∧ (c.snap = true) ∧ (ltReached s.now (cycInstant c 0) = true)) ∧
    (∃ (s : State) (e : Fin 48), ((∀ c, (getEng s e.val).cycle = some c → c.snap = false ∨ ltReached s.now (cycInstant c 0) = false))) ∧
    (∃ (s : State) (e : Fin 48), ((getEng s e.val).pendingW.find? (fun p => ltReached s.now p.w) = none)) :=
  ⟨⟨(onFb (fun x => { x with framed := true }) fbUp), _, (by decide), (rfl), (by decide +kernel)⟩,
   ⟨modTcu 2 (fun u => { u with en := false }) fbUp, _, (by decide), (rfl), (by decide +kernel)⟩,
   ⟨up, (by decide)⟩,
   ⟨fbUp, (by decide)⟩,
   ⟨up, (by decide)⟩,
   ⟨fbEnd, 47, {}, (rfl), (by decide)⟩,
   ⟨up, 47, (by decide)⟩,
   ⟨fbUp, 47, {}, 255, _, (rfl), (rfl), (rfl), (rfl), (rfl), (rfl), (by decide), (rfl)⟩,
   ⟨up, 47, (by exact Or.inl rfl)⟩,
   ⟨fbSnap, 47, { task := 255 }, (by decide), (by decide), (by decide)⟩,
   ⟨up, 47, (by intro c h; cases h)⟩,
   ⟨fbUp, 47, (by decide)⟩⟩

theorem wit_CyclesAndFbCommands_part2 :
    (∃ (s t : State) (e : Fin 48) (p : PendingW) (a b : Nat), ((getEng s e.val).pendingW.find? (fun p => ltReached s.now p.w) = some p) ∧ (openSends (e.val / 8) p.owner p.sends (onFo (fun f => { f with outTs := (((allBatches s).filter (fun (b : Batch) => b.src == .engine e.val && b.visible == some p.w)).flatMap (·.writes)).foldl (fun t w => t.put w.index p.ts) f.outTs }) (applyOutput (((allBatches s).filter (fun (b : Batch) => b.src == .engine e.val && b.visible == some p.w)).flatMap (·.writes)) (dropBatches (fun (b : Batch) => b.src == .engine e.val && b.visible == some p.w) s))) = (a, b, t))) ∧
    (∃ (s : State) (e : Fin 48) (p : PendingW), ((getEng s e.val).pendingW.find? (fun p => ltReached s.now p.w) = some p) ∧ (p.lastStep = false) ∧ (p.sends = []) ∧ (s.ps.held = []) ∧ (s.ps.waiting = []) ∧ (s.ps.heldBack = [])) ∧
    (∃ (s u : State) (o : Nat) (q : RunReq), ((s.fb.own.getD o {}).pending.find? (runDue s) = some q) ∧ (s.fb.running = true) ∧ (u = onFb (fun x => { x with own := x.own.upd o {} (fun y => { y with pending := y.pending.erase q }) }) s)) ∧
    (∃ (s : State) (o : Nat), ((s.fb.own.getD o {}).pending.find? (runDue s) = none ∨ s.fb.running = false)) ∧
    (∃ (s : State) (k : Fin 6) (odd : Bool) (_g : Option GuardFind), ((getQ s (0x20 + 2 * k.val + bitN odd)).words = [] ∨ (getEng s (8 * k.val)).domain ≠ .on)) ∧
    (∃ (s t : State) (k : Fin 6) (odd : Bool) (_h : GuardHit) (ws : List QWord), ((getQ s (0x20 + 2 * k.val + bitN odd)).words ≠ []) ∧ ((getEng s (8 * k.val)).domain = .on) ∧ ((ws, t) = takePacket (0x20 + 2 * k.val + bitN odd) s)) ∧
    (∃ (s t u : State) (k : Fin 6) (odd : Bool) (g : Option GuardFind) (ws : List QWord), ((getQ s (0x20 + 2 * k.val + bitN odd)).words ≠ []) ∧ ((getEng s (8 * k.val)).domain = .on) ∧ ((ws, t) = takePacket (0x20 + 2 * k.val + bitN odd) s) ∧ (((g = none ∧ u = t) ∨ (g = some .corrected ∧ u = guardCorrected 0x3 t))) ∧ (ws.any (epochStale u) = true)) ∧
    (∃ (s t u : State) (k : Fin 6) (odd : Bool) (g : Option GuardFind) (ws : List QWord), ((getQ s (0x20 + 2 * k.val + bitN odd)).words ≠ []) ∧ ((getEng s (8 * k.val)).domain = .on) ∧ ((ws, t) = takePacket (0x20 + 2 * k.val + bitN odd) s) ∧ (((g = none ∧ u = t) ∨ (g = some .corrected ∧ u = guardCorrected 0x3 t))) ∧ (ws.any (epochStale u) = false) ∧ ((((vget u.fb.cl k.val {}).rxmap.find? (fun r => r.valid && r.odd == odd && r.etype == ({ bytes := payloadOf ws } : Frame).etype && (match r.dst with | some m => m == ({ bytes := payloadOf ws } : Frame).dst | none => true))) = none ∨ ∃ r, ((vget u.fb.cl k.val {}).rxmap.find? (fun r => r.valid && r.odd == odd && r.etype == ({ bytes := payloadOf ws } : Frame).etype && (match r.dst with | some m => m == ({ bytes := payloadOf ws } : Frame).dst | none => true))) = some r ∧ taskOn u (8 * k.val + r.engine.val) r.task = none))) ∧
    (∃ (s t u : State) (k : Fin 6) (odd : Bool) (g : Option GuardFind) (ws : List QWord) (r : RxEntry) (o : Tag) (te : TaskEntry), ((getQ s (0x20 + 2 * k.val + bitN odd)).words ≠ []) ∧ ((getEng s (8 * k.val)).domain = .on) ∧ ((ws, t) = takePacket (0x20 + 2 * k.val + bitN odd) s) ∧ (((g = none ∧ u = t) ∨ (g = some .corrected ∧ u = guardCorrected 0x3 t))) ∧ (ws.any (epochStale u) = false) ∧ (((vget u.fb.cl k.val {}).rxmap.find? (fun r => r.valid && r.odd == odd && r.etype == ({ bytes := payloadOf ws } : Frame).etype && (match r.dst with | some m => m == ({ bytes := payloadOf ws } : Frame).dst | none => true))) = some r) ∧ (taskOn u (8 * k.val + r.engine.val) r.task = some (o, te))) ∧
    (∃ (s : State) (k : Fin 6), ((vget s.fb.cl k.val {}).reload = true)) ∧
    (∃ (s : State) (k : Fin 6), ((vget s.fb.cl k.val {}).reload = false)) ∧
    (∃ (c : Cmd) (e : Fin 48) (a n : Nat) (s : State), (runs 0x0910 true c s = true) ∧ (a + n ≤ 131072) ∧ (instAdmits (issuer c) (getEng (entered 0x0910 c s) e.val) a n = true) ∧ ((getEng (entered 0x0910 c s) e.val).domain = .on) ∧ (readBlocked (entered 0x0910 c s) ({ engine := e.val, owners := (touched (getEng (entered 0x0910 c s) e.val) a n).map (·.owner), first := a, len := n, wait := { cmd := c, opcode := 0x0910 } } : ReadWait) = false)) :=
  ⟨⟨modEng 47 (fun g => { g with pendingW := [{ task := 255 }] }) fbUp, (openSends 5 0 [] (onFo (fun f => { f with outTs := (((allBatches (modEng 47 (fun g => { g with pendingW := [{ task := 255 }] }) fbUp)).filter (fun (b : Batch) => b.src == .engine 47 && b.visible == some (0 : LT))).flatMap (·.writes)).foldl (fun t w => t.put w.index 0) f.outTs }) (applyOutput (((allBatches (modEng 47 (fun g => { g with pendingW := [{ task := 255 }] }) fbUp)).filter (fun (b : Batch) => b.src == .engine 47 && b.visible == some (0 : LT))).flatMap (·.writes)) (dropBatches (fun (b : Batch) => b.src == .engine 47 && b.visible == some (0 : LT)) (modEng 47 (fun g => { g with pendingW := [{ task := 255 }] }) fbUp))))).2.2, 47, { task := 255 }, 0, 0, (rfl), (by with_unfolding_all rfl)⟩,
   ⟨modEng 47 (fun g => { g with pendingW := [{ task := 255 }] }) fbUp, 47, { task := 255 }, (rfl), (rfl), (rfl), (rfl), (rfl), (rfl)⟩,
   ⟨fbUp, _, 0, { cmd := .stop, at_ := 0 }, (by decide), (rfl), (rfl)⟩,
   ⟨up, 0, (by decide)⟩,
   ⟨up, 5, true, none, (by decide)⟩,
   ⟨{ fbUp with qm := { fbUp.qm with ready := true, q := [(0x2B, { words := [{ last := true }] })] }, fb := { fbUp.fb with eng := fbUp.fb.eng ++ [(40, { domain := .on })] } }, (takePacket 0x2B ({ fbUp with qm := { fbUp.qm with ready := true, q := [(0x2B, { words := [{ last := true }] })] }, fb := { fbUp.fb with eng := fbUp.fb.eng ++ [(40, { domain := .on })] } })).2, 5, true, {}, (takePacket 0x2B ({ fbUp with qm := { fbUp.qm with ready := true, q := [(0x2B, { words := [{ last := true }] })] }, fb := { fbUp.fb with eng := fbUp.fb.eng ++ [(40, { domain := .on })] } })).1, (by decide), (by decide), (rfl)⟩,
   ⟨{ fbUp with qm := { fbUp.qm with ready := true, q := [(0x2B, { words := [{ tag := 1, epoch := 1, last := true }] })] }, fb := { fbUp.fb with eng := fbUp.fb.eng ++ [(40, { domain := .on })] } }, (takePacket 0x2B ({ fbUp with qm := { fbUp.qm with ready := true, q := [(0x2B, { words := [{ tag := 1, epoch := 1, last := true }] })] }, fb := { fbUp.fb with eng := fbUp.fb.eng ++ [(40, { domain := .on })] } })).2, (takePacket 0x2B ({ fbUp with qm := { fbUp.qm with ready := true, q := [(0x2B, { words := [{ tag := 1, epoch := 1, last := true }] })] }, fb := { fbUp.fb with eng := fbUp.fb.eng ++ [(40, { domain := .on })] } })).2, 5, true, none, (takePacket 0x2B ({ fbUp with qm := { fbUp.qm with ready := true, q := [(0x2B, { words := [{ tag := 1, epoch := 1, last := true }] })] }, fb := { fbUp.fb with eng := fbUp.fb.eng ++ [(40, { domain := .on })] } })).1, (by decide), (by decide), (rfl), (by exact Or.inl ⟨rfl, rfl⟩), (by decide +kernel)⟩,
   ⟨{ fbUp with qm := { fbUp.qm with ready := true, q := [(0x2B, { words := [{ last := true }] })] }, fb := { fbUp.fb with eng := fbUp.fb.eng ++ [(40, { domain := .on })] } }, (takePacket 0x2B ({ fbUp with qm := { fbUp.qm with ready := true, q := [(0x2B, { words := [{ last := true }] })] }, fb := { fbUp.fb with eng := fbUp.fb.eng ++ [(40, { domain := .on })] } })).2, (takePacket 0x2B ({ fbUp with qm := { fbUp.qm with ready := true, q := [(0x2B, { words := [{ last := true }] })] }, fb := { fbUp.fb with eng := fbUp.fb.eng ++ [(40, { domain := .on })] } })).2, 5, true, none, (takePacket 0x2B ({ fbUp with qm := { fbUp.qm with ready := true, q := [(0x2B, { words := [{ last := true }] })] }, fb := { fbUp.fb with eng := fbUp.fb.eng ++ [(40, { domain := .on })] } })).1, (by decide), (by decide), (rfl), (by exact Or.inl ⟨rfl, rfl⟩), (by decide +kernel), (by exact Or.inl (by decide +kernel))⟩,
   ⟨{ fbUp with qm := { fbUp.qm with ready := true, q := [(0x2B, { words := [{ last := true }] })] }, fb := { fbUp.fb with images := [(0, { engines := [{ engine := 47, tasks := [{ task := 255, rxSize := 2000, rxCount := 4 }] }] })], cl := .replicate 6 { rxmap := [{ valid := true, odd := true, engine := 7, task := 255 }] }, eng := fbUp.fb.eng ++ [(40, { domain := .on })] } }, (takePacket 0x2B ({ fbUp with qm := { fbUp.qm with ready := true, q := [(0x2B, { words := [{ last := true }] })] }, fb := { fbUp.fb with images := [(0, { engines := [{ engine := 47, tasks := [{ task := 255, rxSize := 2000, rxCount := 4 }] }] })], cl := .replicate 6 { rxmap := [{ valid := true, odd := true, engine := 7, task := 255 }] }, eng := fbUp.fb.eng ++ [(40, { domain := .on })] } })).2, (takePacket 0x2B ({ fbUp with qm := { fbUp.qm with ready := true, q := [(0x2B, { words := [{ last := true }] })] }, fb := { fbUp.fb with images := [(0, { engines := [{ engine := 47, tasks := [{ task := 255, rxSize := 2000, rxCount := 4 }] }] })], cl := .replicate 6 { rxmap := [{ valid := true, odd := true, engine := 7, task := 255 }] }, eng := fbUp.fb.eng ++ [(40, { domain := .on })] } })).2, 5, true, none, (takePacket 0x2B ({ fbUp with qm := { fbUp.qm with ready := true, q := [(0x2B, { words := [{ last := true }] })] }, fb := { fbUp.fb with images := [(0, { engines := [{ engine := 47, tasks := [{ task := 255, rxSize := 2000, rxCount := 4 }] }] })], cl := .replicate 6 { rxmap := [{ valid := true, odd := true, engine := 7, task := 255 }] }, eng := fbUp.fb.eng ++ [(40, { domain := .on })] } })).1, { valid := true, odd := true, engine := 7, task := 255 }, 0, { task := 255, rxSize := 2000, rxCount := 4 }, (by decide), (by decide), (rfl), (by exact Or.inl ⟨rfl, rfl⟩), (by decide +kernel), (by decide +kernel), (by decide +kernel)⟩,
   ⟨{ fbUp with fb := { fbUp.fb with cl := .replicate 6 { reload := true } } }, 5, (by decide)⟩,
   ⟨up, 5, (by decide)⟩,
   ⟨{}, 47, 1023, 1, (asked 0x0910 ({}) ((modEng 47 (fun g => { g with cycle := none }) (atCode 0)))), (by decide +kernel), (by decide +kernel), (by decide +kernel), (by decide +kernel), (by decide +kernel)⟩⟩

theorem wit_CyclesAndFbCommands_part3 :
    (∃ (c : Cmd) (e : Fin 48) (a n : Nat) (s : State), (runs 0x0910 true c s = true) ∧ (a + n ≤ 131072) ∧ (instAdmits (issuer c) (getEng (entered 0x0910 c s) e.val) a n = true) ∧ ((getEng (entered 0x0910 c s) e.val).domain = .on) ∧ (readBlocked (entered 0x0910 c s) ({ engine := e.val, owners := (touched (getEng (entered 0x0910 c s) e.val) a n).map (·.owner), first := a, len := n, wait := { cmd := c, opcode := 0x0910 } } : ReadWait) = true)) ∧
    (∃ (c : Cmd) (_e : Fin 48) (a n : Nat) (s : State), (runs 0x0910 true c s = true) ∧ (131072 < a + n)) ∧
    (∃ (c : Cmd) (e : Fin 48) (a n : Nat) (s : State), (runs 0x0910 true c s = true) ∧ (a + n ≤ 131072) ∧ (instAdmits (issuer c) (getEng (entered 0x0910 c s) e.val) a n = false)) ∧
    (∃ (c : Cmd) (e : Fin 48) (a n : Nat) (s : State), (runs 0x0910 true c s = true) ∧ (a + n ≤ 131072) ∧ (instAdmits (issuer c) (getEng (entered 0x0910 c s) e.val) a n = true) ∧ ((getEng (entered 0x0910 c s) e.val).domain ≠ .on)) ∧
    (∃ (c : Cmd) (o : Tag) (_e : Fin 48) (s : State), (runs 0x0911 true c s = true) ∧ ((issuer c = 0 ∨ o = issuer c))) ∧
    (∃ (c : Cmd) (o : Tag) (_e : Fin 48) (s : State), (runs 0x0911 true c s = true) ∧ (issuer c ≠ 0 ∧ o ≠ issuer c)) ∧
    (∃ (c : Cmd) (o : Tag) (s : State), (runs 0x0913 true c s = true) ∧ ((issuer c = 0 ∨ o = issuer c)) ∧ (o ≤ 64) ∧ (runAllowed .runWarm ((entered 0x0913 c s).fb.own.getD o {}).state = none)) ∧
    (∃ (c : Cmd) (o : Tag) (s : State) (x : Status), (runs 0x0913 true c s = true) ∧ ((issuer c = 0 ∨ o = issuer c)) ∧ (o ≤ 64) ∧ (runAllowed .runWarm ((entered 0x0913 c s).fb.own.getD o {}).state = some x)) ∧
    (∃ (c : Cmd) (o : Tag) (s : State), (runs 0x0913 true c s = true) ∧ ((issuer c = 0 ∨ o = issuer c)) ∧ (o ≤ 64) ∧ (runAllowed .runCold ((entered 0x0913 c s).fb.own.getD o {}).state = none)) ∧
    (∃ (c : Cmd) (o : Tag) (s : State) (x : Status), (runs 0x0913 true c s = true) ∧ ((issuer c = 0 ∨ o = issuer c)) ∧ (o ≤ 64) ∧ (runAllowed .runCold ((entered 0x0913 c s).fb.own.getD o {}).state = some x)) ∧
    (∃ (c : Cmd) (o : Tag) (s : State), (runs 0x0913 true c s = true) ∧ ((issuer c = 0 ∨ o = issuer c)) ∧ (o ≤ 64) ∧ (runAllowed .stop ((entered 0x0913 c s).fb.own.getD o {}).state = none)) ∧
    (∃ (c : Cmd) (o : Tag) (s : State) (x : Status), (runs 0x0913 true c s = true) ∧ ((issuer c = 0 ∨ o = issuer c)) ∧ (o ≤ 64) ∧ (runAllowed .stop ((entered 0x0913 c s).fb.own.getD o {}).state = some x)) :=
  ⟨⟨{}, 47, 1023, 1, (asked 0x0910 ({}) (atCode 0)), (by decide +kernel), (by decide +kernel), (by decide +kernel), (by decide +kernel), (by decide +kernel)⟩,
   ⟨{}, 47, 131072, 1, (asked 0x0910 ({}) (atCode 0)), (by decide +kernel), (by decide +kernel)⟩,
   ⟨{}, 47, 131071, 1, (asked 0x0910 ({}) (fbUp)), (by decide +kernel), (by decide +kernel), (by decide +kernel)⟩,
   ⟨{}, 47, 1023, 1, (asked 0x0910 ({}) (modEng 47 (fun g => { g with domain := .off }) (atCode 0))), (by decide +kernel), (by decide +kernel), (by decide +kernel), (by decide +kernel)⟩,
   ⟨{}, 64, 47, (asked 0x0911 ({}) (fbUp)), (by decide +kernel), (by decide +kernel)⟩,
   ⟨{ ring := .inst 64 0 }, 1, 47, (asked 0x0911 ({ ring := .inst 64 0 }) (imUp)), (by decide +kernel), (by decide +kernel)⟩,
   ⟨{}, 64, (asked 0x0913 ({}) (fbUp)), (by decide +kernel), (by decide +kernel), (by decide +kernel), (by decide +kernel)⟩,
   ⟨{}, 64, (asked 0x0913 ({}) ({ fbUp with fb := { fbUp.fb with own := [(64, { state := .run })] } })), .notReady, (by decide +kernel), (by decide +kernel), (by decide +kernel), (by decide +kernel)⟩,
   ⟨{}, 64, (asked 0x0913 ({}) (fbUp)), (by decide +kernel), (by decide +kernel), (by decide +kernel), (by decide +kernel)⟩,
   ⟨{}, 64, (asked 0x0913 ({}) ({ fbUp with fb := { fbUp.fb with own := [(64, { state := .run })] } })), .notReady, (by decide +kernel), (by decide +kernel), (by decide +kernel), (by decide +kernel)⟩,
   ⟨{}, 64, (asked 0x0913 ({}) ({ fbUp with fb := { fbUp.fb with own := [(64, { state := .run })] } })), (by decide +kernel), (by decide +kernel), (by decide +kernel), (by decide +kernel)⟩,
   ⟨{}, 64, (asked 0x0913 ({}) (fbUp)), .notReady, (by decide +kernel), (by decide +kernel), (by decide +kernel), (by decide +kernel)⟩⟩

theorem wit_CyclesAndFbCommands_part4 :
    (∃ (c : Cmd) (o : Tag) (s : State), (runs 0x0913 true c s = true) ∧ ((issuer c = 0 ∨ o = issuer c)) ∧ (o ≤ 64) ∧ (runAllowed .hold ((entered 0x0913 c s).fb.own.getD o {}).state = none)) ∧
    (∃ (c : Cmd) (o : Tag) (s : State) (x : Status), (runs 0x0913 true c s = true) ∧ ((issuer c = 0 ∨ o = issuer c)) ∧ (o ≤ 64) ∧ (runAllowed .hold ((entered 0x0913 c s).fb.own.getD o {}).state = some x)) ∧
    (∃ (c : Cmd) (o : Tag) (s : State), (runs 0x0913 true c s = true) ∧ (issuer c ≠ 0 ∧ o ≠ issuer c)) ∧
    (∃ (c : Cmd) (o : Tag) (s : State), (runs 0x0913 true c s = true) ∧ ((issuer c = 0 ∨ o = issuer c) ∧ 64 < o)) ∧
    (∃ (c : Cmd) (o : Tag) (t n : Nat) (s : State), (runs 0x0914 true c s = true) ∧ ((issuer c = 0 ∨ o = issuer c)) ∧ (o ≤ 64) ∧ (1 ≤ n ∧ n ≤ 255 ∧ ((entered 0x0914 c s).fb.tasks.get? (o, t)).isSome = true) ∧ (runAllowed (.step t n) ((entered 0x0914 c s).fb.own.getD o {}).state = none)) ∧
    (∃ (c : Cmd) (o : Tag) (t n : Nat) (s : State) (x : Status), (runs 0x0914 true c s = true) ∧ ((issuer c = 0 ∨ o = issuer c)) ∧ (o ≤ 64) ∧ (1 ≤ n ∧ n ≤ 255 ∧ ((entered 0x0914 c s).fb.tasks.get? (o, t)).isSome = true) ∧ (runAllowed (.step t n) ((entered 0x0914 c s).fb.own.getD o {}).state = some x)) ∧
    (∃ (c : Cmd) (o : Tag) (t n : Nat) (s : State), (runs 0x0914 true c s = true) ∧ ((issuer c = 0 ∨ o = issuer c)) ∧ (¬(1 ≤ n ∧ n ≤ 255 ∧ ((entered 0x0914 c s).fb.tasks.get? (o, t)).isSome = true) ∨ 64 < o)) ∧
    (∃ (c : Cmd) (o : Tag) (_t _n : Nat) (s : State), (runs 0x0914 true c s = true) ∧ (issuer c ≠ 0 ∧ o ≠ issuer c)) ∧
    (∃ (c : Cmd) (o : Tag) (s : State), (runs 0x0915 true c s = true) ∧ ((issuer c = 0 ∨ o = issuer c))) ∧
    (∃ (c : Cmd) (o : Tag) (s : State), (runs 0x0915 true c s = true) ∧ (issuer c ≠ 0 ∧ o ≠ issuer c)) :=
  ⟨⟨{}, 64, (asked 0x0913 ({}) ({ fbUp with fb := { fbUp.fb with own := [(64, { state := .run })] } })), (by decide +kernel), (by decide +kernel), (by decide +kernel), (by decide +kernel)⟩,
   ⟨{}, 64, (asked 0x0913 ({}) (fbUp)), .notReady, (by decide +kernel), (by decide +kernel), (by decide +kernel), (by decide +kernel)⟩,
   ⟨{ ring := .inst 64 0 }, 1, (asked 0x0913 ({ ring := .inst 64 0 }) (imUp)), (by decide +kernel), (by decide +kernel)⟩,
   ⟨{}, 65, (asked 0x0913 ({}) (fbUp)), (by decide +kernel), (by decide +kernel)⟩,
   ⟨{}, 0, 255, 1, (asked 0x0914 ({}) (modTask 0 255 id { fbUp with fb := { fbUp.fb with own := [(0, { state := .hold })] } })), (by decide +kernel), (by decide +kernel), (by decide +kernel), (by decide +kernel), (by decide +kernel)⟩,
   ⟨{}, 0, 255, 1, (asked 0x0914 ({}) (modTask 0 255 id { fbUp with fb := { fbUp.fb with own := [(0, { state := .run })] } })), .notReady, (by decide +kernel), (by decide +kernel), (by decide +kernel), (by decide +kernel), (by decide +kernel)⟩,
   ⟨{}, 0, 255, 256, (asked 0x0914 ({}) (modTask 0 255 id { fbUp with fb := { fbUp.fb with own := [(0, { state := .hold })] } })), (by decide +kernel), (by decide +kernel), (by decide +kernel)⟩,
   ⟨{ ring := .inst 64 0 }, 0, 255, 256, (asked 0x0914 ({ ring := .inst 64 0 }) (imUp)), (by decide +kernel), (by decide +kernel)⟩,
   ⟨{}, 64, (asked 0x0915 ({}) (fbUp)), (by decide +kernel), (by decide +kernel)⟩,
   ⟨{ ring := .inst 64 0 }, 1, (asked 0x0915 ({ ring := .inst 64 0 }) (imUp)), (by decide +kernel), (by decide +kernel)⟩⟩

theorem wit_PointsAreWritten_part1 :
    (∃ (s u : State) (b : Batch) (l : List Batch) (w : LT), (s.ps.ready = true) ∧ (s.ps.waiting = b :: l) ∧ (u = offerHeld (onPs (fun x => { x with waiting := l, maxWait := if x.maxWait.toNat < (ltDiff s.now b.arrived).toNat / 65536 then BitVec.ofNat 32 ((ltDiff s.now b.arrived).toNat / 65536) else x.maxWait }) s)) ∧ (b.visible = some w)) ∧
    (∃ (s u : State) (b : Batch) (l : List Batch), (s.ps.ready = true) ∧ (s.ps.waiting = b :: l) ∧ (u = offerHeld (onPs (fun x => { x with waiting := l, maxWait := if x.maxWait.toNat < (ltDiff s.now b.arrived).toNat / 65536 then BitVec.ofNat 32 ((ltDiff s.now b.arrived).toNat / 65536) else x.maxWait }) s)) ∧ (b.visible = none) ∧ (b.release = none)) ∧
    (∃ (s u : State) (b : Batch) (l : List Batch) (g k : Nat) (t : LT), (s.ps.ready = true) ∧ (s.ps.waiting = b :: l) ∧ (u = offerHeld (onPs (fun x => { x with waiting := l, maxWait := if x.maxWait.toNat < (ltDiff s.now b.arrived).toNat / 65536 then BitVec.ofNat 32 ((ltDiff s.now b.arrived).toNat / 65536) else x.maxWait }) s)) ∧ (b.visible = none) ∧ (b.release = some (g, k, t))) ∧
    (∃ (s : State), (s.ps.ready = false ∨ s.ps.waiting = [])) ∧
    (∃ (s : State) (w : PtWrite) (r : PointRec), (writerOk s w.index w.writer = true) ∧ (getPoint s w.index = some r)) ∧
    (∃ (s : State) (w : PtWrite), (writerOk s w.index w.writer = false)) ∧
    (∃ (s : State) (i : Nat) (r : PointRec) (d : PointDef), (getPoint s i = some r) ∧ (s.ps.defs.get? i = some d) ∧ (d.staleAge ≠ 0 ∧ r.flags.getLsbD 5 = false ∧ (msTu d.staleAge : Int) < ltDiff s.now r.lt)) ∧
    (∃ (s : State) (i : Nat), ((∀ r d, getPoint s i = some r → s.ps.defs.get? i = some d → ¬(d.staleAge ≠ 0 ∧ r.flags.getLsbD 5 = false ∧ (msTu d.staleAge : Int) < ltDiff s.now r.lt)))) ∧
    (∃ (s : State) (c : Cmd) (l : List Nat) (_g _f : List (Nat × GuardFind)), (runs 0x0A10 true c s = true) ∧ (l.length ≤ 1024) ∧ ((entered 0x0A10 c s).ps.ready = true) ∧ (l.all (fun i => pointReadable (entered 0x0A10 c s) (issuer c) i) = true)) ∧
    (∃ (s : State) (c : Cmd) (l : List Nat) (_g _f : List (Nat × GuardFind)), (runs 0x0A10 true c s = true) ∧ (1024 < l.length)) ∧
    (∃ (s : State) (c : Cmd) (l : List Nat) (_g _f : List (Nat × GuardFind)), (runs 0x0A10 true c s = true) ∧ (l.length ≤ 1024) ∧ ((entered 0x0A10 c s).ps.ready = false)) ∧
    (∃ (s : State) (c : Cmd) (l : List Nat) (_g _f : List (Nat × GuardFind)), (runs 0x0A10 true c s = true) ∧ (l.length ≤ 1024) ∧ ((entered 0x0A10 c s).ps.ready = true) ∧ (l.all (fun i => pointReadable (entered 0x0A10 c s) (issuer c) i) = false)) :=
  ⟨⟨{ psUp with ps := { psUp.ps with waiting := [{ visible := some 5 }] } }, _, { visible := some 5 }, [], 5, (rfl), (rfl), (rfl), (rfl)⟩,
   ⟨psUp, _, { writes := [{ index := 0, value := 5, writer := .host }] }, [], (rfl), (rfl), (rfl), (rfl), (rfl)⟩,
   ⟨{ psUp with ps := { psUp.ps with waiting := [{ release := some (0, 0, 5) }] } }, _, { release := some (0, 0, 5) }, [], 0, 0, 5, (rfl), (rfl), (rfl), (rfl), (rfl)⟩,
   ⟨up, (by decide)⟩,
   ⟨psUp, { index := 0, value := 0xFFFFFFFF, quality := 0xFFFF, writer := .host }, { owner := 0, type := .int32 }, (by decide), (by decide)⟩,
   ⟨psUp, { index := 1, writer := .host }, (by decide)⟩,
   ⟨psUp, 0, { owner := 0, type := .int32 }, { type := .int32, writer := .host, staleAge := 1 }, (by decide), (by decide), (by decide)⟩,
   ⟨up, 0, (by intro r d h; cases h)⟩,
   ⟨(asked 0x0A10 ({}) (psUp)), {}, [0], [], [], (by decide +kernel), (by decide +kernel), (by decide +kernel), (by decide +kernel)⟩,
   ⟨(asked 0x0A10 ({}) (psUp)), {}, List.replicate 1025 0, [], [], (by decide +kernel), (by decide +kernel)⟩,
   ⟨(asked 0x0A10 ({}) (engines)), {}, [0], [], [], (by decide +kernel), (by decide +kernel), (by decide +kernel)⟩,
   ⟨(asked 0x0A10 ({}) (psUp)), {}, [9], [], [], (by decide +kernel), (by decide +kernel), (by decide +kernel), (by decide +kernel)⟩⟩

theorem wit_PointsAreWritten_part2 :
    (∃ (s : State) (c : Cmd) (l : List (Nat × BitVec 64 × Quality)) (_m : BitVec 64), (runs 0x0A11 true c s = true) ∧ (l.length ≤ 64)) ∧
    (∃ (s : State) (c : Cmd) (l : List (Nat × BitVec 64 × Quality)) (_m : BitVec 64), (runs 0x0A12 true c s = true) ∧ (l.length ≤ 64)) ∧
    (∃ (s : State) (c : Cmd) (l : List Nat) (_m : BitVec 64), (runs 0x0A13 true c s = true) ∧ (l.length ≤ 64)) ∧
    (∃ (s : State) (c : Cmd) (e : Nat × BitVec 64 × Quality) (r : PointRec), (getPoint s e.1 = some r) ∧ ((issuer c = 0 ∨ r.owner = issuer c)) ∧ ((s.ps.force.del e.1).length < 16384) ∧ (((s.ps.force.del e.1).filter (fun f => f.2.setter == issuer c)).length < forceShare s (issuer c))) ∧
    (∃ (s : State) (c : Cmd) (i : Nat), (issuer c = 0 ∨ ((getPoint s i).map (·.owner)).getD 0xFF = issuer c)) ∧
    (∃ (s : State) (c : Cmd), (runs 0x0A14 true c s = true)) ∧
    (∃ (s : State) (c : Cmd), (runs 0x0A14 true c s = true)) :=
  ⟨⟨(asked 0x0A11 ({}) (psUp)), {}, [(0, 5, 0)], 1, (by decide +kernel), (by decide +kernel)⟩,
   ⟨(asked 0x0A12 ({}) (psUp)), {}, [(0, 5, 0)], 1, (by decide +kernel), (by decide +kernel)⟩,
   ⟨(asked 0x0A13 ({}) (psUp)), {}, [1], 1, (by decide +kernel), (by decide +kernel)⟩,
   ⟨psUp, {}, (0, 5, 0), { owner := 0, type := .int32 }, (by decide), (by decide), (by decide), (by decide)⟩,
   ⟨psUp, {}, 1, (by decide)⟩,
   ⟨(asked 0x0A14 ({}) (psUp)), {}, (by decide +kernel)⟩,
   ⟨(asked 0x0A14 ({}) (psUp)), {}, (by decide +kernel)⟩⟩

theorem wit_FailoverMessages_part1 :
    (∃ (s : State), ((nsTu 9990 : Int) ≤ ltDiff s.now s.fo.hbTxAt)) ∧
    (∃ (s : State), (ltDiff s.now s.fo.hbTxAt < (nsTu 9990 : Int))) ∧
    (∃ (s : State) (w : BrxWords) (h : List Byte) (p : List (Vector Byte 36)), (brxHeard 0x01 w s = some (h, p))) ∧
    (∃ (s : State) (w : BrxWords), (brxHeard 0x01 w s = none)) ∧
    (∃ (s : State), ((usTu 45 : Int) ≤ ltDiff s.now s.fo.hbAt) ∧ (s.fo.partner = .present)) ∧
    (∃ (s : State), (ltDiff s.now s.fo.hbAt < (usTu 45 : Int) ∨ s.fo.partner ≠ .present)) ∧
    (∃ (s : State) (w : BrxWords) (h : List Byte) (p : List (Vector Byte 36)), (brxHeard 0x02 w s = some (h, p))) ∧
    (∃ (s : State) (w : BrxWords), (brxHeard 0x02 w s = none)) ∧
    (∃ (s : State) (w : BrxWords) (h : List Byte) (p : List (Vector Byte 36)), (brxHeard 0x03 w s = some (h, p))) ∧
    (∃ (s : State) (w : BrxWords), (brxHeard 0x03 w s = none)) ∧
    (∃ (s : State) (w : BrxWords) (h : List Byte) (p : List (Vector Byte 36)), (brxHeard 0x04 w s = some (h, p))) ∧
    (∃ (s : State) (w : BrxWords), (brxHeard 0x04 w s = none)) :=
  ⟨⟨foUp, (by decide)⟩,
   ⟨up, (by decide)⟩,
   ⟨foUp, (brxHeartbeat { active := true, claim := 0x201 }), _, _, (rfl)⟩,
   ⟨up, (brxHeartbeat { active := true, claim := 0x201 }), (rfl)⟩,
   ⟨foUp, (by decide), (by decide)⟩,
   ⟨up, (by decide)⟩,
   ⟨foUp, (brxRelinquish 5 {}), _, _, (rfl)⟩,
   ⟨up, (brxRelinquish 5 {}), (rfl)⟩,
   ⟨foUp, (brxGooseSt [(255, 1)] {}), _, _, (rfl)⟩,
   ⟨up, (brxGooseSt [(255, 1)] {}), (rfl)⟩,
   ⟨foUp, (brxRepl 0 47 131040 64 (List.replicate 32 1) {}), _, _, (rfl)⟩,
   ⟨up, (brxRepl 0 47 131040 64 (List.replicate 32 1) {}), (rfl)⟩⟩

theorem wit_FailoverMessages_part2 :
    (∃ (s : State) (w : BrxWords) (h : List Byte) (p : List (Vector Byte 36)), (brxHeard 0x05 w s = some (h, p))) ∧
    (∃ (s : State) (w : BrxWords), (brxHeard 0x05 w s = none)) ∧
    (∃ (s : State) (w : BrxWords) (h : List Byte) (p : List (Vector Byte 36)), (brxHeard 0x06 w s = some (h, p))) ∧
    (∃ (s : State) (w : BrxWords), (brxHeard 0x06 w s = none)) ∧
    (∃ (s : State) (b : LT) (cap : List ReplChunk) (l : List (LT × List ReplChunk)), (s.fo.repl.captures = (b, cap) :: l) ∧ (s.fo.state = .active) ∧ (s.fo.repl.sent = false) ∧ (s.fo.linkUp = true)) ∧
    (∃ (s : State), (s.fo.repl.captures = [] ∨ s.fo.state ≠ .active ∨ s.fo.repl.sent = true ∨ s.fo.linkUp = false)) ∧
    (∃ (s : State), (receivesRepl s = true)) ∧
    (∃ (s : State), (receivesRepl s = false)) :=
  ⟨⟨foUp, (brxTasks 0 [(1535, 1)] {}), _, _, (rfl)⟩,
   ⟨up, (brxTasks 0 [(1535, 1)] {}), (rfl)⟩,
   ⟨foUp, (brxReplEnd 0 65535 {}), _, _, (rfl)⟩,
   ⟨up, (brxReplEnd 0 65535 {}), (rfl)⟩,
   ⟨foUp, 0, [{ data := List.replicate 32 0 }], [], (by decide), (by decide), (by decide), (by decide)⟩,
   ⟨up, (by decide)⟩,
   ⟨foAs .standby, (by decide)⟩,
   ⟨foUp, (by decide)⟩⟩

theorem wit_FailoverRoles_part1 :
    (∃ (s : State) (t : LT), (s.fo.discoverAt = some t) ∧ (s.fo.state = .start) ∧ (s.fo.partner ≠ .present) ∧ (ltReached s.now t = true) ∧ (s.fo.eMem ≠ 0xFFFFFF)) ∧
    (∃ (s : State), ((∀ t, s.fo.discoverAt = some t → s.fo.state ≠ .start ∨ s.fo.partner = .present ∨ ltReached s.now t = false ∨ s.fo.eMem = 0xFFFFFF))) ∧
    (∃ (s : State), (s.fo.witnessHeld = true) ∧ (s.fo.state = .standby) ∧ (s.fo.partner = .lost) ∧ (eligible s = true) ∧ (witnessClear s = true)) ∧
    (∃ (s : State), (s.fo.witnessHeld = true) ∧ (s.fo.state = .standby) ∧ (s.fo.partner = .lost) ∧ (eligible s = true) ∧ (witnessClear s = false)) ∧
    (∃ (s : State), (s.fo.witnessHeld = true) ∧ (s.fo.state ≠ .standby ∨ s.fo.partner ≠ .lost ∨ eligible s = false)) ∧
    (∃ (s : State), (s.fo.witnessHeld = false)) ∧
    (∃ (s : State) (t : LT), (s.fo.handoverAt = some t) ∧ (ltReached s.now t = true)) ∧
    (∃ (s : State), ((∀ t, s.fo.handoverAt = some t → ltReached s.now t = false))) ∧
    (∃ (s : State), ((msTu s.fo.cfg.wdogMs : Int) ≤ ltDiff s.now s.fo.wdogAt)) ∧
    (∃ (s : State), (ltDiff s.now s.fo.wdogAt < (msTu s.fo.cfg.wdogMs : Int))) ∧
    (∃ (s : State) (t : Nat), (s.fo.timeSvSince = some t) ∧ (timeSvCond s = true) ∧ (t + msTu s.fo.cfg.tDiagMs ≤ s.abs)) ∧
    (∃ (s : State), ((∀ t, s.fo.timeSvSince = some t → timeSvCond s = false ∨ s.abs < t + msTu s.fo.cfg.tDiagMs))) :=
  ⟨⟨{ up with fo := { up.fo with discoverAt := some 0 } }, 0, (by decide), (by decide), (by decide), (by decide), (by decide)⟩,
   ⟨up, (by intro t h; cases h)⟩,
   ⟨{ foAs .standby with fo := { (foAs .standby).fo with partner := .lost, frozenElig := true } }, (by decide), (by decide), (by decide), (by decide), (by decide)⟩,
   ⟨{ foAs .standby with fo := { (foAs .standby).fo with partner := .lost, frozenElig := true, seg := .replicate 2 { cfg := { en := true }, heard := [(0, 0x20000000000000)] } } }, (by decide +kernel), (by decide +kernel), (by decide +kernel), (by decide +kernel), (by decide +kernel)⟩,
   ⟨foUp, (by decide), (by decide)⟩,
   ⟨up, (by decide)⟩,
   ⟨foUp, 0, (by decide), (by decide)⟩,
   ⟨up, (by intro t h; cases h)⟩,
   ⟨foUp, (by decide)⟩,
   ⟨up, (by decide)⟩,
   ⟨{ up with se := { up.se with group := .replicate 16 { cfg := { mandatory := [0] } } }, tb := { up.tb with everLocked := true, acc := 0x2000000000000000000000 }, fo := { up.fo with timeSvSince := some 0 } }, 0, (by decide +kernel), (by decide +kernel), (by decide +kernel)⟩,
   ⟨up, (by intro t h; cases h)⟩⟩

theorem wit_FailoverRoles_part2 :
    (∃ (s : State), (s.fo.epochRst = true) ∧ ((partnerReset s && claimsForgotten s) = true)) ∧
    (∃ (s : State), (s.fo.epochRst = true) ∧ ((partnerReset s && claimsForgotten s) = false)) ∧
    (∃ (s : State), (s.fo.epochRst = false) ∧ (s.fo.epochClaimDue = true ∧ claimsForgotten s = true ∧ s.fo.state = .standby ∧ (s.fo.partner ≠ .present ∨ s.fo.hb.active = false ∧ (partnerPrio s).toNat < s.fo.cfg.prio.toNat))) ∧
    (∃ (s : State), (s.fo.epochRst = false) ∧ (¬(s.fo.epochClaimDue = true ∧ claimsForgotten s = true ∧ s.fo.state = .standby ∧ (s.fo.partner ≠ .present ∨ s.fo.hb.active = false ∧ (partnerPrio s).toNat < s.fo.cfg.prio.toNat)))) ∧
    (∃ (s : State) (c : Cmd), (runs 0x0E10 false c s = true) ∧ ((entered 0x0E10 c s).fo.state = .active)) ∧
    (∃ (s : State) (c : Cmd), (runs 0x0E10 false c s = true) ∧ ((entered 0x0E10 c s).fo.state ≠ .active)) ∧
    (∃ (s : State) (c : Cmd), (runs 0x0E11 false c s = true) ∧ ((entered 0x0E11 c s).fo.state = .active) ∧ ((entered 0x0E11 c s).fo.partner = .present) ∧ ((entered 0x0E11 c s).fo.hb.eligible = true) ∧ ((entered 0x0E11 c s).fo.hb.diag = 0) ∧ (segBusy (entered 0x0E11 c s) = false)) ∧
    (∃ (s : State) (c : Cmd), (runs 0x0E11 false c s = true) ∧ ((entered 0x0E11 c s).fo.state = .active) ∧ ((entered 0x0E11 c s).fo.partner = .present) ∧ ((entered 0x0E11 c s).fo.hb.eligible = true) ∧ ((entered 0x0E11 c s).fo.hb.diag = 0) ∧ (segBusy (entered 0x0E11 c s) = true)) ∧
    (∃ (s : State) (c : Cmd), (runs 0x0E11 false c s = true) ∧ ((entered 0x0E11 c s).fo.state ≠ .active ∨ (entered 0x0E11 c s).fo.partner ≠ .present ∨ (entered 0x0E11 c s).fo.hb.eligible = false ∨ (entered 0x0E11 c s).fo.hb.diag ≠ 0)) ∧
    (∃ (s : State) (c : Cmd), (runs 0x0E12 false c s = true) ∧ ((entered 0x0E12 c s).fo.state = .relinquished)) ∧
    (∃ (s : State) (c : Cmd), (runs 0x0E12 false c s = true) ∧ ((entered 0x0E12 c s).fo.state ≠ .relinquished)) ∧
    (∃ (s : State) (c : Cmd), (runs 0x0E13 false c s = true) ∧ ((entered 0x0E13 c s).fo.state ≠ .active) ∧ ((entered 0x0E13 c s).fo.partner ≠ .present ∨ (entered 0x0E13 c s).fo.hb.active = false)) :=
  ⟨⟨{ up with fo := { up.fo with epochRst := true } }, (by decide), (by decide)⟩,
   ⟨{ foUp with fo := { foUp.fo with epochRst := true, hb := { claim := 0x201 } } }, (by decide), (by decide)⟩,
   ⟨{ foAs .standby with fo := { (foAs .standby).fo with partner := .lost, epochClaimDue := true } }, (by decide), (by decide)⟩,
   ⟨up, (by decide), (by decide)⟩,
   ⟨(asked 0x0E10 ({}) (foUp)), {}, (by decide +kernel), (by decide +kernel)⟩,
   ⟨(asked 0x0E10 ({}) (foAs .standby)), {}, (by decide +kernel), (by decide +kernel)⟩,
   ⟨(asked 0x0E11 ({}) (foUp)), {}, (by decide +kernel), (by decide +kernel), (by decide +kernel), (by decide +kernel), (by decide +kernel), (by decide +kernel)⟩,
   ⟨(asked 0x0E11 ({}) ({ foUp with fo := { foUp.fo with seg := .replicate 2 { cfg := { en := true }, slotted := true, reason := .startup } } })), {}, (by decide +kernel), (by decide +kernel), (by decide +kernel), (by decide +kernel), (by decide +kernel), (by decide +kernel)⟩,
   ⟨(asked 0x0E11 ({}) (foAs .standby)), {}, (by decide +kernel), (by decide +kernel)⟩,
   ⟨(asked 0x0E12 ({}) (foAs .relinquished)), {}, (by decide +kernel), (by decide +kernel)⟩,
   ⟨(asked 0x0E12 ({}) (foUp)), {}, (by decide +kernel), (by decide +kernel)⟩,
   ⟨(asked 0x0E13 ({}) (foAs .standby)), {}, (by decide +kernel), (by decide +kernel), (by decide +kernel)⟩⟩

theorem wit_FailoverRoles_part3 :
    (∃ (s : State) (c : Cmd), (runs 0x0E13 false c s = true) ∧ ((entered 0x0E13 c s).fo.state = .active ∨ ((entered 0x0E13 c s).fo.partner = .present ∧ (entered 0x0E13 c s).fo.hb.active = true))) ∧
    (∃ (s : State) (c : Cmd), (runs 0x0E14 true c s = true)) :=
  ⟨⟨(asked 0x0E13 ({}) (foUp)), {}, (by decide +kernel), (by decide +kernel)⟩,
   ⟨(asked 0x0E14 ({}) (foUp)), {}, (by decide +kernel)⟩⟩

theorem wit_MetrologyFollowsTheTap_part1 :
    (∃ (s : State) (_f : SvFrame) (bad : Nat) (x : Frame) (r : LT) (g : Tag) (l : List (Frame × LT × Tag)), (s.px.tapLink = (x, r, g) :: l) ∧ (bad ≠ 0)) ∧
    (∃ (s : State) (f : SvFrame) (bad : Nat) (x : Frame) (r : LT) (g : Tag) (l : List (Frame × LT × Tag)) (d : BitVec 48) (a : BitVec 16) (v : Option (BitVec 12)), (s.px.tapLink = (x, r, g) :: l) ∧ (bad = 0) ∧ (miMetering s = true) ∧ (f.formOk = true) ∧ (f.asdus ≠ []) ∧ (f.asdus.length ≤ 8) ∧ (f.key = .l2 d a v)) ∧
    (∃ (s : State) (f : SvFrame) (bad : Nat) (x : Frame) (r : LT) (g : Tag) (l : List (Frame × LT × Tag)), (s.px.tapLink = (x, r, g) :: l) ∧ (bad = 0) ∧ ((miMetering s = false ∨ f.formOk = false ∨ f.asdus = [] ∨ 8 < f.asdus.length ∨ ∀ d a v, f.key ≠ .l2 d a v))) ∧
    (∃ (s : State) (bad : Bool) (r : TimeRec) (g : Tag) (l : List (TimeRec × Tag)), (s.mi.timeLink = (r, g) :: l) ∧ (bad = false) ∧ (s.mi.powered = true)) ∧
    (∃ (s : State) (_bad : Bool) (r : TimeRec) (g : Tag) (l : List (TimeRec × Tag)), (s.mi.timeLink = (r, g) :: l)) ∧
    (∃ (s : State), (s.mi.powered = true) ∧ (s.mi.timeOk = true) ∧ (s.mi.timeAt + secTu 2 ≤ s.abs)) ∧
    (∃ (s : State), (s.mi.powered = false ∨ s.mi.timeOk = false ∨ s.abs < s.mi.timeAt + secTu 2)) ∧
    (∃ (s : State) (p : Fin 8) (i : MiInst) (l : List MiInst), ((getPt s p.val).waiting = i :: l) ∧ (ptOn s p.val = true) ∧ (ltReached s.now (ltAdd i.tFirst (usTu (10 * p16 (miSet s) (pPoint p.val + 2)))) = true)) ∧
    (∃ (s : State) (p : Fin 8), ((∀ i l, (getPt s p.val).waiting = i :: l → ptOn s p.val = false ∨ ltReached s.now (ltAdd i.tFirst (usTu (10 * p16 (miSet s) (pPoint p.val + 2)))) = false))) ∧
    (∃ (s : State) (p : Fin 8) (e : LT), (e = ltAdd (getPt s p.val).zcLast (msTu (10 * pByte (miSet s) (pPoint p.val + 0xD)))) ∧ (ptOn s p.val = true) ∧ (((∃ m, (getPt s p.val).corr.head? = some m ∧ (ltReached m.tag e = true ∨ (((getPt s p.val).tapLost = true ∨ (getPt s p.val).gapFrom.isSome = true) ∧ ltReached s.now e = true))) ∨ ((getPt s p.val).corr.head? = none ∧ ltReached s.now e = true)))) ∧
    (∃ (s : State) (p : Fin 8) (e : LT), (e = ltAdd (getPt s p.val).zcLast (msTu (10 * pByte (miSet s) (pPoint p.val + 0xD)))) ∧ ((ptOn s p.val = false ∨ ¬((∃ m, (getPt s p.val).corr.head? = some m ∧ (ltReached m.tag e = true ∨ (((getPt s p.val).tapLost = true ∨ (getPt s p.val).gapFrom.isSome = true) ∧ ltReached s.now e = true))) ∨ ((getPt s p.val).corr.head? = none ∧ ltReached s.now e = true))))) ∧
    (∃ (s : State) (p : Fin 8), (ptOn s p.val = true) ∧ ((getPt s p.val).tapLost = false) ∧ ((getPt s p.val).lastRx + secTu 1 ≤ s.abs)) :=
  ⟨⟨{ miUp with px := { miUp.px with tapLink := [({}, 0, 0xF0)] } }, {}, 3, {}, 0, 0xF0, [], (by decide), (by decide)⟩,
   ⟨{ miUp with px := { miUp.px with tapLink := [({}, 0, 0xF0)] } }, { asdus := [{}], key := .l2 1 2 none }, 0, {}, 0, 0xF0, [], 1, 2, none, (by decide), (by decide), (by decide), (by decide), (by decide), (by decide), (by decide)⟩,
   ⟨{ miUp with px := { miUp.px with tapLink := [({}, 0, 0xF0)] } }, {}, 0, {}, 0, 0xF0, [], (by decide), (by decide), (by decide)⟩,
   ⟨{ miUp with mi := { miUp.mi with timeLink := [({ taiValid := true }, 0xF0)] } }, false, { taiValid := true }, 0xF0, [], (by decide), (by decide), (by decide)⟩,
   ⟨{ miUp with mi := { miUp.mi with timeLink := [({ taiValid := true }, 0xF0)] } }, true, { taiValid := true }, 0xF0, [], (by decide)⟩,
   ⟨{ miUp with mi := { miUp.mi with timeOk := true } }, (by decide), (by decide), (by decide)⟩,
   ⟨miUp, (by decide)⟩,
   ⟨modPt 0 (fun x => { x with waiting := [{ sec := 0, k := 1, tFirst := 0 }] }) miUp, 0, { sec := 0, k := 1, tFirst := 0 }, [], (by decide), (by decide), (by decide)⟩,
   ⟨miUp, 0, (by intro i l h; cases h)⟩,
   ⟨modPt 0 (fun x => { x with corr := [{ tag := 0x100000000000 }] }) miUp, 0, _, (rfl), (by decide), (by exact .inl ⟨{ tag := 0x100000000000 }, by decide, by decide⟩)⟩,
   ⟨up, 0, _, (rfl), (by exact .inl (by decide))⟩,
   ⟨miUp, 0, (by decide), (by decide), (by decide)⟩⟩

theorem wit_MetrologyFollowsTheTap_part2 :
    (∃ (s : State) (p : Fin 8), (ptOn s p.val = false ∨ (getPt s p.val).tapLost = true ∨ s.abs < (getPt s p.val).lastRx + secTu 1)) ∧
    (∃ (s : State), (s.mi.powered = true)) ∧
    (∃ (s : State), (s.mi.powered = true) ∧ (sealLast s = .sealed)) ∧
    (∃ (s : State), (s.mi.powered = true) ∧ (sealLast s ≠ .sealed)) ∧
    (∃ (s : State), (s.mi.powered = false)) ∧
    (∃ (s : State) (_bad : List Nat) (u : MailUpd) (g : Tag) (l : List (MailUpd × Tag)), (s.mi.mailLink = (u, g) :: l) ∧ (s.pa.power ≠ .running)) ∧
    (∃ (s : State) (bad : List Nat) (u : MailUpd) (g : Tag) (l : List (MailUpd × Tag)), (s.mi.mailLink = (u, g) :: l) ∧ (s.pa.power = .running) ∧ (((List.range (mailWords u)).filter (fun i => bad.contains i)).length ≠ mailWords u)) ∧
    (∃ (s : State) (bad : List Nat) (u : MailUpd) (g : Tag) (l : List (MailUpd × Tag)), (s.mi.mailLink = (u, g) :: l) ∧ (s.pa.power = .running) ∧ (((List.range (mailWords u)).filter (fun i => bad.contains i)).length = mailWords u)) ∧
    (∃ (s : State), (s.mi.mail.alive = true) ∧ (s.mi.mail.aliveAt + secTu 1 ≤ s.abs)) ∧
    (∃ (s : State), (s.mi.mail.alive = false ∨ s.abs < s.mi.mail.aliveAt + secTu 1)) :=
  ⟨⟨up, 0, (by decide)⟩,
   ⟨miUp, (by decide)⟩,
   ⟨{ miUp with mi := { miUp.mi with sealSt := .sealed } }, (by decide), (by decide)⟩,
   ⟨miUp, (by decide), (by decide)⟩,
   ⟨(onMi (fun m => { m with powered := false }) up), (by decide)⟩,
   ⟨{ miUp with pa := { miUp.pa with power := .asleep }, mi := { miUp.mi with mailLink := [(.cleared, 0xF0)] } }, [], .cleared, 0xF0, [], (by decide), (by decide)⟩,
   ⟨{ miUp with mi := { miUp.mi with mailLink := [(.cleared, 0xF0)] } }, [1], .cleared, 0xF0, [], (by decide), (by decide), (by decide)⟩,
   ⟨{ miUp with mi := { miUp.mi with mailLink := [(.cleared, 0xF0)] } }, [0], .cleared, 0xF0, [], (by decide), (by decide), (by decide)⟩,
   ⟨{ miUp with mi := { miUp.mi with mail := { alive := true } } }, (by decide), (by decide)⟩,
   ⟨up, (by decide)⟩⟩

theorem wit_MetrologyServicePort_part1 :
    (∃ (s : State) (f : List Byte), (s.mi.powered = true) ∧ (svcRead f = some (1, []))) ∧
    (∃ (s : State) (f : List Byte) (b : List Byte), (s.mi.powered = true) ∧ (svcRead f = some (1, b)) ∧ (b ≠ [])) ∧
    (∃ (s : State) (f : List Byte), ((s.mi.powered = false ∨ ∀ b, svcRead f ≠ some (1, b)))) ∧
    (∃ (s : State) (f : List Byte) (b : List Byte), (s.mi.powered = true) ∧ (svcRead f = some (2, b)) ∧ (b.length = 4) ∧ (1 ≤ ofBytesBE (b.drop 2)) ∧ (ofBytesBE (b.drop 2) ≤ 8192) ∧ (ofBytesBE (b.take 2) + ofBytesBE (b.drop 2) ≤ (miSet s).length)) ∧
    (∃ (s : State) (f : List Byte) (b : List Byte), (s.mi.powered = true) ∧ (svcRead f = some (2, b)) ∧ (b.length ≠ 4 ∨ ofBytesBE (b.drop 2) = 0 ∨ 8192 < ofBytesBE (b.drop 2) ∨ (miSet s).length < ofBytesBE (b.take 2) + ofBytesBE (b.drop 2))) ∧
    (∃ (s : State) (f : List Byte), ((s.mi.powered = false ∨ ∀ b, svcRead f ≠ some (2, b)))) ∧
    (∃ (s : State) (f : List Byte) (b : List Byte), (s.mi.powered = true) ∧ (svcRead f = some (3, b)) ∧ (sealLast s = .sealed)) ∧
    (∃ (s : State) (f : List Byte) (b : List Byte), (s.mi.powered = true) ∧ (svcRead f = some (3, b)) ∧ (sealLast s ≠ .sealed) ∧ (4096 ≤ s.mi.log.length)) ∧
    (∃ (s : State) (f : List Byte) (l : List Byte), (s.mi.powered = true) ∧ (svcRead f = some (3, 0 :: l)) ∧ (sealLast s ≠ .sealed) ∧ (s.mi.log.length < 4096) ∧ (l.length = 4096)) ∧
    (∃ (s : State) (f : List Byte) (l : List Byte), (s.mi.powered = true) ∧ (svcRead f = some (3, 0 :: l)) ∧ (sealLast s ≠ .sealed) ∧ (s.mi.log.length < 4096) ∧ (l.length ≠ 4096)) ∧
    (∃ (s : State) (f : List Byte) (l k : List Byte) (a : Nat), (s.mi.powered = true) ∧ (svcRead f = some (3, 1 :: l)) ∧ (sealLast s ≠ .sealed) ∧ (s.mi.log.length < 4096) ∧ (s.mi.part0 = some (k, a)) ∧ (a + secTu 10 < s.abs ∨ setOk (k ++ l) = false)) ∧
    (∃ (s : State) (f : List Byte) (b : List Byte), (s.mi.powered = true) ∧ (svcRead f = some (3, b)) ∧ (sealLast s ≠ .sealed) ∧ (s.mi.log.length < 4096) ∧ ((∀ l, b ≠ 0 :: l)) ∧ ((s.mi.part0 = none ∨ ∀ l, b ≠ 1 :: l))) :=
  ⟨⟨miUp, (svcFrame 1 ([])), (by decide), (by exact svcRead_svcFrame _ _ (by simp))⟩,
   ⟨miUp, (svcFrame 1 ([0])), [0], (by decide), (by exact svcRead_svcFrame _ _ (by simp)), (by decide)⟩,
   ⟨(onMi (fun m => { m with powered := false }) up), [], (by left; decide)⟩,
   ⟨miUp, (svcFrame 2 ([0, 0, 0, 1])), [0, 0, 0, 1], (by decide), (by exact svcRead_svcFrame _ _ (by simp)), (by decide), (by decide), (by decide), (by decide)⟩,
   ⟨miUp, (svcFrame 2 ([0, 0, 0, 0])), [0, 0, 0, 0], (by decide), (by exact svcRead_svcFrame _ _ (by simp)), (by decide)⟩,
   ⟨(onMi (fun m => { m with powered := false }) up), [], (by left; decide)⟩,
   ⟨{ miUp with mi := { miUp.mi with sealSt := .sealed } }, (svcFrame 3 ([0])), [0], (by decide), (by exact svcRead_svcFrame _ _ (by simp)), (by decide)⟩,
   ⟨{ miUp with mi := { miUp.mi with log := List.replicate 4096 {} } }, (svcFrame 3 ([0])), [0], (by decide), (by exact svcRead_svcFrame _ _ (by simp)), (by decide), (by simp)⟩,
   ⟨miUp, (svcFrame 3 (0 :: List.replicate 4096 0)), List.replicate 4096 0, (by decide), (by exact svcRead_svcFrame _ _ (by simp)), (by decide), (by decide), (by simp)⟩,
   ⟨miUp, (svcFrame 3 (0 :: [])), [], (by decide), (by exact svcRead_svcFrame _ _ (by simp)), (by decide), (by decide), (by decide)⟩,
   ⟨{ miUp with mi := { miUp.mi with part0 := some ([], 0x20000000000000) } }, (svcFrame 3 (1 :: [])), [], [], 0x20000000000000, (by decide), (by exact svcRead_svcFrame _ _ (by simp)), (by decide), (by decide), (by decide), (by right; decide)⟩,
   ⟨miUp, (svcFrame 3 ([1])), [1], (by decide), (by exact svcRead_svcFrame _ _ (by simp)), (by decide), (by decide), (by intro l h; cases h), (by left; decide)⟩⟩

theorem wit_MetrologyServicePort_part2 :
    (∃ (s : State) (f : List Byte), ((s.mi.powered = false ∨ ∀ b, svcRead f ≠ some (3, b)))) ∧
    (∃ (s : State) (f : List Byte) (l k : List Byte) (a : Nat), (s.mi.powered = true) ∧ (svcRead f = some (3, 1 :: l)) ∧ (sealLast s ≠ .sealed) ∧ (s.mi.log.length < 4096) ∧ (s.mi.part0 = some (k, a)) ∧ (s.abs ≤ a + secTu 10) ∧ (setOk (k ++ l) = true)) ∧
    (∃ (s : State) (f : List Byte) (b : List Byte), (s.mi.powered = true) ∧ (svcRead f = some (4, b)) ∧ (sealLast s = .sealed)) ∧
    (∃ (s : State) (f : List Byte) (b : List Byte), (s.mi.powered = true) ∧ (svcRead f = some (4, b)) ∧ (sealLast s ≠ .sealed) ∧ (b.length ≠ 32 ∨ sealLast s ≠ .unsealed)) ∧
    (∃ (s : State) (f : List Byte) (b : List Byte), (s.mi.powered = true) ∧ (svcRead f = some (4, b)) ∧ (b.length = 32) ∧ (sealLast s = .unsealed) ∧ (s.mi.sealClosed = false)) ∧
    (∃ (s : State) (f : List Byte) (b : List Byte), (s.mi.powered = true) ∧ (svcRead f = some (4, b)) ∧ (b.length = 32) ∧ (sealLast s = .unsealed) ∧ (s.mi.sealClosed = true) ∧ (ofBytesBE b ≠ (miHash s).toNat)) ∧
    (∃ (s : State) (f : List Byte) (b : List Byte), (s.mi.powered = true) ∧ (svcRead f = some (4, b)) ∧ (b.length = 32) ∧ (sealLast s = .unsealed) ∧ (s.mi.sealClosed = true) ∧ (ofBytesBE b = (miHash s).toNat) ∧ (4096 ≤ s.mi.log.length)) ∧
    (∃ (s : State) (f : List Byte) (b : List Byte), (s.mi.powered = true) ∧ (svcRead f = some (4, b)) ∧ (b.length = 32) ∧ (sealLast s = .unsealed) ∧ (s.mi.sealClosed = true) ∧ (ofBytesBE b = (miHash s).toNat) ∧ (s.mi.log.length < 4096)) ∧
    (∃ (s : State) (f : List Byte), ((s.mi.powered = false ∨ ∀ b, svcRead f ≠ some (4, b)))) ∧
    (∃ (s : State) (f : List Byte) (b : List Byte), (s.mi.powered = true) ∧ (svcRead f = some (5, b)) ∧ (sealLast s = .sealed)) ∧
    (∃ (s : State) (f : List Byte) (b : List Byte), (s.mi.powered = true) ∧ (svcRead f = some (5, b)) ∧ (sealLast s ≠ .sealed) ∧ (4096 ≤ s.mi.log.length)) ∧
    (∃ (s : State) (f : List Byte) (b : List Byte), (s.mi.powered = true) ∧ (svcRead f = some (5, b)) ∧ (sealLast s ≠ .sealed) ∧ (s.mi.log.length < 4096) ∧ (b.length ≠ 1 ∨ sealLast s ≠ .unsealed)) :=
  ⟨⟨(onMi (fun m => { m with powered := false }) up), [], (by left; decide)⟩,
   ⟨{ miUp with mi := { miUp.mi with part0 := some ([], 0x20000000000000) } }, (svcFrame 3 (1 :: zeroSet)), zeroSet, [], 0x20000000000000, (by decide), (by exact svcRead_svcFrame _ _ (by simp [zeroSet])), (by decide), (by decide), (by decide), (by decide), (by exact zeroSet_ok)⟩,
   ⟨{ miUp with mi := { miUp.mi with sealSt := .sealed } }, (svcFrame 4 ([0])), [0], (by decide), (by exact svcRead_svcFrame _ _ (by simp)), (by decide)⟩,
   ⟨miUp, (svcFrame 4 ([0])), [0], (by decide), (by exact svcRead_svcFrame _ _ (by simp)), (by decide), (by decide)⟩,
   ⟨{ miUp with mi := { miUp.mi with sealClosed := false } }, (svcFrame 4 (List.replicate 32 0)), List.replicate 32 0, (by decide), (by exact svcRead_svcFrame _ _ (by simp)), (by decide), (by decide), (by decide)⟩,
   ⟨miUp, (svcFrame 4 (bytesBE 32 ((miHash miUp).toNat + 1))), bytesBE 32 ((miHash miUp).toNat + 1), (by decide), (by exact svcRead_svcFrame _ _ (by simp)), (by simp), (by decide), (by decide), (by exact hash_off)⟩,
   ⟨{ miUp with mi := { miUp.mi with log := List.replicate 4096 {} } }, (svcFrame 4 (bytesBE 32 (miHash miUp).toNat)), bytesBE 32 (miHash miUp).toNat, (by decide), (by exact svcRead_svcFrame _ _ (by simp)), (by simp), (by decide), (by decide), (by rw [ofBytesBE_bytesBE]; exact Nat.mod_eq_of_lt (by have := (miHash miUp).isLt; omega)), (by simp)⟩,
   ⟨miUp, (svcFrame 4 (bytesBE 32 (miHash miUp).toNat)), bytesBE 32 (miHash miUp).toNat, (by decide), (by exact svcRead_svcFrame _ _ (by simp)), (by simp), (by decide), (by decide), (by rw [ofBytesBE_bytesBE]; exact Nat.mod_eq_of_lt (by have := (miHash miUp).isLt; omega)), (by decide)⟩,
   ⟨(onMi (fun m => { m with powered := false }) up), [], (by left; decide)⟩,
   ⟨{ miUp with mi := { miUp.mi with sealSt := .sealed } }, (svcFrame 5 ([0])), [0], (by decide), (by exact svcRead_svcFrame _ _ (by simp)), (by decide)⟩,
   ⟨{ miUp with mi := { miUp.mi with log := List.replicate 4096 {} } }, (svcFrame 5 ([0])), [0], (by decide), (by exact svcRead_svcFrame _ _ (by simp)), (by decide), (by simp)⟩,
   ⟨{ miUp with mi := { miUp.mi with sealSt := .blank } }, (svcFrame 5 ([0])), [0], (by decide), (by exact svcRead_svcFrame _ _ (by simp)), (by decide), (by decide), (by decide)⟩⟩

theorem wit_MetrologyServicePort_part3 :
    (∃ (s : State) (f : List Byte) (m : Byte), (s.mi.powered = true) ∧ (svcRead f = some (5, [m])) ∧ (sealLast s = .unsealed) ∧ (s.mi.log.length < 4096)) ∧
    (∃ (s : State) (f : List Byte), ((s.mi.powered = false ∨ ∀ b, svcRead f ≠ some (5, b)))) ∧
    (∃ (s : State) (f : List Byte) (b : List Byte), (s.mi.powered = true) ∧ (svcRead f = some (6, b)) ∧ (sealLast s = .sealed)) ∧
    (∃ (s : State) (f : List Byte) (b : List Byte), (s.mi.powered = true) ∧ (svcRead f = some (6, b)) ∧ (sealLast s ≠ .sealed) ∧ (b ≠ [] ∨ sealLast s ≠ .unsealed)) ∧
    (∃ (s : State) (f : List Byte), (s.mi.powered = true) ∧ (svcRead f = some (6, [])) ∧ (sealLast s = .unsealed)) ∧
    (∃ (s : State) (f : List Byte), ((s.mi.powered = false ∨ ∀ b, svcRead f ≠ some (6, b)))) ∧
    (∃ (s : State) (f : List Byte) (b : List Byte), (s.mi.powered = true) ∧ (svcRead f = some (7, b)) ∧ (b.length = 4) ∧ (1 ≤ ofBytesBE (b.drop 2)) ∧ (ofBytesBE (b.drop 2) ≤ 255) ∧ (ofBytesBE (b.take 2) < s.mi.log.length)) ∧
    (∃ (s : State) (f : List Byte) (b : List Byte), (s.mi.powered = true) ∧ (svcRead f = some (7, b)) ∧ (b.length ≠ 4 ∨ ofBytesBE (b.drop 2) = 0 ∨ 255 < ofBytesBE (b.drop 2) ∨ s.mi.log.length ≤ ofBytesBE (b.take 2))) ∧
    (∃ (s : State) (f : List Byte), ((s.mi.powered = false ∨ ∀ b, svcRead f ≠ some (7, b)))) ∧
    (∃ (s : State) (f : List Byte) (k : BitVec 8) (b : List Byte), (s.mi.powered = true) ∧ (svcRead f = some (k, b)) ∧ (k = 0 ∨ 7 < k.toNat)) ∧
    (∃ (s : State) (f : List Byte), ((s.mi.powered = false ∨ ∀ k b, svcRead f = some (k, b) → 1 ≤ k.toNat ∧ k.toNat ≤ 7))) ∧
    (∃ (s : State) (x : List Byte × Nat), (s.mi.part0 = some x) ∧ (x.2 + secTu 10 ≤ s.abs)) :=
  ⟨⟨miUp, (svcFrame 5 ([255])), 255, (by decide), (by exact svcRead_svcFrame _ _ (by simp)), (by decide), (by decide)⟩,
   ⟨(onMi (fun m => { m with powered := false }) up), [], (by left; decide)⟩,
   ⟨{ miUp with mi := { miUp.mi with sealSt := .sealed } }, (svcFrame 6 ([0])), [0], (by decide), (by exact svcRead_svcFrame _ _ (by simp)), (by decide)⟩,
   ⟨miUp, (svcFrame 6 ([0])), [0], (by decide), (by exact svcRead_svcFrame _ _ (by simp)), (by decide), (by decide)⟩,
   ⟨miUp, (svcFrame 6 ([])), (by decide), (by exact svcRead_svcFrame _ _ (by simp)), (by decide)⟩,
   ⟨(onMi (fun m => { m with powered := false }) up), [], (by left; decide)⟩,
   ⟨{ miUp with mi := { miUp.mi with log := [{}] } }, (svcFrame 7 ([0, 0, 0, 255])), [0, 0, 0, 255], (by decide), (by exact svcRead_svcFrame _ _ (by simp)), (by decide), (by decide), (by decide), (by decide)⟩,
   ⟨miUp, (svcFrame 7 ([0, 0, 1, 0])), [0, 0, 1, 0], (by decide), (by exact svcRead_svcFrame _ _ (by simp)), (by decide)⟩,
   ⟨(onMi (fun m => { m with powered := false }) up), [], (by left; decide)⟩,
   ⟨miUp, (svcFrame 8 [1]), 8, [1], (by decide), (by exact svcRead_svcFrame _ _ (by simp)), (by decide)⟩,
   ⟨(onMi (fun m => { m with powered := false }) up), [], (by left; decide)⟩,
   ⟨{ miUp with mi := { miUp.mi with part0 := some ([], 0) } }, ([], 0), (by decide), (by decide)⟩⟩

theorem wit_MetrologyServicePort_part4 : ∃ (s : State), ((∀ x, s.mi.part0 = some x → s.abs < x.2 + secTu 10)) :=
  ⟨up, (by intro x h; cases h)⟩

theorem wit_KeysEnterTheirSlots_part1 :
    (∃ (c : Cmd) (s : State) (k : KvNew) (_m _a : List Byte) (_v : Option (Nat × List Byte)) (e : Status), (kvRuns 0x0C10 ((k.type.map isPub).getD false) c s = true) ∧ (newKey c k (entered 0x0C10 c s) = .error e)) ∧
    (∃ (c : Cmd) (s : State) (k : KvNew) (m _a : List Byte) (v : Option (Nat × List Byte)) (t : KeyType) (lv : BitVec 3) (d : BitVec 32), (kvRuns 0x0C10 ((k.type.map isPub).getD false) c s = true) ∧ (newKey c k (entered 0x0C10 c s) = .ok (t, lv, d)) ∧ (d.getLsbD 10 = true) ∧ (vouched c m v (entered 0x0C10 c s) = false)) ∧
    (∃ (c : Cmd) (s : State) (k : KvNew) (m a : List Byte) (v : Option (Nat × List Byte)) (t : KeyType) (lv : BitVec 3) (d : BitVec 32), (kvRuns 0x0C10 ((k.type.map isPub).getD false) c s = true) ∧ (newKey c k (entered 0x0C10 c s) = .ok (t, lv, d)) ∧ (d.getLsbD 10 = false ∨ vouched c m v (entered 0x0C10 c s) = true) ∧ ((a ≠ [] ∧ ¬(isAes t = true ∧ a.length = 16)) ∨ keyLenOk t m.length = false)) ∧
    (∃ (c : Cmd) (s : State) (k : KvNew) (m a : List Byte) (v : Option (Nat × List Byte)) (t : KeyType) (lv : BitVec 3) (d : BitVec 32), (kvRuns 0x0C10 ((k.type.map isPub).getD false) c s = true) ∧ (newKey c k (entered 0x0C10 c s) = .ok (t, lv, d)) ∧ (d.getLsbD 10 = false ∨ vouched c m v (entered 0x0C10 c s) = true) ∧ (a = [] ∨ (isAes t = true ∧ a.length = 16)) ∧ (keyLenOk t m.length = true)) ∧
    (∃ (c : Cmd) (s : State) (k : KvNew) (_m _a : List Byte) (_v : Option (Nat × List Byte)), (runs 0x0C10 true c s = true) ∧ (lifeAllows (entered 0x0C10 c s) 0x0C10 ((k.type.map isPub).getD false) = false)) ∧
    (∃ (c : Cmd) (s : State) (_k : KvNew), (kvRuns 0x0C11 false c s = true) ∧ ((entered 0x0C11 c s).kv.trngFail = true)) ∧
    (∃ (c : Cmd) (s : State) (k : KvNew) (e : Status), (kvRuns 0x0C11 false c s = true) ∧ ((entered 0x0C11 c s).kv.trngFail = false) ∧ (newKey c { k with compat := false } (entered 0x0C11 c s) = .error e)) ∧
    (∃ (c : Cmd) (s : State) (k : KvNew) (t : KeyType) (lv : BitVec 3) (d : BitVec 32), (kvRuns 0x0C11 false c s = true) ∧ ((entered 0x0C11 c s).kv.trngFail = false) ∧ (newKey c { k with compat := false } (entered 0x0C11 c s) = .ok (t, lv, d)) ∧ (isPub t = true ∨ keyLenOk t (keyLen t k.len) = false)) ∧
    (∃ (c : Cmd) (s : State) (k : KvNew) (t : KeyType) (lv : BitVec 3) (d : BitVec 32), (kvRuns 0x0C11 false c s = true) ∧ ((entered 0x0C11 c s).kv.trngFail = false) ∧ (newKey c { k with compat := false } (entered 0x0C11 c s) = .ok (t, lv, d)) ∧ (isPriv t = true) ∧ (keyLenOk t (keyLen t k.len) = true) ∧ (hasEngine (entered 0x0C11 c s) (issuer c) .ecc = true)) ∧
    (∃ (c : Cmd) (s : State) (k : KvNew) (t : KeyType) (lv : BitVec 3) (d : BitVec 32), (kvRuns 0x0C11 false c s = true) ∧ ((entered 0x0C11 c s).kv.trngFail = false) ∧ (newKey c { k with compat := false } (entered 0x0C11 c s) = .ok (t, lv, d)) ∧ (isPriv t = true) ∧ (keyLenOk t (keyLen t k.len) = true) ∧ (hasEngine (entered 0x0C11 c s) (issuer c) .ecc = false)) ∧
    (∃ (c : Cmd) (s : State) (k : KvNew) (t : KeyType) (lv : BitVec 3) (d : BitVec 32), (kvRuns 0x0C11 false c s = true) ∧ ((entered 0x0C11 c s).kv.trngFail = false) ∧ (newKey c { k with compat := false } (entered 0x0C11 c s) = .ok (t, lv, d)) ∧ (isPub t = false) ∧ (isPriv t = false) ∧ (keyLenOk t (keyLen t k.len) = true)) ∧
    (∃ (c : Cmd) (s : State) (_k : KvNew), (runs 0x0C11 true c s = true) ∧ (lifeAllows (entered 0x0C11 c s) 0x0C11 false = false)) :=
  ⟨⟨{}, (asked 0x0C10 ({}) (kvUp)), { slot := 1024 }, List.replicate 32 0, [], none, .badParam, (by decide +kernel), (by decide +kernel)⟩,
   ⟨{}, (asked 0x0C10 ({}) ({ kvUp with kv := { kvUp.kv with lcPairs := 3 } })), { slot := 1023, type := some .p256Pub, parent := 0x400, dest := 0x400 }, List.replicate 32 0, [], none, .p256Pub, 1, 0x400, (by decide +kernel), (by decide +kernel), (by decide +kernel), (by decide +kernel)⟩,
   ⟨{}, (asked 0x0C10 ({}) (kvUp)), { slot := 1023, type := some .aes256, parent := 1, dest := 1 }, List.replicate 32 0, [0], none, .aes256, 2, 1, (by decide +kernel), (by decide +kernel), (by decide +kernel), (by decide +kernel)⟩,
   ⟨{}, (asked 0x0C10 ({}) (kvUp)), { slot := 1023, type := some .aes256, parent := 1, dest := 1 }, List.replicate 32 0, [], none, .aes256, 2, 1, (by decide +kernel), (by decide +kernel), (by decide +kernel), (by decide +kernel), (by decide +kernel)⟩,
   ⟨{}, (asked 0x0C10 ({}) ({ kvUp with kv := { kvUp.kv with lcPairs := 0x3F } })), { slot := 1023, type := some .aes256, parent := 1, dest := 1 }, List.replicate 32 0, [], none, (by decide +kernel), (by decide +kernel)⟩,
   ⟨{}, (asked 0x0C11 ({}) ({ kvUp with kv := { kvUp.kv with trngFail := true } })), { slot := 1023, type := some .aes256, parent := 1, dest := 1 }, (by decide +kernel), (by decide +kernel)⟩,
   ⟨{}, (asked 0x0C11 ({}) (kvUp)), { slot := 1024 }, .badParam, (by decide +kernel), (by decide +kernel), (by decide +kernel)⟩,
   ⟨{}, (asked 0x0C11 ({}) (kvUp)), { slot := 1023, type := some .p256Pub, parent := 1, dest := 0x100 }, .p256Pub, 2, 0x100, (by decide +kernel), (by decide +kernel), (by decide +kernel), (by decide +kernel)⟩,
   ⟨{}, (asked 0x0C11 ({}) (kvUp)), { slot := 1023, type := some .p256Priv, parent := 1, dest := 0x80 }, .p256Priv, 2, 0x80, (by decide +kernel), (by decide +kernel), (by decide +kernel), (by decide +kernel), (by decide +kernel), (by decide +kernel)⟩,
   ⟨{ ring := .inst 64 0 }, (asked 0x0C11 ({ ring := .inst 64 0 }) (kvInst)), { slot := 1023, type := some .p256Priv, dest := 0x80 }, .p256Priv, 1, 0x80, (by decide +kernel), (by decide +kernel), (by decide +kernel), (by decide +kernel), (by decide +kernel), (by decide +kernel)⟩,
   ⟨{}, (asked 0x0C11 ({}) (kvUp)), { slot := 1023, type := some .aes256, parent := 1, dest := 1 }, .aes256, 2, 1, (by decide +kernel), (by decide +kernel), (by decide +kernel), (by decide +kernel), (by decide +kernel), (by decide +kernel)⟩,
   ⟨{}, (asked 0x0C11 ({}) ({ kvUp with kv := { kvUp.kv with lcPairs := 0x3F } })), { slot := 1023, type := some .aes256, parent := 1, dest := 1 }, (by decide +kernel), (by decide +kernel)⟩⟩

theorem wit_KeysEnterTheirSlots_part2 :
    (∃ (c : Cmd) (s : State) (k : KvNew) (_q : KvKdf) (e : Status), (kvRuns 0x0C12 false c s = true) ∧ (newKey c { k with compat := false } (entered 0x0C12 c s) = .error e)) ∧
    (∃ (c : Cmd) (s : State) (k : KvNew) (q : KvKdf) (t : KeyType) (lv : BitVec 3) (d : BitVec 32), (kvRuns 0x0C12 false c s = true) ∧ (newKey c { k with compat := false } (entered 0x0C12 c s) = .ok (t, lv, d)) ∧ (isPub t = true ∨ kdfOk q = false)) ∧
    (∃ (c : Cmd) (s : State) (k : KvNew) (q : KvKdf) (t : KeyType) (lv : BitVec 3) (d : BitVec 32) (e : Status), (kvRuns 0x0C12 false c s = true) ∧ (newKey c { k with compat := false } (entered 0x0C12 c s) = .ok (t, lv, d)) ∧ (isPub t = false) ∧ (kdfOk q = true) ∧ (materialParent c k.parent 4 (fun y => isAes y || isMac y) (entered 0x0C12 c s) = .error e)) ∧
    (∃ (c : Cmd) (s : State) (k : KvNew) (q : KvKdf) (t : KeyType) (lv : BitVec 3) (d : BitVec 32) (x : KeySlot), (kvRuns 0x0C12 false c s = true) ∧ (newKey c { k with compat := false } (entered 0x0C12 c s) = .ok (t, lv, d)) ∧ (isPub t = false) ∧ (kdfOk q = true) ∧ (materialParent c k.parent 4 (fun y => isAes y || isMac y) (entered 0x0C12 c s) = .ok x) ∧ (keyLenOk t (keyLen t k.len) = false)) ∧
    (∃ (c : Cmd) (s : State) (k : KvNew) (q : KvKdf) (t : KeyType) (lv : BitVec 3) (d : BitVec 32) (x : KeySlot), (kvRuns 0x0C12 false c s = true) ∧ (newKey c { k with compat := false } (entered 0x0C12 c s) = .ok (t, lv, d)) ∧ (isPub t = false) ∧ (kdfOk q = true) ∧ (materialParent c k.parent 4 (fun y => isAes y || isMac y) (entered 0x0C12 c s) = .ok x) ∧ (keyLenOk t (keyLen t k.len) = true)) ∧
    (∃ (c : Cmd) (s : State) (_k : KvNew) (_q : KvKdf), (runs 0x0C12 true c s = true) ∧ (lifeAllows (entered 0x0C12 c s) 0x0C12 false = false)) ∧
    (∃ (c : Cmd) (s : State) (_k : KvNew) (b : KvBlob), (kvRuns 0x0C13 false c s = true) ∧ (blobType b = none)) ∧
    (∃ (c : Cmd) (s : State) (k : KvNew) (b : KvBlob) (t : KeyType) (e : Status), (kvRuns 0x0C13 false c s = true) ∧ (blobType b = some t) ∧ (newKey c { k with type := some t, keyId := b.keyId } (entered 0x0C13 c s) = .error e)) ∧
    (∃ (c : Cmd) (s : State) (k : KvNew) (b : KvBlob) (t : KeyType) (lv : BitVec 3) (d : BitVec 32), (kvRuns 0x0C13 false c s = true) ∧ (blobType b = some t) ∧ (newKey c { k with type := some t, keyId := b.keyId } (entered 0x0C13 c s) = .ok (t, lv, d)) ∧ (d &&& ~~~b.destLimit ≠ 0)) ∧
    (∃ (c : Cmd) (s : State) (k : KvNew) (b : KvBlob) (t : KeyType) (lv : BitVec 3) (d : BitVec 32) (e : Status), (kvRuns 0x0C13 false c s = true) ∧ (blobType b = some t) ∧ (newKey c { k with type := some t, keyId := b.keyId } (entered 0x0C13 c s) = .ok (t, lv, d)) ∧ (d &&& ~~~b.destLimit = 0) ∧ (materialParent c k.parent 6 (· == .aes256) (entered 0x0C13 c s) = .error e)) ∧
    (∃ (c : Cmd) (s : State) (k : KvNew) (b : KvBlob) (t : KeyType) (lv : BitVec 3) (d : BitVec 32) (x : KeySlot), (kvRuns 0x0C13 false c s = true) ∧ (blobType b = some t) ∧ (newKey c { k with type := some t, keyId := b.keyId } (entered 0x0C13 c s) = .ok (t, lv, d)) ∧ (d &&& ~~~b.destLimit = 0) ∧ (materialParent c k.parent 6 (· == .aes256) (entered 0x0C13 c s) = .ok x) ∧ (gcmOpen x.material b.iv (blobHeader b) b.text b.tag = none)) ∧
    (∃ (c : Cmd) (s : State) (k : KvNew) (b : KvBlob) (t : KeyType) (lv : BitVec 3) (d : BitVec 32) (x : KeySlot) (m : List Byte), (kvRuns 0x0C13 false c s = true) ∧ (blobType b = some t) ∧ (newKey c { k with type := some t, keyId := b.keyId } (entered 0x0C13 c s) = .ok (t, lv, d)) ∧ (d &&& ~~~b.destLimit = 0) ∧ (materialParent c k.parent 6 (· == .aes256) (entered 0x0C13 c s) = .ok x) ∧ (gcmOpen x.material b.iv (blobHeader b) b.text b.tag = some m)) :=
  ⟨⟨{}, (asked 0x0C12 ({}) (kvUp)), { slot := 1024 }, {}, .badParam, (by decide +kernel), (by decide +kernel)⟩,
   ⟨{}, (asked 0x0C12 ({}) (kvUp)), { slot := 1023, type := some .aes256, parent := 1, dest := 1 }, { label := List.replicate 65 0 }, .aes256, 2, 1, (by decide +kernel), (by decide +kernel), (by decide +kernel)⟩,
   ⟨{}, (asked 0x0C12 ({}) (kvUp)), { slot := 1023, type := some .aes256, parent := 2, dest := 1 }, {}, .aes256, 2, 1, .denied, (by decide +kernel), (by decide +kernel), (by decide +kernel), (by decide +kernel), (by decide +kernel)⟩,
   ⟨{}, (asked 0x0C12 ({}) (kvUp)), { slot := 1023, type := some .hmac, parent := 1, dest := 8 }, {}, .hmac, 2, 8, kvAes, (by decide +kernel), (by decide +kernel), (by decide +kernel), (by decide +kernel), (by decide +kernel), (by decide +kernel)⟩,
   ⟨{}, (asked 0x0C12 ({}) (kvUp)), { slot := 1023, type := some .aes256, parent := 1, dest := 1 }, {}, .aes256, 2, 1, kvAes, (by decide +kernel), (by decide +kernel), (by decide +kernel), (by decide +kernel), (by decide +kernel), (by decide +kernel)⟩,
   ⟨{}, (asked 0x0C12 ({}) ({ kvUp with kv := { kvUp.kv with lcPairs := 0x3F } })), { slot := 1023, type := some .aes256, parent := 1, dest := 1 }, {}, (by decide +kernel), (by decide +kernel)⟩,
   ⟨{}, (asked 0x0C13 ({}) (kvUp)), { slot := 1023, type := some .aes256, parent := 1, dest := 1 }, { type := 9 }, (by decide +kernel), (by decide +kernel)⟩,
   ⟨{}, (asked 0x0C13 ({}) (kvUp)), { slot := 1024 }, kvBlob, .aes128, .badParam, (by decide +kernel), (by decide +kernel), (by decide +kernel)⟩,
   ⟨{}, (asked 0x0C13 ({}) (kvUp)), { slot := 1023, parent := 1, dest := 3 }, kvBlob, .aes128, 2, 3, (by decide +kernel), (by decide +kernel), (by decide +kernel), (by decide +kernel)⟩,
   ⟨{}, (asked 0x0C13 ({}) (kvUp)), { slot := 1023, type := some .aes256, parent := 2, dest := 1 }, kvBlob, .aes128, 2, 1, .denied, (by decide +kernel), (by decide +kernel), (by decide +kernel), (by decide +kernel), (by decide +kernel)⟩,
   ⟨{}, (asked 0x0C13 ({}) (kvUp)), { slot := 1023, type := some .aes256, parent := 1, dest := 1 }, { kvBlob with tag := kvBlob.tag + 1 }, .aes128, 2, 1, kvAes, (by decide +kernel), (by decide +kernel), (by decide +kernel), (by decide +kernel), (by decide +kernel), (by exact gcm_bad)⟩,
   ⟨{}, (asked 0x0C13 ({}) (kvUp)), { slot := 1023, type := some .aes256, parent := 1, dest := 1 }, kvBlob, .aes128, 2, 1, kvAes, gcmCrypt (List.replicate 32 0) 0 (List.replicate 16 0), (by decide +kernel), (by decide +kernel), (by decide +kernel), (by decide +kernel), (by decide +kernel), (by unfold gcmOpen; rw [if_pos]; all_goals rfl)⟩⟩

theorem wit_KeysEnterTheirSlots_part3 :
    (∃ (c : Cmd) (s : State) (_k : KvNew) (_b : KvBlob), (runs 0x0C13 true c s = true) ∧ (lifeAllows (entered 0x0C13 c s) 0x0C13 false = false)) ∧
    (∃ (c : Cmd) (s : State) (k : KvNew) (_p : List Byte) (_q : KvKdf) (e : Status), (kvRuns 0x0C14 false c s = true) ∧ (newKey c { k with compat := false } (entered 0x0C14 c s) = .error e)) ∧
    (∃ (c : Cmd) (s : State) (k : KvNew) (_p : List Byte) (q : KvKdf) (t : KeyType) (lv : BitVec 3) (d : BitVec 32), (kvRuns 0x0C14 false c s = true) ∧ (newKey c { k with compat := false } (entered 0x0C14 c s) = .ok (t, lv, d)) ∧ (isPub t = true ∨ kdfOk q = false ∨ keyLenOk t (keyLen t k.len) = false)) ∧
    (∃ (c : Cmd) (s : State) (k : KvNew) (_p : List Byte) (q : KvKdf) (t : KeyType) (lv : BitVec 3) (d : BitVec 32) (e : Status), (kvRuns 0x0C14 false c s = true) ∧ (newKey c { k with compat := false } (entered 0x0C14 c s) = .ok (t, lv, d)) ∧ (isPub t = false) ∧ (kdfOk q = true) ∧ (keyLenOk t (keyLen t k.len) = true) ∧ (materialParent c k.parent 9 isPriv (entered 0x0C14 c s) = .error e)) ∧
    (∃ (c : Cmd) (s : State) (k : KvNew) (p : List Byte) (q : KvKdf) (t : KeyType) (lv : BitVec 3) (d : BitVec 32) (x : KeySlot), (kvRuns 0x0C14 false c s = true) ∧ (newKey c { k with compat := false } (entered 0x0C14 c s) = .ok (t, lv, d)) ∧ (isPub t = false) ∧ (kdfOk q = true) ∧ (keyLenOk t (keyLen t k.len) = true) ∧ (materialParent c k.parent 9 isPriv (entered 0x0C14 c s) = .ok x) ∧ (p.length ≠ (if is384 x.type then 96 else 64))) ∧
    (∃ (c : Cmd) (s : State) (k : KvNew) (p : List Byte) (q : KvKdf) (t : KeyType) (lv : BitVec 3) (d : BitVec 32) (x : KeySlot), (kvRuns 0x0C14 false c s = true) ∧ (newKey c { k with compat := false } (entered 0x0C14 c s) = .ok (t, lv, d)) ∧ (isPub t = false) ∧ (kdfOk q = true) ∧ (keyLenOk t (keyLen t k.len) = true) ∧ (materialParent c k.parent 9 isPriv (entered 0x0C14 c s) = .ok x) ∧ (p.length = (if is384 x.type then 96 else 64)) ∧ (hasEngine (entered 0x0C14 c s) (issuer c) .ecc = true)) ∧
    (∃ (c : Cmd) (s : State) (k : KvNew) (p : List Byte) (q : KvKdf) (t : KeyType) (lv : BitVec 3) (d : BitVec 32) (x : KeySlot), (kvRuns 0x0C14 false c s = true) ∧ (newKey c { k with compat := false } (entered 0x0C14 c s) = .ok (t, lv, d)) ∧ (isPub t = false) ∧ (kdfOk q = true) ∧ (keyLenOk t (keyLen t k.len) = true) ∧ (materialParent c k.parent 9 isPriv (entered 0x0C14 c s) = .ok x) ∧ (p.length = (if is384 x.type then 96 else 64)) ∧ (hasEngine (entered 0x0C14 c s) (issuer c) .ecc = false)) ∧
    (∃ (c : Cmd) (s : State) (_k : KvNew) (_p : List Byte) (_q : KvKdf), (runs 0x0C14 true c s = true) ∧ (lifeAllows (entered 0x0C14 c s) 0x0C14 false = false)) ∧
    (∃ (c : Cmd) (s : State) (n _p : Nat) (e : Status), (kvRuns 0x0C15 false c s = true) ∧ (slotRefusal c n (entered 0x0C15 c s) = some e)) ∧
    (∃ (c : Cmd) (s : State) (n _p : Nat), (kvRuns 0x0C15 false c s = true) ∧ (slotRefusal c n (entered 0x0C15 c s) = none) ∧ ((getSlot (entered 0x0C15 c s) n).state = .empty)) ∧
    (∃ (c : Cmd) (s : State) (n _p : Nat), (kvRuns 0x0C15 false c s = true) ∧ (slotRefusal c n (entered 0x0C15 c s) = none) ∧ ((getSlot (entered 0x0C15 c s) n).state = .revoked ∨ (getSlot (entered 0x0C15 c s) n).state = .corrupt)) ∧
    (∃ (c : Cmd) (s : State) (n _p : Nat), (kvRuns 0x0C15 false c s = true) ∧ (slotRefusal c n (entered 0x0C15 c s) = none) ∧ ((getSlot (entered 0x0C15 c s) n).state = .valid) ∧ ((getSlot (entered 0x0C15 c s) n).exportable = false)) :=
  ⟨⟨{}, (asked 0x0C13 ({}) ({ kvUp with kv := { kvUp.kv with lcPairs := 0x3F } })), { slot := 1023, type := some .aes256, parent := 1, dest := 1 }, kvBlob, (by decide +kernel), (by decide +kernel)⟩,
   ⟨{}, (asked 0x0C14 ({}) (kvUp)), { slot := 1024 }, List.replicate 64 0, {}, .badParam, (by decide +kernel), (by decide +kernel)⟩,
   ⟨{}, (asked 0x0C14 ({}) (kvUp)), { slot := 1023, type := some .aes256, parent := 2, dest := 1 }, List.replicate 64 0, { label := List.replicate 65 0 }, .aes256, 2, 1, (by decide +kernel), (by decide +kernel), (by decide +kernel)⟩,
   ⟨{}, (asked 0x0C14 ({}) (kvUp)), { slot := 1023, type := some .aes256, parent := 1, dest := 1 }, List.replicate 64 0, {}, .aes256, 2, 1, .denied, (by decide +kernel), (by decide +kernel), (by decide +kernel), (by decide +kernel), (by decide +kernel), (by decide +kernel)⟩,
   ⟨{}, (asked 0x0C14 ({}) (kvUp)), { slot := 1023, type := some .aes256, parent := 2, dest := 1 }, [], {}, .aes256, 2, 1, kvPriv, (by decide +kernel), (by decide +kernel), (by decide +kernel), (by decide +kernel), (by decide +kernel), (by decide +kernel), (by decide +kernel)⟩,
   ⟨{}, (asked 0x0C14 ({}) (kvUp)), { slot := 1023, type := some .aes256, parent := 2, dest := 1 }, List.replicate 64 0, {}, .aes256, 2, 1, kvPriv, (by decide +kernel), (by decide +kernel), (by decide +kernel), (by decide +kernel), (by decide +kernel), (by decide +kernel), (by decide +kernel), (by decide +kernel)⟩,
   ⟨{ ring := .inst 64 0 }, (asked 0x0C14 ({ ring := .inst 64 0 }) (kvInst)), { slot := 1023, type := some .aes256, parent := 1020, dest := 1 }, List.replicate 64 0, {}, .aes256, 2, 1, { kvPriv with owner := 64 }, (by decide +kernel), (by decide +kernel), (by decide +kernel), (by decide +kernel), (by decide +kernel), (by decide +kernel), (by decide +kernel), (by decide +kernel)⟩,
   ⟨{}, (asked 0x0C14 ({}) ({ kvUp with kv := { kvUp.kv with lcPairs := 0x3F } })), { slot := 1023, type := some .aes256, parent := 2, dest := 1 }, List.replicate 64 0, {}, (by decide +kernel), (by decide +kernel)⟩,
   ⟨{}, (asked 0x0C15 ({}) (kvUp)), 1024, 1, .badParam, (by decide +kernel), (by decide +kernel)⟩,
   ⟨{}, (asked 0x0C15 ({}) (kvUp)), 9, 1, (by decide +kernel), (by decide +kernel), (by decide +kernel)⟩,
   ⟨{}, (asked 0x0C15 ({}) (kvGone)), 1, 1, (by decide +kernel), (by decide +kernel), (by decide +kernel)⟩,
   ⟨{}, (asked 0x0C15 ({}) (kvUp)), 2, 1, (by decide +kernel), (by decide +kernel), (by decide +kernel), (by decide +kernel)⟩⟩

theorem wit_KeysEnterTheirSlots_part4 :
    (∃ (c : Cmd) (s : State) (n p : Nat) (e : Status), (kvRuns 0x0C15 false c s = true) ∧ (slotRefusal c n (entered 0x0C15 c s) = none) ∧ ((getSlot (entered 0x0C15 c s) n).state = .valid) ∧ ((getSlot (entered 0x0C15 c s) n).exportable = true) ∧ (useRefusal c p 5 (entered 0x0C15 c s) = some e)) ∧
    (∃ (c : Cmd) (s : State) (n p : Nat), (kvRuns 0x0C15 false c s = true) ∧ (slotRefusal c n (entered 0x0C15 c s) = none) ∧ ((getSlot (entered 0x0C15 c s) n).state = .valid) ∧ ((getSlot (entered 0x0C15 c s) n).exportable = true) ∧ (useRefusal c p 5 (entered 0x0C15 c s) = none) ∧ ((getSlot (entered 0x0C15 c s) p).type ≠ .aes256)) ∧
    (∃ (c : Cmd) (s : State) (n p : Nat), (kvRuns 0x0C15 false c s = true) ∧ (slotRefusal c n (entered 0x0C15 c s) = none) ∧ ((getSlot (entered 0x0C15 c s) n).state = .valid) ∧ ((getSlot (entered 0x0C15 c s) n).exportable = true) ∧ (useRefusal c p 5 (entered 0x0C15 c s) = none) ∧ ((getSlot (entered 0x0C15 c s) p).type = .aes256)) ∧
    (∃ (c : Cmd) (s : State) (_n _p : Nat), (runs 0x0C15 true c s = true) ∧ (lifeAllows (entered 0x0C15 c s) 0x0C15 false = false)) ∧
    (∃ (c : Cmd) (s : State) (n : Nat) (e : Status), (kvRuns 0x0C16 false c s = true) ∧ (slotRefusal c n (entered 0x0C16 c s) = some e)) ∧
    (∃ (c : Cmd) (s : State) (n : Nat), (kvRuns 0x0C16 false c s = true) ∧ (slotRefusal c n (entered 0x0C16 c s) = none) ∧ ((getSlot (entered 0x0C16 c s) n).state = .revoked ∨ (getSlot (entered 0x0C16 c s) n).state = .corrupt)) ∧
    (∃ (c : Cmd) (s : State) (n : Nat), (kvRuns 0x0C16 false c s = true) ∧ (slotRefusal c n (entered 0x0C16 c s) = none) ∧ ((getSlot (entered 0x0C16 c s) n).state = .valid ∨ (getSlot (entered 0x0C16 c s) n).state = .empty) ∧ (isPub (getSlot (entered 0x0C16 c s) n).type = true)) ∧
    (∃ (c : Cmd) (s : State) (n : Nat), (kvRuns 0x0C16 false c s = true) ∧ (slotRefusal c n (entered 0x0C16 c s) = none) ∧ ((getSlot (entered 0x0C16 c s) n).state = .valid ∨ (getSlot (entered 0x0C16 c s) n).state = .empty) ∧ (isPriv (getSlot (entered 0x0C16 c s) n).type = true) ∧ (hasEngine (entered 0x0C16 c s) (issuer c) .ecc = true)) ∧
    (∃ (c : Cmd) (s : State) (n : Nat), (kvRuns 0x0C16 false c s = true) ∧ (slotRefusal c n (entered 0x0C16 c s) = none) ∧ ((getSlot (entered 0x0C16 c s) n).state = .valid ∨ (getSlot (entered 0x0C16 c s) n).state = .empty) ∧ (isPriv (getSlot (entered 0x0C16 c s) n).type = true) ∧ (hasEngine (entered 0x0C16 c s) (issuer c) .ecc = false)) ∧
    (∃ (c : Cmd) (s : State) (n : Nat), (kvRuns 0x0C16 false c s = true) ∧ (slotRefusal c n (entered 0x0C16 c s) = none) ∧ ((getSlot (entered 0x0C16 c s) n).state = .valid ∨ (getSlot (entered 0x0C16 c s) n).state = .empty) ∧ (isPub (getSlot (entered 0x0C16 c s) n).type = false) ∧ (isPriv (getSlot (entered 0x0C16 c s) n).type = false)) ∧
    (∃ (c : Cmd) (s : State) (_n : Nat), (runs 0x0C16 true c s = true) ∧ (lifeAllows (entered 0x0C16 c s) 0x0C16 false = false)) ∧
    (∃ (c : Cmd) (s : State) (n : Nat) (_m : BitVec 32) (e : Status), (kvRuns 0x0C17 false c s = true) ∧ (slotRefusal c n (entered 0x0C17 c s) = some e)) :=
  ⟨⟨{}, (asked 0x0C15 ({}) (kvUp)), 1, 2, .denied, (by decide +kernel), (by decide +kernel), (by decide +kernel), (by decide +kernel), (by decide +kernel)⟩,
   ⟨{}, (asked 0x0C15 ({}) (kvGone2)), 1, 5, (by decide +kernel), (by decide +kernel), (by decide +kernel), (by decide +kernel), (by decide +kernel), (by decide +kernel)⟩,
   ⟨{}, (asked 0x0C15 ({}) (kvUp)), 1, 1, (by decide +kernel), (by decide +kernel), (by decide +kernel), (by decide +kernel), (by decide +kernel), (by decide +kernel)⟩,
   ⟨{}, (asked 0x0C15 ({}) ({ kvUp with kv := { kvUp.kv with lcPairs := 0x3F } })), 1, 1, (by decide +kernel), (by decide +kernel)⟩,
   ⟨{}, (asked 0x0C16 ({}) (kvUp)), 1024, .badParam, (by decide +kernel), (by decide +kernel)⟩,
   ⟨{}, (asked 0x0C16 ({}) (kvGone)), 1, (by decide +kernel), (by decide +kernel), (by decide +kernel)⟩,
   ⟨{}, (asked 0x0C16 ({}) (kvUp)), 3, (by decide +kernel), (by decide +kernel), (by decide +kernel), (by decide +kernel)⟩,
   ⟨{}, (asked 0x0C16 ({}) (kvUp)), 2, (by decide +kernel), (by decide +kernel), (by decide +kernel), (by decide +kernel), (by decide +kernel)⟩,
   ⟨{ ring := .inst 64 0 }, (asked 0x0C16 ({ ring := .inst 64 0 }) (kvInst)), 1020, (by decide +kernel), (by decide +kernel), (by decide +kernel), (by decide +kernel), (by decide +kernel)⟩,
   ⟨{}, (asked 0x0C16 ({}) (kvUp)), 9, (by decide +kernel), (by decide +kernel), (by decide +kernel), (by decide +kernel), (by decide +kernel)⟩,
   ⟨{}, (asked 0x0C16 ({}) ({ kvUp with kv := { kvUp.kv with lcPairs := 0x3F } })), 3, (by decide +kernel), (by decide +kernel)⟩,
   ⟨{}, (asked 0x0C17 ({}) (kvUp)), 1024, 1, .badParam, (by decide +kernel), (by decide +kernel)⟩⟩

theorem wit_KeysEnterTheirSlots_part5 :
    (∃ (c : Cmd) (s : State) (n : Nat) (_m : BitVec 32), (kvRuns 0x0C17 false c s = true) ∧ (slotRefusal c n (entered 0x0C17 c s) = none) ∧ ((getSlot (entered 0x0C17 c s) n).state = .empty)) ∧
    (∃ (c : Cmd) (s : State) (n : Nat) (_m : BitVec 32), (kvRuns 0x0C17 false c s = true) ∧ (slotRefusal c n (entered 0x0C17 c s) = none) ∧ ((getSlot (entered 0x0C17 c s) n).state = .revoked ∨ (getSlot (entered 0x0C17 c s) n).state = .corrupt)) ∧
    (∃ (c : Cmd) (s : State) (n : Nat) (_m : BitVec 32), (kvRuns 0x0C17 false c s = true) ∧ (slotRefusal c n (entered 0x0C17 c s) = none) ∧ ((getSlot (entered 0x0C17 c s) n).state = .valid) ∧ (logFull (entered 0x0C17 c s) = true)) ∧
    (∃ (c : Cmd) (s : State) (n : Nat) (m : BitVec 32) (y : KeySlot), (kvRuns 0x0C17 false c s = true) ∧ (slotRefusal c n (entered 0x0C17 c s) = none) ∧ ((getSlot (entered 0x0C17 c s) n).state = .valid) ∧ (logFull (entered 0x0C17 c s) = false) ∧ (y = { (getSlot (entered 0x0C17 c s) n) with dest := (getSlot (entered 0x0C17 c s) n).dest &&& ~~~m, gen := (getSlot (entered 0x0C17 c s) n).gen + 1, curB := !(getSlot (entered 0x0C17 c s) n).curB })) ∧
    (∃ (c : Cmd) (s : State) (_n : Nat) (_m : BitVec 32), (runs 0x0C17 true c s = true) ∧ (lifeAllows (entered 0x0C17 c s) 0x0C17 false = false)) ∧
    (∃ (c : Cmd) (s : State) (_b : Nat) (_m : BitVec 64), (kvRuns 0x0C18 false c s = true)) ∧
    (∃ (c : Cmd) (s : State) (_b : Nat) (_m : BitVec 64), (runs 0x0C18 true c s = true) ∧ (lifeAllows (entered 0x0C18 c s) 0x0C18 false = false)) ∧
    (∃ (c : Cmd) (s : State) (_b : Nat) (_m : BitVec 64), (kvRuns 0x0C19 false c s = true)) ∧
    (∃ (c : Cmd) (s : State) (_b : Nat) (_m : BitVec 64), (runs 0x0C19 true c s = true) ∧ (lifeAllows (entered 0x0C19 c s) 0x0C19 false = false)) ∧
    (∃ (_op : BitVec 16) (c : Cmd) (b n : Nat) (_f : Nat → State → State × Nat) (s : State) (e : Status), (slotRefusal c (b + n) s = some e)) ∧
    (∃ (_op : BitVec 16) (c : Cmd) (b n : Nat) (_f : Nat → State → State × Nat) (s : State), (slotRefusal c (b + n) s = none) ∧ ((getSlot s (b + n)).state = .empty)) ∧
    (∃ (_op : BitVec 16) (c : Cmd) (b n : Nat) (_f : Nat → State → State × Nat) (s : State), (slotRefusal c (b + n) s = none) ∧ ((getSlot s (b + n)).state ≠ .empty) ∧ (logFull s = true)) :=
  ⟨⟨{}, (asked 0x0C17 ({}) (kvUp)), 9, 1, (by decide +kernel), (by decide +kernel), (by decide +kernel)⟩,
   ⟨{}, (asked 0x0C17 ({}) (kvGone)), 1, 1, (by decide +kernel), (by decide +kernel), (by decide +kernel)⟩,
   ⟨{}, (asked 0x0C17 ({}) (kvFull)), 1, 1, (by decide +kernel), (by decide +kernel), (by decide +kernel), (by exact kvFull_full _ _)⟩,
   ⟨{}, (asked 0x0C17 ({}) (kvUp)), 1, 1, _, (by decide +kernel), (by decide +kernel), (by decide +kernel), (by decide +kernel), (rfl)⟩,
   ⟨{}, (asked 0x0C17 ({}) ({ kvUp with kv := { kvUp.kv with lcPairs := 0x3F } })), 1, 1, (by decide +kernel), (by decide +kernel)⟩,
   ⟨{}, (asked 0x0C18 ({}) (kvUp)), 0, 2, (by decide +kernel)⟩,
   ⟨{}, (asked 0x0C18 ({}) ({ kvUp with kv := { kvUp.kv with lcPairs := 0x3F } })), 0, 2, (by decide +kernel), (by decide +kernel)⟩,
   ⟨{}, (asked 0x0C19 ({}) (kvUp)), 0, 2, (by decide +kernel)⟩,
   ⟨{}, (asked 0x0C19 ({}) ({ kvUp with kv := { kvUp.kv with lcPairs := 0x3F } })), 0, 2, (by decide +kernel), (by decide +kernel)⟩,
   ⟨0x0C18, {}, 1023, 1, revokeTree, kvUp, .badParam, (by decide)⟩,
   ⟨0x0C18, {}, 9, 0, revokeTree, kvUp, (by decide), (by decide)⟩,
   ⟨0x0C18, {}, 0, 1, revokeTree, kvFull, (by decide), (by decide), (by exact kvFull_log)⟩⟩

theorem wit_KeysEnterTheirSlots_part6 :
    (∃ (_op : BitVec 16) (c : Cmd) (b n : Nat) (_f : Nat → State → State × Nat) (s : State), (slotRefusal c (b + n) s = none) ∧ ((getSlot s (b + n)).state ≠ .empty) ∧ (logFull s = false)) ∧
    (∃ (c : Cmd) (s : State) (n : Nat) (e : Status), (kvRuns 0x0C1A false c s = true) ∧ (slotRefusal c n (entered 0x0C1A c s) = some e)) ∧
    (∃ (c : Cmd) (s : State) (n : Nat), (kvRuns 0x0C1A false c s = true) ∧ (slotRefusal c n (entered 0x0C1A c s) = none)) ∧
    (∃ (c : Cmd) (s : State) (_n : Nat), (runs 0x0C1A true c s = true) ∧ (lifeAllows (entered 0x0C1A c s) 0x0C1A false = false)) :=
  ⟨⟨0x0C18, {}, 0, 1, revokeTree, kvUp, (by decide), (by decide), (by decide)⟩,
   ⟨{}, (asked 0x0C1A ({}) (kvUp)), 1024, .badParam, (by decide +kernel), (by decide +kernel)⟩,
   ⟨{}, (asked 0x0C1A ({}) (kvUp)), 1023, (by decide +kernel), (by decide +kernel)⟩,
   ⟨{}, (asked 0x0C1A ({}) ({ kvUp with kv := { kvUp.kv with lcPairs := 0x3F } })), 1023, (by decide +kernel), (by decide +kernel)⟩⟩

theorem wit_KeysAreUsed_part1 :
    (∃ (c : Cmd) (s : State) (q : KvGcm), (kvRuns 0x0C20 false c s = true) ∧ (65535 < q.aad.length ∨ 16777216 < q.text.length)) ∧
    (∃ (c : Cmd) (s : State) (q : KvGcm) (e : Status), (kvRuns 0x0C20 false c s = true) ∧ (q.aad.length ≤ 65535) ∧ (q.text.length ≤ 16777216) ∧ (useRefusal c q.slot (if q.seals then 0 else 1) (entered 0x0C20 c s) = some e)) ∧
    (∃ (c : Cmd) (s : State) (q : KvGcm), (kvRuns 0x0C20 false c s = true) ∧ (q.aad.length ≤ 65535) ∧ (q.text.length ≤ 16777216) ∧ (useRefusal c q.slot (if q.seals then 0 else 1) (entered 0x0C20 c s) = none) ∧ (gcmEngines (entered 0x0C20 c s) (issuer c) = [])) ∧
    (∃ (c : Cmd) (s : State) (q : KvGcm), (kvRuns 0x0C20 false c s = true) ∧ (q.aad.length ≤ 65535) ∧ (q.text.length ≤ 16777216) ∧ (useRefusal c q.slot (if q.seals then 0 else 1) (entered 0x0C20 c s) = none) ∧ (gcmEngines (entered 0x0C20 c s) (issuer c) ≠ [])) ∧
    (∃ (c : Cmd) (s : State) (_q : KvGcm), (runs 0x0C20 true c s = true) ∧ (lifeAllows (entered 0x0C20 c s) 0x0C20 false = false)) ∧
    (∃ (c : Cmd) (s : State) (_n : Nat) (_b : Bool) (_v : Option (List Byte)) (m : List Byte), (kvRuns 0x0C21 false c s = true) ∧ (16777216 < m.length)) ∧
    (∃ (c : Cmd) (s : State) (n : Nat) (_b : Bool) (_v : Option (List Byte)) (m : List Byte) (e : Status), (kvRuns 0x0C21 false c s = true) ∧ (m.length ≤ 16777216) ∧ (useRefusal c n 3 (entered 0x0C21 c s) = some e)) ∧
    (∃ (c : Cmd) (s : State) (n : Nat) (_b : Bool) (_v : Option (List Byte)) (m : List Byte), (kvRuns 0x0C21 false c s = true) ∧ (m.length ≤ 16777216) ∧ (useRefusal c n 3 (entered 0x0C21 c s) = none) ∧ (hasEngine (entered 0x0C21 c s) (issuer c) .hmac = true)) ∧
    (∃ (c : Cmd) (s : State) (n : Nat) (_b : Bool) (_v : Option (List Byte)) (m : List Byte), (kvRuns 0x0C21 false c s = true) ∧ (m.length ≤ 16777216) ∧ (useRefusal c n 3 (entered 0x0C21 c s) = none) ∧ (hasEngine (entered 0x0C21 c s) (issuer c) .hmac = false)) ∧
    (∃ (c : Cmd) (s : State) (_n : Nat) (_b : Bool) (_v : Option (List Byte)) (_m : List Byte), (runs 0x0C21 true c s = true) ∧ (lifeAllows (entered 0x0C21 c s) 0x0C21 false = false)) ∧
    (∃ (c : Cmd) (s : State) (_b : Bool) (m : List Byte), (kvRuns 0x0C22 false c s = true) ∧ (16777216 < m.length)) ∧
    (∃ (c : Cmd) (s : State) (_b : Bool) (m : List Byte), (kvRuns 0x0C22 false c s = true) ∧ (m.length ≤ 16777216) ∧ (hasEngine (entered 0x0C22 c s) (issuer c) .hmac = true)) :=
  ⟨⟨{}, (asked 0x0C20 ({}) (kvUp)), { aad := List.replicate 65536 0 }, (by decide +kernel), (by left; show 65535 < (List.replicate 65536 (0 : Byte)).length; rw [List.length_replicate]; decide)⟩,
   ⟨{}, (asked 0x0C20 ({}) (kvUp)), { slot := 2 }, .denied, (by decide +kernel), (by decide +kernel), (by decide +kernel), (by decide +kernel)⟩,
   ⟨{ ring := .inst 64 0 }, (asked 0x0C20 ({ ring := .inst 64 0 }) (kvInst)), { slot := 1021 }, (by decide +kernel), (by decide +kernel), (by decide +kernel), (by decide +kernel), (by decide +kernel)⟩,
   ⟨{}, (asked 0x0C20 ({}) (kvUp)), { slot := 1 }, (by decide +kernel), (by decide +kernel), (by decide +kernel), (by decide +kernel), (by decide +kernel)⟩,
   ⟨{}, (asked 0x0C20 ({}) ({ kvUp with kv := { kvUp.kv with lcPairs := 0x3F } })), { slot := 1 }, (by decide +kernel), (by decide +kernel)⟩,
   ⟨{}, (asked 0x0C21 ({}) (kvUp)), 4, true, none, List.replicate 16777217 0, (by decide +kernel), (by rw [List.length_replicate]; decide)⟩,
   ⟨{}, (asked 0x0C21 ({}) (kvUp)), 1, true, none, [], .denied, (by decide +kernel), (by decide +kernel), (by decide +kernel)⟩,
   ⟨{}, (asked 0x0C21 ({}) (kvUp)), 4, true, none, [], (by decide +kernel), (by decide +kernel), (by decide +kernel), (by decide +kernel)⟩,
   ⟨{ ring := .inst 64 0 }, (asked 0x0C21 ({ ring := .inst 64 0 }) (kvInst)), 1022, true, none, [], (by decide +kernel), (by decide +kernel), (by decide +kernel), (by decide +kernel)⟩,
   ⟨{}, (asked 0x0C21 ({}) ({ kvUp with kv := { kvUp.kv with lcPairs := 0x3F } })), 4, true, none, [], (by decide +kernel), (by decide +kernel)⟩,
   ⟨{}, (asked 0x0C22 ({}) (kvUp)), true, List.replicate 16777217 0, (by decide +kernel), (by rw [List.length_replicate]; decide)⟩,
   ⟨{}, (asked 0x0C22 ({}) (kvUp)), true, [], (by decide +kernel), (by decide +kernel), (by decide +kernel)⟩⟩

theorem wit_KeysAreUsed_part2 :
    (∃ (c : Cmd) (s : State) (_b : Bool) (m : List Byte), (kvRuns 0x0C22 false c s = true) ∧ (m.length ≤ 16777216) ∧ (hasEngine (entered 0x0C22 c s) (issuer c) .hmac = false)) ∧
    (∃ (c : Cmd) (s : State) (_b : Bool) (_m : List Byte), (runs 0x0C22 true c s = true) ∧ (lifeAllows (entered 0x0C22 c s) 0x0C22 false = false)) ∧
    (∃ (c : Cmd) (s : State) (_n : Nat) (_h : Bool) (_m : List Byte), (kvRuns 0x0C23 false c s = true) ∧ ((entered 0x0C23 c s).kv.trngFail = true)) ∧
    (∃ (c : Cmd) (s : State) (n : Nat) (_h : Bool) (_m : List Byte) (e : Status), (kvRuns 0x0C23 false c s = true) ∧ ((entered 0x0C23 c s).kv.trngFail = false) ∧ (useRefusal c n 7 (entered 0x0C23 c s) = some e)) ∧
    (∃ (c : Cmd) (s : State) (n : Nat) (h : Bool) (m : List Byte), (kvRuns 0x0C23 false c s = true) ∧ ((entered 0x0C23 c s).kv.trngFail = false) ∧ (useRefusal c n 7 (entered 0x0C23 c s) = none) ∧ (ecDataOk (is384 (getSlot (entered 0x0C23 c s) n).type) h m = false)) ∧
    (∃ (c : Cmd) (s : State) (n : Nat) (h : Bool) (m : List Byte), (kvRuns 0x0C23 false c s = true) ∧ ((entered 0x0C23 c s).kv.trngFail = false) ∧ (useRefusal c n 7 (entered 0x0C23 c s) = none) ∧ (ecDataOk (is384 (getSlot (entered 0x0C23 c s) n).type) h m = true) ∧ (hasEngine (entered 0x0C23 c s) (issuer c) .ecc = true ∧ (h = true ∨ hasEngine (entered 0x0C23 c s) (issuer c) .hmac = true))) ∧
    (∃ (c : Cmd) (s : State) (n : Nat) (h : Bool) (m : List Byte), (kvRuns 0x0C23 false c s = true) ∧ ((entered 0x0C23 c s).kv.trngFail = false) ∧ (useRefusal c n 7 (entered 0x0C23 c s) = none) ∧ (ecDataOk (is384 (getSlot (entered 0x0C23 c s) n).type) h m = true) ∧ (¬(hasEngine (entered 0x0C23 c s) (issuer c) .ecc = true ∧ (h = true ∨ hasEngine (entered 0x0C23 c s) (issuer c) .hmac = true)))) ∧
    (∃ (c : Cmd) (s : State) (_n : Nat) (_h : Bool) (_m : List Byte), (runs 0x0C23 true c s = true) ∧ (lifeAllows (entered 0x0C23 c s) 0x0C23 false = false)) ∧
    (∃ (c : Cmd) (s : State) (n : Nat) (_h : Bool) (_m : List Byte) (_g : List Byte) (e : Status), (kvRuns 0x0C24 false c s = true) ∧ (useRefusal c n 8 (entered 0x0C24 c s) = some e)) ∧
    (∃ (c : Cmd) (s : State) (n : Nat) (h : Bool) (m : List Byte) (g : List Byte), (kvRuns 0x0C24 false c s = true) ∧ (useRefusal c n 8 (entered 0x0C24 c s) = none) ∧ (ecDataOk (is384 (getSlot (entered 0x0C24 c s) n).type) h m = false ∨ g.length ≠ (if (is384 (getSlot (entered 0x0C24 c s) n).type) then 96 else 64))) ∧
    (∃ (c : Cmd) (s : State) (n : Nat) (h : Bool) (m : List Byte) (g : List Byte), (kvRuns 0x0C24 false c s = true) ∧ (useRefusal c n 8 (entered 0x0C24 c s) = none) ∧ (ecDataOk (is384 (getSlot (entered 0x0C24 c s) n).type) h m = true) ∧ (g.length = (if (is384 (getSlot (entered 0x0C24 c s) n).type) then 96 else 64)) ∧ (hasEngine (entered 0x0C24 c s) (issuer c) .ecc = true ∧ (h = true ∨ hasEngine (entered 0x0C24 c s) (issuer c) .hmac = true))) ∧
    (∃ (c : Cmd) (s : State) (n : Nat) (h : Bool) (m : List Byte) (g : List Byte), (kvRuns 0x0C24 false c s = true) ∧ (useRefusal c n 8 (entered 0x0C24 c s) = none) ∧ (ecDataOk (is384 (getSlot (entered 0x0C24 c s) n).type) h m = true) ∧ (g.length = (if (is384 (getSlot (entered 0x0C24 c s) n).type) then 96 else 64)) ∧ (¬(hasEngine (entered 0x0C24 c s) (issuer c) .ecc = true ∧ (h = true ∨ hasEngine (entered 0x0C24 c s) (issuer c) .hmac = true)))) :=
  ⟨⟨{ ring := .inst 64 0 }, (asked 0x0C22 ({ ring := .inst 64 0 }) (kvInst)), true, [], (by decide +kernel), (by decide +kernel), (by decide +kernel)⟩,
   ⟨{}, (asked 0x0C22 ({}) ({ kvUp with kv := { kvUp.kv with lcPairs := 0x3F } })), true, [], (by decide +kernel), (by decide +kernel)⟩,
   ⟨{}, (asked 0x0C23 ({}) ({ kvUp with kv := { kvUp.kv with trngFail := true } })), 2, false, [], (by decide +kernel), (by decide +kernel)⟩,
   ⟨{}, (asked 0x0C23 ({}) (kvUp)), 1, false, [], .denied, (by decide +kernel), (by decide +kernel), (by decide +kernel)⟩,
   ⟨{}, (asked 0x0C23 ({}) (kvUp)), 2, true, [], (by decide +kernel), (by decide +kernel), (by decide +kernel), (by decide +kernel)⟩,
   ⟨{}, (asked 0x0C23 ({}) (kvUp)), 2, false, [], (by decide +kernel), (by decide +kernel), (by decide +kernel), (by decide +kernel), (by decide +kernel)⟩,
   ⟨{ ring := .inst 64 0 }, (asked 0x0C23 ({ ring := .inst 64 0 }) (kvInst)), 1020, false, [], (by decide +kernel), (by decide +kernel), (by decide +kernel), (by decide +kernel), (by decide +kernel)⟩,
   ⟨{}, (asked 0x0C23 ({}) ({ kvUp with kv := { kvUp.kv with lcPairs := 0x3F } })), 2, false, [], (by decide +kernel), (by decide +kernel)⟩,
   ⟨{}, (asked 0x0C24 ({}) (kvUp)), 1, true, List.replicate 32 0, List.replicate 64 0, .denied, (by decide +kernel), (by decide +kernel)⟩,
   ⟨{}, (asked 0x0C24 ({}) (kvUp)), 3, true, List.replicate 32 0, [], (by decide +kernel), (by decide +kernel), (by decide +kernel)⟩,
   ⟨{}, (asked 0x0C24 ({}) (kvUp)), 3, true, List.replicate 32 0, List.replicate 64 0, (by decide +kernel), (by decide +kernel), (by decide +kernel), (by decide +kernel), (by decide +kernel)⟩,
   ⟨{ ring := .inst 64 0 }, (asked 0x0C24 ({ ring := .inst 64 0 }) (kvInst)), 1019, true, List.replicate 32 0, List.replicate 64 0, (by decide +kernel), (by decide +kernel), (by decide +kernel), (by decide +kernel), (by decide +kernel)⟩⟩

theorem wit_KeysAreUsed_part3 :
    (∃ (c : Cmd) (s : State) (_n : Nat) (_h : Bool) (_m : List Byte) (_g : List Byte), (runs 0x0C24 true c s = true) ∧ (lifeAllows (entered 0x0C24 c s) 0x0C24 false = false)) ∧
    (∃ (c : Cmd) (s : State) (n : Nat), (kvRuns 0x0C25 false c s = true) ∧ (n = 0 ∨ 4096 < n)) ∧
    (∃ (c : Cmd) (s : State) (n : Nat), (kvRuns 0x0C25 false c s = true) ∧ (1 ≤ n) ∧ (n ≤ 4096) ∧ ((entered 0x0C25 c s).kv.trngFail = true)) ∧
    (∃ (c : Cmd) (s : State) (n : Nat), (kvRuns 0x0C25 false c s = true) ∧ (1 ≤ n) ∧ (n ≤ 4096) ∧ ((entered 0x0C25 c s).kv.trngFail = false)) ∧
    (∃ (c : Cmd) (s : State) (_n : Nat), (runs 0x0C25 true c s = true) ∧ (lifeAllows (entered 0x0C25 c s) 0x0C25 false = false)) ∧
    (∃ (s : State), (s.kv.ready = true)) ∧
    (∃ (s : State), (s.kv.ready = false)) ∧
    (∃ (c : Cmd) (s : State) (n : Nat) (a : List Byte), (runs 0x0C30 false c s = true) ∧ (lifeMove (entered 0x0C30 c s) n a = false)) ∧
    (∃ (c : Cmd) (s : State) (n : Nat) (a : List Byte), (runs 0x0C30 false c s = true) ∧ (lifeMove (entered 0x0C30 c s) n a = true) ∧ (logFull (entered 0x0C30 c s) = true)) ∧
    (∃ (c : Cmd) (s : State) (n : Nat) (a : List Byte), (runs 0x0C30 false c s = true) ∧ (lifeMove (entered 0x0C30 c s) n a = true) ∧ (logFull (entered 0x0C30 c s) = false)) ∧
    (∃ (c : Cmd) (s : State), (runs 0x0C31 false c s = true) ∧ ((entered 0x0C31 c s).kv.otherSvn < (entered 0x0C31 c s).kv.svn.toNat)) ∧
    (∃ (c : Cmd) (s : State), (runs 0x0C31 false c s = true) ∧ ((entered 0x0C31 c s).kv.svn.toNat ≤ (entered 0x0C31 c s).kv.otherSvn) ∧ (logFull (entered 0x0C31 c s) = true)) :=
  ⟨⟨{}, (asked 0x0C24 ({}) ({ kvUp with kv := { kvUp.kv with lcPairs := 0x3F } })), 3, true, List.replicate 32 0, List.replicate 64 0, (by decide +kernel), (by decide +kernel)⟩,
   ⟨{}, (asked 0x0C25 ({}) (kvUp)), 4097, (by decide +kernel), (by decide +kernel)⟩,
   ⟨{}, (asked 0x0C25 ({}) ({ kvUp with kv := { kvUp.kv with trngFail := true } })), 4096, (by decide +kernel), (by decide +kernel), (by decide +kernel), (by decide +kernel)⟩,
   ⟨{}, (asked 0x0C25 ({}) (kvUp)), 4096, (by decide +kernel), (by decide +kernel), (by decide +kernel), (by decide +kernel)⟩,
   ⟨{}, (asked 0x0C25 ({}) ({ kvUp with kv := { kvUp.kv with lcPairs := 0x3F } })), 4096, (by decide +kernel), (by decide +kernel)⟩,
   ⟨kvUp, (by decide)⟩,
   ⟨up, (by decide)⟩,
   ⟨{}, (asked 0x0C30 ({}) (kvUp)), 3, [], (by decide +kernel), (by decide +kernel)⟩,
   ⟨{}, (asked 0x0C30 ({}) (kvFull)), 4, [], (by decide +kernel), (by decide +kernel), (by exact kvFull_full _ _)⟩,
   ⟨{}, (asked 0x0C30 ({}) (kvUp)), 4, [], (by decide +kernel), (by decide +kernel), (by decide +kernel)⟩,
   ⟨{}, (asked 0x0C31 ({}) ({ kvUp with kv := { kvUp.kv with svn := 1, otherSvn := 0 } })), (by decide +kernel), (by decide +kernel)⟩,
   ⟨{}, (asked 0x0C31 ({}) (kvFull)), (by decide +kernel), (by decide +kernel), (by exact kvFull_full _ _)⟩⟩

theorem wit_KeysAreUsed_part4 :
    (∃ (c : Cmd) (s : State), (runs 0x0C31 false c s = true) ∧ ((entered 0x0C31 c s).kv.svn.toNat ≤ (entered 0x0C31 c s).kv.otherSvn) ∧ (logFull (entered 0x0C31 c s) = false)) ∧
    (∃ (s : State) (e : KvEngine) (r : KvReq), (s.kv.ready = true) ∧ (pdOn s 7 = true) ∧ (shareSlot e (s.kv.enginePos.getD e 0) = true) ∧ (s.kv.reqs.find? (fun r => r.owner == engineOwner s e (s.kv.enginePos.getD e 0) && (r.stages.head?.map (·.1)) == some e && ringTurn s.kv.reqs r) = some r)) ∧
    (∃ (s : State) (e : KvEngine), (s.kv.ready = true) ∧ (pdOn s 7 = true) ∧ (shareSlot e (s.kv.enginePos.getD e 0) = false ∨ s.kv.reqs.find? (fun r => r.owner == engineOwner s e (s.kv.enginePos.getD e 0) && (r.stages.head?.map (·.1)) == some e && ringTurn s.kv.reqs r) = none)) ∧
    (∃ (s : State) (_e : KvEngine), (s.kv.ready = false ∨ pdOn s 7 = false)) :=
  ⟨⟨{}, (asked 0x0C31 ({}) (kvUp)), (by decide +kernel), (by decide +kernel), (by decide +kernel)⟩,
   ⟨{ kvUp with kv := { kvUp.kv with reqs := [{ stages := [(.hmac, 1)] }], enginePos := [(.hmac, 31)] } }, .hmac, { stages := [(.hmac, 1)] }, (by decide), (by decide), (by decide), (by decide)⟩,
   ⟨kvUp, .ecc, (by decide +kernel), (by decide +kernel), (by decide +kernel)⟩,
   ⟨up, .ecc, (by decide)⟩⟩

theorem wit_InstancesAreCommanded_part1 :
    (∃ (c : Cmd) (s : State) (m : BitVec 64), (runs 0x0D10 false c s = true) ∧ (resettable m (entered 0x0D10 c s) ≠ [])) ∧
    (∃ (c : Cmd) (s : State) (m : BitVec 64), (runs 0x0D10 false c s = true) ∧ (resettable m (entered 0x0D10 c s) = [])) ∧
    (∃ (s : State) (n : Nat), (instState s (n + 1) = .active ∨ instState s (n + 1) = .frozen)) ∧
    (∃ (s : State) (n : Nat), (instState s (n + 1) = .absent)) ∧
    (∃ (s : State) (n : Nat), (instState s (n + 1) = .resetting)) ∧
    (∃ (s : State) (i : Nat), (instState s i = .resetting) ∧ ((getInst s i).dmaOld = 0 ∨ (getInst s i).resetAt + usTu 150 ≤ s.abs)) ∧
    (∃ (s : State) (i : Nat), (instState s i ≠ .resetting ∨ ((getInst s i).dmaOld ≠ 0 ∧ s.abs < (getInst s i).resetAt + usTu 150))) ∧
    (∃ (s : State) (i : Nat) (e : BitVec 16), (e ≠ (getInst s i).epoch)) ∧
    (∃ (s : State) (i : Nat), (s.glob.ready = true) ∧ (instState s i ≠ .absent)) ∧
    (∃ (s : State) (i : Nat) (v : BitVec 32), (s.glob.ready = false ∨ instState s i = .absent ∨ v ≠ 0x52535400)) ∧
    (∃ (c : Cmd) (s : State) (i : Nat), (runs 0x0D12 false c s = true) ∧ (i < 1 ∨ 64 < i)) ∧
    (∃ (c : Cmd) (s : State) (i : Nat), (runs 0x0D12 false c s = true) ∧ (1 ≤ i) ∧ (i ≤ 64) ∧ (instState (entered 0x0D12 c s) i ≠ .active ∨ freezable (entered 0x0D12 c s) i = false)) :=
  ⟨⟨{}, (asked 0x0D10 ({}) (imUp)), 0x8000000000000000, (by decide +kernel), (by decide +kernel)⟩,
   ⟨{}, (asked 0x0D10 ({}) (imUp)), 1, (by decide +kernel), (by decide +kernel)⟩,
   ⟨imUp, 63, (by decide)⟩,
   ⟨imUp, 0, (by decide)⟩,
   ⟨imAs .resetting, 63, (by decide)⟩,
   ⟨imAs .resetting, 64, (by decide), (by decide)⟩,
   ⟨imUp, 64, (by decide)⟩,
   ⟨imUp, 64, 0xFFFF, (by decide)⟩,
   ⟨imUp, 64, (by decide), (by decide)⟩,
   ⟨imUp, 64, 0, (by decide)⟩,
   ⟨{}, (asked 0x0D12 ({}) (imUp)), 0, (by decide +kernel), (by decide +kernel)⟩,
   ⟨{}, (asked 0x0D12 ({}) (imSaved)), 64, (by decide +kernel), (by decide +kernel), (by decide +kernel), (by decide +kernel)⟩⟩

theorem wit_InstancesAreCommanded_part2 :
    (∃ (c : Cmd) (s : State) (i : Nat), (runs 0x0D12 false c s = true) ∧ (1 ≤ i) ∧ (i ≤ 64) ∧ (instState (entered 0x0D12 c s) i = .active) ∧ (freezable (entered 0x0D12 c s) i = true) ∧ ((getInst (entered 0x0D12 c s) i).freezeAt.isSome = true)) ∧
    (∃ (c : Cmd) (s : State) (i : Nat), (runs 0x0D12 false c s = true) ∧ (1 ≤ i) ∧ (i ≤ 64) ∧ (instState (entered 0x0D12 c s) i = .active) ∧ (freezable (entered 0x0D12 c s) i = true) ∧ ((getInst (entered 0x0D12 c s) i).freezeAt = none)) ∧
    (∃ (s : State) (i : Nat) (t : LT) (w : Waiting), ((getInst s i).freezeAt = some (t, w)) ∧ (boundaryAfter s t (usTu 10) = true) ∧ (freezable s i = true)) ∧
    (∃ (s : State) (i : Nat) (t : LT) (w : Waiting), ((getInst s i).freezeAt = some (t, w)) ∧ (boundaryAfter s t (usTu 10) = true) ∧ (freezable (modInst i (fun n => { n with freezeAt := none }) s) i = true)) ∧
    (∃ (s : State) (i : Nat) (t : LT) (w : Waiting), ((getInst s i).freezeAt = some (t, w)) ∧ (boundaryAfter s t (usTu 10) = true) ∧ (freezable (modInst i (fun n => { n with freezeAt := none }) s) i = false)) ∧
    (∃ (s : State) (i : Nat), ((getInst s i).freezeAt.all (fun x => !boundaryAfter s x.1 (usTu 10)) = true)) ∧
    (∃ (c : Cmd) (s : State) (i _n : Nat), (runs 0x0D13 false c s = true) ∧ (instState (entered 0x0D13 c s) i ≠ .frozen ∨ (getInst (entered 0x0D13 c s) i).saved = none)) ∧
    (∃ (c : Cmd) (s : State) (i n : Nat) (e : Status), (runs 0x0D13 false c s = true) ∧ (instState (entered 0x0D13 c s) i = .frozen) ∧ ((getInst (entered 0x0D13 c s) i).saved.isSome = true) ∧ (blobKeyRefusal (entered 0x0D13 c s) n 0 = some e)) ∧
    (∃ (c : Cmd) (s : State) (i n : Nat) (x : SavedState), (runs 0x0D13 false c s = true) ∧ (instState (entered 0x0D13 c s) i = .frozen) ∧ ((getInst (entered 0x0D13 c s) i).saved = some x) ∧ (blobKeyRefusal (entered 0x0D13 c s) n 0 = none) ∧ (c.bufLen < blobLen x)) ∧
    (∃ (c : Cmd) (s : State) (i n : Nat) (x : SavedState), (runs 0x0D13 false c s = true) ∧ (instState (entered 0x0D13 c s) i = .frozen) ∧ ((getInst (entered 0x0D13 c s) i).saved = some x) ∧ (blobKeyRefusal (entered 0x0D13 c s) n 0 = none) ∧ (blobLen x ≤ c.bufLen) ∧ ((entered 0x0D13 c s).kv.trngFail = true)) ∧
    (∃ (c : Cmd) (s : State) (i n : Nat) (x : SavedState), (runs 0x0D13 false c s = true) ∧ (instState (entered 0x0D13 c s) i = .frozen) ∧ ((getInst (entered 0x0D13 c s) i).saved = some x) ∧ (blobKeyRefusal (entered 0x0D13 c s) n 0 = none) ∧ (blobLen x ≤ c.bufLen) ∧ ((entered 0x0D13 c s).kv.trngFail = false)) ∧
    (∃ (c : Cmd) (s : State) (i : Nat) (_b : List Byte), (runs 0x0D14 false c s = true) ∧ (instState (entered 0x0D14 c s) i ≠ .frozen)) :=
  ⟨⟨{}, (asked 0x0D12 ({}) ({ imUp with im := { imUp.im with inst := [(64, { state := .active, shares := imShares, freezeAt := some (0, {}) })] } })), 64, (by decide +kernel), (by decide +kernel), (by decide +kernel), (by decide +kernel), (by decide +kernel), (by decide +kernel)⟩,
   ⟨{}, (asked 0x0D12 ({}) (imUp)), 64, (by decide +kernel), (by decide +kernel), (by decide +kernel), (by decide +kernel), (by decide +kernel), (by decide +kernel)⟩,
   ⟨{ imUp with im := { imUp.im with inst := [(64, { state := .active, shares := imShares, freezeAt := some (0, {}) })] } }, 64, 0, {}, (by decide), (by decide), (by decide)⟩,
   ⟨{ imUp with im := { imUp.im with inst := [(64, { state := .active, shares := imShares, freezeAt := some (0, {}) })] } }, 64, 0, {}, (by decide), (by decide), (by decide)⟩,
   ⟨{ { imUp with im := { imUp.im with inst := [(64, { state := .active, shares := imShares, freezeAt := some (0, {}) })] } } with fb := { imUp.fb with own := [(64, { state := .stop })] } }, 64, 0, {}, (by decide), (by decide), (by decide)⟩,
   ⟨imUp, 64, (by decide)⟩,
   ⟨{}, (asked 0x0D13 ({}) (imUp)), 64, 1, (by decide +kernel), (by decide +kernel)⟩,
   ⟨{}, (asked 0x0D13 ({}) (imSaved)), 64, 1024, .badParam, (by decide +kernel), (by decide +kernel), (by decide +kernel), (by decide +kernel)⟩,
   ⟨{}, (asked 0x0D13 ({}) (imSaved)), 64, 1, {}, (by decide +kernel), (by decide +kernel), (by decide +kernel), (by decide +kernel), (by decide +kernel)⟩,
   ⟨{ bufLen := 10000 }, (asked 0x0D13 ({ bufLen := 10000 }) ({ imSaved with kv := { imSaved.kv with trngFail := true } })), 64, 1, {}, (by decide +kernel), (by decide +kernel), (by decide +kernel), (by decide +kernel), (by decide +kernel), (by decide +kernel)⟩,
   ⟨{ bufLen := 10000 }, (asked 0x0D13 ({ bufLen := 10000 }) (imSaved)), 64, 1, {}, (by decide +kernel), (by decide +kernel), (by decide +kernel), (by decide +kernel), (by decide +kernel), (by decide +kernel)⟩,
   ⟨{}, (asked 0x0D14 ({}) (imUp)), 64, [], (by decide +kernel), (by decide +kernel)⟩⟩

theorem wit_InstancesAreCommanded_part3 :
    (∃ (c : Cmd) (s : State) (i : Nat) (b : List Byte) (e : ReplyBody), (runs 0x0D14 false c s = true) ∧ (instState (entered 0x0D14 c s) i = .frozen) ∧ (openBlob i b (entered 0x0D14 c s) = .error e)) ∧
    (∃ (c : Cmd) (s : State) (i : Nat) (b : List Byte) (x : SavedState), (runs 0x0D14 false c s = true) ∧ (instState (entered 0x0D14 c s) i = .frozen) ∧ (openBlob i b (entered 0x0D14 c s) = .ok x)) ∧
    (∃ (_s : State) (_i : Nat) (b : List Byte), (blobHeadOk b = false)) ∧
    (∃ (_s : State) (_i : Nat) (b : List Byte), (blobHeadOk b = true) ∧ (ofBytesLE ((b.drop 0x10).take 4) ≠ 0x7780)) ∧
    (∃ (_s : State) (i : Nat) (b : List Byte), (blobHeadOk b = true) ∧ (ofBytesLE ((b.drop 0x10).take 4) = 0x7780) ∧ (ofBytesLE ((b.drop 0x14).take 1) ≠ i)) ∧
    (∃ (s : State) (i : Nat) (b : List Byte) (e : Status), (blobHeadOk b = true) ∧ (ofBytesLE ((b.drop 0x10).take 4) = 0x7780) ∧ (ofBytesLE ((b.drop 0x14).take 1) = i) ∧ (blobKeyRefusal s (ofBytesLE ((b.drop 0x26).take 2)) 1 = some e)) ∧
    (∃ (s : State) (i : Nat) (b : List Byte), (blobHeadOk b = true) ∧ (ofBytesLE ((b.drop 0x10).take 4) = 0x7780) ∧ (ofBytesLE ((b.drop 0x14).take 1) = i) ∧ (blobKeyRefusal s (ofBytesLE ((b.drop 0x26).take 2)) 1 = none) ∧ (gcmOpen (getSlot s (ofBytesLE ((b.drop 0x26).take 2))).material (headerIv (b.take 128)) (b.take 128) ((b.drop 128).take ((b.drop 128).length - 16)) (BitVec.ofNat 128 (ofBytesBE ((b.drop 128).drop ((b.drop 128).length - 16)))) = none)) ∧
    (∃ (s : State) (i : Nat) (b : List Byte) (y : List Byte), (blobHeadOk b = true) ∧ (ofBytesLE ((b.drop 0x10).take 4) = 0x7780) ∧ (ofBytesLE ((b.drop 0x14).take 1) = i) ∧ (blobKeyRefusal s (ofBytesLE ((b.drop 0x26).take 2)) 1 = none) ∧ (gcmOpen (getSlot s (ofBytesLE ((b.drop 0x26).take 2))).material (headerIv (b.take 128)) (b.take 128) ((b.drop 128).take ((b.drop 128).length - 16)) (BitVec.ofNat 128 (ofBytesBE ((b.drop 128).drop ((b.drop 128).length - 16)))) = some y) ∧ (ofBytesBE (((b.take 128).drop 0x50).take 32) ≠ (getInst s i).configHash.toNat)) ∧
    (∃ (s : State) (i : Nat) (b : List Byte) (y : List Byte), (blobHeadOk b = true) ∧ (ofBytesLE ((b.drop 0x10).take 4) = 0x7780) ∧ (ofBytesLE ((b.drop 0x14).take 1) = i) ∧ (blobKeyRefusal s (ofBytesLE ((b.drop 0x26).take 2)) 1 = none) ∧ (gcmOpen (getSlot s (ofBytesLE ((b.drop 0x26).take 2))).material (headerIv (b.take 128)) (b.take 128) ((b.drop 128).take ((b.drop 128).length - 16)) (BitVec.ofNat 128 (ofBytesBE ((b.drop 128).drop ((b.drop 128).length - 16)))) = some y) ∧ (ofBytesBE (((b.take 128).drop 0x50).take 32) = (getInst s i).configHash.toNat) ∧ (sectionsOf (ofBytesLE ((b.drop 0x24).take 2)) y = none)) ∧
    (∃ (s : State) (i : Nat) (b : List Byte) (y : List Byte) (l : List (Nat × Nat × List Byte)), (blobHeadOk b = true) ∧ (ofBytesLE ((b.drop 0x10).take 4) = 0x7780) ∧ (ofBytesLE ((b.drop 0x14).take 1) = i) ∧ (blobKeyRefusal s (ofBytesLE ((b.drop 0x26).take 2)) 1 = none) ∧ (gcmOpen (getSlot s (ofBytesLE ((b.drop 0x26).take 2))).material (headerIv (b.take 128)) (b.take 128) ((b.drop 128).take ((b.drop 128).length - 16)) (BitVec.ofNat 128 (ofBytesBE ((b.drop 128).drop ((b.drop 128).length - 16)))) = some y) ∧ (ofBytesBE (((b.take 128).drop 0x50).take 32) = (getInst s i).configHash.toNat) ∧ (sectionsOf (ofBytesLE ((b.drop 0x24).take 2)) y = some l)) ∧
    (∃ (s : State) (i : Nat) (t : LT) (x : SavedState), ((getInst s i).restore = some (t, x)) ∧ (instState s i = .frozen) ∧ (boundaryAfter s t 1 = true)) ∧
    (∃ (s : State) (i : Nat), (instState s i ≠ .frozen ∨ (getInst s i).restore.all (fun x => !boundaryAfter s x.1 1) = true)) :=
  ⟨⟨{}, (asked 0x0D14 ({}) (imSaved)), 64, [], st .badParam, (by decide +kernel), (by decide +kernel), (rfl)⟩,
   ⟨{}, (asked 0x0D14 ({}) (imSaved)), 64, imBlob 7, _, (by decide +kernel), (by decide +kernel), (by exact imBlob_ok _ (by rfl) (by decide +kernel) (by rfl))⟩,
   ⟨imSaved, 64, [], (by decide)⟩,
   ⟨imSaved, 64, imRaw 1 0x7781 64 [] 0, (by decide +kernel), (by decide +kernel)⟩,
   ⟨imSaved, 64, imRaw 1 0x7780 63 [] 0, (by decide +kernel), (by decide +kernel), (by decide +kernel)⟩,
   ⟨imSaved, 64, imRaw 1024 0x7780 64 [] 0, .badParam, (by decide +kernel), (by decide +kernel), (by decide +kernel), (by decide +kernel)⟩,
   ⟨imSaved, 64, imRaw 1 0x7780 64 [] (imTag [] + 1), (by decide +kernel), (by decide +kernel), (by decide +kernel), (by decide +kernel), (by exact imBlob_bad rfl)⟩,
   ⟨{ imUp with im := { imUp.im with inst := [(64, { state := .frozen, shares := imShares, configHash := 1 })] } }, 64, imBlob 7, imBody 7, (by decide +kernel), (by decide +kernel), (by decide +kernel), (by decide +kernel), (by exact imBlob_gcm _ rfl), (by decide +kernel)⟩,
   ⟨imSaved, 64, imBlob 200, imBody 200, (by decide +kernel), (by decide +kernel), (by decide +kernel), (by decide +kernel), (by exact imBlob_gcm _ rfl), (by decide +kernel), (by decide +kernel)⟩,
   ⟨imSaved, 64, imBlob 7, imBody 7, _, (by decide +kernel), (by decide +kernel), (by decide +kernel), (by decide +kernel), (by exact imBlob_gcm _ rfl), (by decide +kernel), (rfl)⟩,
   ⟨{ imUp with im := { imUp.im with inst := [(64, { state := .frozen, shares := imShares, restore := some (0, {}) })] } }, 64, 0, {}, (by decide), (by decide), (by decide)⟩,
   ⟨imUp, 64, (by decide)⟩⟩

theorem wit_InstancesAreCommanded_part4 :
    (∃ (c : Cmd) (s : State) (i : Nat), (runs 0x0D15 false c s = true) ∧ (instState (entered 0x0D15 c s) i ≠ .frozen)) ∧
    (∃ (c : Cmd) (s : State) (i : Nat), (runs 0x0D15 false c s = true) ∧ (instState (entered 0x0D15 c s) i = .frozen) ∧ ((getInst (entered 0x0D15 c s) i).thawAt.isSome = true)) ∧
    (∃ (c : Cmd) (s : State) (i : Nat), (runs 0x0D15 false c s = true) ∧ (instState (entered 0x0D15 c s) i = .frozen) ∧ ((getInst (entered 0x0D15 c s) i).thawAt = none)) ∧
    (∃ (s : State) (i : Nat) (t : LT) (w : Waiting), ((getInst s i).thawAt = some (t, w)) ∧ (instState s i = .frozen) ∧ (boundaryAfter s t 1 = true)) ∧
    (∃ (s : State) (i : Nat) (t : LT) (w : Waiting), ((getInst s i).thawAt = some (t, w)) ∧ (instState s i = .frozen) ∧ (boundaryAfter s t 1 = true)) ∧
    (∃ (s : State) (i : Nat), (instState s i ≠ .frozen ∨ (getInst s i).thawAt.all (fun x => !boundaryAfter s x.1 1) = true)) ∧
    (∃ (c : Cmd) (s : State) (i : Nat), (runs 0x0D16 true c s = true) ∧ (i < 1 ∨ 64 < i)) ∧
    (∃ (c : Cmd) (s : State) (i : Nat), (runs 0x0D16 true c s = true) ∧ (1 ≤ i) ∧ (i ≤ 64) ∧ (issuer c ≠ 0) ∧ (issuer c ≠ i)) ∧
    (∃ (c : Cmd) (s : State) (i : Nat), (runs 0x0D16 true c s = true) ∧ (1 ≤ i) ∧ (i ≤ 64) ∧ (issuer c = 0 ∨ issuer c = i)) ∧
    (∃ (c : Cmd) (s : State) (i : Nat) (_j : Fin 16) (_x : Option HostqCfg), (runs 0x0D11 false c s = true) ∧ (i < 1 ∨ 64 < i)) ∧
    (∃ (c : Cmd) (s : State) (i : Nat) (_j : Fin 16) (_x : Option HostqCfg), (runs 0x0D11 false c s = true) ∧ (1 ≤ i) ∧ (i ≤ 64) ∧ (instState (entered 0x0D11 c s) i ≠ .active) ∧ (instState (entered 0x0D11 c s) i ≠ .frozen)) ∧
    (∃ (c : Cmd) (s : State) (i : Nat) (j : Fin 16), (runs 0x0D11 false c s = true) ∧ (1 ≤ i) ∧ (i ≤ 64) ∧ (instState (entered 0x0D11 c s) i = .active ∨ instState (entered 0x0D11 c s) i = .frozen) ∧ ((getInst (entered 0x0D11 c s) i).hq.get? j.val = none)) :=
  ⟨⟨{}, (asked 0x0D15 ({}) (imUp)), 64, (by decide +kernel), (by decide +kernel)⟩,
   ⟨{}, (asked 0x0D15 ({}) ({ imUp with im := { imUp.im with inst := [(64, { state := .frozen, shares := imShares, thawAt := some (0, {}) })] } })), 64, (by decide +kernel), (by decide +kernel), (by decide +kernel)⟩,
   ⟨{}, (asked 0x0D15 ({}) (imSaved)), 64, (by decide +kernel), (by decide +kernel), (by decide +kernel)⟩,
   ⟨{ imUp with im := { imUp.im with inst := [(64, { state := .frozen, shares := imShares, thawAt := some (0, {}) })] } }, 64, 0, {}, (by decide), (by decide), (by decide)⟩,
   ⟨{ imUp with im := { imUp.im with inst := [(64, { state := .frozen, shares := imShares, thawAt := some (0, {}) })] } }, 64, 0, {}, (by decide), (by decide), (by decide)⟩,
   ⟨imUp, 64, (by decide)⟩,
   ⟨{}, (asked 0x0D16 ({}) (imUp)), 65, (by decide +kernel), (by decide +kernel)⟩,
   ⟨{ ring := .inst 64 0 }, (asked 0x0D16 ({ ring := .inst 64 0 }) (imUp)), 1, (by decide +kernel), (by decide +kernel), (by decide +kernel), (by decide +kernel), (by decide +kernel)⟩,
   ⟨{}, (asked 0x0D16 ({}) (imUp)), 64, (by decide +kernel), (by decide +kernel), (by decide +kernel), (by decide +kernel)⟩,
   ⟨{}, (asked 0x0D11 ({}) (imUp)), 0, 15, none, (by decide +kernel), (by decide +kernel)⟩,
   ⟨{}, (asked 0x0D11 ({}) (imAs .resetting)), 64, 15, none, (by decide +kernel), (by decide +kernel), (by decide +kernel), (by decide +kernel), (by decide +kernel)⟩,
   ⟨{}, (asked 0x0D11 ({}) (imUp)), 64, 0, (by decide +kernel), (by decide +kernel), (by decide +kernel), (by decide +kernel), (by decide +kernel)⟩⟩

theorem wit_InstancesAreCommanded_part5 :
    (∃ (c : Cmd) (s : State) (i : Nat) (j : Fin 16), (runs 0x0D11 false c s = true) ∧ (1 ≤ i) ∧ (i ≤ 64) ∧ (instState (entered 0x0D11 c s) i = .active ∨ instState (entered 0x0D11 c s) i = .frozen) ∧ (((getInst (entered 0x0D11 c s) i).hq.get? j.val).isSome = true)) ∧
    (∃ (c : Cmd) (s : State) (i : Nat) (_j : Fin 16) (q : HostqCfg), (runs 0x0D11 false c s = true) ∧ (1 ≤ i) ∧ (i ≤ 64) ∧ (instState (entered 0x0D11 c s) i = .active ∨ instState (entered 0x0D11 c s) i = .frozen) ∧ (q.size < 4 ∨ 12 < q.size ∨ (getInst (entered 0x0D11 c s) i).shares.queues.contains q.qnum = false ∨ qUnused (entered 0x0D11 c s).qm.cap q.qnum = true ∨ (qCfg (entered 0x0D11 c s).qm.cap q.qnum).toHost ≠ some q.toHost)) ∧
    (∃ (c : Cmd) (s : State) (i : Nat) (j : Fin 16) (q : HostqCfg), (runs 0x0D11 false c s = true) ∧ (1 ≤ i) ∧ (i ≤ 64) ∧ (instState (entered 0x0D11 c s) i = .active ∨ instState (entered 0x0D11 c s) i = .frozen) ∧ (4 ≤ q.size) ∧ (q.size ≤ 12) ∧ ((getInst (entered 0x0D11 c s) i).shares.queues.contains q.qnum = true) ∧ (qUnused (entered 0x0D11 c s).qm.cap q.qnum = false) ∧ ((qCfg (entered 0x0D11 c s).qm.cap q.qnum).toHost = some q.toHost) ∧ ((getInst (entered 0x0D11 c s) i).shares.hostQueues ≤ ((getInst (entered 0x0D11 c s) i).hq.del j.val).length)) ∧
    (∃ (c : Cmd) (s : State) (i : Nat) (j : Fin 16) (q : HostqCfg), (runs 0x0D11 false c s = true) ∧ (1 ≤ i) ∧ (i ≤ 64) ∧ (instState (entered 0x0D11 c s) i = .active ∨ instState (entered 0x0D11 c s) i = .frozen) ∧ (4 ≤ q.size) ∧ (q.size ≤ 12) ∧ ((getInst (entered 0x0D11 c s) i).shares.queues.contains q.qnum = true) ∧ (qUnused (entered 0x0D11 c s).qm.cap q.qnum = false) ∧ ((qCfg (entered 0x0D11 c s).qm.cap q.qnum).toHost = some q.toHost) ∧ (((getInst (entered 0x0D11 c s) i).hq.del j.val).length < (getInst (entered 0x0D11 c s) i).shares.hostQueues)) :=
  ⟨⟨{}, (asked 0x0D11 ({}) (imHq)), 64, 0, (by decide +kernel), (by decide +kernel), (by decide +kernel), (by decide +kernel), (by decide +kernel)⟩,
   ⟨{}, (asked 0x0D11 ({}) (imUp)), 64, 15, { qnum := 0xFF, size := 13, toHost := true }, (by decide +kernel), (by decide +kernel), (by decide +kernel), (by decide +kernel), (by decide +kernel)⟩,
   ⟨{}, (asked 0x0D11 ({}) (imHq)), 64, 15, { qnum := 0xFF, size := 12, toHost := true }, (by decide +kernel), (by decide +kernel), (by decide +kernel), (by decide +kernel), (by decide +kernel), (by decide +kernel), (by decide +kernel), (by decide +kernel), (by decide +kernel), (by decide +kernel)⟩,
   ⟨{}, (asked 0x0D11 ({}) (imUp)), 64, 15, { qnum := 0xFF, size := 12, toHost := true }, (by decide +kernel), (by decide +kernel), (by decide +kernel), (by decide +kernel), (by decide +kernel), (by decide +kernel), (by decide +kernel), (by decide +kernel), (by decide +kernel), (by decide +kernel)⟩⟩

theorem wit_HostQueuesAndFunctionResets_part1 :
    (∃ (s : State) (i : Nat) (j : Fin 16) (_v : BitVec 16) (h : HostQ), (s.glob.ready = true) ∧ (instState s i = .active ∨ instState s i = .frozen) ∧ ((getInst s i).hq.get? j.val = some h)) ∧
    (∃ (s : State) (i : Nat) (j : Fin 16) (_v : BitVec 16), (s.glob.ready = false ∨ (instState s i ≠ .active ∧ instState s i ≠ .frozen) ∨ (getInst s i).hq.get? j.val = none)) ∧
    (∃ (s : State) (i : Nat) (j : Fin 16) (_d _b : List Byte) (_g : Option GuardFind), (instState s i ≠ .active ∨ hasDma s i = false ∨ (getInst s i).hq.get? j.val = none)) ∧
    (∃ (s : State) (i : Nat) (j : Fin 16) (_d _b : List Byte) (_g : Option GuardFind) (h : HostQ), ((getInst s i).hq.get? j.val = some h) ∧ (h.stopped = true ∨ h.head = h.tail ∨ (h.toHost = true ∧ (getQ s h.qnum).words = []))) ∧
    (∃ (s : State) (i : Nat) (j : Fin 16) (_d _b : List Byte) (_g : Option GuardFind) (h : HostQ), (instState s i = .active) ∧ (hasDma s i = true) ∧ ((getInst s i).hq.get? j.val = some h) ∧ (h.stopped = false) ∧ (h.head ≠ h.tail) ∧ ((h.toHost = true → (getQ s h.qnum).words ≠ [])) ∧ (inAperture s i (descAddr h).toNat 16 = false)) ∧
    (∃ (s : State) (i : Nat) (j : Fin 16) (d _b : List Byte) (_g : Option GuardFind) (h : HostQ), (instState s i = .active) ∧ (hasDma s i = true) ∧ ((getInst s i).hq.get? j.val = some h) ∧ (h.stopped = false) ∧ (h.head ≠ h.tail) ∧ ((h.toHost = true → (getQ s h.qnum).words ≠ [])) ∧ (inAperture s i (descAddr h).toNat 16 = true) ∧ (inAperture s i (BitVec.ofNat 64 (ofBytesLE (d.take 8))).toNat (ofBytesLE ((d.drop 8).take 4)) = false)) ∧
    (∃ (s : State) (i : Nat) (j : Fin 16) (d _b : List Byte) (_g : Option GuardFind) (h : HostQ), (instState s i = .active) ∧ (hasDma s i = true) ∧ ((getInst s i).hq.get? j.val = some h) ∧ (h.stopped = false) ∧ (h.head ≠ h.tail) ∧ ((h.toHost = true → (getQ s h.qnum).words ≠ [])) ∧ (inAperture s i (descAddr h).toNat 16 = true) ∧ (inAperture s i (BitVec.ofNat 64 (ofBytesLE (d.take 8))).toNat (ofBytesLE ((d.drop 8).take 4)) = true) ∧ ((ofBytesLE ((d.drop 8).take 4)) < 64 ∨ 10272 < (ofBytesLE ((d.drop 8).take 4)))) ∧
    (∃ (s : State) (i : Nat) (j : Fin 16) (d _b : List Byte) (g : Option GuardFind) (h : HostQ) (x : GuardHit), (instState s i = .active) ∧ (hasDma s i = true) ∧ ((getInst s i).hq.get? j.val = some h) ∧ (h.stopped = false) ∧ (h.head ≠ h.tail) ∧ (inAperture s i (descAddr h).toNat 16 = true) ∧ (inAperture s i (BitVec.ofNat 64 (ofBytesLE (d.take 8))).toNat (ofBytesLE ((d.drop 8).take 4)) = true) ∧ (64 ≤ (ofBytesLE ((d.drop 8).take 4))) ∧ ((ofBytesLE ((d.drop 8).take 4)) ≤ 10272) ∧ (h.toHost = true) ∧ ((getQ s h.qnum).words ≠ []) ∧ ((guardRead 0x3 g (takePacket h.qnum s).2).1 = some x)) ∧
    (∃ (s : State) (i : Nat) (j : Fin 16) (d _b : List Byte) (g : Option GuardFind) (h : HostQ), (instState s i = .active) ∧ (hasDma s i = true) ∧ ((getInst s i).hq.get? j.val = some h) ∧ (h.stopped = false) ∧ (h.head ≠ h.tail) ∧ (inAperture s i (descAddr h).toNat 16 = true) ∧ (inAperture s i (BitVec.ofNat 64 (ofBytesLE (d.take 8))).toNat (ofBytesLE ((d.drop 8).take 4)) = true) ∧ (64 ≤ (ofBytesLE ((d.drop 8).take 4))) ∧ ((ofBytesLE ((d.drop 8).take 4)) ≤ 10272) ∧ (h.toHost = true) ∧ ((getQ s h.qnum).words ≠ []) ∧ ((guardRead 0x3 g (takePacket h.qnum s).2).1 = none) ∧ ((takePacket h.qnum s).1.any (epochStale (guardRead 0x3 g (takePacket h.qnum s).2).2) = true)) ∧
    (∃ (s : State) (i : Nat) (j : Fin 16) (d _b : List Byte) (g : Option GuardFind) (h : HostQ), (instState s i = .active) ∧ (hasDma s i = true) ∧ ((getInst s i).hq.get? j.val = some h) ∧ (h.stopped = false) ∧ (h.head ≠ h.tail) ∧ (inAperture s i (descAddr h).toNat 16 = true) ∧ (inAperture s i (BitVec.ofNat 64 (ofBytesLE (d.take 8))).toNat (ofBytesLE ((d.drop 8).take 4)) = true) ∧ (64 ≤ (ofBytesLE ((d.drop 8).take 4))) ∧ ((ofBytesLE ((d.drop 8).take 4)) ≤ 10272) ∧ (h.toHost = true) ∧ ((getQ s h.qnum).words ≠ []) ∧ ((guardRead 0x3 g (takePacket h.qnum s).2).1 = none) ∧ ((takePacket h.qnum s).1.any (epochStale (guardRead 0x3 g (takePacket h.qnum s).2).2) = false) ∧ ((ofBytesLE ((d.drop 8).take 4)) < (headerOf (takePacket h.qnum s).1 ++ payloadOf (takePacket h.qnum s).1).length)) ∧
    (∃ (s : State) (i : Nat) (j : Fin 16) (d _b : List Byte) (g : Option GuardFind) (h : HostQ), (instState s i = .active) ∧ (hasDma s i = true) ∧ ((getInst s i).hq.get? j.val = some h) ∧ (h.stopped = false) ∧ (h.head ≠ h.tail) ∧ (inAperture s i (descAddr h).toNat 16 = true) ∧ (inAperture s i (BitVec.ofNat 64 (ofBytesLE (d.take 8))).toNat (ofBytesLE ((d.drop 8).take 4)) = true) ∧ (64 ≤ (ofBytesLE ((d.drop 8).take 4))) ∧ ((ofBytesLE ((d.drop 8).take 4)) ≤ 10272) ∧ (h.toHost = true) ∧ ((getQ s h.qnum).words ≠ []) ∧ ((guardRead 0x3 g (takePacket h.qnum s).2).1 = none) ∧ ((takePacket h.qnum s).1.any (epochStale (guardRead 0x3 g (takePacket h.qnum s).2).2) = false) ∧ ((headerOf (takePacket h.qnum s).1 ++ payloadOf (takePacket h.qnum s).1).length ≤ (ofBytesLE ((d.drop 8).take 4)))) ∧
    (∃ (s : State) (i : Nat) (j : Fin 16) (d _b : List Byte) (_g : Option GuardFind) (h : HostQ), (instState s i = .active) ∧ (hasDma s i = true) ∧ ((getInst s i).hq.get? j.val = some h) ∧ (h.stopped = false) ∧ (h.head ≠ h.tail) ∧ (inAperture s i (descAddr h).toNat 16 = true) ∧ (inAperture s i (BitVec.ofNat 64 (ofBytesLE (d.take 8))).toNat (ofBytesLE ((d.drop 8).take 4)) = true) ∧ (64 ≤ (ofBytesLE ((d.drop 8).take 4))) ∧ ((ofBytesLE ((d.drop 8).take 4)) ≤ 10272) ∧ (h.toHost = false)) :=
  ⟨⟨imHq, 64, 0, 2, imOut, (by decide), (by decide), (by decide)⟩,
   ⟨imUp, 64, 0, 2, (by decide)⟩,
   ⟨imUp, 64, 0, [], [], none, (by decide)⟩,
   ⟨{ imHq with qm := up.qm }, 64, 0, [], [], none, imOut, (by decide +kernel), (by decide +kernel)⟩,
   ⟨{ imHq with im := { imUp.im with inst := [(64, { state := .active, shares := imShares, hq := [(0, { imOut with base := 0x200000 })] })] } }, 64, 0, [], [], none, { imOut with base := 0x200000 }, (by decide +kernel), (by decide +kernel), (by decide +kernel), (by decide +kernel), (by decide +kernel), (by decide +kernel), (by decide +kernel)⟩,
   ⟨imHq, 64, 0, (bytesLE 8 0x100000 ++ bytesLE 4 64), [], none, imOut, (by decide +kernel), (by decide +kernel), (by decide +kernel), (by decide +kernel), (by decide +kernel), (by decide +kernel), (by decide +kernel), (by decide +kernel)⟩,
   ⟨imHq, 64, 1, (bytesLE 8 0 ++ bytesLE 4 63), [], none, imIn, (by decide +kernel), (by decide +kernel), (by decide +kernel), (by decide +kernel), (by decide +kernel), (by decide +kernel), (by decide +kernel), (by decide +kernel), (by decide +kernel)⟩,
   ⟨imHq, 64, 0, (bytesLE 8 0 ++ bytesLE 4 1000), [], (some (.uncorrectable {})), imOut, {}, (by decide +kernel), (by decide +kernel), (by decide +kernel), (by decide +kernel), (by decide +kernel), (by decide +kernel), (by decide +kernel), (by decide +kernel), (by decide +kernel), (by decide +kernel), (by decide +kernel), (by decide +kernel)⟩,
   ⟨{ imHq with im := { imUp.im with inst := [(64, { state := .active, shares := imShares, epoch := 1, hq := [(0, imOut), (1, imIn)] })] } }, 64, 0, (bytesLE 8 0 ++ bytesLE 4 1000), [], none, imOut, (by decide +kernel), (by decide +kernel), (by decide +kernel), (by decide +kernel), (by decide +kernel), (by decide +kernel), (by decide +kernel), (by decide +kernel), (by decide +kernel), (by decide +kernel), (by decide +kernel), (by decide +kernel), (by decide +kernel)⟩,
   ⟨{ imHq with qm := { imHq.qm with q := [(0xFF, { words := [{ tag := 64, data := List.replicate 32 0 }, { tag := 64, data := List.replicate 32 0 }, { tag := 64, data := List.replicate 32 0, last := true }] })] } }, 64, 0, (bytesLE 8 0 ++ bytesLE 4 64), [], none, imOut, (by decide +kernel), (by decide +kernel), (by decide +kernel), (by decide +kernel), (by decide +kernel), (by decide +kernel), (by decide +kernel), (by decide +kernel), (by decide +kernel), (by decide +kernel), (by decide +kernel), (by decide +kernel), (by decide +kernel), (by decide +kernel)⟩,
   ⟨imHq, 64, 0, (bytesLE 8 0 ++ bytesLE 4 1000), [], none, imOut, (by decide +kernel), (by decide +kernel), (by decide +kernel), (by decide +kernel), (by decide +kernel), (by decide +kernel), (by decide +kernel), (by decide +kernel), (by decide +kernel), (by decide +kernel), (by decide +kernel), (by decide +kernel), (by decide +kernel), (by decide +kernel)⟩,
   ⟨imHq, 64, 1, (bytesLE 8 0 ++ bytesLE 4 64), (List.replicate 64 1), none, imIn, (by decide +kernel), (by decide +kernel), (by decide +kernel), (by decide +kernel), (by decide +kernel), (by decide +kernel), (by decide +kernel), (by decide +kernel), (by decide +kernel), (by decide +kernel)⟩⟩

theorem wit_HostQueuesAndFunctionResets_part2 :
    (∃ (s : State) (_k : Fin 4) (_v : BitVec 32), (s.glob.ready = true)) ∧
    (∃ (s : State) (i : Nat) (_k : Fin 4) (_v : BitVec 32), (s.glob.ready = true) ∧ (1 ≤ i) ∧ (i ≤ 64) ∧ (instState s i ≠ .absent)) ∧
    (∃ (s : State) (_k : Fin 4) (_v : BitVec 32), (s.glob.ready = true)) ∧
    (∃ (s : State) (i : Nat) (_k : Fin 4) (_v : BitVec 32), (s.glob.ready = true) ∧ (1 ≤ i) ∧ (i ≤ 64) ∧ (instState s i ≠ .absent)) ∧
    (∃ (s : State) (i : Nat) (_k : Fin 4) (_v : BitVec 32), (s.glob.ready = false ∨ (i ≠ 0 ∧ (instState s i = .absent ∨ 64 < i)))) ∧
    (∃ (s : State), (s.glob.ready = true)) ∧
    (∃ (s : State), (s.glob.ready = false)) ∧
    (∃ (s : State), (s.glob.perstN = true) ∧ (s.glob.ready = true)) ∧
    (∃ (s : State), (s.glob.perstN = true) ∧ (s.glob.ready = false)) ∧
    (∃ (s : State), (s.glob.perstN = false)) ∧
    (∃ (s : State) (_r : BitVec 48), (s.glob.perstN = false)) ∧
    (∃ (s : State) (_r : BitVec 48), (s.glob.perstN = true)) :=
  ⟨⟨imUp, 3, 0xFFFFFFFF, (by decide)⟩,
   ⟨imUp, 64, 3, 0xFFFFFFFF, (by decide), (by decide), (by decide), (by decide)⟩,
   ⟨imUp, 3, 0xFFFFFFFF, (by decide)⟩,
   ⟨imUp, 64, 3, 0xFFFFFFFF, (by decide), (by decide), (by decide), (by decide)⟩,
   ⟨imUp, 65, 3, 0, (by decide)⟩,
   ⟨imUp, (by decide)⟩,
   ⟨State.reset, (by decide)⟩,
   ⟨imUp, (by decide), (by decide)⟩,
   ⟨{ State.reset with glob := { State.reset.glob with perstN := true } }, (by decide), (by decide)⟩,
   ⟨{ up with glob := { up.glob with perstN := false } }, (by decide)⟩,
   ⟨{ up with glob := { up.glob with perstN := false } }, 1, (by decide)⟩,
   ⟨imUp, 1, (by decide)⟩⟩

theorem wit_PowerCommandsAnswer_part1 :
    (∃ (c : Cmd) (s : State) (_m : BitVec 64), (runs 0x0F10 false c s = true)) ∧
    (∃ (c : Cmd) (s : State) (_m : BitVec 64), (runs 0x0F10 false c s = true)) ∧
    (∃ (c : Cmd) (s : State) (_m : BitVec 64), (runs 0x0F10 false c s = true)) ∧
    (∃ (c : Cmd) (s : State) (_m : BitVec 64), (runs 0x0F10 false c s = true)) ∧
    (∃ (_s : State) (n : Nat) (_f : Nat → State → State × Status), (n < 2 ∨ 8 < n)) ∧
    (∃ (s : State) (n : Nat), (2 ≤ n) ∧ (n ≤ 8) ∧ (pdState s n ≠ .locked)) ∧
    (∃ (s : State) (n : Nat), (2 ≤ n) ∧ (n ≤ 8) ∧ (pdState s n = .locked)) ∧
    (∃ (s : State) (n : Nat), (2 ≤ n) ∧ (n ≤ 8) ∧ ((vget s.pa.pd n {}).inUse = false) ∧ (pdState s n ≠ .locked)) ∧
    (∃ (s : State) (n : Nat), (2 ≤ n) ∧ (n ≤ 8) ∧ ((vget s.pa.pd n {}).inUse = false) ∧ (pdState s n = .locked)) ∧
    (∃ (s : State) (n : Nat), (2 ≤ n) ∧ (n ≤ 8) ∧ ((vget s.pa.pd n {}).inUse = true)) ∧
    (∃ (s : State) (n : Nat), (2 ≤ n) ∧ (n ≤ 8) ∧ ((vget s.pa.pd n {}).inUse = false) ∧ (pdState s n ≠ .waking ∨ (vget s.pa.pd n {}).wakeAt ≠ s.abs)) ∧
    (∃ (s : State) (n : Nat), (2 ≤ n) ∧ (n ≤ 8) ∧ ((vget s.pa.pd n {}).inUse = false) ∧ (pdState s n = .waking) ∧ ((vget s.pa.pd n {}).wakeAt = s.abs)) :=
  ⟨⟨{}, (asked 0x0F10 ({}) (staging)), 0x1FC, (by decide +kernel)⟩,
   ⟨{}, (asked 0x0F10 ({}) (staging)), 0x4, (by decide +kernel)⟩,
   ⟨{}, (asked 0x0F10 ({}) (staging)), 0x4, (by decide +kernel)⟩,
   ⟨{}, (asked 0x0F10 ({}) (staging)), 0x1FC, (by decide +kernel)⟩,
   ⟨up, 9, wakePart, (by decide +kernel)⟩,
   ⟨up, 8, (by decide +kernel), (by decide +kernel), (by decide +kernel)⟩,
   ⟨{ up with pa := { up.pa with pd := .replicate 9 { state := .locked } } }, 8, (by decide +kernel), (by decide +kernel), (by decide +kernel)⟩,
   ⟨staging, 8, (by decide +kernel), (by decide +kernel), (by decide +kernel), (by decide +kernel)⟩,
   ⟨{ up with pa := { up.pa with pd := .replicate 9 { state := .locked, inUse := false } } }, 8, (by decide +kernel), (by decide +kernel), (by decide +kernel), (by decide +kernel)⟩,
   ⟨{ up with pa := { up.pa with pd := .replicate 9 { state := .on, inUse := true } } }, 8, (by decide +kernel), (by decide +kernel), (by decide +kernel)⟩,
   ⟨staging, 2, (by decide +kernel), (by decide +kernel), (by decide +kernel), (by decide +kernel)⟩,
   ⟨{ up with pa := { up.pa with pd := .replicate 9 { state := .waking, inUse := false } } }, 2, (by decide +kernel), (by decide +kernel), (by decide +kernel), (by decide +kernel), (by decide +kernel)⟩⟩

theorem wit_PowerCommandsAnswer_part2 :
    (∃ (s : State) (n : Nat), (2 ≤ n) ∧ (n ≤ 8) ∧ ((vget s.pa.pd n {}).mode ≠ .locked ∨ (vget s.pa.pd n {}).staged = .locked)) ∧
    (∃ (s : State) (n : Nat), (2 ≤ n) ∧ (n ≤ 8) ∧ ((vget s.pa.pd n {}).mode = .locked) ∧ ((vget s.pa.pd n {}).staged ≠ .locked)) ∧
    (∃ (s : State) (n : Nat), (pdState s n = .waking) ∧ ((vget s.pa.pd n {}).stalled ≠ [])) ∧
    (∃ (s : State) (n : Nat), (pdState s n ≠ .waking ∨ (vget s.pa.pd n {}).stalled = [])) ∧
    (∃ (c : Cmd) (s : State) (_m : BitVec 16) (_a : BitVec 48), (runs 0x0F11 false c s = true) ∧ ((entered 0x0F11 c s).pa.sleepReq.isSome = true)) ∧
    (∃ (c : Cmd) (s : State) (_m : BitVec 16) (_a : BitVec 48) (k : Nat) (e : Status), (runs 0x0F11 false c s = true) ∧ ((entered 0x0F11 c s).pa.sleepReq = none) ∧ (sleepRefusal (entered 0x0F11 c s) = some (k, e))) ∧
    (∃ (c : Cmd) (s : State) (_m : BitVec 16) (_a : BitVec 48), (runs 0x0F11 false c s = true) ∧ ((entered 0x0F11 c s).pa.sleepReq = none) ∧ (sleepRefusal (entered 0x0F11 c s) = none)) ∧
    (∃ (c : Cmd) (s : State) (_o _n : Nat), (runs 0x0F12 false c s = true) ∧ ((entered 0x0F12 c s).pa.regLow = true)) ∧
    (∃ (c : Cmd) (s : State) (o n : Nat), (runs 0x0F12 false c s = true) ∧ ((entered 0x0F12 c s).pa.regLow = false) ∧ (o < 0x100 ∨ n = 0 ∨ 0x1000 < o + n)) ∧
    (∃ (c : Cmd) (s : State) (o n : Nat), (runs 0x0F12 false c s = true) ∧ ((entered 0x0F12 c s).pa.regLow = false) ∧ (0x100 ≤ o) ∧ (1 ≤ n) ∧ (o + n ≤ 0x1000)) ∧
    (∃ (c : Cmd) (s : State) (_o : Nat) (_d : List Byte), (runs 0x0F13 false c s = true) ∧ ((entered 0x0F13 c s).pa.regLow = true)) ∧
    (∃ (c : Cmd) (s : State) (o : Nat) (d : List Byte), (runs 0x0F13 false c s = true) ∧ ((entered 0x0F13 c s).pa.regLow = false) ∧ (o < 0x100 ∨ o % 32 ≠ 0 ∨ d.length % 32 ≠ 0 ∨ d = [] ∨ 0x1000 < o + d.length)) :=
  ⟨⟨staging, 2, (by decide +kernel), (by decide +kernel), (by decide +kernel)⟩,
   ⟨{ up with pa := { up.pa with pd := .replicate 9 { state := .locked, mode := .locked, staged := .auto } } }, 2, (by decide +kernel), (by decide +kernel), (by decide +kernel), (by decide +kernel)⟩,
   ⟨{ up with pa := { up.pa with pd := .replicate 9 { state := .waking, stalled := [1] } } }, 2, (by decide +kernel), (by decide +kernel)⟩,
   ⟨up, 2, (by decide +kernel)⟩,
   ⟨{}, (asked 0x0F11 ({}) (paSleepy)), 3, 100, (by decide +kernel), (by decide +kernel)⟩,
   ⟨{}, (asked 0x0F11 ({}) ({ up with pa := { up.pa with rtcRunning := false } })), 3, 100, 6, .notReady, (by decide +kernel), (by decide +kernel), (by decide +kernel)⟩,
   ⟨{}, (asked 0x0F11 ({}) ({ up with pa := { up.pa with rtcRunning := true } })), 3, 100, (by decide +kernel), (by decide +kernel), (by decide +kernel)⟩,
   ⟨{}, (asked 0x0F12 ({}) ({ up with pa := { up.pa with regLow := true } })), 0x100, 0xF00, (by decide +kernel), (by decide +kernel)⟩,
   ⟨{}, (asked 0x0F12 ({}) (up)), 0xFF, 0xF00, (by decide +kernel), (by decide +kernel), (by decide +kernel)⟩,
   ⟨{}, (asked 0x0F12 ({}) (up)), 0x100, 0xF00, (by decide +kernel), (by decide +kernel), (by decide +kernel), (by decide +kernel), (by decide +kernel)⟩,
   ⟨{}, (asked 0x0F13 ({}) ({ up with pa := { up.pa with regLow := true } })), 0xFE0, List.replicate 32 1, (by decide +kernel), (by decide +kernel)⟩,
   ⟨{}, (asked 0x0F13 ({}) (up)), 0xFE0, [], (by decide +kernel), (by decide +kernel), (by decide +kernel)⟩⟩

theorem wit_PowerCommandsAnswer_part3 :
    (∃ (c : Cmd) (s : State) (o : Nat) (d : List Byte), (runs 0x0F13 false c s = true) ∧ ((entered 0x0F13 c s).pa.regLow = false) ∧ (0x100 ≤ o) ∧ (o % 32 = 0) ∧ (d.length % 32 = 0) ∧ (d ≠ []) ∧ (o + d.length ≤ 0x1000)) ∧
    (∃ (c : Cmd) (s : State), (runs 0x0F14 false c s = true)) ∧
    (∃ (c : Cmd) (s : State) (_m : BitVec 4), (runs 0x0F15 false c s = true)) :=
  ⟨⟨{}, (asked 0x0F13 ({}) (up)), 0xFE0, List.replicate 32 1, (by decide +kernel), (by decide +kernel), (by decide +kernel), (by decide +kernel), (by decide +kernel), (by decide +kernel), (by decide +kernel)⟩,
   ⟨{}, (asked 0x0F14 ({}) (up)), (by decide +kernel)⟩,
   ⟨{}, (asked 0x0F15 ({}) (up)), 15, (by decide +kernel)⟩⟩

theorem wit_PowerEventsTakeEffect_part1 :
    (∃ (s : State) (n : Fin 9), (2 ≤ n.val) ∧ ((vget s.pa.pd n.val {}).mode = .auto) ∧ ((vget s.pa.pd n.val {}).inUse = false) ∧ ((vget s.pa.pd n.val {}).state = .on) ∧ (s.pa.ended.getLsbD 7 = true) ∧ ((vget s.pa.pd n.val {}).lastUse + msTu (vget s.pa.pd n.val {}).idleMs ≤ s.abs) ∧ (accessArrives n s = false)) ∧
    (∃ (s : State) (n : Fin 9), (n.val < 2 ∨ (vget s.pa.pd n.val {}).mode ≠ .auto ∨ (vget s.pa.pd n.val {}).inUse = true ∨ (vget s.pa.pd n.val {}).state ≠ .on ∨ s.pa.ended.getLsbD 7 = false ∨ s.abs < (vget s.pa.pd n.val {}).lastUse + msTu (vget s.pa.pd n.val {}).idleMs ∨ accessArrives n s = true)) ∧
    (∃ (s : State) (n : Fin 9) (_k : PdNeed) (_q : Nat), (n.val < 2 ∨ s.pa.power ≠ .running)) ∧
    (∃ (s : State) (n : Fin 9) (_k : PdNeed) (_q : Nat), (2 ≤ n.val) ∧ (s.pa.power = .running) ∧ (pdState s n.val = .on)) ∧
    (∃ (s : State) (n : Fin 9) (_k : PdNeed) (_q : Nat), (2 ≤ n.val) ∧ (s.pa.power = .running) ∧ (pdState s n.val = .locked)) ∧
    (∃ (s : State) (n : Fin 9) (_k : PdNeed) (_q : Nat), (3 ≤ n.val) ∧ (s.pa.power = .running) ∧ (pdState s n.val = .off ∨ pdState s n.val = .waking)) ∧
    (∃ (s : State) (_k : PdNeed) (_q : Nat), (s.pa.power = .running) ∧ (pdState s 2 = .off ∨ pdState s 2 = .waking)) ∧
    (∃ (s : State) (n : Fin 9), (3 ≤ n.val) ∧ ((vget s.pa.pd n.val {}).state = .waking) ∧ (6 < n.val ∨ pdState s 8 = .on) ∧ ((vget s.pa.pd n.val {}).after = none)) ∧
    (∃ (s : State) (n : Fin 9), (3 ≤ n.val) ∧ ((vget s.pa.pd n.val {}).state = .waking) ∧ (6 < n.val ∨ pdState s 8 = .on)) ∧
    (∃ (s : State) (n : Fin 9), (n.val < 3 ∨ (vget s.pa.pd n.val {}).state ≠ .waking ∨ (n.val ≤ 6 ∧ pdState s 8 ≠ .on))) ∧
    (∃ (s : State), (pdState s 2 = .waking)) ∧
    (∃ (s : State), (pdState s 2 ≠ .waking)) :=
  ⟨⟨{ paRun with pa := { paRun.pa with pd := .replicate 9 { state := .on, mode := .auto, inUse := false, idleMs := 1 }, ended := 0x80 } }, 8, (by decide +kernel), (by decide +kernel), (by decide +kernel), (by decide +kernel), (by decide +kernel), (by decide +kernel), (by decide +kernel)⟩,
   ⟨paRun, 1, (by decide +kernel)⟩,
   ⟨paRun, 1, .read, 0, (by decide +kernel)⟩,
   ⟨paRun, 8, .read, 0, (by decide +kernel), (by decide +kernel), (by decide +kernel)⟩,
   ⟨{ paRun with pa := { paRun.pa with pd := .replicate 9 { state := .locked } } }, 8, .read, 0, (by decide +kernel), (by decide +kernel), (by decide +kernel)⟩,
   ⟨paOff, 8, .read, 0, (by decide +kernel), (by decide +kernel), (by decide +kernel)⟩,
   ⟨paOff, .read, 0, (by decide +kernel), (by decide +kernel)⟩,
   ⟨{ paRun with pa := { paRun.pa with pd := .replicate 9 { state := .waking } } }, 7, (by decide +kernel), (by decide +kernel), (by decide +kernel), (by decide +kernel)⟩,
   ⟨{ paRun with pa := { paRun.pa with pd := .replicate 9 { state := .waking } } }, 7, (by decide +kernel), (by decide +kernel), (by decide +kernel)⟩,
   ⟨paRun, 7, (by decide +kernel)⟩,
   ⟨{ paRun with pa := { paRun.pa with pd := .replicate 9 { state := .waking } } }, (by decide +kernel)⟩,
   ⟨paRun, (by decide +kernel)⟩⟩

theorem wit_PowerEventsTakeEffect_part2 :
    (∃ (s : State) (_r : BitVec 48), (s.pa.sleepReq.isSome = true) ∧ (s.pa.sleepStep = 0) ∧ (s.fb.running = false ∨ 1 ≤ ltDiff s.fb.frameLt s.pa.sleepAt)) ∧
    (∃ (s : State) (_r : BitVec 48), (s.pa.sleepReq = none ∨ s.pa.sleepStep ≠ 0 ∨ (s.fb.running = true ∧ ltDiff s.fb.frameLt s.pa.sleepAt < 1))) ∧
    (∃ (s : State) (r : BitVec 48) (w : Waiting) (m : BitVec 16) (a : BitVec 48), (s.pa.sleepReq = some (w, m, a)) ∧ (s.pa.sleepStep = 1) ∧ (s.pa.regLow = false) ∧ (r - s.pa.calRtc0 = 32768)) ∧
    (∃ (s : State) (r : BitVec 48) (w : Waiting) (m : BitVec 16) (a : BitVec 48), (s.pa.sleepReq = some (w, m, a)) ∧ (s.pa.sleepStep = 1) ∧ (s.pa.regLow = false) ∧ (r - s.pa.calRtc0 = 32768)) ∧
    (∃ (s : State) (r : BitVec 48), (s.pa.sleepReq = none ∨ s.pa.sleepStep ≠ 1 ∨ s.pa.regLow = true ∨ r - s.pa.calRtc0 ≠ 32768)) ∧
    (∃ (s : State) (r : BitVec 48), (alarmOf (setRtc r s) ≠ 0) ∧ ((alarmOf (setRtc r s)).toNat ≤ (setRtc r s).pa.rtc.toNat)) ∧
    (∃ (s : State) (r : BitVec 48), (alarmOf (setRtc r s) = 0 ∨ (setRtc r s).pa.rtc.toNat < (alarmOf (setRtc r s)).toNat)) ∧
    (∃ (s : State) (r : BitVec 48) (k : Fin 4), (vget (setRtc r s).pa.duiker.tamper k.val .off = .sampled)) ∧
    (∃ (s : State) (r : BitVec 48) (k : Fin 4) (_b : Bool), (vget (setRtc r s).pa.duiker.tamper k.val .off ≠ .sampled)) ∧
    (∃ (s : State) (r : BitVec 48) (k : Fin 4), (vget (setRtc r s).pa.duiker.tamper k.val .off = .static_)) ∧
    (∃ (s : State) (r : BitVec 48) (k : Fin 4), (vget (setRtc r s).pa.duiker.tamper k.val .off ≠ .static_)) ∧
    (∃ (s : State) (c : Nat), (s.pa.power = .asleep) ∧ (maskHas s.pa.ret.sleepMask c = true)) :=
  ⟨⟨paSleepy, 1, (by decide +kernel), (by decide +kernel), (by decide +kernel)⟩,
   ⟨paRun, 1, (by decide +kernel)⟩,
   ⟨{ paSleepy with pa := { paSleepy.pa with sleepStep := 1 } }, 32768, {}, 3, 100, (by decide +kernel), (by decide +kernel), (by decide +kernel), (by decide +kernel)⟩,
   ⟨{ paSleepy with pa := { paSleepy.pa with sleepStep := 1 } }, 32768, {}, 3, 100, (by decide +kernel), (by decide +kernel), (by decide +kernel), (by decide +kernel)⟩,
   ⟨paRun, 1, (by decide +kernel)⟩,
   ⟨paSleepy, 100, (by decide +kernel), (by decide +kernel)⟩,
   ⟨paSleepy, 99, (by decide +kernel)⟩,
   ⟨{ paRun with pa := { paRun.pa with duiker := { tamper := .replicate 4 .sampled } } }, 1, 3, (by decide +kernel)⟩,
   ⟨paRun, 1, 3, true, (by decide +kernel)⟩,
   ⟨{ paRun with pa := { paRun.pa with duiker := { tamper := .replicate 4 .static_ } } }, 1, 3, (by decide +kernel)⟩,
   ⟨paRun, 1, 3, (by decide +kernel)⟩,
   ⟨{ paSleepy with pa := { paSleepy.pa with power := .asleep, ret := { sleepMask := 2 } } }, 2, (by decide +kernel), (by decide +kernel)⟩⟩

theorem wit_PowerEventsTakeEffect_part3 :
    (∃ (s : State) (c : Nat), (s.pa.power = .asleep) ∧ (maskHas s.pa.ret.sleepMask c = false)) ∧
    (∃ (s : State) (_c : Nat) (w : Waiting) (m : BitVec 16) (a : BitVec 48), (s.pa.power = .running) ∧ (s.pa.sleepReq = some (w, m, a))) ∧
    (∃ (s : State) (_c : Nat), (s.pa.power = .standby)) ∧
    (∃ (s : State), (s.pa.power ≠ .running ∨ s.pa.pwrOk = false)) ∧
    (∃ (s : State), (s.pa.power = .running) ∧ (s.pa.pwrOk = true)) ∧
    (∃ (s : State) (c : SupplyCause), (s.pa.regLow = true) ∧ (c = .vbat ∨ c = .currentLimit)) ∧
    (∃ (s : State) (c : SupplyCause), (s.pa.regLow = false ∨ (c ≠ .vbat ∧ c ≠ .currentLimit))) ∧
    (∃ (s : State) (c : SupplyCause), (s.pa.power = .running) ∧ (c = .core ∨ c = .sram ∨ c = .serdes ∨ (c = .io ∧ s.pa.pwrOk = true))) ∧
    (∃ (s : State), (s.pa.power = .running) ∧ (s.pa.pwrOk = true)) ∧
    (∃ (s : State) (c : SupplyCause), (s.pa.power ≠ .running ∨ c = .vbat ∨ c = .currentLimit ∨ ((c = .io ∨ c = .pwrOk) ∧ s.pa.pwrOk = false))) ∧
    (∃ (s : State) (r : BitVec 48), ((setRtc r s).pa.power = .running) ∧ (60 ≤ ((setRtc r s).pa.opsecs - (setRtc r s).pa.opsecsMram).toNat)) ∧
    (∃ (s : State) (r : BitVec 48), ((setRtc r s).pa.power ≠ .running ∨ ((setRtc r s).pa.opsecs - (setRtc r s).pa.opsecsMram).toNat < 60)) :=
  ⟨⟨{ paSleepy with pa := { paSleepy.pa with power := .asleep } }, 2, (by decide +kernel), (by decide +kernel)⟩,
   ⟨paSleepy, 2, {}, 3, 100, (by decide +kernel), (by decide +kernel)⟩,
   ⟨{ up with pa := { up.pa with power := .standby } }, 2, (by decide +kernel)⟩,
   ⟨{ paRun with pa := { paRun.pa with pwrOk := false } }, (by decide +kernel)⟩,
   ⟨paRun, (by decide +kernel), (by decide +kernel)⟩,
   ⟨{ paRun with pa := { paRun.pa with regLow := true } }, .currentLimit, (by decide +kernel), (by decide +kernel)⟩,
   ⟨paRun, .io, (by decide +kernel)⟩,
   ⟨paRun, .io, (by decide +kernel), (by decide +kernel)⟩,
   ⟨paRun, (by decide +kernel), (by decide +kernel)⟩,
   ⟨paRun, .vbat, (by decide +kernel)⟩,
   ⟨paRun, 0x200000, (by decide +kernel), (by decide +kernel)⟩,
   ⟨paRun, 5, (by decide +kernel)⟩⟩

theorem wit_StartUpPhases_part1 :
    (∃ (s : State) (r : BitVec 48), ((setRtc r s).pa.pwrOk = false)) ∧
    (∃ (s : State) (r : BitVec 48), ((setRtc r s).pa.pwrOk = true)) ∧
    (∃ (s : State) (_a _b : Option (List Byte)), (phaseDue 1 [] s = true)) ∧
    (∃ (s : State) (_a _b : Option (List Byte)), (phaseDue 1 [] s = false)) ∧
    (∃ (s : State) (_r : BitVec 48), (phaseDue 2 [1] s = true) ∧ (s.pa.slept = false)) ∧
    (∃ (s : State) (r : BitVec 48), (phaseDue 2 [1] s = true) ∧ (((setRtc r s).pa.slept && retGood (setRtc r s).pa.ret 3 && retGood (setRtc r s).pa.ret 1 && retGood (setRtc r s).pa.ret 2) = true)) ∧
    (∃ (s : State) (r : BitVec 48), (phaseDue 2 [1] s = true) ∧ (((setRtc r s).pa.slept && retGood (setRtc r s).pa.ret 3 && retGood (setRtc r s).pa.ret 1 && retGood (setRtc r s).pa.ret 2) = false)) ∧
    (∃ (s : State) (_r : BitVec 48), (phaseDue 2 [1] s = false)) ∧
    (∃ (s : State), (phaseDue 3 [2] s = true)) ∧
    (∃ (s : State) (_b : Bool), (phaseDue 3 [2] s = false)) ∧
    (∃ (s : State) (_l : List (Fin 1024 × Fin 13)), (phaseDue 4 [3] s = true)) ∧
    (∃ (s : State) (_l : List (Fin 1024 × Fin 13)), (phaseDue 4 [3] s = false)) :=
  ⟨⟨{ paRun with pa := { paRun.pa with pwrOk := false } }, 0, (by decide +kernel)⟩,
   ⟨paRun, 0, (by decide +kernel)⟩,
   ⟨paStart 0, none, none, (by decide +kernel)⟩,
   ⟨paStart 2, none, none, (by decide +kernel)⟩,
   ⟨paStart 2, 1, (by decide +kernel), (by decide +kernel)⟩,
   ⟨{ paStart 2 with pa := { (paStart 2).pa with slept := true, ret := { valid := [1, 2, 3] } } }, 1, (by decide +kernel), (by decide +kernel)⟩,
   ⟨paStart 2, 1, (by decide +kernel), (by decide +kernel)⟩,
   ⟨up, 1, (by decide +kernel)⟩,
   ⟨paStart 6, (by decide +kernel)⟩,
   ⟨up, true, (by decide +kernel)⟩,
   ⟨paStart 0xE, [(3, 12)], (by decide +kernel)⟩,
   ⟨up, [], (by decide +kernel)⟩⟩

theorem wit_StartUpPhases_part2 :
    (∃ (s : State) (_h : Bool), (phaseDue 5 [4] s = true) ∧ (s.pa.noPackage = false)) ∧
    (∃ (s : State) (h : Bool), (phaseDue 5 [4] s = true) ∧ (s.pa.noPackage = false) ∧ (((bootCandidates h s).find? (fun x => (packageRefusal s x.1).isNone)) = none)) ∧
    (∃ (s : State) (_h : Bool), (phaseDue 5 [4] s = false ∨ s.pa.noPackage = true)) ∧
    (∃ (s : State), (phaseDue 6 [4, 5] s = true)) ∧
    (∃ (s : State), (phaseDue 6 [4, 5] s = true)) ∧
    (∃ (s : State), (phaseDue 6 [4, 5] s = false)) ∧
    (∃ (s : State), (phaseDue 7 [5] s = true)) ∧
    (∃ (s : State), (phaseDue 7 [5] s = false)) ∧
    (∃ (s : State) (t : LT), (s.se.lockTimeoutAt = some t) ∧ (ltReached s.now t = true)) ∧
    (∃ (s : State), (s.se.lockTimeoutAt.all (fun t => !ltReached s.now t) = true)) ∧
    (∃ (s : State), (phaseDue 11 [6, 8, 9, 10] s = true) ∧ (s.fb.running = true) ∧ (0 ≤ ltDiff s.fb.frameLt s.pa.lastEnd)) ∧
    (∃ (s : State), (phaseDue 11 [6, 8, 9, 10] s = false ∨ s.fb.running = false ∨ ltDiff s.fb.frameLt s.pa.lastEnd < 0)) :=
  ⟨⟨paStart 0x1E, true, (by decide +kernel), (by decide +kernel)⟩,
   ⟨paStart 0x1E, true, (by decide +kernel), (by decide +kernel), (by decide +kernel)⟩,
   ⟨up, true, (by decide +kernel)⟩,
   ⟨paStart 0x3E, (by decide +kernel)⟩,
   ⟨paStart 0x3E, (by decide +kernel)⟩,
   ⟨up, (by decide +kernel)⟩,
   ⟨paStart 0x3E, (by decide +kernel)⟩,
   ⟨up, (by decide +kernel)⟩,
   ⟨{ paRun with se := { paRun.se with lockTimeoutAt := some 0 } }, 0, (by decide +kernel), (by decide +kernel)⟩,
   ⟨up, (by decide +kernel)⟩,
   ⟨{ paStart 0x7FE with fb := { up.fb with running := true } }, (by decide +kernel), (by decide +kernel), (by decide +kernel)⟩,
   ⟨up, (by decide +kernel)⟩⟩

theorem wit_BoardLogAndScrubbing_part1 :
    (∃ (s : State) (_a : BitVec 7) (_d : BitVec 8) (_n : BitVec 3) (_p _f : Bool), (s.glob.ready = true) ∧ (s.pmb.busy = false)) ∧
    (∃ (s : State) (_a : BitVec 7) (_d : BitVec 8) (_n : BitVec 3) (_p _f : Bool), (s.glob.ready = false ∨ s.pmb.busy = true)) ∧
    (∃ (s : State) (_n : Bool) (_d : List Byte), (s.pmb.busy = true)) ∧
    (∃ (s : State), (s.pmb.busy = true)) ∧
    (∃ (s : State) (_n : Bool) (_d : List Byte), (s.pmb.busy = false)) ∧
    (∃ (s : State), (s.glob.ready = true)) ∧
    (∃ (s : State), (s.glob.ready = false)) ∧
    (∃ (s : State), (s.glob.ready = true) ∧ (s.log.clearing = false) ∧ (loggedRunning s = false)) ∧
    (∃ (s : State) (v : BitVec 32), (s.glob.ready = true) ∧ (v ≠ logNewest s ∨ s.log.clearing = true ∨ loggedRunning s = true)) ∧
    (∃ (s : State) (_v : BitVec 32), (s.glob.ready = false)) ∧
    (∃ (s : State), (s.log.clearing = true)) ∧
    (∃ (s : State), (s.log.clearing = false)) :=
  ⟨⟨up, 0x7F, 1, 4, true, true, (by decide +kernel), (by decide +kernel)⟩,
   ⟨State.reset, 0x7F, 1, 4, true, true, (by decide +kernel)⟩,
   ⟨{ up with pmb := { busy := true, read := true } }, false, [1], (by decide +kernel)⟩,
   ⟨{ up with pmb := { busy := true } }, (by decide +kernel)⟩,
   ⟨up, true, [], (by decide +kernel)⟩,
   ⟨up, (by decide +kernel)⟩,
   ⟨State.reset, (by decide +kernel)⟩,
   ⟨up, (by decide +kernel), (by decide +kernel), (by decide +kernel)⟩,
   ⟨up, 5, (by decide +kernel), (by decide +kernel)⟩,
   ⟨State.reset, 5, (by decide +kernel)⟩,
   ⟨{ up with log := { up.log with clearing := true, recs := [{}] } }, (by decide +kernel)⟩,
   ⟨up, (by decide +kernel)⟩⟩

theorem wit_BoardLogAndScrubbing_part2 :
    (∃ (s : State) (r : LogRec) (l : List LogRec), (s.log.clearing = false) ∧ (s.log.pendingRecs = r :: l)) ∧
    (∃ (s : State), (s.log.clearing = true ∨ s.log.pendingRecs = [])) ∧
    (∃ (s : State) (r : Fin 16) (n : Fin 9) (_k : Nat) (_w : ScrubWord) (_u : WordUse), (scrubs r.val n.val s = true)) ∧
    (∃ (s : State) (r : Fin 16) (n : Fin 9) (_k : Nat) (w : ScrubWord) (_u : WordUse), (scrubs r.val n.val s = true) ∧ (guardJudge (mediumWord w) = .none)) ∧
    (∃ (s : State) (r : Fin 16) (n : Fin 9) (_k : Nat) (w : ScrubWord) (_u : WordUse) (i : Nat) (e : Byte), (scrubs r.val n.val s = true) ∧ (guardJudge (mediumWord w) = .corrected i e)) ∧
    (∃ (s : State) (r : Fin 16) (n : Fin 9) (_k : Nat) (w : ScrubWord) (_u : WordUse) (h : GuardHit), (scrubs r.val n.val s = true) ∧ (guardJudge (mediumWord w) = .uncorrectable h)) ∧
    (∃ (s : State) (r : Fin 16) (n : Fin 9) (_k : Nat) (_w : ScrubWord) (_u : WordUse), (scrubs r.val n.val s = false)) ∧
    (∃ (s : State) (_q : Nat), (s.glob.ready = true)) ∧
    (∃ (s : State) (_q : Nat) (_b : Bool), (s.glob.ready = false)) ∧
    (∃ (s : State), (s.jtag.trstN = false)) ∧
    (∃ (s : State) (p : TapPins) (l : List TapPins), (s.jtag.trstN = true) ∧ (s.jtag.drive = p :: l) ∧ (s.jtag.edgeAt + 40 * 65536 ≤ s.abs)) :=
  ⟨⟨{ up with log := { up.log with pendingRecs := [{}] } }, {}, [], (by decide +kernel), (by decide +kernel)⟩,
   ⟨up, (by decide +kernel)⟩,
   ⟨paRun, 11, 1, 4, (.symbols (.replicate 36 0)), .free, (by decide +kernel)⟩,
   ⟨paRun, 11, 1, 4, (.symbols (.replicate 36 0)), .free, (by decide +kernel), (by decide +kernel)⟩,
   ⟨paRun, 11, 1, 4, (.symbols ((Vector.replicate 36 0).set 3 7)), .free, 3, 7, (by decide +kernel), (by decide +kernel)⟩,
   ⟨paRun, 11, 1, 4, (.symbols (((Vector.replicate 36 0).set 3 7).set 5 9)), .free, _, (by decide +kernel), (by rfl)⟩,
   ⟨paRun, 8, 1, 4, (.symbols (.replicate 36 0)), .free, (by decide +kernel)⟩,
   ⟨up, 0, (by decide +kernel)⟩,
   ⟨State.reset, 0, true, (by decide +kernel)⟩,
   ⟨{ up with jtag := { up.jtag with trstN := false } }, (by decide +kernel)⟩,
   ⟨{ paRun with jtag := { up.jtag with trstN := true, drive := [{}] } }, {}, [], (by decide +kernel), (by decide +kernel), (by decide +kernel)⟩⟩

theorem wit_GuardWordsAreCorrected :
    (∃ (_d : Vector Byte 32) (_t : Byte) (_i : Fin 36) (e : Byte), (e ≠ 0)) ∧
    (∃ (_d : Vector Byte 32) (_t : Byte) (i j : Fin 36) (e f : Byte), (i ≠ j) ∧ (e ≠ 0) ∧ (f ≠ 0)) :=
  ⟨⟨.replicate 32 0, 5, 32, 2, (by decide)⟩,
   ⟨.replicate 32 0, 5, 0, 35, 1, 255, (by decide), (by decide), (by decide)⟩⟩

end
end

section
/-! Frames. `outside l s` is what stands outside the parts `l` of a state, so that a meaning changes nothing but those parts exactly where it
leaves `outside l` as it is: an equation, which composes. For every operation `f` over the state the lemma `f_outside` says that it leaves what
stands outside any list that holds the parts it reaches; `simp` uses them, with the membership facts `hp`, from the outermost operation in. -/

namespace Sys2Proof.Machine

/-- What stands outside the parts of a list: the state with those parts put to a fixed value. -/
def outside (l : List Part) (s : State) : State where
  tb := if .tb ∈ l then {} else s.tb
  su := if .su ∈ l then {} else s.su
  px := if .px ∈ l then {} else s.px
  sw := if .sw ∈ l then {} else s.sw
  qm := if .qm ∈ l then {} else s.qm
  se := if .se ∈ l then {} else s.se
  fr := if .fr ∈ l then {} else s.fr
  pe := if .pe ∈ l then {} else s.pe
  ar := if .ar ∈ l then {} else s.ar
  fb := if .fb ∈ l then {} else s.fb
  ps := if .ps ∈ l then {} else s.ps
  fo := if .fo ∈ l then {} else s.fo
  mi := if .mi ∈ l then {} else s.mi
  kv := if .kv ∈ l then {} else s.kv
  im := if .im ∈ l then {} else s.im
  pa := if .pa ∈ l then {} else s.pa
  pmb := if .pmb ∈ l then {} else s.pmb
  jtag := if .jtag ∈ l then {} else s.jtag
  grd := if .grd ∈ l then {} else s.grd
  log := if .log ∈ l then {} else s.log
  ev := if .ev ∈ l then {} else s.ev
  glob := if .glob ∈ l then {} else s.glob
  free := if .free ∈ l then 0 else s.free
  out := if .out ∈ l then [] else s.out
  pending := s.pending

/-- A state leaves every part outside a list as another has it exactly where both are the same outside the list. -/
theorem sameBut_iff (l : List Part) (s t : State) : sameBut l s t ↔ outside l t = outside l s := by
  have part {α : Type} (p : Prop) [Decidable p] (d a b : α) : (if p then d else a) = (if p then d else b) ↔ (¬p → a = b) := by
    by_cases h : p <;> simp [h]
  simp only [sameBut, outside, State.mk.injEq, part]
  constructor
  · rintro ⟨tb, su, px, sw, qm, se, fr, pe, ar, fb, ps, fo, mi, kv, im, pa, pmb, jtag, grd, log, ev, glob, free, out, pending⟩
    exact ⟨tb, su, px, sw, qm, se, fr, pe, ar, fb, ps, fo, mi, kv, im, pa, pmb, jtag, grd, log, ev, glob, pending, free, out⟩
  · rintro ⟨tb, su, px, sw, qm, se, fr, pe, ar, fb, ps, fo, mi, kv, im, pa, pmb, jtag, grd, log, ev, glob, pending, free, out⟩
    exact ⟨tb, su, px, sw, qm, se, fr, pe, ar, fb, ps, fo, mi, kv, im, pa, pmb, jtag, grd, log, ev, glob, free, out, pending⟩

/-- What an answer leaves outside the parts of a list. -/
def outsideRes (l : List Part) : Res → Res
  | .next t => .next (outside l t)
  | .fault r => .fault r
  | .refused r => .refused r

/-- An answer that leaves what stands outside a list changes nothing but the parts of the list. -/
theorem sameBut_of_outsideRes {l : List Part} {r : Res} {s t : State} (h : outsideRes l r = .next (outside l s)) (ht : r = .next t) :
    sameBut l s t := by
  rw [ht] at h
  exact (sameBut_iff l s t).mpr (Host.Outcome.next.inj h)

section
variable {parts : List Part}

@[simp] theorem outsideRes_next (s : State) : outsideRes parts (.next s) = .next (outside parts s) := rfl

@[simp] theorem outsideRes_ite (p : Prop) [Decidable p] (a b : Res) :
    outsideRes parts (if p then a else b) = if p then outsideRes parts a else outsideRes parts b := apply_ite ..

@[simp] theorem outside_ite (p : Prop) [Decidable p] (s t : State) :
    outside parts (if p then s else t) = if p then outside parts s else outside parts t := apply_ite ..

@[simp] theorem outside_ite_fst {α : Type} (p : Prop) [Decidable p] (a b : State × α) :
    outside parts (if p then a else b).1 = if p then outside parts a.1 else outside parts b.1 := by split <;> rfl

@[simp] theorem outside_ite_snd {α : Type} (p : Prop) [Decidable p] (a b : α × State) :
    outside parts (if p then a else b).2 = if p then outside parts a.2 else outside parts b.2 := by split <;> rfl

/-- A list of changes each of which leaves what stands outside leaves it. -/
@[simp] theorem outside_foldl {α : Type} (f : State → α → State) (h : ∀ s a, outside parts (f s a) = outside parts s) (xs : List α) (s : State) :
    outside parts (xs.foldl f s) = outside parts s := by
  induction xs generalizing s with
  | nil => rfl
  | cons a xs ih => rw [List.foldl_cons, ih, h]

/-- The same for a list of changes that gathers something beside the state. -/
theorem outside_foldl_fst {α β : Type} (f : State × β → α → State × β) (h : ∀ a x, outside parts (f a x).1 = outside parts a.1) (xs : List α)
    (a : State × β) : outside parts (xs.foldl f a).1 = outside parts a.1 := by
  induction xs generalizing a with
  | nil => rfl
  | cons x xs ih => rw [List.foldl_cons, ih, h]

theorem outside_foldl_snd {α β : Type} (f : β × State → α → β × State) (h : ∀ a x, outside parts (f a x).2 = outside parts a.2) (xs : List α)
    (a : β × State) : outside parts (xs.foldl f a).2 = outside parts a.2 := by
  induction xs generalizing a with
  | nil => rfl
  | cons x xs ih => rw [List.foldl_cons, ih, h]

/-! ## One part replaced -/

@[simp] theorem outside_set_tb (h : .tb ∈ parts) (x : TbState) (s : State) : outside parts { s with tb := x } = outside parts s := by
  simp [outside, h]
@[simp] theorem outside_set_su (h : .su ∈ parts) (x : SuState) (s : State) : outside parts { s with su := x } = outside parts s := by
  simp [outside, h]
@[simp] theorem outside_set_px (h : .px ∈ parts) (x : PxState) (s : State) : outside parts { s with px := x } = outside parts s := by
  simp [outside, h]
@[simp] theorem outside_set_sw (h : .sw ∈ parts) (x : SwState) (s : State) : outside parts { s with sw := x } = outside parts s := by
  simp [outside, h]
@[simp] theorem outside_set_qm (h : .qm ∈ parts) (x : QmState) (s : State) : outside parts { s with qm := x } = outside parts s := by
  simp [outside, h]
@[simp] theorem outside_set_se (h : .se ∈ parts) (x : SeState) (s : State) : outside parts { s with se := x } = outside parts s := by
  simp [outside, h]
@[simp] theorem outside_set_fr (h : .fr ∈ parts) (x : FrState) (s : State) : outside parts { s with fr := x } = outside parts s := by
  simp [outside, h]
@[simp] theorem outside_set_pe (h : .pe ∈ parts) (x : PeState) (s : State) : outside parts { s with pe := x } = outside parts s := by
  simp [outside, h]
@[simp] theorem outside_set_ar (h : .ar ∈ parts) (x : ArState) (s : State) : outside parts { s with ar := x } = outside parts s := by
  simp [outside, h]
@[simp] theorem outside_set_fb (h : .fb ∈ parts) (x : FbState) (s : State) : outside parts { s with fb := x } = outside parts s := by
  simp [outside, h]
@[simp] theorem outside_set_ps (h : .ps ∈ parts) (x : PsState) (s : State) : outside parts { s with ps := x } = outside parts s := by
  simp [outside, h]
@[simp] theorem outside_set_fo (h : .fo ∈ parts) (x : FoState) (s : State) : outside parts { s with fo := x } = outside parts s := by
  simp [outside, h]
@[simp] theorem outside_set_mi (h : .mi ∈ parts) (x : MiState) (s : State) : outside parts { s with mi := x } = outside parts s := by
  simp [outside, h]
@[simp] theorem outside_set_kv (h : .kv ∈ parts) (x : KvState) (s : State) : outside parts { s with kv := x } = outside parts s := by
  simp [outside, h]
@[simp] theorem outside_set_im (h : .im ∈ parts) (x : ImState) (s : State) : outside parts { s with im := x } = outside parts s := by
  simp [outside, h]
@[simp] theorem outside_set_pa (h : .pa ∈ parts) (x : PaState) (s : State) : outside parts { s with pa := x } = outside parts s := by
  simp [outside, h]
@[simp] theorem outside_set_pmb (h : .pmb ∈ parts) (x : Pmbus) (s : State) : outside parts { s with pmb := x } = outside parts s := by
  simp [outside, h]
@[simp] theorem outside_set_jtag (h : .jtag ∈ parts) (x : Jtag) (s : State) : outside parts { s with jtag := x } = outside parts s := by
  simp [outside, h]
@[simp] theorem outside_set_grd (h : .grd ∈ parts) (x : GuardState) (s : State) : outside parts { s with grd := x } = outside parts s := by
  simp [outside, h]
@[simp] theorem outside_set_log (h : .log ∈ parts) (x : LogState) (s : State) : outside parts { s with log := x } = outside parts s := by
  simp [outside, h]
@[simp] theorem outside_set_ev (h : .ev ∈ parts) (x : EvState) (s : State) : outside parts { s with ev := x } = outside parts s := by
  simp [outside, h]
@[simp] theorem outside_set_glob (h : .glob ∈ parts) (x : Glob) (s : State) : outside parts { s with glob := x } = outside parts s := by
  simp [outside, h]
@[simp] theorem outside_set_free (h : .free ∈ parts) (x : Nat) (s : State) : outside parts { s with free := x } = outside parts s := by
  simp [outside, h]
@[simp] theorem outside_set_out (h : .out ∈ parts) (x : List Out) (s : State) : outside parts { s with out := x } = outside parts s := by
  simp [outside, h]

@[simp] theorem onTb_outside (h : .tb ∈ parts) (f : TbState → TbState) (s : State) : outside parts (onTb f s) = outside parts s :=
  outside_set_tb h _ s
@[simp] theorem onSu_outside (h : .su ∈ parts) (f : SuState → SuState) (s : State) : outside parts (onSu f s) = outside parts s :=
  outside_set_su h _ s
@[simp] theorem onPx_outside (h : .px ∈ parts) (f : PxState → PxState) (s : State) : outside parts (onPx f s) = outside parts s :=
  outside_set_px h _ s
@[simp] theorem onSw_outside (h : .sw ∈ parts) (f : SwState → SwState) (s : State) : outside parts (onSw f s) = outside parts s :=
  outside_set_sw h _ s
@[simp] theorem onQm_outside (h : .qm ∈ parts) (f : QmState → QmState) (s : State) : outside parts (onQm f s) = outside parts s :=
  outside_set_qm h _ s
@[simp] theorem onSe_outside (h : .se ∈ parts) (f : SeState → SeState) (s : State) : outside parts (onSe f s) = outside parts s :=
  outside_set_se h _ s
@[simp] theorem onFr_outside (h : .fr ∈ parts) (f : FrState → FrState) (s : State) : outside parts (onFr f s) = outside parts s :=
  outside_set_fr h _ s
@[simp] theorem onPe_outside (h : .pe ∈ parts) (f : PeState → PeState) (s : State) : outside parts (onPe f s) = outside parts s :=
  outside_set_pe h _ s
@[simp] theorem onAr_outside (h : .ar ∈ parts) (f : ArState → ArState) (s : State) : outside parts (onAr f s) = outside parts s :=
  outside_set_ar h _ s
@[simp] theorem onFb_outside (h : .fb ∈ parts) (f : FbState → FbState) (s : State) : outside parts (onFb f s) = outside parts s :=
  outside_set_fb h _ s
@[simp] theorem onPs_outside (h : .ps ∈ parts) (f : PsState → PsState) (s : State) : outside parts (onPs f s) = outside parts s :=
  outside_set_ps h _ s
@[simp] theorem onFo_outside (h : .fo ∈ parts) (f : FoState → FoState) (s : State) : outside parts (onFo f s) = outside parts s :=
  outside_set_fo h _ s
@[simp] theorem onMi_outside (h : .mi ∈ parts) (f : MiState → MiState) (s : State) : outside parts (onMi f s) = outside parts s :=
  outside_set_mi h _ s
@[simp] theorem onKv_outside (h : .kv ∈ parts) (f : KvState → KvState) (s : State) : outside parts (onKv f s) = outside parts s :=
  outside_set_kv h _ s
@[simp] theorem onIm_outside (h : .im ∈ parts) (f : ImState → ImState) (s : State) : outside parts (onIm f s) = outside parts s :=
  outside_set_im h _ s
@[simp] theorem onPa_outside (h : .pa ∈ parts) (f : PaState → PaState) (s : State) : outside parts (onPa f s) = outside parts s :=
  outside_set_pa h _ s
@[simp] theorem onPmb_outside (h : .pmb ∈ parts) (f : Pmbus → Pmbus) (s : State) : outside parts (onPmb f s) = outside parts s :=
  outside_set_pmb h _ s
@[simp] theorem onGrd_outside (h : .grd ∈ parts) (f : GuardState → GuardState) (s : State) : outside parts (onGrd f s) = outside parts s :=
  outside_set_grd h _ s
@[simp] theorem onLog_outside (h : .log ∈ parts) (f : LogState → LogState) (s : State) : outside parts (onLog f s) = outside parts s :=
  outside_set_log h _ s
@[simp] theorem onEv_outside (h : .ev ∈ parts) (f : EvState → EvState) (s : State) : outside parts (onEv f s) = outside parts s :=
  outside_set_ev h _ s
@[simp] theorem onGlob_outside (h : .glob ∈ parts) (f : Glob → Glob) (s : State) : outside parts (onGlob f s) = outside parts s :=
  outside_set_glob h _ s

@[simp] theorem emit_outside (h : .out ∈ parts) (o : Out) (s : State) : outside parts (emit o s) = outside parts s := outside_set_out h _ s

@[simp] theorem draw_outside (h : .free ∈ parts) (s : State) : outside parts (draw s).2 = outside parts s := outside_set_free h _ s

@[simp] theorem drawInt_outside (h : .free ∈ parts) (s : State) : outside parts (drawInt s).2 = outside parts s := outside_set_free h _ s

/-! ## What Ops leaves -/

@[simp] theorem limited_outside (hp : [.ev] ⊆ parts) (kind key interval n s) :
    outside parts (limited kind key interval n s).2 = outside parts s := by
  simp at hp
  simp [limited, hp]

@[simp] theorem logRec_outside (hp : [.log] ⊆ parts) (type source owner lt arg0 arg1 s) :
    outside parts (logRec type source owner lt arg0 arg1 s) = outside parts s := by
  simp at hp
  simp [logRec, hp]

@[simp] theorem sendMsix_outside (hp : [.im, .out] ⊆ parts) (v s) :
    outside parts (sendMsix v s) = outside parts s := by
  simp at hp
  simp [sendMsix, hp]

@[simp] theorem freshCycle_outside (hp : [.ev] ⊆ parts) (s) :
    outside parts (freshCycle s) = outside parts s := by
  simp at hp
  simp [freshCycle, hp]

@[simp] theorem eventMsix_outside (hp : [.im, .ev, .out] ⊆ parts) (v s) :
    outside parts (eventMsix v s) = outside parts s := by
  simp at hp
  simp [eventMsix, hp]

@[simp] theorem setMgrBit_outside (hp : [.im, .ev, .out] ⊆ parts) (n s) :
    outside parts (setMgrBit n s) = outside parts s := by
  simp at hp
  simp [setMgrBit, hp]

@[simp] theorem setInstBit_outside (hp : [.im, .ev, .out] ⊆ parts) (n i s) :
    outside parts (setInstBit n i s) = outside parts s := by
  simp at hp
  simp [setInstBit, hp]

@[simp] theorem clearEvents_outside (hp : [.ev] ⊆ parts) (o m s) :
    outside parts (clearEvents o m s) = outside parts s := by
  simp at hp
  simp [clearEvents, hp]

@[simp] theorem routeEvent_outside (hp : [.im, .ev, .out] ⊆ parts) (n tag s) :
    outside parts (routeEvent n tag s) = outside parts s := by
  simp at hp
  simp [routeEvent, hp]

/-! ## What Flags leaves -/

@[simp] theorem raiseArg_outside (hp : [.im, .log, .ev, .out] ⊆ parts) (n tag arg1 s) :
    outside parts (raiseArg n tag arg1 s) = outside parts s := by
  simp at hp
  simp [raiseArg, hp]

@[simp] theorem raise_outside (hp : [.im, .log, .ev, .out] ⊆ parts) (n tag s) :
    outside parts (raise n tag s) = outside parts s := by
  simp at hp
  simp [raise, hp]

/-! ## What DomainOps leaves -/

@[simp] theorem modPd_outside (hp : [.pa] ⊆ parts) (n f s) :
    outside parts (modPd n f s) = outside parts s := by
  simp at hp
  simp [modPd, hp]

@[simp] theorem lockRefused_outside (hp : [.im, .pa, .log, .ev, .out] ⊆ parts) (n s) :
    outside parts (lockRefused n s) = outside parts s := by
  simp at hp
  simp [lockRefused, hp]

@[simp] theorem wakeOne_outside (hp : [.pa] ⊆ parts) (access n s) :
    outside parts (wakeOne access n s) = outside parts s := by
  simp at hp
  simp [wakeOne, hp]

@[simp] theorem wakeDomain_outside (hp : [.pa] ⊆ parts) (access n s) :
    outside parts (wakeDomain access n s) = outside parts s := by
  simp at hp
  simp [wakeDomain, hp]

@[simp] theorem commandAccess_outside (hp : [.im, .pa, .log, .ev, .out] ⊆ parts) (n s) :
    outside parts (commandAccess n s).1 = outside parts s := by
  simp at hp
  unfold commandAccess
  split <;> simp [hp]

@[simp] theorem opAccess_outside (hp : [.im, .pa, .log, .ev, .out] ⊆ parts) (op s) :
    outside parts (opAccess op s).1 = outside parts s := by
  simp at hp
  unfold opAccess
  split <;> simp [hp]

/-! ## What Command leaves -/

@[simp] theorem putRing_outside (hp : [.su] ⊆ parts) (s r x) :
    outside parts (putRing s r x) = outside parts s := by
  simp at hp
  unfold putRing
  split <;> simp [hp]

@[simp] theorem apertureHit_outside (hp : [.im, .log, .ev, .out] ⊆ parts) (i s) :
    outside parts (apertureHit i s) = outside parts s := by
  simp at hp
  simp [apertureHit, hp]

@[simp] theorem postReply_outside (hp : [.im, .log, .ev, .out] ⊆ parts) (w r e s) :
    outside parts (postReply w r e s) = outside parts s := by
  simp at hp
  simp [postReply, hp]

@[simp] theorem writeReply_outside (hp : [.su, .im, .log, .ev, .out] ⊆ parts) (w b s) :
    outside parts (writeReply w b s) = outside parts s := by
  simp at hp
  unfold writeReply
  split <;> simp [hp]

@[simp] theorem finishDestroy_outside (hp : [.su] ⊆ parts) (ring s) :
    outside parts (finishDestroy ring s) = outside parts s := by
  simp at hp
  unfold finishDestroy
  split <;> simp [hp]

@[simp] theorem sendReply_outside (hp : [.su, .im, .log, .ev, .out] ⊆ parts) (w b s) :
    outside parts (sendReply w b s) = outside parts s := by
  simp at hp
  simp [sendReply, hp]

@[simp] theorem releaseReplies_outside (hp : [.su, .im, .log, .ev, .out] ⊆ parts) (n s) :
    outside parts (releaseReplies n s) = outside parts s := by
  simp at hp
  induction n generalizing s with
  | zero => rfl
  | succ n ih =>
    unfold releaseReplies
    split <;> simp [ih, hp]

@[simp] theorem putSession_outside (hp : [.su] ⊆ parts) (s o x) :
    outside parts (putSession s o x) = outside parts s := by
  simp at hp
  simp [putSession, hp]

@[simp] theorem firmwareFault_outside (hp : [.su, .im, .log, .ev, .glob, .out] ⊆ parts) (o s) :
    outside parts (firmwareFault o s) = outside parts s := by
  simp at hp
  simp [firmwareFault, hp]

@[simp] theorem placeReply_outside (hp : [.su, .im, .log, .ev, .out] ⊆ parts) (w b s) :
    outside parts (placeReply w b s) = outside parts s := by
  simp at hp
  simp [placeReply, hp]

@[simp] theorem reply_outside (hp : [.su, .im, .log, .ev, .glob, .out] ⊆ parts) (w b s) :
    outside parts (reply w b s) = outside parts s := by
  simp at hp
  simp [reply, hp]

@[simp] theorem outstanding_outside (hp : [.su] ⊆ parts) (w s) :
    outside parts (outstanding w s) = outside parts s := by
  simp at hp
  simp [outstanding, hp]

@[simp] theorem begun_outside (hp : [.su] ⊆ parts) (c s) :
    outside parts (begun c s) = outside parts s := by
  simp at hp
  unfold begun
  split <;> simp [hp]

@[simp] theorem byCommand_subset :
    byCommand ⊆ parts ↔ .su ∈ parts ∧ .im ∈ parts ∧ .pa ∈ parts ∧ .log ∈ parts ∧ .ev ∈ parts ∧ .glob ∈ parts ∧ .out ∈ parts := by
  simp [byCommand]

/-- A command reaches its reply, its domain, the log and the events, and what its body reaches (R65, R539, R626). -/
@[simp] theorem commandWith_outside (hp : byCommand ⊆ parts) (op o c s pre) {body : State → State × Option ReplyBody}
    (hb : ∀ u, outside parts (body u).1 = outside parts u) : outsideRes parts (commandWith op o c s pre body) = .next (outside parts s) := by
  simp at hp
  unfold commandWith
  have ha := opAccess_outside (parts := parts) (by simp [hp]) op.toNat (begun c s)
  split
  · rfl
  · dsimp only
    split
    · simp [hp]
    · split
      · simp [hp]
      · split
        · simp [hp]
        · split
          next u b he => rw [he] at ha; simpa [hp] using ha
          next u he =>
            have hu := hb u
            rw [he] at ha
            split <;> next v _ hv => rw [hv] at hu; simpa [hp, hu] using ha

@[simp] theorem command_outside (hp : byCommand ⊆ parts) (op o c s) {body : State → State × Option ReplyBody}
    (hb : ∀ u, outside parts (body u).1 = outside parts u) : outsideRes parts (command op o c s body) = .next (outside parts s) :=
  commandWith_outside hp op o c s _ hb

@[simp] theorem answer_outside (hp : byCommand ⊆ parts) (op o c s b) : outsideRes parts (answer op o c s b) = .next (outside parts s) :=
  command_outside hp op o c s fun _ => rfl

/-- A staged command changes its session alone (R79–R81). -/
@[simp] theorem stage_outside (hp : byCommand ⊆ parts) (op o c items check s) :
    outsideRes parts (stage op o c items check s) = .next (outside parts s) := by
  refine commandWith_outside hp op o c s _ fun u => ?_
  simp at hp
  dsimp only
  split
  · rfl
  · simp [hp]

/-- A multi-part command reaches what its parts reach (R89). -/
@[simp] theorem multipart_outside (mask) {part : Nat → State → State × Status × List Byte} (s)
    (hb : ∀ n u, outside parts (part n u).1 = outside parts u) : outside parts (multipart mask part s).1 = outside parts s := by
  have fold (ns : List Nat) (a : State × List Nat × Option Status × List Byte) :
      outside parts (ns.foldl (fun a n => match part n a.1 with
        | (s', .ok, bs) => (s', a.2.1 ++ [n], a.2.2.1, a.2.2.2 ++ bs)
        | (s', e, _) => (s', a.2.1, some (a.2.2.1.getD e), a.2.2.2)) a).1 = outside parts a.1 := by
    induction ns generalizing a with
    | nil => rfl
    | cons n ns ih =>
      have hn := hb n a.1
      rw [List.foldl_cons, ih]
      split <;> next h => rw [h] at hn; exact hn
  unfold multipart
  split
  · rfl
  · dsimp only
    split <;> exact fold ..

@[simp] theorem multi_outside (hp : byCommand ⊆ parts) (op o c mask) {part : Nat → State → State × Status × List Byte} (s)
    (hb : ∀ n u, outside parts (part n u).1 = outside parts u) : outsideRes parts (multi op o c mask part s) = .next (outside parts s) :=
  command_outside hp op o c s fun u => multipart_outside mask u hb

/-! ## What TimeOps leaves -/

@[simp] theorem modTcu_outside (hp : [.tb] ⊆ parts) (n f s) :
    outside parts (modTcu n f s) = outside parts s := by
  simp at hp
  simp [modTcu, hp]

@[simp] theorem fireTcu_outside (hp : [.tb] ⊆ parts) (n s) :
    outside parts (fireTcu n s) = outside parts s := by
  simp at hp
  simp [fireTcu, hp]

@[simp] theorem armPin_outside (hp : [.tb] ⊆ parts) (k s) :
    outside parts (armPin k s) = outside parts s := by
  simp at hp
  simp [armPin, hp]

@[simp] theorem armCnv_outside (hp : [.tb] ⊆ parts) (k s) :
    outside parts (armCnv k s) = outside parts s := by
  simp at hp
  simp [armCnv, hp]

@[simp] theorem armGrid_outside (hp : [.tb] ⊆ parts) (s) :
    outside parts (armGrid s) = outside parts s := by
  simp at hp
  simp [armGrid, hp]

@[simp] theorem armTai_outside (hp : [.tb] ⊆ parts) (s) :
    outside parts (armTai s) = outside parts s := by
  simp at hp
  simp [armTai, hp]

@[simp] theorem accountLocked_outside (hp : [.tb] ⊆ parts) (s) :
    outside parts (accountLocked s) = outside parts s := by
  simp at hp
  simp [accountLocked, hp]

@[simp] theorem setServo_outside (hp : [.tb, .im, .log, .ev, .out] ⊆ parts) (x s) :
    outside parts (setServo x s) = outside parts s := by
  simp at hp
  simp [setServo, hp]

@[simp] theorem selectSource_outside (hp : [.tb, .im, .log, .ev, .out] ⊆ parts) (x s) :
    outside parts (selectSource x s) = outside parts s := by
  simp at hp
  simp [selectSource, hp]

@[simp] theorem sourceQualified_outside (hp : [.tb, .im, .log, .ev, .out] ⊆ parts) (s) :
    outside parts (sourceQualified s) = outside parts s := by
  simp at hp
  simp [sourceQualified, hp]

@[simp] theorem sourceLost_outside (hp : [.tb] ⊆ parts) (s) :
    outside parts (sourceLost s) = outside parts s := by
  simp at hp
  simp [sourceLost, hp]

/-! ## What TimeBase leaves -/

@[simp] theorem recordEdge_outside (hp : [.tb, .im, .log, .ev, .out] ⊆ parts) (n t s) :
    outside parts (recordEdge n t s) = outside parts s := by
  simp at hp
  simp [recordEdge, hp]

@[simp] theorem captureEdge_outside (hp : [.tb, .im, .log, .ev, .out] ⊆ parts) (n t rising s) :
    outside parts (captureEdge n t rising s) = outside parts s := by
  simp at hp
  simp [captureEdge, hp]

@[simp] theorem setPin_outside (hp : [.tb, .im, .log, .ev, .out] ⊆ parts) (k level t fall s) :
    outside parts (setPin k level t fall s) = outside parts s := by
  simp at hp
  unfold setPin
  dsimp only
  split <;> simp [hp]

@[simp] theorem execPinOutputFire_outside (hp : [.tb, .im, .log, .ev, .out] ⊆ parts) (k s) :
    outsideRes parts (execPinOutputFire k s) = .next (outside parts s) := by
  simp at hp
  simp [execPinOutputFire, hp]

@[simp] theorem execPulseEnd_outside (hp : [.tb, .im, .log, .ev, .out] ⊆ parts) (k s) :
    outsideRes parts (execPulseEnd k s) = .next (outside parts s) := by
  simp at hp
  unfold execPulseEnd
  split <;> simp [hp]

@[simp] theorem execAnchorAdvance_outside (hp : [.tb, .mi] ⊆ parts) (s) :
    outsideRes parts (execAnchorAdvance s) = .next (outside parts s) := by
  simp at hp
  simp [execAnchorAdvance, hp]

@[simp] theorem setMapping_outside (hp : [.tb] ⊆ parts) (srcTai s) :
    outside parts (setMapping srcTai s) = outside parts s := by
  simp at hp
  simp [setMapping, hp]

@[simp] theorem timeStep_outside (hp : [.tb, .im, .log, .ev, .out] ⊆ parts) (srcTai s) :
    outside parts (timeStep srcTai s) = outside parts s := by
  simp at hp
  simp [timeStep, hp]

@[simp] theorem firstMapping_outside (hp : [.tb] ⊆ parts) (srcTai s) :
    outside parts (firstMapping srcTai s) = outside parts s := by
  simp at hp
  simp [firstMapping, hp]

@[simp] theorem reachLocked_outside (hp : [.tb, .im, .log, .ev, .out] ⊆ parts) (s) :
    outside parts (reachLocked s) = outside parts s := by
  simp at hp
  simp [reachLocked, hp]

@[simp] theorem servoJudge_outside (hp : [.tb, .im, .log, .ev, .out] ⊆ parts) (f s) :
    outside parts (servoJudge f s) = outside parts s := by
  simp at hp
  unfold servoJudge
  dsimp only
  split <;> simp [hp]

@[simp] theorem takeMeasured_outside (hp : [.tb] ⊆ parts) (s) :
    outside parts (takeMeasured s) = outside parts s := by
  simp at hp
  simp [takeMeasured, hp]

@[simp] theorem execServoUpdate_outside (hp : [.tb, .im, .log, .ev, .free, .out] ⊆ parts) (s) :
    outsideRes parts (execServoUpdate s) = .next (outside parts s) := by
  simp at hp
  unfold execServoUpdate
  split <;> simp [hp]

@[simp] theorem execLossTimeout_outside (hp : [.tb, .im, .log, .ev, .out] ⊆ parts) (s) :
    outsideRes parts (execLossTimeout s) = .next (outside parts s) := by
  simp at hp
  unfold execLossTimeout
  dsimp only
  repeat' split
  all_goals simp [hp]

@[simp] theorem runBmca_outside (hp : [.tb, .im, .log, .ev, .out] ⊆ parts) (s) :
    outside parts (runBmca s) = outside parts s := by
  simp at hp
  simp [runBmca, hp]

@[simp] theorem setUtc_outside (hp : [.tb] ⊆ parts) (off leap61 leap59 s) :
    outside parts (setUtc off leap61 leap59 s) = outside parts s := by
  simp at hp
  simp [setUtc, hp]

@[simp] theorem takeUtc_outside (hp : [.tb] ⊆ parts) (a s) :
    outside parts (takeUtc a s) = outside parts s := by
  simp at hp
  simp [takeUtc, hp]

@[simp] theorem execSourceLost_outside (hp : [.tb, .im, .log, .ev, .out] ⊆ parts) (s) :
    outsideRes parts (execSourceLost s) = .next (outside parts s) := by
  simp at hp
  simp [execSourceLost, hp]

@[simp] theorem execCaptureEdge_outside (hp : [.tb, .im, .log, .ev, .out] ⊆ parts) (n t rising pulse s) :
    outsideRes parts (execCaptureEdge n t rising pulse s) = .next (outside parts s) := by
  simp at hp
  simp [execCaptureEdge, hp]

@[simp] theorem irigFault_outside (hp : [.tb, .im, .log, .ev, .out] ⊆ parts) (missing s) :
    outside parts (irigFault missing s) = outside parts s := by
  simp at hp
  unfold irigFault
  extract_lets n tb irig u
  have hu : outside parts u = outside parts s := (raise_outside (by simp [hp]) ..).trans (outside_set_tb hp.1 ..)
  have hq : outside parts { u with tb := { u.tb with irig := { u.tb.irig with qualified := false } } } = outside parts s :=
    (outside_set_tb hp.1 ..).trans hu
  split
  · split
    · exact (sourceLost_outside (by simp [hp]) _).trans hq
    · exact hq
  · exact hu

@[simp] theorem irigUtc_outside (hp : [.tb] ⊆ parts) (f s) :
    outside parts (irigUtc f s) = outside parts s := by
  simp at hp
  unfold irigUtc
  dsimp only
  repeat' split
  all_goals simp [hp]

@[simp] theorem execIrigFrame_outside (hp : [.tb, .im, .log, .ev, .out] ⊆ parts) (f s) :
    outsideRes parts (execIrigFrame f s) = .next (outside parts s) := by
  simp at hp
  unfold execIrigFrame
  split <;> simp [hp]

@[simp] theorem answerRead_outside (hp : [.out] ⊆ parts) (rq v s) :
    outside parts (answerRead rq v s) = outside parts s := by
  simp at hp
  simp [answerRead, hp]

@[simp] theorem readRs_outside (hp : [.im, .out] ⊆ parts) (rq off v wide s) :
    outside parts (readRs rq off v wide s) = outside parts s := by
  simp at hp
  simp [readRs, hp]

@[simp] theorem hostRead_outside (hp : .out ∈ parts) (rq) {f : State → State} (s) (hf : ∀ u, outside parts (f u) = outside parts u) :
    outsideRes parts (hostRead rq f s) = .next (outside parts s) := by
  simp [hostRead, hf, hp]

@[simp] theorem captureTake_outside (hp : [.tb] ⊆ parts) (n s) :
    outside parts (captureTake n s).2 = outside parts s := by
  simp at hp
  simp [captureTake, hp]

@[simp] theorem execCapturePop_outside (hp : [.tb, .im, .out] ⊆ parts) (rq n wide s) :
    outsideRes parts (execCapturePop rq n wide s) = .next (outside parts s) := by
  simp at hp
  simp [execCapturePop, hp]

@[simp] theorem txtsDrop_outside (hp : [.tb] ⊆ parts) (p s) :
    outside parts (txtsDrop p s) = outside parts s := by
  simp at hp
  simp [txtsDrop, hp]

@[simp] theorem execTxtsPop_outside (hp : [.tb, .out] ⊆ parts) (rq p wide s) :
    outsideRes parts (execTxtsPop rq p wide s) = .next (outside parts s) := by
  simp at hp
  simp [execTxtsPop, hp]

@[simp] theorem txtsEnter_outside (hp : [.tb, .im, .log, .ev, .out] ⊆ parts) (p e s) :
    outside parts (txtsEnter p e s) = outside parts s := by
  simp at hp
  simp [txtsEnter, hp]

@[simp] theorem execLtNowRead_outside (hp : [.im, .out] ⊆ parts) (rq wide s) :
    outsideRes parts (execLtNowRead rq wide s) = .next (outside parts s) := by
  simp at hp
  simp [execLtNowRead, hp]

@[simp] theorem execRsUpperRead_outside (hp : [.out] ⊆ parts) (rq off s) :
    outsideRes parts (execRsUpperRead rq off s) = .next (outside parts s) := by
  simp at hp
  simp [execRsUpperRead, hp]

@[simp] theorem execTbStagePtp_outside (hp : [.su, .im, .pa, .log, .ev, .glob, .out] ⊆ parts) (c x s) :
    outsideRes parts (execTbStagePtp c x s) = .next (outside parts s) := by
  simp at hp
  simp [execTbStagePtp, hp]

@[simp] theorem execTbStageSources_outside (hp : [.su, .im, .pa, .log, .ev, .glob, .out] ⊆ parts) (c x s) :
    outsideRes parts (execTbStageSources c x s) = .next (outside parts s) := by
  simp at hp
  simp [execTbStageSources, hp]

@[simp] theorem execTbStagePortLat_outside (hp : [.su, .im, .pa, .log, .ev, .glob, .out] ⊆ parts) (c l s) :
    outsideRes parts (execTbStagePortLat c l s) = .next (outside parts s) := by
  simp at hp
  simp [execTbStagePortLat, hp]

@[simp] theorem execTbStagePins_outside (hp : [.su, .im, .pa, .log, .ev, .glob, .out] ⊆ parts) (c x s) :
    outsideRes parts (execTbStagePins c x s) = .next (outside parts s) := by
  simp at hp
  simp [execTbStagePins, hp]

@[simp] theorem execTbStageTcuAssign_outside (hp : [.su, .im, .pa, .log, .ev, .glob, .out] ⊆ parts) (c l s) :
    outsideRes parts (execTbStageTcuAssign c l s) = .next (outside parts s) := by
  simp at hp
  simp [execTbStageTcuAssign, hp]

@[simp] theorem execTbReadTime_outside (hp : [.su, .im, .pa, .log, .ev, .glob, .out] ⊆ parts) (c s) :
    outsideRes parts (execTbReadTime c s) = .next (outside parts s) := by
  simp at hp
  simp [execTbReadTime, hp]

/-! ## What Board leaves -/

@[simp] theorem execThermTrip_outside (hp : [.glob] ⊆ parts) (s) :
    outsideRes parts (execThermTrip s) = .next (outside parts s) := by
  simp at hp
  simp [execThermTrip, hp]

@[simp] theorem execThermTripNHigh_outside (hp : [.glob] ⊆ parts) (s) :
    outsideRes parts (execThermTripNHigh s) = .next (outside parts s) := by
  simp at hp
  simp [execThermTripNHigh, hp]

@[simp] theorem pmbSettings_outside (hp : [.pmb] ⊆ parts) (addr cmd read len pec fast s) :
    outside parts (pmbSettings addr cmd read len pec fast s) = outside parts s := by
  simp at hp
  simp [pmbSettings, hp]

@[simp] theorem pmbStart_outside (hp : [.pmb, .out] ⊆ parts) (s) :
    outside parts (pmbStart s) = outside parts s := by
  simp at hp
  simp [pmbStart, hp]

@[simp] theorem execPmbusWrite_outside (hp : [.pmb, .out] ⊆ parts) (addr cmd len pec fast s) :
    outsideRes parts (execPmbusWrite addr cmd len pec fast s) = .next (outside parts s) := by
  simp at hp
  simp [execPmbusWrite, hp]

@[simp] theorem execPmbusRead_outside (hp : [.pmb, .out] ⊆ parts) (addr cmd len pec fast s) :
    outsideRes parts (execPmbusRead addr cmd len pec fast s) = .next (outside parts s) := by
  simp at hp
  simp [execPmbusRead, hp]

@[simp] theorem execPmbusDone_outside (hp : [.pmb] ⊆ parts) (nack data s) :
    outsideRes parts (execPmbusDone nack data s) = .next (outside parts s) := by
  simp at hp
  simp [execPmbusDone, hp]

@[simp] theorem execPmbusTimeout_outside (hp : [.pmb] ⊆ parts) (s) :
    outsideRes parts (execPmbusTimeout s) = .next (outside parts s) := by
  simp at hp
  simp [execPmbusTimeout, hp]

@[simp] theorem execBorClearWrite_outside (hp : [.pa] ⊆ parts) (s) :
    outsideRes parts (execBorClearWrite s) = .next (outside parts s) := by
  simp at hp
  simp [execBorClearWrite, hp]

/-! ## What GuardOps leaves -/

@[simp] theorem modRegion_outside (hp : [.grd] ⊆ parts) (r f s) :
    outside parts (modRegion r f s) = outside parts s := by
  simp at hp
  simp [modRegion, hp]

@[simp] theorem errorRecord_outside (hp : [.grd] ⊆ parts) (e s) :
    outside parts (errorRecord e s) = outside parts s := by
  simp at hp
  simp [errorRecord, hp]

@[simp] theorem memoryGuardEvent_outside (hp : [.im, .log, .ev, .out] ⊆ parts) (s) :
    outside parts (memoryGuardEvent s) = outside parts s := by
  simp at hp
  simp [memoryGuardEvent, hp]

@[simp] theorem guardUncorrectable_outside (hp : [.im, .grd, .log, .ev, .out] ⊆ parts) (r source reqTag h s) :
    outside parts (guardUncorrectable r source reqTag h s) = outside parts s := by
  simp at hp
  simp [guardUncorrectable, hp]

@[simp] theorem guardCorrected_outside (hp : [.im, .grd, .log, .ev, .out] ⊆ parts) (r s) :
    outside parts (guardCorrected r s) = outside parts s := by
  simp at hp
  simp [guardCorrected, hp]

@[simp] theorem guardRead_outside (hp : [.im, .grd, .log, .ev, .out] ⊆ parts) (r g s) :
    outside parts (guardRead r g s).2 = outside parts s := by
  simp at hp
  unfold guardRead
  split <;> simp [hp]

@[simp] theorem guardReads_outside (hp : [.im, .grd, .log, .ev, .out] ⊆ parts) (r l s) :
    outside parts (guardReads r l s).2 = outside parts s := by
  refine outside_foldl_snd _ (fun a e => ?_) _ _
  have h := guardRead_outside hp r (some e.2) a.2
  split <;> next he => rw [he] at h; exact h

@[simp] theorem tagRefused_outside (hp : [.grd] ⊆ parts) (r s) :
    outside parts (tagRefused r s) = outside parts s := by
  simp at hp
  simp [tagRefused, hp]

/-! ## What ReadyOps leaves -/

@[simp] theorem markPhase_outside (hp : [.pa] ⊆ parts) (p stamp s) :
    outside parts (markPhase p stamp s) = outside parts s := by
  simp at hp
  simp [markPhase, hp]

@[simp] theorem phaseTen_outside (hp : [.pa] ⊆ parts) (s) :
    outside parts (phaseTen s) = outside parts s := by
  simp at hp
  simp [phaseTen, hp]

@[simp] theorem readiness_outside (hp : [.im, .pa, .log, .ev, .out] ⊆ parts) (s) :
    outside parts (readiness s) = outside parts s := by
  simp at hp
  simp [readiness, hp]

/-! ## What FailoverOps leaves -/

@[simp] theorem sendBrx_outside (hp : [.fo, .out] ⊆ parts) (mk s) :
    outside parts (sendBrx mk s) = outside parts s := by
  simp at hp
  simp [sendBrx, hp]

@[simp] theorem setGates_outside (hp : [.fo] ⊆ parts) (s) :
    outside parts (setGates s) = outside parts s := by
  simp at hp
  simp [setGates, hp]

@[simp] theorem phaseEight_outside (hp : [.fo, .pa] ⊆ parts) (s) :
    outside parts (phaseEight s) = outside parts s := by
  simp at hp
  simp [phaseEight, hp]

@[simp] theorem setRole_outside (hp : [.fo, .im, .pa, .log, .ev, .out] ⊆ parts) (r s) :
    outside parts (setRole r s) = outside parts s := by
  simp at hp
  simp [setRole, hp]

@[simp] theorem raiseEMem_outside (hp : [.fo, .im, .log, .ev, .out] ⊆ parts) (e s) :
    outside parts (raiseEMem e s) = outside parts s := by
  simp at hp
  simp [raiseEMem, hp]

@[simp] theorem seeClaim_outside (hp : [.fo, .im, .log, .ev, .out] ⊆ parts) (c s) :
    outside parts (seeClaim c s) = outside parts s := by
  simp at hp
  simp [seeClaim, hp]

@[simp] theorem formClaim_outside (hp : [.fo, .im, .pa, .log, .ev, .out] ⊆ parts) (takeover s) :
    outside parts (formClaim takeover s) = outside parts s := by
  simp at hp
  simp [formClaim, hp]

@[simp] theorem relinquish_outside (hp : [.fo, .im, .pa, .log, .ev, .out] ⊆ parts) (reason r s) :
    outside parts (relinquish reason r s) = outside parts s := by
  simp at hp
  simp [relinquish, hp]

@[simp] theorem yieldClaim_outside (hp : [.fo, .im, .pa, .log, .ev, .out] ⊆ parts) (s) :
    outside parts (yieldClaim s) = outside parts s := by
  simp at hp
  simp [yieldClaim, hp]

@[simp] theorem actOnTrigger_outside (hp : [.fo, .im, .pa, .log, .ev, .out] ⊆ parts) (s) :
    outside parts (actOnTrigger s) = outside parts s := by
  simp at hp
  simp [actOnTrigger, hp]

@[simp] theorem triggerPresent_outside (hp : [.fo, .im, .pa, .log, .ev, .out] ⊆ parts) (n s) :
    outside parts (triggerPresent n s) = outside parts s := by
  simp at hp
  simp [triggerPresent, hp]

@[simp] theorem setTrigger_outside (hp : [.fo, .im, .pa, .log, .ev, .out] ⊆ parts) (b enabled s) :
    outside parts (setTrigger b enabled s) = outside parts s := by
  simp at hp
  simp [setTrigger, hp]

@[simp] theorem foGuardError_outside (hp : [.fo, .im, .pa, .log, .ev, .out] ⊆ parts) (s) :
    outside parts (foGuardError s) = outside parts s := by
  simp at hp
  simp [foGuardError, hp]

@[simp] theorem foOverrun_outside (hp : [.fo, .im, .pa, .log, .ev, .out] ⊆ parts) (s) :
    outside parts (foOverrun s) = outside parts s := by
  simp at hp
  simp [foOverrun, hp]

@[simp] theorem gatePush_outside (hp : [.fo] ⊆ parts) (q stream n s) :
    outside parts (gatePush q stream n s) = outside parts s := by
  simp at hp
  simp [gatePush, hp]

@[simp] theorem gatePop_outside (hp : [.fo] ⊆ parts) (q s) :
    outside parts (gatePop q s).2 = outside parts s := by
  simp at hp
  unfold gatePop
  split <;> simp [hp]

/-! ## What PointOps leaves -/

@[simp] theorem noteBinary_outside (hp : [.ar] ⊆ parts) (src at_ level pulse s) :
    outside parts (noteBinary src at_ level pulse s) = outside parts s := by
  simp at hp
  simp [noteBinary, hp]

@[simp] theorem notePoint_outside (hp : [.ar] ⊆ parts) (i s) :
    outside parts (notePoint i s) = outside parts s := by
  simp at hp
  unfold notePoint
  split <;> simp [hp]

@[simp] theorem pointDenied_outside (hp : [.ps] ⊆ parts) (s) :
    outside parts (pointDenied s) = outside parts s := by
  simp at hp
  simp [pointDenied, hp]

@[simp] theorem readDenied_outside (hp : [.ps, .grd] ⊆ parts) (s) :
    outside parts (readDenied s) = outside parts s := by
  simp at hp
  simp [readDenied, hp]

@[simp] theorem gooseNote_outside (hp : [.se] ⊆ parts) (i t s) :
    outside parts (gooseNote i t s) = outside parts s := by
  simp at hp
  simp [gooseNote, hp]

@[simp] theorem gooseDetect_outside (hp : .se ∈ parts) (i t before after) :
    outside parts (gooseDetect i t before after) = outside parts after := by
  simp [gooseDetect, hp]

@[simp] theorem showWrite_outside (hp : [.se, .ar, .ps] ⊆ parts) (w s) : outside parts (showWrite w s) = outside parts s := by
  simp at hp
  unfold showWrite
  split
  · rfl
  · dsimp only
    split <;> simp [hp]

@[simp] theorem writePoint_outside (hp : [.se, .ar, .ps] ⊆ parts) (w s) :
    outside parts (writePoint w s) = outside parts s := by
  simp at hp
  simp [writePoint, hp]

@[simp] theorem applyBatch_outside (hp : [.se, .ar, .ps] ⊆ parts) (b s) :
    outside parts (applyBatch b s) = outside parts s := by
  simp at hp
  simp [applyBatch, hp]

@[simp] theorem cabFresh_outside (hp : [.fo] ⊆ parts) (b s) : outside parts (cabFresh b s) = outside parts s := by
  simp at hp
  refine outside_foldl _ (fun u w => ?_) _ _
  split <;> simp [hp]

@[simp] theorem offerBatch_outside (hp : [.ps] ⊆ parts) (b s) :
    outside parts (offerBatch b s) = outside parts s := by
  simp at hp
  simp [offerBatch, hp]

@[simp] theorem sendBatch_outside (hp : [.ps] ⊆ parts) (src l s) :
    outside parts (sendBatch src l s) = outside parts s := by
  simp at hp
  simp [sendBatch, hp]

@[simp] theorem offerHeld_outside (hp : [.ps] ⊆ parts) (s) :
    outside parts (offerHeld s) = outside parts s := by
  simp at hp
  simp [offerHeld, hp]

@[simp] theorem dropBatches_outside (hp : [.ps] ⊆ parts) (p s) :
    outside parts (dropBatches p s) = outside parts s := by
  simp at hp
  simp [dropBatches, hp]

@[simp] theorem applyOutput_outside (hp : [.se, .ar, .ps] ⊆ parts) (l s) :
    outside parts (applyOutput l s) = outside parts s := by
  simp at hp
  simp [applyOutput, hp]

@[simp] theorem dropForce_outside (hp : [.ps] ⊆ parts) (i s) :
    outside parts (dropForce i s) = outside parts s := by
  simp at hp
  unfold dropForce
  split <;> simp [hp]

@[simp] theorem bumpSeq_outside (hp : [.ps] ⊆ parts) (i s) :
    outside parts (bumpSeq i s) = outside parts s := by
  simp at hp
  unfold bumpSeq
  split <;> simp [hp]

@[simp] theorem storeGuard_outside (hp : [.ps, .fo, .im, .pa, .log, .ev, .out] ⊆ parts) (o s) :
    outside parts (storeGuard o s) = outside parts s := by
  simp at hp
  simp [storeGuard, hp]

@[simp] theorem pointBad_outside (hp : [.ps, .fo, .im, .pa, .log, .ev, .out] ⊆ parts) (i s) :
    outside parts (pointBad i s) = outside parts s := by
  simp at hp
  unfold pointBad
  split <;> simp [hp]

@[simp] theorem forceBad_outside (hp : [.ar, .ps, .fo, .im, .pa, .log, .ev, .out] ⊆ parts) (i s) :
    outside parts (forceBad i s) = outside parts s := by
  simp at hp
  unfold forceBad
  split <;> simp [hp]

@[simp] theorem pointGuards_outside (hp : [.ar, .ps, .fo, .im, .pa, .grd, .log, .ev, .out] ⊆ parts) (o l forces s) :
    outside parts (pointGuards o l forces s) = outside parts s := by
  simp at hp
  simp [pointGuards, hp]

/-! ## What TahrOps leaves -/

@[simp] theorem modEng_outside (hp : [.fb] ⊆ parts) (e f s) :
    outside parts (modEng e f s) = outside parts s := by
  simp at hp
  simp [modEng, hp]

@[simp] theorem modTask_outside (hp : [.fb] ⊆ parts) (o t f s) :
    outside parts (modTask o t f s) = outside parts s := by
  simp at hp
  simp [modTask, hp]

@[simp] theorem modCl_outside (hp : [.fb] ⊆ parts) (k f s) :
    outside parts (modCl k f s) = outside parts s := by
  simp at hp
  simp [modCl, hp]

@[simp] theorem countCycle_outside (hp : [.fb] ⊆ parts) (e cyc elapsed s) :
    outside parts (countCycle e cyc elapsed s) = outside parts s := by
  simp at hp
  simp [countCycle, hp]

@[simp] theorem stepDone_outside (hp : [.fb, .im, .log, .ev, .out] ⊆ parts) (o s) :
    outside parts (stepDone o s) = outside parts s := by
  simp at hp
  simp [stepDone, hp]

@[simp] theorem faultLimit_outside (hp : [.fb, .fo, .im, .pa, .log, .ev, .out] ⊆ parts) (o t s) :
    outside parts (faultLimit o t s) = outside parts s := by
  simp at hp
  unfold faultLimit
  dsimp only
  split <;> simp [hp]

@[simp] theorem serveReads_outside (hp : [.su, .fb, .im, .log, .ev, .glob, .out] ⊆ parts) (s) :
    outside parts (serveReads s) = outside parts s := by
  simp at hp
  simp [serveReads, hp]

@[simp] theorem countUnsent_outside (hp : [.fb] ⊆ parts) (k n s) :
    outside parts (countUnsent k n s) = outside parts s := by
  simp at hp
  simp [countUnsent, hp]

@[simp] theorem taskFault_outside (hp : [.su, .fb, .fo, .im, .pa, .log, .ev, .glob, .out] ⊆ parts) (e cyc code addr pc instr elapsed s) :
    outside parts (taskFault e cyc code addr pc instr elapsed s) = outside parts s := by
  simp at hp
  simp [taskFault, hp]

/-! ## What CycleOps leaves -/

@[simp] theorem skipTask_outside (hp : [.fb, .im, .log, .ev, .out] ⊆ parts) (o t s) :
    outside parts (skipTask o t s) = outside parts s := by
  simp at hp
  simp [skipTask, hp]

@[simp] theorem releaseTask_outside (hp : [.fb, .im, .log, .ev, .out] ⊆ parts) (o t inst cycLt s) :
    outside parts (releaseTask o t inst cycLt s) = outside parts s := by
  simp at hp
  simp [releaseTask, hp]

@[simp] theorem releasePeriodic_outside (hp : [.fb, .im, .log, .ev, .out] ⊆ parts) (t s) :
    outside parts (releasePeriodic t s) = outside parts s := by
  simp at hp
  simp [releasePeriodic, hp]

@[simp] theorem releaseSample_outside (hp : [.fb, .im, .log, .ev, .out] ⊆ parts) (g k tag s) :
    outside parts (releaseSample g k tag s) = outside parts s := by
  simp at hp
  simp [releaseSample, hp]

@[simp] theorem releaseTimed_outside (hp : [.fb, .im, .log, .ev, .out] ⊆ parts) (u o target s) :
    outside parts (releaseTimed u o target s) = outside parts s := by
  simp at hp
  simp [releaseTimed, hp]

@[simp] theorem closeWindow_outside (hp : [.su, .fb, .fo, .im, .pa, .log, .ev, .glob, .out] ⊆ parts) (e s) :
    outside parts (closeWindow e s) = outside parts s := by
  simp at hp
  unfold closeWindow
  dsimp only
  repeat' split
  all_goals simp [hp]

@[simp] theorem closeDue_outside (hp : [.su, .fb, .fo, .im, .pa, .log, .ev, .glob, .out] ⊆ parts) (s) :
    outside parts (closeDue s) = outside parts s := by
  simp at hp
  simp [closeDue, hp]

@[simp] theorem openWindows_outside (hp : [.fb] ⊆ parts) (n s) : outside parts (openWindows n s) = outside parts s := by
  simp at hp
  refine outside_foldl _ (fun u e => ?_) _ _
  split <;> simp [hp]

@[simp] theorem dropLate_outside (hp : [.fo] ⊆ parts) (b s) :
    outside parts (dropLate b s) = outside parts s := by
  simp at hp
  simp [dropLate, hp]

@[simp] theorem startFrame_outside (hp : [.su, .fb, .fo, .im, .pa, .log, .ev, .glob, .out] ⊆ parts) (b s) :
    outside parts (startFrame b s) = outside parts s := by
  simp at hp
  simp [startFrame, hp]

@[simp] theorem loseRelease_outside (hp : [.fb, .im, .log, .ev, .out] ⊆ parts) (o t inst s) :
    outside parts (loseRelease o t inst s) = outside parts s := by
  simp at hp
  simp [loseRelease, hp]

@[simp] theorem cutFrame_outside (hp : [.tb, .su, .fb, .fo, .im, .pa, .log, .ev, .glob, .out] ⊆ parts) (g t s) :
    outside parts (cutFrame g t s) = outside parts s := by
  simp at hp
  simp only [cutFrame, startFrame_outside, onFb_outside, modTcu_outside, hp, List.cons_subset, List.nil_subset, and_self]
  refine (outside_foldl _ (fun u n => outside_foldl _ (fun v k => ?_) _ _) _ _).trans ?_ <;> simp [hp]

@[simp] theorem armFrames_outside (hp : [.tb] ⊆ parts) (s) :
    outside parts (armFrames s) = outside parts s := by
  simp at hp
  simp [armFrames, hp]

@[simp] theorem loadEngine_outside (hp : [.fb] ⊆ parts) (e s) :
    outside parts (loadEngine e s) = outside parts s := by
  simp at hp
  simp [loadEngine, hp]

@[simp] theorem reloadOwner_outside (hp : [.fb] ⊆ parts) (o s) : outside parts (reloadOwner o s) = outside parts s := by
  simp at hp
  refine outside_foldl _ (fun u e => outside_foldl _ (fun v x => ?_) _ _) _ _
  simp [hp]

@[simp] theorem modOwnerTasks_outside (hp : [.fb] ⊆ parts) (o f s) :
    outside parts (modOwnerTasks o f s) = outside parts s := by
  simp at hp
  simp [modOwnerTasks, hp]

@[simp] theorem stopInvalidate_outside (hp : [.se, .ar, .ps] ⊆ parts) (o t s) :
    outside parts (stopInvalidate o t s) = outside parts s := by
  simp at hp
  simp [stopInvalidate, hp]

@[simp] theorem setRun_outside (hp : [.fb, .im, .log, .ev, .out] ⊆ parts) (o st' reason t s) :
    outside parts (setRun o st' reason t s) = outside parts s := by
  simp at hp
  simp [setRun, hp]

@[simp] theorem runCold_outside (hp : [.fb, .im, .log, .ev, .out] ⊆ parts) (o reason t s) :
    outside parts (runCold o reason t s) = outside parts s := by
  simp at hp
  simp [runCold, hp]

/-! ## What QueueOps leaves -/

@[simp] theorem modQ_outside (hp : [.qm] ⊆ parts) (q f s) :
    outside parts (modQ q f s) = outside parts s := by
  simp at hp
  simp [modQ, hp]

@[simp] theorem openPacket_outside (hp : [.qm] ⊆ parts) (q o header s) :
    outside parts (openPacket q o header s).1 = outside parts s := by
  simp at hp
  simp [openPacket, hp]

@[simp] theorem rewindOpen_outside (hp : [.qm] ⊆ parts) (q hw s) :
    outside parts (rewindOpen q hw s) = outside parts s := by
  simp at hp
  simp [rewindOpen, hp]

@[simp] theorem writeUnit_outside (hp : [.qm] ⊆ parts) (q bytes s) :
    outside parts (writeUnit q bytes s) = outside parts s := by
  simp at hp
  unfold writeUnit
  split <;> simp [hp]

@[simp] theorem endPacket_outside (hp : [.qm, .pa] ⊆ parts) (q s) :
    outside parts (endPacket q s).1 = outside parts s := by
  simp at hp
  unfold endPacket
  dsimp only
  repeat' split
  all_goals simp [hp]

@[simp] theorem sendPacket_outside (hp : [.qm, .pa] ⊆ parts) (q o header payload s) :
    outside parts (sendPacket q o header payload s).1 = outside parts s := by
  simp at hp
  have h := openPacket_outside (parts := parts) (by simp [hp]) q o header s
  unfold sendPacket
  split <;> next he => rw [he] at h; simpa [hp] using h

@[simp] theorem releaseQ_outside (hp : [.qm] ⊆ parts) (q s) :
    outside parts (releaseQ q s) = outside parts s := by
  simp at hp
  simp [releaseQ, hp]

@[simp] theorem flushQ_outside (hp : [.qm, .fo] ⊆ parts) (q s) :
    outside parts (flushQ q s) = outside parts s := by
  simp at hp
  simp [flushQ, hp]

@[simp] theorem takePacket_outside (hp : [.qm] ⊆ parts) (q s) :
    outside parts (takePacket q s).2 = outside parts s := by
  simp at hp
  simp [takePacket, hp]

@[simp] theorem queueGuard_outside (hp : [.qm, .fo, .im, .pa, .grd, .log, .ev, .out] ⊆ parts) (tag h s) :
    outside parts (queueGuard tag h s) = outside parts s := by
  simp at hp
  simp [queueGuard, hp]

@[simp] theorem epochDiscard_outside (hp : [.im] ⊆ parts) (o s) :
    outside parts (epochDiscard o s) = outside parts s := by
  simp at hp
  simp [epochDiscard, hp]

/-! ## What Cyclic leaves -/

@[simp] theorem majorFrame_outside (hp : [.tb, .su, .fb, .fo, .im, .pa, .log, .ev, .glob, .out] ⊆ parts) (s) :
    outside parts (majorFrame s) = outside parts s := by
  simp at hp
  simp [majorFrame, hp]

@[simp] theorem execMajorFrameStart_outside (hp : [.tb, .su, .fb, .fo, .im, .pa, .log, .ev, .glob, .out] ⊆ parts) (s) :
    outsideRes parts (execMajorFrameStart s) = .next (outside parts s) := by
  simp at hp
  simp [execMajorFrameStart, hp]

@[simp] theorem execBaseTick_outside (hp : [.tb, .su, .fb, .fo, .im, .pa, .log, .ev, .glob, .out] ⊆ parts) (s) :
    outsideRes parts (execBaseTick s) = .next (outside parts s) := by
  simp at hp
  simp [execBaseTick, hp]

@[simp] theorem execWindowEnd_outside (hp : [.su, .fb, .fo, .im, .pa, .log, .ev, .glob, .out] ⊆ parts) (e s) :
    outsideRes parts (execWindowEnd e s) = .next (outside parts s) := by
  simp at hp
  simp [execWindowEnd, hp]

@[simp] theorem importPoint_outside (hp : [.ps, .grd, .free] ⊆ parts) (o i s) :
    outside parts (importPoint o i s).2 = outside parts s := by
  simp at hp
  unfold importPoint
  split <;> simp [hp]

@[simp] theorem importAll_outside (hp : [.ps, .grd, .free] ⊆ parts) (o l s) :
    outside parts (importAll o l s).2 = outside parts s := by
  induction l generalizing s with
  | nil => rfl
  | cons i l ih => exact (ih _).trans (importPoint_outside hp o i s)

@[simp] theorem startCycle_outside (hp : [.fb, .ps, .grd, .free] ⊆ parts) (e o t s) :
    outside parts (startCycle e o t s) = outside parts s := by
  simp at hp
  simp [startCycle, hp]

@[simp] theorem execCycleStart_outside (hp : [.fb, .ps, .grd, .free] ⊆ parts) (e s) :
    outsideRes parts (execCycleStart e s) = .next (outside parts s) := by
  simp at hp
  unfold execCycleStart
  dsimp only
  repeat' split
  all_goals simp [hp]

@[simp] theorem execSnapshotDone_outside (hp : [.fb] ⊆ parts) (e s) :
    outsideRes parts (execSnapshotDone e s) = .next (outside parts s) := by
  simp at hp
  unfold execSnapshotDone
  split <;> simp [hp]

@[simp] theorem openSends_outside (hp : [.qm, .pa] ⊆ parts) (k o l s) :
    outside parts (openSends k o l s).2.2 = outside parts s := by
  induction l generalizing s with
  | nil => rfl
  | cons p l ih =>
    have h := (ih _).trans (sendPacket_outside hp (0x2C + 2 * k + bitN p.1) o (p.2.take 32) (p.2.drop 32) s)
    unfold openSends
    dsimp only
    split <;> exact h

@[simp] theorem execOutputWrite_outside (hp : [.qm, .se, .ar, .fb, .ps, .fo, .im, .pa, .log, .ev, .out] ⊆ parts) (e s) :
    outsideRes parts (execOutputWrite e s) = .next (outside parts s) := by
  simp at hp
  unfold execOutputWrite
  split <;> simp [hp]

@[simp] theorem applyRun_outside (hp : [.se, .ar, .fb, .ps, .im, .log, .ev, .out] ⊆ parts) (o c t s) :
    outside parts (applyRun o c t s) = outside parts s := by
  simp at hp
  unfold applyRun
  split <;> simp [hp]

@[simp] theorem execRunStateChange_outside (hp : [.su, .se, .ar, .fb, .ps, .im, .log, .ev, .glob, .out] ⊆ parts) (o s) :
    outsideRes parts (execRunStateChange o s) = .next (outside parts s) := by
  simp at hp
  unfold execRunStateChange
  dsimp only
  repeat' split
  all_goals simp [hp]

@[simp] theorem rxDrop_outside (hp : [.fb, .im, .log, .ev, .out] ⊆ parts) (k o s) :
    outside parts (rxDrop k o s) = outside parts s := by
  simp at hp
  simp [rxDrop, hp]

@[simp] theorem execInboxDispatch_outside (hp : [.qm, .fb, .fo, .im, .pa, .grd, .log, .ev, .out] ⊆ parts) (k odd guard s) :
    outsideRes parts (execInboxDispatch k odd guard s) = .next (outside parts s) := by
  simp at hp
  unfold execInboxDispatch
  dsimp only
  repeat' split
  all_goals simp [hp]

@[simp] theorem execEngineReloadDone_outside (hp : [.fb, .im, .pa, .log, .ev, .out] ⊆ parts) (k s) :
    outsideRes parts (execEngineReloadDone k s) = .next (outside parts s) := by
  simp at hp
  simp [execEngineReloadDone, hp]

/-! ## What FbCommands leaves -/

@[simp] theorem execFbStageCode_outside (hp : [.su, .im, .pa, .log, .ev, .glob, .out] ⊆ parts) (c raw s) :
    outsideRes parts (execFbStageCode c raw s) = .next (outside parts s) := by
  simp at hp
  unfold execFbStageCode
  split <;> simp [hp]

@[simp] theorem execFbStageRxmap_outside (hp : [.su, .im, .pa, .log, .ev, .glob, .out] ⊆ parts) (c l s) :
    outsideRes parts (execFbStageRxmap c l s) = .next (outside parts s) := by
  simp at hp
  simp [execFbStageRxmap, hp]

@[simp] theorem execFbStageSchedule_outside (hp : [.su, .im, .pa, .log, .ev, .glob, .out] ⊆ parts) (c f l s) :
    outsideRes parts (execFbStageSchedule c f l s) = .next (outside parts s) := by
  simp at hp
  simp [execFbStageSchedule, hp]

@[simp] theorem execFbStageTasks_outside (hp : [.su, .im, .pa, .log, .ev, .glob, .out] ⊆ parts) (c o l own s) :
    outsideRes parts (execFbStageTasks c o l own s) = .next (outside parts s) := by
  simp at hp
  simp [execFbStageTasks, hp]

@[simp] theorem execFbStageRetain_outside (hp : [.su, .im, .pa, .log, .ev, .glob, .out] ⊆ parts) (c o l s) :
    outsideRes parts (execFbStageRetain c o l s) = .next (outside parts s) := by
  simp at hp
  simp [execFbStageRetain, hp]

@[simp] theorem execFbReadInst_outside (hp : [.su, .fb, .im, .pa, .grd, .log, .ev, .glob, .out] ⊆ parts) (c e a n s) :
    outsideRes parts (execFbReadInst c e a n s) = .next (outside parts s) := by
  simp at hp
  simp [execFbReadInst, hp]

@[simp] theorem execFbReadFault_outside (hp : [.su, .im, .pa, .log, .ev, .glob, .out] ⊆ parts) (c o e s) :
    outsideRes parts (execFbReadFault c o e s) = .next (outside parts s) := by
  simp at hp
  simp [execFbReadFault, hp]

@[simp] theorem partFbReadCounters_outside (hp : [.fb] ⊆ parts) (n s) :
    outside parts (partFbReadCounters n s).1 = outside parts s := by
  simp at hp
  simp [partFbReadCounters, hp]

@[simp] theorem execFbReadCounters_outside (hp : [.su, .fb, .im, .pa, .log, .ev, .glob, .out] ⊆ parts) (c mask s) :
    outsideRes parts (execFbReadCounters c mask s) = .next (outside parts s) := by
  simp at hp
  simp [execFbReadCounters, hp]

@[simp] theorem requestRun_outside (hp : [.fb] ⊆ parts) (op c o r s) :
    outside parts (requestRun op c o r s).1 = outside parts s := by
  simp at hp
  unfold requestRun
  dsimp only
  repeat' split
  all_goals simp [hp]

@[simp] theorem execRunWarm_outside (hp : [.su, .fb, .im, .pa, .log, .ev, .glob, .out] ⊆ parts) (c o s) :
    outsideRes parts (execRunWarm c o s) = .next (outside parts s) := by
  simp at hp
  simp [execRunWarm, hp]

@[simp] theorem execRunCold_outside (hp : [.su, .fb, .im, .pa, .log, .ev, .glob, .out] ⊆ parts) (c o s) :
    outsideRes parts (execRunCold c o s) = .next (outside parts s) := by
  simp at hp
  simp [execRunCold, hp]

@[simp] theorem execFbRunCtrlStop_outside (hp : [.su, .fb, .im, .pa, .log, .ev, .glob, .out] ⊆ parts) (c o s) :
    outsideRes parts (execFbRunCtrlStop c o s) = .next (outside parts s) := by
  simp at hp
  simp [execFbRunCtrlStop, hp]

@[simp] theorem execFbRunCtrlHold_outside (hp : [.su, .fb, .im, .pa, .log, .ev, .glob, .out] ⊆ parts) (c o s) :
    outsideRes parts (execFbRunCtrlHold c o s) = .next (outside parts s) := by
  simp at hp
  simp [execFbRunCtrlHold, hp]

@[simp] theorem execFbStep_outside (hp : [.su, .fb, .im, .pa, .log, .ev, .glob, .out] ⊆ parts) (c o t n s) :
    outsideRes parts (execFbStep c o t n s) = .next (outside parts s) := by
  simp at hp
  simp [execFbStep, hp]

@[simp] theorem execFbReadTasks_outside (hp : [.su, .im, .pa, .log, .ev, .glob, .out] ⊆ parts) (c o s) :
    outsideRes parts (execFbReadTasks c o s) = .next (outside parts s) := by
  simp at hp
  simp [execFbReadTasks, hp]

@[simp] theorem commitRegion_outside (hp : [.fb] ⊆ parts) (t changed old x s) :
    outside parts (commitRegion t changed old x s) = outside parts s := by
  simp at hp
  simp [commitRegion, hp]

@[simp] theorem fbCommit_outside (hp : [.tb, .su, .fb, .fo, .im, .pa, .log, .ev, .glob, .out] ⊆ parts) (t changed active s) :
    outside parts (fbCommit t changed active s) = outside parts s := by
  simp at hp
  unfold fbCommit
  dsimp only
  refine (outside_foldl _ (fun u o => ?_) _ _).trans ?_
  · simp [hp]
  · rw [onFb_outside (by simp [hp]), onFb_outside (by simp [hp])]
    have regions (u : State) : outside parts (onFb (fun x => { x with images := viewCode active }) (closeDue u)) = outside parts u := by
      simp [hp]
    split
    · rw [modTcu_outside (by simp [hp])]
      refine (outside_foldl _ (fun u o => ?_) _ _).trans (regions _)
      rw [modEng_outside (by simp [hp])]
      refine (outside_foldl _ (fun v x => ?_) _ _).trans ?_ <;> simp [hp]
    · refine (outside_foldl _ (fun u o => ?_) _ _).trans (regions _)
      rw [modEng_outside (by simp [hp])]
      refine (outside_foldl _ (fun v x => ?_) _ _).trans ?_ <;> simp [hp]

/-! ## What FilterOps leaves -/

@[simp] theorem modLane_outside (hp : [.fr] ⊆ parts) (l f s) :
    outside parts (modLane l f s) = outside parts s := by
  simp at hp
  simp [modLane, hp]

@[simp] theorem modTrk_outside (hp : [.fr] ⊆ parts) (g f s) :
    outside parts (modTrk g f s) = outside parts s := by
  simp at hp
  simp [modTrk, hp]

@[simp] theorem feedLanes_outside (hp : [.fr] ⊆ parts) (src i s) :
    outside parts (feedLanes src i s) = outside parts s := by
  simp at hp
  simp [feedLanes, hp]

@[simp] theorem restartChan_outside (hp : [.pe] ⊆ parts) (c s) :
    outside parts (restartChan c s) = outside parts s := by
  simp at hp
  simp [restartChan, hp]

@[simp] theorem restartLane_outside (hp : [.fr, .pe] ⊆ parts) (l t s) :
    outside parts (restartLane l t s) = outside parts s := by
  simp at hp
  unfold restartLane
  dsimp only
  repeat' split
  all_goals simp [hp]

@[simp] theorem restartLanes_outside (hp : [.fr, .pe] ⊆ parts) (p t s) :
    outside parts (restartLanes p t s) = outside parts s := by
  simp at hp
  simp [restartLanes, hp]

@[simp] theorem setTrk_outside (hp : [.fr, .im, .log, .ev, .out] ⊆ parts) (g st' s) :
    outside parts (setTrk g st' s) = outside parts s := by
  simp at hp
  simp [setTrk, hp]

@[simp] theorem startTrkCycle_outside (hp : [.fr] ⊆ parts) (g c f s) :
    outside parts (startTrkCycle g c f s) = outside parts s := by
  simp at hp
  simp [startTrkCycle, hp]

@[simp] theorem startCycles_outside (hp : [.fr] ⊆ parts) (g ltS s) :
    outside parts (startCycles g ltS s) = outside parts s := by
  simp at hp
  simp [startCycles, hp]

@[simp] theorem startGroups_outside (hp : [.fr] ⊆ parts) (ltS s) :
    outside parts (startGroups ltS s) = outside parts s := by
  simp at hp
  simp [startGroups, hp]

@[simp] theorem startTrk_outside (hp : [.fr, .im, .log, .ev, .out] ⊆ parts) (g c t s) :
    outside parts (startTrk g c t s) = outside parts s := by
  simp at hp
  simp [startTrk, hp]

@[simp] theorem stopTrk_outside (hp : [.fr, .im, .log, .ev, .out] ⊆ parts) (g s) :
    outside parts (stopTrk g s) = outside parts s := by
  simp at hp
  simp [stopTrk, hp]

@[simp] theorem offerEstimate_outside (hp : [.fr, .im, .log, .ev, .out] ⊆ parts) (c f good s) :
    outside parts (offerEstimate c f good s) = outside parts s := by
  simp at hp
  simp [offerEstimate, hp]

@[simp] theorem frSecond_outside (hp : [.fr] ⊆ parts) (ltS moved s) :
    outside parts (frSecond ltS moved s) = outside parts s := by
  simp at hp
  simp [frSecond, hp]

/-! ## What StreamOps leaves -/

@[simp] theorem modGroup_outside (hp : [.se] ⊆ parts) (g f s) :
    outside parts (modGroup g f s) = outside parts s := by
  simp at hp
  simp [modGroup, hp]

@[simp] theorem modSv_outside (hp : [.se] ⊆ parts) (n f s) :
    outside parts (modSv n f s) = outside parts s := by
  simp at hp
  simp [modSv, hp]

@[simp] theorem svCount_outside (hp : [.se] ⊆ parts) (n k s) :
    outside parts (svCount n k s) = outside parts s := by
  simp at hp
  simp [svCount, hp]

@[simp] theorem modSvOf_outside (hp : [.se] ⊆ parts) (old n f s) :
    outside parts (modSvOf old n f s) = outside parts s := by
  simp at hp
  simp [modSvOf, hp]

@[simp] theorem setSvState_outside (hp : [.se, .im, .log, .ev, .out] ⊆ parts) (old n st' s) :
    outside parts (setSvState old n st' s) = outside parts s := by
  simp at hp
  simp [setSvState, hp]

@[simp] theorem openGates_outside (hp : [.fb] ⊆ parts) (p s) :
    outside parts (openGates p s) = outside parts s := by
  simp at hp
  simp [openGates, hp]

@[simp] theorem judgeReady_outside (hp : [.se, .fb, .im, .pa, .log, .ev, .out] ⊆ parts) (g s) :
    outside parts (judgeReady g s) = outside parts s := by
  simp at hp
  simp [judgeReady, hp]

@[simp] theorem authFailed_outside (hp : [.se, .kv, .im, .log, .ev, .out] ⊆ parts) (owner kind n denied s) :
    outside parts (authFailed owner kind n denied s) = outside parts s := by
  simp at hp
  simp [authFailed, hp]

@[simp] theorem placeSample_outside (hp : [.se] ⊆ parts) (old n sec a rx s) :
    outside parts (placeSample old n sec a rx s) = outside parts s := by
  simp at hp
  unfold placeSample
  dsimp only
  repeat' split
  all_goals simp [hp]

@[simp] theorem takeAsdu_outside (hp : [.se, .im, .log, .ev, .out] ⊆ parts) (old n rx a s) :
    outside parts (takeAsdu old n rx a s) = outside parts s := by
  simp at hp
  simp [takeAsdu, hp]

@[simp] theorem takeSvFrame_outside (hp : [.se, .fb, .kv, .im, .pa, .log, .ev, .out] ⊆ parts) (old n rx f s) :
    outside parts (takeSvFrame old n rx f s) = outside parts s := by
  simp at hp
  unfold takeSvFrame
  dsimp only
  split <;> simp [hp]

@[simp] theorem contribute_outside (hp : [.se, .im, .log, .ev, .out] ⊆ parts) (gc i e s) :
    outside parts (contribute gc i e s).2 = outside parts s := by
  simp at hp
  unfold contribute
  dsimp only
  split <;> simp [hp]

@[simp] theorem feedStream_outside (hp : [.fr] ⊆ parts) (tag c m s) : outside parts (feedStream tag c m s) = outside parts s := by
  simp at hp
  refine outside_foldl _ (fun u e => ?_) _ _
  split <;> simp [hp]

@[simp] theorem sendInstant_outside (hp : [.fb, .ps, .im, .log, .ev, .out] ⊆ parts) (g k tag l s) :
    outside parts (sendInstant g k tag l s) = outside parts s := by
  simp at hp
  simp [sendInstant, hp]

@[simp] theorem releaseInstant_outside (hp : [.se, .fr, .fb, .ps, .im, .pa, .log, .ev, .out] ⊆ parts) (g i tag l s) :
    outside parts (releaseInstant g i tag l s) = outside parts s := by
  simp at hp
  unfold releaseInstant
  dsimp only
  simp only [judgeReady_outside, sendInstant_outside, hp, List.cons_subset, List.nil_subset, and_self]
  refine (outside_foldl _ (fun u e => feedStream_outside (by simp [hp]) ..) _ _).trans ?_
  simp only [onSe_outside, modGroup_outside, hp, List.cons_subset, List.nil_subset, and_self]
  refine outside_foldl_snd _ (fun a e => ?_) _ _
  have h := contribute_outside (parts := parts) (by simp [hp]) (groupCfgAt s g tag) i e a.2
  split <;> next he => rw [he] at h; exact h

@[simp] theorem modGs_outside (hp : [.se] ⊆ parts) (n f s) :
    outside parts (modGs n f s) = outside parts s := by
  simp at hp
  simp [modGs, hp]

@[simp] theorem takeGoose_outside (hp : [.se, .ps] ⊆ parts) (n rx f s) :
    outside parts (takeGoose n rx f s) = outside parts s := by
  simp at hp
  simp [takeGoose, hp]

@[simp] theorem modGp_outside (hp : [.se] ⊆ parts) (p f s) :
    outside parts (modGp p f s) = outside parts s := by
  simp at hp
  simp [modGp, hp]

@[simp] theorem timeAccuracy_outside (hp : [.free] ⊆ parts) (s) : outside parts (timeAccuracy s).2 = outside parts s := by
  simp at hp
  unfold timeAccuracy
  repeat' split
  all_goals simp [hp]

@[simp] theorem goTime_outside (hp : [.free] ⊆ parts) (s t) :
    outside parts (goTime s t).2 = outside parts s := by
  simp at hp
  simp [goTime, hp]

@[simp] theorem goSnapshot_outside (hp : [.free] ⊆ parts) (c s) : outside parts (goSnapshot c s).2 = outside parts s := by
  simp at hp
  refine outside_foldl_snd _ (fun a i => ?_) _ _
  split <;> simp [hp]

@[simp] theorem sendGoose_outside (hp : [.qm, .se, .fo, .pa] ⊆ parts) (p tal s) : outside parts (sendGoose p tal s) = outside parts s := by
  simp at hp
  unfold sendGoose
  dsimp only
  have h := sendPacket_outside (parts := parts) (by simp [hp]) (8 + (s.se.gpCfg.getD p {}).queue.val) 0
    (descBytes { cls := (s.se.gpCfg.getD p {}).cls.val, length := (gooseFrame s (s.se.gpCfg.getD p {}) (getGp s p) tal).length })
    (gooseFrame s (s.se.gpCfg.getD p {}) (getGp s p) tal) s
  split <;> next he => rw [he] at h; simpa [hp] using h

@[simp] theorem followGoose_outside (hp : [.se] ⊆ parts) (p n s) :
    outside parts (followGoose p n s) = outside parts s := by
  simp at hp
  unfold followGoose
  split <;> simp [hp]

@[simp] theorem newGoState_outside (hp : [.qm, .se, .fo, .pa, .free, .out] ⊆ parts) (p t takeover s) :
    outside parts (newGoState p t takeover s) = outside parts s := by
  simp at hp
  unfold newGoState
  extract_lets c n
  have hs := goSnapshot_outside (parts := parts) (by simp [hp]) c s
  split
  next vals u he =>
  have ht := goTime_outside (parts := parts) (by simp [hp]) u t
  split
  next time v hf =>
  rw [he] at hs
  rw [hf] at ht
  extract_lets w x
  have hw : outside parts w = outside parts s := (modGp_outside (by simp [hp]) ..).trans (ht.trans hs)
  rw [sendGoose_outside (by simp [hp])]
  show outside parts (if w.fo.gateOpen then _ else w) = _
  split <;> simp [hp, hw]

/-! ## What Failover leaves -/

@[simp] theorem execHeartbeatTx_outside (hp : [.fo, .out] ⊆ parts) (s) :
    outsideRes parts (execHeartbeatTx s) = .next (outside parts s) := by
  simp at hp
  simp [execHeartbeatTx, hp]

@[simp] theorem brxGuard_outside (hp : [.fo, .im, .grd, .log, .ev, .out] ⊆ parts) (w s) :
    outside parts (brxGuard w s) = outside parts s := by
  simp at hp
  refine outside_foldl _ (fun u x => ?_) _ _
  split <;> simp [hp]

/-- A message of the bridge reaches the claim and the guard counters, and what its meaning reaches (R436–R438). -/
@[simp] theorem brxRx_outside (hp : [.fo, .im, .grd, .log, .ev, .out] ⊆ parts) (type w) {k : List Byte → List (Vector Byte 36) → State → State}
    (s) (hk : ∀ h p u, outside parts (k h p u) = outside parts u) : outsideRes parts (brxRx type w k s) = .next (outside parts s) := by
  simp at hp
  unfold brxRx
  repeat' split
  all_goals simp [hp, hk]

@[simp] theorem measureOffset_outside (hp : [.fo] ⊆ parts) (m t4 s) :
    outside parts (measureOffset m t4 s) = outside parts s := by
  simp at hp
  simp [measureOffset, hp]

@[simp] theorem endArbitration_outside (hp : [.fo] ⊆ parts) (s) :
    outside parts (endArbitration s) = outside parts s := by
  simp at hp
  simp [endArbitration, hp]

@[simp] theorem arbitrate_outside (hp : [.fo, .im, .pa, .log, .ev, .free, .out] ⊆ parts) (m s) :
    outside parts (arbitrate m s) = outside parts s := by
  simp at hp
  simp [arbitrate, hp]

@[simp] theorem resolveSplit_outside (hp : [.fo, .im, .pa, .log, .ev, .out] ⊆ parts) (fresh m s) :
    outside parts (resolveSplit fresh m s) = outside parts s := by
  simp at hp
  simp [resolveSplit, hp]

@[simp] theorem epochTry_outside (hp : [.fo, .im, .pa, .log, .ev, .out] ⊆ parts) (s) :
    outside parts (epochTry s) = outside parts s := by
  simp at hp
  simp [epochTry, hp]

@[simp] theorem swapReplies_outside (hp : [.su, .fo, .im, .log, .ev, .glob, .out] ⊆ parts) (m s) :
    outside parts (swapReplies m s) = outside parts s := by
  simp at hp
  simp [swapReplies, hp]

@[simp] theorem execHeartbeatRx_outside (hp : [.tb, .su, .fo, .im, .pa, .grd, .log, .ev, .glob, .free, .out] ⊆ parts) (w s) :
    outsideRes parts (execHeartbeatRx w s) = .next (outside parts s) := by
  simp at hp
  exact brxRx_outside (by simp [hp]) _ _ _ fun h p u => by simp [hp]

@[simp] theorem witnessTakeover_outside (hp : [.fo, .im, .pa, .log, .ev, .out] ⊆ parts) (s) :
    outside parts (witnessTakeover s) = outside parts s := by
  simp at hp
  simp [witnessTakeover, hp]

@[simp] theorem losePartner_outside (hp : [.fo, .im, .pa, .log, .ev, .out] ⊆ parts) (s) :
    outside parts (losePartner s) = outside parts s := by
  simp at hp
  simp [losePartner, hp]

@[simp] theorem execPartnerLost_outside (hp : [.fo, .im, .pa, .log, .ev, .out] ⊆ parts) (s) :
    outsideRes parts (execPartnerLost s) = .next (outside parts s) := by
  simp at hp
  simp [execPartnerLost, hp]

@[simp] theorem execBrixigLinkState_outside (hp : [.fo, .im, .pa, .log, .ev, .out] ⊆ parts) (up s) :
    outsideRes parts (execBrixigLinkState up s) = .next (outside parts s) := by
  simp at hp
  simp [execBrixigLinkState, hp]

@[simp] theorem execWitnessClear_outside (hp : [.fo, .im, .pa, .log, .ev, .out] ⊆ parts) (s) :
    outsideRes parts (execWitnessClear s) = .next (outside parts s) := by
  simp at hp
  simp [execWitnessClear, hp]

@[simp] theorem execRelinquishRx_outside (hp : [.fo, .im, .pa, .grd, .log, .ev, .out] ⊆ parts) (w s) :
    outsideRes parts (execRelinquishRx w s) = .next (outside parts s) := by
  simp at hp
  exact brxRx_outside (by simp [hp]) _ _ _ fun h p u => by simp [hp]

@[simp] theorem execGooseStRx_outside (hp : [.se, .fo, .im, .grd, .log, .ev, .out] ⊆ parts) (w s) :
    outsideRes parts (execGooseStRx w s) = .next (outside parts s) := by
  simp at hp
  exact brxRx_outside (by simp [hp]) _ _ _ fun h p u => by simp [hp]

@[simp] theorem modRx_outside (hp : [.fo] ⊆ parts) (t f s) :
    outside parts (modRx t f s) = outside parts s := by
  simp at hp
  simp [modRx, hp]

@[simp] theorem execReplRx_outside (hp : [.fo, .im, .grd, .log, .ev, .out] ⊆ parts) (w s) :
    outsideRes parts (execReplRx w s) = .next (outside parts s) := by
  simp at hp
  exact brxRx_outside (by simp [hp]) _ _ _ fun h p u => by simp [hp]

@[simp] theorem execTasksRx_outside (hp : [.fo, .im, .grd, .log, .ev, .out] ⊆ parts) (w s) :
    outsideRes parts (execTasksRx w s) = .next (outside parts s) := by
  simp at hp
  exact brxRx_outside (by simp [hp]) _ _ _ fun h p u => by simp [hp]

@[simp] theorem execReplEndRx_outside (hp : [.fo, .im, .grd, .log, .ev, .out] ⊆ parts) (w s) :
    outsideRes parts (execReplEndRx w s) = .next (outside parts s) := by
  simp at hp
  exact brxRx_outside (by simp [hp]) _ _ _ fun h p u => by simp [hp]

@[simp] theorem execReplTransmit_outside (hp : [.fo, .out] ⊆ parts) (s) :
    outsideRes parts (execReplTransmit s) = .next (outside parts s) := by
  simp at hp
  unfold execReplTransmit
  split <;> simp [hp]

@[simp] theorem writeWords_outside (hp : [.fb, .fo] ⊆ parts) (e o l s) :
    outside parts (writeWords e o l s) = outside parts s := by
  simp at hp
  simp [writeWords, hp]

@[simp] theorem writeChunks_outside (hp : [.fb, .fo, .grd] ⊆ parts) (l s) :
    outside parts (writeChunks l s) = outside parts s := by
  simp at hp
  simp [writeChunks, hp]

@[simp] theorem alignTask_outside (hp : [.fb] ⊆ parts) (x s) :
    outside parts (alignTask x s) = outside parts s := by
  simp at hp
  unfold alignTask
  split <;> simp [hp]

@[simp] theorem applyRepl_outside (hp : [.fb, .fo, .grd] ⊆ parts) (e s) :
    outside parts (applyRepl e s) = outside parts s := by
  simp at hp
  simp [applyRepl, hp]

@[simp] theorem execReplApply_outside (hp : [.fb, .fo, .grd] ⊆ parts) (s) :
    outsideRes parts (execReplApply s) = .next (outside parts s) := by
  unfold execReplApply
  split
  · rfl
  · exact congrArg Host.Outcome.next (outside_foldl _ (fun u e => applyRepl_outside hp e u) _ _)

@[simp] theorem execDiscoveryTimeout_outside (hp : [.fo, .im, .pa, .log, .ev, .out] ⊆ parts) (s) :
    outsideRes parts (execDiscoveryTimeout s) = .next (outside parts s) := by
  simp at hp
  unfold execDiscoveryTimeout
  split <;> simp [hp]

@[simp] theorem execWatchdogExpiry_outside (hp : [.fo, .im, .pa, .log, .ev, .out] ⊆ parts) (s) :
    outsideRes parts (execWatchdogExpiry s) = .next (outside parts s) := by
  simp at hp
  simp [execWatchdogExpiry, hp]

@[simp] theorem execTimeSvTrigger_outside (hp : [.fo, .im, .pa, .log, .ev, .out] ⊆ parts) (s) :
    outsideRes parts (execTimeSvTrigger s) = .next (outside parts s) := by
  simp at hp
  unfold execTimeSvTrigger
  split <;> simp [hp]

@[simp] theorem execEpochResetWindow_outside (hp : [.fo, .im, .pa, .log, .ev, .out] ⊆ parts) (s) :
    outsideRes parts (execEpochResetWindow s) = .next (outside parts s) := by
  simp at hp
  simp [execEpochResetWindow, hp]

@[simp] theorem doSwap_outside (hp : [.su, .fo, .im, .pa, .log, .ev, .glob, .out] ⊆ parts) (w s) :
    outside parts (doSwap w s) = outside parts s := by
  simp at hp
  simp [doSwap, hp]

@[simp] theorem execSwapBoundary_outside (hp : [.su, .fo, .im, .pa, .log, .ev, .glob, .out] ⊆ parts) (s) :
    outsideRes parts (execSwapBoundary s) = .next (outside parts s) := by
  simp at hp
  simp [execSwapBoundary, hp]

@[simp] theorem execFoWdogWrite_outside (hp : [.fo] ⊆ parts) (s) :
    outsideRes parts (execFoWdogWrite s) = .next (outside parts s) := by
  simp at hp
  simp [execFoWdogWrite, hp]

@[simp] theorem execFoStagePair_outside (hp : [.su, .im, .pa, .log, .ev, .glob, .out] ⊆ parts) (c p s) :
    outsideRes parts (execFoStagePair c p s) = .next (outside parts s) := by
  simp at hp
  simp [execFoStagePair, hp]

@[simp] theorem execFoStageRepl_outside (hp : [.su, .im, .pa, .log, .ev, .glob, .out] ⊆ parts) (c o l s) :
    outsideRes parts (execFoStageRepl c o l s) = .next (outside parts s) := by
  simp at hp
  simp [execFoStageRepl, hp]

@[simp] theorem execFoRelinquish_outside (hp : [.su, .fo, .im, .pa, .log, .ev, .glob, .out] ⊆ parts) (c s) :
    outsideRes parts (execFoRelinquish c s) = .next (outside parts s) := by
  simp at hp
  simp [execFoRelinquish, hp]

@[simp] theorem execFoSwap_outside (hp : [.su, .fo, .im, .pa, .log, .ev, .glob, .out] ⊆ parts) (c s) :
    outsideRes parts (execFoSwap c s) = .next (outside parts s) := by
  simp at hp
  simp [execFoSwap, hp]

@[simp] theorem execFoRearm_outside (hp : [.su, .fo, .im, .pa, .log, .ev, .glob, .out] ⊆ parts) (c s) :
    outsideRes parts (execFoRearm c s) = .next (outside parts s) := by
  simp at hp
  simp [execFoRearm, hp]

@[simp] theorem execFoEpochReset_outside (hp : [.su, .fo, .im, .pa, .log, .ev, .glob, .out] ⊆ parts) (c s) :
    outsideRes parts (execFoEpochReset c s) = .next (outside parts s) := by
  simp at hp
  simp [execFoEpochReset, hp]

@[simp] theorem execFoReadPair_outside (hp : [.su, .im, .pa, .log, .ev, .glob, .out] ⊆ parts) (c s) :
    outsideRes parts (execFoReadPair c s) = .next (outside parts s) := by
  simp at hp
  simp [execFoReadPair, hp]

@[simp] theorem foCommit_outside (hp : [.fo] ⊆ parts) (active s) :
    outside parts (foCommit active s) = outside parts s := by
  simp at hp
  simp [foCommit, hp]

/-! ## What Cabinet leaves -/

@[simp] theorem modSeg_outside (hp : [.fo] ⊆ parts) (g f s) :
    outside parts (modSeg g f s) = outside parts s := by
  simp at hp
  simp [modSeg, hp]

@[simp] theorem modStn_outside (hp : [.fo] ⊆ parts) (g k f s) :
    outside parts (modStn g k f s) = outside parts s := by
  simp at hp
  simp [modStn, hp]

@[simp] theorem stnEvent_outside (hp : [.fo, .im, .log, .ev, .out] ⊆ parts) (g k s) :
    outside parts (stnEvent g k s) = outside parts s := by
  simp at hp
  simp [stnEvent, hp]

@[simp] theorem viaQueue_outside (hp : [.qm, .pa] ⊆ parts) (q header bytes s) :
    outside parts (viaQueue q header bytes s).2 = outside parts s := by
  simp at hp
  have h := sendPacket_outside (parts := parts) (by simp [hp]) q 0 header bytes s
  unfold viaQueue
  split <;> next he => rw [he] at h; simpa [hp] using h

@[simp] theorem sendCab_outside (hp : [.qm, .pa, .out] ⊆ parts) (g f s) : outside parts (sendCab g f s) = outside parts s := by
  simp at hp
  have h := viaQueue_outside (parts := parts) (by simp [hp]) (0x18 + g.val) (descBytes { length := (cabBytes f).length }) (cabBytes f) s
  unfold sendCab
  split
  · rfl
  · dsimp only
    split <;> next he => rw [he] at h; simpa [hp] using h

@[simp] theorem cabDiscard_outside (hp : [.fo] ⊆ parts) (g s) :
    outside parts (cabDiscard g s) = outside parts s := by
  simp at hp
  simp [cabDiscard, hp]

/-- A frame heard on a segment passes its queue, and reaches what its meaning reaches (R440, R457). -/
@[simp] theorem hearCab_outside (hp : [.qm, .fo, .pa] ⊆ parts) (g type rxLt f) {k : CabFrame → State → State} (s)
    (hk : ∀ c u, outside parts (k c u) = outside parts u) : outsideRes parts (hearCab g type rxLt f k s) = .next (outside parts s) := by
  simp at hp
  have h := viaQueue_outside (parts := parts) (by simp [hp]) (0x16 + g.val)
    (noticeBytes s (0x16 + g.val) rxLt (rxStatusWord 0 0 f.codeErr false false) (0x10 + g.val) 0 0 false) f.bytes s
  unfold hearCab
  dsimp only
  split
  · rfl
  · split
    · simp [hp]
    · split
      · rfl
      · split <;> next he => rw [he] at h; simpa [hp, hk] using h

@[simp] theorem stnInvalid_outside (hp : [.se, .ar, .ps] ⊆ parts) (g k s) :
    outside parts (stnInvalid g k s) = outside parts s := by
  simp at hp
  unfold stnInvalid
  split <;> simp [hp]

@[simp] theorem nowAbsent_outside (hp : [.se, .ar, .ps, .fo, .im, .log, .ev, .out] ⊆ parts) (g k s) :
    outside parts (nowAbsent g k s) = outside parts s := by
  simp at hp
  simp [nowAbsent, hp]

@[simp] theorem countMiss_outside (hp : [.se, .ar, .ps, .fo, .im, .log, .ev, .out] ⊆ parts) (g k s) :
    outside parts (countMiss g k s) = outside parts s := by
  simp at hp
  simp [countMiss, hp]

@[simp] theorem execStationAbsent_outside (hp : [.se, .ar, .ps, .fo, .im, .log, .ev, .out] ⊆ parts) (g k s) :
    outsideRes parts (execStationAbsent g k s) = .next (outside parts s) := by
  simp at hp
  unfold execStationAbsent
  split <;> simp [hp]

@[simp] theorem setPlca_outside (hp : [.fo] ⊆ parts) (g s) :
    outside parts (setPlca g s) = outside parts s := by
  simp at hp
  simp [setPlca, hp]

@[simp] theorem closeCycle_outside (hp : [.se, .ar, .ps, .fo, .im, .log, .ev, .out] ⊆ parts) (g s) :
    outside parts (closeCycle g s) = outside parts s := by
  simp at hp
  simp [closeCycle, hp]

@[simp] theorem enterMode_outside (hp : [.se, .ar, .ps, .fo, .im, .log, .ev, .out] ⊆ parts) (slotted reason g s) :
    outside parts (enterMode slotted reason g s) = outside parts s := by
  simp at hp
  simp [enterMode, hp]

@[simp] theorem startDiscovery_outside (hp : [.fo] ⊆ parts) (t0 g s) :
    outside parts (startDiscovery t0 g s) = outside parts s := by
  simp at hp
  simp [startDiscovery, hp]

@[simp] theorem cycleMode_outside (hp : [.se, .ar, .ps, .fo, .im, .log, .ev, .out] ⊆ parts) (t0 g s) :
    outside parts (cycleMode t0 g s) = outside parts s := by
  simp at hp
  unfold cycleMode
  dsimp only
  repeat' split
  all_goals simp [hp]

@[simp] theorem buildImage_outside (hp : [.fo] ⊆ parts) (g s) :
    outside parts (buildImage g s) = outside parts s := by
  simp at hp
  simp [buildImage, hp]

@[simp] theorem segTick_outside (hp : [.se, .ar, .ps, .fo, .im, .log, .ev, .out] ⊆ parts) (t0 g s) :
    outside parts (segTick t0 g s) = outside parts s := by
  simp at hp
  simp [segTick, hp]

@[simp] theorem execCabinetCycleStart_outside (hp : [.tb, .se, .ar, .ps, .fo, .im, .log, .ev, .out] ⊆ parts) (s) :
    outsideRes parts (execCabinetCycleStart s) = .next (outside parts s) := by
  simp at hp
  simp [execCabinetCycleStart, hp]

@[simp] theorem execImageTransmit_outside (hp : [.qm, .fo, .pa, .out] ⊆ parts) (g s) :
    outsideRes parts (execImageTransmit g s) = .next (outside parts s) := by
  simp at hp
  unfold execImageTransmit
  dsimp only
  split <;> simp [hp]

@[simp] theorem stationClaim_outside (hp : [.fo, .im, .pa, .log, .ev, .out] ⊆ parts) (c s) :
    outside parts (stationClaim c s) = outside parts s := by
  simp at hp
  simp [stationClaim, hp]

@[simp] theorem takeReport_outside (hp : [.ps, .fo, .im, .pa, .log, .ev, .out] ⊆ parts) (g c f rxLt s) :
    outside parts (takeReport g c f rxLt s) = outside parts s := by
  simp at hp
  simp [takeReport, hp]

@[simp] theorem execReportReceive_outside (hp : [.qm, .ps, .fo, .im, .pa, .log, .ev, .out] ⊆ parts) (g f rxLt s) :
    outsideRes parts (execReportReceive g f rxLt s) = .next (outside parts s) := by
  simp at hp
  refine hearCab_outside (by simp [hp]) _ _ _ _ _ fun f u => ?_
  dsimp only
  split <;> simp [hp]

@[simp] theorem reassign_outside (hp : [.qm, .pa, .out] ⊆ parts) (g old s) :
    outside parts (reassign g old s) = outside parts s := by
  simp at hp
  simp [reassign, hp]

@[simp] theorem execAnnounceReceive_outside (hp : [.qm, .fo, .im, .pa, .log, .ev, .out] ⊆ parts) (g f rxLt s) :
    outsideRes parts (execAnnounceReceive g f rxLt s) = .next (outside parts s) := by
  simp at hp
  refine hearCab_outside (by simp [hp]) _ _ _ _ _ fun f u => ?_
  dsimp only
  split <;> simp [hp]

@[simp] theorem execImageReceive_outside (hp : [.qm, .fo, .pa] ⊆ parts) (g f rxLt s) :
    outsideRes parts (execImageReceive g f rxLt s) = .next (outside parts s) := by
  simp at hp
  exact hearCab_outside (by simp [hp]) _ _ _ _ _ fun f u => by simp [hp]

@[simp] theorem execCollision_outside (hp : [.fo] ⊆ parts) (g s) :
    outsideRes parts (execCollision g s) = .next (outside parts s) := by
  simp at hp
  simp [execCollision, hp]

@[simp] theorem execSlottedStartupEnd_outside (hp : [.fo, .im, .pa, .log, .ev, .out] ⊆ parts) (g s) :
    outsideRes parts (execSlottedStartupEnd g s) = .next (outside parts s) := by
  simp at hp
  simp [execSlottedStartupEnd, hp]

@[simp] theorem execFoStageCabinet_outside (hp : [.su, .im, .pa, .log, .ev, .glob, .out] ⊆ parts) (c x s) :
    outsideRes parts (execFoStageCabinet c x s) = .next (outside parts s) := by
  simp at hp
  simp [execFoStageCabinet, hp]

@[simp] theorem cabMode_outside (hp : [.su, .fo, .im, .pa, .log, .ev, .glob, .out] ⊆ parts) (c g test s) :
    outsideRes parts (cabMode c g test s) = .next (outside parts s) := by
  simp at hp
  simp [cabMode, hp]

@[simp] theorem execFoCabModeTest_outside (hp : [.su, .fo, .im, .pa, .log, .ev, .glob, .out] ⊆ parts) (c g s) :
    outsideRes parts (execFoCabModeTest c g s) = .next (outside parts s) := by
  simp at hp
  simp [execFoCabModeTest, hp]

@[simp] theorem execFoCabModeNormal_outside (hp : [.su, .fo, .im, .pa, .log, .ev, .glob, .out] ⊆ parts) (c g s) :
    outsideRes parts (execFoCabModeNormal c g s) = .next (outside parts s) := by
  simp at hp
  simp [execFoCabModeNormal, hp]

@[simp] theorem unassign_outside (hp : [.se, .ar, .ps, .fo, .im, .log, .ev, .out] ⊆ parts) (g k s) :
    outside parts (unassign g k s) = outside parts s := by
  simp at hp
  simp [unassign, hp]

@[simp] theorem partFoCabRediscover_outside (hp : [.qm, .se, .ar, .ps, .fo, .im, .pa, .log, .ev, .out] ⊆ parts) (n s) :
    outside parts (partFoCabRediscover n s).1 = outside parts s := by
  simp at hp
  simp [partFoCabRediscover, hp]

@[simp] theorem execFoCabRediscover_outside (hp : [.su, .qm, .se, .ar, .ps, .fo, .im, .pa, .log, .ev, .glob, .out] ⊆ parts) (c mask s) :
    outsideRes parts (execFoCabRediscover c mask s) = .next (outside parts s) := by
  simp at hp
  simp [execFoCabRediscover, hp]

@[simp] theorem segCommit_outside (hp : [.qm, .se, .ar, .ps, .fo, .im, .pa, .log, .ev, .out] ⊆ parts) (g new s) :
    outside parts (segCommit g new s) = outside parts s := by
  simp at hp
  simp [segCommit, hp]

@[simp] theorem cabCommit_outside (hp : [.tb, .qm, .se, .ar, .ps, .fo, .im, .pa, .log, .ev, .out] ⊆ parts) (t active s) :
    outside parts (cabCommit t active s) = outside parts s := by
  simp at hp
  simp [cabCommit, hp]

/-! ## What Balls leaves -/

@[simp] theorem flashRead_outside (hp : [.out] ⊆ parts) (x s) :
    outside parts (flashRead x s) = outside parts s := by
  simp at hp
  simp [flashRead, hp]

@[simp] theorem xspiBoot_outside (hp : [.out] ⊆ parts) (s) :
    outside parts (xspiBoot s) = outside parts s := by
  simp at hp
  simp [xspiBoot, hp]

/-! ## What Compare leaves -/

@[simp] theorem compareFire_outside (hp : [.tb, .ar, .fb, .im, .log, .ev, .out] ⊆ parts) (k s) :
    outside parts (compareFire k s) = outside parts s := by
  simp at hp
  unfold compareFire
  dsimp only
  split <;> simp [hp]

@[simp] theorem deliverDue_outside (hp : [.tb, .ar, .fb, .im, .log, .ev, .out] ⊆ parts) (k s) :
    outside parts (deliverDue k s) = outside parts s := by
  simp at hp
  simp [deliverDue, hp]

@[simp] theorem execCompareFire_outside (hp : [.tb, .ar, .fb, .im, .log, .ev, .out] ⊆ parts) (n s) :
    outsideRes parts (execCompareFire n s) = .next (outside parts s) := by
  simp at hp
  simp [execCompareFire, hp]

@[simp] theorem execTbTcuArm_outside (hp : [.tb, .su, .ar, .fb, .im, .pa, .log, .ev, .glob, .out] ⊆ parts) (c n target periodic period s) :
    outsideRes parts (execTbTcuArm c n target periodic period s) = .next (outside parts s) := by
  simp at hp
  unfold execTbTcuArm
  dsimp only
  repeat' split
  all_goals simp [hp]

@[simp] theorem execTbTcuDisarm_outside (hp : [.tb, .su, .ar, .fb, .im, .pa, .log, .ev, .glob, .out] ⊆ parts) (c n s) :
    outsideRes parts (execTbTcuDisarm c n s) = .next (outside parts s) := by
  simp at hp
  simp [execTbTcuDisarm, hp]

/-! ## What FabricOps leaves -/

@[simp] theorem modSw_outside (hp : [.sw] ⊆ parts) (n f s) :
    outside parts (modSw n f s) = outside parts s := by
  simp at hp
  simp [modSw, hp]

@[simp] theorem swCount_outside (hp : [.sw] ⊆ parts) (n k s) :
    outside parts (swCount n k s) = outside parts s := by
  simp at hp
  simp [swCount, hp]

@[simp] theorem modPx_outside (hp : [.px] ⊆ parts) (n f s) :
    outside parts (modPx n f s) = outside parts s := by
  simp at hp
  simp [modPx, hp]

@[simp] theorem pxCountBy_outside (hp : [.px] ⊆ parts) (n k a s) :
    outside parts (pxCountBy n k a s) = outside parts s := by
  simp at hp
  simp [pxCountBy, hp]

@[simp] theorem pxCount_outside (hp : [.px] ⊆ parts) (n k s) :
    outside parts (pxCount n k s) = outside parts s := by
  simp at hp
  simp [pxCount, hp]

@[simp] theorem mirrorEvent_outside (hp : [.sw, .im, .log, .ev, .out] ⊆ parts) (event rxLt f len inPort cls dest multi ecn rxStatus s) :
    outside parts (mirrorEvent event rxLt f len inPort cls dest multi ecn rxStatus s) = outside parts s := by
  simp at hp
  simp [mirrorEvent, hp]

@[simp] theorem mirrorCopy_outside (hp : [.sw, .im, .log, .ev, .out] ⊆ parts) (event p c s) :
    outside parts (mirrorCopy event p c s) = outside parts s := by
  simp at hp
  simp [mirrorCopy, hp]

@[simp] theorem learn_outside (hp : [.sw, .im, .log, .ev, .out] ⊆ parts) (p f v s) :
    outside parts (learn p f v s) = outside parts s := by
  simp at hp
  unfold learn
  dsimp only
  repeat' split
  all_goals simp [hp]

@[simp] theorem notePeak_outside (hp : [.sw] ⊆ parts) (m s) :
    outside parts (notePeak m s) = outside parts s := by
  simp at hp
  simp [notePeak, hp]

@[simp] theorem admitCopy_outside (hp : [.sw, .im, .log, .ev, .out] ⊆ parts) (p c s) :
    outside parts (admitCopy p c s).1 = outside parts s := by
  simp at hp
  simp [admitCopy, hp]

@[simp] theorem allRefused_outside (hp : [.px, .sw] ⊆ parts) (rxPort inPort s) :
    outside parts (allRefused rxPort inPort s) = outside parts s := by
  simp at hp
  unfold allRefused
  split <;> simp [hp]

@[simp] theorem fabricIn_outside (hp : [.px, .sw, .im, .log, .ev, .out] ⊆ parts) (rxPort f e s) :
    outside parts (fabricIn rxPort f e s) = outside parts s := by
  simp at hp
  unfold fabricIn
  extract_lets n mask u
  have hu : outside parts u = outside parts s := mirrorEvent_outside (by simp [hp]) ..
  split
  · rfl
  · split
    · simp [hp]
    · split
      · simp [hp, hu]
      · next fid sw v dests r _ _ _ =>
        have hr : outside parts r.1 = outside parts v := by
          refine outside_foldl_fst _ (fun a p => ?_) _ _
          exact admitCopy_outside (by simp [hp]) ..
        have hv : outside parts v = outside parts s := (outside_set_sw (by simp [hp]) ..).trans hu
        split <;> simp [hp, hr, hv]

@[simp] theorem flushPort_outside (hp : [.px, .sw, .im, .log, .ev, .out] ⊆ parts) (p s) :
    outside parts (flushPort p s) = outside parts s := by
  simp at hp
  simp [flushPort, hp]

@[simp] theorem enterDown_outside (hp : [.px, .sw, .im, .log, .ev, .out] ⊆ parts) (p s) :
    outside parts (enterDown p s) = outside parts s := by
  simp at hp
  simp [enterDown, hp]

@[simp] theorem fabricLinkDown_outside (hp : [.px, .sw, .im, .log, .ev, .out] ⊆ parts) (p s) :
    outside parts (fabricLinkDown p s) = outside parts s := by
  simp at hp
  unfold fabricLinkDown
  split <;> simp [hp]

@[simp] theorem fabricLinkUp_outside (hp : [.sw] ⊆ parts) (p s) :
    outside parts (fabricLinkUp p s) = outside parts s := by
  simp at hp
  unfold fabricLinkUp
  split <;> simp [hp]

@[simp] theorem fabricFollow_outside (hp : [.px, .sw, .im, .log, .ev, .out] ⊆ parts) (q up s) :
    outside parts (fabricFollow q up s) = outside parts s := by
  simp at hp
  simp [fabricFollow, hp]

@[simp] theorem fabricLink_outside (hp : [.px, .sw, .im, .log, .ev, .out] ⊆ parts) (p s) :
    outside parts (fabricLink p s) = outside parts s := by
  simp at hp
  simp [fabricLink, hp]

/-! ## What PortOps leaves -/

@[simp] theorem pxCtrReset_outside (hp : [.px] ⊆ parts) (n s) :
    outside parts (pxCtrReset n s) = outside parts s := by
  simp at hp
  simp [pxCtrReset, hp]

@[simp] theorem pauseAccount_outside (hp : [.px] ⊆ parts) (p s) :
    outside parts (pauseAccount p s) = outside parts s := by
  simp at hp
  unfold pauseAccount
  dsimp only
  split <;> simp [hp]

@[simp] theorem loadPause_outside (hp : [.px] ⊆ parts) (p n s) :
    outside parts (loadPause p n s) = outside parts s := by
  simp at hp
  simp [loadPause, hp]

@[simp] theorem clearPause_outside (hp : [.px] ⊆ parts) (p s) :
    outside parts (clearPause p s) = outside parts s := by
  simp at hp
  simp [clearPause, hp]

@[simp] theorem linkChanged_outside (hp : [.px, .im, .log, .ev, .out] ⊆ parts) (p s) :
    outside parts (linkChanged p s) = outside parts s := by
  simp at hp
  simp [linkChanged, hp]

@[simp] theorem setLink_outside (hp : [.px, .sw, .im, .log, .ev, .out] ⊆ parts) (p up pcs fec s) :
    outside parts (setLink p up pcs fec s) = outside parts s := by
  simp at hp
  simp [setLink, hp]

@[simp] theorem modPair_outside (hp : [.px] ⊆ parts) (k f s) :
    outside parts (modPair k f s) = outside parts s := by
  simp at hp
  simp [modPair, hp]

@[simp] theorem duplicate_outside (hp : [.px] ⊆ parts) (k src seq path s) :
    outside parts (duplicate k src seq path s).1 = outside parts s := by
  simp at hp
  unfold duplicate
  dsimp only
  repeat' split
  all_goals simp [hp]

@[simp] theorem ringForward_outside (hp : [.px] ⊆ parts) (k p f rxLt s) :
    outside parts (ringForward k p f rxLt s) = outside parts s := by
  simp at hp
  unfold ringForward
  dsimp only
  split <;> simp [hp]

@[simp] theorem proxyLearn_outside (hp : [.px, .im, .log, .ev, .out] ⊆ parts) (k m s) :
    outside parts (proxyLearn k m s) = outside parts s := by
  simp at hp
  simp [proxyLearn, hp]

@[simp] theorem filterFrame_outside (hp : [.px] ⊆ parts) (p f s) :
    outside parts (filterFrame p f s).1 = outside parts s := by
  simp at hp
  unfold filterFrame
  dsimp only
  split <;> simp [hp]

@[simp] theorem tapCopy_outside (hp : [.px] ⊆ parts) (f rxLt s) :
    outside parts (tapCopy f rxLt s) = outside parts s := by
  simp at hp
  simp [tapCopy, hp]

/-! ## What Macsec leaves -/

@[simp] theorem macsecRx_outside (hp : [.px] ⊆ parts) (p f rxLt s) :
    outside parts (macsecRx p f rxLt s).1 = outside parts s := by
  simp at hp
  unfold macsecRx
  dsimp only
  repeat' split
  all_goals simp [hp]

@[simp] theorem pnReached_outside (hp : [.px, .im, .log, .ev, .out] ⊆ parts) (p s) :
    outside parts (pnReached p s) = outside parts s := by
  simp at hp
  simp [pnReached, hp]

@[simp] theorem macsecTx_outside (hp : [.px, .im, .log, .ev, .out] ⊆ parts) (p f s) :
    outside parts (macsecTx p f s).1 = outside parts s := by
  simp at hp
  unfold macsecTx
  dsimp only
  repeat' split
  all_goals simp [hp]

@[simp] theorem reloadSas_outside (hp : [.px] ⊆ parts) (n s) :
    outside parts (reloadSas n s) = outside parts s := by
  simp at hp
  simp [reloadSas, hp]

@[simp] theorem purgeSas_outside (hp : [.px] ⊆ parts) (slots s) :
    outside parts (purgeSas slots s) = outside parts s := by
  simp at hp
  simp [purgeSas, hp]

@[simp] theorem dropPurged_outside (hp : [.px] ⊆ parts) (p s) :
    outside parts (dropPurged p s) = outside parts s := by
  simp at hp
  simp [dropPurged, hp]

@[simp] theorem useBank_outside (hp : [.px, .sw] ⊆ parts) (b s) :
    outside parts (useBank b s) = outside parts s := by
  simp at hp
  simp [useBank, hp]

/-- What runs under the bank a port had reaches the banks and what it reaches itself (R86). -/
@[simp] theorem underBank_outside (hp : [.px, .sw] ⊆ parts) (b) {f : State → State} (s) (hf : ∀ u, outside parts (f u) = outside parts u) :
    outside parts (underBank b f s) = outside parts s := by
  simp at hp
  simp [underBank, hf, hp]

/-! ## What Ptp leaves -/

@[simp] theorem modPtp_outside (hp : [.tb] ⊆ parts) (p f s) :
    outside parts (modPtp p f s) = outside parts s := by
  simp at hp
  simp [modPtp, hp]

@[simp] theorem ownDepart_outside (hp : [.tb] ⊆ parts) (p t f s) :
    outside parts (ownDepart p t f s).2 = outside parts s := by
  simp at hp
  simp [ownDepart, hp]

@[simp] theorem residenceDepart_outside (hp : [.tb] ⊆ parts) (p t f rxLt s) :
    outside parts (residenceDepart p t f rxLt s).2 = outside parts s := by
  simp at hp
  unfold residenceDepart
  dsimp only
  repeat' split
  all_goals simp [hp]

@[simp] theorem ptpDepart_outside (hp : [.tb] ⊆ parts) (p ring f rxLt s) :
    outside parts (ptpDepart p ring f rxLt s).2 = outside parts s := by
  simp at hp
  unfold ptpDepart
  split <;> simp [hp]

@[simp] theorem ptpSend_outside (hp : [.qm, .pa] ⊆ parts) (p t twoStep flags corr seq log body s) :
    outside parts (ptpSend p t twoStep flags corr seq log body s) = outside parts s := by
  simp at hp
  simp [ptpSend, hp]

@[simp] theorem ptpNextSeq_outside (hp : [.tb] ⊆ parts) (p k s) :
    outside parts (ptpNextSeq p k s).2 = outside parts s := by
  simp at hp
  simp [ptpNextSeq, hp]

@[simp] theorem ptpFollow_outside (hp : [.tb, .qm, .pa] ⊆ parts) (p c t s) :
    outside parts (ptpFollow p c t s) = outside parts s := by
  simp at hp
  unfold ptpFollow
  dsimp only
  repeat' split
  all_goals simp [hp]

@[simp] theorem ptpRespond_outside (hp : [.tb, .qm, .pa] ⊆ parts) (p c t s) :
    outside parts (ptpRespond p c t s) = outside parts s := by
  simp at hp
  unfold ptpRespond
  dsimp only
  split <;> simp [hp]

@[simp] theorem execPtpMessageTx_outside (hp : [.tb, .qm, .pa] ⊆ parts) (p t s) :
    outsideRes parts (execPtpMessageTx p t s) = .next (outside parts s) := by
  simp at hp
  unfold execPtpMessageTx
  dsimp only
  repeat' split
  all_goals simp [hp]

@[simp] theorem offsetMeasured_outside (hp : [.tb] ⊆ parts) (p rx origin corr s) :
    outside parts (offsetMeasured p rx origin corr s) = outside parts s := by
  simp at hp
  simp [offsetMeasured, hp]

@[simp] theorem execPtpMessageRx_outside (hp : [.tb, .im, .log, .ev, .out] ⊆ parts) (p m rxLt s) :
    outsideRes parts (execPtpMessageRx p m rxLt s) = .next (outside parts s) := by
  simp at hp
  unfold execPtpMessageRx
  dsimp only
  repeat' split
  all_goals simp [hp]

/-! ## What Ports leaves -/

@[simp] theorem badFrame_outside (hp : [.px, .sw, .im, .log, .ev, .out] ⊆ parts) (p f c limit rxLt s) :
    outside parts (badFrame p f c limit rxLt s) = outside parts s := by
  simp at hp
  simp [badFrame, hp]

@[simp] theorem goodCounters_outside (hp : [.px] ⊆ parts) (p f inner s) :
    outside parts (goodCounters p f inner s) = outside parts s := by
  simp at hp
  simp [goodCounters, hp]

@[simp] theorem macControl_outside (hp : [.px] ⊆ parts) (p f s) :
    outside parts (macControl p f s) = outside parts s := by
  simp at hp
  simp [macControl, hp]

@[simp] theorem duplicateOn_outside (hp : [.px] ⊆ parts) (k p tie src seq path s) :
    outside parts (duplicateOn k p tie src seq path s).1 = outside parts s := by
  simp at hp
  simp [duplicateOn, hp]

@[simp] theorem redundancyRx_outside (hp : [.px] ⊆ parts) (p f rxLt tie s) :
    outside parts (redundancyRx p f rxLt tie s).1 = outside parts s := by
  simp at hp
  unfold redundancyRx
  dsimp only
  repeat' split
  all_goals simp [hp]

@[simp] theorem frameForward_outside (hp : [.px, .sw, .im, .log, .ev, .out] ⊆ parts) (p f rxLt tagged codeErr bits s) :
    outside parts (frameForward p f rxLt tagged codeErr bits s) = outside parts s := by
  simp at hp
  unfold frameForward
  dsimp only
  split <;> simp [hp]

@[simp] theorem receiveFrame_outside (hp : [.px, .sw, .im, .log, .ev, .out] ⊆ parts) (p f rxLt tie s) :
    outside parts (receiveFrame p f rxLt tie s) = outside parts s := by
  simp at hp
  unfold receiveFrame
  split
  · rfl
  · extract_lets limit c stamp u v w
    have hv : outside parts v = outside parts s := by
      show outside parts (if _ then pxCount p 14 u else u) = _
      have hu : outside parts u = outside parts s := pxCountBy_outside (by simp [hp]) ..
      split <;> simp [hp, hu]
    have hw : outside parts w = outside parts s := (goodCounters_outside (by simp [hp]) ..).trans hv
    split
    · simp [hp, hv]
    · split
      · simp [hp, hw]
      · have hm := macsecRx_outside (parts := parts) (by simp [hp]) p f rxLt w
        split
        next he => rw [he] at hm; exact hm.trans hw
        next x g bits he =>
          rw [he] at hm
          have hr := redundancyRx_outside (parts := parts) (by simp [hp]) p g stamp tie x
          split <;> next hf => rw [hf] at hr; simpa [hp] using hr.trans (hm.trans hw)

@[simp] theorem execFrameReceive_outside (hp : [.px, .sw, .im, .log, .ev, .out] ⊆ parts) (p f rxLt tie s) :
    outsideRes parts (execFrameReceive p f rxLt tie s) = .next (outside parts s) := by
  simp at hp
  unfold execFrameReceive
  split
  · rfl
  · split
    · split
      · simp [hp]
      · simp [hp]
    · simp [hp]

@[simp] theorem execPauseTimerExpiry_outside (hp : [.px] ⊆ parts) (p s) :
    outsideRes parts (execPauseTimerExpiry p s) = .next (outside parts s) := by
  simp at hp
  unfold execPauseTimerExpiry
  split <;> simp [hp]

@[simp] theorem cellGuard_outside (hp : [.sw, .fo, .im, .pa, .grd, .log, .ev, .out] ⊆ parts) (reqTag h s) :
    outside parts (cellGuard reqTag h s) = outside parts s := by
  simp at hp
  simp [cellGuard, hp]

@[simp] theorem dropCopy_outside (hp : [.sw] ⊆ parts) (p q s) :
    outside parts (dropCopy p q s) = outside parts s := by
  simp at hp
  simp [dropCopy, hp]

@[simp] theorem startOn_outside (hp : [.tb, .px, .im, .log, .ev, .out] ⊆ parts) (p ring f rxLt tsReq tsId s) :
    outside parts (startOn p ring f rxLt tsReq tsId s) = outside parts s := by
  simp at hp
  have hd := ptpDepart_outside (parts := parts) (by simp [hp]) p ring f rxLt s
  unfold startOn
  split
  next f u he =>
  rw [he] at hd
  have hm := macsecTx_outside (parts := parts) (by simp [hp]) p f u
  split
  next hf => rw [hf] at hm; exact hm.trans hd
  next hf =>
    rw [hf] at hm
    split
    · simpa [hp] using hm.trans hd
    · dsimp only
      split <;> simpa [hp] using hm.trans hd

@[simp] theorem startCopy_outside (hp : [.tb, .px, .sw, .im, .log, .ev, .out] ⊆ parts) (p c s) :
    outside parts (startCopy p c s) = outside parts s := by
  simp at hp
  unfold startCopy
  dsimp only
  split <;> simp [hp]

@[simp] theorem guardDrop_outside (hp : [.sw, .fo, .im, .pa, .grd, .log, .ev, .out] ⊆ parts) (p c h s) :
    outside parts (guardDrop p c h s) = outside parts s := by
  simp at hp
  simp [guardDrop, hp]

theorem startRing_outside (hp : [.tb, .px, .im, .log, .ev, .out] ⊆ parts) {k p : Nat} {s t : State} (h : startRing k p s = some t) :
    outside parts t = outside parts s := by
  simp at hp
  unfold startRing at h
  split at h
  · cases h
    simp [hp]
  · nomatch h

@[simp] theorem execTransmitStart_outside (hp : [.tb, .px, .sw, .fo, .im, .pa, .grd, .log, .ev, .out] ⊆ parts) (p guard s) :
    outsideRes parts (execTransmitStart p guard s) = .next (outside parts s) := by
  simp at hp
  unfold execTransmitStart
  extract_lets p ring free
  have hring (u) (hr : ring = some u) : outside parts u = outside parts s := by
    unfold ring at hr
    split at hr
    · split at hr
      · exact startRing_outside (by simp [hp]) hr
      · nomatch hr
    · nomatch hr
  clear_value ring
  split
  · rfl
  · split
    next u => simp [hring u rfl]
    next =>
      have hg := guardRead_outside (parts := parts) (by simp [hp]) 0x2 guard s
      split
      · rfl
      · split
        · rfl
        · split
          · rfl
          · split
            next g u he =>
            rw [he] at hg
            split
            · simpa [hp] using hg
            · split <;> simpa [hp] using hg

@[simp] theorem txCounters_outside (hp : [.px] ⊆ parts) (p t s) :
    outside parts (txCounters p t s) = outside parts s := by
  simp at hp
  simp [txCounters, hp]

@[simp] theorem copyDone_outside (hp : [.sw] ⊆ parts) (p s) :
    outside parts (copyDone p s) = outside parts s := by
  simp at hp
  simp [copyDone, hp]

@[simp] theorem execTransmitEnd_outside (hp : [.px, .sw, .fo, .im, .pa, .grd, .log, .ev, .out] ⊆ parts) (p guard s) :
    outsideRes parts (execTransmitEnd p guard s) = .next (outside parts s) := by
  simp at hp
  unfold execTransmitEnd
  dsimp only
  repeat' split
  all_goals simp [hp]

@[simp] theorem sendFault_outside (hp : [.out] ⊆ parts) (p old s) :
    outside parts (sendFault p old s) = outside parts s := by
  simp at hp
  simp [sendFault, hp]

@[simp] theorem execLinkStateChange_outside (hp : [.px, .sw, .im, .log, .ev, .out] ⊆ parts) (p pcs fec fault unsupported s) :
    outsideRes parts (execLinkStateChange p pcs fec fault unsupported s) = .next (outside parts s) := by
  simp at hp
  simp [execLinkStateChange, hp]

@[simp] theorem sendSupervision_outside (hp : [.px, .qm, .pa] ⊆ parts) (k of s) :
    outside parts (sendSupervision k of s) = outside parts s := by
  simp at hp
  simp [sendSupervision, hp]

@[simp] theorem execSupervisionTx_outside (hp : [.px, .qm, .pa] ⊆ parts) (k s) :
    outsideRes parts (execSupervisionTx k s) = .next (outside parts s) := by
  simp at hp
  simp [execSupervisionTx, hp]

@[simp] theorem execSupervisionRx_outside (hp : [.px] ⊆ parts) (k node s) :
    outsideRes parts (execSupervisionRx k node s) = .next (outside parts s) := by
  simp at hp
  simp [execSupervisionRx, hp]

@[simp] theorem execDdtForget_outside (hp : [.px] ⊆ parts) (k s) :
    outsideRes parts (execDdtForget k s) = .next (outside parts s) := by
  simp at hp
  simp [execDdtForget, hp]

@[simp] theorem execProxyAgeing_outside (hp : [.px] ⊆ parts) (k s) :
    outsideRes parts (execProxyAgeing k s) = .next (outside parts s) := by
  simp at hp
  simp [execProxyAgeing, hp]

@[simp] theorem execPxStagePort_outside (hp : [.su, .im, .pa, .log, .ev, .glob, .out] ⊆ parts) (c p x s) :
    outsideRes parts (execPxStagePort c p x s) = .next (outside parts s) := by
  simp at hp
  simp [execPxStagePort, hp]

@[simp] theorem execPxStageFilter_outside (hp : [.su, .im, .pa, .log, .ev, .glob, .out] ⊆ parts) (c p l s) :
    outsideRes parts (execPxStageFilter c p l s) = .next (outside parts s) := by
  simp at hp
  simp [execPxStageFilter, hp]

@[simp] theorem execPxStageRedundancy_outside (hp : [.su, .im, .pa, .log, .ev, .glob, .out] ⊆ parts) (c pair x s) :
    outsideRes parts (execPxStageRedundancy c pair x s) = .next (outside parts s) := by
  simp at hp
  simp [execPxStageRedundancy, hp]

@[simp] theorem execPxStageMacsec_outside (hp : [.su, .im, .pa, .log, .ev, .glob, .out] ⊆ parts) (c p x s) :
    outsideRes parts (execPxStageMacsec c p x s) = .next (outside parts s) := by
  simp at hp
  simp [execPxStageMacsec, hp]

@[simp] theorem execPxMacsecSaSet_outside (hp : [.su, .px, .im, .pa, .log, .ev, .glob, .out] ⊆ parts) (c p rxChan an sa s) :
    outsideRes parts (execPxMacsecSaSet c p rxChan an sa s) = .next (outside parts s) := by
  simp at hp
  refine command_outside (by simp [hp]) _ _ _ _ fun u => ?_
  repeat' split
  all_goals simp [hp]

@[simp] theorem execPxMacsecTxAn_outside (hp : [.su, .px, .im, .pa, .log, .ev, .glob, .out] ⊆ parts) (c p an s) :
    outsideRes parts (execPxMacsecTxAn c p an s) = .next (outside parts s) := by
  simp at hp
  simp [execPxMacsecTxAn, hp]

@[simp] theorem advertise_outside (hp : [.out] ⊆ parts) (p s) :
    outside parts (advertise p s) = outside parts s := by
  simp at hp
  simp [advertise, hp]

@[simp] theorem retrain_outside (hp : [.px, .sw, .im, .log, .ev, .out] ⊆ parts) (p s) :
    outside parts (retrain p s) = outside parts s := by
  simp at hp
  simp [retrain, hp]

@[simp] theorem portOff_outside (hp : [.px, .sw, .im, .log, .ev, .out] ⊆ parts) (p s) :
    outside parts (portOff p s) = outside parts s := by
  simp at hp
  simp [portOff, hp]

@[simp] theorem partPxPortRestart_outside (hp : [.px, .sw, .im, .log, .ev, .out] ⊆ parts) (n s) :
    outside parts (partPxPortRestart n s).1 = outside parts s := by
  simp at hp
  simp [partPxPortRestart, hp]

@[simp] theorem execPxPortRestart_outside (hp : [.su, .px, .sw, .im, .pa, .log, .ev, .glob, .out] ⊆ parts) (c mask s) :
    outsideRes parts (execPxPortRestart c mask s) = .next (outside parts s) := by
  simp at hp
  simp [execPxPortRestart, hp]

@[simp] theorem partPxReadCounters_outside (hp : [.px] ⊆ parts) (c n s) :
    outside parts (partPxReadCounters c n s).1 = outside parts s := by
  simp at hp
  simp [partPxReadCounters, hp]

@[simp] theorem execPxReadCounters_outside (hp : [.su, .px, .im, .pa, .log, .ev, .glob, .out] ⊆ parts) (c mask s) :
    outsideRes parts (execPxReadCounters c mask s) = .next (outside parts s) := by
  simp at hp
  simp [execPxReadCounters, hp]

/-! ## What Fabric leaves -/

@[simp] theorem execTransmitQueueEntry_outside (hp : [.sw, .fo, .im, .pa, .grd, .log, .ev, .out] ⊆ parts) (p cls guard s) :
    outsideRes parts (execTransmitQueueEntry p cls guard s) = .next (outside parts s) := by
  simp at hp
  unfold execTransmitQueueEntry
  dsimp only
  repeat' split
  all_goals simp [hp]

@[simp] theorem execHoldExpiry_outside (hp : [.px, .sw, .im, .log, .ev, .out] ⊆ parts) (p back s) :
    outsideRes parts (execHoldExpiry p back s) = .next (outside parts s) := by
  simp at hp
  unfold execHoldExpiry
  dsimp only
  split <;> simp [hp]

@[simp] theorem execMaxAgeExpiry_outside (hp : [.px, .sw, .im, .log, .ev, .out] ⊆ parts) (p cls s) :
    outsideRes parts (execMaxAgeExpiry p cls s) = .next (outside parts s) := by
  simp at hp
  unfold execMaxAgeExpiry
  dsimp only
  split <;> simp [hp]

@[simp] theorem execFdbAgeing_outside (hp : [.sw] ⊆ parts) (s) :
    outsideRes parts (execFdbAgeing s) = .next (outside parts s) := by
  simp at hp
  simp [execFdbAgeing, hp]

@[simp] theorem execMirrorEnable_outside (hp : [.sw] ⊆ parts) (v s) :
    outsideRes parts (execMirrorEnable v s) = .next (outside parts s) := by
  simp at hp
  simp [execMirrorEnable, hp]

@[simp] theorem execSwStageLimits_outside (hp : [.su, .im, .pa, .log, .ev, .glob, .out] ⊆ parts) (c l s) :
    outsideRes parts (execSwStageLimits c l s) = .next (outside parts s) := by
  simp at hp
  simp [execSwStageLimits, hp]

@[simp] theorem execSwStageFdb_outside (hp : [.su, .im, .pa, .log, .ev, .glob, .out] ⊆ parts) (c l s) :
    outsideRes parts (execSwStageFdb c l s) = .next (outside parts s) := by
  simp at hp
  simp [execSwStageFdb, hp]

@[simp] theorem execSwStageVlan_outside (hp : [.su, .im, .pa, .log, .ev, .glob, .out] ⊆ parts) (c l s) :
    outsideRes parts (execSwStageVlan c l s) = .next (outside parts s) := by
  simp at hp
  simp [execSwStageVlan, hp]

@[simp] theorem execSwStagePorts_outside (hp : [.su, .im, .pa, .log, .ev, .glob, .out] ⊆ parts) (c x s) :
    outsideRes parts (execSwStagePorts c x s) = .next (outside parts s) := by
  simp at hp
  simp [execSwStagePorts, hp]

@[simp] theorem execSwStageMirror_outside (hp : [.su, .im, .pa, .log, .ev, .glob, .out] ⊆ parts) (c x s) :
    outsideRes parts (execSwStageMirror c x s) = .next (outside parts s) := by
  simp at hp
  simp [execSwStageMirror, hp]

@[simp] theorem partSwReadCounters_outside (hp : [.sw] ⊆ parts) (c n s) :
    outside parts (partSwReadCounters c n s).1 = outside parts s := by
  simp at hp
  simp [partSwReadCounters, hp]

@[simp] theorem execSwReadCounters_outside (hp : [.su, .sw, .im, .pa, .log, .ev, .glob, .out] ⊆ parts) (c mask s) :
    outsideRes parts (execSwReadCounters c mask s) = .next (outside parts s) := by
  simp at hp
  simp [execSwReadCounters, hp]

@[simp] theorem partSwFdbFlush_outside (hp : [.sw] ⊆ parts) (n s) :
    outside parts (partSwFdbFlush n s).1 = outside parts s := by
  simp at hp
  simp [partSwFdbFlush, hp]

@[simp] theorem execSwFdbFlush_outside (hp : [.su, .sw, .im, .pa, .log, .ev, .glob, .out] ⊆ parts) (c mask s) :
    outsideRes parts (execSwFdbFlush c mask s) = .next (outside parts s) := by
  simp at hp
  simp [execSwFdbFlush, hp]

@[simp] theorem execSwFdbRead_outside (hp : [.su, .im, .pa, .log, .ev, .glob, .out] ⊆ parts) (c s) :
    outsideRes parts (execSwFdbRead c s) = .next (outside parts s) := by
  simp at hp
  simp [execSwFdbRead, hp]

/-! ## What PointStore leaves -/

@[simp] theorem execBatchApply_outside (hp : [.se, .ar, .fb, .ps, .fo, .im, .log, .ev, .out] ⊆ parts) (s) :
    outsideRes parts (execBatchApply s) = .next (outside parts s) := by
  simp at hp
  unfold execBatchApply
  dsimp only
  repeat' split
  all_goals simp [hp]

@[simp] theorem execStaleMark_outside (hp : [.se, .ps] ⊆ parts) (i s) :
    outsideRes parts (execStaleMark i s) = .next (outside parts s) := by
  simp at hp
  unfold execStaleMark
  repeat' split
  all_goals simp [hp]

@[simp] theorem execPsStagePoints_outside (hp : [.su, .im, .pa, .log, .ev, .glob, .out] ⊆ parts) (c defs pubs tPsw s) :
    outsideRes parts (execPsStagePoints c defs pubs tPsw s) = .next (outside parts s) := by
  simp at hp
  simp [execPsStagePoints, hp]

@[simp] theorem execPsReadPoints_outside (hp : [.su, .ar, .ps, .fo, .im, .pa, .grd, .log, .ev, .glob, .out] ⊆ parts) (c l guard forces s) :
    outsideRes parts (execPsReadPoints c l guard forces s) = .next (outside parts s) := by
  simp at hp
  refine command_outside (by simp [hp]) _ _ _ _ fun u => ?_
  simp [hp]

@[simp] theorem countRefused_outside (hp : [.ps] ⊆ parts) (x s) :
    outside parts (countRefused x s) = outside parts s := by
  simp at hp
  simp [countRefused, hp]

@[simp] theorem execPsWrite_outside (hp : [.su, .ps, .im, .pa, .log, .ev, .glob, .out] ⊆ parts) (c l mask s) :
    outsideRes parts (execPsWrite c l mask s) = .next (outside parts s) := by
  simp at hp
  refine command_outside (by simp [hp]) _ _ _ _ fun u => ?_
  dsimp only
  split
  · rfl
  · rw [sendBatch_outside (by simp [hp])]
    exact multipart_outside _ _ fun n v => by simp [hp]

@[simp] theorem setForce_outside (hp : [.ar, .ps] ⊆ parts) (c e s) :
    outside parts (setForce c e s).1 = outside parts s := by
  simp at hp
  unfold setForce
  split <;> simp [hp]

@[simp] theorem execPsForceSet_outside (hp : [.su, .ar, .ps, .im, .pa, .log, .ev, .glob, .out] ⊆ parts) (c l mask s) :
    outsideRes parts (execPsForceSet c l mask s) = .next (outside parts s) := by
  simp at hp
  refine command_outside (by simp [hp]) _ _ _ _ fun u => ?_
  dsimp only
  split
  · rfl
  · refine multipart_outside _ _ fun n v => ?_
    split <;> simp [hp]

@[simp] theorem clearForce_outside (hp : [.ar, .ps] ⊆ parts) (c i s) :
    outside parts (clearForce c i s).1 = outside parts s := by
  simp at hp
  unfold clearForce
  repeat' split
  all_goals simp [hp]

@[simp] theorem execPsForceClear_outside (hp : [.su, .ar, .ps, .im, .pa, .log, .ev, .glob, .out] ⊆ parts) (c l mask s) :
    outsideRes parts (execPsForceClear c l mask s) = .next (outside parts s) := by
  simp at hp
  refine command_outside (by simp [hp]) _ _ _ _ fun u => ?_
  dsimp only
  split
  · rfl
  · refine multipart_outside _ _ fun n v => ?_
    split <;> simp [hp]

@[simp] theorem execPsForceListCurrent_outside (hp : [.su, .im, .pa, .log, .ev, .glob, .out] ⊆ parts) (c s) :
    outsideRes parts (execPsForceListCurrent c s) = .next (outside parts s) := by
  simp at hp
  simp [execPsForceListCurrent, hp]

@[simp] theorem execPsForceListDropped_outside (hp : [.su, .im, .pa, .log, .ev, .glob, .out] ⊆ parts) (c s) :
    outsideRes parts (execPsForceListDropped c s) = .next (outside parts s) := by
  simp at hp
  simp [execPsForceListDropped, hp]

/-! ## What PhasorOps leaves -/

@[simp] theorem putTurn_outside (hp : [.pe] ⊆ parts) (c before x s) :
    outside parts (putTurn c before x s) = outside parts s := by
  simp at hp
  unfold putTurn
  split <;> simp [hp]

@[simp] theorem openEst_outside (hp : [.free] ⊆ parts) (x tr late s) :
    outside parts (openEst x tr late s).2 = outside parts s := by
  simp at hp
  simp [openEst, hp]

/-! ## What RecorderOps leaves -/

@[simp] theorem modWsl_outside (hp : [.ar] ⊆ parts) (k f s) :
    outside parts (modWsl k f s) = outside parts s := by
  simp at hp
  simp [modWsl, hp]

@[simp] theorem setWsl_outside (hp : [.ar, .im, .log, .ev, .out] ⊆ parts) (k st' s) :
    outside parts (setWsl k st' s) = outside parts s := by
  simp at hp
  simp [setWsl, hp]

@[simp] theorem modRec_outside (hp : [.ar] ⊆ parts) (r f s) :
    outside parts (modRec r f s) = outside parts s := by
  simp at hp
  simp [modRec, hp]

@[simp] theorem recordSample_outside (hp : [.ar] ⊆ parts) (src on tag v good s) :
    outside parts (recordSample src on tag v good s) = outside parts s := by
  simp at hp
  simp [recordSample, hp]

@[simp] theorem feedComp_outside (hp : [.ar] ⊆ parts) (n v tag good s) :
    outside parts (feedComp n v tag good s) = outside parts s := by
  simp at hp
  unfold feedComp
  dsimp only
  repeat' split
  all_goals simp [hp]

@[simp] theorem feedComps_outside (hp : [.ar] ⊆ parts) (src v tag good s) :
    outside parts (feedComps src v tag good s) = outside parts s := by
  simp at hp
  simp [feedComps, hp]

@[simp] theorem acquireLane_outside (hp : [.ar] ⊆ parts) (l x s) :
    outside parts (acquireLane l x s) = outside parts s := by
  simp at hp
  simp [acquireLane, hp]

@[simp] theorem deliverWsl_outside (hp : [.fr, .ar] ⊆ parts) (k e vals q s) :
    outside parts (deliverWsl k e vals q s) = outside parts s := by
  simp at hp
  simp [deliverWsl, hp]

@[simp] theorem lastGoodOf_outside (hp : [.free] ⊆ parts) (k s) :
    outside parts (lastGoodOf k s).2 = outside parts s := by
  simp at hp
  unfold lastGoodOf
  split <;> simp [hp]

@[simp] theorem deliverBad_outside (hp : [.fr, .ar, .free] ⊆ parts) (k e q s) :
    outside parts (deliverBad k e q s) = outside parts s := by
  simp at hp
  simp [deliverBad, hp]

@[simp] theorem deliverGood_outside (hp : [.fr, .ar, .free] ⊆ parts) (k e vals s) :
    outside parts (deliverGood k e vals s) = outside parts s := by
  simp at hp
  simp [deliverGood, hp]

@[simp] theorem flushWsl_outside (hp : [.fr, .ar, .free] ⊆ parts) (k n s) : outside parts (flushWsl k n s) = outside parts s := by
  simp at hp
  induction n generalizing s with
  | zero => rfl
  | succ n ih =>
    unfold flushWsl
    dsimp only
    split
    · rw [ih]
      split <;> simp [hp]
    · rfl

@[simp] theorem noteFrame_outside (hp : [.ar, .im, .log, .ev, .out] ⊆ parts) (k failed consecutive s) :
    outside parts (noteFrame k failed consecutive s) = outside parts s := by
  simp at hp
  unfold noteFrame
  dsimp only
  repeat' split
  all_goals simp [hp]

@[simp] theorem moveWrite_outside (hp : [.ar] ⊆ parts) (r n size s) :
    outside parts (moveWrite r n size s) = outside parts s := by
  simp at hp
  simp [moveWrite, hp]

@[simp] theorem closeRecord_outside (hp : [.ar] ⊆ parts) (r trunc x s) :
    outside parts (closeRecord r trunc x s) = outside parts s := by
  simp at hp
  simp [closeRecord, hp]

@[simp] theorem placeRow_outside (hp : [.ar] ⊆ parts) (r x row s) :
    outside parts (placeRow r x row s).2 = outside parts s := by
  simp at hp
  unfold placeRow
  split <;> simp [hp]

@[simp] theorem placeRows_outside (hp : [.ar] ⊆ parts) (r x l s) : outside parts (placeRows r x l s).2 = outside parts s :=
  outside_foldl_snd _ (fun _ _ => placeRow_outside hp ..) _ _

@[simp] theorem startRecord_outside (hp : [.ar] ⊆ parts) (r x t ch late s) :
    outside parts (startRecord r x t ch late s).2 = outside parts s := by
  simp at hp
  simp [startRecord, hp]

@[simp] theorem takeTrigger_outside (hp : [.ar, .im, .log, .ev, .out] ⊆ parts) (r x t ch late s) :
    outside parts (takeTrigger r x t ch late s).2 = outside parts s := by
  simp at hp
  unfold takeTrigger
  dsimp only
  repeat' split
  all_goals simp [hp]

@[simp] theorem evalTick_outside (hp : [.ar, .im, .log, .ev, .free, .out] ⊆ parts) (r live x s) :
    outside parts (evalTick r live x s).2 = outside parts s := by
  simp at hp
  unfold evalTick
  dsimp only
  repeat' split
  all_goals simp [hp]

@[simp] theorem baseRow_outside (hp : [.free] ⊆ parts) (x vals t s) : outside parts (baseRow x vals t s).2 = outside parts s := by
  simp at hp
  have drawn (l : List (Option (BitVec 32 × Bool))) (a : List (BitVec 32) × Nat × Nat × State) : outside parts (l.foldl (fun a v => match v with
      | some (v, good) => (a.1 ++ [v], a.2.1 + (if good then 0 else 2 ^ a.2.2.1), a.2.2.1 + 1, a.2.2.2)
      | none => let (n, s) := draw a.2.2.2; (a.1 ++ [BitVec.ofNat 32 n], a.2.1 + 2 ^ a.2.2.1, a.2.2.1 + 1, s)) a).2.2.2 = outside parts a.2.2.2 := by
    induction l generalizing a with
    | nil => rfl
    | cons v l ih =>
      rw [List.foldl_cons, ih]
      split <;> simp [hp]
  exact drawn ..

@[simp] theorem overwriteHeld_outside (hp : [.ar] ⊆ parts) (r c n s) : outside parts (overwriteHeld r c n s) = outside parts s := by
  simp at hp
  induction n generalizing s with
  | zero => rfl
  | succ n ih => simp [overwriteHeld, ih, hp]

@[simp] theorem enterFull_outside (hp : [.ar, .im, .log, .ev, .out] ⊆ parts) (r x s) :
    outside parts (enterFull r x s).2 = outside parts s := by
  simp at hp
  unfold enterFull
  split <;> simp [hp]

theorem outside_of_some {α : Type} {a : α × State} {b : α} {t : State} (h : some a = some (b, t)) : outside parts t = outside parts a.2 := by
  cases h
  rfl

theorem writeRow_outside (hp : [.ar, .im, .log, .ev, .free, .out] ⊆ parts) {r : Nat} {x y : RecRun} {s t : State}
    (h : writeRow r x s = some (y, t)) : outside parts t = outside parts s := by
  simp at hp
  have hb := baseRow_outside (parts := parts) (by simp [hp]) x
  unfold writeRow at h
  split at h
  · nomatch h
  next at_ _ =>
    extract_lets b vals at h
    split at h
    · nomatch h
    · split at h
      next row u he =>
      have hu := hb (vals.map (·.getD none)) at_ s
      rw [he] at hu
      split at h
      · exact (outside_of_some h).trans hu
      · extract_lets v at h
        have hv : outside parts v = outside parts s := by
          show outside parts (if _ then u else overwriteHeld _ _ _ u) = _
          split <;> simpa [hp] using hu
        split at h <;> (rw [outside_of_some h]; simp [hp, hv])

@[simp] theorem endOpen_outside (hp : [.ar] ⊆ parts) (r keep s) :
    outside parts (endOpen r keep s) = outside parts s := by
  simp at hp
  unfold endOpen
  dsimp only
  repeat' split
  all_goals simp [hp]

@[simp] theorem armRecorder_outside (hp : [.ar] ⊆ parts) (r s) :
    outside parts (armRecorder r s) = outside parts s := by
  simp at hp
  unfold armRecorder
  split <;> simp [hp]

@[simp] theorem stopRecorder_outside (hp : [.ar] ⊆ parts) (r keep s) :
    outside parts (stopRecorder r keep s) = outside parts s := by
  simp at hp
  simp [stopRecorder, hp]

@[simp] theorem resumeFull_outside (hp : [.ar] ⊆ parts) (r s) :
    outside parts (resumeFull r s) = outside parts s := by
  simp at hp
  unfold resumeFull
  split <;> simp [hp]

/-! ## What Recorder leaves -/

@[simp] theorem execWslFrameReceive_outside (hp : [.fr, .ar, .im, .log, .ev, .free, .out] ⊆ parts) (k f s) :
    outsideRes parts (execWslFrameReceive k f s) = .next (outside parts s) := by
  simp at hp
  unfold execWslFrameReceive
  dsimp only
  repeat' split
  all_goals simp [hp]

@[simp] theorem execWslFrameDeadline_outside (hp : [.fr, .ar, .im, .log, .ev, .free, .out] ⊆ parts) (k s) :
    outsideRes parts (execWslFrameDeadline k s) = .next (outside parts s) := by
  simp at hp
  simp [execWslFrameDeadline, hp]

@[simp] theorem execWslRetrainDone_outside (hp : [.ar] ⊆ parts) (k s) :
    outsideRes parts (execWslRetrainDone k s) = .next (outside parts s) := by
  simp at hp
  simp [execWslRetrainDone, hp]

@[simp] theorem modEdge_outside (hp : [.ar] ⊆ parts) (e f s) :
    outside parts (modEdge e f s) = outside parts s := by
  simp at hp
  simp [modEdge, hp]

@[simp] theorem edgeFifo_outside (hp : [.ar, .im, .log, .ev, .out] ⊆ parts) (e rising t s) :
    outside parts (edgeFifo e rising t s) = outside parts s := by
  simp at hp
  simp [edgeFifo, hp]

@[simp] theorem execFastEdgeArrival_outside (hp : [.ar, .ps, .im, .log, .ev, .out] ⊆ parts) (e rising bin pulse s) :
    outsideRes parts (execFastEdgeArrival e rising bin pulse s) = .next (outside parts s) := by
  simp at hp
  unfold execFastEdgeArrival
  dsimp only
  repeat' split
  all_goals simp [hp]

@[simp] theorem execTdcCalibrationDone_outside (hp : [.ar, .im, .pa, .log, .ev, .out] ⊆ parts) (e bins s) :
    outsideRes parts (execTdcCalibrationDone e bins s) = .next (outside parts s) := by
  simp at hp
  simp [execTdcCalibrationDone, hp]

@[simp] theorem edgeTake_outside (hp : [.ar] ⊆ parts) (e s) :
    outside parts (edgeTake e s).2 = outside parts s := by
  simp at hp
  simp [edgeTake, hp]

@[simp] theorem execEdgePop_outside (hp : [.ar, .im, .out] ⊆ parts) (rq e wide s) :
    outsideRes parts (execEdgePop rq e wide s) = .next (outside parts s) := by
  simp at hp
  simp [execEdgePop, hp]

@[simp] theorem dropOld_outside (hp : [.ar] ⊆ parts) (r s) :
    outside parts (dropOld r s) = outside parts s := by
  simp at hp
  unfold dropOld
  split <;> simp [hp]

@[simp] theorem execPatternTickEval_outside (hp : [.ar, .im, .log, .ev, .free, .out] ⊆ parts) (r s) :
    outsideRes parts (execPatternTickEval r s) = .next (outside parts s) := by
  simp at hp
  unfold execPatternTickEval
  dsimp only
  repeat' split
  all_goals simp [hp]

@[simp] theorem execRowWrite_outside (hp : [.ar, .im, .log, .ev, .free, .out] ⊆ parts) (r s) :
    outsideRes parts (execRowWrite r s) = .next (outside parts s) := by
  simp at hp
  unfold execRowWrite
  dsimp only
  split
  · rfl
  · split
    · split
      next hw => simp [hp, writeRow_outside (parts := parts) (by simp [hp]) hw]
      next => rfl
    · split
      next hw => simp [hp, writeRow_outside (parts := parts) (by simp [hp]) hw]
      next => rfl
    · rfl

@[simp] theorem execRecordComplete_outside (hp : [.ar, .im, .log, .ev, .out] ⊆ parts) (r s) :
    outsideRes parts (execRecordComplete r s) = .next (outside parts s) := by
  simp at hp
  unfold execRecordComplete
  dsimp only
  split <;> simp [hp]

@[simp] theorem execArStageWsl_outside (hp : [.su, .im, .pa, .log, .ev, .glob, .out] ⊆ parts) (c l s) :
    outsideRes parts (execArStageWsl c l s) = .next (outside parts s) := by
  simp at hp
  simp [execArStageWsl, hp]

@[simp] theorem execArStageEdges_outside (hp : [.su, .im, .pa, .log, .ev, .glob, .out] ⊆ parts) (c l s) :
    outsideRes parts (execArStageEdges c l s) = .next (outside parts s) := by
  simp at hp
  simp [execArStageEdges, hp]

@[simp] theorem execArStageComparators_outside (hp : [.su, .im, .pa, .log, .ev, .glob, .out] ⊆ parts) (c l s) :
    outsideRes parts (execArStageComparators c l s) = .next (outside parts s) := by
  simp at hp
  simp [execArStageComparators, hp]

@[simp] theorem execArStageRecorders_outside (hp : [.su, .im, .pa, .log, .ev, .glob, .out] ⊆ parts) (c l s) :
    outsideRes parts (execArStageRecorders c l s) = .next (outside parts s) := by
  simp at hp
  simp [execArStageRecorders, hp]

@[simp] theorem partArTrigger_outside (hp : [.ar] ⊆ parts) (c n s) :
    outside parts (partArTrigger c n s).1 = outside parts s := by
  simp at hp
  simp [partArTrigger, hp]

@[simp] theorem execArTrigger_outside (hp : [.su, .ar, .im, .pa, .log, .ev, .glob, .out] ⊆ parts) (c mask s) :
    outsideRes parts (execArTrigger c mask s) = .next (outside parts s) := by
  simp at hp
  simp [execArTrigger, hp]

@[simp] theorem partArRecorderArm_outside (hp : [.ar] ⊆ parts) (c n s) :
    outside parts (partArRecorderArm c n s).1 = outside parts s := by
  simp at hp
  simp [partArRecorderArm, hp]

@[simp] theorem execArRecorderArm_outside (hp : [.su, .ar, .im, .pa, .log, .ev, .glob, .out] ⊆ parts) (c mask s) :
    outsideRes parts (execArRecorderArm c mask s) = .next (outside parts s) := by
  simp at hp
  simp [execArRecorderArm, hp]

@[simp] theorem partArRecorderStop_outside (hp : [.ar] ⊆ parts) (c n s) :
    outside parts (partArRecorderStop c n s).1 = outside parts s := by
  simp at hp
  simp [partArRecorderStop, hp]

@[simp] theorem execArRecorderStop_outside (hp : [.su, .ar, .im, .pa, .log, .ev, .glob, .out] ⊆ parts) (c mask s) :
    outsideRes parts (execArRecorderStop c mask s) = .next (outside parts s) := by
  simp at hp
  simp [execArRecorderStop, hp]

@[simp] theorem execArRecordList_outside (hp : [.su, .im, .pa, .log, .ev, .glob, .out] ⊆ parts) (c r s) :
    outsideRes parts (execArRecordList c r s) = .next (outside parts s) := by
  simp at hp
  simp [execArRecordList, hp]

@[simp] theorem execArRecordRead_outside (hp : [.su, .ar, .im, .pa, .grd, .log, .ev, .glob, .out] ⊆ parts) (c r no off len guard s) :
    outsideRes parts (execArRecordRead c r no off len guard s) = .next (outside parts s) := by
  simp at hp
  refine command_outside (by simp [hp]) _ _ _ _ fun u => ?_
  split
  · rfl
  · split
    · rfl
    · split
      · rfl
      · refine (outside_foldl _ (fun v e => ?_) _ _).trans ?_ <;> simp [hp]

@[simp] theorem execArRecordRelease_outside (hp : [.su, .ar, .im, .pa, .log, .ev, .glob, .out] ⊆ parts) (c r nos s) :
    outsideRes parts (execArRecordRelease c r nos s) = .next (outside parts s) := by
  simp at hp
  simp [execArRecordRelease, hp]

@[simp] theorem partArReadCounters_outside (hp : [.ar] ⊆ parts) (c n s) :
    outside parts (partArReadCounters c n s).1 = outside parts s := by
  simp at hp
  simp [partArReadCounters, hp]

@[simp] theorem execArReadCounters_outside (hp : [.su, .ar, .im, .pa, .log, .ev, .glob, .out] ⊆ parts) (c mask s) :
    outsideRes parts (execArReadCounters c mask s) = .next (outside parts s) := by
  simp at hp
  simp [execArReadCounters, hp]

@[simp] theorem commitWsl_outside (hp : [.ar, .im, .log, .ev, .out] ⊆ parts) (t view k s) :
    outside parts (commitWsl t view k s) = outside parts s := by
  simp at hp
  simp [commitWsl, hp]

@[simp] theorem commitRec_outside (hp : [.ar] ⊆ parts) (t view r s) :
    outside parts (commitRec t view r s) = outside parts s := by
  simp at hp
  unfold commitRec
  dsimp only
  split <;> simp [hp]

@[simp] theorem arCommit_outside (hp : [.ar, .im, .log, .ev, .out] ⊆ parts) (t active s) :
    outside parts (arCommit t active s) = outside parts s := by
  simp at hp
  simp [arCommit, hp]

@[simp] theorem arSecond_outside (hp : [.ar] ⊆ parts) (ltS s) : outside parts (arSecond ltS s) = outside parts s := by
  simp at hp
  refine outside_foldl _ (fun u k => ?_) _ _
  dsimp only
  repeat' split
  all_goals simp [hp]

@[simp] theorem arOff_outside (hp : [.ar, .im, .log, .ev, .out] ⊆ parts) (s) :
    outside parts (arOff s) = outside parts s := by
  simp at hp
  simp [arOff, hp]

@[simp] theorem arOn_outside (hp : [.ar] ⊆ parts) (s) :
    outside parts (arOn s) = outside parts s := by
  simp at hp
  simp [arOn, hp]

/-! ## What Filter leaves -/

@[simp] theorem consumeSample_outside (hp : [.fr, .pe, .ar, .ps] ⊆ parts) (l c n x s) :
    outside parts (consumeSample l c n x s) = outside parts s := by
  simp at hp
  unfold consumeSample
  dsimp only
  repeat' split
  all_goals simp [hp]

@[simp] theorem laneGuard_outside (hp : [.fr, .pe, .im, .grd, .log, .ev, .out] ⊆ parts) (l h s) :
    outside parts (laneGuard l h s) = outside parts s := by
  simp at hp
  simp [laneGuard, hp]

@[simp] theorem tableGuard_outside (hp : [.fr, .fo, .im, .pa, .grd, .log, .ev, .out] ⊆ parts) (l proto n h s) :
    outside parts (tableGuard l proto n h s) = outside parts s := by
  simp at hp
  simp [tableGuard, hp]

@[simp] theorem laneFinding_outside (hp : [.fr, .pe, .fo, .im, .pa, .grd, .log, .ev, .out] ⊆ parts) (l f s) :
    outside parts (laneFinding l f s) = outside parts s := by
  simp at hp
  unfold laneFinding
  split <;> simp [hp]

@[simp] theorem execLaneOutputRelease_outside (hp : [.fr, .pe, .ar, .ps, .fo, .im, .pa, .grd, .log, .ev, .out] ⊆ parts) (l f s) :
    outsideRes parts (execLaneOutputRelease l f s) = .next (outside parts s) := by
  simp at hp
  unfold execLaneOutputRelease
  dsimp only
  repeat' split
  all_goals simp [hp]

@[simp] theorem execGridCycleStart_outside (hp : [.fr] ⊆ parts) (g s) :
    outsideRes parts (execGridCycleStart g s) = .next (outside parts s) := by
  simp at hp
  unfold execGridCycleStart
  dsimp only
  split <;> simp [hp]

@[simp] theorem execTrackingHold_outside (hp : [.fr, .im, .log, .ev, .out] ⊆ parts) (g s) :
    outsideRes parts (execTrackingHold g s) = .next (outside parts s) := by
  simp at hp
  unfold execTrackingHold
  dsimp only
  split <;> simp [hp]

@[simp] theorem execTrackingNominal_outside (hp : [.fr, .im, .log, .ev, .out] ⊆ parts) (g s) :
    outsideRes parts (execTrackingNominal g s) = .next (outside parts s) := by
  simp at hp
  simp [execTrackingNominal, hp]

@[simp] theorem execCoefReloadDone_outside (hp : [.fr, .pe] ⊆ parts) (proto n s) :
    outsideRes parts (execCoefReloadDone proto n s) = .next (outside parts s) := by
  simp at hp
  simp [execCoefReloadDone, hp]

@[simp] theorem execFrStageLanes_outside (hp : [.su, .im, .pa, .log, .ev, .glob, .out] ⊆ parts) (c l s) :
    outsideRes parts (execFrStageLanes c l s) = .next (outside parts s) := by
  simp at hp
  simp [execFrStageLanes, hp]

@[simp] theorem execFrStageTrack_outside (hp : [.su, .im, .pa, .log, .ev, .glob, .out] ⊆ parts) (c l s) :
    outsideRes parts (execFrStageTrack c l s) = .next (outside parts s) := by
  simp at hp
  simp [execFrStageTrack, hp]

@[simp] theorem execFrStageCoef_outside (hp : [.su, .im, .pa, .log, .ev, .glob, .out] ⊆ parts) (c l s) :
    outsideRes parts (execFrStageCoef c l s) = .next (outside parts s) := by
  simp at hp
  simp [execFrStageCoef, hp]

@[simp] theorem partFrLaneRestart_outside (hp : [.fr, .pe] ⊆ parts) (c base n s) :
    outside parts (partFrLaneRestart c base n s).1 = outside parts s := by
  simp at hp
  simp [partFrLaneRestart, hp]

@[simp] theorem execFrLaneRestart_outside (hp : [.su, .fr, .pe, .im, .pa, .log, .ev, .glob, .out] ⊆ parts) (c base mask s) :
    outsideRes parts (execFrLaneRestart c base mask s) = .next (outside parts s) := by
  simp at hp
  simp [execFrLaneRestart, hp]

@[simp] theorem commitTrk_outside (hp : [.fr, .im, .log, .ev, .out] ⊆ parts) (t view g s) :
    outside parts (commitTrk t view g s) = outside parts s := by
  simp at hp
  unfold commitTrk
  split <;> simp [hp]

@[simp] theorem commitLane_outside (hp : [.fr, .pe] ⊆ parts) (t old view l s) :
    outside parts (commitLane t old view l s) = outside parts s := by
  simp at hp
  unfold commitLane
  split <;> simp [hp]

@[simp] theorem frCommit_outside (hp : [.fr, .pe, .im, .log, .ev, .out] ⊆ parts) (t active s) :
    outside parts (frCommit t active s) = outside parts s := by
  simp at hp
  simp [frCommit, hp]

@[simp] theorem frOff_outside (hp : [.fr] ⊆ parts) (s) :
    outside parts (frOff s) = outside parts s := by
  simp at hp
  simp [frOff, hp]

@[simp] theorem frOn_outside (hp : [.fr, .pe, .im, .log, .ev, .out] ⊆ parts) (s) :
    outside parts (frOn s) = outside parts s := by
  simp at hp
  simp [frOn, hp]

/-! ## What Phasor leaves -/

@[simp] theorem noteEst_outside (hp : [.pe] ⊆ parts) (c before e range s) :
    outside parts (noteEst c before e range s) = outside parts s := by
  simp at hp
  unfold noteEst
  split <;> simp [hp]

@[simp] theorem setPoints_outside (hp : [.pe, .ps] ⊆ parts) (c tr s) :
    outside parts (setPoints c tr s) = outside parts s := by
  simp at hp
  unfold setPoints
  split <;> simp [hp]

@[simp] theorem releaseEst_outside (hp : [.fr, .pe, .ps, .im, .log, .ev, .out] ⊆ parts) (c n before k e range s) :
    outside parts (releaseEst c n before k e range s) = outside parts s := by
  simp at hp
  simp [releaseEst, hp]

theorem nextEst_outside (hp : [.free] ⊆ parts) {c : Nat} {x : PeChan} {tr : LT} {e : PeEst} {range : Bool} {s t : State}
    (h : nextEst s c x = some (tr, e, range, t)) : outside parts t = outside parts s := by
  simp at hp
  have ho (tr') := openEst_outside (parts := parts) (by simp [hp]) x tr' false s
  unfold nextEst at h
  split at h
  · nomatch h
  · extract_lets o at h
    have hopen (h : o = some (tr, e, range, t)) : outside parts t = outside parts s := by
      unfold o at h
      cases h
      exact ho tr
    split at h
    · split at h
      · exact hopen h
      · nomatch h
    · exact hopen h
    · split at h
      · nomatch h
      · cases h
        rfl

@[simp] theorem chanGuard_outside (hp : [.pe, .im, .grd, .log, .ev, .out] ⊆ parts) (c h s) :
    outside parts (chanGuard c h s) = outside parts s := by
  simp at hp
  simp [chanGuard, hp]

@[simp] theorem execEstimateRelease_outside (hp : [.fr, .pe, .ps, .im, .grd, .log, .ev, .free, .out] ⊆ parts) (c guard s) :
    outsideRes parts (execEstimateRelease c guard s) = .next (outside parts s) := by
  simp at hp
  have hg := guardRead_outside (parts := parts) (by simp [hp]) 0x6 guard s
  unfold execEstimateRelease
  split
  · rfl
  · extract_lets c
    split
    next g u he =>
    rw [he] at hg
    extract_lets v
    have hv : outside parts v = outside parts s := by
      unfold v
      split <;> simpa [hp] using hg
    split
    next t x _ =>
    split
    · simp [hv]
    next hn => simp [hp, nextEst_outside (parts := parts) (by simp [hp]) hn, hv]

@[simp] theorem modStr_outside (hp : [.pe] ⊆ parts) (k f s) :
    outside parts (modStr k f s) = outside parts s := by
  simp at hp
  simp [modStr, hp]

@[simp] theorem modTurn_outside (hp : [.pe] ⊆ parts) (k before f s) :
    outside parts (modTurn k before f s) = outside parts s := by
  simp at hp
  unfold modTurn
  split <;> simp [hp]

@[simp] theorem completeChan_outside (hp : [.fr, .pe, .ps, .im, .log, .ev, .free, .out] ⊆ parts) (c tr n s) :
    outside parts (completeChan c tr n s) = outside parts s := by
  simp at hp
  induction n generalizing s with
  | zero => rfl
  | succ n ih =>
    unfold completeChan
    split
    next b x _ =>
    split
    · rfl
    next t _ =>
      have ho := openEst_outside (parts := parts) (by simp [hp]) x t true s
      split
      · split
        next e u he =>
        rw [he] at ho
        dsimp only
        rw [ih]
        simpa [hp] using ho
      · rfl

@[simp] theorem execStreamDeadline_outside (hp : [.fr, .pe, .ps, .im, .log, .ev, .free, .out] ⊆ parts) (k s) :
    outsideRes parts (execStreamDeadline k s) = .next (outside parts s) := by
  simp at hp
  unfold execStreamDeadline
  split <;> simp [hp]

@[simp] theorem handFrame_outside (hp : [.qm, .pe, .fo, .pa] ⊆ parts) (k x tr s) : outside parts (handFrame k x tr s) = outside parts s := by
  simp at hp
  unfold handFrame
  extract_lets bytes q
  have h := sendPacket_outside (parts := parts) (by simp [hp]) q 0 (descBytes { cls := x.cfg.net.cls.val, length := bytes.length }) bytes s
  split <;> next he => rw [he] at h; simpa [hp] using h

@[simp] theorem execDataFrameHandover_outside (hp : [.qm, .pe, .fo, .pa] ⊆ parts) (k s) :
    outsideRes parts (execDataFrameHandover k s) = .next (outside parts s) := by
  simp at hp
  unfold execDataFrameHandover
  dsimp only
  split <;> simp [hp]

@[simp] theorem execCfgChangeTimeout_outside (hp : [.pe] ⊆ parts) (k s) :
    outsideRes parts (execCfgChangeTimeout k s) = .next (outside parts s) := by
  simp at hp
  simp [execCfgChangeTimeout, hp]

/-- A command of a client of a stream reaches the stream, and what its meaning reaches (R290). -/
@[simp] theorem c37Command_outside (hp : .pe ∈ parts) (k) {act : PeStream → State → State} (s)
    (ha : ∀ x u, outside parts (act x u) = outside parts u) : outsideRes parts (c37Command k act s) = .next (outside parts s) := by
  unfold c37Command
  split
  · rfl
  · dsimp only
    split <;> simp [ha, hp]

@[simp] theorem c37Reply_outside (hp : [.qm, .pa] ⊆ parts) (x to_ frame s) :
    outside parts (c37Reply x to_ frame s) = outside parts s := by
  simp at hp
  simp [c37Reply, hp]

@[simp] theorem execC37CmdDataOff_outside (hp : [.pe] ⊆ parts) (k s) : outsideRes parts (execC37CmdDataOff k s) = .next (outside parts s) := by
  simp at hp
  exact c37Command_outside hp k s fun x u => by simp [hp]

@[simp] theorem execC37CmdDataOn_outside (hp : [.pe] ⊆ parts) (k s) : outsideRes parts (execC37CmdDataOn k s) = .next (outside parts s) := by
  simp at hp
  exact c37Command_outside hp k s fun x u => by simp [hp]

@[simp] theorem execC37CmdHeader_outside (hp : [.qm, .pe, .pa] ⊆ parts) (k to_ s) :
    outsideRes parts (execC37CmdHeader k to_ s) = .next (outside parts s) := by
  simp at hp
  exact c37Command_outside (by simp [hp]) k s fun x u => by simp [hp]

@[simp] theorem execC37CmdCfg1_outside (hp : [.qm, .pe, .pa] ⊆ parts) (k to_ s) :
    outsideRes parts (execC37CmdCfg1 k to_ s) = .next (outside parts s) := by
  simp at hp
  exact c37Command_outside (by simp [hp]) k s fun x u => by simp [hp]

@[simp] theorem execC37CmdCfg2_outside (hp : [.qm, .pe, .pa] ⊆ parts) (k to_ s) :
    outsideRes parts (execC37CmdCfg2 k to_ s) = .next (outside parts s) := by
  simp at hp
  exact c37Command_outside (by simp [hp]) k s fun x u => by simp [hp]

@[simp] theorem execC37CmdUnsupported_outside (hp : [.pe] ⊆ parts) (k s) : outsideRes parts (execC37CmdUnsupported k s) = .next (outside parts s) := by
  simp at hp
  exact c37Command_outside hp k s fun x u => rfl

@[simp] theorem execC37CmdExtended_outside (hp : [.pe] ⊆ parts) (k s) : outsideRes parts (execC37CmdExtended k s) = .next (outside parts s) := by
  simp at hp
  exact c37Command_outside hp k s fun x u => rfl

@[simp] theorem execPeStageChannels_outside (hp : [.su, .im, .pa, .log, .ev, .glob, .out] ⊆ parts) (c l s) :
    outsideRes parts (execPeStageChannels c l s) = .next (outside parts s) := by
  simp at hp
  simp [execPeStageChannels, hp]

@[simp] theorem execPeStageSets_outside (hp : [.su, .im, .pa, .log, .ev, .glob, .out] ⊆ parts) (c l s) :
    outsideRes parts (execPeStageSets c l s) = .next (outside parts s) := by
  simp at hp
  simp [execPeStageSets, hp]

@[simp] theorem execPeStageStreams_outside (hp : [.su, .im, .pa, .log, .ev, .glob, .out] ⊆ parts) (c l s) :
    outsideRes parts (execPeStageStreams c l s) = .next (outside parts s) := by
  simp at hp
  simp [execPeStageStreams, hp]

@[simp] theorem partPeReadResults_outside (c base n s) :
    outside parts (partPeReadResults c base n s).1 = outside parts s := by
  simp [partPeReadResults]

@[simp] theorem execPeReadResults_outside (hp : [.su, .im, .pa, .log, .ev, .glob, .out] ⊆ parts) (c base mask s) :
    outsideRes parts (execPeReadResults c base mask s) = .next (outside parts s) := by
  simp at hp
  simp [execPeReadResults, hp]

@[simp] theorem streamTx_outside (hp : [.pe] ⊆ parts) (c base on n s) :
    outside parts (streamTx c base on n s).1 = outside parts s := by
  simp at hp
  simp [streamTx, hp]

@[simp] theorem execPeStreamTxOn_outside (hp : [.su, .pe, .im, .pa, .log, .ev, .glob, .out] ⊆ parts) (c base mask s) :
    outsideRes parts (execPeStreamTxOn c base mask s) = .next (outside parts s) := by
  simp at hp
  simp [execPeStreamTxOn, hp]

@[simp] theorem execPeStreamTxOff_outside (hp : [.su, .pe, .im, .pa, .log, .ev, .glob, .out] ⊆ parts) (c base mask s) :
    outsideRes parts (execPeStreamTxOff c base mask s) = .next (outside parts s) := by
  simp at hp
  simp [execPeStreamTxOff, hp]

@[simp] theorem partPeReadCounters_outside (hp : [.pe] ⊆ parts) (c base n s) :
    outside parts (partPeReadCounters c base n s).1 = outside parts s := by
  simp at hp
  simp [partPeReadCounters, hp]

@[simp] theorem execPeReadCounters_outside (hp : [.su, .pe, .im, .pa, .log, .ev, .glob, .out] ⊆ parts) (c base mask s) :
    outsideRes parts (execPeReadCounters c base mask s) = .next (outside parts s) := by
  simp at hp
  simp [execPeReadCounters, hp]

@[simp] theorem commitChan_outside (hp : [.pe] ⊆ parts) (t old view n s) :
    outside parts (commitChan t old view n s) = outside parts s := by
  simp at hp
  unfold commitChan
  split <;> simp [hp]

@[simp] theorem commitStr_outside (hp : [.pe] ⊆ parts) (t old view n s) :
    outside parts (commitStr t old view n s) = outside parts s := by
  simp at hp
  unfold commitStr
  dsimp only
  split <;> simp [hp]

@[simp] theorem peCommit_outside (hp : [.pe] ⊆ parts) (t old active s) :
    outside parts (peCommit t old active s) = outside parts s := by
  simp at hp
  simp [peCommit, hp]

@[simp] theorem peSecond_outside (hp : [.pe] ⊆ parts) (ltS s) :
    outside parts (peSecond ltS s) = outside parts s := by
  simp at hp
  simp [peSecond, hp]

@[simp] theorem peOff_outside (hp : [.pe] ⊆ parts) (s) :
    outside parts (peOff s) = outside parts s := by
  simp at hp
  simp [peOff, hp]

@[simp] theorem peOn_outside (hp : [.pe] ⊆ parts) (s) :
    outside parts (peOn s) = outside parts s := by
  simp at hp
  simp [peOn, hp]

/-! ## What Stream leaves -/

@[simp] theorem takeIngest_outside (hp : [.qm, .fo, .im, .pa, .grd, .log, .ev, .out] ⊆ parts) (q guard s) :
    outside parts (takeIngest q guard s).2 = outside parts s := by
  simp at hp
  unfold takeIngest
  dsimp only
  split <;> simp [hp]

@[simp] theorem execSvFrameReceive_outside (hp : [.qm, .se, .fb, .fo, .kv, .im, .pa, .grd, .log, .ev, .out] ⊆ parts) (q f guard s) :
    outsideRes parts (execSvFrameReceive q f guard s) = .next (outside parts s) := by
  simp at hp
  have h := takeIngest_outside (parts := parts) (by simp [hp]) q.val guard s
  unfold execSvFrameReceive
  split
  · rfl
  · split
    next he => rw [he] at h; simpa using h
    next he =>
      rw [he] at h
      split <;> simpa [hp] using h

@[simp] theorem execGooseFrameReceive_outside (hp : [.qm, .se, .ps, .fo, .kv, .im, .pa, .grd, .log, .ev, .out] ⊆ parts) (q f guard s) :
    outsideRes parts (execGooseFrameReceive q f guard s) = .next (outside parts s) := by
  simp at hp
  have h := takeIngest_outside (parts := parts) (by simp [hp]) q.val guard s
  unfold execGooseFrameReceive
  split
  · rfl
  · split
    next he => rw [he] at h; simpa using h
    next he =>
      rw [he] at h
      split
      · simpa [hp] using h
      · split <;> simpa [hp] using h

@[simp] theorem execInstantRelease_outside (hp : [.se, .fr, .fb, .ps, .im, .pa, .log, .ev, .out] ⊆ parts) (g s) :
    outsideRes parts (execInstantRelease g s) = .next (outside parts s) := by
  simp at hp
  unfold execInstantRelease
  split <;> simp [hp]

@[simp] theorem execGridSecond_outside (hp : [.tb, .su, .se, .fr, .pe, .ar, .fb, .fo, .im, .pa, .log, .ev, .glob, .out] ⊆ parts) (s) :
    outsideRes parts (execGridSecond s) = .next (outside parts s) := by
  simp at hp
  unfold execGridSecond
  dsimp only
  repeat' split
  all_goals simp [hp]

@[simp] theorem execTalExpiry_outside (hp : [.se, .ps, .im, .log, .ev, .out] ⊆ parts) (n s) :
    outsideRes parts (execTalExpiry n s) = .next (outside parts s) := by
  simp at hp
  unfold execTalExpiry
  dsimp only
  split <;> simp [hp]

@[simp] theorem execGoosePublish_outside (hp : [.qm, .se, .fo, .pa, .free, .out] ⊆ parts) (p s) :
    outsideRes parts (execGoosePublish p s) = .next (outside parts s) := by
  simp at hp
  unfold execGoosePublish
  split <;> simp [hp]

@[simp] theorem execGooseRetransmit_outside (hp : [.qm, .se, .fo, .pa] ⊆ parts) (p s) :
    outsideRes parts (execGooseRetransmit p s) = .next (outside parts s) := by
  simp at hp
  unfold execGooseRetransmit
  dsimp only
  split <;> simp [hp]

@[simp] theorem execHandoverEnd_outside (hp : [.qm, .se, .fo, .pa, .free, .out] ⊆ parts) (s) :
    outsideRes parts (execHandoverEnd s) = .next (outside parts s) := by
  simp at hp
  unfold execHandoverEnd
  split <;> simp [hp]

@[simp] theorem execSeStageGroups_outside (hp : [.su, .im, .pa, .log, .ev, .glob, .out] ⊆ parts) (c l lockMs s) :
    outsideRes parts (execSeStageGroups c l lockMs s) = .next (outside parts s) := by
  simp at hp
  simp [execSeStageGroups, hp]

@[simp] theorem execSeStageSv_outside (hp : [.su, .im, .pa, .log, .ev, .glob, .out] ⊆ parts) (c l s) :
    outsideRes parts (execSeStageSv c l s) = .next (outside parts s) := by
  simp at hp
  simp [execSeStageSv, hp]

@[simp] theorem execSeStageGooseSub_outside (hp : [.su, .im, .pa, .log, .ev, .glob, .out] ⊆ parts) (c l s) :
    outsideRes parts (execSeStageGooseSub c l s) = .next (outside parts s) := by
  simp at hp
  simp [execSeStageGooseSub, hp]

@[simp] theorem execSeStageGoosePub_outside (hp : [.su, .im, .pa, .log, .ev, .glob, .out] ⊆ parts) (c l s) :
    outsideRes parts (execSeStageGoosePub c l s) = .next (outside parts s) := by
  simp at hp
  simp [execSeStageGoosePub, hp]

@[simp] theorem partSeReadCounters_outside (hp : [.se] ⊆ parts) (c base n s) :
    outside parts (partSeReadCounters c base n s).1 = outside parts s := by
  simp at hp
  simp [partSeReadCounters, hp]

@[simp] theorem execSeReadCounters_outside (hp : [.su, .se, .im, .pa, .log, .ev, .glob, .out] ⊆ parts) (c base mask s) :
    outsideRes parts (execSeReadCounters c base mask s) = .next (outside parts s) := by
  simp at hp
  simp [execSeReadCounters, hp]

@[simp] theorem partSeStreamRelock_outside (hp : [.se, .fb, .im, .pa, .log, .ev, .out] ⊆ parts) (base n s) :
    outside parts (partSeStreamRelock base n s).1 = outside parts s := by
  simp at hp
  simp [partSeStreamRelock, hp]

@[simp] theorem execSeStreamRelock_outside (hp : [.su, .se, .fb, .im, .pa, .log, .ev, .glob, .out] ⊆ parts) (c base mask s) :
    outsideRes parts (execSeStreamRelock c base mask s) = .next (outside parts s) := by
  simp at hp
  simp [execSeStreamRelock, hp]

@[simp] theorem commitSv_outside (hp : [.se, .im, .log, .ev, .out] ⊆ parts) (t old new n s) :
    outside parts (commitSv t old new n s) = outside parts s := by
  simp at hp
  simp [commitSv, hp]

@[simp] theorem commitGroup_outside (hp : [.se] ⊆ parts) (t view g s) :
    outside parts (commitGroup t view g s) = outside parts s := by
  simp at hp
  simp [commitGroup, hp]

@[simp] theorem commitGoose_outside (hp : [.se] ⊆ parts) (t view s) :
    outside parts (commitGoose t view s) = outside parts s := by
  simp at hp
  simp [commitGoose, hp]

@[simp] theorem seCommit_outside (hp : [.se, .fb, .im, .pa, .log, .ev, .out] ⊆ parts) (t active s) :
    outside parts (seCommit t active s) = outside parts s := by
  simp at hp
  simp [seCommit, hp]

@[simp] theorem seOff_outside (hp : [.se, .fb, .im, .pa, .log, .ev, .out] ⊆ parts) (s) :
    outside parts (seOff s) = outside parts s := by
  simp at hp
  simp [seOff, hp]

@[simp] theorem seOn_outside (hp : [.se] ⊆ parts) (s) :
    outside parts (seOn s) = outside parts s := by
  simp at hp
  simp [seOn, hp]

/-! ## What LogOps leaves -/

@[simp] theorem logStage_outside (hp : [.im, .log, .ev, .out] ⊆ parts) (s) :
    outside parts (logStage s) = outside parts s := by
  simp at hp
  simp [logStage, hp]

@[simp] theorem lostRec_outside (hp : [.log] ⊆ parts) (s) :
    outside parts (lostRec s) = outside parts s := by
  simp at hp
  simp [lostRec, hp]

@[simp] theorem writeRec_outside (hp : [.im, .log, .ev, .out] ⊆ parts) (r s) :
    outside parts (writeRec r s) = outside parts s := by
  simp at hp
  simp [writeRec, hp]

@[simp] theorem writePending_outside (hp : [.im, .log, .ev, .out] ⊆ parts) (s) :
    outside parts (writePending s) = outside parts s := by
  simp at hp
  simp [writePending, hp]

@[simp] theorem logCommand_outside (hp : [.log] ⊆ parts) (c op status arg s) :
    outside parts (logCommand c op status arg s) = outside parts s := by
  simp at hp
  simp [logCommand, hp]

@[simp] theorem execLogRecordWrite_outside (hp : [.im, .log, .ev, .out] ⊆ parts) (s) :
    outsideRes parts (execLogRecordWrite s) = .next (outside parts s) := by
  simp at hp
  unfold execLogRecordWrite
  repeat' split
  all_goals simp [hp]

@[simp] theorem execLogClearWrite_outside (hp : [.log] ⊆ parts) (v s) :
    outsideRes parts (execLogClearWrite v s) = .next (outside parts s) := by
  simp at hp
  simp [execLogClearWrite, hp]

@[simp] theorem execLogClearDone_outside (hp : [.im, .log, .ev, .out] ⊆ parts) (s) :
    outsideRes parts (execLogClearDone s) = .next (outside parts s) := by
  simp at hp
  simp [execLogClearDone, hp]

/-! ## What KeyStore leaves -/

@[simp] theorem writeSlot_outside (hp : [.kv] ⊆ parts) (n x s) :
    outside parts (writeSlot n x s) = outside parts s := by
  simp at hp
  simp [writeSlot, hp]

@[simp] theorem markRevoked_outside (hp : [.kv] ⊆ parts) (l s) :
    outside parts (markRevoked l s) = outside parts s := by
  simp at hp
  simp [markRevoked, hp]

@[simp] theorem wipeSlots_outside (hp : [.kv] ⊆ parts) (l s) :
    outside parts (wipeSlots l s) = outside parts s := by
  simp at hp
  simp [wipeSlots, hp]

/-! ## What PowerOps leaves -/

@[simp] theorem netOff_outside (hp : [.px, .sw, .im, .log, .ev, .out] ⊆ parts) (s) :
    outside parts (netOff s) = outside parts s := by
  simp at hp
  simp [netOff, hp]

@[simp] theorem netOn_outside (hp : [.px, .sw, .im, .log, .ev, .out] ⊆ parts) (s) :
    outside parts (netOn s) = outside parts s := by
  simp at hp
  simp [netOn, hp]

@[simp] theorem clusterOff_outside (hp : [.fb, .ps] ⊆ parts) (k s) :
    outside parts (clusterOff k s) = outside parts s := by
  simp at hp
  simp [clusterOff, hp]

@[simp] theorem clusterOn_outside (hp : [.fb] ⊆ parts) (k s) :
    outside parts (clusterOn k s) = outside parts s := by
  simp at hp
  simp [clusterOn, hp]

@[simp] theorem dramOff_outside (hp : [.tb, .su, .im, .log, .ev, .glob, .out] ⊆ parts) (s) :
    outside parts (dramOff s) = outside parts s := by
  simp at hp
  unfold dramOff
  dsimp only
  repeat' split
  all_goals simp [hp]

@[simp] theorem loseDomain_outside (hp : [.tb, .su, .px, .sw, .se, .fr, .pe, .ar, .fb, .ps, .im, .pa, .log, .ev, .glob, .out] ⊆ parts) (n s) :
    outside parts (loseDomain n s) = outside parts s := by
  simp at hp
  simp [loseDomain, hp]

@[simp] theorem serveDomain_outside (hp : [.px, .sw, .se, .fr, .pe, .ar, .fb, .im, .log, .ev, .out] ⊆ parts) (n s) :
    outside parts (serveDomain n s) = outside parts s := by
  simp at hp
  simp [serveDomain, hp]

@[simp] theorem powerOff_outside (hp : [.tb, .su, .px, .sw, .se, .fr, .pe, .ar, .fb, .ps, .im, .pa, .log, .ev, .glob, .out] ⊆ parts) (st' n s) :
    outside parts (powerOff st' n s) = outside parts s := by
  simp at hp
  simp [powerOff, hp]

@[simp] theorem turnOff_outside (hp : [.tb, .su, .px, .sw, .se, .fr, .pe, .ar, .fb, .ps, .im, .pa, .log, .ev, .glob, .out] ⊆ parts) (st' n s) :
    outside parts (turnOff st' n s) = outside parts s := by
  simp at hp
  simp [turnOff, hp]

@[simp] theorem newPass_outside (hp : [.grd] ⊆ parts) (n s) :
    outside parts (newPass n s) = outside parts s := by
  simp at hp
  simp [newPass, hp]

@[simp] theorem powerOn_outside (hp : [.px, .sw, .se, .fr, .pe, .ar, .fb, .im, .pa, .grd, .log, .ev, .out] ⊆ parts) (n s) :
    outside parts (powerOn n s) = outside parts s := by
  simp at hp
  simp [powerOn, hp]

@[simp] theorem needDomain_outside (hp : [.px, .sw, .se, .fr, .pe, .ar, .fb, .im, .pa, .grd, .log, .ev, .out] ⊆ parts) (n s) :
    outside parts (needDomain n s) = outside parts s := by
  simp at hp
  simp [needDomain, hp]

@[simp] theorem unlockOff_outside (hp : [.pa] ⊆ parts) (n s) :
    outside parts (unlockOff n s) = outside parts s := by
  simp at hp
  simp [unlockOff, hp]

@[simp] theorem applyDomain_outside (hp : [.tb, .su, .px, .sw, .se, .fr, .pe, .ar, .fb, .ps, .im, .pa, .grd, .log, .ev, .glob, .out] ⊆ parts) (view n s) :
    outside parts (applyDomain view n s) = outside parts s := by
  simp at hp
  simp [applyDomain, hp]

@[simp] theorem poweredDown_outside (hp : byReset ⊆ parts) (dram s) : outside parts (poweredDown dram s) = outside parts s := by
  simp [byReset] at hp
  simp [outside, poweredDown, hp]

@[simp] theorem setRtc_outside (hp : [.pa] ⊆ parts) (r s) :
    outside parts (setRtc r s) = outside parts s := by
  simp at hp
  simp [setRtc, hp]

/-! ## What VaultOps leaves -/

@[simp] theorem putSlot_outside (hp : [.kv] ⊆ parts) (n x s) :
    outside parts (putSlot n x s) = outside parts s := by
  simp at hp
  simp [putSlot, hp]

@[simp] theorem failQueued_outside (hp : [.su, .kv, .im, .log, .ev, .glob, .out] ⊆ parts) (l s) :
    outside parts (failQueued l s) = outside parts s := by
  simp at hp
  simp [failQueued, hp]

@[simp] theorem revokeTree_outside (hp : [.su, .px, .kv, .im, .log, .ev, .glob, .out] ⊆ parts) (n s) :
    outside parts (revokeTree n s).1 = outside parts s := by
  simp at hp
  simp [revokeTree, hp]

@[simp] theorem revokeRecord_outside (hp : [.log] ⊆ parts) (n count s) :
    outside parts (revokeRecord n count s) = outside parts s := by
  simp at hp
  simp [revokeRecord, hp]

@[simp] theorem dropSlot_outside (hp : [.su, .px, .kv, .im, .log, .ev, .glob, .out] ⊆ parts) (n s) :
    outside parts (dropSlot n s) = outside parts s := by
  simp at hp
  simp [dropSlot, hp]

@[simp] theorem eraseTree_outside (hp : [.su, .px, .kv, .im, .log, .ev, .glob, .out] ⊆ parts) (n s) :
    outside parts (eraseTree n s).1 = outside parts s := by
  simp at hp
  simp [eraseTree, hp]

@[simp] theorem kvCommand_outside (hp : byCommand ⊆ parts) (op pubLoad c s) {body : State → State × Option ReplyBody}
    (hb : ∀ u, outside parts (body u).1 = outside parts u) : outsideRes parts (kvCommand op pubLoad c s body) = .next (outside parts s) :=
  command_outside hp _ _ _ _ fun u => by
    split
    · exact hb u
    · rfl

@[simp] theorem refuse_outside (hp : [.kv] ⊆ parts) (c n e s) :
    outside parts (refuse c n e s).1 = outside parts s := by
  simp at hp
  simp [refuse, hp]

@[simp] theorem enterKey_outside (hp : [.px, .kv, .log, .free] ⊆ parts) (c op k t lv d plain material aux s) :
    outside parts (enterKey c op k t lv d plain material aux s) = outside parts s := by
  simp at hp
  simp [enterKey, hp]

@[simp] theorem randomBytes_outside (hp : [.free] ⊆ parts) (n s) : outside parts (randomBytes n s).2 = outside parts s := by
  simp at hp
  induction n generalizing s with
  | zero => rfl
  | succ n ih => exact (ih _).trans (draw_outside hp s)

@[simp] theorem request_outside (hp : [.kv] ⊆ parts) (c op stages slots x s) :
    outside parts (request c op stages slots x s).1 = outside parts s := by
  simp at hp
  simp [request, hp]

@[simp] theorem requestResult_outside (hp : [.px, .kv, .log, .free] ⊆ parts) (r s) :
    outside parts (requestResult r s).1 = outside parts s := by
  simp at hp
  unfold requestResult
  dsimp only
  repeat' split
  all_goals simp [hp]

@[simp] theorem serveRequest_outside (hp : [.su, .px, .kv, .im, .log, .ev, .glob, .free, .out] ⊆ parts) (r s) :
    outside parts (serveRequest r s) = outside parts s := by
  simp at hp
  simp [serveRequest, hp]

@[simp] theorem execEngineSlot_outside (hp : [.su, .px, .kv, .im, .log, .ev, .glob, .free, .out] ⊆ parts) (e s) :
    outsideRes parts (execEngineSlot e s) = .next (outside parts s) := by
  simp at hp
  unfold execEngineSlot
  dsimp only
  repeat' split
  all_goals simp [hp]

/-! ## What Supervisor leaves -/

@[simp] theorem ringError_outside (hp : [.su, .im, .log, .ev, .glob, .out] ⊆ parts) (ring s) :
    outside parts (ringError ring s) = outside parts s := by
  simp at hp
  unfold ringError
  split <;> simp [hp]

@[simp] theorem execRingTailWrite_outside (hp : [.su, .im, .log, .ev, .glob, .out] ⊆ parts) (ring v s) :
    outsideRes parts (execRingTailWrite ring v s) = .next (outside parts s) := by
  simp at hp
  unfold execRingTailWrite
  dsimp only
  repeat' split
  all_goals simp [hp]

@[simp] theorem execRingReleaseWrite_outside (hp : [.su, .im, .log, .ev, .glob, .out] ⊆ parts) (ring v s) :
    outsideRes parts (execRingReleaseWrite ring v s) = .next (outside parts s) := by
  simp at hp
  unfold execRingReleaseWrite
  dsimp only
  repeat' split
  all_goals simp [hp]

@[simp] theorem execRingEnable_outside (hp : [.su] ⊆ parts) (k v s) :
    outsideRes parts (execRingEnable k v s) = .next (outside parts s) := by
  simp at hp
  simp [execRingEnable, hp]

@[simp] theorem servedRing_outside (hp : [.su] ⊆ parts) (ring s) :
    outside parts (servedRing ring s) = outside parts s := by
  simp at hp
  simp [servedRing, hp]

@[simp] theorem handOn_outside (hp : [.su, .im, .log, .ev, .glob, .out] ⊆ parts) (c op s) :
    outside parts (handOn c op s) = outside parts s := by
  simp at hp
  unfold handOn
  dsimp only
  repeat' split
  all_goals simp [hp]

@[simp] theorem execCommandFetch_outside (hp : [.su, .im, .log, .ev, .glob, .out] ⊆ parts) (ring entry dmaOk fault s) :
    outsideRes parts (execCommandFetch ring entry dmaOk fault s) = .next (outside parts s) := by
  simp at hp
  unfold execCommandFetch
  dsimp only
  repeat' split
  all_goals simp [hp]

@[simp] theorem execSuRingCreate_outside (hp : [.su, .im, .pa, .log, .ev, .glob, .out] ⊆ parts) (c i r cbase rbase size vector s) :
    outsideRes parts (execSuRingCreate c i r cbase rbase size vector s) = .next (outside parts s) := by
  simp at hp
  simp [execSuRingCreate, hp]

@[simp] theorem execSuRingDestroy_outside (hp : [.su, .im, .pa, .log, .ev, .glob, .out] ⊆ parts) (c i r s) :
    outsideRes parts (execSuRingDestroy c i r s) = .next (outside parts s) := by
  simp at hp
  refine command_outside (by simp [hp]) _ _ _ _ fun u => ?_
  split
  · rfl
  · split <;> simp [hp]

@[simp] theorem execSuNop_outside (hp : [.su, .im, .pa, .log, .ev, .glob, .out] ⊆ parts) (c s) :
    outsideRes parts (execSuNop c s) = .next (outside parts s) := by
  simp at hp
  simp [execSuNop, hp]

@[simp] theorem execSuSessionOpen_outside (hp : [.su, .im, .pa, .log, .ev, .glob, .out] ⊆ parts) (c s) :
    outsideRes parts (execSuSessionOpen c s) = .next (outside parts s) := by
  simp at hp
  simp [execSuSessionOpen, hp]

@[simp] theorem closeSession_outside (hp : [.su] ⊆ parts) (o s) :
    outside parts (closeSession o s) = outside parts s := by
  simp at hp
  simp [closeSession, hp]

@[simp] theorem disarm_outside (hp : [.tb, .su] ⊆ parts) (s) :
    outside parts (disarm s) = outside parts s := by
  simp at hp
  simp [disarm, hp]

@[simp] theorem commitFailed_outside (hp : [.su, .im, .log, .ev, .glob, .out] ⊆ parts) (a detail r0 s) :
    outside parts (commitFailed a detail r0 s) = outside parts s := by
  simp at hp
  simp [commitFailed, hp]

@[simp] theorem execSuSessionAbort_outside (hp : [.tb, .su, .im, .pa, .log, .ev, .glob, .out] ⊆ parts) (c s) :
    outsideRes parts (execSuSessionAbort c s) = .next (outside parts s) := by
  simp at hp
  refine command_outside (by simp [hp]) _ _ _ _ fun u => ?_
  dsimp only
  split
  · rfl
  · split <;> simp [hp]
  · simp [hp]

@[simp] theorem execSuSessionStatus_outside (hp : [.su, .im, .pa, .log, .ev, .glob, .out] ⊆ parts) (c s) :
    outsideRes parts (execSuSessionStatus c s) = .next (outside parts s) := by
  simp at hp
  simp [execSuSessionStatus, hp]

@[simp] theorem execSuCheckReport_outside (hp : [.su, .im, .pa, .log, .ev, .glob, .out] ⊆ parts) (c s) :
    outsideRes parts (execSuCheckReport c s) = .next (outside parts s) := by
  simp at hp
  simp [execSuCheckReport, hp]

@[simp] theorem execSuCommit_outside (hp : [.tb, .su, .im, .pa, .log, .ev, .glob, .out] ⊆ parts) (c t flags s) :
    outsideRes parts (execSuCommit c t flags s) = .next (outside parts s) := by
  simp at hp
  refine command_outside (by simp [hp]) _ _ _ _ fun u => ?_
  extract_lets o x
  split
  · rfl
  · split
    · rfl
    · split
      · rfl
      · next persist tmin first at_ id v a w y _ _ _ =>
        have hv : outside parts v = outside parts u := by
          unfold v
          split <;> simp [hp]
        have hy : outside parts y = outside parts u := by simp [y, w, hp, hv]
        split
        · rfl
        · split
          · rfl
          · split
            · rfl
            · split
              · rfl
              · split
                · exact hy
                · split <;> simp [hp, hy]

@[simp] theorem execCommitPrepDeadline_outside (hp : [.tb, .su, .im, .log, .ev, .glob, .out] ⊆ parts) (complete s) :
    outsideRes parts (execCommitPrepDeadline complete s) = .next (outside parts s) := by
  simp at hp
  unfold execCommitPrepDeadline
  split <;> simp [hp]

@[simp] theorem execBankResyncEnd_outside (hp : [.su] ⊆ parts) (s) :
    outsideRes parts (execBankResyncEnd s) = .next (outside parts s) := by
  simp at hp
  simp [execBankResyncEnd, hp]

@[simp] theorem execBootSelectorWrite_outside (hp : [.su, .log] ⊆ parts) (s) :
    outsideRes parts (execBootSelectorWrite s) = .next (outside parts s) := by
  simp at hp
  unfold execBootSelectorWrite
  split <;> simp [hp]

@[simp] theorem execSuPkgLoad_outside (hp : [.su, .im, .pa, .log, .ev, .glob, .out] ⊆ parts) (c extents p store s) :
    outsideRes parts (execSuPkgLoad c extents p store s) = .next (outside parts s) := by
  simp at hp
  simp [execSuPkgLoad, hp]

@[simp] theorem packageDone_outside (hp : [.su, .im, .log, .ev, .glob, .out] ⊆ parts) (w b s) :
    outside parts (packageDone w b s) = outside parts s := by
  simp at hp
  simp [packageDone, hp]

@[simp] theorem execPkgVerifyDone_outside (hp : [.su, .im, .log, .ev, .glob, .out] ⊆ parts) (s) :
    outsideRes parts (execPkgVerifyDone s) = .next (outside parts s) := by
  simp at hp
  unfold execPkgVerifyDone
  dsimp only
  repeat' split
  all_goals simp [hp]

@[simp] theorem execPkgFlashWriteDone_outside (hp : [.su, .im, .log, .ev, .glob, .out] ⊆ parts) (s) :
    outsideRes parts (execPkgFlashWriteDone s) = .next (outside parts s) := by
  simp at hp
  unfold execPkgFlashWriteDone
  split <;> simp [hp]

@[simp] theorem execSuPkgStage_outside (hp : [.su, .im, .pa, .log, .ev, .glob, .out] ⊆ parts) (c s) :
    outsideRes parts (execSuPkgStage c s) = .next (outside parts s) := by
  simp at hp
  refine command_outside (by simp [hp]) _ _ _ _ fun u => ?_
  dsimp only
  split
  · rfl
  · simp [hp]

@[simp] theorem execSuPkgStatus_outside (hp : [.su, .im, .pa, .log, .ev, .glob, .out] ⊆ parts) (c s) :
    outsideRes parts (execSuPkgStatus c s) = .next (outside parts s) := by
  simp at hp
  simp [execSuPkgStatus, hp]

/-! ## What InstanceOps leaves -/

@[simp] theorem modInst_outside (hp : [.im] ⊆ parts) (i f s) :
    outside parts (modInst i f s) = outside parts s := by
  simp at hp
  simp [modInst, hp]

@[simp] theorem setInst_outside (hp : [.im, .log, .ev, .out] ⊆ parts) (i x s) :
    outside parts (setInst i x s) = outside parts s := by
  simp at hp
  simp [setInst, hp]

@[simp] theorem resetSession_outside (hp : [.tb, .su] ⊆ parts) (i s) :
    outside parts (resetSession i s) = outside parts s := by
  simp at hp
  unfold resetSession
  split <;> simp [hp]

@[simp] theorem resetRings_outside (hp : [.su, .fb, .im, .log, .ev, .out] ⊆ parts) (i s) :
    outside parts (resetRings i s) = outside parts s := by
  simp at hp
  simp [resetRings, hp]

@[simp] theorem resetTasks_outside (hp : [.su, .fb, .ps, .im, .log, .ev, .glob, .out] ⊆ parts) (o s) :
    outside parts (resetTasks o s) = outside parts s := by
  simp at hp
  simp [resetTasks, hp]

@[simp] theorem resetQueues_outside (hp : [.qm] ⊆ parts) (o s) :
    outside parts (resetQueues o s) = outside parts s := by
  simp at hp
  simp [resetQueues, hp]

@[simp] theorem resetRequests_outside (hp : [.kv, .im] ⊆ parts) (o s) :
    outside parts (resetRequests o s) = outside parts s := by
  simp at hp
  simp [resetRequests, hp]

@[simp] theorem resetRecorders_outside (hp : [.ar] ⊆ parts) (o s) :
    outside parts (resetRecorders o s) = outside parts s := by
  simp at hp
  simp [resetRecorders, hp]

@[simp] theorem resetWaits_outside (hp : [.su, .im, .log, .ev, .glob, .out] ⊆ parts) (i s) :
    outside parts (resetWaits i s) = outside parts s := by
  simp at hp
  unfold resetWaits
  dsimp only
  repeat' split
  all_goals simp [hp]

@[simp] theorem startReset_outside (hp : [.tb, .su, .qm, .ar, .fb, .ps, .kv, .im, .log, .ev, .glob, .out] ⊆ parts) (i s) :
    outside parts (startReset i s) = outside parts s := by
  simp at hp
  simp [startReset, hp]

@[simp] theorem removeHostq_outside (hp : [.qm, .fo, .im] ⊆ parts) (i j s) :
    outside parts (removeHostq i j s) = outside parts s := by
  simp at hp
  unfold removeHostq
  split <;> simp [hp]

@[simp] theorem releaseShares_outside (hp : [.tb, .su, .px, .qm, .ar, .fo, .kv, .im, .log, .ev, .glob, .out] ⊆ parts) (i old new s) :
    outside parts (releaseShares i old new s) = outside parts s := by
  simp at hp
  simp [releaseShares, hp]

@[simp] theorem restoreRegion_outside (hp : [.fb] ⊆ parts) (o x s) :
    outside parts (restoreRegion o x s) = outside parts s := by
  simp at hp
  unfold restoreRegion
  split <;> simp [hp]

@[simp] theorem restoreTask_outside (hp : [.fb] ⊆ parts) (o freezeLt x s) :
    outside parts (restoreTask o freezeLt x s) = outside parts s := by
  simp at hp
  simp [restoreTask, hp]

@[simp] theorem restorePoint_outside (hp : [.ar, .ps] ⊆ parts) (x s) :
    outside parts (restorePoint x s) = outside parts s := by
  simp at hp
  unfold restorePoint
  split <;> simp [hp]

@[simp] theorem restoreUnit_outside (hp : [.tb] ⊆ parts) (o x s) :
    outside parts (restoreUnit o x s) = outside parts s := by
  simp at hp
  simp [restoreUnit, hp]

@[simp] theorem applySaved_outside (hp : [.tb, .se, .ar, .fb, .ps, .im] ⊆ parts) (i x s) :
    outside parts (applySaved i x s) = outside parts s := by
  simp at hp
  simp [applySaved, hp]

/-! ## What Queues leaves -/

@[simp] theorem badTransfer_outside (hp : [.qm, .fo, .im, .pa, .grd, .log, .ev, .out] ⊆ parts) (q h s) :
    outside parts (badTransfer q h s) = outside parts s := by
  simp at hp
  unfold badTransfer
  split <;> simp [hp]

@[simp] theorem openChecked_outside (hp : [.qm, .fo, .im, .pa, .grd, .log, .ev, .out] ⊆ parts) (q guard r) :
    outside parts (openChecked q guard r) = outside parts r.1 := by
  simp at hp
  have h := guardRead_outside (parts := parts) (by simp [hp]) 0x3 guard r.1
  unfold openChecked
  split
  · rfl
  · split <;> next he => rw [he] at h; simpa [hp] using h

@[simp] theorem execPacketOpen_outside (hp : [.sw, .qm, .fo, .im, .pa, .grd, .log, .ev, .out] ⊆ parts) (p q header rxLt rxStatus guard s) :
    outsideRes parts (execPacketOpen p q header rxLt rxStatus guard s) = .next (outside parts s) := by
  simp at hp
  unfold execPacketOpen
  dsimp only
  split
  · rfl
  · split
    · split
      · rfl
      · split <;> simp [hp]
    · split <;> simp [hp]
    · split <;> simp [hp]

@[simp] theorem execNarrowUnitWrite_outside (hp : [.qm, .fo, .im, .pa, .grd, .log, .ev, .out] ⊆ parts) (q bytes guard s) :
    outsideRes parts (execNarrowUnitWrite q bytes guard s) = .next (outside parts s) := by
  simp at hp
  have h := guardRead_outside (parts := parts) (by simp [hp]) 0x3 guard s
  unfold execNarrowUnitWrite
  split
  · rfl
  · split <;> next he => rw [he] at h; simpa [hp] using h

@[simp] theorem execEndMarkWrite_outside (hp : [.qm, .fo, .im, .pa, .grd, .log, .ev, .out] ⊆ parts) (q bytes guard s) :
    outsideRes parts (execEndMarkWrite q bytes guard s) = .next (outside parts s) := by
  simp at hp
  have h := guardRead_outside (parts := parts) (by simp [hp]) 0x3 guard s
  unfold execEndMarkWrite
  split
  · rfl
  · split <;> next he => rw [he] at h; simpa [hp] using h

@[simp] theorem execProducerRewind_outside (hp : [.qm] ⊆ parts) (q s) :
    outsideRes parts (execProducerRewind q s) = .next (outside parts s) := by
  simp at hp
  simp [execProducerRewind, hp]

@[simp] theorem execQueueRead_outside (hp : [.qm, .fo, .im, .pa, .grd, .log, .ev, .out] ⊆ parts) (q rq guard s) :
    outsideRes parts (execQueueRead q rq guard s) = .next (outside parts s) := by
  simp at hp
  unfold execQueueRead
  dsimp only
  repeat' split
  all_goals simp [hp]

@[simp] theorem execQueueMark_outside (hp : [.qm] ⊆ parts) (q s) :
    outsideRes parts (execQueueMark q s) = .next (outside parts s) := by
  simp at hp
  simp [execQueueMark, hp]

@[simp] theorem execQueueRewind_outside (hp : [.qm] ⊆ parts) (q s) :
    outsideRes parts (execQueueRewind q s) = .next (outside parts s) := by
  simp at hp
  simp [execQueueRewind, hp]

@[simp] theorem execQueueRelease_outside (hp : [.qm] ⊆ parts) (q s) :
    outsideRes parts (execQueueRelease q s) = .next (outside parts s) := by
  simp at hp
  simp [execQueueRelease, hp]

@[simp] theorem countGated_outside (hp : [.se, .pe, .fo] ⊆ parts) (q src s) : outside parts (countGated q src s) = outside parts s := by
  simp at hp
  unfold countGated
  repeat' split
  all_goals simp [hp]

@[simp] theorem countSent_outside (hp : [.se, .pe] ⊆ parts) (src s) :
    outside parts (countSent src s) = outside parts s := by
  simp at hp
  unfold countSent
  split <;> simp [hp]

@[simp] theorem takenPacket_outside (hp : [.qm, .fo, .im, .grd, .log, .ev, .out] ⊆ parts) (core q guard s) :
    outside parts (takenPacket core q guard s).2.2.2 = outside parts s := by
  simp at hp
  simp [takenPacket, hp]

@[simp] theorem enterFabric_outside (hp : [.px, .sw, .im, .log, .ev, .out] ⊆ parts) (core ws s) :
    outside parts (enterFabric core ws s) = outside parts s := by
  simp at hp
  simp [enterFabric, hp]

@[simp] theorem execFabricTake_outside (hp : [.px, .sw, .qm, .se, .pe, .fo, .im, .pa, .grd, .log, .ev, .out] ⊆ parts) (core guard s) :
    outsideRes parts (execFabricTake core guard s) = .next (outside parts s) := by
  simp at hp
  unfold execFabricTake
  split
  · rfl
  · split
    · rfl
    next q _ =>
      have h := takenPacket_outside (parts := parts) (by simp [hp]) core q guard s
      split
      next he => rw [he] at h; simpa [hp] using h
      next he =>
        rw [he] at h
        repeat' split
        all_goals simpa [hp] using h

@[simp] theorem execQmStageQueues_outside (hp : [.su, .im, .pa, .log, .ev, .glob, .out] ⊆ parts) (c l s) :
    outsideRes parts (execQmStageQueues c l s) = .next (outside parts s) := by
  simp at hp
  simp [execQmStageQueues, hp]

@[simp] theorem execQmStageSteer_outside (hp : [.su, .im, .pa, .log, .ev, .glob, .out] ⊆ parts) (c l s) :
    outsideRes parts (execQmStageSteer c l s) = .next (outside parts s) := by
  simp at hp
  simp [execQmStageSteer, hp]

@[simp] theorem partQmReadCounters_outside (hp : [.qm] ⊆ parts) (c base n s) :
    outside parts (partQmReadCounters c base n s).1 = outside parts s := by
  simp at hp
  simp [partQmReadCounters, hp]

@[simp] theorem execQmReadCounters_outside (hp : [.su, .qm, .im, .pa, .log, .ev, .glob, .out] ⊆ parts) (c base mask s) :
    outsideRes parts (execQmReadCounters c base mask s) = .next (outside parts s) := by
  simp at hp
  simp [execQmReadCounters, hp]

@[simp] theorem partQmQueueFlush_outside (hp : [.qm, .fo] ⊆ parts) (base n s) :
    outside parts (partQmQueueFlush base n s).1 = outside parts s := by
  simp at hp
  simp [partQmQueueFlush, hp]

@[simp] theorem execQmQueueFlush_outside (hp : [.su, .qm, .fo, .im, .pa, .log, .ev, .glob, .out] ⊆ parts) (c base mask s) :
    outsideRes parts (execQmQueueFlush c base mask s) = .next (outside parts s) := by
  simp at hp
  simp [execQmQueueFlush, hp]

/-! ## What Instances leaves -/

@[simp] theorem execImStageShares_outside (hp : [.su, .im, .pa, .log, .ev, .glob, .out] ⊆ parts) (c l s) :
    outsideRes parts (execImStageShares c l s) = .next (outside parts s) := by
  simp at hp
  simp [execImStageShares, hp]

@[simp] theorem execImStageEvents_outside (hp : [.su, .im, .pa, .log, .ev, .glob, .out] ⊆ parts) (c l s) :
    outsideRes parts (execImStageEvents c l s) = .next (outside parts s) := by
  simp at hp
  simp [execImStageEvents, hp]

@[simp] theorem resetPart_outside (hp : [.tb, .su, .qm, .ar, .fb, .ps, .kv, .im, .log, .ev, .glob, .out] ⊆ parts) (n s) :
    outside parts (resetPart n s).1 = outside parts s := by
  simp at hp
  unfold resetPart
  split <;> simp [hp]

@[simp] theorem execImInstanceReset_outside (hp : [.tb, .su, .qm, .ar, .fb, .ps, .kv, .im, .pa, .log, .ev, .glob, .out] ⊆ parts) (c mask s) :
    outsideRes parts (execImInstanceReset c mask s) = .next (outside parts s) := by
  simp at hp
  refine command_outside (by simp [hp]) _ _ _ _ fun u => ?_
  have h := multipart_outside (parts := parts) mask (part := resetPart) u fun n v => resetPart_outside (by simp [hp]) n v
  dsimp only
  split
  · exact h
  · exact (onIm_outside (by simp [hp]) _ _).trans h

@[simp] theorem endReset_outside (hp : [.su, .fb, .im, .log, .ev, .out] ⊆ parts) (i s) :
    outside parts (endReset i s) = outside parts s := by
  simp at hp
  simp [endReset, hp]

@[simp] theorem answerResets_outside (hp : [.su, .im, .log, .ev, .glob, .out] ⊆ parts) (i s) :
    outside parts (answerResets i s) = outside parts s := by
  simp at hp
  simp [answerResets, hp]

@[simp] theorem execResetEnd_outside (hp : [.su, .fb, .im, .log, .ev, .glob, .out] ⊆ parts) (i s) :
    outsideRes parts (execResetEnd i s) = .next (outside parts s) := by
  simp at hp
  simp [execResetEnd, hp]

@[simp] theorem execDmaReadCompletion_outside (hp : [.im] ⊆ parts) (i epoch s) :
    outsideRes parts (execDmaReadCompletion i epoch s) = .next (outside parts s) := by
  simp at hp
  simp [execDmaReadCompletion, hp]

@[simp] theorem execResetRequestWrite_outside (hp : [.im, .log, .ev, .out] ⊆ parts) (i v s) :
    outsideRes parts (execResetRequestWrite i v s) = .next (outside parts s) := by
  simp at hp
  simp [execResetRequestWrite, hp]

@[simp] theorem execImInstanceFreeze_outside (hp : [.su, .im, .pa, .log, .ev, .glob, .out] ⊆ parts) (c i s) :
    outsideRes parts (execImInstanceFreeze c i s) = .next (outside parts s) := by
  simp at hp
  simp [execImInstanceFreeze, hp]

@[simp] theorem execFreezeBoundary_outside (hp : [.su, .fb, .im, .log, .ev, .glob, .out] ⊆ parts) (i s) :
    outsideRes parts (execFreezeBoundary i s) = .next (outside parts s) := by
  simp at hp
  unfold execFreezeBoundary
  split <;> simp [hp]

@[simp] theorem execImInstanceSave_outside (hp : [.su, .im, .pa, .log, .ev, .glob, .free, .out] ⊆ parts) (c i slot s) :
    outsideRes parts (execImInstanceSave c i slot s) = .next (outside parts s) := by
  simp at hp
  refine command_outside (by simp [hp]) _ _ _ _ fun u => ?_
  split
  · split <;> simp [hp]
  · rfl

@[simp] theorem execImInstanceRestore_outside (hp : [.su, .im, .pa, .log, .ev, .glob, .out] ⊆ parts) (c i blob s) :
    outsideRes parts (execImInstanceRestore c i blob s) = .next (outside parts s) := by
  simp at hp
  refine command_outside (by simp [hp]) _ _ _ _ fun u => ?_
  split
  · rfl
  · split <;> simp [hp]

@[simp] theorem execRestoreApply_outside (hp : [.tb, .se, .ar, .fb, .ps, .im] ⊆ parts) (i s) :
    outsideRes parts (execRestoreApply i s) = .next (outside parts s) := by
  simp at hp
  unfold execRestoreApply
  split <;> simp [hp]

@[simp] theorem execImInstanceThaw_outside (hp : [.su, .im, .pa, .log, .ev, .glob, .out] ⊆ parts) (c i s) :
    outsideRes parts (execImInstanceThaw c i s) = .next (outside parts s) := by
  simp at hp
  simp [execImInstanceThaw, hp]

@[simp] theorem thawGoose_outside (hp : [.qm, .se, .fo, .pa, .free, .out] ⊆ parts) (i s) :
    outside parts (thawGoose i s) = outside parts s := by
  simp at hp
  simp [thawGoose, hp]

@[simp] theorem execThawBoundary_outside (hp : [.su, .qm, .se, .fb, .fo, .im, .pa, .log, .ev, .glob, .free, .out] ⊆ parts) (i s) :
    outsideRes parts (execThawBoundary i s) = .next (outside parts s) := by
  simp at hp
  unfold execThawBoundary
  split <;> simp [hp]

@[simp] theorem execImInstanceInfo_outside (hp : [.su, .im, .pa, .log, .ev, .glob, .out] ⊆ parts) (c i s) :
    outsideRes parts (execImInstanceInfo c i s) = .next (outside parts s) := by
  simp at hp
  simp [execImInstanceInfo, hp]

@[simp] theorem execImHostqSet_outside (hp : [.su, .im, .pa, .log, .ev, .glob, .out] ⊆ parts) (c i j x s) :
    outsideRes parts (execImHostqSet c i j x s) = .next (outside parts s) := by
  simp at hp
  unfold execImHostqSet
  dsimp only
  repeat' split
  all_goals simp [hp]

@[simp] theorem execHostqTailWrite_outside (hp : [.im] ⊆ parts) (i j v s) :
    outsideRes parts (execHostqTailWrite i j v s) = .next (outside parts s) := by
  simp at hp
  unfold execHostqTailWrite
  split
  · rfl
  · split <;> simp [hp]

@[simp] theorem hostDone_outside (hp : [.im, .out] ⊆ parts) (i j h addr len status data s) :
    outside parts (hostDone i j h addr len status data s) = outside parts s := by
  simp at hp
  simp [hostDone, hp]

@[simp] theorem execHostqDescriptor_outside (hp : [.qm, .fo, .im, .pa, .grd, .log, .ev, .out] ⊆ parts) (i j desc data guard s) :
    outsideRes parts (execHostqDescriptor i j desc data guard s) = .next (outside parts s) := by
  simp at hp
  unfold execHostqDescriptor
  dsimp only
  repeat' split
  all_goals simp [hp]

@[simp] theorem execEventMaskWrite_outside (hp : [.im, .ev, .out] ⊆ parts) (o k v s) :
    outsideRes parts (execEventMaskWrite o k v s) = .next (outside parts s) := by
  simp at hp
  simp [execEventMaskWrite, hp]

@[simp] theorem functionReset_outside (hp : [.tb, .su, .sw, .qm, .ar, .fb, .ps, .kv, .im, .log, .ev, .glob, .out] ⊆ parts) (s) :
    outside parts (functionReset s) = outside parts s := by
  simp at hp
  simp [functionReset, hp]

@[simp] theorem execFunctionLevelReset_outside (hp : [.tb, .su, .sw, .qm, .ar, .fb, .ps, .kv, .im, .log, .ev, .glob, .out] ⊆ parts) (s) :
    outsideRes parts (execFunctionLevelReset s) = .next (outside parts s) := by
  simp at hp
  simp [execFunctionLevelReset, hp]

@[simp] theorem execPerstAssert_outside (hp : [.tb, .su, .sw, .qm, .ar, .fb, .ps, .kv, .im, .log, .ev, .glob, .out] ⊆ parts) (s) :
    outsideRes parts (execPerstAssert s) = .next (outside parts s) := by
  simp at hp
  unfold execPerstAssert
  dsimp only
  repeat' split
  all_goals simp [hp]

/-! ## What CommitOps leaves -/

@[simp] theorem commitInst_outside (hp : [.tb, .su, .px, .qm, .ar, .fb, .ps, .fo, .kv, .im, .log, .ev, .glob, .out] ⊆ parts) (view i s) :
    outside parts (commitInst view i s) = outside parts s := by
  simp at hp
  unfold commitInst
  split <;> simp [hp]

@[simp] theorem imCommit_outside (hp : [.tb, .su, .px, .qm, .ar, .fb, .ps, .fo, .kv, .im, .log, .ev, .glob, .out] ⊆ parts) (view s) :
    outside parts (imCommit view s) = outside parts s := by
  simp at hp
  simp [imCommit, hp]

@[simp] theorem commitPin_outside (hp : [.tb] ⊆ parts) (new k s) :
    outside parts (commitPin new k s) = outside parts s := by
  simp at hp
  simp [commitPin, hp]

@[simp] theorem commitAssign_outside (hp : [.tb, .ar, .fb, .im, .log, .ev, .out] ⊆ parts) (new s) :
    outside parts (commitAssign new s) = outside parts s := by
  simp at hp
  simp [commitAssign, hp]

@[simp] theorem tbCommit_outside (hp : [.tb, .ar, .fb, .im, .log, .ev, .out] ⊆ parts) (view s) :
    outside parts (tbCommit view s) = outside parts s := by
  simp at hp
  simp [tbCommit, hp]

@[simp] theorem commitPort_outside (hp : [.px, .sw, .im, .log, .ev, .out] ⊆ parts) (view p s) :
    outside parts (commitPort view p s) = outside parts s := by
  simp at hp
  simp [commitPort, hp]

@[simp] theorem commitPair_outside (hp : [.px] ⊆ parts) (view k s) :
    outside parts (commitPair view k s) = outside parts s := by
  simp at hp
  simp [commitPair, hp]

@[simp] theorem pxCommit_outside (hp : [.px, .sw, .im, .log, .ev, .out] ⊆ parts) (t view s) :
    outside parts (pxCommit t view s) = outside parts s := by
  simp at hp
  simp [pxCommit, hp]

@[simp] theorem swCommit_outside (hp : [.sw] ⊆ parts) (view s) :
    outside parts (swCommit view s) = outside parts s := by
  simp at hp
  simp [swCommit, hp]

@[simp] theorem qmCommit_outside (hp : [.qm, .fo] ⊆ parts) (view s) :
    outside parts (qmCommit view s) = outside parts s := by
  simp at hp
  simp [qmCommit, hp]

@[simp] theorem psSettings_outside (hp : [.ps] ⊆ parts) (view s) :
    outside parts (psSettings view s) = outside parts s := by
  simp at hp
  simp [psSettings, hp]

@[simp] theorem markOrphans_outside (hp : [.ps, .im, .log, .ev, .out] ⊆ parts) (view s) :
    outside parts (markOrphans view s) = outside parts s := by
  simp at hp
  simp [markOrphans, hp]

@[simp] theorem dropForces_outside (hp : [.ps, .log] ⊆ parts) (l s) :
    outside parts (dropForces l s) = outside parts s := by
  simp at hp
  unfold dropForces
  split <;> simp [hp]

@[simp] theorem psCommit_outside (hp : [.ps, .im, .log, .ev, .out] ⊆ parts) (t drop view s) :
    outside parts (psCommit t drop view s) = outside parts s := by
  simp at hp
  simp [psCommit, hp]

@[simp] theorem duikerCommit_outside (hp : [.pa] ⊆ parts) (view s) :
    outside parts (duikerCommit view s) = outside parts s := by
  simp at hp
  simp [duikerCommit, hp]

@[simp] theorem switchBanks_outside (hp : [.tb, .su, .px, .sw, .qm, .se, .fr, .pe, .ar, .fb, .ps, .fo, .kv, .im, .pa, .grd, .log, .ev, .glob, .out] ⊆ parts) (t drop changed view s) :
    outside parts (switchBanks t drop changed view s) = outside parts s := by
  simp at hp
  simp [switchBanks, hp]

/-! ## What StartOps leaves -/

@[simp] theorem bringDomain_outside (hp : [.px, .sw, .se, .fr, .pe, .ar, .fb, .im, .pa, .grd, .log, .ev, .out] ⊆ parts) (n s) :
    outside parts (bringDomain n s) = outside parts s := by
  simp at hp
  unfold bringDomain
  split <;> simp [hp]

@[simp] theorem startFrames_outside (hp : [.tb, .fb] ⊆ parts) (view s) :
    outside parts (startFrames view s) = outside parts s := by
  simp at hp
  simp [startFrames, hp]

@[simp] theorem bringUp_outside (hp : [.tb, .su, .px, .sw, .qm, .se, .fr, .pe, .ar, .fb, .ps, .fo, .kv, .im, .pa, .grd, .log, .ev, .glob, .out] ⊆ parts) (t view s) :
    outside parts (bringUp t view s) = outside parts s := by
  simp at hp
  simp [bringUp, hp]

/-! ## What Commit leaves -/

@[simp] theorem applyCommit_outside (hp : [.tb, .su, .px, .sw, .qm, .se, .fr, .pe, .ar, .fb, .ps, .fo, .kv, .im, .pa, .grd, .log, .ev, .glob, .out] ⊆ parts) (a view s) :
    outside parts (applyCommit a view s) = outside parts s := by
  simp at hp
  simp [applyCommit, hp]

@[simp] theorem commitSessions_outside (hp : [.su] ⊆ parts) (o s) :
    outside parts (commitSessions o s) = outside parts s := by
  simp at hp
  simp [commitSessions, hp]

@[simp] theorem commitRecord_outside (hp : [.su, .log, .glob] ⊆ parts) (a package s) :
    outside parts (commitRecord a package s) = outside parts s := by
  simp at hp
  unfold commitRecord
  split <;> simp [hp]

@[simp] theorem commitAnswer_outside (hp : [.su, .im, .log, .ev, .glob, .out] ⊆ parts) (a s) :
    outside parts (commitAnswer a s) = outside parts s := by
  simp at hp
  simp [commitAnswer, hp]

@[simp] theorem execCommitStrobe_outside (hp : [.tb, .su, .px, .sw, .qm, .se, .fr, .pe, .ar, .fb, .ps, .fo, .kv, .im, .pa, .grd, .log, .ev, .glob, .out] ⊆ parts) (s) :
    outsideRes parts (execCommitStrobe s) = .next (outside parts s) := by
  simp at hp
  unfold execCommitStrobe
  split <;> simp [hp]

/-! ## What Guard leaves -/

@[simp] theorem scrubCount_outside (hp : [.ar, .ps, .fo, .im, .pa, .grd, .log, .ev, .out] ⊆ parts) (r word f use s) :
    outside parts (scrubCount r word f use s) = outside parts s := by
  simp at hp
  unfold scrubCount
  dsimp only
  repeat' split
  all_goals simp [hp]

@[simp] theorem execScrubRead_outside (hp : [.ar, .ps, .fo, .im, .pa, .grd, .log, .ev, .out] ⊆ parts) (r d words word use s) :
    outsideRes parts (execScrubRead r d words word use s) = .next (outside parts s) := by
  simp at hp
  simp [execScrubRead, hp]

@[simp] theorem errDrop_outside (hp : [.grd] ⊆ parts) (s) :
    outside parts (errDrop s) = outside parts s := by
  simp at hp
  simp [errDrop, hp]

@[simp] theorem execGerrRecordPop_outside (hp : [.grd, .out] ⊆ parts) (rq wide s) :
    outsideRes parts (execGerrRecordPop rq wide s) = .next (outside parts s) := by
  simp at hp
  simp [execGerrRecordPop, hp]

/-! ## What MiOps leaves -/

@[simp] theorem modPt_outside (hp : [.mi] ⊆ parts) (p f s) :
    outside parts (modPt p f s) = outside parts s := by
  simp at hp
  simp [modPt, hp]

@[simp] theorem pushMail_outside (hp : [.mi] ⊆ parts) (u s) :
    outside parts (pushMail u s) = outside parts s := by
  simp at hp
  simp [pushMail, hp]

@[simp] theorem pushPage_outside (hp : [.mi] ⊆ parts) (s) :
    outside parts (pushPage s) = outside parts s := by
  simp at hp
  simp [pushPage, hp]

@[simp] theorem miLog_outside (hp : [.mi] ⊆ parts) (type point arg0 arg1 s) :
    outside parts (miLog type point arg0 arg1 s) = outside parts s := by
  simp at hp
  simp [miLog, hp]

@[simp] theorem applyPending_outside (hp : [.px, .mi] ⊆ parts) (s) :
    outside parts (applyPending s) = outside parts s := by
  simp at hp
  simp [applyPending, hp]

@[simp] theorem setSeal_outside (hp : [.px, .mi] ⊆ parts) (x s) :
    outside parts (setSeal x s) = outside parts s := by
  simp at hp
  simp [setSeal, hp]

@[simp] theorem pushBlock_outside (hp : [.mi] ⊆ parts) (p s) :
    outside parts (pushBlock p s) = outside parts s := by
  simp at hp
  unfold pushBlock
  split <;> simp [hp]

@[simp] theorem closeInterval_outside (hp : [.mi] ⊆ parts) (p tag tai s) :
    outside parts (closeInterval p tag tai s) = outside parts s := by
  simp at hp
  simp [closeInterval, hp]

@[simp] theorem judgeInterval_outside (hp : [.mi] ⊆ parts) (p tag s) :
    outside parts (judgeInterval p tag s) = outside parts s := by
  simp at hp
  unfold judgeInterval
  dsimp only
  split <;> simp [hp]

@[simp] theorem cutInterval_outside (hp : [.mi] ⊆ parts) (p at_ regs s) :
    outside parts (cutInterval p at_ regs s) = outside parts s := by
  simp at hp
  unfold cutInterval
  dsimp only
  split <;> simp [hp]

@[simp] theorem markInterval_outside (hp : [.mi] ⊆ parts) (p gap s) :
    outside parts (markInterval p gap s) = outside parts s := by
  simp at hp
  simp [markInterval, hp]

@[simp] theorem closePeriod_outside (hp : [.px, .mi] ⊆ parts) (p l s) :
    outside parts (closePeriod p l s) = outside parts s := by
  simp at hp
  simp [closePeriod, hp]

@[simp] theorem zcLog_outside (hp : [.mi] ⊆ parts) (p type s) :
    outside parts (zcLog p type s) = outside parts s := by
  simp at hp
  simp [zcLog, hp]

@[simp] theorem refCrossing_outside (hp : [.px, .mi] ⊆ parts) (p c t s) : outside parts (refCrossing p c t s) = outside parts s := by
  simp at hp
  unfold refCrossing
  dsimp only
  split
  · simp [hp]
  · split <;> simp [hp]

@[simp] theorem crossings_outside (hp : [.px, .mi] ⊆ parts) (p before m s) : outside parts (crossings p before m s) = outside parts s := by
  simp at hp
  unfold crossings
  extract_lets x h at_ u
  have hu : outside parts u = outside parts s := modPt_outside (by simp [hp]) ..
  split <;> simp [hp, hu]

@[simp] theorem addEnergy_outside (hp : [.mi] ⊆ parts) (p s) : outside parts (addEnergy p s) = outside parts s := by
  simp at hp
  simp [addEnergy, hp]

@[simp] theorem correctAll_outside (hp : [.px, .mi] ⊆ parts) (p n s) : outside parts (correctAll p n s) = outside parts s := by
  simp at hp
  induction n generalizing s with
  | zero => rfl
  | succ n ih =>
    unfold correctAll
    dsimp only
    split
    · rfl
    · rw [ih]
      split <;> simp [hp]

@[simp] theorem endGap_outside (hp : [.mi] ⊆ parts) (p tag s) :
    outside parts (endGap p tag s) = outside parts s := by
  simp at hp
  unfold endGap
  split <;> simp [hp]

@[simp] theorem takeInstant_outside (hp : [.px, .mi] ⊆ parts) (p tag vals s) :
    outside parts (takeInstant p tag vals s) = outside parts s := by
  simp at hp
  simp [takeInstant, hp]

@[simp] theorem skipInstants_outside (hp : [.px, .mi] ⊆ parts) (p rate from_ n s) :
    outside parts (skipInstants p rate from_ n s) = outside parts s := by
  simp at hp
  simp [skipInstants, hp]

@[simp] theorem closeInstant_outside (hp : [.px, .mi] ⊆ parts) (p s) :
    outside parts (closeInstant p s) = outside parts s := by
  simp at hp
  unfold closeInstant
  dsimp only
  repeat' split
  all_goals simp [hp]

@[simp] theorem closeFull_outside (hp : [.px, .mi] ⊆ parts) (p n s) : outside parts (closeFull p n s) = outside parts s := by
  simp at hp
  induction n generalizing s with
  | zero => rfl
  | succ n ih =>
    unfold closeFull
    split
    · split
      · rw [ih]
        simp [hp]
      · rfl
    · rfl

@[simp] theorem pointAsdu_outside (hp : [.px, .mi] ⊆ parts) (p sel rx a s) :
    outside parts (pointAsdu p sel rx a s) = outside parts s := by
  simp at hp
  simp [pointAsdu, hp]

@[simp] theorem closeWaiting_outside (hp : [.px, .mi] ⊆ parts) (p n s) : outside parts (closeWaiting p n s) = outside parts s := by
  simp at hp
  induction n generalizing s with
  | zero => rfl
  | succ n ih => exact (ih _).trans (closeInstant_outside (by simp [hp]) p s)

@[simp] theorem holdSilent_outside (hp : [.px, .mi] ⊆ parts) (p s) :
    outside parts (holdSilent p s) = outside parts s := by
  simp at hp
  unfold holdSilent
  dsimp only
  split <;> simp [hp]

@[simp] theorem saveRegs_outside (hp : [.mi] ⊆ parts) (done powerFail s) :
    outside parts (saveRegs done powerFail s) = outside parts s := by
  simp at hp
  simp [saveRegs, hp]

/-! ## What Metrology leaves -/

@[simp] theorem execMiTapFrame_outside (hp : [.px, .mi] ⊆ parts) (f bad s) :
    outsideRes parts (execMiTapFrame f bad s) = .next (outside parts s) := by
  simp at hp
  unfold execMiTapFrame
  split
  · rfl
  · extract_lets px u
    have hu : outside parts u = outside parts s := outside_set_px (by simp [hp]) ..
    split
    · simp [hp, hu]
    · split
      · simp [hu]
      · split
        · simp [hu]
        · rw [outsideRes_next]
          refine congrArg _ ((outside_foldl _ (fun v a => outside_foldl _ (fun w p => ?_) _ _) _ _).trans hu)
          split
          · refine outside_foldl _ (fun x sel => ?_) _ _
            simp [hp]
          · rfl

@[simp] theorem execMiTimeRecord_outside (hp : [.mi] ⊆ parts) (bad s) :
    outsideRes parts (execMiTimeRecord bad s) = .next (outside parts s) := by
  simp at hp
  unfold execMiTimeRecord
  split <;> simp [hp]

@[simp] theorem execTimeOkTimeout_outside (hp : [.mi] ⊆ parts) (s) :
    outsideRes parts (execTimeOkTimeout s) = .next (outside parts s) := by
  simp at hp
  simp [execTimeOkTimeout, hp]

@[simp] theorem execMiInstantClose_outside (hp : [.px, .mi] ⊆ parts) (p s) :
    outsideRes parts (execMiInstantClose p s) = .next (outside parts s) := by
  simp at hp
  unfold execMiInstantClose
  dsimp only
  split <;> simp [hp]

@[simp] theorem execZcTimeout_outside (hp : [.px, .mi] ⊆ parts) (p s) :
    outsideRes parts (execZcTimeout p s) = .next (outside parts s) := by
  simp at hp
  simp [execZcTimeout, hp]

@[simp] theorem execTapLost_outside (hp : [.px, .mi] ⊆ parts) (p s) :
    outsideRes parts (execTapLost p s) = .next (outside parts s) := by
  simp at hp
  simp [execTapLost, hp]

@[simp] theorem execRegisterSave_outside (hp : [.mi] ⊆ parts) (s) :
    outsideRes parts (execRegisterSave s) = .next (outside parts s) := by
  simp at hp
  simp [execRegisterSave, hp]

@[simp] theorem execPowerFailSave_outside (hp : [.mi] ⊆ parts) (done s) :
    outsideRes parts (execPowerFailSave done s) = .next (outside parts s) := by
  simp at hp
  simp [execPowerFailSave, hp]

@[simp] theorem execMiPowerUp_outside (hp : [.px, .mi] ⊆ parts) (bad closed s) :
    outsideRes parts (execMiPowerUp bad closed s) = .next (outside parts s) := by
  simp at hp
  unfold execMiPowerUp
  extract_lets torn lose drop u save set seal_ pf restored cut v fresh x px y lost z a b c
  have hu : outside parts u = outside parts s := onMi_outside (by simp [hp]) ..
  clear_value save cut lost
  have hv : outside parts v = outside parts s := by
    unfold v
    split <;> simp [hp, hu]
  have hy : outside parts y = outside parts s := (outside_set_px (by simp [hp]) ..).trans ((onMi_outside (by simp [hp]) ..).trans hv)
  have ha : outside parts a = outside parts s := by simp [a, z, hp, hy]
  have hb : outside parts b = outside parts s := by
    unfold b
    split <;> simp [hp, ha]
  have hc : outside parts c = outside parts s := by simp [c, hp, hb]
  split <;> simp [hp, hc]

@[simp] theorem execSealOpen_outside (hp : [.px, .mi] ⊆ parts) (s) :
    outsideRes parts (execSealOpen s) = .next (outside parts s) := by
  simp at hp
  simp [execSealOpen, hp]

@[simp] theorem execSealClose_outside (hp : [.mi] ⊆ parts) (s) :
    outsideRes parts (execSealClose s) = .next (outside parts s) := by
  simp at hp
  simp [execSealClose, hp]

/-- A frame of the service link reaches its answer, and what its meaning reaches (R486). -/
@[simp] theorem service_outside (hp : .out ∈ parts) (mine frame s) {act : List Byte → State → State × BitVec 8 × List Byte}
    (ha : ∀ b u, outside parts (act b u).1 = outside parts u) : outsideRes parts (service mine frame s act) = .next (outside parts s) := by
  unfold service
  split
  · rfl
  · split <;> simp [ha, hp]

@[simp] theorem execReadId_outside (hp : [.out] ⊆ parts) (frame s) : outsideRes parts (execReadId frame s) = .next (outside parts s) := by
  simp at hp
  exact service_outside hp _ _ _ fun b u => by simp

@[simp] theorem execReadParam_outside (hp : [.out] ⊆ parts) (frame s) : outsideRes parts (execReadParam frame s) = .next (outside parts s) := by
  simp at hp
  exact service_outside hp _ _ _ fun b u => by simp

theorem outside_fst_of_eq {α : Type} {x : State × α} {s : State} (h : ∀ r, x = r → outside parts r.1 = outside parts s) :
    outside parts x.1 = outside parts s := h x rfl

@[simp] theorem execWriteParam_outside (hp : [.px, .mi, .out] ⊆ parts) (frame s) :
    outsideRes parts (execWriteParam frame s) = .next (outside parts s) := by
  simp at hp
  refine service_outside (by simp [hp]) _ _ _ fun b u => outside_fst_of_eq fun r hr => ?_
  split at hr
  · subst hr
    rfl
  · split at hr
    · subst hr
      rfl
    · split at hr
      · split at hr <;> (subst hr; simp [hp])
      · extract_lets set v was w x y at hr
        have hv : outside parts v = outside parts u := onMi_outside (by simp [hp]) ..
        have hw : outside parts w = outside parts u := (onMi_outside (by simp [hp]) ..).trans hv
        have hx : outside parts x = outside parts u := by
          unfold x
          repeat' split
          all_goals simp [hp, hw]
        have hy : outside parts y = outside parts u := (miLog_outside (by simp [hp]) ..).trans hx
        split at hr
        · subst hr
          exact hv
        · subst hr
          dsimp only
          split <;> simp [hp, hy]
      · subst hr
        rfl

@[simp] theorem execSeal_outside (hp : [.px, .mi, .out] ⊆ parts) (frame s) : outsideRes parts (execSeal frame s) = .next (outside parts s) := by
  simp at hp
  exact service_outside (by simp [hp]) _ _ _ fun b u => by simp [hp]

@[simp] theorem resetPoint_outside (hp : [.mi, .free] ⊆ parts) (p s) :
    outside parts (resetPoint p s) = outside parts s := by
  simp at hp
  simp [resetPoint, hp]

@[simp] theorem execResetRegisters_outside (hp : [.mi, .free, .out] ⊆ parts) (frame s) :
    outsideRes parts (execResetRegisters frame s) = .next (outside parts s) := by
  simp at hp
  refine service_outside (by simp [hp]) _ _ _ fun b u => ?_
  repeat' split
  all_goals simp [hp]

@[simp] theorem execClearLog_outside (hp : [.mi, .out] ⊆ parts) (frame s) :
    outsideRes parts (execClearLog frame s) = .next (outside parts s) := by
  simp at hp
  exact service_outside (by simp [hp]) _ _ _ fun b u => by simp [hp]

@[simp] theorem execReadLog_outside (hp : [.out] ⊆ parts) (frame s) : outsideRes parts (execReadLog frame s) = .next (outside parts s) := by
  simp at hp
  exact service_outside hp _ _ _ fun b u => by simp

@[simp] theorem execMiUnknownCommand_outside (hp : [.out] ⊆ parts) (frame s) :
    outsideRes parts (execMiUnknownCommand frame s) = .next (outside parts s) := by
  simp at hp
  exact service_outside hp _ _ _ fun b u => rfl

@[simp] theorem execServiceByteTimeout_outside (_bytes s) :
    outsideRes parts (execServiceByteTimeout _bytes s) = .next (outside parts s) := by
  simp [execServiceByteTimeout]

@[simp] theorem execWriteParamTimeout_outside (hp : [.mi] ⊆ parts) (s) :
    outsideRes parts (execWriteParamTimeout s) = .next (outside parts s) := by
  simp at hp
  unfold execWriteParamTimeout
  split <;> simp [hp]

@[simp] theorem storeMail_outside (hp : [.mi, .im, .log, .ev, .out] ⊆ parts) (u bad s) :
    outside parts (storeMail u bad s) = outside parts s := by
  simp at hp
  unfold storeMail
  split <;> simp [hp]

@[simp] theorem execMailboxUpdate_outside (hp : [.mi, .im, .log, .ev, .out] ⊆ parts) (bad s) :
    outsideRes parts (execMailboxUpdate bad s) = .next (outside parts s) := by
  simp at hp
  unfold execMailboxUpdate
  split <;> simp [hp]

@[simp] theorem execMailboxSilent_outside (hp : [.mi, .im, .log, .ev, .out] ⊆ parts) (s) :
    outsideRes parts (execMailboxSilent s) = .next (outside parts s) := by
  simp at hp
  simp [execMailboxSilent, hp]

/-! ## What Power leaves -/

@[simp] theorem execPaStageDomains_outside (hp : [.su, .im, .pa, .log, .ev, .glob, .out] ⊆ parts) (c l s) :
    outsideRes parts (execPaStageDomains c l s) = .next (outside parts s) := by
  simp at hp
  simp [execPaStageDomains, hp]

@[simp] theorem execPaStageDuiker_outside (hp : [.su, .im, .pa, .log, .ev, .glob, .out] ⊆ parts) (c x s) :
    outsideRes parts (execPaStageDuiker c x s) = .next (outside parts s) := by
  simp at hp
  simp [execPaStageDuiker, hp]

@[simp] theorem domainPart_outside {f : Nat → State → State × Status} (n s) (hf : ∀ k u, outside parts (f k u).1 = outside parts u) :
    outside parts (domainPart f n s).1 = outside parts s := by
  unfold domainPart
  split
  · rfl
  · exact hf n s

@[simp] theorem domainCtrl_outside (hp : byCommand ⊆ parts) (c mask) {f : Nat → State → State × Status} (s)
    (hf : ∀ k u, outside parts (f k u).1 = outside parts u) : outsideRes parts (domainCtrl c mask f s) = .next (outside parts s) :=
  command_outside hp _ _ _ _ fun u => multipart_outside mask u fun n v => domainPart_outside n v hf

@[simp] theorem wakePart_outside (hp : [.im, .pa, .log, .ev, .out] ⊆ parts) (n s) :
    outside parts (wakePart n s).1 = outside parts s := by
  simp at hp
  simp [wakePart, hp]

@[simp] theorem offPart_outside (hp : [.tb, .su, .px, .sw, .se, .fr, .pe, .ar, .fb, .ps, .im, .pa, .log, .ev, .glob, .out] ⊆ parts) (n s) :
    outside parts (offPart n s).1 = outside parts s := by
  simp at hp
  simp [offPart, hp]

@[simp] theorem wakeLoses_outside (hp : [.im, .pa, .log, .ev, .out] ⊆ parts) (n s) :
    outside parts (wakeLoses n s) = outside parts s := by
  simp at hp
  simp [wakeLoses, hp]

@[simp] theorem lockPart_outside (hp : [.tb, .su, .px, .sw, .se, .fr, .pe, .ar, .fb, .ps, .im, .pa, .log, .ev, .glob, .out] ⊆ parts) (n s) :
    outside parts (lockPart n s).1 = outside parts s := by
  simp at hp
  simp [lockPart, hp]

@[simp] theorem unlockPart_outside (hp : [.pa] ⊆ parts) (n s) :
    outside parts (unlockPart n s).1 = outside parts s := by
  simp at hp
  simp [unlockPart, hp]

@[simp] theorem execPaDomainWake_outside (hp : [.su, .im, .pa, .log, .ev, .glob, .out] ⊆ parts) (c mask s) :
    outsideRes parts (execPaDomainWake c mask s) = .next (outside parts s) := by
  simp at hp
  exact domainCtrl_outside (by simp [hp]) c mask s fun k u => by simp [hp]

@[simp] theorem execPaDomainOff_outside
    (hp : [.tb, .su, .px, .sw, .se, .fr, .pe, .ar, .fb, .ps, .im, .pa, .log, .ev, .glob, .out] ⊆ parts) (c mask s) :
    outsideRes parts (execPaDomainOff c mask s) = .next (outside parts s) := by
  simp at hp
  exact domainCtrl_outside (by simp [hp]) c mask s fun k u => by simp [hp]

@[simp] theorem execPaDomainLock_outside
    (hp : [.tb, .su, .px, .sw, .se, .fr, .pe, .ar, .fb, .ps, .im, .pa, .log, .ev, .glob, .out] ⊆ parts) (c mask s) :
    outsideRes parts (execPaDomainLock c mask s) = .next (outside parts s) := by
  simp at hp
  exact domainCtrl_outside (by simp [hp]) c mask s fun k u => by simp [hp]

@[simp] theorem execPaDomainUnlock_outside (hp : [.su, .im, .pa, .log, .ev, .glob, .out] ⊆ parts) (c mask s) :
    outsideRes parts (execPaDomainUnlock c mask s) = .next (outside parts s) := by
  simp at hp
  exact domainCtrl_outside (by simp [hp]) c mask s fun k u => by simp [hp]

@[simp] theorem execDomainIdleOff_outside (hp : [.tb, .su, .px, .sw, .se, .fr, .pe, .ar, .fb, .ps, .im, .pa, .log, .ev, .glob, .out] ⊆ parts) (n s) :
    outsideRes parts (execDomainIdleOff n s) = .next (outside parts s) := by
  simp at hp
  simp [execDomainIdleOff, hp]

@[simp] theorem execDomainDataAccess_outside (hp : [.im, .pa, .log, .ev, .out] ⊆ parts) (n need rq s) :
    outsideRes parts (execDomainDataAccess n need rq s) = .next (outside parts s) := by
  simp at hp
  unfold execDomainDataAccess
  dsimp only
  repeat' split
  all_goals simp [hp]

@[simp] theorem offAfter_outside (hp : [.tb, .su, .px, .sw, .se, .fr, .pe, .ar, .fb, .ps, .im, .pa, .log, .ev, .glob, .out] ⊆ parts) (n s) :
    outside parts (offAfter n s) = outside parts s := by
  simp at hp
  unfold offAfter
  split <;> simp [hp]

@[simp] theorem execDomainOn_outside (hp : [.tb, .su, .px, .sw, .se, .fr, .pe, .ar, .fb, .ps, .im, .pa, .grd, .log, .ev, .glob, .out] ⊆ parts) (n s) :
    outsideRes parts (execDomainOn n s) = .next (outside parts s) := by
  simp at hp
  simp [execDomainOn, hp]

@[simp] theorem execPd2WakeDone_outside (hp : [.px, .sw, .se, .fr, .pe, .ar, .fb, .im, .pa, .grd, .log, .ev, .out] ⊆ parts) (s) :
    outsideRes parts (execPd2WakeDone s) = .next (outside parts s) := by
  simp at hp
  simp [execPd2WakeDone, hp]

@[simp] theorem sleepRefused_outside (hp : [.im, .pa, .log, .ev, .out] ⊆ parts) (k s) :
    outside parts (sleepRefused k s) = outside parts s := by
  simp at hp
  simp [sleepRefused, hp]

@[simp] theorem execPaSleep_outside (hp : [.su, .im, .pa, .log, .ev, .glob, .out] ⊆ parts) (c mask alarm s) :
    outsideRes parts (execPaSleep c mask alarm s) = .next (outside parts s) := by
  simp at hp
  refine command_outside (by simp [hp]) _ _ _ _ fun u => ?_
  repeat' split
  all_goals simp [hp]

@[simp] theorem execSleepStopBoundary_outside (hp : [.se, .ar, .fb, .ps, .im, .pa, .log, .ev, .out] ⊆ parts) (rtc s) :
    outsideRes parts (execSleepStopBoundary rtc s) = .next (outside parts s) := by
  simp at hp
  simp [execSleepStopBoundary, hp]

@[simp] theorem retainTime_outside (hp : [.pa] ⊆ parts) (interval mask alarm s) :
    outside parts (retainTime interval mask alarm s) = outside parts s := by
  simp at hp
  simp [retainTime, hp]

@[simp] theorem execRtcCalibrationDone_outside (hp : .out :: byReset ⊆ parts) (rtc s) :
    outsideRes parts (execRtcCalibrationDone rtc s) = .next (outside parts s) := by
  have hr := (List.cons_subset.mp hp).2
  simp [byReset] at hp
  unfold execRtcCalibrationDone
  split
  · rfl
  · split
    · rfl
    · simp [hp, hr]

@[simp] theorem reportTamper_outside (hp : [.im, .pa, .log, .ev, .out] ⊆ parts) (s) :
    outside parts (reportTamper s) = outside parts s := by
  simp at hp
  simp [reportTamper, hp]

@[simp] theorem recordWake_outside (hp : [.pa] ⊆ parts) (again c s) :
    outside parts (recordWake again c s) = outside parts s := by
  simp at hp
  simp [recordWake, hp]

@[simp] theorem beginStartup_outside (hp : [.im, .pa, .log, .ev, .out] ⊆ parts) (cold s) :
    outside parts (beginStartup cold s) = outside parts s := by
  simp at hp
  simp [beginStartup, hp]

@[simp] theorem wakeSource_outside (hp : [.su, .im, .pa, .log, .ev, .glob, .out] ⊆ parts) (c s) :
    outside parts (wakeSource c s) = outside parts s := by
  simp at hp
  unfold wakeSource
  dsimp only
  repeat' split
  all_goals simp [hp]

@[simp] theorem execWakeNFall_outside (hp : [.su, .im, .pa, .log, .ev, .glob, .out] ⊆ parts) (rtc s) :
    outsideRes parts (execWakeNFall rtc s) = .next (outside parts s) := by
  simp at hp
  simp [execWakeNFall, hp]

@[simp] theorem execRtcAlarm_outside (hp : [.su, .im, .pa, .log, .ev, .glob, .out] ⊆ parts) (rtc s) :
    outsideRes parts (execRtcAlarm rtc s) = .next (outside parts s) := by
  simp at hp
  simp [execRtcAlarm, hp]

@[simp] theorem latchTamper_outside (hp : [.su, .im, .pa, .log, .ev, .glob, .out] ⊆ parts) (k s) :
    outside parts (latchTamper k s) = outside parts s := by
  simp at hp
  simp [latchTamper, hp]

@[simp] theorem tamperLevel_outside (hp : [.pa] ⊆ parts) (k level s) :
    outside parts (tamperLevel k level s) = outside parts s := by
  simp at hp
  simp [tamperLevel, hp]

@[simp] theorem execTamperSample_outside (hp : [.su, .im, .pa, .log, .ev, .glob, .out] ⊆ parts) (k level rtc s) :
    outsideRes parts (execTamperSample k level rtc s) = .next (outside parts s) := by
  simp at hp
  simp [execTamperSample, hp]

@[simp] theorem execTamperLatch_outside (hp : [.su, .im, .pa, .log, .ev, .glob, .out] ⊆ parts) (k rtc s) :
    outsideRes parts (execTamperLatch k rtc s) = .next (outside parts s) := by
  simp at hp
  simp [execTamperLatch, hp]

@[simp] theorem startLink_outside (hp : [.im, .free] ⊆ parts) (s) :
    outside parts (startLink s) = outside parts s := by
  simp at hp
  simp [startLink, hp]

@[simp] theorem execPerstNRise_outside (hp : [.su, .im, .pa, .log, .ev, .glob, .free, .out] ⊆ parts) (rtc s) :
    outsideRes parts (execPerstNRise rtc s) = .next (outside parts s) := by
  simp at hp
  simp [execPerstNRise, hp]

@[simp] theorem execIoSupplyLow_outside (hp : byReset ⊆ parts) (s) :
    outsideRes parts (execIoSupplyLow s) = .next (outside parts s) := by
  have hr := hp
  simp [byReset] at hp
  unfold execIoSupplyLow
  dsimp only
  split <;> simp [hp, hr]

@[simp] theorem execIoSupplyHigh_outside (hp : [.pa] ⊆ parts) (s) :
    outsideRes parts (execIoSupplyHigh s) = .next (outside parts s) := by
  simp at hp
  simp [execIoSupplyHigh, hp]

@[simp] theorem latchCause_outside (hp : [.pa] ⊆ parts) (c s) :
    outside parts (latchCause c s) = outside parts s := by
  simp at hp
  simp [latchCause, hp]

@[simp] theorem execDuikerBrownout_outside (hp : [.pa] ⊆ parts) (c s) :
    outsideRes parts (execDuikerBrownout c s) = .next (outside parts s) := by
  simp at hp
  simp [execDuikerBrownout, hp]

@[simp] theorem execBrownoutReset_outside (hp : byReset ⊆ parts) (c s) :
    outsideRes parts (execBrownoutReset c s) = .next (outside parts s) := by
  have hr := hp
  simp [byReset] at hp
  simp [execBrownoutReset, hp, hr]

@[simp] theorem execOpsecsCopy_outside (hp : [.pa] ⊆ parts) (rtc s) :
    outsideRes parts (execOpsecsCopy rtc s) = .next (outside parts s) := by
  simp at hp
  simp [execOpsecsCopy, hp]

@[simp] theorem execPowerGood_outside (hp : [.im, .pa, .log, .ev, .out] ⊆ parts) (rtc s) :
    outsideRes parts (execPowerGood rtc s) = .next (outside parts s) := by
  simp at hp
  simp [execPowerGood, hp]

@[simp] theorem execPaRetainRead_outside (hp : [.su, .im, .pa, .log, .ev, .glob, .out] ⊆ parts) (c ofs len s) :
    outsideRes parts (execPaRetainRead c ofs len s) = .next (outside parts s) := by
  simp at hp
  simp [execPaRetainRead, hp]

@[simp] theorem execPaRetainWrite_outside (hp : [.su, .im, .pa, .log, .ev, .glob, .out] ⊆ parts) (c ofs data s) :
    outsideRes parts (execPaRetainWrite c ofs data s) = .next (outside parts s) := by
  simp at hp
  simp [execPaRetainWrite, hp]

@[simp] theorem execPaStartupReport_outside (hp : [.su, .im, .pa, .log, .ev, .glob, .out] ⊆ parts) (c s) :
    outsideRes parts (execPaStartupReport c s) = .next (outside parts s) := by
  simp at hp
  simp [execPaStartupReport, hp]

@[simp] theorem execPaTamperClear_outside (hp : [.su, .im, .pa, .log, .ev, .glob, .out] ⊆ parts) (c mask s) :
    outsideRes parts (execPaTamperClear c mask s) = .next (outside parts s) := by
  simp at hp
  simp [execPaTamperClear, hp]

/-! ## What Registers leaves -/

/-- Each reading of a list of counters, with what the clearing read leaves, leaves what stands outside (R51). -/
def ClearsWithin {α : Type} (parts : List Part) (s : State) (l : List (α × State)) : Prop := ∀ b ∈ l, outside parts b.2 = outside parts s

@[simp] theorem clearsWithin_nil {α : Type} (s) : ClearsWithin (α := α) parts s [] := List.forall_mem_nil _

@[simp] theorem clearsWithin_cons {α : Type} (s) (b : α × State) (l) :
    ClearsWithin parts s (b :: l) ↔ outside parts b.2 = outside parts s ∧ ClearsWithin parts s l := List.forall_mem_cons

@[simp] theorem clearsWithin_map {α β : Type} (s) (f : β → α × State) (l : List β) :
    ClearsWithin parts s (l.map f) ↔ ∀ k ∈ l, outside parts (f k).2 = outside parts s := List.forall_mem_map

theorem bankRc_within (s) {n : Nat} (v : Vector (BitVec 64) n) {put : Vector (BitVec 64) n → State}
    (hput : ∀ v, outside parts (put v) = outside parts s) : ClearsWithin parts s (bankRc v put) := by
  simp [bankRc, hput]

@[simp] theorem tabRc_outside {ν : Type} (t : Tab Nat ν) (k get zero) {put : Tab Nat ν → State} (s)
    (hput : ∀ t, outside parts (put t) = outside parts s) : outside parts (tabRc t k get zero put s).2 = outside parts s := by
  unfold tabRc
  split
  · exact hput _
  · rfl

theorem counters64_within (hp : [.px, .sw, .qm, .se, .fr, .pe, .ar, .fb, .ps, .fo, .im, .grd] ⊆ parts) (s) :
    ∀ a ∈ counters64 s, ∀ n, ClearsWithin parts s (a.2.2.2.2 n) := by
  simp at hp
  simp only [counters64, List.forall_mem_cons, List.not_mem_nil, false_imp_iff, implies_true, and_true]
  refine ⟨fun r => ?_, fun n => ?_, fun n => ?_, fun q => ?_, fun n => ?_, fun n => ?_, fun n => ?_, fun n => ?_, fun n => ?_, fun n => ?_,
    fun n => ?_, fun r => ?_, fun k => ?_, fun k => ?_, fun e => ?_, fun j => ?_, fun n => ?_, fun i => ?_, fun n => ?_⟩
  case refine_2 => exact bankRc_within _ _ fun v => by simp [hp]
  case refine_3 => exact bankRc_within _ _ fun v => by simp [hp]
  case refine_12 => exact bankRc_within _ _ fun v => by simp [hp]
  case refine_19 => exact bankRc_within _ _ fun v => by simp [hp]
  case refine_16 => split <;> simp [hp]
  all_goals simp [hp]

theorem rc64_outside (hp : [.px, .sw, .qm, .se, .fr, .pe, .ar, .fb, .ps, .fo, .im, .grd] ⊆ parts) {o : Nat} {s : State} {r : BitVec 64 × State}
    (h : rc64 o s = some r) : outside parts r.2 = outside parts s := by
  obtain ⟨a, ha, h⟩ := List.exists_of_findSome?_eq_some h
  obtain ⟨b, -, h⟩ := Option.bind_eq_some_iff.mp h
  refine counters64_within hp s a ha b.1 r ?_
  unfold pick at h
  split at h
  · exact List.mem_of_getElem? h
  · nomatch h

theorem counters32_within (hp : [.tb, .px, .sw, .ar, .fb, .ps, .fo, .pa, .log, .ev] ⊆ parts) (s) :
    ∀ a ∈ counters32 s, ∀ n, ∀ c ∈ a.2.2.2 n, outside parts c.2.2 = outside parts s := by
  simp at hp
  simp only [counters32, List.forall_mem_cons, List.not_mem_nil, false_imp_iff, implies_true, and_true, List.forall_mem_map,
    List.forall_mem_append, List.forall_mem_flatMap]
  refine ⟨?_, ?_, ?_, ?_, ?_, ?_, fun j => ?_, ?_⟩
  case refine_7 => split <;> simp [hp]
  all_goals simp [hp]

theorem rc32_outside (hp : [.tb, .px, .sw, .ar, .fb, .ps, .fo, .pa, .log, .ev] ⊆ parts) {o : Nat} {s : State} {r : BitVec 32 × State}
    (h : rc32 o s = some r) : outside parts r.2 = outside parts s := by
  obtain ⟨a, ha, h⟩ := List.exists_of_findSome?_eq_some h
  obtain ⟨b, -, h⟩ := Option.bind_eq_some_iff.mp h
  obtain ⟨c, hc, rfl⟩ := Option.map_eq_some_iff.mp h
  exact counters32_within hp s a ha b.1 c (List.mem_of_find?_eq_some hc)

@[simp] theorem clearStatus_outside (hp : [.tb, .px, .sw, .qm, .se, .fr, .pe, .ar, .fb, .ps, .fo, .kv, .im, .pa, .glob] ⊆ parts) (n v s) :
    outside parts (clearStatus n v s) = outside parts s := by
  simp at hp
  unfold clearStatus
  split <;> simp [hp]

theorem clearUnits_outside (hp : [.tb, .px, .sw, .qm, .se, .fr, .pe, .ar, .fb, .fo, .im, .pa, .pmb, .grd, .log, .ev] ⊆ parts) (v s) :
    ∀ a ∈ clearUnits v s, ∀ n, outside parts (a.2.2.2 n) = outside parts s := by
  simp at hp
  simp only [clearUnits, List.forall_mem_cons, List.not_mem_nil, false_imp_iff, implies_true, and_true]
  refine ⟨?_, ?_, ?_, ?_, ?_, ?_, ?_, ?_, ?_, ?_, ?_, ?_, ?_, ?_, ?_, ?_, ?_, ?_, ?_, ?_, fun j => ?_, ?_⟩
  case refine_21 => split <;> simp [hp]
  all_goals simp [hp]

@[simp] theorem writeRing_outside (hp : [.su] ⊆ parts) (k r v s) :
    outside parts (writeRing k r v s) = outside parts s := by
  simp at hp
  simp [writeRing, hp]

@[simp] theorem writeMirror_outside (hp : [.sw] ⊆ parts) (r v s) :
    outside parts (writeMirror r v s) = outside parts s := by
  simp at hp
  simp [writeMirror, hp]

@[simp] theorem writeBar0_outside
    (hp : [.tb, .su, .px, .sw, .qm, .se, .fr, .pe, .ar, .fb, .ps, .fo, .kv, .im, .pa, .pmb, .grd, .log, .ev, .glob] ⊆ parts) (o v s) :
    outside parts (writeBar0 o v s) = outside parts s := by
  have units : outside parts (((clearUnits v s).findSome? fun a => (elem o a.1 a.2.1 a.2.2.1).map a.2.2.2).getD s) = outside parts s := by
    cases h : (clearUnits v s).findSome? fun a => (elem o a.1 a.2.1 a.2.2.1).map a.2.2.2 with
    | none => rfl
    | some t =>
      obtain ⟨a, ha, h⟩ := List.exists_of_findSome?_eq_some h
      obtain ⟨n, -, rfl⟩ := Option.map_eq_some_iff.mp h
      refine clearUnits_outside ?_ v s a ha n
      simp at hp
      simp [hp]
  simp at hp
  unfold writeBar0
  split
  · simp [hp]
  · split
    · simp [hp]
    · simp [hp]
    · simp [hp, units]

@[simp] theorem writeWindow_outside (hp : [.su, .ev] ⊆ parts) (i o v s) :
    outside parts (writeWindow i o v s) = outside parts s := by
  simp at hp
  unfold writeWindow
  dsimp only
  repeat' split
  all_goals simp [hp]

@[simp] theorem writeMsix_outside (hp : [.im, .out] ⊆ parts) (o v s) :
    outside parts (writeMsix o v s) = outside parts s := by
  simp at hp
  unfold writeMsix
  dsimp only
  repeat' split
  all_goals simp [hp]

@[simp] theorem writeReg_outside (hp : [.tb, .su, .px, .sw, .qm, .se, .fr, .pe, .ar, .fb, .ps, .fo, .kv, .im, .pa, .pmb, .grd, .log, .ev, .glob, .out] ⊆ parts) (window o v s) :
    outside parts (writeReg window o v s) = outside parts s := by
  simp at hp
  simp [writeReg, hp]

@[simp] theorem execRegisterWrite_outside
    (hp : [.tb, .su, .px, .sw, .qm, .se, .fr, .pe, .ar, .fb, .ps, .fo, .kv, .im, .pa, .pmb, .grd, .log, .ev, .glob, .out] ⊆ parts)
    (window o v w s) : outsideRes parts (execRegisterWrite window o v w s) = .next (outside parts s) := by
  simp at hp
  unfold execRegisterWrite
  split
  · rfl
  · split <;> simp [hp]

@[simp] theorem execGetInfo_outside (hp : [.su, .im, .pa, .log, .ev, .glob, .out] ⊆ parts) (c n s) :
    outsideRes parts (execGetInfo c n s) = .next (outside parts s) := by
  simp at hp
  simp [execGetInfo, hp]

@[simp] theorem execGetStatus_outside (hp : [.su, .im, .pa, .log, .ev, .glob, .out] ⊆ parts) (c n s) :
    outsideRes parts (execGetStatus c n s) = .next (outside parts s) :=
  answer_outside hp ..

@[simp] theorem execReadActive_outside (hp : [.su, .im, .pa, .log, .ev, .glob, .out] ⊆ parts) (c n op idx sub s) :
    outsideRes parts (execReadActive c n op idx sub s) = .next (outside parts s) := by
  simp at hp
  simp [execReadActive, hp]

@[simp] theorem execReadStaged_outside (hp : [.su, .im, .pa, .log, .ev, .glob, .out] ⊆ parts) (c n op idx sub s) :
    outsideRes parts (execReadStaged c n op idx sub s) = .next (outside parts s) := by
  simp at hp
  simp [execReadStaged, hp]

/-! ## What Startup leaves -/

@[simp] theorem lifeErase_outside (hp : [.kv] ⊆ parts) (s) :
    outside parts (lifeErase s) = outside parts s := by
  simp at hp
  simp [lifeErase, hp]

@[simp] theorem execSecureBootDone_outside (hp : [.kv, .im, .pa, .free, .out] ⊆ parts) (a b s) :
    outsideRes parts (execSecureBootDone a b s) = .next (outside parts s) := by
  simp at hp
  simp [execSecureBootDone, hp]

@[simp] theorem rebuildTime_outside (hp : [.tb, .pa] ⊆ parts) (s) :
    outside parts (rebuildTime s) = outside parts s := by
  simp at hp
  simp [rebuildTime, hp]

@[simp] theorem coldTime_outside (hp : [.tb, .pa] ⊆ parts) (s) : outside parts (coldTime s) = outside parts s := by
  simp at hp
  simp [coldTime, hp]

@[simp] theorem execDuikerRestoreDone_outside (hp : [.tb, .pa] ⊆ parts) (rtc s) :
    outsideRes parts (execDuikerRestoreDone rtc s) = .next (outside parts s) := by
  simp at hp
  simp [execDuikerRestoreDone, hp]

@[simp] theorem domainsOff_outside (hp : [.tb, .su, .px, .sw, .se, .fr, .pe, .ar, .fb, .ps, .im, .pa, .log, .ev, .glob, .out] ⊆ parts) (l s) :
    outside parts (domainsOff l s) = outside parts s := by
  simp at hp
  simp [domainsOff, hp]

@[simp] theorem execDramTrainingDone_outside (hp : [.tb, .su, .px, .sw, .se, .fr, .pe, .ar, .fb, .ps, .im, .pa, .log, .ev, .glob, .out] ⊆ parts) (ok s) :
    outsideRes parts (execDramTrainingDone ok s) = .next (outside parts s) := by
  simp at hp
  simp [execDramTrainingDone, hp]

@[simp] theorem corruptSlot_outside (hp : [.kv, .im, .log, .ev, .out] ⊆ parts) (n s) :
    outside parts (corruptSlot n s) = outside parts s := by
  simp at hp
  simp [corruptSlot, hp]

@[simp] theorem restoreSlots_outside (hp : [.kv, .im, .log, .ev, .out] ⊆ parts) (bad s) :
    outside parts (restoreSlots bad s) = outside parts s := by
  simp at hp
  simp [restoreSlots, hp]

@[simp] theorem finishJournal_outside (hp : [.su, .px, .kv, .im, .log, .ev, .glob, .out] ⊆ parts) (s) :
    outside parts (finishJournal s) = outside parts s := by
  simp at hp
  unfold finishJournal
  split <;> simp [hp]

@[simp] theorem startupRecord_outside (hp : [.log] ⊆ parts) (s) :
    outside parts (startupRecord s) = outside parts s := by
  simp at hp
  simp [startupRecord, hp]

@[simp] theorem bootedRecord_outside (hp : [.su, .log, .glob] ⊆ parts) (id s) :
    outside parts (bootedRecord id s) = outside parts s := by
  simp at hp
  unfold bootedRecord
  split <;> simp [hp]

@[simp] theorem deliverEarly_outside (hp : [.im, .ev, .out] ⊆ parts) (s) :
    outside parts (deliverEarly s) = outside parts s := by
  simp at hp
  simp [deliverEarly, hp]

@[simp] theorem execSuReady_outside (hp : [.su, .px, .qm, .kv, .im, .pa, .log, .ev, .glob, .out] ⊆ parts) (bad s) :
    outsideRes parts (execSuReady bad s) = .next (outside parts s) := by
  simp at hp
  simp [execSuReady, hp]

@[simp] theorem execPackageLoaded_outside (hp : [.tb, .su, .px, .sw, .se, .fr, .pe, .ar, .fb, .ps, .im, .pa, .log, .ev, .glob, .out] ⊆ parts) (heldOk s) :
    outsideRes parts (execPackageLoaded heldOk s) = .next (outside parts s) := by
  simp at hp
  unfold execPackageLoaded
  dsimp only
  repeat' split
  all_goals simp [hp]

@[simp] theorem execPointStoreBuilt_outside (hp : [.ps, .im, .pa, .log, .ev, .out] ⊆ parts) (s) :
    outsideRes parts (execPointStoreBuilt s) = .next (outside parts s) := by
  simp at hp
  simp [execPointStoreBuilt, hp]

@[simp] theorem execPortsUp_outside (hp : [.tb, .su, .px, .sw, .qm, .se, .fr, .pe, .ar, .fb, .ps, .fo, .kv, .im, .pa, .grd, .log, .ev, .glob, .out] ⊆ parts) (s) :
    outsideRes parts (execPortsUp s) = .next (outside parts s) := by
  simp at hp
  simp [execPortsUp, hp]

@[simp] theorem execLockTimeout_outside (hp : [.se, .fb, .im, .pa, .log, .ev, .out] ⊆ parts) (s) :
    outsideRes parts (execLockTimeout s) = .next (outside parts s) := by
  simp at hp
  unfold execLockTimeout
  split <;> simp [hp]

@[simp] theorem execInstancesStart_outside (hp : [.fb, .im, .pa, .log, .ev, .out] ⊆ parts) (s) :
    outsideRes parts (execInstancesStart s) = .next (outside parts s) := by
  simp at hp
  simp [execInstancesStart, hp]

/-! ## What RegRead leaves -/

theorem latching_outside (hp : [.tb, .px, .sw, .qm, .se, .fr, .pe, .ar, .fb, .ps, .fo, .im, .grd] ⊆ parts) {o : Nat} {s : State}
    {r : BitVec 64 × State} (h : latching o s = some r) : outside parts r.2 = outside parts s := by
  simp at hp
  unfold latching at h
  split at h
  · cases h
    rfl
  · split at h
    · cases h
      rfl
    · split at h
      · cases h
        exact captureTake_outside (by simp [hp]) ..
      · cases h
        exact edgeTake_outside (by simp [hp]) ..
      · exact rc64_outside (by simp [hp]) h

@[simp] theorem read32_outside (hp : [.tb, .px, .sw, .qm, .se, .fr, .pe, .ar, .fb, .ps, .fo, .im, .pa, .grd, .log, .ev] ⊆ parts)
    (rq window o s) : outside parts (read32 rq window o s).2 = outside parts s := by
  simp at hp
  unfold read32
  split
  · rfl
  · split
    · rfl
    · split
      next h => exact rc32_outside (by simp [hp]) h
      next =>
        dsimp only
        split
        · simp [hp]
        · split
          · dsimp only
            split <;> simp [hp]
          · rfl

@[simp] theorem readReg_outside (hp : [.tb, .px, .sw, .qm, .se, .fr, .pe, .ar, .fb, .ps, .fo, .im, .pa, .grd, .log, .ev, .out] ⊆ parts)
    (rq window o w s) : outside parts (readReg rq window o w s) = outside parts s := by
  simp at hp
  have latched {r : BitVec 64 × State} (h : (if window = 0 then latching o s else none) = some r) : outside parts r.2 = outside parts s := by
    split at h
    · exact latching_outside (by simp [hp]) h
    · nomatch h
  unfold readReg
  split
  · simp [hp]
  · simp [hp]
  · split
    · simp [hp]
    · split
      next h => simpa [hp] using latched h
      next => simp [hp]
  · split
    · simp [hp]
    · split
      next h => simpa [hp] using latched h
      next => simp [hp]

@[simp] theorem execCounterRead_outside
    (hp : [.tb, .px, .sw, .qm, .se, .fr, .pe, .ar, .fb, .ps, .fo, .im, .pa, .grd, .log, .ev, .out] ⊆ parts) (rq window o w s) :
    outsideRes parts (execCounterRead rq window o w s) = .next (outside parts s) := by
  simp at hp
  simp [execCounterRead, hp]

@[simp] theorem execRtcRead_outside (hp : [.im, .pa, .out] ⊆ parts) (rq rtc wide s) :
    outsideRes parts (execRtcRead rq rtc wide s) = .next (outside parts s) := by
  simp at hp
  simp [execRtcRead, hp]

/-! ## What StageCheck leaves -/

@[simp] theorem execSuStageCheck_outside (hp : [.su, .im, .pa, .log, .ev, .glob, .out] ⊆ parts) (c drop s) :
    outsideRes parts (execSuStageCheck c drop s) = .next (outside parts s) := by
  simp at hp
  refine command_outside (by simp [hp]) _ _ _ _ fun u => ?_
  dsimp only
  repeat' split
  all_goals simp [hp]

/-! ## What Vault leaves -/

@[simp] theorem createKey_outside (hp : [.px, .kv, .log, .free] ⊆ parts) (op c k plain s)
    {body : KeyType → BitVec 32 → State → State × Except Status (List Byte × List Byte)}
    (hb : ∀ t d u, outside parts (body t d u).1 = outside parts u) : outside parts (createKey op c k plain s body).1 = outside parts s := by
  simp at hp
  unfold createKey
  split
  · rfl
  next t lv d _ =>
    have h := hb t d s
    split
    next he => rw [he] at h; exact h
    next he =>
      rw [he] at h
      split <;> simpa [hp] using h

@[simp] theorem execKvKeyLoad_outside (hp : [.su, .px, .kv, .im, .pa, .log, .ev, .glob, .free, .out] ⊆ parts) (c k material aux vouch s) :
    outsideRes parts (execKvKeyLoad c k material aux vouch s) = .next (outside parts s) := by
  simp at hp
  exact kvCommand_outside (by simp [hp]) _ _ _ _ fun u => createKey_outside (by simp [hp]) _ _ _ _ _ fun t d v => by simp

@[simp] theorem execKvKeyGenerate_outside (hp : [.su, .px, .kv, .im, .pa, .log, .ev, .glob, .free, .out] ⊆ parts) (c k s) :
    outsideRes parts (execKvKeyGenerate c k s) = .next (outside parts s) := by
  simp at hp
  refine kvCommand_outside (by simp [hp]) _ _ _ _ fun u => ?_
  dsimp only
  split
  · rfl
  · split <;> simp [hp]

@[simp] theorem parentDenied_outside (hp : [.kv] ⊆ parts) (c p e s) :
    outside parts (parentDenied c p e s) = outside parts s := by
  simp at hp
  simp [parentDenied, hp]

@[simp] theorem execKvKeyDerive_outside (hp : [.su, .px, .kv, .im, .pa, .log, .ev, .glob, .free, .out] ⊆ parts) (c k q s) :
    outsideRes parts (execKvKeyDerive c k q s) = .next (outside parts s) := by
  simp at hp
  refine kvCommand_outside (by simp [hp]) _ _ _ _ fun u => createKey_outside (by simp [hp]) _ _ _ _ _ fun t d v => ?_
  repeat' split
  all_goals simp [hp]

@[simp] theorem execKvKeyUnwrap_outside (hp : [.su, .px, .kv, .im, .pa, .log, .ev, .glob, .free, .out] ⊆ parts) (c k b s) :
    outsideRes parts (execKvKeyUnwrap c k b s) = .next (outside parts s) := by
  simp at hp
  refine kvCommand_outside (by simp [hp]) _ _ _ _ fun u => ?_
  split
  · rfl
  · refine createKey_outside (by simp [hp]) _ _ _ _ _ fun t d v => ?_
    split
    · rfl
    · split
      · simp [hp]
      · split <;> rfl

@[simp] theorem execKvKeyAgree_outside (hp : [.su, .kv, .im, .pa, .log, .ev, .glob, .out] ⊆ parts) (c k peer q s) :
    outsideRes parts (execKvKeyAgree c k peer q s) = .next (outside parts s) := by
  simp at hp
  refine kvCommand_outside (by simp [hp]) _ _ _ _ fun u => ?_
  dsimp only
  split
  · rfl
  · split
    · rfl
    · split <;> simp [hp]

@[simp] theorem execKvKeyWrap_outside (hp : [.su, .kv, .im, .pa, .log, .ev, .glob, .free, .out] ⊆ parts) (c slot parent s) :
    outsideRes parts (execKvKeyWrap c slot parent s) = .next (outside parts s) := by
  simp at hp
  refine kvCommand_outside (by simp [hp]) _ _ _ _ fun u => ?_
  split
  · rfl
  · dsimp only
    repeat' split
    all_goals simp [hp]

@[simp] theorem execKvKeyPublic_outside (hp : [.su, .kv, .im, .pa, .log, .ev, .glob, .out] ⊆ parts) (c slot s) :
    outsideRes parts (execKvKeyPublic c slot s) = .next (outside parts s) := by
  simp at hp
  refine kvCommand_outside (by simp [hp]) _ _ _ _ fun u => ?_
  split <;> simp [hp]

@[simp] theorem execKvKeyRestrict_outside (hp : [.su, .kv, .im, .pa, .log, .ev, .glob, .out] ⊆ parts) (c slot clear s) :
    outsideRes parts (execKvKeyRestrict c slot clear s) = .next (outside parts s) := by
  simp at hp
  refine kvCommand_outside (by simp [hp]) _ _ _ _ fun u => ?_
  split <;> simp [hp]

@[simp] theorem partRevoke_outside (hp : [.log] ⊆ parts) (op c base) {part : Nat → State → State × Nat} (n s)
    (hpart : ∀ k u, outside parts (part k u).1 = outside parts u) : outside parts (partRevoke op c base part n s).1 = outside parts s := by
  simp at hp
  unfold partRevoke
  split <;> simp [hp, hpart]

@[simp] theorem revokeParts_outside (hp : byCommand ⊆ parts) (op c base mask) {part : Nat → State → State × Nat} (s)
    (hpart : ∀ k u, outside parts (part k u).1 = outside parts u) : outsideRes parts (revokeParts op c base mask part s) = .next (outside parts s) := by
  simp at hp
  exact kvCommand_outside (by simp [hp]) _ _ _ _ fun u => multipart_outside mask u fun n v => partRevoke_outside (by simp [hp]) _ _ _ n v hpart

@[simp] theorem execKvKeyRevoke_outside (hp : [.su, .px, .kv, .im, .pa, .log, .ev, .glob, .out] ⊆ parts) (c base mask s) :
    outsideRes parts (execKvKeyRevoke c base mask s) = .next (outside parts s) := by
  simp at hp
  exact revokeParts_outside (by simp [hp]) _ _ _ _ _ fun k u => by simp [hp]

@[simp] theorem execKvKeyErase_outside (hp : [.su, .px, .kv, .im, .pa, .log, .ev, .glob, .out] ⊆ parts) (c base mask s) :
    outsideRes parts (execKvKeyErase c base mask s) = .next (outside parts s) := by
  simp at hp
  exact revokeParts_outside (by simp [hp]) _ _ _ _ _ fun k u => by simp [hp]

@[simp] theorem execKvKeyInfo_outside (hp : [.su, .im, .pa, .log, .ev, .glob, .out] ⊆ parts) (c slot s) :
    outsideRes parts (execKvKeyInfo c slot s) = .next (outside parts s) := by
  simp at hp
  refine kvCommand_outside (by simp [hp]) _ _ _ _ fun u => ?_
  split <;> rfl

@[simp] theorem execKvGcm_outside (hp : [.su, .kv, .im, .pa, .log, .ev, .glob, .free, .out] ⊆ parts) (c q s) :
    outsideRes parts (execKvGcm c q s) = .next (outside parts s) := by
  simp at hp
  refine kvCommand_outside (by simp [hp]) _ _ _ _ fun u => ?_
  split
  · rfl
  · split <;> simp [hp]

@[simp] theorem execKvHmac_outside (hp : [.su, .kv, .im, .pa, .log, .ev, .glob, .out] ⊆ parts) (c slot sha384 verify msg s) :
    outsideRes parts (execKvHmac c slot sha384 verify msg s) = .next (outside parts s) := by
  simp at hp
  refine kvCommand_outside (by simp [hp]) _ _ _ _ fun u => ?_
  split
  · rfl
  · split <;> simp [hp]

@[simp] theorem execKvHash_outside (hp : [.su, .kv, .im, .pa, .log, .ev, .glob, .out] ⊆ parts) (c sha384 msg s) :
    outsideRes parts (execKvHash c sha384 msg s) = .next (outside parts s) := by
  simp at hp
  exact kvCommand_outside (by simp [hp]) _ _ _ _ fun u => by simp [hp]

@[simp] theorem execKvSign_outside (hp : [.su, .kv, .im, .pa, .log, .ev, .glob, .out] ⊆ parts) (c slot hashed data s) :
    outsideRes parts (execKvSign c slot hashed data s) = .next (outside parts s) := by
  simp at hp
  refine kvCommand_outside (by simp [hp]) _ _ _ _ fun u => ?_
  split
  · rfl
  · split <;> simp [hp]

@[simp] theorem execKvVerify_outside (hp : [.su, .kv, .im, .pa, .log, .ev, .glob, .out] ⊆ parts) (c slot hashed data sig s) :
    outsideRes parts (execKvVerify c slot hashed data sig s) = .next (outside parts s) := by
  simp at hp
  refine kvCommand_outside (by simp [hp]) _ _ _ _ fun u => ?_
  split <;> simp [hp]

@[simp] theorem execKvRandom_outside (hp : [.su, .im, .pa, .log, .ev, .glob, .free, .out] ⊆ parts) (c n s) :
    outsideRes parts (execKvRandom c n s) = .next (outside parts s) := by
  simp at hp
  exact kvCommand_outside (by simp [hp]) _ _ _ _ fun u => by simp [hp]

@[simp] theorem execEntropyHealthFail_outside (hp : [.kv, .im, .log, .ev, .out] ⊆ parts) (s) :
    outsideRes parts (execEntropyHealthFail s) = .next (outside parts s) := by
  simp at hp
  simp [execEntropyHealthFail, hp]

@[simp] theorem execEntropyRecovered_outside (hp : [.kv] ⊆ parts) (s) :
    outsideRes parts (execEntropyRecovered s) = .next (outside parts s) := by
  simp at hp
  simp [execEntropyRecovered, hp]

@[simp] theorem execKvLcAdvance_outside (hp : .out :: byReset ⊆ parts) (c target auth s) :
    outsideRes parts (execKvLcAdvance c target auth s) = .next (outside parts s) := by
  have hr := (List.cons_subset.mp hp).2
  simp [byReset] at hp
  exact command_outside (by simp [hp]) _ _ _ _ fun u => by simp [hp, hr]

@[simp] theorem execKvFwSvnRaise_outside (hp : [.su, .kv, .im, .pa, .log, .ev, .glob, .out] ⊆ parts) (c s) :
    outsideRes parts (execKvFwSvnRaise c s) = .next (outside parts s) := by
  simp at hp
  simp [execKvFwSvnRaise, hp]

end

/-! ## The commands and events, by family -/

/-- Settles O12: each command and event of time, the registers, ports, fabric and queues, by the frame of its meaning. -/
theorem frameOfNetwork : Obligations.FrameOfNetwork := by
  intro i s t hf ht
  cases i with
  | compareFire => exact sameBut_of_outsideRes (execCompareFire_outside (List.Subset.refl _) ..) ht
  | pinOutputFire => exact sameBut_of_outsideRes (execPinOutputFire_outside (List.Subset.refl _) ..) ht
  | pulseEnd => exact sameBut_of_outsideRes (execPulseEnd_outside (List.Subset.refl _) ..) ht
  | anchorAdvance => exact sameBut_of_outsideRes (execAnchorAdvance_outside (List.Subset.refl _) ..) ht
  | servoUpdate => exact sameBut_of_outsideRes (execServoUpdate_outside (List.Subset.refl _) ..) ht
  | sourceLost => exact sameBut_of_outsideRes (execSourceLost_outside (List.Subset.refl _) ..) ht
  | lossTimeout => exact sameBut_of_outsideRes (execLossTimeout_outside (List.Subset.refl _) ..) ht
  | ptpMessageRx => exact sameBut_of_outsideRes (execPtpMessageRx_outside (List.Subset.refl _) ..) ht
  | ptpMessageTx => exact sameBut_of_outsideRes (execPtpMessageTx_outside (List.Subset.refl _) ..) ht
  | captureEdge => exact sameBut_of_outsideRes (execCaptureEdge_outside (List.Subset.refl _) ..) ht
  | irigFrame => exact sameBut_of_outsideRes (execIrigFrame_outside (List.Subset.refl _) ..) ht
  | capturePop => exact sameBut_of_outsideRes (execCapturePop_outside (List.Subset.refl _) ..) ht
  | txtsPop => exact sameBut_of_outsideRes (execTxtsPop_outside (List.Subset.refl _) ..) ht
  | ltNowRead => exact sameBut_of_outsideRes (execLtNowRead_outside (List.Subset.refl _) ..) ht
  | rtcRead => exact sameBut_of_outsideRes (execRtcRead_outside (List.Subset.refl _) ..) ht
  | rsUpperRead => exact sameBut_of_outsideRes (execRsUpperRead_outside (List.Subset.refl _) ..) ht
  | counterRead => exact sameBut_of_outsideRes (execCounterRead_outside (List.Subset.refl _) ..) ht
  | registerWrite => exact sameBut_of_outsideRes (execRegisterWrite_outside (List.Subset.refl _) ..) ht
  | tbStagePtp => exact sameBut_of_outsideRes (execTbStagePtp_outside (List.Subset.refl _) ..) ht
  | tbStageSources => exact sameBut_of_outsideRes (execTbStageSources_outside (List.Subset.refl _) ..) ht
  | tbStagePortLat => exact sameBut_of_outsideRes (execTbStagePortLat_outside (List.Subset.refl _) ..) ht
  | tbStagePins => exact sameBut_of_outsideRes (execTbStagePins_outside (List.Subset.refl _) ..) ht
  | tbStageTcuAssign => exact sameBut_of_outsideRes (execTbStageTcuAssign_outside (List.Subset.refl _) ..) ht
  | tbTcuArm => exact sameBut_of_outsideRes (execTbTcuArm_outside (List.Subset.refl _) ..) ht
  | tbTcuDisarm => exact sameBut_of_outsideRes (execTbTcuDisarm_outside (List.Subset.refl _) ..) ht
  | tbReadTime => exact sameBut_of_outsideRes (execTbReadTime_outside (List.Subset.refl _) ..) ht
  | ringTailWrite => exact sameBut_of_outsideRes (execRingTailWrite_outside (List.Subset.refl _) ..) ht
  | ringReleaseWrite => exact sameBut_of_outsideRes (execRingReleaseWrite_outside (List.Subset.refl _) ..) ht
  | ringEnable => exact sameBut_of_outsideRes (execRingEnable_outside (List.Subset.refl _) ..) ht
  | commandFetch => exact sameBut_of_outsideRes (execCommandFetch_outside (List.Subset.refl _) ..) ht
  | suSessionOpen => exact sameBut_of_outsideRes (execSuSessionOpen_outside (List.Subset.refl _) ..) ht
  | suStageCheck c drop => exact sameBut_of_outsideRes (execSuStageCheck_outside (List.Subset.refl _) c drop s) ht
  | suCommit => exact sameBut_of_outsideRes (execSuCommit_outside (List.Subset.refl _) ..) ht
  | suSessionAbort => exact sameBut_of_outsideRes (execSuSessionAbort_outside (List.Subset.refl _) ..) ht
  | suSessionStatus => exact sameBut_of_outsideRes (execSuSessionStatus_outside (List.Subset.refl _) ..) ht
  | suCheckReport => exact sameBut_of_outsideRes (execSuCheckReport_outside (List.Subset.refl _) ..) ht
  | suPkgLoad => exact sameBut_of_outsideRes (execSuPkgLoad_outside (List.Subset.refl _) ..) ht
  | suPkgStage => exact sameBut_of_outsideRes (execSuPkgStage_outside (List.Subset.refl _) ..) ht
  | suPkgStatus => exact sameBut_of_outsideRes (execSuPkgStatus_outside (List.Subset.refl _) ..) ht
  | suRingCreate => exact sameBut_of_outsideRes (execSuRingCreate_outside (List.Subset.refl _) ..) ht
  | suRingDestroy => exact sameBut_of_outsideRes (execSuRingDestroy_outside (List.Subset.refl _) ..) ht
  | suNop => exact sameBut_of_outsideRes (execSuNop_outside (List.Subset.refl _) ..) ht
  | getInfo => exact sameBut_of_outsideRes (execGetInfo_outside (List.Subset.refl _) ..) ht
  | getStatus => exact sameBut_of_outsideRes (execGetStatus_outside (List.Subset.refl _) ..) ht
  | readActive => exact sameBut_of_outsideRes (execReadActive_outside (List.Subset.refl _) ..) ht
  | readStaged => exact sameBut_of_outsideRes (execReadStaged_outside (List.Subset.refl _) ..) ht
  | commitPrepDeadline => exact sameBut_of_outsideRes (execCommitPrepDeadline_outside (List.Subset.refl _) ..) ht
  | commitStrobe => exact sameBut_of_outsideRes (execCommitStrobe_outside (List.Subset.refl _) ..) ht
  | bankResyncEnd => exact sameBut_of_outsideRes (execBankResyncEnd_outside (List.Subset.refl _) ..) ht
  | bootSelectorWrite => exact sameBut_of_outsideRes (execBootSelectorWrite_outside (List.Subset.refl _) ..) ht
  | pkgVerifyDone => exact sameBut_of_outsideRes (execPkgVerifyDone_outside (List.Subset.refl _) ..) ht
  | pkgFlashWriteDone => exact sameBut_of_outsideRes (execPkgFlashWriteDone_outside (List.Subset.refl _) ..) ht
  | frameReceive => exact sameBut_of_outsideRes (execFrameReceive_outside (List.Subset.refl _) ..) ht
  | pauseTimerExpiry => exact sameBut_of_outsideRes (execPauseTimerExpiry_outside (List.Subset.refl _) ..) ht
  | transmitStart => exact sameBut_of_outsideRes (execTransmitStart_outside (List.Subset.refl _) ..) ht
  | transmitEnd => exact sameBut_of_outsideRes (execTransmitEnd_outside (List.Subset.refl _) ..) ht
  | linkStateChange => exact sameBut_of_outsideRes (execLinkStateChange_outside (List.Subset.refl _) ..) ht
  | supervisionTx => exact sameBut_of_outsideRes (execSupervisionTx_outside (List.Subset.refl _) ..) ht
  | supervisionRx => exact sameBut_of_outsideRes (execSupervisionRx_outside (List.Subset.refl _) ..) ht
  | ddtForget => exact sameBut_of_outsideRes (execDdtForget_outside (List.Subset.refl _) ..) ht
  | proxyAgeing => exact sameBut_of_outsideRes (execProxyAgeing_outside (List.Subset.refl _) ..) ht
  | pxStagePort => exact sameBut_of_outsideRes (execPxStagePort_outside (List.Subset.refl _) ..) ht
  | pxStageFilter => exact sameBut_of_outsideRes (execPxStageFilter_outside (List.Subset.refl _) ..) ht
  | pxStageRedundancy => exact sameBut_of_outsideRes (execPxStageRedundancy_outside (List.Subset.refl _) ..) ht
  | pxStageMacsec => exact sameBut_of_outsideRes (execPxStageMacsec_outside (List.Subset.refl _) ..) ht
  | pxMacsecSaSet => exact sameBut_of_outsideRes (execPxMacsecSaSet_outside (List.Subset.refl _) ..) ht
  | pxMacsecTxAn => exact sameBut_of_outsideRes (execPxMacsecTxAn_outside (List.Subset.refl _) ..) ht
  | pxPortRestart => exact sameBut_of_outsideRes (execPxPortRestart_outside (List.Subset.refl _) ..) ht
  | pxReadCounters => exact sameBut_of_outsideRes (execPxReadCounters_outside (List.Subset.refl _) ..) ht
  | transmitQueueEntry => exact sameBut_of_outsideRes (execTransmitQueueEntry_outside (List.Subset.refl _) ..) ht
  | holdExpiry => exact sameBut_of_outsideRes (execHoldExpiry_outside (List.Subset.refl _) ..) ht
  | maxAgeExpiry => exact sameBut_of_outsideRes (execMaxAgeExpiry_outside (List.Subset.refl _) ..) ht
  | fdbAgeing => exact sameBut_of_outsideRes (execFdbAgeing_outside (List.Subset.refl _) ..) ht
  | mirrorEnable => exact sameBut_of_outsideRes (execMirrorEnable_outside (List.Subset.refl _) ..) ht
  | swStageLimits => exact sameBut_of_outsideRes (execSwStageLimits_outside (List.Subset.refl _) ..) ht
  | swStageFdb => exact sameBut_of_outsideRes (execSwStageFdb_outside (List.Subset.refl _) ..) ht
  | swStageVlan => exact sameBut_of_outsideRes (execSwStageVlan_outside (List.Subset.refl _) ..) ht
  | swStagePorts => exact sameBut_of_outsideRes (execSwStagePorts_outside (List.Subset.refl _) ..) ht
  | swStageMirror => exact sameBut_of_outsideRes (execSwStageMirror_outside (List.Subset.refl _) ..) ht
  | swReadCounters => exact sameBut_of_outsideRes (execSwReadCounters_outside (List.Subset.refl _) ..) ht
  | swFdbFlush => exact sameBut_of_outsideRes (execSwFdbFlush_outside (List.Subset.refl _) ..) ht
  | swFdbRead => exact sameBut_of_outsideRes (execSwFdbRead_outside (List.Subset.refl _) ..) ht
  | packetOpen => exact sameBut_of_outsideRes (execPacketOpen_outside (List.Subset.refl _) ..) ht
  | narrowUnitWrite => exact sameBut_of_outsideRes (execNarrowUnitWrite_outside (List.Subset.refl _) ..) ht
  | endMarkWrite => exact sameBut_of_outsideRes (execEndMarkWrite_outside (List.Subset.refl _) ..) ht
  | producerRewind => exact sameBut_of_outsideRes (execProducerRewind_outside (List.Subset.refl _) ..) ht
  | queueRead => exact sameBut_of_outsideRes (execQueueRead_outside (List.Subset.refl _) ..) ht
  | queueMark => exact sameBut_of_outsideRes (execQueueMark_outside (List.Subset.refl _) ..) ht
  | queueRewind => exact sameBut_of_outsideRes (execQueueRewind_outside (List.Subset.refl _) ..) ht
  | queueRelease => exact sameBut_of_outsideRes (execQueueRelease_outside (List.Subset.refl _) ..) ht
  | fabricTake => exact sameBut_of_outsideRes (execFabricTake_outside (List.Subset.refl _) ..) ht
  | qmStageQueues => exact sameBut_of_outsideRes (execQmStageQueues_outside (List.Subset.refl _) ..) ht
  | qmStageSteer => exact sameBut_of_outsideRes (execQmStageSteer_outside (List.Subset.refl _) ..) ht
  | qmReadCounters => exact sameBut_of_outsideRes (execQmReadCounters_outside (List.Subset.refl _) ..) ht
  | qmQueueFlush => exact sameBut_of_outsideRes (execQmQueueFlush_outside (List.Subset.refl _) ..) ht
  | _ => nomatch hf

/-- Settles O13: each command and event of streams, filters, phasors, recorders and the cabinet bus, by the frame of its meaning. -/
theorem frameOfSignal : Obligations.FrameOfSignal := by
  intro i s t hf ht
  cases i with
  | cabinetCycleStart => exact sameBut_of_outsideRes (execCabinetCycleStart_outside (List.Subset.refl _) ..) ht
  | imageTransmit => exact sameBut_of_outsideRes (execImageTransmit_outside (List.Subset.refl _) ..) ht
  | reportReceive => exact sameBut_of_outsideRes (execReportReceive_outside (List.Subset.refl _) ..) ht
  | announceReceive => exact sameBut_of_outsideRes (execAnnounceReceive_outside (List.Subset.refl _) ..) ht
  | imageReceive => exact sameBut_of_outsideRes (execImageReceive_outside (List.Subset.refl _) ..) ht
  | stationAbsent => exact sameBut_of_outsideRes (execStationAbsent_outside (List.Subset.refl _) ..) ht
  | collision => exact sameBut_of_outsideRes (execCollision_outside (List.Subset.refl _) ..) ht
  | slottedStartupEnd => exact sameBut_of_outsideRes (execSlottedStartupEnd_outside (List.Subset.refl _) ..) ht
  | foStageCabinet => exact sameBut_of_outsideRes (execFoStageCabinet_outside (List.Subset.refl _) ..) ht
  | foCabModeTest => exact sameBut_of_outsideRes (execFoCabModeTest_outside (List.Subset.refl _) ..) ht
  | foCabModeNormal => exact sameBut_of_outsideRes (execFoCabModeNormal_outside (List.Subset.refl _) ..) ht
  | foCabRediscover => exact sameBut_of_outsideRes (execFoCabRediscover_outside (List.Subset.refl _) ..) ht
  | svFrameReceive => exact sameBut_of_outsideRes (execSvFrameReceive_outside (List.Subset.refl _) ..) ht
  | gooseFrameReceive => exact sameBut_of_outsideRes (execGooseFrameReceive_outside (List.Subset.refl _) ..) ht
  | instantRelease => exact sameBut_of_outsideRes (execInstantRelease_outside (List.Subset.refl _) ..) ht
  | gridSecond => exact sameBut_of_outsideRes (execGridSecond_outside (List.Subset.refl _) ..) ht
  | talExpiry => exact sameBut_of_outsideRes (execTalExpiry_outside (List.Subset.refl _) ..) ht
  | goosePublish => exact sameBut_of_outsideRes (execGoosePublish_outside (List.Subset.refl _) ..) ht
  | gooseRetransmit => exact sameBut_of_outsideRes (execGooseRetransmit_outside (List.Subset.refl _) ..) ht
  | seStageGroups => exact sameBut_of_outsideRes (execSeStageGroups_outside (List.Subset.refl _) ..) ht
  | seStageSv => exact sameBut_of_outsideRes (execSeStageSv_outside (List.Subset.refl _) ..) ht
  | seStageGooseSub => exact sameBut_of_outsideRes (execSeStageGooseSub_outside (List.Subset.refl _) ..) ht
  | seStageGoosePub => exact sameBut_of_outsideRes (execSeStageGoosePub_outside (List.Subset.refl _) ..) ht
  | seReadCounters => exact sameBut_of_outsideRes (execSeReadCounters_outside (List.Subset.refl _) ..) ht
  | seStreamRelock => exact sameBut_of_outsideRes (execSeStreamRelock_outside (List.Subset.refl _) ..) ht
  | laneOutputRelease => exact sameBut_of_outsideRes (execLaneOutputRelease_outside (List.Subset.refl _) ..) ht
  | gridCycleStart => exact sameBut_of_outsideRes (execGridCycleStart_outside (List.Subset.refl _) ..) ht
  | trackingHold => exact sameBut_of_outsideRes (execTrackingHold_outside (List.Subset.refl _) ..) ht
  | trackingNominal => exact sameBut_of_outsideRes (execTrackingNominal_outside (List.Subset.refl _) ..) ht
  | coefReloadDone => exact sameBut_of_outsideRes (execCoefReloadDone_outside (List.Subset.refl _) ..) ht
  | frStageLanes => exact sameBut_of_outsideRes (execFrStageLanes_outside (List.Subset.refl _) ..) ht
  | frStageTrack => exact sameBut_of_outsideRes (execFrStageTrack_outside (List.Subset.refl _) ..) ht
  | frStageCoef => exact sameBut_of_outsideRes (execFrStageCoef_outside (List.Subset.refl _) ..) ht
  | frLaneRestart => exact sameBut_of_outsideRes (execFrLaneRestart_outside (List.Subset.refl _) ..) ht
  | estimateRelease => exact sameBut_of_outsideRes (execEstimateRelease_outside (List.Subset.refl _) ..) ht
  | streamDeadline => exact sameBut_of_outsideRes (execStreamDeadline_outside (List.Subset.refl _) ..) ht
  | dataFrameHandover => exact sameBut_of_outsideRes (execDataFrameHandover_outside (List.Subset.refl _) ..) ht
  | cfgChangeTimeout => exact sameBut_of_outsideRes (execCfgChangeTimeout_outside (List.Subset.refl _) ..) ht
  | c37CmdDataOff => exact sameBut_of_outsideRes (execC37CmdDataOff_outside (List.Subset.refl _) ..) ht
  | c37CmdDataOn => exact sameBut_of_outsideRes (execC37CmdDataOn_outside (List.Subset.refl _) ..) ht
  | c37CmdHeader => exact sameBut_of_outsideRes (execC37CmdHeader_outside (List.Subset.refl _) ..) ht
  | c37CmdCfg1 => exact sameBut_of_outsideRes (execC37CmdCfg1_outside (List.Subset.refl _) ..) ht
  | c37CmdCfg2 => exact sameBut_of_outsideRes (execC37CmdCfg2_outside (List.Subset.refl _) ..) ht
  | c37CmdUnsupported => exact sameBut_of_outsideRes (execC37CmdUnsupported_outside (List.Subset.refl _) ..) ht
  | c37CmdExtended => exact sameBut_of_outsideRes (execC37CmdExtended_outside (List.Subset.refl _) ..) ht
  | peStageChannels => exact sameBut_of_outsideRes (execPeStageChannels_outside (List.Subset.refl _) ..) ht
  | peStageSets => exact sameBut_of_outsideRes (execPeStageSets_outside (List.Subset.refl _) ..) ht
  | peStageStreams => exact sameBut_of_outsideRes (execPeStageStreams_outside (List.Subset.refl _) ..) ht
  | peReadResults => exact sameBut_of_outsideRes (execPeReadResults_outside (List.Subset.refl _) ..) ht
  | peStreamTxOn => exact sameBut_of_outsideRes (execPeStreamTxOn_outside (List.Subset.refl _) ..) ht
  | peStreamTxOff => exact sameBut_of_outsideRes (execPeStreamTxOff_outside (List.Subset.refl _) ..) ht
  | peReadCounters => exact sameBut_of_outsideRes (execPeReadCounters_outside (List.Subset.refl _) ..) ht
  | wslFrameReceive => exact sameBut_of_outsideRes (execWslFrameReceive_outside (List.Subset.refl _) ..) ht
  | wslFrameDeadline => exact sameBut_of_outsideRes (execWslFrameDeadline_outside (List.Subset.refl _) ..) ht
  | wslRetrainDone => exact sameBut_of_outsideRes (execWslRetrainDone_outside (List.Subset.refl _) ..) ht
  | fastEdgeArrival => exact sameBut_of_outsideRes (execFastEdgeArrival_outside (List.Subset.refl _) ..) ht
  | tdcCalibrationDone => exact sameBut_of_outsideRes (execTdcCalibrationDone_outside (List.Subset.refl _) ..) ht
  | edgePop => exact sameBut_of_outsideRes (execEdgePop_outside (List.Subset.refl _) ..) ht
  | patternTickEval => exact sameBut_of_outsideRes (execPatternTickEval_outside (List.Subset.refl _) ..) ht
  | rowWrite => exact sameBut_of_outsideRes (execRowWrite_outside (List.Subset.refl _) ..) ht
  | recordComplete => exact sameBut_of_outsideRes (execRecordComplete_outside (List.Subset.refl _) ..) ht
  | arStageWsl => exact sameBut_of_outsideRes (execArStageWsl_outside (List.Subset.refl _) ..) ht
  | arStageEdges => exact sameBut_of_outsideRes (execArStageEdges_outside (List.Subset.refl _) ..) ht
  | arStageComparators => exact sameBut_of_outsideRes (execArStageComparators_outside (List.Subset.refl _) ..) ht
  | arStageRecorders => exact sameBut_of_outsideRes (execArStageRecorders_outside (List.Subset.refl _) ..) ht
  | arTrigger => exact sameBut_of_outsideRes (execArTrigger_outside (List.Subset.refl _) ..) ht
  | arRecorderArm => exact sameBut_of_outsideRes (execArRecorderArm_outside (List.Subset.refl _) ..) ht
  | arRecorderStop => exact sameBut_of_outsideRes (execArRecorderStop_outside (List.Subset.refl _) ..) ht
  | arRecordList => exact sameBut_of_outsideRes (execArRecordList_outside (List.Subset.refl _) ..) ht
  | arRecordRead => exact sameBut_of_outsideRes (execArRecordRead_outside (List.Subset.refl _) ..) ht
  | arRecordRelease => exact sameBut_of_outsideRes (execArRecordRelease_outside (List.Subset.refl _) ..) ht
  | arReadCounters => exact sameBut_of_outsideRes (execArReadCounters_outside (List.Subset.refl _) ..) ht
  | handoverEnd => exact sameBut_of_outsideRes (execHandoverEnd_outside (List.Subset.refl _) ..) ht
  | _ => nomatch hf

/-- Settles O14: each command and event of cycles, points and failover, by the frame of its meaning. -/
theorem frameOfControl : Obligations.FrameOfControl := by
  intro i s t hf ht
  cases i with
  | baseTick => exact sameBut_of_outsideRes (execBaseTick_outside (List.Subset.refl _) ..) ht
  | windowEnd => exact sameBut_of_outsideRes (execWindowEnd_outside (List.Subset.refl _) ..) ht
  | majorFrameStart => exact sameBut_of_outsideRes (execMajorFrameStart_outside (List.Subset.refl _) ..) ht
  | cycleStart => exact sameBut_of_outsideRes (execCycleStart_outside (List.Subset.refl _) ..) ht
  | snapshotDone => exact sameBut_of_outsideRes (execSnapshotDone_outside (List.Subset.refl _) ..) ht
  | outputWrite => exact sameBut_of_outsideRes (execOutputWrite_outside (List.Subset.refl _) ..) ht
  | runStateChange => exact sameBut_of_outsideRes (execRunStateChange_outside (List.Subset.refl _) ..) ht
  | inboxDispatch => exact sameBut_of_outsideRes (execInboxDispatch_outside (List.Subset.refl _) ..) ht
  | engineReloadDone => exact sameBut_of_outsideRes (execEngineReloadDone_outside (List.Subset.refl _) ..) ht
  | fbStageCode => exact sameBut_of_outsideRes (execFbStageCode_outside (List.Subset.refl _) ..) ht
  | fbStageRxmap => exact sameBut_of_outsideRes (execFbStageRxmap_outside (List.Subset.refl _) ..) ht
  | fbReadInst => exact sameBut_of_outsideRes (execFbReadInst_outside (List.Subset.refl _) ..) ht
  | fbReadFault => exact sameBut_of_outsideRes (execFbReadFault_outside (List.Subset.refl _) ..) ht
  | fbReadCounters => exact sameBut_of_outsideRes (execFbReadCounters_outside (List.Subset.refl _) ..) ht
  | fbStageSchedule => exact sameBut_of_outsideRes (execFbStageSchedule_outside (List.Subset.refl _) ..) ht
  | fbStageTasks => exact sameBut_of_outsideRes (execFbStageTasks_outside (List.Subset.refl _) ..) ht
  | fbStageRetain => exact sameBut_of_outsideRes (execFbStageRetain_outside (List.Subset.refl _) ..) ht
  | runWarm => exact sameBut_of_outsideRes (execRunWarm_outside (List.Subset.refl _) ..) ht
  | runCold => exact sameBut_of_outsideRes (execRunCold_outside (List.Subset.refl _) ..) ht
  | fbRunCtrlStop => exact sameBut_of_outsideRes (execFbRunCtrlStop_outside (List.Subset.refl _) ..) ht
  | fbRunCtrlHold => exact sameBut_of_outsideRes (execFbRunCtrlHold_outside (List.Subset.refl _) ..) ht
  | fbStep => exact sameBut_of_outsideRes (execFbStep_outside (List.Subset.refl _) ..) ht
  | fbReadTasks => exact sameBut_of_outsideRes (execFbReadTasks_outside (List.Subset.refl _) ..) ht
  | batchApply => exact sameBut_of_outsideRes (execBatchApply_outside (List.Subset.refl _) ..) ht
  | staleMark => exact sameBut_of_outsideRes (execStaleMark_outside (List.Subset.refl _) ..) ht
  | psStagePoints => exact sameBut_of_outsideRes (execPsStagePoints_outside (List.Subset.refl _) ..) ht
  | psReadPoints => exact sameBut_of_outsideRes (execPsReadPoints_outside (List.Subset.refl _) ..) ht
  | psWrite => exact sameBut_of_outsideRes (execPsWrite_outside (List.Subset.refl _) ..) ht
  | psForceSet => exact sameBut_of_outsideRes (execPsForceSet_outside (List.Subset.refl _) ..) ht
  | psForceClear => exact sameBut_of_outsideRes (execPsForceClear_outside (List.Subset.refl _) ..) ht
  | psForceListCurrent => exact sameBut_of_outsideRes (execPsForceListCurrent_outside (List.Subset.refl _) ..) ht
  | psForceListDropped => exact sameBut_of_outsideRes (execPsForceListDropped_outside (List.Subset.refl _) ..) ht
  | heartbeatTx => exact sameBut_of_outsideRes (execHeartbeatTx_outside (List.Subset.refl _) ..) ht
  | heartbeatRx => exact sameBut_of_outsideRes (execHeartbeatRx_outside (List.Subset.refl _) ..) ht
  | partnerLost => exact sameBut_of_outsideRes (execPartnerLost_outside (List.Subset.refl _) ..) ht
  | brixigLinkState => exact sameBut_of_outsideRes (execBrixigLinkState_outside (List.Subset.refl _) ..) ht
  | relinquishRx => exact sameBut_of_outsideRes (execRelinquishRx_outside (List.Subset.refl _) ..) ht
  | gooseStRx => exact sameBut_of_outsideRes (execGooseStRx_outside (List.Subset.refl _) ..) ht
  | replRx => exact sameBut_of_outsideRes (execReplRx_outside (List.Subset.refl _) ..) ht
  | tasksRx => exact sameBut_of_outsideRes (execTasksRx_outside (List.Subset.refl _) ..) ht
  | replEndRx => exact sameBut_of_outsideRes (execReplEndRx_outside (List.Subset.refl _) ..) ht
  | replTransmit => exact sameBut_of_outsideRes (execReplTransmit_outside (List.Subset.refl _) ..) ht
  | replApply => exact sameBut_of_outsideRes (execReplApply_outside (List.Subset.refl _) ..) ht
  | discoveryTimeout => exact sameBut_of_outsideRes (execDiscoveryTimeout_outside (List.Subset.refl _) ..) ht
  | witnessClear => exact sameBut_of_outsideRes (execWitnessClear_outside (List.Subset.refl _) ..) ht
  | watchdogExpiry => exact sameBut_of_outsideRes (execWatchdogExpiry_outside (List.Subset.refl _) ..) ht
  | timeSvTrigger => exact sameBut_of_outsideRes (execTimeSvTrigger_outside (List.Subset.refl _) ..) ht
  | epochResetWindow => exact sameBut_of_outsideRes (execEpochResetWindow_outside (List.Subset.refl _) ..) ht
  | swapBoundary => exact sameBut_of_outsideRes (execSwapBoundary_outside (List.Subset.refl _) ..) ht
  | foWdogWrite => exact sameBut_of_outsideRes (execFoWdogWrite_outside (List.Subset.refl _) ..) ht
  | foStagePair => exact sameBut_of_outsideRes (execFoStagePair_outside (List.Subset.refl _) ..) ht
  | foStageRepl => exact sameBut_of_outsideRes (execFoStageRepl_outside (List.Subset.refl _) ..) ht
  | foRelinquish => exact sameBut_of_outsideRes (execFoRelinquish_outside (List.Subset.refl _) ..) ht
  | foSwap => exact sameBut_of_outsideRes (execFoSwap_outside (List.Subset.refl _) ..) ht
  | foRearm => exact sameBut_of_outsideRes (execFoRearm_outside (List.Subset.refl _) ..) ht
  | foEpochReset => exact sameBut_of_outsideRes (execFoEpochReset_outside (List.Subset.refl _) ..) ht
  | foReadPair => exact sameBut_of_outsideRes (execFoReadPair_outside (List.Subset.refl _) ..) ht
  | _ => nomatch hf

/-- Settles O15: each command and event of metrology, keys, instances and power, by the frame of its meaning. -/
theorem frameOfPlatform : Obligations.FrameOfPlatform := by
  intro i s t hf ht
  cases i with
  | miTapFrame => exact sameBut_of_outsideRes (execMiTapFrame_outside (List.Subset.refl _) ..) ht
  | miTimeRecord => exact sameBut_of_outsideRes (execMiTimeRecord_outside (List.Subset.refl _) ..) ht
  | miInstantClose => exact sameBut_of_outsideRes (execMiInstantClose_outside (List.Subset.refl _) ..) ht
  | zcTimeout => exact sameBut_of_outsideRes (execZcTimeout_outside (List.Subset.refl _) ..) ht
  | tapLost => exact sameBut_of_outsideRes (execTapLost_outside (List.Subset.refl _) ..) ht
  | timeOkTimeout => exact sameBut_of_outsideRes (execTimeOkTimeout_outside (List.Subset.refl _) ..) ht
  | registerSave => exact sameBut_of_outsideRes (execRegisterSave_outside (List.Subset.refl _) ..) ht
  | powerFailSave => exact sameBut_of_outsideRes (execPowerFailSave_outside (List.Subset.refl _) ..) ht
  | miPowerUp => exact sameBut_of_outsideRes (execMiPowerUp_outside (List.Subset.refl _) ..) ht
  | sealOpen => exact sameBut_of_outsideRes (execSealOpen_outside (List.Subset.refl _) ..) ht
  | readId => exact sameBut_of_outsideRes (execReadId_outside (List.Subset.refl _) ..) ht
  | readParam => exact sameBut_of_outsideRes (execReadParam_outside (List.Subset.refl _) ..) ht
  | writeParam => exact sameBut_of_outsideRes (execWriteParam_outside (List.Subset.refl _) ..) ht
  | seal_ => exact sameBut_of_outsideRes (execSeal_outside (List.Subset.refl _) ..) ht
  | resetRegisters => exact sameBut_of_outsideRes (execResetRegisters_outside (List.Subset.refl _) ..) ht
  | clearLog => exact sameBut_of_outsideRes (execClearLog_outside (List.Subset.refl _) ..) ht
  | readLog => exact sameBut_of_outsideRes (execReadLog_outside (List.Subset.refl _) ..) ht
  | miUnknownCommand => exact sameBut_of_outsideRes (execMiUnknownCommand_outside (List.Subset.refl _) ..) ht
  | serviceByteTimeout bytes => exact sameBut_of_outsideRes (execServiceByteTimeout_outside bytes s) ht
  | writeParamTimeout => exact sameBut_of_outsideRes (execWriteParamTimeout_outside (List.Subset.refl _) ..) ht
  | mailboxUpdate => exact sameBut_of_outsideRes (execMailboxUpdate_outside (List.Subset.refl _) ..) ht
  | mailboxSilent => exact sameBut_of_outsideRes (execMailboxSilent_outside (List.Subset.refl _) ..) ht
  | kvKeyLoad => exact sameBut_of_outsideRes (execKvKeyLoad_outside (List.Subset.refl _) ..) ht
  | kvKeyGenerate => exact sameBut_of_outsideRes (execKvKeyGenerate_outside (List.Subset.refl _) ..) ht
  | kvKeyDerive => exact sameBut_of_outsideRes (execKvKeyDerive_outside (List.Subset.refl _) ..) ht
  | kvKeyUnwrap => exact sameBut_of_outsideRes (execKvKeyUnwrap_outside (List.Subset.refl _) ..) ht
  | kvKeyAgree => exact sameBut_of_outsideRes (execKvKeyAgree_outside (List.Subset.refl _) ..) ht
  | kvKeyWrap => exact sameBut_of_outsideRes (execKvKeyWrap_outside (List.Subset.refl _) ..) ht
  | kvKeyPublic => exact sameBut_of_outsideRes (execKvKeyPublic_outside (List.Subset.refl _) ..) ht
  | kvKeyRestrict => exact sameBut_of_outsideRes (execKvKeyRestrict_outside (List.Subset.refl _) ..) ht
  | kvKeyRevoke => exact sameBut_of_outsideRes (execKvKeyRevoke_outside (List.Subset.refl _) ..) ht
  | kvKeyErase => exact sameBut_of_outsideRes (execKvKeyErase_outside (List.Subset.refl _) ..) ht
  | kvKeyInfo => exact sameBut_of_outsideRes (execKvKeyInfo_outside (List.Subset.refl _) ..) ht
  | kvGcm => exact sameBut_of_outsideRes (execKvGcm_outside (List.Subset.refl _) ..) ht
  | kvHmac => exact sameBut_of_outsideRes (execKvHmac_outside (List.Subset.refl _) ..) ht
  | kvHash => exact sameBut_of_outsideRes (execKvHash_outside (List.Subset.refl _) ..) ht
  | kvSign => exact sameBut_of_outsideRes (execKvSign_outside (List.Subset.refl _) ..) ht
  | kvVerify => exact sameBut_of_outsideRes (execKvVerify_outside (List.Subset.refl _) ..) ht
  | kvRandom => exact sameBut_of_outsideRes (execKvRandom_outside (List.Subset.refl _) ..) ht
  | kvLcAdvance => exact sameBut_of_outsideRes (execKvLcAdvance_outside (List.Subset.refl _) ..) ht
  | kvFwSvnRaise => exact sameBut_of_outsideRes (execKvFwSvnRaise_outside (List.Subset.refl _) ..) ht
  | entropyHealthFail => exact sameBut_of_outsideRes (execEntropyHealthFail_outside (List.Subset.refl _) ..) ht
  | entropyRecovered => exact sameBut_of_outsideRes (execEntropyRecovered_outside (List.Subset.refl _) ..) ht
  | imStageShares => exact sameBut_of_outsideRes (execImStageShares_outside (List.Subset.refl _) ..) ht
  | imStageEvents => exact sameBut_of_outsideRes (execImStageEvents_outside (List.Subset.refl _) ..) ht
  | imInstanceReset => exact sameBut_of_outsideRes (execImInstanceReset_outside (List.Subset.refl _) ..) ht
  | imHostqSet => exact sameBut_of_outsideRes (execImHostqSet_outside (List.Subset.refl _) ..) ht
  | imInstanceFreeze => exact sameBut_of_outsideRes (execImInstanceFreeze_outside (List.Subset.refl _) ..) ht
  | imInstanceSave => exact sameBut_of_outsideRes (execImInstanceSave_outside (List.Subset.refl _) ..) ht
  | imInstanceRestore => exact sameBut_of_outsideRes (execImInstanceRestore_outside (List.Subset.refl _) ..) ht
  | imInstanceThaw => exact sameBut_of_outsideRes (execImInstanceThaw_outside (List.Subset.refl _) ..) ht
  | imInstanceInfo => exact sameBut_of_outsideRes (execImInstanceInfo_outside (List.Subset.refl _) ..) ht
  | resetEnd => exact sameBut_of_outsideRes (execResetEnd_outside (List.Subset.refl _) ..) ht
  | freezeBoundary => exact sameBut_of_outsideRes (execFreezeBoundary_outside (List.Subset.refl _) ..) ht
  | restoreApply => exact sameBut_of_outsideRes (execRestoreApply_outside (List.Subset.refl _) ..) ht
  | thawBoundary => exact sameBut_of_outsideRes (execThawBoundary_outside (List.Subset.refl _) ..) ht
  | hostqTailWrite => exact sameBut_of_outsideRes (execHostqTailWrite_outside (List.Subset.refl _) ..) ht
  | hostqDescriptor => exact sameBut_of_outsideRes (execHostqDescriptor_outside (List.Subset.refl _) ..) ht
  | resetRequestWrite => exact sameBut_of_outsideRes (execResetRequestWrite_outside (List.Subset.refl _) ..) ht
  | eventMaskWrite => exact sameBut_of_outsideRes (execEventMaskWrite_outside (List.Subset.refl _) ..) ht
  | functionLevelReset => exact sameBut_of_outsideRes (execFunctionLevelReset_outside (List.Subset.refl _) ..) ht
  | perstAssert => exact sameBut_of_outsideRes (execPerstAssert_outside (List.Subset.refl _) ..) ht
  | paStageDomains => exact sameBut_of_outsideRes (execPaStageDomains_outside (List.Subset.refl _) ..) ht
  | paStageDuiker => exact sameBut_of_outsideRes (execPaStageDuiker_outside (List.Subset.refl _) ..) ht
  | paDomainWake => exact sameBut_of_outsideRes (execPaDomainWake_outside (List.Subset.refl _) ..) ht
  | paDomainOff => exact sameBut_of_outsideRes (execPaDomainOff_outside (List.Subset.refl _) ..) ht
  | paDomainLock => exact sameBut_of_outsideRes (execPaDomainLock_outside (List.Subset.refl _) ..) ht
  | paDomainUnlock => exact sameBut_of_outsideRes (execPaDomainUnlock_outside (List.Subset.refl _) ..) ht
  | paSleep => exact sameBut_of_outsideRes (execPaSleep_outside (List.Subset.refl _) ..) ht
  | paRetainRead => exact sameBut_of_outsideRes (execPaRetainRead_outside (List.Subset.refl _) ..) ht
  | paRetainWrite => exact sameBut_of_outsideRes (execPaRetainWrite_outside (List.Subset.refl _) ..) ht
  | paStartupReport => exact sameBut_of_outsideRes (execPaStartupReport_outside (List.Subset.refl _) ..) ht
  | paTamperClear => exact sameBut_of_outsideRes (execPaTamperClear_outside (List.Subset.refl _) ..) ht
  | sleepStopBoundary => exact sameBut_of_outsideRes (execSleepStopBoundary_outside (List.Subset.refl _) ..) ht
  | rtcCalibrationDone => exact sameBut_of_outsideRes (execRtcCalibrationDone_outside (List.Subset.refl _) ..) ht
  | domainIdleOff => exact sameBut_of_outsideRes (execDomainIdleOff_outside (List.Subset.refl _) ..) ht
  | domainDataAccess => exact sameBut_of_outsideRes (execDomainDataAccess_outside (List.Subset.refl _) ..) ht
  | domainOn => exact sameBut_of_outsideRes (execDomainOn_outside (List.Subset.refl _) ..) ht
  | pd2WakeDone => exact sameBut_of_outsideRes (execPd2WakeDone_outside (List.Subset.refl _) ..) ht
  | ioSupplyLow => exact sameBut_of_outsideRes (execIoSupplyLow_outside (List.Subset.refl _) ..) ht
  | ioSupplyHigh => exact sameBut_of_outsideRes (execIoSupplyHigh_outside (List.Subset.refl _) ..) ht
  | duikerBrownout => exact sameBut_of_outsideRes (execDuikerBrownout_outside (List.Subset.refl _) ..) ht
  | brownoutReset => exact sameBut_of_outsideRes (execBrownoutReset_outside (List.Subset.refl _) ..) ht
  | opsecsCopy => exact sameBut_of_outsideRes (execOpsecsCopy_outside (List.Subset.refl _) ..) ht
  | wakeNFall => exact sameBut_of_outsideRes (execWakeNFall_outside (List.Subset.refl _) ..) ht
  | rtcAlarm => exact sameBut_of_outsideRes (execRtcAlarm_outside (List.Subset.refl _) ..) ht
  | tamperSample => exact sameBut_of_outsideRes (execTamperSample_outside (List.Subset.refl _) ..) ht
  | tamperLatch => exact sameBut_of_outsideRes (execTamperLatch_outside (List.Subset.refl _) ..) ht
  | powerGood => exact sameBut_of_outsideRes (execPowerGood_outside (List.Subset.refl _) ..) ht
  | secureBootDone => exact sameBut_of_outsideRes (execSecureBootDone_outside (List.Subset.refl _) ..) ht
  | duikerRestoreDone => exact sameBut_of_outsideRes (execDuikerRestoreDone_outside (List.Subset.refl _) ..) ht
  | dramTrainingDone => exact sameBut_of_outsideRes (execDramTrainingDone_outside (List.Subset.refl _) ..) ht
  | suReady => exact sameBut_of_outsideRes (execSuReady_outside (List.Subset.refl _) ..) ht
  | packageLoaded => exact sameBut_of_outsideRes (execPackageLoaded_outside (List.Subset.refl _) ..) ht
  | pointStoreBuilt => exact sameBut_of_outsideRes (execPointStoreBuilt_outside (List.Subset.refl _) ..) ht
  | portsUp => exact sameBut_of_outsideRes (execPortsUp_outside (List.Subset.refl _) ..) ht
  | lockTimeout => exact sameBut_of_outsideRes (execLockTimeout_outside (List.Subset.refl _) ..) ht
  | instancesStart => exact sameBut_of_outsideRes (execInstancesStart_outside (List.Subset.refl _) ..) ht
  | thermTrip => exact sameBut_of_outsideRes (execThermTrip_outside (List.Subset.refl _) ..) ht
  | pmbusWrite => exact sameBut_of_outsideRes (execPmbusWrite_outside (List.Subset.refl _) ..) ht
  | pmbusRead => exact sameBut_of_outsideRes (execPmbusRead_outside (List.Subset.refl _) ..) ht
  | pmbusDone => exact sameBut_of_outsideRes (execPmbusDone_outside (List.Subset.refl _) ..) ht
  | pmbusTimeout => exact sameBut_of_outsideRes (execPmbusTimeout_outside (List.Subset.refl _) ..) ht
  | borClearWrite => exact sameBut_of_outsideRes (execBorClearWrite_outside (List.Subset.refl _) ..) ht
  | logClearWrite => exact sameBut_of_outsideRes (execLogClearWrite_outside (List.Subset.refl _) ..) ht
  | logClearDone => exact sameBut_of_outsideRes (execLogClearDone_outside (List.Subset.refl _) ..) ht
  | logRecordWrite => exact sameBut_of_outsideRes (execLogRecordWrite_outside (List.Subset.refl _) ..) ht
  | scrubRead => exact sameBut_of_outsideRes (execScrubRead_outside (List.Subset.refl _) ..) ht
  | gerrRecordPop => exact sameBut_of_outsideRes (execGerrRecordPop_outside (List.Subset.refl _) ..) ht
  | perstNRise => exact sameBut_of_outsideRes (execPerstNRise_outside (List.Subset.refl _) ..) ht
  | sealClose => exact sameBut_of_outsideRes (execSealClose_outside (List.Subset.refl _) ..) ht
  | engineSlot => exact sameBut_of_outsideRes (execEngineSlot_outside (List.Subset.refl _) ..) ht
  | dmaReadCompletion => exact sameBut_of_outsideRes (execDmaReadCompletion_outside (List.Subset.refl _) ..) ht
  | thermTripNHigh => exact sameBut_of_outsideRes (execThermTripNHigh_outside (List.Subset.refl _) ..) ht
  | _ => nomatch hf

end Sys2Proof.Machine
end

section
/-! The guard code (R564–R566): GF(2^8) by its powers of α, the syndromes of a word with errors, and what a reader makes of them. -/

namespace Sys2Proof.Machine

/-! ## The field -/

theorem gfDouble_xor (x y : Byte) : gfDouble (x ^^^ y) = gfDouble x ^^^ gfDouble y := by
  have c : ∀ a b : Bool, (if (a ^^ b) = true then (0x1D : Byte) else 0) = (if a = true then 0x1D else 0) ^^^ (if b = true then 0x1D else 0) := by decide
  simp only [gfDouble, BitVec.shiftLeft_xor_distrib, BitVec.getLsbD_xor, c]
  ac_rfl

@[simp] theorem gfDouble_zero : gfDouble 0#8 = 0#8 := by decide

/-- Doubling loses nothing: its kernel is 0. -/
theorem gfDouble_injective : Function.Injective gfDouble := by
  have ker : ∀ z : Byte, gfDouble z = 0#8 → z = 0#8 := by decide
  intro x y h
  exact BitVec.xor_eq_zero_iff.mp (ker _ (by rw [gfDouble_xor, h, BitVec.xor_self]))

theorem gfDouble_iterate_xor (n : Nat) (x y : Byte) : gfDouble^[n] (x ^^^ y) = gfDouble^[n] x ^^^ gfDouble^[n] y := by
  induction n generalizing x y with
  | zero => rfl
  | succ n ih => simp only [Function.iterate_succ_apply, gfDouble_xor, ih]

@[simp] theorem gfDouble_iterate_zero (n : Nat) : gfDouble^[n] 0#8 = 0#8 := Function.iterate_fixed gfDouble_zero n

theorem gfDouble_iterate_eq_zero {n : Nat} {x : Byte} : gfDouble^[n] x = 0#8 ↔ x = 0#8 := by
  constructor
  · intro h
    exact gfDouble_injective.iterate n (h.trans (gfDouble_iterate_zero n).symm)
  · rintro rfl
    exact gfDouble_iterate_zero n

theorem gfAlpha_eq_iterate (p : Nat) : gfAlpha p = gfDouble^[p] 1#8 := by
  induction p with
  | zero => rfl
  | succ p ih => rw [Function.iterate_succ_apply', ← ih]; rfl

theorem gfMul_xor_left (x x' y : Byte) : gfMul (x ^^^ x') y = gfMul x y ^^^ gfMul x' y := by
  unfold gfMul
  induction List.range 8 with
  | nil => simp
  | cons i l ih =>
    simp only [List.foldr_cons, ih, gfDouble_xor]
    split
    · ac_rfl
    · simp

theorem gfMul_xor_right (x y y' : Byte) : gfMul x (y ^^^ y') = gfMul x y ^^^ gfMul x y' := by
  have c (a b : Bool) : (if (a ^^ b) = true then x else 0) = (if a = true then x else 0) ^^^ (if b = true then x else 0) := by
    cases a <;> cases b <;> simp
  unfold gfMul
  induction List.range 8 with
  | nil => simp
  | cons i l ih =>
    rw [List.foldr_cons, ih, gfDouble_xor, BitVec.getLsbD_xor, c]
    simp only [List.foldr_cons]
    ac_rfl

theorem gfMul_zero_left (y : Byte) : gfMul 0#8 y = 0#8 := by
  have := gfMul_xor_left y y y
  rwa [BitVec.xor_self, BitVec.xor_self] at this

theorem gfMul_one (x : Byte) : gfMul x 1#8 = x := by simp [gfMul, List.range_succ]

/-- The product by 2y is twice the product by y: α^8 is the symbol 0x1D. -/
theorem gfMul_gfDouble (x y : Byte) : gfMul x (gfDouble y) = gfDouble (gfMul x y) := by
  have reduce : ∀ x : Byte, gfMul x 0x1D = gfDouble^[8] x := by decide +kernel
  have shift : gfMul x (y <<< 1) ^^^ gfDouble^[8] (if y.getLsbD 7 then x else 0#8) = gfDouble (gfMul x y) := by
    simp [gfMul, List.range_succ, gfDouble_xor]
    ac_rfl
  rw [← shift, gfDouble, gfMul_xor_right]
  split
  · rw [reduce]
  · have := gfMul_xor_right x 0#8 0#8
    rw [BitVec.xor_self, BitVec.xor_self] at this
    simp [this]

/-- To multiply by α^p is to double p times. -/
theorem gfMul_gfAlpha (x : Byte) (p : Nat) : gfMul x (gfAlpha p) = gfDouble^[p] x := by
  induction p with
  | zero => exact gfMul_one x
  | succ p ih => rw [gfAlpha, gfMul_gfDouble, ih, Function.iterate_succ_apply']

/-- α has order 255: none of its lower powers is 1. -/
theorem gfAlpha_ne_one : ∀ p < 255, 0 < p → gfAlpha p ≠ 1#8 := by decide +kernel

theorem gfAlpha_ne_zero (p : Nat) : gfAlpha p ≠ 0#8 := by
  rw [gfAlpha_eq_iterate, Ne, gfDouble_iterate_eq_zero]
  decide

/-- Multiplying by α^p and by α^q differ on every symbol but 0. -/
theorem gfAlpha_injective {p q : Nat} (hp : p < 255) (hq : q < 255) (h : gfAlpha p = gfAlpha q) : p = q := by
  wlog hle : p ≤ q generalizing p q
  · exact (this hq hp h.symm (by omega)).symm
  by_contra hne
  refine gfAlpha_ne_one (q - p) (by omega) (by omega) (gfDouble_injective.iterate p ?_)
  rw [gfAlpha_eq_iterate, ← Function.iterate_add_apply, Nat.add_sub_cancel' hle, ← gfAlpha_eq_iterate, ← gfAlpha_eq_iterate, h]

/-- The place of α^p among the symbols other than 0. -/
def gfPlace (p : Fin 255) : Fin 255 := ⟨(gfAlpha p.val).toNat - 1, by have := (gfAlpha p.val).isLt; omega⟩

theorem gfPlace_injective : Function.Injective gfPlace := by
  have pos (p : Fin 255) : 0 < (gfAlpha p.val).toNat :=
    Nat.pos_of_ne_zero fun h => gfAlpha_ne_zero p.val (BitVec.eq_of_toNat_eq h)
  intro p q h
  have hn : (gfAlpha p.val).toNat - 1 = (gfAlpha q.val).toNat - 1 := congrArg Fin.val h
  have := pos p
  have := pos q
  exact Fin.ext (gfAlpha_injective p.2 q.2 (BitVec.eq_of_toNat_eq (by omega)))

/-- α generates: the 255 symbols other than 0 are its 255 powers. -/
theorem exists_gfAlpha {x : Byte} (h : x ≠ 0#8) : ∃ p, x = gfAlpha p := by
  have hx : 0 < x.toNat := Nat.pos_of_ne_zero fun h' => h (BitVec.eq_of_toNat_eq h')
  obtain ⟨p, hp⟩ := Finite.injective_iff_surjective.mp gfPlace_injective ⟨x.toNat - 1, by have := x.isLt; omega⟩
  have hn : (gfAlpha p.val).toNat - 1 = x.toNat - 1 := congrArg Fin.val hp
  have : (gfAlpha p.val).toNat ≠ 0 := fun h' => gfAlpha_ne_zero p.val (BitVec.eq_of_toNat_eq h')
  exact ⟨p.val, BitVec.eq_of_toNat_eq (by omega)⟩

theorem gfMul_comm (x y : Byte) : gfMul x y = gfMul y x := by
  have zero (z : Byte) : gfMul z 0#8 = 0#8 := by
    have := gfMul_xor_right z z z
    rwa [BitVec.xor_self, BitVec.xor_self] at this
  by_cases hx : x = 0#8
  · rw [hx, zero, gfMul_zero_left]
  by_cases hy : y = 0#8
  · rw [hy, zero, gfMul_zero_left]
  obtain ⟨p, rfl⟩ := exists_gfAlpha hx
  obtain ⟨q, rfl⟩ := exists_gfAlpha hy
  rw [gfMul_gfAlpha, gfMul_gfAlpha, gfAlpha_eq_iterate, gfAlpha_eq_iterate, ← Function.iterate_add_apply, ← Function.iterate_add_apply,
    Nat.add_comm]

theorem gfMul_iterate (n : Nat) (x y : Byte) : gfMul x (gfDouble^[n] y) = gfDouble^[n] (gfMul x y) := by
  induction n with
  | zero => rfl
  | succ n ih => rw [Function.iterate_succ_apply', gfMul_gfDouble, ih, Function.iterate_succ_apply']

theorem gfMul_iterate_left (n : Nat) (x y : Byte) : gfMul (gfDouble^[n] x) y = gfDouble^[n] (gfMul x y) := by
  rw [gfMul_comm, gfMul_iterate, gfMul_comm]

/-- The field has no zero divisors. -/
theorem gfMul_ne_zero {x y : Byte} (hx : x ≠ 0#8) (hy : y ≠ 0#8) : gfMul x y ≠ 0#8 := by
  obtain ⟨p, rfl⟩ := exists_gfAlpha hy
  rwa [gfMul_gfAlpha, Ne, gfDouble_iterate_eq_zero]

/-- Squaring is additive. -/
theorem gfMul_xor_self (x y : Byte) : gfMul (x ^^^ y) (x ^^^ y) = gfMul x x ^^^ gfMul y y := by
  have cross : gfMul x y ^^^ gfMul y x = 0#8 := by rw [gfMul_comm, BitVec.xor_self]
  calc gfMul (x ^^^ y) (x ^^^ y) = gfMul x x ^^^ gfMul y y ^^^ (gfMul x y ^^^ gfMul y x) := by
        simp only [gfMul_xor_left, gfMul_xor_right]
        ac_rfl
    _ = gfMul x x ^^^ gfMul y y := by rw [cross, BitVec.xor_zero]

/-- Powers of α below 255 that agree on a symbol other than 0 are the same. -/
theorem gfDouble_iterate_inj {p q : Nat} (hp : p < 255) (hq : q < 255) {x : Byte} (hx : x ≠ 0#8) :
    gfDouble^[p] x = gfDouble^[q] x ↔ p = q := by
  refine ⟨fun h => ?_, fun h => h ▸ rfl⟩
  obtain ⟨k, rfl⟩ := exists_gfAlpha hx
  refine gfAlpha_injective hp hq (gfDouble_injective.iterate k ?_)
  simp only [gfAlpha_eq_iterate, ← Function.iterate_add_apply] at h ⊢
  rwa [Nat.add_comm k, Nat.add_comm k]

/-! ## Syndromes -/

/-- A received symbol joins a syndrome (R566). -/
def guardStep (j : Nat) (a x : Byte) : Byte := gfDouble^[j] a ^^^ x

theorem guardSyndrome_eq (j : Nat) (w : Vector Byte 36) : guardSyndrome j w = w.toList.foldl (guardStep j) 0#8 := by
  simp only [guardSyndrome, gfMul_gfAlpha]
  rfl

/-- A syndrome is linear in what stands before the symbols. -/
theorem foldl_guardStep_xor (j : Nat) (a b : Byte) (l : List Byte) :
    l.foldl (guardStep j) (a ^^^ b) = l.foldl (guardStep j) a ^^^ gfDouble^[j * l.length] b := by
  induction l generalizing a b with
  | nil => simp
  | cons x l ih =>
    have step : guardStep j (a ^^^ b) x = guardStep j a x ^^^ gfDouble^[j] b := by
      simp only [guardStep, gfDouble_iterate_xor]
      ac_rfl
    rw [List.foldl_cons, step, ih, List.foldl_cons, ← Function.iterate_add_apply, List.length_cons, Nat.mul_succ]

/-- An error e in the symbol that n symbols follow adds α^(jn) e to syndrome j. -/
theorem foldl_guardStep_set (j i : Nat) (e : Byte) (a : Byte) (l : List Byte) (h : i < l.length) :
    (l.set i (l[i] ^^^ e)).foldl (guardStep j) a = l.foldl (guardStep j) a ^^^ gfDouble^[j * (l.length - 1 - i)] e := by
  induction l generalizing a i with
  | nil => cases h
  | cons x l ih =>
    cases i with
    | zero =>
      have step : guardStep j a (x ^^^ e) = guardStep j a x ^^^ e := by
        simp only [guardStep]
        ac_rfl
      simp [step, foldl_guardStep_xor]
    | succ i =>
      have hl : l.length - (i + 1) = l.length - 1 - i := by omega
      simpa [hl] using ih i (guardStep j a x) (by simpa using h)

theorem guardSyndrome_set (j : Nat) (w : Vector Byte 36) (i : Fin 36) (e : Byte) :
    guardSyndrome j (w.set i.val (w[i.val] ^^^ e)) = guardSyndrome j w ^^^ gfDouble^[j * (35 - i.val)] e := by
  rw [guardSyndrome_eq, guardSyndrome_eq, Vector.toList_set]
  simpa using foldl_guardStep_set j i.val e 0#8 w.toList (by simp)

/-! ## Encoding -/

/-- The remainder of the division, taken at α^j (R565). -/
def guardRemainder (j : Nat) (r : Byte × Byte × Byte) : Byte := gfDouble^[2 * j] r.1 ^^^ gfDouble^[j] r.2.1 ^^^ r.2.2

/-- α^j is a root of g(x) for j = 0, 1, 2 (R565). -/
theorem guardRoots (j : Fin 3) (q : Byte) :
    gfDouble^[2 * j.val] (gfMul q 0x07) ^^^ gfDouble^[j.val] (gfMul q 0x0E) ^^^ gfMul q 0x08 = gfDouble^[3 * j.val] q := by
  revert j q
  decide +kernel

theorem guardRemainder_divide (j : Fin 3) (r : Byte × Byte × Byte) (x : Byte) :
    guardRemainder j.val (guardDivide r x) = gfDouble^[j.val] (guardRemainder j.val r) ^^^ gfDouble^[3 * j.val] x := by
  obtain ⟨a, b, c⟩ := r
  have root := guardRoots j (a ^^^ x)
  have h3 : gfDouble^[3 * j.val] a = gfDouble^[j.val] (gfDouble^[2 * j.val] a) := by
    rw [← Function.iterate_add_apply]; congr 1; omega
  have h2 : gfDouble^[2 * j.val] b = gfDouble^[j.val] (gfDouble^[j.val] b) := by
    rw [← Function.iterate_add_apply]; congr 1; omega
  rw [gfDouble_iterate_xor (3 * j.val)] at root
  calc guardRemainder j.val (guardDivide (a, b, c) x)
      = gfDouble^[2 * j.val] b ^^^ gfDouble^[j.val] c ^^^
          (gfDouble^[2 * j.val] (gfMul (a ^^^ x) 0x07) ^^^ gfDouble^[j.val] (gfMul (a ^^^ x) 0x0E) ^^^ gfMul (a ^^^ x) 0x08) := by
        simp only [guardRemainder, guardDivide, gfDouble_iterate_xor]
        ac_rfl
    _ = gfDouble^[j.val] (guardRemainder j.val (a, b, c)) ^^^ gfDouble^[3 * j.val] x := by
        rw [root, h3, h2]
        simp only [guardRemainder, gfDouble_iterate_xor]
        ac_rfl

/-- Dividing keeps in step with the syndromes: the remainder at α^j is the syndrome of the symbols so far, times α^(3j). -/
theorem guardRemainder_foldl (j : Fin 3) (l : List Byte) (r : Byte × Byte × Byte) (a : Byte) (h : guardRemainder j.val r = gfDouble^[3 * j.val] a) :
    guardRemainder j.val (l.foldl guardDivide r) = gfDouble^[3 * j.val] (l.foldl (guardStep j.val) a) := by
  induction l generalizing r a with
  | nil => exact h
  | cons x l ih =>
    refine ih _ _ ?_
    rw [guardRemainder_divide, h, guardStep, gfDouble_iterate_xor, ← Function.iterate_add_apply, ← Function.iterate_add_apply, Nat.add_comm]

/-- A guard word is a codeword: its syndromes are 0 (R565, R566). -/
theorem guardSyndrome_guardEncode (j : Fin 3) (d : Vector Byte 32) (t : Byte) : guardSyndrome j.val (guardEncode d t) = 0#8 := by
  have h := guardRemainder_foldl j (d.toList ++ [t]) (0, 0, 0) 0#8 (by simp [guardRemainder])
  generalize hr : (d.toList ++ [t]).foldl guardDivide (0, 0, 0) = r at h
  have hl : (guardEncode d t).toList = (d.toList ++ [t]) ++ [r.1, r.2.1, r.2.2] := by
    simp only [guardEncode, hr, Vector.toList_append]
    rfl
  rw [guardSyndrome_eq, hl, List.foldl_append]
  generalize (d.toList ++ [t]).foldl (guardStep j.val) 0#8 = a at h ⊢
  have h3 : gfDouble^[j.val] (gfDouble^[j.val] (gfDouble^[j.val] a)) = gfDouble^[3 * j.val] a := by
    rw [← Function.iterate_add_apply, ← Function.iterate_add_apply]; congr 1; omega
  have h2 : gfDouble^[j.val] (gfDouble^[j.val] r.1) = gfDouble^[2 * j.val] r.1 := by
    rw [← Function.iterate_add_apply]; congr 1; omega
  simp only [List.foldl_cons, List.foldl_nil, guardStep, gfDouble_iterate_xor, h3, h2, ← h, guardRemainder]
  rw [← BitVec.xor_self (x := gfDouble^[2 * j.val] r.1 ^^^ gfDouble^[j.val] r.2.1 ^^^ r.2.2)]
  ac_rfl

/-! ## Reading -/

/-- No error. -/
theorem guardJudge_clean {w : Vector Byte 36} (h0 : guardSyndrome 0 w = 0#8) (h1 : guardSyndrome 1 w = 0#8) (h2 : guardSyndrome 2 w = 0#8) :
    guardJudge w = .none := by simp [guardJudge, h0, h1, h2]

/-- The first of the places below 36 at which the syndromes of one error agree is its own. -/
theorem find_place {p : Nat} (hp : p < 36) {e : Byte} (he : e ≠ 0#8) :
    (List.range 36).find? (fun q => gfMul e (gfAlpha q) == gfDouble^[p] e) = some p := by
  have hq : ∀ q ∈ List.range 36, (gfMul e (gfAlpha q) == gfDouble^[p] e) = decide (q = p) := by
    intro q hq
    rw [List.mem_range] at hq
    rw [gfMul_gfAlpha, beq_eq_decide]
    exact decide_eq_decide.mpr (gfDouble_iterate_inj (by omega) (by omega) he)
  rw [List.find?_range_eq_some]
  refine ⟨by rw [hq p (List.mem_range.mpr hp)]; simp, List.mem_range.mpr hp, ?_⟩
  intro q hlt
  rw [hq q (List.mem_range.mpr (by omega))]
  simp; omega

/-- One error e at place p from the end. -/
theorem guardJudge_single {w : Vector Byte 36} {p : Nat} (hp : p < 36) {e : Byte} (he : e ≠ 0#8)
    (h : ∀ j : Fin 3, guardSyndrome j.val w = gfDouble^[j.val * p] e) : guardJudge w = .corrected (35 - p) e := by
  have h0 : guardSyndrome 0 w = e := by simpa using h 0
  have h1 : guardSyndrome 1 w = gfDouble^[p] e := by simpa using h 1
  have h2 : guardSyndrome 2 w = gfDouble^[2 * p] e := h 2
  have sq : gfMul (gfDouble^[p] e) (gfDouble^[p] e) = gfMul e (gfDouble^[2 * p] e) := by
    rw [gfMul_iterate, gfMul_iterate_left, gfMul_iterate, ← Function.iterate_add_apply, two_mul]
  simp [guardJudge, h0, h1, h2, he, gfDouble_iterate_eq_zero, sq, find_place hp he]

/-- Two errors at places p and q from the end (R566). -/
theorem guardJudge_double {w : Vector Byte 36} {p q : Nat} (hp : p < 36) (hq : q < 36) (hpq : p ≠ q) {e f : Byte} (he : e ≠ 0#8) (hf : f ≠ 0#8)
    (h : ∀ j : Fin 3, guardSyndrome j.val w = gfDouble^[j.val * p] e ^^^ gfDouble^[j.val * q] f) : ∃ hit, guardJudge w = .uncorrectable hit := by
  have h0 : guardSyndrome 0 w = e ^^^ f := by simpa using h 0
  have h1 : guardSyndrome 1 w = gfDouble^[p] e ^^^ gfDouble^[q] f := by simpa using h 1
  have h2 : guardSyndrome 2 w = gfDouble^[2 * p] e ^^^ gfDouble^[2 * q] f := h 2
  have not_clean : ¬ (e ^^^ f = 0#8 ∧ gfDouble^[p] e ^^^ gfDouble^[q] f = 0#8) := by
    rintro ⟨hs, ht⟩
    obtain rfl := BitVec.xor_eq_zero_iff.mp hs
    exact hpq ((gfDouble_iterate_inj (by omega) (by omega) he).mp (BitVec.xor_eq_zero_iff.mp ht))
  have sq (n : Nat) (x y : Byte) : gfMul (gfDouble^[n] x) (gfDouble^[n] y) = gfDouble^[2 * n] (gfMul x y) := by
    rw [gfMul_iterate, gfMul_iterate_left, ← Function.iterate_add_apply, two_mul]
  have not_single : gfMul (gfDouble^[p] e ^^^ gfDouble^[q] f) (gfDouble^[p] e ^^^ gfDouble^[q] f) ≠
      gfMul (e ^^^ f) (gfDouble^[2 * p] e ^^^ gfDouble^[2 * q] f) := by
    intro hs
    have split : gfMul (e ^^^ f) (gfDouble^[2 * p] e ^^^ gfDouble^[2 * q] f) =
        (gfDouble^[2 * p] (gfMul e e) ^^^ gfDouble^[2 * q] (gfMul f f)) ^^^ (gfDouble^[2 * p] (gfMul e f) ^^^ gfDouble^[2 * q] (gfMul e f)) := by
      simp only [gfMul_xor_left, gfMul_xor_right, gfMul_iterate, gfMul_comm f e, gfDouble_iterate_xor]
      ac_rfl
    rw [gfMul_xor_self, sq, sq, split] at hs
    have agree := BitVec.xor_eq_zero_iff.mp ((BitVec.xor_right_inj _).mp (hs.symm.trans BitVec.xor_zero.symm))
    have := (gfDouble_iterate_inj (p := 2 * p) (q := 2 * q) (by omega) (by omega) (gfMul_ne_zero he hf)).mp agree
    omega
  simp only [guardJudge, h0, h1, h2]
  rw [if_neg (fun hc => not_clean ⟨hc.1, hc.2.1⟩), if_neg (fun hc => not_single hc.2.2.2)]
  exact ⟨_, rfl⟩

/-- A word with one error is delivered with it undone (R566). -/
theorem guardDeliver_single {w : Vector Byte 36} {i : Fin 36} {e : Byte}
    (h : guardJudge (w.set i.val (w[i.val] ^^^ e)) = .corrected i.val e) : guardDeliver (w.set i.val (w[i.val] ^^^ e)) = some w := by
  simp only [guardDeliver, h]
  congr 1
  ext k hk
  by_cases hi : i.val = k
  · subst hi
    simp [Vector.getD]
  · simp [hi]

theorem guardEncode_data (d : Vector Byte 32) (t : Byte) (i : Fin 32) : (guardEncode d t)[i.val] = d[i.val] ∧ (guardEncode d t)[32] = t := by
  constructor
  · exact (Vector.getElem_append_left (show i.val < 32 + 1 by omega)).trans (Vector.getElem_append_left i.2)
  · exact (Vector.getElem_append_left (show 32 < 32 + 1 by omega)).trans (Vector.getElem_append_right (by omega) (by omega))

end Sys2Proof.Machine

open Sys2Proof Sys2Proof.Machine in
/-- Settles O60: g(x) has the roots 1, α and α², so one error shows its value and place in the syndromes, and two errors never look like one. -/
theorem guardWordsAreCorrected : Obligations.GuardWordsAreCorrected := by
  unfold Obligations.GuardWordsAreCorrected
  have clean (d : Vector Byte 32) (t : Byte) : guardJudge (guardEncode d t) = .none :=
    guardJudge_clean (guardSyndrome_guardEncode 0 d t) (guardSyndrome_guardEncode 1 d t) (guardSyndrome_guardEncode 2 d t)
  refine ⟨fun d t j => guardSyndrome_guardEncode j d t, guardEncode_data, ?_, ?_, ?_⟩
  · intro d t
    simp [guardDeliver, clean]
  · intro d t i e he
    have hj : guardJudge ((guardEncode d t).set i.val ((guardEncode d t)[i.val] ^^^ e)) = .corrected i.val e := by
      have := guardJudge_single (w := (guardEncode d t).set i.val ((guardEncode d t)[i.val] ^^^ e)) (p := 35 - i.val) (by omega) he
        (fun j => by rw [guardSyndrome_set, guardSyndrome_guardEncode, BitVec.zero_xor])
      rwa [show 35 - (35 - i.val) = i.val by omega] at this
    exact ⟨hj, guardDeliver_single hj⟩
  · intro d t i j e f hij he hf
    have hv : i.val ≠ j.val := fun h => hij (Fin.ext h)
    have other : ((guardEncode d t).set i.val ((guardEncode d t)[i.val] ^^^ e))[j.val] = (guardEncode d t)[j.val] :=
      Vector.getElem_set_ne _ _ hv
    rw [← other]
    obtain ⟨hit, h⟩ := guardJudge_double (w := ((guardEncode d t).set i.val ((guardEncode d t)[i.val] ^^^ e)).set j.val
        (((guardEncode d t).set i.val ((guardEncode d t)[i.val] ^^^ e))[j.val] ^^^ f)) (p := 35 - i.val) (q := 35 - j.val) (by omega) (by omega) (by omega) he hf
      (fun k => by rw [guardSyndrome_set k.val _ j, guardSyndrome_set, guardSyndrome_guardEncode, BitVec.zero_xor])
    simp only [guardDeliver, h]
end

section
/-! The queue of commands (R4) and the latches of the RS registers (R18). -/

namespace Sys2Proof.Machine

theorem step_cons (c : Instr) (l : List Instr) (s : State) : step { s with pending := c :: l } = exec c { s with pending := l } := rfl

/-- A host read of a device that serves. -/
theorem hostRead_ready {s : State} (h : s.glob.ready = true) (rq : Nat) (f : State → State) : hostRead rq f s = .next (f s) := by
  simp [hostRead, h]

theorem hostRead_notReady {s : State} (h : s.glob.ready = false) (rq : Nat) (f : State → State) :
    hostRead rq f s = .next (if s.kv.halted then answerRead rq 0 s else s) := by
  simp [hostRead, h]

/-- What a read of an RS register changes: the requester's latch, and what is sent out (R18). -/
theorem readRs_eq (q o : Nat) (v : BitVec 64) (wide : Bool) (s : State) :
    readRs q o v wide s = { s with im := { s.im with latches := s.im.latches.put (q, o) (v.extractLsb' 32 32) }
                                   out := .read q (if wide then v else (v.truncate 32).zeroExtend 64) :: s.out } := rfl

/-- A read of LT_NOW latches LT for its requester (R22). -/
theorem exec_ltNowRead {s : State} (h : s.glob.ready = true) (q : Nat) (wide : Bool) :
    exec (.ltNowRead q wide) s = .next (readRs q 0x100010 s.now wide s) :=
  (show exec (.ltNowRead q wide) s = execLtNowRead q wide s from rfl).trans (hostRead_ready h ..)

/-- A read of the upper word answers the half that the requester has latched (R18). -/
theorem exec_rsUpperRead {s : State} (h : s.glob.ready = true) (q o : Nat) :
    exec (.rsUpperRead q o) s = .next { s with out := .read q ((s.im.latches.getD (q, o) 0).zeroExtend 64) :: s.out } :=
  hostRead_ready h ..

end Sys2Proof.Machine

open Sys2Proof Sys2Proof.Machine

/-- Settles O1. -/
theorem stepRunsFrontCommand : Obligations.StepRunsFrontCommand :=
  ⟨step_cons, fun c s => step_cons c s.pending s⟩

/-- Settles O17: a read of the lower word puts one entry into the table of latches, and a read of the upper word looks it up. -/
theorem upperHalvesAreLatched : Obligations.UpperHalvesAreLatched := by
  unfold Obligations.UpperHalvesAreLatched
  refine ⟨fun q o v s => ?_, fun q o q1 o1 v s h => ?_, fun q o v s => ?_, fun q o s h => ?_, fun q o v s h => ?_, fun q s h => ?_⟩
  · rw [readRs_eq, getD_put]
  · rw [readRs_eq]
    refine get?_put_ne _ _ _ _ fun he => ?_
    simp only [Prod.mk.injEq] at he
    obtain h | h := h
    · exact h he.1.symm
    · exact h he.2.symm
  · simp only [readRs_eq, Bool.false_eq_true, if_false]
  · exact exec_rsUpperRead h q o
  · refine ⟨_, exec_rsUpperRead (s := readRs q o v false s) h q o, ?_⟩
    simp [readRs_eq]
  · exact exec_ltNowRead h q false
end

section
/-! The packet queues (R183–R195): one equation for each case of the producer, consumer and fabric rows. -/

namespace Sys2Proof.Machine

/-! ## A queue read and changed -/

@[simp] theorem getQ_modQ (q : Nat) (f : Queue → Queue) (s : State) : getQ (modQ q f s) q = f (getQ s q) := by
  simp [getQ, modQ, Tab.upd]

theorem getQ_congr {s t : State} (h : t.qm.q = s.qm.q) (q : Nat) : getQ t q = getQ s q := by rw [getQ, getQ, h]

theorem getQ_onQm {f : QmState → QmState} {s : State} (h : (f s.qm).q = s.qm.q) (q : Nat) : getQ (onQm f s) q = getQ s q := getQ_congr h q

@[simp] theorem modQ_out (q : Nat) (f : Queue → Queue) (s : State) : (modQ q f s).out = s.out := rfl

@[simp] theorem getQ_emit (q : Nat) (o : Out) (s : State) : getQ (emit o s) q = getQ s q := rfl

/-! ## Producing -/

theorem openPacket_refused {s : State} {q o : Nat} (h : openRefused s q o = true) (b : List Byte) :
    openPacket q o b s =
      (onQm (fun x => { x with quota := true }) (modQ q (fun x => { x with quotaHit := true, gapNext := true, seq := x.seq + 1, ctr := vadd x.ctr 3 1 }) s), false) := by
  simp [openPacket, h, onQm]

theorem openPacket_opened {s : State} {q o : Nat} (h : openRefused s q o = false) (b : List Byte) :
    openPacket q o b s =
      (modQ q (fun x => { x with openPkt := some { owner := o, epoch := epochOf s o, header := b }, seq := x.seq + 1 }) s, true) := by
  simp [openPacket, h]

theorem openPacket_snd (q o : Nat) (b : List Byte) (s : State) : (openPacket q o b s).2 = !openRefused s q o := by
  cases h : openRefused s q o with
  | true => rw [openPacket_refused h]; rfl
  | false => rw [openPacket_opened h]; rfl

/-- PACKET_OPEN by a producer that gives its own header word (R186). -/
theorem execPacketOpen_given {s : State} {q : Fin 256} {p : Producer} (hr : s.qm.ready = true) (ho : (getQ s q.val).openPkt = none)
    (hp : producerOf s p q.val = true) (hf : ∀ k, p ≠ .fabric k) (hx : ∀ k, p ≠ .px k) (h : List Byte) (t : LT) (r : BitVec 16)
    (g : Option GuardFind) :
    execPacketOpen p q h t r g s = .next (openChecked q.val g (openPacket q.val (packetOwner s p q.val) (headerWord h) s)) := by
  cases p with
  | fabric k => exact absurd rfl (hf k)
  | px k => exact absurd rfl (hx k)
  | _ => simp [execPacketOpen, hr, ho, hp]

/-- PACKET_OPEN by PX, whose header word is a receive notice (R183, R192). -/
theorem execPacketOpen_px {s : State} {q : Fin 256} {k : Fin 2} (hr : s.qm.ready = true) (ho : (getQ s q.val).openPkt = none)
    (hq : q.val = 0x16 + k.val) (h : List Byte) (t : LT) (r : BitVec 16) (g : Option GuardFind) :
    execPacketOpen (.px k) q h t r g s =
      .next (openChecked q.val g (openPacket q.val 0 (noticeBytes s q.val t r (0x10 + k.val) 0 0 false) s)) := by
  have hp : producerOf s (.px k) q.val = true := by simp [producerOf, hq]
  simp [execPacketOpen, hr, ho, hp]

/-- PACKET_OPEN by the fabric, for the frame that it delivers (R183, R186). -/
theorem execPacketOpen_fabric {s : State} {k : Fin 16} {c : Copy} {n : Nat} (hr : s.qm.ready = true) (hs : (getSw s k.val).sending = some c)
    (hc : c.opened = false) (hn : n = deliveryQueue s k.val c) (hp : producerOf s (.fabric k) n = true) (ho : (getQ s n).openPkt = none)
    (q : Fin 256) (h : List Byte) (t : LT) (r : BitVec 16) (g : Option GuardFind) :
    execPacketOpen (.fabric k) q h t r g s =
      .next (modSw k.val (fun x => { x with sending := if openRefused s n (packetOwner s (.fabric k) n) then none else some { c with opened := true } })
        (openChecked n g (openPacket n (packetOwner s (.fabric k) n)
          (noticeBytes s n c.rxLt c.rxStatus c.inPort c.cls (packetOwner s (.fabric k) n) c.ecn) s))) := by
  subst hn
  simp only [execPacketOpen, hr, hs, hc, hp, ho, openPacket_snd]
  cases openRefused s (deliveryQueue s k.val c) (packetOwner s (.fabric k) (deliveryQueue s k.val c)) <;> simp

/-- PACKET_OPEN where the producer opens nothing. -/
theorem execPacketOpen_nothing {s : State} {p : Producer} {q : Fin 256}
    (hp : s.qm.ready = false ∨
      (∃ k, p = .fabric k ∧ ((getSw s k.val).sending = none ∨ ∃ c, (getSw s k.val).sending = some c ∧
        (c.opened = true ∨ producerOf s p (deliveryQueue s k.val c) = false ∨ (getQ s (deliveryQueue s k.val c)).openPkt.isSome = true))) ∨
      ((∀ k, p ≠ .fabric k) ∧ (producerOf s p q.val = false ∨ (getQ s q.val).openPkt.isSome = true)))
    (h : List Byte) (t : LT) (r : BitVec 16) (g : Option GuardFind) : execPacketOpen p q h t r g s = .next s := by
  cases hr : s.qm.ready with
  | false => simp [execPacketOpen, hr]
  | true =>
    obtain hp | ⟨k, rfl, hp | ⟨c, hc, hp⟩⟩ | ⟨hf, hp⟩ := hp
    · rw [hr] at hp; cases hp
    · simp [execPacketOpen, hr, hp]
    · have : (c.opened || !producerOf s (.fabric k) (deliveryQueue s k.val c) || (getQ s (deliveryQueue s k.val c)).openPkt.isSome) = true := by
        obtain hp | hp | hp := hp <;> simp [hp]
      simp [execPacketOpen, hr, hc, this]
    · have : (!producerOf s p q.val || (getQ s q.val).openPkt.isSome) = true := by obtain hp | hp := hp <;> simp [hp]
      cases p with
      | fabric k => exact absurd rfl (hf k)
      | _ => simp [execPacketOpen, hr, this]

/-- A corrected error is counted, and past its rate reported; no queue changes (R572, R574). -/
theorem guardCorrected_qm (r : Nat) (s : State) : (guardCorrected r s).qm = s.qm := by
  unfold guardCorrected
  dsimp only
  split
  · obtain ⟨l, h⟩ := limited_frame 0x20007 r (secTu 1) 1 (onGrd (fun g => { g with corrRate := true })
      (modRegion r (fun x => { x with corrected := x.corrected + 1, corrAt := s.abs :: (s.within (secTu 1) (vget s.grd.region r {}).corrAt).take 65 }) s))
    split
    · rw [raise_qm, h]
      rfl
    · rw [h]
      rfl
  · rfl

/-- What a word that is not in error leaves to its reader (R569). -/
theorem guardRead_good {g : Option GuardFind} (h : g = none ∨ g = some .corrected) (r : Nat) (s : State) :
    guardRead r g s = (none, (guardRead r g s).2) := by
  obtain rfl | rfl := h <;> rfl

theorem writeUnit_fits {s : State} {q : Nat} {b : List Byte} {p : OpenPkt} (h : (getQ s q).openPkt = some p) (hl : p.payload.length + b.length ≤ 10240) :
    writeUnit q b s = modQ q (fun x => { x with openPkt := some { p with payload := p.payload ++ b } }) s := by
  simp [writeUnit, h, Nat.not_lt.mpr hl]

/-- PRODUCER_REWIND drops the open packet (R190). -/
theorem rewindOpen_open {s : State} {q : Nat} {p : OpenPkt} (h : (getQ s q).openPkt = some p) (hw : Bool) :
    rewindOpen q hw s = onQm (fun m => { m with badPkt := m.badPkt || hw })
      (modQ q (fun x => { x with openPkt := none, gapNext := true, hwRewind := x.hwRewind || hw, ctr := vadd x.ctr 2 1 }) s) := by
  simp [rewindOpen, h, onQm]


/-! ## Consuming -/

/-- QUEUE_READ by a requester that the word's tag admits (R9, R193, R195). -/
theorem execQueueRead_admitted {s : State} {q : Fin 256} {w : QWord} (hw : (getQ s q.val).words[(getQ s q.val).rd]? = some w) (ht : w.tag ≤ 64)
    (g : Option GuardFind) :
    execQueueRead q w.tag g s =
      match guardRead 0x3 g s with
      | (some h, u) => .next (emit (.qword q.val (List.replicate 32 0) (BitVec.ofNat 8 ((w.data.length + 64 * bitN w.last) + 128)))
          (queueGuard w.tag h (modQ q.val (fun x => { x with rd := x.rd + 1 }) u)))
      | (none, u) => .next (emit (.qword q.val (w.data ++ List.replicate (32 - w.data.length) 0) (BitVec.ofNat 8 (w.data.length + 64 * bitN w.last)))
          (modQ q.val (fun x => { x with rd := x.rd + 1 }) u)) := by
  simp only [execQueueRead, hw, tagAdmits, beq_self_eq_true, ht, decide_true, Bool.and_self, Bool.not_true, Bool.false_eq_true, if_false]
  obtain ⟨h, u⟩ := guardRead 0x3 g s
  cases h <;> rfl

theorem execQueueRead_refused {s : State} {q : Fin 256} {w : QWord} {t : Tag} (hw : (getQ s q.val).words[(getQ s q.val).rd]? = some w)
    (ht : t ≠ w.tag ∨ 64 < w.tag) (g : Option GuardFind) : execQueueRead q t g s = .next (tagRefused 0x3 s) := by
  have : tagAdmits t w.tag = false := by obtain ht | ht := ht <;> simp [tagAdmits, ht]
  simp [execQueueRead, hw, this]

/-- FABRIC_TAKE of the packet that is next in the round (R195, R413, R628). -/
theorem execFabricTake_takes {s : State} {core : Bool} {q : Nat} (hq : s.qm.ready = true) (hs : s.sw.ready = true) (hn : nextFeed s core = some q)
    {g : Option GuardFind} {ws : List QWord} {src : Option (Bool × Nat)} {h : Option GuardHit} {t : State} (ht : (ws, src, h, t) = takenPacket core q g s) :
    execFabricTake core g s = .next (match (generalizing := false) h with
      | some h => queueGuard (ownerOfWords ws) h t
      | none =>
        if ws.any (epochStale t) then epochDiscard (ownerOfWords ws) t
        else if gated q && !t.fo.gateOpen then countGated q src t
        else enterFabric core ws (countSent src t)) := by
  simp only [execFabricTake, hq, hs, hn, ← ht]
  cases h with
  | some h => rfl
  | none => simp only [Bool.not_true, Bool.or_self, Bool.false_eq_true, if_false]; split <;> [rfl; split <;> rfl]

theorem execFabricTake_nothing {s : State} {core : Bool} (h : s.qm.ready = false ∨ s.sw.ready = false ∨ nextFeed s core = none)
    (g : Option GuardFind) : execFabricTake core g s = .next s := by
  unfold execFabricTake
  split
  · rfl
  · next hr =>
    obtain h | h | h := h
    · simp [h] at hr
    · simp [h] at hr
    · rw [h]

end Sys2Proof.Machine

open Sys2Proof Sys2Proof.Machine

/-- Settles O32: each clause is the equation of its row in one case. -/
theorem queuesMove : Obligations.QueuesMove := by
  unfold Obligations.QueuesMove
  refine ⟨fun s q h t r g p hr ho hp hf hx => execPacketOpen_given hr ho hp hf hx h t r g,
    fun s q h t r g k hr ho hq => execPacketOpen_px hr ho hq h t r g,
    fun s q h t r g k c n hr hs hc hn hp ho => execPacketOpen_fabric hr hs hc hn hp ho q h t r g,
    fun s q h t r g p hp => execPacketOpen_nothing hp h t r g,
    ?refused, ?opened, ?unit, ?last, ?badUnit, ?badLast, ?noUnit, ?fits, ?rewind, ?noRewind, ?idle, ?read, ?corrected, ?error,
    fun s q w t g hw ht => execQueueRead_refused hw ht g,
    ?mark, ?back, ?release,
    fun s core g h => execFabricTake_nothing h g,
    fun s t core g q ws src h hq hs hn ht => execFabricTake_takes hq hs hn ht⟩
  case refused =>
    intro s q o b h
    rw [openPacket_refused h]
    rw [getQ_onQm rfl, getQ_modQ]
    exact ⟨rfl, rfl, rfl, rfl⟩
  case opened =>
    intro s q o b h
    rw [openPacket_opened h, getQ_modQ]
    exact ⟨rfl, rfl⟩
  case unit =>
    intro s q b l g h hg
    show execNarrowUnitWrite q b g s = _
    rw [execNarrowUnitWrite, h, guardRead_good hg]
  case last =>
    intro s q b l g h hg
    show execEndMarkWrite q b g s = _
    rw [execEndMarkWrite, h, guardRead_good hg]
  case badUnit =>
    intro s q b l h hn
    show execNarrowUnitWrite q b (some (.uncorrectable h)) s = _
    rw [execNarrowUnitWrite, hn]
    rfl
  case badLast =>
    intro s q b l h hn
    show execEndMarkWrite q b (some (.uncorrectable h)) s = _
    rw [execEndMarkWrite, hn]
    rfl
  case noUnit =>
    intro s q b g
    refine ⟨fun h => ?_, fun h => ?_⟩
    · show execNarrowUnitWrite q b g s = _
      rw [execNarrowUnitWrite, h]
    · show execEndMarkWrite q b g s = _
      rw [execEndMarkWrite, h]
  case fits =>
    intro s q b p h hl
    rw [writeUnit_fits h hl, getQ_modQ]
  case rewind =>
    intro s q p h
    refine ⟨rewindOpen q.val false s, rfl, ?_⟩
    rw [rewindOpen_open h, getQ_onQm rfl, getQ_modQ]
    exact ⟨rfl, rfl, rfl⟩
  case noRewind =>
    intro s q h
    show Host.Outcome.next (rewindOpen q.val false s) = _
    rw [rewindOpen, h]
    rfl
  case idle =>
    intro s q t g h
    show execQueueRead q t g s = _
    simp only [execQueueRead, h]
    rfl
  case read =>
    intro s q w hw ht
    refine ⟨_, execQueueRead_admitted hw ht none, ?_⟩
    simp [emit_out]
  case corrected =>
    intro s q w hw ht
    have hw' : (getQ (guardCorrected 0x3 s) q.val).words[(getQ (guardCorrected 0x3 s) q.val).rd]? = some w := by
      rwa [getQ_congr (congrArg QmState.q (guardCorrected_qm 0x3 s))]
    exact (execQueueRead_admitted hw ht (some .corrected)).trans (execQueueRead_admitted hw' ht none).symm
  case error =>
    intro s q w h hw ht
    exact execQueueRead_admitted hw ht (some (.uncorrectable h))
  case mark =>
    intro s q
    exact ⟨_, rfl, by simp, by simp⟩
  case back =>
    intro s q
    exact ⟨_, rfl, by simp, by simp⟩
  case release =>
    intro s q
    exact ⟨_, rfl, by simp [releaseQ]⟩
end

section
/-! Host reads (R13–R18, R47, R51, R118) and the immediate commands of the time base (R44, R58, R635). -/

namespace Sys2Proof.Machine

/-! ## Pops -/

theorem execCapturePop_entry {s : State} {n : Fin 16} {t : LT} {l : List LT} (h : s.glob.ready = true) (hf : s.tb.tcc[n].fifo = t :: l)
    (rq : Nat) (wide : Bool) :
    execCapturePop rq n wide s =
      .next (readRs rq (0x102000 + 0x10 * n.val) t wide { s with tb := { s.tb with tcc := s.tb.tcc.set n { s.tb.tcc[n] with fifo := l } } }) := by
  have hf' : s.tb.tcc[n.val].fifo = t :: l := hf
  rw [execCapturePop, hostRead_ready h]
  simp [captureTake, onTb, hf']

theorem execCapturePop_empty {s : State} {n : Fin 16} (h : s.glob.ready = true) (hf : s.tb.tcc[n].fifo = []) (rq : Nat) (wide : Bool) :
    execCapturePop rq n wide s = .next (readRs rq (0x102000 + 0x10 * n.val) 0 wide s) := by
  have hf' : s.tb.tcc[n.val].fifo = [] := hf
  have same : s.tb.tcc.set n.val { s.tb.tcc[n.val] with fifo := [] } = s.tb.tcc := by rw [← hf']; exact Vector.set_getElem_self _
  rw [execCapturePop, hostRead_ready h]
  simp [captureTake, onTb, hf', same]

theorem txtsWords_entry {s : State} {p : Fin 14} {e : TxtsEntry} {l : List TxtsEntry} (hf : s.tb.txts[p].fifo = e :: l) :
    txtsWords s p.val = [e.lt.truncate 32, e.lt.extractLsb' 32 32, txtsW2 p.val (some e), txtsW3 e] := by
  have hf' : s.tb.txts[p.val].fifo = e :: l := hf
  simp [txtsWords, hf']

theorem txtsWords_empty {s : State} {p : Fin 14} (hf : s.tb.txts[p].fifo = []) : txtsWords s p.val = [0, 0, txtsW2 p.val none, 0] := by
  have hf' : s.tb.txts[p.val].fifo = [] := hf
  simp [txtsWords, hf']

theorem txtsDrop_entry {s : State} {p : Fin 14} {e : TxtsEntry} {l : List TxtsEntry} (hf : s.tb.txts[p].fifo = e :: l) :
    txtsDrop p.val s = { s with tb := { s.tb with txts := s.tb.txts.set p { s.tb.txts[p] with fifo := l } } } := by
  have hf' : s.tb.txts[p.val].fifo = e :: l := hf
  simp [txtsDrop, onTb, hf']

theorem txtsDrop_empty {s : State} {p : Fin 14} (hf : s.tb.txts[p].fifo = []) : txtsDrop p.val s = s := by
  have hf' : s.tb.txts[p.val].fifo = [] := hf
  have same : s.tb.txts.set p.val { s.tb.txts[p.val] with fifo := [] } = s.tb.txts := by rw [← hf']; exact Vector.set_getElem_self _
  simp [txtsDrop, onTb, hf', same]

theorem execTxtsPop_entry {s : State} {p : Fin 14} {e : TxtsEntry} {l : List TxtsEntry} (h : s.glob.ready = true)
    (hf : s.tb.txts[p].fifo = e :: l) (rq : Nat) (wide : Bool) :
    execTxtsPop rq p wide s = .next (answerRead rq (if wide then txtsW3 e ++ txtsW2 p.val (some e) else (txtsW3 e).zeroExtend 64)
      { s with tb := { s.tb with txts := s.tb.txts.set p { s.tb.txts[p] with fifo := l } } }) := by
  rw [execTxtsPop, hostRead_ready h, txtsDrop_entry hf, txtsWords_entry hf]
  rfl

theorem execTxtsPop_empty {s : State} {p : Fin 14} (h : s.glob.ready = true) (hf : s.tb.txts[p].fifo = []) (rq : Nat) (wide : Bool) :
    execTxtsPop rq p wide s = .next (answerRead rq (if wide then 0#32 ++ txtsW2 p.val none else 0) s) := by
  rw [execTxtsPop, hostRead_ready h, txtsDrop_empty hf, txtsWords_empty hf]
  rfl

/-! ## Registers by offset -/

theorem execCounterRead_ready {s : State} (h : s.glob.ready = true) (rq : Nat) (w : Fin 66) (o : Nat) (a : AccessWidth) :
    execCounterRead rq w o a s = .next (readReg rq w.val o a s) := by
  rw [execCounterRead, hostRead_ready h]
  simp [h]

theorem readReg_misaligned {a : AccessWidth} {o : Nat} (h : a = .b8 ∨ a = .b16 ∨ (a = .b32 ∧ o % 4 ≠ 0) ∨ (a = .b64 ∧ o % 8 ≠ 0)) (rq w : Nat)
    (s : State) : readReg rq w o a s = answerRead rq 0 s := by
  obtain rfl | rfl | ⟨rfl, h⟩ | ⟨rfl, h⟩ := h
  · rfl
  · rfl
  · simp [readReg, h]
  · simp [readReg, h]

theorem readReg_latching {s t : State} {o : Nat} {v : BitVec 64} (hl : latching o s = some (v, t)) (wide : Bool) (h : o % (if wide then 8 else 4) = 0)
    (rq : Nat) : readReg rq 0 o (if wide then .b64 else .b32) s = readRs rq o v wide t := by
  cases wide with
  | true => simp [readReg, show o % 8 = 0 from h, hl]
  | false => simp [readReg, show o % 4 = 0 from h, hl]

theorem noLatch {s : State} {w : Fin 66} {o : Nat} (h : w ≠ 0 ∨ latching o s = none) : (if w.val = 0 then latching o s else none) = none := by
  obtain h | h := h
  · exact if_neg fun hw => h (Fin.ext hw)
  · simp [h]

theorem readReg_word {s : State} {w : Fin 66} {o : Nat} (h4 : o % 4 = 0) (h : w ≠ 0 ∨ latching o s = none) (rq : Nat) :
    readReg rq w.val o .b32 s = answerRead rq ((read32 rq w.val o s).1.zeroExtend 64) (read32 rq w.val o s).2 := by
  simp only [readReg, h4, noLatch h, ne_eq, not_true_eq_false, if_false]

theorem readReg_pair {s : State} {w : Fin 66} {o : Nat} (h8 : o % 8 = 0) (h : w ≠ 0 ∨ latching o s = none) (rq : Nat) :
    readReg rq w.val o .b64 s =
      answerRead rq ((read32 rq w.val (o + 4) (read32 rq w.val o s).2).1 ++ (read32 rq w.val o s).1) (read32 rq w.val (o + 4) (read32 rq w.val o s).2).2 := by
  simp only [readReg, h8, noLatch h, ne_eq, not_true_eq_false, if_false]

theorem read32_counter {s t : State} {o : Nat} {v : BitVec 32} (hl : o % 8 ≠ 4 ∨ latching (o - 4) s = none) (hc : rc32 o s = some (v, t)) (rq : Nat) :
    read32 rq 0 o s = (v, t) := by
  have : ¬ (o % 8 = 4 ∧ (latching (o - 4) s).isSome) := by
    rintro ⟨h1, h2⟩
    obtain h | h := hl
    · exact h h1
    · simp [h] at h2
  simp [read32, this, hc]

/-- An offset of an array of blocks names its block and its place there. -/
theorem block_at {base stride count n k : Nat} (hk : k < stride) (hn : n < count) : block (base + stride * n + k) base stride count = some (n, k) := by
  have hlt : stride * n + k < stride * count := by
    calc stride * n + k < stride * n + stride := by omega
      _ = stride * (n + 1) := (Nat.mul_succ ..).symm
      _ ≤ stride * count := Nat.mul_le_mul_left _ hn
  have hs : base + stride * n + k - base = k + stride * n := by omega
  simp only [block, hs, Nat.add_mul_div_left _ _ (show 0 < stride by omega), Nat.add_mul_mod_self_left, Nat.div_eq_of_lt hk, Nat.mod_eq_of_lt hk]
  rw [if_pos (by omega)]
  simp

theorem block_outside {o base stride count : Nat} (h : o < base ∨ base + stride * count ≤ o) : block o base stride count = none := by
  simp only [block]
  exact if_neg (by omega)

/-- The corrected-error counter of a guard region is read and cleared (R118, R572). -/
theorem latching_corrected (s : State) (r : Fin 16) :
    latching (0x00A100 + 0x20 * r.val) s = some ((s.grd.region[r]).corrected, modRegion r.val (fun x => { x with corrected := 0 }) s) := by
  have hr : block (0x00A100 + 0x20 * r.val) 0x00A100 0x20 16 = some (r.val, 0) := block_at (k := 0) (by omega) r.2
  have h1 : elem (0x00A100 + 0x20 * r.val) 0x102000 0x10 16 = none := by rw [elem, block_outside (by omega)]; rfl
  have h2 : elem (0x00A100 + 0x20 * r.val) 0x830000 0x20 24 = none := by rw [elem, block_outside (by omega)]; rfl
  unfold latching
  rw [if_neg (by omega), if_neg (by omega), h1, h2]
  simp [rc64, counters64, hr, pick]

/-- The counter of lost log records is read and cleared (R575). -/
theorem rc32_logLost (s : State) : rc32 0x00900C s = some (s.log.lost, { s with log := { s.log with lost := 0 } }) := by
  have : block 0x00900C 0x00900C 4 1 = some (0, 0) := rfl
  simp [rc32, counters32, this, onLog]

/-- The counter of an event source is read and cleared (R582). -/
theorem rc32_eventCount (s : State) (n : Fin 128) :
    rc32 (0xD30100 + 4 * n.val) s = some (s.ev.count[n], { s with ev := { s.ev with count := s.ev.count.set n 0 } }) := by
  have hn : block (0xD30100 + 4 * n.val) 0xD30100 4 128 = some (n.val, 0) := block_at (k := 0) (by omega) n.2
  have out (base stride count : Nat) (h : base + stride * count ≤ 0xD30100) : block (0xD30100 + 4 * n.val) base stride count = none :=
    block_outside (by omega)
  simp [rc32, counters32, hn, out, onEv]

theorem execCounterRead_halted {s : State} (h : s.glob.ready = false) (hk : s.kv.halted = true) (rq : Nat) (w : Fin 66) (o : Nat) (a : AccessWidth) :
    execCounterRead rq w o a s = .next (answerRead rq (if w = 0 then haltedRead o a s else 0) s) := by
  rw [execCounterRead, hostRead_notReady h]
  by_cases hw : w = 0
  · simp [h, hk, hw]
  · have : w.val ≠ 0 := fun h' => hw (Fin.ext h')
    simp [h, hk, hw]

theorem execCounterRead_off {s : State} (h : s.glob.ready = false) (hk : s.kv.halted = false) (rq : Nat) (w : Fin 66) (o : Nat) (a : AccessWidth) :
    execCounterRead rq w o a s = .next s := by
  rw [execCounterRead, hostRead_notReady h]
  simp [hk]

/-! ## Immediate commands of the time base -/

/-- A part outside a list is as it was where the states are the same outside the list. -/
theorem tb_eq_of_outside {l : List Part} (hl : .tb ∉ l) {s t : State} (h : outside l t = outside l s) : t.tb = s.tb :=
  ((sameBut_iff l s t).mpr h).1 hl

theorem now_of_tb {s t : State} (h : t.tb = s.tb) : t.now = s.now := by rw [State.now, State.now, h]

@[simp] theorem now_fireTcu (k : Nat) (s : State) : (fireTcu k s).now = s.now := rfl

/-- A firing takes no time: what it delivers is other than the count of time. -/
theorem now_compareFire (k : Nat) (s : State) : (compareFire k s).now = s.now := by
  unfold compareFire
  extract_lets u t s'
  have hs : s'.now = s.now := now_fireTcu k s
  rw [← hs]
  split
  · exact now_of_tb (tb_eq_of_outside (by decide) (raiseArg_outside (List.Subset.refl _) ..))
  · exact now_of_tb (tb_eq_of_outside (by decide) (noteBinary_outside (List.Subset.refl _) ..))
  · exact now_of_tb (tb_eq_of_outside (by decide) (releaseTimed_outside (List.Subset.refl _) ..))
  · split <;> rfl

@[simp] theorem now_deliverDue (k : Nat) (s : State) : (deliverDue k s).now = s.now := by
  unfold deliverDue
  split
  · exact now_compareFire k s
  · rfl

theorem tcuDenied_eq_false {c : Cmd} {n : Nat} {s : State} (h20 : 20 ≤ n) (ho : issuer c = 0 ∨ (getTcu s n).owner = issuer c) :
    tcuDenied c n s = false := by
  simp only [tcuDenied, Bool.or_eq_false_iff, decide_eq_false_iff_not, Bool.and_eq_false_iff, bne_eq_false_iff_eq]
  exact ⟨by omega, ho⟩

theorem tcuDenied_eq_true {c : Cmd} {n : Nat} {s : State} (h : n < 20 ∨ (issuer c ≠ 0 ∧ (getTcu s n).owner ≠ issuer c)) :
    tcuDenied c n s = true := by
  simpa [tcuDenied] using h

@[simp] theorem tcuDenied_entered (d : Cmd) (n : Nat) (op : BitVec 16) (c : Cmd) (s : State) : tcuDenied d n (entered op c s) = tcuDenied d n s := by
  simp [tcuDenied]

/-- A command that runs and whose body ends with a reply is answered with it. -/
theorem command_answered {op : BitVec 16} {o : Bool} {c : Cmd} {s t : State} {body : State → State × Option ReplyBody} {b : ReplyBody}
    (h : runs op o c s = true) (hb : body (entered op c s) = (t, some b)) : command op o c s body = answered op c b t := by
  rw [command_runs h, hb]
  rfl

theorem execTbTcuArm_target {s : State} {c : Cmd} {n : Fin 32} {t : LT} {per : Bool} {p : BitVec 64} (h : runs 0x0110 true c s = true)
    (hd : tcuDenied c n.val s = false) (ha : (getTcu s n.val).dest ≠ 0) (hp : per = true → 131072 ≤ p.toNat ∧ p.toNat < 2 ^ 63) :
    execTbTcuArm c n (some t) per p s = answered 0x0110 c (st .ok) (modTcu n.val (fun u => { u.armAt s.now t with
      periodic := per, period := if per then p.truncate 63 else u.period }) (deliverDue n.val (entered 0x0110 c s))) := by
  have hp' : ¬(per = true ∧ (p.toNat < 131072 ∨ p.toNat ≥ 2 ^ 63)) := by
    rintro ⟨hper, h⟩
    have := hp hper
    omega
  refine command_answered h ?_
  simp only [tcuDenied_entered, hd, Bool.false_eq_true, getTcu_entered, ha, hp', if_false, now_deliverDue, now_entered]

theorem execTbTcuArm_period {s : State} {c : Cmd} {n : Fin 32} {p : BitVec 64} (h : runs 0x0110 true c s = true)
    (hd : tcuDenied c n.val s = false) (ha : (getTcu s n.val).dest ≠ 0) (hp : 131072 ≤ p.toNat ∧ p.toNat < 2 ^ 63)
    (he : (getTcu s n.val).en = true) (hper : (getTcu s n.val).periodic = true) :
    execTbTcuArm c n none true p s = answered 0x0110 c (st .ok) (modTcu n.val (fun u => { u with period := p.truncate 63 }) (entered 0x0110 c s)) := by
  have hp' : ¬(p.toNat < 131072 ∨ p.toNat ≥ 2 ^ 63) := by omega
  refine command_answered h ?_
  simp only [tcuDenied_entered, hd, Bool.false_eq_true, getTcu_entered, ha, hp', if_false, he, hper, and_self, if_true, true_and]

theorem execTbTcuArm_denied {s : State} {c : Cmd} {n : Fin 32} (h : runs 0x0110 true c s = true) (hd : tcuDenied c n.val s = true)
    (t : Option LT) (per : Bool) (p : BitVec 64) : execTbTcuArm c n t per p s = answered 0x0110 c (st .denied) (entered 0x0110 c s) := by
  refine command_answered h ?_
  simp only [tcuDenied_entered, hd, if_true]

theorem execTbTcuArm_notReady {s : State} {c : Cmd} {n : Fin 32} (h : runs 0x0110 true c s = true) (hd : tcuDenied c n.val s = false)
    (ha : (getTcu s n.val).dest = 0) (t : Option LT) (per : Bool) (p : BitVec 64) :
    execTbTcuArm c n t per p s = answered 0x0110 c (st .notReady) (entered 0x0110 c s) := by
  refine command_answered h ?_
  simp only [tcuDenied_entered, hd, Bool.false_eq_true, getTcu_entered, ha, if_false, if_true]

theorem execTbTcuArm_badParam {s : State} {c : Cmd} {n : Fin 32} {t : Option LT} {per : Bool} {p : BitVec 64} (h : runs 0x0110 true c s = true)
    (hd : tcuDenied c n.val s = false) (ha : (getTcu s n.val).dest ≠ 0)
    (hp : (per = true ∧ (p.toNat < 131072 ∨ 2 ^ 63 ≤ p.toNat)) ∨
      (t = none ∧ ((getTcu s n.val).en = false ∨ (getTcu s n.val).periodic = false ∨ per = false))) :
    execTbTcuArm c n t per p s = answered 0x0110 c (st .badParam) (entered 0x0110 c s) := by
  refine command_answered h ?_
  simp only [tcuDenied_entered, hd, Bool.false_eq_true, getTcu_entered, ha, if_false]
  by_cases hp' : per = true ∧ (p.toNat < 131072 ∨ p.toNat ≥ 2 ^ 63)
  · rw [if_pos hp']
  · obtain ⟨rfl, ho⟩ := hp.resolve_left hp'
    have ho' : ¬((getTcu s n.val).en = true ∧ (getTcu s n.val).periodic = true ∧ per = true) := by
      rintro ⟨h1, h2, h3⟩
      simp [h1, h2, h3] at ho
    rw [if_neg hp']
    exact if_neg ho'

theorem execTbTcuDisarm_ok {s : State} {c : Cmd} {n : Fin 32} (h : runs 0x0111 true c s = true) (hd : tcuDenied c n.val s = false) :
    execTbTcuDisarm c n s = answered 0x0111 c (st .ok) (modTcu n.val (fun u => { u with en := false }) (deliverDue n.val (entered 0x0111 c s))) := by
  refine command_answered h ?_
  simp only [tcuDenied_entered, hd, Bool.false_eq_true, if_false]

theorem execTbTcuDisarm_denied {s : State} {c : Cmd} {n : Fin 32} (h : runs 0x0111 true c s = true) (hd : tcuDenied c n.val s = true) :
    execTbTcuDisarm c n s = answered 0x0111 c (st .denied) (entered 0x0111 c s) := by
  refine command_answered h ?_
  simp only [tcuDenied_entered, hd, if_true]

theorem execTbReadTime_ok {s : State} {c : Cmd} (h : runs 0x0120 true c s = true) (hb : c.bufLen = 0 ∨ 32 ≤ c.bufLen) :
    execTbReadTime c s = answered 0x0120 c
      { r0 := s.now, r1 := (taiSec (taiOf s.tb s.now)).zeroExtend 64, buf := if c.bufLen = 0 then .none else .bytes (timeRecordBytes s) }
      (entered 0x0120 c s) := by
  rw [execTbReadTime, answer_runs h, if_neg (by omega)]

theorem execTbReadTime_badParam {s : State} {c : Cmd} (h : runs 0x0120 true c s = true) (hb : 0 < c.bufLen ∧ c.bufLen < 32) :
    execTbReadTime c s = answered 0x0120 c (st .badParam) (entered 0x0120 c s) := by
  rw [execTbReadTime, answer_runs h, if_pos hb]

theorem execRead_notReady {s : State} {rq : Nat} {i : Instr} (n : Fin 16) (p : Fin 14) (wide : Bool) (rtc : BitVec 48) (o : Nat)
    (h : s.glob.ready = false)
    (hi : i = .capturePop rq n wide ∨ i = .txtsPop rq p wide ∨ i = .ltNowRead rq wide ∨ i = .rsUpperRead rq o ∨ i = .rtcRead rq rtc wide) :
    exec i s = .next (if s.kv.halted then answerRead rq 0 s else s) := by
  obtain rfl | rfl | rfl | rfl | rfl := hi
  · exact (show exec (.capturePop rq n wide) s = execCapturePop rq n wide s from rfl).trans (hostRead_notReady h ..)
  · exact (show exec (.txtsPop rq p wide) s = execTxtsPop rq p wide s from rfl).trans (hostRead_notReady h ..)
  · exact (show exec (.ltNowRead rq wide) s = execLtNowRead rq wide s from rfl).trans (hostRead_notReady h ..)
  · exact (show exec (.rsUpperRead rq o) s = execRsUpperRead rq o s from rfl).trans (hostRead_notReady h ..)
  · exact (show exec (.rtcRead rq rtc wide) s = execRtcRead rq rtc wide s from rfl).trans (hostRead_notReady h ..)

/-- Settles O26: each host read and each immediate command of the time base, by the lemma about it. -/
theorem hostReadsAndTimeCommands : Obligations.HostReadsAndTimeCommands := by
  refine ⟨fun s rq n wide t l h hf => execCapturePop_entry h hf rq wide, fun s rq n wide h hf => execCapturePop_empty h hf rq wide,
    fun s rq p wide e l h hf => execTxtsPop_entry h hf rq wide, fun s rq p wide h hf => execTxtsPop_empty h hf rq wide,
    fun s rq h => ⟨_, exec_ltNowRead h rq true, rfl, rfl⟩, fun s rq h => ⟨_, exec_ltNowRead h rq false, rfl, rfl⟩,
    fun s rq o h => exec_rsUpperRead h rq o, fun s rq rtc wide h => ?rtc,
    fun s rq w o a h ha => ?misaligned, fun s t rq o v wide h ho hl => ?latching, fun s rq o w h ho hl => ?word, fun s rq o w h ho hl => ?pair,
    fun s t rq o v hl hc => read32_counter hl hc rq, latching_corrected, fun s n => ⟨rc32_logLost s, rc32_eventCount s n⟩,
    fun s rq w o a h hk => execCounterRead_halted h hk rq w o a, fun s rq w o a h hk => execCounterRead_off h hk rq w o a,
    fun s rq n p wide rtc o i h hi => execRead_notReady n p wide rtc o h hi,
    fun s c n t per p h h20 ho ha hp => execTbTcuArm_target h (tcuDenied_eq_false h20 ho) ha hp,
    fun s c n p h h20 ho ha hp he hper => execTbTcuArm_period h (tcuDenied_eq_false h20 ho) ha hp he hper,
    fun s c n t per p h hd => execTbTcuArm_denied h (tcuDenied_eq_true hd) t per p,
    fun s c n t per p h h20 ho ha => execTbTcuArm_notReady h (tcuDenied_eq_false h20 ho) ha t per p,
    fun s c n t per p h h20 ho ha hp => execTbTcuArm_badParam h (tcuDenied_eq_false h20 ho) ha hp,
    fun s c n h h20 ho => execTbTcuDisarm_ok h (tcuDenied_eq_false h20 ho),
    fun s c n h hd => execTbTcuDisarm_denied h (tcuDenied_eq_true hd), fun s c h hb => ?noBuffer, fun s c h hb => ?buffer,
    fun s c h h0 h32 => execTbReadTime_badParam h ⟨h0, h32⟩⟩
  case rtc => exact (show exec (.rtcRead rq rtc wide) s = execRtcRead rq rtc wide s from rfl).trans (hostRead_ready h ..)
  case misaligned => exact (execCounterRead_ready h ..).trans (congrArg _ (readReg_misaligned ha ..))
  case latching => exact (execCounterRead_ready h ..).trans (congrArg _ (readReg_latching hl wide ho rq))
  case word => exact (execCounterRead_ready h ..).trans (congrArg _ (readReg_word ho hl rq))
  case pair => exact (execCounterRead_ready h ..).trans (congrArg _ (readReg_pair ho hl rq))
  case noBuffer => exact (execTbReadTime_ok h (.inl hb)).trans (by rw [if_pos hb])
  case buffer => exact (execTbReadTime_ok h (.inr hb)).trans (by rw [if_neg (by omega)])

end Sys2Proof.Machine
end

section
/-! Register writes (R13–R15, R51), reply entries (R69, R70, R614, R634) and the common opcodes (R56, R61, R471). -/

namespace Sys2Proof.Machine

/-! ## Register writes -/

theorem execRegisterWrite_word {s : State} {o : Nat} (h : s.glob.ready = true) (ho : o % 4 = 0) (w : Fin 66) (v : BitVec 64) :
    execRegisterWrite w o v .b32 s = .next (writeReg w.val o (v.truncate 32) s) := by
  simp [execRegisterWrite, h, ho]

theorem execRegisterWrite_pair {s : State} {o : Nat} (h : s.glob.ready = true) (ho : o % 8 = 0) (w : Fin 66) (v : BitVec 64) :
    execRegisterWrite w o v .b64 s = .next (writeReg w.val (o + 4) (v.extractLsb' 32 32) (writeReg w.val o (v.truncate 32) s)) := by
  simp [execRegisterWrite, h, ho]

theorem execRegisterWrite_none {s : State} {o : Nat} {a : AccessWidth}
    (h : s.glob.ready = false ∨ a = .b8 ∨ a = .b16 ∨ (a = .b32 ∧ o % 4 ≠ 0) ∨ (a = .b64 ∧ o % 8 ≠ 0)) (w : Fin 66) (v : BitVec 64) :
    execRegisterWrite w o v a s = .next s := by
  unfold execRegisterWrite
  split
  · rfl
  next hr =>
    obtain h | rfl | rfl | ⟨rfl, h⟩ | ⟨rfl, h⟩ := h
    · simp [h] at hr
    · rfl
    · rfl
    · exact congrArg _ (if_neg h)
    · exact congrArg _ (if_neg h)

/-- A write of TB_STATUS clears the flags whose bits are 1 (R58). -/
theorem writeReg_tbStatus (s : State) (v : BitVec 32) :
    writeReg 0 0x100000 v s = { s with tb := { s.tb with
      timeStep := s.tb.timeStep && !v.getLsbD 12, txtsOvf := s.tb.txtsOvf && !v.getLsbD 13, tcuLate := s.tb.tcuLate && !v.getLsbD 14
      tccOvf := s.tb.tccOvf && !v.getLsbD 15, irigErr := s.tb.irigErr && !v.getLsbD 16, ppsMissing := s.tb.ppsMissing && !v.getLsbD 17 } } := rfl

/-- The first word of a manager ring's block is the lower half of its base of commands. -/
theorem writeReg_ringBase (s : State) (k : Fin 4) (v : BitVec 32) : writeReg 0 (0x8000 + 0x40 * k.val) v s = writeRing k.val 0 v s := by
  have hk : block (0x8000 + 0x40 * k.val) 0x008000 0x40 4 = some (k.val, 0) := block_at (k := 0) (by omega) k.2
  have hs : ¬((0x8000 + 0x40 * k.val) % 0x100000 = 0 ∧ 0x8000 + 0x40 * k.val < 0x1000000) := by omega
  rw [writeReg, if_pos rfl, writeBar0, if_neg hs, hk]

theorem writeRing_enabled {s : State} {k : Fin 4} (h : s.su.mring[k].en = true) (r : Nat) (v : BitVec 32) : writeRing k.val r v s = s := by
  have h' : s.su.mring[k.val].en = true := h
  simp [writeRing, h']

theorem cbase_writeRing {s : State} {k : Fin 4} (h : s.su.mring[k].en = false) (v : BitVec 32) :
    (writeRing k.val 0 v s).su.mring[k].cbase = (s.su.mring[k].cbase.extractLsb' 32 32 ++ v) &&& ~~~0xFFF#64 := by
  have h' : s.su.mring[k.val].en = false := h
  simp [writeRing, h', onSu, ringBase, putHalf]

/-! ## Reply entries -/

/-- A ring from whose commands one has been answered. -/
def answeredRing (w : Waiting) (r : Ring) : Ring :=
  { r with inflight := r.inflight.filter (· != w.cmd.idx), commits := r.commits.filter (· != w.cmd.idx) }

/-- The state in which the reply of a command is written to its slot. -/
def withReply (w : Waiting) (r : Ring) (b : ReplyBody) (s : State) : State :=
  let t := putRing s w.cmd.ring (answeredRing w r)
  { t with su := { t.su with replies := replyRec w r b :: t.su.replies } }

theorem writeReply_of_ring {w : Waiting} {s : State} {r : Ring} (h : getRing s w.cmd.ring = some r) (b : ReplyBody) :
    writeReply w b s = if w.cmd.notify then sendMsix (vectorOf (issuer w.cmd) r.vector.toNat) (postReply w r (replyRec w r b) (withReply w r b s))
      else postReply w r (replyRec w r b) (withReply w r b s) := by
  rw [writeReply, h]
  rfl

theorem su_eq_of_outside {l : List Part} (hl : .su ∉ l) {s t : State} (h : outside l t = outside l s) : t.su = s.su :=
  ((sameBut_iff l s t).mpr h).2.1 hl

theorem su_writeReply {w : Waiting} {s : State} {r : Ring} (h : getRing s w.cmd.ring = some r) (b : ReplyBody) :
    (writeReply w b s).su = (withReply w r b s).su := by
  have hp : (postReply w r (replyRec w r b) (withReply w r b s)).su = (withReply w r b s).su :=
    su_eq_of_outside (by decide) (postReply_outside (List.Subset.refl _) ..)
  rw [writeReply_of_ring h]
  split
  · exact (su_eq_of_outside (by decide) (sendMsix_outside (List.Subset.refl _) ..)).trans hp
  · exact hp

@[simp] theorem order_withReply (w : Waiting) (r : Ring) (b : ReplyBody) (s : State) : (withReply w r b s).su.order = s.su.order := by
  unfold withReply putRing
  split <;> rfl

@[simp] theorem replies_withReply (w : Waiting) (r : Ring) (b : ReplyBody) (s : State) :
    (withReply w r b s).su.replies = replyRec w r b :: s.su.replies := by
  unfold withReply putRing
  split <;> rfl

@[simp] theorem inst_withReply (w : Waiting) (r : Ring) (b : ReplyBody) (s : State) : (withReply w r b s).im = s.im := by
  unfold withReply putRing
  split <;> rfl

@[simp] theorem out_withReply (w : Waiting) (r : Ring) (b : ReplyBody) (s : State) : (withReply w r b s).out = s.out := by
  unfold withReply putRing
  split <;> rfl

/-- An instance ring whose destruction no command awaits stays. -/
theorem finishDestroy_writeReply {w : Waiting} {s : State} {r : Ring} (h : getRing s w.cmd.ring = some r) (hd : r.destroy = []) (b : ReplyBody) :
    finishDestroy w.cmd.ring (writeReply w b s) = writeReply w b s := by
  have hsu := su_writeReply h b
  cases hq : w.cmd.ring with
  | m k => rfl
  | inst i k =>
    have hring : getRing (writeReply w b s) (.inst i k) = some (answeredRing w r) := by
      simp [getRing, hsu, withReply, hq, putRing, get?_put]
    simp [finishDestroy, hring, answeredRing, hd]

/-- With no earlier command of its stream outstanding and no destruction waiting, the reply to a command is written at once (R65, R73). -/
theorem reply_eq_writeReply {w : Waiting} {s : State} {r : Ring} (h : getRing s w.cmd.ring = some r) (ho : s.su.order = []) (hd : r.destroy = [])
    (hf : w.cmd.fault = .none) (b : ReplyBody) : reply w b s = writeReply w b s := by
  have hp : placeReply w b s = writeReply w b s := by
    simp [placeReply, ho, sendReply, finishDestroy_writeReply h hd]
  have hq : (writeReply w b s).su.order = [] := by rw [su_writeReply h, order_withReply, ho]
  simp [reply, hf, hp, hq, releaseReplies]

theorem length_replyBytes_init (e : ReplyRec) : ∃ l : List Byte, l.length = 31 ∧ replyBytes e = l ++ [BitVec.ofNat 8 (bitN e.phase)] :=
  ⟨_, by simp [bytesLE], rfl⟩

theorem drop_replyBytes (e : ReplyRec) : (replyBytes e).drop 31 = [BitVec.ofNat 8 (bitN e.phase)] := by
  obtain ⟨l, hl, he⟩ := length_replyBytes_init e
  rw [he, List.drop_left' hl]

/-- A reply without result buffer writes the first 31 bytes of its slot, then the last one (R614). -/
theorem out_postReply {w : Waiting} {r : Ring} {e : ReplyRec} {s : State} (hb : e.body.buf = .none)
    (ha : inAperture s (issuer w.cmd) (slotAddr r.rbase r.size 32 e.idx).toNat 32 = true) :
    (postReply w r e s).out = .post (slotAddr r.rbase r.size 32 e.idx + 31) [BitVec.ofNat 8 (bitN e.phase)] ::
      .post (slotAddr r.rbase r.size 32 e.idx) ((replyBytes e).take 31) :: s.out := by
  simp [postReply, hb, ha, drop_replyBytes, emit]

theorem bitN_replyPhase (i : BitVec 16) (n : BitVec 4) : bitN (replyPhase i n) = 1 - i.toNat / 2 ^ n.toNat % 2 := by
  have h2 := Nat.mod_two_eq_zero_or_one (i.toNat / 2 ^ n.toNat)
  rw [replyPhase, BitVec.getLsbD, Nat.testBit_eq_decide_div_mod_eq]
  obtain h | h := h2 <;> simp [h, bitN]

theorem reply_written {w : Waiting} {s : State} {b : ReplyBody} {r : Ring} (h : getRing s w.cmd.ring = some r) (ho : s.su.order = [])
    (hd : r.destroy = []) (hf : w.cmd.fault = .none) (ha : inAperture s (issuer w.cmd) (slotAddr r.rbase r.size 32 w.cmd.idx).toNat 32 = true)
    (hn : w.cmd.notify = false) (hb : b.buf = .none) :
    ∃ e, (reply w b s).su.replies = e :: s.su.replies ∧
      (reply w b s).out = .post (slotAddr r.rbase r.size 32 w.cmd.idx + 31) [BitVec.ofNat 8 (bitN e.phase)] ::
        .post (slotAddr r.rbase r.size 32 w.cmd.idx) ((replyBytes e).take 31) :: s.out ∧
      e.ring = w.cmd.ring ∧ e.idx = w.cmd.idx ∧ e.opcode = w.opcode ∧ e.seq = w.cmd.seq ∧ e.body.status = b.status ∧ e.body.r0 = b.r0 ∧
      e.body.r1 = b.r1 ∧ e.body.detail = b.detail ∧ bitN e.phase = 1 - w.cmd.idx.toNat / 2 ^ r.size.toNat % 2 := by
  have hw := reply_eq_writeReply h ho hd hf b
  refine ⟨replyRec w r b, ?_, ?_, rfl, rfl, rfl, rfl, rfl, rfl, rfl, rfl, bitN_replyPhase ..⟩
  · rw [hw, su_writeReply h, replies_withReply]
  · have hbuf : (replyRec w r b).body.buf = .none := by simp [replyRec, hb, fitBuf]
    have ha' : inAperture (withReply w r b s) (issuer w.cmd) (slotAddr r.rbase r.size 32 w.cmd.idx).toNat 32 = true := by
      simpa [inAperture] using ha
    rw [hw, writeReply_of_ring h, hn]
    exact (out_postReply hbuf ha').trans (by rw [out_withReply]; rfl)

/-- With NOTIFY the vector of the ring follows the reply (R634). -/
theorem reply_notify {w : Waiting} {s : State} {r : Ring} (h : getRing s w.cmd.ring = some r) (ho : s.su.order = [])
    (hd : r.destroy = []) (hf : w.cmd.fault = .none) (hn : w.cmd.notify = true) (b : ReplyBody) :
    reply w b s = sendMsix (vectorOf (issuer w.cmd) r.vector.toNat) (reply { w with cmd := { w.cmd with notify := false } } b s) := by
  have h' : getRing s ({ w with cmd := { w.cmd with notify := false } } : Waiting).cmd.ring = some r := h
  rw [reply_eq_writeReply h ho hd hf, reply_eq_writeReply h' ho hd hf, writeReply_of_ring h, writeReply_of_ring h', if_pos hn]
  rfl

/-! ## Common opcodes -/

theorem execGetInfo_other {s : State} {c : Cmd} {n : Fin 16} (h : runs (commonOp n 0xF0) true c s = true) (hn : n.val ≠ 0xB) :
    execGetInfo c n s = answered (commonOp n 0xF0) c
      { r0 := BitVec.ofNat 64 (1 + 65536 * s.glob.stepping.toNat), r1 := if n.val = 0 then suCap.zeroExtend 64 else 0 }
      (entered (commonOp n 0xF0) c s) := by
  rw [execGetInfo, answer_runs h, if_neg hn]

theorem execGetInfo_meter {s : State} {c : Cmd} (h : runs 0x0BF0 true c s = true) :
    execGetInfo c 0xB s = answered 0x0BF0 c
      { r0 := BitVec.ofNat 64 (ofBytesLE ((s.mi.mail.page.drop 4).take 4))
        r1 := (0#30 ++ (miStatus s).extractLsb' 0 2) ++ BitVec.ofNat 32 (ofBytesLE ((s.mi.mail.page.drop 8).take 4)) }
      (entered 0x0BF0 c s) :=
  answer_runs (op := 0x0BF0) h _

theorem execGetStatus_other {s : State} {c : Cmd} {n : Fin 16} (h : runs (commonOp n 0xF1) (n.val == 0xB) c s = true) (hn : n.val ≠ 0xB) :
    execGetStatus c n s = answered (commonOp n 0xF1) c { buf := .bytes ((statusWords n.val s).flatMap (fun w => bytesLE 4 w.toNat)) }
      (entered (commonOp n 0xF1) c s) := by
  rw [execGetStatus, answer_runs h, if_neg hn]

theorem execGetStatus_meter {s : State} {c : Cmd} (h : runs 0x0BF1 true c s = true) :
    execGetStatus c 0xB s = answered 0x0BF1 c (if c.bufLen < 36864 then st .badParam
      else { buf := .bytes (mailPageView s ++ (List.range 8).flatMap (fun p => if metersOf c s p then mailBlockView s p else .replicate 4096 0)) })
      (entered 0x0BF1 c s) :=
  answer_runs (op := 0x0BF1) h _

theorem readItem_found {c : Cmd} {n : Fin 16} {op : BitVec 16} {i j : Nat} {l : List Item} {x : Item} {s : State} (hn : n.val ≠ 0xB)
    (ho : op.toNat / 256 = n.val) (hr : itemInRange op.toNat i j = true) (hs : issuer c = 0 ∨ nameInShare s (issuer c) op.toNat i j = true)
    (hx : itemAt l op.toNat i j = some x) :
    readItem c n op i j l s = if c.bufLen < Config.itemLen x then { status := .badParam, r0 := BitVec.ofNat 64 (Config.itemLen x) }
      else { r0 := BitVec.ofNat 64 (Config.itemLen x), buf := .items [x] } := by
  rw [readItem, if_neg hn, if_neg (by simp [ho, hr]), if_neg (by rintro ⟨h1, h2⟩; simp [h1] at hs; simp [hs] at h2), hx]

theorem readItem_absent {c : Cmd} {n : Fin 16} {op : BitVec 16} {i j : Nat} {l : List Item} {s : State} (hn : n.val ≠ 0xB)
    (ho : op.toNat / 256 = n.val) (hr : itemInRange op.toNat i j = true) (hs : issuer c = 0 ∨ nameInShare s (issuer c) op.toNat i j = true)
    (hx : itemAt l op.toNat i j = none) : readItem c n op i j l s = st .ok := by
  rw [readItem, if_neg hn, if_neg (by simp [ho, hr]), if_neg (by rintro ⟨h1, h2⟩; simp [h1] at hs; simp [hs] at h2), hx]

theorem readItem_badParam {c : Cmd} {n : Fin 16} {op : BitVec 16} {i j : Nat} {l : List Item} {s : State} (hn : n.val ≠ 0xB)
    (h : op.toNat / 256 ≠ n.val ∨ itemInRange op.toNat i j = false) : readItem c n op i j l s = st .badParam := by
  rw [readItem, if_neg hn, if_pos (by simpa using h)]

theorem readItem_denied {c : Cmd} {n : Fin 16} {op : BitVec 16} {i j : Nat} {l : List Item} {s : State} (hn : n.val ≠ 0xB)
    (ho : op.toNat / 256 = n.val) (hr : itemInRange op.toNat i j = true) (hi : issuer c ≠ 0)
    (hs : nameInShare s (issuer c) op.toNat i j = false) : readItem c n op i j l s = suSt .denied := by
  rw [readItem, if_neg hn, if_neg (by simp [ho, hr]), if_pos ⟨hi, by simp [hs]⟩]

theorem readItem_sealed {c : Cmd} {n : Fin 16} {op : BitVec 16} {i j : Nat} {l : List Item} {s : State} (hn : n.val = 0xB) :
    readItem c n op i j l s = st .sealed := if_pos hn

/-- Settles O27: each register write, reply entry and common opcode, by the lemma about it. -/
theorem registersRepliesAndCommonOpcodes : Obligations.RegistersRepliesAndCommonOpcodes :=
  ⟨fun _ w _ v h ho => execRegisterWrite_word h ho w v, fun _ w _ v h ho => execRegisterWrite_pair h ho w v,
    fun _ w _ v _ h => execRegisterWrite_none h w v, writeReg_tbStatus,
    fun s k v h => ⟨_, writeReg_ringBase s k v, cbase_writeRing h v⟩, fun s k v h => (writeReg_ringBase s k v).trans (writeRing_enabled h 0 v),
    fun _ _ _ _ h ho hd hf ha hn hb => reply_written h ho hd hf ha hn hb, fun _ _ b _ h ho hd hf _ hn => reply_notify h ho hd hf hn b,
    fun _ _ _ h hn => execGetInfo_other h hn, fun _ _ h => execGetInfo_meter h, fun _ _ _ h hn => execGetStatus_other h hn,
    fun _ _ h => execGetStatus_meter h, fun _ _ _ _ _ _ h => answer_runs h _, fun _ _ _ _ _ _ h => answer_runs h _,
    fun _ _ _ _ _ _ _ _ hn ho hr hs hx => readItem_found hn ho hr hs hx, fun _ _ _ _ _ _ _ hn ho hr hs hx => readItem_absent hn ho hr hs hx,
    fun _ _ _ _ _ _ _ hn h => readItem_badParam hn h, fun _ _ _ _ _ _ _ hn ho hr hi hs => readItem_denied hn ho hr hi hs,
    fun _ _ _ _ _ _ _ hn => readItem_sealed hn⟩

end Sys2Proof.Machine
end
section
/-! What every command keeps. `Steady clk deep s` says that LT stands at `clk`, where it gives a value, and that the FIFOs, the call stacks and the
log hold no more than their depths, where `deep` asks it: one walk over the operations proves both that no command moves LT and that every step
keeps the depths. -/

namespace Sys2Proof.Machine

/-- The accumulator of LT stands at a value that is given, and the capture FIFOs and timestamp queues are within their depths (R20, R45, R50). -/
def TbSteady (clk : Option (BitVec 96)) (deep : Bool) (t : TbState) : Prop :=
  (∀ a ∈ clk, t.acc = a) ∧ (deep = true → (∀ u ∈ t.tcc, u.fifo.length ≤ 4) ∧ ∀ q ∈ t.txts, q.fifo.length ≤ 16)

/-- The edge FIFOs are within their depth (R281). -/
def EdgesSteady {n : Nat} (deep : Bool) (v : Vector EdgeUnit n) : Prop := deep = true → ∀ u ∈ v, u.fifo.length ≤ 64

/-- The call stacks are within their depth (R340). -/
def EngSteady (deep : Bool) (l : Tab Nat Engine) : Prop := deep = true → ∀ e ∈ l, e.2.stack.length ≤ 16

/-- The FIFO of error records is within its depth (R573). -/
def ErrSteady (deep : Bool) (l : List ErrRec) : Prop := deep = true → l.length ≤ 16

/-- The event log is within its depth (R575). -/
def LogSteady (deep : Bool) (l : List LogRec) : Prop := deep = true → l.length ≤ 65536

/-- LT stands at a value that is given, and the depths hold where they are asked for. -/
structure Steady (clk : Option (BitVec 96)) (deep : Bool) (s : State) : Prop where
  tb : TbSteady clk deep s.tb
  edges : EdgesSteady deep s.ar.edge
  eng : EngSteady deep s.fb.eng
  errs : ErrSteady deep s.grd.recs
  recs : LogSteady deep s.log.recs

/-- The answer is a next state, and `Steady` holds of it. -/
def SteadyRes (clk : Option (BitVec 96)) (deep : Bool) (r : Res) : Prop := ∃ t, r = .next t ∧ Steady clk deep t

/-- With the depths asked for, `Steady` is the invariant of the depths. -/
theorem steady_depths (s : State) : Steady none true s ↔ s.depthsOk = true := by
  simp only [State.depthsOk, Bool.and_eq_true, List.all_eq_true, decide_eq_true_eq, Vector.mem_toList_iff]
  constructor
  · rintro ⟨⟨-, htb⟩, hedge, heng, herr, hlog⟩
    exact ⟨⟨⟨⟨⟨(htb rfl).1, (htb rfl).2⟩, hedge rfl⟩, herr rfl⟩, heng rfl⟩, hlog rfl⟩
  · rintro ⟨⟨⟨⟨⟨htcc, htxts⟩, hedge⟩, herr⟩, heng⟩, hlog⟩
    exact ⟨⟨nofun, fun _ => ⟨htcc, htxts⟩⟩, fun _ => hedge, fun _ => heng, fun _ => herr, fun _ => hlog⟩

/-- With an accumulator given and no depth asked for, `Steady` says that LT stands. -/
theorem steady_acc (a : BitVec 96) (s : State) : Steady (some a) false s ↔ s.tb.acc = a :=
  ⟨fun h => h.tb.1 a rfl, fun h => ⟨⟨fun _ hb => (Option.some.inj hb) ▸ h, nofun⟩, nofun, nofun, nofun, nofun⟩⟩

section
variable {clk : Option (BitVec 96)} {deep : Bool}

@[simp] theorem steadyRes_next (s : State) : SteadyRes clk deep (.next s) ↔ Steady clk deep s :=
  ⟨fun ⟨_, ht, h⟩ => Host.Outcome.next.inj ht ▸ h, fun h => ⟨s, rfl, h⟩⟩

@[simp] theorem steadyRes_ite (p : Prop) [Decidable p] (a b : Res) :
    SteadyRes clk deep (if p then a else b) ↔ if p then SteadyRes clk deep a else SteadyRes clk deep b := by split <;> rfl

@[simp] theorem steady_ite (p : Prop) [Decidable p] (s t : State) :
    Steady clk deep (if p then s else t) ↔ if p then Steady clk deep s else Steady clk deep t := by split <;> rfl

/-- Each branch of a choice may use its condition. -/
theorem Steady.ite {p : Prop} [Decidable p] {s t : State} (hs : p → Steady clk deep s) (ht : ¬p → Steady clk deep t) :
    Steady clk deep (if p then s else t) := by
  split
  · exact hs ‹_›
  · exact ht ‹_›

@[simp] theorem steady_ite_fst {α : Type} (p : Prop) [Decidable p] (a b : State × α) :
    Steady clk deep (if p then a else b).1 ↔ if p then Steady clk deep a.1 else Steady clk deep b.1 := by split <;> rfl

@[simp] theorem steady_ite_snd {α : Type} (p : Prop) [Decidable p] (a b : α × State) :
    Steady clk deep (if p then a else b).2 ↔ if p then Steady clk deep a.2 else Steady clk deep b.2 := by split <;> rfl

/-- A list of changes each of which leaves `Steady` as it is leaves it. -/
@[simp] theorem steady_foldl_iff {α : Type} (f : State → α → State) (h : ∀ s a, Steady clk deep (f s a) ↔ Steady clk deep s) (xs : List α)
    (s : State) :
    Steady clk deep (xs.foldl f s) ↔ Steady clk deep s := by
  induction xs generalizing s with
  | nil => rfl
  | cons a xs ih => rw [List.foldl_cons, ih, h]

/-- A list of changes each of which keeps `Steady` keeps it. -/
theorem steady_foldl {α : Type} (f : State → α → State) (h : ∀ s a, Steady clk deep s → Steady clk deep (f s a)) (xs : List α) {s : State}
    (hs : Steady clk deep s) : Steady clk deep (xs.foldl f s) := List.foldlRecOn xs f hs fun s hs a _ => h s a hs

/-- The same for a list of changes that gathers something beside the state. -/
theorem steady_foldl_fst {α β : Type} (f : State × β → α → State × β) (h : ∀ a x, Steady clk deep a.1 → Steady clk deep (f a x).1) (xs : List α)
    {a : State × β} (ha : Steady clk deep a.1) : Steady clk deep (xs.foldl f a).1 :=
  List.foldlRecOn (motive := fun a => Steady clk deep a.1) xs f ha fun a ha x _ => h a x ha

theorem steady_foldl_fst_iff {α β : Type} (f : State × β → α → State × β) (h : ∀ a x, Steady clk deep (f a x).1 ↔ Steady clk deep a.1) (xs : List α)
    (a : State × β) : Steady clk deep (xs.foldl f a).1 ↔ Steady clk deep a.1 := by
  induction xs generalizing a with
  | nil => rfl
  | cons x xs ih => rw [List.foldl_cons, ih, h]

theorem steady_foldl_snd_iff {α β : Type} (f : β × State → α → β × State) (h : ∀ a x, Steady clk deep (f a x).2 ↔ Steady clk deep a.2) (xs : List α)
    (a : β × State) : Steady clk deep (xs.foldl f a).2 ↔ Steady clk deep a.2 := by
  induction xs generalizing a with
  | nil => rfl
  | cons x xs ih => rw [List.foldl_cons, ih, h]

/-! ## What `Steady` looks at -/

/-- `Steady` depends on no more of a state than LT, the FIFOs, the call stacks and the log. -/
theorem steady_congr {s t : State} (htb : TbSteady clk deep t.tb ↔ TbSteady clk deep s.tb) (hedge : t.ar.edge = s.ar.edge)
    (heng : t.fb.eng = s.fb.eng) (herr : t.grd.recs = s.grd.recs) (hlog : t.log.recs = s.log.recs) :
    Steady clk deep t ↔ Steady clk deep s :=
  ⟨fun h => ⟨htb.mp h.tb, hedge ▸ h.edges, heng ▸ h.eng, herr ▸ h.errs, hlog ▸ h.recs⟩,
    fun h => ⟨htb.mpr h.tb, hedge ▸ h.edges, heng ▸ h.eng, herr ▸ h.errs, hlog ▸ h.recs⟩⟩

theorem tbSteady_congr {t u : TbState} (h : u.acc = t.acc ∧ u.tcc = t.tcc ∧ u.txts = t.txts) : TbSteady clk deep u ↔ TbSteady clk deep t := by
  obtain ⟨hacc, htcc, htxts⟩ := h
  rw [TbSteady, TbSteady, hacc, htcc, htxts]

/-- The parts that `Steady` does not look at. -/
def quietParts : List Part := [.su, .px, .sw, .qm, .se, .fr, .pe, .ps, .fo, .mi, .kv, .im, .pa, .pmb, .jtag, .ev, .glob, .free, .out]

/-- An operation that leaves what stands outside the parts that `Steady` does not look at leaves `Steady` as it is. -/
theorem steady_of_outside {s t : State} (h : outside quietParts t = outside quietParts s) : Steady clk deep t ↔ Steady clk deep s := by
  have htb : t.tb = s.tb := by simpa [outside, quietParts] using congrArg State.tb h
  have har : t.ar = s.ar := by simpa [outside, quietParts] using congrArg State.ar h
  have hfb : t.fb = s.fb := by simpa [outside, quietParts] using congrArg State.fb h
  have hgrd : t.grd = s.grd := by simpa [outside, quietParts] using congrArg State.grd h
  have hlog : t.log = s.log := by simpa [outside, quietParts] using congrArg State.log h
  exact steady_congr (by rw [htb]) (by rw [har]) (by rw [hfb]) (by rw [hgrd]) (by rw [hlog])

theorem steadyRes_of_outside {s : State} {r : Res} (h : outsideRes quietParts r = .next (outside quietParts s)) (hs : Steady clk deep s) :
    SteadyRes clk deep r := by
  cases r with
  | next t => exact ⟨t, rfl, (steady_of_outside (Host.Outcome.next.inj h)).mpr hs⟩
  | fault | refused => nomatch h

/-! ## One part replaced -/

@[simp] theorem steady_set_su (x : SuState) (s : State) : Steady clk deep { s with su := x } ↔ Steady clk deep s :=
  steady_congr .rfl rfl rfl rfl rfl
@[simp] theorem steady_set_px (x : PxState) (s : State) : Steady clk deep { s with px := x } ↔ Steady clk deep s :=
  steady_congr .rfl rfl rfl rfl rfl
@[simp] theorem steady_set_sw (x : SwState) (s : State) : Steady clk deep { s with sw := x } ↔ Steady clk deep s :=
  steady_congr .rfl rfl rfl rfl rfl
@[simp] theorem steady_set_qm (x : QmState) (s : State) : Steady clk deep { s with qm := x } ↔ Steady clk deep s :=
  steady_congr .rfl rfl rfl rfl rfl
@[simp] theorem steady_set_se (x : SeState) (s : State) : Steady clk deep { s with se := x } ↔ Steady clk deep s :=
  steady_congr .rfl rfl rfl rfl rfl
@[simp] theorem steady_set_fr (x : FrState) (s : State) : Steady clk deep { s with fr := x } ↔ Steady clk deep s :=
  steady_congr .rfl rfl rfl rfl rfl
@[simp] theorem steady_set_pe (x : PeState) (s : State) : Steady clk deep { s with pe := x } ↔ Steady clk deep s :=
  steady_congr .rfl rfl rfl rfl rfl
@[simp] theorem steady_set_ps (x : PsState) (s : State) : Steady clk deep { s with ps := x } ↔ Steady clk deep s :=
  steady_congr .rfl rfl rfl rfl rfl
@[simp] theorem steady_set_fo (x : FoState) (s : State) : Steady clk deep { s with fo := x } ↔ Steady clk deep s :=
  steady_congr .rfl rfl rfl rfl rfl
@[simp] theorem steady_set_mi (x : MiState) (s : State) : Steady clk deep { s with mi := x } ↔ Steady clk deep s :=
  steady_congr .rfl rfl rfl rfl rfl
@[simp] theorem steady_set_kv (x : KvState) (s : State) : Steady clk deep { s with kv := x } ↔ Steady clk deep s :=
  steady_congr .rfl rfl rfl rfl rfl
@[simp] theorem steady_set_im (x : ImState) (s : State) : Steady clk deep { s with im := x } ↔ Steady clk deep s :=
  steady_congr .rfl rfl rfl rfl rfl
@[simp] theorem steady_set_pa (x : PaState) (s : State) : Steady clk deep { s with pa := x } ↔ Steady clk deep s :=
  steady_congr .rfl rfl rfl rfl rfl
@[simp] theorem steady_set_pmb (x : Pmbus) (s : State) : Steady clk deep { s with pmb := x } ↔ Steady clk deep s :=
  steady_congr .rfl rfl rfl rfl rfl
@[simp] theorem steady_set_jtag (x : Jtag) (s : State) : Steady clk deep { s with jtag := x } ↔ Steady clk deep s :=
  steady_congr .rfl rfl rfl rfl rfl
@[simp] theorem steady_set_ev (x : EvState) (s : State) : Steady clk deep { s with ev := x } ↔ Steady clk deep s :=
  steady_congr .rfl rfl rfl rfl rfl
@[simp] theorem steady_set_glob (x : Glob) (s : State) : Steady clk deep { s with glob := x } ↔ Steady clk deep s :=
  steady_congr .rfl rfl rfl rfl rfl
@[simp] theorem steady_set_free (x : Nat) (s : State) : Steady clk deep { s with free := x } ↔ Steady clk deep s :=
  steady_congr .rfl rfl rfl rfl rfl
@[simp] theorem steady_set_out (x : List Out) (s : State) : Steady clk deep { s with out := x } ↔ Steady clk deep s :=
  steady_congr .rfl rfl rfl rfl rfl
@[simp] theorem steady_set_pending (x : List Instr) (s : State) : Steady clk deep { s with pending := x } ↔ Steady clk deep s :=
  steady_congr .rfl rfl rfl rfl rfl

@[simp] theorem steady_set_tb (x : TbState) (s : State) (h : x.acc = s.tb.acc ∧ x.tcc = s.tb.tcc ∧ x.txts = s.tb.txts) :
    Steady clk deep { s with tb := x } ↔ Steady clk deep s := steady_congr (tbSteady_congr h) rfl rfl rfl rfl
@[simp] theorem steady_set_ar (x : ArState) (s : State) (h : x.edge = s.ar.edge) : Steady clk deep { s with ar := x } ↔ Steady clk deep s :=
  steady_congr .rfl h rfl rfl rfl
@[simp] theorem steady_set_fb (x : FbState) (s : State) (h : x.eng = s.fb.eng) : Steady clk deep { s with fb := x } ↔ Steady clk deep s :=
  steady_congr .rfl rfl h rfl rfl
@[simp] theorem steady_set_grd (x : GuardState) (s : State) (h : x.recs = s.grd.recs) : Steady clk deep { s with grd := x } ↔ Steady clk deep s :=
  steady_congr .rfl rfl rfl h rfl
@[simp] theorem steady_set_log (x : LogState) (s : State) (h : x.recs = s.log.recs) : Steady clk deep { s with log := x } ↔ Steady clk deep s :=
  steady_congr .rfl rfl rfl rfl h

@[simp] theorem onSu_steady (f : SuState → SuState) (s : State) : Steady clk deep (onSu f s) ↔ Steady clk deep s := steady_set_su _ s
@[simp] theorem onPx_steady (f : PxState → PxState) (s : State) : Steady clk deep (onPx f s) ↔ Steady clk deep s := steady_set_px _ s
@[simp] theorem onSw_steady (f : SwState → SwState) (s : State) : Steady clk deep (onSw f s) ↔ Steady clk deep s := steady_set_sw _ s
@[simp] theorem onQm_steady (f : QmState → QmState) (s : State) : Steady clk deep (onQm f s) ↔ Steady clk deep s := steady_set_qm _ s
@[simp] theorem onSe_steady (f : SeState → SeState) (s : State) : Steady clk deep (onSe f s) ↔ Steady clk deep s := steady_set_se _ s
@[simp] theorem onFr_steady (f : FrState → FrState) (s : State) : Steady clk deep (onFr f s) ↔ Steady clk deep s := steady_set_fr _ s
@[simp] theorem onPe_steady (f : PeState → PeState) (s : State) : Steady clk deep (onPe f s) ↔ Steady clk deep s := steady_set_pe _ s
@[simp] theorem onPs_steady (f : PsState → PsState) (s : State) : Steady clk deep (onPs f s) ↔ Steady clk deep s := steady_set_ps _ s
@[simp] theorem onFo_steady (f : FoState → FoState) (s : State) : Steady clk deep (onFo f s) ↔ Steady clk deep s := steady_set_fo _ s
@[simp] theorem onMi_steady (f : MiState → MiState) (s : State) : Steady clk deep (onMi f s) ↔ Steady clk deep s := steady_set_mi _ s
@[simp] theorem onKv_steady (f : KvState → KvState) (s : State) : Steady clk deep (onKv f s) ↔ Steady clk deep s := steady_set_kv _ s
@[simp] theorem onIm_steady (f : ImState → ImState) (s : State) : Steady clk deep (onIm f s) ↔ Steady clk deep s := steady_set_im _ s
@[simp] theorem onPa_steady (f : PaState → PaState) (s : State) : Steady clk deep (onPa f s) ↔ Steady clk deep s := steady_set_pa _ s
@[simp] theorem onPmb_steady (f : Pmbus → Pmbus) (s : State) : Steady clk deep (onPmb f s) ↔ Steady clk deep s := steady_set_pmb _ s
@[simp] theorem onEv_steady (f : EvState → EvState) (s : State) : Steady clk deep (onEv f s) ↔ Steady clk deep s := steady_set_ev _ s
@[simp] theorem onGlob_steady (f : Glob → Glob) (s : State) : Steady clk deep (onGlob f s) ↔ Steady clk deep s := steady_set_glob _ s
@[simp] theorem onTb_steady (f : TbState → TbState) (s : State)
    (h : (f s.tb).acc = s.tb.acc ∧ (f s.tb).tcc = s.tb.tcc ∧ (f s.tb).txts = s.tb.txts) : Steady clk deep (onTb f s) ↔ Steady clk deep s :=
  steady_set_tb _ s h
@[simp] theorem onAr_steady (f : ArState → ArState) (s : State) (h : (f s.ar).edge = s.ar.edge) :
    Steady clk deep (onAr f s) ↔ Steady clk deep s := steady_set_ar _ s h
@[simp] theorem onFb_steady (f : FbState → FbState) (s : State) (h : (f s.fb).eng = s.fb.eng) :
    Steady clk deep (onFb f s) ↔ Steady clk deep s := steady_set_fb _ s h
@[simp] theorem onGrd_steady (f : GuardState → GuardState) (s : State) (h : (f s.grd).recs = s.grd.recs) :
    Steady clk deep (onGrd f s) ↔ Steady clk deep s := steady_set_grd _ s h
@[simp] theorem onLog_steady (f : LogState → LogState) (s : State) (h : (f s.log).recs = s.log.recs) :
    Steady clk deep (onLog f s) ↔ Steady clk deep s := steady_set_log _ s h

@[simp] theorem emit_steady (o : Out) (s : State) : Steady clk deep (emit o s) ↔ Steady clk deep s := steady_set_out _ s

@[simp] theorem draw_steady (s : State) : Steady clk deep (draw s).2 ↔ Steady clk deep s := steady_set_free _ s

@[simp] theorem drawInt_steady (s : State) : Steady clk deep (drawInt s).2 ↔ Steady clk deep s := steady_set_free _ s

@[simp] theorem setAnchor_steady (t : TbState) (at_ : LT) (tai : Int) :
    (setAnchor t at_ tai).acc = t.acc ∧ (setAnchor t at_ tai).tcc = t.tcc ∧ (setAnchor t at_ tai).txts = t.txts := ⟨rfl, rfl, rfl⟩

@[simp] theorem ageMarks_steady (now : LT) (t : TbState) :
    (ageMarks now t).acc = t.acc ∧ (ageMarks now t).tcc = t.tcc ∧ (ageMarks now t).txts = t.txts := ⟨rfl, rfl, rfl⟩

/-! ## What changes a FIFO, a call stack, the error records or the log -/

/-- Where a vector's element is changed to one that meets a condition, the condition holds of all elements as before. -/
theorem forall_mem_vmod {α : Type} {n : Nat} {v : Vector α n} {i : Nat} {f : α → α} {P : α → Prop} (hf : ∀ u ∈ v[i]?, P u → P (f u))
    (hv : ∀ u ∈ v, P u) : ∀ u ∈ vmod v i f, P u := by
  unfold vmod
  split
  · next x hx =>
    intro u hu
    obtain ⟨k, hk, rfl⟩ := Vector.mem_iff_getElem.mp hu
    rw [Vector.getElem_setIfInBounds]
    split
    · exact hf x hx (hv x (Vector.mem_of_getElem? hx))
    · exact hv _ (Vector.getElem_mem _)
  · exact hv

/-- The capture unit of a number changed to one whose FIFO is within its depth. -/
theorem tcc_steady {s : State} {i : Nat} {f : Tcc → Tcc} {x : TbState} (hs : Steady clk deep s) (hacc : x.acc = s.tb.acc)
    (htxts : x.txts = s.tb.txts) (htcc : x.tcc = vmod s.tb.tcc i f)
    (hf : ∀ u ∈ s.tb.tcc[i]?, u.fifo.length ≤ 4 → (f u).fifo.length ≤ 4) : Steady clk deep { s with tb := x } :=
  ⟨⟨fun a ha => hacc.trans (hs.tb.1 a ha), fun hd => by
    rw [htcc, htxts]; exact ⟨forall_mem_vmod hf (hs.tb.2 hd).1, (hs.tb.2 hd).2⟩⟩, hs.edges, hs.eng, hs.errs, hs.recs⟩

/-- The timestamp queue of a port changed to one within its depth. -/
theorem txts_steady {s : State} {i : Nat} {f : Txts → Txts} {x : TbState} (hs : Steady clk deep s) (hacc : x.acc = s.tb.acc)
    (htcc : x.tcc = s.tb.tcc) (htxts : x.txts = vmod s.tb.txts i f)
    (hf : ∀ q ∈ s.tb.txts[i]?, q.fifo.length ≤ 16 → (f q).fifo.length ≤ 16) : Steady clk deep { s with tb := x } :=
  ⟨⟨fun a ha => hacc.trans (hs.tb.1 a ha), fun hd => by
    rw [htcc, htxts]; exact ⟨(hs.tb.2 hd).1, forall_mem_vmod hf (hs.tb.2 hd).2⟩⟩, hs.edges, hs.eng, hs.errs, hs.recs⟩

/-- The edge input of a number changed to one whose FIFO is within its depth. -/
theorem modEdge_steady_of_mem {s : State} {i : Nat} {f : EdgeUnit → EdgeUnit} (hs : Steady clk deep s)
    (hf : ∀ u ∈ s.ar.edge[i]?, u.fifo.length ≤ 64 → (f u).fifo.length ≤ 64) : Steady clk deep (modEdge i f s) :=
  ⟨hs.tb, fun hd => forall_mem_vmod hf (hs.edges hd), hs.eng, hs.errs, hs.recs⟩

@[simp] theorem modEdge_steady {s : State} (i : Nat) (f : EdgeUnit → EdgeUnit) (hf : ∀ u, u.fifo.length ≤ 64 → (f u).fifo.length ≤ 64)
    (hs : Steady clk deep s) : Steady clk deep (modEdge i f s) := modEdge_steady_of_mem hs fun u _ => hf u

/-- The recorders' part replaced by one whose edge FIFOs are within their depth. -/
theorem onAr_steady_of_edges {s : State} {f : ArState → ArState} (hs : Steady clk deep s) (hf : ∀ u ∈ (f s.ar).edge, u.fifo.length ≤ 64) :
    Steady clk deep (onAr f s) := ⟨hs.tb, fun _ => hf, hs.eng, hs.errs, hs.recs⟩

/-- An entry of a table changed to one that meets a condition. -/
theorem forall_mem_upd {κ ν : Type} [DecidableEq κ] {t : Tab κ ν} {k : κ} {d : ν} {f : ν → ν} {P : ν → Prop} (hd : P d) (hf : ∀ v, P v → P (f v))
    (ht : ∀ e ∈ t, P e.2) : ∀ e ∈ t.upd k d f, P e.2 := by
  have hget : P (t.getD k d) := by
    unfold Tab.getD Tab.get?
    cases h : t.find? (fun e => decide (e.1 = k)) with
    | none => exact hd
    | some e => exact ht e (List.mem_of_find?_eq_some h)
  intro e he
  rcases List.mem_cons.mp he with rfl | he
  · exact hf _ hget
  · exact ht e (List.mem_filter.mp he).1

/-- An engine changed to one whose call stack is within its depth. -/
@[simp] theorem modEng_steady {s : State} (e : Nat) (f : Engine → Engine) (hf : ∀ g, g.stack.length ≤ 16 → (f g).stack.length ≤ 16)
    (hs : Steady clk deep s) : Steady clk deep (modEng e f s) :=
  ⟨hs.tb, hs.edges, fun hd => forall_mem_upd (P := fun g : Engine => g.stack.length ≤ 16) (Nat.zero_le _) hf (hs.eng hd), hs.errs, hs.recs⟩

@[simp] theorem loadData_stack (x : EngineEntry) (g : Engine) : (loadData x g).stack = g.stack := rfl

@[simp] theorem loadCode_stack (x : EngineEntry) (g : Engine) : (loadCode x g).stack = g.stack := rfl

@[simp] theorem dropCode_stack (r : Region) (g : Engine) : (dropCode r g).stack = g.stack := rfl

@[simp] theorem wrV_stack (g : Engine) (i : Nat) (x : BitVec 64) : (wrV g i x).stack = g.stack := by
  unfold wrV
  split <;> rfl

/-- A list of changes of an engine that leave its call stack. -/
theorem foldl_stack {α : Type} (f : Engine → α → Engine) (h : ∀ g x, (f g x).stack = g.stack) (l : List α) (g : Engine) :
    (l.foldl f g).stack = g.stack := by
  induction l generalizing g with
  | nil => rfl
  | cons x l ih => rw [List.foldl_cons, ih, h]

/-! ## What Ops keeps -/

@[simp] theorem limited_steady (kind key interval n s) : Steady clk deep (limited kind key interval n s).2 ↔ Steady clk deep s :=
  steady_of_outside (limited_outside (by decide) ..)

@[simp] theorem logRec_steady (type source owner lt arg0 arg1 s) : Steady clk deep (logRec type source owner lt arg0 arg1 s) ↔ Steady clk deep s := by
  simp [logRec]

@[simp] theorem sendMsix_steady (v s) : Steady clk deep (sendMsix v s) ↔ Steady clk deep s :=
  steady_of_outside (sendMsix_outside (by decide) ..)

@[simp] theorem clearEvents_steady (o m s) : Steady clk deep (clearEvents o m s) ↔ Steady clk deep s :=
  steady_of_outside (clearEvents_outside (by decide) ..)

@[simp] theorem routeEvent_steady (n tag s) : Steady clk deep (routeEvent n tag s) ↔ Steady clk deep s :=
  steady_of_outside (routeEvent_outside (by decide) ..)

/-! ## What Flags keeps -/

@[simp] theorem raiseArg_steady (n tag arg1 s) : Steady clk deep (raiseArg n tag arg1 s) ↔ Steady clk deep s := by
  simp [raiseArg]

@[simp] theorem raise_steady (n tag s) : Steady clk deep (raise n tag s) ↔ Steady clk deep s := by
  simp [raise]

/-! ## What DomainOps keeps -/

@[simp] theorem modPd_steady (n f s) : Steady clk deep (modPd n f s) ↔ Steady clk deep s :=
  steady_of_outside (modPd_outside (by decide) ..)

@[simp] theorem lockRefused_steady (n s) : Steady clk deep (lockRefused n s) ↔ Steady clk deep s := by
  simp [lockRefused]

@[simp] theorem wakeDomain_steady (access n s) : Steady clk deep (wakeDomain access n s) ↔ Steady clk deep s :=
  steady_of_outside (wakeDomain_outside (by decide) ..)

@[simp] theorem commandAccess_steady (n s) : Steady clk deep (commandAccess n s).1 ↔ Steady clk deep s := by
  unfold commandAccess
  split <;> simp

@[simp] theorem opAccess_steady (op s) : Steady clk deep (opAccess op s).1 ↔ Steady clk deep s := by
  unfold opAccess
  split <;> simp

/-! ## What Command keeps -/

@[simp] theorem putRing_steady (s r x) : Steady clk deep (putRing s r x) ↔ Steady clk deep s :=
  steady_of_outside (putRing_outside (by decide) ..)

@[simp] theorem apertureHit_steady (i s) : Steady clk deep (apertureHit i s) ↔ Steady clk deep s := by
  simp [apertureHit]

@[simp] theorem postReply_steady (w r e s) : Steady clk deep (postReply w r e s) ↔ Steady clk deep s := by
  simp [postReply]

@[simp] theorem writeReply_steady (w b s) : Steady clk deep (writeReply w b s) ↔ Steady clk deep s := by
  unfold writeReply
  split <;> simp

@[simp] theorem finishDestroy_steady (ring s) : Steady clk deep (finishDestroy ring s) ↔ Steady clk deep s :=
  steady_of_outside (finishDestroy_outside (by decide) ..)

@[simp] theorem sendReply_steady (w b s) : Steady clk deep (sendReply w b s) ↔ Steady clk deep s := by
  simp [sendReply]

@[simp] theorem releaseReplies_steady (n s) : Steady clk deep (releaseReplies n s) ↔ Steady clk deep s := by
  induction n generalizing s with
  | zero => rfl
  | succ n ih =>
    unfold releaseReplies
    split <;> simp [ih]

@[simp] theorem putSession_steady (s o x) : Steady clk deep (putSession s o x) ↔ Steady clk deep s :=
  steady_of_outside (putSession_outside (by decide) ..)

@[simp] theorem firmwareFault_steady (o s) : Steady clk deep (firmwareFault o s) ↔ Steady clk deep s := by
  simp [firmwareFault]

@[simp] theorem placeReply_steady (w b s) : Steady clk deep (placeReply w b s) ↔ Steady clk deep s := by
  simp [placeReply]

@[simp] theorem reply_steady (w b s) : Steady clk deep (reply w b s) ↔ Steady clk deep s := by
  simp [reply]

@[simp] theorem outstanding_steady (w s) : Steady clk deep (outstanding w s) ↔ Steady clk deep s :=
  steady_of_outside (outstanding_outside (by decide) ..)

@[simp] theorem begun_steady (c s) : Steady clk deep (begun c s) ↔ Steady clk deep s :=
  steady_of_outside (begun_outside (by decide) ..)

@[simp] theorem commandWith_steady (op o c s pre) {body : State → State × Option ReplyBody}
    (hb : ∀ u, Steady clk deep u → Steady clk deep (body u).1) (hs : Steady clk deep s) : SteadyRes clk deep (commandWith op o c s pre body) := by
  unfold commandWith
  have ha : Steady clk deep (opAccess op.toNat (begun c s)).1 := by simp [hs]
  split
  · simpa using hs
  · dsimp only
    split
    · simp [hs]
    · split
      · simp [hs]
      · split
        · simp [hs]
        · split
          next u b he => rw [he] at ha; simpa using ha
          next u he =>
            rw [he] at ha
            have hu := hb u ha
            split <;> next v _ hv => rw [hv] at hu; simpa using hu

@[simp] theorem command_steady (op o c s) {body : State → State × Option ReplyBody}
    (hb : ∀ u, Steady clk deep u → Steady clk deep (body u).1) (hs : Steady clk deep s) : SteadyRes clk deep (command op o c s body) :=
  commandWith_steady op o c s _ hb hs

@[simp] theorem answer_steady (op o c s b) (hs : Steady clk deep s) : SteadyRes clk deep (answer op o c s b) :=
  command_steady op o c s (fun _ hu => hu) hs

@[simp] theorem stage_steady (op o c items check s) (hs : Steady clk deep s) : SteadyRes clk deep (stage op o c items check s) := by
  refine commandWith_steady op o c s _ (fun s hs => ?_) hs
  dsimp only
  split
  · exact hs
  · simp [hs]

@[simp] theorem multipart_steady (mask) {part : Nat → State → State × Status × List Byte} (s)
    (hb : ∀ n u, Steady clk deep u → Steady clk deep (part n u).1) (hs : Steady clk deep s) : Steady clk deep (multipart mask part s).1 := by
  have fold : Steady clk deep ((maskParts mask).foldl
      (fun (a : State × List Nat × Option Status × List Byte) n => match part n a.1 with
        | (s', .ok, bs) => (s', a.2.1 ++ [n], a.2.2.1, a.2.2.2 ++ bs)
        | (s', e, _) => (s', a.2.1, some (a.2.2.1.getD e), a.2.2.2)) (s, [], none, [])).1 := by
    refine steady_foldl_fst _ (fun a n ha => ?_) _ hs
    have hn := hb n a.1 ha
    split <;> next h => rw [h] at hn; exact hn
  unfold multipart
  split
  · exact hs
  · dsimp only
    split <;> exact fold

@[simp] theorem multi_steady (op o c mask) {part : Nat → State → State × Status × List Byte} (s)
    (hb : ∀ n u, Steady clk deep u → Steady clk deep (part n u).1) (hs : Steady clk deep s) : SteadyRes clk deep (multi op o c mask part s) :=
  command_steady op o c s (fun u hu => multipart_steady mask u hb hu) hs

/-! ## What TimeOps keeps -/

@[simp] theorem modTcu_steady (n f s) : Steady clk deep (modTcu n f s) ↔ Steady clk deep s := by
  simp [modTcu]

@[simp] theorem fireTcu_steady (n s) : Steady clk deep (fireTcu n s) ↔ Steady clk deep s := by
  simp [fireTcu]

@[simp] theorem armPin_steady (k s) : Steady clk deep (armPin k s) ↔ Steady clk deep s := by
  simp [armPin]

@[simp] theorem armCnv_steady (k s) : Steady clk deep (armCnv k s) ↔ Steady clk deep s := by
  simp [armCnv]

@[simp] theorem armGrid_steady (s) : Steady clk deep (armGrid s) ↔ Steady clk deep s := by
  simp [armGrid]

@[simp] theorem armTai_steady (s) : Steady clk deep (armTai s) ↔ Steady clk deep s := by
  simp [armTai]

@[simp] theorem accountLocked_steady (s) : Steady clk deep (accountLocked s) ↔ Steady clk deep s := by
  simp [accountLocked]

@[simp] theorem setServo_steady (x s) : Steady clk deep (setServo x s) ↔ Steady clk deep s := by
  simp [setServo]

@[simp] theorem selectSource_steady (x s) : Steady clk deep (selectSource x s) ↔ Steady clk deep s := by
  simp [selectSource]

@[simp] theorem sourceQualified_steady (s) : Steady clk deep (sourceQualified s) ↔ Steady clk deep s := by
  simp [sourceQualified]

@[simp] theorem sourceLost_steady (s) : Steady clk deep (sourceLost s) ↔ Steady clk deep s := by
  simp [sourceLost]

/-! ## What TimeBase keeps -/

@[simp] theorem recordEdge_steady (n t s) (hs : Steady clk deep s) : Steady clk deep (recordEdge n t s) := by
  have enter (h : (vget s.tb.tcc n {}).fifo.length < 4) : Steady clk deep (onTb (fun b => { b with
      tcc := vmod b.tcc n (fun u => { u with fifo := u.fifo ++ [wholeNs t], lastEdge := some (s.absOf t) }) }) s) := by
    refine tcc_steady hs rfl rfl rfl fun u hu _ => ?_
    rw [vget, hu] at h
    simpa using h
  have lose : Steady clk deep (onTb (fun b => { b with tcc := vmod b.tcc n (fun u => { u with ovf := true }), tccOvf := true }) s) :=
    tcc_steady hs rfl rfl rfl fun _ _ h => h
  exact Steady.ite (fun _ => hs) fun _ => Steady.ite enter fun _ => by simpa using lose

@[simp] theorem captureEdge_steady (n t rising s) (hs : Steady clk deep s) : Steady clk deep (captureEdge n t rising s) := by
  simp [captureEdge, hs]

@[simp] theorem setPin_steady (k level t fall s) (hs : Steady clk deep s) : Steady clk deep (setPin k level t fall s) := by
  unfold setPin
  dsimp only
  split <;> simp [hs]

theorem execPinOutputFire_steady (k s) (hs : Steady clk deep s) : SteadyRes clk deep (execPinOutputFire k s) := by
  simp [execPinOutputFire, hs]

theorem execPulseEnd_steady (k s) (hs : Steady clk deep s) : SteadyRes clk deep (execPulseEnd k s) := by
  unfold execPulseEnd
  split <;> simp [hs]

theorem execAnchorAdvance_steady (s) (hs : Steady clk deep s) : SteadyRes clk deep (execAnchorAdvance s) := by
  simp [execAnchorAdvance, hs]

@[simp] theorem setMapping_steady (srcTai s) : Steady clk deep (setMapping srcTai s) ↔ Steady clk deep s := by
  simp [setMapping]

@[simp] theorem timeStep_steady (srcTai s) : Steady clk deep (timeStep srcTai s) ↔ Steady clk deep s := by
  simp [timeStep]

@[simp] theorem firstMapping_steady (srcTai s) : Steady clk deep (firstMapping srcTai s) ↔ Steady clk deep s := by
  simp [firstMapping]

@[simp] theorem reachLocked_steady (s) : Steady clk deep (reachLocked s) ↔ Steady clk deep s := by
  simp [reachLocked]

@[simp] theorem servoJudge_steady (f s) : Steady clk deep (servoJudge f s) ↔ Steady clk deep s := by
  unfold servoJudge
  dsimp only
  split <;> simp

@[simp] theorem takeMeasured_steady (s) : Steady clk deep (takeMeasured s) ↔ Steady clk deep s := by
  simp [takeMeasured]

theorem execServoUpdate_steady (s) (hs : Steady clk deep s) : SteadyRes clk deep (execServoUpdate s) := by
  unfold execServoUpdate
  split <;> simp [hs]

theorem execLossTimeout_steady (s) (hs : Steady clk deep s) : SteadyRes clk deep (execLossTimeout s) := by
  unfold execLossTimeout
  dsimp only
  repeat' split
  all_goals simp [hs]

@[simp] theorem runBmca_steady (s) : Steady clk deep (runBmca s) ↔ Steady clk deep s := by
  simp [runBmca]

@[simp] theorem setUtc_steady (off leap61 leap59 s) : Steady clk deep (setUtc off leap61 leap59 s) ↔ Steady clk deep s := by
  simp [setUtc]

@[simp] theorem takeUtc_steady (a s) : Steady clk deep (takeUtc a s) ↔ Steady clk deep s := by
  simp [takeUtc]

theorem execSourceLost_steady (s) (hs : Steady clk deep s) : SteadyRes clk deep (execSourceLost s) := by
  simp [execSourceLost, hs]

theorem execCaptureEdge_steady (n t rising pulse s) (hs : Steady clk deep s) : SteadyRes clk deep (execCaptureEdge n t rising pulse s) := by
  simp [execCaptureEdge, hs]

@[simp] theorem irigFault_steady (missing s) : Steady clk deep (irigFault missing s) ↔ Steady clk deep s := by
  unfold irigFault
  extract_lets n tb irig u
  have hu : Steady clk deep u ↔ Steady clk deep s := (raise_steady ..).trans (steady_set_tb _ _ ⟨rfl, rfl, rfl⟩)
  have hq : Steady clk deep { u with tb := { u.tb with irig := { u.tb.irig with qualified := false } } } ↔ Steady clk deep s := by
    rw [← hu]
    exact steady_congr (tbSteady_congr ⟨rfl, rfl, rfl⟩) rfl rfl rfl rfl
  split
  · split
    · exact (sourceLost_steady _).trans hq
    · exact hq
  · exact hu

@[simp] theorem irigUtc_steady (f s) : Steady clk deep (irigUtc f s) ↔ Steady clk deep s := by
  unfold irigUtc
  dsimp only
  repeat' split
  all_goals simp

theorem execIrigFrame_steady (f s) (hs : Steady clk deep s) : SteadyRes clk deep (execIrigFrame f s) := by
  unfold execIrigFrame
  split <;> simp [hs]

@[simp] theorem answerRead_steady (rq v s) : Steady clk deep (answerRead rq v s) ↔ Steady clk deep s :=
  steady_of_outside (answerRead_outside (by decide) ..)

@[simp] theorem readRs_steady (rq off v wide s) : Steady clk deep (readRs rq off v wide s) ↔ Steady clk deep s :=
  steady_of_outside (readRs_outside (by decide) ..)

@[simp] theorem hostRead_steady (rq) {f : State → State} (s) (hf : ∀ u, Steady clk deep u → Steady clk deep (f u)) (hs : Steady clk deep s) :
    SteadyRes clk deep (hostRead rq f s) := by
  simp [hostRead, hf, hs]

@[simp] theorem captureTake_steady (n s) (hs : Steady clk deep s) : Steady clk deep (captureTake n s).2 :=
  tcc_steady hs rfl rfl rfl fun _ _ h => (List.drop_sublist ..).length_le.trans h

theorem execCapturePop_steady (rq n wide s) (hs : Steady clk deep s) : SteadyRes clk deep (execCapturePop rq n wide s) :=
  hostRead_steady _ s (fun u hu => by simp [hu]) hs

@[simp] theorem txtsDrop_steady (p s) (hs : Steady clk deep s) : Steady clk deep (txtsDrop p s) :=
  txts_steady hs rfl rfl rfl fun _ _ h => (List.drop_sublist ..).length_le.trans h

theorem execTxtsPop_steady (rq p wide s) (hs : Steady clk deep s) : SteadyRes clk deep (execTxtsPop rq p wide s) :=
  hostRead_steady _ s (fun u hu => by simp [hu]) hs

@[simp] theorem txtsEnter_steady (p e s) (hs : Steady clk deep s) : Steady clk deep (txtsEnter p e s) := by
  refine Steady.ite (fun h => ?_) fun _ => ?_
  · refine txts_steady hs rfl rfl rfl fun q hq _ => ?_
    rw [vget, hq] at h
    simpa using h
  · rw [raise_steady]
    exact txts_steady hs rfl rfl rfl fun _ _ h => h

theorem execTbStagePtp_steady (c x s) (hs : Steady clk deep s) : SteadyRes clk deep (execTbStagePtp c x s) := by
  simp [execTbStagePtp, hs]

theorem execTbStageSources_steady (c x s) (hs : Steady clk deep s) : SteadyRes clk deep (execTbStageSources c x s) := by
  simp [execTbStageSources, hs]

theorem execTbStagePortLat_steady (c l s) (hs : Steady clk deep s) : SteadyRes clk deep (execTbStagePortLat c l s) := by
  simp [execTbStagePortLat, hs]

theorem execTbStagePins_steady (c x s) (hs : Steady clk deep s) : SteadyRes clk deep (execTbStagePins c x s) := by
  simp [execTbStagePins, hs]

theorem execTbStageTcuAssign_steady (c l s) (hs : Steady clk deep s) : SteadyRes clk deep (execTbStageTcuAssign c l s) := by
  simp [execTbStageTcuAssign, hs]

theorem execTbReadTime_steady (c s) (hs : Steady clk deep s) : SteadyRes clk deep (execTbReadTime c s) := by
  simp [execTbReadTime, hs]

/-! ## What GuardOps keeps -/

@[simp] theorem modRegion_steady (r f s) : Steady clk deep (modRegion r f s) ↔ Steady clk deep s := by
  simp [modRegion]

@[simp] theorem errorRecord_steady (e s) (hs : Steady clk deep s) : Steady clk deep (errorRecord e s) := by
  refine ⟨hs.tb, hs.edges, hs.eng, fun hd => ?_, hs.recs⟩
  have h := hs.errs hd
  unfold errorRecord onGrd
  dsimp only
  split
  · simpa using ‹_›
  · exact h

@[simp] theorem memoryGuardEvent_steady (s) : Steady clk deep (memoryGuardEvent s) ↔ Steady clk deep s := by
  simp [memoryGuardEvent]

@[simp] theorem guardUncorrectable_steady (r source reqTag h s) (hs : Steady clk deep s) :
    Steady clk deep (guardUncorrectable r source reqTag h s) := by
  simp [guardUncorrectable, hs]

@[simp] theorem guardCorrected_steady (r s) : Steady clk deep (guardCorrected r s) ↔ Steady clk deep s := by
  simp [guardCorrected]

@[simp] theorem guardRead_steady (r g s) : Steady clk deep (guardRead r g s).2 ↔ Steady clk deep s := by
  unfold guardRead
  split <;> simp

@[simp] theorem guardReads_steady (r l s) : Steady clk deep (guardReads r l s).2 ↔ Steady clk deep s := by
  refine steady_foldl_snd_iff _ (fun a e => ?_) _ _
  have h := guardRead_steady (clk := clk) (deep := deep) r (some e.2) a.2
  split <;> next he => rw [he] at h; exact h

@[simp] theorem tagRefused_steady (r s) : Steady clk deep (tagRefused r s) ↔ Steady clk deep s := by
  simp [tagRefused]

/-! ## What ReadyOps keeps -/

@[simp] theorem markPhase_steady (p stamp s) : Steady clk deep (markPhase p stamp s) ↔ Steady clk deep s :=
  steady_of_outside (markPhase_outside (by decide) ..)

@[simp] theorem phaseTen_steady (s) : Steady clk deep (phaseTen s) ↔ Steady clk deep s :=
  steady_of_outside (phaseTen_outside (by decide) ..)

@[simp] theorem readiness_steady (s) : Steady clk deep (readiness s) ↔ Steady clk deep s := by
  simp [readiness]

/-! ## What FailoverOps keeps -/

@[simp] theorem sendBrx_steady (mk s) : Steady clk deep (sendBrx mk s) ↔ Steady clk deep s :=
  steady_of_outside (sendBrx_outside (by decide) ..)

@[simp] theorem setGates_steady (s) : Steady clk deep (setGates s) ↔ Steady clk deep s :=
  steady_of_outside (setGates_outside (by decide) ..)

@[simp] theorem phaseEight_steady (s) : Steady clk deep (phaseEight s) ↔ Steady clk deep s :=
  steady_of_outside (phaseEight_outside (by decide) ..)

@[simp] theorem setRole_steady (r s) : Steady clk deep (setRole r s) ↔ Steady clk deep s := by
  simp [setRole]

@[simp] theorem raiseEMem_steady (e s) : Steady clk deep (raiseEMem e s) ↔ Steady clk deep s := by
  simp [raiseEMem]

@[simp] theorem seeClaim_steady (c s) : Steady clk deep (seeClaim c s) ↔ Steady clk deep s := by
  simp [seeClaim]

@[simp] theorem formClaim_steady (takeover s) : Steady clk deep (formClaim takeover s) ↔ Steady clk deep s := by
  simp [formClaim]

@[simp] theorem relinquish_steady (reason r s) : Steady clk deep (relinquish reason r s) ↔ Steady clk deep s := by
  simp [relinquish]

@[simp] theorem yieldClaim_steady (s) : Steady clk deep (yieldClaim s) ↔ Steady clk deep s := by
  simp [yieldClaim]

@[simp] theorem actOnTrigger_steady (s) : Steady clk deep (actOnTrigger s) ↔ Steady clk deep s := by
  simp [actOnTrigger]

@[simp] theorem triggerPresent_steady (n s) : Steady clk deep (triggerPresent n s) ↔ Steady clk deep s := by
  simp [triggerPresent]

@[simp] theorem setTrigger_steady (b enabled s) : Steady clk deep (setTrigger b enabled s) ↔ Steady clk deep s := by
  simp [setTrigger]

@[simp] theorem foGuardError_steady (s) : Steady clk deep (foGuardError s) ↔ Steady clk deep s := by
  simp [foGuardError]

@[simp] theorem foOverrun_steady (s) : Steady clk deep (foOverrun s) ↔ Steady clk deep s := by
  simp [foOverrun]

@[simp] theorem gatePop_steady (q s) : Steady clk deep (gatePop q s).2 ↔ Steady clk deep s :=
  steady_of_outside (gatePop_outside (by decide) ..)

/-! ## What PointOps keeps -/

@[simp] theorem noteBinary_steady (src at_ level pulse s) : Steady clk deep (noteBinary src at_ level pulse s) ↔ Steady clk deep s := by
  simp [noteBinary]

@[simp] theorem notePoint_steady (i s) : Steady clk deep (notePoint i s) ↔ Steady clk deep s := by
  unfold notePoint
  split <;> simp

@[simp] theorem pointDenied_steady (s) : Steady clk deep (pointDenied s) ↔ Steady clk deep s :=
  steady_of_outside (pointDenied_outside (by decide) ..)

@[simp] theorem readDenied_steady (s) : Steady clk deep (readDenied s) ↔ Steady clk deep s := by
  simp [readDenied]

@[simp] theorem gooseDetect_steady (i t before after) : Steady clk deep (gooseDetect i t before after) ↔ Steady clk deep after :=
  steady_of_outside (gooseDetect_outside (by decide) ..)

@[simp] theorem showWrite_steady (w s) : Steady clk deep (showWrite w s) ↔ Steady clk deep s := by
  unfold showWrite
  split
  · rfl
  · dsimp only
    split <;> simp

@[simp] theorem writePoint_steady (w s) : Steady clk deep (writePoint w s) ↔ Steady clk deep s := by
  simp [writePoint]

@[simp] theorem applyBatch_steady (b s) : Steady clk deep (applyBatch b s) ↔ Steady clk deep s := by
  simp [applyBatch]

@[simp] theorem cabFresh_steady (b s) : Steady clk deep (cabFresh b s) ↔ Steady clk deep s :=
  steady_of_outside (cabFresh_outside (by decide) ..)

@[simp] theorem offerBatch_steady (b s) : Steady clk deep (offerBatch b s) ↔ Steady clk deep s :=
  steady_of_outside (offerBatch_outside (by decide) ..)

@[simp] theorem sendBatch_steady (src l s) : Steady clk deep (sendBatch src l s) ↔ Steady clk deep s :=
  steady_of_outside (sendBatch_outside (by decide) ..)

@[simp] theorem offerHeld_steady (s) : Steady clk deep (offerHeld s) ↔ Steady clk deep s :=
  steady_of_outside (offerHeld_outside (by decide) ..)

@[simp] theorem dropBatches_steady (p s) : Steady clk deep (dropBatches p s) ↔ Steady clk deep s :=
  steady_of_outside (dropBatches_outside (by decide) ..)

@[simp] theorem applyOutput_steady (l s) : Steady clk deep (applyOutput l s) ↔ Steady clk deep s := by
  simp [applyOutput]

@[simp] theorem dropForce_steady (i s) : Steady clk deep (dropForce i s) ↔ Steady clk deep s :=
  steady_of_outside (dropForce_outside (by decide) ..)

@[simp] theorem bumpSeq_steady (i s) : Steady clk deep (bumpSeq i s) ↔ Steady clk deep s :=
  steady_of_outside (bumpSeq_outside (by decide) ..)

@[simp] theorem storeGuard_steady (o s) : Steady clk deep (storeGuard o s) ↔ Steady clk deep s := by
  simp [storeGuard]

@[simp] theorem pointBad_steady (i s) : Steady clk deep (pointBad i s) ↔ Steady clk deep s := by
  unfold pointBad
  split <;> simp

@[simp] theorem forceBad_steady (i s) : Steady clk deep (forceBad i s) ↔ Steady clk deep s := by
  unfold forceBad
  split <;> simp

@[simp] theorem pointGuards_steady (o l forces s) (hs : Steady clk deep s) : Steady clk deep (pointGuards o l forces s) := by
  unfold pointGuards
  exact steady_foldl _ (fun u e hu => by simp [hu]) _ ((guardReads_steady ..).mpr
    (steady_foldl _ (fun u e hu => by simp [hu]) _ ((guardReads_steady ..).mpr hs)))

/-! ## What TahrOps keeps -/

@[simp] theorem modTask_steady (o t f s) : Steady clk deep (modTask o t f s) ↔ Steady clk deep s := by
  simp [modTask]

@[simp] theorem modCl_steady (k f s) : Steady clk deep (modCl k f s) ↔ Steady clk deep s := by
  simp [modCl]

@[simp] theorem countCycle_steady (e cyc elapsed s) (hs : Steady clk deep s) : Steady clk deep (countCycle e cyc elapsed s) := by
  simp [countCycle, hs]

@[simp] theorem stepDone_steady (o s) : Steady clk deep (stepDone o s) ↔ Steady clk deep s := by
  simp [stepDone]

@[simp] theorem faultLimit_steady (o t s) : Steady clk deep (faultLimit o t s) ↔ Steady clk deep s := by
  unfold faultLimit
  dsimp only
  split <;> simp

@[simp] theorem serveReads_steady (s) : Steady clk deep (serveReads s) ↔ Steady clk deep s := by
  simp [serveReads]

@[simp] theorem countUnsent_steady (k n s) : Steady clk deep (countUnsent k n s) ↔ Steady clk deep s := by
  simp [countUnsent]

@[simp] theorem taskFault_steady (e cyc code addr pc instr elapsed s) (hs : Steady clk deep s) :
    Steady clk deep (taskFault e cyc code addr pc instr elapsed s) := by
  simp [taskFault, hs]

/-! ## What CycleOps keeps -/

@[simp] theorem skipTask_steady (o t s) : Steady clk deep (skipTask o t s) ↔ Steady clk deep s := by
  simp [skipTask]

@[simp] theorem releaseTask_steady (o t inst cycLt s) : Steady clk deep (releaseTask o t inst cycLt s) ↔ Steady clk deep s := by
  simp [releaseTask]

@[simp] theorem releasePeriodic_steady (t s) : Steady clk deep (releasePeriodic t s) ↔ Steady clk deep s := by
  simp [releasePeriodic]

@[simp] theorem releaseSample_steady (g k tag s) : Steady clk deep (releaseSample g k tag s) ↔ Steady clk deep s := by
  simp [releaseSample]

@[simp] theorem releaseTimed_steady (u o target s) : Steady clk deep (releaseTimed u o target s) ↔ Steady clk deep s := by
  simp [releaseTimed]

@[simp] theorem closeWindow_steady (e s) (hs : Steady clk deep s) : Steady clk deep (closeWindow e s) := by
  unfold closeWindow
  dsimp only
  repeat' split
  all_goals simp [hs]

@[simp] theorem closeDue_steady (s) (hs : Steady clk deep s) : Steady clk deep (closeDue s) :=
  steady_foldl _ (fun u e hu => by simp [hu]) _ hs

@[simp] theorem openWindows_steady (n s) (hs : Steady clk deep s) : Steady clk deep (openWindows n s) := by
  refine steady_foldl _ (fun u e hu => ?_) _ hs
  split <;> simp [hu]

@[simp] theorem dropLate_steady (b s) : Steady clk deep (dropLate b s) ↔ Steady clk deep s :=
  steady_of_outside (dropLate_outside (by decide) ..)

@[simp] theorem startFrame_steady (b s) (hs : Steady clk deep s) : Steady clk deep (startFrame b s) := by
  simp [startFrame, hs]

@[simp] theorem loseRelease_steady (o t inst s) : Steady clk deep (loseRelease o t inst s) ↔ Steady clk deep s := by
  simp [loseRelease]

@[simp] theorem cutFrame_steady (g t s) (hs : Steady clk deep s) : Steady clk deep (cutFrame g t s) := by
  unfold cutFrame
  dsimp only
  refine startFrame_steady _ _ ?_
  simp only [onFb_steady, modTcu_steady]
  refine steady_foldl _ (fun u n hu => ?_) _ ?_
  · refine steady_foldl _ (fun v k hv => ?_) _ hu
    simp [hv]
  · refine closeDue_steady _ ?_
    refine steady_foldl _ (fun u e hu => ?_) _ hs
    exact modEng_steady e _ (fun g hg => by split <;> exact hg) hu

@[simp] theorem armFrames_steady (s) : Steady clk deep (armFrames s) ↔ Steady clk deep s := by
  simp [armFrames]

@[simp] theorem loadEngine_steady (e s) (hs : Steady clk deep s) : Steady clk deep (loadEngine e s) :=
  modEng_steady _ _ (fun g hg => (congrArg List.length (foldl_stack _ (by simp) _ _)).trans_le hg) hs

@[simp] theorem reloadOwner_steady (o s) (hs : Steady clk deep s) : Steady clk deep (reloadOwner o s) := by
  unfold reloadOwner
  refine steady_foldl _ (fun u e hu => steady_foldl _ (fun v x hv => ?_) _ hu) _ hs
  exact modEng_steady _ _ (fun _ hg => hg) hv

@[simp] theorem modOwnerTasks_steady (o f s) : Steady clk deep (modOwnerTasks o f s) ↔ Steady clk deep s := by
  simp [modOwnerTasks]

@[simp] theorem stopInvalidate_steady (o t s) : Steady clk deep (stopInvalidate o t s) ↔ Steady clk deep s := by
  simp [stopInvalidate]

@[simp] theorem setRun_steady (o st' reason t s) : Steady clk deep (setRun o st' reason t s) ↔ Steady clk deep s := by
  simp [setRun]

@[simp] theorem runCold_steady (o reason t s) (hs : Steady clk deep s) : Steady clk deep (runCold o reason t s) := by
  simp [runCold, hs]

/-! ## What QueueOps keeps -/

@[simp] theorem modQ_steady (q f s) : Steady clk deep (modQ q f s) ↔ Steady clk deep s :=
  steady_of_outside (modQ_outside (by decide) ..)

@[simp] theorem openPacket_steady (q o header s) : Steady clk deep (openPacket q o header s).1 ↔ Steady clk deep s :=
  steady_of_outside (openPacket_outside (by decide) ..)

@[simp] theorem rewindOpen_steady (q hw s) : Steady clk deep (rewindOpen q hw s) ↔ Steady clk deep s :=
  steady_of_outside (rewindOpen_outside (by decide) ..)

@[simp] theorem writeUnit_steady (q bytes s) : Steady clk deep (writeUnit q bytes s) ↔ Steady clk deep s :=
  steady_of_outside (writeUnit_outside (by decide) ..)

@[simp] theorem endPacket_steady (q s) : Steady clk deep (endPacket q s).1 ↔ Steady clk deep s :=
  steady_of_outside (endPacket_outside (by decide) ..)

@[simp] theorem sendPacket_steady (q o header payload s) : Steady clk deep (sendPacket q o header payload s).1 ↔ Steady clk deep s :=
  steady_of_outside (sendPacket_outside (by decide) ..)

@[simp] theorem takePacket_steady (q s) : Steady clk deep (takePacket q s).2 ↔ Steady clk deep s :=
  steady_of_outside (takePacket_outside (by decide) ..)

@[simp] theorem queueGuard_steady (tag h s) (hs : Steady clk deep s) : Steady clk deep (queueGuard tag h s) := by
  simp [queueGuard, hs]

@[simp] theorem epochDiscard_steady (o s) : Steady clk deep (epochDiscard o s) ↔ Steady clk deep s :=
  steady_of_outside (epochDiscard_outside (by decide) ..)

/-! ## What Cyclic keeps -/

@[simp] theorem majorFrame_steady (s) (hs : Steady clk deep s) : Steady clk deep (majorFrame s) := by
  simp [majorFrame, hs]

theorem execMajorFrameStart_steady (s) (hs : Steady clk deep s) : SteadyRes clk deep (execMajorFrameStart s) := by
  simp [execMajorFrameStart, hs]

theorem execBaseTick_steady (s) (hs : Steady clk deep s) : SteadyRes clk deep (execBaseTick s) := by
  simp [execBaseTick, hs]

theorem execWindowEnd_steady (e s) (hs : Steady clk deep s) : SteadyRes clk deep (execWindowEnd e s) := by
  simp [execWindowEnd, hs]

@[simp] theorem importPoint_steady (o i s) : Steady clk deep (importPoint o i s).2 ↔ Steady clk deep s := by
  unfold importPoint
  split <;> simp

@[simp] theorem importAll_steady (o l s) : Steady clk deep (importAll o l s).2 ↔ Steady clk deep s := by
  induction l generalizing s with
  | nil => rfl
  | cons i l ih => exact (ih _).trans (importPoint_steady o i s)

@[simp] theorem startCycle_steady (e o t s) (hs : Steady clk deep s) : Steady clk deep (startCycle e o t s) := by
  simp [startCycle, hs]

theorem execCycleStart_steady (e s) (hs : Steady clk deep s) : SteadyRes clk deep (execCycleStart e s) := by
  unfold execCycleStart
  dsimp only
  repeat' split
  all_goals simp [hs]

theorem execSnapshotDone_steady (e s) (hs : Steady clk deep s) : SteadyRes clk deep (execSnapshotDone e s) := by
  unfold execSnapshotDone
  split <;> simp [hs]

@[simp] theorem openSends_steady (k o l s) : Steady clk deep (openSends k o l s).2.2 ↔ Steady clk deep s :=
  steady_of_outside (openSends_outside (by decide) ..)

theorem execOutputWrite_steady (e s) (hs : Steady clk deep s) : SteadyRes clk deep (execOutputWrite e s) := by
  unfold execOutputWrite
  split <;> simp [hs]

@[simp] theorem applyRun_steady (o c t s) (hs : Steady clk deep s) : Steady clk deep (applyRun o c t s) := by
  unfold applyRun
  split <;> simp [hs]

theorem execRunStateChange_steady (o s) (hs : Steady clk deep s) : SteadyRes clk deep (execRunStateChange o s) := by
  unfold execRunStateChange
  dsimp only
  repeat' split
  all_goals simp [hs]

@[simp] theorem rxDrop_steady (k o s) : Steady clk deep (rxDrop k o s) ↔ Steady clk deep s := by
  simp [rxDrop]

theorem execInboxDispatch_steady (k odd guard s) (hs : Steady clk deep s) : SteadyRes clk deep (execInboxDispatch k odd guard s) := by
  unfold execInboxDispatch
  dsimp only
  repeat' split
  all_goals simp [hs]

theorem execEngineReloadDone_steady (k s) (hs : Steady clk deep s) : SteadyRes clk deep (execEngineReloadDone k s) := by
  have load (l : List Nat) : Steady clk deep (l.foldl (fun s e => modEng e (fun g => { g with domain := .on }) (loadEngine e s)) s) :=
    steady_foldl _ (fun u e hu => by simp [hu]) _ hs
  simp [execEngineReloadDone, hs, load]

/-! ## What FbCommands keeps -/

theorem execFbStageCode_steady (c raw s) (hs : Steady clk deep s) : SteadyRes clk deep (execFbStageCode c raw s) := by
  unfold execFbStageCode
  split <;> simp [hs]

theorem execFbStageRxmap_steady (c l s) (hs : Steady clk deep s) : SteadyRes clk deep (execFbStageRxmap c l s) := by
  simp [execFbStageRxmap, hs]

theorem execFbStageSchedule_steady (c f l s) (hs : Steady clk deep s) : SteadyRes clk deep (execFbStageSchedule c f l s) := by
  simp [execFbStageSchedule, hs]

theorem execFbStageTasks_steady (c o l own s) (hs : Steady clk deep s) : SteadyRes clk deep (execFbStageTasks c o l own s) := by
  simp [execFbStageTasks, hs]

theorem execFbStageRetain_steady (c o l s) (hs : Steady clk deep s) : SteadyRes clk deep (execFbStageRetain c o l s) := by
  simp [execFbStageRetain, hs]

theorem execFbReadInst_steady (c e a n s) (hs : Steady clk deep s) : SteadyRes clk deep (execFbReadInst c e a n s) := by
  simp [execFbReadInst, hs]

theorem execFbReadFault_steady (c o e s) (hs : Steady clk deep s) : SteadyRes clk deep (execFbReadFault c o e s) := by
  simp [execFbReadFault, hs]

@[simp] theorem partFbReadCounters_steady (n s) (hs : Steady clk deep s) : Steady clk deep (partFbReadCounters n s).1 := by
  simp [partFbReadCounters, hs]

theorem execFbReadCounters_steady (c mask s) (hs : Steady clk deep s) : SteadyRes clk deep (execFbReadCounters c mask s) :=
  multi_steady _ _ _ _ s (fun n u hu => partFbReadCounters_steady n u hu) hs

@[simp] theorem requestRun_steady (op c o r s) : Steady clk deep (requestRun op c o r s).1 ↔ Steady clk deep s := by
  unfold requestRun
  dsimp only
  repeat' split
  all_goals simp

theorem execRunWarm_steady (c o s) (hs : Steady clk deep s) : SteadyRes clk deep (execRunWarm c o s) := by
  simp [execRunWarm, hs]

theorem execRunCold_steady (c o s) (hs : Steady clk deep s) : SteadyRes clk deep (execRunCold c o s) := by
  simp [execRunCold, hs]

theorem execFbRunCtrlStop_steady (c o s) (hs : Steady clk deep s) : SteadyRes clk deep (execFbRunCtrlStop c o s) := by
  simp [execFbRunCtrlStop, hs]

theorem execFbRunCtrlHold_steady (c o s) (hs : Steady clk deep s) : SteadyRes clk deep (execFbRunCtrlHold c o s) := by
  simp [execFbRunCtrlHold, hs]

theorem execFbStep_steady (c o t n s) (hs : Steady clk deep s) : SteadyRes clk deep (execFbStep c o t n s) := by
  simp [execFbStep, hs]

theorem execFbReadTasks_steady (c o s) (hs : Steady clk deep s) : SteadyRes clk deep (execFbReadTasks c o s) := by
  simp [execFbReadTasks, hs]

@[simp] theorem commitRegion_steady (t changed old x s) (hs : Steady clk deep s) : Steady clk deep (commitRegion t changed old x s) :=
  modEng_steady _ _ (fun _ hg => hg) hs

@[simp] theorem fbCommit_steady (t changed active s) (hs : Steady clk deep s) : Steady clk deep (fbCommit t changed active s) := by
  have drops (g : Engine) (hg : g.stack.length ≤ 16) (l : List Region) : (l.foldl (fun g r => dropCode r g) g).stack.length ≤ 16 :=
    (congrArg List.length (foldl_stack (fun g r => dropCode r g) (fun _ _ => rfl) l g)).trans_le hg
  have regions (u : State) (hu : Steady clk deep u) (l : List Nat) (before : State) (p : Region → Bool) (q : Tag × EngineEntry → Bool) :
      Steady clk deep (l.foldl (fun s e =>
        let old := getEng before e
        let s := modEng e (fun g => (old.regions.filter p).foldl (fun g r => dropCode r g) g) s
        let s := ((engineEntries s e).filter q).foldl (fun s x => commitRegion t changed old x s) s
        modEng e (fun g => { g with regions := regionsOf s e }) s) u) := by
    refine steady_foldl _ (fun v e hv => ?_) _ hu
    dsimp only
    refine modEng_steady _ _ (fun g hg => hg) (steady_foldl _ (fun w x hw => commitRegion_steady _ _ _ _ _ hw) _ ?_)
    exact modEng_steady _ _ (fun g hg => drops g hg _) hv
  have closed : Steady clk deep (onFb (fun x => { x with images := viewCode active }) (closeDue s)) := by simp [hs]
  unfold fbCommit
  dsimp only
  refine steady_foldl _ (fun u o hu => by simp [hu]) _ ?_
  simp only [onFb_steady]
  split
  · rw [modTcu_steady]
    exact regions _ closed (List.range 48) (closeDue s) _ _
  · exact regions _ closed (List.range 48) (closeDue s) _ _

/-! ## What FilterOps keeps -/

@[simp] theorem modLane_steady (l f s) : Steady clk deep (modLane l f s) ↔ Steady clk deep s :=
  steady_of_outside (modLane_outside (by decide) ..)

@[simp] theorem modTrk_steady (g f s) : Steady clk deep (modTrk g f s) ↔ Steady clk deep s :=
  steady_of_outside (modTrk_outside (by decide) ..)

@[simp] theorem feedLanes_steady (src i s) : Steady clk deep (feedLanes src i s) ↔ Steady clk deep s :=
  steady_of_outside (feedLanes_outside (by decide) ..)

@[simp] theorem restartChan_steady (c s) : Steady clk deep (restartChan c s) ↔ Steady clk deep s :=
  steady_of_outside (restartChan_outside (by decide) ..)

@[simp] theorem restartLane_steady (l t s) : Steady clk deep (restartLane l t s) ↔ Steady clk deep s :=
  steady_of_outside (restartLane_outside (by decide) ..)

@[simp] theorem restartLanes_steady (p t s) : Steady clk deep (restartLanes p t s) ↔ Steady clk deep s :=
  steady_of_outside (restartLanes_outside (by decide) ..)

@[simp] theorem setTrk_steady (g st' s) : Steady clk deep (setTrk g st' s) ↔ Steady clk deep s := by
  simp [setTrk]

@[simp] theorem startCycles_steady (g ltS s) : Steady clk deep (startCycles g ltS s) ↔ Steady clk deep s :=
  steady_of_outside (startCycles_outside (by decide) ..)

@[simp] theorem startTrk_steady (g c t s) : Steady clk deep (startTrk g c t s) ↔ Steady clk deep s := by
  simp [startTrk]

@[simp] theorem stopTrk_steady (g s) : Steady clk deep (stopTrk g s) ↔ Steady clk deep s := by
  simp [stopTrk]

@[simp] theorem offerEstimate_steady (c f good s) : Steady clk deep (offerEstimate c f good s) ↔ Steady clk deep s := by
  simp [offerEstimate]

@[simp] theorem frSecond_steady (ltS moved s) : Steady clk deep (frSecond ltS moved s) ↔ Steady clk deep s :=
  steady_of_outside (frSecond_outside (by decide) ..)

/-! ## What StreamOps keeps -/

@[simp] theorem modGroup_steady (g f s) : Steady clk deep (modGroup g f s) ↔ Steady clk deep s :=
  steady_of_outside (modGroup_outside (by decide) ..)

@[simp] theorem modSv_steady (n f s) : Steady clk deep (modSv n f s) ↔ Steady clk deep s :=
  steady_of_outside (modSv_outside (by decide) ..)

@[simp] theorem svCount_steady (n k s) : Steady clk deep (svCount n k s) ↔ Steady clk deep s :=
  steady_of_outside (svCount_outside (by decide) ..)

@[simp] theorem modSvOf_steady (old n f s) : Steady clk deep (modSvOf old n f s) ↔ Steady clk deep s :=
  steady_of_outside (modSvOf_outside (by decide) ..)

@[simp] theorem setSvState_steady (old n st' s) : Steady clk deep (setSvState old n st' s) ↔ Steady clk deep s := by
  simp [setSvState]

@[simp] theorem openGates_steady (p s) : Steady clk deep (openGates p s) ↔ Steady clk deep s := by
  simp [openGates]

@[simp] theorem judgeReady_steady (g s) : Steady clk deep (judgeReady g s) ↔ Steady clk deep s := by
  simp [judgeReady]

@[simp] theorem authFailed_steady (owner kind n denied s) : Steady clk deep (authFailed owner kind n denied s) ↔ Steady clk deep s := by
  simp [authFailed]

@[simp] theorem placeSample_steady (old n sec a rx s) : Steady clk deep (placeSample old n sec a rx s) ↔ Steady clk deep s :=
  steady_of_outside (placeSample_outside (by decide) ..)

@[simp] theorem takeAsdu_steady (old n rx a s) : Steady clk deep (takeAsdu old n rx a s) ↔ Steady clk deep s := by
  simp [takeAsdu]

@[simp] theorem takeSvFrame_steady (old n rx f s) : Steady clk deep (takeSvFrame old n rx f s) ↔ Steady clk deep s := by
  unfold takeSvFrame
  dsimp only
  split <;> simp

@[simp] theorem contribute_steady (gc i e s) : Steady clk deep (contribute gc i e s).2 ↔ Steady clk deep s := by
  unfold contribute
  dsimp only
  split <;> simp

@[simp] theorem feedStream_steady (tag c m s) : Steady clk deep (feedStream tag c m s) ↔ Steady clk deep s :=
  steady_of_outside (feedStream_outside (by decide) ..)

@[simp] theorem sendInstant_steady (g k tag l s) : Steady clk deep (sendInstant g k tag l s) ↔ Steady clk deep s := by
  simp [sendInstant]

@[simp] theorem releaseInstant_steady (g i tag l s) : Steady clk deep (releaseInstant g i tag l s) ↔ Steady clk deep s := by
  unfold releaseInstant
  dsimp only
  simp only [judgeReady_steady, sendInstant_steady]
  refine (steady_foldl_iff _ (fun u e => feedStream_steady ..) _ _).trans ?_
  simp only [onSe_steady, modGroup_steady]
  refine steady_foldl_snd_iff _ (fun a e => ?_) _ _
  have h := contribute_steady (clk := clk) (deep := deep) (groupCfgAt s g tag) i e a.2
  split <;> next he => rw [he] at h; exact h

@[simp] theorem modGs_steady (n f s) : Steady clk deep (modGs n f s) ↔ Steady clk deep s :=
  steady_of_outside (modGs_outside (by decide) ..)

@[simp] theorem takeGoose_steady (n rx f s) : Steady clk deep (takeGoose n rx f s) ↔ Steady clk deep s :=
  steady_of_outside (takeGoose_outside (by decide) ..)

@[simp] theorem modGp_steady (p f s) : Steady clk deep (modGp p f s) ↔ Steady clk deep s :=
  steady_of_outside (modGp_outside (by decide) ..)

@[simp] theorem followGoose_steady (p n s) : Steady clk deep (followGoose p n s) ↔ Steady clk deep s :=
  steady_of_outside (followGoose_outside (by decide) ..)

/-! ## What Failover keeps -/

@[simp] theorem brxGuard_steady (w s) (hs : Steady clk deep s) : Steady clk deep (brxGuard w s) := by
  refine steady_foldl _ (fun u x hu => ?_) _ hs
  split <;> simp [hu]

@[simp] theorem brxRx_steady (type w) {k : List Byte → List (Vector Byte 36) → State → State} (s)
    (hk : ∀ h p u, Steady clk deep u → Steady clk deep (k h p u)) (hs : Steady clk deep s) : SteadyRes clk deep (brxRx type w k s) := by
  unfold brxRx
  repeat' split
  all_goals simp [hk, hs]

@[simp] theorem measureOffset_steady (m t4 s) : Steady clk deep (measureOffset m t4 s) ↔ Steady clk deep s :=
  steady_of_outside (measureOffset_outside (by decide) ..)

@[simp] theorem endArbitration_steady (s) : Steady clk deep (endArbitration s) ↔ Steady clk deep s :=
  steady_of_outside (endArbitration_outside (by decide) ..)

@[simp] theorem arbitrate_steady (m s) : Steady clk deep (arbitrate m s) ↔ Steady clk deep s := by
  simp [arbitrate]

@[simp] theorem resolveSplit_steady (fresh m s) : Steady clk deep (resolveSplit fresh m s) ↔ Steady clk deep s := by
  simp [resolveSplit]

@[simp] theorem epochTry_steady (s) : Steady clk deep (epochTry s) ↔ Steady clk deep s := by
  simp [epochTry]

@[simp] theorem swapReplies_steady (m s) : Steady clk deep (swapReplies m s) ↔ Steady clk deep s := by
  simp [swapReplies]

theorem execHeartbeatRx_steady (w s) (hs : Steady clk deep s) : SteadyRes clk deep (execHeartbeatRx w s) :=
  brxRx_steady _ _ _ (fun h p u hu => by simp [hu]) hs

@[simp] theorem witnessTakeover_steady (s) : Steady clk deep (witnessTakeover s) ↔ Steady clk deep s := by
  simp [witnessTakeover]

@[simp] theorem losePartner_steady (s) : Steady clk deep (losePartner s) ↔ Steady clk deep s := by
  simp [losePartner]

theorem execPartnerLost_steady (s) (hs : Steady clk deep s) : SteadyRes clk deep (execPartnerLost s) := by
  simp [execPartnerLost, hs]

theorem execBrixigLinkState_steady (up s) (hs : Steady clk deep s) : SteadyRes clk deep (execBrixigLinkState up s) := by
  simp [execBrixigLinkState, hs]

theorem execWitnessClear_steady (s) (hs : Steady clk deep s) : SteadyRes clk deep (execWitnessClear s) := by
  simp [execWitnessClear, hs]

theorem execRelinquishRx_steady (w s) (hs : Steady clk deep s) : SteadyRes clk deep (execRelinquishRx w s) := by
  simp [execRelinquishRx, hs]

theorem execGooseStRx_steady (w s) (hs : Steady clk deep s) : SteadyRes clk deep (execGooseStRx w s) := by
  simp [execGooseStRx, hs]

@[simp] theorem modRx_steady (t f s) : Steady clk deep (modRx t f s) ↔ Steady clk deep s :=
  steady_of_outside (modRx_outside (by decide) ..)

theorem execReplRx_steady (w s) (hs : Steady clk deep s) : SteadyRes clk deep (execReplRx w s) := by
  simp [execReplRx, hs]

theorem execTasksRx_steady (w s) (hs : Steady clk deep s) : SteadyRes clk deep (execTasksRx w s) := by
  simp [execTasksRx, hs]

theorem execReplEndRx_steady (w s) (hs : Steady clk deep s) : SteadyRes clk deep (execReplEndRx w s) := by
  simp [execReplEndRx, hs]

@[simp] theorem writeWords_steady (e o l s) (hs : Steady clk deep s) : Steady clk deep (writeWords e o l s) := by
  simp [writeWords, hs]

@[simp] theorem writeChunks_steady (l s) (hs : Steady clk deep s) : Steady clk deep (writeChunks l s) := by
  unfold writeChunks
  refine steady_foldl _ (fun u k hu => writeWords_steady _ _ _ _ hu) _ ?_
  simpa using hs

@[simp] theorem alignTask_steady (x s) : Steady clk deep (alignTask x s) ↔ Steady clk deep s := by
  unfold alignTask
  split <;> simp

@[simp] theorem applyRepl_steady (e s) (hs : Steady clk deep s) : Steady clk deep (applyRepl e s) := by
  simp [applyRepl, hs]

theorem execReplApply_steady (s) (hs : Steady clk deep s) : SteadyRes clk deep (execReplApply s) := by
  unfold execReplApply
  split
  · simpa using hs
  · exact (steadyRes_next _).mpr (steady_foldl _ (fun u e hu => applyRepl_steady e u hu) _ hs)

theorem execDiscoveryTimeout_steady (s) (hs : Steady clk deep s) : SteadyRes clk deep (execDiscoveryTimeout s) := by
  unfold execDiscoveryTimeout
  split <;> simp [hs]

theorem execWatchdogExpiry_steady (s) (hs : Steady clk deep s) : SteadyRes clk deep (execWatchdogExpiry s) := by
  simp [execWatchdogExpiry, hs]

theorem execTimeSvTrigger_steady (s) (hs : Steady clk deep s) : SteadyRes clk deep (execTimeSvTrigger s) := by
  unfold execTimeSvTrigger
  split <;> simp [hs]

theorem execEpochResetWindow_steady (s) (hs : Steady clk deep s) : SteadyRes clk deep (execEpochResetWindow s) := by
  simp [execEpochResetWindow, hs]

@[simp] theorem doSwap_steady (w s) : Steady clk deep (doSwap w s) ↔ Steady clk deep s := by
  simp [doSwap]

theorem execSwapBoundary_steady (s) (hs : Steady clk deep s) : SteadyRes clk deep (execSwapBoundary s) := by
  simp [execSwapBoundary, hs]

theorem execFoStagePair_steady (c p s) (hs : Steady clk deep s) : SteadyRes clk deep (execFoStagePair c p s) := by
  simp [execFoStagePair, hs]

theorem execFoStageRepl_steady (c o l s) (hs : Steady clk deep s) : SteadyRes clk deep (execFoStageRepl c o l s) := by
  simp [execFoStageRepl, hs]

theorem execFoRelinquish_steady (c s) (hs : Steady clk deep s) : SteadyRes clk deep (execFoRelinquish c s) := by
  simp [execFoRelinquish, hs]

theorem execFoSwap_steady (c s) (hs : Steady clk deep s) : SteadyRes clk deep (execFoSwap c s) := by
  simp [execFoSwap, hs]

theorem execFoRearm_steady (c s) (hs : Steady clk deep s) : SteadyRes clk deep (execFoRearm c s) := by
  simp [execFoRearm, hs]

theorem execFoEpochReset_steady (c s) (hs : Steady clk deep s) : SteadyRes clk deep (execFoEpochReset c s) := by
  simp [execFoEpochReset, hs]

theorem execFoReadPair_steady (c s) (hs : Steady clk deep s) : SteadyRes clk deep (execFoReadPair c s) := by
  simp [execFoReadPair, hs]

@[simp] theorem foCommit_steady (active s) : Steady clk deep (foCommit active s) ↔ Steady clk deep s :=
  steady_of_outside (foCommit_outside (by decide) ..)

/-! ## What Cabinet keeps -/

@[simp] theorem modSeg_steady (g f s) : Steady clk deep (modSeg g f s) ↔ Steady clk deep s :=
  steady_of_outside (modSeg_outside (by decide) ..)

@[simp] theorem modStn_steady (g k f s) : Steady clk deep (modStn g k f s) ↔ Steady clk deep s :=
  steady_of_outside (modStn_outside (by decide) ..)

@[simp] theorem stnEvent_steady (g k s) : Steady clk deep (stnEvent g k s) ↔ Steady clk deep s := by
  simp [stnEvent]

@[simp] theorem viaQueue_steady (q header bytes s) : Steady clk deep (viaQueue q header bytes s).2 ↔ Steady clk deep s :=
  steady_of_outside (viaQueue_outside (by decide) ..)

@[simp] theorem sendCab_steady (g f s) : Steady clk deep (sendCab g f s) ↔ Steady clk deep s :=
  steady_of_outside (sendCab_outside (by decide) ..)

@[simp] theorem cabDiscard_steady (g s) : Steady clk deep (cabDiscard g s) ↔ Steady clk deep s :=
  steady_of_outside (cabDiscard_outside (by decide) ..)

@[simp] theorem hearCab_steady (g type rxLt f) {k : CabFrame → State → State} (s) (hk : ∀ c u, Steady clk deep u → Steady clk deep (k c u))
    (hs : Steady clk deep s) : SteadyRes clk deep (hearCab g type rxLt f k s) := by
  have h := (viaQueue_steady (clk := clk) (deep := deep) (0x16 + g.val)
    (noticeBytes s (0x16 + g.val) rxLt (rxStatusWord 0 0 f.codeErr false false) (0x10 + g.val) 0 0 false) f.bytes s).mpr hs
  unfold hearCab
  dsimp only
  split
  · simpa using hs
  · split
    · simp [hs]
    · split
      · simpa using hs
      · split <;> next he => rw [he] at h; simp [h, hk]

@[simp] theorem stnInvalid_steady (g k s) : Steady clk deep (stnInvalid g k s) ↔ Steady clk deep s := by
  unfold stnInvalid
  split <;> simp

@[simp] theorem nowAbsent_steady (g k s) : Steady clk deep (nowAbsent g k s) ↔ Steady clk deep s := by
  simp [nowAbsent]

@[simp] theorem countMiss_steady (g k s) : Steady clk deep (countMiss g k s) ↔ Steady clk deep s := by
  simp [countMiss]

theorem execStationAbsent_steady (g k s) (hs : Steady clk deep s) : SteadyRes clk deep (execStationAbsent g k s) := by
  unfold execStationAbsent
  split <;> simp [hs]

@[simp] theorem setPlca_steady (g s) : Steady clk deep (setPlca g s) ↔ Steady clk deep s :=
  steady_of_outside (setPlca_outside (by decide) ..)

@[simp] theorem closeCycle_steady (g s) : Steady clk deep (closeCycle g s) ↔ Steady clk deep s := by
  simp [closeCycle]

@[simp] theorem enterMode_steady (slotted reason g s) : Steady clk deep (enterMode slotted reason g s) ↔ Steady clk deep s := by
  simp [enterMode]

@[simp] theorem startDiscovery_steady (t0 g s) : Steady clk deep (startDiscovery t0 g s) ↔ Steady clk deep s :=
  steady_of_outside (startDiscovery_outside (by decide) ..)

@[simp] theorem cycleMode_steady (t0 g s) : Steady clk deep (cycleMode t0 g s) ↔ Steady clk deep s := by
  unfold cycleMode
  dsimp only
  repeat' split
  all_goals simp

@[simp] theorem buildImage_steady (g s) : Steady clk deep (buildImage g s) ↔ Steady clk deep s :=
  steady_of_outside (buildImage_outside (by decide) ..)

@[simp] theorem segTick_steady (t0 g s) : Steady clk deep (segTick t0 g s) ↔ Steady clk deep s := by
  simp [segTick]

theorem execCabinetCycleStart_steady (s) (hs : Steady clk deep s) : SteadyRes clk deep (execCabinetCycleStart s) := by
  simp [execCabinetCycleStart, hs]

@[simp] theorem stationClaim_steady (c s) : Steady clk deep (stationClaim c s) ↔ Steady clk deep s := by
  simp [stationClaim]

@[simp] theorem takeReport_steady (g c f rxLt s) : Steady clk deep (takeReport g c f rxLt s) ↔ Steady clk deep s := by
  simp [takeReport]

theorem execReportReceive_steady (g f rxLt s) (hs : Steady clk deep s) : SteadyRes clk deep (execReportReceive g f rxLt s) := by
  refine hearCab_steady _ _ _ _ _ (fun f u hu => ?_) hs
  dsimp only
  split <;> simp [hu]

@[simp] theorem reassign_steady (g old s) : Steady clk deep (reassign g old s) ↔ Steady clk deep s :=
  steady_of_outside (reassign_outside (by decide) ..)

theorem execAnnounceReceive_steady (g f rxLt s) (hs : Steady clk deep s) : SteadyRes clk deep (execAnnounceReceive g f rxLt s) := by
  refine hearCab_steady _ _ _ _ _ (fun f u hu => ?_) hs
  dsimp only
  split <;> simp [hu]

theorem execSlottedStartupEnd_steady (g s) (hs : Steady clk deep s) : SteadyRes clk deep (execSlottedStartupEnd g s) := by
  simp [execSlottedStartupEnd, hs]

theorem execFoStageCabinet_steady (c x s) (hs : Steady clk deep s) : SteadyRes clk deep (execFoStageCabinet c x s) := by
  simp [execFoStageCabinet, hs]

theorem cabMode_steady (c g test s) (hs : Steady clk deep s) : SteadyRes clk deep (cabMode c g test s) := by
  simp [cabMode, hs]

theorem execFoCabModeTest_steady (c g s) (hs : Steady clk deep s) : SteadyRes clk deep (execFoCabModeTest c g s) :=
  cabMode_steady _ _ _ _ hs

theorem execFoCabModeNormal_steady (c g s) (hs : Steady clk deep s) : SteadyRes clk deep (execFoCabModeNormal c g s) :=
  cabMode_steady _ _ _ _ hs

@[simp] theorem unassign_steady (g k s) : Steady clk deep (unassign g k s) ↔ Steady clk deep s := by
  simp [unassign]

@[simp] theorem partFoCabRediscover_steady (n s) : Steady clk deep (partFoCabRediscover n s).1 ↔ Steady clk deep s := by
  simp [partFoCabRediscover]

theorem execFoCabRediscover_steady (c mask s) (hs : Steady clk deep s) : SteadyRes clk deep (execFoCabRediscover c mask s) := by
  simp [execFoCabRediscover, hs]

@[simp] theorem segCommit_steady (g new s) : Steady clk deep (segCommit g new s) ↔ Steady clk deep s := by
  simp [segCommit]

@[simp] theorem cabCommit_steady (t active s) : Steady clk deep (cabCommit t active s) ↔ Steady clk deep s := by
  simp [cabCommit]

/-! ## What Compare keeps -/

@[simp] theorem compareFire_steady (k s) : Steady clk deep (compareFire k s) ↔ Steady clk deep s := by
  unfold compareFire
  dsimp only
  split <;> simp

@[simp] theorem deliverDue_steady (k s) : Steady clk deep (deliverDue k s) ↔ Steady clk deep s := by
  simp [deliverDue]

theorem execCompareFire_steady (n s) (hs : Steady clk deep s) : SteadyRes clk deep (execCompareFire n s) := by
  simp [execCompareFire, hs]

theorem execTbTcuArm_steady (c n target periodic period s) (hs : Steady clk deep s) :
    SteadyRes clk deep (execTbTcuArm c n target periodic period s) := by
  unfold execTbTcuArm
  dsimp only
  repeat' split
  all_goals simp [hs]

theorem execTbTcuDisarm_steady (c n s) (hs : Steady clk deep s) : SteadyRes clk deep (execTbTcuDisarm c n s) := by
  simp [execTbTcuDisarm, hs]

/-! ## What FabricOps keeps -/

@[simp] theorem modSw_steady (n f s) : Steady clk deep (modSw n f s) ↔ Steady clk deep s :=
  steady_of_outside (modSw_outside (by decide) ..)

@[simp] theorem swCount_steady (n k s) : Steady clk deep (swCount n k s) ↔ Steady clk deep s :=
  steady_of_outside (swCount_outside (by decide) ..)

@[simp] theorem modPx_steady (n f s) : Steady clk deep (modPx n f s) ↔ Steady clk deep s :=
  steady_of_outside (modPx_outside (by decide) ..)

@[simp] theorem pxCountBy_steady (n k a s) : Steady clk deep (pxCountBy n k a s) ↔ Steady clk deep s :=
  steady_of_outside (pxCountBy_outside (by decide) ..)

@[simp] theorem pxCount_steady (n k s) : Steady clk deep (pxCount n k s) ↔ Steady clk deep s :=
  steady_of_outside (pxCount_outside (by decide) ..)

@[simp] theorem mirrorEvent_steady (event rxLt f len inPort cls dest multi ecn rxStatus s) :
    Steady clk deep (mirrorEvent event rxLt f len inPort cls dest multi ecn rxStatus s) ↔ Steady clk deep s := by
  simp [mirrorEvent]

@[simp] theorem mirrorCopy_steady (event p c s) : Steady clk deep (mirrorCopy event p c s) ↔ Steady clk deep s := by
  simp [mirrorCopy]

@[simp] theorem learn_steady (p f v s) : Steady clk deep (learn p f v s) ↔ Steady clk deep s := by
  unfold learn
  dsimp only
  repeat' split
  all_goals simp

@[simp] theorem notePeak_steady (m s) : Steady clk deep (notePeak m s) ↔ Steady clk deep s :=
  steady_of_outside (notePeak_outside (by decide) ..)

@[simp] theorem admitCopy_steady (p c s) : Steady clk deep (admitCopy p c s).1 ↔ Steady clk deep s := by
  simp [admitCopy]

@[simp] theorem allRefused_steady (rxPort inPort s) : Steady clk deep (allRefused rxPort inPort s) ↔ Steady clk deep s :=
  steady_of_outside (allRefused_outside (by decide) ..)

@[simp] theorem fabricIn_steady (rxPort f e s) : Steady clk deep (fabricIn rxPort f e s) ↔ Steady clk deep s := by
  unfold fabricIn
  extract_lets n mask u
  have hu : Steady clk deep u ↔ Steady clk deep s := mirrorEvent_steady ..
  split
  · rfl
  · split
    · simp
    · split
      · simp [hu]
      · next fid sw v dests r _ _ _ =>
        have hr : Steady clk deep r.1 ↔ Steady clk deep v := by
          refine steady_foldl_fst_iff _ (fun a p => ?_) _ _
          exact admitCopy_steady ..
        have hv : Steady clk deep v ↔ Steady clk deep s := (steady_set_sw ..).trans hu
        split <;> simp [hr, hv]

@[simp] theorem flushPort_steady (p s) : Steady clk deep (flushPort p s) ↔ Steady clk deep s := by
  simp [flushPort]

@[simp] theorem enterDown_steady (p s) : Steady clk deep (enterDown p s) ↔ Steady clk deep s := by
  simp [enterDown]

@[simp] theorem fabricLinkDown_steady (p s) : Steady clk deep (fabricLinkDown p s) ↔ Steady clk deep s := by
  unfold fabricLinkDown
  split <;> simp

@[simp] theorem fabricLinkUp_steady (p s) : Steady clk deep (fabricLinkUp p s) ↔ Steady clk deep s :=
  steady_of_outside (fabricLinkUp_outside (by decide) ..)

@[simp] theorem fabricFollow_steady (q up s) : Steady clk deep (fabricFollow q up s) ↔ Steady clk deep s := by
  simp [fabricFollow]

@[simp] theorem fabricLink_steady (p s) : Steady clk deep (fabricLink p s) ↔ Steady clk deep s := by
  simp [fabricLink]

/-! ## What PortOps keeps -/

@[simp] theorem pxCtrReset_steady (n s) : Steady clk deep (pxCtrReset n s) ↔ Steady clk deep s :=
  steady_of_outside (pxCtrReset_outside (by decide) ..)

@[simp] theorem pauseAccount_steady (p s) : Steady clk deep (pauseAccount p s) ↔ Steady clk deep s :=
  steady_of_outside (pauseAccount_outside (by decide) ..)

@[simp] theorem clearPause_steady (p s) : Steady clk deep (clearPause p s) ↔ Steady clk deep s :=
  steady_of_outside (clearPause_outside (by decide) ..)

@[simp] theorem linkChanged_steady (p s) : Steady clk deep (linkChanged p s) ↔ Steady clk deep s := by
  simp [linkChanged]

@[simp] theorem setLink_steady (p up pcs fec s) : Steady clk deep (setLink p up pcs fec s) ↔ Steady clk deep s := by
  simp [setLink]

@[simp] theorem modPair_steady (k f s) : Steady clk deep (modPair k f s) ↔ Steady clk deep s :=
  steady_of_outside (modPair_outside (by decide) ..)

@[simp] theorem proxyLearn_steady (k m s) : Steady clk deep (proxyLearn k m s) ↔ Steady clk deep s := by
  simp [proxyLearn]

@[simp] theorem filterFrame_steady (p f s) : Steady clk deep (filterFrame p f s).1 ↔ Steady clk deep s :=
  steady_of_outside (filterFrame_outside (by decide) ..)

@[simp] theorem tapCopy_steady (f rxLt s) : Steady clk deep (tapCopy f rxLt s) ↔ Steady clk deep s :=
  steady_of_outside (tapCopy_outside (by decide) ..)

/-! ## What Macsec keeps -/

@[simp] theorem macsecRx_steady (p f rxLt s) : Steady clk deep (macsecRx p f rxLt s).1 ↔ Steady clk deep s :=
  steady_of_outside (macsecRx_outside (by decide) ..)

@[simp] theorem pnReached_steady (p s) : Steady clk deep (pnReached p s) ↔ Steady clk deep s := by
  simp [pnReached]

@[simp] theorem macsecTx_steady (p f s) : Steady clk deep (macsecTx p f s).1 ↔ Steady clk deep s := by
  unfold macsecTx
  dsimp only
  repeat' split
  all_goals simp

@[simp] theorem reloadSas_steady (n s) : Steady clk deep (reloadSas n s) ↔ Steady clk deep s :=
  steady_of_outside (reloadSas_outside (by decide) ..)

@[simp] theorem purgeSas_steady (slots s) : Steady clk deep (purgeSas slots s) ↔ Steady clk deep s :=
  steady_of_outside (purgeSas_outside (by decide) ..)

@[simp] theorem dropPurged_steady (p s) : Steady clk deep (dropPurged p s) ↔ Steady clk deep s :=
  steady_of_outside (dropPurged_outside (by decide) ..)

@[simp] theorem useBank_steady (b s) : Steady clk deep (useBank b s) ↔ Steady clk deep s :=
  steady_of_outside (useBank_outside (by decide) ..)

@[simp] theorem underBank_steady (b) {f : State → State} (s) (hf : ∀ u, Steady clk deep u → Steady clk deep (f u)) (hs : Steady clk deep s) :
    Steady clk deep (underBank b f s) := by
  simp [underBank, hf, hs]

/-! ## What Ptp keeps -/

@[simp] theorem modPtp_steady (p f s) : Steady clk deep (modPtp p f s) ↔ Steady clk deep s := by
  simp [modPtp]

@[simp] theorem ownDepart_steady (p t f s) : Steady clk deep (ownDepart p t f s).2 ↔ Steady clk deep s := by
  simp [ownDepart]

@[simp] theorem residenceDepart_steady (p t f rxLt s) : Steady clk deep (residenceDepart p t f rxLt s).2 ↔ Steady clk deep s := by
  unfold residenceDepart
  dsimp only
  repeat' split
  all_goals simp

@[simp] theorem ptpDepart_steady (p ring f rxLt s) : Steady clk deep (ptpDepart p ring f rxLt s).2 ↔ Steady clk deep s := by
  unfold ptpDepart
  split <;> simp

@[simp] theorem ptpSend_steady (p t twoStep flags corr seq log body s) :
    Steady clk deep (ptpSend p t twoStep flags corr seq log body s) ↔ Steady clk deep s :=
  steady_of_outside (ptpSend_outside (by decide) ..)

@[simp] theorem ptpNextSeq_steady (p k s) : Steady clk deep (ptpNextSeq p k s).2 ↔ Steady clk deep s := by
  simp [ptpNextSeq]

@[simp] theorem ptpFollow_steady (p c t s) : Steady clk deep (ptpFollow p c t s) ↔ Steady clk deep s := by
  unfold ptpFollow
  dsimp only
  repeat' split
  all_goals simp

@[simp] theorem ptpRespond_steady (p c t s) : Steady clk deep (ptpRespond p c t s) ↔ Steady clk deep s := by
  unfold ptpRespond
  dsimp only
  split <;> simp

theorem execPtpMessageTx_steady (p t s) (hs : Steady clk deep s) : SteadyRes clk deep (execPtpMessageTx p t s) := by
  unfold execPtpMessageTx
  dsimp only
  repeat' split
  all_goals simp [hs]

@[simp] theorem offsetMeasured_steady (p rx origin corr s) : Steady clk deep (offsetMeasured p rx origin corr s) ↔ Steady clk deep s := by
  simp [offsetMeasured]

theorem execPtpMessageRx_steady (p m rxLt s) (hs : Steady clk deep s) : SteadyRes clk deep (execPtpMessageRx p m rxLt s) := by
  unfold execPtpMessageRx
  dsimp only
  repeat' split
  all_goals simp [hs]

/-! ## What Ports keeps -/

@[simp] theorem badFrame_steady (p f c limit rxLt s) : Steady clk deep (badFrame p f c limit rxLt s) ↔ Steady clk deep s := by
  simp [badFrame]

@[simp] theorem goodCounters_steady (p f inner s) : Steady clk deep (goodCounters p f inner s) ↔ Steady clk deep s :=
  steady_of_outside (goodCounters_outside (by decide) ..)

@[simp] theorem macControl_steady (p f s) : Steady clk deep (macControl p f s) ↔ Steady clk deep s :=
  steady_of_outside (macControl_outside (by decide) ..)

@[simp] theorem redundancyRx_steady (p f rxLt tie s) : Steady clk deep (redundancyRx p f rxLt tie s).1 ↔ Steady clk deep s :=
  steady_of_outside (redundancyRx_outside (by decide) ..)

@[simp] theorem frameForward_steady (p f rxLt tagged codeErr bits s) :
    Steady clk deep (frameForward p f rxLt tagged codeErr bits s) ↔ Steady clk deep s := by
  unfold frameForward
  dsimp only
  split <;> simp

@[simp] theorem receiveFrame_steady (p f rxLt tie s) : Steady clk deep (receiveFrame p f rxLt tie s) ↔ Steady clk deep s := by
  unfold receiveFrame
  split
  · rfl
  · extract_lets limit c stamp u v w
    have hv : Steady clk deep v ↔ Steady clk deep s := by
      have hu : Steady clk deep u ↔ Steady clk deep s := pxCountBy_steady ..
      unfold v
      split <;> simp [hu]
    have hw : Steady clk deep w ↔ Steady clk deep s := (goodCounters_steady ..).trans hv
    split
    · simp [hv]
    · split
      · simp [hw]
      · have hm := macsecRx_steady (clk := clk) (deep := deep) p f rxLt w
        split
        next he => rw [he] at hm; exact hm.trans hw
        next x g bits he =>
          rw [he] at hm
          have hr := redundancyRx_steady (clk := clk) (deep := deep) p g stamp tie x
          split <;> next hf => rw [hf] at hr; simpa using hr.trans (hm.trans hw)

theorem execFrameReceive_steady (p f rxLt tie s) (hs : Steady clk deep s) : SteadyRes clk deep (execFrameReceive p f rxLt tie s) := by
  unfold execFrameReceive
  repeat' split
  all_goals simp [hs]

@[simp] theorem cellGuard_steady (reqTag h s) (hs : Steady clk deep s) : Steady clk deep (cellGuard reqTag h s) := by
  simp [cellGuard, hs]

@[simp] theorem dropCopy_steady (p q s) : Steady clk deep (dropCopy p q s) ↔ Steady clk deep s :=
  steady_of_outside (dropCopy_outside (by decide) ..)

@[simp] theorem startOn_steady (p ring f rxLt tsReq tsId s) (hs : Steady clk deep s) :
    Steady clk deep (startOn p ring f rxLt tsReq tsId s) := by
  have hd := (ptpDepart_steady (clk := clk) (deep := deep) p ring f rxLt s).mpr hs
  unfold startOn
  split
  next f u he =>
  rw [he] at hd
  have hm := (macsecTx_steady (clk := clk) (deep := deep) p f u).mpr hd
  split
  next hf => rw [hf] at hm; exact hm
  next hf =>
    rw [hf] at hm
    split
    · simpa using hm
    · dsimp only
      split <;> simp [hm]

@[simp] theorem startCopy_steady (p c s) (hs : Steady clk deep s) : Steady clk deep (startCopy p c s) := by
  unfold startCopy
  dsimp only
  rw [steady_ite, mirrorCopy_steady, modSw_steady, ite_self]
  refine steady_foldl _ (fun u q hu => startOn_steady _ _ _ _ _ _ _ hu) _ ?_
  split
  · dsimp only
    split <;> simp [hs]
  · simp [hs]

@[simp] theorem guardDrop_steady (p c h s) (hs : Steady clk deep s) : Steady clk deep (guardDrop p c h s) := by
  simp [guardDrop, hs]

@[simp] theorem startRing_steady {k p : Nat} {s t : State} (h : startRing k p s = some t) (hs : Steady clk deep s) : Steady clk deep t := by
  unfold startRing at h
  split at h
  · cases h
    simp [hs]
  · nomatch h

theorem execTransmitStart_steady (p guard s) (hs : Steady clk deep s) : SteadyRes clk deep (execTransmitStart p guard s) := by
  unfold execTransmitStart
  extract_lets p ring free
  have hring (u) (hr : ring = some u) : Steady clk deep u := by
    unfold ring at hr
    split at hr
    · split at hr
      · exact startRing_steady hr hs
      · nomatch hr
    · nomatch hr
  clear_value ring
  split
  · simpa using hs
  · split
    next u => simp [hring u rfl]
    next =>
      have hg := (guardRead_steady (clk := clk) (deep := deep) 0x2 guard s).mpr hs
      split
      · simpa using hs
      · split
        · simpa using hs
        · split
          · simpa using hs
          · split
            next g u he =>
            rw [he] at hg
            split
            · simp [hg]
            · split <;> simp [hg]

@[simp] theorem txCounters_steady (p t s) : Steady clk deep (txCounters p t s) ↔ Steady clk deep s :=
  steady_of_outside (txCounters_outside (by decide) ..)

@[simp] theorem copyDone_steady (p s) : Steady clk deep (copyDone p s) ↔ Steady clk deep s :=
  steady_of_outside (copyDone_outside (by decide) ..)

theorem execTransmitEnd_steady (p guard s) (hs : Steady clk deep s) : SteadyRes clk deep (execTransmitEnd p guard s) := by
  unfold execTransmitEnd
  dsimp only
  repeat' split
  all_goals simp [hs]

@[simp] theorem sendFault_steady (p old s) : Steady clk deep (sendFault p old s) ↔ Steady clk deep s :=
  steady_of_outside (sendFault_outside (by decide) ..)

theorem execLinkStateChange_steady (p pcs fec fault unsupported s) (hs : Steady clk deep s) :
    SteadyRes clk deep (execLinkStateChange p pcs fec fault unsupported s) := by
  simp [execLinkStateChange, hs]

theorem execPxStagePort_steady (c p x s) (hs : Steady clk deep s) : SteadyRes clk deep (execPxStagePort c p x s) := by
  simp [execPxStagePort, hs]

theorem execPxStageFilter_steady (c p l s) (hs : Steady clk deep s) : SteadyRes clk deep (execPxStageFilter c p l s) := by
  simp [execPxStageFilter, hs]

theorem execPxStageRedundancy_steady (c pair x s) (hs : Steady clk deep s) : SteadyRes clk deep (execPxStageRedundancy c pair x s) := by
  simp [execPxStageRedundancy, hs]

theorem execPxStageMacsec_steady (c p x s) (hs : Steady clk deep s) : SteadyRes clk deep (execPxStageMacsec c p x s) := by
  simp [execPxStageMacsec, hs]

theorem execPxMacsecSaSet_steady (c p rxChan an sa s) (hs : Steady clk deep s) :
    SteadyRes clk deep (execPxMacsecSaSet c p rxChan an sa s) := by
  refine command_steady _ _ _ _ (fun u hu => ?_) hs
  repeat' split
  all_goals simp [hu]

theorem execPxMacsecTxAn_steady (c p an s) (hs : Steady clk deep s) : SteadyRes clk deep (execPxMacsecTxAn c p an s) := by
  simp [execPxMacsecTxAn, hs]

@[simp] theorem advertise_steady (p s) : Steady clk deep (advertise p s) ↔ Steady clk deep s :=
  steady_of_outside (advertise_outside (by decide) ..)

@[simp] theorem retrain_steady (p s) : Steady clk deep (retrain p s) ↔ Steady clk deep s := by
  simp [retrain]

@[simp] theorem portOff_steady (p s) : Steady clk deep (portOff p s) ↔ Steady clk deep s := by
  simp [portOff]

@[simp] theorem partPxPortRestart_steady (n s) : Steady clk deep (partPxPortRestart n s).1 ↔ Steady clk deep s := by
  simp [partPxPortRestart]

theorem execPxPortRestart_steady (c mask s) (hs : Steady clk deep s) : SteadyRes clk deep (execPxPortRestart c mask s) := by
  simp [execPxPortRestart, hs]

@[simp] theorem partPxReadCounters_steady (c n s) : Steady clk deep (partPxReadCounters c n s).1 ↔ Steady clk deep s :=
  steady_of_outside (partPxReadCounters_outside (by decide) ..)

theorem execPxReadCounters_steady (c mask s) (hs : Steady clk deep s) : SteadyRes clk deep (execPxReadCounters c mask s) := by
  simp [execPxReadCounters, hs]

/-! ## What Fabric keeps -/

theorem execTransmitQueueEntry_steady (p cls guard s) (hs : Steady clk deep s) : SteadyRes clk deep (execTransmitQueueEntry p cls guard s) := by
  unfold execTransmitQueueEntry
  dsimp only
  repeat' split
  all_goals simp [hs]

theorem execHoldExpiry_steady (p back s) (hs : Steady clk deep s) : SteadyRes clk deep (execHoldExpiry p back s) := by
  unfold execHoldExpiry
  dsimp only
  split <;> simp [hs]

theorem execMaxAgeExpiry_steady (p cls s) (hs : Steady clk deep s) : SteadyRes clk deep (execMaxAgeExpiry p cls s) := by
  unfold execMaxAgeExpiry
  dsimp only
  split <;> simp [hs]

theorem execSwStageLimits_steady (c l s) (hs : Steady clk deep s) : SteadyRes clk deep (execSwStageLimits c l s) := by
  simp [execSwStageLimits, hs]

theorem execSwStageFdb_steady (c l s) (hs : Steady clk deep s) : SteadyRes clk deep (execSwStageFdb c l s) := by
  simp [execSwStageFdb, hs]

theorem execSwStageVlan_steady (c l s) (hs : Steady clk deep s) : SteadyRes clk deep (execSwStageVlan c l s) := by
  simp [execSwStageVlan, hs]

theorem execSwStagePorts_steady (c x s) (hs : Steady clk deep s) : SteadyRes clk deep (execSwStagePorts c x s) := by
  simp [execSwStagePorts, hs]

theorem execSwStageMirror_steady (c x s) (hs : Steady clk deep s) : SteadyRes clk deep (execSwStageMirror c x s) := by
  simp [execSwStageMirror, hs]

@[simp] theorem partSwReadCounters_steady (c n s) : Steady clk deep (partSwReadCounters c n s).1 ↔ Steady clk deep s :=
  steady_of_outside (partSwReadCounters_outside (by decide) ..)

theorem execSwReadCounters_steady (c mask s) (hs : Steady clk deep s) : SteadyRes clk deep (execSwReadCounters c mask s) := by
  simp [execSwReadCounters, hs]

@[simp] theorem partSwFdbFlush_steady (n s) : Steady clk deep (partSwFdbFlush n s).1 ↔ Steady clk deep s :=
  steady_of_outside (partSwFdbFlush_outside (by decide) ..)

theorem execSwFdbFlush_steady (c mask s) (hs : Steady clk deep s) : SteadyRes clk deep (execSwFdbFlush c mask s) := by
  simp [execSwFdbFlush, hs]

theorem execSwFdbRead_steady (c s) (hs : Steady clk deep s) : SteadyRes clk deep (execSwFdbRead c s) := by
  simp [execSwFdbRead, hs]

/-! ## What PointStore keeps -/

theorem execBatchApply_steady (s) (hs : Steady clk deep s) : SteadyRes clk deep (execBatchApply s) := by
  unfold execBatchApply
  dsimp only
  repeat' split
  all_goals simp [hs]

theorem execPsStagePoints_steady (c defs pubs tPsw s) (hs : Steady clk deep s) : SteadyRes clk deep (execPsStagePoints c defs pubs tPsw s) := by
  simp [execPsStagePoints, hs]

theorem execPsReadPoints_steady (c l guard forces s) (hs : Steady clk deep s) : SteadyRes clk deep (execPsReadPoints c l guard forces s) := by
  refine command_steady _ _ _ _ (fun u hu => ?_) hs
  split
  · exact hu
  · split
    · exact hu
    · split <;> simp [hu]

@[simp] theorem countRefused_steady (x s) : Steady clk deep (countRefused x s) ↔ Steady clk deep s :=
  steady_of_outside (countRefused_outside (by decide) ..)

theorem execPsWrite_steady (c l mask s) (hs : Steady clk deep s) : SteadyRes clk deep (execPsWrite c l mask s) := by
  refine command_steady _ _ _ _ (fun u hu => ?_) hs
  split
  · exact hu
  · exact (sendBatch_steady _ _ _).mpr (multipart_steady _ _ (fun n v hv => (countRefused_steady _ _).mpr hv) hu)

@[simp] theorem setForce_steady (c e s) : Steady clk deep (setForce c e s).1 ↔ Steady clk deep s := by
  unfold setForce
  split <;> simp

theorem execPsForceSet_steady (c l mask s) (hs : Steady clk deep s) : SteadyRes clk deep (execPsForceSet c l mask s) := by
  refine command_steady _ _ _ _ (fun u hu => ?_) hs
  dsimp only
  split
  · exact hu
  · refine multipart_steady _ _ (fun n v hv => ?_) hu
    split <;> simp [hv]

@[simp] theorem clearForce_steady (c i s) : Steady clk deep (clearForce c i s).1 ↔ Steady clk deep s := by
  unfold clearForce
  repeat' split
  all_goals simp

theorem execPsForceClear_steady (c l mask s) (hs : Steady clk deep s) : SteadyRes clk deep (execPsForceClear c l mask s) := by
  refine command_steady _ _ _ _ (fun u hu => ?_) hs
  dsimp only
  split
  · exact hu
  · refine multipart_steady _ _ (fun n v hv => ?_) hu
    split <;> simp [hv]

theorem execPsForceListCurrent_steady (c s) (hs : Steady clk deep s) : SteadyRes clk deep (execPsForceListCurrent c s) := by
  simp [execPsForceListCurrent, hs]

theorem execPsForceListDropped_steady (c s) (hs : Steady clk deep s) : SteadyRes clk deep (execPsForceListDropped c s) := by
  simp [execPsForceListDropped, hs]

/-! ## What PhasorOps keeps -/

@[simp] theorem putTurn_steady (c before x s) : Steady clk deep (putTurn c before x s) ↔ Steady clk deep s :=
  steady_of_outside (putTurn_outside (by decide) ..)

@[simp] theorem openEst_steady (x tr late s) : Steady clk deep (openEst x tr late s).2 ↔ Steady clk deep s :=
  steady_of_outside (openEst_outside (by decide) ..)

/-! ## What RecorderOps keeps -/

@[simp] theorem modWsl_steady (k f s) : Steady clk deep (modWsl k f s) ↔ Steady clk deep s := by
  simp [modWsl]

@[simp] theorem setWsl_steady (k st' s) : Steady clk deep (setWsl k st' s) ↔ Steady clk deep s := by
  simp [setWsl]

@[simp] theorem modRec_steady (r f s) : Steady clk deep (modRec r f s) ↔ Steady clk deep s := by
  simp [modRec]

@[simp] theorem recordSample_steady (src on tag v good s) : Steady clk deep (recordSample src on tag v good s) ↔ Steady clk deep s := by
  simp [recordSample]

@[simp] theorem feedComp_steady (n v tag good s) : Steady clk deep (feedComp n v tag good s) ↔ Steady clk deep s := by
  unfold feedComp
  dsimp only
  repeat' split
  all_goals simp

@[simp] theorem feedComps_steady (src v tag good s) : Steady clk deep (feedComps src v tag good s) ↔ Steady clk deep s := by
  simp [feedComps]

@[simp] theorem acquireLane_steady (l x s) : Steady clk deep (acquireLane l x s) ↔ Steady clk deep s := by
  simp [acquireLane]

@[simp] theorem deliverWsl_steady (k e vals q s) : Steady clk deep (deliverWsl k e vals q s) ↔ Steady clk deep s := by
  simp [deliverWsl]

@[simp] theorem lastGoodOf_steady (k s) : Steady clk deep (lastGoodOf k s).2 ↔ Steady clk deep s :=
  steady_of_outside (lastGoodOf_outside (by decide) ..)

@[simp] theorem deliverBad_steady (k e q s) : Steady clk deep (deliverBad k e q s) ↔ Steady clk deep s := by
  simp [deliverBad]

@[simp] theorem deliverGood_steady (k e vals s) : Steady clk deep (deliverGood k e vals s) ↔ Steady clk deep s := by
  simp [deliverGood]

@[simp] theorem flushWsl_steady (k n s) : Steady clk deep (flushWsl k n s) ↔ Steady clk deep s := by
  induction n generalizing s with
  | zero => rfl
  | succ n ih =>
    unfold flushWsl
    dsimp only
    split
    · rw [ih]
      split <;> simp
    · rfl

@[simp] theorem noteFrame_steady (k failed consecutive s) : Steady clk deep (noteFrame k failed consecutive s) ↔ Steady clk deep s := by
  unfold noteFrame
  dsimp only
  repeat' split
  all_goals simp

@[simp] theorem moveWrite_steady (r n size s) : Steady clk deep (moveWrite r n size s) ↔ Steady clk deep s := by
  simp [moveWrite]

@[simp] theorem closeRecord_steady (r trunc x s) : Steady clk deep (closeRecord r trunc x s) ↔ Steady clk deep s := by
  simp [closeRecord]

@[simp] theorem placeRow_steady (r x row s) : Steady clk deep (placeRow r x row s).2 ↔ Steady clk deep s := by
  unfold placeRow
  split <;> simp

@[simp] theorem placeRows_steady (r x l s) : Steady clk deep (placeRows r x l s).2 ↔ Steady clk deep s :=
  steady_foldl_snd_iff _ (fun _ _ => placeRow_steady ..) _ _

@[simp] theorem startRecord_steady (r x t ch late s) : Steady clk deep (startRecord r x t ch late s).2 ↔ Steady clk deep s := by
  simp [startRecord]

@[simp] theorem takeTrigger_steady (r x t ch late s) : Steady clk deep (takeTrigger r x t ch late s).2 ↔ Steady clk deep s := by
  unfold takeTrigger
  dsimp only
  repeat' split
  all_goals simp

@[simp] theorem evalTick_steady (r live x s) : Steady clk deep (evalTick r live x s).2 ↔ Steady clk deep s := by
  unfold evalTick
  dsimp only
  repeat' split
  all_goals simp

@[simp] theorem baseRow_steady (x vals t s) : Steady clk deep (baseRow x vals t s).2 ↔ Steady clk deep s :=
  steady_of_outside (baseRow_outside (by decide) ..)

@[simp] theorem overwriteHeld_steady (r c n s) : Steady clk deep (overwriteHeld r c n s) ↔ Steady clk deep s := by
  induction n generalizing s with
  | zero => rfl
  | succ n ih => simp [overwriteHeld, ih]

@[simp] theorem enterFull_steady (r x s) : Steady clk deep (enterFull r x s).2 ↔ Steady clk deep s := by
  unfold enterFull
  split <;> simp

theorem writeRow_steady {r : Nat} {x y : RecRun} {s t : State} (h : writeRow r x s = some (y, t)) (hs : Steady clk deep s) :
    Steady clk deep t := by
  have last {a : RecRun × State} (h : some a = some (y, t)) (ha : Steady clk deep a.2) : Steady clk deep t := by
    cases h
    exact ha
  unfold writeRow at h
  split at h
  · nomatch h
  next at_ _ =>
    extract_lets b vals at h
    split at h
    · nomatch h
    · split at h
      next row u he =>
      have hu := (baseRow_steady (clk := clk) (deep := deep) x (vals.map (·.getD none)) at_ s).mpr hs
      rw [he] at hu
      split at h
      · exact last h hu
      · extract_lets v at h
        have hv : Steady clk deep v := by
          unfold v
          split <;> simpa using hu
        split at h <;> exact last h (by simpa using hv)

@[simp] theorem endOpen_steady (r keep s) : Steady clk deep (endOpen r keep s) ↔ Steady clk deep s := by
  unfold endOpen
  dsimp only
  repeat' split
  all_goals simp

@[simp] theorem armRecorder_steady (r s) : Steady clk deep (armRecorder r s) ↔ Steady clk deep s := by
  unfold armRecorder
  split <;> simp

@[simp] theorem stopRecorder_steady (r keep s) : Steady clk deep (stopRecorder r keep s) ↔ Steady clk deep s := by
  simp [stopRecorder]

@[simp] theorem resumeFull_steady (r s) : Steady clk deep (resumeFull r s) ↔ Steady clk deep s := by
  unfold resumeFull
  split <;> simp

/-! ## What Recorder keeps -/

theorem execWslFrameReceive_steady (k f s) (hs : Steady clk deep s) : SteadyRes clk deep (execWslFrameReceive k f s) := by
  unfold execWslFrameReceive
  dsimp only
  repeat' split
  all_goals simp [hs]

theorem execWslFrameDeadline_steady (k s) (hs : Steady clk deep s) : SteadyRes clk deep (execWslFrameDeadline k s) := by
  simp [execWslFrameDeadline, hs]

theorem execWslRetrainDone_steady (k s) (hs : Steady clk deep s) : SteadyRes clk deep (execWslRetrainDone k s) := by
  simp [execWslRetrainDone, hs]

@[simp] theorem edgeFifo_steady (e rising t s) (hs : Steady clk deep s) : Steady clk deep (edgeFifo e rising t s) := by
  refine Steady.ite (fun _ => hs) fun _ => Steady.ite (fun h => ?_) fun _ => ?_
  · refine modEdge_steady_of_mem hs fun u hu _ => ?_
    rw [vget, hu] at h
    simpa using h
  · simp [hs]

theorem execFastEdgeArrival_steady (e rising bin pulse s) (hs : Steady clk deep s) :
    SteadyRes clk deep (execFastEdgeArrival e rising bin pulse s) := by
  unfold execFastEdgeArrival
  dsimp only
  repeat' split
  all_goals simp [hs]

theorem execTdcCalibrationDone_steady (e bins s) (hs : Steady clk deep s) : SteadyRes clk deep (execTdcCalibrationDone e bins s) := by
  simp [execTdcCalibrationDone, hs]

@[simp] theorem edgeTake_steady (e s) (hs : Steady clk deep s) : Steady clk deep (edgeTake e s).2 :=
  modEdge_steady _ _ (fun _ h => (List.drop_sublist ..).length_le.trans h) hs

theorem execEdgePop_steady (rq e wide s) (hs : Steady clk deep s) : SteadyRes clk deep (execEdgePop rq e wide s) :=
  hostRead_steady _ s (fun u hu => by simp [hu]) hs

@[simp] theorem dropOld_steady (r s) : Steady clk deep (dropOld r s) ↔ Steady clk deep s := by
  unfold dropOld
  split <;> simp

theorem execPatternTickEval_steady (r s) (hs : Steady clk deep s) : SteadyRes clk deep (execPatternTickEval r s) := by
  unfold execPatternTickEval
  dsimp only
  repeat' split
  all_goals simp [hs]

theorem execRowWrite_steady (r s) (hs : Steady clk deep s) : SteadyRes clk deep (execRowWrite r s) := by
  unfold execRowWrite
  dsimp only
  split
  · simpa using hs
  · split
    · split
      next hw => simp [writeRow_steady hw hs]
      next => simpa using hs
    · split
      next hw => simp [writeRow_steady hw hs]
      next => simpa using hs
    · simpa using hs

theorem execRecordComplete_steady (r s) (hs : Steady clk deep s) : SteadyRes clk deep (execRecordComplete r s) := by
  unfold execRecordComplete
  dsimp only
  split <;> simp [hs]

theorem execArStageWsl_steady (c l s) (hs : Steady clk deep s) : SteadyRes clk deep (execArStageWsl c l s) := by
  simp [execArStageWsl, hs]

theorem execArStageEdges_steady (c l s) (hs : Steady clk deep s) : SteadyRes clk deep (execArStageEdges c l s) := by
  simp [execArStageEdges, hs]

theorem execArStageComparators_steady (c l s) (hs : Steady clk deep s) : SteadyRes clk deep (execArStageComparators c l s) := by
  simp [execArStageComparators, hs]

theorem execArStageRecorders_steady (c l s) (hs : Steady clk deep s) : SteadyRes clk deep (execArStageRecorders c l s) := by
  simp [execArStageRecorders, hs]

@[simp] theorem partArTrigger_steady (c n s) : Steady clk deep (partArTrigger c n s).1 ↔ Steady clk deep s := by
  simp [partArTrigger]

theorem execArTrigger_steady (c mask s) (hs : Steady clk deep s) : SteadyRes clk deep (execArTrigger c mask s) := by
  simp [execArTrigger, hs]

@[simp] theorem partArRecorderArm_steady (c n s) : Steady clk deep (partArRecorderArm c n s).1 ↔ Steady clk deep s := by
  simp [partArRecorderArm]

theorem execArRecorderArm_steady (c mask s) (hs : Steady clk deep s) : SteadyRes clk deep (execArRecorderArm c mask s) := by
  simp [execArRecorderArm, hs]

@[simp] theorem partArRecorderStop_steady (c n s) : Steady clk deep (partArRecorderStop c n s).1 ↔ Steady clk deep s := by
  simp [partArRecorderStop]

theorem execArRecorderStop_steady (c mask s) (hs : Steady clk deep s) : SteadyRes clk deep (execArRecorderStop c mask s) := by
  simp [execArRecorderStop, hs]

theorem execArRecordList_steady (c r s) (hs : Steady clk deep s) : SteadyRes clk deep (execArRecordList c r s) := by
  simp [execArRecordList, hs]

theorem execArRecordRead_steady (c r no off len guard s) (hs : Steady clk deep s) :
    SteadyRes clk deep (execArRecordRead c r no off len guard s) := by
  refine command_steady _ _ _ _ (fun u hu => ?_) hs
  split
  · exact hu
  · split
    · exact hu
    · split
      · exact hu
      · exact steady_foldl _ (fun v e hv => by simp [hv]) _ ((guardReads_steady ..).mpr hu)

theorem execArRecordRelease_steady (c r nos s) (hs : Steady clk deep s) : SteadyRes clk deep (execArRecordRelease c r nos s) := by
  simp [execArRecordRelease, hs]

@[simp] theorem partArReadCounters_steady (c n s) : Steady clk deep (partArReadCounters c n s).1 ↔ Steady clk deep s := by
  simp [partArReadCounters]

theorem execArReadCounters_steady (c mask s) (hs : Steady clk deep s) : SteadyRes clk deep (execArReadCounters c mask s) := by
  simp [execArReadCounters, hs]

@[simp] theorem commitWsl_steady (t view k s) : Steady clk deep (commitWsl t view k s) ↔ Steady clk deep s := by
  simp [commitWsl]

@[simp] theorem commitRec_steady (t view r s) : Steady clk deep (commitRec t view r s) ↔ Steady clk deep s := by
  unfold commitRec
  dsimp only
  split <;> simp

@[simp] theorem arCommit_steady (t active s) (hs : Steady clk deep s) : Steady clk deep (arCommit t active s) := by
  have links := (steady_foldl_iff (fun s k => commitWsl t active k s) (fun _ _ => commitWsl_steady ..) (List.range 8) s).mpr hs
  have edges := steady_foldl (fun s e => modEdge e (fun u => { u with cfg := viewEdge active e }) s)
    (fun _ _ hu => modEdge_steady _ _ (fun _ h => h) hu) (List.range 24) links
  simp [arCommit, edges]

@[simp] theorem arSecond_steady (ltS s) : Steady clk deep (arSecond ltS s) ↔ Steady clk deep s := by
  refine steady_foldl_iff _ (fun u k => ?_) _ _
  dsimp only
  repeat' split
  all_goals simp

@[simp] theorem arOff_steady (s) (hs : Steady clk deep s) : Steady clk deep (arOff s) := by
  unfold arOff
  refine onAr_steady_of_edges (by simp [hs]) fun u hu => ?_
  obtain ⟨v, -, rfl⟩ := Vector.mem_map.mp hu
  exact Nat.zero_le _

@[simp] theorem arOn_steady (s) : Steady clk deep (arOn s) ↔ Steady clk deep s := by
  simp [arOn]

/-! ## What Filter keeps -/

@[simp] theorem consumeSample_steady (l c n x s) : Steady clk deep (consumeSample l c n x s) ↔ Steady clk deep s := by
  unfold consumeSample
  dsimp only
  repeat' split
  all_goals simp

@[simp] theorem laneGuard_steady (l h s) (hs : Steady clk deep s) : Steady clk deep (laneGuard l h s) := by
  simp [laneGuard, hs]

@[simp] theorem tableGuard_steady (l proto n h s) (hs : Steady clk deep s) : Steady clk deep (tableGuard l proto n h s) := by
  simp [tableGuard, hs]

@[simp] theorem laneFinding_steady (l f s) (hs : Steady clk deep s) : Steady clk deep (laneFinding l f s) := by
  unfold laneFinding
  split <;> simp [hs]

theorem execLaneOutputRelease_steady (l f s) (hs : Steady clk deep s) : SteadyRes clk deep (execLaneOutputRelease l f s) := by
  unfold execLaneOutputRelease
  dsimp only
  repeat' split
  all_goals simp [hs]

theorem execTrackingHold_steady (g s) (hs : Steady clk deep s) : SteadyRes clk deep (execTrackingHold g s) := by
  unfold execTrackingHold
  dsimp only
  split <;> simp [hs]

theorem execTrackingNominal_steady (g s) (hs : Steady clk deep s) : SteadyRes clk deep (execTrackingNominal g s) := by
  simp [execTrackingNominal, hs]

theorem execFrStageLanes_steady (c l s) (hs : Steady clk deep s) : SteadyRes clk deep (execFrStageLanes c l s) := by
  simp [execFrStageLanes, hs]

theorem execFrStageTrack_steady (c l s) (hs : Steady clk deep s) : SteadyRes clk deep (execFrStageTrack c l s) := by
  simp [execFrStageTrack, hs]

theorem execFrStageCoef_steady (c l s) (hs : Steady clk deep s) : SteadyRes clk deep (execFrStageCoef c l s) := by
  simp [execFrStageCoef, hs]

@[simp] theorem partFrLaneRestart_steady (c base n s) : Steady clk deep (partFrLaneRestart c base n s).1 ↔ Steady clk deep s :=
  steady_of_outside (partFrLaneRestart_outside (by decide) ..)

theorem execFrLaneRestart_steady (c base mask s) (hs : Steady clk deep s) : SteadyRes clk deep (execFrLaneRestart c base mask s) := by
  simp [execFrLaneRestart, hs]

@[simp] theorem commitTrk_steady (t view g s) : Steady clk deep (commitTrk t view g s) ↔ Steady clk deep s := by
  unfold commitTrk
  split <;> simp

@[simp] theorem commitLane_steady (t old view l s) : Steady clk deep (commitLane t old view l s) ↔ Steady clk deep s :=
  steady_of_outside (commitLane_outside (by decide) ..)

@[simp] theorem frCommit_steady (t active s) : Steady clk deep (frCommit t active s) ↔ Steady clk deep s := by
  simp [frCommit]

@[simp] theorem frOff_steady (s) : Steady clk deep (frOff s) ↔ Steady clk deep s :=
  steady_of_outside (frOff_outside (by decide) ..)

@[simp] theorem frOn_steady (s) : Steady clk deep (frOn s) ↔ Steady clk deep s := by
  simp [frOn]

/-! ## What Phasor keeps -/

@[simp] theorem noteEst_steady (c before e range s) : Steady clk deep (noteEst c before e range s) ↔ Steady clk deep s :=
  steady_of_outside (noteEst_outside (by decide) ..)

@[simp] theorem setPoints_steady (c tr s) : Steady clk deep (setPoints c tr s) ↔ Steady clk deep s :=
  steady_of_outside (setPoints_outside (by decide) ..)

@[simp] theorem releaseEst_steady (c n before k e range s) : Steady clk deep (releaseEst c n before k e range s) ↔ Steady clk deep s := by
  simp [releaseEst]

theorem nextEst_steady {c : Nat} {x : PeChan} {tr : LT} {e : PeEst} {range : Bool} {s t : State} (h : nextEst s c x = some (tr, e, range, t)) :
    Steady clk deep t ↔ Steady clk deep s := steady_of_outside (nextEst_outside (by decide) h)

@[simp] theorem chanGuard_steady (c h s) (hs : Steady clk deep s) : Steady clk deep (chanGuard c h s) := by
  simp [chanGuard, hs]

theorem execEstimateRelease_steady (c guard s) (hs : Steady clk deep s) : SteadyRes clk deep (execEstimateRelease c guard s) := by
  have hg := (guardRead_steady (clk := clk) (deep := deep) 0x6 guard s).mpr hs
  unfold execEstimateRelease
  split
  · simpa using hs
  · extract_lets c
    split
    next g u he =>
    rw [he] at hg
    extract_lets v
    have hv : Steady clk deep v := by
      unfold v
      split <;> simp [hg]
    split
    next t x _ =>
    split
    · simp [hv]
    next hn => simp [nextEst_steady hn, hv]

@[simp] theorem modStr_steady (k f s) : Steady clk deep (modStr k f s) ↔ Steady clk deep s :=
  steady_of_outside (modStr_outside (by decide) ..)

@[simp] theorem modTurn_steady (k before f s) : Steady clk deep (modTurn k before f s) ↔ Steady clk deep s :=
  steady_of_outside (modTurn_outside (by decide) ..)

@[simp] theorem completeChan_steady (c tr n s) : Steady clk deep (completeChan c tr n s) ↔ Steady clk deep s := by
  induction n generalizing s with
  | zero => rfl
  | succ n ih =>
    unfold completeChan
    split
    next b x _ =>
    split
    · rfl
    next t _ =>
      have ho := openEst_steady (clk := clk) (deep := deep) x t true s
      split
      · split
        next e u he =>
        rw [he] at ho
        dsimp only
        rw [ih]
        simpa  using ho
      · rfl

theorem execStreamDeadline_steady (k s) (hs : Steady clk deep s) : SteadyRes clk deep (execStreamDeadline k s) := by
  unfold execStreamDeadline
  split <;> simp [hs]

theorem execPeStageChannels_steady (c l s) (hs : Steady clk deep s) : SteadyRes clk deep (execPeStageChannels c l s) := by
  simp [execPeStageChannels, hs]

theorem execPeStageSets_steady (c l s) (hs : Steady clk deep s) : SteadyRes clk deep (execPeStageSets c l s) := by
  simp [execPeStageSets, hs]

theorem execPeStageStreams_steady (c l s) (hs : Steady clk deep s) : SteadyRes clk deep (execPeStageStreams c l s) := by
  simp [execPeStageStreams, hs]

@[simp] theorem partPeReadResults_steady (c base n s) : Steady clk deep (partPeReadResults c base n s).1 ↔ Steady clk deep s := by
  simp [partPeReadResults]

theorem execPeReadResults_steady (c base mask s) (hs : Steady clk deep s) : SteadyRes clk deep (execPeReadResults c base mask s) := by
  simp [execPeReadResults, hs]

@[simp] theorem streamTx_steady (c base on n s) : Steady clk deep (streamTx c base on n s).1 ↔ Steady clk deep s :=
  steady_of_outside (streamTx_outside (by decide) ..)

theorem execPeStreamTxOn_steady (c base mask s) (hs : Steady clk deep s) : SteadyRes clk deep (execPeStreamTxOn c base mask s) := by
  simp [execPeStreamTxOn, hs]

theorem execPeStreamTxOff_steady (c base mask s) (hs : Steady clk deep s) : SteadyRes clk deep (execPeStreamTxOff c base mask s) := by
  simp [execPeStreamTxOff, hs]

@[simp] theorem partPeReadCounters_steady (c base n s) : Steady clk deep (partPeReadCounters c base n s).1 ↔ Steady clk deep s :=
  steady_of_outside (partPeReadCounters_outside (by decide) ..)

theorem execPeReadCounters_steady (c base mask s) (hs : Steady clk deep s) : SteadyRes clk deep (execPeReadCounters c base mask s) := by
  simp [execPeReadCounters, hs]

@[simp] theorem peCommit_steady (t old active s) : Steady clk deep (peCommit t old active s) ↔ Steady clk deep s :=
  steady_of_outside (peCommit_outside (by decide) ..)

@[simp] theorem peSecond_steady (ltS s) : Steady clk deep (peSecond ltS s) ↔ Steady clk deep s :=
  steady_of_outside (peSecond_outside (by decide) ..)

@[simp] theorem peOff_steady (s) : Steady clk deep (peOff s) ↔ Steady clk deep s :=
  steady_of_outside (peOff_outside (by decide) ..)

@[simp] theorem peOn_steady (s) : Steady clk deep (peOn s) ↔ Steady clk deep s :=
  steady_of_outside (peOn_outside (by decide) ..)

/-! ## What Stream keeps -/

@[simp] theorem takeIngest_steady (q guard s) (hs : Steady clk deep s) : Steady clk deep (takeIngest q guard s).2 := by
  unfold takeIngest
  dsimp only
  split <;> simp [hs]

theorem execSvFrameReceive_steady (q f guard s) (hs : Steady clk deep s) : SteadyRes clk deep (execSvFrameReceive q f guard s) := by
  have h := takeIngest_steady (clk := clk) (deep := deep) q.val guard s hs
  unfold execSvFrameReceive
  split
  · simpa using hs
  · split
    next he => rw [he] at h; simpa using h
    next he =>
      rw [he] at h
      split <;> simp [h]

theorem execGooseFrameReceive_steady (q f guard s) (hs : Steady clk deep s) : SteadyRes clk deep (execGooseFrameReceive q f guard s) := by
  have h := takeIngest_steady (clk := clk) (deep := deep) q.val guard s hs
  unfold execGooseFrameReceive
  split
  · simpa using hs
  · split
    next he => rw [he] at h; simpa using h
    next he =>
      rw [he] at h
      split
      · simpa using h
      · split <;> simp [h]

theorem execInstantRelease_steady (g s) (hs : Steady clk deep s) : SteadyRes clk deep (execInstantRelease g s) := by
  unfold execInstantRelease
  split <;> simp [hs]

theorem execGridSecond_steady (s) (hs : Steady clk deep s) : SteadyRes clk deep (execGridSecond s) := by
  unfold execGridSecond
  dsimp only
  repeat' split
  all_goals simp [hs]

theorem execTalExpiry_steady (n s) (hs : Steady clk deep s) : SteadyRes clk deep (execTalExpiry n s) := by
  unfold execTalExpiry
  dsimp only
  split <;> simp [hs]

theorem execSeStageGroups_steady (c l lockMs s) (hs : Steady clk deep s) : SteadyRes clk deep (execSeStageGroups c l lockMs s) := by
  simp [execSeStageGroups, hs]

theorem execSeStageSv_steady (c l s) (hs : Steady clk deep s) : SteadyRes clk deep (execSeStageSv c l s) := by
  simp [execSeStageSv, hs]

theorem execSeStageGooseSub_steady (c l s) (hs : Steady clk deep s) : SteadyRes clk deep (execSeStageGooseSub c l s) := by
  simp [execSeStageGooseSub, hs]

theorem execSeStageGoosePub_steady (c l s) (hs : Steady clk deep s) : SteadyRes clk deep (execSeStageGoosePub c l s) := by
  simp [execSeStageGoosePub, hs]

@[simp] theorem partSeReadCounters_steady (c base n s) : Steady clk deep (partSeReadCounters c base n s).1 ↔ Steady clk deep s :=
  steady_of_outside (partSeReadCounters_outside (by decide) ..)

theorem execSeReadCounters_steady (c base mask s) (hs : Steady clk deep s) : SteadyRes clk deep (execSeReadCounters c base mask s) := by
  simp [execSeReadCounters, hs]

@[simp] theorem partSeStreamRelock_steady (base n s) : Steady clk deep (partSeStreamRelock base n s).1 ↔ Steady clk deep s := by
  simp [partSeStreamRelock]

theorem execSeStreamRelock_steady (c base mask s) (hs : Steady clk deep s) : SteadyRes clk deep (execSeStreamRelock c base mask s) := by
  simp [execSeStreamRelock, hs]

@[simp] theorem commitSv_steady (t old new n s) : Steady clk deep (commitSv t old new n s) ↔ Steady clk deep s := by
  simp [commitSv]

@[simp] theorem commitGroup_steady (t view g s) : Steady clk deep (commitGroup t view g s) ↔ Steady clk deep s :=
  steady_of_outside (commitGroup_outside (by decide) ..)

@[simp] theorem commitGoose_steady (t view s) : Steady clk deep (commitGoose t view s) ↔ Steady clk deep s :=
  steady_of_outside (commitGoose_outside (by decide) ..)

@[simp] theorem seCommit_steady (t active s) : Steady clk deep (seCommit t active s) ↔ Steady clk deep s := by
  simp [seCommit]

@[simp] theorem seOff_steady (s) : Steady clk deep (seOff s) ↔ Steady clk deep s := by
  simp [seOff]

@[simp] theorem seOn_steady (s) : Steady clk deep (seOn s) ↔ Steady clk deep s :=
  steady_of_outside (seOn_outside (by decide) ..)

/-! ## What LogOps keeps -/

@[simp] theorem logStage_steady (s) : Steady clk deep (logStage s) ↔ Steady clk deep s := by
  simp only [logStage, steady_ite, raise_steady, onLog_steady, ite_self]

@[simp] theorem lostRec_steady (s) : Steady clk deep (lostRec s) ↔ Steady clk deep s := by
  simp [lostRec]

@[simp] theorem writeRec_steady (r s) (hs : Steady clk deep s) : Steady clk deep (writeRec r s) := by
  unfold writeRec
  dsimp only
  split
  · simpa using hs
  · split
    · split <;> simp [hs]
    · next hroom =>
      rw [logStage_steady]
      refine ⟨hs.tb, hs.edges, hs.eng, hs.errs, fun _ => ?_⟩
      simp [onLog, logMax] at hroom ⊢
      omega

@[simp] theorem writePending_steady (s) (hs : Steady clk deep s) : Steady clk deep (writePending s) :=
  steady_foldl _ (fun u r hu => writeRec_steady r u hu) _ ((onLog_steady _ s rfl).mpr hs)

@[simp] theorem logCommand_steady (c op status arg s) : Steady clk deep (logCommand c op status arg s) ↔ Steady clk deep s := by
  simp [logCommand]

theorem execLogRecordWrite_steady (s) (hs : Steady clk deep s) : SteadyRes clk deep (execLogRecordWrite s) := by
  unfold execLogRecordWrite
  repeat' split
  all_goals simp [hs]

theorem execLogClearWrite_steady (v s) (hs : Steady clk deep s) : SteadyRes clk deep (execLogClearWrite v s) := by
  simp [execLogClearWrite, hs]

theorem execLogClearDone_steady (s) (hs : Steady clk deep s) : SteadyRes clk deep (execLogClearDone s) := by
  unfold execLogClearDone
  split
  · simpa using hs
  · exact (steadyRes_next _).mpr (writeRec_steady _ _ ⟨hs.tb, hs.edges, hs.eng, hs.errs, fun _ => Nat.zero_le _⟩)

/-! ## What KeyStore keeps -/

@[simp] theorem writeSlot_steady (n x s) : Steady clk deep (writeSlot n x s) ↔ Steady clk deep s :=
  steady_of_outside (writeSlot_outside (by decide) ..)

@[simp] theorem markRevoked_steady (l s) : Steady clk deep (markRevoked l s) ↔ Steady clk deep s :=
  steady_of_outside (markRevoked_outside (by decide) ..)

@[simp] theorem wipeSlots_steady (l s) : Steady clk deep (wipeSlots l s) ↔ Steady clk deep s :=
  steady_of_outside (wipeSlots_outside (by decide) ..)

/-! ## What PowerOps keeps -/

@[simp] theorem netOff_steady (s) : Steady clk deep (netOff s) ↔ Steady clk deep s := by
  simp [netOff]

@[simp] theorem netOn_steady (s) : Steady clk deep (netOn s) ↔ Steady clk deep s := by
  simp [netOn]

@[simp] theorem clusterOff_steady (k s) (hs : Steady clk deep s) : Steady clk deep (clusterOff k s) := by
  unfold clusterOff
  refine steady_foldl _ (fun u e hu => ?_) _ ?_
  · exact modEng_steady _ _ (fun _ _ => Nat.zero_le _) hu
  · simp [hs]

@[simp] theorem clusterOn_steady (k s) (hs : Steady clk deep s) : Steady clk deep (clusterOn k s) := by
  unfold clusterOn
  refine steady_foldl _ (fun u e hu => ?_) _ ?_
  · exact modEng_steady _ _ (fun _ h => h) hu
  · simp [hs]

@[simp] theorem dramOff_steady (s) : Steady clk deep (dramOff s) ↔ Steady clk deep s := by
  unfold dramOff
  dsimp only
  repeat' split
  all_goals simp

@[simp] theorem loseDomain_steady (n s) (hs : Steady clk deep s) : Steady clk deep (loseDomain n s) := by
  have clusters (l : List Nat) : Steady clk deep (l.foldl (fun s k => clusterOff k s) s) :=
    steady_foldl _ (fun _ _ hu => clusterOff_steady _ _ hu) l hs
  simp [loseDomain, hs, clusters]

@[simp] theorem serveDomain_steady (n s) (hs : Steady clk deep s) : Steady clk deep (serveDomain n s) := by
  have clusters (l : List Nat) : Steady clk deep (l.foldl (fun s k => clusterOn k s) s) :=
    steady_foldl _ (fun _ _ hu => clusterOn_steady _ _ hu) l hs
  simp [serveDomain, hs, clusters]

@[simp] theorem powerOff_steady (st' n s) (hs : Steady clk deep s) : Steady clk deep (powerOff st' n s) := by
  simp [powerOff, hs]

@[simp] theorem turnOff_steady (st' n s) (hs : Steady clk deep s) : Steady clk deep (turnOff st' n s) := by
  simp [turnOff, hs]

@[simp] theorem newPass_steady (n s) : Steady clk deep (newPass n s) ↔ Steady clk deep s := by
  simp [newPass]

@[simp] theorem powerOn_steady (n s) (hs : Steady clk deep s) : Steady clk deep (powerOn n s) := by
  simp [powerOn, hs]

@[simp] theorem needDomain_steady (n s) (hs : Steady clk deep s) : Steady clk deep (needDomain n s) := by
  simp [needDomain, hs]

@[simp] theorem unlockOff_steady (n s) : Steady clk deep (unlockOff n s) ↔ Steady clk deep s :=
  steady_of_outside (unlockOff_outside (by decide) ..)

@[simp] theorem applyDomain_steady (view n s) (hs : Steady clk deep s) : Steady clk deep (applyDomain view n s) := by
  simp [applyDomain, hs]

/-- A reset leaves every FIFO and call stack empty and keeps the log; LT goes on where the device sleeps, and is lost otherwise (R54, R545). -/
theorem poweredDown_steady (dram s) (hs : Steady clk deep s) (hclk : dram = true ∨ clk = none) : Steady clk deep (poweredDown dram s) := by
  have hr : Steady none true State.reset := (steady_depths _).mpr (by decide)
  refine ⟨⟨fun a ha => ?_, fun _ => ?_⟩, fun _ => hr.edges rfl, fun _ => hr.eng rfl, fun _ => hr.errs rfl, hs.recs⟩
  · rcases hclk with rfl | rfl
    · exact hs.tb.1 a ha
    · nomatch ha
  · cases dram <;> exact hr.tb.2 rfl

@[simp] theorem setRtc_steady (r s) : Steady clk deep (setRtc r s) ↔ Steady clk deep s :=
  steady_of_outside (setRtc_outside (by decide) ..)

/-! ## What VaultOps keeps -/

@[simp] theorem putSlot_steady (n x s) : Steady clk deep (putSlot n x s) ↔ Steady clk deep s :=
  steady_of_outside (putSlot_outside (by decide) ..)

@[simp] theorem failQueued_steady (l s) : Steady clk deep (failQueued l s) ↔ Steady clk deep s := by
  simp [failQueued]

@[simp] theorem revokeTree_steady (n s) : Steady clk deep (revokeTree n s).1 ↔ Steady clk deep s := by
  simp [revokeTree]

@[simp] theorem revokeRecord_steady (n count s) : Steady clk deep (revokeRecord n count s) ↔ Steady clk deep s := by
  simp [revokeRecord]

@[simp] theorem dropSlot_steady (n s) : Steady clk deep (dropSlot n s) ↔ Steady clk deep s := by
  simp [dropSlot]

@[simp] theorem eraseTree_steady (n s) : Steady clk deep (eraseTree n s).1 ↔ Steady clk deep s := by
  simp [eraseTree]

@[simp] theorem kvCommand_steady (op pubLoad c s) {body : State → State × Option ReplyBody}
    (hb : ∀ u, Steady clk deep u → Steady clk deep (body u).1) (hs : Steady clk deep s) : SteadyRes clk deep (kvCommand op pubLoad c s body) :=
  command_steady _ _ _ _ (fun u hu => by
    split
    · exact hb u hu
    · exact hu) hs

@[simp] theorem refuse_steady (c n e s) : Steady clk deep (refuse c n e s).1 ↔ Steady clk deep s :=
  steady_of_outside (refuse_outside (by decide) ..)

@[simp] theorem enterKey_steady (c op k t lv d plain material aux s) :
    Steady clk deep (enterKey c op k t lv d plain material aux s) ↔ Steady clk deep s := by
  simp [enterKey]

@[simp] theorem randomBytes_steady (n s) : Steady clk deep (randomBytes n s).2 ↔ Steady clk deep s :=
  steady_of_outside (randomBytes_outside (by decide) ..)

@[simp] theorem request_steady (c op stages slots x s) : Steady clk deep (request c op stages slots x s).1 ↔ Steady clk deep s :=
  steady_of_outside (request_outside (by decide) ..)

@[simp] theorem requestResult_steady (r s) : Steady clk deep (requestResult r s).1 ↔ Steady clk deep s := by
  unfold requestResult
  dsimp only
  repeat' split
  all_goals simp

@[simp] theorem serveRequest_steady (r s) : Steady clk deep (serveRequest r s) ↔ Steady clk deep s := by
  simp [serveRequest]

theorem execEngineSlot_steady (e s) (hs : Steady clk deep s) : SteadyRes clk deep (execEngineSlot e s) := by
  unfold execEngineSlot
  dsimp only
  repeat' split
  all_goals simp [hs]

/-! ## What Supervisor keeps -/

@[simp] theorem ringError_steady (ring s) : Steady clk deep (ringError ring s) ↔ Steady clk deep s := by
  unfold ringError
  split <;> simp

theorem execRingTailWrite_steady (ring v s) (hs : Steady clk deep s) : SteadyRes clk deep (execRingTailWrite ring v s) := by
  unfold execRingTailWrite
  dsimp only
  repeat' split
  all_goals simp [hs]

theorem execRingReleaseWrite_steady (ring v s) (hs : Steady clk deep s) : SteadyRes clk deep (execRingReleaseWrite ring v s) := by
  unfold execRingReleaseWrite
  dsimp only
  repeat' split
  all_goals simp [hs]

@[simp] theorem servedRing_steady (ring s) : Steady clk deep (servedRing ring s) ↔ Steady clk deep s :=
  steady_of_outside (servedRing_outside (by decide) ..)

@[simp] theorem handOn_steady (c op s) : Steady clk deep (handOn c op s) ↔ Steady clk deep s := by
  unfold handOn
  dsimp only
  repeat' split
  all_goals simp

theorem execCommandFetch_steady (ring entry dmaOk fault s) (hs : Steady clk deep s) :
    SteadyRes clk deep (execCommandFetch ring entry dmaOk fault s) := by
  unfold execCommandFetch
  dsimp only
  repeat' split
  all_goals simp [hs]

theorem execSuRingCreate_steady (c i r cbase rbase size vector s) (hs : Steady clk deep s) :
    SteadyRes clk deep (execSuRingCreate c i r cbase rbase size vector s) := by
  simp [execSuRingCreate, hs]

theorem execSuRingDestroy_steady (c i r s) (hs : Steady clk deep s) : SteadyRes clk deep (execSuRingDestroy c i r s) := by
  refine command_steady _ _ _ _ (fun s hs => ?_) hs
  dsimp only
  repeat' split
  all_goals simp [hs]

theorem execSuNop_steady (c s) (hs : Steady clk deep s) : SteadyRes clk deep (execSuNop c s) := by
  simp [execSuNop, hs]

theorem execSuSessionOpen_steady (c s) (hs : Steady clk deep s) : SteadyRes clk deep (execSuSessionOpen c s) := by
  simp [execSuSessionOpen, hs]

@[simp] theorem closeSession_steady (o s) : Steady clk deep (closeSession o s) ↔ Steady clk deep s :=
  steady_of_outside (closeSession_outside (by decide) ..)

@[simp] theorem disarm_steady (s) : Steady clk deep (disarm s) ↔ Steady clk deep s := by
  simp [disarm]

@[simp] theorem commitFailed_steady (a detail r0 s) : Steady clk deep (commitFailed a detail r0 s) ↔ Steady clk deep s := by
  simp [commitFailed]

theorem execSuSessionAbort_steady (c s) (hs : Steady clk deep s) : SteadyRes clk deep (execSuSessionAbort c s) := by
  refine command_steady _ _ _ _ (fun s hs => ?_) hs
  dsimp only
  repeat' split
  all_goals simp [hs]

theorem execSuSessionStatus_steady (c s) (hs : Steady clk deep s) : SteadyRes clk deep (execSuSessionStatus c s) := by
  simp [execSuSessionStatus, hs]

theorem execSuCheckReport_steady (c s) (hs : Steady clk deep s) : SteadyRes clk deep (execSuCheckReport c s) := by
  simp [execSuCheckReport, hs]

theorem execSuCommit_steady (c t flags s) (hs : Steady clk deep s) : SteadyRes clk deep (execSuCommit c t flags s) := by
  refine command_steady _ _ _ _ (fun u hu => ?_) hs
  extract_lets o x
  split
  · exact hu
  · split
    · exact hu
    · split
      · exact hu
      · next persist tmin first at_ id v a w y _ _ _ =>
        have hv : Steady clk deep v := by
          unfold v
          split <;> simp [hu]
        have hy : Steady clk deep y := by simp [y, w, hv]
        split
        · exact hu
        · split
          · exact hu
          · split
            · exact hu
            · split
              · exact hu
              · split
                · exact hy
                · split <;> simp [hy]

theorem execCommitPrepDeadline_steady (complete s) (hs : Steady clk deep s) : SteadyRes clk deep (execCommitPrepDeadline complete s) := by
  unfold execCommitPrepDeadline
  split <;> simp [hs]

theorem execBootSelectorWrite_steady (s) (hs : Steady clk deep s) : SteadyRes clk deep (execBootSelectorWrite s) := by
  unfold execBootSelectorWrite
  split <;> simp [hs]

theorem execSuPkgLoad_steady (c extents p store s) (hs : Steady clk deep s) : SteadyRes clk deep (execSuPkgLoad c extents p store s) := by
  simp [execSuPkgLoad, hs]

@[simp] theorem packageDone_steady (w b s) : Steady clk deep (packageDone w b s) ↔ Steady clk deep s := by
  simp [packageDone]

theorem execPkgVerifyDone_steady (s) (hs : Steady clk deep s) : SteadyRes clk deep (execPkgVerifyDone s) := by
  unfold execPkgVerifyDone
  dsimp only
  repeat' split
  all_goals simp [hs]

theorem execPkgFlashWriteDone_steady (s) (hs : Steady clk deep s) : SteadyRes clk deep (execPkgFlashWriteDone s) := by
  unfold execPkgFlashWriteDone
  split <;> simp [hs]

theorem execSuPkgStage_steady (c s) (hs : Steady clk deep s) : SteadyRes clk deep (execSuPkgStage c s) := by
  refine command_steady _ _ _ _ (fun s hs => ?_) hs
  dsimp only
  repeat' split
  all_goals simp [hs]

theorem execSuPkgStatus_steady (c s) (hs : Steady clk deep s) : SteadyRes clk deep (execSuPkgStatus c s) := by
  simp [execSuPkgStatus, hs]

/-! ## What InstanceOps keeps -/

@[simp] theorem modInst_steady (i f s) : Steady clk deep (modInst i f s) ↔ Steady clk deep s :=
  steady_of_outside (modInst_outside (by decide) ..)

@[simp] theorem setInst_steady (i x s) : Steady clk deep (setInst i x s) ↔ Steady clk deep s := by
  simp [setInst]

@[simp] theorem resetSession_steady (i s) : Steady clk deep (resetSession i s) ↔ Steady clk deep s := by
  unfold resetSession
  split <;> simp

@[simp] theorem resetRings_steady (i s) : Steady clk deep (resetRings i s) ↔ Steady clk deep s := by
  simp only [resetRings, releaseReplies_steady, finishDestroy_steady, onFb_steady, onSu_steady]

@[simp] theorem resetTasks_steady (o s) (hs : Steady clk deep s) : Steady clk deep (resetTasks o s) := by
  have hdrop (gone : Batch → Bool) : Steady clk deep (dropBatches gone s) := by simp [hs]
  unfold resetTasks
  simp only [serveReads_steady, setRun_steady, modOwnerTasks_steady, onFb_steady]
  refine ⟨(hdrop _).tb, (hdrop _).edges, fun hd e he => ?_, (hdrop _).errs, (hdrop _).recs⟩
  obtain ⟨x, hx, rfl⟩ := List.mem_map.mp he
  exact (hdrop _).eng hd x hx

@[simp] theorem resetQueues_steady (o s) : Steady clk deep (resetQueues o s) ↔ Steady clk deep s :=
  steady_of_outside (resetQueues_outside (by decide) ..)

@[simp] theorem resetRequests_steady (o s) : Steady clk deep (resetRequests o s) ↔ Steady clk deep s :=
  steady_of_outside (resetRequests_outside (by decide) ..)

@[simp] theorem resetRecorders_steady (o s) : Steady clk deep (resetRecorders o s) ↔ Steady clk deep s := by
  simp [resetRecorders]

@[simp] theorem resetWaits_steady (i s) : Steady clk deep (resetWaits i s) ↔ Steady clk deep s := by
  unfold resetWaits
  dsimp only
  repeat' split
  all_goals simp

@[simp] theorem startReset_steady (i s) (hs : Steady clk deep s) : Steady clk deep (startReset i s) := by
  simp [startReset, hs]

@[simp] theorem removeHostq_steady (i j s) : Steady clk deep (removeHostq i j s) ↔ Steady clk deep s :=
  steady_of_outside (removeHostq_outside (by decide) ..)

@[simp] theorem releaseShares_steady (i old new s) : Steady clk deep (releaseShares i old new s) ↔ Steady clk deep s := by
  simp [releaseShares]

@[simp] theorem restoreRegion_steady (o x s) (hs : Steady clk deep s) : Steady clk deep (restoreRegion o x s) := by
  unfold restoreRegion
  split <;> simp [hs]

@[simp] theorem restoreTask_steady (o freezeLt x s) : Steady clk deep (restoreTask o freezeLt x s) ↔ Steady clk deep s := by
  simp [restoreTask]

@[simp] theorem restorePoint_steady (x s) : Steady clk deep (restorePoint x s) ↔ Steady clk deep s := by
  unfold restorePoint
  split <;> simp

@[simp] theorem restoreUnit_steady (o x s) : Steady clk deep (restoreUnit o x s) ↔ Steady clk deep s := by
  simp [restoreUnit]

@[simp] theorem applySaved_steady (i x s) (hs : Steady clk deep s) : Steady clk deep (applySaved i x s) := by
  have regions := steady_foldl (fun s r => restoreRegion i r s) (fun _ _ hu => restoreRegion_steady _ _ _ hu) x.regions hs
  simp [applySaved, regions]

/-! ## What Queues keeps -/

@[simp] theorem badTransfer_steady (q h s) (hs : Steady clk deep s) : Steady clk deep (badTransfer q h s) := by
  unfold badTransfer
  split <;> simp [hs]

@[simp] theorem openChecked_steady (q guard r) (hs : Steady clk deep r.1) : Steady clk deep (openChecked q guard r) := by
  have h := (guardRead_steady (clk := clk) (deep := deep) 0x3 guard r.1).mpr hs
  unfold openChecked
  split
  · exact hs
  · split <;> next he => rw [he] at h; simp [h]

theorem execPacketOpen_steady (p q header rxLt rxStatus guard s) (hs : Steady clk deep s) :
    SteadyRes clk deep (execPacketOpen p q header rxLt rxStatus guard s) := by
  unfold execPacketOpen
  dsimp only
  repeat' split
  all_goals simp [hs]

theorem execNarrowUnitWrite_steady (q bytes guard s) (hs : Steady clk deep s) :
    SteadyRes clk deep (execNarrowUnitWrite q bytes guard s) := by
  have h := (guardRead_steady (clk := clk) (deep := deep) 0x3 guard s).mpr hs
  unfold execNarrowUnitWrite
  split
  · simpa using hs
  · split <;> next he => rw [he] at h; simp [h]

theorem execEndMarkWrite_steady (q bytes guard s) (hs : Steady clk deep s) :
    SteadyRes clk deep (execEndMarkWrite q bytes guard s) := by
  have h := (guardRead_steady (clk := clk) (deep := deep) 0x3 guard s).mpr hs
  unfold execEndMarkWrite
  split
  · simpa using hs
  · split <;> next he => rw [he] at h; simp [h]

theorem execQueueRead_steady (q rq guard s) (hs : Steady clk deep s) : SteadyRes clk deep (execQueueRead q rq guard s) := by
  unfold execQueueRead
  dsimp only
  repeat' split
  all_goals simp [hs]

@[simp] theorem countGated_steady (q src s) : Steady clk deep (countGated q src s) ↔ Steady clk deep s :=
  steady_of_outside (countGated_outside (by decide) ..)

@[simp] theorem countSent_steady (src s) : Steady clk deep (countSent src s) ↔ Steady clk deep s :=
  steady_of_outside (countSent_outside (by decide) ..)

@[simp] theorem takenPacket_steady (core q guard s) : Steady clk deep (takenPacket core q guard s).2.2.2 ↔ Steady clk deep s := by
  simp [takenPacket]

@[simp] theorem enterFabric_steady (core ws s) : Steady clk deep (enterFabric core ws s) ↔ Steady clk deep s := by
  simp [enterFabric]

theorem execFabricTake_steady (core guard s) (hs : Steady clk deep s) : SteadyRes clk deep (execFabricTake core guard s) := by
  unfold execFabricTake
  split
  · simpa using hs
  · split
    · simpa using hs
    next q _ =>
      have h := (takenPacket_steady (clk := clk) (deep := deep) core q guard s).mpr hs
      split
      next he => rw [he] at h; simp [h]
      next he =>
        rw [he] at h
        repeat' split
        all_goals simp [h]

theorem execQmStageQueues_steady (c l s) (hs : Steady clk deep s) : SteadyRes clk deep (execQmStageQueues c l s) := by
  simp [execQmStageQueues, hs]

theorem execQmStageSteer_steady (c l s) (hs : Steady clk deep s) : SteadyRes clk deep (execQmStageSteer c l s) := by
  simp [execQmStageSteer, hs]

@[simp] theorem partQmReadCounters_steady (c base n s) : Steady clk deep (partQmReadCounters c base n s).1 ↔ Steady clk deep s :=
  steady_of_outside (partQmReadCounters_outside (by decide) ..)

theorem execQmReadCounters_steady (c base mask s) (hs : Steady clk deep s) : SteadyRes clk deep (execQmReadCounters c base mask s) := by
  simp [execQmReadCounters, hs]

@[simp] theorem partQmQueueFlush_steady (base n s) : Steady clk deep (partQmQueueFlush base n s).1 ↔ Steady clk deep s :=
  steady_of_outside (partQmQueueFlush_outside (by decide) ..)

theorem execQmQueueFlush_steady (c base mask s) (hs : Steady clk deep s) : SteadyRes clk deep (execQmQueueFlush c base mask s) := by
  simp [execQmQueueFlush, hs]

/-! ## What Instances keeps -/

theorem execImStageShares_steady (c l s) (hs : Steady clk deep s) : SteadyRes clk deep (execImStageShares c l s) := by
  simp [execImStageShares, hs]

theorem execImStageEvents_steady (c l s) (hs : Steady clk deep s) : SteadyRes clk deep (execImStageEvents c l s) := by
  simp [execImStageEvents, hs]

@[simp] theorem resetPart_steady (n s) (hs : Steady clk deep s) : Steady clk deep (resetPart n s).1 := by
  unfold resetPart
  split <;> simp [hs]

theorem execImInstanceReset_steady (c mask s) (hs : Steady clk deep s) : SteadyRes clk deep (execImInstanceReset c mask s) := by
  refine command_steady _ _ _ _ (fun u hu => ?_) hs
  have h := multipart_steady (clk := clk) (deep := deep) mask (part := resetPart) u (fun n v hv => by simp [hv]) hu
  dsimp only
  split
  · exact h
  · rwa [onIm_steady]

@[simp] theorem endReset_steady (i s) (hs : Steady clk deep s) : Steady clk deep (endReset i s) := by
  simp only [endReset, setInst_steady, modInst_steady, onFb_steady, onIm_steady, onEv_steady, onSu_steady, hs]

@[simp] theorem answerResets_steady (i s) : Steady clk deep (answerResets i s) ↔ Steady clk deep s := by
  simp [answerResets]

theorem execResetEnd_steady (i s) (hs : Steady clk deep s) : SteadyRes clk deep (execResetEnd i s) := by
  simp [execResetEnd, hs]

theorem execResetRequestWrite_steady (i v s) (hs : Steady clk deep s) : SteadyRes clk deep (execResetRequestWrite i v s) := by
  simp [execResetRequestWrite, hs]

theorem execImInstanceFreeze_steady (c i s) (hs : Steady clk deep s) : SteadyRes clk deep (execImInstanceFreeze c i s) := by
  simp [execImInstanceFreeze, hs]

theorem execFreezeBoundary_steady (i s) (hs : Steady clk deep s) : SteadyRes clk deep (execFreezeBoundary i s) := by
  unfold execFreezeBoundary
  split <;> simp [hs]

theorem execImInstanceSave_steady (c i slot s) (hs : Steady clk deep s) : SteadyRes clk deep (execImInstanceSave c i slot s) := by
  refine command_steady _ _ _ _ (fun s hs => ?_) hs
  dsimp only
  repeat' split
  all_goals simp [hs]

theorem execImInstanceRestore_steady (c i blob s) (hs : Steady clk deep s) : SteadyRes clk deep (execImInstanceRestore c i blob s) := by
  refine command_steady _ _ _ _ (fun u hu => ?_) hs
  split
  · exact hu
  · split <;> simp [hu]

theorem execRestoreApply_steady (i s) (hs : Steady clk deep s) : SteadyRes clk deep (execRestoreApply i s) := by
  unfold execRestoreApply
  split <;> simp [hs]

theorem execImInstanceThaw_steady (c i s) (hs : Steady clk deep s) : SteadyRes clk deep (execImInstanceThaw c i s) := by
  simp [execImInstanceThaw, hs]

@[simp] theorem thawGoose_steady (i s) : Steady clk deep (thawGoose i s) ↔ Steady clk deep s :=
  steady_of_outside (thawGoose_outside (by decide) ..)

theorem execThawBoundary_steady (i s) (hs : Steady clk deep s) : SteadyRes clk deep (execThawBoundary i s) := by
  unfold execThawBoundary
  split <;> simp [hs]

theorem execImInstanceInfo_steady (c i s) (hs : Steady clk deep s) : SteadyRes clk deep (execImInstanceInfo c i s) := by
  simp [execImInstanceInfo, hs]

theorem execImHostqSet_steady (c i j x s) (hs : Steady clk deep s) : SteadyRes clk deep (execImHostqSet c i j x s) := by
  unfold execImHostqSet
  dsimp only
  repeat' split
  all_goals simp [hs]

@[simp] theorem hostDone_steady (i j h addr len status data s) : Steady clk deep (hostDone i j h addr len status data s) ↔ Steady clk deep s :=
  steady_of_outside (hostDone_outside (by decide) ..)

theorem execHostqDescriptor_steady (i j desc data guard s) (hs : Steady clk deep s) :
    SteadyRes clk deep (execHostqDescriptor i j desc data guard s) := by
  unfold execHostqDescriptor
  dsimp only
  repeat' split
  all_goals simp [hs]

@[simp] theorem functionReset_steady (s) (hs : Steady clk deep s) : Steady clk deep (functionReset s) := by
  have resets := steady_foldl (fun s i => startReset i s) (fun u i hu => startReset_steady i u hu)
    (((List.range 64).map (· + 1)).filter (fun i => instState s i == .active || instState s i == .frozen)) hs
  simp only [functionReset, onIm_steady, onSw_steady, onSu_steady]
  exact resets

theorem execFunctionLevelReset_steady (s) (hs : Steady clk deep s) : SteadyRes clk deep (execFunctionLevelReset s) := by
  simp [execFunctionLevelReset, hs]

theorem execPerstAssert_steady (s) (hs : Steady clk deep s) : SteadyRes clk deep (execPerstAssert s) := by
  unfold execPerstAssert
  dsimp only
  repeat' split
  all_goals simp [hs]

/-! ## What CommitOps keeps -/

@[simp] theorem commitInst_steady (view i s) (hs : Steady clk deep s) : Steady clk deep (commitInst view i s) := by
  unfold commitInst
  split <;> simp [hs]

@[simp] theorem imCommit_steady (view s) (hs : Steady clk deep s) : Steady clk deep (imCommit view s) :=
  steady_foldl (fun s i => commitInst view i s) (fun _ _ hu => commitInst_steady _ _ _ hu) _ ((onIm_steady _ s).mpr hs)

@[simp] theorem commitPin_steady (new k s) : Steady clk deep (commitPin new k s) ↔ Steady clk deep s := by
  simp [commitPin]

@[simp] theorem commitAssign_steady (new s) : Steady clk deep (commitAssign new s) ↔ Steady clk deep s := by
  simp [commitAssign]

/-- The edges of the capture units set, their FIFOs kept. -/
theorem tccEdges_steady {s : State} {x : TbState} (e : Nat → EdgeSel) (hs : Steady clk deep s) (hacc : x.acc = s.tb.acc) (htxts : x.txts = s.tb.txts)
    (htcc : x.tcc = s.tb.tcc.mapIdx fun n u => { u with edge := e n }) : Steady clk deep { s with tb := x } := by
  refine ⟨⟨fun a ha => hacc.trans (hs.tb.1 a ha), fun hd => ⟨fun u hu => ?_, htxts ▸ (hs.tb.2 hd).2⟩⟩, hs.edges, hs.eng, hs.errs, hs.recs⟩
  rw [htcc] at hu
  obtain ⟨n, hn, rfl⟩ := Vector.mem_mapIdx.mp hu
  exact ((hs.tb.2 hd).1 s.tb.tcc[n] (Vector.getElem_mem hn) :)

@[simp] theorem tbCommit_steady (view s) (hs : Steady clk deep s) : Steady clk deep (tbCommit view s) := by
  unfold tbCommit
  extract_lets ptp src pins lat sec asg tb edges pinned t2 named assigned judged
  have hedges : Steady clk deep edges := tccEdges_steady (fun n => vget pins.edges n .rising) hs rfl rfl rfl
  clear_value edges
  have hpinned : Steady clk deep pinned := (steady_foldl_iff (fun s k => commitPin pins k s) (fun u k => commitPin_steady _ _ u) _ _).mpr hedges
  clear_value pinned
  have hnamed : Steady clk deep named := (steady_set_tb { t2 with pinCfg := pins } _ ⟨rfl, rfl, rfl⟩).mpr hpinned
  clear_value named
  have hjudged : Steady clk deep judged := (runBmca_steady _).mpr
    ((steady_foldl_iff (fun s k => commitAssign (asg k) s) (fun u k => commitAssign_steady _ u) _ _).mpr hnamed)
  clear_value judged
  split
  · exact (sourceLost_steady _).mpr hjudged
  · exact (sourceQualified_steady _).mpr hjudged

@[simp] theorem commitPort_steady (view p s) : Steady clk deep (commitPort view p s) ↔ Steady clk deep s := by
  simp [commitPort]

@[simp] theorem commitPair_steady (view k s) : Steady clk deep (commitPair view k s) ↔ Steady clk deep s :=
  steady_of_outside (commitPair_outside (by decide) ..)

@[simp] theorem pxCommit_steady (t view s) : Steady clk deep (pxCommit t view s) ↔ Steady clk deep s := by
  simp [pxCommit]

@[simp] theorem swCommit_steady (view s) : Steady clk deep (swCommit view s) ↔ Steady clk deep s :=
  steady_of_outside (swCommit_outside (by decide) ..)

@[simp] theorem qmCommit_steady (view s) : Steady clk deep (qmCommit view s) ↔ Steady clk deep s :=
  steady_of_outside (qmCommit_outside (by decide) ..)

@[simp] theorem psSettings_steady (view s) : Steady clk deep (psSettings view s) ↔ Steady clk deep s :=
  steady_of_outside (psSettings_outside (by decide) ..)

@[simp] theorem markOrphans_steady (view s) : Steady clk deep (markOrphans view s) ↔ Steady clk deep s := by
  simp [markOrphans]

@[simp] theorem dropForces_steady (l s) : Steady clk deep (dropForces l s) ↔ Steady clk deep s := by
  unfold dropForces
  split <;> simp

@[simp] theorem psCommit_steady (t drop view s) : Steady clk deep (psCommit t drop view s) ↔ Steady clk deep s := by
  simp [psCommit]

@[simp] theorem duikerCommit_steady (view s) : Steady clk deep (duikerCommit view s) ↔ Steady clk deep s :=
  steady_of_outside (duikerCommit_outside (by decide) ..)

@[simp] theorem switchBanks_steady (t drop changed view s) (hs : Steady clk deep s) : Steady clk deep (switchBanks t drop changed view s) := by
  have domains := steady_foldl (fun s n => applyDomain view n s) (fun _ _ hu => applyDomain_steady _ _ _ hu)
    ((List.range 9).filter (fun n => 2 ≤ n)) (imCommit_steady view s hs)
  unfold switchBanks
  dsimp only
  simp only [readiness_steady, duikerCommit_steady, cabCommit_steady, foCommit_steady, psCommit_steady]
  refine fbCommit_steady _ _ _ _ (arCommit_steady _ _ _ ?_)
  simp only [peCommit_steady, frCommit_steady, seCommit_steady, qmCommit_steady, swCommit_steady, pxCommit_steady]
  exact tbCommit_steady _ _ domains

/-! ## What StartOps keeps -/

@[simp] theorem bringDomain_steady (n s) (hs : Steady clk deep s) : Steady clk deep (bringDomain n s) := by
  unfold bringDomain
  split <;> simp [hs]

@[simp] theorem startFrames_steady (view s) : Steady clk deep (startFrames view s) ↔ Steady clk deep s := by
  simp [startFrames]

@[simp] theorem bringUp_steady (t view s) (hs : Steady clk deep s) : Steady clk deep (bringUp t view s) := by
  have banks (f : SuState → SuState) (g : SeState → SeState) := switchBanks_steady t false view view _ ((onSu_steady f _).mpr
    ((onSe_steady g s).mpr hs))
  unfold bringUp
  dsimp only
  rw [readiness_steady, phaseTen_steady]
  refine (steady_foldl_iff (fun s g => judgeReady g s) (fun u g => judgeReady_steady g u) _ _).mpr ?_
  rw [markPhase_steady, onFo_steady, startFrames_steady]
  exact steady_foldl (fun s n => bringDomain (n + 2) s) (fun u n hu => bringDomain_steady _ u hu) _ (banks _ _)

/-! ## What Commit keeps -/

@[simp] theorem applyCommit_steady (a view s) (hs : Steady clk deep s) : Steady clk deep (applyCommit a view s) := by
  simp [applyCommit, hs]

@[simp] theorem commitSessions_steady (o s) : Steady clk deep (commitSessions o s) ↔ Steady clk deep s :=
  steady_of_outside (commitSessions_outside (by decide) ..)

@[simp] theorem commitRecord_steady (a package s) : Steady clk deep (commitRecord a package s) ↔ Steady clk deep s := by
  unfold commitRecord
  split <;> simp

@[simp] theorem commitAnswer_steady (a s) : Steady clk deep (commitAnswer a s) ↔ Steady clk deep s := by
  simp [commitAnswer]

theorem execCommitStrobe_steady (s) (hs : Steady clk deep s) : SteadyRes clk deep (execCommitStrobe s) := by
  unfold execCommitStrobe
  split <;> simp [hs]

/-! ## What Guard keeps -/

@[simp] theorem scrubCount_steady (r word f use s) (hs : Steady clk deep s) : Steady clk deep (scrubCount r word f use s) := by
  unfold scrubCount
  dsimp only
  repeat' split
  all_goals simp [hs]

theorem execScrubRead_steady (r d words word use s) (hs : Steady clk deep s) : SteadyRes clk deep (execScrubRead r d words word use s) := by
  simp [execScrubRead, hs]

@[simp] theorem errDrop_steady (s) (hs : Steady clk deep s) : Steady clk deep (errDrop s) :=
  ⟨hs.tb, hs.edges, hs.eng, fun hd => (List.drop_sublist ..).length_le.trans (hs.errs hd), hs.recs⟩

theorem execGerrRecordPop_steady (rq wide s) (hs : Steady clk deep s) : SteadyRes clk deep (execGerrRecordPop rq wide s) :=
  hostRead_steady _ s (fun u hu => by simp [hu]) hs

/-! ## What Metrology keeps -/

@[simp] theorem storeMail_steady (u bad s) : Steady clk deep (storeMail u bad s) ↔ Steady clk deep s := by
  unfold storeMail
  split <;> simp

theorem execMailboxUpdate_steady (bad s) (hs : Steady clk deep s) : SteadyRes clk deep (execMailboxUpdate bad s) := by
  unfold execMailboxUpdate
  split <;> simp [hs]

theorem execMailboxSilent_steady (s) (hs : Steady clk deep s) : SteadyRes clk deep (execMailboxSilent s) := by
  simp [execMailboxSilent, hs]

/-! ## What Power keeps -/

theorem execPaStageDomains_steady (c l s) (hs : Steady clk deep s) : SteadyRes clk deep (execPaStageDomains c l s) := by
  simp [execPaStageDomains, hs]

theorem execPaStageDuiker_steady (c x s) (hs : Steady clk deep s) : SteadyRes clk deep (execPaStageDuiker c x s) := by
  simp [execPaStageDuiker, hs]

@[simp] theorem domainPart_steady {f : Nat → State → State × Status} (n s) (hf : ∀ k u, Steady clk deep u → Steady clk deep (f k u).1)
    (hs : Steady clk deep s) : Steady clk deep (domainPart f n s).1 := by
  unfold domainPart
  split
  · exact hs
  · exact hf n s hs

@[simp] theorem domainCtrl_steady (c mask) {f : Nat → State → State × Status} (s)
    (hf : ∀ k u, Steady clk deep u → Steady clk deep (f k u).1) (hs : Steady clk deep s) : SteadyRes clk deep (domainCtrl c mask f s) :=
  command_steady _ _ _ _ (fun u hu => multipart_steady mask u (fun n v hv => domainPart_steady n v hf hv) hu) hs

@[simp] theorem wakePart_steady (n s) : Steady clk deep (wakePart n s).1 ↔ Steady clk deep s := by
  simp [wakePart]

@[simp] theorem offPart_steady (n s) (hs : Steady clk deep s) : Steady clk deep (offPart n s).1 := by
  simp [offPart, hs]

@[simp] theorem wakeLoses_steady (n s) : Steady clk deep (wakeLoses n s) ↔ Steady clk deep s := by
  simp [wakeLoses]

@[simp] theorem lockPart_steady (n s) (hs : Steady clk deep s) : Steady clk deep (lockPart n s).1 := by
  simp [lockPart, hs]

@[simp] theorem unlockPart_steady (n s) : Steady clk deep (unlockPart n s).1 ↔ Steady clk deep s :=
  steady_of_outside (unlockPart_outside (by decide) ..)

theorem execPaDomainWake_steady (c mask s) (hs : Steady clk deep s) : SteadyRes clk deep (execPaDomainWake c mask s) := by
  simp [execPaDomainWake, hs]

theorem execPaDomainOff_steady (c mask s) (hs : Steady clk deep s) : SteadyRes clk deep (execPaDomainOff c mask s) :=
  domainCtrl_steady _ _ s (fun n u hu => by simp [hu]) hs

theorem execPaDomainLock_steady (c mask s) (hs : Steady clk deep s) : SteadyRes clk deep (execPaDomainLock c mask s) :=
  domainCtrl_steady _ _ s (fun n u hu => by simp [hu]) hs

theorem execPaDomainUnlock_steady (c mask s) (hs : Steady clk deep s) : SteadyRes clk deep (execPaDomainUnlock c mask s) := by
  simp [execPaDomainUnlock, hs]

theorem execDomainIdleOff_steady (n s) (hs : Steady clk deep s) : SteadyRes clk deep (execDomainIdleOff n s) := by
  simp [execDomainIdleOff, hs]

theorem execDomainDataAccess_steady (n need rq s) (hs : Steady clk deep s) : SteadyRes clk deep (execDomainDataAccess n need rq s) := by
  unfold execDomainDataAccess
  dsimp only
  repeat' split
  all_goals simp [hs]

@[simp] theorem offAfter_steady (n s) (hs : Steady clk deep s) : Steady clk deep (offAfter n s) := by
  unfold offAfter
  split <;> simp [hs]

theorem execDomainOn_steady (n s) (hs : Steady clk deep s) : SteadyRes clk deep (execDomainOn n s) := by
  simp [execDomainOn, hs]

theorem execPd2WakeDone_steady (s) (hs : Steady clk deep s) : SteadyRes clk deep (execPd2WakeDone s) := by
  simp [execPd2WakeDone, hs]

@[simp] theorem sleepRefused_steady (k s) : Steady clk deep (sleepRefused k s) ↔ Steady clk deep s := by
  simp [sleepRefused]

theorem execPaSleep_steady (c mask alarm s) (hs : Steady clk deep s) : SteadyRes clk deep (execPaSleep c mask alarm s) := by
  refine command_steady _ _ _ _ (fun u hu => ?_) hs
  repeat' split
  all_goals simp [hu]

theorem execSleepStopBoundary_steady (rtc s) (hs : Steady clk deep s) : SteadyRes clk deep (execSleepStopBoundary rtc s) := by
  unfold execSleepStopBoundary
  split
  · simpa using hs
  · rw [steadyRes_next, onPa_steady]
    refine steady_foldl _ (fun u o hu => ?_) _ ((setRtc_steady rtc s).mpr hs)
    split
    · exact hu
    · exact applyRun_steady _ _ _ _ hu

@[simp] theorem retainTime_steady (interval mask alarm s) : Steady clk deep (retainTime interval mask alarm s) ↔ Steady clk deep s :=
  steady_of_outside (retainTime_outside (by decide) ..)

theorem execRtcCalibrationDone_steady (rtc s) (hs : Steady clk deep s) : SteadyRes clk deep (execRtcCalibrationDone rtc s) := by
  unfold execRtcCalibrationDone
  split
  · simpa using hs
  · split
    · simpa using hs
    · refine (steadyRes_next _).mpr ((onPa_steady _ _).mpr (poweredDown_steady _ _ ?_ (.inl rfl)))
      simp [hs]

@[simp] theorem reportTamper_steady (s) : Steady clk deep (reportTamper s) ↔ Steady clk deep s := by
  simp [reportTamper]

@[simp] theorem recordWake_steady (again c s) : Steady clk deep (recordWake again c s) ↔ Steady clk deep s :=
  steady_of_outside (recordWake_outside (by decide) ..)

@[simp] theorem beginStartup_steady (cold s) : Steady clk deep (beginStartup cold s) ↔ Steady clk deep s := by
  simp [beginStartup]

@[simp] theorem wakeSource_steady (c s) : Steady clk deep (wakeSource c s) ↔ Steady clk deep s := by
  unfold wakeSource
  dsimp only
  repeat' split
  all_goals simp

theorem execWakeNFall_steady (rtc s) (hs : Steady clk deep s) : SteadyRes clk deep (execWakeNFall rtc s) := by
  simp [execWakeNFall, hs]

theorem execRtcAlarm_steady (rtc s) (hs : Steady clk deep s) : SteadyRes clk deep (execRtcAlarm rtc s) := by
  simp [execRtcAlarm, hs]

@[simp] theorem latchTamper_steady (k s) : Steady clk deep (latchTamper k s) ↔ Steady clk deep s := by
  simp [latchTamper]

@[simp] theorem tamperLevel_steady (k level s) : Steady clk deep (tamperLevel k level s) ↔ Steady clk deep s :=
  steady_of_outside (tamperLevel_outside (by decide) ..)

theorem execTamperSample_steady (k level rtc s) (hs : Steady clk deep s) : SteadyRes clk deep (execTamperSample k level rtc s) := by
  simp [execTamperSample, hs]

theorem execTamperLatch_steady (k rtc s) (hs : Steady clk deep s) : SteadyRes clk deep (execTamperLatch k rtc s) := by
  simp [execTamperLatch, hs]

@[simp] theorem startLink_steady (s) : Steady clk deep (startLink s) ↔ Steady clk deep s :=
  steady_of_outside (startLink_outside (by decide) ..)

theorem execPerstNRise_steady (rtc s) (hs : Steady clk deep s) : SteadyRes clk deep (execPerstNRise rtc s) := by
  simp [execPerstNRise, hs]

theorem execIoSupplyLow_steady (s) (hs : Steady none deep s) : SteadyRes none deep (execIoSupplyLow s) := by
  have down (f : PaState → PaState) := poweredDown_steady (deep := deep) false (onPa f s) ((onPa_steady f s).mpr hs) (.inr rfl)
  unfold execIoSupplyLow
  dsimp only
  split
  · simpa using hs
  · exact (steadyRes_next _).mpr ((onPa_steady _ _).mpr (down _))

@[simp] theorem latchCause_steady (c s) : Steady clk deep (latchCause c s) ↔ Steady clk deep s :=
  steady_of_outside (latchCause_outside (by decide) ..)

theorem execBrownoutReset_steady (c s) (hs : Steady none deep s) : SteadyRes none deep (execBrownoutReset c s) := by
  have down := poweredDown_steady (deep := deep) false (latchCause c s) ((latchCause_steady c s).mpr hs) (.inr rfl)
  unfold execBrownoutReset
  split
  · simpa using hs
  · dsimp only
    split <;> simpa using down

theorem execPowerGood_steady (rtc s) (hs : Steady clk deep s) : SteadyRes clk deep (execPowerGood rtc s) := by
  simp [execPowerGood, hs]

theorem execPaRetainRead_steady (c ofs len s) (hs : Steady clk deep s) : SteadyRes clk deep (execPaRetainRead c ofs len s) := by
  simp [execPaRetainRead, hs]

theorem execPaRetainWrite_steady (c ofs data s) (hs : Steady clk deep s) : SteadyRes clk deep (execPaRetainWrite c ofs data s) := by
  simp [execPaRetainWrite, hs]

theorem execPaStartupReport_steady (c s) (hs : Steady clk deep s) : SteadyRes clk deep (execPaStartupReport c s) := by
  simp [execPaStartupReport, hs]

theorem execPaTamperClear_steady (c mask s) (hs : Steady clk deep s) : SteadyRes clk deep (execPaTamperClear c mask s) := by
  simp [execPaTamperClear, hs]

/-- Each reading of a list of counters leaves LT, the FIFOs, the call stacks and the log as `Steady` asks (R51). -/
def ClearsSteady {α : Type} (clk : Option (BitVec 96)) (deep : Bool) (l : List (α × State)) : Prop := ∀ b ∈ l, Steady clk deep b.2

@[simp] theorem clearsSteady_nil {α : Type} : ClearsSteady (α := α) clk deep [] := List.forall_mem_nil _

@[simp] theorem clearsSteady_cons {α : Type} (b : α × State) (l) :
    ClearsSteady clk deep (b :: l) ↔ Steady clk deep b.2 ∧ ClearsSteady clk deep l := List.forall_mem_cons

@[simp] theorem clearsSteady_map {α β : Type} (f : β → α × State) (l : List β) :
    ClearsSteady clk deep (l.map f) ↔ ∀ k ∈ l, Steady clk deep (f k).2 := List.forall_mem_map

/-! ## What Registers keeps -/

theorem bankRc_steady {n : Nat} (v : Vector (BitVec 64) n) {put : Vector (BitVec 64) n → State} (hput : ∀ v, Steady clk deep (put v)) :
    ClearsSteady clk deep (bankRc v put) := by
  simp [bankRc, hput]

@[simp] theorem tabRc_steady {ν : Type} (t : Tab Nat ν) (k get zero) {put : Tab Nat ν → State} (s) (hs : Steady clk deep s)
    (hput : ∀ t, Steady clk deep (put t)) : Steady clk deep (tabRc t k get zero put s).2 := by
  unfold tabRc
  split
  · exact hput _
  · exact hs

/-- A counter of an engine read and cleared leaves its call stack. -/
theorem tabRc_eng_steady (k get) {zero : Engine → Engine} (s) (hs : Steady clk deep s) (hzero : ∀ g, (zero g).stack = g.stack) :
    Steady clk deep (tabRc s.fb.eng k get zero (fun t => onFb (fun m => { m with eng := t }) s) s).2 := by
  unfold tabRc
  split
  next g hg =>
    obtain ⟨e, he, rfl⟩ := Option.map_eq_some_iff.mp hg
    refine ⟨hs.tb, hs.edges, fun hd => List.forall_mem_cons.mpr ⟨?_, fun x hx => hs.eng hd x (List.mem_filter.mp hx).1⟩, hs.errs, hs.recs⟩
    exact (congrArg List.length (hzero e.2)).trans_le (hs.eng hd e (List.mem_of_find?_eq_some he))
  · exact hs

theorem counters64_steady (s) (hs : Steady clk deep s) : ∀ a ∈ counters64 s, ∀ n, ClearsSteady clk deep (a.2.2.2.2 n) := by
  simp only [counters64, List.forall_mem_cons, List.not_mem_nil, false_imp_iff, implies_true, and_true]
  refine ⟨fun r => ?_, fun n => ?_, fun n => ?_, fun q => ?_, fun n => ?_, fun n => ?_, fun n => ?_, fun n => ?_, fun n => ?_, fun n => ?_,
    fun n => ?_, fun r => ?_, fun k => ?_, fun k => ?_, fun e => ?_, fun j => ?_, fun n => ?_, fun i => ?_, fun n => ?_⟩
  case refine_2 => exact bankRc_steady _ fun v => by simp [hs]
  case refine_3 => exact bankRc_steady _ fun v => by simp [hs]
  case refine_12 => exact bankRc_steady _ fun v => by simp [hs]
  case refine_19 => exact bankRc_steady _ fun v => by simp [hs]
  case refine_15 => simp only [clearsSteady_cons, clearsSteady_nil, tabRc_eng_steady, hs, implies_true, and_self]
  case refine_16 => split <;> simp [hs]
  all_goals simp [hs]

theorem rc64_steady {o : Nat} {s : State} {r : BitVec 64 × State} (h : rc64 o s = some r) (hs : Steady clk deep s) : Steady clk deep r.2 := by
  obtain ⟨a, ha, h⟩ := List.exists_of_findSome?_eq_some h
  obtain ⟨b, -, h⟩ := Option.bind_eq_some_iff.mp h
  refine counters64_steady s hs a ha b.1 r ?_
  unfold pick at h
  split at h
  · exact List.mem_of_getElem? h
  · nomatch h

theorem counters32_steady (s) (hs : Steady clk deep s) : ∀ a ∈ counters32 s, ∀ n, ∀ c ∈ a.2.2.2 n, Steady clk deep c.2.2 := by
  simp only [counters32, List.forall_mem_cons, List.not_mem_nil, false_imp_iff, implies_true, and_true, List.forall_mem_map,
    List.forall_mem_append, List.forall_mem_flatMap]
  refine ⟨?_, fun p => ?_, ?_, ?_, ?_, ?_, fun j => ?_, ?_⟩
  case refine_2 => exact txts_steady hs rfl rfl rfl fun q _ hq => hq
  case refine_7 => split <;> simp [hs]
  all_goals simp [hs]

theorem rc32_steady {o : Nat} {s : State} {r : BitVec 32 × State} (h : rc32 o s = some r) (hs : Steady clk deep s) : Steady clk deep r.2 := by
  obtain ⟨a, ha, h⟩ := List.exists_of_findSome?_eq_some h
  obtain ⟨b, -, h⟩ := Option.bind_eq_some_iff.mp h
  obtain ⟨c, hc, rfl⟩ := Option.map_eq_some_iff.mp h
  exact counters32_steady s hs a ha b.1 c (List.mem_of_find?_eq_some hc)

@[simp] theorem clearStatus_steady (n v s) : Steady clk deep (clearStatus n v s) ↔ Steady clk deep s := by
  unfold clearStatus
  split <;> simp

/-- An engine changed where it is listed, its call stack kept. -/
theorem adjAt_eng_steady {s : State} {k : Nat} {f : Engine → Engine} (hf : ∀ g, (f g).stack = g.stack) (hs : Steady clk deep s) :
    Steady clk deep (onFb (fun m => { m with eng := adjAt m.eng k f }) s) := by
  refine ⟨hs.tb, hs.edges, fun hd e he => ?_, hs.errs, hs.recs⟩
  obtain ⟨x, hx, rfl⟩ := List.mem_map.mp he
  have hxe := hs.eng hd x hx
  split
  · exact (congrArg List.length (hf x.2)).trans_le hxe
  · exact hxe

theorem clearUnits_steady (v s) (hs : Steady clk deep s) : ∀ a ∈ clearUnits v s, ∀ n, Steady clk deep (a.2.2.2 n) := by
  simp only [clearUnits, List.forall_mem_cons, List.not_mem_nil, false_imp_iff, implies_true, and_true]
  refine ⟨?_, ?_, ?_, ?_, fun n => ?_, ?_, ?_, ?_, ?_, ?_, ?_, ?_, ?_, ?_, ?_, ?_, fun e => ?_, ?_, fun e => ?_, ?_, fun j => ?_, ?_⟩
  case refine_5 => exact tcc_steady hs rfl rfl rfl fun u _ hu => hu
  case refine_17 => exact modEdge_steady e _ (fun _ hu => hu) hs
  case refine_19 => exact adjAt_eng_steady (fun _ => rfl) hs
  case refine_21 => split <;> simp [hs]
  all_goals simp [hs]

@[simp] theorem writeRing_steady (k r v s) : Steady clk deep (writeRing k r v s) ↔ Steady clk deep s :=
  steady_of_outside (writeRing_outside (by decide) ..)

@[simp] theorem writeMirror_steady (r v s) : Steady clk deep (writeMirror r v s) ↔ Steady clk deep s :=
  steady_of_outside (writeMirror_outside (by decide) ..)

@[simp] theorem writeBar0_steady (o v s) (hs : Steady clk deep s) : Steady clk deep (writeBar0 o v s) := by
  have units : Steady clk deep (((clearUnits v s).findSome? fun a => (elem o a.1 a.2.1 a.2.2.1).map a.2.2.2).getD s) := by
    cases h : (clearUnits v s).findSome? fun a => (elem o a.1 a.2.1 a.2.2.1).map a.2.2.2 with
    | none => exact hs
    | some t =>
      obtain ⟨a, ha, h⟩ := List.exists_of_findSome?_eq_some h
      obtain ⟨n, -, rfl⟩ := Option.map_eq_some_iff.mp h
      exact clearUnits_steady v s hs a ha n
  unfold writeBar0
  split
  · simp [hs]
  · split
    · simp [hs]
    · simp [hs]
    · simp [hs, units]

@[simp] theorem writeWindow_steady (i o v s) : Steady clk deep (writeWindow i o v s) ↔ Steady clk deep s :=
  steady_of_outside (writeWindow_outside (by decide) ..)

@[simp] theorem writeMsix_steady (o v s) : Steady clk deep (writeMsix o v s) ↔ Steady clk deep s :=
  steady_of_outside (writeMsix_outside (by decide) ..)

@[simp] theorem writeReg_steady (window o v s) (hs : Steady clk deep s) : Steady clk deep (writeReg window o v s) := by
  simp [writeReg, hs]

theorem execRegisterWrite_steady (window o v w s) (hs : Steady clk deep s) : SteadyRes clk deep (execRegisterWrite window o v w s) := by
  unfold execRegisterWrite
  repeat' split
  all_goals simp [hs]

theorem execGetInfo_steady (c n s) (hs : Steady clk deep s) : SteadyRes clk deep (execGetInfo c n s) := by
  simp [execGetInfo, hs]

theorem execGetStatus_steady (c n s) (hs : Steady clk deep s) : SteadyRes clk deep (execGetStatus c n s) :=
  answer_steady _ _ _ _ _ hs

theorem execReadActive_steady (c n op idx sub s) (hs : Steady clk deep s) : SteadyRes clk deep (execReadActive c n op idx sub s) := by
  simp [execReadActive, hs]

theorem execReadStaged_steady (c n op idx sub s) (hs : Steady clk deep s) : SteadyRes clk deep (execReadStaged c n op idx sub s) := by
  simp [execReadStaged, hs]

/-- The time rebuilt or started anew leaves the FIFOs, whatever LT reads (R21, R54). -/
theorem steady_set_tb_fifos {s : State} {x : TbState} (hs : Steady none deep s) (htcc : x.tcc = s.tb.tcc) (htxts : x.txts = s.tb.txts) :
    Steady none deep { s with tb := x } := by
  refine ⟨⟨nofun, fun hd => ?_⟩, hs.edges, hs.eng, hs.errs, hs.recs⟩
  rw [htcc, htxts]
  exact hs.tb.2 hd

/-! ## What Startup keeps -/

theorem rebuildTime_steady (s) (hs : Steady none deep s) : Steady none deep (rebuildTime s) := by
  unfold rebuildTime
  dsimp only
  exact (onPa_steady _ _).mpr (steady_set_tb_fifos hs rfl rfl)

theorem coldTime_steady (s) (hs : Steady none deep s) : Steady none deep (coldTime s) := by
  have hr : Steady none true State.reset := (steady_depths _).mpr (by decide)
  unfold coldTime
  exact (onPa_steady _ _).mpr ⟨⟨fun _ ha => (nomatch ha), fun _ => hr.tb.2 rfl⟩, hs.edges, hs.eng, hs.errs, hs.recs⟩

theorem execDuikerRestoreDone_steady (rtc s) (hs : Steady none deep s) : SteadyRes none deep (execDuikerRestoreDone rtc s) := by
  unfold execDuikerRestoreDone
  split
  · simpa using hs
  · dsimp only
    rw [steadyRes_next, markPhase_steady, onPa_steady]
    split
    · exact rebuildTime_steady _ ((onPa_steady _ _).mpr ((setRtc_steady _ _).mpr hs))
    · exact coldTime_steady _ ((onPa_steady _ _).mpr ((setRtc_steady _ _).mpr hs))

@[simp] theorem domainsOff_steady (l s) (hs : Steady clk deep s) : Steady clk deep (domainsOff l s) :=
  steady_foldl (fun s n => powerOff .off n s) (fun u n hu => powerOff_steady _ n u hu) l hs

theorem execDramTrainingDone_steady (ok s) (hs : Steady clk deep s) : SteadyRes clk deep (execDramTrainingDone ok s) := by
  simp [execDramTrainingDone, hs]

@[simp] theorem corruptSlot_steady (n s) : Steady clk deep (corruptSlot n s) ↔ Steady clk deep s := by
  simp [corruptSlot]

@[simp] theorem restoreSlots_steady (bad s) : Steady clk deep (restoreSlots bad s) ↔ Steady clk deep s := by
  simp [restoreSlots]

@[simp] theorem finishJournal_steady (s) : Steady clk deep (finishJournal s) ↔ Steady clk deep s := by
  unfold finishJournal
  split <;> simp

@[simp] theorem startupRecord_steady (s) : Steady clk deep (startupRecord s) ↔ Steady clk deep s := by
  simp [startupRecord]

@[simp] theorem bootedRecord_steady (id s) : Steady clk deep (bootedRecord id s) ↔ Steady clk deep s := by
  unfold bootedRecord
  split <;> simp

@[simp] theorem deliverEarly_steady (s) : Steady clk deep (deliverEarly s) ↔ Steady clk deep s :=
  steady_of_outside (deliverEarly_outside (by decide) ..)

theorem execSuReady_steady (bad s) (hs : Steady clk deep s) : SteadyRes clk deep (execSuReady bad s) := by
  simp [execSuReady, hs]

theorem execPackageLoaded_steady (heldOk s) (hs : Steady clk deep s) : SteadyRes clk deep (execPackageLoaded heldOk s) := by
  unfold execPackageLoaded
  dsimp only
  repeat' split
  all_goals simp [hs]

theorem execPointStoreBuilt_steady (s) (hs : Steady clk deep s) : SteadyRes clk deep (execPointStoreBuilt s) := by
  simp [execPointStoreBuilt, hs]

theorem execPortsUp_steady (s) (hs : Steady clk deep s) : SteadyRes clk deep (execPortsUp s) := by
  simp [execPortsUp, hs]

theorem execLockTimeout_steady (s) (hs : Steady clk deep s) : SteadyRes clk deep (execLockTimeout s) := by
  unfold execLockTimeout
  split <;> simp [hs]

theorem execInstancesStart_steady (s) (hs : Steady clk deep s) : SteadyRes clk deep (execInstancesStart s) := by
  unfold execInstancesStart
  split
  · simpa using hs
  · rw [steadyRes_next, readiness_steady, markPhase_steady]
    exact steady_foldl _ (fun u o hu => .ite (fun _ => runCold_steady _ _ _ _ hu) fun _ => hu) _ hs

/-! ## What RegRead keeps -/

theorem latching_steady {o : Nat} {s : State} {r : BitVec 64 × State} (h : latching o s = some r) (hs : Steady clk deep s) :
    Steady clk deep r.2 := by
  unfold latching at h
  split at h
  · cases h
    exact hs
  · split at h
    · cases h
      exact hs
    · split at h
      · cases h
        exact captureTake_steady _ _ hs
      · cases h
        exact edgeTake_steady _ _ hs
      · exact rc64_steady h hs

@[simp] theorem read32_steady (rq window o s) (hs : Steady clk deep s) : Steady clk deep (read32 rq window o s).2 := by
  unfold read32
  split
  · exact hs
  · split
    · exact hs
    · split
      next h => exact rc32_steady h hs
      next =>
        dsimp only
        split
        · simp [hs]
        · split
          · dsimp only
            split <;> simp [hs]
          · exact hs

@[simp] theorem readReg_steady (rq window o w s) (hs : Steady clk deep s) : Steady clk deep (readReg rq window o w s) := by
  have latched {r : BitVec 64 × State} (h : (if window = 0 then latching o s else none) = some r) : Steady clk deep r.2 := by
    split at h
    · exact latching_steady h hs
    · nomatch h
  unfold readReg
  split
  · simp [hs]
  · simp [hs]
  · split
    · simp [hs]
    · split
      next h => simpa using latched h
      next => simp [hs]
  · split
    · simp [hs]
    · split
      next h => simpa using latched h
      next => simp [hs]

theorem execCounterRead_steady (rq window o w s) (hs : Steady clk deep s) : SteadyRes clk deep (execCounterRead rq window o w s) := by
  unfold execCounterRead
  split
  · simp [hs]
  · exact hostRead_steady _ _ (fun u hu => readReg_steady _ _ _ _ _ hu) hs

/-! ## What StageCheck keeps -/

theorem execSuStageCheck_steady (c drop s) (hs : Steady clk deep s) : SteadyRes clk deep (execSuStageCheck c drop s) := by
  refine command_steady _ _ _ _ (fun s hs => ?_) hs
  dsimp only
  repeat' split
  all_goals simp [hs]

/-! ## What Vault keeps -/

theorem createKey_steady (op c k plain s) {body : KeyType → BitVec 32 → State → State × Except Status (List Byte × List Byte)}
    (hb : ∀ t d u, Steady clk deep u → Steady clk deep (body t d u).1) (hs : Steady clk deep s) :
    Steady clk deep (createKey op c k plain s body).1 := by
  unfold createKey
  split
  · exact hs
  next t lv d _ =>
    have h := hb t d s hs
    split
    next he => rw [he] at h; exact h
    next he =>
      rw [he] at h
      split <;> simpa using h

theorem execKvKeyLoad_steady (c k material aux vouch s) (hs : Steady clk deep s) : SteadyRes clk deep (execKvKeyLoad c k material aux vouch s) := by
  refine kvCommand_steady _ _ _ _ (fun u hu => createKey_steady _ _ _ _ _ (fun t d v hv => ?_) hu) hs
  split
  · exact hv
  · split <;> exact hv

theorem execKvKeyGenerate_steady (c k s) (hs : Steady clk deep s) : SteadyRes clk deep (execKvKeyGenerate c k s) := by
  refine kvCommand_steady _ _ _ _ (fun s hs => ?_) hs
  dsimp only
  repeat' split
  all_goals simp [hs]

@[simp] theorem parentDenied_steady (c p e s) : Steady clk deep (parentDenied c p e s) ↔ Steady clk deep s :=
  steady_of_outside (parentDenied_outside (by decide) ..)

theorem execKvKeyDerive_steady (c k q s) (hs : Steady clk deep s) : SteadyRes clk deep (execKvKeyDerive c k q s) := by
  refine kvCommand_steady _ _ _ _ (fun u hu => createKey_steady _ _ _ _ _ (fun t d v hv => ?_) hu) hs
  repeat' split
  all_goals simp [hv]

theorem execKvKeyUnwrap_steady (c k b s) (hs : Steady clk deep s) : SteadyRes clk deep (execKvKeyUnwrap c k b s) := by
  refine kvCommand_steady _ _ _ _ (fun u hu => ?_) hs
  split
  · exact hu
  · refine createKey_steady _ _ _ _ _ (fun t d v hv => ?_) hu
    split
    · exact hv
    · split
      · simp [hv]
      · split <;> exact hv

theorem execKvKeyAgree_steady (c k peer q s) (hs : Steady clk deep s) : SteadyRes clk deep (execKvKeyAgree c k peer q s) := by
  refine kvCommand_steady _ _ _ _ (fun s hs => ?_) hs
  dsimp only
  repeat' split
  all_goals simp [hs]

theorem execKvKeyWrap_steady (c slot parent s) (hs : Steady clk deep s) : SteadyRes clk deep (execKvKeyWrap c slot parent s) := by
  refine kvCommand_steady _ _ _ _ (fun s hs => ?_) hs
  dsimp only
  repeat' split
  all_goals simp [hs]

theorem execKvKeyPublic_steady (c slot s) (hs : Steady clk deep s) : SteadyRes clk deep (execKvKeyPublic c slot s) := by
  refine kvCommand_steady _ _ _ _ (fun s hs => ?_) hs
  dsimp only
  repeat' split
  all_goals simp [hs]

theorem execKvKeyRestrict_steady (c slot clear s) (hs : Steady clk deep s) : SteadyRes clk deep (execKvKeyRestrict c slot clear s) := by
  refine kvCommand_steady _ _ _ _ (fun s hs => ?_) hs
  dsimp only
  repeat' split
  all_goals simp [hs]

theorem partRevoke_steady (op c base) {part : Nat → State → State × Nat} (n s)
    (hpart : ∀ k u, Steady clk deep u → Steady clk deep (part k u).1) (hs : Steady clk deep s) :
    Steady clk deep (partRevoke op c base part n s).1 := by
  unfold partRevoke
  split <;> simp [hs, hpart]

theorem revokeParts_steady (op c base mask) {part : Nat → State → State × Nat} (s)
    (hpart : ∀ k u, Steady clk deep u → Steady clk deep (part k u).1) (hs : Steady clk deep s) :
    SteadyRes clk deep (revokeParts op c base mask part s) :=
  kvCommand_steady _ _ _ _ (fun u hu => multipart_steady mask u (fun n v hv => partRevoke_steady _ _ _ n v hpart hv) hu) hs

theorem execKvKeyRevoke_steady (c base mask s) (hs : Steady clk deep s) : SteadyRes clk deep (execKvKeyRevoke c base mask s) :=
  revokeParts_steady _ _ _ _ _ (fun _ _ hu => by simp [hu]) hs

theorem execKvKeyErase_steady (c base mask s) (hs : Steady clk deep s) : SteadyRes clk deep (execKvKeyErase c base mask s) :=
  revokeParts_steady _ _ _ _ _ (fun _ _ hu => by simp [hu]) hs

theorem execKvKeyInfo_steady (c slot s) (hs : Steady clk deep s) : SteadyRes clk deep (execKvKeyInfo c slot s) := by
  refine kvCommand_steady _ _ _ _ (fun u hu => ?_) hs
  split <;> exact hu

theorem execKvGcm_steady (c q s) (hs : Steady clk deep s) : SteadyRes clk deep (execKvGcm c q s) := by
  refine kvCommand_steady _ _ _ _ (fun s hs => ?_) hs
  dsimp only
  repeat' split
  all_goals simp [hs]

theorem execKvHmac_steady (c slot sha384 verify msg s) (hs : Steady clk deep s) :
    SteadyRes clk deep (execKvHmac c slot sha384 verify msg s) := by
  refine kvCommand_steady _ _ _ _ (fun u hu => ?_) hs
  split
  · exact hu
  · split <;> simp [hu]

theorem execKvHash_steady (c sha384 msg s) (hs : Steady clk deep s) : SteadyRes clk deep (execKvHash c sha384 msg s) := by
  simp [execKvHash, hs]

theorem execKvSign_steady (c slot hashed data s) (hs : Steady clk deep s) : SteadyRes clk deep (execKvSign c slot hashed data s) := by
  refine kvCommand_steady _ _ _ _ (fun s hs => ?_) hs
  dsimp only
  repeat' split
  all_goals simp [hs]

theorem execKvVerify_steady (c slot hashed data sig s) (hs : Steady clk deep s) : SteadyRes clk deep (execKvVerify c slot hashed data sig s) := by
  refine kvCommand_steady _ _ _ _ (fun s hs => ?_) hs
  dsimp only
  repeat' split
  all_goals simp [hs]

theorem execKvRandom_steady (c n s) (hs : Steady clk deep s) : SteadyRes clk deep (execKvRandom c n s) := by
  simp [execKvRandom, hs]

theorem execEntropyHealthFail_steady (s) (hs : Steady clk deep s) : SteadyRes clk deep (execEntropyHealthFail s) := by
  simp [execEntropyHealthFail, hs]

theorem execKvLcAdvance_steady (c target auth s) (hs : Steady none deep s) : SteadyRes none deep (execKvLcAdvance c target auth s) := by
  refine command_steady _ _ _ _ (fun u hu => ?_) hs
  split
  · exact hu
  · split
    · exact hu
    · dsimp only
      refine (onPa_steady _ _).mpr (poweredDown_steady _ _ ?_ (.inr rfl))
      simp [hu]

theorem execKvFwSvnRaise_steady (c s) (hs : Steady clk deep s) : SteadyRes clk deep (execKvFwSvnRaise c s) := by
  simp [execKvFwSvnRaise, hs]

/-! ## The instructions of the Tahr engines -/

/-- Where an instruction completes on an engine whose call stack is within its depth, the stack it leaves is too (R340). -/
def StackKept (sem : State → TahrOp → Engine → Region → Cycle → BitVec 64 → TahrRes) : Prop :=
  ∀ s x eng r cyc w n g k, eng.stack.length ≤ 16 → sem s x eng r cyc w = .done n g k → g.stack.length ≤ 16

theorem getEng_stack {s : State} (hs : Steady clk deep s) (hd : deep = true) (e : Nat) : (getEng s e).stack.length ≤ 16 := by
  unfold getEng Tab.getD Tab.get?
  cases h : s.fb.eng.find? (fun p => decide (p.1 = e)) with
  | none => exact Nat.zero_le _
  | some p => exact hs.eng hd p (List.mem_of_find?_eq_some h)

@[simp] theorem tahrCorrected_steady (e r s) (hs : Steady clk deep s) : Steady clk deep (tahrCorrected e r s) := by
  simp [tahrCorrected, hs]

/-- The engine that a completed instruction leaves. -/
theorem ran_steady {sem : State → TahrOp → Engine → Region → Cycle → BitVec 64 → TahrRes} {s : State} {x : TahrOp} {r : Region} {cyc : Cycle}
    {w : BitVec 64} {n : Nat} {g : Engine} {k : Cycle} (hsem : StackKept sem) (hs : Steady clk deep s)
    (h : sem s x (getEng s x.e.val) r cyc w = .done n g k) (c : Option Cycle) :
    Steady clk deep (modEng x.e.val (fun _ => { g with cycle := c }) s) :=
  ⟨hs.tb, hs.edges, fun hd => (modEng_steady x.e.val (fun _ => { g with cycle := c })
    (fun _ _ => (hsem _ _ _ _ _ _ _ _ _ (getEng_stack hs hd _) h :)) hs).eng hd, hs.errs, hs.recs⟩

/-- An instruction keeps `Steady` where its meaning keeps the depth of the call stack. -/
theorem tahr_steady (op zero x) {sem : State → TahrOp → Engine → Region → Cycle → BitVec 64 → TahrRes} (s) (hsem : StackKept sem)
    (hs : Steady clk deep s) : SteadyRes clk deep (tahr op zero x sem s) := by
  unfold tahr
  extract_lets e eng
  split
  · simpa using hs
  next cyc _ =>
    extract_lets fault
    have hfault (code addr : Nat) (w : BitVec 64) : SteadyRes clk deep (fault code addr w s) := by
      refine (steadyRes_next _).mpr (taskFault_steady _ _ _ _ _ _ _ _ ?_)
      split
      · split <;> simp [hs]
      · simp [hs]
      · exact hs
    clear_value fault
    simp only [steadyRes_ite, steadyRes_next, hs, if_true_left]
    intro _ _
    split
    · exact hfault ..
    next r _ =>
      split
      · exact hfault ..
      · split
        · exact hfault ..
        · simp only [steadyRes_ite, steadyRes_next, hfault, hs, if_true_left]
          intro _ _ _
          split
          · exact hfault ..
          next h =>
            split
            · simpa using hs
            · split
              · exact (steadyRes_next _).mpr (tahrCorrected_steady _ _ _ (ran_steady hsem hs h _))
              · exact (steadyRes_next _).mpr (ran_steady hsem hs h _)

/-- A meaning that never completes keeps every stack. -/
theorem stackKept_fault (code : Nat) (addr : BitVec 64 → Nat) : StackKept (fun _ _ _ _ _ w => .fault code (addr w)) := by
  intro s x eng r cyc w n g k _ h
  nomatch h

theorem tahrSet_steady (op zero n x f s) (hs : Steady clk deep s) : SteadyRes clk deep (tahrSet op zero n x f s) := by
  refine tahr_steady op zero x s (fun _ _ _ _ _ _ _ _ _ h he => ?_) hs
  cases he
  rwa [wrV_stack]

theorem tahrBin_steady (op zero n x f s) (hs : Steady clk deep s) : SteadyRes clk deep (tahrBin op zero n x f s) := tahrSet_steady _ _ _ _ _ _ hs

theorem tahrImm_steady (op zero x f s) (hs : Steady clk deep s) : SteadyRes clk deep (tahrImm op zero x f s) := tahrSet_steady _ _ _ _ _ _ hs

theorem tahrLoad_steady (op n x f s) (hs : Steady clk deep s) : SteadyRes clk deep (tahrLoad op n x f s) := by
  refine tahr_steady op _ x s (fun _ _ _ _ _ _ _ _ _ h he => ?_) hs
  dsimp only at he
  split at he
  · nomatch he
  · cases he
    rwa [wrV_stack]

@[simp] theorem stMem_stack (g : Engine) (a n : Nat) (v : BitVec 64) : (stMem g a n v).stack = g.stack := rfl

theorem tahrStore_steady (op n x s) (hs : Steady clk deep s) : SteadyRes clk deep (tahrStore op n x s) := by
  refine tahr_steady op _ x s (fun _ _ _ _ _ _ _ _ _ h he => ?_) hs
  dsimp only at he
  split at he
  · nomatch he
  · cases he
    exact h

/-- A branch leaves one of two engines. -/
theorem tahrBranch_stack {r : Region} {cyc k : Cycle} {w : BitVec 64} {taken : Bool} {eng eng' g : Engine} {n : Nat}
    (h : tahrBranch r cyc w taken eng eng' = .done n g k) : g = eng ∨ g = eng' := by
  unfold tahrBranch at h
  split at h
  · cases h
    exact .inl rfl
  · dsimp only at h
    split at h
    · nomatch h
    · cases h
      exact .inr rfl

theorem tahrCond_steady (op x p s) (hs : Steady clk deep s) : SteadyRes clk deep (tahrCond op x p s) := by
  refine tahr_steady op _ x s (fun _ _ _ _ _ _ _ _ _ h he => ?_) hs
  obtain rfl | rfl := tahrBranch_stack he <;> exact h

theorem execTahrBr_steady (x s) (hs : Steady clk deep s) : SteadyRes clk deep (execTahrBr x s) := by
  refine tahr_steady _ _ x s (fun _ _ _ _ _ _ _ _ _ h he => ?_) hs
  obtain rfl | rfl := tahrBranch_stack he <;> exact h

theorem execTahrLoop_steady (x s) (hs : Steady clk deep s) : SteadyRes clk deep (execTahrLoop x s) := by
  refine tahr_steady _ _ x s (fun _ _ _ _ _ _ _ _ _ h he => ?_) hs
  obtain rfl | rfl := tahrBranch_stack he <;> rwa [wrV_stack]

/-- FBCALL pushes onto a stack of fewer than 16 returns alone (R340). -/
theorem execTahrFbcall_steady (x s) (hs : Steady clk deep s) : SteadyRes clk deep (execTahrFbcall x s) := by
  refine tahr_steady _ _ x s (fun _ _ eng _ _ _ _ _ _ h he => ?_) hs
  dsimp only at he
  split at he
  · nomatch he
  · split at he
    · nomatch he
    next hroom =>
      cases he
      rw [wrV_stack]
      exact Nat.lt_of_not_le hroom

theorem execTahrRet_steady (x s) (hs : Steady clk deep s) : SteadyRes clk deep (execTahrRet x s) := by
  refine tahr_steady _ _ x s (fun _ _ eng _ _ _ _ _ _ h he => ?_) hs
  split at he
  · nomatch he
  next hl =>
    cases he
    rw [wrV_stack]
    rw [hl] at h
    exact Nat.le_of_succ_le h

theorem execTahrNop_steady (x s) (hs : Steady clk deep s) : SteadyRes clk deep (execTahrNop x s) := by
  refine tahr_steady _ _ x s (fun _ _ _ _ _ _ _ _ _ h he => ?_) hs
  cases he
  exact h

@[simp] theorem tahrEnd_steady (e s) (hs : Steady clk deep s) : Steady clk deep (tahrEnd e s) := by
  unfold tahrEnd
  extract_lets eng
  split
  · exact hs
  next cyc _ =>
    dsimp only
    rw [serveReads_steady, modTask_steady]
    refine modEng_steady _ _ (fun _ hg => hg) (countCycle_steady _ _ _ _ ?_)
    refine .ite (fun _ => ?_) fun _ => (offerBatch_steady _ _).mpr ?_
    all_goals exact steady_foldl _ (fun _ _ hu => (pointDenied_steady _).mpr hu) _ hs

theorem execTahrEnd_steady (x s) (hs : Steady clk deep s) : SteadyRes clk deep (execTahrEnd x s) := by
  have h : SteadyRes clk deep (tahr 0x89 (zD ||| zA ||| zB ||| zC ||| zI) x (fun _ _ eng _ cyc _ => .done 1 eng { cyc with ended := true }) s) := by
    refine tahr_steady _ _ x s (fun _ _ _ _ _ _ _ _ _ h he => ?_) hs
    cases he
    exact h
  obtain ⟨t, ht, h⟩ := h
  unfold execTahrEnd
  rw [ht]
  dsimp only
  split
  · split <;> simp [h]
  · simpa using h

theorem tahrLdp_steady (op x f s) (hs : Steady clk deep s) : SteadyRes clk deep (tahrLdp op x f s) := by
  refine tahr_steady _ _ x s (fun _ _ _ _ _ _ _ _ _ h he => ?_) hs
  dsimp only at he
  split at he
  · nomatch he
  · split at he
    · nomatch he
    · cases he
      rwa [wrV_stack]

theorem tahrStp_steady (op zero x lt s) (hs : Steady clk deep s) : SteadyRes clk deep (tahrStp op zero x lt s) := by
  refine tahr_steady _ _ x s (fun _ _ _ _ _ _ _ _ _ h he => ?_) hs
  dsimp only at he
  split at he
  · nomatch he
  · cases he
    exact h

theorem execTahrRdsr_steady (x s) (hs : Steady clk deep s) : SteadyRes clk deep (execTahrRdsr x s) := by
  refine tahr_steady _ _ x s (fun _ _ _ _ _ _ _ _ _ h he => ?_) hs
  split at he
  · nomatch he
  · cases he
    rwa [wrV_stack]

theorem tahrBlock_steady (op zero n cycles x) {f : Engine → Cycle → Nat → BitVec 64 → BitVec 64 → Engine × BitVec 64} (s)
    (hf : ∀ eng cyc a i p, (f eng cyc a i p).1.stack = eng.stack) (hs : Steady clk deep s) :
    SteadyRes clk deep (tahrBlock op zero n cycles x f s) := by
  refine tahr_steady _ _ x s (fun _ _ _ _ _ _ _ _ _ h he => ?_) hs
  dsimp only at he
  split at he
  · nomatch he
  · cases he
    rwa [wrV_stack, hf]

theorem tahrTimer_steady (op x f s) (hs : Steady clk deep s) : SteadyRes clk deep (tahrTimer op x f s) :=
  tahrBlock_steady _ _ _ _ x s (fun _ _ _ _ _ => by simp [wrTimer]) hs

theorem execTahrRtrig_steady (x s) (hs : Steady clk deep s) : SteadyRes clk deep (execTahrRtrig x s) :=
  tahrBlock_steady _ _ _ _ x s (fun _ _ _ _ _ => rfl) hs

theorem execTahrFtrig_steady (x s) (hs : Steady clk deep s) : SteadyRes clk deep (execTahrFtrig x s) :=
  tahrBlock_steady _ _ _ _ x s (fun _ _ _ _ _ => rfl) hs

theorem tahrCounter_steady (op x f d s) (hs : Steady clk deep s) : SteadyRes clk deep (tahrCounter op x f d s) :=
  tahrBlock_steady _ _ _ _ x s (fun _ _ _ _ _ => rfl) hs

theorem execTahrQsend_steady (x s) (hs : Steady clk deep s) : SteadyRes clk deep (execTahrQsend x s) := by
  refine tahr_steady _ _ x s (fun _ _ _ _ _ _ _ _ _ h he => ?_) hs
  dsimp only at he
  split at he
  · nomatch he
  · split at he
    · cases he
      exact h
    · split at he
      · nomatch he
      · cases he
        exact h

theorem execTahrRaise_steady (x s) (hs : Steady clk deep s) : SteadyRes clk deep (execTahrRaise x s) :=
  tahr_steady _ _ x s (stackKept_fault _ _) hs

theorem execIllegal_steady (x s) (hs : Steady clk deep s) : SteadyRes clk deep (execIllegal x s) := by
  unfold execIllegal
  extract_lets eng
  split
  · simpa using hs
  · dsimp only
    split
    · exact tahr_steady _ _ x s (stackKept_fault _ _) hs
    · simpa using hs

theorem execAccessAtFetch_steady (x s) (hs : Steady clk deep s) : SteadyRes clk deep (execAccessAtFetch x s) := by
  unfold execAccessAtFetch
  extract_lets eng
  split
  · simpa using hs
  · split
    · exact tahr_steady _ _ x s (stackKept_fault _ _) hs
    · simpa using hs

/-! ## Every command -/

/-- A command that neither resets the device nor restarts its time (R20, R21, R54). -/
structure SparesLt (c : Instr) : Prop where
  wake : ∀ r, c ≠ .duikerRestoreDone r
  life : ∀ d n a, c ≠ .kvLcAdvance d n a
  supply : c ≠ .ioSupplyLow
  reset : ∀ k, c ≠ .brownoutReset k

/-- Every command answers a next state, which keeps the depths, and LT too where the command does not restart it. -/
theorem exec_steady (c s) (hclk : clk = none ∨ SparesLt c) (hs : Steady clk deep s) : SteadyRes clk deep (exec c s) := by
  unfold exec
  cases c with
  | compareFire => exact execCompareFire_steady (hs := hs) ..
  | pinOutputFire => exact execPinOutputFire_steady (hs := hs) ..
  | pulseEnd => exact execPulseEnd_steady (hs := hs) ..
  | anchorAdvance => exact execAnchorAdvance_steady (hs := hs) ..
  | servoUpdate => exact execServoUpdate_steady (hs := hs) ..
  | sourceLost => exact execSourceLost_steady (hs := hs) ..
  | lossTimeout => exact execLossTimeout_steady (hs := hs) ..
  | ptpMessageRx => exact execPtpMessageRx_steady (hs := hs) ..
  | ptpMessageTx => exact execPtpMessageTx_steady (hs := hs) ..
  | captureEdge => exact execCaptureEdge_steady (hs := hs) ..
  | irigFrame => exact execIrigFrame_steady (hs := hs) ..
  | capturePop => exact execCapturePop_steady (hs := hs) ..
  | txtsPop => exact execTxtsPop_steady (hs := hs) ..
  | ltNowRead => exact steadyRes_of_outside (execLtNowRead_outside (by decide) ..) hs
  | rtcRead => exact steadyRes_of_outside (execRtcRead_outside (by decide) ..) hs
  | rsUpperRead => exact steadyRes_of_outside (execRsUpperRead_outside (by decide) ..) hs
  | counterRead => exact execCounterRead_steady (hs := hs) ..
  | registerWrite => exact execRegisterWrite_steady (hs := hs) ..
  | tbStagePtp => exact execTbStagePtp_steady (hs := hs) ..
  | tbStageSources => exact execTbStageSources_steady (hs := hs) ..
  | tbStagePortLat => exact execTbStagePortLat_steady (hs := hs) ..
  | tbStagePins => exact execTbStagePins_steady (hs := hs) ..
  | tbStageTcuAssign => exact execTbStageTcuAssign_steady (hs := hs) ..
  | tbTcuArm => exact execTbTcuArm_steady (hs := hs) ..
  | tbTcuDisarm => exact execTbTcuDisarm_steady (hs := hs) ..
  | tbReadTime => exact execTbReadTime_steady (hs := hs) ..
  | ringTailWrite => exact execRingTailWrite_steady (hs := hs) ..
  | ringReleaseWrite => exact execRingReleaseWrite_steady (hs := hs) ..
  | ringEnable => exact steadyRes_of_outside (execRingEnable_outside (by decide) ..) hs
  | commandFetch => exact execCommandFetch_steady (hs := hs) ..
  | suSessionOpen => exact execSuSessionOpen_steady (hs := hs) ..
  | suStageCheck => exact execSuStageCheck_steady (hs := hs) ..
  | suCommit => exact execSuCommit_steady (hs := hs) ..
  | suSessionAbort => exact execSuSessionAbort_steady (hs := hs) ..
  | suSessionStatus => exact execSuSessionStatus_steady (hs := hs) ..
  | suCheckReport => exact execSuCheckReport_steady (hs := hs) ..
  | suPkgLoad => exact execSuPkgLoad_steady (hs := hs) ..
  | suPkgStage => exact execSuPkgStage_steady (hs := hs) ..
  | suPkgStatus => exact execSuPkgStatus_steady (hs := hs) ..
  | suRingCreate => exact execSuRingCreate_steady (hs := hs) ..
  | suRingDestroy => exact execSuRingDestroy_steady (hs := hs) ..
  | suNop => exact execSuNop_steady (hs := hs) ..
  | getInfo => exact execGetInfo_steady (hs := hs) ..
  | getStatus => exact execGetStatus_steady (hs := hs) ..
  | readActive => exact execReadActive_steady (hs := hs) ..
  | readStaged => exact execReadStaged_steady (hs := hs) ..
  | commitPrepDeadline => exact execCommitPrepDeadline_steady (hs := hs) ..
  | commitStrobe => exact execCommitStrobe_steady (hs := hs) ..
  | bankResyncEnd => exact steadyRes_of_outside (execBankResyncEnd_outside (by decide) ..) hs
  | bootSelectorWrite => exact execBootSelectorWrite_steady (hs := hs) ..
  | pkgVerifyDone => exact execPkgVerifyDone_steady (hs := hs) ..
  | pkgFlashWriteDone => exact execPkgFlashWriteDone_steady (hs := hs) ..
  | frameReceive => exact execFrameReceive_steady (hs := hs) ..
  | pauseTimerExpiry => exact steadyRes_of_outside (execPauseTimerExpiry_outside (by decide) ..) hs
  | transmitStart => exact execTransmitStart_steady (hs := hs) ..
  | transmitEnd => exact execTransmitEnd_steady (hs := hs) ..
  | linkStateChange => exact execLinkStateChange_steady (hs := hs) ..
  | supervisionTx => exact steadyRes_of_outside (execSupervisionTx_outside (by decide) ..) hs
  | supervisionRx => exact steadyRes_of_outside (execSupervisionRx_outside (by decide) ..) hs
  | ddtForget => exact steadyRes_of_outside (execDdtForget_outside (by decide) ..) hs
  | proxyAgeing => exact steadyRes_of_outside (execProxyAgeing_outside (by decide) ..) hs
  | pxStagePort => exact execPxStagePort_steady (hs := hs) ..
  | pxStageFilter => exact execPxStageFilter_steady (hs := hs) ..
  | pxStageRedundancy => exact execPxStageRedundancy_steady (hs := hs) ..
  | pxStageMacsec => exact execPxStageMacsec_steady (hs := hs) ..
  | pxMacsecSaSet => exact execPxMacsecSaSet_steady (hs := hs) ..
  | pxMacsecTxAn => exact execPxMacsecTxAn_steady (hs := hs) ..
  | pxPortRestart => exact execPxPortRestart_steady (hs := hs) ..
  | pxReadCounters => exact execPxReadCounters_steady (hs := hs) ..
  | transmitQueueEntry => exact execTransmitQueueEntry_steady (hs := hs) ..
  | holdExpiry => exact execHoldExpiry_steady (hs := hs) ..
  | maxAgeExpiry => exact execMaxAgeExpiry_steady (hs := hs) ..
  | fdbAgeing => exact steadyRes_of_outside (execFdbAgeing_outside (by decide) ..) hs
  | mirrorEnable => exact steadyRes_of_outside (execMirrorEnable_outside (by decide) ..) hs
  | swStageLimits => exact execSwStageLimits_steady (hs := hs) ..
  | swStageFdb => exact execSwStageFdb_steady (hs := hs) ..
  | swStageVlan => exact execSwStageVlan_steady (hs := hs) ..
  | swStagePorts => exact execSwStagePorts_steady (hs := hs) ..
  | swStageMirror => exact execSwStageMirror_steady (hs := hs) ..
  | swReadCounters => exact execSwReadCounters_steady (hs := hs) ..
  | swFdbFlush => exact execSwFdbFlush_steady (hs := hs) ..
  | swFdbRead => exact execSwFdbRead_steady (hs := hs) ..
  | packetOpen => exact execPacketOpen_steady (hs := hs) ..
  | narrowUnitWrite => exact execNarrowUnitWrite_steady (hs := hs) ..
  | endMarkWrite => exact execEndMarkWrite_steady (hs := hs) ..
  | producerRewind => exact steadyRes_of_outside (execProducerRewind_outside (by decide) ..) hs
  | queueRead => exact execQueueRead_steady (hs := hs) ..
  | queueMark => exact steadyRes_of_outside (execQueueMark_outside (by decide) ..) hs
  | queueRewind => exact steadyRes_of_outside (execQueueRewind_outside (by decide) ..) hs
  | queueRelease => exact steadyRes_of_outside (execQueueRelease_outside (by decide) ..) hs
  | fabricTake => exact execFabricTake_steady (hs := hs) ..
  | qmStageQueues => exact execQmStageQueues_steady (hs := hs) ..
  | qmStageSteer => exact execQmStageSteer_steady (hs := hs) ..
  | qmReadCounters => exact execQmReadCounters_steady (hs := hs) ..
  | qmQueueFlush => exact execQmQueueFlush_steady (hs := hs) ..
  | cabinetCycleStart => exact execCabinetCycleStart_steady (hs := hs) ..
  | imageTransmit => exact steadyRes_of_outside (execImageTransmit_outside (by decide) ..) hs
  | reportReceive => exact execReportReceive_steady (hs := hs) ..
  | announceReceive => exact execAnnounceReceive_steady (hs := hs) ..
  | imageReceive => exact steadyRes_of_outside (execImageReceive_outside (by decide) ..) hs
  | stationAbsent => exact execStationAbsent_steady (hs := hs) ..
  | collision => exact steadyRes_of_outside (execCollision_outside (by decide) ..) hs
  | slottedStartupEnd => exact execSlottedStartupEnd_steady (hs := hs) ..
  | foStageCabinet => exact execFoStageCabinet_steady (hs := hs) ..
  | foCabModeTest => exact execFoCabModeTest_steady (hs := hs) ..
  | foCabModeNormal => exact execFoCabModeNormal_steady (hs := hs) ..
  | foCabRediscover => exact execFoCabRediscover_steady (hs := hs) ..
  | svFrameReceive => exact execSvFrameReceive_steady (hs := hs) ..
  | gooseFrameReceive => exact execGooseFrameReceive_steady (hs := hs) ..
  | instantRelease => exact execInstantRelease_steady (hs := hs) ..
  | gridSecond => exact execGridSecond_steady (hs := hs) ..
  | talExpiry => exact execTalExpiry_steady (hs := hs) ..
  | goosePublish => exact steadyRes_of_outside (execGoosePublish_outside (by decide) ..) hs
  | gooseRetransmit => exact steadyRes_of_outside (execGooseRetransmit_outside (by decide) ..) hs
  | seStageGroups => exact execSeStageGroups_steady (hs := hs) ..
  | seStageSv => exact execSeStageSv_steady (hs := hs) ..
  | seStageGooseSub => exact execSeStageGooseSub_steady (hs := hs) ..
  | seStageGoosePub => exact execSeStageGoosePub_steady (hs := hs) ..
  | seReadCounters => exact execSeReadCounters_steady (hs := hs) ..
  | seStreamRelock => exact execSeStreamRelock_steady (hs := hs) ..
  | laneOutputRelease => exact execLaneOutputRelease_steady (hs := hs) ..
  | gridCycleStart => exact steadyRes_of_outside (execGridCycleStart_outside (by decide) ..) hs
  | trackingHold => exact execTrackingHold_steady (hs := hs) ..
  | trackingNominal => exact execTrackingNominal_steady (hs := hs) ..
  | coefReloadDone => exact steadyRes_of_outside (execCoefReloadDone_outside (by decide) ..) hs
  | frStageLanes => exact execFrStageLanes_steady (hs := hs) ..
  | frStageTrack => exact execFrStageTrack_steady (hs := hs) ..
  | frStageCoef => exact execFrStageCoef_steady (hs := hs) ..
  | frLaneRestart => exact execFrLaneRestart_steady (hs := hs) ..
  | estimateRelease => exact execEstimateRelease_steady (hs := hs) ..
  | streamDeadline => exact execStreamDeadline_steady (hs := hs) ..
  | dataFrameHandover => exact steadyRes_of_outside (execDataFrameHandover_outside (by decide) ..) hs
  | cfgChangeTimeout => exact steadyRes_of_outside (execCfgChangeTimeout_outside (by decide) ..) hs
  | c37CmdDataOff => exact steadyRes_of_outside (execC37CmdDataOff_outside (by decide) ..) hs
  | c37CmdDataOn => exact steadyRes_of_outside (execC37CmdDataOn_outside (by decide) ..) hs
  | c37CmdHeader => exact steadyRes_of_outside (execC37CmdHeader_outside (by decide) ..) hs
  | c37CmdCfg1 => exact steadyRes_of_outside (execC37CmdCfg1_outside (by decide) ..) hs
  | c37CmdCfg2 => exact steadyRes_of_outside (execC37CmdCfg2_outside (by decide) ..) hs
  | c37CmdUnsupported => exact steadyRes_of_outside (execC37CmdUnsupported_outside (by decide) ..) hs
  | c37CmdExtended => exact steadyRes_of_outside (execC37CmdExtended_outside (by decide) ..) hs
  | peStageChannels => exact execPeStageChannels_steady (hs := hs) ..
  | peStageSets => exact execPeStageSets_steady (hs := hs) ..
  | peStageStreams => exact execPeStageStreams_steady (hs := hs) ..
  | peReadResults => exact execPeReadResults_steady (hs := hs) ..
  | peStreamTxOn => exact execPeStreamTxOn_steady (hs := hs) ..
  | peStreamTxOff => exact execPeStreamTxOff_steady (hs := hs) ..
  | peReadCounters => exact execPeReadCounters_steady (hs := hs) ..
  | wslFrameReceive => exact execWslFrameReceive_steady (hs := hs) ..
  | wslFrameDeadline => exact execWslFrameDeadline_steady (hs := hs) ..
  | wslRetrainDone => exact execWslRetrainDone_steady (hs := hs) ..
  | fastEdgeArrival => exact execFastEdgeArrival_steady (hs := hs) ..
  | tdcCalibrationDone => exact execTdcCalibrationDone_steady (hs := hs) ..
  | edgePop => exact execEdgePop_steady (hs := hs) ..
  | patternTickEval => exact execPatternTickEval_steady (hs := hs) ..
  | rowWrite => exact execRowWrite_steady (hs := hs) ..
  | recordComplete => exact execRecordComplete_steady (hs := hs) ..
  | arStageWsl => exact execArStageWsl_steady (hs := hs) ..
  | arStageEdges => exact execArStageEdges_steady (hs := hs) ..
  | arStageComparators => exact execArStageComparators_steady (hs := hs) ..
  | arStageRecorders => exact execArStageRecorders_steady (hs := hs) ..
  | arTrigger => exact execArTrigger_steady (hs := hs) ..
  | arRecorderArm => exact execArRecorderArm_steady (hs := hs) ..
  | arRecorderStop => exact execArRecorderStop_steady (hs := hs) ..
  | arRecordList => exact execArRecordList_steady (hs := hs) ..
  | arRecordRead => exact execArRecordRead_steady (hs := hs) ..
  | arRecordRelease => exact execArRecordRelease_steady (hs := hs) ..
  | arReadCounters => exact execArReadCounters_steady (hs := hs) ..
  | baseTick => exact execBaseTick_steady (hs := hs) ..
  | windowEnd => exact execWindowEnd_steady (hs := hs) ..
  | majorFrameStart => exact execMajorFrameStart_steady (hs := hs) ..
  | cycleStart => exact execCycleStart_steady (hs := hs) ..
  | snapshotDone => exact execSnapshotDone_steady (hs := hs) ..
  | outputWrite => exact execOutputWrite_steady (hs := hs) ..
  | runStateChange => exact execRunStateChange_steady (hs := hs) ..
  | inboxDispatch => exact execInboxDispatch_steady (hs := hs) ..
  | engineReloadDone => exact execEngineReloadDone_steady (hs := hs) ..
  | tahrAdd => exact tahrBin_steady (hs := hs) ..
  | tahrSub => exact tahrBin_steady (hs := hs) ..
  | tahrAddi => exact tahrImm_steady (hs := hs) ..
  | tahrMul => exact tahrBin_steady (hs := hs) ..
  | tahrDiv => exact tahrBin_steady (hs := hs) ..
  | tahrRem => exact tahrBin_steady (hs := hs) ..
  | tahrAnd => exact tahrBin_steady (hs := hs) ..
  | tahrOr => exact tahrBin_steady (hs := hs) ..
  | tahrXor => exact tahrBin_steady (hs := hs) ..
  | tahrAndi => exact tahrImm_steady (hs := hs) ..
  | tahrOri => exact tahrImm_steady (hs := hs) ..
  | tahrXori => exact tahrImm_steady (hs := hs) ..
  | tahrShl => exact tahrBin_steady (hs := hs) ..
  | tahrShr => exact tahrBin_steady (hs := hs) ..
  | tahrSar => exact tahrBin_steady (hs := hs) ..
  | tahrShli => exact tahrImm_steady (hs := hs) ..
  | tahrShri => exact tahrImm_steady (hs := hs) ..
  | tahrSari => exact tahrImm_steady (hs := hs) ..
  | tahrLdi => exact tahrImm_steady (hs := hs) ..
  | tahrLdih => exact tahrImm_steady (hs := hs) ..
  | tahrMin => exact tahrBin_steady (hs := hs) ..
  | tahrMax => exact tahrBin_steady (hs := hs) ..
  | tahrCmpeq => exact tahrBin_steady (hs := hs) ..
  | tahrCmplt => exact tahrBin_steady (hs := hs) ..
  | tahrCmpltu => exact tahrBin_steady (hs := hs) ..
  | tahrCmple => exact tahrBin_steady (hs := hs) ..
  | tahrSel => exact tahrSet_steady (hs := hs) ..
  | tahrAbs => exact tahrBin_steady (hs := hs) ..
  | tahrFadd => exact tahrBin_steady (hs := hs) ..
  | tahrFsub => exact tahrBin_steady (hs := hs) ..
  | tahrFmul => exact tahrBin_steady (hs := hs) ..
  | tahrFdiv => exact tahrBin_steady (hs := hs) ..
  | tahrFsqrt => exact tahrBin_steady (hs := hs) ..
  | tahrFmadd => exact tahrSet_steady (hs := hs) ..
  | tahrFneg => exact tahrBin_steady (hs := hs) ..
  | tahrFabs => exact tahrBin_steady (hs := hs) ..
  | tahrFmin => exact tahrBin_steady (hs := hs) ..
  | tahrFmax => exact tahrBin_steady (hs := hs) ..
  | tahrFcmpeq => exact tahrBin_steady (hs := hs) ..
  | tahrFcmplt => exact tahrBin_steady (hs := hs) ..
  | tahrFcmple => exact tahrBin_steady (hs := hs) ..
  | tahrCvtif => exact tahrBin_steady (hs := hs) ..
  | tahrCvtfi => exact tahrBin_steady (hs := hs) ..
  | tahrCvtsd => exact tahrBin_steady (hs := hs) ..
  | tahrCvtds => exact tahrBin_steady (hs := hs) ..
  | tahrFsin => exact tahrBin_steady (hs := hs) ..
  | tahrFcos => exact tahrBin_steady (hs := hs) ..
  | tahrFatan2 => exact tahrBin_steady (hs := hs) ..
  | tahrFldi => exact tahrSet_steady (hs := hs) ..
  | tahrCadd => exact tahrBin_steady (hs := hs) ..
  | tahrCsub => exact tahrBin_steady (hs := hs) ..
  | tahrCmul => exact tahrBin_steady (hs := hs) ..
  | tahrCdiv => exact tahrBin_steady (hs := hs) ..
  | tahrCconj => exact tahrBin_steady (hs := hs) ..
  | tahrCmag => exact tahrBin_steady (hs := hs) ..
  | tahrCarg => exact tahrBin_steady (hs := hs) ..
  | tahrCmk => exact tahrBin_steady (hs := hs) ..
  | tahrCre => exact tahrBin_steady (hs := hs) ..
  | tahrCim => exact tahrBin_steady (hs := hs) ..
  | tahrCscl => exact tahrBin_steady (hs := hs) ..
  | tahrCpol => exact tahrBin_steady (hs := hs) ..
  | tahrCrot => exact tahrBin_steady (hs := hs) ..
  | tahrLd => exact tahrLoad_steady (hs := hs) ..
  | tahrLdw => exact tahrLoad_steady (hs := hs) ..
  | tahrLdwu => exact tahrLoad_steady (hs := hs) ..
  | tahrLdb => exact tahrLoad_steady (hs := hs) ..
  | tahrSt => exact tahrStore_steady (hs := hs) ..
  | tahrStw => exact tahrStore_steady (hs := hs) ..
  | tahrStb => exact tahrStore_steady (hs := hs) ..
  | tahrBr => exact execTahrBr_steady (hs := hs) ..
  | tahrBeq => exact tahrCond_steady (hs := hs) ..
  | tahrBne => exact tahrCond_steady (hs := hs) ..
  | tahrBlt => exact tahrCond_steady (hs := hs) ..
  | tahrBge => exact tahrCond_steady (hs := hs) ..
  | tahrBltu => exact tahrCond_steady (hs := hs) ..
  | tahrLoop => exact execTahrLoop_steady (hs := hs) ..
  | tahrFbcall => exact execTahrFbcall_steady (hs := hs) ..
  | tahrRet => exact execTahrRet_steady (hs := hs) ..
  | tahrEnd => exact execTahrEnd_steady (hs := hs) ..
  | tahrNop => exact execTahrNop_steady (hs := hs) ..
  | tahrLdp => exact tahrLdp_steady (hs := hs) ..
  | tahrLdpq => exact tahrLdp_steady (hs := hs) ..
  | tahrLdpt => exact tahrLdp_steady (hs := hs) ..
  | tahrStp => exact tahrStp_steady (hs := hs) ..
  | tahrStpt => exact tahrStp_steady (hs := hs) ..
  | tahrRdsr => exact execTahrRdsr_steady (hs := hs) ..
  | tahrTon => exact tahrTimer_steady (hs := hs) ..
  | tahrTof => exact tahrTimer_steady (hs := hs) ..
  | tahrTp => exact tahrTimer_steady (hs := hs) ..
  | tahrRtrig => exact execTahrRtrig_steady (hs := hs) ..
  | tahrFtrig => exact execTahrFtrig_steady (hs := hs) ..
  | tahrCtu => exact tahrCounter_steady (hs := hs) ..
  | tahrCtd => exact tahrCounter_steady (hs := hs) ..
  | tahrCtud => exact tahrCounter_steady (hs := hs) ..
  | tahrQsend => exact execTahrQsend_steady (hs := hs) ..
  | tahrRaise => exact execTahrRaise_steady (hs := hs) ..
  | fbStageCode => exact execFbStageCode_steady (hs := hs) ..
  | fbStageRxmap => exact execFbStageRxmap_steady (hs := hs) ..
  | fbReadInst => exact execFbReadInst_steady (hs := hs) ..
  | fbReadFault => exact execFbReadFault_steady (hs := hs) ..
  | fbReadCounters => exact execFbReadCounters_steady (hs := hs) ..
  | fbStageSchedule => exact execFbStageSchedule_steady (hs := hs) ..
  | fbStageTasks => exact execFbStageTasks_steady (hs := hs) ..
  | fbStageRetain => exact execFbStageRetain_steady (hs := hs) ..
  | runWarm => exact execRunWarm_steady (hs := hs) ..
  | runCold => exact execRunCold_steady (hs := hs) ..
  | fbRunCtrlStop => exact execFbRunCtrlStop_steady (hs := hs) ..
  | fbRunCtrlHold => exact execFbRunCtrlHold_steady (hs := hs) ..
  | fbStep => exact execFbStep_steady (hs := hs) ..
  | fbReadTasks => exact execFbReadTasks_steady (hs := hs) ..
  | batchApply => exact execBatchApply_steady (hs := hs) ..
  | staleMark => exact steadyRes_of_outside (execStaleMark_outside (by decide) ..) hs
  | psStagePoints => exact execPsStagePoints_steady (hs := hs) ..
  | psReadPoints => exact execPsReadPoints_steady (hs := hs) ..
  | psWrite => exact execPsWrite_steady (hs := hs) ..
  | psForceSet => exact execPsForceSet_steady (hs := hs) ..
  | psForceClear => exact execPsForceClear_steady (hs := hs) ..
  | psForceListCurrent => exact execPsForceListCurrent_steady (hs := hs) ..
  | psForceListDropped => exact execPsForceListDropped_steady (hs := hs) ..
  | heartbeatTx => exact steadyRes_of_outside (execHeartbeatTx_outside (by decide) ..) hs
  | heartbeatRx => exact execHeartbeatRx_steady (hs := hs) ..
  | partnerLost => exact execPartnerLost_steady (hs := hs) ..
  | brixigLinkState => exact execBrixigLinkState_steady (hs := hs) ..
  | relinquishRx => exact execRelinquishRx_steady (hs := hs) ..
  | gooseStRx => exact execGooseStRx_steady (hs := hs) ..
  | replRx => exact execReplRx_steady (hs := hs) ..
  | tasksRx => exact execTasksRx_steady (hs := hs) ..
  | replEndRx => exact execReplEndRx_steady (hs := hs) ..
  | replTransmit => exact steadyRes_of_outside (execReplTransmit_outside (by decide) ..) hs
  | replApply => exact execReplApply_steady (hs := hs) ..
  | discoveryTimeout => exact execDiscoveryTimeout_steady (hs := hs) ..
  | witnessClear => exact execWitnessClear_steady (hs := hs) ..
  | handoverEnd => exact steadyRes_of_outside (execHandoverEnd_outside (by decide) ..) hs
  | watchdogExpiry => exact execWatchdogExpiry_steady (hs := hs) ..
  | timeSvTrigger => exact execTimeSvTrigger_steady (hs := hs) ..
  | epochResetWindow => exact execEpochResetWindow_steady (hs := hs) ..
  | swapBoundary => exact execSwapBoundary_steady (hs := hs) ..
  | foWdogWrite => exact steadyRes_of_outside (execFoWdogWrite_outside (by decide) ..) hs
  | foStagePair => exact execFoStagePair_steady (hs := hs) ..
  | foStageRepl => exact execFoStageRepl_steady (hs := hs) ..
  | foRelinquish => exact execFoRelinquish_steady (hs := hs) ..
  | foSwap => exact execFoSwap_steady (hs := hs) ..
  | foRearm => exact execFoRearm_steady (hs := hs) ..
  | foEpochReset => exact execFoEpochReset_steady (hs := hs) ..
  | foReadPair => exact execFoReadPair_steady (hs := hs) ..
  | miTapFrame => exact steadyRes_of_outside (execMiTapFrame_outside (by decide) ..) hs
  | miTimeRecord => exact steadyRes_of_outside (execMiTimeRecord_outside (by decide) ..) hs
  | miInstantClose => exact steadyRes_of_outside (execMiInstantClose_outside (by decide) ..) hs
  | zcTimeout => exact steadyRes_of_outside (execZcTimeout_outside (by decide) ..) hs
  | tapLost => exact steadyRes_of_outside (execTapLost_outside (by decide) ..) hs
  | timeOkTimeout => exact steadyRes_of_outside (execTimeOkTimeout_outside (by decide) ..) hs
  | registerSave => exact steadyRes_of_outside (execRegisterSave_outside (by decide) ..) hs
  | powerFailSave => exact steadyRes_of_outside (execPowerFailSave_outside (by decide) ..) hs
  | miPowerUp => exact steadyRes_of_outside (execMiPowerUp_outside (by decide) ..) hs
  | sealOpen => exact steadyRes_of_outside (execSealOpen_outside (by decide) ..) hs
  | readId => exact steadyRes_of_outside (execReadId_outside (by decide) ..) hs
  | readParam => exact steadyRes_of_outside (execReadParam_outside (by decide) ..) hs
  | writeParam => exact steadyRes_of_outside (execWriteParam_outside (by decide) ..) hs
  | seal_ => exact steadyRes_of_outside (execSeal_outside (by decide) ..) hs
  | resetRegisters => exact steadyRes_of_outside (execResetRegisters_outside (by decide) ..) hs
  | clearLog => exact steadyRes_of_outside (execClearLog_outside (by decide) ..) hs
  | readLog => exact steadyRes_of_outside (execReadLog_outside (by decide) ..) hs
  | miUnknownCommand => exact steadyRes_of_outside (execMiUnknownCommand_outside (by decide) ..) hs
  | serviceByteTimeout => exact (steadyRes_next s).mpr hs
  | writeParamTimeout => exact steadyRes_of_outside (execWriteParamTimeout_outside (by decide) ..) hs
  | mailboxUpdate => exact execMailboxUpdate_steady (hs := hs) ..
  | mailboxSilent => exact execMailboxSilent_steady (hs := hs) ..
  | kvKeyLoad => exact execKvKeyLoad_steady (hs := hs) ..
  | kvKeyGenerate => exact execKvKeyGenerate_steady (hs := hs) ..
  | kvKeyDerive => exact execKvKeyDerive_steady (hs := hs) ..
  | kvKeyUnwrap => exact execKvKeyUnwrap_steady (hs := hs) ..
  | kvKeyAgree => exact execKvKeyAgree_steady (hs := hs) ..
  | kvKeyWrap => exact execKvKeyWrap_steady (hs := hs) ..
  | kvKeyPublic => exact execKvKeyPublic_steady (hs := hs) ..
  | kvKeyRestrict => exact execKvKeyRestrict_steady (hs := hs) ..
  | kvKeyRevoke => exact execKvKeyRevoke_steady (hs := hs) ..
  | kvKeyErase => exact execKvKeyErase_steady (hs := hs) ..
  | kvKeyInfo => exact execKvKeyInfo_steady (hs := hs) ..
  | kvGcm => exact execKvGcm_steady (hs := hs) ..
  | kvHmac => exact execKvHmac_steady (hs := hs) ..
  | kvHash => exact execKvHash_steady (hs := hs) ..
  | kvSign => exact execKvSign_steady (hs := hs) ..
  | kvVerify => exact execKvVerify_steady (hs := hs) ..
  | kvRandom => exact execKvRandom_steady (hs := hs) ..
  | kvLcAdvance =>
    obtain rfl | h := hclk
    · exact execKvLcAdvance_steady (hs := hs) ..
    · exact absurd rfl (h.life _ _ _)
  | kvFwSvnRaise => exact execKvFwSvnRaise_steady (hs := hs) ..
  | entropyHealthFail => exact execEntropyHealthFail_steady (hs := hs) ..
  | entropyRecovered => exact steadyRes_of_outside (execEntropyRecovered_outside (by decide) ..) hs
  | imStageShares => exact execImStageShares_steady (hs := hs) ..
  | imStageEvents => exact execImStageEvents_steady (hs := hs) ..
  | imInstanceReset => exact execImInstanceReset_steady (hs := hs) ..
  | imHostqSet => exact execImHostqSet_steady (hs := hs) ..
  | imInstanceFreeze => exact execImInstanceFreeze_steady (hs := hs) ..
  | imInstanceSave => exact execImInstanceSave_steady (hs := hs) ..
  | imInstanceRestore => exact execImInstanceRestore_steady (hs := hs) ..
  | imInstanceThaw => exact execImInstanceThaw_steady (hs := hs) ..
  | imInstanceInfo => exact execImInstanceInfo_steady (hs := hs) ..
  | resetEnd => exact execResetEnd_steady (hs := hs) ..
  | freezeBoundary => exact execFreezeBoundary_steady (hs := hs) ..
  | restoreApply => exact execRestoreApply_steady (hs := hs) ..
  | thawBoundary => exact execThawBoundary_steady (hs := hs) ..
  | hostqTailWrite => exact steadyRes_of_outside (execHostqTailWrite_outside (by decide) ..) hs
  | hostqDescriptor => exact execHostqDescriptor_steady (hs := hs) ..
  | resetRequestWrite => exact execResetRequestWrite_steady (hs := hs) ..
  | eventMaskWrite => exact steadyRes_of_outside (execEventMaskWrite_outside (by decide) ..) hs
  | functionLevelReset => exact execFunctionLevelReset_steady (hs := hs) ..
  | perstAssert => exact execPerstAssert_steady (hs := hs) ..
  | paStageDomains => exact execPaStageDomains_steady (hs := hs) ..
  | paStageDuiker => exact execPaStageDuiker_steady (hs := hs) ..
  | paDomainWake => exact execPaDomainWake_steady (hs := hs) ..
  | paDomainOff => exact execPaDomainOff_steady (hs := hs) ..
  | paDomainLock => exact execPaDomainLock_steady (hs := hs) ..
  | paDomainUnlock => exact execPaDomainUnlock_steady (hs := hs) ..
  | paSleep => exact execPaSleep_steady (hs := hs) ..
  | paRetainRead => exact execPaRetainRead_steady (hs := hs) ..
  | paRetainWrite => exact execPaRetainWrite_steady (hs := hs) ..
  | paStartupReport => exact execPaStartupReport_steady (hs := hs) ..
  | paTamperClear => exact execPaTamperClear_steady (hs := hs) ..
  | sleepStopBoundary => exact execSleepStopBoundary_steady (hs := hs) ..
  | rtcCalibrationDone => exact execRtcCalibrationDone_steady (hs := hs) ..
  | domainIdleOff => exact execDomainIdleOff_steady (hs := hs) ..
  | domainDataAccess => exact execDomainDataAccess_steady (hs := hs) ..
  | domainOn => exact execDomainOn_steady (hs := hs) ..
  | pd2WakeDone => exact execPd2WakeDone_steady (hs := hs) ..
  | ioSupplyLow =>
    obtain rfl | h := hclk
    · exact execIoSupplyLow_steady (hs := hs) ..
    · exact absurd rfl (h.supply)
  | ioSupplyHigh => exact steadyRes_of_outside (execIoSupplyHigh_outside (by decide) ..) hs
  | duikerBrownout => exact steadyRes_of_outside (execDuikerBrownout_outside (by decide) ..) hs
  | brownoutReset =>
    obtain rfl | h := hclk
    · exact execBrownoutReset_steady (hs := hs) ..
    · exact absurd rfl (h.reset _)
  | opsecsCopy => exact steadyRes_of_outside (execOpsecsCopy_outside (by decide) ..) hs
  | wakeNFall => exact execWakeNFall_steady (hs := hs) ..
  | rtcAlarm => exact execRtcAlarm_steady (hs := hs) ..
  | tamperSample => exact execTamperSample_steady (hs := hs) ..
  | tamperLatch => exact execTamperLatch_steady (hs := hs) ..
  | powerGood => exact execPowerGood_steady (hs := hs) ..
  | secureBootDone => exact steadyRes_of_outside (execSecureBootDone_outside (by decide) ..) hs
  | duikerRestoreDone =>
    obtain rfl | h := hclk
    · exact execDuikerRestoreDone_steady (hs := hs) ..
    · exact absurd rfl (h.wake _)
  | dramTrainingDone => exact execDramTrainingDone_steady (hs := hs) ..
  | suReady => exact execSuReady_steady (hs := hs) ..
  | packageLoaded => exact execPackageLoaded_steady (hs := hs) ..
  | pointStoreBuilt => exact execPointStoreBuilt_steady (hs := hs) ..
  | portsUp => exact execPortsUp_steady (hs := hs) ..
  | lockTimeout => exact execLockTimeout_steady (hs := hs) ..
  | instancesStart => exact execInstancesStart_steady (hs := hs) ..
  | thermTrip => exact steadyRes_of_outside (execThermTrip_outside (by decide) ..) hs
  | pmbusWrite => exact steadyRes_of_outside (execPmbusWrite_outside (by decide) ..) hs
  | pmbusRead => exact steadyRes_of_outside (execPmbusRead_outside (by decide) ..) hs
  | pmbusDone => exact steadyRes_of_outside (execPmbusDone_outside (by decide) ..) hs
  | pmbusTimeout => exact steadyRes_of_outside (execPmbusTimeout_outside (by decide) ..) hs
  | borClearWrite => exact steadyRes_of_outside (execBorClearWrite_outside (by decide) ..) hs
  | logClearWrite => exact execLogClearWrite_steady (hs := hs) ..
  | logClearDone => exact execLogClearDone_steady (hs := hs) ..
  | logRecordWrite => exact execLogRecordWrite_steady (hs := hs) ..
  | scrubRead => exact execScrubRead_steady (hs := hs) ..
  | gerrRecordPop => exact execGerrRecordPop_steady (hs := hs) ..
  | perstNRise => exact execPerstNRise_steady (hs := hs) ..
  | sealClose => exact steadyRes_of_outside (execSealClose_outside (by decide) ..) hs
  | engineSlot => exact execEngineSlot_steady (hs := hs) ..
  | dmaReadCompletion => exact steadyRes_of_outside (execDmaReadCompletion_outside (by decide) ..) hs
  | illegal => exact execIllegal_steady (hs := hs) ..
  | accessAtFetch => exact execAccessAtFetch_steady (hs := hs) ..
  | thermTripNHigh => exact steadyRes_of_outside (execThermTripNHigh_outside (by decide) ..) hs

end

/-! ## The tick -/

section
variable {clk : Option (BitVec 96)} {deep : Bool}

theorem onJtag_steady (f s) : Steady clk deep (onJtag f s) ↔ Steady clk deep s := steady_set_jtag _ s

theorem tapAct_steady (p s) : Steady clk deep (tapAct p s) ↔ Steady clk deep s := by
  have captured : Steady clk deep (jtagCapture s).2 ↔ Steady clk deep s := by
    unfold jtagCapture
    split <;> simp
  unfold tapAct
  split <;> simp [onJtag_steady, captured]

theorem tapTick_steady (s) : Steady clk deep (tapTick s) ↔ Steady clk deep s := by
  unfold tapTick
  split
  · split <;> simp [onJtag_steady]
  · split
    · rfl
    · split
      · rfl
      · rw [tapEdge, onJtag_steady, tapAct_steady, onJtag_steady]

end

/-- A tick moves LT alone of what `Steady` looks at (R19). -/
theorem timeTick_steady {deep : Bool} {s : State} (hs : Steady none deep s) : Steady none deep (timeTick s) := by
  unfold timeTick
  split
  · exact steady_set_tb_fifos ((tapTick_steady _).mpr ((onFo_steady _ _).mpr hs)) rfl rfl
  · exact hs

/-! ## What is settled -/

/-- Settles O3: each command by the walk that keeps the depths, with nothing asked of the state. -/
theorem everyCommandGoesOn : Obligations.EveryCommandGoesOn := by
  intro c s
  have nothing : Steady none false s := ⟨⟨nofun, nofun⟩, nofun, nofun, nofun, nofun⟩
  obtain ⟨t, ht, -⟩ := exec_steady c s (.inl rfl) nothing
  exact ⟨t, ht⟩

/-- Settles O6: a command keeps the depths by the walk over the commands, and a tick touches none of them. -/
theorem depthsKept : Obligations.DepthsKept := by
  intro s t hs ht
  rw [← steady_depths] at hs ⊢
  unfold step at ht
  split at ht
  · cases ht
    exact timeTick_steady hs
  · obtain ⟨u, hu, h⟩ := exec_steady _ _ (.inl rfl) ((steady_set_pending _ s).mpr hs)
    cases ht.symm.trans hu
    exact h

/-- Settles O8: the same walk with LT's accumulator given; the four commands that restart LT are left out. -/
theorem ltMovesOnlyWithTheClock : Obligations.LtMovesOnlyWithTheClock := by
  intro c s t hwake hlife hio hreset ht
  obtain ⟨u, hu, h⟩ := exec_steady c s (.inr ⟨hwake, hlife, hio, hreset⟩) ((steady_acc s.tb.acc s).mpr rfl)
  cases ht.symm.trans hu
  have hacc := (steady_acc s.tb.acc t).mp h
  exact ⟨hacc, by rw [State.now, State.now, hacc]⟩

end Sys2Proof.Machine
end
section
/-! The tick of an empty queue, and LT after a cold power-up. -/

namespace Sys2Proof.Machine

/-! ## The tick -/

/-- What a data register captures takes free values alone. -/
theorem jtagCapture_eq (s : State) : ∃ n, (jtagCapture s).2 = { s with free := n } := by
  unfold jtagCapture
  split <;> exact ⟨_, rfl⟩

/-- What the controller does at an edge stays with the TAP, the free values and the output (R607). -/
theorem tapAct_eq (p : TapPins) (s : State) : ∃ j n o, tapAct p s = { s with jtag := j, free := n, out := o } := by
  obtain ⟨n, hn⟩ := jtagCapture_eq s
  unfold tapAct
  split
  case h_1 => exact ⟨_, n, s.out, by dsimp only; rw [hn]; rfl⟩
  all_goals exact ⟨_, _, _, rfl⟩

theorem tapTick_eq (s : State) : ∃ j n o, tapTick s = { s with jtag := j, free := n, out := o } := by
  unfold tapTick
  split
  · split <;> exact ⟨_, _, _, rfl⟩
  · split
    · exact ⟨_, _, _, rfl⟩
    next p l _ =>
      split
      · exact ⟨_, _, _, rfl⟩
      · obtain ⟨j, n, o, h⟩ := tapAct_eq p (onJtag (fun j => { j with drive := l, edgeAt := s.abs }) s)
        exact ⟨_, n, o, by rw [tapEdge, h]; rfl⟩

/-- With nothing driven and the controller reset, the TAP does nothing (R607). -/
theorem tapTick_reset {s : State} (hdrive : s.jtag.drive = []) (htap : s.jtag.tap = .reset) : tapTick s = s := by
  unfold tapTick
  rw [hdrive, if_pos htap, ite_self]

theorem step_nil {s : State} (h : s.pending = []) : step s = .next (timeTick s) := by rw [step, h]

theorem timeTick_running {s : State} (h : s.pa.power = .running) :
    timeTick s = (let u := tapTick (holdTimeSv s); { u with tb := u.tb.advance (u.tb.acc + u.tb.rate.zeroExtend 96) }) := if_pos h

/-- Settles O2: the tick's three parts, LT, the hold of TIME_SV and the TAP, one after the other. -/
theorem emptyQueueTicks : Obligations.EmptyQueueTicks := by
  refine ⟨fun s hq hp => ?_, fun s hq hp hdrive htap => ?_, fun s hq hp => ?_⟩
  · obtain ⟨j, n, o, h⟩ := tapTick_eq (holdTimeSv s)
    exact ⟨j, n, o, by rw [step_nil hq, timeTick_running hp, h]; rfl⟩
  · rw [step_nil hq, timeTick_running hp, tapTick_reset (s := holdTimeSv s) hdrive htap]
    rfl
  · rw [step_nil hq, timeTick, if_neg hp]

/-! ## LT after a cold power-up -/

@[simp] theorem setRtc_tb (r : BitVec 48) (s : State) : (setRtc r s).tb = s.tb := by
  unfold setRtc
  split <;> rfl

@[simp] theorem setRtc_pa_slept (r : BitVec 48) (s : State) : (setRtc r s).pa.slept = s.pa.slept := by
  unfold setRtc
  split <;> rfl

@[simp] theorem setRtc_pa_goodLt (r : BitVec 48) (s : State) : (setRtc r s).pa.goodLt = s.pa.goodLt := by
  unfold setRtc
  split <;> rfl

@[simp] theorem markPhase_tb (p : Nat) (stamp : Bool) (s : State) : (markPhase p stamp s).tb = s.tb := by
  unfold markPhase
  split <;> rfl

@[simp] theorem reportTamper_tb (s : State) : (reportTamper s).tb = s.tb := by
  unfold reportTamper
  split <;> simp

@[simp] theorem reportTamper_pa_goodLt (s : State) : (reportTamper s).pa.goodLt = s.pa.goodLt := by
  unfold reportTamper
  split <;> simp

/-- The whole part of an accumulator that holds a whole number (R20). -/
theorem extractLsb_shiftLeft_ofNat (n : Nat) : (BitVec.ofNat 96 n <<< 32).extractLsb' 32 64 = BitVec.ofNat 64 n := by
  apply BitVec.eq_of_toNat_eq
  simp only [BitVec.extractLsb'_toNat, BitVec.toNat_shiftLeft, BitVec.toNat_ofNat, Nat.shiftLeft_eq, Nat.shiftRight_eq_div_pow]
  omega

/-- A restore that follows no orderly sleep restarts LT at the time since PD1 was released (R21). -/
theorem coldTime_now (s : State) : (coldTime s).now = BitVec.ofNat 64 ((s.abs : Int) - s.pa.goodLt - (msTu 1 : Nat)).toNat :=
  extractLsb_shiftLeft_ofNat _

theorem coldTime_taiValid (s : State) : (coldTime s).tb.taiValid = false := rfl

theorem reset_time : State.reset.now = 0 ∧ State.reset.tb.taiValid = false := by decide

theorem beginStartup_time (c : Bool) (s : State) :
    (beginStartup c s).pa.goodLt = (s.abs : Int) - (msTu 1 : Nat) ∧ (beginStartup c s).now = s.now := by
  simp [beginStartup, State.now]

theorem coldTime_congr {s t : State} (htb : t.tb = s.tb) (hgood : t.pa.goodLt = s.pa.goodLt) : (coldTime t).tb = (coldTime s).tb := by
  have habs : t.abs = s.abs := by rw [State.abs, State.abs, State.now, State.now, htb]
  unfold coldTime
  rw [habs, hgood]
  rfl

/-- A restore that follows no orderly sleep leaves the time of a cold power-up (R21). -/
theorem duikerRestoreDone_cold {r : BitVec 48} {s t : State} (hdue : phaseDue 2 [1] s = true) (hslept : s.pa.slept = false)
    (ht : exec (.duikerRestoreDone r) s = .next t) : t.tb = (coldTime s).tb := by
  change execDuikerRestoreDone r s = _ at ht
  simp only [execDuikerRestoreDone, hdue, Bool.not_true, Bool.false_eq_true, if_false, setRtc_pa_slept, hslept, Bool.false_and] at ht
  cases ht
  rw [markPhase_tb, onPa_tb]
  exact coldTime_congr (setRtc_tb r s) (setRtc_pa_goodLt r s)

/-- Settles O18: the four instants in which LT's start is made, each from the operation that sets it. -/
theorem coldPowerUpStartsLt : Obligations.ColdPowerUpStartsLt := by
  refine ⟨reset_time, beginStartup_time, fun r s t hdue hslept ht => ?_, fun s hp => ?_⟩
  · have htime := coldTime_now s
    rw [State.now, ← duikerRestoreDone_cold hdue hslept ht] at htime
    exact ⟨htime, by rw [duikerRestoreDone_cold hdue hslept ht, coldTime_taiValid]⟩
  · obtain ⟨j, n, o, h⟩ := tapTick_eq (holdTimeSv s)
    rw [timeTick_running hp, h]
    rfl

end Sys2Proof.Machine
end
section
/-! The compare units fire into their destinations. -/

namespace Sys2Proof.Machine

theorem deliverDue_due {k : Nat} {s : State} (h : tcuDue s k = true) : deliverDue k s = compareFire k s := if_pos h

theorem deliverDue_notDue {k : Nat} {s : State} (h : tcuDue s k = false) : deliverDue k s = s := if_neg (by simp [h])

/-- A unit whose destination is none of the four kinds fires into nothing (R42). -/
theorem compareFire_elsewhere {k : Nat} {s : State} (h : (getTcu s k).dest.toNat < 0x20 ∨ 0x26 < (getTcu s k).dest.toNat) :
    compareFire k s = fireTcu k s := by
  unfold compareFire
  dsimp only
  split
  · omega
  · omega
  · omega
  · rw [if_neg (by omega)]

/-- A unit assigned to a converter clock aligns it (R627). -/
theorem compareFire_cnv {k : Nat} {s : State} (h : 0x22 ≤ (getTcu s k).dest.toNat ∧ (getTcu s k).dest.toNat ≤ 0x25) :
    compareFire k s = emit (.cnvAlign ((getTcu s k).dest.toNat - 0x22) (fireInstant s k))
      (onTb (fun b => { b with cnvAlign := vmod b.cnvAlign ((getTcu s k).dest.toNat - 0x22) (fun _ => fireInstant s k) }) (fireTcu k s)) := by
  unfold compareFire
  dsimp only
  split
  · omega
  · omega
  · omega
  · rw [if_pos h]

theorem getElem_vmod_const {α : Type} {n : Nat} (v : Vector α n) {i : Nat} (x : α) (h : i < n) : (vmod v i (fun _ => x))[i]? = some x := by
  rw [vmod_lt v i _ h]
  simp [h]

/-- What a firing leaves in its unit (R39–R41). -/
theorem getTcu_fireTcu {n : Nat} (s : State) (h : n < 32) :
    getTcu (fireTcu n s) n = { getTcu s n with
      fired := true, late := (getTcu s n).late || firesLate s n, en := (getTcu s n).periodic, heldAt := none,
      target := if (getTcu s n).periodic then nextTarget s.now (getTcu s n).target (getTcu s n).period.toNat else (getTcu s n).target } :=
  vget_vmod s.tb.tcu n (fun _ => _) {} h

theorem execPulseEnd_of_fallAt {s : State} {k : Fin 12} {f : LT} (h : s.tb.pins[k].fallAt = some f) :
    execPulseEnd k s = .next (if ltReached s.now f then setPin k.val false f none s else s) := by
  rw [execPulseEnd, vget_fin]
  simp only [Fin.getElem_fin] at h
  rw [h]

/-- A pin's level and edge; a change of the looped-back output reaches TCC15 (R44, R46). -/
theorem setPin_eq (s : State) (k : Fin 12) (l : Bool) (i : LT) (f : Option LT) :
    setPin k.val l i f s =
      (let u : State := { s with tb := { s.tb with pins := s.tb.pins.set k { level := l, fallAt := f } }, out := .pin k.val l i :: s.out }
       if k.val = 4 + s.tb.pinCfg.loopback.val ∧ s.tb.pins[k].level ≠ l then captureEdge 15 i l u else u) := by
  simp only [setPin, vget_fin, onTb, emit, vmod_fin]
  rfl

theorem exec_compareFire {n : Fin 12} {s t : State} (h : tcuDue s (20 + n.val) = true) (ht : compareFire (20 + n.val) s = t) :
    exec (.compareFire n) s = .next t := congrArg Host.Outcome.next ((deliverDue_due h).trans ht)

theorem exec_pinOutputFire (k : Fin 12) (s : State) : exec (.pinOutputFire k) s = execPinOutputFire k s := rfl

theorem exec_pulseEnd (k : Fin 12) (s : State) : exec (.pulseEnd k) s = execPulseEnd k s := rfl

/-- Settles O24: each destination by the branch of the firing that serves it, the pins by what sets their level. -/
theorem compareUnitsFire : Obligations.CompareUnitsFire := by
  refine ⟨fun s n h => ?_, fun s n h hd => ?_, fun s n h hd => ?_, fun s n h hd => ?_, fun s n h hd => ?_, fun s n h hd => ?_, fun s n h => ?_,
    fun s n => ⟨rfl, rfl⟩, fun s k h => ?_, fun s k h hr => ?_, fun s k h hr => ?_, fun s k f hf hr => ?_, fun s k hf => ?_,
    fun s k l i f h => ?_, fun s k l i f h hl => ?_⟩
  · exact congrArg Host.Outcome.next (deliverDue_notDue h)
  · refine exec_compareFire h ?_
    simp only [compareFire, hd]
    rfl
  · refine exec_compareFire h ?_
    simp only [compareFire, hd]
    rfl
  · refine exec_compareFire h ?_
    simp only [compareFire, hd]
    rfl
  · refine ⟨_, exec_compareFire h (compareFire_cnv hd), ?_, rfl, rfl⟩
    exact getElem_vmod_const _ _ (by omega)
  · exact exec_compareFire h (compareFire_elsewhere hd)
  · rw [getTcu_fireTcu s h]
    exact ⟨rfl, rfl, rfl, rfl, rfl⟩
  · simp [exec_pinOutputFire, execPinOutputFire, h]
  · simp [exec_pinOutputFire, execPinOutputFire, h, hr]
  · simp [exec_pinOutputFire, execPinOutputFire, h, hr]
  · exact (execPulseEnd_of_fallAt hf).trans (by rw [if_pos hr])
  · cases h : s.tb.pins[k].fallAt with
    | none =>
      simp only [Fin.getElem_fin] at h
      simp [exec_pulseEnd, execPulseEnd, h]
    | some f => exact (execPulseEnd_of_fallAt h).trans (by rw [if_neg (by simp [hf f h])])
  · rw [setPin_eq]
    exact if_neg fun ⟨hk, hl⟩ => h.elim (fun h => h hk) hl
  · rw [setPin_eq]
    exact if_pos ⟨h, hl⟩

end Sys2Proof.Machine
end
section
/-! The staged commands. -/

namespace Sys2Proof.Machine

/-- FB_STAGE_CODE of an image that is read. -/
theorem execFbStageCode_decoded {c : Cmd} {raw : List Byte} {img : CodeImage} {s : State} (h : decodeImage raw = some img) :
    exec (.fbStageCode c raw) s = stage 0x0901 true c [.code img.owner img] (checkFbStageCode c img) s := by
  change execFbStageCode c raw s = _
  simp only [execFbStageCode, h]

/-- FB_STAGE_CODE of an image that cannot be read. -/
theorem execFbStageCode_undecoded {c : Cmd} {raw : List Byte} {s : State} (h : decodeImage raw = none) :
    exec (.fbStageCode c raw) s = stage 0x0901 true c [] (fun _ _ => some .badParam) s := by
  change execFbStageCode c raw s = _
  simp only [execFbStageCode, h]

/-- SE_STAGE_GROUPS, with or without a lock timeout. -/
theorem exec_seStageGroups (c : Cmd) (l : List (Fin 16 × GroupCfg)) (k : Option Nat) (s : State) :
    exec (.seStageGroups c l k) s = stage 0x0501 false c
      (l.map (fun e => Item.group e.1 e.2) ++ (k.map (fun n => Item.lockTimeout n)).toList) (checkSeStageGroups l k) s := by
  cases k <;> rfl

/-- FB_STAGE_SCHEDULE, with or without a frame. -/
theorem exec_fbStageSchedule (c : Cmd) (f : Option Nat) (l : List (Fin 48 × List Window)) (s : State) :
    exec (.fbStageSchedule c f l) s = stage 0x0903 false c
      ((f.map (fun us => Item.frame (us / 10))).toList ++ l.map (fun e => Item.windows e.1 e.2)) (checkFbStageSchedule f l) s := by
  cases f <;> rfl

/-- FB_STAGE_TASKS, with or without the owner's settings. -/
theorem exec_fbStageTasks (c : Cmd) (o : Tag) (l : List (Nat × TaskCfg)) (own : Option OwnerCfg) (s : State) :
    exec (.fbStageTasks c o l own) s = stage 0x0904 true c
      (l.map (fun e => Item.task o e.1 e.2) ++ (own.map (fun x => Item.ownerCfg o x)).toList) (checkFbStageTasks c o l) s := by
  cases own <;> rfl

/-- PS_STAGE_POINTS, with or without a write period. -/
theorem exec_psStagePoints (c : Cmd) (defs : List (Nat × PointDef)) (pubs : List PubCfg) (k : Option Nat) (s : State) :
    exec (.psStagePoints c defs pubs k) s = stage 0x0A01 true c
      (defs.map (fun e => Item.point e.1 e.2) ++ pubs.map Item.pub ++ (k.map (fun n => Item.tPsw n)).toList)
      (checkPsStagePoints c defs pubs k) s := by
  cases k <;> rfl

/-- Settles O35: each command is one staged command of its own opcode, items and check, so what `stage` accepts and refuses is what it does. -/
theorem stagedItemsJoinTheSession : Obligations.StagedItemsJoinTheSession := by
  -- TB and PX
  refine ⟨fun _ _ _ h => stage_ok h, fun _ _ _ _ _ hs h => stage_refused hs h,
    fun _ _ _ h => stage_ok h, fun _ _ _ _ _ hs h => stage_refused hs h,
    fun _ _ _ h => stage_ok h, fun _ _ _ _ _ hs h => stage_refused hs h,
    fun _ _ _ h => stage_ok h, fun _ _ _ _ _ hs h => stage_refused hs h,
    fun _ _ _ h => stage_ok h, fun _ _ _ _ _ hs h => stage_refused hs h,
    fun _ _ _ _ h => stage_ok h, fun _ _ _ _ _ _ hs h => stage_refused hs h,
    fun _ _ _ _ h => stage_ok h, fun _ _ _ _ _ _ hs h => stage_refused hs h,
    fun _ _ _ _ h => stage_ok h, fun _ _ _ _ _ _ hs h => stage_refused hs h,
    fun _ _ _ _ h => stage_ok h, fun _ _ _ _ _ _ hs h => stage_refused hs h, ?_⟩
  -- SW, QM, the cabinet link and the groups of SE
  refine ⟨fun _ _ _ h => stage_ok h, fun _ _ _ _ _ hs h => stage_refused hs h,
    fun _ _ _ h => stage_ok h, fun _ _ _ _ _ hs h => stage_refused hs h,
    fun _ _ _ h => stage_ok h, fun _ _ _ _ _ hs h => stage_refused hs h,
    fun _ _ _ h => stage_ok h, fun _ _ _ _ _ hs h => stage_refused hs h,
    fun _ _ _ h => stage_ok h, fun _ _ _ _ _ hs h => stage_refused hs h,
    fun _ _ _ h => stage_ok h, fun _ _ _ _ _ hs h => stage_refused hs h,
    fun _ _ _ h => stage_ok h, fun _ _ _ _ _ hs h => stage_refused hs h,
    fun _ _ _ h => stage_ok h, fun _ _ _ _ _ hs h => stage_refused hs h,
    fun _ _ _ _ h => (exec_seStageGroups ..).trans (stage_ok h), fun _ _ _ _ _ _ hs h => (exec_seStageGroups ..).trans (stage_refused hs h), ?_⟩
  -- SE, FR and PE
  refine ⟨fun _ _ _ h => stage_ok h, fun _ _ _ _ _ hs h => stage_refused hs h,
    fun _ _ _ h => stage_ok h, fun _ _ _ _ _ hs h => stage_refused hs h,
    fun _ _ _ h => stage_ok h, fun _ _ _ _ _ hs h => stage_refused hs h,
    fun _ _ _ h => stage_ok h, fun _ _ _ _ _ hs h => stage_refused hs h,
    fun _ _ _ h => stage_ok h, fun _ _ _ _ _ hs h => stage_refused hs h,
    fun _ _ _ h => stage_ok h, fun _ _ _ _ _ hs h => stage_refused hs h,
    fun _ _ _ h => stage_ok h, fun _ _ _ _ _ hs h => stage_refused hs h,
    fun _ _ _ h => stage_ok h, fun _ _ _ _ _ hs h => stage_refused hs h,
    fun _ _ _ h => stage_ok h, fun _ _ _ _ _ hs h => stage_refused hs h, ?_⟩
  -- AR, and the code, reception and schedule of FB
  refine ⟨fun _ _ _ h => stage_ok h, fun _ _ _ _ _ hs h => stage_refused hs h,
    fun _ _ _ h => stage_ok h, fun _ _ _ _ _ hs h => stage_refused hs h,
    fun _ _ _ h => stage_ok h, fun _ _ _ _ _ hs h => stage_refused hs h,
    fun _ _ _ h => stage_ok h, fun _ _ _ _ _ hs h => stage_refused hs h,
    fun _ _ _ _ hi h => (execFbStageCode_decoded hi).trans (stage_ok h),
    fun _ _ _ _ _ _ hi hs h => (execFbStageCode_decoded hi).trans (stage_refused hs h),
    fun _ _ _ _ _ hi hs h => (execFbStageCode_undecoded hi).trans (stage_refused hs h),
    fun _ _ _ h => stage_ok h, fun _ _ _ _ _ hs h => stage_refused hs h,
    fun _ _ _ _ h => (exec_fbStageSchedule ..).trans (stage_ok h), fun _ _ _ _ _ _ hs h => (exec_fbStageSchedule ..).trans (stage_refused hs h), ?_⟩
  -- FB's tasks and retained ranges, PS, FO, IM and PA
  refine ⟨fun _ _ _ _ _ h => (exec_fbStageTasks ..).trans (stage_ok h), fun _ _ _ _ _ _ _ hs h => (exec_fbStageTasks ..).trans (stage_refused hs h),
    fun _ _ _ _ h => stage_ok h, fun _ _ _ _ _ _ hs h => stage_refused hs h,
    fun _ _ _ _ _ h => (exec_psStagePoints ..).trans (stage_ok h), fun _ _ _ _ _ _ _ hs h => (exec_psStagePoints ..).trans (stage_refused hs h),
    fun _ _ _ h => stage_ok h, fun _ _ _ _ _ hs h => stage_refused hs h,
    fun _ _ _ _ h => stage_ok h, fun _ _ _ _ _ _ hs h => stage_refused hs h,
    fun _ _ _ h => stage_ok h, fun _ _ _ _ _ hs h => stage_refused hs h,
    fun _ _ _ h => stage_ok h, fun _ _ _ _ _ hs h => stage_refused hs h,
    fun _ _ _ h => stage_ok h, fun _ _ _ _ _ hs h => stage_refused hs h,
    fun _ _ _ h => stage_ok h, fun _ _ _ _ _ hs h => stage_refused hs h⟩

end Sys2Proof.Machine
end
section
/-! The time mapping and the servo. -/

namespace Sys2Proof.Machine

/-! ## What arms a unit leaves the mapping -/

/-- Two states that differ in the compare units alone. -/
def SameButTcu (s t : State) : Prop := ∃ v, t = { s with tb := { s.tb with tcu := v } }

theorem SameButTcu.refl (s : State) : SameButTcu s s := ⟨s.tb.tcu, rfl⟩

theorem SameButTcu.trans {s t u : State} : SameButTcu s t → SameButTcu t u → SameButTcu s u := by
  rintro ⟨v, rfl⟩ ⟨w, rfl⟩
  exact ⟨w, rfl⟩

theorem modTcu_sameButTcu (n : Nat) (f : Tcu → Tcu) (s : State) : SameButTcu s (modTcu n f s) := ⟨_, rfl⟩

theorem armPin_sameButTcu (k : Nat) (s : State) : SameButTcu s (armPin k s) := by
  unfold armPin
  split <;> exact modTcu_sameButTcu ..

theorem armCnv_sameButTcu (k : Nat) (s : State) : SameButTcu s (armCnv k s) := by
  unfold armCnv
  dsimp only
  split
  · exact modTcu_sameButTcu ..
  · exact .refl s

theorem foldl_sameButTcu {α : Type} (f : State → α → State) (h : ∀ s a, SameButTcu s (f s a)) (l : List α) (s : State) :
    SameButTcu s (l.foldl f s) :=
  List.foldlRecOn (motive := SameButTcu s) l f (.refl s) fun _ ht a _ => ht.trans (h _ a)

theorem armTai_sameButTcu (s : State) : SameButTcu s (armTai s) :=
  (modTcu_sameButTcu 3 _ s).trans
    ((foldl_sameButTcu (fun s k => armPin k s) (fun s k => armPin_sameButTcu k s) _ _).trans
      (foldl_sameButTcu (fun s k => armCnv k s) (fun s k => armCnv_sameButTcu k s) _ _))

/-! ## The servo -/

theorem setServo_self {x : Servo} {s : State} (h : s.tb.servo = x) : setServo x s = s := if_pos h

/-- A change of the servo that does not leave LOCKED changes its state alone (R35). -/
theorem setServo_tb_of_not_locked {x : Servo} {s : State} (h : s.tb.servo ≠ .locked) : (setServo x s).tb = { s.tb with servo := x } := by
  unfold setServo
  split
  next hx => rw [← hx]
  · simp

/-- A change that leaves LOCKED accounts the span spent in it (R35). -/
theorem setServo_tb_of_locked {x : Servo} {s : State} (h : s.tb.servo = .locked) (hx : x ≠ .locked) :
    (setServo x s).tb = { s.tb with
      servo := x, lockedRates := lockedSpans s.tb s.now, rateSince := s.now, leftLockedAt := some s.abs } := by
  unfold setServo
  rw [if_neg (fun hs => hx (hs.symm.trans h)), if_pos h, raise_tb]
  rfl

@[simp] theorem setServo_free (x : Servo) (s : State) : (setServo x s).free = s.free := by
  unfold setServo
  split
  · rfl
  · simp only [raise_free]
    split <;> rfl

/-- What a change of the servo leaves of the Time Base but the account of LOCKED. -/
theorem setServo_tb (x : Servo) (s : State) : ∃ l r a, (setServo x s).tb = { s.tb with servo := x, lockedRates := l, rateSince := r, leftLockedAt := a } := by
  by_cases h : s.tb.servo = .locked
  · by_cases hx : x = .locked
    · subst hx
      exact ⟨_, _, _, by rw [setServo_self h, ← h]⟩
    · exact ⟨_, _, _, setServo_tb_of_locked h hx⟩
  · exact ⟨_, _, _, setServo_tb_of_not_locked h⟩

@[simp] theorem setServo_tb_acc (x : Servo) (s : State) : (setServo x s).tb.acc = s.tb.acc := by
  obtain ⟨l, r, a, h⟩ := setServo_tb x s
  rw [h]

@[simp] theorem setServo_tb_rate (x : Servo) (s : State) : (setServo x s).tb.rate = s.tb.rate := by
  obtain ⟨l, r, a, h⟩ := setServo_tb x s
  rw [h]

@[simp] theorem setServo_tb_ltA (x : Servo) (s : State) : (setServo x s).tb.ltA = s.tb.ltA := by
  obtain ⟨l, r, a, h⟩ := setServo_tb x s
  rw [h]

@[simp] theorem setServo_tb_taiS (x : Servo) (s : State) : (setServo x s).tb.taiS = s.tb.taiS := by
  obtain ⟨l, r, a, h⟩ := setServo_tb x s
  rw [h]

@[simp] theorem setServo_tb_taiNs (x : Servo) (s : State) : (setServo x s).tb.taiNs = s.tb.taiNs := by
  obtain ⟨l, r, a, h⟩ := setServo_tb x s
  rw [h]

@[simp] theorem setServo_tb_taiFr (x : Servo) (s : State) : (setServo x s).tb.taiFr = s.tb.taiFr := by
  obtain ⟨l, r, a, h⟩ := setServo_tb x s
  rw [h]

@[simp] theorem setServo_tb_within (x : Servo) (s : State) : (setServo x s).tb.within = s.tb.within := by
  obtain ⟨l, r, a, h⟩ := setServo_tb x s
  rw [h]

@[simp] theorem setServo_tb_offset (x : Servo) (s : State) : (setServo x s).tb.offset = s.tb.offset := by
  obtain ⟨l, r, a, h⟩ := setServo_tb x s
  rw [h]

@[simp] theorem setServo_tb_measuredAt (x : Servo) (s : State) : (setServo x s).tb.measuredAt = s.tb.measuredAt := by
  obtain ⟨l, r, a, h⟩ := setServo_tb x s
  rw [h]

@[simp] theorem setServo_tb_source (x : Servo) (s : State) : (setServo x s).tb.source = s.tb.source := by
  obtain ⟨l, r, a, h⟩ := setServo_tb x s
  rw [h]

@[simp] theorem setServo_tb_lossAt (x : Servo) (s : State) : (setServo x s).tb.lossAt = s.tb.lossAt := by
  obtain ⟨l, r, a, h⟩ := setServo_tb x s
  rw [h]

@[simp] theorem setServo_tb_irig (x : Servo) (s : State) : (setServo x s).tb.irig = s.tb.irig := by
  obtain ⟨l, r, a, h⟩ := setServo_tb x s
  rw [h]

@[simp] theorem setServo_tb_everLocked (x : Servo) (s : State) : (setServo x s).tb.everLocked = s.tb.everLocked := by
  obtain ⟨l, r, a, h⟩ := setServo_tb x s
  rw [h]

@[simp] theorem setServo_tb_servo (x : Servo) (s : State) : (setServo x s).tb.servo = x := by
  obtain ⟨l, r, a, h⟩ := setServo_tb x s
  rw [h]

theorem servoUpdate_idle {s : State} (h : measuredOffset s.tb = none ∨ s.tb.lossAt.isSome = true ∨ s.tb.servo = .freerun ∨ s.tb.servo = .holdover) :
    exec .servoUpdate s = .next s := by
  show execServoUpdate s = .next s
  unfold execServoUpdate
  split
  · rfl
  next m hm =>
    rw [hm] at h
    refine if_pos ?_
    rcases h with h | h | h | h
    · nomatch h
    · exact .inl h
    · exact .inr (by simp [h])
    · exact .inr (by simp [h])

theorem exec_servoUpdate (s : State) : exec .servoUpdate s = execServoUpdate s := rfl

section
variable {s : State} {m : Int} (hm : measuredOffset s.tb = some m) (hloss : s.tb.lossAt = none)
  (hservo : s.tb.servo = .acquiring ∨ s.tb.servo = .locked)
include hm hloss hservo

theorem servoUpdate_first (hv : s.tb.taiValid = false) : exec .servoUpdate s = .next (firstMapping (taiOf s.tb s.now - m) s) := by
  simp [exec_servoUpdate, execServoUpdate, hm, hloss, hservo, hv]

theorem servoUpdate_step (hv : s.tb.taiValid = true) (hbig : nsTu s.tb.cfg.stepThr < m.natAbs) :
    exec .servoUpdate s = .next (timeStep (taiOf s.tb s.now - m) (servoJudge m s)) := by
  simp [exec_servoUpdate, execServoUpdate, hm, hloss, hservo, hv, hbig]

theorem servoUpdate_filter (hv : s.tb.taiValid = true) (hsmall : m.natAbs ≤ nsTu s.tb.cfg.stepThr) :
    exec .servoUpdate s = .next (servoJudge (Config.freeInt s.free) (onTb (fun t => { t with
      offset := Config.freeInt s.free, rate := clampRate (Config.freeNat (s.free + 1)), measuredAt := s.now })
      { accountLocked (takeMeasured s) with free := s.free + 2 })) := by
  simp [exec_servoUpdate, execServoUpdate, hm, hloss, hservo, hv, Nat.not_lt.mpr hsmall]
  rfl

end

/-- The servo's state after a judgement (R35): LOCKED with the fourth update within the threshold, ACQUIRING beyond four times it. -/
theorem servoJudge_tb (f : Int) {s : State} (hservo : s.tb.servo = .acquiring ∨ s.tb.servo = .locked) :
    let t := (servoJudge f s).tb
    t.within = (if f.natAbs ≤ nsTu s.tb.cfg.lockThr then s.tb.within + 1 else 0) ∧
    t.servo = (if s.tb.servo = .acquiring then (if 4 ≤ t.within then .locked else .acquiring)
      else if 4 * nsTu s.tb.cfg.lockThr < f.natAbs then .acquiring else .locked) ∧
    t.offset = s.tb.offset ∧ t.rate = s.tb.rate ∧ t.measuredAt = s.tb.measuredAt ∧ t.acc = s.tb.acc ∧ (servoJudge f s).free = s.free := by
  rcases hservo with h | h
  · simp only [servoJudge, onTb_tb, h, if_true]
    generalize (if f.natAbs ≤ nsTu s.tb.cfg.lockThr then s.tb.within + 1 else 0) = n
    split
    next hn => simp [reachLocked, hn]
    next hn => simp [h, hn]
  · simp only [servoJudge, onTb_tb, h, reduceCtorEq, if_false]
    generalize (if f.natAbs ≤ nsTu s.tb.cfg.lockThr then s.tb.within + 1 else 0) = n
    split
    next hf => simp
    next hf => simp [h]

end Sys2Proof.Machine
end
section
/-! The anchor, the steps of the mapping, and the loss of a source. -/

namespace Sys2Proof.Machine

/-! ## The anchor and the mapping -/

theorem clampRate_within (n : Nat) :
    nominalRate.toNat - 112589990684 ≤ (clampRate n).toNat ∧ (clampRate n).toNat ≤ nominalRate.toNat + 112589990684 := by
  have hnom : nominalRate.toNat = 562949953421312 := by decide
  rw [clampRate, rateSpan, hnom, BitVec.toNat_ofNat]
  omega

theorem anchorAdvance_idle {s : State} (h : s.tb.taiValid = false ∨ (taiOf s.tb s.now).ediv (secTu 1) ≤ (s.tb.taiS.toNat : Int)) :
    exec .anchorAdvance s = .next s := by
  refine if_pos ?_
  rcases h with h | h
  · rw [h]
    rfl
  · rw [decide_eq_true h, Bool.or_true]

/-- The state after the anchor has moved to a second boundary. -/
theorem anchorAdvance_moves {s : State} (hv : s.tb.taiValid = true) (h : (s.tb.taiS.toNat : Int) < (taiOf s.tb s.now).ediv (secTu 1)) :
    exec .anchorAdvance s = .next (
      let tai := (taiOf s.tb s.now).ediv (secTu 1) * secTu 1
      let u := { s with tb := ageMarks s.now (setAnchor s.tb (ltOfTai s.tb tai) tai) }
      onMi (fun m => { m with timeLink := m.timeLink ++ [({
        lt := ltOfTai s.tb tai, taiS := taiSec tai, utcOffset := s.tb.utcOffset,
        taiValid := s.tb.taiValid, servo := s.tb.servo, ltUncertain := s.tb.ltUncertain, errBound := timeErrBound u }, 0xF0)] }) u) :=
  if_neg (by simp [hv, h])

/-- A first mapping gives the present tick its TAI and raises nothing (R24). -/
theorem firstMapping_eq (x : Int) (s : State) : ∃ v, firstMapping x s =
    { s with tb := { (setMapping x s).tb with taiValid := true, tcu := v } } := armTai_sameButTcu _

/-- A step gives the present tick its TAI, with TIME_STEP and its event (R24). -/
theorem timeStep_eq (x : Int) (s : State) : ∃ v, timeStep x s =
    (let u := raise 0x09 0 (onTb (fun t => { t with timeStep := true, lastStep := some s.abs }) (setMapping x s))
     { u with tb := { u.tb with tcu := v } }) := armTai_sameButTcu _

/-! ## Sources -/

theorem sourceLost_starts {s : State} (hsrc : s.tb.source ≠ .none) (hloss : s.tb.lossAt = none) :
    sourceLost s = { s with tb := { s.tb with
      lossAt := some (ltAdd s.now (msTu s.tb.cfg.lossMs)),
      eLock := ceilDiv s.tb.offset.natAbs 65536, ptpQualified := s.tb.ptpQualified && s.tb.source != .ptp,
      irig := if s.tb.source = .irig then { s.tb.irig with qualified := false } else s.tb.irig } } :=
  if_neg (by simp [hsrc, hloss])

theorem sourceLost_idle {s : State} (h : s.tb.source = .none ∨ s.tb.lossAt.isSome = true) : sourceLost s = s := if_pos h

/-- With no Announce held there is no best port (R31). -/
theorem bestPort_none {t : TbState} (h : ∀ p, (vget t.ptp p {}).announce = none) : bestPort t = none := by
  refine List.foldlRecOn (motive := fun a => a = none) (List.range 14) _ rfl fun a ha p _ => ?_
  rw [h p, ha]
  split
  next hx => nomatch hx
  next => rfl

/-- With no Announce held a PTP source is lost: no port is the slave port (R34, R35). -/
theorem runBmca_none {s : State} (hsrc : s.tb.source = .ptp) (h : ∀ p, (vget s.tb.ptp p {}).announce = none) :
    ∃ v, runBmca s = sourceLost { s with tb := { s.tb with ptp := v, gm := none, ptpQualified := false, slavePort := 0xF } } := by
  unfold runBmca
  rw [bestPort_none h]
  exact ⟨_, (if_neg (by simp)).trans (if_pos hsrc)⟩

theorem announce_vmod (v : Vector PtpPort 14) (i : Nat) (h : ∀ q, q ≠ i → (vget v q {}).announce = none) (p : Nat) :
    (vget (vmod v i (fun x => { x with announce := none })) p {}).announce = none := by
  by_cases hp : i = p
  · subst hp
    by_cases hi : i < 14
    · rw [vget_vmod _ _ _ _ hi]
    · rw [vget, Vector.getElem?_eq_none (Nat.not_lt.mp hi)]
      rfl
  · rw [vget_vmod_ne _ _ _ _ _ hp]
    exact h p (Ne.symm hp)

section
variable {s : State} {l : LT} (hl : s.tb.lossAt = some l) (hr : ltReached s.now l = true)
include hl hr

/-- The loss timeout runs out (R35). -/
theorem execLossTimeout_reached : execLossTimeout s =
    (let u := onTb (fun t => { t with lossAt := none }) s
     if bestSource u.tb ≠ .none then .next (selectSource (bestSource u.tb) u)
     else if u.tb.servo = .locked ∨ (u.tb.servo = .acquiring ∧ u.tb.everLocked) then
       let v := setServo .holdover u
       .next (onTb (fun t => { t with source := .none, rate := meanRate t.lockedRates, rateSince := v.now, holdTai := taiOf t v.now }) v)
     else .next (onTb (fun t => { t with source := .none, rate := nominalRate }) (setServo .freerun u))) := by
  unfold execLossTimeout
  rw [hl]
  exact if_neg (by simp [hr])

theorem lossTimeout_select (hb : bestSource s.tb ≠ .none) :
    exec .lossTimeout s = .next (selectSource (bestSource s.tb) (onTb (fun t => { t with lossAt := none }) s)) :=
  (execLossTimeout_reached hl hr).trans (if_pos hb)

theorem lossTimeout_holdover (hb : bestSource s.tb = .none) (hs : s.tb.servo = .locked ∨ (s.tb.servo = .acquiring ∧ s.tb.everLocked = true)) :
    exec .lossTimeout s = .next (
      let v := setServo .holdover (onTb (fun t => { t with lossAt := none }) s)
      onTb (fun t => { t with source := .none, rate := meanRate t.lockedRates, rateSince := v.now, holdTai := taiOf t v.now }) v) :=
  (execLossTimeout_reached hl hr).trans ((if_neg fun h => h hb).trans (if_pos hs))

theorem lossTimeout_freerun (hb : bestSource s.tb = .none) (hs : ¬(s.tb.servo = .locked ∨ (s.tb.servo = .acquiring ∧ s.tb.everLocked = true))) :
    exec .lossTimeout s = .next (onTb (fun t => { t with source := .none, rate := nominalRate })
      (setServo .freerun (onTb (fun t => { t with lossAt := none }) s))) :=
  (execLossTimeout_reached hl hr).trans ((if_neg fun h => h hb).trans (if_neg hs))

end

theorem lossTimeout_idle {s : State} (h : ∀ l, s.tb.lossAt = some l → ltReached s.now l = false) : exec .lossTimeout s = .next s := by
  show execLossTimeout s = _
  unfold execLossTimeout
  split
  · rfl
  next l hl => exact if_pos (by rw [h l hl]; rfl)

/-- HOLDOVER takes the increment of the spans spent LOCKED, the last one included (R35). -/
theorem setServo_lockedRates {x : Servo} {s : State} (hx : x ≠ .locked) :
    (setServo x s).tb.lockedRates = if s.tb.servo = .locked then lockedSpans s.tb s.now else s.tb.lockedRates := by
  split
  next h => rw [setServo_tb_of_locked h hx]
  next h => rw [setServo_tb_of_not_locked h]

/-! ## The clauses on the mapping and the sources -/

theorem firstMapping_time (x : Int) (s : State) :
    (firstMapping x s).tb.ltA = s.now ∧ (firstMapping x s).tb.taiS = taiSec x ∧ (firstMapping x s).tb.taiNs = taiNsOf x ∧
    (firstMapping x s).tb.taiFr = taiFrOf x ∧ (firstMapping x s).tb.taiValid = true ∧ (firstMapping x s).tb.timeStep = s.tb.timeStep ∧
    (firstMapping x s).tb.acc = s.tb.acc ∧ (firstMapping x s).ev = s.ev := by
  obtain ⟨v, h⟩ := firstMapping_eq x s
  rw [h]
  exact ⟨rfl, rfl, rfl, rfl, rfl, rfl, rfl, rfl⟩

theorem timeStep_time (x : Int) (s : State) :
    (timeStep x s).tb.ltA = s.now ∧ (timeStep x s).tb.taiS = taiSec x ∧ (timeStep x s).tb.taiNs = taiNsOf x ∧
    (timeStep x s).tb.taiFr = taiFrOf x ∧ (timeStep x s).tb.timeStep = true ∧ (timeStep x s).tb.offset = 0 ∧ (timeStep x s).tb.within = 0 ∧
    (timeStep x s).tb.acc = s.tb.acc ∧ (timeStep x s).ev.count[0x09] = satInc s.ev.count[0x09] := by
  obtain ⟨v, h⟩ := timeStep_eq x s
  rw [h]
  dsimp only
  rw [raise_tb]
  refine ⟨rfl, rfl, rfl, rfl, rfl, rfl, rfl, rfl, ?_⟩
  simp [vmod_lt, setMapping]

end Sys2Proof.Machine
end
section
/-! PTP messages received and sent. -/

namespace Sys2Proof.Machine

theorem modPtp_congr {p : Fin 14} {f g : PtpPort → PtpPort} {s : State} (h : f s.tb.ptp[p] = g s.tb.ptp[p]) :
    modPtp p.val f s = modPtp p.val g s := by
  simp only [Fin.getElem_fin] at h
  simp only [modPtp, onTb, vmod_fin, h]

theorem exec_ptpMessageRx (p : Fin 14) (m : PtpMsg) (rx : LT) (s : State) : exec (.ptpMessageRx p m rx) s = execPtpMessageRx p m rx s := rfl

theorem exec_ptpMessageTx (p : Fin 14) (t : PtpMsgType) (s : State) : exec (.ptpMessageTx p t) s = execPtpMessageTx p t s := rfl

/-! ## Reception (R31, R33) -/

theorem ptpMessageRx_elsewhere {s : State} {p : Fin 14} {m : PtpMsg} {rx : LT}
    (h : ptpPortCfg s.tb p.val = none ∨ m.domain ≠ s.tb.cfg.domain) : exec (.ptpMessageRx p m rx) s = .next s := by
  show execPtpMessageRx p m rx s = .next s
  unfold execPtpMessageRx
  split
  · rfl
  next hc => exact if_pos (h.resolve_left (by simp [hc]))

section
variable {s : State} {p : Fin 14} {m : PtpMsg} {rx : LT} (hc : (ptpPortCfg s.tb p.val).isSome = true) (hd : m.domain = s.tb.cfg.domain)
include hc hd

theorem ptpMessageRx_announce {a : Announce} (ht : m.type = .announce) (ha : m.ann = some a) (hl : annLooped s.tb a = false) :
    exec (.ptpMessageRx p m rx) s = .next (
      let u := runBmca (modPtp p.val (fun x => { x with announce := some a }) s)
      if u.tb.slavePort.toNat = p.val then takeUtc a u else u) := by
  obtain ⟨c, hc⟩ := Option.isSome_iff_exists.mp hc
  simp [exec_ptpMessageRx, execPtpMessageRx, hc, hd, ht, ha, hl]

theorem ptpMessageRx_announce_idle (ht : m.type = .announce) (ha : m.ann = none ∨ ∃ a, m.ann = some a ∧ annLooped s.tb a = true) :
    exec (.ptpMessageRx p m rx) s = .next s := by
  obtain ⟨c, hc⟩ := Option.isSome_iff_exists.mp hc
  obtain ha | ⟨a, ha, hl⟩ := ha
  · simp [exec_ptpMessageRx, execPtpMessageRx, hc, hd, ht, ha]
  · simp [exec_ptpMessageRx, execPtpMessageRx, hc, hd, ht, ha, hl]

theorem ptpMessageRx_sync_twoStep (ht : m.type = .sync) (hs : s.tb.ptp[p].state = .slave) (h2 : m.twoStep = true) :
    exec (.ptpMessageRx p m rx) s = .next (modPtp p.val (fun x => { x with syncRx := some (m.seq, taiOf s.tb rx, m.correction) }) s) := by
  obtain ⟨c, hc⟩ := Option.isSome_iff_exists.mp hc
  simp only [Fin.getElem_fin] at hs
  simp [exec_ptpMessageRx, execPtpMessageRx, hc, hd, ht, hs, h2]

theorem ptpMessageRx_sync_oneStep (ht : m.type = .sync) (hs : s.tb.ptp[p].state = .slave) (h2 : m.twoStep = false) :
    exec (.ptpMessageRx p m rx) s = .next (offsetMeasured p.val (taiOf s.tb rx) m.ts m.correction s) := by
  obtain ⟨c, hc⟩ := Option.isSome_iff_exists.mp hc
  simp only [Fin.getElem_fin] at hs
  simp [exec_ptpMessageRx, execPtpMessageRx, hc, hd, ht, hs, h2]

theorem ptpMessageRx_notSlave (ht : m.type = .sync ∨ m.type = .followUp) (hs : s.tb.ptp[p].state ≠ .slave) :
    exec (.ptpMessageRx p m rx) s = .next s := by
  obtain ⟨c, hc⟩ := Option.isSome_iff_exists.mp hc
  simp only [Fin.getElem_fin] at hs
  rcases ht with ht | ht
  · simp [exec_ptpMessageRx, execPtpMessageRx, hc, hd, ht, hs]
  · simp only [exec_ptpMessageRx, execPtpMessageRx, hc, hd, ht, vget_fin, hs, ne_eq, not_true_eq_false, if_false, false_and]
    split <;> rfl

theorem ptpMessageRx_followUp {y k : Int} (ht : m.type = .followUp) (hs : s.tb.ptp[p].state = .slave)
    (hq : s.tb.ptp[p].syncRx = some (m.seq, y, k)) : exec (.ptpMessageRx p m rx) s =
      .next (offsetMeasured p.val y m.ts (k + m.correction) (modPtp p.val (fun x => { x with syncRx := none }) s)) := by
  obtain ⟨c, hc⟩ := Option.isSome_iff_exists.mp hc
  simp only [Fin.getElem_fin] at hs hq
  simp [exec_ptpMessageRx, execPtpMessageRx, hc, hd, ht, hs, hq]

theorem ptpMessageRx_followUp_idle (ht : m.type = .followUp) (hq : ∀ y k, s.tb.ptp[p].syncRx ≠ some (m.seq, y, k)) :
    exec (.ptpMessageRx p m rx) s = .next s := by
  obtain ⟨c, hc⟩ := Option.isSome_iff_exists.mp hc
  simp only [Fin.getElem_fin] at hq
  simp only [exec_ptpMessageRx, execPtpMessageRx, hc, hd, ht, vget_fin, ne_eq, not_true_eq_false, if_false]
  split
  next q y k hx => exact if_neg fun ⟨_, h⟩ => hq y k (h ▸ hx)
  · rfl

theorem ptpMessageRx_delayReq (ht : m.type = .delayReq) (hs : s.tb.ptp[p].state = .master) (he : s.tb.cfg.delay = .e2e) :
    exec (.ptpMessageRx p m rx) s = .next (modPtp p.val (fun x => { x with
      requests := x.requests ++ [{ seq := m.seq, source := m.source, rx := taiOf s.tb rx, correction := m.correction, peer := false }] }) s) := by
  obtain ⟨c, hc⟩ := Option.isSome_iff_exists.mp hc
  simp only [Fin.getElem_fin] at hs
  simp [exec_ptpMessageRx, execPtpMessageRx, hc, hd, ht, hs, he]

theorem ptpMessageRx_pdelayReq (ht : m.type = .pdelayReq) (hs : s.tb.ptp[p].state ≠ .disabled) (he : s.tb.cfg.delay = .p2p) :
    exec (.ptpMessageRx p m rx) s = .next (modPtp p.val (fun x => { x with
      requests := x.requests ++ [{ seq := m.seq, source := m.source, rx := taiOf s.tb rx, correction := m.correction, peer := true }] }) s) := by
  obtain ⟨c, hc⟩ := Option.isSome_iff_exists.mp hc
  simp only [Fin.getElem_fin] at hs
  simp [exec_ptpMessageRx, execPtpMessageRx, hc, hd, ht, hs, he]

theorem ptpMessageRx_request_idle (h : (m.type = .delayReq ∧ (s.tb.ptp[p].state ≠ .master ∨ s.tb.cfg.delay ≠ .e2e)) ∨
    (m.type = .pdelayReq ∧ (s.tb.ptp[p].state = .disabled ∨ s.tb.cfg.delay ≠ .p2p)) ∨ m.type = .other) :
    exec (.ptpMessageRx p m rx) s = .next s := by
  obtain ⟨c, hc⟩ := Option.isSome_iff_exists.mp hc
  simp only [Fin.getElem_fin] at h
  obtain ⟨ht, h⟩ | ⟨ht, h⟩ | ht := h
  · simp only [exec_ptpMessageRx, execPtpMessageRx, hc, hd, ht, vget_fin, h, ne_eq, not_true_eq_false, if_false, if_true]
  · simp only [exec_ptpMessageRx, execPtpMessageRx, hc, hd, ht, vget_fin, h, ne_eq, not_true_eq_false, if_false, if_true]
  · simp only [exec_ptpMessageRx, execPtpMessageRx, hc, hd, ht, ne_eq, not_true_eq_false, if_false]

theorem ptpMessageRx_delayResp {y : Int} (ht : m.type = .delayResp) (hm : m.requester = portIdentity p.val)
    (hx : s.tb.ptp[p].delayTx = some (m.seq, y)) : exec (.ptpMessageRx p m rx) s = .next (modPtp p.val (fun x => { x with
      meanDelay := (s.tb.ptp[p].syncDiff + (m.ts - y - m.correction)).ediv 2, delayTx := none }) s) := by
  obtain ⟨c, hc⟩ := Option.isSome_iff_exists.mp hc
  refine Eq.trans ?_ (congrArg Host.Outcome.next (modPtp_congr (f := fun x => { x with
    meanDelay := (x.syncDiff + (m.ts - y - m.correction)).ediv 2, delayTx := none }) rfl))
  simp only [Fin.getElem_fin] at hx
  simp [exec_ptpMessageRx, execPtpMessageRx, hc, hd, ht, hm, hx]

theorem ptpMessageRx_pdelayResp_twoStep {y : Int} (ht : m.type = .pdelayResp) (hm : m.requester = portIdentity p.val)
    (hx : s.tb.ptp[p].delayTx = some (m.seq, y)) (h2 : m.twoStep = true) : exec (.ptpMessageRx p m rx) s =
      .next (modPtp p.val (fun x => { x with pdelayRx := some (m.seq, m.ts, taiOf s.tb rx, m.correction) }) s) := by
  obtain ⟨c, hc⟩ := Option.isSome_iff_exists.mp hc
  simp only [Fin.getElem_fin] at hx
  simp [exec_ptpMessageRx, execPtpMessageRx, hc, hd, ht, hm, hx, h2]

theorem ptpMessageRx_pdelayResp_oneStep {y : Int} (ht : m.type = .pdelayResp) (hm : m.requester = portIdentity p.val)
    (hx : s.tb.ptp[p].delayTx = some (m.seq, y)) (h2 : m.twoStep = false) : exec (.ptpMessageRx p m rx) s =
      .next (modPtp p.val (fun x => { x with meanDelay := (taiOf s.tb rx - y - m.correction).ediv 2, delayTx := none }) s) := by
  obtain ⟨c, hc⟩ := Option.isSome_iff_exists.mp hc
  simp only [Fin.getElem_fin] at hx
  simp [exec_ptpMessageRx, execPtpMessageRx, hc, hd, ht, hm, hx, h2]

theorem ptpMessageRx_pdelayFollow {b d k : Int} {y : BitVec 16 × Int} (ht : m.type = .pdelayRespFollowUp)
    (hm : m.requester = portIdentity p.val) (hr : s.tb.ptp[p].pdelayRx = some (m.seq, b, d, k)) (hx : s.tb.ptp[p].delayTx = some y) :
    exec (.ptpMessageRx p m rx) s = .next (modPtp p.val (fun x => { x with
      meanDelay := ((d - y.2) - (m.ts - b) - k - m.correction).ediv 2, pdelayRx := none, delayTx := none }) s) := by
  obtain ⟨c, hc⟩ := Option.isSome_iff_exists.mp hc
  simp only [Fin.getElem_fin] at hr hx
  simp [exec_ptpMessageRx, execPtpMessageRx, hc, hd, ht, hm, hr, hx]

/-- A response that answers no request of this port is nothing (R31). -/
theorem ptpMessageRx_response_idle
    (h : ((m.type = .delayResp ∨ m.type = .pdelayResp) ∧ (m.requester ≠ portIdentity p.val ∨ ∀ y, s.tb.ptp[p].delayTx ≠ some (m.seq, y))) ∨
      (m.type = .pdelayRespFollowUp ∧ (m.requester ≠ portIdentity p.val ∨ s.tb.ptp[p].delayTx = none ∨
        ∀ b d k, s.tb.ptp[p].pdelayRx ≠ some (m.seq, b, d, k)))) : exec (.ptpMessageRx p m rx) s = .next s := by
  obtain ⟨c, hc⟩ := Option.isSome_iff_exists.mp hc
  simp only [Fin.getElem_fin] at h
  have answers {q : BitVec 16} {y : Int} (hx : s.tb.ptp[p.val].delayTx = some (q, y))
      (h : m.requester ≠ portIdentity p.val ∨ ∀ y, s.tb.ptp[p.val].delayTx ≠ some (m.seq, y)) :
      ¬((m.requester == portIdentity p.val) = true ∧ q = m.seq) := fun ⟨hm, hq⟩ =>
    h.elim (fun h => h (beq_iff_eq.mp hm)) fun h => h y (hq ▸ hx)
  obtain ⟨ht | ht, h⟩ | ⟨ht, h⟩ := h
  · simp only [exec_ptpMessageRx, execPtpMessageRx, hc, hd, ht, vget_fin, ne_eq, not_true_eq_false, if_false]
    split
    next hx => exact if_neg (answers hx h)
    · rfl
  · simp only [exec_ptpMessageRx, execPtpMessageRx, hc, hd, ht, vget_fin, ne_eq, not_true_eq_false, if_false]
    split
    next hx => exact if_neg (answers hx h)
    · rfl
  · simp only [exec_ptpMessageRx, execPtpMessageRx, hc, hd, ht, vget_fin, ne_eq, not_true_eq_false, if_false]
    split
    next q b d k _ y hr hx =>
      refine if_neg fun ⟨hm, hq⟩ => ?_
      rcases h with h | h | h
      · exact h (beq_iff_eq.mp hm)
      · rw [h] at hx
        nomatch hx
      · exact h b d k (hq ▸ hr)
    · rfl

end

/-! ## Generation (R33, R629) -/

theorem ptpMessageTx_elsewhere {s : State} {p : Fin 14} (t : PtpMsgType) (h : ptpPortCfg s.tb p.val = none) :
    exec (.ptpMessageTx p t) s = .next s := by
  simp [exec_ptpMessageTx, execPtpMessageTx, h]

/-- A message that SU may not send of its own accord in the port's state is nothing (R31). -/
theorem ptpMessageTx_idle {s : State} {p : Fin 14} {t : PtpMsgType}
    (ht : t = .sync ∨ t = .announce ∨ t = .delayReq ∨ t = .pdelayReq ∨ t = .other)
    (h : ptpMaySend s.tb.ptp[p].state s.tb.cfg.delay t = false) : exec (.ptpMessageTx p t) s = .next s := by
  simp only [Fin.getElem_fin] at h
  cases hc : ptpPortCfg s.tb p.val with
  | none => exact ptpMessageTx_elsewhere t hc
  | some c => rcases ht with rfl | rfl | rfl | rfl | rfl <;> simp [exec_ptpMessageTx, execPtpMessageTx, hc, h]

section
variable {s : State} {p : Fin 14} {c : PtpPortCfg} (hc : ptpPortCfg s.tb p.val = some c)
include hc

theorem ptpMessageTx_sync (hs : s.tb.ptp[p].state = .master) :
    exec (.ptpMessageTx p .sync) s = .next (ptpSend p.val .sync (!c.oneStepSync) 0 0 (vget s.tb.ptp[p].txSeq 0 0) c.logSync (ptpTime 0)
      (modPtp p.val (fun x => { x with txSeq := vmod x.txSeq 0 (· + 1) }) s)) := by
  simp only [Fin.getElem_fin] at hs ⊢
  simp [exec_ptpMessageTx, execPtpMessageTx, hc, hs, ptpMaySend, ptpNextSeq]

theorem ptpMessageTx_announce (hs : s.tb.ptp[p].state = .master) :
    exec (.ptpMessageTx p .announce) s = .next (ptpSend p.val .announce false (announceFlags s) 0 (vget s.tb.ptp[p].txSeq 3 0) c.logAnnounce
      (announceBody s) (modPtp p.val (fun x => { x with txSeq := vmod x.txSeq 3 (· + 1) }) s)) := by
  simp only [Fin.getElem_fin] at hs ⊢
  simp only [exec_ptpMessageTx, execPtpMessageTx, hc, hs, ptpMaySend, ptpNextSeq, vget_fin, beq_self_eq_true, Bool.not_true, Bool.false_eq_true, if_false]
  rfl

theorem ptpMessageTx_delayReq (hs : s.tb.ptp[p].state = .slave) (he : s.tb.cfg.delay = .e2e) :
    exec (.ptpMessageTx p .delayReq) s = .next (ptpSend p.val .delayReq false 0 0 (vget s.tb.ptp[p].txSeq 1 0) 0x7F (ptpTime 0)
      (modPtp p.val (fun x => { x with txSeq := vmod x.txSeq 1 (· + 1) }) s)) := by
  simp only [Fin.getElem_fin] at hs ⊢
  simp [exec_ptpMessageTx, execPtpMessageTx, hc, hs, he, ptpMaySend, ptpNextSeq]

theorem ptpMessageTx_pdelayReq (hs : s.tb.ptp[p].state ≠ .disabled) (he : s.tb.cfg.delay = .p2p) :
    exec (.ptpMessageTx p .pdelayReq) s = .next (ptpSend p.val .pdelayReq false 0 0 (vget s.tb.ptp[p].txSeq 2 0) 0x7F (ptpTime 0 ++ bytesBE 10 0)
      (modPtp p.val (fun x => { x with txSeq := vmod x.txSeq 2 (· + 1) }) s)) := by
  simp only [Fin.getElem_fin] at hs ⊢
  simp [exec_ptpMessageTx, execPtpMessageTx, hc, hs, he, ptpMaySend, ptpNextSeq]

theorem ptpMessageTx_answers :
    exec (.ptpMessageTx p .followUp) s = .next (ptpFollow p.val c .followUp s) ∧
    exec (.ptpMessageTx p .pdelayRespFollowUp) s = .next (ptpFollow p.val c .pdelayRespFollowUp s) ∧
    exec (.ptpMessageTx p .delayResp) s = .next (if s.tb.ptp[p].state = .master then ptpRespond p.val c .delayResp s else s) ∧
    exec (.ptpMessageTx p .pdelayResp) s =
      .next (if s.tb.cfg.delay = .p2p ∧ s.tb.ptp[p].state ≠ .disabled then ptpRespond p.val c .pdelayResp s else s) := by
  simp [exec_ptpMessageTx, execPtpMessageTx, hc]

end

end Sys2Proof.Machine
end
section
/-! Captured edges, IRIG frames, and the clauses on time put together. -/

namespace Sys2Proof.Machine

/-! ## Captures (R45, R47) -/

theorem exec_captureEdge (n : Fin 16) (t : LT) (r : Bool) (w : Nat) (s : State) : exec (.captureEdge n t r w) s = execCaptureEdge n t r w s := rfl

theorem captureEdge_taken {s : State} {n : Fin 16} {t : LT} {r : Bool} {w : Nat} (hn : n.val < 14) (hw : nsTu 4 ≤ w)
    (ha : edgeActive s.tb.tcc[n].edge r = true) : exec (.captureEdge n t r w) s = .next (recordEdge n.val t s) := by
  simp only [Fin.getElem_fin] at ha
  simp [exec_captureEdge, execCaptureEdge, hn, hw, captureEdge, ha]

/-- An edge that is long enough after the last is recorded, or lost at a full FIFO (R45, R47). -/
theorem recordEdge_apart {s : State} {n : Fin 16} {t : LT} (hl : ∀ l, s.tb.tcc[n].lastEdge = some l → (nsTu 8 : Int) ≤ s.absOf t - l) :
    recordEdge n.val t s =
      if s.tb.tcc[n].fifo.length < 4 then
        onTb (fun b => { b with tcc := vmod b.tcc n.val (fun c => { c with fifo := c.fifo ++ [t &&& ~~~0xFFFF#64], lastEdge := some (s.absOf t) }) }) s
      else raise 0x0B 0 (onTb (fun b => { b with tcc := vmod b.tcc n.val (fun c => { c with ovf := true }), tccOvf := true }) s) := by
  simp only [Fin.getElem_fin] at hl
  simp only [recordEdge, vget_fin, Fin.getElem_fin]
  refine if_neg ?_
  split
  next l h => simpa using hl l h
  next => simp

theorem recordEdge_near {s : State} {n : Fin 16} {t : LT} {l : Int} (hl : s.tb.tcc[n].lastEdge = some l) (hd : s.absOf t - l < (nsTu 8 : Int)) :
    recordEdge n.val t s = s := by
  simp only [Fin.getElem_fin] at hl
  simp only [recordEdge, vget_fin, hl]
  exact if_pos (decide_eq_true hd)

theorem captureEdge_idle {s : State} {n : Fin 16} {t : LT} {r : Bool} {w : Nat}
    (h : 14 ≤ n.val ∨ w < nsTu 4 ∨ edgeActive s.tb.tcc[n].edge r = false ∨
      ∃ l, s.tb.tcc[n].lastEdge = some l ∧ s.absOf t - l < (nsTu 8 : Int)) : exec (.captureEdge n t r w) s = .next s := by
  by_cases hp : n.val < 14 ∧ nsTu 4 ≤ w
  · by_cases ha : edgeActive s.tb.tcc[n].edge r = true
    · obtain ⟨l, hl, hd⟩ := ((h.resolve_left (by omega)).resolve_left (by omega)).resolve_left (fun h' => by rw [ha] at h'; nomatch h')
      rw [captureEdge_taken hp.1 hp.2 ha, recordEdge_near hl hd]
    · simp only [Fin.getElem_fin] at ha
      simp [exec_captureEdge, execCaptureEdge, captureEdge, ha]
  · exact congrArg Host.Outcome.next (if_neg hp)

/-! ## IRIG (R48, R49) -/

theorem sourceQualified_irig (s : State) : (sourceQualified s).tb.irig = s.tb.irig := by
  unfold sourceQualified
  dsimp only
  split
  · rfl
  · split
    · split <;> rfl
    · split
      · rfl
      · exact setServo_tb_irig _ _

theorem irigUtc_irig (f : IrigFrame) (s : State) : (irigUtc f s).tb.irig = s.tb.irig := by
  unfold irigUtc
  split
  · rfl
  · split
    · dsimp only
      split <;> rfl
    · rfl

theorem irigFrame_noPps {s : State} {f : IrigFrame} (h : f.pps = none) : exec (.irigFrame f) s = .next (irigFault true s) := by
  show execIrigFrame f s = _
  unfold execIrigFrame
  rw [h]

theorem irigFrame_bad {s : State} {f : IrigFrame} {pps : LT} (hp : f.pps = some pps)
    (h : irigDecodes f = false ∨ irigAgrees s.tb f = false ∨ usTu 10 < (ltDiff f.edge pps).natAbs) :
    exec (.irigFrame f) s = .next (irigFault false s) := by
  show execIrigFrame f s = _
  unfold execIrigFrame
  rw [hp]
  refine if_pos ?_
  rcases h with h | h | h <;> simp [h]

theorem irigFrame_good {s : State} {f : IrigFrame} {pps : LT} (hp : f.pps = some pps) (hdec : irigDecodes f = true)
    (hagr : irigAgrees s.tb f = true) (hnear : (ltDiff f.edge pps).natAbs ≤ usTu 10) :
    ∃ t, exec (.irigFrame f) s = .next t ∧ t.tb.irig.good = s.tb.irig.good + 1 ∧ t.tb.irig.faults = 0 ∧
      t.tb.irig.qualified = (s.tb.irig.qualified || decide (2 ≤ s.tb.irig.good)) ∧
      t.tb.irig.measured = (irigTai t.tb f).map (fun sec => taiOf t.tb pps - sec * (secTu 1 : Nat)) := by
  have hbad : ¬(!irigDecodes f || !irigAgrees s.tb f || decide ((ltDiff f.edge pps).natAbs > usTu 10)) = true := by
    simp [hdec, hagr, hnear]
  have hq : decide (3 ≤ s.tb.irig.good + 1) = decide (2 ≤ s.tb.irig.good) := by
    rw [decide_eq_decide]
    omega
  have hkept (u : State) : (irigUtc f (if 3 ≤ s.tb.irig.good + 1 then sourceQualified u else u)).tb.irig = u.tb.irig := by
    rw [irigUtc_irig]
    split
    · exact sourceQualified_irig u
    · rfl
  show ∃ t, execIrigFrame f s = _ ∧ _
  unfold execIrigFrame
  rw [hp]
  dsimp only
  rw [if_neg hbad]
  refine ⟨_, rfl, ?_⟩
  simp only [onTb_tb, hkept]
  exact ⟨trivial, trivial, congrArg _ hq, rfl⟩

/-- The first fault of a run counts; the second disqualifies the source (R49). -/
theorem irigFault_counts (b : Bool) (s : State) :
    (irigFault b s).tb.irig.good = 0 ∧ (irigFault b s).tb.irig.faults = s.tb.irig.faults + 1 ∧
    (irigFault b s).tb.irigErr = (s.tb.irigErr || !b) ∧ (irigFault b s).tb.ppsMissing = (s.tb.ppsMissing || b) ∧
    (irigFault b s).tb.irig.qualified = (s.tb.irig.qualified && decide (s.tb.irig.faults < 1)) ∧
    (irigFault b s).ev.count[0x0C] = satInc s.ev.count[0x0C] := by
  unfold irigFault
  dsimp only
  by_cases h : 2 ≤ s.tb.irig.faults + 1
  · have hq : decide (s.tb.irig.faults < 1) = false := decide_eq_false (by omega)
    rw [if_pos h, hq, Bool.and_false]
    split
    next hsrc =>
      rw [sourceLost]
      split
      · simp [vmod_lt]
      · rw [raise_tb] at hsrc
        simp [vmod_lt]
    · simp [vmod_lt]
  · have hq : decide (s.tb.irig.faults < 1) = true := decide_eq_true (by omega)
    rw [if_neg h, hq, Bool.and_true]
    simp [vmod_lt]

end Sys2Proof.Machine
end
section
/-! The clauses on time that speak of the state afterwards, and all of them together. -/

namespace Sys2Proof.Machine

theorem anchorAdvance_records {s : State} (hv : s.tb.taiValid = true) (h : (s.tb.taiS.toNat : Int) < (taiOf s.tb s.now).ediv (secTu 1)) :
    ∃ t, exec .anchorAdvance s = .next t ∧ t.tb.ltA = ltOfTai s.tb ((taiOf s.tb s.now).ediv (secTu 1) * secTu 1) ∧
      t.tb.taiS = taiSec ((taiOf s.tb s.now).ediv (secTu 1) * secTu 1) ∧ t.tb.taiNs = taiNsOf ((taiOf s.tb s.now).ediv (secTu 1) * secTu 1) ∧
      t.tb.taiFr = taiFrOf ((taiOf s.tb s.now).ediv (secTu 1) * secTu 1) ∧
      t.mi.timeLink = s.mi.timeLink ++ [({
        lt := t.tb.ltA, taiS := t.tb.taiS, utcOffset := s.tb.utcOffset, taiValid := true, servo := s.tb.servo,
        ltUncertain := s.tb.ltUncertain, errBound := timeErrBound t }, 0xF0)] ∧
      t.tb.acc = s.tb.acc := by
  refine ⟨_, anchorAdvance_moves hv h, rfl, rfl, rfl, rfl, ?_, rfl⟩
  dsimp only
  rw [hv]
  rfl

theorem accountLocked_takeMeasured_tb (s : State) :
    let t := (accountLocked (takeMeasured s)).tb
    t.servo = s.tb.servo ∧ t.cfg = s.tb.cfg ∧ t.within = s.tb.within ∧ t.acc = s.tb.acc := ⟨rfl, rfl, rfl, rfl⟩

theorem servoUpdate_filters {s : State} {m : Int} (hm : measuredOffset s.tb = some m) (hloss : s.tb.lossAt = none)
    (hservo : s.tb.servo = .acquiring ∨ s.tb.servo = .locked) (hv : s.tb.taiValid = true) (hsmall : m.natAbs ≤ nsTu s.tb.cfg.stepThr) :
    ∃ t, exec .servoUpdate s = .next t ∧ t.tb.offset = Config.freeInt s.free ∧
      t.tb.rate = clampRate (Config.freeNat (s.free + 1)) ∧ t.tb.measuredAt = s.now ∧ t.free = s.free + 2 ∧ t.tb.acc = s.tb.acc ∧
      t.tb.within = (if (Config.freeInt s.free).natAbs ≤ nsTu s.tb.cfg.lockThr then s.tb.within + 1 else 0) ∧
      t.tb.servo = (if s.tb.servo = .acquiring then (if 4 ≤ t.tb.within then .locked else .acquiring)
        else if 4 * nsTu s.tb.cfg.lockThr < (Config.freeInt s.free).natAbs then .acquiring else .locked) := by
  obtain ⟨hkept, hcfg, hwithin, hacc⟩ := accountLocked_takeMeasured_tb s
  obtain ⟨h1, h2, h3, h4, h5, h6, h7⟩ := servoJudge_tb (Config.freeInt s.free) (s := onTb (fun t => { t with
    offset := Config.freeInt s.free, rate := clampRate (Config.freeNat (s.free + 1)), measuredAt := s.now })
    { accountLocked (takeMeasured s) with free := s.free + 2 }) (by simpa only [onTb_tb, hkept] using hservo)
  simp only [onTb_tb, hkept, hcfg, hwithin, hacc] at h1 h2 h3 h4 h5 h6
  exact ⟨_, servoUpdate_filter hm hloss hservo hv hsmall, h3, h4, h5, h7, h6, h1, h2⟩

theorem sourceLost_irig {s : State} (hsrc : s.tb.source = .irig) (hloss : s.tb.lossAt = none) :
    ∃ t, exec .sourceLost s = .next t ∧ t.tb.lossAt = some (ltAdd s.now (msTu s.tb.cfg.lossMs)) ∧
      t.tb.eLock = ceilDiv s.tb.offset.natAbs 65536 ∧ t.tb.servo = s.tb.servo ∧ t.tb.irig.qualified = false := by
  have hx : exec .sourceLost s = .next (sourceLost s) := congrArg Host.Outcome.next (if_neg (by simp [hsrc]))
  rw [sourceLost_starts (by simp [hsrc]) hloss, if_pos hsrc] at hx
  exact ⟨_, hx, rfl, rfl, rfl, rfl⟩

theorem sourceLost_ptp_judges {s : State} (hsrc : s.tb.source = .ptp) : exec .sourceLost s = .next (runBmca { s with
    tb := { s.tb with ptp := vmod s.tb.ptp s.tb.slavePort.toNat (fun x => { x with announce := none }) } }) :=
  congrArg Host.Outcome.next (if_pos hsrc)

/-- Once no Announce is held, judging the best master starts the loss timeout (R34, R35). -/
theorem runBmca_starts {s : State} (hsrc : s.tb.source = .ptp) (hloss : s.tb.lossAt = none) (h : ∀ p, (vget s.tb.ptp p {}).announce = none) :
    (runBmca s).tb.lossAt = some (ltAdd s.now (msTu s.tb.cfg.lossMs)) ∧ (runBmca s).tb.eLock = ceilDiv s.tb.offset.natAbs 65536 ∧
    (runBmca s).tb.servo = s.tb.servo ∧ (runBmca s).tb.ptpQualified = false ∧ (runBmca s).tb.slavePort = 0xF := by
  obtain ⟨v, hb⟩ := runBmca_none hsrc h
  rw [hb.trans (sourceLost_starts (by simp [hsrc]) hloss)]
  exact ⟨rfl, rfl, rfl, rfl, rfl⟩

theorem sourceLost_ptp_alone {s : State} (hsrc : s.tb.source = .ptp) (hloss : s.tb.lossAt = none)
    (h : ∀ q : Nat, q ≠ s.tb.slavePort.toNat → (vget s.tb.ptp q {}).announce = none) :
    ∃ t, exec .sourceLost s = .next t ∧ t.tb.lossAt = some (ltAdd s.now (msTu s.tb.cfg.lossMs)) ∧
      t.tb.eLock = ceilDiv s.tb.offset.natAbs 65536 ∧ t.tb.servo = s.tb.servo ∧ t.tb.ptpQualified = false ∧ t.tb.slavePort = 0xF :=
  ⟨_, sourceLost_ptp_judges hsrc, runBmca_starts hsrc hloss (announce_vmod _ _ h)⟩

theorem sourceLost_nothing {s : State} (h : s.tb.source = .none ∨ (s.tb.source = .irig ∧ s.tb.lossAt.isSome = true)) :
    exec .sourceLost s = .next s := by
  have hp : s.tb.source ≠ .ptp := by
    obtain h | ⟨h, _⟩ := h <;> simp [h]
  exact congrArg Host.Outcome.next ((if_neg hp).trans (sourceLost_idle (h.imp id And.right)))

section
variable {s : State} {l : LT} (hl : s.tb.lossAt = some l) (hr : ltReached s.now l = true)
include hl hr

theorem lossTimeout_selects (hb : bestSource s.tb ≠ .none) : ∃ t, exec .lossTimeout s = .next t ∧ t.tb.source = bestSource s.tb ∧
    t.tb.servo = .acquiring ∧ t.tb.within = 0 ∧ t.tb.lossAt = none ∧ t.tb.rate = s.tb.rate := by
  refine ⟨_, lossTimeout_select hl hr hb, ?_⟩
  simp [selectSource]

theorem lossTimeout_holds (hb : bestSource s.tb = .none) (hs : s.tb.servo = .locked ∨ (s.tb.servo = .acquiring ∧ s.tb.everLocked = true)) :
    ∃ t, exec .lossTimeout s = .next t ∧ t.tb.servo = .holdover ∧ t.tb.source = .none ∧ t.tb.lossAt = none ∧
      t.tb.lockedRates = (if s.tb.servo = .locked then lockedSpans s.tb s.now else s.tb.lockedRates) ∧
      t.tb.rate = meanRate t.tb.lockedRates ∧ t.tb.holdTai = taiOf s.tb s.now := by
  refine ⟨_, lossTimeout_holdover hl hr hb hs, ?_⟩
  dsimp only
  obtain ⟨_, _, _, hv⟩ := setServo_tb .holdover (onTb (fun t => { t with lossAt := none }) s)
  have hrates := setServo_lockedRates (x := .holdover) (s := onTb (fun t => { t with lossAt := none }) s) nofun
  refine ⟨by simp, rfl, by simp, hrates, rfl, ?_⟩
  simp only [onTb_tb, State.now, hv]
  rfl

theorem lossTimeout_frees (hb : bestSource s.tb = .none) (hs : s.tb.servo ≠ .locked) (he : s.tb.servo = .acquiring → s.tb.everLocked = false) :
    ∃ t, exec .lossTimeout s = .next t ∧ t.tb.servo = .freerun ∧ t.tb.source = .none ∧ t.tb.lossAt = none ∧ t.tb.rate = nominalRate := by
  have hn : ¬(s.tb.servo = .locked ∨ (s.tb.servo = .acquiring ∧ s.tb.everLocked = true)) := fun h =>
    h.elim hs fun ⟨ha, hv⟩ => by simp [he ha] at hv
  exact ⟨_, lossTimeout_freerun hl hr hb hn, by simp, rfl, by simp, rfl⟩

end

section
variable {s : State} {n : Fin 16} {t : LT} {r : Bool} {w : Nat} (hn : n.val < 14) (hw : nsTu 4 ≤ w)
  (ha : edgeActive s.tb.tcc[n].edge r = true) (hl : ∀ l, s.tb.tcc[n].lastEdge = some l → (nsTu 8 : Int) ≤ s.absOf t - l)
include hn hw ha hl

theorem captureEdge_records (hroom : s.tb.tcc[n].fifo.length < 4) :
    ∃ u, exec (.captureEdge n t r w) s = .next u ∧ u.tb.tcc[n].fifo = s.tb.tcc[n].fifo ++ [t &&& ~~~0xFFFF#64] ∧
      u.tb.tcc[n].lastEdge = some (s.absOf t) ∧ u.ev = s.ev ∧ u.out = s.out := by
  have hx := captureEdge_taken hn hw ha (t := t)
  rw [recordEdge_apart hl, if_pos hroom] at hx
  refine ⟨_, hx, ?_⟩
  simp [vmod_fin]

theorem captureEdge_loses (hfull : 4 ≤ s.tb.tcc[n].fifo.length) :
    ∃ u, exec (.captureEdge n t r w) s = .next u ∧ u.tb.tcc[n].fifo = s.tb.tcc[n].fifo ∧ u.tb.tcc[n].ovf = true ∧
      u.tb.tccOvf = true ∧ u.ev.count[0x0B] = satInc s.ev.count[0x0B] := by
  have hx := captureEdge_taken hn hw ha (t := t)
  rw [recordEdge_apart hl, if_neg (Nat.not_lt.mpr hfull)] at hx
  refine ⟨_, hx, ?_⟩
  simp [vmod_lt]

end

/-- Settles O25: each clause is the lemma above on the command's branch. -/
theorem timeMappingPtpAndInputs : Obligations.TimeMappingPtpAndInputs := by
  -- the anchor, the servo and the mapping
  refine ⟨fun _ hv h => anchorAdvance_records hv h, fun _ h => anchorAdvance_idle h,
    fun _ _ hm hl hs hv => servoUpdate_first hm hl hs hv, fun _ _ hm hl hs hv hb => servoUpdate_step hm hl hs hv hb,
    fun _ _ hm hl hs hv hb => servoUpdate_filters hm hl hs hv hb, clampRate_within, fun _ h => servoUpdate_idle h,
    firstMapping_time, timeStep_time, ?_⟩
  -- the loss of a source
  refine ⟨fun _ hs hl => sourceLost_irig hs hl, fun _ hs hl h => sourceLost_ptp_alone hs hl h, fun _ hs => sourceLost_ptp_judges hs,
    fun _ h => sourceLost_nothing h, fun _ _ hl hr hb => lossTimeout_selects hl hr hb, fun _ _ hl hr hb hs => lossTimeout_holds hl hr hb hs,
    fun _ _ hl hr hb hs he => lossTimeout_frees hl hr hb hs he, fun _ h => lossTimeout_idle h, ?_⟩
  -- PTP: Announce, Sync and Follow_Up
  refine ⟨fun _ _ _ _ h => ptpMessageRx_elsewhere h, fun _ _ _ _ _ hc hd ht ha hl => ptpMessageRx_announce hc hd ht ha hl,
    fun _ _ _ _ hc hd ht ha => ptpMessageRx_announce_idle hc hd ht ha,
    fun _ _ _ _ hc hd ht hs h2 => ptpMessageRx_sync_twoStep hc hd ht hs h2,
    fun _ _ _ _ hc hd ht hs h2 => ptpMessageRx_sync_oneStep hc hd ht hs h2,
    fun _ _ _ _ hc hd ht hs => ptpMessageRx_notSlave hc hd ht hs,
    fun _ _ _ _ _ _ hc hd ht hs hq => ptpMessageRx_followUp hc hd ht hs hq,
    fun _ _ _ _ hc hd ht hq => ptpMessageRx_followUp_idle hc hd ht hq, ?_⟩
  -- PTP: requests and responses
  refine ⟨fun _ _ _ _ hc hd ht hs he => ptpMessageRx_delayReq hc hd ht hs he,
    fun _ _ _ _ hc hd ht hs he => ptpMessageRx_pdelayReq hc hd ht hs he,
    fun _ _ _ _ hc hd h => ptpMessageRx_request_idle hc hd h,
    fun _ _ _ _ _ hc hd ht hm hx => ptpMessageRx_delayResp hc hd ht hm hx,
    fun _ _ _ _ _ hc hd ht hm hx h2 => ptpMessageRx_pdelayResp_twoStep hc hd ht hm hx h2,
    fun _ _ _ _ _ hc hd ht hm hx h2 => ptpMessageRx_pdelayResp_oneStep hc hd ht hm hx h2,
    fun _ _ _ _ _ _ _ _ hc hd ht hm hr hx => ptpMessageRx_pdelayFollow hc hd ht hm hr hx, ?_, ?_, ?_⟩
  · intro s p m rx hc hd ht h
    have hq : m.requester ≠ portIdentity p.val ∨ ∀ y, s.tb.ptp[p].delayTx ≠ some (m.seq, y) :=
      h.imp id fun h y => by rw [h]; nofun
    obtain ht | ht | ht := ht
    · exact ptpMessageRx_response_idle hc hd (.inl ⟨.inl ht, hq⟩)
    · exact ptpMessageRx_response_idle hc hd (.inl ⟨.inr ht, hq⟩)
    · exact ptpMessageRx_response_idle hc hd (.inr ⟨ht, h.imp id .inl⟩)
  · intro s p m rx hc hd h
    exact ptpMessageRx_response_idle hc hd (h.imp (And.imp id .inr) (And.imp id (.inr ∘ .inr)))
  -- PTP generation, captures and IRIG
  exact ⟨fun _ _ t h => ptpMessageTx_elsewhere t h, fun _ _ _ hc hs => ptpMessageTx_sync hc hs,
    fun _ _ _ hc hs => ptpMessageTx_announce hc hs, fun _ _ _ hc hs he => ptpMessageTx_delayReq hc hs he,
    fun _ _ _ hc hs he => ptpMessageTx_pdelayReq hc hs he, fun _ _ _ ht h => ptpMessageTx_idle ht h,
    fun _ _ _ hc => ptpMessageTx_answers hc,
    fun _ _ _ _ _ hn hw ha hl hroom => captureEdge_records hn hw ha hl hroom,
    fun _ _ _ _ _ hn hw ha hl hfull => captureEdge_loses hn hw ha hl hfull,
    fun _ _ _ _ _ h => captureEdge_idle h,
    fun _ _ h => irigFrame_noPps h, fun _ _ _ hp h => irigFrame_bad hp h,
    fun _ _ _ hp hdec hagr hnear => irigFrame_good hp hdec hagr hnear, irigFault_counts⟩

end Sys2Proof.Machine
end
section
/-! What start-up keeps: single parts of the state, ended phases, the want of a package, early events and the early sources. -/

namespace Sys2Proof.Machine

/-! ## One part of the state that an operation leaves -/

/-- All parts of the state but one. -/
def allBut (p : Part) : List Part :=
  [.tb, .su, .px, .sw, .qm, .se, .fr, .pe, .ar, .fb, .ps, .fo, .mi, .kv, .im, .pa, .pmb, .jtag, .grd, .log, .ev, .glob, .free, .out].filter (· ≠ p)

theorem su_of_outside {s t : State} (h : outside (allBut .su) t = outside (allBut .su) s) : t.su = s.su := by
  simpa [outside, allBut] using congrArg State.su h

theorem qm_of_outside {s t : State} (h : outside (allBut .qm) t = outside (allBut .qm) s) : t.qm = s.qm := by
  simpa [outside, allBut] using congrArg State.qm h

theorem ps_of_outside {s t : State} (h : outside (allBut .ps) t = outside (allBut .ps) s) : t.ps = s.ps := by
  simpa [outside, allBut] using congrArg State.ps h

theorem kv_of_outside {s t : State} (h : outside (allBut .kv) t = outside (allBut .kv) s) : t.kv = s.kv := by
  simpa [outside, allBut] using congrArg State.kv h

theorem pa_of_outside {s t : State} (h : outside (allBut .pa) t = outside (allBut .pa) s) : t.pa = s.pa := by
  simpa [outside, allBut] using congrArg State.pa h

theorem glob_of_outside {s t : State} (h : outside (allBut .glob) t = outside (allBut .glob) s) : t.glob = s.glob := by
  simpa [outside, allBut] using congrArg State.glob h

/-! ## Phases -/

/-- What marking a phase leaves of the power state. -/
theorem markPhase_pa (p : Nat) (stamp : Bool) (s : State) : ∃ e l v n, (markPhase p stamp s).pa =
    { s.pa with ended := e, lastEnd := l, phaseEnd := v, phase := n } := by
  unfold markPhase
  split <;> exact ⟨_, _, _, _, rfl⟩

theorem markPhase_ended {p : Nat} (hp : p < 12) (stamp : Bool) (s : State) : (markPhase p stamp s).pa.ended.getLsbD p = true := by
  unfold markPhase
  split
  · assumption
  · simp [hp]

@[simp] theorem markPhase_noPackage (p : Nat) (stamp : Bool) (s : State) : (markPhase p stamp s).pa.noPackage = s.pa.noPackage := by
  obtain ⟨_, _, _, _, h⟩ := markPhase_pa p stamp s
  rw [h]

/-- A phase that is due has not ended. -/
theorem not_ended_of_phaseDue {p : Nat} {l : List Nat} {s : State} (h : phaseDue p l s = true) : s.pa.ended.getLsbD p = false := by
  simp only [phaseDue, Bool.and_eq_true, Bool.not_eq_true'] at h
  exact h.1.2

/-! ## The want of a package (R555) -/

theorem foldl_noPackage {α : Type} (f : State → α → State) (h : ∀ s a, (f s a).pa.noPackage = s.pa.noPackage) (l : List α) (s : State) :
    (l.foldl f s).pa.noPackage = s.pa.noPackage :=
  List.foldlRecOn (motive := fun (t : State) => t.pa.noPackage = s.pa.noPackage) l f rfl fun _ ht a _ => (h _ a).trans ht

@[simp] theorem phaseTen_noPackage (s : State) : (phaseTen s).pa.noPackage = s.pa.noPackage := by
  unfold phaseTen
  split
  · exact markPhase_noPackage 10 true s
  · rfl

@[simp] theorem readiness_noPackage (s : State) : (readiness s).pa.noPackage = s.pa.noPackage := by
  unfold readiness
  dsimp only
  split <;> split <;> simp

@[simp] theorem judgeReady_noPackage (g : Nat) (s : State) : (judgeReady g s).pa.noPackage = s.pa.noPackage := by
  unfold judgeReady
  dsimp only
  split
  · rfl
  · rw [readiness_noPackage, phaseTen_noPackage]
    split
    · exact congrArg PaState.noPackage (raiseArg_pa ..)
    · exact congrArg PaState.noPackage (raiseArg_pa ..)

theorem seOff_noPackage (s : State) : (seOff s).pa.noPackage = s.pa.noPackage := by
  unfold seOff
  rw [foldl_noPackage _ fun s g => judgeReady_noPackage g s, foldl_noPackage _ fun s n => ?_]
  · rfl
  · rw [pa_of_outside (setSvState_outside (by decide) ..)]
    rfl

theorem loseDomain_noPackage (n : Nat) (s : State) : (loseDomain n s).pa.noPackage = s.pa.noPackage := by
  unfold loseDomain
  split
  · rw [pa_of_outside (netOff_outside (by decide) s)]
  split
  · exact foldl_noPackage _ (fun s k => by rw [pa_of_outside (clusterOff_outside (by decide) k s)]) _ s
  split
  · rw [pa_of_outside (peOff_outside (by decide) _), pa_of_outside (frOff_outside (by decide) _), seOff_noPackage]
  split
  · rw [pa_of_outside (arOff_outside (by decide) s)]
  split
  · rw [pa_of_outside (dramOff_outside (by decide) s)]
  · rfl

theorem domainsOff_noPackage (l : List Nat) (s : State) : (domainsOff l s).pa.noPackage = s.pa.noPackage := by
  refine foldl_noPackage _ (fun s n => ?_) l s
  show (if pdState s n = .on then loseDomain n s else s).pa.noPackage = _
  split
  · exact loseDomain_noPackage n s
  · rfl

/-- Only the DRAM's own domain loses what SU holds (R538). -/
theorem loseDomain_su {n : Nat} (hn : n ≠ 8) (s : State) : (loseDomain n s).su = s.su := by
  refine su_of_outside ?_
  unfold loseDomain
  rw [if_neg hn]
  simp [allBut]

theorem domainsOff_su {l : List Nat} (hl : 8 ∉ l) (s : State) : (domainsOff l s).su = s.su := by
  refine List.foldlRecOn (motive := fun (t : State) => t.su = s.su) l _ rfl fun t ht n hn => ?_
  show (if pdState t n = .on then loseDomain n t else t).su = _
  split
  · exact (loseDomain_su (fun h => hl (h ▸ hn)) t).trans ht
  · exact ht

/-! ## Events that occurred before the device serves (R585) -/

/-- An event in a device that serves adds nothing to the early ones. -/
theorem routeEvent_early {s : State} (h : s.glob.ready = true) (n : Nat) (tag : Tag) : (routeEvent n tag s).ev.early = s.ev.early := by
  unfold routeEvent
  dsimp only
  rw [h]
  split
  next hn => nomatch hn
  · split
    · obtain ⟨_, _, _, _, _, _, _, hb⟩ := setInstBit_frame n tag { s with ev := { s.ev with count := vmod s.ev.count n satInc } }
      rw [hb]
    · obtain ⟨_, _, _, _, _, _, _, hb⟩ := setMgrBit_frame n { s with ev := { s.ev with count := vmod s.ev.count n satInc } }
      rw [hb]

theorem raise_early {s : State} (h : s.glob.ready = true) (n : Nat) (tag : Tag) : (raise n tag s).ev.early = s.ev.early := by
  unfold raise raiseArg
  dsimp only
  split
  · exact routeEvent_early h n tag
  · split
    · exact routeEvent_early h n tag
    · obtain ⟨l, hl⟩ := limited_frame (0x10000 + n) 0 (secTu 1) 1 (routeEvent n tag s)
      rw [hl]
      split <;> exact routeEvent_early h n tag

theorem readiness_early {s : State} (h : s.glob.ready = true) : (readiness s).ev.early = s.ev.early := by
  unfold readiness
  dsimp only
  split
  · split
    · rw [raise_early (by rw [onPa_glob, raise_glob]; exact h)]
      exact raise_early (s := onPa _ s) h _ _
    · exact raise_early (s := onPa _ s) h _ _
  · split
    · exact raise_early (s := onPa _ s) h _ _
    · rfl

theorem markPhase_ev (p : Nat) (stamp : Bool) (s : State) : (markPhase p stamp s).ev = s.ev := by
  unfold markPhase
  split <;> rfl

theorem markPhase_im (p : Nat) (stamp : Bool) (s : State) : (markPhase p stamp s).im = s.im := by
  unfold markPhase
  split <;> rfl

/-- The early events are delivered, and none is left. -/
theorem deliverEarly_early (s : State) : (deliverEarly s).ev.early = 0 := by
  refine List.foldlRecOn (motive := fun (t : State) => t.ev.early = 0) (List.range 128) _ rfl fun t ht n _ => ?_
  split
  · obtain ⟨_, _, _, _, _, _, _, hb⟩ := setMgrBit_frame n t
    rw [hb]
    exact ht
  · exact ht

theorem deliverEarly_im_ready (s : State) : (deliverEarly s).im.ready = s.im.ready := by
  refine List.foldlRecOn (motive := fun (t : State) => t.im.ready = s.im.ready) (List.range 128) _ rfl fun t ht n _ => ?_
  split
  · obtain ⟨_, _, _, _, _, _, _, hb⟩ := setMgrBit_frame n t
    rw [hb]
    exact ht
  · exact ht

theorem readiness_im_ready (s : State) : (readiness s).im.ready = s.im.ready := by
  unfold readiness
  dsimp only
  split <;> split <;> simp

end Sys2Proof.Machine
end
section
/-! The phases of start-up, and the clauses on them put together. -/

namespace Sys2Proof.Machine

/-! ## Phase 1: secure boot -/

theorem lifeCode_congr {s t : State} (h : t.kv.lcPairs = s.kv.lcPairs) : lifeCode t = lifeCode s := by
  rw [lifeCode, lifeCode, h]

/-- What a slot fails by depends on the revocations and the minimum SVN of the vault alone. -/
theorem imageFail_congr {s t : State} (hr : t.kv.fwRevoke = s.kv.fwRevoke) (hs : t.kv.fwSvn = s.kv.fwSvn) (x : Option (List Byte)) :
    imageFail t x = imageFail s x := by
  cases x <;> simp only [imageFail, hr, hs]

theorem imageFail_some (s : State) (l : List Byte) : imageFail s (some l) =
    if fwHeaderOk l = false then 1
    else if curveHash true ((l.drop 0x3C).take 96) ≠ curveHash true (bytesBE 96 (Config.fwKey (fwField l 6 1)).toNat) ∨
      s.kv.fwRevoke.getLsbD (fwField l 6 1) = true then 2
    else if fwField l 4 2 < s.kv.fwSvn then 3
    else if Config.ecdsaVerify true ((l.drop 0x3C).take 96) (curveHash true (l.take 256)) ((l.drop (fwField l 8 4 - 96)).take 96) = false then 4
    else if curveHash true ((l.drop 256).take (fwField l 8 4 - 352)) ≠ (l.drop 0xC).take 48 then 5 else 0 := by
  simp only [imageFail, Bool.not_eq_true']

theorem lifeErase_kv (s : State) : ∃ m j l e, (lifeErase s).kv = { s.kv with mram := m, journal := j, lcSeen := l, erased := e } ∧
    l.toNat % 256 = lifeCode s % 256 := by
  unfold lifeErase
  split
  next h => exact ⟨_, _, s.kv.lcSeen, _, rfl, by rw [h]⟩
  next => exact ⟨_, _, _, _, rfl, by simp⟩

/-- The boot ROM has brought up the flash, derived K_root and completed a life-cycle change (R481, R604). -/
def bootRom (s : State) : State := lifeErase (onKv (fun k => { k with root := rootKey (lifeCode s) }) (xspiBoot s))

theorem bootRom_pa (s : State) : (bootRom s).pa = s.pa := pa_of_outside (by simp [bootRom, allBut])

theorem bootRom_kv (s : State) : ∃ m j l e, (bootRom s).kv =
      { s.kv with root := rootKey (lifeCode s), mram := m, journal := j, lcSeen := l, erased := e } ∧ l.toNat % 256 = lifeCode s % 256 := by
  have hx : (xspiBoot s).kv = s.kv := kv_of_outside (xspiBoot_outside (by decide) s)
  obtain ⟨m, j, l, e, h, hl⟩ := lifeErase_kv (onKv (fun k => { k with root := rootKey (lifeCode s) }) (xspiBoot s))
  rw [onKv_kv, hx] at h
  rw [lifeCode_congr (s := s) (by rw [onKv_kv, hx])] at hl
  exact ⟨m, j, l, e, h, hl⟩

theorem startLink_kv (s : State) : (startLink s).kv = s.kv := kv_of_outside (startLink_outside (by decide) s)

theorem startLink_pa (s : State) : (startLink s).pa = s.pa := pa_of_outside (startLink_outside (by decide) s)

theorem markPhase_kv (p : Nat) (stamp : Bool) (s : State) : (markPhase p stamp s).kv = s.kv := kv_of_outside (markPhase_outside (by decide) ..)

/-- The slot that boots: the one that FW_SEL names if it is good, else the other. -/
def bootsB (fwSelB : Bool) (fa fb : Nat) : Bool := if (if fwSelB then fb else fa) = 0 then fwSelB else !fwSelB

/-- The vault with both slots judged by their failures, and the firmware of one booted or the device halted (R503, R506). -/
def judgedVault (a b : Option (List Byte)) (fa fb : Nat) (k : KvState) : KvState :=
  { k with
    failA := if k.fwSelB ∧ fb = 0 then 0 else BitVec.ofNat 4 fa
    failB := if !k.fwSelB ∧ fa = 0 then 0 else BitVec.ofNat 4 fb
    bootSlot := if fa = 0 ∨ fb = 0 then (if bootsB k.fwSelB fa fb then 2 else 1) else 0
    svn := if fa = 0 ∨ fb = 0 then BitVec.ofNat 7 (fwSvnOf (if bootsB k.fwSelB fa fb then b else a)) else 0
    otherSvn := fwSvnOf (if bootsB k.fwSelB fa fb then a else b)
    halted := !decide (fa = 0 ∨ fb = 0) }

/-- Both slots judged; phase 1 ends where one of them boots. -/
def judgeSlots (a b : Option (List Byte)) (s : State) : State :=
  let u := onKv (judgedVault a b (imageFail s a) (imageFail s b)) s
  startLink (if imageFail s a = 0 ∨ imageFail s b = 0 then markPhase 1 true u else u)

theorem secureBootDone_judges {s : State} (h : phaseDue 1 [] s = true) (a b : Option (List Byte)) : exec (.secureBootDone a b) s =
    .next (judgeSlots a b (bootRom s)) :=
  if_neg (by simp [h])

theorem judgeSlots_kv (a b : Option (List Byte)) (s : State) :
    (judgeSlots a b s).kv = judgedVault a b (imageFail s a) (imageFail s b) s.kv := by
  unfold judgeSlots
  rw [startLink_kv]
  split
  · exact markPhase_kv ..
  · rfl

theorem judgeSlots_ended (a b : Option (List Byte)) {s : State} (h : s.pa.ended.getLsbD 1 = false) :
    (judgeSlots a b s).pa.ended.getLsbD 1 = decide (imageFail s a = 0 ∨ imageFail s b = 0) := by
  unfold judgeSlots
  rw [startLink_pa]
  split
  next hok => rw [markPhase_ended (by decide), decide_eq_true hok]
  next hok => rw [decide_eq_false hok]; exact h

/-- Which slot boots, by the failures. -/
theorem bootsB_iff {fwSelB : Bool} {fa fb : Nat} (hok : fa = 0 ∨ fb = 0) :
    bootsB fwSelB fa fb = true ↔ fb = 0 ∧ (fwSelB = true ∨ fa ≠ 0) := by
  cases fwSelB with
  | false =>
    by_cases ha : fa = 0
    · simp [bootsB, ha]
    · simp [bootsB, ha, hok.resolve_left ha]
  | true =>
    by_cases hb : fb = 0 <;> simp [bootsB, hb]

theorem judgedVault_bootSlot (a b : Option (List Byte)) (fa fb : Nat) (k : KvState) : (judgedVault a b fa fb k).bootSlot =
    (if fa ≠ 0 ∧ fb ≠ 0 then 0 else if fb = 0 ∧ (k.fwSelB = true ∨ fa ≠ 0) then 2 else 1) := by
  unfold judgedVault
  by_cases hok : fa = 0 ∨ fb = 0
  · have hno : ¬(fa ≠ 0 ∧ fb ≠ 0) := fun h => hok.elim h.1 h.2
    simp only [if_pos hok, if_neg hno, bootsB_iff hok]
  · have hno : fa ≠ 0 ∧ fb ≠ 0 := not_or.mp hok
    simp only [if_neg hok, if_pos hno]

theorem judgedVault_svn (a b : Option (List Byte)) (fa fb : Nat) (k : KvState) : (judgedVault a b fa fb k).svn =
    (if fa ≠ 0 ∧ fb ≠ 0 then 0 else if fb = 0 ∧ (k.fwSelB = true ∨ fa ≠ 0) then BitVec.ofNat 7 (fwSvnOf b) else BitVec.ofNat 7 (fwSvnOf a)) := by
  unfold judgedVault
  by_cases hok : fa = 0 ∨ fb = 0
  · have hno : ¬(fa ≠ 0 ∧ fb ≠ 0) := fun h => hok.elim h.1 h.2
    simp only [if_pos hok, if_neg hno, bootsB_iff hok]
    split <;> rfl
  · have hno : fa ≠ 0 ∧ fb ≠ 0 := not_or.mp hok
    simp only [if_neg hok, if_pos hno]

theorem secureBootDone_boots {s : State} (a b : Option (List Byte)) (hdue : phaseDue 1 [] s = true) :
    ∃ t, exec (.secureBootDone a b) s = .next t ∧ t.kv.halted = !decide ((imageFail s a) = 0 ∨ (imageFail s b) = 0) ∧
      t.pa.ended.getLsbD 1 = decide ((imageFail s a) = 0 ∨ (imageFail s b) = 0) ∧ t.kv.root = rootKey (lifeCode s) ∧
      t.kv.lcSeen.toNat % 256 = lifeCode s % 256 ∧
      t.kv.failA = (if s.kv.fwSelB = true ∧ (imageFail s b) = 0 then 0 else BitVec.ofNat 4 (imageFail s a)) ∧
      t.kv.failB = (if s.kv.fwSelB = false ∧ (imageFail s a) = 0 then 0 else BitVec.ofNat 4 (imageFail s b)) ∧
      t.kv.bootSlot = (if (imageFail s a) ≠ 0 ∧ (imageFail s b) ≠ 0 then 0
        else if (imageFail s b) = 0 ∧ (s.kv.fwSelB = true ∨ (imageFail s a) ≠ 0) then 2 else 1) ∧
      t.kv.svn = (if (imageFail s a) ≠ 0 ∧ (imageFail s b) ≠ 0 then 0
        else if (imageFail s b) = 0 ∧ (s.kv.fwSelB = true ∨ (imageFail s a) ≠ 0) then BitVec.ofNat 7 (fwSvnOf b)
        else BitVec.ofNat 7 (fwSvnOf a)) := by
  obtain ⟨m, j, l, e, hkv, hl⟩ := bootRom_kv s
  have hfail := imageFail_congr (s := s) (t := bootRom s) (by rw [hkv]) (by rw [hkv])
  refine ⟨_, secureBootDone_judges hdue a b, ?_⟩
  rw [judgeSlots_ended a b (by rw [bootRom_pa]; exact not_ended_of_phaseDue hdue), judgeSlots_kv,
    hfail a, hfail b, hkv]
  refine ⟨rfl, rfl, rfl, hl, rfl, ?_, judgedVault_bootSlot .., judgedVault_svn ..⟩
  simp [judgedVault]

end Sys2Proof.Machine
end
section
/-! The phases after secure boot. -/

namespace Sys2Proof.Machine

/-! ## Power-good and phases 2 and 3 -/

theorem powerGood_begins {s : State} {r : BitVec 48} (h : (setRtc r s).pa.pwrOk = false) :
    exec (.powerGood r) s = .next (beginStartup true (onPa (fun p => { p with pwrOk := true })
      (if (setRtc r s).pa.pwrReq then setRtc r s else recordWake false 1 (setRtc r s)))) :=
  if_neg (by simp [h])

theorem powerGood_idle {s : State} {r : BitVec 48} (h : (setRtc r s).pa.pwrOk = true) : exec (.powerGood r) s = .next (setRtc r s) := if_pos h

/-- The power state that the Duiker restore leaves, before LT is made anew (R547, R548, R559). -/
def restoredPa (r : BitVec 48) (s : State) : State :=
  onPa (fun p => { p with
    retainLost := retentionLost (setRtc r s).pa.ret, warm := (setRtc r s).pa.slept && retGood (setRtc r s).pa.ret 3
    opsecs := if p.duikerBor then p.opsecsMram else p.opsecs, opsecsUncertain := p.opsecsUncertain || p.duikerBor, duikerBor := false
    pwrCycles := if p.coldStart then p.pwrCycles + 1 else p.pwrCycles, pwrReq := false, slept := false }) (setRtc r s)

/-- Idle times count from the restore, and phase 2 ends. -/
def endRestore (u : State) : State := markPhase 2 true (onPa (fun p => { p with pd := p.pd.map (fun d => { d with lastUse := u.abs }) }) u)

section
variable {s : State} {r : BitVec 48} (hdue : phaseDue 2 [1] s = true)
include hdue

theorem duikerRestoreDone_rebuilds
    (h : ((setRtc r s).pa.slept && retGood (setRtc r s).pa.ret 3 && retGood (setRtc r s).pa.ret 1 && retGood (setRtc r s).pa.ret 2) = true) :
    exec (.duikerRestoreDone r) s = .next (endRestore (rebuildTime (restoredPa r s))) :=
  (if_neg (by simp [hdue])).trans (congrArg (fun u => Host.Outcome.next (endRestore u)) (if_pos h))

theorem duikerRestoreDone_restarts
    (h : ((setRtc r s).pa.slept && retGood (setRtc r s).pa.ret 3 && retGood (setRtc r s).pa.ret 1 && retGood (setRtc r s).pa.ret 2) = false) :
    exec (.duikerRestoreDone r) s = .next (endRestore (coldTime (restoredPa r s))) :=
  (if_neg (by simp [hdue])).trans (congrArg (fun u => Host.Outcome.next (endRestore u)) (if_neg (by rw [h]; nofun)))

theorem duikerRestoreDone_afterOff (hslept : s.pa.slept = false) : ∃ t, exec (.duikerRestoreDone r) s = .next t ∧
    t.pa.warm = false ∧ t.pa.slept = false ∧ t.pa.ended.getLsbD 2 = true ∧ t.pa.duikerBor = false := by
  have hs : (setRtc r s).pa.slept = false := (setRtc_pa_slept r s).trans hslept
  refine ⟨_, duikerRestoreDone_restarts hdue (by rw [hs]; rfl), ?_⟩
  have hended : (endRestore (coldTime (restoredPa r s))).pa.ended.getLsbD 2 = true := markPhase_ended (by decide) ..
  obtain ⟨_, _, _, _, hpa⟩ := markPhase_pa 2 true (onPa (fun p => { p with
    pd := p.pd.map (fun d => { d with lastUse := (coldTime (restoredPa r s)).abs }) }) (coldTime (restoredPa r s)))
  refine ⟨?_, ?_, hended, ?_⟩ <;> rw [endRestore, hpa]
  · show ((setRtc r s).pa.slept && _) = false
    rw [hs, Bool.false_and]
  · rfl
  · rfl

end

theorem duikerRestoreDone_idle {s : State} {r : BitVec 48} (h : phaseDue 2 [1] s = false) : exec (.duikerRestoreDone r) s = .next s :=
  if_pos (by simp [h])

theorem dramTrainingDone_ends {s : State} (h : phaseDue 3 [2] s = true) :
    exec (.dramTrainingDone true) s = .next (markPhase 3 true s) ∧
    exec (.dramTrainingDone false) s =
      .next (markPhase 3 false (domainsOff [2, 3, 4, 5, 6, 7, 8] (onPa (fun p => { p with noPackage := true }) s))) :=
  ⟨if_neg (by simp [h]), if_neg (by simp [h])⟩

theorem dramTrainingDone_idle {s : State} {b : Bool} (h : phaseDue 3 [2] s = false) : exec (.dramTrainingDone b) s = .next s :=
  if_pos (by simp [h])

/-! ## Phase 4 -/

/-- What a standing journal revoked is complete: none stands afterwards (R495). -/
theorem finishJournal_journal (s : State) : (finishJournal s).kv.journal = none := by
  unfold finishJournal
  split
  · assumption
  · rfl

/-- The registers, KV, QM and IM ready. -/
def fourServe (s : State) : State :=
  onKv (fun k => { k with ready := true }) (onQm (fun q => { q with ready := true }) (onIm (fun m => { m with ready := true }) s))

/-- A latched brown-out told (R545). -/
def brownoutTold (s : State) : State :=
  if s.pa.borCause = 0 then s else raise 0x79 0 (onPa (fun p => { p with brownout := true }) s)

/-- The want of a package recorded (R555). -/
def wantRecorded (s : State) : State := if s.pa.noPackage then bootedRecord 0 s else s

/-- The start-up record, with what stands before the device serves told and recorded. -/
def recorded (s : State) : State := wantRecorded (brownoutTold (startupRecord s))

theorem suReady_serves {s : State} {l : List (Fin 1024 × Fin 13)} (h : phaseDue 4 [3] s = true) :
    exec (.suReady l) s = .next (readiness (markPhase 4 true (deliverEarly (onGlob (fun g => { g with ready := true })
      (recorded (fourServe (finishJournal (restoreSlots l s)))))))) :=
  if_neg (by simp [h])

theorem bootedRecord_im (id : BitVec 64) (s : State) : (bootedRecord id s).im = s.im := by
  unfold bootedRecord
  dsimp only
  split
  · split <;> rfl
  · rfl

theorem brownoutTold_outside {parts : List Part} (hp : [.im, .pa, .log, .ev, .out] ⊆ parts) (s : State) :
    outside parts (brownoutTold s) = outside parts s := by
  simp at hp
  simp [brownoutTold, hp]

theorem wantRecorded_outside {parts : List Part} (hp : [.su, .log, .glob] ⊆ parts) (s : State) :
    outside parts (wantRecorded s) = outside parts s := by
  simp at hp
  simp [wantRecorded, hp]

theorem recorded_outside {parts : List Part} (hp : [.su, .im, .pa, .log, .ev, .glob, .out] ⊆ parts) (s : State) :
    outside parts (recorded s) = outside parts s := by
  simp at hp
  simp [recorded, wantRecorded_outside, brownoutTold_outside, hp]

theorem recorded_im_ready (s : State) : (recorded s).im.ready = s.im.ready := by
  unfold recorded wantRecorded
  have htold : (brownoutTold (startupRecord s)).im.ready = s.im.ready := by
    unfold brownoutTold
    split
    · rfl
    · exact raise_im_ready ..
  split
  · rw [bootedRecord_im, htold]
  · exact htold

theorem suReady_ready {s : State} (l : List (Fin 1024 × Fin 13)) (hdue : phaseDue 4 [3] s = true) :
    ∃ t, exec (.suReady l) s = .next t ∧ t.glob.ready = true ∧ t.kv.ready = true ∧ t.qm.ready = true ∧ t.im.ready = true ∧
      t.ev.early = 0 ∧ t.kv.journal = none := by
  refine ⟨_, suReady_serves hdue, ?_⟩
  have hjournal := finishJournal_journal (restoreSlots l s)
  generalize finishJournal (restoreSlots l s) = u at hjournal
  have hglob (v : State) : (readiness (markPhase 4 true (deliverEarly v))).glob = v.glob := glob_of_outside (by simp [allBut])
  have hmarked (v : State) : (markPhase 4 true (deliverEarly v)).glob = v.glob := glob_of_outside (by simp [allBut])
  have hkv : (readiness (markPhase 4 true (deliverEarly (onGlob (fun g => { g with ready := true }) (recorded (fourServe u)))))).kv =
      (fourServe u).kv := kv_of_outside (by simp [allBut, recorded_outside])
  have hqm : (readiness (markPhase 4 true (deliverEarly (onGlob (fun g => { g with ready := true }) (recorded (fourServe u)))))).qm =
      (fourServe u).qm := qm_of_outside (by simp [allBut, recorded_outside])
  refine ⟨by rw [hglob]; rfl, by rw [hkv]; rfl, by rw [hqm]; rfl, ?_, ?_, by rw [hkv]; exact hjournal⟩
  · rw [readiness_im_ready, markPhase_im, deliverEarly_im_ready]
    exact recorded_im_ready _
  · rw [readiness_early (by rw [hmarked]; rfl), markPhase_ev, deliverEarly_early]

theorem suReady_idle {s : State} {l : List (Fin 1024 × Fin 13)} (h : phaseDue 4 [3] s = false) : exec (.suReady l) s = .next s :=
  if_pos (by simp [h])

end Sys2Proof.Machine
end
section
/-! Phases 5 to 11, and all clauses on start-up put together. -/

namespace Sys2Proof.Machine

/-! ## Phase 5 -/

/-- The booted-package record takes a standing intent, and leaves the package held and booted (R96). -/
theorem bootedRecord_pkg (id : BitVec 64) (s : State) :
    (bootedRecord id s).su.pkg.held = s.su.pkg.held ∧ (bootedRecord id s).su.pkg.booted = s.su.pkg.booted ∧
    (bootedRecord id s).glob.pkgId = s.glob.pkgId ∧ (bootedRecord id s).glob.bootPkg = s.glob.bootPkg ∧ (bootedRecord id s).pa = s.pa := by
  unfold bootedRecord
  dsimp only
  split
  · split <;> exact ⟨rfl, rfl, rfl, rfl, rfl⟩
  · exact ⟨rfl, rfl, rfl, rfl, rfl⟩

/-- The first package that nothing refuses (R555). -/
def bootPick (h : Bool) (s : State) : Option (Package × BitVec 2) := (bootCandidates h s).find? (fun x => (packageRefusal s x.1).isNone)

section
variable {s : State} {h : Bool} (hdue : phaseDue 5 [4] s = true) (hpkg : s.pa.noPackage = false)
include hdue hpkg

theorem packageLoaded_holds {p : Package} {k : BitVec 2} (hfind : bootPick h s = some (p, k)) :
    ∃ t, exec (.packageLoaded h) s = .next t ∧ t.glob.pkgId = pkgId p ∧ t.glob.bootPkg = k ∧ t.su.pkg.held = some p ∧ t.su.pkg.booted = some p := by
  show ∃ t, execPackageLoaded h s = _ ∧ _
  unfold bootPick at hfind
  unfold execPackageLoaded
  rw [if_neg (by simp [hdue, hpkg]), hfind]
  refine ⟨_, rfl, ?_⟩
  have hkept (v : State) : (readiness (markPhase 5 true v)).su = v.su ∧ (readiness (markPhase 5 true v)).glob = v.glob :=
    ⟨su_of_outside (by simp [allBut]), glob_of_outside (by simp [allBut])⟩
  rw [(hkept _).1, (hkept _).2]
  obtain ⟨hheld, hbooted, hid, hcode, _⟩ := bootedRecord_pkg (pkgId p) (onGlob (fun g => { g with pkgId := pkgId p, bootPkg := k })
    (onSu (fun u => { u with pkg := { u.pkg with
      held := some p, booted := some p
      genMin := if (s.su.pkg.intent == some (pkgId p)) && decide (u.pkg.genMin.toNat < (pkgGeneration p).toNat) then pkgGeneration p
        else u.pkg.genMin } }) s))
  exact ⟨hid, hcode, hheld, hbooted⟩

theorem packageLoaded_lacks (hfind : bootPick h s = none) :
    ∃ t, exec (.packageLoaded h) s = .next t ∧ t.pa.noPackage = true ∧ t.su.pkg.held = none := by
  show ∃ t, execPackageLoaded h s = _ ∧ _
  unfold bootPick at hfind
  unfold execPackageLoaded
  rw [if_neg (by simp [hdue, hpkg]), hfind]
  refine ⟨_, rfl, ?_⟩
  obtain ⟨hheld, _, _, _, hpa⟩ := bootedRecord_pkg 0 (domainsOff [2, 3, 4, 5, 6, 7] (onPa (fun p => { p with noPackage := true })
    (onSu (fun u => { u with pkg := { u.pkg with held := none } }) s)))
  constructor
  · rw [hpa, domainsOff_noPackage]
    rfl
  · rw [hheld, domainsOff_su (by decide)]
    rfl

theorem packageLoaded_outcome : ∃ t, exec (.packageLoaded h) s = .next t ∧
    (∀ p k, bootPick h s = some (p, k) → t.glob.pkgId = pkgId p ∧ t.glob.bootPkg = k ∧ t.su.pkg.held = some p ∧ t.su.pkg.booted = some p) ∧
    (bootPick h s = none → t.pa.noPackage = true ∧ t.su.pkg.held = none) := by
  cases hfind : bootPick h s with
  | none =>
    obtain ⟨t, ht, hnone⟩ := packageLoaded_lacks hdue hpkg hfind
    exact ⟨t, ht, nofun, fun _ => hnone⟩
  | some x =>
    obtain ⟨t, ht, hsome⟩ := packageLoaded_holds hdue hpkg (p := x.1) (k := x.2) hfind
    refine ⟨t, ht, ?_, nofun⟩
    rintro p k ⟨⟩
    exact hsome

end

theorem packageLoaded_idle {s : State} {h : Bool} (hs : phaseDue 5 [4] s = false ∨ s.pa.noPackage = true) :
    exec (.packageLoaded h) s = .next s :=
  if_pos (by simpa using hs)

/-! ## Phases 6 to 11 -/

theorem pointStoreBuilt_builds {s : State} (h : phaseDue 6 [4, 5] s = true) :
    exec .pointStoreBuilt s = .next (readiness (markPhase 6 true (onPs (fun x => { x with ready := true })
      (markOrphans (bootView s) (psSettings (bootView s) (onPs (fun x => { x with
          recs := (viewPoints (bootView s)).map (fun e => (e.1, initialPoint e.2 (viewOwner (bootView s) .point e.1) s.now)) })
        (dropForces ((s.ps.force.filter (fun e => match (viewPoints (bootView s)).get? e.1 with
          | some d => d.type != e.2.type
          | none => true)).map (·.1)) s))))))) :=
  if_neg (by simp [h])

theorem pointStoreBuilt_ready {s : State} (h : phaseDue 6 [4, 5] s = true) : ∃ t, exec .pointStoreBuilt s = .next t ∧ t.ps.ready = true := by
  refine ⟨_, pointStoreBuilt_builds h, ?_⟩
  have hkept (v : State) : (readiness (markPhase 6 true v)).ps = v.ps := ps_of_outside (by simp [allBut])
  rw [hkept]
  rfl

theorem pointStoreBuilt_idle {s : State} (h : phaseDue 6 [4, 5] s = false) : exec .pointStoreBuilt s = .next s := if_pos (by simp [h])

theorem portsUp_brings {s : State} (h : phaseDue 7 [5] s = true) : exec .portsUp s = .next (bringUp s.now (bootView s) s) :=
  if_neg (by simp [h])

theorem portsUp_idle {s : State} (h : phaseDue 7 [5] s = false) : exec .portsUp s = .next s := if_pos (by simp [h])

theorem lockTimeout_opens {s : State} {t : LT} (hs : s.se.lockTimeoutAt = some t) (hr : ltReached s.now t = true) :
    exec .lockTimeout s = .next (readiness (markPhase 10 true (openGates (fun k => k.cfg.gate.isSome)
      (onSe (fun x => { x with lockTimeoutAt := none }) s)))) := by
  show execLockTimeout s = _
  unfold execLockTimeout
  rw [hs]
  exact if_neg (by simp [hr])

theorem lockTimeout_idle {s : State} (h : s.se.lockTimeoutAt.all (fun t => !ltReached s.now t) = true) : exec .lockTimeout s = .next s := by
  show execLockTimeout s = _
  unfold execLockTimeout
  split
  · rfl
  next t ht =>
    rw [ht] at h
    exact if_pos h

theorem instancesStart_starts {s : State} (h : phaseDue 11 [6, 8, 9, 10] s = true) (hr : s.fb.running = true)
    (hd : 0 ≤ ltDiff s.fb.frameLt s.pa.lastEnd) :
    exec .instancesStart s = .next (readiness (markPhase 11 true
      ((ownersOf s).foldl (fun u o => if (u.fb.ownCfg.getD o {}).initRun then runCold o none s.fb.frameLt u else u) s))) :=
  if_neg (by simp [h, hr, hd])

theorem instancesStart_idle {s : State} (h : phaseDue 11 [6, 8, 9, 10] s = false ∨ s.fb.running = false ∨ ltDiff s.fb.frameLt s.pa.lastEnd < 0) :
    exec .instancesStart s = .next s :=
  if_pos (by simpa using h)

/-- Settles O58: each phase by its lemmas, what ends it and what it does. -/
theorem startUpPhases : Obligations.StartUpPhases := by
  refine ⟨fun _ _ h => powerGood_begins h, fun _ _ h => powerGood_idle h, fun _ a b h => secureBootDone_boots a b h,
    fun s l => ⟨rfl, imageFail_some s l⟩, fun _ _ _ h => if_pos (by simp [h]), ?_⟩
  refine ⟨fun _ _ h hs => duikerRestoreDone_afterOff h hs, fun _ _ h hg => duikerRestoreDone_rebuilds h hg,
    fun _ _ h hg => duikerRestoreDone_restarts h hg, fun _ _ h => duikerRestoreDone_idle h,
    fun _ h => dramTrainingDone_ends h, fun _ _ h => dramTrainingDone_idle h,
    fun _ l h => suReady_ready l h, fun _ _ h => suReady_idle h, ?_⟩
  exact ⟨fun _ _ h hp => packageLoaded_outcome h hp, fun _ _ h hp hf => packageLoaded_lacks h hp hf, fun _ _ h => packageLoaded_idle h,
    fun _ h => pointStoreBuilt_ready h, fun _ h => pointStoreBuilt_builds h, fun _ h => pointStoreBuilt_idle h,
    fun _ h => portsUp_brings h, fun _ h => portsUp_idle h, fun _ _ hs hr => lockTimeout_opens hs hr, fun _ h => lockTimeout_idle h,
    fun _ h hr hd => instancesStart_starts h hr hd, fun _ h => instancesStart_idle h⟩

end Sys2Proof.Machine
end
section
/-! Every step answers, and takes one command: the queue stands outside what any command reaches, and a tick leaves it. -/

namespace Sys2Proof.Machine

/-! ## The instructions of the Tahr engines -/

section
variable {parts : List Part}

@[simp] theorem tahrCorrected_outside (hp : [.fb, .im, .grd, .log, .ev, .out] ⊆ parts) (e r s) :
    outside parts (tahrCorrected e r s) = outside parts s := by
  simp at hp
  simp [tahrCorrected, hp]

@[simp] theorem tahrEnd_outside (hp : [.su, .fb, .ps, .im, .log, .ev, .glob, .out] ⊆ parts) (e s) :
    outside parts (tahrEnd e s) = outside parts s := by
  simp at hp
  unfold tahrEnd
  dsimp only
  split
  · rfl
  · simp [hp]

/-- An instruction reaches its engine, and by a fault what the end of its cycle reaches, whatever its meaning. -/
theorem tahr_outside (hp : byTask ⊆ parts) (op zero x sem s) : outsideRes parts (tahr op zero x sem s) = .next (outside parts s) := by
  simp [byTask] at hp
  unfold tahr
  extract_lets e eng
  split
  · rfl
  next cyc _ =>
    extract_lets fault
    have hfault (code addr : Nat) (w : BitVec 64) : outsideRes parts (fault code addr w s) = .next (outside parts s) := by
      rw [outsideRes_next, taskFault_outside (by simp [hp])]
      split
      · split <;> simp [hp]
      · simp [hp]
      · rfl
    clear_value fault
    split
    · rfl
    split
    · rfl
    split
    · exact hfault ..
    split
    · exact hfault ..
    split
    · exact hfault ..
    split
    · exact hfault ..
    split
    · rfl
    split
    · exact hfault ..
    split
    · exact hfault ..
    · split
      · rfl
      · split <;> simp [hp]

theorem tahrSet_outside (hp : byTask ⊆ parts) (op zero n x f s) : outsideRes parts (tahrSet op zero n x f s) = .next (outside parts s) :=
  tahr_outside hp ..

theorem tahrBin_outside (hp : byTask ⊆ parts) (op zero n x f s) : outsideRes parts (tahrBin op zero n x f s) = .next (outside parts s) :=
  tahrSet_outside hp ..

theorem tahrImm_outside (hp : byTask ⊆ parts) (op zero x f s) : outsideRes parts (tahrImm op zero x f s) = .next (outside parts s) :=
  tahrSet_outside hp ..

theorem tahrLoad_outside (hp : byTask ⊆ parts) (op n x f s) : outsideRes parts (tahrLoad op n x f s) = .next (outside parts s) :=
  tahr_outside hp ..

theorem tahrStore_outside (hp : byTask ⊆ parts) (op n x s) : outsideRes parts (tahrStore op n x s) = .next (outside parts s) :=
  tahr_outside hp ..

theorem tahrCond_outside (hp : byTask ⊆ parts) (op x p s) : outsideRes parts (tahrCond op x p s) = .next (outside parts s) :=
  tahr_outside hp ..

theorem tahrLdp_outside (hp : byTask ⊆ parts) (op x f s) : outsideRes parts (tahrLdp op x f s) = .next (outside parts s) :=
  tahr_outside hp ..

theorem tahrStp_outside (hp : byTask ⊆ parts) (op zero x lt s) : outsideRes parts (tahrStp op zero x lt s) = .next (outside parts s) :=
  tahr_outside hp ..

theorem tahrBlock_outside (hp : byTask ⊆ parts) (op zero n cycles x f s) : outsideRes parts (tahrBlock op zero n cycles x f s) = .next (outside parts s) :=
  tahr_outside hp ..

theorem tahrTimer_outside (hp : byTask ⊆ parts) (op x f s) : outsideRes parts (tahrTimer op x f s) = .next (outside parts s) :=
  tahrBlock_outside hp ..

theorem tahrCounter_outside (hp : byTask ⊆ parts) (op x f d s) : outsideRes parts (tahrCounter op x f d s) = .next (outside parts s) :=
  tahrBlock_outside hp ..

theorem execTahrBr_outside (hp : byTask ⊆ parts) (x s) : outsideRes parts (execTahrBr x s) = .next (outside parts s) :=
  tahr_outside hp ..

theorem execTahrLoop_outside (hp : byTask ⊆ parts) (x s) : outsideRes parts (execTahrLoop x s) = .next (outside parts s) :=
  tahr_outside hp ..

theorem execTahrFbcall_outside (hp : byTask ⊆ parts) (x s) : outsideRes parts (execTahrFbcall x s) = .next (outside parts s) :=
  tahr_outside hp ..

theorem execTahrRet_outside (hp : byTask ⊆ parts) (x s) : outsideRes parts (execTahrRet x s) = .next (outside parts s) :=
  tahr_outside hp ..

theorem execTahrNop_outside (hp : byTask ⊆ parts) (x s) : outsideRes parts (execTahrNop x s) = .next (outside parts s) :=
  tahr_outside hp ..

theorem execTahrRdsr_outside (hp : byTask ⊆ parts) (x s) : outsideRes parts (execTahrRdsr x s) = .next (outside parts s) :=
  tahr_outside hp ..

theorem execTahrQsend_outside (hp : byTask ⊆ parts) (x s) : outsideRes parts (execTahrQsend x s) = .next (outside parts s) :=
  tahr_outside hp ..

theorem execTahrRaise_outside (hp : byTask ⊆ parts) (x s) : outsideRes parts (execTahrRaise x s) = .next (outside parts s) :=
  tahr_outside hp ..

theorem execTahrEnd_outside (hp : .ps :: byTask ⊆ parts) (x s) : outsideRes parts (execTahrEnd x s) = .next (outside parts s) := by
  have h := tahr_outside (List.cons_subset.mp hp).2 0x89 (zD ||| zA ||| zB ||| zC ||| zI) x
    (fun _ _ eng _ cyc _ => .done 1 eng { cyc with ended := true }) s
  simp [byTask] at hp
  unfold execTahrEnd
  split
  next t ht =>
    rw [ht, outsideRes_next] at h
    split
    · split
      · rw [outsideRes_next, tahrEnd_outside (by simp [hp]), h]
      · exact h
    · exact h
  next => exact h

theorem execIllegal_outside (hp : byTask ⊆ parts) (x s) : outsideRes parts (execIllegal x s) = .next (outside parts s) := by
  unfold execIllegal
  dsimp only
  split
  · rfl
  · split
    · exact tahr_outside hp ..
    · rfl

theorem execAccessAtFetch_outside (hp : byTask ⊆ parts) (x s) : outsideRes parts (execAccessAtFetch x s) = .next (outside parts s) := by
  unfold execAccessAtFetch
  extract_lets eng
  split
  · rfl
  · split
    · exact tahr_outside hp ..
    · rfl

end

/-- What stands outside the reach of an instruction of a Tahr engine stays. -/
theorem exec_outside_of_tahr {i : Instr} (hi : (reach i).1 = .tahr) (s : State) :
    outsideRes (reach i).2 (exec i s) = .next (outside (reach i).2 s) := by
  unfold exec
  cases i with
  | tahrAdd | tahrSub | tahrMul | tahrDiv | tahrRem | tahrAnd | tahrOr | tahrXor | tahrShl | tahrShr | tahrSar | tahrMin
  | tahrMax | tahrCmpeq | tahrCmplt | tahrCmpltu | tahrCmple | tahrAbs | tahrFadd | tahrFsub | tahrFmul | tahrFdiv | tahrFsqrt
  | tahrFneg | tahrFabs | tahrFmin | tahrFmax | tahrFcmpeq | tahrFcmplt | tahrFcmple | tahrCvtif | tahrCvtfi | tahrCvtsd
  | tahrCvtds | tahrFsin | tahrFcos | tahrFatan2 | tahrCadd | tahrCsub | tahrCmul | tahrCdiv | tahrCconj | tahrCmag | tahrCarg
  | tahrCmk | tahrCre | tahrCim | tahrCscl | tahrCpol | tahrCrot => exact tahrBin_outside (List.Subset.refl _) ..
  | tahrAddi | tahrAndi | tahrOri | tahrXori | tahrShli | tahrShri | tahrSari | tahrLdi | tahrLdih
    => exact tahrImm_outside (List.Subset.refl _) ..
  | tahrSel | tahrFmadd | tahrFldi => exact tahrSet_outside (List.Subset.refl _) ..
  | tahrLd | tahrLdw | tahrLdwu | tahrLdb => exact tahrLoad_outside (List.Subset.refl _) ..
  | tahrSt | tahrStw | tahrStb => exact tahrStore_outside (List.Subset.refl _) ..
  | tahrBr => exact execTahrBr_outside (List.Subset.refl _) ..
  | tahrLoop => exact execTahrLoop_outside (List.Subset.refl _) ..
  | tahrFbcall => exact execTahrFbcall_outside (List.Subset.refl _) ..
  | tahrRet => exact execTahrRet_outside (List.Subset.refl _) ..
  | tahrNop => exact execTahrNop_outside (List.Subset.refl _) ..
  | tahrRdsr => exact execTahrRdsr_outside (List.Subset.refl _) ..
  | tahrQsend => exact execTahrQsend_outside (List.Subset.refl _) ..
  | tahrRaise => exact execTahrRaise_outside (List.Subset.refl _) ..
  | tahrBeq | tahrBne | tahrBlt | tahrBge | tahrBltu => exact tahrCond_outside (List.Subset.refl _) ..
  | tahrLdp | tahrLdpq | tahrLdpt => exact tahrLdp_outside (List.Subset.refl _) ..
  | tahrStp | tahrStpt => exact tahrStp_outside (List.Subset.refl _) ..
  | tahrTon | tahrTof | tahrTp => exact tahrTimer_outside (List.Subset.refl _) ..
  | tahrRtrig | tahrFtrig => exact tahrBlock_outside (List.Subset.refl _) ..
  | tahrCtu | tahrCtd | tahrCtud => exact tahrCounter_outside (List.Subset.refl _) ..
  | tahrEnd => exact execTahrEnd_outside (by simp [reach, byTask]) ..
  | illegal => exact execIllegal_outside (List.Subset.refl _) ..
  | accessAtFetch => exact execAccessAtFetch_outside (List.Subset.refl _) ..
  | _ => nomatch hi

/-! ## Every command, and the tick -/

theorem sameBut_pending {l : List Part} {s t : State} (h : sameBut l s t) : t.pending = s.pending := by
  have hq : (outside l t).pending = (outside l s).pending := by rw [(sameBut_iff l s t).mp h]
  exact hq

/-- No command adds to the queue or takes from it. -/
theorem exec_pending {i : Instr} {s t : State} (ht : exec i s = .next t) : t.pending = s.pending := by
  cases hi : (reach i).1 with
  | tahr => exact sameBut_pending (sameBut_of_outsideRes (exec_outside_of_tahr hi s) ht)
  | network => exact sameBut_pending (frameOfNetwork i s t hi ht)
  | signal => exact sameBut_pending (frameOfSignal i s t hi ht)
  | control => exact sameBut_pending (frameOfControl i s t hi ht)
  | platform => exact sameBut_pending (frameOfPlatform i s t hi ht)

theorem timeTick_pending (s : State) : (timeTick s).pending = s.pending := by
  unfold timeTick
  split
  · obtain ⟨j, n, o, h⟩ := tapTick_eq (holdTimeSv s)
    rw [h]
    rfl
  · rfl

/-- Settles O4: a command answers a next state and leaves the queue's rest, and a tick leaves an empty queue. -/
theorem everyStepAnswers : Obligations.EveryStepAnswers := by
  intro s
  cases h : s.pending with
  | nil => exact ⟨timeTick s, step_nil h, (timeTick_pending s).trans h⟩
  | cons c rest =>
    obtain ⟨t, ht⟩ := everyCommandGoesOn c { s with pending := rest }
    exact ⟨t, by rw [step, h]; exact ht, exec_pending ht⟩

end Sys2Proof.Machine
end
section
/-! The multi-part commands, and what one part of each does. -/

namespace Sys2Proof.Machine

/-! ## A recorder's part -/

theorem recPart_ok {c : Cmd} {n : Nat} {s : State} (hn : n < 8) (hs : outsideShare c .rec_ n s = false) : recPart c n s = .ok :=
  (if_neg (Nat.not_le.mpr hn)).trans (if_neg (ne_true_of_eq_false hs))

theorem recPart_badParam {c : Cmd} {n : Nat} {s : State} (hn : 8 ≤ n) : recPart c n s = .badParam := if_pos hn

theorem recPart_denied {c : Cmd} {n : Nat} {s : State} (hn : n < 8) (hs : outsideShare c .rec_ n s = true) : recPart c n s = .denied :=
  (if_neg (Nat.not_le.mpr hn)).trans (if_pos hs)

/-- A part that is the recorder's share goes on; one that is not answers why, and leaves the state. -/
theorem recorderPart_ok {c : Cmd} {n : Nat} {s : State} (hn : n < 8) (hs : outsideShare c .rec_ n s = false)
    (r : State × Status × List Byte) : (if recPart c n s ≠ .ok then (s, recPart c n s, []) else r) = r :=
  if_neg (fun h => h (recPart_ok hn hs))

theorem recorderPart_badParam {c : Cmd} {n : Nat} {s : State} (hn : 8 ≤ n) (r : State × Status × List Byte) :
    (if recPart c n s ≠ .ok then (s, recPart c n s, []) else r) = (s, .badParam, []) := by
  rw [recPart_badParam hn, if_pos (by decide)]

theorem recorderPart_denied {c : Cmd} {n : Nat} {s : State} (hn : n < 8) (hs : outsideShare c .rec_ n s = true)
    (r : State × Status × List Byte) : (if recPart c n s ≠ .ok then (s, recPart c n s, []) else r) = (s, .denied, []) := by
  rw [recPart_denied hn hs, if_pos (by decide)]

/-! ## A part that is numbered, and lies in an owner's share -/

section
variable {α : Type} {n m : Nat} {d : Bool} {a b r : α}

theorem numberedPart_done (hn : n < m) (hd : d = false) : (if m ≤ n then a else if d then b else r) = r :=
  (if_neg (Nat.not_le.mpr hn)).trans (if_neg (ne_true_of_eq_false hd))

theorem numberedPart_denied (hn : n < m) (hd : d = true) : (if m ≤ n then a else if d then b else r) = b :=
  (if_neg (Nat.not_le.mpr hn)).trans (if_pos hd)

end

/-- Settles O36: each command is one multi-part command, and each part is taken through the branches of its definition. -/
theorem partCommandsWork : Obligations.PartCommandsWork := by
  -- the commands run their parts
  refine ⟨fun _ _ _ h => multi_runs h .., fun _ _ _ h => multi_runs h .., fun _ _ _ h => multi_runs h .., fun _ _ _ h => multi_runs h ..,
    fun _ _ _ _ h => multi_runs h .., fun _ _ _ _ h => multi_runs h .., fun _ _ _ _ h => multi_runs h .., fun _ _ _ _ h => multi_runs h ..,
    fun _ _ _ _ h => multi_runs h .., fun _ _ _ h => multi_runs h .., fun _ _ _ h => multi_runs h .., fun _ _ _ _ h => multi_runs h ..,
    fun _ _ _ _ h => multi_runs h .., fun _ _ _ h => multi_runs h .., fun _ _ _ h => multi_runs h .., fun _ _ _ h => multi_runs h ..,
    fun _ _ _ h => multi_runs h .., fun _ _ _ _ h => multi_runs h .., fun _ _ _ _ h => multi_runs h .., ?_⟩
  -- the parts of FO, SW, FB and FR
  refine ⟨fun _ _ h => if_neg (by simpa using Option.isSome_iff_ne_none.mp h), fun _ _ h => if_pos (by rw [h]; rfl),
    fun _ _ _ hn hd => numberedPart_done hn hd, fun _ _ _ hn => if_pos hn, fun _ _ _ hn hd => numberedPart_denied hn hd,
    fun _ _ hn hl => if_neg (by simp [hl, hn]), fun _ _ h => if_pos h,
    fun _ _ hn => if_neg (Nat.not_le.mpr hn), fun _ _ hn => if_pos hn,
    fun _ _ _ _ hn hd hs => (numberedPart_done hn hd).trans (if_neg hs), fun _ _ _ _ hn => if_pos hn,
    fun _ _ _ _ hn hd => numberedPart_denied hn hd, fun _ _ _ _ hn hd hs => (numberedPart_done hn hd).trans (if_pos hs), ?_⟩
  -- the parts of PE
  refine ⟨fun _ _ _ _ hn hd => numberedPart_done hn hd, fun _ _ _ _ hn => if_pos hn, fun _ _ _ _ hn hd => numberedPart_denied hn hd,
    fun _ _ _ _ _ hn hd hu => (numberedPart_done hn hd).trans (if_neg (by simp [hu])), fun _ _ _ _ _ hn => if_pos hn,
    fun _ _ _ _ _ hn hd => numberedPart_denied hn hd, fun _ _ _ _ _ hn hd hu => (numberedPart_done hn hd).trans (if_pos (by simp [hu])),
    fun _ _ _ _ hn hd => numberedPart_done hn hd, fun _ _ _ _ hn => if_pos hn, fun _ _ _ _ hn hd => numberedPart_denied hn hd, ?_⟩
  -- the parts of PX and QM
  refine ⟨fun _ _ hn hp => if_neg (by simp [hn, hp]), fun _ _ h => if_pos h,
    fun _ _ _ hn hd => numberedPart_done hn hd, fun _ _ _ hn => if_pos hn, fun _ _ _ hn hd => numberedPart_denied hn hd,
    fun _ _ _ _ hn hd => numberedPart_done (Nat.lt_succ_of_le hn) hd, fun _ _ _ _ hn => if_pos hn,
    fun _ _ _ _ hn hd => numberedPart_denied (Nat.lt_succ_of_le hn) hd,
    fun _ _ _ h => if_neg (ne_true_of_eq_false h), fun _ _ _ h => if_pos h, ?_⟩
  -- the parts of AR
  refine ⟨fun _ _ _ hn hd hs => (recorderPart_ok hn hd _).trans (if_neg hs), fun _ _ _ hn hd hs => (recorderPart_ok hn hd _).trans (if_pos hs),
    fun _ _ _ hn => recorderPart_badParam hn _, fun _ _ _ hn hd => recorderPart_denied hn hd _,
    fun _ _ _ hn hd hs => (recorderPart_ok hn hd _).trans ((if_neg (by rw [hs]; decide)).trans (if_pos hs)),
    fun _ _ _ hn hd hs hs' => (recorderPart_ok hn hd _).trans ((if_neg hs).trans (if_neg hs')),
    fun _ _ _ hn hd hs => (recorderPart_ok hn hd _).trans (if_pos hs), fun _ _ _ hn => recorderPart_badParam hn _,
    fun _ _ _ hn hd => recorderPart_denied hn hd _,
    fun _ _ _ hn hd hs => (recorderPart_ok hn hd _).trans (if_neg hs), fun _ _ _ hn hd hs => (recorderPart_ok hn hd _).trans (if_pos hs),
    fun _ _ _ hn => recorderPart_badParam hn _, fun _ _ _ hn hd => recorderPart_denied hn hd _,
    fun _ _ _ hn hd => recorderPart_ok hn hd _, fun _ _ _ hn => recorderPart_badParam hn _, fun _ _ _ hn hd => recorderPart_denied hn hd _, ?_⟩
  -- the parts of SE
  exact ⟨fun _ _ _ _ hn hd => numberedPart_done hn hd, fun _ _ _ _ hn => if_pos hn, fun _ _ _ _ hn hd => numberedPart_denied hn hd,
    fun _ _ _ hn hs => (if_neg (Nat.not_le.mpr hn)).trans (if_neg hs), fun _ _ _ hn => if_pos hn,
    fun _ _ _ hn hs => (if_neg (Nat.not_le.mpr hn)).trans (if_pos hs)⟩

end Sys2Proof.Machine
end
section
/-! Sampled values, GOOSE and the grid second: each event by the branches of its meaning. -/

namespace Sys2Proof.Machine

/-! ## Frames of the INGEST queues -/

/-- Nothing is taken where SE is not ready or the queue is empty. -/
theorem ingest_idle {s : State} {q : Nat} (h : s.se.ready = false ∨ (getQ s q).words = []) :
    (!s.se.ready || (getQ s q).words.isEmpty) = true := by
  rcases h with h | h <;> simp [h]

section
variable {s u : State} {q : Fin 8} {g : Option GuardFind} (hr : s.se.ready = true) (hw : (getQ s q.val).words ≠ [])
include hr hw

theorem ingest_open : ¬(!s.se.ready || (getQ s q.val).words.isEmpty) = true := by simp [hr, hw]

/-- A frame with a word in error is discarded. -/
theorem svFrameReceive_discarded (f : SvFrame) (ht : takeIngest q.val g s = (none, u)) : exec (.svFrameReceive q f g) s = .next u :=
  (if_neg (ingest_open hr hw)).trans (by rw [ht])

theorem gooseFrameReceive_discarded (f : GoFrame) (ht : takeIngest q.val g s = (none, u)) : exec (.gooseFrameReceive q f g) s = .next u :=
  (if_neg (ingest_open hr hw)).trans (by rw [ht])

end

/-! ## The release of an instant, and the grid second -/

theorem instantRelease_due {s : State} {g : Fin 16} {i : Instant} {l : List Instant} (hi : (getGroup s g.val).instants = i :: l)
    (hr : s.se.ready = true)
    (h : instantComplete s i (instantStreams s g.val (instantLt s i.sec i.k i.rate)) = true ∨
      ltReached s.now (ltAdd i.tFirst (usTu (groupCfgAt s g.val (instantLt s i.sec i.k i.rate)).tolUs)) = true) :
    exec (.instantRelease g) s = .next (releaseInstant g.val i (instantLt s i.sec i.k i.rate)
      (instantStreams s g.val (instantLt s i.sec i.k i.rate)) s) := by
  show execInstantRelease g s = _
  simp only [execInstantRelease, hi]
  exact if_pos (by simpa [hr] using h)

theorem instantRelease_idle {s : State} {g : Fin 16}
    (h : (getGroup s g.val).instants = [] ∨ s.se.ready = false ∨ ∃ i l, (getGroup s g.val).instants = i :: l ∧
      ¬(instantComplete s i (instantStreams s g.val (instantLt s i.sec i.k i.rate)) = true ∨
        ltReached s.now (ltAdd i.tFirst (usTu (groupCfgAt s g.val (instantLt s i.sec i.k i.rate)).tolUs)) = true)) :
    exec (.instantRelease g) s = .next s := by
  show execInstantRelease g s = _
  unfold execInstantRelease
  split
  · rfl
  next i l hi =>
    refine if_neg ?_
    rcases h with h | h | ⟨j, m, hj, h⟩
    · exact absurd (hi.symm.trans h) (List.cons_ne_nil i l)
    · simp [h]
    · obtain ⟨rfl, rfl⟩ := List.cons.inj (hi.symm.trans hj)
      simpa using fun _ => not_or.mp h

theorem gridSecond_opens {s v : State} (h : tcuDue s 3 = true)
    (hv : v = onSe (fun x => { x with
      hist := ((x.secNo, gridStart s) :: x.hist).take 4, ltS := (getTcu s 3).target, secNo := x.secNo + 1 }) (fireTcu 3 s)) :
    exec .gridSecond s = .next (arSecond (getTcu s 3).target (peSecond (getTcu s 3).target (frSecond (getTcu s 3).target
      (decide (s.se.secNo ≠ 0 ∧ ltDiff (getTcu s 3).target (gridStart s) ≠ secTu 1))
      (if offBoundary v (getTcu s 3).target then cutFrame (gridStart s) (getTcu s 3).target v else v)))) := by
  subst hv
  exact if_neg (by simp [h])

/-! ## The supervision timer of a GOOSE subscription -/

@[simp] theorem getGs_modGs (n : Nat) (f : GoSub → GoSub) (s : State) : getGs (modGs n f s) n = f (getGs s n) := getD_put ..

/-- The quality of a value whose frames no longer come is invalid (R213). -/
theorem invalidOld_validity (q : Quality) : ((q &&& ~~~3) ||| qInvalid ||| qOldData) &&& 3 = 1 := by
  have hq : (q &&& ~~~3) &&& 3 = 0 := by
    rw [BitVec.and_assoc, show (~~~3 &&& 3 : Quality) = 0 by decide]
    exact BitVec.and_zero
  rw [BitVec.and_or_distrib_right, BitVec.and_or_distrib_right, hq]
  decide

/-- The values that an expired subscription sends, each with invalid. -/
def talWrites (s : State) (n : Nat) (c : GoSubCfg) : List PtWrite :=
  ((List.range c.members.length).zip c.members).filterMap (fun e =>
    match e.2.type, e.2.point.bind (fun p => (getPoint s p).map (fun r => (p, r))) with
    | .quality, _ => none
    | _, some (p, r) => some { index := p, value := r.value, quality := (r.quality &&& ~~~3) ||| qInvalid ||| qOldData, lt := r.lt,
                               writer := .goose n e.1 }
    | _, none => none)

theorem talWrites_invalid {s : State} {n : Nat} {c : GoSubCfg} {w : PtWrite} (hw : w ∈ talWrites s n c) :
    w.quality &&& 3 = 1 ∧ ∃ k, w.writer = .goose n k := by
  obtain ⟨e, -, he⟩ := List.mem_filterMap.mp hw
  split at he
  · nomatch he
  · cases he
    exact ⟨invalidOld_validity _, _, rfl⟩
  · nomatch he

section
variable {s : State} {n : Fin 1024} {t : Nat} {c : GoSubCfg}

/-- The state in which an expired subscription sends its values. -/
def talExpired (n : Nat) (c : GoSubCfg) (s : State) : State :=
  raiseArg 0x2B c.owner (BitVec.ofNat 32 n) (onSe (fun x => { x with talExp := true })
    (modGs n (fun x => { x with state := .talExpired, talAt := none }) s))

theorem talExpired_effects (n : Nat) (c : GoSubCfg) (s : State) :
    (getGs (talExpired n c s) n).state = .talExpired ∧ (getGs (talExpired n c s) n).talAt = none ∧ (talExpired n c s).se.talExp = true ∧
    (talExpired n c s).ev.count[0x2B] = satInc s.ev.count[0x2B] := by
  have hgs : getGs (talExpired n c s) n = { getGs s n with state := .talExpired, talAt := none } := by
    rw [getGs, talExpired, raiseArg_se]
    exact getGs_modGs n (fun x => { x with state := .talExpired, talAt := none }) s
  refine ⟨by rw [hgs], by rw [hgs], by rw [talExpired, raiseArg_se]; rfl, ?_⟩
  simp [talExpired, modGs, vmod_lt]

theorem talExpiry_due (ht : (getGs s n.val).talAt = some t) (hc : s.se.gsCfg.get? n.val = some c) (hr : s.se.ready = true) (hd : t ≤ s.abs)
    (hb : (allBatches s).any (fun b => b.src == .goose) = false) :
    exec (.talExpiry n) s = .next (sendBatch .goose (talWrites (talExpired n.val c s) n.val c) (talExpired n.val c s)) := by
  show execTalExpiry n s = _
  simp only [execTalExpiry, ht, hc]
  exact if_neg (by simp [hr, hb, hd])

theorem talExpiry_idle
    (h : (getGs s n.val).talAt = none ∨ s.se.gsCfg.get? n.val = none ∨ s.se.ready = false ∨
      (∃ t, (getGs s n.val).talAt = some t ∧ s.abs < t) ∨ (allBatches s).any (fun b => b.src == .goose) = true) :
    exec (.talExpiry n) s = .next s := by
  show execTalExpiry n s = _
  unfold execTalExpiry
  dsimp only
  split
  next t c ht hc =>
    refine if_pos ?_
    rcases h with h | h | h | ⟨t', ht', h⟩ | h
    · exact absurd (ht.symm.trans h) (Option.some_ne_none t)
    · exact absurd (hc.symm.trans h) (Option.some_ne_none c)
    · simp [h]
    · obtain rfl := Option.some.inj (ht.symm.trans ht')
      simp [h]
    · rw [h, Bool.or_true]
  · rfl

end

/-! ## Publication -/

section
variable {s : State} {p : Fin 256} {t : LT}

theorem goosePublish_due (ht : (getGp s p.val).pendingAt = some t) (hp : mayPublish s p.val = true) :
    exec (.goosePublish p) s = .next (newGoState p.val t false s) := by
  show execGoosePublish p s = _
  simp only [execGoosePublish, ht]
  exact if_pos hp

theorem goosePublish_idle (h : (getGp s p.val).pendingAt = none ∨ mayPublish s p.val = false) : exec (.goosePublish p) s = .next s := by
  show execGoosePublish p s = _
  unfold execGoosePublish
  split
  next t ht => exact if_neg (by simpa [ht] using h)
  · rfl

theorem gooseRetransmit_due (ht : (getGp s p.val).nextAt = some t) (hn : (getGp s p.val).pendingAt = none) (hp : mayPublish s p.val = true)
    (hr : ltReached s.now t = true) :
    exec (.gooseRetransmit p) s = .next (
      let i := min ((getGp s p.val).interval * (s.se.gpCfg.getD p.val {}).f) (s.se.gpCfg.getD p.val {}).t0
      sendGoose p.val (2 * i)
        (modGp p.val (fun g => { g with sqNum := goNext g.sqNum, interval := i, nextAt := some (ltAdd s.now (msTu i)) }) s)) := by
  show execGooseRetransmit p s = _
  simp only [execGooseRetransmit, ht]
  exact if_pos (by simp [hp, hn, hr])

theorem gooseRetransmit_idle
    (h : (getGp s p.val).nextAt = none ∨ (getGp s p.val).pendingAt ≠ none ∨ mayPublish s p.val = false ∨
      ∃ t, (getGp s p.val).nextAt = some t ∧ ltReached s.now t = false) : exec (.gooseRetransmit p) s = .next s := by
  show execGooseRetransmit p s = _
  unfold execGooseRetransmit
  dsimp only
  split
  next t ht =>
    refine if_neg ?_
    rcases h with h | h | h | ⟨t', ht', h⟩
    · exact absurd (ht.symm.trans h) (Option.some_ne_none t)
    · simp [h]
    · simp [h]
    · obtain rfl := Option.some.inj (ht.symm.trans ht')
      simp [h]
  · rfl

end

/-- Settles O34: each event by its lemmas, where it is due and where it is not. -/
theorem streamsAlign : Obligations.StreamsAlign := by
  refine ⟨fun _ _ _ _ _ h => ⟨if_pos (ingest_idle h), if_pos (ingest_idle h)⟩,
    fun _ _ _ f h _ hr hw ht => ⟨svFrameReceive_discarded hr hw f ht, gooseFrameReceive_discarded hr hw h ht⟩,
    fun _ _ _ _ _ _ hr hw ht hd hm => (if_neg (ingest_open hr hw)).trans (by rw [ht]; dsimp only; rw [hd, hm]; rfl),
    fun _ _ _ _ _ _ _ hr hw ht hd hm => (if_neg (ingest_open hr hw)).trans (by rw [ht]; dsimp only; rw [hd, hm]),
    fun _ _ _ _ _ _ _ hr hw ht hd => (if_neg (ingest_open hr hw)).trans (by rw [ht]; dsimp only; rw [hd]), ?_⟩
  refine ⟨fun _ _ _ _ _ _ hr hw ht hn => (if_neg (ingest_open hr hw)).trans (by rw [ht]; dsimp only; rw [hn]; rfl),
    fun _ _ _ _ _ _ _ _ hr hw ht hn hf => (if_neg (ingest_open hr hw)).trans (by rw [ht]; dsimp only; rw [hn]; dsimp only; rw [hf]),
    fun _ _ _ _ _ _ _ _ hr hw ht hn hf => (if_neg (ingest_open hr hw)).trans (by rw [ht]; dsimp only; rw [hn]; dsimp only; rw [hf]),
    fun _ _ _ _ _ _ _ _ hr hw ht hn hf => (if_neg (ingest_open hr hw)).trans (by rw [ht]; dsimp only; rw [hn]; dsimp only; rw [hf]),
    fun _ _ _ _ _ _ _ _ hr hw ht hn hf => (if_neg (ingest_open hr hw)).trans (by rw [ht]; dsimp only; rw [hn]; dsimp only; rw [hf]), ?_⟩
  exact ⟨fun _ _ _ _ hi hr h => instantRelease_due hi hr h, fun _ _ h => instantRelease_idle h,
    fun _ _ h hv => gridSecond_opens h hv, fun _ h => if_pos (by simp [h]),
    fun s n _ c ht hc hr hd hb =>
      have ⟨hstate, htal, hexp, hcount⟩ := talExpired_effects n.val c s
      ⟨_, _, talExpiry_due ht hc hr hd hb, hstate, htal, hexp, hcount, fun _ hw => talWrites_invalid hw⟩,
    fun _ _ h => talExpiry_idle h, fun _ _ _ ht hp => goosePublish_due ht hp, fun _ _ h => goosePublish_idle h,
    fun _ _ _ ht hn hp hr => gooseRetransmit_due ht hn hp hr, fun _ _ h => gooseRetransmit_idle h⟩

end Sys2Proof.Machine
end
section
/-! Frames received, and links, pairs and PAUSE: each event by the branches of its meaning. -/

namespace Sys2Proof.Machine

/-! ## The reception of a frame -/

theorem frameReceive_idle {s : State} (h : s.px.ready = false) (p : Fin 14) (f : Frame) (t : LT) (tie : Bool) :
    exec (.frameReceive p f t tie) s = .next s :=
  if_pos (by simp [h])

section
variable {s : State} (hr : s.px.ready = true) (p : Fin 14) (f : Frame) (t : LT) (tie : Bool)
include hr

/-- A frame is taken under the settings in force. -/
theorem frameReceive_current (h : s.px.old = none ∨ ∃ b, s.px.old = some b ∧ 0 ≤ ltDiff t b.t) :
    exec (.frameReceive p f t tie) s = .next (dropPurged p.val (receiveFrame p.val f t tie s)) := by
  refine (if_neg (by simp [hr])).trans ?_
  rcases h with h | ⟨b, hb, ht⟩
  · rw [h]
  · rw [hb]
    dsimp only
    rw [if_neg (Int.not_lt.mpr ht)]

/-- A frame whose first byte came before the last commit is taken under the settings before it (R88, R112). -/
theorem frameReceive_earlier {b : NetBank} (hb : s.px.old = some b) (ht : ltDiff t b.t < 0) :
    exec (.frameReceive p f t tie) s = .next (dropPurged p.val (underBank b (receiveFrame p.val f t tie) s)) := by
  refine (if_neg (by simp [hr])).trans ?_
  rw [hb]
  dsimp only
  rw [if_pos ht]

end

/-- The state in which a frame that has come is classed: its bytes are counted, and its code error where it has one (R106). -/
def frameCounted (p : Nat) (f : Frame) (s : State) : State :=
  if f.codeErr then pxCount p 14 (pxCountBy p 1 f.len s) else pxCountBy p 1 f.len s

/-- The state in which a good frame goes on: it is counted with the frame inside it (R106, R118). -/
def goodCounted (p : Nat) (f : Frame) (t : LT) (s : State) : State :=
  goodCounters p f (innerFrame p f t (frameCounted p f s)) (frameCounted p f s)

theorem receiveFrame_disabled {s : State} {p : Nat} (h : (getPx s p).cfg.phy = .disabled) (f : Frame) (t : LT) (tie : Bool) :
    receiveFrame p f t tie s = s := if_pos (by simp [h])

section
variable {s : State} {p : Nat} {f : Frame} {t : LT} {tie : Bool} (hp : (getPx s p).cfg.phy ≠ .disabled)
include hp

theorem receiveFrame_bad (hc : rxClass f.len (rxMax s p f t) f.fcsOk ≠ .good) :
    receiveFrame p f t tie s =
      badFrame p f (rxClass f.len (rxMax s p f t) f.fcsOk) (rxMax s p f t) (rxStamp s p t) (frameCounted p f s) :=
  (if_neg (by simpa using hp)).trans (if_pos hc)

variable (hc : rxClass f.len (rxMax s p f t) f.fcsOk = .good)
include hc

theorem receiveFrame_control (he : f.etype = 0x8808) : receiveFrame p f t tie s = macControl p f (goodCounted p f t s) :=
  (if_neg (by simpa using hp)).trans ((if_neg (not_not.mpr hc)).trans (if_pos he))

variable (he : f.etype ≠ 0x8808)
include he

/-- A good frame that is no MAC control frame passes MACsec and the duplicate discard on its way to the fabric. -/
theorem receiveFrame_good :
    receiveFrame p f t tie s = (match macsecRx p f t (goodCounted p f t s) with
      | (u, .discard) => u
      | (u, .pass g m) =>
        match redundancyRx p g (rxStamp s p t) tie u with
        | (v, none) => v
        | (v, some (h, n)) => frameForward p h (rxStamp s p t) (decide (0 < g.tags)) f.codeErr (m + n) v) :=
  (if_neg (by simpa using hp)).trans ((if_neg (not_not.mpr hc)).trans (if_neg he))

end

/-! ## PAUSE -/

theorem pauseTimerExpiry_expired {s : State} {p : Fin 14} {e : LT} (he : s.px.port[p].pauseEnd = some e) (hr : ltReached s.now e = true) :
    exec (.pauseTimerExpiry p) s = .next (clearPause p.val s) := by
  show execPauseTimerExpiry p s = _
  have hp : (getPx s p.val).pauseEnd = some e := by rw [getPx, vget_fin]; exact he
  simp only [execPauseTimerExpiry, hp, hr, if_true]

theorem clearPause_pauseEnd (p : Fin 14) (s : State) : (clearPause p.val s).px.port[p].pauseEnd = none := by
  simp [clearPause, modPx]

theorem pauseTimerExpiry_idle {s : State} {p : Fin 14} (h : ∀ e, s.px.port[p].pauseEnd = some e → ltReached s.now e = false) :
    exec (.pauseTimerExpiry p) s = .next s := by
  show execPauseTimerExpiry p s = _
  unfold execPauseTimerExpiry
  split
  next t ht =>
    rw [getPx, vget_fin] at ht
    rw [h t ht]
    rfl
  · rfl

/-! ## The link of a port -/

/-- What the link of a port shows: whether it is up, and whether a change is noted, on the port and on PX. -/
def linkView (p : Fin 14) (s : State) : Bool × Bool × Bool := (s.px.port[p.val].linkUp, s.px.port[p.val].linkChg, s.px.linkChg)

section
variable {p : Fin 14}

theorem linkView_of_px {s t : State} (h : t.px = s.px) : linkView p t = linkView p s := by rw [linkView, linkView, h]

theorem linkView_of_outside {l : List Part} (hl : .px ∉ l) {s t : State} (h : outside l t = outside l s) : linkView p t = linkView p s :=
  linkView_of_px (by simpa [outside, hl] using congrArg State.px h)

/-- A change of a port that keeps what its link shows. -/
theorem linkView_modPx {f : PxPort → PxPort} (n : Nat) (s : State) (hf : ∀ x, (f x).linkUp = x.linkUp ∧ (f x).linkChg = x.linkChg) :
    linkView p (modPx n f s) = linkView p s := by
  by_cases hn : n < 14
  · by_cases h : n = p.val
    · subst h
      simp [linkView, modPx, hf]
    · simp [linkView, modPx, vmod_lt, hn, h]
  · exact linkView_of_px (by rw [modPx, vmod, Vector.getElem?_eq_none (Nat.not_lt.mp hn)])

@[simp] theorem linkView_pxCountBy (n k a : Nat) (s : State) : linkView p (pxCountBy n k a s) = linkView p s :=
  linkView_modPx n s fun x => by split <;> exact ⟨rfl, rfl⟩

@[simp] theorem linkView_pauseAccount (n : Nat) (s : State) : linkView p (pauseAccount n s) = linkView p s := by
  unfold pauseAccount
  dsimp only
  split
  · rw [linkView_pxCountBy]
    exact linkView_modPx n s fun _ => ⟨rfl, rfl⟩
  · rfl

@[simp] theorem linkView_clearPause (n : Nat) (s : State) : linkView p (clearPause n s) = linkView p s := by
  rw [← linkView_pauseAccount n s]
  exact linkView_modPx n _ fun _ => ⟨rfl, rfl⟩

@[simp] theorem linkView_raiseArg (n : Nat) (o : Tag) (a : BitVec 32) (s : State) : linkView p (raiseArg n o a s) = linkView p s :=
  linkView_of_px (raiseArg_px ..)

/-- What leaves a port's queues leaves its link. -/
@[simp] theorem linkView_flushPort (n : Nat) (s : State) : linkView p (flushPort n s) = linkView p s := by
  unfold flushPort
  dsimp only
  refine List.foldlRecOn (motive := fun t => linkView p t = linkView p s) _ _ ?_ fun t ht c _ => ?_
  · rw [linkView_pxCountBy]
    exact linkView_of_outside (l := [.sw]) (by decide) (by simp)
  · rw [← ht]
    exact linkView_of_outside (l := [.sw, .im, .log, .ev, .out]) (by decide) (mirrorCopy_outside (by simp) ..)

@[simp] theorem linkView_fabricFollow (q : Nat) (up : Bool) (s : State) : linkView p (fabricFollow q up s) = linkView p s := by
  unfold fabricFollow
  split
  · exact linkView_of_outside (l := [.sw]) (by decide) (fabricLinkUp_outside (by simp) ..)
  · unfold fabricLinkDown
    split
    · dsimp only
      split
      · rw [enterDown, linkView_raiseArg]
        exact (linkView_of_px rfl).trans ((linkView_flushPort ..).trans (linkView_of_px rfl))
      · exact linkView_of_px rfl
    · rfl

@[simp] theorem linkView_fabricLink (n : Nat) (s : State) : linkView p (fabricLink n s) = linkView p s := by
  unfold fabricLink
  dsimp only
  split
  · exact linkView_fabricFollow ..
  · rw [linkView_fabricFollow, linkView_fabricFollow]

@[simp] theorem linkView_sendFault (n : Nat) (o : RsFault) (s : State) : linkView p (sendFault n o s) = linkView p s := by
  unfold sendFault
  split <;> rfl

theorem linkView_linkChanged (s : State) : linkView p (linkChanged p.val s) = ((linkView p s).1, true, true) := by
  rw [linkChanged, linkView_raiseArg]
  simp [linkView, modPx]

/-- A port's link takes what is found, and notes a change (R98, R131). -/
theorem linkView_setLink (up pcs fec : Bool) (s : State) :
    linkView p (setLink p.val up pcs fec s) =
      (up, if s.px.port[p.val].linkUp = up then (s.px.port[p.val].linkChg, s.px.linkChg) else (true, true)) := by
  have hset (f : PxPort → Bool) : linkView p (modPx p.val (fun x => { x with linkUp := up, pcsLock := pcs, fecLock := f x }) s) =
      (up, s.px.port[p.val].linkChg, s.px.linkChg) := by simp [linkView, modPx]
  unfold setLink
  dsimp only
  rw [getPx, vget_fin]
  split
  · exact hset _
  · rw [linkView_fabricLink, linkView_linkChanged]
    split
    · rw [hset]
    · rw [linkView_clearPause, pxCount, linkView_pxCountBy, hset]

variable {s : State} (hr : s.px.ready = true) (hp : s.px.port[p.val].cfg.phy ≠ .disabled)
include hr hp

/-- What the receiver of an enabled port finds decides its link; a change is noted, and so is an unsupported partner that keeps it down. -/
theorem linkStateChange_view (pcs fec us : Bool) (g : RsFault) :
    ∃ t, exec (.linkStateChange p pcs fec g us) s = .next t ∧
      let up := !us && pcs && (portFec s.px.port[p.val].cfg == .none || fec) && (!hasRs s.px.port[p.val].cfg || g == .none)
      linkView p t = (up, if s.px.port[p.val].linkUp = up ∧ ¬(us && !s.px.port[p.val].linkUp) = true
        then (s.px.port[p.val].linkChg, s.px.linkChg) else (true, true)) := by
  have hport : getPx s p.val = s.px.port[p.val] := vget_fin ..
  refine ⟨_, if_neg (by simpa [hr, hport] using hp), ?_⟩
  have hup : (!us && pcs && (portFec s.px.port[p.val].cfg == .none || fec) &&
      (getPx (modPx p.val (fun x => { x with rxFault := if hasRs s.px.port[p.val].cfg then g else .none }) s) p.val).rxFault == .none) =
      (!us && pcs && (portFec s.px.port[p.val].cfg == .none || fec) && (!hasRs s.px.port[p.val].cfg || g == .none)) := by
    rw [getPx, modPx, vget_vmod _ _ _ _ p.isLt]
    cases hasRs s.px.port[p.val].cfg <;> rfl
  have hlink (f : RsFault) : linkView p (modPx p.val (fun x => { x with rxFault := f }) s) = linkView p s :=
    linkView_modPx p.val s fun _ => ⟨rfl, rfl⟩
  simp only [linkView, Prod.mk.injEq] at hlink
  dsimp only
  rw [hport, hup]
  split
  next h =>
    rw [linkView_linkChanged, linkView_sendFault, linkView_setLink]
    exact congrArg (Prod.mk _) (if_neg fun h' => h'.2 h).symm
  next h =>
    rw [linkView_sendFault, linkView_setLink, (hlink _).1, (hlink _).2.1, (hlink _).2.2]
    simp [h]

theorem linkStateChange_finds (pcs fec us : Bool) (g : RsFault) :
    ∃ t, exec (.linkStateChange p pcs fec g us) s = .next t ∧
      t.px.port[p.val].linkUp =
        (!us && pcs && (portFec s.px.port[p.val].cfg == .none || fec) && (!hasRs s.px.port[p.val].cfg || g == .none)) ∧
      (t.px.port[p.val].linkUp ≠ s.px.port[p.val].linkUp ∨ (us ∧ !s.px.port[p.val].linkUp) →
        t.px.port[p.val].linkChg = true ∧ t.px.linkChg = true) := by
  obtain ⟨t, ht, hview⟩ := linkStateChange_view hr hp pcs fec us g
  simp only [linkView, Prod.mk.injEq] at hview
  obtain ⟨hup, hchg⟩ := hview
  refine ⟨t, ht, hup, fun h => ?_⟩
  rw [← hup, if_neg ?_, Prod.mk.injEq] at hchg
  · exact hchg
  · rintro ⟨hsame, hkept⟩
    exact h.elim (fun h => h hsame.symm) (fun h => hkept (by simpa using h))

omit hr hp in
theorem linkStateChange_idle (h : s.px.ready = false ∨ s.px.port[p.val].cfg.phy = .disabled) (pcs fec us : Bool) (g : RsFault) :
    exec (.linkStateChange p pcs fec g us) s = .next s :=
  if_pos (by rcases h with h | h <;> simp [getPx, h])

end

/-! ## Pairs -/

section
variable {s : State} {k : Fin 2}

theorem getPair_fin (s : State) (k : Fin 2) : getPair s k.val = s.px.pair[k.val] := vget_fin ..

theorem supervisionRx_pair (h : s.px.pair[k.val].cfg.mode ≠ .independent) (m : Mac) :
    ∃ t, exec (.supervisionRx k m) s = .next t ∧ t.px.pair[k.val].nodes = s.px.pair[k.val].nodes.put m s.now ∧
      t.px.pair[k.val].ddt = s.px.pair[k.val].ddt :=
  ⟨_, if_neg (by rwa [getPair_fin]), by simp [modPair], by simp [modPair]⟩

theorem supervisionRx_independent (h : s.px.pair[k.val].cfg.mode = .independent) (m : Mac) : exec (.supervisionRx k m) s = .next s :=
  if_pos (by rwa [getPair_fin])

theorem supervisionTx_due (hr : s.glob.ready = true) (hm : s.px.pair[k.val].cfg.mode ≠ .independent)
    (ht : ltReached s.now (ltAdd s.px.pair[k.val].supAt (msTu s.px.pair[k.val].cfg.lifeMs)) = true) :
    exec (.supervisionTx k) s = .next ((if s.px.pair[k.val].cfg.redBox then s.px.pair[k.val].proxy else []).foldl
      (fun s e => sendSupervision k.val e.mac s)
      (sendSupervision k.val s.px.pair[k.val].cfg.node (modPair k.val (fun x => { x with supAt := s.now }) s))) := by
  refine (if_neg (by simp [getPair_fin, hr, hm, ht])).trans ?_
  rw [getPair_fin]
  split <;> rfl

theorem supervisionTx_idle (h : s.glob.ready = false ∨ s.px.pair[k.val].cfg.mode = .independent ∨
      ltReached s.now (ltAdd s.px.pair[k.val].supAt (msTu s.px.pair[k.val].cfg.lifeMs)) = false) :
    exec (.supervisionTx k) s = .next s :=
  if_pos (by rcases h with h | h | h <;> simp [getPair_fin, h])

end

/-- Settles O30: each event by its lemmas, the link's by what a port's link shows. -/
theorem frameReception : Obligations.FrameReception := by
  refine ⟨fun _ p f t tie hr h => frameReceive_current hr p f t tie h, fun _ _ p f t tie hr hb ht => frameReceive_earlier hr p f t tie hb ht,
    fun _ p f t tie h => frameReceive_idle h p f t tie, fun _ _ f t tie h => receiveFrame_disabled h f t tie,
    fun _ _ _ _ _ hp hc => receiveFrame_bad hp hc, fun _ _ _ _ _ hp hc he => receiveFrame_control hp hc he,
    fun _ _ _ _ _ _ hp hc he hm => (receiveFrame_good hp hc he).trans ?_,
    fun _ _ _ _ _ _ _ _ _ hp hc he hm hd => (receiveFrame_good hp hc he).trans ?_,
    fun _ _ _ _ _ _ _ _ _ _ _ hp hc he hm hd => (receiveFrame_good hp hc he).trans ?_, ?_⟩
  · rw [goodCounted, frameCounted, hm]
  · rw [goodCounted, frameCounted, hm]
    dsimp only
    rw [hd]
  · rw [goodCounted, frameCounted, hm]
    dsimp only
    rw [hd]
  exact ⟨fun s p _ he hr => ⟨_, pauseTimerExpiry_expired he hr, clearPause_pauseEnd p s⟩, fun _ _ h => pauseTimerExpiry_idle h,
    fun _ _ pcs fec us g hr hp => linkStateChange_finds hr hp pcs fec us g,
    fun _ _ pcs fec us g h => linkStateChange_idle h pcs fec us g,
    fun _ _ m h => supervisionRx_pair h m, fun _ _ m h => supervisionRx_independent h m,
    fun _ _ hr hm ht => supervisionTx_due hr hm ht, fun _ _ h => supervisionTx_idle h,
    fun _ _ => ⟨_, rfl, by simp [modPair], by simp [modPair], rfl⟩, fun _ _ => ⟨_, rfl, by simp [modPair], rfl⟩⟩

end Sys2Proof.Machine
end
section
/-! The supervisor's commits and configuration packages (R84–R96). -/

namespace Sys2Proof.Machine

/-! ## What the checks of the supervisor read is as it was before the access to the domain -/

@[simp] theorem boundaryFrom_entered (t : LT) (op : BitVec 16) (c : Cmd) (s : State) : boundaryFrom (entered op c s) t = boundaryFrom s t := by
  simp [boundaryFrom]

@[simp] theorem commitMin_entered (n : Nat) (op : BitVec 16) (c : Cmd) (s : State) : commitMin (entered op c s) n = commitMin s n := by
  simp [commitMin]

@[simp] theorem persistOk_entered (x : Session) (op : BitVec 16) (c : Cmd) (s : State) : persistOk (entered op c s) x = persistOk s x := by
  simp [persistOk]

@[simp] theorem stageBusy_entered (o : Tag) (n : Nat) (op : BitVec 16) (c : Cmd) (s : State) : stageBusy (entered op c s) o n = stageBusy s o n := by
  simp [stageBusy]

@[simp] theorem itemSection_entered (i : Item) (op : BitVec 16) (c : Cmd) (s : State) : itemSection (entered op c s) i = itemSection s i := by
  have h : itemOwner (entered op c s) i = itemOwner s i := by cases i <;> simp [itemOwner]
  rw [itemSection, itemSection, h]

/-! ## The sessions over a reply -/

theorem get?_del_self {κ ν : Type} [DecidableEq κ] (t : Tab κ ν) (k : κ) : (t.del k).get? k = none := by
  simp [Tab.del, Tab.get?]

theorem get?_del_ne {κ ν : Type} [DecidableEq κ] (t : Tab κ ν) {k j : κ} (h : k ≠ j) : (t.del k).get? j = t.get? j := by
  cases t with
  | nil => rfl
  | cons e t => rw [← get?_put_ne (e :: t) k j e.2 h]; simp [Tab.put, Tab.get?, h]

theorem sessions_putRing (s : State) (r : RingId) (x : Ring) : (putRing s r x).su.sessions = s.su.sessions := by
  cases r <;> rfl

theorem sessions_writeReply (w : Waiting) (b : ReplyBody) (s : State) : (writeReply w b s).su.sessions = s.su.sessions := by
  cases h : getRing s w.cmd.ring with
  | none => rw [writeReply, h]
  | some r => rw [su_writeReply h]; exact sessions_putRing ..

theorem sessions_finishDestroy (r : RingId) (s : State) : (finishDestroy r s).su.sessions = s.su.sessions := by
  unfold finishDestroy
  split
  · split <;> rfl
  · rfl

theorem sessions_sendReply (w : Waiting) (b : ReplyBody) (s : State) : (sendReply w b s).su.sessions = s.su.sessions :=
  (sessions_finishDestroy ..).trans (sessions_writeReply ..)

theorem sessions_releaseReplies (n : Nat) (s : State) : (releaseReplies n s).su.sessions = s.su.sessions := by
  induction n generalizing s with
  | zero => rfl
  | succ n ih =>
    unfold releaseReplies
    split
    · exact (ih _).trans (sessions_sendReply ..)
    · rfl

theorem sessions_placeReply (w : Waiting) (b : ReplyBody) (s : State) : (placeReply w b s).su.sessions = s.su.sessions := by
  unfold placeReply
  repeat' split
  · exact sessions_sendReply ..
  · rfl
  · rfl
  · exact sessions_sendReply ..

/-- A reply leaves the sessions as they are, but for the discard of a firmware fault (R73). -/
theorem sessions_reply (w : Waiting) (b : ReplyBody) (s : State) :
    (reply w b s).su.sessions = (if w.cmd.fault = .none then s else firmwareFault (issuer w.cmd) s).su.sessions :=
  (sessions_releaseReplies ..).trans (sessions_placeReply ..)

theorem getSession_reply {w : Waiting} (h : w.cmd.fault = .none) (b : ReplyBody) (s : State) (o : Tag) :
    getSession (reply w b s) o = getSession s o := by
  rw [getSession, sessions_reply, if_pos h, getSession]

theorem sessions_firmwareFault (o : Tag) (s : State) :
    (firmwareFault o s).su.sessions = s.su.sessions ∨ (firmwareFault o s).su.sessions = s.su.sessions.del o := by
  unfold firmwareFault
  dsimp only
  rw [raise_su]
  split
  · exact .inr rfl
  · exact .inl rfl

/-- An owner without a session has none after a reply. -/
theorem get?_sessions_reply {s : State} {o : Tag} (h : s.su.sessions.get? o = none) (w : Waiting) (b : ReplyBody) :
    (reply w b s).su.sessions.get? o = none := by
  rw [sessions_reply]
  split
  · exact h
  · obtain hf | hf := sessions_firmwareFault (issuer w.cmd) s
    · rw [hf, h]
    · rw [hf]
      by_cases ho : issuer w.cmd = o
      · rw [ho, get?_del_self]
      · rw [get?_del_ne _ ho, h]

theorem closed_of_get? {s : State} {o : Tag} (h : s.su.sessions.get? o = none) : (getSession s o).state = .closed := by
  rw [getSession, Tab.getD, h]; rfl

/-! ## SU_COMMIT -/

/-- The state from which a commit is armed: with PERSIST the intent record has been written (R96). -/
def withIntent (c : Cmd) (f : BitVec 32) (s : State) : State :=
  let id := (getSession s (issuer c)).package.getD 0
  if f.getLsbD 0 then
    writePending (logRec 0x0004 0xFF (issuer c) s.now (id.truncate 32) (id.extractLsb' 32 32)
      (onSu (fun u => { u with pkg := { u.pkg with intent := some id } }) s))
  else s

theorem su_writePending (s : State) : (writePending s).su = s.su :=
  su_eq_of_outside (l := [.im, .log, .ev, .out]) (by decide) (writePending_outside (List.Subset.refl _) s)

theorem withIntent_replies (c : Cmd) (f : BitVec 32) (s : State) : (withIntent c f s).su.replies = s.su.replies := by
  unfold withIntent
  dsimp only
  split
  · rw [su_writePending]; rfl
  · rfl

/-- The commit that an accepted SU_COMMIT arms; `u` is the state from which it is armed. -/
def commitOf (c : Cmd) (T : LT) (f : BitVec 32) (s u : State) : ArmedCommit :=
  let x := getSession s (issuer c)
  { owner := issuer c, t := T, cmd := c, persist := f.getLsbD 0, package := if f.getLsbD 0 then u.su.pkg.held else none, items := x.staged,
    sid := x.id, removed := u.su.active.filter (fun i => x.replace.contains (itemSection u i) && !x.staged.any (sameKey i)) }

/-- The state in which a commit is armed (R84, R85). -/
def commitArmed (c : Cmd) (T : LT) (f : BitVec 32) (s : State) : State :=
  let u := withIntent c f s
  modTcu 0 (fun k => { k with en := true, periodic := false, target := T })
    (onSu (fun k => { k with armed := some (commitOf c T f s u) }) (putSession u (issuer c) { getSession s (issuer c) with state := .armed }))

/-- What an accepted SU_COMMIT leaves and answers: with ASYNC its reply at once, else its ring counts a commit whose reply is to come (R74). -/
def commitTaken (c : Cmd) (T : LT) (f : BitVec 32) (s : State) : State × Option ReplyBody :=
  let u := commitArmed c T f s
  if c.async then (u, some { status := .pending, r0 := T })
  else
    match getRing u c.ring with
    | some r => (putRing u c.ring { r with commits := r.commits ++ [c.idx] }, none)
    | none => (u, none)

/-- SU_COMMIT of a session in a state, as its refusals in their order (R74, R84, R94); `T` is the instant asked for. -/
def commitBody (c : Cmd) (T : LT) (f : BitVec 32) (s : State) : State × Option ReplyBody :=
  let x := getSession s (issuer c)
  if x.state = .armed then (s, some (suSt .busy))
  else if x.state ≠ .checked then (s, some (suSt .notReady))
  else if s.su.armed.isSome ∨ s.su.resync then (s, some (suSt .busy))
  else if f ≠ 0 ∧ f ≠ 1 then (s, some (st .badParam))
  else if ltDiff T (commitMin s x.bytes) < 0 ∨ boundaryFrom s T ≠ T ∨ ltDiff T s.now > (secTu 3600 : Int) then
    (s, some { status := .badParam, r0 := boundaryFrom s (commitMin s x.bytes) })
  else if f.getLsbD 0 ∧ ¬persistOk s x then (s, some (st .badParam))
  else if logFull s then (s, some (st .logFull))
  else commitTaken c T f s

/-- The instant that an SU_COMMIT asks for: 0 stands for the first allowed boundary (R84). -/
def commitInstant (s : State) (c : Cmd) (t : LT) : LT :=
  if t = 0 then boundaryFrom s (commitMin s (getSession s (issuer c)).bytes) else t

theorem suCommit_eq (c : Cmd) (t : LT) (f : BitVec 32) (s : State) :
    exec (.suCommit c t f) s = command 0x0012 true c s (fun u => commitBody c (commitInstant u c t) f u) := rfl

theorem suCommit_runs {s : State} {c : Cmd} (h : runs 0x0012 true c s = true) (t : LT) (f : BitVec 32) :
    exec (.suCommit c t f) s = .next (afterBody 0x0012 c (commitBody c (commitInstant s c t) f (entered 0x0012 c s))) := by
  rw [suCommit_eq, command_runs h]
  simp [commitInstant]

/-- What the state after an accepted SU_COMMIT holds of the commit. -/
structure ArmsCommit (c : Cmd) (T : LT) (f : BitVec 32) (s u : State) : Prop where
  armed : u.su.armed = some (commitOf c T f s (withIntent c f s))
  session : (getSession u (issuer c)).state = .armed
  en : (getTcu u 0).en = true
  target : (getTcu u 0).target = T
  once : (getTcu u 0).periodic = false
  replies : u.su.replies = s.su.replies

theorem commitArmed_arms (c : Cmd) (T : LT) (f : BitVec 32) (s : State) : ArmsCommit c T f s (commitArmed c T f s) := by
  have hu : getTcu (commitArmed c T f s) 0 = { getTcu (withIntent c f s) 0 with en := true, periodic := false, target := T } :=
    vget_vmod (withIntent c f s).tb.tcu 0 _ {} (by decide)
  have hs : getSession (commitArmed c T f s) (issuer c) = { getSession s (issuer c) with state := .armed } := getD_put ..
  exact ⟨rfl, by rw [hs], by rw [hu], by rw [hu], by rw [hu], withIntent_replies c f s⟩

theorem ArmsCommit.putRing {c : Cmd} {T : LT} {f : BitVec 32} {s u : State} (h : ArmsCommit c T f s u) (r : RingId) (x : Ring) :
    ArmsCommit c T f s (putRing u r x) := by
  cases r <;> exact ⟨h.armed, h.session, h.en, h.target, h.once, h.replies⟩

theorem commitTaken_arms (c : Cmd) (T : LT) (f : BitVec 32) (s : State) : ArmsCommit c T f s (commitTaken c T f s).1 := by
  have h := commitArmed_arms c T f s
  unfold commitTaken
  dsimp only
  repeat' split
  · exact h
  · exact h.putRing ..
  · exact h

theorem commitTaken_snd (c : Cmd) (T : LT) (f : BitVec 32) (s : State) :
    (commitTaken c T f s).2 = if c.async then some { status := .pending, r0 := T } else none := by
  unfold commitTaken
  dsimp only
  repeat' split
  all_goals rfl

section
variable {s : State} {c : Cmd} {T : LT} {f : BitVec 32}

theorem commitBody_busy (h : (getSession s (issuer c)).state = .armed ∨
      ((getSession s (issuer c)).state = .checked ∧ (s.su.armed.isSome = true ∨ s.su.resync = true))) :
    commitBody c T f s = (s, some (suSt .busy)) := by
  obtain hx | ⟨hx, hb⟩ := h
  · exact if_pos hx
  · exact (if_neg (by simp [hx])).trans ((if_neg (by simp [hx])).trans (if_pos hb))

theorem commitBody_notReady (h : (getSession s (issuer c)).state = .closed ∨ (getSession s (issuer c)).state = .opened) :
    commitBody c T f s = (s, some (suSt .notReady)) := by
  obtain hx | hx := h <;> exact (if_neg (by simp [hx])).trans (if_pos (by simp [hx]))

variable (hx : (getSession s (issuer c)).state = .checked) (ha : s.su.armed = none) (hr : s.su.resync = false)
include hx ha hr

/-- A CHECKED session, with no commit armed and no resynchronisation: what is left are the flags, the instant, PERSIST and the log. -/
theorem commitBody_checked : commitBody c T f s =
    if f ≠ 0 ∧ f ≠ 1 then (s, some (st .badParam))
    else if ltDiff T (commitMin s (getSession s (issuer c)).bytes) < 0 ∨ boundaryFrom s T ≠ T ∨ ltDiff T s.now > (secTu 3600 : Int) then
      (s, some { status := .badParam, r0 := boundaryFrom s (commitMin s (getSession s (issuer c)).bytes) })
    else if f.getLsbD 0 ∧ ¬persistOk s (getSession s (issuer c)) then (s, some (st .badParam))
    else if logFull s then (s, some (st .logFull))
    else commitTaken c T f s :=
  (if_neg (by simp [hx])).trans ((if_neg (by simp [hx])).trans (if_neg (by simp [ha, hr])))

theorem commitBody_badFlags (h0 : f ≠ 0) (h1 : f ≠ 1) : commitBody c T f s = (s, some (st .badParam)) :=
  (commitBody_checked hx ha hr).trans (if_pos ⟨h0, h1⟩)

theorem commitBody_badInstant (hf : f = 0 ∨ f = 1)
    (hT : ltDiff T (commitMin s (getSession s (issuer c)).bytes) < 0 ∨ boundaryFrom s T ≠ T ∨ (secTu 3600 : Int) < ltDiff T s.now) :
    commitBody c T f s = (s, some { status := .badParam, r0 := boundaryFrom s (commitMin s (getSession s (issuer c)).bytes) }) :=
  (commitBody_checked hx ha hr).trans ((if_neg (by tauto)).trans (if_pos hT))

variable (hmin : 0 ≤ ltDiff T (commitMin s (getSession s (issuer c)).bytes)) (hb : boundaryFrom s T = T) (hmax : ltDiff T s.now ≤ (secTu 3600 : Int))
include hmin hb hmax

/-- An allowed instant: what is left are PERSIST and the log. -/
theorem commitBody_allowed (hf : f = 0 ∨ f = 1) : commitBody c T f s =
    if f.getLsbD 0 ∧ ¬persistOk s (getSession s (issuer c)) then (s, some (st .badParam))
    else if logFull s then (s, some (st .logFull))
    else commitTaken c T f s := by
  refine (commitBody_checked hx ha hr).trans ((if_neg (by tauto)).trans (if_neg ?_))
  rintro (h | h | h)
  · exact absurd h (Int.not_lt.mpr hmin)
  · exact h hb
  · exact absurd h (Int.not_lt.mpr hmax)

theorem commitBody_badPersist (hf : f = 1) (hp : persistOk s (getSession s (issuer c)) = false) :
    commitBody c T f s = (s, some (st .badParam)) :=
  (commitBody_allowed hx ha hr hmin hb hmax (.inr hf)).trans (if_pos ⟨by rw [hf]; decide, ne_true_of_eq_false hp⟩)

/-- Allowed flags too: what is left is the log. -/
theorem commitBody_flagged (hf : f = 0 ∨ (f = 1 ∧ persistOk s (getSession s (issuer c)) = true)) :
    commitBody c T f s = if logFull s then (s, some (st .logFull)) else commitTaken c T f s := by
  refine (commitBody_allowed hx ha hr hmin hb hmax (hf.imp_right And.left)).trans (if_neg ?_)
  rintro ⟨h0, hp⟩
  obtain rfl | ⟨-, hp'⟩ := hf
  · exact absurd h0 (by decide)
  · exact hp hp'

theorem commitBody_logFull (hf : f = 0 ∨ (f = 1 ∧ persistOk s (getSession s (issuer c)) = true)) (hl : logFull s = true) :
    commitBody c T f s = (s, some (st .logFull)) := (commitBody_flagged hx ha hr hmin hb hmax hf).trans (if_pos hl)

theorem commitBody_taken (hf : f = 0 ∨ (f = 1 ∧ persistOk s (getSession s (issuer c)) = true)) (hl : logFull s = false) :
    commitBody c T f s = commitTaken c T f s := (commitBody_flagged hx ha hr hmin hb hmax hf).trans (if_neg (ne_true_of_eq_false hl))

end

/-! ## The strobe, the preparation deadline and the selector -/

theorem commitStrobe_idle {s : State} (h : s.su.armed = none ∨ tcuDue s 0 = false) : exec .commitStrobe s = .next s := by
  show execCommitStrobe s = _
  unfold execCommitStrobe
  split
  · rfl
  next a ha =>
    obtain h | h := h
    · rw [h] at ha; nomatch ha
    · exact if_pos (by rw [h]; rfl)

/-- The state after the bank switch of a commit, with the session closed (R80, R87). -/
def commitSwitched (a : ArmedCommit) (s : State) : State :=
  commitSessions a.owner (onSu (fun u => { u with armed := none, resync := true, resyncItems := a.items ++ a.removed })
    (applyCommit a (nextBank s a.items a.removed) (fireTcu 0 s)))

theorem commitStrobe_due {s : State} {a : ArmedCommit} (h : s.su.armed = some a) (hd : tcuDue s 0 = true) :
    exec .commitStrobe s = .next (commitAnswer a (commitRecord a (getSession s a.owner).package (commitSwitched a s))) := by
  show execCommitStrobe s = _
  unfold execCommitStrobe
  rw [h]
  exact if_neg (by simp [hd])

theorem commitSwitched_closes (a : ArmedCommit) (s : State) : (commitSwitched a s).su.sessions.get? a.owner = none := by
  simp [commitSwitched, commitSessions, onSu, Tab.get?, Tab.del, List.find?_map]

theorem commitRecord_su (a : ArmedCommit) (p : Option (BitVec 64)) (s : State) : ∃ k, (commitRecord a p s).su = { s.su with pkg := k } := by
  unfold commitRecord
  dsimp only
  split <;> exact ⟨_, rfl⟩

theorem commitAnswer_su (a : ArmedCommit) (s : State) :
    (commitAnswer a s).su.armed = s.su.armed ∧ (commitAnswer a s).su.resync = s.su.resync ∧ (commitAnswer a s).su.resyncItems = s.su.resyncItems := by
  unfold commitAnswer
  repeat' split
  all_goals simp

theorem commitAnswer_closed {a : ArmedCommit} {s : State} {o : Tag} (h : s.su.sessions.get? o = none) :
    (commitAnswer a s).su.sessions.get? o = none := by
  unfold commitAnswer
  repeat' split
  · exact h
  · rw [raise_su, h]
  · exact get?_sessions_reply h ..

theorem commitStrobe_works {s : State} {a : ArmedCommit} (h : s.su.armed = some a) (hd : tcuDue s 0 = true) :
    ∃ t, exec .commitStrobe s = .next t ∧ t.su.armed = none ∧ t.su.resync = true ∧ t.su.resyncItems = a.items ++ a.removed ∧
      (getSession t a.owner).state = .closed := by
  obtain ⟨k, hk⟩ := commitRecord_su a (getSession s a.owner).package (commitSwitched a s)
  obtain ⟨ha, hr, hi⟩ := commitAnswer_su a (commitRecord a (getSession s a.owner).package (commitSwitched a s))
  refine ⟨_, commitStrobe_due h hd, ?_, ?_, ?_, closed_of_get? (commitAnswer_closed ?_)⟩
  · rw [ha, hk]; rfl
  · rw [hr, hk]; rfl
  · rw [hi, hk]; rfl
  · rw [hk]; exact commitSwitched_closes a s

theorem commitPrepDeadline_idle {s : State} {b : Bool} (h : b = true ∨ s.su.armed = none ∨
      ∃ a, s.su.armed = some a ∧ ltDiff s.now a.t < -(usTu 100 : Int)) : exec (.commitPrepDeadline b) s = .next s := by
  show execCommitPrepDeadline b s = _
  unfold execCommitPrepDeadline
  split
  · rfl
  next a ha =>
    refine if_pos ?_
    obtain h | h | ⟨k, hk, ht⟩ := h
    · simp [h]
    · rw [h] at ha; nomatch ha
    · obtain rfl : k = a := by rw [hk] at ha; exact Option.some.inj ha
      simp [ht]

/-- The state in which a commit is disarmed and its session is CHECKED again (R85). -/
def commitDropped (a : ArmedCommit) (s : State) : State :=
  let u := onGlob (fun g => { g with commitFail := true }) (disarm s)
  putSession u a.owner { getSession u a.owner with state := .checked }

theorem commitPrepDeadline_due {s : State} {a : ArmedCommit} (h : s.su.armed = some a) (ht : -(usTu 100 : Int) ≤ ltDiff s.now a.t) :
    exec (.commitPrepDeadline false) s = .next (commitFailed a 2 0 (commitDropped a s)) := by
  show execCommitPrepDeadline false s = _
  unfold execCommitPrepDeadline
  rw [h]
  exact if_neg (by simpa using ht)

theorem commitFailed_keeps (a : ArmedCommit) (d : BitVec 16) (r : BitVec 64) (s : State) : ReplyKeeps s (commitFailed a d r s) := by
  unfold commitFailed
  split
  · exact raiseArg_keeps ..
  · exact reply_keeps ..

theorem getSession_commitFailed {a : ArmedCommit} (h : a.cmd.fault = .none) (d : BitVec 16) (r : BitVec 64) (s : State) (o : Tag) :
    getSession (commitFailed a d r s) o = getSession s o := by
  unfold commitFailed
  split
  · rw [getSession, raise_su, getSession]
  · exact getSession_reply h ..

theorem commitPrepDeadline_works {s : State} {a : ArmedCommit} (h : s.su.armed = some a) (ht : -(usTu 100 : Int) ≤ ltDiff s.now a.t) :
    ∃ t, exec (.commitPrepDeadline false) s = .next t ∧ t.su.armed = none ∧ (getTcu t 0).en = false ∧ t.glob.commitFail = true ∧
      (a.cmd.fault = .none → (getSession t a.owner).state = .checked) := by
  have hk := commitFailed_keeps a 2 0 (commitDropped a s)
  have hu : getTcu (commitDropped a s) 0 = { getTcu s 0 with en := false } := vget_vmod s.tb.tcu 0 _ {} (by decide)
  refine ⟨_, commitPrepDeadline_due h ht, hk.su_armed.trans rfl, ?_, hk.glob_commitFail.trans rfl, fun hf => ?_⟩
  · rw [getTcu, hk.tb, ← getTcu, hu]
  · rw [getSession_commitFailed hf]
    exact congrArg Session.state (getD_put ..)

theorem bootSelectorWrite_idle {s : State} (h : s.su.pkg.persistDue = none) : exec .bootSelectorWrite s = .next s := by
  show execBootSelectorWrite s = _
  unfold execBootSelectorWrite
  rw [h]

/-- SU's package state once the boot selector is written for a package (R96). -/
def selectedPkg (p : Package) (s : State) : PkgState :=
  { s.su.pkg with
    bootSel := if flashHolds s (!s.su.pkg.bootSel) p then !s.su.pkg.bootSel else s.su.pkg.bootSel
    genMin := if s.su.pkg.genMin.toNat < (pkgGeneration p).toNat then pkgGeneration p else s.su.pkg.genMin
    intent := none
    persistDue := none }

theorem bootSelectorWrite_due {s : State} {p : Package} {t : LT} {i : BitVec 16} {n : Nat} (h : s.su.pkg.persistDue = some (p, t, i, n)) :
    ∃ u, exec .bootSelectorWrite s = .next u ∧ u.su.pkg = selectedPkg p s := by
  refine ⟨logRec 0x0005 0xFF 0 t (BitVec.ofNat 32 (i.toNat + 65536)) (BitVec.ofNat 32 n) (onSu (fun u => { u with pkg := selectedPkg p s }) s), ?_, rfl⟩
  show execBootSelectorWrite s = _
  unfold execBootSelectorWrite
  rw [h]
  rfl

theorem selectedPkg_genMin (p : Package) (s : State) :
    s.su.pkg.genMin.toNat ≤ (selectedPkg p s).genMin.toNat ∧ (pkgGeneration p).toNat ≤ (selectedPkg p s).genMin.toNat := by
  unfold selectedPkg
  dsimp only
  split <;> omega

/-! ## Packages -/

section
variable {s : State} {c : Cmd} {x : List (BitVec 64 × BitVec 64)} {p : Package} {b : Bool} (h : runs 0x0018 false c s = true)
include h

theorem suPkgLoad_badList (hb : x.length = 0 ∨ 4096 < x.length ∨ c.indLen ≠ 16 * x.length ∨ (x.map (·.2.toNat)).sum ≠ p.raw.length) :
    exec (.suPkgLoad c x p b) s = answered 0x0018 c (st .badParam) (entered 0x0018 c s) := by
  show execSuPkgLoad c x p b s = _
  rw [execSuPkgLoad, command_runs h, if_pos hb]
  rfl

variable (hl : 1 ≤ x.length ∧ x.length ≤ 4096) (hi : c.indLen = 16 * x.length) (hr : (x.map (·.2.toNat)).sum = p.raw.length)
include hl hi hr

/-- An extent list that is accepted: what is left are the load that runs and the log (R74, R93). -/
theorem suPkgLoad_list : exec (.suPkgLoad c x p b) s =
    if s.su.pkg.loading.isSome then answered 0x0018 c (st .busy) (entered 0x0018 c s)
    else if b ∧ logFull s then answered 0x0018 c (st .logFull) (entered 0x0018 c s)
    else .next (afterLoad c p b (entered 0x0018 c s)) := by
  show execSuPkgLoad c x p b s = _
  rw [execSuPkgLoad, command_runs h, if_neg (by omega)]
  simp only [entered_su_pkg, logFull_entered]
  repeat' split
  · rfl
  · rfl
  next ha => rw [afterLoad, if_pos ha]; rfl
  next ha => rw [afterLoad, if_neg ha]; rfl

end

theorem pkgVerifyDone_idle {s : State} (h : ∀ p w, s.su.pkg.loading ≠ some (p, .verifying, w)) : exec .pkgVerifyDone s = .next s := by
  show execPkgVerifyDone s = _
  unfold execPkgVerifyDone
  split
  next p w hp => exact absurd hp (h p w)
  · rfl

theorem pkgFlashWriteDone_idle {s : State} (h : ∀ p w, s.su.pkg.loading ≠ some (p, .writing, w)) : exec .pkgFlashWriteDone s = .next s := by
  show execPkgFlashWriteDone s = _
  unfold execPkgFlashWriteDone
  split
  next p w hp => exact absurd hp (h p w)
  · rfl

theorem packageDone_su_pkg (w : Waiting) (b : ReplyBody) (s : State) : (packageDone w b s).su.pkg = { s.su.pkg with loading := none } := by
  unfold packageDone
  dsimp only
  split
  · rw [raise_su]; rfl
  · rw [reply_su_pkg]; rfl

theorem bitN_lt_two (b : Bool) : bitN b < 2 := by cases b <;> decide

/-- The state in which the flash slot that the boot selector does not name holds a package (R93, R96). -/
def pkgStored (p : Package) (s : State) : State :=
  logRec 0x0007 0xFF 0 s.now 0x00000018 0 (onSu (fun u => { u with pkg := { u.pkg with
    stored := true, flash := vmod u.pkg.flash (bitN (!u.pkg.bootSel)) (fun _ => some p) } }) s)

theorem pkgFlashWriteDone_works {s : State} {p : Package} {w : Waiting} (h : s.su.pkg.loading = some (p, .writing, w)) :
    ∃ t, exec .pkgFlashWriteDone s = .next t ∧ t.su.pkg.stored = true ∧ t.su.pkg.loading = none ∧
      t.su.pkg.flash[bitN (!s.su.pkg.bootSel)]? = some (some p) ∧ t.su.pkg.held = s.su.pkg.held := by
  have hk := packageDone_su_pkg w { status := .ok, r0 := pkgId p } (pkgStored p s)
  refine ⟨packageDone w { status := .ok, r0 := pkgId p } (pkgStored p s), ?_, by rw [hk]; rfl, by rw [hk], ?_, by rw [hk]; rfl⟩
  · show execPkgFlashWriteDone s = _
    unfold execPkgFlashWriteDone
    rw [h]
    rfl
  · rw [hk]
    exact getElem_vmod_const _ _ (bitN_lt_two _)

/-- The items that SU_PKG_STAGE leaves in the manager's session: the package's over those of sections it does not cover (R94). -/
def stagedItems (p : Package) (s : State) : List Item :=
  overlay (pkgItems p) ((getSession s 0).staged.filter (fun i => !(pkgKeys p).contains (itemSection s i)))

def stagedBytes (p : Package) (s : State) : Nat := ((stagedItems p s).map Config.itemLen).sum

/-- The manager's session after SU_PKG_STAGE. -/
def stagedPackage (p : Package) (s : State) : Session :=
  let x := getSession s 0
  { x with
    state := .opened, staged := stagedItems p s, replace := pkgKeys p ++ x.replace.filter (fun k => !(pkgKeys p).contains k),
    bytes := stagedBytes p s,
    package := if (x.staged.filter (fun i => !(pkgKeys p).contains (itemSection s i))).isEmpty then some (pkgId p) else none }

section
variable {s : State} {c : Cmd} (h : runs 0x0019 false c s = true)
include h

theorem suPkgStage_notReady (hn : s.su.pkg.held = none ∨ (getSession s 0).state = .closed ∨ (getSession s 0).state = .armed) :
    exec (.suPkgStage c) s = answered 0x0019 c (st .notReady) (entered 0x0019 c s) := by
  show execSuPkgStage c s = _
  rw [execSuPkgStage, command_runs h]
  simp only [entered_su_pkg, getSession_entered]
  cases hp : s.su.pkg.held with
  | none => rfl
  | some p =>
    rw [hp] at hn
    dsimp only
    rw [if_pos (hn.resolve_left nofun)]
    rfl

variable {p : Package} (hp : s.su.pkg.held = some p) (hx : (getSession s 0).state = .opened ∨ (getSession s 0).state = .checked)
include hp hx

/-- A held package and an OPEN or CHECKED session: what is left are BUSY, a bad image and the share of the staging area (R94). -/
theorem suPkgStage_held : exec (.suPkgStage c) s =
    if (pkgKeys p).any (fun k => stageBusy s 0 k.1) then answered 0x0019 c (st .busy) (entered 0x0019 c s)
    else if pkgBadImage p then answered 0x0019 c (st .badParam) (entered 0x0019 c s)
    else if stagingShare s 0 < stagedBytes p s then answered 0x0019 c (st .quota) (entered 0x0019 c s)
    else answered 0x0019 c (st .ok) (putSession (entered 0x0019 c s) 0 (stagedPackage p s)) := by
  show execSuPkgStage c s = _
  rw [execSuPkgStage, command_runs h]
  simp only [entered_su_pkg, getSession_entered, hp, stageBusy_entered, itemSection_entered, stagingShare_entered, gt_iff_lt]
  rw [if_neg (by obtain hx | hx := hx <;> simp [hx])]
  by_cases hb : (pkgKeys p).any (fun k => stageBusy s 0 k.1) = true
  · rw [if_pos hb, if_pos hb]; rfl
  rw [if_neg hb, if_neg hb]
  by_cases hi : pkgBadImage p = true
  · rw [if_pos hi, if_pos hi]; rfl
  rw [if_neg hi, if_neg hi]
  by_cases hq : stagingShare s 0 < stagedBytes p s
  · rw [if_pos hq]
    exact congrArg (fun r => (.next (afterBody 0x0019 c r) : Res)) (if_pos hq)
  · rw [if_neg hq]
    exact congrArg (fun r => (.next (afterBody 0x0019 c r) : Res)) (if_neg hq)

end

/-! ## The obligation -/

section
variable {s : State} {c : Cmd} {t T : LT} {f : BitVec 32} (h : runs 0x0012 true c s = true)
include h

/-- An SU_COMMIT that is refused leaves the session, and answers why. -/
theorem suCommit_refused {b : ReplyBody} (hT : T = commitInstant s c t)
    (hb : commitBody c T f (entered 0x0012 c s) = (entered 0x0012 c s, some b)) :
    exec (.suCommit c t f) s = answered 0x0012 c b (entered 0x0012 c s) := by
  rw [suCommit_runs h, ← hT, hb]
  rfl

variable (hx : (getSession s (issuer c)).state = .checked) (ha : s.su.armed = none) (hr : s.su.resync = false) (hl : logFull s = false)
  (hT : T = commitInstant s c t) (hmin : 0 ≤ ltDiff T (commitMin s (getSession s (issuer c)).bytes)) (hb : boundaryFrom s T = T)
  (hmax : ltDiff T s.now ≤ (secTu 3600 : Int)) (hf : f = 0 ∨ (f = 1 ∧ persistOk s (getSession s (issuer c)) = true))
include hx ha hr hl hT hmin hb hmax hf

/-- An SU_COMMIT that is accepted arms TCU0 with the commit (R84, R85). -/
theorem suCommit_taken :
    exec (.suCommit c t f) s = .next (afterBody 0x0012 c (commitTaken c T f (entered 0x0012 c s))) := by
  rw [suCommit_runs h, ← hT, commitBody_taken] <;> simpa

theorem suCommit_async (hc : c.async = true) :
    exec (.suCommit c t f) s = answered 0x0012 c { status := .pending, r0 := T } (commitTaken c T f (entered 0x0012 c s)).1 := by
  rw [suCommit_taken h hx ha hr hl hT hmin hb hmax hf, afterBody, commitTaken_snd, if_pos hc]
  rfl

theorem suCommit_waits (hc : c.async = false) :
    exec (.suCommit c t f) s = .next (commitTaken c T f (entered 0x0012 c s)).1 := by
  rw [suCommit_taken h hx ha hr hl hT hmin hb hmax hf, afterBody, commitTaken_snd, if_neg (ne_true_of_eq_false hc)]
  exact congrArg _ (if_pos (.inl rfl))

end

/-- Settles O29: SU_COMMIT through its refusals in order and the state it arms, the strobe and the preparation deadline through the state before
their answer, a load and SU_PKG_STAGE through their refusals in order. -/
theorem commitsAndPackagesWork : Obligations.CommitsAndPackagesWork := by
  -- SU_COMMIT accepted
  refine ⟨fun s c t T f h hx ha hr hl hT hmin hb hmax hf hc => ?_, fun s c t T f h hx ha hr hl hT hmin hb hmax hf hc => ?_, ?_⟩
  · obtain ⟨harm, hses, hen, htgt, honce, -⟩ := commitTaken_arms c T f (entered 0x0012 c s)
    exact ⟨_, _, suCommit_async h hx ha hr hl hT hmin hb hmax hf hc, harm, rfl, rfl, by simp [commitOf], rfl, hses, hen, htgt, honce⟩
  · obtain ⟨harm, hses, hen, htgt, honce, hrep⟩ := commitTaken_arms c T f (entered 0x0012 c s)
    exact ⟨_, _, suCommit_waits h hx ha hr hl hT hmin hb hmax hf hc, harm, rfl, rfl, by simp [commitOf], rfl, hses, hen, htgt, honce,
      hrep.trans (by simp)⟩
  -- SU_COMMIT refused
  refine ⟨fun s c t f h hx => suCommit_refused h rfl (commitBody_busy (by simpa using hx)),
    fun s c t f h hx => suCommit_refused h rfl (commitBody_notReady (by simpa using hx)),
    fun s c t f h hx ha hr h0 h1 => suCommit_refused h rfl (commitBody_badFlags (by simpa using hx) (by simpa using ha) (by simpa using hr) h0 h1),
    fun s c t T f h hx ha hr hf hT hbad => ?_, fun s c t T f h hx ha hr hT hmin hb hmax hf hp => ?_,
    fun s c t T f h hx ha hr hT hmin hb hmax hf hl => ?_, ?_⟩
  · refine suCommit_refused h hT ((commitBody_badInstant (by simpa using hx) (by simpa using ha) (by simpa using hr) hf (by simpa using hbad)).trans ?_)
    simp
  · exact suCommit_refused h hT (commitBody_badPersist (by simpa using hx) (by simpa using ha) (by simpa using hr) (by simpa using hmin)
      (by simpa using hb) (by simpa using hmax) hf (by simpa using hp))
  · exact suCommit_refused h hT (commitBody_logFull (by simpa using hx) (by simpa using ha) (by simpa using hr) (by simpa using hmin)
      (by simpa using hb) (by simpa using hmax) (by simpa using hf) (by simpa using hl))
  -- the strobe, the resynchronisation and the preparation deadline
  refine ⟨fun _ _ => commitStrobe_works, fun _ => commitStrobe_idle, fun _ => rfl, fun _ _ => commitPrepDeadline_works,
    fun _ _ => commitPrepDeadline_idle, ?_⟩
  -- SU_PKG_LOAD
  refine ⟨fun s c x p b h hl hi hr hn hb => ?_, fun _ _ _ _ _ h => suPkgLoad_badList h, fun s c x p b h hl hi hr hbad => ?_, ?_⟩
  · rw [suPkgLoad_list h hl hi hr, if_neg (by simp [hn]), if_neg (by rintro ⟨h1, h2⟩; simp [hb h1] at h2)]
  · rw [suPkgLoad_list h hl hi hr]
    by_cases hn : s.su.pkg.loading.isSome = true
    · rw [if_pos hn, if_pos hn]
    · rw [if_neg hn, if_neg hn, if_pos (hbad.resolve_left hn)]
  -- the verification and the flash write
  refine ⟨fun s p w h => ?_, fun _ _ _ => rfl, fun s p h => if_pos (by rw [h]; rfl), fun _ _ _ => pkgFlashWriteDone_works,
    fun _ => pkgFlashWriteDone_idle, fun _ => pkgVerifyDone_idle, ?_⟩
  · show execPkgVerifyDone s = _
    unfold execPkgVerifyDone
    rw [h]
    dsimp only
    cases packageRefusal s p with
    | some e => rfl
    | none => exact (apply_ite Host.Outcome.next (s.su.pkg.loadStore = true) _ _).symm
  -- SU_PKG_STAGE
  refine ⟨fun s c p h hp hx hb hi hq => ?_, fun _ _ h => suPkgStage_notReady h, fun s c p h hp hx hbad => ?_, ?_⟩
  · refine ⟨_, (suPkgStage_held h hp hx).trans ((if_neg (ne_true_of_eq_false hb)).trans ((if_neg (ne_true_of_eq_false hi)).trans
      (if_neg (Nat.not_lt.mpr hq)))), ?_⟩
    have hs : getSession (putSession (entered 0x0019 c s) 0 (stagedPackage p s)) 0 = stagedPackage p s := getD_put ..
    rw [hs]
    exact ⟨rfl, rfl, rfl⟩
  · rw [suPkgStage_held h hp hx]
    by_cases hb : (pkgKeys p).any (fun k => stageBusy s 0 k.1) = true
    · rw [if_pos hb, if_pos hb]
    rw [if_neg hb, if_neg hb]
    by_cases hi : pkgBadImage p = true
    · rw [if_pos hi, if_pos hi]
    rw [if_neg hi, if_neg hi]
    exact if_pos ((hbad.resolve_left hb).resolve_left hi)
  -- SU_PKG_STATUS and the selector
  refine ⟨fun s c h => ?_, fun s p t i n h => ?_, fun _ => bootSelectorWrite_idle⟩
  · exact (answer_runs h _).trans rfl
  · obtain ⟨u, hu, hk⟩ := bootSelectorWrite_due h
    obtain ⟨h1, h2⟩ := selectedPkg_genMin p s
    rw [← hk] at h1 h2
    exact ⟨u, hu, by rw [hk]; rfl, by rw [hk]; rfl, h1, h2, fun hf => by rw [hk]; exact if_pos hf⟩

end Sys2Proof.Machine
end
section
/-! Transmission, MACsec associations and the fabric: each event by the branches of its meaning. -/

namespace Sys2Proof.Machine

/-! ## Ports read after a change -/

theorem px_eq_of_outside {l : List Part} (hl : .px ∉ l) {s t : State} (h : outside l t = outside l s) : t.px = s.px := by
  simpa [outside, hl] using congrArg State.px h

theorem getPx_modPx {p : Nat} (hp : p < 14) (f : PxPort → PxPort) (s : State) : getPx (modPx p f s) p = f (getPx s p) :=
  vget_vmod _ _ _ _ hp

theorem getSw_modSw {p : Nat} (hp : p < 16) (f : SwPort → SwPort) (s : State) : getSw (modSw p f s) p = f (getSw s p) :=
  vget_vmod _ _ _ _ hp

theorem getPx_cellGuard (n : Nat) (o : Tag) (h : GuardHit) (s : State) : getPx (cellGuard o h s) n = getPx s n := by
  rw [getPx, px_eq_of_outside (by decide) (cellGuard_outside (List.Subset.refl _) o h s), getPx]

/-- A counter of a port leaves what it transmits. -/
theorem pxCountBy_txBusy {p : Nat} (hp : p < 14) (k a : Nat) (s : State) : (getPx (pxCountBy p k a s) p).txBusy = (getPx s p).txBusy := by
  rw [pxCountBy, getPx_modPx hp]
  split <;> rfl

/-! ## The start of a frame (R113, R122, R173) -/

/-- No frame of ring forwarding starts on a port: it belongs to no enabled pair, is not idle, or has none that waits. -/
def ringIdle (s : State) (p : Nat) : Prop :=
  enabledPair s p = none ∨ macIdle s p = false ∨ ∀ k, enabledPair s p = some k → startRing k p s = none

/-- Whether the MACs of a fabric port may start its next copy; an internal port has none. -/
def macsFree (s : State) (p : Nat) : Bool :=
  if 14 ≤ p then true else !(txPorts s p).isEmpty && (txPorts s p).all (macIdle s)

theorem macsFree_iff (s : State) (p : Nat) :
    macsFree s p = true ↔ 14 ≤ p ∨ (txPorts s p ≠ [] ∧ (txPorts s p).all (macIdle s) = true) := by simp [macsFree]

/-- What the reading of a copy for transmission leads to: its hand-over, or its discard where it is found in error (R173). -/
def copyRead (p : Nat) (c : Copy) (g : Option GuardFind) (s : State) : State :=
  match guardRead 0x2 g s with
  | (some h, s) => guardDrop p c h (dropCopy p c.cls s)
  | (none, s) =>
    if 14 ≤ p then mirrorCopy 2 p c (modSw p (fun x => { x with sending := some c }) (dropCopy p c.cls s)) else startCopy p c s

section
variable {s : State} {p : Fin 16} (hr : s.sw.ready = true)

theorem transmitStart_notReady (h : s.sw.ready = false) (g : Option GuardFind) : exec (.transmitStart p g) s = .next s :=
  if_pos (by simp [h])

include hr

/-- A frame that waits for ring forwarding goes first (R122). -/
theorem transmitStart_ring {k : Nat} {t : State} (hk : enabledPair s p.val = some k) (hi : macIdle s p.val = true)
    (ht : startRing k p.val s = some t) (g : Option GuardFind) : exec (.transmitStart p g) s = .next t := by
  show execTransmitStart p g s = _
  simp [execTransmitStart, hr, hk, hi, ht]

variable (hn : ringIdle s p.val)
include hn

/-- Where no frame of ring forwarding starts, a port that is free and has nothing in transmission reads its next copy (R113). -/
theorem transmitStart_fabric (g : Option GuardFind) :
    exec (.transmitStart p g) s = .next (if (getSw s p.val).sending.isNone && macsFree s p.val then
      (nextCopy s p.val).elim s (fun c => copyRead p.val c g s) else s) := by
  show execTransmitStart p g s = _
  unfold execTransmitStart
  dsimp only
  rw [if_neg (by simp [hr])]
  split
  next t ht =>
    -- a frame of ring forwarding would start
    split at ht
    next k hk => rcases hn with hn | hn | hn <;> simp [hk, hn] at hn ht
    next => cases ht
  next =>
    cases hs : (getSw s p.val).sending with
    | some _ => rfl
    | none =>
      cases hc : nextCopy s p.val with
      | none => simp
      | some c =>
        rw [Option.isSome_none, if_neg Bool.false_ne_true]
        change (if (!macsFree s p.val) = true then _ else _) = _
        cases macsFree s p.val with
        | false => rfl
        | true =>
          refine (if_neg Bool.false_ne_true).trans ?_
          show _ = Host.Outcome.next (copyRead p.val c g s)
          unfold copyRead
          obtain ⟨_ | h, u⟩ := guardRead 0x2 g s
          · exact (apply_ite Host.Outcome.next ..).symm
          · rfl

theorem transmitStart_next (hs : (getSw s p.val).sending = none) {c : Copy} (hc : nextCopy s p.val = some c)
    (hf : 14 ≤ p.val ∨ (txPorts s p.val ≠ [] ∧ (txPorts s p.val).all (macIdle s) = true)) (g : Option GuardFind) :
    exec (.transmitStart p g) s = .next (copyRead p.val c g s) := by
  rw [transmitStart_fabric hr hn, hs, hc, (macsFree_iff ..).mpr hf]
  rfl

theorem transmitStart_waits (h : (getSw s p.val).sending ≠ none ∨ nextCopy s p.val = none ∨
      ¬(14 ≤ p.val ∨ (txPorts s p.val ≠ [] ∧ (txPorts s p.val).all (macIdle s) = true))) (g : Option GuardFind) :
    exec (.transmitStart p g) s = .next s := by
  rw [transmitStart_fabric hr hn]
  rcases h with h | h | h
  · simp [Option.isNone_eq_false_iff.mpr (Option.isSome_iff_ne_none.mpr h)]
  · simp [h]
  · rw [← macsFree_iff] at h
    simp [h]

end

/-! ## The end of a frame (R167, R173) -/

@[simp] theorem copyDone_px (p : Nat) (s : State) : (copyDone p s).px = s.px := by
  simp only [copyDone, modSw]
  repeat' split
  all_goals rfl

@[simp] theorem copyDone_out (p : Nat) (s : State) : (copyDone p s).out = s.out := by
  simp only [copyDone, modSw]
  repeat' split
  all_goals rfl

theorem txCounters_txBusy {p : Nat} (hp : p < 14) (t : TxFrame) (s : State) : (getPx (txCounters p t s) p).txBusy = (getPx s p).txBusy := by
  unfold txCounters
  dsimp only
  split <;> simp only [pxCount, pxCountBy_txBusy hp]

@[simp] theorem txCounters_out (p : Nat) (t : TxFrame) (s : State) : (txCounters p t s).out = s.out := by
  unfold txCounters
  dsimp only
  split <;> rfl

/-- A corrected error that is met on the way is counted, and the frame ends as without it (R569). -/
theorem transmitEnd_corrected (p : Fin 16) (s : State) :
    exec (.transmitEnd p (some .corrected)) s = exec (.transmitEnd p none) (guardCorrected 0x2 s) := by
  show execTransmitEnd p (some .corrected) s = execTransmitEnd p none (guardCorrected 0x2 s)
  rfl

section
variable {s : State} {p : Fin 16}

theorem transmitEnd_internal (hp : 14 ≤ p.val) (g : Option GuardFind) :
    ∃ t, exec (.transmitEnd p g) s = .next t ∧ (getSw t p.val).sending = none :=
  ⟨_, if_pos hp, by rw [getSw_modSw p.isLt]⟩

variable (hp : p.val < 14)
include hp

theorem transmitEnd_idle (h : (getPx s p.val).txBusy = none) (g : Option GuardFind) :
    exec (.transmitEnd p g) s = .next (guardRead 0x2 g s).2 := by
  have hpx : getPx (guardRead 0x2 g s).2 p.val = getPx s p.val := by
    rw [getPx, px_eq_of_outside (by decide) (guardRead_outside (List.Subset.refl _) 0x2 g s), getPx]
  show execTransmitEnd p g s = _
  simp only [execTransmitEnd, if_neg (Nat.not_le.mpr hp), hpx, h]

variable {t : TxFrame} (ht : (getPx s p.val).txBusy = some t)
include ht

/-- A frame whose last bit has left is sent as it was started, and frees its port. -/
theorem transmitEnd_good : ∃ u, exec (.transmitEnd p none) s = .next u ∧ (getPx u p.val).txBusy = none ∧ u.out = .frame p.val t.frame :: s.out := by
  refine ⟨copyDone p.val (emit (.frame p.val t.frame) (txCounters p.val t (modPx p.val (fun x => { x with txBusy := none }) s))), ?_, ?_, ?_⟩
  · refine (if_neg (Nat.not_le.mpr hp)).trans ?_
    dsimp only [guardRead]
    rw [ht]
  · rw [getPx, copyDone_px, emit_px]
    exact (txCounters_txBusy hp ..).trans (by rw [getPx_modPx hp])
  · simp [modPx]

/-- A frame in which a cell was found in error after the hand-over ends with a bad FCS, and frees its port (R173). -/
theorem transmitEnd_aborted (h : GuardHit) :
    ∃ u, exec (.transmitEnd p (some (.uncorrectable h))) s = .next u ∧ (getPx u p.val).txBusy = none ∧
      .frame p.val { t.frame with fcsOk := false } ∈ u.out := by
  refine ⟨copyDone p.val (emit (.frame p.val { t.frame with fcsOk := false })
    (pxCount p.val 33 (cellGuard 0 h (modPx p.val (fun x => { x with txBusy := none }) s)))), ?_, ?_, ?_⟩
  · refine (if_neg (Nat.not_le.mpr hp)).trans ?_
    dsimp only [guardRead]
    rw [ht]
  · rw [getPx, copyDone_px, emit_px]
    exact (pxCountBy_txBusy hp ..).trans (by rw [getPx_cellGuard, getPx_modPx hp])
  · simp

end

/-! ## Copies that cross the fabric (R162, R173) -/

section
variable {s : State} {p : Fin 16} {k : Fin 8} {c : Copy}
  (hc : (vget (getSw s p.val).queues k.val []).find? (fun c => !c.queued) = some c)
include hc

/-- The oldest copy that crosses is marked as queued where it has crossed stage 1; it keeps its place. -/
theorem transmitQueueEntry_crossed (hx : ltReached s.now c.cross1 = true) {g : Option GuardFind} (hg : g = none ∨ g = some .corrected) :
    ∃ t, exec (.transmitQueueEntry p k g) s = .next t ∧
      ∀ i, (vget (getSw s p.val).queues k.val []).findIdx? (fun c => !c.queued) = some i →
        vget (getSw t p.val).queues k.val [] = (vget (getSw s p.val).queues k.val []).set i { c with queued := true } := by
  show ∃ t, execTransmitQueueEntry p k g s = .next t ∧ _
  have hgood : (guardRead 0x2 g s).1 = none := congrArg Prod.fst (guardRead_good hg 0x2 s)
  simp only [execTransmitQueueEntry, hc, hx, hgood, Bool.not_true, Bool.false_and, Bool.false_eq_true, if_false]
  refine ⟨_, rfl, fun i hi => ?_⟩
  rw [getSw_modSw p.isLt, vget_vmod _ _ _ _ k.isLt, hi]

theorem transmitQueueEntry_bad (h : GuardHit) :
    exec (.transmitQueueEntry p k (some (.uncorrectable h))) s = .next (guardDrop p.val c h (modSw p.val (fun x => { x with
      queues := vmod x.queues k.val (fun _ => (vget (getSw s p.val).queues k.val []).eraseP (fun c => !c.queued)) }) (notePeak c.mid s))) := by
  show execTransmitQueueEntry p k _ s = _
  simp only [execTransmitQueueEntry, hc, guardRead, Option.isNone_some, Bool.and_false, Bool.false_eq_true, if_false]

theorem transmitQueueEntry_crossing (hx : ltReached s.now c.cross1 = false) : exec (.transmitQueueEntry p k none) s = .next s := by
  show execTransmitQueueEntry p k _ s = _
  simp only [execTransmitQueueEntry, hc, hx, Bool.not_false, Option.isNone_none, Bool.and_self, if_true]

omit hc in
theorem transmitQueueEntry_none (h : (vget (getSw s p.val).queues k.val []).find? (fun c => !c.queued) = none) (g : Option GuardFind) :
    exec (.transmitQueueEntry p k g) s = .next s := by
  show execTransmitQueueEntry p k _ s = _
  simp only [execTransmitQueueEntry, h]

end

/-! ## HOLD and MAX_AGE (R171, R172) -/

section
variable {s : State} {p : Fin 14}

theorem holdExpiry_held {t : LT} (hl : (getSw s p.val).link = .hold) (ht : (getSw s p.val).holdAt = some t) (hx : ltReached s.now t = true)
    (b : Bool) : exec (.holdExpiry p b) s = .next (if b then fabricLinkUp p.val s else enterDown p.val s) := by
  show execHoldExpiry p b s = _
  simp [execHoldExpiry, hl, ht, hx]

/-- A link that comes back from HOLD leaves its queues as they are (R171). -/
theorem fabricLinkUp_held (hl : (getSw s p.val).link = .hold) :
    (getSw (fabricLinkUp p.val s) p.val).link = .up ∧ (getSw (fabricLinkUp p.val s) p.val).queues = (getSw s p.val).queues := by
  have hp : p.val < 16 := by omega
  simp [fabricLinkUp, hl, getSw_modSw hp]

theorem holdExpiry_idle (h : (getSw s p.val).link ≠ .hold ∨ ∀ t, (getSw s p.val).holdAt = some t → ltReached s.now t = false) (b : Bool) :
    exec (.holdExpiry p b) s = .next s := by
  show execHoldExpiry p b s = _
  unfold execHoldExpiry
  dsimp only
  split
  next t hl ht =>
    rw [(h.resolve_left (not_not.mpr hl)) t ht]
    rfl
  next => rfl

variable {k : Fin 8}

theorem maxAgeExpiry_aged {c : Copy} (hc : (vget (getSw s p.val).queues k.val []).find? (·.queued) = some c)
    (ha : (limitsOf s p.val k.val).maxAge ≠ 0) (hl : (getSw s p.val).link = .up ∨ (getSw s p.val).link = .hold)
    (ht : (usTu (10 * (limitsOf s p.val k.val).maxAge) : Int) < ltDiff s.now c.admitted) :
    exec (.maxAgeExpiry p k) s = .next (mirrorCopy 7 p.val c (pxCount p.val 34 (dropCopy p.val k.val s))) := by
  show execMaxAgeExpiry p k s = _
  unfold execMaxAgeExpiry
  dsimp only
  rw [hc]
  refine if_neg ?_
  rintro (h | h | h | h)
  · exact ha h
  · rcases hl with hl | hl <;> simp [hl] at h
  · rcases hl with hl | hl <;> simp [hl] at h
  · omega

theorem maxAgeExpiry_idle (h : (limitsOf s p.val k.val).maxAge = 0 ∨ (getSw s p.val).link = .down ∨ (getSw s p.val).link = .disabled ∨
      ∀ c, (vget (getSw s p.val).queues k.val []).find? (·.queued) = some c →
        ltDiff s.now c.admitted ≤ (usTu (10 * (limitsOf s p.val k.val).maxAge) : Int)) :
    exec (.maxAgeExpiry p k) s = .next s := by
  show execMaxAgeExpiry p k s = _
  unfold execMaxAgeExpiry
  dsimp only
  split
  next => rfl
  next c hc => exact if_pos (h.imp_right (Or.imp_right (Or.imp_right fun h => h c hc)))

end

/-! ## The mirror ring (R174) -/

section
variable {s : State} {v : BitVec 32}

theorem mirrorEnable_on (hr : s.glob.ready = true) (hv : v.getLsbD 0 = true) (he : s.sw.mirEn = false) :
    exec (.mirrorEnable v) s = .next { s with sw := { s.sw with
      mirEn := decide (6 ≤ s.sw.mirSize.toNat ∧ s.sw.mirSize.toNat ≤ 16), mirHead := 0, mirRelease := 0 } } :=
  (if_neg (by simp [hr])).trans ((if_neg (by simp [hv])).trans (if_neg (by simp [he])))

theorem mirrorEnable_off (hr : s.glob.ready = true) (hv : v.getLsbD 0 = false) :
    exec (.mirrorEnable v) s = .next { s with sw := { s.sw with mirEn := false } } :=
  (if_neg (by simp [hr])).trans (if_pos (by rw [hv]; rfl))

theorem mirrorEnable_idle (h : s.glob.ready = false ∨ (v.getLsbD 0 = true ∧ s.sw.mirEn = true)) : exec (.mirrorEnable v) s = .next s := by
  by_cases hr : s.glob.ready = true
  · obtain ⟨hv, he⟩ := h.resolve_left (by simp [hr])
    exact (if_neg (by simp [hr])).trans ((if_neg (by simp [hv])).trans (if_pos he))
  · exact if_pos (by simp [hr])

end

/-! ## MACsec associations (R127, R489) -/

section
variable {s : State} {c : Cmd} {p : Fin 6} (h : runs 0x0210 false c s = true)
include h

theorem pxMacsecSaSet_refused {x : MacsecSa} {e : Status} (hk : keyRefusal (entered 0x0210 c s) x.slot.toNat (16 + p.val) = some e)
    (k : Option (Fin 8)) (a : Fin 4) : exec (.pxMacsecSaSet c p k a (some x)) s = answered 0x0210 c (st e) (entered 0x0210 c s) :=
  command_answered h (by dsimp only; rw [hk])

theorem pxMacsecSaSet_tx {x : MacsecSa} (hk : keyRefusal (entered 0x0210 c s) x.slot.toNat (16 + p.val) = none) (a : Fin 4) :
    exec (.pxMacsecSaSet c p none a (some x)) s = answered 0x0210 c (st .ok)
      (modPx p.val (fun y => { y with txSa := y.txSa.put a.val (installSa (entered 0x0210 c s) x) }) (entered 0x0210 c s)) :=
  command_answered h (by dsimp only; rw [hk])

theorem pxMacsecSaSet_rx {x : MacsecSa} (hk : keyRefusal (entered 0x0210 c s) x.slot.toNat (16 + p.val) = none) (k : Fin 8) (a : Fin 4) :
    exec (.pxMacsecSaSet c p (some k) a (some x)) s = answered 0x0210 c (st .ok)
      (modPx p.val (fun y => { y with rxSa := y.rxSa.put (k.val, a.val) (installSa (entered 0x0210 c s) x) }) (entered 0x0210 c s)) :=
  command_answered h (by dsimp only; rw [hk])

theorem pxMacsecSaSet_txRemoved (a : Fin 4) :
    exec (.pxMacsecSaSet c p none a none) s =
      answered 0x0210 c (st .ok) (modPx p.val (fun y => { y with txSa := y.txSa.del a.val }) (entered 0x0210 c s)) := by
  show execPxMacsecSaSet c p none a none s = _
  exact command_answered h rfl

theorem pxMacsecSaSet_rxRemoved (k : Fin 8) (a : Fin 4) :
    exec (.pxMacsecSaSet c p (some k) a none) s =
      answered 0x0210 c (st .ok) (modPx p.val (fun y => { y with rxSa := y.rxSa.del (k.val, a.val) }) (entered 0x0210 c s)) := by
  show execPxMacsecSaSet c p (some k) a none s = _
  exact command_answered h rfl

end

theorem pxMacsecTxAn_set {s : State} {c : Cmd} (h : runs 0x0211 false c s = true) (p : Fin 6) (a : Fin 4) :
    exec (.pxMacsecTxAn c p a) s =
      answered 0x0211 c (st .ok) (modPx p.val (fun y => { y with txAn := BitVec.ofNat 2 a.val }) (entered 0x0211 c s)) := by
  show execPxMacsecTxAn c p a s = _
  exact command_answered h rfl

/-! ## The forwarding database read (R181) -/

theorem swFdbRead_entries {s : State} {c : Cmd} (h : runs 0x0312 false c s = true) :
    exec (.swFdbRead c) s = answered 0x0312 c { buf := .recs (((entered 0x0312 c s).sw.fdb.take (c.bufLen / 16)).map
      (fun e => [e.mac.toNat, e.vid.toNat, e.mask.toNat, bitN e.static])) } (entered 0x0312 c s) := by
  show execSwFdbRead c s = _
  rw [execSwFdbRead, answer_runs h, entered_sw]

/-- Settles O31: each event by the branches of its meaning, each command by its body's answer. -/
theorem transmissionAndFabric : Obligations.TransmissionAndFabric := by
  refine ⟨fun _ _ g _ _ hr hk hi ht => transmitStart_ring hr hk hi ht g, fun s p c g hr hn hf hs hc hg => ?_,
    fun s p c h hr hn hf hs hc => ?_, fun s p g h => ?_,
    fun _ _ _ hp ht => transmitEnd_good hp ht, fun _ _ _ h hp ht => transmitEnd_aborted hp ht h, fun s p _ _ _ => transmitEnd_corrected p s,
    fun _ _ g hp h => transmitEnd_idle hp h g, fun _ _ g hp => transmitEnd_internal hp g, ?_⟩
  · rw [transmitStart_next hr hn hs hc hf, copyRead, guardRead_good hg]
  · rw [transmitStart_next hr hn hs hc hf]
    rfl
  · cases hr : s.sw.ready
    · exact transmitStart_notReady hr g
    · obtain ⟨hn, hw⟩ := h.resolve_left (by simp [hr])
      exact transmitStart_waits hr hn hw g
  -- MACsec
  refine ⟨fun _ _ _ a _ h hk => pxMacsecSaSet_tx h hk a, fun _ _ _ k a _ h hk => pxMacsecSaSet_rx h hk k a,
    fun _ _ _ a k _ _ h hk => pxMacsecSaSet_refused h hk k a, fun _ _ _ a h => pxMacsecSaSet_txRemoved h a,
    fun _ _ _ k a h => pxMacsecSaSet_rxRemoved h k a, fun _ _ p a h => pxMacsecTxAn_set h p a, ?_⟩
  -- the fabric
  refine ⟨fun _ _ _ _ _ hc hx hg => transmitQueueEntry_crossed hc hx hg, fun _ _ _ _ h hc => transmitQueueEntry_bad hc h, fun _ _ _ g h => ?_,
    fun s p t hl ht hx => ⟨holdExpiry_held hl ht hx false, _, holdExpiry_held hl ht hx true, fabricLinkUp_held hl⟩,
    fun _ _ b h => holdExpiry_idle h b, fun _ _ _ _ hc ha hl ht => maxAgeExpiry_aged hc ha hl ht, fun _ _ _ h => maxAgeExpiry_idle h,
    fun _ => rfl, fun _ _ hr hv he => mirrorEnable_on hr hv he, fun _ _ hr hv => mirrorEnable_off hr hv, fun _ _ h => mirrorEnable_idle h,
    fun _ _ h => swFdbRead_entries h⟩
  obtain h | ⟨rfl, c, hc, hx⟩ := h
  · exact transmitQueueEntry_none h g
  · exact transmitQueueEntry_crossing hc hx

end Sys2Proof.Machine
end
section
/-! The cabinet bus: its cycle, the frames on a segment, and its mode, each event by the branches of its meaning. -/

namespace Sys2Proof.Machine

/-! ## Segments read after a change -/

theorem getSeg_modSeg {g : Nat} (hg : g < 2) (f : Segment → Segment) (s : State) : getSeg (modSeg g f s) g = f (getSeg s g) :=
  vget_vmod _ _ _ _ hg

theorem getSeg_modStn {g : Nat} (hg : g < 2) (k : Nat) (f : Station → Station) (s : State) :
    getSeg (modStn g k f s) g = { getSeg s g with stn := vmod (getSeg s g).stn k f } :=
  getSeg_modSeg hg _ s

theorem getSeg_raiseArg (n : Nat) (o : Tag) (a : BitVec 32) (g : Nat) (s : State) : getSeg (raiseArg n o a s) g = getSeg s g := by
  rw [getSeg, raiseArg_fo, getSeg]

/-! ## A frame heard (R134) -/

/-- The frame is one of the segment's protocol: of its EtherType and of a message type. -/
abbrev CabKnown (s : State) (g : Fin 2) (f : Frame) : Prop :=
  (readCab f.bytes).etype = (getSeg s g.val).cfg.etype ∧ (readCab f.bytes).type ≠ .reserved

theorem cabKnown_iff (s : State) (g : Fin 2) (f : Frame) :
    CabKnown s g f ↔ ((readCab f.bytes).etype == (getSeg s g.val).cfg.etype && (readCab f.bytes).type != .reserved) = true := by
  simp [CabKnown]

/-- The passage of a good frame through the receive queue of its segment (R182). -/
abbrev cabQueued (g : Fin 2) (t : LT) (f : Frame) (s : State) : Bool × State :=
  viaQueue (0x16 + g.val) (noticeBytes s (0x16 + g.val) t (rxStatusWord 0 0 f.codeErr false false) (0x10 + g.val) 0 0 false) f.bytes s

section
variable {g : Fin 2} {type : CabType} {t : LT} {f : Frame} {k : CabFrame → State → State} {s u : State}

theorem hearCab_disabled (he : (getSeg s g.val).cfg.en = false) : hearCab g type t f k s = .next s :=
  if_pos (by rw [he]; rfl)

theorem hearCab_bad (he : (getSeg s g.val).cfg.en = true) (hr : rxClass f.len 1536 f.fcsOk ≠ .good) :
    hearCab g type t f k s = .next (cabDiscard g.val s) :=
  (if_neg (by simp [he])).trans (if_pos hr)

section
variable (he : (getSeg s g.val).cfg.en = true) (hr : rxClass f.len 1536 f.fcsOk = .good)
include he hr

theorem hearCab_otherRow (hk : CabKnown s g f) (ht : (readCab f.bytes).type ≠ type) : hearCab g type t f k s = .next s :=
  (if_neg (by simp [he])).trans ((if_neg (not_not.mpr hr)).trans (if_pos (by rw [(cabKnown_iff ..).mp hk]; simpa using ht)))

/-- A frame that is not of the protocol, or is of the row's message type, goes through the queue. -/
theorem hearCab_queued {b : Bool} (hq : cabQueued g t f s = (b, u)) (ht : ¬CabKnown s g f ∨ (readCab f.bytes).type = type) :
    hearCab g type t f k s = .next (bif b then (if CabKnown s g f then k (readCab f.bytes) u else cabDiscard g.val u) else u) := by
  have ho : ¬((((readCab f.bytes).etype == (getSeg s g.val).cfg.etype && (readCab f.bytes).type != .reserved) &&
      (readCab f.bytes).type != type) = true) := by
    rw [Bool.and_eq_true, ← cabKnown_iff, bne_iff_ne]
    tauto
  refine (if_neg (by simp [he])).trans ((if_neg (not_not.mpr hr)).trans ((if_neg ho).trans ?_))
  rw [cabQueued] at hq
  rw [hq]
  cases b with
  | false => rfl
  | true => simp only [← cabKnown_iff, cond_true]

theorem hearCab_notKnown (hk : ¬CabKnown s g f) (hq : cabQueued g t f s = (true, u)) :
    hearCab g type t f k s = .next (cabDiscard g.val u) :=
  (hearCab_queued he hr hq (.inl hk)).trans (congrArg _ (if_neg hk))

theorem hearCab_known (hk : CabKnown s g f) (ht : (readCab f.bytes).type = type) (hq : cabQueued g t f s = (true, u)) :
    hearCab g type t f k s = .next (k (readCab f.bytes) u) :=
  (hearCab_queued he hr hq (.inr ht)).trans (congrArg _ (if_pos hk))

end

/-- A frame heard on its segment is taken in the state after its queue. -/
theorem hearCab_heard (h : cabHeard g type t f s = some u) : hearCab g type t f k s = .next (k (readCab f.bytes) u) := by
  unfold cabHeard at h
  dsimp only at h
  split at h
  next hc =>
    obtain ⟨he, hr, hety, hty, hres⟩ := hc
    split at h
    next v hq =>
      obtain rfl := Option.some.inj h
      exact hearCab_known he hr ⟨hety, hty ▸ hres⟩ hty hq
    next => cases h
  next => cases h

end

/-- What every frame heard answers, the three rows of frames answer, each for its own message type. -/
theorem frameRows_of_hearCab {p : CabType → Res → Prop} {g : Fin 2} {f : Frame} {t : LT} {s : State}
    (h : ∀ type k, p type (hearCab g type t f k s)) :
    p .report (exec (.reportReceive g f t) s) ∧ p .announce (exec (.announceReceive g f t) s) ∧ p .image (exec (.imageReceive g f t) s) := by
  show p .report (execReportReceive g f t s) ∧ p .announce (execAnnounceReceive g f t s) ∧ p .image (execImageReceive g f t s)
  exact ⟨h .report _, h .announce _, h .image _⟩

/-! ## Reports (R139, R144–R149) -/

section
variable {s u : State} {g : Fin 2} {f : Frame} {t : LT} (h : cabHeard g .report t f s = some u)
include h

theorem reportReceive_unassigned (hs : stnCfg u g.val (readCab f.bytes).node = none ∨
      (vget (getSeg u g.val).stn (readCab f.bytes).node {}).state = .unassigned) :
    exec (.reportReceive g f t) s = .next (cabDiscard g.val u) := by
  show execReportReceive g f t s = _
  rw [execReportReceive, hearCab_heard h]
  dsimp only
  split
  next => rfl
  next c hc => exact congrArg _ (if_pos (hs.resolve_left (by simp [hc])))

variable {c : StnCfg} (hc : stnCfg u g.val (readCab f.bytes).node = some c)
  (ha : (vget (getSeg u g.val).stn (readCab f.bytes).node {}).state ≠ .unassigned)
include hc ha

theorem reportReceive_second (hr : (vget (getSeg u g.val).stn (readCab f.bytes).node {}).reported = true) :
    exec (.reportReceive g f t) s = .next (modSeg g.val (fun x => { x with dupCtr := satInc x.dupCtr }) u) := by
  show execReportReceive g f t s = _
  rw [execReportReceive, hearCab_heard h]
  simp only [hc, if_neg ha, if_pos hr]

variable (hr : (vget (getSeg u g.val).stn (readCab f.bytes).node {}).reported = false)
include hr

theorem reportReceive_accepted (hl : (readCab f.bytes).data.length = c.ilen) :
    exec (.reportReceive g f t) s = .next (takeReport g c (readCab f.bytes) t u) := by
  show execReportReceive g f t s = _
  rw [execReportReceive, hearCab_heard h]
  simp only [hc, if_neg ha, hr, Bool.false_eq_true, if_false, if_neg (not_not.mpr hl)]

theorem reportReceive_otherLength (hl : (readCab f.bytes).data.length ≠ c.ilen) :
    ∃ v, exec (.reportReceive g f t) s = .next v ∧ (getSeg v g.val).mismatch = true ∧
      (getSeg v g.val).discarded = satInc (getSeg u g.val).discarded := by
  show ∃ v, execReportReceive g f t s = .next v ∧ _
  simp only [execReportReceive, hearCab_heard h, hc, if_neg ha, hr, Bool.false_eq_true, if_false, if_pos hl]
  refine ⟨_, rfl, ?_⟩
  simp only [getSeg_modStn g.isLt, cabDiscard, getSeg_modSeg g.isLt, and_self]

end

/-! ## Announcements and images (R135, R144) -/

section
variable {s u : State} {g : Fin 2} {f : Frame} {t : LT}

/-- The announcement shows what is staged for its node (R144). -/
abbrev AnnounceFits (c : StnCfg) (a : CabFrame) : Prop :=
  c.vendor = a.vendor ∧ c.model = a.model ∧ c.ilen ≤ a.ilenMax ∧ c.olen ≤ a.olenMax

theorem announceReceive_match {c : StnCfg} (h : cabHeard g .announce t f s = some u) (hc : stnCfg u g.val (readCab f.bytes).node = some c)
    (hm : AnnounceFits c (readCab f.bytes)) {v : State}
    (hv : v = modStn g.val (readCab f.bytes).node (fun y => { y with
      mac := (readCab f.bytes).src, reportedOnce := false, state := if y.state = .unassigned then .absent else y.state }) u) :
    exec (.announceReceive g f t) s = .next (reassign g (getSeg u g.val) (sendCab g (assignFrame v g c (readCab f.bytes).src) v)) := by
  subst hv
  show execAnnounceReceive g f t s = _
  rw [execAnnounceReceive, hearCab_heard h]
  simp only [hc, decide_eq_true hm]

theorem announceReceive_mismatch (h : cabHeard g .announce t f s = some u)
    (hm : ∀ c, stnCfg u g.val (readCab f.bytes).node = some c → ¬AnnounceFits c (readCab f.bytes)) :
    ∃ v, exec (.announceReceive g f t) s = .next v ∧ (getSeg v g.val).mismatch = true := by
  refine ⟨raiseArg 0x76 0 (BitVec.ofNat 32 (256 * g.val + (readCab f.bytes).node))
    (modStn g.val (readCab f.bytes).node (fun y => { y with mismatch := true }) (modSeg g.val (fun x => { x with mismatch := true }) u)),
    ?_, ?_⟩
  · show execAnnounceReceive g f t s = _
    rw [execAnnounceReceive, hearCab_heard h]
    dsimp only
    cases hc : stnCfg u g.val (readCab f.bytes).node with
    | none => rfl
    | some c => simp only [decide_eq_false (hm c hc)]
  · rw [getSeg_raiseArg, getSeg_modStn g.isLt, getSeg_modSeg g.isLt]

theorem getSeg_lastImageAt (g : Nat) (a : Option Nat) (s : State) : getSeg (onFo (fun x => { x with lastImageAt := a }) s) g = getSeg s g := rfl

/-- An image is noted with its claim; only a unit that is not node 0 follows its cycle number and its mode (R135). -/
theorem imageReceive_heard (h : cabHeard g .image t f s = some u) :
    ∃ v, exec (.imageReceive g f t) s = .next v ∧ v.fo.lastImageAt = some u.abs ∧
      (getSeg v g.val).heard = (getSeg u g.val).heard.put (readCab f.bytes).claim u.abs ∧
      (getSeg v g.val).cycle = (if (getSeg u g.val).coord then (getSeg u g.val).cycle else (readCab f.bytes).cycle) ∧
      ((getSeg u g.val).coord = false →
        ((getSeg u g.val).slotted ≠ (readCab f.bytes).slotted ∨ (getSeg u g.val).reason ≠ (readCab f.bytes).reason) →
        (getSeg v g.val).nextMode = some ((readCab f.bytes).slotted, (readCab f.bytes).reason)) := by
  show ∃ v, execImageReceive g f t s = .next v ∧ _
  rw [execImageReceive, hearCab_heard h]
  simp only [getSeg_modSeg g.isLt, getSeg_lastImageAt]
  refine ⟨_, rfl, ?_⟩
  cases hco : (getSeg u g.val).coord with
  | true =>
    simp only [if_true, getSeg_modSeg g.isLt, getSeg_lastImageAt, reduceCtorEq, false_implies, and_true]
    exact ⟨rfl, rfl⟩
  | false =>
    simp only [Bool.false_eq_true, if_false, getSeg_modSeg g.isLt, getSeg_lastImageAt, true_and]
    exact ⟨rfl, rfl, fun _ hch => if_pos (by simpa using hch)⟩

end

/-! ## The cycle, and what is sent in it (R136, R137, R140, R147) -/

section
variable {s : State}

theorem cabinetCycleStart_due (h : tcuDue s 4 = true) :
    exec .cabinetCycleStart s = .next (segTick (ltSub (nextTarget s.now (getTcu s 4).target (getTcu s 4).period.toNat) (getTcu s 4).period.toNat) 1
      (segTick (ltSub (nextTarget s.now (getTcu s 4).target (getTcu s 4).period.toNat) (getTcu s 4).period.toNat) 0 (fireTcu 4 s))) :=
  if_neg (by rw [h]; decide)

theorem cabinetCycleStart_idle (h : tcuDue s 4 = false) : exec .cabinetCycleStart s = .next s := if_pos (by rw [h]; rfl)

variable {g : Fin 2}

/-- The image may start: the unit is node 0 of an enabled segment with the gate open, and in normal mode t0 + 10 µs has come. -/
def MaySend (s : State) (g : Fin 2) : Prop :=
  (getSeg s g.val).cfg.en = true ∧ s.fo.gateOpen = true ∧ (getSeg s g.val).coord = true ∧
    ((getSeg s g.val).slotted = true ∨ ltReached s.now (ltAdd (getSeg s g.val).t0 (usTu 10)) = true)

/-- The state in which the image leaves: it is no longer to be sent, and the end of its transmission is known. -/
def imageStarted (g : Fin 2) (f : CabFrame) (s : State) : State :=
  modSeg g.val (fun x => { x with
    image := none
    lateImage := x.lateImage || (!(getSeg s g.val).slotted && decide (0 < ltDiff s.now (ltAdd (getSeg s g.val).t0 (usTu 20))))
    imageEnd := some (ltAdd s.now (busTime (cabLen (cabPayload f).length))) }) s

theorem imageTransmit_sends {f : CabFrame} (hi : (getSeg s g.val).image = some f) (h : MaySend s g) :
    exec (.imageTransmit g) s = .next
      (if (getSeg s g.val).slotted && (getSeg s g.val).cfg.stations.any (fun c => (vget (getSeg s g.val).stn c.node {}).state != .present) then
        sendCab g (unitFrame (sendCab g f (imageStarted g f s)) g .discover) (sendCab g f (imageStarted g f s))
      else sendCab g f (imageStarted g f s)) := by
  obtain ⟨he, hg, hco, ht⟩ := h
  show execImageTransmit g s = _
  unfold execImageTransmit
  dsimp only
  rw [hi]
  exact if_neg (by simpa [he, hg, hco, or_iff_not_imp_left] using ht)

theorem imageTransmit_waits (h : (getSeg s g.val).image = none ∨ ¬MaySend s g) : exec (.imageTransmit g) s = .next s := by
  show execImageTransmit g s = _
  unfold execImageTransmit
  dsimp only
  split
  next => rfl
  next f hi =>
    refine if_pos ?_
    by_contra hn
    refine h.resolve_left (by simp [hi]) ?_
    simpa [MaySend, imp_iff_not_or] using hn

end

/-! ## Missed reports (R147) -/

/-- The slot of a station has ended. -/
def slotPassed (s : State) (g : Fin 2) (c : StnCfg) : Bool :=
  match slotEnd s g.val c with
  | some t => ltReached s.now t
  | none => false

section
variable {s : State} {g : Fin 2} {k : Fin 32}

theorem stationAbsent_counted {c : StnCfg} (hc : stnCfg s g.val k.val = some c) (hp : slotPassed s g c = true)
    (he : (getSeg s g.val).cfg.en = true) (hs : (getSeg s g.val).slotted = false) (hm : (getSeg s g.val).modeChanged = false)
    (hr : (vget (getSeg s g.val).stn k.val {}).reported = false) (hmc : (vget (getSeg s g.val).stn k.val {}).missCounted = false)
    (hst : (vget (getSeg s g.val).stn k.val {}).state = .present ∨ (vget (getSeg s g.val).stn k.val {}).state = .resyncPending)
    (hn : (getSeg s g.val).cfg.n ≤ (vget (getSeg s g.val).stn k.val {}).missed + 1) :
    exec (.stationAbsent g k) s = .next (countMiss g.val k.val s) := by
  show execStationAbsent g k s = _
  unfold execStationAbsent
  dsimp only
  rw [hc]
  refine if_neg ?_
  change ¬(_ ∨ _ ∨ _ ∨ _ ∨ _ ∨ _ ∨ _ ∨ (!slotPassed s g c) = true)
  rw [he, hs, hm, hr, hmc, hp]
  simpa [or_iff_not_imp_left] using And.intro hst hn

theorem stationAbsent_idle
    (h : stnCfg s g.val k.val = none ∨ (∃ c, stnCfg s g.val k.val = some c ∧ slotPassed s g c = false) ∨ (getSeg s g.val).cfg.en = false ∨
      (getSeg s g.val).slotted = true ∨ (getSeg s g.val).modeChanged = true ∨ (vget (getSeg s g.val).stn k.val {}).reported = true ∨
      (vget (getSeg s g.val).stn k.val {}).missCounted = true ∨
      ¬((vget (getSeg s g.val).stn k.val {}).state = .present ∨ (vget (getSeg s g.val).stn k.val {}).state = .resyncPending) ∨
      (vget (getSeg s g.val).stn k.val {}).missed + 1 < (getSeg s g.val).cfg.n) :
    exec (.stationAbsent g k) s = .next s := by
  show execStationAbsent g k s = _
  unfold execStationAbsent
  dsimp only
  split
  next => rfl
  next c hc =>
    refine if_pos ?_
    change _ ∨ _ ∨ _ ∨ _ ∨ _ ∨ _ ∨ _ ∨ (!slotPassed s g c) = true
    rcases h with h | ⟨d, hd, hp⟩ | h
    · simp [hc] at h
    · obtain rfl : c = d := Option.some.inj (hc.symm.trans hd)
      simp [hp]
    · simp only [Bool.not_eq_true', Bool.or_eq_false_iff, beq_eq_false_iff_ne, ← not_or]
      tauto

end

/-! ## Collisions, and the end of the start-up mode (R141) -/

section
variable {s : State} {g : Fin 2}

theorem collision_counted (he : (getSeg s g.val).cfg.en = true) :
    ∃ t, exec (.collision g) s = .next t ∧ (getSeg t g.val).collCtr = satInc (getSeg s g.val).collCtr ∧
      ((getSeg s g.val).slotted = false →
        3 < ((getSeg s g.val).collisions.filter (fun c => decide (((getSeg s g.val).cycle - c).toNat < 16))).length →
        (getSeg t g.val).nextMode = some (true, .recovery)) := by
  refine ⟨_, if_neg (by simp [he]), ?_⟩
  rw [getSeg_modSeg g.isLt]
  refine ⟨rfl, fun hs hl => if_pos ?_⟩
  simp only [hs, Bool.false_eq_true, if_false, List.length_cons, Bool.not_false, Bool.true_and, decide_eq_true_eq]
  omega

theorem collision_disabled (he : (getSeg s g.val).cfg.en = false) : exec (.collision g) s = .next s :=
  if_pos (by rw [he]; rfl)

/-- Start-up discovery is over: every staged station has reported once since it began, or 200 ms have passed. -/
def StartupOver (s : State) (g : Fin 2) : Prop :=
  ((getSeg s g.val).startedAt.isSome = true ∧
    (getSeg s g.val).cfg.stations.all (fun c => (vget (getSeg s g.val).stn c.node {}).reportedOnce) = true) ∨
  ∃ t, (getSeg s g.val).startedAt = some t ∧ ltReached s.now (ltAdd t (msTu 200)) = true

theorem isSome_or_getD_map_iff {α : Type} (o : Option α) (b : Bool) (p : α → Bool) :
    ((o.isSome && b) || (o.map p).getD false) = true ↔ (o.isSome = true ∧ b = true) ∨ ∃ t, o = some t ∧ p t = true := by
  cases o <;> simp

theorem startupOver_iff (s : State) (g : Fin 2) :
    StartupOver s g ↔ (((getSeg s g.val).startedAt.isSome &&
        (getSeg s g.val).cfg.stations.all (fun c => (vget (getSeg s g.val).stn c.node {}).reportedOnce)) ||
      (((getSeg s g.val).startedAt.map (fun t => ltReached s.now (ltAdd t (msTu 200)))).getD false)) = true :=
  (isSome_or_getD_map_iff _ _ _).symm

/-- The state after the end of the start-up mode is asked for; with the last segment, phase 9 of the start-up ends. -/
def startupEnded (g : Fin 2) (s : State) : State :=
  let t := modSeg g.val (fun x => { x with nextMode := some (false, .none) }) s
  if t.fo.seg.any (fun y => y.cfg.en && y.slotted && y.reason == .startup && y.nextMode.isNone) then t else readiness (markPhase 9 true t)

theorem slottedStartupEnd_over (he : (getSeg s g.val).cfg.en = true) (hs : (getSeg s g.val).slotted = true)
    (hr : (getSeg s g.val).reason = .startup) (hn : (getSeg s g.val).nextMode = none) (h : StartupOver s g) :
    exec (.slottedStartupEnd g) s = .next (startupEnded g s) := by
  show execSlottedStartupEnd g s = _
  refine if_neg ?_
  rw [(startupOver_iff s g).mp h]
  simp [he, hs, hr, hn]

theorem slottedStartupEnd_idle (h : (getSeg s g.val).cfg.en = false ∨ (getSeg s g.val).slotted = false ∨ (getSeg s g.val).reason ≠ .startup ∨
      (getSeg s g.val).nextMode ≠ none ∨ ¬StartupOver s g) :
    exec (.slottedStartupEnd g) s = .next s := by
  show execSlottedStartupEnd g s = _
  refine if_pos ?_
  rw [startupOver_iff, Bool.not_eq_true] at h
  simpa only [Bool.not_eq_true', Option.isSome_iff_ne_none] using h

end

/-! ## FO_CAB_MODE (R153) -/

/-- The segment is in start-up or recovery, or enters one of them at its next cycle. -/
def CabBusy (x : Segment) : Prop :=
  (x.slotted = true ∧ (x.reason = .startup ∨ x.reason = .recovery)) ∨ x.nextMode = some (true, .startup) ∨ x.nextMode = some (true, .recovery)

theorem cabBusy_iff (x : Segment) :
    CabBusy x ↔ ((x.slotted && (x.reason == .startup || x.reason == .recovery)) ||
      (match x.nextMode with
        | some (true, r) => r == .startup || r == .recovery
        | _ => false)) = true := by
  unfold CabBusy
  rcases x.nextMode with _ | ⟨_ | _, r⟩ <;> simp

section
variable {s : State} {c : Cmd} {g : Fin 2} (h : runs 0x0E40 false c s = true)
include h

theorem cabMode_disabled (he : (getSeg (entered 0x0E40 c s) g.val).cfg.en = false) (test : Bool) :
    cabMode c g test s = answered 0x0E40 c (st .notReady) (entered 0x0E40 c s) :=
  command_answered h (if_pos (by rw [he]; rfl))

variable (he : (getSeg (entered 0x0E40 c s) g.val).cfg.en = true)
include he

theorem cabMode_busy (hb : CabBusy (getSeg (entered 0x0E40 c s) g.val)) (test : Bool) :
    cabMode c g test s = answered 0x0E40 c (st .busy) (entered 0x0E40 c s) :=
  command_answered h ((if_neg (by rw [he]; decide)).trans (if_pos ((cabBusy_iff _).mp hb)))

theorem cabMode_asked (hb : ¬CabBusy (getSeg (entered 0x0E40 c s) g.val)) (test : Bool) :
    cabMode c g test s = answered 0x0E40 c (st .ok)
      (modSeg g.val (fun x => { x with nextMode := some (if test then (true, .test) else (false, .none)) }) (entered 0x0E40 c s)) :=
  command_answered h ((if_neg (by rw [he]; decide)).trans (if_neg (mt (cabBusy_iff _).mpr hb)))

end

/-- Settles O33: each event by the branches of its meaning, the three rows of frames by what every frame heard goes through. -/
theorem cabinetCycles : Obligations.CabinetCycles := by
  refine ⟨fun _ => cabinetCycleStart_due, fun _ => cabinetCycleStart_idle,
    fun _ _ _ hi he hg hc ht => imageTransmit_sends hi ⟨he, hg, hc, ht⟩, fun s g h => ?_, ?_⟩
  · refine imageTransmit_waits (h.imp_right fun h hm => ?_)
    obtain ⟨he, hg, hc, ht⟩ := hm
    simp [he, hg, hc, ht] at h
  -- frames, whatever their message
  refine ⟨fun s _ _ _ he => frameRows_of_hearCab (p := fun _ r => r = .next s) fun _ _ => hearCab_disabled he,
    fun s g _ _ he hr => frameRows_of_hearCab (p := fun _ r => r = .next (cabDiscard g.val s)) fun _ _ => hearCab_bad he hr,
    fun _ u g _ _ he hr hk hq => frameRows_of_hearCab (p := fun _ r => r = .next (cabDiscard g.val u))
      fun _ _ => hearCab_notKnown he hr hk hq,
    fun s _ f _ he hr hk => frameRows_of_hearCab (p := fun type r => (readCab f.bytes).type ≠ type → r = .next s)
      fun _ _ => hearCab_otherRow he hr hk,
    fun s u g f _ he hr hq _ => frameRows_of_hearCab (p := fun type r => ¬CabKnown s g f ∨ (readCab f.bytes).type = type → r = .next u)
      fun _ _ => hearCab_queued he hr hq, ?_⟩
  -- reports, images and announcements
  refine ⟨fun _ _ _ _ _ _ h hc ha hr hl => reportReceive_accepted h hc ha hr hl, fun _ _ _ _ _ _ h hc ha hr => reportReceive_second h hc ha hr,
    fun _ _ _ _ _ _ h hc ha hr hl => reportReceive_otherLength h hc ha hr hl, fun _ _ _ _ _ h hs => reportReceive_unassigned h hs,
    fun _ _ _ _ _ h => imageReceive_heard h, fun _ _ _ _ _ _ _ h hc hm hv => announceReceive_match h hc hm hv,
    fun _ _ _ _ _ h hm => announceReceive_mismatch h hm, ?_⟩
  -- absence, collisions, the start-up mode and FO_CAB_MODE
  exact ⟨fun _ _ _ _ hc hp he hs hm hr hmc hst hn => stationAbsent_counted hc hp he hs hm hr hmc hst hn, fun _ _ _ h => stationAbsent_idle h,
    fun _ _ he => collision_counted he, fun _ _ he => collision_disabled he,
    fun _ _ he hs hr hn h => slottedStartupEnd_over he hs hr hn h, fun _ _ h => slottedStartupEnd_idle h,
    fun _ _ _ h he hb => ⟨cabMode_asked h he hb true, cabMode_asked h he hb false⟩,
    fun _ _ _ h he hb => ⟨cabMode_busy h he hb true, cabMode_busy h he hb false⟩,
    fun _ _ _ h he => ⟨cabMode_disabled h he true, cabMode_disabled h he false⟩⟩

end Sys2Proof.Machine
end
section
/-! Filters and phasors: the lanes, the tracking groups, the channels' estimates, the streams and their commands, each event by the
branches of its meaning. -/

namespace Sys2Proof.Machine

/-! ## Lanes (R226–R242) -/

section
variable {s : State} {l : Fin 1024} {f : LaneFinding}

theorem laneOutputRelease_notReady (hr : s.fr.ready = false) : exec (.laneOutputRelease l f) s = .next s :=
  if_pos (by rw [hr]; rfl)

/-- A lane's output under the settings before the last commit, counted, with what is left of those settings put back. -/
abbrev drainedLane (l : Fin 1024) (t : LT) (o : LaneSample) (x : Lane) (u : State) : State :=
  modLane l.val (fun y => { y with outputs := y.outputs + 1, sat := y.sat || o.sat, gridStep := y.gridStep || o.gridStep })
    (onFr (fun f => { f with
      drain := f.drain.map (fun e => if e.1 = l.val then (l.val, t, { x with ptCount := pointCount x.cfg x.ptCount }) else e) }) u)

variable {u : State} (hr : s.fr.ready = true) (hu : u = laneFinding l.val f s)
include hr hu

theorem laneOutputRelease_drained {t : LT} {o : LaneSample} {x : Lane} (hd : drainNext u l.val = some (t, o, x)) :
    exec (.laneOutputRelease l f) s = .next (consumeSample l.val x.cfg (x.ptCount + 1) o (drainedLane l t o x u)) := by
  subst hu
  refine (if_neg (by simp [hr])).trans ?_
  simp only [hd]

variable (hd : drainNext u l.val = none)
include hd

theorem laneOutputRelease_next {o : LaneSample} {x : Lane} (hn : laneNext u (getLane u l.val) = some (o, x)) :
    exec (.laneOutputRelease l f) s = .next (consumeSample l.val x.cfg (x.ptCount + 1) o
      (onFr (fun f => { f with lane := f.lane.put l.val { x with ptCount := pointCount x.cfg x.ptCount } }) u)) := by
  subst hu
  refine (if_neg (by simp [hr])).trans ?_
  simp only [hd, hn]

theorem laneOutputRelease_idle (hn : laneNext u (getLane u l.val) = none) : exec (.laneOutputRelease l f) s = .next u := by
  subst hu
  refine (if_neg (by simp [hr])).trans ?_
  simp only [hd, hn]

end

theorem coefReloadDone_reloaded {s u : State} {p : Bool} {n : Fin 256} (hc : s.fr.reload.contains (p, n.val) = true)
    (hu : u = onFr (fun f => { f with reload := f.reload.filter (· != (p, n.val)) }) s) :
    exec (.coefReloadDone p n) s = .next (restartLanes (fun _ x => x.waitCoef && !tablesMissing u x) u.now u) := by
  subst hu
  exact if_neg (by rw [hc]; decide)

theorem coefReloadDone_unknown {s : State} {p : Bool} {n : Fin 256} (hc : s.fr.reload.contains (p, n.val) = false) :
    exec (.coefReloadDone p n) s = .next s :=
  if_pos (by rw [hc]; rfl)

/-! ## Tracking groups (R235, R236) -/

@[simp] theorem getTrk_modTrk (g : Nat) (f : TrkGroup → TrkGroup) (s : State) : getTrk (modTrk g f s) g = f (getTrk s g) := getD_put ..

theorem getTrk_raiseArg (n : Nat) (o : Tag) (a : BitVec 32) (s : State) (g : Nat) : getTrk (raiseArg n o a s) g = getTrk s g := by
  rw [getTrk, raiseArg_fr, getTrk]

theorem getTrk_trkChg (b : Bool) (s : State) (g : Nat) : getTrk (onFr (fun f => { f with trkChg := b }) s) g = getTrk s g := rfl

/-- A group in another state: its flags and the instant of HOLD. -/
theorem getTrk_setTrk {s : State} {g : Nat} {st' : TrkState} (h : (getTrk s g).state ≠ st') :
    getTrk (setTrk g st' s) g = { getTrk s g with
      state := st', holdSeen := (getTrk s g).holdSeen || st' == .hold,
      nominalSeen := (getTrk s g).nominalSeen || (st' == .nominal && (getTrk s g).state == .hold),
      holdSince := if st' = .hold then s.now else (getTrk s g).holdSince } := by
  rw [setTrk, if_neg h, getTrk_raiseArg, getTrk_trkChg, getTrk_modTrk]

theorem setTrk_trkChg {s : State} {g : Nat} {st' : TrkState} (h : (getTrk s g).state ≠ st') : (setTrk g st' s).fr.trkChg = true := by
  rw [setTrk, if_neg h, raiseArg_fr]
  rfl

theorem setTrk_hold {s : State} {g : Nat} (h : (getTrk s g).state = .tracking) :
    (getTrk (setTrk g .hold s) g).state = .hold ∧ (getTrk (setTrk g .hold s) g).holdSeen = true ∧
      (getTrk (setTrk g .hold s) g).holdSince = s.now ∧ (setTrk g .hold s).fr.trkChg = true := by
  have hne : (getTrk s g).state ≠ .hold := by simp [h]
  refine ⟨?_, ?_, ?_, setTrk_trkChg hne⟩ <;> simp [getTrk_setTrk hne]

theorem setTrk_nominal {s : State} {g : Nat} (h : (getTrk s g).state = .hold) :
    (getTrk (setTrk g .nominal s) g).state = .nominal ∧ (getTrk (setTrk g .nominal s) g).nominalSeen = true ∧
      (setTrk g .nominal s).fr.trkChg = true := by
  have hne : (getTrk s g).state ≠ .nominal := by simp [h]
  refine ⟨?_, ?_, setTrk_trkChg hne⟩ <;> simp [getTrk_setTrk hne, h]

section
variable {s : State} {g : Fin 64}

/-- The instant in which a cycle ends. -/
abbrev cycEnd (c : TrkCycle) : BitVec 96 := c.tc + BitVec.ofNat 96 c.len

/-- The frequency that a group's next cycle takes (R235). -/
abbrev nextFreq (s : State) (g : Fin 64) (c : TrkCycle) : Nat := freqAt (getTrk s g.val) ((cycEnd c).extractLsb' 32 64)

theorem gridCycleStart_over {c : TrkCycle} (hr : s.fr.ready = true) (hs : (getTrk s g.val).state ≠ .disabled)
    (hc : (getTrk s g.val).cyc = some c) (hd : 0 ≤ diff96 (lt96 s.now) (cycEnd c)) :
    exec (.gridCycleStart g) s =
      .next (startTrkCycle g.val { no := c.no + 1, tc := cycEnd c, len := cycleLen (nextFreq s g c) } (nextFreq s g c) s) := by
  show execGridCycleStart g s = _
  simp only [execGridCycleStart, hc]
  exact if_neg (by simp [hr, hs, hd])

theorem gridCycleStart_idle (h : s.fr.ready = false ∨ (getTrk s g.val).state = .disabled ∨
      ∀ c, (getTrk s g.val).cyc = some c → diff96 (lt96 s.now) (cycEnd c) < 0) :
    exec (.gridCycleStart g) s = .next s := by
  show execGridCycleStart g s = _
  cases hc : (getTrk s g.val).cyc with
  | none => simp only [execGridCycleStart, hc]
  | some c =>
    simp only [execGridCycleStart, hc]
    refine if_pos ?_
    obtain hr | hs | hn := h
    · simp [hr]
    · simp [hs]
    · simp [hn c hc]

theorem trackingHold_due {f : Nat} {t : LT} (hs : (getTrk s g.val).state = .tracking) (he : (getTrk s g.val).est = some (f, t))
    (hd : (2 * cycleNow (getTrk s g.val) : Nat) ≤ ltDiff s.now t * 4294967296) :
    exec (.trackingHold g) s = .next (setTrk g.val .hold s) := by
  show execTrackingHold g s = _
  simp only [execTrackingHold, he]
  exact if_pos ⟨hs, hd⟩

theorem trackingHold_idle (h : (getTrk s g.val).state ≠ .tracking ∨
      ∀ f t, (getTrk s g.val).est = some (f, t) → ltDiff s.now t * 4294967296 < (2 * cycleNow (getTrk s g.val) : Nat)) :
    exec (.trackingHold g) s = .next s := by
  show execTrackingHold g s = _
  rcases he : (getTrk s g.val).est with _ | ⟨f, t⟩
  · simp only [execTrackingHold, he]
  · simp only [execTrackingHold, he]
    refine if_neg fun ⟨hs, hd⟩ => ?_
    exact h.elim (· hs) fun h => (h f t he).not_ge hd

theorem trackingNominal_due (hs : (getTrk s g.val).state = .hold)
    (hd : (msTu (getTrk s g.val).cfg.holdMs : Int) ≤ ltDiff s.now (getTrk s g.val).holdSince) :
    exec (.trackingNominal g) s = .next (setTrk g.val .nominal s) :=
  if_pos ⟨hs, hd⟩

theorem trackingNominal_idle (h : (getTrk s g.val).state ≠ .hold ∨
      ltDiff s.now (getTrk s g.val).holdSince < (msTu (getTrk s g.val).cfg.holdMs : Int)) :
    exec (.trackingNominal g) s = .next s :=
  if_neg fun ⟨hs, hd⟩ => h.elim (· hs) fun h => h.not_ge hd

end

/-! ## Estimates (R254–R258) -/

/-- What a channel takes from the guard code's finding in its state (R257, R269). -/
abbrev ChanFound (c : Fin 1024) (g : Option GuardFind) (s u : State) : Prop :=
  (g = none ∧ u = s) ∨ (g = some .corrected ∧ u = guardCorrected 0x6 s) ∨ ∃ h, g = some (.uncorrectable h) ∧ u = chanGuard c.val h s

/-- A channel's turn once its state is read. -/
def estimateTurn (c : Nat) (s : State) : Res :=
  match nextEst s c (chanTurn s c).2 with
  | none => .next s
  | some (tr, e, range, t) => .next (releaseEst c ((chanTurn s c).2.ptCount + 1) (chanTurn s c).1.isSome (chanTurn s c).2.cfg e range
      (putTurn c (chanTurn s c).1 (chanAfter (chanTurn s c).2 tr) t))

section
variable {s u : State} {c : Fin 1024} {g : Option GuardFind}

theorem estimateRelease_notReady (hr : s.pe.ready = false) : exec (.estimateRelease c g) s = .next s :=
  if_pos (by rw [hr]; rfl)

variable (hr : s.pe.ready = true) (hg : ChanFound c g s u)
include hr hg

theorem estimateRelease_turn : exec (.estimateRelease c g) s = estimateTurn c.val u := by
  refine (if_neg (by simp [hr])).trans ?_
  obtain ⟨rfl, rfl⟩ | ⟨rfl, rfl⟩ | ⟨h, rfl, rfl⟩ := hg <;> rfl

theorem estimateRelease_released {tr : LT} {e : PeEst} {r : Bool} {t : State}
    (hn : nextEst u c.val (chanTurn u c.val).2 = some (tr, e, r, t)) :
    exec (.estimateRelease c g) s =
      .next (releaseEst c.val ((chanTurn u c.val).2.ptCount + 1) (chanTurn u c.val).1.isSome (chanTurn u c.val).2.cfg e r
        (putTurn c.val (chanTurn u c.val).1 (chanAfter (chanTurn u c.val).2 tr) t)) := by
  rw [estimateRelease_turn hr hg, estimateTurn, hn]

theorem estimateRelease_idle (hn : nextEst u c.val (chanTurn u c.val).2 = none) : exec (.estimateRelease c g) s = .next u := by
  rw [estimateRelease_turn hr hg, estimateTurn, hn]

end

/-! ## Streams (R259, R264, R266) -/

/-- The channels whose estimates the frame of `tr` waits for. -/
abbrev strWaiting (s : State) (x : PeStream) (tr : LT) : List Nat := (strChans s x.cfg tr).filter (fun c => (estAt s c tr).isNone)

/-- The deadline of a frame of a stream that sends has come while estimates of it are waited for. -/
abbrev DeadlineDue (s : State) (x : PeStream) (tr : LT) : Prop :=
  s.pe.ready = true ∧ x.used = true ∧ (txState x tr).on = true ∧ strWaiting s x tr ≠ [] ∧ ltReached s.now (ltAdd tr (lmaxOf s x.cfg tr)) = true

/-- The frame of `tr` of a used stream waits for no estimate. -/
abbrev FrameDue (s : State) (x : PeStream) (tr : LT) : Prop :=
  s.pe.ready = true ∧ x.used = true ∧ (strChans s x.cfg tr).any (fun c => (estAt s c tr).isNone) = false

section
variable {s : State} {k : Fin 64} {b : Option LT} {x : PeStream} {tr : LT}

theorem streamDeadline_late (ht : strTurn s k.val = some (b, x, tr)) (hd : DeadlineDue s x tr) :
    exec (.streamDeadline k) s = .next (modStr k.val (fun x => { x with late := true, lateFrames := x.lateFrames + 1 })
      (modTurn k.val b (fun x => { x with frameLate := true }) ((strWaiting s x tr).foldl (fun s c => completeChan c tr 512 s) s))) := by
  obtain ⟨hr, hu, hon, hw, hl⟩ := hd
  show execStreamDeadline k s = _
  simp only [execStreamDeadline, ht]
  exact if_neg (by simp [hr, hu, hon, List.isEmpty_eq_false_iff.mpr hw, hl])

theorem streamDeadline_idle (h : ∀ b x tr, strTurn s k.val = some (b, x, tr) → ¬DeadlineDue s x tr) :
    exec (.streamDeadline k) s = .next s := by
  show execStreamDeadline k s = _
  rcases ht : strTurn s k.val with _ | ⟨b, x, tr⟩
  · simp only [execStreamDeadline, ht]
  · simp only [execStreamDeadline, ht]
    refine if_pos (by_contra fun hn => h b x tr ht ?_)
    simpa only [Bool.or_eq_true, Bool.not_eq_true', List.isEmpty_iff, not_or, Bool.not_eq_false, and_assoc] using hn

theorem dataFrameHandover_due (ht : strTurn s k.val = some (b, x, tr)) (hd : FrameDue s x tr) :
    exec (.dataFrameHandover k) s = .next
      (if (txState x tr).on && !handoverHolds (modTurn k.val b (fun x => strAfter x tr) s) tr then
        handFrame k.val (txState x tr) tr (modTurn k.val b (fun x => strAfter x tr) s)
      else modTurn k.val b (fun x => strAfter x tr) s) := by
  obtain ⟨hr, hu, hw⟩ := hd
  show execDataFrameHandover k s = _
  simp only [execDataFrameHandover, ht]
  exact if_neg (by rw [hr, hu, hw]; decide)

theorem dataFrameHandover_sent (ht : strTurn s k.val = some (b, x, tr)) (hd : FrameDue s x tr) (hon : (txState x tr).on = true)
    (hh : handoverHolds (modTurn k.val b (fun x => strAfter x tr) s) tr = false) :
    exec (.dataFrameHandover k) s = .next (handFrame k.val (txState x tr) tr (modTurn k.val b (fun x => strAfter x tr) s)) :=
  (dataFrameHandover_due ht hd).trans (congrArg _ (if_pos (by rw [hon, hh]; rfl)))

theorem dataFrameHandover_passed (ht : strTurn s k.val = some (b, x, tr)) (hd : FrameDue s x tr)
    (h : (txState x tr).on = false ∨ handoverHolds (modTurn k.val b (fun x => strAfter x tr) s) tr = true) :
    exec (.dataFrameHandover k) s = .next (modTurn k.val b (fun x => strAfter x tr) s) := by
  refine (dataFrameHandover_due ht hd).trans (congrArg _ (if_neg ?_))
  obtain hoff | hh := h
  · simp [hoff]
  · simp [hh]

theorem dataFrameHandover_idle (h : ∀ b x tr, strTurn s k.val = some (b, x, tr) → ¬FrameDue s x tr) :
    exec (.dataFrameHandover k) s = .next s := by
  show execDataFrameHandover k s = _
  rcases ht : strTurn s k.val with _ | ⟨b, x, tr⟩
  · simp only [execDataFrameHandover, ht]
  · simp only [execDataFrameHandover, ht]
    refine if_pos (by_contra fun hn => h b x tr ht ?_)
    simpa only [Bool.or_eq_true, Bool.not_eq_true', not_or, Bool.not_eq_false, Bool.not_eq_true, and_assoc] using hn

theorem cfgChangeTimeout_due (hc : (getStr s k.val).cfgChg = true) (ht : (secTu 60 : Int) ≤ ltDiff s.now (getStr s k.val).cfgChgAt) :
    exec (.cfgChangeTimeout k) s = .next (modStr k.val (fun x => { x with cfgChg := false }) s) :=
  if_pos ⟨hc, ht⟩

theorem cfgChangeTimeout_idle (h : (getStr s k.val).cfgChg = false ∨ ltDiff s.now (getStr s k.val).cfgChgAt < (secTu 60 : Int)) :
    exec (.cfgChangeTimeout k) s = .next s :=
  if_neg fun ⟨hc, ht⟩ => h.elim (fun h => by simp [h] at hc) fun h => h.not_ge ht

end

/-! ## Command frames (R268) -/

theorem get?_modStr {s : State} {k : Nat} {x : PeStream} (h : s.pe.str.get? k = some x) (f : PeStream → PeStream) :
    (modStr k f s).pe.str.get? k = some (f x) := by
  simp [modStr, onPe, h]

/-- A command frame counted. -/
abbrev cmdCounted (k : Fin 64) (s : State) : State := modStr k.val (fun x => { x with cmds := x.cmds + 1 }) s

section
variable {s : State} {k : Fin 64} {act : PeStream → State → State}

theorem c37Command_unused (hu : (getStr s k.val).used = false) : c37Command k act s = .next s :=
  if_pos (by rw [hu]; rfl)

theorem c37Command_counted (hu : (getStr s k.val).used = true) :
    c37Command k act s = .next (if s.fo.gateOpen then act (getStr (cmdCounted k s) k.val) (cmdCounted k s) else cmdCounted k s) :=
  if_neg (by rw [hu]; decide)

theorem c37Command_acts (hu : (getStr s k.val).used = true) (hg : s.fo.gateOpen = true) :
    c37Command k act s = .next (act (getStr (cmdCounted k s) k.val) (cmdCounted k s)) :=
  (c37Command_counted hu).trans (congrArg _ (if_pos hg))

theorem c37Command_gateClosed (hu : (getStr s k.val).used = true) (hg : s.fo.gateOpen = false) :
    c37Command k act s = .next (cmdCounted k s) :=
  (c37Command_counted hu).trans (congrArg _ (if_neg (by rw [hg]; decide)))

/-- What holds of every command frame of a stream holds of each row's. -/
theorem c37Rows_of_command {p : Res → Prop} (h : ∀ act, p (c37Command k act s)) (r : C37Sender) :
    p (exec (.c37CmdDataOff k) s) ∧ p (exec (.c37CmdDataOn k) s) ∧ p (exec (.c37CmdHeader k r) s) ∧ p (exec (.c37CmdCfg1 k r) s) ∧
      p (exec (.c37CmdCfg2 k r) s) ∧ p (exec (.c37CmdUnsupported k) s) ∧ p (exec (.c37CmdExtended k) s) :=
  ⟨(h _ : p (execC37CmdDataOff k s)), (h _ : p (execC37CmdDataOn k s)), (h _ : p (execC37CmdHeader k r s)),
    (h _ : p (execC37CmdCfg1 k r s)), (h _ : p (execC37CmdCfg2 k r s)), (h _ : p (execC37CmdUnsupported k s)),
    (h _ : p (execC37CmdExtended k s))⟩

theorem c37Command_ignored (hu : (getStr s k.val).used = true) : c37Command k (fun _ s => s) s = .next (cmdCounted k s) :=
  (c37Command_counted hu).trans (congrArg _ (ite_self _))

/-- DATA OFF and DATA ON at an open gate: the stream takes the new state from the next reporting instant. -/
theorem c37Command_txNext {x : PeStream} (hx : s.pe.str.get? k.val = some x) (hu : x.used = true) (hg : s.fo.gateOpen = true) (on : Bool) :
    ∃ t, c37Command k (fun _ s => modStr k.val (fun x => { x with txNext := some (on, s.now) }) s) s = .next t ∧
      t.pe.str.get? k.val = some { x with cmds := x.cmds + 1, txNext := some (on, s.now) } := by
  have hu : (getStr s k.val).used = true := by simpa [getStr, Tab.getD, hx] using hu
  exact ⟨_, c37Command_acts hu hg, get?_modStr (get?_modStr hx _) _⟩

end

/-- Settles O38: each event by its lemmas, where it is due and where it is not, and the command frames by what every one of them goes
through. -/
theorem filtersAndPhasorsRun : Obligations.FiltersAndPhasorsRun := by
  -- lanes
  refine ⟨fun _ _ _ hr => laneOutputRelease_notReady hr, fun s u l f hr hu hd => ?_, fun s u l f hr hu hd hn => ?_,
    fun _ _ _ _ hr hu hd hn => laneOutputRelease_idle hr hu hd hn, ?_⟩
  · obtain ⟨⟨t, o, x⟩, hd⟩ := Option.isSome_iff_exists.mp hd
    exact ⟨t, o, x, hd, laneOutputRelease_drained hr hu hd⟩
  · obtain ⟨⟨o, x⟩, hn⟩ := Option.isSome_iff_exists.mp hn
    exact ⟨o, x, hn, laneOutputRelease_next hr hu hd hn⟩
  -- tracking groups and reloaded tables
  refine ⟨fun _ _ _ hr hs hc hd => gridCycleStart_over hr hs hc hd, fun _ _ h => gridCycleStart_idle h,
    fun _ _ _ _ hs he hd => trackingHold_due hs he hd, fun _ _ h => trackingHold_idle h, fun _ _ h => setTrk_hold h,
    fun _ _ hs hd => trackingNominal_due hs hd, fun _ _ h => trackingNominal_idle h, fun _ _ h => setTrk_nominal h,
    fun _ _ _ _ hc hu => coefReloadDone_reloaded hc hu, fun _ _ _ hc => coefReloadDone_unknown hc, ?_⟩
  -- estimates and streams
  refine ⟨fun _ _ _ _ _ _ _ _ hr hg hn => estimateRelease_released hr hg hn, fun _ _ _ _ hr hg hn => estimateRelease_idle hr hg hn,
    fun _ _ _ hr => estimateRelease_notReady hr, fun _ _ _ _ _ ht hr hu hon hw hl => streamDeadline_late ht ⟨hr, hu, hon, hw, hl⟩,
    fun _ _ h => streamDeadline_idle h, fun _ _ _ _ _ ht hr hu hw hon hh => dataFrameHandover_sent ht ⟨hr, hu, hw⟩ hon hh,
    fun _ _ _ _ _ ht hr hu hw h => dataFrameHandover_passed ht ⟨hr, hu, hw⟩ h, fun _ _ h => dataFrameHandover_idle h,
    fun _ _ hc ht => cfgChangeTimeout_due hc ht, fun _ _ h => cfgChangeTimeout_idle h, ?_⟩
  -- command frames
  refine ⟨fun _ _ _ hx hu hg => ⟨c37Command_txNext hx hu hg false, c37Command_txNext hx hu hg true⟩, ?_, ?_, ?_,
    fun _ _ hu => ⟨c37Command_ignored hu, c37Command_ignored hu⟩, fun s k r hu hg => ?_,
    fun s _ r hu => c37Rows_of_command (p := (· = .next s)) (fun _ => c37Command_unused hu) r⟩
  · rintro s _ k r hu hg rfl
    exact c37Command_acts (act := fun x s => c37Reply x r
      (c37Frame 0xAA12 (bytesBE 2 x.cfg.idcode.toNat ++ socBytes s x.cfg.timeBase s.now ++ x.cfg.header)) s) hu hg
  · rintro s _ k r hu hg rfl
    exact c37Command_acts (act := fun x s => c37Reply x r (cfgFrame s 0xAA22 x) s) hu hg
  · rintro s _ k r hu hg rfl
    exact c37Command_acts (act := fun x s => modStr k.val (fun x => { x with cfgChg := false }) (c37Reply x r (cfgFrame s 0xAA32 x) s)) hu hg
  · obtain ⟨hoff, hon, hhdr, hcfg1, hcfg2, -, -⟩ :=
      c37Rows_of_command (p := (· = .next (cmdCounted k s))) (fun _ => c37Command_gateClosed hu hg) r
    exact ⟨hoff, hon, hhdr, hcfg1, hcfg2⟩

end Sys2Proof.Machine
end
section
/-! Wideband links, fast edges and recorders: each event by the branches of its meaning, and the commands on records by what lets a caller
at them. -/

namespace Sys2Proof.Machine

/-! ## Wideband links (R275–R278) -/

/-- An enabled link that is not retraining takes its frames. -/
abbrev LinkTakes (s : State) (k : Fin 8) : Prop :=
  s.ar.ready = true ∧ (getWsl s k.val).cfg.en = true ∧ (getWsl s k.val).retraining = false

/-- A link that is down is aligning once a frame has come. -/
abbrev linkHeard (s : State) (k : Fin 8) : State := if (getWsl s k.val).state = .down then setWsl k.val .aligning s else s

/-- The edge of a link's last frame. -/
abbrev atEdge (k : Fin 8) (e : Nat) (s : State) : State := modWsl k.val (fun x => { x with lastEdge := some e }) s

/-- The values of an edge's frame join the run of a link whose next edge is `n`, unless that edge is delivered. -/
abbrev joinRun (k : Fin 8) (n e : Nat) (vals : Option (List (BitVec 16))) (s : State) : State :=
  if e < n then s else modWsl k.val (fun x => { x with got := x.got ++ [(e, vals)] }) s

/-- The edge after that of the last frame, for which a frame with a wrong CRC stands (R277). -/
abbrev followingEdge (s : State) (k : Fin 8) : Nat := ((getWsl s k.val).lastEdge.map (· + 1)).getD (getWsl s k.val).nextEdge

/-- A wrong CRC is counted on a locked link. -/
abbrev crcCounted (s : State) (k : Fin 8) (v : State) : State :=
  if (getWsl s k.val).state = .locked then modWsl k.val (fun x => { x with crcErr := x.crcErr + 1 }) v else v

/-- A SEQ without its edge ends the good run and sets SEQ_ERR. -/
abbrev seqLost (k : Fin 8) (v : State) : State := modWsl k.val (fun x => { x with seqErr := true, goodRun := 0 }) v

section
variable {s : State} {k : Fin 8} {f : WslFrame}

theorem linkTakes_open (h : LinkTakes s k) : ¬(!s.ar.ready || !(getWsl s k.val).cfg.en || (getWsl s k.val).retraining) = true := by
  obtain ⟨hr, hen, ht⟩ := h
  simp [hr, hen, ht]

theorem wslFrameReceive_idle (h : s.ar.ready = false ∨ (getWsl s k.val).cfg.en = false ∨ (getWsl s k.val).retraining = true) :
    exec (.wslFrameReceive k f) s = .next s := by
  refine if_pos ?_
  obtain hr | hen | ht := h
  · simp [hr]
  · simp [hen]
  · simp [ht]

variable {v : State} (ht : LinkTakes s k) (hv : v = linkHeard s k)
include ht hv

theorem wslFrameReceive_badCrc (hc : wslCrcOk f = false) :
    exec (.wslFrameReceive k f) s = .next (flushWsl k.val 256 (noteFrame k.val true false
      (joinRun k (getWsl s k.val).nextEdge (followingEdge s k) none (atEdge k (followingEdge s k) (crcCounted s k v))))) := by
  subst hv
  exact (if_neg (linkTakes_open ht)).trans (if_pos (by rw [hc]; rfl))

theorem wslFrameReceive_matched {e : Nat} (hc : wslCrcOk f = true) (hm : matchSeq v (getWsl s k.val) (wslSeq f) = some e) :
    exec (.wslFrameReceive k f) s = .next (flushWsl k.val 256 (joinRun k (getWsl s k.val).nextEdge e (some (wslChans f))
      (atEdge k e (noteFrame k.val false ((getWsl s k.val).lastEdge.map (· + 1) == some e) v)))) := by
  subst hv
  refine (if_neg (linkTakes_open ht)).trans ((if_neg (by rw [hc]; decide)).trans ?_)
  simp only [hm]

theorem wslFrameReceive_unmatched (hc : wslCrcOk f = true) (hm : matchSeq v (getWsl s k.val) (wslSeq f) = none) :
    exec (.wslFrameReceive k f) s =
      .next (if (getWsl s k.val).state = .locked then setWsl k.val .aligning (seqLost k v) else seqLost k v) := by
  subst hv
  refine (if_neg (linkTakes_open ht)).trans ((if_neg (by rw [hc]; decide)).trans ?_)
  simp only [hm]

end

/-- LAT_MAX of a link in time units. -/
abbrev latMaxTu (x : WslLink) : Int := (x.cfg.latMax * cnvPeriod x.cfg : Nat)

/-- The frame of a link's next edge has not come by LAT_MAX (R277). -/
abbrev FrameOverdue (s : State) (k : Fin 8) : Prop :=
  s.ar.ready = true ∧ (getWsl s k.val).cfg.en = true ∧ (getWsl s k.val).bases.isEmpty = false ∧
    latMaxTu (getWsl s k.val) ≤ ltDiff s.now (edgeLt (getWsl s k.val) (getWsl s k.val).nextEdge)

section
variable {s : State} {k : Fin 8}

theorem wslFrameDeadline_overdue (h : FrameOverdue s k) :
    exec (.wslFrameDeadline k) s =
      if (getWsl s k.val).state = .locked then
        .next (flushWsl k.val 256 (noteFrame k.val true false (deliverBad k.val (getWsl s k.val).nextEdge (qInvalid ||| qOldData)
          (modWsl k.val (fun x => { x with missing := x.missing + 1 }) s))))
      else .next (flushWsl k.val 256 (deliverBad k.val (getWsl s k.val).nextEdge (qInvalid ||| qFailure) s)) := by
  obtain ⟨hr, hen, hb, hd⟩ := h
  exact if_neg (by simp only [hr, hen, hb, decide_eq_false hd.not_gt]; decide)

theorem wslFrameDeadline_locked (h : FrameOverdue s k) (hs : (getWsl s k.val).state = .locked) :
    exec (.wslFrameDeadline k) s = .next (flushWsl k.val 256 (noteFrame k.val true false
      (deliverBad k.val (getWsl s k.val).nextEdge (qInvalid ||| qOldData) (modWsl k.val (fun x => { x with missing := x.missing + 1 }) s)))) :=
  (wslFrameDeadline_overdue h).trans (if_pos hs)

theorem wslFrameDeadline_unlocked (h : FrameOverdue s k) (hs : (getWsl s k.val).state ≠ .locked) :
    exec (.wslFrameDeadline k) s = .next (flushWsl k.val 256 (deliverBad k.val (getWsl s k.val).nextEdge (qInvalid ||| qFailure) s)) :=
  (wslFrameDeadline_overdue h).trans (if_neg hs)

theorem wslFrameDeadline_idle (h : s.ar.ready = false ∨ (getWsl s k.val).cfg.en = false ∨ (getWsl s k.val).bases.isEmpty = true ∨
      ¬latMaxTu (getWsl s k.val) ≤ ltDiff s.now (edgeLt (getWsl s k.val) (getWsl s k.val).nextEdge)) :
    exec (.wslFrameDeadline k) s = .next s := by
  refine if_pos ?_
  obtain hr | hen | hb | hd := h
  · simp [hr]
  · simp [hen]
  · simp [hb]
  · simp only [decide_eq_true (not_le.mp hd), Bool.or_true]

theorem wslRetrainDone_ends (s : State) (k : Fin 8) :
    ∃ t, exec (.wslRetrainDone k) s = .next t ∧ t.ar.wsl[k] = { s.ar.wsl[k] with retraining := false } :=
  ⟨_, rfl, by simp [modWsl]⟩

end

/-! ## Fast edges (R279–R282) -/

/-- An edge that the TDC has placed: its level, the FIFO unless it follows too closely, and the recorders. -/
abbrev edgeNoted (s : State) (e : Fin 24) (r : Bool) (b : Fin 128) : State :=
  noteBinary (BitVec.ofNat 32 (0x01000000 + e.val)) (tdcInstant s e.val b.val) r false
    (if edgeClose s e.val (tdcInstant s e.val b.val) then modEdge e.val (fun u => { u with level := r }) s
     else edgeFifo e.val r (tdcInstant s e.val b.val) (modEdge e.val (fun u => { u with level := r }) s))

section
variable {s : State} {e : Fin 24} {r : Bool} {b : Fin 128} {n : Nat}

theorem fastEdgeArrival_idle (h : s.ar.ready = false ∨ n < nsTu 1) : exec (.fastEdgeArrival e r b n) s = .next s :=
  if_pos (h.imp_left fun hr => by rw [hr]; rfl)

theorem edgeNoted_eq : noteBinary (BitVec.ofNat 32 (0x01000000 + e.val)) (tdcInstant s e.val b.val) r false
    ((if edgeClose s e.val (tdcInstant s e.val b.val) then id else edgeFifo e.val r (tdcInstant s e.val b.val))
      (modEdge e.val (fun u => { u with level := r }) s)) = edgeNoted s e r b := by
  rw [ite_apply, id_eq]

theorem fastEdgeArrival_open (hr : s.ar.ready = true) (hn : nsTu 1 ≤ n) : ¬((!s.ar.ready) = true ∨ n < nsTu 1) := by
  simp [hr, hn]

variable {u : State} (hr : s.ar.ready = true) (hn : nsTu 1 ≤ n) (hu : u = edgeNoted s e r b)
include hr hn hu

theorem fastEdgeArrival_point {i : Nat} (hp : (vget u.ar.edge e.val {}).cfg.point = some i) :
    exec (.fastEdgeArrival e r b n) s = .next (sendBatch .ar
      [{ index := i, value := BitVec.ofNat 64 (bitN r), lt := tdcInstant s e.val b.val, writer := .edge e.val }] u) := by
  subst hu
  refine (if_neg (fastEdgeArrival_open hr hn)).trans ?_
  simp only [edgeNoted_eq, hp]

theorem fastEdgeArrival_noPoint (hp : (vget u.ar.edge e.val {}).cfg.point = none) : exec (.fastEdgeArrival e r b n) s = .next u := by
  subst hu
  refine (if_neg (fastEdgeArrival_open hr hn)).trans ?_
  simp only [edgeNoted_eq, hp]

end

section
variable {s : State} {e : Fin 24}

theorem tdcCalibrationDone_powered {l : Vector Nat 128} (h : pdOn s 6 = true) :
    exec (.tdcCalibrationDone e l) s =
      .next (readiness (modEdge e.val (fun u => { u with uncal := false, bins := l.toList, calAt := some s.abs }) s)) :=
  if_neg (by rw [h]; decide)

theorem tdcCalibrationDone_off {l : Vector Nat 128} (h : pdOn s 6 = false) : exec (.tdcCalibrationDone e l) s = .next s :=
  if_pos (by rw [h]; rfl)

theorem drop_emptyFifo {u : EdgeUnit} (h : u.fifo = []) : { u with fifo := u.fifo.drop 1 } = u := by
  rw [h, List.drop_nil, ← h]

theorem modEdge_eq {f g : EdgeUnit → EdgeUnit} (h : f (vget s.ar.edge e.val {}) = g (vget s.ar.edge e.val {})) :
    modEdge e.val f s = modEdge e.val g s := by
  simp only [vget_fin] at h
  simp [modEdge, onAr, h]

theorem modEdge_id (s : State) : modEdge e.val id s = s := by
  simp [modEdge, onAr]

theorem edgeTake_entry {t : BitVec 64} {l : List (BitVec 64)} (hf : (vget s.ar.edge e.val {}).fifo = t :: l) :
    edgeTake e.val s = (t, modEdge e.val (fun u => { u with fifo := l }) s) := by
  rw [edgeTake, hf, modEdge_eq (g := fun u => { u with fifo := l }) (by simp only [hf, List.drop_one, List.tail_cons])]
  rfl

theorem edgeTake_empty (hf : (vget s.ar.edge e.val {}).fifo = []) : edgeTake e.val s = (0, s) := by
  have same : modEdge e.val (fun u => { u with fifo := u.fifo.drop 1 }) s = s :=
    (modEdge_eq (g := id) (drop_emptyFifo hf)).trans (modEdge_id s)
  rw [edgeTake, hf, same]
  rfl

variable {q : Nat} {w : Bool}

theorem edgePop_ready (h : s.glob.ready = true) :
    exec (.edgePop q e w) s = .next (readRs q (0x830000 + 0x20 * e.val) (edgeTake e.val s).1 w (edgeTake e.val s).2) :=
  (show exec (.edgePop q e w) s = execEdgePop q e w s from rfl).trans (hostRead_ready h ..)

theorem edgePop_entry {t : BitVec 64} {l : List (BitVec 64)} (h : s.glob.ready = true) (hf : (vget s.ar.edge e.val {}).fifo = t :: l) :
    exec (.edgePop q e w) s = .next (readRs q (0x830000 + 0x20 * e.val) t w (modEdge e.val (fun u => { u with fifo := l }) s)) := by
  rw [edgePop_ready h, edgeTake_entry hf]

theorem edgePop_empty (h : s.glob.ready = true) (hf : (vget s.ar.edge e.val {}).fifo = []) :
    exec (.edgePop q e w) s = .next (readRs q (0x830000 + 0x20 * e.val) 0 w s) := by
  rw [edgePop_ready h, edgeTake_empty hf]

theorem edgePop_notReady (h : s.glob.ready = false) :
    exec (.edgePop q e w) s = .next (if s.kv.halted then answerRead q 0 s else s) :=
  (show exec (.edgePop q e w) s = execEdgePop q e w s from rfl).trans (hostRead_notReady h ..)

end

/-! ## Recorders (R290, R294, R295) -/

/-- A recorder in use. -/
abbrev RecInUse (s : State) (r : Fin 8) : Prop :=
  s.ar.ready = true ∧ (getRec s r.val).state ≠ .disabled ∧ (getRec s r.val).state ≠ .stopped

/-- The tick of the settings before the last commit, where a recording still follows them and it is due. -/
def oldTicked (r : Fin 8) (s : State) : State :=
  match (getRec s r.val).old with
  | some (t, x) =>
    if tickDue s x then
      dropOld r.val (modRec r.val (fun y => { y with old := some (t, (evalTick r.val (decide (ltDiff x.nextTick t < 0)) x s).1) })
        (evalTick r.val (decide (ltDiff x.nextTick t < 0)) x s).2)
    else s
  | none => s

/-- The tick of the settings in force, where it is due. -/
def runTicked (r : Fin 8) (u : State) : Res :=
  match (getRec u r.val).run with
  | some x =>
    if tickDue u x then .next (modRec r.val (fun y => { y with run := some (evalTick r.val true x u).1 }) (evalTick r.val true x u).2)
    else .next u
  | none => .next u

section
variable {s : State} {r : Fin 8}

theorem recInUse_open (h : RecInUse s r) :
    ¬(!s.ar.ready || (getRec s r.val).state == .disabled || (getRec s r.val).state == .stopped) = true := by
  obtain ⟨hr, hd, hs⟩ := h
  simp [hr, hd, hs]

theorem recNotInUse_idle (h : s.ar.ready = false ∨ (getRec s r.val).state = .disabled ∨ (getRec s r.val).state = .stopped) :
    exec (.patternTickEval r) s = .next s ∧ exec (.rowWrite r) s = .next s := by
  have hc : (!s.ar.ready || (getRec s r.val).state == .disabled || (getRec s r.val).state == .stopped) = true := by
    obtain hr | hd | hs := h
    · simp [hr]
    · simp [hd]
    · simp [hs]
  exact ⟨if_pos hc, if_pos hc⟩

theorem patternTickEval_ticked (h : RecInUse s r) : exec (.patternTickEval r) s = runTicked r (oldTicked r s) :=
  if_neg (recInUse_open h)

section
variable {u : State} (h : RecInUse s r) (hu : u = oldTicked r s)
include h hu

theorem patternTickEval_due {x : RecRun} (hx : (getRec u r.val).run = some x) (hd : tickDue u x = true) :
    exec (.patternTickEval r) s =
      .next (modRec r.val (fun y => { y with run := some (evalTick r.val true x u).1 }) (evalTick r.val true x u).2) := by
  rw [patternTickEval_ticked h, ← hu, runTicked, hx]
  exact if_pos hd

theorem patternTickEval_notDue (hd : ∀ x, (getRec u r.val).run = some x → tickDue u x = false) :
    exec (.patternTickEval r) s = .next u := by
  rw [patternTickEval_ticked h, ← hu, runTicked]
  rcases hx : (getRec u r.val).run with _ | x
  · rfl
  · exact if_neg (ne_true_of_eq_false (hd x hx))

end

section
variable (h : RecInUse s r)
include h

theorem rowWrite_run {x y : RecRun} {t : State} (ho : (getRec s r.val).old = none) (hx : (getRec s r.val).run = some x)
    (hw : writeRow r.val x s = some (y, t)) :
    exec (.rowWrite r) s = .next (modRec r.val (fun z => { z with run := some y }) t) := by
  refine (if_neg (recInUse_open h)).trans ?_
  simp only [ho, hx, hw]

theorem rowWrite_old {t : LT} {x y : RecRun} {u : State} (ho : (getRec s r.val).old = some (t, x))
    (hw : writeRow r.val x s = some (y, u)) :
    exec (.rowWrite r) s = .next (dropOld r.val (modRec r.val (fun z => { z with old := some (t, y) }) u)) := by
  refine (if_neg (recInUse_open h)).trans ?_
  simp only [ho, hw]

theorem rowWrite_idle_run (ho : (getRec s r.val).old = none) (hn : ∀ x, (getRec s r.val).run = some x → writeRow r.val x s = none) :
    exec (.rowWrite r) s = .next s := by
  refine (if_neg (recInUse_open h)).trans ?_
  rcases hx : (getRec s r.val).run with _ | x
  · simp only [ho]
  · simp only [ho, hn x hx]

theorem rowWrite_idle_old {t : LT} {x : RecRun} (ho : (getRec s r.val).old = some (t, x)) (hn : writeRow r.val x s = none) :
    exec (.rowWrite r) s = .next s := by
  refine (if_neg (recInUse_open h)).trans ?_
  simp only [ho, hn]

end

theorem recordComplete_oldest {x : Record} (hx : (getRec s r.val).held.find? (·.closed) = some x) :
    exec (.recordComplete r) s = .next (raiseArg 0x43 (getRec s r.val).owner (BitVec.ofNat 32 r.val)
      (modRec r.val (fun y => { y with held := y.held.map (fun h => if h.no = x.no then { h with closed := false } else h) }) s)) := by
  show execRecordComplete r s = _
  simp only [execRecordComplete, hx]

theorem recordComplete_none (hx : (getRec s r.val).held.find? (·.closed) = none) : exec (.recordComplete r) s = .next s := by
  show execRecordComplete r s = _
  simp only [execRecordComplete, hx]

end

/-! ## Records listed, read and released (R301) -/

section
variable {op : BitVec 16} {c : Cmd} {r : Fin 8} {s : State} {body : State → State × Option ReplyBody}

/-- A command on a recorder's records does its work for the manager and the owner. -/
theorem recordCommand_allowed (h : runs op true c s = true) (hd : recDenied c r.val (entered op c s) = false) :
    command op true c s (fun s => if recDenied c r.val s then (s, some (st .denied)) else body s) =
      .next (afterBody op c (body (entered op c s))) :=
  (command_runs h _).trans (congrArg (fun x => (.next (afterBody op c x) : Res)) (if_neg (ne_true_of_eq_false hd)))

theorem recordCommand_denied (h : runs op true c s = true) (hd : recDenied c r.val (entered op c s) = true) :
    command op true c s (fun s => if recDenied c r.val s then (s, some (st .denied)) else body s) =
      answered op c (st .denied) (entered op c s) :=
  (command_runs h _).trans (congrArg (fun x => (.next (afterBody op c x) : Res)) (if_pos hd))

end

/-- Words of a record found in error: the guard code keeps each, and AR its flag. -/
def recordWordsBad (o : Tag) (hits : List (Nat × GuardHit)) (s : State) : State :=
  hits.foldl (fun s e => onAr (fun a => { a with guardErr := true }) (guardUncorrectable 0x0 0x8 o e.2 s)) s

theorem ar_eq_of_outside {l : List Part} (hl : .ar ∉ l) {s t : State} (h : outside l t = outside l s) : t.ar = s.ar := by
  simpa [outside, hl] using congrArg State.ar h

/-- The parts that the guard code reaches. -/
abbrev guardParts : List Part := [.im, .grd, .log, .ev, .out]

theorem guardReads_ar (n : Nat) (g : List (Nat × GuardFind)) (s : State) : (guardReads n g s).2.ar = s.ar :=
  ar_eq_of_outside (l := guardParts) (by decide) (guardReads_outside (List.Subset.refl _) ..)

theorem guardUncorrectable_ar (n m : Nat) (o : Tag) (h : GuardHit) (s : State) : (guardUncorrectable n m o h s).ar = s.ar :=
  ar_eq_of_outside (l := guardParts) (by decide) (guardUncorrectable_outside (List.Subset.refl _) ..)

theorem recordWordsBad_recorder (o : Tag) (hits : List (Nat × GuardHit)) (s : State) :
    (recordWordsBad o hits s).ar.recorder = s.ar.recorder := by
  induction hits generalizing s with
  | nil => rfl
  | cons e l ih =>
    calc (recordWordsBad o (e :: l) s).ar.recorder
        = (onAr (fun a => { a with guardErr := true }) (guardUncorrectable 0x0 0x8 o e.2 s)).ar.recorder := ih _
      _ = s.ar.recorder := by rw [onAr_ar, guardUncorrectable_ar]

theorem getRec_congr {s t : State} (h : t.ar.recorder = s.ar.recorder) (r : Nat) : getRec t r = getRec s r := by
  rw [getRec, getRec, h]

/-- The state after the words of a record are read. -/
abbrev recordWordsRead (o : Tag) (g : List (Nat × GuardFind)) (s : State) : State :=
  recordWordsBad o (guardReads 0x0 g s).1 (guardReads 0x0 g s).2

theorem getRec_recordWordsRead (o : Tag) (g : List (Nat × GuardFind)) (s : State) (r : Nat) :
    getRec (recordWordsRead o g s) r = getRec s r :=
  getRec_congr ((recordWordsBad_recorder ..).trans (congrArg ArState.recorder (guardReads_ar ..))) r

section
variable {s : State} {c : Cmd} {r : Fin 8}

theorem arRecordList_entries (h : runs 0x0812 true c s = true) (hd : recDenied c r.val (entered 0x0812 c s) = false) :
    exec (.arRecordList c r) s =
      answered 0x0812 c { buf := .bytes ((readable (getRec (entered 0x0812 c s) r.val)).flatMap recordEntry) } (entered 0x0812 c s) :=
  recordCommand_allowed h hd

section
variable {n : BitVec 32} {o l : Nat} {g : List (Nat × GuardFind)} (h : runs 0x0813 true c s = true)
include h

theorem arRecordRead_denied (hd : recDenied c r.val (entered 0x0813 c s) = true) :
    exec (.arRecordRead c r n o l g) s = answered 0x0813 c (st .denied) (entered 0x0813 c s) :=
  recordCommand_denied h hd

variable (hd : recDenied c r.val (entered 0x0813 c s) = false)
include hd

theorem arRecordRead_stale (hx : (readable (getRec (entered 0x0813 c s) r.val)).find? (·.no == n) = none) :
    exec (.arRecordRead c r n o l g) s = answered 0x0813 c (st .stale) (entered 0x0813 c s) := by
  refine (recordCommand_allowed h hd).trans ?_
  simp only [hx]
  rfl

variable {x : Record} (hx : (readable (getRec (entered 0x0813 c s) r.val)).find? (·.no == n) = some x)
include hx

theorem arRecordRead_badParam (hl : l = 0 ∨ recordLen x < o + l) :
    exec (.arRecordRead c r n o l g) s = answered 0x0813 c (st .badParam) (entered 0x0813 c s) := by
  refine (recordCommand_allowed h hd).trans ?_
  simp only [hx, if_pos hl]
  rfl

theorem arRecordRead_image (hl : 1 ≤ l ∧ o + l ≤ recordLen x) :
    exec (.arRecordRead c r n o l g) s = answered 0x0813 c
      { buf := .bytes (((recordImage r.val (getRec (entered 0x0813 c s) r.val).owner x
          ((guardReads 0x0 g (entered 0x0813 c s)).1.map (·.1))).drop o).take l) }
      (recordWordsRead (getRec (entered 0x0813 c s) r.val).owner g (entered 0x0813 c s)) := by
  have hl' : ¬(l = 0 ∨ recordLen x < o + l) := by omega
  refine (recordCommand_allowed h hd).trans ?_
  simp only [hx, if_neg hl']
  rfl

end

theorem arRecordRelease_released {l : List (BitVec 32)} (h : runs 0x0814 true c s = true)
    (hd : recDenied c r.val (entered 0x0814 c s) = false) :
    exec (.arRecordRelease c r l) s = answered 0x0814 c
      (st (if l.all ((readable (getRec (entered 0x0814 c s) r.val)).map (·.no)).contains then .ok else .stale))
      (resumeFull r.val (modRec r.val (fun y => { y with held := y.held.filter (fun h => h.closed || !l.contains h.no) })
        (entered 0x0814 c s))) :=
  recordCommand_allowed h hd

end

/-- Settles O39: each event by its lemmas, where it is due and where it is not, and the commands on records by who may have them. -/
theorem linksEdgesAndRecorders : Obligations.LinksEdgesAndRecorders := by
  -- wideband links
  refine ⟨fun _ _ _ _ _ hr hen ht hv hc hm => wslFrameReceive_matched ⟨hr, hen, ht⟩ hv hc hm,
    fun _ _ _ _ hr hen ht hv hc hm => wslFrameReceive_unmatched ⟨hr, hen, ht⟩ hv hc hm, ?_, fun _ _ _ h => wslFrameReceive_idle h,
    fun _ _ hr hen hb hd hs => wslFrameDeadline_locked ⟨hr, hen, hb, hd⟩ hs,
    fun _ _ hr hen hb hd hs => wslFrameDeadline_unlocked ⟨hr, hen, hb, hd⟩ hs,
    fun _ _ h => wslFrameDeadline_idle h, wslRetrainDone_ends, ?_⟩
  · rintro _ _ _ _ _ hr hen ht hv hc rfl
    exact wslFrameReceive_badCrc ⟨hr, hen, ht⟩ hv hc
  -- fast edges
  refine ⟨fun _ _ _ _ _ _ _ hr hn hu hp => fastEdgeArrival_point hr hn hu hp,
    fun _ _ _ _ _ _ hr hn hu hp => fastEdgeArrival_noPoint hr hn hu hp, fun _ _ _ _ _ h => fastEdgeArrival_idle h,
    fun _ _ _ h => tdcCalibrationDone_powered h, fun _ _ _ h => tdcCalibrationDone_off h,
    fun _ _ _ _ _ _ h hf => edgePop_entry h hf, fun _ _ _ _ h hf => edgePop_empty h hf, fun _ _ _ _ h => edgePop_notReady h, ?_⟩
  -- recorders
  refine ⟨fun _ _ _ _ hr hs hu hx hd => patternTickEval_due ⟨hr, hs⟩ hu hx hd,
    fun _ _ _ hr hs hu hd => patternTickEval_notDue ⟨hr, hs⟩ hu hd, fun _ _ h => recNotInUse_idle h,
    fun s r x hr hs ho hx hw => ?_, fun s r t x hr hs ho hw => ?_, fun s r hr hs h => ?_,
    fun _ _ _ hx => recordComplete_oldest hx, fun _ _ hx => recordComplete_none hx, ?_⟩
  · obtain ⟨⟨y, t⟩, hw⟩ := Option.isSome_iff_exists.mp hw
    exact ⟨y, t, hw, rowWrite_run ⟨hr, hs⟩ ho hx hw⟩
  · obtain ⟨⟨y, u⟩, hw⟩ := Option.isSome_iff_exists.mp hw
    exact ⟨y, u, hw, rowWrite_old ⟨hr, hs⟩ ho hw⟩
  · obtain ⟨ho, hn⟩ | ⟨t, x, ho, hn⟩ := h
    · exact rowWrite_idle_run ⟨hr, hs⟩ ho hn
    · exact rowWrite_idle_old ⟨hr, hs⟩ ho hn
  -- records listed, read and released
  refine ⟨fun _ _ _ h hd => arRecordList_entries h hd, fun _ _ _ h hd => recordCommand_denied h hd,
    fun s c r n o l x g h hd hx hl => ?_, fun s c r n o l g e h he => ?_,
    fun _ _ _ _ h hd => arRecordRelease_released h hd, fun _ _ _ _ h hd => recordCommand_denied h hd⟩
  · refine ⟨recordWordsRead (getRec (entered 0x0813 c s) r.val).owner g (entered 0x0813 c s),
      (arRecordRead_image h hd hx hl).trans ?_, fun hg => by rw [hg]; rfl⟩
    rw [getRec_recordWordsRead]
  · obtain ⟨hd, rfl⟩ | ⟨hd, hx, rfl⟩ | ⟨hd, rfl, x, hx, hl⟩ := he
    · exact arRecordRead_denied h hd
    · exact arRecordRead_stale h hd hx
    · exact arRecordRead_badParam h hd hx hl

end Sys2Proof.Machine
end
section
/-! The instructions of the Tahr engines where an engine stands at a whole word (O23, O40 to O44). Each shared shape of a meaning (a result written
to D, a load, a store, a branch, a block in memory) has two lemmas: what it does in time, and which fault it raises. -/

namespace Sys2Proof.Machine

section
variable {op n : Nat} {zero : BitVec 64} {x : TahrOp} {s : State} {r : Region} {cyc : Cycle} {w : BitVec 64}

/-! ## Any instruction -/

/-- The meaning's result where it completes and the window leaves it its cycles (R360). -/
theorem tahr_done {sem : State → TahrOp → Engine → Region → Cycle → BitVec 64 → TahrRes} {g : Engine} (k : Cycle) {k' : Cycle}
    (h : atWord op zero x s = some (r, cyc, w)) (hop : opReserved op = false) (ht : inTime x s cyc n = true)
    (hs : sem s x (getEng s x.e.val) r cyc w = .done n g k) (hk : { k with elapsed := cyc.elapsed + n } = k') :
    tahr op zero x sem s = ranTo x g k' s := by
  rw [tahr_atWord h hop, hs, ← hk]
  exact if_pos ht

/-- The fault that the meaning raises (R346). -/
theorem tahr_faulted {sem : State → TahrOp → Engine → Region → Cycle → BitVec 64 → TahrRes} {code ad : Nat}
    (h : atWord op zero x s = some (r, cyc, w)) (hop : opReserved op = false) (hs : sem s x (getEng s x.e.val) r cyc w = .fault code ad) :
    tahr op zero x sem s = faulted x s cyc w code ad := by
  rw [tahr_atWord h hop, hs]

/-! ## A result in D -/

theorem tahrSet_wroteD {f : Engine → Cycle → BitVec 64 → BitVec 64 × BitVec 64} {v fl : BitVec 64}
    (h : atWord op zero x s = some (r, cyc, w)) (hop : opReserved op = false) (ht : inTime x s cyc n = true)
    (hf : f (getEng s x.e.val) cyc w = (v, fl)) : tahrSet op zero n x f s = wroteD x s cyc w n v fl := by
  unfold tahrSet
  refine tahr_done { cyc with pc := cyc.pc + 1, flags := cyc.flags ||| fl } h hop ht ?_ rfl
  dsimp only
  rw [hf]

theorem tahrBin_wroteD {f : BitVec 64 → BitVec 64 → BitVec 64 × BitVec 64} {v fl : BitVec 64} (h : atWord op zero x s = some (r, cyc, w))
    (hop : opReserved op = false) (ht : inTime x s cyc n = true) (hf : f (opA x s w) (opB x s w) = (v, fl)) :
    tahrBin op zero n x f s = wroteD x s cyc w n v fl := tahrSet_wroteD h hop ht hf

theorem tahrImm_wroteD {f : BitVec 64 → BitVec 64 → BitVec 64} (h : atWord op zero x s = some (r, cyc, w))
    (hop : opReserved op = false) (ht : inTime x s cyc 1 = true) :
    tahrImm op zero x f s = wroteD x s cyc w 1 (f (opA x s w) (wSext w)) 0 :=
  tahrSet_wroteD h hop ht rfl

/-- An instruction that writes D and sets no bit of FLAGS. -/
theorem tahr_wroteD {sem : State → TahrOp → Engine → Region → Cycle → BitVec 64 → TahrRes} {v : BitVec 64}
    (h : atWord op zero x s = some (r, cyc, w)) (hop : opReserved op = false) (ht : inTime x s cyc n = true)
    (hs : sem s x (getEng s x.e.val) r cyc w = .done n (wrV (getEng s x.e.val) (wD w) v) (nextPc cyc)) :
    tahr op zero x sem s = wroteD x s cyc w n v 0 := by
  refine tahr_done _ h hop ht hs ?_
  rw [nextPc, BitVec.ofNat_eq_ofNat, BitVec.or_zero]

/-- The result of an instruction that has an exception: the result and the FLAGS bits of the branch taken. -/
theorem resultOf_ite {p : Prop} [Decidable p] (a b c d : BitVec 64) :
    (if p then (a, c) else (b, d)) = (if p then a else b, if p then c else d) := by split <;> rfl

/-! ## Memory -/

theorem tahrLoad_wroteD {f : BitVec 64 → BitVec 64} (h : atWord op (zB ||| zC) x s = some (r, cyc, w)) (hop : opReserved op = false)
    (ht : inTime x s cyc 2 = true) (hd : dataFault x r (memAddr (getEng s x.e.val) w) n n = none) :
    tahrLoad op n x f s = wroteD x s cyc w 2 (f (ldMem (getEng s x.e.val) (memAddr (getEng s x.e.val) w) n)) 0 := by
  refine tahr_wroteD h hop ht ?_
  dsimp only
  rw [hd]

theorem tahrLoad_faulted {f : BitVec 64 → BitVec 64} {code ad : Nat} (h : atWord op (zB ||| zC) x s = some (r, cyc, w))
    (hop : opReserved op = false) (hd : dataFault x r (memAddr (getEng s x.e.val) w) n n = some (code, ad)) :
    tahrLoad op n x f s = faulted x s cyc w code ad := by
  refine tahr_faulted h hop ?_
  dsimp only
  rw [hd]

theorem tahrStore_ran (h : atWord op (zB ||| zC) x s = some (r, cyc, w)) (hop : opReserved op = false) (ht : inTime x s cyc 1 = true)
    (hd : dataFault x r (memAddr (getEng s x.e.val) w) n n = none) :
    tahrStore op n x s = ranTo x (stMem (getEng s x.e.val) (memAddr (getEng s x.e.val) w) n (rdV (getEng s x.e.val) (wD w)))
      { cyc with pc := cyc.pc + 1, elapsed := cyc.elapsed + 1 } s := by
  unfold tahrStore
  refine tahr_done (nextPc cyc) h hop ht ?_ rfl
  dsimp only
  rw [hd]

theorem tahrStore_faulted {code ad : Nat} (h : atWord op (zB ||| zC) x s = some (r, cyc, w)) (hop : opReserved op = false)
    (hd : dataFault x r (memAddr (getEng s x.e.val) w) n n = some (code, ad)) : tahrStore op n x s = faulted x s cyc w code ad := by
  refine tahr_faulted h hop ?_
  dsimp only
  rw [hd]

/-! ## Branches, the call and the return -/

theorem tahrBranch_untaken {g g' : Engine} : tahrBranch r cyc w false g g' = .done 1 g (nextPc cyc) := rfl

theorem tahrBranch_taken {g g' : Engine} {t : Nat} (hb : branchTarget cyc w = t) (hc : inCode r t = true) :
    tahrBranch r cyc w true g g' = .done 2 g' { cyc with pc := t } := by
  have ht : ¬((t : Int) < 0 ∨ (!inCode r (t : Int).toNat) = true) := by simp [hc]
  exact (if_neg (by decide)).trans (by rw [hb]; exact if_neg ht)

theorem tahrBranch_outside {g g' : Engine} (hb : branchTarget cyc w < 0 ∨ inCode r (branchTarget cyc w).toNat = false) :
    tahrBranch r cyc w true g g' = .fault fAccess 0 :=
  (if_neg (by decide)).trans (if_pos (by simpa using hb))

section
variable {p : BitVec 64 → BitVec 64 → Bool}

theorem tahrCond_taken {t : Nat} (h : atWord op (zD ||| zC) x s = some (r, cyc, w)) (hop : opReserved op = false)
    (ht : inTime x s cyc 2 = true) (hp : p (opA x s w) (opB x s w) = true) (hb : branchTarget cyc w = t) (hc : inCode r t = true) :
    tahrCond op x p s = ranTo x (getEng s x.e.val) { cyc with pc := t, elapsed := cyc.elapsed + 2 } s := by
  unfold tahrCond
  refine tahr_done { cyc with pc := t } h hop ht ?_ rfl
  rw [opA, opB] at hp
  rw [hp, tahrBranch_taken hb hc]

theorem tahrCond_untaken (h : atWord op (zD ||| zC) x s = some (r, cyc, w)) (hop : opReserved op = false) (ht : inTime x s cyc 1 = true)
    (hp : p (opA x s w) (opB x s w) = false) :
    tahrCond op x p s = ranTo x (getEng s x.e.val) { cyc with pc := cyc.pc + 1, elapsed := cyc.elapsed + 1 } s := by
  unfold tahrCond
  refine tahr_done (nextPc cyc) h hop ht ?_ rfl
  rw [opA, opB] at hp
  rw [hp, tahrBranch_untaken]

theorem tahrCond_faulted (h : atWord op (zD ||| zC) x s = some (r, cyc, w)) (hop : opReserved op = false)
    (hp : p (opA x s w) (opB x s w) = true) (hb : branchTarget cyc w < 0 ∨ inCode r (branchTarget cyc w).toNat = false) :
    tahrCond op x p s = faulted x s cyc w fAccess 0 := by
  unfold tahrCond
  refine tahr_faulted h hop ?_
  rw [opA, opB] at hp
  rw [hp, tahrBranch_outside hb]

end

theorem tahrBr_taken {t : Nat} (h : atWord 0x80 (zD ||| zA ||| zB ||| zC) x s = some (r, cyc, w)) (ht : inTime x s cyc 2 = true)
    (hb : branchTarget cyc w = t) (hc : inCode r t = true) :
    execTahrBr x s = ranTo x (getEng s x.e.val) { cyc with pc := t, elapsed := cyc.elapsed + 2 } s := by
  unfold execTahrBr
  exact tahr_done { cyc with pc := t } h rfl ht (tahrBranch_taken hb hc) rfl

theorem tahrBr_faulted (h : atWord 0x80 (zD ||| zA ||| zB ||| zC) x s = some (r, cyc, w))
    (hb : branchTarget cyc w < 0 ∨ inCode r (branchTarget cyc w).toNat = false) : execTahrBr x s = faulted x s cyc w fAccess 0 := by
  unfold execTahrBr
  exact tahr_faulted h rfl (tahrBranch_outside hb)

theorem tahrLoop_taken {t : Nat} (h : atWord 0x86 (zD ||| zB ||| zC) x s = some (r, cyc, w)) (ht : inTime x s cyc 2 = true)
    (hn : rdV (wrV (getEng s x.e.val) (wA w) (opA x s w - 1)) (wA w) ≠ 0) (hb : branchTarget cyc w = t) (hc : inCode r t = true) :
    execTahrLoop x s =
      ranTo x (wrV (getEng s x.e.val) (wA w) (opA x s w - 1)) { cyc with pc := t, elapsed := cyc.elapsed + 2 } s := by
  unfold execTahrLoop
  refine tahr_done { cyc with pc := t } h rfl ht ?_ rfl
  rw [opA] at hn ⊢
  dsimp only
  rw [bne_iff_ne.mpr hn, tahrBranch_taken hb hc]

theorem tahrLoop_untaken (h : atWord 0x86 (zD ||| zB ||| zC) x s = some (r, cyc, w)) (ht : inTime x s cyc 1 = true)
    (hn : rdV (wrV (getEng s x.e.val) (wA w) (opA x s w - 1)) (wA w) = 0) :
    execTahrLoop x s =
      ranTo x (wrV (getEng s x.e.val) (wA w) (opA x s w - 1)) { cyc with pc := cyc.pc + 1, elapsed := cyc.elapsed + 1 } s := by
  unfold execTahrLoop
  refine tahr_done (nextPc cyc) h rfl ht ?_ rfl
  rw [opA] at hn ⊢
  dsimp only
  rw [hn]
  exact tahrBranch_untaken

theorem tahrLoop_faulted (h : atWord 0x86 (zD ||| zB ||| zC) x s = some (r, cyc, w))
    (hn : rdV (wrV (getEng s x.e.val) (wA w) (opA x s w - 1)) (wA w) ≠ 0)
    (hb : branchTarget cyc w < 0 ∨ inCode r (branchTarget cyc w).toNat = false) : execTahrLoop x s = faulted x s cyc w fAccess 0 := by
  unfold execTahrLoop
  refine tahr_faulted h rfl ?_
  rw [opA] at hn
  dsimp only
  rw [bne_iff_ne.mpr hn, tahrBranch_outside hb]

/-- FBCALL pushes the return point and V62 (R340). -/
theorem tahrFbcall_ran (h : atWord 0x87 (zD ||| zB ||| zC ||| 0xFFFFE000) x s = some (r, cyc, w)) (ht : inTime x s cyc 3 = true)
    (hc : inCode r (w.extractLsb' 0 13).toNat = true) (hl : (getEng s x.e.val).stack.length < 16) :
    execTahrFbcall x s =
      ranTo x (wrV { getEng s x.e.val with stack := (cyc.pc + 1, rdV (getEng s x.e.val) 62) :: (getEng s x.e.val).stack } 62 (opA x s w))
        { cyc with pc := (w.extractLsb' 0 13).toNat, elapsed := cyc.elapsed + 3 } s := by
  unfold execTahrFbcall
  refine tahr_done { cyc with pc := (w.extractLsb' 0 13).toNat } h rfl ht ?_ rfl
  dsimp only
  rw [hc, if_neg (by decide), if_neg (Nat.not_le.mpr hl), opA]

theorem tahrFbcall_stack (h : atWord 0x87 (zD ||| zB ||| zC ||| 0xFFFFE000) x s = some (r, cyc, w))
    (hc : inCode r (w.extractLsb' 0 13).toNat = true) (hl : 16 ≤ (getEng s x.e.val).stack.length) :
    execTahrFbcall x s = faulted x s cyc w fStack 0 := by
  unfold execTahrFbcall
  refine tahr_faulted h rfl ?_
  dsimp only
  rw [hc, if_neg (by decide), if_pos hl]

theorem tahrFbcall_access (h : atWord 0x87 (zD ||| zB ||| zC ||| 0xFFFFE000) x s = some (r, cyc, w))
    (hc : inCode r (w.extractLsb' 0 13).toNat = false) : execTahrFbcall x s = faulted x s cyc w fAccess 0 := by
  unfold execTahrFbcall
  refine tahr_faulted h rfl ?_
  dsimp only
  rw [hc]
  rfl

/-- RET pops the return point and V62 (R340). -/
theorem tahrRet_ran {p : Nat × BitVec 64} {l : List (Nat × BitVec 64)}
    (h : atWord 0x88 (zD ||| zA ||| zB ||| zC ||| zI) x s = some (r, cyc, w)) (ht : inTime x s cyc 3 = true)
    (hl : (getEng s x.e.val).stack = p :: l) :
    execTahrRet x s = ranTo x (wrV { getEng s x.e.val with stack := l } 62 p.2) { cyc with pc := p.1, elapsed := cyc.elapsed + 3 } s := by
  unfold execTahrRet
  refine tahr_done { cyc with pc := p.1 } h rfl ht ?_ rfl
  rw [hl]

theorem tahrRet_stack (h : atWord 0x88 (zD ||| zA ||| zB ||| zC ||| zI) x s = some (r, cyc, w)) (hl : (getEng s x.e.val).stack = []) :
    execTahrRet x s = faulted x s cyc w fStack 0 := by
  unfold execTahrRet
  refine tahr_faulted h rfl ?_
  rw [hl]

/-! ## NOP and END -/

theorem tahrNop_ran (h : atWord 0x8A (zD ||| zA ||| zB ||| zC ||| zI) x s = some (r, cyc, w)) (ht : inTime x s cyc 1 = true) :
    execTahrNop x s = ranTo x (getEng s x.e.val) { cyc with pc := cyc.pc + 1, elapsed := cyc.elapsed + 1 } s := by
  unfold execTahrNop
  exact tahr_done (nextPc cyc) h rfl ht rfl rfl

@[simp] theorem getEng_modEng (e : Nat) (f : Engine → Engine) (s : State) : getEng (modEng e f s) e = f (getEng s e) := by
  simp [getEng, modEng, Tab.upd]

theorem getEng_modEng_ne {e e2 : Nat} (he : e2 ≠ e) (f : Engine → Engine) (s : State) : getEng (modEng e f s) e2 = getEng s e2 := by
  simp [getEng, modEng, Tab.upd, Tab.getD, get?_put_ne _ _ _ _ he.symm]

/-- END lets its cycle end (R328, R368). -/
theorem tahrEnd_ended (h : atWord 0x89 (zD ||| zA ||| zB ||| zC ||| zI) x s = some (r, cyc, w)) (ht : inTime x s cyc 1 = true) :
    execTahrEnd x s = .next (tahrEnd x.e.val (modEng x.e.val
      (fun _ => { getEng s x.e.val with cycle := some { cyc with ended := true, elapsed := cyc.elapsed + 1 } }) s)) := by
  unfold execTahrEnd
  rw [tahr_done { cyc with ended := true } h rfl ht rfl rfl, ranTo]
  dsimp only
  rw [getEng_modEng]
  rfl

/-! ## Points and special registers -/

theorem tahrLdp_wroteD {f : PointRec → BitVec 64} {p : PointRec} (h : atWord op (zA ||| zB ||| zC ||| 0xFFFF0000) x s = some (r, cyc, w))
    (hop : opReserved op = false) (ht : inTime x s cyc 2 = true) (hp : cyc.imports[(w.extractLsb' 0 16).toNat]? = some p) :
    tahrLdp op x f s = wroteD x s cyc w 2 (f p) 0 := by
  obtain ⟨_, _, hclean, _⟩ := atWord_some h
  unfold tahrLdp
  refine tahr_wroteD h hop ht ?_
  dsimp only
  rw [hp, badWord, hclean]
  rfl

theorem tahrLdp_slot {f : PointRec → BitVec 64} (h : atWord op (zA ||| zB ||| zC ||| 0xFFFF0000) x s = some (r, cyc, w))
    (hop : opReserved op = false) (hp : cyc.imports[(w.extractLsb' 0 16).toNat]? = none) :
    tahrLdp op x f s = faulted x s cyc w fSlot (w.extractLsb' 0 16).toNat := by
  unfold tahrLdp
  refine tahr_faulted h hop ?_
  dsimp only
  rw [hp]

theorem tahrStp_ran {lt : Engine → BitVec 64 → Option LT} (h : atWord op (zero ||| 0xFFFF0000) x s = some (r, cyc, w))
    (hop : opReserved op = false) (ht : inTime x s cyc 1 = true) (hn : (w.extractLsb' 0 16).toNat < cyc.nExp) :
    tahrStp op zero x lt s = ranTo x (getEng s x.e.val) { cyc with
      pc := cyc.pc + 1, elapsed := cyc.elapsed + 1
      exports := cyc.exports.filter (fun e => e.1 != (w.extractLsb' 0 16).toNat) ++
        [((w.extractLsb' 0 16).toNat, { value := rdV (getEng s x.e.val) (wD w), quality := (opC x s w).truncate 16
                                        lt := lt (getEng s x.e.val) w })] } s := by
  unfold tahrStp
  exact tahr_done _ h hop ht (if_neg (Nat.not_le.mpr hn)) rfl

theorem tahrStp_slot {lt : Engine → BitVec 64 → Option LT} (h : atWord op (zero ||| 0xFFFF0000) x s = some (r, cyc, w))
    (hop : opReserved op = false) (hn : cyc.nExp ≤ (w.extractLsb' 0 16).toNat) :
    tahrStp op zero x lt s = faulted x s cyc w fSlot (w.extractLsb' 0 16).toNat := by
  unfold tahrStp
  exact tahr_faulted h hop (if_pos hn)

theorem tahrRdsr_wroteD {v : BitVec 64} (h : atWord 0x70 (zA ||| zB ||| zC) x s = some (r, cyc, w)) (ht : inTime x s cyc 1 = true)
    (hv : specialReg x.e.val cyc (w.extractLsb' 0 8).toNat = some v) : execTahrRdsr x s = wroteD x s cyc w 1 v 0 := by
  unfold execTahrRdsr
  refine tahr_wroteD h rfl ht ?_
  rw [hv]

theorem tahrRdsr_illegal (h : atWord 0x70 (zA ||| zB ||| zC) x s = some (r, cyc, w))
    (hv : specialReg x.e.val cyc (w.extractLsb' 0 8).toNat = none) : execTahrRdsr x s = faulted x s cyc w fIllegal 0 := by
  unfold execTahrRdsr
  refine tahr_faulted h rfl ?_
  rw [hv]

/-! ## Blocks in memory -/

section
variable {size a : Nat} {f : Engine → Cycle → Nat → BitVec 64 → BitVec 64 → Engine × BitVec 64}

theorem tahrBlock_ran {g : Engine} {v : BitVec 64} (h : atWord op zero x s = some (r, cyc, w)) (hop : opReserved op = false)
    (ht : inTime x s cyc n = true) (ha : (opC x s w + wSext w).toNat = a) (hd : dataFault x r a size 8 = none)
    (hf : f (getEng s x.e.val) cyc a (opA x s w) (opB x s w) = (g, v)) :
    tahrBlock op zero size n x f s = ranTo x (wrV g (wD w) v) { cyc with pc := cyc.pc + 1, elapsed := cyc.elapsed + n } s := by
  subst ha
  unfold tahrBlock
  refine tahr_done (nextPc cyc) h hop ht ?_ rfl
  rw [opC] at hd
  rw [opA, opB, opC] at hf
  dsimp only
  rw [hd, hf]

theorem tahrBlock_faulted {code ad : Nat} (h : atWord op zero x s = some (r, cyc, w)) (hop : opReserved op = false)
    (hd : dataFault x r (opC x s w + wSext w).toNat size 8 = some (code, ad)) :
    tahrBlock op zero size n x f s = faulted x s cyc w code ad := by
  unfold tahrBlock
  refine tahr_faulted h hop ?_
  rw [opC] at hd
  dsimp only
  rw [hd]

/-- A timer steps its block (R336). -/
theorem tahrTimer_ran {f : TimerBlk → BitVec 64 → BitVec 64 → Bool → TimerBlk} {b : TimerBlk} (h : atWord op 0 x s = some (r, cyc, w))
    (hop : opReserved op = false) (ht : inTime x s cyc 6 = true) (ha : (opC x s w + wSext w).toNat = a)
    (hd : dataFault x r a 24 8 = none)
    (hb : f (rdTimer (getEng s x.e.val) a) cyc.tclk (if (opB x s w).slt 0 then 0 else opB x s w) (opA x s w != 0) = b) :
    tahrTimer op x f s = ranTo x (wrV (wrTimer (getEng s x.e.val) a { b with inPrev := opA x s w != 0 }) (wD w) (boolV b.q))
      { cyc with pc := cyc.pc + 1, elapsed := cyc.elapsed + 6 } s := by
  subst hb
  exact tahrBlock_ran h hop ht ha hd rfl

theorem tahrTimer_faulted {f : TimerBlk → BitVec 64 → BitVec 64 → Bool → TimerBlk} {code ad : Nat}
    (h : atWord op 0 x s = some (r, cyc, w)) (hop : opReserved op = false)
    (hd : dataFault x r (opC x s w + wSext w).toNat 24 8 = some (code, ad)) : tahrTimer op x f s = faulted x s cyc w code ad :=
  tahrBlock_faulted h hop hd

/-- A counter steps its block (R338). -/
theorem tahrCounter_ran {f : BitVec 64 → Bool → Bool → BitVec 64 → BitVec 64 → BitVec 64} {d : BitVec 64 → BitVec 64 → BitVec 64}
    {cv : BitVec 64} (h : atWord op 0 x s = some (r, cyc, w)) (hop : opReserved op = false) (ht : inTime x s cyc 5 = true)
    (ha : (opC x s w + wSext w).toNat = a) (hd : dataFault x r a 16 8 = none)
    (hcv : cv = f (opA x s w) ((opA x s w).getLsbD 0 && !(ldMem (getEng s x.e.val) (a + 8) 8).getLsbD 0)
      ((opA x s w).getLsbD 1 && !(ldMem (getEng s x.e.val) (a + 8) 8).getLsbD 1) (ldMem (getEng s x.e.val) a 8) (opB x s w)) :
    tahrCounter op x f d s = ranTo x (wrV (stMem (stMem (getEng s x.e.val) a 8 cv) (a + 8) 8
        (BitVec.ofNat 64 (bitN ((opA x s w).getLsbD 0) + 2 * bitN ((opA x s w).getLsbD 1)))) (wD w) (d cv (opB x s w)))
      { cyc with pc := cyc.pc + 1, elapsed := cyc.elapsed + 5 } s := by
  subst hcv
  exact tahrBlock_ran h hop ht ha hd rfl

theorem tahrCounter_faulted {f : BitVec 64 → Bool → Bool → BitVec 64 → BitVec 64 → BitVec 64} {d : BitVec 64 → BitVec 64 → BitVec 64}
    {code ad : Nat} (h : atWord op 0 x s = some (r, cyc, w)) (hop : opReserved op = false)
    (hd : dataFault x r (opC x s w + wSext w).toNat 16 8 = some (code, ad)) : tahrCounter op x f d s = faulted x s cyc w code ad :=
  tahrBlock_faulted h hop hd

end

/-! ## Packets -/

section
variable {a len code ad : Nat}

/-- What keeps a packet from the send-buffer slice: its length, or the room left (R344). -/
theorem packet_fits {used : Nat} (hlen : 14 ≤ len ∧ len ≤ 8160) (hroom : used + 32 * ceilDiv (32 + len) 32 ≤ 8192) :
    ¬(len < 14 ∨ 8160 < len ∨ 8192 < used + 32 * ceilDiv (32 + len) 32) := by omega

theorem tahrQsend_sent (h : atWord 0x79 (zD ||| zB ||| zC ||| 0xFFFFFFFE) x s = some (r, cyc, w)) (ha : (opA x s w).toNat = a)
    (hn : ofBytesLE ((getEng s x.e.val).mem.readN (a + 8) 2) = len) (hlen : 14 ≤ len ∧ len ≤ 8160)
    (hroom : sliceUsed (getEng s x.e.val) cyc + 32 * ceilDiv (32 + len) 32 ≤ 8192) (hd : dataFault x r a 32 1 = none)
    (hd' : dataFault x r (a + 32) len 1 = none) (ht : inTime x s cyc (4 + ceilDiv (32 + len) 32) = true) :
    execTahrQsend x s = ranTo x (getEng s x.e.val) { cyc with
      pc := cyc.pc + 1, elapsed := cyc.elapsed + (4 + ceilDiv (32 + len) 32)
      sends := cyc.sends ++ [(w.getLsbD 0, (getEng s x.e.val).mem.readN a (32 + len))], qsn := cyc.qsn + 1 } s := by
  unfold execTahrQsend
  refine tahr_done { nextPc cyc with
    sends := cyc.sends ++ [(w.getLsbD 0, (getEng s x.e.val).mem.readN a (32 + len))], qsn := cyc.qsn + 1 } h rfl ht ?_ rfl
  rw [opA] at ha
  simp only [ha, hd, hn, if_neg (packet_fits hlen hroom), hd']

theorem tahrQsend_refused (h : atWord 0x79 (zD ||| zB ||| zC ||| 0xFFFFFFFE) x s = some (r, cyc, w)) (ha : (opA x s w).toNat = a)
    (hn : ofBytesLE ((getEng s x.e.val).mem.readN (a + 8) 2) = len)
    (hfull : len < 14 ∨ 8160 < len ∨ 8192 < sliceUsed (getEng s x.e.val) cyc + 32 * ceilDiv (32 + len) 32)
    (hd : dataFault x r a 32 1 = none) (ht : inTime x s cyc 4 = true) :
    execTahrQsend x s =
      ranTo x (getEng s x.e.val) { cyc with pc := cyc.pc + 1, elapsed := cyc.elapsed + 4, qref := cyc.qref + 1 } s := by
  unfold execTahrQsend
  refine tahr_done { nextPc cyc with qref := cyc.qref + 1 } h rfl ht ?_ rfl
  rw [opA] at ha
  simp only [ha, hd, hn, if_pos hfull]

theorem tahrQsend_descriptor (h : atWord 0x79 (zD ||| zB ||| zC ||| 0xFFFFFFFE) x s = some (r, cyc, w))
    (hd : dataFault x r (opA x s w).toNat 32 1 = some (code, ad)) : execTahrQsend x s = faulted x s cyc w code ad := by
  unfold execTahrQsend
  refine tahr_faulted h rfl ?_
  rw [opA] at hd
  simp only [hd]

theorem tahrQsend_payload (h : atWord 0x79 (zD ||| zB ||| zC ||| 0xFFFFFFFE) x s = some (r, cyc, w))
    (hd : dataFault x r (opA x s w).toNat 32 1 = none) (hn : ofBytesLE ((getEng s x.e.val).mem.readN ((opA x s w).toNat + 8) 2) = len)
    (hlen : 14 ≤ len ∧ len ≤ 8160) (hroom : sliceUsed (getEng s x.e.val) cyc + 32 * ceilDiv (32 + len) 32 ≤ 8192)
    (hd' : dataFault x r ((opA x s w).toNat + 32) len 1 = some (code, ad)) : execTahrQsend x s = faulted x s cyc w code ad := by
  unfold execTahrQsend
  refine tahr_faulted h rfl ?_
  rw [opA] at hd hn hd'
  simp only [hd, hn, if_neg (packet_fits hlen hroom), hd']

end

/-! ## The faults of no instruction -/

theorem tahrRaise_faulted (h : atWord 0x7A (zD ||| zA ||| zB ||| zC ||| 0xFFFF0000) x s = some (r, cyc, w)) :
    execTahrRaise x s = faulted x s cyc w fUser (w.extractLsb' 0 16).toNat := by
  unfold execTahrRaise
  exact tahr_faulted h rfl rfl

section
variable (hcyc : (getEng s x.e.val).cycle = some cyc) (hsnap : cyc.snap = false)
  (hwin : ltReached (cycInstant cyc cyc.elapsed) (getEng s x.e.val).winEnd = false) (hclean : x.finding = .clean)
include hcyc hsnap hwin hclean

/-- A word that no format admits, met in the owner's code (R323). -/
theorem execIllegal_faulted (hpc : (regionOf (getEng s x.e.val) cyc.owner).any (fun r => inCode r cyc.pc) = true)
    (hw : (getEng s x.e.val).code.getD cyc.pc 0 = w) (hbad : wordIllegal w = true) : execIllegal x s = faulted x s cyc w fIllegal 0 := by
  obtain ⟨r, hr, hin⟩ := (Option.any_eq_true _ _).mp hpc
  unfold execIllegal
  simp only [hcyc, hpc, hw, hbad, Bool.and_self, if_true]
  unfold tahr
  simp only [hcyc, hsnap, hwin, hr, hin, hclean, hw]
  unfold wordIllegal at hbad
  by_cases hres : opReserved (wOp w) = true
  · simp [hres, faulted]
  · have hfield : w &&& opZero (wOp w) ≠ 0 := by simpa [hres] using hbad
    rw [Bool.not_eq_true] at hres
    simp only [hres, hfield, faulted, Bool.not_true, Bool.false_eq_true, ne_eq, not_true_eq_false, not_false_eq_true, if_true, if_false]

/-- A fetch outside the owner's code (R328). -/
theorem execAccessAtFetch_faulted (hpc : (regionOf (getEng s x.e.val) cyc.owner).any (fun r => inCode r cyc.pc) = false) :
    execAccessAtFetch x s = faulted x s cyc 0 fAccess 0 := by
  unfold execAccessAtFetch
  simp only [hcyc, hclean, hpc, Bool.not_false, Bool.or_true, if_true]
  unfold tahr
  simp only [hcyc, hsnap, hwin, hclean]
  cases hr : regionOf (getEng s x.e.val) cyc.owner with
  | none => simp [faulted]
  | some r =>
    have hin : inCode r cyc.pc = false := by simpa [hr] using hpc
    simp [hin, faulted]

end

end

/-! ## What is settled -/

/-- Settles O40: each instruction writes the result of its two operands, or of one and the immediate. -/
theorem tahrIntegersWriteD : Obligations.TahrIntegersWriteD :=
  ⟨fun _ _ _ _ _ h ht => show execTahrAdd _ _ = _ from tahrBin_wroteD h rfl ht rfl,
    fun _ _ _ _ _ h ht => show execTahrSub _ _ = _ from tahrBin_wroteD h rfl ht rfl,
    fun _ _ _ _ _ h ht => show execTahrAddi _ _ = _ from tahrImm_wroteD h rfl ht,
    fun _ _ _ _ _ h ht => show execTahrMul _ _ = _ from tahrBin_wroteD h rfl ht rfl,
    fun _ _ _ _ _ h ht => show execTahrDiv _ _ = _ from tahrBin_wroteD h rfl ht (resultOf_ite ..),
    fun _ _ _ _ _ h ht => show execTahrRem _ _ = _ from tahrBin_wroteD h rfl ht (resultOf_ite ..),
    fun _ _ _ _ _ h ht => show execTahrAnd _ _ = _ from tahrBin_wroteD h rfl ht rfl,
    fun _ _ _ _ _ h ht => show execTahrOr _ _ = _ from tahrBin_wroteD h rfl ht rfl,
    fun _ _ _ _ _ h ht => show execTahrXor _ _ = _ from tahrBin_wroteD h rfl ht rfl,
    fun _ _ _ _ _ h ht => show execTahrAndi _ _ = _ from tahrImm_wroteD h rfl ht,
    fun _ _ _ _ _ h ht => show execTahrOri _ _ = _ from tahrImm_wroteD h rfl ht,
    fun _ _ _ _ _ h ht => show execTahrXori _ _ = _ from tahrImm_wroteD h rfl ht,
    fun _ _ _ _ _ h ht => show execTahrShl _ _ = _ from tahrBin_wroteD h rfl ht rfl,
    fun _ _ _ _ _ h ht => show execTahrShr _ _ = _ from tahrBin_wroteD h rfl ht rfl,
    fun _ _ _ _ _ h ht => show execTahrSar _ _ = _ from tahrBin_wroteD h rfl ht rfl,
    fun _ _ _ _ _ h ht => show execTahrShli _ _ = _ from tahrImm_wroteD h rfl ht,
    fun _ _ _ _ _ h ht => show execTahrShri _ _ = _ from tahrImm_wroteD h rfl ht,
    fun _ _ _ _ _ h ht => show execTahrSari _ _ = _ from tahrImm_wroteD h rfl ht,
    fun _ _ _ _ _ h ht => show execTahrLdi _ _ = _ from tahrImm_wroteD h rfl ht,
    fun _ _ _ _ _ h ht => show execTahrLdih _ _ = _ from tahrImm_wroteD h rfl ht,
    fun _ _ _ _ _ h ht => show execTahrMin _ _ = _ from tahrBin_wroteD h rfl ht rfl,
    fun _ _ _ _ _ h ht => show execTahrMax _ _ = _ from tahrBin_wroteD h rfl ht rfl,
    fun _ _ _ _ _ h ht => show execTahrCmpeq _ _ = _ from tahrBin_wroteD h rfl ht rfl,
    fun _ _ _ _ _ h ht => show execTahrCmplt _ _ = _ from tahrBin_wroteD h rfl ht rfl,
    fun _ _ _ _ _ h ht => show execTahrCmpltu _ _ = _ from tahrBin_wroteD h rfl ht rfl,
    fun _ _ _ _ _ h ht => show execTahrCmple _ _ = _ from tahrBin_wroteD h rfl ht rfl,
    fun _ _ _ _ _ h ht => show execTahrAbs _ _ = _ from tahrBin_wroteD h rfl ht rfl,
    fun _ _ _ _ _ h ht => show execTahrSel _ _ = _ from tahrSet_wroteD h rfl ht rfl⟩

/-- Settles O41: each instruction writes the floating-point result of its operands and the FLAGS bits of its exceptions. -/
theorem tahrFloatsWriteD : Obligations.TahrFloatsWriteD :=
  ⟨fun _ _ _ _ _ h ht => show execTahrFadd _ _ = _ from tahrBin_wroteD h rfl ht rfl,
    fun _ _ _ _ _ h ht => show execTahrFsub _ _ = _ from tahrBin_wroteD h rfl ht rfl,
    fun _ _ _ _ _ h ht => show execTahrFmul _ _ = _ from tahrBin_wroteD h rfl ht rfl,
    fun _ _ _ _ _ h ht => show execTahrFdiv _ _ = _ from tahrBin_wroteD h rfl ht rfl,
    fun _ _ _ _ _ h ht => show execTahrFsqrt _ _ = _ from tahrBin_wroteD h rfl ht rfl,
    fun _ _ _ _ _ h ht => show execTahrFneg _ _ = _ from tahrBin_wroteD h rfl ht rfl,
    fun _ _ _ _ _ h ht => show execTahrFabs _ _ = _ from tahrBin_wroteD h rfl ht rfl,
    fun _ _ _ _ _ h ht => show execTahrFmin _ _ = _ from tahrBin_wroteD h rfl ht rfl,
    fun _ _ _ _ _ h ht => show execTahrFmax _ _ = _ from tahrBin_wroteD h rfl ht rfl,
    fun _ _ _ _ _ h ht => show execTahrFcmpeq _ _ = _ from tahrBin_wroteD h rfl ht rfl,
    fun _ _ _ _ _ h ht => show execTahrFcmplt _ _ = _ from tahrBin_wroteD h rfl ht rfl,
    fun _ _ _ _ _ h ht => show execTahrFcmple _ _ = _ from tahrBin_wroteD h rfl ht rfl,
    fun _ _ _ _ _ h ht => show execTahrCvtif _ _ = _ from tahrBin_wroteD h rfl ht rfl,
    fun _ _ _ _ _ h ht => show execTahrCvtfi _ _ = _ from tahrBin_wroteD h rfl ht rfl,
    fun _ _ _ _ _ h ht => show execTahrCvtsd _ _ = _ from tahrBin_wroteD h rfl ht rfl,
    fun _ _ _ _ _ h ht => show execTahrCvtds _ _ = _ from tahrBin_wroteD h rfl ht rfl,
    fun _ _ _ _ _ h ht => show execTahrFsin _ _ = _ from tahrBin_wroteD h rfl ht rfl,
    fun _ _ _ _ _ h ht => show execTahrFcos _ _ = _ from tahrBin_wroteD h rfl ht rfl,
    fun _ _ _ _ _ h ht => show execTahrFatan2 _ _ = _ from tahrBin_wroteD h rfl ht rfl,
    fun _ _ _ _ _ h ht => show execTahrCadd _ _ = _ from tahrBin_wroteD h rfl ht rfl,
    fun _ _ _ _ _ h ht => show execTahrCsub _ _ = _ from tahrBin_wroteD h rfl ht rfl,
    fun _ _ _ _ _ h ht => show execTahrCmul _ _ = _ from tahrBin_wroteD h rfl ht rfl,
    fun _ _ _ _ _ h ht => show execTahrCdiv _ _ = _ from tahrBin_wroteD h rfl ht rfl,
    fun _ _ _ _ _ h ht => show execTahrCconj _ _ = _ from tahrBin_wroteD h rfl ht rfl,
    fun _ _ _ _ _ h ht => show execTahrCmag _ _ = _ from tahrBin_wroteD h rfl ht rfl,
    fun _ _ _ _ _ h ht => show execTahrCarg _ _ = _ from tahrBin_wroteD h rfl ht rfl,
    fun _ _ _ _ _ h ht => show execTahrCmk _ _ = _ from tahrBin_wroteD h rfl ht rfl,
    fun _ _ _ _ _ h ht => show execTahrCre _ _ = _ from tahrBin_wroteD h rfl ht rfl,
    fun _ _ _ _ _ h ht => show execTahrCim _ _ = _ from tahrBin_wroteD h rfl ht rfl,
    fun _ _ _ _ _ h ht => show execTahrCscl _ _ = _ from tahrBin_wroteD h rfl ht rfl,
    fun _ _ _ _ _ h ht => show execTahrCpol _ _ = _ from tahrBin_wroteD h rfl ht rfl,
    fun _ _ _ _ _ h ht => show execTahrCrot _ _ = _ from tahrBin_wroteD h rfl ht rfl,
    fun _ _ _ _ _ h ht => show execTahrFmadd _ _ = _ from tahrSet_wroteD h rfl ht rfl,
    fun _ _ _ _ _ h ht => show execTahrFldi _ _ = _ from tahrSet_wroteD h rfl ht rfl⟩

/-- Settles O42: each load, store, branch, call and return by what it does in time. -/
theorem tahrMovesAndBranches : Obligations.TahrMovesAndBranches :=
  ⟨fun _ _ _ _ _ h ht hd => show execTahrLd _ _ = _ from tahrLoad_wroteD h rfl ht hd,
    fun _ _ _ _ _ h ht hd => show execTahrLdw _ _ = _ from tahrLoad_wroteD h rfl ht hd,
    fun _ _ _ _ _ h ht hd => show execTahrLdwu _ _ = _ from tahrLoad_wroteD h rfl ht hd,
    fun _ _ _ _ _ h ht hd => show execTahrLdb _ _ = _ from tahrLoad_wroteD h rfl ht hd,
    fun _ _ _ _ _ h ht hd => show execTahrSt _ _ = _ from tahrStore_ran h rfl ht hd,
    fun _ _ _ _ _ h ht hd => show execTahrStw _ _ = _ from tahrStore_ran h rfl ht hd,
    fun _ _ _ _ _ h ht hd => show execTahrStb _ _ = _ from tahrStore_ran h rfl ht hd,
    fun _ _ _ _ _ _ h ht hb hc => tahrBr_taken h ht hb hc,
    fun _ _ _ _ _ _ h ht hp hb hc => show execTahrBeq _ _ = _ from tahrCond_taken h rfl ht hp hb hc,
    fun _ _ _ _ _ h ht hp => show execTahrBeq _ _ = _ from tahrCond_untaken h rfl ht hp,
    fun _ _ _ _ _ _ h ht hp hb hc => show execTahrBne _ _ = _ from tahrCond_taken h rfl ht hp hb hc,
    fun _ _ _ _ _ h ht hp => show execTahrBne _ _ = _ from tahrCond_untaken h rfl ht hp,
    fun _ _ _ _ _ _ h ht hp hb hc => show execTahrBlt _ _ = _ from tahrCond_taken h rfl ht hp hb hc,
    fun _ _ _ _ _ h ht hp => show execTahrBlt _ _ = _ from tahrCond_untaken h rfl ht hp,
    fun _ _ _ _ _ _ h ht hp hb hc => show execTahrBge _ _ = _ from tahrCond_taken h rfl ht hp hb hc,
    fun _ _ _ _ _ h ht hp => show execTahrBge _ _ = _ from tahrCond_untaken h rfl ht hp,
    fun _ _ _ _ _ _ h ht hp hb hc => show execTahrBltu _ _ = _ from tahrCond_taken h rfl ht hp hb hc,
    fun _ _ _ _ _ h ht hp => show execTahrBltu _ _ = _ from tahrCond_untaken h rfl ht hp,
    fun _ _ _ _ _ _ h ht hn hb hc => tahrLoop_taken h ht hn hb hc,
    fun _ _ _ _ _ h ht hn => tahrLoop_untaken h ht hn,
    fun _ _ _ _ _ h ht hc hl => tahrFbcall_ran h ht hc hl,
    fun _ _ _ _ _ _ _ h ht hl => tahrRet_ran h ht hl,
    fun _ _ _ _ _ h ht => tahrNop_ran h ht,
    fun _ _ _ _ _ h ht _ => tahrEnd_ended h ht⟩

/-- Settles O43: each point, register, block and packet instruction by what it does in time. -/
theorem tahrPointsTimersAndPackets : Obligations.TahrPointsTimersAndPackets :=
  ⟨fun _ _ _ _ _ _ h ht hp => show execTahrLdp _ _ = _ from tahrLdp_wroteD h rfl ht hp,
    fun _ _ _ _ _ _ h ht hp => show execTahrLdpq _ _ = _ from tahrLdp_wroteD h rfl ht hp,
    fun _ _ _ _ _ _ h ht hp => show execTahrLdpt _ _ = _ from tahrLdp_wroteD h rfl ht hp,
    fun _ _ _ _ _ h ht hn => show execTahrStp _ _ = _ from tahrStp_ran h rfl ht hn,
    fun _ _ _ _ _ h ht hn => show execTahrStpt _ _ = _ from tahrStp_ran h rfl ht hn,
    fun _ _ _ _ _ _ h ht hv => tahrRdsr_wroteD h ht hv,
    fun _ _ _ _ _ _ h ht ha hd => show execTahrTon _ _ = _ from tahrTimer_ran h rfl ht ha hd rfl,
    fun _ _ _ _ _ _ h ht ha hd => show execTahrTof _ _ = _ from tahrTimer_ran h rfl ht ha hd rfl,
    fun _ _ _ _ _ _ h ht ha hd => show execTahrTp _ _ = _ from tahrTimer_ran h rfl ht ha hd rfl,
    fun _ _ _ _ _ _ h ht ha hd => show execTahrRtrig _ _ = _ from tahrBlock_ran h rfl ht ha hd rfl,
    fun _ _ _ _ _ _ h ht ha hd => show execTahrFtrig _ _ = _ from tahrBlock_ran h rfl ht ha hd rfl,
    fun _ _ _ _ _ _ _ h ht ha hd hcv => show execTahrCtu _ _ = _ from tahrCounter_ran h rfl ht ha hd hcv,
    fun _ _ _ _ _ _ _ h ht ha hd hcv => show execTahrCtd _ _ = _ from tahrCounter_ran h rfl ht ha hd hcv,
    fun _ _ _ _ _ _ _ h ht ha hd hcv => show execTahrCtud _ _ = _ from tahrCounter_ran h rfl ht ha hd hcv,
    fun _ _ _ _ _ _ _ h ha hn hlen hroom hd hd' ht => tahrQsend_sent h ha hn hlen hroom hd hd' ht,
    fun _ _ _ _ _ _ _ h ha hn hfull hd ht => tahrQsend_refused h ha hn hfull hd ht⟩

/-- Settles O44: each cause of a fault by the instruction that meets it. -/
theorem tahrFaultsEndTheCycle : Obligations.TahrFaultsEndTheCycle :=
  ⟨fun _ _ _ _ _ h => tahrRaise_faulted h,
    fun _ _ _ _ _ _ _ h hd => show execTahrLd _ _ = _ from tahrLoad_faulted h rfl hd,
    fun _ _ _ _ _ _ _ h hd => show execTahrLdw _ _ = _ from tahrLoad_faulted h rfl hd,
    fun _ _ _ _ _ _ _ h hd => show execTahrLdwu _ _ = _ from tahrLoad_faulted h rfl hd,
    fun _ _ _ _ _ _ _ h hd => show execTahrLdb _ _ = _ from tahrLoad_faulted h rfl hd,
    fun _ _ _ _ _ _ _ h hd => show execTahrSt _ _ = _ from tahrStore_faulted h rfl hd,
    fun _ _ _ _ _ _ _ h hd => show execTahrStw _ _ = _ from tahrStore_faulted h rfl hd,
    fun _ _ _ _ _ _ _ h hd => show execTahrStb _ _ = _ from tahrStore_faulted h rfl hd,
    fun _ _ _ _ _ h hc hl => tahrFbcall_stack h hc hl,
    fun _ _ _ _ _ h hl => tahrRet_stack h hl,
    fun _ _ _ _ _ h hn => show execTahrStp _ _ = _ from tahrStp_slot h rfl hn,
    fun _ _ _ _ hcyc hsnap hwin hclean hpc hw hbad => execIllegal_faulted hcyc hsnap hwin hclean hpc hw hbad,
    fun _ _ _ hcyc hsnap hwin hclean hpc => execAccessAtFetch_faulted hcyc hsnap hwin hclean hpc,
    fun _ _ _ _ _ _ _ h hd => show execTahrTon _ _ = _ from tahrTimer_faulted h rfl hd,
    fun _ _ _ _ _ _ _ h hd => show execTahrTof _ _ = _ from tahrTimer_faulted h rfl hd,
    fun _ _ _ _ _ _ _ h hd => show execTahrTp _ _ = _ from tahrTimer_faulted h rfl hd,
    fun _ _ _ _ _ _ _ h hd => show execTahrRtrig _ _ = _ from tahrBlock_faulted h rfl hd,
    fun _ _ _ _ _ _ _ h hd => show execTahrFtrig _ _ = _ from tahrBlock_faulted h rfl hd,
    fun _ _ _ _ _ _ _ h hd => show execTahrCtu _ _ = _ from tahrCounter_faulted h rfl hd,
    fun _ _ _ _ _ _ _ h hd => show execTahrCtd _ _ = _ from tahrCounter_faulted h rfl hd,
    fun _ _ _ _ _ _ _ h hd => show execTahrCtud _ _ = _ from tahrCounter_faulted h rfl hd,
    fun _ _ _ _ _ _ _ h hd => tahrQsend_descriptor h hd,
    fun _ _ _ _ _ _ _ _ h hd hn hlen hroom hd' => tahrQsend_payload h hd hn hlen hroom hd',
    fun _ _ _ _ _ h hp => show execTahrLdp _ _ = _ from tahrLdp_slot h rfl hp,
    fun _ _ _ _ _ h hp => show execTahrLdpq _ _ = _ from tahrLdp_slot h rfl hp,
    fun _ _ _ _ _ h hp => show execTahrLdpt _ _ = _ from tahrLdp_slot h rfl hp,
    fun _ _ _ _ _ h hn => show execTahrStpt _ _ = _ from tahrStp_slot h rfl hn,
    fun _ _ _ _ _ h hv => tahrRdsr_illegal h hv,
    fun _ _ _ _ _ h hb => tahrBr_faulted h hb,
    fun _ _ _ _ _ h hp hb => show execTahrBeq _ _ = _ from tahrCond_faulted h rfl hp hb,
    fun _ _ _ _ _ h hp hb => show execTahrBne _ _ = _ from tahrCond_faulted h rfl hp hb,
    fun _ _ _ _ _ h hp hb => show execTahrBlt _ _ = _ from tahrCond_faulted h rfl hp hb,
    fun _ _ _ _ _ h hp hb => show execTahrBge _ _ = _ from tahrCond_faulted h rfl hp hb,
    fun _ _ _ _ _ h hp hb => show execTahrBltu _ _ = _ from tahrCond_faulted h rfl hp hb,
    fun _ _ _ _ _ h hn hb => tahrLoop_faulted h hn hb,
    fun _ _ _ _ _ h hc => tahrFbcall_access h hc⟩

end Sys2Proof.Machine
end
section
/-! The faults of the Tahr engines: what the end of a cycle by a fault leaves in the engines and in FB (R347), the calls and returns (R340), and
the frame of an instruction. -/

namespace Sys2Proof.Machine

/-- Settles O11, by the frame of the one meaning that all instructions share. -/
theorem frameOfTahr : Obligations.FrameOfTahr := by
  unfold Obligations.FrameOfTahr
  exact fun i s t hi ht => sameBut_of_outsideRes (exec_outside_of_tahr hi s) ht

/-! ## The engines after a fault -/

/-- An operation that does not reach FB leaves it. -/
theorem fb_of_outside {parts : List Part} {s t : State} (hp : .fb ∉ parts) (h : outside parts t = outside parts s) : t.fb = s.fb := by
  have hfb : (outside parts t).fb = (outside parts s).fb := by rw [h]
  simpa [outside, hp] using hfb

@[simp] theorem foGuardError_fb (s : State) : (foGuardError s).fb = s.fb := fb_of_outside (by decide) (foGuardError_outside (List.Subset.refl _) s)

@[simp] theorem foOverrun_fb (s : State) : (foOverrun s).fb = s.fb := fb_of_outside (by decide) (foOverrun_outside (List.Subset.refl _) s)

/-- The engines and the fault flag of FB: what the end of a cycle by a fault is told by. -/
def engFault (s : State) : Tab Nat Engine × Bool := (s.fb.eng, s.fb.fault)

theorem engFault_of_fb {s t : State} (h : t.fb = s.fb) : engFault t = engFault s := by rw [engFault, h, engFault]

@[simp] theorem raiseArg_engFault (n o a s) : engFault (raiseArg n o a s) = engFault s := engFault_of_fb (raiseArg_fb ..)

@[simp] theorem raise_engFault (n o s) : engFault (raise n o s) = engFault s := engFault_of_fb (raise_fb ..)

@[simp] theorem foGuardError_engFault (s) : engFault (foGuardError s) = engFault s := engFault_of_fb (foGuardError_fb s)

@[simp] theorem foOverrun_engFault (s) : engFault (foOverrun s) = engFault s := engFault_of_fb (foOverrun_fb s)

@[simp] theorem onFb_engFault (f : FbState → FbState) (s) (he : (f s.fb).eng = s.fb.eng) (hf : (f s.fb).fault = s.fb.fault) :
    engFault (onFb f s) = engFault s := Prod.ext he hf

@[simp] theorem modTask_engFault (o t f s) : engFault (modTask o t f s) = engFault s := rfl

@[simp] theorem countUnsent_engFault (k n s) : engFault (countUnsent k n s) = engFault s := by unfold countUnsent; split <;> rfl

@[simp] theorem engFault_ite (p : Prop) [Decidable p] (s t : State) :
    engFault (if p then s else t) = if p then engFault s else engFault t := apply_ite ..

@[simp] theorem stepDone_engFault (o s) : engFault (stepDone o s) = engFault s := by simp [stepDone]

@[simp] theorem faultLimit_engFault (o t s) : engFault (faultLimit o t s) = engFault s := by
  unfold faultLimit
  dsimp only
  split <;> simp

@[simp] theorem serveReads_engFault (s) : engFault (serveReads s) = engFault s := by
  unfold serveReads
  exact List.foldlRecOn (motive := fun t => engFault t = engFault s) _ _ rfl fun t ht w _ => (engFault_of_fb (reply_fb ..)).trans ht

/-- The engine once a fault has ended its cycle. -/
def endedByFault (cyc : Cycle) (code ad pc : Nat) (w : BitVec 64) (n : Nat) (now : LT) (g : Engine) : Engine :=
  { g with
    cycle := none
    freeAt := if code = fOverrun then now else cycInstant cyc n
    faults := g.faults + 1
    fault := if g.faulted then g.fault else
      { code := BitVec.ofNat 8 code, task := BitVec.ofNat 8 cyc.task, owner := cyc.owner, pc := BitVec.ofNat 13 pc, instr := w, lt := cyc.cycLt,
        elapsed := BitVec.ofNat 32 n, addr := BitVec.ofNat 32 ad }
    faulted := true }

/-- A fault sets FB's flag, and changes its engine alone: the cycle is counted, then ended. -/
theorem taskFault_engFault (e cyc code ad pc w n s) :
    engFault (taskFault e cyc code ad pc w n s) =
      ((modEng e (endedByFault cyc code ad pc w n s.now) (countCycle e cyc n s)).fb.eng, true) := by
  unfold taskFault
  extract_lets rec_ s0 s1 s2 s3 s4 s5 k s6
  have hs3 : engFault s3 = engFault s1 := by simp [s3, s2]
  calc engFault (serveReads (if cyc.lastStep then stepDone cyc.owner s6 else s6))
    _ = engFault s4 := by simp [s6, s5]
    _ = (s3.fb.eng, true) := by simp only [s4, raiseArg_engFault]; rfl
    _ = (s1.fb.eng, true) := by rw [show s3.fb.eng = s1.fb.eng from congrArg Prod.fst hs3]

theorem taskFault_eng (e cyc code ad pc w n s) :
    (taskFault e cyc code ad pc w n s).fb.eng = (modEng e (endedByFault cyc code ad pc w n s.now) (countCycle e cyc n s)).fb.eng :=
  congrArg Prod.fst (taskFault_engFault ..)

theorem getEng_taskFault (e cyc code ad pc w n s e2) :
    getEng (taskFault e cyc code ad pc w n s) e2 = getEng (modEng e (endedByFault cyc code ad pc w n s.now) (countCycle e cyc n s)) e2 := by
  rw [getEng, taskFault_eng, getEng]

theorem getEng_countCycle (e cyc n s) :
    getEng (countCycle e cyc n s) e =
      { getEng s e with taskCycles := (getEng s e).taskCycles + 1, busyCycles := (getEng s e).busyCycles + BitVec.ofNat 64 n } :=
  getEng_modEng ..

theorem getEng_countCycle_ne {e e2 : Nat} (he : e2 ≠ e) (cyc n s) : getEng (countCycle e cyc n s) e2 = getEng s e2 := getEng_modEng_ne he ..

/-- The engine of the fault: its cycle counted and ended. -/
theorem getEng_taskFault_same (e cyc code ad pc w n s) :
    getEng (taskFault e cyc code ad pc w n s) e = endedByFault cyc code ad pc w n s.now { getEng s e with
      taskCycles := (getEng s e).taskCycles + 1, busyCycles := (getEng s e).busyCycles + BitVec.ofNat 64 n } := by
  rw [getEng_taskFault, getEng_modEng, getEng_countCycle]

theorem getEng_taskFault_ne {e e2 : Nat} (he : e2 ≠ e) (cyc code ad pc w n s) :
    getEng (taskFault e cyc code ad pc w n s) e2 = getEng s e2 := by
  rw [getEng_taskFault, getEng_modEng_ne he, getEng_countCycle_ne he]

/-- Settles O45: the engine by its own lemma, the parts of the device that a fault does not reach by its frame. -/
theorem faultIsRecorded : Obligations.FaultIsRecorded := by
  unfold Obligations.FaultIsRecorded
  refine ⟨fun e cyc code ad pc n w s => ?_, fun e e2 cyc code ad pc n w s he => getEng_taskFault_ne he .., fun e cyc code ad pc n w s => ?_⟩
  · rw [getEng_taskFault_same]
    exact ⟨rfl, rfl, rfl, rfl, rfl, rfl, rfl, rfl, rfl, rfl, fun h => if_pos h, fun h => if_neg (by simp [h])⟩
  · obtain ⟨tb, _, _, sw, qm, se, fr, pe, ar, _, ps, _, _, kv, _⟩ :=
      (sameBut_iff ..).mpr (taskFault_outside (List.Subset.refl _) e cyc code ad pc w n s)
    exact ⟨congrArg Prod.snd (taskFault_engFault ..), ps (by decide), qm (by decide), sw (by decide), se (by decide), fr (by decide),
      pe (by decide), ar (by decide), kv (by decide), tb (by decide)⟩

/-! ## Calls and returns -/

/-- A fault leaves the call stack of its engine. -/
theorem faulted_stack {x : TahrOp} {s t : State} {cyc : Cycle} {w : BitVec 64} {code ad : Nat} (h : faulted x s cyc w code ad = .next t) :
    (getEng t x.e.val).stack = (getEng s x.e.val).stack := by
  obtain rfl := Host.Outcome.next.inj h
  rw [getEng_taskFault_same]
  rfl

/-- V62, once written, reads as written. -/
theorem rdV_wrV_62 (g : Engine) (v : BitVec 64) : rdV (wrV g 62 v) 62 = v := by simp [rdV, wrV, vget]

/-- Settles O23, from the lemmas of the two instructions; a call with A = V62 writes V62 with its own value. -/
theorem callsAndReturns : Obligations.CallsAndReturns := by
  unfold Obligations.CallsAndReturns
  refine ⟨fun _ _ _ _ _ h ht hc hl => tahrFbcall_ran h ht hc hl, fun _ _ _ _ _ _ _ h ht hl => tahrRet_ran h ht hl,
    fun _ _ _ _ _ h hc hl => tahrFbcall_stack h hc hl, fun _ _ _ _ _ h hl => tahrRet_stack h hl,
    fun x s r cyc w h hc => ?_, fun x s t r cyc w h hin hA hc hl ht => ?_⟩
  · have hf : exec (.tahrFbcall x) s = faulted x s cyc w fAccess 0 := tahrFbcall_access h hc
    exact ⟨hf, fun t ht => faulted_stack (hf ▸ ht)⟩
  · obtain rfl := Host.Outcome.next.inj ((tahrFbcall_ran h hin hc hl).symm.trans ht)
    rw [getEng_modEng, opA, hA]
    exact rdV_wrV_62 ..

/-! ## Reset -/

/-- Settles O7: no engine and no area holds anything at reset. -/
theorem invariantsAtReset : Obligations.InvariantsAtReset := by
  unfold Obligations.InvariantsAtReset
  exact ⟨by decide, rfl, by decide, by decide, rfl⟩

end Sys2Proof.Machine
end
section
/-! What every step keeps of the addressed memories and of V0 (O5, O9). `held (outside quiet s)` is the manager area of the retention SRAM and the
engines of a state: most operations leave it, by the frame of those that reach neither PA nor FB and by a lemma `f_held` for each of the others;
an operation that changes an engine keeps `Sound`. `Holds Q r` says that an answer is a next state and that `Q` holds of what it leaves of the
two, so that one walk over the commands proves both that no other command changes the manager area and that every step keeps the memories
canonical. -/

namespace Sys2Proof.Machine

/-- The parts that hold neither the manager area nor an engine. -/
def quiet : List Part := [.tb, .su, .px, .sw, .qm, .se, .fr, .pe, .ar, .ps, .fo, .mi, .kv, .im, .pmb, .jtag, .grd, .log, .ev, .glob, .free, .out]

@[simp] theorem mem_quiet (p : Part) : p ∈ quiet ↔ p ≠ .pa ∧ p ≠ .fb := by cases p <;> decide

/-- The manager area of the retention SRAM and the engines. -/
def held (s : State) : Memory × Tab Nat Engine := (s.pa.ret.mem, s.fb.eng)

theorem held_outside (s : State) : held (outside quiet s) = held s := rfl

@[simp] theorem held_ite (p : Prop) [Decidable p] (s t : State) : held (if p then s else t) = if p then held s else held t := apply_ite ..

/-- An engine whose instance memory is canonical and whose V0 holds 0. -/
def EngSound (g : Engine) : Prop := g.mem.wf = true ∧ g.v[0] = 0

/-- `P` holds of the manager area, and every engine is sound where `good` asks it. -/
structure Sound (P : Memory → Prop) (good : Bool) (h : Memory × Tab Nat Engine) : Prop where
  mem : P h.1
  eng : good = true → ∀ e ∈ h.2, EngSound e.2

/-- The answer is a next state, and `Q` holds of what it leaves of the manager area and the engines. -/
def Holds (Q : Memory × Tab Nat Engine → Prop) (r : Res) : Prop := ∃ t, r = .next t ∧ Q (held (outside quiet t))

section
variable {Q : Memory × Tab Nat Engine → Prop} {P : Memory → Prop} {good : Bool}

@[simp] theorem holds_next (s : State) : Holds Q (.next s) ↔ Q (held (outside quiet s)) :=
  ⟨fun ⟨_, ht, h⟩ => Host.Outcome.next.inj ht ▸ h, fun h => ⟨s, rfl, h⟩⟩

@[simp] theorem holds_ite (p : Prop) [Decidable p] (a b : Res) : Holds Q (if p then a else b) ↔ if p then Holds Q a else Holds Q b := by
  split <;> rfl

/-- A command of a frame that reaches neither PA nor FB. -/
theorem holds_of_outside {s : State} {r : Res} (h : outsideRes quiet r = .next (outside quiet s)) (hs : Q (held (outside quiet s))) : Holds Q r := by
  cases r with
  | next t => exact ⟨t, rfl, (Host.Outcome.next.inj h) ▸ hs⟩
  | fault | refused => nomatch h

/-! ## PA and FB replaced -/

@[simp] theorem held_set_pa (x : PaState) (s : State) (h : x.ret.mem = s.pa.ret.mem) :
    held (outside quiet { s with pa := x }) = held (outside quiet s) := Prod.ext h rfl

@[simp] theorem held_set_fb (x : FbState) (s : State) (h : x.eng = s.fb.eng) :
    held (outside quiet { s with fb := x }) = held (outside quiet s) := Prod.ext rfl h

@[simp] theorem onPa_held (f : PaState → PaState) (s : State) (h : ∀ p, (f p).ret.mem = p.ret.mem) :
    held (outside quiet (onPa f s)) = held (outside quiet s) := held_set_pa _ s (h s.pa)

@[simp] theorem onFb_held (f : FbState → FbState) (s : State) (h : ∀ x, (f x).eng = x.eng) :
    held (outside quiet (onFb f s)) = held (outside quiet s) := held_set_fb _ s (h s.fb)

/-- A list of changes each of which leaves the two leaves them. -/
@[simp] theorem held_foldl {α : Type} (f : State → α → State) (h : ∀ s a, held (outside quiet (f s a)) = held (outside quiet s)) (xs : List α)
    (s : State) : held (outside quiet (xs.foldl f s)) = held (outside quiet s) :=
  List.foldlRecOn (motive := fun t => held (outside quiet t) = held (outside quiet s)) xs f rfl fun t ht a _ => (h t a).trans ht

theorem held_foldl_fst {α β : Type} (f : State × β → α → State × β) (h : ∀ a x, held (outside quiet (f a x).1) = held (outside quiet a.1))
    (xs : List α) (a : State × β) : held (outside quiet (xs.foldl f a).1) = held (outside quiet a.1) :=
  List.foldlRecOn (motive := fun b => held (outside quiet b.1) = held (outside quiet a.1)) xs f rfl fun b hb x _ => (h b x).trans hb

theorem held_foldl_snd {α β : Type} (f : β × State → α → β × State) (h : ∀ a x, held (outside quiet (f a x).2) = held (outside quiet a.2))
    (xs : List α) (a : β × State) : held (outside quiet (xs.foldl f a).2) = held (outside quiet a.2) :=
  List.foldlRecOn (motive := fun b => held (outside quiet b.2) = held (outside quiet a.2)) xs f rfl fun b hb x _ => (h b x).trans hb

/-- A list of changes each of which keeps `Q` keeps it. -/
theorem holds_foldl {α : Type} (f : State → α → State) (h : ∀ s a, Q (held (outside quiet s)) → Q (held (outside quiet (f s a)))) (xs : List α)
    {s : State} (hs : Q (held (outside quiet s))) : Q (held (outside quiet (xs.foldl f s))) :=
  List.foldlRecOn (motive := fun t => Q (held (outside quiet t))) xs f hs fun s hs a _ => h s a hs

/-! ## What DomainOps and Command leave -/

@[simp] theorem modPd_held (n f s) : held (outside quiet (modPd n f s)) = held (outside quiet s) := by simp [modPd]

@[simp] theorem lockRefused_held (n s) : held (outside quiet (lockRefused n s)) = held (outside quiet s) := by simp [lockRefused]

@[simp] theorem wakeOne_held (access n s) : held (outside quiet (wakeOne access n s)) = held (outside quiet s) := by simp [wakeOne]

@[simp] theorem wakeDomain_held (access n s) : held (outside quiet (wakeDomain access n s)) = held (outside quiet s) := by simp [wakeDomain]

@[simp] theorem commandAccess_held (n s) : held (outside quiet (commandAccess n s).1) = held (outside quiet s) := by
  unfold commandAccess
  split <;> simp

@[simp] theorem opAccess_held (op s) : held (outside quiet (opAccess op s).1) = held (outside quiet s) := by
  unfold opAccess
  split <;> simp

/-- A command keeps what its body keeps (R65, R539, R626). -/
@[simp] theorem commandWith_holds (op o c s pre) {body : State → State × Option ReplyBody}
    (hb : ∀ u, Q (held (outside quiet u)) → Q (held (outside quiet (body u).1))) (hs : Q (held (outside quiet s))) :
    Holds Q (commandWith op o c s pre body) := by
  unfold commandWith
  have ha : Q (held (outside quiet (opAccess op.toNat (begun c s)).1)) := by simp [hs]
  split
  · simp [hs]
  · dsimp only
    split
    · simp [hs]
    · split
      · simp [hs]
      · split
        · simp [hs]
        · split
          next u b he => rw [he] at ha; simpa using ha
          next u he =>
            rw [he] at ha
            have hu := hb u ha
            split <;> next v _ hv => rw [hv] at hu; simpa using hu

@[simp] theorem command_holds (op o c s) {body : State → State × Option ReplyBody}
    (hb : ∀ u, Q (held (outside quiet u)) → Q (held (outside quiet (body u).1))) (hs : Q (held (outside quiet s))) :
    Holds Q (command op o c s body) := commandWith_holds op o c s _ hb hs

@[simp] theorem answer_holds (op o c s b) (hs : Q (held (outside quiet s))) : Holds Q (answer op o c s b) :=
  command_holds op o c s (fun _ hu => hu) hs

@[simp] theorem kvCommand_holds (op pubLoad c s) {body : State → State × Option ReplyBody}
    (hb : ∀ u, Q (held (outside quiet u)) → Q (held (outside quiet (body u).1))) (hs : Q (held (outside quiet s))) :
    Holds Q (kvCommand op pubLoad c s body) := by
  refine command_holds _ _ _ _ (fun u hu => ?_) hs
  split
  · exact hb u hu
  · exact hu

@[simp] theorem stage_holds (op o c items check s) (hs : Q (held (outside quiet s))) : Holds Q (stage op o c items check s) := by
  refine commandWith_holds op o c s _ (fun u hu => ?_) hs
  dsimp only
  split
  · exact hu
  · simp [hu]

/-- A multi-part command keeps what its parts keep (R89). -/
theorem multipart_holds (mask) {part : Nat → State → State × Status × List Byte} (s)
    (hb : ∀ n u, Q (held (outside quiet u)) → Q (held (outside quiet (part n u).1))) (hs : Q (held (outside quiet s))) :
    Q (held (outside quiet (multipart mask part s).1)) := by
  have fold (ns : List Nat) (a : State × List Nat × Option Status × List Byte) (ha : Q (held (outside quiet a.1))) :
      Q (held (outside quiet (ns.foldl (fun (a : State × List Nat × Option Status × List Byte) n => match part n a.1 with
        | (s', .ok, bs) => (s', a.2.1 ++ [n], a.2.2.1, a.2.2.2 ++ bs)
        | (s', e, _) => (s', a.2.1, some (a.2.2.1.getD e), a.2.2.2)) a).1)) := by
    refine List.foldlRecOn (motive := fun (a : State × List Nat × Option Status × List Byte) => Q (held (outside quiet a.1))) ns _ ha fun a ha n _ => ?_
    have hn := hb n a.1 ha
    split <;> next h => rw [h] at hn; exact hn
  unfold multipart
  split
  · exact hs
  · dsimp only
    split <;> exact fold _ _ hs

@[simp] theorem multi_holds (op o c mask) {part : Nat → State → State × Status × List Byte} (s)
    (hb : ∀ n u, Q (held (outside quiet u)) → Q (held (outside quiet (part n u).1))) (hs : Q (held (outside quiet s))) :
    Holds Q (multi op o c mask part s) := command_holds op o c s (fun u hu => multipart_holds mask u hb hu) hs

/-! ## What ReadyOps leaves -/

@[simp] theorem markPhase_held (p stamp s) : held (outside quiet (markPhase p stamp s)) = held (outside quiet s) := by simp [markPhase]

@[simp] theorem phaseTen_held (s) : held (outside quiet (phaseTen s)) = held (outside quiet s) := by simp [phaseTen]

@[simp] theorem readiness_held (s) : held (outside quiet (readiness s)) = held (outside quiet s) := by simp [readiness]

/-! ## What FailoverOps leaves -/

@[simp] theorem phaseEight_held (s) : held (outside quiet (phaseEight s)) = held (outside quiet s) := by simp [phaseEight]

@[simp] theorem setRole_held (r s) : held (outside quiet (setRole r s)) = held (outside quiet s) := by simp [setRole]

@[simp] theorem formClaim_held (takeover s) : held (outside quiet (formClaim takeover s)) = held (outside quiet s) := by simp [formClaim]

@[simp] theorem relinquish_held (reason r s) : held (outside quiet (relinquish reason r s)) = held (outside quiet s) := by simp [relinquish]

@[simp] theorem yieldClaim_held (s) : held (outside quiet (yieldClaim s)) = held (outside quiet s) := by simp [yieldClaim]

@[simp] theorem actOnTrigger_held (s) : held (outside quiet (actOnTrigger s)) = held (outside quiet s) := by simp [actOnTrigger]

@[simp] theorem triggerPresent_held (n s) : held (outside quiet (triggerPresent n s)) = held (outside quiet s) := by simp [triggerPresent]

@[simp] theorem setTrigger_held (b enabled s) : held (outside quiet (setTrigger b enabled s)) = held (outside quiet s) := by simp [setTrigger]

@[simp] theorem foGuardError_held (s) : held (outside quiet (foGuardError s)) = held (outside quiet s) := by simp [foGuardError]

@[simp] theorem foOverrun_held (s) : held (outside quiet (foOverrun s)) = held (outside quiet s) := by simp [foOverrun]

/-! ## What PointOps leaves -/

@[simp] theorem storeGuard_held (o s) : held (outside quiet (storeGuard o s)) = held (outside quiet s) := by simp [storeGuard]

@[simp] theorem pointBad_held (i s) : held (outside quiet (pointBad i s)) = held (outside quiet s) := by
  unfold pointBad
  split <;> simp

@[simp] theorem forceBad_held (i s) : held (outside quiet (forceBad i s)) = held (outside quiet s) := by
  unfold forceBad
  split <;> simp

@[simp] theorem pointGuards_held (o l forces s) : held (outside quiet (pointGuards o l forces s)) = held (outside quiet s) := by simp [pointGuards]

/-! ## What TahrOps leaves -/

@[simp] theorem modTask_held (o t f s) : held (outside quiet (modTask o t f s)) = held (outside quiet s) := by simp [modTask]

@[simp] theorem modCl_held (k f s) : held (outside quiet (modCl k f s)) = held (outside quiet s) := by simp [modCl]

@[simp] theorem stepDone_held (o s) : held (outside quiet (stepDone o s)) = held (outside quiet s) := by simp [stepDone]

@[simp] theorem faultLimit_held (o t s) : held (outside quiet (faultLimit o t s)) = held (outside quiet s) := by
  unfold faultLimit
  dsimp only
  split <;> simp

@[simp] theorem serveReads_held (s) : held (outside quiet (serveReads s)) = held (outside quiet s) := by simp [serveReads]

@[simp] theorem countUnsent_held (k n s) : held (outside quiet (countUnsent k n s)) = held (outside quiet s) := by simp [countUnsent]

/-! ## What CycleOps leaves -/

@[simp] theorem skipTask_held (o t s) : held (outside quiet (skipTask o t s)) = held (outside quiet s) := by simp [skipTask]

@[simp] theorem releaseTask_held (o t inst cycLt s) :
    held (outside quiet (releaseTask o t inst cycLt s)) = held (outside quiet s) := by
  simp [releaseTask]

@[simp] theorem releasePeriodic_held (t s) : held (outside quiet (releasePeriodic t s)) = held (outside quiet s) := by simp [releasePeriodic]

@[simp] theorem releaseSample_held (g k tag s) : held (outside quiet (releaseSample g k tag s)) = held (outside quiet s) := by simp [releaseSample]

@[simp] theorem releaseTimed_held (u o target s) : held (outside quiet (releaseTimed u o target s)) = held (outside quiet s) := by simp [releaseTimed]

@[simp] theorem loseRelease_held (o t inst s) : held (outside quiet (loseRelease o t inst s)) = held (outside quiet s) := by simp [loseRelease]

@[simp] theorem modOwnerTasks_held (o f s) : held (outside quiet (modOwnerTasks o f s)) = held (outside quiet s) := by simp [modOwnerTasks]

@[simp] theorem setRun_held (o st' reason t s) : held (outside quiet (setRun o st' reason t s)) = held (outside quiet s) := by simp [setRun]

/-! ## What QueueOps leaves -/

@[simp] theorem endPacket_held (q s) : held (outside quiet (endPacket q s).1) = held (outside quiet s) := by
  unfold endPacket
  dsimp only
  repeat' split
  all_goals simp

@[simp] theorem queueGuard_held (tag h s) : held (outside quiet (queueGuard tag h s)) = held (outside quiet s) := by simp [queueGuard]

/-! ## What Cyclic leaves -/

@[simp] theorem rxDrop_held (k o s) : held (outside quiet (rxDrop k o s)) = held (outside quiet s) := by simp [rxDrop]

/-! ## What FbCommands leaves -/

@[simp] theorem requestRun_held (op c o r s) : held (outside quiet (requestRun op c o r s).1) = held (outside quiet s) := by
  unfold requestRun
  dsimp only
  repeat' split
  all_goals simp

/-! ## What StreamOps leaves -/

@[simp] theorem openGates_held (p s) : held (outside quiet (openGates p s)) = held (outside quiet s) := by simp [openGates]

@[simp] theorem judgeReady_held (g s) : held (outside quiet (judgeReady g s)) = held (outside quiet s) := by simp [judgeReady]

@[simp] theorem takeSvFrame_held (old n rx f s) : held (outside quiet (takeSvFrame old n rx f s)) = held (outside quiet s) := by
  unfold takeSvFrame
  dsimp only
  split <;> simp

@[simp] theorem sendInstant_held (g k tag l s) : held (outside quiet (sendInstant g k tag l s)) = held (outside quiet s) := by simp [sendInstant]

/-! ## What Failover leaves -/

@[simp] theorem arbitrate_held (m s) : held (outside quiet (arbitrate m s)) = held (outside quiet s) := by simp [arbitrate]

@[simp] theorem resolveSplit_held (fresh m s) : held (outside quiet (resolveSplit fresh m s)) = held (outside quiet s) := by simp [resolveSplit]

@[simp] theorem epochTry_held (s) : held (outside quiet (epochTry s)) = held (outside quiet s) := by simp [epochTry]

@[simp] theorem witnessTakeover_held (s) : held (outside quiet (witnessTakeover s)) = held (outside quiet s) := by simp [witnessTakeover]

@[simp] theorem losePartner_held (s) : held (outside quiet (losePartner s)) = held (outside quiet s) := by simp [losePartner]

@[simp] theorem alignTask_held (x s) : held (outside quiet (alignTask x s)) = held (outside quiet s) := by
  unfold alignTask
  split <;> simp

@[simp] theorem doSwap_held (w s) : held (outside quiet (doSwap w s)) = held (outside quiet s) := by simp [doSwap]

/-! ## What Cabinet leaves -/

@[simp] theorem stationClaim_held (c s) : held (outside quiet (stationClaim c s)) = held (outside quiet s) := by simp [stationClaim]

@[simp] theorem takeReport_held (g c f rxLt s) : held (outside quiet (takeReport g c f rxLt s)) = held (outside quiet s) := by simp [takeReport]

/-! ## What Compare leaves -/

@[simp] theorem compareFire_held (k s) : held (outside quiet (compareFire k s)) = held (outside quiet s) := by
  unfold compareFire
  dsimp only
  split <;> simp

@[simp] theorem deliverDue_held (k s) : held (outside quiet (deliverDue k s)) = held (outside quiet s) := by simp [deliverDue]

/-! ## What Ptp leaves -/

/-! ## What Ports leaves -/

@[simp] theorem cellGuard_held (reqTag h s) : held (outside quiet (cellGuard reqTag h s)) = held (outside quiet s) := by simp [cellGuard]

@[simp] theorem guardDrop_held (p c h s) : held (outside quiet (guardDrop p c h s)) = held (outside quiet s) := by simp [guardDrop]

/-! ## What Filter leaves -/

@[simp] theorem tableGuard_held (l proto n h s) : held (outside quiet (tableGuard l proto n h s)) = held (outside quiet s) := by simp [tableGuard]

@[simp] theorem laneFinding_held (l f s) : held (outside quiet (laneFinding l f s)) = held (outside quiet s) := by
  unfold laneFinding
  split <;> simp

/-! ## What Phasor leaves -/

/-! ## What Stream leaves -/

@[simp] theorem takeIngest_held (q guard s) : held (outside quiet (takeIngest q guard s).2) = held (outside quiet s) := by
  unfold takeIngest
  dsimp only
  split <;> simp

@[simp] theorem partSeStreamRelock_held (base n s) :
    held (outside quiet (partSeStreamRelock base n s).1) = held (outside quiet s) := by
  simp [partSeStreamRelock]

@[simp] theorem seCommit_held (t active s) : held (outside quiet (seCommit t active s)) = held (outside quiet s) := by simp [seCommit]

@[simp] theorem seOff_held (s) : held (outside quiet (seOff s)) = held (outside quiet s) := by simp [seOff]

/-! ## What PowerOps leaves -/

@[simp] theorem unlockOff_held (n s) : held (outside quiet (unlockOff n s)) = held (outside quiet s) := by simp [unlockOff]

@[simp] theorem setRtc_held (r s) : held (outside quiet (setRtc r s)) = held (outside quiet s) := by simp [setRtc]

/-! ## What InstanceOps leaves -/

@[simp] theorem restoreTask_held (o freezeLt x s) :
    held (outside quiet (restoreTask o freezeLt x s)) = held (outside quiet s) := by
  simp [restoreTask]

/-! ## What Queues leaves -/

@[simp] theorem badTransfer_held (q h s) : held (outside quiet (badTransfer q h s)) = held (outside quiet s) := by
  unfold badTransfer
  split <;> simp

/-! ## What Instances leaves -/

/-! ## What CommitOps leaves -/

@[simp] theorem commitAssign_held (new s) : held (outside quiet (commitAssign new s)) = held (outside quiet s) := by simp [commitAssign]

@[simp] theorem tbCommit_held (view s) : held (outside quiet (tbCommit view s)) = held (outside quiet s) := by simp [tbCommit]

@[simp] theorem duikerCommit_held (view s) : held (outside quiet (duikerCommit view s)) = held (outside quiet s) := by simp [duikerCommit]

/-! ## What StartOps leaves -/

@[simp] theorem startFrames_held (view s) : held (outside quiet (startFrames view s)) = held (outside quiet s) := by simp [startFrames]

/-! ## What Commit leaves -/

/-! ## What Guard leaves -/

@[simp] theorem scrubCount_held (r word f use s) : held (outside quiet (scrubCount r word f use s)) = held (outside quiet s) := by
  unfold scrubCount
  dsimp only
  repeat' split
  all_goals simp

/-! ## What Power leaves -/

@[simp] theorem wakePart_held (n s) : held (outside quiet (wakePart n s).1) = held (outside quiet s) := by simp [wakePart]

@[simp] theorem wakeLoses_held (n s) : held (outside quiet (wakeLoses n s)) = held (outside quiet s) := by simp [wakeLoses]

@[simp] theorem unlockPart_held (n s) : held (outside quiet (unlockPart n s).1) = held (outside quiet s) := by simp [unlockPart]

@[simp] theorem reportTamper_held (s) : held (outside quiet (reportTamper s)) = held (outside quiet s) := by simp [reportTamper]

@[simp] theorem beginStartup_held (cold s) : held (outside quiet (beginStartup cold s)) = held (outside quiet s) := by simp [beginStartup]

@[simp] theorem tamperLevel_held (k level s) : held (outside quiet (tamperLevel k level s)) = held (outside quiet s) := by simp [tamperLevel]

/-! ## What Registers leaves -/

@[simp] theorem clearStatus_held (n v s) : held (outside quiet (clearStatus n v s)) = held (outside quiet s) := by
  unfold clearStatus
  split <;> simp

/-! ## What Startup leaves -/

@[simp] theorem rebuildTime_held (s) : held (outside quiet (rebuildTime s)) = held (outside quiet s) := by simp [rebuildTime]

@[simp] theorem coldTime_held (s) : held (outside quiet (coldTime s)) = held (outside quiet s) := by simp [coldTime]

/-! ## What sends a packet, retains, resets or serves a device leaves -/

@[simp] theorem retWrite_mem (l : List Nat) (r : Retention) : (retWrite l r).mem = r.mem := by cases r; rfl

@[simp] theorem sendPacket_held (q o header payload s) : held (outside quiet (sendPacket q o header payload s).1) = held (outside quiet s) := by
  have h := congrArg held (openPacket_outside (parts := quiet) (by simp) q o header s)
  unfold sendPacket
  split <;> next he => rw [he] at h; simpa using h

@[simp] theorem openSends_held (k o l s) : held (outside quiet (openSends k o l s).2.2) = held (outside quiet s) := by
  induction l generalizing s with
  | nil => rfl
  | cons p l ih =>
    have h := (ih _).trans (sendPacket_held (0x2C + 2 * k + bitN p.1) o (p.2.take 32) (p.2.drop 32) s)
    unfold openSends
    dsimp only
    split <;> exact h

@[simp] theorem openChecked_held (q guard r) : held (outside quiet (openChecked q guard r)) = held (outside quiet r.1) := by
  have h := congrArg held (guardRead_outside (parts := quiet) (by simp) 0x3 guard r.1)
  unfold openChecked
  split
  · rfl
  · split <;> next he => rw [he] at h; simpa using h

@[simp] theorem sleepRefused_held (k s) : held (outside quiet (sleepRefused k s)) = held (outside quiet s) := by simp [sleepRefused]

@[simp] theorem retainTime_held (interval mask alarm s) :
    held (outside quiet (retainTime interval mask alarm s)) = held (outside quiet s) := by simp [retainTime]

@[simp] theorem recordWake_held (again c s) : held (outside quiet (recordWake again c s)) = held (outside quiet s) := by simp [recordWake]

@[simp] theorem latchCause_held (c s) : held (outside quiet (latchCause c s)) = held (outside quiet s) := by
  refine onPa_held _ s fun p => ?_
  split <;> rfl

@[simp] theorem wakeSource_held (c s) : held (outside quiet (wakeSource c s)) = held (outside quiet s) := by
  unfold wakeSource
  dsimp only
  repeat' split
  all_goals simp

@[simp] theorem latchTamper_held (k s) : held (outside quiet (latchTamper k s)) = held (outside quiet s) := by simp [latchTamper]

@[simp] theorem resetRings_held (i s) : held (outside quiet (resetRings i s)) = held (outside quiet s) := by simp [resetRings]

@[simp] theorem endReset_held (i s) : held (outside quiet (endReset i s)) = held (outside quiet s) := by simp [endReset]

@[simp] theorem releaseInstant_held (g i tag l s) : held (outside quiet (releaseInstant g i tag l s)) = held (outside quiet s) := by
  unfold releaseInstant
  dsimp only
  simp only [judgeReady_held, sendInstant_held]
  refine (held_foldl _ (fun u e => by simp) _ _).trans ?_
  simp only [onSe_outside, modGroup_outside, mem_quiet, List.cons_subset, List.nil_subset, ne_eq, reduceCtorEq, not_false_eq_true, and_self]
  refine held_foldl_snd _ (fun a e => ?_) _ _
  have h := congrArg held (contribute_outside (parts := quiet) (by simp) (groupCfgAt s g tag) i e a.2)
  split <;> next he => rw [he] at h; exact h

@[simp] theorem sendGoose_held (p tal s) : held (outside quiet (sendGoose p tal s)) = held (outside quiet s) := by
  unfold sendGoose
  dsimp only
  have h := sendPacket_held (8 + (s.se.gpCfg.getD p {}).queue.val) 0
    (descBytes { cls := (s.se.gpCfg.getD p {}).cls.val, length := (gooseFrame s (s.se.gpCfg.getD p {}) (getGp s p) tal).length })
    (gooseFrame s (s.se.gpCfg.getD p {}) (getGp s p) tal) s
  split <;> next he => rw [he] at h; simpa using h

@[simp] theorem viaQueue_held (q header bytes s) : held (outside quiet (viaQueue q header bytes s).2) = held (outside quiet s) := by
  have h := sendPacket_held q 0 header bytes s
  unfold viaQueue
  split <;> next he => rw [he] at h; simpa using h

@[simp] theorem sendCab_held (g f s) : held (outside quiet (sendCab g f s)) = held (outside quiet s) := by
  have h := viaQueue_held (0x18 + g.val) (descBytes { length := (cabBytes f).length }) (cabBytes f) s
  unfold sendCab
  split
  · rfl
  · dsimp only
    split <;> next he => rw [he] at h; simpa using h

@[simp] theorem reassign_held (g old s) : held (outside quiet (reassign g old s)) = held (outside quiet s) := by simp [reassign]

@[simp] theorem partFoCabRediscover_held (n s) :
    held (outside quiet (partFoCabRediscover n s).1) = held (outside quiet s) := by
  simp [partFoCabRediscover]

@[simp] theorem segCommit_held (g new s) : held (outside quiet (segCommit g new s)) = held (outside quiet s) := by simp [segCommit]

@[simp] theorem cabCommit_held (t active s) : held (outside quiet (cabCommit t active s)) = held (outside quiet s) := by simp [cabCommit]

@[simp] theorem ptpSend_held (p t twoStep flags corr seq log body s) :
    held (outside quiet (ptpSend p t twoStep flags corr seq log body s)) = held (outside quiet s) := by
  simp [ptpSend]

@[simp] theorem ptpFollow_held (p c t s) : held (outside quiet (ptpFollow p c t s)) = held (outside quiet s) := by
  unfold ptpFollow
  dsimp only
  repeat' split
  all_goals simp

@[simp] theorem ptpRespond_held (p c t s) : held (outside quiet (ptpRespond p c t s)) = held (outside quiet s) := by
  unfold ptpRespond
  dsimp only
  split <;> simp

@[simp] theorem sendSupervision_held (k of s) : held (outside quiet (sendSupervision k of s)) = held (outside quiet s) := by simp [sendSupervision]

@[simp] theorem handFrame_held (k x tr s) : held (outside quiet (handFrame k x tr s)) = held (outside quiet s) := by
  unfold handFrame
  extract_lets bytes q
  have h := sendPacket_held q 0 (descBytes { cls := x.cfg.net.cls.val, length := bytes.length }) bytes s
  split <;> next he => rw [he] at h; simpa using h

@[simp] theorem c37Reply_held (x to_ frame s) : held (outside quiet (c37Reply x to_ frame s)) = held (outside quiet s) := by simp [c37Reply]

@[simp] theorem newGoState_held (p t takeover s) : held (outside quiet (newGoState p t takeover s)) = held (outside quiet s) := by
  unfold newGoState
  extract_lets c n
  have hs := congrArg held (goSnapshot_outside (parts := quiet) (by simp) c s)
  split
  next vals u he =>
  have ht := congrArg held (goTime_outside (parts := quiet) (by simp) u t)
  split
  next time v hf =>
  rw [he] at hs
  rw [hf] at ht
  extract_lets w x
  have hw : held (outside quiet w) = held (outside quiet s) := (congrArg held (modGp_outside (by simp) ..)).trans (ht.trans hs)
  rw [sendGoose_held]
  show held (outside quiet (if w.fo.gateOpen then _ else w)) = _
  split <;> simp [hw]

@[simp] theorem thawGoose_held (i s) : held (outside quiet (thawGoose i s)) = held (outside quiet s) := by simp [thawGoose]

/-! ## What changes an engine -/

/-- The engines replaced, in an operation that leaves PA. -/
theorem sound_of_eng {s t : State} (hs : Sound P good (held (outside quiet s))) (hm : t.pa.ret.mem = s.pa.ret.mem)
    (he : (∀ e ∈ s.fb.eng, EngSound e.2) → ∀ e ∈ t.fb.eng, EngSound e.2) : Sound P good (held (outside quiet t)) :=
  ⟨(show held (outside quiet t) = (s.pa.ret.mem, t.fb.eng) from Prod.ext hm rfl) ▸ hs.mem, fun hg => he (hs.eng hg)⟩

theorem engSound_default : EngSound {} := ⟨rfl, rfl⟩

/-- An engine changed to a sound one. -/
theorem modEng_sound {s : State} (e : Nat) (f : Engine → Engine) (hf : ∀ g, EngSound g → EngSound (f g))
    (hs : Sound P good (held (outside quiet s))) : Sound P good (held (outside quiet (modEng e f s))) :=
  sound_of_eng hs rfl (forall_mem_upd (P := EngSound) engSound_default hf)

/-- An engine changed apart from its memory and its registers. -/
@[simp] theorem modEng_sound_of_eq {s : State} (e : Nat) (f : Engine → Engine) (hm : ∀ g, (f g).mem = g.mem) (hv : ∀ g, (f g).v = g.v)
    (hs : Sound P good (held (outside quiet s))) : Sound P good (held (outside quiet (modEng e f s))) :=
  modEng_sound e f (fun g hg => by unfold EngSound; rwa [hm, hv]) hs

/-- Every engine changed to a sound one. -/
theorem mapEng_sound {s : State} {x : FbState} {f : Nat × Engine → Nat × Engine} (hx : x.eng = s.fb.eng.map f)
    (hf : ∀ e, EngSound e.2 → EngSound (f e).2) (hs : Sound P good (held (outside quiet s))) :
    Sound P good (held (outside quiet { s with fb := x })) := by
  refine sound_of_eng hs rfl fun h e he => ?_
  obtain ⟨d, hd, rfl⟩ := List.mem_map.mp (hx ▸ he)
  exact hf d (h d hd)

@[simp] theorem sound_ite (p : Prop) [Decidable p] (a b : Memory × Tab Nat Engine) :
    Sound P good (if p then a else b) ↔ if p then Sound P good a else Sound P good b := by split <;> rfl

theorem engSound_loadData (x : EngineEntry) {g : Engine} (hg : EngSound g) : EngSound (loadData x g) := ⟨Memory.writeN_wf _ _ _ hg.1, hg.2⟩

theorem engSound_loadCode (x : EngineEntry) {g : Engine} (hg : EngSound g) : EngSound (loadCode x g) := hg

theorem formRegion_wf (old : Engine) (oldBase : Nat) (x : EngineEntry) (l : List RetainRange) {m : Memory} (hm : m.wf = true) :
    (formRegion old oldBase x l m).wf = true :=
  List.foldlRecOn (motive := fun m : Memory => m.wf = true) l _ (Memory.writeN_wf _ _ _ hm) fun _ hm _ _ => Memory.writeN_wf _ _ _ hm

theorem writeRx_wf (r : TaskEntry) (l : List (List Byte)) : ∀ (n : Nat) (m : Memory), m.wf = true → (writeRx r n l m).wf = true := by
  induction l with
  | nil => exact fun _ _ hm => hm
  | cons p l ih => exact fun n m hm => ih _ _ (Memory.writeN_wf _ _ _ hm)

section
variable {s : State} (hs : Sound P good (held (outside quiet s)))
include hs

@[simp] theorem countCycle_sound (e cyc elapsed) : Sound P good (held (outside quiet (countCycle e cyc elapsed s))) := by
  simp [countCycle, hs]

@[simp] theorem taskFault_sound (e cyc code addr pc instr elapsed) :
    Sound P good (held (outside quiet (taskFault e cyc code addr pc instr elapsed s))) := by
  simp [taskFault, hs]

@[simp] theorem closeWindow_sound (e) : Sound P good (held (outside quiet (closeWindow e s))) := by
  unfold closeWindow
  dsimp only
  repeat' split
  all_goals simp [hs]

@[simp] theorem closeDue_sound : Sound P good (held (outside quiet (closeDue s))) :=
  holds_foldl _ (fun u e hu => by simp [hu]) _ hs

@[simp] theorem openWindows_sound (n) : Sound P good (held (outside quiet (openWindows n s))) := by
  refine holds_foldl _ (fun u e hu => ?_) _ hs
  split <;> simp [hu]

@[simp] theorem startFrame_sound (b) : Sound P good (held (outside quiet (startFrame b s))) := by simp [startFrame, hs]

@[simp] theorem cutFrame_sound (g t) : Sound P good (held (outside quiet (cutFrame g t s))) := by
  unfold cutFrame
  dsimp only
  refine startFrame_sound ?_ _
  rw [onFb_held _ _ (by simp), modTcu_outside (by simp)]
  refine holds_foldl _ (fun u n hu => holds_foldl _ (fun v k hv => by simp [hv]) _ hu) _ ?_
  refine closeDue_sound (holds_foldl _ (fun u e hu => ?_) _ hs)
  exact modEng_sound e _ (fun g hg => by split <;> exact hg) hu

@[simp] theorem loadEngine_sound (e) : Sound P good (held (outside quiet (loadEngine e s))) :=
  modEng_sound _ _ (fun _ hg => List.foldlRecOn (motive := EngSound) _ _ ⟨rfl, hg.2⟩
    fun _ hg x _ => engSound_loadCode x.2 (engSound_loadData x.2 hg)) hs

@[simp] theorem reloadOwner_sound (o) : Sound P good (held (outside quiet (reloadOwner o s))) :=
  holds_foldl _ (fun _ _ hu => holds_foldl _ (fun _ x hv => modEng_sound _ _ (fun _ hg => engSound_loadData x.2 hg) hv) _ hu) _ hs

@[simp] theorem runCold_sound (o reason t) : Sound P good (held (outside quiet (runCold o reason t s))) := by simp [runCold, hs]

@[simp] theorem majorFrame_sound : Sound P good (held (outside quiet (majorFrame s))) := by simp [majorFrame, hs]

@[simp] theorem startCycle_sound (e o t) : Sound P good (held (outside quiet (startCycle e o t s))) := by simp [startCycle, hs]

@[simp] theorem applyRun_sound (o c t) : Sound P good (held (outside quiet (applyRun o c t s))) := by
  unfold applyRun
  split <;> simp [hs]

@[simp] theorem partFbReadCounters_sound (n) : Sound P good (held (outside quiet (partFbReadCounters n s).1)) := by
  simp [partFbReadCounters, hs]

@[simp] theorem commitRegion_sound (t changed old x) : Sound P good (held (outside quiet (commitRegion t changed old x s))) :=
  modEng_sound _ _ (fun _ hg => ⟨formRegion_wf _ _ _ _ hg.1, hg.2⟩) hs

end

/-- The regions of the engines formed anew at a commit (R379). -/
theorem commitRegions_sound {s : State} (t : LT) (changed : List Item) (l : List Nat) (before : State) (p : Region → Bool)
    (q : Tag × EngineEntry → Bool) (hs : Sound P good (held (outside quiet s))) :
    Sound P good (held (outside quiet (l.foldl (fun s e =>
      let old := getEng before e
      let s := modEng e (fun g => (old.regions.filter p).foldl (fun g r => dropCode r g) g) s
      let s := ((engineEntries s e).filter q).foldl (fun s x => commitRegion t changed old x s) s
      modEng e (fun g => { g with regions := regionsOf s e }) s) s))) := by
  refine holds_foldl _ (fun v e hv => ?_) _ hs
  dsimp only
  refine modEng_sound _ _ (fun _ hg => hg) (holds_foldl _ (fun w x hw => commitRegion_sound hw _ _ _ _) _ ?_)
  exact modEng_sound _ _ (fun _ hg => List.foldlRecOn (motive := EngSound) _ _ hg fun _ hg _ _ => hg) hv

section
variable {s : State} (hs : Sound P good (held (outside quiet s)))
include hs

@[simp] theorem fbCommit_sound (t changed active) : Sound P good (held (outside quiet (fbCommit t changed active s))) := by
  have closed : Sound P good (held (outside quiet (onFb (fun x => { x with images := viewCode active }) (closeDue s)))) := by simp [hs]
  unfold fbCommit
  dsimp only
  refine holds_foldl _ (fun u o hu => by simp [hu]) _ ?_
  rw [onFb_held _ _ (by simp), onFb_held _ _ (by simp)]
  split
  · rw [modTcu_outside (by simp)]
    exact commitRegions_sound _ _ (List.range 48) (closeDue s) _ _ closed
  · exact commitRegions_sound _ _ (List.range 48) (closeDue s) _ _ closed

@[simp] theorem writeWords_sound (e o l) : Sound P good (held (outside quiet (writeWords e o l s))) := by
  unfold writeWords
  split
  · exact hs
  · rw [onFo_outside (by simp)]
    exact modEng_sound _ _ (fun g hg => ⟨List.foldlRecOn (motive := fun m : Memory => m.wf = true) _ _ hg.1
      fun _ hm _ _ => Memory.writeN_wf _ _ _ hm, hg.2⟩) hs

@[simp] theorem writeChunks_sound (l) : Sound P good (held (outside quiet (writeChunks l s))) := by
  unfold writeChunks
  refine holds_foldl _ (fun u k hu => writeWords_sound hu _ _ _) _ ?_
  simpa using hs

@[simp] theorem applyRepl_sound (e) : Sound P good (held (outside quiet (applyRepl e s))) := by simp [applyRepl, hs]

@[simp] theorem clusterOff_sound (k) : Sound P good (held (outside quiet (clusterOff k s))) := by
  unfold clusterOff
  refine holds_foldl _ (fun u e hu => ?_) _ ?_
  · exact modEng_sound _ _ (fun _ hg => ⟨rfl, hg.2⟩) hu
  · simp [hs]

@[simp] theorem clusterOn_sound (k) : Sound P good (held (outside quiet (clusterOn k s))) := by
  unfold clusterOn
  refine holds_foldl _ (fun u e hu => ?_) _ ?_
  · exact modEng_sound _ _ (fun _ hg => hg) hu
  · simp [hs]

@[simp] theorem loseDomain_sound (n) : Sound P good (held (outside quiet (loseDomain n s))) := by
  have clusters (l : List Nat) : Sound P good (held (outside quiet (l.foldl (fun s k => clusterOff k s) s))) :=
    holds_foldl _ (fun _ _ hu => clusterOff_sound hu _) l hs
  simp [loseDomain, hs, clusters]

@[simp] theorem serveDomain_sound (n) : Sound P good (held (outside quiet (serveDomain n s))) := by
  have clusters (l : List Nat) : Sound P good (held (outside quiet (l.foldl (fun s k => clusterOn k s) s))) :=
    holds_foldl _ (fun _ _ hu => clusterOn_sound hu _) l hs
  simp [serveDomain, hs, clusters]

@[simp] theorem powerOff_sound (st' n) : Sound P good (held (outside quiet (powerOff st' n s))) := by simp [powerOff, hs]

@[simp] theorem turnOff_sound (st' n) : Sound P good (held (outside quiet (turnOff st' n s))) := by simp [turnOff, hs]

@[simp] theorem powerOn_sound (n) : Sound P good (held (outside quiet (powerOn n s))) := by simp [powerOn, hs]

@[simp] theorem needDomain_sound (n) : Sound P good (held (outside quiet (needDomain n s))) := by simp [needDomain, hs]

@[simp] theorem applyDomain_sound (view n) : Sound P good (held (outside quiet (applyDomain view n s))) := by simp [applyDomain, hs]

/-- A reset leaves no engine, and the retained area (R545, R546). -/
@[simp] theorem poweredDown_sound (dram) : Sound P good (held (outside quiet (poweredDown dram s))) :=
  sound_of_eng hs rfl fun _ _ he => nomatch he

@[simp] theorem resetTasks_sound (o) : Sound P good (held (outside quiet (resetTasks o s))) := by
  have hdrop (gone : Batch → Bool) : Sound P good (held (outside quiet (dropBatches gone s))) := by simp [hs]
  unfold resetTasks
  extract_lets gone t u v w
  have hu : Sound P good (held (outside quiet u)) := mapEng_sound rfl (fun _ he => he) (hdrop _)
  rw [serveReads_held, setRun_held, onFb_held _ _ (by simp), modOwnerTasks_held]
  exact hu

@[simp] theorem startReset_sound (i) : Sound P good (held (outside quiet (startReset i s))) := by simp [startReset, hs]

@[simp] theorem restoreRegion_sound (o x) : Sound P good (held (outside quiet (restoreRegion o x s))) := by
  unfold restoreRegion
  split
  · exact hs
  · exact modEng_sound _ _ (fun _ hg => ⟨Memory.writeN_wf _ _ _ hg.1, hg.2⟩) hs

@[simp] theorem applySaved_sound (i x) : Sound P good (held (outside quiet (applySaved i x s))) := by
  have regions := holds_foldl (fun s r => restoreRegion i r s) (fun _ _ hu => restoreRegion_sound hu _ _) x.regions hs
  simp [applySaved, regions]

@[simp] theorem resetPart_sound (n) : Sound P good (held (outside quiet (resetPart n s).1)) := by
  unfold resetPart
  split <;> simp [hs]

@[simp] theorem functionReset_sound : Sound P good (held (outside quiet (functionReset s))) := by
  have resets := holds_foldl (fun s i => startReset i s) (fun u i hu => startReset_sound hu i)
    (((List.range 64).map (· + 1)).filter (fun i => instState s i == .active || instState s i == .frozen)) hs
  simpa [functionReset] using resets

@[simp] theorem commitInst_sound (view i) : Sound P good (held (outside quiet (commitInst view i s))) := by
  unfold commitInst
  split <;> simp [hs]

@[simp] theorem imCommit_sound (view) : Sound P good (held (outside quiet (imCommit view s))) :=
  holds_foldl (fun s i => commitInst view i s) (fun _ _ hu => commitInst_sound hu _ _) _ (by simpa using hs)

@[simp] theorem switchBanks_sound (t drop changed view) : Sound P good (held (outside quiet (switchBanks t drop changed view s))) := by
  have domains := holds_foldl (fun s n => applyDomain view n s) (fun _ _ hu => applyDomain_sound hu _ _)
    ((List.range 9).filter (fun n => 2 ≤ n)) (imCommit_sound hs view)
  simp [switchBanks, domains]

@[simp] theorem bringDomain_sound (n) : Sound P good (held (outside quiet (bringDomain n s))) := by
  unfold bringDomain
  split <;> simp [hs]

@[simp] theorem bringUp_sound (t view) : Sound P good (held (outside quiet (bringUp t view s))) := by
  have banks (f : SuState → SuState) (g : SeState → SeState) := switchBanks_sound (s := onSu f (onSe g s)) (by simpa using hs) t false view view
  have domains (f g) := holds_foldl (fun s n => bringDomain (n + 2) s) (fun _ _ hu => bringDomain_sound hu _) (List.range 7) (banks f g)
  simpa [bringUp] using domains _ _

@[simp] theorem applyCommit_sound (a view) : Sound P good (held (outside quiet (applyCommit a view s))) := by simp [applyCommit, hs]

@[simp] theorem offPart_sound (n) : Sound P good (held (outside quiet (offPart n s).1)) := by simp [offPart, hs]

@[simp] theorem lockPart_sound (n) : Sound P good (held (outside quiet (lockPart n s).1)) := by simp [lockPart, hs]

@[simp] theorem offAfter_sound (n) : Sound P good (held (outside quiet (offAfter n s))) := by
  unfold offAfter
  split <;> simp [hs]

@[simp] theorem domainsOff_sound (l) : Sound P good (held (outside quiet (domainsOff l s))) :=
  holds_foldl (fun s n => powerOff .off n s) (fun _ n hu => powerOff_sound hu _ n) l hs

@[simp] theorem tahrCorrected_sound (e r) : Sound P good (held (outside quiet (tahrCorrected e r s))) := by simp [tahrCorrected, hs]

end

/-! ## The registers -/

/-- A list of what reads of counters clear, each of which keeps `Sound`. -/
def ClearsSound {α : Type} (P : Memory → Prop) (good : Bool) (l : List (α × State)) : Prop := ∀ b ∈ l, Sound P good (held (outside quiet b.2))

@[simp] theorem clearsSound_nil {α : Type} : ClearsSound (α := α) P good [] := List.forall_mem_nil _

@[simp] theorem clearsSound_cons {α : Type} (b : α × State) (l) :
    ClearsSound P good (b :: l) ↔ Sound P good (held (outside quiet b.2)) ∧ ClearsSound P good l := List.forall_mem_cons

@[simp] theorem clearsSound_map {α β : Type} (f : β → α × State) (l : List β) :
    ClearsSound P good (l.map f) ↔ ∀ k ∈ l, Sound P good (held (outside quiet (f k).2)) := List.forall_mem_map

theorem bankRc_sound {n : Nat} (v : Vector (BitVec 64) n) {put : Vector (BitVec 64) n → State}
    (hput : ∀ v, Sound P good (held (outside quiet (put v)))) : ClearsSound P good (bankRc v put) := by
  simp [bankRc, hput]

/-- An engine changed where it is listed, apart from its memory and its registers. -/
theorem adjAt_eng_sound {s : State} {k : Nat} {f : Engine → Engine} (hm : ∀ g, (f g).mem = g.mem) (hv : ∀ g, (f g).v = g.v)
    (hs : Sound P good (held (outside quiet s))) : Sound P good (held (outside quiet (onFb (fun m => { m with eng := adjAt m.eng k f }) s))) := by
  refine mapEng_sound rfl (fun e he => ?_) hs
  split
  · unfold EngSound
    rwa [hm, hv]
  · exact he

/-- A counter of an engine read and cleared leaves its memory and its registers. -/
theorem tabRc_eng_sound (k get) {zero : Engine → Engine} (s) (hm : ∀ g, (zero g).mem = g.mem) (hv : ∀ g, (zero g).v = g.v)
    (hs : Sound P good (held (outside quiet s))) :
    Sound P good (held (outside quiet (tabRc s.fb.eng k get zero (fun t => onFb (fun m => { m with eng := t }) s) s).2)) := by
  unfold tabRc
  split
  next g hg =>
    obtain ⟨e, he, rfl⟩ := Option.map_eq_some_iff.mp hg
    refine sound_of_eng hs rfl fun h => List.forall_mem_cons.mpr ⟨?_, fun x hx => h x (List.mem_filter.mp hx).1⟩
    unfold EngSound
    rw [hm, hv]
    exact h e (List.mem_of_find?_eq_some he)
  · exact hs

section
variable {s : State} (hs : Sound P good (held (outside quiet s)))
include hs

theorem counters64_sound : ∀ a ∈ counters64 s, ∀ n, ClearsSound P good (a.2.2.2.2 n) := by
  simp only [counters64, List.forall_mem_cons, List.not_mem_nil, false_imp_iff, implies_true, and_true]
  refine ⟨fun r => ?_, fun n => ?_, fun n => ?_, fun q => ?_, fun n => ?_, fun n => ?_, fun n => ?_, fun n => ?_, fun n => ?_, fun n => ?_,
    fun n => ?_, fun r => ?_, fun k => ?_, fun k => ?_, fun e => ?_, fun j => ?_, fun n => ?_, fun i => ?_, fun n => ?_⟩
  case refine_2 => exact bankRc_sound _ fun v => by simp [hs]
  case refine_3 => exact bankRc_sound _ fun v => by simp [hs]
  case refine_12 => exact bankRc_sound _ fun v => by simp [hs]
  case refine_19 => exact bankRc_sound _ fun v => by simp [hs]
  case refine_15 => simp only [clearsSound_cons, clearsSound_nil, tabRc_eng_sound, hs, implies_true, and_self]
  case refine_16 => split <;> simp [hs]
  all_goals simp [hs]

theorem counters32_sound : ∀ a ∈ counters32 s, ∀ n, ∀ c ∈ a.2.2.2 n, Sound P good (held (outside quiet c.2.2)) := by
  simp only [counters32, List.forall_mem_cons, List.not_mem_nil, false_imp_iff, implies_true, and_true, List.forall_mem_map,
    List.forall_mem_append, List.forall_mem_flatMap]
  refine ⟨?_, fun p => ?_, ?_, ?_, ?_, ?_, fun j => ?_, ?_⟩
  case refine_7 => split <;> simp [hs]
  all_goals simp [hs]

theorem rc64_sound {o : Nat} {r : BitVec 64 × State} (h : rc64 o s = some r) : Sound P good (held (outside quiet r.2)) := by
  obtain ⟨a, ha, h⟩ := List.exists_of_findSome?_eq_some h
  obtain ⟨b, -, h⟩ := Option.bind_eq_some_iff.mp h
  refine counters64_sound hs a ha b.1 r ?_
  unfold pick at h
  split at h
  · exact List.mem_of_getElem? h
  · nomatch h

theorem rc32_sound {o : Nat} {r : BitVec 32 × State} (h : rc32 o s = some r) : Sound P good (held (outside quiet r.2)) := by
  obtain ⟨a, ha, h⟩ := List.exists_of_findSome?_eq_some h
  obtain ⟨b, -, h⟩ := Option.bind_eq_some_iff.mp h
  obtain ⟨c, hc, rfl⟩ := Option.map_eq_some_iff.mp h
  exact counters32_sound hs a ha b.1 c (List.mem_of_find?_eq_some hc)

theorem clearUnits_sound (v) : ∀ a ∈ clearUnits v s, ∀ n, Sound P good (held (outside quiet (a.2.2.2 n))) := by
  simp only [clearUnits, List.forall_mem_cons, List.not_mem_nil, false_imp_iff, implies_true, and_true]
  refine ⟨?_, ?_, ?_, ?_, ?_, ?_, ?_, ?_, ?_, ?_, ?_, ?_, ?_, ?_, ?_, ?_, ?_, ?_, fun e => ?_, ?_, fun j => ?_, ?_⟩
  case refine_19 => exact adjAt_eng_sound (fun _ => rfl) (fun _ => rfl) hs
  case refine_21 => split <;> simp [hs]
  all_goals simp [hs]

@[simp] theorem writeBar0_sound (o v) : Sound P good (held (outside quiet (writeBar0 o v s))) := by
  have units : Sound P good (held (outside quiet
      (((clearUnits v s).findSome? fun a => (elem o a.1 a.2.1 a.2.2.1).map a.2.2.2).getD s))) := by
    cases h : (clearUnits v s).findSome? fun a => (elem o a.1 a.2.1 a.2.2.1).map a.2.2.2 with
    | none => exact hs
    | some t =>
      obtain ⟨a, ha, h⟩ := List.exists_of_findSome?_eq_some h
      obtain ⟨n, -, rfl⟩ := Option.map_eq_some_iff.mp h
      exact clearUnits_sound hs v a ha n
  unfold writeBar0
  split
  · simp [hs]
  · split
    · simp [hs]
    · simp [hs]
    · simp [hs, units]

@[simp] theorem writeReg_sound (window o v) : Sound P good (held (outside quiet (writeReg window o v s))) := by simp [writeReg, hs]

theorem latching_sound {o : Nat} {r : BitVec 64 × State} (h : latching o s = some r) : Sound P good (held (outside quiet r.2)) := by
  unfold latching at h
  split at h
  · cases h
    exact hs
  · split at h
    · cases h
      exact hs
    · split at h
      · cases h
        simp [hs]
      · cases h
        simp [hs]
      · exact rc64_sound hs h

@[simp] theorem read32_sound (rq window o) : Sound P good (held (outside quiet (read32 rq window o s).2)) := by
  unfold read32
  split
  · exact hs
  · split
    · exact hs
    · split
      next h => exact rc32_sound hs h
      next =>
        dsimp only
        split
        · simp [hs]
        · split
          · dsimp only
            split <;> simp [hs]
          · exact hs

@[simp] theorem readReg_sound (rq window o w) : Sound P good (held (outside quiet (readReg rq window o w s))) := by
  have latched {r : BitVec 64 × State} (h : (if window = 0 then latching o s else none) = some r) : Sound P good (held (outside quiet r.2)) := by
    split at h
    · exact latching_sound hs h
    · nomatch h
  unfold readReg
  split
  · simp [hs]
  · simp [hs]
  · split
    · simp [hs]
    · split
      next h => simpa using latched h
      next => simp [hs]
  · split
    · simp [hs]
    · split
      next h => simpa using latched h
      next => simp [hs]

end

end

end Sys2Proof.Machine
end
section
/-! What every command keeps of the addressed memories and of V0 (O5, O9): the walk over the commands by `Sound`. -/

namespace Sys2Proof.Machine

/-! ## What takes a meaning as an argument -/

section
variable {Q : Memory × Tab Nat Engine → Prop}

@[simp] theorem brxRx_holds (type w) {k : List Byte → List (Vector Byte 36) → State → State} (s)
    (hk : ∀ h p u, Q (held (outside quiet u)) → Q (held (outside quiet (k h p u)))) (hs : Q (held (outside quiet s))) :
    Holds Q (brxRx type w k s) := by
  unfold brxRx
  repeat' split
  all_goals simp [hk, hs]

@[simp] theorem hearCab_holds (g type rxLt f) {k : CabFrame → State → State} (s)
    (hk : ∀ c u, Q (held (outside quiet u)) → Q (held (outside quiet (k c u)))) (hs : Q (held (outside quiet s))) :
    Holds Q (hearCab g type rxLt f k s) := by
  have h : Q (held (outside quiet (viaQueue (0x16 + g.val)
    (noticeBytes s (0x16 + g.val) rxLt (rxStatusWord 0 0 f.codeErr false false) (0x10 + g.val) 0 0 false) f.bytes s).2)) := by simp [hs]
  unfold hearCab
  dsimp only
  split
  · simp [hs]
  · split
    · simp [hs]
    · split
      · simp [hs]
      · split
        next he =>
          rw [he] at h
          split <;> simp [hk, h]
        next he =>
          rw [he] at h
          simpa using h

@[simp] theorem c37Command_holds (k) {act : PeStream → State → State} (s)
    (ha : ∀ x u, Q (held (outside quiet u)) → Q (held (outside quiet (act x u)))) (hs : Q (held (outside quiet s))) :
    Holds Q (c37Command k act s) := by
  unfold c37Command
  split
  · simp [hs]
  · dsimp only
    split <;> simp [ha, hs]

@[simp] theorem hostRead_holds (rq) {f : State → State} (s) (hf : ∀ u, Q (held (outside quiet u)) → Q (held (outside quiet (f u))))
    (hs : Q (held (outside quiet s))) : Holds Q (hostRead rq f s) := by
  unfold hostRead
  split <;> simp [hf, hs]

@[simp] theorem domainCtrl_holds (c mask) {f : Nat → State → State × Status} (s)
    (hf : ∀ k u, Q (held (outside quiet u)) → Q (held (outside quiet (f k u).1))) (hs : Q (held (outside quiet s))) :
    Holds Q (domainCtrl c mask f s) := by
  refine command_holds _ _ _ _ (fun u hu => multipart_holds mask u (fun n v hv => ?_) hu) hs
  unfold domainPart
  split
  · exact hv
  · exact hf n v hv

@[simp] theorem revokeParts_holds (op c base mask) {part : Nat → State → State × Nat} (s)
    (hpart : ∀ k u, held (outside quiet (part k u).1) = held (outside quiet u)) (hs : Q (held (outside quiet s))) :
    Holds Q (revokeParts op c base mask part s) := by
  refine kvCommand_holds _ _ _ _ (fun u hu => multipart_holds mask u (fun n v hv => ?_) hu) hs
  unfold partRevoke
  split <;> simp [hpart, hv]

end

section
variable {P : Memory → Prop} {good : Bool} {s : State} (hs : Sound P good (held (outside quiet s)))
include hs

/-! ## What Board keeps -/

theorem execBorClearWrite_sound : Holds (Sound P good) (execBorClearWrite s) := by simp [execBorClearWrite, hs]

/-! ## What Cyclic keeps -/

theorem execMajorFrameStart_sound : Holds (Sound P good) (execMajorFrameStart s) := by simp [execMajorFrameStart, hs]

theorem execBaseTick_sound : Holds (Sound P good) (execBaseTick s) := by simp [execBaseTick, hs]

theorem execWindowEnd_sound (e) : Holds (Sound P good) (execWindowEnd e s) := by simp [execWindowEnd, hs]

theorem execCycleStart_sound (e) : Holds (Sound P good) (execCycleStart e s) := by
  unfold execCycleStart
  dsimp only
  repeat' split
  all_goals simp [hs]

theorem execOutputWrite_sound (e) : Holds (Sound P good) (execOutputWrite e s) := by
  unfold execOutputWrite
  split <;> simp [hs]

theorem execRunStateChange_sound (o) : Holds (Sound P good) (execRunStateChange o s) := by
  unfold execRunStateChange
  dsimp only
  repeat' split
  all_goals simp [hs]

theorem execInboxDispatch_sound (k odd guard) : Holds (Sound P good) (execInboxDispatch k odd guard s) := by
  unfold execInboxDispatch
  dsimp only
  repeat' split
  all_goals simp [hs]

/-! ## What FbCommands keeps -/

theorem execFbStageCode_sound (c raw) : Holds (Sound P good) (execFbStageCode c raw s) := by
  unfold execFbStageCode
  split <;> simp [hs]

theorem execFbReadInst_sound (c e a n) : Holds (Sound P good) (execFbReadInst c e a n s) := by simp [execFbReadInst, hs]

theorem execFbReadFault_sound (c o e) : Holds (Sound P good) (execFbReadFault c o e s) := by simp [execFbReadFault, hs]

theorem execRunWarm_sound (c o) : Holds (Sound P good) (execRunWarm c o s) := by simp [execRunWarm, hs]

theorem execRunCold_sound (c o) : Holds (Sound P good) (execRunCold c o s) := by simp [execRunCold, hs]

theorem execFbRunCtrlStop_sound (c o) : Holds (Sound P good) (execFbRunCtrlStop c o s) := by simp [execFbRunCtrlStop, hs]

theorem execFbRunCtrlHold_sound (c o) : Holds (Sound P good) (execFbRunCtrlHold c o s) := by simp [execFbRunCtrlHold, hs]

theorem execFbStep_sound (c o t n) : Holds (Sound P good) (execFbStep c o t n s) := by simp [execFbStep, hs]

theorem execFbReadTasks_sound (c o) : Holds (Sound P good) (execFbReadTasks c o s) := by simp [execFbReadTasks, hs]

/-! ## What Failover keeps -/

theorem execPartnerLost_sound : Holds (Sound P good) (execPartnerLost s) := by simp [execPartnerLost, hs]

theorem execBrixigLinkState_sound (up) : Holds (Sound P good) (execBrixigLinkState up s) := by simp [execBrixigLinkState, hs]

theorem execWitnessClear_sound : Holds (Sound P good) (execWitnessClear s) := by simp [execWitnessClear, hs]

theorem execDiscoveryTimeout_sound : Holds (Sound P good) (execDiscoveryTimeout s) := by
  unfold execDiscoveryTimeout
  split <;> simp [hs]

theorem execWatchdogExpiry_sound : Holds (Sound P good) (execWatchdogExpiry s) := by simp [execWatchdogExpiry, hs]

theorem execTimeSvTrigger_sound : Holds (Sound P good) (execTimeSvTrigger s) := by
  unfold execTimeSvTrigger
  split <;> simp [hs]

theorem execEpochResetWindow_sound : Holds (Sound P good) (execEpochResetWindow s) := by simp [execEpochResetWindow, hs]

theorem execSwapBoundary_sound : Holds (Sound P good) (execSwapBoundary s) := by simp [execSwapBoundary, hs]

theorem execFoRelinquish_sound (c) : Holds (Sound P good) (execFoRelinquish c s) := by simp [execFoRelinquish, hs]

theorem execFoSwap_sound (c) : Holds (Sound P good) (execFoSwap c s) := by simp [execFoSwap, hs]

theorem execFoRearm_sound (c) : Holds (Sound P good) (execFoRearm c s) := by simp [execFoRearm, hs]

theorem execFoEpochReset_sound (c) : Holds (Sound P good) (execFoEpochReset c s) := by simp [execFoEpochReset, hs]

/-! ## What Cabinet keeps -/

theorem execImageTransmit_sound (g) : Holds (Sound P good) (execImageTransmit g s) := by
  unfold execImageTransmit
  dsimp only
  split <;> simp [hs]

theorem execSlottedStartupEnd_sound (g) : Holds (Sound P good) (execSlottedStartupEnd g s) := by simp [execSlottedStartupEnd, hs]

theorem cabMode_sound (c g test) : Holds (Sound P good) (cabMode c g test s) := by simp [cabMode, hs]

theorem execFoCabRediscover_sound (c mask) : Holds (Sound P good) (execFoCabRediscover c mask s) := by simp [execFoCabRediscover, hs]

/-! ## What Compare keeps -/

theorem execCompareFire_sound (n) : Holds (Sound P good) (execCompareFire n s) := by simp [execCompareFire, hs]

theorem execTbTcuArm_sound (c n target periodic period) : Holds (Sound P good) (execTbTcuArm c n target periodic period s) := by
  unfold execTbTcuArm
  dsimp only
  repeat' split
  all_goals simp [hs]

theorem execTbTcuDisarm_sound (c n) : Holds (Sound P good) (execTbTcuDisarm c n s) := by simp [execTbTcuDisarm, hs]

/-! ## What Ptp keeps -/

theorem execPtpMessageTx_sound (p t) : Holds (Sound P good) (execPtpMessageTx p t s) := by
  unfold execPtpMessageTx
  dsimp only
  repeat' split
  all_goals simp [hs]

/-! ## What Ports keeps -/

theorem execTransmitEnd_sound (p guard) : Holds (Sound P good) (execTransmitEnd p guard s) := by
  unfold execTransmitEnd
  dsimp only
  repeat' split
  all_goals simp [hs]

theorem execSupervisionTx_sound (k) : Holds (Sound P good) (execSupervisionTx k s) := by simp [execSupervisionTx, hs]

theorem execPxMacsecSaSet_sound (c p rxChan an sa) : Holds (Sound P good) (execPxMacsecSaSet c p rxChan an sa s) := by
  refine command_holds _ _ _ _ (fun u hu => ?_) hs
  repeat' split
  all_goals simp [hu]

theorem execPxMacsecTxAn_sound (c p an) : Holds (Sound P good) (execPxMacsecTxAn c p an s) := by simp [execPxMacsecTxAn, hs]

theorem execPxPortRestart_sound (c mask) : Holds (Sound P good) (execPxPortRestart c mask s) := by simp [execPxPortRestart, hs]

theorem execPxReadCounters_sound (c mask) : Holds (Sound P good) (execPxReadCounters c mask s) := by simp [execPxReadCounters, hs]

/-! ## What Fabric keeps -/

theorem execTransmitQueueEntry_sound (p cls guard) : Holds (Sound P good) (execTransmitQueueEntry p cls guard s) := by
  unfold execTransmitQueueEntry
  dsimp only
  repeat' split
  all_goals simp [hs]

theorem execSwReadCounters_sound (c mask) : Holds (Sound P good) (execSwReadCounters c mask s) := by simp [execSwReadCounters, hs]

theorem execSwFdbFlush_sound (c mask) : Holds (Sound P good) (execSwFdbFlush c mask s) := by simp [execSwFdbFlush, hs]

/-! ## What PointStore keeps -/

theorem execBatchApply_sound : Holds (Sound P good) (execBatchApply s) := by
  unfold execBatchApply
  dsimp only
  repeat' split
  all_goals simp [hs]

theorem execPsReadPoints_sound (c l guard forces) : Holds (Sound P good) (execPsReadPoints c l guard forces s) := by
  refine command_holds _ _ _ _ (fun u hu => ?_) hs
  simp [hu]

/-! ## What Recorder keeps -/

theorem execTdcCalibrationDone_sound (e bins) : Holds (Sound P good) (execTdcCalibrationDone e bins s) := by simp [execTdcCalibrationDone, hs]

theorem execArTrigger_sound (c mask) : Holds (Sound P good) (execArTrigger c mask s) := by simp [execArTrigger, hs]

theorem execArRecorderArm_sound (c mask) : Holds (Sound P good) (execArRecorderArm c mask s) := by simp [execArRecorderArm, hs]

theorem execArRecorderStop_sound (c mask) : Holds (Sound P good) (execArRecorderStop c mask s) := by simp [execArRecorderStop, hs]

theorem execArRecordList_sound (c r) : Holds (Sound P good) (execArRecordList c r s) := by simp [execArRecordList, hs]

theorem execArRecordRelease_sound (c r nos) : Holds (Sound P good) (execArRecordRelease c r nos s) := by simp [execArRecordRelease, hs]

theorem execArReadCounters_sound (c mask) : Holds (Sound P good) (execArReadCounters c mask s) := by simp [execArReadCounters, hs]

/-! ## What Filter keeps -/

theorem execLaneOutputRelease_sound (l f) : Holds (Sound P good) (execLaneOutputRelease l f s) := by
  unfold execLaneOutputRelease
  dsimp only
  repeat' split
  all_goals simp [hs]

theorem execFrLaneRestart_sound (c base mask) : Holds (Sound P good) (execFrLaneRestart c base mask s) := by simp [execFrLaneRestart, hs]

/-! ## What Phasor keeps -/

theorem execDataFrameHandover_sound (k) : Holds (Sound P good) (execDataFrameHandover k s) := by
  unfold execDataFrameHandover
  dsimp only
  split <;> simp [hs]

theorem execPeReadResults_sound (c base mask) : Holds (Sound P good) (execPeReadResults c base mask s) := by simp [execPeReadResults, hs]

theorem execPeStreamTxOn_sound (c base mask) : Holds (Sound P good) (execPeStreamTxOn c base mask s) := by simp [execPeStreamTxOn, hs]

theorem execPeStreamTxOff_sound (c base mask) : Holds (Sound P good) (execPeStreamTxOff c base mask s) := by simp [execPeStreamTxOff, hs]

theorem execPeReadCounters_sound (c base mask) : Holds (Sound P good) (execPeReadCounters c base mask s) := by simp [execPeReadCounters, hs]

/-! ## What Stream keeps -/

theorem execInstantRelease_sound (g) : Holds (Sound P good) (execInstantRelease g s) := by
  unfold execInstantRelease
  split <;> simp [hs]

theorem execGridSecond_sound : Holds (Sound P good) (execGridSecond s) := by
  unfold execGridSecond
  dsimp only
  repeat' split
  all_goals simp [hs]

theorem execGoosePublish_sound (p) : Holds (Sound P good) (execGoosePublish p s) := by
  unfold execGoosePublish
  split <;> simp [hs]

theorem execGooseRetransmit_sound (p) : Holds (Sound P good) (execGooseRetransmit p s) := by
  unfold execGooseRetransmit
  dsimp only
  split <;> simp [hs]

theorem execHandoverEnd_sound : Holds (Sound P good) (execHandoverEnd s) := by
  unfold execHandoverEnd
  split <;> simp [hs]

theorem execSeReadCounters_sound (c base mask) : Holds (Sound P good) (execSeReadCounters c base mask s) := by simp [execSeReadCounters, hs]

theorem execSeStreamRelock_sound (c base mask) : Holds (Sound P good) (execSeStreamRelock c base mask s) := by simp [execSeStreamRelock, hs]

/-! ## What Supervisor keeps -/

theorem execSuRingCreate_sound (c i r cbase rbase size vector) : Holds (Sound P good) (execSuRingCreate c i r cbase rbase size vector s) := by
  simp [execSuRingCreate, hs]

theorem execSuRingDestroy_sound (c i r) : Holds (Sound P good) (execSuRingDestroy c i r s) := by
  refine command_holds _ _ _ _ (fun u hu => ?_) hs
  split
  · simp [hu]
  · split <;> simp [hu]

theorem execSuSessionOpen_sound (c) : Holds (Sound P good) (execSuSessionOpen c s) := by simp [execSuSessionOpen, hs]

theorem execSuSessionAbort_sound (c) : Holds (Sound P good) (execSuSessionAbort c s) := by
  refine command_holds _ _ _ _ (fun u hu => ?_) hs
  dsimp only
  split
  · simp [hu]
  · split <;> simp [hu]
  · simp [hu]

theorem execSuPkgLoad_sound (c extents p store) : Holds (Sound P good) (execSuPkgLoad c extents p store s) := by simp [execSuPkgLoad, hs]

theorem execSuPkgStage_sound (c) : Holds (Sound P good) (execSuPkgStage c s) := by
  refine command_holds _ _ _ _ (fun u hu => ?_) hs
  dsimp only
  split
  · simp [hu]
  · simp [hu]

/-! ## What Queues keeps -/

theorem execPacketOpen_sound (p q header rxLt rxStatus guard) : Holds (Sound P good) (execPacketOpen p q header rxLt rxStatus guard s) := by
  unfold execPacketOpen
  dsimp only
  split
  · simp [hs]
  · split
    · split
      · simp [hs]
      · split <;> simp [hs]
    · split <;> simp [hs]
    · split <;> simp [hs]

theorem execQueueRead_sound (q rq guard) : Holds (Sound P good) (execQueueRead q rq guard s) := by
  unfold execQueueRead
  dsimp only
  repeat' split
  all_goals simp [hs]

theorem execQmReadCounters_sound (c base mask) : Holds (Sound P good) (execQmReadCounters c base mask s) := by simp [execQmReadCounters, hs]

theorem execQmQueueFlush_sound (c base mask) : Holds (Sound P good) (execQmQueueFlush c base mask s) := by simp [execQmQueueFlush, hs]

/-! ## What Instances keeps -/

theorem execResetEnd_sound (i) : Holds (Sound P good) (execResetEnd i s) := by simp [execResetEnd, hs]

theorem execImInstanceFreeze_sound (c i) : Holds (Sound P good) (execImInstanceFreeze c i s) := by simp [execImInstanceFreeze, hs]

theorem execFreezeBoundary_sound (i) : Holds (Sound P good) (execFreezeBoundary i s) := by
  unfold execFreezeBoundary
  split <;> simp [hs]

theorem execImInstanceSave_sound (c i slot) : Holds (Sound P good) (execImInstanceSave c i slot s) := by
  refine command_holds _ _ _ _ (fun u hu => ?_) hs
  split
  · split <;> simp [hu]
  · simp [hu]

theorem execImInstanceRestore_sound (c i blob) : Holds (Sound P good) (execImInstanceRestore c i blob s) := by
  refine command_holds _ _ _ _ (fun u hu => ?_) hs
  split
  · simp [hu]
  · split <;> simp [hu]

theorem execRestoreApply_sound (i) : Holds (Sound P good) (execRestoreApply i s) := by
  unfold execRestoreApply
  split <;> simp [hs]

theorem execImInstanceThaw_sound (c i) : Holds (Sound P good) (execImInstanceThaw c i s) := by simp [execImInstanceThaw, hs]

theorem execThawBoundary_sound (i) : Holds (Sound P good) (execThawBoundary i s) := by
  unfold execThawBoundary
  split <;> simp [hs]

theorem execImInstanceInfo_sound (c i) : Holds (Sound P good) (execImInstanceInfo c i s) := by simp [execImInstanceInfo, hs]

theorem execImHostqSet_sound (c i j x) : Holds (Sound P good) (execImHostqSet c i j x s) := by
  unfold execImHostqSet
  dsimp only
  repeat' split
  all_goals simp [hs]

theorem execHostqDescriptor_sound (i j desc data guard) : Holds (Sound P good) (execHostqDescriptor i j desc data guard s) := by
  unfold execHostqDescriptor
  dsimp only
  repeat' split
  all_goals simp [hs]

theorem execFunctionLevelReset_sound : Holds (Sound P good) (execFunctionLevelReset s) := by simp [execFunctionLevelReset, hs]

theorem execPerstAssert_sound : Holds (Sound P good) (execPerstAssert s) := by
  unfold execPerstAssert
  dsimp only
  repeat' split
  all_goals simp [hs]

/-! ## What Commit keeps -/

theorem execCommitStrobe_sound : Holds (Sound P good) (execCommitStrobe s) := by
  unfold execCommitStrobe
  split <;> simp [hs]

/-! ## What Guard keeps -/

theorem execScrubRead_sound (r d words word use) : Holds (Sound P good) (execScrubRead r d words word use s) := by simp [execScrubRead, hs]

/-! ## What Power keeps -/

theorem execDomainIdleOff_sound (n) : Holds (Sound P good) (execDomainIdleOff n s) := by simp [execDomainIdleOff, hs]

theorem execDomainDataAccess_sound (n need rq) : Holds (Sound P good) (execDomainDataAccess n need rq s) := by
  unfold execDomainDataAccess
  dsimp only
  repeat' split
  all_goals simp [hs]

theorem execDomainOn_sound (n) : Holds (Sound P good) (execDomainOn n s) := by simp [execDomainOn, hs]

theorem execPd2WakeDone_sound : Holds (Sound P good) (execPd2WakeDone s) := by simp [execPd2WakeDone, hs]

theorem execPaSleep_sound (c mask alarm) : Holds (Sound P good) (execPaSleep c mask alarm s) := by
  refine command_holds _ _ _ _ (fun u hu => ?_) hs
  repeat' split
  all_goals simp [hu]

theorem execRtcCalibrationDone_sound (rtc) : Holds (Sound P good) (execRtcCalibrationDone rtc s) := by
  unfold execRtcCalibrationDone
  split
  · simp [hs]
  · split
    · simp [hs]
    · simp [hs]

theorem execWakeNFall_sound (rtc) : Holds (Sound P good) (execWakeNFall rtc s) := by simp [execWakeNFall, hs]

theorem execRtcAlarm_sound (rtc) : Holds (Sound P good) (execRtcAlarm rtc s) := by simp [execRtcAlarm, hs]

theorem execTamperSample_sound (k level rtc) : Holds (Sound P good) (execTamperSample k level rtc s) := by simp [execTamperSample, hs]

theorem execTamperLatch_sound (k rtc) : Holds (Sound P good) (execTamperLatch k rtc s) := by simp [execTamperLatch, hs]

theorem execPerstNRise_sound (rtc) : Holds (Sound P good) (execPerstNRise rtc s) := by simp [execPerstNRise, hs]

theorem execIoSupplyLow_sound : Holds (Sound P good) (execIoSupplyLow s) := by
  unfold execIoSupplyLow
  dsimp only
  split <;> simp [hs]

theorem execIoSupplyHigh_sound : Holds (Sound P good) (execIoSupplyHigh s) := by simp [execIoSupplyHigh, hs]

theorem execOpsecsCopy_sound (rtc) : Holds (Sound P good) (execOpsecsCopy rtc s) := by simp [execOpsecsCopy, hs]

theorem execPowerGood_sound (rtc) : Holds (Sound P good) (execPowerGood rtc s) := by simp [execPowerGood, hs]

theorem execPaRetainRead_sound (c ofs len) : Holds (Sound P good) (execPaRetainRead c ofs len s) := by simp [execPaRetainRead, hs]

theorem execPaTamperClear_sound (c mask) : Holds (Sound P good) (execPaTamperClear c mask s) := by simp [execPaTamperClear, hs]

/-! ## What Registers keeps -/

theorem execRegisterWrite_sound (window o v w) : Holds (Sound P good) (execRegisterWrite window o v w s) := by
  unfold execRegisterWrite
  split
  · simp [hs]
  · split <;> simp [hs]

/-! ## What Startup keeps -/

theorem execSecureBootDone_sound (a b) : Holds (Sound P good) (execSecureBootDone a b s) := by simp [execSecureBootDone, hs]

theorem execDuikerRestoreDone_sound (rtc) : Holds (Sound P good) (execDuikerRestoreDone rtc s) := by simp [execDuikerRestoreDone, hs]

theorem execDramTrainingDone_sound (ok) : Holds (Sound P good) (execDramTrainingDone ok s) := by simp [execDramTrainingDone, hs]

theorem execSuReady_sound (bad) : Holds (Sound P good) (execSuReady bad s) := by simp [execSuReady, hs]

theorem execPointStoreBuilt_sound : Holds (Sound P good) (execPointStoreBuilt s) := by simp [execPointStoreBuilt, hs]

theorem execPortsUp_sound : Holds (Sound P good) (execPortsUp s) := by simp [execPortsUp, hs]

theorem execLockTimeout_sound : Holds (Sound P good) (execLockTimeout s) := by
  unfold execLockTimeout
  split <;> simp [hs]

/-! ## What StageCheck keeps -/

theorem execSuStageCheck_sound (c drop) : Holds (Sound P good) (execSuStageCheck c drop s) := by
  refine command_holds _ _ _ _ (fun u hu => ?_) hs
  dsimp only
  repeat' split
  all_goals simp [hu]

/-! ## What Vault keeps -/

theorem execKvKeyGenerate_sound (c k) : Holds (Sound P good) (execKvKeyGenerate c k s) := by
  refine kvCommand_holds _ _ _ _ (fun u hu => ?_) hs
  dsimp only
  split
  · simp [hu]
  · split <;> simp [hu]

theorem execKvKeyAgree_sound (c k peer q) : Holds (Sound P good) (execKvKeyAgree c k peer q s) := by
  refine kvCommand_holds _ _ _ _ (fun u hu => ?_) hs
  dsimp only
  split
  · simp [hu]
  · split
    · simp [hu]
    · split <;> simp [hu]

theorem execKvKeyWrap_sound (c slot parent) : Holds (Sound P good) (execKvKeyWrap c slot parent s) := by
  refine kvCommand_holds _ _ _ _ (fun u hu => ?_) hs
  split
  · simp [hu]
  · dsimp only
    repeat' split
    all_goals simp [hu]

theorem execKvKeyPublic_sound (c slot) : Holds (Sound P good) (execKvKeyPublic c slot s) := by
  refine kvCommand_holds _ _ _ _ (fun u hu => ?_) hs
  split <;> simp [hu]

theorem execKvKeyRestrict_sound (c slot clear) : Holds (Sound P good) (execKvKeyRestrict c slot clear s) := by
  refine kvCommand_holds _ _ _ _ (fun u hu => ?_) hs
  split <;> simp [hu]

theorem execKvGcm_sound (c q) : Holds (Sound P good) (execKvGcm c q s) := by
  refine kvCommand_holds _ _ _ _ (fun u hu => ?_) hs
  split
  · simp [hu]
  · split <;> simp [hu]

theorem execKvHmac_sound (c slot sha384 verify msg) : Holds (Sound P good) (execKvHmac c slot sha384 verify msg s) := by
  refine kvCommand_holds _ _ _ _ (fun u hu => ?_) hs
  split
  · simp [hu]
  · split <;> simp [hu]

theorem execKvHash_sound (c sha384 msg) : Holds (Sound P good) (execKvHash c sha384 msg s) := kvCommand_holds _ _ _ _ (fun u hu => by simp [hu]) hs

theorem execKvSign_sound (c slot hashed data) : Holds (Sound P good) (execKvSign c slot hashed data s) := by
  refine kvCommand_holds _ _ _ _ (fun u hu => ?_) hs
  split
  · simp [hu]
  · split <;> simp [hu]

theorem execKvVerify_sound (c slot hashed data sig) : Holds (Sound P good) (execKvVerify c slot hashed data sig s) := by
  refine kvCommand_holds _ _ _ _ (fun u hu => ?_) hs
  split <;> simp [hu]

theorem execKvRandom_sound (c n) : Holds (Sound P good) (execKvRandom c n s) := kvCommand_holds _ _ _ _ (fun u hu => by simp [hu]) hs

theorem execKvLcAdvance_sound (c target auth) : Holds (Sound P good) (execKvLcAdvance c target auth s) :=
  command_holds _ _ _ _ (fun u hu => by simp [hu]) hs

theorem execKvFwSvnRaise_sound (c) : Holds (Sound P good) (execKvFwSvnRaise c s) := by simp [execKvFwSvnRaise, hs]


theorem execSnapshotDone_sound (e) : Holds (Sound P good) (execSnapshotDone e s) := by
  unfold execSnapshotDone
  split
  · simp [hs]
  · split
    · simp [hs]
    · exact (holds_next _).mpr (modEng_sound _ _ (fun _ hg => ⟨writeRx_wf _ _ _ _ hg.1, by simp⟩) hs)

theorem execEngineReloadDone_sound (k) : Holds (Sound P good) (execEngineReloadDone k s) := by
  have load (l : List Nat) :
      Sound P good (held (outside quiet (l.foldl (fun s e => modEng e (fun g => { g with domain := .on }) (loadEngine e s)) s))) :=
    holds_foldl _ (fun u e hu => by simp [hu]) _ hs
  simp [execEngineReloadDone, hs, load]

theorem execFbReadCounters_sound (c mask) : Holds (Sound P good) (execFbReadCounters c mask s) :=
  multi_holds _ _ _ _ s (fun n _ hu => partFbReadCounters_sound hu n) hs

theorem execHeartbeatRx_sound (w) : Holds (Sound P good) (execHeartbeatRx w s) := brxRx_holds _ _ _ (fun h p u hu => by simp [hu]) hs

theorem execRelinquishRx_sound (w) : Holds (Sound P good) (execRelinquishRx w s) := brxRx_holds _ _ _ (fun h p u hu => by simp [hu]) hs

theorem execReplApply_sound : Holds (Sound P good) (execReplApply s) := by
  unfold execReplApply
  split
  · simp [hs]
  · exact (holds_next _).mpr (holds_foldl _ (fun _ e hu => applyRepl_sound hu e) _ hs)

theorem execReportReceive_sound (g f rxLt) : Holds (Sound P good) (execReportReceive g f rxLt s) := by
  refine hearCab_holds _ _ _ _ _ (fun f u hu => ?_) hs
  dsimp only
  split <;> simp [hu]

theorem execAnnounceReceive_sound (g f rxLt) : Holds (Sound P good) (execAnnounceReceive g f rxLt s) := by
  refine hearCab_holds _ _ _ _ _ (fun f u hu => ?_) hs
  dsimp only
  split <;> simp [hu]

theorem execImageReceive_sound (g f rxLt) : Holds (Sound P good) (execImageReceive g f rxLt s) :=
  hearCab_holds _ _ _ _ _ (fun f u hu => by simp [hu]) hs

theorem execTransmitStart_sound (p guard) : Holds (Sound P good) (execTransmitStart p guard s) := by
  unfold execTransmitStart
  extract_lets p ring free
  have hring (u) (hr : ring = some u) : Sound P good (held (outside quiet u)) := by
    unfold ring at hr
    split at hr
    · split at hr
      · rw [startRing_outside (by simp) hr]
        exact hs
      · nomatch hr
    · nomatch hr
  clear_value ring
  split
  · simp [hs]
  · split
    next u => simp [hring u rfl]
    next =>
      have hg : Sound P good (held (outside quiet (guardRead 0x2 guard s).2)) := by simp [hs]
      split
      · simp [hs]
      · split
        · simp [hs]
        · split
          · simp [hs]
          · split
            next g u he =>
            rw [he] at hg
            split
            · simp [hg]
            · split <;> simp [hg]

theorem execPsWrite_sound (c l mask) : Holds (Sound P good) (execPsWrite c l mask s) := by
  refine command_holds _ _ _ _ (fun u hu => ?_) hs
  dsimp only
  split
  · exact hu
  · rw [sendBatch_outside (by simp)]
    exact multipart_holds _ _ (fun n v hv => by simp [hv]) hu

theorem execPsForceSet_sound (c l mask) : Holds (Sound P good) (execPsForceSet c l mask s) := by
  refine command_holds _ _ _ _ (fun u hu => ?_) hs
  dsimp only
  split
  · exact hu
  · refine multipart_holds _ _ (fun n v hv => ?_) hu
    split <;> simp [hv]

theorem execPsForceClear_sound (c l mask) : Holds (Sound P good) (execPsForceClear c l mask s) := by
  refine command_holds _ _ _ _ (fun u hu => ?_) hs
  dsimp only
  split
  · exact hu
  · refine multipart_holds _ _ (fun n v hv => ?_) hu
    split <;> simp [hv]

theorem execArRecordRead_sound (c r no off len guard) : Holds (Sound P good) (execArRecordRead c r no off len guard s) := by
  refine command_holds _ _ _ _ (fun u hu => ?_) hs
  split
  · exact hu
  · split
    · exact hu
    · split
      · exact hu
      · exact holds_foldl _ (fun v e hv => by simp [hv]) _ (by simp [hu])

theorem execC37CmdHeader_sound (k to_) : Holds (Sound P good) (execC37CmdHeader k to_ s) := c37Command_holds k s (fun x u hu => by simp [hu]) hs

theorem execC37CmdCfg1_sound (k to_) : Holds (Sound P good) (execC37CmdCfg1 k to_ s) := c37Command_holds k s (fun x u hu => by simp [hu]) hs

theorem execC37CmdCfg2_sound (k to_) : Holds (Sound P good) (execC37CmdCfg2 k to_ s) := c37Command_holds k s (fun x u hu => by simp [hu]) hs

theorem execSvFrameReceive_sound (q f guard) : Holds (Sound P good) (execSvFrameReceive q f guard s) := by
  have h : Sound P good (held (outside quiet (takeIngest q.val guard s).2)) := by simp [hs]
  unfold execSvFrameReceive
  split
  · simp [hs]
  · split
    next he => rw [he] at h; simpa using h
    next he =>
      rw [he] at h
      split <;> simp [h]

theorem execGooseFrameReceive_sound (q f guard) : Holds (Sound P good) (execGooseFrameReceive q f guard s) := by
  have h : Sound P good (held (outside quiet (takeIngest q.val guard s).2)) := by simp [hs]
  unfold execGooseFrameReceive
  split
  · simp [hs]
  · split
    next he => rw [he] at h; simpa using h
    next he =>
      rw [he] at h
      split
      · simpa using h
      · split <;> simp [h]

theorem execSuCommit_sound (c t flags) : Holds (Sound P good) (execSuCommit c t flags s) := by
  refine command_holds _ _ _ _ (fun u hu => ?_) hs
  extract_lets o x
  split
  · exact hu
  · split
    · exact hu
    · split
      · exact hu
      · next persist tmin first at_ id v a w y _ _ _ =>
        have hv : Sound P good (held (outside quiet v)) := by
          unfold v
          split <;> simp [hu]
        have hy : Sound P good (held (outside quiet y)) := by simp [y, w, hv]
        split
        · exact hu
        · split
          · exact hu
          · split
            · exact hu
            · split
              · exact hu
              · split
                · exact hy
                · split <;> simp [hy]

theorem execNarrowUnitWrite_sound (q bytes guard) : Holds (Sound P good) (execNarrowUnitWrite q bytes guard s) := by
  have h : Sound P good (held (outside quiet (guardRead 0x3 guard s).2)) := by simp [hs]
  unfold execNarrowUnitWrite
  split
  · simp [hs]
  · split <;> next he => rw [he] at h; simp [h]

theorem execEndMarkWrite_sound (q bytes guard) : Holds (Sound P good) (execEndMarkWrite q bytes guard s) := by
  have h : Sound P good (held (outside quiet (guardRead 0x3 guard s).2)) := by simp [hs]
  unfold execEndMarkWrite
  split
  · simp [hs]
  · split <;> next he => rw [he] at h; simp [h]

theorem execFabricTake_sound (core guard) : Holds (Sound P good) (execFabricTake core guard s) := by
  unfold execFabricTake
  split
  · simp [hs]
  · split
    · simp [hs]
    next q _ =>
      have h : Sound P good (held (outside quiet (takenPacket core q guard s).2.2.2)) := by simp [hs]
      split
      next he => rw [he] at h; simp [h]
      next he =>
        rw [he] at h
        repeat' split
        all_goals simp [h]

theorem execImInstanceReset_sound (c mask) : Holds (Sound P good) (execImInstanceReset c mask s) := by
  refine command_holds _ _ _ _ (fun u hu => ?_) hs
  have h := multipart_holds (Q := Sound P good) mask (part := resetPart) u (fun n v hv => by simp [hv]) hu
  dsimp only
  split
  · exact h
  · simpa using h

theorem execPaDomainWake_sound (c mask) : Holds (Sound P good) (execPaDomainWake c mask s) := domainCtrl_holds _ _ s (fun n u hu => by simp [hu]) hs

theorem execPaDomainOff_sound (c mask) : Holds (Sound P good) (execPaDomainOff c mask s) := domainCtrl_holds _ _ s (fun n u hu => by simp [hu]) hs

theorem execPaDomainLock_sound (c mask) : Holds (Sound P good) (execPaDomainLock c mask s) := domainCtrl_holds _ _ s (fun n u hu => by simp [hu]) hs

theorem execPaDomainUnlock_sound (c mask) : Holds (Sound P good) (execPaDomainUnlock c mask s) :=
  domainCtrl_holds _ _ s (fun n u hu => by simp [hu]) hs

theorem execSleepStopBoundary_sound (rtc) : Holds (Sound P good) (execSleepStopBoundary rtc s) := by
  unfold execSleepStopBoundary
  split
  · simp [hs]
  · rw [holds_next, onPa_held _ _ (by simp)]
    refine holds_foldl _ (fun u o hu => ?_) _ (by simp [hs])
    split
    · exact hu
    · exact applyRun_sound hu _ _ _

theorem execBrownoutReset_sound (c) : Holds (Sound P good) (execBrownoutReset c s) := by
  have down : Sound P good (held (outside quiet (poweredDown false (latchCause c s)))) := by simp [hs]
  unfold execBrownoutReset
  split
  · simp [hs]
  · dsimp only
    split <;> simpa using down

/-- A write of the manager area keeps what a write of bytes keeps (R547). -/
theorem execPaRetainWrite_sound (c ofs data) (hw : ∀ m : Memory, P m → P (m.writeN ofs data)) :
    Holds (Sound P good) (execPaRetainWrite c ofs data s) := by
  refine command_holds _ _ _ _ (fun u hu => ?_) hs
  split
  · exact hu
  · split
    · exact hu
    · exact ⟨hw _ hu.mem, hu.eng⟩

/-- A brown-out of the battery-backed domain leaves the manager area empty (R544). -/
theorem execDuikerBrownout_sound (c) (hd : P []) : Holds (Sound P good) (execDuikerBrownout c s) := by
  unfold execDuikerBrownout
  split
  · simp [hs]
  · exact (holds_next _).mpr ⟨hd, hs.eng⟩

theorem execGetStatus_sound (c n) : Holds (Sound P good) (execGetStatus c n s) := answer_holds _ _ _ _ _ hs

theorem execPackageLoaded_sound (heldOk) : Holds (Sound P good) (execPackageLoaded heldOk s) := by
  unfold execPackageLoaded
  dsimp only
  repeat' split
  all_goals simp [hs]

theorem execInstancesStart_sound : Holds (Sound P good) (execInstancesStart s) := by
  unfold execInstancesStart
  split
  · simp [hs]
  · rw [holds_next, readiness_held, markPhase_held]
    refine holds_foldl _ (fun u o hu => ?_) _ hs
    split
    · exact runCold_sound hu _ _ _
    · exact hu

theorem execCounterRead_sound (rq window o w) : Holds (Sound P good) (execCounterRead rq window o w s) := by
  unfold execCounterRead
  split
  · simp [hs]
  · exact hostRead_holds _ _ (fun u hu => readReg_sound hu _ _ _ _) hs

theorem execRtcRead_sound (rq rtc wide) : Holds (Sound P good) (execRtcRead rq rtc wide s) := hostRead_holds _ _ (fun u hu => by simp [hu]) hs

theorem execKvKeyLoad_sound (c k material aux vouch) : Holds (Sound P good) (execKvKeyLoad c k material aux vouch s) := by
  refine kvCommand_holds _ _ _ _ (fun u hu => ?_) hs
  rw [createKey_outside (by simp) _ _ _ _ _ fun t d v => by simp]
  exact hu

theorem execKvKeyDerive_sound (c k q) : Holds (Sound P good) (execKvKeyDerive c k q s) := by
  refine kvCommand_holds _ _ _ _ (fun u hu => ?_) hs
  rw [createKey_outside (by simp) _ _ _ _ _ fun t d v => ?_]
  · exact hu
  · repeat' split
    all_goals simp

theorem execKvKeyUnwrap_sound (c k b) : Holds (Sound P good) (execKvKeyUnwrap c k b s) := by
  refine kvCommand_holds _ _ _ _ (fun u hu => ?_) hs
  split
  · exact hu
  · rw [createKey_outside (by simp) _ _ _ _ _ fun t d v => ?_]
    · exact hu
    · repeat' split
      all_goals simp

theorem execKvKeyRevoke_sound (c base mask) : Holds (Sound P good) (execKvKeyRevoke c base mask s) :=
  revokeParts_holds _ _ _ _ _ (fun _ _ => by simp) hs

theorem execKvKeyErase_sound (c base mask) : Holds (Sound P good) (execKvKeyErase c base mask s) :=
  revokeParts_holds _ _ _ _ _ (fun _ _ => by simp) hs

theorem execKvKeyInfo_sound (c slot) : Holds (Sound P good) (execKvKeyInfo c slot s) := by
  refine kvCommand_holds _ _ _ _ (fun u hu => ?_) hs
  split <;> exact hu

end

/-! ## The instructions of the Tahr engines -/

/-- Where an instruction completes on a sound engine, it leaves it sound. -/
def EngKept (sem : State → TahrOp → Engine → Region → Cycle → BitVec 64 → TahrRes) : Prop :=
  ∀ s x eng r cyc w n g k, EngSound eng → sem s x eng r cyc w = .done n g k → EngSound g

/-- V0 is not written (R316). -/
theorem EngSound.wrV {g : Engine} (hg : EngSound g) (i : Nat) (v : BitVec 64) : EngSound (wrV g i v) := by
  unfold Machine.wrV
  split
  · exact hg
  next hi =>
    refine ⟨hg.1, ?_⟩
    rw [Vector.getElem_setIfInBounds_ne _ hi]
    exact hg.2

theorem EngSound.stMem {g : Engine} (hg : EngSound g) (a n : Nat) (v : BitVec 64) : EngSound (stMem g a n v) :=
  ⟨Memory.writeN_wf _ _ _ hg.1, hg.2⟩

theorem getEng_sound {s : State} (hs : ∀ e ∈ s.fb.eng, EngSound e.2) (e : Nat) : EngSound (getEng s e) := by
  unfold getEng Tab.getD Tab.get?
  cases h : s.fb.eng.find? (fun p => decide (p.1 = e)) with
  | none => exact engSound_default
  | some p => exact hs p (List.mem_of_find?_eq_some h)

section
variable {P : Memory → Prop} {good : Bool} {s : State} (hs : Sound P good (held (outside quiet s)))
include hs

/-- The engine that a completed instruction leaves. -/
theorem ran_sound {sem : State → TahrOp → Engine → Region → Cycle → BitVec 64 → TahrRes} {x : TahrOp} {r : Region} {cyc : Cycle}
    {w : BitVec 64} {n : Nat} {g : Engine} {k : Cycle} (hsem : EngKept sem) (h : sem s x (getEng s x.e.val) r cyc w = .done n g k)
    (c : Option Cycle) : Sound P good (held (outside quiet (modEng x.e.val (fun _ => { g with cycle := c }) s))) :=
  sound_of_eng hs rfl fun he =>
    have hg : EngSound g := hsem _ _ _ _ _ _ _ _ _ (getEng_sound he _) h
    have hgc : EngSound { g with cycle := c } := hg
    forall_mem_upd (P := EngSound) engSound_default (fun _ _ => hgc) he

/-- An instruction keeps `Sound` where its meaning keeps the engine sound. -/
theorem tahr_sound (op zero x) {sem : State → TahrOp → Engine → Region → Cycle → BitVec 64 → TahrRes} (hsem : EngKept sem) :
    Holds (Sound P good) (tahr op zero x sem s) := by
  unfold tahr
  extract_lets e eng
  split
  · simp [hs]
  next cyc _ =>
    extract_lets fault
    have hfault (code addr : Nat) (w : BitVec 64) : Holds (Sound P good) (fault code addr w s) := by
      refine (holds_next _).mpr (taskFault_sound ?_ _ _ _ _ _ _ _)
      split
      · split <;> simp [hs]
      · simp [hs]
      · exact hs
    clear_value fault
    simp only [holds_ite, holds_next, hs, if_true_left]
    intro _ _
    split
    · exact hfault ..
    next r _ =>
      split
      · exact hfault ..
      · split
        · exact hfault ..
        · simp only [holds_ite, holds_next, hfault, hs, if_true_left]
          intro _ _ _
          split
          · exact hfault ..
          next h =>
            split
            · simp [hs]
            · split
              · exact (holds_next _).mpr (tahrCorrected_sound (ran_sound hs hsem h _) _ _)
              · exact (holds_next _).mpr (ran_sound hs hsem h _)

/-- A meaning that never completes keeps every engine. -/
theorem tahrFault_sound (op zero x) (code : Nat) (addr : BitVec 64 → Nat) :
    Holds (Sound P good) (tahr op zero x (fun _ _ _ _ _ w => .fault code (addr w)) s) :=
  tahr_sound hs op zero x fun _ _ _ _ _ _ _ _ _ _ he => nomatch he

theorem tahrSet_sound (op zero n x f) : Holds (Sound P good) (tahrSet op zero n x f s) := by
  refine tahr_sound hs op zero x fun _ _ _ _ _ _ _ _ _ h he => ?_
  cases he
  exact h.wrV _ _

theorem tahrBin_sound (op zero n x f) : Holds (Sound P good) (tahrBin op zero n x f s) := tahrSet_sound hs _ _ _ _ _

theorem tahrImm_sound (op zero x f) : Holds (Sound P good) (tahrImm op zero x f s) := tahrSet_sound hs _ _ _ _ _

theorem tahrLoad_sound (op n x f) : Holds (Sound P good) (tahrLoad op n x f s) := by
  refine tahr_sound hs op _ x fun _ _ _ _ _ _ _ _ _ h he => ?_
  dsimp only at he
  split at he
  · nomatch he
  · cases he
    exact h.wrV _ _

theorem tahrStore_sound (op n x) : Holds (Sound P good) (tahrStore op n x s) := by
  refine tahr_sound hs op _ x fun _ _ _ _ _ _ _ _ _ h he => ?_
  dsimp only at he
  split at he
  · nomatch he
  · cases he
    exact h.stMem _ _ _

theorem tahrCond_sound (op x p) : Holds (Sound P good) (tahrCond op x p s) := by
  refine tahr_sound hs op _ x fun _ _ _ _ _ _ _ _ _ h he => ?_
  obtain rfl | rfl := tahrBranch_stack he <;> exact h

theorem execTahrBr_sound (x) : Holds (Sound P good) (execTahrBr x s) := by
  refine tahr_sound hs _ _ x fun _ _ _ _ _ _ _ _ _ h he => ?_
  obtain rfl | rfl := tahrBranch_stack he <;> exact h

theorem execTahrLoop_sound (x) : Holds (Sound P good) (execTahrLoop x s) := by
  refine tahr_sound hs _ _ x fun _ _ _ _ _ _ _ _ _ h he => ?_
  obtain rfl | rfl := tahrBranch_stack he <;> exact h.wrV _ _

theorem execTahrFbcall_sound (x) : Holds (Sound P good) (execTahrFbcall x s) := by
  refine tahr_sound hs _ _ x fun _ _ _ _ _ _ _ _ _ h he => ?_
  dsimp only at he
  split at he
  · nomatch he
  · split at he
    · nomatch he
    · cases he
      exact EngSound.wrV (by exact h) _ _

theorem execTahrRet_sound (x) : Holds (Sound P good) (execTahrRet x s) := by
  refine tahr_sound hs _ _ x fun _ _ _ _ _ _ _ _ _ h he => ?_
  split at he
  · nomatch he
  · cases he
    exact EngSound.wrV (by exact h) _ _

theorem execTahrNop_sound (x) : Holds (Sound P good) (execTahrNop x s) := by
  refine tahr_sound hs _ _ x fun _ _ _ _ _ _ _ _ _ h he => ?_
  cases he
  exact h

@[simp] theorem tahrEnd_sound (e) : Sound P good (held (outside quiet (tahrEnd e s))) := by
  unfold tahrEnd
  extract_lets eng
  split
  · exact hs
  next cyc _ =>
    dsimp only
    rw [serveReads_held, modTask_held]
    refine modEng_sound _ _ (fun _ hg => hg) (countCycle_sound ?_ _ _ _)
    split <;> simp [hs]

theorem execTahrEnd_sound (x) : Holds (Sound P good) (execTahrEnd x s) := by
  have h : Holds (Sound P good) (tahr 0x89 (zD ||| zA ||| zB ||| zC ||| zI) x (fun _ _ eng _ cyc _ => .done 1 eng { cyc with ended := true }) s) := by
    refine tahr_sound hs _ _ x fun _ _ _ _ _ _ _ _ _ h he => ?_
    cases he
    exact h
  obtain ⟨t, ht, h⟩ := h
  unfold execTahrEnd
  rw [ht]
  dsimp only
  split
  · split <;> simp [h]
  · simpa using h

theorem tahrLdp_sound (op x f) : Holds (Sound P good) (tahrLdp op x f s) := by
  refine tahr_sound hs op _ x fun _ _ _ _ _ _ _ _ _ h he => ?_
  dsimp only at he
  split at he
  · nomatch he
  · split at he
    · nomatch he
    · cases he
      exact h.wrV _ _

theorem tahrStp_sound (op zero x lt) : Holds (Sound P good) (tahrStp op zero x lt s) := by
  refine tahr_sound hs op _ x fun _ _ _ _ _ _ _ _ _ h he => ?_
  dsimp only at he
  split at he
  · nomatch he
  · cases he
    exact h

theorem execTahrRdsr_sound (x) : Holds (Sound P good) (execTahrRdsr x s) := by
  refine tahr_sound hs _ _ x fun _ _ _ _ _ _ _ _ _ h he => ?_
  split at he
  · nomatch he
  · cases he
    exact h.wrV _ _

theorem tahrBlock_sound (op zero n cycles x) {f : Engine → Cycle → Nat → BitVec 64 → BitVec 64 → Engine × BitVec 64}
    (hf : ∀ eng cyc a i p, EngSound eng → EngSound (f eng cyc a i p).1) : Holds (Sound P good) (tahrBlock op zero n cycles x f s) := by
  refine tahr_sound hs op zero x fun _ _ _ _ _ _ _ _ _ h he => ?_
  dsimp only at he
  split at he
  · nomatch he
  · cases he
    exact (hf _ _ _ _ _ h).wrV _ _

theorem tahrTimer_sound (op x f) : Holds (Sound P good) (tahrTimer op x f s) :=
  tahrBlock_sound hs _ _ _ _ x fun _ _ _ _ _ h => ((h.stMem _ _ _).stMem _ _ _).stMem _ _ _

theorem execTahrRtrig_sound (x) : Holds (Sound P good) (execTahrRtrig x s) := tahrBlock_sound hs _ _ _ _ x fun _ _ _ _ _ h => h.stMem _ _ _

theorem execTahrFtrig_sound (x) : Holds (Sound P good) (execTahrFtrig x s) := tahrBlock_sound hs _ _ _ _ x fun _ _ _ _ _ h => h.stMem _ _ _

theorem tahrCounter_sound (op x f d) : Holds (Sound P good) (tahrCounter op x f d s) :=
  tahrBlock_sound hs _ _ _ _ x fun _ _ _ _ _ h => (h.stMem _ _ _).stMem _ _ _

theorem execTahrQsend_sound (x) : Holds (Sound P good) (execTahrQsend x s) := by
  refine tahr_sound hs _ _ x fun _ _ _ _ _ _ _ _ _ h he => ?_
  dsimp only at he
  split at he
  · nomatch he
  · split at he
    · cases he
      exact h
    · split at he
      · nomatch he
      · cases he
        exact h

theorem execTahrRaise_sound (x) : Holds (Sound P good) (execTahrRaise x s) := tahrFault_sound hs ..

theorem execIllegal_sound (x) : Holds (Sound P good) (execIllegal x s) := by
  unfold execIllegal
  extract_lets eng
  split
  · simp [hs]
  · dsimp only
    split
    · exact tahrFault_sound hs ..
    · simp [hs]

theorem execAccessAtFetch_sound (x) : Holds (Sound P good) (execAccessAtFetch x s) := by
  unfold execAccessAtFetch
  extract_lets eng
  split
  · simp [hs]
  · split
    · exact tahrFault_sound hs ..
    · simp [hs]

end

/-! ## Every command -/

theorem exec_sameBut {i : Instr} {s t : State} (ht : exec i s = .next t) : sameBut (reach i).2 s t := by
  cases hi : (reach i).1 with
  | tahr => exact frameOfTahr i s t hi ht
  | network => exact frameOfNetwork i s t hi ht
  | signal => exact frameOfSignal i s t hi ht
  | control => exact frameOfControl i s t hi ht
  | platform => exact frameOfPlatform i s t hi ht

/-- A command that reaches neither PA nor FB. -/
theorem exec_sound_of_reach {P : Memory → Prop} {good : Bool} {c : Instr} {s : State}
    (hc : ((reach c).2.contains .pa || (reach c).2.contains .fb) = false) (hs : Sound P good (held (outside quiet s))) :
    Holds (Sound P good) (exec c s) := by
  obtain ⟨hp, hf⟩ : .pa ∉ (reach c).2 ∧ .fb ∉ (reach c).2 := by simpa using hc
  obtain ⟨t, ht⟩ := everyCommandGoesOn c s
  have hkept := (sameBut_iff ..).mp (exec_sameBut ht)
  have hpa : t.pa = s.pa := by simpa [outside, hp] using congrArg State.pa hkept
  have hfb : t.fb = s.fb := by simpa [outside, hf] using congrArg State.fb hkept
  refine ⟨t, ht, ?_⟩
  rw [held_outside, held, hpa, hfb]
  exact hs

/-- Every command keeps `Sound`, the two that write the manager area where `P` outlives what they write. -/
theorem exec_sound {P : Memory → Prop} {good : Bool} (c : Instr) {s : State} (hs : Sound P good (held (outside quiet s)))
    (hw : ∀ d o l, c = .paRetainWrite d o l → ∀ m : Memory, P m → P (m.writeN o l)) (hd : ∀ k, c = .duikerBrownout k → P []) :
    Holds (Sound P good) (exec c s) := by
  by_cases hc : ((reach c).2.contains .pa || (reach c).2.contains .fb) = false
  · exact exec_sound_of_reach hc hs
  unfold exec
  cases c with
  | tbStagePtp | tbStageSources | tbStagePortLat | tbStagePins | tbStageTcuAssign | pxStagePort | pxStageFilter | pxStageRedundancy
  | pxStageMacsec | swStageLimits | swStageFdb | swStageVlan | swStagePorts | swStageMirror | qmStageQueues | qmStageSteer | foStageCabinet
  | seStageGroups | seStageSv | seStageGooseSub | seStageGoosePub | frStageLanes | frStageTrack | frStageCoef | peStageChannels
  | peStageSets | peStageStreams | arStageWsl | arStageEdges | arStageComparators | arStageRecorders | fbStageRxmap | fbStageSchedule
  | fbStageTasks | fbStageRetain | psStagePoints | foStagePair | foStageRepl | imStageShares | imStageEvents | paStageDomains
  | paStageDuiker => exact stage_holds _ _ _ _ _ _ hs
  | tbReadTime | suSessionStatus | suCheckReport | suPkgStatus | suNop | getInfo | readActive | readStaged | swFdbRead | psForceListCurrent
  | psForceListDropped | foReadPair | paStartupReport => exact answer_holds _ _ _ _ _ hs
  | tahrAdd | tahrSub | tahrMul | tahrDiv | tahrRem | tahrAnd | tahrOr | tahrXor | tahrShl | tahrShr | tahrSar | tahrMin
  | tahrMax | tahrCmpeq | tahrCmplt | tahrCmpltu | tahrCmple | tahrAbs | tahrFadd | tahrFsub | tahrFmul | tahrFdiv | tahrFsqrt
  | tahrFneg | tahrFabs | tahrFmin | tahrFmax | tahrFcmpeq | tahrFcmplt | tahrFcmple | tahrCvtif | tahrCvtfi | tahrCvtsd
  | tahrCvtds | tahrFsin | tahrFcos | tahrFatan2 | tahrCadd | tahrCsub | tahrCmul | tahrCdiv | tahrCconj | tahrCmag | tahrCarg
  | tahrCmk | tahrCre | tahrCim | tahrCscl | tahrCpol | tahrCrot => exact tahrBin_sound hs ..
  | tahrAddi | tahrAndi | tahrOri | tahrXori | tahrShli | tahrShri | tahrSari | tahrLdi | tahrLdih
    => exact tahrImm_sound hs ..
  | tahrSel | tahrFmadd | tahrFldi => exact tahrSet_sound hs ..
  | tahrLd | tahrLdw | tahrLdwu | tahrLdb => exact tahrLoad_sound hs ..
  | tahrSt | tahrStw | tahrStb => exact tahrStore_sound hs ..
  | tahrBeq | tahrBne | tahrBlt | tahrBge | tahrBltu => exact tahrCond_sound hs ..
  | tahrLdp | tahrLdpq | tahrLdpt => exact tahrLdp_sound hs ..
  | tahrStp | tahrStpt => exact tahrStp_sound hs ..
  | tahrTon | tahrTof | tahrTp => exact tahrTimer_sound hs ..
  | tahrCtu | tahrCtd | tahrCtud => exact tahrCounter_sound hs ..
  | compareFire => exact execCompareFire_sound hs ..
  | ptpMessageTx => exact execPtpMessageTx_sound hs ..
  | rtcRead => exact execRtcRead_sound hs ..
  | counterRead => exact execCounterRead_sound hs ..
  | registerWrite => exact execRegisterWrite_sound hs ..
  | tbTcuArm => exact execTbTcuArm_sound hs ..
  | tbTcuDisarm => exact execTbTcuDisarm_sound hs ..
  | suSessionOpen => exact execSuSessionOpen_sound hs ..
  | suStageCheck => exact execSuStageCheck_sound hs ..
  | suCommit => exact execSuCommit_sound hs ..
  | suSessionAbort => exact execSuSessionAbort_sound hs ..
  | suPkgLoad => exact execSuPkgLoad_sound hs ..
  | suPkgStage => exact execSuPkgStage_sound hs ..
  | suRingCreate => exact execSuRingCreate_sound hs ..
  | suRingDestroy => exact execSuRingDestroy_sound hs ..
  | getStatus => exact execGetStatus_sound hs ..
  | commitStrobe => exact execCommitStrobe_sound hs ..
  | transmitStart => exact execTransmitStart_sound hs ..
  | transmitEnd => exact execTransmitEnd_sound hs ..
  | supervisionTx => exact execSupervisionTx_sound hs ..
  | pxMacsecSaSet => exact execPxMacsecSaSet_sound hs ..
  | pxMacsecTxAn => exact execPxMacsecTxAn_sound hs ..
  | pxPortRestart => exact execPxPortRestart_sound hs ..
  | pxReadCounters => exact execPxReadCounters_sound hs ..
  | transmitQueueEntry => exact execTransmitQueueEntry_sound hs ..
  | swReadCounters => exact execSwReadCounters_sound hs ..
  | swFdbFlush => exact execSwFdbFlush_sound hs ..
  | packetOpen => exact execPacketOpen_sound hs ..
  | narrowUnitWrite => exact execNarrowUnitWrite_sound hs ..
  | endMarkWrite => exact execEndMarkWrite_sound hs ..
  | queueRead => exact execQueueRead_sound hs ..
  | fabricTake => exact execFabricTake_sound hs ..
  | qmReadCounters => exact execQmReadCounters_sound hs ..
  | qmQueueFlush => exact execQmQueueFlush_sound hs ..
  | imageTransmit => exact execImageTransmit_sound hs ..
  | reportReceive => exact execReportReceive_sound hs ..
  | announceReceive => exact execAnnounceReceive_sound hs ..
  | imageReceive => exact execImageReceive_sound hs ..
  | slottedStartupEnd => exact execSlottedStartupEnd_sound hs ..
  | foCabModeTest => exact cabMode_sound hs ..
  | foCabModeNormal => exact cabMode_sound hs ..
  | foCabRediscover => exact execFoCabRediscover_sound hs ..
  | svFrameReceive => exact execSvFrameReceive_sound hs ..
  | gooseFrameReceive => exact execGooseFrameReceive_sound hs ..
  | instantRelease => exact execInstantRelease_sound hs ..
  | gridSecond => exact execGridSecond_sound hs ..
  | goosePublish => exact execGoosePublish_sound hs ..
  | gooseRetransmit => exact execGooseRetransmit_sound hs ..
  | seReadCounters => exact execSeReadCounters_sound hs ..
  | seStreamRelock => exact execSeStreamRelock_sound hs ..
  | laneOutputRelease => exact execLaneOutputRelease_sound hs ..
  | frLaneRestart => exact execFrLaneRestart_sound hs ..
  | dataFrameHandover => exact execDataFrameHandover_sound hs ..
  | c37CmdHeader => exact execC37CmdHeader_sound hs ..
  | c37CmdCfg1 => exact execC37CmdCfg1_sound hs ..
  | c37CmdCfg2 => exact execC37CmdCfg2_sound hs ..
  | peReadResults => exact execPeReadResults_sound hs ..
  | peStreamTxOn => exact execPeStreamTxOn_sound hs ..
  | peStreamTxOff => exact execPeStreamTxOff_sound hs ..
  | peReadCounters => exact execPeReadCounters_sound hs ..
  | tdcCalibrationDone => exact execTdcCalibrationDone_sound hs ..
  | arTrigger => exact execArTrigger_sound hs ..
  | arRecorderArm => exact execArRecorderArm_sound hs ..
  | arRecorderStop => exact execArRecorderStop_sound hs ..
  | arRecordList => exact execArRecordList_sound hs ..
  | arRecordRead => exact execArRecordRead_sound hs ..
  | arRecordRelease => exact execArRecordRelease_sound hs ..
  | arReadCounters => exact execArReadCounters_sound hs ..
  | baseTick => exact execBaseTick_sound hs ..
  | windowEnd => exact execWindowEnd_sound hs ..
  | majorFrameStart => exact execMajorFrameStart_sound hs ..
  | cycleStart => exact execCycleStart_sound hs ..
  | snapshotDone => exact execSnapshotDone_sound hs ..
  | outputWrite => exact execOutputWrite_sound hs ..
  | runStateChange => exact execRunStateChange_sound hs ..
  | inboxDispatch => exact execInboxDispatch_sound hs ..
  | engineReloadDone => exact execEngineReloadDone_sound hs ..
  | tahrBr => exact execTahrBr_sound hs ..
  | tahrLoop => exact execTahrLoop_sound hs ..
  | tahrFbcall => exact execTahrFbcall_sound hs ..
  | tahrRet => exact execTahrRet_sound hs ..
  | tahrEnd => exact execTahrEnd_sound hs ..
  | tahrNop => exact execTahrNop_sound hs ..
  | tahrRdsr => exact execTahrRdsr_sound hs ..
  | tahrRtrig => exact execTahrRtrig_sound hs ..
  | tahrFtrig => exact execTahrFtrig_sound hs ..
  | tahrQsend => exact execTahrQsend_sound hs ..
  | tahrRaise => exact execTahrRaise_sound hs ..
  | fbStageCode => exact execFbStageCode_sound hs ..
  | fbReadInst => exact execFbReadInst_sound hs ..
  | fbReadFault => exact execFbReadFault_sound hs ..
  | fbReadCounters => exact execFbReadCounters_sound hs ..
  | runWarm => exact execRunWarm_sound hs ..
  | runCold => exact execRunCold_sound hs ..
  | fbRunCtrlStop => exact execFbRunCtrlStop_sound hs ..
  | fbRunCtrlHold => exact execFbRunCtrlHold_sound hs ..
  | fbStep => exact execFbStep_sound hs ..
  | fbReadTasks => exact execFbReadTasks_sound hs ..
  | batchApply => exact execBatchApply_sound hs ..
  | psReadPoints => exact execPsReadPoints_sound hs ..
  | psWrite => exact execPsWrite_sound hs ..
  | psForceSet => exact execPsForceSet_sound hs ..
  | psForceClear => exact execPsForceClear_sound hs ..
  | heartbeatRx => exact execHeartbeatRx_sound hs ..
  | partnerLost => exact execPartnerLost_sound hs ..
  | brixigLinkState => exact execBrixigLinkState_sound hs ..
  | relinquishRx => exact execRelinquishRx_sound hs ..
  | replApply => exact execReplApply_sound hs ..
  | discoveryTimeout => exact execDiscoveryTimeout_sound hs ..
  | witnessClear => exact execWitnessClear_sound hs ..
  | handoverEnd => exact execHandoverEnd_sound hs ..
  | watchdogExpiry => exact execWatchdogExpiry_sound hs ..
  | timeSvTrigger => exact execTimeSvTrigger_sound hs ..
  | epochResetWindow => exact execEpochResetWindow_sound hs ..
  | swapBoundary => exact execSwapBoundary_sound hs ..
  | foRelinquish => exact execFoRelinquish_sound hs ..
  | foSwap => exact execFoSwap_sound hs ..
  | foRearm => exact execFoRearm_sound hs ..
  | foEpochReset => exact execFoEpochReset_sound hs ..
  | kvKeyLoad => exact execKvKeyLoad_sound hs ..
  | kvKeyGenerate => exact execKvKeyGenerate_sound hs ..
  | kvKeyDerive => exact execKvKeyDerive_sound hs ..
  | kvKeyUnwrap => exact execKvKeyUnwrap_sound hs ..
  | kvKeyAgree => exact execKvKeyAgree_sound hs ..
  | kvKeyWrap => exact execKvKeyWrap_sound hs ..
  | kvKeyPublic => exact execKvKeyPublic_sound hs ..
  | kvKeyRestrict => exact execKvKeyRestrict_sound hs ..
  | kvKeyRevoke => exact execKvKeyRevoke_sound hs ..
  | kvKeyErase => exact execKvKeyErase_sound hs ..
  | kvKeyInfo => exact execKvKeyInfo_sound hs ..
  | kvGcm => exact execKvGcm_sound hs ..
  | kvHmac => exact execKvHmac_sound hs ..
  | kvHash => exact execKvHash_sound hs ..
  | kvSign => exact execKvSign_sound hs ..
  | kvVerify => exact execKvVerify_sound hs ..
  | kvRandom => exact execKvRandom_sound hs ..
  | kvLcAdvance => exact execKvLcAdvance_sound hs ..
  | kvFwSvnRaise => exact execKvFwSvnRaise_sound hs ..
  | imInstanceReset => exact execImInstanceReset_sound hs ..
  | imHostqSet => exact execImHostqSet_sound hs ..
  | imInstanceFreeze => exact execImInstanceFreeze_sound hs ..
  | imInstanceSave => exact execImInstanceSave_sound hs ..
  | imInstanceRestore => exact execImInstanceRestore_sound hs ..
  | imInstanceThaw => exact execImInstanceThaw_sound hs ..
  | imInstanceInfo => exact execImInstanceInfo_sound hs ..
  | resetEnd => exact execResetEnd_sound hs ..
  | freezeBoundary => exact execFreezeBoundary_sound hs ..
  | restoreApply => exact execRestoreApply_sound hs ..
  | thawBoundary => exact execThawBoundary_sound hs ..
  | hostqDescriptor => exact execHostqDescriptor_sound hs ..
  | functionLevelReset => exact execFunctionLevelReset_sound hs ..
  | perstAssert => exact execPerstAssert_sound hs ..
  | paDomainWake => exact execPaDomainWake_sound hs ..
  | paDomainOff => exact execPaDomainOff_sound hs ..
  | paDomainLock => exact execPaDomainLock_sound hs ..
  | paDomainUnlock => exact execPaDomainUnlock_sound hs ..
  | paSleep => exact execPaSleep_sound hs ..
  | paRetainRead => exact execPaRetainRead_sound hs ..
  | paRetainWrite => exact execPaRetainWrite_sound hs _ _ _ (hw _ _ _ rfl)
  | paTamperClear => exact execPaTamperClear_sound hs ..
  | sleepStopBoundary => exact execSleepStopBoundary_sound hs ..
  | rtcCalibrationDone => exact execRtcCalibrationDone_sound hs ..
  | domainIdleOff => exact execDomainIdleOff_sound hs ..
  | domainDataAccess => exact execDomainDataAccess_sound hs ..
  | domainOn => exact execDomainOn_sound hs ..
  | pd2WakeDone => exact execPd2WakeDone_sound hs ..
  | ioSupplyLow => exact execIoSupplyLow_sound hs ..
  | ioSupplyHigh => exact execIoSupplyHigh_sound hs ..
  | duikerBrownout => exact execDuikerBrownout_sound hs _ (hd _ rfl)
  | brownoutReset => exact execBrownoutReset_sound hs ..
  | opsecsCopy => exact execOpsecsCopy_sound hs ..
  | wakeNFall => exact execWakeNFall_sound hs ..
  | rtcAlarm => exact execRtcAlarm_sound hs ..
  | tamperSample => exact execTamperSample_sound hs ..
  | tamperLatch => exact execTamperLatch_sound hs ..
  | powerGood => exact execPowerGood_sound hs ..
  | secureBootDone => exact execSecureBootDone_sound hs ..
  | duikerRestoreDone => exact execDuikerRestoreDone_sound hs ..
  | dramTrainingDone => exact execDramTrainingDone_sound hs ..
  | suReady => exact execSuReady_sound hs ..
  | packageLoaded => exact execPackageLoaded_sound hs ..
  | pointStoreBuilt => exact execPointStoreBuilt_sound hs ..
  | portsUp => exact execPortsUp_sound hs ..
  | lockTimeout => exact execLockTimeout_sound hs ..
  | instancesStart => exact execInstancesStart_sound hs ..
  | borClearWrite => exact execBorClearWrite_sound hs ..
  | scrubRead => exact execScrubRead_sound hs ..
  | perstNRise => exact execPerstNRise_sound hs ..
  | illegal => exact execIllegal_sound hs ..
  | accessAtFetch => exact execAccessAtFetch_sound hs ..
  | _ => exact absurd rfl hc

/-! ## The tick -/

theorem tapTick_held (s) : held (tapTick s) = held s := by
  obtain ⟨j, n, o, h⟩ := tapTick_eq s
  rw [h]
  rfl

theorem timeTick_held (s) : held (timeTick s) = held s := by
  unfold timeTick
  split
  · exact tapTick_held _
  · rfl

/-! ## What is settled -/

theorem sound_iff (s : State) :
    Sound (fun m => m.wf = true) true (held (outside quiet s)) ↔ s.memoriesWf = true ∧ s.v0Zero = true := by
  simp only [State.memoriesWf, State.v0Zero, Bool.and_eq_true, List.all_eq_true, beq_iff_eq]
  constructor
  · exact fun h => ⟨⟨h.mem, fun e he => (h.eng rfl e he).1⟩, fun e he => (h.eng rfl e he).2⟩
  · exact fun ⟨⟨hm, hw⟩, hv⟩ => ⟨hm, fun _ e he => ⟨hw e he, hv e he⟩⟩

/-- Settles O5: a command by the walk over the commands, and a tick touches neither the areas nor the engines. -/
theorem engineInvariantKept : Obligations.EngineInvariantKept := by
  unfold Obligations.EngineInvariantKept
  intro s t hm hv ht
  have hs := (sound_iff s).mpr ⟨hm, hv⟩
  rw [← sound_iff]
  unfold step at ht
  split at ht
  next =>
    cases ht
    rw [held_outside, timeTick_held]
    exact hs
  next c rest _ =>
    obtain ⟨u, hu, h⟩ := exec_sound c (s := { s with pending := rest }) hs (fun _ o l _ m hm => Memory.writeN_wf l m o hm) (fun _ _ => rfl)
    cases ht.symm.trans hu
    exact h

/-- No other command changes the manager area (R544, R547). -/
theorem exec_retMem {c : Instr} {s t : State} (hw : ∀ d o l, c ≠ .paRetainWrite d o l) (hd : ∀ k, c ≠ .duikerBrownout k)
    (ht : exec c s = .next t) : t.pa.ret.mem = s.pa.ret.mem := by
  obtain ⟨u, hu, h⟩ := exec_sound (P := (· = s.pa.ret.mem)) (good := false) c ⟨rfl, nofun⟩ (fun d o l e => absurd e (hw d o l))
    (fun k e => absurd e (hd k))
  cases ht.symm.trans hu
  exact h.mem

/-! ## The manager area -/

theorem Memory.read_writeN_outside (l : List Byte) : ∀ (m : Memory) (o a : Nat), m.wf = true → a < o ∨ o + l.length ≤ a →
    (m.writeN o l).read a = m.read a := by
  induction l with
  | nil => exact fun _ _ _ _ _ => rfl
  | cons b l ih =>
    intro m o a hm ha
    rw [List.length_cons] at ha
    rw [Memory.writeN, ih _ _ _ (Memory.write_wf m o b hm) (by omega), Memory.read_write m o b a hm, if_neg (by omega)]

theorem Memory.read_writeN_inside (l : List Byte) : ∀ (m : Memory) (o k : Nat), m.wf = true → k < l.length →
    (m.writeN o l).read (o + k) = l.getD k 0 := by
  induction l with
  | nil => exact fun _ _ _ _ hk => absurd hk (Nat.not_lt_zero _)
  | cons b l ih =>
    intro m o k hm hk
    have hw := Memory.write_wf m o b hm
    cases k with
    | zero => rw [Memory.writeN, Memory.read_writeN_outside l _ _ _ hw (by omega), Memory.read_write m o b _ hm, if_pos (by omega)]; rfl
    | succ k => rw [Memory.writeN, show o + (k + 1) = o + 1 + k by omega, ih _ _ _ hw (Nat.lt_of_succ_lt_succ hk)]; rfl

/-- A write of the manager area leaves every byte outside its range (R547). -/
theorem paRetainWrite_read_outside {c : Cmd} {o : Nat} {l : List Byte} {s t : State} {a : Nat} (hm : s.pa.ret.mem.wf = true)
    (ha : a < o ∨ o + l.length ≤ a) (ht : exec (.paRetainWrite c o l) s = .next t) : t.pa.ret.mem.read a = s.pa.ret.mem.read a := by
  obtain ⟨u, hu, h⟩ := exec_sound (P := fun m => m.wf = true ∧ m.read a = s.pa.ret.mem.read a) (good := false) (.paRetainWrite c o l)
    ⟨⟨hm, rfl⟩, nofun⟩ (fun _ _ _ e m hP => by
      cases e
      exact ⟨Memory.writeN_wf l m o hP.1, (Memory.read_writeN_outside l m o a hP.1 ha).trans hP.2⟩) nofun
  cases ht.symm.trans hu
  exact h.mem.2

/-- A write that is accepted writes its bytes (R547). -/
theorem paRetainWrite_mem {c : Cmd} {o : Nat} {l : List Byte} {s t : State} (h : runs 0x0F13 false c s = true) (ho : 0x100 ≤ o)
    (h32 : o % 32 = 0) (hl : l.length % 32 = 0) (hend : o + l.length ≤ 0x1000) (hlow : s.pa.regLow = false) (hne : l ≠ [])
    (ht : exec (.paRetainWrite c o l) s = .next t) : t.pa.ret.mem = s.pa.ret.mem.writeN o l := by
  have hpa : (entered 0x0F13 c s).pa = s.pa := by rw [entered_none rfl, begun_pa]
  replace ht : execPaRetainWrite c o l s = .next t := ht
  rw [execPaRetainWrite, command_runs h] at ht
  obtain rfl := Host.Outcome.next.inj ht
  rw [if_neg (by rw [hpa, hlow]; decide), if_neg (by simp [hne]; omega)]
  show (reply _ _ _).pa.ret.mem = _
  rw [reply_pa]
  exact congrArg (fun p : PaState => p.ret.mem.writeN o l) hpa

/-- Settles O9: the other commands by the walk that keeps the memories, a write of the area by its own bytes. -/
theorem retainedBytes : Obligations.RetainedBytes := by
  unfold Obligations.RetainedBytes
  refine ⟨fun c s t hw hd ht => exec_retMem hw hd ht, fun c o l s t a hm ht ha => paRetainWrite_read_outside hm ha ht,
    fun c o l s t k hm h ho h32 hl hend hlow hk ht => ?_⟩
  rw [paRetainWrite_mem h ho h32 hl hend hlow (List.ne_nil_of_length_pos (Nat.zero_lt_of_lt hk)) ht]
  exact Memory.read_writeN_inside l _ o k hm hk

end Sys2Proof.Machine
end
section
/-! Cyclic execution and the commands of FB (O46): what each event of chapters 11 and 12 does where it is due and where it is not, and what each
command answers. -/

namespace Sys2Proof.Machine

/-! ## What shared operations leave -/

@[simp] theorem readiness_fb (s : State) : (readiness s).fb = s.fb := by
  unfold readiness
  dsimp only
  split <;> split <;> simp

@[simp] theorem getEng_modTask (e o t : Nat) (f : Task → Task) (s : State) : getEng (modTask o t f s) e = getEng s e := rfl

@[simp] theorem getEng_modCl (e k : Nat) (f : Cluster → Cluster) (s : State) : getEng (modCl k f s) e = getEng s e := rfl

/-- A task that a change leaves without an output write to come has none, whether it exists or not (R380). -/
theorem getTask_modTask_pendingW (o t : Nat) (f : Task → Task) (s : State) (hf : ∀ k, (f k).pendingW = false) :
    (getTask (modTask o t f s) o t).pendingW = false := by
  show (Tab.getD (s.fb.tasks.map _) (o, t) ({} : Task)).pendingW = false
  unfold Tab.getD Tab.get?
  induction s.fb.tasks with
  | nil => rfl
  | cons x l ih =>
    by_cases hx : x.1 = (o, t)
    · simp [hx, hf]
    · simpa [hx] using ih

@[simp] theorem countUnsent_qm (k n : Nat) (s : State) : (countUnsent k n s).qm = s.qm := by
  unfold countUnsent
  split <;> rfl

@[simp] theorem getEng_countUnsent (e k n : Nat) (s : State) : getEng (countUnsent k n s) e = getEng s e := by
  unfold countUnsent
  split <;> rfl

/-- Without a batch in the store or before it, dropping batches leaves the engines and the queues. -/
theorem dropBatches_of_none {p : Batch → Bool} {s : State} (h : s.ps.heldBack = []) :
    (dropBatches p s).fb = s.fb ∧ (dropBatches p s).qm = s.qm := by
  simp [dropBatches, offerHeld, h]

/-- A queue word that is read sound, or with a corrected error, goes on (R569, R572). -/
theorem guardRead_none {r : Nat} {g : Option GuardFind} {t u : State}
    (hg : (g = none ∧ u = t) ∨ (g = some .corrected ∧ u = guardCorrected r t)) : guardRead r g t = (none, u) := by
  obtain ⟨rfl, rfl⟩ | ⟨rfl, rfl⟩ := hg <;> rfl

/-! ## Ticks, frames and windows (R357, R360) -/

theorem baseTick_framed {s u : State} (h : tcuDue s 1 = true)
    (hu : u = (if tcuDue (fireTcu 1 s) 2 then majorFrame (fireTcu 1 s) else fireTcu 1 s)) (hf : u.fb.framed = true) :
    exec .baseTick s = .next (releasePeriodic (ltSub (nextTarget s.now (getTcu s 1).target (getTcu s 1).period.toNat) (getTcu s 1).period.toNat)
      (openWindows ((ltDiff (ltSub (nextTarget s.now (getTcu s 1).target (getTcu s 1).period.toNat) (getTcu s 1).period.toNat)
        u.fb.frameLt).toNat / tickTu) (closeDue u))) := by
  subst hu
  show execBaseTick s = _
  simp only [execBaseTick, h, hf, Bool.not_true, Bool.false_eq_true, if_false]

theorem baseTick_unframed {s u : State} (h : tcuDue s 1 = true)
    (hu : u = (if tcuDue (fireTcu 1 s) 2 then majorFrame (fireTcu 1 s) else fireTcu 1 s)) (hf : u.fb.framed = false) :
    exec .baseTick s = .next u := by
  subst hu
  show execBaseTick s = _
  simp only [execBaseTick, h, hf, Bool.not_true, Bool.not_false, Bool.false_eq_true, if_false, if_true]

theorem baseTick_idle {s : State} (h : tcuDue s 1 = false) : exec .baseTick s = .next s := by
  show execBaseTick s = _
  simp only [execBaseTick, h, Bool.not_false, if_true]

theorem windowEnd_idle {s : State} {e : Fin 48} (h : (getEng s e.val).win = none ∨ ltReached s.now (getEng s e.val).winEnd = false) :
    exec (.windowEnd e) s = .next s := by
  refine if_neg ?_
  obtain h | h := h <;> simp [h]

/-! ## Cycles (R366–R368) -/

section
variable {s : State} {e : Fin 48} {w : Window}

/-- Engine e can start a cycle of the owner of window w (R366). -/
def engineFree (s : State) (e : Fin 48) (w : Window) : Prop :=
  (getEng s e.val).cycle = none ∧ (getEng s e.val).domain = .on ∧ (vget s.fb.cl (e.val / 8) {}).reload = false ∧
  ltReached s.now (getEng s e.val).winEnd = false ∧ ltReached s.now (getEng s e.val).freeAt = true ∧
  (∀ c ∈ (getEng s e.val).copying, c.1 = w.owner → ltReached s.now c.2 = true)

/-- The released cycles of the owner of window w on engine e. -/
def releasedOn (s : State) (e : Fin 48) (w : Window) : List (Nat × Task) :=
  (s.fb.tasks.filter (fun x => x.1.1 == w.owner && x.2.engine == e.val && x.2.released.isSome && x.2.state == .active)).map
    (fun x => (x.1.2, x.2))

/-- The guard of CYCLE_START is the negation of `engineFree`. -/
theorem cycleStart_blocked_iff :
    ((getEng s e.val).cycle.isSome ∨ (getEng s e.val).domain ≠ .on ∨ (vget s.fb.cl (e.val / 8) {}).reload ∨
      ltReached s.now (getEng s e.val).winEnd ∨ !ltReached s.now (getEng s e.val).freeAt ∨
      (getEng s e.val).copying.any (fun c => c.1 == w.owner && !ltReached s.now c.2)) ↔ ¬engineFree s e w := by
  unfold engineFree
  simp only [not_and_or, Option.isSome_iff_ne_none, Bool.not_eq_false, Bool.not_eq_true', Bool.not_eq_true, List.any_eq_true,
    Bool.and_eq_true, beq_iff_eq, not_forall, exists_prop, Prod.exists, ne_eq]

theorem cycleStart_free {t : Nat} {k : Task} (hw : (getEng s e.val).win = some w) (hfree : engineFree s e w)
    (hk : cycleFirst (releasedOn s e w) = some (t, k)) :
    exec (.cycleStart e) s = .next (if k.pendingW then s else startCycle e.val w.owner t s) := by
  show execCycleStart e s = _
  unfold execCycleStart
  dsimp only
  rw [hw]
  dsimp only
  rw [if_neg (fun h => cycleStart_blocked_iff.1 h hfree)]
  change (match cycleFirst (releasedOn s e w) with | none => _ | some (t, k) => _) = _
  rw [hk]
  dsimp only
  split <;> rfl

theorem cycleStart_idle (h : (getEng s e.val).win = none ∨ ∃ w, (getEng s e.val).win = some w ∧
    (¬engineFree s e w ∨ cycleFirst (releasedOn s e w) = none)) : exec (.cycleStart e) s = .next s := by
  show execCycleStart e s = _
  unfold execCycleStart
  dsimp only
  obtain hw | ⟨w, hw, h⟩ := h
  · rw [hw]
  · rw [hw]
    dsimp only
    by_cases hfree : engineFree s e w
    · rw [if_neg (fun h => cycleStart_blocked_iff.1 h hfree)]
      change (match cycleFirst (releasedOn s e w) with | none => _ | some (t, k) => _) = _
      rw [h.resolve_left (not_not_intro hfree)]
    · exact if_pos (cycleStart_blocked_iff.2 hfree)

theorem snapshotDone_due {c : Cycle} (hc : (getEng s e.val).cycle = some c) (hs : c.snap = true)
    (hd : ltReached s.now (cycInstant c 0) = true) :
    exec (.snapshotDone e) s = ranTo { e := e } { getEng s e.val with
      stack := [], v := (Vector.replicate 64 0).setIfInBounds 62 ((getTask s c.owner c.task).entry.v62.zeroExtend 64),
      mem := writeRx (getTask s c.owner c.task).entry 0 c.rx (getEng s e.val).mem } { c with snap := false, elapsed := 32, flags := 0 } s := by
  show execSnapshotDone e s = _
  unfold execSnapshotDone
  rw [hc]
  exact if_neg (by simp [hs, hd])

theorem snapshotDone_idle (h : ∀ c, (getEng s e.val).cycle = some c → c.snap = false ∨ ltReached s.now (cycInstant c 0) = false) :
    exec (.snapshotDone e) s = .next s := by
  show execSnapshotDone e s = _
  unfold execSnapshotDone
  cases hc : (getEng s e.val).cycle with
  | none => rfl
  | some c => exact if_pos (by obtain h | h := h c hc <;> simp [h])

theorem outputWrite_idle (h : (getEng s e.val).pendingW.find? (fun p => ltReached s.now p.w) = none) :
    exec (.outputWrite e) s = .next s := by
  show execOutputWrite e s = _
  unfold execOutputWrite
  rw [h]

/-- The writes of engine e that become visible at W (R368). -/
def dueWrites (s : State) (e : Fin 48) (w : LT) : List PtWrite :=
  ((allBatches s).filter (fun (b : Batch) => b.src == .engine e.val && b.visible == some w)).flatMap (·.writes)

/-- The exports of an output write of engine e are visible (R368, R383). -/
def exported (s : State) (e : Fin 48) (p : PendingW) : State :=
  onFo (fun f => { f with outTs := (dueWrites s e p.w).foldl (fun t w => t.put w.index p.ts) f.outTs })
    (applyOutput (dueWrites s e p.w) (dropBatches (fun (b : Batch) => b.src == .engine e.val && b.visible == some p.w) s))

/-- An output write of engine e whose packets are opened, r.1 of them sent and r.2.1 refused, is over (R344, R345). -/
def writtenBy (e : Fin 48) (p : PendingW) (r : Nat × Nat × State) : State :=
  modTask p.owner p.task (fun t => { t with pendingW := false, qsent := BitVec.ofNat 16 r.1, qrefused := BitVec.ofNat 16 (r.2.1 + p.qref.toNat) })
    (modEng e.val (fun g => { g with pendingW := g.pendingW.erase p })
      (countUnsent (e.val / 8) (r.2.1 + p.qref.toNat) (modCl (e.val / 8) (fun c => { c with txSent := c.txSent + BitVec.ofNat 64 r.1 }) r.2.2)))

theorem getEng_writtenBy (p : PendingW) (r : Nat × Nat × State) :
    (getEng (writtenBy e p r) e.val).pendingW = (getEng r.2.2 e.val).pendingW.erase p := by
  simp [writtenBy]

theorem getTask_writtenBy (p : PendingW) (r : Nat × Nat × State) : (getTask (writtenBy e p r) p.owner p.task).pendingW = false := by
  unfold writtenBy
  exact getTask_modTask_pendingW p.owner p.task _ _ (fun _ => rfl)

@[simp] theorem writtenBy_qm (p : PendingW) (r : Nat × Nat × State) : (writtenBy e p r).qm = r.2.2.qm := by
  exact countUnsent_qm (e.val / 8) (r.2.1 + p.qref.toNat) _

theorem outputWrite_due {p : PendingW} {r : Nat × Nat × State}
    (h : (getEng s e.val).pendingW.find? (fun p => ltReached s.now p.w) = some p)
    (ho : openSends (e.val / 8) p.owner p.sends (exported s e p) = r) :
    exec (.outputWrite e) s = .next ((if p.lastStep then stepDone p.owner else id) (writtenBy e p r)) := by
  show execOutputWrite e s = _
  unfold execOutputWrite
  rw [h]
  show Host.Outcome.next (if p.lastStep then stepDone p.owner (writtenBy e p (openSends (e.val / 8) p.owner p.sends (exported s e p)))
    else writtenBy e p (openSends (e.val / 8) p.owner p.sends (exported s e p))) = _
  rw [ho]
  cases p.lastStep <;> rfl

/-- Without a batch there is nothing to export. -/
theorem exported_of_none {p : PendingW} (h1 : s.ps.held = []) (h2 : s.ps.waiting = []) (h3 : s.ps.heldBack = []) :
    (exported s e p).fb = s.fb ∧ (exported s e p).qm = s.qm := by
  have hw : dueWrites s e p.w = [] := by simp [dueWrites, allBatches, h1, h2, h3]
  rw [exported, hw]
  exact dropBatches_of_none h3

theorem outputWrite_empty {p : PendingW} (h : (getEng s e.val).pendingW.find? (fun p => ltReached s.now p.w) = some p)
    (hl : p.lastStep = false) (hs : p.sends = []) (h1 : s.ps.held = []) (h2 : s.ps.waiting = []) (h3 : s.ps.heldBack = []) :
    ∃ t, exec (.outputWrite e) s = .next t ∧ (getEng t e.val).pendingW = (getEng s e.val).pendingW.erase p ∧
      (getTask t p.owner p.task).pendingW = false ∧ t.qm = s.qm := by
  obtain ⟨hfb, hqm⟩ := exported_of_none (e := e) (p := p) h1 h2 h3
  have hx := outputWrite_due (r := (0, 0, exported s e p)) h (by rw [hs]; rfl)
  rw [hl, if_neg Bool.false_ne_true] at hx
  refine ⟨_, hx, ?_, ?_, ?_⟩
  · rw [id, getEng_writtenBy, getEng, hfb, ← getEng]
  · rw [id, getTask_writtenBy]
  · rw [id, writtenBy_qm]
    exact hqm

end

/-! ## Run states (R375) -/

theorem runStateChange_idle {s : State} {o : Nat} (h : (s.fb.own.getD o {}).pending.find? (runDue s) = none ∨ s.fb.running = false) :
    exec (.runStateChange o) s = .next s := by
  show execRunStateChange o s = _
  unfold execRunStateChange
  cases hq : (s.fb.own.getD o {}).pending.find? (runDue s) with
  | none => rfl
  | some q => exact if_pos (by rw [h.resolve_left (fun h => by cases hq.symm.trans h)]; rfl)

theorem runStateChange_due {s u : State} {o : Nat} {q : RunReq} (hq : (s.fb.own.getD o {}).pending.find? (runDue s) = some q)
    (hr : s.fb.running = true) (hu : u = onFb (fun x => { x with own := x.own.upd o {} (fun y => { y with pending := y.pending.erase q }) }) s) :
    exec (.runStateChange o) s = .next (match runAllowed q.cmd (u.fb.own.getD o {}).state, q.reply with
      | none, none => applyRun o q.cmd s.fb.frameLt u
      | none, some w => reply w (st .ok) (applyRun o q.cmd s.fb.frameLt u)
      | some _, none => u
      | some x, some w => reply w (st x) u) := by
  show execRunStateChange o s = _
  unfold execRunStateChange
  rw [hq]
  dsimp only
  rw [hr, ← hu]
  have hf : u.fb.frameLt = s.fb.frameLt := by rw [hu]; rfl
  cases ha : runAllowed q.cmd (u.fb.own.getD o {}).state <;> cases q.reply <;> simp [hf]

/-! ## The dispatcher (R341, R342) -/

/-- The lowest receive entry of cluster k that a packet matches. -/
def inboxEntry (k : Fin 6) (odd : Bool) (ws : List QWord) (u : State) : Option RxEntry :=
  (vget u.fb.cl k.val {}).rxmap.find? (fun r => r.valid && r.odd == odd && r.etype == ({ bytes := payloadOf ws } : Frame).etype &&
    (match r.dst with
     | some m => m == ({ bytes := payloadOf ws } : Frame).dst
     | none => true))

/-- A packet read without an uncorrectable error goes to the inbox of the task that its entry names, or is counted. -/
def dispatchPacket (k : Fin 6) (odd : Bool) (ws : List QWord) (u : State) : Res :=
  if ws.any (epochStale u) then .next (epochDiscard (ownerOfWords ws) u)
  else match inboxEntry k odd ws u with
    | none => .next (modCl k.val (fun c => { c with rxNomatch := c.rxNomatch + 1 }) u)
    | some r =>
      match taskOn u (8 * k.val + r.engine.val) r.task with
      | none => .next (modCl k.val (fun c => { c with rxNomatch := c.rxNomatch + 1 }) u)
      | some (o, te) =>
        if te.rxSize < (headerOf ws ++ payloadOf ws).length ∨ 2 * te.rxCount ≤ (getTask u o te.task).inbox.length then .next (rxDrop k.val o u)
        else .next (modCl k.val (fun c => { c with rxPackets := c.rxPackets + 1 })
          (modTask o te.task (fun x => { x with inbox := x.inbox ++ [headerOf ws ++ payloadOf ws] }) u))

section
variable {s t u : State} {k : Fin 6} {odd : Bool} {g : Option GuardFind} {ws : List QWord}

theorem inboxDispatch_idle (h : (getQ s (0x20 + 2 * k.val + bitN odd)).words = [] ∨ (getEng s (8 * k.val)).domain ≠ .on) :
    exec (.inboxDispatch k odd g) s = .next s :=
  if_pos (by simpa using h)

section
variable (hw : (getQ s (0x20 + 2 * k.val + bitN odd)).words ≠ []) (hd : (getEng s (8 * k.val)).domain = .on)
  (ht : (ws, t) = takePacket (0x20 + 2 * k.val + bitN odd) s)
include hw hd ht

theorem inboxDispatch_uncorrectable (h : GuardHit) :
    exec (.inboxDispatch k odd (some (.uncorrectable h))) s = .next (queueGuard (ownerOfWords ws) h t) := by
  show execInboxDispatch k odd (some (.uncorrectable h)) s = _
  unfold execInboxDispatch
  dsimp only
  rw [if_neg (by simp [hw, hd]), ← ht]
  rfl

theorem inboxDispatch_read (hg : (g = none ∧ u = t) ∨ (g = some .corrected ∧ u = guardCorrected 0x3 t)) :
    exec (.inboxDispatch k odd g) s = dispatchPacket k odd ws u := by
  show execInboxDispatch k odd g s = _
  unfold execInboxDispatch
  dsimp only
  rw [if_neg (by simp [hw, hd]), ← ht]
  dsimp only
  rw [guardRead_none hg]
  rfl

end

theorem dispatchPacket_stale (hs : ws.any (epochStale u) = true) : dispatchPacket k odd ws u = .next (epochDiscard (ownerOfWords ws) u) :=
  if_pos hs

theorem dispatchPacket_noMatch (hs : ws.any (epochStale u) = false)
    (h : inboxEntry k odd ws u = none ∨ ∃ r, inboxEntry k odd ws u = some r ∧ taskOn u (8 * k.val + r.engine.val) r.task = none) :
    dispatchPacket k odd ws u = .next (modCl k.val (fun c => { c with rxNomatch := c.rxNomatch + 1 }) u) := by
  unfold dispatchPacket
  rw [if_neg (by simp [hs])]
  obtain h | ⟨r, h, ht⟩ := h
  · rw [h]
  · rw [h]
    dsimp only
    rw [ht]

theorem dispatchPacket_match {r : RxEntry} {o : Tag} {te : TaskEntry} (hs : ws.any (epochStale u) = false)
    (h : inboxEntry k odd ws u = some r) (ht : taskOn u (8 * k.val + r.engine.val) r.task = some (o, te)) :
    dispatchPacket k odd ws u = .next (if te.rxSize < (headerOf ws ++ payloadOf ws).length ∨ 2 * te.rxCount ≤ (getTask u o te.task).inbox.length
      then rxDrop k.val o u
      else modCl k.val (fun c => { c with rxPackets := c.rxPackets + 1 })
        (modTask o te.task (fun x => { x with inbox := x.inbox ++ [headerOf ws ++ payloadOf ws] }) u)) := by
  unfold dispatchPacket
  rw [if_neg (by simp [hs]), h]
  dsimp only
  rw [ht]
  dsimp only
  split <;> rfl

end

/-! ## The reload of a cluster (R315, R376) -/

theorem engineReloadDone_done {s : State} {k : Fin 6} (h : (vget s.fb.cl k.val {}).reload = true) :
    ∃ t, exec (.engineReloadDone k) s = .next t ∧ (vget t.fb.cl k.val {}).reload = false ∧ t.fb.up = true := by
  refine ⟨_, if_neg (by rw [h]; decide), ?_⟩
  dsimp only
  rw [readiness_fb]
  refine ⟨?_, rfl⟩
  exact congrArg Cluster.reload (vget_vmod _ k.val _ {} k.isLt)

theorem engineReloadDone_idle {s : State} {k : Fin 6} (h : (vget s.fb.cl k.val {}).reload = false) : exec (.engineReloadDone k) s = .next s :=
  if_pos (by rw [h]; rfl)

/-! ## FB_READ_INST (R356) -/

/-- The FB_READ_INST of a byte range, as it waits for the end of a cycle (R356). -/
def instRead (c : Cmd) (e : Fin 48) (a n : Nat) (s : State) : ReadWait :=
  { engine := e.val, owners := (touched (getEng s e.val) a n).map (·.owner), first := a, len := n, wait := { cmd := c, opcode := 0x0910 } }

/-- A command that runs and whose body gives no reply waits for one. -/
theorem command_outstanding {op : BitVec 16} {o : Bool} {c : Cmd} {s t : State} {body : State → State × Option ReplyBody}
    (h : runs op o c s = true) (hb : body (entered op c s) = (t, none)) :
    command op o c s body = .next (outstanding { cmd := c, opcode := op } t) := by
  rw [command_runs h, hb]
  rfl

section
variable {c : Cmd} {e : Fin 48} {a n : Nat} {s : State} (h : runs 0x0910 true c s = true)
include h

theorem execFbReadInst_beyond (hn : 131072 < a + n) :
    execFbReadInst c e a n s = answered 0x0910 c (st (if issuer c = 0 then .badParam else .denied)) (entered 0x0910 c s) :=
  command_answered h (if_pos hn)

theorem execFbReadInst_denied (hn : a + n ≤ 131072) (ha : instAdmits (issuer c) (getEng (entered 0x0910 c s) e.val) a n = false) :
    execFbReadInst c e a n s = answered 0x0910 c (st .denied) (tagRefused 4 (entered 0x0910 c s)) :=
  command_answered h (by rw [if_neg (by omega), if_pos (by rw [ha]; rfl)])

section
variable (hn : a + n ≤ 131072) (ha : instAdmits (issuer c) (getEng (entered 0x0910 c s) e.val) a n = true)
include hn ha

theorem execFbReadInst_notReady (hd : (getEng (entered 0x0910 c s) e.val).domain ≠ .on) :
    execFbReadInst c e a n s = answered 0x0910 c (st .notReady) (entered 0x0910 c s) :=
  command_answered h (by rw [if_neg (by omega), if_neg (by rw [ha]; decide), if_pos hd])

variable (hd : (getEng (entered 0x0910 c s) e.val).domain = .on)
include hd

theorem execFbReadInst_read (hb : readBlocked (entered 0x0910 c s) (instRead c e a n (entered 0x0910 c s)) = false) :
    execFbReadInst c e a n s = answered 0x0910 c { buf := .bytes ((getEng (entered 0x0910 c s) e.val).mem.readN a n) } (entered 0x0910 c s) :=
  command_answered h (by
    rw [if_neg (by omega), if_neg (by rw [ha]; decide), if_neg (not_not_intro hd)]
    exact if_neg (ne_true_of_eq_false hb))

theorem execFbReadInst_waits (hb : readBlocked (entered 0x0910 c s) (instRead c e a n (entered 0x0910 c s)) = true) :
    execFbReadInst c e a n s = .next (outstanding { cmd := c, opcode := 0x0910 }
      (onFb (fun x => { x with readWaits := x.readWaits ++ [instRead c e a n (entered 0x0910 c s)] }) (entered 0x0910 c s))) :=
  command_outstanding h (by
    rw [if_neg (by omega), if_neg (by rw [ha]; decide), if_neg (not_not_intro hd)]
    exact if_pos hb)

end
end

/-! ## FB_READ_FAULT and FB_READ_TASKS (R356, R388) -/

/-- An instance that reads another owner's records is refused; the manager and the owner are not. -/
theorem not_foreign {c : Cmd} {o : Tag} (ho : issuer c = 0 ∨ o = issuer c) : ¬(issuer c ≠ 0 ∧ o ≠ issuer c) := by
  rintro ⟨h0, h1⟩
  exact ho.elim h0 h1

section
variable {c : Cmd} {o : Tag} {e : Fin 48} {s : State}

theorem execFbReadFault_read (h : runs 0x0911 true c s = true) (ho : issuer c = 0 ∨ o = issuer c) :
    execFbReadFault c o e s = answered 0x0911 c { buf := .bytes (((taskEntries (entered 0x0911 c s) e.val).filter (fun x => x.1 == o)).flatMap
      (fun x => faultBytes (((getTask (entered 0x0911 c s) o x.2.task).fault).getD {}))) } (entered 0x0911 c s) :=
  command_answered h (if_neg (not_foreign ho))

theorem execFbReadFault_denied (h : runs 0x0911 true c s = true) (ho : issuer c ≠ 0 ∧ o ≠ issuer c) :
    execFbReadFault c o e s = answered 0x0911 c (st .denied) (entered 0x0911 c s) :=
  command_answered h (if_pos ho)

theorem execFbReadTasks_read (h : runs 0x0915 true c s = true) (ho : issuer c = 0 ∨ o = issuer c) :
    execFbReadTasks c o s = answered 0x0915 c { buf := .bytes (((List.range 48).flatMap (fun e =>
      (taskEntries (entered 0x0915 c s) e).filter (fun x => x.1 == o))).flatMap
        (fun x => taskBytes x.2.task (getTask (entered 0x0915 c s) o x.2.task))) } (entered 0x0915 c s) :=
  command_answered h (if_neg (not_foreign ho))

theorem execFbReadTasks_denied (h : runs 0x0915 true c s = true) (ho : issuer c ≠ 0 ∧ o ≠ issuer c) :
    execFbReadTasks c o s = answered 0x0915 c (st .denied) (entered 0x0915 c s) :=
  command_answered h (if_pos ho)

end

/-! ## Requests of a run state (R375) -/

/-- A request that is allowed joins its owner's queue. -/
def joined (op : BitVec 16) (c : Cmd) (o : Tag) (r : RunCmd) (s : State) : State :=
  onFb (fun f => { f with own := f.own.put o { s.fb.own.getD o {} with
    pending := (s.fb.own.getD o {}).pending ++ [{ cmd := r, at_ := s.now, reply := some { cmd := c, opcode := op } }] } }) s

section
variable {op : BitVec 16} {c : Cmd} {o : Tag} {r : RunCmd} {s : State}

theorem requestRun_denied (h : issuer c ≠ 0 ∧ o ≠ issuer c) : requestRun op c o r s = (s, some (st .denied)) := if_pos h

theorem requestRun_badParam (ho : issuer c = 0 ∨ o = issuer c) (h : 64 < o) : requestRun op c o r s = (s, some (st .badParam)) := by
  rw [requestRun, if_neg (not_foreign ho), if_pos h]

theorem requestRun_refused {x : Status} (ho : issuer c = 0 ∨ o = issuer c) (h : o ≤ 64) (hx : runAllowed r (s.fb.own.getD o {}).state = some x) :
    requestRun op c o r s = (s, some (st x)) := by
  rw [requestRun, if_neg (not_foreign ho), if_neg (Nat.not_lt.2 h)]
  dsimp only
  rw [hx]

theorem requestRun_joins (ho : issuer c = 0 ∨ o = issuer c) (h : o ≤ 64) (hx : runAllowed r (s.fb.own.getD o {}).state = none) :
    requestRun op c o r s = (joined op c o r s, none) := by
  rw [requestRun, if_neg (not_foreign ho), if_neg (Nat.not_lt.2 h)]
  dsimp only
  rw [hx]
  rfl

end

/-- A step that is asked for is bad where its count is outside 1–255 or its task does not exist. -/
theorem stepBad_iff {n : Nat} {x : Option Task} : (n < 1 ∨ 255 < n ∨ x.isNone = true) ↔ ¬(1 ≤ n ∧ n ≤ 255 ∧ x.isSome = true) := by
  cases x with
  | none => simp
  | some k => simp; omega

/-- FB_STEP of an existing task asks for the step; of another it is BAD_PARAM to whom the owner's queue is open (R375). -/
theorem execFbStep_body {c : Cmd} {o : Tag} {t n : Nat} {s : State} (h : runs 0x0914 true c s = true)
    (hok : ¬((issuer c = 0 ∨ o = issuer c) ∧ (n < 1 ∨ 255 < n ∨ ((entered 0x0914 c s).fb.tasks.get? (o, t)).isNone))) :
    execFbStep c o t n s = command 0x0914 true c s (requestRun 0x0914 c o (.step t n)) := by
  rw [execFbStep, command_runs h, command_runs h, if_neg hok]

theorem execFbStep_badParam {c : Cmd} {o : Tag} {t n : Nat} {s : State} (h : runs 0x0914 true c s = true) (ho : issuer c = 0 ∨ o = issuer c)
    (hbad : ¬(1 ≤ n ∧ n ≤ 255 ∧ ((entered 0x0914 c s).fb.tasks.get? (o, t)).isSome = true) ∨ 64 < o) :
    execFbStep c o t n s = answered 0x0914 c (st .badParam) (entered 0x0914 c s) := by
  refine command_answered h ?_
  by_cases hok : 1 ≤ n ∧ n ≤ 255 ∧ ((entered 0x0914 c s).fb.tasks.get? (o, t)).isSome = true
  · rw [if_neg (fun hn => stepBad_iff.1 hn.2 hok)]
    exact requestRun_badParam ho (hbad.resolve_left (not_not_intro hok))
  · exact if_pos ⟨ho, stepBad_iff.2 hok⟩

/-- Settles O46: every event by what it does where it is due and where it is not, every command by its body on the state it enters. -/
theorem cyclesAndFbCommands : Obligations.CyclesAndFbCommands := by
  unfold Obligations.CyclesAndFbCommands
  refine ⟨fun s u h hu hf => baseTick_framed h hu hf, fun s u h hu hf => baseTick_unframed h hu hf, fun s h => baseTick_idle h,
    fun s h => if_pos h, fun s h => if_neg (ne_true_of_eq_false h),
    fun s e w hw h => if_pos (by rw [hw, h]; rfl), fun s e h => windowEnd_idle h,
    fun s e w t k hw h1 h2 h3 h4 h5 h6 hk => cycleStart_free hw ⟨h1, h2, h3, h4, h5, h6⟩ hk, fun s e h => cycleStart_idle h,
    fun s e c hc hs hd => snapshotDone_due hc hs hd, fun s e h => snapshotDone_idle h,
    fun s e h => outputWrite_idle h, fun s t e p a b h ho => outputWrite_due (r := (a, b, t)) h ho,
    fun s e p h hl hs h1 h2 h3 => outputWrite_empty h hl hs h1 h2 h3,
    fun s u o q hq hr hu => runStateChange_due hq hr hu, fun s o h => runStateChange_idle h,
    fun s k odd g h => inboxDispatch_idle h, fun s t k odd h ws hw hd ht => inboxDispatch_uncorrectable hw hd ht h,
    fun s t u k odd g ws hw hd ht hg hs => (inboxDispatch_read hw hd ht hg).trans (dispatchPacket_stale hs),
    fun s t u k odd g ws hw hd ht hg hs h => (inboxDispatch_read hw hd ht hg).trans (dispatchPacket_noMatch hs h),
    fun s t u k odd g ws r o te hw hd ht hg hs h hte => (inboxDispatch_read hw hd ht hg).trans (dispatchPacket_match hs h hte),
    fun s k h => engineReloadDone_done h, fun s k h => engineReloadDone_idle h,
    fun c e a n s h hn ha hd hb => execFbReadInst_read h hn ha hd hb, fun c e a n s h hn ha hd hb => execFbReadInst_waits h hn ha hd hb,
    fun c e a n s h hn => execFbReadInst_beyond h hn, fun c e a n s h hn ha => execFbReadInst_denied h hn ha,
    fun c e a n s h hn ha hd => execFbReadInst_notReady h hn ha hd,
    fun c o e s h ho => execFbReadFault_read h ho, fun c o e s h ho => execFbReadFault_denied h ho,
    fun c o s h ho h64 hx => command_outstanding h (requestRun_joins ho h64 hx),
    fun c o s x h ho h64 hx => command_answered h (requestRun_refused ho h64 hx),
    fun c o s h ho h64 hx => command_outstanding h (requestRun_joins ho h64 hx),
    fun c o s x h ho h64 hx => command_answered h (requestRun_refused ho h64 hx),
    fun c o s h ho h64 hx => command_outstanding h (requestRun_joins ho h64 hx),
    fun c o s x h ho h64 hx => command_answered h (requestRun_refused ho h64 hx),
    fun c o s h ho h64 hx => command_outstanding h (requestRun_joins ho h64 hx),
    fun c o s x h ho h64 hx => command_answered h (requestRun_refused ho h64 hx),
    fun c o s h ho => ⟨command_answered h (requestRun_denied ho), command_answered h (requestRun_denied ho),
      command_answered h (requestRun_denied ho), command_answered h (requestRun_denied ho)⟩,
    fun c o s h ⟨ho, h64⟩ => ⟨command_answered h (requestRun_badParam ho h64), command_answered h (requestRun_badParam ho h64),
      command_answered h (requestRun_badParam ho h64), command_answered h (requestRun_badParam ho h64)⟩,
    fun c o t n s h ho h64 hok hx => (execFbStep_body h (fun hn => stepBad_iff.1 hn.2 hok)).trans
      (command_outstanding h (requestRun_joins ho h64 hx)),
    fun c o t n s x h ho h64 hok hx => (execFbStep_body h (fun hn => stepBad_iff.1 hn.2 hok)).trans
      (command_answered h (requestRun_refused ho h64 hx)),
    fun c o t n s h ho hbad => execFbStep_badParam h ho hbad,
    fun c o t n s h ho => (execFbStep_body h (fun hn => not_foreign hn.1 ho)).trans (command_answered h (requestRun_denied ho)),
    fun c o s h ho => execFbReadTasks_read h ho, fun c o s h ho => execFbReadTasks_denied h ho⟩

end Sys2Proof.Machine
end
section
/-! The Point Store (O19, O47): how a value is normalised to its type, what a write, a force and a batch store, and what each command of chapter
13 answers. -/

namespace Sys2Proof.Machine

/-! ## Points and what noting them leaves -/

theorem getPoint_eq_some_iff {s : State} {i : Nat} {r : PointRec} :
    getPoint s i = some r ↔ s.ps.recs.get? i = some r ∧ r.type ≠ .undefined := by
  unfold getPoint
  cases s.ps.recs.get? i with
  | none => simp
  | some x =>
    by_cases hx : x.type = .undefined
    · simp only [hx, if_true, reduceCtorEq, Option.some.injEq, false_iff]
      rintro ⟨rfl, h⟩
      exact h hx
    · simp only [hx, if_false, Option.some.injEq]
      exact ⟨fun h => ⟨h, h ▸ hx⟩, And.left⟩

@[simp] theorem notePoint_ps (i : Nat) (s : State) : (notePoint i s).ps = s.ps := ps_of_outside (by simp [allBut])

@[simp] theorem gooseDetect_ps (i : Nat) (t : LT) (before after : State) : (gooseDetect i t before after).ps = after.ps :=
  ps_of_outside (by simp [allBut])

@[simp] theorem bumpSeq_force (i : Nat) (s : State) : (bumpSeq i s).ps.force = s.ps.force := by
  unfold bumpSeq
  split <;> rfl

/-! ## Normalisation, bit by bit (R391) -/

theorem normalise_boolean_ne_zero {v : BitVec 64} (h : v ≠ 0) : normalise .boolean v = 1 := if_neg h

theorem getLsbD_three (k : Nat) : (3 : BitVec 64).getLsbD k = decide (k < 2) := by
  rw [show (3 : BitVec 64) = (BitVec.allOnes 2).setWidth 64 from rfl]
  simp only [BitVec.getLsbD_setWidth, BitVec.getLsbD_allOnes, Bool.and_eq_right_iff_imp, decide_eq_true_eq]
  omega

theorem normalise_dbpos_getLsbD (v : BitVec 64) (k : Nat) : (normalise .dbpos v).getLsbD k = (decide (k < 2) && v.getLsbD k) := by
  simp only [normalise, BitVec.getLsbD_and, getLsbD_three, Bool.and_comm]

theorem normalise_int32_getLsbD (v : BitVec 64) {k : Nat} (hk : k < 64) : (normalise .int32 v).getLsbD k = v.getLsbD (min k 31) := by
  simp only [normalise, BitVec.getLsbD_signExtend, hk, decide_true, Bool.true_and]
  split
  · rename_i h
    rw [Nat.min_eq_left (by omega)]
    simp [h]
  · rw [Nat.min_eq_right (by omega)]
    simp [BitVec.msb_eq_getLsbD_last]

theorem normalise_int32u_getLsbD (v : BitVec 64) (k : Nat) : (normalise .int32u v).getLsbD k = (decide (k < 32) && v.getLsbD k) := by
  have hmono : k < 32 → k < 64 := by omega
  simpa [normalise] using fun hk _ => hmono hk

/-! ## Writes (R391–R395) -/

/-- The record that a write leaves where `r` stood. -/
def writtenRec (w : PtWrite) (r : PointRec) : PointRec :=
  { r with value := normalise r.type w.value, lt := w.lt, quality := w.quality &&& 0x3FFF,
           flags := ptFlags (writerCode w.writer) false false, seq := r.seq + 1, bad := false }

section
variable {w : PtWrite} {s : State} {r : PointRec}

theorem showWrite_ps (h : getPoint s w.index = some r) :
    (showWrite w s).ps = { s.ps with recs := s.ps.recs.put w.index (writtenRec w r), updates := s.ps.updates + 1 } := by
  unfold showWrite
  rw [h]
  dsimp only
  rw [notePoint_ps]
  split
  · exact gooseDetect_ps ..
  · rfl

theorem getPoint_showWrite (h : getPoint s w.index = some r) : getPoint (showWrite w s) w.index = some (writtenRec w r) := by
  rw [getPoint_eq_some_iff, showWrite_ps h]
  exact ⟨get?_put .., (getPoint_eq_some_iff.1 h).2⟩

theorem writePoint_ps (hw : writerOk s w.index w.writer = true) (h : getPoint s w.index = some r) :
    (writePoint w s).ps = { s.ps with recs := s.ps.recs.put w.index (writtenRec w r), updates := s.ps.updates + 1 } := by
  rw [writePoint, if_pos hw, showWrite_ps h]

theorem writePoint_refused (hw : writerOk s w.index w.writer = false) : writePoint w s = pointDenied s :=
  if_neg (ne_true_of_eq_false hw)

end

/-! ## Forces (R400, R407) -/

/-- The force that an issuer sets on a point. -/
def newForce (c : Cmd) (e : Nat × BitVec 64 × Quality) (r : PointRec) (s : State) : Force :=
  { value := normalise r.type e.2.1, quality := storeQuality e.2.2, setter := issuer c, lt := s.now, type := r.type,
    orphan := ((s.ps.force.get? e.1).map (·.orphan)).getD false }

/-- The force table, or the issuer's share of it, has no room for a force of point i. -/
def forceLimit (c : Cmd) (i : Nat) (s : State) : Prop :=
  16384 ≤ (s.ps.force.del i).length ∨ forceShare s (issuer c) ≤ ((s.ps.force.del i).filter (fun f => f.2.setter == issuer c)).length

section
variable {c : Cmd} {e : Nat × BitVec 64 × Quality} {i : Nat} {s : State} {r : PointRec}

theorem setForce_undefined (h : getPoint s e.1 = none) : setForce c e s = (s, .badParam) := by rw [setForce, h]

theorem setForce_denied (h : getPoint s e.1 = some r) (ho : issuer c ≠ 0 ∧ r.owner ≠ issuer c) : setForce c e s = (s, .denied) := by
  rw [setForce, h]
  exact if_pos ho

theorem setForce_quota (h : getPoint s e.1 = some r) (ho : issuer c = 0 ∨ r.owner = issuer c) (hq : forceLimit c e.1 s) :
    setForce c e s = (onPs (fun x => { x with forceFull := true }) s, .quota) := by
  rw [setForce, h]
  exact (if_neg (not_foreign ho)).trans (if_pos hq)

theorem setForce_sets (h : getPoint s e.1 = some r) (ho : issuer c = 0 ∨ r.owner = issuer c) (hq : ¬forceLimit c e.1 s) :
    setForce c e s = (notePoint e.1 (bumpSeq e.1 (onPs (fun x => { x with force := x.force.put e.1 (newForce c e r s) }) s)), .ok) := by
  rw [setForce, h]
  exact (if_neg (not_foreign ho)).trans (if_neg hq)

/-- A defined point takes a force of the manager or of its owner while the table and the share have room. -/
theorem setForce_ok_iff (h : getPoint s e.1 = some r) :
    (setForce c e s).2 = .ok ↔ (issuer c = 0 ∨ r.owner = issuer c) ∧ ¬forceLimit c e.1 s := by
  by_cases ho : issuer c = 0 ∨ r.owner = issuer c
  · by_cases hq : forceLimit c e.1 s
    · simp [setForce_quota h ho hq, hq]
    · simp [setForce_sets h ho hq, ho, hq]
  · simp [setForce_denied h (not_or.1 ho), ho]

theorem setForce_get? (h : getPoint s e.1 = some r) (hok : (setForce c e s).2 = .ok) :
    (setForce c e s).1.ps.force.get? e.1 = some (newForce c e r s) := by
  obtain ⟨ho, hq⟩ := (setForce_ok_iff h).1 hok
  simp [setForce_sets h ho hq, onPs]

/-- Whether a force is refused depends on its point and on the table, not on the value and quality it asks for. -/
theorem setForce_status_of_index (x y : BitVec 64 × Quality) : (setForce c (i, x) s).2 = (setForce c (i, y) s).2 := by
  unfold setForce
  cases getPoint s i with
  | none => rfl
  | some r =>
    dsimp only
    split_ifs <;> rfl

theorem clearForce_stale (ho : issuer c = 0 ∨ ((getPoint s i).map (·.owner)).getD 0xFF = issuer c) (hf : s.ps.force.get? i = none) :
    clearForce c i s = (s, .stale) := by
  rw [clearForce, if_neg (not_foreign ho), hf]

theorem clearForce_clears (ho : issuer c = 0 ∨ ((getPoint s i).map (·.owner)).getD 0xFF = issuer c) (hf : (s.ps.force.get? i).isSome = true) :
    clearForce c i s = (notePoint i (bumpSeq i (onPs (fun x => { x with force := x.force.del i }) s)), .ok) := by
  obtain ⟨f, hf⟩ := Option.isSome_iff_exists.1 hf
  rw [clearForce, if_neg (not_foreign ho), hf]

end

/-- Settles O19: each type's value bit by bit, and the record and the force that hold it. -/
theorem valuesAreNormalised : Obligations.ValuesAreNormalised := by
  unfold Obligations.ValuesAreNormalised
  refine ⟨fun v h => normalise_boolean_ne_zero h, rfl, normalise_dbpos_getLsbD, fun v k hk => normalise_int32_getLsbD v hk,
    fun v k => ⟨normalise_int32u_getLsbD v k, normalise_int32u_getLsbD v k⟩, fun w s r h => ?_, fun c i v y s r h hok => ?_,
    fun c i v u y s => ⟨setForce_status_of_index _ _, rfl⟩⟩
  · rw [getPoint_showWrite h]
    rfl
  · rw [setForce_get? h hok]
    rfl

end Sys2Proof.Machine
end
section
/-! The events and the commands of the Point Store (O47): each by what it does where it is due and where it is not, each command by what it
answers. -/

namespace Sys2Proof.Machine

/-! ## Batches (R398) -/

/-- The store once its oldest batch is taken: the wait it had is kept if it is the longest, and what its source held back arrives. -/
def batchTaken (b : Batch) (l : List Batch) (s : State) : State :=
  offerHeld (onPs (fun x => { x with
    waiting := l
    maxWait := if x.maxWait.toNat < (ltDiff s.now b.arrived).toNat / 65536 then BitVec.ofNat 32 ((ltDiff s.now b.arrived).toNat / 65536)
      else x.maxWait }) s)

section
variable {s : State} {b : Batch} {l : List Batch}

theorem batchApply_idle (h : s.ps.ready = false ∨ s.ps.waiting = []) : exec .batchApply s = .next s := by
  show execBatchApply s = _
  unfold execBatchApply
  obtain h | h := h
  · rw [h]
    rfl
  · rw [h]
    exact ite_self _

theorem batchApply_takes (hr : s.ps.ready = true) (hw : s.ps.waiting = b :: l) :
    exec .batchApply s = match b.visible with
      | some _ => .next (onPs (fun x => { x with held := x.held ++ [b] }) (batchTaken b l s))
      | none => match b.release with
        | some (g, k, t) => .next (releaseSample g k t (cabFresh b (applyBatch b (batchTaken b l s))))
        | none => .next (cabFresh b (applyBatch b (batchTaken b l s))) := by
  show execBatchApply s = _
  unfold execBatchApply
  rw [hr, hw]
  rfl

end

/-! ## The stale mark (R399) -/

/-- A point is due for its stale mark. -/
def staleDue (d : PointDef) (r : PointRec) (s : State) : Prop :=
  d.staleAge ≠ 0 ∧ r.flags.getLsbD 5 = false ∧ (msTu d.staleAge : Int) < ltDiff s.now r.lt

section
variable {s : State} {i : Nat} {r : PointRec} {d : PointDef}

theorem not_staleDue_iff : (d.staleAge = 0 ∨ r.flags.getLsbD 5 ∨ ltDiff s.now r.lt ≤ (msTu d.staleAge : Int)) ↔ ¬staleDue d r s := by
  rw [staleDue, not_and_or, not_and_or, not_not, Bool.not_eq_false, Int.not_lt]

theorem staleMark_due (hr : getPoint s i = some r) (hd : s.ps.defs.get? i = some d) (h : staleDue d r s) :
    exec (.staleMark i) s = .next (gooseDetect i s.now s (onPs (fun x => { x with
      recs := x.recs.put i { r with quality := worseQuestionable r.quality ||| qOldData, flags := r.flags ||| 32, seq := r.seq + 1 },
      staleMark := true, staleMarks := x.staleMarks + 1 }) s)) := by
  show execStaleMark i s = _
  rw [execStaleMark, hr, hd]
  exact if_neg (fun hn => not_staleDue_iff.1 hn h)

theorem staleMark_idle (h : ∀ r d, getPoint s i = some r → s.ps.defs.get? i = some d → ¬staleDue d r s) :
    exec (.staleMark i) s = .next s := by
  show execStaleMark i s = _
  unfold execStaleMark
  split
  · next r d hr hd => exact if_pos (not_staleDue_iff.2 (h r d hr hd))
  · rfl

end

/-! ## PS_READ_POINTS (R397, R405, R407) -/

section
variable {s : State} {c : Cmd} {l : List Nat} {g f : List (Nat × GuardFind)} (h : runs 0x0A10 true c s = true)
include h

theorem psReadPoints_tooLong (hl : 1024 < l.length) :
    exec (.psReadPoints c l g f) s = answered 0x0A10 c (st .badParam) (entered 0x0A10 c s) :=
  command_answered h (if_pos hl)

section
variable (hl : l.length ≤ 1024)
include hl

theorem psReadPoints_notReady (hr : (entered 0x0A10 c s).ps.ready = false) :
    exec (.psReadPoints c l g f) s = answered 0x0A10 c (st .notReady) (entered 0x0A10 c s) :=
  command_answered h (by rw [if_neg (Nat.not_lt.2 hl), hr]; rfl)

variable (hr : (entered 0x0A10 c s).ps.ready = true)
include hr

theorem psReadPoints_denied (ha : l.all (fun i => pointReadable (entered 0x0A10 c s) (issuer c) i) = false) :
    exec (.psReadPoints c l g f) s = answered 0x0A10 c (st .denied)
      ((l.filter (fun i => !pointReadable (entered 0x0A10 c s) (issuer c) i)).foldl (fun s _ => readDenied s) (entered 0x0A10 c s)) :=
  command_answered h (by rw [if_neg (Nat.not_lt.2 hl), hr, ha]; rfl)

theorem psReadPoints_reads {t : State} (ha : l.all (fun i => pointReadable (entered 0x0A10 c s) (issuer c) i) = true)
    (ht : pointGuards (issuer c) (g.filter (fun e => l.contains e.1)) (f.filter (fun e => l.contains e.1)) (entered 0x0A10 c s) = t) :
    exec (.psReadPoints c l g f) s = answered 0x0A10 c { buf := .bytes ((l.filterMap (presented t)).flatMap pointBytes) } t := by
  subst ht
  exact command_answered h (by rw [if_neg (Nat.not_lt.2 hl), hr, ha]; rfl)

end
end

/-! ## PS_FORCE_LIST (R402, R407) -/

@[simp] theorem listable_entered (op : BitVec 16) (c d : Cmd) (s : State) (l : List (Nat × Force)) :
    listable d (entered op c s) l = listable d s l := by
  simp [listable]

section
variable {s : State} {c : Cmd} (h : runs 0x0A14 true c s = true)
include h

theorem psForceListCurrent_lists :
    exec (.psForceListCurrent c) s = answered 0x0A14 c
      { buf := .bytes ((sortBy (·.1) (listable c (entered 0x0A14 c s) (entered 0x0A14 c s).ps.force)).flatMap (forceBytes false)) }
      (entered 0x0A14 c s) := by
  rw [listable_entered, entered_ps]
  exact answer_runs h _

theorem psForceListDropped_lists :
    exec (.psForceListDropped c) s = answered 0x0A14 c
      { buf := .bytes ((listable c (entered 0x0A14 c s) (entered 0x0A14 c s).ps.dropped).flatMap (forceBytes true)) }
      (entered 0x0A14 c s) := by
  rw [listable_entered, entered_ps]
  exact answer_runs h _

end

/-- Settles O47: every event by what it does where it is due and where it is not, every write and force by what it leaves, every command by
its body on the state it enters. -/
theorem pointsAreWritten : Obligations.PointsAreWritten := by
  unfold Obligations.PointsAreWritten
  refine ⟨?_, ?_, ?_, fun s h => batchApply_idle h, ?_, ?_, fun s i r d hr hd h => staleMark_due hr hd h, fun s i h => staleMark_idle h,
    fun s c l g f h hl hr ha => psReadPoints_reads h hl hr ha rfl, fun s c l g f h hl => psReadPoints_tooLong h hl,
    fun s c l g f h hl hr => psReadPoints_notReady h hl hr, fun s c l g f h hl hr ha => psReadPoints_denied h hl hr ha,
    fun s c l m h hl => command_answered h (if_neg (Nat.not_lt.2 hl)),
    fun s c l m h hl => command_answered h (if_neg (Nat.not_lt.2 hl)),
    fun s c l m h hl => command_answered h (if_neg (Nat.not_lt.2 hl)),
    fun s c l m k => ⟨fun h hl => command_answered h (if_pos hl), fun h hl => command_answered h (if_pos hl),
      fun h hl => command_answered h (if_pos hl)⟩, ?_, ?_, ?_,
    fun s c h => psForceListCurrent_lists h, fun s c h => psForceListDropped_lists h⟩
  · rintro s u b l w hr hw rfl hv
    rw [batchApply_takes hr hw, hv]
    rfl
  · rintro s u b l hr hw rfl hv hrel
    rw [batchApply_takes hr hw, hv, hrel]
    rfl
  · rintro s u b l g k t hr hw rfl hv hrel
    rw [batchApply_takes hr hw, hv, hrel]
    rfl
  · intro s w r hw hr
    rw [writePoint_ps hw hr]
    exact ⟨get?_put .., rfl, fun i hi => get?_put_ne _ _ _ _ hi.symm⟩
  · intro s w hw
    rw [writePoint_refused hw]
    exact ⟨rfl, rfl, rfl⟩
  · intro s c e r hr ho htab hshare
    have hok : (setForce c e s).2 = .ok := (setForce_ok_iff hr).2 ⟨ho, not_or.2 ⟨Nat.not_le.2 htab, Nat.not_le.2 hshare⟩⟩
    refine ⟨hok, ?_⟩
    rw [setForce_get? hr hok]
    rfl
  · exact fun s c e => ⟨setForce_undefined, fun r hr => ⟨fun ho => setForce_denied hr (not_or.1 ho), fun ho hq => setForce_quota hr ho hq⟩⟩
  · intro s c i ho
    refine ⟨clearForce_stale ho, fun hf => ?_⟩
    rw [clearForce_clears ho hf]
    exact ⟨rfl, by simp [onPs]⟩

end Sys2Proof.Machine
end
section
/-! Claims and roles of the Fail-over Unit (O48, O49): what a change of state, a claim and the loss of the partner leave in FO's registers. -/

namespace Sys2Proof.Machine

/-! ## A change of state (R408) -/

theorem fo_of_outside {s t : State} (h : outside (allBut .fo) t = outside (allBut .fo) s) : t.fo = s.fo := by
  simpa [outside, allBut] using congrArg State.fo h

@[simp] theorem markPhase_fo (p : Nat) (stamp : Bool) (s : State) : (markPhase p stamp s).fo = s.fo :=
  fo_of_outside (markPhase_outside (by decide) ..)

@[simp] theorem readiness_fo (s : State) : (readiness s).fo = s.fo := fo_of_outside (readiness_outside (by decide) s)

@[simp] theorem setGates_fo (s : State) : (setGates s).fo = { s.fo with gateOpen := gateCond s } := rfl

/-- The end of phase 8 starts segments, and changes nothing else of FO (R554). -/
theorem phaseEight_fo (s : State) : ∃ q, (phaseEight s).fo = { s.fo with seg := q } := by
  unfold phaseEight
  split
  · exact ⟨_, rfl⟩
  · dsimp only
    split
    · exact ⟨s.fo.seg, by simp⟩
    · split
      · exact ⟨_, by simp; rfl⟩
      · exact ⟨s.fo.seg, by simp⟩

/-- A unit that takes a role has it; but for the gates, the segments and the replication, FO is as it was (R408). -/
theorem setRole_fo (r : FoRole) (s : State) :
    ∃ g q p, (setRole r s).fo = { s.fo with state := r, gateOpen := g, seg := q, repl := p } := by
  unfold setRole
  split
  · next h => exact ⟨gateCond s, s.fo.seg, s.fo.repl, by simp [← h]⟩
  · obtain ⟨q, hq⟩ := phaseEight_fo (setGates (raise 0x70 0 (onFo (fun f => { f with
      state := r, repl := if r = .standby then { f.repl with applied := false } else f.repl }) s)))
    exact ⟨_, q, _, by rw [readiness_fo, hq, setGates_fo, raise_fo]; rfl⟩

/-! ## A claim (R411, R412, R414) -/

/-- A higher epoch is remembered; but for EPOCH_LOW, FO is as it was (R411). -/
theorem raiseEMem_fo {e : BitVec 24} {s : State} (h : s.fo.eMem.toNat < e.toNat) :
    ∃ l, (raiseEMem e s).fo = { s.fo with eMem := e, epochLow := l } := by
  unfold raiseEMem
  rw [if_neg (Nat.not_le.2 h)]
  dsimp only
  split
  · exact ⟨_, by rw [raise_fo]; rfl⟩
  · exact ⟨_, rfl⟩

/-- The claim of a unit for an epoch: the epoch above its PRIO (R412). -/
def claimOf (e : BitVec 24) (prio : BitVec 8) : BitVec 32 := e.zeroExtend 32 <<< 8 ||| prio.zeroExtend 32

theorem eMem_lt_succ {e : BitVec 24} (h : e ≠ 0xFFFFFF) : e.toNat < (e + 1).toNat := by bv_omega

/-- No claim is formed at the highest epoch (R414). -/
theorem formClaim_exhausted {s : State} (k : Bool) (h : s.fo.eMem = 0xFFFFFF) : formClaim k s = s := if_pos h

/-- A unit that forms a claim is ACTIVE at the next epoch, its claim made of that epoch and its PRIO; what it holds of a partner it lost stays
(R409, R412). -/
theorem formClaim_fo {s : State} (k : Bool) (h : s.fo.eMem ≠ 0xFFFFFF) :
    (formClaim k s).fo.state = .active ∧ (formClaim k s).fo.eMem = s.fo.eMem + 1 ∧
      (formClaim k s).fo.claim = claimOf (s.fo.eMem + 1) s.fo.cfg.prio ∧
      (formClaim k s).fo.partnerLost = s.fo.partnerLost ∧ (formClaim k s).fo.frozenElig = s.fo.frozenElig := by
  obtain ⟨l, hl⟩ := raiseEMem_fo (eMem_lt_succ h)
  unfold formClaim
  rw [if_neg h]
  dsimp only
  generalize hu : onFo _ (raiseEMem (s.fo.eMem + 1) s) = u
  obtain ⟨g, q, p, hr⟩ := setRole_fo .active u
  rw [hr, ← hu, onFo_fo, hl]
  exact ⟨rfl, rfl, rfl, rfl, rfl⟩

/-- Whether it forms a claim or not, a unit keeps what it holds of the partner it lost (R409). -/
theorem formClaim_keepsLoss (k : Bool) (s : State) :
    (formClaim k s).fo.partnerLost = s.fo.partnerLost ∧ (formClaim k s).fo.frozenElig = s.fo.frozenElig := by
  by_cases h : s.fo.eMem = 0xFFFFFF
  · rw [formClaim_exhausted k h]
    exact ⟨rfl, rfl⟩
  · obtain ⟨-, -, -, hlost, hfrozen⟩ := formClaim_fo k h
    exact ⟨hlost, hfrozen⟩

/-! ## The takeover after the partner's loss (R409, R422, R433) -/

section
variable {s : State}

theorem witnessTakeover_forms (hst : s.fo.state = .standby) (hp : s.fo.partner = .lost) (he : eligible s = true) (hw : witnessClear s = true) :
    witnessTakeover s = formClaim true s := by
  simp [witnessTakeover, hst, hp, he, hw]

theorem witnessTakeover_holds (hst : s.fo.state = .standby) (hp : s.fo.partner = .lost) (he : eligible s = true) (hw : witnessClear s = false) :
    witnessTakeover s = onFo (fun f => { f with witnessHeld := true }) s := by
  simp [witnessTakeover, hst, hp, he, hw]

theorem witnessTakeover_drops (h : s.fo.state ≠ .standby ∨ s.fo.partner ≠ .lost ∨ eligible s = false) :
    witnessTakeover s = onFo (fun f => { f with witnessHeld := false }) s :=
  if_pos (by simpa using h)

end

theorem witnessTakeover_keepsLoss (s : State) :
    (witnessTakeover s).fo.partnerLost = s.fo.partnerLost ∧ (witnessTakeover s).fo.frozenElig = s.fo.frozenElig := by
  unfold witnessTakeover
  split
  · exact ⟨rfl, rfl⟩
  · split
    · exact formClaim_keepsLoss true s
    · exact ⟨rfl, rfl⟩

/-- A unit that loses its partner shows the loss, and its eligibility stays what it was then (R409). -/
theorem losePartner_freezes {s : State} (h : s.fo.partner = .present) :
    (losePartner s).fo.partnerLost = true ∧ (losePartner s).fo.frozenElig = eligible s := by
  unfold losePartner
  rw [if_neg (not_not.2 h)]
  dsimp only
  generalize hu : setGates _ = u
  obtain ⟨hlost, hfrozen⟩ := witnessTakeover_keepsLoss u
  rw [hlost, hfrozen, ← hu, setGates_fo, raise_fo]
  exact ⟨rfl, rfl⟩

end Sys2Proof.Machine
end

section
/-! Messages between the units of a pair (O48): what FO sends, what each message it hears does, and the replication it sends and applies. -/

namespace Sys2Proof.Machine

/-! ## Heartbeats sent (R420) -/

section
variable {s : State}

theorem heartbeatTx_sends (h : (nsTu 9990 : Int) ≤ ltDiff s.now s.fo.hbTxAt) :
    exec .heartbeatTx s = .next (emit (.brixig (brxHeartbeat { brxHeader s with
      txLt := s.now, echoTx := s.fo.hb.txLt, echoRx := s.fo.hbAt, configTag := s.fo.cfg.configTag, diag := diagBits s }))
      (onFo (fun f => { f with hbTxAt := s.now, txSeq := f.txSeq + 1 }) s)) := by
  show execHeartbeatTx s = _
  unfold execHeartbeatTx
  rw [if_neg (Int.not_lt.2 h)]
  rfl

theorem heartbeatTx_idle (h : ltDiff s.now s.fo.hbTxAt < (nsTu 9990 : Int)) : exec .heartbeatTx s = .next s := if_pos h

end

/-! ## Messages heard (R411, R417–R419) -/

section
variable {type : Nat} {w : BrxWords} {k : List Byte → List (Vector Byte 36) → State → State} {s : State}

/-- A message that is whole has its type's effect. -/
theorem brxRx_whole {h : List Byte} {p : List (Vector Byte 36)} (hh : brxHeard type w s = some (h, p)) :
    brxRx type w k s = .next (k h p (brxTaken type w s)) := by
  rw [brxRx_answers, hh]

theorem brxRx_broken (hh : brxHeard type w s = none) : brxRx type w k s = .next (brxTaken type w s) := by
  rw [brxRx_answers, hh]

end

/-! ## Heartbeats heard (R408, R413–R415, R420–R423, R431, R438) -/

/-- FO once it has measured the offset by a heartbeat and holds it as the partner's state (R420–R422). -/
def beatTaken (m : BrxMsg) (s : State) : State :=
  let d := draw (recordEdge 14 s.now s)
  onFo (fun f => { f with
      ctr := vadd (vadd f.ctr 0 1) 1 d.1, hb := m, hbAt := wholeNs s.now, partner := .present, witnessHeld := false })
    (measureOffset m (wholeNs s.now) d.2)

theorem heartbeatRx_whole {w : BrxWords} {s : State} {h : List Byte} {p : List (Vector Byte 36)} (hh : brxHeard 0x01 w s = some (h, p))
    {m : BrxMsg} (hm : brxReadBeat h (p.flatMap brxData) = m) {t : State} (ht : brxTaken 0x01 w s = t) :
    exec (.heartbeatRx w) s = .next (swapReplies m (actOnTrigger (setGates (epochTry
      (resolveSplit (t.fo.partner != .present || !t.fo.hb.active) m (arbitrate m (beatTaken m t))))))) := by
  show execHeartbeatRx w s = _
  unfold execHeartbeatRx beatTaken
  rw [brxRx_whole hh, ht, hm]

section
variable {m : BrxMsg} {s : State}

theorem arbitrate_over (h : s.fo.state ≠ .start ∨ s.fo.discoverAt = none) : arbitrate m s = s := by
  unfold arbitrate
  exact if_pos (by simpa using h)

section
variable (hst : s.fo.state = .start) (hd : s.fo.discoverAt.isSome = true)
include hst hd

theorem arbitrate_underActive (hm : m.active = true) : arbitrate m s = setRole .standby (endArbitration s) := by
  simp [arbitrate, hst, Option.isSome_iff_ne_none.1 hd, hm]

theorem arbitrate_loses (hm : m.active = false) (hp : s.fo.cfg.prio.toNat < (partnerPrio s).toNat) :
    arbitrate m s = setRole .standby (endArbitration s) := by
  have hne : partnerPrio s ≠ s.fo.cfg.prio := fun h => by simp [h] at hp
  simp [arbitrate, hst, Option.isSome_iff_ne_none.1 hd, hm, hne, Nat.not_lt.2 hp.le]

theorem arbitrate_wins (hm : m.active = false) (hp : (partnerPrio s).toNat < s.fo.cfg.prio.toNat) :
    arbitrate m s = if s.fo.eMem = 0xFFFFFF then s else formClaim false (endArbitration s) := by
  have hne : partnerPrio s ≠ s.fo.cfg.prio := fun h => by simp [h] at hp
  simp [arbitrate, hst, Option.isSome_iff_ne_none.1 hd, hm, hne, hp]

end

theorem resolveSplit_none (k : Bool) (h : s.fo.state ≠ .active ∨ m.active = false) : resolveSplit k m s = s := by
  unfold resolveSplit
  exact if_pos (by simpa using h)

theorem resolveSplit_known (hst : s.fo.state = .active) (hm : m.active = true) :
    resolveSplit false m s = if s.fo.claim.toNat < m.claim.toNat then yieldClaim s else s := by
  simp [resolveSplit, hst, hm]

end

/-! ## The loss of the partner (R416, R422) -/

section
variable {s : State}

theorem partnerLost_due (h : (usTu 45 : Int) ≤ ltDiff s.now s.fo.hbAt) : exec .partnerLost s = .next (losePartner s) :=
  if_neg (Int.not_lt.2 h)

theorem losePartner_idle (h : s.fo.partner ≠ .present) : losePartner s = s := if_pos h

theorem partnerLost_idle (h : ltDiff s.now s.fo.hbAt < (usTu 45 : Int) ∨ s.fo.partner ≠ .present) : exec .partnerLost s = .next s := by
  by_cases hd : ltDiff s.now s.fo.hbAt < (usTu 45 : Int)
  · exact if_pos hd
  · rw [partnerLost_due (Int.not_lt.1 hd), losePartner_idle (h.resolve_left hd)]

end

/-! ## Replication (R426–R428) -/

section
variable {s : State}

theorem receivesRepl_iff : receivesRepl s = true ↔ s.fo.state = .standby ∨ s.fo.state = .relinquished := by
  simp [receivesRepl]

theorem modRx_receiving (t : LT) (f : ReplRx → ReplRx) (h : s.fo.state = .standby ∨ s.fo.state = .relinquished) :
    modRx t f s = onFo (fun x => { x with repl := { x.repl with rx := x.repl.rx.upd t {} f } }) s :=
  if_pos (receivesRepl_iff.2 h)

theorem modRx_notReceiving (t : LT) (f : ReplRx → ReplRx) (h1 : s.fo.state ≠ .standby) (h2 : s.fo.state ≠ .relinquished) : modRx t f s = s :=
  if_neg (fun h => (receivesRepl_iff.1 h).elim h1 h2)

theorem replTransmit_idle (h : s.fo.repl.captures = [] ∨ s.fo.state ≠ .active ∨ s.fo.repl.sent = true ∨ s.fo.linkUp = false) :
    exec .replTransmit s = .next s := by
  show execReplTransmit s = _
  unfold execReplTransmit
  split
  · rfl
  · next hc =>
    rw [if_pos]
    simpa [hc] using h

end

/-- A state that has sent messages: they stand before what was sent already, SEQ has gone on, and nothing else has changed (R418). -/
def HasSent (s t : State) : Prop := ∃ o n, t = { s with out := o ++ s.out, fo := { s.fo with txSeq := n } }

theorem HasSent.refl (s : State) : HasSent s s := ⟨[], s.fo.txSeq, rfl⟩

theorem HasSent.sendBrx {s t : State} (h : HasSent s t) (mk : BrxMsg → BrxWords) : HasSent s (sendBrx mk t) := by
  obtain ⟨o, n, rfl⟩ := h
  exact ⟨_ :: o, _, rfl⟩

theorem HasSent.foldl {α : Type} {s t : State} (h : HasSent s t) (mk : α → BrxMsg → BrxWords) (l : List α) :
    HasSent s (l.foldl (fun t a => Machine.sendBrx (mk a) t) t) := by
  induction l generalizing t with
  | nil => exact h
  | cons a l ih => exact ih (h.sendBrx (mk a))

theorem HasSent.taskOffsets {s t : State} (h : HasSent s t) : taskOffsets t = taskOffsets s := by
  obtain ⟨o, n, rfl⟩ := h
  rfl

/-- TASKS sent where there is a task (R426). -/
def sendTasks (b : LT) (l : List (Nat × BitVec 64)) (s : State) : State := if l.isEmpty then s else sendBrx (brxTasks b l) s

theorem HasSent.sendTasks {s t : State} (h : HasSent s t) (b : LT) (l : List (Nat × BitVec 64)) : HasSent s (sendTasks b l t) := by
  unfold Machine.sendTasks
  split
  · exact h
  · exact h.sendBrx _

/-- The newest capture is sent once, its REPL_END the last of what is sent (R426). -/
theorem replTransmit_sends {s : State} {b : LT} {cap : List ReplChunk} {l : List (LT × List ReplChunk)}
    (hc : s.fo.repl.captures = (b, cap) :: l) (hst : s.fo.state = .active) (hs : s.fo.repl.sent = false) (hl : s.fo.linkUp = true) :
    ∃ o n, exec .replTransmit s =
        .next { s with out := o ++ s.out, fo := { s.fo with txSeq := n, repl := { s.fo.repl with sent := true } } } ∧
      ∃ m, o.head? = some (.brixig (brxReplEnd b
        ((cap.map (fun c => ceilDiv c.data.length 32)).sum + ceilDiv (taskOffsets s).length 2) m)) := by
  have hranges := (HasSent.refl s).foldl (fun c => brxRepl b c.engine c.ofs c.tag c.data) cap
  have hexec : exec .replTransmit s = .next (onFo (fun f => { f with repl := { f.repl with sent := true } }) (sendBrx (brxReplEnd b
      ((cap.map (fun c => ceilDiv c.data.length 32)).sum + ceilDiv (taskOffsets s).length 2))
      (sendTasks b (taskOffsets s) (cap.foldl (fun s c => sendBrx (brxRepl b c.engine c.ofs c.tag c.data) s) s)))) := by
    show execReplTransmit s = _
    simp [execReplTransmit, sendTasks, hc, hst, hs, hl, hranges.taskOffsets]
  obtain ⟨o, n, ht⟩ := hranges.sendTasks b (taskOffsets s)
  rw [hexec, ht]
  exact ⟨_ :: o, _, rfl, _, rfl⟩

/-- A unit that receives applies what was complete before the frame (R428). -/
theorem replApply_applies {s : State} (h : receivesRepl s = true) :
    exec .replApply s = .next ((s.fo.repl.rx.filter (fun e =>
      e.2.completeAt.any (fun t => decide (0 < ltDiff s.fb.frameLt t)))).reverse.foldl (fun s e => applyRepl e s) s) := by
  show execReplApply s = _
  unfold execReplApply
  rw [if_neg (by simp [h])]
  dsimp only
  congr 4
  funext e
  cases e.2.completeAt <;> rfl

theorem replApply_idle {s : State} (h : receivesRepl s = false) : exec .replApply s = .next s := if_pos (by simp [h])

/-- Settles O48: every message by what FO takes of it and by its type's effect (the layouts and what makes it whole are log 142), every event by
what it does where it is due and where it is not. -/
theorem failoverMessages : Obligations.FailoverMessages := by
  unfold Obligations.FailoverMessages
  refine ⟨fun s h => heartbeatTx_sends h, fun s h => heartbeatTx_idle h,
    fun s w h p hh => heartbeatRx_whole hh rfl rfl, fun s w hh => show execHeartbeatRx w s = _ from brxRx_broken hh, ?_, ?_,
    fun s hd hp => ⟨partnerLost_due hd, losePartner_freezes hp⟩, fun s h => partnerLost_idle h, fun s => ⟨rfl, rfl⟩,
    fun s w h p hh => show execRelinquishRx w s = _ from brxRx_whole hh, fun s w hh => show execRelinquishRx w s = _ from brxRx_broken hh,
    fun s w h p hh => show execGooseStRx w s = _ from brxRx_whole hh, fun s w hh => show execGooseStRx w s = _ from brxRx_broken hh,
    fun s w h p hh => show execReplRx w s = _ from brxRx_whole hh, fun s w hh => show execReplRx w s = _ from brxRx_broken hh,
    fun s w h p hh => show execTasksRx w s = _ from brxRx_whole hh, fun s w hh => show execTasksRx w s = _ from brxRx_broken hh,
    fun s w h p hh => show execReplEndRx w s = _ from brxRx_whole hh, fun s w hh => show execReplEndRx w s = _ from brxRx_broken hh,
    fun s t f => ⟨modRx_receiving t f, modRx_notReceiving t f⟩,
    fun s b cap l hc hst hs hl => replTransmit_sends hc hst hs hl, fun s h => replTransmit_idle h,
    fun s h => replApply_applies h, fun s h => replApply_idle h⟩
  · exact fun s m => ⟨arbitrate_over, fun hst hd => ⟨arbitrate_underActive hst hd, arbitrate_loses hst hd, arbitrate_wins hst hd⟩⟩
  · exact fun s m k => ⟨resolveSplit_none k,
      fun hst hm hle => (resolveSplit_known hst hm).trans (if_neg (Nat.not_lt.2 hle)),
      fun hst hm hlt => (resolveSplit_known hst hm).trans (if_pos hlt)⟩

end Sys2Proof.Machine
end

section
/-! Roles of the units of a pair (O49): discovery, held takeover, handover, triggers, epoch reset and swaps, each where it is due and where it is
not, and what the FO commands answer. -/

namespace Sys2Proof.Machine

/-! ## Discovery and takeover (R423, R433, R434) -/

section
variable {s : State}

theorem discoveryTimeout_forms {t : LT} (ht : s.fo.discoverAt = some t) (hst : s.fo.state = .start) (hp : s.fo.partner ≠ .present)
    (hr : ltReached s.now t = true) (he : s.fo.eMem ≠ 0xFFFFFF) :
    exec .discoveryTimeout s = .next (formClaim false (onFo (fun f => { f with discoverAt := none }) s)) := by
  show execDiscoveryTimeout s = _
  unfold execDiscoveryTimeout
  rw [ht]
  exact if_neg (by simp only [hst, hp, hr, he]; decide)

theorem discoveryTimeout_idle (h : ∀ t, s.fo.discoverAt = some t →
      s.fo.state ≠ .start ∨ s.fo.partner = .present ∨ ltReached s.now t = false ∨ s.fo.eMem = 0xFFFFFF) :
    exec .discoveryTimeout s = .next s := by
  show execDiscoveryTimeout s = _
  unfold execDiscoveryTimeout
  split
  · rfl
  · next t ht => exact if_pos (by simpa using h t ht)

theorem witnessClear_held (h : s.fo.witnessHeld = true) : exec .witnessClear s = .next (witnessTakeover s) := if_pos h

theorem handoverEnd_due {t : LT} (ht : s.fo.handoverAt = some t) (hr : ltReached s.now t = true) :
    exec .handoverEnd s = .next ((List.range 256).foldl (fun u p => if mayPublish u p then newGoState p s.fo.claimAt true u else u)
      (onFo (fun f => { f with handoverAt := none, streamFrom := some t }) s)) := by
  show execHandoverEnd s = _
  simp [execHandoverEnd, ht, hr]

theorem handoverEnd_idle (h : ∀ t, s.fo.handoverAt = some t → ltReached s.now t = false) : exec .handoverEnd s = .next s := by
  show execHandoverEnd s = _
  unfold execHandoverEnd
  split
  · next t ht => exact if_pos (by simp [h t ht])
  · rfl

/-! ## Triggers (R430) -/

theorem timeSvTrigger_due {t : Nat} (ht : s.fo.timeSvSince = some t) (hc : timeSvCond s = true) (hd : t + msTu s.fo.cfg.tDiagMs ≤ s.abs) :
    exec .timeSvTrigger s = .next (setTrigger 2 s.fo.cfg.timeSvEn s) := by
  show execTimeSvTrigger s = _
  simp [execTimeSvTrigger, ht, hc, hd]

theorem timeSvTrigger_idle (h : ∀ t, s.fo.timeSvSince = some t → timeSvCond s = false ∨ s.abs < t + msTu s.fo.cfg.tDiagMs) :
    exec .timeSvTrigger s = .next s := by
  show execTimeSvTrigger s = _
  unfold execTimeSvTrigger
  split
  · next t ht =>
    refine if_neg fun hdue => ?_
    obtain ⟨hc, hd⟩ := by simpa using hdue
    rcases h t ht with hn | hn
    · simp [hn] at hc
    · omega
  · rfl

/-! ## The epoch reset (R414, R415) -/

/-- A unit that may form its claim after an epoch reset: one is due, the claims heard are forgotten, and it stands by with no partner present, or
with one that is not active and of lower PRIO. -/
def resetClaimDue (s : State) : Prop :=
  s.fo.epochClaimDue = true ∧ claimsForgotten s = true ∧ s.fo.state = .standby ∧
    (s.fo.partner ≠ .present ∨ s.fo.hb.active = false ∧ (partnerPrio s).toNat < s.fo.cfg.prio.toNat)

theorem epochTry_clears (h : s.fo.epochRst = true) (hc : (partnerReset s && claimsForgotten s) = true) :
    epochTry s = epochTry (onFo (fun f => { f with epochRst := false }) s) := by
  simp only [Bool.and_eq_true] at hc
  simp [epochTry, h, hc]

theorem epochTry_waits (h : s.fo.epochRst = true) (hc : (partnerReset s && claimsForgotten s) = false) : epochTry s = s := by
  simp [epochTry, h, hc]

theorem epochTry_forms (h : s.fo.epochRst = false) (hd : resetClaimDue s) : epochTry s = formClaim true s := by
  obtain ⟨hdue, hforgot, hst, hp⟩ := hd
  unfold epochTry
  rcases hp with hp | ⟨hactive, hprio⟩
  · simp [h, hdue, hforgot, hst, hp]
  · simp [h, hdue, hforgot, hst, hactive, hprio]

theorem epochTry_idle (h : s.fo.epochRst = false) (hd : ¬resetClaimDue s) : epochTry s = s := by
  unfold epochTry
  simp only [h, Bool.false_and, Bool.false_eq_true, if_false]
  split
  · rfl
  · next hgo =>
    split
    · rfl
    · next hlow =>
      obtain ⟨hdue, hforgot, hst, hpassive⟩ : s.fo.epochClaimDue = true ∧ claimsForgotten s = true ∧ s.fo.state = .standby ∧
          (s.fo.partner = .present → s.fo.hb.active = false) := by simpa using hgo
      refine absurd ⟨hdue, hforgot, hst, ?_⟩ hd
      by_cases hp : s.fo.partner = .present
      · exact .inr ⟨hpassive hp, by simpa [hp] using hlow⟩
      · exact .inl hp

end

/-! ## Swaps (R438) -/

section
variable {s : State} (w : Waiting)

theorem doSwap_active (h : s.fo.state = .active) :
    doSwap w s = relinquish 6 .standby (onFo (fun f => { f with swapWait := f.swapWait ++ [(s.fo.claim, w)] }) s) :=
  if_neg (not_not.2 h)

theorem doSwap_notActive (h : s.fo.state ≠ .active) : doSwap w s = reply w (st .notReady) s := if_pos h

end

/-! ## Commands (R414, R415, R432, R438, R441) -/

section
variable {s : State} {c : Cmd}

section
variable (h : runs 0x0E10 false c s = true)
include h

theorem execFoRelinquish_givesUp (hst : (entered 0x0E10 c s).fo.state = .active) :
    execFoRelinquish c s = answered 0x0E10 c (st .ok) (relinquish 5 .relinquished (entered 0x0E10 c s)) :=
  command_answered h (if_neg (not_not.2 hst))

theorem execFoRelinquish_notReady (hst : (entered 0x0E10 c s).fo.state ≠ .active) :
    execFoRelinquish c s = answered 0x0E10 c (st .notReady) (entered 0x0E10 c s) := command_answered h (if_pos hst)

end

section
variable (h : runs 0x0E11 false c s = true)
include h

theorem execFoSwap_notReady (hn : (entered 0x0E11 c s).fo.state ≠ .active ∨ (entered 0x0E11 c s).fo.partner ≠ .present ∨
      (entered 0x0E11 c s).fo.hb.eligible = false ∨ (entered 0x0E11 c s).fo.hb.diag ≠ 0) :
    execFoSwap c s = answered 0x0E11 c (st .notReady) (entered 0x0E11 c s) :=
  command_answered h (if_pos (by simpa using hn))

section
variable (hst : (entered 0x0E11 c s).fo.state = .active) (hp : (entered 0x0E11 c s).fo.partner = .present)
  (he : (entered 0x0E11 c s).fo.hb.eligible = true) (hd : (entered 0x0E11 c s).fo.hb.diag = 0)
include hst hp he hd

theorem execFoSwap_busy (hb : segBusy (entered 0x0E11 c s) = true) :
    execFoSwap c s = answered 0x0E11 c (st .busy) (entered 0x0E11 c s) :=
  command_answered h (by simp only [hst, hp, he, hd, hb]; rfl)

theorem execFoSwap_waits (hb : segBusy (entered 0x0E11 c s) = false) :
    execFoSwap c s = .next (outstanding { cmd := c, opcode := 0x0E11 } (onFo (fun f => { f with
      swapAt := f.swapAt ++ [(ltAdd (entered 0x0E11 c s).now (msTu 1), { cmd := c, opcode := 0x0E11 })] }) (entered 0x0E11 c s))) :=
  command_outstanding h (by simp only [hst, hp, he, hd, hb]; rfl)

end
end

section
variable (h : runs 0x0E12 false c s = true)
include h

theorem execFoRearm_standsBy (hst : (entered 0x0E12 c s).fo.state = .relinquished) :
    execFoRearm c s = answered 0x0E12 c (st .ok)
      (setRole .standby (onFo (fun f => { f with diag := f.diag &&& ~~~2 }) (entered 0x0E12 c s))) :=
  command_answered h (if_neg (not_not.2 hst))

theorem execFoRearm_notReady (hst : (entered 0x0E12 c s).fo.state ≠ .relinquished) :
    execFoRearm c s = answered 0x0E12 c (st .notReady) (entered 0x0E12 c s) := command_answered h (if_pos hst)

end

section
variable (h : runs 0x0E13 false c s = true)
include h

theorem execFoEpochReset_resets (hst : (entered 0x0E13 c s).fo.state ≠ .active)
    (hp : (entered 0x0E13 c s).fo.partner ≠ .present ∨ (entered 0x0E13 c s).fo.hb.active = false) :
    execFoEpochReset c s = answered 0x0E13 c (st .ok)
      (onFo (fun f => { f with eMem := 0, epochRst := true, epochClaimDue := true }) (entered 0x0E13 c s)) := by
  refine command_answered h (if_neg ?_)
  rintro (hactive | ⟨hpresent, hbeat⟩)
  · exact hst hactive
  · rcases hp with hp | hp
    · exact hp hpresent
    · exact Bool.false_ne_true (hp.symm.trans hbeat)

theorem execFoEpochReset_busy (hst : (entered 0x0E13 c s).fo.state = .active ∨
      (entered 0x0E13 c s).fo.partner = .present ∧ (entered 0x0E13 c s).fo.hb.active = true) :
    execFoEpochReset c s = answered 0x0E13 c (st .busy) (entered 0x0E13 c s) := command_answered h (if_pos hst)

end
end

/-- Settles O49: every event by what it does where it is due and where it is not (after an epoch reset a claim is formed without regard to
eligibility, log 28), every command by its body on the state it enters, a claim by the registers it leaves. -/
theorem failoverRoles : Obligations.FailoverRoles := by
  unfold Obligations.FailoverRoles
  refine ⟨fun s t ht hst hp hr he => discoveryTimeout_forms ht hst hp hr he, fun s h => discoveryTimeout_idle h, ?_, ?_, ?_,
    fun s h => if_neg (by simp [h]), fun s t ht hr => handoverEnd_due ht hr, fun s h => handoverEnd_idle h,
    fun s h => if_neg (Int.not_lt.2 h), fun s h => if_pos h, fun s t ht hc hd => timeSvTrigger_due ht hc hd, fun s h => timeSvTrigger_idle h,
    fun s h hc => congrArg Host.Outcome.next (epochTry_clears h hc), fun s h hc => congrArg Host.Outcome.next (epochTry_waits h hc),
    fun s h hd => congrArg Host.Outcome.next (epochTry_forms h hd), fun s h hd => congrArg Host.Outcome.next (epochTry_idle h hd),
    fun s => rfl, fun s w => ⟨doSwap_active w, doSwap_notActive w⟩, fun s => rfl,
    fun s c h hst => execFoRelinquish_givesUp h hst, fun s c h hst => execFoRelinquish_notReady h hst,
    fun s c h hst hp he hd hb => execFoSwap_waits h hst hp he hd hb, fun s c h hst hp he hd hb => execFoSwap_busy h hst hp he hd hb,
    fun s c h hn => execFoSwap_notReady h hn, fun s c h hst => execFoRearm_standsBy h hst, fun s c h hst => execFoRearm_notReady h hst,
    fun s c h hst hp => execFoEpochReset_resets h hst hp, fun s c h hst => execFoEpochReset_busy h hst,
    fun s c h => answer_runs h _, fun s k => ⟨formClaim_exhausted k, fun h => ?_⟩⟩
  · intro s hh hst hp he hw
    rw [witnessClear_held hh, witnessTakeover_forms hst hp he hw]
  · intro s hh hst hp he hw
    rw [witnessClear_held hh, witnessTakeover_holds hst hp he hw]
  · intro s hh hn
    rw [witnessClear_held hh, witnessTakeover_drops hn]
  · obtain ⟨hst, heMem, hclaim, -, -⟩ := formClaim_fo k h
    exact ⟨hst, heMem, hclaim⟩

end Sys2Proof.Machine
end

section
/-! What the shared operations of the metrology die leave of it, and its service port (O51): every command by the one response that answers a
frame (R452), each case of its body by the refusal or the work that decides it. -/

namespace Sys2Proof.Machine

/-! ## What a log record, an update, an interval and a change of seal state leave of the die -/

/-- What of the die lasts through a log record, a mailbox update, an interval and a change of its seal state or set: of a point its registers
alone, of the rest all but the log, the mailbox link, the page's sequence word, the seal states and the sets. -/
def MiState.lasting (m : MiState) : MiState :=
  { m with
    sealSt := .blank, sealNext := none, params := none, paramsNext := none, mramSeal := .blank, log := [], logSeq := 0, logLost := 0, pageSeq := 0
    mailLink := [], point := m.point.map (fun x => { reg := x.reg }) }

@[simp] theorem pushMail_lasting (u s) : (pushMail u s).mi.lasting = s.mi.lasting := rfl

@[simp] theorem pushPage_lasting (s) : (pushPage s).mi.lasting = s.mi.lasting := rfl

@[simp] theorem miLog_lasting (type point arg0 arg1 s) : (miLog type point arg0 arg1 s).mi.lasting = s.mi.lasting := by
  unfold miLog
  split <;> rfl

/-- A point changed but for its registers is the same to what lasts. -/
theorem modPt_lasting (p f s) (hf : ∀ x, (f x).reg = x.reg := by exact fun _ => rfl) : (modPt p f s).mi.lasting = s.mi.lasting := by
  have hmap : (vmod s.mi.point p f).map (fun x => ({ reg := x.reg } : MiPoint)) = s.mi.point.map (fun x => { reg := x.reg }) := by
    by_cases hp : p < 8
    · rw [vmod_lt _ _ _ hp]
      ext1 i hi
      by_cases h : p = i
      · subst h
        simp [hf]
      · simp [h]
    · simp [vmod, hp]
  unfold modPt MiState.lasting
  rw [onMi_mi, hmap]

/-- A list of changes each of which leaves what lasts leaves it. -/
theorem foldl_lasting {α : Type} {f : State → α → State} (h : ∀ s a, (f s a).mi.lasting = s.mi.lasting) (l : List α) (s : State) :
    (l.foldl f s).mi.lasting = s.mi.lasting := by
  induction l generalizing s with
  | nil => rfl
  | cons a l ih => exact (ih _).trans (h s a)

@[simp] theorem ite_lasting (p : Prop) [Decidable p] (s t : State) :
    (if p then s else t).mi.lasting = if p then s.mi.lasting else t.mi.lasting := apply_ite (fun u => u.mi.lasting) p s t

@[simp] theorem pushBlock_lasting (p s) : (pushBlock p s).mi.lasting = s.mi.lasting := by
  have hseq := modPt_lasting p (fun x => { x with seq := x.seq + 2 }) s
  unfold pushBlock
  split <;> exact hseq

@[simp] theorem markInterval_lasting (p gap s) : (markInterval p gap s).mi.lasting = s.mi.lasting := modPt_lasting p _ s

@[simp] theorem closeInterval_lasting (p tag tai s) : (closeInterval p tag tai s).mi.lasting = s.mi.lasting :=
  (pushBlock_lasting p _).trans (modPt_lasting p _ s)

@[simp] theorem judgeInterval_lasting (p tag s) : (judgeInterval p tag s).mi.lasting = s.mi.lasting := by
  unfold judgeInterval
  dsimp only
  split
  · exact modPt_lasting p _ s
  · split
    · exact closeInterval_lasting ..
    · rfl

@[simp] theorem cutInterval_lasting (p at_ regs s) : (cutInterval p at_ regs s).mi.lasting = s.mi.lasting := by
  unfold cutInterval
  dsimp only
  split
  · rfl
  · split
    · rfl
    · exact modPt_lasting p _ s

@[simp] theorem applyPending_lasting (s) : (applyPending s).mi.lasting = s.mi.lasting := by
  unfold applyPending
  split
  · rfl
  · refine (pushPage_lasting _).trans ((foldl_lasting (fun u p => ?_) _ _).trans rfl)
    split <;> exact modPt_lasting p _ u

@[simp] theorem setSeal_lasting (x s) : (setSeal x s).mi.lasting = s.mi.lasting := by
  unfold setSeal
  dsimp only
  split
  · rfl
  · exact applyPending_lasting _

/-! ## The one response of a frame (R452) -/

section
variable {s t : State} {f b : List Byte} {k : BitVec 8} {mine : BitVec 8 → Bool} {act : List Byte → State → State × BitVec 8 × List Byte}

/-- A powered die sends what the command of a frame that reads gives. -/
theorem service_served {code : BitVec 8} {bytes : List Byte} (hp : s.mi.powered = true) (hr : svcRead f = some (k, b)) (hm : mine k = true)
    (ha : act b s = (t, code, bytes)) : service mine f s act = served k code bytes t := by
  unfold service
  rw [hr]
  simp [hp, hm, ha, served]

/-- The same where the state that the command leaves is known by what holds of it. -/
theorem service_served_exists {code : BitVec 8} {bytes : List Byte} {P : State → Prop} (hp : s.mi.powered = true) (hr : svcRead f = some (k, b))
    (hm : mine k = true) (ha : ∃ t, act b s = (t, code, bytes) ∧ P t) : ∃ t, service mine f s act = served k code bytes t ∧ P t := by
  obtain ⟨t, ha, ht⟩ := ha
  exact ⟨t, service_served hp hr hm ha, ht⟩

/-- Nothing answers a frame that reaches a die without power, does not read, or is of no command that answers here. -/
theorem service_ignored (h : s.mi.powered = false ∨ ∀ k b, svcRead f = some (k, b) → mine k = false) : service mine f s act = .next s := by
  unfold service
  split
  · rfl
  · next k b hr => exact if_pos (by simpa using h.imp_right (· k b hr))

/-- The same for a meaning of one command. -/
theorem service_notMine (h : s.mi.powered = false ∨ ∀ b, svcRead f ≠ some (k, b)) : service (· == k) f s act = .next s := by
  refine service_ignored (h.imp_right fun hr j b hj => beq_eq_false_iff_ne.2 ?_)
  rintro rfl
  exact hr b hj

end

/-! ## Reads (R453) -/

section
variable {s : State} {f b : List Byte} (hp : s.mi.powered = true)
include hp

theorem readId_answers (hr : svcRead f = some (1, [])) :
    execReadId f s = served 1 0 (bytesBE 4 Config.miFwVersion.toNat ++ bytesBE 32 (miHash s).toNat ++ bytesBE 32 Config.miFwHash.toNat ++
      bytesBE 4 s.mi.pcc.toNat ++ bytesBE 4 s.mi.unsealCount.toNat ++ [BitVec.ofNat 8 (sealCode s.mi.sealSt)]) s :=
  service_served hp hr rfl (if_neg (not_not.2 rfl))

theorem readId_refuses (hr : svcRead f = some (1, b)) (hb : b ≠ []) : execReadId f s = served 1 3 [] s :=
  service_served hp hr rfl (if_pos hb)

theorem readParam_answers (hr : svcRead f = some (2, b)) (hb : b.length = 4) (h1 : 1 ≤ ofBytesBE (b.drop 2)) (h2 : ofBytesBE (b.drop 2) ≤ 8192)
    (h3 : ofBytesBE (b.take 2) + ofBytesBE (b.drop 2) ≤ (miSet s).length) :
    execReadParam f s = served 2 0 (((miSet s).drop (ofBytesBE (b.take 2))).take (ofBytesBE (b.drop 2))) s :=
  service_served hp hr rfl (if_neg (by omega))

theorem readParam_refuses (hr : svcRead f = some (2, b)) (h : b.length ≠ 4 ∨ ofBytesBE (b.drop 2) = 0 ∨ 8192 < ofBytesBE (b.drop 2) ∨
      (miSet s).length < ofBytesBE (b.take 2) + ofBytesBE (b.drop 2)) : execReadParam f s = served 2 3 [] s :=
  service_served hp hr rfl (if_pos (by omega))

theorem readLog_answers (hr : svcRead f = some (7, b)) (hb : b.length = 4) (h1 : 1 ≤ ofBytesBE (b.drop 2)) (h2 : ofBytesBE (b.drop 2) ≤ 255)
    (h3 : ofBytesBE (b.take 2) < s.mi.log.length) :
    execReadLog f s = served 7 0 (((s.mi.log.drop (ofBytesBE (b.take 2))).take (ofBytesBE (b.drop 2))).flatMap miRecBytes) s :=
  service_served hp hr rfl (if_neg (by omega))

theorem readLog_refuses (hr : svcRead f = some (7, b)) (h : b.length ≠ 4 ∨ ofBytesBE (b.drop 2) = 0 ∨ 255 < ofBytesBE (b.drop 2) ∨
      s.mi.log.length ≤ ofBytesBE (b.take 2)) : execReadLog f s = served 7 3 [] s :=
  service_served hp hr rfl (if_pos (by omega))

theorem miUnknownCommand_frameErr {k : BitVec 8} (hr : svcRead f = some (k, b)) (hk : k = 0 ∨ 7 < k.toNat) :
    execMiUnknownCommand f s = served k 2 [] s := by
  refine service_served hp hr ?_ rfl
  rcases hk with rfl | hk
  · rfl
  · simp [hk]

end

theorem miUnknownCommand_ignored {s : State} {f : List Byte}
    (h : s.mi.powered = false ∨ ∀ k b, svcRead f = some (k, b) → 1 ≤ k.toNat ∧ k.toNat ≤ 7) : execMiUnknownCommand f s = .next s :=
  service_ignored (h.imp_right fun hr k b hk => by simpa using hr k b hk)

/-! ## WRITE_PARAM (R453, R455) -/

section
variable {s : State} {f b l k : List Byte} {a : Nat} (hp : s.mi.powered = true)
include hp

theorem writeParam_sealed (hr : svcRead f = some (3, b)) (hs : sealLast s = .sealed) : execWriteParam f s = served 3 1 [] s :=
  service_served hp hr rfl (if_pos hs)

variable (hs : sealLast s ≠ .sealed)
include hs

theorem writeParam_logFull (hr : svcRead f = some (3, b)) (hl : 4096 ≤ s.mi.log.length) : execWriteParam f s = served 3 4 [] s :=
  service_served hp hr rfl ((if_neg hs).trans (if_pos hl))

variable (hl : s.mi.log.length < 4096)
include hl

theorem writeParam_part0 (hr : svcRead f = some (3, 0 :: l)) (h : l.length = 4096) :
    execWriteParam f s = served 3 0 [] (onMi (fun m => { m with part0 := some (l, s.abs) }) s) :=
  service_served hp hr rfl ((if_neg hs).trans ((if_neg (Nat.not_le.2 hl)).trans (if_pos h)))

theorem writeParam_part0_length (hr : svcRead f = some (3, 0 :: l)) (h : l.length ≠ 4096) : execWriteParam f s = served 3 3 [] s :=
  service_served hp hr rfl ((if_neg hs).trans ((if_neg (Nat.not_le.2 hl)).trans (if_neg h)))

theorem writeParam_noPart (hr : svcRead f = some (3, b)) (h0 : ∀ l, b ≠ 0 :: l) (h1 : s.mi.part0 = none ∨ ∀ l, b ≠ 1 :: l) :
    execWriteParam f s = served 3 3 [] s := by
  refine service_served hp hr rfl ((if_neg hs).trans ((if_neg (Nat.not_le.2 hl)).trans ?_))
  split
  · next l => exact absurd rfl (h0 l)
  · next l k a ha =>
    rcases h1 with h1 | h1
    · exact absurd (ha.symm.trans h1) (by simp)
    · exact absurd rfl (h1 l)
  · rfl

theorem writeParam_refuses (hr : svcRead f = some (3, 1 :: l)) (ha : s.mi.part0 = some (k, a)) (h : a + secTu 10 < s.abs ∨ setOk (k ++ l) = false) :
    execWriteParam f s = served 3 3 [] (onMi (fun m => { m with part0 := none }) s) := by
  refine service_served hp hr rfl ((if_neg hs).trans ((if_neg (Nat.not_le.2 hl)).trans ?_))
  simp only [BitVec.ofNat_eq_ofNat, ha]
  exact if_pos (h.imp_right (by simp [·]))

/-- A set that passes stands in both copies and is counted; what its entry into force and its log records change is not that. -/
theorem writeParam_enters (hr : svcRead f = some (3, 1 :: l)) (ha : s.mi.part0 = some (k, a)) (ht : s.abs ≤ a + secTu 10)
    (hok : setOk (k ++ l) = true) :
    ∃ t, execWriteParam f s = served 3 0 [] t ∧ t.mi.pcc = s.mi.pcc + 1 ∧ t.mi.mram = .replicate 2 (some (k ++ l)) ∧ t.mi.part0 = none := by
  suffices h : ∃ t, execWriteParam f s = served 3 0 [] t ∧ t.mi.lasting =
      { s.mi.lasting with pcc := s.mi.pcc + 1, mram := .replicate 2 (some (k ++ l)), mramSeen := true, part0 := none } by
    obtain ⟨t, hexec, hlast⟩ := h
    exact ⟨t, hexec, congrArg MiState.pcc hlast, congrArg MiState.mram hlast, congrArg MiState.part0 hlast⟩
  refine service_served_exists hp hr rfl ?_
  rw [if_neg hs, if_neg (Nat.not_le.2 hl)]
  simp only [BitVec.ofNat_eq_ofNat, ha]
  refine ⟨_, if_neg (not_or.2 ⟨Nat.not_lt.2 ht, by simp [hok]⟩), ?_⟩
  simp only [miLog_lasting, setSeal_lasting, applyPending_lasting, ite_lasting, ite_self]
  rfl

end

theorem writeParamTimeout_due {s : State} {x : List Byte × Nat} (hx : s.mi.part0 = some x) (h : x.2 + secTu 10 ≤ s.abs) :
    execWriteParamTimeout s = .next (onMi (fun m => { m with part0 := none }) s) := by
  unfold execWriteParamTimeout
  rw [hx]
  exact if_pos h

theorem writeParamTimeout_idle {s : State} (h : ∀ x, s.mi.part0 = some x → s.abs < x.2 + secTu 10) : execWriteParamTimeout s = .next s := by
  unfold execWriteParamTimeout
  split
  · next l t hx => exact if_neg (Nat.not_le.2 (h _ hx))
  · rfl

/-! ## SEAL (R449, R453) -/

section
variable {s : State} {f b : List Byte} (hp : s.mi.powered = true) (hr : svcRead f = some (4, b))
include hp hr

theorem seal_sealed (hs : sealLast s = .sealed) : execSeal f s = served 4 1 [] s := service_served hp hr rfl (if_pos hs)

theorem seal_badParam (hs : sealLast s ≠ .sealed) (h : b.length ≠ 32 ∨ sealLast s ≠ .unsealed) : execSeal f s = served 4 3 [] s :=
  service_served hp hr rfl ((if_neg hs).trans (if_pos h))

variable (hb : b.length = 32) (hs : sealLast s = .unsealed)
include hb hs

theorem seal_open (hc : s.mi.sealClosed = false) : execSeal f s = served 4 5 [] s :=
  service_served hp hr rfl (by simp [hb, hs, hc, svcSealOpen])

variable (hc : s.mi.sealClosed = true)
include hc

theorem seal_mismatch (hh : ofBytesBE b ≠ (miHash s).toNat) : execSeal f s = served 4 6 [] s :=
  service_served hp hr rfl (by simp [hb, hs, hc, hh, svcHashMismatch])

variable (hh : ofBytesBE b = (miHash s).toNat)
include hh

theorem seal_logFull (hl : 4096 ≤ s.mi.log.length) : execSeal f s = served 4 4 [] s :=
  service_served hp hr rfl (by simp [hb, hs, hc, hh, hl, svcLogFull])

theorem seal_seals (hl : s.mi.log.length < 4096) : execSeal f s = served 4 0 [] (miLog 0x0011 0xFF 0 (hash8 s) (setSeal .sealed s)) :=
  service_served hp hr rfl (by simp [hb, hs, hc, hh, Nat.not_le.2 hl, svcOk])

end

/-! ## RESET_REGISTERS (R451, R453) -/

section
variable {s : State} {f b : List Byte} (hp : s.mi.powered = true)
include hp

theorem resetRegisters_sealed (hr : svcRead f = some (5, b)) (hs : sealLast s = .sealed) : execResetRegisters f s = served 5 1 [] s :=
  service_served hp hr rfl (if_pos hs)

theorem resetRegisters_logFull (hr : svcRead f = some (5, b)) (hs : sealLast s ≠ .sealed) (hl : 4096 ≤ s.mi.log.length) :
    execResetRegisters f s = served 5 4 [] s :=
  service_served hp hr rfl ((if_neg hs).trans (if_pos hl))

variable (hl : s.mi.log.length < 4096)
include hl

theorem resetRegisters_badParam (hr : svcRead f = some (5, b)) (hs : sealLast s ≠ .sealed) (h : b.length ≠ 1 ∨ sealLast s ≠ .unsealed) :
    execResetRegisters f s = served 5 3 [] s := by
  refine service_served hp hr rfl ((if_neg hs).trans ((if_neg (Nat.not_le.2 hl)).trans ?_))
  by_cases hu : sealLast s = .unsealed
  · rw [if_neg (not_not.2 hu)]
    split
    · exact absurd rfl (h.resolve_right (not_not.2 hu))
    · rfl
  · exact if_pos hu

theorem resetRegisters_resets {m : Byte} (hr : svcRead f = some (5, [m])) (hs : sealLast s = .unsealed) :
    execResetRegisters f s = served 5 0 [] ((List.range 8).foldl (fun s p => if m.getLsbD p then resetPoint p s else s) s) :=
  service_served hp hr rfl ((if_neg (by simp [hs])).trans ((if_neg (Nat.not_le.2 hl)).trans (if_neg (not_not.2 hs))))

end

/-! ## CLEAR_LOG (R451, R474) -/

section
variable {s : State} {f b : List Byte} (hp : s.mi.powered = true)
include hp

theorem clearLog_sealed (hr : svcRead f = some (6, b)) (hs : sealLast s = .sealed) : execClearLog f s = served 6 1 [] s :=
  service_served hp hr rfl (if_pos hs)

theorem clearLog_badParam (hr : svcRead f = some (6, b)) (hs : sealLast s ≠ .sealed) (h : b ≠ [] ∨ sealLast s ≠ .unsealed) :
    execClearLog f s = served 6 3 [] s :=
  service_served hp hr rfl ((if_neg hs).trans (if_pos h.symm))

theorem clearLog_clears (hr : svcRead f = some (6, [])) (hs : sealLast s = .unsealed) :
    execClearLog f s = served 6 0 [] (miLog 0x0013 0xFF (BitVec.ofNat 32 s.mi.log.length) 0
      (pushMail .cleared (onMi (fun m => { m with log := [], logSeq := 1 }) s))) :=
  service_served hp hr rfl ((if_neg (by simp [hs])).trans (if_neg (by simp [hs])))

end

/-- Settles O51: each command by the refusals in their order and then by its work; BAD_PARAM for RESET_REGISTERS and CLEAR_LOG in BLANK or FAULT is
log 94, the forms of the bodies, the numbering of READ_LOG and the hash of SEAL are log 144. -/
theorem metrologyServicePort : Obligations.MetrologyServicePort := by
  unfold Obligations.MetrologyServicePort
  exact ⟨fun s f hp hr => readId_answers hp hr, fun s f b hp hr hb => readId_refuses hp hr hb,
    fun s f h => show execReadId f s = _ from service_notMine h,
    fun s f b hp hr hb h1 h2 h3 => readParam_answers hp hr hb h1 h2 h3, fun s f b hp hr h => readParam_refuses hp hr h,
    fun s f h => show execReadParam f s = _ from service_notMine h,
    fun s f b hp hr hs => writeParam_sealed hp hr hs, fun s f b hp hr hs hl => writeParam_logFull hp hs hr hl,
    fun s f l hp hr hs hl h => writeParam_part0 hp hs hl hr h, fun s f l hp hr hs hl h => writeParam_part0_length hp hs hl hr h,
    fun s f l k a hp hr hs hl ha h => writeParam_refuses hp hs hl hr ha h,
    fun s f b hp hr hs hl h0 h1 => writeParam_noPart hp hs hl hr h0 h1,
    fun s f h => show execWriteParam f s = _ from service_notMine h,
    fun s f l k a hp hr hs hl ha ht hok => writeParam_enters hp hs hl hr ha ht hok,
    fun s f b hp hr hs => seal_sealed hp hr hs, fun s f b hp hr hs h => seal_badParam hp hr hs h,
    fun s f b hp hr hb hs hc => seal_open hp hr hb hs hc, fun s f b hp hr hb hs hc hh => seal_mismatch hp hr hb hs hc hh,
    fun s f b hp hr hb hs hc hh hl => seal_logFull hp hr hb hs hc hh hl, fun s f b hp hr hb hs hc hh hl => seal_seals hp hr hb hs hc hh hl,
    fun s f h => show execSeal f s = _ from service_notMine h,
    fun s f b hp hr hs => resetRegisters_sealed hp hr hs, fun s f b hp hr hs hl => resetRegisters_logFull hp hr hs hl,
    fun s f b hp hr hs hl h => resetRegisters_badParam hp hl hr hs h, fun s f m hp hr hs hl => resetRegisters_resets hp hl hr hs,
    fun s f h => show execResetRegisters f s = _ from service_notMine h,
    fun s f b hp hr hs => clearLog_sealed hp hr hs, fun s f b hp hr hs h => clearLog_badParam hp hr hs h,
    fun s f hp hr hs => clearLog_clears hp hr hs, fun s f h => show execClearLog f s = _ from service_notMine h,
    fun s f b hp hr hb h1 h2 h3 => readLog_answers hp hr hb h1 h2 h3, fun s f b hp hr h => readLog_refuses hp hr h,
    fun s f h => show execReadLog f s = _ from service_notMine h,
    fun s f k b hp hr hk => miUnknownCommand_frameErr hp hr hk, fun s f h => miUnknownCommand_ignored h, fun s f => rfl,
    fun s x hx h => writeParamTimeout_due hx h, fun s h => writeParamTimeout_idle h⟩

end Sys2Proof.Machine
end

section
/-! The metrology die and what reaches it (O50): the tap link, its timers, its power and seal switch, and the mailbox store, each event by what it
does where it is due and where it is not. -/

namespace Sys2Proof.Machine

/-! ## The tap link (R443, R446, R447) -/

section
variable {s : State} {f : SvFrame} {bad : Nat} {x : Frame} {r : LT} {g : Tag} {l : List (Frame × LT × Tag)}

theorem miTapFrame_empty (h : s.px.tapLink = []) : execMiTapFrame f bad s = .next s := by
  unfold execMiTapFrame
  rw [h]

variable (h : s.px.tapLink = (x, r, g) :: l)
include h

theorem miTapFrame_badWords (hb : bad ≠ 0) : execMiTapFrame f bad s = .next { s with
    px := { s.px with tapLink := l }, mi := { s.mi with tapDiscard := s.mi.tapDiscard + BitVec.ofNat 32 bad } } := by
  unfold execMiTapFrame
  rw [h]
  exact if_pos hb

variable (hb : bad = 0)
include hb

/-- A whole frame gives its samples to every point that meters, under the selections it matches. -/
theorem miTapFrame_samples {d : BitVec 48} {a : BitVec 16} {v : Option (BitVec 12)} {t : State} (hm : miMetering s = true) (hf : f.formOk = true)
    (h0 : f.asdus ≠ []) (h8 : f.asdus.length ≤ 8) (hk : f.key = .l2 d a v) (ht : t = { s with px := { s.px with tapLink := l } }) :
    execMiTapFrame f bad s = .next (f.asdus.foldl (fun s b => (List.range 8).foldl (fun u p => if ptOn u p then
      ((((List.range 16).zip (tapSels (miSet t))).filterMap (fun e => if e.2.valid ∧ e.2.dst = d ∧ e.2.appid = a then some e.1 else none))).foldl
        (fun u i => pointAsdu p i r b u) u else u) s) t) := by
  subst ht
  unfold execMiTapFrame
  rw [h]
  have hm' : miMetering { s with px := { s.px with tapLink := l } } = true := hm
  simp [hb, hm', hf, h0, h8, hk]

theorem miTapFrame_malformed (hn : miMetering s = false ∨ f.formOk = false ∨ f.asdus = [] ∨ 8 < f.asdus.length ∨
      ∀ d a v, f.key ≠ .l2 d a v) :
    execMiTapFrame f bad s = .next { s with px := { s.px with tapLink := l } } := by
  unfold execMiTapFrame
  rw [h]
  dsimp only
  rw [if_neg (not_not.2 hb)]
  rcases hn with hm | hf | h0 | h8 | hk
  · exact if_pos (by simp [show miMetering { s with px := { s.px with tapLink := l } } = false from hm])
  · exact if_pos (by simp [hf])
  · exact if_pos (by simp [h0])
  · exact if_pos (by simp [h8])
  · split
    · rfl
    · split
      · rfl
      · next d a v hl2 => exact absurd hl2 (hk d a v)

end

/-! ## Time records (R446) -/

section
variable {s : State} {bad : Bool} {r : TimeRec} {g : Tag} {l : List (TimeRec × Tag)}

theorem miTimeRecord_empty (h : s.mi.timeLink = []) : execMiTimeRecord bad s = .next s := by
  unfold execMiTimeRecord
  rw [h]

variable (h : s.mi.timeLink = (r, g) :: l)
include h

theorem miTimeRecord_bad (hb : bad = true) :
    execMiTimeRecord bad s = .next (onMi (fun m => { m with timeLink := l, tapDiscard := m.tapDiscard + 1 }) s) := by
  unfold execMiTimeRecord
  rw [h]
  exact if_pos hb

theorem miTimeRecord_noPower (hb : bad = false) (hp : s.mi.powered = false) :
    execMiTimeRecord bad s = .next (onMi (fun m => { m with timeLink := l }) s) := by
  unfold execMiTimeRecord
  rw [h]
  simp [hb, hp]

/-- A record taken is in force; what its log record and the intervals of silent points change is not that. -/
theorem miTimeRecord_taken (hb : bad = false) (hp : s.mi.powered = true) :
    ∃ t, execMiTimeRecord bad s = .next t ∧ t.mi.timeOk = (s.mi.timeOk || r.taiValid) ∧ t.mi.timeLink = l ∧
      t.mi.timeAt = (if r.taiValid then s.abs else s.mi.timeAt) ∧ t.mi.timeRec = some r := by
  suffices h : ∃ t u, execMiTimeRecord bad s = .next t ∧ t.mi.lasting = { s.mi.lasting with
      timeLink := l, timeRec := some r, recAt := u, timeOk := s.mi.timeOk || r.taiValid, timeAt := if r.taiValid then s.abs else s.mi.timeAt } by
    obtain ⟨t, u, hexec, hlast⟩ := h
    exact ⟨t, hexec, congrArg MiState.timeOk hlast, congrArg MiState.timeLink hlast, congrArg MiState.timeAt hlast,
      congrArg MiState.timeRec hlast⟩
  unfold execMiTimeRecord
  rw [h]
  dsimp only
  rw [if_neg (by simp [hb]), if_neg (by simp [hp])]
  refine ⟨_, s.absOf r.lt, rfl, (foldl_lasting (fun u p => ?_) _ _).trans ?_⟩
  · split <;> simp
  · simp only [ite_lasting, miLog_lasting, pushPage_lasting, ite_self]
    rfl

end

section
variable {s : State}

theorem timeOkTimeout_due (hp : s.mi.powered = true) (hok : s.mi.timeOk = true) (h : s.mi.timeAt + secTu 2 ≤ s.abs) :
    execTimeOkTimeout s = .next (miLog 0x0023 0xFF 0 0 (onMi (fun m => { m with timeOk := false }) s)) :=
  if_neg (by simp [hp, hok, h])

theorem timeOkTimeout_idle (h : s.mi.powered = false ∨ s.mi.timeOk = false ∨ s.abs < s.mi.timeAt + secTu 2) : execTimeOkTimeout s = .next s :=
  if_pos (by simpa using h)

/-! ## Timers of a point (R448, R458) -/

variable {p : Fin 8}

theorem miInstantClose_due {i : MiInst} {l : List MiInst} (hw : (getPt s p.val).waiting = i :: l) (hon : ptOn s p.val = true)
    (h : ltReached s.now (ltAdd i.tFirst (usTu (10 * p16 (miSet s) (pPoint p.val + 2)))) = true) :
    execMiInstantClose p s = .next (closeFull p.val (getPt (closeInstant p.val s) p.val).waiting.length (closeInstant p.val s)) := by
  unfold execMiInstantClose
  dsimp only
  rw [hw]
  exact if_pos (by simp [hon, h])

theorem miInstantClose_idle (h : ∀ i l, (getPt s p.val).waiting = i :: l →
      ptOn s p.val = false ∨ ltReached s.now (ltAdd i.tFirst (usTu (10 * p16 (miSet s) (pPoint p.val + 2)))) = false) :
    execMiInstantClose p s = .next s := by
  unfold execMiInstantClose
  dsimp only
  split
  · rfl
  · next i l hw => exact if_neg (by simpa [-not_and, not_and_or] using h i l hw)

/-- T_ZC has run out at `e` for a point, by the tag of its newest corrected instant, or by the clock where it is held or has no instant. -/
def ZcReached (x : MiPoint) (now e : LT) : Prop :=
  (∃ m, x.corr.head? = some m ∧ (ltReached m.tag e = true ∨ ((x.tapLost = true ∨ x.gapFrom.isSome = true) ∧ ltReached now e = true))) ∨
    (x.corr.head? = none ∧ ltReached now e = true)

section
variable {e : LT} (he : e = ltAdd (getPt s p.val).zcLast (msTu (10 * pByte (miSet s) (pPoint p.val + 0xD))))
include he

theorem zcTimeout_due (hon : ptOn s p.val = true) (h : ZcReached (getPt s p.val) s.now e) :
    execZcTimeout p s = .next (modPt p.val
      (fun x => { x with period := if x.rawN = 0 then [] else (getPt s p.val).period.filter (fun c => ltReached c.tag e) })
      (closePeriod p.val ((getPt s p.val).period.filter (fun c => !ltReached c.tag e))
        ((fun u => if !(getPt s p.val).noZc then zcLog p.val 0x0021 u else u) (modPt p.val (fun x => { x with
          noZc := true, freqInvalid := true, zcFirst := none, zcCount := 0, zcLast := e, zc := .replicate 3 none }) s)))) := by
  subst he
  unfold execZcTimeout
  dsimp only
  cases hm : (getPt s p.val).corr.head? with
  | none =>
    refine if_neg ?_
    simpa [ZcReached, hm, hon] using h
  | some m =>
    refine if_neg ?_
    simpa only [ZcReached, hm, hon, Option.some.injEq, exists_eq_left', Bool.not_true, Bool.false_or, Bool.not_eq_true, Bool.not_eq_false',
      Bool.or_eq_true, Bool.and_eq_true, reduceCtorEq, false_and, or_false] using h

theorem zcTimeout_idle (h : ptOn s p.val = false ∨ ¬ZcReached (getPt s p.val) s.now e) : execZcTimeout p s = .next s := by
  subst he
  unfold execZcTimeout
  dsimp only
  cases hm : (getPt s p.val).corr.head? with
  | none => exact if_pos (by simpa [ZcReached, hm] using h)
  | some m => exact if_pos (by simpa [ZcReached, hm, -not_and, not_and_or] using h)

end

theorem tapLost_due (hon : ptOn s p.val = true) (hl : (getPt s p.val).tapLost = false) (h : (getPt s p.val).lastRx + secTu 1 ≤ s.abs) :
    execTapLost p s = .next (pushPage (pushBlock p.val
      (modPt p.val (fun x => { x with tapLost := true, ok := false, ptStatus := x.ptStatus ||| 0x80 }) (holdSilent p.val s)))) :=
  if_neg (by simp [hon, hl, h])

theorem tapLost_idle (h : ptOn s p.val = false ∨ (getPt s p.val).tapLost = true ∨ s.abs < (getPt s p.val).lastRx + secTu 1) :
    execTapLost p s = .next s :=
  if_pos (by simpa [or_assoc] using h)

/-! ## Saves and the seal switch (R450, R463) -/

theorem registerSave_saves (hp : s.mi.powered = true) : execRegisterSave s = .next (pushPage (saveRegs true false s)) := if_neg (by simp [hp])

theorem powerFailSave_saves (hp : s.mi.powered = true) (d : Bool) :
    execPowerFailSave d s = .next (onMi (fun m => { m with powered := false, downAt := s.abs }) (saveRegs d true s)) := if_neg (by simp [hp])

theorem sealClose_follows (hp : s.mi.powered = true) : execSealClose s = .next (pushPage (onMi (fun m => { m with sealClosed := true }) s)) :=
  if_neg (by simp [hp])

theorem sealOpen_unseals (hp : s.mi.powered = true) (h : sealLast s = .sealed) :
    execSealOpen s = .next (miLog 0x0012 0xFF 0 0 (setSeal .unsealed (onMi (fun m => { m with
      sealClosed := false, unsealCount := satInc m.unsealCount }) s))) :=
  (if_neg (by simp [hp])).trans (if_neg (not_not.2 h))

theorem sealOpen_follows (hp : s.mi.powered = true) (h : sealLast s ≠ .sealed) :
    execSealOpen s = .next (pushPage (onMi (fun m => { m with sealClosed := false }) s)) :=
  (if_neg (by simp [hp])).trans (if_pos h)

/-- A die without power does nothing at its save and switch events. -/
theorem saves_and_switch_idle (hp : s.mi.powered = false) :
    execRegisterSave s = .next s ∧ (∀ d, execPowerFailSave d s = .next s) ∧ execSealClose s = .next s ∧ execSealOpen s = .next s :=
  ⟨if_pos (by simp [hp]), fun _ => if_pos (by simp [hp]), if_pos (by simp [hp]), if_pos (by simp [hp])⟩

end

/-! ## Power-up (R463) -/

/-- The two copies of the registers, incomplete where a word of theirs is found bad. -/
def savesLeft (b : List (Fin 4)) (s : State) : State :=
  onMi (fun m => { m with saves := #v[
    if b.any (fun i => i.val == 2) then { vget s.mi.saves 0 {} with complete := false } else vget s.mi.saves 0 {},
    if b.any (fun i => i.val == 3) then { vget s.mi.saves 1 {} with complete := false } else vget s.mi.saves 1 {}] }) s

/-- A die that has powered up from `s`: its switch as it stands, no time and no part of a set, and every register from the newest complete save. -/
def PoweredUp (s : State) (b : List (Fin 4)) (k : Bool) (t : State) : Prop :=
  t.mi.powered = true ∧ t.mi.sealClosed = k ∧ t.mi.timeOk = false ∧ t.mi.timeRec = none ∧ t.mi.part0 = none ∧
    ∀ (p : Fin 8) (n : Fin 10), vget (getPt t p.val).reg n.val {} = match newestSave (savesLeft b s) with
      | some v => (v.regs.getD p.val []).getD n.val {}
      | none => {}

theorem newestSave_of_saves {s t : State} (h : s.mi.saves = t.mi.saves) : newestSave s = newestSave t := by
  unfold newestSave
  rw [h]

theorem reg_getPt_of_lasting {s t : State} (h : t.mi.lasting.point = s.mi.lasting.point) (p : Fin 8) : (getPt t p.val).reg = (getPt s p.val).reg := by
  have hp := congrArg (fun v : Vector MiPoint 8 => v[p.val].reg) h
  simpa [MiState.lasting, getPt] using hp

/-- What lasts, the count of unsealings apart, tells whether a die has powered up. -/
theorem PoweredUp.of_lasting {s t u : State} {b : List (Fin 4)} {k : Bool} (hu : PoweredUp s b k u)
    (h : ∃ n, t.mi.lasting = { u.mi.lasting with unsealCount := n }) : PoweredUp s b k t := by
  obtain ⟨hpow, hclosed, hok, hrec, hpart, hreg⟩ := hu
  obtain ⟨n, h⟩ := h
  refine ⟨(congrArg MiState.powered h).trans hpow, (congrArg MiState.sealClosed h).trans hclosed, (congrArg MiState.timeOk h).trans hok,
    (congrArg MiState.timeRec h).trans hrec, (congrArg MiState.part0 h).trans hpart, fun p n => ?_⟩
  rw [reg_getPt_of_lasting (s := u) (by rw [h]) p]
  exact hreg p n

/-- The registers are restored before the log records, the blocks and a loss of the seal, which leave them. -/
theorem miPowerUp_restores (s : State) (b : List (Fin 4)) (k : Bool) : ∃ t, execMiPowerUp b k s = .next t ∧ PoweredUp s b k t := by
  unfold execMiPowerUp
  extract_lets torn lose drop u save set seal_ pf restored cut v fresh x px y lost z a b' c
  have hsave : newestSave (savesLeft b s) = save := newestSave_of_saves rfl
  clear_value save
  have hv : v.mi.lasting = u.mi.lasting := by
    unfold v
    split
    · exact foldl_lasting (fun w p => cutInterval_lasting ..) _ _
    · rfl
  have hy : PoweredUp s b k y := by
    refine ⟨congrArg MiState.powered hv, congrArg MiState.sealClosed hv, congrArg MiState.timeOk hv, congrArg MiState.timeRec hv,
      congrArg MiState.part0 hv, fun p n => ?_⟩
    have hreg : (getPt y p.val).reg = restored p.val := by simp [y, x, getPt]
    rw [hsave, hreg]
    unfold restored
    split <;> simp
  have hc : c.mi.lasting = y.mi.lasting := by
    have ha : a.mi.lasting = y.mi.lasting := (foldl_lasting (fun w _ => miLog_lasting ..) _ _).trans (miLog_lasting ..)
    refine (foldl_lasting (fun w p => pushBlock_lasting p w) _ _).trans ?_
    unfold b'
    split
    · exact (foldl_lasting (fun w g => miLog_lasting ..) _ _).trans ha
    · exact ha
  refine ⟨_, rfl, hy.of_lasting ?_⟩
  split
  · refine ⟨satInc c.mi.unsealCount, ?_⟩
    rw [miLog_lasting, setSeal_lasting]
    exact congrArg (fun m : MiState => { m with unsealCount := satInc c.mi.unsealCount }) hc
  · exact ⟨y.mi.unsealCount, hc⟩

/-! ## The mailbox store (R443, R466) -/

section
variable {s : State} {bad : List Nat}

theorem mailboxUpdate_empty (h : s.mi.mailLink = []) : execMailboxUpdate bad s = .next s := by
  unfold execMailboxUpdate
  rw [h]

section
variable {u : MailUpd} {g : Tag} {l : List (MailUpd × Tag)} (h : s.mi.mailLink = (u, g) :: l)
include h

theorem mailboxUpdate_mainOff (hr : s.pa.power ≠ .running) : execMailboxUpdate bad s = .next (onMi (fun m => { m with mailLink := l }) s) := by
  unfold execMailboxUpdate
  rw [h]
  exact if_pos hr

variable (hr : s.pa.power = .running)
include hr

theorem mailboxUpdate_stores (hw : ((List.range (mailWords u)).filter (fun i => bad.contains i)).length ≠ mailWords u) :
    execMailboxUpdate bad s = .next (storeMail u ((List.range (mailWords u)).filter (fun i => bad.contains i)) (onMi (fun m => { m with
      mailLink := l, mail := { m.mail with
        discard := m.mail.discard + BitVec.ofNat 32 ((List.range (mailWords u)).filter (fun i => bad.contains i)).length
        alive := true, aliveLt := s.now, aliveAt := s.abs } }) s)) := by
  unfold execMailboxUpdate
  rw [h]
  exact (if_neg (not_not.2 hr)).trans (if_neg hw)

theorem mailboxUpdate_lost (hw : ((List.range (mailWords u)).filter (fun i => bad.contains i)).length = mailWords u) :
    execMailboxUpdate bad s = .next (onMi (fun m => { m with mailLink := l, mail := { m.mail with
      discard := m.mail.discard + BitVec.ofNat 32 ((List.range (mailWords u)).filter (fun i => bad.contains i)).length } }) s) := by
  unfold execMailboxUpdate
  rw [h]
  exact (if_neg (not_not.2 hr)).trans (if_pos hw)

end

theorem mailboxSilent_due (ha : s.mi.mail.alive = true) (h : s.mi.mail.aliveAt + secTu 1 ≤ s.abs) :
    execMailboxSilent s = .next (raise 0x5A 0 (onMi (fun m => { m with mail := { m.mail with alive := false } }) s)) :=
  if_neg (by simp [ha, h])

theorem mailboxSilent_idle (h : s.mi.mail.alive = false ∨ s.abs < s.mi.mail.aliveAt + secTu 1) : execMailboxSilent s = .next s :=
  if_pos (by simpa using h)

end

/-- Settles O50: each event by what it does where it is due and where it is not; a time record and a power-up by what their log records, updates
and seal changes leave. -/
theorem metrologyFollowsTheTap : Obligations.MetrologyFollowsTheTap := by
  unfold Obligations.MetrologyFollowsTheTap
  exact ⟨fun s f bad x r g l h hb => miTapFrame_badWords h hb,
    fun s f bad x r g l d a v h hb hm hf h0 h8 hk t ht => miTapFrame_samples h hb hm hf h0 h8 hk ht,
    fun s f bad x r g l h hb hn => miTapFrame_malformed h hb hn,
    fun s f bad b n => ⟨miTapFrame_empty, miTimeRecord_empty, mailboxUpdate_empty⟩,
    fun s bad r g l h hb hp => miTimeRecord_taken h hb hp, fun s bad r g l h => ⟨miTimeRecord_bad h, miTimeRecord_noPower h⟩,
    fun s hp hok h => timeOkTimeout_due hp hok h, fun s h => timeOkTimeout_idle h,
    fun s p i l hw hon h => miInstantClose_due hw hon h, fun s p h => miInstantClose_idle h,
    fun s p e he hon h => zcTimeout_due he hon h, fun s p e he h => zcTimeout_idle he h,
    fun s p hon hl h => tapLost_due hon hl h, fun s p h => tapLost_idle h,
    fun s hp => ⟨registerSave_saves hp, powerFailSave_saves hp, sealClose_follows hp⟩,
    fun s hp h => sealOpen_unseals hp h, fun s hp h => sealOpen_follows hp h, fun s hp => saves_and_switch_idle hp,
    fun s b k => miPowerUp_restores s b k,
    fun s bad u g l h hr => mailboxUpdate_mainOff h hr, fun s bad u g l h hr hw => mailboxUpdate_stores h hr hw,
    fun s bad u g l h hr hw => mailboxUpdate_lost h hr hw,
    fun s ha h => mailboxSilent_due ha h, fun s h => mailboxSilent_idle h⟩

end Sys2Proof.Machine
end
